-- ==== Sys2Proof/Word.lean ====
section
/-! DEFINITION. The word types of the package and their plainest arithmetic. -/

namespace Sys2Proof

/-- One byte of memory, of a descriptor or of a record. -/
abbrev Byte := BitVec 8

/-- A register, as R4 gives it. -/
abbrev W64 := BitVec 64

/-- A 48-bit physical address (R16). -/
abbrev Addr := BitVec 48

/-- A commit set number, modulo 2^16 (R40). -/
abbrev SetNo := BitVec 16

/-- A 64-byte descriptor, its byte at the lowest address in bits [7:0] (R3, R94). -/
abbrev Desc := BitVec 512

end Sys2Proof
end

