-- ==== Sys2Proof/Syntax.lean ====
section
/-! DEFINITION. The commands of the block and their operands. -/

namespace Sys2Proof

/-- Who makes an access of the physical map (R16, R19). -/
inductive Agent where
  /-- A host core, 0..95. -/
  | host (core : Fin 96)
  /-- A tile control core, by the tile's unit number. -/
  | control (unit : Fin 512)
  /-- A harbourmaster core, 0..3. -/
  | hm (core : Fin 4)
  /-- The debug port. -/
  | debug
  /-- An engine of a unit: a tile's DMA and engines, the update engine, customs or the decoders. -/
  | engine (unit : Fin 516)
  /-- The coherent DMA of the queues. -/
  | copyDma
  /-- A PCIe device behind root port n. -/
  | pcie (n : Fin 4)
  /-- A Hural partner, by its berth. -/
  | partner (berth : Fin 256)
deriving DecidableEq, Repr

/-- What an access does. A write carries its commit class bit CC, its partition and its layer (R210). -/
inductive AccessOp where
  | read (len : Nat)
  | write (bytes : List Byte) (cc : Bool) (part : Fin 64) (layer : Nat)
deriving DecidableEq, Repr

/-- Atomic operations of the A and Zacas extensions that a member performs (R266). -/
inductive AmoOp where
  | swap | add | and | or | xor | min | max | minu | maxu
deriving DecidableEq, Repr


/-- A step of a session set-up with what Table 16-4 says it carries: HELLO, the encapsulation key, the ciphertext with the responder's signature, and the initiator's signature; in a rekey the last also names the switch sequence number (R346, R347). -/
inductive HsMsg where
  | hello (rev : Nat) (idrev : W64) (berth role : Byte) (nonce key endorsement : List Byte)
  | encap (key : List Byte)
  | cipher (ct sig : List Byte)
  | finish (sig : List Byte) (switch : Nat)
deriving DecidableEq, Repr


/-- What completes a restore phase, with what the holders supplied: the address, the commit records in the holders' slots, each with its COMMIT objects (none where both holders lack one), the snapshot, one step of the roll-forward with its gradients and UPD items, the pipeline, the first plan (R373 to R375). -/
inductive RestoreStep where
  | address
  | record (slots : List (List Byte × List (Addr × List Byte)))
  | snapshot (writes : List (Addr × List Byte))
  | roll (step : Nat) (writes : List (Addr × List Byte)) (items : List Desc) (last : Bool)
  | pipeline
  | answering
deriving DecidableEq, Repr

/-- The commands of the block, one constructor per row of spec/opcode_table.json. -/
inductive Instr where
  /-- REGISTER_WRITE (R5): Software writes a register that has no row of its own, and each field acts according to its access code. -/
  | registerWrite (who : Agent) (addr : Addr) (size : Nat) (val : W64)
  /-- BELL_QERR_READ (R5): A read of the RC register BELL_QERR returns its value and clears it; an event in the same cycle goes to the next read. -/
  | bellQerrRead (who : Agent) (k : Fin 4) (coincident : W64)
  /-- PHYSICAL_ACCESS (R16): An agent's read or write reaches the physical map, and the package translates, routes and serves it. -/
  | physicalAccess (who : Agent) (addr : Addr) (op : AccessOp) (symErr : Nat)
  /-- CLOCK_LOST (R15): A monitor sees no edge for 8 nominal periods, declares the clock lost, sets CLK_LOSS and logs it. -/
  | clockLost (dom : Fin 26)
  /-- CLK_MEAS_START (R14): Writing CLK_MEAS.START clears DONE and starts a 1 ms counting window, or restarts a running one. -/
  | clkMeasStart (sel : BitVec 5)
  /-- CLK_MEAS_DONE (R14): The 1 ms window ends, COUNT takes the edge count and DONE sets. -/
  | clkMeasDone (count : BitVec 32)
  /-- TIDE_MARK (R24): A tide mark reaches every die, TIDE_COUNT increments, the ledgers are snapshot and the grace window opens. -/
  | tideMark (used : List Nat) (ptpOff : BitVec 32)
  /-- FRAME_COMPOSE (R40): At T − 1.0 µs the pilot composes the tide frame with the highest committable token and any dark declaration. -/
  | frameCompose
  /-- TIDE_FRAME_RECEIVE (R45): A package receives and checks a tide frame, corrects its flywheel phase and takes COUNT, PERIOD, TOKEN and DARK from it. -/
  | tideFrameReceive (spare : Bool) (frame : BitVec 128)
  /-- FRAME_MISSING (R47): An expected frame is missing or fails its check, and the package counts it. -/
  | frameMissing (spare : Bool)
  /-- SKEW_CHECK (R46): Every 2^16 tides the harbourmaster measures skew by timestamp exchange and rewrites TIDE_COMP when it exceeds 50 ns. -/
  | skewCheck (skewNs : Nat) (delay : BitVec 11)
  /-- BUDGET_MESSAGE_SEND (R285): At T + 0.6 µs each die sends its budget message for the ended tide. -/
  | budgetMessageSend (d : Fin 6) (temp : BitVec 16) (margin : BitVec 16)
  /-- BUDGET_MESSAGE (R285): The harbourmaster receives a die's budget message, and discards it when its check or TIDE fails. -/
  | budgetMessage (flit : Desc)
  /-- ALLOTMENT_SEND (R324): The harbourmaster computes the caps and each die's allotment and returns the allotments by T + 1.6 µs. -/
  | allotmentSend (eta : Fin 1001)
  /-- ALLOTMENT (R327): A die receives its allotment and chooses its power state and idle slots for the new tide. -/
  | allotment (flit : Desc)
  /-- GRACE_END (R31): At T + 2.0 µs the package latches slips and carries out the boundary actions in the order of Table 2-3. -/
  | graceEnd
  /-- PLAN_TAKE (R29): At T + 2.5 µs each partition without a slip takes its next plan from TIDE_PLAN or LINK, or idles. -/
  | planTake
  /-- TIDE_PLAN_WRITE (R29): Software writes TIDE_PLAN with ADDR and VALID, naming the partition's next plan. -/
  | tidePlanWrite (p : Fin 64) (addr : Addr)
  /-- READY_REPORT_SEND (R39): Once every plan of a set has finished and its mirrors are acknowledged, the package sends a ready report to the pilots. -/
  | readyReportSend (set : SetNo)
  /-- READY (R40): The pilot receives a ready report for a commit set from a berth. -/
  | ready (n : Fin 19)
  /-- FREADY_SEND (R51): A pilot whose flotilla is ready for a cross-flotilla set sends a flotilla-ready report to the other pilots. -/
  | freadySend (set : SetNo) (others : List Nat)
  /-- FREADY (R51): A pilot receives a flotilla-ready report and schedules the token for count m + 2. -/
  | fready (f : Nat) (set : SetNo) (tide : BitVec 48)
  /-- DEFERRED_COMMIT (R42): A buffer whose commit waited commits when the last item of the ended tide that reads it finishes. -/
  | deferredCommit (group : Fin 256)
  /-- CHART_AMEND_GO (R78): Software submits an amendment through CHART_AMEND; a second GO while one is busy is rejected with 0x0D. -/
  | chartAmendGo (addr : Addr)
  /-- AMEND_CHECK_DONE (R78): The service core finishes checking an amendment and stages it or rejects it with a reason. -/
  | amendCheckDone
  /-- CHART_AMEND_CANCEL (R79): Software withdraws a staged amendment, and AMEND becomes 5 with REASON 0x0F. -/
  | chartAmendCancel
  /-- AMEND_DRAIN_TIMEOUT (R82): A class D amendment not applied by boundary N + 1,024 is rejected with 0x0E. -/
  | amendDrainTimeout
  /-- CHART_FLASH_GO (R84): Software asks the harbourmaster to check a full chart and write it to the flash slot not in use. -/
  | chartFlashGo (addr : Addr)
  /-- CHART_FLASH_CHECK_DONE (R84): The check of a CHART_FLASH image ends, and a failure sets FLASH to 3 with FREASON. -/
  | chartFlashCheckDone
  /-- CHART_FLASH_WRITE_DONE (R84): The slot write completes, and FLASH becomes 2, or 3 on a programming failure. -/
  | chartFlashWriteDone (ok : Bool)
  /-- NOP (R96): The matrix sequencer runs a NOP that completes at once and applies its WAIT and SIG. -/
  | nop (u : Fin 512)
  /-- MMA (R101): The matrix engine starts an MMA once its waits are met, applies INIT and accumulates group sums into its bank. -/
  | mma (u : Fin 512)
  /-- LONG_SUM_FOLD (R123): When a bank's group counter reaches 2^L, the engine folds every element stochastically and resets the counter. -/
  | longSumFold (u : Fin 512) (b : Fin 2)
  /-- MMA_COMPLETE (R103): An MMA completes, its bank goes HELD or FULL, its SIG applies, and a release reaches the vector engine. -/
  | mmaComplete (u : Fin 512)
  /-- MX_CTL_RESUME (R109): Writing MX_CTL.RESUME completes the faulting item without effect, applies its SIG and ends the halt. -/
  | mxCtlResume (u : Fin 512)
  /-- STREAM_WRAP (R130): A stream's BLOCK passes 0x7FF_FFFF within a step, wraps to 0 and the tile logs the wrap. -/
  | streamWrap (u : Fin 512) (stream : Fin 8)
  /-- COMPLETION_REPORT (R144): The verdict unit receives a tile's completion report, merges its flags and rows and ends the pass at ITEMS reports. -/
  | completionReport (u : Fin 512)
  /-- VERDICT (R145): Within 16 cycles of the pass end, the verdict unit decides clean or repeat and updates the NUM counters. -/
  | verdict (p : Fin 64) (layer : BitVec 16)
  /-- REPEAT_PLAN_FETCHED (R146): The repeat plan is checked, and its items are placed ahead of the unstarted items of the current plan. -/
  | repeatPlanFetched (p : Fin 64) (layer : BitVec 16)
  /-- VERDICT_DELIVERY (R145): The verdict reaches a tile, which acts on it. -/
  | verdictDelivery (u : Fin 512)
  /-- ADD (R168): The vector engine adds A and B element by element. -/
  | add (u : Fin 512)
  /-- SUB (R168): The vector engine subtracts B from A element by element. -/
  | sub (u : Fin 512)
  /-- MUL (R168): The vector engine multiplies A and B element by element. -/
  | mul (u : Fin 512)
  /-- FMA (R168): The vector engine computes a × b + c with one rounding. -/
  | fma (u : Fin 512)
  /-- MAX (R174): The vector engine takes the element-wise maximum, with NaN giving the canonical NaN. -/
  | max (u : Fin 512)
  /-- MIN (R174): The vector engine takes the element-wise minimum. -/
  | min (u : Fin 512)
  /-- ABS (R168): The vector engine takes the absolute value of A. -/
  | abs (u : Fin 512)
  /-- NEG (R168): The vector engine negates A. -/
  | neg (u : Fin 512)
  /-- SELGT (R174): The vector engine selects c where a > b, and +0 elsewhere. -/
  | selgt (u : Fin 512)
  /-- CVT (R170): The vector engine converts a × 2^SEXP to DFMT. -/
  | cvt (u : Fin 512)
  /-- EXP2 (R175): The vector engine computes 2^a. -/
  | exp2 (u : Fin 512)
  /-- LOG2 (R175): The vector engine computes log2 a. -/
  | log2 (u : Fin 512)
  /-- RECIP (R175): The vector engine computes 1 ÷ a. -/
  | recip (u : Fin 512)
  /-- RSQRT (R175): The vector engine computes 1 ÷ √a. -/
  | rsqrt (u : Fin 512)
  /-- SQRT (R175): The vector engine computes √a. -/
  | sqrt (u : Fin 512)
  /-- TANH (R175): The vector engine computes tanh a. -/
  | tanh (u : Fin 512)
  /-- RSUM (R172): The vector engine sums each active row into column 0 and writes +0 in the other columns. -/
  | rsum (u : Fin 512)
  /-- RMAX (R172): The vector engine takes the maximum of each active row into column 0. -/
  | rmax (u : Fin 512)
  /-- CSUM (R172): The vector engine sums each active column into row 0. -/
  | csum (u : Fin 512)
  /-- OUT (R176): The vector engine writes out a bank or buffer with drop, loss scale, amax and a single rounding. -/
  | out (u : Fin 512)
  /-- SPILL (R179): The vector engine writes a bank image into a buffer pair. -/
  | spill (u : Fin 512)
  /-- FREE (R171): The vector engine waits for a FULL bank and frees it on completion. -/
  | free (u : Fin 512)
  /-- WIN (R187): The vector engine runs one window pass in FMA, MAX or ADD mode. -/
  | win (u : Fin 512)
  /-- VX_ITEM_COMPLETE (R171): A vector item completes, applies its SIG and frees its source bank when asked to. -/
  | vxItemComplete (u : Fin 512)
  /-- VX_CTL_RESUME (R188): Writing VX_CTL.RESUME completes the faulting vector item without effect and ends the halt. -/
  | vxCtlResume (u : Fin 512)
  /-- COPY (R183): The tile DMA moves rows of bytes between physical memory, the operand store and the tile buffers. -/
  | copy (u : Fin 512)
  /-- LOWER_MATRIX_ROWS (R185): The lowering unit in mode 0 writes convolution input rows in the A operand layout. -/
  | lowerMatrixRows (u : Fin 512)
  /-- LOWER_WINDOW_LINE (R185): The lowering unit in mode 1 writes one window line into tile buffers. -/
  | lowerWindowLine (u : Fin 512)
  /-- DMA_ITEM_COMPLETE (R183): A DMA item completes once its last byte has reached its destination, and applies its SIG. -/
  | dmaItemComplete (u : Fin 512)
  /-- VX_DMA_CTL_RESUME (R188): Writing VX_DMA_CTL.RESUME ends a DMA halt. -/
  | vxDmaCtlResume (u : Fin 512)
  /-- WATCH_RECOMPUTE_START (R159): The vector engine, with no item to issue, begins recomputing a sampled MMA. -/
  | watchRecomputeStart (u : Fin 512)
  /-- WATCH_RECOMPUTE_END (R160): A recomputation ends, its bin is found and the sample enters HIST or waits for its verdict. -/
  | watchRecomputeEnd (u : Fin 512)
  /-- WATCH_ABANDON (R159): A recomputation is abandoned when a deferred write has waited 4,096 cycles or grace ends. -/
  | watchAbandon (u : Fin 512)
  /-- UPD (R198): The update engine computes new weights, remainders and moments of a tensor into the shadow buffer. -/
  | upd
  /-- WCOPY (R197): The update engine copies the live weights to DADDR in DFMT with a single rounding. -/
  | wcopy
  /-- UPD_NOP (R191): The update engine runs a NOP that applies its WAIT and SIG. -/
  | updNop
  /-- UPD_ITEM_COMPLETE (R192): An update item completes and applies its SIG. -/
  | updItemComplete
  /-- UPD_CTL_DISCARD (R205): Writing DISCARD while no UPD is in progress clears every PEND bit and PSET.VALID and logs it. -/
  | updCtlDiscard
  /-- UPD_CTL_RESUME (R208): Writing UPD_CTL.RESUME ends an update halt without writing anything. -/
  | updCtlResume
  /-- UPD_LIVE_WRITE (R205): Software writes UPD_LIVE; the write is ignored and logged while the partition holds a plan. -/
  | updLiveWrite (k : Fin 4) (val : W64)
  /-- SCH_CTL_RECALC (R206): Writing RECALC while the partition holds no plan computes η at once, and otherwise is ignored and logged. -/
  | schCtlRecalc
  /-- HELD_ACCESS_RELEASE (R213): A member access held on a marked line proceeds once its pass or pending set ends. -/
  | heldAccessRelease (k : Nat)
  /-- HOLD_TIMEOUT (R213): An access held for 8 tide periods faults and is logged. -/
  | holdTimeout (k : Nat)
  /-- STALL_TIMEOUT (R242): A coherent member access stalled for 8 tide periods faults and is logged. -/
  | stallTimeout (k : Nat)
  /-- TIER_CTL_INVAL (R235): Writing INVAL drops every cached translation on all dies and sets INVALBUSY. -/
  | tierCtlInval
  /-- TIER_INVAL_DONE (R235): The invalidation completes and INVALBUSY clears. -/
  | tierInvalDone
  /-- TIER_MIGPTR_TAIL (R236): Software advances the migration ring tail, and the copy engines take the new requests. -/
  | tierMigptrTail (tail : BitVec 16)
  /-- MIGRATION_PLACE (R236): A place request zero-fills a frame and maps an absent page. -/
  | migrationPlace
  /-- MIGRATION_MOVE (R237): A move request sets MIG and copies the page to its new frame. -/
  | migrationMove
  /-- MIGRATION_MOVE_DONE (R237): The copy ends, and the package writes FRAME and TIER, clears MIG, drops translations, releases writes and frees the old frame. -/
  | migrationMoveDone
  /-- MIGRATION_UNMAP (R236): An unmap request sets the page absent and frees its frame. -/
  | migrationUnmap
  /-- QUOTA_WAIT_RELEASE (R239): A request waiting with STATUS 4 proceeds once the account's use falls low enough. -/
  | quotaWaitRelease
  /-- EVICTION_DEADLINE (R241): 1,024 tides after an eviction notice, the lender frees the frame and any page still in it is lost. -/
  | evictionDeadline (frame : Nat)
  /-- PATROL (R246): A patrol of warehouse lines or quay words corrects errors and poisons uncorrectable lines. -/
  | patrol (addr : Addr) (symErr : Nat)
  /-- TIER_OBJCTL_REBUILD (R249): Writing OP = 1 sets the object's STATE to 2 so that rebuild writes pass the stall. -/
  | tierObjctlRebuild (obj : BitVec 16)
  /-- TIER_OBJCTL_RELEASE (R249): Writing OP = 2 returns the object to STATE 0 if POISLINES is 0, and otherwise refuses and logs it. -/
  | tierObjctlRelease (obj : BitVec 16)
  /-- TIER_OBJCTL_ESCALATE (R251): Writing OP = 3 sets STATE to 3 and ESCALATE, and the package is treated as failed. -/
  | tierObjctlEscalate (obj : BitVec 16)
  /-- AGENT_LOAD (R261): A member agent's load hits or sends RdS. -/
  | agentLoad (a : Fin 514) (line : Addr)
  /-- AGENT_STORE (R261): A member agent's store hits, upgrades or sends RdX. -/
  | agentStore (a : Fin 514) (addr : Addr) (bytes : List Byte)
  /-- AGENT_EVICT (R261): A member agent evicts a line, dropping it or sending EvC, EvF or WB. -/
  | agentEvict (a : Fin 514) (line : Addr)
  /-- RDS (R261): A home receives RdS and serves it from memory, an owner or a forwarder. -/
  | rds (a : Fin 514) (line : Addr)
  /-- RDX (R261): A home receives RdX and invalidates other holders before granting M. -/
  | rdx (a : Fin 514) (line : Addr)
  /-- UPG (R261): A home receives Upg and invalidates the other sharers. -/
  | upg (a : Fin 514) (line : Addr)
  /-- WB (R265): A home receives a write-back, writes it to memory, answers any waiting snoop from it and sends WbAck. -/
  | wb (a : Fin 514) (line : Addr)
  /-- EVC (R265): A home receives EvC or EvF and updates its directory. -/
  | evc (a : Fin 514) (line : Addr)
  /-- SNPS (R261): An agent receives SnpS and supplies data, changing state. -/
  | snps (a : Fin 514) (line : Addr)
  /-- SNPX (R261): An agent receives SnpX and invalidates its copy, returning data when dirty. -/
  | snpx (a : Fin 514) (line : Addr)
  /-- SNPC (R261): An agent receives SnpC and supplies its data unchanged. -/
  | snpc (a : Fin 514) (line : Addr)
  /-- SNOOP_RESPONSE (R262): A home receives a snoop reply and completes the transaction it belongs to. -/
  | snoopResponse (a : Fin 514) (line : Addr)
  /-- WBACK (R265): An agent receives WbAck and clears its pending write-back. -/
  | wback (a : Fin 514) (line : Addr)
  /-- SNOOP_HOLD_EXPIRY (R264): The 64 ns hold on a newly received line ends, and the waiting snoop is answered. -/
  | snoopHoldExpiry (a : Fin 514) (line : Addr)
  /-- UNCACHED_READ (R262): A home serves an uncached read from memory or from an owner. -/
  | uncachedRead (addr : Addr) (len : Nat)
  /-- UNCACHED_FULL_WRITE (R262): A home invalidates every holder and writes the full line. -/
  | uncachedFullWrite (line : Addr) (data : Desc)
  /-- UNCACHED_PARTIAL_WRITE (R262): A home invalidates holders and merges a partial write. -/
  | uncachedPartialWrite (addr : Addr) (bytes : List Byte)
  /-- AMO (R266): A member performs an AMO near at the home or far in its cache as its predictor chooses. -/
  | amo (core : Fin 608) (addr : Addr) (op : AmoOp) (size : Nat) (val : W64)
  /-- LR_SC (R266): A member performs LR or SC far in its own cache. -/
  | lrSc (core : Fin 608) (addr : Addr) (sc : Bool) (size : Nat) (val : W64)
  /-- COH_CTL_MODE (R261): Software requests the test mode or service; the write is ignored and logged outside FAB or D2. -/
  | cohCtlMode (b : Bool)
  /-- DEPART (R268): A home receives Depart, removes the agent from its directory and acknowledges. -/
  | depart (a : Fin 514)
  /-- DEPARTURE_COMPLETE (R268): Every home has acknowledged, and the departure completes. -/
  | departureComplete (a : Fin 514)
  /-- SNOOP_TIMEOUT (R270): A snoop reply not received within 20 µs collapses the coherent domain. -/
  | snoopTimeout (a : Fin 514) (line : Addr)
  /-- DEPARTURE_TIMEOUT (R270): A departure that misses its bound collapses the coherent domain. -/
  | departureTimeout (a : Fin 514)
  /-- COLLAPSE (R271): The homes stop granting and flush owners; the cause is recorded and logged. -/
  | collapse (cause : BitVec 8) (agent : Nat) (line : Addr)
  /-- COLLAPSE_FLUSH_END (R271): At the end of the write-back window, lines of dead owners are poisoned, directories cleared and the parts reset. -/
  | collapseFlushEnd
  /-- LANE_FRAME_RECEIVE (R277): A receiver checks a lane frame and acknowledges it, or discards it and answers with a negative acknowledgement. -/
  | laneFrameReceive (e : Fin 8) (dir : Bool) (lane : Fin 4) (frame : List (Bool × Desc)) (crc : BitVec 16)
  /-- LANE_NAK_RECEIVE (R277): A transmitter resends the failed frame and every later frame of the lane from its replay buffer. -/
  | laneNakReceive (e : Fin 8) (dir : Bool) (lane : Fin 4) (resent : Fin 65)
  /-- DROP_NOTICE (R278): Both directions stop using a lane, resend unacknowledged frames and set NARROWED. -/
  | dropNotice (e : Fin 8) (dir : Bool) (lane : Fin 4) (resent : Fin 257)
  /-- D2D_CTL_RETRAIN (R279): Writing RETRAIN takes the edge out of service and trains it. -/
  | d2dCtlRetrain (e : Fin 8)
  /-- RECEIVE_MAP (R280): A side receives its partner's receive map, computes the width and starts the confirm. -/
  | receiveMap (e : Fin 8) (dir : Bool) (failed failedSpares : List Nat)
  /-- MAP_TIMEOUT (R280): No map arrives within 10 µs, and the attempt fails. -/
  | mapTimeout (e : Fin 8) (failedAB failedBA : List Nat)
  /-- CONFIRM_DONE (R280): The confirm frames finish; the edge runs at the agreed width, retries, or runs forced at 1/4 after three failures. -/
  | confirmDone (e : Fin 8) (ok : Bool)
  /-- ROUTE_RESTORE (R281): Once every flit of a pair has arrived on the alternate route, the pair returns to its primary route. -/
  | routeRestore (e : Fin 8)
  /-- REV2_TAG_FREE (R284): A request held for a revision 2 tag crosses once a tag frees. -/
  | rev2TagFree (e : Fin 8)
  /-- BELL_RING (R290): A bell write sets the queue's TAIL and the front end fetches entries from HEAD. -/
  | bellRing (q : Fin 256) (tail : BitVec 16)
  /-- ENTRY_CHECK (R291): An entry read returns and is accepted when both SEQ copies match NEXTSEQ, or is re-read. -/
  | entryCheck (q : Fin 256)
  /-- REREAD_TIMEOUT (R291): After 2 µs of re-reads without a match, the front end waits for the next bell and counts RUNPAST. -/
  | rereadTimeout (q : Fin 256)
  /-- BELL_ENABLE (R288): Writing EN = 1 resets HEAD, TAIL and NEXTSEQ, or is refused when a ring lies outside the warehouse. -/
  | bellEnable (q : Fin 256)
  /-- BELL_DISABLE (R304): Writing EN = 0 ends unstarted accepted commands with status 0x05. -/
  | bellDisable (q : Fin 256)
  /-- CMD_NOP (R292): The front end runs a NOP command. -/
  | cmdNop (q : Fin 256)
  /-- CMD_PUT (R292): The front end writes the inline payload at DST. -/
  | cmdPut (q : Fin 256)
  /-- CMD_COPY (R292): The copy engines move LEN bytes, after any PREFILL. -/
  | cmdCopy (q : Fin 256)
  /-- CMD_PLAN (R294): The front end waits for TIDE_PLAN.VALID to read 0 and then writes the partition's plan. -/
  | cmdPlan (q : Fin 256)
  /-- CMD_PLAN_DELIVER (R292): Once VALID reads 0, the PLAN command writes TIDE_PLAN with ADDR and VALID. -/
  | cmdPlanDeliver (q : Fin 256)
  /-- COMMAND_COMPLETE (R299): A command completes, and its record is posted once its writes have reached their homes, followed by any IRQ write. -/
  | commandComplete (q : Fin 256)
  /-- BELL_CQHEAD_WRITE (R296): Software advances CQHEAD, and held records and starts resume. -/
  | bellCqheadWrite (q : Fin 256) (head : BitVec 16)
  /-- BELL_VIS_READ (R300): A read of BELL_VIS is held until the queue's non-coherent writes are delivered. -/
  | bellVisRead (who : Agent) (q : Fin 256)
  /-- BELL_VIS_REPLY (R300): Once delivery is confirmed, BELL_VIS returns the latest SEQ. -/
  | bellVisReply (q : Fin 256)
  /-- PCIE_DEVICE_WRITE (R302): The IOMMU admits a device write inside a lighter, or discards it and counts it. -/
  | pcieDeviceWrite (n : Fin 4) (addr : Addr) (bytes : List Byte)
  /-- PCIE_DEVICE_READ (R302): The IOMMU admits a device read or answers it with Unsupported Request. -/
  | pcieDeviceRead (n : Fin 4) (addr : Addr) (len : Nat)
  /-- CUS_SUBPTR_TAIL (R306): Software advances the submission ring, and customs reads new entries and assigns submission indices. -/
  | cusSubptrTail (tail : BitVec 32)
  /-- CUSTOMS_CHECK (R307): Customs checks a bale header against the chart limits and admits or rejects it. -/
  | customsCheck
  /-- RUN (R308): A RUN item lets customs and the decoders work for DUR ns. -/
  | run (u : Fin 2)
  /-- RUN_COMPLETE (R308): A RUN item completes DUR after it started, and the units pause. -/
  | runComplete (u : Fin 2)
  /-- DECODE_COMPLETE (R309): A decoder finishes a sample, or finds it corrupt and drops it. -/
  | decodeComplete (index : Nat) (result : Option (List Byte))
  /-- CUS_HOSTDONE (R310): Host software reports a host decode done, or the write is ignored and counted as late. -/
  | cusHostdone (val : W64)
  /-- DEADLINE_DROP (R313): A sample not done at T + 2.0 µs of boundary a + DEADLINE is dropped, recorded and folded into the drop digest. -/
  | deadlineDrop
  /-- CUS_CTL_RESTORE (R317): Writing RESTORE discards the window and batches and takes the position from the manifest. -/
  | cusCtlRestore
  /-- CUS_CFG_EN (R311): Writing EN enables the pipeline, or is refused with CFGERR. -/
  | cusCfgEn
  /-- IDLE_SLOTS_BEGIN (R328): A die's run of idle slots begins and its compute clock is gated to the mark. -/
  | idleSlotsBegin (d : Fin 4)
  /-- GAUGE_SAMPLE (R336): A die takes its tide-gauge sample in 4 µs of slack. -/
  | gaugeSample (d : Fin 6) (readings : List (Nat × BitVec 8))
  /-- GAUGE_FORCED_SAMPLE (R336): After 1,024 tides of waiting, the die pauses its items and takes the sample anyway. -/
  | gaugeForcedSample (d : Fin 6) (readings : List (Nat × BitVec 8))
  /-- LIMITER_GATE (R329): A die whose count reaches its allotment gates its clock until the mark and logs it. -/
  | limiterGate (d : Fin 4)
  /-- CRITICAL_TEMPERATURE (R325): A sensor reaching 115 °C gates the die's compute clock at once. -/
  | criticalTemperature (d : Fin 5)
  /-- CRITICAL_TEMPERATURE_CLEAR (R325): The sensor reads below 105 °C, the clock resumes, and CRIT is set and logged. -/
  | criticalTemperatureClear (d : Fin 5)
  /-- POWER_MODEL_CALIBRATE (R320): Every 2^16 tides each die recalibrates I and G from its own ledger. -/
  | powerModelCalibrate (d : Fin 4) (idle : List Nat) (gated : List Nat)
  /-- EN_CTL_DARK (R333): Software requests DD of a die or its return, and a refused request sets DDREF. -/
  | enCtlDark (dark : BitVec 3)
  /-- EN_CTL_SB (R334): Software requests SB, honoured only when every partition is drained. -/
  | enCtlSb
  /-- SB_ENTRY (R334): The package enters standby, closing its Hural ports and powering down all but the harbourmaster and always-on domain. -/
  | sbEntry
  /-- SB_DRAIN_TIMEOUT (R334): One second after a board SB request, the package enters SB whether or not the partitions have drained. -/
  | sbDrainTimeout
  /-- AVS_POLL (R441): Every 1 ms the package reads the supply's available input power over AVSBus. -/
  | avsPoll (power : Option (BitVec 16))
  /-- LINK_UP (R346): A Hural port's link comes up and, with EN = 1, begins a session handshake. -/
  | linkUp (n : Fin 18) (offers : Bool)
  /-- HURAL_CTL_OPEN (R346): Writing OPEN opens a session, even after a hostile or repeated faulty close. -/
  | huralCtlOpen (n : Fin 18)
  /-- HURAL_CTL_CLOSE (R354): Writing CLOSE sends CLOSE and closes the session. -/
  | huralCtlClose (n : Fin 18)
  /-- HURAL_CTL_REKEY (R347): Writing REKEY starts a rekey. -/
  | huralCtlRekey (n : Fin 18)
  /-- HANDSHAKE (R346): A port receives a handshake step, checks it and advances the session set-up. -/
  | handshake (n : Fin 18) (msg : HsMsg)
  /-- SESSION_RETRY (R346): One second after a failed set-up or rekey, the port retries. -/
  | sessionRetry (n : Fin 18)
  /-- REKEY_DUE (R347): After 2^36 flits or 3,600 s the session starts a rekey. -/
  | rekeyDue (n : Fin 18)
  /-- HURAL_FLIT_RECEIVE (R345): A port checks a flit's FEC, CRC, sequence and tag and accepts or drops it. -/
  | huralFlitReceive (n : Fin 18) (flit : List Byte) (corrected : Nat) (uncorrectable : Bool)
  /-- ETH_FRAME_RECEIVE (R349): An Ethernet-mode port checks a frame and passes its flits on, or drops it as a CRC failure. -/
  | ethFrameReceive (n : Fin 18) (frame : List Byte)
  /-- NAK (R345): A transmitter receives a NAK and resends from the named sequence number. -/
  | nak (n : Fin 18)
  /-- FLIT_ACK_TIMEOUT (R345): A flit unacknowledged after 4 µs is resent. -/
  | flitAckTimeout (n : Fin 18)
  /-- KEEPALIVE (R345): A port with nothing to send for 250 ns sends a KEEPALIVE flit. -/
  | keepalive (n : Fin 18)
  /-- CLOSE (R354): A port receives CLOSE and closes its session. -/
  | close (n : Fin 18)
  /-- WRITE (R353): A lender receives a WRITE into its window and writes it or answers NACK. -/
  | write (n : Fin 19)
  /-- WACK (R343): A writer receives WACK, showing that its write reached the home at DST. -/
  | wack (n : Fin 19)
  /-- READ (R353): A lender receives a READ and returns RDATA or NACK. -/
  | read (n : Fin 19)
  /-- RDATA (R343): A requester receives the data of its READ. -/
  | rdata (n : Fin 19)
  /-- NACK (R353): A requester receives NACK and turns it into an access fault, or treats the line as poisoned for code 4. -/
  | nack (n : Fin 19)
  /-- TSTAMP (R46): A package receives a timestamp exchange message for skew measurement. -/
  | tstamp (n : Fin 19)
  /-- LOST (R356): The pilot receives LOST for a berth and sends PROBE on every route. -/
  | lost (n : Fin 19)
  /-- PROBE (R356): A berth receives PROBE and answers PROBEACK. -/
  | probe (n : Fin 19)
  /-- PROBEACK (R356): The pilot receives PROBEACK and takes no action. -/
  | probeack (n : Fin 19)
  /-- PROBE_TIMEOUT (R356): With no PROBEACK within 5 µs, the pilot declares the berth dark in its next frame. -/
  | probeTimeout (b : Fin 256)
  /-- TAKEOVER (R352): A package receives TAKEOVER, writes HURAL_ALIAS and reroutes; the named spare starts its restore. -/
  | takeover (n : Fin 19)
  /-- GRANTREQ (R241): A lender receives a tier-3 request and grants a frame, or reclaims the oldest frame with an eviction notice. -/
  | grantreq (n : Fin 19)
  /-- GRANT (R236): A requester receives a granted frame or a refusal. -/
  | grant (n : Fin 19)
  /-- HURAL_FREE (R343): A lender receives FREE and takes its frame back. -/
  | huralFree (n : Fin 19)
  /-- EVICT (R241): A borrower receives an eviction notice and posts a type 4 fault record. -/
  | evict (n : Fin 19)
  /-- BULK (R359): A package receives collective data, and the I/O die mirrors ride ranges to the holders. -/
  | bulk (n : Fin 19)
  /-- PARTNER_ABSENT (R354): No flit passes for 2 µs; the port goes quiescent and sends LOST to the pilots. -/
  | partnerAbsent (n : Fin 18)
  /-- PARTNER_SLOW (R354): A VC without credit for STARVE µs counts a starvation episode. -/
  | partnerSlow (n : Fin 18) (vc : Fin 4)
  /-- PARTNER_STUCK (R354): Starvation lasting STUCK ms makes the partner faulty and quarantines the port. -/
  | partnerStuck (n : Fin 18)
  /-- QUARANTINE_RETRAIN (R354): One second after quarantine the port retrains. -/
  | quarantineRetrain (n : Fin 18)
  /-- PORT_HOLD_EXPIRY (R356): Ten seconds after a whole-package reset the berth may open its ports. -/
  | portHoldExpiry
  /-- SECURE_POINT_DONE (R362): The last SNAP copy is acknowledged and the new generation becomes current. -/
  | securePointDone
  /-- SHD_CTL_EN (R370): Writing EN enables securing, or is refused with CFGERR when PER is outside 1..2. -/
  | shdCtlEn
  /-- SHD_CTL_SECURE (R365): Writing SECURE makes the next step close a secure point. -/
  | shdCtlSecure
  /-- SHD_CTL_REALIGN (R372): Writing REALIGN sets every stream of the partition to the counter of its current step. -/
  | shdCtlRealign (p : Fin 64)
  /-- RESTORE_PHASE_DONE (R373): A restore phase of the spare completes and the next phase starts. -/
  | restorePhaseDone (r : RestoreStep)
  /-- RST_CTL_CP (R381): A compute-part reset starts: LOST, dump, departures, then assertion. -/
  | rstCtlCp (cd : Fin 4)
  /-- RST_CTL_DIERST (R379): A reset of compute die DIE starts. -/
  | rstCtlDierst (d : Fin 4)
  /-- RST_CTL_HOST (R379): A host-domain reset starts. -/
  | rstCtlHost
  /-- RST_CTL_PKG (R379): A whole-package reset starts. -/
  | rstCtlPkg
  /-- RST_CTL_OOSCLR (R391): Within a D2 session, writing OOSCLR empties the record and ends out of service. -/
  | rstCtlOosclr
  /-- RESET_RELEASE (R379): A reset domain is released and its parts rejoin. -/
  | resetRelease (dom : Nat)
  /-- DUMP_READ_TIMEOUT (R393): A dump read not returned in 10 µs is listed as unreadable. -/
  | dumpReadTimeout (addr : Addr)
  /-- WATCHDOG_TRIP (R386): A unit reaching WATCHDOG tides without progress freezes its snapshot and, unless NORESET, starts a compute-part reset. -/
  | watchdogTrip (u : Fin 516)
  /-- RST_HOSTWD_BEAT (R388): Host software records a heartbeat. -/
  | rstHostwdBeat
  /-- HOST_WATCHDOG_TRIP (R388): LIMIT tides without a beat reset the host domain with cause 0x06. -/
  | hostWatchdogTrip
  /-- RELOCK_TIMEOUT (R384): A reset die whose clock has not locked within 10 ms stays down, and the package goes out of service. -/
  | relockTimeout (d : Fin 4)
  /-- TELEMETRY_SAMPLE (R398): A due telemetry sample copies registers into the ring, or interrupts the chosen host core. -/
  | telemetrySample
  /-- TELEMETRY_SKIP (R397): A sample not started by the next mark is skipped and counted. -/
  | telemetrySkip
  /-- HM_TELDONE (R398): A host core reports a telemetry sample complete. -/
  | hmTeldone (tide : BitVec 48)
  /-- HM_FW_GO (R399): Software submits a harbourmaster image for checking and staging. -/
  | hmFwGo (addr : Addr)
  /-- HM_FW_CHECK_DONE (R399): The security core stages the image or rejects it with a reason. -/
  | hmFwCheckDone
  /-- HM_FW_DROP (R400): An image not switched by boundary E + 1,024 is dropped with 0x0E. -/
  | hmFwDrop
  /-- HM_FW_REVERT (R401): A core not ready within 1 ms of its switch returns all cores to the old image. -/
  | hmFwRevert
  /-- FLOOD_CLOSE (R404): A flood record becomes final 1 s after it opened. -/
  | floodClose (k : Nat)
  /-- LOGBOOK_FLUSH (R407): The tide core flushes final staged records to flash, and writes a lost record when staging frees. -/
  | logbookFlush
  /-- TALLY_SAVE (R406): Every 60 s the harbourmaster writes the code tallies to flash. -/
  | tallySave
  /-- HM_SETTAI (R408): Software sets host time, or the write is ignored and logged while PTP is locked. -/
  | hmSettai (v : W64)
  /-- PTP_LOCK (R408): The PT domain locks to a grandmaster and calendar time takes PTP as its source. -/
  | ptpLock (tai : W64) (unc : BitVec 32)
  /-- PTP_LOCK_LOST (R408): PTP lock is lost, and time enters holdover. -/
  | ptpLockLost
  /-- TIME_UNKNOWN (R408): Uncertainty grows past 0xFFFF_FFFE and the time source becomes unknown. -/
  | timeUnknown
  /-- PTP_MESSAGE (R439): The ordinary clock receives a PTP message and steers the PT domain. -/
  | ptpMessage (offset : Int)
  /-- PPS_PULSE (R439): PPS_OUT gives a 1 µs pulse at each TAI second. -/
  | ppsPulse
  /-- BOOT (R413): On release of a whole-package reset, the package derives its identity and verifies and loads its images and chart. -/
  | boot (puf : Option W64)
  /-- SEC_CMD_RECORD (R420): The security core checks a signed command record and records a lifecycle transition or owner transfer. -/
  | secCmdRecord (addr : Addr)
  /-- SEC_CMD_ENROL_OWNER (R418): In PROV with no owner, the owner public key is enrolled. -/
  | secCmdEnrolOwner (addr : Addr)
  /-- SEC_CMD_ENDORSEMENT (R419): The security core stores an endorsement that verifies. -/
  | secCmdEndorsement (addr : Addr)
  /-- SEC_CMD_ENROL_IDENTITY (R416): In FAB, while none exist, the PUF helper data are written. -/
  | secCmdEnrolIdentity (addr : Addr)
  /-- LIFECYCLE_RESET (R421): Within 1 s of a recorded transition, the security core resets the package, zeroing memory on entry to RETURN. -/
  | lifecycleReset
  /-- DBG_OPEN_GO (R424): The security core checks an in-band token and grants a level, or refuses it. -/
  | dbgOpenGo (addr : Addr)
  /-- TAP_TOKEN (R424): A token shifted through DBGTOK opens a TAP session, or is refused. -/
  | tapToken (token : List Byte)
  /-- TAP_DBGACC (R423): A TAP session reads or writes registers or memory through DBGACC within its level. -/
  | tapDbgacc (addr : Addr) (wr : Option W64)
  /-- DBG_CLOSE (R426): Writing DBG_CLOSE ends the in-band session, resuming halted cores and logging it. -/
  | dbgClose
  /-- SESSION_EXPIRE (R425): A session ends when the always-on clock has counted its REMAIN. -/
  | sessionExpire (p : Fin 2)
  /-- DBG_HALT_HALT (R423): Writing HALT halts the selected core where the level allows. -/
  | dbgHaltHalt (core : BitVec 10)
  /-- DBG_HALT_RESUME (R423): Writing RESUME resumes the selected core. -/
  | dbgHaltResume (core : BitVec 10)
  /-- SEC_ATTEST_GO (R428): Software requests an attestation report. -/
  | secAttestGo (addr : Addr)
  /-- ATTEST_DONE (R428): The security core writes the signed report and sets DONE. -/
  | attestDone
  /-- VIN48_RISE (R433): VIN48 enters its range and the converters bring up the internal rails. -/
  | vin48Rise
  /-- CONVERTERS_READY (R433): The converters complete, and the whole-package reset is released at the later of this and RESET_N. -/
  | convertersReady
  /-- VIN48_OUT_OF_RANGE (R432): VIN48 outside 38 V to 62 V for 5 µs stops every converter as a loss of the 48 V input. -/
  | vin48OutOfRange
  /-- V3P3SB_LOST (R431): The standby rail is lost and the always-on domain runs from VIN48, with a logbook record. -/
  | v3p3sbLost
  /-- RESET_N_LOW (R436): RESET_N low for 10 µs starts a whole-package reset with cause 0x07. -/
  | resetNLow (ns : Nat)
  /-- RESET_N_RELEASE (R433): RESET_N goes high, releasing the package when its converters are ready. -/
  | resetNRelease
  /-- REFCLK_LOST (R384): Loss of the 25 MHz reference makes the always-on domain reset the whole package. -/
  | refclkLost
  /-- THERMTRIP (R446): A sensor at 125 °C drives THERMTRIP_N low and stops every converter. -/
  | thermtrip
  /-- I3C_STATUS (R440): The board reads STATUS. -/
  | i3cStatus
  /-- I3C_STATUS_IBI (R440): The package raises an in-band interrupt carrying STATUS[7:0] when STATUS changes. -/
  | i3cStatusIbi
  /-- I3C_CAPSUST (R321): The board writes its sustained cap, which applies at the next boundary. -/
  | i3cCapsust (w : BitVec 16)
  /-- I3C_CAPEXC (R321): The board writes its excursion cap. -/
  | i3cCapexc (w : BitVec 16)
  /-- I3C_REQ_ENTER_SB (R334): The board requests SB, and the harbourmaster waits up to 1 s for the partitions to drain. -/
  | i3cReqEnterSb
  /-- I3C_REQ_LEAVE_SB (R334): The board ends SB, and the package comes up keeping its chart and warehouse. -/
  | i3cReqLeaveSb
  /-- I3C_REQ_RESET (R440): The board requests a whole-package reset with cause 0x08. -/
  | i3cReqReset
  /-- I3C_PIN (R440): The board reads the input power averaged over the last tide. -/
  | i3cPin
  /-- I3C_TEMP (R440): The board reads the hottest sensor. -/
  | i3cTemp
  /-- I3C_IDENT (R440): The board reads the identity digest. -/
  | i3cIdent
  /-- I3C_HOSTIMG (R440): While HOSTFAIL is 1, the board appends host firmware bytes; an empty write ends the image for checking. -/
  | i3cHostimg (bytes : List Byte)
  /-- REFCLK_RETURN (R448): REFCLK returns, and the always-on domain stops repeating the whole-package reset so that the boot can proceed. -/
  | refclkReturn
  /-- V3P3SB_RESTORE (R431): The standby rail comes back into range, and the always-on domain draws from V3P3SB again. -/
  | v3p3sbRestore
  /-- VIN48_DISCHARGED (R446): Once VIN48 has been below 5 V for 100 ms, the package releases THERMTRIP_N and becomes able to restart through the power-up sequence. -/
  | vin48Discharged
  /-- TAP_CLOSE (R426): A debugger closes the TAP session, halted cores resume, trace stops and DBG_EVT.ENDED is set and logged. -/
  | tapClose
  /-- QUARANTINE_END (R354): After the retrained session has run 1 s below the FAULTY threshold, the partner class leaves faulty and returns to normal. -/
  | quarantineEnd (n : Fin 18)
  /-- DD_EXIT_COMPLETE (R333): A die powering up from DD completes its 2.0 ms exit, ID_DIEMAP reads in service and its tiles may take plans again. -/
  | ddExitComplete (d : Fin 4)
deriving DecidableEq, Repr

end Sys2Proof
end

