-- ==== Sys2Proof/Decode.lean ====
section
/-! DEFINITION. The decoder of the block's command words: no row of the opcode table has bits, so no word spells a command. -/

namespace Sys2Proof

/-- The command that a word of `nbits` bits spells: the table gives no row any bits, so none. -/
def decodeTableWord (_nbits _w : Nat) : Option Instr := none

end Sys2Proof
end

