-- ==== Sys2Proof/Config.lean ====
section
/-! DEFINITION. What an implementation fixes and the values the spec leaves open: constants without a body, so that nothing in Lean can know them. -/

namespace Sys2Proof.Config

/-- A value the spec leaves open: the `k`-th open value of the step whose free counter is `n` (log 4). -/
opaque freeValue (n k : Nat) : Nat

/-- CODE[7:0] of the event numbered `k` among the model's events: the code catalogue is not part of the manual (R402, log 5). -/
opaque eventNumber (k : Nat) : BitVec 8

/-- Word `i` (0..2) of the ARGS of the logbook record at index `n`, for the event numbered `k` whose rule names the contents `data`: the catalogue gives their encoding and what stands beside them (R402, log 5). -/
opaque logArgs (n k : Nat) (data : List Nat) (i : Nat) : BitVec 64

/-- ML-DSA verification under the key whose SHA3-256 is given (FIPS 204): the message and the signature (R55, log 6). -/
opaque mldsaVerify (keyHash msg sig : List (BitVec 8)) : Bool

/-- SHA3-256 of the vendor key in the boot ROM (R411, log 6). -/
opaque vendorKeyHash : List (BitVec 8)

/-- The ML-DSA-44 public key that key generation makes of a seed (FIPS 204; R416, log 6). -/
opaque mldsaPublic (seed : Nat) : List (BitVec 8)

/-- The ML-DSA-44 signature of a message under the key pair of a seed (FIPS 204; R346, R428, log 6). -/
opaque mldsaSign (seed : Nat) (msg : List (BitVec 8)) : List (BitVec 8)

/-- The ML-KEM-768 encapsulation key of a seed (FIPS 203; R346, log 6). -/
opaque kemPublic (seed : Nat) : List (BitVec 8)

/-- The ML-KEM-768 ciphertext that a random number makes for an encapsulation key (FIPS 203; R346, log 6). -/
opaque kemCipher (rand : Nat) (ek : List (BitVec 8)) : List (BitVec 8)

/-- The shared secret of that encapsulation (FIPS 203; R346, log 6). -/
opaque kemShared (rand : Nat) (ek : List (BitVec 8)) : List (BitVec 8)

/-- The shared secret that the key pair of a seed takes from a ciphertext (FIPS 203; R346, log 6). -/
opaque kemOpen (seed : Nat) (ct : List (BitVec 8)) : List (BitVec 8)

/-- VERSION of a harbourmaster image, by its digest: the image layout names no version field (Table 19-7, log 37). -/
opaque imageVersion (digest : List (BitVec 8)) : BitVec 32

end Sys2Proof.Config
end

