-- ==== Sys2Proof/Machine/Bytes.lean ====
section
/-! DEFINITION. Bytes, fields and numbers: little-endian order (R3), bit fields, saturating counts. -/

namespace Sys2Proof.Machine

/-- The number a byte list holds, lowest address first (R3). -/
def leNat : List Byte → Nat
  | [] => 0
  | b :: bs => b.toNat + 256 * leNat bs

/-- `n` bytes of a number, lowest address first (R3). -/
def natLe (v : Nat) : Nat → List Byte
  | 0 => []
  | n + 1 => BitVec.ofNat 8 v :: natLe (v / 256) n

/-- Bytes `off` to `off + n - 1` of a list. -/
def slice (l : List Byte) (off n : Nat) : List Byte := (l.drop off).take n

/-- The `n`-byte field at `off` of a list. -/
def fieldAt (l : List Byte) (off n : Nat) : Nat := leNat (slice l off n)

/-- Bits [lo + w - 1 : lo] of a number. -/
def bitsOf (v lo w : Nat) : Nat := v / 2 ^ lo % 2 ^ w

/-- Bit `k` of a number. -/
def bitOf (v k : Nat) : Bool := v.testBit k

/-- A number with bits [lo + w - 1 : lo] replaced. -/
def putBits (v lo w x : Nat) : Nat := v - bitsOf v lo w * 2 ^ lo + (x % 2 ^ w) * 2 ^ lo

/-- The bits of a number below `n`, lowest first, as the list of their places. -/
def bitList (v n : Nat) : List Nat := (List.range n).filter fun k => v.testBit k

/-- The two's complement value of a `w`-bit field. -/
def signedOf (v w : Nat) : Int := if v % 2 ^ w < 2 ^ (w - 1) then (v % 2 ^ w : Nat) else (v % 2 ^ w : Nat) - (2 ^ w : Nat)

/-- The `w`-bit two's complement field of an integer. -/
def fieldOfInt (v : Int) (w : Nat) : Nat := (v % (2 ^ w : Nat)).toNat

/-- Addition that stays at its field's largest value. -/
def satAdd (w a b : Nat) : Nat := min (a + b) (2 ^ w - 1)

/-- One of `n` words of 8 bytes as a byte list. -/
def w64Bytes (v : W64) : List Byte := natLe v.toNat 8

/-- The 64 bytes of a descriptor, record or line. -/
def descBytes (d : Desc) : List Byte := natLe d.toNat 64

/-- A descriptor, record or line of 64 bytes. -/
def descOf (l : List Byte) : Desc := BitVec.ofNat 512 (leNat l)

/-- Every byte of a list is zero. -/
def allZero (l : List Byte) : Bool := l.all fun b => b = 0

/-- Replacement of bytes from `off` on. -/
def patch (l : List Byte) (off : Nat) (bs : List Byte) : List Byte := l.take off ++ bs ++ l.drop (off + bs.length)

/-- Rounding up to a multiple. -/
def alignUp (v m : Nat) : Nat := (v + m - 1) / m * m

end Sys2Proof.Machine
end

