-- ==== Sys2Proof/Machine/Crypto.lean ====
section
/-! DEFINITION. Checks and ciphers the manual names: CRC-16 (R449), CRC-32, SHA3-256 and SHAKE256 (FIPS 202), AES-128 (FIPS 197), AES-256-GCM. -/

namespace Sys2Proof.Machine

/-! CRC-16, polynomial 0x1021, initial value 0xFFFF, nothing reflected, no final XOR (R449). -/

/-- One message bit enters the register. -/
def crc16Bit (c : BitVec 16) (b : Bool) : BitVec 16 :=
  let c' := c <<< 1
  if (c.msb ^^ b) then c' ^^^ 0x1021 else c'

/-- Bits of a byte from bit 7 to bit 0. -/
def byteBitsMsb (b : Byte) : List Bool := (List.range 8).map fun k => b.getLsbD (7 - k)

/-- The CRC of a byte sequence in ascending address order. -/
def crc16 (bs : List Byte) : BitVec 16 := bs.foldl (fun c b => (byteBitsMsb b).foldl crc16Bit c) 0xFFFF

/-- The CRC of bits [hi : lo] of a field, entering from `hi` down. -/
def crc16Field (v : Nat) (hi lo : Nat) : BitVec 16 :=
  (List.range (hi + 1 - lo)).foldl (fun c k => crc16Bit c (v.testBit (hi - k))) 0xFFFF

/-! CRC-32 in a bitwise form with the reflected polynomial 0xEDB8_8320. -/

/-- One bit of the reflected register. -/
def crc32Bit (c : BitVec 32) : BitVec 32 := if c.getLsbD 0 then (c >>> 1) ^^^ 0xEDB88320 else c >>> 1

/-- One byte enters the register. -/
def crc32Byte (c : BitVec 32) (b : Byte) : BitVec 32 :=
  (List.range 8).foldl (fun c _ => crc32Bit c) (c ^^^ b.setWidth 32)

/-- The CRC-32 of a byte sequence, initial value and final XOR 0xFFFF_FFFF. -/
def crc32 (bs : List Byte) : BitVec 32 := bs.foldl crc32Byte 0xFFFFFFFF ^^^ 0xFFFFFFFF

/-! SHA3-256. -/

/-- Lane x, y of the Keccak state. -/
def kLane (a : List W64) (x y : Nat) : W64 := a.getD (x % 5 + 5 * (y % 5)) 0

/-- The offsets of the rho step, by lane x + 5 y. -/
def kRho : List Nat :=
  [0, 1, 62, 28, 27, 36, 44, 6, 55, 20, 3, 10, 43] ++ [25, 39, 41, 45, 15, 21, 8, 18, 2, 61, 56, 14]

/-- The round constants. -/
def kRC : List W64 :=
  [0x0000000000000001, 0x0000000000008082, 0x800000000000808A, 0x8000000080008000, 0x000000000000808B, 0x0000000080000001] ++
  [0x8000000080008081, 0x8000000000008009, 0x000000000000008A, 0x0000000000000088, 0x0000000080008009, 0x000000008000000A] ++
  [0x000000008000808B, 0x800000000000008B, 0x8000000000008089, 0x8000000000008003, 0x8000000000008002, 0x8000000000000080] ++
  [0x000000000000800A, 0x800000008000000A, 0x8000000080008081, 0x8000000000008080, 0x0000000080000001, 0x8000000080008008]

/-- Rotation of a lane to the left. -/
def rotl64 (v : W64) (n : Nat) : W64 := (v <<< n) ||| (v >>> (64 - n))

/-- A state of 25 lanes built from a function of x and y. -/
def kBuild (f : Nat → Nat → W64) : List W64 := (List.range 25).map fun k => f (k % 5) (k / 5)

/-- One round of Keccak-f[1600]: theta, rho and pi, chi, iota. -/
def kRound (a : List W64) (rc : W64) : List W64 :=
  let c : List W64 := (List.range 5).map fun x => kLane a x 0 ^^^ kLane a x 1 ^^^ kLane a x 2 ^^^ kLane a x 3 ^^^ kLane a x 4
  let d : List W64 := (List.range 5).map fun x => c.getD ((x + 4) % 5) 0 ^^^ rotl64 (c.getD ((x + 1) % 5) 0) 1
  let t := kBuild fun x y => kLane a x y ^^^ d.getD x 0
  let b := kBuild fun x y => let x' := (x + 3 * y) % 5; rotl64 (kLane t x' x) (kRho.getD (x' + 5 * x) 0)
  let e := kBuild fun x y => kLane b x y ^^^ (~~~(kLane b (x + 1) y) &&& kLane b (x + 2) y)
  match e with
  | [] => []
  | h :: r => (h ^^^ rc) :: r

/-- The permutation. -/
def keccakF (a : List W64) : List W64 := kRC.foldl kRound a

/-- A block of 136 bytes enters the state. -/
def kAbsorb (a : List W64) (blk : List Byte) : List W64 :=
  keccakF ((List.range 25).map fun k => a.getD k 0 ^^^ BitVec.ofNat 64 (fieldAt blk (8 * k) 8))

/-- The message with its padding for a rate of 136 bytes, its first byte telling the functions apart. -/
def kPad (first : Byte) (m : List Byte) : List Byte :=
  let n := 136 - m.length % 136
  if n = 1 then m ++ [first ||| 0x80] else m ++ [first] ++ List.replicate (n - 2) 0 ++ [0x80]

/-- Absorption of `n` blocks. -/
def kBlocks : Nat → List W64 → List Byte → List W64
  | 0, a, _ => a
  | n + 1, a, m => kBlocks n (kAbsorb a (m.take 136)) (m.drop 136)

/-- The first block of output. -/
def kHash (first : Byte) (m : List Byte) : List Byte :=
  let p := kPad first m
  ((kBlocks (p.length / 136) (List.replicate 25 0) p).take 17).flatMap w64Bytes

/-- SHA3-256 of a byte sequence. -/
def sha3_256 (m : List Byte) : List Byte := (kHash 0x06 m).take 32

/-- SHAKE256 of a byte sequence, `n` bytes, at most 136. -/
def shake256 (m : List Byte) (n : Nat) : List Byte := (kHash 0x1F m).take n

/-! AES-128. -/

/-- Multiplication by x in GF(2^8). -/
def gfX (a : Byte) : Byte := if a.msb then (a <<< 1) ^^^ 0x1B else a <<< 1

/-- Multiplication in GF(2^8). -/
def gfMul (a b : Byte) : Byte :=
  ((List.range 8).foldl (fun (p : Byte × Byte) k => (if b.getLsbD k then p.1 ^^^ p.2 else p.1, gfX p.2)) (0, a)).1

/-- The inverse in GF(2^8), as the power 254. -/
def gfInv (a : Byte) : Byte :=
  let a2 := gfMul a a
  let a4 := gfMul a2 a2
  let a8 := gfMul a4 a4
  let a16 := gfMul a8 a8
  let a32 := gfMul a16 a16
  let a64 := gfMul a32 a32
  let a128 := gfMul a64 a64
  gfMul a128 (gfMul a64 (gfMul a32 (gfMul a16 (gfMul a8 (gfMul a4 a2)))))

/-- SubBytes of one byte. -/
def aesSub (a : Byte) : Byte :=
  let v := gfInv a
  v ^^^ v.rotateLeft 1 ^^^ v.rotateLeft 2 ^^^ v.rotateLeft 3 ^^^ v.rotateLeft 4 ^^^ 0x63

/-- ShiftRows of a state of 16 bytes, column by column. -/
def aesShift (s : List Byte) : List Byte :=
  (List.range 16).map fun k => s.getD ((k + 4 * (k % 4)) % 16) 0

/-- MixColumns. -/
def aesMix (s : List Byte) : List Byte :=
  (List.range 16).map fun k =>
    let c := k / 4 * 4
    let r := k % 4
    gfMul 2 (s.getD (c + r) 0) ^^^ gfMul 3 (s.getD (c + (r + 1) % 4) 0) ^^^ s.getD (c + (r + 2) % 4) 0 ^^^ s.getD (c + (r + 3) % 4) 0

/-- XOR of byte lists. -/
def xorBytes (a b : List Byte) : List Byte := List.zipWith (fun x y => x ^^^ y) a b

/-- The next round key. -/
def aesNextKey (k : List Byte) (rcon : Byte) : List Byte :=
  let w0 := xorBytes (slice k 0 4) [aesSub (k.getD 13 0) ^^^ rcon, aesSub (k.getD 14 0), aesSub (k.getD 15 0), aesSub (k.getD 12 0)]
  let w1 := xorBytes (slice k 4 4) w0
  let w2 := xorBytes (slice k 8 4) w1
  let w3 := xorBytes (slice k 12 4) w2
  w0 ++ w1 ++ w2 ++ w3

/-- Rounds `n` to 10 of the cipher: state, key of the round before, round constant. -/
def aesRounds : Nat → List Byte → List Byte → Byte → List Byte
  | 0, s, _, _ => s
  | n + 1, s, k, rc =>
    let k' := aesNextKey k rc
    let t := aesShift (s.map aesSub)
    let t := if n = 0 then t else aesMix t
    aesRounds n (xorBytes t k') k' (gfX rc)

/-- AES-128 of one block of 16 bytes under a key of 16 bytes. -/
def aes128 (key block : List Byte) : List Byte := aesRounds 10 (xorBytes block key) key 1

/-! AES-256 in Galois/Counter mode (R342, R346). -/

/-- The 16-byte block of round key that follows two others; every other one rotates and adds a round constant. -/
def aes256Next (a b : List Byte) (even : Bool) (rcon : Byte) : List Byte :=
  let l := slice b 12 4
  let g := if even then [aesSub (l.getD 1 0) ^^^ rcon, aesSub (l.getD 2 0), aesSub (l.getD 3 0), aesSub (l.getD 0 0)] else l.map aesSub
  let w0 := xorBytes (slice a 0 4) g
  let w1 := xorBytes (slice a 4 4) w0
  let w2 := xorBytes (slice a 8 4) w1
  let w3 := xorBytes (slice a 12 4) w2
  w0 ++ w1 ++ w2 ++ w3

/-- The rounds of AES-256: how many are left, the state, the key of the last round and of this one, whether the next block rotates, its round constant. -/
def aes256Rounds : Nat → List Byte → List Byte → List Byte → Bool → Byte → List Byte
  | 0, s, _, _, _, _ => s
  | n + 1, s, a, b, even, rc =>
    let t := aesShift (s.map aesSub)
    let s' := xorBytes (if n = 0 then t else aesMix t) b
    aes256Rounds n s' b (aes256Next a b even rc) (!even) (if even then gfX rc else rc)

/-- AES-256 of a block of 16 bytes under a key of 32 bytes. -/
def aes256 (key block : List Byte) : List Byte :=
  aes256Rounds 14 (xorBytes block (key.take 16)) (key.take 16) (slice key 16 16) true 1

/-- A big-endian number of `n` bytes. -/
def natBe (v n : Nat) : List Byte := (natLe v n).reverse

/-- The number a byte list holds, highest byte first. -/
def beNat (l : List Byte) : Nat := leNat l.reverse

/-- Multiplication in the field of GHASH, whose bit 0 is the most significant one. -/
def ghashMul (x y : BitVec 128) : BitVec 128 :=
  ((List.range 128).foldl (fun (a : BitVec 128 × BitVec 128) k =>
    (if x.getLsbD (127 - k) then a.1 ^^^ a.2 else a.1,
     if a.2.getLsbD 0 then (a.2 >>> 1) ^^^ 0xE1000000000000000000000000000000 else a.2 >>> 1)) (0, y)).1

/-- GHASH of a sequence of whole blocks, `n` of them. -/
def ghash (h : BitVec 128) : Nat → BitVec 128 → List Byte → BitVec 128
  | 0, a, _ => a
  | n + 1, a, m => ghash h n (ghashMul (a ^^^ BitVec.ofNat 128 (beNat (m.take 16))) h) (m.drop 16)

/-- Zeros up to whole blocks of 16 bytes. -/
def padBlocks (l : List Byte) : List Byte := l ++ List.replicate (alignUp l.length 16 - l.length) 0

/-- The key stream of counter mode from counter 2 on, for `n` bytes. -/
def gcmStream (key nonce : List Byte) (n : Nat) : List Byte :=
  ((List.range ((n + 15) / 16)).flatMap fun k => aes256 key (nonce ++ natBe (k + 2) 4)).take n

/-- The tag over additional data and ciphertext. -/
def gcmTag (key nonce aad ct : List Byte) : List Byte :=
  let h := BitVec.ofNat 128 (beNat (aes256 key (List.replicate 16 0)))
  let m := padBlocks aad ++ padBlocks ct ++ natBe (8 * aad.length) 8 ++ natBe (8 * ct.length) 8
  xorBytes (natBe (ghash h (m.length / 16) 0 m).toNat 16) (aes256 key (nonce ++ natBe 1 4))

/-- Ciphertext and tag. -/
def gcmSeal (key nonce aad pt : List Byte) : List Byte × List Byte :=
  let ct := xorBytes pt (gcmStream key nonce pt.length)
  (ct, gcmTag key nonce aad ct)

/-- The plaintext, where the tag is right. -/
def gcmOpen (key nonce aad ct tag : List Byte) : Option (List Byte) :=
  if gcmTag key nonce aad ct = tag then some (xorBytes ct (gcmStream key nonce ct.length)) else none

end Sys2Proof.Machine
end

