-- ==== Sys2Proof/Machine/Cells.lean ====
section
/-! DEFINITION. Sparse storage in one canonical form: keys strictly rising, no entry equal to what an unlisted key reads as. -/

namespace Sys2Proof.Machine

/-- A sparse map from Nat keys; every map of the State has this form, memory included (`Host.Cell` is `Nat × BitVec 8`). -/
abbrev FMap (V : Type) := List (Nat × V)

/-- What key `k` reads as, `d` where it is not listed. -/
def Cells.get {V : Type} (d : V) : FMap V → Nat → V
  | [], _ => d
  | (a, v) :: m, k => if k = a then v else Cells.get d m k

/-- The entry of key `k`, where it is listed. -/
def Cells.look {V : Type} : FMap V → Nat → Option V
  | [], _ => none
  | (a, v) :: m, k => if k = a then some v else Cells.look m k

/-- Insertion of a value at its place in the order of keys. -/
def Cells.ins {V : Type} : FMap V → Nat → V → FMap V
  | [], k, v => [(k, v)]
  | (a, w) :: m, k, v =>
    if k < a then (k, v) :: (a, w) :: m
    else if k = a then (k, v) :: m
    else (a, w) :: Cells.ins m k v

/-- Removal of a key. -/
def Cells.del {V : Type} : FMap V → Nat → FMap V
  | [], _ => []
  | (a, w) :: m, k => if k = a then Cells.del m k else (a, w) :: Cells.del m k

/-- The write of one key; writing what an unlisted key reads as removes the entry. -/
def Cells.put {V : Type} [DecidableEq V] (d : V) (m : FMap V) (k : Nat) (v : V) : FMap V :=
  if v = d then Cells.del m k else Cells.ins m k v

/-- Every key of the map is above `k`, rising. -/
def Cells.above {V : Type} : Nat → FMap V → Bool
  | _, [] => true
  | k, (a, _) :: m => decide (k < a) && Cells.above a m

/-- The keys rise strictly. -/
def Cells.sorted {V : Type} : FMap V → Bool
  | [] => true
  | (a, _) :: m => Cells.above a m

/-- The canonical form. -/
def Cells.wf {V : Type} [DecidableEq V] (d : V) (m : FMap V) : Bool :=
  Cells.sorted m && m.all (fun e => decide (e.2 ≠ d))

end Sys2Proof.Machine
end

