-- ==== Sys2Proof/Machine/Registers.lean ====
section
/-! DEFINITION. Every register of the register tables (R4 to R7): its block, place, fields, access codes and reset values. -/

namespace Sys2Proof.Machine

/-- Access codes of Table 0-3 (R5). -/
inductive Acc where
  | ro | rw | rwl | w1c | w1s | wo | rc
deriving DecidableEq, Repr

/-- Register blocks in the order of Table 1-11; CODE[15:8] of a logbook record numbers them from 1 (R402). -/
inductive Block where
  | ID | TIDE | CHART | EN | AGE | BELL | CUS | TILE | NUM | UPD | SCH | SHD | TIER | COH | D2D | HURAL | LOG | HM | RST | SEC | DBG | CLK
deriving DecidableEq, Repr

/-- The registers of the package, by the names of their tables. -/
inductive RegName where
  | IDREV | ID_DIEMAP | TIDE_PERIOD | TIDE_COUNT | TIDE_SRC | TIDE_COMP | TIDE_SLIPS | TIDE_EVT | TIDE_EPOCH
  | TIDE_PLAN | TIDE_SUSPECT | TIDE_UNIT | CHART_STAT | CHART_SERIAL | CHART_BASESERIAL | CHART_MINSERIAL
  | CHART_AMEND | CHART_EFFECT | CHART_DRAIN | CHART_FLASH | CHART_EVT | CHART_DEFER | CHART_BOOTREASON
  | CHART_DIGEST | EN_CAP | EN_BOARD | EN_THERM | EN_CTL | EN_CREDIT | EN_EVT | EN_COUNT | EN_SHARE | EN_STATE
  | EN_LEDGER | EN_TOTAL | AGE_CFG | AGE_EVT | AGE_DIE | AGE_FCAST | AGE_GAUGE | BELL_RING | BELL_STAT
  | BELL_VIS | BELL_CQHEAD | BELL_CNT | BELL_ERR | BELL_CFG | BELL_RINGADDR | BELL_CQADDR | BELL_IRQADDR
  | BELL_IRQDATA | BELL_IOMMU | BELL_MSIWIN | BELL_QERR | CUS_CFG | CUS_SUBQ | CUS_SUBPTR | CUS_BATCHBUF
  | CUS_HOSTSTAGE | CUS_HOSTDONE | CUS_SHUFFLE | CUS_MANIFEST | CUS_CTL | CUS_STAT | CUS_DROP | CUS_EVT
  | TILE_STAT | TILE_SYNC | MX_STAT | MX_FLAGS | MX_FAULT | MX_CTL | MX_MACS | MX_ITEMS | MX_WAITCYC
  | VX_STAT | VX_FLAGS | VX_FAULT | VX_CTL | VX_ITEMS | VX_BUSYCYC | VX_WAITCYC | VX_DMA_STAT | VX_DMA_FAULT
  | VX_DMA_CTL | VX_DMA_BYTES | VX_DMA_WAITCYC | VX_DMA_FADDR | NUM_KEYLO | NUM_KEYHI | NUM_STEP | NUM_LAYTAB
  | NUM_SCALETAB | NUM_LSCALE | NUM_LSFLAG | NUM_DROP | NUM_WATCH_RATE | NUM_ZG_LIMIT | NUM_EVT | NUM_COUNT
  | NUM_WATCH_CNT | UPD_STAT | UPD_GROUPTAB | UPD_FLAGS | UPD_FAULT | UPD_CTL | UPD_COUNT | UPD_ELEMS
  | UPD_EVT | UPD_WAITCYC | UPD_FADDR | UPD_LIVE | UPD_PEND | UPD_PSET | SCH_CTL | SCH_ORIGIN | SCH_WARM
  | SCH_DECAY | SCH_MULT | SCH_ETAMAX | SCH_ETAMIN | SCH_ETA | SCH_POS | SHD_CTL | SHD_STAT | SHD_RECDST
  | SHD_SECURE | SHD_LOG | SHD_COST | SHD_MTBF | SHD_ROLL | SHD_LASTSEC | SHD_TAKE | SHD_EVT | SHD_COUNT
  | SHD_RIDESRC | SHD_RIDEDST | TIER_CTL | TIER_OBJTAB | TIER_PTBASE | TIER_MIGQ | TIER_FQ | TIER_MIGPTR
  | TIER_FQPTR | TIER_OBJCTL | TIER_STALL | TIER_ECCW | TIER_ECCQ | TIER_EVT | TIER_FQDROP | TIER_POOL
  | TIER_SCRUB | TIER_ACCT | COH_STAT | COH_STAT2 | COH_CTL | COH_EVT | COH_COLLAPSE | COH_ATOMIC | COH_DIREVICT
  | COH_HOLDSNP | COH_MEMBT | COH_MEMBH | COH_MEMBD | D2D_EDGE | D2D_REPAIR | D2D_ERR | D2D_CTL | D2D_EVT
  | D2D_BUDMISS | HURAL_STAT | HURAL_CFG | HURAL_CTL | HURAL_MAC | HURAL_PEERMAC | HURAL_ETH | HURAL_LINK
  | HURAL_ERR | HURAL_HOSTILE | HURAL_STARVE | HURAL_EVT | HURAL_PEERID | HURAL_THRESH | HURAL_ROUTE
  | HURAL_ALIAS | HURAL_EXPSRC | HURAL_EXPWIN | LOG_STAT | LOG_LOST | LOG_FLOODS | LOG_TALLYIDX | LOG_TALLY
  | LOG_RDIDX | LOG_RDDATA | HM_LOAD | HM_FW | HM_FWSTAT | HM_TIME | HM_TIMESTAT | HM_SETUNC | HM_SETTAI
  | HM_TELSET | HM_TELRING | HM_TELEM | HM_TELDONE | HM_EVT | RST_CTL | RST_STAT | RST_CFG | RST_ESC
  | RST_HOSTWD | RST_DUMP | RST_TRIP | RST_HIST | RST_NOPROG | SEC_STAT | SEC_ID | SEC_OWNER | SEC_CMD
  | SEC_CMDSTAT | SEC_ATTEST | SEC_FLOOR | SEC_EVT | DBG_OPEN | DBG_SESS | DBG_CLOSE | DBG_HALT | DBG_TRACE
  | DBG_EVT | CLK_LOCK | CLK_LOSS | CLK_MEAS
deriving DecidableEq

/-- One field of a register: bits [lo + width - 1 : lo], access code, reset value. A reset the table gives as "—" or "chart" is 0 here and set by the package (log entry 3). -/
structure Fld where
  reg : RegName
  lo : Nat
  width : Nat
  acc : Acc
  reset : Nat
deriving DecidableEq

/-- Where a register lies: block, base plus offset, and the counts and strides of its two indices (page or entry `i`, entry `j`). -/
structure RegLoc where
  block : Block
  base : Nat
  ni : Nat
  si : Nat
  nj : Nat
  sj : Nat
deriving DecidableEq, Repr

/-! Fields of the ID block. -/

def IDREV.VENDOR : Fld := ⟨.IDREV, 48, 16, .ro, 0x4645⟩
def IDREV.PART : Fld := ⟨.IDREV, 32, 16, .ro, 0x5053⟩
def IDREV.CSTEP : Fld := ⟨.IDREV, 28, 4, .ro, 2⟩
def IDREV.HSTEP : Fld := ⟨.IDREV, 24, 4, .ro, 1⟩
def IDREV.IOGEN : Fld := ⟨.IDREV, 20, 4, .ro, 2⟩
def IDREV.NOCREV : Fld := ⟨.IDREV, 16, 4, .ro, 2⟩
def IDREV.VRATIO : Fld := ⟨.IDREV, 12, 4, .ro, 1⟩
def IDREV.TILES : Fld := ⟨.IDREV, 8, 4, .ro, 1⟩
def IDREV.PKGREV : Fld := ⟨.IDREV, 0, 8, .ro, 3⟩

def ID_DIEMAP.IO : Fld := ⟨.ID_DIEMAP, 10, 2, .ro, 0⟩
def ID_DIEMAP.HOST : Fld := ⟨.ID_DIEMAP, 8, 2, .ro, 0⟩
def ID_DIEMAP.CD3 : Fld := ⟨.ID_DIEMAP, 6, 2, .ro, 0⟩
def ID_DIEMAP.CD2 : Fld := ⟨.ID_DIEMAP, 4, 2, .ro, 0⟩
def ID_DIEMAP.CD1 : Fld := ⟨.ID_DIEMAP, 2, 2, .ro, 0⟩
def ID_DIEMAP.CD0 : Fld := ⟨.ID_DIEMAP, 0, 2, .ro, 0⟩

/-! Fields of the TIDE block. -/

def TIDE_PERIOD.NEXT : Fld := ⟨.TIDE_PERIOD, 16, 14, .ro, 0⟩
def TIDE_PERIOD.PERIOD : Fld := ⟨.TIDE_PERIOD, 0, 14, .ro, 100⟩

def TIDE_COUNT.COUNT : Fld := ⟨.TIDE_COUNT, 0, 48, .ro, 0⟩

def TIDE_SRC.PTPOFF : Fld := ⟨.TIDE_SRC, 32, 32, .ro, 0⟩
def TIDE_SRC.ROLE : Fld := ⟨.TIDE_SRC, 8, 2, .ro, 0⟩
def TIDE_SRC.MODE : Fld := ⟨.TIDE_SRC, 0, 3, .ro, 0⟩

def TIDE_COMP.DELAY : Fld := ⟨.TIDE_COMP, 0, 11, .rw, 0⟩

def TIDE_SLIPS.TOKDEF : Fld := ⟨.TIDE_SLIPS, 32, 32, .ro, 0⟩
def TIDE_SLIPS.SLIPS : Fld := ⟨.TIDE_SLIPS, 0, 32, .ro, 0⟩

def TIDE_EVT.SUSPECT : Fld := ⟨.TIDE_EVT, 8, 1, .w1c, 0⟩
def TIDE_EVT.PLANREJ : Fld := ⟨.TIDE_EVT, 7, 1, .w1c, 0⟩
def TIDE_EVT.PERIODMIS : Fld := ⟨.TIDE_EVT, 6, 1, .w1c, 0⟩
def TIDE_EVT.PTPRANGE : Fld := ⟨.TIDE_EVT, 5, 1, .w1c, 0⟩
def TIDE_EVT.SKEW : Fld := ⟨.TIDE_EVT, 4, 1, .w1c, 0⟩
def TIDE_EVT.HOLDOVER : Fld := ⟨.TIDE_EVT, 3, 1, .w1c, 0⟩
def TIDE_EVT.SWITCH : Fld := ⟨.TIDE_EVT, 2, 1, .w1c, 0⟩
def TIDE_EVT.MISSSPARE : Fld := ⟨.TIDE_EVT, 1, 1, .w1c, 0⟩
def TIDE_EVT.MISSIN : Fld := ⟨.TIDE_EVT, 0, 1, .w1c, 0⟩

def TIDE_EPOCH.EPOCH : Fld := ⟨.TIDE_EPOCH, 0, 64, .ro, 0⟩

def TIDE_PLAN.SHIFTS : Fld := ⟨.TIDE_PLAN, 48, 16, .ro, 0⟩
def TIDE_PLAN.ADDR : Fld := ⟨.TIDE_PLAN, 6, 42, .rw, 0⟩
def TIDE_PLAN.CATCHUP : Fld := ⟨.TIDE_PLAN, 1, 1, .ro, 0⟩
def TIDE_PLAN.VALID : Fld := ⟨.TIDE_PLAN, 0, 1, .w1s, 0⟩

def TIDE_SUSPECT.UNIT : Fld := ⟨.TIDE_SUSPECT, 0, 64, .w1c, 0⟩

def TIDE_UNIT.SLIPS : Fld := ⟨.TIDE_UNIT, 32, 32, .ro, 0⟩
def TIDE_UNIT.CONSEC : Fld := ⟨.TIDE_UNIT, 0, 2, .ro, 0⟩

/-! Fields of the CHART block. -/

def CHART_STAT.FREASON : Fld := ⟨.CHART_STAT, 24, 8, .ro, 0⟩
def CHART_STAT.REASON : Fld := ⟨.CHART_STAT, 16, 8, .ro, 0⟩
def CHART_STAT.AMEND : Fld := ⟨.CHART_STAT, 8, 3, .ro, 0⟩
def CHART_STAT.FLASH : Fld := ⟨.CHART_STAT, 6, 2, .ro, 0⟩
def CHART_STAT.SLOT : Fld := ⟨.CHART_STAT, 4, 1, .ro, 0⟩
def CHART_STAT.SEALED : Fld := ⟨.CHART_STAT, 3, 1, .ro, 0⟩
def CHART_STAT.STATE : Fld := ⟨.CHART_STAT, 0, 3, .ro, 0⟩

def CHART_SERIAL.SERIAL : Fld := ⟨.CHART_SERIAL, 0, 64, .ro, 0⟩

def CHART_BASESERIAL.SERIAL : Fld := ⟨.CHART_BASESERIAL, 0, 64, .ro, 0⟩

def CHART_MINSERIAL.FLOOR : Fld := ⟨.CHART_MINSERIAL, 0, 64, .ro, 0⟩

def CHART_AMEND.ADDR : Fld := ⟨.CHART_AMEND, 6, 42, .rw, 0⟩
def CHART_AMEND.CANCEL : Fld := ⟨.CHART_AMEND, 1, 1, .wo, 0⟩
def CHART_AMEND.GO : Fld := ⟨.CHART_AMEND, 0, 1, .wo, 0⟩

def CHART_EFFECT.TIDE : Fld := ⟨.CHART_EFFECT, 0, 48, .ro, 0⟩

def CHART_DRAIN.PART : Fld := ⟨.CHART_DRAIN, 0, 64, .ro, 0⟩

def CHART_FLASH.ADDR : Fld := ⟨.CHART_FLASH, 6, 42, .rw, 0⟩
def CHART_FLASH.GO : Fld := ⟨.CHART_FLASH, 0, 1, .wo, 0⟩

def CHART_EVT.FLASHFAIL : Fld := ⟨.CHART_EVT, 7, 1, .w1c, 0⟩
def CHART_EVT.ROLEVIOL : Fld := ⟨.CHART_EVT, 6, 1, .w1c, 0⟩
def CHART_EVT.LOCKWRITE : Fld := ⟨.CHART_EVT, 5, 1, .w1c, 0⟩
def CHART_EVT.DEFERRED : Fld := ⟨.CHART_EVT, 4, 1, .w1c, 0⟩
def CHART_EVT.APPLIED : Fld := ⟨.CHART_EVT, 3, 1, .w1c, 0⟩
def CHART_EVT.AMENDREJ : Fld := ⟨.CHART_EVT, 2, 1, .w1c, 0⟩
def CHART_EVT.BOOTFAILB : Fld := ⟨.CHART_EVT, 1, 1, .w1c, 0⟩
def CHART_EVT.BOOTFAILA : Fld := ⟨.CHART_EVT, 0, 1, .w1c, 0⟩

def CHART_DEFER.PART : Fld := ⟨.CHART_DEFER, 0, 64, .ro, 0⟩

def CHART_BOOTREASON.SLOTB : Fld := ⟨.CHART_BOOTREASON, 8, 8, .ro, 0⟩
def CHART_BOOTREASON.SLOTA : Fld := ⟨.CHART_BOOTREASON, 0, 8, .ro, 0⟩

def CHART_DIGEST.BYTES : Fld := ⟨.CHART_DIGEST, 0, 64, .ro, 0⟩

/-! Fields of the EN block. -/

def EN_CAP.EXC : Fld := ⟨.EN_CAP, 16, 16, .rwl, 4200⟩
def EN_CAP.SUST : Fld := ⟨.EN_CAP, 0, 16, .rwl, 3600⟩

def EN_BOARD.AVSV : Fld := ⟨.EN_BOARD, 49, 1, .ro, 0⟩
def EN_BOARD.I3CV : Fld := ⟨.EN_BOARD, 48, 1, .ro, 0⟩
def EN_BOARD.AVSLIM : Fld := ⟨.EN_BOARD, 32, 16, .ro, 0⟩
def EN_BOARD.I3CEXC : Fld := ⟨.EN_BOARD, 16, 16, .ro, 0⟩
def EN_BOARD.I3CSUST : Fld := ⟨.EN_BOARD, 0, 16, .ro, 0⟩

def EN_THERM.TRIP : Fld := ⟨.EN_THERM, 8, 8, .rwl, 105⟩
def EN_THERM.HOT : Fld := ⟨.EN_THERM, 0, 8, .rwl, 95⟩

def EN_CTL.SB : Fld := ⟨.EN_CTL, 8, 1, .wo, 0⟩
def EN_CTL.DARK : Fld := ⟨.EN_CTL, 0, 3, .rw, 0⟩

def EN_CREDIT.CREDIT : Fld := ⟨.EN_CREDIT, 32, 32, .ro, 0⟩
def EN_CREDIT.RUN : Fld := ⟨.EN_CREDIT, 0, 32, .ro, 0⟩

def EN_EVT.SBREF : Fld := ⟨.EN_EVT, 7, 1, .w1c, 0⟩
def EN_EVT.DDREF : Fld := ⟨.EN_EVT, 6, 1, .w1c, 0⟩
def EN_EVT.MISSDEF : Fld := ⟨.EN_EVT, 5, 1, .w1c, 0⟩
def EN_EVT.LIMIT : Fld := ⟨.EN_EVT, 4, 1, .w1c, 0⟩
def EN_EVT.CRIT : Fld := ⟨.EN_EVT, 3, 1, .w1c, 0⟩
def EN_EVT.TRIP : Fld := ⟨.EN_EVT, 2, 1, .w1c, 0⟩
def EN_EVT.THROT : Fld := ⟨.EN_EVT, 1, 1, .w1c, 0⟩
def EN_EVT.CAPLOW : Fld := ⟨.EN_EVT, 0, 1, .w1c, 0⟩

def EN_COUNT.LIMIT : Fld := ⟨.EN_COUNT, 32, 32, .ro, 0⟩
def EN_COUNT.SLOTS : Fld := ⟨.EN_COUNT, 0, 32, .ro, 0⟩

def EN_SHARE.WATTS : Fld := ⟨.EN_SHARE, 0, 16, .rw, 0⟩

def EN_STATE.SLOTS : Fld := ⟨.EN_STATE, 16, 16, .ro, 0⟩
def EN_STATE.CEIL : Fld := ⟨.EN_STATE, 4, 4, .ro, 0⟩
def EN_STATE.PSTATE : Fld := ⟨.EN_STATE, 0, 4, .ro, 0⟩

def EN_LEDGER.ALLOT : Fld := ⟨.EN_LEDGER, 32, 32, .ro, 0⟩
def EN_LEDGER.USED : Fld := ⟨.EN_LEDGER, 0, 32, .ro, 0⟩

def EN_TOTAL.MJ : Fld := ⟨.EN_TOTAL, 0, 64, .ro, 0⟩

/-! Fields of the AGE block. -/

def AGE_CFG.OFFMAX : Fld := ⟨.AGE_CFG, 24, 8, .rwl, 75⟩
def AGE_CFG.OFFMIN : Fld := ⟨.AGE_CFG, 16, 8, .rwl, 231⟩
def AGE_CFG.THIGH : Fld := ⟨.AGE_CFG, 12, 4, .rwl, 9⟩
def AGE_CFG.TLOW : Fld := ⟨.AGE_CFG, 8, 4, .rwl, 5⟩
def AGE_CFG.INTERVAL : Fld := ⟨.AGE_CFG, 0, 5, .rwl, 20⟩

def AGE_EVT.EXHAUST : Fld := ⟨.AGE_EVT, 3, 1, .w1c, 0⟩
def AGE_EVT.DEMOTE : Fld := ⟨.AGE_EVT, 2, 1, .w1c, 0⟩
def AGE_EVT.FORCED : Fld := ⟨.AGE_EVT, 1, 1, .w1c, 0⟩
def AGE_EVT.REPLAN : Fld := ⟨.AGE_EVT, 0, 1, .w1c, 0⟩

def AGE_DIE.REPLANS : Fld := ⟨.AGE_DIE, 48, 16, .ro, 0⟩
def AGE_DIE.WORST : Fld := ⟨.AGE_DIE, 24, 8, .ro, 0⟩
def AGE_DIE.CEIL : Fld := ⟨.AGE_DIE, 20, 4, .ro, 0⟩
def AGE_DIE.OFFSET : Fld := ⟨.AGE_DIE, 0, 8, .ro, 0⟩

def AGE_FCAST.REMAIN : Fld := ⟨.AGE_FCAST, 32, 32, .ro, 0xffffffff⟩
def AGE_FCAST.RATE : Fld := ⟨.AGE_FCAST, 16, 16, .ro, 0⟩
def AGE_FCAST.HEADROOM : Fld := ⟨.AGE_FCAST, 0, 16, .ro, 0⟩

def AGE_GAUGE.TIDE : Fld := ⟨.AGE_GAUGE, 16, 48, .ro, 0⟩
def AGE_GAUGE.TEMP : Fld := ⟨.AGE_GAUGE, 8, 8, .ro, 0⟩
def AGE_GAUGE.SLACK : Fld := ⟨.AGE_GAUGE, 0, 8, .ro, 0⟩

/-! Fields of the BELL block. -/

def BELL_RING.TAIL : Fld := ⟨.BELL_RING, 0, 16, .wo, 0⟩

def BELL_STAT.CQFULL : Fld := ⟨.BELL_STAT, 34, 1, .ro, 0⟩
def BELL_STAT.WAITSEQ : Fld := ⟨.BELL_STAT, 33, 1, .ro, 0⟩
def BELL_STAT.EN : Fld := ⟨.BELL_STAT, 32, 1, .ro, 0⟩
def BELL_STAT.TAIL : Fld := ⟨.BELL_STAT, 16, 16, .ro, 0⟩
def BELL_STAT.HEAD : Fld := ⟨.BELL_STAT, 0, 16, .ro, 0⟩

def BELL_VIS.SEQ : Fld := ⟨.BELL_VIS, 0, 32, .ro, 0⟩

def BELL_CQHEAD.HEAD : Fld := ⟨.BELL_CQHEAD, 0, 16, .rw, 0⟩

def BELL_CNT.BADTAIL : Fld := ⟨.BELL_CNT, 48, 16, .ro, 0⟩
def BELL_CNT.RUNPAST : Fld := ⟨.BELL_CNT, 24, 24, .ro, 0⟩
def BELL_CNT.REREAD : Fld := ⟨.BELL_CNT, 0, 24, .ro, 0⟩

def BELL_ERR.SEQ : Fld := ⟨.BELL_ERR, 32, 32, .ro, 0⟩
def BELL_ERR.CODE : Fld := ⟨.BELL_ERR, 0, 8, .ro, 0⟩

def BELL_CFG.PRIO : Fld := ⟨.BELL_CFG, 16, 4, .rw, 1⟩
def BELL_CFG.CQSIZE : Fld := ⟨.BELL_CFG, 12, 4, .rw, 4⟩
def BELL_CFG.SIZE : Fld := ⟨.BELL_CFG, 8, 4, .rw, 4⟩
def BELL_CFG.EN : Fld := ⟨.BELL_CFG, 0, 1, .rw, 0⟩

def BELL_RINGADDR.ADDR : Fld := ⟨.BELL_RINGADDR, 8, 40, .rw, 0⟩

def BELL_CQADDR.ADDR : Fld := ⟨.BELL_CQADDR, 8, 40, .rw, 0⟩

def BELL_IRQADDR.ADDR : Fld := ⟨.BELL_IRQADDR, 2, 46, .rw, 0⟩

def BELL_IRQDATA.DATA : Fld := ⟨.BELL_IRQDATA, 0, 32, .rw, 0⟩

def BELL_IOMMU.RBLOCK : Fld := ⟨.BELL_IOMMU, 32, 32, .ro, 0⟩
def BELL_IOMMU.WBLOCK : Fld := ⟨.BELL_IOMMU, 0, 32, .ro, 0⟩

def BELL_MSIWIN.ADDR : Fld := ⟨.BELL_MSIWIN, 16, 32, .rwl, 0⟩
def BELL_MSIWIN.EN : Fld := ⟨.BELL_MSIWIN, 0, 1, .rwl, 0⟩

def BELL_QERR.QUEUE : Fld := ⟨.BELL_QERR, 0, 64, .rc, 0⟩

/-! Fields of the CUS block. -/

def CUS_CFG.BATCH : Fld := ⟨.CUS_CFG, 28, 16, .rw, 0⟩
def CUS_CFG.WINDOW : Fld := ⟨.CUS_CFG, 16, 12, .rw, 0⟩
def CUS_CFG.SIGCTR : Fld := ⟨.CUS_CFG, 6, 4, .rw, 0⟩
def CUS_CFG.RGB : Fld := ⟨.CUS_CFG, 1, 1, .rw, 0⟩
def CUS_CFG.EN : Fld := ⟨.CUS_CFG, 0, 1, .rw, 0⟩

def CUS_SUBQ.SIZE : Fld := ⟨.CUS_SUBQ, 48, 16, .rw, 0⟩
def CUS_SUBQ.ADDR : Fld := ⟨.CUS_SUBQ, 5, 43, .rw, 0⟩

def CUS_SUBPTR.HEAD : Fld := ⟨.CUS_SUBPTR, 32, 32, .ro, 0⟩
def CUS_SUBPTR.TAIL : Fld := ⟨.CUS_SUBPTR, 0, 32, .rw, 0⟩

def CUS_BATCHBUF.SLOTBYTES : Fld := ⟨.CUS_BATCHBUF, 48, 16, .rw, 0⟩
def CUS_BATCHBUF.ADDR : Fld := ⟨.CUS_BATCHBUF, 6, 42, .rw, 0⟩

def CUS_HOSTSTAGE.ADDR : Fld := ⟨.CUS_HOSTSTAGE, 6, 42, .rw, 0⟩

def CUS_HOSTDONE.INDEX : Fld := ⟨.CUS_HOSTDONE, 0, 64, .wo, 0⟩

def CUS_SHUFFLE.KEY : Fld := ⟨.CUS_SHUFFLE, 0, 64, .rw, 0⟩

def CUS_MANIFEST.ADDR : Fld := ⟨.CUS_MANIFEST, 6, 42, .rw, 0⟩

def CUS_CTL.RESTORE : Fld := ⟨.CUS_CTL, 0, 1, .wo, 0⟩

def CUS_STAT.CUR : Fld := ⟨.CUS_STAT, 32, 32, .ro, 0⟩
def CUS_STAT.EMITTED : Fld := ⟨.CUS_STAT, 16, 16, .ro, 0⟩
def CUS_STAT.OCCUPIED : Fld := ⟨.CUS_STAT, 0, 16, .ro, 0⟩

def CUS_DROP.LATEHOST : Fld := ⟨.CUS_DROP, 48, 16, .ro, 0⟩
def CUS_DROP.REJECT : Fld := ⟨.CUS_DROP, 32, 16, .ro, 0⟩
def CUS_DROP.CORRUPT : Fld := ⟨.CUS_DROP, 16, 16, .ro, 0⟩
def CUS_DROP.DEADLINE : Fld := ⟨.CUS_DROP, 0, 16, .ro, 0⟩

def CUS_EVT.BADITEM : Fld := ⟨.CUS_EVT, 2, 1, .w1c, 0⟩
def CUS_EVT.CFGERR : Fld := ⟨.CUS_EVT, 1, 1, .w1c, 0⟩
def CUS_EVT.DROP : Fld := ⟨.CUS_EVT, 0, 1, .w1c, 0⟩

/-! Fields of the TILE block. -/

def TILE_STAT.PART : Fld := ⟨.TILE_STAT, 16, 8, .ro, 0⟩
def TILE_STAT.ROLE : Fld := ⟨.TILE_STAT, 8, 2, .ro, 0⟩
def TILE_STAT.DMABUSY : Fld := ⟨.TILE_STAT, 2, 1, .ro, 0⟩
def TILE_STAT.VXBUSY : Fld := ⟨.TILE_STAT, 1, 1, .ro, 0⟩
def TILE_STAT.MXBUSY : Fld := ⟨.TILE_STAT, 0, 1, .ro, 0⟩

def TILE_SYNC.VALUE : Fld := ⟨.TILE_SYNC, 0, 16, .ro, 0⟩

def MX_STAT.ITEM : Fld := ⟨.MX_STAT, 32, 32, .ro, 0⟩
def MX_STAT.HALT : Fld := ⟨.MX_STAT, 8, 1, .ro, 0⟩
def MX_STAT.WAITSYNC : Fld := ⟨.MX_STAT, 5, 1, .ro, 0⟩
def MX_STAT.WAITBANK : Fld := ⟨.MX_STAT, 4, 1, .ro, 0⟩
def MX_STAT.BANKB : Fld := ⟨.MX_STAT, 2, 2, .ro, 0⟩
def MX_STAT.BANKA : Fld := ⟨.MX_STAT, 0, 2, .ro, 0⟩

def MX_FLAGS.SNV : Fld := ⟨.MX_FLAGS, 7, 1, .w1c, 0⟩
def MX_FLAGS.SNX : Fld := ⟨.MX_FLAGS, 6, 1, .w1c, 0⟩
def MX_FLAGS.SUF : Fld := ⟨.MX_FLAGS, 5, 1, .w1c, 0⟩
def MX_FLAGS.SOF : Fld := ⟨.MX_FLAGS, 4, 1, .w1c, 0⟩
def MX_FLAGS.NV : Fld := ⟨.MX_FLAGS, 3, 1, .w1c, 0⟩
def MX_FLAGS.NX : Fld := ⟨.MX_FLAGS, 2, 1, .w1c, 0⟩
def MX_FLAGS.UF : Fld := ⟨.MX_FLAGS, 1, 1, .w1c, 0⟩
def MX_FLAGS.OF : Fld := ⟨.MX_FLAGS, 0, 1, .w1c, 0⟩

def MX_FAULT.ITEM : Fld := ⟨.MX_FAULT, 32, 32, .ro, 0⟩
def MX_FAULT.OPCODE : Fld := ⟨.MX_FAULT, 8, 8, .ro, 0⟩
def MX_FAULT.CODE : Fld := ⟨.MX_FAULT, 0, 8, .ro, 0⟩

def MX_CTL.RESUME : Fld := ⟨.MX_CTL, 0, 1, .wo, 0⟩

def MX_MACS.COUNT : Fld := ⟨.MX_MACS, 0, 64, .ro, 0⟩

def MX_ITEMS.COUNT : Fld := ⟨.MX_ITEMS, 0, 64, .ro, 0⟩

def MX_WAITCYC.BANK : Fld := ⟨.MX_WAITCYC, 32, 32, .ro, 0⟩
def MX_WAITCYC.SYNC : Fld := ⟨.MX_WAITCYC, 0, 32, .ro, 0⟩

def VX_STAT.ITEM : Fld := ⟨.VX_STAT, 32, 32, .ro, 0⟩
def VX_STAT.HALT : Fld := ⟨.VX_STAT, 8, 1, .ro, 0⟩
def VX_STAT.WAITSYNC : Fld := ⟨.VX_STAT, 5, 1, .ro, 0⟩
def VX_STAT.WAITBANK : Fld := ⟨.VX_STAT, 4, 1, .ro, 0⟩
def VX_STAT.WATCH : Fld := ⟨.VX_STAT, 3, 1, .ro, 0⟩

def VX_FLAGS.SNV : Fld := ⟨.VX_FLAGS, 7, 1, .w1c, 0⟩
def VX_FLAGS.SNX : Fld := ⟨.VX_FLAGS, 6, 1, .w1c, 0⟩
def VX_FLAGS.SUF : Fld := ⟨.VX_FLAGS, 5, 1, .w1c, 0⟩
def VX_FLAGS.SOF : Fld := ⟨.VX_FLAGS, 4, 1, .w1c, 0⟩
def VX_FLAGS.NV : Fld := ⟨.VX_FLAGS, 3, 1, .w1c, 0⟩
def VX_FLAGS.NX : Fld := ⟨.VX_FLAGS, 2, 1, .w1c, 0⟩
def VX_FLAGS.UF : Fld := ⟨.VX_FLAGS, 1, 1, .w1c, 0⟩
def VX_FLAGS.OF : Fld := ⟨.VX_FLAGS, 0, 1, .w1c, 0⟩

def VX_FAULT.ITEM : Fld := ⟨.VX_FAULT, 32, 32, .ro, 0⟩
def VX_FAULT.OPCODE : Fld := ⟨.VX_FAULT, 8, 8, .ro, 0⟩
def VX_FAULT.CODE : Fld := ⟨.VX_FAULT, 0, 8, .ro, 0⟩

def VX_CTL.RESUME : Fld := ⟨.VX_CTL, 0, 1, .wo, 0⟩

def VX_ITEMS.COUNT : Fld := ⟨.VX_ITEMS, 0, 64, .ro, 0⟩

def VX_BUSYCYC.COUNT : Fld := ⟨.VX_BUSYCYC, 0, 64, .ro, 0⟩

def VX_WAITCYC.BANK : Fld := ⟨.VX_WAITCYC, 32, 32, .ro, 0⟩
def VX_WAITCYC.SYNC : Fld := ⟨.VX_WAITCYC, 0, 32, .ro, 0⟩

def VX_DMA_STAT.ITEM : Fld := ⟨.VX_DMA_STAT, 32, 32, .ro, 0⟩
def VX_DMA_STAT.HALT : Fld := ⟨.VX_DMA_STAT, 8, 1, .ro, 0⟩
def VX_DMA_STAT.WAITSYNC : Fld := ⟨.VX_DMA_STAT, 5, 1, .ro, 0⟩
def VX_DMA_STAT.WAITTIER : Fld := ⟨.VX_DMA_STAT, 4, 1, .ro, 0⟩
def VX_DMA_STAT.DEFER : Fld := ⟨.VX_DMA_STAT, 3, 1, .ro, 0⟩

def VX_DMA_FAULT.ITEM : Fld := ⟨.VX_DMA_FAULT, 32, 32, .ro, 0⟩
def VX_DMA_FAULT.OPCODE : Fld := ⟨.VX_DMA_FAULT, 8, 8, .ro, 0⟩
def VX_DMA_FAULT.CODE : Fld := ⟨.VX_DMA_FAULT, 0, 8, .ro, 0⟩

def VX_DMA_CTL.RESUME : Fld := ⟨.VX_DMA_CTL, 0, 1, .wo, 0⟩

def VX_DMA_BYTES.COUNT : Fld := ⟨.VX_DMA_BYTES, 0, 64, .ro, 0⟩

def VX_DMA_WAITCYC.TIER : Fld := ⟨.VX_DMA_WAITCYC, 32, 32, .ro, 0⟩
def VX_DMA_WAITCYC.SYNC : Fld := ⟨.VX_DMA_WAITCYC, 0, 32, .ro, 0⟩

def VX_DMA_FADDR.ADDR : Fld := ⟨.VX_DMA_FADDR, 0, 48, .ro, 0⟩

/-! Fields of the NUM block. -/

def NUM_KEYLO.KEY : Fld := ⟨.NUM_KEYLO, 0, 64, .rw, 0⟩

def NUM_KEYHI.KEY : Fld := ⟨.NUM_KEYHI, 0, 64, .rw, 0⟩

def NUM_STEP.STEP : Fld := ⟨.NUM_STEP, 24, 40, .rw, 0⟩
def NUM_STEP.PER : Fld := ⟨.NUM_STEP, 16, 8, .rw, 0⟩
def NUM_STEP.CLOSESET : Fld := ⟨.NUM_STEP, 0, 16, .rw, 0⟩

def NUM_LAYTAB.TAGS : Fld := ⟨.NUM_LAYTAB, 48, 16, .rw, 0⟩
def NUM_LAYTAB.ADDR : Fld := ⟨.NUM_LAYTAB, 6, 42, .rw, 0⟩

def NUM_SCALETAB.SLOTS : Fld := ⟨.NUM_SCALETAB, 48, 11, .rw, 0⟩
def NUM_SCALETAB.ADDR : Fld := ⟨.NUM_SCALETAB, 6, 42, .rw, 0⟩

def NUM_LSCALE.CLEAN : Fld := ⟨.NUM_LSCALE, 48, 16, .ro, 0⟩
def NUM_LSCALE.GROW : Fld := ⟨.NUM_LSCALE, 32, 16, .rw, 2000⟩
def NUM_LSCALE.BACKOFF : Fld := ⟨.NUM_LSCALE, 24, 4, .rw, 1⟩
def NUM_LSCALE.MAX : Fld := ⟨.NUM_LSCALE, 16, 6, .rw, 32⟩
def NUM_LSCALE.MIN : Fld := ⟨.NUM_LSCALE, 8, 6, .rw, 0⟩
def NUM_LSCALE.EXP : Fld := ⟨.NUM_LSCALE, 0, 6, .rw, 16⟩

def NUM_LSFLAG.ADDR : Fld := ⟨.NUM_LSFLAG, 3, 45, .rw, 0⟩
def NUM_LSFLAG.EN : Fld := ⟨.NUM_LSFLAG, 0, 1, .rw, 0⟩

def NUM_DROP.ROWS : Fld := ⟨.NUM_DROP, 48, 16, .rw, 0⟩
def NUM_DROP.ADDR : Fld := ⟨.NUM_DROP, 6, 42, .rw, 0⟩

def NUM_WATCH_RATE.SUSTAIN : Fld := ⟨.NUM_WATCH_RATE, 24, 4, .rw, 4⟩
def NUM_WATCH_RATE.THRBIN : Fld := ⟨.NUM_WATCH_RATE, 16, 3, .rw, 5⟩
def NUM_WATCH_RATE.EN : Fld := ⟨.NUM_WATCH_RATE, 8, 1, .rw, 1⟩
def NUM_WATCH_RATE.LOG2 : Fld := ⟨.NUM_WATCH_RATE, 0, 5, .rw, 10⟩

def NUM_ZG_LIMIT.LIMIT : Fld := ⟨.NUM_ZG_LIMIT, 0, 16, .rw, 64⟩

def NUM_EVT.WATCHSKIP : Fld := ⟨.NUM_EVT, 9, 1, .w1c, 0⟩
def NUM_EVT.ZEROGRAD : Fld := ⟨.NUM_EVT, 8, 1, .w1c, 0⟩
def NUM_EVT.WATCH : Fld := ⟨.NUM_EVT, 7, 1, .w1c, 0⟩
def NUM_EVT.LSBOUND : Fld := ⟨.NUM_EVT, 6, 1, .w1c, 0⟩
def NUM_EVT.LSUP : Fld := ⟨.NUM_EVT, 5, 1, .w1c, 0⟩
def NUM_EVT.LSDOWN : Fld := ⟨.NUM_EVT, 4, 1, .w1c, 0⟩
def NUM_EVT.LATEFLAG : Fld := ⟨.NUM_EVT, 3, 1, .w1c, 0⟩
def NUM_EVT.REPFAULT : Fld := ⟨.NUM_EVT, 2, 1, .w1c, 0⟩
def NUM_EVT.ROWDROP : Fld := ⟨.NUM_EVT, 1, 1, .w1c, 0⟩
def NUM_EVT.REPEAT : Fld := ⟨.NUM_EVT, 0, 1, .w1c, 0⟩

def NUM_COUNT.ROWS : Fld := ⟨.NUM_COUNT, 32, 32, .ro, 0⟩
def NUM_COUNT.REPEATS : Fld := ⟨.NUM_COUNT, 0, 32, .ro, 0⟩

def NUM_WATCH_CNT.ABANDONED : Fld := ⟨.NUM_WATCH_CNT, 32, 32, .ro, 0⟩
def NUM_WATCH_CNT.SAMPLES : Fld := ⟨.NUM_WATCH_CNT, 0, 32, .ro, 0⟩

/-! Fields of the UPD block. -/

def UPD_STAT.ITEM : Fld := ⟨.UPD_STAT, 32, 32, .ro, 0⟩
def UPD_STAT.HALT : Fld := ⟨.UPD_STAT, 8, 1, .ro, 0⟩
def UPD_STAT.PASS : Fld := ⟨.UPD_STAT, 6, 2, .ro, 0⟩
def UPD_STAT.WAITSYNC : Fld := ⟨.UPD_STAT, 5, 1, .ro, 0⟩
def UPD_STAT.WAITPEND : Fld := ⟨.UPD_STAT, 4, 1, .ro, 0⟩
def UPD_STAT.BUSY : Fld := ⟨.UPD_STAT, 0, 1, .ro, 0⟩

def UPD_GROUPTAB.ADDR : Fld := ⟨.UPD_GROUPTAB, 6, 42, .rw, 0⟩

def UPD_FLAGS.NV : Fld := ⟨.UPD_FLAGS, 3, 1, .w1c, 0⟩
def UPD_FLAGS.NX : Fld := ⟨.UPD_FLAGS, 2, 1, .w1c, 0⟩
def UPD_FLAGS.UF : Fld := ⟨.UPD_FLAGS, 1, 1, .w1c, 0⟩
def UPD_FLAGS.OF : Fld := ⟨.UPD_FLAGS, 0, 1, .w1c, 0⟩

def UPD_FAULT.ITEM : Fld := ⟨.UPD_FAULT, 32, 32, .ro, 0⟩
def UPD_FAULT.OPCODE : Fld := ⟨.UPD_FAULT, 8, 8, .ro, 0⟩
def UPD_FAULT.CODE : Fld := ⟨.UPD_FAULT, 0, 8, .ro, 0⟩

def UPD_CTL.DISCARD : Fld := ⟨.UPD_CTL, 1, 1, .wo, 0⟩
def UPD_CTL.RESUME : Fld := ⟨.UPD_CTL, 0, 1, .wo, 0⟩

def UPD_COUNT.FROZEN : Fld := ⟨.UPD_COUNT, 32, 32, .ro, 0⟩
def UPD_COUNT.NONFIN : Fld := ⟨.UPD_COUNT, 0, 32, .ro, 0⟩

def UPD_ELEMS.COUNT : Fld := ⟨.UPD_ELEMS, 0, 64, .ro, 0⟩

def UPD_EVT.DISCARDED : Fld := ⟨.UPD_EVT, 2, 1, .w1c, 0⟩
def UPD_EVT.NONFIN : Fld := ⟨.UPD_EVT, 1, 1, .w1c, 0⟩
def UPD_EVT.FROZEN : Fld := ⟨.UPD_EVT, 0, 1, .w1c, 0⟩

def UPD_WAITCYC.PEND : Fld := ⟨.UPD_WAITCYC, 32, 32, .ro, 0⟩
def UPD_WAITCYC.SYNC : Fld := ⟨.UPD_WAITCYC, 0, 32, .ro, 0⟩

def UPD_FADDR.ADDR : Fld := ⟨.UPD_FADDR, 0, 48, .ro, 0⟩

def UPD_LIVE.LIVE : Fld := ⟨.UPD_LIVE, 0, 64, .rw, 0⟩

def UPD_PEND.PEND : Fld := ⟨.UPD_PEND, 0, 64, .ro, 0⟩

def UPD_PSET.VALID : Fld := ⟨.UPD_PSET, 16, 1, .ro, 0⟩
def UPD_PSET.SET : Fld := ⟨.UPD_PSET, 0, 16, .ro, 0⟩

/-! Fields of the SCH block. -/

def SCH_CTL.RECALC : Fld := ⟨.SCH_CTL, 8, 1, .wo, 0⟩
def SCH_CTL.SHAPE : Fld := ⟨.SCH_CTL, 0, 2, .rw, 0⟩

def SCH_ORIGIN.ORIGIN : Fld := ⟨.SCH_ORIGIN, 0, 40, .rw, 0⟩

def SCH_WARM.W : Fld := ⟨.SCH_WARM, 0, 32, .rw, 0⟩

def SCH_DECAY.PERIOD : Fld := ⟨.SCH_DECAY, 32, 32, .rw, 0⟩
def SCH_DECAY.DECAY : Fld := ⟨.SCH_DECAY, 0, 32, .rw, 0⟩

def SCH_MULT.MULT : Fld := ⟨.SCH_MULT, 0, 32, .rw, 0x3f800000⟩

def SCH_ETAMAX.ETAMAX : Fld := ⟨.SCH_ETAMAX, 0, 32, .rw, 0⟩

def SCH_ETAMIN.ETAMIN : Fld := ⟨.SCH_ETAMIN, 0, 32, .rw, 0⟩

def SCH_ETA.ETA : Fld := ⟨.SCH_ETA, 0, 32, .ro, 0⟩

def SCH_POS.CYCLE : Fld := ⟨.SCH_POS, 32, 32, .ro, 0⟩
def SCH_POS.POS : Fld := ⟨.SCH_POS, 0, 32, .ro, 0⟩

/-! Fields of the SHD block. -/

def SHD_CTL.PART : Fld := ⟨.SHD_CTL, 8, 6, .rw, 0⟩
def SHD_CTL.REALIGN : Fld := ⟨.SHD_CTL, 2, 1, .wo, 0⟩
def SHD_CTL.SECURE : Fld := ⟨.SHD_CTL, 1, 1, .wo, 0⟩
def SHD_CTL.EN : Fld := ⟨.SHD_CTL, 0, 1, .rw, 0⟩

def SHD_STAT.SERVING : Fld := ⟨.SHD_STAT, 16, 8, .ro, 0⟩
def SHD_STAT.PHASE : Fld := ⟨.SHD_STAT, 8, 3, .ro, 0⟩
def SHD_STAT.ROLE : Fld := ⟨.SHD_STAT, 0, 3, .ro, 0⟩

def SHD_RECDST.HOLDB : Fld := ⟨.SHD_RECDST, 56, 8, .rw, 255⟩
def SHD_RECDST.HOLDA : Fld := ⟨.SHD_RECDST, 48, 8, .rw, 0⟩
def SHD_RECDST.HOFFB : Fld := ⟨.SHD_RECDST, 24, 24, .rw, 0⟩
def SHD_RECDST.HOFFA : Fld := ⟨.SHD_RECDST, 0, 24, .rw, 0⟩

def SHD_SECURE.INTERVAL : Fld := ⟨.SHD_SECURE, 32, 32, .ro, 0⟩
def SHD_SECURE.MINSTEPS : Fld := ⟨.SHD_SECURE, 16, 16, .rw, 16⟩
def SHD_SECURE.ROLLMAX : Fld := ⟨.SHD_SECURE, 0, 16, .rw, 1000⟩

def SHD_LOG.LOGSTEPS : Fld := ⟨.SHD_LOG, 0, 16, .rw, 2048⟩

def SHD_COST.C : Fld := ⟨.SHD_COST, 32, 32, .ro, 0⟩
def SHD_COST.STEPT : Fld := ⟨.SHD_COST, 0, 32, .ro, 0⟩

def SHD_MTBF.M : Fld := ⟨.SHD_MTBF, 32, 32, .ro, 0⟩
def SHD_MTBF.DARKS : Fld := ⟨.SHD_MTBF, 16, 16, .ro, 0⟩
def SHD_MTBF.WINDOW : Fld := ⟨.SHD_MTBF, 0, 16, .rw, 7⟩

def SHD_ROLL.NS : Fld := ⟨.SHD_ROLL, 0, 32, .ro, 0⟩

def SHD_LASTSEC.STEP : Fld := ⟨.SHD_LASTSEC, 0, 40, .ro, 0⟩

def SHD_TAKE.MS : Fld := ⟨.SHD_TAKE, 32, 32, .ro, 0⟩
def SHD_TAKE.STEPS : Fld := ⟨.SHD_TAKE, 0, 32, .ro, 0⟩

def SHD_EVT.CFGERR : Fld := ⟨.SHD_EVT, 6, 1, .w1c, 0⟩
def SHD_EVT.UNRECOV : Fld := ⟨.SHD_EVT, 5, 1, .w1c, 0⟩
def SHD_EVT.NOSPARE : Fld := ⟨.SHD_EVT, 4, 1, .w1c, 0⟩
def SHD_EVT.GAVEUP : Fld := ⟨.SHD_EVT, 3, 1, .w1c, 0⟩
def SHD_EVT.REALIGNED : Fld := ⟨.SHD_EVT, 2, 1, .w1c, 0⟩
def SHD_EVT.TAKEOVER : Fld := ⟨.SHD_EVT, 1, 1, .w1c, 0⟩
def SHD_EVT.SECURED : Fld := ⟨.SHD_EVT, 0, 1, .w1c, 0⟩

def SHD_COUNT.REALIGN : Fld := ⟨.SHD_COUNT, 48, 16, .ro, 0⟩
def SHD_COUNT.TAKEOVERS : Fld := ⟨.SHD_COUNT, 32, 16, .ro, 0⟩
def SHD_COUNT.HOLDWAIT : Fld := ⟨.SHD_COUNT, 0, 32, .ro, 0⟩

def SHD_RIDESRC.PAGES : Fld := ⟨.SHD_RIDESRC, 48, 16, .rw, 0⟩
def SHD_RIDESRC.ADDR : Fld := ⟨.SHD_RIDESRC, 21, 27, .rw, 0⟩
def SHD_RIDESRC.CLASS : Fld := ⟨.SHD_RIDESRC, 2, 2, .rw, 0⟩
def SHD_RIDESRC.EN : Fld := ⟨.SHD_RIDESRC, 0, 1, .rw, 0⟩

def SHD_RIDEDST.HOLDB : Fld := ⟨.SHD_RIDEDST, 56, 8, .rw, 255⟩
def SHD_RIDEDST.HOLDA : Fld := ⟨.SHD_RIDEDST, 48, 8, .rw, 0⟩
def SHD_RIDEDST.HOFFB : Fld := ⟨.SHD_RIDEDST, 24, 24, .rw, 0⟩
def SHD_RIDEDST.HOFFA : Fld := ⟨.SHD_RIDEDST, 0, 24, .rw, 0⟩

/-! Fields of the TIER block. -/

def TIER_CTL.INVALBUSY : Fld := ⟨.TIER_CTL, 1, 1, .ro, 0⟩
def TIER_CTL.INVAL : Fld := ⟨.TIER_CTL, 0, 1, .wo, 0⟩

def TIER_OBJTAB.COUNT : Fld := ⟨.TIER_OBJTAB, 48, 16, .rw, 0⟩
def TIER_OBJTAB.ADDR : Fld := ⟨.TIER_OBJTAB, 6, 42, .rw, 0⟩

def TIER_PTBASE.ADDR : Fld := ⟨.TIER_PTBASE, 21, 27, .rw, 0⟩
def TIER_PTBASE.EN : Fld := ⟨.TIER_PTBASE, 0, 1, .rw, 0⟩

def TIER_MIGQ.SIZE : Fld := ⟨.TIER_MIGQ, 48, 16, .rw, 0⟩
def TIER_MIGQ.ADDR : Fld := ⟨.TIER_MIGQ, 5, 43, .rw, 0⟩

def TIER_FQ.SIZE : Fld := ⟨.TIER_FQ, 48, 16, .rw, 0⟩
def TIER_FQ.ADDR : Fld := ⟨.TIER_FQ, 5, 43, .rw, 0⟩

def TIER_MIGPTR.HEAD : Fld := ⟨.TIER_MIGPTR, 32, 16, .ro, 0⟩
def TIER_MIGPTR.TAIL : Fld := ⟨.TIER_MIGPTR, 0, 16, .rw, 0⟩

def TIER_FQPTR.TAIL : Fld := ⟨.TIER_FQPTR, 32, 16, .ro, 0⟩
def TIER_FQPTR.HEAD : Fld := ⟨.TIER_FQPTR, 0, 16, .rw, 0⟩

def TIER_OBJCTL.OBJ : Fld := ⟨.TIER_OBJCTL, 16, 16, .rw, 0⟩
def TIER_OBJCTL.REFUSED : Fld := ⟨.TIER_OBJCTL, 5, 1, .ro, 0⟩
def TIER_OBJCTL.DONE : Fld := ⟨.TIER_OBJCTL, 4, 1, .ro, 0⟩
def TIER_OBJCTL.OP : Fld := ⟨.TIER_OBJCTL, 0, 3, .wo, 0⟩

def TIER_STALL.EPISODES : Fld := ⟨.TIER_STALL, 40, 24, .ro, 0⟩
def TIER_STALL.CYCLES : Fld := ⟨.TIER_STALL, 0, 40, .ro, 0⟩

def TIER_ECCW.UE : Fld := ⟨.TIER_ECCW, 32, 32, .ro, 0⟩
def TIER_ECCW.CE : Fld := ⟨.TIER_ECCW, 0, 32, .ro, 0⟩

def TIER_ECCQ.UE : Fld := ⟨.TIER_ECCQ, 32, 32, .ro, 0⟩
def TIER_ECCQ.CE : Fld := ⟨.TIER_ECCQ, 0, 32, .ro, 0⟩

def TIER_EVT.ESCALATE : Fld := ⟨.TIER_EVT, 5, 1, .w1c, 0⟩
def TIER_EVT.FQFULL : Fld := ⟨.TIER_EVT, 4, 1, .w1c, 0⟩
def TIER_EVT.EVICT : Fld := ⟨.TIER_EVT, 3, 1, .w1c, 0⟩
def TIER_EVT.LOST : Fld := ⟨.TIER_EVT, 2, 1, .w1c, 0⟩
def TIER_EVT.OVERQUOTA : Fld := ⟨.TIER_EVT, 1, 1, .w1c, 0⟩
def TIER_EVT.POISON : Fld := ⟨.TIER_EVT, 0, 1, .w1c, 0⟩

def TIER_FQDROP.COUNT : Fld := ⟨.TIER_FQDROP, 0, 64, .ro, 0⟩

def TIER_POOL.FREE : Fld := ⟨.TIER_POOL, 32, 32, .ro, 0⟩
def TIER_POOL.USED : Fld := ⟨.TIER_POOL, 0, 32, .ro, 0⟩

def TIER_SCRUB.HOURS : Fld := ⟨.TIER_SCRUB, 0, 8, .rw, 24⟩

def TIER_ACCT.WOVER : Fld := ⟨.TIER_ACCT, 49, 1, .ro, 0⟩
def TIER_ACCT.QOVER : Fld := ⟨.TIER_ACCT, 48, 1, .ro, 0⟩
def TIER_ACCT.QUAY : Fld := ⟨.TIER_ACCT, 32, 16, .ro, 0⟩
def TIER_ACCT.WARE : Fld := ⟨.TIER_ACCT, 0, 32, .ro, 0⟩

/-! Fields of the COH block. -/

def COH_STAT.DEPARTING : Fld := ⟨.COH_STAT, 2, 10, .ro, 0⟩
def COH_STAT.MODE : Fld := ⟨.COH_STAT, 1, 1, .ro, 0⟩

def COH_STAT2.STATE : Fld := ⟨.COH_STAT2, 0, 2, .ro, 0⟩

def COH_CTL.MODE : Fld := ⟨.COH_CTL, 0, 1, .rw, 0⟩

def COH_EVT.POISONWB : Fld := ⟨.COH_EVT, 2, 1, .w1c, 0⟩
def COH_EVT.DEPARTED : Fld := ⟨.COH_EVT, 1, 1, .w1c, 0⟩
def COH_EVT.COLLAPSE : Fld := ⟨.COH_EVT, 0, 1, .w1c, 0⟩

def COH_COLLAPSE.CAUSE : Fld := ⟨.COH_COLLAPSE, 60, 4, .ro, 0⟩
def COH_COLLAPSE.AGENT : Fld := ⟨.COH_COLLAPSE, 48, 10, .ro, 0⟩
def COH_COLLAPSE.ADDR : Fld := ⟨.COH_COLLAPSE, 0, 48, .ro, 0⟩

def COH_ATOMIC.NEAR : Fld := ⟨.COH_ATOMIC, 32, 32, .ro, 0⟩
def COH_ATOMIC.FAR : Fld := ⟨.COH_ATOMIC, 0, 32, .ro, 0⟩

def COH_DIREVICT.COUNT : Fld := ⟨.COH_DIREVICT, 0, 64, .ro, 0⟩

def COH_HOLDSNP.COUNT : Fld := ⟨.COH_HOLDSNP, 0, 64, .ro, 0⟩

def COH_MEMBT.TILES : Fld := ⟨.COH_MEMBT, 0, 64, .ro, 0⟩

def COH_MEMBH.HOST : Fld := ⟨.COH_MEMBH, 0, 64, .ro, 0⟩

def COH_MEMBD.CDMA : Fld := ⟨.COH_MEMBD, 0, 1, .ro, 0⟩

/-! Fields of the D2D block. -/

def D2D_EDGE.REV : Fld := ⟨.D2D_EDGE, 20, 4, .ro, 0⟩
def D2D_EDGE.FAILS : Fld := ⟨.D2D_EDGE, 16, 2, .ro, 0⟩
def D2D_EDGE.MAPBA : Fld := ⟨.D2D_EDGE, 12, 4, .ro, 0⟩
def D2D_EDGE.MAPAB : Fld := ⟨.D2D_EDGE, 8, 4, .ro, 0⟩
def D2D_EDGE.WIDTH : Fld := ⟨.D2D_EDGE, 2, 3, .ro, 0⟩
def D2D_EDGE.STATE : Fld := ⟨.D2D_EDGE, 0, 2, .ro, 1⟩

def D2D_REPAIR.SPARESBA : Fld := ⟨.D2D_REPAIR, 8, 8, .ro, 0⟩
def D2D_REPAIR.SPARESAB : Fld := ⟨.D2D_REPAIR, 0, 8, .ro, 0⟩

def D2D_ERR.TAGWAIT : Fld := ⟨.D2D_ERR, 48, 16, .ro, 0⟩
def D2D_ERR.RESENT : Fld := ⟨.D2D_ERR, 24, 24, .ro, 0⟩
def D2D_ERR.CRCFAIL : Fld := ⟨.D2D_ERR, 0, 24, .ro, 0⟩

def D2D_CTL.RETRAIN : Fld := ⟨.D2D_CTL, 0, 1, .wo, 0⟩

def D2D_EVT.FORCEDQ : Fld := ⟨.D2D_EVT, 16, 8, .w1c, 0⟩
def D2D_EVT.DOWN : Fld := ⟨.D2D_EVT, 8, 8, .w1c, 0⟩
def D2D_EVT.NARROWED : Fld := ⟨.D2D_EVT, 0, 8, .w1c, 0⟩

def D2D_BUDMISS.COUNT : Fld := ⟨.D2D_BUDMISS, 0, 48, .ro, 0⟩

/-! Fields of the HURAL block. -/

def HURAL_STAT.PEER : Fld := ⟨.HURAL_STAT, 40, 8, .ro, 0⟩
def HURAL_STAT.PARTNER : Fld := ⟨.HURAL_STAT, 8, 3, .ro, 0⟩
def HURAL_STAT.STATE : Fld := ⟨.HURAL_STAT, 0, 3, .ro, 0⟩

def HURAL_CFG.PMD : Fld := ⟨.HURAL_CFG, 4, 2, .rwl, 0⟩
def HURAL_CFG.MODE : Fld := ⟨.HURAL_CFG, 1, 1, .rwl, 0⟩
def HURAL_CFG.EN : Fld := ⟨.HURAL_CFG, 0, 1, .rw, 0⟩

def HURAL_CTL.REKEY : Fld := ⟨.HURAL_CTL, 2, 1, .wo, 0⟩
def HURAL_CTL.CLOSE : Fld := ⟨.HURAL_CTL, 1, 1, .wo, 0⟩
def HURAL_CTL.OPEN : Fld := ⟨.HURAL_CTL, 0, 1, .wo, 0⟩

def HURAL_MAC.ADDR : Fld := ⟨.HURAL_MAC, 0, 48, .rwl, 0⟩

def HURAL_PEERMAC.ADDR : Fld := ⟨.HURAL_PEERMAC, 0, 48, .rwl, 0⟩

def HURAL_ETH.MAXFLITS : Fld := ⟨.HURAL_ETH, 32, 4, .rwl, 5⟩
def HURAL_ETH.ETYPE : Fld := ⟨.HURAL_ETH, 16, 16, .rwl, 0x88b5⟩
def HURAL_ETH.PCP : Fld := ⟨.HURAL_ETH, 13, 3, .rwl, 0⟩
def HURAL_ETH.VLANEN : Fld := ⟨.HURAL_ETH, 12, 1, .rwl, 0⟩
def HURAL_ETH.VID : Fld := ⟨.HURAL_ETH, 0, 12, .rwl, 0⟩

def HURAL_LINK.FECUE : Fld := ⟨.HURAL_LINK, 32, 32, .ro, 0⟩
def HURAL_LINK.FECCE : Fld := ⟨.HURAL_LINK, 0, 32, .ro, 0⟩

def HURAL_ERR.PAUSEDROP : Fld := ⟨.HURAL_ERR, 48, 16, .ro, 0⟩
def HURAL_ERR.GAP : Fld := ⟨.HURAL_ERR, 32, 16, .ro, 0⟩
def HURAL_ERR.RETRY : Fld := ⟨.HURAL_ERR, 16, 16, .ro, 0⟩
def HURAL_ERR.CRC : Fld := ⟨.HURAL_ERR, 0, 16, .ro, 0⟩

def HURAL_HOSTILE.OVERRATE : Fld := ⟨.HURAL_HOSTILE, 48, 16, .ro, 0⟩
def HURAL_HOSTILE.REPLAY : Fld := ⟨.HURAL_HOSTILE, 32, 16, .ro, 0⟩
def HURAL_HOSTILE.MALFORMED : Fld := ⟨.HURAL_HOSTILE, 16, 16, .ro, 0⟩
def HURAL_HOSTILE.AUTH : Fld := ⟨.HURAL_HOSTILE, 0, 16, .ro, 0⟩

def HURAL_STARVE.EPISODES : Fld := ⟨.HURAL_STARVE, 40, 24, .ro, 0⟩
def HURAL_STARVE.NS : Fld := ⟨.HURAL_STARVE, 0, 40, .ro, 0⟩

def HURAL_EVT.REKEYED : Fld := ⟨.HURAL_EVT, 5, 1, .w1c, 0⟩
def HURAL_EVT.HOSTILE : Fld := ⟨.HURAL_EVT, 4, 1, .w1c, 0⟩
def HURAL_EVT.FAULTY : Fld := ⟨.HURAL_EVT, 3, 1, .w1c, 0⟩
def HURAL_EVT.SLOW : Fld := ⟨.HURAL_EVT, 2, 1, .w1c, 0⟩
def HURAL_EVT.ABSENT : Fld := ⟨.HURAL_EVT, 1, 1, .w1c, 0⟩
def HURAL_EVT.OPENED : Fld := ⟨.HURAL_EVT, 0, 1, .w1c, 0⟩

def HURAL_PEERID.BYTES : Fld := ⟨.HURAL_PEERID, 0, 64, .ro, 0⟩

def HURAL_THRESH.HOSTILE : Fld := ⟨.HURAL_THRESH, 48, 16, .rwl, 64⟩
def HURAL_THRESH.FAULTY : Fld := ⟨.HURAL_THRESH, 32, 16, .rwl, 1000⟩
def HURAL_THRESH.STUCK : Fld := ⟨.HURAL_THRESH, 16, 16, .rwl, 10⟩
def HURAL_THRESH.STARVE : Fld := ⟨.HURAL_THRESH, 0, 16, .rwl, 10⟩

def HURAL_ROUTE.ALT : Fld := ⟨.HURAL_ROUTE, 8, 5, .rwl, 31⟩
def HURAL_ROUTE.PRI : Fld := ⟨.HURAL_ROUTE, 0, 5, .rwl, 31⟩

def HURAL_ALIAS.SERVER : Fld := ⟨.HURAL_ALIAS, 0, 8, .ro, 0⟩

def HURAL_EXPSRC.SRC : Fld := ⟨.HURAL_EXPSRC, 21, 27, .rw, 0⟩
def HURAL_EXPSRC.READER : Fld := ⟨.HURAL_EXPSRC, 13, 8, .rw, 0⟩
def HURAL_EXPSRC.ALL : Fld := ⟨.HURAL_EXPSRC, 12, 1, .rw, 0⟩
def HURAL_EXPSRC.EN : Fld := ⟨.HURAL_EXPSRC, 0, 1, .rw, 0⟩

def HURAL_EXPWIN.PAGES : Fld := ⟨.HURAL_EXPWIN, 32, 32, .rw, 0⟩
def HURAL_EXPWIN.OFF : Fld := ⟨.HURAL_EXPWIN, 0, 32, .rw, 0⟩

/-! Fields of the LOG block. -/

def LOG_STAT.STAGED : Fld := ⟨.LOG_STAT, 32, 16, .ro, 0⟩
def LOG_STAT.FULL : Fld := ⟨.LOG_STAT, 24, 1, .ro, 0⟩
def LOG_STAT.COUNT : Fld := ⟨.LOG_STAT, 0, 22, .ro, 0⟩

def LOG_LOST.COUNT : Fld := ⟨.LOG_LOST, 0, 64, .ro, 0⟩

def LOG_FLOODS.COUNT : Fld := ⟨.LOG_FLOODS, 0, 64, .ro, 0⟩

def LOG_TALLYIDX.CODE : Fld := ⟨.LOG_TALLYIDX, 0, 16, .rw, 0⟩

def LOG_TALLY.COUNT : Fld := ⟨.LOG_TALLY, 0, 48, .ro, 0⟩

def LOG_RDIDX.INDEX : Fld := ⟨.LOG_RDIDX, 0, 21, .rw, 0⟩

def LOG_RDDATA.WORD : Fld := ⟨.LOG_RDDATA, 0, 64, .ro, 0⟩

/-! Fields of the HM block. -/

def HM_LOAD.SEC : Fld := ⟨.HM_LOAD, 48, 16, .ro, 0⟩
def HM_LOAD.SVC1 : Fld := ⟨.HM_LOAD, 32, 16, .ro, 0⟩
def HM_LOAD.SVC0 : Fld := ⟨.HM_LOAD, 16, 16, .ro, 0⟩
def HM_LOAD.TIDE : Fld := ⟨.HM_LOAD, 0, 16, .ro, 0⟩

def HM_FW.ADDR : Fld := ⟨.HM_FW, 6, 42, .rw, 0⟩
def HM_FW.FLASH : Fld := ⟨.HM_FW, 1, 1, .rw, 0⟩
def HM_FW.GO : Fld := ⟨.HM_FW, 0, 1, .wo, 0⟩

def HM_FWSTAT.VERSION : Fld := ⟨.HM_FWSTAT, 32, 32, .ro, 0⟩
def HM_FWSTAT.REASON : Fld := ⟨.HM_FWSTAT, 8, 8, .ro, 0⟩
def HM_FWSTAT.STATE : Fld := ⟨.HM_FWSTAT, 0, 3, .ro, 0⟩

def HM_TIME.TAI : Fld := ⟨.HM_TIME, 0, 64, .ro, 0⟩

def HM_TIMESTAT.SRC : Fld := ⟨.HM_TIMESTAT, 32, 2, .ro, 0⟩
def HM_TIMESTAT.UNCERT : Fld := ⟨.HM_TIMESTAT, 0, 32, .ro, 0⟩

def HM_SETUNC.UNCERT : Fld := ⟨.HM_SETUNC, 0, 32, .rw, 0⟩

def HM_SETTAI.TAI : Fld := ⟨.HM_SETTAI, 0, 64, .wo, 0⟩

def HM_TELSET.COUNT : Fld := ⟨.HM_TELSET, 48, 16, .rw, 0⟩
def HM_TELSET.ADDR : Fld := ⟨.HM_TELSET, 3, 45, .rw, 0⟩

def HM_TELRING.SLOTS : Fld := ⟨.HM_TELRING, 48, 16, .rw, 0⟩
def HM_TELRING.ADDR : Fld := ⟨.HM_TELRING, 6, 42, .rw, 0⟩

def HM_TELEM.SKIPPED : Fld := ⟨.HM_TELEM, 32, 32, .ro, 0⟩
def HM_TELEM.SAMPLES : Fld := ⟨.HM_TELEM, 0, 32, .ro, 0⟩

def HM_TELDONE.TIDE : Fld := ⟨.HM_TELDONE, 0, 64, .wo, 0⟩

def HM_EVT.TIMEREJ : Fld := ⟨.HM_EVT, 4, 1, .w1c, 0⟩
def HM_EVT.REVERT : Fld := ⟨.HM_EVT, 3, 1, .w1c, 0⟩
def HM_EVT.FWSWITCH : Fld := ⟨.HM_EVT, 2, 1, .w1c, 0⟩
def HM_EVT.FWREJ : Fld := ⟨.HM_EVT, 1, 1, .w1c, 0⟩
def HM_EVT.SHED : Fld := ⟨.HM_EVT, 0, 1, .w1c, 0⟩

/-! Fields of the RST block. -/

def RST_CTL.OOSCLR : Fld := ⟨.RST_CTL, 8, 1, .wo, 0⟩
def RST_CTL.DIE : Fld := ⟨.RST_CTL, 4, 2, .rw, 0⟩
def RST_CTL.PKG : Fld := ⟨.RST_CTL, 3, 1, .wo, 0⟩
def RST_CTL.HOST : Fld := ⟨.RST_CTL, 2, 1, .wo, 0⟩
def RST_CTL.DIERST : Fld := ⟨.RST_CTL, 1, 1, .wo, 0⟩
def RST_CTL.CP : Fld := ⟨.RST_CTL, 0, 1, .wo, 0⟩

def RST_STAT.CAUSE : Fld := ⟨.RST_STAT, 32, 8, .ro, 0⟩
def RST_STAT.DOMAIN : Fld := ⟨.RST_STAT, 24, 3, .ro, 0⟩
def RST_STAT.INWIN : Fld := ⟨.RST_STAT, 8, 4, .ro, 0⟩
def RST_STAT.HELD : Fld := ⟨.RST_STAT, 1, 1, .ro, 0⟩
def RST_STAT.OOS : Fld := ⟨.RST_STAT, 0, 1, .ro, 0⟩

def RST_CFG.NORESET : Fld := ⟨.RST_CFG, 1, 1, .rwl, 0⟩
def RST_CFG.DUMP : Fld := ⟨.RST_CFG, 0, 1, .rwl, 1⟩

def RST_ESC.WINDOW : Fld := ⟨.RST_ESC, 32, 32, .ro, 0⟩
def RST_ESC.WATCHDOG : Fld := ⟨.RST_ESC, 8, 8, .ro, 0⟩
def RST_ESC.COUNT : Fld := ⟨.RST_ESC, 0, 4, .ro, 0⟩

def RST_HOSTWD.LIMIT : Fld := ⟨.RST_HOSTWD, 8, 8, .rw, 0⟩
def RST_HOSTWD.BEAT : Fld := ⟨.RST_HOSTWD, 0, 1, .wo, 0⟩

def RST_DUMP.SEQ : Fld := ⟨.RST_DUMP, 48, 16, .ro, 0⟩
def RST_DUMP.UNREAD : Fld := ⟨.RST_DUMP, 32, 16, .ro, 0⟩
def RST_DUMP.STATE : Fld := ⟨.RST_DUMP, 0, 2, .ro, 0⟩

def RST_TRIP.UNIT : Fld := ⟨.RST_TRIP, 0, 64, .w1c, 0⟩

def RST_HIST.CAUSE : Fld := ⟨.RST_HIST, 56, 8, .ro, 0⟩
def RST_HIST.TIME : Fld := ⟨.RST_HIST, 0, 48, .ro, 0⟩

def RST_NOPROG.TIDES : Fld := ⟨.RST_NOPROG, 0, 8, .ro, 0⟩

/-! Fields of the SEC block. -/

def SEC_STAT.HOSTSLOT : Fld := ⟨.SEC_STAT, 12, 1, .ro, 0⟩
def SEC_STAT.HMSLOT : Fld := ⟨.SEC_STAT, 11, 1, .ro, 0⟩
def SEC_STAT.ENDORSED : Fld := ⟨.SEC_STAT, 10, 1, .ro, 0⟩
def SEC_STAT.OWNER : Fld := ⟨.SEC_STAT, 9, 1, .ro, 0⟩
def SEC_STAT.IDENT : Fld := ⟨.SEC_STAT, 8, 1, .ro, 0⟩
def SEC_STAT.NEXTV : Fld := ⟨.SEC_STAT, 6, 1, .ro, 0⟩
def SEC_STAT.NEXT : Fld := ⟨.SEC_STAT, 4, 2, .ro, 0⟩
def SEC_STAT.LIFE : Fld := ⟨.SEC_STAT, 0, 2, .ro, 0⟩

def SEC_ID.BYTES : Fld := ⟨.SEC_ID, 0, 64, .ro, 0⟩

def SEC_OWNER.BYTES : Fld := ⟨.SEC_OWNER, 0, 64, .ro, 0⟩

def SEC_CMD.ADDR : Fld := ⟨.SEC_CMD, 6, 42, .rw, 0⟩
def SEC_CMD.KIND : Fld := ⟨.SEC_CMD, 1, 3, .rw, 0⟩
def SEC_CMD.GO : Fld := ⟨.SEC_CMD, 0, 1, .wo, 0⟩

def SEC_CMDSTAT.REASON : Fld := ⟨.SEC_CMDSTAT, 8, 8, .ro, 0⟩
def SEC_CMDSTAT.STATE : Fld := ⟨.SEC_CMDSTAT, 0, 2, .ro, 0⟩

def SEC_ATTEST.ADDR : Fld := ⟨.SEC_ATTEST, 6, 42, .rw, 0⟩
def SEC_ATTEST.DONE : Fld := ⟨.SEC_ATTEST, 1, 1, .ro, 0⟩
def SEC_ATTEST.GO : Fld := ⟨.SEC_ATTEST, 0, 1, .wo, 0⟩

def SEC_FLOOR.FLOOR : Fld := ⟨.SEC_FLOOR, 0, 64, .ro, 0⟩

def SEC_EVT.LIFE : Fld := ⟨.SEC_EVT, 4, 1, .w1c, 0⟩
def SEC_EVT.HOSTFAIL : Fld := ⟨.SEC_EVT, 3, 1, .w1c, 0⟩
def SEC_EVT.HMFAIL : Fld := ⟨.SEC_EVT, 2, 1, .w1c, 0⟩
def SEC_EVT.IDFAIL : Fld := ⟨.SEC_EVT, 1, 1, .w1c, 0⟩
def SEC_EVT.CMDREJ : Fld := ⟨.SEC_EVT, 0, 1, .w1c, 0⟩

/-! Fields of the DBG block. -/

def DBG_OPEN.ADDR : Fld := ⟨.DBG_OPEN, 6, 42, .rw, 0⟩
def DBG_OPEN.LEVEL : Fld := ⟨.DBG_OPEN, 2, 2, .rw, 0⟩
def DBG_OPEN.GO : Fld := ⟨.DBG_OPEN, 0, 1, .wo, 0⟩

def DBG_SESS.REMAIN : Fld := ⟨.DBG_SESS, 32, 32, .ro, 0⟩
def DBG_SESS.REASON : Fld := ⟨.DBG_SESS, 16, 8, .ro, 0⟩
def DBG_SESS.MAX : Fld := ⟨.DBG_SESS, 2, 2, .ro, 0⟩
def DBG_SESS.LEVEL : Fld := ⟨.DBG_SESS, 0, 2, .ro, 0⟩

def DBG_CLOSE.INBAND : Fld := ⟨.DBG_CLOSE, 0, 1, .wo, 0⟩

def DBG_HALT.HALTED : Fld := ⟨.DBG_HALT, 18, 1, .ro, 0⟩
def DBG_HALT.RESUME : Fld := ⟨.DBG_HALT, 17, 1, .wo, 0⟩
def DBG_HALT.HALT : Fld := ⟨.DBG_HALT, 16, 1, .wo, 0⟩
def DBG_HALT.CORE : Fld := ⟨.DBG_HALT, 0, 10, .rw, 0⟩

def DBG_TRACE.SIZE : Fld := ⟨.DBG_TRACE, 48, 16, .rw, 0⟩
def DBG_TRACE.ADDR : Fld := ⟨.DBG_TRACE, 5, 43, .rw, 0⟩
def DBG_TRACE.EN : Fld := ⟨.DBG_TRACE, 0, 1, .rw, 0⟩

def DBG_EVT.ENDED : Fld := ⟨.DBG_EVT, 2, 1, .w1c, 0⟩
def DBG_EVT.REFUSED : Fld := ⟨.DBG_EVT, 1, 1, .w1c, 0⟩
def DBG_EVT.OPENED : Fld := ⟨.DBG_EVT, 0, 1, .w1c, 0⟩

/-! Fields of the CLK block. -/

def CLK_LOCK.LOCK : Fld := ⟨.CLK_LOCK, 0, 25, .ro, 0⟩

def CLK_LOSS.REF : Fld := ⟨.CLK_LOSS, 32, 1, .w1c, 0⟩
def CLK_LOSS.LOSS : Fld := ⟨.CLK_LOSS, 0, 25, .w1c, 0⟩

def CLK_MEAS.COUNT : Fld := ⟨.CLK_MEAS, 32, 32, .ro, 0⟩
def CLK_MEAS.DONE : Fld := ⟨.CLK_MEAS, 9, 1, .ro, 0⟩
def CLK_MEAS.START : Fld := ⟨.CLK_MEAS, 8, 1, .wo, 0⟩
def CLK_MEAS.SEL : Fld := ⟨.CLK_MEAS, 0, 5, .rw, 1⟩

/-- The fields of each register that its table does not mark reserved. -/
def RegName.fields : RegName → List Fld
  | .IDREV => [IDREV.VENDOR, IDREV.PART, IDREV.CSTEP, IDREV.HSTEP, IDREV.IOGEN, IDREV.NOCREV, IDREV.VRATIO, IDREV.TILES, IDREV.PKGREV]
  | .ID_DIEMAP => [ID_DIEMAP.IO, ID_DIEMAP.HOST, ID_DIEMAP.CD3, ID_DIEMAP.CD2, ID_DIEMAP.CD1, ID_DIEMAP.CD0]
  | .TIDE_PERIOD => [TIDE_PERIOD.NEXT, TIDE_PERIOD.PERIOD]
  | .TIDE_COUNT => [TIDE_COUNT.COUNT]
  | .TIDE_SRC => [TIDE_SRC.PTPOFF, TIDE_SRC.ROLE, TIDE_SRC.MODE]
  | .TIDE_COMP => [TIDE_COMP.DELAY]
  | .TIDE_SLIPS => [TIDE_SLIPS.TOKDEF, TIDE_SLIPS.SLIPS]
  | .TIDE_EVT => [TIDE_EVT.SUSPECT, TIDE_EVT.PLANREJ, TIDE_EVT.PERIODMIS, TIDE_EVT.PTPRANGE, TIDE_EVT.SKEW, TIDE_EVT.HOLDOVER, TIDE_EVT.SWITCH, TIDE_EVT.MISSSPARE, TIDE_EVT.MISSIN]
  | .TIDE_EPOCH => [TIDE_EPOCH.EPOCH]
  | .TIDE_PLAN => [TIDE_PLAN.SHIFTS, TIDE_PLAN.ADDR, TIDE_PLAN.CATCHUP, TIDE_PLAN.VALID]
  | .TIDE_SUSPECT => [TIDE_SUSPECT.UNIT]
  | .TIDE_UNIT => [TIDE_UNIT.SLIPS, TIDE_UNIT.CONSEC]
  | .CHART_STAT => [CHART_STAT.FREASON, CHART_STAT.REASON, CHART_STAT.AMEND, CHART_STAT.FLASH, CHART_STAT.SLOT, CHART_STAT.SEALED, CHART_STAT.STATE]
  | .CHART_SERIAL => [CHART_SERIAL.SERIAL]
  | .CHART_BASESERIAL => [CHART_BASESERIAL.SERIAL]
  | .CHART_MINSERIAL => [CHART_MINSERIAL.FLOOR]
  | .CHART_AMEND => [CHART_AMEND.ADDR, CHART_AMEND.CANCEL, CHART_AMEND.GO]
  | .CHART_EFFECT => [CHART_EFFECT.TIDE]
  | .CHART_DRAIN => [CHART_DRAIN.PART]
  | .CHART_FLASH => [CHART_FLASH.ADDR, CHART_FLASH.GO]
  | .CHART_EVT => [CHART_EVT.FLASHFAIL, CHART_EVT.ROLEVIOL, CHART_EVT.LOCKWRITE, CHART_EVT.DEFERRED, CHART_EVT.APPLIED, CHART_EVT.AMENDREJ, CHART_EVT.BOOTFAILB, CHART_EVT.BOOTFAILA]
  | .CHART_DEFER => [CHART_DEFER.PART]
  | .CHART_BOOTREASON => [CHART_BOOTREASON.SLOTB, CHART_BOOTREASON.SLOTA]
  | .CHART_DIGEST => [CHART_DIGEST.BYTES]
  | .EN_CAP => [EN_CAP.EXC, EN_CAP.SUST]
  | .EN_BOARD => [EN_BOARD.AVSV, EN_BOARD.I3CV, EN_BOARD.AVSLIM, EN_BOARD.I3CEXC, EN_BOARD.I3CSUST]
  | .EN_THERM => [EN_THERM.TRIP, EN_THERM.HOT]
  | .EN_CTL => [EN_CTL.SB, EN_CTL.DARK]
  | .EN_CREDIT => [EN_CREDIT.CREDIT, EN_CREDIT.RUN]
  | .EN_EVT => [EN_EVT.SBREF, EN_EVT.DDREF, EN_EVT.MISSDEF, EN_EVT.LIMIT, EN_EVT.CRIT, EN_EVT.TRIP, EN_EVT.THROT, EN_EVT.CAPLOW]
  | .EN_COUNT => [EN_COUNT.LIMIT, EN_COUNT.SLOTS]
  | .EN_SHARE => [EN_SHARE.WATTS]
  | .EN_STATE => [EN_STATE.SLOTS, EN_STATE.CEIL, EN_STATE.PSTATE]
  | .EN_LEDGER => [EN_LEDGER.ALLOT, EN_LEDGER.USED]
  | .EN_TOTAL => [EN_TOTAL.MJ]
  | .AGE_CFG => [AGE_CFG.OFFMAX, AGE_CFG.OFFMIN, AGE_CFG.THIGH, AGE_CFG.TLOW, AGE_CFG.INTERVAL]
  | .AGE_EVT => [AGE_EVT.EXHAUST, AGE_EVT.DEMOTE, AGE_EVT.FORCED, AGE_EVT.REPLAN]
  | .AGE_DIE => [AGE_DIE.REPLANS, AGE_DIE.WORST, AGE_DIE.CEIL, AGE_DIE.OFFSET]
  | .AGE_FCAST => [AGE_FCAST.REMAIN, AGE_FCAST.RATE, AGE_FCAST.HEADROOM]
  | .AGE_GAUGE => [AGE_GAUGE.TIDE, AGE_GAUGE.TEMP, AGE_GAUGE.SLACK]
  | .BELL_RING => [BELL_RING.TAIL]
  | .BELL_STAT => [BELL_STAT.CQFULL, BELL_STAT.WAITSEQ, BELL_STAT.EN, BELL_STAT.TAIL, BELL_STAT.HEAD]
  | .BELL_VIS => [BELL_VIS.SEQ]
  | .BELL_CQHEAD => [BELL_CQHEAD.HEAD]
  | .BELL_CNT => [BELL_CNT.BADTAIL, BELL_CNT.RUNPAST, BELL_CNT.REREAD]
  | .BELL_ERR => [BELL_ERR.SEQ, BELL_ERR.CODE]
  | .BELL_CFG => [BELL_CFG.PRIO, BELL_CFG.CQSIZE, BELL_CFG.SIZE, BELL_CFG.EN]
  | .BELL_RINGADDR => [BELL_RINGADDR.ADDR]
  | .BELL_CQADDR => [BELL_CQADDR.ADDR]
  | .BELL_IRQADDR => [BELL_IRQADDR.ADDR]
  | .BELL_IRQDATA => [BELL_IRQDATA.DATA]
  | .BELL_IOMMU => [BELL_IOMMU.RBLOCK, BELL_IOMMU.WBLOCK]
  | .BELL_MSIWIN => [BELL_MSIWIN.ADDR, BELL_MSIWIN.EN]
  | .BELL_QERR => [BELL_QERR.QUEUE]
  | .CUS_CFG => [CUS_CFG.BATCH, CUS_CFG.WINDOW, CUS_CFG.SIGCTR, CUS_CFG.RGB, CUS_CFG.EN]
  | .CUS_SUBQ => [CUS_SUBQ.SIZE, CUS_SUBQ.ADDR]
  | .CUS_SUBPTR => [CUS_SUBPTR.HEAD, CUS_SUBPTR.TAIL]
  | .CUS_BATCHBUF => [CUS_BATCHBUF.SLOTBYTES, CUS_BATCHBUF.ADDR]
  | .CUS_HOSTSTAGE => [CUS_HOSTSTAGE.ADDR]
  | .CUS_HOSTDONE => [CUS_HOSTDONE.INDEX]
  | .CUS_SHUFFLE => [CUS_SHUFFLE.KEY]
  | .CUS_MANIFEST => [CUS_MANIFEST.ADDR]
  | .CUS_CTL => [CUS_CTL.RESTORE]
  | .CUS_STAT => [CUS_STAT.CUR, CUS_STAT.EMITTED, CUS_STAT.OCCUPIED]
  | .CUS_DROP => [CUS_DROP.LATEHOST, CUS_DROP.REJECT, CUS_DROP.CORRUPT, CUS_DROP.DEADLINE]
  | .CUS_EVT => [CUS_EVT.BADITEM, CUS_EVT.CFGERR, CUS_EVT.DROP]
  | .TILE_STAT => [TILE_STAT.PART, TILE_STAT.ROLE, TILE_STAT.DMABUSY, TILE_STAT.VXBUSY, TILE_STAT.MXBUSY]
  | .TILE_SYNC => [TILE_SYNC.VALUE]
  | .MX_STAT => [MX_STAT.ITEM, MX_STAT.HALT, MX_STAT.WAITSYNC, MX_STAT.WAITBANK, MX_STAT.BANKB, MX_STAT.BANKA]
  | .MX_FLAGS => [MX_FLAGS.SNV, MX_FLAGS.SNX, MX_FLAGS.SUF, MX_FLAGS.SOF, MX_FLAGS.NV, MX_FLAGS.NX, MX_FLAGS.UF, MX_FLAGS.OF]
  | .MX_FAULT => [MX_FAULT.ITEM, MX_FAULT.OPCODE, MX_FAULT.CODE]
  | .MX_CTL => [MX_CTL.RESUME]
  | .MX_MACS => [MX_MACS.COUNT]
  | .MX_ITEMS => [MX_ITEMS.COUNT]
  | .MX_WAITCYC => [MX_WAITCYC.BANK, MX_WAITCYC.SYNC]
  | .VX_STAT => [VX_STAT.ITEM, VX_STAT.HALT, VX_STAT.WAITSYNC, VX_STAT.WAITBANK, VX_STAT.WATCH]
  | .VX_FLAGS => [VX_FLAGS.SNV, VX_FLAGS.SNX, VX_FLAGS.SUF, VX_FLAGS.SOF, VX_FLAGS.NV, VX_FLAGS.NX, VX_FLAGS.UF, VX_FLAGS.OF]
  | .VX_FAULT => [VX_FAULT.ITEM, VX_FAULT.OPCODE, VX_FAULT.CODE]
  | .VX_CTL => [VX_CTL.RESUME]
  | .VX_ITEMS => [VX_ITEMS.COUNT]
  | .VX_BUSYCYC => [VX_BUSYCYC.COUNT]
  | .VX_WAITCYC => [VX_WAITCYC.BANK, VX_WAITCYC.SYNC]
  | .VX_DMA_STAT => [VX_DMA_STAT.ITEM, VX_DMA_STAT.HALT, VX_DMA_STAT.WAITSYNC, VX_DMA_STAT.WAITTIER, VX_DMA_STAT.DEFER]
  | .VX_DMA_FAULT => [VX_DMA_FAULT.ITEM, VX_DMA_FAULT.OPCODE, VX_DMA_FAULT.CODE]
  | .VX_DMA_CTL => [VX_DMA_CTL.RESUME]
  | .VX_DMA_BYTES => [VX_DMA_BYTES.COUNT]
  | .VX_DMA_WAITCYC => [VX_DMA_WAITCYC.TIER, VX_DMA_WAITCYC.SYNC]
  | .VX_DMA_FADDR => [VX_DMA_FADDR.ADDR]
  | .NUM_KEYLO => [NUM_KEYLO.KEY]
  | .NUM_KEYHI => [NUM_KEYHI.KEY]
  | .NUM_STEP => [NUM_STEP.STEP, NUM_STEP.PER, NUM_STEP.CLOSESET]
  | .NUM_LAYTAB => [NUM_LAYTAB.TAGS, NUM_LAYTAB.ADDR]
  | .NUM_SCALETAB => [NUM_SCALETAB.SLOTS, NUM_SCALETAB.ADDR]
  | .NUM_LSCALE => [NUM_LSCALE.CLEAN, NUM_LSCALE.GROW, NUM_LSCALE.BACKOFF, NUM_LSCALE.MAX, NUM_LSCALE.MIN, NUM_LSCALE.EXP]
  | .NUM_LSFLAG => [NUM_LSFLAG.ADDR, NUM_LSFLAG.EN]
  | .NUM_DROP => [NUM_DROP.ROWS, NUM_DROP.ADDR]
  | .NUM_WATCH_RATE => [NUM_WATCH_RATE.SUSTAIN, NUM_WATCH_RATE.THRBIN, NUM_WATCH_RATE.EN, NUM_WATCH_RATE.LOG2]
  | .NUM_ZG_LIMIT => [NUM_ZG_LIMIT.LIMIT]
  | .NUM_EVT => [NUM_EVT.WATCHSKIP, NUM_EVT.ZEROGRAD, NUM_EVT.WATCH, NUM_EVT.LSBOUND, NUM_EVT.LSUP, NUM_EVT.LSDOWN, NUM_EVT.LATEFLAG, NUM_EVT.REPFAULT, NUM_EVT.ROWDROP, NUM_EVT.REPEAT]
  | .NUM_COUNT => [NUM_COUNT.ROWS, NUM_COUNT.REPEATS]
  | .NUM_WATCH_CNT => [NUM_WATCH_CNT.ABANDONED, NUM_WATCH_CNT.SAMPLES]
  | .UPD_STAT => [UPD_STAT.ITEM, UPD_STAT.HALT, UPD_STAT.PASS, UPD_STAT.WAITSYNC, UPD_STAT.WAITPEND, UPD_STAT.BUSY]
  | .UPD_GROUPTAB => [UPD_GROUPTAB.ADDR]
  | .UPD_FLAGS => [UPD_FLAGS.NV, UPD_FLAGS.NX, UPD_FLAGS.UF, UPD_FLAGS.OF]
  | .UPD_FAULT => [UPD_FAULT.ITEM, UPD_FAULT.OPCODE, UPD_FAULT.CODE]
  | .UPD_CTL => [UPD_CTL.DISCARD, UPD_CTL.RESUME]
  | .UPD_COUNT => [UPD_COUNT.FROZEN, UPD_COUNT.NONFIN]
  | .UPD_ELEMS => [UPD_ELEMS.COUNT]
  | .UPD_EVT => [UPD_EVT.DISCARDED, UPD_EVT.NONFIN, UPD_EVT.FROZEN]
  | .UPD_WAITCYC => [UPD_WAITCYC.PEND, UPD_WAITCYC.SYNC]
  | .UPD_FADDR => [UPD_FADDR.ADDR]
  | .UPD_LIVE => [UPD_LIVE.LIVE]
  | .UPD_PEND => [UPD_PEND.PEND]
  | .UPD_PSET => [UPD_PSET.VALID, UPD_PSET.SET]
  | .SCH_CTL => [SCH_CTL.RECALC, SCH_CTL.SHAPE]
  | .SCH_ORIGIN => [SCH_ORIGIN.ORIGIN]
  | .SCH_WARM => [SCH_WARM.W]
  | .SCH_DECAY => [SCH_DECAY.PERIOD, SCH_DECAY.DECAY]
  | .SCH_MULT => [SCH_MULT.MULT]
  | .SCH_ETAMAX => [SCH_ETAMAX.ETAMAX]
  | .SCH_ETAMIN => [SCH_ETAMIN.ETAMIN]
  | .SCH_ETA => [SCH_ETA.ETA]
  | .SCH_POS => [SCH_POS.CYCLE, SCH_POS.POS]
  | .SHD_CTL => [SHD_CTL.PART, SHD_CTL.REALIGN, SHD_CTL.SECURE, SHD_CTL.EN]
  | .SHD_STAT => [SHD_STAT.SERVING, SHD_STAT.PHASE, SHD_STAT.ROLE]
  | .SHD_RECDST => [SHD_RECDST.HOLDB, SHD_RECDST.HOLDA, SHD_RECDST.HOFFB, SHD_RECDST.HOFFA]
  | .SHD_SECURE => [SHD_SECURE.INTERVAL, SHD_SECURE.MINSTEPS, SHD_SECURE.ROLLMAX]
  | .SHD_LOG => [SHD_LOG.LOGSTEPS]
  | .SHD_COST => [SHD_COST.C, SHD_COST.STEPT]
  | .SHD_MTBF => [SHD_MTBF.M, SHD_MTBF.DARKS, SHD_MTBF.WINDOW]
  | .SHD_ROLL => [SHD_ROLL.NS]
  | .SHD_LASTSEC => [SHD_LASTSEC.STEP]
  | .SHD_TAKE => [SHD_TAKE.MS, SHD_TAKE.STEPS]
  | .SHD_EVT => [SHD_EVT.CFGERR, SHD_EVT.UNRECOV, SHD_EVT.NOSPARE, SHD_EVT.GAVEUP, SHD_EVT.REALIGNED, SHD_EVT.TAKEOVER, SHD_EVT.SECURED]
  | .SHD_COUNT => [SHD_COUNT.REALIGN, SHD_COUNT.TAKEOVERS, SHD_COUNT.HOLDWAIT]
  | .SHD_RIDESRC => [SHD_RIDESRC.PAGES, SHD_RIDESRC.ADDR, SHD_RIDESRC.CLASS, SHD_RIDESRC.EN]
  | .SHD_RIDEDST => [SHD_RIDEDST.HOLDB, SHD_RIDEDST.HOLDA, SHD_RIDEDST.HOFFB, SHD_RIDEDST.HOFFA]
  | .TIER_CTL => [TIER_CTL.INVALBUSY, TIER_CTL.INVAL]
  | .TIER_OBJTAB => [TIER_OBJTAB.COUNT, TIER_OBJTAB.ADDR]
  | .TIER_PTBASE => [TIER_PTBASE.ADDR, TIER_PTBASE.EN]
  | .TIER_MIGQ => [TIER_MIGQ.SIZE, TIER_MIGQ.ADDR]
  | .TIER_FQ => [TIER_FQ.SIZE, TIER_FQ.ADDR]
  | .TIER_MIGPTR => [TIER_MIGPTR.HEAD, TIER_MIGPTR.TAIL]
  | .TIER_FQPTR => [TIER_FQPTR.TAIL, TIER_FQPTR.HEAD]
  | .TIER_OBJCTL => [TIER_OBJCTL.OBJ, TIER_OBJCTL.REFUSED, TIER_OBJCTL.DONE, TIER_OBJCTL.OP]
  | .TIER_STALL => [TIER_STALL.EPISODES, TIER_STALL.CYCLES]
  | .TIER_ECCW => [TIER_ECCW.UE, TIER_ECCW.CE]
  | .TIER_ECCQ => [TIER_ECCQ.UE, TIER_ECCQ.CE]
  | .TIER_EVT => [TIER_EVT.ESCALATE, TIER_EVT.FQFULL, TIER_EVT.EVICT, TIER_EVT.LOST, TIER_EVT.OVERQUOTA, TIER_EVT.POISON]
  | .TIER_FQDROP => [TIER_FQDROP.COUNT]
  | .TIER_POOL => [TIER_POOL.FREE, TIER_POOL.USED]
  | .TIER_SCRUB => [TIER_SCRUB.HOURS]
  | .TIER_ACCT => [TIER_ACCT.WOVER, TIER_ACCT.QOVER, TIER_ACCT.QUAY, TIER_ACCT.WARE]
  | .COH_STAT => [COH_STAT.DEPARTING, COH_STAT.MODE]
  | .COH_STAT2 => [COH_STAT2.STATE]
  | .COH_CTL => [COH_CTL.MODE]
  | .COH_EVT => [COH_EVT.POISONWB, COH_EVT.DEPARTED, COH_EVT.COLLAPSE]
  | .COH_COLLAPSE => [COH_COLLAPSE.CAUSE, COH_COLLAPSE.AGENT, COH_COLLAPSE.ADDR]
  | .COH_ATOMIC => [COH_ATOMIC.NEAR, COH_ATOMIC.FAR]
  | .COH_DIREVICT => [COH_DIREVICT.COUNT]
  | .COH_HOLDSNP => [COH_HOLDSNP.COUNT]
  | .COH_MEMBT => [COH_MEMBT.TILES]
  | .COH_MEMBH => [COH_MEMBH.HOST]
  | .COH_MEMBD => [COH_MEMBD.CDMA]
  | .D2D_EDGE => [D2D_EDGE.REV, D2D_EDGE.FAILS, D2D_EDGE.MAPBA, D2D_EDGE.MAPAB, D2D_EDGE.WIDTH, D2D_EDGE.STATE]
  | .D2D_REPAIR => [D2D_REPAIR.SPARESBA, D2D_REPAIR.SPARESAB]
  | .D2D_ERR => [D2D_ERR.TAGWAIT, D2D_ERR.RESENT, D2D_ERR.CRCFAIL]
  | .D2D_CTL => [D2D_CTL.RETRAIN]
  | .D2D_EVT => [D2D_EVT.FORCEDQ, D2D_EVT.DOWN, D2D_EVT.NARROWED]
  | .D2D_BUDMISS => [D2D_BUDMISS.COUNT]
  | .HURAL_STAT => [HURAL_STAT.PEER, HURAL_STAT.PARTNER, HURAL_STAT.STATE]
  | .HURAL_CFG => [HURAL_CFG.PMD, HURAL_CFG.MODE, HURAL_CFG.EN]
  | .HURAL_CTL => [HURAL_CTL.REKEY, HURAL_CTL.CLOSE, HURAL_CTL.OPEN]
  | .HURAL_MAC => [HURAL_MAC.ADDR]
  | .HURAL_PEERMAC => [HURAL_PEERMAC.ADDR]
  | .HURAL_ETH => [HURAL_ETH.MAXFLITS, HURAL_ETH.ETYPE, HURAL_ETH.PCP, HURAL_ETH.VLANEN, HURAL_ETH.VID]
  | .HURAL_LINK => [HURAL_LINK.FECUE, HURAL_LINK.FECCE]
  | .HURAL_ERR => [HURAL_ERR.PAUSEDROP, HURAL_ERR.GAP, HURAL_ERR.RETRY, HURAL_ERR.CRC]
  | .HURAL_HOSTILE => [HURAL_HOSTILE.OVERRATE, HURAL_HOSTILE.REPLAY, HURAL_HOSTILE.MALFORMED, HURAL_HOSTILE.AUTH]
  | .HURAL_STARVE => [HURAL_STARVE.EPISODES, HURAL_STARVE.NS]
  | .HURAL_EVT => [HURAL_EVT.REKEYED, HURAL_EVT.HOSTILE, HURAL_EVT.FAULTY, HURAL_EVT.SLOW, HURAL_EVT.ABSENT, HURAL_EVT.OPENED]
  | .HURAL_PEERID => [HURAL_PEERID.BYTES]
  | .HURAL_THRESH => [HURAL_THRESH.HOSTILE, HURAL_THRESH.FAULTY, HURAL_THRESH.STUCK, HURAL_THRESH.STARVE]
  | .HURAL_ROUTE => [HURAL_ROUTE.ALT, HURAL_ROUTE.PRI]
  | .HURAL_ALIAS => [HURAL_ALIAS.SERVER]
  | .HURAL_EXPSRC => [HURAL_EXPSRC.SRC, HURAL_EXPSRC.READER, HURAL_EXPSRC.ALL, HURAL_EXPSRC.EN]
  | .HURAL_EXPWIN => [HURAL_EXPWIN.PAGES, HURAL_EXPWIN.OFF]
  | .LOG_STAT => [LOG_STAT.STAGED, LOG_STAT.FULL, LOG_STAT.COUNT]
  | .LOG_LOST => [LOG_LOST.COUNT]
  | .LOG_FLOODS => [LOG_FLOODS.COUNT]
  | .LOG_TALLYIDX => [LOG_TALLYIDX.CODE]
  | .LOG_TALLY => [LOG_TALLY.COUNT]
  | .LOG_RDIDX => [LOG_RDIDX.INDEX]
  | .LOG_RDDATA => [LOG_RDDATA.WORD]
  | .HM_LOAD => [HM_LOAD.SEC, HM_LOAD.SVC1, HM_LOAD.SVC0, HM_LOAD.TIDE]
  | .HM_FW => [HM_FW.ADDR, HM_FW.FLASH, HM_FW.GO]
  | .HM_FWSTAT => [HM_FWSTAT.VERSION, HM_FWSTAT.REASON, HM_FWSTAT.STATE]
  | .HM_TIME => [HM_TIME.TAI]
  | .HM_TIMESTAT => [HM_TIMESTAT.SRC, HM_TIMESTAT.UNCERT]
  | .HM_SETUNC => [HM_SETUNC.UNCERT]
  | .HM_SETTAI => [HM_SETTAI.TAI]
  | .HM_TELSET => [HM_TELSET.COUNT, HM_TELSET.ADDR]
  | .HM_TELRING => [HM_TELRING.SLOTS, HM_TELRING.ADDR]
  | .HM_TELEM => [HM_TELEM.SKIPPED, HM_TELEM.SAMPLES]
  | .HM_TELDONE => [HM_TELDONE.TIDE]
  | .HM_EVT => [HM_EVT.TIMEREJ, HM_EVT.REVERT, HM_EVT.FWSWITCH, HM_EVT.FWREJ, HM_EVT.SHED]
  | .RST_CTL => [RST_CTL.OOSCLR, RST_CTL.DIE, RST_CTL.PKG, RST_CTL.HOST, RST_CTL.DIERST, RST_CTL.CP]
  | .RST_STAT => [RST_STAT.CAUSE, RST_STAT.DOMAIN, RST_STAT.INWIN, RST_STAT.HELD, RST_STAT.OOS]
  | .RST_CFG => [RST_CFG.NORESET, RST_CFG.DUMP]
  | .RST_ESC => [RST_ESC.WINDOW, RST_ESC.WATCHDOG, RST_ESC.COUNT]
  | .RST_HOSTWD => [RST_HOSTWD.LIMIT, RST_HOSTWD.BEAT]
  | .RST_DUMP => [RST_DUMP.SEQ, RST_DUMP.UNREAD, RST_DUMP.STATE]
  | .RST_TRIP => [RST_TRIP.UNIT]
  | .RST_HIST => [RST_HIST.CAUSE, RST_HIST.TIME]
  | .RST_NOPROG => [RST_NOPROG.TIDES]
  | .SEC_STAT => [SEC_STAT.HOSTSLOT, SEC_STAT.HMSLOT, SEC_STAT.ENDORSED, SEC_STAT.OWNER, SEC_STAT.IDENT, SEC_STAT.NEXTV, SEC_STAT.NEXT, SEC_STAT.LIFE]
  | .SEC_ID => [SEC_ID.BYTES]
  | .SEC_OWNER => [SEC_OWNER.BYTES]
  | .SEC_CMD => [SEC_CMD.ADDR, SEC_CMD.KIND, SEC_CMD.GO]
  | .SEC_CMDSTAT => [SEC_CMDSTAT.REASON, SEC_CMDSTAT.STATE]
  | .SEC_ATTEST => [SEC_ATTEST.ADDR, SEC_ATTEST.DONE, SEC_ATTEST.GO]
  | .SEC_FLOOR => [SEC_FLOOR.FLOOR]
  | .SEC_EVT => [SEC_EVT.LIFE, SEC_EVT.HOSTFAIL, SEC_EVT.HMFAIL, SEC_EVT.IDFAIL, SEC_EVT.CMDREJ]
  | .DBG_OPEN => [DBG_OPEN.ADDR, DBG_OPEN.LEVEL, DBG_OPEN.GO]
  | .DBG_SESS => [DBG_SESS.REMAIN, DBG_SESS.REASON, DBG_SESS.MAX, DBG_SESS.LEVEL]
  | .DBG_CLOSE => [DBG_CLOSE.INBAND]
  | .DBG_HALT => [DBG_HALT.HALTED, DBG_HALT.RESUME, DBG_HALT.HALT, DBG_HALT.CORE]
  | .DBG_TRACE => [DBG_TRACE.SIZE, DBG_TRACE.ADDR, DBG_TRACE.EN]
  | .DBG_EVT => [DBG_EVT.ENDED, DBG_EVT.REFUSED, DBG_EVT.OPENED]
  | .CLK_LOCK => [CLK_LOCK.LOCK]
  | .CLK_LOSS => [CLK_LOSS.REF, CLK_LOSS.LOSS]
  | .CLK_MEAS => [CLK_MEAS.COUNT, CLK_MEAS.DONE, CLK_MEAS.START, CLK_MEAS.SEL]

/-- Block, address and index ranges of each register (Table 1-11 and the register tables). -/
def RegName.loc : RegName → RegLoc
  | .IDREV => ⟨.ID, 0xF00000000000, 1, 0x0, 1, 0x0⟩
  | .ID_DIEMAP => ⟨.ID, 0xF00000000008, 1, 0x0, 1, 0x0⟩
  | .TIDE_PERIOD => ⟨.TIDE, 0xF00000010000, 1, 0x0, 1, 0x0⟩
  | .TIDE_COUNT => ⟨.TIDE, 0xF00000010008, 1, 0x0, 1, 0x0⟩
  | .TIDE_SRC => ⟨.TIDE, 0xF00000010010, 1, 0x0, 1, 0x0⟩
  | .TIDE_COMP => ⟨.TIDE, 0xF00000010018, 1, 0x0, 1, 0x0⟩
  | .TIDE_SLIPS => ⟨.TIDE, 0xF00000010020, 1, 0x0, 1, 0x0⟩
  | .TIDE_EVT => ⟨.TIDE, 0xF00000010028, 1, 0x0, 1, 0x0⟩
  | .TIDE_EPOCH => ⟨.TIDE, 0xF00000010030, 1, 0x0, 1, 0x0⟩
  | .TIDE_PLAN => ⟨.TIDE, 0xF00000010200, 64, 0x8, 1, 0x0⟩
  | .TIDE_SUSPECT => ⟨.TIDE, 0xF00000010400, 9, 0x8, 1, 0x0⟩
  | .TIDE_UNIT => ⟨.TIDE, 0xF00000011000, 516, 0x8, 1, 0x0⟩
  | .CHART_STAT => ⟨.CHART, 0xF00000020000, 1, 0x0, 1, 0x0⟩
  | .CHART_SERIAL => ⟨.CHART, 0xF00000020008, 1, 0x0, 1, 0x0⟩
  | .CHART_BASESERIAL => ⟨.CHART, 0xF00000020010, 1, 0x0, 1, 0x0⟩
  | .CHART_MINSERIAL => ⟨.CHART, 0xF00000020018, 1, 0x0, 1, 0x0⟩
  | .CHART_AMEND => ⟨.CHART, 0xF00000020020, 1, 0x0, 1, 0x0⟩
  | .CHART_EFFECT => ⟨.CHART, 0xF00000020028, 1, 0x0, 1, 0x0⟩
  | .CHART_DRAIN => ⟨.CHART, 0xF00000020030, 1, 0x0, 1, 0x0⟩
  | .CHART_FLASH => ⟨.CHART, 0xF00000020038, 1, 0x0, 1, 0x0⟩
  | .CHART_EVT => ⟨.CHART, 0xF00000020040, 1, 0x0, 1, 0x0⟩
  | .CHART_DEFER => ⟨.CHART, 0xF00000020048, 1, 0x0, 1, 0x0⟩
  | .CHART_BOOTREASON => ⟨.CHART, 0xF00000020050, 1, 0x0, 1, 0x0⟩
  | .CHART_DIGEST => ⟨.CHART, 0xF00000020100, 4, 0x8, 1, 0x0⟩
  | .EN_CAP => ⟨.EN, 0xF00000030000, 1, 0x0, 1, 0x0⟩
  | .EN_BOARD => ⟨.EN, 0xF00000030008, 1, 0x0, 1, 0x0⟩
  | .EN_THERM => ⟨.EN, 0xF00000030010, 1, 0x0, 1, 0x0⟩
  | .EN_CTL => ⟨.EN, 0xF00000030018, 1, 0x0, 1, 0x0⟩
  | .EN_CREDIT => ⟨.EN, 0xF00000030020, 1, 0x0, 1, 0x0⟩
  | .EN_EVT => ⟨.EN, 0xF00000030028, 1, 0x0, 1, 0x0⟩
  | .EN_COUNT => ⟨.EN, 0xF00000030030, 1, 0x0, 1, 0x0⟩
  | .EN_SHARE => ⟨.EN, 0xF00000030040, 6, 0x8, 1, 0x0⟩
  | .EN_STATE => ⟨.EN, 0xF00000030080, 6, 0x8, 1, 0x0⟩
  | .EN_LEDGER => ⟨.EN, 0xF000000300C0, 6, 0x8, 1, 0x0⟩
  | .EN_TOTAL => ⟨.EN, 0xF00000030100, 6, 0x8, 1, 0x0⟩
  | .AGE_CFG => ⟨.AGE, 0xF00000040000, 1, 0x0, 1, 0x0⟩
  | .AGE_EVT => ⟨.AGE, 0xF00000040008, 1, 0x0, 1, 0x0⟩
  | .AGE_DIE => ⟨.AGE, 0xF00000040040, 6, 0x8, 1, 0x0⟩
  | .AGE_FCAST => ⟨.AGE, 0xF00000040080, 6, 0x8, 1, 0x0⟩
  | .AGE_GAUGE => ⟨.AGE, 0xF00000041000, 288, 0x8, 1, 0x0⟩
  | .BELL_RING => ⟨.BELL, 0xF00000100000, 256, 0x1000, 1, 0x0⟩
  | .BELL_STAT => ⟨.BELL, 0xF00000100008, 256, 0x1000, 1, 0x0⟩
  | .BELL_VIS => ⟨.BELL, 0xF00000100010, 256, 0x1000, 1, 0x0⟩
  | .BELL_CQHEAD => ⟨.BELL, 0xF00000100018, 256, 0x1000, 1, 0x0⟩
  | .BELL_CNT => ⟨.BELL, 0xF00000100020, 256, 0x1000, 1, 0x0⟩
  | .BELL_ERR => ⟨.BELL, 0xF00000100028, 256, 0x1000, 1, 0x0⟩
  | .BELL_CFG => ⟨.BELL, 0xF00000100800, 256, 0x1000, 1, 0x0⟩
  | .BELL_RINGADDR => ⟨.BELL, 0xF00000100808, 256, 0x1000, 1, 0x0⟩
  | .BELL_CQADDR => ⟨.BELL, 0xF00000100810, 256, 0x1000, 1, 0x0⟩
  | .BELL_IRQADDR => ⟨.BELL, 0xF00000100818, 256, 0x1000, 1, 0x0⟩
  | .BELL_IRQDATA => ⟨.BELL, 0xF00000100820, 256, 0x1000, 1, 0x0⟩
  | .BELL_IOMMU => ⟨.BELL, 0xF00000100F00, 1, 0x0, 4, 0x8⟩
  | .BELL_MSIWIN => ⟨.BELL, 0xF00000100F20, 1, 0x0, 1, 0x0⟩
  | .BELL_QERR => ⟨.BELL, 0xF00000100F28, 1, 0x0, 4, 0x8⟩
  | .CUS_CFG => ⟨.CUS, 0xF00000200000, 1, 0x0, 1, 0x0⟩
  | .CUS_SUBQ => ⟨.CUS, 0xF00000200008, 1, 0x0, 1, 0x0⟩
  | .CUS_SUBPTR => ⟨.CUS, 0xF00000200010, 1, 0x0, 1, 0x0⟩
  | .CUS_BATCHBUF => ⟨.CUS, 0xF00000200018, 1, 0x0, 1, 0x0⟩
  | .CUS_HOSTSTAGE => ⟨.CUS, 0xF00000200020, 1, 0x0, 1, 0x0⟩
  | .CUS_HOSTDONE => ⟨.CUS, 0xF00000200028, 1, 0x0, 1, 0x0⟩
  | .CUS_SHUFFLE => ⟨.CUS, 0xF00000200030, 1, 0x0, 1, 0x0⟩
  | .CUS_MANIFEST => ⟨.CUS, 0xF00000200038, 1, 0x0, 1, 0x0⟩
  | .CUS_CTL => ⟨.CUS, 0xF00000200040, 1, 0x0, 1, 0x0⟩
  | .CUS_STAT => ⟨.CUS, 0xF00000200048, 1, 0x0, 1, 0x0⟩
  | .CUS_DROP => ⟨.CUS, 0xF00000200050, 1, 0x0, 1, 0x0⟩
  | .CUS_EVT => ⟨.CUS, 0xF00000200058, 1, 0x0, 1, 0x0⟩
  | .TILE_STAT => ⟨.TILE, 0xF00001000000, 512, 0x8000, 1, 0x0⟩
  | .TILE_SYNC => ⟨.TILE, 0xF00001000100, 512, 0x8000, 16, 0x8⟩
  | .MX_STAT => ⟨.TILE, 0xF00001001000, 512, 0x8000, 1, 0x0⟩
  | .MX_FLAGS => ⟨.TILE, 0xF00001001008, 512, 0x8000, 1, 0x0⟩
  | .MX_FAULT => ⟨.TILE, 0xF00001001010, 512, 0x8000, 1, 0x0⟩
  | .MX_CTL => ⟨.TILE, 0xF00001001018, 512, 0x8000, 1, 0x0⟩
  | .MX_MACS => ⟨.TILE, 0xF00001001020, 512, 0x8000, 1, 0x0⟩
  | .MX_ITEMS => ⟨.TILE, 0xF00001001028, 512, 0x8000, 1, 0x0⟩
  | .MX_WAITCYC => ⟨.TILE, 0xF00001001030, 512, 0x8000, 1, 0x0⟩
  | .VX_STAT => ⟨.TILE, 0xF00001002000, 512, 0x8000, 1, 0x0⟩
  | .VX_FLAGS => ⟨.TILE, 0xF00001002008, 512, 0x8000, 1, 0x0⟩
  | .VX_FAULT => ⟨.TILE, 0xF00001002010, 512, 0x8000, 1, 0x0⟩
  | .VX_CTL => ⟨.TILE, 0xF00001002018, 512, 0x8000, 1, 0x0⟩
  | .VX_ITEMS => ⟨.TILE, 0xF00001002020, 512, 0x8000, 1, 0x0⟩
  | .VX_BUSYCYC => ⟨.TILE, 0xF00001002028, 512, 0x8000, 1, 0x0⟩
  | .VX_WAITCYC => ⟨.TILE, 0xF00001002030, 512, 0x8000, 1, 0x0⟩
  | .VX_DMA_STAT => ⟨.TILE, 0xF00001002800, 512, 0x8000, 1, 0x0⟩
  | .VX_DMA_FAULT => ⟨.TILE, 0xF00001002808, 512, 0x8000, 1, 0x0⟩
  | .VX_DMA_CTL => ⟨.TILE, 0xF00001002810, 512, 0x8000, 1, 0x0⟩
  | .VX_DMA_BYTES => ⟨.TILE, 0xF00001002818, 512, 0x8000, 1, 0x0⟩
  | .VX_DMA_WAITCYC => ⟨.TILE, 0xF00001002820, 512, 0x8000, 1, 0x0⟩
  | .VX_DMA_FADDR => ⟨.TILE, 0xF00001002828, 512, 0x8000, 1, 0x0⟩
  | .NUM_KEYLO => ⟨.NUM, 0xF00002000000, 64, 0x10, 1, 0x0⟩
  | .NUM_KEYHI => ⟨.NUM, 0xF00002000008, 64, 0x10, 1, 0x0⟩
  | .NUM_STEP => ⟨.NUM, 0xF00002000400, 64, 0x8, 1, 0x0⟩
  | .NUM_LAYTAB => ⟨.NUM, 0xF00002000600, 64, 0x8, 1, 0x0⟩
  | .NUM_SCALETAB => ⟨.NUM, 0xF00002000800, 64, 0x8, 1, 0x0⟩
  | .NUM_LSCALE => ⟨.NUM, 0xF00002000A00, 64, 0x8, 1, 0x0⟩
  | .NUM_LSFLAG => ⟨.NUM, 0xF00002000C00, 64, 0x8, 1, 0x0⟩
  | .NUM_DROP => ⟨.NUM, 0xF00002000E00, 64, 0x8, 1, 0x0⟩
  | .NUM_WATCH_RATE => ⟨.NUM, 0xF00002001000, 1, 0x0, 1, 0x0⟩
  | .NUM_ZG_LIMIT => ⟨.NUM, 0xF00002001008, 1, 0x0, 1, 0x0⟩
  | .NUM_EVT => ⟨.NUM, 0xF00002001010, 1, 0x0, 1, 0x0⟩
  | .NUM_COUNT => ⟨.NUM, 0xF00002001018, 1, 0x0, 1, 0x0⟩
  | .NUM_WATCH_CNT => ⟨.NUM, 0xF00002001020, 1, 0x0, 1, 0x0⟩
  | .UPD_STAT => ⟨.UPD, 0xF00002100000, 1, 0x0, 1, 0x0⟩
  | .UPD_GROUPTAB => ⟨.UPD, 0xF00002100008, 1, 0x0, 1, 0x0⟩
  | .UPD_FLAGS => ⟨.UPD, 0xF00002100010, 1, 0x0, 1, 0x0⟩
  | .UPD_FAULT => ⟨.UPD, 0xF00002100018, 1, 0x0, 1, 0x0⟩
  | .UPD_CTL => ⟨.UPD, 0xF00002100020, 1, 0x0, 1, 0x0⟩
  | .UPD_COUNT => ⟨.UPD, 0xF00002100028, 1, 0x0, 1, 0x0⟩
  | .UPD_ELEMS => ⟨.UPD, 0xF00002100030, 1, 0x0, 1, 0x0⟩
  | .UPD_EVT => ⟨.UPD, 0xF00002100038, 1, 0x0, 1, 0x0⟩
  | .UPD_WAITCYC => ⟨.UPD, 0xF00002100040, 1, 0x0, 1, 0x0⟩
  | .UPD_FADDR => ⟨.UPD, 0xF00002100048, 1, 0x0, 1, 0x0⟩
  | .UPD_LIVE => ⟨.UPD, 0xF00002100100, 4, 0x8, 1, 0x0⟩
  | .UPD_PEND => ⟨.UPD, 0xF00002100120, 4, 0x8, 1, 0x0⟩
  | .UPD_PSET => ⟨.UPD, 0xF00002100140, 1, 0x0, 1, 0x0⟩
  | .SCH_CTL => ⟨.SCH, 0xF00002200000, 1, 0x0, 1, 0x0⟩
  | .SCH_ORIGIN => ⟨.SCH, 0xF00002200008, 1, 0x0, 1, 0x0⟩
  | .SCH_WARM => ⟨.SCH, 0xF00002200010, 1, 0x0, 1, 0x0⟩
  | .SCH_DECAY => ⟨.SCH, 0xF00002200018, 1, 0x0, 1, 0x0⟩
  | .SCH_MULT => ⟨.SCH, 0xF00002200020, 1, 0x0, 1, 0x0⟩
  | .SCH_ETAMAX => ⟨.SCH, 0xF00002200028, 1, 0x0, 1, 0x0⟩
  | .SCH_ETAMIN => ⟨.SCH, 0xF00002200030, 1, 0x0, 1, 0x0⟩
  | .SCH_ETA => ⟨.SCH, 0xF00002200038, 1, 0x0, 1, 0x0⟩
  | .SCH_POS => ⟨.SCH, 0xF00002200040, 1, 0x0, 1, 0x0⟩
  | .SHD_CTL => ⟨.SHD, 0xF00002300000, 1, 0x0, 1, 0x0⟩
  | .SHD_STAT => ⟨.SHD, 0xF00002300008, 1, 0x0, 1, 0x0⟩
  | .SHD_RECDST => ⟨.SHD, 0xF00002300010, 1, 0x0, 1, 0x0⟩
  | .SHD_SECURE => ⟨.SHD, 0xF00002300018, 1, 0x0, 1, 0x0⟩
  | .SHD_LOG => ⟨.SHD, 0xF00002300020, 1, 0x0, 1, 0x0⟩
  | .SHD_COST => ⟨.SHD, 0xF00002300028, 1, 0x0, 1, 0x0⟩
  | .SHD_MTBF => ⟨.SHD, 0xF00002300030, 1, 0x0, 1, 0x0⟩
  | .SHD_ROLL => ⟨.SHD, 0xF00002300038, 1, 0x0, 1, 0x0⟩
  | .SHD_LASTSEC => ⟨.SHD, 0xF00002300040, 1, 0x0, 1, 0x0⟩
  | .SHD_TAKE => ⟨.SHD, 0xF00002300048, 1, 0x0, 1, 0x0⟩
  | .SHD_EVT => ⟨.SHD, 0xF00002300050, 1, 0x0, 1, 0x0⟩
  | .SHD_COUNT => ⟨.SHD, 0xF00002300058, 1, 0x0, 1, 0x0⟩
  | .SHD_RIDESRC => ⟨.SHD, 0xF00002300100, 64, 0x10, 1, 0x0⟩
  | .SHD_RIDEDST => ⟨.SHD, 0xF00002300108, 64, 0x10, 1, 0x0⟩
  | .TIER_CTL => ⟨.TIER, 0xF00003000000, 1, 0x0, 1, 0x0⟩
  | .TIER_OBJTAB => ⟨.TIER, 0xF00003000008, 1, 0x0, 1, 0x0⟩
  | .TIER_PTBASE => ⟨.TIER, 0xF00003000010, 1, 0x0, 1, 0x0⟩
  | .TIER_MIGQ => ⟨.TIER, 0xF00003000018, 1, 0x0, 1, 0x0⟩
  | .TIER_FQ => ⟨.TIER, 0xF00003000028, 1, 0x0, 1, 0x0⟩
  | .TIER_MIGPTR => ⟨.TIER, 0xF00003000020, 1, 0x0, 1, 0x0⟩
  | .TIER_FQPTR => ⟨.TIER, 0xF00003000030, 1, 0x0, 1, 0x0⟩
  | .TIER_OBJCTL => ⟨.TIER, 0xF00003000038, 1, 0x0, 1, 0x0⟩
  | .TIER_STALL => ⟨.TIER, 0xF00003000100, 6, 0x8, 1, 0x0⟩
  | .TIER_ECCW => ⟨.TIER, 0xF00003000140, 1, 0x0, 1, 0x0⟩
  | .TIER_ECCQ => ⟨.TIER, 0xF00003000148, 1, 0x0, 1, 0x0⟩
  | .TIER_EVT => ⟨.TIER, 0xF00003000150, 1, 0x0, 1, 0x0⟩
  | .TIER_FQDROP => ⟨.TIER, 0xF00003000158, 1, 0x0, 1, 0x0⟩
  | .TIER_POOL => ⟨.TIER, 0xF00003000160, 1, 0x0, 1, 0x0⟩
  | .TIER_SCRUB => ⟨.TIER, 0xF00003000168, 1, 0x0, 1, 0x0⟩
  | .TIER_ACCT => ⟨.TIER, 0xF00003000400, 64, 0x8, 1, 0x0⟩
  | .COH_STAT => ⟨.COH, 0xF00003100000, 1, 0x0, 1, 0x0⟩
  | .COH_STAT2 => ⟨.COH, 0xF00003100008, 1, 0x0, 1, 0x0⟩
  | .COH_CTL => ⟨.COH, 0xF00003100010, 1, 0x0, 1, 0x0⟩
  | .COH_EVT => ⟨.COH, 0xF00003100018, 1, 0x0, 1, 0x0⟩
  | .COH_COLLAPSE => ⟨.COH, 0xF00003100020, 1, 0x0, 1, 0x0⟩
  | .COH_ATOMIC => ⟨.COH, 0xF00003100028, 1, 0x0, 1, 0x0⟩
  | .COH_DIREVICT => ⟨.COH, 0xF00003100030, 1, 0x0, 1, 0x0⟩
  | .COH_HOLDSNP => ⟨.COH, 0xF00003100038, 1, 0x0, 1, 0x0⟩
  | .COH_MEMBT => ⟨.COH, 0xF00003100100, 8, 0x8, 1, 0x0⟩
  | .COH_MEMBH => ⟨.COH, 0xF00003100140, 2, 0x8, 1, 0x0⟩
  | .COH_MEMBD => ⟨.COH, 0xF00003100150, 1, 0x0, 1, 0x0⟩
  | .D2D_EDGE => ⟨.D2D, 0xF00003200000, 8, 0x40, 1, 0x0⟩
  | .D2D_REPAIR => ⟨.D2D, 0xF00003200008, 8, 0x40, 1, 0x0⟩
  | .D2D_ERR => ⟨.D2D, 0xF00003200010, 8, 0x40, 1, 0x0⟩
  | .D2D_CTL => ⟨.D2D, 0xF00003200018, 8, 0x40, 1, 0x0⟩
  | .D2D_EVT => ⟨.D2D, 0xF00003200200, 1, 0x0, 1, 0x0⟩
  | .D2D_BUDMISS => ⟨.D2D, 0xF00003200208, 1, 0x0, 1, 0x0⟩
  | .HURAL_STAT => ⟨.HURAL, 0xF00004000000, 18, 0x10000, 1, 0x0⟩
  | .HURAL_CFG => ⟨.HURAL, 0xF00004000008, 18, 0x10000, 1, 0x0⟩
  | .HURAL_CTL => ⟨.HURAL, 0xF00004000010, 18, 0x10000, 1, 0x0⟩
  | .HURAL_MAC => ⟨.HURAL, 0xF00004000018, 18, 0x10000, 1, 0x0⟩
  | .HURAL_PEERMAC => ⟨.HURAL, 0xF00004000020, 18, 0x10000, 1, 0x0⟩
  | .HURAL_ETH => ⟨.HURAL, 0xF00004000028, 18, 0x10000, 1, 0x0⟩
  | .HURAL_LINK => ⟨.HURAL, 0xF00004000030, 18, 0x10000, 1, 0x0⟩
  | .HURAL_ERR => ⟨.HURAL, 0xF00004000038, 18, 0x10000, 1, 0x0⟩
  | .HURAL_HOSTILE => ⟨.HURAL, 0xF00004000040, 18, 0x10000, 1, 0x0⟩
  | .HURAL_STARVE => ⟨.HURAL, 0xF00004000048, 18, 0x10000, 1, 0x0⟩
  | .HURAL_EVT => ⟨.HURAL, 0xF00004000050, 18, 0x10000, 1, 0x0⟩
  | .HURAL_PEERID => ⟨.HURAL, 0xF00004000060, 18, 0x10000, 4, 0x8⟩
  | .HURAL_THRESH => ⟨.HURAL, 0xF00004008000, 1, 0x0, 1, 0x0⟩
  | .HURAL_ROUTE => ⟨.HURAL, 0xF00004008100, 1, 0x0, 256, 0x8⟩
  | .HURAL_ALIAS => ⟨.HURAL, 0xF00004008900, 1, 0x0, 256, 0x8⟩
  | .HURAL_EXPSRC => ⟨.HURAL, 0xF00004009100, 1, 0x0, 16, 0x10⟩
  | .HURAL_EXPWIN => ⟨.HURAL, 0xF00004009108, 1, 0x0, 16, 0x10⟩
  | .LOG_STAT => ⟨.LOG, 0xF00005000000, 1, 0x0, 1, 0x0⟩
  | .LOG_LOST => ⟨.LOG, 0xF00005000008, 1, 0x0, 1, 0x0⟩
  | .LOG_FLOODS => ⟨.LOG, 0xF00005000010, 1, 0x0, 1, 0x0⟩
  | .LOG_TALLYIDX => ⟨.LOG, 0xF00005000020, 1, 0x0, 1, 0x0⟩
  | .LOG_TALLY => ⟨.LOG, 0xF00005000028, 1, 0x0, 1, 0x0⟩
  | .LOG_RDIDX => ⟨.LOG, 0xF00005000100, 4, 0x80, 1, 0x0⟩
  | .LOG_RDDATA => ⟨.LOG, 0xF00005000140, 4, 0x80, 8, 0x8⟩
  | .HM_LOAD => ⟨.HM, 0xF00005100000, 1, 0x0, 1, 0x0⟩
  | .HM_FW => ⟨.HM, 0xF00005100008, 1, 0x0, 1, 0x0⟩
  | .HM_FWSTAT => ⟨.HM, 0xF00005100010, 1, 0x0, 1, 0x0⟩
  | .HM_TIME => ⟨.HM, 0xF00005100018, 1, 0x0, 1, 0x0⟩
  | .HM_TIMESTAT => ⟨.HM, 0xF00005100020, 1, 0x0, 1, 0x0⟩
  | .HM_SETUNC => ⟨.HM, 0xF00005100028, 1, 0x0, 1, 0x0⟩
  | .HM_SETTAI => ⟨.HM, 0xF00005100030, 1, 0x0, 1, 0x0⟩
  | .HM_TELSET => ⟨.HM, 0xF00005100038, 1, 0x0, 1, 0x0⟩
  | .HM_TELRING => ⟨.HM, 0xF00005100040, 1, 0x0, 1, 0x0⟩
  | .HM_TELEM => ⟨.HM, 0xF00005100048, 1, 0x0, 1, 0x0⟩
  | .HM_TELDONE => ⟨.HM, 0xF00005100050, 1, 0x0, 1, 0x0⟩
  | .HM_EVT => ⟨.HM, 0xF00005100058, 1, 0x0, 1, 0x0⟩
  | .RST_CTL => ⟨.RST, 0xF00005200000, 1, 0x0, 1, 0x0⟩
  | .RST_STAT => ⟨.RST, 0xF00005200008, 1, 0x0, 1, 0x0⟩
  | .RST_CFG => ⟨.RST, 0xF00005200010, 1, 0x0, 1, 0x0⟩
  | .RST_ESC => ⟨.RST, 0xF00005200018, 1, 0x0, 1, 0x0⟩
  | .RST_HOSTWD => ⟨.RST, 0xF00005200020, 1, 0x0, 1, 0x0⟩
  | .RST_DUMP => ⟨.RST, 0xF00005200028, 1, 0x0, 1, 0x0⟩
  | .RST_TRIP => ⟨.RST, 0xF00005200100, 9, 0x8, 1, 0x0⟩
  | .RST_HIST => ⟨.RST, 0xF00005200200, 15, 0x8, 1, 0x0⟩
  | .RST_NOPROG => ⟨.RST, 0xF00005201000, 516, 0x8, 1, 0x0⟩
  | .SEC_STAT => ⟨.SEC, 0xF00006000000, 1, 0x0, 1, 0x0⟩
  | .SEC_ID => ⟨.SEC, 0xF00006000010, 4, 0x8, 1, 0x0⟩
  | .SEC_OWNER => ⟨.SEC, 0xF00006000030, 4, 0x8, 1, 0x0⟩
  | .SEC_CMD => ⟨.SEC, 0xF00006000050, 1, 0x0, 1, 0x0⟩
  | .SEC_CMDSTAT => ⟨.SEC, 0xF00006000058, 1, 0x0, 1, 0x0⟩
  | .SEC_ATTEST => ⟨.SEC, 0xF00006000060, 1, 0x0, 1, 0x0⟩
  | .SEC_FLOOR => ⟨.SEC, 0xF00006000068, 2, 0x8, 1, 0x0⟩
  | .SEC_EVT => ⟨.SEC, 0xF00006000078, 1, 0x0, 1, 0x0⟩
  | .DBG_OPEN => ⟨.DBG, 0xF00006100000, 1, 0x0, 1, 0x0⟩
  | .DBG_SESS => ⟨.DBG, 0xF00006100010, 2, 0x8, 1, 0x0⟩
  | .DBG_CLOSE => ⟨.DBG, 0xF00006100020, 1, 0x0, 1, 0x0⟩
  | .DBG_HALT => ⟨.DBG, 0xF00006100028, 1, 0x0, 1, 0x0⟩
  | .DBG_TRACE => ⟨.DBG, 0xF00006100030, 1, 0x0, 1, 0x0⟩
  | .DBG_EVT => ⟨.DBG, 0xF00006100038, 1, 0x0, 1, 0x0⟩
  | .CLK_LOCK => ⟨.CLK, 0xF00006200000, 1, 0x0, 1, 0x0⟩
  | .CLK_LOSS => ⟨.CLK, 0xF00006200008, 1, 0x0, 1, 0x0⟩
  | .CLK_MEAS => ⟨.CLK, 0xF00006200010, 1, 0x0, 1, 0x0⟩

/-- Every register name. -/
def RegName.all : List RegName :=
  [RegName.IDREV, RegName.ID_DIEMAP, RegName.TIDE_PERIOD, RegName.TIDE_COUNT, RegName.TIDE_SRC, RegName.TIDE_COMP, RegName.TIDE_SLIPS, RegName.TIDE_EVT, RegName.TIDE_EPOCH, RegName.TIDE_PLAN, RegName.TIDE_SUSPECT, RegName.TIDE_UNIT] ++
  [RegName.CHART_STAT, RegName.CHART_SERIAL, RegName.CHART_BASESERIAL, RegName.CHART_MINSERIAL, RegName.CHART_AMEND, RegName.CHART_EFFECT, RegName.CHART_DRAIN, RegName.CHART_FLASH, RegName.CHART_EVT, RegName.CHART_DEFER, RegName.CHART_BOOTREASON, RegName.CHART_DIGEST] ++
  [RegName.EN_CAP, RegName.EN_BOARD, RegName.EN_THERM, RegName.EN_CTL, RegName.EN_CREDIT, RegName.EN_EVT, RegName.EN_COUNT, RegName.EN_SHARE, RegName.EN_STATE, RegName.EN_LEDGER, RegName.EN_TOTAL, RegName.AGE_CFG] ++
  [RegName.AGE_EVT, RegName.AGE_DIE, RegName.AGE_FCAST, RegName.AGE_GAUGE, RegName.BELL_RING, RegName.BELL_STAT, RegName.BELL_VIS, RegName.BELL_CQHEAD, RegName.BELL_CNT, RegName.BELL_ERR, RegName.BELL_CFG, RegName.BELL_RINGADDR] ++
  [RegName.BELL_CQADDR, RegName.BELL_IRQADDR, RegName.BELL_IRQDATA, RegName.BELL_IOMMU, RegName.BELL_MSIWIN, RegName.BELL_QERR, RegName.CUS_CFG, RegName.CUS_SUBQ, RegName.CUS_SUBPTR, RegName.CUS_BATCHBUF, RegName.CUS_HOSTSTAGE, RegName.CUS_HOSTDONE] ++
  [RegName.CUS_SHUFFLE, RegName.CUS_MANIFEST, RegName.CUS_CTL, RegName.CUS_STAT, RegName.CUS_DROP, RegName.CUS_EVT, RegName.TILE_STAT, RegName.TILE_SYNC, RegName.MX_STAT, RegName.MX_FLAGS, RegName.MX_FAULT, RegName.MX_CTL] ++
  [RegName.MX_MACS, RegName.MX_ITEMS, RegName.MX_WAITCYC, RegName.VX_STAT, RegName.VX_FLAGS, RegName.VX_FAULT, RegName.VX_CTL, RegName.VX_ITEMS, RegName.VX_BUSYCYC, RegName.VX_WAITCYC, RegName.VX_DMA_STAT, RegName.VX_DMA_FAULT] ++
  [RegName.VX_DMA_CTL, RegName.VX_DMA_BYTES, RegName.VX_DMA_WAITCYC, RegName.VX_DMA_FADDR, RegName.NUM_KEYLO, RegName.NUM_KEYHI, RegName.NUM_STEP, RegName.NUM_LAYTAB, RegName.NUM_SCALETAB, RegName.NUM_LSCALE, RegName.NUM_LSFLAG, RegName.NUM_DROP] ++
  [RegName.NUM_WATCH_RATE, RegName.NUM_ZG_LIMIT, RegName.NUM_EVT, RegName.NUM_COUNT, RegName.NUM_WATCH_CNT, RegName.UPD_STAT, RegName.UPD_GROUPTAB, RegName.UPD_FLAGS, RegName.UPD_FAULT, RegName.UPD_CTL, RegName.UPD_COUNT, RegName.UPD_ELEMS] ++
  [RegName.UPD_EVT, RegName.UPD_WAITCYC, RegName.UPD_FADDR, RegName.UPD_LIVE, RegName.UPD_PEND, RegName.UPD_PSET, RegName.SCH_CTL, RegName.SCH_ORIGIN, RegName.SCH_WARM, RegName.SCH_DECAY, RegName.SCH_MULT, RegName.SCH_ETAMAX] ++
  [RegName.SCH_ETAMIN, RegName.SCH_ETA, RegName.SCH_POS, RegName.SHD_CTL, RegName.SHD_STAT, RegName.SHD_RECDST, RegName.SHD_SECURE, RegName.SHD_LOG, RegName.SHD_COST, RegName.SHD_MTBF, RegName.SHD_ROLL, RegName.SHD_LASTSEC] ++
  [RegName.SHD_TAKE, RegName.SHD_EVT, RegName.SHD_COUNT, RegName.SHD_RIDESRC, RegName.SHD_RIDEDST, RegName.TIER_CTL, RegName.TIER_OBJTAB, RegName.TIER_PTBASE, RegName.TIER_MIGQ, RegName.TIER_FQ, RegName.TIER_MIGPTR, RegName.TIER_FQPTR] ++
  [RegName.TIER_OBJCTL, RegName.TIER_STALL, RegName.TIER_ECCW, RegName.TIER_ECCQ, RegName.TIER_EVT, RegName.TIER_FQDROP, RegName.TIER_POOL, RegName.TIER_SCRUB, RegName.TIER_ACCT, RegName.COH_STAT, RegName.COH_STAT2, RegName.COH_CTL] ++
  [RegName.COH_EVT, RegName.COH_COLLAPSE, RegName.COH_ATOMIC, RegName.COH_DIREVICT, RegName.COH_HOLDSNP, RegName.COH_MEMBT, RegName.COH_MEMBH, RegName.COH_MEMBD, RegName.D2D_EDGE, RegName.D2D_REPAIR, RegName.D2D_ERR, RegName.D2D_CTL] ++
  [RegName.D2D_EVT, RegName.D2D_BUDMISS, RegName.HURAL_STAT, RegName.HURAL_CFG, RegName.HURAL_CTL, RegName.HURAL_MAC, RegName.HURAL_PEERMAC, RegName.HURAL_ETH, RegName.HURAL_LINK, RegName.HURAL_ERR, RegName.HURAL_HOSTILE, RegName.HURAL_STARVE] ++
  [RegName.HURAL_EVT, RegName.HURAL_PEERID, RegName.HURAL_THRESH, RegName.HURAL_ROUTE, RegName.HURAL_ALIAS, RegName.HURAL_EXPSRC, RegName.HURAL_EXPWIN, RegName.LOG_STAT, RegName.LOG_LOST, RegName.LOG_FLOODS, RegName.LOG_TALLYIDX, RegName.LOG_TALLY] ++
  [RegName.LOG_RDIDX, RegName.LOG_RDDATA, RegName.HM_LOAD, RegName.HM_FW, RegName.HM_FWSTAT, RegName.HM_TIME, RegName.HM_TIMESTAT, RegName.HM_SETUNC, RegName.HM_SETTAI, RegName.HM_TELSET, RegName.HM_TELRING, RegName.HM_TELEM] ++
  [RegName.HM_TELDONE, RegName.HM_EVT, RegName.RST_CTL, RegName.RST_STAT, RegName.RST_CFG, RegName.RST_ESC, RegName.RST_HOSTWD, RegName.RST_DUMP, RegName.RST_TRIP, RegName.RST_HIST, RegName.RST_NOPROG, RegName.SEC_STAT] ++
  [RegName.SEC_ID, RegName.SEC_OWNER, RegName.SEC_CMD, RegName.SEC_CMDSTAT, RegName.SEC_ATTEST, RegName.SEC_FLOOR, RegName.SEC_EVT, RegName.DBG_OPEN, RegName.DBG_SESS, RegName.DBG_CLOSE, RegName.DBG_HALT, RegName.DBG_TRACE] ++
  [RegName.DBG_EVT, RegName.CLK_LOCK, RegName.CLK_LOSS, RegName.CLK_MEAS]

/-- The key of register `r` with indices `i`, `j` in `State.regs`; an index counts modulo 2^16, above every index of the tables. -/
def regKey (r : RegName) (i j : Nat) : Nat := (r.ctorIdx * 65536 + i % 65536) * 65536 + j % 65536

/-- A field's bits in place. -/
def Fld.mask (f : Fld) : Nat := (2 ^ f.width - 1) * 2 ^ f.lo

/-- The bits of a register that are not reserved. TIDE_SUSPECT 8, RST_TRIP 8 and COH_MEMBH 1 reserve their upper bits (Tables 2-6, 18-6, 11-10). -/
def regMask (r : RegName) (i _j : Nat) : W64 :=
  let m : Nat := r.fields.foldl (fun a f => a ||| f.mask) 0
  match r, i % 65536 with
  | .TIDE_SUSPECT, 8 => 0xF
  | .RST_TRIP, 8 => 0xF
  | .COH_MEMBH, 1 => 0xFFFF_FFFF
  | _, _ => BitVec.ofNat 64 m

/-- The value after a reset of the smallest domain that contains the register (R7). -/
def regReset (r : RegName) (i j : Nat) : W64 :=
  match r with
  | .EN_SHARE => if i % 65536 < 4 then 780 else if i % 65536 = 4 then 330 else 150
  | .HURAL_ALIAS => BitVec.ofNat 64 (j % 65536 % 256)
  | _ => BitVec.ofNat 64 (r.fields.foldl (fun a f => a ||| f.reset * 2 ^ f.lo) 0)

end Sys2Proof.Machine
end

