-- ==== Sys2Proof/Machine/State.lean ====
section
/-! DEFINITION. The state of the package as plain data, and the machine right after reset. -/

namespace Sys2Proof.Machine

/-- Why the machine stops. No command of this block stops it: an access fault, a poison response or an item fault is a response or a record of the state (R17, R108). -/
inductive Fault where
  /-- Raised by nothing. Safe: it stands for no behaviour of the hardware. -/
  | unreachable
deriving DecidableEq, Repr

/-- Why a command has no meaning. -/
inductive Refusal where
  /-- Raised by an arm of Machine/Dispatch.lean whose meaning is not written. Safe: nothing is claimed of the command. -/
  | notModelled (mnemonic : String)
deriving DecidableEq, Repr

/-- Every kind of event the manual says is logged; each is one code of the logbook (R402). -/
inductive LogKind where
  /-- The logbook is full, code 0x1101 (R405). -/
  | logFull
  /-- Records were lost to full staging, code 0x1102 (R407). -/
  | logLost
  /-- An access fault (R17). -/
  | accessFault
  /-- A clock domain or the reference was lost (R15). -/
  | clockLost
  /-- A write to a locked RWL field (R76). -/
  | lockedWrite
  /-- An amendment was rejected (R78, R79, R75, R80). -/
  | amendRejected
  /-- An amendment was withdrawn (R79). -/
  | amendCancelled
  /-- An amendment was rejected with reason 0x0E (R82). -/
  | amendDrained
  /-- An image was applied, full chart or amendment (Table 3-7). -/
  | chartApplied
  /-- A part of an amendment waits for a partition (R34). -/
  | amendDeferred
  /-- A CHART_FLASH was refused while one was busy (R84). -/
  | chartFlashRefused
  /-- A chart slot failed its check at boot (R72). -/
  | bootSlotFailed
  /-- A feeder tile met a matrix descriptor (R59). -/
  | roleViolation
  /-- A matrix item faulted (R108). -/
  | mxFault
  /-- A vector item faulted (R188). -/
  | vxFault
  /-- A DMA item faulted (R188). -/
  | dmaFault
  /-- A stream's BLOCK wrapped within a step (R130). -/
  | streamWrap
  /-- A layer is repeated at the next rung (R146). -/
  | layerRepeat
  /-- A repeat plan failed its check (R147). -/
  | repeatFault
  /-- A pass dropped rows (R149). -/
  | rowDrop
  /-- The loss scale changed or was stopped by a bound (R153). -/
  | lossScale
  /-- Sustained disagreement of a watched layer (R161). -/
  | watchDisagree
  /-- A layer reached LIMIT zero steps (R162). -/
  | zeroGradient
  /-- A die discarded a CC = 1 write bound for an export region (R211). -/
  | specDiscard
  /-- An access held for 8 tide periods faulted (R213). -/
  | holdTimeout
  /-- A member's access stalled for 8 tide periods faulted (R242). -/
  | stallTimeout
  /-- A line of an object was poisoned (R247). -/
  | linePoisoned
  /-- An account is over a lowered quota (R240). -/
  | overQuota
  /-- A release of an object was refused (R249). -/
  | rebuildRefused
  /-- An update item faulted (R208). -/
  | updFault
  /-- An UPD was aimed at a frozen group (R194). -/
  | updFrozen
  /-- An UPD skipped non-finite gradients (R200). -/
  | updNonfinite
  /-- A pending set was discarded (R205). -/
  | updDiscard
  /-- A DISCARD was ignored (R205). -/
  | updDiscardIgnored
  /-- A write of UPD_LIVE was ignored (Table 8-8). -/
  | updLiveIgnored
  /-- A RECALC was ignored (R206). -/
  | schRecalcIgnored
  /-- An item other than RUN reached customs or the decoder bank (R308). -/
  | badItem
  /-- A sample was dropped (R314). -/
  | sampleDrop
  /-- A RESTORE was ignored (R317). -/
  | restoreIgnored
  /-- The coherent domain collapsed (R271). -/
  | collapsed
  /-- A write of COH_CTL.MODE was ignored (R261). -/
  | cohModeIgnored
  /-- A device request was refused by the IOMMU (R302). -/
  | iommuRefused
  /-- A write to a dark berth was counted lost (R304, R356). -/
  | farLost
  /-- An edge dropped a lane (R278). -/
  | edgeNarrowed
  /-- An edge went down or fenced (R283). -/
  | edgeDown
  /-- An edge runs at 1/4 after three failed agreements (R280). -/
  | edgeForced
  /-- The caps lay below the sum of the floors (R322). -/
  | capLow
  /-- A die reached 115 °C (R325). -/
  | criticalTemp
  /-- A limiter gated a die (R329). -/
  | limiter
  /-- A DD request was refused (R333). -/
  | darkRefused
  /-- A die's voltage offset was re-planned (R337). -/
  | voltageReplan
  /-- A die's ceiling state was lowered (R338). -/
  | demoted
  /-- A port's partner offers no supported option, one record an attempt (R341). -/
  | portTraining
  /-- A partner fell silent (R354). -/
  | partnerAbsent
  /-- A virtual channel starved (R354). -/
  | partnerSlow
  /-- A port was quarantined (R354). -/
  | partnerFaulty
  /-- A port closed as hostile (R354). -/
  | partnerHostile
  /-- The package gave up its berth (R367). -/
  | gaveUp
  /-- No idle spare was left (R369). -/
  | noSpare
  /-- A record was missing from both holders (R378). -/
  | unrecoverable
  /-- Stream counters of a partition were set back (R374). -/
  | streamsRealigned
  /-- Phase 6 fell more than 2 s after the declaration (R376). -/
  | takeoverLate
  /-- A plan was rejected (R28). -/
  | planRejected
  /-- A unit became a hang suspect (R38). -/
  | suspect
  /-- The frame's period differs from the chart's (R45). -/
  | periodMismatch
  /-- The package switched to TIDE_SPARE (R47). -/
  | tideSwitch
  /-- The flotilla skew exceeds 50 ns (R46). -/
  | skewed
  /-- Sixteen marks lay outside ±200 ns of the grid (R49). -/
  | ptpRange
  /-- A token of a set that spans flotillas is late (R51). -/
  | lateToken
  /-- A set that spans grid-aligned flotillas waits for another one's report (R50). -/
  | setWaits
  /-- A harbourmaster image was rejected (R399, R400). -/
  | fwRejected
  /-- A harbourmaster image was reverted (R401). -/
  | fwReverted
  /-- A harbourmaster image switched in (R428). -/
  | fwSwitched
  /-- An image waits for a partition with a slip (R34). -/
  | fwDeferred
  /-- A host time write was ignored (R408). -/
  | timeRejected
  /-- A unit's watchdog tripped (R386). -/
  | watchdogTrip
  /-- The package went out of service (R390). -/
  | outOfService
  /-- A write of OOSCLR was ignored (R391). -/
  | oosclrIgnored
  /-- An image slot failed its check at boot (R414). -/
  | imageFailed
  /-- The identity key was not derived (R417). -/
  | noIdentity
  /-- A token was refused (R424). -/
  | tokenRefused
  /-- A session opened; its token's SERIAL is logged (R424). -/
  | sessionOpened
  /-- A session ended (R426). -/
  | sessionEnded
  /-- V3P3SB was lost while VIN48 was in range (Table 21-8). -/
  | standbyLost
deriving DecidableEq, Repr

/-- The register block that reports an event (R402). -/
def LogKind.block : LogKind → Block
  | .logFull | .logLost => .LOG
  | .accessFault => .ID
  | .clockLost => .CLK
  | .lockedWrite | .amendRejected | .amendCancelled | .amendDrained | .chartApplied | .amendDeferred | .chartFlashRefused | .bootSlotFailed | .roleViolation => .CHART
  | .mxFault | .vxFault | .dmaFault | .streamWrap => .TILE
  | .layerRepeat | .repeatFault | .rowDrop | .lossScale | .watchDisagree | .zeroGradient => .NUM
  | .specDiscard | .holdTimeout | .stallTimeout | .linePoisoned | .overQuota | .rebuildRefused => .TIER
  | .updFault | .updFrozen | .updNonfinite | .updDiscard | .updDiscardIgnored | .updLiveIgnored => .UPD
  | .schRecalcIgnored => .SCH
  | .badItem | .sampleDrop | .restoreIgnored => .CUS
  | .collapsed | .cohModeIgnored => .COH
  | .iommuRefused | .farLost => .BELL
  | .edgeNarrowed | .edgeDown | .edgeForced => .D2D
  | .capLow | .criticalTemp | .limiter | .darkRefused | .standbyLost => .EN
  | .voltageReplan | .demoted => .AGE
  | .portTraining | .partnerAbsent | .partnerSlow | .partnerFaulty | .partnerHostile => .HURAL
  | .gaveUp | .noSpare | .unrecoverable | .streamsRealigned | .takeoverLate => .SHD
  | .planRejected | .suspect | .periodMismatch | .tideSwitch | .skewed | .ptpRange | .lateToken | .setWaits => .TIDE
  | .fwRejected | .fwReverted | .fwSwitched | .fwDeferred | .timeRejected => .HM
  | .watchdogTrip | .outOfService | .oosclrIgnored => .RST
  | .imageFailed | .noIdentity => .SEC
  | .tokenRefused | .sessionOpened | .sessionEnded => .DBG

/-- Every kind. -/
def LogKind.all : List LogKind :=
  [LogKind.logFull, LogKind.logLost, LogKind.accessFault, LogKind.clockLost, LogKind.lockedWrite, LogKind.amendRejected, LogKind.amendCancelled, LogKind.amendDrained, LogKind.chartApplied, LogKind.amendDeferred, LogKind.chartFlashRefused, LogKind.bootSlotFailed, LogKind.roleViolation, LogKind.mxFault, LogKind.vxFault, LogKind.dmaFault] ++
  [LogKind.streamWrap, LogKind.layerRepeat, LogKind.repeatFault, LogKind.rowDrop, LogKind.lossScale, LogKind.watchDisagree, LogKind.zeroGradient, LogKind.specDiscard, LogKind.holdTimeout, LogKind.stallTimeout, LogKind.linePoisoned, LogKind.overQuota, LogKind.rebuildRefused, LogKind.updFault, LogKind.updFrozen, LogKind.updNonfinite] ++
  [LogKind.updDiscard, LogKind.updDiscardIgnored, LogKind.updLiveIgnored, LogKind.schRecalcIgnored, LogKind.badItem, LogKind.sampleDrop, LogKind.restoreIgnored, LogKind.collapsed, LogKind.cohModeIgnored, LogKind.iommuRefused, LogKind.farLost, LogKind.edgeNarrowed, LogKind.edgeDown, LogKind.edgeForced, LogKind.capLow, LogKind.criticalTemp] ++
  [LogKind.limiter, LogKind.darkRefused, LogKind.voltageReplan, LogKind.demoted, LogKind.portTraining, LogKind.partnerAbsent, LogKind.partnerSlow, LogKind.partnerFaulty, LogKind.partnerHostile, LogKind.gaveUp, LogKind.noSpare, LogKind.unrecoverable, LogKind.streamsRealigned, LogKind.takeoverLate, LogKind.planRejected, LogKind.suspect] ++
  [LogKind.periodMismatch, LogKind.tideSwitch, LogKind.skewed, LogKind.ptpRange, LogKind.lateToken, LogKind.fwRejected, LogKind.fwReverted, LogKind.fwSwitched, LogKind.fwDeferred, LogKind.timeRejected, LogKind.watchdogTrip, LogKind.outOfService, LogKind.oosclrIgnored, LogKind.imageFailed, LogKind.noIdentity, LogKind.tokenRefused] ++
  [LogKind.sessionOpened, LogKind.sessionEnded, LogKind.standbyLost, LogKind.setWaits]

/-- The lifecycle states of Table 20-4 (R421). -/
inductive Life where
  | fab | prov | field | ret
deriving DecidableEq, Repr

/-- What leaves the package: answers, messages, interrupts, frames and pin events, newest first. -/
inductive Out where
  /-- The answer of an access with its data; a write's answer has none. -/
  | resp (who : Agent) (addr : Addr) (data : List Byte)
  /-- An access fault to the requester (R17). -/
  | accessFault (who : Agent) (addr : Addr)
  /-- A tide frame on TIDE_OUT (R44). -/
  | tideFrame (frame : BitVec 128)
  /-- A write to the PCIe outbound range (R16). -/
  | pcieWrite (addr : Addr) (bytes : List Byte)
  /-- A read of the PCIe outbound range (R16). -/
  | pcieRead (addr : Addr) (len : Nat)
  /-- A member's cache answers its core: a load, an AMO, LR or SC (R261, R266). -/
  | coreData (agent : Nat) (addr : Addr) (data : List Byte)
  /-- A home answers an uncached read (R262). -/
  | uncachedData (addr : Addr) (data : List Byte)
  /-- An uncached request faults as in R17 (R18, R252). -/
  | uncachedFault (addr : Addr)
  /-- A member's request faults as in R17. -/
  | agentFault (agent : Nat) (addr : Addr)
  /-- An interrupt message of a PCIe device passes to the host cores (R303). -/
  | interruptMessage (addr : Addr) (data : List Byte)
  /-- A refused device read ends as an Unsupported Request completion (R302). -/
  | unsupported (n : Nat) (addr : Addr)
  /-- A receiver acknowledges a lane frame in the reverse direction (R277). -/
  | laneAck (edge : Nat) (dir : Bool) (lane : Nat)
  /-- Flits leave an edge in the order in which they entered it (R276). -/
  | edgeFlits (edge : Nat) (dir : Bool) (flits : List Desc)
  /-- A flit of the management virtual channel: a budget message or an allotment (R285). -/
  | mgmtFlit (flit : Desc)
  /-- A Hural flit of 256 bytes leaves a port in Hural-direct mode (R342, R348). -/
  | flit (port : Nat) (bytes : List Byte)
  /-- An Ethernet frame leaves a port in Ethernet mode (R349). -/
  | ethFrame (port : Nat) (bytes : List Byte)
  /-- A step of a session set-up leaves a port (R346, R347). -/
  | handshake (port : Nat) (msg : HsMsg)
  /-- A flotilla-ready report goes to the pilot of another flotilla (R51). -/
  | fready (set : SetNo) (flotilla : Nat) (tide : BitVec 48)
  /-- An interrupt message to a host core: a telemetry sample is due there (R398). -/
  | hostInterrupt (core : Nat)
  /-- A pulse on PPS_OUT (R439). -/
  | pps
  /-- The data of an I3C private read (R440). -/
  | i3cData (bytes : List Byte)
  /-- An I3C access that is not acknowledged (R440). -/
  | i3cNack
  /-- An in-band interrupt with its mandatory data byte (R440). -/
  | i3cInterrupt (status : BitVec 8)
deriving DecidableEq, Repr

/-- A logbook record (Table 19-3). `data` holds what the event's rule says the record names; ARGS are the words Config.logArgs makes of it. `opened` is when a flood record opened; `final` says that no fold can change it. -/
structure LogRec where
  index : Nat
  seq : Nat
  tai : W64
  unc : BitVec 32
  kind : LogKind
  flood : Bool
  src : BitVec 2
  die : Nat
  tide : BitVec 48
  count : Nat
  origin : Nat
  opened : Nat
  final : Bool
  data : List Nat := []
deriving DecidableEq, Repr

/-- The logbook outside the flash records: staging in order of opening, LOG_STAT.COUNT and FULL, the counters of R405 to R407, the tallies (R406) and each code's missing tokens with the time they were counted (R404; the fraction of a token in units of 1 ÷ (4 × 10^9)). -/
structure LogSt where
  staged : List LogRec := []
  count : Nat := 0
  full : Bool := false
  lost : W64 := 0
  lostPending : Nat := 0
  floods : W64 := 0
  tallies : FMap Nat := []
  savedTallies : FMap Nat := []
  deficits : FMap (Nat × Nat) := []
deriving DecidableEq, Repr

/-- Where calendar time comes from (TIMESRC of Table 19-3). -/
inductive TimeSrc where
  | unknown | ptp | host | holdover
deriving DecidableEq, Repr

/-- Calendar time: it read `tai` at `at_` with uncertainty `unc`, and `resets` whole-package resets have passed since (R408). `grid` counts consecutive marks outside ±200 ns (R49). -/
structure TimeSt where
  src : TimeSrc := .unknown
  tai : Nat := 0
  at_ : Nat := 0
  unc : Nat := 0
  resets : Nat := 0
  grid : Nat := 0
deriving DecidableEq, Repr

/-- A chart: its header's SERIAL, BASE, SEAL, INDIV, EFFECTIVE, the image's DIGEST and the section bodies by TYPE in ascending order. -/
structure Chart where
  serial : W64 := 0
  base : W64 := 0
  sealed : Bool := false
  indiv : Bool := false
  effective : W64 := 0
  digest : List Byte := []
  sections : List (Nat × List Byte) := []
deriving DecidableEq, Repr

/-- The chart's state: the chart in effect, the amendment being checked (its address), staged or waiting, the partitions whose parts of a class B amendment still wait, the flash slots as they lie in flash, the image a CHART_FLASH checks or writes, the slot that is or was in use, and how many fallback writes this boot has made (R78 to R84). -/
structure ChartSt where
  cur : Option Chart := none
  checking : Option Addr := none
  staged : Option Chart := none
  waitingParts : List Nat := []
  appliedFirst : Bool := false
  slotA : List Byte := []
  slotB : List Byte := []
  flashAddr : Option Addr := none
  flashImage : Option (List Byte) := none
  loadedB : Option Bool := none
  fallbackWrites : Nat := 0
deriving DecidableEq, Repr

/-- A unit list of a plan (Table 2-2b). -/
structure UnitList where
  unit : Nat
  count : Nat
  addr : Addr
deriving DecidableEq, Repr

/-- A plan a partition holds: the fields of Table 2-2 that act after the take. -/
structure HeldPlan where
  addr : Addr
  setv : Bool
  set : SetNo
  link : W64
deriving DecidableEq, Repr

/-- A partition (R29, R36, R43): the plan it holds, the LINK of its last plan, TIDE_PLAN as sampled at T + 2.0 µs and whether it has been written since, a write of TIDE_PLAN behind a PLAN command's that is not taken yet (Table 13-6), a latched slip, and a rejection that leaves it idle until TIDE_PLAN is written (R28). -/
structure PartSt where
  plan : Option HeldPlan := none
  link : W64 := 0
  sampled : Option Addr := none
  rewritten : Bool := false
  behind : Option (Addr × Bool) := none
  slip : Bool := false
  rejected : Bool := false
deriving DecidableEq, Repr

/-- A commit set the package contributes to: the partitions whose plans name it, whether one of these plans never finishes, whether such a plan was taken since a dark declaration made this package forget its report (R371), whether it was reported, and one past the last tide in which its report was held for mirrors (R39, R360). -/
structure SetSt where
  set : SetNo
  parts : List Nat := []
  stuck : Bool := false
  due : Bool := true
  reported : Bool := false
  held : Nat := 0
deriving DecidableEq, Repr

/-- A cross-flotilla report of a set: the flotilla, and the tide count at which it became ready (R51). -/
structure FReadySt where
  set : SetNo
  flotilla : Nat
  tide : BitVec 48
deriving DecidableEq, Repr

/-- Tides: the partitions; the highest committed set; the token and dark declaration this boundary applies (R42, R356); the grace window, and whether plans are to be taken after it; consecutive failed frames on TIDE_IN, whether the frame of this boundary passed on either input, and the one that passed on TIDE_SPARE (R47); whether the backup pilot leads; the sets; ready reports as (set, berth) (R40); flotilla-ready reports and the other flotillas of the sets that span flotillas (R51); dark berths, and those to declare; the frame composed for the next mark (R40); the frame period that was logged as a mismatch, and whether this boundary's frame gave the period (R45); `closed` from T - 1.0 µs to the mark (R80); the time at the last mark; the units that have completed an item since the last grace end (R385). -/
structure TideSt where
  parts : FMap PartSt := []
  committed : Option SetNo := none
  token : Option SetNo := none
  dark : Option Nat := none
  grace : Bool := false
  takeDue : Bool := false
  failIn : Nat := 0
  inNow : Option Bool := none
  spareNow : Option Bool := none
  spareFrame : Option (BitVec 128) := none
  spareRole : Bool := false
  sets : List SetSt := []
  ready : List (SetNo × Nat) := []
  fready : List FReadySt := []
  crossSets : List (SetNo × List Nat) := []
  darkBerths : List Nat := []
  darkQueue : List Nat := []
  composed : Option (BitVec 128) := none
  periodSeen : Option Nat := none
  framed : Bool := false
  closed : Bool := false
  markAt : Nat := 0
  progress : List Nat := []
deriving DecidableEq, Repr

/-- An item in progress on a tile engine: its descriptor, the step and loss-scale exponent it latched (R129, R173), its exponents after substitution (R143), the pass it belongs to or whether it arrived outside any (R144, R151), the flags and non-finite rows gathered for it, the next group of an MMA, the bytes of the operand store and of the buffers it overwrote, the old values of operand bytes that other items overwrote since it started (R93, R166), and whether its layer is watched (R135). -/
structure RunItem where
  desc : Desc
  step : Nat := 0
  lscale : Nat := 0
  aexp : Int := 0
  bexp : Int := 0
  pass : Option Nat := none
  late : Bool := false
  flags : Nat := 0
  nonfinite : Bool := false
  rows : List Nat := []
  group : Nat := 0
  oldOp : FMap Byte := []
  oldBuf : FMap Byte := []
  mix : FMap (List Byte) := []
  watch : Bool := false
deriving DecidableEq, Repr

/-- An engine sequencer: items that have not started in list order, items in progress oldest first, and the item a fault halted it on (R90, R109). -/
structure Engine where
  queue : List Desc := []
  run : List RunItem := []
  halted : Option Desc := none
deriving DecidableEq, Repr

/-- States of an accumulator bank (Table 4-6). -/
inductive BankState where
  | free | filling | held | full
deriving DecidableEq, Repr

/-- An accumulator bank: state, kind (true for integer), group counter, and S and E of element 32 × i + j, or the INT32 sum in S (R101, R103). -/
structure Bank where
  st : BankState := .free
  kind : Option Bool := none
  groups : Nat := 0
  s : FMap Nat := []
  e : FMap Nat := []
deriving DecidableEq, Repr

/-- A random stream: the full step number it holds, its counter's STEP field and BLOCK; a BLOCK at or beyond 2^27 has a wrap to log (R128 to R130). -/
structure StreamSt where
  held : Option Nat := none
  step : Nat := 0
  block : Nat := 0
deriving DecidableEq, Repr

/-- A sampled MMA that waits for its recomputation or is being recomputed: descriptor, exponents, layer, partition, pass of a speculative one, and the bank's S and E at its completion (R158 to R160). -/
structure Sample where
  desc : Desc
  aexp : Int
  bexp : Int
  part : Nat
  pass : Option Nat
  running : Bool
  s : FMap Nat
  e : FMap Nat
  int : Bool
deriving DecidableEq, Repr

/-- A verdict on its way to a tile: layer, pass, clean or not, GATE, and whether the pass is discarded (R145). -/
structure Delivery where
  layer : Nat
  pass : Nat
  clean : Bool
  gate : Nat
deriving DecidableEq, Repr

/-- A tile: three sequencers, two banks, the six buffers end to end, the operand store, eight streams; for the watch the count of released MMAs of a layer with its step, the samples, and the samples held for a verdict as (pass, layer, bin); the verdicts on their way; a COPY held by a watch (R159). -/
structure Tile where
  mx : Engine := {}
  vx : Engine := {}
  dma : Engine := {}
  bankA : Bank := {}
  bankB : Bank := {}
  bufs : FMap Byte := []
  op : FMap Byte := []
  streams : FMap StreamSt := []
  released : FMap (Nat × Nat) := []
  samples : List Sample := []
  heldBins : List (Nat × Nat × Nat) := []
  verdicts : List Delivery := []
  defer : Bool := false
deriving DecidableEq, Repr

/-- A pass of a layer in a partition: its number, rung, the entry fields it keeps (FMT0, DIR, GATE, ITEMS, REP1, REP2), the loss-scale exponent its first pass latched (R152), reports counted, flags and non-finite values gathered, rows marked; whether it has ended, whether its verdict was given, whether it is repeated, and whether the repeat plan was fetched (R144 to R147). -/
structure PassSt where
  id : Nat
  rung : Nat
  fmt0 : Nat
  dir : Bool
  gate : Nat
  items : Nat
  rep1 : Nat
  rep2 : Nat
  lscale : Nat := 0
  count : Nat := 0
  flags : Nat := 0
  nonfinite : Bool := false
  rows : List Nat := []
  ended : Bool := false
  decided : Bool := false
  repeating : Bool := false
  fetched : Bool := false
deriving DecidableEq, Repr

/-- A completion report on its way to the verdict unit (R144). -/
structure Report where
  unit : Nat
  part : Nat
  layer : Nat
  pass : Option Nat
  flags : Nat
  nonfinite : Bool
  rows : List Nat
deriving DecidableEq, Repr

/-- The numerics units, keyed by partition × 65,536 + layer where a layer is meant: the passes and the number the next one takes, reports on their way in order of sending, partitions whose step is marked (R153), samples of the step as a list of bins (R160, R161), write-outs of the step as (any, any not zero) (R162), and runs that have raised their event. -/
structure NumSt where
  passes : FMap (Option PassSt) := []
  nextPass : Nat := 0
  reports : List Report := []
  marked : List Nat := []
  bins : FMap (List Nat) := []
  grads : FMap (Bool × Bool) := []
deriving DecidableEq, Repr

/-- A debug session's hidden state: when it ends where a token limits it, the level it was granted before any lowering, and the cores it halted (R424 to R426). Its level, MAX, REMAIN and REASON are in DBG_SESS. -/
structure DebugSt where
  ends : Option Nat := none
  halted : List Nat := []
deriving DecidableEq, Repr

/-- Security. In flash: SHA3-256 of the enrolled owner key; the digest stored with the helper data; the endorsement; the command records of lifecycle transitions in order and the target of one that waits for its reset; the slots of harbourmaster and host firmware; the floors of R415. Of this boot: the PUF's seed and the identity key derived from it (empty: none), the digests of the images booted, the two chains of R428 with their counts, the reports made. The report in progress with its nonce; the sessions by path (0 TAP, 1 in-band); the next trace record (R423). -/
structure SecSt where
  ownerHash : Option (List Byte) := none
  idDigest : Option (List Byte) := none
  endorsement : List Byte := []
  lifeRecs : List (List Byte) := []
  next : Option Life := none
  hmA : List Byte := []
  hmB : List Byte := []
  hostA : List Byte := []
  hostB : List Byte := []
  hmFloor : Nat := 0
  hostFloor : Nat := 0
  seed : Nat := 0
  idKey : List Byte := []
  hmBoot : List Byte := []
  hmRun : List Byte := []
  hostFw : List Byte := []
  chartBoot : List Byte := []
  chartRun : List Byte := []
  amends : Nat := 0
  switches : Nat := 0
  reports : Nat := 0
  report : Option (Addr × List Byte) := none
  tap : DebugSt := {}
  inband : DebugSt := {}
  traceNext : Nat := 0
deriving DecidableEq, Repr

/-- The metadata of a line: POISON, TAG, CLASS and PART of Table 10-7 for a warehouse line; for a quay line only the poison bit (R244, R245). A TAG of none is the one the fill of the line's frame gave it. -/
structure LineMeta where
  poison : Bool := false
  tag : Option Nat := none
  cls : Nat := 0
  part : Nat := 0
deriving DecidableEq, Repr

/-- An atomic read-modify-write that its core sends to the home (R266). -/
structure NearAmo where
  core : Nat
  addr : Nat
  op : AmoOp
  size : Nat
  val : W64
deriving DecidableEq, Repr

/-- What an agent's core does with a line once its cache has it. -/
inductive CoreOp where
  | load
  | store (addr : Addr) (bytes : List Byte)
  | amo (core : Nat) (addr : Addr) (op : AmoOp) (size : Nat) (val : W64)
  | lr (core : Nat) (addr : Addr) (size : Nat)
  | sc (core : Nat) (addr : Addr) (size : Nat) (val : W64)
deriving DecidableEq, Repr

/-- Requests of members to homes. -/
inductive ReqKind where
  | rds | rdx | upg
deriving DecidableEq, Repr

/-- What waits: an access, a request of a cache that has reached its home, or an operation of a member's core. -/
inductive WaitJob where
  | acc (op : AccessOp)
  | req (k : ReqKind)
  | core (agent : Nat) (op : CoreOp)
deriving DecidableEq, Repr

/-- An access that waits: its agent, address and what it is; the tide count and time at which it began; whether it waits on a marked line (R213) or is stalled under a cause of Table 10-6 (R242; 6: the homes grant nothing while the domain collapses, R271). -/
structure WaitAcc where
  who : Agent
  addr : Addr
  job : WaitJob
  since : Nat
  began : Nat
  held : Bool
  cause : Nat
deriving DecidableEq, Repr

/-- A frame this package lends: its borrower, its page in the borrower's object space where known, the tide of its last access, and the tide of an eviction notice that runs (R241). -/
structure LentFrame where
  berth : Nat
  page : Nat := 0
  touch : Nat := 0
  notice : Option Nat := none
deriving DecidableEq, Repr

/-- The request at the head of the migration ring, once the copy engines work on it: it waits for quota, waits for a neighbour frame, has been granted one, or moves (R236 to R239). -/
inductive MigSt where
  | idle
  | waitQuota
  | waitFrame
  | granted (frame : Addr)
  | moving (old new : Addr) (tier : Nat)
deriving DecidableEq, Repr

/-- Whose reads of another berth's memory are fetched: an item of a unit, a COPY of a queue by its sequence number, the page that moves, or nobody any more. -/
inductive FetchFor where
  | unit (u : Nat)
  | cmd (q seq : Nat)
  | page
  | nobody
deriving DecidableEq, Repr

/-- The answer to a fetch: still due, data, or a refusal. -/
inductive FetchAns where
  | due
  | data (bs : List Byte)
  | refused
deriving DecidableEq, Repr

/-- A piece of another berth's memory that was asked for: for whom, its address and bytes, the answer, and when it was asked for (R231). -/
structure Fetch where
  who : FetchFor
  addr : Nat
  n : Nat
  ans : FetchAns
  since : Nat
deriving DecidableEq, Repr

/-- A stalled unit: its cause of Table 10-6, the address of the access, whether it writes, and whether a record of its absent page has been posted (R234, R242). -/
structure Stall where
  cause : Nat
  addr : Nat
  wr : Bool
  noted : Bool := false
deriving DecidableEq, Repr

/-- Memory tiers. `info` is keyed by line number; `qmarks` by 64 KiB quay block as (CLASS, PART); `fills` by 2 MiB frame as the TAG that its fill gave (R244); `stalls` by stalled unit; `lent` by frame number; `lost` holds the object pages that are lost with the lines rewritten since (R250); `notices` the frames this package borrowed and was told to leave, with the tide of the notice; `lapse` the partitions whose marks outlive a compute-part reset, with the boundary count they still wait for (R214); `copyItems` are the planned items of the copy engines, whose layout the manual does not give (log 21); `fetch` holds what has been read from other berths for items, COPY commands and the page that moves; `xlat` the cached translations by object page, as tier, frame and object (R235). -/
structure TierSt where
  info : FMap LineMeta := []
  qmarks : FMap (Nat × Nat) := []
  fills : FMap Nat := []
  waits : List WaitAcc := []
  stalls : FMap Stall := []
  lent : FMap LentFrame := []
  mig : MigSt := .idle
  notices : FMap Nat := []
  lost : FMap (List Nat) := []
  lapse : FMap Nat := []
  copyItems : List Desc := []
  fetch : List Fetch := []
  xlat : FMap (Nat × Nat × Nat) := []
deriving DecidableEq, Repr

/-- States of a line in a cache (Tables 11-2 and 11-3). -/
inductive CState where
  | i | s | e | m | o | f
deriving DecidableEq, Repr

/-- A cached line: state, data, until when a newly received one is held (R264), and whether the cached copy has an uncorrectable error (R268). -/
structure CLine where
  st : CState
  data : Desc
  hold : Nat := 0
  bad : Bool := false
deriving DecidableEq, Repr

/-- A write-back, EvC or EvF that has not been acknowledged: its data where it is a WB, whether it carries POISON, and whether the home has taken it (R265). -/
structure Pend where
  data : Option Desc
  poison : Bool := false
  arrived : Bool := false
deriving DecidableEq, Repr

/-- A caching agent: its lines, its unacknowledged write-backs, the operation each outstanding request serves, its contention predictor counters by core × 1,024 + index where they differ from 0b01 (R267), the reservations of its cores as line numbers (R266), and where it stands in a departure (R268). `dead` says that its die lost its clock or power. -/
structure CohAgent where
  lines : FMap CLine := []
  pend : FMap Pend := []
  wants : FMap CoreOp := []
  pred : FMap Nat := []
  resv : FMap Nat := []
  departing : Bool := false
  departSent : Bool := false
  departed : Bool := false
  dead : Bool := false
deriving DecidableEq, Repr

/-- A directory entry: owned or shared, the owning agent, the sharers, whether they are kept as the coarse vector, the forwarder, and the place of the line's last request in the order of requests (R258, R259). -/
structure DirEnt where
  owned : Bool
  owner : Nat := 0
  sharers : List Nat := []
  coarse : Bool := false
  fwd : Option Nat := none
  last : Nat := 0
deriving DecidableEq, Repr

/-- Snoops. -/
inductive SnpKind where
  | snpS | snpX | snpC
deriving DecidableEq, Repr

/-- A snoop on its way to an agent or waiting there under R264 (`waits`), with the time it was sent. -/
structure Snoop where
  line : Nat
  agent : Nat
  kind : SnpKind
  sent : Nat
  waits : Bool := false
deriving DecidableEq, Repr

/-- A snoop reply on its way to the home: the state it found, data where it carries them, or RspWbPend. -/
structure SnpResp where
  line : Nat
  agent : Nat
  found : CState
  data : Option Desc
  wbPend : Bool := false
deriving DecidableEq, Repr

/-- What a home's open transaction serves. -/
inductive TxFor where
  | req (agent : Nat) (k : ReqKind)
  | read (addr : Addr) (len : Nat)
  | fullWrite (data : Desc)
  | partWrite (addr : Addr) (bytes : List Byte)
  | near (x : NearAmo)
  | evict
deriving DecidableEq, Repr

/-- An open transaction at a home: the agents whose replies it waits for, those whose write-back it waits for (R265), the data they returned, dirty or not, and the owner that stays; whether a reply of another agent than the requester found a copy, and found one in M, O or E (R267). -/
structure HomeTx where
  job : TxFor
  waits : List Nat
  wbs : List Nat := []
  data : Option Desc := none
  dirty : Bool := false
  owner : Option Nat := none
  found : Bool := false
  owned : Bool := false
deriving DecidableEq, Repr

/-- The coherent domain: agents by number, directory by line, requests, snoops and replies on their way, open transactions by line, near atomics that wait behind one, and the count of requests that orders `DirEnt.last`. The protocol and the domain's state are COH_STAT.MODE and COH_STAT2.STATE. -/
structure CohSt where
  agents : FMap CohAgent := []
  dir : FMap DirEnt := []
  reqs : List (Nat × Nat × ReqKind) := []
  snoops : List Snoop := []
  resps : List SnpResp := []
  txs : FMap HomeTx := []
  amos : List NearAmo := []
  order : Nat := 0
deriving DecidableEq, Repr

/-- A Hural message (Table 16-3). `len` is LEN; a message without data has an empty `data`. -/
structure HMsg where
  op : Nat
  src : Nat
  dst : Nat
  txn : Nat := 0
  addr : Nat := 0
  len : Nat := 0
  data : List Byte := []
deriving DecidableEq, Repr

/-- A message in a port's transmit queue, and how many of its flits have been sent. -/
structure TxMsg where
  msg : HMsg
  sent : Nat := 0
deriving DecidableEq, Repr

/-- A flit of the replay buffer: its sequence number, when it was last sent, its bytes (R345). -/
structure RepFlit where
  seq : Nat
  time : Nat
  bytes : List Byte
deriving DecidableEq, Repr

/-- The key and the salt of one direction from a sequence number on (R346, R347). -/
structure SessKey where
  start : Nat
  key : List Byte
  salt : List Byte
deriving DecidableEq, Repr

/-- Link-control flits that act on the port: NAK and CLOSE (Table 16-5). -/
inductive LinkCtl where
  | nak (seq : Nat)
  | close (reason : Nat)
deriving DecidableEq, Repr

/-- A key exchange in progress: whether this side carries the initiator's part, the step it waits for, the transcript so far, the seed of its own key pair, and the keys a set-up waits to switch to. Steps: 1 the partner's HELLO, 2 the encapsulation key, 3 the ciphertext, 4 the initiator's signature, 5 the first encrypted flit. -/
structure Exchange where
  starts : Bool := false
  step : Nat := 1
  transcript : List Byte := []
  hello : List Byte := []
  seed : Nat := 0
  secret : List Byte := []
deriving DecidableEq, Repr

/-- A port. `link` says that its lanes are up; `want` that software's OPEN waits for them; `barred` that only OPEN opens it again (R354); `retry` that a failed set-up or rekey is tried again (R346). `set` is the set-up and `rekey` the rekey in progress; `peerKey` the partner's identity key. `txSeq` is the next sequence number to send, `rxSeq` the expected one, `acked` the number of flits acknowledged. `credits` and `owed` are by virtual channel; `parts` the messages being received by virtual channel with the flits so far. `bad` and `hostile` are the times of the events that R354 counts, `quarantines` those of the quarantines. -/
structure PortSt where
  link : Bool := false
  want : Bool := false
  barred : Bool := false
  retry : Bool := false
  set : Option Exchange := none
  rekey : Option Exchange := none
  peerKey : List Byte := []
  starts : Bool := false
  txKeys : List SessKey := []
  rxKeys : List SessKey := []
  txSeq : Nat := 0
  rxSeq : Nat := 0
  acked : Nat := 0
  replay : List RepFlit := []
  queue : List TxMsg := []
  credits : FMap Nat := []
  owed : FMap Nat := []
  parts : FMap (Option (HMsg × Nat)) := []
  ctl : List LinkCtl := []
  bad : List Nat := []
  hostile : List Nat := []
  quarantines : List Nat := []
  slow : Option Nat := none
  vc0At : Option Nat := none
deriving DecidableEq, Repr

/-- What a request that was sent to another berth serves: a posted write and its requester, a queue's write by its number, an engine's write, an agent's read, a read that is fetched, a placement for a page, a mirror of a ride range (R359), a copy of a commit record or a COMMIT range (R364), a copy of a secure point (R365), a fetch of a restore (R373). -/
inductive ReqFor where
  | write (who : Option Agent) (addr : Addr)
  | bell (q id : Nat)
  | put (u : Nat) (addr : Addr)
  | read (who : Agent) (addr : Addr) (n : Nat)
  | engine (who : FetchFor) (addr : Addr)
  | grant (page : Nat)
  | mirror
  | record
  | snap
  | fetch
deriving DecidableEq, Repr

/-- A request that waits for its answer: tag, berth, what it serves, when it was sent (R231), the bytes of a write, and whether its line was found poisoned there, so that it waits for the rebuild of the object (R248). -/
structure OutReq where
  txn : Nat
  dst : Nat
  job : ReqFor
  since : Nat := 0
  data : List Byte := []
  held : Bool := false
deriving DecidableEq, Repr

/-- The ports; whole messages for this package that wait, with their port (18: from this package itself) and flits; messages that wait for an open route (R351); messages for its own berth that a package which gave it up holds (R367); requests in progress and the next tag; whether the 10 s hold of R356 runs; the pilot's probes; placement requests that wait for a frame as (berth, tag, page) (R241); the last timestamp exchange as (berth, value, time) (R46). -/
structure HuralSt where
  ports : FMap PortSt := []
  inbox : List (Nat × HMsg × Nat) := []
  waiting : List HMsg := []
  heldOwn : List HMsg := []
  reqs : List OutReq := []
  nextTxn : Nat := 0
  hold : Bool := false
  probes : List Nat := []
  grantWait : List (Nat × Nat × Nat) := []
  stamp : Option (Nat × Nat × Nat) := none
deriving DecidableEq, Repr

/-- An update item with its plan's SETV and SET (R191, R201). -/
structure UpdItem where
  desc : Desc
  setv : Bool
  set : SetNo
deriving DecidableEq, Repr

/-- An item that reads the old live buffer of a group: its unit and descriptor (R42, R202). -/
structure FlipReader where
  unit : Nat
  desc : Desc
deriving DecidableEq, Repr

/-- The update engine: items that have not started, the item in progress, whether its bytes have been written, and the step, loss-scale exponent and step size it latched (R129, R198), the item a fault halted it on, its sixteen sync counters (R192), its stream (R156), the groups whose committed flip waits with the readers each waits for (R202), and the bytes of each pending group's shadow writes as offsets from and to (R42). -/
structure UpdSt where
  queue : List UpdItem := []
  run : Option UpdItem := none
  wrote : Bool := false
  latch : Nat × Nat × Nat := (0, 0, 0)
  halted : Option UpdItem := none
  sync : FMap Nat := []
  stream : StreamSt := {}
  delayed : FMap (List FlipReader) := []
  extent : FMap (Nat × Nat) := []
deriving DecidableEq, Repr

/-- The states of a sample in the window (R311). -/
inductive SampleState where
  | decoding | host | done
deriving DecidableEq, Repr

/-- A ring entry that customs has read: submission index, epoch, CUS_SHUFFLE when the epoch began, and the header's address (R306). -/
structure SubEnt where
  index : Nat
  epoch : Nat
  shuffle : W64
  addr : Nat
deriving DecidableEq, Repr

/-- A sample that customs admitted: its ring entry, header, decoded size, the tide it was admitted in, its window entry, state, and its decoded data once it is done. -/
structure WinEnt where
  sub : SubEnt
  hdr : Desc
  bytes : Nat
  tide : Nat
  slot : Nat
  st : SampleState
  data : List Byte := []
deriving DecidableEq, Repr

/-- A batch: samples emitted, one past its last sample's index, its epoch and shuffle key, and the drop count and digest it holds (R315). -/
structure Batch where
  emitted : Nat := 0
  next : Nat := 0
  epoch : Nat := 0
  shuffle : W64 := 0
  drops : Nat := 0
  digest : List Byte := List.replicate 32 0
deriving DecidableEq, Repr

/-- The input pipeline: the lists of customs and of the decoder bank and the RUN items in progress, entries read from the ring, the window in submission order, the epoch, its shuffle key and the next index, the batch being filled, the batches by number, the record that the next batch continues, and the drops as (epoch, index) that follow a sample still in the window. -/
structure CusSt where
  cusItems : List Desc := []
  decItems : List Desc := []
  cusRun : Option Desc := none
  decRun : Option Desc := none
  subs : List SubEnt := []
  win : List WinEnt := []
  epoch : Nat := 0
  shuffle : W64 := 0
  nextIndex : Nat := 0
  fill : Nat := 0
  batches : FMap Batch := []
  record : Batch := {}
  held : List (Nat × Nat) := []
deriving DecidableEq, Repr

/-- Where an accepted command stands: not started; a COPY whose PREFILL is due; a COPY that moves or stalls; a PLAN that waits for VALID = 0, for its take, for its set (R292 to R294, R301). -/
inductive CmdSt where
  | accepted | filling | copying | planWait | planned | taken
deriving DecidableEq, Repr

/-- An accepted command: the entry as it was read, its ring index, and where it stands. -/
structure BCmd where
  entry : List Byte
  index : Nat
  st : CmdSt := .accepted
deriving DecidableEq, Repr

/-- A completed command whose record has not been posted: STATUS, RESULT and DETAIL of Table 13-3. -/
structure BDone where
  entry : List Byte
  index : Nat
  status : Nat
  result : Nat := 0
  detail : Nat := 0
deriving DecidableEq, Repr

/-- A write of a command that leaves the coherent memory: its number, the berth, none for a write to PCIe, its address, the command's SEQ, whether it is for an object page, and whether the record was posted (R299, R300). -/
structure FarWrite where
  id : Nat
  berth : Option Nat
  addr : Nat
  seq : Nat
  object : Bool
  posted : Bool := false
deriving DecidableEq, Repr

/-- A held read of BELL_VIS: who reads, at which address and how many bytes, the SEQ it will return, and the numbers of the writes it waits for (R300). -/
structure VisRead where
  who : Agent
  addr : Addr
  n : Nat
  seq : Nat
  waits : List Nat
deriving DecidableEq, Repr

/-- A queue: NEXTSEQ, since when an entry is re-read, the accepted commands in ring order, the completed ones in order of completion, the next completion record and its PHASE, the SEQ of the last posted record, the writes on non-coherent paths that have not been delivered and the number of the next one, the held reads of BELL_VIS, and the commands started in this round of the arbitration (R292). HEAD, TAIL, EN, WAITSEQ and CQFULL are in BELL_STAT. -/
structure BellQ where
  nextSeq : Nat := 0
  reading : Option Nat := none
  cmds : List BCmd := []
  done : List BDone := []
  cqTail : Nat := 0
  phase : Bool := false
  visSeq : Nat := 0
  far : List FarWrite := []
  farNo : Nat := 0
  vis : List VisRead := []
  served : Nat := 0
deriving DecidableEq, Repr

/-- A die edge: the lanes in use of each direction; by 4 × direction + lane the times of failed frames and the good frames that wait to be merged; negative acknowledgements and drop notices on their way as (direction, lane); the failed attempts of this training; the receive maps that have arrived; whether the confirm runs; whether it runs forced at 1/4. STATE, WIDTH, FAILS and the maps are in D2D_EDGE. -/
structure EdgeSt where
  lanesAB : List Nat := []
  lanesBA : List Nat := []
  fails : FMap (List Nat) := []
  rx : FMap (List (List (Bool × Desc))) := []
  naks : List (Bool × Nat) := []
  notices : List (Bool × Nat) := []
  attempt : Nat := 0
  mapAB : Option (BitVec 4) := none
  mapBA : Option (BitVec 4) := none
  confirming : Bool := false
  forced : Bool := false
deriving DecidableEq, Repr

/-- The edges by number, and the pairs of dies whose traffic takes the alternate route (R60, R281). -/
structure LinkSt where
  edges : FMap EdgeSt := []
  alt : List (Nat × Nat) := []
deriving DecidableEq, Repr

/-- What a die's budget message told the harbourmaster: PLANNED in µJ and TEMP in 1/16 °C. -/
structure BudMsg where
  planned : Nat
  temp : Int
deriving DecidableEq, Repr

/-- Standby: not asked for, asked for by software, asked for by the board, entered (R334). -/
inductive SbSt where
  | off | software | board | standby
deriving DecidableEq, Repr

/-- Energy and ageing, keyed by die 0..5 where a die is meant: calibrated clocked idle and gated floor power by state (R320); the budget messages of this boundary, the allotments received for the tide that begins as (µJ, ceiling state), the last ones, consecutive misses; the state and slots chosen for it; dies in idle slots, gated by their limiter, gated at 115 °C; the converter efficiency in 1/1,000; of the last 10 s (time, unused, excess) in µJ and the length of the excursion run in µs; whether the board has sent its two caps; the host die's PLANNED, its run of generous tides and its next states by the tide they apply in; each die's energy since reset in µJ; gauge samples that wait with the tide they fell due, dies whose sample is scheduled in this tide, offsets that apply at the next boundary, and each die's first sample in FIELD as (offset, TAI, samples since); dies whose idle slots ran up to the last mark; the DARK value that acts at the next boundary, the die that is dark, whether its agents still depart, and one that leaves DD; standby. -/
structure EnSt where
  idle : FMap (List Nat) := []
  floorW : FMap (List Nat) := []
  msgs : FMap BudMsg := []
  allots : FMap (Nat × Nat) := []
  last : FMap Nat := []
  misses : FMap Nat := []
  chosen : FMap (Nat × Nat) := []
  slots : List Nat := []
  limited : List Nat := []
  critical : List Nat := []
  eta : Nat := 920
  credit : List (Nat × Nat × Nat) := []
  excursion : Nat := 0
  sustSeen : Bool := false
  excSeen : Bool := false
  hostPlanned : Nat := 0
  hostRun : Nat := 0
  hostNext : FMap Nat := []
  total : FMap Nat := []
  ageWait : FMap Nat := []
  ageSched : List Nat := []
  offNext : FMap (BitVec 8) := []
  ageFirst : FMap (BitVec 8 × Nat × Nat) := []
  idled : List Nat := []
  darkNext : Option Nat := none
  dark : Option Nat := none
  darkDue : Bool := false
  waking : Option Nat := none
  sb : SbSt := .off
deriving DecidableEq, Repr

/-- Survival: whether SECURE asked for a secure point, records written for this berth address, the secure point in progress as (time of its first copy, step) and whether a copy of it was refused, the current generation, the times of the dark declarations seen and of the start of observation, the last step close and the last 64 step times in µs, whether a commit record is due at T + 2.5 µs, the take-over in progress as (berth address, time of its declaration) with the steps rolled forward, when each berth was declared dark, and the spares the pilot has given out. -/
structure ShdSt where
  secure : Bool := false
  records : Nat := 0
  snap : Option (Nat × Nat) := none
  snapFail : Bool := false
  gen : Bool := false
  darks : List Nat := []
  since : Nat := 0
  stepAt : Option Nat := none
  stepTimes : List Nat := []
  due : Bool := false
  taking : Option (Nat × Nat) := none
  rolled : Nat := 0
  declared : FMap (Option Nat) := []
  spares : List Nat := []
deriving DecidableEq, Repr

/-- The harbourmaster: the sample that is due (its tide count), the samples skipped since the last one that ran and the next slot of the ring; the image being checked, the image staged with its FLASH bit, its first eligible boundary, and after a switch the VERSION that ran before with the time of the switch, and the image switched in where FLASH asks for its write; the clock domain whose window runs; the last PTP offset. -/
structure HmSt where
  telDue : Option Nat := none
  telSkipped : Nat := 0
  telSlot : Nat := 0
  fwAddr : Option Addr := none
  fwImage : List Byte := []
  fwFlash : Bool := false
  fwFirst : Nat := 0
  fwOld : Option (Nat × Nat) := none
  fwRun : List Byte := []
  meas : Option Nat := none
  ptpOffset : Int := 0
deriving DecidableEq, Repr

/-- Resets: the domains held in reset, numbered as RST_STAT.DOMAIN; the compute-part or die resets as (domain, cause), and the cause of the host-domain reset, that wait for their departures (R381); whether a collapse has been detected and its resets are still due; in flash the events of R389 as (cause, TAI in ns), newest first, and out of service; the frozen hang snapshots by unit (R387); the tide of the last host beat; of the dump its sequence number, cause, time, tide, body sections and unreadable addresses; the clock domains that are lost, 0 for the reference. -/
structure RstSt where
  held : List Nat := []
  due : List (Nat × Nat) := []
  hostDue : Option Nat := none
  collapse : Bool := false
  events : List (Nat × Nat) := []
  oos : Bool := false
  frozen : FMap (List Byte) := []
  beat : Nat := 0
  dumpSeq : Nat := 0
  dumpCause : Nat := 0
  dumpTai : Nat := 0
  dumpTide : Nat := 0
  unread : List Nat := []
  clkLost : List Nat := []
deriving DecidableEq, Repr

/-- Rails and lands: VIN48 in its range, the converters done, V3P3SB in its range, REFCLK present, RESET_N low; converters stopped until VIN48 is discharged; THERMTRIP_N driven low; whether a boot is due, and whether it is the exit from SB; PKG_READY; XS_REL; both harbourmaster slots, both host slots failed; STATUS as the last in-band interrupt gave it; the host image written over I3C so far. -/
structure PowSt where
  vin : Bool := true
  rails : Bool := true
  standby : Bool := true
  refclk : Bool := true
  resetN : Bool := false
  stopped : Bool := false
  trip : Bool := false
  boot : Bool := true
  fromSb : Bool := false
  ready : Bool := false
  xsRel : Bool := false
  hmFail : Bool := false
  hostFail : Bool := false
  status : Nat := 0
  hostImg : List Byte := []
deriving DecidableEq, Repr

/-- The state: the commands that wait, time in quarter nanoseconds, the counter of open values (log 4), what has left the package, the registers (keyed by regKey, an unlisted one at its reset value), memory (an unlisted byte reads 0, log 2), the rollback floor of R74, the lifecycle state of R420, the logbook records in flash in the order they reached it (R402), and the parts below. -/
structure State where
  pending : List Instr := []
  now : Nat := 0
  free : Nat := 0
  out : List Out := []
  regs : FMap W64 := []
  mem : List Host.Cell := []
  floor : W64 := 0
  life : Life := .fab
  flashLog : List LogRec := []
  /-- Logbook staging, buckets and tallies (R402 to R407). -/
  log : LogSt := {}
  /-- Calendar time and the PTP servo (R408, R439). -/
  time : TimeSt := {}
  /-- The chart in effect, its amendment and its flash slots (R52 to R84). -/
  chart : ChartSt := {}
  /-- Partitions, slips, tokens and frames (R24 to R51). -/
  tide : TideSt := {}
  /-- The tiles by unit number (R87 to R110, R129, R158 to R167). -/
  tiles : FMap Tile := []
  /-- The numerics units: passes, reports, the step's marks and watches (R135 to R162). -/
  num : NumSt := {}
  /-- Identity, keys, images, lifecycle records and debug sessions (R411 to R428). -/
  sec : SecSt := {}
  /-- Memory tiers: line metadata, holds, stalls, lent frames and migration (R212, R213, R228 to R254). -/
  tier : TierSt := {}
  /-- The coherent domain: caches, directory, messages on their way, departures and collapse (R255 to R272). -/
  coh : CohSt := {}
  /-- The Hural ports, their sessions and messages, and what this package has asked of others (R341 to R357). -/
  hural : HuralSt := {}
  /-- The update engine and its flips (R190 to R208). -/
  upd : UpdSt := {}
  /-- Customs, the decoders, the reorder window and the batches (R305 to R317). -/
  cus : CusSt := {}
  /-- The queues by number (R286 to R301). -/
  bell : FMap BellQ := []
  /-- The die edges and the routes across them (R273 to R284). -/
  link : LinkSt := {}
  /-- Energy, power states and ageing (R319 to R340). -/
  en : EnSt := {}
  /-- Securing this berth and taking over another (R358 to R378). -/
  shd : ShdSt := {}
  /-- The harbourmaster: telemetry, its own firmware, a clock being measured, PTP (R14, R397 to R401, R439). -/
  hm : HmSt := {}
  /-- Resets in progress, the record of R389, hang snapshots and the crash dump (R379 to R394). -/
  rst : RstSt := {}
  /-- Rails, lands and the boot (R413, R430 to R448). -/
  pow : PowSt := {}
deriving DecidableEq, Repr

/-- The package right after the release of a whole-package reset, before BOOT, with the flash of a package from the factory: state FAB, no chart, no identity, no logbook record; the compute part and the host domain are held until BOOT and ID_DIEMAP says so of the host die, the ports for 10 s (R356), and RST_STAT names the power-up (log 3). -/
def State.reset : State := { regs := [(regKey .ID_DIEMAP 0 0, 0x300), (regKey .RST_STAT 0 0, 0x0A07000000)], rst := { held := [1, 6] }, hural := { hold := true } }

end Sys2Proof.Machine
end

