-- ==== Sys2Proof/Machine/Prims.lean ====
section
/-! DEFINITION. What a command can do to the state: the primitive updates, the programs made of them, and running one. -/

namespace Sys2Proof.Machine

/-- A register map with one register's value replaced; an entry equal to its register's reset value is removed, and IDREV is hard-wired (R21). -/
def regPut (m : FMap W64) (r : RegName) (i j : Nat) (v : W64) : FMap W64 :=
  if r = .IDREV ∨ v = regReset r i j then Cells.del m (regKey r i j) else Cells.ins m (regKey r i j) v

/-- The lifecycle transitions of Table 20-4 (R421). -/
def Life.mayGo : Life → Life → Bool
  | .fab, .prov => true
  | .prov, .field => true
  | .prov, .ret => true
  | .field, .ret => true
  | a, b => decide (a = b)

/-- One primitive update of the state. -/
inductive Prim where
  /-- A register takes a value; its reserved bits stay 0 (R6). -/
  | reg (r : RegName) (i j : Nat) (v : W64)
  /-- The registers of a class return to their reset values. -/
  | regsReset (c : RegName → Bool)
  /-- One byte of memory takes a value. -/
  | mem (a : Nat) (b : Byte)
  /-- Every byte of a range of memory becomes 0. -/
  | clear (a n : Nat)
  /-- The rollback floor rises to a value, never falls (R74). -/
  | floor (v : W64)
  /-- The lifecycle state moves along an allowed transition (R421). -/
  | life (l : Life)
  /-- Records reach the logbook flash behind those that are there (R402). -/
  | flashLog (rs : List LogRec)
  /-- Something leaves the package. -/
  | send (o : Out)
  /-- The open values of the step are used up (log 4). -/
  | fresh
  /-- Time passes, in quarter nanoseconds. -/
  | time (n : Nat)
  | log (f : LogSt → LogSt)
  | calendar (f : TimeSt → TimeSt)
  | chart (f : ChartSt → ChartSt)
  | tide (f : TideSt → TideSt)
  | tiles (f : FMap Tile → FMap Tile)
  | num (f : NumSt → NumSt)
  | sec (f : SecSt → SecSt)
  | tier (f : TierSt → TierSt)
  | coh (f : CohSt → CohSt)
  | hural (f : HuralSt → HuralSt)
  | upd (f : UpdSt → UpdSt)
  | cus (f : CusSt → CusSt)
  | bell (f : FMap BellQ → FMap BellQ)
  | link (f : LinkSt → LinkSt)
  | en (f : EnSt → EnSt)
  | shd (f : ShdSt → ShdSt)
  | hm (f : HmSt → HmSt)
  | rst (f : RstSt → RstSt)
  | pow (f : PowSt → PowSt)

/-- The effect of one primitive update. -/
def Prim.apply (p : Prim) (s : State) : State :=
  match p with
  | .reg r i j v => { s with regs := regPut s.regs r i j (v &&& regMask r i j) }
  | .regsReset c => { s with regs := s.regs.filter fun e => !RegName.all.any fun r => c r && decide (e.1 / 2 ^ 32 = r.ctorIdx) }
  | .mem a b => { s with mem := Cells.put 0 s.mem a b }
  | .clear a n => { s with mem := s.mem.filter fun c => decide (c.1 < a) || decide (a + n ≤ c.1) }
  | .floor v => { s with floor := if s.floor.toNat < v.toNat then v else s.floor }
  | .life l => { s with life := if s.life.mayGo l then l else s.life }
  | .flashLog rs => { s with flashLog := s.flashLog ++ rs }
  | .send o => { s with out := o :: s.out }
  | .fresh => { s with free := s.free + 1 }
  | .time n => { s with now := s.now + n }
  | .log f => { s with log := f s.log }
  | .calendar f => { s with time := f s.time }
  | .chart f => { s with chart := f s.chart }
  | .tide f => { s with tide := f s.tide }
  | .tiles f => { s with tiles := f s.tiles }
  | .num f => { s with num := f s.num }
  | .sec f => { s with sec := f s.sec }
  | .tier f => { s with tier := f s.tier }
  | .coh f => { s with coh := f s.coh }
  | .hural f => { s with hural := f s.hural }
  | .upd f => { s with upd := f s.upd }
  | .cus f => { s with cus := f s.cus }
  | .bell f => { s with bell := f s.bell }
  | .link f => { s with link := f s.link }
  | .en f => { s with en := f s.en }
  | .shd f => { s with shd := f s.shd }
  | .hm f => { s with hm := f s.hm }
  | .rst f => { s with rst := f s.rst }
  | .pow f => { s with pow := f s.pow }

/-- A program of primitive updates. `ask` reads the state as it stands when the program reaches it. -/
inductive Act where
  | skip
  | prim (p : Prim)
  | seq (a b : Act)
  | ask (f : State → Act)

/-- Running a program. -/
def run : Act → State → State
  | .skip, s => s
  | .prim p, s => p.apply s
  | .seq a b, s => run b (run a s)
  | .ask f, s => run (f s) s

/-- Programs one after another. -/
def Act.all : List Act → Act
  | [] => .skip
  | a :: as => .seq a (Act.all as)

/-- A program under a condition. -/
def Act.when (c : Bool) (a : Act) : Act := if c then a else .skip

/-- A program for each element, in order. -/
def Act.each {α : Type} (f : α → Act) : List α → Act
  | [] => .skip
  | x :: xs => .seq (f x) (Act.each f xs)

/-- A program under a condition read from the state. -/
def Act.given (c : State → Bool) (a : Act) : Act := .ask fun s => if c s then a else .skip

end Sys2Proof.Machine
end

