-- ==== Sys2Proof/Machine/Ops.lean ====
section
/-! DEFINITION. The named operations over registers, memory, the outbox and open values. -/

namespace Sys2Proof.Machine

/-! Registers (R4 to R7). -/

/-- The stored value of a register. -/
def getReg (s : State) (r : RegName) (i j : Nat) : W64 := Cells.get (regReset r i j) s.regs (regKey r i j)

/-- The stored value of a field. -/
def getF (s : State) (f : Fld) (i : Nat := 0) (j : Nat := 0) : Nat := bitsOf (getReg s f.reg i j).toNat f.lo f.width

/-- A one-bit field. -/
def getB (s : State) (f : Fld) (i : Nat := 0) (j : Nat := 0) : Bool := getF s f i j = 1

/-- A register's value with one field replaced. -/
def withF (v : W64) (f : Fld) (x : Nat) : W64 := BitVec.ofNat 64 (putBits v.toNat f.lo f.width x)

/-- The update of one field by the package. -/
def setF (f : Fld) (x : Nat) (i : Nat := 0) (j : Nat := 0) : Act :=
  .ask fun s => .prim (.reg f.reg i j (withF (getReg s f.reg i j) f x))

/-- The update of a field by a function of its value. -/
def modF (f : Fld) (g : Nat → Nat) (i : Nat := 0) (j : Nat := 0) : Act :=
  .ask fun s => .prim (.reg f.reg i j (withF (getReg s f.reg i j) f (g (getF s f i j))))

/-- A field that saturates counts `n` more. -/
def incF (f : Fld) (n : Nat := 1) (i : Nat := 0) (j : Nat := 0) : Act := modF f (fun v => satAdd f.width v n) i j

/-- A field that wraps counts `n` more. -/
def addF (f : Fld) (n : Nat := 1) (i : Nat := 0) (j : Nat := 0) : Act := modF f (fun v => v + n) i j

/-- The package sets an event bit. -/
def evt (f : Fld) (i : Nat := 0) (j : Nat := 0) : Act := setF f 1 i j

/-- A field that is a bit per number: one bit set or cleared. -/
def setBitF (f : Fld) (k : Nat) (b : Bool) (i : Nat := 0) (j : Nat := 0) : Act :=
  modF f (fun v => putBits v k 1 (if b then 1 else 0)) i j

/-- Every field of a register returns to its reset value. -/
def resetReg (r : RegName) (i j : Nat) : Act := .prim (.reg r i j (regReset r i j))

/-! Chart sections (Table 3-2). -/

/-- The body of a section, empty where the chart has none. -/
def Chart.sec (c : Chart) (t : Nat) : List Byte :=
  match c.sections.find? (fun e => e.1 = t) with
  | some e => e.2
  | none => []

/-- An `n`-byte field of a section's body. -/
def Chart.fld (c : Chart) (t off n : Nat) : Nat := fieldAt (c.sec t) off n

/-- The chart in effect; without one every section is empty. -/
def theChart (s : State) : Chart := s.chart.cur.getD {}

/-- An `n`-byte field of a section of the chart in effect. -/
def chartF (s : State) (t off n : Nat) : Nat := (theChart s).fld t off n

/-! Memory: one byte an address (R3, R16). -/

/-- A caching agent of Table 11-1. -/
def cohAgent (s : State) (a : Nat) : CohAgent := Cells.get {} s.coh.agents a

/-- The update of a caching agent. -/
def updAgent (a : Nat) (f : CohAgent → CohAgent) : Act :=
  .prim (.coh fun c => { c with agents := Cells.put {} c.agents a (f (Cells.get {} c.agents a)) })

/-- The data of a line that its owner gave up and that have not reached memory: on the way in a snoop reply, or with the open transaction. -/
def movingData (s : State) (line owner : Nat) : Option Desc :=
  match s.coh.resps.find? fun r => decide (r.line = line) && decide (r.agent = owner) && r.data.isSome with
  | some r => r.data
  | none =>
    match Cells.look s.coh.txs line with
    | some t => t.data
    | none => none

/-- What a home answers from in place of memory: the owner's copy of a line, its write-back on the way, or what it gave up to a snoop (R262, R265). -/
def cohData (s : State) (line : Nat) : Option Desc :=
  match Cells.look s.coh.dir line with
  | none => none
  | some e =>
    if e.owned then
      match Cells.look (cohAgent s e.owner).lines line with
      | some c => some c.data
      | none =>
        match Cells.look (cohAgent s e.owner).pend line with
        | some p => p.data
        | none => movingData s line e.owner
    else none

/-- One byte of warehouse or quay as an uncached read returns it (R262). -/
def readByte (s : State) (a : Nat) : Byte :=
  match cohData s (a / 64) with
  | some d => BitVec.ofNat 8 (d.toNat / 2 ^ (8 * (a % 64)))
  | none => Cells.get 0 s.mem a

/-- `n` bytes from an address on. -/
def readMem (s : State) (a n : Nat) : List Byte := (List.range n).map fun k => readByte s (a + k)

/-- The little-endian number in `n` bytes. -/
def readNat (s : State) (a n : Nat) : Nat := leNat (readMem s a n)

/-- Bytes placed in memory from an address on. -/
def writeMem (a : Nat) : List Byte → Act
  | [] => .skip
  | b :: bs => .seq (.prim (.mem a b)) (writeMem (a + 1) bs)

/-- `n` bytes from an address on, cut at line boundaries: address and length of each piece. -/
def linePieces (a n : Nat) : List (Nat × Nat) :=
  if n = 0 then []
  else (List.range ((a % 64 + n + 63) / 64)).map fun i =>
    let lo := max a ((a / 64 + i) * 64)
    (lo, min (a + n) ((a / 64 + i + 1) * 64) - lo)

/-- An agent without the lines of a range: its copies and its reservations on them end, a write-back on its way counts as taken (R265, R266). -/
def CohAgent.forget (x : CohAgent) (p : Nat → Bool) : CohAgent :=
  { x with
    lines := x.lines.filter fun l => !p l.1
    pend := x.pend.map fun e => if p e.1 then (e.1, { e.2 with arrived := true }) else e
    resv := x.resv.filter fun e => !p e.2 }

/-- The domain without the lines of a range: no copy and no directory entry is left; an open transaction goes on, and what its snoops gave up before counts as taken, so that what is written now comes before what it serves (R257, R262). -/
def CohSt.forget (c : CohSt) (p : Nat → Bool) : CohSt :=
  { c with
    dir := c.dir.filter fun e => !p e.1
    agents := (c.agents.map fun e => (e.1, e.2.forget p)).filter fun e => e.2 ≠ {}
    resps := c.resps.map fun r => if p r.line then { r with data := none, found := .i } else r
    txs := c.txs.map fun e => if p e.1 then (e.1, { e.2 with data := none, dirty := false, owner := none }) else e }

/-- The agents that have just received a line and hold it: a snoop for it waits there, and is counted (R264). -/
def holdsNow (s : State) (line : Nat) : Nat :=
  (s.coh.agents.filter fun e => !e.2.departing && (match Cells.look e.2.lines line with | some c => decide (s.now < c.hold) | none => false)).length

/-- The home of a line ends every cached copy; where `keep`, an owner's data reach memory first (R262). A snoop that meets a hold of R264 is counted; its waiting takes no time here (log 1). -/
def dropCopies (line : Nat) (keep : Bool) : Act :=
  .ask fun s =>
    match Cells.look s.coh.dir line with
    | none => .skip
    | some _ =>
      Act.all [Act.when (decide (holdsNow s line ≠ 0)) (addF COH_HOLDSNP.COUNT (holdsNow s line)),
        (match cohData s line with | some d => Act.when keep (writeMem (line * 64) (descBytes d)) | none => .skip),
        .prim (.coh fun c => c.forget fun l => decide (l = line))]

/-- Who writes a line: the commit class, the partition, the LAYER tag and whether it is the update engine (R211, R212), the TAG where it is no direct window, and the requester that a NACK of another berth reaches: an agent, a command by its queue and SEQ, or a unit whose item completes once it is acknowledged (R183, R300, R353). -/
structure Writer where
  cc : Bool := false
  part : Nat := 0
  layer : Nat := 0
  upd : Bool := false
  object : Bool := false
  who : Option Agent := none
  queue : Option (Nat × Nat) := none
  unit : Option Nat := none
deriving DecidableEq, Repr

/-- Warehouse and quay direct (Table 1-10). -/
def isWarehouse (a : Nat) : Bool := decide (a < 2 ^ 40)
def isQuay (a : Nat) : Bool := decide (0x010000000000 ≤ a) && decide (a < 0x010300000000)

/-- The die of a quay address. -/
def quayDie (a : Nat) : Nat := (a - 0x010000000000) / 0xC0000000

/-- An address lies in a range of base and size. -/
def inRange (a : Nat) (r : Nat × Nat) : Bool := decide (r.1 ≤ a) && decide (a < r.1 + r.2)

/-- The page table of TIER_PTBASE as base and size (R233). -/
def pageTable (s : State) : Nat × Nat := (getF s TIER_PTBASE.ADDR * 2 ^ 21, if getB s TIER_PTBASE.EN then 2 ^ 29 else 0)

/-- A lighter of the chart holds an address (R64). -/
def inLighter (s : State) (a : Nat) : Bool :=
  (List.range (chartF s 7 0 1)).any fun i => inRange a (chartF s 7 (8 + 24 * i) 8, chartF s 7 (16 + 24 * i) 8)

/-- The host region or the dump region holds an address (R63); without a chart the host region is the first 64 GiB (R75). -/
def inHostRegion (s : State) (a : Nat) : Bool := inRange a (if s.chart.cur.isSome then (chartF s 6 0 8, chartF s 6 8 8) else (0, 2 ^ 36))
def inDumpRegion (s : State) (a : Nat) : Bool := inRange a (chartF s 6 16 8, chartF s 6 24 8)

/-- The pool this package lends, at the top of its warehouse (R230). -/
def inPool (s : State) (a : Nat) : Bool := isWarehouse a && decide (2 ^ 40 - chartF s 4 4 4 * 2 ^ 30 ≤ a)

/-- TAG of a warehouse line (Table 10-7). -/
def lineTag (s : State) (w : Writer) (a : Nat) : Nat :=
  if w.object then 1
  else if inPool s a then 2
  else if inLighter s a then 3
  else if inHostRegion s a then 4
  else if inDumpRegion s a then 5
  else if inRange a (pageTable s) then 6
  else 0

/-- The TAG that the fill of a line's frame gave it, and a line's TAG (R244). -/
def fillTag (s : State) (a : Nat) : Nat := Cells.get 0 s.tier.fills (a / 2 ^ 21)
def tagOf (s : State) (a : Nat) : Nat := (Cells.get {} s.tier.info (a / 64)).tag.getD (fillTag s a)

/-- A TAG as the metadata keep it: none where it is the fill's. -/
def keepTag (s : State) (a t : Nat) : Option Nat := if t = fillTag s a then none else some t

/-- A line is poisoned (R244, R245). -/
def isPoisoned (s : State) (a : Nat) : Bool := (Cells.get {} s.tier.info (a / 64)).poison

/-- The metadata of a line after a write: TAG, the class mark, and POISON, which a full-line write clears (R212, R244, R248, R252). -/
def stampLine (w : Writer) (a : Nat) (full : Bool) : Act :=
  .ask fun s =>
    let keep := isPoisoned s a && !full
    let cls := if w.cc then (if w.upd then 2 else 1) else 0
    let m : LineMeta := if isWarehouse a then { poison := keep, tag := keepTag s a (lineTag s w a), cls := cls, part := if w.cc then w.part else 0 }
      else { poison := keep }
    Act.all [.prim (.tier fun t => { t with info := Cells.put {} t.info (a / 64) m }),
      Act.when (isQuay a && w.cc) (.prim (.tier fun t => { t with qmarks := Cells.put (0, 0) t.qmarks (a / 65536) (cls, w.part) }))]

/-- The mark of a quay block that a CC = 0 write covers whole is cleared (R212). -/
def clearBlocks (w : Writer) (a n : Nat) : Act :=
  Act.when (!w.cc && isQuay a) (.prim (.tier fun t =>
    { t with qmarks := t.qmarks.filter fun e => !(decide (a ≤ e.1 * 65536) && decide (e.1 * 65536 + 65536 ≤ a + n)) }))

/-- Bytes written to warehouse or quay at their homes, as an uncached write: members' copies end, the bytes and the metadata take their values (R212, R262). -/
def storeMem (w : Writer) (a : Nat) (bs : List Byte) : Act :=
  Act.all [Act.each (fun p =>
      Act.all [dropCopies (p.1 / 64) (decide (p.2 < 64)), writeMem p.1 (slice bs (p.1 - a) p.2), stampLine w p.1 (decide (p.2 = 64))])
    (linePieces a bs.length), clearBlocks w a bs.length]

/-- A write of the package itself, with CC = 0. -/
def pkgWrite (a : Nat) (bs : List Byte) : Act := storeMem {} a bs

/-- `n` bytes of zero, written by the package itself. -/
def zeroMem (a n : Nat) : Act := pkgWrite a (List.replicate n 0)

/-- A line lies wholly outside a range. -/
def lineOutside (a n line : Nat) : Bool := decide (line * 64 + 64 ≤ a) || decide (a + n ≤ line * 64)

/-- A 2 MiB frame lies outside a range. -/
def frameOutside (a n f : Nat) : Bool := decide (f * 2 ^ 21 + 2 ^ 21 ≤ a) || decide (a + n ≤ f * 2 ^ 21)

/-- Whole lines become zero, with no metadata and no cached copy: a frame is zero-filled, or a range is cleared by a reset. -/
def wipe (a n : Nat) : Act :=
  Act.all [.prim (.clear a n),
    .prim (.coh fun c => c.forget fun l => !lineOutside a n l),
    .prim (.tier fun t => { t with info := t.info.filter fun e => lineOutside a n e.1, fills := t.fills.filter fun e => frameOutside a n e.1 }),
    .prim (.tier fun t => { t with qmarks := t.qmarks.filter fun e => !(decide (a ≤ e.1 * 65536) && decide (e.1 * 65536 + 65536 ≤ a + n)) })]

/-- A frame is zero-filled for a use: its lines take that use's TAG (R237, R241, R244). -/
def fillFrame (frame tag : Nat) : Act :=
  Act.all [wipe frame (2 ^ 21), Act.when (isWarehouse frame) (.prim (.tier fun t => { t with fills := Cells.put 0 t.fills (frame / 2 ^ 21) tag }))]

/-! The outbox. -/

/-- Something leaves the package. -/
def send (o : Out) : Act := .prim (.send o)

/-- The answer to an access. -/
def respond (who : Agent) (a : Addr) (data : List Byte) : Act := send (.resp who a data)

/-! Open values (log 4). -/

/-- A program that uses open values of the step: the `k`-th is `f k`. They are used up afterwards. -/
def withFree (g : (Nat → Nat) → Act) : Act :=
  .seq (.ask fun s => g (Config.freeValue s.free)) (.prim .fresh)

/-- A boolean as a number of a register field. -/
def b2n (b : Bool) : Nat := if b then 1 else 0

end Sys2Proof.Machine
end

