-- ==== Sys2Proof/Machine/ChartImage.lean ====
section
/-! DEFINITION. Chart images: the header, the sections and the signature block, what each section says, and every check of R52 to R78 in the order of the reason codes (R86). -/

namespace Sys2Proof.Machine

/-! The image (R52 to R55). -/

/-- A section as it stands in an image: TYPE, VERSION, the reserved byte and the body. -/
structure RawSec where
  type : Nat
  version : Nat
  reserved : Nat
  body : List Byte
deriving DecidableEq, Repr

/-- `n` sections one after another, or none where a section header or body leaves the bytes before the signature block or LENGTH is no multiple of 8 in 8..`most` (R54). -/
def rawSections (most : Nat) : Nat → List Byte → Option (List RawSec)
  | 0, l => if l = [] then some [] else none
  | n + 1, l =>
    let len := fieldAt l 4 4
    if l.length < 8 || len % 8 ≠ 0 || len < 8 || len > most || l.length < 8 + len then none
    else
      match rawSections most n (l.drop (8 + len)) with
      | some r => some ({ type := fieldAt l 0 2, version := fieldAt l 2 1, reserved := fieldAt l 3 1, body := slice l 8 len } :: r)
      | none => none

/-- The length a section's layout implies (Tables 3-3, 3-4, R59 to R71); none for a type the edition does not know. -/
def secLength (t : Nat) (body : List Byte) : Option Nat :=
  match t with
  | 0x1 => some (8 + 80 * fieldAt body 0 1)
  | 0x2 => some 512
  | 0x3 => some 144
  | 0x4 => some (8 + 16 * fieldAt body 0 2)
  | 0x5 => some 88
  | 0x6 => some 32
  | 0x7 => some (8 + 24 * fieldAt body 0 1)
  | 0x8 => some 48
  | 0x9 => some 16
  | 0xA => some 8
  | 0xB => some (8 + 8 * fieldAt body 0 2)
  | 0xC => some 8
  | 0xD => some 8
  | 0xE => some 48
  | _ => none

/-- The sections of class D (Table 3-2). -/
def isClassD (t : Nat) : Bool := t = 0x1 || t = 0x5

/-- The sections of class S (Table 3-2). -/
def isClassS (t : Nat) : Bool := t = 0x3 || t = 0x6

/-- What a check is made against: IDREV, the SHA3-256 of the key in force (R55), the lifecycle state, the rollback floor, whether the path is CHART_AMEND, and the chart in effect. -/
structure ChartCx where
  idrev : Nat
  keyHash : List Byte
  life : Life
  floor : Nat
  amend : Bool
  cur : Option Chart
deriving DecidableEq, Repr

/-- LENGTH of an image. -/
def imgLength (img : List Byte) : Nat := fieldAt img 0x18 4

/-- Where the signature block starts. -/
def imgSigAt (img : List Byte) : Nat := imgLength img - 2464

/-- The sections of an image. -/
def imgSections (img : List Byte) : Option (List RawSec) :=
  rawSections 65536 (fieldAt img 0x1C 2) (slice img 256 (imgSigAt img - 256))

/-- The chart an image spells. -/
def imgChart (img : List Byte) : Chart :=
  { serial := BitVec.ofNat 64 (fieldAt img 0x08 8), base := BitVec.ofNat 64 (fieldAt img 0x10 8),
    sealed := bitOf (fieldAt img 0x1E 2) 0, indiv := bitOf (fieldAt img 0x1E 2) 1,
    effective := BitVec.ofNat 64 (fieldAt img 0x20 8), digest := slice img (imgSigAt img + 8) 32,
    sections := match imgSections img with
      | some l => l.map fun r => (r.type, r.body)
      | none => [] }

/-! What the sections say. -/

/-- An entry of PARTITION (Table 3-3): PART, the shared units, the tiles. -/
structure PartEntry where
  part : Nat
  units : Nat
  tiles : Nat
deriving DecidableEq, Repr

/-- The entries of PARTITION. -/
def Chart.parts (c : Chart) : List PartEntry :=
  (List.range (c.fld 1 0 1)).map fun i =>
    { part := c.fld 1 (8 + 80 * i) 1, units := c.fld 1 (9 + 80 * i) 1 % 16, tiles := c.fld 1 (16 + 80 * i) 64 }

/-- The units of an entry as one number: bit u for unit u of Table 2-1. -/
def PartEntry.mask (e : PartEntry) : Nat := e.tiles + e.units * 2 ^ 512

/-- Unit `u` belongs to partition `p` (R58). -/
def Chart.owns (c : Chart) (p u : Nat) : Bool := c.parts.any fun e => e.part = p && e.mask.testBit u

/-- The partition of a unit. -/
def Chart.partOf (c : Chart) (u : Nat) : Option Nat :=
  match c.parts.find? (fun e => e.mask.testBit u) with
  | some e => some e.part
  | none => none

/-- The units of a partition in ascending order. -/
def Chart.unitsOf (c : Chart) (p : Nat) : List Nat :=
  match c.parts.find? (fun e => e.part = p) with
  | some e => bitList e.mask 516
  | none => []

/-- The role of tile unit `u` (R59): 0 off, 1 compute, 2 feeder. -/
def Chart.role (c : Chart) (u : Nat) : Nat := c.fld 2 u 1 % 4

/-- A route as its edges: three 4-bit numbers, first hop lowest, 0xF ends it (R60). -/
def routeHops (w : Nat) : List Nat := ((List.range 3).map fun i => bitsOf w (4 * i) 4).takeWhile fun e => e ≠ 0xF

/-- The dies an edge joins (Table 1-2), numbered as in R60. -/
def edgeEnds : Nat → Option (Nat × Nat)
  | 0 => some (0, 1)
  | 1 => some (1, 3)
  | 2 => some (3, 2)
  | 3 => some (2, 0)
  | 4 => some (0, 4)
  | 5 => some (1, 4)
  | 6 => some (2, 5)
  | 7 => some (3, 5)
  | _ => none

/-- The dies a route visits after its start, or none where a hop uses no edge of the die it stands on. -/
def routeDies : Nat → List Nat → Option (List Nat)
  | _, [] => some []
  | d, e :: es =>
    match edgeEnds e with
    | none => none
    | some (a, b) =>
      let n := if d = a then some b else if d = b then some a else none
      match n with
      | none => none
      | some n =>
        match routeDies n es with
        | some l => some (n :: l)
        | none => none

/-- A route of NOCROUTE: primary or alternate from die `a` to die `b`. -/
def Chart.routeWord (c : Chart) (a b : Nat) (alt : Bool) : Nat :=
  bitsOf (c.fld 3 (4 * (6 * a + b)) 4) (if alt then 12 else 0) 12

/-- The intermediate dies of a route, or none where it does not run from `a` to `b`. -/
def Chart.routeVia (c : Chart) (a b : Nat) (alt : Bool) : Option (List Nat) :=
  match routeDies a (routeHops (c.routeWord a b alt)) with
  | some l => if l.getLast? = some b then some l.dropLast else none
  | none => none

/-- Accounts of TIERMAP (Table 3-4): ACCT, NBR, QUAY and WARE quotas in MiB. -/
def Chart.accounts (c : Chart) : List (Nat × Bool × Nat × Nat) :=
  (List.range (c.fld 4 0 2)).map fun i =>
    (c.fld 4 (8 + 16 * i) 1, bitOf (c.fld 4 (9 + 16 * i) 1) 0, c.fld 4 (10 + 16 * i) 2, c.fld 4 (12 + 16 * i) 4)

/-- Warehouse lent to the neighbour pool, in GiB (R61). -/
def Chart.lend (c : Chart) : Nat := c.fld 4 4 4

/-- Tile unit `u` is a member of the coherent domain (R62). -/
def Chart.memberTile (c : Chart) (u : Nat) : Bool := (c.fld 5 0 64).testBit u

/-- Host core `h` is a member. -/
def Chart.memberHost (c : Chart) (h : Nat) : Bool := (c.fld 5 0x40 16).testBit h

/-- The coherent DMA is a member. -/
def Chart.memberCdma (c : Chart) : Bool := bitOf (c.fld 5 0x50 1) 0

/-- The host region as base and size (R63). -/
def Chart.hostRegion (c : Chart) : Nat × Nat := (c.fld 6 0 8, c.fld 6 8 8)

/-- The crash-dump region. -/
def Chart.dumpRegion (c : Chart) : Nat × Nat := (c.fld 6 16 8, c.fld 6 24 8)

/-- The lighters as base, size and root ports (R64). -/
def Chart.lighters (c : Chart) : List (Nat × Nat × Nat) :=
  (List.range (c.fld 7 0 1)).map fun i => (c.fld 7 (8 + 24 * i) 8, c.fld 7 (16 + 24 * i) 8, c.fld 7 (24 + 24 * i) 1)

/-- FLOTILLA: ROLE, BERTH, PILOT, BACKUP (R65). -/
def Chart.flRole (c : Chart) : Nat := c.fld 8 0 1
def Chart.flBerth (c : Chart) : Nat := c.fld 8 1 1
def Chart.flPilot (c : Chart) : Nat := c.fld 8 2 1
def Chart.flBackup (c : Chart) : Nat := c.fld 8 3 1

/-- The spare berths. -/
def Chart.spares (c : Chart) : List Nat := ((List.range 8).map fun i => c.fld 8 (8 + i) 1).filter fun b => b ≠ 0xFF

/-- Berth `b` is occupied. -/
def Chart.occupied (c : Chart) (b : Nat) : Bool := (c.fld 8 0x10 32).testBit b

/-- TIDE: PERIOD in µs, GRID and EPOCH (R66). -/
def Chart.period (c : Chart) : Nat := c.fld 9 0 2
def Chart.grid (c : Chart) : Bool := bitOf (c.fld 9 2 1) 0
def Chart.epoch (c : Chart) : Nat := c.fld 9 8 8

/-! Checks. -/

/-- Two ranges of base and size overlap. -/
def overlap (a b : Nat × Nat) : Bool := decide (a.1 < b.1 + b.2) && decide (b.1 < a.1 + a.2)

/-- A list repeats an element. -/
def repeats : List Nat → Bool
  | [] => false
  | x :: xs => xs.contains x || repeats xs

/-- Code 0x02: LENGTH, section boundaries, a LENGTH other than the layout's, the signature block (R52, R54, R55). -/
def bad02 (img : List Byte) : Bool :=
  let n := imgLength img
  let sig := slice img (imgSigAt img) 2464
  decide (n > 2 ^ 20) || decide (n < 256 + 2464) || decide (img.length < n) ||
  (match imgSections img with
   | none => true
   | some l => l.any fun r =>
      match secLength r.type r.body with
      | some k => decide (k ≠ r.body.length)
      | none => false) ||
  decide (fieldAt sig 0 2 ≠ 0xFFFF) || decide (fieldAt sig 2 2 ≠ 0) || decide (fieldAt sig 4 4 ≠ 2456) || decide (fieldAt sig 2460 4 ≠ 0)

/-- Code 0x03: the IDREV match entries (R56). -/
def bad03 (idrev : Nat) (img : List Byte) : Bool :=
  let n := fieldAt img 0x28 1
  let value := fun i => fieldAt img (0x50 + 16 * i) 8
  let mask := fun i => fieldAt img (0x58 + 16 * i) 8
  decide (n < 1) || decide (n > 4) ||
  (List.range 4).any (fun i =>
    if i < n then decide (bitsOf (mask i) 32 32 ≠ 0xFFFF_FFFF) else decide (value i ≠ 0) || decide (mask i ≠ 0)) ||
  !(List.range n).any fun i => decide (idrev &&& mask i = value i &&& mask i)

/-- Code 0x05: SIGNER is the key in force and SIGNATURE verifies over DIGEST (R55). -/
def bad05 (keyHash : List Byte) (img : List Byte) : Bool :=
  decide (slice img 0x30 32 ≠ keyHash) ||
  !Config.mldsaVerify keyHash (slice img (imgSigAt img + 8) 32) (slice img (imgSigAt img + 40) 2420)

/-- Code 0x07: KIND, SERIAL, BASE and EFFECTIVE (R53, R75, R78). -/
def bad07 (cx : ChartCx) (img : List Byte) : Bool :=
  let kind := fieldAt img 6 2
  let serial := fieldAt img 8 8
  let base := fieldAt img 0x10 8
  decide (kind ≠ b2n cx.amend) || decide (serial = 0) ||
  (if cx.amend then
    match cx.cur with
    | none => true
    | some c => decide (base ≠ c.serial.toNat) || decide (serial ≤ c.serial.toNat)
   else decide (base ≠ 0) || decide (fieldAt img 0x20 8 ≠ 0))

/-- TYPEs rise strictly. -/
def rising : List Nat → Bool
  | a :: b :: l => decide (a < b) && rising (b :: l)
  | _ => true

/-- Code 0x08: the section set (R54, R57). -/
def bad08 (amend : Bool) (l : List RawSec) : Bool :=
  l.any (fun r => decide (secLength r.type r.body = none) || decide (r.version ≠ 1)) || !rising (l.map fun r => r.type) ||
  (if amend then l.isEmpty || l.any (fun r => isClassS r.type) else decide (l.length ≠ 14))

/-- Every byte from `off` on, `n` of them, of section `t` is zero. -/
def Chart.zero (c : Chart) (t off n : Nat) : Bool := c.fld t off n = 0

/-- The reserved fields of every section body are zero (R54; unnamed bits of a FLAGS byte, and bits 7 to 4 of a lighter's PORTS, count as reserved: DESIGN CHOICE, log 7). -/
def reservedOk (c : Chart) : Bool :=
  c.zero 1 1 7 &&
  (List.range (c.fld 1 0 1)).all (fun i =>
    decide (c.fld 1 (9 + 80 * i) 1 < 16) && c.zero 1 (10 + 80 * i) 6 && c.zero 1 (80 + 80 * i) 8) &&
  (c.sec 2).all (fun b => decide (b.toNat < 4)) &&
  (List.range 36).all (fun i => c.zero 3 (4 * i + 3) 1) &&
  c.zero 4 2 2 &&
  (List.range (c.fld 4 0 2)).all (fun i => decide (c.fld 4 (9 + 16 * i) 1 < 2) && c.zero 4 (16 + 16 * i) 8) &&
  c.zero 5 0x4C 4 && decide (c.fld 5 0x50 1 < 2) && c.zero 5 0x51 7 &&
  c.zero 7 1 7 && (List.range (c.fld 7 0 1)).all (fun i => decide (c.fld 7 (24 + 24 * i) 1 < 16) && c.zero 7 (25 + 24 * i) 7) &&
  c.zero 8 5 3 && decide (c.fld 9 2 1 < 2) && c.zero 9 3 5 && c.zero 0xA 2 2 &&
  c.zero 0xB 6 2 && (List.range (c.fld 0xB 0 2)).all (fun i => c.zero 0xB (14 + 8 * i) 2) &&
  decide (c.fld 0xC 2 1 < 4) && c.zero 0xC 3 5 && c.zero 0xD 2 2 && c.zero 0xE 2 6

/-- A region's base and size are multiples of 2 MiB inside the warehouse, at least `least` bytes (R63). -/
def regionOk (r : Nat × Nat) (least : Nat) : Bool :=
  decide (r.1 % 2 ^ 21 = 0) && decide (r.2 % 2 ^ 21 = 0) && decide (least ≤ r.2) && decide (r.1 + r.2 ≤ 2 ^ 40)

/-- The field ranges of R58 to R71 (code 0x09). -/
def rangesOk (c : Chart) : Bool :=
  decide (1 ≤ c.fld 1 0 1) && decide (c.fld 1 0 1 ≤ 64) && c.parts.all (fun e => decide (e.part < 64)) &&
  (c.sec 2).all (fun b => decide (b.toNat % 4 ≠ 3)) &&
  decide (1 ≤ c.fld 4 0 2) && decide (c.fld 4 0 2 ≤ 64) && decide (c.lend ≤ 256) && c.accounts.all (fun a => decide (a.1 < 64)) &&
  regionOk c.hostRegion (2 ^ 30) && regionOk c.dumpRegion (2 ^ 28) &&
  decide (c.fld 7 0 1 ≤ 16) && c.lighters.all (fun l => decide (l.1 % 2 ^ 21 = 0) && decide (l.2.1 % 2 ^ 21 = 0) && decide (l.2.1 ≠ 0)) &&
  decide (c.flRole ≤ 3) && decide (c.fld 8 4 1 ≤ 8) &&
  decide (10 ≤ c.period) && decide (c.period ≤ 10000) &&
  decide (1 ≤ c.fld 0xA 0 1) && decide (c.fld 0xA 0 1 ≤ 15) && decide (1 ≤ c.fld 0xA 1 1) &&
  decide (60 ≤ c.fld 0xA 4 4) && decide (c.fld 0xA 4 4 ≤ 604800) &&
  decide (c.fld 0xB 0 2 ≤ 1024) && decide (c.fld 0xB 2 2 ≠ 0) && decide (c.fld 0xB 4 2 ≠ 0) &&
  (List.range (c.fld 0xB 0 2)).all (fun i => decide (c.fld 0xB (10 + 8 * i) 2 ≠ 0) && decide (c.fld 0xB (12 + 8 * i) 2 ≠ 0)) &&
  decide (c.fld 0xC 0 1 ≤ 2) && decide (c.fld 0xC 1 1 ≤ 2) &&
  decide (c.fld 0xD 0 1 ≤ 1) && decide (c.fld 0xD 1 1 ≤ 95) && decide (1 ≤ c.fld 0xD 4 4) && decide (c.fld 0xD 4 4 ≤ 65535) &&
  decide (1 ≤ c.fld 0xE 0 1) && decide (c.fld 0xE 0 1 ≤ 8) && decide (1 ≤ c.fld 0xE 1 1)

/-- A period change that R66 forbids: EFFECTIVE 0, INDIV, or with a class D section (code 0x09). -/
def periodBad (cx : ChartCx) (img : List Byte) (l : List RawSec) : Bool :=
  cx.amend && (match cx.cur with
    | none => false
    | some c =>
      l.any (fun r => decide (r.type = 9) && decide (fieldAt r.body 0 2 ≠ c.period)) &&
      (decide (fieldAt img 0x20 8 = 0) || bitOf (fieldAt img 0x1E 2) 1 || l.any fun r => isClassD r.type))

/-- Every route runs over existing edges, no primary shares an intermediate die with its alternate, entries with s = d are zero (R60, R9). R60 names no rejection for such an entry that is not zero; it is refused as a route that does not run (DESIGN CHOICE, log 7). -/
def routesOk (c : Chart) : Bool :=
  (List.range 6).all fun a => (List.range 6).all fun b =>
    if a = b then c.zero 3 (4 * (6 * a + b)) 4
    else
      match c.routeVia a b false, c.routeVia a b true with
      | some p, some q => p.all fun d => !q.contains d
      | _, _ => false

/-- FLOTILLA's consistency rules (R65). -/
def flotillaOk (c : Chart) : Bool :=
  let own := c.flBerth
  let sp := c.spares
  c.occupied own && c.occupied c.flPilot && c.occupied c.flBackup &&
  (match c.flRole with
   | 0 => decide (own ≠ c.flPilot) && decide (own ≠ c.flBackup) && decide (c.flPilot ≠ c.flBackup)
   | 1 => decide (own = c.flPilot) && decide (own ≠ c.flBackup)
   | 2 => decide (own = c.flBackup) && decide (own ≠ c.flPilot)
   | _ => decide (own = c.flPilot) && decide (own = c.flBackup) && decide (c.fld 8 4 1 = 0) && decide (c.fld 8 0x10 32 = 2 ^ own)) &&
  !sp.contains c.flPilot && !sp.contains c.flBackup && sp.all (fun b => c.occupied b) && !repeats sp &&
  decide (c.fld 8 4 1 = sp.length)

/-- Lighters overlap neither each other nor the two regions (R64). -/
def lightersOk (c : Chart) : List (Nat × Nat × Nat) → Bool
  | [] => true
  | l :: ls => !overlap (l.1, l.2.1) c.hostRegion && !overlap (l.1, l.2.1) c.dumpRegion &&
      ls.all (fun m => !overlap (l.1, l.2.1) (m.1, m.2.1)) && lightersOk c ls

/-- Sum of a list. -/
def sumNat (l : List Nat) : Nat := l.foldl (fun a b => a + b) 0

/-- The fields agree with one another (code 0x0A). -/
def consistent (c : Chart) : Bool :=
  !repeats (c.parts.map fun e => e.part) && !repeats (c.parts.flatMap fun e => bitList e.mask 516) &&
  (List.range 512).all (fun u => (c.partOf u).isSome == decide (c.role u ≠ 0)) &&
  routesOk c &&
  !repeats (c.accounts.map fun a => a.1) && decide (sumNat (c.accounts.map fun a => a.2.2.1) ≤ 12288) &&
  decide (sumNat (c.accounts.map fun a => a.2.2.2) + c.lend * 1024 + c.hostRegion.2 / 2 ^ 20 + c.dumpRegion.2 / 2 ^ 20 +
    sumNat (c.lighters.map fun l => l.2.1 / 2 ^ 20) ≤ 1048576) &&
  c.memberHost 0 && !overlap c.hostRegion c.dumpRegion && lightersOk c c.lighters && flotillaOk c &&
  !repeats ((List.range (c.fld 0xB 0 2)).map fun i => c.fld 0xB (8 + 8 * i) 2) &&
  (decide (c.fld 0xD 0 1 ≠ 1) || c.memberHost (c.fld 0xD 1 1))

/-- An amendment's HOST or CDMA differs from the chart in effect (R62). -/
def cohBad (cx : ChartCx) (l : List RawSec) : Bool :=
  cx.amend && (match cx.cur with
    | none => false
    | some c => l.any fun r => decide (r.type = 5) &&
        (decide (fieldAt r.body 0x40 16 ≠ c.fld 5 0x40 16) || decide (fieldAt r.body 0x50 1 % 2 ≠ c.fld 5 0x50 1 % 2)))

/-- Sections replaced by those of an amendment. -/
def mergeSecs (old new : List (Nat × List Byte)) : List (Nat × List Byte) :=
  old.map fun e =>
    match new.find? (fun n => n.1 = e.1) with
    | some n => n
    | none => e

/-- The chart that would result (R78). -/
def resultChart (cx : ChartCx) (img : List Byte) : Chart :=
  let c := imgChart img
  if cx.amend then
    match cx.cur with
    | some o => { o with sections := mergeSecs o.sections c.sections }
    | none => c
  else c

/-- Reserved bytes of the header and of section headers are zero (R53, R54). -/
def headerReservedOk (img : List Byte) (l : List RawSec) : Bool :=
  decide (fieldAt img 0x1E 2 < 4) && decide (fieldAt img 0x29 7 = 0) && decide (fieldAt img 0xB0 80 = 0) &&
  l.all fun r => decide (r.reserved = 0)

/-- The reason of R86 for an image: 0 where every check passes, else the lowest code that applies. -/
def chartCheck (cx : ChartCx) (img : List Byte) : Nat :=
  let l := (imgSections img).getD []
  let c := resultChart cx img
  let isSealed := bitOf (fieldAt img 0x1E 2) 0
  if fieldAt img 0 4 ≠ 0x54524843 || fieldAt img 4 2 ≠ 1 then 0x01
  else if bad02 img then 0x02
  else if bad03 cx.idrev img then 0x03
  else if sha3_256 (img.take (imgSigAt img)) ≠ slice img (imgSigAt img + 8) 32 then 0x04
  else if bad05 cx.keyHash img then 0x05
  else if !cx.amend && fieldAt img 6 2 = 0 && fieldAt img 8 8 < cx.floor then 0x06
  else if bad07 cx img then 0x07
  else if bad08 cx.amend l then 0x08
  else if !headerReservedOk img l || !reservedOk c || !rangesOk c || periodBad cx img l then 0x09
  else if !consistent c || cohBad cx l then 0x0A
  else if !cx.amend && cx.life = .field && !isSealed then 0x0B
  else if cx.amend && !isSealed && (match cx.cur with | some o => o.sealed | none => false) then 0x0B
  else 0

/-! What an amendment touches (Table 3-2). -/

/-- The partitions that contain a tile of a mask in one of two charts. -/
def partsWith (old new : Chart) (tiles : Nat) : List Nat :=
  (List.range 64).filter fun p => (old.parts ++ new.parts).any fun e => decide (e.part = p) && decide (e.tiles &&& tiles ≠ 0)

/-- Tiles whose role changes. -/
def rolesChanged (old new : Chart) : Nat :=
  sumNat ((List.range 512).map fun u => if old.role u ≠ new.role u then 2 ^ u else 0)

/-- The partitions one section touches. -/
def touchedBy (old new : Chart) (t : Nat) : List Nat :=
  match t with
  | 0x1 => (List.range 64).filter fun p => decide (old.parts.find? (fun e => e.part = p) ≠ new.parts.find? (fun e => e.part = p))
  | 0x2 => partsWith old new (rolesChanged old new)
  | 0x5 => partsWith old new (old.fld 5 0 64 ^^^ new.fld 5 0 64)
  | _ => []

/-- The partitions an amendment touches. -/
def touchedParts (old amend : Chart) : List Nat :=
  let new := { old with sections := mergeSecs old.sections amend.sections }
  (List.range 64).filter fun p => amend.sections.any fun e => (touchedBy old new e.1).contains p

end Sys2Proof.Machine
end

