-- ==== Sys2Proof/Machine/Log.lean ====
section
/-! DEFINITION. Calendar time and the logbook: the stamp of a record, token buckets, floods, staging and tallies (R402 to R408). -/

namespace Sys2Proof.Machine

/-! Calendar time (R408). -/

/-- Nanoseconds since time was last set. -/
def timeElapsed (s : State) : Nat := (s.now - s.time.at_) / 4

/-- The uncertainty before the source becomes unknown. -/
def timeUncRaw (s : State) : Nat :=
  match s.time.src with
  | .ptp => max 50 s.time.unc
  | .host => s.time.unc + timeElapsed s / 1000000 * 50 + 31000 * s.time.resets
  | .holdover => s.time.unc + timeElapsed s / 1000000 * 50 + 31000 * s.time.resets
  | .unknown => 0xFFFF_FFFF

/-- Current calendar time in ns; it wraps with its register. -/
def taiNow (s : State) : Nat := (s.time.tai + timeElapsed s) % 2 ^ 64

/-- TIMESRC: unknown once UNCERT would exceed 0xFFFF_FFFE. -/
def timeSrcNow (s : State) : TimeSrc := if timeUncRaw s > 0xFFFF_FFFE then .unknown else s.time.src

/-- UNCERT. -/
def uncertNow (s : State) : Nat := if timeUncRaw s > 0xFFFF_FFFE then 0xFFFF_FFFF else timeUncRaw s

/-- TIMESRC of Table 19-3. -/
def TimeSrc.code : TimeSrc → Nat
  | .unknown => 0
  | .ptp => 1
  | .host => 2
  | .holdover => 3

/-! Codes and buckets. -/

/-- CODE of an event: block in [15:8], event number in [7:0] (R402); only the logbook's own two are fixed. -/
def LogKind.code (k : LogKind) : Nat :=
  match k with
  | .logFull => 0x1101
  | .logLost => 0x1102
  | k => (k.block.ctorIdx + 1) * 256 + (Config.eventNumber k.ctorIdx).toNat

/-- The RATELIM entries as (CODE, RATE, BURST) (R68). -/
def rateEntries (c : Chart) : List (Nat × Nat × Nat) :=
  (List.range (c.fld 0x000B 0 2)).map fun i =>
    (c.fld 0x000B (8 + 8 * i) 2, c.fld 0x000B (10 + 8 * i) 2, c.fld 0x000B (12 + 8 * i) 2)

/-- RATE and BURST of a code: its entry, else the defaults of the section; 16 and 64 where no chart is in effect (R68, R404). -/
def rateOf (s : State) (k : LogKind) : Nat × Nat :=
  match s.chart.cur with
  | none => (16, 64)
  | some c =>
    if (rateEntries c).any (fun e => e.1 = k.code) then
      match (rateEntries c).find? (fun e => e.1 = k.code) with
      | some e => e.2
      | none => (16, 64)
    else (c.fld 0x000B 2 2, c.fld 0x000B 4 2)

/-- One token, in the unit of `LogSt.deficits`. -/
def tokenUnit : Nat := 4000000000

/-- The tokens a bucket misses now. -/
def deficitNow (s : State) (k : LogKind) : Nat :=
  let d := Cells.get (0, 0) s.log.deficits k.ctorIdx
  d.1 - (rateOf s k).1 * (s.now - d.2)

/-- The bucket holds a whole token. -/
def hasToken (s : State) (k : LogKind) : Bool := decide (deficitNow s k + tokenUnit ≤ (rateOf s k).2 * tokenUnit)

/-! Records. -/

/-- An occurrence of an event: its code, DIE and ORIGIN, and what its rule says the record names, in the rule's order. -/
structure Occ where
  kind : LogKind
  die : Nat := 0xFF
  origin : Nat := 0xFFFF
  data : List Nat := []
deriving DecidableEq, Repr

/-- The record of an occurrence at an index; SEQ has passed 0, 1, 2 (R403). -/
def newRec (s : State) (o : Occ) (index count : Nat) (flood : Bool) : LogRec :=
  { index := index, seq := 2, tai := BitVec.ofNat 64 (taiNow s), unc := BitVec.ofNat 32 (uncertNow s), kind := o.kind,
    flood := flood, src := BitVec.ofNat 2 (timeSrcNow s).code, die := o.die,
    tide := BitVec.ofNat 48 (getF s TIDE_COUNT.COUNT), count := count, origin := o.origin, opened := s.now, final := !flood, data := o.data }

/-- A code's tally counts `n` more, up to 2^48 - 1 (R406). -/
def LogSt.tallied (l : LogSt) (k : LogKind) (n : Nat) : LogSt :=
  { l with tallies := Cells.put 0 l.tallies k.ctorIdx (satAdd 48 (Cells.get 0 l.tallies k.ctorIdx) n) }

/-- Staging has room (R407). -/
def LogSt.room (l : LogSt) : Bool := decide (l.staged.length < 8192)

/-- A record enters staging. -/
def LogSt.push (l : LogSt) (r : LogRec) : LogSt := { l with staged := l.staged ++ [r], count := l.count + 1 }

/-- Once the record at index 2,097,150 is written the full record follows at 2,097,151, and recording stops (R405). -/
def LogSt.fullCheck (s : State) (l : LogSt) : LogSt :=
  if l.count = 2097151 && !l.full then
    { (l.push (newRec s { kind := .logFull } 2097151 1 false)).tallied .logFull 1 with full := true }
  else l

/-- The open flood record of a code, by its index. -/
def LogSt.openFlood (l : LogSt) (k : LogKind) : Option Nat :=
  match l.staged.find? (fun r => decide (r.kind = k) && r.flood && !r.final) with
  | some r => some r.index
  | none => none

/-- A fold into an open flood record: COUNT + 1 in place, SEQ + 2 (R403, R404). -/
def LogRec.fold (r : LogRec) : LogRec := { r with count := (r.count + 1) % 2 ^ 32, seq := (r.seq + 2) % 2 ^ 32 }

/-- A bucket gives one token. -/
def LogSt.take (s : State) (l : LogSt) (k : LogKind) : LogSt :=
  { l with deficits := Cells.put (0, 0) l.deficits k.ctorIdx (deficitNow s k + tokenUnit, s.now) }

/-- An occurrence that can write no record: lost to full staging, or only tallied in a full logbook (R405, R407; both: Table 19-5). -/
def LogSt.lose (l : LogSt) : LogSt :=
  if l.room then l
  else { l with lost := l.lost + 1, lostPending := if l.full then l.lostPending else l.lostPending + 1 }

/-- The logbook after an occurrence (R404). -/
def logOccur (s : State) (o : Occ) : LogSt :=
  let l := s.log.tallied o.kind 1
  let canWrite := l.room && !l.full
  if hasToken s o.kind then
    if canWrite then LogSt.fullCheck s ((l.push (newRec s o l.count 1 false)).take s o.kind) else l.lose
  else
    match l.openFlood o.kind with
    | some i => { l with staged := l.staged.map fun r => if r.index = i then r.fold else r }
    | none =>
      if canWrite then LogSt.fullCheck s { l.push (newRec s o l.count 1 true) with floods := l.floods + 1 } else l.lose

/-- An event is logged, with the contents its rule names. -/
def logEv (k : LogKind) (die : Nat := 0xFF) (origin : Nat := 0xFFFF) (data : List Nat := []) : Act :=
  .ask fun s => .prim (.log fun _ => logOccur s { kind := k, die := die, origin := origin, data := data })

/-- The lost record that is due once staging has room, and then the full record where that was the last index but one (R407). -/
def LogSt.lostRecord (s : State) (l : LogSt) : LogSt :=
  if l.lostPending ≠ 0 && l.room && !l.full then
    LogSt.fullCheck s ({ l.push (newRec s { kind := .logLost } l.count l.lostPending false) with lostPending := 0 }.tallied .logLost 1)
  else l

/-- Final records leave staging for flash in order; what staging then has room for is written (R407). -/
def flushLog : Act :=
  .ask fun s =>
    Act.all [.prim (.flashLog (s.log.staged.filter fun r => r.final)),
      .prim (.log fun l => LogSt.lostRecord s { l with staged := l.staged.filter fun r => !r.final })]

/-- Open flood records close early, before staging is flushed for a whole-package reset or SB (R407). -/
def closeFloods : Act := .prim (.log fun l => { l with staged := l.staged.map fun r => { r with final := true } })

/-! Reading (R410). -/

/-- The record at an index: from staging, else from flash. -/
def logRecord (s : State) (i : Nat) : Option LogRec :=
  match s.log.staged.find? (fun r => r.index = i) with
  | some r => some r
  | none => s.flashLog.find? (fun r => r.index = i)

/-- Word `k` of a record (Table 19-3). -/
def LogRec.word (r : LogRec) (k : Nat) : W64 :=
  match k with
  | 0 => BitVec.ofNat 64 (r.seq + r.index * 2 ^ 32)
  | 1 => r.tai
  | 2 => BitVec.ofNat 64 (r.unc.toNat + r.kind.code * 2 ^ 32 + (b2n r.flood + r.src.toNat * 2) * 2 ^ 48 + r.die * 2 ^ 56)
  | 3 => BitVec.ofNat 64 r.tide.toNat
  | 4 => BitVec.ofNat 64 (r.count + (r.origin % 2 ^ 16) * 2 ^ 32)
  | k => Config.logArgs r.index r.kind.ctorIdx r.data (k - 5)

/-- LOG_RDDATA r k: an index at or above LOG_STAT.COUNT reads zeros. -/
def logReadWord (s : State) (r k : Nat) : W64 :=
  match logRecord s (getF s LOG_RDIDX.INDEX r) with
  | some x => x.word k
  | none => 0

/-- The tally of a code as LOG_TALLY reads it; codes the image never writes read 0. -/
def tallyOf (s : State) (code : Nat) (kinds : List LogKind) : Nat :=
  match kinds.find? (fun k => k.code = code) with
  | some k => Cells.get 0 s.log.tallies k.ctorIdx
  | none => 0

/-- ORIGIN of an agent's event: its unit, agent or port number, the coherent numbers of R255 among them (Table 19-3). -/
def agentOrigin : Agent → Nat
  | .host _ => 512
  | .control u => u.val
  | .engine u => u.val
  | .copyDma => 513
  | .pcie n => n.val
  | .hm _ => 0xFFFF
  | .debug => 0xFFFF
  | .partner _ => 0xFFFF

/-- An access fault: the requester gets it and one logbook record is due (R17). -/
def accessFault (who : Agent) (a : Addr) : Act := Act.all [send (.accessFault who a), logEv .accessFault 0xFF (agentOrigin who)]

end Sys2Proof.Machine
end

