-- ==== Sys2Proof/Machine/Chart.lean ====
section
/-! DEFINITION. The commands of the chart: amendments and CHART_FLASH (R78 to R84). What an amendment does at its boundary stands in Machine/Boundary.lean. -/

namespace Sys2Proof.Machine

/-- SHA3-256 of the key that verifies charts: the vendor key in FAB, in PROV before enrolment and in RETURN, else the owner key (R55, R411). -/
def chartKey (s : State) : List Byte :=
  match s.life, s.sec.ownerHash with
  | .prov, some k => k
  | .field, some k => k
  | _, _ => Config.vendorKeyHash

/-- What a chart is checked against. -/
def chartCx (s : State) (amend : Bool) : ChartCx :=
  { idrev := (getReg s .IDREV 0 0).toNat, keyHash := chartKey s, life := s.life, floor := s.floor.toNat, amend := amend, cur := s.chart.cur }

/-- An image in warehouse: as many bytes as its LENGTH names, at most 1 MiB, at least a header (R52). -/
def readImage (s : State) (a : Addr) : List Byte :=
  readMem s a.toNat (max 256 (min (readNat s (a.toNat + 0x18) 4) (2 ^ 20)))

/-- Update of the chart's state. -/
def updChart (f : ChartSt → ChartSt) : Act := .prim (.chart f)

/-- The amendment in hand ends with AMEND = 5 and a reason. -/
def amendEnd (reason : Nat) : Act :=
  Act.all [setF CHART_STAT.AMEND 5, setF CHART_STAT.REASON reason, setF TIDE_PERIOD.NEXT 0, setF CHART_DRAIN.PART 0,
    setF CHART_DEFER.PART 0, updChart fun c => { c with checking := none, staged := none, waitingParts := [], appliedFirst := false }]

/-- A rejection: AMEND = 5, REASON, AMENDREJ and a record (R78). -/
def amendReject (reason : Nat) : Act :=
  Act.all [amendEnd reason, evt CHART_EVT.AMENDREJ, logEv (if reason = 0x0E then .amendDrained else .amendRejected)]

/-- CHART_AMEND.GO with an address: rejected in fallback (R75) and while one is busy (R79), else the check starts (R78). -/
def amendGo (addr : Addr) : Act :=
  .seq (setF CHART_AMEND.ADDR (addr.toNat / 64)) (.ask fun s =>
    if getF s CHART_STAT.STATE = 2 then amendReject 0x07
    else if getF s CHART_STAT.AMEND = 1 || getF s CHART_STAT.AMEND = 2 || getF s CHART_STAT.AMEND = 3 then
      Act.all [setF CHART_STAT.REASON 0x0D, evt CHART_EVT.AMENDREJ, logEv .amendRejected]
    else Act.all [setF CHART_STAT.AMEND 1, updChart fun c => { c with checking := some addr }])

def execChartAmendGo (addr : Addr) (s : State) : Host.Outcome State Fault Refusal := .next (run (amendGo addr) s)

/-- The first boundary whose T - 1.0 µs is still ahead (R80). -/
def firstBoundary (s : State) : Nat := getF s TIDE_COUNT.COUNT + (if s.tide.closed then 2 else 1)

/-- The boundary an amendment names: its EFFECTIVE, or the first it can reach (R78). -/
def amendBoundary (s : State) (c : Chart) : Nat := if c.effective = 0 then firstBoundary s else c.effective.toNat

/-- The period an amendment changes to, 0 where it changes none. -/
def amendPeriod (s : State) (c : Chart) : Nat :=
  match c.sections.find? (fun e => e.1 = 9) with
  | some e => if fieldAt e.2 0 2 = (theChart s).period then 0 else fieldAt e.2 0 2
  | none => 0

/-- The service core finishes a check: staged, late (0x0C) or rejected (R78, R80). -/
def amendCheckDone : Act :=
  .ask fun s =>
    match s.chart.checking with
    | none => .skip
    | some a =>
      let img := readImage s a
      let reason := chartCheck (chartCx s true) img
      let c := imgChart img
      if reason ≠ 0 then amendReject reason
      else if amendBoundary s c < firstBoundary s then amendReject 0x0C
      else
        Act.all [setF CHART_STAT.AMEND 2, setF CHART_EFFECT.TIDE (amendBoundary s c), setF TIDE_PERIOD.NEXT (amendPeriod s c),
          setF CHART_DRAIN.PART (if c.sections.any (fun e => isClassD e.1) then
            sumNat ((touchedParts (theChart s) c).map fun p => 2 ^ p) else 0),
          updChart fun h => { h with checking := none, staged := some c, waitingParts := [], appliedFirst := false }]

def execAmendCheckDone (s : State) : Host.Outcome State Fault Refusal := .next (run amendCheckDone s)

/-- CANCEL takes effect while AMEND reads 2, no later than T - 1.0 µs of the boundary (R79). -/
def amendCancel : Act :=
  .ask fun s =>
    if getF s CHART_STAT.AMEND = 2 && firstBoundary s ≤ getF s CHART_EFFECT.TIDE then
      Act.all [amendEnd 0x0F, logEv .amendCancelled]
    else .skip

def execChartAmendCancel (s : State) : Host.Outcome State Fault Refusal := .next (run amendCancel s)

/-- Boundary N + 1,024 of a class D amendment that has not taken effect (R82). -/
def amendDrainTimeout : Act :=
  .ask fun s =>
    match s.chart.staged with
    | some c =>
      if c.sections.any (fun e => isClassD e.1) && getF s CHART_EFFECT.TIDE + 1024 ≤ getF s TIDE_COUNT.COUNT then amendReject 0x0E
      else .skip
    | none => .skip

def execAmendDrainTimeout (s : State) : Host.Outcome State Fault Refusal := .next (run amendDrainTimeout s)

/-- CHART_FLASH.GO: refused with FREASON 0x0D while FLASH reads 1, else the check of the image starts (R84). -/
def flashGo (addr : Addr) : Act :=
  .seq (setF CHART_FLASH.ADDR (addr.toNat / 64)) (.ask fun s =>
    if getF s CHART_STAT.FLASH = 1 then Act.all [setF CHART_STAT.FREASON 0x0D, logEv .chartFlashRefused]
    else Act.all [setF CHART_STAT.FLASH 1, updChart fun c => { c with flashAddr := some addr, flashImage := none }])

def execChartFlashGo (addr : Addr) (s : State) : Host.Outcome State Fault Refusal := .next (run (flashGo addr) s)

/-- The check of a CHART_FLASH image as under R72: an image that passes is then written, one that fails is written to no slot (R84). -/
def flashCheckDone : Act :=
  .ask fun s =>
    match s.chart.flashAddr with
    | none => .skip
    | some a =>
      let img := readImage s a
      let reason := chartCheck (chartCx s false) img
      if reason = 0 then updChart fun c => { c with flashAddr := none, flashImage := some (img.take (imgLength img)) }
      else Act.all [setF CHART_STAT.FLASH 3, setF CHART_STAT.FREASON reason, evt CHART_EVT.FLASHFAIL, updChart fun c => { c with flashAddr := none }]

def execChartFlashCheckDone (s : State) : Host.Outcome State Fault Refusal := .next (run flashCheckDone s)

/-- The slot a CHART_FLASH writes: the one not loaded at the last boot; in fallback A first, then alternating (R84): a write that fails in programming counts, an image whose check fails does not (DESIGN CHOICE, log 8). True is slot B. -/
def flashSlot (s : State) : Bool :=
  match s.chart.loadedB with
  | some b => !b
  | none => s.chart.fallbackWrites % 2 = 1

/-- The slot write ends. A programming failure leaves a slot that fails its check, modelled as an empty one (R84, log 8); SLOT reads the slot last written in fallback, as Table 3-7 has it. -/
def flashWriteDone (ok : Bool) : Act :=
  .ask fun s =>
    match s.chart.flashImage with
    | none => .skip
    | some img =>
      let b := flashSlot s
      let put := updChart fun c =>
        { c with flashImage := none, slotA := if b then c.slotA else (if ok then img else []), slotB := if b then (if ok then img else []) else c.slotB,
                 fallbackWrites := c.fallbackWrites + 1 }
      if ok then
        Act.all [put, setF CHART_STAT.FLASH 2, Act.when s.chart.loadedB.isNone (setF CHART_STAT.SLOT (b2n b))]
      else Act.all [put, setF CHART_STAT.FLASH 3, setF CHART_STAT.FREASON 0, evt CHART_EVT.FLASHFAIL]

def execChartFlashWriteDone (ok : Bool) (s : State) : Host.Outcome State Fault Refusal := .next (run (flashWriteDone ok) s)

end Sys2Proof.Machine
end

