-- ==== Sys2Proof/Machine/Links.lean ====
section
/-! DEFINITION. Die links: lane frames, dropped lanes, training, edges down and fenced, routes (R273 to R284). -/

namespace Sys2Proof.Machine

/-- An edge, and its update. -/
def edgeSt (s : State) (e : Nat) : EdgeSt := Cells.get {} s.link.edges e
def updEdge (e : Nat) (f : EdgeSt → EdgeSt) : Act :=
  .prim (.link fun l => { l with edges := Cells.put {} l.edges e (f (Cells.get {} l.edges e)) })

/-- The lanes in use of a direction. -/
def EdgeSt.lanes (x : EdgeSt) (dir : Bool) : List Nat := if dir then x.lanesBA else x.lanesAB
def EdgeSt.withLanes (x : EdgeSt) (dir : Bool) (l : List Nat) : EdgeSt := if dir then { x with lanesBA := l } else { x with lanesAB := l }

/-- An edge is in service. -/
def edgeUp (s : State) (e : Nat) : Bool := getF s D2D_EDGE.STATE e = 0

/-- Die `d` is down or held in reset as ID_DIEMAP reads; the host and I/O dies count as up. -/
def dieDown (s : State) (d : Nat) : Bool := d < 4 && (let v := bitsOf (getReg s .ID_DIEMAP 0 0).toNat (2 * d) 2; v = 2 || v = 3)

/-- The primary route of a pair of dies crosses an edge that is not in service or a die that is down (R60, R281). -/
def primaryBroken (s : State) (a b : Nat) : Bool :=
  let w := (theChart s).routeWord a b false
  (routeHops w).any (fun e => !edgeUp s e) || (((theChart s).routeVia a b false).getD []).any fun d => dieDown s d

/-- The pairs of dies. -/
def diePairs : List (Nat × Nat) := (List.range 6).flatMap fun a => ((List.range 6).filter fun b => a ≠ b).map fun b => (a, b)

/-- Pairs whose primary route is broken take the alternate route. -/
def reroute : Act :=
  .ask fun s => .prim (.link fun l => { l with alt := diePairs.filter fun p => l.alt.contains p || primaryBroken s p.1 p.2 })

/-! Down and fenced edges (R282, R283). -/

/-- The die of an agent, and of a home by an address of its memory (Tables 1-1, 1-2, 11-1). -/
def agentDie : Agent → Nat
  | .host _ => 4
  | .control u => u.val / 128
  | .engine u => if u.val < 512 then u.val / 128 else if u.val = 513 then 5 else 4
  | _ => 5
def cacheDie (a : Nat) : Nat := if a < 512 then a / 128 else if a = 512 then 4 else 5
def homeDie (a : Nat) : Option Nat := if isWarehouse a then some (bitsOf a 38 2) else if isQuay a then some (quayDie a) else none

/-- The route in use from a die to the home of an address crosses an edge. -/
def crosses (s : State) (e d a : Nat) : Bool :=
  match homeDie a with
  | some h => (routeHops ((theChart s).routeWord d h (s.link.alt.contains (d, h)))).contains e
  | none => false

/-- An agent no longer waits for a line. -/
def wantEnds (a line : Nat) : Act := updAgent a fun x => { x with wants := Cells.del x.wants line }

/-- Requests across an edge that have had no response end as access faults (R17, R283). -/
def edgeFaults (e : Nat) : Act :=
  .ask fun s =>
    let reqs := s.coh.reqs.filter fun r => crosses s e (cacheDie r.1) (r.2.1 * 64)
    let waits := s.tier.waits.filter fun w => crosses s e (agentDie w.who) w.addr.toNat
    Act.all [.prim (.coh fun c => { c with reqs := c.reqs.filter fun r => !reqs.contains r }),
      .prim (.tier fun t => { t with waits := t.waits.filter fun w => !waits.contains w }),
      Act.each (fun (r : Nat × Nat × ReqKind) => Act.all [wantEnds r.1 r.2.1, send (.agentFault r.1 (BitVec.ofNat 48 (r.2.1 * 64))), logEv .accessFault 0xFF r.1]) reqs,
      Act.each (fun (w : WaitAcc) => Act.all [match w.job, w.who with
          | .req _, .control u => wantEnds u.val (w.addr.toNat / 64)
          | .req _, _ => wantEnds 512 (w.addr.toNat / 64)
          | _, _ => .skip,
        accessFault w.who w.addr]) waits]

/-- An edge goes down (2) or fences (3): the surviving port stops, requests across the edge fault, and the harbourmaster records it, once (R282, R283). -/
def edgeStops (e state : Nat) : Act :=
  .given (fun s => decide (getF s D2D_EDGE.STATE e ≠ state)) (Act.all [setF D2D_EDGE.STATE state e, setF D2D_EDGE.WIDTH 0 e, updEdge e fun _ => {},
    setBitF D2D_EVT.DOWN e true, logEv .edgeDown (data := [e]), edgeFaults e, reroute])

/-! Lane frames (R276 to R278). -/

/-- The CRC of a lane frame: UI by UI, the valid bit first, then data bits 511 down to 0 (R277). -/
def frameCrc (frame : List (Bool × Desc)) : BitVec 16 :=
  frame.foldl (fun c u => (List.range 512).foldl (fun c k => crc16Bit c (u.2.getLsbD (511 - k))) (crc16Bit c u.1)) 0xFFFF

/-- A lane frame is whole: 16 UI and its CRC. -/
def frameGood (frame : List (Bool × Desc)) (crc : BitVec 16) : Bool := frame.length = 16 && frameCrc frame = crc

/-- The number of a lane among both directions' lanes. -/
def laneKey (dir : Bool) (lane : Nat) : Nat := (if dir then 4 else 0) + lane

/-- The lanes a direction merges: those in use, and those out of use with good frames left (DEDUCED, log 65). -/
def EdgeSt.merged (x : EdgeSt) (dir : Bool) : List Nat := (List.range 4).filter fun l => (x.lanes dir).contains l || !(Cells.get [] x.rx (laneKey dir l)).isEmpty

/-- The flits of one frame of each lane, merged in rotation by UI; a UI without the valid wire has none (R276). -/
def mergeFlits (frames : List (List (Bool × Desc))) : List Desc :=
  (List.range 16).flatMap fun u => frames.filterMap fun f => match f[u]? with | some (true, d) => some d | _ => none

/-- Merging goes on where every lane in use has its next frame: its flits leave the edge (R276, R277). -/
def edgeMerge (e : Nat) (dir : Bool) : Act :=
  .ask fun s =>
    let x := edgeSt s e
    let heads := (x.merged dir).filterMap fun l => (Cells.get [] x.rx (laneKey dir l)).head?
    if (x.merged dir).length = heads.length then
      Act.all [updEdge e fun y => { y with rx := (y.merged dir).foldl (fun m l => Cells.put [] m (laneKey dir l) ((Cells.get [] m (laneKey dir l)).drop 1)) y.rx },
        send (.edgeFlits e dir (mergeFlits heads))]
    else .skip

/-- A receiver checks a frame of a lane in use. A good one is acknowledged and waits to be merged; once a frame has failed, those that follow it are discarded until the resent ones come. The eighth failure within 1 ms makes the lane bad: a drop notice is sent, or the edge goes down where it has no other lane. -/
def laneFrame (e : Nat) (dir : Bool) (lane : Nat) (frame : List (Bool × Desc)) (crc : BitVec 16) : Act :=
  .ask fun s =>
    let x := edgeSt s e
    let k := laneKey dir lane
    let failed := x.naks.contains (dir, lane)
    if !edgeUp s e || !(x.lanes dir).contains lane then .skip
    else if frameGood frame crc then
      (if failed then .skip
       else Act.all [updEdge e fun y => { y with rx := Cells.ins y.rx k (Cells.get [] y.rx k ++ [frame]) }, send (.laneAck e dir lane), edgeMerge e dir])
    else
      let t := s.now :: (Cells.get [] x.fails k).filter fun t => s.now < t + 4000000
      let bad := decide (8 ≤ t.length)
      Act.all [incF D2D_ERR.CRCFAIL 1 e,
        if bad && decide ((x.lanes dir).length ≤ 1) then edgeStops e 2
        else updEdge e fun y =>
          { y with naks := if failed then y.naks else y.naks ++ [(dir, lane)], fails := Cells.put [] y.fails k (if bad then [] else t),
                   notices := if bad && !y.notices.contains (dir, lane) then y.notices ++ [(dir, lane)] else y.notices }]

def execLaneFrameReceive (e : Fin 8) (dir : Bool) (lane : Fin 4) (frame : List (Bool × Desc)) (crc : BitVec 16) (s : State) :
    Host.Outcome State Fault Refusal := .next (run (laneFrame e.val dir lane.val frame crc) s)

/-- A negative acknowledgement reaches the transmitter, which resends the failed frame and every later one of the lane. -/
def laneNak (e : Nat) (dir : Bool) (lane resent : Nat) : Act :=
  .ask fun s =>
    if (edgeSt s e).naks.contains (dir, lane) then
      Act.all [updEdge e fun x => { x with naks := x.naks.erase (dir, lane) }, incF D2D_ERR.RESENT (min 64 resent) e]
    else .skip

def execLaneNakReceive (e : Fin 8) (dir : Bool) (lane : Fin 4) (resent : Fin 65) (s : State) : Host.Outcome State Fault Refusal :=
  .next (run (laneNak e.val dir lane.val resent.val) s)

/-- The lanes that stay in use: without the bad lane in the direction that found it, without the highest-numbered one in the other. -/
def lanesLeft (l : List Nat) (bad : Option Nat) : List Nat :=
  match bad with
  | some b => l.filter fun x => x ≠ b
  | none => l.dropLast

/-- A drop notice takes effect: both directions lose a lane, and every unacknowledged frame is resent (R278). A notice for a lane that is out of use already changes nothing, so both directions keep one width (R274). -/
def dropNotice (e : Nat) (dir : Bool) (lane resent : Nat) : Act :=
  .ask fun s =>
    let x := edgeSt s e
    if edgeUp s e && x.notices.contains (dir, lane) then
      if !(x.lanes dir).contains lane then updEdge e fun y => { y with notices := y.notices.erase (dir, lane) }
      else if (x.lanes dir).length ≤ 1 then edgeStops e 2
      else
        let gone := laneKey dir lane :: ((x.lanes (!dir)).getLast?.map fun l => laneKey (!dir) l).toList
        Act.all [updEdge e fun y =>
            { (y.withLanes dir (lanesLeft (y.lanes dir) (some lane))).withLanes (!dir) (lanesLeft (y.lanes (!dir)) none) with
              notices := y.notices.erase (dir, lane), naks := [], fails := y.fails.filter fun f => !gone.contains f.1 },
          incF D2D_ERR.RESENT (min 256 resent) e, modF D2D_EDGE.WIDTH (fun w => w - 1) e,
          setBitF D2D_EVT.NARROWED e true, logEv .edgeNarrowed (data := [e])]
    else .skip

def execDropNotice (e : Fin 8) (dir : Bool) (lane : Fin 4) (resent : Fin 257) (s : State) : Host.Outcome State Fault Refusal :=
  .next (run (dropNotice e.val dir lane.val resent.val) s)

/-! Training (R279, R280). -/

/-- An edge leaves service and trains. -/
def edgeTrain (e : Nat) : Act :=
  Act.all [setF D2D_EDGE.STATE 1 e, setF D2D_EDGE.WIDTH 0 e, setF D2D_EDGE.FAILS 0 e, setF D2D_EDGE.MAPAB 0 e, setF D2D_EDGE.MAPBA 0 e,
    updEdge e fun _ => {}, reroute]

/-- D2D_CTL.RETRAIN is ignored while the edge is fenced. -/
def d2dRetrain (e : Nat) : Act := .ask fun s => Act.when (decide (getF s D2D_EDGE.STATE e ≠ 3)) (edgeTrain e)
def execD2dCtlRetrain (e : Fin 8) (s : State) : Host.Outcome State Fault Refusal := .next (run (d2dRetrain e.val) s)

/-- The good lanes of a receive map, lowest first. -/
def goodLanes (m : BitVec 4) : List Nat := bitList m.toNat 4

/-- The failed wires of a group of a direction, 0..31, eight to a lane; what the list does not name has none. -/
def groupFails (failed : List Nat) (g : Nat) : Nat := failed.getD g 0

/-- The receive map after repair: a lane is good where each of its groups has at most two failed wires, its spare wires among them (R279). -/
def repairMap (failed spares : List Nat) : BitVec 4 :=
  BitVec.ofNat 4 (sumNat (((List.range 4).filter fun l => (List.range 8).all fun k => decide (groupFails failed (8 * l + k) + groupFails spares (8 * l + k) ≤ 2)).map fun l => 2 ^ l))

/-- The spare wires in use: in each group as many as data wires failed, up to the spares that work (R279, log 64). -/
def sparesUsed (failed spares : List Nat) : Nat := sumNat ((List.range 32).map fun g => min (2 - groupFails spares g) (groupFails failed g))

/-- The edge runs at a width on lanes of each direction; its clock has locked (R15). -/
def edgeRuns (e : Nat) (ab ba : List Nat) (forced : Bool) : Act :=
  Act.all [setF D2D_EDGE.STATE 0 e, setF D2D_EDGE.WIDTH ab.length e, .prim (.rst fun r => { r with clkLost := r.clkLost.filter fun k => k ≠ 6 + e }),
    updEdge e fun _ => { lanesAB := ab, lanesBA := ba, forced := forced }]

/-- An attempt fails; after the third the edge runs forced at 1/4 on each receiver's lowest good lane, or is down where a direction has none. -/
def attemptFails (e : Nat) (ab ba : BitVec 4) : Act :=
  .ask fun s =>
    let n := (edgeSt s e).attempt + 1
    Act.all [setF D2D_EDGE.FAILS n e,
      if n = 3 then
        if (goodLanes ab).isEmpty || (goodLanes ba).isEmpty then edgeStops e 2
        else Act.all [edgeRuns e ((goodLanes ab).take 1) ((goodLanes ba).take 1) true, setBitF D2D_EVT.FORCEDQ e true, logEv .edgeForced (data := [e])]
      else updEdge e fun _ => { attempt := n }]

/-- A receiver has tested and repaired its wires, and its map arrives; once both maps are there the sides name their lanes and the confirm starts. `failed` gives the failed data wires of each group, `spares` its failed spare wires. -/
def receiveMap (e : Nat) (dir : Bool) (failed spares : List Nat) : Act :=
  .ask fun s =>
    if getF s D2D_EDGE.STATE e ≠ 1 || (edgeSt s e).confirming then .skip
    else
      Act.all [if dir then setF D2D_EDGE.MAPBA (repairMap failed spares).toNat e else setF D2D_EDGE.MAPAB (repairMap failed spares).toNat e,
        if dir then setF D2D_REPAIR.SPARESBA (sparesUsed failed spares) e else setF D2D_REPAIR.SPARESAB (sparesUsed failed spares) e,
        updEdge e fun x => if dir then { x with mapBA := some (repairMap failed spares) } else { x with mapAB := some (repairMap failed spares) },
        .ask fun t =>
          match (edgeSt t e).mapAB, (edgeSt t e).mapBA with
          | some ab, some ba =>
            let w := min (goodLanes ab).length (goodLanes ba).length
            if w = 0 then edgeStops e 2
            else updEdge e fun x => { x with confirming := true, lanesAB := (goodLanes ab).take w, lanesBA := (goodLanes ba).take w }
          | _, _ => .skip]

def execReceiveMap (e : Fin 8) (dir : Bool) (failed spares : List Nat) (s : State) : Host.Outcome State Fault Refusal :=
  .next (run (receiveMap e.val dir failed spares) s)

/-- No map arrives within 10 µs; the maps are what each receiver found of the failed wires of each group, spare wires among them. -/
def mapTimeout (e : Nat) (ab ba : BitVec 4) : Act :=
  .ask fun s => Act.when (decide (getF s D2D_EDGE.STATE e = 1) && !(edgeSt s e).confirming) (attemptFails e ab ba)

def execMapTimeout (e : Fin 8) (failedAB failedBA : List Nat) (s : State) : Host.Outcome State Fault Refusal :=
  .next (run (mapTimeout e.val (repairMap failedAB []) (repairMap failedBA [])) s)

/-- The confirm frames finish. -/
def confirmDone (e : Nat) (ok : Bool) : Act :=
  .ask fun s =>
    let x := edgeSt s e
    if getF s D2D_EDGE.STATE e = 1 && x.confirming then
      if ok then edgeRuns e x.lanesAB x.lanesBA false else attemptFails e (x.mapAB.getD 0) (x.mapBA.getD 0)
    else .skip

def execConfirmDone (e : Fin 8) (ok : Bool) (s : State) : Host.Outcome State Fault Refusal := .next (run (confirmDone e.val ok) s)

/-- The pairs whose primary route crosses an edge and is whole again return to it (R281). -/
def routeRestore (e : Nat) : Act :=
  .ask fun s => .prim (.link fun l =>
    { l with alt := l.alt.filter fun p => primaryBroken s p.1 p.2 || !(routeHops ((theChart s).routeWord p.1 p.2 false)).contains e })

def execRouteRestore (e : Fin 8) (s : State) : Host.Outcome State Fault Refusal := .next (run (routeRestore e.val) s)

/-- A request held for a revision 2 tag crosses E6 or E7 (R284, log 27). -/
def tagFree (e : Nat) : Act :=
  .ask fun s => Act.when (decide (6 ≤ e) && decide (getF s IDREV.NOCREV = 2)) (incF D2D_ERR.TAGWAIT 1 e)

def execRev2TagFree (e : Fin 8) (s : State) : Host.Outcome State Fault Refusal := .next (run (tagFree e.val) s)

end Sys2Proof.Machine
end

