-- ==== Sys2Proof/Machine/Port.lean ====
section
/-! DEFINITION. Hural ports as transmitters: flits, credits, replay, framing, routes, and sending a message (R342 to R352). -/

namespace Sys2Proof.Machine

/-- Update of the Hural state. -/
def updHural (f : HuralSt → HuralSt) : Act := .prim (.hural f)

/-- A port, and its update. -/
def portSt (s : State) (n : Nat) : PortSt := Cells.get {} s.hural.ports n
def updPort (n : Nat) (f : PortSt → PortSt) : Act :=
  .prim (.hural fun h => { h with ports := Cells.put {} h.ports n (f (Cells.get {} h.ports n)) })

/-- STATE of a port: open, or open but quiescent. -/
def portState (s : State) (n : Nat) : Nat := getF s HURAL_STAT.STATE n
def sessionUp (s : State) (n : Nat) : Bool := portState s n = 3 || portState s n = 4

/-- This package's berth address in SRC: the one it serves. -/
def ownBerth (s : State) : Nat := getF s SHD_STAT.SERVING

/-- Messages for berth address `d` are for this package (R351, R352). -/
def servesBerth (s : State) (d : Nat) : Bool :=
  d = ownBerth s || d = (theChart s).flBerth || getF s HURAL_ALIAS.SERVER 0 d = (theChart s).flBerth

/-! Messages as flits (Tables 16-2, 16-3). -/

/-- The operations of Table 16-3 with their virtual channel. -/
def opChannel (op : Nat) : Option Nat :=
  if [0x10, 0x11, 0x12, 0x13, 0x14, 0x15, 0x23].contains op then some 0
  else if [0x01, 0x03, 0x20, 0x22].contains op then some 1
  else if [0x02, 0x04, 0x05, 0x21].contains op then some 2
  else if op = 0x30 then some 3
  else none

/-- The virtual channel of a message. -/
def HMsg.vc (m : HMsg) : Nat := (opChannel m.op).getD 0

/-- The operations whose message carries LEN data bytes. -/
def opCarries (op : Nat) : Bool := op = 0x01 || op = 0x04 || op = 0x30

/-- Data bytes of a message. -/
def HMsg.size (m : HMsg) : Nat := if opCarries m.op then m.len else 0

/-- Flits of a message of `n` data bytes: 212 in the first, 228 in each other. -/
def flitsOf (n : Nat) : Nat := 1 + (n - 212 + 227) / 228

/-- The message header; FLAGS[0] is set where the first flit is the last (log 29). -/
def HMsg.header (m : HMsg) : List Byte :=
  natLe m.op 1 ++ natLe (if flitsOf m.size = 1 then 1 else 0) 1 ++ natLe m.len 2 ++ natLe m.src 1 ++ natLe m.dst 1 ++ natLe m.txn 2 ++ natLe m.addr 8

/-- A list cut or filled with zeros to `n` bytes. -/
def fitTo (n : Nat) (l : List Byte) : List Byte := (l ++ List.replicate (n - l.length) 0).take n

/-- BODY of flit `k` of a message. -/
def HMsg.body (m : HMsg) (k : Nat) : List Byte :=
  if k = 0 then fitTo 228 (m.header ++ m.data.take 212) else fitTo 228 (slice m.data (212 + 228 * (k - 1)) 228)

/-- Receive buffer of a virtual channel, in flits (R343). -/
def vcBuffer (vc : Nat) : Nat := [64, 512, 512, 1024].getD vc 0

/-- The key of a sequence number: the newest that starts at or below it. -/
def keyAt (l : List SessKey) (seq : Nat) : SessKey := (l.find? fun k => k.start ≤ seq).getD (⟨0, [], []⟩ : SessKey)

/-- The nonce of a sequence number (R346). -/
def SessKey.nonce (k : SessKey) (seq : Nat) : List Byte := k.salt ++ natLe seq 8

/-- A virtual channel that owes credits, and how many a flit carries. -/
def PortSt.credit (p : PortSt) : Nat × Nat :=
  match p.owed.find? fun e => e.2 ≠ 0 with
  | some e => (e.1, min e.2 0xFFFF)
  | none => (0, 0)

/-- A flit is built, sealed under the key of its sequence number, kept for replay, and takes the next number. -/
def PortSt.emit (p : PortSt) (now kind vc : Nat) (body : List Byte) : PortSt × List Byte :=
  let c := p.credit
  let hdr := natLe (kind + vc * 4 + c.1 * 16 + c.2 * 2 ^ 16 + ((p.rxSeq + 0xFFFF) % 2 ^ 16) * 2 ^ 32 + (p.txSeq % 2 ^ 16) * 2 ^ 48) 8
  let k := keyAt p.txKeys p.txSeq
  let sealed := gcmSeal k.key (k.nonce p.txSeq) hdr (fitTo 228 body)
  let head := hdr ++ sealed.1 ++ sealed.2
  let bytes := head ++ natLe (crc32 head).toNat 4
  ({ p with
      txSeq := p.txSeq + 1
      owed := Cells.put 0 p.owed c.1 (Cells.get 0 p.owed c.1 - c.2)
      replay := (p.replay ++ [({ seq := p.txSeq, time := now, bytes := bytes } : RepFlit)]).drop (p.replay.length + 1 - 1024) }, bytes)

/-- The credits a transmitter holds for a virtual channel. -/
def PortSt.creditOf (p : PortSt) (vc : Nat) : Nat := Cells.get 0 p.credits vc

/-- As many flits of a message as credits and the replay buffer allow, at most `n`: the port, the message where flits remain, the flits. -/
def PortSt.sendSome (now : Nat) : Nat → PortSt → TxMsg → PortSt × Option TxMsg × List (List Byte)
  | 0, p, m => (p, if m.sent < flitsOf m.msg.size then some m else none, [])
  | n + 1, p, m =>
    if flitsOf m.msg.size ≤ m.sent then (p, none, [])
    else if p.creditOf m.msg.vc = 0 || p.acked + 1024 ≤ p.txSeq then (p, some m, [])
    else
      let q := { p with credits := Cells.put 0 p.credits m.msg.vc (p.creditOf m.msg.vc - 1) }
      let e := q.emit now (if m.sent = 0 then 1 else 2) m.msg.vc (m.msg.body m.sent)
      let r := PortSt.sendSome now n e.1 { m with sent := m.sent + 1 }
      (r.1, r.2.1, e.2 :: r.2.2)

/-- The messages of a queue in order; one that cannot go on holds back those of its virtual channel only. -/
def PortSt.sendAll (now : Nat) (blocked : List Nat) : PortSt → List TxMsg → PortSt × List TxMsg × List (List Byte)
  | p, [] => (p, [], [])
  | p, m :: ms =>
    if blocked.contains m.msg.vc then
      let r := PortSt.sendAll now blocked p ms
      (r.1, m :: r.2.1, r.2.2)
    else
      let x := PortSt.sendSome now 24 p m
      match x.2.1 with
      | none =>
        let r := PortSt.sendAll now blocked x.1 ms
        (r.1, r.2.1, x.2.2 ++ r.2.2)
      | some m' =>
        let r := PortSt.sendAll now (m.msg.vc :: blocked) x.1 ms
        (r.1, m' :: r.2.1, x.2.2 ++ r.2.2)

/-! Framing (R348, R349). -/

/-- MAXFLITS as the port treats it. -/
def maxFlits (s : State) (n : Nat) : Nat := max 1 (min 8 (getF s HURAL_ETH.MAXFLITS n))

/-- The Ethernet header in front of the flits: addresses, tag, EtherType. -/
def ethHeader (s : State) (n : Nat) : List Byte :=
  natBe (getF s HURAL_PEERMAC.ADDR n) 6 ++ natBe (getF s HURAL_MAC.ADDR n) 6 ++
  (if getB s HURAL_ETH.VLANEN n then [0x81, 0x00] ++ natBe (getF s HURAL_ETH.PCP n * 2 ^ 13 + getF s HURAL_ETH.VID n) 2 else []) ++
  natBe (getF s HURAL_ETH.ETYPE n) 2

/-- A frame of a group of flits, with its FCS. -/
def ethFrame (s : State) (n : Nat) (flits : List (List Byte)) : List Byte :=
  let f := ethHeader s n ++ natLe 1 1 ++ natLe flits.length 1 ++ List.replicate 6 0 ++ flits.flatten
  f ++ natLe (crc32 f).toNat 4

/-- A list in groups of at most `k`, `fuel` of them. -/
def groupsOf (k : Nat) : Nat → List (List Byte) → List (List (List Byte))
  | 0, _ => []
  | fuel + 1, l => if l.isEmpty then [] else l.take k :: groupsOf k fuel (l.drop k)

/-- Flits leave a port, bare or in Ethernet frames. -/
def putFlits (n : Nat) (l : List (List Byte)) : Act :=
  .ask fun s =>
    if getB s HURAL_CFG.MODE n then Act.each (fun g => send (.ethFrame n (ethFrame s n g))) (groupsOf (maxFlits s n) l.length l)
    else Act.each (fun f => send (.flit n f)) l

/-- A queue in the order in which it is sent: a copy for a holder that has not begun comes after the job's traffic (R359). The package's own BULK messages are these copies. -/
def sendOrder (own : Nat) (l : List TxMsg) : List TxMsg :=
  let low := fun (m : TxMsg) => m.msg.op = 0x30 && m.msg.src = own && m.sent = 0
  (l.filter fun m => !low m) ++ l.filter low

/-- A port sends what its credits allow while its session is up. -/
def pump (n : Nat) : Act :=
  .ask fun s =>
    if portState s n = 3 then
      let p := portSt s n
      let r := PortSt.sendAll s.now [] p (sendOrder (ownBerth s) p.queue)
      Act.all [updPort n fun _ => { r.1 with queue := r.2.1 }, putFlits n r.2.2]
    else .skip

/-- A link-control or idle flit: it needs no credit (log 29). -/
def sendControl (n kind : Nat) (body : List Byte) : Act :=
  .ask fun s =>
    if sessionUp s n || (portSt s n).txKeys ≠ [] then
      let r := (portSt s n).emit s.now kind 0 body
      Act.all [updPort n fun _ => r.1, putFlits n [r.2]]
    else .skip

/-- NAK with the expected sequence number (R345). -/
def sendNak (n : Nat) : Act := .ask fun s => sendControl n 3 ([0x02] ++ List.replicate 7 0 ++ natLe (portSt s n).rxSeq 8)

/-! Routes (R351). -/

/-- A port may carry a message toward `d`: its session is open and not quiescent. A slow one carries only what is for its partner (Table 16-7). -/
def portCarries (s : State) (n d : Nat) : Bool :=
  n < 18 && portState s n = 3 && (((portSt s n).slow).isNone || getF s HURAL_STAT.PEER n = d)

/-- The port a message for berth address `d` takes, where one is open. -/
def portFor (s : State) (d : Nat) : Option Nat :=
  let a := getF s HURAL_ALIAS.SERVER 0 d
  let pri := getF s HURAL_ROUTE.PRI 0 a
  let alt := getF s HURAL_ROUTE.ALT 0 a
  if portCarries s pri a then some pri
  else if portCarries s alt a then some alt
  else if pri < 18 && portState s pri = 3 then some pri
  else none

/-- A message joins a port's queue. -/
def enqueue (n : Nat) (m : HMsg) : Act := .seq (updPort n fun p => { p with queue := p.queue ++ [({ msg := m } : TxMsg)] }) (pump n)

/-- A message is for this package: it waits for its command; a package that gave up its berth holds it (R367). `port` 18 is the package itself. -/
def deliver (port : Nat) (m : HMsg) : Act :=
  .ask fun s =>
    if getF s SHD_STAT.ROLE = 3 then updHural fun h => { h with heldOwn := h.heldOwn ++ [m] }
    else updHural fun h => { h with inbox := h.inbox ++ [(port, m, flitsOf m.size)] }

/-- A message sets out: to this package itself, along its route, or it waits for one (R351). -/
def sendMsg (m : HMsg) : Act :=
  .ask fun s =>
    if servesBerth s m.dst then deliver 18 m
    else
      match portFor s m.dst with
      | some n => enqueue n m
      | none => updHural fun h => { h with waiting := h.waiting ++ [m] }

/-- Messages that wait for a route, and those of a port that has not begun to send them, are routed anew. -/
def rerouteWaiting (ports : List Nat) : Act :=
  .ask fun s =>
    let fresh := ports.flatMap fun n => ((portSt s n).queue.filter fun m => m.sent = 0).map fun m => m.msg
    Act.all [Act.each (fun n => updPort n fun p => { p with queue := p.queue.filter fun m => m.sent ≠ 0 }) ports,
      updHural fun h => { h with waiting := [] }, Act.each sendMsg (s.hural.waiting ++ fresh)]

/-! Requests of this package. -/

/-- A request with the next tag; the answer finds what it serves. -/
def sendRequest (op dst addr len : Nat) (data : List Byte) (job : ReqFor) : Act :=
  .ask fun s =>
    let t := s.hural.nextTxn
    Act.all [updHural fun h => { h with nextTxn := (t + 1) % 2 ^ 16, reqs := h.reqs ++ [{ txn := t, dst := dst, job := job, since := s.now, data := data }] },
      sendMsg { op := op, src := ownBerth s, dst := dst, txn := t, addr := addr, len := len, data := data }]

/-- A range as pieces of at most 4,096 bytes: offset and length. -/
def msgPieces (n : Nat) : List (Nat × Nat) := (List.range ((n + 4095) / 4096)).map fun i => (4096 * i, min 4096 (n - 4096 * i))

/-- A write into a berth's window as WRITE messages. -/
def sendWrite (dst off : Nat) (bs : List Byte) (job : ReqFor) : Act :=
  Act.each (fun (p : Nat × Nat) => sendRequest 0x01 dst (off + p.1) p.2 (slice bs p.1 p.2) job) (msgPieces bs.length)

/-- A write of collective data as BULK messages. -/
def sendBulk (dst off : Nat) (bs : List Byte) (job : ReqFor) : Act :=
  Act.each (fun (p : Nat × Nat) => sendRequest 0x30 dst (off + p.1) p.2 (slice bs p.1 p.2) job) (msgPieces bs.length)

/-- A read of a berth's window as READ messages; each serves what `job` makes of its place in the range. -/
def sendRead (dst off n : Nat) (job : Nat → ReqFor) : Act :=
  Act.each (fun (p : Nat × Nat) => sendRequest 0x03 dst (off + p.1) p.2 [] (job p.1)) (msgPieces n)

/-- A message of virtual channel 0 without data. -/
def sendNote (op dst addr : Nat) : Act := .ask fun s => sendMsg { op := op, src := ownBerth s, dst := dst, addr := addr }

/-- The pilot and the backup pilot, once each. -/
def pilots (s : State) : List Nat :=
  let c := theChart s
  if c.flPilot = c.flBackup then [c.flPilot] else [c.flPilot, c.flBackup]

end Sys2Proof.Machine
end

