-- ==== Sys2Proof/Machine/Formats.lean ====
section
/-! DEFINITION. Number formats, exact values, rounding and the sticky flags (R111 to R121, R174, R175). -/

namespace Sys2Proof.Machine

/-! Flags as the low nibble of MX_FLAGS and VX_FLAGS: OF, UF, NX, NV (R114). -/

def flOF : Nat := 1
def flUF : Nat := 2
def flNX : Nat := 4
def flNV : Nat := 8

/-- An exact value: a NaN, an infinity, or (-1)^neg × m × 2^e. -/
inductive FV where
  | nan
  | inf (neg : Bool)
  | fin (neg : Bool) (m : Nat) (e : Int)
deriving DecidableEq, Repr

/-- +0. -/
def FV.zero : FV := .fin false 0 0

/-- 1. -/
def FV.one : FV := .fin false 1 0

/-- An integer as a value. -/
def FV.ofInt (z : Int) : FV := .fin (decide (z < 0)) z.natAbs 0

def FV.isFin : FV → Bool
  | .fin _ _ _ => true
  | _ => false

def FV.isNan : FV → Bool
  | .nan => true
  | _ => false

/-- The value is ±0. -/
def FV.isZero : FV → Bool
  | .fin _ m _ => decide (m = 0)
  | _ => false

/-- The sign bit. -/
def FV.sign : FV → Bool
  | .nan => false
  | .inf n => n
  | .fin n _ _ => n

def FV.neg : FV → FV
  | .nan => .nan
  | .inf n => .inf !n
  | .fin n m e => .fin (!n) m e

def FV.abs : FV → FV
  | .nan => .nan
  | .inf _ => .inf false
  | .fin _ m e => .fin false m e

/-- Multiplication by 2^k, which changes only the exponent. -/
def FV.scale (k : Int) : FV → FV
  | .fin n m e => .fin n m (e + k)
  | v => v

/-- The signed significand over exponent `base`, for `base` at or below the value's own. -/
def FV.intAt (base : Int) : FV → Int
  | .fin n m e => (if n then -1 else 1) * ((m <<< (e - base).toNat : Nat) : Int)
  | _ => 0

def FV.expo : FV → Int
  | .fin _ _ e => e
  | _ => 0

/-- A value from a signed significand; an exact zero takes the given sign. -/
def FV.ofSig (z : Int) (e : Int) (zneg : Bool) : FV := if z = 0 then .fin zneg 0 e else .fin (decide (z < 0)) z.natAbs e

/-- The exact sum of terms with its NV flag: a NaN term or both infinities give NaN, the second with NV; a zero sum is +0 unless every term is -0 (R113, R120). -/
def FV.sum (l : List FV) : FV × Nat :=
  let pos := l.any fun v => decide (v = .inf false)
  let neg := l.any fun v => decide (v = .inf true)
  if pos && neg then (.nan, flNV)
  else if l.any FV.isNan then (.nan, 0)
  else if pos then (.inf false, 0)
  else if neg then (.inf true, 0)
  else
    let nz := l.filter fun v => !v.isZero
    let base := nz.foldl (fun b v => min b v.expo) (match nz with | [] => 0 | v :: _ => v.expo)
    let z := nz.foldl (fun a v => a + v.intAt base) 0
    (.ofSig z base (!l.isEmpty && l.all fun v => v.isZero && v.sign), 0)

/-- The exact product with its NV flag (R114, R120). -/
def FV.mul (a b : FV) : FV × Nat :=
  match a, b with
  | .nan, _ => (.nan, 0)
  | _, .nan => (.nan, 0)
  | .inf x, .inf y => (.inf (x != y), 0)
  | .inf x, .fin y m _ => if m = 0 then (.nan, flNV) else (.inf (x != y), 0)
  | .fin y m _, .inf x => if m = 0 then (.nan, flNV) else (.inf (x != y), 0)
  | .fin x m e, .fin y k f => (.fin (x != y) (m * k) (e + f), 0)

/-- a + b × c exactly, with NV. -/
def FV.fma (a b c : FV) : FV × Nat :=
  let p := FV.mul b c
  let r := FV.sum [a, p.1]
  (r.1, r.2 ||| p.2)

/-- Comparison of two finite values as integers over a common exponent. -/
def FV.cmpInt (a b : FV) : Int := a.intAt (min a.expo b.expo) - b.intAt (min a.expo b.expo)

/-- Numeric a > b; false with a NaN, and ±0 are equal (R174). -/
def FV.gt (a b : FV) : Bool :=
  match a, b with
  | .nan, _ => false
  | _, .nan => false
  | .inf x, .inf y => !x && y
  | .inf x, _ => !x
  | _, .inf y => y
  | a, b => decide (0 < FV.cmpInt a b)

/-- max with -0 below +0; a NaN operand gives NaN (R174). -/
def FV.max (a b : FV) : FV :=
  if a.isNan || b.isNan then .nan
  else if a.gt b then a
  else if b.gt a then b
  else if a.sign then b else a

/-- min with -0 below +0. -/
def FV.min (a b : FV) : FV :=
  if a.isNan || b.isNan then .nan
  else if a.gt b then b
  else if b.gt a then a
  else if a.sign then a else b

/-- floor(log2) of a nonzero finite magnitude. -/
def FV.ilog (v : FV) : Int :=
  match v with
  | .fin _ m e => (Nat.log2 m : Int) + e
  | _ => 0

/-! Formats (Tables 5-1 to 5-3). -/

/-- A floating-point format: exponent and mantissa bits, bias, largest finite encoding, canonical NaN, infinity, total width. -/
structure FpFmt where
  x : Nat
  m : Nat
  bias : Int
  maxBits : Nat
  nanBits : Option Nat
  infBits : Option Nat
  width : Nat
deriving DecidableEq, Repr

def fpE2M1 : FpFmt := ⟨2, 1, 1, 0x7, none, none, 4⟩
def fpE4M3 : FpFmt := ⟨4, 3, 7, 0x7E, some 0x7F, none, 8⟩
def fpE5M2 : FpFmt := ⟨5, 2, 15, 0x7B, some 0x7E, some 0x7C, 8⟩
def fpBF16 : FpFmt := ⟨8, 7, 127, 0x7F7F, some 0x7FC0, some 0x7F80, 16⟩
def fpFP16 : FpFmt := ⟨5, 10, 15, 0x7BFF, some 0x7E00, some 0x7C00, 16⟩
def fpFP32 : FpFmt := ⟨8, 23, 127, 0x7F7FFFFF, some 0x7FC00000, some 0x7F800000, 32⟩

/-- The format of a code of Table 4-3, where it is floating point. -/
def fpOf : Nat → Option FpFmt
  | 0x2 => some fpE2M1
  | 0x5 => some fpE4M3
  | 0x6 => some fpE5M2
  | 0x7 => some fpBF16
  | 0x8 => some fpFP16
  | 0x9 => some fpFP32
  | _ => none

/-- Width in bits of a format code; 0 where it is reserved. -/
def fmtWidth : Nat → Nat
  | 0x0 => 4
  | 0x1 => 4
  | 0x2 => 4
  | 0x3 => 8
  | 0x4 => 8
  | 0x5 => 8
  | 0x6 => 8
  | 0x7 => 16
  | 0x8 => 16
  | 0x9 => 32
  | 0xA => 32
  | _ => 0

/-- Least and greatest value of an integer format (Table 5-1). -/
def intRange : Nat → Option (Int × Int)
  | 0x0 => some (-8, 7)
  | 0x1 => some (0, 15)
  | 0x3 => some (-128, 127)
  | 0x4 => some (0, 255)
  | 0xA => some (-2147483648, 2147483647)
  | _ => none

/-- A code of Table 4-3 that is no integer format. -/
def isFpCode (c : Nat) : Bool := (fpOf c).isSome

/-- A code of an integer format. -/
def isIntCode (c : Nat) : Bool := (intRange c).isSome

/-- The value of an encoding (R112, R113). -/
def FpFmt.decode (f : FpFmt) (bits : Nat) : FV :=
  let s := bits.testBit (f.width - 1)
  let e := bitsOf bits f.m f.x
  let m := bitsOf bits 0 f.m
  let mag := bitsOf bits 0 (f.width - 1)
  if f.infBits = some mag then .inf s
  else if mag > f.maxBits then .nan
  else if e = 0 then .fin s m (1 - f.bias - f.m)
  else .fin s (2 ^ f.m + m) ((e : Int) - f.bias - f.m)

/-- The value of an encoding of any format of Table 4-3. -/
def decodeFmt (c : Nat) (bits : Nat) : FV :=
  match fpOf c with
  | some f => f.decode bits
  | none =>
    match c with
    | 0x1 => .ofInt (bits % 16 : Nat)
    | 0x4 => .ofInt (bits % 256 : Nat)
    | _ => .ofInt (signedOf bits (fmtWidth c))

/-- An encoding with its sign bit. -/
def FpFmt.signed (f : FpFmt) (neg : Bool) (mag : Nat) : Nat := mag + if neg then 2 ^ (f.width - 1) else 0

/-- NaN converted to a format: FP4 takes +0 with NV (Table 5-5). -/
def FpFmt.ofNan (f : FpFmt) : Nat × Nat :=
  match f.nanBits with
  | some b => (b, 0)
  | none => (0, flNV)

/-- An infinity converted to a format; those without one take ±largest with NV (Table 5-5). -/
def FpFmt.ofInf (f : FpFmt) (neg : Bool) : Nat × Nat :=
  match f.infBits with
  | some b => (f.signed neg b, 0)
  | none => (f.signed neg f.maxBits, flNV)

/-- A finite value out of range (Table 5-5). -/
def FpFmt.over (f : FpFmt) (neg : Bool) : Nat × Nat := (f.signed neg (f.infBits.getD f.maxBits), flOF ||| flNX)

/-- The magnitude is at or above the nearest-rounding threshold: the largest finite value and half a unit of its last place. -/
def FpFmt.atThreshold (f : FpFmt) (m : Nat) (e : Int) : Bool :=
  match f.decode f.maxBits with
  | .fin _ k g => decide (0 ≤ FV.cmpInt (.fin false m e) (.fin false (2 * k + 1) (g - 1)))
  | _ => false

/-- The magnitude exceeds the largest finite value. -/
def FpFmt.aboveMax (f : FpFmt) (m : Nat) (e : Int) : Bool := decide (0 < FV.cmpInt (.fin false m e) (f.decode f.maxBits))

/-- Rounding a value once to a format: to nearest even, or stochastically with a draw (R117 to R119). The result's encoding and its flags. -/
def FpFmt.round (f : FpFmt) (draw : Option Nat) (v : FV) : Nat × Nat :=
  match v with
  | .nan => f.ofNan
  | .inf n => f.ofInf n
  | .fin n m e =>
    if m = 0 then (f.signed n 0, 0)
    else if (match draw with | some _ => f.aboveMax m e | none => f.atThreshold m e) then f.over n
    else
      let emin := 1 - f.bias
      let ex := max ((Nat.log2 m : Int) + e) emin - f.m
      let sh := (ex - e).toNat
      let up := (e - ex).toNat
      let q := m <<< up >>> sh
      let r := m <<< up - q <<< sh
      let inc :=
        match draw with
        | some d => decide (d < (r * 65536) >>> sh)
        | none => decide (2 * r > 1 <<< sh) || (decide (2 * r = 1 <<< sh) && q % 2 = 1)
      let bits := (ex - (emin - f.m)).toNat * 2 ^ f.m + q + (if inc then 1 else 0)
      let fl := if r = 0 then 0 else flNX ||| (if bits < 2 ^ f.m then flUF else 0)
      (f.signed n bits, fl)

/-- The field of an integer format that holds a value. -/
def intField (c : Nat) (z : Int) : Nat := fieldOfInt z (fmtWidth c)

/-- An exact integer brought into an integer format under OVM; OF where it lies outside (Table 5-5, R121). -/
def narrowInt (c : Nat) (wrap : Bool) (z : Int) : Nat × Nat :=
  match intRange c with
  | none => (0, 0)
  | some (lo, hi) =>
    if z < lo then (if wrap then intField c z else intField c lo, flOF)
    else if hi < z then (if wrap then intField c z else intField c hi, flOF)
    else (intField c z, 0)

/-- A floating-point value converted to an integer format: rounds, saturates whatever OVM says (Table 5-5). Under stochastic rounding a source is out of range when, before rounding, it lies beyond the destination's bound on the side of its sign, so that a negative one is always out of range of an unsigned format; the manual speaks of the largest finite value alone (R118; DESIGN CHOICE, log 70). -/
def fpToInt (c : Nat) (draw : Option Nat) (v : FV) : Nat × Nat :=
  match intRange c with
  | none => (0, 0)
  | some (lo, hi) =>
    match v with
    | .nan => (intField c 0, flNV)
    | .inf n => (intField c (if n then lo else hi), flNV)
    | .fin n m e =>
      let up := e.toNat
      let sh := (-e).toNat
      let q := m <<< up >>> sh
      let r := m <<< up - q <<< sh
      let inexact := if r = 0 then 0 else flNX
      let inc :=
        match draw with
        | some d => decide (d < (r * 65536) >>> sh)
        | none => decide (2 * r > 1 <<< sh) || (decide (2 * r = 1 <<< sh) && q % 2 = 1)
      let k := q + (if inc then 1 else 0)
      let z : Int := if n then -(k : Int) else k
      let out := match draw with
        | some _ => (if n then decide (0 < lo + (q : Int)) || (decide (lo + (q : Int) = 0) && decide (r ≠ 0)) else decide (hi < (q : Int)) || (decide (hi = (q : Int)) && decide (r ≠ 0)))
        | none => decide (z < lo) || decide (hi < z)
      if out then (intField c (if n then lo else hi), flOF ||| inexact) else (intField c z, inexact)

/-- A value brought into a destination format: an integer source narrows under OVM (one that a scale exponent has made non-integral rounds and saturates, log 10), a floating-point one converts (R118). -/
def toFmt (c : Nat) (fromInt wrap : Bool) (draw : Option Nat) (v : FV) : Nat × Nat :=
  match fpOf c with
  | some f => f.round draw v
  | none =>
    if fromInt then
      match v with
      | .fin n m e =>
        if m % 2 ^ (-e).toNat = 0 then narrowInt c wrap ((if n then -1 else 1) * (((m <<< e.toNat) >>> (-e).toNat : Nat) : Int))
        else fpToInt c draw v
      | _ => (0, 0)
    else fpToInt c draw v

/-! FP32 arithmetic of the accumulator (R122). -/

def dec32 (b : Nat) : FV := fpFP32.decode b
def round32 (v : FV) : Nat × Nat := fpFP32.round none v

/-- The encoding is neither infinity nor NaN. -/
def fin32 (b : Nat) : Bool := (dec32 b).isFin

/-- A sum of FP32 values rounded once. -/
def add32 (a b : FV) : Nat × Nat :=
  let s := FV.sum [a, b]
  let r := round32 s.1
  (r.1, r.2 ||| s.2)

/-- The compensated add of a group sum into S and E: the new pair and the flags (R122). -/
def compAdd (s e g : Nat) : Nat × Nat × Nat :=
  if !fin32 g || !fin32 s then
    let t := add32 (dec32 s) (dec32 g)
    (t.1, 0, t.2)
  else
    let y := (add32 (dec32 g) (dec32 e).neg).1
    let t := add32 (dec32 s) (dec32 y)
    if !fin32 y || !fin32 t.1 then ((fpFP32.ofInf (dec32 y).sign).1, 0, flOF ||| flNX)
    else
      let d := (add32 (dec32 t.1) (dec32 s).neg).1
      (t.1, (add32 (dec32 d) (dec32 y).neg).1, t.2)

/-- The exact value S - E of a bank element (R122, R126). -/
def bankValue (s e : Nat) : FV :=
  if fin32 s then (FV.sum [dec32 s, (dec32 e).neg]).1 else dec32 s

/-! Quotients and roots with enough bits and a sticky last bit, so that one rounding of the result is the rounding of the exact value. -/

/-- The floor of a square root by bits, `n` of them. -/
def isqrtBits : Nat → Nat → Nat → Nat
  | 0, _, r => r
  | n + 1, v, r => let t := r + 2 ^ n; isqrtBits n v (if t * t ≤ v then t else r)

/-- The floor of a square root. -/
def isqrt (v : Nat) : Nat := isqrtBits (Nat.log2 v / 2 + 1) v 0

/-- a ÷ b of finite nonzero magnitudes, to 200 bits and a sticky bit. -/
def quotSticky (n : Bool) (a : Nat) (ea : Int) (b : Nat) (eb : Int) : FV :=
  let k := 200 + Nat.log2 b
  let q := (a <<< k) / b
  let r := (a <<< k) % b
  .fin n (2 * q + (if r = 0 then 0 else 1)) (ea - eb - k - 1)

/-- The exact quotient; 0 ÷ 0 and infinity ÷ infinity give NaN. -/
def FV.div (a b : FV) : FV :=
  match a, b with
  | .nan, _ => .nan
  | _, .nan => .nan
  | .inf _, .inf _ => .nan
  | .inf x, .fin y _ _ => .inf (x != y)
  | .fin x _ _, .inf y => .fin (x != y) 0 0
  | .fin x m e, .fin y k f => if k = 0 then (if m = 0 then .nan else .inf (x != y)) else quotSticky (x != y) m e k f

/-- The square root of a value; a negative one gives NaN. -/
def FV.sqrt (a : FV) : FV :=
  match a with
  | .nan => .nan
  | .inf n => if n then .nan else .inf false
  | .fin n m e =>
    if m = 0 then .fin n 0 0
    else if n then .nan
    else
      let odd := (e % 2).toNat
      let v := m <<< (400 + odd)
      let r := isqrt v
      .fin false (2 * r + (if r * r = v then 0 else 1)) ((e - odd - 400) / 2 - 1)

/-! Transcendental operations in fixed point (R175). A real value is held with 192 fraction bits; the results lie within 2^-150 of the exact ones. -/

/-- Fraction bits. -/
def fxP : Nat := 192

/-- log2 e with 192 fraction bits. -/
def fxLog2e : Nat := 0x171547652b82fe1777d0ffda0d23a7d11d6aef551bad2b4b1

/-- 2^f for a fraction of 192 bits, from its top bit on, with the root c = 2^(2^-i) of that bit. -/
def fxExpBits : Nat → Nat → Nat → Nat → Nat
  | 0, _, _, acc => acc
  | n + 1, f, c, acc => fxExpBits n f (isqrt (c <<< fxP)) (if f.testBit n then (acc * c) >>> fxP else acc)

/-- 2^f, 0 ≤ f < 1, in [1, 2). -/
def fxExp2 (f : Nat) : Nat := fxExpBits fxP f (isqrt (2 <<< fxP <<< fxP)) (1 <<< fxP)

/-- The bits of log2 y for y in [1, 2). -/
def fxLogBits : Nat → Nat → Nat → Nat
  | 0, _, acc => acc
  | n + 1, y, acc =>
    let y2 := (y * y) >>> fxP
    if y2 ≥ 2 <<< fxP then fxLogBits n (y2 / 2) (2 * acc + 1) else fxLogBits n y2 (2 * acc)

/-- log2 y, 160 fraction bits. -/
def fxLog2 (y : Nat) : Nat := fxLogBits 160 y 0

/-- A finite value times 2^192, rounded toward minus infinity. -/
def FV.toFx (v : FV) : Int :=
  match v with
  | .fin n m e =>
    let k := (m <<< (e + fxP).toNat) >>> (-(e + fxP)).toNat
    if n then -(k : Int) else k
  | _ => 0

/-- 2^a for a finite a, as a value; far below every format it is a tiny value. -/
def exp2Approx (a : FV) : FV :=
  let z := a.toFx
  let n := z / ((2 ^ fxP : Nat) : Int)
  let f := (z % ((2 ^ fxP : Nat) : Int)).toNat
  if a.isFin && decide (1000 < a.ilog) && !a.isZero then (if a.sign then .fin false 1 (-2000) else .fin false 1 2000)
  else if n < -1000 then .fin false 1 (-1000)
  else if 1000 < n then .fin false 1 1000
  else .fin false (fxExp2 f) (n - fxP)

/-- 12 × ln(1 + x) to a relative 2^-158, for |x| below 2^-40. -/
def lnNear (x : FV) : FV :=
  let x2 := (FV.mul x x).1
  let x3 := (FV.mul x2 x).1
  let x4 := (FV.mul x2 x2).1
  (FV.sum [(FV.mul (FV.ofInt 12) x).1, (FV.mul (FV.ofInt (-6)) x2).1, (FV.mul (FV.ofInt 4) x3).1, (FV.mul (FV.ofInt (-3)) x4).1]).1

/-- log2 a for a positive finite a: near 1 by the series of its logarithm, so that its relative error stays small there too (R175). -/
def log2Approx (a : FV) : FV :=
  match a with
  | .fin _ m e =>
    let x := (FV.sum [a, .fin true 1 0]).1
    if !x.isZero && decide (x.ilog < -40) then FV.div (FV.mul (lnNear x) (.fin false fxLog2e (-(fxP : Int)))).1 (FV.ofInt 12)
    else
      let k := Nat.log2 m
      let y := (m <<< fxP) >>> k
      FV.ofSig (((k : Int) + e) * ((2 ^ 160 : Nat) : Int) + (fxLog2 y : Int)) (-160) false
  | v => v

/-- tanh a for a finite nonzero a: below 2^-40 as a - a^3 ÷ 3, else from e^(2|a|). -/
def tanhApprox (a : FV) : FV :=
  match a with
  | .fin n m e =>
    if a.ilog < -40 then
      let cube := quotSticky (!n) (m * m * m) (3 * e) 3 0
      (FV.sum [a, cube]).1
    else if 8 ≤ a.ilog then .fin n (2 ^ 400 - 1) (-400)
    else
      let x := exp2Approx (.fin false (m * fxLog2e) (e + 1 - fxP))
      let num := (FV.sum [x, .fin true 1 0]).1
      let den := (FV.sum [x, .one]).1
      match num, den with
      | .fin _ p f, .fin _ q g => quotSticky n p f q g
      | _, _ => .zero
  | v => v

/-- The unit in the last place of a format at a value. -/
def FpFmt.ulp (f : FpFmt) (v : FV) : FV := .fin false 1 (max v.ilog (1 - f.bias) - f.m)

/-- The encodings within `k` units in the last place of a value, with a slack of 2^-80 units for its own error. -/
def FpFmt.within (f : FpFmt) (k : Nat) (v : FV) : List Nat :=
  let b := bitsOf (f.round none v).1 0 (f.width - 1)
  let lim := FV.scale (-80) (.fin false (k * 2 ^ 80 + 1) (f.ulp v).expo)
  ((List.range (2 * k + 3)).map fun i => b + i - (k + 1)).filter fun c =>
    c ≤ f.maxBits && decide (f.decode c |>.isFin) &&
    decide (FV.cmpInt (FV.sum [f.decode c, v.abs.neg]).1.abs lim ≤ 0)

/-- A transcendental result: one of the encodings the bound allows, chosen by an open value; overflow and the flags as R175 gives them. `exact` is the exact value where it is a dyadic number. -/
def FpFmt.transc (f : FpFmt) (choice : Nat) (v : FV) (exact : Option FV) : Nat × Nat :=
  match v with
  | .fin n m e =>
    if m = 0 then (f.signed n 0, 0)
    else if f.atThreshold m e then f.over n
    else
      let cs := f.within (if f.width = 32 then 2 else 1) v
      let c := cs.getD (choice % cs.length) (bitsOf (f.round none v).1 0 (f.width - 1))
      let same := match exact with
        | some x => decide (FV.cmpInt (f.decode c) x.abs = 0)
        | none => false
      (f.signed n c, if same then 0 else flNX ||| (if c < 2 ^ f.m then flUF else 0))
  | v => f.round none v

end Sys2Proof.Machine
end

