-- ==== Sys2Proof/Machine/Operands.lean ====
section
/-! DEFINITION. Descriptors and their operand forms: the header of every tile engine (R94), the MMA, vector and window bodies (Tables 4-5, 7-2, 7-8b), and operands as they lie in the operand store, the buffers and the banks. -/

namespace Sys2Proof.Machine

/-! Descriptor fields. -/

/-- Bits [lo + w - 1 : lo] of a descriptor. -/
def dBits (d : Desc) (lo w : Nat) : Nat := bitsOf d.toNat lo w

/-- The `n`-byte field at byte `off`. -/
def dByte (d : Desc) (off : Nat) (n : Nat := 1) : Nat := dBits d (8 * off) (8 * n)

def dOpcode (d : Desc) : Nat := dBits d 0 8
def dSfmta (d : Desc) : Nat := dBits d 8 4
def dSfmtb (d : Desc) : Nat := dBits d 12 4
def dDfmt (d : Desc) : Nat := dBits d 16 4
def dGs (d : Desc) : Nat := dBits d 20 2
def dOvm (d : Desc) : Bool := dBits d 22 1 = 1
def dBank (d : Desc) : Nat := dBits d 23 1
def dCc (d : Desc) : Bool := dBits d 24 1 = 1
def dStream (d : Desc) : Nat := dBits d 25 3
def dSr (d : Desc) : Bool := dBits d 28 1 = 1
def dLayer (d : Desc) : Nat := dBits d 32 16
def dItem (d : Desc) : Nat := dBits d 64 32
def dWaitctr (d : Desc) : Nat := dBits d 96 4
def dWaitv (d : Desc) : Bool := dBits d 100 1 = 1
def dWaitval (d : Desc) : Nat := dBits d 104 16
def dSigctr (d : Desc) : Nat := dBits d 120 4
def dSigv (d : Desc) : Bool := dBits d 124 1 = 1

/-- A reserved field of the header is not zero (Table 4-2). -/
def headerReservedBad (d : Desc) : Bool :=
  decide (dBits d 29 3 ≠ 0) || decide (dBits d 48 16 ≠ 0) || decide (dBits d 101 3 ≠ 0) || decide (dBits d 125 3 ≠ 0)

/-! The MMA body (Table 4-5). -/

def mAoff (d : Desc) : Nat := dByte d 0x10 4
def mBoff (d : Desc) : Nat := dByte d 0x14 4
def mK (d : Desc) : Nat := dByte d 0x18 4
def mAstride (d : Desc) : Nat := dByte d 0x1C 4
def mBstride (d : Desc) : Nat := dByte d 0x20 4
def mMrows (d : Desc) : Nat := dByte d 0x24
def mNcols (d : Desc) : Nat := dByte d 0x25
def mAexp (d : Desc) : Int := signedOf (dByte d 0x26) 8
def mBexp (d : Desc) : Int := signedOf (dByte d 0x27) 8
def mInit (d : Desc) : Nat := dBits d 0x140 2
def mRelease (d : Desc) : Bool := dBits d 0x142 1 = 1
def mLongl (d : Desc) : Nat := dByte d 0x29
def mSpill (d : Desc) : Nat := dByte d 0x2C 4

/-- GS as a number of k values. -/
def gsOf (d : Desc) : Nat := 4 * 2 ^ dGs d

/-- Bytes of a row or column of K elements (R99). -/
def rowBytes (fmt k : Nat) : Nat := (k * fmtWidth fmt + 7) / 8

/-- Groups of an MMA (R101). -/
def mGroups (d : Desc) : Nat := (mK d + gsOf d - 1) / gsOf d

/-- The sources are integer. -/
def mInt (d : Desc) : Bool := isIntCode (dSfmta d)

/-- The pairs of R100 with their accumulator format. Table 4-9 names no code for a DFMT that is not reserved and does not fit the sources; it counts as an excluded pair, code 0x02 (DESIGN CHOICE, log 69). -/
def pairOk (a b df : Nat) : Bool :=
  match a, b with
  | 0x0, 0x0 => df = 0xA
  | 0x0, 0x1 => df = 0xA
  | 0x1, 0x0 => df = 0xA
  | 0x1, 0x1 => df = 0xA
  | 0x2, 0x2 => df = 0x9
  | 0x3, 0x3 => df = 0xA
  | 0x3, 0x4 => df = 0xA
  | 0x4, 0x3 => df = 0xA
  | 0x4, 0x4 => df = 0xA
  | 0x5, 0x5 => df = 0x9
  | 0x5, 0x6 => df = 0x9
  | 0x6, 0x5 => df = 0x9
  | 0x6, 0x6 => df = 0x9
  | 0x7, 0x7 => df = 0x9
  | 0x8, 0x8 => df = 0x9
  | 0x9, 0x9 => df = 0x9
  | _, _ => false

/-- The fault of an item of the matrix sequencer on a bank, 0 for none: the first condition of Table 4-9 that applies (R108). -/
def mxFaultCode (d : Desc) (bank : Bank) : Nat :=
  let ra := rowBytes (dSfmta d) (mK d)
  let rb := rowBytes (dSfmtb d) (mK d)
  if dOpcode d ≠ 0x10 then 0x01
  else if !pairOk (dSfmta d) (dSfmtb d) (dDfmt d) then 0x02
  else if dGs d = 3 || (dSfmta d = 0x9 && dGs d ≠ 0) then 0x03
  else if mAoff d % 64 ≠ 0 || mBoff d % 64 ≠ 0 || mAstride d % 64 ≠ 0 || mBstride d % 64 ≠ 0 ||
      mAoff d ≥ 2 ^ 20 || mBoff d ≥ 2 ^ 20 ||
      mAoff d + (mMrows d - 1) * mAstride d + ra > 2 ^ 20 || mBoff d + (mNcols d - 1) * mBstride d + rb > 2 ^ 20 ||
      (mInit d = 2 && (mSpill d % 64 ≠ 0 || mSpill d + 8192 > 2 ^ 20)) then 0x04
  else if mK d < 1 || mK d > 65536 || mMrows d < 1 || mMrows d > 32 || mNcols d < 1 || mNcols d > 32 ||
      mAstride d < alignUp ra 64 || mBstride d < alignUp rb 64 || (mInt d && (mAexp d ≠ 0 || mBexp d ≠ 0)) then 0x05
  else if mInit d = 3 || (mInit d = 1 && (bank.st = .free || bank.kind ≠ some (mInt d))) then 0x06
  else if mLongl d ≠ 0 && (mLongl d < 4 || mLongl d > 20) then 0x07
  else if headerReservedBad d || dBits d 0x143 5 ≠ 0 || dByte d 0x2A 2 ≠ 0 || dByte d 0x30 16 ≠ 0 then 0x08
  else 0

/-! The vector body (Table 7-2). -/

def vSrca (d : Desc) : Nat := dByte d 0x10
def vSrcb (d : Desc) : Nat := dByte d 0x11
def vSrcc (d : Desc) : Nat := dByte d 0x12
def vDst (d : Desc) : Nat := dByte d 0x13
def vBmode (d : Desc) : Nat := dBits d 0xA0 2
def vCmode (d : Desc) : Nat := dBits d 0xA2 2
def vMrows (d : Desc) : Nat := dByte d 0x15
def vNcols (d : Desc) : Nat := dByte d 0x16
def vFree (d : Desc) : Bool := dBits d 0xB8 1 = 1
def vLsc (d : Desc) : Bool := dBits d 0xB9 1 = 1
def vImm (d : Desc) : Nat := dByte d 0x18 4
def vSexp (d : Desc) : Int := signedOf (dByte d 0x1C) 8
def vTsel (d : Desc) : Nat := dByte d 0x1D
def vRowbase (d : Desc) : Nat := dByte d 0x20 4

/-- The vector opcodes of Table 7-1. -/
def isVecOp (o : Nat) : Bool :=
  (0x40 ≤ o && o ≤ 0x49) || (0x50 ≤ o && o ≤ 0x55) || (0x58 ≤ o && o ≤ 0x5A) || (0x60 ≤ o && o ≤ 0x62) || o = 0x70

/-- The opcode reads source B. -/
def readsB (o : Nat) : Bool := (0x40 ≤ o && o ≤ 0x45) || o = 0x48

/-- The opcode reads source C. -/
def readsC (o : Nat) : Bool := o = 0x43 || o = 0x48

/-- BF16, FP16 or FP32. -/
def isLaneFp (c : Nat) : Bool := c = 0x7 || c = 0x8 || c = 0x9

/-- A code of Table 4-3 that is not reserved. -/
def fmtOk (c : Nat) : Bool := c ≤ 0xA

/-- SRCA names a bank. -/
def srcBank (d : Desc) : Option Nat := if vSrca d = 8 then some 0 else if vSrca d = 9 then some 1 else none

/-- The bank a vector item names through SRCA; WIN names none (R171). -/
def vecBank (d : Desc) : Option Nat := if dOpcode d = 0x70 || !isVecOp (dOpcode d) then none else srcBank d

/-! The window body (Table 7-8b). -/

def wLine (d : Desc) : Nat := dByte d 0x10
def wWbuf (d : Desc) : Nat := dByte d 0x11
def wWrow (d : Desc) : Nat := dByte d 0x12
def wDst (d : Desc) : Nat := dByte d 0x13
def wTaps (d : Desc) : Nat := dByte d 0x14
def wDil (d : Desc) : Nat := dByte d 0x15
def wStride (d : Desc) : Nat := dByte d 0x16
def wMode (d : Desc) : Nat := dBits d 0xB8 2
def wInit (d : Desc) : Bool := dBits d 0xBA 1 = 1
def wGsz (d : Desc) : Nat := dBits d 0xC0 3
def wMrows (d : Desc) : Nat := dByte d 0x19
def wNcols (d : Desc) : Nat := dByte d 0x1A

/-- Formats of opcodes 0x40 to 0x5A: every one used is BF16, FP16 or FP32, or every one is INT32; 0x50 to 0x55 take floating point only (R170). -/
def elemFormatsBad (d : Desc) : Bool :=
  let o := dOpcode d
  let used := [dSfmta d, dDfmt d] ++ (if readsB o then [dSfmtb d] else [])
  !(used.all isLaneFp || (used.all (fun c => c = 0xA) && !(0x50 ≤ o && o ≤ 0x55)))

/-- A used format field that R170 or R187 excludes, or an SFMTA of the other kind than the bank's (code 0x02). -/
def vec02 (d : Desc) (banks : Nat → Bank) : Bool :=
  let o := dOpcode d
  let bankKind := match vecBank d with
    | some b => (banks b).kind
    | none => none
  let kindBad := (vecBank d).isSome && o ≠ 0x62 && bankKind ≠ some (isIntCode (dSfmta d))
  (if o = 0x49 then !fmtOk (dSfmta d) || !(isLaneFp (dDfmt d) || dDfmt d = 0xA)
   else if o = 0x60 then
     (if (vecBank d).isSome then !(dSfmta d = 0x9 || dSfmta d = 0xA) else !(isLaneFp (dSfmta d) || dSfmta d = 0xA)) || !fmtOk (dDfmt d)
   else if o = 0x61 then !(dSfmta d = 0x9 || dSfmta d = 0xA)
   else if o = 0x62 then false
   else if o = 0x70 then !isLaneFp (dSfmta d) || !isLaneFp (dDfmt d) || (wMode d = 0 && !isLaneFp (dSfmtb d))
   else elemFormatsBad d) || kindBad

/-- A selector the item uses that is reserved, names a bank elsewhere than in SRCA, is 15 where it is read, or is odd where a pair is needed (code 0x03). -/
def vec03 (d : Desc) : Bool :=
  let o := dOpcode d
  if o = 0x70 then wLine d > 5 || (dSfmta d = 0x9 && wLine d % 2 ≠ 0) || wDst d > 5 || wWbuf d > 5
  else if o = 0x62 then (srcBank d).isNone
  else if o = 0x61 then (srcBank d).isNone || vDst d > 4 || vDst d % 2 ≠ 0
  else
    (vSrca d > 5 && (srcBank d).isNone) || vDst d > 5 ||
    (readsB o && vSrcb d > 5 && !(vSrcb d = 15 && vBmode d = 3)) || (readsC o && vSrcc d > 5 && !(vSrcc d = 15 && vCmode d = 3))

/-- The geometry of WIN (code 0x06, R187). -/
def win06 (d : Desc) : Bool :=
  wTaps d < 1 || wTaps d > 32 || wDil d < 1 || wDil d > 8 || wStride d < 1 || wStride d > 8 || wMode d = 3 || wGsz d > 4 ||
  (wMrows d - 1) * wStride d + (wTaps d - 1) * wDil d > 63 ||
  wWrow d > 31 || (wMode d = 0 && wWrow d + wTaps d * 2 ^ wGsz d > 32) || (wMode d ≠ 0 && wGsz d ≠ 0)

/-- The fault of a vector item, 0 for none: the first condition of Table 7-9 that applies (R188). -/
def vxFaultCode (d : Desc) (banks : Nat → Bank) : Nat :=
  let o := dOpcode d
  let win := o = 0x70
  if !isVecOp o then 0x01
  else if vec02 d banks then 0x02
  else if vec03 d then 0x03
  else if (if win then wMrows d < 1 || wMrows d > 32 || wNcols d < 1 || wNcols d > 32
      else o ≠ 0x61 && o ≠ 0x62 && (vMrows d < 1 || vMrows d > 32 || vNcols d < 1 || vNcols d > 32)) then 0x04
  else if !win && ((o = 0x60 && vTsel d > 2) || (o ≠ 0x61 && o ≠ 0x62 && vLsc d && isIntCode (dDfmt d))) then 0x05
  else if win && win06 d then 0x06
  else if headerReservedBad d ||
      (if win then dBits d 0xBB 5 ≠ 0 || dBits d 0xC3 5 ≠ 0 || dByte d 0x1B 37 ≠ 0
       else dBits d 0xA4 4 ≠ 0 || dBits d 0xBA 6 ≠ 0 || dByte d 0x1E 2 ≠ 0 || dByte d 0x24 28 ≠ 0) then 0x07
  else 0

/-! Operands in the operand store, the buffers and the banks. -/

/-- A byte that other items may have overwritten while it was read: its value or any older one, as an open value has it (R93, R166). -/
def mixByte (pick : Nat → Nat) (old : FMap (List Byte)) (k : Nat) (cur : Byte) : Byte :=
  let l := Cells.get [] old k
  l.getD (pick k % (l.length + 1)) cur

/-- The field of `w` bits at element `n` of a packed array whose bytes are `get` (R99, R165). -/
def packedElem (get : Nat → Byte) (w n : Nat) : Nat :=
  if w = 4 then bitsOf (get (n / 2)).toNat (if n % 2 = 0 then 0 else 4) 4
  else leNat ((List.range (w / 8)).map fun k => get (n * (w / 8) + k))

/-- An operand-store byte as item `r` of a tile reads it. -/
def opByte (pick : Nat → Nat) (t : Tile) (r : RunItem) (off : Nat) : Byte := mixByte pick r.mix off (Cells.get 0 t.op off)

/-- A[i][k]. -/
def opA (pick : Nat → Nat) (t : Tile) (r : RunItem) (i k : Nat) : FV :=
  decodeFmt (dSfmta r.desc) (packedElem (fun n => opByte pick t r (mAoff r.desc + i * mAstride r.desc + n)) (fmtWidth (dSfmta r.desc)) k)

/-- B[k][j]. -/
def opB (pick : Nat → Nat) (t : Tile) (r : RunItem) (k j : Nat) : FV :=
  decodeFmt (dSfmtb r.desc) (packedElem (fun n => opByte pick t r (mBoff r.desc + j * mBstride r.desc + n)) (fmtWidth (dSfmtb r.desc)) k)

/-- Old values of overwritten bytes, gathered behind those that are there. -/
def addOld (m : FMap (List Byte)) (old : FMap Byte) : FMap (List Byte) :=
  old.foldl (fun a e => Cells.ins a e.1 (Cells.get [] a e.1 ++ [e.2])) m

/-- The bytes that items of the other engine in progress have overwritten, with their old values. -/
def oldUnion (l : List (FMap Byte)) : FMap (List Byte) := l.foldl addOld []

/-- A tile-buffer byte at an offset over all six buffers, as a vector item reads it. -/
def bufByte (pick : Nat → Nat) (t : Tile) (off : Nat) : Byte :=
  mixByte pick (oldUnion (t.dma.run.map fun r => r.oldBuf)) off (Cells.get 0 t.bufs off)

/-- Element `n` of buffer `b` in a format. -/
def bufElem (pick : Nat → Nat) (t : Tile) (b fmt n : Nat) : FV :=
  decodeFmt fmt (packedElem (fun k => bufByte pick t (0x1000 * b + k)) (fmtWidth fmt) n)

/-- A bank of a tile. -/
def Tile.bank (t : Tile) (b : Nat) : Bank := if b = 0 then t.bankA else t.bankB

/-- A tile with one bank replaced. -/
def Tile.withBank (t : Tile) (b : Nat) (k : Bank) : Tile := if b = 0 then { t with bankA := k } else { t with bankB := k }

/-- The value of bank element `n`: S - E, or the INT32 sum. -/
def Bank.value (k : Bank) (n : Nat) : FV :=
  if k.kind = some true then decodeFmt 0xA (Cells.get 0 k.s n) else bankValue (Cells.get 0 k.s n) (Cells.get 0 k.e n)

/-- Element (i, j) of source A of a vector item: a bank or a buffer. -/
def srcA (pick : Nat → Nat) (t : Tile) (d : Desc) (n : Nat) : FV :=
  match srcBank d with
  | some b => (t.bank b).value n
  | none => bufElem pick t (vSrca d) (dSfmta d) n

/-- Element (i, j) of a source with its broadcast mode (Table 7-2). -/
def srcBC (pick : Nat → Nat) (t : Tile) (d : Desc) (buf mode i j : Nat) : FV :=
  match mode with
  | 0 => bufElem pick t buf (dSfmtb d) (32 * i + j)
  | 1 => bufElem pick t buf (dSfmtb d) (32 * i)
  | 2 => bufElem pick t buf (dSfmtb d) j
  | _ => if dSfmtb d = 0xA then decodeFmt 0xA (vImm d) else dec32 (vImm d)

/-- A packed array of bytes with element `n` replaced; 4-bit elements share a byte (R165). -/
def putElem (m : FMap Byte) (base w n v : Nat) : FMap Byte :=
  if w = 4 then
    let a := base + n / 2
    Cells.put 0 m a (BitVec.ofNat 8 (putBits (Cells.get 0 m a).toNat (if n % 2 = 0 then 0 else 4) 4 v))
  else (List.range (w / 8)).foldl (fun acc k => Cells.put 0 acc (base + n * (w / 8) + k) (BitVec.ofNat 8 (v / 2 ^ (8 * k)))) m

end Sys2Proof.Machine
end

