-- ==== Sys2Proof/Machine/Flags.lean ====
section
/-! DEFINITION. The sticky flag registers of the engines and the counters of waiting (R102, R114, R115). -/

namespace Sys2Proof.Machine

/-- A flag register takes the flags of an item: [3:0] where CC = 0, [7:4] where CC = 1; a flag stays set (R102, R115). -/
def orFlags (r : RegName) (u : Nat) (cc : Bool) (fl : Nat) : Act :=
  .ask fun s => .prim (.reg r u 0 (getReg s r u 0 ||| BitVec.ofNat 64 (if cc then fl * 16 else fl)))

/-- The flags a pass gathers: OF and NV (R144). -/
def passFlags (fl : Nat) : Nat := fl &&& (flOF ||| flNV)

/-- The union of flags over a list. -/
def orAll (l : List Nat) : Nat := l.foldl (fun a b => a ||| b) 0

end Sys2Proof.Machine
end

