-- ==== Sys2Proof/Machine/Tile.lean ====
section
/-! DEFINITION. What the tile engines share: sequencers, sync counters, trace, the layer table, passes and completion reports, exponent substitution, random streams (R90 to R93, R127 to R130, R135 to R144, R423). -/

namespace Sys2Proof.Machine

/-! Tiles and sequencers. -/

/-- A tile by its unit number. -/
def getTile (s : State) (u : Nat) : Tile := Cells.get {} s.tiles u

/-- The update of a tile. -/
def updTile (u : Nat) (f : Tile → Tile) : Act := .prim (.tiles fun m => Cells.put {} m u (f (Cells.get {} m u)))

/-- The partition of a unit under the chart in effect. -/
def partOfUnit (s : State) (u : Nat) : Option Nat := (theChart s).partOf u

/-- The copy engines take work: they belong to a partition (R58). -/
def copiesTake (s : State) : Bool := (partOfUnit s 513).isSome

/-- The partition of a tile as a number; a tile that runs items always has one (R58). -/
def tilePart (s : State) (u : Nat) : Nat := (partOfUnit s u).getD 0

/-- The three engines of a tile. -/
inductive Eng where
  | mx | vx | dma
deriving DecidableEq, Repr

def Tile.eng (t : Tile) : Eng → Engine
  | .mx => t.mx
  | .vx => t.vx
  | .dma => t.dma

def Tile.withEng (t : Tile) (k : Eng) (e : Engine) : Tile :=
  match k with
  | .mx => { t with mx := e }
  | .vx => { t with vx := e }
  | .dma => { t with dma := e }

/-- The update of one engine of a tile. -/
def updEng (u : Nat) (k : Eng) (f : Engine → Engine) : Act := updTile u fun t => t.withEng k (f (t.eng k))

/-- The engine that owns an opcode (Table 4-4). -/
def opcodeEng (o : Nat) : Eng := if 0x40 ≤ o && o ≤ 0x7F then .vx else if 0x80 ≤ o && o ≤ 0x9F then .dma else .mx

/-- A compute die's clock runs: the die is in service and no idle slot, limiter or temperature gates it (R10, R325, R328, R329). -/
def dieRuns (s : State) (d : Nat) : Bool :=
  decide (bitsOf (getReg s .ID_DIEMAP 0 0).toNat (2 * d) 2 = 0) && !s.en.slots.contains d && !s.en.limited.contains d && !s.en.critical.contains d

/-- A tile's compute clock is its die's. -/
def tileRuns (s : State) (u : Nat) : Bool := dieRuns s (u / 128)

/-- What a tile does while its clock runs; items in progress freeze while it is gated (R328). -/
def clocked (u : Nat) (a : Act) : Act := .ask fun s => Act.when (tileRuns s u) a

/-- The head item of an engine that is not halted, on a tile whose clock runs. -/
def headItem (s : State) (u : Nat) (k : Eng) : Option Desc :=
  let e := (getTile s u).eng k
  if e.halted.isSome || !tileRuns s u then none else e.queue.head?

/-- The wait of R91 is met. -/
def waitMet (s : State) (u : Nat) (d : Desc) : Bool :=
  !dWaitv d || decide (dWaitval d ≤ getF s TILE_SYNC.VALUE u (dWaitctr d))

/-- The SIG of a completed item: its counter adds 1 and stays at 0xFFFF (R91). -/
def signal (u : Nat) (d : Desc) : Act := Act.when (dSigv d) (incF TILE_SYNC.VALUE 1 u (dSigctr d))

/-- A unit has items that have not finished (R35). -/
def Engine.busy (e : Engine) : Bool := !e.queue.isEmpty || !e.run.isEmpty || e.halted.isSome

/-- A tile has items that have not finished. -/
def Tile.busy (t : Tile) : Bool := t.mx.busy || t.vx.busy || t.dma.busy

/-! Trace (R423). -/

/-- Trace runs: EN, a SIZE in 4..24, DEBUG.TRACE, and a session at D1 or above. -/
def traceOn (s : State) : Bool :=
  getB s DBG_TRACE.EN && decide (4 ≤ getF s DBG_TRACE.SIZE) && decide (getF s DBG_TRACE.SIZE ≤ 24) &&
  bitOf (chartF s 0xC 2 1) 0 && (decide (1 ≤ getF s DBG_SESS.LEVEL 0) || decide (1 ≤ getF s DBG_SESS.LEVEL 1))

/-- A trace record of an item of a planned unit: 1 start, 2 complete, 3 fault. The cycle is counted in quarter nanoseconds from the mark. -/
def trace (u event opcode item : Nat) : Act :=
  .ask fun s =>
    if traceOn s then
      let a := getF s DBG_TRACE.ADDR * 32 + s.sec.traceNext % 2 ^ getF s DBG_TRACE.SIZE * 32
      Act.all [pkgWrite a (natLe (getF s TIDE_COUNT.COUNT) 8 ++ natLe u 2 ++ natLe event 1 ++ natLe opcode 1 ++ natLe item 4 ++
          natLe (s.now - s.tide.markAt) 8 ++ natLe 0 8),
        .prim (.sec fun x => { x with traceNext := x.traceNext + 1 })]
    else .skip

/-- A unit completed an item in this tide (R385). -/
def progress (u : Nat) : Act := .prim (.tide fun t => { t with progress := if t.progress.contains u then t.progress else u :: t.progress })

/-- The trace record of a descriptor's event; a completion counts as progress. -/
def traceItem (u event : Nat) (d : Desc) : Act := .seq (trace u event (dOpcode d) (dItem d)) (Act.when (event = 2) (progress u))

/-! The layer table (R135, Table 6-1). -/

/-- A layer table entry as it is read. -/
structure LayerEnt where
  addr : Nat
  valid : Bool
  spec : Bool
  dir : Bool
  scale : Bool
  grad : Bool
  watch : Bool
  fmt0 : Nat
  gate : Nat
  items : Nat
  rep1 : Nat
  rep2 : Nat
  atens : Nat
  btens : Nat
deriving DecidableEq, Repr

/-- Entry `l` of a partition's layer table; invalid at or beyond TAGS (R136). -/
def layerEnt (s : State) (p l : Nat) : LayerEnt :=
  let a := getF s NUM_LAYTAB.ADDR p * 64 + 64 * l
  let fl := readNat s a 2
  { addr := a, valid := bitOf fl 0 && decide (l < getF s NUM_LAYTAB.TAGS p), spec := bitOf fl 1, dir := bitOf fl 2,
    scale := bitOf fl 3, grad := bitOf fl 4, watch := bitOf fl 5, fmt0 := readNat s (a + 2) 1, gate := readNat s (a + 3) 1 % 16,
    items := readNat s (a + 4) 4, rep1 := readNat s (a + 8) 8, rep2 := readNat s (a + 0x10) 8,
    atens := readNat s (a + 0x18) 2, btens := readNat s (a + 0x1A) 2 }

/-- The key of a layer of a partition. -/
def layerKey (p l : Nat) : Nat := p * 65536 + l

/-! Scale slots (R140 to R143). -/

/-- Slots of a partition's scale table; larger values count as 1,024 (Table 6-7). -/
def scaleSlots (s : State) (p : Nat) : Nat := min 1024 (getF s NUM_SCALETAB.SLOTS p)

/-- The address of a scale slot. -/
def slotAddr (s : State) (p i : Nat) : Nat := getF s NUM_SCALETAB.ADDR p * 64 + 320 * i

/-- The exponent a slot gives a format: FP4 E2M1, FP8 E4M3 or FP8 E5M2, where the slot exists (R143). -/
def slotExp (s : State) (p i fmt : Nat) : Option Int :=
  if i < scaleSlots s p then
    match fmt with
    | 0x2 => some (signedOf (readNat s (slotAddr s p i + 0x0C) 1) 8)
    | 0x5 => some (signedOf (readNat s (slotAddr s p i + 0x0D) 1) 8)
    | 0x6 => some (signedOf (readNat s (slotAddr s p i + 0x0E) 1) 8)
    | _ => none
  else none

/-- The scale exponent of a write-out: substituted from the slot TSEL selects (R143, R176). -/
def outExp (s : State) (p : Nat) (d : Desc) : Int :=
  let e := layerEnt s p (dLayer d)
  if e.valid && e.scale && dOpcode d = 0x60 then
    match vTsel d with
    | 1 => (slotExp s p e.atens (dDfmt d)).getD (vSexp d)
    | 2 => (slotExp s p e.btens (dDfmt d)).getD (vSexp d)
    | _ => vSexp d
  else vSexp d

/-- A report of a magnitude to a scale slot: STEPAMAX keeps the largest (R141). A magnitude that FP32 cannot hold counts as non-finite. -/
def amaxReport (p slot : Nat) (v : FV) : Act :=
  .ask fun s =>
    let r := (fpFP32.round none v.abs).1
    if slot < scaleSlots s p && (dec32 r).isFin && r > readNat s (slotAddr s p slot + 8) 4 then
      pkgWrite (slotAddr s p slot + 8) (natLe r 4)
    else .skip

/-! Passes (R144 to R151). -/

/-- The rung above, and none at the top: rung 2, no wider format, or REP address 0 (R145, Table 6-4). -/
def rungsOf (fmt0 : Nat) : Nat :=
  match fmt0 with
  | 0x2 => 2
  | 0x5 => 2
  | 0x6 => 2
  | 0x0 => 2
  | 0x1 => 2
  | 0x3 => 1
  | 0x4 => 1
  | 0x7 => 1
  | 0x8 => 1
  | _ => 0

/-- The REP address of the rung above. -/
def PassSt.nextRep (x : PassSt) : Nat := if x.rung = 0 then x.rep1 else x.rep2

/-- The pass stands at the top rung. -/
def PassSt.top (x : PassSt) : Bool := decide (rungsOf x.fmt0 ≤ x.rung) || decide (x.nextRep = 0)

/-- The pass of a layer, if one is known. -/
def passOf (s : State) (p l : Nat) : Option PassSt := Cells.get none s.num.passes (layerKey p l)

/-- The update of a layer's pass. -/
def setPass (p l : Nat) (x : Option PassSt) : Act :=
  .prim (.num fun n => { n with passes := Cells.put none n.passes (layerKey p l) x })

/-- A new pass of a layer, numbered `id`. A repeat keeps the fields of the pass it repeats, and the scale its step latched (R135, R152). -/
def newPass (s : State) (p l id : Nat) : PassSt :=
  let e := layerEnt s p l
  let first : PassSt := { id := id, rung := 0, fmt0 := e.fmt0, dir := e.dir, gate := e.gate, items := e.items, rep1 := e.rep1, rep2 := e.rep2, lscale := getF s NUM_LSCALE.EXP p }
  match passOf s p l with
  | some x =>
    if x.repeating then
      { id := id, rung := x.rung + 1, fmt0 := x.fmt0, dir := x.dir, gate := x.gate, items := x.items, rep1 := x.rep1, rep2 := x.rep2, lscale := x.lscale }
    else first
  | none => first

/-- What a starting item of a layer belongs to: its pass, or outside any of a layer that runs passes; and whether it begins one (R144, R151). -/
def passJoin (s : State) (p : Nat) (d : Desc) : Option Nat × Bool × Bool :=
  let e := layerEnt s p (dLayer d)
  if dCc d && e.valid && e.spec then
    match passOf s p (dLayer d) with
    | some x => if !x.ended then (some x.id, false, false) else if x.decided then (some s.num.nextPass, false, true) else (none, true, false)
    | none => (some s.num.nextPass, false, true)
  else (none, false, false)

/-- The pass an item begins, where it begins one. -/
def passBegin (p : Nat) (d : Desc) : Act :=
  .ask fun s =>
    if (passJoin s p d).2.2 then
      Act.all [setPass p (dLayer d) (some (newPass s p (dLayer d) s.num.nextPass)), .prim (.num fun n => { n with nextPass := n.nextPass + 1 })]
    else .skip

/-- The loss-scale exponent an item takes: that of its step, or, in the repeat of a backward pass, the one its step latched before (R152, R173). -/
def itemScale (s : State) (p : Nat) (d : Desc) : Nat :=
  let now := getF s NUM_LSCALE.EXP p
  let j := passJoin s p d
  if j.2.2 then (let x := newPass s p (dLayer d) s.num.nextPass; if x.dir then x.lscale else now)
  else
    match passOf s p (dLayer d) with
    | some x => if j.1 = some x.id && x.dir then x.lscale else now
    | none => now

/-- The item record of a descriptor that starts on a tile (R129, R135, R143, R144, R152, R173). -/
def startRec (s : State) (u : Nat) (d : Desc) : RunItem :=
  let p := tilePart s u
  let e := layerEnt s p (dLayer d)
  let j := passJoin s p d
  let sub := e.valid && e.scale
  { desc := d, step := getF s NUM_STEP.STEP p, lscale := itemScale s p d, watch := e.valid && e.watch,
    aexp := if dOpcode d = 0x10 then (if sub then (slotExp s p e.atens (dSfmta d)).getD (mAexp d) else mAexp d) else outExp s p d,
    bexp := if sub then (slotExp s p e.btens (dSfmtb d)).getD (mBexp d) else mBexp d,
    pass := j.1, late := j.2.1 }

/-- The completion report of an item of a pass, or of one outside any pass of a layer that runs them (R144, R151). -/
def completionReport (u : Nat) (r : RunItem) : Act :=
  if r.pass.isSome || r.late then
    .ask fun s => .prim (.num fun n => { n with reports := n.reports ++
      [{ unit := u, part := tilePart s u, layer := dLayer r.desc, pass := r.pass, flags := passFlags r.flags, nonfinite := r.nonfinite, rows := r.rows }] })
  else .skip

/-! Random streams (R127 to R130). -/

/-- The key of a partition as 16 bytes. -/
def streamKey (s : State) (p : Nat) : List Byte := w64Bytes (getReg s .NUM_KEYLO p 0) ++ w64Bytes (getReg s .NUM_KEYHI p 0)

/-- A stream as an item that latched `step` finds it: reset where the held number differs in any bit (R129). -/
def StreamSt.forStep (x : StreamSt) (step : Nat) : StreamSt :=
  if x.held = some step then x else { held := some step, step := step % 2 ^ 24, block := 0 }

/-- The counter of block `n` (Table 5-7). -/
def streamCounter (x : StreamSt) (unit stream n : Nat) : Nat :=
  n % 2 ^ 27 + stream * 2 ^ 27 + unit * 2 ^ 30 + x.step * 2 ^ 40

/-- The eight draws of a block (R127). -/
def blockDraws (key : List Byte) (ctr : Nat) : List Nat :=
  let c := aes128 key (natLe ctr 8 ++ List.replicate 8 0)
  (List.range 8).map fun d => fieldAt c (2 * d) 2

/-- `k` draws from a stream from its next block on. -/
def streamDraws (key : List Byte) (x : StreamSt) (unit stream k : Nat) : List Nat :=
  ((List.range ((k + 7) / 8)).flatMap fun b => blockDraws key (streamCounter x unit stream (x.block + b))).take k

/-- A tile's stream. -/
def tileStream (s : State) (u n : Nat) : StreamSt := Cells.get {} (getTile s u).streams n

/-- A consumer takes the blocks of `k` draws from a tile's stream. -/
def takeBlocks (u n step k : Nat) : Act :=
  updTile u fun t =>
    let x := (Cells.get {} t.streams n).forStep step
    { t with streams := Cells.put {} t.streams n { x with block := x.block + (k + 7) / 8 } }

/-- The wrap of a stream whose BLOCK passed 0x7FF_FFFF within a step: it wraps to 0 and the tile logs it (R130). -/
def streamWrap (u n : Nat) : Act :=
  .ask fun s =>
    if 2 ^ 27 ≤ (tileStream s u n).block then
      Act.all [updTile u fun t =>
          let x := Cells.get {} t.streams n
          { t with streams := Cells.put {} t.streams n { x with block := x.block - 2 ^ 27 } },
        logEv .streamWrap (u / 128) u]
    else .skip

def execStreamWrap (u : Fin 512) (stream : Fin 8) (s : State) : Host.Outcome State Fault Refusal := .next (run (streamWrap u stream) s)

/-! Faults and halts (R108, R109, R188). -/

/-- An engine halts on its head item, which leaves the list; the fault registers take code, OPCODE and ITEM, and a record is written. -/
def itemFault (u : Nat) (k : Eng) (reg : RegName) (kind : LogKind) (d : Desc) (code : Nat) : Act :=
  Act.all [updEng u k fun e => { e with queue := e.queue.drop 1, halted := some d },
    .prim (.reg reg u 0 (BitVec.ofNat 64 (code + dOpcode d * 256 + dItem d * 2 ^ 32))),
    logEv kind (u / 128) u, traceItem u 3 d]

/-- ITEM of a STAT register names the last item completed while none is in progress. -/
def lastItem (u : Nat) (k : Eng) (f : Fld) (d : Desc) : Act :=
  .ask fun s => Act.when (((getTile s u).eng k).run.isEmpty) (setF f (dItem d) u)

/-- RESUME ends a halt: the item completes without effect, applies its SIG, and reports where it belongs to a pass (R109). -/
def resumeItem (u : Nat) (k : Eng) (count : Act) (extra : Desc → Act) : Act :=
  .ask fun s =>
    match ((getTile s u).eng k).halted with
    | none => .skip
    | some d =>
      let r := startRec s u d
      Act.all [passBegin (tilePart s u) d, updEng u k fun e => { e with halted := none }, extra d, signal u d,
        count, completionReport u { r with flags := 0, nonfinite := false, rows := [] }, traceItem u 2 d]

end Sys2Proof.Machine
end

