-- ==== Sys2Proof/Machine/Tiers.lean ====
section
/-! DEFINITION. Memory tiers: the map and the object space, accesses to warehouse, quay and beyond, holds and stalls, and poison (R16 to R19, R210 to R213, R228 to R235, R242 to R254). -/

namespace Sys2Proof.Machine

/-- Update of the tiers. -/
def updTier (f : TierSt → TierSt) : Act := .prim (.tier f)

/-! Objects and pages (R232, R233). -/

/-- The descriptor of object `o`. -/
def objAddr (s : State) (o : Nat) : Nat := getF s TIER_OBJTAB.ADDR * 64 + 64 * o

/-- Object number `o` is valid: COUNT = 0 with ADDR = 0 means no objects. -/
def objValid (s : State) (o : Nat) : Bool :=
  !(getF s TIER_OBJTAB.COUNT = 0 && getF s TIER_OBJTAB.ADDR = 0) && o ≤ getF s TIER_OBJTAB.COUNT && bitOf (readNat s (objAddr s o) 2) 0

def objFlags (s : State) (o : Nat) : Nat := readNat s (objAddr s o) 2
def objPinned (s : State) (o : Nat) : Bool := bitOf (objFlags s o) 1
def objState (s : State) (o : Nat) : Nat := bitsOf (objFlags s o) 4 2
def objAcct (s : State) (o : Nat) : Nat := readNat s (objAddr s o + 2) 1
def objPages (s : State) (o : Nat) : Nat := readNat s (objAddr s o + 4) 4
def objBase (s : State) (o : Nat) : Nat := readNat s (objAddr s o + 8) 8
def objPoisLines (s : State) (o : Nat) : Nat := readNat s (objAddr s o + 0x18) 4

/-- A valid object covers an object-space address. -/
def objCovers (s : State) (o a : Nat) : Bool :=
  objValid s o && decide (objBase s o ≤ a) && decide (a < objBase s o + objPages s o * 2 ^ 21)

/-- STATE of an object takes a value. -/
def setObjState (o v : Nat) : Act := .ask fun s => pkgWrite (objAddr s o) (natLe (putBits (objFlags s o) 4 2 v) 2)

/-- A page table entry (Table 10-4). -/
structure PageEnt where
  tier : Nat
  mig : Bool
  pois : Bool
  frame : Nat
  touch : Nat
  obj : Nat
deriving DecidableEq, Repr

/-- The page number of an object-space address. -/
def pageNo (a : Nat) : Nat := (a - 0x800000000000) / 2 ^ 21

/-- The address of the entry of page `n`. -/
def pteAddr (s : State) (n : Nat) : Nat := getF s TIER_PTBASE.ADDR * 2 ^ 21 + 16 * n

/-- The entry of page `n`. -/
def pageEnt (s : State) (n : Nat) : PageEnt :=
  let w := readNat s (pteAddr s n) 8
  let x := readNat s (pteAddr s n + 8) 8
  { tier := bitsOf w 0 2, mig := bitOf w 2, pois := bitOf w 3, frame := bitsOf w 21 27 * 2 ^ 21, touch := bitsOf x 0 48, obj := bitsOf x 48 16 }

/-- What a translation takes from an entry. -/
def PageEnt.words (e : PageEnt) : Nat × Nat × Nat := (e.tier, e.frame, e.obj)

/-- A cached translation differs from the entry. -/
def xlatOld (s : State) (n : Nat) : Bool :=
  match Cells.look s.tier.xlat n with
  | some x => x ≠ (pageEnt s n).words
  | none => false

/-- The translation of a page: its entry, or, where software has changed the entry since it was cached, the old or the new one, which is open (R234, R235, log 19). -/
def pageXlat (s : State) (n : Nat) : PageEnt :=
  let e := pageEnt s n
  match Cells.look s.tier.xlat n with
  | some x => if x ≠ e.words && Config.freeValue s.free (2 ^ 40 + n) % 2 = 1 then { e with tier := x.1, frame := x.2.1, obj := x.2.2 } else e
  | none => e

/-- The package changes TIER, MIG, POIS and FRAME of an entry, in the lower word; no old translation of the page is left. -/
def setPage (n : Nat) (f : PageEnt → PageEnt) : Act :=
  .ask fun s =>
    let e := f (pageEnt s n)
    Act.all [updTier fun t => { t with xlat := Cells.del t.xlat n },
      pkgWrite (pteAddr s n) (natLe (e.tier + b2n e.mig * 4 + b2n e.pois * 8 + e.frame / 2 ^ 21 % 2 ^ 27 * 2 ^ 21) 8)]

/-- A page is used: its translation is cached, and LASTTOUCH is written, once a tide (R234, R235). An old translation stays cached. -/
def touchPage (n : Nat) : Act :=
  .ask fun s =>
    let t := getF s TIDE_COUNT.COUNT
    Act.all [if xlatOld s n then withFree fun _ => .skip else updTier fun x => { x with xlat := Cells.ins x.xlat n (pageEnt s n).words },
      Act.when (decide ((pageEnt s n).touch ≠ t)) (pkgWrite (pteAddr s n + 8) (natLe t 6))]

/-- The neighbour window, object space, PCIe outbound and register space (Table 1-10). -/
def isNeighbour (a : Nat) : Bool := decide (0x400000000000 ≤ a) && decide (a < 0x800000000000)
def isObject (a : Nat) : Bool := decide (0x800000000000 ≤ a) && decide (a < 0xC00000000000)
def isPcie (a : Nat) : Bool := decide (0xE00000000000 ≤ a) && decide (a < 0xF00000000000)
def isRegSpace (a : Nat) : Bool := decide (0xF00000000000 ≤ a) && decide (a < 0x1000000000000)

/-- An address is used: an object-space one uses its page. -/
def usePage (a : Nat) : Act := Act.when (isObject a) (touchPage (pageNo a))

/-- FRAME names a range of TIER. -/
def frameMatches (tier frame : Nat) : Bool :=
  match tier with
  | 1 => isQuay frame
  | 2 => isWarehouse frame
  | 3 => isNeighbour frame
  | _ => false

/-! Dies (Table 1-12). -/

/-- The state of compute die `d` in ID_DIEMAP: 0 in service, 1 dark, 2 down, 3 held in reset. -/
def dieState (s : State) (d : Nat) : Nat := bitsOf (getReg s .ID_DIEMAP 0 0).toNat (2 * d) 2

/-- The quay of a die that is dark, down or in reset answers nothing (R18). -/
def quayUp (s : State) (a : Nat) : Bool := dieState s (quayDie a) = 0

/-! Routes. -/

/-- Where an access within one line goes: warehouse or quay (with the object it belongs to), another berth, a PCIe device, register space; or it faults, or it stalls under a cause of Table 10-6, with a type 1 record due or not. -/
inductive Route where
  | mem (a : Nat) (obj : Option Nat)
  | far (berth off : Nat)
  | pcie (a : Nat)
  | regs (a : Nat)
  | fault
  | stall (cause : Nat) (absent : Bool)
deriving DecidableEq, Repr

/-- An access: address, bytes within one line, whether it writes, and whether it may be a rebuild write (a copy engine or the coherent DMA, R249). -/
structure Piece where
  a : Nat
  n : Nat
  wr : Bool
  rebuild : Bool
deriving DecidableEq, Repr

/-- The page waits with STATUS 4 (R239). -/
def pageWaitsQuota (s : State) (a : Nat) : Bool :=
  s.tier.mig = .waitQuota && pageNo (readNat s (getF s TIER_MIGQ.ADDR * 32 + 32 * getF s TIER_MIGPTR.HEAD + 8) 8) = pageNo a

/-- A line of a lost page that has not been rewritten (R250). -/
def lineLost (s : State) (a : Nat) : Bool :=
  match Cells.look s.tier.lost (pageNo a) with
  | some l => !l.contains (a / 64)
  | none => false

/-- Translation of an object-space access (R234, R237, R242, R248, R249). An absent page of an object in STATE 1 or 2 stalls under cause 0. -/
def objectRoute (s : State) (p : Piece) : Route :=
  let e := pageXlat s (pageNo p.a)
  let st := objState s e.obj
  let rebuilding := st = 2 && p.rebuild && p.wr && decide (p.n = 64) && decide (e.tier ≠ 0)
  let a := e.frame + p.a % 2 ^ 21
  if !getB s TIER_PTBASE.EN then .fault
  else if isPoisoned s (pteAddr s (pageNo p.a)) then .stall 0 false
  else if !objCovers s e.obj p.a then .fault
  else if e.tier ≠ 0 && !frameMatches e.tier e.frame then .fault
  else if (st = 1 || st = 2) && !rebuilding then .stall 0 (e.tier = 0)
  else if e.tier = 0 then (if pageWaitsQuota s p.a then .stall 1 true else .stall 2 true)
  else if (lineLost s p.a || isPoisoned s a || (e.tier = 1 && !quayUp s a)) && !rebuilding then .stall 0 false
  else if p.wr && e.mig then .stall 2 false
  else if e.tier = 3 then if !(theChart s).occupied ((a - 0x400000000000) / 2 ^ 38) then .fault else .far ((a - 0x400000000000) / 2 ^ 38) (a % 2 ^ 38)
  else .mem a (some e.obj)

/-- The route of an access (R16 to R19, R252). What a berth does not lend it answers with a NACK, which becomes the fault (R18, R353). -/
def route (s : State) (p : Piece) : Route :=
  if isWarehouse p.a || isQuay p.a then
    if isQuay p.a && !quayUp s p.a then .fault
    else if isPoisoned s p.a && !(p.wr && decide (p.n = 64)) then .fault
    else .mem p.a none
  else if isNeighbour p.a then
    if !(theChart s).occupied ((p.a - 0x400000000000) / 2 ^ 38) then .fault
    else .far ((p.a - 0x400000000000) / 2 ^ 38) (p.a % 2 ^ 38)
  else if isObject p.a then objectRoute s p
  else if isPcie p.a then .pcie p.a
  else if isRegSpace p.a then .regs p.a
  else .fault

/-- The route of a piece that stops: a fault or a stall. Register space counts as a fault for every requester that may not reach it (R19). -/
def Route.stops : Route → Bool
  | .fault => true
  | .stall _ _ => true
  | .regs _ => true
  | _ => false

/-- The pieces of an access. -/
def piecesOf (a n : Nat) (wr rebuild : Bool) : List Piece :=
  (linePieces a n).map fun p => { a := p.1, n := p.2, wr := wr, rebuild := rebuild }

/-- Where an access stalls: the cause of Table 10-6, whether its page is absent, its address, whether it writes. -/
structure StallAt where
  cause : Nat
  absent : Bool
  addr : Nat
  wr : Bool
deriving DecidableEq, Repr

/-- The stall of the first piece that stops, where it stalls. -/
def firstStall (s : State) (l : List Piece) : Option StallAt :=
  match l.find? (fun p => (route s p).stops) with
  | some p =>
    match route s p with
    | .stall c ab => some { cause := c, absent := ab, addr := p.a, wr := p.wr }
    | _ => none
  | none => none

/-- The address of the first access that faults. -/
def firstFault (s : State) (l : List Piece) : Option Nat :=
  match l.find? (fun p => (route s p).stops) with
  | some p =>
    match route s p with
    | .stall _ _ => none
    | _ => some p.a
  | none => none

/-! Fault records (R254). -/

/-- Entries of a ring's SIZE where it is a power of two from 16 to 32,768; a ring of any other size has no entry (log 12). -/
def ringSize (v : Nat) : Nat := if [16, 32, 64, 128, 256, 512, 1024, 2048, 4096, 8192, 16384, 32768].contains v then v else 0

/-- UNIT of a fault record: 0xFFFF for a coherent member and for an agent that is no unit (R254). -/
def agentUnit (s : State) : Agent → Nat
  | .control u => if (theChart s).memberTile u.val then 0xFFFF else u.val
  | .engine u => u.val
  | _ => 0xFFFF

/-- A fault record is written and TAIL advances, or it is dropped and counted. -/
def faultRecord (type obj unit addr : Nat) : Act :=
  .ask fun s =>
    let n := ringSize (getF s TIER_FQ.SIZE)
    let t := getF s TIER_FQPTR.TAIL
    if n = 0 || (t + 1) % n = getF s TIER_FQPTR.HEAD then Act.all [addF TIER_FQDROP.COUNT, evt TIER_EVT.FQFULL]
    else
      Act.all [pkgWrite (getF s TIER_FQ.ADDR * 32 + 32 * t)
          (natLe type 1 ++ natLe 0 1 ++ natLe obj 2 ++ natLe unit 2 ++ natLe 0 2 ++ natLe addr 8 ++ natLe (getF s TIDE_COUNT.COUNT) 8 ++ natLe 0 8),
        setF TIER_FQPTR.TAIL ((t + 1) % n)]

/-! Poison (R243 to R252). -/

/-- The object page a frame holds: its page number, found through the objects and the page table. -/
def pageOfFrame (s : State) (a : Nat) : Option Nat :=
  if getB s TIER_PTBASE.EN then
    ((List.range (getF s TIER_OBJTAB.COUNT + 1)).filter (fun o => objValid s o)).findSome? fun o =>
      ((List.range (objPages s o)).map fun k => pageNo (objBase s o) + k).find? fun n =>
        let e := pageEnt s n
        decide (e.obj = o) && decide (e.tier ≠ 0) && decide (e.frame = a / 2 ^ 21 * 2 ^ 21)
  else none

/-- A type 1 record: an access met an absent page (R234, R254). -/
def absentRecord (unit a : Nat) : Act := .ask fun s => faultRecord 1 (pageEnt s (pageNo a)).obj unit (a / 2 ^ 21 * 2 ^ 21)

/-- Lines of an object's page count as poisoned: POIS, POISLINES, STATE, FIRSTPOIS, the record, the event (R247, R250). -/
def objectPoisoned (n va lines type unit : Nat) : Act :=
  .ask fun s =>
    let o := (pageEnt s n).obj
    Act.all [setPage n fun e => { e with pois := true },
      pkgWrite (objAddr s o + 0x18) (natLe (objPoisLines s o + lines) 4),
      Act.when (objState s o = 0) (pkgWrite (objAddr s o + 0x20) (natLe va 8)),
      setObjState o 1,
      faultRecord type o unit va]

/-- A home poisons a line at a physical address (R247, R252); `unit` is the accessor of the record. -/
def poisonLine (a unit : Nat) : Act :=
  .ask fun s =>
    if isPoisoned s a then .skip
    else
      let mark := updTier fun t => { t with info := Cells.put {} t.info (a / 64) { Cells.get {} t.info (a / 64) with poison := true } }
      Act.all [mark,
        if inRange a (pageTable s) then Act.all [faultRecord 6 0 unit (a / 64 * 64), evt TIER_EVT.POISON, logEv .linePoisoned 0xFF unit]
        else
          match pageOfFrame s a with
          | some n => Act.all [objectPoisoned n (0x800000000000 + n * 2 ^ 21 + a % 2 ^ 21 / 64 * 64) 1 2 unit, evt TIER_EVT.POISON, logEv .linePoisoned 0xFF unit]
          | none => .skip]

/-- What a home finds when it reads a line of warehouse, or a word of quay, with so many symbols in error: nothing, a correction, an uncorrectable line; above four symbols of a line, and above two of a word, an open value says whether the pattern is detected, and a miscorrected codeword holds open bytes (R243, R245). -/
def eccCheck (a symErr unit : Nat) : Act :=
  let q := isQuay a
  let bad := incF (if q then TIER_ECCQ.UE else TIER_ECCW.UE)
  let fixed := incF (if q then TIER_ECCQ.CE else TIER_ECCW.CE)
  if symErr = 0 then .skip
  else if symErr ≤ 2 then fixed
  else if !q && symErr ≤ 4 then Act.all [bad, poisonLine a unit]
  else withFree fun pick =>
    if pick 0 % 2 = 0 then Act.all [bad, poisonLine a unit]
    else
      let n := if q then 32 else 64
      Act.all [fixed, writeMem (a / n * n) ((List.range n).map fun k => BitVec.ofNat 8 (pick (k + 1)))]

/-- Patrol of a warehouse line or a quay word: no accessor is named (R246). -/
def patrol (a symErr : Nat) : Act := Act.when (isWarehouse a || isQuay a) (eccCheck a symErr 0xFFFF)

def execPatrol (addr : Addr) (symErr : Nat) (s : State) : Host.Outcome State Fault Refusal := .next (run (patrol addr.toNat symErr) s)

/-- Poisoned lines left in a page. -/
def pageHasPoison (s : State) (n : Nat) : Bool :=
  (Cells.look s.tier.lost n).isSome ||
  s.tier.info.any fun e => e.2.poison && decide (e.1 * 64 / 2 ^ 21 * 2 ^ 21 = (pageEnt s n).frame)

/-- A full-line write to a poisoned line of an object decrements POISLINES; POIS clears with the page's last one (R248). `was` says that the line was poisoned. -/
def unpoison (va obj : Nat) (was : Bool) : Act :=
  Act.when was (Act.all [
    updTier fun t => { t with lost := match Cells.look t.lost (pageNo va) with
      | some l => if (va / 64 :: l).length = 32768 then Cells.del t.lost (pageNo va) else Cells.ins t.lost (pageNo va) (va / 64 :: l)
      | none => t.lost },
    .ask fun s => pkgWrite (objAddr s obj + 0x18) (natLe (objPoisLines s obj - 1) 4),
    .ask fun s => Act.when (!pageHasPoison s (pageNo va)) (setPage (pageNo va) fun e => { e with pois := false })])

/-- The lines of a page that count as poisoned already. -/
def linesPoisoned (s : State) (n : Nat) : Nat :=
  match Cells.look s.tier.lost n with
  | some l => 32768 - l.length
  | none => (s.tier.info.filter fun e => e.2.poison && decide (e.1 * 64 / 2 ^ 21 * 2 ^ 21 = (pageEnt s n).frame)).length

/-- A page lost with its lender or its die: every line of it that does not count as poisoned yet does now (R250). -/
def pageLost (n : Nat) : Act :=
  .ask fun s => Act.all [updTier fun t => { t with lost := Cells.ins t.lost n [], info := t.info.filter fun e => decide (e.1 * 64 / 2 ^ 21 * 2 ^ 21 ≠ (pageEnt s n).frame) },
    objectPoisoned n (0x800000000000 + n * 2 ^ 21) (32768 - linesPoisoned s n) 5 0xFFFF, evt TIER_EVT.LOST, evt TIER_EVT.POISON, logEv .linePoisoned]

/-- The object pages a predicate of their entries selects. -/
def pagesWhere (s : State) (c : PageEnt → Bool) : List Nat :=
  if getB s TIER_PTBASE.EN then
    ((List.range (getF s TIER_OBJTAB.COUNT + 1)).filter (fun o => objValid s o)).flatMap fun o =>
      ((List.range (objPages s o)).map fun k => pageNo (objBase s o) + k).filter fun n =>
        decide ((pageEnt s n).obj = o) && c (pageEnt s n)
  else []

/-! Reads and writes. -/

/-- The bytes of a piece: a PCIe device, and another berth's memory that was not fetched, return open values (log 13). -/
def pieceBytes (pick : Nat → Nat) (s : State) (p : Piece) : List Byte :=
  match route s p with
  | .mem a _ => readMem s a p.n
  | _ => (List.range p.n).map fun k => BitVec.ofNat 8 (pick (p.a + k))

/-- `n` bytes from an address of the map on. -/
def mapRead (pick : Nat → Nat) (s : State) (a n : Nat) : List Byte := (piecesOf a n false false).flatMap fun p => pieceBytes pick s p

/-- What reading pieces leaves behind: the object pages' LASTTOUCH, and PCIe reads. -/
def piecesDone (l : List Piece) : Act :=
  .ask fun s => Act.each (fun p =>
    Act.all [usePage p.a,
      match route s p with
      | .pcie x => send (.pcieRead (BitVec.ofNat 48 x) p.n)
      | _ => .skip]) l

/-- What a read leaves behind. -/
def readDone (a n : Nat) : Act := piecesDone (piecesOf a n false false)

/-! Reads of another berth's memory by engines (R343, R353): asked for piece by piece before the item moves its bytes. -/

/-- A piece lies in another berth's memory. -/
def isFar (s : State) (p : Piece) : Bool := match route s p with | .far _ _ => true | _ => false

/-- A fetch covers a piece. -/
def Fetch.covers (f : Fetch) (w : FetchFor) (p : Piece) : Bool := decide (f.who = w) && decide (f.addr ≤ p.a) && decide (p.a + p.n ≤ f.addr + f.n)

/-- The pieces of reads, up to the first access that stops, that lie in another berth's memory and have not been asked for. -/
def fetchMissing (s : State) (w : FetchFor) (l : List Piece) : List Piece :=
  ((l.takeWhile fun p => !(route s p).stops).filter fun p => isFar s p && !s.tier.fetch.any fun f => f.covers w p).eraseDups

/-- An answer is still due. -/
def fetchDue (s : State) (w : FetchFor) : Bool := s.tier.fetch.any fun f => decide (f.who = w) && decide (f.ans = .due)

/-- A piece was refused. -/
def fetchRefused (s : State) (w : FetchFor) (p : Piece) : Bool := s.tier.fetch.any fun f => f.covers w p && decide (f.ans = .refused)

/-- Every read of another berth among pieces has been answered with data. -/
def fetchClear (s : State) (w : FetchFor) (l : List Piece) : Bool := (fetchMissing s w l).isEmpty && !fetchDue s w && !l.any (fetchRefused s w)

/-- The bytes of a range from `a` on before the first of its pieces that stops, and how it stops: at a fault or at a stall. A read that another berth refused stops as a fault. -/
def okPieces (s : State) (w : FetchFor) (l : List Piece) (a n : Nat) : Nat × Option Nat × Option StallAt :=
  match l.find? fun p => (route s p).stops || (!p.wr && fetchRefused s w p) with
  | none => (n, none, none)
  | some p =>
    match route s p with
    | .stall c ab => (p.a - a, none, some { cause := c, absent := ab, addr := p.a, wr := p.wr })
    | _ => (p.a - a, some p.a, none)

/-- The same of a read or a write of a range. -/
def okPrefix (s : State) (w : FetchFor) (a n : Nat) (wr : Bool) : Nat × Option Nat × Option StallAt :=
  okPieces s w (piecesOf a n wr false) a n

/-- The bytes fetched from other berths in place of open values. -/
def fetchPick (s : State) (w : FetchFor) (pick : Nat → Nat) (x : Nat) : Nat :=
  match s.tier.fetch.find? fun f => decide (f.who = w) && inRange x (f.addr, f.n) with
  | some f => (match f.ans with | .data bs => (bs.getD (x - f.addr) 0).toNat | _ => pick x)
  | none => pick x

/-- Pieces are asked for. -/
def fetchSend (w : FetchFor) (l : List Piece) : Act :=
  Act.each (fun p => .ask fun s => match route s p with
    | .far b off => Act.all [usePage p.a,
        updTier fun t => { t with fetch := t.fetch ++ [{ who := w, addr := p.a, n := p.n, ans := .due, since := s.now }] },
        sendRead b off p.n fun _ => .engine w (BitVec.ofNat 48 p.a)]
    | _ => .skip) l

/-- An answer arrives. -/
def fetchAnswer (w : FetchFor) (addr : Nat) (ans : FetchAns) : Act :=
  updTier fun t => { t with fetch := t.fetch.map fun f => if f.who = w && f.addr = addr && f.ans = .due then { f with ans := ans } else f }

/-- What was fetched is no longer needed; answers that are still due then serve nobody. -/
def fetchDrop (c : FetchFor → Bool) : Act :=
  Act.all [updTier fun t => { t with fetch := t.fetch.filter fun f => !c f.who },
    updHural fun h => { h with reqs := h.reqs.map fun r => match r.job with
      | .engine w addr => if c w then { r with job := .engine .nobody addr } else r
      | _ => r }]

/-- Work that reads pieces goes on once those in other berths have been answered. -/
def fetched (w : FetchFor) (l : State → List Piece) (k : Act) : Act :=
  .ask fun s =>
    if !(fetchMissing s w (l s)).isEmpty then fetchSend w (fetchMissing s w (l s))
    else if fetchDue s w then .skip
    else k

/-- A unit has writes into other berths that are not acknowledged. -/
def putsOpen (s : State) (u : Nat) : Bool := s.hural.reqs.any fun r => match r.job with | .put v _ => decide (v = u) | _ => false

/-- The writes of units into other berths no longer hold an item back. -/
def putsDrop (c : Nat → Bool) : Act :=
  updHural fun h => { h with reqs := h.reqs.map fun r => match r.job with
    | .put u addr => if c u then { r with job := .write none addr } else r
    | _ => r }

/-- A CC = 1 write to an export region is discarded, acknowledged and logged (R211). -/
def exportRegion (s : State) (a : Nat) : Bool := inLighter s a || inHostRegion s a || inDumpRegion s a

/-- A discarded CC = 1 write is logged with its partition, LAYER tag and address (R211). -/
def specDiscard (w : Writer) (a : Nat) : Act := logEv .specDiscard (data := [w.part, w.layer, a])

/-- A command's write leaves on a non-coherent path: the queue keeps it until it is delivered (R299, R300). -/
def farNote (q seq addr : Nat) (berth : Option Nat) : Act :=
  .prim (.bell fun m =>
    let x := Cells.get {} m q
    Cells.put {} m q { x with far := x.far ++ [{ id := x.farNo, berth := berth, addr := addr, seq := seq, object := isObject addr }], farNo := x.farNo + 1 })

/-- A write into another berth's window, and what its answer serves. -/
def farWrite (w : Writer) (b off a : Nat) (bs : List Byte) : Act :=
  match w.queue with
  | some (q, seq) => .ask fun s => .seq (farNote q seq a (some b)) (sendWrite b off bs (.bell q (Cells.get {} s.bell q).farNo))
  | none => sendWrite b off bs (match w.unit with
      | some u => .put u (BitVec.ofNat 48 a)
      | none => .write w.who (BitVec.ofNat 48 a))

/-- A full-line write through a direct window to a poisoned line of an object counts as one of the object (R248). -/
def frameUnpoison (x : Nat) (was : Bool) : Act :=
  .ask fun s => match pageOfFrame s x with
    | some n => unpoison (0x800000000000 + n * 2 ^ 21 + x % 2 ^ 21) (pageEnt s n).obj was
    | none => .skip

/-- The write of one piece that does not stop. -/
def writePiece (w : Writer) (rebuild : Bool) (a : Nat) (bs : List Byte) : Act :=
  .ask fun s =>
    let p : Piece := { a := a, n := bs.length, wr := true, rebuild := rebuild }
    Act.all [usePage a,
      match route s p with
      | .mem x obj =>
        if w.cc && exportRegion s x then specDiscard w a
        else
          match obj with
          | none => Act.all [storeMem w x bs, Act.when (isPoisoned s x) (frameUnpoison x true)]
          | some o => Act.all [storeMem { w with object := true } x bs, unpoison a o (isPoisoned s x || lineLost s a)]
      | .far b off =>
        if w.cc then specDiscard w a
        else
          let x := 0x400000000000 + b * 2 ^ 38 + off
          Act.all [Act.when (isObject a && decide (bs.length = 64)) (Act.all [updTier fun t => { t with info := Cells.del t.info (x / 64) },
              unpoison a (pageEnt s (pageNo a)).obj (isPoisoned s x || lineLost s a)]),
            farWrite w b off a bs]
      | .pcie x => if w.cc then specDiscard w a else Act.all [match w.queue with | some (q, seq) => farNote q seq a none | none => .skip, send (.pcieWrite (BitVec.ofNat 48 x) bs)]
      | _ => .skip]

/-- A write of bytes none of whose pieces stops. -/
def mapWrite (w : Writer) (rebuild : Bool) (a : Nat) (bs : List Byte) : Act :=
  Act.all [Act.each (fun p => writePiece w rebuild p.1 (slice bs (p.1 - a) p.2)) (linePieces a bs.length),
    .ask fun s => match route s { a := a, n := 1, wr := true, rebuild := true } with
      | .mem x _ => clearBlocks w x bs.length
      | _ => .skip]

/-! Stalls of planned units (R242). -/

/-- The key of a queue's COPY among the stalls; the planned items of the copy engines stall as unit 513. -/
def copyKey (q seq : Nat) : Nat := 1024 + q * 2 ^ 32 + seq

/-- The planned unit of a key. -/
def keyUnit (k : Nat) : Nat := if k < 1024 then k else 513

/-- A unit stalls: an episode counts where its cause is new, and an absent page that it meets anew gets its record. -/
def unitStall (k : Nat) (st : StallAt) : Act :=
  .ask fun s =>
    let old := Cells.look s.tier.stalls k
    let noted := match old with | some o => o.noted && decide (o.addr / 2 ^ 21 = st.addr / 2 ^ 21) | none => false
    Act.all [Act.when (decide (old.map (fun o => o.cause) ≠ some st.cause)) (incF TIER_STALL.EPISODES 1 st.cause),
      Act.when (st.absent && !noted) (absentRecord (keyUnit k) st.addr),
      updTier fun t => { t with stalls := Cells.ins t.stalls k { cause := st.cause, addr := st.addr, wr := st.wr, noted := noted || st.absent } }]

/-- A unit's stall ends. -/
def unitGoes (k : Nat) : Act := updTier fun t => { t with stalls := Cells.del t.stalls k }

/-- The cause that holds a stalled access now (Table 10-6). -/
def stallNow (s : State) (x : Stall) : Option Nat :=
  match route s { a := x.addr, n := 1, wr := x.wr, rebuild := false } with
  | .stall c _ => some c
  | _ => none

/-- A stall goes on: something still holds the access, or it is late (R231, Table 10-6). -/
def Stall.lasts (x : Stall) (s : State) : Bool := decide (3 ≤ x.cause) || (stallNow s x).isSome

/-- The stall of unit `u` with the lowest key. -/
def unitStalled (s : State) (u : Nat) : Option Stall := (s.tier.stalls.find? fun e => decide (keyUnit e.1 = u) && e.2.lasts s).map fun e => e.2

/-! Accesses of agents (R16 to R19, R213, R242). -/

/-- The agent is a member of the coherent domain, or the coherent DMA (R255). -/
def isMember (s : State) : Agent → Bool
  | .host c => (theChart s).memberHost c.val
  | .control u => (theChart s).memberTile u.val
  | .copyDma => true
  | _ => false

/-- Partition `p` has a pass without its verdict, or a layer that is being repeated (R213, Table 9-4), or marks that outlive a compute-part reset (R214). -/
def passOpen (s : State) (p : Nat) : Bool :=
  (s.num.passes.any fun e => decide (e.1 / 65536 = p) && (match e.2 with | some x => !x.decided || x.repeating | none => false)) ||
  decide (Cells.get 0 s.tier.lapse p ≠ 0)

/-- The mark of a physical address as (CLASS, PART). -/
def markOf (s : State) (a : Nat) : Nat × Nat :=
  if isQuay a then Cells.get (0, 0) s.tier.qmarks (a / 65536)
  else let m := Cells.get {} s.tier.info (a / 64); (m.cls, m.part)

/-- A member's access to an address of warehouse or quay is held (R213). -/
def heldAt (s : State) (a : Nat) : Bool :=
  match markOf s a with
  | (1, p) => passOpen s p
  | (2, _) => getB s UPD_PSET.VALID
  | _ => false

/-- The length and direction of an operation. -/
def accessLen : AccessOp → Nat
  | .read n => n
  | .write bs _ _ _ => bs.length
def accessWrites : AccessOp → Bool
  | .read _ => false
  | .write _ _ _ _ => true

/-- The pieces of an agent's access. -/
def accessPieces (who : Agent) (a : Nat) (op : AccessOp) : List Piece := piecesOf a (accessLen op) (accessWrites op) (decide (who = .copyDma))

/-- An access waits. -/
def accessWaits (who : Agent) (addr : Addr) (job : WaitJob) (held : Bool) (cause : Nat) : Act :=
  .ask fun s => updTier fun t => { t with waits := t.waits ++
    [{ who := who, addr := addr, job := job, since := getF s TIDE_COUNT.COUNT, began := s.now, held := held, cause := cause }] }

/-- An agent's access stalls; where it is new an absent page gets its record (R234, R242). -/
def stallWaits (who : Agent) (addr : Addr) (job : WaitJob) (st : StallAt) (fresh : Bool) : Act :=
  .ask fun s => Act.all [Act.when (fresh && st.absent) (absentRecord (agentUnit s who) st.addr), accessWaits who addr job false st.cause]

/-- The homes grant nothing to members and to the coherent DMA while the domain collapses (R271). -/
def homesStop (s : State) : Bool := decide (getF s COH_STAT2.STATE = 2)

/-- A piece of an agent's read of another berth's memory: the answer follows with RDATA (R343). -/
def readFar (who : Agent) (p : Piece) : Act :=
  .ask fun s => match route s p with
    | .far b off => Act.all [usePage p.a, sendRead b off p.n fun _ => .read who (BitVec.ofNat 48 p.a) p.n]
    | _ => withFree fun pick => Act.all [respond who (BitVec.ofNat 48 p.a) (pieceBytes pick s p), readDone p.a p.n]

/-- A read touches another berth. -/
def anyFar (s : State) (l : List Piece) : Bool := l.any fun p => isFar s p

/-- An access that neither faults, waits nor reaches register space is served. A read that touches another berth is answered piece by piece (log 29). -/
def accessServe (who : Agent) (addr : Addr) (op : AccessOp) : Act :=
  match op with
  | .read n => .ask fun s =>
    if anyFar s (piecesOf addr.toNat n false false) then Act.each (readFar who) (piecesOf addr.toNat n false false)
    else withFree fun pick => .ask fun s => Act.all [respond who addr (mapRead pick s addr.toNat n), readDone addr.toNat n]
  | .write bs cc p layer =>
    Act.all [mapWrite { cc := cc, part := p.val, layer := layer, who := some who } (decide (who = .copyDma)) addr.toNat bs, respond who addr []]

/-- A piece of an access lies on a marked line or block that is held (R213). -/
def anyHeld (s : State) (l : List Piece) : Bool := l.any fun p => match route s p with | .mem a _ => heldAt s a | _ => false

/-- An agent's access to memory: fault, stall, hold or service. `fresh` says that no record of its stall has been posted. -/
def memAccess (who : Agent) (addr : Addr) (op : AccessOp) (fresh : Bool) : Act :=
  .ask fun s =>
    let l := accessPieces who addr.toNat op
    match firstFault s l, firstStall s l with
    | some _, _ => accessFault who addr
    | none, some st => stallWaits who addr (.acc op) st fresh
    | none, none =>
      if isMember s who && homesStop s then accessWaits who addr (.acc op) false 6
      else if isMember s who && anyHeld s l then accessWaits who addr (.acc op) true 0
      else accessServe who addr op

end Sys2Proof.Machine
end

