-- ==== Sys2Proof/Machine/Cache.lean ====
section
/-! DEFINITION. The caching agents of the coherent domain: a core's operation on a line, requests, evictions, transactions at homes as their agents start them, and atomics (R255 to R258, R262 to R268). Lines are named by address ÷ 64. -/

namespace Sys2Proof.Machine

/-- Update of the domain. -/
def updCoh (f : CohSt → CohSt) : Act := .prim (.coh f)

/-- The owned protocol is in effect (R260). -/
def ownedProtocol (s : State) : Bool := getB s COH_STAT.MODE

/-- An agent number is a member's (R255). -/
def agentMember (s : State) (a : Nat) : Bool :=
  if a < 512 then (theChart s).memberTile a else if a = 512 then s.chart.cur.isSome else (theChart s).memberCdma

/-- A member that caches: the coherent DMA has no cache (Table 11-1). -/
def agentCaches (s : State) (a : Nat) : Bool := agentMember s a && decide (a ≠ 513)

/-- The control part of a tile has power: its role is not off (R89). Any other agent has its own. -/
def coreOn (s : State) (a : Nat) : Bool := !(decide (a < 512) && s.chart.cur.isSome && decide ((theChart s).role a = 0))

/-- An agent issues requests: a member that has power and neither departs nor has departed, in a domain that does not collapse (R268, R271). -/
def agentActive (s : State) (a : Nat) : Bool :=
  let x := cohAgent s a
  agentCaches s a && coreOn s a && !x.departing && !x.departed && !x.dead && !homesStop s

/-- An agent's name among the requesters of accesses; the host agent's requests come from some core of it. -/
def agentWho (a : Nat) : Agent :=
  if h : a < 512 then .control ⟨a, h⟩ else if a = 512 then .host 0 else .copyDma

/-- The copy of a line in an agent's cache. -/
def copyOf (s : State) (a line : Nat) : Option CLine := Cells.look (cohAgent s a).lines line

/-- A line of an agent takes a value or leaves the cache. -/
def setCopy (a line : Nat) (c : Option CLine) : Act :=
  updAgent a fun x => { x with lines := match c with | some c => Cells.ins x.lines line c | none => Cells.del x.lines line }

/-- A directory entry takes a value or is freed. -/
def setDir (line : Nat) (e : Option DirEnt) : Act :=
  updCoh fun c => { c with dir := match e with | some e => Cells.ins c.dir line e | none => Cells.del c.dir line }

/-- A request for a line arrives: it is the line's most recent one (R259). -/
def dirRequest (line : Nat) : Act :=
  updCoh fun c => { c with order := c.order + 1, dir := c.dir.map fun e => if e.1 = line then (e.1, { e.2 with last := c.order + 1 }) else e }

/-- The place of a line's last request in the order of requests; a line without an entry has just been requested. -/
def lastOf (s : State) (line : Nat) : Nat :=
  match Cells.look s.coh.dir line with
  | some e => e.last
  | none => s.coh.order

/-- Bytes of a line from an address on. -/
def lineBytes (d : Desc) (a n : Nat) : List Byte := slice (descBytes d) (a % 64) n

/-- A line with bytes replaced. -/
def lineWith (d : Desc) (a : Nat) (bs : List Byte) : Desc := descOf ((patch (descBytes d) (a % 64) bs).take 64)

/-- A line as memory holds it. -/
def memLine (s : State) (line : Nat) : Desc := descOf ((List.range 64).map fun k => Cells.get 0 s.mem (line * 64 + k))

/-- The metadata of a line after a member's write-back: the mark clears, and so does the poison bit of a line outside every object; one of an object stays until its rebuild (R212, R249, R252). -/
def LineMeta.written (m : LineMeta) (ofObject : Bool) : LineMeta := { m with cls := 0, part := 0, poison := m.poison && ofObject }

/-- A line reaches memory by a write-back; it never waits for a hold (Table 11-9). -/
def writeBack (line : Nat) (d : Desc) : Act :=
  Act.all [writeMem (line * 64) (descBytes d),
    .ask fun s => updTier fun t => { t with info := Cells.put {} t.info line ((Cells.get {} t.info line).written (pageOfFrame s (line * 64)).isSome) }]

/-! Atomics at an agent (R266, R267). -/

/-- The result an AMO stores. -/
def amoResult (op : AmoOp) (size old val : Nat) : Nat :=
  let w := 8 * size
  let so := signedOf old w
  let sv := signedOf val w
  let v := val % 2 ^ w
  match op with
  | .swap => v
  | .add => (old + v) % 2 ^ w
  | .and => old &&& v
  | .or => old ||| v
  | .xor => old ^^^ v
  | .min => if so ≤ sv then old else v
  | .max => if so ≤ sv then v else old
  | .minu => min old v
  | .maxu => max old v

/-- The index of a core's predictor (R267). -/
def predKey (core a : Nat) : Nat := core * 1024 + (bitsOf a 6 10 ^^^ bitsOf a 16 10)

/-- The agent of a core: 0..511 are the control cores, 512 + h is host core h. -/
def coreAgent (core : Nat) : Nat := min core 512

/-- A predictor counter moves up or down between 0b00 and 0b11. -/
def predMove (core a : Nat) (up : Bool) : Act :=
  updAgent (coreAgent core) fun x =>
    let v := Cells.get 1 x.pred (predKey core a)
    { x with pred := Cells.put 1 x.pred (predKey core a) (if up then min 3 (v + 1) else v - 1) }

/-- A line leaves an agent: the reservations of its cores on it end. -/
def endResv (a line : Nat) : Act := updAgent a fun x => { x with resv := x.resv.filter fun e => e.2 ≠ line }

/-- What an agent's core does once its cache holds the line (R261, R266). -/
def coreAct (a line : Nat) (op : CoreOp) : Act :=
  .ask fun s =>
    match copyOf s a line with
    | none => .skip
    | some c =>
      let write := fun (d : Desc) => Act.all [setCopy a line (some { c with st := .m, data := d }), endResv a line]
      match op with
      | .load => send (.coreData a (BitVec.ofNat 48 (line * 64)) (descBytes c.data))
      | .store ad bs => write (lineWith c.data ad.toNat bs)
      | .amo _ ad o n v =>
        let old := lineBytes c.data ad.toNat n
        Act.all [write (lineWith c.data ad.toNat (natLe (amoResult o n (leNat old) v.toNat) n)), send (.coreData a ad old), incF COH_ATOMIC.FAR]
      | .lr core ad n =>
        Act.all [updAgent a fun x => { x with resv := Cells.ins x.resv core line }, send (.coreData a ad (lineBytes c.data ad.toNat n))]
      | .sc core ad n v =>
        if Cells.look (cohAgent s a).resv core = some line then
          Act.all [write (lineWith c.data ad.toNat (natLe v.toNat n)), send (.coreData a ad (natLe 0 n))]
        else send (.coreData a ad (natLe 1 n))

/-! Lines leave a cache (Tables 11-2 and 11-3). -/

/-- A line leaves a cache: dropped, or with EvC, EvF or WB; a copy with an uncorrectable error is written back as poisoned (R268). -/
def evictLine (a line : Nat) : Act :=
  .ask fun s =>
    match copyOf s a line with
    | none => .skip
    | some c =>
      let pend := fun (p : Pend) => updAgent a fun x => { x with pend := Cells.ins x.pend line p }
      Act.all [setCopy a line none, endResv a line,
        match c.st with
        | .m => pend { data := some c.data, poison := c.bad }
        | .o => pend { data := some c.data, poison := c.bad }
        | .e => pend { data := none }
        | .f => pend { data := none }
        | _ => .skip]

def agentEvict (a line : Nat) : Act := .ask fun s => if (Cells.look (cohAgent s a).wants line).isSome then .skip else evictLine a line
def execAgentEvict (a : Fin 514) (line : Addr) (s : State) : Host.Outcome State Fault Refusal := .next (run (agentEvict a.val (line.toNat / 64)) s)

/-- The lines a cache holds: the data cache of a control core, or the host cache with what it includes (Table 11-1, log 55). -/
def cacheLines (a : Nat) : Nat := if a < 512 then 512 else 3145728

/-- A cache has no place for a line that it does not hold: its lines and its outstanding requests for others fill it. -/
def cacheFull (s : State) (a line : Nat) : Bool :=
  let x := cohAgent s a
  (copyOf s a line).isNone && decide (cacheLines a ≤ x.lines.length + (x.wants.filter fun w => (Cells.look x.lines w.1).isNone).length)

/-- The lines a cache may give up: those without an outstanding request. -/
def victims (s : State) (a : Nat) : List Nat :=
  let x := cohAgent s a
  (x.lines.filter fun l => (Cells.look x.wants l.1).isNone).map fun l => l.1

/-! A core's operation. -/

/-- An agent sends a request for an operation of its core. -/
def request (a line : Nat) (k : ReqKind) (op : CoreOp) : Act :=
  Act.all [updAgent a fun x => { x with wants := Cells.ins x.wants line op }, updCoh fun c => { c with reqs := c.reqs ++ [(a, line, k)] }]

/-- The operation needs ownership. -/
def CoreOp.owns : CoreOp → Bool
  | .load => false
  | _ => true

/-- A request for a line that the agent does not hold; a full cache gives up a line first, and which one is open. -/
def requestNew (a line : Nat) (op : CoreOp) : Act :=
  .ask fun s =>
    let go := request a line (if op.owns then .rdx else .rds) op
    if !cacheFull s a line then go
    else
      match victims s a with
      | [] => .skip
      | v :: vs => withFree fun pick => .seq (evictLine a ((v :: vs).getD (pick 0 % (v :: vs).length) v)) go

/-- An agent's core operates on a line: a hit, or a request (Tables 11-2 and 11-3). -/
def coreRequest (a line : Nat) (op : CoreOp) : Act :=
  .ask fun s =>
    if !agentActive s a || (Cells.look (cohAgent s a).wants line).isSome || (Cells.look (cohAgent s a).pend line).isSome then .skip
    else
      match copyOf s a line with
      | none => requestNew a line op
      | some c =>
        if !op.owns || c.st = .m || c.st = .e then coreAct a line op
        else request a line .upg op

/-- The bytes of a core's load or store within its line, and the same as a plain access. -/
def CoreOp.size : CoreOp → Nat
  | .store _ bs => bs.length
  | _ => 1
def CoreOp.plain : CoreOp → AccessOp
  | .store _ bs => .write bs false 0 0
  | _ => .read 64

/-- A core's access at an address: cached for a member on warehouse or quay, uncached otherwise (R256). A member's access that stalls waits and is then made again. -/
def coreAccess (a addr : Nat) (op : CoreOp) (fresh : Bool) : Act :=
  .ask fun s =>
    match route s { a := addr, n := op.size, wr := op.owns, rebuild := false } with
    | .mem x _ => if agentCaches s a then .seq (usePage addr) (coreRequest a (x / 64) op) else memAccess (agentWho a) (BitVec.ofNat 48 addr) op.plain fresh
    | .stall c ab =>
      if agentCaches s a then stallWaits (agentWho a) (BitVec.ofNat 48 addr) (.core a op) { cause := c, absent := ab, addr := addr, wr := op.owns } fresh
      else memAccess (agentWho a) (BitVec.ofNat 48 addr) op.plain fresh
    | _ => memAccess (agentWho a) (BitVec.ofNat 48 addr) op.plain fresh

/-! Transactions at a home. -/

/-- The group of the coarse vector: the host agent, and 32 groups of 16 tile agents. -/
def groupOf (a : Nat) : Nat := if a < 512 then a / 16 else 32

/-- The agents an invalidation goes to, without `but`. -/
def DirEnt.holders (s : State) (e : DirEnt) (but : Option Nat) : List Nat :=
  let sh := if e.coarse then (List.range 513).filter fun a => agentMember s a && e.sharers.any fun b => groupOf b = groupOf a else e.sharers
  ((if e.owned && !sh.contains e.owner then [e.owner] else []) ++ sh).filter fun a => some a ≠ but

/-- The agents a line's uncached write snoops. -/
def lineHolders (s : State) (line : Nat) : List Nat :=
  match Cells.look s.coh.dir line with
  | some e => e.holders s none
  | none => []

/-- Snoops set out and a transaction opens. -/
def openTx (line : Nat) (job : TxFor) (k : SnpKind) (dests : List Nat) : Act :=
  .ask fun s => updCoh fun c =>
    { c with
      snoops := c.snoops ++ dests.map fun a => { line := line, agent := a, kind := k, sent := s.now }
      txs := Cells.ins c.txs line { job := job, waits := dests } }

/-! AMO, LR and SC (R266, R267). -/

/-- The home performs a near AMO on memory, with no copy of the line left; its core's predictor learns whether a copy of another agent was displaced. -/
def nearAct (x : NearAmo) (displaced : Bool) : Act :=
  Act.all [dropCopies (x.addr / 64) true, predMove x.core x.addr displaced, .ask fun s =>
    let old := readMem s x.addr x.size
    Act.all [storeMem {} x.addr (natLe (amoResult x.op x.size (leNat old) x.val.toNat) x.size),
      send (.coreData (coreAgent x.core) (BitVec.ofNat 48 x.addr) old), incF COH_ATOMIC.NEAR]]

/-- A near AMO at the home of its line: it waits behind an open transaction; else every cached copy is recalled by a snoop before the home performs it (Table 11-5). -/
def nearHome (x : NearAmo) : Act :=
  .ask fun s =>
    let line := x.addr / 64
    if (Cells.look s.coh.txs line).isSome then updCoh fun c => { c with amos := c.amos ++ [x] }
    else
      .seq (dirRequest line) (if (lineHolders s line).isEmpty then nearAct x false else openTx line (.near x) .snpX (lineHolders s line))

/-- An atomic reaches warehouse or quay, at a size of 4 or 8 bytes and aligned to it; else it faults (R266). -/
def atomicAddr (s : State) (addr n : Nat) : Option Nat :=
  if (n = 4 || n = 8) && addr % n = 0 then
    match route s { a := addr, n := n, wr := true, rebuild := false } with
    | .mem x _ => some x
    | _ => none
  else none

/-- Where an atomic of the right size and alignment stalls. -/
def atomicStall (s : State) (addr n : Nat) : Option StallAt :=
  if (n = 4 || n = 8) && addr % n = 0 then firstStall s [{ a := addr, n := n, wr := true, rebuild := false }] else none

/-- An atomic acts at its place in warehouse or quay. One whose page stalls waits as any access of its agent does, and any other address faults (R234, R242, R266). -/
def atAtomic (core addr n : Nat) (op : CoreOp) (fresh : Bool) (k : Nat → Act) : Act :=
  .ask fun s =>
    match atomicAddr s addr n, atomicStall s addr n with
    | some x, _ => .seq (usePage addr) (k x)
    | none, some st => stallWaits (agentWho (coreAgent core)) (BitVec.ofNat 48 addr) (.core (coreAgent core) op) st fresh
    | none, none => Act.all [send (.agentFault (coreAgent core) (BitVec.ofNat 48 addr)), logEv .accessFault 0xFF (coreAgent core)]

/-- A core whose agent performs atomics: a member with power (R89, R266). -/
def atomicCore (s : State) (core : Nat) : Bool := agentCaches s (coreAgent core) && coreOn s (coreAgent core)

/-- AMO: near or far, as the core's predictor says; a far one on a line it owns finds no other holder. A near one waits on a held line, and while the domain collapses (R213, R271, Table 11-9). -/
def amo (core addr : Nat) (op : AmoOp) (n : Nat) (v : W64) (fresh : Bool) : Act :=
  let job : CoreOp := .amo core (BitVec.ofNat 48 addr) op n v
  atAtomic core addr n job fresh fun x => .ask fun s =>
    let a := coreAgent core
    if 2 ≤ Cells.get 1 (cohAgent s a).pred (predKey core x) then
      if !agentActive s a && !homesStop s then .skip
      else if homesStop s then accessWaits (agentWho a) (BitVec.ofNat 48 addr) (.core a job) false 6
      else if heldAt s x then accessWaits (agentWho a) (BitVec.ofNat 48 addr) (.core a job) true 0
      else nearHome { core := core, addr := x, op := op, size := n, val := v }
    else
      match copyOf s a (x / 64) with
      | some c => Act.all [Act.when (agentActive s a && (c.st = .m || c.st = .e)) (predMove core x false), coreRequest a (x / 64) (.amo core (BitVec.ofNat 48 x) op n v)]
      | none => coreRequest a (x / 64) (.amo core (BitVec.ofNat 48 x) op n v)
def execAmo (core : Fin 608) (addr : Addr) (op : AmoOp) (size : Nat) (val : W64) (s : State) : Host.Outcome State Fault Refusal :=
  .next (run (.given (fun s => atomicCore s core.val) (amo core.val addr.toNat op size val true)) s)

/-- LR and SC run far. An SC without a reservation on its line fails at once. -/
def lrSc (core addr : Nat) (sc : Bool) (n : Nat) (v : W64) (fresh : Bool) : Act :=
  atAtomic core addr n (if sc then .sc core (BitVec.ofNat 48 addr) n v else .lr core (BitVec.ofNat 48 addr) n) fresh fun x => .ask fun s =>
    let a := coreAgent core
    if !sc then coreRequest a (x / 64) (.lr core (BitVec.ofNat 48 x) n)
    else if Cells.look (cohAgent s a).resv core = some (x / 64) then coreRequest a (x / 64) (.sc core (BitVec.ofNat 48 x) n v)
    else send (.coreData a (BitVec.ofNat 48 x) (natLe 1 n))
def execLrSc (core : Fin 608) (addr : Addr) (sc : Bool) (size : Nat) (val : W64) (s : State) : Host.Outcome State Fault Refusal :=
  .next (run (.given (fun s => atomicCore s core.val) (lrSc core.val addr.toNat sc size val true)) s)

/-- A core's operation is made again after it has waited. -/
def coreAgain (a addr : Nat) (op : CoreOp) : Act :=
  match op with
  | .amo core _ o n v => amo core addr o n v false
  | .lr core _ n => lrSc core addr false n 0 false
  | .sc core _ n v => lrSc core addr true n v false
  | op => coreAccess a addr op false

end Sys2Proof.Machine
end

