-- ==== Sys2Proof/Machine/Pages.lean ====
section
/-! DEFINITION. Memory tiers: what waits and goes on, translations dropped, objects under rebuild, quotas, placement, migration and lending (R213, R235 to R242, R249 to R253). -/

namespace Sys2Proof.Machine

/-! Accesses that wait (R213, R242). -/

/-- The agent number of an agent of Table 11-1. -/
def agentNo : Agent → Nat
  | .control u => u.val
  | .copyDma => 513
  | _ => 512

/-- The pieces of what waits. -/
def waitPieces (w : WaitAcc) : List Piece :=
  match w.job with
  | .acc op => accessPieces w.who w.addr.toNat op
  | .req k => [{ a := w.addr.toNat, n := 1, wr := decide (k ≠ .rds), rebuild := false }]
  | .core _ op => [{ a := w.addr.toNat, n := 1, wr := op.owns, rebuild := false }]

/-- The line of a home belongs to an object that is poisoned or under rebuild (R248). -/
def objectStops (s : State) (a : Nat) : Bool :=
  match pageOfFrame s a with
  | some n => let st := objState s (pageEnt s n).obj; decide (st = 1) || decide (st = 2)
  | none => false

/-- A stalled access would stall no more: nothing of Table 10-6 applies to it, and the homes grant again. -/
def stallOver (s : State) (w : WaitAcc) : Bool :=
  !w.held && !homesStop s &&
  (match w.job with
  | .req _ => !isPoisoned s w.addr.toNat && !objectStops s w.addr.toNat
  | _ => (firstStall s (waitPieces w)).isNone)

/-- An access that waited goes through its checks again; a cache's request reaches its home again. -/
def retryAccess (w : WaitAcc) : Act :=
  match w.job with
  | .acc op => memAccess w.who w.addr op false
  | .req k => updCoh fun c => { c with reqs := c.reqs ++ [(agentNo w.who, w.addr.toNat / 64, k)] }
  | .core a op => coreAgain a w.addr.toNat op

/-- Every access whose stall is over goes through its checks again, oldest first. -/
def retryStalled : Act :=
  .ask fun s => Act.when (s.tier.waits.any (stallOver s)) (Act.all [updTier fun t => { t with waits := t.waits.filter fun w => !stallOver s w },
    Act.each retryAccess (s.tier.waits.filter (stallOver s))])

/-- The `k`-th waiting access leaves the list. -/
def dropWait (k : Nat) : Act := updTier fun t => { t with waits := t.waits.eraseIdx k }

/-- A held access proceeds once its condition has ended (R213). -/
def heldRelease (k : Nat) : Act :=
  .ask fun s =>
    match s.tier.waits[k]? with
    | some w =>
      if w.held && !anyHeld s (waitPieces w) then Act.all [dropWait k, retryAccess w] else .skip
    | none => .skip

def execHeldAccessRelease (k : Nat) (s : State) : Host.Outcome State Fault Refusal := .next (run (heldRelease k) s)

/-- An access held, or stalled, for 8 tide periods faults with one record (R213, R242). -/
def waitTimeout (k : Nat) (held : Bool) : Act :=
  .ask fun s =>
    match s.tier.waits[k]? with
    | some w => if w.held = held then Act.all [dropWait k, send (.accessFault w.who w.addr), logEv (if held then .holdTimeout else .stallTimeout) 0xFF (agentOrigin w.who)] else .skip
    | none => .skip

def execHoldTimeout (k : Nat) (s : State) : Host.Outcome State Fault Refusal := .next (run (waitTimeout k true) s)
def execStallTimeout (k : Nat) (s : State) : Host.Outcome State Fault Refusal := .next (run (waitTimeout k false) s)

/-! Translations (R235). -/

/-- TIER_CTL.INVAL. -/
def tierInval : Act := setF TIER_CTL.INVALBUSY 1
def execTierCtlInval (s : State) : Host.Outcome State Fault Refusal := .next (run tierInval s)

/-- The invalidation completes: no cached translation is left (R235). -/
def tierInvalDone : Act := .seq (updTier fun t => { t with xlat := [] }) (setF TIER_CTL.INVALBUSY 0)
def execTierInvalDone (s : State) : Host.Outcome State Fault Refusal := .next (run tierInvalDone s)

/-! Objects under rebuild (R249). -/

/-- OP = 1: STATE becomes 2. -/
def objRebuild (o : Nat) : Act :=
  Act.all [setF TIER_OBJCTL.OBJ o, .ask fun s =>
    Act.when (objValid s o) (Act.all [setObjState o 2, setF TIER_OBJCTL.DONE 1, setF TIER_OBJCTL.REFUSED 0])]
def execTierObjctlRebuild (obj : BitVec 16) (s : State) : Host.Outcome State Fault Refusal := .next (run (objRebuild obj.toNat) s)

/-- OP = 2: release, or a refusal while lines are poisoned. -/
def objRelease (o : Nat) : Act :=
  Act.all [setF TIER_OBJCTL.OBJ o, .ask fun s =>
    if !objValid s o then .skip
    else if objPoisLines s o = 0 then Act.all [setObjState o 0, setF TIER_OBJCTL.DONE 1, setF TIER_OBJCTL.REFUSED 0, retryStalled]
    else Act.all [setF TIER_OBJCTL.REFUSED 1, setF TIER_OBJCTL.DONE 0, logEv .rebuildRefused]]
def execTierObjctlRelease (obj : BitVec 16) (s : State) : Host.Outcome State Fault Refusal := .next (run (objRelease obj.toNat) s)

/-! Quotas (R239, R240). -/

/-- QUAY and WARE quota of an account in MiB under a chart; an account it does not name has quotas of zero. -/
def Chart.quota (c : Chart) (acct tier : Nat) : Nat :=
  match c.accounts.find? (fun x => x.1 = acct) with
  | some x => if tier = 1 then x.2.2.1 else x.2.2.2
  | none => 0
def quotaOf (s : State) (acct tier : Nat) : Nat := (theChart s).quota acct tier

/-- NBR of an account. -/
def acctNbr (s : State) (acct : Nat) : Bool := (theChart s).accounts.any fun x => decide (x.1 = acct) && x.2.1

/-- The use of an account in a tier, in MiB. -/
def useOf (s : State) (acct tier : Nat) : Nat :=
  if tier = 1 then getF s TIER_ACCT.QUAY acct else if tier = 2 then getF s TIER_ACCT.WARE acct else 0

/-- A page of an account enters or leaves a tier; an over bit clears once the use is within the quota. -/
def accountPage (acct tier : Nat) (enters : Bool) : Act :=
  let f := if tier = 1 then TIER_ACCT.QUAY else TIER_ACCT.WARE
  let o := if tier = 1 then TIER_ACCT.QOVER else TIER_ACCT.WOVER
  Act.when (tier = 1 || tier = 2) (Act.all [modF f (fun v => if enters then v + 2 else v - 2) acct,
    .ask fun s => Act.when (decide (useOf s acct tier ≤ quotaOf s acct tier)) (setF o 0 acct)])

/-- An account after an amendment of TIERMAP: an over bit clears where the use fits the new quota, and sets, with the event and the record, where the amendment lowered the quota below the use; `old` gives the quotas before it (R240). -/
def quotaJudge (old : Nat → Nat) (a : Nat) : Act :=
  .ask fun s =>
    let exceeds := fun (tier : Nat) => decide (quotaOf s a tier < useOf s a tier)
    let lowered := fun (tier : Nat) => exceeds tier && decide (quotaOf s a tier < old tier)
    Act.all [Act.when (!exceeds 1) (setF TIER_ACCT.QOVER 0 a), Act.when (!exceeds 2) (setF TIER_ACCT.WOVER 0 a),
      Act.when (lowered 1) (setF TIER_ACCT.QOVER 1 a), Act.when (lowered 2) (setF TIER_ACCT.WOVER 1 a),
      Act.when (lowered 1 || lowered 2) (Act.all [evt TIER_EVT.OVERQUOTA, logEv .overQuota])]

/-- Every account after an amendment of TIERMAP; `old` gives the quota of an account in a tier before it. -/
def quotaCheck (old : Nat → Nat → Nat) : Act := Act.each (fun a => quotaJudge (old a) a) (List.range 64)

/-! Migration (R236 to R241). -/

/-- The request at the head of the ring: its address, where one waits. -/
def migHead (s : State) : Option Nat :=
  if ringSize (getF s TIER_MIGQ.SIZE) = 0 || getF s TIER_MIGPTR.HEAD = getF s TIER_MIGPTR.TAIL then none
  else some (getF s TIER_MIGQ.ADDR * 32 + 32 * getF s TIER_MIGPTR.HEAD)

/-- STATUS of the head request. -/
def migStatus (v : Nat) : Act := .ask fun s => match migHead s with | some a => pkgWrite (a + 2) (natLe v 1) | none => .skip

/-- The head request ends with a status. -/
def migFinish (v : Nat) : Act :=
  Act.all [migStatus v, updTier fun t => { t with mig := .idle },
    .ask fun s => setF TIER_MIGPTR.HEAD ((getF s TIER_MIGPTR.HEAD + 1) % max 1 (ringSize (getF s TIER_MIGQ.SIZE)))]

/-- TIER_MIGPTR.TAIL is written. -/
def migTail (t : Nat) : Act := setF TIER_MIGPTR.TAIL t
def execTierMigptrTail (tail : BitVec 16) (s : State) : Host.Outcome State Fault Refusal := .next (run (migTail tail.toNat) s)

/-- A target frame of tier 1 or 2 is usable: 2 MiB aligned, of its tier, and in a quay that is up. -/
def frameUsable (s : State) (tier frame : Nat) : Bool := frame % 2 ^ 21 = 0 && frameMatches tier frame && (tier ≠ 1 || quayUp s frame)

/-- Why a place or move is refused: 2 pinned, 3 frame or tier invalid, 0 not at all (R236, R238). A place of a page that is present, and a move of one that is absent, count as invalid (log 14). -/
def migRefusal (s : State) (op tier page frame : Nat) : Nat :=
  let e := pageEnt s (pageNo page)
  let pinned := objPinned s e.obj
  if (pinned && (op = 2 || op = 3)) || (pinned && tier = 3) then 2
  else if !isObject page || !objCovers s e.obj page then 3
  else if op = 3 then 0
  else if tier = 0 || tier > 3 then 3
  else if tier = 3 && !acctNbr s (objAcct s e.obj) then 3
  else if tier ≠ 3 && !frameUsable s tier frame then 3
  else if (op = 1 && e.tier ≠ 0) || (op = 2 && e.tier = 0) then 3
  else 0

/-- The page's account would stay within its quota (R239, R240). -/
def quotaFits (s : State) (tier page : Nat) : Bool :=
  let e := pageEnt s (pageNo page)
  tier = 3 || e.tier = tier || useOf s (objAcct s e.obj) tier + 2 ≤ quotaOf s (objAcct s e.obj) tier

/-- A frame is freed: one of this package needs no bookkeeping beyond the account, a lender's is returned (R237, R343). -/
def freeFrame (tier frame : Nat) : Act :=
  Act.when (tier = 3) (Act.all [sendNote 0x22 ((frame - 0x400000000000) / 2 ^ 38) (frame % 2 ^ 38),
    updTier fun t => { t with notices := Cells.del t.notices (frame / 2 ^ 21) }])

/-- An absent page is mapped to a zero-filled frame; a lender fills the frame it grants (log 29). -/
def placePage (page tier frame : Nat) : Act :=
  .ask fun s =>
    Act.all [Act.when (decide (tier ≠ 3)) (fillFrame frame 1),
      updTier fun t => { t with lost := Cells.del t.lost (pageNo page) },
      setPage (pageNo page) fun e => { e with tier := tier, frame := frame, mig := false },
      accountPage (objAcct s (pageEnt s (pageNo page)).obj) tier true, migFinish 1, retryStalled]

/-- A page begins to move: MIG sets, and the bytes of a neighbour frame are fetched (R237). -/
def moveBegin (page tier frame : Nat) : Act :=
  .ask fun s =>
    let old := (pageEnt s (pageNo page)).frame
    Act.all [setPage (pageNo page) fun e => { e with mig := true },
      updTier fun t => { t with mig := .moving (BitVec.ofNat 48 old) (BitVec.ofNat 48 frame) tier },
      Act.when (isNeighbour old) (fetchSend .page (piecesOf old (2 ^ 21) false false))]

/-- The head request, where it is of an operation: it is refused, waits at the head for copy engines that take work (R58, R236), for quota or for a neighbour frame, or is carried out. -/
def migRun (op : Nat) : Act :=
  .ask fun s =>
    match migHead s with
    | none => .skip
    | some a =>
      let tier := readNat s (a + 1) 1
      let page := readNat s (a + 8) 8
      let frame := readNat s (a + 0x10) 8
      let go := fun (f : Nat) => if op = 1 then placePage page tier f else moveBegin page tier f
      if readNat s a 1 ≠ op then .skip
      else
        match s.tier.mig with
        | .granted f => go f.toNat
        | .idle =>
          if migRefusal s op tier page frame ≠ 0 then migFinish (migRefusal s op tier page frame)
          else if !copiesTake s then .skip
          else if !quotaFits s tier page then Act.all [migStatus 4, updTier fun t => { t with mig := .waitQuota }]
          else if tier = 3 then
            Act.all [migStatus 5, updTier fun t => { t with mig := .waitFrame }, sendRequest 0x20 (readNat s (a + 3) 1) (pageNo page) 0 [] (.grant (pageNo page))]
          else go frame
        | _ => .skip

def execMigrationPlace (s : State) : Host.Outcome State Fault Refusal := .next (run (migRun 1) s)
def execMigrationMove (s : State) : Host.Outcome State Fault Refusal := .next (run (migRun 2) s)

/-- A request that waited for quota proceeds (R239, R240). -/
def quotaRelease : Act :=
  .ask fun s =>
    match s.tier.mig, migHead s with
    | .waitQuota, some a =>
      if quotaFits s (readNat s (a + 1) 1) (readNat s (a + 8) 8) then
        Act.all [migStatus 0, updTier fun t => { t with mig := .idle }, migRun (readNat s a 1)]
      else .skip
    | _, _ => .skip

def execQuotaWaitRelease (s : State) : Host.Outcome State Fault Refusal := .next (run quotaRelease s)

/-- The lines of a frame reach memory from the caches that own them. -/
def settleFrame (frame : Nat) : Act :=
  .ask fun s => Act.each (fun e => dropCopies e.1 true) (s.coh.dir.filter fun e => decide (frame ≤ e.1 * 64) && decide (e.1 * 64 < frame + 2 ^ 21))

/-- A line's metadata with the poison and the mark of another line. -/
def LineMeta.moved (m o : LineMeta) : LineMeta := { m with poison := o.poison, cls := o.cls, part := o.part }

/-- The marks of a frame as they stand in its new one: a quay block's mark goes to each warehouse line of it, a warehouse line's to its quay block, where the last marked line counts (R212, R237, log 56). -/
def TierSt.moveMarks (t : TierSt) (old new : Nat) : TierSt :=
  let blocks := t.qmarks.filter fun e => decide (old ≤ e.1 * 65536) && decide (e.1 * 65536 < old + 2 ^ 21)
  let lines := t.info.filter fun e => decide (new ≤ e.1 * 64) && decide (e.1 * 64 < new + 2 ^ 21) && decide (e.2.cls ≠ 0)
  if isQuay old && isQuay new then
    { t with qmarks := blocks.foldl (fun m e => Cells.put (0, 0) m ((e.1 * 65536 - old + new) / 65536) e.2) t.qmarks }
  else if isQuay old && isWarehouse new then
    { t with info := blocks.foldl (fun m e => (List.range 1024).foldl (fun m k =>
        let l := (e.1 * 65536 - old + new) / 64 + k
        Cells.put {} m l { Cells.get {} m l with cls := e.2.1, part := e.2.2 }) m) t.info }
  else if isQuay new then
    { t with
      qmarks := lines.foldl (fun m e => Cells.put (0, 0) m (e.1 * 64 / 65536) (e.2.cls, e.2.part)) t.qmarks
      info := lines.foldl (fun m e => Cells.put {} m e.1 { e.2 with cls := 0, part := 0 }) t.info }
  else t

/-- The poison and the marks of a frame's lines move with them; the TAG is that of an object page (R212, R244, R253). Of a neighbour frame only the poison is known. -/
def moveInfo (old new : Nat) : Act :=
  updTier fun t =>
    let mine := t.info.filter fun e => decide (old ≤ e.1 * 64) && decide (e.1 * 64 < old + 2 ^ 21)
    let put := fun (m : FMap LineMeta) (e : Nat × LineMeta) =>
      let k := e.1 - old / 64 + new / 64
      Cells.put {} m k ((Cells.get {} m k).moved (if isNeighbour new then { poison := e.2.poison } else e.2))
    let kept := if isNeighbour old then t.info.filter fun e => !mine.contains e else t.info
    ({ t with info := mine.foldl put kept } : TierSt).moveMarks old new

/-- A line or block of a frame carries a mark that holds its readers: the frame's bytes leave the package only once none does (R210, R213). -/
def frameHeld (s : State) (frame : Nat) : Bool :=
  (s.tier.info.any fun e => decide (frame ≤ e.1 * 64) && decide (e.1 * 64 < frame + 2 ^ 21) && heldAt s (e.1 * 64)) ||
  (s.tier.qmarks.any fun e => decide (frame ≤ e.1 * 65536) && decide (e.1 * 65536 < frame + 2 ^ 21) && heldAt s (e.1 * 65536))

/-- The bytes and the metadata of a frame of this package copied to another. -/
def copyFrame (old new : Nat) : Act :=
  Act.all [settleFrame old, fillFrame new 1, .ask fun s =>
    Act.all [Act.each (fun c => .prim (.mem (c.1 - old + new) c.2)) (s.mem.filter fun c => decide (old ≤ c.1) && decide (c.1 < old + 2 ^ 21)),
      moveInfo old new]]

/-- The bytes of a neighbour frame as they were fetched; what was refused is open (log 13). -/
def fetchedFrame (pick : Nat → Nat) (s : State) (old : Nat) : List Byte := (List.range (2 ^ 21)).map fun k => BitVec.ofNat 8 (fetchPick s .page pick (old + k))

/-- The copy of a page reaches its new frame; what goes to another package leaves as WRITE messages. -/
def copyPage (old new : Nat) : Act :=
  if isNeighbour new then
    withFree fun pick => .ask fun s =>
      Act.all [sendWrite ((new - 0x400000000000) / 2 ^ 38) (new % 2 ^ 38)
          (if isNeighbour old then fetchedFrame pick s old else readMem s old (2 ^ 21)) (.write none (BitVec.ofNat 48 new)), moveInfo old new]
  else if isNeighbour old then withFree fun pick => .ask fun s => Act.all [fillFrame new 1, storeMem { object := true } new (fetchedFrame pick s old), moveInfo old new]
  else copyFrame old new

/-- A move ends: FRAME and TIER, MIG, the held writes, the old frame, in that order (R237). It waits for what it fetches, and one to another berth for marks that hold the page's readers. -/
def moveDone : Act :=
  .ask fun s =>
    match s.tier.mig, migHead s with
    | .moving old new tier, some a =>
      let page := readNat s (a + 8) 8
      let e := pageEnt s (pageNo page)
      let acct := objAcct s e.obj
      Act.when (!fetchDue s .page && !(decide (tier = 3) && frameHeld s old.toNat)) <| Act.all [copyPage old.toNat new.toNat, fetchDrop fun w => decide (w = .page), setPage (pageNo page) fun e => { e with tier := tier, frame := new.toNat, mig := false },
        accountPage acct tier true, accountPage acct e.tier false, migFinish 1, retryStalled, freeFrame e.tier old.toNat]
    | _, _ => .skip

def execMigrationMoveDone (s : State) : Host.Outcome State Fault Refusal := .next (run moveDone s)

/-- An unmap request: the page becomes absent and its frame is freed (R236, R238). -/
def unmapPage : Act :=
  .ask fun s =>
    match migHead s with
    | none => .skip
    | some a =>
      let page := readNat s (a + 8) 8
      let e := pageEnt s (pageNo page)
      if readNat s a 1 ≠ 3 || s.tier.mig ≠ .idle then .skip
      else if migRefusal s 3 0 page 0 ≠ 0 then migFinish (migRefusal s 3 0 page 0)
      else if !copiesTake s then .skip
      else
        Act.all [setPage (pageNo page) fun x => { x with tier := 0, mig := false },
          Act.when (decide (e.tier ≠ 0)) (Act.all [accountPage (objAcct s e.obj) e.tier false, freeFrame e.tier e.frame]), migFinish 1]

def execMigrationUnmap (s : State) : Host.Outcome State Fault Refusal := .next (run unmapPage s)

/-! Lending (R230, R241, R353). -/

/-- The first address of the pool this package lends. -/
def poolBase (s : State) : Nat := 2 ^ 40 - (theChart s).lend * 2 ^ 30

/-- An exposure: whether it is in force, its source address, window offset and size in bytes, its reader, whether every berth may read. -/
structure Exposure where
  en : Bool
  src : Nat
  off : Nat
  size : Nat
  reader : Nat
  all : Bool
deriving DecidableEq, Repr

/-- Exposure `k`. -/
def exposure (s : State) (k : Nat) : Exposure :=
  { en := getB s HURAL_EXPSRC.EN 0 k, src := getF s HURAL_EXPSRC.SRC 0 k * 2 ^ 21, off := getF s HURAL_EXPWIN.OFF 0 k * 2 ^ 21,
    size := getF s HURAL_EXPWIN.PAGES 0 k * 2 ^ 21, reader := getF s HURAL_EXPSRC.READER 0 k, all := getB s HURAL_EXPSRC.ALL 0 k }

/-- The exposures in force. -/
def exposures (s : State) : List Exposure := ((List.range 16).map (exposure s)).filter fun e => e.en

/-- The lowest frame of the pool that nobody holds and no exposure covers, as its number within the pool (log 29). -/
def freeFrameNo (s : State) : Option Nat :=
  (List.range ((theChart s).lend * 512)).find? fun i =>
    (Cells.look s.tier.lent (poolBase s / 2 ^ 21 + i)).isNone && (exposures s).all fun e => !inRange (i * 2 ^ 21) (e.off, e.size)

/-- Requests that wait for a frame get one, oldest first, while frames are free: at most `n` of them. The frame is zero-filled. -/
def grantWaiting : Nat → Act
  | 0 => .skip
  | n + 1 => .ask fun s =>
    match s.hural.grantWait, freeFrameNo s with
    | (b, txn, page) :: r, some i =>
      let f := poolBase s / 2 ^ 21 + i
      Act.all [updHural fun h => { h with grantWait := r }, fillFrame (f * 2 ^ 21) 2,
        updTier fun t => { t with lent := Cells.ins t.lent f { berth := b, page := page, touch := getF s TIDE_COUNT.COUNT } },
        modF TIER_POOL.FREE (fun v => v - 1), modF TIER_POOL.USED (fun v => v + 1),
        sendMsg { op := 0x21, src := ownBerth s, dst := b, txn := txn, addr := i * 2 ^ 21 }, grantWaiting n]
    | _, _ => .skip

/-- A lent frame returns to the pool. -/
def lentFreed (frame : Nat) : Act :=
  .ask fun s => Act.when (Cells.look s.tier.lent frame).isSome (Act.all [updTier fun t => { t with lent := Cells.del t.lent frame },
    modF TIER_POOL.FREE (fun v => v + 1), modF TIER_POOL.USED (fun v => v - 1), grantWaiting 1])

/-- The frame with the oldest last touch among those without a notice, the lowest among equals (R241). -/
def oldestLent (s : State) : Option (Nat × LentFrame) :=
  (s.tier.lent.filter fun e => e.2.notice.isNone).foldl (fun (best : Option (Nat × LentFrame)) e =>
    match best with
    | some b => if e.2.touch < b.2.touch then some e else best
    | none => some e) none

/-- A request for a tier-3 frame: refused without a pool, granted, or left to wait while the oldest frame is reclaimed (R241). -/
def grantRequest (b txn page : Nat) : Act :=
  .ask fun s =>
    if (theChart s).lend = 0 then sendMsg { op := 0x21, src := ownBerth s, dst := b, txn := txn, addr := 2 ^ 64 - 1 }
    else
      Act.all [updHural fun h => { h with grantWait := h.grantWait ++ [(b, txn, page)] },
        if (freeFrameNo s).isSome then grantWaiting 1
        else match oldestLent s with
          | some (f, x) => Act.all [
              updTier fun t => { t with lent := Cells.ins t.lent f { x with notice := some (getF s TIDE_COUNT.COUNT) } },
              sendNote 0x23 x.berth (f * 2 ^ 21 - poolBase s)]
          | none => .skip]

/-- The page that moves is being copied out of a frame. -/
def movingFrom (s : State) (frame : Nat) : Bool :=
  match s.tier.mig with
  | .moving old _ _ => decide (old.toNat = frame)
  | _ => false

/-- 1,024 tides after a notice: the lender frees the frame; a page the borrower still holds there is lost, unless its move is copying already, which completes (R241, R250, R253). -/
def evictionDeadline (frame : Nat) : Act :=
  .ask fun s =>
    let due := fun (t : Nat) => decide (t + 1024 ≤ getF s TIDE_COUNT.COUNT)
    Act.all [match Cells.look s.tier.lent frame with
      | some f => Act.when (match f.notice with | some t => due t | none => false)
          (lentFreed frame)
      | none => .skip,
      match Cells.look s.tier.notices frame with
      | some t => Act.when (due t && !movingFrom s (frame * 2 ^ 21)) (Act.all [updTier fun x => { x with notices := Cells.del x.notices frame },
          Act.each pageLost (pagesWhere s fun e => decide (e.tier = 3) && decide (e.frame = frame * 2 ^ 21))])
      | none => .skip]

def execEvictionDeadline (frame : Nat) (s : State) : Host.Outcome State Fault Refusal := .next (run (evictionDeadline frame) s)

end Sys2Proof.Machine
end

