-- ==== Sys2Proof/Machine/Plan.lean ====
section
/-! DEFINITION. Tide plans as they lie in memory: the header, the unit-list table, their checks and the fetch of descriptors (R27, R28, R90, R450). -/

namespace Sys2Proof.Machine

/-- A plan header (Table 2-2). -/
structure PlanHdr where
  idrev : Nat
  period : Nat
  part : Nat
  flags : Nat
  set : Nat
  wait : Nat
  units : Nat
  bound : Nat
  energy : Nat
  link : Nat
  list : Nat
deriving DecidableEq, Repr

/-- The package reads plans and descriptors through the physical map, the low 48 bits of an address being the address; the manual lets a list lie anywhere a physical address reaches (R16, R450). Bytes that no memory of this package holds are open (log 11). -/
def planRead (s : State) (a n : Nat) : List Byte := mapRead (Config.freeValue s.free) s (a % 2 ^ 48) n

/-- A number as the package reads it from a plan. -/
def planNat (s : State) (a n : Nat) : Nat := leNat (planRead s a n)

/-- The header at an address. -/
def planHdr (s : State) (a : Nat) : PlanHdr :=
  { idrev := planNat s a 8, period := planNat s (a + 8) 2, part := planNat s (a + 0xA) 1, flags := planNat s (a + 0xB) 1,
    set := planNat s (a + 0xC) 2, wait := planNat s (a + 0xE) 2, units := planNat s (a + 0x10) 2, bound := planNat s (a + 0x14) 4,
    energy := planNat s (a + 0x18) 4, link := planNat s (a + 0x20) 8, list := planNat s (a + 0x28) 8 }

/-- A unit-list entry with its reserved field (Table 2-2b). ADDR is a physical address of 48 bits; the manual names no use of bits [63:48] of its field, nor of LINK's and LIST's, and the package ignores them (DESIGN CHOICE, log 11). -/
def planEntry (s : State) (list i : Nat) : UnitList × Nat :=
  let a := list + 16 * i
  ({ unit := planNat s a 2, count := planNat s (a + 4) 4, addr := BitVec.ofNat 48 (planNat s (a + 8) 8) }, planNat s (a + 2) 2)

/-- The entries of a plan's table; none is read where UNITS is 0 (R450). -/
def planEntries (s : State) (h : PlanHdr) : List (UnitList × Nat) := (List.range h.units).map fun i => planEntry s h.list i

/-- The entries rise strictly in UNIT. -/
def unitsRise : List Nat → Bool
  | a :: b :: l => decide (a < b) && unitsRise (b :: l)
  | _ => true

/-- The checks of R28 on the header and table at an address for a partition; a repeat plan skips BOUND and may name tiles only (R146). -/
def planOk (s : State) (p a : Nat) (rep : Bool) : Bool :=
  let h := planHdr s a
  let es := planEntries s h
  let period := getF s TIDE_PERIOD.PERIOD
  h.idrev = (getReg s .IDREV 0 0).toNat && h.period = period && h.part = p &&
  (rep || h.bound + 2500 ≤ period * 1000) &&
  (h.units = 0 || h.list % 16 = 0) &&
  es.all (fun e => (theChart s).owns p e.1.unit && (!rep || e.1.unit < 512) && 1 ≤ e.1.count && e.1.count ≤ 16777216 &&
    e.1.addr.toNat % 64 = 0 && e.2 = 0) &&
  unitsRise (es.map fun e => e.1.unit)

/-- The descriptors of a unit list in ascending address order. -/
def fetchDescs (s : State) (l : UnitList) : List Desc :=
  (List.range l.count).map fun i => descOf (planRead s (l.addr.toNat + 64 * i) 64)

/-- A tile's sequencers take descriptors, each by its opcode, behind their lists or ahead of what has not started (R90, R146). -/
def Tile.take (t : Tile) (ds : List Desc) (ahead : Bool) : Tile :=
  let add := fun (k : Eng) (e : Engine) =>
    let l := ds.filter fun d => opcodeEng (dOpcode d) = k
    { e with queue := if ahead then l ++ e.queue else e.queue ++ l }
  { t with mx := add .mx t.mx, vx := add .vx t.vx, dma := add .dma t.dma }

end Sys2Proof.Machine
end

