-- ==== Sys2Proof/Machine/Units.lean ====
section
/-! DEFINITION. Planned units and their unfinished items: when a unit is busy, when a partition holds a plan, which items wait for a flip (R35, R42, R82, R202). -/

namespace Sys2Proof.Machine

/-- Unit `u` has items that have not finished (R35). -/
def unitBusy (s : State) (u : Nat) : Bool :=
  if u < 512 then (getTile s u).busy
  else if u = 512 then !s.upd.queue.isEmpty || s.upd.run.isSome || s.upd.halted.isSome
  else if u = 513 then !s.tier.copyItems.isEmpty
  else if u = 514 then !s.cus.cusItems.isEmpty || s.cus.cusRun.isSome
  else !s.cus.decItems.isEmpty || s.cus.decRun.isSome

/-- The partition of a shared unit or a tile. -/
def partUnits (s : State) (p : Nat) : List Nat := (theChart s).unitsOf p

/-- A unit of a partition has items that have not finished. -/
def partBusy (s : State) (p : Nat) : Bool := (partUnits s p).any fun u => unitBusy s u

/-- A partition's tide state. -/
def partSt (s : State) (p : Nat) : PartSt := Cells.get {} s.tide.parts p

/-- The update of a partition's tide state. -/
def updPart (p : Nat) (f : PartSt → PartSt) : Act :=
  .prim (.tide fun t => { t with parts := Cells.put {} t.parts p (f (Cells.get {} t.parts p)) })

/-- A pass of the partition has begun and not had its verdict, or its layer is being repeated (R148). -/
def passUnsettled (s : State) (p : Nat) : Bool :=
  s.num.passes.any fun e => decide (e.1 / 65536 = p) && (match e.2 with | some x => !x.decided || x.repeating | none => false)

/-- The plan a partition took has finished: no unit has an item left and no pass is open (R39, R148). -/
def planFinished (s : State) (p : Nat) : Bool := !partBusy s p && !passUnsettled s p

/-- A partition holds a plan from its take until the plan has finished, and on while its LINK is not 0 (R82, R206; DEDUCED, log 22). -/
def holdsPlan (s : State) (p : Nat) : Bool :=
  match (partSt s p).plan with
  | some x => !planFinished s p || decide (x.link ≠ 0)
  | none => false

/-- The update engine's partition, by UNITS bit 0 (R190). -/
def updPart? (s : State) : Option Nat := partOfUnit s 512

/-- A group table entry (Table 8-1). -/
def groupAddr (s : State) (g : Nat) : Nat := getF s UPD_GROUPTAB.ADDR * 64 + 64 * g

/-- LIVE of a group. -/
def groupLive (s : State) (g : Nat) : Bool := bitOf (getF s UPD_LIVE.LIVE (g / 64)) (g % 64)

/-- Buffer 0 or 1 of a group. -/
def groupBuf (s : State) (g : Nat) (b : Bool) : Nat := readNat s (groupAddr s g + (if b then 0x28 else 0x20)) 8

/-- The bytes of a physical range that a COPY or LOWER descriptor reads, or writes, as base and size. -/
def dmaReads (d : Desc) : Nat × Nat :=
  if dOpcode d = 0x80 then
    if dBits d 0xBC 4 = 0 then (dBits d 0x80 48, (dByte d 0x20 4 - 1) * dByte d 0x28 4 + dByte d 0x24 4) else (0, 0)
  else if dOpcode d = 0x88 then (dBits d 0x80 48, (dByte d 0x20 2 * dByte d 0x22 2 * dByte d 0x24 2 * fmtWidth (dSfmta d) + 7) / 8)
  else (0, 0)
def dmaWrites (d : Desc) : Nat × Nat :=
  if dOpcode d = 0x80 && dBits d 0xFC 4 = 0 then (dBits d 0xC0 48, (dByte d 0x20 4 - 1) * dByte d 0x2C 4 + dByte d 0x24 4) else (0, 0)

/-- The DMA items of a tile that have not finished. -/
def dmaUnfinished (t : Tile) : List Desc := t.dma.queue ++ t.dma.run.map (fun r => r.desc) ++ t.dma.halted.toList

/-- The items of the update engine that have not finished and read a group's live buffer: what is in progress or halted, and the WCOPY items ahead of the first UPD of the group, which itself waits for the flip (R202, log 58). -/
def updReaders (s : State) (g : Nat) : List Desc :=
  (s.upd.run.toList ++ s.upd.halted.toList ++ s.upd.queue.takeWhile fun i => !(decide (dOpcode i.desc = 0xC0) && decide (dByte i.desc 0x10 = g))).filterMap fun i =>
    if dByte i.desc 0x10 = g && (dOpcode i.desc = 0xC0 || dOpcode i.desc = 0xC1) then some i.desc else none

/-- The items that have not finished and read the old live buffer of a group, over the bytes its pending set wrote (R42, R202). -/
def flipReaders (s : State) (g : Nat) : List FlipReader :=
  let x := Cells.get (0, 0) s.upd.extent g
  let old := (groupBuf s g (groupLive s g) + x.1, x.2 - x.1)
  (s.tiles.flatMap fun e => ((dmaUnfinished e.2).filter fun d => overlap (dmaReads d) old).map fun d => { unit := e.1, desc := d }) ++
  (updReaders s g).map fun d => { unit := 512, desc := d }

/-- A reader has not finished. -/
def FlipReader.unfinished (s : State) (r : FlipReader) : Bool :=
  if r.unit < 512 then (dmaUnfinished (getTile s r.unit)).contains r.desc
  else (s.upd.queue ++ s.upd.run.toList ++ s.upd.halted.toList).any fun i => i.desc = r.desc

/-- A DMA item of a tile waits for a flip: it accesses a buffer of a group whose commit waits, and is none of the readers the commit waits for (R42). -/
def flipWaits (s : State) (u : Nat) (d : Desc) : Bool :=
  s.upd.delayed.any fun e =>
    let x := Cells.get (0, 0) s.upd.extent e.1
    let hit := fun (b : Bool) => let r := (groupBuf s e.1 b + x.1, x.2 - x.1); overlap (dmaReads d) r || overlap (dmaWrites d) r
    !e.2.contains { unit := u, desc := d } && (hit false || hit true)

end Sys2Proof.Machine
end

