-- ==== Sys2Proof/Machine/Energy.lean ====
section
/-! DEFINITION. Energy and ageing: ledgers, budget messages, allotments, idle slots, limiter, gauges and margin (R285, R319 to R340). The entry and exit of DD and SB stand in Machine/Power.lean. -/

namespace Sys2Proof.Machine

/-- Update of the energy state. -/
def updEn (f : EnSt → EnSt) : Act := .prim (.en f)

/-! The power model (R320, Table 15-1). -/

/-- Work factor and span factor of a state in hundredths. -/
def workFactor (st : Nat) : Nat := [100, 75, 54].getD st 54
def spanFactor (st : Nat) : Nat := [100, 125, 200].getD st 200

/-- Clocked idle and gated floor of a compute die in a state, in W. -/
def idleW (s : State) (d st : Nat) : Nat := ((Cells.look s.en.idle d).getD [300, 215, 120]).getD st 0
def gatedW (s : State) (d st : Nat) : Nat := ((Cells.look s.en.floorW d).getD [110, 90, 70]).getD st 0

/-- Every 2^16 tides a compute die replaces I and G of each state by what its ledger measured. -/
def calibrate (d : Nat) (idle gated : List Nat) : Act :=
  Act.when (idle.length = 3 && gated.length = 3) (updEn fun e => { e with idle := Cells.ins e.idle d idle, floorW := Cells.ins e.floorW d gated })
def execPowerModelCalibrate (d : Fin 4) (idle gated : List Nat) (s : State) : Host.Outcome State Fault Refusal :=
  .next (run (calibrate d.val idle gated) s)

/-- Planned units of a partition on a die, in quarters (R320). -/
def unitQuarters (s : State) (p d : Nat) : Nat :=
  sumNat ((partUnits s p).map fun u =>
    if u < 512 then (if u / 128 = d then 4 else 0)
    else if u = 512 then (if d < 4 then 1 else 0)
    else if u = 513 then (if d = 5 then 4 else 0)
    else (if d = 4 then 4 else 0))

/-- The plan a partition is due to take, as TIDE_PLAN or LINK names it; 0 where it names none (R326). -/
def duePlan (s : State) (p : Nat) : Nat :=
  if getB s TIDE_PLAN.VALID p then getF s TIDE_PLAN.ADDR p * 64
  else if (partSt s p).rejected then 0
  else (partSt s p).link.toNat

/-- The due plans of the partitions as (partition, address). -/
def duePlans (s : State) : List (Nat × Nat) := (((theChart s).parts.map fun e => e.part).map fun p => (p, duePlan s p)).filter fun x => x.2 ≠ 0

/-- A sum of fractions as numerator and denominator. -/
def addFrac (a b : Nat × Nat) : Nat × Nat := (a.1 * b.2 + b.1 * a.2, a.2 * b.2)

/-- W_d in µJ as a fraction: every due plan's ENERGY by the share of its partition's units on the die. -/
def workShare (s : State) (d : Nat) : Nat × Nat :=
  (duePlans s).foldl (fun a x => addFrac a ((planHdr s x.2).energy * unitQuarters s x.1 d, max 1 (4 * (partUnits s x.1).length))) (0, 1)

/-- B_d in ns: the largest BOUND among the due plans of partitions with a unit on the die. -/
def dueBound (s : State) (d : Nat) : Nat :=
  ((duePlans s).map fun x => if unitQuarters s x.1 d = 0 then 0 else (planHdr s x.2).bound).foldl max 0

/-- The period in µs. -/
def periodNow (s : State) : Nat := getF s TIDE_PERIOD.PERIOD

/-- f(s, n) of R327 in µJ, the work rounded up. -/
def forecast (s : State) (d st n : Nat) : Nat :=
  let w := workShare s d
  (w.1 * workFactor st + w.2 * 100 - 1) / (w.2 * 100) + idleW s d st * (periodNow s - n) + gatedW s d st * n

/-- The ceiling state of a die: AGE_DIE.CEIL, or P2 after 16 misses (R330). -/
def ceilState (s : State) (d : Nat) : Nat := if 16 ≤ Cells.get 0 s.en.misses d then 2 else getF s AGE_DIE.CEIL d

/-- Idle slots a state leaves room for. -/
def slotsAvail (s : State) (d st : Nat) : Nat := (periodNow s * 100000 - (250000 + dueBound s d * spanFactor st)) / 100000

/-- The state and the idle slots of a compute die under an allotment, from a ceiling state down (R327). -/
def chooseState (s : State) (d a ceil : Nat) : Nat × Nat :=
  let fits := fun st => decide (forecast s d st (slotsAvail s d st) ≤ a)
  match ((List.range 3).filter fun st => decide (ceil ≤ st)).find? fits with
  | some st => (st, ((List.range (slotsAvail s d st + 1)).find? fun n => decide (forecast s d st n ≤ a)).getD 0)
  | none => (2, slotsAvail s d 2)

/-! Caps and shares (R321, R324). -/

/-- S_d. -/
def shareOf (s : State) (d : Nat) : Nat := max 1 (getF s EN_SHARE.WATTS d)
def shareSum (s : State) : Nat := sumNat ((List.range 6).map fun d => shareOf s d)

/-- CAP_S and CAP_E in W under an efficiency in 1/1,000. -/
def capS (s : State) : Nat :=
  let own := min 3600 (getF s EN_CAP.SUST)
  let own := if s.en.sustSeen then min own (getF s EN_BOARD.I3CSUST * s.en.eta / 1000) else own
  if getB s EN_BOARD.AVSV then min own (getF s EN_BOARD.AVSLIM * s.en.eta / 1000) else own
def capE (s : State) : Nat :=
  let own := min 4200 (getF s EN_CAP.EXC)
  if s.en.excSeen then min own (getF s EN_BOARD.I3CEXC * s.en.eta / 1000) else own

/-- A die's base share of CAP_S × period. -/
def baseShare (s : State) (d : Nat) : Nat := capS s * periodNow s * shareOf s d / shareSum s

/-- The least grant of a die (R322). -/
def dieFloor (s : State) (d : Nat) : Nat := (if d < 4 then gatedW s d 2 else if d = 4 then 60 else 150) * periodNow s

/-! Messages (R285, Table 12-3). -/

/-- A flit of Table 12-3 with its CHECK. -/
def budgetFlit (type die pstate idle tide used planned offer temp margin : Nat) : Desc :=
  let b := natLe type 1 ++ natLe die 1 ++ natLe pstate 1 ++ natLe 0 1 ++ natLe idle 2 ++ natLe 0 2 ++ natLe tide 8 ++ natLe used 4 ++
    natLe planned 4 ++ natLe offer 4 ++ natLe temp 2 ++ natLe margin 2 ++ natLe 0 30
  descOf (b ++ natLe (crc16 b).toNat 2)

/-- A flit passes its check. -/
def flitOk (f : Desc) : Bool := decide (dByte f 0x3E 2 = (crc16 ((descBytes f).take 62)).toNat)

/-- The tide that has ended. -/
def endedTide (s : State) : Nat := (getF s TIDE_COUNT.COUNT + 2 ^ 48 - 1) % 2 ^ 48

/-- PLANNED of a die's budget message (R326). -/
def plannedOf (s : State) (d : Nat) : Nat :=
  if d < 4 then forecast s d (ceilState s d) 0
  else if d = 4 then getF s EN_LEDGER.USED d * 11 / 10
  else getF s EN_LEDGER.USED d

/-- The power state of a die in the ended tide: its state, with TP where its idle slots ran up to the mark (R326, R328). -/
def endedState (s : State) (d : Nat) : Nat := getF s EN_STATE.PSTATE d ||| (if s.en.idled.contains d then 4 else 0)

/-- A die sends its budget message for the ended tide. -/
def budgetSend (d temp margin : Nat) : Act :=
  .ask fun s =>
    Act.all [Act.when (d = 4) (updEn fun e => { e with hostPlanned := plannedOf s d }),
      send (.mgmtFlit (budgetFlit 1 d (endedState s d) (getF s EN_STATE.SLOTS d) (endedTide s) (getF s EN_LEDGER.USED d)
        (plannedOf s d) (baseShare s d - plannedOf s d) temp margin))]
def execBudgetMessageSend (d : Fin 6) (temp margin : BitVec 16) (s : State) : Host.Outcome State Fault Refusal :=
  .next (run (budgetSend d.val temp.toNat margin.toNat) s)

/-- The harbourmaster takes a budget message that passes its check and names the ended tide. -/
def budgetTake (f : Desc) : Act :=
  .ask fun s =>
    if flitOk f && dByte f 0 = 1 && dByte f 1 ≤ 5 && dByte f 8 8 = endedTide s then
      updEn fun e => { e with msgs := Cells.ins e.msgs (dByte f 1) { planned := dByte f 0x14 4, temp := signedOf (dByte f 0x1C 2) 16 } }
    else .skip
def execBudgetMessage (flit : Desc) (s : State) : Host.Outcome State Fault Refusal := .next (run (budgetTake flit) s)

/-! Allotments (R321 to R324). -/

/-- TRIP and HOT in °C. -/
def tripC (s : State) : Nat := min 110 (getF s EN_THERM.TRIP)
def hotC (s : State) : Nat := if tripC s ≤ getF s EN_THERM.HOT then tripC s - 1 else getF s EN_THERM.HOT

/-- The thermal ceiling of a die, none below HOT. TEMP is in 1/16 °C. -/
def thermalCeil (s : State) (d : Nat) (temp : Int) : Option Int :=
  let lo := 16 * (hotC s : Int)
  let hi := 16 * (tripC s : Int)
  let fl : Int := dieFloor s d
  if temp < lo then none
  else if temp < hi then some (fl + (shareOf s d * periodNow s - fl) * (hi - temp) / (hi - lo))
  else some fl

/-- The less of a value and a ceiling. -/
def underCeil (v : Int) : Option Int → Int
  | none => v
  | some c => min v c

/-- Insertion by need, largest first, ties to the lower die number. -/
def insNeed (x : Nat × Int) : List (Nat × Int) → List (Nat × Int)
  | [] => [x]
  | y :: ys => if y.2 < x.2 then x :: y :: ys else y :: insNeed x ys

/-- The grants of a tide as (die, grant, extra) from the total and each die's PLANNED and TEMP (R324). -/
def grants (s : State) (total : Nat) (msg : Nat → BudMsg) : List (Nat × Int × Int) :=
  let base := fun d => (total * shareOf s d / shareSum s : Nat)
  let ceil := fun d => thermalCeil s d (msg d).temp
  let g0 := fun d => max (dieFloor s d : Int) (underCeil (min ((msg d).planned : Int) (base d)) (ceil d))
  let pool : Int := total - (List.range 6).foldl (fun a d => a + g0 d) 0
  let order := (List.range 6).foldl (fun l d => insNeed (d, ((msg d).planned : Int) - g0 d) l) []
  let r := order.foldl (fun (a : Int × List (Nat × Int × Int)) x =>
    let e := max 0 (underCeil (min a.1 x.2) ((ceil x.1).map fun c => c - g0 x.1))
    (a.1 - e, a.2 ++ [(x.1, g0 x.1 + e, e)])) (pool, [])
  r.2

/-- Quarter nanoseconds in 10 s. -/
def tenSeconds : Nat := 40000000000

/-- The excess over CAP_S × period that R323 allows. -/
def excessAllowed (s : State) (unused : Nat) : Nat :=
  let l := s.en.credit.filter fun x => s.now < x.1 + tenSeconds
  let credit := unused + sumNat (l.map fun x => x.2.1) - sumNat (l.map fun x => x.2.2)
  if s.en.excursion + periodNow s < 1000000 then min credit ((capE s - capS s) * periodNow s) else 0

/-- The harbourmaster grants the allotments of the new tide and sends them. A die without a budget message has an open PLANNED and TEMP (log 28). -/
def allotSend (eta : Nat) : Act :=
  .seq (updEn fun e => { e with eta := eta }) (withFree fun pick => .ask fun s =>
    let sustained := capS s * periodNow s
    let floors := sumNat ((List.range 6).map fun d => dieFloor s d)
    let msg := fun d => (Cells.look s.en.msgs d).getD { planned := pick (2 * d), temp := pick (2 * d + 1) }
    let unused := sustained - sumNat ((List.range 6).map fun d => getF s EN_LEDGER.USED d)
    let low := decide (sustained < floors)
    let total := sustained + excessAllowed s unused
    let gs : List (Nat × Int × Int) := if low then (List.range 6).map fun d => (d, (dieFloor s d : Int), (0 : Int)) else grants s total msg
    let granted := (gs.foldl (fun (a : Int) (x : Nat × Int × Int) => a + x.2.1) 0).toNat
    let excess := granted - sustained
    let hist := (s.now, unused, excess) :: s.en.credit.filter fun x => s.now < x.1 + tenSeconds
    let run := if excess = 0 then 0 else s.en.excursion + periodNow s
    let tripped := fun d => decide (16 * (tripC s : Int) ≤ (msg d).temp)
    Act.all [Act.when low (Act.all [evt EN_EVT.CAPLOW, logEv .capLow]),
      Act.when ((List.range 6).any fun d => decide (16 * (hotC s : Int) ≤ (msg d).temp)) (evt EN_EVT.THROT),
      Act.when ((List.range 6).any tripped) (evt EN_EVT.TRIP),
      updEn fun e => { e with credit := hist, excursion := run, msgs := [] },
      setF EN_CREDIT.RUN run, setF EN_CREDIT.CREDIT ((sumNat (hist.map fun x => x.2.1) - sumNat (hist.map fun x => x.2.2)) / 1000),
      Act.each (fun x => send (.mgmtFlit (budgetFlit 2 x.1 (if tripped x.1 then 2 else ceilState s x.1) 0 (getF s TIDE_COUNT.COUNT) 0 x.2.1.toNat x.2.2.toNat 0 0))) gs])
def execAllotmentSend (eta : Fin 1001) (s : State) : Host.Outcome State Fault Refusal := .next (run (allotSend eta.val) s)

/-- The host die's clock against its allotment: one state lower at the next boundary, or one higher after 16 generous tides (R331). What the boundary of this tide applies is decided already. -/
def hostClock (a : Nat) : Act :=
  .ask fun s =>
    let n := getF s TIDE_COUNT.COUNT
    let st := (Cells.look s.en.hostNext n).getD (getF s EN_STATE.PSTATE 4 % 4)
    let pl := s.en.hostPlanned
    if a < pl then updEn fun e => { e with hostRun := 0, hostNext := if st < 2 then Cells.ins e.hostNext (n + 1) (st + 1) else e.hostNext }
    else if pl * 5 ≤ a * 4 then
      updEn fun e => { e with hostRun := (e.hostRun + 1) % 16, hostNext := if e.hostRun = 15 && decide (0 < st) then Cells.ins e.hostNext (n + 1) (st - 1) else e.hostNext }
    else updEn fun e => { e with hostRun := 0 }

/-- A die takes its allotment of the new tide and chooses its state and idle slots (R327, R331). -/
def allotTake (f : Desc) : Act :=
  .ask fun s =>
    let d := dByte f 1
    let a := dByte f 0x14 4
    if flitOk f && dByte f 0 = 2 && d ≤ 5 && dByte f 8 8 = getF s TIDE_COUNT.COUNT then
      Act.all [updEn fun e =>
          { e with allots := Cells.ins e.allots d (a, dByte f 2 % 4), last := Cells.ins e.last d a, misses := Cells.put 0 e.misses d 0 },
        setF EN_LEDGER.ALLOT a d,
        .ask fun t => Act.when (decide (d < 4)) (updEn fun e =>
          { e with chosen := Cells.ins e.chosen d (chooseState t d a (max (dByte f 2 % 4) (ceilState t d))) }),
        Act.when (d = 4) (hostClock a)]
    else .skip
def execAllotment (flit : Desc) (s : State) : Host.Outcome State Fault Refusal := .next (run (allotTake flit) s)

/-- A die without an allotment at T + 2.0 µs counts the miss and uses the default one (R330, R331). -/
def allotMiss (d : Nat) : Act :=
  .ask fun s =>
    match Cells.look s.en.allots d with
    | some _ => .skip
    | none =>
      let a := match Cells.look s.en.last d with | some x => min x (baseShare s d) | none => baseShare s d
      Act.all [addF D2D_BUDMISS.COUNT, evt EN_EVT.MISSDEF, setF EN_LEDGER.ALLOT a d,
        updEn fun e => { e with misses := Cells.put 0 e.misses d (min 16 (Cells.get 0 e.misses d + 1)) },
        .ask fun t => Act.when (decide (d < 4)) (updEn fun e => { e with chosen := Cells.ins e.chosen d (chooseState t d a (ceilState t d)) }),
        Act.when (d = 4) (hostClock a)]

/-! Margin (R337, R339). -/

/-- The settings of AGE_CFG as the package treats them: INTERVAL, TLOW, THIGH, OFFMIN, OFFMAX. -/
def ageInterval (s : State) : Nat := max 12 (min 24 (getF s AGE_CFG.INTERVAL))
def ageTlow (s : State) : Nat := max 1 (getF s AGE_CFG.TLOW)
def ageThigh (s : State) : Nat := max (ageTlow s + 1) (getF s AGE_CFG.THIGH)
def ageOffmin (s : State) : Int := max (-50) (min 0 (signedOf (getF s AGE_CFG.OFFMIN) 8))
def ageOffmax (s : State) : Int := min 100 (getF s AGE_CFG.OFFMAX)

/-- HEADROOM of a die (R339). -/
def ageHeadroom (s : State) (d : Nat) : Int := ageOffmax s - signedOf (getF s AGE_DIE.OFFSET d) 8

/-- RATE and REMAIN (R339); HEADROOM is formed at the read. -/
def ageForecast (d : Nat) : Act :=
  .ask fun s =>
    let off := signedOf (getF s AGE_DIE.OFFSET d) 8
    let head := ageHeadroom s d
    let f := (Cells.look s.en.ageFirst d).getD (0, 0, 0)
    let ns : Int := taiNow s - f.2.1
    let rate : Int := if ns ≤ 0 then 0 else (off - signedOf f.1.toNat 8) * 1000 * 3600000000000 / ns
    let rate := max (-32768) (min 32767 rate)
    Act.all [setF AGE_FCAST.RATE (fieldOfInt rate 16) d,
      setF AGE_FCAST.REMAIN (if rate ≤ 0 || f.2.2 < 64 then 0xFFFFFFFF else min 0xFFFFFFFF (head * 1000 / rate).toNat) d]

/-! The new tide's states. -/

/-- The ceiling state of a die in the new tide: its own, or a lower one that its allotment names (R324, R330). -/
def tideCeil (s : State) (d : Nat) : Nat := max (ceilState s d) (match Cells.look s.en.allots d with | some a => a.2 | none => 0)

/-- The voltage offset that was planned for a die applies (R337). -/
def offsetApplies (o : Nat × BitVec 8) : Act :=
  .ask fun s => Act.all [Act.when (decide (getF s AGE_DIE.OFFSET o.1 ≠ o.2.toNat)) (Act.all [incF AGE_DIE.REPLANS 1 o.1, evt AGE_EVT.REPLAN]),
    setF AGE_DIE.OFFSET o.2.toNat o.1, ageForecast o.1]

/-- A compute die's state and slots take effect; a dark die stays in DD (R328, R332). -/
def dieClock (d : Nat) : Act :=
  .ask fun s =>
    let c := (Cells.look s.en.chosen d).getD (0, 0)
    let dark := decide (dieState s d = 1)
    Act.all [setF EN_STATE.PSTATE (if dark then 8 + c.1 else c.1) d, setF EN_STATE.SLOTS (if dark then 0 else c.2) d, setF EN_STATE.CEIL (tideCeil s d) d]

/-- The host die's clock: the state that R331 chose for this tide, never above the ceiling state; what a ceiling lowered rises by R331 alone (DEDUCED, log 63). -/
def hostState : Act :=
  .ask fun s =>
    let n := getF s TIDE_COUNT.COUNT
    let st := (Cells.look s.en.hostNext n).getD (getF s EN_STATE.PSTATE 4 % 4)
    Act.all [setF EN_STATE.CEIL (tideCeil s 4) 4, setF EN_STATE.PSTATE (max st (tideCeil s 4)) 4,
      updEn fun e => { e with hostNext := e.hostNext.filter fun x => n < x.1 }]

/-- The clock states and slots of the new tide take effect between T + 2.0 µs and T + 2.4 µs, with the voltage offsets that were planned (R328, R331, R337). -/
def clockStates : Act :=
  .ask fun s => Act.all [Act.each offsetApplies s.en.offNext, Act.each dieClock (List.range 4), hostState,
    updEn fun e => { e with offNext := [], allots := [], chosen := [] }]

/-! Gating (R325, R328, R329). -/

/-- A compute die's run of idle slots begins. -/
def slotsBegin (d : Nat) : Act :=
  .ask fun s =>
    if getF s EN_STATE.SLOTS d = 0 || s.en.slots.contains d then .skip
    else Act.all [updEn fun e => { e with slots := d :: e.slots }, setF EN_STATE.PSTATE (getF s EN_STATE.PSTATE d % 4 + 4) d,
      incF EN_COUNT.SLOTS (getF s EN_STATE.SLOTS d)]
def execIdleSlotsBegin (d : Fin 4) (s : State) : Host.Outcome State Fault Refusal := .next (run (slotsBegin d.val) s)

/-- A compute die's limiter gates its clock until the mark. -/
def limiterGate (d : Nat) : Act :=
  .ask fun s =>
    if s.en.limited.contains d then .skip
    else Act.all [updEn fun e => { e with limited := d :: e.limited }, incF EN_COUNT.LIMIT, evt EN_EVT.LIMIT, logEv .limiter d]
def execLimiterGate (d : Fin 4) (s : State) : Host.Outcome State Fault Refusal := .next (run (limiterGate d.val) s)

/-- A sensor of a compute die, or of the host die, reaches 115 °C. -/
def critTemp (d : Nat) : Act := updEn fun e => { e with critical := if e.critical.contains d then e.critical else d :: e.critical }
def execCriticalTemperature (d : Fin 5) (s : State) : Host.Outcome State Fault Refusal := .next (run (critTemp d.val) s)

/-- It reads below 105 °C again: the clock resumes. -/
def critClear (d : Nat) : Act :=
  .ask fun s =>
    if s.en.critical.contains d then Act.all [updEn fun e => { e with critical := e.critical.filter fun x => x ≠ d }, evt EN_EVT.CRIT, logEv .criticalTemp d]
    else .skip
def execCriticalTemperatureClear (d : Fin 5) (s : State) : Host.Outcome State Fault Refusal := .next (run (critClear d.val) s)

/-- At the mark idle slots and limiters end, and each die's ledger is copied (R319, R328, R329). -/
def ledgerMark (used : List Nat) : Act :=
  .ask fun s =>
    Act.all [Act.each (fun d => setF EN_STATE.PSTATE (getF s EN_STATE.PSTATE d % 4) d) s.en.slots,
      updEn fun e => { e with slots := [], idled := e.slots, limited := [], ageSched := [] },
      Act.each (fun d =>
        let u := used.getD d 0
        let t := Cells.get 0 s.en.total d + u
        Act.all [setF EN_LEDGER.USED u d, setF EN_TOTAL.MJ (t / 1000) d, updEn fun e => { e with total := Cells.put 0 e.total d t }]) (List.range 6)]

/-! Tide gauges and margin (R335 to R339). -/

/-- The gauges of a die as first number and count. -/
def gaugesOf (d : Nat) : Nat × Nat := if d < 4 then (64 * d, 64) else if d = 4 then (256, 16) else (272, 16)

/-- The clock period of a die in a state, in ps as a fraction. The host die counts by HC, the I/O die by IN (Table 1-8, R331). -/
def clockPs (d st : Nat) : Nat × Nat :=
  if d < 4 then [(250, 1), (625, 2), (500, 1)].getD st (500, 1)
  else if d = 4 then [(625, 2), (1250, 3), (625, 1)].getD st (625, 1)
  else (500, 1)

/-- At T + 2.0 µs each die decides whether its sample falls due and fits the tide (R336). -/
def gaugeSchedule : Act :=
  Act.each (fun (d : Nat) => .ask fun s =>
    let n := getF s TIDE_COUNT.COUNT
    let wait := match Cells.look s.en.ageWait d with | some t => some t | none => if n % 2 ^ ageInterval s = 0 then some n else none
    match wait with
    | none => .skip
    | some t =>
      let st := getF s EN_STATE.PSTATE d % 4
      let fits := decide (d ≥ 4) || (decide (st = getF s EN_STATE.CEIL d) && decide (getF s EN_STATE.SLOTS d + 4 ≤ slotsAvail s d st))
      updEn fun e => { e with ageWait := Cells.ins e.ageWait d t, ageSched := if fits then d :: e.ageSched else e.ageSched }) (List.range 6)

/-- After a sample the offset is planned anew, and a die that runs out of offset loses a state (R337, R338). The record names the die, both offsets, the worst slack and the hottest gauge. -/
def replan (d worst temp : Nat) : Act :=
  .ask fun s =>
    let ceil := getF s AGE_DIE.CEIL d
    let clk := clockPs d ceil
    let off := signedOf (getF s AGE_DIE.OFFSET d) 8
    let lowMargin := decide (worst * 100 * clk.2 < ageTlow s * clk.1)
    let high := decide (ageThigh s * clk.1 < worst * 100 * clk.2)
    let new := if lowMargin then min (ageOffmax s) (off + 5) else if high then max (ageOffmin s) (off - 5) else off
    Act.all [updEn fun e => { e with offNext := Cells.ins e.offNext d (BitVec.ofInt 8 new) }, logEv .voltageReplan d (data := [d, getF s AGE_DIE.OFFSET d, fieldOfInt new 8, worst, temp]),
      Act.when (lowMargin && decide (off = ageOffmax s))
        (if ceil < 2 && d < 5 then Act.all [setF AGE_DIE.CEIL (ceil + 1) d, evt AGE_EVT.DEMOTE, logEv .demoted d]
         else Act.all [evt AGE_EVT.DEMOTE, evt AGE_EVT.EXHAUST, logEv .demoted d])]

/-- A die takes its sample: one slack in ps and one temperature for each of its gauges. -/
def gaugeTake (d : Nat) (r : List (Nat × BitVec 8)) : Act :=
  .ask fun s =>
    let g := gaugesOf d
    if r.length ≠ g.2 then .skip
    else
      let worst := (r.map fun x => x.1).foldl min (r.headD (0, 0)).1
      Act.all [Act.each (fun x => Act.all [setF AGE_GAUGE.TIDE (getF s TIDE_COUNT.COUNT) (g.1 + x.2), setF AGE_GAUGE.TEMP x.1.2.toNat (g.1 + x.2),
          setF AGE_GAUGE.SLACK (min 255 x.1.1) (g.1 + x.2)]) r.zipIdx,
        setF AGE_DIE.WORST (min 255 worst) d,
        updEn fun e => { e with ageWait := Cells.del e.ageWait d, ageSched := e.ageSched.filter fun x => x ≠ d,
                                ageFirst := if s.life = .field then
                                    (match Cells.look e.ageFirst d with
                                     | some f => Cells.ins e.ageFirst d (f.1, f.2.1, f.2.2 + 1)
                                     | none => Cells.ins e.ageFirst d (BitVec.ofNat 8 (getF s AGE_DIE.OFFSET d), taiNow s, 0))
                                  else e.ageFirst },
        replan d worst (fieldOfInt ((r.map fun x => x.2.toInt).foldl max (-128)) 8), ageForecast d]

/-- The scheduled sample of a die. -/
def gaugeSample (d : Nat) (r : List (Nat × BitVec 8)) : Act := .ask fun s => Act.when (s.en.ageSched.contains d) (gaugeTake d r)
def execGaugeSample (d : Fin 6) (readings : List (Nat × BitVec 8)) (s : State) : Host.Outcome State Fault Refusal :=
  .next (run (gaugeSample d.val readings) s)

/-- After 1,024 tides of waiting the sample is taken anyway. -/
def gaugeForced (d : Nat) (r : List (Nat × BitVec 8)) : Act :=
  .ask fun s =>
    match Cells.look s.en.ageWait d with
    | some t => Act.when (decide (t + 1024 ≤ getF s TIDE_COUNT.COUNT)) (.seq (evt AGE_EVT.FORCED) (gaugeTake d r))
    | none => .skip
def execGaugeForcedSample (d : Fin 6) (readings : List (Nat × BitVec 8)) (s : State) : Host.Outcome State Fault Refusal :=
  .next (run (gaugeForced d.val readings) s)

end Sys2Proof.Machine
end

