-- ==== Sys2Proof/Machine/Matrix.lean ====
section
/-! DEFINITION. The matrix engine: NOP, MMA, long-sum folds, completion and RESUME (R96 to R109, R120 to R124, R158). The operands of an MMA are read and its groups accumulated between its start and its completion, where no other engine can see the bank (R103, R104): LONG_SUM_FOLD accumulates up to a fold, MMA_COMPLETE the rest. -/

namespace Sys2Proof.Machine

/-! NOP. -/

/-- A NOP at the head of the matrix sequencer completes at once with its WAIT and SIG (R96); with CC = 1 it belongs to a pass as every item does (R144). -/
def nopItem (u : Nat) : Act :=
  .ask fun s =>
    match headItem s u .mx with
    | none => .skip
    | some d =>
      if dOpcode d = 0 && waitMet s u d then
        let r := startRec s u d
        Act.all [passBegin (tilePart s u) d, traceItem u 1 d, updEng u .mx fun e => { e with queue := e.queue.drop 1 }, signal u d,
          addF MX_ITEMS.COUNT 1 u, completionReport u r, traceItem u 2 d]
      else .skip

def execNop (u : Fin 512) (s : State) : Host.Outcome State Fault Refusal := .next (run (nopItem u) s)

/-! Group sums and accumulation. -/

/-- The products of group `q` of element (i, j): a k at or beyond K counts as a zero product (R101). -/
def groupProducts (pick : Nat → Nat) (t : Tile) (r : RunItem) (i j q : Nat) : List (FV × Nat) :=
  (List.range (gsOf r.desc)).map fun n =>
    let k := q * gsOf r.desc + n
    if k < mK r.desc then FV.mul (opA pick t r i k) (opB pick t r k j) else (FV.zero, 0)

/-- The exact sum of a group and its NV flag (R120). -/
def groupSum (pick : Nat → Nat) (t : Tile) (r : RunItem) (i j q : Nat) : FV × Nat :=
  let ps := groupProducts pick t r i j q
  let sm := FV.sum (ps.map fun p => p.1)
  (sm.1, sm.2 ||| orAll (ps.map fun p => p.2))

/-- One group enters an element's S and E, or its INT32 sum (R101, R121, R122). -/
def addGroup (pick : Nat → Nat) (t : Tile) (r : RunItem) (i j q : Nat) (x : Nat × Nat × Nat) : Nat × Nat × Nat :=
  let p := groupSum pick t r i j q
  if mInt r.desc then
    let z := (FV.sum [decodeFmt 0xA x.1, p.1]).1
    let y := narrowInt 0xA (dOvm r.desc) (z.intAt 0)
    (y.1, 0, x.2.2 ||| y.2)
  else
    let g := round32 (p.1.scale (-(r.aexp + r.bexp)))
    let c := compAdd x.1 x.2.1 g.1
    (c.1, c.2.1, x.2.2 ||| p.2 ||| g.2 ||| c.2.2)

/-- Element `n` of a bank after groups q0 to q0 + k - 1 of an MMA, with the flags raised: an element beyond MROWS or NCOLS receives none. -/
def elemAfter (pick : Nat → Nat) (t : Tile) (r : RunItem) (b : Bank) (q0 k n : Nat) : Nat × Nat × Nat :=
  let x := (Cells.get 0 b.s n, Cells.get 0 b.e n, 0)
  if n / 32 < mMrows r.desc && n % 32 < mNcols r.desc then
    (List.range k).foldl (fun a q => addGroup pick t r (n / 32) (n % 32) (q0 + q) a) x
  else x

/-- A dense bank as a sparse map. -/
def denseMap (l : List Nat) : FMap Nat := (l.zipIdx.filter fun e => e.1 ≠ 0).map fun e => (e.2, e.1)

/-- A bank after `k` groups of an MMA from group q0 on, and the flags they raised (R101). -/
def accumulate (pick : Nat → Nat) (t : Tile) (r : RunItem) (b : Bank) (q0 k : Nat) : Bank × Nat :=
  let els := (List.range 1024).map fun n => elemAfter pick t r b q0 k n
  ({ b with s := denseMap (els.map fun x => x.1), e := denseMap (els.map fun x => x.2.1), groups := b.groups + k },
    orAll (els.map fun x => x.2.2))

/-! The start of an MMA. -/

/-- The bank image at SPILL: S and E, or the INT32 sums (R103). -/
def loadImage (pick : Nat → Nat) (t : Tile) (r : RunItem) : Bank :=
  let word := fun k => leNat ((List.range 4).map fun i => opByte pick t r (mSpill r.desc + 4 * k + i))
  { st := .filling, kind := some (mInt r.desc), groups := 0, s := denseMap ((List.range 1024).map word),
    e := if mInt r.desc then [] else denseMap ((List.range 1024).map fun n => word (1024 + n)) }

/-- The bank after INIT; with 0b10 its image enters with the first group (R103, Table 4-6). -/
def initBank (r : RunItem) (b : Bank) : Bank :=
  match mInit r.desc with
  | 0 => { st := .filling, kind := some (mInt r.desc), groups := 0, s := [], e := [] }
  | 2 => { st := .filling, kind := some (mInt r.desc), groups := 0, s := [], e := [] }
  | _ => { b with st := .filling }

/-- The bank that the groups of an MMA enter: the image at SPILL before its first group with INIT 0b10, read with what other items overwrote since the start (R93, R103). -/
def bankFor (pick : Nat → Nat) (t : Tile) (r : RunItem) : Bank :=
  if mInit r.desc = 2 && r.group = 0 then loadImage pick t r else t.bank (dBank r.desc)

/-- The MMAs in progress on a bank, oldest first. -/
def runsOn (t : Tile) (b : Nat) : List RunItem := t.mx.run.filter fun r => dBank r.desc = b

/-- The wait of an MMA for its bank is met: FREE or HELD, or FILLING by an earlier MMA with RELEASE = 0 for an INIT of 0b01 (Table 4-6). -/
def bankReady (t : Tile) (d : Desc) : Bool :=
  match (t.bank (dBank d)).st with
  | .free => true
  | .held => true
  | .full => false
  | .filling => mInit d = 1 && (match (runsOn t (dBank d)).getLast? with | some r => !mRelease r.desc | none => true)

/-- A matrix descriptor on a feeder tile completes without effect: its SIG applies, ROLEVIOL sets and a record is written (R59). -/
def roleViolation (u : Nat) (d : Desc) : Act :=
  .ask fun s =>
    let r := startRec s u d
    Act.all [passBegin (tilePart s u) d, updEng u .mx fun e => { e with queue := e.queue.drop 1 }, signal u d,
      Act.when (dOpcode d = 0x10) (.seq (addF MX_ITEMS.COUNT 1 u) (lastItem u .mx MX_STAT.ITEM d)), evt CHART_EVT.ROLEVIOL, logEv .roleViolation (u / 128) u,
      completionReport u r]

/-- An MMA starts: its bank takes INIT, and it is in progress (R101, R103). -/
def mmaStart (u : Nat) (d : Desc) : Act :=
  .ask fun s =>
    let t := getTile s u
    let r := { startRec s u d with mix := oldUnion (t.dma.run.map fun x => x.oldOp) }
    Act.all [passBegin (tilePart s u) d, traceItem u 1 d, setF MX_STAT.ITEM (dItem d) u,
      updTile u fun t => (t.withBank (dBank d) (initBank r (t.bank (dBank d)))).withEng .mx
        { t.mx with queue := t.mx.queue.drop 1, run := t.mx.run ++ [r] }]

/-- The head item of the matrix sequencer that is no NOP: it waits, violates the tile's role, faults, or starts (R59, R91, R103, R108). -/
def mmaItem (u : Nat) : Act :=
  .ask fun s =>
    match headItem s u .mx with
    | none => .skip
    | some d =>
      if dOpcode d = 0 || !waitMet s u d then .skip
      else if (theChart s).role u = 2 then roleViolation u d
      else if dOpcode d = 0x10 && !bankReady (getTile s u) d then .skip
      else
        let code := mxFaultCode d ((getTile s u).bank (dBank d))
        if code ≠ 0 then itemFault u .mx .MX_FAULT .mxFault d code else mmaStart u d

def execMma (u : Fin 512) (s : State) : Host.Outcome State Fault Refusal := .next (run (mmaItem u) s)

/-! Long-sum folds (R101, R123, R124). -/

/-- Groups of an MMA that have not entered its bank. -/
def groupsLeft (r : RunItem) : Nat := mGroups r.desc - r.group

/-- The groups still to enter before a fold, where one falls due within the MMA. -/
def foldDue (b : Bank) (r : RunItem) : Option Nat :=
  let l := 2 ^ mLongl r.desc
  if mLongl r.desc ≠ 0 && b.groups < l && l ≤ b.groups + groupsLeft r then some (l - b.groups) else none

/-- A bank with element `n` folded by its draw: every finite S - E is rounded stochastically, and E becomes 0 (R123). -/
def foldBank (b : Bank) (draws : List Nat) : Bank × Nat :=
  let els := (List.range 1024).map fun n =>
    let s := Cells.get 0 b.s n
    if fin32 s then fpFP32.round (some (draws.getD n 0)) (bankValue s (Cells.get 0 b.e n)) else (s, 0)
  ({ b with s := denseMap (els.map fun x => x.1), e := [], groups := 0 }, orAll (els.map fun x => x.2))

/-- The oldest item in progress on a bank changes. -/
def mapFirst {α : Type} (c : α → Bool) (f : α → α) : List α → List α
  | [] => []
  | x :: xs => if c x then f x :: xs else x :: mapFirst c f xs

/-- A bank's group counter reaches 2^L: the groups up to it enter, every element is folded with the draws of STREAM, and the counter returns to 0. An integer bank is left as it is and takes no draws. -/
def longSumFold (u b : Nat) : Act :=
  withFree fun pick => .ask fun s =>
    let t := getTile s u
    match (runsOn t b).head? with
    | none => .skip
    | some r =>
      match foldDue (t.bank b) r with
      | none => .skip
      | some k =>
        let acc := accumulate pick t r (bankFor pick t r) r.group k
        let st := (Cells.get {} t.streams (dStream r.desc)).forStep r.step
        let fold := if mInt r.desc then ({ acc.1 with groups := 0 }, 0)
          else foldBank acc.1 (streamDraws (streamKey s (tilePart s u)) st u (dStream r.desc) 1024)
        let fl := acc.2 ||| fold.2
        Act.all [updTile u fun t => (t.withBank b fold.1).withEng .mx
            { t.mx with run := mapFirst (fun x => dBank x.desc = b) (fun x => { x with group := x.group + k, flags := x.flags ||| fl }) t.mx.run },
          Act.when (!mInt r.desc) (takeBlocks u (dStream r.desc) r.step 1024),
          orFlags .MX_FLAGS u (dCc r.desc) fl]

def execLongSumFold (u : Fin 512) (b : Fin 2) (s : State) : Host.Outcome State Fault Refusal := .next (run (clocked u (longSumFold u b)) s)

/-! Completion (R103, R158). -/

/-- The released MMAs of a layer in a step, counted on its tile; a new step starts from 0. -/
def releasedCount (t : Tile) (layer step : Nat) : Nat :=
  match Cells.look t.released layer with
  | some (st, n) => if st = step then n else 0
  | none => 0

/-- Sampling of a released MMA: the n-th of its layer in the step where (n + u) mod 2^LOG2 is 0, the first one being n = 1 (R135, R158, log 9). -/
def watchSelect (u : Nat) (r : RunItem) : Act :=
  .ask fun s =>
    let p := tilePart s u
    let l := dLayer r.desc
    if r.watch && mRelease r.desc then
      let n := releasedCount (getTile s u) l r.step
      let take := getB s NUM_WATCH_RATE.EN && (n + 1 + u) % 2 ^ min 16 (getF s NUM_WATCH_RATE.LOG2) = 0
      updTile u fun t =>
        let b := t.bank (dBank r.desc)
        { t with released := Cells.ins t.released l (r.step, n + 1),
                 samples := if take then t.samples ++ [{ desc := r.desc, aexp := r.aexp, bexp := r.bexp, part := p, pass := r.pass, running := false, s := b.s, e := b.e, int := mInt r.desc }] else t.samples }
    else .skip

/-- The oldest MMA in progress completes once no fold is due in it: its last groups enter, its bank goes HELD or FULL or stays FILLING for a later MMA, its flags, counters and SIG apply, and it reports (R101 to R103, R144). -/
def mmaComplete (u : Nat) : Act :=
  withFree fun pick => .ask fun s =>
    let t := getTile s u
    match t.mx.run with
    | [] => .skip
    | r :: rest =>
      let b := dBank r.desc
      if (foldDue (t.bank b) r).isSome then .skip
      else
        let acc := accumulate pick t r (bankFor pick t r) r.group (groupsLeft r)
        let later := rest.any fun x => dBank x.desc = b
        let st := if later then BankState.filling else if mRelease r.desc then .full else .held
        let r' := { r with flags := r.flags ||| acc.2 }
        Act.all [updTile u fun t => (t.withBank b { acc.1 with st := st }).withEng .mx { t.mx with run := rest },
          orFlags .MX_FLAGS u (dCc r.desc) acc.2, addF MX_MACS.COUNT (mK r.desc * mMrows r.desc * mNcols r.desc) u,
          addF MX_ITEMS.COUNT 1 u, signal u r.desc, watchSelect u r', completionReport u r', traceItem u 2 r.desc]

def execMmaComplete (u : Fin 512) (s : State) : Host.Outcome State Fault Refusal := .next (run (clocked u (mmaComplete u)) s)

/-- MX_CTL.RESUME (R109). -/
def mxResume (u : Nat) : Act := resumeItem u .mx (addF MX_ITEMS.COUNT 1 u) fun d => Act.when (dOpcode d = 0x10) (lastItem u .mx MX_STAT.ITEM d)

def execMxCtlResume (u : Fin 512) (s : State) : Host.Outcome State Fault Refusal := .next (run (mxResume u) s)

end Sys2Proof.Machine
end

