-- ==== Sys2Proof/Machine/Numerics.lean ====
section
/-! DEFINITION. The numerics units: completion reports, verdicts, repeats, gates, the numerics watch, and the duties of a step close (R137 to R162). -/

namespace Sys2Proof.Machine

/-- Update of the numerics units. -/
def updNum (f : NumSt → NumSt) : Act := .prim (.num f)

/-! Reports and verdicts (R144 to R149, R151). -/

/-- A list without repeats. -/
def dedup (l : List Nat) : List Nat := l.foldl (fun a x => if a.contains x then a else a ++ [x]) []

/-- The first element of a list that satisfies a test leaves it. -/
def dropFirst {α : Type} (c : α → Bool) : List α → List α
  | [] => []
  | x :: xs => if c x then xs else x :: dropFirst c xs

/-- A report merges into its pass, which ends at ITEMS reports; flags or rows outside any open pass set LATEFLAG (R144, R151). -/
def mergeReport (r : Report) : Act :=
  .ask fun s =>
    let late := Act.when (r.flags ≠ 0 || r.nonfinite) (evt NUM_EVT.LATEFLAG)
    match passOf s r.part r.layer with
    | none => late
    | some x =>
      if r.pass = some x.id && !x.ended then
        setPass r.part r.layer (some { x with count := x.count + 1, flags := x.flags ||| r.flags, nonfinite := x.nonfinite || r.nonfinite,
                                              rows := dedup (x.rows ++ r.rows), ended := x.count + 1 = x.items })
      else late

/-- The oldest report on its way from a tile reaches the verdict unit. -/
def reportArrives (u : Nat) : Act :=
  .ask fun s =>
    match s.num.reports.find? (fun r => r.unit = u) with
    | none => .skip
    | some r => Act.all [updNum fun n => { n with reports := dropFirst (fun x => x.unit = u) n.reports }, mergeReport r]

def execCompletionReport (u : Fin 512) (s : State) : Host.Outcome State Fault Refusal := .next (run (reportArrives u) s)

/-- The tiles of a partition. -/
def tilesOf (s : State) (p : Nat) : List Nat := ((theChart s).unitsOf p).filter fun u => u < 512

/-- A verdict sets out to every tile of the partition (R145). -/
def deliverVerdict (p l : Nat) (x : PassSt) (clean : Bool) : Act :=
  .ask fun s => Act.each (fun u => updTile u fun t => { t with verdicts := t.verdicts ++ [{ layer := l, pass := x.id, clean := clean, gate := x.gate }] }) (tilesOf s p)

/-- A partition's step is marked (R153). -/
def markStep (p : Nat) : Act := updNum fun n => { n with marked := if n.marked.contains p then n.marked else n.marked ++ [p] }

/-- The pass gathered nothing that a repeat must mend. -/
def PassSt.clean (x : PassSt) : Bool := x.top || (x.flags = 0 && !x.nonfinite)

/-- The record of a repeat gives the layer, the step, both rungs and the flags gathered, the last being whether a value was not finite (R146). -/
def repeatRecord (p l : Nat) (x : PassSt) : Act :=
  .ask fun s => logEv .layerRepeat (data := [l, getF s NUM_STEP.STEP p, x.rung, x.rung + 1, x.flags, b2n x.nonfinite])

/-- A pass that is not clean is discarded and its layer repeated at the next rung (R146). -/
def layerRepeat (p l : Nat) (x : PassSt) : Act :=
  Act.all [incF NUM_COUNT.REPEATS, evt NUM_EVT.REPEAT, repeatRecord p l x, Act.when x.dir (markStep p),
    setPass p l (some { x with decided := true, repeating := true }), deliverVerdict p l x false]

/-- The verdict on a pass that has ended (R145, R149, R150). -/
def verdict (p l : Nat) : Act :=
  .ask fun s =>
    match passOf s p l with
    | none => .skip
    | some x =>
      if !x.ended || x.decided || x.repeating then .skip
      else if x.clean then
        Act.all [Act.when (x.top && !x.rows.isEmpty) (Act.all [incF NUM_COUNT.ROWS x.rows.length, evt NUM_EVT.ROWDROP, logEv .rowDrop (data := [x.rows.length, x.rows.headD 0]),
            Act.when x.dir (markStep p)]),
          setPass p l (some { x with decided := true }), deliverVerdict p l x true]
      else layerRepeat p l x

def execVerdict (p : Fin 64) (layer : BitVec 16) (s : State) : Host.Outcome State Fault Refusal := .next (run (verdict p layer.toNat) s)

/-- The repeat plan is checked; its items go ahead of every item that has not started, or REPFAULT sets, the layer stays without a verdict and the gate closed (R146, R147). -/
def repeatFetched (p l : Nat) : Act :=
  .ask fun s =>
    match passOf s p l with
    | none => .skip
    | some x =>
      if !x.repeating || x.fetched then .skip
      else .seq (if planOk s p x.nextRep true then
        Act.all [setPass p l (some { x with fetched := true }),
          Act.each (fun e => updTile e.1.unit fun t => t.take (fetchDescs s e.1) true) (planEntries s (planHdr s x.nextRep))]
      else
        Act.all [setPass p l (some { x with decided := false, fetched := true }), evt NUM_EVT.REPFAULT, logEv .repeatFault]) (.prim .fresh)

def execRepeatPlanFetched (p : Fin 64) (layer : BitVec 16) (s : State) : Host.Outcome State Fault Refusal :=
  .next (run (repeatFetched p layer.toNat) s)

/-- A sample enters the step's samples of its layer (R160). -/
def enterBin (p l bin : Nat) : Act :=
  Act.all [updNum fun n => { n with bins := Cells.put [] n.bins (layerKey p l) (Cells.get [] n.bins (layerKey p l) ++ [bin]) },
    incF NUM_WATCH_CNT.SAMPLES]

/-- A verdict reaches a tile: a clean one opens GATE and lets the pass's held samples in, another drops them (R145, R148, R160). -/
def verdictArrives (u : Nat) : Act :=
  .ask fun s =>
    match (getTile s u).verdicts with
    | [] => .skip
    | v :: vs =>
      let t := getTile s u
      let p := tilePart s u
      Act.all [updTile u fun t =>
          { t with
            verdicts := vs
            heldBins := t.heldBins.filter fun h => h.1 ≠ v.pass
            samples := if v.clean then t.samples.map fun x => if x.pass = some v.pass then { x with pass := none } else x
              else t.samples.filter fun x => x.pass ≠ some v.pass },
        Act.when v.clean (incF TILE_SYNC.VALUE 1 u v.gate),
        Act.when v.clean (Act.each (fun h => enterBin p h.2.1 h.2.2) (t.heldBins.filter fun h => h.1 = v.pass))]

def execVerdictDelivery (u : Fin 512) (s : State) : Host.Outcome State Fault Refusal := .next (run (verdictArrives u) s)

/-! The numerics watch (R158 to R160). -/

/-- The vector engine has no item it could issue. -/
def vxIdle (s : State) (u : Nat) : Bool :=
  match headItem s u .vx with
  | none => true
  | some d => !waitMet s u d ||
    (if 0x40 ≤ dOpcode d && dOpcode d ≤ 0x62 && (dByte d 0x10 = 8 || dByte d 0x10 = 9) then
      decide (((getTile s u).bank (dByte d 0x10 - 8)).st ≠ .full) else false)

/-- Recomputation of the oldest sample begins. -/
def watchStart (u : Nat) : Act :=
  .ask fun s =>
    let t := getTile s u
    if vxIdle s u && !t.samples.isEmpty && !t.samples.any (fun x => x.running) then
      updTile u fun t => { t with samples := match t.samples with | [] => [] | x :: xs => { x with running := true } :: xs }
    else .skip

def execWatchRecomputeStart (u : Fin 512) (s : State) : Host.Outcome State Fault Refusal := .next (run (clocked u (watchStart u)) s)

/-- The reference of element (i, j): an FP32 fused multiply-add chain in k order over the descaled operands (R159). -/
def watchRef (t : Tile) (x : Sample) (i j : Nat) : FV :=
  let r : RunItem := { desc := x.desc }
  dec32 ((List.range (mK x.desc)).foldl (fun acc k =>
    (round32 (FV.fma (dec32 acc) ((opA (fun _ => 0) t r i k).scale (-x.aexp)) ((opB (fun _ => 0) t r k j).scale (-x.bexp))).1).1) 0)

/-- The bin of one element's relative error (Table 6-6). -/
def watchBin (x ref : FV) : Nat :=
  if (x.isNan && ref.isNan) || (!x.isNan && !x.isFin && x = ref) then 0
  else if !x.isFin || !ref.isFin then 7
  else
    let diff := (FV.sum [x, ref.neg]).1.abs
    let m := FV.max ref.abs (.fin false 1 (-126))
    let below := fun (k : Int) => (m.scale k).gt diff
    if below (-20) then 0 else if below (-16) then 1 else if below (-12) then 2 else if below (-8) then 3
    else if below (-6) then 4 else if below (-4) then 5 else if below 0 then 6 else 7

/-- The bin of a sample: the largest of its active elements (R160). -/
def sampleBin (t : Tile) (x : Sample) : Nat :=
  let b : Bank := { kind := some x.int, s := x.s, e := x.e }
  ((List.range (mMrows x.desc)).flatMap fun i => (List.range (mNcols x.desc)).map fun j =>
    watchBin (b.value (32 * i + j)) (watchRef t x i j)).foldl max 0

/-- A recomputation ends: a committed item's sample enters at once, a speculative one waits for its verdict (R160). -/
def watchEnd (u : Nat) : Act :=
  .ask fun s =>
    let t := getTile s u
    match t.samples.find? (fun x => x.running) with
    | none => .skip
    | some x =>
      let bin := sampleBin t x
      Act.all [updTile u fun t =>
          { t with
            samples := t.samples.filter fun y => !y.running
            defer := false
            heldBins := match x.pass with
              | some id => t.heldBins ++ [(id, dLayer x.desc, bin)]
              | none => t.heldBins },
        Act.when x.pass.isNone (enterBin x.part (dLayer x.desc) bin)]

def execWatchRecomputeEnd (u : Fin 512) (s : State) : Host.Outcome State Fault Refusal := .next (run (clocked u (watchEnd u)) s)

/-- A recomputation is abandoned: it is counted and its deferred writes proceed (R159). -/
def watchAbandon (u : Nat) : Act :=
  .ask fun s =>
    if (getTile s u).samples.isEmpty then .skip
    else
      Act.all [updTile u fun t => { t with samples := t.samples.drop 1, defer := false }, incF NUM_WATCH_CNT.ABANDONED, evt NUM_EVT.WATCHSKIP]

def execWatchAbandon (u : Fin 512) (s : State) : Host.Outcome State Fault Refusal := .next (run (clocked u (watchAbandon u)) s)

/-- A range of the operand store that a sample still reads (R159). -/
def watchReads (x : Sample) (lo n : Nat) : Bool :=
  let ov := fun (base stride rows len : Nat) => (List.range rows).any fun i => decide (base + i * stride < lo + n) && decide (lo < base + i * stride + len)
  ov (mAoff x.desc) (mAstride x.desc) (mMrows x.desc) (rowBytes (dSfmta x.desc) (mK x.desc)) ||
  ov (mBoff x.desc) (mBstride x.desc) (mNcols x.desc) (rowBytes (dSfmtb x.desc) (mK x.desc))

/-! Step close (R137, R138, R142, R153, R161, R162). -/

/-- A set stands committed: it lies within 2^15 at or below the highest committed set (R40). -/
def isCommitted (s : State) (set : SetNo) : Bool :=
  match s.tide.committed with
  | none => false
  | some c => decide ((c - set).toNat < 2 ^ 15)

/-- The bounds of the loss scale as the package treats them (Table 6-7): MIN, MAX, BACKOFF, GROW. -/
def lsBounds (s : State) (p : Nat) : Nat × Nat × Nat × Nat :=
  let mx := min 32 (getF s NUM_LSCALE.MAX p)
  (min (getF s NUM_LSCALE.MIN p) mx, mx, max 1 (getF s NUM_LSCALE.BACKOFF p), max 1 (getF s NUM_LSCALE.GROW p))

/-- The loss-scale exponent takes a value: LSDOWN or LSUP and a record where it changed, LSBOUND where a bound changed the result (R153). -/
def setLoss (p old new : Nat) (bound : Bool) : Act :=
  Act.all [setF NUM_LSCALE.EXP new p, setF NUM_LSCALE.CLEAN 0 p, Act.when bound (evt NUM_EVT.LSBOUND),
    Act.when (decide (new < old)) (evt NUM_EVT.LSDOWN), Act.when (decide (old < new)) (evt NUM_EVT.LSUP),
    Act.when (decide (new ≠ old)) (logEv .lossScale)]

/-- The loss-scale decision at a step close (R153). -/
def lossClose (p : Nat) : Act :=
  .ask fun s =>
    let b := lsBounds s p
    let e := getF s NUM_LSCALE.EXP p
    let clean := getF s NUM_LSCALE.CLEAN p
    let en := getB s NUM_LSFLAG.EN p
    let wa := getF s NUM_LSFLAG.ADDR p * 8
    let marked := s.num.marked.contains p || (en && readNat s wa 1 % 4 ≠ 0)
    Act.all [Act.when en (pkgWrite wa (List.replicate 8 0)),
      if marked then setLoss p e (max b.1 (e - b.2.2.1)) (decide (e < b.1 + b.2.2.1))
      else if clean + 1 = b.2.2.2 then setLoss p e (min b.2.1 (e + 1)) (decide (b.2.1 < e + 1))
      else setF NUM_LSCALE.CLEAN (clean + 1) p]

/-- floor(log2(fmax ÷ (h × 2^margin))) exactly, clamped to -128..127 (R142). -/
def scaleExp (fmax h : FV) (margin : Nat) : Int :=
  let k := fmax.ilog - h.ilog - margin
  let k := if (h.scale (k + margin)).gt fmax then k - 1 else k
  max (-128) (min 127 k)

/-- The history length a slot's H gives. -/
def histLen (h : Nat) : Nat := if h = 0 then 16 else if h > 64 then 64 else h

/-- A scale slot at a step close (R142). -/
def slotClose (p i : Nat) : Act :=
  .ask fun s =>
    let a := slotAddr s p i
    let h := histLen (readNat s a 1)
    let margin := readNat s (a + 1) 1 % 16
    let head := readNat s (a + 2) 1 % h
    let fill := readNat s (a + 3) 1
    let amax := readNat s (a + 8) 4
    let push := (dec32 amax).gt FV.zero
    let fill' := if push then min (fill + 1) h else fill
    let entry := fun k => if push && k = head then amax else readNat s (a + 0x40 + 4 * k) 4
    let hmax := if fill' = 0 then dec32 (readNat s (a + 4) 4)
      else (List.range (fill' - 1)).foldl (fun m k => FV.max m (dec32 (entry (k + 1)))) (dec32 (entry 0))
    let ex := fun (f : FpFmt) => BitVec.ofNat 8 (fieldOfInt (scaleExp (f.decode f.maxBits) hmax margin) 8)
    Act.all [Act.when push (Act.all [pkgWrite (a + 0x40 + 4 * head) (natLe amax 4), pkgWrite (a + 2) (natLe ((head + 1) % h) 1),
        pkgWrite (a + 3) (natLe fill' 1), pkgWrite (a + 8) (natLe 0 4)]),
      Act.when (hmax.isFin && hmax.gt FV.zero) (pkgWrite (a + 0x0C) [ex fpE2M1, ex fpE4M3, ex fpE5M2])]

/-- The watches of a layer at a step close: HIST and WDIS from the step's samples (R160, R161). -/
def watchClose (p l : Nat) (bins : List Nat) : Act :=
  .ask fun s =>
    let a := (layerEnt s p l).addr
    let thr := max 1 (getF s NUM_WATCH_RATE.THRBIN)
    let sustain := max 1 (getF s NUM_WATCH_RATE.SUSTAIN)
    let w := if bins.any (fun b => thr ≤ b) then satAdd 8 (readNat s (a + 0x1E) 1) 1 else 0
    Act.all [Act.each (fun k => pkgWrite (a + 0x20 + 4 * k) (natLe (satAdd 32 (readNat s (a + 0x20 + 4 * k) 4) (bins.filter fun b => b = k).length) 4)) (List.range 8),
      pkgWrite (a + 0x1E) (natLe w 1),
      Act.when (decide (w = sustain) && decide (readNat s (a + 0x1E) 1 < sustain)) (Act.all [evt NUM_EVT.WATCH, .ask fun s => logEv .watchDisagree (data := l :: (List.range 8).map fun k => readNat s (a + 0x20 + 4 * k) 4)])]

/-- The zero-gradient watch of a layer at a step close (R162). -/
def gradClose (p l : Nat) (nonzero : Bool) : Act :=
  .ask fun s =>
    let a := (layerEnt s p l).addr
    let old := readNat s (a + 0x1C) 2
    let z := if nonzero then 0 else satAdd 16 old 1
    let lim := getF s NUM_ZG_LIMIT.LIMIT
    Act.all [pkgWrite (a + 0x1C) (natLe z 2),
      Act.when (decide (lim ≠ 0) && decide (z = lim) && decide (old < lim)) (Act.all [evt NUM_EVT.ZEROGRAD, logEv .zeroGradient])]

/-- The numerics duties of a step close of a partition, in the order of Table 6-2 (R138). -/
def stepCloseNum (p : Nat) : Act :=
  Act.all [lossClose p,
    .ask fun s => Act.each (fun i => slotClose p i) (List.range (scaleSlots s p)),
    .ask fun s => Act.each (fun e => gradClose p (e.1 % 65536) e.2.2) (s.num.grads.filter fun e => e.1 / 65536 = p && e.2.1),
    .ask fun s => Act.each (fun e => watchClose p (e.1 % 65536) e.2) (s.num.bins.filter fun e => e.1 / 65536 = p),
    .ask fun s =>
      let rows := getF s NUM_DROP.ROWS p
      Act.all [zeroMem (getF s NUM_DROP.ADDR p * 64 + getF s NUM_STEP.STEP p % 2 * (8 * rows)) (8 * rows),
        setF NUM_STEP.STEP (getF s NUM_STEP.STEP p + 1) p,
        setF NUM_STEP.CLOSESET (getF s NUM_STEP.CLOSESET p + getF s NUM_STEP.PER p) p],
    updNum fun n => { n with marked := n.marked.filter fun q => q ≠ p, bins := n.bins.filter fun e => e.1 / 65536 ≠ p,
                             grads := n.grads.filter fun e => e.1 / 65536 ≠ p }]

/-- The step of a partition closes at this boundary: PER is not 0 and CLOSESET stands committed (R137). -/
def stepCloses (s : State) (p : Nat) : Bool :=
  decide (getF s NUM_STEP.PER p ≠ 0) && isCommitted s (BitVec.ofNat 16 (getF s NUM_STEP.CLOSESET p))

end Sys2Proof.Machine
end

