-- ==== Sys2Proof/Machine/Bells.lean ====
section
/-! DEFINITION. Bells, commands and completions, and the IOMMU (R286 to R304). -/

namespace Sys2Proof.Machine

/-! Queues and entries (R286 to R288). -/

/-- A queue. -/
def bellQ (s : State) (q : Nat) : BellQ := Cells.get {} s.bell q

/-- The update of a queue. -/
def updBell (q : Nat) (f : BellQ → BellQ) : Act := .prim (.bell fun m => Cells.put {} m q (f (Cells.get {} m q)))

/-- Entries of the command ring and records of the completion ring. -/
def ringEntries (s : State) (q : Nat) : Nat := 2 ^ getF s BELL_CFG.SIZE q
def cqRecords (s : State) (q : Nat) : Nat := 2 ^ getF s BELL_CFG.CQSIZE q

/-- Fields of an entry (Table 13-1). -/
def eSeq (e : List Byte) : Nat := fieldAt e 0 4
def eOpcode (e : List Byte) : Nat := fieldAt e 4 1
def eFlags (e : List Byte) : Nat := fieldAt e 5 1
def eFence (e : List Byte) : Bool := bitOf (eFlags e) 0
def eNocq (e : List Byte) : Bool := bitOf (eFlags e) 1
def ePrefill (e : List Byte) : Bool := bitOf (eFlags e) 2
def eIrq (e : List Byte) : Bool := bitOf (eFlags e) 3
def eInlen (e : List Byte) : Nat := fieldAt e 6 1
def ePart (e : List Byte) : Nat := fieldAt e 7 1
def eTag (e : List Byte) : Nat := fieldAt e 8 8
def eSrc (e : List Byte) : Nat := fieldAt e 0x10 8
def eDst (e : List Byte) : Nat := fieldAt e 0x18 8
def eLen (e : List Byte) : Nat := fieldAt e 0x20 8
def ePattern (e : List Byte) : List Byte := slice e 0x28 8
def eSet (e : List Byte) : SetNo := BitVec.ofNat 16 (fieldAt e 0x30 2)
def ePmode (e : List Byte) : Nat := fieldAt e 0x32 1
def ePayload (e : List Byte) : List Byte := (slice e 0x40 188 ++ slice e 0x3C 4).take (eInlen e)

/-- The range a PUT may write: within one 4 KiB page of warehouse, quay, neighbour window or PCIe outbound (Table 13-2). -/
def putRangeOk (a n : Nat) : Bool :=
  a / 4096 = (a + n - 1) / 4096 && (isWarehouse a || isQuay a || isNeighbour a || isPcie a)

/-- A malformed entry (Table 13-4, code 0x02). -/
def malformed (e : List Byte) : Bool :=
  let o := eOpcode e
  decide (3 < o) || decide (16 ≤ eFlags e) || decide (fieldAt e 0x33 9 ≠ 0) ||
  (o = 1 && (eInlen e = 0 || decide (192 < eInlen e) || !putRangeOk (eDst e) (eInlen e))) ||
  (o = 2 && (eLen e = 0 || decide (2 ^ 32 < eLen e))) ||
  (o = 3 && (decide (63 < ePart e) || decide (eSrc e % 64 ≠ 0) || decide (2 ^ 48 ≤ eSrc e) || decide (1 < ePmode e)))

/-- The completion ring has no room for a record (R296). -/
def cqFull (s : State) (q : Nat) : Bool := ((bellQ s q).cqTail + 1) % cqRecords s q = getF s BELL_CQHEAD.HEAD q

/-- CQFULL follows the completion ring. -/
def cqStat (q : Nat) : Act := .ask fun s => setF BELL_STAT.CQFULL (b2n (cqFull s q)) q

/-! The coherent DMA (R213, R252, R271, R286). -/

/-- The home keeps a request of the coherent DMA: on a marked line that is held, or while the domain collapses. -/
def cdmaHeld (s : State) (l : List Piece) : Bool := homesStop s || anyHeld s l

/-! The bell (R290, R291). -/

/-- A write of BELL_RING. -/
def bellRing (q tail : Nat) : Act :=
  .ask fun s =>
    if !getB s BELL_STAT.EN q then .skip
    else if ringEntries s q ≤ tail then incF BELL_CNT.BADTAIL 1 q
    else Act.all [setF BELL_STAT.TAIL tail q, setF BELL_STAT.WAITSEQ 0 q]

def execBellRing (q : Fin 256) (tail : BitVec 16) (s : State) : Host.Outcome State Fault Refusal := .next (run (bellRing q.val tail.toNat) s)

/-- The address of the entry at HEAD, and its bytes. -/
def headAddr (s : State) (q : Nat) : Nat := getF s BELL_RINGADDR.ADDR q * 256 + 256 * getF s BELL_STAT.HEAD q
def headEntry (s : State) (q : Nat) : List Byte := readMem s (headAddr s q) 256

/-- The queue reads the entry at HEAD: it lies before TAIL, or is being re-read, whatever TAIL has become (R291, Table 13-6). -/
def entryDue (s : State) (q : Nat) : Bool :=
  getB s BELL_STAT.EN q && !getB s BELL_STAT.WAITSEQ q && (decide (getF s BELL_STAT.HEAD q ≠ getF s BELL_STAT.TAIL q) || (bellQ s q).reading.isSome)

/-- An entry that does not match is re-read; the first time counts. -/
def entryMiss (q : Nat) : Act :=
  .ask fun s => Act.when (bellQ s q).reading.isNone (Act.all [incF BELL_CNT.REREAD 1 q, updBell q fun x => { x with reading := some s.now }])

/-- An entry read returns: the entry is accepted, or re-read. A read of a poisoned line faults and returns no entry; a held one has not returned (R213, R252). -/
def entryCheck (q : Nat) : Act :=
  .ask fun s =>
    let e := headEntry s q
    let n := (bellQ s q).nextSeq
    let l := piecesOf (headAddr s q) 256 false false
    if !entryDue s q || cdmaHeld s l then .skip
    else
      match firstFault s l with
      | some x => Act.all [accessFault .copyDma (BitVec.ofNat 48 x), entryMiss q]
      | none =>
        if eSeq e = n && fieldAt e 0xFC 4 = n then
          Act.all [setF BELL_STAT.HEAD ((getF s BELL_STAT.HEAD q + 1) % ringEntries s q) q,
            updBell q fun x => { x with nextSeq := (n + 1) % 2 ^ 32, reading := none, cmds := x.cmds ++ [{ entry := e, index := getF s BELL_STAT.HEAD q }] }]
        else entryMiss q

def execEntryCheck (q : Fin 256) (s : State) : Host.Outcome State Fault Refusal := .next (run (entryCheck q.val) s)

/-- Two microseconds of re-reads pass without a match. -/
def rereadTimeout (q : Nat) : Act :=
  .ask fun s =>
    match (bellQ s q).reading with
    | some _ => Act.all [updBell q fun x => { x with reading := none }, incF BELL_CNT.RUNPAST 1 q, setF BELL_STAT.WAITSEQ 1 q]
    | none => .skip

def execRereadTimeout (q : Fin 256) (s : State) : Host.Outcome State Fault Refusal := .next (run (rereadTimeout q.val) s)

/-- A ring of `n` bytes lies in the warehouse. -/
def inWarehouse (a n : Nat) : Bool := a + n ≤ 2 ^ 40

/-- A write of EN = 1 (R286, R288). -/
def bellEnable (q : Nat) : Act :=
  .ask fun s =>
    if inWarehouse (getF s BELL_RINGADDR.ADDR q * 256) (256 * ringEntries s q) && inWarehouse (getF s BELL_CQADDR.ADDR q * 256) (32 * cqRecords s q) then
      Act.all [setF BELL_CFG.EN 1 q, setF BELL_STAT.EN 1 q, setF BELL_STAT.HEAD 0 q, setF BELL_STAT.TAIL 0 q, setF BELL_STAT.WAITSEQ 0 q,
        updBell q fun x => { x with nextSeq := 1, reading := none, cqTail := 0, phase := true }, cqStat q]
    else Act.all [setF BELL_ERR.CODE 0x07 q, setF BELL_CFG.EN 0 q, setF BELL_STAT.EN 0 q]

def execBellEnable (q : Fin 256) (s : State) : Host.Outcome State Fault Refusal := .next (run (bellEnable q.val) s)

/-! Completion (R294 to R299). -/

/-- A command completes with a status. -/
def BellQ.finish (x : BellQ) (c : BCmd) (status result detail : Nat) : BellQ :=
  { x with cmds := x.cmds.erase c, done := x.done ++ [{ entry := c.entry, index := c.index, status := status, result := result, detail := detail }] }

/-- A command of a queue completes. -/
def cmdEnds (q : Nat) (c : BCmd) (status result detail : Nat) : Act := updBell q fun x => x.finish c status result detail

/-- A write of EN = 0: commands that have not started end with status 0x05 (R304). -/
def bellDisable (q : Nat) : Act :=
  Act.all [setF BELL_CFG.EN 0 q, setF BELL_STAT.EN 0 q, setF BELL_STAT.WAITSEQ 0 q,
    updBell q fun x => (x.cmds.filter fun c => c.st = .accepted).foldl (fun y c => y.finish c 0x05 0 0) { x with reading := none }]

def execBellDisable (q : Fin 256) (s : State) : Host.Outcome State Fault Refusal := .next (run (bellDisable q.val) s)

/-- The completion record (Table 13-3). -/
def recordBytes (x : BellQ) (d : BDone) : List Byte :=
  natLe (eTag d.entry) 8 ++ natLe (eSeq d.entry) 4 ++ natLe d.status 1 ++ natLe (b2n x.phase) 1 ++ natLe d.index 2 ++ natLe d.result 8 ++ natLe d.detail 8

/-- A status other than 0x00 is posted. -/
def errPosted (q : Nat) (d : BDone) : Act :=
  Act.when (d.status ≠ 0) (Act.all [setF BELL_ERR.SEQ (eSeq d.entry) q, setF BELL_ERR.CODE d.status q, setBitF BELL_QERR.QUEUE (q % 64) true 0 (q / 64)])

/-- The interrupt write of a command (R298). -/
def irqWrite (q : Nat) (d : BDone) : Act :=
  Act.when (eIrq d.entry) (.ask fun s =>
    memAccess .copyDma (BitVec.ofNat 48 (getF s BELL_IRQADDR.ADDR q * 4)) (.write (natLe (getF s BELL_IRQDATA.DATA q) 4) false 0 0) true)

/-- A completed command has a write to an object page in another berth that has not reached its home (R299). -/
def recordWaits (x : BellQ) (d : BDone) : Bool := x.far.any fun w => w.object && decide (w.seq = eSeq d.entry)

/-- The next command whose record is due: the oldest completed one whose writes have reached their homes. -/
def nextRecord (x : BellQ) : Option BDone := x.done.find? fun d => !recordWaits x d

/-- A record is written with one write of the coherent DMA, which a poisoned line discards and faults (R252, R295). -/
def recordWrite (a : Nat) (bs : List Byte) : Act :=
  .ask fun s => match firstFault s (piecesOf a bs.length true false) with
    | some x => accessFault .copyDma (BitVec.ofNat 48 x)
    | none => pkgWrite a bs

/-- The record of a command is posted, where it posts one, the ring has room and the home takes it (R213, R296, R297). -/
def postDone (q : Nat) (d : BDone) : Act :=
  .ask fun s =>
    let x := bellQ s q
    let n := cqRecords s q
    let a := getF s BELL_CQADDR.ADDR q * 256 + 32 * x.cqTail
    if eNocq d.entry && d.status = 0 then Act.all [updBell q fun y => { y with done := y.done.erase d }, irqWrite q d]
    else if cqFull s q then cqStat q
    else if cdmaHeld s (piecesOf a 32 true false) then .skip
    else
      Act.all [recordWrite a (recordBytes x d),
        updBell q fun y =>
          { y with done := y.done.erase d, cqTail := (x.cqTail + 1) % n, phase := if x.cqTail + 1 = n then !x.phase else x.phase,
                   visSeq := eSeq d.entry, far := y.far.map fun w => if w.seq = eSeq d.entry then { w with posted := true } else w },
        errPosted q d, cqStat q, irqWrite q d]

/-- The next record that is due is posted. -/
def postRecord (q : Nat) : Act := .ask fun s => match nextRecord (bellQ s q) with | some d => postDone q d | none => .skip

def execCommandComplete (q : Fin 256) (s : State) : Host.Outcome State Fault Refusal := .next (run (postRecord q.val) s)

/-- Held records are posted while the ring has room. -/
def postHeld (q : Nat) : Nat → Act
  | 0 => .skip
  | n + 1 => .ask fun s => if (nextRecord (bellQ s q)).isNone || cqFull s q then .skip else .seq (postRecord q) (postHeld q n)

/-- A write of BELL_CQHEAD: held records and starts resume (R296). -/
def cqHeadWrite (q head : Nat) : Act :=
  .ask fun s =>
    let held := cqFull s q
    Act.all [setF BELL_CQHEAD.HEAD head q, cqStat q, Act.when held (postHeld q (bellQ s q).done.length)]

def execBellCqheadWrite (q : Fin 256) (head : BitVec 16) (s : State) : Host.Outcome State Fault Refusal := .next (run (cqHeadWrite q.val head.toNat) s)

/-! Execution (R292 to R294, R301). -/

/-- The next command of a queue that may start: the first that has not started, while the completion ring has room and its fence is met. -/
def nextReady (s : State) (q : Nat) : Option BCmd :=
  let x := bellQ s q
  match x.cmds.find? fun c => c.st = .accepted with
  | some c => if cqFull s q || (eFence c.entry && !(x.done.isEmpty && x.cmds.head? = some c)) then none else some c
  | none => none

/-- PRIO of a queue as a weight. -/
def queueWeight (s : State) (q : Nat) : Nat := max 1 (getF s BELL_CFG.PRIO q)

/-- A queue that has used up its weight waits while another with a command to start has not (R292). -/
def queueTurn (s : State) (q : Nat) : Bool :=
  decide ((bellQ s q).served < queueWeight s q) || s.bell.all fun e => decide (e.1 = q) || (nextReady s e.1).isNone || decide (queueWeight s e.1 ≤ e.2.served)

/-- The next command to start, where it is the queue's turn. -/
def nextStart (s : State) (q : Nat) : Option BCmd := if queueTurn s q then nextReady s q else none

/-- A start counts against the queue's weight; a queue that had used it up begins a new round. -/
def countStart (q : Nat) : Act :=
  .ask fun s => .seq (Act.when (decide (queueWeight s q ≤ (bellQ s q).served)) (.prim (.bell fun m => (m.map fun e => (e.1, { e.2 with served := 0 })).filter fun e => e.2 ≠ {})))
    (updBell q fun x => { x with served := x.served + 1 })

/-- A command starts under the row of its opcode; an entry with a reserved opcode is taken under NOP. A malformed one ends with status 0x02. -/
def cmdStart (q op : Nat) (f : BCmd → Act) : Act :=
  .ask fun s =>
    match nextStart s q with
    | some c =>
      if eOpcode c.entry = op || (op = 0 && 3 < eOpcode c.entry) then .seq (countStart q) (if malformed c.entry then cmdEnds q c 0x02 0 0 else f c) else .skip
    | none => .skip

def cmdNop (q : Nat) : Act := cmdStart q 0 fun c => cmdEnds q c 0 0 0
def execCmdNop (q : Fin 256) (s : State) : Host.Outcome State Fault Refusal := .next (run (cmdNop q.val) s)

/-- The writer of a command's bytes. -/
def cmdWriter (q : Nat) (e : List Byte) : Writer := { queue := some (q, eSeq e) }

/-- A range is written from its first byte up to the first access that faults. -/
def writeUpTo (w : Writer) (a : Nat) (bs : List Byte) (fault : Option Nat) : Act :=
  mapWrite w true a (match fault with | some f => bs.take (f - a) | none => bs)

/-- The pieces a PUT writes. -/
def putPieces (c : BCmd) : List Piece := piecesOf (eDst c.entry) (ePayload c.entry).length true false

/-- PUT. -/
def putRun (q : Nat) (c : BCmd) : Act :=
  .ask fun s =>
    let a := eDst c.entry
    let bs := ePayload c.entry
    let f := firstFault s (putPieces c)
    Act.all [writeUpTo (cmdWriter q c.entry) a bs f,
      match f with
      | none => cmdEnds q c 0 bs.length 0
      | some x => Act.all [accessFault .copyDma (BitVec.ofNat 48 x), cmdEnds q c 0x03 (x - a) x]]

/-- The home holds the write of the PUT that is to start (R213). -/
def putHeld (s : State) (q : Nat) : Bool :=
  match nextStart s q with
  | some c => decide (eOpcode c.entry = 1) && !malformed c.entry && cdmaHeld s (putPieces c)
  | none => false

def cmdPut (q : Nat) : Act := .given (fun s => !putHeld s q) (cmdStart q 1 (putRun q))
def execCmdPut (q : Fin 256) (s : State) : Host.Outcome State Fault Refusal := .next (run (cmdPut q.val) s)

/-- PATTERN repeated over a length. -/
def patternBytes (e : List Byte) (n : Nat) : List Byte := (List.range n).map fun k => (ePattern e).getD (k % 8) 0

/-- What the reads of a COPY are fetched for. -/
def copyFor (q : Nat) (e : List Byte) : FetchFor := .cmd q (eSeq e)

/-- The bytes of a COPY before the first access that stops, and how it stops. -/
def copyStop (s : State) (q : Nat) (e : List Byte) : Nat × Option Nat × Option StallAt :=
  let src := okPrefix s (copyFor q e) (eSrc e) (eLen e) false
  let dst := okPieces s (copyFor q e) (piecesOf (eDst e) (eLen e) true true) (eDst e) (eLen e)
  if src.1 ≤ dst.1 then src else dst

/-- The state a command stands in changes. -/
def cmdState (q : Nat) (c : BCmd) (st : CmdSt) : Act := updBell q fun x => { x with cmds := x.cmds.map fun y => if y = c then { c with st := st } else y }

/-- A COPY whose source lies on a marked line that holds its readers waits: its bytes would become visible by its writes and by its record before their horizon (R210, R215, log 57). -/
def copyHeld (s : State) (e : List Byte) : Bool := anyHeld s (piecesOf (eSrc e) (eLen e) false false)

/-- PREFILL's pattern has reached its homes (R301). -/
def fillHome (s : State) (q : Nat) (e : List Byte) : Bool := !(ePrefill e && (bellQ s q).far.any fun w => decide (w.seq = eSeq e) && w.berth.isSome)

/-- A COPY in progress has nothing to wait for but what its accesses meet. -/
def copyFree (s : State) (q : Nat) (c : BCmd) : Bool :=
  decide (c.st = .copying) && !copyHeld s c.entry && fillHome s q c.entry && !fetchDue s (copyFor q c.entry)

/-- A COPY whose reads of other berths are answered moves its bytes: whole, up to a fault, or not yet where it stalls (R293). -/
def copyBytes (q : Nat) (c : BCmd) : Act :=
  .ask fun s =>
    let e := c.entry
    match copyStop s q e with
    | (_, _, some st) => unitStall (copyKey q (eSeq e)) st
    | (m, f, none) => withFree fun pick => .ask fun s =>
      Act.all [unitGoes (copyKey q (eSeq e)), mapWrite (cmdWriter q e) true (eDst e) (mapRead (fetchPick s (copyFor q e) pick) s (eSrc e) m),
        piecesDone ((piecesOf (eSrc e) m false false).filter fun p => !isFar s p), fetchDrop fun w => decide (w = copyFor q e),
        match f with
        | none => cmdEnds q c 0 m 0
        | some x => Act.all [accessFault .copyDma (BitVec.ofNat 48 x), cmdEnds q c 0x03 m x]]

/-- A COPY in progress goes on. -/
def copyMove (q : Nat) (c : BCmd) : Act :=
  .given (fun s => copyFree s q c) (fetched (copyFor q c.entry) (fun _ => piecesOf (eSrc c.entry) (eLen c.entry) false false) (copyBytes q c))

/-- PREFILL is written, up to a fault, or stalls (R301). -/
def copyFill (q : Nat) (c : BCmd) : Act :=
  .ask fun s =>
    let e := c.entry
    let dst := piecesOf (eDst e) (eLen e) true true
    match firstStall s dst, firstFault s dst with
    | some st, _ => unitStall (copyKey q (eSeq e)) st
    | none, some x =>
      Act.all [unitGoes (copyKey q (eSeq e)), writeUpTo (cmdWriter q e) (eDst e) (patternBytes e (eLen e)) (some x), accessFault .copyDma (BitVec.ofNat 48 x), cmdEnds q c 0x03 0 x]
    | none, none =>
      Act.all [unitGoes (copyKey q (eSeq e)), mapWrite (cmdWriter q e) true (eDst e) (patternBytes e (eLen e)), cmdState q c .copying, copyMove q { c with st := .copying }]

/-- A COPY starts: PREFILL, then the move. -/
def copyStart (q : Nat) (c : BCmd) : Act :=
  let st : CmdSt := if ePrefill c.entry then .filling else .copying
  .seq (cmdState q c st) (if ePrefill c.entry then copyFill q { c with st := st } else copyMove q { c with st := st })

/-- The stall that a COPY in progress meets now, for its PREFILL or its move. -/
def copyStall (s : State) (q : Nat) (c : BCmd) : Option StallAt :=
  if c.st = .filling then firstStall s (piecesOf (eDst c.entry) (eLen c.entry) true true) else (copyStop s q c.entry).2.2

/-- A COPY in progress has something to do: it can go on, or meets another stall than the one that is counted (R242, R293). -/
def copyReady (s : State) (q : Nat) (c : BCmd) : Bool :=
  (decide (c.st = .filling) || copyFree s q c) &&
  (match copyStall s q c with
  | some st => decide ((Cells.look s.tier.stalls (copyKey q (eSeq c.entry))).map (fun x => (x.cause, x.addr)) ≠ some (st.cause, st.addr))
  | none => true)

/-- The copy engines serve a queue: a COPY in progress that has something to do, else the next one to start, which needs engines that take work (R58). -/
def cmdCopy (q : Nat) : Act :=
  .ask fun s =>
    match (bellQ s q).cmds.find? (copyReady s q) with
    | some c => if c.st = .filling then copyFill q c else copyMove q c
    | none => Act.when (copiesTake s) (cmdStart q 2 (copyStart q))
def execCmdCopy (q : Fin 256) (s : State) : Host.Outcome State Fault Refusal := .next (run (cmdCopy q.val) s)

/-- TIDE_PLAN takes a value: ADDR and VALID; a rejected partition may take a plan again (R28, R29). -/
def planSlot (p addr : Nat) (valid : Bool) : Act :=
  Act.all [setF TIDE_PLAN.ADDR (addr / 64) p, setF TIDE_PLAN.VALID (b2n valid) p, Act.when valid (updPart p fun x => { x with rejected := false, rewritten := x.sampled.isSome })]

/-- A PLAN command has written TIDE_PLAN of a partition, and it has not been taken. -/
def planPending (s : State) (p : Nat) : Bool :=
  getB s TIDE_PLAN.VALID p && s.bell.any fun e => e.2.cmds.any fun c => decide (c.st = .planned) && decide (ePart c.entry = p) && decide (eSrc c.entry / 64 = getF s TIDE_PLAN.ADDR p)

/-- Software writes TIDE_PLAN. Behind a PLAN command's write the value waits for the take: whichever write landed first is taken first (Table 13-6). -/
def tidePlanSet (p addr : Nat) (valid : Bool) : Act :=
  .ask fun s => if planPending s p then updPart p fun x => { x with behind := some (BitVec.ofNat 48 addr, valid) } else planSlot p addr valid
def tidePlanWrite (p addr : Nat) : Act := tidePlanSet p addr true

/-- The plan that TIDE_PLAN named was taken or rejected: VALID clears, and a write that waited lands. -/
def planSlotFree (p : Nat) : Act :=
  .ask fun s => .seq (setF TIDE_PLAN.VALID 0 p) (match (partSt s p).behind with
    | some (a, v) => .seq (updPart p fun x => { x with behind := none }) (planSlot p a.toNat v)
    | none => .skip)

/-- A PLAN writes TIDE_PLAN once VALID reads 0. -/
def planDeliver (q : Nat) (c : BCmd) : Act :=
  .ask fun s =>
    if getB s TIDE_PLAN.VALID (ePart c.entry) then cmdState q c .planWait
    else Act.all [planSlot (ePart c.entry) (eSrc c.entry) true, cmdState q c .planned]

def cmdPlan (q : Nat) : Act := cmdStart q 3 (planDeliver q)
def execCmdPlan (q : Fin 256) (s : State) : Host.Outcome State Fault Refusal := .next (run (cmdPlan q.val) s)

/-- The oldest PLAN that waits for VALID = 0. -/
def cmdPlanDeliver (q : Nat) : Act :=
  .ask fun s => match (bellQ s q).cmds.find? fun c => c.st = .planWait && !getB s TIDE_PLAN.VALID (ePart c.entry) with
    | some c => planDeliver q c
    | none => .skip
def execCmdPlanDeliver (q : Fin 256) (s : State) : Host.Outcome State Fault Refusal := .next (run (cmdPlanDeliver q.val) s)

/-- Commands that satisfy a condition end with a status, and with this tide's count where `count`. -/
def plansEnd (c : BCmd → Bool) (status : Nat) (count : Bool) : Act :=
  .ask fun s =>
    let r := if count then getF s TIDE_COUNT.COUNT else 0
    .prim (.bell fun m => m.map fun e => (e.1, (e.2.cmds.filter c).foldl (fun y x => y.finish x status r 0) e.2))

/-- A command is the PLAN that wrote TIDE_PLAN of a partition with an address, and waits for its take. -/
def isPlanned (p addr : Nat) (c : BCmd) : Bool := decide (c.st = .planned) && decide (ePart c.entry = p) && decide (eSrc c.entry = addr)

/-- A set stands committed and no flip of it waits (R202, R215). -/
def setSettled (s : State) (set : SetNo) : Bool := isCommitted s set && !(getB s UPD_PSET.VALID && decide (getF s UPD_PSET.SET = set.toNat) && !s.upd.delayed.isEmpty)

/-- PMODE 1 commands whose plan was taken and whose set is done end (R215, R294). -/
def setCommitted : Act := .ask fun s => plansEnd (fun c => decide (c.st = .taken) && setSettled s (eSet c.entry)) 0 true

/-- A partition took the plan that TIDE_PLAN named: PMODE 0 ends, PMODE 1 waits for its set (R294). -/
def planTaken (p addr : Nat) : Act :=
  Act.all [plansEnd (fun c => isPlanned p addr c && decide (ePmode c.entry = 0)) 0 true,
    .prim (.bell fun m => m.map fun e => (e.1, { e.2 with cmds := e.2.cmds.map fun c => if isPlanned p addr c then { c with st := .taken } else c })), setCommitted]

/-- A partition rejected the plan that TIDE_PLAN named (R294). -/
def planRejected (p addr : Nat) : Act := plansEnd (isPlanned p addr) 0x04 false

/-- A started PMODE 1 command names a set. -/
def planOfSet (set : SetNo) (c : BCmd) : Bool :=
  (decide (c.st = .planWait) || decide (c.st = .planned) || decide (c.st = .taken)) && decide (ePmode c.entry = 1) && decide (eSet c.entry = set)

/-- A pending set is discarded: its PMODE 1 commands, and the COPY commands that wait for bytes of it, end with status 0x01 (R215, R294). -/
def setDiscarded (set : SetNo) : Act :=
  .ask fun s =>
    let waits := fun (c : BCmd) => decide (c.st = .copying) && (piecesOf (eSrc c.entry) (eLen c.entry) false false).any fun p =>
      match route s p with | .mem a _ => decide ((markOf s a).1 = 2) | _ => false
    plansEnd (fun c => planOfSet set c || waits c) 0x01 false

/-- Each byte is one of several, and which is open. -/
def mixOf (pick : Nat → Nat) (l : List (List Byte)) (n : Nat) : List Byte :=
  (List.range n).map fun k => (l.getD (pick (2 ^ 50 + k) % max 1 l.length) []).getD k 0

/-- A compute-part reset ends running COPY commands with status 0x06: the bytes before the first access that stops hold any mixture of the pattern, the result and what was there, and how many were moved is open (R304). -/
def copiesEnd : Act :=
  .ask fun s => Act.each (fun (e : Nat × BellQ) => Act.each (fun (c : BCmd) => withFree fun pick => .ask fun s =>
    let d := c.entry
    let m := (copyStop s e.1 d).1
    let l := (if ePrefill d then [patternBytes d m] else []) ++ [mapRead (fetchPick s (copyFor e.1 d) pick) s (eSrc d) m, mapRead pick s (eDst d) m]
    Act.all [unitGoes (copyKey e.1 (eSeq d)), mapWrite (cmdWriter e.1 d) true (eDst d) (mixOf pick l m), cmdEnds e.1 c 0x06 (pick (2 ^ 51) % (m + 1)) 0])
    (e.2.cmds.filter fun c => c.st = .filling || c.st = .copying)) s.bell

/-- The front end resets with the host domain: every queue reads EN = 0, and running commands end without a record (R304). -/
def bellReset : Act :=
  .seq (Act.each (fun q => Act.all [setF BELL_CFG.EN 0 q, resetReg .BELL_STAT q 0]) (List.range 256))
    (.seq (.prim (.bell fun _ => [])) (fetchDrop fun w => match w with | .cmd _ _ => true | _ => false))

/-! BELL_VIS (R300). -/

/-- The writes of a queue whose record was posted and that have not been delivered. -/
def BellQ.unseen (x : BellQ) : List FarWrite := x.far.filter fun w => w.posted

/-- A read of BELL_VIS is held until the queue's writes on non-coherent paths are delivered; zero-length reads set out to flush the root ports they used. -/
def visRead (who : Agent) (q a n : Nat) : Act :=
  .ask fun s =>
    let x := bellQ s q
    Act.all [Act.each (fun (w : FarWrite) => send (.pcieRead (BitVec.ofNat 48 w.addr) 0)) (x.unseen.filter fun w => w.berth.isNone),
      updBell q fun x => { x with vis := x.vis ++ [{ who := who, addr := BitVec.ofNat 48 a, n := n, seq := x.visSeq, waits := x.unseen.map fun w => w.id }] }]

/-- A held read may return: every WRITE it waits for is acknowledged or counted lost. -/
def visDone (x : BellQ) (v : VisRead) : Bool := !x.far.any fun w => w.berth.isSome && v.waits.contains w.id

/-- The oldest held read returns once every write it waits for is delivered; the command says that its flushes have ended. -/
def visReply (q : Nat) : Act :=
  .ask fun s =>
    match (bellQ s q).vis with
    | v :: vs =>
      if visDone (bellQ s q) v then
        Act.all [setF BELL_VIS.SEQ v.seq q, updBell q fun x => { x with vis := vs, far := x.far.filter fun w => w.berth.isSome || !v.waits.contains w.id },
          respond v.who v.addr (slice (natLe v.seq 8) (v.addr.toNat % 8) v.n)]
      else .skip
    | [] => .skip
def execBellVisReply (q : Fin 256) (s : State) : Host.Outcome State Fault Refusal := .next (run (visReply q.val) s)

/-- A WRITE of a queue has been delivered or lost. -/
def farDone (q id : Nat) : Act := updBell q fun x => { x with far := x.far.filter fun w => w.id ≠ id }

/-- Every write to a dark berth is counted lost and logged (R304, R356). -/
def bellLost (b : Nat) : Act :=
  .ask fun s => Act.each (fun (e : Nat × BellQ) => Act.each (fun (w : FarWrite) => .seq (farDone e.1 w.id) (logEv .farLost)) (e.2.far.filter fun w => w.berth = some b)) s.bell

/-! QERR (R5). -/

/-- A read of BELL_QERR returns its value and clears it; an event of the same cycle stays for the next read. -/
def qerrRead (who : Agent) (k : Nat) (coincident : W64) : Act :=
  .ask fun s =>
    Act.all [respond who (BitVec.ofNat 48 (0xF00000100F28 + 8 * k)) (w64Bytes (getReg s .BELL_QERR 0 k)), .prim (.reg .BELL_QERR 0 k coincident)]

/-! Lighters and the IOMMU (R302, R303). -/

/-- The whole request lies inside one lighter that admits the port. -/
def iommuAdmits (s : State) (n a len : Nat) : Bool :=
  (theChart s).lighters.any fun l => bitOf l.2.2 n && decide (l.1 ≤ a) && decide (a + len ≤ l.1 + l.2.1)

/-- A 4-byte write inside the open interrupt window. -/
def isMsi (s : State) (a len : Nat) : Bool := getB s BELL_MSIWIN.EN && len = 4 && a / 65536 = getF s BELL_MSIWIN.ADDR && (a + 3) / 65536 = a / 65536

/-- A device write. -/
def deviceWrite (n : Fin 4) (addr : Addr) (bs : List Byte) : Act :=
  .ask fun s =>
    if isMsi s addr.toNat bs.length then send (.interruptMessage addr bs)
    else if iommuAdmits s n.val addr.toNat bs.length then memAccess (.pcie n) addr (.write bs false 0 0) true
    else Act.all [incF BELL_IOMMU.WBLOCK 1 0 n.val, logEv .iommuRefused 0xFF n.val]
def execPcieDeviceWrite (n : Fin 4) (addr : Addr) (bytes : List Byte) (s : State) : Host.Outcome State Fault Refusal :=
  .next (run (deviceWrite n addr bytes) s)

/-- A device read. -/
def deviceRead (n : Fin 4) (addr : Addr) (len : Nat) : Act :=
  .ask fun s =>
    if iommuAdmits s n.val addr.toNat len then memAccess (.pcie n) addr (.read len) true
    else Act.all [send (.unsupported n.val addr), incF BELL_IOMMU.RBLOCK 1 0 n.val, logEv .iommuRefused 0xFF n.val]
def execPcieDeviceRead (n : Fin 4) (addr : Addr) (len : Nat) (s : State) : Host.Outcome State Fault Refusal :=
  .next (run (deviceRead n addr len) s)

end Sys2Proof.Machine
end

