-- ==== Sys2Proof/Machine/Dma.lean ====
section
/-! DEFINITION. The tile DMA: COPY, the two modes of LOWER, their faults, completion and resume (R182 to R186, R188). -/

namespace Sys2Proof.Machine

/-! Fields (Tables 7-5 and 7-6). -/

/-- Space code and place of an address field (R182): a physical address in [47:0], an operand-store offset in [19:0], a buffer offset in [14:0] (log 15). -/
def addrSpace (d : Desc) (off : Nat) : Nat := dBits d (8 * off + 60) 4
def addrPlace (d : Desc) (off : Nat) : Nat :=
  match addrSpace d off with
  | 0 => dBits d (8 * off) 48
  | 1 => dBits d (8 * off) 20
  | _ => dBits d (8 * off) 15

def cRows (d : Desc) : Nat := dByte d 0x20 4
def cRowbytes (d : Desc) : Nat := dByte d 0x24 4
def cSstride (d : Desc) : Nat := dByte d 0x28 4
def cDstride (d : Desc) : Nat := dByte d 0x2C 4

def lH (d : Desc) : Nat := dByte d 0x20 2
def lW (d : Desc) : Nat := dByte d 0x22 2
def lC (d : Desc) : Nat := dByte d 0x24 2
def lC0 (d : Desc) : Nat := dByte d 0x26 2
def lCC (d : Desc) : Nat := dByte d 0x28 2
def lCount (d : Desc) : Nat := dByte d 0x2A 2
def lP0 (d : Desc) : Nat := dByte d 0x2C 4
def lR (d : Desc) : Nat := dByte d 0x30
def lS (d : Desc) : Nat := dByte d 0x31
def lSX (d : Desc) : Nat := dBits d 0x190 4
def lSY (d : Desc) : Nat := dBits d 0x194 4
def lDX (d : Desc) : Nat := dBits d 0x198 4
def lDY (d : Desc) : Nat := dBits d 0x19C 4
def lPadY (d : Desc) : Nat := dByte d 0x34
def lPadX (d : Desc) : Nat := dByte d 0x35
def lMode (d : Desc) : Nat := dBits d 0x1B0 1
def lDstride (d : Desc) : Nat := dByte d 0x38 4
def lPadval (d : Desc) : Nat := dByte d 0x3C 4

/-- Output positions along one axis; 0 where the filter does not fit (R185). -/
def outPositions (h pad dil r stride : Nat) : Nat :=
  if h + 2 * pad < dil * (r - 1) + 1 || stride = 0 then 0 else (h + 2 * pad - dil * (r - 1) - 1) / stride + 1

def lOH (d : Desc) : Nat := outPositions (lH d) (lPadY d) (lDY d) (lR d) (lSY d)
def lOW (d : Desc) : Nat := outPositions (lW d) (lPadX d) (lDX d) (lS d) (lSX d)

/-- K of a lowered row. -/
def lK (d : Desc) : Nat := lR d * lS d * lCC d

/-- The quay column of a tile as base and size (Table 1-10). -/
def quayColumn (u : Nat) : Nat × Nat := (0x010000000000 + u / 128 * 0xC0000000 + u % 128 * 0x1800000, 0x1800000)

/-! Faults (Table 7-9). -/

/-- The bytes a strided range spans. -/
def spanOf (rows stride len : Nat) : Nat := (rows - 1) * stride + len

/-- A range beyond the end of the operand store or of the buffers. -/
def beyond (space off span : Nat) : Bool := (space = 1 && off + span > 0x100000) || (space = 2 && off + span > 0x6000)

/-- Code 0x22. -/
def dma22 (d : Desc) : Bool :=
  if dOpcode d = 0x80 then
    addrSpace d 0x10 ≥ 3 || addrSpace d 0x18 ≥ 3 || addrSpace d 0x10 = 1 ||
    beyond (addrSpace d 0x10) (addrPlace d 0x10) (spanOf (cRows d) (cSstride d) (cRowbytes d)) ||
    beyond (addrSpace d 0x18) (addrPlace d 0x18) (spanOf (cRows d) (cDstride d) (cRowbytes d))
  else addrSpace d 0x10 ≠ 0 || (if lMode d = 1 then decide (dByte d 0x18 8 > (if fmtWidth (dSfmta d) = 32 then 4 else 5)) else decide (addrSpace d 0x18 ≥ 3))

/-- Code 0x23 (Tables 7-5 and 7-7). -/
def dma23 (d : Desc) : Bool :=
  if dOpcode d = 0x80 then cRows d < 1 || cRows d > 65536 || cRowbytes d < 1 || cRowbytes d > 16777216
  else
    let w := fmtWidth (dSfmta d)
    let stepBad := fun (v : Nat) => decide (v < 1) || decide (v > 8)
    !fmtOk (dSfmta d) || lR d < 1 || lR d > 32 || lS d < 1 || lS d > 32 ||
    stepBad (lSX d) || stepBad (lSY d) || stepBad (lDX d) || stepBad (lDY d) || lPadY d > 15 || lPadX d > 15 ||
    lH d < 1 || lW d < 1 || lC d < 1 || lOH d < 1 || lOW d < 1 ||
    lC0 d ≥ lC d || lCC d < 1 || (w = 4 && (lC d % 2 ≠ 0 || lC0 d % 2 ≠ 0 || lCC d % 2 ≠ 0)) ||
    (if lMode d = 0 then
      lK d > 65536 || lP0 d + lCount d > lOH d * lOW d || lDstride d % 64 ≠ 0 || lDstride d < alignUp (rowBytes (dSfmta d) (lK d)) 64 ||
      lCount d * lDstride d > 16 * 2 ^ 20 || addrPlace d 0x18 % 64 ≠ 0
     else
      lCC d > 32 || lCount d ≥ lR d || lP0 d % 65536 ≥ lOW d || lP0 d / 65536 ≥ lOH d || !isLaneFp (dSfmta d) ||
      (dSfmta d = 0x9 && dByte d 0x18 8 % 2 ≠ 0))

/-- Code 0x24. -/
def dma24 (u : Nat) (d : Desc) : Bool :=
  dOpcode d = 0x88 && lMode d = 0 &&
  (addrSpace d 0x18 ≠ 0 || addrPlace d 0x18 < (quayColumn u).1 ||
    addrPlace d 0x18 + lCount d * lDstride d > (quayColumn u).1 + (quayColumn u).2)

/-- The fault of a DMA item before it starts, 0 for none (R188). -/
def dmaFaultCode (u : Nat) (d : Desc) : Nat :=
  if dOpcode d ≠ 0x80 && dOpcode d ≠ 0x88 then 0x21
  else if dma22 d then 0x22
  else if dma23 d then 0x23
  else if dma24 u d then 0x24
  else if headerReservedBad d || (if dOpcode d = 0x80 then dByte d 0x30 16 ≠ 0 else dBits d 0x1B1 7 ≠ 0 || dByte d 0x37 ≠ 0) then 0x26
  else 0

/-! Running an item. -/

/-- What a DMA item does: rows of bytes for a space and place, in order; the address of an access that faults after them; a stall that keeps the item from starting. -/
structure DmaJob where
  space : Nat
  rows : List (Nat × List Byte)
  fault : Option Nat := none
  stall : Option StallAt := none

/-- Two strided ranges of one space meet. -/
def spansMeet (d : Desc) : Bool :=
  addrSpace d 0x10 = addrSpace d 0x18 &&
  overlap (addrPlace d 0x10, spanOf (cRows d) (cSstride d) (cRowbytes d)) (addrPlace d 0x18, spanOf (cRows d) (cDstride d) (cRowbytes d))

/-- A buffer byte as a DMA item reads it while vector items write (R166). -/
def dmaBufByte (pick : Nat → Nat) (t : Tile) (off : Nat) : Byte :=
  mixByte pick (oldUnion (t.vx.run.map fun r => r.oldBuf)) off (Cells.get 0 t.bufs off)

/-- The bytes of a COPY's row. A byte that the item's own destination covers is open: the spec gives no order of its reads and writes (log 16). -/
def copyRow (pick : Nat → Nat) (s : State) (t : Tile) (d : Desc) (a : Nat) : List Byte :=
  let bs := if addrSpace d 0x10 = 0 then mapRead pick s a (cRowbytes d) else (List.range (cRowbytes d)).map fun k => dmaBufByte pick t (a + k)
  if spansMeet d then
    bs.zipIdx.map fun e =>
      if inRange (a + e.2) (addrPlace d 0x18, spanOf (cRows d) (cDstride d) (cRowbytes d)) then BitVec.ofNat 8 (pick (2 ^ 50 + a + e.2)) else e.1
  else bs

/-- Rows one after another, up to the first access that stops. -/
def gather (next : Nat → Nat × List Byte × Option Nat × Option StallAt) : List Nat → List (Nat × List Byte) × Option Nat × Option StallAt
  | [] => ([], none, none)
  | i :: is =>
    match next i with
    | (a, bs, none, none) =>
      match gather next is with
      | (l, f, st) => ((a, bs) :: l, f, st)
    | (a, bs, f, st) => ([(a, bs)], f, st)

/-- The pieces a COPY reads, row by row. -/
def copyPieces (d : Desc) : List Piece :=
  if addrSpace d 0x10 = 0 then (List.range (cRows d)).flatMap fun i => piecesOf (addrPlace d 0x10 + i * cSstride d) (cRowbytes d) false false else []

/-- The job of a COPY (R182, R183). -/
def copyJob (pick : Nat → Nat) (s : State) (u : Nat) (d : Desc) : DmaJob :=
  let t := getTile s u
  let n := cRowbytes d
  let r := gather (fun i =>
    let sa := addrPlace d 0x10 + i * cSstride d
    let da := addrPlace d 0x18 + i * cDstride d
    let ps := if addrSpace d 0x10 = 0 then okPrefix s (.unit u) sa n false else (n, none, none)
    let pd := if addrSpace d 0x18 = 0 then okPrefix s (.unit u) da n true else (n, none, none)
    let first := if ps.1 ≤ pd.1 then ps else pd
    (da, (copyRow pick s t d sa).take first.1, first.2.1, first.2.2)) (List.range (cRows d))
  { space := addrSpace d 0x18, rows := r.1, fault := r.2.1, stall := r.2.2 }

/-- Where an element of a LOWER's source image lies: its address, its bytes, and whether it is the upper half of its byte; none in the padding (R184, R185). -/
def lowerPlace (d : Desc) (y x : Int) (c : Nat) : Option (Nat × Nat × Nat) :=
  let w := fmtWidth (dSfmta d)
  if y < 0 || (lH d : Int) ≤ y || x < 0 || (lW d : Int) ≤ x || lC d ≤ c then none
  else
    let k := (y.toNat * lW d + x.toNat) * lC d + c
    if w = 4 then some (addrPlace d 0x10 + k / 2, 1, k % 2) else some (addrPlace d 0x10 + k * (w / 8), w / 8, 0)

/-- An element of a LOWER's source image: its value, or how its access stops. -/
def lowerElem (pick : Nat → Nat) (s : State) (u : Nat) (d : Desc) (e : Int × Int × Nat) : Nat × Option Nat × Option StallAt :=
  let w := fmtWidth (dSfmta d)
  match lowerPlace d e.1 e.2.1 e.2.2 with
  | none => (lPadval d % 2 ^ w, none, none)
  | some (a, n, h) =>
    match okPrefix s (.unit u) a n false with
    | (_, none, none) => (bitsOf (leNat (mapRead pick s a n)) (4 * h) w, none, none)
    | (_, f, st) => (0, f, st)

/-- Values packed at `w` bits (R99, R165). -/
def packElems (w : Nat) : List Nat → List Byte
  | [] => []
  | [x] => natLe x ((w + 7) / 8)
  | x :: y :: l => if w = 4 then BitVec.ofNat 8 (x % 16 + y % 16 * 16) :: packElems w l else natLe x (w / 8) ++ packElems w (y :: l)

/-- A row of elements before the first whose access stops, and how it stops. -/
def lowerRow (w : Nat) (els : List (Nat × Option Nat × Option StallAt)) : List Byte × Option Nat × Option StallAt :=
  let ok := els.takeWhile fun e => e.2.1.isNone && e.2.2.isNone
  match els.find? (fun e => e.2.1.isSome || e.2.2.isSome) with
  | some e => (packElems w (ok.map fun x => x.1), e.2.1, e.2.2)
  | none => (packElems w (ok.map fun x => x.1), none, none)

/-- The elements of row `i` of a LOWER in mode 0, as y, x and channel. -/
def rowElems (d : Desc) (i : Nat) : List (Int × Int × Nat) :=
  let p := lP0 d + i
  (List.range (lR d)).flatMap fun fr => (List.range (lS d)).flatMap fun fs => (List.range (lCC d)).map fun c =>
    ((p / lOW d * lSY d : Nat) - (lPadY d : Int) + (fr * lDY d : Nat), (p % lOW d * lSX d : Nat) - (lPadX d : Int) + (fs * lDX d : Nat), lC0 d + c)

/-- The elements of line `i` of a LOWER in mode 1. -/
def lineElems (d : Desc) (i : Nat) : List (Int × Int × Nat) :=
  let y : Int := (lP0 d / 65536 * lSY d : Nat) - (lPadY d : Int) + (lCount d * lDY d : Nat)
  let x : Int := (lP0 d % 65536 * lSX d : Nat) - (lPadX d : Int) + (i : Nat)
  (List.range (lCC d)).map fun j => (y, x, lC0 d + j)

/-- The pieces a LOWER reads, in order. -/
def lowerPieces (d : Desc) : List Piece :=
  (if lMode d = 0 then (List.range (lCount d)).flatMap (rowElems d) else (List.range 64).flatMap (lineElems d)).flatMap fun e =>
    match lowerPlace d e.1 e.2.1 e.2.2 with
    | some (a, n, _) => piecesOf a n false false
    | none => []

/-- The pieces a DMA item reads from the physical map. -/
def dmaPieces (d : Desc) : List Piece := if dOpcode d = 0x80 then copyPieces d else lowerPieces d

/-- The job of a LOWER in mode 0 (R185). -/
def lowerRowsJob (pick : Nat → Nat) (s : State) (u : Nat) (d : Desc) : DmaJob :=
  let r := gather (fun i =>
    let row := lowerRow (fmtWidth (dSfmta d)) ((rowElems d i).map (lowerElem pick s u d))
    let da := addrPlace d 0x18 + i * lDstride d
    match row with
    | (bs, none, none) =>
      let pd := okPrefix s (.unit u) da (lDstride d) true
      (da, (bs ++ List.replicate (lDstride d - bs.length) 0).take pd.1, pd.2.1, pd.2.2)
    | (bs, f, st) => (da, bs, f, st)) (List.range (lCount d))
  { space := 0, rows := r.1, fault := r.2.1, stall := r.2.2 }

/-- The job of a LOWER in mode 1 (R185). -/
def lowerLineJob (pick : Nat → Nat) (s : State) (u : Nat) (d : Desc) : DmaJob :=
  let w := fmtWidth (dSfmta d)
  let r := gather (fun i =>
    let row := lowerRow w ((lineElems d i).map (lowerElem pick s u d) ++ List.replicate (32 - lCC d) (lPadval d % 2 ^ w, none, none))
    (0x1000 * dByte d 0x18 8 + i * (4 * w), row.1, row.2.1, row.2.2)) (List.range 64)
  { space := 2, rows := r.1, fault := r.2.1, stall := r.2.2 }

/-- Bytes placed in a sparse byte array. -/
def putBytes (m : FMap Byte) (rows : List (Nat × List Byte)) : FMap Byte :=
  rows.foldl (fun acc r => r.2.zipIdx.foldl (fun a e => Cells.put 0 a (r.1 + e.2) e.1) acc) m

/-- The old values of the bytes that rows overwrite. -/
def oldBytes (m : FMap Byte) (rows : List (Nat × List Byte)) : FMap Byte :=
  rows.foldl (fun acc r => (List.range r.2.length).foldl (fun a k => Cells.ins a (r.1 + k) (Cells.get 0 m (r.1 + k))) acc) []

/-- The buffers a vector item reads. -/
def readBuffers (d : Desc) : List Nat :=
  if dOpcode d = 0x70 then
    [wLine d] ++ (if dSfmta d = 0x9 then [wLine d + 1] else []) ++ (if wMode d = 0 then [wWbuf d] else []) ++ (if wInit d then [] else [wDst d])
  else if dOpcode d = 0x61 || dOpcode d = 0x62 then []
  else (if vSrca d ≤ 5 then [vSrca d] else []) ++ (if readsB (dOpcode d) && vBmode d ≠ 3 then [vSrcb d] else []) ++
    (if readsC (dOpcode d) && vCmode d ≠ 3 then [vSrcc d] else [])

/-- The destination buffer of a vector item. -/
def dstBuffer (d : Desc) : Nat := if dOpcode d = 0x70 then wDst d else vDst d

/-- Destinations of vector items in progress become open where a DMA item overwrites what they read (R166). -/
def blurVector (pick : Nat → Nat) (rows : List (Nat × List Byte)) (t : Tile) : Tile :=
  let hit := fun (b : Nat) => rows.any fun r => overlap (r.1, r.2.length) (0x1000 * b, 0x1000)
  let dsts := (t.vx.run.filter fun r => (readBuffers r.desc).any hit).map fun r => dstBuffer r.desc
  { t with bufs := dsts.foldl (fun m b => (List.range 4096).foldl (fun a k => Cells.put 0 a (0x1000 * b + k) (BitVec.ofNat 8 (pick (2 ^ 51 + 0x1000 * b + k)))) m) t.bufs }

/-- The bytes of a job reach their space; an operand-store write leaves the old bytes to the MMAs in progress (R93). -/
def jobWrites (pick : Nat → Nat) (u : Nat) (w : Writer) (j : DmaJob) : Act :=
  match j.space with
  | 0 => Act.each (fun r => mapWrite w false r.1 r.2) j.rows
  | 1 => updTile u fun t =>
    { t with op := putBytes t.op j.rows, mx := { t.mx with run := t.mx.run.map fun r => { r with mix := addOld r.mix (oldBytes t.op j.rows) } } }
  | _ => updTile u fun t => let t := blurVector pick j.rows t; { t with bufs := putBytes t.bufs j.rows }

/-- Bytes a job writes. -/
def DmaJob.bytes (j : DmaJob) : Nat := sumNat (j.rows.map fun r => r.2.length)

/-- A write into operands that a sample still needs is held (R159). -/
def watchHolds (t : Tile) (j : DmaJob) : Bool := j.space = 1 && t.samples.any fun x => j.rows.any fun r => watchReads x r.1 r.2.length

/-- A DMA item whose checks passed and whose reads of other berths are answered: it stalls, is held for a watch, faults on the way, or is in progress with its bytes moved (R159, R183, R188, R242). -/
def dmaStart (u : Nat) (d : Desc) (job : (Nat → Nat) → State → DmaJob) : Act :=
  withFree fun pick => .ask fun s =>
    let t := getTile s u
    let j := job (fetchPick s (.unit u) pick) s
    let r := startRec s u d
    let w : Writer := { cc := dCc d, part := tilePart s u, layer := dLayer d, unit := some u }
    match j.stall with
    | some st => unitStall u st
    | none =>
      if watchHolds t j then updTile u fun t => { t with defer := true }
      else
        let common := Act.all [unitGoes u, passBegin (tilePart s u) d,
          piecesDone (((dmaPieces d).takeWhile fun p => !(route s p).stops && !fetchRefused s (.unit u) p).filter fun p => !isFar s p),
          fetchDrop (fun x => decide (x = .unit u)), jobWrites pick u w j,
          addF VX_DMA_BYTES.COUNT j.bytes u]
        match j.fault with
        | some a => Act.all [traceItem u 1 d, common, logEv .accessFault (u / 128) u, itemFault u .dma .VX_DMA_FAULT .dmaFault d 0x25, setF VX_DMA_FADDR.ADDR a u]
        | none =>
          Act.all [traceItem u 1 d, common, updEng u .dma fun e =>
            { e with
              queue := e.queue.drop 1
              run := e.run ++ [{ r with
                oldOp := if j.space = 1 then oldBytes t.op j.rows else []
                oldBuf := if j.space = 2 then oldBytes t.bufs j.rows else [] }] }]

/-- The head item of the DMA where a predicate takes it, or where its opcode is reserved: it waits, faults or starts; one item runs at a time (R42, R91, R182, R188). -/
def dmaItem (u : Nat) (mine : Desc → Bool) (job : Desc → (Nat → Nat) → State → DmaJob) : Act :=
  .ask fun s =>
    match headItem s u .dma with
    | none => .skip
    | some d =>
      let known := dOpcode d = 0x80 || dOpcode d = 0x88
      if !(mine d || !known) || !(getTile s u).dma.run.isEmpty || !waitMet s u d || flipWaits s u d then .skip
      else if dmaFaultCode u d ≠ 0 then itemFault u .dma .VX_DMA_FAULT .dmaFault d (dmaFaultCode u d)
      else .seq (fetched (.unit u) (fun _ => dmaPieces d) (dmaStart u d (job d))) (setF VX_DMA_STAT.ITEM (dItem d) u)

def execCopy (u : Fin 512) (s : State) : Host.Outcome State Fault Refusal :=
  .next (run (dmaItem u (fun d => dOpcode d = 0x80) fun d pick s => copyJob pick s u d) s)
def execLowerMatrixRows (u : Fin 512) (s : State) : Host.Outcome State Fault Refusal :=
  .next (run (dmaItem u (fun d => dOpcode d = 0x88 && lMode d = 0) fun d pick s => lowerRowsJob pick s u d) s)
def execLowerWindowLine (u : Fin 512) (s : State) : Host.Outcome State Fault Refusal :=
  .next (run (dmaItem u (fun d => dOpcode d = 0x88 && lMode d = 1) fun d pick s => lowerLineJob pick s u d) s)

/-- The DMA item in progress completes once its writes into other berths have reached their homes: its SIG applies and it reports (R144, R183). -/
def dmaComplete (u : Nat) : Act :=
  .ask fun s =>
    match (getTile s u).dma.run with
    | [] => .skip
    | r :: rest => Act.when (!putsOpen s u) <| Act.all [updEng u .dma fun e => { e with run := rest }, signal u r.desc, completionReport u r, traceItem u 2 r.desc]

def execDmaItemComplete (u : Fin 512) (s : State) : Host.Outcome State Fault Refusal := .next (run (clocked u (dmaComplete u)) s)

/-- VX_DMA_CTL.RESUME (R109, R188). -/
def dmaResume (u : Nat) : Act := resumeItem u .dma .skip fun d => lastItem u .dma VX_DMA_STAT.ITEM d

def execVxDmaCtlResume (u : Fin 512) (s : State) : Host.Outcome State Fault Refusal := .next (run (dmaResume u) s)

end Sys2Proof.Machine
end

