-- ==== Sys2Proof/Machine/Update.lean ====
section
/-! DEFINITION. The update engine and the schedule engine: UPD, WCOPY, NOP, the pending set and its flip, the step size (R154 to R157, R190 to R208). -/

namespace Sys2Proof.Machine

/-- Update of the update engine. -/
def updUpd (f : UpdSt → UpdSt) : Act := .prim (.upd f)

/-! Group entries (Table 8-1). -/

/-- A parameter group as its entry is read. -/
structure Group where
  flags : Nat
  lrmul : Nat
  lambda : Nat
  betaa : Nat
  betab : Nat
  eps : Nat
  clip : Nat
  buf0 : Nat
  buf1 : Nat
  resv : Bool
deriving DecidableEq, Repr

/-- Entry `g` of the group table. -/
def groupEnt (s : State) (g : Nat) : Group :=
  let a := groupAddr s g
  { flags := readNat s a 2, lrmul := readNat s (a + 4) 4, lambda := readNat s (a + 8) 4, betaa := readNat s (a + 0xC) 4,
    betab := readNat s (a + 0x10) 4, eps := readNat s (a + 0x14) 4, clip := readNat s (a + 0x18) 4, buf0 := readNat s (a + 0x20) 8,
    buf1 := readNat s (a + 0x28) 8,
    resv := readNat s (a + 2) 2 ≠ 0 || readNat s (a + 0x1D) 3 ≠ 0 || readNat s (a + 0x30) 16 ≠ 0 || readNat s (a + 0x1C) 1 > 1 }

def Group.frozen (e : Group) : Bool := bitOf e.flags 1
def Group.factored (e : Group) : Bool := bitsOf e.flags 2 2 = 1
/-- Weights and momentum in FP32, else BF16. -/
def Group.w32 (e : Group) : Bool := bitOf e.flags 4
def Group.m32 (e : Group) : Bool := bitOf e.flags 5
/-- The factored rule keeps a first moment. -/
def Group.moment (e : Group) : Bool := !e.factored || (dec32 e.betaa).gt FV.zero

/-- An FP32 field is finite and at least 0. -/
def nonNeg32 (b : Nat) : Bool := fin32 b && !(FV.zero).gt (dec32 b)
/-- An FP32 field lies in 0 to below 1. -/
def unit32 (b : Nat) : Bool := nonNeg32 b && (FV.one).gt (dec32 b)

/-- Code 0x03: an entry outside Table 8-1; EPS and CLIP count for the factored rule only. -/
def Group.bad (e : Group) : Bool :=
  !bitOf e.flags 0 || bitsOf e.flags 2 2 ≥ 2 || bitsOf e.flags 6 10 ≠ 0 || e.resv || !nonNeg32 e.lrmul || !nonNeg32 e.lambda || !unit32 e.betaa || !unit32 e.betab ||
  (e.factored && (!(dec32 e.eps).gt FV.zero || !(dec32 e.clip).gt FV.zero)) || e.buf0 % 64 ≠ 0 || e.buf1 % 64 ≠ 0

/-! Descriptors (Table 8-2). -/

def uGroup (d : Desc) : Nat := dByte d 0x10
def uRows (d : Desc) : Nat := dByte d 0x14 4
def uCols (d : Desc) : Nat := dByte d 0x18 4
def uN (d : Desc) : Nat := uRows d * uCols d
def uGmul (d : Desc) : Nat := dByte d 0x1C 4
def uGaddr (d : Desc) : Nat := dByte d 0x20 8
def uWoff (d : Desc) : Nat := dByte d 0x28 8
def uMoff (d : Desc) : Nat := dByte d 0x30 8
def uSoff (d : Desc) : Nat := dByte d 0x38 8

/-- The second moment is kept whole rather than as rows and columns (R196). -/
def uFullV (d : Desc) : Bool := uRows d = 1 || uCols d = 1

/-- The shadow and the live buffer of an item's group. -/
def shadowBuf (s : State) (g : Nat) : Nat := groupBuf s g (!groupLive s g)
def liveBuf (s : State) (g : Nat) : Nat := groupBuf s g (groupLive s g)

/-- The fault of an update item before it starts, 0 for none: the first condition of Table 8-7; an UPD on a frozen group meets only codes 1 to 3 and 7, and a NOP has only its header (R208). -/
def updFaultCode (s : State) (i : UpdItem) : Nat :=
  let d := i.desc
  let e := groupEnt s (uGroup d)
  let upd := dOpcode d = 0xC0
  let frozen := upd && e.frozen
  if dOpcode d = 0 then (if headerReservedBad d then 0x07 else 0)
  else if !upd && dOpcode d ≠ 0xC1 then 0x01
  else if (upd && dSfmta d ≠ 0x7 && dSfmta d ≠ 0x9) || (!upd && (!fmtOk (dDfmt d) || dDfmt d = 0xA)) then 0x02
  else if e.bad then 0x03
  else if !frozen && ((!e.frozen && shadowBuf s (uGroup d) = 0) || (upd && (!i.setv || !dCc d))) then 0x04
  else if !frozen && (uRows d < 1 || uRows d > 16777216 || uCols d < 1 || uCols d > 16777216 || uN d > 2 ^ 32) then 0x05
  else if !frozen && (uGaddr d % 64 ≠ 0 || uWoff d % 64 ≠ 0 || (upd && e.moment && uMoff d % 64 ≠ 0) || (upd && e.factored && uSoff d % 64 ≠ 0)) then 0x06
  else if headerReservedBad d || dByte d 0x11 3 ≠ 0 then 0x07
  else 0

/-! Elements (R155, R198). -/

/-- ulp of a BF16 weight: 2^-133 for zero and subnormals, 0 for what is not finite (R155). -/
def ulpBF16 (w : FV) : FV := if !w.isFin then FV.zero else if w.isZero then .fin false 1 (-133) else fpBF16.ulp w

/-- The value of a weight with its remainder (R155, R157). -/
def weightValue (w : FV) (r : Int) : FV :=
  match w with
  | .fin _ _ _ => (FV.sum [w, (FV.mul (FV.ofInt r) (ulpBF16 w)).1.scale (-7)]).1
  | _ => w

/-- One operation rounded to FP32, with the flags so far. -/
def op32 (x : FV × Nat) (fl : Nat) : FV × Nat :=
  let r := round32 x.1
  (dec32 r.1, fl ||| x.2 ||| r.2)

/-- What an item's arithmetic needs once: the rule's constants, rounded (R198). -/
structure UpdCx where
  gmul : FV
  exp : Nat
  ba : FV
  bb : FV
  oma : FV
  omb : FV
  lam : FV
  eps : FV
  clip : FV
  eta : FV
  fl : Nat

/-- The constants of an UPD (R198): 1 - β and η × LRMUL are each formed once and rounded; the scale and the step size are those it latched. -/
def updCx (s : State) (d : Desc) (e : Group) : UpdCx :=
  let sub1 := fun (b : Nat) => op32 (FV.sum [FV.one, (dec32 b).neg]) 0
  let eta := op32 (FV.mul (dec32 s.upd.latch.2.2) (dec32 e.lrmul)) 0
  { gmul := dec32 (uGmul d), exp := s.upd.latch.2.1, ba := dec32 e.betaa, bb := dec32 e.betab, oma := (sub1 e.betaa).1, omb := (sub1 e.betab).1,
    lam := dec32 e.lambda, eps := dec32 e.eps, clip := dec32 e.clip, eta := eta.1, fl := eta.2 ||| (sub1 e.betaa).2 ||| (sub1 e.betab).2 }

/-- The descaled gradient, rounded once (R198). -/
def gradValue (c : UpdCx) (x : FV) : FV × Nat :=
  let p := FV.mul x c.gmul
  op32 (p.1.scale (-(c.exp : Int)), p.2) 0

/-- The new weight, and its remainder for BF16 weights, from the direction `u`: d, the exact v, and the write (R156, R198). -/
def writeWeight (c : UpdCx) (w32 : Bool) (wf u : FV) (draw : Nat) (fl : Nat) : Nat × Nat × Nat :=
  let d := op32 (FV.fma u c.lam wf) fl
  let st := op32 (FV.mul c.eta d.1) d.2
  let v := FV.sum [wf, st.1.neg]
  if w32 then
    let w := round32 v.1
    (w.1, 0, st.2 ||| v.2 ||| w.2)
  else
    let w := fpBF16.round none v.1
    let wv := fpBF16.decode w.1
    let r := if wv.isFin then (fpToInt 0x3 (some draw) (FV.div (FV.sum [v.1, wv.neg]).1 (ulpBF16 wv) |>.scale 7)).1 else 0
    (w.1, r, st.2 ||| v.2 ||| w.2)

/-- An element's inputs: gradient value, weight encoding, remainder, momentum encoding. -/
structure UpdElem where
  g : FV
  gfl : Nat
  w : Nat
  r : Int
  m : Nat

/-- An element's results: weight, remainder and momentum encodings, and flags. -/
structure UpdOut where
  w : Nat
  r : Nat
  m : Nat
  fl : Nat

/-- A new first moment: rounded once to its format, it is what is stored and what the step uses (R198, R199). -/
def moment (m32 : Bool) (b ob : FV) (m x : FV) (fl : Nat) : Nat × FV × Nat :=
  let t := op32 (FV.mul ob x) fl
  let f := FV.fma t.1 b m
  let fmt := if m32 then fpFP32 else fpBF16
  let r := fmt.round none f.1
  (r.1, fmt.decode r.1, t.2 ||| f.2 ||| r.2)

/-- An element under the sign rule (R198, R200). A NaN c counts as zero (log 23). -/
def signElem (c : UpdCx) (e : Group) (x : UpdElem) (draw : Nat) : UpdOut :=
  if !x.g.isFin then { w := x.w, r := fieldOfInt x.r 8, m := x.m, fl := x.gfl }
  else
    let wv := if e.w32 then dec32 x.w else weightValue (fpBF16.decode x.w) x.r
    let mv := (if e.m32 then fpFP32 else fpBF16).decode x.m
    let t := op32 (FV.mul c.oma x.g) x.gfl
    let cc := op32 (FV.fma t.1 c.ba mv) t.2
    let u := if cc.1.gt FV.zero then FV.one else if FV.zero.gt cc.1 then FV.one.neg else FV.zero
    let m := moment e.m32 c.bb c.omb mv x.g cc.2
    let w := writeWeight c e.w32 wv u draw m.2.2
    { w := w.1, r := w.2.1, m := m.1, fl := w.2.2 }

/-! The factored rule (R199). -/

/-- The mean of values formed exactly, plus `add`, rounded once to FP32. -/
def mean32 (l : List FV) (add : FV) : FV × Nat :=
  let s := FV.sum (l ++ [(FV.mul add (FV.ofInt l.length)).1])
  op32 (FV.div s.1 (FV.ofInt l.length), s.2) 0

/-- A statistic's new value: fma(βb, old, (1 - βb) × x). -/
def newStat (c : UpdCx) (old x : FV) (fl : Nat) : FV × Nat :=
  let t := op32 (FV.mul c.omb x) fl
  op32 (FV.fma t.1 c.bb old) t.2

/-- The gradient as the statistics see it: 0 where it is not finite (R200). -/
def gradStat (x : UpdElem) : FV := if x.g.isFin then x.g else FV.zero

/-- The statistics after an UPD, as FP32 encodings in their order at SOFF, and u of every element before clipping, with flags. -/
def factoredPass (c : UpdCx) (d : Desc) (xs : List UpdElem) (stats : List FV) : List FV × List FV × Nat :=
  let cols := uCols d
  let rows := uRows d
  let g := fun i j => match xs[i * cols + j]? with | some x => gradStat x | none => FV.zero
  let sq := fun i j => (FV.mul (g i j) (g i j)).1
  if uFullV d then
    let r := xs.zipIdx.map fun e =>
      let x := gradStat e.1
      let s := op32 (FV.mul x x) 0
      let s2 := op32 (FV.sum [s.1, c.eps]) s.2
      newStat c (stats.getD e.2 FV.zero) s2.1 s2.2
    let v' := (xs.zipIdx.map fun e => if e.1.g.isFin then (r.getD e.2 (FV.zero, 0)).1 else stats.getD e.2 FV.zero)
    let u := xs.zipIdx.map fun e =>
      let q := op32 (FV.sqrt ((r.getD e.2 (FV.zero, 0)).1), 0) 0
      op32 (FV.div (gradStat e.1) q.1, 0) q.2
    (v', u.map fun x => x.1, orAll (r.map fun x => x.2) ||| orAll (u.map fun x => x.2))
  else
    let rn := (List.range rows).map fun i =>
      let m := mean32 ((List.range cols).map fun j => sq i j) c.eps
      newStat c (stats.getD i FV.zero) m.1 m.2
    let cn := (List.range cols).map fun j =>
      let m := mean32 ((List.range rows).map fun i => sq i j) c.eps
      newStat c (stats.getD (rows + j) FV.zero) m.1 m.2
    let rbar := mean32 (rn.map fun x => x.1) FV.zero
    let u := (List.range rows).flatMap fun i => (List.range cols).map fun j =>
      let p := op32 (FV.mul (rn.getD i (FV.zero, 0)).1 (cn.getD j (FV.zero, 0)).1) 0
      let q := op32 (FV.div p.1 rbar.1, 0) p.2
      let r := op32 (FV.sqrt q.1, 0) q.2
      op32 (FV.div (g i j) r.1, 0) r.2
    ((rn ++ cn).map fun x => x.1, u.map fun x => x.1,
      orAll (rn.map fun x => x.2) ||| orAll (cn.map fun x => x.2) ||| rbar.2 ||| orAll (u.map fun x => x.2))

/-- k of pass 2. -/
def clipFactor (c : UpdCx) (u : List FV) : FV × Nat :=
  let ms := mean32 (u.map fun x => (FV.mul x x).1) FV.zero
  let rms := op32 (FV.sqrt ms.1, 0) ms.2
  let q := op32 (FV.div rms.1 c.clip, 0) rms.2
  op32 (FV.div FV.one (FV.max FV.one q.1), 0) q.2

/-- An element of pass 3. -/
def factoredElem (c : UpdCx) (e : Group) (k : FV) (x : UpdElem) (u0 : FV) (draw : Nat) : UpdOut :=
  if !x.g.isFin then { w := x.w, r := fieldOfInt x.r 8, m := x.m, fl := x.gfl }
  else
    let wv := if e.w32 then dec32 x.w else weightValue (fpBF16.decode x.w) x.r
    let u := op32 (FV.mul u0 k) x.gfl
    let mv := (if e.m32 then fpFP32 else fpBF16).decode x.m
    let m := if e.moment then moment e.m32 c.ba c.oma mv u.1 u.2 else (x.m, u.1, u.2)
    let w := writeWeight c e.w32 wv m.2.1 draw m.2.2
    { w := w.1, r := w.2.1, m := m.1, fl := w.2.2 }

/-! Running UPD and WCOPY. -/

/-- Bytes per weight, momentum and gradient element. -/
def wBytes (e : Group) : Nat := if e.w32 then 4 else 2
def mBytes (e : Group) : Nat := if e.m32 then 4 else 2

/-- Where the remainders lie in a buffer (R196). -/
def remOff (d : Desc) : Nat := uWoff d + alignUp (2 * uN d) 64

/-- The statistics of an UPD as places from SOFF: rows then columns, or the full moment (R196). -/
def statPlaces (d : Desc) : List Nat :=
  if uFullV d then (List.range (uN d)).map fun n => 4 * n
  else ((List.range (uRows d)).map fun i => 4 * i) ++ (List.range (uCols d)).map fun j => alignUp (4 * uRows d) 64 + 4 * j

/-- The bytes the statistics span. -/
def statSpan (d : Desc) : Nat := if uFullV d then 4 * uN d else alignUp (4 * uRows d) 64 + 4 * uCols d

/-- The ranges an UPD reads, as base and size. -/
def updReads (s : State) (d : Desc) (e : Group) : List (Nat × Nat) :=
  let b := liveBuf s (uGroup d)
  [(uGaddr d, uN d * (fmtWidth (dSfmta d) / 8)), (b + uWoff d, uN d * wBytes e)] ++ (if e.w32 then [] else [(b + remOff d, uN d)]) ++
  (if e.moment then [(b + uMoff d, uN d * mBytes e)] else []) ++ (if e.factored then [(b + uSoff d, statSpan d)] else [])

/-- The stall or the fault of the first range that stops. -/
def rangesStop (s : State) (wr : Bool) (l : List (Nat × Nat)) : Option StallAt × Option Nat :=
  match l.find? (fun r => (piecesOf r.1 r.2 wr false).any fun p => (route s p).stops) with
  | some r => (firstStall s (piecesOf r.1 r.2 wr false), firstFault s (piecesOf r.1 r.2 wr false))
  | none => (none, none)

/-- Element `n` of a packed byte list. -/
def listElem (l : List Byte) (k n : Nat) : Nat := fieldAt l (k * n) k

/-- The update engine's partition as a number. -/
def updP (s : State) : Nat := (updPart? s).getD 0

/-- An update item that stops: the engine halts, the registers take the fault (R208). -/
def updFault (i : UpdItem) (code : Nat) : Act :=
  Act.all [updUpd fun x => { x with queue := if x.run.isSome then x.queue else x.queue.drop 1, run := none, halted := some i },
    .prim (.reg .UPD_FAULT 0 0 (BitVec.ofNat 64 (code + dOpcode i.desc * 256 + dItem i.desc * 2 ^ 32))), logEv .updFault 0xFF 512, traceItem 512 3 i.desc]

/-- An access of an item in progress does not exist or was refused (R17, R208): the engine halts with its address. -/
def updAccessFault (i : UpdItem) (a : Nat) : Act :=
  Act.all [unitGoes 512, logEv .accessFault 0xFF 512, updFault i 0x08, setF UPD_FADDR.ADDR a]

/-- An item is in progress: it latches the step, the scale and the step size in force (R129, R198). -/
def updBegin (i : UpdItem) : Act :=
  Act.all [traceItem 512 1 i.desc, setF UPD_STAT.ITEM (dItem i.desc), .ask fun s =>
    updUpd fun x => { x with queue := x.queue.drop 1, run := some i, wrote := false,
                             latch := (getF s NUM_STEP.STEP (updP s), getF s NUM_LSCALE.EXP (updP s), getF s SCH_ETA.ETA) }]

/-- The bytes of the item in progress have been written. -/
def updWrote : Act := .seq (unitGoes 512) (updUpd fun x => { x with wrote := true })

/-- The elements an item covers. -/
def updSize (d : Desc) : Nat := if dOpcode d = 0xC0 || dOpcode d = 0xC1 then uN d else 0

/-- The clocks of the slices that process an item run: its elements go in runs of 32,768 to the four compute dies in turn (R190, R325, R328, R329). -/
def slicesRun (s : State) (d : Desc) : Bool := (List.range (min 4 ((updSize d + 32767) / 32768))).all (dieRuns s)

/-- The item whose turn it is: the one in progress until its bytes are written, else the head item once its sync counter is met; none while the engine is halted or a slice stands still (R190 to R192). -/
def updHead (s : State) : Option UpdItem :=
  let x := s.upd
  let next := match x.run with
    | some i => if x.wrote then none else some i
    | none => x.queue.head?.filter fun i => !dWaitv i.desc || decide (dWaitval i.desc ≤ Cells.get 0 x.sync (dWaitctr i.desc))
  if x.halted.isSome then none else next.filter fun i => slicesRun s i.desc

/-- A list of writes to the map, one after another, each whole or up to its first access that faults; the address of that access. -/
def writeRanges (s : State) (w : Writer) : List (Nat × List Byte) → Act × Option Nat
  | [] => (.skip, none)
  | r :: rs =>
    let ok := okPrefix s (.unit 512) r.1 r.2.length true
    match ok.2.1 with
    | some a => (mapWrite w false r.1 (r.2.take ok.1), some a)
    | none =>
      let x := writeRanges s w rs
      (.seq (mapWrite w false r.1 r.2) x.1, x.2)

/-- What an UPD writes: the results of its elements and the statistics. -/
def updWrites (s : State) (d : Desc) (e : Group) (outs : List UpdOut) (stats : List FV) : List (Nat × List Byte) :=
  let b := shadowBuf s (uGroup d)
  [(b + uWoff d, outs.flatMap fun o => natLe o.w (wBytes e))] ++ (if e.w32 then [] else [(b + remOff d, outs.map fun o => BitVec.ofNat 8 o.r)]) ++
  (if e.moment then [(b + uMoff d, outs.flatMap fun o => natLe o.m (mBytes e))] else []) ++
  (if e.factored then
    (if uFullV d then [(b + uSoff d, stats.flatMap fun v => natLe (round32 v).1 4)]
     else [(b + uSoff d, (stats.take (uRows d)).flatMap fun v => natLe (round32 v).1 4),
       (b + uSoff d + alignUp (4 * uRows d) 64, (stats.drop (uRows d)).flatMap fun v => natLe (round32 v).1 4)])
   else [])

/-- An UPD on a frozen group completes without touching a buffer; the record gives the group, ITEM and step (R194). -/
def updFrozen (i : UpdItem) : Act :=
  Act.all [updBegin i, updWrote, incF UPD_COUNT.FROZEN, evt UPD_EVT.FROZEN,
    .ask fun s => logEv .updFrozen 0xFF 512 [uGroup i.desc, dItem i.desc, s.upd.latch.1]]

/-- The elements of an UPD as they are read. -/
def updElems (pick : Nat → Nat) (s : State) (d : Desc) (e : Group) (c : UpdCx) : List UpdElem :=
  let b := liveBuf s (uGroup d)
  let gw := fmtWidth (dSfmta d) / 8
  let grad := mapRead pick s (uGaddr d) (uN d * gw)
  let w := mapRead pick s (b + uWoff d) (uN d * wBytes e)
  let r := if e.w32 then [] else mapRead pick s (b + remOff d) (uN d)
  let m := if e.moment then mapRead pick s (b + uMoff d) (uN d * mBytes e) else []
  (List.range (uN d)).map fun n =>
    let g := gradValue c (decodeFmt (dSfmta d) (listElem grad gw n))
    { g := g.1, gfl := g.2, w := listElem w (wBytes e) n, r := if e.w32 then 0 else signedOf (listElem r 1 n) 8, m := if e.moment then listElem m (mBytes e) n else 0 }

/-- An UPD in progress writes its shadow buffer; its stream wraps without a record, which R130 asks of tiles only (R154 to R157, R198 to R201, log 59). -/
def updRun (i : UpdItem) : Act :=
  withFree fun open_ => .ask fun s =>
    let pick := fetchPick s (.unit 512) open_
    let d := i.desc
    let g := uGroup d
    let e := groupEnt s g
    let p := updP s
    let c := updCx s d e
    let xs := updElems pick s d e c
    let stream := s.upd.stream.forStep s.upd.latch.1
    let draws := if e.w32 then [] else streamDraws (streamKey s p) stream 512 0 (uN d)
    let b := liveBuf s g
    let stats := if e.factored then (statPlaces d).map fun k => dec32 (leNat (mapRead pick s (b + uSoff d + k) 4)) else []
    let fp := if e.factored then factoredPass c d xs stats else ([], [], 0)
    let k := if e.factored then clipFactor c fp.2.1 else (FV.one, 0)
    let outs := xs.zipIdx.map fun x =>
      if e.factored then factoredElem c e k.1 x.1 (fp.2.1.getD x.2 FV.zero) (draws.getD x.2 0) else signElem c e x.1 (draws.getD x.2 0)
    let fl := c.fl ||| fp.2.2 ||| k.2 ||| orAll (outs.map fun o => o.fl)
    let bad := (xs.zipIdx.filter fun x => !x.1.g.isFin).map fun x => x.2
    let ws := updWrites s d e outs fp.1
    let w := writeRanges s { cc := true, part := p, layer := dLayer d, upd := true, unit := some 512 } ws
    let lo := ws.foldl (fun m r => min m (r.1 - shadowBuf s g)) (uWoff d)
    let hi := ws.foldl (fun m r => max m (r.1 + r.2.length - shadowBuf s g)) 0
    let pend := Act.all [
      setBitF UPD_PEND.PEND (g % 64) true (g / 64),
      updUpd fun x =>
        let o := Cells.get (lo, hi) x.extent g
        { x with extent := Cells.ins x.extent g (min lo o.1, max hi o.2) }]
    match (rangesStop s false (updReads s d e)), (rangesStop s true (ws.map fun r => (r.1, r.2.length))) with
    | (some stl, _), _ => unitStall 512 stl
    | (none, some a), _ => updAccessFault i a
    | (none, none), (some stl, _) => unitStall 512 stl
    | (none, none), (none, _) =>
      let tail := Act.all [Act.when (!e.w32) (updUpd fun x => { x with stream := { stream with block := (stream.block + (uN d + 7) / 8) % 2 ^ 27 } }),
        orFlags .UPD_FLAGS 0 false fl,
        Act.when (!bad.isEmpty) (Act.all [incF UPD_COUNT.NONFIN bad.length, evt UPD_EVT.NONFIN, logEv .updNonfinite 0xFF 512 [g, dItem d, bad.headD 0]])]
      match w.2 with
      | some a => Act.all [pend, w.1, updAccessFault i a, tail]
      | none => Act.all [pend, w.1, updWrote, addF UPD_ELEMS.COUNT (uN d), tail]

/-- The pieces of ranges that are read. -/
def rangePieces (l : List (Nat × Nat)) : List Piece := l.flatMap fun r => piecesOf r.1 r.2 false false

/-- An update item goes on once its reads of other berths are answered; one that was refused is an access fault (R208). -/
def updFetched (i : UpdItem) (l : List (Nat × Nat)) (k : Act) : Act :=
  let ps := rangePieces l
  fetched (.unit 512) (fun _ => ps) (.ask fun s => .seq
    (match ps.find? fun p => fetchRefused s (.unit 512) p with
      | some p => updAccessFault i p.a
      | none => k)
    (.ask fun s => Act.when (updHead s |>.isNone) (fetchDrop fun x => decide (x = .unit 512))))

/-- An UPD waits on another pending set, or on its group's delayed flip (R201, R202). -/
def updWaitsPend (s : State) (i : UpdItem) : Bool :=
  (getB s UPD_PSET.VALID && decide (getF s UPD_PSET.SET ≠ i.set.toNat)) || (Cells.look s.upd.delayed (uGroup i.desc)).isSome

/-- An UPD that starts makes its set the pending one where there is none (R201). -/
def pendStart (i : UpdItem) : Act :=
  .given (fun s => !getB s UPD_PSET.VALID) (Act.all [setF UPD_PSET.SET i.set.toNat, setF UPD_PSET.VALID 1])

/-- An UPD in progress reads its buffers and writes. -/
def updGo (i : UpdItem) : Act := .ask fun s => updFetched i (updReads s i.desc (groupEnt s (uGroup i.desc))) (updRun i)

/-- UPD: the item in progress goes on, or the head item starts, where it is one or has a reserved opcode. -/
def updItem : Act :=
  .ask fun s =>
    match updHead s with
    | none => .skip
    | some i =>
      let o := dOpcode i.desc
      if o = 0 || o = 0xC1 then .skip
      else if s.upd.run.isSome then updGo i
      else if updFaultCode s i ≠ 0 then updFault i (updFaultCode s i)
      else if (groupEnt s (uGroup i.desc)).frozen then updFrozen i
      else if updWaitsPend s i then .skip
      else Act.all [updBegin i, pendStart i, updGo i]

def execUpd (s : State) : Host.Outcome State Fault Refusal := .next (run updItem s)

/-- The ranges a WCOPY reads. -/
def wcopyReads (s : State) (d : Desc) : List (Nat × Nat) :=
  let e := groupEnt s (uGroup d)
  let b := liveBuf s (uGroup d)
  [(b + uWoff d, uN d * wBytes e)] ++ (if e.w32 then [] else [(b + remOff d, uN d)])

/-- A WCOPY whose checks passed: live weights to DADDR with one rounding, scaled and reported where the layer asks (R141, R197). -/
def wcopyRun (i : UpdItem) : Act :=
  withFree fun open_ => .ask fun s =>
    let pick := fetchPick s (.unit 512) open_
    let d := i.desc
    let e := groupEnt s (uGroup d)
    let p := updP s
    let b := liveBuf s (uGroup d)
    let le := layerEnt s p (dLayer d)
    let scaled := le.valid && le.scale && (slotExp s p 0 (dDfmt d)).isSome
    let k := if scaled then (slotExp s p le.atens (dDfmt d)).getD 0 else 0
    let w := mapRead pick s (b + uWoff d) (uN d * wBytes e)
    let r := if e.w32 then [] else mapRead pick s (b + remOff d) (uN d)
    let vs := (List.range (uN d)).map fun n =>
      if e.w32 then dec32 (listElem w 4 n) else weightValue (fpBF16.decode (listElem w 2 n)) (signedOf (listElem r 1 n) 8)
    let outs := vs.map fun v => toFmt (dDfmt d) false (dOvm d) none (v.scale k)
    let bytes := packElems (fmtWidth (dDfmt d)) (outs.map fun o => o.1)
    let mag := (vs.filter fun v => v.isFin).foldl (fun m v => if v.abs.gt m then v.abs else m) FV.zero
    let reads := wcopyReads s d
    let wr := writeRanges s { cc := dCc d, part := p, layer := dLayer d, upd := true, unit := some 512 } [(uGaddr d, bytes)]
    let tail := Act.all [orFlags .UPD_FLAGS 0 false (orAll (outs.map fun o => o.2)), Act.when scaled (amaxReport p le.atens mag)]
    match rangesStop s false reads, rangesStop s true [(uGaddr d, bytes.length)] with
    | (some stl, _), _ => unitStall 512 stl
    | (none, some a), _ => updAccessFault i a
    | (none, none), (some stl, _) => unitStall 512 stl
    | (none, none), (none, _) =>
      match wr.2 with
      | some a => Act.all [wr.1, updAccessFault i a]
      | none => Act.all [wr.1, updWrote, tail]

/-- A WCOPY waits for its group's delayed flip, unless the flip waits for it (R42, R202). -/
def copyWaitsFlip (s : State) (i : UpdItem) : Bool :=
  match Cells.look s.upd.delayed (uGroup i.desc) with
  | some l => !l.contains { unit := 512, desc := i.desc }
  | none => false

/-- A WCOPY in progress reads its group and writes. -/
def wcopyGo (i : UpdItem) : Act := .ask fun s => updFetched i (wcopyReads s i.desc) (wcopyRun i)

/-- WCOPY: the item in progress goes on, or the head item starts, where it is one. -/
def wcopyItem : Act :=
  .ask fun s =>
    match updHead s with
    | none => .skip
    | some i =>
      if dOpcode i.desc ≠ 0xC1 then .skip
      else if s.upd.run.isSome then wcopyGo i
      else if updFaultCode s i ≠ 0 then updFault i (updFaultCode s i)
      else if copyWaitsFlip s i then .skip
      else .seq (updBegin i) (wcopyGo i)

def execWcopy (s : State) : Host.Outcome State Fault Refusal := .next (run wcopyItem s)

/-- The SIG of an update item (R192). -/
def updSignal (d : Desc) : Act :=
  Act.when (dSigv d) (updUpd fun x => { x with sync := Cells.put 0 x.sync (dSigctr d) (satAdd 16 (Cells.get 0 x.sync (dSigctr d)) 1) })

/-- NOP: completes at once after its check (R96, R191, R208). -/
def updNop : Act :=
  .ask fun s =>
    match updHead s with
    | none => .skip
    | some i =>
      if dOpcode i.desc ≠ 0 then .skip
      else if updFaultCode s i ≠ 0 then updFault i (updFaultCode s i)
      else
        Act.all [traceItem 512 1 i.desc, setF UPD_STAT.ITEM (dItem i.desc), updUpd fun x => { x with queue := x.queue.drop 1 }, updSignal i.desc, traceItem 512 2 i.desc]

def execUpdNop (s : State) : Host.Outcome State Fault Refusal := .next (run updNop s)

/-- The item in progress completes once it has written, its slices run and its writes into other berths have reached their homes (R190, R192). -/
def updComplete : Act :=
  .ask fun s =>
    match s.upd.run with
    | none => .skip
    | some i => Act.when (s.upd.wrote && slicesRun s i.desc && !putsOpen s 512) <| Act.all [updUpd fun x => { x with run := none }, updSignal i.desc, traceItem 512 2 i.desc]

def execUpdItemComplete (s : State) : Host.Outcome State Fault Refusal := .next (run updComplete s)

/-- UPD_CTL.RESUME: the faulting item completes without effect and applies its SIG (R109, R208). -/
def updResume : Act :=
  .ask fun s =>
    match s.upd.halted with
    | none => .skip
    | some i => Act.all [updUpd fun x => { x with halted := none }, Act.when s.upd.run.isNone (setF UPD_STAT.ITEM (dItem i.desc)),
        updSignal i.desc, traceItem 512 2 i.desc]

def execUpdCtlResume (s : State) : Host.Outcome State Fault Refusal := .next (run updResume s)

/-! The pending set (R201, R202, R205). -/

/-- A pending set is cleared, with every PEND bit; the record names the set. A committed flip that waits for its readers still takes place. Without a pending set nothing is recorded (R205, log 24). -/
def discardPending : Act :=
  .ask fun s =>
    let set := getF s UPD_PSET.SET
    Act.when (getB s UPD_PSET.VALID || (List.range 4).any fun k => decide (getF s UPD_PEND.PEND k ≠ 0)) (Act.all [
      Act.when (getB s UPD_PSET.VALID) (setDiscarded (BitVec.ofNat 16 set)),
      Act.each (fun k => setF UPD_PEND.PEND 0 k) (List.range 4), setF UPD_PSET.VALID 0,
      updUpd fun x => { x with extent := x.extent.filter fun e => x.delayed.any fun y => y.1 = e.1 },
      evt UPD_EVT.DISCARDED, logEv .updDiscard 0xFF 512 [set]])

/-- UPD_CTL.DISCARD: ignored and logged while an UPD is in progress. -/
def updDiscard : Act :=
  .ask fun s =>
    match s.upd.run with
    | some i => if dOpcode i.desc = 0xC0 then logEv .updDiscardIgnored 0xFF 512 else discardPending
    | none => discardPending

def execUpdCtlDiscard (s : State) : Host.Outcome State Fault Refusal := .next (run updDiscard s)

/-- UPD_LIVE is written unless the partition holds a plan. -/
def updLiveWrite (k : Nat) (v : W64) : Act :=
  .ask fun s => if holdsPlan s (updP s) then logEv .updLiveIgnored 0xFF 512 else setF UPD_LIVE.LIVE v.toNat k

def execUpdLiveWrite (k : Fin 4) (val : W64) (s : State) : Host.Outcome State Fault Refusal := .next (run (updLiveWrite k val) s)

/-- A group flips: LIVE toggles in the register and in the entry, its PEND bit clears (R202). -/
def flipGroup (g : Nat) : Act :=
  Act.all [.ask fun s => setBitF UPD_LIVE.LIVE (g % 64) (!groupLive s g) (g / 64),
    .ask fun s => pkgWrite (groupAddr s g + 0x1C) (natLe (b2n (groupLive s g)) 1),
    setBitF UPD_PEND.PEND (g % 64) false (g / 64),
    updUpd fun x => { x with delayed := Cells.del x.delayed g, extent := Cells.del x.extent g }]

/-- The groups with a PEND bit. -/
def pendGroups (s : State) : List Nat := (List.range 256).filter fun g => bitOf (getF s UPD_PEND.PEND (g / 64)) (g % 64)

/-- The commit of the pending set: PSET clears, every pending group flips, or waits for the readers of its old live buffer (R42, R202). -/
def commitPending : Act :=
  .ask fun s => Act.all [setF UPD_PSET.VALID 0, Act.each (fun g =>
    if (Cells.look s.upd.delayed g).isSome then .skip
    else if flipReaders s g = [] then flipGroup g
    else updUpd fun x => { x with delayed := Cells.ins x.delayed g (flipReaders s g) }) (pendGroups s)]

/-- A delayed flip takes place once none of its readers is unfinished; commands that wait for the flips of their set may end then (R42, R202, R215). -/
def deferredCommit (g : Nat) : Act :=
  .ask fun s =>
    match Cells.look s.upd.delayed g with
    | some l => if l.any fun r => r.unfinished s then .skip else .seq (flipGroup g) setCommitted
    | none => .skip

def execDeferredCommit (group : Fin 256) (s : State) : Host.Outcome State Fault Refusal := .next (run (deferredCommit group) s)

/-! The schedule engine (R206). -/

/-- π with 192 fraction bits. -/
def fxPi : Nat := 0x3243f6a8885a308d313198a2e03707344a4093822299f31d0

/-- Terms of the cosine series of an angle x with square `x2`, 192 fraction bits: the k-th from the last. -/
def cosTerms : Nat → Nat → Int → Nat → Int → Int
  | 0, _, _, _, acc => acc
  | n + 1, k, term, x2, acc =>
    let t := -(term * (x2 : Int)) / (2 ^ fxP : Nat) / ((2 * k + 1) * (2 * k + 2) : Nat)
    cosTerms n (k + 1) t x2 (acc + t)

/-- cos(π a ÷ b) with 192 fraction bits, for 0 ≤ a ≤ b. -/
def fxCosPi (a b : Nat) : Int :=
  let x := fxPi * a / b
  cosTerms 40 0 ((2 ^ fxP : Nat) : Int) (x * x / 2 ^ fxP) ((2 ^ fxP : Nat) : Int)

/-- A restart: the position, the cycle's length and number. -/
def cycleWalk (mult : FV) : Nat → Nat → Nat → Nat → Nat × Nat × Nat
  | 0, pos, len, cyc => (pos, len, cyc)
  | n + 1, pos, len, cyc =>
    if pos < len then (pos, len, cyc)
    else
      let next := match (FV.mul (FV.ofInt len) mult).1 with | .fin _ m e => max 1 ((m <<< e.toNat) >>> (-e).toNat) | _ => len
      if next = len then (pos % len, len, cyc + pos / len) else cycleWalk mult n (pos - len) next (cyc + 1)

/-- MULT brought into 1.0 to 16.0. -/
def schMult (s : State) : FV :=
  let m := dec32 (getF s SCH_MULT.MULT)
  if m.isNan then FV.one else if FV.one.gt m then FV.one else if m.gt (FV.ofInt 16) then FV.ofInt 16 else m

/-- (pos, len, cycle) of R206 for tau. -/
def schCycle (s : State) (tau : Nat) : Nat × Nat × Nat :=
  if getF s SCH_DECAY.PERIOD = 0 then (tau, getF s SCH_DECAY.DECAY, 0)
  else cycleWalk (schMult s) 2097152 tau (getF s SCH_DECAY.PERIOD) 0

/-- η before its rounding, with whether the formula is exact, and the position and cycle (R206). -/
def etaValue (s : State) (step : Nat) : FV × Bool × Nat × Nat :=
  let mx := dec32 (getF s SCH_ETAMAX.ETAMAX)
  let mn := dec32 (getF s SCH_ETAMIN.ETAMIN)
  let w := getF s SCH_WARM.W
  let org := getF s SCH_ORIGIN.ORIGIN
  if step < org then (FV.zero, true, 0, 0)
  else
    let t := step - org
    if t < w then (FV.div (FV.mul mx (FV.ofInt (t + 1))).1 (FV.ofInt w), false, 0, 0)
    else
      let c := schCycle s (t - w)
      let pos := c.1
      let len := c.2.1
      let span := (FV.sum [mx, mn.neg]).1
      let shape := getF s SCH_CTL.SHAPE
      if shape = 0 then (mx, true, pos, c.2.2)
      else if shape = 3 then ((FV.mul mx (FV.sqrt (FV.div (FV.ofInt (max w 1)) (FV.ofInt (max w 1 + pos))))).1, false, pos, c.2.2)
      else if len ≤ pos then (mn, true, pos, c.2.2)
      else if shape = 1 then ((FV.sum [mn, (FV.mul span (FV.div (FV.ofInt ((len : Int) - pos)) (FV.ofInt len))).1]).1, false, pos, c.2.2)
      else
        let cs := FV.ofSig (fxCosPi pos len + (2 ^ fxP : Nat)) (-(fxP : Int) - 1) false
        ((FV.sum [mn, (FV.mul span cs).1]).1, false, pos, c.2.2)

/-- An FP32 encoding within 2^-22 relative of a value before the final rounding, chosen by an open value (R206). -/
def etaBits (pick : Nat) (v : FV) : Nat :=
  let near := fun (z : Int) => (round32 (FV.sum [v, (FV.mul v (.fin (decide (z < 0)) 1 (-22))).1]).1).1
  let lo := near (-1)
  let hi := near 1
  if v.isFin && lo ≤ hi then lo + pick % (hi - lo + 1) else if v.isFin && hi < lo then hi + pick % (lo - hi + 1) else (round32 v).1

/-- The computation of η for a step (R206). -/
def computeEta (step : Nat) : Act :=
  withFree fun pick => .ask fun s =>
    let r := etaValue s step
    Act.all [setF SCH_ETA.ETA (if r.2.1 then (round32 r.1).1 else etaBits (pick 0) r.1), setF SCH_POS.POS r.2.2.1, setF SCH_POS.CYCLE r.2.2.2]

/-- SCH_CTL.RECALC: at once while the partition holds no plan, else ignored and logged. -/
def schRecalc : Act :=
  .ask fun s => if holdsPlan s (updP s) then logEv .schRecalcIgnored 0xFF 512 else computeEta (match updPart? s with | some p => getF s NUM_STEP.STEP p | none => 0)

def execSchCtlRecalc (s : State) : Host.Outcome State Fault Refusal := .next (run schRecalc s)

end Sys2Proof.Machine
end

