-- ==== Sys2Proof/Machine/Hural.lean ====
section
/-! DEFINITION. Hural ports as receivers: sessions, the checks of a flit, partner classes, and the messages of the requester's and the lender's side (R341 to R356). -/

namespace Sys2Proof.Machine

/-! Sessions (R346, R347). -/

/-- SHA3-256 of the key that stands as the owner key: the enrolled one in PROV and FIELD, else the vendor key (R411). -/
def ownerKey (s : State) : List Byte :=
  match s.life, s.sec.ownerHash with
  | .prov, some k => k
  | .field, some k => k
  | _, _ => Config.vendorKeyHash

/-- A new session may open: no hold after a whole-package reset, a chart, host firmware, an identity, and a berth that neither was given up nor taken over, unless this package is the spare that took it over (R75, R356, R368, R373, R414, R417). -/
def mayOpen (s : State) : Bool :=
  !s.hural.hold && s.chart.cur.isSome && !s.pow.hostFail && !s.sec.idKey.isEmpty && decide (getF s SHD_STAT.ROLE < 3) &&
  (decide (getF s HURAL_ALIAS.SERVER 0 (theChart s).flBerth = (theChart s).flBerth) || decide (0 < getF s SHD_COUNT.TAKEOVERS))

/-- What an endorsement signs: SHA3-256 of an identity key and IDREV (R346). -/
def endorsed (key : List Byte) (idrev : W64) : List Byte := sha3_256 (key ++ w64Bytes idrev)

/-- HELLO as transcript bytes (log 29). -/
def helloBytes (rev : Nat) (idrev : W64) (berth role : Byte) (nonce key endorsement : List Byte) : List Byte :=
  natLe rev 1 ++ w64Bytes idrev ++ [berth, role] ++ nonce ++ key ++ endorsement

/-- The set-up starts: STATE handshake, HELLO sent. -/
def beginHandshake (n : Nat) : Act :=
  withFree fun pick => .ask fun s =>
    let idrev := getReg s .IDREV 0 0
    let berth := BitVec.ofNat 8 (ownBerth s)
    let role := BitVec.ofNat 8 (theChart s).flRole
    let nonce := natLe (pick 0) 32
    Act.all [setF HURAL_STAT.STATE 2 n,
      updPort n fun p => { p with retry := false, want := false, rekey := none, txKeys := [], rxKeys := [],
                                  set := some { hello := helloBytes 1 idrev berth role nonce s.sec.idKey s.sec.endorsement } },
      send (.handshake n (.hello 1 idrev berth role nonce s.sec.idKey s.sec.endorsement))]

/-- The set-up starts where it may. -/
def tryOpen (n : Nat) : Act :=
  .ask fun s =>
    let p := portSt s n
    Act.when (p.link && !p.barred && mayOpen s && (getB s HURAL_CFG.EN n || p.want) && !sessionUp s n) (beginHandshake n)

/-- A session or a set-up ends. Messages that were not sent whole are routed anew; flits that were not acknowledged are lost with it (log 29). -/
def endSession (n st partner : Nat) : Act :=
  .ask fun s =>
    let p := portSt s n
    Act.all [setF HURAL_STAT.STATE st n, setF HURAL_STAT.PARTNER partner n,
      updPort n fun p => { link := p.link, want := p.want, barred := p.barred, retry := p.retry, bad := p.bad, hostile := p.hostile, quarantines := p.quarantines },
      updHural fun h => { h with waiting := h.waiting ++ p.queue.map fun m => m.msg }, rerouteWaiting []]

/-- CLOSE with a reason goes out where a session is up. -/
def sendClose (n reason : Nat) : Act := .given (fun s => sessionUp s n) (sendControl n 3 [0x04, BitVec.ofNat 8 reason])

/-- The times of a list that lie within `w` before now, with now. -/
def recent (now w : Nat) (l : List Nat) : List Nat := (l.filter fun t => now ≤ t + w) ++ [now]

/-- Quarter nanoseconds in a second, and in an hour. -/
def oneSecond : Nat := 4000000000
def oneHour : Nat := 3600 * oneSecond

/-- The port is quarantined; after three quarantines within an hour it stays closed (Table 16-7). -/
def quarantine (n : Nat) : Act :=
  .ask fun s =>
    let q := recent s.now oneHour (portSt s n).quarantines
    Act.all [evt HURAL_EVT.FAULTY n, logEv .partnerFaulty 0xFF n, sendClose n 3,
      updPort n fun p => { p with quarantines := q, bad := [], barred := p.barred || decide (3 ≤ q.length) },
      endSession n (if 3 ≤ q.length then 0 else 5) 3]

/-- An uncorrectable codeword or a CRC failure counts; above FAULTY in a second the port is quarantined. -/
def badEvent (n : Nat) : Act :=
  .ask fun s =>
    let l := recent s.now oneSecond (portSt s n).bad
    Act.all [updPort n fun p => { p with bad := l },
      Act.when (decide (max 1 (getF s HURAL_THRESH.FAULTY) < l.length) && sessionUp s n) (quarantine n)]

/-- The port closes as hostile (Table 16-7). -/
def hostileClose (n : Nat) : Act :=
  Act.all [evt HURAL_EVT.HOSTILE n, logEv .partnerHostile 0xFF n, sendClose n 4, updPort n fun p => { p with barred := true, hostile := [] }, endSession n 6 4]

/-- An authentication failure, a malformed message, a replay or a message beyond the rate counts; above HOSTILE in a second the port closes. -/
def hostileEvent (n : Nat) : Act :=
  .ask fun s =>
    let l := recent s.now oneSecond (portSt s n).hostile
    Act.all [updPort n fun p => { p with hostile := l },
      Act.when (decide (max 1 (getF s HURAL_THRESH.HOSTILE) < l.length) && decide (portState s n ≠ 6)) (hostileClose n)]

/-- A failed check of a set-up or rekey: it ends, counts one authentication failure and is tried again after 1 s. -/
def exchangeFails (n : Nat) : Act :=
  .ask fun s =>
    Act.all [incF HURAL_HOSTILE.AUTH 1 n,
      if (portSt s n).set.isSome then Act.all [setF HURAL_STAT.STATE 0 n, updPort n fun p => { p with set := none, txKeys := [], rxKeys := [], retry := true }]
      else updPort n fun p => { p with rekey := none, retry := true },
      hostileEvent n]

/-- The keys of both directions from the shared secret and the transcript: sent, received (R346). -/
def sessionKeys (starts : Bool) (secret transcript : List Byte) (start : Nat) : SessKey × SessKey :=
  let k := shake256 (secret ++ sha3_256 transcript) 72
  let i : SessKey := { start := start, key := k.take 32, salt := slice k 64 4 }
  let r : SessKey := { start := start, key := slice k 32 32, salt := slice k 68 4 }
  if starts then (i, r) else (r, i)

/-- The set-up's keys are there: numbering starts at 0 and the first encrypted flit goes out. -/
def firstFlit (n : Nat) (x : Exchange) : Act :=
  let k := sessionKeys x.starts x.secret x.transcript 0
  Act.all [updPort n fun p =>
      { p with set := some { x with step := 5 }, starts := x.starts, txKeys := [k.1], rxKeys := [k.2], txSeq := 0, rxSeq := 0, acked := 0,
               replay := [], owed := [], parts := [], ctl := [], credits := (List.range 4).map fun v => (v, vcBuffer v) },
    sendControl n 0 []]

/-- A rekey's keys take effect at the switch number in each direction (R347). -/
def rekeyed (n : Nat) (x : Exchange) (switch : Nat) : Act :=
  let k := sessionKeys x.starts x.secret x.transcript switch
  Act.all [updPort n fun p => { p with rekey := none, txKeys := k.1 :: p.txKeys, rxKeys := k.2 :: p.rxKeys }, evt HURAL_EVT.REKEYED n]

/-- Steps 2 to 4 of Table 16-4 on an exchange: what is sent, the exchange after it, or the failure of its check. `keep` stores the exchange, `done` acts once both sides have the keys. -/
def exchangeStep (n : Nat) (x : Exchange) (msg : HsMsg) (switch : Nat) (keep : Exchange → Act) (done : Exchange → Nat → Act) : Act :=
  withFree fun pick => .ask fun s =>
    let p := portSt s n
    match x.step, msg with
    | 2, .encap ek =>
      let ct := Config.kemCipher (pick 0) ek
      let t := x.transcript ++ ek ++ ct
      let sig := Config.mldsaSign s.sec.seed (sha3_256 t)
      Act.all [keep { x with step := 4, transcript := t ++ sig, secret := Config.kemShared (pick 0) ek }, send (.handshake n (.cipher ct sig))]
    | 3, .cipher ct sig =>
      let t := x.transcript ++ ct
      if Config.mldsaVerify (sha3_256 p.peerKey) (sha3_256 t) sig then
        let y := { x with transcript := t ++ sig, secret := Config.kemOpen x.seed ct }
        Act.all [send (.handshake n (.finish (Config.mldsaSign s.sec.seed (sha3_256 y.transcript)) switch)), done y switch]
      else exchangeFails n
    | 4, .finish sig sw =>
      if Config.mldsaVerify (sha3_256 p.peerKey) (sha3_256 x.transcript) sig then done x sw else exchangeFails n
    | _, _ => .skip

/-- The partner's HELLO: its VENDOR, PART and endorsement are checked, and the lower identity digest starts (Table 16-4). -/
def helloTake (n : Nat) (x : Exchange) (rev : Nat) (idrev : W64) (berth role : Byte) (nonce key endorsement : List Byte) : Act :=
  withFree fun pick => .ask fun s =>
    let own := getReg s .IDREV 0 0
    if rev = 1 && idrev.toNat / 2 ^ 32 = own.toNat / 2 ^ 32 && Config.mldsaVerify (ownerKey s) (endorsed key idrev) endorsement then
      let h := sha3_256 key
      let starts := decide (beNat (sha3_256 s.sec.idKey) < beNat h)
      let theirs := helloBytes rev idrev berth role nonce key endorsement
      let t := if starts then x.hello ++ theirs else theirs ++ x.hello
      let ek := Config.kemPublic (pick 0)
      Act.all [setF HURAL_STAT.PEER berth.toNat n, Act.each (fun k => setF HURAL_PEERID.BYTES (fieldAt h (8 * k) 8) n k) (List.range 4),
        updPort n fun p => { p with peerKey := key, set := some { x with
          starts := starts, step := if starts then 3 else 2, transcript := if starts then t ++ ek else t, seed := pick 0 } },
        Act.when starts (send (.handshake n (.encap ek)))]
    else exchangeFails n

/-- A rekey starts: this side sends step 2 (R347, log 29). -/
def rekeyStart (n : Nat) : Act :=
  withFree fun pick => .given (fun s => sessionUp s n && (portSt s n).rekey.isNone)
    (Act.all [updPort n fun p => { p with retry := false, rekey := some (({ starts := true, step := 3, transcript := Config.kemPublic (pick 0), seed := pick 0 } : Exchange)) },
      send (.handshake n (.encap (Config.kemPublic (pick 0))))])

/-- A step of the set-up or of a rekey arrives. -/
def handshakeTake (n : Nat) (msg : HsMsg) : Act :=
  .ask fun s =>
    let p := portSt s n
    match p.set with
    | some x =>
      match msg with
      | .hello rev idrev berth role nonce key e => if x.step = 1 then helloTake n x rev idrev berth role nonce key e else .skip
      | m => exchangeStep n x m 0 (fun y => updPort n fun p => { p with set := some y }) fun y _ => firstFlit n y
    | none =>
      if sessionUp s n then
        let keep := fun (y : Exchange) => updPort n fun p => { p with rekey := some y }
        let own : Exchange := match p.rekey, msg with
          | some x, .encap _ => if x.starts && p.starts then x else { step := 2 }
          | some x, _ => x
          | none, _ => { step := 2 }
        exchangeStep n own msg (p.txSeq + 4096) keep fun y sw => rekeyed n y sw
      else .skip
def execHandshake (n : Fin 18) (msg : HsMsg) (s : State) : Host.Outcome State Fault Refusal := .next (run (handshakeTake n.val msg) s)

/-- The link comes up. A partner without a supported option leaves the port training, with one record an attempt (R341); a hostile or thrice quarantined port ignores it (R354). -/
def linkUp (n : Nat) (offers : Bool) : Act :=
  .ask fun s =>
    if (portSt s n).barred then .skip
    else if offers then
      Act.all [Act.when (sessionUp s n) (endSession n 1 0), updPort n fun p => { p with link := true }, tryOpen n]
    else Act.all [setF HURAL_STAT.STATE 1 n, updPort n fun p => { p with link := false, set := none }, logEv .portTraining 0xFF n]
def execLinkUp (n : Fin 18) (offers : Bool) (s : State) : Host.Outcome State Fault Refusal := .next (run (linkUp n.val offers) s)

/-- OPEN: also after a hostile or repeated faulty close. -/
def hurOpen (n : Nat) : Act := .seq (updPort n fun p => { p with want := true, barred := false }) (tryOpen n)
def execHuralCtlOpen (n : Fin 18) (s : State) : Host.Outcome State Fault Refusal := .next (run (hurOpen n.val) s)

/-- CLOSE sends CLOSE and closes the session. -/
def hurClose (n : Nat) : Act := Act.all [sendClose n 0, .given (fun s => portState s n ≠ 6) (endSession n 0 0)]
def execHuralCtlClose (n : Fin 18) (s : State) : Host.Outcome State Fault Refusal := .next (run (hurClose n.val) s)

def execHuralCtlRekey (n : Fin 18) (s : State) : Host.Outcome State Fault Refusal := .next (run (rekeyStart n.val) s)

/-- 2^36 flits or 3,600 s have passed; at 2^63 the session closes instead. -/
def rekeyDue (n : Nat) : Act :=
  .ask fun s =>
    if 2 ^ 63 ≤ (portSt s n).txSeq || 2 ^ 63 ≤ (portSt s n).rxSeq then endSession n 0 0 else rekeyStart n
def execRekeyDue (n : Fin 18) (s : State) : Host.Outcome State Fault Refusal := .next (run (rekeyDue n.val) s)

/-- One second after a failure the set-up or the rekey is tried again. -/
def sessionRetry (n : Nat) : Act :=
  .ask fun s => Act.when (portSt s n).retry (.seq (updPort n fun p => { p with retry := false }) (if sessionUp s n then rekeyStart n else tryOpen n))
def execSessionRetry (n : Fin 18) (s : State) : Host.Outcome State Fault Refusal := .next (run (sessionRetry n.val) s)

/-- The session opens with the partner's first encrypted flit; the class faulty lasts until the session has run 1 s (Table 16-7). -/
def sessionOpens (n : Nat) : Act :=
  Act.all [updPort n fun p => { p with set := none }, setF HURAL_STAT.STATE 3 n,
    .ask fun s => Act.when (decide (getF s HURAL_STAT.PARTNER n ≠ 3)) (setF HURAL_STAT.PARTNER 0 n),
    evt HURAL_EVT.OPENED n, rerouteWaiting [], pump n]

/-! Messages as they arrive (R342 to R345, R351, R355). -/

/-- Credits are owed for flits of a virtual channel whose buffer is free again. -/
def oweCredits (n vc k : Nat) : Act := updPort n fun p => { p with owed := Cells.put 0 p.owed vc (Cells.get 0 p.owed vc + k) }

/-- A malformed message is dropped whole, counted, and answered with NACK code 6 where it is a request (R344, R355). -/
def msgMalformed (n : Nat) (m : HMsg) (vc flits : Nat) : Act :=
  Act.all [incF HURAL_HOSTILE.MALFORMED 1 n, oweCredits n vc flits,
    .ask fun s => Act.when (opChannel m.op = some 1) (sendMsg { op := 0x05, src := ownBerth s, dst := m.src, txn := m.txn, addr := 6 }), hostileEvent n]

/-- A whole message: beyond the rate of virtual channel 0 it is dropped; else it is for this package, or is forwarded (R351, R355). -/
def messageWhole (n : Nat) (m : HMsg) (vc : Nat) : Act :=
  .ask fun s =>
    let early := vc = 0 && (match (portSt s n).vc0At with | some t => decide (s.now < t + 4000) | none => false)
    if early then Act.all [incF HURAL_HOSTILE.OVERRATE 1 n, oweCredits n vc 1, hostileEvent n]
    else
      Act.all [Act.when (vc = 0) (updPort n fun p => { p with vc0At := some s.now }),
        if servesBerth s m.dst then deliver n m else Act.all [oweCredits n vc (flitsOf m.size), sendMsg m]]

/-- The header of a message start, and whether its operation, length or reserved fields are wrong (R344). -/
def parseHeader (hdr : Nat) (body : List Byte) : HMsg × Bool :=
  let m : HMsg := { op := fieldAt body 0 1, src := fieldAt body 4 1, dst := fieldAt body 5 1, txn := fieldAt body 6 2, addr := fieldAt body 8 8,
                    len := fieldAt body 2 2, data := [] }
  let m := { m with data := (slice body 16 212).take m.size }
  (m, (opChannel m.op).isNone || decide (4096 < m.len) || decide (2 ≤ fieldAt body 1 1) || (bitOf (fieldAt body 1 1) 0 && decide (flitsOf m.size ≠ 1)) ||
    decide (bitsOf hdr 6 10 ≠ 0))

/-- The place of a virtual channel's message: what was begun, and its flits so far. A dropped message keeps operation 0 until the next start. -/
def setPart (n vc : Nat) (x : Option (HMsg × Nat)) : Act := updPort n fun p => { p with parts := Cells.put none p.parts vc x }

/-- A message start or a continuation. -/
def messageFlit (n hdr : Nat) (body : List Byte) : Act :=
  .ask fun s =>
    let vc := bitsOf hdr 2 2
    let part := Cells.get none (portSt s n).parts vc
    if bitsOf hdr 0 2 = 1 then
      let x := parseHeader hdr body
      Act.all [match part with
          | some (m, k) => if m.op = 0 then .skip else msgMalformed n m vc k
          | none => .skip,
        if x.2 then Act.all [setPart n vc (some ({ x.1 with op := 0 }, 0)), msgMalformed n x.1 vc 1]
        else if flitsOf x.1.size = 1 then Act.all [setPart n vc none, messageWhole n x.1 vc]
        else setPart n vc (some (x.1, 1))]
    else
      match part with
      | some (m, k) =>
        if m.op = 0 then oweCredits n vc 1
        else if bitsOf hdr 6 10 ≠ 0 then Act.all [setPart n vc (some ({ m with op := 0 }, 0)), msgMalformed n m vc (k + 1)]
        else
          let m' := { m with data := (m.data ++ body).take m.size }
          if k + 1 = flitsOf m.size then Act.all [setPart n vc none, messageWhole n m' vc] else setPart n vc (some (m', k + 1))
      | none => Act.all [setPart n vc (some (({ op := 0, src := 0, dst := 0 } : HMsg), 0)), msgMalformed n { op := 0, src := 0, dst := 0 } vc 1]

/-- A link-control body (Table 16-5). -/
def controlFlit (n : Nat) (body : List Byte) : Act :=
  if fieldAt body 0 1 = 2 then updPort n fun p => { p with ctl := p.ctl ++ [.nak (fieldAt body 8 8)] }
  else if fieldAt body 0 1 = 4 then updPort n fun p => { p with ctl := p.ctl ++ [.close (fieldAt body 1 1)] }
  else .skip

/-- The acknowledged count after an ACK field: the number is completed from the count so far. -/
def PortSt.ack (p : PortSt) (a : Nat) : Nat :=
  let d := (a + 1 + 2 ^ 16 - p.acked % 2 ^ 16) % 2 ^ 16
  if p.acked + d ≤ p.txSeq then p.acked + d else p.acked

/-- An accepted flit: the expected number moves on, ACK and CREDIT act, a quiescent or slow partner is back, then its kind acts. -/
def acceptFlit (n hdr : Nat) (body : List Byte) : Act :=
  .ask fun s =>
    let p := portSt s n
    let cvc := bitsOf hdr 4 2
    let credit := bitsOf hdr 16 16
    let back := portState s n = 4
    let fed := p.slow = some cvc && decide (credit ≠ 0)
    Act.all [updPort n fun p =>
        { p with rxSeq := p.rxSeq + 1, acked := p.ack (bitsOf hdr 32 16),
                 credits := Cells.put 0 p.credits cvc (min (vcBuffer cvc) (p.creditOf cvc + credit)), slow := if fed then none else p.slow },
      Act.when p.set.isSome (sessionOpens n),
      Act.when back (Act.all [setF HURAL_STAT.STATE 3 n, setF HURAL_STAT.PARTNER (if p.slow.isSome && !fed then 2 else 0) n]),
      Act.when (fed && !back) (setF HURAL_STAT.PARTNER 0 n),
      Act.when (back || fed) (rerouteWaiting []),
      if bitsOf hdr 0 2 = 3 then controlFlit n body else if bitsOf hdr 0 2 = 0 then .skip else messageFlit n hdr body,
      pump n]

/-- The checks of R345 in their order. -/
def flitTake (n : Nat) (flit : List Byte) (uncorrectable : Bool) : Act :=
  .ask fun s =>
    let p := portSt s n
    if !(sessionUp s n || (match p.set with | some x => x.step = 5 | none => false)) then .skip
    else if uncorrectable then Act.all [incF HURAL_LINK.FECUE 1 n, sendNak n, badEvent n]
    else if flit.length ≠ 256 || fieldAt flit 0xFC 4 ≠ (crc32 (flit.take 0xFC)).toNat then Act.all [incF HURAL_ERR.CRC 1 n, sendNak n, badEvent n]
    else
      let hdr := fieldAt flit 0 8
      let d := (bitsOf hdr 48 16 + 2 ^ 16 - p.rxSeq % 2 ^ 16) % 2 ^ 16
      if 2 ^ 16 - 1024 ≤ d then .skip
      else if 1 ≤ d && d ≤ 1024 then Act.all [incF HURAL_ERR.GAP 1 n, sendNak n]
      else if d ≠ 0 then Act.all [incF HURAL_HOSTILE.REPLAY 1 n, hostileEvent n]
      else
        let k := keyAt p.rxKeys p.rxSeq
        match gcmOpen k.key (k.nonce p.rxSeq) (flit.take 8) (slice flit 8 228) (slice flit 0xEC 16) with
        | some body => acceptFlit n hdr body
        | none => if p.set.isSome then exchangeFails n else Act.all [incF HURAL_HOSTILE.AUTH 1 n, hostileEvent n]

/-- A flit arrives with what the FEC says of its codewords. -/
def flitReceive (n : Nat) (flit : List Byte) (corrected : Nat) (uncorrectable : Bool) : Act :=
  Act.all [incF HURAL_LINK.FECCE corrected n, flitTake n flit uncorrectable]
def execHuralFlitReceive (n : Fin 18) (flit : List Byte) (corrected : Nat) (uncorrectable : Bool) (s : State) : Host.Outcome State Fault Refusal :=
  .next (run (flitReceive n.val flit corrected uncorrectable) s)

/-- An Ethernet frame: a port in Hural-direct mode does not come up; PAUSE is dropped and counted; a frame that fails counts as a CRC failure; the flits of a good one are checked each (R348, R349). -/
def frameReceive (n : Nat) (f : List Byte) : Act :=
  .ask fun s =>
    if !getB s HURAL_CFG.MODE n then
      Act.when (portState s n = 1 || portState s n = 2) (Act.all [setF HURAL_STAT.STATE 1 n, updPort n fun p => { p with set := none, txKeys := [], rxKeys := [] }])
    else
      let vlan := getB s HURAL_ETH.VLANEN n
      let at_ := if vlan then 16 else 12
      let hd := at_ + 2
      let count := fieldAt f (hd + 1) 1
      if beNat (slice f 12 2) = 0x8808 || (beNat (slice f 12 2) = 0x8100 && beNat (slice f 16 2) = 0x8808) then incF HURAL_ERR.PAUSEDROP 1 n
      else if f.length < hd + 12 || fieldAt f (f.length - 4) 4 ≠ (crc32 (f.take (f.length - 4))).toNat || beNat (slice f 6 6) ≠ getF s HURAL_PEERMAC.ADDR n ||
          (vlan && beNat (slice f 12 2) ≠ 0x8100) || beNat (slice f at_ 2) ≠ getF s HURAL_ETH.ETYPE n || f.length ≠ hd + 8 + 256 * count + 4 then
        Act.all [incF HURAL_ERR.CRC 1 n, badEvent n]
      else Act.each (fun i => flitTake n (slice f (hd + 8 + 256 * i) 256) false) (List.range count)
def execEthFrameReceive (n : Fin 18) (frame : List Byte) (s : State) : Host.Outcome State Fault Refusal := .next (run (frameReceive n.val frame) s)

/-! Link control (R345, R354). -/

/-- Flits from a sequence number on go out again, unchanged. -/
def resend (n seq : Nat) : Act :=
  .ask fun s =>
    let l := (portSt s n).replay.filter fun r => seq ≤ r.seq
    Act.all [incF HURAL_ERR.RETRY l.length n, updPort n fun p => { p with replay := p.replay.map fun r => if seq ≤ r.seq then { r with time := s.now } else r },
      putFlits n (l.map fun r => r.bytes)]

/-- The oldest NAK that arrived: everything below its number is acknowledged, the rest is resent. -/
def nakTake (n : Nat) : Act :=
  .ask fun s =>
    let p := portSt s n
    match p.ctl.findSome? fun c => match c with | .nak e => some e | .close _ => none with
    | some e => Act.all [updPort n fun p => { p with ctl := p.ctl.erase (.nak e), acked := if p.acked ≤ e && e ≤ p.txSeq then e else p.acked }, resend n e, pump n]
    | none => .skip
def execNak (n : Fin 18) (s : State) : Host.Outcome State Fault Refusal := .next (run (nakTake n.val) s)

/-- A flit that has no acknowledgement after 4 µs is resent as after a NAK. -/
def ackTimeout (n : Nat) : Act :=
  .ask fun s =>
    let p := portSt s n
    match p.replay.find? fun r => decide (p.acked ≤ r.seq) && decide (r.time + 16000 ≤ s.now) with
    | some r => resend n r.seq
    | none => .skip
def execFlitAckTimeout (n : Fin 18) (s : State) : Host.Outcome State Fault Refusal := .next (run (ackTimeout n.val) s)

/-- A route other than the one to its own partner uses the port. -/
def carriesTransit (s : State) (n : Nat) : Bool :=
  (List.range 256).any fun b => b ≠ getF s HURAL_STAT.PEER n && (getF s HURAL_ROUTE.PRI 0 b = n || getF s HURAL_ROUTE.ALT 0 b = n)

/-- A port with nothing to send sends KEEPALIVE; a package that gave up its berth does so only where transit traffic passes (R367). -/
def keepalive (n : Nat) : Act :=
  .given (fun s => sessionUp s n && (portSt s n).queue.isEmpty && (decide (getF s SHD_STAT.ROLE ≠ 3) || carriesTransit s n)) (sendControl n 3 [0x01])
def execKeepalive (n : Fin 18) (s : State) : Host.Outcome State Fault Refusal := .next (run (keepalive n.val) s)

/-- The partner is absent: the event, the record, LOST for its berth (Table 16-7). -/
def partnerGone (n : Nat) : Act :=
  .ask fun s => Act.all [evt HURAL_EVT.ABSENT n, logEv .partnerAbsent 0xFF n, Act.each (fun b => sendNote 0x13 b (getF s HURAL_STAT.PEER n)) (pilots s)]

/-- CLOSE arrives: the session closes; with reason absent the partner counts as absent (R357, R377). -/
def closeTake (n : Nat) : Act :=
  .ask fun s =>
    match (portSt s n).ctl.findSome? fun c => match c with | .close r => some r | .nak _ => none with
    | some r => Act.all [endSession n 0 (if r = 1 then 1 else 0), Act.when (r = 1) (partnerGone n)]
    | none => .skip
def execClose (n : Fin 18) (s : State) : Host.Outcome State Fault Refusal := .next (run (closeTake n.val) s)

/-- No flit has passed for 2 µs. -/
def partnerAbsent (n : Nat) : Act :=
  .given (fun s => portState s n = 3)
    (Act.all [setF HURAL_STAT.STATE 4 n, setF HURAL_STAT.PARTNER 1 n, rerouteWaiting [n], partnerGone n])
def execPartnerAbsent (n : Fin 18) (s : State) : Host.Outcome State Fault Refusal := .next (run (partnerAbsent n.val) s)

/-- A virtual channel has held no credit for STARVE µs. -/
def partnerSlow (n vc : Nat) : Act :=
  .given (fun s => portState s n = 3 && (portSt s n).creditOf vc = 0 && (portSt s n).slow.isNone)
    (Act.all [updPort n fun p => { p with slow := some vc }, setF HURAL_STAT.PARTNER 2 n, incF HURAL_STARVE.EPISODES 1 n, evt HURAL_EVT.SLOW n,
      logEv .partnerSlow 0xFF n, rerouteWaiting [n]])
def execPartnerSlow (n : Fin 18) (vc : Fin 4) (s : State) : Host.Outcome State Fault Refusal := .next (run (partnerSlow n.val vc.val) s)

/-- Starvation has lasted STUCK ms. -/
def partnerStuck (n : Nat) : Act := .given (fun s => (portSt s n).slow.isSome && sessionUp s n) (quarantine n)
def execPartnerStuck (n : Fin 18) (s : State) : Host.Outcome State Fault Refusal := .next (run (partnerStuck n.val) s)

/-- One second after a quarantine the port retrains. -/
def quarantineRetrain (n : Nat) : Act := .given (fun s => portState s n = 5) (.seq (setF HURAL_STAT.STATE 1 n) (updPort n fun p => { p with link := false }))
def execQuarantineRetrain (n : Fin 18) (s : State) : Host.Outcome State Fault Refusal := .next (run (quarantineRetrain n.val) s)

/-- The retrained session has run 1 s below the threshold. -/
def quarantineEnd (n : Nat) : Act := .given (fun s => sessionUp s n && getF s HURAL_STAT.PARTNER n = 3) (setF HURAL_STAT.PARTNER 0 n)
def execQuarantineEnd (n : Fin 18) (s : State) : Host.Outcome State Fault Refusal := .next (run (quarantineEnd n.val) s)

/-- Ten seconds after a whole-package reset the ports may open (R356). -/
def holdExpiry : Act :=
  .given (fun s => s.hural.hold) (.seq (updHural fun h => { h with hold := false }) (Act.each tryOpen (List.range 18)))
def execPortHoldExpiry (s : State) : Host.Outcome State Fault Refusal := .next (run holdExpiry s)

/-! Messages for this package. -/

/-- The oldest message of an operation from a port leaves the inbox and acts; its buffer is free again. -/
def takeMsg (n : Nat) (c : HMsg → Bool) (k : HMsg → Act) : Act :=
  .ask fun s =>
    match s.hural.inbox.find? fun e => e.1 = n && c e.2.1 with
    | some e => Act.all [updHural fun h => { h with inbox := h.inbox.erase e }, Act.when (decide (n < 18)) (oweCredits n e.2.1.vc e.2.2), k e.2.1]
    | none => .skip

/-- An answer to a message: same tag, this package's berth address as the message named it (R352). -/
def answer (m : HMsg) (op addr : Nat) (data : List Byte) : Act :=
  sendMsg { op := op, src := m.dst, dst := m.src, txn := m.txn, addr := addr, len := data.length, data := data }

/-- Where the lender finds a piece of its window, or the NACK code of R353: 1 not lent, 2 not granted, 3 read-only, 4 poisoned. -/
def lenderPlace (s : State) (src : Nat) (wr : Bool) (o n : Nat) : Nat × Nat :=
  let a := poolBase s + o
  let code := fun (x : Nat) (full : Bool) => if isPoisoned s x && !full then (4, x) else (0, x)
  if (theChart s).lend * 2 ^ 30 < o + n then (1, a)
  else
    match (exposures s).find? fun e => inRange o (e.off, e.size) with
    | some e =>
      if wr then (3, a) else if !e.all && e.reader ≠ src then (2, a) else code (e.src + (o - e.off)) false
    | none =>
      match Cells.look s.tier.lent (a / 2 ^ 21) with
      | some f => if f.berth = src then code a (wr && decide (n = 64)) else (2, a)
      | none => (2, a)

/-- The pieces of a range within this package's window, and the first code that refuses one. -/
def lenderPieces (s : State) (src : Nat) (wr : Bool) (o n : Nat) : List (Nat × Nat × Nat) × Nat :=
  let l := (linePieces o n).map fun p => (p.1, p.2, lenderPlace s src wr p.1 p.2)
  (l.map fun p => (p.1, p.2.1, p.2.2.2), match l.find? fun p => p.2.2.1 ≠ 0 with | some p => p.2.2.1 | none => 0)

/-- The last touch of the frames a range lies in (R241). -/
def touchLent (o n : Nat) : Act :=
  .ask fun s => Act.each (fun (p : Nat × Nat) =>
    let f := (poolBase s + p.1) / 2 ^ 21
    match Cells.look s.tier.lent f with
    | some x => updTier fun t => { t with lent := Cells.ins t.lent f { x with touch := getF s TIDE_COUNT.COUNT } }
    | none => .skip) (linePieces o n)

/-- A WRITE, or a BULK, into this package's window: written and acknowledged, or refused. `after` follows a write. -/
def lenderWrite (m : HMsg) (after : Act) : Act :=
  .ask fun s =>
    let x := lenderPieces s m.src true m.addr m.data.length
    if x.2 ≠ 0 then answer m 0x05 x.2 []
    else Act.all [touchLent m.addr m.data.length, storeMem {} (poolBase s + m.addr) m.data, answer m 0x02 m.addr [], after]

def execWrite (n : Fin 19) (s : State) : Host.Outcome State Fault Refusal :=
  .next (run (takeMsg n.val (fun m => m.op = 0x01) fun m => lenderWrite m .skip) s)

/-- A READ of this package's window: RDATA, or a refusal. -/
def lenderRead (m : HMsg) : Act :=
  .ask fun s =>
    let x := lenderPieces s m.src false m.addr m.len
    if x.2 ≠ 0 then answer m 0x05 x.2 []
    else Act.all [touchLent m.addr m.len, answer m 0x04 m.addr (x.1.flatMap fun p => readMem s p.2.2 p.2.1)]

/-- A READ meets a line or block whose mark holds its readers: no partner reads it before its horizon, so the READ waits (R210, log 60). -/
def lenderHeld (s : State) (m : HMsg) : Bool := (lenderPieces s m.src false m.addr m.len).1.any fun p => heldAt s p.2.2

def execRead (n : Fin 19) (s : State) : Host.Outcome State Fault Refusal :=
  .next (run (.ask fun s => takeMsg n.val (fun m => m.op = 0x03 && !lenderHeld s m) lenderRead) s)

/-- The request an answer belongs to: it leaves the list. -/
def takeReqOf (m : HMsg) (k : OutReq → Act) : Act :=
  .ask fun s =>
    match s.hural.reqs.find? fun r => r.txn = m.txn && r.dst = m.src && !r.held with
    | some r => .seq (updHural fun h => { h with reqs := h.reqs.erase r }) (k r)
    | none => .skip

/-- A write of a queue has been delivered, or will not be (R300). -/
def bellDone (r : OutReq) : Act := match r.job with | .bell q id => farDone q id | _ => .skip

/-- WACK: the write has reached its home. -/
def wackTake (m : HMsg) : Act := takeReqOf m bellDone
def execWack (n : Fin 19) (s : State) : Host.Outcome State Fault Refusal := .next (run (takeMsg n.val (fun m => m.op = 0x02) wackTake) s)

/-- RDATA: the data of a read. -/
def rdataTake (m : HMsg) : Act :=
  takeReqOf m fun r => match r.job with
    | .read who addr n => respond who addr (m.data.take n)
    | .engine w addr => fetchAnswer w addr.toNat (.data m.data)
    | _ => .skip
def execRdata (n : Fin 19) (s : State) : Host.Outcome State Fault Refusal := .next (run (takeMsg n.val (fun m => m.op = 0x04) rdataTake) s)

/-- The line of another berth that an address of the map reaches. -/
def farLine (s : State) (addr : Addr) : Nat :=
  let e := pageEnt s (pageNo addr.toNat)
  if isObject addr.toNat && e.tier = 3 then (e.frame + addr.toNat % 2 ^ 21) / 64 else addr.toNat / 64

/-- NACK code 4: a line of an object is treated under R247; in the neighbour window itself nothing is rebuilt (R252). -/
def farPoison (addr : Addr) (unit : Nat) : Act :=
  .ask fun s => Act.when (isObject addr.toNat && !isPoisoned s (farLine s addr * 64)) (Act.all [
    updTier fun t => { t with info := Cells.put {} t.info (farLine s addr) { poison := true } },
    objectPoisoned (pageNo addr.toNat) (addr.toNat / 64 * 64) 1 2 unit, evt TIER_EVT.POISON, logEv .linePoisoned 0xFF unit])

/-- A line of the page that moves is poisoned. -/
def pagePoison (addr : Addr) : Act :=
  .ask fun s =>
    match s.tier.mig, migHead s with
    | .moving old _ _, some a => farPoison (BitVec.ofNat 48 (readNat s (a + 8) 8 + (addr.toNat - old.toNat))) 0xFFFF
    | _, _ => .skip

/-- The unit a fetch belongs to, in fault records. -/
def fetchUnit : FetchFor → Nat
  | .unit u => u
  | .cmd _ _ => 513
  | _ => 0xFFFF

/-- A line an object has lost is asked for again once it is rebuilt. -/
def fetchAgain (w : FetchFor) (addr : Nat) : Act :=
  updTier fun t => { t with fetch := t.fetch.filter fun f => !(decide (f.who = w) && decide (f.addr = addr)) }

/-- A write of the DMA item in progress is refused: the item faults with code 0x25 (R183, R188). -/
def dmaPutFault (u addr : Nat) : Act :=
  .ask fun s =>
    match (getTile s u).dma.run with
    | r :: _ => Act.all [logEv .accessFault (u / 128) u, updEng u .dma fun e => { e with run := e.run.drop 1, queue := r.desc :: e.queue },
        itemFault u .dma .VX_DMA_FAULT .dmaFault r.desc 0x25, setF VX_DMA_FADDR.ADDR addr u]
    | [] => logEv .accessFault (u / 128) u

/-- A write of the update item in progress is refused: code 0x08 (R208). -/
def updPutFault (addr : Nat) : Act :=
  .ask fun s =>
    match s.upd.run with
    | some i => updAccessFault i addr
    | none => logEv .accessFault 0xFF 512

/-- A write into a line of an object that its home found poisoned waits for the rebuild; a unit's item stalls on it (R248). -/
def writeHeld (r : OutReq) (addr : Addr) : Act :=
  let unit := match r.job with | .put u _ => u | _ => 0xFFFF
  Act.all [farPoison addr unit, updHural fun h => { h with reqs := h.reqs ++ [{ r with held := true }] },
    Act.when (unit < 516) (unitStall unit { cause := 0, absent := false, addr := addr.toNat, wr := true })]

/-- A request of this package is refused with a code: an access fault, for code 4 a poisoned line (R353); an access to the object space does not fault where its lender is absent or its line is poisoned, but meets the stall of its page (R234, R248). -/
def nackApply (r : OutReq) (code : Nat) : Act :=
  let poison := fun (addr : Addr) => decide (code = 4) && isObject addr.toNat
  let dark := fun (addr : Addr) => decide (code = 5) && isObject addr.toNat
  match r.job with
  | .read who addr n =>
    if poison addr || dark addr then Act.all [Act.when (poison addr) (farPoison addr 0xFFFF), memAccess who addr (.read n) false] else accessFault who addr
  | .write who addr =>
    if poison addr then writeHeld r addr
    else Act.when (!dark addr) (match who with | some w => accessFault w addr | none => logEv .accessFault)
  | .put u addr =>
    if poison addr then writeHeld r addr
    else Act.when (!dark addr) (if u = 512 then updPutFault addr.toNat else dmaPutFault u addr.toNat)
  | .engine w addr =>
    match w with
    | .nobody => logEv .accessFault
    | .page => Act.all [fetchAnswer w addr.toNat .refused, if code = 4 then pagePoison addr else logEv .accessFault]
    | _ =>
      if poison addr || dark addr then Act.all [Act.when (poison addr) (farPoison addr (fetchUnit w)), fetchAgain w addr.toNat] else fetchAnswer w addr.toNat .refused
  | .bell q id => .ask fun s =>
    let addr := match (Cells.get {} s.bell q).far.find? fun w => w.id = id with | some w => BitVec.ofNat 48 w.addr | none => 0
    if poison addr then writeHeld r addr else Act.all [farDone q id, Act.when (!dark addr) (logEv .accessFault)]
  | .grant _ => .given (fun s => s.tier.mig = .waitFrame) (migFinish 3)
  | .snap => Act.all [.prim (.shd fun x => { x with snapFail := true }), logEv .accessFault]
  | _ => logEv .accessFault

/-- The address of a write that waits for a rebuild. -/
def heldAddr (s : State) (r : OutReq) : Nat :=
  match r.job with
  | .write _ addr => addr.toNat
  | .put _ addr => addr.toNat
  | .bell q id => (match (Cells.get {} s.bell q).far.find? fun w => w.id = id with | some w => w.addr | none => 0)
  | _ => 0

/-- The access of a write that waits for a rebuild. -/
def heldPiece (s : State) (r : OutReq) : Piece := { a := heldAddr s r, n := r.data.length, wr := true, rebuild := false }

/-- A write that waited for a rebuild is made again at the place its page has now. -/
def heldAgain (r : OutReq) : Act :=
  .ask fun s =>
    let p := heldPiece s r
    Act.all [match r.job with | .put u _ => unitGoes u | _ => .skip,
      match route s p with
      | .far b off => sendWrite b off r.data r.job
      | .fault => nackApply { r with held := false } 3
      | _ => .seq (writePiece {} false p.a r.data) (bellDone r)]

/-- The writes whose rebuild is over are made again. -/
def resendHeld : Act :=
  .ask fun s =>
    let go := fun (r : OutReq) => r.held && (firstStall s [heldPiece s r]).isNone
    Act.when (s.hural.reqs.any go) (.seq (updHural fun h => { h with reqs := h.reqs.filter fun r => !go r }) (Act.each heldAgain (s.hural.reqs.filter go)))

def nackTake (m : HMsg) : Act := takeReqOf m fun r => nackApply r (bitsOf m.addr 0 8)
def execNack (n : Fin 19) (s : State) : Host.Outcome State Fault Refusal := .next (run (takeMsg n.val (fun m => m.op = 0x05) nackTake) s)

/-- GRANTREQ at the lender. -/
def execGrantreq (n : Fin 19) (s : State) : Host.Outcome State Fault Refusal :=
  .next (run (takeMsg n.val (fun m => m.op = 0x20) fun m => grantRequest m.src m.txn (m.addr % 2 ^ 48)) s)

/-- GRANT at the borrower: the head request goes on with the frame, or is refused (R236, R241). -/
def grantTake (m : HMsg) : Act :=
  takeReqOf m fun r => match r.job with
    | .grant _ => .ask fun s =>
      if s.tier.mig ≠ .waitFrame then .skip
      else if m.addr = 2 ^ 64 - 1 then migFinish 3
      else
        match migHead s with
        | some a => Act.all [updTier fun t => { t with mig := .granted (BitVec.ofNat 48 (0x400000000000 + r.dst * 2 ^ 38 + m.addr % 2 ^ 38)) },
            migRun (readNat s a 1)]
        | none => .skip
    | _ => .skip
def execGrant (n : Fin 19) (s : State) : Host.Outcome State Fault Refusal := .next (run (takeMsg n.val (fun m => m.op = 0x21) grantTake) s)

/-- FREE at the lender: the frame returns, where its sender holds it. -/
def freeTake (m : HMsg) : Act :=
  .ask fun s =>
    let f := (poolBase s + m.addr) / 2 ^ 21
    match Cells.look s.tier.lent f with
    | some x => Act.when (x.berth = m.src) (lentFreed f)
    | none => .skip
def execHuralFree (n : Fin 19) (s : State) : Host.Outcome State Fault Refusal := .next (run (takeMsg n.val (fun m => m.op = 0x22) freeTake) s)

/-- EVICT at the borrower: the event, a fault record of type 4, and the deadline begins (R241, Table 10-11). -/
def evictTake (m : HMsg) : Act :=
  .ask fun s =>
    let a := 0x400000000000 + m.src * 2 ^ 38 + m.addr / 2 ^ 21 * 2 ^ 21
    let page := (pagesWhere s fun e => decide (e.tier = 3) && decide (e.frame = a)).head?
    Act.all [updTier fun t => { t with notices := Cells.ins t.notices (a / 2 ^ 21) (getF s TIDE_COUNT.COUNT) }, evt TIER_EVT.EVICT,
      faultRecord 4 (match page with | some p => (pageEnt s p).obj | none => 0) 0xFFFF (match page with | some p => 0x800000000000 + p * 2 ^ 21 | none => a)]
def execEvict (n : Fin 19) (s : State) : Host.Outcome State Fault Refusal := .next (run (takeMsg n.val (fun m => m.op = 0x23) evictTake) s)


/-! Liveness (R356). -/

/-- This package leads: it is the pilot, standalone, or the backup pilot that took the role (R47). -/
def isPilot (s : State) : Bool := getF s TIDE_SRC.ROLE = 1 || getF s TIDE_SRC.ROLE = 3 || s.tide.spareRole

/-- A timestamp for a berth: the calendar time here (R46, log 62). -/
def stampSend (b : Nat) : Act := .ask fun s => sendNote 0x12 b (taiNow s)

/-- TSTAMP: the exchange is kept for the skew measurement; the pilot answers with its own (R46). -/
def stampTake (m : HMsg) : Act :=
  .ask fun s => .seq (updHural fun h => { h with stamp := some (m.src, m.addr, s.now) }) (Act.when (isPilot s && decide (getF s TIDE_SRC.ROLE ≠ 3)) (stampSend m.src))
def execTstamp (n : Fin 19) (s : State) : Host.Outcome State Fault Refusal := .next (run (takeMsg n.val (fun m => m.op = 0x12) stampTake) s)

/-- The pilot probes a berth over every route it holds. A dark berth that a spare serves may be lost again, with its spare (Table 17-8). -/
def probeBerth (b : Nat) : Act :=
  .ask fun s =>
    if s.hural.probes.contains b || (s.tide.darkBerths.contains b && decide (getF s HURAL_ALIAS.SERVER 0 b = b)) || s.tide.darkQueue.contains b then .skip
    else
      let a := getF s HURAL_ALIAS.SERVER 0 b
      let ports := dedup ([getF s HURAL_ROUTE.PRI 0 a, getF s HURAL_ROUTE.ALT 0 a].filter fun n => n < 18 && portState s n = 3)
      Act.all [updHural fun h => { h with probes := h.probes ++ [b] },
        Act.each (fun n => enqueue n { op := 0x14, src := ownBerth s, dst := b }) ports]

/-- This package composes frames: it leads, or is the backup pilot, whose frame is the pilot's but for STBY (R44). -/
def composes (s : State) : Bool := isPilot s || getF s TIDE_SRC.ROLE = 2

/-- LOST at the pilot. The backup pilot receives it as well and judges it in the same way, since its frame is the same frame (R44, R356, R378, log 61). -/
def lostTake (m : HMsg) : Act := .given composes (probeBerth (bitsOf m.addr 0 8))
def execLost (n : Fin 19) (s : State) : Host.Outcome State Fault Refusal := .next (run (takeMsg n.val (fun m => m.op = 0x13) lostTake) s)

/-- PROBE: answered with PROBEACK. A package that gave up its berth answers none, since the message is held (R367). -/
def execProbe (n : Fin 19) (s : State) : Host.Outcome State Fault Refusal :=
  .next (run (takeMsg n.val (fun m => m.op = 0x14 && !bitOf m.addr 0) fun m => answer m 0x14 1 []) s)

/-- PROBEACK: the failure is a link failure, and the pilot takes no action. -/
def execProbeack (n : Fin 19) (s : State) : Host.Outcome State Fault Refusal :=
  .next (run (takeMsg n.val (fun m => m.op = 0x14 && bitOf m.addr 0) fun m => updHural fun h => { h with probes := h.probes.erase m.src }) s)

/-- No PROBEACK within 5 µs: the berth is declared dark in the first frame the pilot composes. -/
def probeTimeout (b : Nat) : Act :=
  .given (fun s => s.hural.probes.contains b)
    (Act.all [updHural fun h => { h with probes := h.probes.erase b }, .prim (.tide fun t => { t with darkQueue := t.darkQueue ++ [b] })])
def execProbeTimeout (b : Fin 256) (s : State) : Host.Outcome State Fault Refusal := .next (run (probeTimeout b.val) s)

/-- READY at a pilot: the berth has reported the set (R39, R40). -/
def readyAdd (b : Nat) (set : SetNo) : Act :=
  .prim (.tide fun t => { t with ready := if t.ready.contains (set, b) then t.ready else t.ready ++ [(set, b)] })
def execReady (n : Fin 19) (s : State) : Host.Outcome State Fault Refusal :=
  .next (run (takeMsg n.val (fun m => m.op = 0x10) fun m => readyAdd m.src (BitVec.ofNat 16 m.addr)) s)

end Sys2Proof.Machine
end

