-- ==== Sys2Proof/Machine/Jpeg.lean ====
section
/-! DEFINITION. What the input pipeline checks and converts of a JPEG bale: the marker segments up to the first scan, the frame header, and YCbCr to RGB (R309). The manual names ISO/IEC 10918-1 and ITU-T T.871 and does not give them; their syntax and their formulas are PRESUMED (log 6). -/

namespace Sys2Proof.Machine

/-- A two-byte field, most significant byte first. -/
def beAt (bs : List Byte) (k : Nat) : Nat := (bs.getD k 0).toNat * 256 + (bs.getD (k + 1) 0).toNat

/-- A frame header: height, width and components. -/
structure JpegFrame where
  height : Nat
  width : Nat
  comps : Nat
deriving DecidableEq, Repr

/-- The frame header of a baseline frame: 8-bit samples, one component, or three with sampling 4:4:4, 4:2:2 or 4:2:0. `bs` begins with its length. -/
def jpegSof (bs : List Byte) : Option JpegFrame :=
  let n := (bs.getD 7 0).toNat
  let hv := fun (k : Nat) => (bs.getD (9 + 3 * k) 0).toNat
  if (bs.getD 2 0).toNat = 8 && beAt bs 0 = 8 + 3 * n && bs.length ≥ 8 + 3 * n &&
      (n = 1 || (n = 3 && [0x11, 0x21, 0x22].contains (hv 0) && hv 1 = 0x11 && hv 2 = 0x11)) then
    some { height := beAt bs 3, width := beAt bs 5, comps := n }
  else none

/-- Marker segments up to the first scan: tables, restart interval, application data and comments, and one baseline frame header. Every other process, arithmetic coding among them, and every malformed segment is rejected. -/
def jpegSegments : Nat → List Byte → Option JpegFrame → Option JpegFrame
  | 0, _, _ => none
  | n + 1, 0xFF :: 0xFF :: bs, f => jpegSegments n (0xFF :: bs) f
  | n + 1, 0xFF :: m :: bs, f =>
    let len := beAt bs 0
    if len < 2 || bs.length < len then none
    else if m = 0xDA then f
    else if m = 0xC0 then (if f.isSome then none else match jpegSof bs with | some x => jpegSegments n (bs.drop len) (some x) | none => none)
    else if m = 0xC4 || m = 0xDB || m = 0xDD || (0xE0 ≤ m.toNat && m.toNat ≤ 0xEF) || m = 0xFE then jpegSegments n (bs.drop len) f
    else none
  | _, _, _ => none

/-- The frame of a stream whose features the decoders take. -/
def jpegFrame (bs : List Byte) : Option JpegFrame :=
  match bs with
  | 0xFF :: 0xD8 :: r => jpegSegments r.length r none
  | _ => none

/-- A number rounded to the nearest integer and brought into 0 to 255: `n` ÷ `d`. -/
def toSample (n : Int) (d : Nat) : Byte := BitVec.ofNat 8 (min 255 ((2 * n + d) / (2 * (d : Int))).toNat)

/-- Y, Cb, Cr of every pixel to R, G, B. -/
def ycbcrToRgb : List Byte → List Byte
  | y :: cb :: cr :: r =>
    let b : Int := cb.toNat - 128
    let c : Int := cr.toNat - 128
    toSample (1000 * y.toNat + 1402 * c) 1000 :: toSample (587000 * y.toNat - 202008 * b - 419198 * c) 587000 ::
      toSample (1000 * y.toNat + 1772 * b) 1000 :: ycbcrToRgb r
  | l => l

end Sys2Proof.Machine
end

