-- ==== Sys2Proof/Machine/Input.lean ====
section
/-! DEFINITION. The input pipeline: customs, the decoders, the reorder window, the batches and the manifest (R305 to R318). -/

namespace Sys2Proof.Machine

/-- Update of the input pipeline. -/
def updCus (f : CusSt → CusSt) : Act := .prim (.cus f)

/-- The pipeline's partition: the one whose UNITS bit 2 is set (R308). -/
def cusPart? (s : State) : Option Nat := partOfUnit s 514

/-- SLOTBYTES in bytes. -/
def slotBytes (s : State) : Nat := getF s CUS_BATCHBUF.SLOTBYTES * 64

/-! RUN items (R308). Unit 0 is customs, unit 1 the decoder bank. -/

/-- The list of a unit and the item in progress on it. -/
def CusSt.items (c : CusSt) (u : Nat) : List Desc := if u = 0 then c.cusItems else c.decItems
def CusSt.running (c : CusSt) (u : Nat) : Option Desc := if u = 0 then c.cusRun else c.decRun
def CusSt.with (c : CusSt) (u : Nat) (l : List Desc) (r : Option Desc) : CusSt :=
  if u = 0 then { c with cusItems := l, cusRun := r } else { c with decItems := l, decRun := r }

/-- The head item of a unit starts: a RUN is in progress until it completes, anything else completes at once without effect. -/
def runStart (u : Nat) : Act :=
  .ask fun s =>
    match s.cus.items u, s.cus.running u with
    | d :: _, none =>
      if dOpcode d = 0xD0 then Act.all [traceItem (514 + u) 1 d, updCus fun c => c.with u ((c.items u).drop 1) (some d)]
      else
        Act.all [traceItem (514 + u) 1 d, updCus fun c => c.with u ((c.items u).drop 1) none, evt CUS_EVT.BADITEM,
          logEv .badItem 0xFF (514 + u), traceItem (514 + u) 2 d]
    | _, _ => .skip

def execRun (u : Fin 2) (s : State) : Host.Outcome State Fault Refusal := .next (run (runStart u) s)

/-- A RUN item completes DUR after it started. -/
def runComplete (u : Nat) : Act :=
  .ask fun s =>
    match s.cus.running u with
    | some d => Act.all [updCus fun c => c.with u (c.items u) none, traceItem (514 + u) 2 d]
    | none => .skip

def execRunComplete (u : Fin 2) (s : State) : Host.Outcome State Fault Refusal := .next (run (runComplete u) s)

/-- Customs, or the decoder bank, works: a RUN item is in progress and the pipeline is enabled. -/
def cusWorks (s : State) (u : Nat) : Bool := getB s CUS_CFG.EN && (s.cus.running u).isSome

/-! Batches and emission (R311, R312, R314, R315). -/

/-- A record that continues in another epoch starts its drop count and digest again (R306, R315). -/
def Batch.inEpoch (b : Batch) (epoch : Nat) : Batch :=
  if b.epoch = epoch then b else { b with epoch := epoch, drops := 0, digest := List.replicate 32 0 }

/-- A dropped index enters the record. -/
def Batch.drop (b : Batch) (epoch index : Nat) : Batch :=
  let r := b.inEpoch epoch
  { r with drops := r.drops + 1, digest := sha3_256 (r.digest ++ natLe index 8) }

/-- A sample of a batch is emitted. -/
def Batch.emit (b : Batch) (x : SubEnt) : Batch := { b.inEpoch x.epoch with next := x.index + 1, shuffle := x.shuffle }

/-- One submission lies before another. -/
def before (a b : Nat × Nat) : Bool := decide (a.1 < b.1) || (decide (a.1 = b.1) && decide (a.2 < b.2))

/-- Insertion in submission order. -/
def insSub (x : Nat × Nat) : List (Nat × Nat) → List (Nat × Nat)
  | [] => [x]
  | y :: ys => if before x y then x :: y :: ys else y :: insSub x ys

/-- The drops that precede every sample of the window enter the record, in submission order (log 25). -/
def foldDrops (c : CusSt) : CusSt :=
  let due := fun (d : Nat × Nat) => match c.win with | [] => true | w :: _ => before d (w.sub.epoch, w.sub.index)
  { c with held := c.held.filter fun d => !due d, record := (c.held.filter due).foldl (fun b d => b.drop d.1 d.2) c.record }

/-- The samples emitted into CUR. -/
def emittedNow (s : State) : Nat := (Cells.get {} s.cus.batches (getF s CUS_STAT.CUR)).emitted

/-- The sync counter of R312 on every tile of the partition takes the samples emitted into CUR. -/
def batchCounter (p : Nat) : Act :=
  .ask fun s =>
    if getB s CUS_CFG.EN && cusPart? s = some p then
      Act.each (fun u => setF TILE_SYNC.VALUE (min 0xFFFF (emittedNow s)) u (getF s CUS_CFG.SIGCTR)) ((partUnits s p).filter fun u => u < 512)
    else .skip

/-- The head of the window can be emitted: it is done, and its batch is at most four beyond the current one (R222). -/
def headReady (s : State) : Option WinEnt :=
  match s.cus.win with
  | w :: _ => if w.st = .done && getF s CUS_CFG.BATCH ≠ 0 && s.cus.fill ≤ getF s CUS_STAT.CUR + 4 then some w else none
  | [] => none

/-- The bytes of a slot: header with the submission index, data, zeros (R311). -/
def slotImage (s : State) (w : WinEnt) : List Byte :=
  let d := (descBytes w.hdr).take 56 ++ natLe w.sub.index 8 ++ w.data
  (d ++ List.replicate (slotBytes s - d.length) 0).take (slotBytes s)

/-- The done head is written into the next slot of the batch being filled. -/
def emitOne (w : WinEnt) : Act :=
  .ask fun s =>
    let b := s.cus.fill
    let size := getF s CUS_CFG.BATCH
    let x := Cells.get {} s.cus.batches b
    let a := getF s CUS_BATCHBUF.ADDR * 64 + b % 5 * size * slotBytes s + x.emitted * slotBytes s
    Act.all [pkgWrite a (slotImage s w),
      updCus fun c =>
        let r := c.record.emit w.sub
        { c with win := c.win.drop 1, record := r, batches := Cells.ins c.batches b { r with emitted := x.emitted + 1 },
                 fill := if x.emitted + 1 = size then b + 1 else b },
      Act.when (b = getF s CUS_STAT.CUR)
        (Act.each (fun u => incF TILE_SYNC.VALUE 1 u (getF s CUS_CFG.SIGCTR))
          (match cusPart? s with | some p => (partUnits s p).filter fun u => u < 512 | none => []))]

/-- Emission goes on while the head is ready. -/
def emitLoop : Nat → Act
  | 0 => updCus foldDrops
  | n + 1 => .seq (updCus foldDrops) (.ask fun s => match headReady s with | some w => .seq (emitOne w) (emitLoop n) | none => .skip)

/-- Every sample that can be emitted is emitted. -/
def emitAll : Act := .ask fun s => emitLoop (s.cus.win.length + 1)

/-! Drops (R314). -/

/-- Why a sample is dropped (R314). -/
inductive DropReason where
  | customs | corrupt | deadline | fault
deriving DecidableEq, Repr

/-- The count of a reason in CUS_DROP. -/
def DropReason.count : DropReason → Fld
  | .customs => CUS_DROP.REJECT
  | .corrupt => CUS_DROP.CORRUPT
  | .deadline => CUS_DROP.DEADLINE
  | .fault => CUS_DROP.CORRUPT

/-- A sample is dropped: counted under its reason, an event, a record with its submission index, epoch and reason, and its place in the drop record. -/
def dropSample (x : SubEnt) (why : DropReason) : Act :=
  Act.all [incF why.count, evt CUS_EVT.DROP, logEv .sampleDrop 0xFF 514 [x.index, x.epoch, why.ctorIdx],
    updCus fun c => { c with win := c.win.filter fun w => w.sub ≠ x, held := insSub (x.epoch, x.index) c.held }, emitAll]

/-! Customs (R306, R307). -/

/-- Header fields of a bale (Table 14-1). -/
def baleType (h : Desc) : Nat := dByte h 4
def baleFmt (h : Desc) : Nat := dByte h 5
def baleRank (h : Desc) : Nat := dByte h 6
def baleDim (h : Desc) (k : Nat) : Nat := dByte h (8 + 4 * k) 4
def balePaylen (h : Desc) : Nat := dByte h 0x28 8

/-- The decoded size: the product of the extents of RANK dimensions times the width of FMT, rounded up to a byte. -/
def baleBytes (h : Desc) : Nat := (((List.range (baleRank h)).map fun k => baleDim h k).foldl (fun a b => a * b) 1 * fmtWidth (baleFmt h) + 7) / 8

/-- Every check of R307 against the CUSTOMS section. -/
def balePasses (s : State) (h : Desc) : Bool :=
  let sec := 0xE
  dByte h 0 4 = 0x454C4142 && baleType h ≤ 2 && dByte h 7 = 0 && dByte h 0x38 8 = 0 && fmtWidth (baleFmt h) ≠ 0 &&
  1 ≤ baleRank h && baleRank h ≤ chartF s sec 0 1 &&
  (List.range 8).all (fun k => if k < baleRank h then 1 ≤ baleDim h k && baleDim h k ≤ chartF s sec (8 + 4 * k) 4 else true) &&
  baleBytes h ≤ chartF s sec 0x28 8 && (baleType h ≠ 0 || balePaylen h = baleBytes h) &&
  (baleType h ≠ 1 || (baleFmt h = 0x4 && baleRank h = 3 && (baleDim h 2 = 1 || baleDim h 2 = 3)))

/-- The bytes of a range are readable memory of this package. -/
def cusReadable (s : State) (a n : Nat) : Bool :=
  (piecesOf a n false false).all fun p => match route s p with | .mem _ _ => true | _ => false

/-- Customs reads the entries up to TAIL; each gets the next submission index, and NEWEPOCH starts an epoch (R306). -/
def readSubs : Nat → Act
  | 0 => .skip
  | n + 1 => .ask fun s =>
    let size := ringSize (getF s CUS_SUBQ.SIZE)
    let h := getF s CUS_SUBPTR.HEAD
    if size = 0 || h = getF s CUS_SUBPTR.TAIL then .skip
    else
      let a := getF s CUS_SUBQ.ADDR * 32 + 32 * (h % size)
      let new := bitOf (readNat s (a + 8) 1) 0
      let ep := if new then s.cus.epoch + 1 else s.cus.epoch
      let ix := if new then 0 else s.cus.nextIndex
      let sh := if new then getReg s .CUS_SHUFFLE 0 0 else s.cus.shuffle
      Act.all [setF CUS_SUBPTR.HEAD ((h + 1) % size),
        updCus fun c =>
          { c with epoch := ep, nextIndex := ix + 1, shuffle := sh, subs := c.subs ++ [{ index := ix, epoch := ep, shuffle := sh, addr := readNat s a 8 }] },
        readSubs n]

/-- Customs reads what waits, where it works. -/
def customsReads : Act := .ask fun s => Act.when (cusWorks s 0) (readSubs (ringSize (getF s CUS_SUBQ.SIZE)))

/-- CUS_SUBPTR.TAIL is written. -/
def cusTail (t : Nat) : Act := .seq (setF CUS_SUBPTR.TAIL t) customsReads

def execCusSubptrTail (tail : BitVec 32) (s : State) : Host.Outcome State Fault Refusal := .next (run (cusTail tail.toNat) s)

/-- The lowest window entry no sample occupies (log 25). -/
def freeEntry (s : State) : Nat := ((List.range (s.cus.win.length + 1)).find? fun k => !s.cus.win.any fun w => w.slot = k).getD 0

/-- A bale that passed takes a window entry: a raw one is done once its payload is read, a JPEG one waits for a decoder, a host one for its host (R309 to R311). -/
def takeIn (x : SubEnt) (h : Desc) : Act :=
  .ask fun s =>
    let w : WinEnt :=
      { sub := x, hdr := h, bytes := baleBytes h, tide := getF s TIDE_COUNT.COUNT, slot := freeEntry s,
        st := if baleType h = 0 then .done else if baleType h = 1 then .decoding else .host,
        data := if baleType h = 0 then readMem s (x.addr + 64) (baleBytes h) else [] }
    if baleType h = 0 && !cusReadable s (x.addr + 64) (baleBytes h) then dropSample x .fault
    else .seq (updCus fun c => { c with win := c.win ++ [w] }) emitAll

/-- Customs checks the next header: rejected, or admitted once the window has room. A header it cannot read counts as a fault (log 25). -/
def customsCheck : Act :=
  .seq customsReads (.ask fun s =>
    match s.cus.subs with
    | [] => .skip
    | x :: _ =>
      let h := descOf (readMem s x.addr 64)
      let take := updCus fun c => { c with subs := c.subs.drop 1 }
      if !cusWorks s 0 then .skip
      else if !cusReadable s x.addr 64 then .seq take (dropSample x .fault)
      else if !balePasses s h then .seq take (dropSample x .customs)
      else if s.cus.win.length < getF s CUS_CFG.WINDOW then .seq take (takeIn x h)
      else .skip)

def execCustomsCheck (s : State) : Host.Outcome State Fault Refusal := .next (run customsCheck s)

/-! Decoding and host completions (R309, R310, R313). -/

/-- A sample admitted in tide `a` has met its deadline: T + 2.0 µs of boundary a + DEADLINE. -/
def pastDeadline (s : State) (w : WinEnt) : Bool :=
  let due := w.tide + chartF s 0xE 1 1
  decide (due < getF s TIDE_COUNT.COUNT) || (decide (due = getF s TIDE_COUNT.COUNT) && !s.tide.grace)

/-- A sample is done with its data. -/
def sampleDone (w : WinEnt) (data : List Byte) : Act :=
  .seq (updCus fun c => { c with win := c.win.map fun x => if x.sub = w.sub then { x with st := .done, data := data } else x }) emitAll

/-- The frame header of a JPEG bale names only features the decoders take, and agrees with DIM0, DIM1 and DIM2. -/
def jpegAgrees (s : State) (w : WinEnt) : Bool :=
  match jpegFrame (readMem s (w.sub.addr + 64) (balePaylen w.hdr)) with
  | some f => f.height = baleDim w.hdr 0 && f.width = baleDim w.hdr 1 && f.comps = baleDim w.hdr 2
  | none => false

/-- What a decoder delivers of the decoded components: RGB where CUS_CFG asks for it of a three-component image. -/
def decoderOut (s : State) (w : WinEnt) (d : List Byte) : List Byte :=
  if getB s CUS_CFG.RGB && baleDim w.hdr 2 = 3 then ycbcrToRgb d else d

/-- One of the 16 decoders finishes the sample of an index. `result` is the components in frame order as the DCT process gives them, none for a malformed stream (log 6); a payload that faults drops the sample, and so does a stream with a rejected feature or one that disagrees with the header. -/
def decodeComplete (index : Nat) (result : Option (List Byte)) : Act :=
  .ask fun s =>
    match ((s.cus.win.filter fun w => w.st = .decoding).take 16).find? fun w => w.sub.index = index with
    | none => .skip
    | some w =>
      if !cusWorks s 1 then .skip
      else if pastDeadline s w then dropSample w.sub .deadline
      else if !cusReadable s (w.sub.addr + 64) (balePaylen w.hdr) then dropSample w.sub .fault
      else
        match result with
        | none => dropSample w.sub .corrupt
        | some d => if jpegAgrees s w && decide (d.length = w.bytes) then sampleDone w (decoderOut s w d) else dropSample w.sub .corrupt

def execDecodeComplete (index : Nat) (result : Option (List Byte)) (s : State) : Host.Outcome State Fault Refusal :=
  .next (run (decodeComplete index result) s)

/-- A write of CUS_HOSTDONE: the sample in state HOST takes its data from its staging area, or the write is counted late. -/
def hostDone (index : Nat) : Act :=
  .ask fun s =>
    let a := fun (w : WinEnt) => getF s CUS_HOSTSTAGE.ADDR * 64 + w.slot * slotBytes s + 64
    match s.cus.win.find? fun w => w.st = .host && decide (w.sub.index = index) && !pastDeadline s w with
    | none => incF CUS_DROP.LATEHOST
    | some w => if cusReadable s (a w) w.bytes then sampleDone w (readMem s (a w) w.bytes) else dropSample w.sub .fault

def execCusHostdone (val : W64) (s : State) : Host.Outcome State Fault Refusal := .next (run (hostDone val.toNat) s)

/-- Samples that are not done at their deadline are dropped, in submission order (R313). -/
def deadlineDrop : Act :=
  .ask fun s => Act.each (fun w => dropSample w.sub .deadline) (s.cus.win.filter fun w => w.st ≠ .done && pastDeadline s w)

def execDeadlineDrop (s : State) : Host.Outcome State Fault Refusal := .next (run deadlineDrop s)

/-! The manifest (R315 to R317) and the enable (R308, R311). -/

/-- The manifest record of a batch (Table 14-2). -/
def manifestBytes (b : Batch) : List Byte := natLe b.epoch 8 ++ w64Bytes b.shuffle ++ natLe b.next 8 ++ natLe b.drops 8 ++ b.digest

/-- Where the manifest lies. -/
def manifestAddr (s : State) : Nat := getF s CUS_MANIFEST.ADDR * 64

/-- At a step close of its partition the pipeline writes the manifest of batch CUR, and CUR advances (R312, R316). -/
def cusStepClose (p : Nat) : Act :=
  .ask fun s =>
    if getB s CUS_CFG.EN && cusPart? s = some p then
      let cur := getF s CUS_STAT.CUR
      Act.all [pkgWrite (manifestAddr s) (manifestBytes ((Cells.look s.cus.batches cur).getD s.cus.record)),
        setF CUS_STAT.CUR (cur + 1),
        updCus fun c => { c with batches := Cells.del c.batches cur, fill := max c.fill (cur + 1) }, batchCounter p, emitAll]
    else .skip

/-- RESTORE: the pipeline takes its position from the manifest while the partition holds no plan, and is ignored and logged while it holds one (R317). -/
def cusRestore : Act :=
  .ask fun s =>
    let holds := match cusPart? s with | some p => holdsPlan s p | none => false
    let a := manifestAddr s
    let r : Batch := { epoch := readNat s a 8, shuffle := BitVec.ofNat 64 (readNat s (a + 8) 8), next := readNat s (a + 16) 8,
                       drops := readNat s (a + 24) 8, digest := readMem s (a + 32) 32 }
    if holds then logEv .restoreIgnored 0xFF 514
    else
      Act.all [setF CUS_STAT.CUR 0, setF CUS_SUBPTR.HEAD 0, setF CUS_SUBPTR.TAIL 0,
        updCus fun c =>
          { c with subs := [], win := [], held := [], fill := 0, batches := [], record := r, epoch := r.epoch, shuffle := r.shuffle,
                   nextIndex := r.next }]

def execCusCtlRestore (s : State) : Host.Outcome State Fault Refusal := .next (run cusRestore s)

/-- EN = 1: refused with CFGERR where the decoder bank belongs to another partition or a slot is too small (R308, R311). -/
def cusEnable : Act :=
  .ask fun s =>
    if ((partOfUnit s 515).isNone || partOfUnit s 515 = cusPart? s) && chartF s 0xE 0x28 8 + 64 ≤ slotBytes s then setF CUS_CFG.EN 1 else evt CUS_EVT.CFGERR

def execCusCfgEn (s : State) : Host.Outcome State Fault Refusal := .next (run cusEnable s)

/-- The pipeline resets with the host domain (Table 14-4); the lists of its units are ended there too. -/
def cusReset : Act := updCus fun _ => {}

end Sys2Proof.Machine
end

