-- ==== Sys2Proof/Machine/Survival.lean ====
section
/-! DEFINITION. Surviving failures: mirrors, commit records, secure points, dark declarations, giving up a berth, taking one over (R356 to R378). -/

namespace Sys2Proof.Machine

/-- Update of the survival state. -/
def updShd (f : ShdSt → ShdSt) : Act := .prim (.shd f)

/-! Ride entries (R358 to R361). -/

/-- A ride entry: class, first address or offset, size in bytes, and its holders with their window offsets. -/
structure Ride where
  cls : Nat
  addr : Nat
  size : Nat
  holders : List (Nat × Nat)
deriving DecidableEq, Repr

/-- A holder pair of a register with fields HOLDA, HOFFA, HOLDB, HOFFB: berth and byte offset; 0xFF means no holder B. -/
def holdersOf (a offA b offB : Nat) : List (Nat × Nat) := (a, offA * 2 ^ 21) :: (if b = 0xFF then [] else [(b, offB * 2 ^ 21)])

/-- The ride entries in force. -/
def rides (s : State) : List Ride :=
  ((List.range 64).filter fun k => getB s SHD_RIDESRC.EN k).map fun k =>
    { cls := getF s SHD_RIDESRC.CLASS k, addr := getF s SHD_RIDESRC.ADDR k * 2 ^ 21, size := getF s SHD_RIDESRC.PAGES k * 2 ^ 21,
      holders := holdersOf (getF s SHD_RIDEDST.HOLDA k) (getF s SHD_RIDEDST.HOFFA k) (getF s SHD_RIDEDST.HOLDB k) (getF s SHD_RIDEDST.HOFFB k) }

/-- The step of the pipeline's partition (MSTEP; the step that the slots count, log 30). -/
def pipeStep (s : State) : Nat := match cusPart? s with | some p => getF s NUM_STEP.STEP p | none => 0

/-- The slot of a GRAD or WEIGHT record: step mod LOGSTEPS, or the step's parity (Table 17-1). -/
def rideSlot (s : State) (r : Ride) : Nat := if r.cls = 1 then pipeStep s % max 1 (getF s SHD_LOG.LOGSTEPS) else pipeStep s % 2

/-- What landed at an offset of the own window goes to the holders of the ranges it lies in. -/
def mirror (o : Nat) (bs : List Byte) : Act :=
  .ask fun s => Act.each (fun (r : Ride) =>
    let lo := max o r.addr
    let hi := min (o + bs.length) (r.addr + r.size)
    Act.when (decide (lo < hi) && (r.cls = 1 || r.cls = 2)) (Act.each (fun (h : Nat × Nat) =>
      sendBulk h.1 (h.2 + (lo - r.addr) + rideSlot s r * r.size) (slice bs (lo - o) (hi - lo)) .mirror) r.holders)) (rides s)

/-- BULK: a write into the own window, mirrored where a ride entry asks (R359). -/
def execBulk (n : Fin 19) (s : State) : Host.Outcome State Fault Refusal :=
  .next (run (takeMsg n.val (fun m => m.op = 0x30) fun m => lenderWrite m (mirror m.addr m.data)) s)

/-- Copy engines read the local ranges of a class and write them to the holders' slot. -/
def copyRides (cls slot : Nat) (job : ReqFor) : Act :=
  .ask fun s => Act.each (fun (r : Ride) => Act.each (fun (h : Nat × Nat) => sendBulk h.1 (h.2 + slot * r.size) (readMem s r.addr r.size) job) r.holders)
    ((rides s).filter fun r => r.cls = cls)

/-- A mirror has not been acknowledged by each holder, so ready reports are held (R360). -/
def mirrorsOpen (s : State) : Bool := s.hural.reqs.any fun r => r.job = .mirror

/-! The commit record (R363, R364). -/

/-- Block `p` of PARTS (Table 17-3). -/
def partBlock (s : State) (p : Nat) : List Byte :=
  natLe (b2n ((theChart s).parts.any fun e => e.part = p)) 1 ++ natLe (getF s NUM_LSCALE.EXP p) 1 ++ natLe (getF s NUM_LSCALE.CLEAN p) 2 ++
  natLe (getF s NUM_STEP.CLOSESET p) 2 ++ natLe (getF s NUM_STEP.PER p) 1 ++ [0] ++ natLe (getF s NUM_STEP.STEP p) 8 ++
  w64Bytes (getReg s .NUM_KEYLO p 0) ++ w64Bytes (getReg s .NUM_KEYHI p 0) ++ List.replicate 32 0

/-- The counters of Table 17-2, each with the BLOCK its stream stands at (R128, R363): stream s of tile u at entry 8 u + s, then the update engine's. -/
def counterWords (s : State) : List Byte :=
  ((List.range 4096).flatMap fun k => natLe (streamCounter (tileStream s (k / 8) (k % 8)) (k / 8) (k % 8) (tileStream s (k / 8) (k % 8)).block) 8) ++
  natLe (streamCounter s.upd.stream 512 0 s.upd.stream.block) 8

/-- The record but for its digest: bytes 0x0000..0x913F. -/
def recordHead (s : State) : List Byte :=
  natLe 0x44524D43 4 ++ natLe 1 2 ++ natLe (ownBerth s) 1 ++ natLe (s.shd.records % 2) 1 ++ natLe (s.shd.records + 1) 8 ++
  natLe (getF s TIDE_COUNT.COUNT) 8 ++ natLe (match s.tide.committed with | some t => t.toNat | none => 0) 2 ++ List.replicate 6 0 ++
  w64Bytes (getReg s .CHART_SERIAL 0 0) ++ natLe (pipeStep s) 8 ++ natLe (getF s SHD_LASTSEC.STEP) 8 ++ List.replicate 8 0 ++
  ((List.range 4).flatMap fun k => w64Bytes (getReg s .UPD_LIVE k 0)) ++ List.replicate 32 0 ++
  readMem s (manifestAddr s) 64 ++ List.replicate 64 0 ++ ((List.range 64).flatMap (partBlock s)) ++ counterWords s ++ List.replicate 56 0

/-- The commit record. -/
def commitBytes (s : State) : List Byte := recordHead s ++ sha3_256 (recordHead s) ++ List.replicate 32 0

/-- At T + 2.5 µs after a step close the COMMIT ranges go to the holders' slot, then the record. -/
def commitRecord : Act :=
  .ask fun s => Act.when (s.shd.due) (Act.all [updShd fun x => { x with due := false },
    Act.when (getB s SHD_CTL.EN) (Act.all [copyRides 0 (s.shd.records % 2) .record,
      Act.each (fun (h : Nat × Nat) => sendBulk h.1 (h.2 + s.shd.records % 2 * 65536) (commitBytes s) .record)
        (holdersOf (getF s SHD_RECDST.HOLDA) (getF s SHD_RECDST.HOFFA) (getF s SHD_RECDST.HOLDB) (getF s SHD_RECDST.HOFFB)),
      updShd fun x => { x with records := x.records + 1 }])])

/-! Secure points (R362, R365). -/

/-- MINSTEPS as the package treats it. -/
def minSteps (s : State) : Nat := max 1 (getF s SHD_SECURE.MINSTEPS)

/-- INTERVAL; before the first secure point it is MINSTEPS. -/
def intervalNow (s : State) : Nat := if getF s SHD_SECURE.INTERVAL = 0 then minSteps s else getF s SHD_SECURE.INTERVAL

/-- WINDOW in quarter nanoseconds. -/
def windowTicks (s : State) : Nat := max 1 (min 365 (getF s SHD_MTBF.WINDOW)) * 86400 * oneSecond

/-- Dark declarations within the window. -/
def darksSeen (s : State) : Nat := (s.shd.darks.filter fun t => s.now ≤ t + windowTicks s).length

/-- M as numerator and denominator in s: (w + 10,900 h ÷ occupied berths) ÷ (n + 1). -/
def mtbf (s : State) : Nat × Nat :=
  let occ := max 1 (bitList ((theChart s).fld 8 0x10 32) 256).length
  let w := min (windowTicks s) (s.now - s.shd.since) / oneSecond
  (w * occ + 39240000, occ * (darksSeen s + 1))

/-- INTERVAL of R365: floor(√(2 c m) ÷ mean step time), clamped. -/
def newInterval (s : State) (rollNs : Nat) : Nat :=
  let st := getF s SHD_COST.STEPT
  let m := mtbf s
  let steps := if st = 0 then 0 else isqrt (2 * getF s SHD_COST.C * m.1 * 1000000 / (m.2 * st * st))
  let logs := (getF s SHD_LOG.LOGSTEPS - 2) / 2
  let hi := if rollNs = 0 then logs else min (getF s SHD_SECURE.ROLLMAX * 1000000 / (2 * rollNs)) logs
  max (minSteps s) (min steps hi)

/-- A secure point: INTERVAL is computed anew and every SNAP range goes into the holders' older generation. The measured roll-forward time is an open value (log 30). -/
def securePoint : Act :=
  withFree fun pick => .ask fun s =>
    let ns := pick 0 % 2 ^ 32
    let m := mtbf s
    Act.all [setF SHD_ROLL.NS ns, setF SHD_MTBF.DARKS (darksSeen s), setF SHD_MTBF.M (min (m.1 / m.2) (2 ^ 32 - 1)),
      setF SHD_SECURE.INTERVAL (min (newInterval s ns) (2 ^ 32 - 1)),
      updShd fun x => { x with secure := false, snap := some (s.now, pipeStep s), snapFail := false },
      copyRides 3 (if s.shd.gen then 0 else 1) .snap]

/-- At a step close of the pipeline's partition: the step's time enters the mean, a record falls due, a secure point may fall (R364, R365). -/
def shdStepClose (p : Nat) : Act :=
  .ask fun s => Act.all [updShd fun x => { x with due := true },
    Act.when (cusPart? s = some p) (Act.all [
      updShd fun x => { x with stepAt := some s.now, stepTimes := match x.stepAt with
        | some t => ((s.now - t) / 4000 :: x.stepTimes).take 64
        | none => x.stepTimes },
      .ask fun s => Act.when (!s.shd.stepTimes.isEmpty) (setF SHD_COST.STEPT (min (2 ^ 32 - 1) (sumNat s.shd.stepTimes / s.shd.stepTimes.length))),
      .ask fun s => Act.when (getB s SHD_CTL.EN && s.shd.snap.isNone &&
        (s.shd.secure || decide (getF s SHD_LASTSEC.STEP + intervalNow s ≤ pipeStep s))) securePoint])]

/-- The last SNAP copy is acknowledged: the new generation becomes current (R362). -/
def secureDone : Act :=
  .ask fun s =>
    match s.shd.snap with
    | some (t, step) =>
      if s.hural.reqs.any fun r => r.job = .snap then .skip
      else if s.shd.snapFail then updShd fun x => { x with snap := none, snapFail := false }
      else Act.all [updShd fun x => { x with snap := none, gen := !x.gen }, setF SHD_LASTSEC.STEP step,
        setF SHD_COST.C (min (2 ^ 32 - 1) ((s.now - t) / 4000)), evt SHD_EVT.SECURED]
    | none => .skip
def execSecurePointDone (s : State) : Host.Outcome State Fault Refusal := .next (run secureDone s)

/-- SHD_CTL.EN = 1 is refused while PER of any partition lies outside 1..2 (R370). -/
def shdEnable : Act :=
  .ask fun s =>
    if (theChart s).parts.all fun e => getF s NUM_STEP.PER e.part = 1 || getF s NUM_STEP.PER e.part = 2 then setF SHD_CTL.EN 1
    else evt SHD_EVT.CFGERR
def execShdCtlEn (s : State) : Host.Outcome State Fault Refusal := .next (run shdEnable s)

def shdSecure : Act := updShd fun x => { x with secure := true }
def execShdCtlSecure (s : State) : Host.Outcome State Fault Refusal := .next (run shdSecure s)

/-- A stream at the start of a step: counter (STEP, u, s, 0), held number the step (R129, R372). -/
def streamAt (step : Nat) : StreamSt := { held := some step, step := step % 2 ^ 24, block := 0 }

/-- Every stream of a tile. -/
def setTileStreams (u step : Nat) : Act := updTile u fun t => { t with streams := (List.range 8).map fun n => (n, streamAt step) }

/-- REALIGN: the streams of a partition's tiles and the update engine's. -/
def realign (p : Nat) : Act :=
  .ask fun s =>
    let step := getF s NUM_STEP.STEP p
    Act.all [setF SHD_CTL.PART p, Act.each (fun u => setTileStreams u step) (tilesOf s p), updUpd fun x => { x with stream := streamAt step }]
def execShdCtlRealign (p : Fin 64) (s : State) : Host.Outcome State Fault Refusal := .next (run (realign p.val) s)

/-! Losing a berth (R366, R367). -/

/-- A package that is lost while its I/O die runs gives up its berth: LOST for itself, then it holds what is addressed to it. -/
def giveUp : Act :=
  .ask fun s =>
    let role := getF s SHD_STAT.ROLE
    Act.when (role = 0 || role = 2) (Act.all [
      Act.when ((theChart s).flRole ≠ 3 && s.chart.cur.isSome) (Act.each (fun b => Act.when (!servesBerth s b) (sendNote 0x13 b (ownBerth s))) (pilots s)),
      setF SHD_STAT.ROLE 3, setF SHD_STAT.PHASE 0, updShd fun x => { x with taking := none },
      evt SHD_EVT.GAVEUP, logEv .gaveUp,
      updHural fun h => { h with heldOwn := h.heldOwn ++ h.inbox.map (fun e => e.2.1), inbox := [] }])

/-! Dark declarations (R356, R368 to R371). -/

/-- A request of another berth that was held for a dark one gets NACK code 5. -/
def refuseHeld (m : HMsg) : Act :=
  .ask fun s => Act.when (opChannel m.op = some 1 && !servesBerth s m.src)
    (sendMsg { op := 0x05, src := m.dst, dst := m.src, txn := m.txn, addr := 5 })

/-- Requests for a dark berth end with NACK code 5; writes to it without WACK are counted lost (R304, R356). -/
def farRequestsEnd (b : Nat) : Act :=
  .ask fun s =>
    let l := s.hural.reqs.filter fun r => r.dst = b && !r.held
    let held := s.hural.waiting.filter fun m => m.dst = b
    Act.all [updHural fun h => { h with reqs := h.reqs.filter fun r => r.dst ≠ b || r.held, waiting := h.waiting.filter fun m => m.dst ≠ b },
      Act.each (fun (r : OutReq) => match r.job with
        | .bell _ _ => .skip
        | .write _ _ => Act.all [logEv .farLost, nackApply r 5]
        | _ => nackApply r 5) l,
      bellLost b, Act.each refuseHeld held]

/-- As a lender the package frees the berth's frames and forgets its requests; pages it had borrowed there are lost (R250, R253). -/
def lendingEnds (b : Nat) : Act :=
  .ask fun s =>
    Act.all [updHural fun h => { h with grantWait := h.grantWait.filter fun g => g.1 ≠ b },
      Act.each (fun (e : Nat × LentFrame) => lentFreed e.1) (s.tier.lent.filter fun e => e.2.berth = b),
      Act.each pageLost (pagesWhere s fun e => decide (e.tier = 3) && decide ((e.frame - 0x400000000000) / 2 ^ 38 = b))]

/-- The sets above the committed one are reported anew; the pilot keeps only the dark berth's reports for them (R371). -/
def reportsForgotten (lost : List Nat) : Act :=
  .ask fun s => .prim (.tide fun t =>
    { t with
      sets := t.sets.map fun x => if isCommitted s x.set then x else { x with reported := false, due := x.due && !x.reported }
      ready := t.ready.filter fun e => lost.contains e.2 || isCommitted s e.1 })

/-- The idle spares: named by FLOTILLA, not dark, not given out. -/
def idleSpares (s : State) : List Nat := (theChart s).spares.filter fun x => !s.tide.darkBerths.contains x && !s.shd.spares.contains x

/-- The least element of a list. -/
def leastOf : List Nat → Option Nat
  | [] => none
  | x :: xs => match leastOf xs with
    | some y => some (min x y)
    | none => some x

/-- Every berth of the flotilla and this one. -/
def allBerths (s : State) : List Nat := (List.range 256).filter fun b => (theChart s).occupied b

/-- The berth addresses that are lost with berth `b`: its own, and one that it serves as a spare (R352, R378). -/
def lostAddresses (s : State) (b : Nat) : List Nat :=
  b :: (List.range 256).filter fun x => decide (x ≠ b) && decide (getF s HURAL_ALIAS.SERVER 0 x = b)

/-- The address that the next spare takes over when berth `b` is declared dark: the one that `b` serves as a spare, else its own (Table 17-8). -/
def orphaned (s : State) (b : Nat) : Nat := ((lostAddresses s b).drop 1).headD b

/-- The pilot names the idle spare with the lowest number to every berth; 0xFF stands for none (R368, R369, log 30). -/
def spareChoice (b : Nat) : Act :=
  .ask fun s =>
    let spare := (leastOf (idleSpares s)).getD 0xFF
    Act.all [updShd fun x => { x with spares := if spare = 0xFF || x.spares.contains spare then x.spares else spare :: x.spares },
      Act.each (fun d => sendNote 0x15 d (b + spare * 256)) ((allBerths s).filter fun d => d ≠ b)]

/-- A dark declaration applies at T + 2.0 µs, to the berth and to the address it serves as a spare (R356, R367, R368, R378). -/
def darkApply (b : Nat) : Act :=
  .ask fun s =>
    let lost := lostAddresses s b
    Act.all [.prim (.tide fun t => { t with darkBerths := if t.darkBerths.contains b then t.darkBerths else t.darkBerths ++ [b], darkQueue := t.darkQueue.filter fun x => x ≠ b }),
      updShd fun x => { x with darks := s.now :: x.darks.filter fun t => s.now ≤ t + 365 * 86400 * oneSecond, declared := lost.foldl (fun m x => Cells.put none m x (some s.now)) x.declared },
      .ask fun s => setF SHD_MTBF.DARKS (min (2 ^ 16 - 1) (darksSeen s)),
      Act.each lendingEnds lost, Act.each farRequestsEnd lost, reportsForgotten lost,
      Act.when (lost.contains (ownBerth s) && getF s SHD_STAT.ROLE = 3) (.seq (Act.each (fun m =>
        Act.when (opChannel m.op = some 1) (sendMsg { op := 0x05, src := m.dst, dst := m.src, txn := m.txn, addr := 5 })) s.hural.heldOwn)
        (updHural fun h => { h with heldOwn := [] })),
      Act.when (isPilot s && getF s SHD_STAT.ROLE ≠ 3) (spareChoice (orphaned s b))]

/-! Taking over (R352, R368, R373 to R376). -/

/-- TAKEOVER: the address is served by the spare from now on; the spare itself starts its restore. -/
def takeoverTake (m : HMsg) : Act :=
  .ask fun s =>
    let b := bitsOf m.addr 0 8
    let spare := bitsOf m.addr 8 8
    if spare = 0xFF then Act.all [evt SHD_EVT.NOSPARE, logEv .noSpare]
    else Act.all [setF HURAL_ALIAS.SERVER spare 0 b, updShd fun x => { x with spares := if x.spares.contains spare then x.spares else spare :: x.spares },
      Act.when (spare = (theChart s).flBerth && getF s SHD_STAT.ROLE = 1) (Act.all [setF SHD_STAT.ROLE 2, setF SHD_STAT.PHASE 1, setF SHD_STAT.SERVING b,
        evt SHD_EVT.TAKEOVER, incF SHD_COUNT.TAKEOVERS,
        updShd fun x => { x with taking := some (b, (Cells.get none x.declared b).getD s.now), rolled := 0 }]),
      rerouteWaiting (List.range 18)]
def execTakeover (n : Fin 19) (s : State) : Host.Outcome State Fault Refusal :=
  .next (run (takeMsg n.val (fun m => m.op = 0x15) takeoverTake) s)

/-- Bytes that holders supplied reach memory. -/
def restoreWrites (l : List (Addr × List Byte)) : Act := Act.each (fun (w : Addr × List Byte) => pkgWrite w.1.toNat w.2) l

/-- A record's MAGIC and DIGEST check (R364). -/
def recordValid (r : List Byte) : Bool := fieldAt r 0 4 = 0x44524D43 && slice r 0x9140 32 = sha3_256 (r.take 0x9140)

/-- The registers of a partition from its block. -/
def partRestore (r : List Byte) (p : Nat) : Act :=
  let b := slice r (0x100 + 64 * p) 64
  Act.when (bitOf (fieldAt b 0 1) 0) (Act.all [setF NUM_LSCALE.EXP (fieldAt b 1 1) p, setF NUM_LSCALE.CLEAN (fieldAt b 2 2) p,
    setF NUM_STEP.CLOSESET (fieldAt b 4 2) p, setF NUM_STEP.PER (fieldAt b 6 1) p, setF NUM_STEP.STEP (fieldAt b 8 8) p,
    .prim (.reg .NUM_KEYLO p 0 (BitVec.ofNat 64 (fieldAt b 0x10 8))), .prim (.reg .NUM_KEYHI p 0 (BitVec.ofNat 64 (fieldAt b 0x18 8)))])

/-- A recorded counter lies ahead of the position (MSTEP, u, s, 0) (R374). -/
def counterAhead (v step : Nat) : Bool := decide (step % 2 ^ 24 < bitsOf v 40 24) || (bitsOf v 40 24 = step % 2 ^ 24 && decide (0 < bitsOf v 0 27))

/-- Counters take the manifest's position; one record for each partition with a counter set back, with its first unit and the count of its counters. The update engine's stream counts with its partition. -/
def counterRestore (r : List Byte) : Act :=
  .ask fun s =>
    let step := fieldAt r 0x28 8
    let ahead := fun (k : Nat) => counterAhead (fieldAt r (0x1100 + 8 * k) 8) step
    let units := ((List.range 4096).filter ahead).map (fun k => k / 8) ++ (if ahead 4096 then [512] else [])
    let partAt := fun (u : Nat) => (partOfUnit s u).getD 0
    Act.all [Act.each (fun u => setTileStreams u step) (List.range 512), updUpd fun x => { x with stream := streamAt step },
      Act.each (fun p =>
        let l := units.filter fun u => decide (partAt u = p)
        Act.all [logEv .streamsRealigned 0xFF (l.headD 0) [l.headD 0, l.length], incF SHD_COUNT.REALIGN, evt SHD_EVT.REALIGNED]) (dedup (units.map partAt))]

/-- A record's TOKEN does not exceed the set committed across the job (R364). -/
def recordCommitted (s : State) (r : List Byte) : Bool :=
  match s.tide.committed with
  | some c => decide ((c - BitVec.ofNat 16 (fieldAt r 0x18 2)).toNat < 2 ^ 15)
  | none => true

/-- Of the records that the holders' slots supplied, each with the COMMIT objects of its slot, the valid one with the highest SEQ whose TOKEN is committed (R364). -/
def recordChoice (s : State) (l : List (List Byte × List (Addr × List Byte))) : Option (List Byte × List (Addr × List Byte)) :=
  (l.filter fun e => recordValid e.1 && recordCommitted s e.1).foldl
    (fun m e => match m with
      | some x => if fieldAt x.1 8 8 < fieldAt e.1 8 8 then some e else some x
      | none => some e) none

/-- The record phase, from the record chosen; without one the berth stays dark (R374, R378). -/
def recordPhase (l : List (List Byte × List (Addr × List Byte))) : Act :=
  .ask fun s => match recordChoice s l with
  | some (r, objects) =>
      Act.all [restoreWrites objects, Act.each (partRestore r) (List.range 64),
        Act.each (fun k => .prim (.reg .UPD_LIVE k 0 (BitVec.ofNat 64 (fieldAt r (0x40 + 8 * k) 8)))) (List.range 4),
        .ask fun s => pkgWrite (manifestAddr s) (slice r 0x80 64), counterRestore r,
        setF SHD_LASTSEC.STEP (fieldAt r 0x30 8), updShd fun x => { x with records := fieldAt r 8 8 }, setF SHD_STAT.PHASE 3]
  | none => Act.all [evt SHD_EVT.UNRECOV, logEv .unrecoverable]

/-- An UPD of a roll-forward: it latches the step that is rolled, and leaves no item in progress (R194, R375). -/
def rollItem (step : Nat) (d : Desc) : Act :=
  let i : UpdItem := { desc := d, setv := false, set := 0 }
  .ask fun s => Act.when (!(groupEnt s (uGroup d)).frozen) (Act.all [
    updUpd fun x => { x with run := some i, wrote := false, latch := (step, getF s NUM_LSCALE.EXP (updP s), getF s SCH_ETA.ETA) },
    updRun i, updUpd fun x => { x with run := none }])

/-- One step of the roll-forward: its gradients arrive, η and the stream take the step, its UPD items run, and the groups flip as R202 would flip them (R375). -/
def rollStep (step : Nat) (writes : List (Addr × List Byte)) (items : List Desc) : Act :=
  Act.all [restoreWrites writes, computeEta step, updUpd fun x => { x with stream := streamAt step },
    Act.each (rollItem step) items,
    .ask fun s => Act.each flipGroup (pendGroups s), setF UPD_PSET.VALID 0, updShd fun x => { x with rolled := x.rolled + 1 }]

/-- A restore phase completes (Table 17-5). -/
def restoreDone (r : RestoreStep) : Act :=
  .ask fun s =>
    match getF s SHD_STAT.PHASE, r with
    | 1, .address => setF SHD_STAT.PHASE 2
    | 2, .record l => recordPhase l
    | 3, .snapshot w => .seq (restoreWrites w) (setF SHD_STAT.PHASE 4)
    | 4, .roll step w i last => .seq (rollStep step w i) (Act.when last (setF SHD_STAT.PHASE 5))
    | 5, .pipeline => Act.all [cusRestore, setF SHD_STAT.ROLE 0, setF SHD_STAT.PHASE 6]
    | 6, .answering =>
      let t := match s.shd.taking with | some x => s.now - x.2 | none => 0
      Act.all [setF SHD_STAT.PHASE 0, setF SHD_TAKE.MS (min (2 ^ 32 - 1) (t / 4000000)), setF SHD_TAKE.STEPS (min (2 ^ 32 - 1) s.shd.rolled),
        updShd fun x => { x with taking := none }, Act.when (decide (2 * oneSecond < t)) (logEv .takeoverLate)]
    | _, _ => .skip
def execRestorePhaseDone (r : RestoreStep) (s : State) : Host.Outcome State Fault Refusal := .next (run (restoreDone r) s)

end Sys2Proof.Machine
end

