-- ==== Sys2Proof/Machine/Vector.lean ====
section
/-! DEFINITION. The vector engine: element operations, reductions, transcendental operations, OUT, SPILL, FREE and WIN, completion and RESUME (R164 to R180, R187, R188). An item reads its operands and writes its result when it starts; its SIG, its freeing of a bank and its report come with its completion. -/

namespace Sys2Proof.Machine

/-! Element operations (Table 7-1, R174). -/

/-- The exact result of an element operation and its NV flag. -/
def elemExact (o : Nat) (sexp : Int) (a b c : FV) : FV × Nat :=
  match o with
  | 0x40 => FV.sum [a, b]
  | 0x41 => FV.sum [a, b.neg]
  | 0x42 => FV.mul a b
  | 0x43 => FV.fma c a b
  | 0x44 => (FV.max a b, 0)
  | 0x45 => (FV.min a b, 0)
  | 0x46 => (a.abs, 0)
  | 0x47 => (a.neg, 0)
  | 0x48 => (if a.gt b then c else FV.zero, 0)
  | _ => (a.scale sexp, 0)

/-- The odd part of a significand is 1: the value is a power of two. -/
def FV.isPow2 : FV → Bool
  | .fin _ m _ => decide (m ≠ 0) && decide (m = 2 ^ Nat.log2 m)
  | _ => false

/-- The special value Table 7-3 gives, a NaN operand included (R175). -/
def transcSpecial (o : Nat) (a : FV) : Option FV :=
  match o, a with
  | _, .nan => some .nan
  | 0x50, .inf n => some (if n then FV.zero else .inf false)
  | 0x51, .inf n => some (if n then .nan else .inf false)
  | 0x52, .inf n => some (.fin n 0 0)
  | 0x53, .inf n => some (if n then .nan else FV.zero)
  | 0x54, .inf n => some (if n then .nan else .inf false)
  | _, .inf n => some (.fin n 1 0)
  | 0x50, .fin _ m _ => if m = 0 then some FV.one else none
  | 0x51, .fin n m _ => if m = 0 then some (.inf true) else if n then some .nan else none
  | 0x52, .fin n m _ => if m = 0 then some (.inf n) else none
  | 0x53, .fin n m _ => if m = 0 then some (.inf n) else if n then some .nan else none
  | 0x54, .fin n m _ => if m = 0 then some (.fin n 0 0) else if n then some .nan else none
  | _, .fin n m _ => if m = 0 then some (.fin n 0 0) else none

/-- The value of a transcendental operation on a finite operand to far more bits than any format holds, and whether it is exact. -/
def transcValue (o : Nat) (a : FV) : FV × Bool :=
  match o with
  | 0x50 => (exp2Approx a, a.toFx % ((2 ^ fxP : Nat) : Int) = 0)
  | 0x51 => (log2Approx a, a.isPow2)
  | 0x52 => (FV.div .one a, a.isPow2)
  | 0x53 => (FV.div .one (FV.sqrt a), a.isPow2 && a.ilog % 2 = 0)
  | 0x54 =>
    let r := FV.sqrt a
    (r, match r with | .fin _ m _ => m % 2 = 0 | _ => true)
  | _ => (tanhApprox a, false)

/-- The result of an element in DFMT with its flags: one rounding, after the loss scale where LSC asks for it (R173 to R175). `pick` chooses a transcendental result inside its bound. -/
def elemResult (pick : Nat) (d : Desc) (lscale : Nat) (a b c : FV) : Nat × Nat :=
  let o := dOpcode d
  let k : Int := if vLsc d then lscale else 0
  if 0x50 ≤ o && o ≤ 0x55 then
    match fpOf (dDfmt d) with
    | none => (0, 0)
    | some f =>
      match transcSpecial o a with
      | some v => f.round none (v.scale k)
      | none =>
        let r := transcValue o a
        f.transc pick (r.1.scale k) (if r.2 then some (r.1.scale k) else none)
  else
    let x := elemExact o (vSexp d) a b c
    let y := toFmt (dDfmt d) (isIntCode (dSfmta d)) (dOvm d) none (x.1.scale k)
    (y.1, y.2 ||| x.2)

/-- The active elements in the order n = 32 × i + j. -/
def activeElems (rows cols : Nat) : List (Nat × Nat) := (List.range rows).flatMap fun i => (List.range cols).map fun j => (i, j)

/-- The elements an item of opcodes 0x40 to 0x5A writes, with their encodings and flags (R172). -/
def elemWrites (pick : Nat → Nat) (t : Tile) (r : RunItem) : List (Nat × Nat × Nat) :=
  let d := r.desc
  let o := dOpcode d
  let rows := vMrows d
  let cols := vNcols d
  let k : Int := if vLsc d then r.lscale else 0
  let red := fun (v : FV × Nat) =>
    let y := toFmt (dDfmt d) (isIntCode (dSfmta d)) (dOvm d) none (v.1.scale k)
    (y.1, y.2 ||| v.2)
  let a := fun i j => srcA pick t d (32 * i + j)
  if o = 0x58 || o = 0x59 then
    (List.range rows).flatMap fun i =>
      let l := (List.range cols).map fun j => a i j
      let v := if o = 0x58 then FV.sum l else (l.tail.foldl FV.max (l.headD FV.zero), 0)
      (32 * i, red v) :: (List.range 31).map fun j => (32 * i + j + 1, 0, 0)
  else if o = 0x5A then
    (List.range cols).flatMap fun j =>
      let l := (List.range rows).map fun i => a i j
      (j, red (FV.sum l)) :: (List.range 31).map fun i => (32 * (i + 1) + j, 0, 0)
  else
    (activeElems rows cols).map fun e =>
      let n := 32 * e.1 + e.2
      (n, elemResult (pick (65536 + n)) d r.lscale (a e.1 e.2)
        (if readsB o then srcBC pick t d (vSrcb d) (vBmode d) e.1 e.2 else FV.zero)
        (if readsC o then srcBC pick t d (vSrcc d) (vCmode d) e.1 e.2 else FV.zero))

/-- Buffers with elements written into one of them in a format (R165). -/
def writeElems (m : FMap Byte) (buf fmt : Nat) (ws : List (Nat × Nat × Nat)) : FMap Byte :=
  ws.foldl (fun acc w => putElem acc (0x1000 * buf) (fmtWidth fmt) w.1 w.2.1) m

/-- The bytes of a range that a write changed, with their old values (R93, R166). -/
def diffBytes (old new : FMap Byte) (base len : Nat) : FMap Byte :=
  (List.range len).filterMap fun k =>
    if Cells.get 0 old (base + k) = Cells.get 0 new (base + k) then none else some (base + k, Cells.get 0 old (base + k))

/-! The start and the completion of a vector item. -/

/-- The issue interval of an item (Table 7-4); the BF16 lanes serve an item whose every format is BF16. -/
def issueInterval (d : Desc) : Nat :=
  let o := dOpcode d
  let bf := dSfmta d = 0x7 && (o = 0x70 && wMode d ≠ 0 || !(readsB o || o = 0x70) || dSfmtb d = 0x7) && dDfmt d = 0x7
  if o ≤ 0x49 then (if bf then 1 else 2)
  else if o ≤ 0x55 then (if bf then 4 else 8)
  else if o ≤ 0x5A then (if bf then 2 else 4)
  else if o = 0x60 then 2
  else if o = 0x61 then 4
  else if o = 0x62 then 1
  else (if bf then 1 else 2) * wTaps d * 2 ^ wGsz d

/-- The place of a COPY's destination that takes byte `k` of row `i`. -/
def copyDst (d : Desc) (i k : Nat) : Nat := addrPlace d 0x18 + i * cDstride d + k

/-- The bytes of a COPY from the buffers whose source bytes a write changed: where each goes, and its new value (R166). -/
def copyChanged (new : FMap Byte) (old : FMap Byte) (d : Desc) : List (Nat × Byte) :=
  if dOpcode d = 0x80 && addrSpace d 0x10 = 2 then
    old.flatMap fun e => (List.range (cRows d)).filterMap fun i =>
      let lo := addrPlace d 0x10 + i * cSstride d
      if lo ≤ e.1 && e.1 < lo + cRowbytes d then some (copyDst d i (e.1 - lo), Cells.get 0 new e.1) else none
  else []

/-- The old values of the bytes that the vector item started last has overwritten. -/
def lastOld (s : State) (u : Nat) : FMap Byte :=
  match (getTile s u).vx.run.getLast? with
  | some r => r.oldBuf
  | none => []

/-- A COPY from the buffers is in progress on a tile. -/
def copyReadsBufs (t : Tile) : Bool := t.dma.run.any fun r => dOpcode r.desc = 0x80 && addrSpace r.desc 0x10 = 2

/-- The bytes that a write into the buffers may change in the destination of a COPY in progress: an open value says of each whether the COPY read it after the write (R166). -/
def blurCopy (u : Nat) (new old : FMap Byte) : Act :=
  withFree fun pick => .ask fun s => Act.each (fun (r : RunItem) =>
    let d := r.desc
    let hit := (copyChanged new old d).filter fun e => pick (2 ^ 52 + e.1) % 2 = 1
    match addrSpace d 0x18 with
    | 0 => Act.each (fun e => mapWrite { cc := dCc d, part := tilePart s u, layer := dLayer d, unit := some u } false e.1 [e.2]) hit
    | 1 => updTile u fun t =>
      { t with
        op := hit.foldl (fun m e => Cells.put 0 m e.1 e.2) t.op
        mx := { t.mx with run := t.mx.run.map fun x => { x with mix := addOld x.mix (hit.map fun e => (e.1, Cells.get 0 t.op e.1)) } } }
    | _ => updTile u fun t => { t with bufs := hit.foldl (fun m e => Cells.put 0 m e.1 e.2) t.bufs }) (getTile s u).dma.run

/-- A vector item starts with its effect on the buffers and its flags (R166, R180). `extra` is what the item does beyond them. -/
def vecStart (u : Nat) (r : RunItem) (bufs : FMap Byte) (dst len fl : Nat) (extra : Act) : Act :=
  Act.all [.ask fun s => passBegin (tilePart s u) r.desc, traceItem u 1 r.desc, setF VX_STAT.ITEM (dItem r.desc) u,
    updEng u .vx fun e => { e with queue := e.queue.drop 1 }, extra,
    updTile u fun t => { t with bufs := bufs, vx := { t.vx with run := t.vx.run ++
      [{ r with flags := fl, oldBuf := diffBytes t.bufs bufs (0x1000 * dst) len }] } },
    .ask fun s => Act.when (!(getTile s u).dma.run.isEmpty && !(lastOld s u).isEmpty) (blurCopy u (getTile s u).bufs (lastOld s u)),
    orFlags .VX_FLAGS u (dCc r.desc) fl, addF VX_BUSYCYC.COUNT (issueInterval r.desc) u]

/-- An item of opcodes 0x40 to 0x5A. -/
def elemStart (u : Nat) (d : Desc) : Act :=
  withFree fun pick => .ask fun s =>
    let t := getTile s u
    let r := startRec s u d
    let ws := elemWrites pick t r
    vecStart u r (writeElems t.bufs (vDst d) (dDfmt d) ws) (vDst d) 4096 (orAll (ws.map fun w => w.2.2)) .skip

/-- What SPILL writes: S of every element and then E, or zeros where the bank holds integers (R179). -/
def spillImage (b : Bank) : List Byte :=
  let half := fun (get : Nat → Nat) => (List.range 1024).flatMap fun n => natLe (get n) 4
  half (fun n => Cells.get 0 b.s n) ++ half (fun n => if b.kind = some true then 0 else Cells.get 0 b.e n)

/-- The bank a SPILL reads. -/
def spilled (t : Tile) (d : Desc) : Bank := t.bank ((srcBank d).getD 0)

/-- SPILL: S and E, or the sums and zeros, into the buffer pair (R179). -/
def spillStart (u : Nat) (d : Desc) : Act :=
  .ask fun s =>
    vecStart u (startRec s u d) (putBytes (getTile s u).bufs [(0x1000 * vDst d, spillImage (spilled (getTile s u) d))]) (vDst d) 8192 0 .skip

/-- FREE reads nothing; its bank is freed when it completes (R171). -/
def freeStart (u : Nat) (d : Desc) : Act :=
  .ask fun s => vecStart u (startRec s u d) (getTile s u).bufs 0 0 0 .skip

/-! OUT (R126, R141, R149, R150, R173, R176 to R178). -/

/-- The byte and bit of a row in the drop bitmap of a step's half, where it lies within the bitmap (R149, R150). -/
def dropSlot (s : State) (p step row : Nat) : Option (Nat × Nat) :=
  let rows := getF s NUM_DROP.ROWS p
  if row < 64 * rows then some (getF s NUM_DROP.ADDR p * 64 + step % 2 * (8 * rows) + row / 8, row % 8) else none

/-- A row of OUT is marked in the drop bitmap. -/
def rowMarked (s : State) (p step : Nat) (d : Desc) (i : Nat) : Bool :=
  if vRowbase d = 0xFFFF_FFFF then false
  else
    match dropSlot s p step (vRowbase d + i) with
    | some (a, k) => (readByte s a).getLsbD k
    | none => false

/-- An element of OUT: its value before its own scale, its encoding, flags, and whether it was dropped. -/
structure OutElem where
  n : Nat
  row : Nat
  x : FV
  bits : Nat
  fl : Nat
  dropped : Bool
deriving DecidableEq, Repr

/-- The elements of an OUT in order, with draw m for the m-th active one (R176, R177). -/
def outElems (pick : Nat → Nat) (s : State) (t : Tile) (p : Nat) (r : RunItem) (draws : List Nat) : List OutElem :=
  let d := r.desc
  (activeElems (vMrows d) (vNcols d)).zipIdx.map fun e =>
    let n := 32 * e.1.1 + e.1.2
    if rowMarked s p r.step d e.1.1 then { n := n, row := e.1.1, x := FV.zero, bits := 0, fl := 0, dropped := true }
    else
      let v := srcA pick t d n
      let x := v.scale (if vLsc d then (r.lscale : Int) else 0)
      let y := toFmt (dDfmt d) (isIntCode (dSfmta d)) (dOvm d) (if dSr d then some (draws.getD e.2 0) else none) (x.scale r.aexp)
      { n := n, row := e.1.1, x := x, bits := y.1, fl := y.2, dropped := false }

/-- An encoding of a format that is neither NaN nor infinity. -/
def isFinBits (fmt bits : Nat) : Bool := (decodeFmt fmt bits).isFin

/-- The rows of an OUT that hold a non-finite value. -/
def badRows (fmt rows : Nat) (l : List OutElem) : List Nat :=
  (List.range rows).filter fun i => l.any fun e => e.row = i && !isFinBits fmt e.bits

/-- The pass of an item, which it may be about to begin, stands at its top rung. -/
def atTop (s : State) (p : Nat) (r : RunItem) : Bool :=
  match r.pass with
  | none => false
  | some id =>
    if id = s.num.nextPass then (newPass s p (dLayer r.desc) id).top
    else
      match passOf s p (dLayer r.desc) with
      | some x => x.id = id && x.top
      | none => false

/-- A row is marked in the drop bitmap where it lies within it. -/
def markRow (p step row : Nat) : Act :=
  .ask fun s =>
    match dropSlot s p step row with
    | some (a, k) => pkgWrite a [readByte s a ||| BitVec.ofNat 8 (2 ^ k)]
    | none => .skip

/-- The zero-gradient watch sees a write-out of a layer with GRAD = 1 (R162). -/
def gradSeen (p l : Nat) (anyNonzero : Bool) : Act :=
  .prim (.num fun n =>
    let g := Cells.get (false, false) n.grads (layerKey p l)
    { n with grads := Cells.put (false, false) n.grads (layerKey p l) (true, g.2 || anyNonzero) })

/-- The draws an OUT takes from its stream, one for each active element (R177). -/
def outDraws (s : State) (u : Nat) (d : Desc) : List Nat :=
  if dSr d then
    streamDraws (streamKey s (tilePart s u)) ((Cells.get {} (getTile s u).streams (dStream d)).forStep (startRec s u d).step) u (dStream d) (vMrows d * vNcols d)
  else []

/-- The elements of an OUT at the head of a tile's vector sequencer. -/
def outParts (pick : Nat → Nat) (s : State) (u : Nat) (d : Desc) : List OutElem :=
  outElems pick s (getTile s u) (tilePart s u) (startRec s u d) (outDraws s u d)

/-- The rows of a speculative OUT that hold a non-finite value. -/
def outBad (pick : Nat → Nat) (s : State) (u : Nat) (d : Desc) : List Nat :=
  if dCc d then badRows (dDfmt d) (vMrows d) (outParts pick s u d) else []

/-- The elements an OUT writes, with their encodings and flags: a bad row of a pass at its top rung is written as zeros (R149, R176). -/
def outWrites (pick : Nat → Nat) (s : State) (u : Nat) (d : Desc) : List (Nat × Nat × Nat) :=
  (outParts pick s u d).map fun x =>
    (x.n, if atTop s (tilePart s u) (startRec s u d) && (outBad pick s u d).contains x.row then 0 else x.bits, x.fl)

/-- An OUT starts. -/
def outStart (u : Nat) (d : Desc) : Act :=
  withFree fun pick => .ask fun s =>
    let p := tilePart s u
    let r := startRec s u d
    let e := layerEnt s p (dLayer d)
    let els := outParts pick s u d
    let bad := outBad pick s u d
    let ws := outWrites pick s u d
    let rows := bad.map fun i => vRowbase d + i
    let mag := (els.filter fun x => !x.dropped && x.x.isFin).foldl (fun m x => if x.x.abs.gt m then x.x.abs else m) FV.zero
    let slot := if vTsel d = 1 then e.atens else e.btens
    vecStart u { r with nonfinite := !bad.isEmpty, rows := rows } (writeElems (getTile s u).bufs (vDst d) (dDfmt d) ws) (vDst d) 4096
      (orAll (ws.map fun w => w.2.2))
      (Act.all [Act.when (dSr d) (takeBlocks u (dStream d) r.step (vMrows d * vNcols d)),
        Act.when (e.valid && e.scale && vTsel d ≠ 0 && isFpCode (dDfmt d)) (amaxReport p slot mag),
        Act.when (e.valid && e.grad) (gradSeen p (dLayer d) (ws.any fun w => bitsOf w.2.1 0 (fmtWidth (dDfmt d) - (if isFpCode (dDfmt d) then 1 else 0)) ≠ 0)),
        Act.when (atTop s p r && vRowbase d ≠ 0xFFFF_FFFF) (Act.each (fun row => markRow p r.step row) rows)])

/-! WIN (R187). -/

/-- Element (row, channel) of the window line: a 64 × 32 array in SFMTA (R185). -/
def lineElem (pick : Nat → Nat) (t : Tile) (d : Desc) (row ch : Nat) : FV :=
  decodeFmt (dSfmta d) (packedElem (fun k => bufByte pick t (0x1000 * wLine d + k)) (fmtWidth (dSfmta d)) (32 * row + ch))

/-- One tap pass of one element: the destination's encoding and the flags so far. -/
def winTap (pick : Nat → Nat) (t : Tile) (d : Desc) (i j tap c : Nat) (acc : Nat × Nat) : Nat × Nat :=
  let g := 2 ^ wGsz d
  let x := lineElem pick t d (i * wStride d + tap * wDil d) (j - j % g + c)
  let cur := decodeFmt (dDfmt d) acc.1
  let v :=
    match wMode d with
    | 0 => FV.fma cur x (bufElem pick t (wWbuf d) (dSfmtb d) (32 * (wWrow d + tap * g + c) + j))
    | 1 => (FV.max cur x, 0)
    | _ => FV.sum [cur, x]
  let y := toFmt (dDfmt d) false false none v.1
  (y.1, acc.2 ||| y.2 ||| v.2)

/-- The start value of an element: the destination, or +0, or -infinity for MAX. -/
def winInitBits (pick : Nat → Nat) (t : Tile) (d : Desc) (i j : Nat) : Nat :=
  if !wInit d then packedElem (fun k => bufByte pick t (0x1000 * wDst d + k)) (fmtWidth (dDfmt d)) (32 * i + j)
  else if wMode d = 1 then
    match fpOf (dDfmt d) with
    | some f => (f.ofInf true).1
    | none => 0
  else 0

/-- The elements a window pass writes, with their encodings and flags (R187). -/
def winWrites (pick : Nat → Nat) (t : Tile) (d : Desc) : List (Nat × Nat × Nat) :=
  (activeElems (wMrows d) (wNcols d)).map fun e =>
    let r := (List.range (wTaps d)).foldl (fun a tap => (List.range (2 ^ wGsz d)).foldl (fun b c => winTap pick t d e.1 e.2 tap c b) a)
      (winInitBits pick t d e.1 e.2, 0)
    (32 * e.1 + e.2, r.1, r.2)

/-- A window pass starts. -/
def winStart (u : Nat) (d : Desc) : Act :=
  withFree fun pick => .ask fun s =>
    let ws := winWrites pick (getTile s u) d
    vecStart u (startRec s u d) (writeElems (getTile s u).bufs (wDst d) (dDfmt d) ws) (wDst d) 4096 (orAll (ws.map fun w => w.2.2)) .skip

/-! Commands. -/

/-- The start of an item by its opcode. -/
def vecBegin (u : Nat) (d : Desc) : Act :=
  match dOpcode d with
  | 0x60 => outStart u d
  | 0x61 => spillStart u d
  | 0x62 => freeStart u d
  | 0x70 => winStart u d
  | _ => elemStart u d

/-- The wait of a vector item for its bank to be FULL is met (R171). -/
def vecBankReady (t : Tile) (d : Desc) : Bool :=
  match vecBank d with
  | some b => decide ((t.bank b).st = .full)
  | none => true

/-- The head item of the vector sequencer, where its opcode is `o` or a reserved one: it waits, faults or starts (R91, R171, R188). -/
def vecItem (u o : Nat) : Act :=
  .ask fun s =>
    match headItem s u .vx with
    | none => .skip
    | some d =>
      if !(dOpcode d = o || !isVecOp (dOpcode d)) || !waitMet s u d || !vecBankReady (getTile s u) d then .skip
      else
        let code := vxFaultCode d fun b => (getTile s u).bank b
        if code ≠ 0 then itemFault u .vx .VX_FAULT .vxFault d code else vecBegin u d

def execAdd (u : Fin 512) (s : State) : Host.Outcome State Fault Refusal := .next (run (vecItem u 0x40) s)
def execSub (u : Fin 512) (s : State) : Host.Outcome State Fault Refusal := .next (run (vecItem u 0x41) s)
def execMul (u : Fin 512) (s : State) : Host.Outcome State Fault Refusal := .next (run (vecItem u 0x42) s)
def execFma (u : Fin 512) (s : State) : Host.Outcome State Fault Refusal := .next (run (vecItem u 0x43) s)
def execMax (u : Fin 512) (s : State) : Host.Outcome State Fault Refusal := .next (run (vecItem u 0x44) s)
def execMin (u : Fin 512) (s : State) : Host.Outcome State Fault Refusal := .next (run (vecItem u 0x45) s)
def execAbs (u : Fin 512) (s : State) : Host.Outcome State Fault Refusal := .next (run (vecItem u 0x46) s)
def execNeg (u : Fin 512) (s : State) : Host.Outcome State Fault Refusal := .next (run (vecItem u 0x47) s)
def execSelgt (u : Fin 512) (s : State) : Host.Outcome State Fault Refusal := .next (run (vecItem u 0x48) s)
def execCvt (u : Fin 512) (s : State) : Host.Outcome State Fault Refusal := .next (run (vecItem u 0x49) s)
def execExp2 (u : Fin 512) (s : State) : Host.Outcome State Fault Refusal := .next (run (vecItem u 0x50) s)
def execLog2 (u : Fin 512) (s : State) : Host.Outcome State Fault Refusal := .next (run (vecItem u 0x51) s)
def execRecip (u : Fin 512) (s : State) : Host.Outcome State Fault Refusal := .next (run (vecItem u 0x52) s)
def execRsqrt (u : Fin 512) (s : State) : Host.Outcome State Fault Refusal := .next (run (vecItem u 0x53) s)
def execSqrt (u : Fin 512) (s : State) : Host.Outcome State Fault Refusal := .next (run (vecItem u 0x54) s)
def execTanh (u : Fin 512) (s : State) : Host.Outcome State Fault Refusal := .next (run (vecItem u 0x55) s)
def execRsum (u : Fin 512) (s : State) : Host.Outcome State Fault Refusal := .next (run (vecItem u 0x58) s)
def execRmax (u : Fin 512) (s : State) : Host.Outcome State Fault Refusal := .next (run (vecItem u 0x59) s)
def execCsum (u : Fin 512) (s : State) : Host.Outcome State Fault Refusal := .next (run (vecItem u 0x5A) s)
def execOut (u : Fin 512) (s : State) : Host.Outcome State Fault Refusal := .next (run (vecItem u 0x60) s)
def execSpill (u : Fin 512) (s : State) : Host.Outcome State Fault Refusal := .next (run (vecItem u 0x61) s)
def execFree (u : Fin 512) (s : State) : Host.Outcome State Fault Refusal := .next (run (vecItem u 0x62) s)
def execWin (u : Fin 512) (s : State) : Host.Outcome State Fault Refusal := .next (run (vecItem u 0x70) s)

/-- A FULL bank becomes FREE (Table 4-6). -/
def freeBank (u b : Nat) : Act := updTile u fun t => if (t.bank b).st = .full then t.withBank b { t.bank b with st := .free } else t

/-- The bank a completed item frees: named by SRCA, with CTL.FREE or by a FREE item (R171). -/
def freesBank (d : Desc) : Option Nat := if vFree d || dOpcode d = 0x62 then vecBank d else none

/-- The oldest vector item in progress completes: its bank is freed where it asks, its SIG applies, it reports (R144, R171). -/
def vecComplete (u : Nat) : Act :=
  .ask fun s =>
    match (getTile s u).vx.run with
    | [] => .skip
    | r :: rest =>
      Act.all [updEng u .vx fun e => { e with run := rest },
        (match freesBank r.desc with | some b => freeBank u b | none => .skip),
        addF VX_ITEMS.COUNT 1 u, signal u r.desc, completionReport u r, traceItem u 2 r.desc]

def execVxItemComplete (u : Fin 512) (s : State) : Host.Outcome State Fault Refusal := .next (run (clocked u (vecComplete u)) s)

/-- VX_CTL.RESUME: a FULL bank the faulting item would have freed becomes FREE (R109, R188). -/
def vxResume (u : Nat) : Act :=
  resumeItem u .vx (addF VX_ITEMS.COUNT 1 u) fun d =>
    .seq (lastItem u .vx VX_STAT.ITEM d) (match freesBank d with | some b => freeBank u b | none => .skip)

def execVxCtlResume (u : Fin 512) (s : State) : Host.Outcome State Fault Refusal := .next (run (vxResume u) s)

end Sys2Proof.Machine
end

