-- ==== Sys2Proof/Machine/RegRead.lean ====
section
/-! DEFINITION. What a register reads as: the stored value, with the fields that reflect live state formed at the access (R5, R7). -/

namespace Sys2Proof.Machine

/-- A value with fields replaced. -/
def withFs (v : W64) (l : List (Fld × Nat)) : W64 := l.foldl (fun v e => withF v e.1 e.2) v

/-- BANKA and BANKB of MX_STAT. -/
def BankState.code : BankState → Nat
  | .free => 0
  | .filling => 1
  | .held => 2
  | .full => 3

/-- LIFE of SEC_STAT. -/
def Life.code : Life → Nat
  | .fab => 0
  | .prov => 1
  | .field => 2
  | .ret => 3

/-- What the head item of an engine waits for: a sync counter, then a bank. -/
def headWait (s : State) (u : Nat) (k : Eng) (ready : Desc → Bool) : Bool × Bool :=
  let e := (getTile s u).eng k
  match e.halted, e.queue with
  | none, d :: _ => (!waitMet s u d, waitMet s u d && !ready d)
  | _, _ => (false, false)

/-- The matrix engine's waits, the vector engine's, the DMA's. -/
def mxWaits (s : State) (u : Nat) : Bool × Bool := headWait s u .mx fun d => decide (dOpcode d = 0) || bankReady (getTile s u) d
def vxWaits (s : State) (u : Nat) : Bool × Bool := headWait s u .vx fun d => vecBankReady (getTile s u) d
def dmaWaits (s : State) (u : Nat) : Bool × Bool := headWait s u .dma fun _ => true

/-- A unit is stalled on a tier (R242). -/
def stalled (s : State) (u : Nat) : Bool := (unitStalled s u).isSome

/-- The update engine's head item waits on a sync counter; or on a pending set or a delayed flip. -/
def updWaits (s : State) : Bool × Bool :=
  match s.upd.halted, s.upd.run, s.upd.queue with
  | none, none, i :: _ =>
    let ok := !dWaitv i.desc || decide (dWaitval i.desc ≤ Cells.get 0 s.upd.sync (dWaitctr i.desc))
    (!ok, ok && ((dOpcode i.desc = 0xC0 && updWaitsPend s i) || (dOpcode i.desc = 0xC1 && copyWaitsFlip s i)))
  | _, _, _ => (false, false)

/-- PASS of a factored UPD in progress; which of its passes runs is open (log 4): a tensor of one row or one column runs passes 2 and 3 only (R199). -/
def updPass (s : State) : Nat :=
  match s.upd.run with
  | some i =>
    if dOpcode i.desc = 0xC0 && (groupEnt s (uGroup i.desc)).factored then
      (if uFullV i.desc then 2 + Config.freeValue s.free 0 % 2 else 1 + Config.freeValue s.free 0 % 3)
    else 0
  | none => 0

/-! The events of R389 (RST_HIST, INWIN). -/

/-- The events within the last WINDOW seconds. -/
def eventsInWindow (s : State) : Nat :=
  (s.rst.events.filter fun e => decide (taiNow s ≤ e.2 + getF s RST_ESC.WINDOW * 1000000000)).length

/-! Security (R416 to R419, R425, R426). -/

/-- The package has an identity in this boot (R417). -/
def hasIdentity (s : State) : Bool := !s.sec.idKey.isEmpty

/-- The stored endorsement verifies under the enrolled owner key against the identity key and IDREV (R346, R419). -/
def isEndorsed (s : State) : Bool :=
  match s.sec.ownerHash with
  | some k => hasIdentity s && !s.sec.endorsement.isEmpty && Config.mldsaVerify k (endorsed s.sec.idKey (getReg s .IDREV 0 0)) s.sec.endorsement
  | none => false

/-- A debug session's hidden state: 0 the TAP path, 1 the in-band path. -/
def debugSt (s : State) (p : Nat) : DebugSt := if p = 0 then s.sec.tap else s.sec.inband

/-- REMAIN of an open session: nominal seconds left, rounded up (R425). -/
def remainNow (s : State) (p : Nat) : Nat :=
  match (debugSt s p).ends with
  | some t => (t - s.now + 3999999999) / 4000000000
  | none => if getF s DBG_SESS.LEVEL p = 0 then 0 else 0xFFFF_FFFF

/-- A core is halted by a session. -/
def coreHalted (s : State) (c : Nat) : Bool := s.sec.tap.halted.contains c || s.sec.inband.halted.contains c

/-- Eight bytes of a digest. -/
def digestWord (d : List Byte) (k : Nat) : W64 := BitVec.ofNat 64 (fieldAt d (8 * k) 8)

/-! Clocks (R15). -/

/-- The clock of a compute die in MHz: its power state's, none in TP or DD, behind its limiter, without its clock or with its PLLs in reset (Tables 1-8 and 18-1, R328, R329). -/
def dieMHz (s : State) (d : Nat) : Nat :=
  if s.en.limited.contains d || s.en.critical.contains d || s.rst.clkLost.contains (d + 2) || s.rst.held.contains (d + 2) then 0
  else match getF s EN_STATE.PSTATE d with
    | 0 => 4000
    | 1 => 3200
    | 2 => 2000
    | _ => 0

/-- An edge's forwarded clocks have locked: it is in service, or its receivers have gone past the lock (R279). -/
def edgeLocked (s : State) (e : Nat) : Bool := edgeUp s e || (edgeSt s e).confirming || (edgeSt s e).mapAB.isSome || (edgeSt s e).mapBA.isSome

/-- Domain `n` of Table 1-8 runs locked; in SB the harbourmaster's, the always-on, the debug and the board interface's domains alone do (R332, R334). -/
def clockRuns (s : State) (n : Nat) : Bool :=
  !s.rst.clkLost.contains n && (s.en.sb ≠ .standby || [20, 21, 22, 23].contains n) &&
  (if 2 ≤ n && n ≤ 5 then decide (dieMHz s (n - 2) ≠ 0)
   else if 6 ≤ n && n ≤ 13 then edgeLocked s (n - 6)
   else if n = 14 then !s.en.critical.contains 4
   else if n = 19 then !(List.range 4).any fun d => s.rst.held.contains (d + 2)
   else true)

/-! The value an access returns. -/

/-- A register as it reads, but for the clearing of an RC field. Codes of the logbook are read through its own tallies (R406, R410). -/
def regValue (s : State) (r : RegName) (i j : Nat) : W64 :=
  let v := getReg s r i j
  match r with
  | .CHART_STAT => withF v CHART_STAT.SEALED (b2n (theChart s).sealed)
  | .CHART_MINSERIAL => s.floor
  | .TILE_STAT =>
    let t := getTile s i
    withFs v [(TILE_STAT.PART, (partOfUnit s i).getD 0xFF), (TILE_STAT.ROLE, (theChart s).role i), (TILE_STAT.DMABUSY, b2n !t.dma.run.isEmpty),
      (TILE_STAT.VXBUSY, b2n !t.vx.run.isEmpty), (TILE_STAT.MXBUSY, b2n !t.mx.run.isEmpty)]
  | .MX_STAT =>
    let t := getTile s i
    withFs v [(MX_STAT.HALT, b2n t.mx.halted.isSome), (MX_STAT.WAITSYNC, b2n (mxWaits s i).1), (MX_STAT.WAITBANK, b2n (mxWaits s i).2),
      (MX_STAT.BANKB, t.bankB.st.code), (MX_STAT.BANKA, t.bankA.st.code)]
  | .VX_STAT =>
    let t := getTile s i
    withFs v [(VX_STAT.HALT, b2n t.vx.halted.isSome), (VX_STAT.WAITSYNC, b2n (vxWaits s i).1), (VX_STAT.WAITBANK, b2n (vxWaits s i).2),
      (VX_STAT.WATCH, b2n (t.samples.any fun x => x.running))]
  | .VX_DMA_STAT =>
    let t := getTile s i
    withFs v [(VX_DMA_STAT.HALT, b2n t.dma.halted.isSome), (VX_DMA_STAT.WAITSYNC, b2n (dmaWaits s i).1), (VX_DMA_STAT.WAITTIER, b2n (stalled s i)),
      (VX_DMA_STAT.DEFER, b2n t.defer)]
  | .UPD_STAT =>
    withFs v [(UPD_STAT.HALT, b2n s.upd.halted.isSome), (UPD_STAT.PASS, updPass s), (UPD_STAT.WAITSYNC, b2n (updWaits s).1),
      (UPD_STAT.WAITPEND, b2n (updWaits s).2), (UPD_STAT.BUSY, b2n s.upd.run.isSome)]
  | .CUS_STAT => withFs v [(CUS_STAT.EMITTED, emittedNow s), (CUS_STAT.OCCUPIED, s.cus.win.length)]
  | .COH_STAT => withF v COH_STAT.DEPARTING (s.coh.agents.filter fun e => e.2.departing).length
  | .COH_MEMBT => BitVec.ofNat 64 (chartF s 5 (8 * i) 8)
  | .COH_MEMBH => BitVec.ofNat 64 (chartF s 5 (0x40 + 8 * i) 8)
  | .COH_MEMBD => BitVec.ofNat 64 (chartF s 5 0x50 1 % 2)
  | .LOG_STAT => withFs v [(LOG_STAT.STAGED, s.log.staged.length), (LOG_STAT.FULL, b2n s.log.full), (LOG_STAT.COUNT, s.log.count)]
  | .LOG_LOST => s.log.lost
  | .LOG_FLOODS => s.log.floods
  | .LOG_TALLY => BitVec.ofNat 64 (tallyOf s (getF s LOG_TALLYIDX.CODE) LogKind.all)
  | .LOG_RDDATA => if s.log.count ≤ getF s LOG_RDIDX.INDEX i then 0 else logReadWord s i j
  | .HM_LOAD => if getF s TIDE_COUNT.COUNT = 0 then 0 else BitVec.ofNat 64 (Config.freeValue s.free 1)
  | .HM_TIME => BitVec.ofNat 64 (taiNow s)
  | .HM_TIMESTAT => withFs v [(HM_TIMESTAT.SRC, (timeSrcNow s).code), (HM_TIMESTAT.UNCERT, uncertNow s)]
  | .RST_STAT => withFs v [(RST_STAT.INWIN, min 15 (eventsInWindow s)), (RST_STAT.HELD, b2n (s.rst.held.any fun d => d ≠ 6)), (RST_STAT.OOS, b2n s.rst.oos)]
  | .RST_HIST =>
    match s.rst.events[i]? with
    | some e => withFs 0 [(RST_HIST.CAUSE, e.1), (RST_HIST.TIME, e.2 / 1000000000)]
    | none => 0
  | .SEC_STAT => withFs v [(SEC_STAT.ENDORSED, b2n (isEndorsed s)), (SEC_STAT.OWNER, b2n s.sec.ownerHash.isSome), (SEC_STAT.IDENT, b2n (hasIdentity s)),
      (SEC_STAT.NEXTV, b2n s.sec.next.isSome), (SEC_STAT.NEXT, (s.sec.next.getD .fab).code), (SEC_STAT.LIFE, s.life.code)]
  | .SEC_ID => if hasIdentity s then digestWord (s.sec.idDigest.getD []) i else 0
  | .SEC_OWNER => digestWord (s.sec.ownerHash.getD []) i
  | .SEC_FLOOR => BitVec.ofNat 64 (if i = 0 then s.sec.hmFloor else s.sec.hostFloor)
  | .DBG_SESS => withF v DBG_SESS.REMAIN (remainNow s i)
  | .DBG_HALT => withF v DBG_HALT.HALTED (b2n (coreHalted s (getF s DBG_HALT.CORE)))
  | .CLK_LOCK => BitVec.ofNat 64 (sumNat (((List.range 25).filter fun k => clockRuns s (k + 1)).map fun k => 2 ^ k))
  | .D2D_EDGE => withF v D2D_EDGE.REV (if i < 6 then 3 else getF s IDREV.NOCREV)
  | .AGE_FCAST => withF v AGE_FCAST.HEADROOM (fieldOfInt (ageHeadroom s i) 16)
  | _ => v

/-- Bits of a register that are WO: they read as zero (R5). -/
def RegName.readMask (r : RegName) : W64 :=
  ~~~BitVec.ofNat 64 ((r.fields.filter fun f => f.acc = .wo).foldl (fun a f => a ||| f.mask) 0)

/-- What a read of a register returns. -/
def regRead (s : State) (r : RegName) (i j : Nat) : W64 := regValue s r i j &&& r.readMask

/-- A read clears the RC fields of a register (R5). -/
def readClears (r : RegName) (i j : Nat) : Act :=
  let m := BitVec.ofNat 64 ((r.fields.filter fun f => f.acc = .rc).foldl (fun a f => a ||| f.mask) 0)
  Act.when (decide (m ≠ 0)) (.ask fun s => .prim (.reg r i j (getReg s r i j &&& ~~~m)))

/-! Register space (Table 1-11). -/

/-- The blocks as base and size. -/
def regBlocks : List (Nat × Nat) :=
  [(0xF00000000000, 0x10000), (0xF00000010000, 0x10000), (0xF00000020000, 0x10000), (0xF00000030000, 0x10000), (0xF00000040000, 0x10000),
   (0xF00000100000, 0x100000), (0xF00000200000, 0x10000), (0xF00001000000, 0x1000000), (0xF00002000000, 0x10000), (0xF00002100000, 0x10000),
   (0xF00002200000, 0x10000), (0xF00002300000, 0x10000), (0xF00003000000, 0x10000), (0xF00003100000, 0x10000), (0xF00003200000, 0x10000),
   (0xF00004000000, 0x120000), (0xF00005000000, 0x10000), (0xF00005100000, 0x10000), (0xF00005200000, 0x10000), (0xF00006000000, 0x10000),
   (0xF00006100000, 0x10000), (0xF00006200000, 0x10000)]

/-- A block covers an address (R17). -/
def inBlocks (a : Nat) : Bool := regBlocks.any fun b => inRange a b

/-- The register blocks of the tiles, 32 KiB each (R110). -/
def inTiles (a : Nat) : Bool := inRange a (0xF00001000000, 0x1000000)

/-- A register block of a tile whose role under the chart in effect is off (R59, R89). -/
def tileOff (s : State) (a : Nat) : Bool := inTiles a && s.chart.cur.isSome && decide ((theChart s).role ((a - 0xF00001000000) / 0x8000) = 0)

/-- The register at an address with its indices. -/
def regAt (a : Nat) : Option (RegName × Nat × Nat) :=
  RegName.all.findSome? fun r =>
    let l := r.loc
    let d := a - l.base
    let i := if l.si = 0 then 0 else d / l.si
    let j := if l.sj = 0 then 0 else (d - i * l.si) / l.sj
    if l.base ≤ a && i < l.ni && j < l.nj && l.base + i * l.si + j * l.sj = a then some (r, i, j) else none

/-- An address register space does not answer: in no block, or a reserved offset of a tile that is not off (R17, R110, R189). -/
def regHole (s : State) (a : Nat) : Bool := !inBlocks a || (inTiles a && !tileOff s a && (regAt (a / 8 * 8)).isNone)

end Sys2Proof.Machine
end

