-- ==== Sys2Proof/Machine/Hang.lean ====
section
/-! DEFINITION. Hang snapshots, the record of resets, escalation and out of service (R385 to R390, Table 18-2). -/

namespace Sys2Proof.Machine

def updRst (f : RstSt → RstSt) : Act := .prim (.rst f)

/-! Hang snapshots (Table 18-2). -/

/-- KIND of a planned unit. -/
def unitKind (u : Nat) : Nat := if u < 512 then 0 else u - 511

/-- The status and fault registers of a unit. The copy engines and the decoder bank have none of their own (DEDUCED, log 32). -/
def snapRegs (u : Nat) : List RegName × List RegName :=
  if u < 512 then ([.MX_STAT, .VX_STAT, .VX_DMA_STAT], [.MX_FAULT, .VX_FAULT, .VX_DMA_FAULT])
  else if u = 512 then ([.UPD_STAT], [.UPD_FAULT])
  else if u = 514 then ([.CUS_STAT], [])
  else ([], [])

/-- ITEM of a sequencer's head: the item it halted on, else the first that has not started. -/
def headOf (halted : Option Desc) (queue : List Desc) : Nat :=
  match halted, queue with
  | some d, _ => dItem d
  | none, d :: _ => dItem d
  | none, [] => 0xFFFF_FFFF

/-- The heads of a unit's sequencers. -/
def unitHeads (s : State) (u : Nat) : List Nat :=
  let t := getTile s u
  if u < 512 then [headOf t.mx.halted t.mx.queue, headOf t.vx.halted t.vx.queue, headOf t.dma.halted t.dma.queue]
  else if u = 512 then [headOf (s.upd.halted.map fun i => i.desc) (s.upd.queue.map fun i => i.desc)]
  else if u = 513 then [headOf none s.tier.copyItems]
  else if u = 514 then [headOf none s.cus.cusItems]
  else [headOf none s.cus.decItems]

/-- A unit's sync counters. -/
def unitSync (s : State) (u k : Nat) : Nat :=
  if u < 512 then getF s TILE_SYNC.VALUE u k else if u = 512 then Cells.get 0 s.upd.sync k else 0

/-- Registers as bytes, then zeros up to `n` bytes. -/
def regBytes (s : State) (l : List RegName) (i n : Nat) : List Byte := fitTo n (l.flatMap fun r => w64Bytes (regRead s r i 0))

/-- The oldest read or write of another berth's memory by an item of a unit that is outstanding. -/
def unitOutstanding (s : State) (u : Nat) : Option Nat :=
  match s.tier.fetch.find? (fun f => decide (f.who = .unit u) && decide (f.ans = .due)) with
  | some f => some f.addr
  | none => s.hural.reqs.findSome? fun r => match r.job with | .put v a => if v = u then some a.toNat else none | _ => none

/-- WADDR and WCAUSE: the access that stalls with its cause, or one that is outstanding. -/
def snapWait (s : State) (u : Nat) : List Byte :=
  match unitStalled s u, unitOutstanding s u with
  | some w, _ => natLe w.addr 8 ++ natLe w.cause 1
  | none, some a => natLe a 8 ++ [0xFF]
  | none, none => natLe 0 8 ++ [0xFF]

/-- A unit's snapshot as it stands. -/
def snapLive (s : State) (u : Nat) : List Byte :=
  natLe u 2 ++ natLe (unitKind u) 1 ++ natLe (getF s RST_NOPROG.TIDES u) 1 ++ natLe 0 4 ++ natLe (getF s TIDE_COUNT.COUNT) 8 ++
  regBytes s (snapRegs u).1 (if u < 512 then u else 0) 24 ++ regBytes s (snapRegs u).2 (if u < 512 then u else 0) 24 ++
  (List.range 16).flatMap (fun k => natLe (unitSync s u k) 2) ++
  ((unitHeads s u ++ [0xFFFF_FFFF, 0xFFFF_FFFF]).take 3).flatMap (fun x => natLe x 4) ++ natLe 0 4 ++
  snapWait s u ++ natLe 0 7

/-- A unit's snapshot: frozen, or following the unit (R387). -/
def snapOf (s : State) (u : Nat) : List Byte := (Cells.look s.rst.frozen u).getD (snapLive s u)

/-- A snapshot freezes; a frozen one stays. -/
def freeze (u : Nat) : Act := .ask fun s => Act.when (Cells.look s.rst.frozen u).isNone (updRst fun r => { r with frozen := Cells.ins r.frozen u (snapLive s u) })

/-- Every unit's snapshot freezes at the detection of a collapse. -/
def freezeAll : Act := Act.each freeze (List.range 516)

/-! The record and escalation (R389, R390). -/

/-- The sessions of ports that carry no transit traffic close (DEDUCED, log 32). -/
def jobPortsClose : Act :=
  .ask fun s => Act.each (fun n => Act.when (portState s n ≠ 0 && portState s n ≠ 6 && !carriesTransit s n) (.seq (sendClose n 0) (endSession n 0 0))) (List.range 18)

/-- The package goes out of service: it is lost to its job, and the compute part stays held (R366, R390). -/
def goOut : Act :=
  .ask fun s => Act.when (!s.rst.oos) (Act.all [giveUp, updRst fun r => { r with oos := true, held := if r.held.contains 1 then r.held else 1 :: r.held }, setF SHD_STAT.ROLE 4, jobPortsClose, logEv .outOfService])

/-- The record judged against COUNT and WINDOW: at COUNT events the package goes out of service. -/
def judgeRecord : Act := .ask fun s => Act.when (getF s RST_ESC.COUNT ≠ 0 && decide (getF s RST_ESC.COUNT ≤ eventsInWindow s)) goOut

/-- A compute-part reset, a die reset or a collapse enters the record. -/
def recordEvent (cause : Nat) : Act :=
  .seq (.ask fun s => updRst fun r => { r with events := (cause, taiNow s) :: r.events }) judgeRecord

end Sys2Proof.Machine
end

