-- ==== Sys2Proof/Machine/Debug.lean ====
section
/-! DEFINITION. Debug sessions: tokens, levels, halts and ends (R422 to R426). The reach of a level over registers and memory stands in Machine/Access.lean. -/

namespace Sys2Proof.Machine

def updSec (f : SecSt → SecSt) : Act := .prim (.sec f)

/-- Update of a path's session: 0 the TAP path, 1 the in-band path. -/
def updDebug (p : Nat) (f : DebugSt → DebugSt) : Act := updSec fun x => if p = 0 then { x with tap := f x.tap } else { x with inband := f x.inband }

/-- The level of a path's session. -/
def sessLevel (s : State) (p : Nat) : Nat := getF s DBG_SESS.LEVEL p

/-- A session ends: its halted cores resume, ENDED is set and logged (R426). -/
def sessionEnd (p reason : Nat) : Act :=
  .ask fun s => Act.when (decide (sessLevel s p ≠ 0)) (Act.all [setF DBG_SESS.LEVEL 0 p, setF DBG_SESS.REASON reason p,
    updDebug p fun _ => {}, evt DBG_EVT.ENDED, logEv .sessionEnded (data := [reason])])

/-- Table 20-4: a token is needed in FIELD and RETURN. -/
def needsToken (s : State) : Bool := s.life = .field || s.life = .ret

/-- The level that Table 20-4 and the chart's DEBUG section allow (R69). -/
def levelAllowed (s : State) : Nat :=
  match s.life with
  | .fab => 2
  | .prov => chartF s 0xC 0 1
  | .field => chartF s 0xC 1 1
  | .ret => 2

/-- The chart's DEBUG.JTAG admits the TAP path; FAB and RETURN need no flag (R422). -/
def jtagOpen (s : State) : Bool := s.life = .fab || s.life = .ret || bitOf (chartF s 0xC 2 1) 1

/-- Bytes of a debug token (Table 20-6). -/
def tokenBytes : Nat := 0xA18

/-- The time check of R425. -/
def tokenTimeOk (s : State) (t : List Byte) : Bool :=
  decide (timeSrcNow s ≠ .unknown) && decide (fieldAt t 0x50 8 + uncertNow s ≤ taiNow s) && decide (taiNow s + uncertNow s ≤ fieldAt t 0x58 8)

/-- No case of R424 refuses a token on path `p`. -/
def tokenOk (s : State) (p : Nat) (t : List Byte) : Bool :=
  decide (fieldAt t 0 4 = 0x4E4B4F54) && decide (sha3_256 (t.take 0x80) = slice t 0x80 32) && decide (slice t 0x30 32 = ownerKey s) &&
  Config.mldsaVerify (ownerKey s) (slice t 0x80 32) (slice t 0xA0 2420) &&
  decide (fieldAt t 8 8 = (getReg s .IDREV 0 0).toNat) && decide (some (slice t 0x10 32) = s.sec.idDigest) &&
  bitOf (fieldAt t 5 1) p && tokenTimeOk s t && hasIdentity s

/-- A refusal: REFUSED, REASON 6 and a record. -/
def tokenRefuse (p : Nat) : Act := Act.all [evt DBG_EVT.REFUSED, setF DBG_SESS.REASON 6 p, logEv .tokenRefused]

/-- When a session that a token limits ends: after REMAIN × (1 - 50 ppm) from now (R425). -/
def sessionEnds (s : State) (t : List Byte) : Nat := s.now + 4 * (fieldAt t 0x58 8 - (taiNow s + uncertNow s)) * 999950 / 1000000

/-- A session opens at a level; one that is open on the path closes first (log 34). The record gives the token's SERIAL where a token was needed. -/
def sessionGrant (p level : Nat) (ends serial : Option Nat) : Act :=
  Act.all [sessionEnd p 1, setF DBG_SESS.LEVEL level p, modF DBG_SESS.MAX (fun m => max m level) p, updDebug p fun _ => { ends := ends },
    evt DBG_EVT.OPENED, logEv .sessionOpened (data := serial.toList)]

/-- An opening on path `p` with a level requested: the lowest of the level requested, the token's and the level allowed; a level of 0 opens nothing (R424, log 34). -/
def sessionOpen (p want : Nat) (t : List Byte) : Act :=
  .ask fun s =>
    let level := min want (min (levelAllowed s) (if needsToken s then fieldAt t 4 1 else 2))
    if want = 0 || want = 3 || level = 0 || (p = 0 && !jtagOpen s) || (needsToken s && !tokenOk s p t) then tokenRefuse p
    else if needsToken s then sessionGrant p level (some (sessionEnds s t)) (some (fieldAt t 0x60 8))
    else sessionGrant p level none none

/-- DBG_OPEN with GO = 1: the token at an address, the level of DBG_OPEN.LEVEL. -/
def dbgOpen (addr : Addr) : Act :=
  .seq (setF DBG_OPEN.ADDR (addr.toNat / 64)) (.ask fun s => sessionOpen 1 (getF s DBG_OPEN.LEVEL) (readMem s (addr.toNat / 64 * 64) tokenBytes))
def execDbgOpenGo (addr : Addr) (s : State) : Host.Outcome State Fault Refusal := .next (run (dbgOpen addr) s)

/-- A token shifted through DBGTOK; the TAP asks for the highest level (log 34). -/
def execTapToken (token : List Byte) (s : State) : Host.Outcome State Fault Refusal := .next (run (sessionOpen 0 2 token) s)

def execDbgClose (s : State) : Host.Outcome State Fault Refusal := .next (run (sessionEnd 1 1) s)
def execTapClose (s : State) : Host.Outcome State Fault Refusal := .next (run (sessionEnd 0 1) s)

/-- REMAIN reaches 0 on a session that a token limits. -/
def sessionExpire (p : Nat) : Act := .ask fun s => Act.when ((debugSt s p).ends.isSome) (sessionEnd p 2)
def execSessionExpire (p : Fin 2) (s : State) : Host.Outcome State Fault Refusal := .next (run (sessionExpire p.val) s)

/-! Halts (R423, Table 20-5). -/

/-- A core DBG_HALT selects; service cores only in FAB and RETURN. -/
def haltable (s : State) (c : Nat) : Bool := decide (c < 608) || (decide (c < 610) && (s.life = .fab || s.life = .ret))

/-- The path whose D2 session the write of DBG_HALT counts for: the in-band one where it is at D2 (log 34). -/
def haltPath (s : State) : Option Nat := if sessLevel s 1 = 2 then some 1 else if sessLevel s 0 = 2 then some 0 else none

def coreHalt (c : Nat) : Act :=
  .seq (setF DBG_HALT.CORE c) (.ask fun s =>
    match haltPath s with
    | some p => Act.when (haltable s c && !coreHalted s c) (updDebug p fun d => { d with halted := c :: d.halted })
    | none => .skip)
def execDbgHaltHalt (core : BitVec 10) (s : State) : Host.Outcome State Fault Refusal := .next (run (coreHalt core.toNat) s)

/-- Cores leave both paths' halts: RESUME, or a reset that clears them (R426, R429). -/
def haltsClear (c : Nat → Bool) : Act := Act.each (fun p => updDebug p fun d => { d with halted := d.halted.filter fun k => !c k }) [0, 1]

def coreResume (c : Nat) : Act := .seq (setF DBG_HALT.CORE c) (.ask fun s => Act.when ((haltPath s).isSome) (haltsClear fun k => decide (k = c)))
def execDbgHaltResume (core : BitVec 10) (s : State) : Host.Outcome State Fault Refusal := .next (run (coreResume core.toNat) s)

end Sys2Proof.Machine
end

