-- ==== Sys2Proof/Machine/Firmware.lean ====
section
/-! DEFINITION. Firmware images: the checks of R412 and R415 in the order of the reason codes of Table 3-5. -/

namespace Sys2Proof.Machine

/-- The sections of a firmware image, up to 16 MiB each. -/
def fwSections (img : List Byte) : Option (List RawSec) :=
  rawSections (2 ^ 24) (fieldAt img 0x1C 2) (slice img 256 (imgSigAt img - 256))

/-- LENGTH, section boundaries and the signature block. -/
def fwBad02 (img : List Byte) : Bool :=
  let n := imgLength img
  let sig := slice img (imgSigAt img) 2464
  decide (n > 2 ^ 25) || decide (n < 256 + 2464) || decide (img.length < n) || (fwSections img).isNone ||
  decide (fieldAt sig 0 2 ≠ 0xFFFF) || decide (fieldAt sig 2 2 ≠ 0) || decide (fieldAt sig 4 4 ≠ 2456) || decide (fieldAt sig 2460 4 ≠ 0)

/-- The parts of a kind: 2 harbourmaster, 3 host firmware. -/
def fwParts (kind : Nat) : List Nat := if kind = 2 then [0x0101, 0x0102, 0x0103] else [0x0201]

/-- DIGEST of an image. -/
def imgDigest (img : List Byte) : List Byte := slice img (imgSigAt img + 8) 32

/-- The reason for which an image of a kind fails, the lowest code of Table 3-5 that applies; 0 where it passes. -/
def fwCheck (idrev : Nat) (keyHash : List Byte) (life : Life) (floor kind : Nat) (img : List Byte) : Nat :=
  let l := (fwSections img).getD []
  let flags := fieldAt img 0x1E 2
  if fieldAt img 0 4 ≠ 0x4D495746 || fieldAt img 4 2 ≠ 1 then 0x01
  else if fwBad02 img then 0x02
  else if bad03 idrev img then 0x03
  else if sha3_256 (img.take (imgSigAt img)) ≠ imgDigest img then 0x04
  else if bad05 keyHash img then 0x05
  else if fieldAt img 8 8 < floor then 0x06
  else if fieldAt img 6 2 ≠ kind || fieldAt img 8 8 = 0 || fieldAt img 0x10 8 ≠ 0 || fieldAt img 0x20 8 ≠ 0 then 0x07
  else if l.any (fun r => decide (r.version ≠ 1)) || (l.map fun r => r.type) ≠ fwParts kind then 0x08
  else if 2 ≤ flags || fieldAt img 0x29 7 ≠ 0 || fieldAt img 0xB0 80 ≠ 0 || l.any (fun r => decide (r.reserved ≠ 0)) then 0x09
  else if bitOf flags 0 && (life = .prov || life = .field) then 0x0B
  else 0

end Sys2Proof.Machine
end

