-- ==== Sys2Proof/Machine/Harbour.lean ====
section
/-! DEFINITION. The harbourmaster: telemetry, its own firmware, the logbook's housekeeping, calendar time and PTP (R14, R397 to R408, R439). -/

namespace Sys2Proof.Machine

def updHm (f : HmSt → HmSt) : Act := .prim (.hm f)

/-! Telemetry (R397, R398). -/

/-- SAMPLE, PLACE and CORE of the TELEM section (R70). -/
def telEvery (s : State) : Nat := chartF s 0xD 4 4
def telHost (s : State) : Bool := chartF s 0xD 0 1 = 1
def telCore (s : State) : Nat := chartF s 0xD 1 1

/-- A sample that was due is skipped. -/
def telSkip : Act := Act.all [incF HM_TELEM.SKIPPED, evt HM_EVT.SHED, updHm fun h => { h with telDue := none, telSkipped := h.telSkipped + 1 }]

/-- At a mark a sample falls due; one that is still due is skipped. SLOTS = 0 means no sampling. -/
def telMark : Act :=
  .ask fun s =>
    let n := getF s TIDE_COUNT.COUNT
    Act.when (decide (telEvery s ≠ 0) && decide (n % telEvery s = 0) && decide (getF s HM_TELRING.SLOTS ≠ 0))
      (.seq (Act.when s.hm.telDue.isSome telSkip) (updHm fun h => { h with telDue := some n }))

/-- The harbourmaster reads a register by its address: an RC field clears, an address without a register and a tile that is off read 0, one that nothing answers faults (R5, R17, R89). -/
def telRead (a : Nat) (k : W64 → Act) : Act :=
  .ask fun s =>
    match if tileOff s a then none else regAt a with
    | some (r, i, j) => .seq (readClears r i j) (k (regRead s r i j))
    | none => .seq (Act.when (regHole s a) (accessFault (.hm 0) (BitVec.ofNat 48 a))) (k 0)

/-- Registers read in list order and written one after another. -/
def telCopy : Nat → List Nat → Act
  | _, [] => .skip
  | at_, a :: l => .seq (telRead a fun v => pkgWrite at_ (w64Bytes v)) (telCopy (at_ + 8) l)

/-- The service cores' tasks of class 1 in hand: the checks of an amendment, of a CHART_FLASH and of a staged image (Table 19-2). -/
def serviceTasks (s : State) : Nat := b2n s.chart.checking.isSome + b2n s.chart.flashAddr.isSome + b2n s.hm.fwAddr.isSome

/-- A service core is free for a sample: fewer than two tasks of class 1 are in hand (R396, R397, log 38). -/
def serviceFree (s : State) : Bool := decide (serviceTasks s < 2)

/-- A due sample runs: into the next slot of the ring, or as an interrupt message to the host core. -/
def telSample : Act :=
  .ask fun s =>
    Act.when (decide (s.hm.telDue = some (getF s TIDE_COUNT.COUNT)) && decide (getF s HM_TELRING.SLOTS ≠ 0)) (
      if telHost s then send (.hostInterrupt (telCore s))
      else if !serviceFree s then .skip
      else
        let n := getF s HM_TELSET.COUNT
        let slot := getF s HM_TELRING.ADDR * 64 + s.hm.telSlot % getF s HM_TELRING.SLOTS * (32 + 8 * n)
        Act.all [pkgWrite slot (natLe (getF s TIDE_COUNT.COUNT) 8 ++ natLe (taiNow s) 8 ++ natLe (8 * n) 4 ++ natLe s.hm.telSkipped 4 ++ natLe 0 8),
          telCopy (slot + 32) ((List.range n).map fun i => readNat s (getF s HM_TELSET.ADDR * 8 + 8 * i) 8),
          incF HM_TELEM.SAMPLES, updHm fun h => { h with telDue := none, telSkipped := 0, telSlot := h.telSlot + 1 }])
def execTelemetrySample (s : State) : Host.Outcome State Fault Refusal := .next (run telSample s)

/-- A sample not started, or not reported by the host, by the next mark. -/
def telTimeout : Act :=
  .ask fun s => match s.hm.telDue with
    | some t => Act.when (decide (t ≠ getF s TIDE_COUNT.COUNT)) telSkip
    | none => .skip
def execTelemetrySkip (s : State) : Host.Outcome State Fault Refusal := .next (run telTimeout s)

/-- The host core reports the sample of a tide complete; it counts as a sample written (DEDUCED, log 38). -/
def telDone (tide : Nat) : Act :=
  .ask fun s => Act.when (telHost s && decide (s.hm.telDue = some tide)) (.seq (incF HM_TELEM.SAMPLES) (updHm fun h => { h with telDue := none, telSkipped := 0 }))
def execHmTeldone (tide : BitVec 48) (s : State) : Host.Outcome State Fault Refusal := .next (run (telDone tide.toNat) s)

/-! Firmware (R399 to R401). -/

/-- A rejection with a reason. -/
def fwReject (reason : Nat) : Act := Act.all [setF HM_FWSTAT.REASON reason, evt HM_EVT.FWREJ, logEv .fwRejected]

/-- HM_FW with GO = 1. A GO while STATE reads 1, 2 or 3 is rejected and leaves STATE (DEDUCED, log 38). -/
def fwGo (addr : Addr) : Act :=
  .seq (setF HM_FW.ADDR (addr.toNat / 64)) (.ask fun s =>
    let st := getF s HM_FWSTAT.STATE
    if st = 1 || st = 2 || st = 3 then fwReject 0x0D
    else .seq (setF HM_FWSTAT.STATE 1) (updHm fun h => { h with fwAddr := some (BitVec.ofNat 48 (addr.toNat / 64 * 64)), fwFlash := getB s HM_FW.FLASH }))
def execHmFwGo (addr : Addr) (s : State) : Host.Outcome State Fault Refusal := .next (run (fwGo addr) s)

/-- A firmware image in warehouse: as many bytes as its LENGTH names, at most 32 MiB, at least a header. -/
def readFw (s : State) (a : Nat) : List Byte := readMem s a (max 256 (min (readNat s (a + 0x18) 4) (2 ^ 25)))

/-- The check of a harbourmaster image ends: staged, or rejected. -/
def fwCheckDone : Act :=
  .ask fun s =>
    match s.hm.fwAddr with
    | some a =>
      let img := readFw s a.toNat
      let reason := fwCheck (getReg s .IDREV 0 0).toNat Config.vendorKeyHash s.life s.sec.hmFloor 2 img
      if reason = 0 then .seq (setF HM_FWSTAT.STATE 2) (updHm fun h => { h with fwAddr := none, fwImage := img.take (imgLength img), fwFirst := firstBoundary s })
      else Act.all [setF HM_FWSTAT.STATE 5, fwReject reason, updHm fun h => { h with fwAddr := none }]
    | none => .skip
def execHmFwCheckDone (s : State) : Host.Outcome State Fault Refusal := .next (run fwCheckDone s)

/-- An image is staged or waits. -/
def fwStaged (s : State) : Bool := getF s HM_FWSTAT.STATE = 2 || getF s HM_FWSTAT.STATE = 3

/-- Boundary E + 1,024: the image is dropped. -/
def fwDrop : Act :=
  .ask fun s => Act.when (fwStaged s && decide (s.hm.fwFirst + 1024 ≤ getF s TIDE_COUNT.COUNT))
    (Act.all [setF HM_FWSTAT.STATE 5, fwReject 0x0E, updHm fun h => { h with fwImage := [] }])
def execHmFwDrop (s : State) : Host.Outcome State Fault Refusal := .next (run fwDrop s)

/-- A partition has a slip latched. -/
def slipped (s : State) : List Nat := (s.tide.parts.filter fun e => e.2.slip).map fun e => e.1

/-- At a boundary from E on the image switches in, or waits whole for the partitions with a slip, each recorded. -/
def fwBoundary : Act :=
  .seq fwDrop (.ask fun s => Act.when (fwStaged s && decide (s.hm.fwFirst ≤ getF s TIDE_COUNT.COUNT)) (
    if (slipped s).isEmpty then
      Act.all [setF HM_FWSTAT.STATE 4, evt HM_EVT.FWSWITCH, logEv .fwSwitched,
        updHm fun h => { h with fwOld := some (getF s HM_FWSTAT.VERSION, s.now), fwRun := if h.fwFlash then h.fwImage else [], fwImage := [] },
        setF HM_FWSTAT.VERSION (Config.imageVersion (imgDigest s.hm.fwImage)).toNat,
        updSec fun x => { x with hmRun := sha3_256 (x.hmRun ++ imgDigest s.hm.fwImage), switches := x.switches + 1 }]
    else .seq (setF HM_FWSTAT.STATE 3) (Act.each (fun p => logEv .fwDeferred (data := [p, (Config.imageVersion (imgDigest s.hm.fwImage)).toNat])) (slipped s))))

/-- A switched core has not reported ready within 1 ms: all cores return to the old image. -/
def fwRevert : Act :=
  .ask fun s =>
    match s.hm.fwOld with
    | some (v, _) => Act.all [setF HM_FWSTAT.STATE 6, setF HM_FWSTAT.VERSION v, evt HM_EVT.REVERT, logEv .fwReverted,
        updHm fun h => { h with fwOld := none, fwRun := [] }]
    | none => .skip
def execHmFwRevert (s : State) : Host.Outcome State Fault Refusal := .next (run fwRevert s)

/-- Once the revert's time has passed, at the first boundary 2 ms or more after the switch, an image with FLASH = 1 is written into the slot that was not booted (log 38). -/
def fwKeep : Act :=
  .ask fun s =>
    match s.hm.fwOld with
    | some (_, t) => Act.when (decide (t + 8000000 ≤ s.now)) (Act.all [
        Act.when (!s.hm.fwRun.isEmpty) (updSec fun x => if getB s SEC_STAT.HMSLOT then { x with hmA := s.hm.fwRun } else { x with hmB := s.hm.fwRun }),
        updHm fun h => { h with fwOld := none, fwRun := [] }])
    | none => .skip

/-! The logbook (R404 to R407). -/

/-- One second after it opened a flood record becomes final. -/
def floodClose (k : Nat) : Act := .prim (.log fun l => { l with staged := l.staged.map fun r => if r.index = k then { r with final := true } else r })
def execFloodClose (k : Nat) (s : State) : Host.Outcome State Fault Refusal := .next (run (floodClose k) s)

def execLogbookFlush (s : State) : Host.Outcome State Fault Refusal := .next (run flushLog s)

def tallySave : Act := .prim (.log fun l => { l with savedTallies := l.tallies })
def execTallySave (s : State) : Host.Outcome State Fault Refusal := .next (run tallySave s)

/-! Calendar time (R408, R439). -/

def updTime (f : TimeSt → TimeSt) : Act := .prim (.calendar f)

/-- HM_SETTAI: host time, ignored and logged while PTP is locked. -/
def setTai (v : W64) : Act :=
  .ask fun s =>
    if timeSrcNow s = .ptp then .seq (evt HM_EVT.TIMEREJ) (logEv .timeRejected)
    else updTime fun t => { src := .host, tai := v.toNat, at_ := s.now, unc := getF s HM_SETUNC.UNCERT, resets := 0, grid := t.grid }
def execHmSettai (v : W64) (s : State) : Host.Outcome State Fault Refusal := .next (run (setTai v) s)

/-- PTP locks: time and the servo's offset bound. -/
def ptpLock (tai unc : Nat) : Act := .ask fun s => updTime fun t => { src := .ptp, tai := tai, at_ := s.now, unc := unc, resets := 0, grid := t.grid }
def execPtpLock (tai : W64) (unc : BitVec 32) (s : State) : Host.Outcome State Fault Refusal := .next (run (ptpLock tai.toNat unc.toNat) s)

/-- PTP lock is lost: holdover from the last PTP time and uncertainty. -/
def ptpLost : Act :=
  .ask fun s => Act.when (decide (s.time.src = .ptp)) (updTime fun t => { src := .holdover, tai := taiNow s, at_ := s.now, unc := uncertNow s, resets := 0, grid := t.grid })
def execPtpLockLost (s : State) : Host.Outcome State Fault Refusal := .next (run ptpLost s)

/-- The uncertainty has passed 0xFFFF_FFFE: the source is unknown, time counts on. -/
def timeLost : Act := .ask fun s => Act.when (decide (timeSrcNow s = .unknown)) (updTime fun t => { src := .unknown, tai := taiNow s, at_ := s.now, grid := t.grid })
def execTimeUnknown (s : State) : Host.Outcome State Fault Refusal := .next (run timeLost s)

/-- A PTP message with the offset it measures. While locked the servo's offset bound is that offset's size; steering changes the clock's rate, which the model's time does not show (log 36). -/
def ptpMessage (offset : Int) : Act :=
  .seq (updHm fun h => { h with ptpOffset := offset }) (.ask fun s => Act.when (decide (s.time.src = .ptp))
    (updTime fun t => { t with tai := taiNow s, at_ := s.now, unc := min offset.natAbs (2 ^ 32 - 1) }))
def execPtpMessage (offset : Int) (s : State) : Host.Outcome State Fault Refusal := .next (run (ptpMessage offset) s)

/-- A TAI second of the PT domain: a pulse on PPS_OUT. -/
def execPpsPulse (s : State) : Host.Outcome State Fault Refusal := .next (run (send .pps) s)

/-! Clock measurement (R14, Table 1-9). -/

/-- SEL as the package treats it. -/
def measDomain (sel : Nat) : Nat := if 1 ≤ sel && sel ≤ 25 then sel else 1

/-- START: DONE clears and a window starts, or starts again. -/
def measStart (sel : Nat) : Act := Act.all [setF CLK_MEAS.SEL sel, setF CLK_MEAS.DONE 0, updHm fun h => { h with meas := some (measDomain sel) }]
def execClkMeasStart (sel : BitVec 5) (s : State) : Host.Outcome State Fault Refusal := .next (run (measStart sel.toNat) s)

/-- The window ends: COUNT takes the edges counted, DONE sets. -/
def measDone (edges : Nat) : Act :=
  .ask fun s => Act.when s.hm.meas.isSome (Act.all [setF CLK_MEAS.COUNT edges, setF CLK_MEAS.DONE 1, updHm fun h => { h with meas := none }])
def execClkMeasDone (count : BitVec 32) (s : State) : Host.Outcome State Fault Refusal := .next (run (measDone count.toNat) s)

end Sys2Proof.Machine
end

