-- ==== Sys2Proof/Machine/Frames.lean ====
section
/-! DEFINITION. Marks, tide frames, flywheel and holdover, ready reports and flotilla-ready reports (R24, R39 to R51). -/

namespace Sys2Proof.Machine

def updTide (f : TideSt → TideSt) : Act := .prim (.tide f)

/-! The token (R40, R41, R51). -/

/-- The berths whose ready reports the pilot waits for. A dark berth that a spare serves reports through the spare (R41, R357). -/
def workingBerths (s : State) : List Nat :=
  let c := theChart s
  (List.range 256).filter fun b => c.occupied b && !c.spares.contains b && (!s.tide.darkBerths.contains b || decide (getF s HURAL_ALIAS.SERVER 0 b ≠ b))

/-- Every working berth has reported a set. -/
def flotillaReady (s : State) (set : SetNo) : Bool :=
  s.tide.ready.any (fun e => e.1 = set) && (workingBerths s).all fun b => s.tide.ready.contains (set, b)

/-- The number under which a pilot keeps the tide count of its own flotilla (log 41). -/
def ownFlotilla : Nat := 65536

/-- The tide counts reported for a set, by flotilla. -/
def freadyOf (s : State) (set : SetNo) (f : Nat) : Option (BitVec 48) := (s.tide.fready.find? fun x => x.set = set && x.flotilla = f).map fun x => x.tide

/-- For a set that spans flotillas, once every report is held, the highest count m reported; none while one is missing. -/
def crossCount (s : State) (set : SetNo) : Option Nat :=
  match s.tide.crossSets.find? fun e => e.1 = set with
  | some e =>
    let l := (ownFlotilla :: e.2).map (freadyOf s set)
    if l.all fun x => x.isSome then some (l.foldl (fun m x => max m (x.getD 0).toNat) 0) else none
  | none => none

/-- A set spans flotillas: this pilot has reported it to others, or another one has reported it. The manual does not say how a pilot knows; until then a ready set counts as its own flotilla's alone (DESIGN CHOICE, log 41). -/
def isCross (s : State) (set : SetNo) : Bool := s.tide.crossSets.any (fun e => e.1 = set) || s.tide.fready.any fun x => x.set = set

/-- The frame that opens tide `n` may name a set. -/
def setGoes (s : State) (n : Nat) (set : SetNo) : Bool :=
  flotillaReady s set && (!isCross s set || (match crossCount s set with | some m => decide (m + 2 ≤ n) | none => false))

/-- From a committed set on, the highest set up to which every set goes. -/
def tokenFrom (s : State) (n : Nat) : Nat → SetNo → SetNo
  | 0, c => c
  | k + 1, c => if setGoes s n (c + 1) then tokenFrom s n k (c + 1) else c

/-- The first set of a package that has committed none: the lowest one reported (log 41). -/
def firstSet (s : State) : Option SetNo :=
  (s.tide.ready.find? fun x => s.tide.ready.all fun y => decide ((y.1 - x.1).toNat < 2 ^ 15)).map fun x => x.1

/-- TOKEN of the frame that opens tide `n`: the highest set that is, or may now be, committed. -/
def tokenNow (s : State) (n : Nat) : Option SetNo :=
  match s.tide.committed with
  | some c => some (tokenFrom s n (s.tide.ready.length + 1) c)
  | none =>
    match firstSet s with
    | some c => if setGoes s n c then some (tokenFrom s n (s.tide.ready.length + 1) c) else none
    | none => none

/-! Frames (R44, Table 2-5). -/

/-- A tide frame with its CHECK. -/
def tideFrame (count period : Nat) (token : Option SetNo) (dark : Option Nat) (sender : Nat) (stby : Bool) : BitVec 128 :=
  let v := 0xA5 * 2 ^ 120 + count % 2 ^ 48 * 2 ^ 72 + period % 2 ^ 14 * 2 ^ 58 +
    (match token with | some t => 2 ^ 57 + t.toNat * 2 ^ 41 | none => 0) +
    (match dark with | some b => 2 ^ 40 + b % 256 * 2 ^ 32 | none => 0) + sender % 256 * 2 ^ 24 + b2n stby * 2 ^ 23
  BitVec.ofNat 128 (v + (crc16Field v 127 16).toNat)

/-- A frame passes its check. -/
def frameOk (f : BitVec 128) : Bool := decide (bitsOf f.toNat 120 8 = 0xA5) && decide (bitsOf f.toNat 0 16 = (crc16Field f.toNat 127 16).toNat)

/-- The period of tide `n` under the package's own chart: a staged amendment's from the boundary it names (R25). -/
def periodOf (s : State) (n : Nat) : Nat :=
  if decide (getF s TIDE_PERIOD.NEXT ≠ 0) && decide (getF s CHART_EFFECT.TIDE = n) then getF s TIDE_PERIOD.NEXT
  else if s.chart.cur.isSome then (theChart s).period else getF s TIDE_PERIOD.PERIOD

/-- The pilot of a grid-aligned flotilla logs, once, each set that spans flotillas and waits on past the frame two after its own report: a report is missing, as when grids diverge (R50, log 41). -/
def setsWait (n : Nat) : Act :=
  .ask fun s => Act.when ((theChart s).grid && isPilot s) (Act.each (fun (e : SetNo × List Nat) =>
    Act.when (!isCommitted s e.1 && (crossCount s e.1).isNone && decide ((freadyOf s e.1 ownFlotilla).map (fun m => m.toNat + 3) = some n)) (logEv .setWaits (data := [e.1.toNat]))) s.tide.crossSets)

/-- T - 1.0 µs: the boundary closes to amendments (R80), and the pilot and the backup pilot compose their frames. A pilot that gave up its berth sends none (R367). -/
def frameCompose : Act :=
  .ask fun s =>
    let n := (getF s TIDE_COUNT.COUNT + 1) % 2 ^ 48
    let lead := isPilot s
    Act.all [updTide fun t => { t with closed := true }, setsWait n,
      Act.when (composes s && getF s SHD_STAT.ROLE ≠ 3) (updTide fun t =>
        { t with composed := some (tideFrame n (periodOf s n) (tokenNow s n) t.darkQueue.head? (ownBerth s) (!lead)), darkQueue := t.darkQueue.drop 1 })]
def execFrameCompose (s : State) : Host.Outcome State Fault Refusal := .next (run frameCompose s)

/-- TOKEN and DARK of a frame are those this boundary applies. -/
def frameActs (f : BitVec 128) : Act :=
  updTide fun t => { t with
    token := if bitOf f.toNat 57 then some (BitVec.ofNat 16 (bitsOf f.toNat 41 16)) else none
    dark := if bitOf f.toNat 40 then some (bitsOf f.toNat 32 8) else none }

/-! The mark (R24, R44, R49). -/

/-- The pilot, and the backup pilot with STBY = 1, send the frame they composed; who leads acts on its own. -/
def frameSend : Act :=
  .ask fun s => match s.tide.composed with
    | some f => Act.all [send (.tideFrame f), Act.when (isPilot s) (frameActs f), updTide fun t => { t with composed := none }]
    | none => .skip

/-- The offset of a grid-aligned mark; the sixteenth in a row outside ±200 ns is logged. -/
def gridCheck (off : BitVec 32) : Act :=
  .ask fun s => Act.when ((theChart s).grid && isPilot s) (
    let far := decide (200 < off.toInt.natAbs)
    Act.all [setF TIDE_SRC.PTPOFF off.toNat, updTime fun t => { t with grid := if far then min 16 (t.grid + 1) else 0 },
      Act.when (far && decide (s.time.grid = 15)) (.seq (evt TIDE_EVT.PTPRANGE) (logEv .ptpRange))])

/-- A report is held back for mirrors in this tide: HOLDWAIT counts the tide once (R360). -/
def holdCount (set : SetNo) : Act :=
  .ask fun s =>
    let n := getF s TIDE_COUNT.COUNT + 1
    Act.all [Act.when (!s.tide.sets.any fun x => x.held = n) (incF SHD_COUNT.HOLDWAIT),
      updTide fun t => { t with sets := t.sets.map fun x => if x.set = set then { x with held := n } else x }]

/-- Reports still held for mirrors when a tide begins. -/
def holdsGoOn : Act :=
  .ask fun s => Act.when (mirrorsOpen s) (Act.each (fun (x : SetSt) => holdCount x.set) (s.tide.sets.filter fun x => decide (x.held ≠ 0) && !x.reported))

/-- A mark: the count, the ledgers of the ended tide, the grace window. -/
def tideMark (used : List Nat) (off : BitVec 32) : Act :=
  Act.all [addF TIDE_COUNT.COUNT, .ask fun s => updTide fun t =>
      { t with grace := true, closed := false, framed := false, markAt := s.now, inNow := none, spareNow := none, spareFrame := none, token := none, dark := none },
    frameSend, gridCheck off, ledgerMark used, telMark, holdsGoOn]
def execTideMark (used : List Nat) (ptpOff : BitVec 32) (s : State) : Host.Outcome State Fault Refusal := .next (run (tideMark used ptpOff) s)

/-! Following marks (R45 to R48). -/

/-- COUNT, PERIOD, TOKEN and DARK of a frame. A PERIOD outside 10..10,000 is no period and is not taken (log 41). -/
def frameTake (f : BitVec 128) : Act :=
  .ask fun s =>
    let n := bitsOf f.toNat 72 48
    let p := bitsOf f.toNat 58 14
    let own := periodOf s n
    Act.all [setF TIDE_COUNT.COUNT n, frameActs f,
      Act.when (decide (10 ≤ p) && decide (p ≤ 10000)) (Act.all [
        Act.when (decide (p ≠ own) && decide (s.tide.periodSeen ≠ some p)) (.seq (evt TIDE_EVT.PERIODMIS) (logEv .periodMismatch (data := [p, own]))),
        updTide fun t => { t with periodSeen := if p = own then none else some p },
        updTide fun t => { t with framed := true }, setF TIDE_PERIOD.PERIOD p])]

/-- A package that follows others' marks. -/
def follows (s : State) : Bool := !isPilot s

/-- The backup pilot takes the pilot role (R47, R357, R378). -/
def takePilot : Act :=
  .ask fun s => .seq (updTide fun t => { t with spareRole := true, failIn := 0 }) (setF TIDE_SRC.MODE (if (theChart s).grid then 3 else 0))

/-- What the two inputs gave at this boundary is judged once both are known: the switch at the second failure in a row of TIDE_IN while TIDE_SPARE passes, holdover when both fail. The backup pilot judges its own TIDE_IN alone. -/
def framesJudge : Act :=
  .ask fun s =>
    if !follows s then .skip
    else if getF s TIDE_SRC.ROLE = 2 then
      if s.tide.inNow = some false then
        .seq (updTide fun t => { t with failIn := t.failIn + 1, inNow := none }) (.given (fun s => decide (2 ≤ s.tide.failIn)) takePilot)
      else Act.when (decide (s.tide.inNow = some true)) (updTide fun t => { t with failIn := 0 })
    else
      match s.tide.inNow, s.tide.spareNow with
      | some true, _ => updTide fun t => { t with failIn := 0 }
      | some false, some true =>
        .seq (updTide fun t => { t with failIn := t.failIn + 1 }) (.given (fun s => decide (2 ≤ s.tide.failIn) && decide (getF s TIDE_SRC.MODE = 1))
          (Act.all [setF TIDE_SRC.MODE 2, evt TIDE_EVT.SWITCH, logEv .tideSwitch, .ask fun s => match s.tide.spareFrame with | some f => frameTake f | none => .skip]))
      | some false, some false =>
        .seq (updTide fun t => { t with failIn := 0 }) (Act.when (decide (getF s TIDE_SRC.MODE ≠ 4)) (.seq (setF TIDE_SRC.MODE 4) (evt TIDE_EVT.HOLDOVER)))
      | _, _ => .skip

/-- A frame on TIDE_IN or TIDE_SPARE is missing or fails its check. A pilot has no TIDE_IN, a standalone package neither. -/
def frameMissing (spare : Bool) : Act :=
  .ask fun s =>
    if getF s TIDE_SRC.ROLE = 3 || (!spare && isPilot s) then .skip
    else Act.all [evt (if spare then TIDE_EVT.MISSSPARE else TIDE_EVT.MISSIN),
      updTide fun t => if spare then { t with spareNow := some false } else { t with inNow := some false }, framesJudge]
def execFrameMissing (spare : Bool) (s : State) : Host.Outcome State Fault Refusal := .next (run (frameMissing spare) s)

/-- A frame arrives. The package takes those of the input it follows; in holdover the first that passes ends it (log 41). -/
def frameArrives (spare : Bool) (f : BitVec 128) : Act :=
  .ask fun s =>
    if !frameOk f then frameMissing spare
    else if getF s TIDE_SRC.ROLE = 3 || (!spare && isPilot s) then .skip
    else Act.all [updTide fun t => if spare then { t with spareNow := some true, spareFrame := some f } else { t with inNow := some true },
      Act.when (follows s) (
        let mode := getF s TIDE_SRC.MODE
        Act.when (mode = 4 || (mode = 2 && spare) || (mode ≠ 2 && !spare)) (.seq (Act.when (decide (mode = 4)) (setF TIDE_SRC.MODE (if spare then 2 else 1))) (frameTake f))),
      framesJudge]
def execTideFrameReceive (spare : Bool) (frame : BitVec 128) (s : State) : Host.Outcome State Fault Refusal := .next (run (frameArrives spare frame) s)

/-- The skew against the pilot as the timestamp exchange measured it: above 50 ns TIDE_COMP is rewritten. -/
def skewCheck (skew : Nat) (delay : BitVec 11) : Act :=
  .ask fun s => Act.when (follows s) (.seq (updHural fun h => { h with stamp := none })
    (Act.when (decide (50 < skew)) (Act.all [evt TIDE_EVT.SKEW, logEv .skewed (data := [skew]), setF TIDE_COMP.DELAY delay.toNat])))
def execSkewCheck (skewNs : Nat) (delay : BitVec 11) (s : State) : Host.Outcome State Fault Refusal := .next (run (skewCheck skewNs delay) s)

/-! Plans and reports (R29, R39, R51, R360). -/

/-- Software writes TIDE_PLAN. -/
def execTidePlanWrite (p : Fin 64) (addr : Addr) (s : State) : Host.Outcome State Fault Refusal := .next (run (tidePlanWrite p.val addr.toNat) s)

/-- Every plan that names a set and that a partition took has finished (log 42). -/
def setDone (s : State) (x : SetSt) : Bool :=
  !x.stuck && x.parts.all fun p => match (partSt s p).plan with | some h => !(h.setv && decide (h.set = x.set)) || planFinished s p | none => true

/-- The ready report of a set goes to the pilot and the backup pilot, or is held back while a mirror is not acknowledged. -/
def readyReport (set : SetNo) : Act :=
  .ask fun s =>
    match s.tide.sets.find? fun x => x.set = set && !x.reported && x.due && setDone s x && !isCommitted s set with
    | none => .skip
    | some _ =>
      if mirrorsOpen s then holdCount set
      else .seq (updTide fun t => { t with sets := t.sets.map fun x => if x.set = set then { x with reported := true } else x })
        (Act.each (fun b => sendNote 0x10 b set.toNat) (pilots s))
def execReadyReportSend (set : SetNo) (s : State) : Host.Outcome State Fault Refusal := .next (run (readyReport set) s)

/-- A report of a flotilla for a set takes the place of an earlier one. -/
def freadyAdd (set : SetNo) (f : Nat) (tide : BitVec 48) : Act :=
  updTide fun t => { t with fready := (t.fready.filter fun x => !(x.set = set && x.flotilla = f)) ++ [{ set := set, flotilla := f, tide := tide }] }

/-- The flotilla is ready for a set and for every lower one that is not committed (R40, R51). -/
def readyThrough (s : State) (set : SetNo) : Bool :=
  match (match s.tide.committed with | some c => some (c + 1) | none => firstSet s) with
  | some c => decide ((set - c).toNat < 2 ^ 15) && (List.range ((set - c).toNat + 1)).all fun k => flotillaReady s (c + BitVec.ofNat 16 k)
  | none => false

/-- A pilot whose flotilla is ready for a set that spans flotillas reports it to the other pilots, with the tide count; the backup pilot keeps its count (R44, R51). -/
def freadySend (set : SetNo) (others : List Nat) : Act :=
  .ask fun s => Act.when (composes s && readyThrough s set && !isCommitted s set && !s.tide.crossSets.any fun e => e.1 = set) (
    let n := BitVec.ofNat 48 (getF s TIDE_COUNT.COUNT)
    Act.all [updTide fun t => { t with crossSets := t.crossSets ++ [(set, others)] }, freadyAdd set ownFlotilla n,
      Act.when (isPilot s) (Act.each (fun f => send (.fready set f n)) others)])
def execFreadySend (set : SetNo) (others : List Nat) (s : State) : Host.Outcome State Fault Refusal := .next (run (freadySend set others) s)

/-- A flotilla-ready report arrives. The last one that comes after the frame of count m + 2 makes the token late. -/
def freadyTake (f : Nat) (set : SetNo) (tide : BitVec 48) : Act :=
  .ask fun s => Act.when (composes s && !isCommitted s set && f ≠ ownFlotilla) (.seq (freadyAdd set f tide) (.ask fun t =>
    match crossCount s set, crossCount t set with
    | none, some m => Act.when (isPilot s && decide (m + 2 < firstBoundary t)) (logEv .lateToken (data := [set.toNat, f]))
    | _, _ => .skip))
def execFready (f : Nat) (set : SetNo) (tide : BitVec 48) (s : State) : Host.Outcome State Fault Refusal := .next (run (freadyTake f set tide) s)

end Sys2Proof.Machine
end

