-- ==== Sys2Proof/Machine/Coherence.lean ====
section
/-! DEFINITION. The coherent domain: homes, snoops and write-backs, uncached requests, the protocols, departures and collapse (R255 to R272). Lines are named by address ÷ 64. -/

namespace Sys2Proof.Machine

/-! Homes (R258 to R260). -/

/-- The home of a line: 0..15 the warehouse controllers (R229), 16..23 the quay homes. -/
def homeOf (line : Nat) : Nat :=
  let a := line * 64
  if isWarehouse a then 4 * bitsOf a 38 2 + bitsOf a 12 2
  else 16 + 2 * quayDie a + (if (a - 0x010000000000) % 0xC0000000 / 0x1800000 < 64 then 0 else 1)

/-- Directory entries of a home. -/
def homeEntries (h : Nat) : Nat := if h < 16 then 262144 else 32768

/-- The least recently requested entry of a home without an open transaction. -/
def dirVictim (s : State) (h : Nat) : Option Nat :=
  let l := s.coh.dir.filter fun e => decide (homeOf e.1 = h) && (Cells.look s.coh.txs e.1).isNone
  match l with
  | [] => none
  | x :: xs => some (xs.foldl (fun m e => if e.2.last < m.2.last then e else m) x).1

/-- A home has an entry for a line, or a free one (R258). -/
def dirHasRoom (s : State) (line : Nat) : Bool :=
  (Cells.look s.coh.dir line).isSome || decide ((s.coh.dir.filter fun e => homeOf e.1 = homeOf line).length < homeEntries (homeOf line))

/-- A home evicts an entry already. -/
def dirEvicting (s : State) (h : Nat) : Bool := s.coh.txs.any fun e => decide (homeOf e.1 = h) && decide (e.2.job = .evict)

/-- A home makes room for an entry: it invalidates the victim's line in every holder by SnpX (R259). The request that needs the entry waits meanwhile. -/
def dirRoom (line : Nat) : Act :=
  .ask fun s =>
    if dirEvicting s (homeOf line) then .skip
    else
      match dirVictim s (homeOf line) with
      | some v => if (lineHolders s v).isEmpty then Act.all [setDir v none, addF COH_DIREVICT.COUNT] else openTx v .evict .snpX (lineHolders s v)
      | none => .skip

/-- Sharers of an entry with one more; a fifth makes it the coarse vector (R258). -/
def DirEnt.share (e : DirEnt) (a : Nat) : DirEnt :=
  let l := if e.sharers.contains a then e.sharers else e.sharers ++ [a]
  { e with sharers := l, coarse := e.coarse || decide (4 < l.length) }

/-- A grant reaches an agent: its line with its hold, and what its core wanted; an agent that departs gives the line up again (R264, R268). -/
def grant (a line : Nat) (st : CState) (d : Desc) : Act :=
  .ask fun s =>
    let op := Cells.get .load (cohAgent s a).wants line
    let hold := if (st = .m || st = .e) && !(cohAgent s a).departing then s.now + 256 else 0
    Act.all [setCopy a line (some { st := st, data := d, hold := hold }), updAgent a fun x => { x with wants := Cells.del x.wants line }, coreAct a line op,
      Act.when (cohAgent s a).departing (evictLine a line)]

/-- A home serves a read request with no snoop to wait for. -/
def serveRds (a line : Nat) : Act :=
  .ask fun s =>
    let d := memLine s line
    match Cells.look s.coh.dir line with
    | none => Act.all [setDir line (some { owned := true, owner := a, last := lastOf s line }), grant a line .e d]
    | some e =>
      if ownedProtocol s then Act.all [setDir line (some (e.share a)), grant a line .s d]
      else Act.all [setDir line (some { e.share a with fwd := some a }), grant a line .f d]

/-- A home grants ownership with no copy left elsewhere. -/
def serveOwn (a line : Nat) (d : Desc) : Act :=
  .ask fun s => Act.all [setDir line (some { owned := true, owner := a, last := lastOf s line }), grant a line .m d]

/-- A contention predictor learns from what a far AMO found: a copy of another agent in M, O or E, or no other holder (R267). -/
def learn (a line : Nat) (owned found : Bool) : Act :=
  .ask fun s => match Cells.look (cohAgent s a).wants line with
    | some (.amo core ad _ _ _) => if owned then predMove core ad.toNat true else Act.when (!found) (predMove core ad.toNat false)
    | _ => .skip

/-- A line's owner by the directory. -/
def dirOwner (s : State) (line : Nat) : Option Nat :=
  match Cells.look s.coh.dir line with
  | some e => if e.owned then some e.owner else none
  | none => none

/-- A request leaves the wires. -/
def takeReq (a line : Nat) (k : ReqKind) : Act := updCoh fun c => { c with reqs := c.reqs.erase (a, line, k) }

/-- A home serves a request that nothing holds back: from memory, or behind snoops to the owner, the forwarder or the other holders. -/
def serveReq (a line : Nat) (k : ReqKind) : Act :=
  .ask fun s =>
    let e := Cells.look s.coh.dir line
    match k with
    | .rds =>
      (match e with
       | none => serveRds a line
       | some x =>
         if x.owned then openTx line (.req a k) .snpS [x.owner]
         else match x.fwd with
           | some f => if !ownedProtocol s && f ≠ a then openTx line (.req a k) .snpS [f] else serveRds a line
           | none => serveRds a line)
    | _ =>
      let others := match e with | some x => x.holders s (some a) | none => []
      if others.isEmpty then Act.all [learn a line false false, serveOwn a line (match copyOf s a line with | some c => c.data | none => memLine s line)]
      else openTx line (.req a k) .snpX others

/-- A home receives a request of a member: it waits behind an open transaction or for a directory entry, is held on a marked line, faults in a quay that answers nothing and on a poisoned line of no object, stalls on one of an object, or is served (R18, R213, R248, R252, R258 to R261). -/
def homeRequest (a line : Nat) (k : ReqKind) : Act :=
  .ask fun s =>
    let addr : Addr := BitVec.ofNat 48 (line * 64)
    let fails := Act.all [takeReq a line k, updAgent a fun x => { x with wants := Cells.del x.wants line }, send (.agentFault a addr), logEv .accessFault 0xFF a]
    if !s.coh.reqs.contains (a, line, k) || (Cells.look s.coh.txs line).isSome || homesStop s then .skip
    else if isQuay (line * 64) && !quayUp s (line * 64) then fails
    else if isPoisoned s (line * 64) then
      (if (pageOfFrame s (line * 64)).isSome then Act.all [takeReq a line k, accessWaits (agentWho a) addr (.req k) false 0] else fails)
    else if heldAt s (line * 64) then Act.all [takeReq a line k, accessWaits (agentWho a) addr (.req k) true 0]
    else if dirOwner s line = some a && (copyOf s a line).isNone then .skip
    else if !dirHasRoom s line then dirRoom line
    else Act.all [takeReq a line k, dirRequest line, serveReq a line k]

def execRds (a : Fin 514) (line : Addr) (s : State) : Host.Outcome State Fault Refusal := .next (run (homeRequest a.val (line.toNat / 64) .rds) s)
def execRdx (a : Fin 514) (line : Addr) (s : State) : Host.Outcome State Fault Refusal := .next (run (homeRequest a.val (line.toNat / 64) .rdx) s)
def execUpg (a : Fin 514) (line : Addr) (s : State) : Host.Outcome State Fault Refusal := .next (run (homeRequest a.val (line.toNat / 64) .upg) s)

/-! Snoops at agents (Tables 11-2 and 11-3, R264, R265). -/

/-- An agent answers a snoop. -/
def answerSnoop (x : Snoop) : Act :=
  .ask fun s =>
    let reply := fun (r : SnpResp) => updCoh fun c => { c with resps := c.resps ++ [r], snoops := c.snoops.erase x }
    if (Cells.look (cohAgent s x.agent).pend x.line).isSome then reply { line := x.line, agent := x.agent, found := .i, data := none, wbPend := true }
    else
      match copyOf s x.agent x.line with
      | none => reply { line := x.line, agent := x.agent, found := .i, data := none }
      | some c =>
        let dirty := c.st = .m || c.st = .o
        let carries := dirty || c.st = .e || (c.st = .f && x.kind = .snpS)
        let r : SnpResp := { line := x.line, agent := x.agent, found := c.st, data := if carries then some c.data else none }
        match x.kind with
        | .snpC => reply r
        | .snpX => Act.all [setCopy x.agent x.line none, endResv x.agent x.line, reply r]
        | .snpS =>
          let st : CState := match c.st with
            | .m => if ownedProtocol s then .o else .s
            | .o => .o
            | _ => .s
          Act.all [setCopy x.agent x.line (some { c with st := st }), reply r]

/-- A snoop reaches an agent: it waits out a hold, which is counted, or is answered (R264). -/
def snoopArrives (a line : Nat) (k : SnpKind) : Act :=
  .ask fun s =>
    match s.coh.snoops.find? (fun x => decide (x.agent = a) && decide (x.line = line) && decide (x.kind = k) && !x.waits) with
    | none => .skip
    | some x =>
      if (cohAgent s a).dead then .skip
      else
        match copyOf s a line with
        | some c =>
          if s.now < c.hold && !(cohAgent s a).departing then
            Act.all [updCoh fun y => { y with snoops := y.snoops.map fun z => if z = x then { z with waits := true } else z }, addF COH_HOLDSNP.COUNT]
          else answerSnoop x
        | none => answerSnoop x

def execSnps (a : Fin 514) (line : Addr) (s : State) : Host.Outcome State Fault Refusal := .next (run (snoopArrives a.val (line.toNat / 64) .snpS) s)
def execSnpx (a : Fin 514) (line : Addr) (s : State) : Host.Outcome State Fault Refusal := .next (run (snoopArrives a.val (line.toNat / 64) .snpX) s)
def execSnpc (a : Fin 514) (line : Addr) (s : State) : Host.Outcome State Fault Refusal := .next (run (snoopArrives a.val (line.toNat / 64) .snpC) s)

/-- The hold on a newly received line ends: the waiting snoop is answered. -/
def snoopHoldEnds (a line : Nat) : Act :=
  .ask fun s =>
    match s.coh.snoops.find? (fun x => decide (x.agent = a) && decide (x.line = line) && x.waits) with
    | none => .skip
    | some x => answerSnoop x

def execSnoopHoldExpiry (a : Fin 514) (line : Addr) (s : State) : Host.Outcome State Fault Refusal := .next (run (snoopHoldEnds a.val (line.toNat / 64)) s)

/-! Collapse (R270, R271). -/

/-- A collapse begins: every home stops granting, the cause is recorded and logged, every snapshot freezes, the package gives up its berth and the event counts (R271, R367, R387, R389). -/
def collapseStart (cause agent line : Nat) : Act :=
  .given (fun s => decide (getF s COH_STAT2.STATE ≠ 2))
    (Act.all [setF COH_STAT2.STATE 2, setF COH_COLLAPSE.CAUSE cause, setF COH_COLLAPSE.AGENT agent, setF COH_COLLAPSE.ADDR (line * 64),
      evt COH_EVT.COLLAPSE, logEv .collapsed, updRst fun r => { r with collapse := true }, freezeAll, giveUp, recordEvent 3])

/-! Replies and write-backs at homes (R262, R265). -/

/-- Near AMOs that waited behind a line's transaction reach its home again, oldest first. -/
def nearGo (line : Nat) : Act :=
  .ask fun s => Act.all [updCoh fun c => { c with amos := c.amos.filter fun x => x.addr / 64 ≠ line }, Act.each nearHome (s.coh.amos.filter fun x => x.addr / 64 = line)]

/-- What a read by another member leaves: the owner or the forwarder that answered, its data, and the requester with it (Tables 11-2 and 11-3). -/
def finishRds (a o line : Nat) (d : Desc) (dirty : Bool) : Act :=
  .ask fun s =>
    let e := (Cells.look s.coh.dir line).getD { owned := false, last := lastOf s line }
    let clean : DirEnt := { e with owned := false, sharers := if e.owned then [o] else e.sharers }
    if ownedProtocol s then
      if dirty then Act.all [setDir line (some { ({ e with owned := true, owner := o } : DirEnt).share a with fwd := none }), grant a line .s d]
      else Act.all [setDir line (some { clean.share a with fwd := none }), grant a line .s d]
    else Act.all [Act.when dirty (writeBack line d), setDir line (some { clean.share a with fwd := some a }), grant a line .f d]

/-- A transaction whose replies are all in is served. An uncached write's line has no copy left, and dirty data of its holders reach memory first where the write is partial. -/
def finishTx (line : Nat) (t : HomeTx) : Act :=
  Act.all [updCoh fun c => { c with txs := Cells.del c.txs line }, .ask fun s =>
    let d := t.data.getD (memLine s line)
    match t.job with
    | .req a .rds =>
      (match t.owner with
       | some o => finishRds a o line d t.dirty
       | none => serveRds a line)
    | .req a _ => Act.all [learn a line t.owned t.found, setDir line none, serveOwn a line (match copyOf s a line with | some c => (if t.dirty then d else c.data) | none => d)]
    | .read addr n => send (.uncachedData addr (lineBytes d addr.toNat n))
    | .fullWrite x => Act.all [setDir line none, storeMem {} (line * 64) (descBytes x), frameUnpoison (line * 64) (isPoisoned s (line * 64))]
    | .partWrite addr bs => Act.all [Act.when t.data.isSome (writeBack line d), setDir line none, storeMem {} addr.toNat bs]
    | .near x => Act.all [Act.when t.data.isSome (writeBack line d), setDir line none, nearAct x t.found]
    | .evict => Act.all [Act.when (t.data.isSome && t.dirty) (writeBack line d), setDir line none, addF COH_DIREVICT.COUNT],
    nearGo line]

/-- A transaction goes on: it is served once no reply and no write-back is owed, and not while the domain collapses (R271). -/
def txProgress (line : Nat) (t : HomeTx) : Act :=
  .ask fun s => if t.waits.isEmpty && t.wbs.isEmpty && !homesStop s then finishTx line t else updCoh fun c => { c with txs := Cells.ins c.txs line t }

/-- The agent whose own copy is none of another agent's (R267). -/
def TxFor.asker : TxFor → Option Nat
  | .req a _ => some a
  | .near x => some (coreAgent x.core)
  | _ => none

/-- A home receives a snoop reply. One that belongs to no open transaction is a protocol violation (Table 11-7). -/
def snoopReply (a line : Nat) : Act :=
  .ask fun s =>
    match s.coh.resps.find? (fun r => decide (r.agent = a) && decide (r.line = line)) with
    | none => .skip
    | some r =>
      Act.all [updCoh fun c => { c with resps := c.resps.erase r },
        match Cells.look s.coh.txs line with
        | none => collapseStart 0x4 a line
        | some t =>
          if !t.waits.contains a then collapseStart 0x4 a line
          else
            let other := t.job.asker ≠ some a && r.found ≠ .i
            let t := { t with waits := t.waits.erase a, found := t.found || other, owned := t.owned || (other && (r.found = .m || r.found = .o || r.found = .e)) }
            if r.wbPend then
              let owed := match Cells.look (cohAgent s a).pend line with | some p => !p.arrived | none => false
              txProgress line { t with wbs := if owed then t.wbs ++ [a] else t.wbs }
            else
              match r.data with
              | some d => txProgress line { t with data := some d, dirty := t.dirty || r.found = .m || r.found = .o,
                                                   owner := if r.found = .i then t.owner else some a }
              | none => txProgress line t]

def execSnoopResponse (a : Fin 514) (line : Addr) (s : State) : Host.Outcome State Fault Refusal := .next (run (snoopReply a.val (line.toNat / 64)) s)

/-- The directory after an agent's copy has gone. -/
def dirWithout (line a : Nat) : Act :=
  .ask fun s =>
    match Cells.look s.coh.dir line with
    | none => .skip
    | some e =>
      let e' := { e with owned := e.owned && e.owner ≠ a, sharers := e.sharers.filter fun b => b ≠ a, fwd := if e.fwd = some a then none else e.fwd }
      setDir line (if !e'.owned && e'.sharers.isEmpty then none else some e')

/-- A write-back, EvC or EvF reaches the home: memory takes the data (unless what was written meanwhile came after them, `CohSt.forget`), an open transaction that waits for it goes on, WbAck sets out; one from an agent the directory does not record is a violation (R265, Table 11-7). -/
def homeTakes (a line : Nat) (wb : Bool) : Act :=
  .ask fun s =>
    match Cells.look (cohAgent s a).pend line with
    | none => .skip
    | some p =>
      if p.data.isSome ≠ wb then .skip
      else if p.arrived then
        (match Cells.look s.coh.txs line with
         | some t => Act.when (t.wbs.contains a) (txProgress line { t with wbs := t.wbs.erase a })
         | none => .skip)
      else
        let known := match Cells.look s.coh.dir line with
          | some e => (e.owned && decide (e.owner = a)) || (!wb && (e.fwd = some a || e.sharers.contains a))
          | none => false
        if !known then collapseStart 0x4 a line
        else
          Act.all [match p.data with
            | some d => Act.all [writeBack line d, Act.when p.poison (Act.all [poisonLine (line * 64) 0xFFFF, evt COH_EVT.POISONWB])]
            | none => .skip,
            updAgent a fun x => { x with pend := Cells.ins x.pend line { p with arrived := true } },
            dirWithout line a,
            match Cells.look s.coh.txs line with
            | some t =>
              let t := match p.data with | some d => { t with data := some d, dirty := false } | none => t
              txProgress line { t with wbs := t.wbs.erase a }
            | none => .skip]

def execWb (a : Fin 514) (line : Addr) (s : State) : Host.Outcome State Fault Refusal := .next (run (homeTakes a.val (line.toNat / 64) true) s)
def execEvc (a : Fin 514) (line : Addr) (s : State) : Host.Outcome State Fault Refusal := .next (run (homeTakes a.val (line.toNat / 64) false) s)

/-- WbAck reaches the agent: its pending entry clears. -/
def wbAck (a line : Nat) : Act :=
  .ask fun s =>
    match Cells.look (cohAgent s a).pend line with
    | some p => Act.when p.arrived (updAgent a fun x => { x with pend := Cells.del x.pend line })
    | none => .skip

def execWback (a : Fin 514) (line : Addr) (s : State) : Host.Outcome State Fault Refusal := .next (run (wbAck a.val (line.toNat / 64)) s)

/-! Uncached requests (R262). -/

/-- An uncached request finds its line free for it. -/
def uncachedOk (s : State) (line : Nat) : Bool := (Cells.look s.coh.txs line).isNone && (isWarehouse (line * 64) || isQuay (line * 64))

/-- An uncached request faults at its home: its quay answers nothing, or it reads or partly writes a poisoned line (R18, R252). -/
def uncachedFails (s : State) (line : Nat) (full : Bool) : Bool :=
  (isQuay (line * 64) && !quayUp s (line * 64)) || (isPoisoned s (line * 64) && !full)

/-- An uncached request at its home: it waits behind an open transaction, faults, or is served. -/
def uncached (addr : Nat) (full : Bool) (k : Act) : Act :=
  .ask fun s =>
    if !uncachedOk s (addr / 64) then .skip
    else if uncachedFails s (addr / 64) full then Act.all [send (.uncachedFault (BitVec.ofNat 48 addr)), logEv .accessFault]
    else .seq (dirRequest (addr / 64)) k

/-- An uncached read within one line. -/
def uncachedRead (addr n : Nat) : Act :=
  uncached addr false <| .ask fun s =>
    match dirOwner s (addr / 64) with
    | some o => openTx (addr / 64) (.read (BitVec.ofNat 48 addr) n) .snpC [o]
    | none => send (.uncachedData (BitVec.ofNat 48 addr) (lineBytes (memLine s (addr / 64)) addr n))
def execUncachedRead (addr : Addr) (len : Nat) (s : State) : Host.Outcome State Fault Refusal :=
  .next (run (uncachedRead addr.toNat (min len (64 - addr.toNat % 64))) s)

/-- A full-line write. -/
def uncachedFull (line : Nat) (d : Desc) : Act :=
  uncached (line * 64) true <| .ask fun s =>
    if (lineHolders s line).isEmpty then .seq (storeMem {} (line * 64) (descBytes d)) (frameUnpoison (line * 64) (isPoisoned s (line * 64)))
    else openTx line (.fullWrite d) .snpX (lineHolders s line)
def execUncachedFullWrite (line : Addr) (data : Desc) (s : State) : Host.Outcome State Fault Refusal := .next (run (uncachedFull (line.toNat / 64) data) s)

/-- A partial write. -/
def uncachedPart (addr : Nat) (bs : List Byte) : Act :=
  uncached addr false <| .ask fun s =>
    if (lineHolders s (addr / 64)).isEmpty then storeMem {} addr bs
    else openTx (addr / 64) (.partWrite (BitVec.ofNat 48 addr) bs) .snpX (lineHolders s (addr / 64))
def execUncachedPartialWrite (addr : Addr) (bytes : List Byte) (s : State) : Host.Outcome State Fault Refusal :=
  .next (run (uncachedPart addr.toNat (bytes.take (64 - addr.toNat % 64))) s)

/-! The protocol in effect (R260, R261). -/

/-- A D2 session is open (R422). -/
def d2Open (s : State) : Bool := getF s DBG_SESS.LEVEL 0 = 2 || getF s DBG_SESS.LEVEL 1 = 2

/-- COH_CTL.MODE: 1 is honoured in FAB or within a D2 session, 0 always. -/
def cohMode (b : Bool) : Act := .ask fun s => if !b || s.life = .fab || d2Open s then setF COH_CTL.MODE (b2n b) else logEv .cohModeIgnored
def execCohCtlMode (b : Bool) (s : State) : Host.Outcome State Fault Refusal := .next (run (cohMode b) s)

/-- Every line an agent holds changes state by a rule. -/
def mapStates (f : CState → CState) : Act :=
  updCoh fun c => { c with agents := c.agents.map fun e => (e.1, { e.2 with lines := e.2.lines.map fun l => (l.1, { l.2 with st := f l.2.st }) }) }

/-- The switch to the owned protocol: F is treated as S, homes name no forwarder. -/
def toOwned : Act :=
  Act.all [setF COH_STAT.MODE 1, mapStates fun st => if st = .f then .s else st,
    updCoh fun c => { c with dir := c.dir.map fun e => (e.1, { e.2 with fwd := none }) },
    .given (fun s => decide (getF s COH_STAT2.STATE = 0)) (setF COH_STAT2.STATE 1)]

/-- The lines in O, with their owners and data. -/
def oLines (s : State) : List (Nat × Nat × Desc) :=
  s.coh.agents.flatMap fun e => (e.2.lines.filter fun l => l.2.st = .o).map fun l => (e.1, l.1, l.2.data)

/-- The switch to the forwarding protocol: every O line is written back and its owner goes to S, then the forwarding protocol runs. -/
def toTest : Act :=
  .ask fun s => Act.all [Act.each (fun x => writeBack x.2.1 x.2.2) (oLines s), mapStates fun st => if st = .o then .s else st,
    Act.each (fun x => updCoh fun c => { c with dir := c.dir.map fun e =>
      if e.1 = x.2.1 then (e.1, { ({ e.2 with owned := false } : DirEnt).share x.1 with fwd := none }) else e }) (oLines s),
    setF COH_STAT.MODE 0]

/-- Agents with a departure in progress. -/
def departing (s : State) : List Nat := (s.coh.agents.filter fun e => e.2.departing).map fun e => e.1

/-- The protocol at a boundary (R260, R261, Table 11-9): the test mode waits for departures alone; `ready` says that the domain has formed and neither the compute part nor the host domain is in reset. -/
def protocolBoundary (ready : State → Bool) : Act :=
  .ask fun s =>
    let test := getB s COH_CTL.MODE
    if homesStop s then .skip
    else if test && ownedProtocol s && (departing s).isEmpty then toTest
    else if !test && !ownedProtocol s && ready s then toOwned
    else .skip

/-! Departure (R268, R269). -/

/-- What an agent waits for at a home is an operation of its core again. -/
def WaitAcc.withdraw (x : CohAgent) (a : Nat) (w : WaitAcc) : WaitAcc :=
  match w.job with
  | .req _ => if agentNo w.who = a then { w with job := .core a (Cells.get .load x.wants (w.addr.toNat / 64)) } else w
  | _ => w

/-- An agent begins to depart: requests that no home has taken are withdrawn, and no other goes out; every line is written back, given up or dropped. A request whose transaction is open ends first (`grant`). -/
def departBegin (a : Nat) : Act :=
  .ask fun s =>
    let x := cohAgent s a
    if !agentCaches s a || x.departed || x.departing || x.dead then .skip
    else Act.all [updTier fun t => { t with waits := t.waits.map (WaitAcc.withdraw x a) },
      updAgent a fun y => { y with departing := true, departSent := false, wants := y.wants.filter fun w => s.coh.txs.any fun t => decide (t.1 = w.1) && decide (t.2.job.asker = some a) },
      updCoh fun c => { c with reqs := c.reqs.filter fun r => r.1 ≠ a },
      Act.each (fun l => evictLine a l.1) x.lines]

/-- A transaction that serves an agent is open, or a near AMO of its cores waits behind one. -/
def agentServed (s : State) (a : Nat) : Bool := s.coh.txs.any (fun t => decide (t.2.job.asker = some a)) || s.coh.amos.any fun x => decide (coreAgent x.core = a)

/-- A home receives Depart: the agent leaves every entry, the acknowledgements set out. It follows the agent's last WbAck and the last answer to its requests. -/
def depart (a : Nat) : Act :=
  .ask fun s =>
    let x := cohAgent s a
    if x.departing && !x.departSent && x.pend.isEmpty && !agentServed s a then
      Act.all [Act.each (fun e => dirWithout e.1 a) s.coh.dir, updAgent a fun x => { x with departSent := true }]
    else .skip
def execDepart (a : Fin 514) (s : State) : Host.Outcome State Fault Refusal := .next (run (depart a.val) s)

/-- Every home has acknowledged: none has a snoop to the agent on its way, or a reply of it. -/
def departComplete (a : Nat) : Act :=
  .ask fun s =>
    let x := cohAgent s a
    if x.departing && x.departSent && !s.coh.snoops.any (fun y => decide (y.agent = a)) && !s.coh.resps.any (fun y => decide (y.agent = a)) then
      Act.all [updAgent a fun x => { x with departing := false, departSent := false, departed := true, lines := [], pred := x.pred }, evt COH_EVT.DEPARTED]
    else .skip
/-- An agent returns to the domain with empty caches (R269). -/
def rejoin (a : Nat) : Act := updAgent a fun x => { pred := x.pred }

/-- The contention predictors of agents take their reset value (R267). -/
def predReset (l : List Nat) : Act := Act.each (fun a => updAgent a fun x => { x with pred := [] }) l

/-- The agents whose requests stand open at a home, with the line's address. -/
def txAsks (s : State) : List (Nat × Nat) :=
  (s.coh.reqs.map fun r => (r.1, r.2.1 * 64)) ++
  (s.coh.txs.filterMap fun t => t.2.job.asker.map fun a => (a, t.1 * 64)) ++ s.coh.amos.map fun x => (coreAgent x.core, x.addr)

/-- The end of a collapse's write-backs: lines of live owners reach memory, those of dead owners, and copies with an uncorrectable error, are poisoned in warehouse, directories clear, stalled requests fault (Table 11-8). -/
def collapseEnd : Act :=
  .ask fun s =>
    let owned := s.coh.dir.filter fun e => e.2.owned
    let bad := fun (e : Nat × DirEnt) => match copyOf s e.2.owner e.1 with | some c => c.bad && decide (c.st = .m || c.st = .o) | none => false
    let dead := owned.filter fun e => (cohAgent s e.2.owner).dead || bad e || (cohData s e.1).isNone && (cohAgent s e.2.owner).lines.isEmpty && (cohAgent s e.2.owner).pend.isEmpty
    let live := owned.filter fun e => !(cohAgent s e.2.owner).dead
    Act.all [
      Act.each (fun e => match cohData s e.1 with | some d => writeBack e.1 d | none => .skip) live,
      Act.each (fun e => Act.when (isWarehouse (e.1 * 64)) (Act.all [poisonLine (e.1 * 64) 0xFFFF, evt COH_EVT.POISONWB])) dead,
      Act.each (fun r => Act.all [send (.agentFault r.1 (BitVec.ofNat 48 r.2)), logEv .accessFault 0xFF r.1]) (txAsks s),
      Act.each (fun w => Act.all [send (.accessFault w.who w.addr), logEv .accessFault 0xFF (agentOrigin w.who)]) (s.tier.waits.filter fun w => isMember s w.who),
      updTier fun t => { t with waits := t.waits.filter fun w => !isMember s w.who },
      updCoh fun c => { c with dir := [], reqs := [], snoops := [], resps := [], txs := [], amos := [], agents := c.agents.map fun e => (e.1, { departed := true, dead := e.2.dead }) },
      setF COH_STAT.MODE 0]

end Sys2Proof.Machine
end

