-- ==== Sys2Proof/Machine/Dump.lean ====
section
/-! DEFINITION. The crash dump (R392, R393). The manual leaves the places of the sections' bytes open; the model gives each section a fixed place (log 33). -/

namespace Sys2Proof.Machine

/-- A block's registers with their indices, for the tile block those of one tile: names in table order, registers with an RC field and registers of WO fields only left out (R393). -/
def dumpWords (b : Block) (u : Nat) : List (RegName × Nat × Nat) :=
  ((RegName.all.filter fun r => r.loc.block = b && r.fields.all (fun f => f.acc ≠ .rc) && r.fields.any (fun f => f.acc ≠ .wo)).flatMap fun r =>
    if b = .TILE then (List.range r.loc.nj).map fun j => (r, u, j)
    else (List.range r.loc.ni).flatMap fun i => (List.range r.loc.nj).map fun j => (r, i, j))

/-- The blocks in the order of Table 1-11, the tiles one by one: block and tile. -/
def dumpBlocks : List (Block × Nat) :=
  ([.ID, .TIDE, .CHART, .EN, .AGE, .BELL, .CUS] : List Block).map (fun b => (b, 0)) ++ (List.range 512).map (fun u => (.TILE, u)) ++
  ([.NUM, .UPD, .SCH, .SHD, .TIER, .COH, .D2D, .HURAL, .LOG, .HM, .RST, .SEC, .DBG, .CLK] : List Block).map fun b => (b, 0)

/-- The planned unit whose trip keeps the dump from a block (R393). -/
def dumpUnit (b : Block) (u : Nat) : Option Nat :=
  match b with
  | .TILE => some u
  | .UPD => some 512
  | .SCH => some 512
  | .CUS => some 514
  | _ => none

/-- A unit's watchdog has tripped. -/
def hasTripped (s : State) (u : Nat) : Bool := bitOf (getF s RST_TRIP.UNIT (u / 64)) (u % 64)

/-- A section of the directory: TYPE, UNIT, OFFSET and its bytes. -/
structure DumpSec where
  type : Nat
  unit : Nat
  offset : Nat
  bytes : List Byte
deriving DecidableEq, Repr

/-- Where the snapshots, and where the first register section lie. -/
def dumpSnapAt : Nat := 0x2400
def dumpRegAt : Nat := dumpSnapAt + 516 * 128

/-- The register sections' places one after another; the list ends with the place behind the last. -/
def dumpPlaces : Nat → List (Block × Nat) → List (Block × Nat × Nat)
  | a, [] => [(.ID, 0xFFFF, a)]
  | a, (b, u) :: l => (b, u, a) :: dumpPlaces (a + 8 * (dumpWords b u).length) l

/-- A register's tile lies on a die whose tiles do not answer: its reads are not returned. -/
def dumpDark (s : State) (b : Block) (u : Nat) : Bool := b = .TILE && decide (dieState s (u / 128) ≠ 0)

/-- The address of a dumped word. -/
def regAddr (r : RegName) (i j : Nat) : Nat := r.loc.base + i * r.loc.si + j * r.loc.sj

/-- The register sections that the dump reads. -/
def dumpRead (s : State) : List (Block × Nat × Nat) :=
  (dumpPlaces dumpRegAt dumpBlocks).filter fun e => decide (e.2.1 ≠ 0xFFFF) && !(match dumpUnit e.1 e.2.1 with | some u => hasTripped s u | none => false)

/-- Addresses whose reads the state makes unreadable. -/
def dumpUnread (s : State) : List Nat :=
  (dumpRead s).flatMap fun e => if dumpDark s e.1 e.2.1 then (dumpWords e.1 e.2.1).map fun w => regAddr w.1 w.2.1 w.2.2 else []

/-- The section of unreadable addresses lies behind every place. -/
def dumpUnreadAt : Nat := ((dumpPlaces dumpRegAt dumpBlocks).getLastD (.ID, 0, 0)).2.2

/-- The sections, with the unreadable addresses `un`; an unreadable word is zero. -/
def dumpSections (s : State) (un : List Nat) : List DumpSec :=
  { type := 1, unit := 0xFFFF, offset := dumpSnapAt, bytes := (List.range 516).flatMap (snapOf s) } ::
  ((dumpRead s).map fun e => { type := 2, unit := (dumpUnit e.1 e.2.1).getD 0xFFFF, offset := e.2.2,
                               bytes := if dumpDark s e.1 e.2.1 then List.replicate (8 * (dumpWords e.1 e.2.1).length) 0
                                 else (dumpWords e.1 e.2.1).flatMap fun w => w64Bytes (regRead s w.1 w.2.1 w.2.2) }) ++
  (if un = [] then [] else [{ type := 3, unit := 0xFFFF, offset := dumpUnreadAt, bytes := un.flatMap fun a => natLe a 8 }])

/-- The header (Table 18-3) with the directory entries: type, unit, length and offset of each section. -/
def dumpHeader (s : State) (dir : List (Nat × Nat × Nat × Nat)) (un : Nat) : List Byte :=
  natLe 0x504D5544 4 ++ natLe 1 2 ++ natLe s.rst.dumpCause 1 ++ [0] ++ natLe s.rst.dumpSeq 8 ++ natLe s.rst.dumpTai 8 ++ natLe s.rst.dumpTide 8 ++
  w64Bytes (getReg s .IDREV 0 0) ++ w64Bytes (getReg s .CHART_SERIAL 0 0) ++ natLe dir.length 4 ++ natLe un 4 ++
  natLe (0x100 + 16 * dir.length + sumNat (dir.map fun e => e.2.2.1)) 8 ++ List.replicate (0x100 - 0x40) 0 ++
  dir.flatMap fun e => natLe e.1 2 ++ natLe e.2.1 2 ++ natLe e.2.2.1 4 ++ natLe e.2.2.2 8

/-- The crash dump of a reset with a cause, where RST_CFG.DUMP is 1 and a chart gives the region. -/
def crashDump (cause : Nat) : Act :=
  .ask fun s => Act.when (getB s RST_CFG.DUMP && s.chart.cur.isSome) (Act.all [
    updRst fun r => { r with dumpSeq := r.dumpSeq + 1, dumpCause := cause, dumpTai := taiNow s, dumpTide := getF s TIDE_COUNT.COUNT, unread := dumpUnread s },
    .ask fun s =>
      let base := chartF s 6 16 8
      let secs := dumpSections s s.rst.unread
      Act.all [Act.each (fun (d : DumpSec) => pkgWrite (base + d.offset) d.bytes) secs,
        pkgWrite base (dumpHeader s (secs.map fun d => (d.type, d.unit, d.bytes.length, d.offset)) s.rst.unread.length),
        setF RST_DUMP.SEQ s.rst.dumpSeq, setF RST_DUMP.UNREAD (min 0xFFFF s.rst.unread.length), setF RST_DUMP.STATE 2]])

/-- The place of a word in the dump. -/
def dumpWordAt (s : State) (addr : Nat) : Option Nat :=
  (dumpRead s).findSome? fun e => ((dumpWords e.1 e.2.1).zipIdx.find? fun w => regAddr w.1.1 w.1.2.1 w.1.2.2 = addr).map fun w => e.2.2 + 8 * w.2

/-- The directory of the last dump as it lies in memory. -/
def dumpDir (s : State) (base : Nat) : List (Nat × Nat × Nat × Nat) :=
  (List.range (readNat s (base + 0x30) 4)).map fun i =>
    let a := base + 0x100 + 16 * i
    (readNat s a 2, readNat s (a + 2) 2, readNat s (a + 4) 4, readNat s (a + 8) 8)

/-- A read of the dump does not return: its word is zero, its address enters the section of unreadable addresses, and the dump goes on. -/
def dumpTimeout (addr : Nat) : Act :=
  .ask fun s =>
    match dumpWordAt s addr with
    | some o =>
      Act.when (decide (getF s RST_DUMP.STATE = 2) && s.chart.cur.isSome && !s.rst.unread.contains addr) (
        let base := chartF s 6 16 8
        let un := s.rst.unread ++ [addr]
        let dir := ((dumpDir s base).filter fun e => e.1 ≠ 3) ++ [(3, 0xFFFF, 8 * un.length, dumpUnreadAt)]
        Act.all [pkgWrite (base + o) (natLe 0 8), pkgWrite (base + dumpUnreadAt) (un.flatMap fun a => natLe a 8),
          pkgWrite base (dumpHeader s dir un.length), updRst fun r => { r with unread := un }, setF RST_DUMP.UNREAD (min 0xFFFF un.length)])
    | none => .skip
def execDumpReadTimeout (addr : Addr) (s : State) : Host.Outcome State Fault Refusal := .next (run (dumpTimeout addr.toNat) s)

end Sys2Proof.Machine
end

