-- ==== Sys2Proof/Machine/Resets.lean ====
section
/-! DEFINITION. Reset domains: what each clears, how one starts, joins or widens, and its release; watchdogs and lost clocks (R15, R379 to R391). -/

namespace Sys2Proof.Machine

/-! What a reset clears (Table 18-1). -/

/-- The agents of tile control cores, all of them or those of one die. -/
def tileAgents (d : Option Nat) : List Nat :=
  match d with
  | none => List.range 512
  | some d => (List.range 128).map fun k => 128 * d + k

/-- A partition has unfinished items or passes under a plan that it took. -/
def planOpen (s : State) (p : Nat) : Bool := (partSt s p).plan.isSome && !planFinished s p

/-- The plans end: what a partition had not finished never becomes ready (DEDUCED, log 31). -/
def plansDrop : Act :=
  .ask fun s => .prim (.tide fun t =>
    { t with
      sets := t.sets.filter fun x => !x.parts.any fun p => planOpen s p
      parts := (t.parts.map fun e => (e.1, ({ rejected := e.2.rejected, behind := e.2.behind } : PartSt))).filter fun e => e.2 ≠ {} })

/-- The compute part clears: running COPY commands end; a flip that waits is carried out before the pending set is discarded (R382); partitions with open passes keep their warehouse marks (R214); engines, units, registers and the whole quay return to their reset state, and every quay page is lost (R250). -/
def computeClear : Act :=
  Act.all [copiesEnd, .ask fun s => Act.each (fun e => flipGroup e.1) s.upd.delayed, discardPending,
    .ask fun s => updTier fun t => { t with lapse := ((List.range 64).filter fun p => s.num.passes.any fun e => decide (e.1 / 65536 = p) &&
      (match e.2 with | some x => !x.decided || x.repeating | none => false)).foldl (fun l p => Cells.put 0 l p 2) t.lapse },
    plansDrop,
    .prim (.tiles fun _ => []), .prim (.upd fun _ => {}), updNum fun n => { nextPass := n.nextPass },
    fetchDrop (fun w => match w with | .nobody => false | .unit _ => true | .cmd _ _ => true | .page => true), putsDrop fun _ => true,
    updTier fun t => { t with
      copyItems := [], stalls := []
      mig := match t.mig with | .moving _ _ _ => .idle | m => m
      waits := t.waits.filter fun w => match w.who with | .control _ => false | .engine _ => false | _ => true },
    .prim (.regsReset fun r => (r.loc.block = .TILE || r.loc.block = .NUM || r.loc.block = .UPD || r.loc.block = .SCH) && r ≠ .UPD_LIVE),
    .ask fun s => Act.each pageLost (pagesWhere s fun e => e.tier = 1),
    wipe 0x010000000000 0x300000000, haltsClear fun c => decide (c < 512), predReset (tileAgents none)]

/-- The edges of a die. -/
def edgesOf (d : Nat) : List Nat := (List.range 8).filter fun e => match edgeEnds e with | some (a, b) => a = d || b = d | none => false

/-- A die's state in ID_DIEMAP. -/
def setDie (d v : Nat) : Act := .ask fun s => .prim (.reg .ID_DIEMAP 0 0 (BitVec.ofNat 64 (putBits (getReg s .ID_DIEMAP 0 0).toNat (2 * d) 2 v)))

/-- The host domain clears. -/
def hostClear : Act :=
  Act.all [bellReset, cusReset, .prim (.regsReset fun r => r.loc.block = .BELL || r.loc.block = .CUS),
    updTier fun t => { t with waits := t.waits.filter fun w => match w.who with | .host _ => false | .copyDma => false | _ => true },
    sessionEnd 1 5, haltsClear fun c => decide (512 ≤ c) && decide (c < 608), predReset [512],
    .ask fun s => updRst fun r => { r with beat := getF s TIDE_COUNT.COUNT }]

/-! Starting one (R380, R381). -/

/-- A domain is held in reset. -/
def isHeld (s : State) (d : Nat) : Bool := s.rst.held.contains d
def holdDom (d : Nat) : Act := updRst fun r => { r with held := if r.held.contains d then r.held else d :: r.held }
def freeDom (d : Nat) : Act := updRst fun r => { r with held := r.held.filter fun k => k ≠ d }

/-- The last reset, as RST_STAT shows it. -/
def noteReset (dom cause : Nat) : Act := Act.all [setF RST_STAT.CAUSE cause, setF RST_STAT.DOMAIN dom]

/-- Some compute die is held. -/
def dieHeld (s : State) : Bool := (List.range 4).any fun d => isHeld s (d + 2)

/-- The assertion of a host-domain reset. -/
def assertHost (cause : Nat) : Act := Act.all [updRst fun r => { r with hostDue := none }, hostClear, holdDom 6, setDie 4 3, noteReset 6 cause]

/-- A host-domain reset that is due is asserted once the host agent has departed. -/
def hostGo : Act :=
  .ask fun s => match s.rst.hostDue with
    | some c => Act.when (!(cohAgent s 512).departing) (assertHost c)
    | none => .skip

/-- The host domain resets: LOST, the host agent departs, then the assertion. One in progress is joined. -/
def hostReset (cause : Nat) : Act :=
  .ask fun s => Act.when (!isHeld s 6 && !isHeld s 7 && s.rst.hostDue.isNone)
    (Act.all [giveUp, updRst fun r => { r with hostDue := some cause }, departBegin 512, hostGo])

/-- While CD0 and CD1 are both down or held the host domain is held in reset (R9, R383). -/
def hostPath (cause : Nat) : Act := .ask fun s => Act.when (dieDown s 0 && dieDown s 1) (hostReset cause)

/-- The assertion of a reset of the compute part (1) or of compute die `dom - 2`. A die reset in progress stands for the compute part's, which stays held out of service and without a chart (R75, R390). -/
def assertCompute (dom cause : Nat) : Act :=
  Act.all [computeClear, holdDom dom, noteReset dom cause,
    Act.when (decide (2 ≤ dom)) (Act.all [setDie (dom - 2) 3, Act.each edgeTrain (edgesOf (dom - 2)),
      .given (fun s => !s.rst.oos && s.chart.cur.isSome) (freeDom 1), hostPath cause])]

/-- The resets that are due are recorded and asserted once no tile agent departs any more. -/
def resetGo : Act :=
  .ask fun s => Act.when ((departing s).all fun a => decide (512 ≤ a))
    (.seq (updRst fun r => { r with due := [] }) (Act.each (fun (x : Nat × Nat) => .seq (recordEvent x.2) (assertCompute x.1 x.2)) s.rst.due))

/-- A reset joins those that are due: the same or a compute-part one next to any is joined, a compute-part one that is due widens to a die's (R380). -/
def dueJoin (l : List (Nat × Nat)) (dom cause : Nat) : List (Nat × Nat) :=
  if dom = 1 || l.any (fun x => x.1 = dom) then l else (l.filter fun x => x.1 ≠ 1) ++ [(dom, cause)]

/-- A compute-part or die reset is requested. The same or a larger one in progress is joined; a compute-part reset in progress is widened to the die and not counted again; else LOST, the dump, the departures, the record and the assertion follow in this order (R381). -/
def computeReset (dom cause : Nat) : Act :=
  .ask fun s =>
    if isHeld s 7 || isHeld s dom || (dom = 1 && dieHeld s) then .skip
    else if isHeld s 1 && !s.rst.oos then assertCompute dom cause
    else if !s.rst.due.isEmpty then updRst fun r => { r with due := dueJoin r.due dom cause }
    else Act.all [giveUp, crashDump cause, updRst fun r => { r with due := [(dom, cause)] }, Act.each departBegin (tileAgents none), resetGo]

def rstCp (cd : Nat) : Act := Act.all [setF RST_CTL.DIE cd, computeReset 1 1]
def execRstCtlCp (cd : Fin 4) (s : State) : Host.Outcome State Fault Refusal := .next (run (rstCp cd.val) s)

def rstDie (d : Nat) : Act := Act.all [setF RST_CTL.DIE d, computeReset (d + 2) 1]
def execRstCtlDierst (d : Fin 4) (s : State) : Host.Outcome State Fault Refusal := .next (run (rstDie d.val) s)

def execRstCtlHost (s : State) : Host.Outcome State Fault Refusal := .next (run (hostReset 1) s)

/-- OP = 3: STATE becomes 3, ESCALATE is set, and the package is treated as failed (R251, Table 18-1). -/
def objEscalate (o : Nat) : Act :=
  Act.all [setF TIER_OBJCTL.OBJ o, .ask fun s =>
    Act.when (objValid s o) (Act.all [setObjState o 3, setF TIER_OBJCTL.DONE 1, setF TIER_OBJCTL.REFUSED 0, evt TIER_EVT.ESCALATE, giveUp, computeReset 1 5])]
def execTierObjctlEscalate (obj : BitVec 16) (s : State) : Host.Outcome State Fault Refusal := .next (run (objEscalate obj.toNat) s)

/-! The whole package (Table 18-1). -/

/-- What a whole-package reset clears. It keeps the boot flash, the always-on domain's clock and pins, calendar time with one reset more, in holdover where PTP was locked (R408, log 36), demotions, voltage offsets, tallies, events and floors; the warehouse with its metadata where `ware`; where `chart`, on exit from SB, the chart in effect, a TAP session and what RST_STAT shows (R334, R427). -/
def packageClear (ware chart : Bool) : Act :=
  Act.all [Act.when (!chart) (sessionEnd 0 5), sessionEnd 1 5,
    .ask fun s => Act.all [.prim (.regsReset fun _ => true), Act.each (fun d => .seq (setF AGE_DIE.CEIL (getF s AGE_DIE.CEIL d) d) (setF AGE_DIE.OFFSET (getF s AGE_DIE.OFFSET d) d)) (List.range 6),
      Act.when chart (Act.all [setF CHART_SERIAL.SERIAL (getF s CHART_SERIAL.SERIAL), setF CHART_BASESERIAL.SERIAL (getF s CHART_BASESERIAL.SERIAL),
        Act.each (fun k => setF CHART_DIGEST.BYTES (getF s CHART_DIGEST.BYTES k) k) (List.range 4), setF CHART_STAT.SLOT (getF s CHART_STAT.SLOT),
        .prim (.reg .DBG_SESS 0 0 (getReg s .DBG_SESS 0 0)), noteReset (getF s RST_STAT.DOMAIN) (getF s RST_STAT.CAUSE)])],
    if ware then .prim (.clear (2 ^ 40) (2 ^ 48)) else .prim (.clear 0 (2 ^ 49)),
    .prim (.log fun l => { count := l.count, full := l.full, tallies := l.tallies, savedTallies := l.savedTallies }),
    .ask fun s => .prim (.calendar fun t => if t.src = .ptp then { src := .holdover, tai := taiNow s, at_ := s.now, unc := uncertNow s, resets := 1 }
      else { t with resets := t.resets + b2n (!chart), grid := 0 }),
    .prim (.chart fun c => if chart then { c with checking := none, staged := none, waitingParts := [], appliedFirst := false, flashAddr := none, flashImage := none }
      else { slotA := c.slotA, slotB := c.slotB }),
    .prim (.tide fun _ => {}), .prim (.tiles fun _ => []), .prim (.num fun _ => {}), .prim (.upd fun _ => {}), .prim (.cus fun _ => {}),
    .prim (.tier fun t => { info := if ware then t.info.filter fun e => decide (e.1 < 2 ^ 34) else [] }),
    .prim (.coh fun _ => {}), .prim (.bell fun _ => []), .prim (.link fun _ => {}), .prim (.hural fun _ => { hold := true }),
    .prim (.en fun e => { ageFirst := e.ageFirst }), .ask fun s => .prim (.shd fun _ => { since := s.now }), .prim (.hm fun _ => {}),
    .prim (.sec fun x => { ownerHash := x.ownerHash, idDigest := x.idDigest, endorsement := x.endorsement, lifeRecs := x.lifeRecs, next := x.next,
                           hmA := x.hmA, hmB := x.hmB, hostA := x.hostA, hostB := x.hostB, hmFloor := x.hmFloor, hostFloor := x.hostFloor,
                           chartBoot := if chart then x.chartBoot else [], chartRun := if chart then x.chartRun else [], amends := if chart then x.amends else 0, tap := if chart then x.tap else {} }),
    .prim (.rst fun r => { held := [7], events := r.events, oos := r.oos, clkLost := r.clkLost }),
    .prim (.pow fun p => { p with boot := false, fromSb := false, ready := false, xsRel := false, hmFail := false, hostFail := false, status := if chart then p.status else 0, hostImg := [] })]

/-- A CHART_FLASH slot write is cut short: the slot fails its check (R448, log 8). -/
def flashCut : Act :=
  .ask fun s => Act.when s.chart.flashImage.isSome (updChart fun c =>
    { c with slotA := if flashSlot s then c.slotA else [], slotB := if flashSlot s then [] else c.slotB })

/-- A whole-package reset: staging is flushed first (R407), then everything but the always-on domain clears, and every die is held. One in progress is joined. -/
def packageReset (cause : Nat) : Act :=
  .ask fun s => Act.when (!isHeld s 7) (Act.all [closeFloods, flushLog, flashCut, packageClear true false, .prim (.reg .ID_DIEMAP 0 0 0xFFF), noteReset 7 cause])

def execRstCtlPkg (s : State) : Host.Outcome State Fault Refusal := .next (run (packageReset 1) s)

/-! Release (R379). -/

/-- Every compute die and the compute part are out of reset. -/
def computeUp (s : State) : Bool := !isHeld s 1 && !dieHeld s && !isHeld s 7

/-- An agent has departed, or is dead, and its part is out of reset: it may return (R269). -/
def mayRejoin (s : State) (a : Nat) : Bool :=
  agentCaches s a && ((cohAgent s a).departed || (cohAgent s a).dead) &&
  (if a < 512 then computeUp s && s.rst.due.isEmpty && decide (dieState s (a / 128) = 0) && !(s.en.darkDue && decide (s.en.dark = some (a / 128)))
   else !isHeld s 6 && !isHeld s 7 && s.rst.hostDue.isNone)

/-- The departed tile agents of dies in service rejoin with empty caches (R269). -/
def agentsReturn : Act := .ask fun s => Act.each rejoin ((tileAgents none).filter fun a => mayRejoin s a)

/-- The host agent rejoins, and the domain forms again in the forwarding protocol (R260, R269). -/
def hostReturns : Act :=
  Act.all [.given (fun s => mayRejoin s 512) (rejoin 512), .given (fun s => !homesStop s && ownedProtocol s) toTest]

/-- After a collapse the domain has formed again once both parts are out of reset (Table 11-8). -/
def reformed : Act :=
  .given (fun s => computeUp s && !isHeld s 6 && decide (getF s COH_STAT2.STATE = 2) && !s.rst.collapse) (setF COH_STAT2.STATE 3)

/-- A domain's reset is released; where it was a die's or the host domain's its edges train (R279). Out of service, and without a chart, the compute part stays held (R75, R390); the host domain needs a path (R383); the package needs its rails, its reset land high and its reference (R433, R448). -/
def resetRelease (dom : Nat) : Act :=
  .ask fun s =>
    if !isHeld s dom then .skip
    else if dom = 1 then Act.when (!s.rst.oos && !dieHeld s && s.chart.cur.isSome && !s.pow.hmFail && !s.pow.hostFail && !s.pow.boot) (Act.all [freeDom 1, agentsReturn, reformed])
    else if 2 ≤ dom && dom ≤ 5 then
      Act.all [freeDom dom, updRst fun r => { r with clkLost := r.clkLost.filter fun k => k ≠ dom }, setDie (dom - 2) 0,
        updEn fun e => if e.dark = some (dom - 2) then { e with dark := none, darkDue := false, waking := none } else e, Act.each edgeTrain (edgesOf (dom - 2)), agentsReturn, reformed]
    else if dom = 6 then
      Act.when (!(dieDown s 0 && dieDown s 1) && !s.pow.hmFail && !s.pow.hostFail && !s.pow.boot) (Act.all [freeDom 6, setDie 4 0,
        updRst fun r => { r with clkLost := r.clkLost.filter fun k => k ≠ 14 && k ≠ 15 }, Act.each edgeTrain (edgesOf 4), hostReturns, reformed])
    else if dom = 7 then
      Act.when (s.pow.rails && !s.pow.resetN && s.pow.refclk) (Act.all [updRst fun r => { r with held := [1, 6], clkLost := [] },
        .prim (.reg .ID_DIEMAP 0 0 0x300), .prim (.pow fun p => { p with boot := true })])
    else .skip
def execResetRelease (dom : Nat) (s : State) : Host.Outcome State Fault Refusal := .next (run (resetRelease dom) s)

/-! Out of service ends (R391). -/

/-- OOSCLR: within a D2 session the record empties, and a package that was out of service has given up its berth (log 32); else the write is ignored and logged. -/
def oosClear : Act :=
  .ask fun s => if d2Open s then .seq (updRst fun r => { r with oos := false, events := [] }) (Act.when (decide (getF s SHD_STAT.ROLE = 4)) (setF SHD_STAT.ROLE 3))
    else logEv .oosclrIgnored
def execRstCtlOosclr (s : State) : Host.Outcome State Fault Refusal := .next (run oosClear s)

/-! Watchdogs (R385 to R388). -/

/-- A unit trips at this boundary: RST_NOPROG has reached WATCHDOG, and its bit of RST_TRIP is clear. -/
def trips (s : State) (u : Nat) : Bool :=
  decide (getF s RST_ESC.WATCHDOG ≠ 0) && decide (getF s RST_NOPROG.TIDES u = getF s RST_ESC.WATCHDOG) && !hasTripped s u

/-- A trip: every unit that trips at this boundary freezes, takes its bit and is logged, and one compute-part reset follows unless NORESET (R386). -/
def watchdogTrip (u : Nat) : Act :=
  .ask fun s => Act.when (trips s u) (Act.all [
    Act.each (fun v => Act.all [freeze v, setBitF RST_TRIP.UNIT (v % 64) true (v / 64), logEv .watchdogTrip (if v < 512 then v / 128 else 0xFF) v])
      (u :: (List.range 516).filter fun v => decide (v ≠ u) && trips s v),
    Act.when (!getB s RST_CFG.NORESET) (computeReset 1 2)])
def execWatchdogTrip (u : Fin 516) (s : State) : Host.Outcome State Fault Refusal := .next (run (watchdogTrip u.val) s)

/-- BEAT = 1. -/
def hostBeat : Act := .ask fun s => updRst fun r => { r with beat := getF s TIDE_COUNT.COUNT }
def execRstHostwdBeat (s : State) : Host.Outcome State Fault Refusal := .next (run hostBeat s)

/-- LIMIT tides without a beat. -/
def hostTrip : Act :=
  .ask fun s => Act.when (decide (getF s RST_HOSTWD.LIMIT ≠ 0) && decide (s.rst.beat + getF s RST_HOSTWD.LIMIT ≤ getF s TIDE_COUNT.COUNT)) (hostReset 6)
def execHostWatchdogTrip (s : State) : Host.Outcome State Fault Refusal := .next (run hostTrip s)

/-! Lost clocks (R15, R282, R384). -/

/-- A compute die's clock is lost: the die is down, its edges fence, its agents are dead, the domain collapses with cause 0x3. Where a collapse has run already, the loss of the host's last path holds the host domain (R9, R383). -/
def dieLost (d : Nat) : Act :=
  Act.all [setDie d 2, Act.each (fun e => edgeStops e 3) (edgesOf d), Act.each (fun a => updAgent a fun x => { x with dead := true }) (tileAgents (some d)),
    collapseStart 3 (128 * d) 0, .given (fun s => !s.rst.collapse) (hostPath 4)]

/-- A host-die clock is lost: a collapse, and a host-domain reset follows it. -/
def hostLost : Act := Act.all [updAgent 512 fun x => { x with dead := true }, collapseStart 3 512 0]

/-- A monitor declares a clock lost; 0 stands for the reference. Which end of an edge lost its forwarded clock is an open value (log 35). -/
def clockLost (k : Nat) : Act :=
  Act.all [updRst fun r => { r with clkLost := if r.clkLost.contains k then r.clkLost else k :: r.clkLost },
    if k = 0 then evt CLK_LOSS.REF else setBitF CLK_LOSS.LOSS (k - 1) true,
    logEv .clockLost (if 2 ≤ k && k ≤ 5 then k - 2 else if k = 14 || k = 15 then 4 else 0xFF) (data := [k]),
    if k = 0 then .seq (.prim (.pow fun p => { p with refclk := false })) (packageReset 9)
    else if k = 20 then packageReset 9
    else if 2 ≤ k && k ≤ 5 then dieLost (k - 2)
    else if k = 14 || k = 15 then hostLost
    else if 6 ≤ k && k ≤ 13 then withFree fun pick => Act.all [edgeStops (k - 6) 3,
      match edgeEnds (k - 6) with
      | some (a, b) => (let d := if pick 0 % 2 = 0 then a else b
          if d < 4 then dieLost d else .seq (setDie d 2) (Act.when (d = 4) hostLost))
      | none => .skip]
    else .skip]
def execClockLost (dom : Fin 26) (s : State) : Host.Outcome State Fault Refusal := .next (run (clockLost dom.val) s)

/-- A die's clock has not locked 10 ms after its reset started: it stays down and the package goes out of service. -/
def relockTimeout (d : Nat) : Act :=
  .ask fun s => Act.when (isHeld s (d + 2) && s.rst.clkLost.contains (d + 2)) (Act.all [freeDom (d + 2), setDie d 2, goOut])
def execRelockTimeout (d : Fin 4) (s : State) : Host.Outcome State Fault Refusal := .next (run (relockTimeout d.val) s)

/-! The collapse's resets (R271, R381). -/

/-- The dies that are down: a clock of theirs is lost. -/
def lostDies (s : State) : List Nat := (List.range 4).filter fun d => decide (dieState s d = 2)

/-- What follows a collapse's flush: the host domain and the compute part reset, a die that is down, or whose reset was due, resets with them, and the dump follows. -/
def flushResets (lost : List Nat) (due : List (Nat × Nat)) : Act :=
  let dies := lost.map (fun d => (d + 2, 4)) ++ due.filter fun x => decide (2 ≤ x.1) && !lost.contains (x.1 - 2)
  Act.all [updRst fun r => { r with collapse := false, due := [], hostDue := none }, hostReset 3,
    .given (fun s => !isHeld s 7 && (!isHeld s 1 || s.rst.oos) && !dieHeld s && dies.isEmpty) (assertCompute 1 3),
    Act.each (fun (x : Nat × Nat) => .given (fun s => !isHeld s 7 && !isHeld s x.1) (assertCompute x.1 x.2)) dies,
    crashDump 3]

/-- The end of a collapse's flush: the homes end it, and the resets follow. -/
def flushEnd : Act :=
  .ask fun s => Act.when (s.rst.collapse && decide (getF s COH_STAT2.STATE = 2)) (Act.all [collapseEnd, flushResets (lostDies s) s.rst.due])
def execCollapseFlushEnd (s : State) : Host.Outcome State Fault Refusal := .next (run flushEnd s)

/-- COLLAPSE: a cause of Table 11-7 with the agent and the line. -/
def execCollapse (cause : BitVec 8) (agent : Nat) (line : Addr) (s : State) : Host.Outcome State Fault Refusal :=
  .next (run (collapseStart cause.toNat agent (line.toNat / 64)) s)

/-- A snoop's reply is missing (cause 0x1): the snoop or its reply is still on the way. -/
def snoopTimeout (a line : Nat) : Act :=
  .given (fun s => s.coh.snoops.any (fun x => decide (x.agent = a) && decide (x.line = line)) || s.coh.resps.any fun x => decide (x.agent = a) && decide (x.line = line))
    (collapseStart 1 a line)
def execSnoopTimeout (a : Fin 514) (line : Addr) (s : State) : Host.Outcome State Fault Refusal := .next (run (snoopTimeout a.val (line.toNat / 64)) s)

/-- A departure misses its bound (cause 0x2). -/
def departTimeout (a : Nat) : Act := .given (fun s => (cohAgent s a).departing) (collapseStart 2 a 0)
def execDepartureTimeout (a : Fin 514) (s : State) : Host.Outcome State Fault Refusal := .next (run (departTimeout a.val) s)

end Sys2Proof.Machine
end

