-- ==== Sys2Proof/Machine/Boot.lean ====
section
/-! DEFINITION. The boot: identity, images, chart, release (R72 to R75, R411 to R417, R421); keys, owners, endorsements and command records (R418 to R421); attestation (R428). -/

namespace Sys2Proof.Machine

/-! The boot (Table 20-2). -/

/-- A recorded transition takes effect. On entry to RETURN the helper data go, and warehouse and quay become zero (R421). -/
def bootLife : Act :=
  .ask fun s =>
    match s.sec.next with
    | some l => Act.all [.prim (.life l), updSec fun x => { x with next := none },
        Act.when (decide (l = .ret)) (Act.all [updSec fun x => { x with idDigest := none }, .prim (.clear 0 (2 ^ 49)), .prim (.tier fun t => { t with info := [] })])]
    | none => .skip

/-- The identity key is derived from the PUF's seed and accepted where its digest is the stored one (R416); else there is none for this boot (R417). -/
def bootIdentity (puf : Option W64) : Act :=
  .ask fun s =>
    match puf with
    | some v =>
      if s.sec.idDigest = some (sha3_256 (Config.mldsaPublic v.toNat)) then updSec fun x => { x with seed := v.toNat, idKey := Config.mldsaPublic v.toNat }
      else .seq (evt SEC_EVT.IDFAIL) (logEv .noIdentity)
    | none => .seq (evt SEC_EVT.IDFAIL) (logEv .noIdentity)

/-- The choice between two slots: the one that passed, of two the higher SERIAL, A where they are equal; true is B (R72). -/
def slotChoice (okA okB : Bool) (a b : List Byte) : Option Bool :=
  if okA && okB then some (decide (fieldAt a 8 8 < fieldAt b 8 8)) else if okA then some false else if okB then some true else none

/-- The key that verifies images of a kind: the vendor key for the harbourmaster's, the owner key for the host's (R412). -/
def fwKey (s : State) (kind : Nat) : List Byte := if kind = 2 then Config.vendorKeyHash else ownerKey s

/-- An image of a kind passes (R414). -/
def fwPasses (s : State) (kind : Nat) (img : List Byte) : Bool :=
  decide (fwCheck (getReg s .IDREV 0 0).toNat (fwKey s kind) s.life (if kind = 2 then s.sec.hmFloor else s.sec.hostFloor) kind img = 0)

/-- The slots of a kind are checked, each failed one recorded, and the chosen image boots; both failing is noted. In FIELD the floor rises to the SERIAL booted (R415). -/
def bootImages (kind : Nat) (f slot : Fld) (fail : Act) (boots : List Byte → Act) : Act :=
  .ask fun s =>
    let a := if kind = 2 then s.sec.hmA else s.sec.hostA
    let b := if kind = 2 then s.sec.hmB else s.sec.hostB
    let okA := fwPasses s kind a
    let okB := fwPasses s kind b
    Act.all [Act.when (!okA) (.seq (evt f) (logEv .imageFailed)), Act.when (!okB) (.seq (evt f) (logEv .imageFailed)),
      match slotChoice okA okB a b with
      | some c =>
        let img := if c then b else a
        let floor := fieldAt img 8 8
        Act.all [setF slot (b2n c), boots (imgDigest img), Act.when (decide (s.life = .field)) (updSec fun x =>
          if kind = 2 then { x with hmFloor := max x.hmFloor floor } else { x with hostFloor := max x.hostFloor floor })]
      | none => fail]

/-- When the flotilla forms, the harbourmaster of a package that follows measures its path, from 0 to 2,000 ns, an open value (R46). -/
def pathMeasure (c : Chart) : Act := Act.when (c.flRole = 0 || c.flRole = 2) (withFree fun pick => setF TIDE_COMP.DELAY (pick 0 % 2001))

/-- The fields whose reset value is "chart" (R72). ROLE and SERVING follow the berth, and out of service persists (R390). -/
def chartValues : Act :=
  .ask fun s =>
    let c := theChart s
    Act.all [pathMeasure c, setF TIDE_PERIOD.PERIOD c.period, setF TIDE_SRC.ROLE c.flRole, setF TIDE_SRC.MODE (if c.flRole = 1 || c.flRole = 3 then (if c.grid then 3 else 0) else 1), setF TIDE_EPOCH.EPOCH c.epoch, setF TIER_POOL.FREE (c.lend * 512),
      setF RST_ESC.COUNT (c.fld 0xA 0 1), setF RST_ESC.WATCHDOG (c.fld 0xA 1 1), setF RST_ESC.WINDOW (c.fld 0xA 4 4),
      setF SHD_STAT.SERVING c.flBerth, setF SHD_STAT.ROLE (if s.rst.oos then 4 else if c.spares.contains c.flBerth then 1 else 0), setF CHART_STAT.STATE 1]

/-- A full chart loads from slot A (false) or B; the image is applied and logged with its SERIAL and DIGEST (R72, Table 3-7). -/
def chartLoad (b : Bool) (img : List Byte) : Act :=
  let c := imgChart img
  Act.all [updChart fun h => { h with cur := some c, loadedB := some b, fallbackWrites := 0 },
    setF CHART_STAT.SLOT (b2n b), setF CHART_SERIAL.SERIAL c.serial.toNat, setF CHART_BASESERIAL.SERIAL c.serial.toNat,
    Act.each (fun k => setF CHART_DIGEST.BYTES (fieldAt c.digest (8 * k) 8) k) (List.range 4),
    updSec fun x => { x with chartBoot := c.digest, chartRun := c.digest, amends := 0 },
    Act.when c.sealed (.prim (.floor c.serial)), chartValues, logEv .chartApplied (data := [c.serial.toNat, leNat c.digest])]

/-- Fallback, with the default period (R25, R75). -/
def chartFallback : Act := Act.all [updChart fun h => { h with cur := none, loadedB := none, fallbackWrites := 0 }, setF CHART_STAT.STATE 2, setF SHD_STAT.ROLE 0, setF TIDE_PERIOD.PERIOD 100,
  .given (fun s => s.rst.oos) (setF SHD_STAT.ROLE 4)]

/-- The chart slots are checked, each failed one recorded, and one loads (R72). -/
def bootChart : Act :=
  .ask fun s =>
    let ra := chartCheck (chartCx s false) s.chart.slotA
    let rb := chartCheck (chartCx s false) s.chart.slotB
    Act.all [setF CHART_BOOTREASON.SLOTA ra, setF CHART_BOOTREASON.SLOTB rb,
      Act.when (decide (ra ≠ 0)) (.seq (evt CHART_EVT.BOOTFAILA) (logEv .bootSlotFailed)),
      Act.when (decide (rb ≠ 0)) (.seq (evt CHART_EVT.BOOTFAILB) (logEv .bootSlotFailed)),
      match slotChoice (ra = 0) (rb = 0) s.chart.slotA s.chart.slotB with
      | some b => chartLoad b (if b then s.chart.slotB else s.chart.slotA)
      | none => chartFallback]

/-- The host domain is released, with it PKG_READY; the compute part where a chart is in effect and the package is in service. -/
def bootRelease : Act :=
  .ask fun s => Act.all [freeDom 6, setDie 4 0, Act.when (s.chart.cur.isSome && !s.rst.oos) (freeDom 1), .prim (.pow fun p => { p with ready := true })]

/-- What follows the harbourmaster's start: the chart, or after SB the chart kept; the host firmware; the release. -/
def bootRest : Act :=
  .ask fun s => Act.all [if s.pow.fromSb && s.chart.cur.isSome then chartValues else bootChart,
    .prim (.pow fun p => { p with fromSb := false }),
    bootImages 3 SEC_EVT.HOSTFAIL SEC_STAT.HOSTSLOT (.prim (.pow fun p => { p with hostFail := true })) (fun d => .seq (updSec fun x => { x with hostFw := d }) bootRelease)]

/-- The boot of Table 20-2. With both harbourmaster slots failed every other domain stays held and the flash is the board's (R414). -/
def boot (puf : Option W64) : Act :=
  .ask fun s => Act.when (s.pow.boot && s.pow.refclk) (Act.all [.prim (.pow fun p => { p with boot := false }), bootLife, bootIdentity puf,
    bootImages 2 SEC_EVT.HMFAIL SEC_STAT.HMSLOT
      (.seq (.prim (.pow fun p => { p with hmFail := true, xsRel := true })) (.seq (updRst fun r => { r with held := [1, 2, 3, 4, 5, 6] }) (.prim (.reg .ID_DIEMAP 0 0 0x3FF))))
      (fun d => Act.all [updSec fun x => { x with hmBoot := d, hmRun := d, switches := 0 }, setF HM_FWSTAT.VERSION (Config.imageVersion d).toNat, bootRest])])
def execBoot (puf : Option W64) (s : State) : Host.Outcome State Fault Refusal := .next (run (boot puf) s)

/-! SEC_CMD (R416 to R420). The check is one step, so STATE 1 is not seen (log 39). -/

/-- A submission: KIND and ADDR as written, then done or refused with a reason. -/
def secCmd (kind : Nat) (addr : Addr) (check : State → Nat → Nat) (done : State → Nat → Act) : Act :=
  Act.all [setF SEC_CMD.ADDR (addr.toNat / 64), setF SEC_CMD.KIND kind, .ask fun s =>
    let a := addr.toNat / 64 * 64
    let reason := check s a
    if reason = 0 then .seq (setF SEC_CMDSTAT.STATE 2) (done s a)
    else Act.all [setF SEC_CMDSTAT.STATE 3, setF SEC_CMDSTAT.REASON reason, evt SEC_EVT.CMDREJ]]

/-- The state a TARGET byte names. -/
def lifeOf (n : Nat) : Option Life := if n = 0 then some .fab else if n = 1 then some .prov else if n = 2 then some .field else if n = 3 then some .ret else none

/-- A transition of Table 20-4 is allowed; one that waits for its reset admits no other (log 39). -/
def transitionOk (s : State) (target : Nat) : Bool :=
  match lifeOf target with
  | some l => s.life.mayGo l && decide (s.life ≠ l) && (decide (l ≠ .field) || s.sec.ownerHash.isSome) && s.sec.next.isNone
  | none => false

/-- The reason for which a command record is refused, the lowest code that applies; 0 where none (R420). -/
def recordCheck (s : State) (a : Nat) : Nat :=
  let r := readMem s a 0xF18
  let op := fieldAt r 4 1
  if fieldAt r 0 4 ≠ 0x444D4353 then 0x01
  else if fieldAt r 8 8 ≠ (getReg s .IDREV 0 0).toNat || some (slice r 0x10 32) ≠ s.sec.idDigest || !hasIdentity s then 0x03
  else if sha3_256 (r.take 0x580) ≠ slice r 0x580 32 then 0x04
  else if slice r 0x30 32 ≠ ownerKey s || !Config.mldsaVerify (ownerKey s) (slice r 0x580 32) (slice r 0x5A0 2420) then 0x05
  else if !((op = 1 && transitionOk s (fieldAt r 5 1)) || (op = 2 && (s.life = .prov || s.life = .field) && s.sec.ownerHash.isSome)) then 0x0B
  else if fieldAt r 0x50 8 < taiNow s - uncertNow s then 0x0C
  else 0

/-- A record that passes: a transition waits for its reset, or the owner changes and ENDORSED clears (R418, R419, R421). -/
def recordDone (s : State) (a : Nat) : Act :=
  let r := readMem s a 0xF18
  if fieldAt r 4 1 = 1 then
    .seq (updSec fun x => { x with next := lifeOf (fieldAt r 5 1), lifeRecs := x.lifeRecs ++ [r] }) (evt SEC_EVT.LIFE)
  else updSec fun x => { x with ownerHash := some (sha3_256 (slice r 0x60 1312)), endorsement := [] }

def secRecord (addr : Addr) : Act := secCmd 1 addr recordCheck recordDone
def execSecCmdRecord (addr : Addr) (s : State) : Host.Outcome State Fault Refusal := .next (run (secRecord addr) s)

/-- KIND 2: only in PROV while no owner key is enrolled; refused otherwise with 0x0B (DEDUCED, log 39). -/
def secOwner (addr : Addr) : Act :=
  secCmd 2 addr (fun s _ => if s.life = .prov && s.sec.ownerHash.isNone then 0 else 0x0B)
    fun s a => updSec fun x => { x with ownerHash := some (sha3_256 (readMem s a 1312)) }
def execSecCmdEnrolOwner (addr : Addr) (s : State) : Host.Outcome State Fault Refusal := .next (run (secOwner addr) s)

/-- KIND 3: stored where it verifies under the enrolled owner key, refused otherwise with 0x05 (DEDUCED, log 39). -/
def secEndorse (addr : Addr) : Act :=
  secCmd 3 addr (fun s a => match s.sec.ownerHash with
      | some k => if hasIdentity s && Config.mldsaVerify k (endorsed s.sec.idKey (getReg s .IDREV 0 0)) (readMem s a 2420) then 0 else 0x05
      | none => 0x05)
    fun s a => updSec fun x => { x with endorsement := readMem s a 2420 }
def execSecCmdEndorsement (addr : Addr) (s : State) : Host.Outcome State Fault Refusal := .next (run (secEndorse addr) s)

/-- KIND 4: in FAB while no helper data exist; the digest they come with is an open value, since the buffer's layout is not given (log 39). -/
def secIdentity (addr : Addr) : Act :=
  secCmd 4 addr (fun s _ => if s.life = .fab && s.sec.idDigest.isNone then 0 else 0x0B)
    fun _ _ => withFree fun pick => updSec fun x => { x with idDigest := some (natLe (pick 0) 32) }
def execSecCmdEnrolIdentity (addr : Addr) (s : State) : Host.Outcome State Fault Refusal := .next (run (secIdentity addr) s)

/-- Within 1 s of a recorded transition the security core resets the package; the manual names no cause of its own, RST_STAT reads software (log 39). -/
def lifeReset : Act := .ask fun s => Act.when s.sec.next.isSome (packageReset 1)
def execLifecycleReset (s : State) : Host.Outcome State Fault Refusal := .next (run lifeReset s)

/-! Attestation (R428). -/

/-- SEC_ATTEST with GO = 1: ignored while a report is in progress; without identity nothing is reported. -/
def attestGo (addr : Addr) : Act :=
  .ask fun s => Act.when s.sec.report.isNone (.seq (setF SEC_ATTEST.ADDR (addr.toNat / 64)) (
    if hasIdentity s then
      let a := addr.toNat / 64 * 64
      .seq (setF SEC_ATTEST.DONE 0) (updSec fun x => { x with report := some (BitVec.ofNat 48 a, readMem s (a + 0x30) 32) })
    else .seq (setF SEC_ATTEST.DONE 0) (evt SEC_EVT.IDFAIL)))
def execSecAttestGo (addr : Addr) (s : State) : Host.Outcome State Fault Refusal := .next (run (attestGo addr) s)

/-- Bytes 0x000..0x1DF of the report (Table 20-8). SEQ counts this report too (log 39). -/
def reportHead (s : State) (nonce : List Byte) : List Byte :=
  let top := fun (f : Fld) => max (getF s f 0) (getF s f 1)
  natLe 0x53545441 4 ++ natLe 1 2 ++ natLe s.life.code 1 ++ natLe (top DBG_SESS.LEVEL + 4 * top DBG_SESS.MAX) 1 ++ w64Bytes (getReg s .IDREV 0 0) ++
  natLe (taiNow s) 8 ++ natLe (uncertNow s) 4 ++ natLe 0 4 ++ natLe (getF s TIDE_COUNT.COUNT) 8 ++ natLe (s.sec.reports + 1) 8 ++
  fitTo 32 nonce ++ fitTo 32 (s.sec.idDigest.getD []) ++ fitTo 32 (s.sec.ownerHash.getD []) ++ fitTo 32 s.sec.hmBoot ++ fitTo 32 s.sec.hmRun ++
  fitTo 32 s.sec.hostFw ++ fitTo 32 s.sec.chartBoot ++ fitTo 32 s.sec.chartRun ++ natLe s.sec.amends 4 ++ natLe s.sec.switches 4 ++
  sha3_256 s.sec.lifeRecs.flatten ++ List.replicate 136 0

/-- The security core writes the signed report and sets DONE. -/
def attestDone : Act :=
  .ask fun s =>
    match s.sec.report with
    | some (a, nonce) =>
      let h := reportHead s nonce
      let d := sha3_256 h
      Act.all [pkgWrite a.toNat (h ++ d ++ fitTo 2420 (Config.mldsaSign s.sec.seed d) ++ natLe 0 4),
        setF SEC_ATTEST.DONE 1, updSec fun x => { x with report := none, reports := x.reports + 1 }]
    | none => .skip
def execAttestDone (s : State) : Host.Outcome State Fault Refusal := .next (run attestDone s)

end Sys2Proof.Machine
end

