-- ==== Sys2Proof/Machine/Power.lean ====
section
/-! DEFINITION. Power: dark dies, standby, the rails and lands, the board interface over I3C and AVSBus (R321, R332 to R334, R430 to R448). -/

namespace Sys2Proof.Machine

def updPow (f : PowSt → PowSt) : Act := .prim (.pow f)

/-! DD (R333). -/

/-- A tile of a die belongs to a partition that holds a plan. -/
def dieHasPlan (s : State) (d : Nat) : Bool := (theChart s).parts.any fun e => holdsPlan s e.part && (bitList e.tiles 512).any fun u => decide (u / 128 = d)

/-- Another die than `d` is dark, or is about to be. -/
def otherDark (s : State) (d : Nat) : Bool :=
  (match s.en.dark with | some e => decide (e ≠ d) | none => false) || (match s.en.darkNext with | some k => decide (k ≠ 0) && decide (k ≠ d + 1) | none => false)

/-- EN_CTL.DARK: 5..7 are ignored; a request that R333 refuses leaves the field and sets DDREF. -/
def darkWrite (k : Nat) : Act :=
  .ask fun s =>
    if 5 ≤ k then .skip
    else if 1 ≤ k && (otherDark s (k - 1) || dieHasPlan s (k - 1)) then .seq (evt EN_EVT.DDREF) (logEv .darkRefused (k - 1))
    else .seq (setF EN_CTL.DARK k) (updEn fun e => { e with darkNext := some k })
def execEnCtlDark (dark : BitVec 3) (s : State) : Host.Outcome State Fault Refusal := .next (run (darkWrite dark.toNat) s)

/-- The registers of a die's tiles return to their reset values. -/
def tileRegsReset (d : Nat) : Act :=
  Act.each (fun r => Act.each (fun u => Act.each (fun j => resetReg r u j) (List.range r.loc.nj)) (tileAgents (some d))) (RegName.all.filter fun r => r.loc.block = .TILE)

/-- A die whose agents have departed powers down its tiles and its quay: quay pages left on it are lost (R250), halts of its cores are discarded (Table 20-7), and it is dark. -/
def darkDown (d : Nat) : Act :=
  Act.all [.ask fun s => Act.each pageLost (pagesWhere s fun e => decide (e.tier = 1) && isQuay e.frame && decide (quayDie e.frame = d)),
    wipe (0x010000000000 + d * 0xC0000000) 0xC0000000,
    .prim (.tiles fun m => m.filter fun e => e.1 / 128 ≠ d), tileRegsReset d, haltsClear fun c => decide (c < 512) && decide (c / 128 = d), predReset (tileAgents (some d)),
    setDie d 1, updEn fun e => { e with darkDue := false },
    .ask fun s => .seq (setF EN_STATE.PSTATE (8 + getF s EN_STATE.PSTATE d % 4) d) (setF EN_STATE.SLOTS 0 d)]

/-- The die that enters DD powers down once none of its agents departs any more. -/
def darkGo : Act :=
  .ask fun s => match s.en.dark with
    | some d => Act.when (s.en.darkDue && (departing s).all fun a => decide (a / 128 ≠ d)) (darkDown d)
    | none => .skip

/-- A die enters DD: its agents depart first (R268, R333). -/
def darkEnter (d : Nat) : Act := Act.all [updEn fun e => { e with dark := some d, darkDue := true }, Act.each departBegin (tileAgents (some d)), darkGo]

/-- A DD request at its boundary: entry, or the start of the dark die's exit (Table 2-3). -/
def darkBoundary : Act :=
  .ask fun s =>
    match s.en.darkNext with
    | some k => Act.all [updEn fun e => { e with darkNext := none },
        match s.en.dark with
        | some d => Act.when (k = 0) (updEn fun e => { e with waking := some d })
        | none => Act.when (decide (1 ≤ k) && decide (dieState s (k - 1) = 0)) (darkEnter (k - 1))]
    | none => .skip

/-- DEPARTURE_COMPLETE: the agent has departed, and what waited for it goes on: a reset, an entry into DD, or its return where an amendment has named its tile again (R268, R269, R381). -/
def departureEnds (a : Nat) : Act :=
  Act.all [departComplete a, resetGo, hostGo, darkGo, .given (fun s => mayRejoin s a && agentMember s a) (rejoin a)]
def execDepartureComplete (a : Fin 514) (s : State) : Host.Outcome State Fault Refusal := .next (run (departureEnds a.val) s)

/-- The exit ends: the die is in service, its agents rejoin with empty caches (R269). -/
def darkExit (d : Nat) : Act :=
  .ask fun s => Act.when (decide (s.en.waking = some d) && !s.en.darkDue) (Act.all [updEn fun e => { e with dark := none, waking := none },
    Act.when (decide (dieState s d = 1)) (setDie d 0), setF EN_STATE.PSTATE (getF s EN_STATE.PSTATE d % 8) d, agentsReturn])
def execDdExitComplete (d : Fin 4) (s : State) : Host.Outcome State Fault Refusal := .next (run (darkExit d.val) s)

/-! SB (R334). -/

/-- Every partition is drained as under R82. -/
def allDrained (s : State) : Bool := (theChart s).parts.all fun e => !holdsPlan s e.part

/-- EN_CTL.SB: honoured when every partition is drained, else SBREF. A board's request stands (Table 21-8). -/
def sbRequest : Act :=
  .ask fun s =>
    if s.en.sb ≠ .off then .skip
    else if allDrained s then updEn fun e => { e with sb := .software } else evt EN_EVT.SBREF
def execEnCtlSb (s : State) : Host.Outcome State Fault Refusal := .next (run sbRequest s)

/-- Standby: LOST where the package serves a job, the ports close as absent, D2 sessions and the in-band session end (Table 20-7), staging and tallies are flushed (R406, R407), PTP is lost, and all but the harbourmaster and the always-on domain powers down. -/
def sbEnter : Act :=
  Act.all [giveUp, Act.each (fun n => .given (fun s => portState s n ≠ 0 && portState s n ≠ 6) (.seq (sendClose n 1) (endSession n 0 0))) (List.range 18),
    sessionEnd 1 4, .given (fun s => sessLevel s 0 = 2) (sessionEnd 0 4), closeFloods, flushLog, tallySave, ptpLost,
    updEn fun e => { e with sb := .standby, darkNext := none }, updPow fun p => { p with ready := false },
    updRst fun r => { r with held := [1, 2, 3, 4, 5, 6], due := [], hostDue := none }, .prim (.reg .ID_DIEMAP 0 0 0x3FF)]

/-- The entry: with the partitions drained. -/
def sbEntry : Act := .ask fun s => Act.when (s.en.sb = .software || (s.en.sb = .board && allDrained s)) sbEnter
def execSbEntry (s : State) : Host.Outcome State Fault Refusal := .next (run sbEntry s)

/-- One second after the board's request the package enters SB in any case. -/
def execSbDrainTimeout (s : State) : Host.Outcome State Fault Refusal := .next (run (.ask fun s => Act.when (decide (s.en.sb = .board)) sbEnter) s)

/-- The board ends SB: the package comes up as from a whole-package reset, with chart and warehouse. -/
def sbLeave : Act :=
  Act.all [packageClear true true, updRst fun r => { r with held := [1, 6] }, .prim (.reg .ID_DIEMAP 0 0 0x300), updPow fun p => { p with boot := true, fromSb := true }]

/-! Rails and lands (R431 to R437, R446, R448). -/

/-- What a loss of the 48 V input loses: the warehouse, staged records, tallies since their last save, flash writes in progress; calendar time where the standby rail is absent (R406 to R408, R432). -/
def powerLoss : Act :=
  Act.all [flashCut, packageClear false false, noteReset 7 0x0A, .prim (.reg .ID_DIEMAP 0 0 0xFFF),
    .ask fun s => .prim (.log fun l => { l with count := (s.flashLog.map fun r => r.index + 1).foldl max 0, full := s.flashLog.any (fun r => r.kind = .logFull), tallies := l.savedTallies }),
    .ask fun s => Act.when (!s.pow.standby) (updTime fun _ => { at_ := s.now }),
    updPow fun p => { p with rails := false, stopped := true }]

/-- VIN48 enters its range: the converters start where they may; without V3P3SB the always-on domain starts with it, from time 0 (R434). -/
def vinRise : Act :=
  .ask fun s => Act.when (!s.pow.vin && !s.pow.stopped) (.seq (updPow fun p => { p with vin := true }) (Act.when (!s.pow.standby) (updTime fun _ => { at_ := s.now })))
def execVin48Rise (s : State) : Host.Outcome State Fault Refusal := .next (run vinRise s)

/-- The converters complete; the reset is released at the later of this and RESET_N. -/
def convertersReady : Act := .ask fun s => Act.when (s.pow.vin && !s.pow.stopped && !s.pow.rails) (.seq (updPow fun p => { p with rails := true }) (resetRelease 7))
def execConvertersReady (s : State) : Host.Outcome State Fault Refusal := .next (run convertersReady s)

/-- VIN48 below 38 V or above 62 V for 5 µs. -/
def vinOut : Act := .ask fun s => Act.when s.pow.vin (.seq (updPow fun p => { p with vin := false }) powerLoss)
def execVin48OutOfRange (s : State) : Host.Outcome State Fault Refusal := .next (run vinOut s)

/-- VIN48 below 5 V for 100 ms: THERMTRIP_N is released, the package can restart. -/
def vinDischarged : Act := .ask fun s => .seq (Act.when s.pow.rails powerLoss) (updPow fun p => { p with vin := false, stopped := false, trip := false })
def execVin48Discharged (s : State) : Host.Outcome State Fault Refusal := .next (run vinDischarged s)

/-- A sensor at 125 °C: THERMTRIP_N goes low and every converter stops. -/
def execThermtrip (s : State) : Host.Outcome State Fault Refusal := .next (run (.seq (.given (fun s => s.pow.rails) powerLoss) (updPow fun p => { p with trip := true, stopped := true })) s)

/-- V3P3SB is lost: with VIN48 in range a record is written and nothing else changes; else the always-on domain and its time are gone (R435). -/
def standbyLost : Act :=
  .ask fun s => Act.when s.pow.standby (.seq (updPow fun p => { p with standby := false }) (if s.pow.vin then logEv .standbyLost else updTime fun _ => { at_ := s.now }))
def execV3p3sbLost (s : State) : Host.Outcome State Fault Refusal := .next (run standbyLost s)

/-- V3P3SB returns; where VIN48 is absent the always-on domain starts with it, from time 0. -/
def standbyBack : Act :=
  .ask fun s => Act.when (!s.pow.standby) (.seq (updPow fun p => { p with standby := true }) (Act.when (!s.pow.vin) (updTime fun _ => { at_ := s.now })))
def execV3p3sbRestore (s : State) : Host.Outcome State Fault Refusal := .next (run standbyBack s)

/-- RESET_N acts: a reset with cause 0x07, which also names a reset that it joins (Table 21-8). -/
def resetLand : Act := Act.all [updPow fun p => { p with resetN := true }, packageReset 7, .given (fun s => isHeld s 7 && s.pow.rails) (noteReset 7 7)]

/-- RESET_N low for `ns`: below 1 µs ignored, from 10 µs on it acts, between them it may (R436). -/
def resetNLow (ns : Nat) : Act :=
  if ns < 1000 then .skip
  else if 10000 ≤ ns then resetLand
  else withFree fun pick => if pick 0 % 2 = 1 then resetLand else .skip
def execResetNLow (ns : Nat) (s : State) : Host.Outcome State Fault Refusal := .next (run (resetNLow ns) s)

def execResetNRelease (s : State) : Host.Outcome State Fault Refusal := .next (run (.seq (updPow fun p => { p with resetN := false }) (resetRelease 7)) s)

def execRefclkLost (s : State) : Host.Outcome State Fault Refusal := .next (run (clockLost 0) s)

def refclkBack : Act := Act.all [updPow fun p => { p with refclk := true }, updRst fun r => { r with clkLost := r.clkLost.filter fun k => k ≠ 0 }, resetRelease 7]
def execRefclkReturn (s : State) : Host.Outcome State Fault Refusal := .next (run refclkBack s)

/-! AVSBus (R441). -/

/-- The supply answers with its available input power, or does not answer: then AVSV stays as it is (log 40). -/
def avsPoll : Option (BitVec 16) → Act
  | some w => .seq (setF EN_BOARD.AVSLIM w.toNat) (setF EN_BOARD.AVSV 1)
  | none => .skip
def execAvsPoll (power : Option (BitVec 16)) (s : State) : Host.Outcome State Fault Refusal := .next (run (avsPoll power) s)

/-! I3C (R440). -/

/-- STATUS. -/
def statusNow (s : State) : Nat :=
  b2n s.pow.ready + 2 * b2n (s.en.sb = .standby) + 4 * b2n s.pow.hmFail + 8 * b2n s.pow.hostFail + 16 * b2n s.rst.oos +
  32 * b2n (getF s CHART_STAT.STATE = 2) + 64 * b2n s.pow.trip

/-- The package answers I3C while its converters run. -/
def i3c (a : Act) : Act := .ask fun s => if s.pow.rails then a else send .i3cNack

/-- A read of an index. -/
def i3cGet (f : State → List Byte) : Act := i3c (.ask fun s => send (.i3cData (f s)))
def execI3cStatus (s : State) : Host.Outcome State Fault Refusal := .next (run (i3cGet fun s => natLe (statusNow s) 2) s)
def execI3cIdent (s : State) : Host.Outcome State Fault Refusal := .next (run (i3cGet fun s => if hasIdentity s then fitTo 32 (s.sec.idDigest.getD []) else List.replicate 32 0) s)

/-- PIN: the dies' energy of the ended tide over its period, through the converters (DEDUCED, log 40). -/
def inputPower (s : State) : Nat := sumNat ((List.range 6).map fun d => getF s EN_LEDGER.USED d) * 1000 / (max 1 (periodNow s) * max 1 s.en.eta)
def execI3cPin (s : State) : Host.Outcome State Fault Refusal := .next (run (i3cGet fun s => natLe (inputPower s) 2) s)

/-- TEMP: a sensor's reading, an open value. -/
def execI3cTemp (s : State) : Host.Outcome State Fault Refusal := .next (run (i3c (withFree fun pick => send (.i3cData (natLe (pick 0) 2)))) s)

/-- An in-band interrupt once STATUS has changed. -/
def statusIbi : Act :=
  .ask fun s => Act.when (s.pow.rails && decide (statusNow s ≠ s.pow.status)) (.seq (send (.i3cInterrupt (BitVec.ofNat 8 (statusNow s)))) (updPow fun p => { p with status := statusNow s }))
def execI3cStatusIbi (s : State) : Host.Outcome State Fault Refusal := .next (run statusIbi s)

/-- The board's caps. -/
def capSust (w : Nat) : Act := i3c (Act.all [setF EN_BOARD.I3CSUST w, setF EN_BOARD.I3CV 1, updEn fun e => { e with sustSeen := true }])
def capExc (w : Nat) : Act := i3c (Act.all [setF EN_BOARD.I3CEXC w, setF EN_BOARD.I3CV 1, updEn fun e => { e with excSeen := true }])
def execI3cCapsust (w : BitVec 16) (s : State) : Host.Outcome State Fault Refusal := .next (run (capSust w.toNat) s)
def execI3cCapexc (w : BitVec 16) (s : State) : Host.Outcome State Fault Refusal := .next (run (capExc w.toNat) s)

/-- REQ: 1 enters SB, without effect inside it; 2 leaves it, without effect outside; 3 resets the package. -/
def execI3cReqEnterSb (s : State) : Host.Outcome State Fault Refusal :=
  .next (run (i3c (updEn fun e => { e with sb := if e.sb = .standby then .standby else .board })) s)
def execI3cReqLeaveSb (s : State) : Host.Outcome State Fault Refusal := .next (run (i3c (.given (fun s => s.en.sb = .standby) sbLeave)) s)
def execI3cReqReset (s : State) : Host.Outcome State Fault Refusal := .next (run (i3c (packageReset 8)) s)

/-- The host image written over I3C ends: checked under R414, written into both host slots, and booted. -/
def hostImageEnd : Act :=
  .ask fun s =>
    let img := s.pow.hostImg
    .seq (updPow fun p => { p with hostImg := [] }) (
      if fwPasses s 3 img then
        Act.all [updSec fun x => { x with hostA := img.take (imgLength img), hostB := img.take (imgLength img), hostFw := imgDigest img,
                                          hostFloor := if s.life = .field then max x.hostFloor (fieldAt img 8 8) else x.hostFloor },
          setF SEC_STAT.HOSTSLOT 0, updPow fun p => { p with hostFail := false }, bootRelease]
      else .seq (evt SEC_EVT.HOSTFAIL) (logEv .imageFailed))

/-- HOSTIMG, only while HOSTFAIL is 1: bytes are appended, an empty write ends the image. -/
def hostImage (bs : List Byte) : Act :=
  .ask fun s =>
    if !s.pow.rails || !s.pow.hostFail || 4096 < bs.length then send .i3cNack
    else if bs.isEmpty then hostImageEnd
    else updPow fun p => { p with hostImg := p.hostImg ++ bs }
def execI3cHostimg (bytes : List Byte) (s : State) : Host.Outcome State Fault Refusal := .next (run (hostImage bytes) s)

end Sys2Proof.Machine
end

