-- ==== Sys2Proof/Machine/Boundary.lean ====
section
/-! DEFINITION. The boundary: slips, commit tokens, step close, dark declarations, amendments, and the taking of plans (Table 2-3, R25 to R43, R81, R82). -/

namespace Sys2Proof.Machine

/-! Slips (R35 to R38, R385). -/

/-- A unit slips: its counters, and at the third boundary in a row the suspicion, which a later slip marks again. -/
def unitSlips (u : Nat) : Act :=
  .ask fun s =>
    let k := getF s TIDE_UNIT.CONSEC u
    Act.all [incF TIDE_SLIPS.SLIPS, incF TIDE_UNIT.SLIPS 1 u, setF TIDE_UNIT.CONSEC (min 3 (k + 1)) u,
      Act.when (decide (2 ≤ k)) (setBitF TIDE_SUSPECT.UNIT (u % 64) true (u / 64)),
      Act.when (k = 2) (.seq (evt TIDE_EVT.SUSPECT) (logEv .suspect (if u < 512 then u / 128 else 0xFF) u))]

/-- Slips of a partition are latched, and the next tide is a catch-up tide where a unit slipped. -/
def partSlips (p : Nat) : Act :=
  .ask fun s =>
    let units := partUnits s p
    let slip := units.any fun u => unitBusy s u
    Act.all [Act.each (fun u => if unitBusy s u then unitSlips u else Act.when (s.tide.progress.contains u) (setF TIDE_UNIT.CONSEC 0 u)) units,
      updPart p fun x => { x with slip := slip }, setF TIDE_PLAN.CATCHUP (b2n slip) p, Act.when slip (incF TIDE_PLAN.SHIFTS 1 p)]

/-- RST_NOPROG of every unit. -/
def noProgress : Act :=
  .seq (Act.each (fun u => .ask fun s => if unitBusy s u && !s.tide.progress.contains u then incF RST_NOPROG.TIDES 1 u else setF RST_NOPROG.TIDES 0 u) (List.range 516))
    (updTide fun t => { t with progress := [] })

/-- TIDE_PLAN is sampled (R29). -/
def samplePlans : Act :=
  Act.each (fun p => .ask fun s => updPart p fun x =>
    { x with sampled := if getB s TIDE_PLAN.VALID p then some (BitVec.ofNat 48 (getF s TIDE_PLAN.ADDR p * 64)) else none, rewritten := false }) (List.range 64)

/-! Commit tokens and step close (R42, R137, R202). -/

/-- A token lies above the highest committed set. -/
def isNewer (s : State) (t : SetNo) : Bool :=
  match s.tide.committed with
  | some c => decide ((t - c).toNat ≠ 0) && decide ((t - c).toNat < 2 ^ 15)
  | none => true

/-- Every set up to the token commits; the pending set of the update engine commits with its set. -/
def commitToken : Act :=
  .ask fun s =>
    match s.tide.token with
    | some t => .seq (updTide fun x => { x with token := none }) (Act.when (isNewer s t) (.seq (updTide fun x => { x with committed := some t }) (.ask fun n =>
        let set := BitVec.ofNat 16 (getF s UPD_PSET.SET)
        Act.all [Act.when (getB s UPD_PSET.VALID && !isCommitted s set && isCommitted n set) commitPending,
          updTide fun x => { x with sets := x.sets.filter fun y => !isCommitted n y.set, ready := x.ready.filter fun y => !isCommitted n y.1,
                                    fready := x.fready.filter fun y => !isCommitted n y.set, crossSets := x.crossSets.filter fun y => !isCommitted n y.1 }])))
    | none => .skip

/-- A step of a partition closes (R138, R206, R214, R316, R364). -/
def stepClose (p : Nat) : Act :=
  .ask fun s => Act.when (stepCloses s p) (Act.all [stepCloseNum p, updTier fun t => { t with lapse := Cells.del t.lapse p },
    Act.when (decide (updPart? s = some p)) (.ask fun s => computeEta (getF s NUM_STEP.STEP p)), cusStepClose p, shdStepClose p])

/-- The dark declaration of this boundary's frame. -/
def darkDeclared : Act :=
  .ask fun s => match s.tide.dark with
    | some b => .seq (updTide fun t => { t with dark := none }) (darkApply b)
    | none => .skip

/-! Amendments (R34, R81, R82). -/

/-- A partition is drained. -/
def drained (s : State) (p : Nat) : Bool :=
  !holdsPlan s p && !getB s TIDE_PLAN.VALID p && !partBusy s p && s.tide.sets.all fun x => !x.parts.contains p || isCommitted s x.set

/-- TILEROLE where some partitions wait: their tiles keep the role they had. -/
def rolesPart (old new : Chart) (waits : List Nat) : List Byte :=
  (List.range (new.sec 2).length).map fun k => BitVec.ofNat 8 (match old.partOf k with
    | some p => if k < 512 && waits.contains p then old.fld 2 k 1 else new.fld 2 k 1
    | none => new.fld 2 k 1)

/-- FLOTILLA takes effect: the role at the marks, the path to the pilot as the harbourmaster measures it (R46), the berth and its role. A package that gave up its berth returns as a spare under a berth number that no ALIAS names (R367, R368). -/
def flotillaTaken (c : Chart) : Act :=
  .ask fun s =>
    let spare := c.spares.contains c.flBerth
    let named := (List.range 256).any fun b => decide (b ≠ c.flBerth) && decide (getF s HURAL_ALIAS.SERVER 0 b = c.flBerth)
    let role := getF s SHD_STAT.ROLE
    Act.all [setF TIDE_SRC.ROLE c.flRole, setF TIDE_SRC.MODE (if c.flRole = 1 || c.flRole = 3 then (if c.grid then 3 else 0) else 1),
      updTide fun t => { t with spareRole := false, failIn := 0 }, pathMeasure c,
      if role = 3 then Act.when (spare && !named && decide (getF s HURAL_ALIAS.SERVER 0 c.flBerth = c.flBerth)) (.seq (setF SHD_STAT.ROLE 1) (setF SHD_STAT.SERVING c.flBerth))
      else Act.all [Act.when (decide (role ≤ 1)) (setF SHD_STAT.ROLE (b2n spare)), Act.when (decide (role ≠ 2)) (setF SHD_STAT.SERVING c.flBerth)]]

/-- TIDE takes effect: the period, and the epoch (R25, R50, R66). A period that this boundary's frame gave stands (R45). -/
def tideTaken (old new : Chart) : Act :=
  .ask fun s => Act.all [Act.when (!s.tide.framed) (setF TIDE_PERIOD.PERIOD new.period), setF TIDE_PERIOD.NEXT 0,
    setF TIDE_EPOCH.EPOCH (if new.grid && new.period ≠ old.period then taiNow s - (s.now - s.tide.markAt) / 4 else new.epoch),
    Act.when (isPilot s) (setF TIDE_SRC.MODE (if new.grid then 3 else 0))]

/-- What a section does when it takes effect beyond being read from the chart. A tile whose part is power-gated keeps what its stores hold, and holds it still when its part is powered again: the manual does not say (DESIGN CHOICE, log 66). A package that an amendment puts out of service holds its compute part once its tile agents begin to depart (R381, R390). -/
def sectionTaken (old new : Chart) (t : Nat) : Act :=
  match t with
  | 0x4 => .seq (.ask fun s => setF TIER_POOL.FREE (new.lend * 512 - getF s TIER_POOL.USED)) (quotaCheck old.quota)
  | 0x5 => Act.each (fun u => .given (fun s => mayRejoin s u) (rejoin u)) ((List.range 512).filter fun u => new.memberTile u && !old.memberTile u)
  | 0x8 => flotillaTaken new
  | 0x9 => tideTaken old new
  | 0xA => Act.all [setF RST_ESC.COUNT (new.fld 0xA 0 1), setF RST_ESC.WATCHDOG (new.fld 0xA 1 1), setF RST_ESC.WINDOW (new.fld 0xA 4 4),
      .ask fun s => .seq judgeRecord (.given (fun t => !s.rst.oos && t.rst.oos && !isHeld s 1 && !isHeld s 7)
        (.seq (Act.each departBegin (tileAgents none)) computeClear))]
  | 0xB => .prim (.log fun l => { l with deficits := [] })
  | 0xC => Act.each (fun p => .ask fun s => Act.when (decide (levelAllowed s < sessLevel s p)) (sessionEnd p 3)) [0, 1]
  | _ => .skip

/-- Sections take effect together. Tiles that leave the domain depart first (R62). -/
def sectionsTaken (secs : List (Nat × List Byte)) (locks : Bool) : Act :=
  .ask fun s =>
    let old := theChart s
    let new := { old with sections := mergeSecs old.sections secs, sealed := old.sealed || locks }
    Act.all [Act.when (secs.any fun e => e.1 = 5) (Act.each departBegin ((List.range 512).filter fun u => old.memberTile u && !new.memberTile u)),
      updChart fun c => { c with cur := some new }, Act.each (fun e => sectionTaken old new e.1) secs]

/-- The last part of an amendment has taken effect. -/
def amendComplete (c : Chart) : Act :=
  .ask fun s => Act.all [setF CHART_STAT.AMEND 4, setF CHART_SERIAL.SERIAL c.serial.toNat, setF CHART_EFFECT.TIDE (getF s TIDE_COUNT.COUNT),
    Act.each (fun k => setF CHART_DIGEST.BYTES (fieldAt c.digest (8 * k) 8) k) (List.range 4), setF TIDE_PERIOD.NEXT 0, setF CHART_DRAIN.PART 0,
    setF CHART_DEFER.PART 0, updChart fun h => { h with staged := none, waitingParts := [], appliedFirst := false, cur := h.cur.map fun o => { o with serial := c.serial, digest := c.digest } },
    updSec fun x => { x with chartRun := sha3_256 (x.chartRun ++ c.digest), amends := x.amends + 1 }, evt CHART_EVT.APPLIED, logEv .chartApplied (data := [c.serial.toNat, leNat c.digest])]

/-- The sections of an amendment whose parts wait for a partition: all of them where it waits whole, else those that touch the partition (R34). -/
def waitingSecs (old new c : Chart) (p : Nat) : List Nat :=
  (c.sections.filter fun e => c.indiv || c.sections.any (fun e => isClassD e.1) || (touchedBy old new e.1).contains p).map fun e => e.1

/-- Parts that wait for partitions with a slip: AMEND 3, CHART_DEFER, and a record for each partition with the amendment's SERIAL and the sections that wait. -/
def amendWaits (old new c : Chart) (waits : List Nat) : Act :=
  Act.all [setF CHART_STAT.AMEND 3, setF CHART_DEFER.PART (sumNat (waits.map fun p => 2 ^ p)),
    Act.when (!waits.isEmpty) (evt CHART_EVT.DEFERRED), Act.each (fun p => logEv .amendDeferred (data := p :: c.serial.toNat :: waitingSecs old new c p)) waits]

/-- The staged amendment at a boundary from the one it names on. -/
def amendTakes : Act :=
  .ask fun s =>
    match s.chart.staged with
    | some c =>
      let old := theChart s
      let new := { old with sections := mergeSecs old.sections c.sections }
      let classD := c.sections.any fun e => isClassD e.1
      let touched := touchedParts old c
      let slips := (if s.chart.appliedFirst then s.chart.waitingParts else touched).filter fun p => (partSt s p).slip
      if getF s TIDE_COUNT.COUNT < getF s CHART_EFFECT.TIDE then .skip
      else if classD && decide (getF s CHART_EFFECT.TIDE + 1024 ≤ getF s TIDE_COUNT.COUNT) then amendReject 0x0E
      else if (classD && !touched.all fun p => drained s p) || ((classD || c.indiv) && !slips.isEmpty) then amendWaits old new c slips
      else
        let roles := (c.sections.filter fun e => e.1 = 2).map fun e => (e.1, rolesPart old new slips)
        Act.all [sectionsTaken (if s.chart.appliedFirst then roles else c.sections.map fun e => if e.1 = 2 then (e.1, rolesPart old new slips) else e) c.sealed,
          updChart fun h => { h with appliedFirst := true, waitingParts := slips },
          if slips.isEmpty then amendComplete c else amendWaits old new c slips]
    | none => .skip

/-! The sequence (Table 2-3). -/

/-- Once every 2^16 tides a package that follows sends the pilot a timestamp (R46). -/
def stampDue : Act :=
  .ask fun s => Act.when (follows s && s.chart.cur.isSome && decide (getF s TIDE_COUNT.COUNT % 65536 = 0))
    (stampSend (if getF s TIDE_SRC.MODE = 2 then (theChart s).flBackup else (theChart s).flPilot))

/-- T + 2.0 µs. -/
def graceEnd : Act :=
  .given (fun s => s.tide.grace) (Act.all [updTide fun t => { t with grace := false, takeDue := true },
    Act.each partSlips (List.range 64), noProgress, samplePlans,
    commitToken, setCommitted, .ask fun s => Act.each stepClose ((theChart s).parts.map fun e => e.part),
    darkDeclared, amendTakes, fwKeep, fwBoundary,
    Act.each allotMiss (List.range 6), clockStates, gaugeSchedule, darkBoundary, stampDue,
    protocolBoundary fun s => computeUp s && !isHeld s 6])
def execGraceEnd (s : State) : Host.Outcome State Fault Refusal := .next (run graceEnd s)

/-! Taking plans (R28, R29, R43, R90, R450). -/

/-- Descriptors reach a unit. -/
def unitTakes (h : PlanHdr) (l : UnitList) : Act :=
  .ask fun s =>
    let ds := fetchDescs s l
    if l.unit < 512 then updTile l.unit fun t => t.take ds false
    else if l.unit = 512 then updUpd fun x => { x with queue := x.queue ++ ds.map fun d => { desc := d, setv := bitOf h.flags 0, set := BitVec.ofNat 16 h.set } }
    else if l.unit = 513 then updTier fun t => { t with copyItems := t.copyItems ++ ds }
    else if l.unit = 514 then updCus fun c => { c with cusItems := c.cusItems ++ ds }
    else updCus fun c => { c with decItems := c.decItems ++ ds }

/-- A set gains a partition that contributes to it. -/
def setContributes (p : Nat) (set : SetNo) : Act :=
  .ask fun s => Act.when (!isCommitted s set) (updTide fun t =>
    { t with sets := if t.sets.any fun x => x.set = set then
        t.sets.map fun x => if x.set = set then { x with parts := if x.parts.contains p then x.parts else x.parts ++ [p], due := true } else x
      else t.sets ++ [{ set := set, parts := [p] }] })

/-- The passes of a partition end with its plan; a plan that leaves one without its verdict never finished (R39, R144, log 42). -/
def passesEnd (p : Nat) : Act :=
  .ask fun s => Act.all [
    match (partSt s p).plan with
    | some h => Act.when (h.setv && passUnsettled s p) (updTide fun t => { t with sets := t.sets.map fun x => if x.set = h.set then { x with stuck := true } else x })
    | none => .skip,
    updNum fun n => { n with passes := n.passes.filter fun e => e.1 / 65536 ≠ p }]

/-- The sixteen sync counters of a partition's tiles, and those of the update engine where it is the partition's, go to 0 (R91, R192). -/
def syncClear (p : Nat) : Act :=
  .ask fun s => .seq (Act.each (fun u => Act.each (fun k => setF TILE_SYNC.VALUE 0 u k) (List.range 16)) (tilesOf s p))
    (Act.when (decide (updPart? s = some p)) (updUpd fun x => { x with sync := [] }))

/-- A partition takes a plan. `named` says that TIDE_PLAN named it. -/
def planTakes (p a : Nat) (named : Bool) : Act :=
  .ask fun s =>
    let h := planHdr s a
    Act.all [passesEnd p,
      Act.when (bitOf h.flags 0) (setContributes p (BitVec.ofNat 16 h.set)), syncClear p,
      Act.each (fun e => unitTakes h e.1) (planEntries s h),
      updPart p fun x => { x with plan := some { addr := BitVec.ofNat 48 a, setv := bitOf h.flags 0, set := BitVec.ofNat 16 h.set, link := BitVec.ofNat 64 h.link },
                                  link := BitVec.ofNat 64 h.link, sampled := none, rewritten := false, rejected := false },
      Act.when (named && !(partSt s p).rewritten) (planSlotFree p), batchCounter p, Act.when named (planTaken p a),
      Act.when (getF s NUM_STEP.PER p = 0) (updTier fun t => { t with lapse := Cells.put 0 t.lapse p (Cells.get 0 t.lapse p - 1) })]

/-- A rejected plan: no items, the partition idles until TIDE_PLAN is written. -/
def planRejects (p a : Nat) (named : Bool) : Act :=
  .ask fun s =>
    let again := (partSt s p).rewritten
    Act.all [passesEnd p, updPart p fun x => { x with plan := none, link := 0, sampled := none, rewritten := false, rejected := !again },
      Act.when (named && !again) (planSlotFree p),
      evt TIDE_EVT.PLANREJ, logEv .planRejected (data := [p]), Act.when named (planRejected p a)]

/-- The plan a partition is to take, and whether TIDE_PLAN names it. A LINK that is no multiple of 64 is none of the grounds of R28: the header is read where it stands (R27; DESIGN CHOICE, log 11). -/
def nextPlan (s : State) (p : Nat) : Option (Nat × Bool) :=
  let x := partSt s p
  match x.sampled with
  | some a => some (a.toNat, true)
  | none => if x.rejected || x.link = 0 then none else some (x.link.toNat, false)

/-- A plan waits for an uncommitted set. -/
def planWaits (s : State) (a : Nat) : Bool :=
  bitOf (planHdr s a).flags 1 && !isCommitted s (BitVec.ofNat 16 (planHdr s a).wait)

/-- Every tile the plan names lies on a die in service (R333). -/
def planReachable (s : State) (a : Nat) : Bool := (planEntries s (planHdr s a)).all fun e => decide (512 ≤ e.1.unit) || decide (dieState s (e.1.unit / 128) = 0)

/-- A partition at T + 2.5 µs. -/
def partTakes (p : Nat) : Act :=
  .ask fun s =>
    let rest := updPart p fun x => { x with sampled := none, rewritten := false }
    if (partSt s p).slip then rest
    else
      match nextPlan s p with
      | none => updPart p fun x => { x with sampled := none, rewritten := false, plan := if planFinished s p then none else x.plan }
      | some (a, named) =>
        if planWaits s a then rest
        else if !planOk s p a false then planRejects p a named
        else if !planReachable s a then rest
        else planTakes p a named

/-- A partition spends a token-wait tide. -/
def tokenWaits (s : State) (p : Nat) : Bool :=
  !(partSt s p).slip && (match nextPlan s p with | some (a, _) => planWaits s a | none => false)

/-- T + 2.5 µs: every partition takes its plan, then the commit record that is due is sampled. While the compute part is held no plan is taken. -/
def planTake : Act :=
  .given (fun s => s.tide.takeDue) (Act.all [updTide fun t => { t with takeDue := false },
    .ask fun s =>
      let parts := (theChart s).parts.map fun e => e.part
      Act.when (!isHeld s 1 && !isHeld s 7) (.seq (Act.when (parts.any fun p => tokenWaits s p) (incF TIDE_SLIPS.TOKDEF)) (Act.each partTakes parts)),
    .prim .fresh, commitRecord])
def execPlanTake (s : State) : Host.Outcome State Fault Refusal := .next (run planTake s)

end Sys2Proof.Machine
end

