-- ==== Sys2Proof/Machine/Access.lean ====
section
/-! DEFINITION. Accesses to the physical map and to registers: who reaches what, what a write of each register does, the debug port's reach (R4 to R6, R16 to R19, R76, R423, R427). -/

namespace Sys2Proof.Machine

/-! Writing a register (Table 0-3). `lanes` are the bits the access covers. -/

/-- The bits of the fields of a register that satisfy a condition. -/
def RegName.bits (r : RegName) (c : Fld → Bool) : W64 := BitVec.ofNat 64 ((r.fields.filter c).foldl (fun a f => a ||| f.mask) 0)

/-- RWL fields are locked (R76). -/
def locked (s : State) : Bool := (theChart s).sealed

/-- The value a write leaves by the access codes alone: RW fields take it, RWL fields unless locked, W1C bits clear, W1S bits set. -/
def written (s : State) (r : RegName) (i j : Nat) (lanes v : W64) : W64 :=
  let old := getReg s r i j
  let rw := r.bits (fun f => f.acc = .rw || (f.acc = .rwl && !locked s)) &&& lanes
  let w1c := r.bits (fun f => f.acc = .w1c) &&& lanes &&& v
  let w1s := r.bits (fun f => f.acc = .w1s) &&& lanes &&& v
  ((old &&& ~~~rw) ||| (v &&& rw) ||| w1s) &&& ~~~w1c

/-- The write by access codes. One that covers a locked RWL field sets LOCKWRITE and is logged. -/
def storeFields (r : RegName) (i j : Nat) (lanes v : W64) : Act :=
  .ask fun s => .seq (.prim (.reg r i j (written s r i j lanes v)))
    (Act.when (locked s && decide (r.bits (fun f => f.acc = .rwl) &&& lanes ≠ 0)) (.seq (evt CHART_EVT.LOCKWRITE) (logEv .lockedWrite)))

/-- An ADDR field as an address. -/
def addrField (s : State) (f : Fld) (i : Nat := 0) : Addr := BitVec.ofNat 48 (getF s f i * 2 ^ f.lo)

/-- EN of BELL_CFG is written: an enable or a disable. SIZE and CQSIZE change only while EN is 0 (R288, R304). -/
def bellCfgWrite (q : Nat) (lanes v : W64) : Act :=
  .ask fun s =>
    let sizes := BELL_CFG.SIZE.mask ||| BELL_CFG.CQSIZE.mask ||| BELL_CFG.EN.mask
    let keep := if getB s BELL_CFG.EN q then BitVec.ofNat 64 sizes else BitVec.ofNat 64 BELL_CFG.EN.mask
    .seq (storeFields .BELL_CFG q 0 (lanes &&& ~~~keep) v) (Act.when (lanes.getLsbD 0) (if v.getLsbD 0 then bellEnable q else bellDisable q))

/-- CUS_CFG: the other fields change only while EN is 0. -/
def cusCfgWrite (lanes v : W64) : Act :=
  .ask fun s => .seq (Act.when (!getB s CUS_CFG.EN) (storeFields .CUS_CFG 0 0 (lanes &&& ~~~1) v))
    (Act.when (lanes.getLsbD 0) (if v.getLsbD 0 then cusEnable else setF CUS_CFG.EN 0))

/-- HURAL_CFG: a port that is enabled trains, and opens a session where its link is up (R346). -/
def huralCfgWrite (n : Nat) (lanes v : W64) : Act :=
  .ask fun s => .seq (storeFields .HURAL_CFG n 0 lanes v) (Act.when (lanes.getLsbD 0 && v.getLsbD 0 && !getB s HURAL_CFG.EN n)
    (.seq (Act.when (portState s n = 0 && !(portSt s n).barred) (setF HURAL_STAT.STATE 1 n)) (tryOpen n)))

/-- SHD_CTL. -/
def shdCtlWrite (lanes v : W64) : Act :=
  Act.when (lanes.getLsbD 0) (Act.all [setF SHD_CTL.PART (bitsOf v.toNat 8 6), if v.getLsbD 0 then shdEnable else setF SHD_CTL.EN 0,
    Act.when (v.getLsbD 1) shdSecure, Act.when (v.getLsbD 2) (realign (bitsOf v.toNat 8 6))])

/-- RST_CTL: the largest domain first, so that a smaller one joins it (R380). -/
def rstCtlWrite (v : W64) : Act :=
  .seq (.ask fun s => Act.all [Act.when (v.getLsbD 3) (packageReset 1), Act.when (v.getLsbD 1) (rstDie (getF s RST_CTL.DIE)),
    Act.when (v.getLsbD 0) (rstCp (getF s RST_CTL.DIE)), Act.when (v.getLsbD 2) (hostReset 1)]) (Act.when (v.getLsbD 8) oosClear)

/-- SEC_CMD with GO = 1, by its KIND; any other is refused with 0x07. -/
def secCmdGo : Act :=
  .ask fun s =>
    let a := addrField s SEC_CMD.ADDR
    match getF s SEC_CMD.KIND with
    | 1 => secRecord a
    | 2 => secOwner a
    | 3 => secEndorse a
    | 4 => secIdentity a
    | k => secCmd k a (fun _ _ => 0x07) fun _ _ => .skip

/-- TIER_OBJCTL by OP. -/
def objCtl (op : Nat) : Act :=
  .ask fun s =>
    let o := getF s TIER_OBJCTL.OBJ
    match op with
    | 1 => objRebuild o
    | 2 => objRelease o
    | 3 => objEscalate o
    | _ => .skip

/-- TIDE_PLAN: the value it takes, at once or behind a PLAN command's (R28, R29, Table 13-6). -/
def planRegWrite (p : Nat) (lanes v : W64) : Act :=
  .ask fun s =>
    if planPending s p then
      let old := match (partSt s p).behind with
        | some (a, b) => (a, b)
        | none => (addrField s TIDE_PLAN.ADDR p, false)
      let w := (old.1.setWidth 64 &&& ~~~lanes) ||| (v &&& lanes)
      updPart p fun x => { x with behind := some (BitVec.ofNat 48 (w.toNat / 64 * 64), old.2 || v.getLsbD 0) }
    else .seq (storeFields .TIDE_PLAN p 0 lanes v) (Act.when (v.getLsbD 0) (updPart p fun x => { x with rejected := false, rewritten := x.sampled.isSome }))

/-- What a write does to a register of a block of the compute part, by its action; the bits of `v` outside the access are 0. -/
def tileWrite (r : RegName) (i j : Nat) (lanes v : W64) : Act :=
  match r with
  | .MX_CTL => Act.when (v.getLsbD 0) (mxResume i)
  | .VX_CTL => Act.when (v.getLsbD 0) (vxResume i)
  | .VX_DMA_CTL => Act.when (v.getLsbD 0) (dmaResume i)
  | .UPD_CTL => .seq (Act.when (v.getLsbD 0) updResume) (Act.when (v.getLsbD 1) updDiscard)
  | .UPD_LIVE => .ask fun s => updLiveWrite i ((getReg s .UPD_LIVE i 0 &&& ~~~lanes) ||| v)
  | .SCH_CTL => .seq (storeFields r i j lanes v) (Act.when (v.getLsbD 8) schRecalc)
  | _ => storeFields r i j lanes v

/-- A write of a register of the host domain's blocks. -/
def hostWrite (r : RegName) (i j : Nat) (lanes v : W64) : Act :=
  match r with
  | .BELL_RING => Act.when (lanes.getLsbD 0) (bellRing i (bitsOf v.toNat 0 16))
  | .BELL_CQHEAD => Act.when (lanes.getLsbD 0) (cqHeadWrite i (bitsOf v.toNat 0 16))
  | .BELL_CFG => bellCfgWrite i lanes v
  | .BELL_RINGADDR => .given (fun s => !getB s BELL_CFG.EN i) (storeFields r i j lanes v)
  | .BELL_CQADDR => .given (fun s => !getB s BELL_CFG.EN i) (storeFields r i j lanes v)
  | .CUS_CFG => cusCfgWrite lanes v
  | .CUS_SUBPTR => Act.when (lanes.getLsbD 0) (cusTail (bitsOf v.toNat 0 32))
  | .CUS_HOSTDONE => hostDone v.toNat
  | .CUS_CTL => Act.when (v.getLsbD 0) cusRestore
  | _ => storeFields r i j lanes v

/-- A write of any other register. A 32-bit write of one half of CUS_HOSTDONE, HM_SETTAI.TAI or HM_TELDONE.TIDE acts at once, with the half it does not write as 0 (R4; DESIGN CHOICE, log 67). -/
def ioWrite (r : RegName) (i j : Nat) (lanes v : W64) : Act :=
  let store := storeFields r i j lanes v
  match r with
  | .TIDE_PLAN => planRegWrite i lanes v
  | .CHART_AMEND => Act.all [store, Act.when (v.getLsbD 1) amendCancel, Act.when (v.getLsbD 0) (.ask fun s => amendGo (addrField s CHART_AMEND.ADDR))]
  | .CHART_FLASH => .seq store (Act.when (v.getLsbD 0) (.ask fun s => flashGo (addrField s CHART_FLASH.ADDR)))
  | .EN_CTL => .seq (Act.when (lanes.getLsbD 0) (darkWrite (bitsOf v.toNat 0 3))) (Act.when (v.getLsbD 8) sbRequest)
  | .SHD_CTL => shdCtlWrite lanes v
  | .TIER_CTL => Act.when (v.getLsbD 0) tierInval
  | .TIER_MIGPTR => Act.when (lanes.getLsbD 0) (migTail (bitsOf v.toNat 0 16))
  | .TIER_OBJCTL => .seq store (objCtl (bitsOf v.toNat 0 3))
  | .COH_CTL => Act.when (lanes.getLsbD 0) (cohMode (v.getLsbD 0))
  | .D2D_CTL => Act.when (v.getLsbD 0) (d2dRetrain i)
  | .HURAL_CFG => huralCfgWrite i lanes v
  | .HURAL_CTL => Act.all [Act.when (v.getLsbD 1) (hurClose i), Act.when (v.getLsbD 0) (hurOpen i), Act.when (v.getLsbD 2) (rekeyStart i)]
  | .HM_FW => .seq store (Act.when (v.getLsbD 0) (.ask fun s => fwGo (addrField s HM_FW.ADDR)))
  | .HM_SETTAI => setTai v
  | .HM_TELDONE => telDone (bitsOf v.toNat 0 48)
  | .RST_CTL => .seq store (rstCtlWrite v)
  | .RST_HOSTWD => .seq store (Act.when (v.getLsbD 0) hostBeat)
  | .SEC_CMD => .seq store (Act.when (v.getLsbD 0) secCmdGo)
  | .SEC_ATTEST => .seq store (Act.when (v.getLsbD 0) (.ask fun s => attestGo (addrField s SEC_ATTEST.ADDR)))
  | .DBG_OPEN => .seq store (Act.when (v.getLsbD 0) (.ask fun s => dbgOpen (addrField s DBG_OPEN.ADDR)))
  | .DBG_CLOSE => Act.when (v.getLsbD 0) (sessionEnd 1 1)
  | .DBG_HALT => .seq store (.ask fun s => .seq (Act.when (v.getLsbD 16) (coreHalt (getF s DBG_HALT.CORE))) (Act.when (v.getLsbD 17) (coreResume (getF s DBG_HALT.CORE))))
  | .CLK_MEAS => if v.getLsbD 8 then measStart (bitsOf v.toNat 0 5) else store
  | _ => store

/-- A write of a register: what its own row would do, or the access codes alone (R5). -/
def regWrite (r : RegName) (i j : Nat) (lanes v : W64) : Act :=
  let x := v &&& lanes
  match r.loc.block with
  | .TILE => tileWrite r i j lanes x
  | .UPD => tileWrite r i j lanes x
  | .SCH => tileWrite r i j lanes x
  | .BELL => hostWrite r i j lanes x
  | .CUS => hostWrite r i j lanes x
  | _ => ioWrite r i j lanes x

/-! The debug port (R423, Tables 20-5 and 20-7). -/

/-- The debug port may write a register: any at D2; at D1 the read channels of the logbook and, where the chart admits trace, DBG_TRACE (log 34). -/
def debugWrites (s : State) (a : Nat) : Bool :=
  sessLevel s 0 = 2 || (sessLevel s 0 = 1 && (match regAt (a / 8 * 8) with
    | some (.LOG_RDIDX, _, _) => true
    | some (.DBG_TRACE, _, _) => bitOf (chartF s 0xC 2 1) 0
    | _ => false))

/-- The registers of a tile of a dark die. -/
def onDarkDie (s : State) (a : Nat) : Bool := inRange a (0xF00001000000, 0x1000000) && decide (dieState s ((a - 0xF00001000000) / 0x400000) = 1)

/-- The debug port's session reaches an address: registers but those of SEC from D1, memory at D2; in SB only the harbourmaster and the logbook; nothing on a dark die. -/
def debugReaches (s : State) (a : Nat) (wr : Bool) : Bool :=
  if isRegSpace a then
    decide (sessLevel s 0 ≠ 0) && !inRange a (0xF00006000000, 0x10000) && !onDarkDie s a &&
    (decide (s.en.sb ≠ .standby) || inRange a (0xF00005000000, 0x10000) || inRange a (0xF00005100000, 0x10000)) && (!wr || debugWrites s a)
  else decide (sessLevel s 0 = 2)

/-! Register space (R4, R17, R19). -/

/-- A control core has power; any other agent has its own (R89). -/
def whoOn (s : State) : Agent → Bool
  | .control u => coreOn s u.val
  | _ => true

/-- An agent reaches register space. -/
def reachesRegs (s : State) (who : Agent) (a : Nat) (wr : Bool) : Bool :=
  match who with
  | .host _ => true
  | .control _ => true
  | .hm _ => true
  | .debug => debugReaches s a wr
  | .engine _ => false
  | .copyDma => false
  | .pcie _ => false
  | .partner _ => false

/-- The lanes of an access: both halves, or the half an address names. -/
def lanesOf (a n : Nat) : W64 := if n = 8 then ~~~0 else if a % 8 = 0 then 0xFFFF_FFFF else 0xFFFF_FFFF_0000_0000

/-- A read of a register: a held one of BELL_VIS, else its value; RC bits that were read clear (R5, R300). -/
def regReadBy (who : Agent) (a n : Nat) : Act :=
  .ask fun s =>
    match regAt (a / 8 * 8) with
    | some (.BELL_VIS, q, _) => visRead who q a n
    | some (r, i, j) =>
      let rc := r.bits (fun f => f.acc = .rc) &&& lanesOf a n
      .seq (respond who (BitVec.ofNat 48 a) (slice (w64Bytes (regRead s r i j)) (a % 8) n))
        (Act.when (decide (rc ≠ 0)) (.prim (.reg r i j (getReg s r i j &&& ~~~rc))))
    | none => respond who (BitVec.ofNat 48 a) (List.replicate n 0)

/-- A write of a register, and its answer. -/
def regWriteBy (who : Agent) (a n : Nat) (v : Nat) : Act :=
  .seq (match regAt (a / 8 * 8) with
    | some (r, i, j) => regWrite r i j (lanesOf a n) (BitVec.ofNat 64 (v * 2 ^ (8 * (a % 8))))
    | none => .skip) (respond who (BitVec.ofNat 48 a) [])

/-- The access is a 32-bit or 64-bit one on its own alignment. -/
def sizeOk (a n : Nat) : Bool := (n = 8 && a % 8 = 0) || (n = 4 && a % 4 = 0)

/-- An access to register space. A tile whose role is off answers reads with zeros and discards writes (R89). -/
def regAccess (who : Agent) (addr : Addr) (op : AccessOp) : Act :=
  .ask fun s =>
    let a := addr.toNat
    if !reachesRegs s who a (accessWrites op) || regHole s a then accessFault who addr
    else
      match op with
      | .read n => if sizeOk a n then (if tileOff s a then respond who addr (List.replicate n 0) else regReadBy who a n)
        else .seq (respond who addr (List.replicate n 0)) (send (.accessFault who addr))
      | .write bs _ _ _ => if sizeOk a bs.length then (if tileOff s a then respond who addr [] else regWriteBy who a bs.length (leNat bs))
        else send (.accessFault who addr)

/-- Software writes a register. -/
def registerWrite (who : Agent) (addr : Addr) (size : Nat) (v : W64) : Act := .given (fun s => whoOn s who) (regAccess who addr (.write (natLe v.toNat size) false 0 0))
def execRegisterWrite (who : Agent) (addr : Addr) (size : Nat) (val : W64) (s : State) : Host.Outcome State Fault Refusal :=
  .next (run (registerWrite who addr size val) s)

/-- A read of a register at an address by an agent that has power, where it reaches register space; otherwise it faults (R19). -/
def rowRead (who : Agent) (a : Nat) (k : Act) : Act :=
  .ask fun s => if !whoOn s who then .skip else if reachesRegs s who a false then k else accessFault who (BitVec.ofNat 48 a)
def execBellQerrRead (who : Agent) (k : Fin 4) (coincident : W64) (s : State) : Host.Outcome State Fault Refusal :=
  .next (run (rowRead who (0xF00000100F28 + 8 * k.val) (qerrRead who k.val coincident)) s)
def execBellVisRead (who : Agent) (q : Fin 256) (s : State) : Host.Outcome State Fault Refusal :=
  .next (run (rowRead who (0xF00000100010 + 0x1000 * q.val) (visRead who q.val (0xF00000100010 + 0x1000 * q.val) 8)) s)

/-! The physical map (R16 to R19, R243). -/

/-- The home of the line an access reads finds so many symbols in error. A full-line write reads none. -/
def eccOf (who : Agent) (addr : Addr) (op : AccessOp) (symErr : Nat) : Act :=
  .ask fun s =>
    match (accessPieces who addr.toNat op).head? with
    | some p => match route s p with
      | .mem x _ => Act.when (!(p.wr && decide (p.n = 64))) (eccCheck x symErr (agentUnit s who))
      | _ => .skip
    | none => .skip

/-- An access by an agent of the package: register space, or the memories and windows. -/
def innerAccess (who : Agent) (addr : Addr) (op : AccessOp) (symErr : Nat) : Act :=
  .ask fun s =>
    if isRegSpace addr.toNat then regAccess who addr op
    else if decide (who = .debug) && !debugReaches s addr.toNat (accessWrites op) then accessFault who addr
    else .seq (eccOf who addr op symErr) (memAccess who addr op true)

/-- An access to the physical map: a gated control core makes none (R89), devices reach only the lighters (R302), partners only their own windows, by messages (R353). -/
def physAccess (who : Agent) (addr : Addr) (op : AccessOp) (symErr : Nat) : Act :=
  match who, op with
  | .pcie n, .read len => deviceRead n addr len
  | .pcie n, .write bs _ _ _ => deviceWrite n addr bs
  | .partner b, _ => accessFault (.partner b) addr
  | .host c, op => innerAccess (.host c) addr op symErr
  | .control u, op => .given (fun s => coreOn s u.val) (innerAccess (.control u) addr op symErr)
  | .hm c, op => innerAccess (.hm c) addr op symErr
  | .debug, op => innerAccess .debug addr op symErr
  | .engine u, op => innerAccess (.engine u) addr op symErr
  | .copyDma, op => innerAccess .copyDma addr op symErr
def execPhysicalAccess (who : Agent) (addr : Addr) (op : AccessOp) (symErr : Nat) (s : State) : Host.Outcome State Fault Refusal :=
  .next (run (physAccess who addr op symErr) s)

/-! Loads and stores of agents' cores (R256, R261). -/

/-- A core with power loads or stores: a register uncached, 64 bits of it for a load, whose command gives no size (R19, R256; DESIGN CHOICE, log 68); else through its cache or the memories and windows. -/
def coreDoes (a : Nat) (addr : Addr) (op : CoreOp) : Act :=
  .given (fun s => coreOn s a)
    (if isRegSpace addr.toNat then regAccess (agentWho a) addr (match op with | .store _ bs => .write bs false 0 0 | _ => .read 8)
     else coreAccess a addr.toNat op true)

/-- A load of a line; of a register, at the address. -/
def agentLoad (a : Nat) (addr : Addr) : Act := coreDoes a (if isRegSpace addr.toNat then addr else BitVec.ofNat 48 (addr.toNat / 64 * 64)) .load
def execAgentLoad (a : Fin 514) (line : Addr) (s : State) : Host.Outcome State Fault Refusal := .next (run (agentLoad a.val line) s)

/-- A store of bytes within one line. -/
def agentStore (a : Nat) (addr : Addr) (bs : List Byte) : Act :=
  let b := bs.take (64 - addr.toNat % 64)
  coreDoes a addr (.store addr b)
def execAgentStore (a : Fin 514) (addr : Addr) (bytes : List Byte) (s : State) : Host.Outcome State Fault Refusal := .next (run (agentStore a.val addr bytes) s)

/-- A TAP session reads or writes 64 bits through DBGACC. -/
def tapAccess (addr : Addr) : Option W64 → Act
  | none => physAccess .debug addr (.read 8) 0
  | some v => physAccess .debug addr (.write (w64Bytes v) false 0 0) 0
def execTapDbgacc (addr : Addr) (wr : Option W64) (s : State) : Host.Outcome State Fault Refusal := .next (run (tapAccess addr wr) s)

end Sys2Proof.Machine
end

