-- ==== Sys2Proof/Machine/Dispatch.lean ====
section
/-! DEFINITION. The dispatch: one arm per constructor of Instr, each one direct call of its meaning. -/

namespace Sys2Proof.Machine

def exec (i : Instr) (s : State) : Host.Outcome State Fault Refusal :=
  match i with
  | .registerWrite who addr size val => Sys2Proof.Machine.execRegisterWrite who addr size val s
  | .bellQerrRead who k coincident => Sys2Proof.Machine.execBellQerrRead who k coincident s
  | .physicalAccess who addr op symErr => Sys2Proof.Machine.execPhysicalAccess who addr op symErr s
  | .clockLost dom => Sys2Proof.Machine.execClockLost dom s
  | .clkMeasStart sel => Sys2Proof.Machine.execClkMeasStart sel s
  | .clkMeasDone count => Sys2Proof.Machine.execClkMeasDone count s
  | .tideMark used ptpOff => Sys2Proof.Machine.execTideMark used ptpOff s
  | .frameCompose => Sys2Proof.Machine.execFrameCompose s
  | .tideFrameReceive spare frame => Sys2Proof.Machine.execTideFrameReceive spare frame s
  | .frameMissing spare => Sys2Proof.Machine.execFrameMissing spare s
  | .skewCheck skewNs delay => Sys2Proof.Machine.execSkewCheck skewNs delay s
  | .budgetMessageSend d temp margin => Sys2Proof.Machine.execBudgetMessageSend d temp margin s
  | .budgetMessage flit => Sys2Proof.Machine.execBudgetMessage flit s
  | .allotmentSend eta => Sys2Proof.Machine.execAllotmentSend eta s
  | .allotment flit => Sys2Proof.Machine.execAllotment flit s
  | .graceEnd => Sys2Proof.Machine.execGraceEnd s
  | .planTake => Sys2Proof.Machine.execPlanTake s
  | .tidePlanWrite p addr => Sys2Proof.Machine.execTidePlanWrite p addr s
  | .readyReportSend set => Sys2Proof.Machine.execReadyReportSend set s
  | .ready n => Sys2Proof.Machine.execReady n s
  | .freadySend set others => Sys2Proof.Machine.execFreadySend set others s
  | .fready f set tide => Sys2Proof.Machine.execFready f set tide s
  | .deferredCommit group => Sys2Proof.Machine.execDeferredCommit group s
  | .chartAmendGo addr => Sys2Proof.Machine.execChartAmendGo addr s
  | .amendCheckDone => Sys2Proof.Machine.execAmendCheckDone s
  | .chartAmendCancel => Sys2Proof.Machine.execChartAmendCancel s
  | .amendDrainTimeout => Sys2Proof.Machine.execAmendDrainTimeout s
  | .chartFlashGo addr => Sys2Proof.Machine.execChartFlashGo addr s
  | .chartFlashCheckDone => Sys2Proof.Machine.execChartFlashCheckDone s
  | .chartFlashWriteDone ok => Sys2Proof.Machine.execChartFlashWriteDone ok s
  | .nop u => Sys2Proof.Machine.execNop u s
  | .mma u => Sys2Proof.Machine.execMma u s
  | .longSumFold u b => Sys2Proof.Machine.execLongSumFold u b s
  | .mmaComplete u => Sys2Proof.Machine.execMmaComplete u s
  | .mxCtlResume u => Sys2Proof.Machine.execMxCtlResume u s
  | .streamWrap u stream => Sys2Proof.Machine.execStreamWrap u stream s
  | .completionReport u => Sys2Proof.Machine.execCompletionReport u s
  | .verdict p layer => Sys2Proof.Machine.execVerdict p layer s
  | .repeatPlanFetched p layer => Sys2Proof.Machine.execRepeatPlanFetched p layer s
  | .verdictDelivery u => Sys2Proof.Machine.execVerdictDelivery u s
  | .add u => Sys2Proof.Machine.execAdd u s
  | .sub u => Sys2Proof.Machine.execSub u s
  | .mul u => Sys2Proof.Machine.execMul u s
  | .fma u => Sys2Proof.Machine.execFma u s
  | .max u => Sys2Proof.Machine.execMax u s
  | .min u => Sys2Proof.Machine.execMin u s
  | .abs u => Sys2Proof.Machine.execAbs u s
  | .neg u => Sys2Proof.Machine.execNeg u s
  | .selgt u => Sys2Proof.Machine.execSelgt u s
  | .cvt u => Sys2Proof.Machine.execCvt u s
  | .exp2 u => Sys2Proof.Machine.execExp2 u s
  | .log2 u => Sys2Proof.Machine.execLog2 u s
  | .recip u => Sys2Proof.Machine.execRecip u s
  | .rsqrt u => Sys2Proof.Machine.execRsqrt u s
  | .sqrt u => Sys2Proof.Machine.execSqrt u s
  | .tanh u => Sys2Proof.Machine.execTanh u s
  | .rsum u => Sys2Proof.Machine.execRsum u s
  | .rmax u => Sys2Proof.Machine.execRmax u s
  | .csum u => Sys2Proof.Machine.execCsum u s
  | .out u => Sys2Proof.Machine.execOut u s
  | .spill u => Sys2Proof.Machine.execSpill u s
  | .free u => Sys2Proof.Machine.execFree u s
  | .win u => Sys2Proof.Machine.execWin u s
  | .vxItemComplete u => Sys2Proof.Machine.execVxItemComplete u s
  | .vxCtlResume u => Sys2Proof.Machine.execVxCtlResume u s
  | .copy u => Sys2Proof.Machine.execCopy u s
  | .lowerMatrixRows u => Sys2Proof.Machine.execLowerMatrixRows u s
  | .lowerWindowLine u => Sys2Proof.Machine.execLowerWindowLine u s
  | .dmaItemComplete u => Sys2Proof.Machine.execDmaItemComplete u s
  | .vxDmaCtlResume u => Sys2Proof.Machine.execVxDmaCtlResume u s
  | .watchRecomputeStart u => Sys2Proof.Machine.execWatchRecomputeStart u s
  | .watchRecomputeEnd u => Sys2Proof.Machine.execWatchRecomputeEnd u s
  | .watchAbandon u => Sys2Proof.Machine.execWatchAbandon u s
  | .upd => Sys2Proof.Machine.execUpd s
  | .wcopy => Sys2Proof.Machine.execWcopy s
  | .updNop => Sys2Proof.Machine.execUpdNop s
  | .updItemComplete => Sys2Proof.Machine.execUpdItemComplete s
  | .updCtlDiscard => Sys2Proof.Machine.execUpdCtlDiscard s
  | .updCtlResume => Sys2Proof.Machine.execUpdCtlResume s
  | .updLiveWrite k val => Sys2Proof.Machine.execUpdLiveWrite k val s
  | .schCtlRecalc => Sys2Proof.Machine.execSchCtlRecalc s
  | .heldAccessRelease k => Sys2Proof.Machine.execHeldAccessRelease k s
  | .holdTimeout k => Sys2Proof.Machine.execHoldTimeout k s
  | .stallTimeout k => Sys2Proof.Machine.execStallTimeout k s
  | .tierCtlInval => Sys2Proof.Machine.execTierCtlInval s
  | .tierInvalDone => Sys2Proof.Machine.execTierInvalDone s
  | .tierMigptrTail tail => Sys2Proof.Machine.execTierMigptrTail tail s
  | .migrationPlace => Sys2Proof.Machine.execMigrationPlace s
  | .migrationMove => Sys2Proof.Machine.execMigrationMove s
  | .migrationMoveDone => Sys2Proof.Machine.execMigrationMoveDone s
  | .migrationUnmap => Sys2Proof.Machine.execMigrationUnmap s
  | .quotaWaitRelease => Sys2Proof.Machine.execQuotaWaitRelease s
  | .evictionDeadline frame => Sys2Proof.Machine.execEvictionDeadline frame s
  | .patrol addr symErr => Sys2Proof.Machine.execPatrol addr symErr s
  | .tierObjctlRebuild obj => Sys2Proof.Machine.execTierObjctlRebuild obj s
  | .tierObjctlRelease obj => Sys2Proof.Machine.execTierObjctlRelease obj s
  | .tierObjctlEscalate obj => Sys2Proof.Machine.execTierObjctlEscalate obj s
  | .agentLoad a line => Sys2Proof.Machine.execAgentLoad a line s
  | .agentStore a addr bytes => Sys2Proof.Machine.execAgentStore a addr bytes s
  | .agentEvict a line => Sys2Proof.Machine.execAgentEvict a line s
  | .rds a line => Sys2Proof.Machine.execRds a line s
  | .rdx a line => Sys2Proof.Machine.execRdx a line s
  | .upg a line => Sys2Proof.Machine.execUpg a line s
  | .wb a line => Sys2Proof.Machine.execWb a line s
  | .evc a line => Sys2Proof.Machine.execEvc a line s
  | .snps a line => Sys2Proof.Machine.execSnps a line s
  | .snpx a line => Sys2Proof.Machine.execSnpx a line s
  | .snpc a line => Sys2Proof.Machine.execSnpc a line s
  | .snoopResponse a line => Sys2Proof.Machine.execSnoopResponse a line s
  | .wback a line => Sys2Proof.Machine.execWback a line s
  | .snoopHoldExpiry a line => Sys2Proof.Machine.execSnoopHoldExpiry a line s
  | .uncachedRead addr len => Sys2Proof.Machine.execUncachedRead addr len s
  | .uncachedFullWrite line data => Sys2Proof.Machine.execUncachedFullWrite line data s
  | .uncachedPartialWrite addr bytes => Sys2Proof.Machine.execUncachedPartialWrite addr bytes s
  | .amo core addr op size val => Sys2Proof.Machine.execAmo core addr op size val s
  | .lrSc core addr sc size val => Sys2Proof.Machine.execLrSc core addr sc size val s
  | .cohCtlMode b => Sys2Proof.Machine.execCohCtlMode b s
  | .depart a => Sys2Proof.Machine.execDepart a s
  | .departureComplete a => Sys2Proof.Machine.execDepartureComplete a s
  | .snoopTimeout a line => Sys2Proof.Machine.execSnoopTimeout a line s
  | .departureTimeout a => Sys2Proof.Machine.execDepartureTimeout a s
  | .collapse cause agent line => Sys2Proof.Machine.execCollapse cause agent line s
  | .collapseFlushEnd => Sys2Proof.Machine.execCollapseFlushEnd s
  | .laneFrameReceive e dir lane frame crc => Sys2Proof.Machine.execLaneFrameReceive e dir lane frame crc s
  | .laneNakReceive e dir lane resent => Sys2Proof.Machine.execLaneNakReceive e dir lane resent s
  | .dropNotice e dir lane resent => Sys2Proof.Machine.execDropNotice e dir lane resent s
  | .d2dCtlRetrain e => Sys2Proof.Machine.execD2dCtlRetrain e s
  | .receiveMap e dir failed spares => Sys2Proof.Machine.execReceiveMap e dir failed spares s
  | .mapTimeout e ab ba => Sys2Proof.Machine.execMapTimeout e ab ba s
  | .confirmDone e ok => Sys2Proof.Machine.execConfirmDone e ok s
  | .routeRestore e => Sys2Proof.Machine.execRouteRestore e s
  | .rev2TagFree e => Sys2Proof.Machine.execRev2TagFree e s
  | .bellRing q tail => Sys2Proof.Machine.execBellRing q tail s
  | .entryCheck q => Sys2Proof.Machine.execEntryCheck q s
  | .rereadTimeout q => Sys2Proof.Machine.execRereadTimeout q s
  | .bellEnable q => Sys2Proof.Machine.execBellEnable q s
  | .bellDisable q => Sys2Proof.Machine.execBellDisable q s
  | .cmdNop q => Sys2Proof.Machine.execCmdNop q s
  | .cmdPut q => Sys2Proof.Machine.execCmdPut q s
  | .cmdCopy q => Sys2Proof.Machine.execCmdCopy q s
  | .cmdPlan q => Sys2Proof.Machine.execCmdPlan q s
  | .cmdPlanDeliver q => Sys2Proof.Machine.execCmdPlanDeliver q s
  | .commandComplete q => Sys2Proof.Machine.execCommandComplete q s
  | .bellCqheadWrite q head => Sys2Proof.Machine.execBellCqheadWrite q head s
  | .bellVisRead who q => Sys2Proof.Machine.execBellVisRead who q s
  | .bellVisReply q => Sys2Proof.Machine.execBellVisReply q s
  | .pcieDeviceWrite n addr bytes => Sys2Proof.Machine.execPcieDeviceWrite n addr bytes s
  | .pcieDeviceRead n addr len => Sys2Proof.Machine.execPcieDeviceRead n addr len s
  | .cusSubptrTail tail => Sys2Proof.Machine.execCusSubptrTail tail s
  | .customsCheck => Sys2Proof.Machine.execCustomsCheck s
  | .run u => Sys2Proof.Machine.execRun u s
  | .runComplete u => Sys2Proof.Machine.execRunComplete u s
  | .decodeComplete index result => Sys2Proof.Machine.execDecodeComplete index result s
  | .cusHostdone val => Sys2Proof.Machine.execCusHostdone val s
  | .deadlineDrop => Sys2Proof.Machine.execDeadlineDrop s
  | .cusCtlRestore => Sys2Proof.Machine.execCusCtlRestore s
  | .cusCfgEn => Sys2Proof.Machine.execCusCfgEn s
  | .idleSlotsBegin d => Sys2Proof.Machine.execIdleSlotsBegin d s
  | .gaugeSample d readings => Sys2Proof.Machine.execGaugeSample d readings s
  | .gaugeForcedSample d readings => Sys2Proof.Machine.execGaugeForcedSample d readings s
  | .limiterGate d => Sys2Proof.Machine.execLimiterGate d s
  | .criticalTemperature d => Sys2Proof.Machine.execCriticalTemperature d s
  | .criticalTemperatureClear d => Sys2Proof.Machine.execCriticalTemperatureClear d s
  | .powerModelCalibrate d idle gated => Sys2Proof.Machine.execPowerModelCalibrate d idle gated s
  | .enCtlDark dark => Sys2Proof.Machine.execEnCtlDark dark s
  | .enCtlSb => Sys2Proof.Machine.execEnCtlSb s
  | .sbEntry => Sys2Proof.Machine.execSbEntry s
  | .sbDrainTimeout => Sys2Proof.Machine.execSbDrainTimeout s
  | .avsPoll power => Sys2Proof.Machine.execAvsPoll power s
  | .linkUp n offers => Sys2Proof.Machine.execLinkUp n offers s
  | .huralCtlOpen n => Sys2Proof.Machine.execHuralCtlOpen n s
  | .huralCtlClose n => Sys2Proof.Machine.execHuralCtlClose n s
  | .huralCtlRekey n => Sys2Proof.Machine.execHuralCtlRekey n s
  | .handshake n msg => Sys2Proof.Machine.execHandshake n msg s
  | .sessionRetry n => Sys2Proof.Machine.execSessionRetry n s
  | .rekeyDue n => Sys2Proof.Machine.execRekeyDue n s
  | .huralFlitReceive n flit corrected uncorrectable => Sys2Proof.Machine.execHuralFlitReceive n flit corrected uncorrectable s
  | .ethFrameReceive n frame => Sys2Proof.Machine.execEthFrameReceive n frame s
  | .nak n => Sys2Proof.Machine.execNak n s
  | .flitAckTimeout n => Sys2Proof.Machine.execFlitAckTimeout n s
  | .keepalive n => Sys2Proof.Machine.execKeepalive n s
  | .close n => Sys2Proof.Machine.execClose n s
  | .write n => Sys2Proof.Machine.execWrite n s
  | .wack n => Sys2Proof.Machine.execWack n s
  | .read n => Sys2Proof.Machine.execRead n s
  | .rdata n => Sys2Proof.Machine.execRdata n s
  | .nack n => Sys2Proof.Machine.execNack n s
  | .tstamp n => Sys2Proof.Machine.execTstamp n s
  | .lost n => Sys2Proof.Machine.execLost n s
  | .probe n => Sys2Proof.Machine.execProbe n s
  | .probeack n => Sys2Proof.Machine.execProbeack n s
  | .probeTimeout b => Sys2Proof.Machine.execProbeTimeout b s
  | .takeover n => Sys2Proof.Machine.execTakeover n s
  | .grantreq n => Sys2Proof.Machine.execGrantreq n s
  | .grant n => Sys2Proof.Machine.execGrant n s
  | .huralFree n => Sys2Proof.Machine.execHuralFree n s
  | .evict n => Sys2Proof.Machine.execEvict n s
  | .bulk n => Sys2Proof.Machine.execBulk n s
  | .partnerAbsent n => Sys2Proof.Machine.execPartnerAbsent n s
  | .partnerSlow n vc => Sys2Proof.Machine.execPartnerSlow n vc s
  | .partnerStuck n => Sys2Proof.Machine.execPartnerStuck n s
  | .quarantineRetrain n => Sys2Proof.Machine.execQuarantineRetrain n s
  | .portHoldExpiry => Sys2Proof.Machine.execPortHoldExpiry s
  | .securePointDone => Sys2Proof.Machine.execSecurePointDone s
  | .shdCtlEn => Sys2Proof.Machine.execShdCtlEn s
  | .shdCtlSecure => Sys2Proof.Machine.execShdCtlSecure s
  | .shdCtlRealign p => Sys2Proof.Machine.execShdCtlRealign p s
  | .restorePhaseDone r => Sys2Proof.Machine.execRestorePhaseDone r s
  | .rstCtlCp cd => Sys2Proof.Machine.execRstCtlCp cd s
  | .rstCtlDierst d => Sys2Proof.Machine.execRstCtlDierst d s
  | .rstCtlHost => Sys2Proof.Machine.execRstCtlHost s
  | .rstCtlPkg => Sys2Proof.Machine.execRstCtlPkg s
  | .rstCtlOosclr => Sys2Proof.Machine.execRstCtlOosclr s
  | .resetRelease dom => Sys2Proof.Machine.execResetRelease dom s
  | .dumpReadTimeout addr => Sys2Proof.Machine.execDumpReadTimeout addr s
  | .watchdogTrip u => Sys2Proof.Machine.execWatchdogTrip u s
  | .rstHostwdBeat => Sys2Proof.Machine.execRstHostwdBeat s
  | .hostWatchdogTrip => Sys2Proof.Machine.execHostWatchdogTrip s
  | .relockTimeout d => Sys2Proof.Machine.execRelockTimeout d s
  | .telemetrySample => Sys2Proof.Machine.execTelemetrySample s
  | .telemetrySkip => Sys2Proof.Machine.execTelemetrySkip s
  | .hmTeldone tide => Sys2Proof.Machine.execHmTeldone tide s
  | .hmFwGo addr => Sys2Proof.Machine.execHmFwGo addr s
  | .hmFwCheckDone => Sys2Proof.Machine.execHmFwCheckDone s
  | .hmFwDrop => Sys2Proof.Machine.execHmFwDrop s
  | .hmFwRevert => Sys2Proof.Machine.execHmFwRevert s
  | .floodClose k => Sys2Proof.Machine.execFloodClose k s
  | .logbookFlush => Sys2Proof.Machine.execLogbookFlush s
  | .tallySave => Sys2Proof.Machine.execTallySave s
  | .hmSettai v => Sys2Proof.Machine.execHmSettai v s
  | .ptpLock tai unc => Sys2Proof.Machine.execPtpLock tai unc s
  | .ptpLockLost => Sys2Proof.Machine.execPtpLockLost s
  | .timeUnknown => Sys2Proof.Machine.execTimeUnknown s
  | .ptpMessage offset => Sys2Proof.Machine.execPtpMessage offset s
  | .ppsPulse => Sys2Proof.Machine.execPpsPulse s
  | .boot puf => Sys2Proof.Machine.execBoot puf s
  | .secCmdRecord addr => Sys2Proof.Machine.execSecCmdRecord addr s
  | .secCmdEnrolOwner addr => Sys2Proof.Machine.execSecCmdEnrolOwner addr s
  | .secCmdEndorsement addr => Sys2Proof.Machine.execSecCmdEndorsement addr s
  | .secCmdEnrolIdentity addr => Sys2Proof.Machine.execSecCmdEnrolIdentity addr s
  | .lifecycleReset => Sys2Proof.Machine.execLifecycleReset s
  | .dbgOpenGo addr => Sys2Proof.Machine.execDbgOpenGo addr s
  | .tapToken token => Sys2Proof.Machine.execTapToken token s
  | .tapDbgacc addr wr => Sys2Proof.Machine.execTapDbgacc addr wr s
  | .dbgClose => Sys2Proof.Machine.execDbgClose s
  | .sessionExpire p => Sys2Proof.Machine.execSessionExpire p s
  | .dbgHaltHalt core => Sys2Proof.Machine.execDbgHaltHalt core s
  | .dbgHaltResume core => Sys2Proof.Machine.execDbgHaltResume core s
  | .secAttestGo addr => Sys2Proof.Machine.execSecAttestGo addr s
  | .attestDone => Sys2Proof.Machine.execAttestDone s
  | .vin48Rise => Sys2Proof.Machine.execVin48Rise s
  | .convertersReady => Sys2Proof.Machine.execConvertersReady s
  | .vin48OutOfRange => Sys2Proof.Machine.execVin48OutOfRange s
  | .v3p3sbLost => Sys2Proof.Machine.execV3p3sbLost s
  | .resetNLow ns => Sys2Proof.Machine.execResetNLow ns s
  | .resetNRelease => Sys2Proof.Machine.execResetNRelease s
  | .refclkLost => Sys2Proof.Machine.execRefclkLost s
  | .thermtrip => Sys2Proof.Machine.execThermtrip s
  | .i3cStatus => Sys2Proof.Machine.execI3cStatus s
  | .i3cStatusIbi => Sys2Proof.Machine.execI3cStatusIbi s
  | .i3cCapsust w => Sys2Proof.Machine.execI3cCapsust w s
  | .i3cCapexc w => Sys2Proof.Machine.execI3cCapexc w s
  | .i3cReqEnterSb => Sys2Proof.Machine.execI3cReqEnterSb s
  | .i3cReqLeaveSb => Sys2Proof.Machine.execI3cReqLeaveSb s
  | .i3cReqReset => Sys2Proof.Machine.execI3cReqReset s
  | .i3cPin => Sys2Proof.Machine.execI3cPin s
  | .i3cTemp => Sys2Proof.Machine.execI3cTemp s
  | .i3cIdent => Sys2Proof.Machine.execI3cIdent s
  | .i3cHostimg bytes => Sys2Proof.Machine.execI3cHostimg bytes s
  | .refclkReturn => Sys2Proof.Machine.execRefclkReturn s
  | .v3p3sbRestore => Sys2Proof.Machine.execV3p3sbRestore s
  | .vin48Discharged => Sys2Proof.Machine.execVin48Discharged s
  | .tapClose => Sys2Proof.Machine.execTapClose s
  | .quarantineEnd n => Sys2Proof.Machine.execQuarantineEnd n s
  | .ddExitComplete d => Sys2Proof.Machine.execDdExitComplete d s

end Sys2Proof.Machine
end

