-- ==== Sys2Proof/Machine/Tick.lean ====
section
/-! DEFINITION. What the passing of time changes while no command waits: the counts of waiting and of stalls, one a cycle of the unit's clock (R105, R171, R183, R242, log 43). -/

namespace Sys2Proof.Machine

/-- The clock of a planned unit: a tile's die, the update engine's first slice, and IN for the units of the I/O die (R190, Table 1-8). -/
def unitMHz (s : State) (u : Nat) : Nat := if u < 512 then dieMHz s (u / 128) else if u = 512 then dieMHz s 0 else 2000

/-- The edges of a clock of `f` MHz in the quarter nanosecond that ends now + 1. -/
def edgesAt (now f : Nat) : Nat := (now + 1) * f / 4000 - now * f / 4000

/-- A tile's waiting in a cycle: MX_WAITCYC, VX_WAITCYC and VX_DMA_WAITCYC. -/
def tileTick (u : Nat) : Act :=
  .ask fun s =>
    let n := edgesAt s.now (unitMHz s u)
    if n = 0 then .skip
    else Act.all [Act.when (mxWaits s u).1 (incF MX_WAITCYC.SYNC n u), Act.when (mxWaits s u).2 (incF MX_WAITCYC.BANK n u),
      Act.when (vxWaits s u).1 (incF VX_WAITCYC.SYNC n u), Act.when (vxWaits s u).2 (incF VX_WAITCYC.BANK n u),
      Act.when (dmaWaits s u).1 (incF VX_DMA_WAITCYC.SYNC n u), Act.when (stalled s u) (incF VX_DMA_WAITCYC.TIER n u)]

/-- The update engine's waiting in a cycle. -/
def updTick : Act :=
  .ask fun s =>
    let n := edgesAt s.now (unitMHz s 512)
    Act.when (decide (n ≠ 0)) (Act.all [Act.when (updWaits s).1 (incF UPD_WAITCYC.SYNC n), Act.when (updWaits s).2 (incF UPD_WAITCYC.PEND n)])

/-! Stalls and lateness (R231, R242). Accesses to this package's own memories complete at once, so that only the neighbour threshold can be passed (log 43). -/

/-- A request that left at a time is past the neighbour threshold of 10 µs (Table 10-2). -/
def isLate (s : State) (since : Nat) : Bool := decide (since + 40000 < s.now)

/-- What is late, as stall key and access: a fetch whose answer is due, or an engine's write that is not acknowledged. -/
def lateAccesses (s : State) : List (Nat × StallAt) :=
  (s.tier.fetch.filterMap fun f =>
    if f.ans = .due && isLate s f.since then
      match f.who with
      | .unit u => some (u, { cause := 3, absent := false, addr := f.addr, wr := false })
      | .cmd q n => some (copyKey q n, { cause := 3, absent := false, addr := f.addr, wr := false })
      | .page => some (513, { cause := 3, absent := false, addr := f.addr, wr := false })
      | .nobody => none
    else none) ++
  s.hural.reqs.filterMap fun r =>
    match r.job with
    | .put u a => if isLate s r.since && !r.held then some (u, { cause := 3, absent := false, addr := a.toNat, wr := true }) else none
    | _ => none

/-- What is late stalls its unit where nothing of an earlier cause does; what is no longer late has gone on. -/
def lateTick : Act :=
  .ask fun s =>
    let late := lateAccesses s
    Act.all [Act.each (fun (e : Nat × Stall) => Act.when (decide (e.2.cause = 3) && !late.any fun x => decide (x.1 = e.1)) (unitGoes e.1)) s.tier.stalls,
      Act.each (fun (x : Nat × StallAt) => .given (fun s => (Cells.look s.tier.stalls x.1).isNone) (unitStall x.1 x.2)) late]

/-- The cause that holds a stalled access may have changed: another cause is another episode. -/
def causeTick (e : Nat × Stall) : Act :=
  .ask fun s => match route s { a := e.2.addr, n := 1, wr := e.2.wr, rebuild := false } with
    | .stall c ab => Act.when (decide (e.2.cause < 3) && decide (c ≠ e.2.cause)) (unitStall e.1 { cause := c, absent := ab, addr := e.2.addr, wr := e.2.wr })
    | _ => .skip

/-- The units that are stalled, each once under each cause. -/
def stallsNow (s : State) : List (Nat × Nat) := ((s.tier.stalls.filter fun e => e.2.lasts s).map fun e => (keyUnit e.1, e.2.cause)).eraseDups

/-- A stalled unit's cycle under its cause. -/
def stallTick (e : Nat × Nat) : Act :=
  .ask fun s => let n := edgesAt s.now (unitMHz s e.1)
    Act.when (decide (n ≠ 0)) (incF TIER_STALL.CYCLES n e.2)

/-- A nanosecond of an open port with a virtual channel that holds no credit (R354, log 43). -/
def starveTick (e : Nat × PortSt) : Act :=
  .ask fun s => Act.when (decide (portState s e.1 = 3) && (List.range 4).any fun v => decide (e.2.creditOf v = 0)) (incF HURAL_STARVE.NS 1 e.1)

/-- A quarter of a nanosecond passes: accesses whose stall is over are made again, waiting is counted. -/
def tick : Act :=
  .ask fun s => Act.all [retryStalled, resendHeld, lateTick, .ask fun t => Act.each causeTick t.tier.stalls,
    Act.each (fun e => tileTick e.1) s.tiles, updTick, .ask fun t => Act.each stallTick (stallsNow t),
    Act.when (decide (s.now % 4 = 3)) (Act.each starveTick s.hural.ports), .prim (.time 1)]

end Sys2Proof.Machine
end

