-- ==== Sys2Proof/Safety.lean ====
section
/-! DEFINITION. What holds of every state a run can reach, and how a run may change what must not go back: the terms of the claims. -/

namespace Sys2Proof.Safety

open Sys2Proof.Machine

/-- Memory has its canonical form. -/
abbrev memoryWf (s : State) : Prop := Cells.wf (0 : Byte) s.mem = true

/-- The registers have theirs: keys strictly rising, and no entry that equals its register's reset value. -/
def regsWf (s : State) : Prop := Cells.sorted s.regs = true ∧ ∀ r i j, Cells.look s.regs (regKey r i j) ≠ some (regReset r i j)

/-- Reserved bits read as zero (R6). -/
def reservedZero (s : State) : Prop := ∀ r i j, getReg s r i j &&& ~~~regMask r i j = 0

/-- IDREV reads as its dies have it wired (R21). -/
def idrevWired (s : State) : Prop := ∀ i j, getReg s .IDREV i j = 0x4645_5053_2122_1103

/-- What every reachable state satisfies. -/
def Inv (s : State) : Prop := memoryWf s ∧ regsWf s ∧ reservedZero s ∧ idrevWired s

/-- The order in which a package passes through its lifecycle states (R421). -/
def lifeRank : Life → Nat
  | .fab => 0
  | .prov => 1
  | .field => 2
  | .ret => 3

/-- What a run never takes back: the rollback floor does not fall (R74), the lifecycle does not return (R421), no logbook record that reached flash is lost or altered (R402, R405), and time does not run back. -/
def Onward (s t : State) : Prop :=
  s.floor.toNat ≤ t.floor.toNat ∧ lifeRank s.life ≤ lifeRank t.life ∧ (∃ more, t.flashLog = s.flashLog ++ more) ∧ s.now ≤ t.now

/-- The tally of a kind of event: what LOG_TALLY reads for its code (R406). -/
def tally (s : State) (k : LogKind) : Nat := Cells.get 0 s.log.tallies k.ctorIdx

/-- An event of a kind has been logged: its tally counts one more, up to 2^48 - 1 (R406). -/
def Logged (k : LogKind) (s t : State) : Prop := tally t k = min (tally s k + 1) (2 ^ 48 - 1)

/-- The queue of waiting commands is the sender's: no command changes it. -/
def SameQueue (s t : State) : Prop := t.pending = s.pending

/-- The ranges of the shadow buffer that an UPD writes, as base and size: weights, remainders of BF16 weights, momentum, statistics (R196). -/
def updTargets (s : State) (d : Desc) (e : Group) : List (Nat × Nat) :=
  let b := shadowBuf s (uGroup d)
  [(b + uWoff d, uN d * wBytes e)] ++ (if e.w32 then [] else [(b + remOff d, uN d)]) ++ (if e.moment then [(b + uMoff d, uN d * mBytes e)] else []) ++
  (if e.factored then
    if uFullV d then [(b + uSoff d, 4 * uN d)]
    else [(b + uSoff d, 4 * uRows d), (b + uSoff d + alignUp (4 * uRows d) 64, 4 * uCols d)]
   else [])

/-! Which commands may change a part of the package; every other command leaves that part as it is (95_what_each_step_holds.md). -/

/-- Accesses, which may meet any register, and what may reset the compute part or the package: these may change every part. -/
def reachesAll : Instr → Bool
  | .registerWrite .. | .physicalAccess .. | .agentLoad .. | .agentStore .. | .tapDbgacc .. | .clockLost .. | .rstCtlPkg .. | .rstCtlCp ..
  | .rstCtlDierst .. | .lifecycleReset .. | .resetNLow .. | .refclkLost .. | .i3cReqReset .. | .vin48OutOfRange .. | .thermtrip ..
  | .i3cReqLeaveSb .. | .vin48Discharged .. | .tierObjctlEscalate .. | .departureComplete .. | .collapseFlushEnd .. | .restorePhaseDone ..
  | .watchdogTrip .. => true
  | _ => false

/-- The items of a tile: their starts, completions and resumptions. -/
def tileItem : Instr → Bool
  | .nop .. | .mma .. | .mmaComplete .. | .mxCtlResume .. | .add .. | .sub .. | .mul .. | .fma .. | .max .. | .min .. | .abs .. | .neg ..
  | .selgt .. | .cvt .. | .exp2 .. | .log2 .. | .recip .. | .rsqrt .. | .sqrt .. | .tanh .. | .rsum .. | .rmax .. | .csum .. | .out ..
  | .spill .. | .free .. | .win .. | .vxItemComplete .. | .vxCtlResume .. | .copy .. | .lowerMatrixRows .. | .lowerWindowLine ..
  | .dmaItemComplete .. | .vxDmaCtlResume .. => true
  | _ => false

/-- The items of the update engine. -/
def updateItem : Instr → Bool
  | .upd .. | .wcopy .. | .updNop .. | .updItemComplete .. | .updCtlResume .. => true
  | _ => false

/-- Commands that may store to memory: items, moves of pages, atomics, writes and messages that carry data, work of the input pipeline, records and resets. -/
def mayChangeMemory : Instr → Bool
  | .graceEnd .. | .deferredCommit .. | .heldAccessRelease .. | .migrationPlace .. | .migrationMove .. | .migrationMoveDone ..
  | .migrationUnmap .. | .quotaWaitRelease .. | .evictionDeadline .. | .patrol .. | .tierObjctlRebuild .. | .tierObjctlRelease .. | .wb ..
  | .evc .. | .snoopResponse .. | .uncachedFullWrite .. | .uncachedPartialWrite .. | .amo .. | .lrSc .. | .cmdPut .. | .cmdCopy ..
  | .commandComplete .. | .bellCqheadWrite .. | .pcieDeviceWrite .. | .pcieDeviceRead .. | .customsCheck .. | .run .. | .runComplete ..
  | .decodeComplete .. | .cusHostdone .. | .deadlineDrop .. | .nack .. | .write .. | .bulk .. | .grantreq .. | .grant .. | .huralFree ..
  | .evict .. | .resetRelease .. | .dumpReadTimeout .. | .telemetrySample .. | .boot .. | .attestDone .. | .convertersReady ..
  | .resetNRelease .. | .refclkReturn .. => true
  | c => reachesAll c || tileItem c || updateItem c

/-- Commands that may change a tile or a pass: items, plans, verdicts, the watch, streams. -/
def mayChangeTiles : Instr → Bool
  | .graceEnd .. | .planTake .. | .longSumFold .. | .streamWrap .. | .completionReport .. | .verdict .. | .repeatPlanFetched ..
  | .verdictDelivery .. | .watchRecomputeStart .. | .watchRecomputeEnd .. | .watchAbandon .. | .nack .. | .shdCtlRealign .. => true
  | c => reachesAll c || tileItem c

/-- Commands that may change the update engine. -/
def mayChangeUpdate : Instr → Bool
  | .graceEnd .. | .planTake .. | .deferredCommit .. | .updCtlDiscard .. | .nack .. | .shdCtlRealign .. => true
  | c => reachesAll c || updateItem c

/-- Commands that may change the input pipeline. -/
def mayChangeCustoms : Instr → Bool
  | .graceEnd .. | .planTake .. | .cusSubptrTail .. | .customsCheck .. | .run .. | .runComplete .. | .decodeComplete .. | .cusHostdone ..
  | .deadlineDrop .. | .cusCtlRestore .. | .rstCtlHost .. | .hostWatchdogTrip .. => true
  | c => reachesAll c

/-- Commands that may change the chart, an amendment or a flash slot. -/
def mayChangeChart : Instr → Bool
  | .graceEnd .. | .chartAmendGo .. | .amendCheckDone .. | .chartAmendCancel .. | .amendDrainTimeout .. | .chartFlashGo ..
  | .chartFlashCheckDone .. | .chartFlashWriteDone .. | .boot .. => true
  | c => reachesAll c

/-- Commands that may change what the die edges hold. -/
def mayChangeLinks : Instr → Bool
  | .laneFrameReceive .. | .laneNakReceive .. | .dropNotice .. | .d2dCtlRetrain .. | .receiveMap .. | .mapTimeout .. | .confirmDone ..
  | .routeRestore .. | .resetRelease .. | .convertersReady .. | .resetNRelease .. | .refclkReturn .. => true
  | c => reachesAll c

/-- Commands that may change the harbourmaster's firmware, telemetry or clock measurement. -/
def mayChangeHarbour : Instr → Bool
  | .clkMeasStart .. | .clkMeasDone .. | .tideMark .. | .graceEnd .. | .telemetrySample .. | .telemetrySkip .. | .hmTeldone .. | .hmFwGo ..
  | .hmFwCheckDone .. | .hmFwDrop .. | .hmFwRevert .. | .ptpMessage .. => true
  | c => reachesAll c

/-- Commands that may change the energy manager. -/
def mayChangeEnergy : Instr → Bool
  | .tideMark .. | .budgetMessageSend .. | .budgetMessage .. | .allotmentSend .. | .allotment .. | .graceEnd .. | .idleSlotsBegin ..
  | .gaugeSample .. | .gaugeForcedSample .. | .limiterGate .. | .criticalTemperature .. | .criticalTemperatureClear ..
  | .powerModelCalibrate .. | .enCtlDark .. | .enCtlSb .. | .sbEntry .. | .sbDrainTimeout .. | .resetRelease .. | .convertersReady ..
  | .resetNRelease .. | .i3cCapsust .. | .i3cCapexc .. | .i3cReqEnterSb .. | .refclkReturn .. | .ddExitComplete .. => true
  | c => reachesAll c

/-- Commands that may change rails, pins or the board controller's state. -/
def mayChangeBoard : Instr → Bool
  | .sbEntry .. | .sbDrainTimeout .. | .resetRelease .. | .boot .. | .vin48Rise .. | .convertersReady .. | .v3p3sbLost .. | .resetNRelease ..
  | .i3cStatusIbi .. | .i3cHostimg .. | .refclkReturn .. | .v3p3sbRestore .. => true
  | c => reachesAll c

/-- Commands that may change calendar time. -/
def mayChangeCalendar : Instr → Bool
  | .tideMark .. | .sbEntry .. | .sbDrainTimeout .. | .hmSettai .. | .ptpLock .. | .ptpLockLost .. | .timeUnknown .. | .ptpMessage ..
  | .vin48Rise .. | .v3p3sbLost .. | .v3p3sbRestore .. => true
  | c => reachesAll c

/-- Commands that may write the logbook to flash. -/
def mayChangeFlashLog : Instr → Bool
  | .sbEntry .. | .sbDrainTimeout .. | .logbookFlush .. => true
  | c => reachesAll c

end Sys2Proof.Safety
end

