-- ==== Sys2Proof/Certificates/Slice0/Obligations.lean ====
section
/-! DEFINITION. The statements for the provers. -/

open Sys2Proof Sys2Proof.Machine

/-- A step is the front command's effect on the state with the rest of the queue. That a block takes its commands from a queue is the model's form (log 1). -/
def Obligations.StepRunsTheFrontCommand : Prop :=
  ∀ (c : Instr) (rest : List Instr) (s : State), step { s with pending := c :: rest } = exec c { s with pending := rest }

/-- No command is refused and none stops the machine, and none touches the queue. -/
def Obligations.EveryCommandCompletesAndKeepsTheQueue : Prop :=
  ∀ (c : Instr) (s : State), ∃ t, exec c s = .next t ∧ Safety.SameQueue s t

/-- The reset state satisfies the invariant. -/
def Obligations.ResetMeetsTheInvariant : Prop := Safety.Inv State.reset

/-- Every step keeps the invariant, and IDREV reads the same in every state that satisfies it. -/
def Obligations.EveryStepKeepsTheInvariant : Prop :=
  ∀ s, Safety.Inv s → (∃ t, step s = .next t ∧ Safety.Inv t) ∧ regRead s .IDREV 0 0 = 0x4645_5053_2122_1103

/-- No step takes back what must never go back. -/
def Obligations.NoStepGoesBack : Prop := ∀ s, ∃ t, step s = .next t ∧ Safety.Onward s t

/-- REGISTER_WRITE (R5, Table 0-3). The listed registers start actions, which statements of their own give. -/
def Obligations.RegisterWriteActsByAccessCode : Prop :=
  ∀ (s : State) (core : Fin 96) (addr : Addr) (v : W64) (r : RegName) (i j : Nat),
    Safety.Inv s → inBlocks addr.toNat = true → tileOff s addr.toNat = false → regAt addr.toNat = some (r, i, j) →
    r ∉ [.MX_CTL, .VX_CTL, .VX_DMA_CTL, .UPD_CTL, .UPD_LIVE, .SCH_CTL, .BELL_RING, .BELL_CQHEAD, .BELL_CFG, .BELL_RINGADDR, .BELL_CQADDR, .CUS_CFG, .CUS_SUBPTR] →
    r ∉ [.CUS_HOSTDONE, .CUS_CTL, .TIDE_PLAN, .CHART_AMEND, .CHART_FLASH, .EN_CTL, .SHD_CTL, .TIER_CTL, .TIER_MIGPTR, .TIER_OBJCTL, .COH_CTL, .D2D_CTL, .HURAL_CFG] →
    r ∉ [.HURAL_CTL, .HM_FW, .HM_SETTAI, .HM_TELDONE, .RST_CTL, .RST_HOSTWD, .SEC_CMD, .SEC_ATTEST, .DBG_OPEN, .DBG_CLOSE, .DBG_HALT, .CLK_MEAS] →
    ∃ t, exec (.registerWrite (.host core) addr 8 v) s = .next t ∧
      (∀ f ∈ r.fields,
        (f.acc = .ro ∨ f.acc = .rc → getF t f i j = getF s f i j) ∧
        (f.acc = .rw ∨ (f.acc = .rwl ∧ locked s = false) → getF t f i j = bitsOf v.toNat f.lo f.width) ∧
        (f.acc = .rwl ∧ locked s = true → getF t f i j = getF s f i j) ∧
        (f.acc = .w1c → getF t f i j = bitsOf (getReg s r i j &&& ~~~v).toNat f.lo f.width) ∧
        (f.acc = .w1s → getF t f i j = bitsOf (getReg s r i j ||| v).toNat f.lo f.width)) ∧
      t.mem = s.mem ∧ t.out = .resp (.host core) addr [] :: s.out

/-- Access faults of register space (R4, R17, R19). -/
def Obligations.RegisterAccessFaults : Prop :=
  (∀ (s : State) (core : Fin 96) (addr : Addr) (v : W64) (size : Nat), regHole s addr.toNat = false → sizeOk addr.toNat size = false →
    ∃ t, exec (.registerWrite (.host core) addr size v) s = .next t ∧ t.regs = s.regs ∧ t.mem = s.mem ∧
      t.out = .accessFault (.host core) addr :: s.out) ∧
  (∀ (s : State) (who : Agent) (addr : Addr) (v : W64) (size : Nat),
    whoOn s who = true →
    (who = .copyDma ∨ (∃ u, who = .engine u) ∨ (∃ n, who = .pcie n) ∨ regHole s addr.toNat = true) →
    ∃ t, exec (.registerWrite who addr size v) s = .next t ∧ t.regs = s.regs ∧ t.mem = s.mem ∧
      t.out = .accessFault who addr :: s.out ∧
      Safety.Logged .accessFault s t) ∧
  (∀ (s : State) (addr : Addr), inBlocks addr.toNat = false ∨
      (inTiles addr.toNat = true ∧ s.chart.cur = none ∧ regAt (addr.toNat / 8 * 8) = none) → regHole s addr.toNat = true) ∧
  (∀ (s : State) (core : Fin 96) (addr : Addr) (v : W64) (size : Nat), tileOff s addr.toNat = true → sizeOk addr.toNat size = true →
    ∃ t, exec (.registerWrite (.host core) addr size v) s = .next t ∧ t = { s with out := .resp (.host core) addr [] :: s.out }) ∧
  (∀ (s : State) (core : Fin 96) (addr : Addr) (n e : Nat), tileOff s addr.toNat = true → sizeOk addr.toNat n = true →
    ∃ t, exec (.physicalAccess (.host core) addr (.read n) e) s = .next t ∧
      t = { s with out := .resp (.host core) addr (List.replicate n 0) :: s.out })

/-- BELL_QERR_READ, CLK_MEAS_START, CLK_MEAS_DONE, CLOCK_LOST. -/
def Obligations.ReadClearAndClockCommands : Prop :=
  (∀ (s : State) (core : Fin 96) (k : Fin 4) (ev : W64),
    ∃ t, exec (.bellQerrRead (.host core) k ev) s = .next t ∧ getReg t .BELL_QERR 0 k = ev ∧
      t.out = .resp (.host core) (BitVec.ofNat 48 (0xF000_0010_0F28 + 8 * k.val)) (w64Bytes (getReg s .BELL_QERR 0 k)) :: s.out ∧ t.mem = s.mem) ∧
  (∀ (s : State) (sel : BitVec 5),
    ∃ t, exec (.clkMeasStart sel) s = .next t ∧ getF t CLK_MEAS.DONE = 0 ∧ getF t CLK_MEAS.SEL = sel.toNat ∧ getF t CLK_MEAS.COUNT = getF s CLK_MEAS.COUNT ∧
      t.hm.meas = some (if 1 ≤ sel.toNat ∧ sel.toNat ≤ 25 then sel.toNat else 1) ∧ t.mem = s.mem) ∧
  (∀ (s : State) (count : BitVec 32), s.hm.meas.isSome = true →
    ∃ t, exec (.clkMeasDone count) s = .next t ∧ getF t CLK_MEAS.COUNT = count.toNat ∧ getF t CLK_MEAS.DONE = 1 ∧
      getF t CLK_MEAS.SEL = getF s CLK_MEAS.SEL ∧ t.hm.meas = none ∧ t.mem = s.mem) ∧
  (∀ (s : State) (dom : Fin 26), dom.val ∈ [1, 16, 17, 18, 19, 21, 22, 23, 24, 25] →
    ∃ t, exec (.clockLost dom) s = .next t ∧ dom.val ∈ t.rst.clkLost ∧
      (∀ k, bitOf (getF t CLK_LOSS.LOSS) k = (bitOf (getF s CLK_LOSS.LOSS) k || decide (k = dom.val - 1))) ∧ getF t CLK_LOSS.REF = getF s CLK_LOSS.REF ∧
      Safety.Logged .clockLost s t ∧ t.mem = s.mem)

/-- TIDE_MARK, FRAME_COMPOSE, TIDE_FRAME_RECEIVE, FRAME_MISSING, SKEW_CHECK. -/
def Obligations.MarksAndFrames : Prop :=
  (∀ (s : State) (used : List Nat) (off : BitVec 32),
    ∃ t, exec (.tideMark used off) s = .next t ∧ getF t TIDE_COUNT.COUNT = (getF s TIDE_COUNT.COUNT + 1) % 2 ^ 48 ∧ t.tide.grace = true ∧
      t.tide.closed = false ∧ t.tide.markAt = s.now ∧ (∀ d, d < 6 → getF t EN_LEDGER.USED d = used.getD d 0 % 2 ^ 32) ∧ t.mem = s.mem) ∧
  (∀ s : State, isPilot s = true → getF s SHD_STAT.ROLE ≠ 3 →
    ∃ t, exec .frameCompose s = .next t ∧ t.tide.closed = true ∧ t.tide.darkQueue = s.tide.darkQueue.drop 1 ∧ t.regs = s.regs ∧ t.mem = s.mem ∧
      t.tide.composed = some (tideFrame ((getF s TIDE_COUNT.COUNT + 1) % 2 ^ 48) (periodOf s ((getF s TIDE_COUNT.COUNT + 1) % 2 ^ 48))
        (tokenNow s ((getF s TIDE_COUNT.COUNT + 1) % 2 ^ 48)) s.tide.darkQueue.head? (ownBerth s) false)) ∧
  (∀ (s : State) (f : BitVec 128), frameOk f = true → getF s TIDE_SRC.ROLE = 0 → s.tide.spareRole = false → getF s TIDE_SRC.MODE = 1 →
    ∃ t, exec (.tideFrameReceive false f) s = .next t ∧ getF t TIDE_COUNT.COUNT = bitsOf f.toNat 72 48 ∧ t.tide.inNow = some true ∧ t.tide.failIn = 0 ∧
      t.tide.token = (if bitOf f.toNat 57 then some (BitVec.ofNat 16 (bitsOf f.toNat 41 16)) else none) ∧
      t.tide.dark = (if bitOf f.toNat 40 then some (bitsOf f.toNat 32 8) else none) ∧ t.mem = s.mem) ∧
  (∀ s : State, getF s TIDE_SRC.ROLE = 0 → s.tide.spareRole = false → s.tide.spareNow = some true → s.tide.failIn = 0 →
    ∃ t, exec (.frameMissing false) s = .next t ∧ getF t TIDE_EVT.MISSIN = 1 ∧ t.tide.failIn = 1 ∧ getF t TIDE_SRC.MODE = getF s TIDE_SRC.MODE ∧
      getF t TIDE_COUNT.COUNT = getF s TIDE_COUNT.COUNT ∧ t.mem = s.mem) ∧
  (∀ s : State, getF s TIDE_SRC.ROLE = 0 → s.tide.spareRole = false → s.tide.spareNow = some true → s.tide.failIn = 1 → getF s TIDE_SRC.MODE = 1 →
    ∃ t, exec (.frameMissing false) s = .next t ∧ getF t TIDE_EVT.MISSIN = 1 ∧ getF t TIDE_SRC.MODE = 2 ∧ getF t TIDE_EVT.SWITCH = 1 ∧
      Safety.Logged .tideSwitch s t ∧ t.mem = s.mem) ∧
  (∀ s : State, getF s TIDE_SRC.ROLE = 0 → s.tide.spareRole = false → s.tide.inNow = some false → getF s TIDE_SRC.MODE ≠ 4 →
    ∃ t, exec (.frameMissing true) s = .next t ∧ getF t TIDE_EVT.MISSSPARE = 1 ∧ getF t TIDE_SRC.MODE = 4 ∧ getF t TIDE_EVT.HOLDOVER = 1 ∧
      t.tide.token = s.tide.token ∧ t.tide.committed = s.tide.committed ∧ t.mem = s.mem) ∧
  (∀ (s : State) (skew : Nat) (delay : BitVec 11), isPilot s = false →
    ∃ t, exec (.skewCheck skew delay) s = .next t ∧ t.hural.stamp = none ∧ t.mem = s.mem ∧
      (50 < skew → getF t TIDE_EVT.SKEW = 1 ∧ getF t TIDE_COMP.DELAY = delay.toNat ∧ Safety.Logged .skewed s t) ∧
      (skew ≤ 50 → t.regs = s.regs ∧ t.log = s.log))

/-- Composing and checking a frame agree (Table 2-5). -/
def Obligations.TideFramesReadBack : Prop :=
  ∀ (count period sender : Nat) (token : Option SetNo) (dark : Option Nat) (stby : Bool),
    let f := tideFrame count period token dark sender stby
    frameOk f = true ∧ bitsOf f.toNat 120 8 = 0xA5 ∧ bitsOf f.toNat 72 48 = count % 2 ^ 48 ∧ bitsOf f.toNat 58 14 = period % 2 ^ 14 ∧
      bitOf f.toNat 57 = token.isSome ∧ (∀ t, token = some t → bitsOf f.toNat 41 16 = t.toNat) ∧
      bitOf f.toNat 40 = dark.isSome ∧ (∀ b, dark = some b → bitsOf f.toNat 32 8 = b % 256) ∧
      bitsOf f.toNat 24 8 = sender % 256 ∧ bitOf f.toNat 23 = stby ∧ bitsOf f.toNat 16 7 = 0

/-- GRACE_END, PLAN_TAKE, TIDE_PLAN_WRITE. -/
def Obligations.SlipsAndPlans : Prop :=
  (∀ s : State, s.tide.grace = true →
    ∃ t, exec .graceEnd s = .next t ∧ t.tide.grace = false ∧ t.tide.takeDue = true ∧
      (∀ p, p < 64 → getF t TIDE_PLAN.CATCHUP p = b2n (partBusy s p) ∧
        getF t TIDE_PLAN.SHIFTS p = (if partBusy s p then min (getF s TIDE_PLAN.SHIFTS p + 1) 0xFFFF else getF s TIDE_PLAN.SHIFTS p)) ∧
      (∀ c, s.tide.token = some c → isNewer s c = true → t.tide.committed = some c) ∧
      (s.tide.token = none → t.tide.committed = s.tide.committed) ∧
      (∀ p u, p < 64 → (partUnits s p).count u = 1 → (∀ q, q < 64 → q ≠ p → u ∉ partUnits s q) →
        getF t TIDE_UNIT.CONSEC u =
          (if unitBusy s u then min 3 (getF s TIDE_UNIT.CONSEC u + 1) else if s.tide.progress.contains u then 0 else getF s TIDE_UNIT.CONSEC u)) ∧
      (s.chart.staged = none → ∀ p, p < 64 → (partSt t p).slip = partBusy s p)) ∧
  (∀ (s : State) (u : Nat), u < 516 →
    getF (run (unitSlips u) s) TIDE_UNIT.CONSEC u = min 3 (getF s TIDE_UNIT.CONSEC u + 1) ∧
    getF (run (unitSlips u) s) TIDE_SLIPS.SLIPS = min (getF s TIDE_SLIPS.SLIPS + 1) 0xFFFF_FFFF ∧
    (getF s TIDE_UNIT.CONSEC u = 2 → getF (run (unitSlips u) s) TIDE_EVT.SUSPECT = 1 ∧ Safety.Logged .suspect s (run (unitSlips u) s))) ∧
  (∀ (s : State) (p : Nat) (a : Addr), s.tide.takeDue = true → p < 64 → ((theChart s).parts.map (fun e => e.part)).count p = 1 → isHeld s 1 = false →
    isHeld s 7 = false → (partSt s p).slip = false → (partSt s p).sampled = some a →
    ∃ t, exec .planTake s = .next t ∧ t.tide.takeDue = false ∧
      (planWaits s a.toNat = true → (partSt t p).plan = (partSt s p).plan ∧ getF t TIDE_SLIPS.TOKDEF = min (getF s TIDE_SLIPS.TOKDEF + 1) 0xFFFF_FFFF ∧
        getF t TIDE_PLAN.VALID p = getF s TIDE_PLAN.VALID p) ∧
      (planWaits s a.toNat = false → planOk s p a.toNat false = false → (partSt t p).plan = none ∧ (partSt t p).link = 0 ∧ getF t TIDE_EVT.PLANREJ = 1 ∧
        ((partSt s p).rewritten = false → (partSt s p).behind = none → (partSt t p).rejected = true ∧ getF t TIDE_PLAN.VALID p = 0)) ∧
      (planWaits s a.toNat = false → planOk s p a.toNat false = true → planReachable s a.toNat = true →
        (∃ h, (partSt t p).plan = some h ∧ h.addr = a ∧ h.link = BitVec.ofNat 64 (planHdr s a.toNat).link) ∧
        ((partSt s p).rewritten = false → (partSt s p).behind = none → getF t TIDE_PLAN.VALID p = 0))) ∧
  (∀ (s : State) (p : Fin 64) (addr : Addr), planPending s p.val = false →
    ∃ t, exec (.tidePlanWrite p addr) s = .next t ∧ getF t TIDE_PLAN.ADDR p.val = addr.toNat / 64 ∧ getF t TIDE_PLAN.VALID p.val = 1 ∧
      (partSt t p.val).rejected = false ∧ getF t TIDE_PLAN.SHIFTS p.val = getF s TIDE_PLAN.SHIFTS p.val ∧ t.mem = s.mem) ∧
  (∀ (s : State) (p : Fin 64) (addr : Addr), planPending s p.val = true →
    ∃ t, exec (.tidePlanWrite p addr) s = .next t ∧ (partSt t p.val).behind = some (addr, true) ∧ t.regs = s.regs ∧ t.mem = s.mem)

/-- READY_REPORT_SEND, READY, FREADY_SEND, FREADY, DEFERRED_COMMIT. -/
def Obligations.ReadyReportsAndDeferredCommits : Prop :=
  (∀ (s : State) (x : SetSt), x ∈ s.tide.sets → x.reported = false → x.due = true → setDone s x = true → isCommitted s x.set = false → mirrorsOpen s = false →
    pilots s = [ownBerth s] → getF s SHD_STAT.ROLE ≠ 3 →
    ∃ t, exec (.readyReportSend x.set) s = .next t ∧ (∀ y ∈ t.tide.sets, y.set = x.set → y.reported = true) ∧
      (∃ m n, (18, m, n) ∈ t.hural.inbox ∧ m.op = 0x10 ∧ m.addr = x.set.toNat ∧ m.src = ownBerth s) ∧ t.mem = s.mem) ∧
  (∀ (s : State) (n : Fin 19) (e : Nat × HMsg × Nat), s.hural.inbox.find? (fun e => decide (e.1 = n.val) && decide (e.2.1.op = 0x10)) = some e →
    ∃ t, exec (.ready n) s = .next t ∧ (BitVec.ofNat 16 e.2.1.addr, e.2.1.src) ∈ t.tide.ready ∧ t.hural.inbox = s.hural.inbox.erase e ∧ t.mem = s.mem) ∧
  (∀ (s : State) (set : SetNo) (others : List Nat), isPilot s = true → readyThrough s set = true → isCommitted s set = false →
    s.tide.crossSets.any (fun e => decide (e.1 = set)) = false →
    ∃ t, exec (.freadySend set others) s = .next t ∧ (∀ f ∈ others, .fready set f (BitVec.ofNat 48 (getF s TIDE_COUNT.COUNT)) ∈ t.out) ∧
      freadyOf t set ownFlotilla = some (BitVec.ofNat 48 (getF s TIDE_COUNT.COUNT)) ∧ t.mem = s.mem) ∧
  (∀ (s : State) (f : Nat) (set : SetNo) (tide : BitVec 48), isPilot s = true → isCommitted s set = false → f ≠ ownFlotilla →
    ∃ t, exec (.fready f set tide) s = .next t ∧ freadyOf t set f = some tide ∧ t.regs = s.regs ∧ t.mem = s.mem) ∧
  (∀ (s : State) (g : Fin 256) (l : List FlipReader), Cells.look s.upd.delayed g.val = some l →
    ∃ t, exec (.deferredCommit g) s = .next t ∧
      (l.any (fun r => r.unfinished s) = true → t = s) ∧
      (l.any (fun r => r.unfinished s) = false → groupLive t g.val = !groupLive s g.val ∧ bitOf (getF t UPD_PEND.PEND (g.val / 64)) (g.val % 64) = false ∧
        Cells.look t.upd.delayed g.val = none))

/-- CHART_AMEND_GO, AMEND_CHECK_DONE, CHART_AMEND_CANCEL, AMEND_DRAIN_TIMEOUT. -/
def Obligations.ChartAmendments : Prop :=
  (∀ (s : State) (addr : Addr), getF s CHART_STAT.STATE ≠ 2 → getF s CHART_STAT.AMEND ∉ [1, 2, 3] →
    ∃ t, exec (.chartAmendGo addr) s = .next t ∧ getF t CHART_STAT.AMEND = 1 ∧ getF t CHART_AMEND.ADDR = addr.toNat / 64 ∧
      t.chart = { s.chart with checking := some addr } ∧ t.mem = s.mem) ∧
  (∀ (s : State) (addr : Addr), getF s CHART_STAT.STATE ≠ 2 → getF s CHART_STAT.AMEND ∈ [1, 2, 3] →
    ∃ t, exec (.chartAmendGo addr) s = .next t ∧ getF t CHART_STAT.AMEND = getF s CHART_STAT.AMEND ∧ t.chart = s.chart ∧
      getF t CHART_STAT.REASON = 0x0D ∧ getF t CHART_EVT.AMENDREJ = 1 ∧ Safety.Logged .amendRejected s t ∧ t.mem = s.mem) ∧
  (∀ (s : State) (a : Addr), s.chart.checking = some a → chartCheck (chartCx s true) (readImage s a) = 0 →
    firstBoundary s ≤ amendBoundary s (imgChart (readImage s a)) → amendBoundary s (imgChart (readImage s a)) < 2 ^ 48 →
    ∃ t, exec .amendCheckDone s = .next t ∧ getF t CHART_STAT.AMEND = 2 ∧ t.chart.staged = some (imgChart (readImage s a)) ∧ t.chart.checking = none ∧
      getF t CHART_EFFECT.TIDE = amendBoundary s (imgChart (readImage s a)) ∧ theChart t = theChart s ∧ t.mem = s.mem) ∧
  (∀ (s : State) (a : Addr) (r : Nat), s.chart.checking = some a → chartCheck (chartCx s true) (readImage s a) = r → r ≠ 0 →
    ∃ t, exec .amendCheckDone s = .next t ∧ getF t CHART_STAT.AMEND = 5 ∧ getF t CHART_STAT.REASON = r % 2 ^ 8 ∧ getF t CHART_EVT.AMENDREJ = 1 ∧
      t.chart.staged = none ∧ theChart t = theChart s ∧ t.mem = s.mem) ∧
  (∀ s : State, getF s CHART_STAT.AMEND = 2 → firstBoundary s ≤ getF s CHART_EFFECT.TIDE →
    ∃ t, exec .chartAmendCancel s = .next t ∧ getF t CHART_STAT.AMEND = 5 ∧ getF t CHART_STAT.REASON = 0x0F ∧ getF t TIDE_PERIOD.NEXT = 0 ∧
      t.chart.staged = none ∧ theChart t = theChart s ∧ Safety.Logged .amendCancelled s t ∧ t.mem = s.mem) ∧
  (∀ (s : State) (c : Chart), s.chart.staged = some c → c.sections.any (fun e => isClassD e.1) = true →
    getF s CHART_EFFECT.TIDE + 1024 ≤ getF s TIDE_COUNT.COUNT →
    ∃ t, exec .amendDrainTimeout s = .next t ∧ getF t CHART_STAT.AMEND = 5 ∧ getF t CHART_STAT.REASON = 0x0E ∧ getF t CHART_EVT.AMENDREJ = 1 ∧
      t.chart.staged = none ∧ theChart t = theChart s ∧ Safety.Logged .amendDrained s t ∧ t.mem = s.mem)

/-- CHART_FLASH_GO, CHART_FLASH_CHECK_DONE, CHART_FLASH_WRITE_DONE. -/
def Obligations.ChartFlash : Prop :=
  (∀ (s : State) (addr : Addr), getF s CHART_STAT.FLASH ≠ 1 →
    ∃ t, exec (.chartFlashGo addr) s = .next t ∧ getF t CHART_STAT.FLASH = 1 ∧ t.chart.flashAddr = some addr ∧ t.chart.slotA = s.chart.slotA ∧
      t.chart.slotB = s.chart.slotB ∧ theChart t = theChart s ∧ t.mem = s.mem) ∧
  (∀ (s : State) (addr : Addr), getF s CHART_STAT.FLASH = 1 →
    ∃ t, exec (.chartFlashGo addr) s = .next t ∧ getF t CHART_STAT.FLASH = 1 ∧ t.chart = s.chart ∧ getF t CHART_STAT.FREASON = 0x0D ∧
      Safety.Logged .chartFlashRefused s t) ∧
  (∀ (s : State) (a : Addr) (r : Nat), s.chart.flashAddr = some a → chartCheck (chartCx s false) (readImage s a) = r →
    ∃ t, exec .chartFlashCheckDone s = .next t ∧ t.chart.flashAddr = none ∧ t.chart.slotA = s.chart.slotA ∧ t.chart.slotB = s.chart.slotB ∧
      (r = 0 → t.chart.flashImage = some ((readImage s a).take (imgLength (readImage s a))) ∧ t.regs = s.regs) ∧
      (r ≠ 0 → getF t CHART_STAT.FLASH = 3 ∧ getF t CHART_STAT.FREASON = r % 2 ^ 8 ∧ getF t CHART_EVT.FLASHFAIL = 1 ∧ t.chart.flashImage = s.chart.flashImage)) ∧
  (∀ (s : State) (ok b : Bool) (img : List Byte), s.chart.flashImage = some img → s.chart.loadedB = some b →
    ∃ t, exec (.chartFlashWriteDone ok) s = .next t ∧ t.chart.flashImage = none ∧ getF t CHART_STAT.FLASH = (if ok then 2 else 3) ∧
      (if b then t.chart.slotB else t.chart.slotA) = (if b then s.chart.slotB else s.chart.slotA) ∧
      (ok = true → (if b then t.chart.slotA else t.chart.slotB) = img) ∧ t.mem = s.mem)

/-- NOP, MX_CTL.RESUME, STREAM_WRAP. -/
def Obligations.NopsResumesAndStreamWraps : Prop :=
  (∀ (s : State) (u : Fin 512) (d : Desc), headItem s u .mx = some d → dOpcode d = 0 → waitMet s u d = true →
    ∃ t, exec (.nop u) s = .next t ∧ (getTile t u).mx = { (getTile s u).mx with queue := (getTile s u).mx.queue.drop 1 } ∧
      (∀ b, (getTile t u).bank b = (getTile s u).bank b) ∧ getF t MX_ITEMS.COUNT u = (getF s MX_ITEMS.COUNT u + 1) % 2 ^ 64 ∧
      getF t TILE_SYNC.VALUE u (dSigctr d) = (if dSigv d then min (getF s TILE_SYNC.VALUE u (dSigctr d) + 1) 0xFFFF else getF s TILE_SYNC.VALUE u (dSigctr d)) ∧
      getF t MX_MACS.COUNT u = getF s MX_MACS.COUNT u ∧ (traceOn s = false → t.mem = s.mem)) ∧
  (∀ (s : State) (u : Fin 512) (d : Desc), (getTile s u).mx.halted = some d →
    ∃ t, exec (.mxCtlResume u) s = .next t ∧ (getTile t u).mx = { (getTile s u).mx with halted := none } ∧
      (∀ b, (getTile t u).bank b = (getTile s u).bank b) ∧ (getTile t u).bufs = (getTile s u).bufs ∧
      getF t MX_ITEMS.COUNT u = (getF s MX_ITEMS.COUNT u + 1) % 2 ^ 64 ∧
      getF t TILE_SYNC.VALUE u (dSigctr d) = (if dSigv d then min (getF s TILE_SYNC.VALUE u (dSigctr d) + 1) 0xFFFF else getF s TILE_SYNC.VALUE u (dSigctr d)) ∧
      (traceOn s = false → t.mem = s.mem)) ∧
  (∀ (s : State) (u : Fin 512) (n : Fin 8), 2 ^ 27 ≤ (tileStream s u n).block →
    ∃ t, exec (.streamWrap u n) s = .next t ∧ (tileStream t u n).block = (tileStream s u n).block - 2 ^ 27 ∧ Safety.Logged .streamWrap s t ∧
      t.regs = s.regs ∧ t.mem = s.mem)

/-- MMA, LONG_SUM_FOLD, MMA_COMPLETE. -/
def Obligations.MatrixEngine : Prop :=
  (∀ (s : State) (u : Fin 512) (d : Desc), headItem s u .mx = some d → dOpcode d = 0x10 → waitMet s u d = true → (theChart s).role u ≠ 2 →
    bankReady (getTile s u) d = true → mxFaultCode d ((getTile s u).bank (dBank d)) = 0 →
    ∃ t r, exec (.mma u) s = .next t ∧ r.desc = d ∧ r.group = 0 ∧
      (getTile t u).mx = { queue := (getTile s u).mx.queue.drop 1, run := (getTile s u).mx.run ++ [r], halted := (getTile s u).mx.halted } ∧
      ((getTile t u).bank (dBank d)).st = .filling ∧ getF t MX_STAT.ITEM u = dItem d ∧
      (mInit d = 0 → (getTile t u).bank (dBank d) = { st := .filling, kind := some (mInt d), groups := 0, s := [], e := [] }) ∧
      getF t MX_ITEMS.COUNT u = getF s MX_ITEMS.COUNT u ∧ (traceOn s = false → t.mem = s.mem)) ∧
  (∀ (s : State) (u : Fin 512) (d : Desc), headItem s u .mx = some d → dOpcode d = 0x10 → waitMet s u d = true → (theChart s).role u = 2 →
    ∃ t, exec (.mma u) s = .next t ∧ (getTile t u).mx = { (getTile s u).mx with queue := (getTile s u).mx.queue.drop 1 } ∧
      (∀ b, (getTile t u).bank b = (getTile s u).bank b) ∧ getF t CHART_EVT.ROLEVIOL = 1 ∧ Safety.Logged .roleViolation s t ∧ t.mem = s.mem) ∧
  (∀ (s : State) (u : Fin 512) (d : Desc) (c : Nat), headItem s u .mx = some d → dOpcode d = 0x10 → waitMet s u d = true → (theChart s).role u ≠ 2 →
    bankReady (getTile s u) d = true → mxFaultCode d ((getTile s u).bank (dBank d)) = c → 0 < c →
    ∃ t, exec (.mma u) s = .next t ∧ (getTile t u).mx = { (getTile s u).mx with queue := (getTile s u).mx.queue.drop 1, halted := some d } ∧
      (∀ b, (getTile t u).bank b = (getTile s u).bank b) ∧ getF t MX_FAULT.CODE u = c ∧ getF t MX_FAULT.OPCODE u = dOpcode d ∧
      getF t MX_FAULT.ITEM u = dItem d ∧ Safety.Logged .mxFault s t) ∧
  (∀ (s : State) (u : Fin 512) (b : Fin 2) (r : RunItem) (k : Nat), tileRuns s u = true → (runsOn (getTile s u) b).head? = some r →
    foldDue ((getTile s u).bank b) r = some k →
    ∃ t, exec (.longSumFold u b) s = .next t ∧ ((getTile t u).bank b).groups = 0 ∧ ((getTile t u).bank b).st = ((getTile s u).bank b).st ∧
      (runsOn (getTile t u) b).head?.map (fun x => (x.desc, x.group)) = some (r.desc, r.group + k) ∧
      (mInt r.desc = false → ((getTile t u).bank b).e = []) ∧ (mInt r.desc = true → (getTile t u).streams = (getTile s u).streams) ∧
      (getTile t u).mx.queue = (getTile s u).mx.queue ∧ t.mem = s.mem) ∧
  (∀ (s : State) (u : Fin 512) (r : RunItem) (rest : List RunItem), tileRuns s u = true → (getTile s u).mx.run = r :: rest →
    foldDue ((getTile s u).bank (dBank r.desc)) r = none →
    ∃ t, exec (.mmaComplete u) s = .next t ∧ (getTile t u).mx = { (getTile s u).mx with run := rest } ∧
      ((getTile t u).bank (dBank r.desc)).st =
        (if rest.any (fun x => dBank x.desc = dBank r.desc) then .filling else if mRelease r.desc then .full else .held) ∧
      getF t MX_MACS.COUNT u = (getF s MX_MACS.COUNT u + mK r.desc * mMrows r.desc * mNcols r.desc) % 2 ^ 64 ∧
      getF t MX_ITEMS.COUNT u = (getF s MX_ITEMS.COUNT u + 1) % 2 ^ 64 ∧
      getF t TILE_SYNC.VALUE u (dSigctr r.desc) =
        (if dSigv r.desc then min (getF s TILE_SYNC.VALUE u (dSigctr r.desc) + 1) 0xFFFF else getF s TILE_SYNC.VALUE u (dSigctr r.desc)) ∧
      (traceOn s = false → t.mem = s.mem))

/-- COMPLETION_REPORT, VERDICT, REPEAT_PLAN_FETCHED, VERDICT_DELIVERY. -/
def Obligations.PassesAndVerdicts : Prop :=
  (∀ (s : State) (u : Fin 512) (r : Report) (x : PassSt), s.num.reports.find? (fun r => decide (r.unit = u.val)) = some r →
    passOf s r.part r.layer = some x → r.pass = some x.id → x.ended = false →
    ∃ t, exec (.completionReport u) s = .next t ∧ t.num.reports = dropFirst (fun x => decide (x.unit = u.val)) s.num.reports ∧
      (∃ y, passOf t r.part r.layer = some y ∧ y.id = x.id ∧ y.count = x.count + 1 ∧ y.flags = x.flags ||| r.flags ∧
        y.nonfinite = (x.nonfinite || r.nonfinite) ∧ y.rows = dedup (x.rows ++ r.rows) ∧ y.ended = decide (x.count + 1 = x.items)) ∧ t.regs = s.regs ∧ t.mem = s.mem) ∧
  (∀ (s : State) (u : Fin 512) (r : Report), s.num.reports.find? (fun r => decide (r.unit = u.val)) = some r → passOf s r.part r.layer = none → r.flags ≠ 0 →
    ∃ t, exec (.completionReport u) s = .next t ∧ getF t NUM_EVT.LATEFLAG = 1 ∧ t.num.passes = s.num.passes ∧ t.mem = s.mem) ∧
  (∀ (s : State) (p : Fin 64) (l : BitVec 16) (x : PassSt), passOf s p l.toNat = some x → x.ended = true → x.decided = false → x.repeating = false → x.clean = true →
    ∃ t, exec (.verdict p l) s = .next t ∧ passOf t p l.toNat = some { x with decided := true } ∧
      (∀ u ∈ tilesOf s p, (getTile t u).verdicts = (getTile s u).verdicts ++ [{ layer := l.toNat, pass := x.id, clean := true, gate := x.gate }]) ∧
      (x.top = true → x.rows ≠ [] → getF t NUM_COUNT.ROWS = min (getF s NUM_COUNT.ROWS + x.rows.length) (2 ^ 32 - 1) ∧ getF t NUM_EVT.ROWDROP = 1 ∧
        Safety.Logged .rowDrop s t) ∧
      (x.rows = [] → t.regs = s.regs ∧ t.log = s.log) ∧ t.mem = s.mem) ∧
  (∀ (s : State) (p : Fin 64) (l : BitVec 16) (x : PassSt), passOf s p l.toNat = some x → x.ended = true → x.decided = false → x.repeating = false → x.clean = false →
    ∃ t, exec (.verdict p l) s = .next t ∧ passOf t p l.toNat = some { x with decided := true, repeating := true } ∧
      getF t NUM_COUNT.REPEATS = min (getF s NUM_COUNT.REPEATS + 1) (2 ^ 32 - 1) ∧ getF t NUM_EVT.REPEAT = 1 ∧ Safety.Logged .layerRepeat s t ∧
      (x.dir = true → p.val ∈ t.num.marked) ∧
      (∀ u ∈ tilesOf s p, (getTile t u).verdicts = (getTile s u).verdicts ++ [{ layer := l.toNat, pass := x.id, clean := false, gate := x.gate }]) ∧ t.mem = s.mem) ∧
  (∀ (s : State) (p : Fin 64) (l : BitVec 16) (x : PassSt), passOf s p l.toNat = some x → x.repeating = true → x.fetched = false →
    ∃ t, exec (.repeatPlanFetched p l) s = .next t ∧ t.mem = s.mem ∧
      (planOk s p x.nextRep true = true → passOf t p l.toNat = some { x with fetched := true } ∧ t.regs = s.regs ∧ t.log = s.log) ∧
      (planOk s p x.nextRep true = false → passOf t p l.toNat = some { x with decided := false, fetched := true } ∧ getF t NUM_EVT.REPFAULT = 1 ∧
        Safety.Logged .repeatFault s t ∧ t.tiles = s.tiles)) ∧
  (∀ (s : State) (u : Fin 512) (v : Delivery) (vs : List Delivery), (getTile s u).verdicts = v :: vs →
    ∃ t, exec (.verdictDelivery u) s = .next t ∧ (getTile t u).verdicts = vs ∧ (getTile t u).heldBins = (getTile s u).heldBins.filter (fun h => decide (h.1 ≠ v.pass)) ∧
      (v.clean = true → getF t TILE_SYNC.VALUE u v.gate = min (getF s TILE_SYNC.VALUE u v.gate + 1) 0xFFFF) ∧
      (v.clean = false → t.regs = s.regs) ∧ t.mem = s.mem)

/-- WATCH_RECOMPUTE_START, WATCH_RECOMPUTE_END, WATCH_ABANDON. -/
def Obligations.NumericsWatch : Prop :=
  (∀ (s : State) (u : Fin 512) (x : Sample) (xs : List Sample), tileRuns s u = true → vxIdle s u = true → (getTile s u).samples = x :: xs →
    (getTile s u).samples.any (fun y => y.running) = false →
    ∃ t, exec (.watchRecomputeStart u) s = .next t ∧ (getTile t u).samples = { x with running := true } :: xs ∧ t.regs = s.regs ∧ t.mem = s.mem) ∧
  (∀ (s : State) (u : Fin 512) (x : Sample), tileRuns s u = true → (getTile s u).samples.find? (fun y => y.running) = some x →
    ∃ t, exec (.watchRecomputeEnd u) s = .next t ∧ (getTile t u).samples = (getTile s u).samples.filter (fun y => !y.running) ∧ (getTile t u).defer = false ∧
      (x.pass = none → getF t NUM_WATCH_CNT.SAMPLES = min (getF s NUM_WATCH_CNT.SAMPLES + 1) (2 ^ 32 - 1) ∧
        Cells.get [] t.num.bins (layerKey x.part (dLayer x.desc)) =
          Cells.get [] s.num.bins (layerKey x.part (dLayer x.desc)) ++ [sampleBin (getTile s u) x]) ∧
      (∀ id, x.pass = some id → t.regs = s.regs ∧ (id, dLayer x.desc, sampleBin (getTile s u) x) ∈ (getTile t u).heldBins) ∧ t.mem = s.mem) ∧
  (∀ (s : State) (u : Fin 512), tileRuns s u = true → (getTile s u).samples ≠ [] →
    ∃ t, exec (.watchAbandon u) s = .next t ∧ (getTile t u).samples = (getTile s u).samples.drop 1 ∧ (getTile t u).defer = false ∧
      getF t NUM_WATCH_CNT.ABANDONED = min (getF s NUM_WATCH_CNT.ABANDONED + 1) (2 ^ 32 - 1) ∧ getF t NUM_EVT.WATCHSKIP = 1 ∧ t.mem = s.mem)

/-- ADD to CSUM. -/
def Obligations.ElementItems : Prop :=
  ∀ c ∈ ([(.add, 0x40), (.sub, 0x41), (.mul, 0x42), (.fma, 0x43), (.max, 0x44), (.min, 0x45), (.abs, 0x46), (.neg, 0x47), (.selgt, 0x48), (.cvt, 0x49),
      (.exp2, 0x50), (.log2, 0x51), (.recip, 0x52), (.rsqrt, 0x53), (.sqrt, 0x54), (.tanh, 0x55), (.rsum, 0x58), (.rmax, 0x59), (.csum, 0x5A)] :
      List ((Fin 512 → Instr) × Nat)),
  ∀ (s : State) (u : Fin 512) (d : Desc), headItem s u .vx = some d → dOpcode d = c.2 → waitMet s u d = true → vecBankReady (getTile s u) d = true →
    vxFaultCode d (fun b => (getTile s u).bank b) = 0 →
    ∃ t r, exec (c.1 u) s = .next t ∧ r.desc = d ∧ (getTile t u).vx.queue = (getTile s u).vx.queue.drop 1 ∧ (getTile t u).vx.run = (getTile s u).vx.run ++ [r] ∧
      (copyReadsBufs (getTile s u) = false →
        (getTile t u).bufs = writeElems (getTile s u).bufs (vDst d) (dDfmt d) (elemWrites (Config.freeValue s.free) (getTile s u) (startRec s u d))) ∧
      getF t VX_STAT.ITEM u = dItem d ∧ getF t VX_BUSYCYC.COUNT u = (getF s VX_BUSYCYC.COUNT u + issueInterval d) % 2 ^ 64 ∧
      getReg t .VX_FLAGS u 0 = (getReg s .VX_FLAGS u 0 ||| BitVec.ofNat 64 (r.flags * if dCc d then 16 else 1)) &&& 0xFF#64 ∧
      (getTile t u).dma = (getTile s u).dma ∧ (∀ b, (getTile t u).bank b = (getTile s u).bank b) ∧
      (copyReadsBufs (getTile s u) = false → (getTile t u).mx = (getTile s u).mx ∧ (getTile t u).op = (getTile s u).op ∧ (traceOn s = false → t.mem = s.mem))

/-- The exact results behind the vector opcodes. -/
def Obligations.ElementResults : Prop :=
  (∀ (k : Int) (a b c : FV), elemExact 0x41 k a b c = elemExact 0x40 k a b.neg c ∧ elemExact 0x49 k a b c = (a.scale k, 0) ∧
    (elemExact 0x46 k a b c).1.sign = false ∧ elemExact 0x47 k (elemExact 0x47 k a b c).1 b c = (a, 0)) ∧
  (∀ (k : Int) (a c : FV), elemExact 0x44 k .nan a c = (.nan, 0) ∧ elemExact 0x44 k a .nan c = (.nan, 0) ∧ elemExact 0x45 k .nan a c = (.nan, 0) ∧
    elemExact 0x45 k a .nan c = (.nan, 0) ∧ elemExact 0x48 k .nan a c = (FV.zero, 0) ∧ elemExact 0x48 k a .nan c = (FV.zero, 0) ∧
    elemExact 0x48 k a a c = (FV.zero, 0)) ∧
  (∀ (k : Int) (e f : Int) (c : FV), (elemExact 0x44 k (.fin true 0 e) (.fin false 0 f) c).1.sign = false ∧
    (elemExact 0x44 k (.fin false 0 f) (.fin true 0 e) c).1.sign = false ∧ (elemExact 0x45 k (.fin true 0 e) (.fin false 0 f) c).1.sign = true ∧
    (elemExact 0x45 k (.fin false 0 f) (.fin true 0 e) c).1.sign = true ∧ elemExact 0x48 k (.fin false 0 f) (.fin true 0 e) c = (FV.zero, 0)) ∧
  (∀ o, 0x50 ≤ o → o ≤ 0x55 → transcSpecial o .nan = some .nan) ∧
  (∀ n, transcSpecial 0x50 (.inf n) = some (if n then FV.zero else .inf false) ∧ transcSpecial 0x51 (.inf n) = some (if n then .nan else .inf false) ∧
    transcSpecial 0x52 (.inf n) = some (.fin n 0 0) ∧ transcSpecial 0x53 (.inf n) = some (if n then .nan else FV.zero) ∧
    transcSpecial 0x54 (.inf n) = some (if n then .nan else .inf false) ∧ transcSpecial 0x55 (.inf n) = some (.fin n 1 0)) ∧
  (∀ n e, transcSpecial 0x50 (.fin n 0 e) = some FV.one ∧ transcSpecial 0x51 (.fin n 0 e) = some (.inf true) ∧ transcSpecial 0x52 (.fin n 0 e) = some (.inf n) ∧
    transcSpecial 0x53 (.fin n 0 e) = some (.inf n) ∧ (∃ z, transcSpecial 0x54 (.fin n 0 e) = some z ∧ z.isZero = true ∧ z.sign = n) ∧
    (∃ z, transcSpecial 0x55 (.fin n 0 e) = some z ∧ z.isZero = true ∧ z.sign = n)) ∧
  (∀ m e, m ≠ 0 → transcSpecial 0x51 (.fin true m e) = some .nan ∧ transcSpecial 0x53 (.fin true m e) = some .nan ∧ transcSpecial 0x54 (.fin true m e) = some .nan)

/-- OUT, SPILL, FREE, WIN, VX_ITEM_COMPLETE, VX_CTL.RESUME. -/
def Obligations.VectorWriteOutAndCompletion : Prop :=
  (∀ c ∈ ([(.out, 0x60, fun s u d => writeElems (getTile s u).bufs (vDst d) (dDfmt d) (outWrites (Config.freeValue s.free) s u d)),
      (.spill, 0x61, fun s u d => putBytes (getTile s u).bufs [(0x1000 * vDst d, spillImage (spilled (getTile s u) d))]),
      (.free, 0x62, fun s u _ => (getTile s u).bufs),
      (.win, 0x70, fun s u d => writeElems (getTile s u).bufs (wDst d) (dDfmt d) (winWrites (Config.freeValue s.free) (getTile s u) d))] :
      List ((Fin 512 → Instr) × Nat × (State → Nat → Desc → FMap Byte))),
    ∀ (s : State) (u : Fin 512) (d : Desc), headItem s u .vx = some d → dOpcode d = c.2.1 → waitMet s u d = true → vecBankReady (getTile s u) d = true →
    vxFaultCode d (fun b => (getTile s u).bank b) = 0 →
    ∃ t r, exec (c.1 u) s = .next t ∧ r.desc = d ∧ (getTile t u).vx.queue = (getTile s u).vx.queue.drop 1 ∧ (getTile t u).vx.run = (getTile s u).vx.run ++ [r] ∧
      getF t VX_STAT.ITEM u = dItem d ∧ getF t VX_BUSYCYC.COUNT u = (getF s VX_BUSYCYC.COUNT u + issueInterval d) % 2 ^ 64 ∧
      (getTile t u).dma = (getTile s u).dma ∧ (∀ b, (getTile t u).bank b = (getTile s u).bank b) ∧
      (copyReadsBufs (getTile s u) = false → (getTile t u).bufs = c.2.2 s u d ∧ (getTile t u).mx = (getTile s u).mx ∧ (getTile t u).op = (getTile s u).op ∧
        (c.2.1 ≠ 0x60 → traceOn s = false → t.mem = s.mem))) ∧
  (∀ b : Bank, (spillImage b).length = 8192 ∧ ∀ n, n < 1024 → slice (spillImage b) (4 * n) 4 = natLe (Cells.get 0 b.s n) 4 ∧
    slice (spillImage b) (4096 + 4 * n) 4 = natLe (if b.kind = some true then 0 else Cells.get 0 b.e n) 4) ∧
  (∀ c ∈ ([.add, .sub, .mul, .fma, .max, .min, .abs, .neg, .selgt, .cvt, .exp2, .log2, .recip, .rsqrt, .sqrt, .tanh, .rsum, .rmax, .csum, .out, .spill, .free, .win] :
      List (Fin 512 → Instr)),
    ∀ (s : State) (u : Fin 512) (d : Desc), headItem s u .vx = some d → isVecOp (dOpcode d) = false → waitMet s u d = true →
    ∃ t, exec (c u) s = .next t ∧ (getTile t u).vx = { (getTile s u).vx with queue := (getTile s u).vx.queue.drop 1, halted := some d } ∧
      getF t VX_FAULT.CODE u = 1 ∧ getF t VX_FAULT.OPCODE u = dOpcode d ∧ getF t VX_FAULT.ITEM u = dItem d ∧ Safety.Logged .vxFault s t ∧
      (getTile t u).bufs = (getTile s u).bufs ∧ (∀ b, (getTile t u).bank b = (getTile s u).bank b)) ∧
  (∀ (s : State) (u : Fin 512) (r : RunItem) (rest : List RunItem), tileRuns s u = true → (getTile s u).vx.run = r :: rest →
    ∃ t, exec (.vxItemComplete u) s = .next t ∧ (getTile t u).vx = { (getTile s u).vx with run := rest } ∧
      getF t VX_ITEMS.COUNT u = (getF s VX_ITEMS.COUNT u + 1) % 2 ^ 64 ∧ (∀ b, freesBank r.desc = some b → ((getTile s u).bank b).st = .full → ((getTile t u).bank b).st = .free) ∧
      (∀ b, freesBank r.desc = some b → ((getTile s u).bank b).st ≠ .full → (getTile t u).bank b = (getTile s u).bank b) ∧
      (freesBank r.desc = none → ∀ b, (getTile t u).bank b = (getTile s u).bank b) ∧
      getF t TILE_SYNC.VALUE u (dSigctr r.desc) =
        (if dSigv r.desc then min (getF s TILE_SYNC.VALUE u (dSigctr r.desc) + 1) 0xFFFF else getF s TILE_SYNC.VALUE u (dSigctr r.desc)) ∧
      (getTile t u).bufs = (getTile s u).bufs ∧ (traceOn s = false → t.mem = s.mem)) ∧
  (∀ (s : State) (u : Fin 512) (d : Desc), (getTile s u).vx.halted = some d →
    ∃ t, exec (.vxCtlResume u) s = .next t ∧ (getTile t u).vx = { (getTile s u).vx with halted := none } ∧
      getF t VX_ITEMS.COUNT u = (getF s VX_ITEMS.COUNT u + 1) % 2 ^ 64 ∧
      (∀ b, freesBank d = some b → ((getTile s u).bank b).st = .full → ((getTile t u).bank b).st = .free) ∧
      (∀ b, freesBank d = some b → ((getTile s u).bank b).st ≠ .full → (getTile t u).bank b = (getTile s u).bank b) ∧
      getF t TILE_SYNC.VALUE u (dSigctr d) = (if dSigv d then min (getF s TILE_SYNC.VALUE u (dSigctr d) + 1) 0xFFFF else getF s TILE_SYNC.VALUE u (dSigctr d)) ∧
      (getTile t u).bufs = (getTile s u).bufs ∧ (traceOn s = false → t.mem = s.mem))

/-- COPY, LOWER_MATRIX_ROWS, LOWER_WINDOW_LINE, DMA_ITEM_COMPLETE, VX_DMA_CTL.RESUME. -/
def Obligations.TileDma : Prop :=
  (∀ c ∈ ([(.copy, fun d => decide (dOpcode d = 0x80), fun d pick s u => copyJob pick s u d),
      (.lowerMatrixRows, fun d => decide (dOpcode d = 0x88) && decide (lMode d = 0), fun d pick s u => lowerRowsJob pick s u d),
      (.lowerWindowLine, fun d => decide (dOpcode d = 0x88) && decide (lMode d = 1), fun d pick s u => lowerLineJob pick s u d)] :
      List ((Fin 512 → Instr) × (Desc → Bool) × (Desc → (Nat → Nat) → State → Nat → DmaJob))),
    ∀ (s : State) (u : Fin 512) (d : Desc) (j : DmaJob), headItem s u .dma = some d → c.2.1 d = true → (getTile s u).dma.run = [] → waitMet s u d = true →
    flipWaits s u d = false → dmaFaultCode u d = 0 → fetchMissing s (.unit u) (dmaPieces d) = [] → fetchDue s (.unit u) = false →
    c.2.2 d (fetchPick s (.unit u) (Config.freeValue s.free)) s u = j → j.stall = none → j.fault = none → watchHolds (getTile s u) j = false →
    ∃ t r, exec (c.1 u) s = .next t ∧ r.desc = d ∧ (getTile t u).dma = { (getTile s u).dma with queue := (getTile s u).dma.queue.drop 1, run := [r] } ∧
      getF t VX_DMA_STAT.ITEM u = dItem d ∧ getF t VX_DMA_BYTES.COUNT u = (getF s VX_DMA_BYTES.COUNT u + j.bytes) % 2 ^ 64 ∧
      (j.space = 1 → (getTile t u).op = putBytes (getTile s u).op j.rows ∧ (getTile t u).bufs = (getTile s u).bufs) ∧
      (j.space = 2 → (getTile t u).bufs = putBytes (blurVector (Config.freeValue s.free) j.rows (getTile s u)).bufs j.rows ∧ (getTile t u).op = (getTile s u).op) ∧
      (j.space ≠ 1 → j.space ≠ 2 → (getTile t u).op = (getTile s u).op ∧ (getTile t u).bufs = (getTile s u).bufs) ∧
      (j.space = 1 ∨ j.space = 2 → traceOn s = false → t.mem = s.mem) ∧
      (∀ b, (getTile t u).bank b = (getTile s u).bank b) ∧ (getTile t u).vx = (getTile s u).vx) ∧
  (∀ c ∈ ([(.copy, fun d => decide (dOpcode d = 0x80)), (.lowerMatrixRows, fun d => decide (dOpcode d = 0x88) && decide (lMode d = 0)),
      (.lowerWindowLine, fun d => decide (dOpcode d = 0x88) && decide (lMode d = 1))] : List ((Fin 512 → Instr) × (Desc → Bool))),
    ∀ (s : State) (u : Fin 512) (d : Desc), headItem s u .dma = some d → (c.2 d = true ∨ (dOpcode d ≠ 0x80 ∧ dOpcode d ≠ 0x88)) → (getTile s u).dma.run = [] →
    waitMet s u d = true → flipWaits s u d = false → dmaFaultCode u d ≠ 0 →
    ∃ t, exec (c.1 u) s = .next t ∧ (getTile t u).dma = { (getTile s u).dma with queue := (getTile s u).dma.queue.drop 1, halted := some d } ∧
      getF t VX_DMA_FAULT.CODE u = dmaFaultCode u d ∧ getF t VX_DMA_FAULT.OPCODE u = dOpcode d ∧ getF t VX_DMA_FAULT.ITEM u = dItem d ∧
      Safety.Logged .dmaFault s t ∧ (getTile t u).bufs = (getTile s u).bufs ∧ (getTile t u).op = (getTile s u).op ∧ (traceOn s = false → t.mem = s.mem)) ∧
  (∀ (s : State) (u : Fin 512) (r : RunItem) (rest : List RunItem), tileRuns s u = true → (getTile s u).dma.run = r :: rest → putsOpen s u = false →
    ∃ t, exec (.dmaItemComplete u) s = .next t ∧ (getTile t u).dma = { (getTile s u).dma with run := rest } ∧
      getF t TILE_SYNC.VALUE u (dSigctr r.desc) =
        (if dSigv r.desc then min (getF s TILE_SYNC.VALUE u (dSigctr r.desc) + 1) 0xFFFF else getF s TILE_SYNC.VALUE u (dSigctr r.desc)) ∧
      (getTile t u).bufs = (getTile s u).bufs ∧ (getTile t u).op = (getTile s u).op ∧ (traceOn s = false → t.mem = s.mem)) ∧
  (∀ (s : State) (u : Fin 512) (d : Desc), (getTile s u).dma.halted = some d →
    ∃ t, exec (.vxDmaCtlResume u) s = .next t ∧ (getTile t u).dma = { (getTile s u).dma with halted := none } ∧
      getF t TILE_SYNC.VALUE u (dSigctr d) = (if dSigv d then min (getF s TILE_SYNC.VALUE u (dSigctr d) + 1) 0xFFFF else getF s TILE_SYNC.VALUE u (dSigctr d)) ∧
      (getTile t u).bufs = (getTile s u).bufs ∧ (getTile t u).op = (getTile s u).op ∧ (traceOn s = false → t.mem = s.mem))

/-- UPD, WCOPY. -/
def Obligations.UpdateItems : Prop :=
  (∀ (s s1 : State) (i : UpdItem) (e : Group), s.upd.run = none → updHead s = some i → dOpcode i.desc = 0xC0 → updFaultCode s i = 0 →
    (groupEnt s (uGroup i.desc)).frozen = false → updWaitsPend s i = false → s1 = run (pendStart i) (run (updBegin i) s) → e = groupEnt s1 (uGroup i.desc) →
    rangesStop s1 false (updReads s1 i.desc e) = (none, none) → fetchClear s1 (.unit 512) (rangePieces (updReads s1 i.desc e)) = true →
    rangesStop s1 true (Safety.updTargets s1 i.desc e) = (none, none) →
    ∃ t, exec .upd s = .next t ∧ t.upd.run = some i ∧ t.upd.queue = s.upd.queue.drop 1 ∧ getF t UPD_STAT.ITEM = dItem i.desc ∧ getF t UPD_PSET.VALID = 1 ∧
      getF t UPD_PSET.SET = (if getF s UPD_PSET.VALID = 1 then getF s UPD_PSET.SET else i.set.toNat) ∧
      bitOf (getF t UPD_PEND.PEND (uGroup i.desc / 64)) (uGroup i.desc % 64) = true ∧
      getF t UPD_ELEMS.COUNT = (getF s UPD_ELEMS.COUNT + uN i.desc) % 2 ^ 64 ∧ (∀ g, groupLive t g = groupLive s g)) ∧
  (∀ (s : State) (i : UpdItem), s.upd.run = none → updHead s = some i → dOpcode i.desc = 0xC0 → updFaultCode s i = 0 →
    (groupEnt s (uGroup i.desc)).frozen = true →
    ∃ t, exec .upd s = .next t ∧ t.upd.run = some i ∧ t.upd.queue = s.upd.queue.drop 1 ∧ getF t UPD_COUNT.FROZEN = min (getF s UPD_COUNT.FROZEN + 1) (2 ^ 32 - 1) ∧
      getF t UPD_EVT.FROZEN = 1 ∧ Safety.Logged .updFrozen s t ∧ (∀ k, getF t UPD_PEND.PEND k = getF s UPD_PEND.PEND k) ∧ (traceOn s = false → t.mem = s.mem)) ∧
  (∀ (s s1 : State) (i : UpdItem), s.upd.run = none → updHead s = some i → dOpcode i.desc = 0xC1 → updFaultCode s i = 0 → copyWaitsFlip s i = false →
    s1 = run (updBegin i) s → rangesStop s1 false (wcopyReads s1 i.desc) = (none, none) → fetchClear s1 (.unit 512) (rangePieces (wcopyReads s1 i.desc)) = true →
    rangesStop s1 true [(uGaddr i.desc, (fmtWidth (dDfmt i.desc) * uN i.desc + 7) / 8)] = (none, none) →
    ∃ t, exec .wcopy s = .next t ∧ t.upd.run = some i ∧ t.upd.queue = s.upd.queue.drop 1 ∧ getF t UPD_STAT.ITEM = dItem i.desc ∧
      getF t UPD_PSET.VALID = getF s UPD_PSET.VALID ∧ (∀ k, getF t UPD_PEND.PEND k = getF s UPD_PEND.PEND k) ∧ (∀ g, groupLive t g = groupLive s g)) ∧
  (∀ (s : State) (i : UpdItem), s.upd.run = none → updHead s = some i → updFaultCode s i ≠ 0 →
    (dOpcode i.desc = 0 → ∃ t, exec .updNop s = .next t ∧ t.upd.halted = some i ∧ t.upd.queue = s.upd.queue.drop 1 ∧
      getF t UPD_FAULT.CODE = 7 ∧ getF t UPD_FAULT.OPCODE = 0 ∧ getF t UPD_FAULT.ITEM = dItem i.desc ∧ Safety.Logged .updFault s t ∧ (traceOn s = false → t.mem = s.mem)) ∧
    (dOpcode i.desc ≠ 0 → dOpcode i.desc ≠ 0xC1 → ∃ t, exec .upd s = .next t ∧ t.upd.halted = some i ∧ t.upd.queue = s.upd.queue.drop 1 ∧
      getF t UPD_FAULT.CODE = updFaultCode s i ∧ getF t UPD_FAULT.OPCODE = dOpcode i.desc ∧ getF t UPD_FAULT.ITEM = dItem i.desc ∧
      Safety.Logged .updFault s t ∧ (traceOn s = false → t.mem = s.mem)) ∧
    (dOpcode i.desc = 0xC1 → ∃ t, exec .wcopy s = .next t ∧ t.upd.halted = some i ∧ t.upd.queue = s.upd.queue.drop 1 ∧
      getF t UPD_FAULT.CODE = updFaultCode s i ∧ getF t UPD_FAULT.OPCODE = 0xC1 ∧ getF t UPD_FAULT.ITEM = dItem i.desc ∧
      Safety.Logged .updFault s t ∧ (traceOn s = false → t.mem = s.mem)))

/-- UPD_NOP, UPD_ITEM_COMPLETE, UPD_CTL.DISCARD, UPD_CTL.RESUME, UPD_LIVE write, SCH_CTL.RECALC. -/
def Obligations.UpdateControl : Prop :=
  (∀ (s : State) (i : UpdItem), s.upd.run = none → updHead s = some i → dOpcode i.desc = 0 → updFaultCode s i = 0 →
    ∃ t, exec .updNop s = .next t ∧ t.upd.queue = s.upd.queue.drop 1 ∧ t.upd.run = none ∧ getF t UPD_STAT.ITEM = dItem i.desc ∧
      Cells.get 0 t.upd.sync (dSigctr i.desc) = (if dSigv i.desc then min (Cells.get 0 s.upd.sync (dSigctr i.desc) + 1) 0xFFFF else Cells.get 0 s.upd.sync (dSigctr i.desc)) ∧
      (traceOn s = false → t.mem = s.mem)) ∧
  (∀ (s : State) (i : UpdItem), s.upd.run = some i → s.upd.wrote = true → slicesRun s i.desc = true → putsOpen s 512 = false →
    ∃ t, exec .updItemComplete s = .next t ∧ t.upd.run = none ∧ t.upd.queue = s.upd.queue ∧
      Cells.get 0 t.upd.sync (dSigctr i.desc) = (if dSigv i.desc then min (Cells.get 0 s.upd.sync (dSigctr i.desc) + 1) 0xFFFF else Cells.get 0 s.upd.sync (dSigctr i.desc)) ∧
      (traceOn s = false → t.regs = s.regs ∧ t.mem = s.mem)) ∧
  (∀ (s : State) (i : UpdItem), s.upd.halted = some i →
    ∃ t, exec .updCtlResume s = .next t ∧ t.upd.halted = none ∧ t.upd.queue = s.upd.queue ∧
      Cells.get 0 t.upd.sync (dSigctr i.desc) = (if dSigv i.desc then min (Cells.get 0 s.upd.sync (dSigctr i.desc) + 1) 0xFFFF else Cells.get 0 s.upd.sync (dSigctr i.desc)) ∧
      (s.upd.run = none → getF t UPD_STAT.ITEM = dItem i.desc) ∧ (traceOn s = false → (∀ r j k, r ≠ .UPD_STAT → getReg t r j k = getReg s r j k) ∧ t.mem = s.mem)) ∧
  (∀ s : State, (∀ i, s.upd.run = some i → dOpcode i.desc ≠ 0xC0) → getF s UPD_PSET.VALID = 1 →
    ∃ t, exec .updCtlDiscard s = .next t ∧ getF t UPD_PSET.VALID = 0 ∧ (∀ k, k < 4 → getF t UPD_PEND.PEND k = 0) ∧ getF t UPD_EVT.DISCARDED = 1 ∧
      Safety.Logged .updDiscard s t ∧ (∀ g, groupLive t g = groupLive s g)) ∧
  (∀ (s : State) (i : UpdItem), s.upd.run = some i → dOpcode i.desc = 0xC0 →
    ∃ t, exec .updCtlDiscard s = .next t ∧ Safety.Logged .updDiscardIgnored s t ∧ t.regs = s.regs ∧ t.upd = s.upd ∧ t.mem = s.mem) ∧
  (∀ (s : State) (k : Fin 4) (v : W64),
    ∃ t, exec (.updLiveWrite k v) s = .next t ∧ t.mem = s.mem ∧ (holdsPlan s (updP s) = false → getF t UPD_LIVE.LIVE k = v.toNat ∧ t.log = s.log) ∧
      (holdsPlan s (updP s) = true → t.regs = s.regs ∧ Safety.Logged .updLiveIgnored s t)) ∧
  (∀ (s : State) (p : Nat), updPart? s = some p → holdsPlan s (updP s) = false → getF s NUM_STEP.STEP p < getF s SCH_ORIGIN.ORIGIN →
    ∃ t, exec .schCtlRecalc s = .next t ∧ getF t SCH_ETA.ETA = 0 ∧ getF t SCH_POS.POS = 0 ∧ getF t SCH_POS.CYCLE = 0 ∧ t.mem = s.mem) ∧
  (∀ (s : State) (p : Nat), updPart? s = some p → holdsPlan s (updP s) = false → getF s SCH_ORIGIN.ORIGIN + getF s SCH_WARM.W ≤ getF s NUM_STEP.STEP p →
    getF s SCH_CTL.SHAPE = 0 →
    ∃ t, exec .schCtlRecalc s = .next t ∧ getF t SCH_ETA.ETA = (round32 (dec32 (getF s SCH_ETAMAX.ETAMAX))).1 % 2 ^ 32 ∧ t.mem = s.mem) ∧
  (∀ s : State, holdsPlan s (updP s) = true → ∃ t, exec .schCtlRecalc s = .next t ∧ t.regs = s.regs ∧ Safety.Logged .schRecalcIgnored s t ∧ t.mem = s.mem)

/-- PHYSICAL_ACCESS, HELD_ACCESS_RELEASE, HOLD_TIMEOUT, STALL_TIMEOUT. -/
def Obligations.MemoryAccesses : Prop :=
  (∀ (s : State) (who : Agent) (a : Addr) (n : Nat), (∀ k, who ≠ .pcie k) → (∀ b, who ≠ .partner b) → who ≠ .debug → whoOn s who = true → 0 < n → a.toNat % 64 + n ≤ 64 →
    route s { a := a.toNat, n := n, wr := false, rebuild := decide (who = .copyDma) } = .mem a.toNat none → (isMember s who && (homesStop s || heldAt s a.toNat)) = false →
    (isWarehouse a.toNat || isQuay a.toNat) = true →
    ∃ t, exec (.physicalAccess who a (.read n) 0) s = .next t ∧ t.out = .resp who a (readMem s a.toNat n) :: s.out ∧ t.mem = s.mem ∧ t.regs = s.regs ∧ t.coh = s.coh) ∧
  (∀ (s : State) (who : Agent) (a : Addr) (bs : List Byte) (cc : Bool) (p : Fin 64) (x : Fin 64), (∀ k, who ≠ .pcie k) → (∀ b, who ≠ .partner b) → who ≠ .debug → whoOn s who = true →
    0 < bs.length → a.toNat % 64 + bs.length ≤ 64 → (isWarehouse a.toNat || isQuay a.toNat) = true →
    route s { a := a.toNat, n := bs.length, wr := true, rebuild := decide (who = .copyDma) } = .mem a.toNat none →
    (isMember s who && (homesStop s || heldAt s a.toNat)) = false → (cc && exportRegion s a.toNat) = false → Cells.look s.coh.dir (a.toNat / 64) = none →
    isPoisoned s a.toNat = false →
    ∃ t, exec (.physicalAccess who a (.write bs cc p x) 0) s = .next t ∧ t.out = .resp who a [] :: s.out ∧ readMem t a.toNat bs.length = bs ∧
      (∀ b, b < a.toNat ∨ a.toNat + bs.length ≤ b → readByte t b = readByte s b) ∧ t.regs = s.regs) ∧
  (∀ (s : State) (who : Agent) (a : Addr) (op : AccessOp) (x : Nat), (∀ k, who ≠ .pcie k) → (∀ b, who ≠ .partner b) → who ≠ .debug → whoOn s who = true →
    isRegSpace a.toNat = false → firstFault s (accessPieces who a.toNat op) = some x →
    ∃ t, exec (.physicalAccess who a op 0) s = .next t ∧ t.out = .accessFault who a :: s.out ∧ Safety.Logged .accessFault s t ∧ t.mem = s.mem ∧ t.regs = s.regs) ∧
  (∀ (s : State) (who : Agent) (a : Addr) (op : AccessOp) (x : StallAt), (∀ k, who ≠ .pcie k) → (∀ b, who ≠ .partner b) → who ≠ .debug → whoOn s who = true →
    isRegSpace a.toNat = false → firstFault s (accessPieces who a.toNat op) = none → firstStall s (accessPieces who a.toNat op) = some x →
    ∃ t w, exec (.physicalAccess who a op 0) s = .next t ∧ t.tier.waits = s.tier.waits ++ [w] ∧ w.who = who ∧ w.addr = a ∧ w.job = .acc op ∧ w.held = false ∧
      w.cause = x.cause ∧ t.out = s.out ∧ (x.absent = false → t.mem = s.mem ∧ t.regs = s.regs)) ∧
  (∀ (s : State) (who : Agent) (a : Addr) (op : AccessOp), isMember s who = true → whoOn s who = true → isRegSpace a.toNat = false →
    firstFault s (accessPieces who a.toNat op) = none → firstStall s (accessPieces who a.toNat op) = none → homesStop s = false →
    anyHeld s (accessPieces who a.toNat op) = true →
    ∃ t w, exec (.physicalAccess who a op 0) s = .next t ∧ t.tier.waits = s.tier.waits ++ [w] ∧ w.who = who ∧ w.addr = a ∧ w.job = .acc op ∧ w.held = true ∧
      t.out = s.out ∧ t.mem = s.mem ∧ t.regs = s.regs) ∧
  (∀ (s : State) (k : Nat) (w : WaitAcc), s.tier.waits[k]? = some w → w.held = true →
    anyHeld s (waitPieces w) = false →
    ∃ t, exec (.heldAccessRelease k) s = .next t ∧ t = run (retryAccess w) { s with tier := { s.tier with waits := s.tier.waits.eraseIdx k } }) ∧
  (∀ (s : State) (k : Nat) (w : WaitAcc), s.tier.waits[k]? = some w →
    (w.held = true → ∃ t, exec (.holdTimeout k) s = .next t ∧ t.tier.waits = s.tier.waits.eraseIdx k ∧ t.out = .accessFault w.who w.addr :: s.out ∧
      Safety.Logged .holdTimeout s t ∧ t.mem = s.mem ∧ t.regs = s.regs) ∧
    (w.held = false → ∃ t, exec (.stallTimeout k) s = .next t ∧ t.tier.waits = s.tier.waits.eraseIdx k ∧ t.out = .accessFault w.who w.addr :: s.out ∧
      Safety.Logged .stallTimeout s t ∧ t.mem = s.mem ∧ t.regs = s.regs))

/-- TIER_CTL.INVAL, TIER_INVAL_DONE, TIER_OBJCTL, PATROL, EVICTION_DEADLINE. -/
def Obligations.ObjectsAndPatrol : Prop :=
  (∀ s : State, (∃ t, exec .tierCtlInval s = .next t ∧ getF t TIER_CTL.INVALBUSY = 1 ∧ t.mem = s.mem) ∧
    (∃ t, exec .tierInvalDone s = .next t ∧ getF t TIER_CTL.INVALBUSY = 0 ∧ t.mem = s.mem ∧ ∀ n, pageXlat t n = pageEnt s n)) ∧
  (∀ (s : State) (n : Nat), pageXlat s n = pageEnt s n ∨ ∃ x, Cells.look s.tier.xlat n = some x ∧ (pageXlat s n).words = x) ∧
  (∀ (s : State) (n : Nat) (f : PageEnt → PageEnt), Cells.look (run (setPage n f) s).tier.xlat n = none) ∧
  (∀ (s : State) (o : BitVec 16), objValid s o.toNat = true →
    ∃ t, exec (.tierObjctlRebuild o) s = .next t ∧ objState t o.toNat = 2 ∧ getF t TIER_OBJCTL.OBJ = o.toNat ∧ getF t TIER_OBJCTL.DONE = 1 ∧ getF t TIER_OBJCTL.REFUSED = 0) ∧
  (∀ (s : State) (o : BitVec 16), objValid s o.toNat = true → objPoisLines s o.toNat = 0 →
    ∃ t m, exec (.tierObjctlRelease o) s = .next t ∧ t = run retryStalled m ∧ objState m o.toNat = 0 ∧ getF m TIER_OBJCTL.OBJ = o.toNat ∧
      getF m TIER_OBJCTL.DONE = 1 ∧ getF m TIER_OBJCTL.REFUSED = 0 ∧ m.tier.waits = s.tier.waits) ∧
  (∀ (s : State) (o : BitVec 16), objValid s o.toNat = true → objPoisLines s o.toNat ≠ 0 →
    ∃ t, exec (.tierObjctlRelease o) s = .next t ∧ getF t TIER_OBJCTL.OBJ = o.toNat ∧ getF t TIER_OBJCTL.DONE = 0 ∧ getF t TIER_OBJCTL.REFUSED = 1 ∧
      Safety.Logged .rebuildRefused s t ∧ t.mem = s.mem) ∧
  (∀ (s : State) (o : BitVec 16), objValid s o.toNat = true →
    ∃ t m, exec (.tierObjctlEscalate o) s = .next t ∧ t = run (.seq giveUp (computeReset 1 5)) m ∧ objState m o.toNat = 3 ∧ getF m TIER_OBJCTL.OBJ = o.toNat ∧
      getF m TIER_OBJCTL.DONE = 1 ∧ getF m TIER_EVT.ESCALATE = 1) ∧
  (∀ (s : State) (a : Addr), isWarehouse a.toNat = true →
    (∃ t, exec (.patrol a 0) s = .next t ∧ t = s) ∧
    (∀ e, 1 ≤ e → e ≤ 2 → ∃ t, exec (.patrol a e) s = .next t ∧ getF t TIER_ECCW.CE = min (getF s TIER_ECCW.CE + 1) (2 ^ 32 - 1) ∧
      getF t TIER_ECCW.UE = getF s TIER_ECCW.UE ∧ t.mem = s.mem ∧ t.tier = s.tier) ∧
    (∀ e, 3 ≤ e → e ≤ 4 → ∃ t, exec (.patrol a e) s = .next t ∧ getF t TIER_ECCW.UE = min (getF s TIER_ECCW.UE + 1) (2 ^ 32 - 1) ∧
      getF t TIER_ECCW.CE = getF s TIER_ECCW.CE ∧
      (inRange a.toNat (pageTable s) = false → pageOfFrame s a.toNat = none → isPoisoned t a.toNat = true ∧ t.mem = s.mem))) ∧
  (∀ (s : State) (f : Nat) (x : LentFrame) (n : Nat), Cells.look s.tier.lent f = some x → x.notice = some n → Cells.look s.tier.notices f = none →
    s.hural.grantWait = [] →
    ∃ t, exec (.evictionDeadline f) s = .next t ∧ t.mem = s.mem ∧
      (n + 1024 ≤ getF s TIDE_COUNT.COUNT → Cells.look t.tier.lent f = none ∧ getF t TIER_POOL.FREE = (getF s TIER_POOL.FREE + 1) % 2 ^ 32 ∧
        getF t TIER_POOL.USED = getF s TIER_POOL.USED - 1) ∧
      (getF s TIDE_COUNT.COUNT < n + 1024 → t = s))

/-- TIER_MIGPTR.TAIL, MIGRATION_PLACE, MIGRATION_MOVE, MIGRATION_MOVE_DONE, MIGRATION_UNMAP, QUOTA_WAIT_RELEASE. -/
def Obligations.PlacementAndMigration : Prop :=
  (∀ (s : State) (n : Nat) (e : PageEnt), e.tier < 4 → e.frame % 2 ^ 21 = 0 → e.frame < 2 ^ 48 →
    (pageEnt (run (setPage n fun _ => e) s) n).tier = e.tier ∧ (pageEnt (run (setPage n fun _ => e) s) n).frame = e.frame ∧
    (pageEnt (run (setPage n fun _ => e) s) n).mig = e.mig ∧ (pageEnt (run (setPage n fun _ => e) s) n).pois = e.pois) ∧
  (∀ (s : State) (v : BitVec 16), ∃ t, exec (.tierMigptrTail v) s = .next t ∧ getF t TIER_MIGPTR.TAIL = v.toNat ∧ getF t TIER_MIGPTR.HEAD = getF s TIER_MIGPTR.HEAD ∧
    t.mem = s.mem) ∧
  (∀ (s : State) (a : Nat), migHead s = some a → readNat s a 1 = 1 → s.tier.mig = .idle → migRefusal s 1 (readNat s (a + 1) 1) (readNat s (a + 8) 8) (readNat s (a + 0x10) 8) = 0 →
    quotaFits s (readNat s (a + 1) 1) (readNat s (a + 8) 8) = true → readNat s (a + 1) 1 ≠ 3 → copiesTake s = true →
    ∃ t m, exec .migrationPlace s = .next t ∧ t = run retryStalled (run (migFinish 1) m) ∧ (pageEnt m (pageNo (readNat s (a + 8) 8))).tier = readNat s (a + 1) 1 ∧
      (pageEnt m (pageNo (readNat s (a + 8) 8))).frame = readNat s (a + 0x10) 8 ∧ (pageEnt m (pageNo (readNat s (a + 8) 8))).mig = false ∧
      (run (migFinish 1) m).tier.mig = .idle ∧ readNat (run (migFinish 1) m) (a + 2) 1 = 1 ∧
      getF (run (migFinish 1) m) TIER_MIGPTR.HEAD = (getF s TIER_MIGPTR.HEAD + 1) % ringSize (getF s TIER_MIGQ.SIZE) ∧
      (readNat s (a + 1) 1 = 1 → getF m TIER_ACCT.QUAY (objAcct s (pageEnt s (pageNo (readNat s (a + 8) 8))).obj) =
        (getF s TIER_ACCT.QUAY (objAcct s (pageEnt s (pageNo (readNat s (a + 8) 8))).obj) + 2) % 2 ^ 16) ∧
      (readNat s (a + 1) 1 = 2 → getF m TIER_ACCT.WARE (objAcct s (pageEnt s (pageNo (readNat s (a + 8) 8))).obj) =
        (getF s TIER_ACCT.WARE (objAcct s (pageEnt s (pageNo (readNat s (a + 8) 8))).obj) + 2) % 2 ^ 32)) ∧
  (∀ (s : State) (a : Nat), migHead s = some a → readNat s a 1 = 2 → s.tier.mig = .idle → migRefusal s 2 (readNat s (a + 1) 1) (readNat s (a + 8) 8) (readNat s (a + 0x10) 8) = 0 →
    quotaFits s (readNat s (a + 1) 1) (readNat s (a + 8) 8) = true → readNat s (a + 1) 1 ≠ 3 → copiesTake s = true →
    ∃ t, exec .migrationMove s = .next t ∧ getF t TIER_MIGPTR.HEAD = getF s TIER_MIGPTR.HEAD ∧ (pageEnt t (pageNo (readNat s (a + 8) 8))).mig = true ∧
      t.tier.mig = .moving (BitVec.ofNat 48 (pageEnt s (pageNo (readNat s (a + 8) 8))).frame) (BitVec.ofNat 48 (readNat s (a + 0x10) 8)) (readNat s (a + 1) 1)) ∧
  (∀ (s : State) (a : Nat), migHead s = some a → s.tier.mig = .idle →
    (∀ op, (op = 1 ∨ op = 2) → readNat s a 1 = op → migRefusal s op (readNat s (a + 1) 1) (readNat s (a + 8) 8) (readNat s (a + 0x10) 8) ≠ 0 →
      ∃ t, exec (if op = 1 then .migrationPlace else .migrationMove) s = .next t ∧
        readNat t (a + 2) 1 = migRefusal s op (readNat s (a + 1) 1) (readNat s (a + 8) 8) (readNat s (a + 0x10) 8) ∧
        getF t TIER_MIGPTR.HEAD = (getF s TIER_MIGPTR.HEAD + 1) % ringSize (getF s TIER_MIGQ.SIZE) ∧ t.tier.mig = .idle) ∧
    (∀ op, (op = 1 ∨ op = 2) → readNat s a 1 = op → migRefusal s op (readNat s (a + 1) 1) (readNat s (a + 8) 8) (readNat s (a + 0x10) 8) = 0 →
      copiesTake s = true → quotaFits s (readNat s (a + 1) 1) (readNat s (a + 8) 8) = false →
      ∃ t, exec (if op = 1 then .migrationPlace else .migrationMove) s = .next t ∧ readNat t (a + 2) 1 = 4 ∧ t.tier.mig = .waitQuota ∧
        getF t TIER_MIGPTR.HEAD = getF s TIER_MIGPTR.HEAD)) ∧
  (∀ (s : State) (a : Nat) (old new : Addr) (tier : Nat), migHead s = some a → s.tier.mig = .moving old new tier → fetchDue s .page = false →
    (tier = 3 → frameHeld s old.toNat = false) →
    ∃ t m, exec .migrationMoveDone s = .next t ∧
      t = run (.seq retryStalled (freeFrame (pageEnt s (pageNo (readNat s (a + 8) 8))).tier old.toNat)) (run (migFinish 1) m) ∧
      (tier < 4 → new.toNat % 2 ^ 21 = 0 → (pageEnt m (pageNo (readNat s (a + 8) 8))).tier = tier ∧
        (pageEnt m (pageNo (readNat s (a + 8) 8))).frame = new.toNat ∧ (pageEnt m (pageNo (readNat s (a + 8) 8))).mig = false) ∧
      (run (migFinish 1) m).tier.mig = .idle ∧
      getF (run (migFinish 1) m) TIER_MIGPTR.HEAD = (getF s TIER_MIGPTR.HEAD + 1) % ringSize (getF s TIER_MIGQ.SIZE)) ∧
  (∀ (s : State) (a : Nat), migHead s = some a → readNat s a 1 = 3 → s.tier.mig = .idle → migRefusal s 3 0 (readNat s (a + 8) 8) 0 = 0 → copiesTake s = true →
    ∃ t m, exec .migrationUnmap s = .next t ∧ t = run (migFinish 1) m ∧ (pageEnt m (pageNo (readNat s (a + 8) 8))).tier = 0 ∧
      getF t TIER_MIGPTR.HEAD = (getF s TIER_MIGPTR.HEAD + 1) % ringSize (getF s TIER_MIGQ.SIZE) ∧ t.tier.mig = .idle ∧
      readNat t (a + 2) 1 = 1 ∧
      ((pageEnt s (pageNo (readNat s (a + 8) 8))).tier = 2 → 2 ≤ useOf s (objAcct s (pageEnt s (pageNo (readNat s (a + 8) 8))).obj) 2 →
        useOf t (objAcct s (pageEnt s (pageNo (readNat s (a + 8) 8))).obj) 2 = useOf s (objAcct s (pageEnt s (pageNo (readNat s (a + 8) 8))).obj) 2 - 2)) ∧
  (∀ (s : State) (a : Nat), migHead s = some a → s.tier.mig = .waitQuota →
    ∃ t, exec .quotaWaitRelease s = .next t ∧ (quotaFits s (readNat s (a + 1) 1) (readNat s (a + 8) 8) = false → t = s) ∧
      (quotaFits s (readNat s (a + 1) 1) (readNat s (a + 8) 8) = true →
        ∃ m, t = run (migRun (readNat s a 1)) m ∧ m.tier.mig = .idle ∧ readNat m (a + 2) 1 = 0 ∧
        getF m TIER_MIGPTR.HEAD = getF s TIER_MIGPTR.HEAD))

/-- AGENT_LOAD, AGENT_STORE, AGENT_EVICT, RDS, RDX, UPG. -/
def Obligations.AgentsAndHomes : Prop :=
  (∀ (s : State) (a : Nat), isObject a = false → run (usePage a) s = s) ∧
  (∀ (s m : State) (a : Fin 514) (l : Addr) (x : Nat) (o : Option Nat), route s { a := l.toNat / 64 * 64, n := 1, wr := false, rebuild := false } = .mem x o →
    agentCaches s a = true → coreOn s a = true → m = run (usePage (l.toNat / 64 * 64)) s →
    agentActive m a = true → Cells.look (cohAgent m a).wants (x / 64) = none → Cells.look (cohAgent m a).pend (x / 64) = none →
    ∃ t, exec (.agentLoad a l) s = .next t ∧ t.mem = m.mem ∧ t.regs = m.regs ∧
      (∀ c, copyOf m a (x / 64) = some c → t.out = .coreData a (BitVec.ofNat 48 (x / 64 * 64)) (descBytes c.data) :: m.out ∧ t.coh = m.coh) ∧
      (copyOf m a (x / 64) = none → (cacheFull m a (x / 64) = false ∨ victims m a ≠ []) →
        t.coh.reqs = m.coh.reqs ++ [(a.val, x / 64, .rds)] ∧ Cells.look (cohAgent t a).wants (x / 64) = some .load ∧ t.out = m.out ∧
        (cacheFull m a (x / 64) = true → ∃ v ∈ victims m a, copyOf t a v = none))) ∧
  (∀ (s m : State) (a : Fin 514) (ad : Addr) (bs : List Byte) (x : Nat) (o : Option Nat),
    route s { a := ad.toNat, n := (bs.take (64 - ad.toNat % 64)).length, wr := true, rebuild := false } = .mem x o →
    agentCaches s a = true → coreOn s a = true → m = run (usePage ad.toNat) s →
    agentActive m a = true → Cells.look (cohAgent m a).wants (x / 64) = none → Cells.look (cohAgent m a).pend (x / 64) = none →
    ∃ t, exec (.agentStore a ad bs) s = .next t ∧ t.mem = m.mem ∧ t.regs = m.regs ∧ t.out = m.out ∧
      (∀ c, copyOf m a (x / 64) = some c → (c.st = .m ∨ c.st = .e) →
        copyOf t a (x / 64) = some { c with st := .m, data := lineWith c.data ad.toNat (bs.take (64 - ad.toNat % 64)) } ∧ t.coh.reqs = m.coh.reqs) ∧
      (∀ c, copyOf m a (x / 64) = some c → c.st ≠ .m → c.st ≠ .e → copyOf t a (x / 64) = some c ∧ t.coh.reqs = m.coh.reqs ++ [(a.val, x / 64, .upg)]) ∧
      (copyOf m a (x / 64) = none → (cacheFull m a (x / 64) = false ∨ victims m a ≠ []) → t.coh.reqs = m.coh.reqs ++ [(a.val, x / 64, .rdx)] ∧
        Cells.look (cohAgent t a).wants (x / 64) = some (.store ad (bs.take (64 - ad.toNat % 64))) ∧
        (cacheFull m a (x / 64) = true → ∃ v ∈ victims m a, copyOf t a v = none))) ∧
  (∀ (s : State) (a : Fin 514) (l : Addr) (c : CLine), Cells.look (cohAgent s a).wants (l.toNat / 64) = none → copyOf s a (l.toNat / 64) = some c →
    ∃ t, exec (.agentEvict a l) s = .next t ∧ copyOf t a (l.toNat / 64) = none ∧ t.mem = s.mem ∧ t.regs = s.regs ∧
      ((c.st = .m ∨ c.st = .o) → Cells.look (cohAgent t a).pend (l.toNat / 64) = some { data := some c.data, poison := c.bad })) ∧
  (∀ (s : State) (a : Fin 514) (l : Addr), (a.val, l.toNat / 64, ReqKind.rds) ∈ s.coh.reqs → Cells.look s.coh.txs (l.toNat / 64) = none → homesStop s = false →
    (isQuay (l.toNat / 64 * 64) && !quayUp s (l.toNat / 64 * 64)) = false → heldAt s (l.toNat / 64 * 64) = false → isPoisoned s (l.toNat / 64 * 64) = false → Cells.look s.coh.dir (l.toNat / 64) = none →
    (s.coh.dir.filter fun e => homeOf e.1 = homeOf (l.toNat / 64)).length < homeEntries (homeOf (l.toNat / 64)) →
    Cells.get .load (cohAgent s a).wants (l.toNat / 64) = .load → (cohAgent s a).departing = false →
    ∃ t, exec (.rds a l) s = .next t ∧ Cells.look t.coh.dir (l.toNat / 64) = some { owned := true, owner := a, last := s.coh.order + 1 } ∧
      copyOf t a (l.toNat / 64) = some { st := .e, data := memLine s (l.toNat / 64), hold := s.now + 256 } ∧
      t.coh.reqs = s.coh.reqs.erase (a.val, l.toNat / 64, .rds) ∧ t.mem = s.mem ∧ t.regs = s.regs) ∧
  (∀ (s : State) (a : Fin 514) (l : Addr) (o : Nat) (e : DirEnt), (a.val, l.toNat / 64, ReqKind.rds) ∈ s.coh.reqs → Cells.look s.coh.txs (l.toNat / 64) = none →
    homesStop s = false → (isQuay (l.toNat / 64 * 64) && !quayUp s (l.toNat / 64 * 64)) = false → heldAt s (l.toNat / 64 * 64) = false → isPoisoned s (l.toNat / 64 * 64) = false → Cells.look s.coh.dir (l.toNat / 64) = some e →
    e.owned = true → e.owner = o → o ≠ a →
    ∃ t, exec (.rds a l) s = .next t ∧ t.coh.snoops = s.coh.snoops ++ [{ line := l.toNat / 64, agent := o, kind := .snpS, sent := s.now }] ∧
      Cells.look t.coh.txs (l.toNat / 64) = some { job := .req a .rds, waits := [o] } ∧ t.mem = s.mem ∧ t.regs = s.regs) ∧
  (∀ (k : ReqKind) (s : State) (a : Fin 514) (l ad : Addr) (bs : List Byte), k ≠ .rds → (a.val, l.toNat / 64, k) ∈ s.coh.reqs →
    Cells.look s.coh.txs (l.toNat / 64) = none → homesStop s = false → (isQuay (l.toNat / 64 * 64) && !quayUp s (l.toNat / 64 * 64)) = false →
    heldAt s (l.toNat / 64 * 64) = false → isPoisoned s (l.toNat / 64 * 64) = false →
    Cells.look s.coh.dir (l.toNat / 64) = none →
    (s.coh.dir.filter fun e => homeOf e.1 = homeOf (l.toNat / 64)).length < homeEntries (homeOf (l.toNat / 64)) →
    Cells.look (cohAgent s a).wants (l.toNat / 64) = some (.store ad bs) → copyOf s a (l.toNat / 64) = none → (cohAgent s a).departing = false →
    ∃ t, exec (if k = .rdx then .rdx a l else .upg a l) s = .next t ∧ Cells.look t.coh.dir (l.toNat / 64) = some { owned := true, owner := a, last := s.coh.order + 1 } ∧
      copyOf t a (l.toNat / 64) = some { st := .m, data := lineWith (memLine s (l.toNat / 64)) ad.toNat bs, hold := s.now + 256 } ∧ t.mem = s.mem ∧ t.regs = s.regs) ∧
  (∀ (k : ReqKind) (s : State) (a : Fin 514) (l : Addr) (e : DirEnt), k ≠ .rds → (a.val, l.toNat / 64, k) ∈ s.coh.reqs →
    Cells.look s.coh.txs (l.toNat / 64) = none → homesStop s = false → (isQuay (l.toNat / 64 * 64) && !quayUp s (l.toNat / 64 * 64)) = false →
    heldAt s (l.toNat / 64 * 64) = false → isPoisoned s (l.toNat / 64 * 64) = false →
    Cells.look s.coh.dir (l.toNat / 64) = some e → (dirOwner s (l.toNat / 64) = some a.val → copyOf s a (l.toNat / 64) ≠ none) →
    e.holders s (some a) ≠ [] →
    ∃ t, exec (if k = .rdx then .rdx a l else .upg a l) s = .next t ∧ Cells.look t.coh.txs (l.toNat / 64) = some { job := .req a k, waits := e.holders s (some a) } ∧
      t.coh.snoops = s.coh.snoops ++ (e.holders s (some a)).map (fun b => { line := l.toNat / 64, agent := b, kind := .snpX, sent := s.now }) ∧
      t.mem = s.mem ∧ t.regs = s.regs) ∧
  (∀ (s : State) (l v : Nat), Cells.look s.coh.dir l = none → homeEntries (homeOf l) ≤ (s.coh.dir.filter fun e => homeOf e.1 = homeOf l).length →
    dirEvicting s (homeOf l) = false → dirVictim s (homeOf l) = some v →
    (lineHolders s v = [] → getF (run (dirRoom l) s) COH_DIREVICT.COUNT = (getF s COH_DIREVICT.COUNT + 1) % 2 ^ 64 ∧ Cells.look (run (dirRoom l) s).coh.dir v = none) ∧
    (lineHolders s v ≠ [] → Cells.look (run (dirRoom l) s).coh.txs v = some { job := .evict, waits := lineHolders s v } ∧
      (run (dirRoom l) s).coh.snoops = s.coh.snoops ++ (lineHolders s v).map (fun a => { line := v, agent := a, kind := .snpX, sent := s.now }) ∧
      (run (dirRoom l) s).regs = s.regs))

/-- SNPS, SNPX, SNPC, SNOOP_HOLD_EXPIRY, SNOOP_RESPONSE, WB, EVC, WBACK. -/
def Obligations.SnoopsAndWriteBacks : Prop :=
  (∀ (s : State) (a : Fin 514) (l : Addr) (x : Snoop) (c : CLine) (k : SnpKind),
    s.coh.snoops.find? (fun x => decide (x.agent = a.val) && decide (x.line = l.toNat / 64) && decide (x.kind = k) && !x.waits) = some x → (cohAgent s a).dead = false →
    copyOf s a (l.toNat / 64) = some c → Cells.look (cohAgent s a).pend (l.toNat / 64) = none →
    ∃ t, exec (match k with | .snpS => .snps a l | .snpX => .snpx a l | .snpC => .snpc a l) s = .next t ∧ t.mem = s.mem ∧
      (s.now < c.hold → (cohAgent s a).departing = false → copyOf t a (l.toNat / 64) = some c ∧ t.coh.resps = s.coh.resps ∧
        getF t COH_HOLDSNP.COUNT = (getF s COH_HOLDSNP.COUNT + 1) % 2 ^ 64 ∧ { x with waits := true } ∈ t.coh.snoops) ∧
      ((c.hold ≤ s.now ∨ (cohAgent s a).departing = true) → (∃ r, t.coh.resps = s.coh.resps ++ [r] ∧ r.line = l.toNat / 64 ∧ r.agent = a.val ∧ r.found = c.st ∧ r.wbPend = false ∧
          ((c.st = .m ∨ c.st = .o) → r.data = some c.data)) ∧ t.coh.snoops = s.coh.snoops.erase x ∧ t.regs = s.regs ∧
        (k = .snpX → copyOf t a (l.toNat / 64) = none) ∧ (k = .snpC → copyOf t a (l.toNat / 64) = some c) ∧
        (k = .snpS → copyOf t a (l.toNat / 64) =
          some { c with st := if c.st = .o ∨ (c.st = .m ∧ ownedProtocol s = true) then .o else .s }))) ∧
  (∀ (s : State) (a : Fin 514) (l : Addr) (x : Snoop),
    s.coh.snoops.find? (fun x => decide (x.agent = a.val) && decide (x.line = l.toNat / 64) && x.waits) = some x →
    ∃ t r, exec (.snoopHoldExpiry a l) s = .next t ∧ t.coh.resps = s.coh.resps ++ [r] ∧ r.line = x.line ∧ r.agent = x.agent ∧ t.coh.snoops = s.coh.snoops.erase x ∧
      t.mem = s.mem ∧ t.regs = s.regs) ∧
  (∀ (s : State) (a : Fin 514) (l : Addr) (r : SnpResp) (y : HomeTx), s.coh.resps.find? (fun r => decide (r.agent = a.val) && decide (r.line = l.toNat / 64)) = some r →
    Cells.look s.coh.txs (l.toNat / 64) = some y → a.val ∈ y.waits → r.wbPend = false →
    ∃ t, exec (.snoopResponse a l) s = .next t ∧ t.coh.resps = s.coh.resps.erase r ∧
      (y.waits.erase a ≠ [] → r.data = none → (∃ z, Cells.look t.coh.txs (l.toNat / 64) = some z ∧ z.waits = y.waits.erase a ∧ z.job = y.job ∧ z.data = y.data ∧
        z.wbs = y.wbs) ∧ t.mem = s.mem ∧ t.regs = s.regs) ∧
      (∀ ad n d, y.waits = [a.val] → y.wbs = [] → y.job = .read ad n → r.data = some d → homesStop s = false → (∀ z ∈ s.coh.amos, z.addr / 64 ≠ l.toNat / 64) → Cells.look t.coh.txs (l.toNat / 64) = none ∧
        t.out = .uncachedData ad (lineBytes d ad.toNat n) :: s.out ∧ t.mem = s.mem ∧ t.regs = s.regs)) ∧
  (∀ (s : State) (a : Fin 514) (l : Addr) (r : SnpResp), s.coh.resps.find? (fun r => decide (r.agent = a.val) && decide (r.line = l.toNat / 64)) = some r →
    Cells.look s.coh.txs (l.toNat / 64) = none →
    ∃ t, exec (.snoopResponse a l) s = .next t ∧ t = run (collapseStart 4 a (l.toNat / 64)) { s with coh := { s.coh with resps := s.coh.resps.erase r } }) ∧
  (∀ (s : State) (a : Fin 514) (l : Addr) (p : Pend) (e : DirEnt), Cells.look (cohAgent s a).pend (l.toNat / 64) = some p → p.arrived = false → p.poison = false →
    Cells.look s.coh.dir (l.toNat / 64) = some e → e.owned = true → e.owner = a → Cells.look s.coh.txs (l.toNat / 64) = none →
    ∃ t, exec (if p.data.isSome then .wb a l else .evc a l) s = .next t ∧ Cells.look (cohAgent t a).pend (l.toNat / 64) = some { p with arrived := true } ∧
      (∀ d, p.data = some d → memLine t (l.toNat / 64) = d) ∧ (p.data = none → t.mem = s.mem) ∧ t.regs = s.regs ∧
      (∀ f, Cells.look t.coh.dir (l.toNat / 64) = some f → f.owned = false ∧ a.val ∉ f.sharers)) ∧
  (∀ (s : State) (a : Fin 514) (l : Addr) (p : Pend), Cells.look (cohAgent s a).pend (l.toNat / 64) = some p → p.arrived = false → Cells.look s.coh.dir (l.toNat / 64) = none →
    ∃ t, exec (if p.data.isSome then .wb a l else .evc a l) s = .next t ∧ t = run (collapseStart 4 a (l.toNat / 64)) s) ∧
  (∀ (s : State) (a : Fin 514) (l : Addr) (p : Pend), Cells.look (cohAgent s a).pend (l.toNat / 64) = some p → p.arrived = true →
    ∃ t, exec (.wback a l) s = .next t ∧ Cells.look (cohAgent t a).pend (l.toNat / 64) = none ∧ t.mem = s.mem ∧ t.regs = s.regs)

/-- UNCACHED_READ, UNCACHED_FULL_WRITE, UNCACHED_PARTIAL_WRITE, AMO, LR_SC, COH_CTL.MODE. -/
def Obligations.UncachedAndAtomics : Prop :=
  (∀ (s : State) (ad : Addr) (n : Nat), uncachedOk s (ad.toNat / 64) = true → uncachedFails s (ad.toNat / 64) false = false →
    ∃ t, exec (.uncachedRead ad n) s = .next t ∧ t.mem = s.mem ∧ t.regs = s.regs ∧
      (dirOwner s (ad.toNat / 64) = none → t.out = .uncachedData ad (lineBytes (memLine s (ad.toNat / 64)) ad.toNat (min n (64 - ad.toNat % 64))) :: s.out ∧
        t.coh.txs = s.coh.txs ∧ t.coh.snoops = s.coh.snoops ∧ t.coh.agents = s.coh.agents) ∧
      (∀ o, dirOwner s (ad.toNat / 64) = some o → t.coh.snoops = s.coh.snoops ++ [{ line := ad.toNat / 64, agent := o, kind := .snpC, sent := s.now }] ∧
        Cells.look t.coh.txs (ad.toNat / 64) = some { job := .read ad (min n (64 - ad.toNat % 64)), waits := [o] } ∧ t.out = s.out)) ∧
  (∀ (s : State) (ad : Addr) (n : Nat) (bs : List Byte), uncachedOk s (ad.toNat / 64) = true → uncachedFails s (ad.toNat / 64) false = true →
    (∃ t, exec (.uncachedRead ad n) s = .next t ∧ t.out = .uncachedFault ad :: s.out ∧ Safety.Logged .accessFault s t ∧ t.mem = s.mem ∧ t.regs = s.regs) ∧
    (∃ t, exec (.uncachedPartialWrite ad bs) s = .next t ∧ t.out = .uncachedFault ad :: s.out ∧ Safety.Logged .accessFault s t ∧ t.mem = s.mem ∧ t.regs = s.regs)) ∧
  (∀ (s : State) (l : Addr) (d : Desc), uncachedOk s (l.toNat / 64) = true → uncachedFails s (l.toNat / 64) true = true →
    ∃ t, exec (.uncachedFullWrite l d) s = .next t ∧ t.out = .uncachedFault (BitVec.ofNat 48 (l.toNat / 64 * 64)) :: s.out ∧
      Safety.Logged .accessFault s t ∧ t.mem = s.mem ∧ t.regs = s.regs) ∧
  (∀ (s : State) (l : Addr) (d : Desc), uncachedOk s (l.toNat / 64) = true → uncachedFails s (l.toNat / 64) true = false →
    ∃ t, exec (.uncachedFullWrite l d) s = .next t ∧
      (Cells.look s.coh.dir (l.toNat / 64) = none → readMem t (l.toNat / 64 * 64) 64 = descBytes d ∧
        (isPoisoned s (l.toNat / 64 * 64) = false → t.regs = s.regs ∧
          (∀ b, b < l.toNat / 64 * 64 ∨ l.toNat / 64 * 64 + 64 ≤ b → Cells.get 0 t.mem b = Cells.get 0 s.mem b))) ∧
      (lineHolders s (l.toNat / 64) ≠ [] → Cells.look t.coh.txs (l.toNat / 64) = some { job := .fullWrite d, waits := lineHolders s (l.toNat / 64) } ∧
        t.mem = s.mem ∧ t.regs = s.regs)) ∧
  (∀ (s : State) (ad : Addr) (bs : List Byte), uncachedOk s (ad.toNat / 64) = true → uncachedFails s (ad.toNat / 64) false = false → bs ≠ [] →
    ad.toNat % 64 + bs.length ≤ 64 →
    ∃ t, exec (.uncachedPartialWrite ad bs) s = .next t ∧
      (Cells.look s.coh.dir (ad.toNat / 64) = none → readMem t ad.toNat bs.length = bs ∧ t.regs = s.regs ∧
        (∀ b, b < ad.toNat ∨ ad.toNat + bs.length ≤ b → Cells.get 0 t.mem b = Cells.get 0 s.mem b)) ∧
      (lineHolders s (ad.toNat / 64) ≠ [] → Cells.look t.coh.txs (ad.toNat / 64) = some { job := .partWrite ad bs, waits := lineHolders s (ad.toNat / 64) } ∧
        t.mem = s.mem ∧ t.regs = s.regs)) ∧
  (∀ (s m : State) (core : Fin 608) (ad : Addr) (op : AmoOp) (n : Nat) (v : W64) (x : Nat), atomicAddr s ad.toNat n = some x → m = run (usePage ad.toNat) s →
    2 ≤ Cells.get 1 (cohAgent m (coreAgent core)).pred (predKey core x) → heldAt m x = false → Cells.look m.coh.txs (x / 64) = none → Cells.look m.coh.dir (x / 64) = none →
    x % n = 0 → atomicCore s core = true → agentActive m (coreAgent core) = true →
    ∃ t, exec (.amo core ad op n v) s = .next t ∧ readNat t x n = amoResult op n (readNat m x n) v.toNat ∧
      t.out = .coreData (coreAgent core) (BitVec.ofNat 48 x) (readMem m x n) :: m.out ∧ getF t COH_ATOMIC.NEAR = min (getF m COH_ATOMIC.NEAR + 1) (2 ^ 32 - 1) ∧
      (∀ b, b < x ∨ x + n ≤ b → Cells.get 0 t.mem b = Cells.get 0 m.mem b)) ∧
  (∀ (s m : State) (core : Fin 608) (ad : Addr) (op : AmoOp) (n : Nat) (v : W64) (x : Nat) (c : CLine), atomicAddr s ad.toNat n = some x →
    m = run (usePage ad.toNat) s →
    Cells.get 1 (cohAgent m (coreAgent core)).pred (predKey core x) < 2 → copyOf m (coreAgent core) (x / 64) = some c → (c.st = .m ∨ c.st = .e) →
    atomicCore s core = true → agentActive m (coreAgent core) = true → Cells.look (cohAgent m (coreAgent core)).wants (x / 64) = none →
    Cells.look (cohAgent m (coreAgent core)).pend (x / 64) = none →
    ∃ t, exec (.amo core ad op n v) s = .next t ∧ t.mem = m.mem ∧ getF t COH_ATOMIC.FAR = min (getF m COH_ATOMIC.FAR + 1) (2 ^ 32 - 1) ∧
      t.out = .coreData (coreAgent core) (BitVec.ofNat 48 x) (lineBytes c.data (BitVec.ofNat 48 x).toNat n) :: m.out ∧
      copyOf t (coreAgent core) (x / 64) = some { c with
        st := .m, data := lineWith c.data (BitVec.ofNat 48 x).toNat (natLe (amoResult op n (leNat (lineBytes c.data (BitVec.ofNat 48 x).toNat n)) v.toNat) n) }) ∧
  (∀ (s : State) (core : Fin 608) (ad : Addr) (n : Nat) (v : W64), atomicCore s core = true → atomicAddr s ad.toNat n = none → atomicStall s ad.toNat n = none →
    (∀ op, ∃ t, exec (.amo core ad op n v) s = .next t ∧ t.out = .agentFault (coreAgent core) ad :: s.out ∧ Safety.Logged .accessFault s t ∧ t.mem = s.mem ∧ t.regs = s.regs) ∧
    (∀ sc, ∃ t, exec (.lrSc core ad sc n v) s = .next t ∧ t.out = .agentFault (coreAgent core) ad :: s.out ∧ Safety.Logged .accessFault s t ∧ t.mem = s.mem ∧ t.regs = s.regs)) ∧
  (∀ (s m : State) (core : Fin 608) (ad : Addr) (n : Nat) (v : W64) (x : Nat) (c : CLine), atomicAddr s ad.toNat n = some x → m = run (usePage ad.toNat) s →
    copyOf m (coreAgent core) (x / 64) = some c → (c.st = .m ∨ c.st = .e) → atomicCore s core = true → agentActive m (coreAgent core) = true →
    Cells.look (cohAgent m (coreAgent core)).wants (x / 64) = none → Cells.look (cohAgent m (coreAgent core)).pend (x / 64) = none →
    (∃ t, exec (.lrSc core ad false n v) s = .next t ∧ Cells.look (cohAgent t (coreAgent core)).resv core = some (x / 64) ∧
      t.out = .coreData (coreAgent core) (BitVec.ofNat 48 x) (lineBytes c.data (BitVec.ofNat 48 x).toNat n) :: m.out ∧ t.mem = m.mem ∧ t.regs = m.regs) ∧
    (Cells.look (cohAgent m (coreAgent core)).resv core = some (x / 64) → ∃ t, exec (.lrSc core ad true n v) s = .next t ∧
      copyOf t (coreAgent core) (x / 64) = some { c with st := .m, data := lineWith c.data (BitVec.ofNat 48 x).toNat (natLe v.toNat n) } ∧
      t.out = .coreData (coreAgent core) (BitVec.ofNat 48 x) (natLe 0 n) :: m.out ∧ t.mem = m.mem ∧ t.regs = m.regs) ∧
    (Cells.look (cohAgent m (coreAgent core)).resv core ≠ some (x / 64) → ∃ t, exec (.lrSc core ad true n v) s = .next t ∧
      t.out = .coreData (coreAgent core) (BitVec.ofNat 48 x) (natLe 1 n) :: m.out ∧ t.coh = m.coh ∧ t.mem = m.mem ∧ t.regs = m.regs)) ∧
  (∀ (s : State) (b : Bool), ∃ t, exec (.cohCtlMode b) s = .next t ∧ t.mem = s.mem ∧
    ((b = false ∨ s.life = .fab ∨ d2Open s = true) → getF t COH_CTL.MODE = b2n b ∧ t.log = s.log) ∧
    (b = true → s.life ≠ .fab → d2Open s = false → t.regs = s.regs ∧ Safety.Logged .cohModeIgnored s t))

/-- DEPART, DEPARTURE_COMPLETE, SNOOP_TIMEOUT, DEPARTURE_TIMEOUT, COLLAPSE, COLLAPSE_FLUSH_END. -/
def Obligations.DepartureAndCollapse : Prop :=
  (∀ (s : State) (a : Fin 514), (cohAgent s a).departing = true → (cohAgent s a).departSent = false → (cohAgent s a).pend = [] →
    agentServed s a = false →
    ∃ t, exec (.depart a) s = .next t ∧ (cohAgent t a).departSent = true ∧
      (∀ l e, Cells.look t.coh.dir l = some e → (e.owned = true → e.owner ≠ a) ∧ a.val ∉ e.sharers) ∧ t.mem = s.mem ∧ t.regs = s.regs) ∧
  (∀ (s : State) (a : Fin 514), (cohAgent s a).departing = true → (cohAgent s a).departSent = true →
    (∀ y ∈ s.coh.snoops, y.agent ≠ a) → (∀ y ∈ s.coh.resps, y.agent ≠ a) →
    ∃ t m, exec (.departureComplete a) s = .next t ∧
      t = run (Act.all [resetGo, hostGo, darkGo, .given (fun s => mayRejoin s a && agentMember s a) (rejoin a)]) m ∧
      (cohAgent m a).departed = true ∧ (cohAgent m a).departing = false ∧ (cohAgent m a).lines = [] ∧ getF m COH_EVT.DEPARTED = 1 ∧ m.mem = s.mem ∧
      (s.rst.due = [] → s.rst.hostDue = none → s.en.darkDue = false → agentMember s a = false → t = m)) ∧
  (∀ (s : State) (c : BitVec 8) (a : Nat) (l : Addr), getF s COH_STAT2.STATE ≠ 2 → c.toNat < 16 → a < 1024 →
    ∃ t m, exec (.collapse c a l) s = .next t ∧ t = run (Act.all [freezeAll, giveUp, recordEvent 3]) m ∧ getF m COH_STAT2.STATE = 2 ∧
      getF m COH_COLLAPSE.CAUSE = c.toNat ∧ getF m COH_COLLAPSE.AGENT = a ∧ getF m COH_COLLAPSE.ADDR = l.toNat / 64 * 64 ∧ getF m COH_EVT.COLLAPSE = 1 ∧
      Safety.Logged .collapsed s m ∧ m.rst.collapse = true ∧ m.mem = s.mem ∧ m.coh = s.coh) ∧
  (∀ (s : State) (c : BitVec 8) (a : Nat) (l : Addr), getF s COH_STAT2.STATE = 2 → ∃ t, exec (.collapse c a l) s = .next t ∧ t = s) ∧
  (∀ (s : State) (a : Fin 514) (l : Addr),
    (s.coh.snoops.any (fun x => decide (x.agent = a.val) && decide (x.line = l.toNat / 64)) = true →
      ∃ t, exec (.snoopTimeout a l) s = .next t ∧ t = run (collapseStart 1 a (l.toNat / 64)) s) ∧
    (s.coh.snoops = [] → s.coh.resps = [] → ∃ t, exec (.snoopTimeout a l) s = .next t ∧ t = s)) ∧
  (∀ (s : State) (a : Fin 514), ∃ t, exec (.departureTimeout a) s = .next t ∧
    ((cohAgent s a).departing = true → t = run (collapseStart 2 a 0) s) ∧ ((cohAgent s a).departing = false → t = s)) ∧
  (∀ s : State, s.rst.collapse = true → getF s COH_STAT2.STATE = 2 →
    ∃ t m, exec .collapseFlushEnd s = .next t ∧ t = run (flushResets (lostDies s) s.rst.due) m ∧ m.coh.dir = [] ∧ m.coh.reqs = [] ∧ m.coh.snoops = [] ∧ m.coh.resps = [] ∧
      m.coh.txs = [] ∧ m.coh.amos = [] ∧ getF m COH_STAT.MODE = 0)

/-- LANE_FRAME_RECEIVE, LANE_NAK_RECEIVE, DROP_NOTICE, D2D_CTL.RETRAIN, RECEIVE_MAP, MAP_TIMEOUT, CONFIRM_DONE, ROUTE_RESTORE, REV2_TAG_FREE. -/
def Obligations.DieLinks : Prop :=
  (∀ (s : State) (e : Fin 8) (dir : Bool) (lane : Fin 4) (f : List (Bool × Desc)) (crc : BitVec 16), edgeUp s e = true → lane.val ∈ (edgeSt s e).lanes dir →
    frameGood f crc = true →
    ∃ t, exec (.laneFrameReceive e dir lane f crc) s = .next t ∧ t.mem = s.mem ∧ t.regs = s.regs ∧
      ((dir, lane.val) ∈ (edgeSt s e).naks → t = s) ∧
      ((dir, lane.val) ∉ (edgeSt s e).naks → ∃ m, t = run (edgeMerge e dir) m ∧ m.out = .laneAck e dir lane :: s.out ∧
        Cells.get [] (edgeSt m e).rx (laneKey dir lane) = Cells.get [] (edgeSt s e).rx (laneKey dir lane) ++ [f])) ∧
  (∀ (s : State) (e : Nat) (dir : Bool), ((edgeSt s e).merged dir).all (fun l => !(Cells.get [] (edgeSt s e).rx (laneKey dir l)).isEmpty) = true →
    (run (edgeMerge e dir) s).out =
      .edgeFlits e dir (mergeFlits (((edgeSt s e).merged dir).filterMap fun l => (Cells.get [] (edgeSt s e).rx (laneKey dir l)).head?)) :: s.out) ∧
  (∀ (s : State) (e : Fin 8) (dir : Bool) (lane : Fin 4) (f : List (Bool × Desc)) (crc : BitVec 16), edgeUp s e = true → lane.val ∈ (edgeSt s e).lanes dir →
    frameGood f crc = false →
    ∃ t, exec (.laneFrameReceive e dir lane f crc) s = .next t ∧ t.mem = s.mem ∧
      getF t D2D_ERR.CRCFAIL e = min (getF s D2D_ERR.CRCFAIL e + 1) (2 ^ D2D_ERR.CRCFAIL.width - 1) ∧
      (1 < ((edgeSt s e).lanes dir).length → (dir, lane.val) ∈ (edgeSt t e).naks ∧ getF t D2D_EDGE.STATE e = getF s D2D_EDGE.STATE e ∧
        (7 ≤ ((Cells.get [] (edgeSt s e).fails (laneKey dir lane)).filter fun x => s.now < x + 4000000).length → (dir, lane.val) ∈ (edgeSt t e).notices)) ∧
      (((edgeSt s e).lanes dir).length ≤ 1 → 7 ≤ ((Cells.get [] (edgeSt s e).fails (laneKey dir lane)).filter fun x => s.now < x + 4000000).length →
        getF t D2D_EDGE.STATE e = 2)) ∧
  (∀ (s : State) (e : Fin 8) (dir : Bool) (lane : Fin 4) (n : Fin 65), (dir, lane.val) ∈ (edgeSt s e).naks →
    ∃ t, exec (.laneNakReceive e dir lane n) s = .next t ∧ getF t D2D_ERR.RESENT e = min (getF s D2D_ERR.RESENT e + n.val) (2 ^ D2D_ERR.RESENT.width - 1) ∧
      (edgeSt t e).naks = (edgeSt s e).naks.erase (dir, lane.val) ∧ t.mem = s.mem) ∧
  (∀ (s : State) (e : Fin 8) (dir : Bool) (lane : Fin 4) (n : Fin 257), edgeUp s e = true → (dir, lane.val) ∈ (edgeSt s e).notices →
    ∃ t, exec (.dropNotice e dir lane n) s = .next t ∧ t.mem = s.mem ∧
      (lane.val ∈ (edgeSt s e).lanes dir → 1 < ((edgeSt s e).lanes dir).length →
        (edgeSt t e).lanes dir = ((edgeSt s e).lanes dir).filter (fun x => decide (x ≠ lane.val)) ∧
        (edgeSt t e).lanes (!dir) = ((edgeSt s e).lanes (!dir)).dropLast ∧ getF t D2D_EDGE.WIDTH e = getF s D2D_EDGE.WIDTH e - 1 ∧
        bitOf (getF t D2D_EVT.NARROWED) e = true ∧ Safety.Logged .edgeNarrowed s t) ∧
      (lane.val ∈ (edgeSt s e).lanes dir → ((edgeSt s e).lanes dir).length ≤ 1 → getF t D2D_EDGE.STATE e = 2 ∧ getF t D2D_EDGE.WIDTH e = 0 ∧
        Safety.Logged .edgeDown s t) ∧
      (lane.val ∉ (edgeSt s e).lanes dir → (∀ b, (edgeSt t e).lanes b = (edgeSt s e).lanes b) ∧ t.regs = s.regs)) ∧
  (∀ (s : State) (e : Fin 8), ∃ t, exec (.d2dCtlRetrain e) s = .next t ∧ t.mem = s.mem ∧
    (getF s D2D_EDGE.STATE e ≠ 3 → getF t D2D_EDGE.STATE e = 1 ∧ getF t D2D_EDGE.WIDTH e = 0 ∧ getF t D2D_EDGE.FAILS e = 0 ∧ getF t D2D_EDGE.MAPAB e = 0 ∧
      getF t D2D_EDGE.MAPBA e = 0 ∧ edgeSt t e = {}) ∧ (getF s D2D_EDGE.STATE e = 3 → t = s)) ∧
  (∀ (s : State) (e : Fin 8) (failed sp : List Nat), getF s D2D_EDGE.STATE e = 1 → (edgeSt s e).confirming = false → (edgeSt s e).mapBA = none →
    ∃ t, exec (.receiveMap e false failed sp) s = .next t ∧ getF t D2D_EDGE.MAPAB e = (repairMap failed sp).toNat ∧ getF t D2D_REPAIR.SPARESAB e = sparesUsed failed sp ∧
      (edgeSt t e).mapAB = some (repairMap failed sp) ∧ (edgeSt t e).confirming = false ∧ getF t D2D_EDGE.STATE e = 1 ∧ t.mem = s.mem) ∧
  (∀ (s : State) (e : Fin 8) (ab ba : BitVec 4) (failed sp : List Nat), getF s D2D_EDGE.STATE e = 1 → (edgeSt s e).confirming = false → (edgeSt s e).mapAB = some ab →
    ba = repairMap failed sp → 0 < min (goodLanes ab).length (goodLanes ba).length →
    ∃ t, exec (.receiveMap e true failed sp) s = .next t ∧ getF t D2D_EDGE.MAPBA e = ba.toNat ∧ getF t D2D_REPAIR.SPARESBA e = sparesUsed failed sp ∧
      (edgeSt t e).confirming = true ∧ (edgeSt t e).lanesAB = (goodLanes ab).take (min (goodLanes ab).length (goodLanes ba).length) ∧
      (edgeSt t e).lanesBA = (goodLanes ba).take (min (goodLanes ab).length (goodLanes ba).length) ∧ t.mem = s.mem) ∧
  (∀ (s : State) (e : Fin 8), getF s D2D_EDGE.STATE e = 1 → (edgeSt s e).confirming = true →
    (∃ t, exec (.confirmDone e true) s = .next t ∧ getF t D2D_EDGE.STATE e = 0 ∧ getF t D2D_EDGE.WIDTH e = (edgeSt s e).lanesAB.length % 8 ∧
      (edgeSt t e).lanesAB = (edgeSt s e).lanesAB ∧ (edgeSt t e).lanesBA = (edgeSt s e).lanesBA ∧ t.mem = s.mem) ∧
    ((edgeSt s e).attempt < 2 → ∃ t, exec (.confirmDone e false) s = .next t ∧ getF t D2D_EDGE.FAILS e = (edgeSt s e).attempt + 1 ∧
      getF t D2D_EDGE.STATE e = 1 ∧ (edgeSt t e).attempt = (edgeSt s e).attempt + 1 ∧ t.mem = s.mem)) ∧
  (∀ (s : State) (e : Fin 8) (fa fb : List Nat), getF s D2D_EDGE.STATE e = 1 → (edgeSt s e).confirming = false →
    ∃ t, exec (.mapTimeout e fa fb) s = .next t ∧ t.mem = s.mem ∧
      ((edgeSt s e).attempt < 2 → getF t D2D_EDGE.FAILS e = (edgeSt s e).attempt + 1 ∧ getF t D2D_EDGE.STATE e = 1 ∧ (edgeSt t e).attempt = (edgeSt s e).attempt + 1) ∧
      ((edgeSt s e).attempt = 2 → goodLanes (repairMap fa []) ≠ [] → goodLanes (repairMap fb []) ≠ [] → getF t D2D_EDGE.STATE e = 0 ∧ getF t D2D_EDGE.WIDTH e = 1 ∧
        (edgeSt t e).lanesAB = (goodLanes (repairMap fa [])).take 1 ∧ (edgeSt t e).lanesBA = (goodLanes (repairMap fb [])).take 1 ∧
        bitOf (getF t D2D_EVT.FORCEDQ) e = true ∧ Safety.Logged .edgeForced s t)) ∧
  (∀ (s : State) (e : Fin 8), ∃ t, exec (.routeRestore e) s = .next t ∧ t.regs = s.regs ∧ t.mem = s.mem ∧
    (∀ p ∈ t.link.alt, p ∈ s.link.alt ∧ (primaryBroken s p.1 p.2 = true ∨ e.val ∉ routeHops ((theChart s).routeWord p.1 p.2 false)))) ∧
  (∀ (s : State) (e : Fin 8), 6 ≤ e.val → getF s IDREV.NOCREV = 2 →
    ∃ t, exec (.rev2TagFree e) s = .next t ∧ getF t D2D_ERR.TAGWAIT e = min (getF s D2D_ERR.TAGWAIT e + 1) (2 ^ D2D_ERR.TAGWAIT.width - 1) ∧ t.mem = s.mem)

/-- BELL_RING, ENTRY_CHECK, REREAD_TIMEOUT, BELL_CFG.EN written 1 and 0, COMMAND_COMPLETE, BELL_CQHEAD, BELL_VIS read and its reply. -/
def Obligations.BellsAndRecords : Prop :=
  (∀ (s : State) (q : Fin 256) (tail : BitVec 16), getB s BELL_STAT.EN q = true →
    ∃ t, exec (.bellRing q tail) s = .next t ∧ t.mem = s.mem ∧ t.bell = s.bell ∧ getF t BELL_STAT.HEAD q = getF s BELL_STAT.HEAD q ∧
      (tail.toNat < ringEntries s q → getF t BELL_STAT.TAIL q = tail.toNat ∧ getF t BELL_STAT.WAITSEQ q = 0) ∧
      (ringEntries s q ≤ tail.toNat → getF t BELL_CNT.BADTAIL q = min (getF s BELL_CNT.BADTAIL q + 1) (2 ^ 16 - 1) ∧ getF t BELL_STAT.TAIL q = getF s BELL_STAT.TAIL q)) ∧
  (∀ (s : State) (q : Fin 256), entryDue s q = true → cdmaHeld s (piecesOf (headAddr s q) 256 false false) = false →
    firstFault s (piecesOf (headAddr s q) 256 false false) = none →
    ∃ t, exec (.entryCheck q) s = .next t ∧ t.mem = s.mem ∧
      (eSeq (headEntry s q) = (bellQ s q).nextSeq → fieldAt (headEntry s q) 0xFC 4 = (bellQ s q).nextSeq →
        getF t BELL_STAT.HEAD q = (getF s BELL_STAT.HEAD q + 1) % ringEntries s q ∧ (bellQ t q).nextSeq = ((bellQ s q).nextSeq + 1) % 2 ^ 32 ∧
        (bellQ t q).cmds = (bellQ s q).cmds ++ [{ entry := headEntry s q, index := getF s BELL_STAT.HEAD q }]) ∧
      (eSeq (headEntry s q) ≠ (bellQ s q).nextSeq ∨ fieldAt (headEntry s q) 0xFC 4 ≠ (bellQ s q).nextSeq →
        getF t BELL_STAT.HEAD q = getF s BELL_STAT.HEAD q ∧ (bellQ t q).cmds = (bellQ s q).cmds ∧ (bellQ t q).reading.isSome = true ∧
        ((bellQ s q).reading = none → getF t BELL_CNT.REREAD q = min (getF s BELL_CNT.REREAD q + 1) (2 ^ 24 - 1)))) ∧
  (∀ (s : State) (q : Fin 256) (x : Nat), (bellQ s q).reading = some x →
    ∃ t, exec (.rereadTimeout q) s = .next t ∧ getF t BELL_CNT.RUNPAST q = min (getF s BELL_CNT.RUNPAST q + 1) (2 ^ 24 - 1) ∧ getF t BELL_STAT.WAITSEQ q = 1 ∧
      (bellQ t q).reading = none ∧ t.mem = s.mem) ∧
  (∀ (s : State) (q : Fin 256),
    ((inWarehouse (getF s BELL_RINGADDR.ADDR q * 256) (256 * ringEntries s q) && inWarehouse (getF s BELL_CQADDR.ADDR q * 256) (32 * cqRecords s q)) = true →
      ∃ t, exec (.bellEnable q) s = .next t ∧ getF t BELL_CFG.EN q = 1 ∧ getF t BELL_STAT.EN q = 1 ∧ getF t BELL_STAT.HEAD q = 0 ∧ getF t BELL_STAT.TAIL q = 0 ∧
        getF t BELL_STAT.WAITSEQ q = 0 ∧ (bellQ t q).nextSeq = 1 ∧ (bellQ t q).cqTail = 0 ∧ (bellQ t q).phase = true ∧ t.mem = s.mem) ∧
    ((inWarehouse (getF s BELL_RINGADDR.ADDR q * 256) (256 * ringEntries s q) && inWarehouse (getF s BELL_CQADDR.ADDR q * 256) (32 * cqRecords s q)) = false →
      ∃ t, exec (.bellEnable q) s = .next t ∧ getF t BELL_ERR.CODE q = 7 ∧ getF t BELL_CFG.EN q = 0 ∧ getF t BELL_STAT.EN q = 0 ∧ t.mem = s.mem ∧ t.bell = s.bell)) ∧
  (∀ (s : State) (q : Fin 256), ∃ t, exec (.bellDisable q) s = .next t ∧ getF t BELL_CFG.EN q = 0 ∧ getF t BELL_STAT.EN q = 0 ∧ t.mem = s.mem ∧
    (∀ c : BCmd, c.st = .accepted → (bellQ s q).cmds = [c] → (bellQ t q).cmds = [] ∧
      (bellQ t q).done = (bellQ s q).done ++ [{ entry := c.entry, index := c.index, status := 5, result := 0, detail := 0 }])) ∧
  (∀ (s : State) (q : Fin 256) (d : BDone), nextRecord (bellQ s q) = some d →
    ((eNocq d.entry && decide (d.status = 0)) = true →
      ∃ t m, exec (.commandComplete q) s = .next t ∧ t = run (irqWrite q d) m ∧ (bellQ m q).done = (bellQ s q).done.erase d ∧ m.regs = s.regs ∧ m.mem = s.mem) ∧
    ((eNocq d.entry && decide (d.status = 0)) = false → cqFull s q = false →
      cdmaHeld s (piecesOf (getF s BELL_CQADDR.ADDR q * 256 + 32 * (bellQ s q).cqTail) 32 true false) = false →
      firstFault s (piecesOf (getF s BELL_CQADDR.ADDR q * 256 + 32 * (bellQ s q).cqTail) 32 true false) = none →
      ∃ t m, exec (.commandComplete q) s = .next t ∧ t = run (irqWrite q d) m ∧ (bellQ m q).done = (bellQ s q).done.erase d ∧
        readMem m (getF s BELL_CQADDR.ADDR q * 256 + 32 * (bellQ s q).cqTail) 32 = recordBytes (bellQ s q) d ∧
        (bellQ m q).cqTail = ((bellQ s q).cqTail + 1) % cqRecords s q ∧ (bellQ m q).visSeq = eSeq d.entry ∧
        (d.status ≠ 0 → getF m BELL_ERR.SEQ q = eSeq d.entry % 2 ^ 32 ∧ getF m BELL_ERR.CODE q = d.status % 2 ^ 8 ∧
          bitOf (getF m BELL_QERR.QUEUE 0 (q / 64)) (q % 64) = true) ∧
        (d.status = 0 → getF m BELL_ERR.CODE q = getF s BELL_ERR.CODE q ∧ getF m BELL_QERR.QUEUE 0 (q / 64) = getF s BELL_QERR.QUEUE 0 (q / 64))) ∧
    ((eNocq d.entry && decide (d.status = 0)) = false → cqFull s q = true →
      ∃ t, exec (.commandComplete q) s = .next t ∧ getF t BELL_STAT.CQFULL q = 1 ∧ t.bell = s.bell ∧ t.mem = s.mem)) ∧
  (∀ (s : State) (q : Fin 256) (head : BitVec 16), ∃ t m, exec (.bellCqheadWrite q head) s = .next t ∧
    t = run (Act.when (cqFull s q) (postHeld q (bellQ s q).done.length)) m ∧ getF m BELL_CQHEAD.HEAD q = head.toNat ∧ getF m BELL_STAT.CQFULL q = b2n (cqFull m q) ∧
    m.mem = s.mem ∧ m.bell = s.bell) ∧
  (∀ (s : State) (who : Agent) (q : Fin 256), whoOn s who = true → reachesRegs s who (0xF00000100010 + 0x1000 * q.val) false = true →
    ∃ t, exec (.bellVisRead who q) s = .next t ∧ t.mem = s.mem ∧ t.regs = s.regs ∧
      (bellQ t q).vis = (bellQ s q).vis ++ [{ who := who, addr := BitVec.ofNat 48 (0xF00000100010 + 0x1000 * q.val), n := 8, seq := (bellQ s q).visSeq, waits := (bellQ s q).unseen.map fun w => w.id }] ∧
      (∀ w ∈ (bellQ s q).unseen, w.berth = none → .pcieRead (BitVec.ofNat 48 w.addr) 0 ∈ t.out) ∧
      ((∀ w ∈ (bellQ s q).unseen, w.berth ≠ none) → t.out = s.out)) ∧
  (∀ (s : State) (q : Fin 256) (v : VisRead) (vs : List VisRead), (bellQ s q).vis = v :: vs → visDone (bellQ s q) v = true →
    ∃ t, exec (.bellVisReply q) s = .next t ∧ getF t BELL_VIS.SEQ q = v.seq % 2 ^ 32 ∧ (bellQ t q).vis = vs ∧ t.mem = s.mem ∧
      t.out = .resp v.who v.addr (slice (natLe v.seq 8) (v.addr.toNat % 8) v.n) :: s.out)

/-- CMD_NOP, CMD_PUT, CMD_COPY, CMD_PLAN and its delivery, PCIE_DEVICE_WRITE, PCIE_DEVICE_READ. -/
def Obligations.CommandsAndDevices : Prop :=
  (∀ (s : State) (q : Fin 256) (c : BCmd), nextStart s q = some c → malformed c.entry = false → eOpcode c.entry = 0 →
    ∃ t n, exec (.cmdNop q) s = .next t ∧ bellQ t q = ({ bellQ s q with served := n } : BellQ).finish c 0 0 0 ∧ t.regs = s.regs ∧ t.mem = s.mem ∧ t.out = s.out) ∧
  (∀ (s : State) (q : Fin 256) (c : BCmd), nextStart s q = some c → malformed c.entry = true →
    ((eOpcode c.entry = 0 ∨ 3 < eOpcode c.entry) →
      ∃ t n, exec (.cmdNop q) s = .next t ∧ bellQ t q = ({ bellQ s q with served := n } : BellQ).finish c 2 0 0 ∧ t.regs = s.regs ∧ t.mem = s.mem) ∧
    (eOpcode c.entry = 1 → ∃ t n, exec (.cmdPut q) s = .next t ∧ bellQ t q = ({ bellQ s q with served := n } : BellQ).finish c 2 0 0 ∧ t.regs = s.regs ∧ t.mem = s.mem) ∧
    (eOpcode c.entry = 2 → ((bellQ s q).cmds.find? (copyReady s q)) = none → copiesTake s = true →
      ∃ t n, exec (.cmdCopy q) s = .next t ∧ bellQ t q = ({ bellQ s q with served := n } : BellQ).finish c 2 0 0 ∧ t.regs = s.regs ∧ t.mem = s.mem) ∧
    (eOpcode c.entry = 3 → ∃ t n, exec (.cmdPlan q) s = .next t ∧ bellQ t q = ({ bellQ s q with served := n } : BellQ).finish c 2 0 0 ∧ t.regs = s.regs ∧ t.mem = s.mem)) ∧
  (∀ (s : State) (q : Fin 256) (c : BCmd), nextStart s q = some c → malformed c.entry = false → eOpcode c.entry = 1 →
    cdmaHeld s (putPieces c) = false →
    ((isWarehouse (eDst c.entry) || isQuay (eDst c.entry) || isPcie (eDst c.entry)) = true →
      firstFault s (putPieces c) = none →
      ∃ t, exec (.cmdPut q) s = .next t ∧ (bellQ t q).cmds = (bellQ s q).cmds.erase c ∧ (∀ r i j, r ≠ .COH_HOLDSNP → getReg t r i j = getReg s r i j) ∧
        (bellQ t q).done = (bellQ s q).done ++ [{ entry := c.entry, index := c.index, status := 0, result := (ePayload c.entry).length, detail := 0 }] ∧
        ((isWarehouse (eDst c.entry) || isQuay (eDst c.entry)) = true → eDst c.entry % 64 + (ePayload c.entry).length ≤ 64 →
          Cells.look s.coh.dir (eDst c.entry / 64) = none → isPoisoned s (eDst c.entry) = false →
          readMem t (eDst c.entry) (ePayload c.entry).length = ePayload c.entry ∧
          ∀ b, b < eDst c.entry ∨ eDst c.entry + (ePayload c.entry).length ≤ b → readByte t b = readByte s b)) ∧
    (∀ x, (isWarehouse (eDst c.entry) || isQuay (eDst c.entry)) = true →
      firstFault s (putPieces c) = some x →
      ∃ t, exec (.cmdPut q) s = .next t ∧ (bellQ t q).cmds = (bellQ s q).cmds.erase c ∧ (∀ r i j, r ≠ .COH_HOLDSNP → getReg t r i j = getReg s r i j) ∧ Safety.Logged .accessFault s t ∧
        (bellQ t q).done = (bellQ s q).done ++ [{ entry := c.entry, index := c.index, status := 3, result := x - eDst c.entry, detail := x }])) ∧
  (∀ (s : State) (q : Fin 256) (c : BCmd), ((bellQ s q).cmds.find? (copyReady s q)) = none →
    nextStart s q = some c → malformed c.entry = false → eOpcode c.entry = 2 → ePrefill c.entry = false →
    copiesTake s = true → copyHeld s c.entry = false → fetchMissing s (copyFor q c.entry) (piecesOf (eSrc c.entry) (eLen c.entry) false false) = [] → fetchDue s (copyFor q c.entry) = false →
    (copyStop s q c.entry = (eLen c.entry, none, none) → (isWarehouse (eSrc c.entry) || isQuay (eSrc c.entry)) = true →
      (isWarehouse (eDst c.entry) || isQuay (eDst c.entry)) = true →
      eSrc c.entry % 64 + eLen c.entry ≤ 64 → eDst c.entry % 64 + eLen c.entry ≤ 64 → Cells.look s.coh.dir (eDst c.entry / 64) = none →
      isPoisoned s (eDst c.entry) = false →
      ∃ t, exec (.cmdCopy q) s = .next t ∧ readMem t (eDst c.entry) (eLen c.entry) = readMem s (eSrc c.entry) (eLen c.entry) ∧
        (∀ b, b < eDst c.entry ∨ eDst c.entry + eLen c.entry ≤ b → readByte t b = readByte s b) ∧ (bellQ t q).cmds.length + 1 = (bellQ s q).cmds.length ∧
        (bellQ t q).done = (bellQ s q).done ++ [{ entry := c.entry, index := c.index, status := 0, result := eLen c.entry, detail := 0 }] ∧ t.regs = s.regs) ∧
    ((copyStop s q c.entry).2.2 ≠ none → ∃ t, exec (.cmdCopy q) s = .next t ∧ (bellQ t q).done = (bellQ s q).done ∧
      (bellQ t q).cmds = (bellQ s q).cmds.map fun y => if y = c then { c with st := .copying } else y)) ∧
  (∀ (s : State) (q : Fin 256) (c : BCmd), nextStart s q = some c → malformed c.entry = false → eOpcode c.entry = 3 →
    ∃ t, exec (.cmdPlan q) s = .next t ∧ t.mem = s.mem ∧ (bellQ t q).done = (bellQ s q).done ∧
      (getB s TIDE_PLAN.VALID (ePart c.entry) = false → getF t TIDE_PLAN.VALID (ePart c.entry) = 1 ∧
        getF t TIDE_PLAN.ADDR (ePart c.entry) = eSrc c.entry / 64 % 2 ^ TIDE_PLAN.ADDR.width ∧
        (bellQ t q).cmds = (bellQ s q).cmds.map fun y => if y = c then { c with st := .planned } else y) ∧
      (getB s TIDE_PLAN.VALID (ePart c.entry) = true → t.regs = s.regs ∧
        (bellQ t q).cmds = (bellQ s q).cmds.map fun y => if y = c then { c with st := .planWait } else y)) ∧
  (∀ (s : State) (q : Fin 256) (c : BCmd),
    ((bellQ s q).cmds.find? fun c => decide (c.st = .planWait) && !getB s TIDE_PLAN.VALID (ePart c.entry)) = some c →
    ∃ t, exec (.cmdPlanDeliver q) s = .next t ∧ t.mem = s.mem ∧ getF t TIDE_PLAN.VALID (ePart c.entry) = 1 ∧
      getF t TIDE_PLAN.ADDR (ePart c.entry) = eSrc c.entry / 64 % 2 ^ TIDE_PLAN.ADDR.width ∧
      (bellQ t q).cmds = (bellQ s q).cmds.map fun y => if y = c then { c with st := .planned } else y) ∧
  (∀ (s : State) (n : Fin 4) (a : Addr) (bs : List Byte),
    (isMsi s a.toNat bs.length = true → ∃ t, exec (.pcieDeviceWrite n a bs) s = .next t ∧ t = { s with out := .interruptMessage a bs :: s.out }) ∧
    (isMsi s a.toNat bs.length = false → iommuAdmits s n a.toNat bs.length = false → ∃ t, exec (.pcieDeviceWrite n a bs) s = .next t ∧
      getF t BELL_IOMMU.WBLOCK 0 n = min (getF s BELL_IOMMU.WBLOCK 0 n + 1) (2 ^ 32 - 1) ∧ Safety.Logged .iommuRefused s t ∧ t.mem = s.mem ∧ t.out = s.out) ∧
    (isMsi s a.toNat bs.length = false → iommuAdmits s n a.toNat bs.length = true → 0 < bs.length → a.toNat % 64 + bs.length ≤ 64 →
      (isWarehouse a.toNat || isQuay a.toNat) = true → route s { a := a.toNat, n := bs.length, wr := true, rebuild := false } = .mem a.toNat none →
      Cells.look s.coh.dir (a.toNat / 64) = none → isPoisoned s a.toNat = false →
      ∃ t, exec (.pcieDeviceWrite n a bs) s = .next t ∧ readMem t a.toNat bs.length = bs ∧ t.regs = s.regs ∧
        ∀ b, b < a.toNat ∨ a.toNat + bs.length ≤ b → readByte t b = readByte s b)) ∧
  (∀ (s : State) (n : Fin 4) (a : Addr) (k : Nat),
    (iommuAdmits s n a.toNat k = false → ∃ t, exec (.pcieDeviceRead n a k) s = .next t ∧ t.out = .unsupported n.val a :: s.out ∧
      getF t BELL_IOMMU.RBLOCK 0 n = min (getF s BELL_IOMMU.RBLOCK 0 n + 1) (2 ^ 32 - 1) ∧ Safety.Logged .iommuRefused s t ∧ t.mem = s.mem) ∧
    (iommuAdmits s n a.toNat k = true → 0 < k → a.toNat % 64 + k ≤ 64 → (isWarehouse a.toNat || isQuay a.toNat) = true →
      route s { a := a.toNat, n := k, wr := false, rebuild := false } = .mem a.toNat none →
      ∃ t, exec (.pcieDeviceRead n a k) s = .next t ∧ t.out = .resp (.pcie n) a (readMem s a.toNat k) :: s.out ∧ t.mem = s.mem ∧ t.regs = s.regs))

/-- CUS_SUBPTR.TAIL, CUSTOMS_CHECK, RUN and its end, DECODE_COMPLETE, CUS_HOSTDONE, DEADLINE_DROP, CUS_CTL.RESTORE, CUS_CFG.EN. -/
def Obligations.InputPipeline : Prop :=
  (∀ (s : State) (v : BitVec 32),
    (cusWorks s 0 = false → ∃ t, exec (.cusSubptrTail v) s = .next t ∧ getF t CUS_SUBPTR.TAIL = v.toNat ∧ getF t CUS_SUBPTR.HEAD = getF s CUS_SUBPTR.HEAD ∧
      t.cus = s.cus ∧ t.mem = s.mem) ∧
    (cusWorks s 0 = true → ringSize (getF s CUS_SUBQ.SIZE) ≠ 0 → v.toNat = (getF s CUS_SUBPTR.HEAD + 1) % ringSize (getF s CUS_SUBQ.SIZE) →
      getF s CUS_SUBPTR.HEAD < ringSize (getF s CUS_SUBQ.SIZE) →
      bitOf (readNat s (getF s CUS_SUBQ.ADDR * 32 + 32 * getF s CUS_SUBPTR.HEAD + 8) 1) 0 = false →
      ∃ t, exec (.cusSubptrTail v) s = .next t ∧ getF t CUS_SUBPTR.TAIL = v.toNat ∧ getF t CUS_SUBPTR.HEAD = v.toNat ∧ t.mem = s.mem ∧
        t.cus.nextIndex = s.cus.nextIndex + 1 ∧ t.cus.epoch = s.cus.epoch ∧
        t.cus.subs = s.cus.subs ++ [{ index := s.cus.nextIndex, epoch := s.cus.epoch, shuffle := s.cus.shuffle, addr := readNat s (getF s CUS_SUBQ.ADDR * 32 + 32 * getF s CUS_SUBPTR.HEAD) 8 }])) ∧
  (∀ (s m : State) (x : SubEnt) (l : List SubEnt), m = run customsReads s → m.cus.subs = x :: l → cusWorks m 0 = true → cusReadable m x.addr 64 = true →
    (balePasses m (descOf (readMem m x.addr 64)) = false →
      ∃ t, exec .customsCheck s = .next t ∧ t.cus.subs = l ∧ getF t CUS_DROP.REJECT = min (getF m CUS_DROP.REJECT + 1) (2 ^ 16 - 1) ∧
        getF t CUS_EVT.DROP = 1 ∧ Safety.Logged .sampleDrop m t) ∧
    (balePasses m (descOf (readMem m x.addr 64)) = true → getF m CUS_CFG.WINDOW ≤ m.cus.win.length → ∃ t, exec .customsCheck s = .next t ∧ t = m) ∧
    (balePasses m (descOf (readMem m x.addr 64)) = true → m.cus.win.length < getF m CUS_CFG.WINDOW →
      (baleType (descOf (readMem m x.addr 64)) = 0 → cusReadable m (x.addr + 64) (baleBytes (descOf (readMem m x.addr 64))) = true) →
      ∃ t u w, exec .customsCheck s = .next t ∧ t = run emitAll u ∧ u.cus.subs = l ∧ u.cus.win = m.cus.win ++ [w] ∧ w.sub = x ∧
        w.hdr = descOf (readMem m x.addr 64) ∧ w.bytes = baleBytes w.hdr ∧ w.tide = getF m TIDE_COUNT.COUNT ∧
        (baleType w.hdr = 0 → w.st = .done ∧ w.data = readMem m (x.addr + 64) (baleBytes w.hdr)) ∧ (baleType w.hdr = 1 → w.st = .decoding) ∧
        (baleType w.hdr = 2 → w.st = .host) ∧ u.regs = m.regs ∧ u.mem = m.mem)) ∧
  (∀ (s : State) (u : Fin 2) (d : Desc) (l : List Desc), s.cus.items u = d :: l → s.cus.running u = none →
    ∃ t, exec (.run u) s = .next t ∧ t.cus.items u = l ∧
      (dOpcode d = 0xD0 → t.cus.running u = some d) ∧
      (dOpcode d ≠ 0xD0 → t.cus.running u = none ∧ getF t CUS_EVT.BADITEM = 1 ∧ Safety.Logged .badItem s t)) ∧
  (∀ (s : State) (u : Fin 2) (d : Desc), s.cus.running u = some d →
    ∃ t, exec (.runComplete u) s = .next t ∧ t.cus.running u = none ∧ t.cus.items u = s.cus.items u) ∧
  (∀ (s : State) (k : Nat) (r : Option (List Byte)) (w : WinEnt), (((s.cus.win.filter fun w => w.st = .decoding).take 16).find? fun w => w.sub.index = k) = some w →
    cusWorks s 1 = true →
    (pastDeadline s w = true → ∃ t, exec (.decodeComplete k r) s = .next t ∧ getF t CUS_DROP.DEADLINE = min (getF s CUS_DROP.DEADLINE + 1) (2 ^ 16 - 1) ∧
      Safety.Logged .sampleDrop s t) ∧
    (pastDeadline s w = false → cusReadable s (w.sub.addr + 64) (balePaylen w.hdr) = true →
      (r = none → ∃ t, exec (.decodeComplete k r) s = .next t ∧ getF t CUS_DROP.CORRUPT = min (getF s CUS_DROP.CORRUPT + 1) (2 ^ 16 - 1) ∧ Safety.Logged .sampleDrop s t) ∧
      (∀ d, r = some d → (jpegAgrees s w = false ∨ d.length ≠ w.bytes) → ∃ t, exec (.decodeComplete k r) s = .next t ∧
        getF t CUS_DROP.CORRUPT = min (getF s CUS_DROP.CORRUPT + 1) (2 ^ 16 - 1) ∧ Safety.Logged .sampleDrop s t) ∧
      (∀ d, r = some d → jpegAgrees s w = true → d.length = w.bytes →
        ∃ t u, exec (.decodeComplete k r) s = .next t ∧ t = run emitAll u ∧ u.regs = s.regs ∧ u.mem = s.mem ∧
          u.cus.win = s.cus.win.map fun x => if x.sub = w.sub then { x with st := .done, data := decoderOut s w d } else x))) ∧
  (∀ (s : State) (v : W64),
    ((s.cus.win.find? fun w => w.st = .host && decide (w.sub.index = v.toNat) && !pastDeadline s w) = none →
      ∃ t, exec (.cusHostdone v) s = .next t ∧ getF t CUS_DROP.LATEHOST = min (getF s CUS_DROP.LATEHOST + 1) (2 ^ 16 - 1) ∧ t.cus = s.cus ∧ t.mem = s.mem) ∧
    (∀ w, (s.cus.win.find? fun w => w.st = .host && decide (w.sub.index = v.toNat) && !pastDeadline s w) = some w →
      cusReadable s (getF s CUS_HOSTSTAGE.ADDR * 64 + w.slot * slotBytes s + 64) w.bytes = true →
      ∃ t u, exec (.cusHostdone v) s = .next t ∧ t = run emitAll u ∧ u.regs = s.regs ∧ u.mem = s.mem ∧
        u.cus.win = s.cus.win.map fun x => if x.sub = w.sub then
          { x with st := .done, data := readMem s (getF s CUS_HOSTSTAGE.ADDR * 64 + w.slot * slotBytes s + 64) w.bytes }
        else x)) ∧
  (∀ s : State, ∃ t, exec .deadlineDrop s = .next t ∧
    getF t CUS_DROP.DEADLINE = min (getF s CUS_DROP.DEADLINE + (s.cus.win.filter fun w => decide (w.st ≠ .done) && pastDeadline s w).length) (2 ^ 16 - 1)) ∧
  (∀ s : State,
    ((match cusPart? s with | some p => holdsPlan s p | none => false) = true →
      ∃ t, exec .cusCtlRestore s = .next t ∧ t.regs = s.regs ∧ t.cus = s.cus ∧ t.mem = s.mem ∧ Safety.Logged .restoreIgnored s t) ∧
    ((match cusPart? s with | some p => holdsPlan s p | none => false) = false →
      ∃ t, exec .cusCtlRestore s = .next t ∧ getF t CUS_STAT.CUR = 0 ∧ getF t CUS_SUBPTR.HEAD = 0 ∧ getF t CUS_SUBPTR.TAIL = 0 ∧ t.cus.win = [] ∧ t.cus.subs = [] ∧
        t.cus.epoch = readNat s (manifestAddr s) 8 ∧ t.cus.shuffle = BitVec.ofNat 64 (readNat s (manifestAddr s + 8) 8) ∧
        t.cus.nextIndex = readNat s (manifestAddr s + 16) 8 ∧ t.cus.record.drops = readNat s (manifestAddr s + 24) 8 ∧ t.mem = s.mem)) ∧
  (∀ s : State,
    ((partOfUnit s 515 = none ∨ partOfUnit s 515 = cusPart? s) → chartF s 0xE 0x28 8 + 64 ≤ slotBytes s → ∃ t, exec .cusCfgEn s = .next t ∧ getF t CUS_CFG.EN = 1 ∧ t.cus = s.cus ∧ t.mem = s.mem) ∧
    ((partOfUnit s 515 ≠ none ∧ partOfUnit s 515 ≠ cusPart? s) ∨ slotBytes s < chartF s 0xE 0x28 8 + 64 →
      ∃ t, exec .cusCfgEn s = .next t ∧ getF t CUS_EVT.CFGERR = 1 ∧ getF t CUS_CFG.EN = getF s CUS_CFG.EN ∧ t.cus = s.cus ∧ t.mem = s.mem))

/-- BUDGET_MESSAGE_SEND, BUDGET_MESSAGE, ALLOTMENT_SEND, ALLOTMENT, IDLE_SLOTS_BEGIN, LIMITER_GATE, CRITICAL_TEMPERATURE and its end, POWER_MODEL_CALIBRATE. -/
def Obligations.EnergyMessages : Prop :=
  (∀ (s : State) (d : Fin 6) (temp margin : BitVec 16), ∃ t f, exec (.budgetMessageSend d temp margin) s = .next t ∧ t.out = .mgmtFlit f :: s.out ∧ t.regs = s.regs ∧
    t.mem = s.mem ∧ flitOk f = true ∧ dByte f 0 = 1 ∧ dByte f 1 = d ∧ dByte f 8 8 = endedTide s ∧ dByte f 0x10 4 = getF s EN_LEDGER.USED d ∧
    dByte f 0x14 4 = plannedOf s d % 2 ^ 32) ∧
  (∀ (s : State) (f : Desc),
    ((flitOk f && decide (dByte f 0 = 1) && decide (dByte f 1 ≤ 5) && decide (dByte f 8 8 = endedTide s)) = true →
      ∃ t, exec (.budgetMessage f) s = .next t ∧ t.regs = s.regs ∧ t.mem = s.mem ∧
        Cells.look t.en.msgs (dByte f 1) = some { planned := dByte f 0x14 4, temp := signedOf (dByte f 0x1C 2) 16 }) ∧
    ((flitOk f && decide (dByte f 0 = 1) && decide (dByte f 1 ≤ 5) && decide (dByte f 8 8 = endedTide s)) = false →
      ∃ t, exec (.budgetMessage f) s = .next t ∧ t = s)) ∧
  (∀ (s : State) (eta : Fin 1001), ∃ t l, exec (.allotmentSend eta) s = .next t ∧ t.mem = s.mem ∧ t.out = l ++ s.out ∧ l.length = 6 ∧ t.en.msgs = [] ∧
    t.en.eta = eta.val ∧ (∀ o ∈ l, ∃ f, o = .mgmtFlit f ∧ flitOk f = true ∧ dByte f 0 = 2 ∧ dByte f 8 8 = getF s TIDE_COUNT.COUNT) ∧
    (∀ m : State, m = { s with en := { s.en with eta := eta.val } } → capS m * periodNow m < sumNat ((List.range 6).map fun d => dieFloor m d) →
      getF t EN_EVT.CAPLOW = 1 ∧ Safety.Logged .capLow s t)) ∧
  (∀ (s : State) (f : Desc),
    ((flitOk f && decide (dByte f 0 = 2) && decide (dByte f 1 ≤ 5) && decide (dByte f 8 8 = getF s TIDE_COUNT.COUNT)) = true →
      ∃ t, exec (.allotment f) s = .next t ∧ t.mem = s.mem ∧ t.out = s.out ∧ getF t EN_LEDGER.ALLOT (dByte f 1) = dByte f 0x14 4 ∧
        Cells.look t.en.allots (dByte f 1) = some (dByte f 0x14 4, dByte f 2 % 4) ∧ Cells.get 0 t.en.misses (dByte f 1) = 0 ∧
        (dByte f 1 < 4 → Cells.look t.en.chosen (dByte f 1) = some (chooseState t (dByte f 1) (dByte f 0x14 4) (max (dByte f 2 % 4) (getF s AGE_DIE.CEIL (dByte f 1)))))) ∧
    ((flitOk f && decide (dByte f 0 = 2) && decide (dByte f 1 ≤ 5) && decide (dByte f 8 8 = getF s TIDE_COUNT.COUNT)) = false →
      ∃ t, exec (.allotment f) s = .next t ∧ t = s)) ∧
  (∀ (s : State) (d : Fin 4),
    (getF s EN_STATE.SLOTS d ≠ 0 → d.val ∉ s.en.slots → ∃ t, exec (.idleSlotsBegin d) s = .next t ∧ getF t EN_STATE.PSTATE d = getF s EN_STATE.PSTATE d % 4 + 4 ∧
      getF t EN_COUNT.SLOTS = min (getF s EN_COUNT.SLOTS + getF s EN_STATE.SLOTS d) (2 ^ 32 - 1) ∧ t.en.slots = d.val :: s.en.slots ∧ t.mem = s.mem) ∧
    (getF s EN_STATE.SLOTS d = 0 ∨ d.val ∈ s.en.slots → ∃ t, exec (.idleSlotsBegin d) s = .next t ∧ t = s)) ∧
  (∀ (s : State) (d : Fin 4),
    (d.val ∉ s.en.limited → ∃ t, exec (.limiterGate d) s = .next t ∧ d.val ∈ t.en.limited ∧ getF t EN_EVT.LIMIT = 1 ∧
      getF t EN_COUNT.LIMIT = min (getF s EN_COUNT.LIMIT + 1) (2 ^ 32 - 1) ∧ Safety.Logged .limiter s t ∧ t.mem = s.mem) ∧
    (d.val ∈ s.en.limited → ∃ t, exec (.limiterGate d) s = .next t ∧ t = s)) ∧
  (∀ (s : State) (d : Fin 5), (∃ t, exec (.criticalTemperature d) s = .next t ∧ d.val ∈ t.en.critical ∧ t.regs = s.regs ∧ t.mem = s.mem) ∧
    (d.val ∈ s.en.critical → ∃ t, exec (.criticalTemperatureClear d) s = .next t ∧ d.val ∉ t.en.critical ∧ getF t EN_EVT.CRIT = 1 ∧ Safety.Logged .criticalTemp s t ∧
      t.mem = s.mem) ∧
    (d.val ∉ s.en.critical → ∃ t, exec (.criticalTemperatureClear d) s = .next t ∧ t = s)) ∧
  (∀ (s : State) (d : Fin 4) (i g : List Nat),
    (i.length = 3 → g.length = 3 → ∃ t, exec (.powerModelCalibrate d i g) s = .next t ∧ t.regs = s.regs ∧ t.mem = s.mem ∧
      ∀ st, idleW t d st = i.getD st 0 ∧ gatedW t d st = g.getD st 0) ∧
    (i.length ≠ 3 ∨ g.length ≠ 3 → ∃ t, exec (.powerModelCalibrate d i g) s = .next t ∧ t = s))

/-- GAUGE_SAMPLE, GAUGE_FORCED_SAMPLE, AVS_POLL, EN_CTL.DARK, EN_CTL.SB, SB_ENTRY, SB_DRAIN_TIMEOUT, DD_EXIT_COMPLETE. -/
def Obligations.GaugesAndDarkness : Prop :=
  (∀ (s : State) (d : Fin 6) (r : List (Nat × BitVec 8)),
    (d.val ∈ s.en.ageSched → r.length = (gaugesOf d).2 →
      ∃ t, exec (.gaugeSample d r) s = .next t ∧ t.mem = s.mem ∧ d.val ∉ t.en.ageSched ∧ Cells.look t.en.ageWait d = none ∧ Safety.Logged .voltageReplan s t ∧
        getF t AGE_DIE.WORST d = min 255 ((r.map fun x => x.1).foldl min (r.headD (0, 0)).1) ∧
        ∀ k x, r[k]? = some x → getF t AGE_GAUGE.TIDE ((gaugesOf d).1 + k) = getF s TIDE_COUNT.COUNT ∧
          getF t AGE_GAUGE.TEMP ((gaugesOf d).1 + k) = x.2.toNat ∧ getF t AGE_GAUGE.SLACK ((gaugesOf d).1 + k) = min 255 x.1) ∧
    (d.val ∉ s.en.ageSched ∨ r.length ≠ (gaugesOf d).2 → ∃ t, exec (.gaugeSample d r) s = .next t ∧ t = s)) ∧
  (∀ (s : State) (d : Fin 6) (r : List (Nat × BitVec 8)) (n : Nat), Cells.look s.en.ageWait d = some n →
    (n + 1024 ≤ getF s TIDE_COUNT.COUNT → r.length = (gaugesOf d).2 →
      ∃ t, exec (.gaugeForcedSample d r) s = .next t ∧ t.mem = s.mem ∧ getF t AGE_EVT.FORCED = 1 ∧ Cells.look t.en.ageWait d = none ∧
        getF t AGE_DIE.WORST d = min 255 ((r.map fun x => x.1).foldl min (r.headD (0, 0)).1)) ∧
    (getF s TIDE_COUNT.COUNT < n + 1024 → ∃ t, exec (.gaugeForcedSample d r) s = .next t ∧ t = s)) ∧
  (∀ s : State, (∀ w, ∃ t, exec (.avsPoll (some w)) s = .next t ∧ getF t EN_BOARD.AVSLIM = w.toNat ∧ getF t EN_BOARD.AVSV = 1 ∧ t.mem = s.mem) ∧
    ∃ t, exec (.avsPoll none) s = .next t ∧ t = s) ∧
  (∀ (s : State) (k : BitVec 3),
    (5 ≤ k.toNat → ∃ t, exec (.enCtlDark k) s = .next t ∧ t = s) ∧
    (1 ≤ k.toNat → k.toNat ≤ 4 → (otherDark s (k.toNat - 1) || dieHasPlan s (k.toNat - 1)) = true →
      ∃ t, exec (.enCtlDark k) s = .next t ∧ getF t EN_EVT.DDREF = 1 ∧ getF t EN_CTL.DARK = getF s EN_CTL.DARK ∧ t.en = s.en ∧ Safety.Logged .darkRefused s t) ∧
    (k.toNat ≤ 4 → (k.toNat = 0 ∨ (otherDark s (k.toNat - 1) || dieHasPlan s (k.toNat - 1)) = false) →
      ∃ t, exec (.enCtlDark k) s = .next t ∧ getF t EN_CTL.DARK = k.toNat ∧ t.en.darkNext = some k.toNat ∧ t.mem = s.mem)) ∧
  (∀ s : State,
    (s.en.sb ≠ .off → ∃ t, exec .enCtlSb s = .next t ∧ t = s) ∧
    (s.en.sb = .off → allDrained s = true → ∃ t, exec .enCtlSb s = .next t ∧ t.en.sb = .software ∧ t.regs = s.regs ∧ t.mem = s.mem) ∧
    (s.en.sb = .off → allDrained s = false → ∃ t, exec .enCtlSb s = .next t ∧ getF t EN_EVT.SBREF = 1 ∧ t.en = s.en ∧ t.mem = s.mem)) ∧
  (∀ s : State,
    ((s.en.sb = .software ∨ (s.en.sb = .board ∧ allDrained s = true)) →
      ∃ t, exec .sbEntry s = .next t ∧ t.en.sb = .standby ∧ t.pow.ready = false ∧ t.rst.held = [1, 2, 3, 4, 5, 6] ∧ getReg t .ID_DIEMAP 0 0 = 0x3FF) ∧
    (s.en.sb = .off ∨ s.en.sb = .standby ∨ (s.en.sb = .board ∧ allDrained s = false) → ∃ t, exec .sbEntry s = .next t ∧ t = s) ∧
    (s.en.sb = .board → ∃ t, exec .sbDrainTimeout s = .next t ∧ t.en.sb = .standby ∧ t.pow.ready = false ∧ t.rst.held = [1, 2, 3, 4, 5, 6] ∧
      getReg t .ID_DIEMAP 0 0 = 0x3FF) ∧
    (s.en.sb ≠ .board → ∃ t, exec .sbDrainTimeout s = .next t ∧ t = s)) ∧
  (∀ (s : State) (d : Fin 4),
    (s.en.waking = some d.val → s.en.darkDue = false → ∃ t, exec (.ddExitComplete d) s = .next t ∧ t.en.dark = none ∧ t.en.waking = none ∧ t.mem = s.mem ∧
      (dieState s d = 1 → dieState t d = 0) ∧ getF t EN_STATE.PSTATE d = getF s EN_STATE.PSTATE d % 8) ∧
    (s.en.waking ≠ some d.val ∨ s.en.darkDue = true → ∃ t, exec (.ddExitComplete d) s = .next t ∧ t = s))

/-- LINK_UP, HURAL_CTL.OPEN, CLOSE, REKEY, HANDSHAKE, SESSION_RETRY, REKEY_DUE, PORT_HOLD_EXPIRY, CLOSE, PARTNER_ABSENT, PARTNER_SLOW, PARTNER_STUCK, QUARANTINE_RETRAIN, QUARANTINE_END. -/
def Obligations.HuralSessions : Prop :=
  (∀ (s : State) (n : Fin 18),
    (∀ o, (portSt s n).barred = true → ∃ t, exec (.linkUp n o) s = .next t ∧ t = s) ∧
    ((portSt s n).barred = false →
      (∃ t, exec (.linkUp n false) s = .next t ∧ getF t HURAL_STAT.STATE n = 1 ∧ (portSt t n).link = false ∧ Safety.Logged .portTraining s t ∧ t.mem = s.mem) ∧
      (sessionUp s n = false → mayOpen s = true → getB s HURAL_CFG.EN n = true →
        ∃ t nonce, exec (.linkUp n true) s = .next t ∧ getF t HURAL_STAT.STATE n = 2 ∧ (portSt t n).link = true ∧ (portSt t n).set.isSome = true ∧ t.mem = s.mem ∧
          t.out = .handshake n (.hello 1 (getReg s .IDREV 0 0) (BitVec.ofNat 8 (ownBerth s)) (BitVec.ofNat 8 (theChart s).flRole) nonce s.sec.idKey s.sec.endorsement) :: s.out) ∧
      (sessionUp s n = false → mayOpen s = false → ∃ t, exec (.linkUp n true) s = .next t ∧ (portSt t n).link = true ∧ t.regs = s.regs ∧ t.out = s.out ∧ t.mem = s.mem))) ∧
  (∀ (s : State) (n : Fin 18), ∃ t, exec (.huralCtlOpen n) s = .next t ∧ (portSt t n).barred = false ∧ t.mem = s.mem ∧
      (sessionUp s n = false → (portSt s n).link = true → mayOpen s = true → getF t HURAL_STAT.STATE n = 2 ∧ (portSt t n).set.isSome = true) ∧
      (sessionUp s n = true ∨ (portSt s n).link = false ∨ mayOpen s = false → t.regs = s.regs ∧ (portSt t n).want = true)) ∧
  (∀ (s : State) (n : Fin 18), ∃ t, exec (.huralCtlClose n) s = .next t ∧ t.mem = s.mem ∧
    (portState s n ≠ 6 → getF t HURAL_STAT.STATE n = 0 ∧ getF t HURAL_STAT.PARTNER n = 0) ∧ (portState s n = 6 → t = s)) ∧
  (∀ (s : State) (n : Fin 18), sessionUp s n = true → (portSt s n).rekey = none →
    (∃ t ek, exec (.huralCtlRekey n) s = .next t ∧ t.out = .handshake n (.encap ek) :: s.out ∧ (portSt t n).rekey.isSome = true ∧ t.regs = s.regs ∧ t.mem = s.mem) ∧
    ((portSt s n).txSeq < 2 ^ 63 → (portSt s n).rxSeq < 2 ^ 63 →
      ∃ t ek, exec (.rekeyDue n) s = .next t ∧ t.out = .handshake n (.encap ek) :: s.out ∧ (portSt t n).rekey.isSome = true ∧ t.regs = s.regs ∧ t.mem = s.mem) ∧
    ((portSt s n).retry = true →
      ∃ t ek, exec (.sessionRetry n) s = .next t ∧ t.out = .handshake n (.encap ek) :: s.out ∧ (portSt t n).retry = false ∧ (portSt t n).rekey.isSome = true ∧
        t.regs = s.regs ∧ t.mem = s.mem)) ∧
  (∀ (s : State) (n : Fin 18),
    (sessionUp s n = false ∨ (portSt s n).rekey ≠ none → ∃ t, exec (.huralCtlRekey n) s = .next t ∧ t.regs = s.regs ∧ t.hural = s.hural ∧ t.out = s.out) ∧
    (2 ^ 63 ≤ (portSt s n).txSeq ∨ 2 ^ 63 ≤ (portSt s n).rxSeq → ∃ t, exec (.rekeyDue n) s = .next t ∧ getF t HURAL_STAT.STATE n = 0 ∧ t.mem = s.mem) ∧
    ((portSt s n).retry = false → ∃ t, exec (.sessionRetry n) s = .next t ∧ t = s)) ∧
  (∀ (s : State) (n : Fin 18) (x : Exchange) (idrev : W64) (berth role : Byte) (nonce key e : List Byte), (portSt s n).set = some x → x.step = 1 →
    (idrev.toNat / 2 ^ 32 = (getReg s .IDREV 0 0).toNat / 2 ^ 32 → Config.mldsaVerify (ownerKey s) (endorsed key idrev) e = true →
      ∃ t y, exec (.handshake n (.hello 1 idrev berth role nonce key e)) s = .next t ∧ getF t HURAL_STAT.PEER n = berth.toNat ∧ (portSt t n).peerKey = key ∧
        (portSt t n).set = some y ∧ (y.step = 2 ∨ y.step = 3) ∧ t.mem = s.mem) ∧
    (Config.mldsaVerify (ownerKey s) (endorsed key idrev) e = false → (recent s.now oneSecond (portSt s n).hostile).length ≤ max 1 (getF s HURAL_THRESH.HOSTILE) →
      ∃ t, exec (.handshake n (.hello 1 idrev berth role nonce key e)) s = .next t ∧ getF t HURAL_STAT.STATE n = 0 ∧ (portSt t n).set = none ∧
        (portSt t n).retry = true ∧ getF t HURAL_HOSTILE.AUTH n = min (getF s HURAL_HOSTILE.AUTH n + 1) (2 ^ 16 - 1) ∧ t.mem = s.mem)) ∧
  (∀ (s : State) (n : Fin 18) (x : Exchange) (sig : List Byte) (sw : Nat), (portSt s n).set = some x → x.step = 4 →
    Config.mldsaVerify (sha3_256 (portSt s n).peerKey) (sha3_256 x.transcript) sig = true →
    ∃ t, exec (.handshake n (.finish sig sw)) s = .next t ∧ (portSt t n).set = some { x with step := 5 } ∧ (portSt t n).rxSeq = 0 ∧ (portSt t n).txSeq = 1 ∧
      t.regs = s.regs ∧ t.mem = s.mem) ∧
  (∀ (s : State) (n : Fin 18) (m : HsMsg), (portSt s n).set = none → sessionUp s n = false → ∃ t, exec (.handshake n m) s = .next t ∧ t = s) ∧
  (∀ s : State, (s.hural.hold = true → ∃ t m, exec .portHoldExpiry s = .next t ∧ t = run (Act.each tryOpen (List.range 18)) m ∧ m.hural.hold = false ∧ m.regs = s.regs) ∧
    (s.hural.hold = false → ∃ t, exec .portHoldExpiry s = .next t ∧ t = s)) ∧
  (∀ (s : State) (n : Fin 18) (r : Nat), ((portSt s n).ctl.findSome? fun c => match c with | .close r => some r | .nak _ => none) = some r →
    ∃ t, exec (.close n) s = .next t ∧ getF t HURAL_STAT.STATE n = 0 ∧ t.mem = s.mem ∧ (r ≠ 1 → getF t HURAL_STAT.PARTNER n = 0) ∧
      (r = 1 → getF t HURAL_STAT.PARTNER n = 1 ∧ getF t HURAL_EVT.ABSENT n = 1 ∧ Safety.Logged .partnerAbsent s t)) ∧
  (∀ (s : State) (n : Fin 18),
    (portState s n = 3 → ∃ t, exec (.partnerAbsent n) s = .next t ∧ getF t HURAL_STAT.STATE n = 4 ∧ getF t HURAL_STAT.PARTNER n = 1 ∧ getF t HURAL_EVT.ABSENT n = 1 ∧
      Safety.Logged .partnerAbsent s t ∧ t.mem = s.mem) ∧
    (portState s n ≠ 3 → ∃ t, exec (.partnerAbsent n) s = .next t ∧ t = s)) ∧
  (∀ (s : State) (n : Fin 18) (vc : Fin 4), portState s n = 3 → (portSt s n).creditOf vc = 0 → (portSt s n).slow = none →
    ∃ t, exec (.partnerSlow n vc) s = .next t ∧ getF t HURAL_STAT.PARTNER n = 2 ∧ getF t HURAL_EVT.SLOW n = 1 ∧
      getF t HURAL_STARVE.EPISODES n = min (getF s HURAL_STARVE.EPISODES n + 1) (2 ^ 24 - 1) ∧ Safety.Logged .partnerSlow s t ∧ t.mem = s.mem) ∧
  (∀ (s : State) (n : Fin 18), (portSt s n).slow ≠ none → sessionUp s n = true →
    ∃ t, exec (.partnerStuck n) s = .next t ∧ getF t HURAL_STAT.PARTNER n = 3 ∧ getF t HURAL_EVT.FAULTY n = 1 ∧ Safety.Logged .partnerFaulty s t ∧ t.mem = s.mem ∧
      getF t HURAL_STAT.STATE n = (if 3 ≤ (recent s.now oneHour (portSt s n).quarantines).length then 0 else 5)) ∧
  (∀ (s : State) (n : Fin 18),
    (portState s n = 5 → ∃ t, exec (.quarantineRetrain n) s = .next t ∧ getF t HURAL_STAT.STATE n = 1 ∧ (portSt t n).link = false ∧ t.mem = s.mem) ∧
    (portState s n ≠ 5 → ∃ t, exec (.quarantineRetrain n) s = .next t ∧ t = s) ∧
    (sessionUp s n = true → getF s HURAL_STAT.PARTNER n = 3 → ∃ t, exec (.quarantineEnd n) s = .next t ∧ getF t HURAL_STAT.PARTNER n = 0 ∧
      getF t HURAL_STAT.STATE n = getF s HURAL_STAT.STATE n ∧ t.hural = s.hural ∧ t.mem = s.mem) ∧
    (getF s HURAL_STAT.PARTNER n ≠ 3 → ∃ t, exec (.quarantineEnd n) s = .next t ∧ t = s))

/-- HURAL_FLIT_RECEIVE, ETH_FRAME_RECEIVE, NAK, FLIT_ACK_TIMEOUT, KEEPALIVE. -/
def Obligations.HuralFlits : Prop :=
  (∀ (s : State) (n : Fin 18) (f : List Byte) (c : Nat), sessionUp s n = false → (portSt s n).set = none → ∀ u,
    ∃ t, exec (.huralFlitReceive n f c u) s = .next t ∧ getF t HURAL_LINK.FECCE n = min (getF s HURAL_LINK.FECCE n + c) (2 ^ 32 - 1) ∧ t.hural = s.hural ∧ t.mem = s.mem ∧
      t.out = s.out) ∧
  (∀ (s : State) (n : Fin 18) (f : List Byte) (c : Nat), sessionUp s n = true →
    (∃ t, exec (.huralFlitReceive n f c true) s = .next t ∧ getF t HURAL_LINK.FECUE n = min (getF s HURAL_LINK.FECUE n + 1) (2 ^ 32 - 1) ∧
      getF t HURAL_LINK.FECCE n = min (getF s HURAL_LINK.FECCE n + c) (2 ^ 32 - 1) ∧ t.mem = s.mem) ∧
    (f.length ≠ 256 ∨ fieldAt f 0xFC 4 ≠ (crc32 (f.take 0xFC)).toNat →
      ∃ t, exec (.huralFlitReceive n f c false) s = .next t ∧ getF t HURAL_ERR.CRC n = min (getF s HURAL_ERR.CRC n + 1) (2 ^ 16 - 1) ∧
        getF t HURAL_LINK.FECCE n = min (getF s HURAL_LINK.FECCE n + c) (2 ^ 32 - 1) ∧ t.mem = s.mem) ∧
    (f.length = 256 → fieldAt f 0xFC 4 = (crc32 (f.take 0xFC)).toNat → ∀ d, d = (bitsOf (fieldAt f 0 8) 48 16 + 2 ^ 16 - (portSt s n).rxSeq % 2 ^ 16) % 2 ^ 16 →
      ∃ t, exec (.huralFlitReceive n f c false) s = .next t ∧ getF t HURAL_LINK.FECCE n = min (getF s HURAL_LINK.FECCE n + c) (2 ^ 32 - 1) ∧
        (2 ^ 16 - 1024 ≤ d → t.hural = s.hural ∧ t.out = s.out) ∧
        (1 ≤ d → d ≤ 1024 → getF t HURAL_ERR.GAP n = min (getF s HURAL_ERR.GAP n + 1) (2 ^ 16 - 1)) ∧
        (1024 < d → d < 2 ^ 16 - 1024 → getF t HURAL_HOSTILE.REPLAY n = min (getF s HURAL_HOSTILE.REPLAY n + 1) (2 ^ 16 - 1)) ∧
        (d = 0 → gcmOpen (keyAt (portSt s n).rxKeys (portSt s n).rxSeq).key ((keyAt (portSt s n).rxKeys (portSt s n).rxSeq).nonce (portSt s n).rxSeq)
            (f.take 8) (slice f 8 228) (slice f 0xEC 16) = none →
          getF t HURAL_HOSTILE.AUTH n = min (getF s HURAL_HOSTILE.AUTH n + 1) (2 ^ 16 - 1)) ∧
        (∀ body, d = 0 → gcmOpen (keyAt (portSt s n).rxKeys (portSt s n).rxSeq).key ((keyAt (portSt s n).rxKeys (portSt s n).rxSeq).nonce (portSt s n).rxSeq)
            (f.take 8) (slice f 8 228) (slice f 0xEC 16) = some body → (portSt s n).set = none → portState s n = 3 → (portSt s n).slow = none → (portSt s n).queue = [] →
          bitsOf (fieldAt f 0 8) 0 2 = 0 →
          (portSt t n).rxSeq = (portSt s n).rxSeq + 1 ∧ (portSt t n).acked = (portSt s n).ack (bitsOf (fieldAt f 0 8) 32 16) ∧ t.out = s.out ∧
          (portSt t n).creditOf (bitsOf (fieldAt f 0 8) 4 2) =
            min (vcBuffer (bitsOf (fieldAt f 0 8) 4 2)) ((portSt s n).creditOf (bitsOf (fieldAt f 0 8) 4 2) + bitsOf (fieldAt f 0 8) 16 16)))) ∧
  (∀ (s : State) (n : Fin 18) (f : List Byte),
    (getB s HURAL_CFG.MODE n = false → portState s n = 1 ∨ portState s n = 2 →
      ∃ t, exec (.ethFrameReceive n f) s = .next t ∧ getF t HURAL_STAT.STATE n = 1 ∧ (portSt t n).set = none ∧ t.mem = s.mem) ∧
    (getB s HURAL_CFG.MODE n = true → beNat (slice f 12 2) = 0x8808 →
      ∃ t, exec (.ethFrameReceive n f) s = .next t ∧ getF t HURAL_ERR.PAUSEDROP n = min (getF s HURAL_ERR.PAUSEDROP n + 1) (2 ^ 16 - 1) ∧ t.hural = s.hural ∧ t.mem = s.mem) ∧
    (getB s HURAL_CFG.MODE n = true → beNat (slice f 12 2) ≠ 0x8808 → beNat (slice f 12 2) ≠ 0x8100 →
      fieldAt f (f.length - 4) 4 ≠ (crc32 (f.take (f.length - 4))).toNat →
      ∃ t, exec (.ethFrameReceive n f) s = .next t ∧ getF t HURAL_ERR.CRC n = min (getF s HURAL_ERR.CRC n + 1) (2 ^ 16 - 1) ∧ t.mem = s.mem)) ∧
  (∀ (s : State) (n : Fin 18) (e : Nat), ((portSt s n).ctl.findSome? fun c => match c with | .nak e => some e | .close _ => none) = some e →
    ∃ t, exec (.nak n) s = .next t ∧ t.mem = s.mem ∧
      getF t HURAL_ERR.RETRY n = min (getF s HURAL_ERR.RETRY n + ((portSt s n).replay.filter fun r => decide (e ≤ r.seq)).length) (2 ^ 16 - 1)) ∧
  (∀ (s : State) (n : Fin 18),
    (∀ r, ((portSt s n).replay.find? fun r => decide ((portSt s n).acked ≤ r.seq) && decide (r.time + 16000 ≤ s.now)) = some r →
      ∃ t, exec (.flitAckTimeout n) s = .next t ∧ t.mem = s.mem ∧ (portSt t n).txSeq = (portSt s n).txSeq ∧
        getF t HURAL_ERR.RETRY n = min (getF s HURAL_ERR.RETRY n + ((portSt s n).replay.filter fun x => decide (r.seq ≤ x.seq)).length) (2 ^ 16 - 1)) ∧
    (((portSt s n).replay.find? fun r => decide ((portSt s n).acked ≤ r.seq) && decide (r.time + 16000 ≤ s.now)) = none →
      ∃ t, exec (.flitAckTimeout n) s = .next t ∧ t = s)) ∧
  (∀ (s : State) (n : Fin 18),
    (sessionUp s n = true → (portSt s n).queue = [] → getF s SHD_STAT.ROLE ≠ 3 →
      ∃ t f, exec (.keepalive n) s = .next t ∧ (portSt t n).txSeq = (portSt s n).txSeq + 1 ∧ t.regs = s.regs ∧ t.mem = s.mem ∧
        (getB s HURAL_CFG.MODE n = false → t.out = .flit n f :: s.out) ∧ (getB s HURAL_CFG.MODE n = true → t.out = .ethFrame n (ethFrame s n [f]) :: s.out)) ∧
    (sessionUp s n = false ∨ (portSt s n).queue ≠ [] → ∃ t, exec (.keepalive n) s = .next t ∧ t = s))

/-- WRITE, BULK, READ, WACK, RDATA, NACK, GRANTREQ, GRANT, FREE, EVICT, TSTAMP, LOST, PROBE, PROBEACK, PROBE_TIMEOUT, TAKEOVER. -/
def Obligations.HuralMessages : Prop :=
  (∀ (s : State) (n : Fin 19) (m : HMsg) (k : Nat),
    ((s.hural.inbox.find? fun e => e.1 = n.val && e.2.1.op = 0x01) = some (n.val, m, k) →
      ((lenderPieces s m.src true m.addr m.data.length).2 ≠ 0 →
        ∃ t u, exec (.write n) s = .next t ∧ t = run (answer m 5 (lenderPieces s m.src true m.addr m.data.length).2 []) u ∧ u.mem = s.mem ∧ u.regs = s.regs ∧
          u.hural.inbox = s.hural.inbox.erase (n.val, m, k)) ∧
      ((lenderPieces s m.src true m.addr m.data.length).2 = 0 → 0 < m.data.length → m.addr % 64 + m.data.length ≤ 64 →
        ∃ t u, exec (.write n) s = .next t ∧ t = run (answer m 2 m.addr []) u ∧ u.hural.inbox = s.hural.inbox.erase (n.val, m, k) ∧
          (Cells.look s.coh.dir ((poolBase s + m.addr) / 64) = none → u.regs = s.regs ∧ readMem u (poolBase s + m.addr) m.data.length = m.data ∧
            ∀ b, b < poolBase s + m.addr ∨ poolBase s + m.addr + m.data.length ≤ b → readByte u b = readByte s b))) ∧
    ((s.hural.inbox.find? fun e => e.1 = n.val && e.2.1.op = 0x30) = some (n.val, m, k) →
      (lenderPieces s m.src true m.addr m.data.length).2 = 0 → 0 < m.data.length → m.addr % 64 + m.data.length ≤ 64 →
      ∃ t u, exec (.bulk n) s = .next t ∧ t = run (.seq (answer m 2 m.addr []) (mirror m.addr m.data)) u ∧ u.hural.inbox = s.hural.inbox.erase (n.val, m, k) ∧
        (Cells.look s.coh.dir ((poolBase s + m.addr) / 64) = none → u.regs = s.regs ∧ readMem u (poolBase s + m.addr) m.data.length = m.data ∧
          ∀ b, b < poolBase s + m.addr ∨ poolBase s + m.addr + m.data.length ≤ b → readByte u b = readByte s b)) ∧
    ((s.hural.inbox.find? fun e => e.1 = n.val && (e.2.1.op = 0x03 && !lenderHeld s e.2.1)) = some (n.val, m, k) →
      ((lenderPieces s m.src false m.addr m.len).2 ≠ 0 → ∃ t u, exec (.read n) s = .next t ∧
        t = run (answer m 5 (lenderPieces s m.src false m.addr m.len).2 []) u ∧ u.mem = s.mem ∧ u.regs = s.regs) ∧
      ((lenderPieces s m.src false m.addr m.len).2 = 0 → ∃ t u, exec (.read n) s = .next t ∧ u.mem = s.mem ∧ u.regs = s.regs ∧
        u.hural.inbox = s.hural.inbox.erase (n.val, m, k) ∧
        t = run (answer m 4 m.addr ((lenderPieces s m.src false m.addr m.len).1.flatMap fun p => readMem s p.2.2 p.2.1)) u))) ∧
  (∀ (s : State) (n : Fin 19) (m : HMsg) (k : Nat) (r : OutReq), (s.hural.reqs.find? fun r => r.txn = m.txn && r.dst = m.src && !r.held) = some r →
    ((s.hural.inbox.find? fun e => e.1 = n.val && e.2.1.op = 0x02) = some (n.val, m, k) →
      ∃ t, exec (.wack n) s = .next t ∧ t.hural.reqs = s.hural.reqs.erase r ∧ t.hural.inbox = s.hural.inbox.erase (n.val, m, k) ∧ t.mem = s.mem ∧ t.regs = s.regs) ∧
    (∀ who a len, (s.hural.inbox.find? fun e => e.1 = n.val && e.2.1.op = 0x04) = some (n.val, m, k) → r.job = .read who a len →
      ∃ t, exec (.rdata n) s = .next t ∧ t.hural.reqs = s.hural.reqs.erase r ∧ t.out = .resp who a (m.data.take len) :: s.out ∧ t.mem = s.mem ∧ t.regs = s.regs) ∧
    ((s.hural.inbox.find? fun e => e.1 = n.val && e.2.1.op = 0x05) = some (n.val, m, k) →
      (∃ t u, exec (.nack n) s = .next t ∧ t = run (nackApply r (bitsOf m.addr 0 8)) u ∧ u.hural.reqs = s.hural.reqs.erase r ∧ u.mem = s.mem ∧ u.regs = s.regs) ∧
      (∀ who a len, r.job = .read who a len → (isObject a.toNat = false ∨ bitsOf m.addr 0 8 ≠ 4 ∧ bitsOf m.addr 0 8 ≠ 5) →
        ∃ t, exec (.nack n) s = .next t ∧ t.hural.reqs = s.hural.reqs.erase r ∧ t.out = .accessFault who a :: s.out ∧ Safety.Logged .accessFault s t)) ∧
    (∀ p, (s.hural.inbox.find? fun e => e.1 = n.val && e.2.1.op = 0x21) = some (n.val, m, k) → r.job = .grant p → s.tier.mig = .waitFrame →
      (m.addr = 2 ^ 64 - 1 → ∃ t u, exec (.grant n) s = .next t ∧ t = run (migFinish 3) u ∧ u.hural.reqs = s.hural.reqs.erase r ∧ u.mem = s.mem ∧ u.regs = s.regs) ∧
      (∀ a, m.addr ≠ 2 ^ 64 - 1 → migHead s = some a → ∃ t u, exec (.grant n) s = .next t ∧ t = run (migRun (readNat s a 1)) u ∧
        u.tier.mig = .granted (BitVec.ofNat 48 (0x400000000000 + r.dst * 2 ^ 38 + m.addr % 2 ^ 38)) ∧ u.mem = s.mem ∧ u.regs = s.regs))) ∧
  (∀ (s : State) (n : Fin 19) (m : HMsg) (k : Nat),
    ((s.hural.inbox.find? fun e => e.1 = n.val && e.2.1.op = 0x20) = some (n.val, m, k) → (theChart s).lend ≠ 0 →
      (∀ i, freeFrameNo s = some i → s.hural.grantWait = [] → ∃ t, exec (.grantreq n) s = .next t ∧
        Cells.look t.tier.lent (poolBase s / 2 ^ 21 + i) = some { berth := m.src, page := m.addr % 2 ^ 48, touch := getF s TIDE_COUNT.COUNT } ∧
        getF t TIER_POOL.FREE = getF s TIER_POOL.FREE - 1 ∧ getF t TIER_POOL.USED = (getF s TIER_POOL.USED + 1) % 2 ^ 32) ∧
      (∀ f x, freeFrameNo s = none → oldestLent s = some (f, x) → ∃ t, exec (.grantreq n) s = .next t ∧
        Cells.look t.tier.lent f = some { x with notice := some (getF s TIDE_COUNT.COUNT) } ∧ t.hural.grantWait = s.hural.grantWait ++ [(m.src, m.txn, m.addr % 2 ^ 48)] ∧
        t.regs = s.regs ∧ t.mem = s.mem)) ∧
    (∀ x, (s.hural.inbox.find? fun e => e.1 = n.val && e.2.1.op = 0x22) = some (n.val, m, k) → Cells.look s.tier.lent ((poolBase s + m.addr) / 2 ^ 21) = some x →
      (x.berth = m.src → s.hural.grantWait = [] → ∃ t, exec (.huralFree n) s = .next t ∧ Cells.look t.tier.lent ((poolBase s + m.addr) / 2 ^ 21) = none ∧
        getF t TIER_POOL.FREE = (getF s TIER_POOL.FREE + 1) % 2 ^ 32 ∧ getF t TIER_POOL.USED = getF s TIER_POOL.USED - 1 ∧ t.mem = s.mem) ∧
      (x.berth ≠ m.src → ∃ t, exec (.huralFree n) s = .next t ∧ t.tier = s.tier ∧ t.regs = s.regs ∧ t.mem = s.mem)) ∧
    ((s.hural.inbox.find? fun e => e.1 = n.val && e.2.1.op = 0x23) = some (n.val, m, k) → ∃ t, exec (.evict n) s = .next t ∧
      Cells.look t.tier.notices ((0x400000000000 + m.src * 2 ^ 38 + m.addr / 2 ^ 21 * 2 ^ 21) / 2 ^ 21) = some (getF s TIDE_COUNT.COUNT) ∧ getF t TIER_EVT.EVICT = 1) ∧
    ((s.hural.inbox.find? fun e => e.1 = n.val && e.2.1.op = 0x12) = some (n.val, m, k) → ∃ t u, exec (.tstamp n) s = .next t ∧
      t = (if isPilot s && decide (getF s TIDE_SRC.ROLE ≠ 3) then run (stampSend m.src) u else u) ∧ u.hural.stamp = some (m.src, m.addr, s.now) ∧ u.regs = s.regs ∧ u.mem = s.mem) ∧
    ((s.hural.inbox.find? fun e => e.1 = n.val && e.2.1.op = 0x13) = some (n.val, m, k) → ∃ t, exec (.lost n) s = .next t ∧ t.regs = s.regs ∧ t.mem = s.mem ∧
      (composes s = false → t.hural.probes = s.hural.probes) ∧
      (composes s = true → bitsOf m.addr 0 8 ∉ s.tide.darkBerths → bitsOf m.addr 0 8 ∉ s.tide.darkQueue → bitsOf m.addr 0 8 ∈ t.hural.probes)) ∧
    ((s.hural.inbox.find? fun e => e.1 = n.val && (e.2.1.op = 0x14 && !bitOf e.2.1.addr 0)) = some (n.val, m, k) →
      ∃ t u, exec (.probe n) s = .next t ∧ t = run (answer m 0x14 1 []) u ∧ u.hural.inbox = s.hural.inbox.erase (n.val, m, k) ∧ u.mem = s.mem ∧ u.regs = s.regs) ∧
    ((s.hural.inbox.find? fun e => e.1 = n.val && (e.2.1.op = 0x14 && bitOf e.2.1.addr 0)) = some (n.val, m, k) →
      ∃ t, exec (.probeack n) s = .next t ∧ t.hural.probes = s.hural.probes.erase m.src ∧ t.mem = s.mem ∧ t.regs = s.regs) ∧
    ((s.hural.inbox.find? fun e => e.1 = n.val && e.2.1.op = 0x15) = some (n.val, m, k) →
      (bitsOf m.addr 8 8 = 0xFF → ∃ t, exec (.takeover n) s = .next t ∧ getF t SHD_EVT.NOSPARE = 1 ∧ Safety.Logged .noSpare s t ∧ t.mem = s.mem) ∧
      (bitsOf m.addr 8 8 ≠ 0xFF → ∃ t, exec (.takeover n) s = .next t ∧ getF t HURAL_ALIAS.SERVER 0 (bitsOf m.addr 0 8) = bitsOf m.addr 8 8 ∧ t.mem = s.mem ∧
        (bitsOf m.addr 8 8 = (theChart s).flBerth → getF s SHD_STAT.ROLE = 1 → getF t SHD_STAT.ROLE = 2 ∧ getF t SHD_STAT.PHASE = 1 ∧
          getF t SHD_STAT.SERVING = bitsOf m.addr 0 8 ∧ getF t SHD_EVT.TAKEOVER = 1 ∧ getF t SHD_COUNT.TAKEOVERS = min (getF s SHD_COUNT.TAKEOVERS + 1) (2 ^ 16 - 1))))) ∧
  (∀ (s : State) (b : Fin 256),
    (b.val ∈ s.hural.probes → ∃ t, exec (.probeTimeout b) s = .next t ∧ t.hural.probes = s.hural.probes.erase b.val ∧ t.tide.darkQueue = s.tide.darkQueue ++ [b.val] ∧
      t.regs = s.regs ∧ t.mem = s.mem) ∧
    (b.val ∉ s.hural.probes → ∃ t, exec (.probeTimeout b) s = .next t ∧ t = s))

/-- SECURE_POINT_DONE, SHD_CTL.EN, SHD_CTL.SECURE, SHD_CTL.REALIGN, RESTORE_PHASE_DONE. -/
def Obligations.SurvivalControl : Prop :=
  (∀ (s : State) (x step : Nat), s.shd.snap = some (x, step) →
    ((s.hural.reqs.any fun r => r.job = .snap) = true → ∃ t, exec .securePointDone s = .next t ∧ t = s) ∧
    ((s.hural.reqs.any fun r => r.job = .snap) = false → s.shd.snapFail = true →
      ∃ t, exec .securePointDone s = .next t ∧ t.shd.snap = none ∧ t.shd.gen = s.shd.gen ∧ t.regs = s.regs ∧ t.mem = s.mem) ∧
    ((s.hural.reqs.any fun r => r.job = .snap) = false → s.shd.snapFail = false →
      ∃ t, exec .securePointDone s = .next t ∧ t.shd.snap = none ∧ t.shd.gen = (!s.shd.gen) ∧ getF t SHD_LASTSEC.STEP = step % 2 ^ 40 ∧ getF t SHD_EVT.SECURED = 1 ∧
        getF t SHD_COST.C = min (2 ^ 32 - 1) ((s.now - x) / 4000) ∧ t.mem = s.mem)) ∧
  (∀ s : State,
    (((theChart s).parts.all fun e => getF s NUM_STEP.PER e.part = 1 || getF s NUM_STEP.PER e.part = 2) = true →
      ∃ t, exec .shdCtlEn s = .next t ∧ getF t SHD_CTL.EN = 1 ∧ t.mem = s.mem) ∧
    (((theChart s).parts.all fun e => getF s NUM_STEP.PER e.part = 1 || getF s NUM_STEP.PER e.part = 2) = false →
      ∃ t, exec .shdCtlEn s = .next t ∧ getF t SHD_EVT.CFGERR = 1 ∧ getF t SHD_CTL.EN = getF s SHD_CTL.EN ∧ t.mem = s.mem) ∧
    ∃ t, exec .shdCtlSecure s = .next t ∧ t = { s with shd := { s.shd with secure := true } }) ∧
  (∀ (s : State) (p : Fin 64), ∃ t, exec (.shdCtlRealign p) s = .next t ∧ getF t SHD_CTL.PART = p ∧ t.mem = s.mem ∧
    t.upd.stream = streamAt (getF s NUM_STEP.STEP p) ∧
    ∀ u ∈ tilesOf s p, (getTile t u).streams = (List.range 8).map fun n => (n, streamAt (getF s NUM_STEP.STEP p))) ∧
  (∀ s : State, getF s SHD_STAT.PHASE = 1 → ∃ t, exec (.restorePhaseDone .address) s = .next t ∧ getF t SHD_STAT.PHASE = 2 ∧ t.mem = s.mem) ∧
  (∀ (s : State) (l : List (List Byte × List (Addr × List Byte))) (r : List Byte) (o : List (Addr × List Byte)), getF s SHD_STAT.PHASE = 2 →
    (r, o) ∈ l → recordValid r = true → recordCommitted s r = true →
    (∀ e ∈ l, recordValid e.1 = true → recordCommitted s e.1 = true → e ≠ (r, o) → fieldAt e.1 8 8 < fieldAt r 8 8) →
    ∃ t, exec (.restorePhaseDone (.record l)) s = .next t ∧ getF t SHD_STAT.PHASE = 3 ∧ t.shd.records = fieldAt r 8 8 ∧ getF t SHD_LASTSEC.STEP = fieldAt r 0x30 8 % 2 ^ 40) ∧
  (∀ (s : State) (l : List (List Byte × List (Addr × List Byte))), getF s SHD_STAT.PHASE = 2 → (∀ e ∈ l, recordValid e.1 = true → recordCommitted s e.1 = false) →
    ∃ t, exec (.restorePhaseDone (.record l)) s = .next t ∧ getF t SHD_STAT.PHASE = 2 ∧ getF t SHD_EVT.UNRECOV = 1 ∧
      Safety.Logged .unrecoverable s t ∧ t.mem = s.mem) ∧
  (∀ (s : State) (w : List (Addr × List Byte)), getF s SHD_STAT.PHASE = 3 →
    ∃ t m, exec (.restorePhaseDone (.snapshot w)) s = .next t ∧ m = run (restoreWrites w) s ∧ getF t SHD_STAT.PHASE = 4 ∧ t.mem = m.mem ∧ t.coh = m.coh) ∧
  (∀ (s : State) (step : Nat) (w : List (Addr × List Byte)) (l : List Desc), getF s SHD_STAT.PHASE = 4 →
    (∃ t, exec (.restorePhaseDone (.roll step w l false)) s = .next t ∧ getF t SHD_STAT.PHASE = 4 ∧ t.shd.rolled = s.shd.rolled + 1) ∧
    (∃ t, exec (.restorePhaseDone (.roll step w l true)) s = .next t ∧ getF t SHD_STAT.PHASE = 5 ∧ t.shd.rolled = s.shd.rolled + 1)) ∧
  (∀ s : State, getF s SHD_STAT.PHASE = 5 → ∃ t, exec (.restorePhaseDone .pipeline) s = .next t ∧ getF t SHD_STAT.ROLE = 0 ∧ getF t SHD_STAT.PHASE = 6 ∧ t.mem = s.mem) ∧
  (∀ s : State, getF s SHD_STAT.PHASE = 6 → ∃ t, exec (.restorePhaseDone .answering) s = .next t ∧ getF t SHD_STAT.PHASE = 0 ∧ t.shd.taking = none ∧
    getF t SHD_TAKE.STEPS = min (2 ^ 32 - 1) s.shd.rolled ∧ t.mem = s.mem)

/-- RST_CTL.CP, DIERST, HOST, PKG, OOSCLR, RESET_RELEASE, DUMP_READ_TIMEOUT, WATCHDOG_TRIP, RST_HOSTWD.BEAT, HOST_WATCHDOG_TRIP, RELOCK_TIMEOUT. -/
def Obligations.ResetDomains : Prop :=
  (∀ (s : State) (d : Fin 4),
    (isHeld s 7 = false → isHeld s 1 = false → dieHeld s = false → s.rst.due = [] →
      (departing s).all (fun a => decide (512 ≤ a)) = true → (∀ a, a < 512 → agentCaches s a = false ∨ (cohAgent s a).departed = true ∨ (cohAgent s a).dead = true) →
      ∃ t, exec (.rstCtlCp d) s = .next t ∧ getF t RST_CTL.DIE = d ∧ isHeld t 1 = true ∧ getF t RST_STAT.DOMAIN = 1 ∧ getF t RST_STAT.CAUSE = 1 ∧ t.tiles = [] ∧
        ∀ a, isQuay a = true → readByte t a = 0) ∧
    (isHeld s 7 = false → isHeld s 1 = false → dieHeld s = false → s.rst.due = [] →
      (∃ a, a < 512 ∧ agentCaches s a = true ∧ (cohAgent s a).departed = false ∧ (cohAgent s a).dead = false ∧ (getB s RST_CFG.DUMP = false ∨ (cohAgent s a).pend ≠ [])) →
      ∃ t, exec (.rstCtlCp d) s = .next t ∧ getF t RST_CTL.DIE = d ∧ t.rst.due = [(1, 1)] ∧ t.rst.held = s.rst.held ∧ t.tiles = s.tiles) ∧
    (isHeld s 7 = true ∨ isHeld s 1 = true ∨ dieHeld s = true ∨ s.rst.due ≠ [] →
      ∃ t, exec (.rstCtlCp d) s = .next t ∧ getF t RST_CTL.DIE = d ∧ t.rst = s.rst ∧ t.tiles = s.tiles ∧ t.mem = s.mem)) ∧
  (∀ (s : State) (d : Fin 4), isHeld s 7 = false → isHeld s (d + 2) = false →
    ((isHeld s 1 && !s.rst.oos) = true → ∃ t, exec (.rstCtlDierst d) s = .next t ∧ getF t RST_CTL.DIE = d ∧ isHeld t (d + 2) = true ∧ dieState t d = 3 ∧ t.tiles = []) ∧
    ((isHeld s 1 && !s.rst.oos) = false → s.rst.due = [] →
      (departing s).all (fun a => decide (512 ≤ a)) = true → (∀ a, a < 512 → agentCaches s a = false ∨ (cohAgent s a).departed = true ∨ (cohAgent s a).dead = true) →
      ∃ t, exec (.rstCtlDierst d) s = .next t ∧ getF t RST_CTL.DIE = d ∧ isHeld t (d + 2) = true ∧ dieState t d = 3 ∧ t.tiles = []) ∧
    ((isHeld s 1 && !s.rst.oos) = false → s.rst.due ≠ [] → ∃ t, exec (.rstCtlDierst d) s = .next t ∧ getF t RST_CTL.DIE = d ∧
      t.rst = { s.rst with due := dueJoin s.rst.due (d + 2) 1 } ∧ t.tiles = s.tiles ∧ t.mem = s.mem)) ∧
  (∀ (s : State) (dom cause : Nat), s.rst.due = [(dom, cause)] →
    ((departing s).all (fun a => decide (512 ≤ a)) = true → (run resetGo s).rst.due = [] ∧ isHeld (run resetGo s) dom = true ∧ (run resetGo s).tiles = []) ∧
    ((departing s).all (fun a => decide (512 ≤ a)) = false → run resetGo s = s)) ∧
  (∀ s : State,
    (isHeld s 6 = false → isHeld s 7 = false → s.rst.hostDue = none → (cohAgent s 512).departing = false →
      (agentCaches s 512 = false ∨ (cohAgent s 512).departed = true ∨ (cohAgent s 512).dead = true) → ∃ t, exec .rstCtlHost s = .next t ∧ isHeld t 6 = true ∧ getF t RST_STAT.DOMAIN = 6 ∧ getF t RST_STAT.CAUSE = 1 ∧ t.bell = [] ∧
      ∀ q : Fin 256, getF t BELL_CFG.EN q = 0) ∧
    (isHeld s 6 = false → isHeld s 7 = false → s.rst.hostDue = none → agentCaches s 512 = true → (cohAgent s 512).departed = false → (cohAgent s 512).dead = false →
      ∃ t, exec .rstCtlHost s = .next t ∧ t.rst.hostDue = some 1 ∧ (cohAgent t 512).departing = true ∧ t.rst.held = s.rst.held ∧ t.bell = s.bell) ∧
    (isHeld s 6 = true ∨ isHeld s 7 = true ∨ s.rst.hostDue ≠ none → ∃ t, exec .rstCtlHost s = .next t ∧ t = s) ∧
    (isHeld s 7 = false → ∃ t, exec .rstCtlPkg s = .next t ∧ t.rst.held = [7] ∧ getF t RST_STAT.DOMAIN = 7 ∧ getF t RST_STAT.CAUSE = 1 ∧
      getReg t .ID_DIEMAP 0 0 = 0xFFF ∧ (∀ a, a < 2 ^ 40 → Cells.get 0 t.mem a = Cells.get 0 s.mem a) ∧ t.rst.events = s.rst.events ∧ t.rst.oos = s.rst.oos ∧
      t.life = s.life ∧ t.floor = s.floor ∧ t.sec.ownerHash = s.sec.ownerHash) ∧
    (isHeld s 7 = true → ∃ t, exec .rstCtlPkg s = .next t ∧ t = s) ∧
    (d2Open s = true → ∃ t, exec .rstCtlOosclr s = .next t ∧ t.rst = { s.rst with oos := false, events := [] } ∧
      (∀ r i j, r ≠ .SHD_STAT → getReg t r i j = getReg s r i j) ∧ t.mem = s.mem) ∧
    (d2Open s = false → ∃ t, exec .rstCtlOosclr s = .next t ∧ Safety.Logged .oosclrIgnored s t ∧ t.rst = s.rst ∧ t.mem = s.mem)) ∧
  (∀ (s : State) (d : Nat),
    (isHeld s d = false → ∃ t, exec (.resetRelease d) s = .next t ∧ t = s) ∧
    (isHeld s d = true → 2 ≤ d → d ≤ 5 → ∃ t, exec (.resetRelease d) s = .next t ∧ isHeld t d = false ∧ dieState t (d - 2) = 0 ∧ t.mem = s.mem) ∧
    (isHeld s d = true → d = 1 → (!s.rst.oos && !dieHeld s && s.chart.cur.isSome && !s.pow.hmFail && !s.pow.hostFail && !s.pow.boot) = true →
      ∃ t, exec (.resetRelease d) s = .next t ∧ isHeld t 1 = false ∧ t.mem = s.mem) ∧
    (isHeld s d = true → d = 6 → (!(dieDown s 0 && dieDown s 1) && !s.pow.hmFail && !s.pow.hostFail && !s.pow.boot) = true →
      ∃ t, exec (.resetRelease d) s = .next t ∧ isHeld t 6 = false ∧ dieState t 4 = 0 ∧ (homesStop s = false → getF t COH_STAT.MODE = 0) ∧
        (ownedProtocol s = false → t.mem = s.mem)) ∧
    (isHeld s d = true → d = 7 → s.pow.rails = true → s.pow.resetN = false → s.pow.refclk = true →
      ∃ t, exec (.resetRelease d) s = .next t ∧ t.rst.held = [1, 6] ∧ t.pow.boot = true ∧ getReg t .ID_DIEMAP 0 0 = 0x300 ∧ t.mem = s.mem) ∧
    (isHeld s d = true → d = 7 → s.pow.rails = false ∨ s.pow.resetN = true ∨ s.pow.refclk = false → ∃ t, exec (.resetRelease d) s = .next t ∧ t = s)) ∧
  (∀ (s : State) (a : Addr) (o : Nat), dumpWordAt s a.toNat = some o →
    (getF s RST_DUMP.STATE = 2 → s.chart.cur ≠ none → a.toNat ∉ s.rst.unread → ∃ t, exec (.dumpReadTimeout a) s = .next t ∧
      t.rst.unread = s.rst.unread ++ [a.toNat] ∧ getF t RST_DUMP.UNREAD = min 0xFFFF (s.rst.unread.length + 1)) ∧
    (getF s RST_DUMP.STATE ≠ 2 ∨ a.toNat ∈ s.rst.unread → ∃ t, exec (.dumpReadTimeout a) s = .next t ∧ t = s)) ∧
  (∀ (s : State) (u : Fin 516),
    (trips s u = true → ∃ t, exec (.watchdogTrip u) s = .next t ∧ bitOf (getF t RST_TRIP.UNIT (u / 64)) (u % 64) = true ∧
      (getB s RST_CFG.NORESET = true → t.rst.held = s.rst.held ∧ t.mem = s.mem) ∧
      (getB s RST_CFG.NORESET = false → isHeld s 7 = false → isHeld s 1 = false → dieHeld s = false → s.rst.due = [] →
        (departing s).all (fun a => decide (512 ≤ a)) = true → (∀ a, a < 512 → agentCaches s a = false ∨ (cohAgent s a).departed = true ∨ (cohAgent s a).dead = true) →
        isHeld t 1 = true ∧ getF t RST_STAT.DOMAIN = 1 ∧ getF t RST_STAT.CAUSE = 2)) ∧
    (trips s u = false → ∃ t, exec (.watchdogTrip u) s = .next t ∧ t = s)) ∧
  (∀ s : State, (∃ t, exec .rstHostwdBeat s = .next t ∧ t = { s with rst := { s.rst with beat := getF s TIDE_COUNT.COUNT } }) ∧
    (getF s RST_HOSTWD.LIMIT = 0 ∨ getF s TIDE_COUNT.COUNT < s.rst.beat + getF s RST_HOSTWD.LIMIT → ∃ t, exec .hostWatchdogTrip s = .next t ∧ t = s) ∧
    (getF s RST_HOSTWD.LIMIT ≠ 0 → s.rst.beat + getF s RST_HOSTWD.LIMIT ≤ getF s TIDE_COUNT.COUNT → isHeld s 6 = false → isHeld s 7 = false → s.rst.hostDue = none →
      (cohAgent s 512).departing = false → (agentCaches s 512 = false ∨ (cohAgent s 512).departed = true ∨ (cohAgent s 512).dead = true) →
      ∃ t, exec .hostWatchdogTrip s = .next t ∧ isHeld t 6 = true ∧ getF t RST_STAT.DOMAIN = 6 ∧ getF t RST_STAT.CAUSE = 6)) ∧
  (∀ (s : State) (d : Fin 4),
    (isHeld s (d + 2) = true → d.val + 2 ∈ s.rst.clkLost → ∃ t, exec (.relockTimeout d) s = .next t ∧ isHeld t (d + 2) = false ∧ dieState t d = 2 ∧ t.rst.oos = true ∧
      t.mem = s.mem) ∧
    (isHeld s (d + 2) = false ∨ d.val + 2 ∉ s.rst.clkLost → ∃ t, exec (.relockTimeout d) s = .next t ∧ t = s))

/-- TELEMETRY_SAMPLE, TELEMETRY_SKIP, HM_TELDONE, HM_FW.GO, HM_FW_CHECK_DONE, HM_FW_DROP, HM_FW_REVERT, FLOOD_CLOSE, LOGBOOK_FLUSH, TALLY_SAVE, HM_SETTAI, PTP_LOCK, PTP_LOCK_LOST, TIME_UNKNOWN, PTP_MESSAGE, PPS_PULSE. -/
def Obligations.Harbourmaster : Prop :=
  (∀ s : State,
    (s.hm.telDue = some (getF s TIDE_COUNT.COUNT) → getF s HM_TELRING.SLOTS ≠ 0 →
      (telHost s = true → ∃ t, exec .telemetrySample s = .next t ∧ t = { s with out := .hostInterrupt (telCore s) :: s.out }) ∧
      (telHost s = false → serviceFree s = false → ∃ t, exec .telemetrySample s = .next t ∧ t = s) ∧
      (telHost s = false → serviceFree s = true → ∃ t, exec .telemetrySample s = .next t ∧ getF t HM_TELEM.SAMPLES = min (getF s HM_TELEM.SAMPLES + 1) (2 ^ 32 - 1) ∧ t.hm.telDue = none ∧
        t.hm.telSlot = s.hm.telSlot + 1 ∧ t.hm.telSkipped = 0 ∧
        (getF s HM_TELSET.COUNT = 0 → readMem t (getF s HM_TELRING.ADDR * 64 + s.hm.telSlot % getF s HM_TELRING.SLOTS * 32) 8 = natLe (getF s TIDE_COUNT.COUNT) 8))) ∧
    (s.hm.telDue ≠ some (getF s TIDE_COUNT.COUNT) ∨ getF s HM_TELRING.SLOTS = 0 → ∃ t, exec .telemetrySample s = .next t ∧ t = s) ∧
    (∀ k, s.hm.telDue = some k → k ≠ getF s TIDE_COUNT.COUNT → ∃ t, exec .telemetrySkip s = .next t ∧ t.hm.telDue = none ∧ t.hm.telSkipped = s.hm.telSkipped + 1 ∧
      getF t HM_TELEM.SKIPPED = min (getF s HM_TELEM.SKIPPED + 1) (2 ^ 32 - 1) ∧ getF t HM_EVT.SHED = 1 ∧ t.mem = s.mem) ∧
    (s.hm.telDue = none → ∃ t, exec .telemetrySkip s = .next t ∧ t = s) ∧
    (∀ k : BitVec 48, telHost s = true → s.hm.telDue = some k.toNat → ∃ t, exec (.hmTeldone k) s = .next t ∧ t.hm.telDue = none ∧
      getF t HM_TELEM.SAMPLES = min (getF s HM_TELEM.SAMPLES + 1) (2 ^ 32 - 1) ∧ t.mem = s.mem) ∧
    (∀ k : BitVec 48, telHost s = false ∨ s.hm.telDue ≠ some k.toNat → ∃ t, exec (.hmTeldone k) s = .next t ∧ t = s)) ∧
  (∀ (s : State) (a : Addr), ∃ t, exec (.hmFwGo a) s = .next t ∧ t.mem = s.mem ∧ getF t HM_FW.ADDR = a.toNat / 64 ∧
    ((getF s HM_FWSTAT.STATE = 1 ∨ getF s HM_FWSTAT.STATE = 2 ∨ getF s HM_FWSTAT.STATE = 3) →
      getF t HM_FWSTAT.STATE = getF s HM_FWSTAT.STATE ∧ getF t HM_FWSTAT.REASON = 0x0D ∧ getF t HM_EVT.FWREJ = 1 ∧ t.hm = s.hm ∧ Safety.Logged .fwRejected s t) ∧
    (getF s HM_FWSTAT.STATE ≠ 1 → getF s HM_FWSTAT.STATE ≠ 2 → getF s HM_FWSTAT.STATE ≠ 3 →
      getF t HM_FWSTAT.STATE = 1 ∧ t.hm.fwAddr = some (BitVec.ofNat 48 (a.toNat / 64 * 64)))) ∧
  (∀ (s : State) (a : Addr) (r : Nat), s.hm.fwAddr = some a → r = fwCheck (getReg s .IDREV 0 0).toNat Config.vendorKeyHash s.life s.sec.hmFloor 2 (readFw s a.toNat) →
    ∃ t, exec .hmFwCheckDone s = .next t ∧ t.hm.fwAddr = none ∧ t.mem = s.mem ∧
      (r = 0 → getF t HM_FWSTAT.STATE = 2 ∧ t.hm.fwImage = (readFw s a.toNat).take (imgLength (readFw s a.toNat)) ∧ t.hm.fwFirst = firstBoundary s) ∧
      (r ≠ 0 → getF t HM_FWSTAT.STATE = 5 ∧ getF t HM_FWSTAT.REASON = r % 2 ^ 8 ∧ getF t HM_EVT.FWREJ = 1 ∧ Safety.Logged .fwRejected s t)) ∧
  (∀ s : State,
    (fwStaged s = true → s.hm.fwFirst + 1024 ≤ getF s TIDE_COUNT.COUNT → ∃ t, exec .hmFwDrop s = .next t ∧ getF t HM_FWSTAT.STATE = 5 ∧ getF t HM_FWSTAT.REASON = 0x0E ∧
      getF t HM_EVT.FWREJ = 1 ∧ t.hm.fwImage = [] ∧ Safety.Logged .fwRejected s t ∧ t.mem = s.mem) ∧
    (fwStaged s = false ∨ getF s TIDE_COUNT.COUNT < s.hm.fwFirst + 1024 → ∃ t, exec .hmFwDrop s = .next t ∧ t = s) ∧
    (∀ v x, s.hm.fwOld = some (v, x) → ∃ t, exec .hmFwRevert s = .next t ∧ getF t HM_FWSTAT.STATE = 6 ∧ getF t HM_FWSTAT.VERSION = v % 2 ^ 32 ∧ getF t HM_EVT.REVERT = 1 ∧
      t.hm.fwOld = none ∧ Safety.Logged .fwReverted s t ∧ t.mem = s.mem) ∧
    (s.hm.fwOld = none → ∃ t, exec .hmFwRevert s = .next t ∧ t = s)) ∧
  (∀ (s : State) (k : Nat), ∃ t, exec (.floodClose k) s = .next t ∧ t.log.staged = (s.log.staged.map fun r => if r.index = k then { r with final := true } else r) ∧
    t.log.tallies = s.log.tallies ∧ t.flashLog = s.flashLog ∧ t.regs = s.regs ∧ t.mem = s.mem) ∧
  (∀ s : State, (∃ t, exec .logbookFlush s = .next t ∧ t.flashLog = s.flashLog ++ (s.log.staged.filter fun r => r.final) ∧ t.regs = s.regs ∧ t.mem = s.mem) ∧
    ∃ t, exec .tallySave s = .next t ∧ t = { s with log := { s.log with savedTallies := s.log.tallies } }) ∧
  (∀ (s : State) (v : W64), ∃ t, exec (.hmSettai v) s = .next t ∧ t.mem = s.mem ∧
    (timeSrcNow s = .ptp → getF t HM_EVT.TIMEREJ = 1 ∧ t.time = s.time ∧ Safety.Logged .timeRejected s t) ∧
    (timeSrcNow s ≠ .ptp → t.time.src = .host ∧ t.time.tai = v.toNat ∧ t.time.at_ = s.now ∧ t.time.unc = getF s HM_SETUNC.UNCERT ∧ t.regs = s.regs)) ∧
  (∀ (s : State) (tai : W64) (unc : BitVec 32), ∃ t, exec (.ptpLock tai unc) s = .next t ∧ t.time.src = .ptp ∧ t.time.tai = tai.toNat ∧ t.time.at_ = s.now ∧
    t.time.unc = unc.toNat ∧ t.regs = s.regs ∧ t.mem = s.mem) ∧
  (∀ s : State,
    (s.time.src = .ptp → ∃ t, exec .ptpLockLost s = .next t ∧ t.time.src = .holdover ∧ t.time.tai = taiNow s ∧ t.time.unc = uncertNow s ∧ t.regs = s.regs ∧ t.mem = s.mem) ∧
    (s.time.src ≠ .ptp → ∃ t, exec .ptpLockLost s = .next t ∧ t = s) ∧
    (timeSrcNow s = .unknown → ∃ t, exec .timeUnknown s = .next t ∧ t.time.src = .unknown ∧ t.time.tai = taiNow s ∧ t.regs = s.regs ∧ t.mem = s.mem) ∧
    (timeSrcNow s ≠ .unknown → ∃ t, exec .timeUnknown s = .next t ∧ t = s) ∧
    (∀ x : Int, ∃ t, exec (.ptpMessage x) s = .next t ∧ t.hm.ptpOffset = x ∧ t.regs = s.regs ∧ t.mem = s.mem ∧
      (s.time.src = .ptp → t.time.unc = min x.natAbs (2 ^ 32 - 1)) ∧ (s.time.src ≠ .ptp → t.time = s.time)) ∧
    ∃ t, exec .ppsPulse s = .next t ∧ t = { s with out := .pps :: s.out })

/-- BOOT, SEC_CMD.RECORD, ENROL_OWNER, ENDORSEMENT and ENROL_IDENTITY, LIFECYCLE_RESET, SEC_ATTEST.GO, ATTEST_DONE. -/
def Obligations.BootAndSecurity : Prop :=
  (∀ (s : State) (puf : Option W64),
    (s.pow.boot = false ∨ s.pow.refclk = false → ∃ t, exec (.boot puf) s = .next t ∧ t = s) ∧
    (s.pow.boot = true → s.pow.refclk = true → s.sec.next = none → ∃ t, exec (.boot puf) s = .next t ∧ t.pow.boot = false ∧ t.life = s.life ∧
      (∀ v, puf = some v → s.sec.idDigest = some (sha3_256 (Config.mldsaPublic v.toNat)) → t.sec.idKey = Config.mldsaPublic v.toNat) ∧
      (fwPasses s 2 s.sec.hmA = false → fwPasses s 2 s.sec.hmB = false → t.pow.hmFail = true ∧ t.pow.xsRel = true ∧ t.rst.held = [1, 2, 3, 4, 5, 6] ∧
        getF t SEC_EVT.HMFAIL = 1) ∧
      (fwPasses s 2 s.sec.hmA = true → fwPasses s 2 s.sec.hmB = false → getF t SEC_STAT.HMSLOT = 0 ∧ t.sec.hmBoot = imgDigest s.sec.hmA ∧ t.sec.hmRun = imgDigest s.sec.hmA ∧
        getF t SEC_EVT.HMFAIL = 1 ∧ getF t HM_FWSTAT.VERSION = (Config.imageVersion (imgDigest s.sec.hmA)).toNat ∧
        (fwPasses s 3 s.sec.hostA = true → t.pow.ready = true ∧ isHeld t 6 = false) ∧
        (fwPasses s 3 s.sec.hostA = false → fwPasses s 3 s.sec.hostB = false → t.pow.hostFail = true ∧ getF t SEC_EVT.HOSTFAIL = 1 ∧ t.pow.ready = s.pow.ready) ∧
        (s.pow.fromSb = false → s.chart.slotA = [] → s.chart.slotB = [] → getF t CHART_STAT.STATE = 2 ∧ t.chart.cur = none)))) ∧
  (∀ (s : State) (a : Addr),
    (recordCheck s (a.toNat / 64 * 64) ≠ 0 → ∃ t, exec (.secCmdRecord a) s = .next t ∧ getF t SEC_CMDSTAT.STATE = 3 ∧
      getF t SEC_CMDSTAT.REASON = recordCheck s (a.toNat / 64 * 64) % 2 ^ 8 ∧ getF t SEC_EVT.CMDREJ = 1 ∧ t.sec = s.sec ∧ t.life = s.life ∧ t.mem = s.mem) ∧
    (recordCheck s (a.toNat / 64 * 64) = 0 → ∃ t, exec (.secCmdRecord a) s = .next t ∧ getF t SEC_CMDSTAT.STATE = 2 ∧ t.life = s.life ∧ t.mem = s.mem ∧
      (readNat s (a.toNat / 64 * 64 + 4) 1 = 1 → t.sec.next = lifeOf (readNat s (a.toNat / 64 * 64 + 5) 1) ∧ getF t SEC_EVT.LIFE = 1 ∧ t.sec.ownerHash = s.sec.ownerHash) ∧
      (readNat s (a.toNat / 64 * 64 + 4) 1 ≠ 1 → t.sec.ownerHash = some (sha3_256 (readMem s (a.toNat / 64 * 64 + 0x60) 1312)) ∧ t.sec.endorsement = [] ∧
        t.sec.next = s.sec.next))) ∧
  (∀ (s : State) (a : Addr),
    (s.life = .prov → s.sec.ownerHash = none → ∃ t, exec (.secCmdEnrolOwner a) s = .next t ∧ getF t SEC_CMDSTAT.STATE = 2 ∧ t.mem = s.mem ∧
      t.sec = { s.sec with ownerHash := some (sha3_256 (readMem s (a.toNat / 64 * 64) 1312)) }) ∧
    (s.life ≠ .prov ∨ s.sec.ownerHash ≠ none → ∃ t, exec (.secCmdEnrolOwner a) s = .next t ∧ getF t SEC_CMDSTAT.STATE = 3 ∧ getF t SEC_CMDSTAT.REASON = 0x0B ∧
      getF t SEC_EVT.CMDREJ = 1 ∧ t.sec = s.sec ∧ t.mem = s.mem) ∧
    (∀ k, s.sec.ownerHash = some k → hasIdentity s = true →
      (Config.mldsaVerify k (endorsed s.sec.idKey (getReg s .IDREV 0 0)) (readMem s (a.toNat / 64 * 64) 2420) = true →
        ∃ t, exec (.secCmdEndorsement a) s = .next t ∧ getF t SEC_CMDSTAT.STATE = 2 ∧ t.sec = { s.sec with endorsement := readMem s (a.toNat / 64 * 64) 2420 } ∧ t.mem = s.mem) ∧
      (Config.mldsaVerify k (endorsed s.sec.idKey (getReg s .IDREV 0 0)) (readMem s (a.toNat / 64 * 64) 2420) = false →
        ∃ t, exec (.secCmdEndorsement a) s = .next t ∧ getF t SEC_CMDSTAT.STATE = 3 ∧ getF t SEC_CMDSTAT.REASON = 5 ∧ t.sec = s.sec ∧ t.mem = s.mem)) ∧
    (s.life = .fab → s.sec.idDigest = none → ∃ t, exec (.secCmdEnrolIdentity a) s = .next t ∧ getF t SEC_CMDSTAT.STATE = 2 ∧ t.sec.idDigest ≠ none ∧
      t.sec.ownerHash = s.sec.ownerHash ∧ t.mem = s.mem) ∧
    (s.life ≠ .fab ∨ s.sec.idDigest ≠ none → ∃ t, exec (.secCmdEnrolIdentity a) s = .next t ∧ getF t SEC_CMDSTAT.STATE = 3 ∧ getF t SEC_CMDSTAT.REASON = 0x0B ∧
      t.sec = s.sec ∧ t.mem = s.mem)) ∧
  (∀ s : State,
    (s.sec.next = none → ∃ t, exec .lifecycleReset s = .next t ∧ t = s) ∧
    (s.sec.next ≠ none → isHeld s 7 = false → ∃ t, exec .lifecycleReset s = .next t ∧ t.rst.held = [7] ∧ getF t RST_STAT.DOMAIN = 7 ∧ t.sec.next = s.sec.next ∧ t.life = s.life)) ∧
  (∀ (s : State) (a : Addr),
    (s.sec.report ≠ none → ∃ t, exec (.secAttestGo a) s = .next t ∧ t = s) ∧
    (s.sec.report = none → hasIdentity s = true → ∃ t, exec (.secAttestGo a) s = .next t ∧ getF t SEC_ATTEST.DONE = 0 ∧ t.mem = s.mem ∧
      t.sec.report = some (BitVec.ofNat 48 (a.toNat / 64 * 64), readMem s (a.toNat / 64 * 64 + 0x30) 32)) ∧
    (s.sec.report = none → hasIdentity s = false → ∃ t, exec (.secAttestGo a) s = .next t ∧ getF t SEC_ATTEST.DONE = 0 ∧ getF t SEC_EVT.IDFAIL = 1 ∧ t.sec = s.sec ∧
      t.mem = s.mem)) ∧
  (∀ (s : State) (a : Addr) (nonce : List Byte), s.sec.report = some (a, nonce) →
    ∃ t, exec .attestDone s = .next t ∧ getF t SEC_ATTEST.DONE = 1 ∧ t.sec.report = none ∧ t.sec.reports = s.sec.reports + 1 ∧
      readMem t a.toNat (reportHead s nonce).length = reportHead s nonce)

/-- DBG_OPEN.GO, TAP_TOKEN, DBG_CLOSE, TAP_CLOSE, SESSION_EXPIRE, DBG_HALT.HALT, DBG_HALT.RESUME, TAP_DBGACC. -/
def Obligations.DebugSessions : Prop :=
  (∀ (s : State) (a : Addr) (want level : Nat) (tok : List Byte), want = getF s DBG_OPEN.LEVEL → tok = readMem s (a.toNat / 64 * 64) tokenBytes →
    level = min want (min (levelAllowed s) (if needsToken s = true then fieldAt tok 4 1 else 2)) →
    (want = 0 ∨ want = 3 ∨ level = 0 ∨ (needsToken s = true ∧ tokenOk s 1 tok = false) →
      ∃ t, exec (.dbgOpenGo a) s = .next t ∧ getF t DBG_EVT.REFUSED = 1 ∧ getF t DBG_SESS.REASON 1 = 6 ∧ getF t DBG_SESS.LEVEL 1 = getF s DBG_SESS.LEVEL 1 ∧
        t.sec = s.sec ∧ Safety.Logged .tokenRefused s t ∧ t.mem = s.mem) ∧
    (want ≠ 0 → want ≠ 3 → level ≠ 0 → (needsToken s = true → tokenOk s 1 tok = true) →
      ∃ t, exec (.dbgOpenGo a) s = .next t ∧ getF t DBG_SESS.LEVEL 1 = level ∧ getF t DBG_SESS.MAX 1 = max (getF s DBG_SESS.MAX 1) level ∧ getF t DBG_EVT.OPENED = 1 ∧
        t.sec.inband.ends = (if needsToken s = true then some (sessionEnds s tok) else none) ∧ Safety.Logged .sessionOpened s t ∧ t.mem = s.mem)) ∧
  (∀ (s : State) (level : Nat) (tok : List Byte), level = min 2 (min (levelAllowed s) (if needsToken s = true then fieldAt tok 4 1 else 2)) →
    (level = 0 ∨ jtagOpen s = false ∨ (needsToken s = true ∧ tokenOk s 0 tok = false) →
      ∃ t, exec (.tapToken tok) s = .next t ∧ getF t DBG_EVT.REFUSED = 1 ∧ getF t DBG_SESS.REASON 0 = 6 ∧ getF t DBG_SESS.LEVEL 0 = getF s DBG_SESS.LEVEL 0 ∧
        t.sec = s.sec ∧ Safety.Logged .tokenRefused s t ∧ t.mem = s.mem) ∧
    (level ≠ 0 → jtagOpen s = true → (needsToken s = true → tokenOk s 0 tok = true) →
      ∃ t, exec (.tapToken tok) s = .next t ∧ getF t DBG_SESS.LEVEL 0 = level ∧ getF t DBG_EVT.OPENED = 1 ∧ Safety.Logged .sessionOpened s t ∧ t.mem = s.mem)) ∧
  (∀ s : State,
    (getF s DBG_SESS.LEVEL 1 ≠ 0 → ∃ t, exec .dbgClose s = .next t ∧ getF t DBG_SESS.LEVEL 1 = 0 ∧ getF t DBG_SESS.REASON 1 = 1 ∧ getF t DBG_EVT.ENDED = 1 ∧
      t.sec.inband = {} ∧ Safety.Logged .sessionEnded s t ∧ t.mem = s.mem) ∧
    (getF s DBG_SESS.LEVEL 1 = 0 → ∃ t, exec .dbgClose s = .next t ∧ t = s) ∧
    (getF s DBG_SESS.LEVEL 0 ≠ 0 → ∃ t, exec .tapClose s = .next t ∧ getF t DBG_SESS.LEVEL 0 = 0 ∧ getF t DBG_SESS.REASON 0 = 1 ∧ getF t DBG_EVT.ENDED = 1 ∧
      t.sec.tap = {} ∧ Safety.Logged .sessionEnded s t ∧ t.mem = s.mem) ∧
    (getF s DBG_SESS.LEVEL 0 = 0 → ∃ t, exec .tapClose s = .next t ∧ t = s) ∧
    (∀ p : Fin 2, (debugSt s p).ends ≠ none → getF s DBG_SESS.LEVEL p ≠ 0 → ∃ t, exec (.sessionExpire p) s = .next t ∧ getF t DBG_SESS.LEVEL p = 0 ∧
      getF t DBG_SESS.REASON p = 2 ∧ getF t DBG_EVT.ENDED = 1 ∧ Safety.Logged .sessionEnded s t ∧ t.mem = s.mem) ∧
    (∀ p : Fin 2, (debugSt s p).ends = none → ∃ t, exec (.sessionExpire p) s = .next t ∧ t = s)) ∧
  (∀ (s : State) (c : BitVec 10),
    (haltPath s ≠ none → haltable s c.toNat = true → ∃ t, exec (.dbgHaltHalt c) s = .next t ∧ getF t DBG_HALT.CORE = c.toNat ∧ coreHalted t c.toNat = true ∧ t.mem = s.mem) ∧
    (haltPath s ≠ none → ∃ t, exec (.dbgHaltResume c) s = .next t ∧ getF t DBG_HALT.CORE = c.toNat ∧ coreHalted t c.toNat = false ∧ t.mem = s.mem) ∧
    (haltPath s = none → (∃ t, exec (.dbgHaltHalt c) s = .next t ∧ getF t DBG_HALT.CORE = c.toNat ∧ t.sec = s.sec ∧ t.mem = s.mem) ∧
      ∃ t, exec (.dbgHaltResume c) s = .next t ∧ getF t DBG_HALT.CORE = c.toNat ∧ t.sec = s.sec ∧ t.mem = s.mem)) ∧
  (∀ (s : State) (a : Addr),
    (∀ w, getF s DBG_SESS.LEVEL 0 = 0 → ∃ t, exec (.tapDbgacc a w) s = .next t ∧ t.out = .accessFault .debug a :: s.out ∧ Safety.Logged .accessFault s t ∧
      t.regs = s.regs ∧ t.mem = s.mem) ∧
    (getF s DBG_SESS.LEVEL 0 = 2 → a.toNat % 64 ≤ 56 → (isWarehouse a.toNat || isQuay a.toNat) = true →
      (route s { a := a.toNat, n := 8, wr := false, rebuild := false } = .mem a.toNat none →
        ∃ t, exec (.tapDbgacc a none) s = .next t ∧ t.out = .resp .debug a (readMem s a.toNat 8) :: s.out ∧ t.regs = s.regs ∧ t.mem = s.mem) ∧
      (∀ v, route s { a := a.toNat, n := 8, wr := true, rebuild := false } = .mem a.toNat none → Cells.look s.coh.dir (a.toNat / 64) = none →
        ∃ t, exec (.tapDbgacc a (some v)) s = .next t ∧ readMem t a.toNat 8 = w64Bytes v ∧ t.regs = s.regs ∧
          ∀ b, b < a.toNat ∨ a.toNat + 8 ≤ b → readByte t b = readByte s b)))

/-- VIN48_RISE, CONVERTERS_READY, VIN48_OUT_OF_RANGE, VIN48_DISCHARGED, V3P3SB_LOST, V3P3SB_RESTORE, RESET_N_LOW, RESET_N_RELEASE, REFCLK_LOST, REFCLK_RETURN, THERMTRIP. -/
def Obligations.RailsAndLands : Prop :=
  (∀ s : State,
    (s.pow.vin = false → s.pow.stopped = false → ∃ t, exec .vin48Rise s = .next t ∧ t.pow = { s.pow with vin := true } ∧ t.regs = s.regs ∧ t.mem = s.mem) ∧
    (s.pow.vin = true ∨ s.pow.stopped = true → ∃ t, exec .vin48Rise s = .next t ∧ t = s) ∧
    (s.pow.vin = true → s.pow.stopped = false → s.pow.rails = false → ∃ t, exec .convertersReady s = .next t ∧ t.pow.rails = true ∧ t.mem = s.mem ∧
      (isHeld s 7 = true → s.pow.resetN = false → s.pow.refclk = true → t.rst.held = [1, 6] ∧ t.pow.boot = true)) ∧
    (s.pow.vin = false ∨ s.pow.stopped = true ∨ s.pow.rails = true → ∃ t, exec .convertersReady s = .next t ∧ t = s) ∧
    (s.pow.vin = true → ∃ t, exec .vin48OutOfRange s = .next t ∧ t.pow.vin = false ∧ t.pow.rails = false ∧ t.pow.stopped = true ∧ getF t RST_STAT.DOMAIN = 7 ∧
      getF t RST_STAT.CAUSE = 0x0A ∧ t.rst.held = [7] ∧ (∀ a, a < 2 ^ 48 → Cells.get 0 t.mem a = 0) ∧ t.life = s.life ∧ t.floor = s.floor ∧ t.flashLog = s.flashLog) ∧
    (s.pow.vin = false → ∃ t, exec .vin48OutOfRange s = .next t ∧ t = s)) ∧
  (∀ s : State, ∃ t, exec .vin48Discharged s = .next t ∧ t.pow.vin = false ∧ t.pow.stopped = false ∧ t.pow.trip = false ∧
    (s.pow.rails = true → t.pow.rails = false ∧ ∀ a, a < 2 ^ 48 → Cells.get 0 t.mem a = 0) ∧
    (s.pow.rails = false → t.mem = s.mem ∧ t.regs = s.regs)) ∧
  (∀ s : State,
    (s.pow.standby = true → s.pow.vin = true → ∃ t, exec .v3p3sbLost s = .next t ∧ t.pow = { s.pow with standby := false } ∧ t.time = s.time ∧ t.regs = s.regs ∧
      Safety.Logged .standbyLost s t ∧ t.mem = s.mem) ∧
    (s.pow.standby = true → s.pow.vin = false → ∃ t, exec .v3p3sbLost s = .next t ∧ t.pow.standby = false ∧ t.time = { at_ := s.now } ∧ t.regs = s.regs ∧ t.mem = s.mem) ∧
    (s.pow.standby = false → (∃ t, exec .v3p3sbLost s = .next t ∧ t = s) ∧ ∃ t, exec .v3p3sbRestore s = .next t ∧ t.pow.standby = true ∧ t.regs = s.regs ∧ t.mem = s.mem ∧
      (s.pow.vin = true → t.time = s.time)) ∧
    (s.pow.standby = true → ∃ t, exec .v3p3sbRestore s = .next t ∧ t = s)) ∧
  (∀ (s : State) (ns : Nat),
    (ns < 1000 → ∃ t, exec (.resetNLow ns) s = .next t ∧ t = s) ∧
    (10000 ≤ ns → isHeld s 7 = false → ∃ t, exec (.resetNLow ns) s = .next t ∧ t.pow.resetN = true ∧ t.rst.held = [7] ∧ getF t RST_STAT.DOMAIN = 7 ∧
      getF t RST_STAT.CAUSE = 7 ∧ ∀ a, a < 2 ^ 40 → Cells.get 0 t.mem a = Cells.get 0 s.mem a) ∧
    (10000 ≤ ns → isHeld s 7 = true → ∃ t, exec (.resetNLow ns) s = .next t ∧ t.pow.resetN = true ∧ t.rst = s.rst ∧ t.mem = s.mem ∧
      (s.pow.rails = true → getF t RST_STAT.CAUSE = 7)) ∧
    (1000 ≤ ns → ns < 10000 → ∃ t, exec (.resetNLow ns) s = .next t ∧ (t.pow.resetN = true ∨ (t.pow = s.pow ∧ t.rst = s.rst ∧ t.regs = s.regs ∧ t.mem = s.mem))) ∧
    (∃ t, exec .resetNRelease s = .next t ∧ t.pow.resetN = false ∧ t.mem = s.mem ∧
      (isHeld s 7 = true → s.pow.rails = true → s.pow.refclk = true → t.rst.held = [1, 6] ∧ t.pow.boot = true))) ∧
  (∀ s : State,
    (isHeld s 7 = false → ∃ t, exec .refclkLost s = .next t ∧ t.pow.refclk = false ∧ 0 ∈ t.rst.clkLost ∧ t.rst.held = [7] ∧ getF t RST_STAT.DOMAIN = 7 ∧
      getF t RST_STAT.CAUSE = 9) ∧
    (isHeld s 7 = true → ∃ t, exec .refclkLost s = .next t ∧ t.pow.refclk = false ∧ 0 ∈ t.rst.clkLost ∧ getF t CLK_LOSS.REF = 1 ∧ Safety.Logged .clockLost s t ∧ t.mem = s.mem) ∧
    (∃ t, exec .refclkReturn s = .next t ∧ t.pow.refclk = true ∧ 0 ∉ t.rst.clkLost ∧ t.mem = s.mem ∧
      (isHeld s 7 = true → s.pow.rails = true → s.pow.resetN = false → t.rst.held = [1, 6] ∧ t.pow.boot = true)) ∧
    (∃ t, exec .thermtrip s = .next t ∧ t.pow.trip = true ∧ t.pow.stopped = true ∧ (s.pow.rails = true → t.pow.rails = false ∧ ∀ a, a < 2 ^ 48 → Cells.get 0 t.mem a = 0) ∧
      (s.pow.rails = false → t.mem = s.mem ∧ t.regs = s.regs)))

/-- I3C_STATUS, I3C_STATUS_IBI, I3C_CAPSUST, I3C_CAPEXC, I3C_REQ_ENTER_SB, I3C_REQ_LEAVE_SB, I3C_REQ_RESET, I3C_PIN, I3C_TEMP, I3C_IDENT, I3C_HOSTIMG. -/
def Obligations.BoardCommands : Prop :=
  (∀ s : State, s.pow.rails = true →
    (∃ t, exec .i3cStatus s = .next t ∧ t = { s with out := .i3cData (natLe (statusNow s) 2) :: s.out }) ∧
    (∃ t, exec .i3cPin s = .next t ∧ t = { s with out := .i3cData (natLe (inputPower s) 2) :: s.out }) ∧
    (∃ t v, exec .i3cTemp s = .next t ∧ t.out = .i3cData (natLe v 2) :: s.out ∧ t.regs = s.regs ∧ t.mem = s.mem) ∧
    (∃ t, exec .i3cIdent s = .next t ∧ t = { s with out := .i3cData (if hasIdentity s = true then fitTo 32 (s.sec.idDigest.getD []) else List.replicate 32 0) :: s.out }) ∧
    (statusNow s ≠ s.pow.status → ∃ t, exec .i3cStatusIbi s = .next t ∧ t.pow.status = statusNow s ∧ t.out = .i3cInterrupt (BitVec.ofNat 8 (statusNow s)) :: s.out ∧
      t.regs = s.regs ∧ t.mem = s.mem) ∧
    (statusNow s = s.pow.status → ∃ t, exec .i3cStatusIbi s = .next t ∧ t = s) ∧
    (∀ w, (∃ t, exec (.i3cCapsust w) s = .next t ∧ getF t EN_BOARD.I3CSUST = w.toNat ∧ getF t EN_BOARD.I3CV = 1 ∧ t.en.sustSeen = true ∧ t.mem = s.mem) ∧
      ∃ t, exec (.i3cCapexc w) s = .next t ∧ getF t EN_BOARD.I3CEXC = w.toNat ∧ getF t EN_BOARD.I3CV = 1 ∧ t.en.excSeen = true ∧ t.mem = s.mem) ∧
    (∃ t, exec .i3cReqEnterSb s = .next t ∧ t.en.sb = (if s.en.sb = .standby then .standby else .board) ∧ t.regs = s.regs ∧ t.mem = s.mem) ∧
    (s.en.sb = .standby → ∃ t, exec .i3cReqLeaveSb s = .next t ∧ t.en.sb = .off ∧ t.rst.held = [1, 6] ∧ t.pow.boot = true ∧ t.pow.fromSb = true ∧ t.chart.cur = s.chart.cur ∧
      ∀ a, a < 2 ^ 40 → Cells.get 0 t.mem a = Cells.get 0 s.mem a) ∧
    (s.en.sb ≠ .standby → ∃ t, exec .i3cReqLeaveSb s = .next t ∧ t = s) ∧
    (isHeld s 7 = false → ∃ t, exec .i3cReqReset s = .next t ∧ t.rst.held = [7] ∧ getF t RST_STAT.DOMAIN = 7 ∧ getF t RST_STAT.CAUSE = 8) ∧
    (isHeld s 7 = true → ∃ t, exec .i3cReqReset s = .next t ∧ t = s)) ∧
  (∀ (s : State) (bs : List Byte),
    (s.pow.rails = false ∨ s.pow.hostFail = false ∨ 4096 < bs.length → ∃ t, exec (.i3cHostimg bs) s = .next t ∧ t = { s with out := .i3cNack :: s.out }) ∧
    (s.pow.rails = true → s.pow.hostFail = true → bs.length ≤ 4096 → bs ≠ [] → ∃ t, exec (.i3cHostimg bs) s = .next t ∧
      t = { s with pow := { s.pow with hostImg := s.pow.hostImg ++ bs } }) ∧
    (s.pow.rails = true → s.pow.hostFail = true → bs = [] →
      (fwPasses s 3 s.pow.hostImg = false → ∃ t, exec (.i3cHostimg bs) s = .next t ∧ getF t SEC_EVT.HOSTFAIL = 1 ∧ t.pow.hostImg = [] ∧ t.pow.hostFail = true ∧
        Safety.Logged .imageFailed s t ∧ t.sec = s.sec ∧ t.mem = s.mem) ∧
      (fwPasses s 3 s.pow.hostImg = true → ∃ t, exec (.i3cHostimg bs) s = .next t ∧ t.pow.hostFail = false ∧ t.pow.ready = true ∧ t.pow.hostImg = [] ∧
        t.sec.hostA = s.pow.hostImg.take (imgLength s.pow.hostImg) ∧ t.sec.hostB = t.sec.hostA ∧ isHeld t 6 = false ∧ t.mem = s.mem))) ∧
  (∀ (s : State) (w : BitVec 16), s.pow.rails = false →
    exec .i3cStatus s = .next { s with out := .i3cNack :: s.out } ∧ exec .i3cPin s = .next { s with out := .i3cNack :: s.out } ∧
    exec .i3cTemp s = .next { s with out := .i3cNack :: s.out } ∧ exec .i3cIdent s = .next { s with out := .i3cNack :: s.out } ∧
    exec (.i3cCapsust w) s = .next { s with out := .i3cNack :: s.out } ∧ exec (.i3cCapexc w) s = .next { s with out := .i3cNack :: s.out } ∧
    exec .i3cReqEnterSb s = .next { s with out := .i3cNack :: s.out } ∧ exec .i3cReqLeaveSb s = .next { s with out := .i3cNack :: s.out } ∧
    exec .i3cReqReset s = .next { s with out := .i3cNack :: s.out } ∧ exec .i3cStatusIbi s = .next s)

/-- R297. The record of a command waits while the completion ring is full (R296). -/
def Obligations.NocqRecords : Prop :=
  ∀ (s : State) (q : Fin 256) (d : BDone), nextRecord (bellQ s q) = some d → eNocq d.entry = true →
    (d.status = 0 → ∃ t m, exec (.commandComplete q) s = .next t ∧ t = run (irqWrite q d) m ∧ (bellQ m q).done = (bellQ s q).done.erase d ∧
      (bellQ m q).cqTail = (bellQ s q).cqTail ∧ (bellQ m q).phase = (bellQ s q).phase ∧ m.mem = s.mem ∧ m.regs = s.regs) ∧
    (d.status ≠ 0 → cqFull s q = false → cdmaHeld s (piecesOf (getF s BELL_CQADDR.ADDR q * 256 + 32 * (bellQ s q).cqTail) 32 true false) = false →
      firstFault s (piecesOf (getF s BELL_CQADDR.ADDR q * 256 + 32 * (bellQ s q).cqTail) 32 true false) = none →
      ∃ t m, exec (.commandComplete q) s = .next t ∧ t = run (irqWrite q d) m ∧ (bellQ m q).done = (bellQ s q).done.erase d ∧
      readMem m (getF s BELL_CQADDR.ADDR q * 256 + 32 * (bellQ s q).cqTail) 32 = recordBytes (bellQ s q) d ∧
      (bellQ m q).cqTail = ((bellQ s q).cqTail + 1) % cqRecords s q) ∧
    (d.status ≠ 0 → cqFull s q = true → ∃ t, exec (.commandComplete q) s = .next t ∧ t.bell = s.bell ∧ t.mem = s.mem)

/-- R388. A domain already held in reset is not reset again (R380). -/
def Obligations.HostWatchdog : Prop :=
  (∀ s : State, ∃ t, exec .rstHostwdBeat s = .next t ∧ t = { s with rst := { s.rst with beat := getF s TIDE_COUNT.COUNT } }) ∧
  (∀ s : State, getF s RST_HOSTWD.LIMIT ≠ 0 → s.rst.beat + getF s RST_HOSTWD.LIMIT ≤ getF s TIDE_COUNT.COUNT → isHeld s 6 = false → isHeld s 7 = false →
    s.rst.hostDue = none → ∃ t, exec .hostWatchdogTrip s = .next t ∧
      ((cohAgent s 512).departing = false → (agentCaches s 512 = false ∨ (cohAgent s 512).departed = true ∨ (cohAgent s 512).dead = true) →
        isHeld t 6 = true ∧ getF t RST_STAT.DOMAIN = 6 ∧ getF t RST_STAT.CAUSE = 6) ∧
      (agentCaches s 512 = true → (cohAgent s 512).departed = false → (cohAgent s 512).dead = false → t.rst.hostDue = some 6 ∧ (cohAgent t 512).departing = true)) ∧
  (∀ s : State, s.rst.hostDue = some 6 →
    ((cohAgent s 512).departing = false → isHeld (run hostGo s) 6 = true ∧ getF (run hostGo s) RST_STAT.DOMAIN = 6 ∧ getF (run hostGo s) RST_STAT.CAUSE = 6) ∧
    ((cohAgent s 512).departing = true → run hostGo s = s)) ∧
  (∀ s : State, getF s RST_HOSTWD.LIMIT = 0 ∨ getF s TIDE_COUNT.COUNT < s.rst.beat + getF s RST_HOSTWD.LIMIT → ∃ t, exec .hostWatchdogTrip s = .next t ∧ t = s)

/-- R391. -/
def Obligations.OutOfServiceCleared : Prop :=
  (∀ s : State, d2Open s = true → ∃ t, exec .rstCtlOosclr s = .next t ∧
    t = { s with rst := { s.rst with oos := false, events := [] }, regs := t.regs } ∧ (∀ r i j, r ≠ .SHD_STAT → getReg t r i j = getReg s r i j)) ∧
  (∀ s : State, d2Open s = false → ∃ t, exec .rstCtlOosclr s = .next t ∧ t = { s with log := t.log } ∧ Safety.Logged .oosclrIgnored s t)

/-- R4. A read of BELL_VIS is held under R300, with a statement of its own. -/
def Obligations.RegisterWidthsAndAlignment : Prop :=
  (∀ (r : RegName) (i j : Nat), i < r.loc.ni → j < r.loc.nj → regAddr r i j % 8 = 0) ∧
  (∀ (s : State) (who : Agent) (addr : Addr) (r : RegName) (i j : Nat), (∀ n, who ≠ .pcie n) → (∀ b, who ≠ .partner b) →
    isRegSpace addr.toNat = true → inBlocks addr.toNat = true → tileOff s addr.toNat = false → regAt (addr.toNat / 8 * 8) = some (r, i, j) → whoOn s who = true →
    (∀ (bs : List Byte) (cc : Bool) (p : Fin 64) (q e : Nat), reachesRegs s who addr.toNat true = true → sizeOk addr.toNat bs.length = true →
      ∃ t, exec (.physicalAccess who addr (.write bs cc p q) e) s = .next t ∧
        t = run (respond who addr []) (run (regWrite r i j (lanesOf addr.toNat bs.length) (BitVec.ofNat 64 (leNat bs * 2 ^ (8 * (addr.toNat % 8))))) s)) ∧
    (∀ (n e : Nat), reachesRegs s who addr.toNat false = true → sizeOk addr.toNat n = true → r ≠ .BELL_VIS →
      ∃ t, exec (.physicalAccess who addr (.read n) e) s = .next t ∧
        t.out = .resp who addr (slice (w64Bytes (regRead s r i j)) (addr.toNat % 8) n) :: s.out ∧ t.mem = s.mem) ∧
    (∀ (n e : Nat), reachesRegs s who addr.toNat false = true → sizeOk addr.toNat n = true → r = .BELL_VIS →
      ∃ t, exec (.physicalAccess who addr (.read n) e) s = .next t ∧ t.mem = s.mem ∧ t.regs = s.regs ∧
        (bellQ t i).vis = (bellQ s i).vis ++ [{ who := who, addr := addr, n := n, seq := (bellQ s i).visSeq, waits := (bellQ s i).unseen.map fun w => w.id }]) ∧
    (∀ (bs : List Byte) (cc : Bool) (p : Fin 64) (q e : Nat), reachesRegs s who addr.toNat true = true → sizeOk addr.toNat bs.length = false →
      ∃ t, exec (.physicalAccess who addr (.write bs cc p q) e) s = .next t ∧ t = { s with out := .accessFault who addr :: s.out }) ∧
    (∀ (n e : Nat), reachesRegs s who addr.toNat false = true → sizeOk addr.toNat n = false →
      ∃ t, exec (.physicalAccess who addr (.read n) e) s = .next t ∧
        t = { s with out := .accessFault who addr :: .resp who addr (List.replicate n 0) :: s.out }))

/-- The register map and its inverse agree. -/
def Obligations.RegisterAddressesAgree : Prop :=
  ∀ (r : RegName) (i j : Nat), i < r.loc.ni → j < r.loc.nj → regAt (regAddr r i j) = some (r, i, j)

/-- The tick (log 43, DESIGN CHOICE). -/
def Obligations.EmptyQueueIsTime : Prop :=
  (∀ s : State, s.pending = [] → ∃ t, step s = .next t ∧ t.now = s.now + 1 ∧ t.pending = [] ∧
    (s.tier.waits = [] → s.tier.stalls = [] → lateAccesses s = [] → (∀ r ∈ s.hural.reqs, r.held = false) →
      t = { s with now := s.now + 1, regs := t.regs } ∧
      ∀ r i j, r ∉ [.MX_WAITCYC, .VX_WAITCYC, .VX_DMA_WAITCYC, .UPD_WAITCYC, .TIER_STALL, .HURAL_STARVE] → getReg t r i j = getReg s r i j)) ∧
  (∀ (s : State) (u : Fin 516) (f : Fetch), s.pending = [] → s.tier.waits = [] → s.tier.stalls = [] → s.hural.reqs = [] → s.tier.fetch = [f] →
    f.who = .unit u → f.ans = .due → f.since + 40000 < s.now →
    ∃ t, step s = .next t ∧ Cells.look t.tier.stalls u = some { cause := 3, addr := f.addr, wr := false, noted := false } ∧
      min (getF s TIER_STALL.EPISODES 3 + 1) (2 ^ 24 - 1) = getF t TIER_STALL.EPISODES 3 ∧ t.mem = s.mem)

/-- R421: the next boot makes a lifecycle change; nothing else does. That commands take no time is the model's (log 43). -/
def Obligations.OnlyTheBootChangesTheLifecycle : Prop :=
  ∀ (c : Instr) (s : State), ∃ t, exec c s = .next t ∧ t.now = s.now ∧ (t.life = s.life ∨ ((∃ puf, c = .boot puf) ∧ s.life.mayGo t.life = true))

/-- COPY, RDATA, NACK, DMA_ITEM_COMPLETE, UPD_ITEM_COMPLETE with another berth (R183, R343, R353; log 45). -/
def Obligations.FarReadsAndWrites : Prop :=
  (∀ (s : State) (u : Fin 512) (d : Desc), headItem s u .dma = some d → dOpcode d = 0x80 → (getTile s u).dma.run = [] → waitMet s u d = true →
    flipWaits s u d = false → dmaFaultCode u d = 0 →
    (fetchMissing s (.unit u) (dmaPieces d) ≠ [] → (∀ p ∈ fetchMissing s (.unit u) (dmaPieces d), isNeighbour p.a = true) →
      ∃ t, exec (.copy u) s = .next t ∧ t.tiles = s.tiles ∧ t.mem = s.mem ∧ getF t VX_DMA_STAT.ITEM u = dItem d ∧
        (∀ r i j, (r ≠ .VX_DMA_STAT ∨ i ≠ u) → getReg t r i j = getReg s r i j) ∧
        t.tier.fetch = s.tier.fetch ++ (fetchMissing s (.unit u) (dmaPieces d)).map fun p => { who := .unit u, addr := p.a, n := p.n, ans := .due, since := s.now }) ∧
    (fetchMissing s (.unit u) (dmaPieces d) = [] → fetchDue s (.unit u) = true →
      ∃ t, exec (.copy u) s = .next t ∧ t = run (setF VX_DMA_STAT.ITEM (dItem d) u) s)) ∧
  (∀ (s : State) (n : Fin 19) (m : HMsg) (k : Nat) (r : OutReq) (w : FetchFor) (a : Addr),
    (s.hural.reqs.find? fun r => r.txn = m.txn && r.dst = m.src && !r.held) = some r → r.job = .engine w a →
    ((s.hural.inbox.find? fun e => e.1 = n.val && e.2.1.op = 0x04) = some (n.val, m, k) →
      ∃ t, exec (.rdata n) s = .next t ∧ t.hural.reqs = s.hural.reqs.erase r ∧ t.mem = s.mem ∧ t.regs = s.regs ∧
        t.tier.fetch = s.tier.fetch.map fun f => if f.who = w && f.addr = a.toNat && f.ans = .due then { f with ans := .data m.data } else f) ∧
    ((s.hural.inbox.find? fun e => e.1 = n.val && e.2.1.op = 0x05) = some (n.val, m, k) → (∃ u, w = .unit u) → (isObject a.toNat = false ∨ bitsOf m.addr 0 8 ≠ 4 ∧ bitsOf m.addr 0 8 ≠ 5) →
      ∃ t, exec (.nack n) s = .next t ∧ t.hural.reqs = s.hural.reqs.erase r ∧ t.mem = s.mem ∧ t.regs = s.regs ∧
        t.tier.fetch = s.tier.fetch.map fun f => if f.who = w && f.addr = a.toNat && f.ans = .due then { f with ans := .refused } else f)) ∧
  (∀ (s : State) (w : FetchFor) (pick : Nat → Nat) (f : Fetch) (bs : List Byte) (k : Nat), s.tier.fetch = [f] → f.who = w → f.ans = .data bs → bs.length = f.n → k < f.n →
    BitVec.ofNat 8 (fetchPick s w pick (f.addr + k)) = bs.getD k 0) ∧
  (∀ (s : State) (u : Fin 512), putsOpen s u = true → ∃ t, exec (.dmaItemComplete u) s = .next t ∧ t = s) ∧
  (∀ s : State, putsOpen s 512 = true → ∃ t, exec .updItemComplete s = .next t ∧ t = s) ∧
  (∀ (s : State) (n : Fin 19) (m : HMsg) (k : Nat) (r : OutReq) (u : Fin 512) (a : Addr) (x : RunItem) (rest : List RunItem),
    (s.hural.inbox.find? fun e => e.1 = n.val && e.2.1.op = 0x05) = some (n.val, m, k) →
    (s.hural.reqs.find? fun r => r.txn = m.txn && r.dst = m.src && !r.held) = some r → r.job = .put u a → (isObject a.toNat = false ∨ bitsOf m.addr 0 8 ≠ 4 ∧ bitsOf m.addr 0 8 ≠ 5) → (getTile s u).dma.run = x :: rest →
    ∃ t, exec (.nack n) s = .next t ∧ (getTile t u).dma = { queue := (getTile s u).dma.queue, run := rest, halted := some x.desc } ∧
      getF t VX_DMA_FAULT.CODE u = 0x25 ∧ getF t VX_DMA_FAULT.ITEM u = dItem x.desc ∧ getF t VX_DMA_FADDR.ADDR u = a.toNat ∧
      Safety.Logged .dmaFault s t ∧ Safety.Logged .accessFault s t) ∧
  (∀ (s : State) (p : Piece), isNeighbour p.a = true → (theChart s).occupied ((p.a - 0x400000000000) / 2 ^ 38) = false → route s p = .fault)

/-- Which commands leave memory, the tiles, the update engine and the input pipeline alone. -/
def Obligations.EachEngineIsItsCommandsOwn : Prop :=
  (∀ (c : Instr) (s : State), Safety.mayChangeMemory c = false → ∃ t, exec c s = .next t ∧ t.mem = s.mem) ∧
  (∀ (c : Instr) (s : State), Safety.mayChangeTiles c = false → ∃ t, exec c s = .next t ∧ t.tiles = s.tiles ∧ t.num = s.num) ∧
  (∀ (c : Instr) (s : State), Safety.mayChangeUpdate c = false → ∃ t, exec c s = .next t ∧ t.upd = s.upd) ∧
  (∀ (c : Instr) (s : State), Safety.mayChangeCustoms c = false → ∃ t, exec c s = .next t ∧ t.cus = s.cus)

/-- Which commands leave the chart and the units of the package alone. -/
def Obligations.EachUnitIsItsCommandsOwn : Prop :=
  (∀ (c : Instr) (s : State), Safety.mayChangeChart c = false → ∃ t, exec c s = .next t ∧ t.chart = s.chart) ∧
  (∀ (c : Instr) (s : State), Safety.mayChangeLinks c = false → ∃ t, exec c s = .next t ∧ t.link = s.link) ∧
  (∀ (c : Instr) (s : State), Safety.mayChangeHarbour c = false → ∃ t, exec c s = .next t ∧ t.hm = s.hm) ∧
  (∀ (c : Instr) (s : State), Safety.mayChangeEnergy c = false → ∃ t, exec c s = .next t ∧ t.en = s.en) ∧
  (∀ (c : Instr) (s : State), Safety.mayChangeBoard c = false → ∃ t, exec c s = .next t ∧ t.pow = s.pow) ∧
  (∀ (c : Instr) (s : State), Safety.mayChangeCalendar c = false → ∃ t, exec c s = .next t ∧ t.time = s.time) ∧
  (∀ (c : Instr) (s : State), Safety.mayChangeFlashLog c = false → ∃ t, exec c s = .next t ∧ t.flashLog = s.flashLog)
end

