-- ==== Sys2Proof/Laws/Bits.lean ====
section
/-! SUPPORT. Bit fields: what a replaced field reads as and what it leaves alone. -/

namespace Sys2Proof.Machine

theorem bitsOf_lt (v lo w : Nat) : bitsOf v lo w < 2 ^ w := Nat.mod_lt _ (Nat.two_pow_pos w)

theorem testBit_bitsOf (v lo w k : Nat) : (bitsOf v lo w).testBit k = (decide (k < w) && v.testBit (lo + k)) := by
  simp [bitsOf, Nat.testBit_mod_two_pow, Nat.testBit_div_two_pow, Nat.add_comm]

theorem putBits_split (v lo w x : Nat) : putBits v lo w x = v / 2 ^ (lo + w) * 2 ^ (lo + w) + (x % 2 ^ w) * 2 ^ lo + v % 2 ^ lo := by
  have h1 : v = 2 ^ lo * (v / 2 ^ lo) + v % 2 ^ lo := (Nat.div_add_mod v _).symm
  have h2 : v / 2 ^ lo = 2 ^ w * (v / 2 ^ lo / 2 ^ w) + v / 2 ^ lo % 2 ^ w := (Nat.div_add_mod _ _).symm
  have h3 : v / 2 ^ lo / 2 ^ w = v / 2 ^ (lo + w) := by rw [Nat.div_div_eq_div_mul, Nat.pow_add]
  simp only [putBits, bitsOf]
  generalize hq : v / 2 ^ lo / 2 ^ w = q at *
  generalize hm : v / 2 ^ lo % 2 ^ w = m at *
  generalize hl : v % 2 ^ lo = l at *
  rw [← h3]
  have h4 : v = q * 2 ^ (lo + w) + m * 2 ^ lo + l := by
    rw [h1, h2, Nat.pow_add]
    ring
  omega

theorem testBit_putBits (v lo w x k : Nat) :
    (putBits v lo w x).testBit k = if lo ≤ k ∧ k < lo + w then x.testBit (k - lo) else v.testBit k := by
  rw [putBits_split]
  have hl : v % 2 ^ lo < 2 ^ lo := Nat.mod_lt _ (Nat.two_pow_pos lo)
  have hx : x % 2 ^ w < 2 ^ w := Nat.mod_lt _ (Nat.two_pow_pos w)
  have hxl : (x % 2 ^ w) * 2 ^ lo + v % 2 ^ lo < 2 ^ (lo + w) := by
    have h5 : (x % 2 ^ w + 1) * 2 ^ lo ≤ 2 ^ w * 2 ^ lo := Nat.mul_le_mul_right _ hx
    have h6 : 2 ^ (lo + w) = 2 ^ w * 2 ^ lo := by rw [Nat.pow_add, Nat.mul_comm]
    rw [Nat.add_mul, Nat.one_mul] at h5
    rw [h6]
    exact Nat.lt_of_lt_of_le (Nat.add_lt_add_left hl _) h5
  rw [Nat.add_assoc, Nat.mul_comm (v / _) _, Nat.testBit_two_pow_mul_add _ hxl, Nat.mul_comm (x % _) _]
  by_cases h1 : k < lo + w
  · simp only [h1, if_true, Nat.testBit_two_pow_mul_add _ hl]
    by_cases h2 : k < lo
    · simp only [h2, if_true, Nat.not_le.mpr h2, false_and, if_false, Nat.testBit_mod_two_pow]
      simp
    · have : lo ≤ k := by omega
      simp only [h2, if_false, this, true_and, if_true, Nat.testBit_mod_two_pow]
      simp; intro _; omega
  · have h2 : ¬(lo ≤ k ∧ k < lo + w) := by omega
    rw [if_neg h1, if_neg h2, Nat.testBit_div_two_pow, Nat.sub_add_cancel (by omega)]

theorem putBits_lt {v lo w n : Nat} (x : Nat) (hv : v < 2 ^ n) (h : lo + w ≤ n) : putBits v lo w x < 2 ^ n := by
  refine Nat.lt_pow_two_of_testBit _ fun k hk => ?_
  rw [testBit_putBits, if_neg (by omega)]
  exact Nat.testBit_lt_two_pow (Nat.lt_of_lt_of_le hv (Nat.pow_le_pow_right (by decide) hk))

/-- A replaced field reads as its new value. -/
theorem bitsOf_putBits (v lo w x : Nat) : bitsOf (putBits v lo w x) lo w = x % 2 ^ w := by
  refine Nat.eq_of_testBit_eq fun k => ?_
  rw [testBit_bitsOf, testBit_putBits, Nat.testBit_mod_two_pow]
  by_cases h : k < w <;> simp [h]

/-- A replaced field leaves other bits alone. -/
theorem bitsOf_putBits_of_disjoint {lo w lo' w' : Nat} (v x : Nat) (h : lo' + w' ≤ lo ∨ lo + w ≤ lo') :
    bitsOf (putBits v lo w x) lo' w' = bitsOf v lo' w' := by
  refine Nat.eq_of_testBit_eq fun k => ?_
  rw [testBit_bitsOf, testBit_bitsOf, testBit_putBits]
  by_cases hk : k < w'
  · rw [if_neg (by omega)]
  · simp [hk]

end Sys2Proof.Machine
end

