-- ==== Sys2Proof/Laws/Cells.lean ====
section
/-! SUPPORT. Laws of sparse storage: read after write, and that every operation keeps the canonical form. -/

namespace Sys2Proof.Machine

variable {V : Type}

theorem Cells.get_eq_look (d : V) (m : FMap V) (k : Nat) : Cells.get d m k = (Cells.look m k).getD d := by
  induction m with
  | nil => rfl
  | cons e m ih =>
    obtain ⟨a, v⟩ := e
    simp only [Cells.get, Cells.look]
    split <;> simp [*]

/-- A key below every listed key is not listed. -/
theorem Cells.look_of_above {m : FMap V} {b k : Nat} (h : Cells.above b m = true) (hk : k ≤ b) : Cells.look m k = none := by
  induction m generalizing b with
  | nil => rfl
  | cons e m ih =>
    obtain ⟨a, v⟩ := e
    simp only [Cells.above, Bool.and_eq_true, decide_eq_true_eq] at h
    have hne : k ≠ a := by omega
    simp only [Cells.look, if_neg hne]
    exact ih h.2 (by omega)

theorem Cells.above_mono {m : FMap V} {b c : Nat} (h : Cells.above b m = true) (hc : c ≤ b) : Cells.above c m = true := by
  cases m with
  | nil => rfl
  | cons e m =>
    obtain ⟨a, v⟩ := e
    simp only [Cells.above, Bool.and_eq_true, decide_eq_true_eq] at h ⊢
    exact ⟨by omega, h.2⟩

theorem Cells.look_ins (m : FMap V) (k : Nat) (v : V) (k' : Nat) : Cells.look (Cells.ins m k v) k' = if k' = k then some v else Cells.look m k' := by
  induction m with
  | nil => simp [Cells.ins, Cells.look]
  | cons e m ih =>
    obtain ⟨a, w⟩ := e
    unfold Cells.ins
    split
    · simp [Cells.look]
    · split
      · subst_vars; simp only [Cells.look]; split <;> simp_all
      · simp only [Cells.look, ih]
        by_cases h1 : k' = a
        · subst h1; rw [if_pos rfl, if_neg (by omega), if_pos rfl]
        · simp [h1]

theorem Cells.look_del (m : FMap V) (k k' : Nat) : Cells.look (Cells.del m k) k' = if k' = k then none else Cells.look m k' := by
  induction m with
  | nil => simp [Cells.del, Cells.look]
  | cons e m ih =>
    obtain ⟨a, w⟩ := e
    unfold Cells.del
    split
    · subst_vars; rw [ih]; simp only [Cells.look]; split <;> simp_all
    · simp only [Cells.look, ih]
      by_cases h1 : k' = a
      · subst h1; rw [if_pos rfl, if_neg (by omega), if_pos rfl]
      · simp [h1]

/-- Read after write. -/
theorem Cells.get_put [DecidableEq V] (d : V) (m : FMap V) (k : Nat) (v : V) (k' : Nat) :
    Cells.get d (Cells.put d m k v) k' = if k' = k then v else Cells.get d m k' := by
  simp only [Cells.get_eq_look, Cells.put]
  by_cases hv : v = d
  · simp only [hv, if_true, Cells.look_del]; split <;> simp
  · simp only [hv, if_false, Cells.look_ins]; split <;> simp

theorem Cells.above_ins {m : FMap V} {b k : Nat} {v : V} (h : Cells.above b m = true) (hs : Cells.sorted m = true) (hb : b < k) :
    Cells.above b (Cells.ins m k v) = true := by
  induction m generalizing b with
  | nil => simp [Cells.ins, Cells.above, hb]
  | cons e m ih =>
    obtain ⟨a, w⟩ := e
    simp only [Cells.above, Bool.and_eq_true, decide_eq_true_eq] at h
    unfold Cells.ins
    split
    · simp only [Cells.above, Bool.and_eq_true, decide_eq_true_eq]; exact ⟨hb, by assumption, h.2⟩
    · split
      · simp only [Cells.above, Bool.and_eq_true, decide_eq_true_eq]; subst_vars; exact ⟨hb, h.2⟩
      · simp only [Cells.above, Bool.and_eq_true, decide_eq_true_eq]
        refine ⟨h.1, ih h.2 ?_ (by omega)⟩
        cases m with
        | nil => rfl
        | cons f m =>
          have := h.2
          simp only [Cells.above, Bool.and_eq_true] at this
          exact this.2

theorem Cells.sorted_tail {e : Nat × V} {m : FMap V} (h : Cells.sorted (e :: m) = true) : Cells.sorted m = true := by
  cases m with
  | nil => rfl
  | cons f m =>
    simp only [Cells.sorted, Cells.above, Bool.and_eq_true] at h ⊢
    exact h.2

theorem Cells.sorted_ins {m : FMap V} {k : Nat} {v : V} (hs : Cells.sorted m = true) : Cells.sorted (Cells.ins m k v) = true := by
  cases m with
  | nil => rfl
  | cons e m =>
    obtain ⟨a, w⟩ := e
    unfold Cells.ins
    split
    · simp only [Cells.sorted, Cells.above, Bool.and_eq_true, decide_eq_true_eq]; exact ⟨by assumption, hs⟩
    · split
      · simp only [Cells.sorted] at hs ⊢; subst_vars; exact hs
      · simp only [Cells.sorted]
        exact Cells.above_ins hs (Cells.sorted_tail hs) (by omega)

/-- Dropping entries keeps what lies above. -/
theorem Cells.above_filter {m : FMap V} {b : Nat} (p : Nat × V → Bool) (h : Cells.above b m = true) : Cells.above b (m.filter p) = true := by
  induction m generalizing b with
  | nil => rfl
  | cons e m ih =>
    obtain ⟨a, w⟩ := e
    simp only [Cells.above, Bool.and_eq_true, decide_eq_true_eq] at h
    simp only [List.filter_cons]
    split
    · simp only [Cells.above, Bool.and_eq_true, decide_eq_true_eq]; exact ⟨h.1, ih h.2⟩
    · exact Cells.above_mono (ih h.2) (by omega)

theorem Cells.sorted_filter {m : FMap V} (p : Nat × V → Bool) (h : Cells.sorted m = true) : Cells.sorted (m.filter p) = true := by
  induction m with
  | nil => rfl
  | cons e m ih =>
    simp only [List.filter_cons]
    split
    · simp only [Cells.sorted] at h ⊢; exact Cells.above_filter p h
    · exact ih (Cells.sorted_tail h)

theorem Cells.del_eq_filter (m : FMap V) (k : Nat) : Cells.del m k = m.filter (fun e => decide (k ≠ e.1)) := by
  induction m with
  | nil => rfl
  | cons e m ih =>
    obtain ⟨a, w⟩ := e
    simp only [Cells.del, ih, List.filter_cons]
    split <;> simp_all

theorem Cells.mem_ins {m : FMap V} {k : Nat} {v : V} {e : Nat × V} (h : e ∈ Cells.ins m k v) : e = (k, v) ∨ e ∈ m := by
  induction m with
  | nil => simpa [Cells.ins] using h
  | cons f m ih =>
    obtain ⟨a, w⟩ := f
    unfold Cells.ins at h
    split at h
    · simpa using h
    · split at h
      · simp only [List.mem_cons] at h ⊢; rcases h with h | h
        · exact .inl h
        · exact .inr (.inr h)
      · simp only [List.mem_cons] at h ⊢; rcases h with h | h
        · exact .inr (.inl h)
        · rcases ih h with h | h
          · exact .inl h
          · exact .inr (.inr h)

/-- A write keeps the canonical form. -/
theorem Cells.wf_put [DecidableEq V] {d : V} {m : FMap V} (k : Nat) (v : V) (h : Cells.wf d m = true) : Cells.wf d (Cells.put d m k v) = true := by
  simp only [Cells.wf, Bool.and_eq_true, List.all_eq_true, decide_eq_true_eq] at h ⊢
  simp only [Cells.put]
  split
  · rw [Cells.del_eq_filter]
    exact ⟨Cells.sorted_filter _ h.1, fun e he => h.2 e (List.mem_filter.mp he).1⟩
  · refine ⟨Cells.sorted_ins h.1, fun e he => ?_⟩
    rcases Cells.mem_ins he with rfl | he
    · assumption
    · exact h.2 e he

/-- Dropping entries keeps the canonical form. -/
theorem Cells.wf_filter [DecidableEq V] {d : V} {m : FMap V} (p : Nat × V → Bool) (h : Cells.wf d m = true) : Cells.wf d (m.filter p) = true := by
  simp only [Cells.wf, Bool.and_eq_true, List.all_eq_true, decide_eq_true_eq] at h ⊢
  exact ⟨Cells.sorted_filter p h.1, fun e he => h.2 e (List.mem_filter.mp he).1⟩

end Sys2Proof.Machine
end

