-- ==== Sys2Proof/Laws/State.lean ====
section
/-! SUPPORT. What each primitive update does to each field of the state: one lemma a field and update, so that no proof unfolds a record update. -/

namespace Sys2Proof.Machine.Prim

variable (s : State)

@[simp] theorem reg_pending (r : RegName) (i j : Nat) (v : W64) : (apply (.reg r i j v) s).pending = s.pending := (rfl)
@[simp] theorem reg_now (r : RegName) (i j : Nat) (v : W64) : (apply (.reg r i j v) s).now = s.now := (rfl)
@[simp] theorem reg_free (r : RegName) (i j : Nat) (v : W64) : (apply (.reg r i j v) s).free = s.free := (rfl)
@[simp] theorem reg_out (r : RegName) (i j : Nat) (v : W64) : (apply (.reg r i j v) s).out = s.out := (rfl)
@[simp] theorem reg_regs (r : RegName) (i j : Nat) (v : W64) : (apply (.reg r i j v) s).regs = regPut s.regs r i j (v &&& regMask r i j) := (rfl)
@[simp] theorem reg_mem (r : RegName) (i j : Nat) (v : W64) : (apply (.reg r i j v) s).mem = s.mem := (rfl)
@[simp] theorem reg_floor (r : RegName) (i j : Nat) (v : W64) : (apply (.reg r i j v) s).floor = s.floor := (rfl)
@[simp] theorem reg_life (r : RegName) (i j : Nat) (v : W64) : (apply (.reg r i j v) s).life = s.life := (rfl)
@[simp] theorem reg_flashLog (r : RegName) (i j : Nat) (v : W64) : (apply (.reg r i j v) s).flashLog = s.flashLog := (rfl)
@[simp] theorem reg_log (r : RegName) (i j : Nat) (v : W64) : (apply (.reg r i j v) s).log = s.log := (rfl)
@[simp] theorem reg_time (r : RegName) (i j : Nat) (v : W64) : (apply (.reg r i j v) s).time = s.time := (rfl)
@[simp] theorem reg_chart (r : RegName) (i j : Nat) (v : W64) : (apply (.reg r i j v) s).chart = s.chart := (rfl)
@[simp] theorem reg_tide (r : RegName) (i j : Nat) (v : W64) : (apply (.reg r i j v) s).tide = s.tide := (rfl)
@[simp] theorem reg_tiles (r : RegName) (i j : Nat) (v : W64) : (apply (.reg r i j v) s).tiles = s.tiles := (rfl)
@[simp] theorem reg_num (r : RegName) (i j : Nat) (v : W64) : (apply (.reg r i j v) s).num = s.num := (rfl)
@[simp] theorem reg_sec (r : RegName) (i j : Nat) (v : W64) : (apply (.reg r i j v) s).sec = s.sec := (rfl)
@[simp] theorem reg_tier (r : RegName) (i j : Nat) (v : W64) : (apply (.reg r i j v) s).tier = s.tier := (rfl)
@[simp] theorem reg_coh (r : RegName) (i j : Nat) (v : W64) : (apply (.reg r i j v) s).coh = s.coh := (rfl)
@[simp] theorem reg_hural (r : RegName) (i j : Nat) (v : W64) : (apply (.reg r i j v) s).hural = s.hural := (rfl)
@[simp] theorem reg_upd (r : RegName) (i j : Nat) (v : W64) : (apply (.reg r i j v) s).upd = s.upd := (rfl)
@[simp] theorem reg_cus (r : RegName) (i j : Nat) (v : W64) : (apply (.reg r i j v) s).cus = s.cus := (rfl)
@[simp] theorem reg_bell (r : RegName) (i j : Nat) (v : W64) : (apply (.reg r i j v) s).bell = s.bell := (rfl)
@[simp] theorem reg_link (r : RegName) (i j : Nat) (v : W64) : (apply (.reg r i j v) s).link = s.link := (rfl)
@[simp] theorem reg_en (r : RegName) (i j : Nat) (v : W64) : (apply (.reg r i j v) s).en = s.en := (rfl)
@[simp] theorem reg_shd (r : RegName) (i j : Nat) (v : W64) : (apply (.reg r i j v) s).shd = s.shd := (rfl)
@[simp] theorem reg_hm (r : RegName) (i j : Nat) (v : W64) : (apply (.reg r i j v) s).hm = s.hm := (rfl)
@[simp] theorem reg_rst (r : RegName) (i j : Nat) (v : W64) : (apply (.reg r i j v) s).rst = s.rst := (rfl)
@[simp] theorem reg_pow (r : RegName) (i j : Nat) (v : W64) : (apply (.reg r i j v) s).pow = s.pow := (rfl)

@[simp] theorem regsReset_pending (c : RegName → Bool) : (apply (.regsReset c) s).pending = s.pending := (rfl)
@[simp] theorem regsReset_now (c : RegName → Bool) : (apply (.regsReset c) s).now = s.now := (rfl)
@[simp] theorem regsReset_free (c : RegName → Bool) : (apply (.regsReset c) s).free = s.free := (rfl)
@[simp] theorem regsReset_out (c : RegName → Bool) : (apply (.regsReset c) s).out = s.out := (rfl)
@[simp] theorem regsReset_regs (c : RegName → Bool) : (apply (.regsReset c) s).regs = s.regs.filter fun e => !RegName.all.any fun r => c r && decide (e.1 / 2 ^ 32 = r.ctorIdx) := (rfl)
@[simp] theorem regsReset_mem (c : RegName → Bool) : (apply (.regsReset c) s).mem = s.mem := (rfl)
@[simp] theorem regsReset_floor (c : RegName → Bool) : (apply (.regsReset c) s).floor = s.floor := (rfl)
@[simp] theorem regsReset_life (c : RegName → Bool) : (apply (.regsReset c) s).life = s.life := (rfl)
@[simp] theorem regsReset_flashLog (c : RegName → Bool) : (apply (.regsReset c) s).flashLog = s.flashLog := (rfl)
@[simp] theorem regsReset_log (c : RegName → Bool) : (apply (.regsReset c) s).log = s.log := (rfl)
@[simp] theorem regsReset_time (c : RegName → Bool) : (apply (.regsReset c) s).time = s.time := (rfl)
@[simp] theorem regsReset_chart (c : RegName → Bool) : (apply (.regsReset c) s).chart = s.chart := (rfl)
@[simp] theorem regsReset_tide (c : RegName → Bool) : (apply (.regsReset c) s).tide = s.tide := (rfl)
@[simp] theorem regsReset_tiles (c : RegName → Bool) : (apply (.regsReset c) s).tiles = s.tiles := (rfl)
@[simp] theorem regsReset_num (c : RegName → Bool) : (apply (.regsReset c) s).num = s.num := (rfl)
@[simp] theorem regsReset_sec (c : RegName → Bool) : (apply (.regsReset c) s).sec = s.sec := (rfl)
@[simp] theorem regsReset_tier (c : RegName → Bool) : (apply (.regsReset c) s).tier = s.tier := (rfl)
@[simp] theorem regsReset_coh (c : RegName → Bool) : (apply (.regsReset c) s).coh = s.coh := (rfl)
@[simp] theorem regsReset_hural (c : RegName → Bool) : (apply (.regsReset c) s).hural = s.hural := (rfl)
@[simp] theorem regsReset_upd (c : RegName → Bool) : (apply (.regsReset c) s).upd = s.upd := (rfl)
@[simp] theorem regsReset_cus (c : RegName → Bool) : (apply (.regsReset c) s).cus = s.cus := (rfl)
@[simp] theorem regsReset_bell (c : RegName → Bool) : (apply (.regsReset c) s).bell = s.bell := (rfl)
@[simp] theorem regsReset_link (c : RegName → Bool) : (apply (.regsReset c) s).link = s.link := (rfl)
@[simp] theorem regsReset_en (c : RegName → Bool) : (apply (.regsReset c) s).en = s.en := (rfl)
@[simp] theorem regsReset_shd (c : RegName → Bool) : (apply (.regsReset c) s).shd = s.shd := (rfl)
@[simp] theorem regsReset_hm (c : RegName → Bool) : (apply (.regsReset c) s).hm = s.hm := (rfl)
@[simp] theorem regsReset_rst (c : RegName → Bool) : (apply (.regsReset c) s).rst = s.rst := (rfl)
@[simp] theorem regsReset_pow (c : RegName → Bool) : (apply (.regsReset c) s).pow = s.pow := (rfl)

@[simp] theorem mem_pending (a : Nat) (b : Byte) : (apply (.mem a b) s).pending = s.pending := (rfl)
@[simp] theorem mem_now (a : Nat) (b : Byte) : (apply (.mem a b) s).now = s.now := (rfl)
@[simp] theorem mem_free (a : Nat) (b : Byte) : (apply (.mem a b) s).free = s.free := (rfl)
@[simp] theorem mem_out (a : Nat) (b : Byte) : (apply (.mem a b) s).out = s.out := (rfl)
@[simp] theorem mem_regs (a : Nat) (b : Byte) : (apply (.mem a b) s).regs = s.regs := (rfl)
@[simp] theorem mem_mem (a : Nat) (b : Byte) : (apply (.mem a b) s).mem = Cells.put 0 s.mem a b := (rfl)
@[simp] theorem mem_floor (a : Nat) (b : Byte) : (apply (.mem a b) s).floor = s.floor := (rfl)
@[simp] theorem mem_life (a : Nat) (b : Byte) : (apply (.mem a b) s).life = s.life := (rfl)
@[simp] theorem mem_flashLog (a : Nat) (b : Byte) : (apply (.mem a b) s).flashLog = s.flashLog := (rfl)
@[simp] theorem mem_log (a : Nat) (b : Byte) : (apply (.mem a b) s).log = s.log := (rfl)
@[simp] theorem mem_time (a : Nat) (b : Byte) : (apply (.mem a b) s).time = s.time := (rfl)
@[simp] theorem mem_chart (a : Nat) (b : Byte) : (apply (.mem a b) s).chart = s.chart := (rfl)
@[simp] theorem mem_tide (a : Nat) (b : Byte) : (apply (.mem a b) s).tide = s.tide := (rfl)
@[simp] theorem mem_tiles (a : Nat) (b : Byte) : (apply (.mem a b) s).tiles = s.tiles := (rfl)
@[simp] theorem mem_num (a : Nat) (b : Byte) : (apply (.mem a b) s).num = s.num := (rfl)
@[simp] theorem mem_sec (a : Nat) (b : Byte) : (apply (.mem a b) s).sec = s.sec := (rfl)
@[simp] theorem mem_tier (a : Nat) (b : Byte) : (apply (.mem a b) s).tier = s.tier := (rfl)
@[simp] theorem mem_coh (a : Nat) (b : Byte) : (apply (.mem a b) s).coh = s.coh := (rfl)
@[simp] theorem mem_hural (a : Nat) (b : Byte) : (apply (.mem a b) s).hural = s.hural := (rfl)
@[simp] theorem mem_upd (a : Nat) (b : Byte) : (apply (.mem a b) s).upd = s.upd := (rfl)
@[simp] theorem mem_cus (a : Nat) (b : Byte) : (apply (.mem a b) s).cus = s.cus := (rfl)
@[simp] theorem mem_bell (a : Nat) (b : Byte) : (apply (.mem a b) s).bell = s.bell := (rfl)
@[simp] theorem mem_link (a : Nat) (b : Byte) : (apply (.mem a b) s).link = s.link := (rfl)
@[simp] theorem mem_en (a : Nat) (b : Byte) : (apply (.mem a b) s).en = s.en := (rfl)
@[simp] theorem mem_shd (a : Nat) (b : Byte) : (apply (.mem a b) s).shd = s.shd := (rfl)
@[simp] theorem mem_hm (a : Nat) (b : Byte) : (apply (.mem a b) s).hm = s.hm := (rfl)
@[simp] theorem mem_rst (a : Nat) (b : Byte) : (apply (.mem a b) s).rst = s.rst := (rfl)
@[simp] theorem mem_pow (a : Nat) (b : Byte) : (apply (.mem a b) s).pow = s.pow := (rfl)

@[simp] theorem clear_pending (a n : Nat) : (apply (.clear a n) s).pending = s.pending := (rfl)
@[simp] theorem clear_now (a n : Nat) : (apply (.clear a n) s).now = s.now := (rfl)
@[simp] theorem clear_free (a n : Nat) : (apply (.clear a n) s).free = s.free := (rfl)
@[simp] theorem clear_out (a n : Nat) : (apply (.clear a n) s).out = s.out := (rfl)
@[simp] theorem clear_regs (a n : Nat) : (apply (.clear a n) s).regs = s.regs := (rfl)
@[simp] theorem clear_mem (a n : Nat) : (apply (.clear a n) s).mem = s.mem.filter fun c => decide (c.1 < a) || decide (a + n ≤ c.1) := (rfl)
@[simp] theorem clear_floor (a n : Nat) : (apply (.clear a n) s).floor = s.floor := (rfl)
@[simp] theorem clear_life (a n : Nat) : (apply (.clear a n) s).life = s.life := (rfl)
@[simp] theorem clear_flashLog (a n : Nat) : (apply (.clear a n) s).flashLog = s.flashLog := (rfl)
@[simp] theorem clear_log (a n : Nat) : (apply (.clear a n) s).log = s.log := (rfl)
@[simp] theorem clear_time (a n : Nat) : (apply (.clear a n) s).time = s.time := (rfl)
@[simp] theorem clear_chart (a n : Nat) : (apply (.clear a n) s).chart = s.chart := (rfl)
@[simp] theorem clear_tide (a n : Nat) : (apply (.clear a n) s).tide = s.tide := (rfl)
@[simp] theorem clear_tiles (a n : Nat) : (apply (.clear a n) s).tiles = s.tiles := (rfl)
@[simp] theorem clear_num (a n : Nat) : (apply (.clear a n) s).num = s.num := (rfl)
@[simp] theorem clear_sec (a n : Nat) : (apply (.clear a n) s).sec = s.sec := (rfl)
@[simp] theorem clear_tier (a n : Nat) : (apply (.clear a n) s).tier = s.tier := (rfl)
@[simp] theorem clear_coh (a n : Nat) : (apply (.clear a n) s).coh = s.coh := (rfl)
@[simp] theorem clear_hural (a n : Nat) : (apply (.clear a n) s).hural = s.hural := (rfl)
@[simp] theorem clear_upd (a n : Nat) : (apply (.clear a n) s).upd = s.upd := (rfl)
@[simp] theorem clear_cus (a n : Nat) : (apply (.clear a n) s).cus = s.cus := (rfl)
@[simp] theorem clear_bell (a n : Nat) : (apply (.clear a n) s).bell = s.bell := (rfl)
@[simp] theorem clear_link (a n : Nat) : (apply (.clear a n) s).link = s.link := (rfl)
@[simp] theorem clear_en (a n : Nat) : (apply (.clear a n) s).en = s.en := (rfl)
@[simp] theorem clear_shd (a n : Nat) : (apply (.clear a n) s).shd = s.shd := (rfl)
@[simp] theorem clear_hm (a n : Nat) : (apply (.clear a n) s).hm = s.hm := (rfl)
@[simp] theorem clear_rst (a n : Nat) : (apply (.clear a n) s).rst = s.rst := (rfl)
@[simp] theorem clear_pow (a n : Nat) : (apply (.clear a n) s).pow = s.pow := (rfl)

@[simp] theorem floor_pending (v : W64) : (apply (.floor v) s).pending = s.pending := (rfl)
@[simp] theorem floor_now (v : W64) : (apply (.floor v) s).now = s.now := (rfl)
@[simp] theorem floor_free (v : W64) : (apply (.floor v) s).free = s.free := (rfl)
@[simp] theorem floor_out (v : W64) : (apply (.floor v) s).out = s.out := (rfl)
@[simp] theorem floor_regs (v : W64) : (apply (.floor v) s).regs = s.regs := (rfl)
@[simp] theorem floor_mem (v : W64) : (apply (.floor v) s).mem = s.mem := (rfl)
@[simp] theorem floor_floor (v : W64) : (apply (.floor v) s).floor = if s.floor.toNat < v.toNat then v else s.floor := (rfl)
@[simp] theorem floor_life (v : W64) : (apply (.floor v) s).life = s.life := (rfl)
@[simp] theorem floor_flashLog (v : W64) : (apply (.floor v) s).flashLog = s.flashLog := (rfl)
@[simp] theorem floor_log (v : W64) : (apply (.floor v) s).log = s.log := (rfl)
@[simp] theorem floor_time (v : W64) : (apply (.floor v) s).time = s.time := (rfl)
@[simp] theorem floor_chart (v : W64) : (apply (.floor v) s).chart = s.chart := (rfl)
@[simp] theorem floor_tide (v : W64) : (apply (.floor v) s).tide = s.tide := (rfl)
@[simp] theorem floor_tiles (v : W64) : (apply (.floor v) s).tiles = s.tiles := (rfl)
@[simp] theorem floor_num (v : W64) : (apply (.floor v) s).num = s.num := (rfl)
@[simp] theorem floor_sec (v : W64) : (apply (.floor v) s).sec = s.sec := (rfl)
@[simp] theorem floor_tier (v : W64) : (apply (.floor v) s).tier = s.tier := (rfl)
@[simp] theorem floor_coh (v : W64) : (apply (.floor v) s).coh = s.coh := (rfl)
@[simp] theorem floor_hural (v : W64) : (apply (.floor v) s).hural = s.hural := (rfl)
@[simp] theorem floor_upd (v : W64) : (apply (.floor v) s).upd = s.upd := (rfl)
@[simp] theorem floor_cus (v : W64) : (apply (.floor v) s).cus = s.cus := (rfl)
@[simp] theorem floor_bell (v : W64) : (apply (.floor v) s).bell = s.bell := (rfl)
@[simp] theorem floor_link (v : W64) : (apply (.floor v) s).link = s.link := (rfl)
@[simp] theorem floor_en (v : W64) : (apply (.floor v) s).en = s.en := (rfl)
@[simp] theorem floor_shd (v : W64) : (apply (.floor v) s).shd = s.shd := (rfl)
@[simp] theorem floor_hm (v : W64) : (apply (.floor v) s).hm = s.hm := (rfl)
@[simp] theorem floor_rst (v : W64) : (apply (.floor v) s).rst = s.rst := (rfl)
@[simp] theorem floor_pow (v : W64) : (apply (.floor v) s).pow = s.pow := (rfl)

@[simp] theorem life_pending (l : Life) : (apply (.life l) s).pending = s.pending := (rfl)
@[simp] theorem life_now (l : Life) : (apply (.life l) s).now = s.now := (rfl)
@[simp] theorem life_free (l : Life) : (apply (.life l) s).free = s.free := (rfl)
@[simp] theorem life_out (l : Life) : (apply (.life l) s).out = s.out := (rfl)
@[simp] theorem life_regs (l : Life) : (apply (.life l) s).regs = s.regs := (rfl)
@[simp] theorem life_mem (l : Life) : (apply (.life l) s).mem = s.mem := (rfl)
@[simp] theorem life_floor (l : Life) : (apply (.life l) s).floor = s.floor := (rfl)
@[simp] theorem life_life (l : Life) : (apply (.life l) s).life = if s.life.mayGo l then l else s.life := (rfl)
@[simp] theorem life_flashLog (l : Life) : (apply (.life l) s).flashLog = s.flashLog := (rfl)
@[simp] theorem life_log (l : Life) : (apply (.life l) s).log = s.log := (rfl)
@[simp] theorem life_time (l : Life) : (apply (.life l) s).time = s.time := (rfl)
@[simp] theorem life_chart (l : Life) : (apply (.life l) s).chart = s.chart := (rfl)
@[simp] theorem life_tide (l : Life) : (apply (.life l) s).tide = s.tide := (rfl)
@[simp] theorem life_tiles (l : Life) : (apply (.life l) s).tiles = s.tiles := (rfl)
@[simp] theorem life_num (l : Life) : (apply (.life l) s).num = s.num := (rfl)
@[simp] theorem life_sec (l : Life) : (apply (.life l) s).sec = s.sec := (rfl)
@[simp] theorem life_tier (l : Life) : (apply (.life l) s).tier = s.tier := (rfl)
@[simp] theorem life_coh (l : Life) : (apply (.life l) s).coh = s.coh := (rfl)
@[simp] theorem life_hural (l : Life) : (apply (.life l) s).hural = s.hural := (rfl)
@[simp] theorem life_upd (l : Life) : (apply (.life l) s).upd = s.upd := (rfl)
@[simp] theorem life_cus (l : Life) : (apply (.life l) s).cus = s.cus := (rfl)
@[simp] theorem life_bell (l : Life) : (apply (.life l) s).bell = s.bell := (rfl)
@[simp] theorem life_link (l : Life) : (apply (.life l) s).link = s.link := (rfl)
@[simp] theorem life_en (l : Life) : (apply (.life l) s).en = s.en := (rfl)
@[simp] theorem life_shd (l : Life) : (apply (.life l) s).shd = s.shd := (rfl)
@[simp] theorem life_hm (l : Life) : (apply (.life l) s).hm = s.hm := (rfl)
@[simp] theorem life_rst (l : Life) : (apply (.life l) s).rst = s.rst := (rfl)
@[simp] theorem life_pow (l : Life) : (apply (.life l) s).pow = s.pow := (rfl)

@[simp] theorem flashLog_pending (l : List LogRec) : (apply (.flashLog l) s).pending = s.pending := (rfl)
@[simp] theorem flashLog_now (l : List LogRec) : (apply (.flashLog l) s).now = s.now := (rfl)
@[simp] theorem flashLog_free (l : List LogRec) : (apply (.flashLog l) s).free = s.free := (rfl)
@[simp] theorem flashLog_out (l : List LogRec) : (apply (.flashLog l) s).out = s.out := (rfl)
@[simp] theorem flashLog_regs (l : List LogRec) : (apply (.flashLog l) s).regs = s.regs := (rfl)
@[simp] theorem flashLog_mem (l : List LogRec) : (apply (.flashLog l) s).mem = s.mem := (rfl)
@[simp] theorem flashLog_floor (l : List LogRec) : (apply (.flashLog l) s).floor = s.floor := (rfl)
@[simp] theorem flashLog_life (l : List LogRec) : (apply (.flashLog l) s).life = s.life := (rfl)
@[simp] theorem flashLog_flashLog (l : List LogRec) : (apply (.flashLog l) s).flashLog = s.flashLog ++ l := (rfl)
@[simp] theorem flashLog_log (l : List LogRec) : (apply (.flashLog l) s).log = s.log := (rfl)
@[simp] theorem flashLog_time (l : List LogRec) : (apply (.flashLog l) s).time = s.time := (rfl)
@[simp] theorem flashLog_chart (l : List LogRec) : (apply (.flashLog l) s).chart = s.chart := (rfl)
@[simp] theorem flashLog_tide (l : List LogRec) : (apply (.flashLog l) s).tide = s.tide := (rfl)
@[simp] theorem flashLog_tiles (l : List LogRec) : (apply (.flashLog l) s).tiles = s.tiles := (rfl)
@[simp] theorem flashLog_num (l : List LogRec) : (apply (.flashLog l) s).num = s.num := (rfl)
@[simp] theorem flashLog_sec (l : List LogRec) : (apply (.flashLog l) s).sec = s.sec := (rfl)
@[simp] theorem flashLog_tier (l : List LogRec) : (apply (.flashLog l) s).tier = s.tier := (rfl)
@[simp] theorem flashLog_coh (l : List LogRec) : (apply (.flashLog l) s).coh = s.coh := (rfl)
@[simp] theorem flashLog_hural (l : List LogRec) : (apply (.flashLog l) s).hural = s.hural := (rfl)
@[simp] theorem flashLog_upd (l : List LogRec) : (apply (.flashLog l) s).upd = s.upd := (rfl)
@[simp] theorem flashLog_cus (l : List LogRec) : (apply (.flashLog l) s).cus = s.cus := (rfl)
@[simp] theorem flashLog_bell (l : List LogRec) : (apply (.flashLog l) s).bell = s.bell := (rfl)
@[simp] theorem flashLog_link (l : List LogRec) : (apply (.flashLog l) s).link = s.link := (rfl)
@[simp] theorem flashLog_en (l : List LogRec) : (apply (.flashLog l) s).en = s.en := (rfl)
@[simp] theorem flashLog_shd (l : List LogRec) : (apply (.flashLog l) s).shd = s.shd := (rfl)
@[simp] theorem flashLog_hm (l : List LogRec) : (apply (.flashLog l) s).hm = s.hm := (rfl)
@[simp] theorem flashLog_rst (l : List LogRec) : (apply (.flashLog l) s).rst = s.rst := (rfl)
@[simp] theorem flashLog_pow (l : List LogRec) : (apply (.flashLog l) s).pow = s.pow := (rfl)

@[simp] theorem send_pending (o : Out) : (apply (.send o) s).pending = s.pending := (rfl)
@[simp] theorem send_now (o : Out) : (apply (.send o) s).now = s.now := (rfl)
@[simp] theorem send_free (o : Out) : (apply (.send o) s).free = s.free := (rfl)
@[simp] theorem send_out (o : Out) : (apply (.send o) s).out = o :: s.out := (rfl)
@[simp] theorem send_regs (o : Out) : (apply (.send o) s).regs = s.regs := (rfl)
@[simp] theorem send_mem (o : Out) : (apply (.send o) s).mem = s.mem := (rfl)
@[simp] theorem send_floor (o : Out) : (apply (.send o) s).floor = s.floor := (rfl)
@[simp] theorem send_life (o : Out) : (apply (.send o) s).life = s.life := (rfl)
@[simp] theorem send_flashLog (o : Out) : (apply (.send o) s).flashLog = s.flashLog := (rfl)
@[simp] theorem send_log (o : Out) : (apply (.send o) s).log = s.log := (rfl)
@[simp] theorem send_time (o : Out) : (apply (.send o) s).time = s.time := (rfl)
@[simp] theorem send_chart (o : Out) : (apply (.send o) s).chart = s.chart := (rfl)
@[simp] theorem send_tide (o : Out) : (apply (.send o) s).tide = s.tide := (rfl)
@[simp] theorem send_tiles (o : Out) : (apply (.send o) s).tiles = s.tiles := (rfl)
@[simp] theorem send_num (o : Out) : (apply (.send o) s).num = s.num := (rfl)
@[simp] theorem send_sec (o : Out) : (apply (.send o) s).sec = s.sec := (rfl)
@[simp] theorem send_tier (o : Out) : (apply (.send o) s).tier = s.tier := (rfl)
@[simp] theorem send_coh (o : Out) : (apply (.send o) s).coh = s.coh := (rfl)
@[simp] theorem send_hural (o : Out) : (apply (.send o) s).hural = s.hural := (rfl)
@[simp] theorem send_upd (o : Out) : (apply (.send o) s).upd = s.upd := (rfl)
@[simp] theorem send_cus (o : Out) : (apply (.send o) s).cus = s.cus := (rfl)
@[simp] theorem send_bell (o : Out) : (apply (.send o) s).bell = s.bell := (rfl)
@[simp] theorem send_link (o : Out) : (apply (.send o) s).link = s.link := (rfl)
@[simp] theorem send_en (o : Out) : (apply (.send o) s).en = s.en := (rfl)
@[simp] theorem send_shd (o : Out) : (apply (.send o) s).shd = s.shd := (rfl)
@[simp] theorem send_hm (o : Out) : (apply (.send o) s).hm = s.hm := (rfl)
@[simp] theorem send_rst (o : Out) : (apply (.send o) s).rst = s.rst := (rfl)
@[simp] theorem send_pow (o : Out) : (apply (.send o) s).pow = s.pow := (rfl)

@[simp] theorem fresh_pending : (apply (.fresh) s).pending = s.pending := (rfl)
@[simp] theorem fresh_now : (apply (.fresh) s).now = s.now := (rfl)
@[simp] theorem fresh_free : (apply (.fresh) s).free = s.free + 1 := (rfl)
@[simp] theorem fresh_out : (apply (.fresh) s).out = s.out := (rfl)
@[simp] theorem fresh_regs : (apply (.fresh) s).regs = s.regs := (rfl)
@[simp] theorem fresh_mem : (apply (.fresh) s).mem = s.mem := (rfl)
@[simp] theorem fresh_floor : (apply (.fresh) s).floor = s.floor := (rfl)
@[simp] theorem fresh_life : (apply (.fresh) s).life = s.life := (rfl)
@[simp] theorem fresh_flashLog : (apply (.fresh) s).flashLog = s.flashLog := (rfl)
@[simp] theorem fresh_log : (apply (.fresh) s).log = s.log := (rfl)
@[simp] theorem fresh_time : (apply (.fresh) s).time = s.time := (rfl)
@[simp] theorem fresh_chart : (apply (.fresh) s).chart = s.chart := (rfl)
@[simp] theorem fresh_tide : (apply (.fresh) s).tide = s.tide := (rfl)
@[simp] theorem fresh_tiles : (apply (.fresh) s).tiles = s.tiles := (rfl)
@[simp] theorem fresh_num : (apply (.fresh) s).num = s.num := (rfl)
@[simp] theorem fresh_sec : (apply (.fresh) s).sec = s.sec := (rfl)
@[simp] theorem fresh_tier : (apply (.fresh) s).tier = s.tier := (rfl)
@[simp] theorem fresh_coh : (apply (.fresh) s).coh = s.coh := (rfl)
@[simp] theorem fresh_hural : (apply (.fresh) s).hural = s.hural := (rfl)
@[simp] theorem fresh_upd : (apply (.fresh) s).upd = s.upd := (rfl)
@[simp] theorem fresh_cus : (apply (.fresh) s).cus = s.cus := (rfl)
@[simp] theorem fresh_bell : (apply (.fresh) s).bell = s.bell := (rfl)
@[simp] theorem fresh_link : (apply (.fresh) s).link = s.link := (rfl)
@[simp] theorem fresh_en : (apply (.fresh) s).en = s.en := (rfl)
@[simp] theorem fresh_shd : (apply (.fresh) s).shd = s.shd := (rfl)
@[simp] theorem fresh_hm : (apply (.fresh) s).hm = s.hm := (rfl)
@[simp] theorem fresh_rst : (apply (.fresh) s).rst = s.rst := (rfl)
@[simp] theorem fresh_pow : (apply (.fresh) s).pow = s.pow := (rfl)

@[simp] theorem time_pending (n : Nat) : (apply (.time n) s).pending = s.pending := (rfl)
@[simp] theorem time_now (n : Nat) : (apply (.time n) s).now = s.now + n := (rfl)
@[simp] theorem time_free (n : Nat) : (apply (.time n) s).free = s.free := (rfl)
@[simp] theorem time_out (n : Nat) : (apply (.time n) s).out = s.out := (rfl)
@[simp] theorem time_regs (n : Nat) : (apply (.time n) s).regs = s.regs := (rfl)
@[simp] theorem time_mem (n : Nat) : (apply (.time n) s).mem = s.mem := (rfl)
@[simp] theorem time_floor (n : Nat) : (apply (.time n) s).floor = s.floor := (rfl)
@[simp] theorem time_life (n : Nat) : (apply (.time n) s).life = s.life := (rfl)
@[simp] theorem time_flashLog (n : Nat) : (apply (.time n) s).flashLog = s.flashLog := (rfl)
@[simp] theorem time_log (n : Nat) : (apply (.time n) s).log = s.log := (rfl)
@[simp] theorem time_time (n : Nat) : (apply (.time n) s).time = s.time := (rfl)
@[simp] theorem time_chart (n : Nat) : (apply (.time n) s).chart = s.chart := (rfl)
@[simp] theorem time_tide (n : Nat) : (apply (.time n) s).tide = s.tide := (rfl)
@[simp] theorem time_tiles (n : Nat) : (apply (.time n) s).tiles = s.tiles := (rfl)
@[simp] theorem time_num (n : Nat) : (apply (.time n) s).num = s.num := (rfl)
@[simp] theorem time_sec (n : Nat) : (apply (.time n) s).sec = s.sec := (rfl)
@[simp] theorem time_tier (n : Nat) : (apply (.time n) s).tier = s.tier := (rfl)
@[simp] theorem time_coh (n : Nat) : (apply (.time n) s).coh = s.coh := (rfl)
@[simp] theorem time_hural (n : Nat) : (apply (.time n) s).hural = s.hural := (rfl)
@[simp] theorem time_upd (n : Nat) : (apply (.time n) s).upd = s.upd := (rfl)
@[simp] theorem time_cus (n : Nat) : (apply (.time n) s).cus = s.cus := (rfl)
@[simp] theorem time_bell (n : Nat) : (apply (.time n) s).bell = s.bell := (rfl)
@[simp] theorem time_link (n : Nat) : (apply (.time n) s).link = s.link := (rfl)
@[simp] theorem time_en (n : Nat) : (apply (.time n) s).en = s.en := (rfl)
@[simp] theorem time_shd (n : Nat) : (apply (.time n) s).shd = s.shd := (rfl)
@[simp] theorem time_hm (n : Nat) : (apply (.time n) s).hm = s.hm := (rfl)
@[simp] theorem time_rst (n : Nat) : (apply (.time n) s).rst = s.rst := (rfl)
@[simp] theorem time_pow (n : Nat) : (apply (.time n) s).pow = s.pow := (rfl)

@[simp] theorem log_pending (f : LogSt → LogSt) : (apply (.log f) s).pending = s.pending := (rfl)
@[simp] theorem log_now (f : LogSt → LogSt) : (apply (.log f) s).now = s.now := (rfl)
@[simp] theorem log_free (f : LogSt → LogSt) : (apply (.log f) s).free = s.free := (rfl)
@[simp] theorem log_out (f : LogSt → LogSt) : (apply (.log f) s).out = s.out := (rfl)
@[simp] theorem log_regs (f : LogSt → LogSt) : (apply (.log f) s).regs = s.regs := (rfl)
@[simp] theorem log_mem (f : LogSt → LogSt) : (apply (.log f) s).mem = s.mem := (rfl)
@[simp] theorem log_floor (f : LogSt → LogSt) : (apply (.log f) s).floor = s.floor := (rfl)
@[simp] theorem log_life (f : LogSt → LogSt) : (apply (.log f) s).life = s.life := (rfl)
@[simp] theorem log_flashLog (f : LogSt → LogSt) : (apply (.log f) s).flashLog = s.flashLog := (rfl)
@[simp] theorem log_log (f : LogSt → LogSt) : (apply (.log f) s).log = f s.log := (rfl)
@[simp] theorem log_time (f : LogSt → LogSt) : (apply (.log f) s).time = s.time := (rfl)
@[simp] theorem log_chart (f : LogSt → LogSt) : (apply (.log f) s).chart = s.chart := (rfl)
@[simp] theorem log_tide (f : LogSt → LogSt) : (apply (.log f) s).tide = s.tide := (rfl)
@[simp] theorem log_tiles (f : LogSt → LogSt) : (apply (.log f) s).tiles = s.tiles := (rfl)
@[simp] theorem log_num (f : LogSt → LogSt) : (apply (.log f) s).num = s.num := (rfl)
@[simp] theorem log_sec (f : LogSt → LogSt) : (apply (.log f) s).sec = s.sec := (rfl)
@[simp] theorem log_tier (f : LogSt → LogSt) : (apply (.log f) s).tier = s.tier := (rfl)
@[simp] theorem log_coh (f : LogSt → LogSt) : (apply (.log f) s).coh = s.coh := (rfl)
@[simp] theorem log_hural (f : LogSt → LogSt) : (apply (.log f) s).hural = s.hural := (rfl)
@[simp] theorem log_upd (f : LogSt → LogSt) : (apply (.log f) s).upd = s.upd := (rfl)
@[simp] theorem log_cus (f : LogSt → LogSt) : (apply (.log f) s).cus = s.cus := (rfl)
@[simp] theorem log_bell (f : LogSt → LogSt) : (apply (.log f) s).bell = s.bell := (rfl)
@[simp] theorem log_link (f : LogSt → LogSt) : (apply (.log f) s).link = s.link := (rfl)
@[simp] theorem log_en (f : LogSt → LogSt) : (apply (.log f) s).en = s.en := (rfl)
@[simp] theorem log_shd (f : LogSt → LogSt) : (apply (.log f) s).shd = s.shd := (rfl)
@[simp] theorem log_hm (f : LogSt → LogSt) : (apply (.log f) s).hm = s.hm := (rfl)
@[simp] theorem log_rst (f : LogSt → LogSt) : (apply (.log f) s).rst = s.rst := (rfl)
@[simp] theorem log_pow (f : LogSt → LogSt) : (apply (.log f) s).pow = s.pow := (rfl)

@[simp] theorem calendar_pending (f : TimeSt → TimeSt) : (apply (.calendar f) s).pending = s.pending := (rfl)
@[simp] theorem calendar_now (f : TimeSt → TimeSt) : (apply (.calendar f) s).now = s.now := (rfl)
@[simp] theorem calendar_free (f : TimeSt → TimeSt) : (apply (.calendar f) s).free = s.free := (rfl)
@[simp] theorem calendar_out (f : TimeSt → TimeSt) : (apply (.calendar f) s).out = s.out := (rfl)
@[simp] theorem calendar_regs (f : TimeSt → TimeSt) : (apply (.calendar f) s).regs = s.regs := (rfl)
@[simp] theorem calendar_mem (f : TimeSt → TimeSt) : (apply (.calendar f) s).mem = s.mem := (rfl)
@[simp] theorem calendar_floor (f : TimeSt → TimeSt) : (apply (.calendar f) s).floor = s.floor := (rfl)
@[simp] theorem calendar_life (f : TimeSt → TimeSt) : (apply (.calendar f) s).life = s.life := (rfl)
@[simp] theorem calendar_flashLog (f : TimeSt → TimeSt) : (apply (.calendar f) s).flashLog = s.flashLog := (rfl)
@[simp] theorem calendar_log (f : TimeSt → TimeSt) : (apply (.calendar f) s).log = s.log := (rfl)
@[simp] theorem calendar_time (f : TimeSt → TimeSt) : (apply (.calendar f) s).time = f s.time := (rfl)
@[simp] theorem calendar_chart (f : TimeSt → TimeSt) : (apply (.calendar f) s).chart = s.chart := (rfl)
@[simp] theorem calendar_tide (f : TimeSt → TimeSt) : (apply (.calendar f) s).tide = s.tide := (rfl)
@[simp] theorem calendar_tiles (f : TimeSt → TimeSt) : (apply (.calendar f) s).tiles = s.tiles := (rfl)
@[simp] theorem calendar_num (f : TimeSt → TimeSt) : (apply (.calendar f) s).num = s.num := (rfl)
@[simp] theorem calendar_sec (f : TimeSt → TimeSt) : (apply (.calendar f) s).sec = s.sec := (rfl)
@[simp] theorem calendar_tier (f : TimeSt → TimeSt) : (apply (.calendar f) s).tier = s.tier := (rfl)
@[simp] theorem calendar_coh (f : TimeSt → TimeSt) : (apply (.calendar f) s).coh = s.coh := (rfl)
@[simp] theorem calendar_hural (f : TimeSt → TimeSt) : (apply (.calendar f) s).hural = s.hural := (rfl)
@[simp] theorem calendar_upd (f : TimeSt → TimeSt) : (apply (.calendar f) s).upd = s.upd := (rfl)
@[simp] theorem calendar_cus (f : TimeSt → TimeSt) : (apply (.calendar f) s).cus = s.cus := (rfl)
@[simp] theorem calendar_bell (f : TimeSt → TimeSt) : (apply (.calendar f) s).bell = s.bell := (rfl)
@[simp] theorem calendar_link (f : TimeSt → TimeSt) : (apply (.calendar f) s).link = s.link := (rfl)
@[simp] theorem calendar_en (f : TimeSt → TimeSt) : (apply (.calendar f) s).en = s.en := (rfl)
@[simp] theorem calendar_shd (f : TimeSt → TimeSt) : (apply (.calendar f) s).shd = s.shd := (rfl)
@[simp] theorem calendar_hm (f : TimeSt → TimeSt) : (apply (.calendar f) s).hm = s.hm := (rfl)
@[simp] theorem calendar_rst (f : TimeSt → TimeSt) : (apply (.calendar f) s).rst = s.rst := (rfl)
@[simp] theorem calendar_pow (f : TimeSt → TimeSt) : (apply (.calendar f) s).pow = s.pow := (rfl)

@[simp] theorem chart_pending (f : ChartSt → ChartSt) : (apply (.chart f) s).pending = s.pending := (rfl)
@[simp] theorem chart_now (f : ChartSt → ChartSt) : (apply (.chart f) s).now = s.now := (rfl)
@[simp] theorem chart_free (f : ChartSt → ChartSt) : (apply (.chart f) s).free = s.free := (rfl)
@[simp] theorem chart_out (f : ChartSt → ChartSt) : (apply (.chart f) s).out = s.out := (rfl)
@[simp] theorem chart_regs (f : ChartSt → ChartSt) : (apply (.chart f) s).regs = s.regs := (rfl)
@[simp] theorem chart_mem (f : ChartSt → ChartSt) : (apply (.chart f) s).mem = s.mem := (rfl)
@[simp] theorem chart_floor (f : ChartSt → ChartSt) : (apply (.chart f) s).floor = s.floor := (rfl)
@[simp] theorem chart_life (f : ChartSt → ChartSt) : (apply (.chart f) s).life = s.life := (rfl)
@[simp] theorem chart_flashLog (f : ChartSt → ChartSt) : (apply (.chart f) s).flashLog = s.flashLog := (rfl)
@[simp] theorem chart_log (f : ChartSt → ChartSt) : (apply (.chart f) s).log = s.log := (rfl)
@[simp] theorem chart_time (f : ChartSt → ChartSt) : (apply (.chart f) s).time = s.time := (rfl)
@[simp] theorem chart_chart (f : ChartSt → ChartSt) : (apply (.chart f) s).chart = f s.chart := (rfl)
@[simp] theorem chart_tide (f : ChartSt → ChartSt) : (apply (.chart f) s).tide = s.tide := (rfl)
@[simp] theorem chart_tiles (f : ChartSt → ChartSt) : (apply (.chart f) s).tiles = s.tiles := (rfl)
@[simp] theorem chart_num (f : ChartSt → ChartSt) : (apply (.chart f) s).num = s.num := (rfl)
@[simp] theorem chart_sec (f : ChartSt → ChartSt) : (apply (.chart f) s).sec = s.sec := (rfl)
@[simp] theorem chart_tier (f : ChartSt → ChartSt) : (apply (.chart f) s).tier = s.tier := (rfl)
@[simp] theorem chart_coh (f : ChartSt → ChartSt) : (apply (.chart f) s).coh = s.coh := (rfl)
@[simp] theorem chart_hural (f : ChartSt → ChartSt) : (apply (.chart f) s).hural = s.hural := (rfl)
@[simp] theorem chart_upd (f : ChartSt → ChartSt) : (apply (.chart f) s).upd = s.upd := (rfl)
@[simp] theorem chart_cus (f : ChartSt → ChartSt) : (apply (.chart f) s).cus = s.cus := (rfl)
@[simp] theorem chart_bell (f : ChartSt → ChartSt) : (apply (.chart f) s).bell = s.bell := (rfl)
@[simp] theorem chart_link (f : ChartSt → ChartSt) : (apply (.chart f) s).link = s.link := (rfl)
@[simp] theorem chart_en (f : ChartSt → ChartSt) : (apply (.chart f) s).en = s.en := (rfl)
@[simp] theorem chart_shd (f : ChartSt → ChartSt) : (apply (.chart f) s).shd = s.shd := (rfl)
@[simp] theorem chart_hm (f : ChartSt → ChartSt) : (apply (.chart f) s).hm = s.hm := (rfl)
@[simp] theorem chart_rst (f : ChartSt → ChartSt) : (apply (.chart f) s).rst = s.rst := (rfl)
@[simp] theorem chart_pow (f : ChartSt → ChartSt) : (apply (.chart f) s).pow = s.pow := (rfl)

@[simp] theorem tide_pending (f : TideSt → TideSt) : (apply (.tide f) s).pending = s.pending := (rfl)
@[simp] theorem tide_now (f : TideSt → TideSt) : (apply (.tide f) s).now = s.now := (rfl)
@[simp] theorem tide_free (f : TideSt → TideSt) : (apply (.tide f) s).free = s.free := (rfl)
@[simp] theorem tide_out (f : TideSt → TideSt) : (apply (.tide f) s).out = s.out := (rfl)
@[simp] theorem tide_regs (f : TideSt → TideSt) : (apply (.tide f) s).regs = s.regs := (rfl)
@[simp] theorem tide_mem (f : TideSt → TideSt) : (apply (.tide f) s).mem = s.mem := (rfl)
@[simp] theorem tide_floor (f : TideSt → TideSt) : (apply (.tide f) s).floor = s.floor := (rfl)
@[simp] theorem tide_life (f : TideSt → TideSt) : (apply (.tide f) s).life = s.life := (rfl)
@[simp] theorem tide_flashLog (f : TideSt → TideSt) : (apply (.tide f) s).flashLog = s.flashLog := (rfl)
@[simp] theorem tide_log (f : TideSt → TideSt) : (apply (.tide f) s).log = s.log := (rfl)
@[simp] theorem tide_time (f : TideSt → TideSt) : (apply (.tide f) s).time = s.time := (rfl)
@[simp] theorem tide_chart (f : TideSt → TideSt) : (apply (.tide f) s).chart = s.chart := (rfl)
@[simp] theorem tide_tide (f : TideSt → TideSt) : (apply (.tide f) s).tide = f s.tide := (rfl)
@[simp] theorem tide_tiles (f : TideSt → TideSt) : (apply (.tide f) s).tiles = s.tiles := (rfl)
@[simp] theorem tide_num (f : TideSt → TideSt) : (apply (.tide f) s).num = s.num := (rfl)
@[simp] theorem tide_sec (f : TideSt → TideSt) : (apply (.tide f) s).sec = s.sec := (rfl)
@[simp] theorem tide_tier (f : TideSt → TideSt) : (apply (.tide f) s).tier = s.tier := (rfl)
@[simp] theorem tide_coh (f : TideSt → TideSt) : (apply (.tide f) s).coh = s.coh := (rfl)
@[simp] theorem tide_hural (f : TideSt → TideSt) : (apply (.tide f) s).hural = s.hural := (rfl)
@[simp] theorem tide_upd (f : TideSt → TideSt) : (apply (.tide f) s).upd = s.upd := (rfl)
@[simp] theorem tide_cus (f : TideSt → TideSt) : (apply (.tide f) s).cus = s.cus := (rfl)
@[simp] theorem tide_bell (f : TideSt → TideSt) : (apply (.tide f) s).bell = s.bell := (rfl)
@[simp] theorem tide_link (f : TideSt → TideSt) : (apply (.tide f) s).link = s.link := (rfl)
@[simp] theorem tide_en (f : TideSt → TideSt) : (apply (.tide f) s).en = s.en := (rfl)
@[simp] theorem tide_shd (f : TideSt → TideSt) : (apply (.tide f) s).shd = s.shd := (rfl)
@[simp] theorem tide_hm (f : TideSt → TideSt) : (apply (.tide f) s).hm = s.hm := (rfl)
@[simp] theorem tide_rst (f : TideSt → TideSt) : (apply (.tide f) s).rst = s.rst := (rfl)
@[simp] theorem tide_pow (f : TideSt → TideSt) : (apply (.tide f) s).pow = s.pow := (rfl)

@[simp] theorem tiles_pending (f : FMap Tile → FMap Tile) : (apply (.tiles f) s).pending = s.pending := (rfl)
@[simp] theorem tiles_now (f : FMap Tile → FMap Tile) : (apply (.tiles f) s).now = s.now := (rfl)
@[simp] theorem tiles_free (f : FMap Tile → FMap Tile) : (apply (.tiles f) s).free = s.free := (rfl)
@[simp] theorem tiles_out (f : FMap Tile → FMap Tile) : (apply (.tiles f) s).out = s.out := (rfl)
@[simp] theorem tiles_regs (f : FMap Tile → FMap Tile) : (apply (.tiles f) s).regs = s.regs := (rfl)
@[simp] theorem tiles_mem (f : FMap Tile → FMap Tile) : (apply (.tiles f) s).mem = s.mem := (rfl)
@[simp] theorem tiles_floor (f : FMap Tile → FMap Tile) : (apply (.tiles f) s).floor = s.floor := (rfl)
@[simp] theorem tiles_life (f : FMap Tile → FMap Tile) : (apply (.tiles f) s).life = s.life := (rfl)
@[simp] theorem tiles_flashLog (f : FMap Tile → FMap Tile) : (apply (.tiles f) s).flashLog = s.flashLog := (rfl)
@[simp] theorem tiles_log (f : FMap Tile → FMap Tile) : (apply (.tiles f) s).log = s.log := (rfl)
@[simp] theorem tiles_time (f : FMap Tile → FMap Tile) : (apply (.tiles f) s).time = s.time := (rfl)
@[simp] theorem tiles_chart (f : FMap Tile → FMap Tile) : (apply (.tiles f) s).chart = s.chart := (rfl)
@[simp] theorem tiles_tide (f : FMap Tile → FMap Tile) : (apply (.tiles f) s).tide = s.tide := (rfl)
@[simp] theorem tiles_tiles (f : FMap Tile → FMap Tile) : (apply (.tiles f) s).tiles = f s.tiles := (rfl)
@[simp] theorem tiles_num (f : FMap Tile → FMap Tile) : (apply (.tiles f) s).num = s.num := (rfl)
@[simp] theorem tiles_sec (f : FMap Tile → FMap Tile) : (apply (.tiles f) s).sec = s.sec := (rfl)
@[simp] theorem tiles_tier (f : FMap Tile → FMap Tile) : (apply (.tiles f) s).tier = s.tier := (rfl)
@[simp] theorem tiles_coh (f : FMap Tile → FMap Tile) : (apply (.tiles f) s).coh = s.coh := (rfl)
@[simp] theorem tiles_hural (f : FMap Tile → FMap Tile) : (apply (.tiles f) s).hural = s.hural := (rfl)
@[simp] theorem tiles_upd (f : FMap Tile → FMap Tile) : (apply (.tiles f) s).upd = s.upd := (rfl)
@[simp] theorem tiles_cus (f : FMap Tile → FMap Tile) : (apply (.tiles f) s).cus = s.cus := (rfl)
@[simp] theorem tiles_bell (f : FMap Tile → FMap Tile) : (apply (.tiles f) s).bell = s.bell := (rfl)
@[simp] theorem tiles_link (f : FMap Tile → FMap Tile) : (apply (.tiles f) s).link = s.link := (rfl)
@[simp] theorem tiles_en (f : FMap Tile → FMap Tile) : (apply (.tiles f) s).en = s.en := (rfl)
@[simp] theorem tiles_shd (f : FMap Tile → FMap Tile) : (apply (.tiles f) s).shd = s.shd := (rfl)
@[simp] theorem tiles_hm (f : FMap Tile → FMap Tile) : (apply (.tiles f) s).hm = s.hm := (rfl)
@[simp] theorem tiles_rst (f : FMap Tile → FMap Tile) : (apply (.tiles f) s).rst = s.rst := (rfl)
@[simp] theorem tiles_pow (f : FMap Tile → FMap Tile) : (apply (.tiles f) s).pow = s.pow := (rfl)

@[simp] theorem num_pending (f : NumSt → NumSt) : (apply (.num f) s).pending = s.pending := (rfl)
@[simp] theorem num_now (f : NumSt → NumSt) : (apply (.num f) s).now = s.now := (rfl)
@[simp] theorem num_free (f : NumSt → NumSt) : (apply (.num f) s).free = s.free := (rfl)
@[simp] theorem num_out (f : NumSt → NumSt) : (apply (.num f) s).out = s.out := (rfl)
@[simp] theorem num_regs (f : NumSt → NumSt) : (apply (.num f) s).regs = s.regs := (rfl)
@[simp] theorem num_mem (f : NumSt → NumSt) : (apply (.num f) s).mem = s.mem := (rfl)
@[simp] theorem num_floor (f : NumSt → NumSt) : (apply (.num f) s).floor = s.floor := (rfl)
@[simp] theorem num_life (f : NumSt → NumSt) : (apply (.num f) s).life = s.life := (rfl)
@[simp] theorem num_flashLog (f : NumSt → NumSt) : (apply (.num f) s).flashLog = s.flashLog := (rfl)
@[simp] theorem num_log (f : NumSt → NumSt) : (apply (.num f) s).log = s.log := (rfl)
@[simp] theorem num_time (f : NumSt → NumSt) : (apply (.num f) s).time = s.time := (rfl)
@[simp] theorem num_chart (f : NumSt → NumSt) : (apply (.num f) s).chart = s.chart := (rfl)
@[simp] theorem num_tide (f : NumSt → NumSt) : (apply (.num f) s).tide = s.tide := (rfl)
@[simp] theorem num_tiles (f : NumSt → NumSt) : (apply (.num f) s).tiles = s.tiles := (rfl)
@[simp] theorem num_num (f : NumSt → NumSt) : (apply (.num f) s).num = f s.num := (rfl)
@[simp] theorem num_sec (f : NumSt → NumSt) : (apply (.num f) s).sec = s.sec := (rfl)
@[simp] theorem num_tier (f : NumSt → NumSt) : (apply (.num f) s).tier = s.tier := (rfl)
@[simp] theorem num_coh (f : NumSt → NumSt) : (apply (.num f) s).coh = s.coh := (rfl)
@[simp] theorem num_hural (f : NumSt → NumSt) : (apply (.num f) s).hural = s.hural := (rfl)
@[simp] theorem num_upd (f : NumSt → NumSt) : (apply (.num f) s).upd = s.upd := (rfl)
@[simp] theorem num_cus (f : NumSt → NumSt) : (apply (.num f) s).cus = s.cus := (rfl)
@[simp] theorem num_bell (f : NumSt → NumSt) : (apply (.num f) s).bell = s.bell := (rfl)
@[simp] theorem num_link (f : NumSt → NumSt) : (apply (.num f) s).link = s.link := (rfl)
@[simp] theorem num_en (f : NumSt → NumSt) : (apply (.num f) s).en = s.en := (rfl)
@[simp] theorem num_shd (f : NumSt → NumSt) : (apply (.num f) s).shd = s.shd := (rfl)
@[simp] theorem num_hm (f : NumSt → NumSt) : (apply (.num f) s).hm = s.hm := (rfl)
@[simp] theorem num_rst (f : NumSt → NumSt) : (apply (.num f) s).rst = s.rst := (rfl)
@[simp] theorem num_pow (f : NumSt → NumSt) : (apply (.num f) s).pow = s.pow := (rfl)

@[simp] theorem sec_pending (f : SecSt → SecSt) : (apply (.sec f) s).pending = s.pending := (rfl)
@[simp] theorem sec_now (f : SecSt → SecSt) : (apply (.sec f) s).now = s.now := (rfl)
@[simp] theorem sec_free (f : SecSt → SecSt) : (apply (.sec f) s).free = s.free := (rfl)
@[simp] theorem sec_out (f : SecSt → SecSt) : (apply (.sec f) s).out = s.out := (rfl)
@[simp] theorem sec_regs (f : SecSt → SecSt) : (apply (.sec f) s).regs = s.regs := (rfl)
@[simp] theorem sec_mem (f : SecSt → SecSt) : (apply (.sec f) s).mem = s.mem := (rfl)
@[simp] theorem sec_floor (f : SecSt → SecSt) : (apply (.sec f) s).floor = s.floor := (rfl)
@[simp] theorem sec_life (f : SecSt → SecSt) : (apply (.sec f) s).life = s.life := (rfl)
@[simp] theorem sec_flashLog (f : SecSt → SecSt) : (apply (.sec f) s).flashLog = s.flashLog := (rfl)
@[simp] theorem sec_log (f : SecSt → SecSt) : (apply (.sec f) s).log = s.log := (rfl)
@[simp] theorem sec_time (f : SecSt → SecSt) : (apply (.sec f) s).time = s.time := (rfl)
@[simp] theorem sec_chart (f : SecSt → SecSt) : (apply (.sec f) s).chart = s.chart := (rfl)
@[simp] theorem sec_tide (f : SecSt → SecSt) : (apply (.sec f) s).tide = s.tide := (rfl)
@[simp] theorem sec_tiles (f : SecSt → SecSt) : (apply (.sec f) s).tiles = s.tiles := (rfl)
@[simp] theorem sec_num (f : SecSt → SecSt) : (apply (.sec f) s).num = s.num := (rfl)
@[simp] theorem sec_sec (f : SecSt → SecSt) : (apply (.sec f) s).sec = f s.sec := (rfl)
@[simp] theorem sec_tier (f : SecSt → SecSt) : (apply (.sec f) s).tier = s.tier := (rfl)
@[simp] theorem sec_coh (f : SecSt → SecSt) : (apply (.sec f) s).coh = s.coh := (rfl)
@[simp] theorem sec_hural (f : SecSt → SecSt) : (apply (.sec f) s).hural = s.hural := (rfl)
@[simp] theorem sec_upd (f : SecSt → SecSt) : (apply (.sec f) s).upd = s.upd := (rfl)
@[simp] theorem sec_cus (f : SecSt → SecSt) : (apply (.sec f) s).cus = s.cus := (rfl)
@[simp] theorem sec_bell (f : SecSt → SecSt) : (apply (.sec f) s).bell = s.bell := (rfl)
@[simp] theorem sec_link (f : SecSt → SecSt) : (apply (.sec f) s).link = s.link := (rfl)
@[simp] theorem sec_en (f : SecSt → SecSt) : (apply (.sec f) s).en = s.en := (rfl)
@[simp] theorem sec_shd (f : SecSt → SecSt) : (apply (.sec f) s).shd = s.shd := (rfl)
@[simp] theorem sec_hm (f : SecSt → SecSt) : (apply (.sec f) s).hm = s.hm := (rfl)
@[simp] theorem sec_rst (f : SecSt → SecSt) : (apply (.sec f) s).rst = s.rst := (rfl)
@[simp] theorem sec_pow (f : SecSt → SecSt) : (apply (.sec f) s).pow = s.pow := (rfl)

@[simp] theorem tier_pending (f : TierSt → TierSt) : (apply (.tier f) s).pending = s.pending := (rfl)
@[simp] theorem tier_now (f : TierSt → TierSt) : (apply (.tier f) s).now = s.now := (rfl)
@[simp] theorem tier_free (f : TierSt → TierSt) : (apply (.tier f) s).free = s.free := (rfl)
@[simp] theorem tier_out (f : TierSt → TierSt) : (apply (.tier f) s).out = s.out := (rfl)
@[simp] theorem tier_regs (f : TierSt → TierSt) : (apply (.tier f) s).regs = s.regs := (rfl)
@[simp] theorem tier_mem (f : TierSt → TierSt) : (apply (.tier f) s).mem = s.mem := (rfl)
@[simp] theorem tier_floor (f : TierSt → TierSt) : (apply (.tier f) s).floor = s.floor := (rfl)
@[simp] theorem tier_life (f : TierSt → TierSt) : (apply (.tier f) s).life = s.life := (rfl)
@[simp] theorem tier_flashLog (f : TierSt → TierSt) : (apply (.tier f) s).flashLog = s.flashLog := (rfl)
@[simp] theorem tier_log (f : TierSt → TierSt) : (apply (.tier f) s).log = s.log := (rfl)
@[simp] theorem tier_time (f : TierSt → TierSt) : (apply (.tier f) s).time = s.time := (rfl)
@[simp] theorem tier_chart (f : TierSt → TierSt) : (apply (.tier f) s).chart = s.chart := (rfl)
@[simp] theorem tier_tide (f : TierSt → TierSt) : (apply (.tier f) s).tide = s.tide := (rfl)
@[simp] theorem tier_tiles (f : TierSt → TierSt) : (apply (.tier f) s).tiles = s.tiles := (rfl)
@[simp] theorem tier_num (f : TierSt → TierSt) : (apply (.tier f) s).num = s.num := (rfl)
@[simp] theorem tier_sec (f : TierSt → TierSt) : (apply (.tier f) s).sec = s.sec := (rfl)
@[simp] theorem tier_tier (f : TierSt → TierSt) : (apply (.tier f) s).tier = f s.tier := (rfl)
@[simp] theorem tier_coh (f : TierSt → TierSt) : (apply (.tier f) s).coh = s.coh := (rfl)
@[simp] theorem tier_hural (f : TierSt → TierSt) : (apply (.tier f) s).hural = s.hural := (rfl)
@[simp] theorem tier_upd (f : TierSt → TierSt) : (apply (.tier f) s).upd = s.upd := (rfl)
@[simp] theorem tier_cus (f : TierSt → TierSt) : (apply (.tier f) s).cus = s.cus := (rfl)
@[simp] theorem tier_bell (f : TierSt → TierSt) : (apply (.tier f) s).bell = s.bell := (rfl)
@[simp] theorem tier_link (f : TierSt → TierSt) : (apply (.tier f) s).link = s.link := (rfl)
@[simp] theorem tier_en (f : TierSt → TierSt) : (apply (.tier f) s).en = s.en := (rfl)
@[simp] theorem tier_shd (f : TierSt → TierSt) : (apply (.tier f) s).shd = s.shd := (rfl)
@[simp] theorem tier_hm (f : TierSt → TierSt) : (apply (.tier f) s).hm = s.hm := (rfl)
@[simp] theorem tier_rst (f : TierSt → TierSt) : (apply (.tier f) s).rst = s.rst := (rfl)
@[simp] theorem tier_pow (f : TierSt → TierSt) : (apply (.tier f) s).pow = s.pow := (rfl)

@[simp] theorem coh_pending (f : CohSt → CohSt) : (apply (.coh f) s).pending = s.pending := (rfl)
@[simp] theorem coh_now (f : CohSt → CohSt) : (apply (.coh f) s).now = s.now := (rfl)
@[simp] theorem coh_free (f : CohSt → CohSt) : (apply (.coh f) s).free = s.free := (rfl)
@[simp] theorem coh_out (f : CohSt → CohSt) : (apply (.coh f) s).out = s.out := (rfl)
@[simp] theorem coh_regs (f : CohSt → CohSt) : (apply (.coh f) s).regs = s.regs := (rfl)
@[simp] theorem coh_mem (f : CohSt → CohSt) : (apply (.coh f) s).mem = s.mem := (rfl)
@[simp] theorem coh_floor (f : CohSt → CohSt) : (apply (.coh f) s).floor = s.floor := (rfl)
@[simp] theorem coh_life (f : CohSt → CohSt) : (apply (.coh f) s).life = s.life := (rfl)
@[simp] theorem coh_flashLog (f : CohSt → CohSt) : (apply (.coh f) s).flashLog = s.flashLog := (rfl)
@[simp] theorem coh_log (f : CohSt → CohSt) : (apply (.coh f) s).log = s.log := (rfl)
@[simp] theorem coh_time (f : CohSt → CohSt) : (apply (.coh f) s).time = s.time := (rfl)
@[simp] theorem coh_chart (f : CohSt → CohSt) : (apply (.coh f) s).chart = s.chart := (rfl)
@[simp] theorem coh_tide (f : CohSt → CohSt) : (apply (.coh f) s).tide = s.tide := (rfl)
@[simp] theorem coh_tiles (f : CohSt → CohSt) : (apply (.coh f) s).tiles = s.tiles := (rfl)
@[simp] theorem coh_num (f : CohSt → CohSt) : (apply (.coh f) s).num = s.num := (rfl)
@[simp] theorem coh_sec (f : CohSt → CohSt) : (apply (.coh f) s).sec = s.sec := (rfl)
@[simp] theorem coh_tier (f : CohSt → CohSt) : (apply (.coh f) s).tier = s.tier := (rfl)
@[simp] theorem coh_coh (f : CohSt → CohSt) : (apply (.coh f) s).coh = f s.coh := (rfl)
@[simp] theorem coh_hural (f : CohSt → CohSt) : (apply (.coh f) s).hural = s.hural := (rfl)
@[simp] theorem coh_upd (f : CohSt → CohSt) : (apply (.coh f) s).upd = s.upd := (rfl)
@[simp] theorem coh_cus (f : CohSt → CohSt) : (apply (.coh f) s).cus = s.cus := (rfl)
@[simp] theorem coh_bell (f : CohSt → CohSt) : (apply (.coh f) s).bell = s.bell := (rfl)
@[simp] theorem coh_link (f : CohSt → CohSt) : (apply (.coh f) s).link = s.link := (rfl)
@[simp] theorem coh_en (f : CohSt → CohSt) : (apply (.coh f) s).en = s.en := (rfl)
@[simp] theorem coh_shd (f : CohSt → CohSt) : (apply (.coh f) s).shd = s.shd := (rfl)
@[simp] theorem coh_hm (f : CohSt → CohSt) : (apply (.coh f) s).hm = s.hm := (rfl)
@[simp] theorem coh_rst (f : CohSt → CohSt) : (apply (.coh f) s).rst = s.rst := (rfl)
@[simp] theorem coh_pow (f : CohSt → CohSt) : (apply (.coh f) s).pow = s.pow := (rfl)

@[simp] theorem hural_pending (f : HuralSt → HuralSt) : (apply (.hural f) s).pending = s.pending := (rfl)
@[simp] theorem hural_now (f : HuralSt → HuralSt) : (apply (.hural f) s).now = s.now := (rfl)
@[simp] theorem hural_free (f : HuralSt → HuralSt) : (apply (.hural f) s).free = s.free := (rfl)
@[simp] theorem hural_out (f : HuralSt → HuralSt) : (apply (.hural f) s).out = s.out := (rfl)
@[simp] theorem hural_regs (f : HuralSt → HuralSt) : (apply (.hural f) s).regs = s.regs := (rfl)
@[simp] theorem hural_mem (f : HuralSt → HuralSt) : (apply (.hural f) s).mem = s.mem := (rfl)
@[simp] theorem hural_floor (f : HuralSt → HuralSt) : (apply (.hural f) s).floor = s.floor := (rfl)
@[simp] theorem hural_life (f : HuralSt → HuralSt) : (apply (.hural f) s).life = s.life := (rfl)
@[simp] theorem hural_flashLog (f : HuralSt → HuralSt) : (apply (.hural f) s).flashLog = s.flashLog := (rfl)
@[simp] theorem hural_log (f : HuralSt → HuralSt) : (apply (.hural f) s).log = s.log := (rfl)
@[simp] theorem hural_time (f : HuralSt → HuralSt) : (apply (.hural f) s).time = s.time := (rfl)
@[simp] theorem hural_chart (f : HuralSt → HuralSt) : (apply (.hural f) s).chart = s.chart := (rfl)
@[simp] theorem hural_tide (f : HuralSt → HuralSt) : (apply (.hural f) s).tide = s.tide := (rfl)
@[simp] theorem hural_tiles (f : HuralSt → HuralSt) : (apply (.hural f) s).tiles = s.tiles := (rfl)
@[simp] theorem hural_num (f : HuralSt → HuralSt) : (apply (.hural f) s).num = s.num := (rfl)
@[simp] theorem hural_sec (f : HuralSt → HuralSt) : (apply (.hural f) s).sec = s.sec := (rfl)
@[simp] theorem hural_tier (f : HuralSt → HuralSt) : (apply (.hural f) s).tier = s.tier := (rfl)
@[simp] theorem hural_coh (f : HuralSt → HuralSt) : (apply (.hural f) s).coh = s.coh := (rfl)
@[simp] theorem hural_hural (f : HuralSt → HuralSt) : (apply (.hural f) s).hural = f s.hural := (rfl)
@[simp] theorem hural_upd (f : HuralSt → HuralSt) : (apply (.hural f) s).upd = s.upd := (rfl)
@[simp] theorem hural_cus (f : HuralSt → HuralSt) : (apply (.hural f) s).cus = s.cus := (rfl)
@[simp] theorem hural_bell (f : HuralSt → HuralSt) : (apply (.hural f) s).bell = s.bell := (rfl)
@[simp] theorem hural_link (f : HuralSt → HuralSt) : (apply (.hural f) s).link = s.link := (rfl)
@[simp] theorem hural_en (f : HuralSt → HuralSt) : (apply (.hural f) s).en = s.en := (rfl)
@[simp] theorem hural_shd (f : HuralSt → HuralSt) : (apply (.hural f) s).shd = s.shd := (rfl)
@[simp] theorem hural_hm (f : HuralSt → HuralSt) : (apply (.hural f) s).hm = s.hm := (rfl)
@[simp] theorem hural_rst (f : HuralSt → HuralSt) : (apply (.hural f) s).rst = s.rst := (rfl)
@[simp] theorem hural_pow (f : HuralSt → HuralSt) : (apply (.hural f) s).pow = s.pow := (rfl)

@[simp] theorem upd_pending (f : UpdSt → UpdSt) : (apply (.upd f) s).pending = s.pending := (rfl)
@[simp] theorem upd_now (f : UpdSt → UpdSt) : (apply (.upd f) s).now = s.now := (rfl)
@[simp] theorem upd_free (f : UpdSt → UpdSt) : (apply (.upd f) s).free = s.free := (rfl)
@[simp] theorem upd_out (f : UpdSt → UpdSt) : (apply (.upd f) s).out = s.out := (rfl)
@[simp] theorem upd_regs (f : UpdSt → UpdSt) : (apply (.upd f) s).regs = s.regs := (rfl)
@[simp] theorem upd_mem (f : UpdSt → UpdSt) : (apply (.upd f) s).mem = s.mem := (rfl)
@[simp] theorem upd_floor (f : UpdSt → UpdSt) : (apply (.upd f) s).floor = s.floor := (rfl)
@[simp] theorem upd_life (f : UpdSt → UpdSt) : (apply (.upd f) s).life = s.life := (rfl)
@[simp] theorem upd_flashLog (f : UpdSt → UpdSt) : (apply (.upd f) s).flashLog = s.flashLog := (rfl)
@[simp] theorem upd_log (f : UpdSt → UpdSt) : (apply (.upd f) s).log = s.log := (rfl)
@[simp] theorem upd_time (f : UpdSt → UpdSt) : (apply (.upd f) s).time = s.time := (rfl)
@[simp] theorem upd_chart (f : UpdSt → UpdSt) : (apply (.upd f) s).chart = s.chart := (rfl)
@[simp] theorem upd_tide (f : UpdSt → UpdSt) : (apply (.upd f) s).tide = s.tide := (rfl)
@[simp] theorem upd_tiles (f : UpdSt → UpdSt) : (apply (.upd f) s).tiles = s.tiles := (rfl)
@[simp] theorem upd_num (f : UpdSt → UpdSt) : (apply (.upd f) s).num = s.num := (rfl)
@[simp] theorem upd_sec (f : UpdSt → UpdSt) : (apply (.upd f) s).sec = s.sec := (rfl)
@[simp] theorem upd_tier (f : UpdSt → UpdSt) : (apply (.upd f) s).tier = s.tier := (rfl)
@[simp] theorem upd_coh (f : UpdSt → UpdSt) : (apply (.upd f) s).coh = s.coh := (rfl)
@[simp] theorem upd_hural (f : UpdSt → UpdSt) : (apply (.upd f) s).hural = s.hural := (rfl)
@[simp] theorem upd_upd (f : UpdSt → UpdSt) : (apply (.upd f) s).upd = f s.upd := (rfl)
@[simp] theorem upd_cus (f : UpdSt → UpdSt) : (apply (.upd f) s).cus = s.cus := (rfl)
@[simp] theorem upd_bell (f : UpdSt → UpdSt) : (apply (.upd f) s).bell = s.bell := (rfl)
@[simp] theorem upd_link (f : UpdSt → UpdSt) : (apply (.upd f) s).link = s.link := (rfl)
@[simp] theorem upd_en (f : UpdSt → UpdSt) : (apply (.upd f) s).en = s.en := (rfl)
@[simp] theorem upd_shd (f : UpdSt → UpdSt) : (apply (.upd f) s).shd = s.shd := (rfl)
@[simp] theorem upd_hm (f : UpdSt → UpdSt) : (apply (.upd f) s).hm = s.hm := (rfl)
@[simp] theorem upd_rst (f : UpdSt → UpdSt) : (apply (.upd f) s).rst = s.rst := (rfl)
@[simp] theorem upd_pow (f : UpdSt → UpdSt) : (apply (.upd f) s).pow = s.pow := (rfl)

@[simp] theorem cus_pending (f : CusSt → CusSt) : (apply (.cus f) s).pending = s.pending := (rfl)
@[simp] theorem cus_now (f : CusSt → CusSt) : (apply (.cus f) s).now = s.now := (rfl)
@[simp] theorem cus_free (f : CusSt → CusSt) : (apply (.cus f) s).free = s.free := (rfl)
@[simp] theorem cus_out (f : CusSt → CusSt) : (apply (.cus f) s).out = s.out := (rfl)
@[simp] theorem cus_regs (f : CusSt → CusSt) : (apply (.cus f) s).regs = s.regs := (rfl)
@[simp] theorem cus_mem (f : CusSt → CusSt) : (apply (.cus f) s).mem = s.mem := (rfl)
@[simp] theorem cus_floor (f : CusSt → CusSt) : (apply (.cus f) s).floor = s.floor := (rfl)
@[simp] theorem cus_life (f : CusSt → CusSt) : (apply (.cus f) s).life = s.life := (rfl)
@[simp] theorem cus_flashLog (f : CusSt → CusSt) : (apply (.cus f) s).flashLog = s.flashLog := (rfl)
@[simp] theorem cus_log (f : CusSt → CusSt) : (apply (.cus f) s).log = s.log := (rfl)
@[simp] theorem cus_time (f : CusSt → CusSt) : (apply (.cus f) s).time = s.time := (rfl)
@[simp] theorem cus_chart (f : CusSt → CusSt) : (apply (.cus f) s).chart = s.chart := (rfl)
@[simp] theorem cus_tide (f : CusSt → CusSt) : (apply (.cus f) s).tide = s.tide := (rfl)
@[simp] theorem cus_tiles (f : CusSt → CusSt) : (apply (.cus f) s).tiles = s.tiles := (rfl)
@[simp] theorem cus_num (f : CusSt → CusSt) : (apply (.cus f) s).num = s.num := (rfl)
@[simp] theorem cus_sec (f : CusSt → CusSt) : (apply (.cus f) s).sec = s.sec := (rfl)
@[simp] theorem cus_tier (f : CusSt → CusSt) : (apply (.cus f) s).tier = s.tier := (rfl)
@[simp] theorem cus_coh (f : CusSt → CusSt) : (apply (.cus f) s).coh = s.coh := (rfl)
@[simp] theorem cus_hural (f : CusSt → CusSt) : (apply (.cus f) s).hural = s.hural := (rfl)
@[simp] theorem cus_upd (f : CusSt → CusSt) : (apply (.cus f) s).upd = s.upd := (rfl)
@[simp] theorem cus_cus (f : CusSt → CusSt) : (apply (.cus f) s).cus = f s.cus := (rfl)
@[simp] theorem cus_bell (f : CusSt → CusSt) : (apply (.cus f) s).bell = s.bell := (rfl)
@[simp] theorem cus_link (f : CusSt → CusSt) : (apply (.cus f) s).link = s.link := (rfl)
@[simp] theorem cus_en (f : CusSt → CusSt) : (apply (.cus f) s).en = s.en := (rfl)
@[simp] theorem cus_shd (f : CusSt → CusSt) : (apply (.cus f) s).shd = s.shd := (rfl)
@[simp] theorem cus_hm (f : CusSt → CusSt) : (apply (.cus f) s).hm = s.hm := (rfl)
@[simp] theorem cus_rst (f : CusSt → CusSt) : (apply (.cus f) s).rst = s.rst := (rfl)
@[simp] theorem cus_pow (f : CusSt → CusSt) : (apply (.cus f) s).pow = s.pow := (rfl)

@[simp] theorem bell_pending (f : FMap BellQ → FMap BellQ) : (apply (.bell f) s).pending = s.pending := (rfl)
@[simp] theorem bell_now (f : FMap BellQ → FMap BellQ) : (apply (.bell f) s).now = s.now := (rfl)
@[simp] theorem bell_free (f : FMap BellQ → FMap BellQ) : (apply (.bell f) s).free = s.free := (rfl)
@[simp] theorem bell_out (f : FMap BellQ → FMap BellQ) : (apply (.bell f) s).out = s.out := (rfl)
@[simp] theorem bell_regs (f : FMap BellQ → FMap BellQ) : (apply (.bell f) s).regs = s.regs := (rfl)
@[simp] theorem bell_mem (f : FMap BellQ → FMap BellQ) : (apply (.bell f) s).mem = s.mem := (rfl)
@[simp] theorem bell_floor (f : FMap BellQ → FMap BellQ) : (apply (.bell f) s).floor = s.floor := (rfl)
@[simp] theorem bell_life (f : FMap BellQ → FMap BellQ) : (apply (.bell f) s).life = s.life := (rfl)
@[simp] theorem bell_flashLog (f : FMap BellQ → FMap BellQ) : (apply (.bell f) s).flashLog = s.flashLog := (rfl)
@[simp] theorem bell_log (f : FMap BellQ → FMap BellQ) : (apply (.bell f) s).log = s.log := (rfl)
@[simp] theorem bell_time (f : FMap BellQ → FMap BellQ) : (apply (.bell f) s).time = s.time := (rfl)
@[simp] theorem bell_chart (f : FMap BellQ → FMap BellQ) : (apply (.bell f) s).chart = s.chart := (rfl)
@[simp] theorem bell_tide (f : FMap BellQ → FMap BellQ) : (apply (.bell f) s).tide = s.tide := (rfl)
@[simp] theorem bell_tiles (f : FMap BellQ → FMap BellQ) : (apply (.bell f) s).tiles = s.tiles := (rfl)
@[simp] theorem bell_num (f : FMap BellQ → FMap BellQ) : (apply (.bell f) s).num = s.num := (rfl)
@[simp] theorem bell_sec (f : FMap BellQ → FMap BellQ) : (apply (.bell f) s).sec = s.sec := (rfl)
@[simp] theorem bell_tier (f : FMap BellQ → FMap BellQ) : (apply (.bell f) s).tier = s.tier := (rfl)
@[simp] theorem bell_coh (f : FMap BellQ → FMap BellQ) : (apply (.bell f) s).coh = s.coh := (rfl)
@[simp] theorem bell_hural (f : FMap BellQ → FMap BellQ) : (apply (.bell f) s).hural = s.hural := (rfl)
@[simp] theorem bell_upd (f : FMap BellQ → FMap BellQ) : (apply (.bell f) s).upd = s.upd := (rfl)
@[simp] theorem bell_cus (f : FMap BellQ → FMap BellQ) : (apply (.bell f) s).cus = s.cus := (rfl)
@[simp] theorem bell_bell (f : FMap BellQ → FMap BellQ) : (apply (.bell f) s).bell = f s.bell := (rfl)
@[simp] theorem bell_link (f : FMap BellQ → FMap BellQ) : (apply (.bell f) s).link = s.link := (rfl)
@[simp] theorem bell_en (f : FMap BellQ → FMap BellQ) : (apply (.bell f) s).en = s.en := (rfl)
@[simp] theorem bell_shd (f : FMap BellQ → FMap BellQ) : (apply (.bell f) s).shd = s.shd := (rfl)
@[simp] theorem bell_hm (f : FMap BellQ → FMap BellQ) : (apply (.bell f) s).hm = s.hm := (rfl)
@[simp] theorem bell_rst (f : FMap BellQ → FMap BellQ) : (apply (.bell f) s).rst = s.rst := (rfl)
@[simp] theorem bell_pow (f : FMap BellQ → FMap BellQ) : (apply (.bell f) s).pow = s.pow := (rfl)

@[simp] theorem link_pending (f : LinkSt → LinkSt) : (apply (.link f) s).pending = s.pending := (rfl)
@[simp] theorem link_now (f : LinkSt → LinkSt) : (apply (.link f) s).now = s.now := (rfl)
@[simp] theorem link_free (f : LinkSt → LinkSt) : (apply (.link f) s).free = s.free := (rfl)
@[simp] theorem link_out (f : LinkSt → LinkSt) : (apply (.link f) s).out = s.out := (rfl)
@[simp] theorem link_regs (f : LinkSt → LinkSt) : (apply (.link f) s).regs = s.regs := (rfl)
@[simp] theorem link_mem (f : LinkSt → LinkSt) : (apply (.link f) s).mem = s.mem := (rfl)
@[simp] theorem link_floor (f : LinkSt → LinkSt) : (apply (.link f) s).floor = s.floor := (rfl)
@[simp] theorem link_life (f : LinkSt → LinkSt) : (apply (.link f) s).life = s.life := (rfl)
@[simp] theorem link_flashLog (f : LinkSt → LinkSt) : (apply (.link f) s).flashLog = s.flashLog := (rfl)
@[simp] theorem link_log (f : LinkSt → LinkSt) : (apply (.link f) s).log = s.log := (rfl)
@[simp] theorem link_time (f : LinkSt → LinkSt) : (apply (.link f) s).time = s.time := (rfl)
@[simp] theorem link_chart (f : LinkSt → LinkSt) : (apply (.link f) s).chart = s.chart := (rfl)
@[simp] theorem link_tide (f : LinkSt → LinkSt) : (apply (.link f) s).tide = s.tide := (rfl)
@[simp] theorem link_tiles (f : LinkSt → LinkSt) : (apply (.link f) s).tiles = s.tiles := (rfl)
@[simp] theorem link_num (f : LinkSt → LinkSt) : (apply (.link f) s).num = s.num := (rfl)
@[simp] theorem link_sec (f : LinkSt → LinkSt) : (apply (.link f) s).sec = s.sec := (rfl)
@[simp] theorem link_tier (f : LinkSt → LinkSt) : (apply (.link f) s).tier = s.tier := (rfl)
@[simp] theorem link_coh (f : LinkSt → LinkSt) : (apply (.link f) s).coh = s.coh := (rfl)
@[simp] theorem link_hural (f : LinkSt → LinkSt) : (apply (.link f) s).hural = s.hural := (rfl)
@[simp] theorem link_upd (f : LinkSt → LinkSt) : (apply (.link f) s).upd = s.upd := (rfl)
@[simp] theorem link_cus (f : LinkSt → LinkSt) : (apply (.link f) s).cus = s.cus := (rfl)
@[simp] theorem link_bell (f : LinkSt → LinkSt) : (apply (.link f) s).bell = s.bell := (rfl)
@[simp] theorem link_link (f : LinkSt → LinkSt) : (apply (.link f) s).link = f s.link := (rfl)
@[simp] theorem link_en (f : LinkSt → LinkSt) : (apply (.link f) s).en = s.en := (rfl)
@[simp] theorem link_shd (f : LinkSt → LinkSt) : (apply (.link f) s).shd = s.shd := (rfl)
@[simp] theorem link_hm (f : LinkSt → LinkSt) : (apply (.link f) s).hm = s.hm := (rfl)
@[simp] theorem link_rst (f : LinkSt → LinkSt) : (apply (.link f) s).rst = s.rst := (rfl)
@[simp] theorem link_pow (f : LinkSt → LinkSt) : (apply (.link f) s).pow = s.pow := (rfl)

@[simp] theorem en_pending (f : EnSt → EnSt) : (apply (.en f) s).pending = s.pending := (rfl)
@[simp] theorem en_now (f : EnSt → EnSt) : (apply (.en f) s).now = s.now := (rfl)
@[simp] theorem en_free (f : EnSt → EnSt) : (apply (.en f) s).free = s.free := (rfl)
@[simp] theorem en_out (f : EnSt → EnSt) : (apply (.en f) s).out = s.out := (rfl)
@[simp] theorem en_regs (f : EnSt → EnSt) : (apply (.en f) s).regs = s.regs := (rfl)
@[simp] theorem en_mem (f : EnSt → EnSt) : (apply (.en f) s).mem = s.mem := (rfl)
@[simp] theorem en_floor (f : EnSt → EnSt) : (apply (.en f) s).floor = s.floor := (rfl)
@[simp] theorem en_life (f : EnSt → EnSt) : (apply (.en f) s).life = s.life := (rfl)
@[simp] theorem en_flashLog (f : EnSt → EnSt) : (apply (.en f) s).flashLog = s.flashLog := (rfl)
@[simp] theorem en_log (f : EnSt → EnSt) : (apply (.en f) s).log = s.log := (rfl)
@[simp] theorem en_time (f : EnSt → EnSt) : (apply (.en f) s).time = s.time := (rfl)
@[simp] theorem en_chart (f : EnSt → EnSt) : (apply (.en f) s).chart = s.chart := (rfl)
@[simp] theorem en_tide (f : EnSt → EnSt) : (apply (.en f) s).tide = s.tide := (rfl)
@[simp] theorem en_tiles (f : EnSt → EnSt) : (apply (.en f) s).tiles = s.tiles := (rfl)
@[simp] theorem en_num (f : EnSt → EnSt) : (apply (.en f) s).num = s.num := (rfl)
@[simp] theorem en_sec (f : EnSt → EnSt) : (apply (.en f) s).sec = s.sec := (rfl)
@[simp] theorem en_tier (f : EnSt → EnSt) : (apply (.en f) s).tier = s.tier := (rfl)
@[simp] theorem en_coh (f : EnSt → EnSt) : (apply (.en f) s).coh = s.coh := (rfl)
@[simp] theorem en_hural (f : EnSt → EnSt) : (apply (.en f) s).hural = s.hural := (rfl)
@[simp] theorem en_upd (f : EnSt → EnSt) : (apply (.en f) s).upd = s.upd := (rfl)
@[simp] theorem en_cus (f : EnSt → EnSt) : (apply (.en f) s).cus = s.cus := (rfl)
@[simp] theorem en_bell (f : EnSt → EnSt) : (apply (.en f) s).bell = s.bell := (rfl)
@[simp] theorem en_link (f : EnSt → EnSt) : (apply (.en f) s).link = s.link := (rfl)
@[simp] theorem en_en (f : EnSt → EnSt) : (apply (.en f) s).en = f s.en := (rfl)
@[simp] theorem en_shd (f : EnSt → EnSt) : (apply (.en f) s).shd = s.shd := (rfl)
@[simp] theorem en_hm (f : EnSt → EnSt) : (apply (.en f) s).hm = s.hm := (rfl)
@[simp] theorem en_rst (f : EnSt → EnSt) : (apply (.en f) s).rst = s.rst := (rfl)
@[simp] theorem en_pow (f : EnSt → EnSt) : (apply (.en f) s).pow = s.pow := (rfl)

@[simp] theorem shd_pending (f : ShdSt → ShdSt) : (apply (.shd f) s).pending = s.pending := (rfl)
@[simp] theorem shd_now (f : ShdSt → ShdSt) : (apply (.shd f) s).now = s.now := (rfl)
@[simp] theorem shd_free (f : ShdSt → ShdSt) : (apply (.shd f) s).free = s.free := (rfl)
@[simp] theorem shd_out (f : ShdSt → ShdSt) : (apply (.shd f) s).out = s.out := (rfl)
@[simp] theorem shd_regs (f : ShdSt → ShdSt) : (apply (.shd f) s).regs = s.regs := (rfl)
@[simp] theorem shd_mem (f : ShdSt → ShdSt) : (apply (.shd f) s).mem = s.mem := (rfl)
@[simp] theorem shd_floor (f : ShdSt → ShdSt) : (apply (.shd f) s).floor = s.floor := (rfl)
@[simp] theorem shd_life (f : ShdSt → ShdSt) : (apply (.shd f) s).life = s.life := (rfl)
@[simp] theorem shd_flashLog (f : ShdSt → ShdSt) : (apply (.shd f) s).flashLog = s.flashLog := (rfl)
@[simp] theorem shd_log (f : ShdSt → ShdSt) : (apply (.shd f) s).log = s.log := (rfl)
@[simp] theorem shd_time (f : ShdSt → ShdSt) : (apply (.shd f) s).time = s.time := (rfl)
@[simp] theorem shd_chart (f : ShdSt → ShdSt) : (apply (.shd f) s).chart = s.chart := (rfl)
@[simp] theorem shd_tide (f : ShdSt → ShdSt) : (apply (.shd f) s).tide = s.tide := (rfl)
@[simp] theorem shd_tiles (f : ShdSt → ShdSt) : (apply (.shd f) s).tiles = s.tiles := (rfl)
@[simp] theorem shd_num (f : ShdSt → ShdSt) : (apply (.shd f) s).num = s.num := (rfl)
@[simp] theorem shd_sec (f : ShdSt → ShdSt) : (apply (.shd f) s).sec = s.sec := (rfl)
@[simp] theorem shd_tier (f : ShdSt → ShdSt) : (apply (.shd f) s).tier = s.tier := (rfl)
@[simp] theorem shd_coh (f : ShdSt → ShdSt) : (apply (.shd f) s).coh = s.coh := (rfl)
@[simp] theorem shd_hural (f : ShdSt → ShdSt) : (apply (.shd f) s).hural = s.hural := (rfl)
@[simp] theorem shd_upd (f : ShdSt → ShdSt) : (apply (.shd f) s).upd = s.upd := (rfl)
@[simp] theorem shd_cus (f : ShdSt → ShdSt) : (apply (.shd f) s).cus = s.cus := (rfl)
@[simp] theorem shd_bell (f : ShdSt → ShdSt) : (apply (.shd f) s).bell = s.bell := (rfl)
@[simp] theorem shd_link (f : ShdSt → ShdSt) : (apply (.shd f) s).link = s.link := (rfl)
@[simp] theorem shd_en (f : ShdSt → ShdSt) : (apply (.shd f) s).en = s.en := (rfl)
@[simp] theorem shd_shd (f : ShdSt → ShdSt) : (apply (.shd f) s).shd = f s.shd := (rfl)
@[simp] theorem shd_hm (f : ShdSt → ShdSt) : (apply (.shd f) s).hm = s.hm := (rfl)
@[simp] theorem shd_rst (f : ShdSt → ShdSt) : (apply (.shd f) s).rst = s.rst := (rfl)
@[simp] theorem shd_pow (f : ShdSt → ShdSt) : (apply (.shd f) s).pow = s.pow := (rfl)

@[simp] theorem hm_pending (f : HmSt → HmSt) : (apply (.hm f) s).pending = s.pending := (rfl)
@[simp] theorem hm_now (f : HmSt → HmSt) : (apply (.hm f) s).now = s.now := (rfl)
@[simp] theorem hm_free (f : HmSt → HmSt) : (apply (.hm f) s).free = s.free := (rfl)
@[simp] theorem hm_out (f : HmSt → HmSt) : (apply (.hm f) s).out = s.out := (rfl)
@[simp] theorem hm_regs (f : HmSt → HmSt) : (apply (.hm f) s).regs = s.regs := (rfl)
@[simp] theorem hm_mem (f : HmSt → HmSt) : (apply (.hm f) s).mem = s.mem := (rfl)
@[simp] theorem hm_floor (f : HmSt → HmSt) : (apply (.hm f) s).floor = s.floor := (rfl)
@[simp] theorem hm_life (f : HmSt → HmSt) : (apply (.hm f) s).life = s.life := (rfl)
@[simp] theorem hm_flashLog (f : HmSt → HmSt) : (apply (.hm f) s).flashLog = s.flashLog := (rfl)
@[simp] theorem hm_log (f : HmSt → HmSt) : (apply (.hm f) s).log = s.log := (rfl)
@[simp] theorem hm_time (f : HmSt → HmSt) : (apply (.hm f) s).time = s.time := (rfl)
@[simp] theorem hm_chart (f : HmSt → HmSt) : (apply (.hm f) s).chart = s.chart := (rfl)
@[simp] theorem hm_tide (f : HmSt → HmSt) : (apply (.hm f) s).tide = s.tide := (rfl)
@[simp] theorem hm_tiles (f : HmSt → HmSt) : (apply (.hm f) s).tiles = s.tiles := (rfl)
@[simp] theorem hm_num (f : HmSt → HmSt) : (apply (.hm f) s).num = s.num := (rfl)
@[simp] theorem hm_sec (f : HmSt → HmSt) : (apply (.hm f) s).sec = s.sec := (rfl)
@[simp] theorem hm_tier (f : HmSt → HmSt) : (apply (.hm f) s).tier = s.tier := (rfl)
@[simp] theorem hm_coh (f : HmSt → HmSt) : (apply (.hm f) s).coh = s.coh := (rfl)
@[simp] theorem hm_hural (f : HmSt → HmSt) : (apply (.hm f) s).hural = s.hural := (rfl)
@[simp] theorem hm_upd (f : HmSt → HmSt) : (apply (.hm f) s).upd = s.upd := (rfl)
@[simp] theorem hm_cus (f : HmSt → HmSt) : (apply (.hm f) s).cus = s.cus := (rfl)
@[simp] theorem hm_bell (f : HmSt → HmSt) : (apply (.hm f) s).bell = s.bell := (rfl)
@[simp] theorem hm_link (f : HmSt → HmSt) : (apply (.hm f) s).link = s.link := (rfl)
@[simp] theorem hm_en (f : HmSt → HmSt) : (apply (.hm f) s).en = s.en := (rfl)
@[simp] theorem hm_shd (f : HmSt → HmSt) : (apply (.hm f) s).shd = s.shd := (rfl)
@[simp] theorem hm_hm (f : HmSt → HmSt) : (apply (.hm f) s).hm = f s.hm := (rfl)
@[simp] theorem hm_rst (f : HmSt → HmSt) : (apply (.hm f) s).rst = s.rst := (rfl)
@[simp] theorem hm_pow (f : HmSt → HmSt) : (apply (.hm f) s).pow = s.pow := (rfl)

@[simp] theorem rst_pending (f : RstSt → RstSt) : (apply (.rst f) s).pending = s.pending := (rfl)
@[simp] theorem rst_now (f : RstSt → RstSt) : (apply (.rst f) s).now = s.now := (rfl)
@[simp] theorem rst_free (f : RstSt → RstSt) : (apply (.rst f) s).free = s.free := (rfl)
@[simp] theorem rst_out (f : RstSt → RstSt) : (apply (.rst f) s).out = s.out := (rfl)
@[simp] theorem rst_regs (f : RstSt → RstSt) : (apply (.rst f) s).regs = s.regs := (rfl)
@[simp] theorem rst_mem (f : RstSt → RstSt) : (apply (.rst f) s).mem = s.mem := (rfl)
@[simp] theorem rst_floor (f : RstSt → RstSt) : (apply (.rst f) s).floor = s.floor := (rfl)
@[simp] theorem rst_life (f : RstSt → RstSt) : (apply (.rst f) s).life = s.life := (rfl)
@[simp] theorem rst_flashLog (f : RstSt → RstSt) : (apply (.rst f) s).flashLog = s.flashLog := (rfl)
@[simp] theorem rst_log (f : RstSt → RstSt) : (apply (.rst f) s).log = s.log := (rfl)
@[simp] theorem rst_time (f : RstSt → RstSt) : (apply (.rst f) s).time = s.time := (rfl)
@[simp] theorem rst_chart (f : RstSt → RstSt) : (apply (.rst f) s).chart = s.chart := (rfl)
@[simp] theorem rst_tide (f : RstSt → RstSt) : (apply (.rst f) s).tide = s.tide := (rfl)
@[simp] theorem rst_tiles (f : RstSt → RstSt) : (apply (.rst f) s).tiles = s.tiles := (rfl)
@[simp] theorem rst_num (f : RstSt → RstSt) : (apply (.rst f) s).num = s.num := (rfl)
@[simp] theorem rst_sec (f : RstSt → RstSt) : (apply (.rst f) s).sec = s.sec := (rfl)
@[simp] theorem rst_tier (f : RstSt → RstSt) : (apply (.rst f) s).tier = s.tier := (rfl)
@[simp] theorem rst_coh (f : RstSt → RstSt) : (apply (.rst f) s).coh = s.coh := (rfl)
@[simp] theorem rst_hural (f : RstSt → RstSt) : (apply (.rst f) s).hural = s.hural := (rfl)
@[simp] theorem rst_upd (f : RstSt → RstSt) : (apply (.rst f) s).upd = s.upd := (rfl)
@[simp] theorem rst_cus (f : RstSt → RstSt) : (apply (.rst f) s).cus = s.cus := (rfl)
@[simp] theorem rst_bell (f : RstSt → RstSt) : (apply (.rst f) s).bell = s.bell := (rfl)
@[simp] theorem rst_link (f : RstSt → RstSt) : (apply (.rst f) s).link = s.link := (rfl)
@[simp] theorem rst_en (f : RstSt → RstSt) : (apply (.rst f) s).en = s.en := (rfl)
@[simp] theorem rst_shd (f : RstSt → RstSt) : (apply (.rst f) s).shd = s.shd := (rfl)
@[simp] theorem rst_hm (f : RstSt → RstSt) : (apply (.rst f) s).hm = s.hm := (rfl)
@[simp] theorem rst_rst (f : RstSt → RstSt) : (apply (.rst f) s).rst = f s.rst := (rfl)
@[simp] theorem rst_pow (f : RstSt → RstSt) : (apply (.rst f) s).pow = s.pow := (rfl)

@[simp] theorem pow_pending (f : PowSt → PowSt) : (apply (.pow f) s).pending = s.pending := (rfl)
@[simp] theorem pow_now (f : PowSt → PowSt) : (apply (.pow f) s).now = s.now := (rfl)
@[simp] theorem pow_free (f : PowSt → PowSt) : (apply (.pow f) s).free = s.free := (rfl)
@[simp] theorem pow_out (f : PowSt → PowSt) : (apply (.pow f) s).out = s.out := (rfl)
@[simp] theorem pow_regs (f : PowSt → PowSt) : (apply (.pow f) s).regs = s.regs := (rfl)
@[simp] theorem pow_mem (f : PowSt → PowSt) : (apply (.pow f) s).mem = s.mem := (rfl)
@[simp] theorem pow_floor (f : PowSt → PowSt) : (apply (.pow f) s).floor = s.floor := (rfl)
@[simp] theorem pow_life (f : PowSt → PowSt) : (apply (.pow f) s).life = s.life := (rfl)
@[simp] theorem pow_flashLog (f : PowSt → PowSt) : (apply (.pow f) s).flashLog = s.flashLog := (rfl)
@[simp] theorem pow_log (f : PowSt → PowSt) : (apply (.pow f) s).log = s.log := (rfl)
@[simp] theorem pow_time (f : PowSt → PowSt) : (apply (.pow f) s).time = s.time := (rfl)
@[simp] theorem pow_chart (f : PowSt → PowSt) : (apply (.pow f) s).chart = s.chart := (rfl)
@[simp] theorem pow_tide (f : PowSt → PowSt) : (apply (.pow f) s).tide = s.tide := (rfl)
@[simp] theorem pow_tiles (f : PowSt → PowSt) : (apply (.pow f) s).tiles = s.tiles := (rfl)
@[simp] theorem pow_num (f : PowSt → PowSt) : (apply (.pow f) s).num = s.num := (rfl)
@[simp] theorem pow_sec (f : PowSt → PowSt) : (apply (.pow f) s).sec = s.sec := (rfl)
@[simp] theorem pow_tier (f : PowSt → PowSt) : (apply (.pow f) s).tier = s.tier := (rfl)
@[simp] theorem pow_coh (f : PowSt → PowSt) : (apply (.pow f) s).coh = s.coh := (rfl)
@[simp] theorem pow_hural (f : PowSt → PowSt) : (apply (.pow f) s).hural = s.hural := (rfl)
@[simp] theorem pow_upd (f : PowSt → PowSt) : (apply (.pow f) s).upd = s.upd := (rfl)
@[simp] theorem pow_cus (f : PowSt → PowSt) : (apply (.pow f) s).cus = s.cus := (rfl)
@[simp] theorem pow_bell (f : PowSt → PowSt) : (apply (.pow f) s).bell = s.bell := (rfl)
@[simp] theorem pow_link (f : PowSt → PowSt) : (apply (.pow f) s).link = s.link := (rfl)
@[simp] theorem pow_en (f : PowSt → PowSt) : (apply (.pow f) s).en = s.en := (rfl)
@[simp] theorem pow_shd (f : PowSt → PowSt) : (apply (.pow f) s).shd = s.shd := (rfl)
@[simp] theorem pow_hm (f : PowSt → PowSt) : (apply (.pow f) s).hm = s.hm := (rfl)
@[simp] theorem pow_rst (f : PowSt → PowSt) : (apply (.pow f) s).rst = s.rst := (rfl)
@[simp] theorem pow_pow (f : PowSt → PowSt) : (apply (.pow f) s).pow = f s.pow := (rfl)

end Sys2Proof.Machine.Prim
end

