-- ==== Sys2Proof/Laws/Reads.lean ====
section
/-! SUPPORT. Reading a register after an update that is none of a register's. -/

namespace Sys2Proof.Machine.Prim

variable (s : State) (q : RegName) (m n : Nat) (x : Fld)

@[simp] theorem mem_getReg (a : Nat) (b : Byte) : getReg (apply (.mem a b) s) q m n = getReg s q m n := (rfl)
@[simp] theorem mem_getF (a : Nat) (b : Byte) : getF (apply (.mem a b) s) x m n = getF s x m n := (rfl)
@[simp] theorem mem_getB (a : Nat) (b : Byte) : getB (apply (.mem a b) s) x m n = getB s x m n := (rfl)
@[simp] theorem clear_getReg (a n : Nat) : getReg (apply (.clear a n) s) q m n = getReg s q m n := (rfl)
@[simp] theorem clear_getF (a n : Nat) : getF (apply (.clear a n) s) x m n = getF s x m n := (rfl)
@[simp] theorem clear_getB (a n : Nat) : getB (apply (.clear a n) s) x m n = getB s x m n := (rfl)
@[simp] theorem floor_getReg (v : W64) : getReg (apply (.floor v) s) q m n = getReg s q m n := (rfl)
@[simp] theorem floor_getF (v : W64) : getF (apply (.floor v) s) x m n = getF s x m n := (rfl)
@[simp] theorem floor_getB (v : W64) : getB (apply (.floor v) s) x m n = getB s x m n := (rfl)
@[simp] theorem life_getReg (l : Life) : getReg (apply (.life l) s) q m n = getReg s q m n := (rfl)
@[simp] theorem life_getF (l : Life) : getF (apply (.life l) s) x m n = getF s x m n := (rfl)
@[simp] theorem life_getB (l : Life) : getB (apply (.life l) s) x m n = getB s x m n := (rfl)
@[simp] theorem flashLog_getReg (l : List LogRec) : getReg (apply (.flashLog l) s) q m n = getReg s q m n := (rfl)
@[simp] theorem flashLog_getF (l : List LogRec) : getF (apply (.flashLog l) s) x m n = getF s x m n := (rfl)
@[simp] theorem flashLog_getB (l : List LogRec) : getB (apply (.flashLog l) s) x m n = getB s x m n := (rfl)
@[simp] theorem send_getReg (o : Out) : getReg (apply (.send o) s) q m n = getReg s q m n := (rfl)
@[simp] theorem send_getF (o : Out) : getF (apply (.send o) s) x m n = getF s x m n := (rfl)
@[simp] theorem send_getB (o : Out) : getB (apply (.send o) s) x m n = getB s x m n := (rfl)
@[simp] theorem fresh_getReg : getReg (apply (.fresh) s) q m n = getReg s q m n := (rfl)
@[simp] theorem fresh_getF : getF (apply (.fresh) s) x m n = getF s x m n := (rfl)
@[simp] theorem fresh_getB : getB (apply (.fresh) s) x m n = getB s x m n := (rfl)
@[simp] theorem time_getReg (n : Nat) : getReg (apply (.time n) s) q m n = getReg s q m n := (rfl)
@[simp] theorem time_getF (n : Nat) : getF (apply (.time n) s) x m n = getF s x m n := (rfl)
@[simp] theorem time_getB (n : Nat) : getB (apply (.time n) s) x m n = getB s x m n := (rfl)
@[simp] theorem log_getReg (f : LogSt → LogSt) : getReg (apply (.log f) s) q m n = getReg s q m n := (rfl)
@[simp] theorem log_getF (f : LogSt → LogSt) : getF (apply (.log f) s) x m n = getF s x m n := (rfl)
@[simp] theorem log_getB (f : LogSt → LogSt) : getB (apply (.log f) s) x m n = getB s x m n := (rfl)
@[simp] theorem calendar_getReg (f : TimeSt → TimeSt) : getReg (apply (.calendar f) s) q m n = getReg s q m n := (rfl)
@[simp] theorem calendar_getF (f : TimeSt → TimeSt) : getF (apply (.calendar f) s) x m n = getF s x m n := (rfl)
@[simp] theorem calendar_getB (f : TimeSt → TimeSt) : getB (apply (.calendar f) s) x m n = getB s x m n := (rfl)
@[simp] theorem chart_getReg (f : ChartSt → ChartSt) : getReg (apply (.chart f) s) q m n = getReg s q m n := (rfl)
@[simp] theorem chart_getF (f : ChartSt → ChartSt) : getF (apply (.chart f) s) x m n = getF s x m n := (rfl)
@[simp] theorem chart_getB (f : ChartSt → ChartSt) : getB (apply (.chart f) s) x m n = getB s x m n := (rfl)
@[simp] theorem tide_getReg (f : TideSt → TideSt) : getReg (apply (.tide f) s) q m n = getReg s q m n := (rfl)
@[simp] theorem tide_getF (f : TideSt → TideSt) : getF (apply (.tide f) s) x m n = getF s x m n := (rfl)
@[simp] theorem tide_getB (f : TideSt → TideSt) : getB (apply (.tide f) s) x m n = getB s x m n := (rfl)
@[simp] theorem tiles_getReg (f : FMap Tile → FMap Tile) : getReg (apply (.tiles f) s) q m n = getReg s q m n := (rfl)
@[simp] theorem tiles_getF (f : FMap Tile → FMap Tile) : getF (apply (.tiles f) s) x m n = getF s x m n := (rfl)
@[simp] theorem tiles_getB (f : FMap Tile → FMap Tile) : getB (apply (.tiles f) s) x m n = getB s x m n := (rfl)
@[simp] theorem num_getReg (f : NumSt → NumSt) : getReg (apply (.num f) s) q m n = getReg s q m n := (rfl)
@[simp] theorem num_getF (f : NumSt → NumSt) : getF (apply (.num f) s) x m n = getF s x m n := (rfl)
@[simp] theorem num_getB (f : NumSt → NumSt) : getB (apply (.num f) s) x m n = getB s x m n := (rfl)
@[simp] theorem sec_getReg (f : SecSt → SecSt) : getReg (apply (.sec f) s) q m n = getReg s q m n := (rfl)
@[simp] theorem sec_getF (f : SecSt → SecSt) : getF (apply (.sec f) s) x m n = getF s x m n := (rfl)
@[simp] theorem sec_getB (f : SecSt → SecSt) : getB (apply (.sec f) s) x m n = getB s x m n := (rfl)
@[simp] theorem tier_getReg (f : TierSt → TierSt) : getReg (apply (.tier f) s) q m n = getReg s q m n := (rfl)
@[simp] theorem tier_getF (f : TierSt → TierSt) : getF (apply (.tier f) s) x m n = getF s x m n := (rfl)
@[simp] theorem tier_getB (f : TierSt → TierSt) : getB (apply (.tier f) s) x m n = getB s x m n := (rfl)
@[simp] theorem coh_getReg (f : CohSt → CohSt) : getReg (apply (.coh f) s) q m n = getReg s q m n := (rfl)
@[simp] theorem coh_getF (f : CohSt → CohSt) : getF (apply (.coh f) s) x m n = getF s x m n := (rfl)
@[simp] theorem coh_getB (f : CohSt → CohSt) : getB (apply (.coh f) s) x m n = getB s x m n := (rfl)
@[simp] theorem hural_getReg (f : HuralSt → HuralSt) : getReg (apply (.hural f) s) q m n = getReg s q m n := (rfl)
@[simp] theorem hural_getF (f : HuralSt → HuralSt) : getF (apply (.hural f) s) x m n = getF s x m n := (rfl)
@[simp] theorem hural_getB (f : HuralSt → HuralSt) : getB (apply (.hural f) s) x m n = getB s x m n := (rfl)
@[simp] theorem upd_getReg (f : UpdSt → UpdSt) : getReg (apply (.upd f) s) q m n = getReg s q m n := (rfl)
@[simp] theorem upd_getF (f : UpdSt → UpdSt) : getF (apply (.upd f) s) x m n = getF s x m n := (rfl)
@[simp] theorem upd_getB (f : UpdSt → UpdSt) : getB (apply (.upd f) s) x m n = getB s x m n := (rfl)
@[simp] theorem cus_getReg (f : CusSt → CusSt) : getReg (apply (.cus f) s) q m n = getReg s q m n := (rfl)
@[simp] theorem cus_getF (f : CusSt → CusSt) : getF (apply (.cus f) s) x m n = getF s x m n := (rfl)
@[simp] theorem cus_getB (f : CusSt → CusSt) : getB (apply (.cus f) s) x m n = getB s x m n := (rfl)
@[simp] theorem bell_getReg (f : FMap BellQ → FMap BellQ) : getReg (apply (.bell f) s) q m n = getReg s q m n := (rfl)
@[simp] theorem bell_getF (f : FMap BellQ → FMap BellQ) : getF (apply (.bell f) s) x m n = getF s x m n := (rfl)
@[simp] theorem bell_getB (f : FMap BellQ → FMap BellQ) : getB (apply (.bell f) s) x m n = getB s x m n := (rfl)
@[simp] theorem link_getReg (f : LinkSt → LinkSt) : getReg (apply (.link f) s) q m n = getReg s q m n := (rfl)
@[simp] theorem link_getF (f : LinkSt → LinkSt) : getF (apply (.link f) s) x m n = getF s x m n := (rfl)
@[simp] theorem link_getB (f : LinkSt → LinkSt) : getB (apply (.link f) s) x m n = getB s x m n := (rfl)
@[simp] theorem en_getReg (f : EnSt → EnSt) : getReg (apply (.en f) s) q m n = getReg s q m n := (rfl)
@[simp] theorem en_getF (f : EnSt → EnSt) : getF (apply (.en f) s) x m n = getF s x m n := (rfl)
@[simp] theorem en_getB (f : EnSt → EnSt) : getB (apply (.en f) s) x m n = getB s x m n := (rfl)
@[simp] theorem shd_getReg (f : ShdSt → ShdSt) : getReg (apply (.shd f) s) q m n = getReg s q m n := (rfl)
@[simp] theorem shd_getF (f : ShdSt → ShdSt) : getF (apply (.shd f) s) x m n = getF s x m n := (rfl)
@[simp] theorem shd_getB (f : ShdSt → ShdSt) : getB (apply (.shd f) s) x m n = getB s x m n := (rfl)
@[simp] theorem hm_getReg (f : HmSt → HmSt) : getReg (apply (.hm f) s) q m n = getReg s q m n := (rfl)
@[simp] theorem hm_getF (f : HmSt → HmSt) : getF (apply (.hm f) s) x m n = getF s x m n := (rfl)
@[simp] theorem hm_getB (f : HmSt → HmSt) : getB (apply (.hm f) s) x m n = getB s x m n := (rfl)
@[simp] theorem rst_getReg (f : RstSt → RstSt) : getReg (apply (.rst f) s) q m n = getReg s q m n := (rfl)
@[simp] theorem rst_getF (f : RstSt → RstSt) : getF (apply (.rst f) s) x m n = getF s x m n := (rfl)
@[simp] theorem rst_getB (f : RstSt → RstSt) : getB (apply (.rst f) s) x m n = getB s x m n := (rfl)
@[simp] theorem pow_getReg (f : PowSt → PowSt) : getReg (apply (.pow f) s) q m n = getReg s q m n := (rfl)
@[simp] theorem pow_getF (f : PowSt → PowSt) : getF (apply (.pow f) s) x m n = getF s x m n := (rfl)
@[simp] theorem pow_getB (f : PowSt → PowSt) : getB (apply (.pow f) s) x m n = getB s x m n := (rfl)
@[simp] theorem reg_theChart (r : RegName) (i j : Nat) (v : W64) : theChart (apply (.reg r i j v) s) = theChart s := (rfl)
@[simp] theorem regsReset_theChart (c : RegName → Bool) : theChart (apply (.regsReset c) s) = theChart s := (rfl)
@[simp] theorem mem_theChart (a : Nat) (b : Byte) : theChart (apply (.mem a b) s) = theChart s := (rfl)
@[simp] theorem clear_theChart (a n : Nat) : theChart (apply (.clear a n) s) = theChart s := (rfl)
@[simp] theorem floor_theChart (v : W64) : theChart (apply (.floor v) s) = theChart s := (rfl)
@[simp] theorem life_theChart (l : Life) : theChart (apply (.life l) s) = theChart s := (rfl)
@[simp] theorem flashLog_theChart (l : List LogRec) : theChart (apply (.flashLog l) s) = theChart s := (rfl)
@[simp] theorem send_theChart (o : Out) : theChart (apply (.send o) s) = theChart s := (rfl)
@[simp] theorem fresh_theChart : theChart (apply (.fresh) s) = theChart s := (rfl)
@[simp] theorem time_theChart (n : Nat) : theChart (apply (.time n) s) = theChart s := (rfl)
@[simp] theorem log_theChart (f : LogSt → LogSt) : theChart (apply (.log f) s) = theChart s := (rfl)
@[simp] theorem calendar_theChart (f : TimeSt → TimeSt) : theChart (apply (.calendar f) s) = theChart s := (rfl)
@[simp] theorem tide_theChart (f : TideSt → TideSt) : theChart (apply (.tide f) s) = theChart s := (rfl)
@[simp] theorem tiles_theChart (f : FMap Tile → FMap Tile) : theChart (apply (.tiles f) s) = theChart s := (rfl)
@[simp] theorem num_theChart (f : NumSt → NumSt) : theChart (apply (.num f) s) = theChart s := (rfl)
@[simp] theorem sec_theChart (f : SecSt → SecSt) : theChart (apply (.sec f) s) = theChart s := (rfl)
@[simp] theorem tier_theChart (f : TierSt → TierSt) : theChart (apply (.tier f) s) = theChart s := (rfl)
@[simp] theorem coh_theChart (f : CohSt → CohSt) : theChart (apply (.coh f) s) = theChart s := (rfl)
@[simp] theorem hural_theChart (f : HuralSt → HuralSt) : theChart (apply (.hural f) s) = theChart s := (rfl)
@[simp] theorem upd_theChart (f : UpdSt → UpdSt) : theChart (apply (.upd f) s) = theChart s := (rfl)
@[simp] theorem cus_theChart (f : CusSt → CusSt) : theChart (apply (.cus f) s) = theChart s := (rfl)
@[simp] theorem bell_theChart (f : FMap BellQ → FMap BellQ) : theChart (apply (.bell f) s) = theChart s := (rfl)
@[simp] theorem link_theChart (f : LinkSt → LinkSt) : theChart (apply (.link f) s) = theChart s := (rfl)
@[simp] theorem en_theChart (f : EnSt → EnSt) : theChart (apply (.en f) s) = theChart s := (rfl)
@[simp] theorem shd_theChart (f : ShdSt → ShdSt) : theChart (apply (.shd f) s) = theChart s := (rfl)
@[simp] theorem hm_theChart (f : HmSt → HmSt) : theChart (apply (.hm f) s) = theChart s := (rfl)
@[simp] theorem rst_theChart (f : RstSt → RstSt) : theChart (apply (.rst f) s) = theChart s := (rfl)
@[simp] theorem pow_theChart (f : PowSt → PowSt) : theChart (apply (.pow f) s) = theChart s := (rfl)

end Sys2Proof.Machine.Prim
end

