-- ==== Sys2Proof/Laws/Run.lean ====
section
/-! SUPPORT. Running a program: what each way of combining programs does, and the one induction over programs: what every primitive update of a program respects, the program respects. -/

namespace Sys2Proof.Machine

@[simp] theorem run_skip (s : State) : run .skip s = s := (rfl)
@[simp] theorem run_prim (p : Prim) (s : State) : run (.prim p) s = p.apply s := (rfl)
@[simp] theorem run_seq (a b : Act) (s : State) : run (.seq a b) s = run b (run a s) := (rfl)
@[simp] theorem run_ask (f : State → Act) (s : State) : run (.ask f) s = run (f s) s := (rfl)
@[simp] theorem run_all_nil (s : State) : run (Act.all []) s = s := (rfl)
@[simp] theorem run_all_cons (a : Act) (l : List Act) (s : State) : run (Act.all (a :: l)) s = run (Act.all l) (run a s) := (rfl)
@[simp] theorem run_each_nil {α : Type} (f : α → Act) (s : State) : run (Act.each f []) s = s := (rfl)
@[simp] theorem run_each_cons {α : Type} (f : α → Act) (x : α) (l : List α) (s : State) :
    run (Act.each f (x :: l)) s = run (Act.each f l) (run (f x) s) := (rfl)
@[simp] theorem run_when (c : Bool) (a : Act) (s : State) : run (Act.when c a) s = if c then run a s else s := by cases c <;> rfl
@[simp] theorem run_given (c : State → Bool) (a : Act) (s : State) : run (Act.given c a) s = if c s then run a s else s := by
  simp only [Act.given, run_ask]; split <;> rfl
@[simp] theorem run_withFree (g : (Nat → Nat) → Act) (s : State) : run (withFree g) s = Prim.apply .fresh (run (g (Config.freeValue s.free)) s) := (rfl)
@[simp] theorem run_send (o : Out) (s : State) : run (send o) s = Prim.apply (.send o) s := (rfl)
@[simp] theorem run_respond (w : Agent) (a : Addr) (d : List Byte) (s : State) : run (respond w a d) s = Prim.apply (.send (.resp w a d)) s := (rfl)

/-- Every primitive update that a program can reach satisfies a condition. -/
def Act.Within (P : Prim → Prop) : Act → Prop
  | .skip => True
  | .prim p => P p
  | .seq a b => a.Within P ∧ b.Within P
  | .ask f => ∀ s, (f s).Within P

variable {P : Prim → Prop}

@[simp] theorem within_skip : Act.Within P .skip := trivial
@[simp] theorem within_prim (p : Prim) : Act.Within P (.prim p) ↔ P p := Iff.rfl
@[simp] theorem within_seq (a b : Act) : Act.Within P (.seq a b) ↔ a.Within P ∧ b.Within P := Iff.rfl
@[simp] theorem within_ask (f : State → Act) : Act.Within P (.ask f) ↔ ∀ s, (f s).Within P := Iff.rfl
@[simp] theorem within_all_nil : Act.Within P (Act.all []) := trivial
@[simp] theorem within_all_cons (a : Act) (l : List Act) : Act.Within P (Act.all (a :: l)) ↔ a.Within P ∧ (Act.all l).Within P := Iff.rfl
@[simp] theorem within_when (c : Bool) (a : Act) : Act.Within P (Act.when c a) ↔ (c = true → a.Within P) := by cases c <;> simp [Act.when]
@[simp] theorem within_given (c : State → Bool) (a : Act) : Act.Within P (Act.given c a) ↔ ∀ s, c s = true → a.Within P := by
  simp only [Act.given, within_ask]
  refine forall_congr' fun s => ?_
  split <;> simp_all

theorem within_all (l : List Act) : Act.Within P (Act.all l) ↔ ∀ a ∈ l, a.Within P := by
  induction l with
  | nil => simp
  | cons a l ih => simp [ih]

theorem within_each {α : Type} (f : α → Act) (l : List α) : Act.Within P (Act.each f l) ↔ ∀ x ∈ l, (f x).Within P := by
  induction l with
  | nil => simp [Act.each]
  | cons x l ih => simp [Act.each, ih]

/-- A program all of whose updates satisfy a stronger condition. -/
theorem Act.Within.mono {Q : Prim → Prop} (h : ∀ p, P p → Q p) {a : Act} (ha : a.Within P) : a.Within Q := by
  induction a with
  | skip => trivial
  | prim p => exact h p ha
  | seq a b iha ihb => exact ⟨iha ha.1, ihb ha.2⟩
  | ask f ih => exact fun s => ih s (ha s)

/-- A reflexive and transitive relation that every reachable primitive update respects holds from the first state of a run to its last. -/
theorem run_rel {R : State → State → Prop} (hr : ∀ s, R s s) (ht : ∀ {a b c}, R a b → R b c → R a c) {a : Act} (ha : a.Within P)
    (hp : ∀ p, P p → ∀ s, R s (p.apply s)) (s : State) : R s (run a s) := by
  induction a generalizing s with
  | skip => exact hr s
  | prim p => exact hp p ha s
  | seq a b iha ihb => exact ht (iha ha.1 s) (ihb ha.2 (run a s))
  | ask f ih => exact ih s (ha s) s

/-- What every primitive update keeps, every program keeps. -/
theorem run_keeps {I : State → Prop} (hp : ∀ p s, I s → I (Prim.apply p s)) (a : Act) (s : State) (h : I s) : I (run a s) := by
  induction a generalizing s with
  | skip => exact h
  | prim p => exact hp p s h
  | seq a b iha ihb => exact ihb _ (iha s h)
  | ask f ih => exact ih s s h

/-- A program none of whose updates changes what a function reads. -/
theorem run_same {α : Type} (g : State → α) {a : Act} (ha : a.Within fun p => ∀ s, g (p.apply s) = g s) (s : State) : g (run a s) = g s :=
  run_rel (R := fun x y => g y = g x) (fun _ => rfl) (fun h k => k.trans h) ha (fun _ h => h) s

end Sys2Proof.Machine
end

