-- ==== Sys2Proof/Laws/Regs.lean ====
section
/-! SUPPORT. Registers: a write of one leaves every other one alone, a field reads what was written to it, reserved bits read 0. -/

namespace Sys2Proof.Machine

/-- Two places name one register: the name, and the indices modulo 2^16. -/
theorem regKey_eq_iff (r q : RegName) (i j m n : Nat) : regKey r i j = regKey q m n ↔ r = q ∧ i % 65536 = m % 65536 ∧ j % 65536 = n % 65536 := by
  constructor
  · intro h
    have hi := Nat.mod_lt i (show 65536 > 0 by decide)
    have hj := Nat.mod_lt j (show 65536 > 0 by decide)
    have hm := Nat.mod_lt m (show 65536 > 0 by decide)
    have hn := Nat.mod_lt n (show 65536 > 0 by decide)
    unfold regKey at h
    have h0 : r.ctorIdx = q.ctorIdx := by omega
    exact ⟨by rw [← RegName.ofNat_ctorIdx r, h0, RegName.ofNat_ctorIdx], by omega, by omega⟩
  · rintro ⟨rfl, h1, h2⟩
    simp [regKey, h1, h2]

/-- Reset values and masks depend on the indices as the key does. -/
theorem regReset_of_key {r : RegName} {i j m n : Nat} (h : regKey r i j = regKey r m n) : regReset r i j = regReset r m n := by
  obtain ⟨-, h1, h2⟩ := (regKey_eq_iff r r i j m n).mp h
  simp only [regReset, h1, h2]

theorem regMask_of_key {r : RegName} {i j m n : Nat} (h : regKey r i j = regKey r m n) : regMask r i j = regMask r m n := by
  obtain ⟨-, h1, -⟩ := (regKey_eq_iff r r i j m n).mp h
  simp only [regMask, h1]

/-- A register after a register's update. -/
theorem getReg_apply_reg (r q : RegName) (i j m n : Nat) (v : W64) (s : State) :
    getReg (Prim.apply (.reg r i j v) s) q m n =
      if regKey r i j = regKey q m n then (if r = .IDREV then regReset r i j else v &&& regMask r i j) else getReg s q m n := by
  simp only [getReg, Prim.reg_regs, regPut, Cells.get_eq_look]
  by_cases hk : regKey r i j = regKey q m n
  · obtain ⟨rfl, -⟩ := (regKey_eq_iff r q i j m n).mp hk
    rw [if_pos hk, regReset_of_key hk.symm, hk]
    by_cases hr : r = .IDREV
    · simp only [hr, true_or, if_true, Cells.look_del, Option.getD_none]
    · simp only [hr, false_or, if_false]
      split
      · rename_i h; rw [Cells.look_del, if_pos rfl]; exact h.symm
      · rw [Cells.look_ins, if_pos rfl]; rfl
  · rw [if_neg hk]
    split
    · rw [Cells.look_del, if_neg (Ne.symm hk)]
    · rw [Cells.look_ins, if_neg (Ne.symm hk)]

@[simp] theorem getReg_apply_reg_same {r : RegName} (i j : Nat) (v : W64) (s : State) (h : r ≠ .IDREV) :
    getReg (Prim.apply (.reg r i j v) s) r i j = v &&& regMask r i j := by
  rw [getReg_apply_reg, if_pos rfl, if_neg h]

@[simp] theorem getReg_apply_reg_name {r q : RegName} (i j m n : Nat) (v : W64) (s : State) (h : r ≠ q) :
    getReg (Prim.apply (.reg r i j v) s) q m n = getReg s q m n := by
  rw [getReg_apply_reg, if_neg fun hk => h ((regKey_eq_iff ..).mp hk).1]

/-- The bits of a field are neither reserved nor hard-wired. -/
def Fld.Fits (f : Fld) (i j : Nat) : Prop := f.reg ≠ .IDREV ∧ f.lo + f.width ≤ 64 ∧ ∀ k, f.lo ≤ k → k < f.lo + f.width → (regMask f.reg i j).toNat.testBit k = true

/-- A check that `decide` can run: a field's bits are in its register's mask, whatever the indices. -/
def Fld.fits (f : Fld) : Bool :=
  decide (f.reg ≠ .IDREV ∧ f.reg ≠ .TIDE_SUSPECT ∧ f.reg ≠ .RST_TRIP ∧ f.reg ≠ .COH_MEMBH) && decide (f.lo + f.width ≤ 64) &&
  decide ((f.reg.fields.foldl (fun a f => a ||| f.mask) 0) / 2 ^ f.lo % 2 ^ f.width = 2 ^ f.width - 1)

theorem Fld.fits_iff {f : Fld} (h : f.fits = true) (i j : Nat) : f.Fits i j := by
  simp only [Fld.fits, Bool.and_eq_true, decide_eq_true_eq] at h
  obtain ⟨⟨⟨h1, h2, h3, h4⟩, hw⟩, hm⟩ := h
  refine ⟨h1, hw, fun k hk hk' => ?_⟩
  have hr : regMask f.reg i j = BitVec.ofNat 64 (f.reg.fields.foldl (fun a f => a ||| f.mask) 0) := by
    generalize f.reg = r at h1 h2 h3 h4
    simp only [regMask]
    split <;> first | rfl | contradiction
  rw [hr, BitVec.toNat_ofNat, Nat.testBit_mod_two_pow]
  have h5 : (2 ^ f.width - 1).testBit (k - f.lo) = true := by
    rw [Nat.testBit_two_pow_sub_one]; simp; omega
  rw [← hm, Nat.testBit_mod_two_pow, Nat.testBit_div_two_pow, Nat.sub_add_cancel hk] at h5
  simp only [Bool.and_eq_true, decide_eq_true_eq] at h5
  simp [h5.2]; omega

theorem toNat_withF (v : W64) {f : Fld} (x : Nat) (h : f.lo + f.width ≤ 64) : (withF v f x).toNat = putBits v.toNat f.lo f.width x := by
  rw [withF, BitVec.toNat_ofNat, Nat.mod_eq_of_lt (putBits_lt x v.isLt h)]

theorem bitsOf_and_mask {f : Fld} {i j : Nat} (h : f.Fits i j) (v : W64) : bitsOf (v &&& regMask f.reg i j).toNat f.lo f.width = bitsOf v.toNat f.lo f.width := by
  refine Nat.eq_of_testBit_eq fun k => ?_
  rw [testBit_bitsOf, testBit_bitsOf, BitVec.toNat_and, Nat.testBit_and]
  by_cases hk : k < f.width
  · rw [h.2.2 (f.lo + k) (by omega) (by omega)]; simp
  · simp [hk]

/-- A field reads as its new value. -/
theorem getF_setF {f : Fld} {i j : Nat} (h : f.Fits i j) (x : Nat) (s : State) : getF (run (setF f x i j) s) f i j = x % 2 ^ f.width := by
  simp only [getF, setF, run_ask, run_prim, getReg_apply_reg_same _ _ _ _ h.1]
  rw [bitsOf_and_mask h, toNat_withF _ _ h.2.1, bitsOf_putBits]

theorem getF_modF {f : Fld} {i j : Nat} (h : f.Fits i j) (g : Nat → Nat) (s : State) : getF (run (modF f g i j) s) f i j = g (getF s f i j) % 2 ^ f.width := by
  show getF (run (setF f (g (getF s f i j)) i j) s) f i j = _
  rw [getF_setF h]

theorem getF_incF {f : Fld} {i j : Nat} (h : f.Fits i j) (n : Nat) (s : State) :
    getF (run (incF f n i j) s) f i j = min (getF s f i j + n) (2 ^ f.width - 1) := by
  rw [incF, getF_modF h, satAdd, Nat.mod_eq_of_lt]
  have := Nat.two_pow_pos f.width
  omega

theorem getF_addF {f : Fld} {i j : Nat} (h : f.Fits i j) (n : Nat) (s : State) : getF (run (addF f n i j) s) f i j = (getF s f i j + n) % 2 ^ f.width := by
  rw [addF, getF_modF h]

/-- A field's update leaves the registers of other names alone. -/
@[simp] theorem getReg_setF {f : Fld} {q : RegName} (x i j m n : Nat) (s : State) (h : f.reg ≠ q) : getReg (run (setF f x i j) s) q m n = getReg s q m n := by
  simp only [setF, run_ask, run_prim]
  exact getReg_apply_reg_name _ _ _ _ _ _ h

@[simp] theorem getReg_modF {f : Fld} {q : RegName} (g : Nat → Nat) (i j m n : Nat) (s : State) (h : f.reg ≠ q) :
    getReg (run (modF f g i j) s) q m n = getReg s q m n := by
  simp only [modF, run_ask, run_prim]
  exact getReg_apply_reg_name _ _ _ _ _ _ h

/-- A field's update leaves the other fields of its register alone. -/
theorem getF_setF_disjoint {f g : Fld} {i j : Nat} (s : State) (x : Nat) (hf : f.lo + f.width ≤ 64) (hr : f.reg = g.reg) (hg : g.Fits i j)
    (h : g.lo + g.width ≤ f.lo ∨ f.lo + f.width ≤ g.lo) : getF (run (setF f x i j) s) g i j = getF s g i j := by
  simp only [getF, setF, run_ask, run_prim, hr, getReg_apply_reg_same _ _ _ _ hg.1]
  rw [bitsOf_and_mask hg, toNat_withF _ _ hf, bitsOf_putBits_of_disjoint _ _ h]

/-! The same with side conditions that `decide` can run on named fields. -/

/-- Two fields share no bit: other registers, or other bits of one. -/
def Fld.apart (f g : Fld) : Bool :=
  decide (f.reg ≠ g.reg) || (decide (f.lo + f.width ≤ 64) && g.fits && decide (g.lo + g.width ≤ f.lo ∨ f.lo + f.width ≤ g.lo))

/-- A named field reads as its new value. -/
@[simp] theorem getF_setF_fits {f : Fld} (h : f.fits = true) (x i j : Nat) (s : State) : getF (run (setF f x i j) s) f i j = x % 2 ^ f.width :=
  getF_setF (Fld.fits_iff h i j) x s

/-- A field's update leaves the fields that share no bit with it alone, in every register. -/
@[simp] theorem getF_setF_apart {f g : Fld} (h : f.apart g = true) (x i j m n : Nat) (s : State) : getF (run (setF f x i j) s) g m n = getF s g m n := by
  by_cases hr : f.reg = g.reg
  · simp only [Fld.apart, hr, ne_eq, not_true_eq_false, decide_false, Bool.false_or, Bool.and_eq_true, decide_eq_true_eq] at h
    obtain ⟨⟨hf, hg⟩, hd⟩ := h
    by_cases hk : regKey f.reg i j = regKey g.reg m n
    · have hg' := Fld.fits_iff hg m n
      simp only [getF, setF, run_ask, run_prim]
      rw [getReg_apply_reg, if_pos hk, hr, if_neg hg'.1, regMask_of_key (hr ▸ hk), bitsOf_and_mask hg', toNat_withF _ _ hf, bitsOf_putBits_of_disjoint _ _ hd]
      obtain ⟨-, h1, h2⟩ := (regKey_eq_iff ..).mp hk
      have : getReg s g.reg i j = getReg s g.reg m n := by
        rw [hr] at hk
        simp only [getReg, hk, regReset_of_key hk]
      rw [this]
    · simp only [getF, setF, run_ask, run_prim]
      rw [getReg_apply_reg, if_neg hk]
  · simp only [getF, getReg_setF _ _ _ _ _ _ hr]

@[simp] theorem getF_modF_fits {f : Fld} (h : f.fits = true) (g : Nat → Nat) (i j : Nat) (s : State) :
    getF (run (modF f g i j) s) f i j = g (getF s f i j) % 2 ^ f.width := getF_modF (Fld.fits_iff h i j) g s

@[simp] theorem getF_modF_apart {f g : Fld} (h : f.apart g = true) (k : Nat → Nat) (i j m n : Nat) (s : State) :
    getF (run (modF f k i j) s) g m n = getF s g m n := getF_setF_apart h (k (getF s f i j)) i j m n s

/-- A saturating count. -/
@[simp] theorem getF_incF_fits {f : Fld} (h : f.fits = true) (n i j : Nat) (s : State) :
    getF (run (incF f n i j) s) f i j = min (getF s f i j + n) (2 ^ f.width - 1) := getF_incF (Fld.fits_iff h i j) n s

@[simp] theorem getF_incF_apart {f g : Fld} (h : f.apart g = true) (c i j m n : Nat) (s : State) :
    getF (run (incF f c i j) s) g m n = getF s g m n := getF_modF_apart h _ i j m n s

@[simp] theorem getF_addF_fits {f : Fld} (h : f.fits = true) (n i j : Nat) (s : State) :
    getF (run (addF f n i j) s) f i j = (getF s f i j + n) % 2 ^ f.width := getF_addF (Fld.fits_iff h i j) n s

@[simp] theorem getF_addF_apart {f g : Fld} (h : f.apart g = true) (c i j m n : Nat) (s : State) :
    getF (run (addF f c i j) s) g m n = getF s g m n := getF_modF_apart h _ i j m n s

/-- An event's bit is set. -/
@[simp] theorem getF_evt_fits {f : Fld} (h : f.fits = true) (i j : Nat) (s : State) : getF (run (evt f i j) s) f i j = 1 % 2 ^ f.width :=
  getF_setF_fits h 1 i j s

@[simp] theorem getF_evt_apart {f g : Fld} (h : f.apart g = true) (i j m n : Nat) (s : State) : getF (run (evt f i j) s) g m n = getF s g m n :=
  getF_setF_apart h 1 i j m n s

/-- A field's update at one index leaves the same register at another alone. -/
theorem getF_setF_index {f g : Fld} (x i j m n : Nat) (s : State) (h : i % 65536 ≠ m % 65536 ∨ j % 65536 ≠ n % 65536) :
    getF (run (setF f x i j) s) g m n = getF s g m n := by
  simp only [getF, setF, run_ask, run_prim]
  rw [getReg_apply_reg, if_neg fun hk => ?_]
  obtain ⟨-, h1, h2⟩ := (regKey_eq_iff ..).mp hk
  exact h.elim (· h1) (· h2)

theorem RegName.mem_all (r : RegName) : r ∈ RegName.all := by cases r <;> decide

/-- The registers of a class read as their reset values after their reset; no other register changes. -/
@[simp] theorem getReg_apply_regsReset (c : RegName → Bool) (q : RegName) (m n : Nat) (s : State) :
    getReg (Prim.apply (.regsReset c) s) q m n = if c q then regReset q m n else getReg s q m n := by
  have hk : regKey q m n / 2 ^ 32 = q.ctorIdx := by
    have hm := Nat.mod_lt m (show 65536 > 0 by decide)
    have hn := Nat.mod_lt n (show 65536 > 0 by decide)
    unfold regKey; omega
  have hc : (RegName.all.any fun r => c r && decide (regKey q m n / 2 ^ 32 = r.ctorIdx)) = c q := by
    rw [hk, Bool.eq_iff_iff, List.any_eq_true]
    constructor
    · rintro ⟨r, -, h⟩
      simp only [Bool.and_eq_true, decide_eq_true_eq] at h
      rw [← RegName.ofNat_ctorIdx q, h.2, RegName.ofNat_ctorIdx]; exact h.1
    · intro h; exact ⟨q, RegName.mem_all q, by simp [h]⟩
  have hl : ∀ (l : FMap W64) (p : Nat → Bool) (k : Nat), Cells.look (l.filter fun e => !p e.1) k = if p k then none else Cells.look l k := by
    intro l p k
    induction l with
    | nil => simp [Cells.look]
    | cons e l ih =>
      obtain ⟨a, v⟩ := e
      simp only [List.filter_cons, Cells.look]
      by_cases hp : p a
      · simp only [hp, Bool.not_true, Bool.false_eq_true, if_false, ih]
        by_cases hka : k = a
        · subst hka; simp [hp]
        · simp [hka]
      · simp only [hp, Bool.not_false, if_true, Cells.look, ih]
        by_cases hka : k = a
        · subst hka; simp [hp]
        · simp [hka]
  simp only [getReg, Prim.regsReset_regs, Cells.get_eq_look]
  rw [hl s.regs (fun x => RegName.all.any fun r => c r && decide (x / 2 ^ 32 = r.ctorIdx)), hc]
  split <;> simp

/-! A field's update changes nothing but the registers. -/

@[simp] theorem setF_now (f : Fld) (x : Nat) (i j : Nat) (s : State) : (run (setF f x i j) s).now = s.now := (rfl)
@[simp] theorem modF_now (f : Fld) (k : Nat → Nat) (i j : Nat) (s : State) : (run (modF f k i j) s).now = s.now := (rfl)
@[simp] theorem incF_now (f : Fld) (x : Nat) (i j : Nat) (s : State) : (run (incF f x i j) s).now = s.now := (rfl)
@[simp] theorem addF_now (f : Fld) (x : Nat) (i j : Nat) (s : State) : (run (addF f x i j) s).now = s.now := (rfl)
@[simp] theorem evt_now (f : Fld) (i j : Nat) (s : State) : (run (evt f i j) s).now = s.now := (rfl)
@[simp] theorem setF_free (f : Fld) (x : Nat) (i j : Nat) (s : State) : (run (setF f x i j) s).free = s.free := (rfl)
@[simp] theorem modF_free (f : Fld) (k : Nat → Nat) (i j : Nat) (s : State) : (run (modF f k i j) s).free = s.free := (rfl)
@[simp] theorem incF_free (f : Fld) (x : Nat) (i j : Nat) (s : State) : (run (incF f x i j) s).free = s.free := (rfl)
@[simp] theorem addF_free (f : Fld) (x : Nat) (i j : Nat) (s : State) : (run (addF f x i j) s).free = s.free := (rfl)
@[simp] theorem evt_free (f : Fld) (i j : Nat) (s : State) : (run (evt f i j) s).free = s.free := (rfl)
@[simp] theorem setF_out (f : Fld) (x : Nat) (i j : Nat) (s : State) : (run (setF f x i j) s).out = s.out := (rfl)
@[simp] theorem modF_out (f : Fld) (k : Nat → Nat) (i j : Nat) (s : State) : (run (modF f k i j) s).out = s.out := (rfl)
@[simp] theorem incF_out (f : Fld) (x : Nat) (i j : Nat) (s : State) : (run (incF f x i j) s).out = s.out := (rfl)
@[simp] theorem addF_out (f : Fld) (x : Nat) (i j : Nat) (s : State) : (run (addF f x i j) s).out = s.out := (rfl)
@[simp] theorem evt_out (f : Fld) (i j : Nat) (s : State) : (run (evt f i j) s).out = s.out := (rfl)
@[simp] theorem setF_mem (f : Fld) (x : Nat) (i j : Nat) (s : State) : (run (setF f x i j) s).mem = s.mem := (rfl)
@[simp] theorem modF_mem (f : Fld) (k : Nat → Nat) (i j : Nat) (s : State) : (run (modF f k i j) s).mem = s.mem := (rfl)
@[simp] theorem incF_mem (f : Fld) (x : Nat) (i j : Nat) (s : State) : (run (incF f x i j) s).mem = s.mem := (rfl)
@[simp] theorem addF_mem (f : Fld) (x : Nat) (i j : Nat) (s : State) : (run (addF f x i j) s).mem = s.mem := (rfl)
@[simp] theorem evt_mem (f : Fld) (i j : Nat) (s : State) : (run (evt f i j) s).mem = s.mem := (rfl)
@[simp] theorem setF_floor (f : Fld) (x : Nat) (i j : Nat) (s : State) : (run (setF f x i j) s).floor = s.floor := (rfl)
@[simp] theorem modF_floor (f : Fld) (k : Nat → Nat) (i j : Nat) (s : State) : (run (modF f k i j) s).floor = s.floor := (rfl)
@[simp] theorem incF_floor (f : Fld) (x : Nat) (i j : Nat) (s : State) : (run (incF f x i j) s).floor = s.floor := (rfl)
@[simp] theorem addF_floor (f : Fld) (x : Nat) (i j : Nat) (s : State) : (run (addF f x i j) s).floor = s.floor := (rfl)
@[simp] theorem evt_floor (f : Fld) (i j : Nat) (s : State) : (run (evt f i j) s).floor = s.floor := (rfl)
@[simp] theorem setF_life (f : Fld) (x : Nat) (i j : Nat) (s : State) : (run (setF f x i j) s).life = s.life := (rfl)
@[simp] theorem modF_life (f : Fld) (k : Nat → Nat) (i j : Nat) (s : State) : (run (modF f k i j) s).life = s.life := (rfl)
@[simp] theorem incF_life (f : Fld) (x : Nat) (i j : Nat) (s : State) : (run (incF f x i j) s).life = s.life := (rfl)
@[simp] theorem addF_life (f : Fld) (x : Nat) (i j : Nat) (s : State) : (run (addF f x i j) s).life = s.life := (rfl)
@[simp] theorem evt_life (f : Fld) (i j : Nat) (s : State) : (run (evt f i j) s).life = s.life := (rfl)
@[simp] theorem setF_flashLog (f : Fld) (x : Nat) (i j : Nat) (s : State) : (run (setF f x i j) s).flashLog = s.flashLog := (rfl)
@[simp] theorem modF_flashLog (f : Fld) (k : Nat → Nat) (i j : Nat) (s : State) : (run (modF f k i j) s).flashLog = s.flashLog := (rfl)
@[simp] theorem incF_flashLog (f : Fld) (x : Nat) (i j : Nat) (s : State) : (run (incF f x i j) s).flashLog = s.flashLog := (rfl)
@[simp] theorem addF_flashLog (f : Fld) (x : Nat) (i j : Nat) (s : State) : (run (addF f x i j) s).flashLog = s.flashLog := (rfl)
@[simp] theorem evt_flashLog (f : Fld) (i j : Nat) (s : State) : (run (evt f i j) s).flashLog = s.flashLog := (rfl)
@[simp] theorem setF_log (f : Fld) (x : Nat) (i j : Nat) (s : State) : (run (setF f x i j) s).log = s.log := (rfl)
@[simp] theorem modF_log (f : Fld) (k : Nat → Nat) (i j : Nat) (s : State) : (run (modF f k i j) s).log = s.log := (rfl)
@[simp] theorem incF_log (f : Fld) (x : Nat) (i j : Nat) (s : State) : (run (incF f x i j) s).log = s.log := (rfl)
@[simp] theorem addF_log (f : Fld) (x : Nat) (i j : Nat) (s : State) : (run (addF f x i j) s).log = s.log := (rfl)
@[simp] theorem evt_log (f : Fld) (i j : Nat) (s : State) : (run (evt f i j) s).log = s.log := (rfl)
@[simp] theorem setF_time (f : Fld) (x : Nat) (i j : Nat) (s : State) : (run (setF f x i j) s).time = s.time := (rfl)
@[simp] theorem modF_time (f : Fld) (k : Nat → Nat) (i j : Nat) (s : State) : (run (modF f k i j) s).time = s.time := (rfl)
@[simp] theorem incF_time (f : Fld) (x : Nat) (i j : Nat) (s : State) : (run (incF f x i j) s).time = s.time := (rfl)
@[simp] theorem addF_time (f : Fld) (x : Nat) (i j : Nat) (s : State) : (run (addF f x i j) s).time = s.time := (rfl)
@[simp] theorem evt_time (f : Fld) (i j : Nat) (s : State) : (run (evt f i j) s).time = s.time := (rfl)
@[simp] theorem setF_chart (f : Fld) (x : Nat) (i j : Nat) (s : State) : (run (setF f x i j) s).chart = s.chart := (rfl)
@[simp] theorem modF_chart (f : Fld) (k : Nat → Nat) (i j : Nat) (s : State) : (run (modF f k i j) s).chart = s.chart := (rfl)
@[simp] theorem incF_chart (f : Fld) (x : Nat) (i j : Nat) (s : State) : (run (incF f x i j) s).chart = s.chart := (rfl)
@[simp] theorem addF_chart (f : Fld) (x : Nat) (i j : Nat) (s : State) : (run (addF f x i j) s).chart = s.chart := (rfl)
@[simp] theorem evt_chart (f : Fld) (i j : Nat) (s : State) : (run (evt f i j) s).chart = s.chart := (rfl)
@[simp] theorem setF_tide (f : Fld) (x : Nat) (i j : Nat) (s : State) : (run (setF f x i j) s).tide = s.tide := (rfl)
@[simp] theorem modF_tide (f : Fld) (k : Nat → Nat) (i j : Nat) (s : State) : (run (modF f k i j) s).tide = s.tide := (rfl)
@[simp] theorem incF_tide (f : Fld) (x : Nat) (i j : Nat) (s : State) : (run (incF f x i j) s).tide = s.tide := (rfl)
@[simp] theorem addF_tide (f : Fld) (x : Nat) (i j : Nat) (s : State) : (run (addF f x i j) s).tide = s.tide := (rfl)
@[simp] theorem evt_tide (f : Fld) (i j : Nat) (s : State) : (run (evt f i j) s).tide = s.tide := (rfl)
@[simp] theorem setF_tiles (f : Fld) (x : Nat) (i j : Nat) (s : State) : (run (setF f x i j) s).tiles = s.tiles := (rfl)
@[simp] theorem modF_tiles (f : Fld) (k : Nat → Nat) (i j : Nat) (s : State) : (run (modF f k i j) s).tiles = s.tiles := (rfl)
@[simp] theorem incF_tiles (f : Fld) (x : Nat) (i j : Nat) (s : State) : (run (incF f x i j) s).tiles = s.tiles := (rfl)
@[simp] theorem addF_tiles (f : Fld) (x : Nat) (i j : Nat) (s : State) : (run (addF f x i j) s).tiles = s.tiles := (rfl)
@[simp] theorem evt_tiles (f : Fld) (i j : Nat) (s : State) : (run (evt f i j) s).tiles = s.tiles := (rfl)
@[simp] theorem setF_num (f : Fld) (x : Nat) (i j : Nat) (s : State) : (run (setF f x i j) s).num = s.num := (rfl)
@[simp] theorem modF_num (f : Fld) (k : Nat → Nat) (i j : Nat) (s : State) : (run (modF f k i j) s).num = s.num := (rfl)
@[simp] theorem incF_num (f : Fld) (x : Nat) (i j : Nat) (s : State) : (run (incF f x i j) s).num = s.num := (rfl)
@[simp] theorem addF_num (f : Fld) (x : Nat) (i j : Nat) (s : State) : (run (addF f x i j) s).num = s.num := (rfl)
@[simp] theorem evt_num (f : Fld) (i j : Nat) (s : State) : (run (evt f i j) s).num = s.num := (rfl)
@[simp] theorem setF_sec (f : Fld) (x : Nat) (i j : Nat) (s : State) : (run (setF f x i j) s).sec = s.sec := (rfl)
@[simp] theorem modF_sec (f : Fld) (k : Nat → Nat) (i j : Nat) (s : State) : (run (modF f k i j) s).sec = s.sec := (rfl)
@[simp] theorem incF_sec (f : Fld) (x : Nat) (i j : Nat) (s : State) : (run (incF f x i j) s).sec = s.sec := (rfl)
@[simp] theorem addF_sec (f : Fld) (x : Nat) (i j : Nat) (s : State) : (run (addF f x i j) s).sec = s.sec := (rfl)
@[simp] theorem evt_sec (f : Fld) (i j : Nat) (s : State) : (run (evt f i j) s).sec = s.sec := (rfl)
@[simp] theorem setF_tier (f : Fld) (x : Nat) (i j : Nat) (s : State) : (run (setF f x i j) s).tier = s.tier := (rfl)
@[simp] theorem modF_tier (f : Fld) (k : Nat → Nat) (i j : Nat) (s : State) : (run (modF f k i j) s).tier = s.tier := (rfl)
@[simp] theorem incF_tier (f : Fld) (x : Nat) (i j : Nat) (s : State) : (run (incF f x i j) s).tier = s.tier := (rfl)
@[simp] theorem addF_tier (f : Fld) (x : Nat) (i j : Nat) (s : State) : (run (addF f x i j) s).tier = s.tier := (rfl)
@[simp] theorem evt_tier (f : Fld) (i j : Nat) (s : State) : (run (evt f i j) s).tier = s.tier := (rfl)
@[simp] theorem setF_coh (f : Fld) (x : Nat) (i j : Nat) (s : State) : (run (setF f x i j) s).coh = s.coh := (rfl)
@[simp] theorem modF_coh (f : Fld) (k : Nat → Nat) (i j : Nat) (s : State) : (run (modF f k i j) s).coh = s.coh := (rfl)
@[simp] theorem incF_coh (f : Fld) (x : Nat) (i j : Nat) (s : State) : (run (incF f x i j) s).coh = s.coh := (rfl)
@[simp] theorem addF_coh (f : Fld) (x : Nat) (i j : Nat) (s : State) : (run (addF f x i j) s).coh = s.coh := (rfl)
@[simp] theorem evt_coh (f : Fld) (i j : Nat) (s : State) : (run (evt f i j) s).coh = s.coh := (rfl)
@[simp] theorem setF_hural (f : Fld) (x : Nat) (i j : Nat) (s : State) : (run (setF f x i j) s).hural = s.hural := (rfl)
@[simp] theorem modF_hural (f : Fld) (k : Nat → Nat) (i j : Nat) (s : State) : (run (modF f k i j) s).hural = s.hural := (rfl)
@[simp] theorem incF_hural (f : Fld) (x : Nat) (i j : Nat) (s : State) : (run (incF f x i j) s).hural = s.hural := (rfl)
@[simp] theorem addF_hural (f : Fld) (x : Nat) (i j : Nat) (s : State) : (run (addF f x i j) s).hural = s.hural := (rfl)
@[simp] theorem evt_hural (f : Fld) (i j : Nat) (s : State) : (run (evt f i j) s).hural = s.hural := (rfl)
@[simp] theorem setF_upd (f : Fld) (x : Nat) (i j : Nat) (s : State) : (run (setF f x i j) s).upd = s.upd := (rfl)
@[simp] theorem modF_upd (f : Fld) (k : Nat → Nat) (i j : Nat) (s : State) : (run (modF f k i j) s).upd = s.upd := (rfl)
@[simp] theorem incF_upd (f : Fld) (x : Nat) (i j : Nat) (s : State) : (run (incF f x i j) s).upd = s.upd := (rfl)
@[simp] theorem addF_upd (f : Fld) (x : Nat) (i j : Nat) (s : State) : (run (addF f x i j) s).upd = s.upd := (rfl)
@[simp] theorem evt_upd (f : Fld) (i j : Nat) (s : State) : (run (evt f i j) s).upd = s.upd := (rfl)
@[simp] theorem setF_cus (f : Fld) (x : Nat) (i j : Nat) (s : State) : (run (setF f x i j) s).cus = s.cus := (rfl)
@[simp] theorem modF_cus (f : Fld) (k : Nat → Nat) (i j : Nat) (s : State) : (run (modF f k i j) s).cus = s.cus := (rfl)
@[simp] theorem incF_cus (f : Fld) (x : Nat) (i j : Nat) (s : State) : (run (incF f x i j) s).cus = s.cus := (rfl)
@[simp] theorem addF_cus (f : Fld) (x : Nat) (i j : Nat) (s : State) : (run (addF f x i j) s).cus = s.cus := (rfl)
@[simp] theorem evt_cus (f : Fld) (i j : Nat) (s : State) : (run (evt f i j) s).cus = s.cus := (rfl)
@[simp] theorem setF_bell (f : Fld) (x : Nat) (i j : Nat) (s : State) : (run (setF f x i j) s).bell = s.bell := (rfl)
@[simp] theorem modF_bell (f : Fld) (k : Nat → Nat) (i j : Nat) (s : State) : (run (modF f k i j) s).bell = s.bell := (rfl)
@[simp] theorem incF_bell (f : Fld) (x : Nat) (i j : Nat) (s : State) : (run (incF f x i j) s).bell = s.bell := (rfl)
@[simp] theorem addF_bell (f : Fld) (x : Nat) (i j : Nat) (s : State) : (run (addF f x i j) s).bell = s.bell := (rfl)
@[simp] theorem evt_bell (f : Fld) (i j : Nat) (s : State) : (run (evt f i j) s).bell = s.bell := (rfl)
@[simp] theorem setF_link (f : Fld) (x : Nat) (i j : Nat) (s : State) : (run (setF f x i j) s).link = s.link := (rfl)
@[simp] theorem modF_link (f : Fld) (k : Nat → Nat) (i j : Nat) (s : State) : (run (modF f k i j) s).link = s.link := (rfl)
@[simp] theorem incF_link (f : Fld) (x : Nat) (i j : Nat) (s : State) : (run (incF f x i j) s).link = s.link := (rfl)
@[simp] theorem addF_link (f : Fld) (x : Nat) (i j : Nat) (s : State) : (run (addF f x i j) s).link = s.link := (rfl)
@[simp] theorem evt_link (f : Fld) (i j : Nat) (s : State) : (run (evt f i j) s).link = s.link := (rfl)
@[simp] theorem setF_en (f : Fld) (x : Nat) (i j : Nat) (s : State) : (run (setF f x i j) s).en = s.en := (rfl)
@[simp] theorem modF_en (f : Fld) (k : Nat → Nat) (i j : Nat) (s : State) : (run (modF f k i j) s).en = s.en := (rfl)
@[simp] theorem incF_en (f : Fld) (x : Nat) (i j : Nat) (s : State) : (run (incF f x i j) s).en = s.en := (rfl)
@[simp] theorem addF_en (f : Fld) (x : Nat) (i j : Nat) (s : State) : (run (addF f x i j) s).en = s.en := (rfl)
@[simp] theorem evt_en (f : Fld) (i j : Nat) (s : State) : (run (evt f i j) s).en = s.en := (rfl)
@[simp] theorem setF_shd (f : Fld) (x : Nat) (i j : Nat) (s : State) : (run (setF f x i j) s).shd = s.shd := (rfl)
@[simp] theorem modF_shd (f : Fld) (k : Nat → Nat) (i j : Nat) (s : State) : (run (modF f k i j) s).shd = s.shd := (rfl)
@[simp] theorem incF_shd (f : Fld) (x : Nat) (i j : Nat) (s : State) : (run (incF f x i j) s).shd = s.shd := (rfl)
@[simp] theorem addF_shd (f : Fld) (x : Nat) (i j : Nat) (s : State) : (run (addF f x i j) s).shd = s.shd := (rfl)
@[simp] theorem evt_shd (f : Fld) (i j : Nat) (s : State) : (run (evt f i j) s).shd = s.shd := (rfl)
@[simp] theorem setF_hm (f : Fld) (x : Nat) (i j : Nat) (s : State) : (run (setF f x i j) s).hm = s.hm := (rfl)
@[simp] theorem modF_hm (f : Fld) (k : Nat → Nat) (i j : Nat) (s : State) : (run (modF f k i j) s).hm = s.hm := (rfl)
@[simp] theorem incF_hm (f : Fld) (x : Nat) (i j : Nat) (s : State) : (run (incF f x i j) s).hm = s.hm := (rfl)
@[simp] theorem addF_hm (f : Fld) (x : Nat) (i j : Nat) (s : State) : (run (addF f x i j) s).hm = s.hm := (rfl)
@[simp] theorem evt_hm (f : Fld) (i j : Nat) (s : State) : (run (evt f i j) s).hm = s.hm := (rfl)
@[simp] theorem setF_rst (f : Fld) (x : Nat) (i j : Nat) (s : State) : (run (setF f x i j) s).rst = s.rst := (rfl)
@[simp] theorem modF_rst (f : Fld) (k : Nat → Nat) (i j : Nat) (s : State) : (run (modF f k i j) s).rst = s.rst := (rfl)
@[simp] theorem incF_rst (f : Fld) (x : Nat) (i j : Nat) (s : State) : (run (incF f x i j) s).rst = s.rst := (rfl)
@[simp] theorem addF_rst (f : Fld) (x : Nat) (i j : Nat) (s : State) : (run (addF f x i j) s).rst = s.rst := (rfl)
@[simp] theorem evt_rst (f : Fld) (i j : Nat) (s : State) : (run (evt f i j) s).rst = s.rst := (rfl)
@[simp] theorem setF_pow (f : Fld) (x : Nat) (i j : Nat) (s : State) : (run (setF f x i j) s).pow = s.pow := (rfl)
@[simp] theorem modF_pow (f : Fld) (k : Nat → Nat) (i j : Nat) (s : State) : (run (modF f k i j) s).pow = s.pow := (rfl)
@[simp] theorem incF_pow (f : Fld) (x : Nat) (i j : Nat) (s : State) : (run (incF f x i j) s).pow = s.pow := (rfl)
@[simp] theorem addF_pow (f : Fld) (x : Nat) (i j : Nat) (s : State) : (run (addF f x i j) s).pow = s.pow := (rfl)
@[simp] theorem evt_pow (f : Fld) (i j : Nat) (s : State) : (run (evt f i j) s).pow = s.pow := (rfl)

theorem getF_of_getReg {s t : State} {f : Fld} {i j : Nat} (h : getReg t f.reg i j = getReg s f.reg i j) : getF t f i j = getF s f i j := by
  simp only [getF, h]

end Sys2Proof.Machine
end

