-- ==== Sys2Proof/Laws/Log.lean ====
section
/-! SUPPORT. The logbook: an event changes the logbook alone, and its code's tally counts it. -/

namespace Sys2Proof.Machine

@[simp] theorem logEv_now (k : LogKind) (d o : Nat) (dt : List Nat) (s : State) : (run (logEv k d o dt) s).now = s.now := by rw [logEv, run_ask, run_prim, Prim.log_now]
@[simp] theorem logEv_free (k : LogKind) (d o : Nat) (dt : List Nat) (s : State) : (run (logEv k d o dt) s).free = s.free := by rw [logEv, run_ask, run_prim, Prim.log_free]
@[simp] theorem logEv_out (k : LogKind) (d o : Nat) (dt : List Nat) (s : State) : (run (logEv k d o dt) s).out = s.out := by rw [logEv, run_ask, run_prim, Prim.log_out]
@[simp] theorem logEv_regs (k : LogKind) (d o : Nat) (dt : List Nat) (s : State) : (run (logEv k d o dt) s).regs = s.regs := by rw [logEv, run_ask, run_prim, Prim.log_regs]
@[simp] theorem logEv_mem (k : LogKind) (d o : Nat) (dt : List Nat) (s : State) : (run (logEv k d o dt) s).mem = s.mem := by rw [logEv, run_ask, run_prim, Prim.log_mem]
@[simp] theorem logEv_floor (k : LogKind) (d o : Nat) (dt : List Nat) (s : State) : (run (logEv k d o dt) s).floor = s.floor := by rw [logEv, run_ask, run_prim, Prim.log_floor]
@[simp] theorem logEv_life (k : LogKind) (d o : Nat) (dt : List Nat) (s : State) : (run (logEv k d o dt) s).life = s.life := by rw [logEv, run_ask, run_prim, Prim.log_life]
@[simp] theorem logEv_flashLog (k : LogKind) (d o : Nat) (dt : List Nat) (s : State) : (run (logEv k d o dt) s).flashLog = s.flashLog := by rw [logEv, run_ask, run_prim, Prim.log_flashLog]
@[simp] theorem logEv_time (k : LogKind) (d o : Nat) (dt : List Nat) (s : State) : (run (logEv k d o dt) s).time = s.time := by rw [logEv, run_ask, run_prim, Prim.log_time]
@[simp] theorem logEv_chart (k : LogKind) (d o : Nat) (dt : List Nat) (s : State) : (run (logEv k d o dt) s).chart = s.chart := by rw [logEv, run_ask, run_prim, Prim.log_chart]
@[simp] theorem logEv_tide (k : LogKind) (d o : Nat) (dt : List Nat) (s : State) : (run (logEv k d o dt) s).tide = s.tide := by rw [logEv, run_ask, run_prim, Prim.log_tide]
@[simp] theorem logEv_tiles (k : LogKind) (d o : Nat) (dt : List Nat) (s : State) : (run (logEv k d o dt) s).tiles = s.tiles := by rw [logEv, run_ask, run_prim, Prim.log_tiles]
@[simp] theorem logEv_num (k : LogKind) (d o : Nat) (dt : List Nat) (s : State) : (run (logEv k d o dt) s).num = s.num := by rw [logEv, run_ask, run_prim, Prim.log_num]
@[simp] theorem logEv_sec (k : LogKind) (d o : Nat) (dt : List Nat) (s : State) : (run (logEv k d o dt) s).sec = s.sec := by rw [logEv, run_ask, run_prim, Prim.log_sec]
@[simp] theorem logEv_tier (k : LogKind) (d o : Nat) (dt : List Nat) (s : State) : (run (logEv k d o dt) s).tier = s.tier := by rw [logEv, run_ask, run_prim, Prim.log_tier]
@[simp] theorem logEv_coh (k : LogKind) (d o : Nat) (dt : List Nat) (s : State) : (run (logEv k d o dt) s).coh = s.coh := by rw [logEv, run_ask, run_prim, Prim.log_coh]
@[simp] theorem logEv_hural (k : LogKind) (d o : Nat) (dt : List Nat) (s : State) : (run (logEv k d o dt) s).hural = s.hural := by rw [logEv, run_ask, run_prim, Prim.log_hural]
@[simp] theorem logEv_upd (k : LogKind) (d o : Nat) (dt : List Nat) (s : State) : (run (logEv k d o dt) s).upd = s.upd := by rw [logEv, run_ask, run_prim, Prim.log_upd]
@[simp] theorem logEv_cus (k : LogKind) (d o : Nat) (dt : List Nat) (s : State) : (run (logEv k d o dt) s).cus = s.cus := by rw [logEv, run_ask, run_prim, Prim.log_cus]
@[simp] theorem logEv_bell (k : LogKind) (d o : Nat) (dt : List Nat) (s : State) : (run (logEv k d o dt) s).bell = s.bell := by rw [logEv, run_ask, run_prim, Prim.log_bell]
@[simp] theorem logEv_link (k : LogKind) (d o : Nat) (dt : List Nat) (s : State) : (run (logEv k d o dt) s).link = s.link := by rw [logEv, run_ask, run_prim, Prim.log_link]
@[simp] theorem logEv_en (k : LogKind) (d o : Nat) (dt : List Nat) (s : State) : (run (logEv k d o dt) s).en = s.en := by rw [logEv, run_ask, run_prim, Prim.log_en]
@[simp] theorem logEv_shd (k : LogKind) (d o : Nat) (dt : List Nat) (s : State) : (run (logEv k d o dt) s).shd = s.shd := by rw [logEv, run_ask, run_prim, Prim.log_shd]
@[simp] theorem logEv_hm (k : LogKind) (d o : Nat) (dt : List Nat) (s : State) : (run (logEv k d o dt) s).hm = s.hm := by rw [logEv, run_ask, run_prim, Prim.log_hm]
@[simp] theorem logEv_rst (k : LogKind) (d o : Nat) (dt : List Nat) (s : State) : (run (logEv k d o dt) s).rst = s.rst := by rw [logEv, run_ask, run_prim, Prim.log_rst]
@[simp] theorem logEv_pow (k : LogKind) (d o : Nat) (dt : List Nat) (s : State) : (run (logEv k d o dt) s).pow = s.pow := by rw [logEv, run_ask, run_prim, Prim.log_pow]
@[simp] theorem logEv_getReg (k : LogKind) (d o : Nat) (dt : List Nat) (q : RegName) (m n : Nat) (s : State) : getReg (run (logEv k d o dt) s) q m n = getReg s q m n := by
  simp only [getReg, logEv_regs]
@[simp] theorem logEv_getF (k : LogKind) (d o : Nat) (dt : List Nat) (x : Fld) (m n : Nat) (s : State) : getF (run (logEv k d o dt) s) x m n = getF s x m n := by
  simp only [getF, logEv_getReg]
@[simp] theorem logEv_getB (k : LogKind) (d o : Nat) (dt : List Nat) (x : Fld) (m n : Nat) (s : State) : getB (run (logEv k d o dt) s) x m n = getB s x m n := by
  simp only [getB, logEv_getF]
@[simp] theorem logEv_theChart (k : LogKind) (d o : Nat) (dt : List Nat) (s : State) : theChart (run (logEv k d o dt) s) = theChart s := by simp only [theChart, logEv_chart]

open Safety (tally)

theorem LogKind.ctorIdx_injective {k q : LogKind} (h : k.ctorIdx = q.ctorIdx) : k = q := by
  rw [← LogKind.ofNat_ctorIdx k, h, LogKind.ofNat_ctorIdx]

theorem tallied_get (l : LogSt) (k q : LogKind) (n : Nat) :
    Cells.get 0 (l.tallied k n).tallies q.ctorIdx = if q = k then satAdd 48 (Cells.get 0 l.tallies k.ctorIdx) n else Cells.get 0 l.tallies q.ctorIdx := by
  simp only [LogSt.tallied, Cells.get_put]
  by_cases h : q = k
  · simp [h]
  · rw [if_neg h, if_neg fun e => h (LogKind.ctorIdx_injective e)]

theorem fullCheck_tallies (s : State) (l : LogSt) (q : LogKind) (h : q ≠ .logFull) :
    Cells.get 0 (LogSt.fullCheck s l).tallies q.ctorIdx = Cells.get 0 l.tallies q.ctorIdx := by
  unfold LogSt.fullCheck
  split
  · exact (tallied_get _ _ _ _).trans (if_neg h)
  · rfl

theorem lose_tallies (l : LogSt) : l.lose.tallies = l.tallies := by unfold LogSt.lose; split <;> rfl

/-- An event counts in the tally of its own kind, and in no other but the full logbook's. -/
@[simp] theorem logEv_tally (k q : LogKind) (d o : Nat) (dt : List Nat) (s : State) (h : q ≠ .logFull) :
    tally (run (logEv k d o dt) s) q = if q = k then satAdd 48 (tally s k) 1 else tally s q := by
  simp only [tally, logEv, run_ask, run_prim, Prim.log_log, logOccur]
  split
  · split
    · rw [fullCheck_tallies _ _ _ h]; exact tallied_get ..
    · rw [lose_tallies]; exact tallied_get ..
  · split
    · exact tallied_get ..
    · split
      · rw [fullCheck_tallies _ _ _ h]; exact tallied_get ..
      · rw [lose_tallies]; exact tallied_get ..

@[simp] theorem setF_tally (f : Fld) (x : Nat) (i j : Nat) (q : LogKind) (s : State) : tally (run (setF f x i j) s) q = tally s q := (rfl)
@[simp] theorem modF_tally (f : Fld) (k : Nat → Nat) (i j : Nat) (q : LogKind) (s : State) : tally (run (modF f k i j) s) q = tally s q := (rfl)
@[simp] theorem incF_tally (f : Fld) (x : Nat) (i j : Nat) (q : LogKind) (s : State) : tally (run (incF f x i j) s) q = tally s q := (rfl)
@[simp] theorem addF_tally (f : Fld) (x : Nat) (i j : Nat) (q : LogKind) (s : State) : tally (run (addF f x i j) s) q = tally s q := (rfl)
@[simp] theorem evt_tally (f : Fld) (i j : Nat) (q : LogKind) (s : State) : tally (run (evt f  i j) s) q = tally s q := (rfl)
@[simp] theorem Prim.reg_tally (r : RegName) (i j : Nat) (v : W64) (q : LogKind) (s : State) : tally (Prim.apply (.reg r i j v) s) q = tally s q := (rfl)
@[simp] theorem Prim.regsReset_tally (c : RegName → Bool) (q : LogKind) (s : State) : tally (Prim.apply (.regsReset c) s) q = tally s q := (rfl)
@[simp] theorem Prim.mem_tally (a : Nat) (b : Byte) (q : LogKind) (s : State) : tally (Prim.apply (.mem a b) s) q = tally s q := (rfl)
@[simp] theorem Prim.clear_tally (a n : Nat) (q : LogKind) (s : State) : tally (Prim.apply (.clear a n) s) q = tally s q := (rfl)
@[simp] theorem Prim.floor_tally (v : W64) (q : LogKind) (s : State) : tally (Prim.apply (.floor v) s) q = tally s q := (rfl)
@[simp] theorem Prim.life_tally (l : Life) (q : LogKind) (s : State) : tally (Prim.apply (.life l) s) q = tally s q := (rfl)
@[simp] theorem Prim.flashLog_tally (l : List LogRec) (q : LogKind) (s : State) : tally (Prim.apply (.flashLog l) s) q = tally s q := (rfl)
@[simp] theorem Prim.send_tally (o : Out) (q : LogKind) (s : State) : tally (Prim.apply (.send o) s) q = tally s q := (rfl)
@[simp] theorem Prim.fresh_tally (q : LogKind) (s : State) : tally (Prim.apply (.fresh) s) q = tally s q := (rfl)
@[simp] theorem Prim.time_tally (n : Nat) (q : LogKind) (s : State) : tally (Prim.apply (.time n) s) q = tally s q := (rfl)
@[simp] theorem Prim.calendar_tally (f : TimeSt → TimeSt) (q : LogKind) (s : State) : tally (Prim.apply (.calendar f) s) q = tally s q := (rfl)
@[simp] theorem Prim.chart_tally (f : ChartSt → ChartSt) (q : LogKind) (s : State) : tally (Prim.apply (.chart f) s) q = tally s q := (rfl)
@[simp] theorem Prim.tide_tally (f : TideSt → TideSt) (q : LogKind) (s : State) : tally (Prim.apply (.tide f) s) q = tally s q := (rfl)
@[simp] theorem Prim.tiles_tally (f : FMap Tile → FMap Tile) (q : LogKind) (s : State) : tally (Prim.apply (.tiles f) s) q = tally s q := (rfl)
@[simp] theorem Prim.num_tally (f : NumSt → NumSt) (q : LogKind) (s : State) : tally (Prim.apply (.num f) s) q = tally s q := (rfl)
@[simp] theorem Prim.sec_tally (f : SecSt → SecSt) (q : LogKind) (s : State) : tally (Prim.apply (.sec f) s) q = tally s q := (rfl)
@[simp] theorem Prim.tier_tally (f : TierSt → TierSt) (q : LogKind) (s : State) : tally (Prim.apply (.tier f) s) q = tally s q := (rfl)
@[simp] theorem Prim.coh_tally (f : CohSt → CohSt) (q : LogKind) (s : State) : tally (Prim.apply (.coh f) s) q = tally s q := (rfl)
@[simp] theorem Prim.hural_tally (f : HuralSt → HuralSt) (q : LogKind) (s : State) : tally (Prim.apply (.hural f) s) q = tally s q := (rfl)
@[simp] theorem Prim.upd_tally (f : UpdSt → UpdSt) (q : LogKind) (s : State) : tally (Prim.apply (.upd f) s) q = tally s q := (rfl)
@[simp] theorem Prim.cus_tally (f : CusSt → CusSt) (q : LogKind) (s : State) : tally (Prim.apply (.cus f) s) q = tally s q := (rfl)
@[simp] theorem Prim.bell_tally (f : FMap BellQ → FMap BellQ) (q : LogKind) (s : State) : tally (Prim.apply (.bell f) s) q = tally s q := (rfl)
@[simp] theorem Prim.link_tally (f : LinkSt → LinkSt) (q : LogKind) (s : State) : tally (Prim.apply (.link f) s) q = tally s q := (rfl)
@[simp] theorem Prim.en_tally (f : EnSt → EnSt) (q : LogKind) (s : State) : tally (Prim.apply (.en f) s) q = tally s q := (rfl)
@[simp] theorem Prim.shd_tally (f : ShdSt → ShdSt) (q : LogKind) (s : State) : tally (Prim.apply (.shd f) s) q = tally s q := (rfl)
@[simp] theorem Prim.hm_tally (f : HmSt → HmSt) (q : LogKind) (s : State) : tally (Prim.apply (.hm f) s) q = tally s q := (rfl)
@[simp] theorem Prim.rst_tally (f : RstSt → RstSt) (q : LogKind) (s : State) : tally (Prim.apply (.rst f) s) q = tally s q := (rfl)
@[simp] theorem Prim.pow_tally (f : PowSt → PowSt) (q : LogKind) (s : State) : tally (Prim.apply (.pow f) s) q = tally s q := (rfl)

end Sys2Proof.Machine
end

