-- ==== Sys2Proof/Laws/Ops.lean ====
section
/-! SUPPORT. What the shared operations over memory, tiles and traces can change: each is shown once to use only updates of certain parts of the state, and leaves every other part alone. -/

namespace Sys2Proof.Machine

/-- The parts of the state, one for each field that a command can change. -/
inductive Part where
  | clock
  | free
  | out
  | regs
  | mem
  | floor
  | life
  | flashLog
  | log
  | calendar
  | chart
  | tide
  | tiles
  | num
  | sec
  | tier
  | coh
  | hural
  | upd
  | cus
  | bell
  | link
  | en
  | shd
  | hm
  | rst
  | pow
deriving DecidableEq

/-- The part a primitive update changes. -/
def Prim.part : Prim → Part
  | .reg _ _ _ _ => .regs
  | .regsReset _ => .regs
  | .mem _ _ => .mem
  | .clear _ _ => .mem
  | .floor _ => .floor
  | .life _ => .life
  | .flashLog _ => .flashLog
  | .send _ => .out
  | .fresh => .free
  | .time _ => .clock
  | .log _ => .log
  | .calendar _ => .calendar
  | .chart _ => .chart
  | .tide _ => .tide
  | .tiles _ => .tiles
  | .num _ => .num
  | .sec _ => .sec
  | .tier _ => .tier
  | .coh _ => .coh
  | .hural _ => .hural
  | .upd _ => .upd
  | .cus _ => .cus
  | .bell _ => .bell
  | .link _ => .link
  | .en _ => .en
  | .shd _ => .shd
  | .hm _ => .hm
  | .rst _ => .rst
  | .pow _ => .pow

/-- A program changes only the listed parts. -/
abbrev Act.Only (l : List Part) (a : Act) : Prop := a.Within fun p => p.part ∈ l

theorem Act.Only.mono {l k : List Part} {a : Act} (h : a.Only l) (hk : ∀ p ∈ l, p ∈ k) : a.Only k := Act.Within.mono (fun _ hp => hk _ hp) h

theorem only_now {l : List Part} {a : Act} (h : a.Only l) (hl : Part.clock ∉ l) (s : State) : (run a s).now = s.now :=
  run_same (fun s => s.now) (Act.Within.mono (fun p hp s => by cases p <;> first | rfl | exact absurd hp hl) h) s
theorem only_free {l : List Part} {a : Act} (h : a.Only l) (hl : Part.free ∉ l) (s : State) : (run a s).free = s.free :=
  run_same (fun s => s.free) (Act.Within.mono (fun p hp s => by cases p <;> first | rfl | exact absurd hp hl) h) s
theorem only_out {l : List Part} {a : Act} (h : a.Only l) (hl : Part.out ∉ l) (s : State) : (run a s).out = s.out :=
  run_same (fun s => s.out) (Act.Within.mono (fun p hp s => by cases p <;> first | rfl | exact absurd hp hl) h) s
theorem only_regs {l : List Part} {a : Act} (h : a.Only l) (hl : Part.regs ∉ l) (s : State) : (run a s).regs = s.regs :=
  run_same (fun s => s.regs) (Act.Within.mono (fun p hp s => by cases p <;> first | rfl | exact absurd hp hl) h) s
theorem only_mem {l : List Part} {a : Act} (h : a.Only l) (hl : Part.mem ∉ l) (s : State) : (run a s).mem = s.mem :=
  run_same (fun s => s.mem) (Act.Within.mono (fun p hp s => by cases p <;> first | rfl | exact absurd hp hl) h) s
theorem only_floor {l : List Part} {a : Act} (h : a.Only l) (hl : Part.floor ∉ l) (s : State) : (run a s).floor = s.floor :=
  run_same (fun s => s.floor) (Act.Within.mono (fun p hp s => by cases p <;> first | rfl | exact absurd hp hl) h) s
theorem only_life {l : List Part} {a : Act} (h : a.Only l) (hl : Part.life ∉ l) (s : State) : (run a s).life = s.life :=
  run_same (fun s => s.life) (Act.Within.mono (fun p hp s => by cases p <;> first | rfl | exact absurd hp hl) h) s
theorem only_flashLog {l : List Part} {a : Act} (h : a.Only l) (hl : Part.flashLog ∉ l) (s : State) : (run a s).flashLog = s.flashLog :=
  run_same (fun s => s.flashLog) (Act.Within.mono (fun p hp s => by cases p <;> first | rfl | exact absurd hp hl) h) s
theorem only_log {l : List Part} {a : Act} (h : a.Only l) (hl : Part.log ∉ l) (s : State) : (run a s).log = s.log :=
  run_same (fun s => s.log) (Act.Within.mono (fun p hp s => by cases p <;> first | rfl | exact absurd hp hl) h) s
theorem only_time {l : List Part} {a : Act} (h : a.Only l) (hl : Part.calendar ∉ l) (s : State) : (run a s).time = s.time :=
  run_same (fun s => s.time) (Act.Within.mono (fun p hp s => by cases p <;> first | rfl | exact absurd hp hl) h) s
theorem only_chart {l : List Part} {a : Act} (h : a.Only l) (hl : Part.chart ∉ l) (s : State) : (run a s).chart = s.chart :=
  run_same (fun s => s.chart) (Act.Within.mono (fun p hp s => by cases p <;> first | rfl | exact absurd hp hl) h) s
theorem only_tide {l : List Part} {a : Act} (h : a.Only l) (hl : Part.tide ∉ l) (s : State) : (run a s).tide = s.tide :=
  run_same (fun s => s.tide) (Act.Within.mono (fun p hp s => by cases p <;> first | rfl | exact absurd hp hl) h) s
theorem only_tiles {l : List Part} {a : Act} (h : a.Only l) (hl : Part.tiles ∉ l) (s : State) : (run a s).tiles = s.tiles :=
  run_same (fun s => s.tiles) (Act.Within.mono (fun p hp s => by cases p <;> first | rfl | exact absurd hp hl) h) s
theorem only_num {l : List Part} {a : Act} (h : a.Only l) (hl : Part.num ∉ l) (s : State) : (run a s).num = s.num :=
  run_same (fun s => s.num) (Act.Within.mono (fun p hp s => by cases p <;> first | rfl | exact absurd hp hl) h) s
theorem only_sec {l : List Part} {a : Act} (h : a.Only l) (hl : Part.sec ∉ l) (s : State) : (run a s).sec = s.sec :=
  run_same (fun s => s.sec) (Act.Within.mono (fun p hp s => by cases p <;> first | rfl | exact absurd hp hl) h) s
theorem only_tier {l : List Part} {a : Act} (h : a.Only l) (hl : Part.tier ∉ l) (s : State) : (run a s).tier = s.tier :=
  run_same (fun s => s.tier) (Act.Within.mono (fun p hp s => by cases p <;> first | rfl | exact absurd hp hl) h) s
theorem only_coh {l : List Part} {a : Act} (h : a.Only l) (hl : Part.coh ∉ l) (s : State) : (run a s).coh = s.coh :=
  run_same (fun s => s.coh) (Act.Within.mono (fun p hp s => by cases p <;> first | rfl | exact absurd hp hl) h) s
theorem only_hural {l : List Part} {a : Act} (h : a.Only l) (hl : Part.hural ∉ l) (s : State) : (run a s).hural = s.hural :=
  run_same (fun s => s.hural) (Act.Within.mono (fun p hp s => by cases p <;> first | rfl | exact absurd hp hl) h) s
theorem only_upd {l : List Part} {a : Act} (h : a.Only l) (hl : Part.upd ∉ l) (s : State) : (run a s).upd = s.upd :=
  run_same (fun s => s.upd) (Act.Within.mono (fun p hp s => by cases p <;> first | rfl | exact absurd hp hl) h) s
theorem only_cus {l : List Part} {a : Act} (h : a.Only l) (hl : Part.cus ∉ l) (s : State) : (run a s).cus = s.cus :=
  run_same (fun s => s.cus) (Act.Within.mono (fun p hp s => by cases p <;> first | rfl | exact absurd hp hl) h) s
theorem only_bell {l : List Part} {a : Act} (h : a.Only l) (hl : Part.bell ∉ l) (s : State) : (run a s).bell = s.bell :=
  run_same (fun s => s.bell) (Act.Within.mono (fun p hp s => by cases p <;> first | rfl | exact absurd hp hl) h) s
theorem only_link {l : List Part} {a : Act} (h : a.Only l) (hl : Part.link ∉ l) (s : State) : (run a s).link = s.link :=
  run_same (fun s => s.link) (Act.Within.mono (fun p hp s => by cases p <;> first | rfl | exact absurd hp hl) h) s
theorem only_en {l : List Part} {a : Act} (h : a.Only l) (hl : Part.en ∉ l) (s : State) : (run a s).en = s.en :=
  run_same (fun s => s.en) (Act.Within.mono (fun p hp s => by cases p <;> first | rfl | exact absurd hp hl) h) s
theorem only_shd {l : List Part} {a : Act} (h : a.Only l) (hl : Part.shd ∉ l) (s : State) : (run a s).shd = s.shd :=
  run_same (fun s => s.shd) (Act.Within.mono (fun p hp s => by cases p <;> first | rfl | exact absurd hp hl) h) s
theorem only_hm {l : List Part} {a : Act} (h : a.Only l) (hl : Part.hm ∉ l) (s : State) : (run a s).hm = s.hm :=
  run_same (fun s => s.hm) (Act.Within.mono (fun p hp s => by cases p <;> first | rfl | exact absurd hp hl) h) s
theorem only_rst {l : List Part} {a : Act} (h : a.Only l) (hl : Part.rst ∉ l) (s : State) : (run a s).rst = s.rst :=
  run_same (fun s => s.rst) (Act.Within.mono (fun p hp s => by cases p <;> first | rfl | exact absurd hp hl) h) s
theorem only_pow {l : List Part} {a : Act} (h : a.Only l) (hl : Part.pow ∉ l) (s : State) : (run a s).pow = s.pow :=
  run_same (fun s => s.pow) (Act.Within.mono (fun p hp s => by cases p <;> first | rfl | exact absurd hp hl) h) s

/-! Memory. -/

theorem only_writeMem (a : Nat) (bs : List Byte) : (writeMem a bs).Only [.mem] := by
  induction bs generalizing a with
  | nil => trivial
  | cons b bs ih => exact ⟨by simp [Act.Within, Prim.part], ih _⟩

theorem only_dropCopies (line : Nat) (keep : Bool) : (dropCopies line keep).Only [.regs, .mem, .coh] := by
  intro s
  dsimp only
  split
  · trivial
  · refine ⟨(within_when _ _).mpr fun _ => by simp [addF, modF, Act.Within, Prim.part], ?_, by simp [Act.Within, Prim.part], trivial⟩
    split
    · simp only [within_when]
      intro _
      exact (only_writeMem _ _).mono (by simp)
    · trivial

theorem only_storeMem (w : Writer) (a : Nat) (bs : List Byte) : (storeMem w a bs).Only [.regs, .mem, .coh, .tier] := by
  refine ⟨(within_each _ _).mpr fun p _ => ?_, by simp [clearBlocks, Prim.part], trivial⟩
  exact ⟨(only_dropCopies _ _).mono (by simp), (only_writeMem _ _).mono (by simp), by simp [stampLine, Prim.part], trivial⟩

theorem only_pkgWrite (a : Nat) (bs : List Byte) : (pkgWrite a bs).Only [.regs, .mem, .coh, .tier] := only_storeMem _ _ _

theorem only_trace (u e o i : Nat) : (trace u e o i).Only [.regs, .mem, .coh, .tier, .sec] := by
  intro s
  dsimp only
  split
  · exact ⟨(only_pkgWrite _ _).mono (by simp), by simp [Prim.part], trivial⟩
  · trivial

/-! What reaches a home may meet a hold of R264, which COH_HOLDSNP counts; it changes no other register. -/

/-- A program leaves every register but COH_HOLDSNP alone. -/
abbrev Act.KeepsReg (q : RegName) (m n : Nat) (a : Act) : Prop := a.Within fun p => ∀ s, getReg (p.apply s) q m n = getReg s q m n

theorem keeps_of_only {l : List Part} {a : Act} (h : a.Only l) (hl : Part.regs ∉ l) (q : RegName) (m n : Nat) : a.KeepsReg q m n :=
  Act.Within.mono (fun p hp s => by cases p <;> first | rfl | exact absurd hp hl) h

theorem keeps_dropCopies (line : Nat) (keep : Bool) {q : RegName} (h : RegName.COH_HOLDSNP ≠ q) (m n : Nat) : (dropCopies line keep).KeepsReg q m n := by
  intro s
  dsimp only
  split
  · trivial
  · refine ⟨(within_when _ _).mpr fun _ => ?_, ?_, fun _ => rfl, trivial⟩
    · intro s t
      exact getReg_apply_reg_name _ _ _ _ _ _ h
    · split
      · exact (within_when _ _).mpr fun _ => keeps_of_only (only_writeMem _ _) (by decide) q m n
      · trivial

theorem keeps_storeMem (w : Writer) (a : Nat) (bs : List Byte) {q : RegName} (h : RegName.COH_HOLDSNP ≠ q) (m n : Nat) : (storeMem w a bs).KeepsReg q m n := by
  refine ⟨(within_each _ _).mpr fun p _ => ?_, (within_when _ _).mpr fun _ _ => rfl, trivial⟩
  refine ⟨keeps_dropCopies _ _ h m n, keeps_of_only (only_writeMem _ _) (by decide) q m n, fun s => ?_, trivial⟩
  exact ⟨fun _ => rfl, (within_when _ _).mpr fun _ _ => rfl, trivial⟩

theorem keeps_pkgWrite (a : Nat) (bs : List Byte) {q : RegName} (h : RegName.COH_HOLDSNP ≠ q) (m n : Nat) : (pkgWrite a bs).KeepsReg q m n := keeps_storeMem _ _ _ h m n

theorem keeps_trace (u e o i : Nat) {q : RegName} (h : RegName.COH_HOLDSNP ≠ q) (m n : Nat) : (trace u e o i).KeepsReg q m n := by
  intro s
  dsimp only
  split
  · exact ⟨keeps_pkgWrite _ _ h m n, fun _ => rfl, trivial⟩
  · trivial

@[simp] theorem writeMem_now (a : Nat) (bs : List Byte) (s : State) : (run (writeMem a bs) s).now = s.now := only_now (only_writeMem a bs) (by decide) s
@[simp] theorem writeMem_free (a : Nat) (bs : List Byte) (s : State) : (run (writeMem a bs) s).free = s.free := only_free (only_writeMem a bs) (by decide) s
@[simp] theorem writeMem_out (a : Nat) (bs : List Byte) (s : State) : (run (writeMem a bs) s).out = s.out := only_out (only_writeMem a bs) (by decide) s
@[simp] theorem writeMem_regs (a : Nat) (bs : List Byte) (s : State) : (run (writeMem a bs) s).regs = s.regs := only_regs (only_writeMem a bs) (by decide) s
@[simp] theorem writeMem_floor (a : Nat) (bs : List Byte) (s : State) : (run (writeMem a bs) s).floor = s.floor := only_floor (only_writeMem a bs) (by decide) s
@[simp] theorem writeMem_life (a : Nat) (bs : List Byte) (s : State) : (run (writeMem a bs) s).life = s.life := only_life (only_writeMem a bs) (by decide) s
@[simp] theorem writeMem_flashLog (a : Nat) (bs : List Byte) (s : State) : (run (writeMem a bs) s).flashLog = s.flashLog := only_flashLog (only_writeMem a bs) (by decide) s
@[simp] theorem writeMem_log (a : Nat) (bs : List Byte) (s : State) : (run (writeMem a bs) s).log = s.log := only_log (only_writeMem a bs) (by decide) s
@[simp] theorem writeMem_time (a : Nat) (bs : List Byte) (s : State) : (run (writeMem a bs) s).time = s.time := only_time (only_writeMem a bs) (by decide) s
@[simp] theorem writeMem_chart (a : Nat) (bs : List Byte) (s : State) : (run (writeMem a bs) s).chart = s.chart := only_chart (only_writeMem a bs) (by decide) s
@[simp] theorem writeMem_tide (a : Nat) (bs : List Byte) (s : State) : (run (writeMem a bs) s).tide = s.tide := only_tide (only_writeMem a bs) (by decide) s
@[simp] theorem writeMem_tiles (a : Nat) (bs : List Byte) (s : State) : (run (writeMem a bs) s).tiles = s.tiles := only_tiles (only_writeMem a bs) (by decide) s
@[simp] theorem writeMem_num (a : Nat) (bs : List Byte) (s : State) : (run (writeMem a bs) s).num = s.num := only_num (only_writeMem a bs) (by decide) s
@[simp] theorem writeMem_sec (a : Nat) (bs : List Byte) (s : State) : (run (writeMem a bs) s).sec = s.sec := only_sec (only_writeMem a bs) (by decide) s
@[simp] theorem writeMem_tier (a : Nat) (bs : List Byte) (s : State) : (run (writeMem a bs) s).tier = s.tier := only_tier (only_writeMem a bs) (by decide) s
@[simp] theorem writeMem_coh (a : Nat) (bs : List Byte) (s : State) : (run (writeMem a bs) s).coh = s.coh := only_coh (only_writeMem a bs) (by decide) s
@[simp] theorem writeMem_hural (a : Nat) (bs : List Byte) (s : State) : (run (writeMem a bs) s).hural = s.hural := only_hural (only_writeMem a bs) (by decide) s
@[simp] theorem writeMem_upd (a : Nat) (bs : List Byte) (s : State) : (run (writeMem a bs) s).upd = s.upd := only_upd (only_writeMem a bs) (by decide) s
@[simp] theorem writeMem_cus (a : Nat) (bs : List Byte) (s : State) : (run (writeMem a bs) s).cus = s.cus := only_cus (only_writeMem a bs) (by decide) s
@[simp] theorem writeMem_bell (a : Nat) (bs : List Byte) (s : State) : (run (writeMem a bs) s).bell = s.bell := only_bell (only_writeMem a bs) (by decide) s
@[simp] theorem writeMem_link (a : Nat) (bs : List Byte) (s : State) : (run (writeMem a bs) s).link = s.link := only_link (only_writeMem a bs) (by decide) s
@[simp] theorem writeMem_en (a : Nat) (bs : List Byte) (s : State) : (run (writeMem a bs) s).en = s.en := only_en (only_writeMem a bs) (by decide) s
@[simp] theorem writeMem_shd (a : Nat) (bs : List Byte) (s : State) : (run (writeMem a bs) s).shd = s.shd := only_shd (only_writeMem a bs) (by decide) s
@[simp] theorem writeMem_hm (a : Nat) (bs : List Byte) (s : State) : (run (writeMem a bs) s).hm = s.hm := only_hm (only_writeMem a bs) (by decide) s
@[simp] theorem writeMem_rst (a : Nat) (bs : List Byte) (s : State) : (run (writeMem a bs) s).rst = s.rst := only_rst (only_writeMem a bs) (by decide) s
@[simp] theorem writeMem_pow (a : Nat) (bs : List Byte) (s : State) : (run (writeMem a bs) s).pow = s.pow := only_pow (only_writeMem a bs) (by decide) s
@[simp] theorem writeMem_getReg (a : Nat) (bs : List Byte) (q : RegName) (m n : Nat) (s : State) : getReg (run (writeMem a bs) s) q m n = getReg s q m n := by simp only [getReg, writeMem_regs]
@[simp] theorem writeMem_getF (a : Nat) (bs : List Byte) (x : Fld) (m n : Nat) (s : State) : getF (run (writeMem a bs) s) x m n = getF s x m n := by simp only [getF, writeMem_getReg]
@[simp] theorem writeMem_getB (a : Nat) (bs : List Byte) (x : Fld) (m n : Nat) (s : State) : getB (run (writeMem a bs) s) x m n = getB s x m n := by simp only [getB, writeMem_getF]
@[simp] theorem writeMem_tally (a : Nat) (bs : List Byte) (lk : LogKind) (s : State) : Safety.tally (run (writeMem a bs) s) lk = Safety.tally s lk := by simp only [Safety.tally, writeMem_log]
@[simp] theorem writeMem_theChart (a : Nat) (bs : List Byte) (s : State) : theChart (run (writeMem a bs) s) = theChart s := by simp only [theChart, writeMem_chart]
@[simp] theorem writeMem_getTile (a : Nat) (bs : List Byte) (v : Nat) (s : State) : getTile (run (writeMem a bs) s) v = getTile s v := by simp only [getTile, writeMem_tiles]

@[simp] theorem storeMem_now (w : Writer) (a : Nat) (bs : List Byte) (s : State) : (run (storeMem w a bs) s).now = s.now := only_now (only_storeMem w a bs) (by decide) s
@[simp] theorem storeMem_free (w : Writer) (a : Nat) (bs : List Byte) (s : State) : (run (storeMem w a bs) s).free = s.free := only_free (only_storeMem w a bs) (by decide) s
@[simp] theorem storeMem_out (w : Writer) (a : Nat) (bs : List Byte) (s : State) : (run (storeMem w a bs) s).out = s.out := only_out (only_storeMem w a bs) (by decide) s
@[simp] theorem storeMem_floor (w : Writer) (a : Nat) (bs : List Byte) (s : State) : (run (storeMem w a bs) s).floor = s.floor := only_floor (only_storeMem w a bs) (by decide) s
@[simp] theorem storeMem_life (w : Writer) (a : Nat) (bs : List Byte) (s : State) : (run (storeMem w a bs) s).life = s.life := only_life (only_storeMem w a bs) (by decide) s
@[simp] theorem storeMem_flashLog (w : Writer) (a : Nat) (bs : List Byte) (s : State) : (run (storeMem w a bs) s).flashLog = s.flashLog := only_flashLog (only_storeMem w a bs) (by decide) s
@[simp] theorem storeMem_log (w : Writer) (a : Nat) (bs : List Byte) (s : State) : (run (storeMem w a bs) s).log = s.log := only_log (only_storeMem w a bs) (by decide) s
@[simp] theorem storeMem_time (w : Writer) (a : Nat) (bs : List Byte) (s : State) : (run (storeMem w a bs) s).time = s.time := only_time (only_storeMem w a bs) (by decide) s
@[simp] theorem storeMem_chart (w : Writer) (a : Nat) (bs : List Byte) (s : State) : (run (storeMem w a bs) s).chart = s.chart := only_chart (only_storeMem w a bs) (by decide) s
@[simp] theorem storeMem_tide (w : Writer) (a : Nat) (bs : List Byte) (s : State) : (run (storeMem w a bs) s).tide = s.tide := only_tide (only_storeMem w a bs) (by decide) s
@[simp] theorem storeMem_tiles (w : Writer) (a : Nat) (bs : List Byte) (s : State) : (run (storeMem w a bs) s).tiles = s.tiles := only_tiles (only_storeMem w a bs) (by decide) s
@[simp] theorem storeMem_num (w : Writer) (a : Nat) (bs : List Byte) (s : State) : (run (storeMem w a bs) s).num = s.num := only_num (only_storeMem w a bs) (by decide) s
@[simp] theorem storeMem_sec (w : Writer) (a : Nat) (bs : List Byte) (s : State) : (run (storeMem w a bs) s).sec = s.sec := only_sec (only_storeMem w a bs) (by decide) s
@[simp] theorem storeMem_hural (w : Writer) (a : Nat) (bs : List Byte) (s : State) : (run (storeMem w a bs) s).hural = s.hural := only_hural (only_storeMem w a bs) (by decide) s
@[simp] theorem storeMem_upd (w : Writer) (a : Nat) (bs : List Byte) (s : State) : (run (storeMem w a bs) s).upd = s.upd := only_upd (only_storeMem w a bs) (by decide) s
@[simp] theorem storeMem_cus (w : Writer) (a : Nat) (bs : List Byte) (s : State) : (run (storeMem w a bs) s).cus = s.cus := only_cus (only_storeMem w a bs) (by decide) s
@[simp] theorem storeMem_bell (w : Writer) (a : Nat) (bs : List Byte) (s : State) : (run (storeMem w a bs) s).bell = s.bell := only_bell (only_storeMem w a bs) (by decide) s
@[simp] theorem storeMem_link (w : Writer) (a : Nat) (bs : List Byte) (s : State) : (run (storeMem w a bs) s).link = s.link := only_link (only_storeMem w a bs) (by decide) s
@[simp] theorem storeMem_en (w : Writer) (a : Nat) (bs : List Byte) (s : State) : (run (storeMem w a bs) s).en = s.en := only_en (only_storeMem w a bs) (by decide) s
@[simp] theorem storeMem_shd (w : Writer) (a : Nat) (bs : List Byte) (s : State) : (run (storeMem w a bs) s).shd = s.shd := only_shd (only_storeMem w a bs) (by decide) s
@[simp] theorem storeMem_hm (w : Writer) (a : Nat) (bs : List Byte) (s : State) : (run (storeMem w a bs) s).hm = s.hm := only_hm (only_storeMem w a bs) (by decide) s
@[simp] theorem storeMem_rst (w : Writer) (a : Nat) (bs : List Byte) (s : State) : (run (storeMem w a bs) s).rst = s.rst := only_rst (only_storeMem w a bs) (by decide) s
@[simp] theorem storeMem_pow (w : Writer) (a : Nat) (bs : List Byte) (s : State) : (run (storeMem w a bs) s).pow = s.pow := only_pow (only_storeMem w a bs) (by decide) s
@[simp] theorem storeMem_getReg (w : Writer) (a : Nat) (bs : List Byte) (q : RegName) (m n : Nat) (s : State) (h : RegName.COH_HOLDSNP ≠ q) : getReg (run (storeMem w a bs) s) q m n = getReg s q m n :=
  run_same (fun s => getReg s q m n) (keeps_storeMem w a bs h m n) s
@[simp] theorem storeMem_getF (w : Writer) (a : Nat) (bs : List Byte) (x : Fld) (m n : Nat) (s : State) (h : RegName.COH_HOLDSNP ≠ x.reg) : getF (run (storeMem w a bs) s) x m n = getF s x m n := by simp only [getF, storeMem_getReg _ _ _ _ _ _ _ h]
@[simp] theorem storeMem_getB (w : Writer) (a : Nat) (bs : List Byte) (x : Fld) (m n : Nat) (s : State) (h : RegName.COH_HOLDSNP ≠ x.reg) : getB (run (storeMem w a bs) s) x m n = getB s x m n := by simp only [getB, storeMem_getF _ _ _ _ _ _ _ h]
@[simp] theorem storeMem_tally (w : Writer) (a : Nat) (bs : List Byte) (lk : LogKind) (s : State) : Safety.tally (run (storeMem w a bs) s) lk = Safety.tally s lk := by simp only [Safety.tally, storeMem_log]
@[simp] theorem storeMem_theChart (w : Writer) (a : Nat) (bs : List Byte) (s : State) : theChart (run (storeMem w a bs) s) = theChart s := by simp only [theChart, storeMem_chart]
@[simp] theorem storeMem_getTile (w : Writer) (a : Nat) (bs : List Byte) (v : Nat) (s : State) : getTile (run (storeMem w a bs) s) v = getTile s v := by simp only [getTile, storeMem_tiles]

@[simp] theorem pkgWrite_now (a : Nat) (bs : List Byte) (s : State) : (run (pkgWrite a bs) s).now = s.now := only_now (only_pkgWrite a bs) (by decide) s
@[simp] theorem pkgWrite_free (a : Nat) (bs : List Byte) (s : State) : (run (pkgWrite a bs) s).free = s.free := only_free (only_pkgWrite a bs) (by decide) s
@[simp] theorem pkgWrite_out (a : Nat) (bs : List Byte) (s : State) : (run (pkgWrite a bs) s).out = s.out := only_out (only_pkgWrite a bs) (by decide) s
@[simp] theorem pkgWrite_floor (a : Nat) (bs : List Byte) (s : State) : (run (pkgWrite a bs) s).floor = s.floor := only_floor (only_pkgWrite a bs) (by decide) s
@[simp] theorem pkgWrite_life (a : Nat) (bs : List Byte) (s : State) : (run (pkgWrite a bs) s).life = s.life := only_life (only_pkgWrite a bs) (by decide) s
@[simp] theorem pkgWrite_flashLog (a : Nat) (bs : List Byte) (s : State) : (run (pkgWrite a bs) s).flashLog = s.flashLog := only_flashLog (only_pkgWrite a bs) (by decide) s
@[simp] theorem pkgWrite_log (a : Nat) (bs : List Byte) (s : State) : (run (pkgWrite a bs) s).log = s.log := only_log (only_pkgWrite a bs) (by decide) s
@[simp] theorem pkgWrite_time (a : Nat) (bs : List Byte) (s : State) : (run (pkgWrite a bs) s).time = s.time := only_time (only_pkgWrite a bs) (by decide) s
@[simp] theorem pkgWrite_chart (a : Nat) (bs : List Byte) (s : State) : (run (pkgWrite a bs) s).chart = s.chart := only_chart (only_pkgWrite a bs) (by decide) s
@[simp] theorem pkgWrite_tide (a : Nat) (bs : List Byte) (s : State) : (run (pkgWrite a bs) s).tide = s.tide := only_tide (only_pkgWrite a bs) (by decide) s
@[simp] theorem pkgWrite_tiles (a : Nat) (bs : List Byte) (s : State) : (run (pkgWrite a bs) s).tiles = s.tiles := only_tiles (only_pkgWrite a bs) (by decide) s
@[simp] theorem pkgWrite_num (a : Nat) (bs : List Byte) (s : State) : (run (pkgWrite a bs) s).num = s.num := only_num (only_pkgWrite a bs) (by decide) s
@[simp] theorem pkgWrite_sec (a : Nat) (bs : List Byte) (s : State) : (run (pkgWrite a bs) s).sec = s.sec := only_sec (only_pkgWrite a bs) (by decide) s
@[simp] theorem pkgWrite_hural (a : Nat) (bs : List Byte) (s : State) : (run (pkgWrite a bs) s).hural = s.hural := only_hural (only_pkgWrite a bs) (by decide) s
@[simp] theorem pkgWrite_upd (a : Nat) (bs : List Byte) (s : State) : (run (pkgWrite a bs) s).upd = s.upd := only_upd (only_pkgWrite a bs) (by decide) s
@[simp] theorem pkgWrite_cus (a : Nat) (bs : List Byte) (s : State) : (run (pkgWrite a bs) s).cus = s.cus := only_cus (only_pkgWrite a bs) (by decide) s
@[simp] theorem pkgWrite_bell (a : Nat) (bs : List Byte) (s : State) : (run (pkgWrite a bs) s).bell = s.bell := only_bell (only_pkgWrite a bs) (by decide) s
@[simp] theorem pkgWrite_link (a : Nat) (bs : List Byte) (s : State) : (run (pkgWrite a bs) s).link = s.link := only_link (only_pkgWrite a bs) (by decide) s
@[simp] theorem pkgWrite_en (a : Nat) (bs : List Byte) (s : State) : (run (pkgWrite a bs) s).en = s.en := only_en (only_pkgWrite a bs) (by decide) s
@[simp] theorem pkgWrite_shd (a : Nat) (bs : List Byte) (s : State) : (run (pkgWrite a bs) s).shd = s.shd := only_shd (only_pkgWrite a bs) (by decide) s
@[simp] theorem pkgWrite_hm (a : Nat) (bs : List Byte) (s : State) : (run (pkgWrite a bs) s).hm = s.hm := only_hm (only_pkgWrite a bs) (by decide) s
@[simp] theorem pkgWrite_rst (a : Nat) (bs : List Byte) (s : State) : (run (pkgWrite a bs) s).rst = s.rst := only_rst (only_pkgWrite a bs) (by decide) s
@[simp] theorem pkgWrite_pow (a : Nat) (bs : List Byte) (s : State) : (run (pkgWrite a bs) s).pow = s.pow := only_pow (only_pkgWrite a bs) (by decide) s
@[simp] theorem pkgWrite_getReg (a : Nat) (bs : List Byte) (q : RegName) (m n : Nat) (s : State) (h : RegName.COH_HOLDSNP ≠ q) : getReg (run (pkgWrite a bs) s) q m n = getReg s q m n :=
  run_same (fun s => getReg s q m n) (keeps_pkgWrite a bs h m n) s
@[simp] theorem pkgWrite_getF (a : Nat) (bs : List Byte) (x : Fld) (m n : Nat) (s : State) (h : RegName.COH_HOLDSNP ≠ x.reg) : getF (run (pkgWrite a bs) s) x m n = getF s x m n := by simp only [getF, pkgWrite_getReg _ _ _ _ _ _ h]
@[simp] theorem pkgWrite_getB (a : Nat) (bs : List Byte) (x : Fld) (m n : Nat) (s : State) (h : RegName.COH_HOLDSNP ≠ x.reg) : getB (run (pkgWrite a bs) s) x m n = getB s x m n := by simp only [getB, pkgWrite_getF _ _ _ _ _ _ h]
@[simp] theorem pkgWrite_tally (a : Nat) (bs : List Byte) (lk : LogKind) (s : State) : Safety.tally (run (pkgWrite a bs) s) lk = Safety.tally s lk := by simp only [Safety.tally, pkgWrite_log]
@[simp] theorem pkgWrite_theChart (a : Nat) (bs : List Byte) (s : State) : theChart (run (pkgWrite a bs) s) = theChart s := by simp only [theChart, pkgWrite_chart]
@[simp] theorem pkgWrite_getTile (a : Nat) (bs : List Byte) (v : Nat) (s : State) : getTile (run (pkgWrite a bs) s) v = getTile s v := by simp only [getTile, pkgWrite_tiles]

@[simp] theorem zeroMem_now (a c : Nat) (s : State) : (run (zeroMem a c) s).now = s.now := only_now (only_pkgWrite a _) (by decide) s
@[simp] theorem zeroMem_free (a c : Nat) (s : State) : (run (zeroMem a c) s).free = s.free := only_free (only_pkgWrite a _) (by decide) s
@[simp] theorem zeroMem_out (a c : Nat) (s : State) : (run (zeroMem a c) s).out = s.out := only_out (only_pkgWrite a _) (by decide) s
@[simp] theorem zeroMem_floor (a c : Nat) (s : State) : (run (zeroMem a c) s).floor = s.floor := only_floor (only_pkgWrite a _) (by decide) s
@[simp] theorem zeroMem_life (a c : Nat) (s : State) : (run (zeroMem a c) s).life = s.life := only_life (only_pkgWrite a _) (by decide) s
@[simp] theorem zeroMem_flashLog (a c : Nat) (s : State) : (run (zeroMem a c) s).flashLog = s.flashLog := only_flashLog (only_pkgWrite a _) (by decide) s
@[simp] theorem zeroMem_log (a c : Nat) (s : State) : (run (zeroMem a c) s).log = s.log := only_log (only_pkgWrite a _) (by decide) s
@[simp] theorem zeroMem_time (a c : Nat) (s : State) : (run (zeroMem a c) s).time = s.time := only_time (only_pkgWrite a _) (by decide) s
@[simp] theorem zeroMem_chart (a c : Nat) (s : State) : (run (zeroMem a c) s).chart = s.chart := only_chart (only_pkgWrite a _) (by decide) s
@[simp] theorem zeroMem_tide (a c : Nat) (s : State) : (run (zeroMem a c) s).tide = s.tide := only_tide (only_pkgWrite a _) (by decide) s
@[simp] theorem zeroMem_tiles (a c : Nat) (s : State) : (run (zeroMem a c) s).tiles = s.tiles := only_tiles (only_pkgWrite a _) (by decide) s
@[simp] theorem zeroMem_num (a c : Nat) (s : State) : (run (zeroMem a c) s).num = s.num := only_num (only_pkgWrite a _) (by decide) s
@[simp] theorem zeroMem_sec (a c : Nat) (s : State) : (run (zeroMem a c) s).sec = s.sec := only_sec (only_pkgWrite a _) (by decide) s
@[simp] theorem zeroMem_hural (a c : Nat) (s : State) : (run (zeroMem a c) s).hural = s.hural := only_hural (only_pkgWrite a _) (by decide) s
@[simp] theorem zeroMem_upd (a c : Nat) (s : State) : (run (zeroMem a c) s).upd = s.upd := only_upd (only_pkgWrite a _) (by decide) s
@[simp] theorem zeroMem_cus (a c : Nat) (s : State) : (run (zeroMem a c) s).cus = s.cus := only_cus (only_pkgWrite a _) (by decide) s
@[simp] theorem zeroMem_bell (a c : Nat) (s : State) : (run (zeroMem a c) s).bell = s.bell := only_bell (only_pkgWrite a _) (by decide) s
@[simp] theorem zeroMem_link (a c : Nat) (s : State) : (run (zeroMem a c) s).link = s.link := only_link (only_pkgWrite a _) (by decide) s
@[simp] theorem zeroMem_en (a c : Nat) (s : State) : (run (zeroMem a c) s).en = s.en := only_en (only_pkgWrite a _) (by decide) s
@[simp] theorem zeroMem_shd (a c : Nat) (s : State) : (run (zeroMem a c) s).shd = s.shd := only_shd (only_pkgWrite a _) (by decide) s
@[simp] theorem zeroMem_hm (a c : Nat) (s : State) : (run (zeroMem a c) s).hm = s.hm := only_hm (only_pkgWrite a _) (by decide) s
@[simp] theorem zeroMem_rst (a c : Nat) (s : State) : (run (zeroMem a c) s).rst = s.rst := only_rst (only_pkgWrite a _) (by decide) s
@[simp] theorem zeroMem_pow (a c : Nat) (s : State) : (run (zeroMem a c) s).pow = s.pow := only_pow (only_pkgWrite a _) (by decide) s
@[simp] theorem zeroMem_getReg (a c : Nat) (q : RegName) (m n : Nat) (s : State) (h : RegName.COH_HOLDSNP ≠ q) : getReg (run (zeroMem a c) s) q m n = getReg s q m n :=
  pkgWrite_getReg _ _ _ _ _ _ h
@[simp] theorem zeroMem_getF (a c : Nat) (x : Fld) (m n : Nat) (s : State) (h : RegName.COH_HOLDSNP ≠ x.reg) : getF (run (zeroMem a c) s) x m n = getF s x m n :=
  pkgWrite_getF _ _ _ _ _ _ h
@[simp] theorem zeroMem_getB (a c : Nat) (x : Fld) (m n : Nat) (s : State) (h : RegName.COH_HOLDSNP ≠ x.reg) : getB (run (zeroMem a c) s) x m n = getB s x m n :=
  pkgWrite_getB _ _ _ _ _ _ h
@[simp] theorem zeroMem_tally (a c : Nat) (lk : LogKind) (s : State) : Safety.tally (run (zeroMem a c) s) lk = Safety.tally s lk := by simp only [Safety.tally, zeroMem_log]
@[simp] theorem zeroMem_theChart (a c : Nat) (s : State) : theChart (run (zeroMem a c) s) = theChart s := by simp only [theChart, zeroMem_chart]
@[simp] theorem zeroMem_getTile (a c : Nat) (v : Nat) (s : State) : getTile (run (zeroMem a c) s) v = getTile s v := by simp only [getTile, zeroMem_tiles]

@[simp] theorem trace_now (u e o i : Nat) (s : State) : (run (trace u e o i) s).now = s.now := only_now (only_trace u e o i) (by decide) s
@[simp] theorem trace_free (u e o i : Nat) (s : State) : (run (trace u e o i) s).free = s.free := only_free (only_trace u e o i) (by decide) s
@[simp] theorem trace_out (u e o i : Nat) (s : State) : (run (trace u e o i) s).out = s.out := only_out (only_trace u e o i) (by decide) s
@[simp] theorem trace_floor (u e o i : Nat) (s : State) : (run (trace u e o i) s).floor = s.floor := only_floor (only_trace u e o i) (by decide) s
@[simp] theorem trace_life (u e o i : Nat) (s : State) : (run (trace u e o i) s).life = s.life := only_life (only_trace u e o i) (by decide) s
@[simp] theorem trace_flashLog (u e o i : Nat) (s : State) : (run (trace u e o i) s).flashLog = s.flashLog := only_flashLog (only_trace u e o i) (by decide) s
@[simp] theorem trace_log (u e o i : Nat) (s : State) : (run (trace u e o i) s).log = s.log := only_log (only_trace u e o i) (by decide) s
@[simp] theorem trace_time (u e o i : Nat) (s : State) : (run (trace u e o i) s).time = s.time := only_time (only_trace u e o i) (by decide) s
@[simp] theorem trace_chart (u e o i : Nat) (s : State) : (run (trace u e o i) s).chart = s.chart := only_chart (only_trace u e o i) (by decide) s
@[simp] theorem trace_tide (u e o i : Nat) (s : State) : (run (trace u e o i) s).tide = s.tide := only_tide (only_trace u e o i) (by decide) s
@[simp] theorem trace_tiles (u e o i : Nat) (s : State) : (run (trace u e o i) s).tiles = s.tiles := only_tiles (only_trace u e o i) (by decide) s
@[simp] theorem trace_num (u e o i : Nat) (s : State) : (run (trace u e o i) s).num = s.num := only_num (only_trace u e o i) (by decide) s
@[simp] theorem trace_hural (u e o i : Nat) (s : State) : (run (trace u e o i) s).hural = s.hural := only_hural (only_trace u e o i) (by decide) s
@[simp] theorem trace_upd (u e o i : Nat) (s : State) : (run (trace u e o i) s).upd = s.upd := only_upd (only_trace u e o i) (by decide) s
@[simp] theorem trace_cus (u e o i : Nat) (s : State) : (run (trace u e o i) s).cus = s.cus := only_cus (only_trace u e o i) (by decide) s
@[simp] theorem trace_bell (u e o i : Nat) (s : State) : (run (trace u e o i) s).bell = s.bell := only_bell (only_trace u e o i) (by decide) s
@[simp] theorem trace_link (u e o i : Nat) (s : State) : (run (trace u e o i) s).link = s.link := only_link (only_trace u e o i) (by decide) s
@[simp] theorem trace_en (u e o i : Nat) (s : State) : (run (trace u e o i) s).en = s.en := only_en (only_trace u e o i) (by decide) s
@[simp] theorem trace_shd (u e o i : Nat) (s : State) : (run (trace u e o i) s).shd = s.shd := only_shd (only_trace u e o i) (by decide) s
@[simp] theorem trace_hm (u e o i : Nat) (s : State) : (run (trace u e o i) s).hm = s.hm := only_hm (only_trace u e o i) (by decide) s
@[simp] theorem trace_rst (u e o i : Nat) (s : State) : (run (trace u e o i) s).rst = s.rst := only_rst (only_trace u e o i) (by decide) s
@[simp] theorem trace_pow (u e o i : Nat) (s : State) : (run (trace u e o i) s).pow = s.pow := only_pow (only_trace u e o i) (by decide) s
@[simp] theorem trace_getReg (u e o i : Nat) (q : RegName) (m n : Nat) (s : State) (h : RegName.COH_HOLDSNP ≠ q) : getReg (run (trace u e o i) s) q m n = getReg s q m n :=
  run_same (fun s => getReg s q m n) (keeps_trace u e o i h m n) s
@[simp] theorem trace_getF (u e o i : Nat) (x : Fld) (m n : Nat) (s : State) (h : RegName.COH_HOLDSNP ≠ x.reg) : getF (run (trace u e o i) s) x m n = getF s x m n := by simp only [getF, trace_getReg _ _ _ _ _ _ _ _ h]
@[simp] theorem trace_getB (u e o i : Nat) (x : Fld) (m n : Nat) (s : State) (h : RegName.COH_HOLDSNP ≠ x.reg) : getB (run (trace u e o i) s) x m n = getB s x m n := by simp only [getB, trace_getF _ _ _ _ _ _ _ _ h]
@[simp] theorem trace_tally (u e o i : Nat) (lk : LogKind) (s : State) : Safety.tally (run (trace u e o i) s) lk = Safety.tally s lk := by simp only [Safety.tally, trace_log]
@[simp] theorem trace_theChart (u e o i : Nat) (s : State) : theChart (run (trace u e o i) s) = theChart s := by simp only [theChart, trace_chart]
@[simp] theorem trace_getTile (u e o i : Nat) (v : Nat) (s : State) : getTile (run (trace u e o i) s) v = getTile s v := by simp only [getTile, trace_tiles]

end Sys2Proof.Machine
end

