-- ==== Sys2Proof/Laws/Changes.lean ====
section
/-! SUPPORT. Every program of the model and the parts of the state that it can change: one lemma a program, which frames rest on. -/

set_option linter.unusedTactic false
set_option linter.unreachableTactic false

namespace Sys2Proof.Machine

/-! How a program of parts is shown to change only certain parts of the state. -/

/-- Each part of one list is in another. -/
def Part.sub (l k : List Part) : Bool := l.all fun p => k.any fun q => Nat.beq p.ctorIdx q.ctorIdx

theorem Part.ctorIdx_inj {p q : Part} (h : p.ctorIdx = q.ctorIdx) : p = q := by
  rw [← Part.ofNat_ctorIdx p, h, Part.ofNat_ctorIdx]

theorem Part.sub_mem {l k : List Part} (h : Part.sub l k = true) : ∀ p ∈ l, p ∈ k := by
  intro p hp
  obtain ⟨q, hq, he⟩ := List.any_eq_true.mp (List.all_eq_true.mp h p hp)
  exact Part.ctorIdx_inj (Nat.eq_of_beq_eq_true he) ▸ hq

/-- A program changes at most the listed parts: `Act.Only`, kept folded so that a proof follows the program's own form. -/
@[irreducible] def Act.Changes (l : List Part) (a : Act) : Prop := a.Only l

theorem Act.Changes.only {l : List Part} {a : Act} (h : a.Changes l) : a.Only l := by unfold Act.Changes at h; exact h
theorem Act.Only.changes {l : List Part} {a : Act} (h : a.Only l) : a.Changes l := by unfold Act.Changes; exact h

theorem Act.Changes.up {l k : List Part} {a : Act} (h : a.Changes l) (hk : Part.sub l k = true) : a.Changes k := (h.only.mono (Part.sub_mem hk)).changes

theorem changes_skip {l : List Part} : Act.Changes l .skip := Act.Only.changes trivial

theorem changes_prim {l : List Part} {p : Prim} (h : Part.sub [p.part] l = true) : Act.Changes l (.prim p) :=
  Act.Only.changes (Part.sub_mem h _ (List.mem_singleton.mpr rfl))

theorem changes_ite {l : List Part} {c : Prop} {d : Decidable c} {a b : Act} (ha : a.Changes l) (hb : b.Changes l) : Act.Changes l (if c then a else b) := by
  split <;> assumption

theorem changes_nil {l : List Part} : Act.Changes l (Act.all []) := changes_skip

theorem changes_cons {l : List Part} {a : Act} {as : List Act} (ha : a.Changes l) (hs : (Act.all as).Changes l) : Act.Changes l (Act.all (a :: as)) :=
  Act.Only.changes ⟨ha.only, hs.only⟩

theorem changes_seq {l : List Part} {a b : Act} (ha : a.Changes l) (hb : b.Changes l) : Act.Changes l (.seq a b) := Act.Only.changes ⟨ha.only, hb.only⟩

theorem changes_when {l : List Part} {c : Bool} {a : Act} (ha : a.Changes l) : Act.Changes l (Act.when c a) :=
  Act.Only.changes ((within_when c a).mpr fun _ => ha.only)

theorem changes_given {l : List Part} {c : State → Bool} {a : Act} (ha : a.Changes l) : Act.Changes l (Act.given c a) :=
  Act.Only.changes ((within_given c a).mpr fun _ _ => ha.only)

theorem changes_each {l : List Part} {α : Type} {f : α → Act} {xs : List α} (hf : ∀ x, (f x).Changes l) : Act.Changes l (Act.each f xs) :=
  Act.Only.changes ((within_each f xs).mpr fun x _ => (hf x).only)

theorem changes_ask {l : List Part} {f : State → Act} (hf : ∀ s, (f s).Changes l) : Act.Changes l (.ask f) := Act.Only.changes fun s => (hf s).only

/-! The programs. -/

theorem changes_modF (a0 a1 a2 a3) : Act.Changes [.regs] (modF a0 a1 a2 a3) := by
  unfold modF
  exact (changes_ask fun _ => (changes_prim rfl))

theorem changes_addF (a0 a1 a2 a3) : Act.Changes [.regs] (addF a0 a1 a2 a3) := by
  unfold addF
  exact (changes_modF _ _ _ _)

theorem changes_clearBlocks (a0 a1 a2) : Act.Changes [.tier] (clearBlocks a0 a1 a2) := by
  unfold clearBlocks
  exact (changes_when (changes_prim rfl))

theorem changes_writeMem (a0 a1) : Act.Changes [.mem] (writeMem a0 a1) := (Act.Only.mono (only_writeMem _ _) (by decide)).changes

theorem changes_dropCopies (a0 a1) : Act.Changes [.regs, .mem, .coh] (dropCopies a0 a1) := (Act.Only.mono (only_dropCopies _ _) (by decide)).changes

theorem changes_setF (a0 a1 a2 a3) : Act.Changes [.regs] (setF a0 a1 a2 a3) := by
  unfold setF
  exact (changes_ask fun _ => (changes_prim rfl))

theorem changes_evt (a0 a1 a2) : Act.Changes [.regs] (evt a0 a1 a2) := by
  unfold evt
  exact (changes_setF _ _ _ _)

theorem changes_wipe (a0 a1) : Act.Changes [.mem, .tier, .coh] (wipe a0 a1) := by
  unfold wipe
  exact (changes_cons (changes_prim rfl) (changes_cons (changes_prim rfl) (changes_cons (changes_prim rfl) (changes_cons (changes_prim rfl) changes_nil))))

theorem changes_fillFrame (a0 a1) : Act.Changes [.mem, .tier, .coh] (fillFrame a0 a1) := by
  unfold fillFrame
  exact (changes_cons (changes_wipe _ _) (changes_cons (changes_when (changes_prim rfl)) changes_nil))

theorem changes_incF (a0 a1 a2 a3) : Act.Changes [.regs] (incF a0 a1 a2 a3) := by
  unfold incF
  exact (changes_modF _ _ _ _)

theorem changes_stampLine (a0 a1 a2) : Act.Changes [.tier] (stampLine a0 a1 a2) := by
  unfold stampLine
  exact (changes_ask fun _ => (changes_cons (changes_prim rfl) (changes_cons (changes_when (changes_prim rfl)) changes_nil)))

theorem changes_storeMem (a0 a1 a2) : Act.Changes [.regs, .mem, .tier, .coh] (storeMem a0 a1 a2) := (Act.Only.mono (only_storeMem _ _ _) (by decide)).changes

theorem changes_pkgWrite (a0 a1) : Act.Changes [.regs, .mem, .tier, .coh] (pkgWrite a0 a1) := (Act.Only.mono (only_pkgWrite _ _) (by decide)).changes

theorem changes_resetReg (a0 a1 a2) : Act.Changes [.regs] (resetReg a0 a1 a2) := by
  unfold resetReg
  exact (changes_prim rfl)

theorem changes_send (a0) : Act.Changes [.out] (send a0) := by
  unfold send
  exact (changes_prim rfl)

theorem changes_respond (a0 a1 a2) : Act.Changes [.out] (respond a0 a1 a2) := by
  unfold respond
  exact (changes_send _)

theorem changes_setBitF (a0 a1 a2 a3 a4) : Act.Changes [.regs] (setBitF a0 a1 a2 a3 a4) := by
  unfold setBitF
  exact (changes_modF _ _ _ _)

theorem changes_updAgent (a0 a1) : Act.Changes [.coh] (updAgent a0 a1) := by
  unfold updAgent
  exact (changes_prim rfl)

theorem changes_zeroMem (a0 a1) : Act.Changes [.regs, .mem, .tier, .coh] (zeroMem a0 a1) := by
  unfold zeroMem
  exact (changes_pkgWrite _ _)

theorem changes_logEv (a0 a1 a2 a3) : Act.Changes [.log] (logEv a0 a1 a2 a3) := by
  unfold logEv
  exact (changes_ask fun _ => (changes_prim rfl))

theorem changes_accessFault (a0 a1) : Act.Changes [.out, .log] (accessFault a0 a1) := by
  unfold accessFault
  exact (changes_cons ((changes_send _).up rfl) (changes_cons ((changes_logEv _ _ _ _).up rfl) changes_nil))

theorem changes_closeFloods : Act.Changes [.log] closeFloods := by
  unfold closeFloods
  exact (changes_prim rfl)

theorem changes_flushLog : Act.Changes [.flashLog, .log] flushLog := by
  unfold flushLog
  exact (changes_ask fun _ => (changes_cons (changes_prim rfl) (changes_cons (changes_prim rfl) changes_nil)))

theorem changes_updChart (a0) : Act.Changes [.chart] (updChart a0) := by
  unfold updChart
  exact (changes_prim rfl)

theorem changes_amendEnd (a0) : Act.Changes [.regs, .chart] (amendEnd a0) := by
  unfold amendEnd
  exact (changes_cons ((changes_setF _ _ _ _).up rfl) (changes_cons ((changes_setF _ _ _ _).up rfl) (changes_cons ((changes_setF _ _ _ _).up rfl) (changes_cons ((changes_setF _ _ _ _).up rfl) (changes_cons ((changes_setF _ _ _ _).up rfl) (changes_cons ((changes_updChart _).up rfl) changes_nil))))))

theorem changes_amendCancel : Act.Changes [.regs, .log, .chart] amendCancel := by
  unfold amendCancel
  exact (changes_ask fun _ => (changes_ite (changes_cons ((changes_amendEnd _).up rfl) (changes_cons ((changes_logEv _ _ _ _).up rfl) changes_nil)) changes_skip))

theorem changes_amendReject (a0) : Act.Changes [.regs, .log, .chart] (amendReject a0) := by
  unfold amendReject
  exact (changes_cons ((changes_amendEnd _).up rfl) (changes_cons ((changes_evt _ _ _).up rfl) (changes_cons ((changes_logEv _ _ _ _).up rfl) changes_nil)))

theorem changes_amendCheckDone : Act.Changes [.regs, .log, .chart] amendCheckDone := by
  unfold amendCheckDone
  exact (changes_ask fun _ => (by
    split
    · exact changes_skip
    · exact (changes_ite (changes_amendReject _) (changes_ite (changes_amendReject _) (changes_cons ((changes_setF _ _ _ _).up rfl) (changes_cons ((changes_setF _ _ _ _).up rfl) (changes_cons ((changes_setF _ _ _ _).up rfl) (changes_cons ((changes_setF _ _ _ _).up rfl) (changes_cons ((changes_updChart _).up rfl) changes_nil)))))))))

theorem changes_amendDrainTimeout : Act.Changes [.regs, .log, .chart] amendDrainTimeout := by
  unfold amendDrainTimeout
  exact (changes_ask fun _ => (by
    split
    · exact (changes_ite (changes_amendReject _) changes_skip)
    · exact changes_skip))

theorem changes_amendGo (a0) : Act.Changes [.regs, .log, .chart] (amendGo a0) := by
  unfold amendGo
  exact (changes_seq ((changes_setF _ _ _ _).up rfl) (changes_ask fun _ => (changes_ite (changes_amendReject _) (changes_ite (changes_cons ((changes_setF _ _ _ _).up rfl) (changes_cons ((changes_evt _ _ _).up rfl) (changes_cons ((changes_logEv _ _ _ _).up rfl) changes_nil))) (changes_cons ((changes_setF _ _ _ _).up rfl) (changes_cons ((changes_updChart _).up rfl) changes_nil))))))

theorem changes_flashCheckDone : Act.Changes [.regs, .chart] flashCheckDone := by
  unfold flashCheckDone
  exact (changes_ask fun _ => (by
    split
    · exact changes_skip
    · exact (changes_ite ((changes_updChart _).up rfl) (changes_cons ((changes_setF _ _ _ _).up rfl) (changes_cons ((changes_setF _ _ _ _).up rfl) (changes_cons ((changes_evt _ _ _).up rfl) (changes_cons ((changes_updChart _).up rfl) changes_nil)))))))

theorem changes_flashGo (a0) : Act.Changes [.regs, .log, .chart] (flashGo a0) := by
  unfold flashGo
  exact (changes_seq ((changes_setF _ _ _ _).up rfl) (changes_ask fun _ => (changes_ite (changes_cons ((changes_setF _ _ _ _).up rfl) (changes_cons ((changes_logEv _ _ _ _).up rfl) changes_nil)) (changes_cons ((changes_setF _ _ _ _).up rfl) (changes_cons ((changes_updChart _).up rfl) changes_nil)))))

theorem changes_flashWriteDone (a0) : Act.Changes [.regs, .chart] (flashWriteDone a0) := by
  unfold flashWriteDone
  exact (changes_ask fun _ => (by
    split
    · exact changes_skip
    · exact (changes_ite (changes_cons ((changes_updChart _).up rfl) (changes_cons ((changes_setF _ _ _ _).up rfl) (changes_cons (changes_when ((changes_setF _ _ _ _).up rfl)) changes_nil))) (changes_cons ((changes_updChart _).up rfl) (changes_cons ((changes_setF _ _ _ _).up rfl) (changes_cons ((changes_setF _ _ _ _).up rfl) (changes_cons ((changes_evt _ _ _).up rfl) changes_nil)))))))

theorem changes_updEdge (a0 a1) : Act.Changes [.link] (updEdge a0 a1) := by
  unfold updEdge
  exact (changes_prim rfl)

theorem changes_edgeRuns (a0 a1 a2 a3) : Act.Changes [.regs, .link, .rst] (edgeRuns a0 a1 a2 a3) := by
  unfold edgeRuns
  exact (changes_cons ((changes_setF _ _ _ _).up rfl) (changes_cons ((changes_setF _ _ _ _).up rfl) (changes_cons (changes_prim rfl) (changes_cons ((changes_updEdge _ _).up rfl) changes_nil))))

theorem changes_wantEnds (a0 a1) : Act.Changes [.coh] (wantEnds a0 a1) := by
  unfold wantEnds
  exact (changes_updAgent _ _)

theorem changes_edgeFaults (a0) : Act.Changes [.out, .log, .tier, .coh] (edgeFaults a0) := by
  unfold edgeFaults
  exact (changes_ask fun _ => (changes_cons (changes_prim rfl) (changes_cons (changes_prim rfl) (changes_cons (changes_each fun _ => (changes_cons ((changes_wantEnds _ _).up rfl) (changes_cons ((changes_send _).up rfl) (changes_cons ((changes_logEv _ _ _ _).up rfl) changes_nil)))) (changes_cons (changes_each fun _ => (changes_cons (by
    split
    · exact ((changes_wantEnds _ _).up rfl)
    · exact ((changes_wantEnds _ _).up rfl)
    · exact changes_skip) (changes_cons ((changes_accessFault _ _).up rfl) changes_nil))) changes_nil)))))

theorem changes_reroute : Act.Changes [.link] reroute := by
  unfold reroute
  exact (changes_ask fun _ => (changes_prim rfl))

theorem changes_edgeStops (a0 a1) : Act.Changes [.out, .regs, .log, .tier, .coh, .link] (edgeStops a0 a1) := by
  unfold edgeStops
  exact (changes_given (changes_cons ((changes_setF _ _ _ _).up rfl) (changes_cons ((changes_setF _ _ _ _).up rfl) (changes_cons ((changes_updEdge _ _).up rfl) (changes_cons ((changes_setBitF _ _ _ _ _).up rfl) (changes_cons ((changes_logEv _ _ _ _).up rfl) (changes_cons ((changes_edgeFaults _).up rfl) (changes_cons (changes_reroute.up rfl) changes_nil))))))))

theorem changes_attemptFails (a0 a1 a2) : Act.Changes [.out, .regs, .log, .tier, .coh, .link, .rst] (attemptFails a0 a1 a2) := by
  unfold attemptFails
  exact (changes_ask fun _ => (changes_cons ((changes_setF _ _ _ _).up rfl) (changes_cons (changes_ite (changes_ite ((changes_edgeStops _ _).up rfl) (changes_cons ((changes_edgeRuns _ _ _ _).up rfl) (changes_cons ((changes_setBitF _ _ _ _ _).up rfl) (changes_cons ((changes_logEv _ _ _ _).up rfl) changes_nil)))) ((changes_updEdge _ _).up rfl)) changes_nil)))

theorem changes_confirmDone (a0 a1) : Act.Changes [.out, .regs, .log, .tier, .coh, .link, .rst] (confirmDone a0 a1) := by
  unfold confirmDone
  exact (changes_ask fun _ => (changes_ite (changes_ite ((changes_edgeRuns _ _ _ _).up rfl) (changes_attemptFails _ _ _)) changes_skip))

theorem changes_edgeTrain (a0) : Act.Changes [.regs, .link] (edgeTrain a0) := by
  unfold edgeTrain
  exact (changes_cons ((changes_setF _ _ _ _).up rfl) (changes_cons ((changes_setF _ _ _ _).up rfl) (changes_cons ((changes_setF _ _ _ _).up rfl) (changes_cons ((changes_setF _ _ _ _).up rfl) (changes_cons ((changes_setF _ _ _ _).up rfl) (changes_cons ((changes_updEdge _ _).up rfl) (changes_cons (changes_reroute.up rfl) changes_nil)))))))

theorem changes_d2dRetrain (a0) : Act.Changes [.regs, .link] (d2dRetrain a0) := by
  unfold d2dRetrain
  exact (changes_ask fun _ => (changes_when (changes_edgeTrain _)))

theorem changes_dropNotice (a0 a1 a2 a3) : Act.Changes [.out, .regs, .log, .tier, .coh, .link] (dropNotice a0 a1 a2 a3) := by
  unfold dropNotice
  exact (changes_ask fun _ => (changes_ite (changes_ite ((changes_updEdge _ _).up rfl) (changes_ite (changes_edgeStops _ _) (changes_cons ((changes_updEdge _ _).up rfl) (changes_cons ((changes_incF _ _ _ _).up rfl) (changes_cons ((changes_modF _ _ _ _).up rfl) (changes_cons ((changes_setBitF _ _ _ _ _).up rfl) (changes_cons ((changes_logEv _ _ _ _).up rfl) changes_nil))))))) changes_skip))

theorem changes_edgeMerge (a0 a1) : Act.Changes [.out, .link] (edgeMerge a0 a1) := by
  unfold edgeMerge
  exact (changes_ask fun _ => (changes_ite (changes_cons ((changes_updEdge _ _).up rfl) (changes_cons ((changes_send _).up rfl) changes_nil)) changes_skip))

theorem changes_laneFrame (a0 a1 a2 a3 a4) : Act.Changes [.out, .regs, .log, .tier, .coh, .link] (laneFrame a0 a1 a2 a3 a4) := by
  unfold laneFrame
  exact (changes_ask fun _ => (changes_ite changes_skip (changes_ite (changes_ite changes_skip (changes_cons ((changes_updEdge _ _).up rfl) (changes_cons ((changes_send _).up rfl) (changes_cons ((changes_edgeMerge _ _).up rfl) changes_nil)))) (changes_cons ((changes_incF _ _ _ _).up rfl) (changes_cons (changes_ite (changes_edgeStops _ _) ((changes_updEdge _ _).up rfl)) changes_nil)))))

theorem changes_laneNak (a0 a1 a2 a3) : Act.Changes [.regs, .link] (laneNak a0 a1 a2 a3) := by
  unfold laneNak
  exact (changes_ask fun _ => (changes_ite (changes_cons ((changes_updEdge _ _).up rfl) (changes_cons ((changes_incF _ _ _ _).up rfl) changes_nil)) changes_skip))

theorem changes_mapTimeout (a0 a1 a2) : Act.Changes [.out, .regs, .log, .tier, .coh, .link, .rst] (mapTimeout a0 a1 a2) := by
  unfold mapTimeout
  exact (changes_ask fun _ => (changes_when (changes_attemptFails _ _ _)))

theorem changes_receiveMap (a0 a1 a2 a3) : Act.Changes [.out, .regs, .log, .tier, .coh, .link] (receiveMap a0 a1 a2 a3) := by
  unfold receiveMap
  exact (changes_ask fun _ => (changes_ite changes_skip (changes_cons (changes_ite ((changes_setF _ _ _ _).up rfl) ((changes_setF _ _ _ _).up rfl)) (changes_cons (changes_ite ((changes_setF _ _ _ _).up rfl) ((changes_setF _ _ _ _).up rfl)) (changes_cons ((changes_updEdge _ _).up rfl) (changes_cons (changes_ask fun _ => (by
    split
    · exact (changes_ite (changes_edgeStops _ _) ((changes_updEdge _ _).up rfl))
    · exact changes_skip)) changes_nil))))))

theorem changes_routeRestore (a0) : Act.Changes [.link] (routeRestore a0) := by
  unfold routeRestore
  exact (changes_ask fun _ => (changes_prim rfl))

theorem changes_tagFree (a0) : Act.Changes [.regs] (tagFree a0) := by
  unfold tagFree
  exact (changes_ask fun _ => (changes_when (changes_incF _ _ _ _)))

theorem changes_orFlags (a0 a1 a2 a3) : Act.Changes [.regs] (orFlags a0 a1 a2 a3) := by
  unfold orFlags
  exact (changes_ask fun _ => (changes_prim rfl))

theorem changes_amaxReport (a0 a1 a2) : Act.Changes [.regs, .mem, .tier, .coh] (amaxReport a0 a1 a2) := by
  unfold amaxReport
  exact (changes_ask fun _ => (changes_ite (changes_pkgWrite _ _) changes_skip))

theorem changes_completionReport (a0 a1) : Act.Changes [.num] (completionReport a0 a1) := by
  unfold completionReport
  exact (changes_ite (changes_ask fun _ => (changes_prim rfl)) changes_skip)

theorem changes_progress (a0) : Act.Changes [.tide] (progress a0) := by
  unfold progress
  exact (changes_prim rfl)

theorem changes_trace (a0 a1 a2 a3) : Act.Changes [.regs, .mem, .sec, .tier, .coh] (trace a0 a1 a2 a3) := (Act.Only.mono (only_trace _ _ _ _) (by decide)).changes

theorem changes_traceItem (a0 a1 a2) : Act.Changes [.regs, .mem, .tide, .sec, .tier, .coh] (traceItem a0 a1 a2) := by
  unfold traceItem
  exact (changes_seq ((changes_trace _ _ _ _).up rfl) (changes_when ((changes_progress _).up rfl)))

theorem changes_updTile (a0 a1) : Act.Changes [.tiles] (updTile a0 a1) := by
  unfold updTile
  exact (changes_prim rfl)

theorem changes_updEng (a0 a1 a2) : Act.Changes [.tiles] (updEng a0 a1 a2) := by
  unfold updEng
  exact (changes_updTile _ _)

theorem changes_itemFault (a0 a1 a2 a3 a4 a5) : Act.Changes [.regs, .mem, .log, .tide, .tiles, .sec, .tier, .coh] (itemFault a0 a1 a2 a3 a4 a5) := by
  unfold itemFault
  exact (changes_cons ((changes_updEng _ _ _).up rfl) (changes_cons (changes_prim rfl) (changes_cons ((changes_logEv _ _ _ _).up rfl) (changes_cons ((changes_traceItem _ _ _).up rfl) changes_nil))))

theorem changes_lastItem (a0 a1 a2 a3) : Act.Changes [.regs] (lastItem a0 a1 a2 a3) := by
  unfold lastItem
  exact (changes_ask fun _ => (changes_when (changes_setF _ _ _ _)))

theorem changes_setPass (a0 a1 a2) : Act.Changes [.num] (setPass a0 a1 a2) := by
  unfold setPass
  exact (changes_prim rfl)

theorem changes_passBegin (a0 a1) : Act.Changes [.num] (passBegin a0 a1) := by
  unfold passBegin
  exact (changes_ask fun _ => (changes_ite (changes_cons (changes_setPass _ _ _) (changes_cons (changes_prim rfl) changes_nil)) changes_skip))

theorem changes_signal (a0 a1) : Act.Changes [.regs] (signal a0 a1) := by
  unfold signal
  exact (changes_when (changes_incF _ _ _ _))

theorem changes_streamWrap (a0 a1) : Act.Changes [.log, .tiles] (streamWrap a0 a1) := by
  unfold streamWrap
  exact (changes_ask fun _ => (changes_ite (changes_cons ((changes_updTile _ _).up rfl) (changes_cons ((changes_logEv _ _ _ _).up rfl) changes_nil)) changes_skip))

theorem changes_takeBlocks (a0 a1 a2 a3) : Act.Changes [.tiles] (takeBlocks a0 a1 a2 a3) := by
  unfold takeBlocks
  exact (changes_updTile _ _)

theorem changes_updHural (a0) : Act.Changes [.hural] (updHural a0) := by
  unfold updHural
  exact (changes_prim rfl)

theorem changes_deliver (a0 a1) : Act.Changes [.hural] (deliver a0 a1) := by
  unfold deliver
  exact (changes_ask fun _ => (changes_ite (changes_updHural _) (changes_updHural _)))

theorem changes_putFlits (a0 a1) : Act.Changes [.out] (putFlits a0 a1) := by
  unfold putFlits
  exact (changes_ask fun _ => (changes_ite (changes_each fun _ => (changes_send _)) (changes_each fun _ => (changes_send _))))

theorem changes_updPort (a0 a1) : Act.Changes [.hural] (updPort a0 a1) := by
  unfold updPort
  exact (changes_prim rfl)

theorem changes_pump (a0) : Act.Changes [.out, .hural] (pump a0) := by
  unfold pump
  exact (changes_ask fun _ => (changes_ite (changes_cons ((changes_updPort _ _).up rfl) (changes_cons ((changes_putFlits _ _).up rfl) changes_nil)) changes_skip))

theorem changes_enqueue (a0 a1) : Act.Changes [.out, .hural] (enqueue a0 a1) := by
  unfold enqueue
  exact (changes_seq ((changes_updPort _ _).up rfl) (changes_pump _))

theorem changes_sendMsg (a0) : Act.Changes [.out, .hural] (sendMsg a0) := by
  unfold sendMsg
  exact (changes_ask fun _ => (changes_ite ((changes_deliver _ _).up rfl) (by
    split
    · exact (changes_enqueue _ _)
    · exact ((changes_updHural _).up rfl))))

theorem changes_rerouteWaiting (a0) : Act.Changes [.out, .hural] (rerouteWaiting a0) := by
  unfold rerouteWaiting
  exact (changes_ask fun _ => (changes_cons (changes_each fun _ => ((changes_updPort _ _).up rfl)) (changes_cons ((changes_updHural _).up rfl) (changes_cons (changes_each fun _ => (changes_sendMsg _)) changes_nil))))

theorem changes_sendRequest (a0 a1 a2 a3 a4 a5) : Act.Changes [.out, .hural] (sendRequest a0 a1 a2 a3 a4 a5) := by
  unfold sendRequest
  exact (changes_ask fun _ => (changes_cons ((changes_updHural _).up rfl) (changes_cons (changes_sendMsg _) changes_nil)))

theorem changes_sendBulk (a0 a1 a2 a3) : Act.Changes [.out, .hural] (sendBulk a0 a1 a2 a3) := by
  unfold sendBulk
  exact (changes_each fun _ => (changes_sendRequest _ _ _ _ _ _))

theorem changes_sendControl (a0 a1 a2) : Act.Changes [.out, .hural] (sendControl a0 a1 a2) := by
  unfold sendControl
  exact (changes_ask fun _ => (changes_ite (changes_cons ((changes_updPort _ _).up rfl) (changes_cons ((changes_putFlits _ _).up rfl) changes_nil)) changes_skip))

theorem changes_sendNak (a0) : Act.Changes [.out, .hural] (sendNak a0) := by
  unfold sendNak
  exact (changes_ask fun _ => (changes_sendControl _ _ _))

theorem changes_sendNote (a0 a1 a2) : Act.Changes [.out, .hural] (sendNote a0 a1 a2) := by
  unfold sendNote
  exact (changes_ask fun _ => (changes_sendMsg _))

theorem changes_sendRead (a0 a1 a2 a3) : Act.Changes [.out, .hural] (sendRead a0 a1 a2 a3) := by
  unfold sendRead
  exact (changes_each fun _ => (changes_sendRequest _ _ _ _ _ _))

theorem changes_sendWrite (a0 a1 a2 a3) : Act.Changes [.out, .hural] (sendWrite a0 a1 a2 a3) := by
  unfold sendWrite
  exact (changes_each fun _ => (changes_sendRequest _ _ _ _ _ _))

theorem changes_faultRecord (a0 a1 a2 a3) : Act.Changes [.regs, .mem, .tier, .coh] (faultRecord a0 a1 a2 a3) := by
  unfold faultRecord
  exact (changes_ask fun _ => (changes_ite (changes_cons ((changes_addF _ _ _ _).up rfl) (changes_cons ((changes_evt _ _ _).up rfl) changes_nil)) (changes_cons (changes_pkgWrite _ _) (changes_cons ((changes_setF _ _ _ _).up rfl) changes_nil))))

theorem changes_absentRecord (a0 a1) : Act.Changes [.regs, .mem, .tier, .coh] (absentRecord a0 a1) := by
  unfold absentRecord
  exact (changes_ask fun _ => (changes_faultRecord _ _ _ _))

theorem changes_farNote (a0 a1 a2 a3) : Act.Changes [.bell] (farNote a0 a1 a2 a3) := by
  unfold farNote
  exact (changes_prim rfl)

theorem changes_farWrite (a0 a1 a2 a3 a4) : Act.Changes [.out, .hural, .bell] (farWrite a0 a1 a2 a3 a4) := by
  unfold farWrite
  exact (by
    split
    · exact (changes_ask fun _ => (changes_seq ((changes_farNote _ _ _ _).up rfl) ((changes_sendWrite _ _ _ _).up rfl)))
    · exact ((changes_sendWrite _ _ _ _).up rfl))

theorem changes_updTier (a0) : Act.Changes [.tier] (updTier a0) := by
  unfold updTier
  exact (changes_prim rfl)

theorem changes_setPage (a0 a1) : Act.Changes [.regs, .mem, .tier, .coh] (setPage a0 a1) := by
  unfold setPage
  exact (changes_ask fun _ => (changes_cons ((changes_updTier _).up rfl) (changes_cons (changes_pkgWrite _ _) changes_nil)))

theorem changes_unpoison (a0 a1 a2) : Act.Changes [.regs, .mem, .tier, .coh] (unpoison a0 a1 a2) := by
  unfold unpoison
  exact (changes_when (changes_cons ((changes_updTier _).up rfl) (changes_cons (changes_ask fun _ => (changes_pkgWrite _ _)) (changes_cons (changes_ask fun _ => (changes_when (changes_setPage _ _))) changes_nil))))

theorem changes_frameUnpoison (a0 a1) : Act.Changes [.regs, .mem, .tier, .coh] (frameUnpoison a0 a1) := by
  unfold frameUnpoison
  exact (changes_ask fun _ => (by
    split
    · exact (changes_unpoison _ _ _)
    · exact changes_skip))

theorem changes_specDiscard (a0 a1) : Act.Changes [.log] (specDiscard a0 a1) := by
  unfold specDiscard
  exact (changes_logEv _ _ _ _)

theorem changes_touchPage (a0) : Act.Changes [.free, .regs, .mem, .tier, .coh] (touchPage a0) := by
  unfold touchPage
  exact (changes_ask fun _ => (changes_cons (changes_ite (by unfold withFree; exact (changes_seq (changes_ask fun _ => changes_skip) (changes_prim rfl))) ((changes_updTier _).up rfl)) (changes_cons (changes_when ((changes_pkgWrite _ _).up rfl)) changes_nil)))

theorem changes_usePage (a0) : Act.Changes [.free, .regs, .mem, .tier, .coh] (usePage a0) := by
  unfold usePage
  exact (changes_when (changes_touchPage _))

theorem changes_writePiece (a0 a1 a2 a3) : Act.Changes [.free, .out, .regs, .mem, .log, .tier, .coh, .hural, .bell] (writePiece a0 a1 a2 a3) := by
  unfold writePiece
  exact (changes_ask fun _ => (changes_cons ((changes_usePage _).up rfl) (changes_cons (by
    split
    · exact (changes_ite ((changes_specDiscard _ _).up rfl) (by
        split
        · exact (changes_cons ((changes_storeMem _ _ _).up rfl) (changes_cons (changes_when ((changes_frameUnpoison _ _).up rfl)) changes_nil))
        · exact (changes_cons ((changes_storeMem _ _ _).up rfl) (changes_cons ((changes_unpoison _ _ _).up rfl) changes_nil))))
    · exact (changes_ite ((changes_specDiscard _ _).up rfl) (changes_cons (changes_when (changes_cons ((changes_updTier _).up rfl) (changes_cons ((changes_unpoison _ _ _).up rfl) changes_nil))) (changes_cons ((changes_farWrite _ _ _ _ _).up rfl) changes_nil)))
    · exact (changes_ite ((changes_specDiscard _ _).up rfl) (changes_cons (by
        split
        · exact ((changes_farNote _ _ _ _).up rfl)
        · exact changes_skip) (changes_cons ((changes_send _).up rfl) changes_nil)))
    · exact changes_skip) changes_nil)))

theorem changes_mapWrite (a0 a1 a2 a3) : Act.Changes [.free, .out, .regs, .mem, .log, .tier, .coh, .hural, .bell] (mapWrite a0 a1 a2 a3) := by
  unfold mapWrite
  exact (changes_cons (changes_each fun _ => (changes_writePiece _ _ _ _)) (changes_cons (changes_ask fun _ => (by
    split
    · exact ((changes_clearBlocks _ _ _).up rfl)
    · exact changes_skip)) changes_nil))

theorem changes_piecesDone (a0) : Act.Changes [.free, .out, .regs, .mem, .tier, .coh] (piecesDone a0) := by
  unfold piecesDone
  exact (changes_ask fun _ => (changes_each fun _ => (changes_cons ((changes_usePage _).up rfl) (changes_cons (by
    split
    · exact ((changes_send _).up rfl)
    · exact changes_skip) changes_nil))))

theorem changes_readDone (a0 a1) : Act.Changes [.free, .out, .regs, .mem, .tier, .coh] (readDone a0 a1) := by
  unfold readDone
  exact (changes_piecesDone _)

theorem changes_readFar (a0 a1) : Act.Changes [.free, .out, .regs, .mem, .tier, .coh, .hural] (readFar a0 a1) := by
  unfold readFar
  exact (changes_ask fun _ => (by
    split
    · exact (changes_cons ((changes_usePage _).up rfl) (changes_cons ((changes_sendRead _ _ _ _).up rfl) changes_nil))
    · exact (by unfold withFree; exact (changes_seq (changes_ask fun _ => (changes_cons ((changes_respond _ _ _).up rfl) (changes_cons ((changes_readDone _ _).up rfl) changes_nil))) (changes_prim rfl)))))

theorem changes_accessServe (a0 a1 a2) : Act.Changes [.free, .out, .regs, .mem, .log, .tier, .coh, .hural, .bell] (accessServe a0 a1 a2) := by
  unfold accessServe
  exact (by
    split
    · exact (changes_ask fun _ => (changes_ite (changes_each fun _ => ((changes_readFar _ _).up rfl)) (by unfold withFree; exact (changes_seq (changes_ask fun _ => (changes_ask fun _ => (changes_cons ((changes_respond _ _ _).up rfl) (changes_cons ((changes_readDone _ _).up rfl) changes_nil)))) (changes_prim rfl)))))
    · exact (changes_cons (changes_mapWrite _ _ _ _) (changes_cons ((changes_respond _ _ _).up rfl) changes_nil)))

theorem changes_accessWaits (a0 a1 a2 a3 a4) : Act.Changes [.tier] (accessWaits a0 a1 a2 a3 a4) := by
  unfold accessWaits
  exact (changes_ask fun _ => (changes_updTier _))

theorem changes_setObjState (a0 a1) : Act.Changes [.regs, .mem, .tier, .coh] (setObjState a0 a1) := by
  unfold setObjState
  exact (changes_ask fun _ => (changes_pkgWrite _ _))

theorem changes_objectPoisoned (a0 a1 a2 a3 a4) : Act.Changes [.regs, .mem, .tier, .coh] (objectPoisoned a0 a1 a2 a3 a4) := by
  unfold objectPoisoned
  exact (changes_ask fun _ => (changes_cons (changes_setPage _ _) (changes_cons (changes_pkgWrite _ _) (changes_cons (changes_when (changes_pkgWrite _ _)) (changes_cons (changes_setObjState _ _) (changes_cons (changes_faultRecord _ _ _ _) changes_nil))))))

theorem changes_poisonLine (a0 a1) : Act.Changes [.regs, .mem, .log, .tier, .coh] (poisonLine a0 a1) := by
  unfold poisonLine
  exact (changes_ask fun _ => (changes_ite changes_skip (changes_cons ((changes_updTier _).up rfl) (changes_cons (changes_ite (changes_cons ((changes_faultRecord _ _ _ _).up rfl) (changes_cons ((changes_evt _ _ _).up rfl) (changes_cons ((changes_logEv _ _ _ _).up rfl) changes_nil))) (by
    split
    · exact (changes_cons ((changes_objectPoisoned _ _ _ _ _).up rfl) (changes_cons ((changes_evt _ _ _).up rfl) (changes_cons ((changes_logEv _ _ _ _).up rfl) changes_nil)))
    · exact changes_skip)) changes_nil))))

theorem changes_eccCheck (a0 a1 a2) : Act.Changes [.free, .regs, .mem, .log, .tier, .coh] (eccCheck a0 a1 a2) := by
  unfold eccCheck
  exact (changes_ite changes_skip (changes_ite ((changes_incF _ _ _ _).up rfl) (changes_ite (changes_cons ((changes_incF _ _ _ _).up rfl) (changes_cons ((changes_poisonLine _ _).up rfl) changes_nil)) (by (try dsimp only); unfold withFree; exact (changes_seq (changes_ask fun _ => (changes_ite (changes_cons ((changes_incF _ _ _ _).up rfl) (changes_cons ((changes_poisonLine _ _).up rfl) changes_nil)) (changes_cons ((changes_incF _ _ _ _).up rfl) (changes_cons ((changes_writeMem _ _).up rfl) changes_nil)))) (changes_prim rfl))))))

theorem changes_fetchAnswer (a0 a1 a2) : Act.Changes [.tier] (fetchAnswer a0 a1 a2) := by
  unfold fetchAnswer
  exact (changes_updTier _)

theorem changes_fetchDrop (a0) : Act.Changes [.tier, .hural] (fetchDrop a0) := by
  unfold fetchDrop
  exact (changes_cons ((changes_updTier _).up rfl) (changes_cons ((changes_updHural _).up rfl) changes_nil))

theorem changes_fetchSend (a0 a1) : Act.Changes [.free, .out, .regs, .mem, .tier, .coh, .hural] (fetchSend a0 a1) := by
  unfold fetchSend
  exact (changes_each fun _ => (changes_ask fun _ => (by
    split
    · exact (changes_cons ((changes_usePage _).up rfl) (changes_cons ((changes_updTier _).up rfl) (changes_cons ((changes_sendRead _ _ _ _).up rfl) changes_nil)))
    · exact changes_skip)))

theorem changes_stallWaits (a0 a1 a2 a3 a4) : Act.Changes [.regs, .mem, .tier, .coh] (stallWaits a0 a1 a2 a3 a4) := by
  unfold stallWaits
  exact (changes_ask fun _ => (changes_cons (changes_when (changes_absentRecord _ _)) (changes_cons ((changes_accessWaits _ _ _ _ _).up rfl) changes_nil)))

theorem changes_memAccess (a0 a1 a2 a3) : Act.Changes [.free, .out, .regs, .mem, .log, .tier, .coh, .hural, .bell] (memAccess a0 a1 a2 a3) := by
  unfold memAccess
  exact (changes_ask fun _ => (by
    try dsimp only
    split
    · exact ((changes_accessFault _ _).up rfl)
    · exact ((changes_stallWaits _ _ _ _ _).up rfl)
    · exact (changes_ite ((changes_accessWaits _ _ _ _ _).up rfl) (changes_ite ((changes_accessWaits _ _ _ _ _).up rfl) (changes_accessServe _ _ _)))))

theorem changes_pageLost (a0) : Act.Changes [.regs, .mem, .log, .tier, .coh] (pageLost a0) := by
  unfold pageLost
  exact (changes_ask fun _ => (changes_cons ((changes_updTier _).up rfl) (changes_cons ((changes_objectPoisoned _ _ _ _ _).up rfl) (changes_cons ((changes_evt _ _ _).up rfl) (changes_cons ((changes_evt _ _ _).up rfl) (changes_cons ((changes_logEv _ _ _ _).up rfl) changes_nil))))))

theorem changes_patrol (a0 a1) : Act.Changes [.free, .regs, .mem, .log, .tier, .coh] (patrol a0 a1) := by
  unfold patrol
  exact (changes_when (changes_eccCheck _ _ _))

theorem changes_putsDrop (a0) : Act.Changes [.hural] (putsDrop a0) := by
  unfold putsDrop
  exact (changes_updHural _)

theorem changes_unitGoes (a0) : Act.Changes [.tier] (unitGoes a0) := by
  unfold unitGoes
  exact (changes_updTier _)

theorem changes_unitStall (a0 a1) : Act.Changes [.regs, .mem, .tier, .coh] (unitStall a0 a1) := by
  unfold unitStall
  exact (changes_ask fun _ => (changes_cons (changes_when ((changes_incF _ _ _ _).up rfl)) (changes_cons (changes_when (changes_absentRecord _ _)) (changes_cons ((changes_updTier _).up rfl) changes_nil))))

theorem changes_endResv (a0 a1) : Act.Changes [.coh] (endResv a0 a1) := by
  unfold endResv
  exact (changes_updAgent _ _)

theorem changes_setCopy (a0 a1 a2) : Act.Changes [.coh] (setCopy a0 a1 a2) := by
  unfold setCopy
  exact (changes_updAgent _ _)

theorem changes_evictLine (a0 a1) : Act.Changes [.coh] (evictLine a0 a1) := by
  unfold evictLine
  exact (changes_ask fun _ => (by
    split
    · exact changes_skip
    · exact (changes_cons (changes_setCopy _ _ _) (changes_cons (changes_endResv _ _) (changes_cons (by
        split
        · exact (changes_updAgent _ _)
        · exact (changes_updAgent _ _)
        · exact (changes_updAgent _ _)
        · exact (changes_updAgent _ _)
        · exact changes_skip) changes_nil)))))

theorem changes_agentEvict (a0 a1) : Act.Changes [.coh] (agentEvict a0 a1) := by
  unfold agentEvict
  exact (changes_ask fun _ => (changes_ite changes_skip (changes_evictLine _ _)))

theorem changes_coreAct (a0 a1 a2) : Act.Changes [.out, .regs, .coh] (coreAct a0 a1 a2) := by
  unfold coreAct
  exact (changes_ask fun _ => (by
    split
    · exact changes_skip
    · exact (by
        try dsimp only
        split
        · exact ((changes_send _).up rfl)
        · exact (changes_cons ((changes_setCopy _ _ _).up rfl) (changes_cons ((changes_endResv _ _).up rfl) changes_nil))
        · exact (changes_cons (changes_cons ((changes_setCopy _ _ _).up rfl) (changes_cons ((changes_endResv _ _).up rfl) changes_nil)) (changes_cons ((changes_send _).up rfl) (changes_cons ((changes_incF _ _ _ _).up rfl) changes_nil)))
        · exact (changes_cons ((changes_updAgent _ _).up rfl) (changes_cons ((changes_send _).up rfl) changes_nil))
        · exact (changes_ite (changes_cons (changes_cons ((changes_setCopy _ _ _).up rfl) (changes_cons ((changes_endResv _ _).up rfl) changes_nil)) (changes_cons ((changes_send _).up rfl) changes_nil)) ((changes_send _).up rfl)))))

theorem changes_updCoh (a0) : Act.Changes [.coh] (updCoh a0) := by
  unfold updCoh
  exact (changes_prim rfl)

theorem changes_request (a0 a1 a2 a3) : Act.Changes [.coh] (request a0 a1 a2 a3) := by
  unfold request
  exact (changes_cons (changes_updAgent _ _) (changes_cons (changes_updCoh _) changes_nil))

theorem changes_requestNew (a0 a1 a2) : Act.Changes [.free, .coh] (requestNew a0 a1 a2) := by
  unfold requestNew
  exact (changes_ask fun _ => (changes_ite ((changes_request _ _ _ _).up rfl) (by
    try dsimp only
    split
    · exact changes_skip
    · exact (by (try dsimp only); unfold withFree; exact (changes_seq (changes_ask fun _ => (changes_seq ((changes_evictLine _ _).up rfl) ((changes_request _ _ _ _).up rfl))) (changes_prim rfl))))))

theorem changes_coreRequest (a0 a1 a2) : Act.Changes [.free, .out, .regs, .coh] (coreRequest a0 a1 a2) := by
  unfold coreRequest
  exact (changes_ask fun _ => (changes_ite changes_skip (by
    split
    · exact ((changes_requestNew _ _ _).up rfl)
    · exact (changes_ite ((changes_coreAct _ _ _).up rfl) ((changes_request _ _ _ _).up rfl)))))

theorem changes_dirRequest (a0) : Act.Changes [.coh] (dirRequest a0) := by
  unfold dirRequest
  exact (changes_updCoh _)

theorem changes_predMove (a0 a1 a2) : Act.Changes [.coh] (predMove a0 a1 a2) := by
  unfold predMove
  exact (changes_updAgent _ _)

theorem changes_nearAct (a0 a1) : Act.Changes [.out, .regs, .mem, .tier, .coh] (nearAct a0 a1) := by
  unfold nearAct
  exact (changes_cons ((changes_dropCopies _ _).up rfl) (changes_cons ((changes_predMove _ _ _).up rfl) (changes_cons (changes_ask fun _ => (changes_cons ((changes_storeMem _ _ _).up rfl) (changes_cons ((changes_send _).up rfl) (changes_cons ((changes_incF _ _ _ _).up rfl) changes_nil)))) changes_nil)))

theorem changes_openTx (a0 a1 a2 a3) : Act.Changes [.coh] (openTx a0 a1 a2 a3) := by
  unfold openTx
  exact (changes_ask fun _ => (changes_updCoh _))

theorem changes_nearHome (a0) : Act.Changes [.out, .regs, .mem, .tier, .coh] (nearHome a0) := by
  unfold nearHome
  exact (changes_ask fun _ => (changes_ite ((changes_updCoh _).up rfl) (changes_seq ((changes_dirRequest _).up rfl) (changes_ite (changes_nearAct _ _) ((changes_openTx _ _ _ _).up rfl)))))

theorem changes_amo (a0 a1 a2 a3 a4 a5) : Act.Changes [.free, .out, .regs, .mem, .log, .tier, .coh] (amo a0 a1 a2 a3 a4 a5) := by
  unfold amo
  exact (by (try dsimp only); unfold atAtomic; exact (changes_ask fun _ => (by
    try dsimp only
    split
    · exact (changes_seq ((changes_usePage _).up rfl) (changes_ask fun _ => (changes_ite (changes_ite changes_skip (changes_ite ((changes_accessWaits _ _ _ _ _).up rfl) (changes_ite ((changes_accessWaits _ _ _ _ _).up rfl) ((changes_nearHome _).up rfl)))) (by
        try dsimp only
        split
        · exact (changes_cons (changes_when ((changes_predMove _ _ _).up rfl)) (changes_cons ((changes_coreRequest _ _ _).up rfl) changes_nil))
        · exact ((changes_coreRequest _ _ _).up rfl)))))
    · exact ((changes_stallWaits _ _ _ _ _).up rfl)
    · exact (changes_cons ((changes_send _).up rfl) (changes_cons ((changes_logEv _ _ _ _).up rfl) changes_nil)))))

theorem changes_coreAccess (a0 a1 a2 a3) : Act.Changes [.free, .out, .regs, .mem, .log, .tier, .coh, .hural, .bell] (coreAccess a0 a1 a2 a3) := by
  unfold coreAccess
  exact (changes_ask fun _ => (by
    split
    · exact (changes_ite (changes_seq ((changes_usePage _).up rfl) ((changes_coreRequest _ _ _).up rfl)) (changes_memAccess _ _ _ _))
    · exact (changes_ite ((changes_stallWaits _ _ _ _ _).up rfl) (changes_memAccess _ _ _ _))
    · exact (changes_memAccess _ _ _ _)))

theorem changes_lrSc (a0 a1 a2 a3 a4 a5) : Act.Changes [.free, .out, .regs, .mem, .log, .tier, .coh] (lrSc a0 a1 a2 a3 a4 a5) := by
  unfold lrSc
  exact (by unfold atAtomic; exact (changes_ask fun _ => (by
    try dsimp only
    split
    · exact (changes_seq ((changes_usePage _).up rfl) (changes_ask fun _ => (changes_ite ((changes_coreRequest _ _ _).up rfl) (changes_ite ((changes_coreRequest _ _ _).up rfl) ((changes_send _).up rfl)))))
    · exact ((changes_stallWaits _ _ _ _ _).up rfl)
    · exact (changes_cons ((changes_send _).up rfl) (changes_cons ((changes_logEv _ _ _ _).up rfl) changes_nil)))))

theorem changes_coreAgain (a0 a1 a2) : Act.Changes [.free, .out, .regs, .mem, .log, .tier, .coh, .hural, .bell] (coreAgain a0 a1 a2) := by
  unfold coreAgain
  exact (by
    split
    · exact ((changes_amo _ _ _ _ _ _).up rfl)
    · exact ((changes_lrSc _ _ _ _ _ _).up rfl)
    · exact ((changes_lrSc _ _ _ _ _ _).up rfl)
    · exact (changes_coreAccess _ _ _ _))

theorem changes_setDir (a0 a1) : Act.Changes [.coh] (setDir a0 a1) := by
  unfold setDir
  exact (changes_updCoh _)

theorem changes_writeBack (a0 a1) : Act.Changes [.mem, .tier] (writeBack a0 a1) := by
  unfold writeBack
  exact (changes_cons ((changes_writeMem _ _).up rfl) (changes_cons (changes_ask fun _ => ((changes_updTier _).up rfl)) changes_nil))

theorem changes_accountPage (a0 a1 a2) : Act.Changes [.regs] (accountPage a0 a1 a2) := by
  unfold accountPage
  exact (changes_when (changes_cons (changes_modF _ _ _ _) (changes_cons (changes_ask fun _ => (changes_when (changes_setF _ _ _ _))) changes_nil)))

theorem changes_moveInfo (a0 a1) : Act.Changes [.tier] (moveInfo a0 a1) := by
  unfold moveInfo
  exact (changes_updTier _)

theorem changes_settleFrame (a0) : Act.Changes [.regs, .mem, .coh] (settleFrame a0) := by
  unfold settleFrame
  exact (changes_ask fun _ => (changes_each fun _ => (changes_dropCopies _ _)))

theorem changes_copyFrame (a0 a1) : Act.Changes [.regs, .mem, .tier, .coh] (copyFrame a0 a1) := by
  unfold copyFrame
  exact (changes_cons ((changes_settleFrame _).up rfl) (changes_cons ((changes_fillFrame _ _).up rfl) (changes_cons (changes_ask fun _ => (changes_cons (changes_each fun _ => (changes_prim rfl)) (changes_cons ((changes_moveInfo _ _).up rfl) changes_nil))) changes_nil)))

theorem changes_copyPage (a0 a1) : Act.Changes [.free, .out, .regs, .mem, .tier, .coh, .hural] (copyPage a0 a1) := by
  unfold copyPage
  exact (changes_ite (by unfold withFree; exact (changes_seq (changes_ask fun _ => (changes_ask fun _ => (changes_cons ((changes_sendWrite _ _ _ _).up rfl) (changes_cons ((changes_moveInfo _ _).up rfl) changes_nil)))) (changes_prim rfl))) (changes_ite (by unfold withFree; exact (changes_seq (changes_ask fun _ => (changes_ask fun _ => (changes_cons ((changes_fillFrame _ _).up rfl) (changes_cons ((changes_storeMem _ _ _).up rfl) (changes_cons ((changes_moveInfo _ _).up rfl) changes_nil))))) (changes_prim rfl))) ((changes_copyFrame _ _).up rfl)))

theorem changes_dropWait (a0) : Act.Changes [.tier] (dropWait a0) := by
  unfold dropWait
  exact (changes_updTier _)

theorem changes_grantWaiting (a0) : Act.Changes [.out, .regs, .mem, .tier, .coh, .hural] (grantWaiting a0) := by
  induction a0 with
  | zero =>
    unfold grantWaiting
    repeat' first
      | with_reducible exact changes_skip
      | with_reducible refine changes_cons ?_ ?_
      | with_reducible exact changes_nil
      | with_reducible refine changes_seq ?_ ?_
      | with_reducible refine changes_when ?_
      | with_reducible refine changes_given ?_
      | with_reducible refine changes_each fun _ => ?_
      | ((with_reducible refine changes_prim ?_); exact rfl)
      | ((with_reducible refine Act.Changes.up (changes_fillFrame _ _) ?_); exact rfl)
      | ((with_reducible refine Act.Changes.up (changes_modF _ _ _ _) ?_); exact rfl)
      | ((with_reducible refine Act.Changes.up (changes_sendMsg _) ?_); exact rfl)
      | ((with_reducible refine Act.Changes.up (changes_updHural _) ?_); exact rfl)
      | ((with_reducible refine Act.Changes.up (changes_updTier _) ?_); exact rfl)
      | with_reducible refine changes_ask fun _ => ?_
      | with_reducible refine changes_ite ?_ ?_
      | split
      | (dsimp only; split)
  | succ n ih =>
    unfold grantWaiting
    repeat' first
      | with_reducible exact changes_skip
      | exact ih
      | with_reducible refine changes_cons ?_ ?_
      | with_reducible exact changes_nil
      | with_reducible refine changes_seq ?_ ?_
      | with_reducible refine changes_when ?_
      | with_reducible refine changes_given ?_
      | with_reducible refine changes_each fun _ => ?_
      | ((with_reducible refine changes_prim ?_); exact rfl)
      | ((with_reducible refine Act.Changes.up (changes_fillFrame _ _) ?_); exact rfl)
      | ((with_reducible refine Act.Changes.up (changes_modF _ _ _ _) ?_); exact rfl)
      | ((with_reducible refine Act.Changes.up (changes_sendMsg _) ?_); exact rfl)
      | ((with_reducible refine Act.Changes.up (changes_updHural _) ?_); exact rfl)
      | ((with_reducible refine Act.Changes.up (changes_updTier _) ?_); exact rfl)
      | with_reducible refine changes_ask fun _ => ?_
      | with_reducible refine changes_ite ?_ ?_
      | split
      | (dsimp only; split)

theorem changes_lentFreed (a0) : Act.Changes [.out, .regs, .mem, .tier, .coh, .hural] (lentFreed a0) := by
  unfold lentFreed
  exact (changes_ask fun _ => (changes_when (changes_cons ((changes_updTier _).up rfl) (changes_cons ((changes_modF _ _ _ _).up rfl) (changes_cons ((changes_modF _ _ _ _).up rfl) (changes_cons (changes_grantWaiting _) changes_nil))))))

theorem changes_evictionDeadline (a0) : Act.Changes [.out, .regs, .mem, .log, .tier, .coh, .hural] (evictionDeadline a0) := by
  unfold evictionDeadline
  exact (changes_ask fun _ => (changes_cons (by
    split
    · exact (changes_when ((changes_lentFreed _).up rfl))
    · exact changes_skip) (changes_cons (by
    split
    · exact (changes_when (changes_cons ((changes_updTier _).up rfl) (changes_cons (changes_each fun _ => ((changes_pageLost _).up rfl)) changes_nil)))
    · exact changes_skip) changes_nil)))

theorem changes_freeFrame (a0 a1) : Act.Changes [.out, .tier, .hural] (freeFrame a0 a1) := by
  unfold freeFrame
  exact (changes_when (changes_cons ((changes_sendNote _ _ _).up rfl) (changes_cons ((changes_updTier _).up rfl) changes_nil)))

theorem changes_grantRequest (a0 a1 a2) : Act.Changes [.out, .regs, .mem, .tier, .coh, .hural] (grantRequest a0 a1 a2) := by
  unfold grantRequest
  exact (changes_ask fun _ => (changes_ite ((changes_sendMsg _).up rfl) (changes_cons ((changes_updHural _).up rfl) (changes_cons (changes_ite (changes_grantWaiting _) (by
    split
    · exact (changes_cons ((changes_updTier _).up rfl) (changes_cons ((changes_sendNote _ _ _).up rfl) changes_nil))
    · exact changes_skip)) changes_nil))))

theorem changes_retryAccess (a0) : Act.Changes [.free, .out, .regs, .mem, .log, .tier, .coh, .hural, .bell] (retryAccess a0) := by
  unfold retryAccess
  exact (by
    split
    · exact (changes_memAccess _ _ _ _)
    · exact ((changes_updCoh _).up rfl)
    · exact (changes_coreAgain _ _ _))

theorem changes_heldRelease (a0) : Act.Changes [.free, .out, .regs, .mem, .log, .tier, .coh, .hural, .bell] (heldRelease a0) := by
  unfold heldRelease
  exact (changes_ask fun _ => (by
    split
    · exact (changes_ite (changes_cons ((changes_dropWait _).up rfl) (changes_cons (changes_retryAccess _) changes_nil)) changes_skip)
    · exact changes_skip))

theorem changes_migStatus (a0) : Act.Changes [.regs, .mem, .tier, .coh] (migStatus a0) := by
  unfold migStatus
  exact (changes_ask fun _ => (by
    split
    · exact (changes_pkgWrite _ _)
    · exact changes_skip))

theorem changes_migFinish (a0) : Act.Changes [.regs, .mem, .tier, .coh] (migFinish a0) := by
  unfold migFinish
  exact (changes_cons (changes_migStatus _) (changes_cons ((changes_updTier _).up rfl) (changes_cons (changes_ask fun _ => ((changes_setF _ _ _ _).up rfl)) changes_nil)))

theorem changes_moveBegin (a0 a1 a2) : Act.Changes [.free, .out, .regs, .mem, .tier, .coh, .hural] (moveBegin a0 a1 a2) := by
  unfold moveBegin
  exact (changes_ask fun _ => (changes_cons ((changes_setPage _ _).up rfl) (changes_cons ((changes_updTier _).up rfl) (changes_cons (changes_when (changes_fetchSend _ _)) changes_nil))))

theorem changes_retryStalled : Act.Changes [.free, .out, .regs, .mem, .log, .tier, .coh, .hural, .bell] retryStalled := by
  unfold retryStalled
  exact (changes_ask fun _ => (changes_when (changes_cons ((changes_updTier _).up rfl) (changes_cons (changes_each fun _ => (changes_retryAccess _)) changes_nil))))

theorem changes_placePage (a0 a1 a2) : Act.Changes [.free, .out, .regs, .mem, .log, .tier, .coh, .hural, .bell] (placePage a0 a1 a2) := by
  unfold placePage
  exact (changes_ask fun _ => (changes_cons (changes_when ((changes_fillFrame _ _).up rfl)) (changes_cons ((changes_updTier _).up rfl) (changes_cons ((changes_setPage _ _).up rfl) (changes_cons ((changes_accountPage _ _ _).up rfl) (changes_cons ((changes_migFinish _).up rfl) (changes_cons changes_retryStalled changes_nil)))))))

theorem changes_migRun (a0) : Act.Changes [.free, .out, .regs, .mem, .log, .tier, .coh, .hural, .bell] (migRun a0) := by
  unfold migRun
  exact (changes_ask fun s => (by
    split
    · exact changes_skip
    · refine changes_ite changes_skip ?_
      generalize s.tier.mig = y
      cases y <;> first
        | exact changes_skip
        | exact (changes_ite (changes_placePage _ _ _) ((changes_moveBegin _ _ _).up rfl))
        | exact (changes_ite ((changes_migFinish _).up rfl) (changes_ite changes_skip (changes_ite (changes_cons ((changes_migStatus _).up rfl) (changes_cons ((changes_updTier _).up rfl) changes_nil)) (changes_ite (changes_cons ((changes_migStatus _).up rfl) (changes_cons ((changes_updTier _).up rfl) (changes_cons ((changes_sendRequest _ _ _ _ _ _).up rfl) changes_nil))) (changes_ite (changes_placePage _ _ _) ((changes_moveBegin _ _ _).up rfl))))))))

theorem changes_migTail (a0) : Act.Changes [.regs] (migTail a0) := by
  unfold migTail
  exact (changes_setF _ _ _ _)

theorem changes_moveDone : Act.Changes [.free, .out, .regs, .mem, .log, .tier, .coh, .hural, .bell] moveDone := by
  unfold moveDone
  exact (changes_ask fun _ => (by
    split
    · exact (changes_when (changes_cons ((changes_copyPage _ _).up rfl) (changes_cons ((changes_fetchDrop _).up rfl) (changes_cons ((changes_setPage _ _).up rfl) (changes_cons ((changes_accountPage _ _ _).up rfl) (changes_cons ((changes_accountPage _ _ _).up rfl) (changes_cons ((changes_migFinish _).up rfl) (changes_cons changes_retryStalled (changes_cons ((changes_freeFrame _ _).up rfl) changes_nil)))))))))
    · exact changes_skip))

theorem changes_objRebuild (a0) : Act.Changes [.regs, .mem, .tier, .coh] (objRebuild a0) := by
  unfold objRebuild
  exact (changes_cons ((changes_setF _ _ _ _).up rfl) (changes_cons (changes_ask fun _ => (changes_when (changes_cons (changes_setObjState _ _) (changes_cons ((changes_setF _ _ _ _).up rfl) (changes_cons ((changes_setF _ _ _ _).up rfl) changes_nil))))) changes_nil))

theorem changes_objRelease (a0) : Act.Changes [.free, .out, .regs, .mem, .log, .tier, .coh, .hural, .bell] (objRelease a0) := by
  unfold objRelease
  exact (changes_cons ((changes_setF _ _ _ _).up rfl) (changes_cons (changes_ask fun _ => (changes_ite changes_skip (changes_ite (changes_cons ((changes_setObjState _ _).up rfl) (changes_cons ((changes_setF _ _ _ _).up rfl) (changes_cons ((changes_setF _ _ _ _).up rfl) (changes_cons changes_retryStalled changes_nil)))) (changes_cons ((changes_setF _ _ _ _).up rfl) (changes_cons ((changes_setF _ _ _ _).up rfl) (changes_cons ((changes_logEv _ _ _ _).up rfl) changes_nil)))))) changes_nil))

theorem changes_quotaJudge (a0 a1) : Act.Changes [.regs, .log] (quotaJudge a0 a1) := by
  unfold quotaJudge
  exact (changes_ask fun _ => (changes_cons (changes_when ((changes_setF _ _ _ _).up rfl)) (changes_cons (changes_when ((changes_setF _ _ _ _).up rfl)) (changes_cons (changes_when ((changes_setF _ _ _ _).up rfl)) (changes_cons (changes_when ((changes_setF _ _ _ _).up rfl)) (changes_cons (changes_when (changes_cons ((changes_evt _ _ _).up rfl) (changes_cons ((changes_logEv _ _ _ _).up rfl) changes_nil))) changes_nil))))))

theorem changes_quotaCheck (a0) : Act.Changes [.regs, .log] (quotaCheck a0) := by
  unfold quotaCheck
  exact (changes_each fun _ => (changes_quotaJudge _ _))

theorem changes_quotaRelease : Act.Changes [.free, .out, .regs, .mem, .log, .tier, .coh, .hural, .bell] quotaRelease := by
  unfold quotaRelease
  exact (changes_ask fun _ => (by
    split
    · exact (changes_ite (changes_cons ((changes_migStatus _).up rfl) (changes_cons ((changes_updTier _).up rfl) (changes_cons (changes_migRun _) changes_nil))) changes_skip)
    · exact changes_skip))

theorem changes_tierInval : Act.Changes [.regs] tierInval := by
  unfold tierInval
  exact (changes_setF _ _ _ _)

theorem changes_tierInvalDone : Act.Changes [.regs, .tier] tierInvalDone := by
  unfold tierInvalDone
  exact (changes_seq ((changes_updTier _).up rfl) ((changes_setF _ _ _ _).up rfl))

theorem changes_unmapPage : Act.Changes [.out, .regs, .mem, .tier, .coh, .hural] unmapPage := by
  unfold unmapPage
  exact (changes_ask fun _ => (by
    split
    · exact changes_skip
    · exact (changes_ite changes_skip (changes_ite ((changes_migFinish _).up rfl) (changes_ite changes_skip (changes_cons ((changes_setPage _ _).up rfl) (changes_cons (changes_when (changes_cons ((changes_accountPage _ _ _).up rfl) (changes_cons ((changes_freeFrame _ _).up rfl) changes_nil))) (changes_cons ((changes_migFinish _).up rfl) changes_nil))))))))

theorem changes_waitTimeout (a0 a1) : Act.Changes [.out, .log, .tier] (waitTimeout a0 a1) := by
  unfold waitTimeout
  exact (changes_ask fun _ => (by
    split
    · exact (changes_ite (changes_cons ((changes_dropWait _).up rfl) (changes_cons ((changes_send _).up rfl) (changes_cons ((changes_logEv _ _ _ _).up rfl) changes_nil))) changes_skip)
    · exact changes_skip))

theorem changes_updPart (a0 a1) : Act.Changes [.tide] (updPart a0 a1) := by
  unfold updPart
  exact (changes_prim rfl)

theorem changes_ageForecast (a0) : Act.Changes [.regs] (ageForecast a0) := by
  unfold ageForecast
  exact (changes_ask fun _ => (changes_cons (changes_setF _ _ _ _) (changes_cons (changes_setF _ _ _ _) changes_nil)))

theorem changes_updEn (a0) : Act.Changes [.en] (updEn a0) := by
  unfold updEn
  exact (changes_prim rfl)

theorem changes_hostClock (a0) : Act.Changes [.en] (hostClock a0) := by
  unfold hostClock
  exact (changes_ask fun _ => (changes_ite (changes_updEn _) (changes_ite (changes_updEn _) (changes_updEn _))))

theorem changes_allotMiss (a0) : Act.Changes [.regs, .en] (allotMiss a0) := by
  unfold allotMiss
  exact (changes_ask fun _ => (by
    split
    · exact changes_skip
    · exact (changes_cons ((changes_addF _ _ _ _).up rfl) (changes_cons ((changes_evt _ _ _).up rfl) (changes_cons ((changes_setF _ _ _ _).up rfl) (changes_cons ((changes_updEn _).up rfl) (changes_cons (changes_ask fun _ => (changes_when ((changes_updEn _).up rfl))) (changes_cons (changes_when ((changes_hostClock _).up rfl)) changes_nil))))))))

theorem changes_allotSend (a0) : Act.Changes [.free, .out, .regs, .log, .en] (allotSend a0) := by
  unfold allotSend
  exact (changes_seq ((changes_updEn _).up rfl) (by unfold withFree; exact (changes_seq (changes_ask fun _ => (changes_ask fun _ => (changes_cons (changes_when (changes_cons ((changes_evt _ _ _).up rfl) (changes_cons ((changes_logEv _ _ _ _).up rfl) changes_nil))) (changes_cons (changes_when ((changes_evt _ _ _).up rfl)) (changes_cons (changes_when ((changes_evt _ _ _).up rfl)) (changes_cons ((changes_updEn _).up rfl) (changes_cons ((changes_setF _ _ _ _).up rfl) (changes_cons ((changes_setF _ _ _ _).up rfl) (changes_cons (changes_each fun _ => ((changes_send _).up rfl)) changes_nil))))))))) (changes_prim rfl))))

theorem changes_allotTake (a0) : Act.Changes [.regs, .en] (allotTake a0) := by
  unfold allotTake
  exact (changes_ask fun _ => (changes_ite (changes_cons ((changes_updEn _).up rfl) (changes_cons ((changes_setF _ _ _ _).up rfl) (changes_cons (changes_ask fun _ => (changes_when ((changes_updEn _).up rfl))) (changes_cons (changes_when ((changes_hostClock _).up rfl)) changes_nil)))) changes_skip))

theorem changes_budgetSend (a0 a1 a2) : Act.Changes [.out, .en] (budgetSend a0 a1 a2) := by
  unfold budgetSend
  exact (changes_ask fun _ => (changes_cons (changes_when ((changes_updEn _).up rfl)) (changes_cons ((changes_send _).up rfl) changes_nil)))

theorem changes_budgetTake (a0) : Act.Changes [.en] (budgetTake a0) := by
  unfold budgetTake
  exact (changes_ask fun _ => (changes_ite (changes_updEn _) changes_skip))

theorem changes_calibrate (a0 a1 a2) : Act.Changes [.en] (calibrate a0 a1 a2) := by
  unfold calibrate
  exact (changes_when (changes_updEn _))

theorem changes_dieClock (a0) : Act.Changes [.regs] (dieClock a0) := by
  unfold dieClock
  exact (changes_ask fun _ => (changes_cons (changes_setF _ _ _ _) (changes_cons (changes_setF _ _ _ _) (changes_cons (changes_setF _ _ _ _) changes_nil))))

theorem changes_hostState : Act.Changes [.regs, .en] hostState := by
  unfold hostState
  exact (changes_ask fun _ => (changes_cons ((changes_setF _ _ _ _).up rfl) (changes_cons ((changes_setF _ _ _ _).up rfl) (changes_cons ((changes_updEn _).up rfl) changes_nil))))

theorem changes_offsetApplies (a0) : Act.Changes [.regs] (offsetApplies a0) := by
  unfold offsetApplies
  exact (changes_ask fun _ => (changes_cons (changes_when (changes_cons (changes_incF _ _ _ _) (changes_cons (changes_evt _ _ _) changes_nil))) (changes_cons (changes_setF _ _ _ _) (changes_cons (changes_ageForecast _) changes_nil))))

theorem changes_clockStates : Act.Changes [.regs, .en] clockStates := by
  unfold clockStates
  exact (changes_ask fun _ => (changes_cons (changes_each fun _ => ((changes_offsetApplies _).up rfl)) (changes_cons (changes_each fun _ => ((changes_dieClock _).up rfl)) (changes_cons changes_hostState (changes_cons ((changes_updEn _).up rfl) changes_nil)))))

theorem changes_critClear (a0) : Act.Changes [.regs, .log, .en] (critClear a0) := by
  unfold critClear
  exact (changes_ask fun _ => (changes_ite (changes_cons ((changes_updEn _).up rfl) (changes_cons ((changes_evt _ _ _).up rfl) (changes_cons ((changes_logEv _ _ _ _).up rfl) changes_nil))) changes_skip))

theorem changes_critTemp (a0) : Act.Changes [.en] (critTemp a0) := by
  unfold critTemp
  exact (changes_updEn _)

theorem changes_replan (a0 a1 a2) : Act.Changes [.regs, .log, .en] (replan a0 a1 a2) := by
  unfold replan
  exact (changes_ask fun _ => (changes_cons ((changes_updEn _).up rfl) (changes_cons ((changes_logEv _ _ _ _).up rfl) (changes_cons (changes_when (changes_ite (changes_cons ((changes_setF _ _ _ _).up rfl) (changes_cons ((changes_evt _ _ _).up rfl) (changes_cons ((changes_logEv _ _ _ _).up rfl) changes_nil))) (changes_cons ((changes_evt _ _ _).up rfl) (changes_cons ((changes_evt _ _ _).up rfl) (changes_cons ((changes_logEv _ _ _ _).up rfl) changes_nil))))) changes_nil))))

theorem changes_gaugeTake (a0 a1) : Act.Changes [.regs, .log, .en] (gaugeTake a0 a1) := by
  unfold gaugeTake
  exact (changes_ask fun _ => (changes_ite changes_skip (changes_cons (changes_each fun _ => (changes_cons ((changes_setF _ _ _ _).up rfl) (changes_cons ((changes_setF _ _ _ _).up rfl) (changes_cons ((changes_setF _ _ _ _).up rfl) changes_nil)))) (changes_cons ((changes_setF _ _ _ _).up rfl) (changes_cons ((changes_updEn _).up rfl) (changes_cons (changes_replan _ _ _) (changes_cons ((changes_ageForecast _).up rfl) changes_nil)))))))

theorem changes_gaugeForced (a0 a1) : Act.Changes [.regs, .log, .en] (gaugeForced a0 a1) := by
  unfold gaugeForced
  exact (changes_ask fun _ => (by
    split
    · exact (changes_when (changes_seq ((changes_evt _ _ _).up rfl) (changes_gaugeTake _ _)))
    · exact changes_skip))

theorem changes_gaugeSample (a0 a1) : Act.Changes [.regs, .log, .en] (gaugeSample a0 a1) := by
  unfold gaugeSample
  exact (changes_ask fun _ => (changes_when (changes_gaugeTake _ _)))

theorem changes_gaugeSchedule : Act.Changes [.en] gaugeSchedule := by
  unfold gaugeSchedule
  exact (changes_each fun _ => (changes_ask fun _ => (by
    try dsimp only
    split
    · exact changes_skip
    · exact (changes_updEn _))))

theorem changes_ledgerMark (a0) : Act.Changes [.regs, .en] (ledgerMark a0) := by
  unfold ledgerMark
  exact (changes_ask fun _ => (changes_cons (changes_each fun _ => ((changes_setF _ _ _ _).up rfl)) (changes_cons ((changes_updEn _).up rfl) (changes_cons (changes_each fun _ => (changes_cons ((changes_setF _ _ _ _).up rfl) (changes_cons ((changes_setF _ _ _ _).up rfl) (changes_cons ((changes_updEn _).up rfl) changes_nil)))) changes_nil))))

theorem changes_limiterGate (a0) : Act.Changes [.regs, .log, .en] (limiterGate a0) := by
  unfold limiterGate
  exact (changes_ask fun _ => (changes_ite changes_skip (changes_cons ((changes_updEn _).up rfl) (changes_cons ((changes_incF _ _ _ _).up rfl) (changes_cons ((changes_evt _ _ _).up rfl) (changes_cons ((changes_logEv _ _ _ _).up rfl) changes_nil))))))

theorem changes_slotsBegin (a0) : Act.Changes [.regs, .en] (slotsBegin a0) := by
  unfold slotsBegin
  exact (changes_ask fun _ => (changes_ite changes_skip (changes_cons ((changes_updEn _).up rfl) (changes_cons ((changes_setF _ _ _ _).up rfl) (changes_cons ((changes_incF _ _ _ _).up rfl) changes_nil)))))

theorem changes_longSumFold (a0 a1) : Act.Changes [.free, .regs, .tiles] (longSumFold a0 a1) := by
  unfold longSumFold
  exact (by unfold withFree; exact (changes_seq (changes_ask fun _ => (changes_ask fun _ => (by
    try dsimp only
    split
    · exact changes_skip
    · exact (by
        try dsimp only
        split
        · exact changes_skip
        · exact (changes_cons ((changes_updTile _ _).up rfl) (changes_cons (changes_when ((changes_takeBlocks _ _ _ _).up rfl)) (changes_cons ((changes_orFlags _ _ _ _).up rfl) changes_nil))))))) (changes_prim rfl)))

theorem changes_watchSelect (a0 a1) : Act.Changes [.tiles] (watchSelect a0 a1) := by
  unfold watchSelect
  exact (changes_ask fun _ => (changes_ite (changes_updTile _ _) changes_skip))

theorem changes_mmaComplete (a0) : Act.Changes [.free, .regs, .mem, .tide, .tiles, .num, .sec, .tier, .coh] (mmaComplete a0) := by
  unfold mmaComplete
  exact (by unfold withFree; exact (changes_seq (changes_ask fun _ => (changes_ask fun _ => (by
    try dsimp only
    split
    · exact changes_skip
    · exact (changes_ite changes_skip (changes_cons ((changes_updTile _ _).up rfl) (changes_cons ((changes_orFlags _ _ _ _).up rfl) (changes_cons ((changes_addF _ _ _ _).up rfl) (changes_cons ((changes_addF _ _ _ _).up rfl) (changes_cons ((changes_signal _ _).up rfl) (changes_cons ((changes_watchSelect _ _).up rfl) (changes_cons ((changes_completionReport _ _).up rfl) (changes_cons ((changes_traceItem _ _ _).up rfl) changes_nil)))))))))))) (changes_prim rfl)))

theorem changes_mmaStart (a0 a1) : Act.Changes [.regs, .mem, .tide, .tiles, .num, .sec, .tier, .coh] (mmaStart a0 a1) := by
  unfold mmaStart
  exact (changes_ask fun _ => (changes_cons ((changes_passBegin _ _).up rfl) (changes_cons ((changes_traceItem _ _ _).up rfl) (changes_cons ((changes_setF _ _ _ _).up rfl) (changes_cons ((changes_updTile _ _).up rfl) changes_nil)))))

theorem changes_roleViolation (a0 a1) : Act.Changes [.regs, .log, .tiles, .num] (roleViolation a0 a1) := by
  unfold roleViolation
  exact (changes_ask fun _ => (changes_cons ((changes_passBegin _ _).up rfl) (changes_cons ((changes_updEng _ _ _).up rfl) (changes_cons ((changes_signal _ _).up rfl) (changes_cons (changes_when (changes_seq ((changes_addF _ _ _ _).up rfl) ((changes_lastItem _ _ _ _).up rfl))) (changes_cons ((changes_evt _ _ _).up rfl) (changes_cons ((changes_logEv _ _ _ _).up rfl) (changes_cons ((changes_completionReport _ _).up rfl) changes_nil))))))))

theorem changes_mmaItem (a0) : Act.Changes [.regs, .mem, .log, .tide, .tiles, .num, .sec, .tier, .coh] (mmaItem a0) := by
  unfold mmaItem
  exact (changes_ask fun _ => (by
    split
    · exact changes_skip
    · exact (changes_ite changes_skip (changes_ite ((changes_roleViolation _ _).up rfl) (changes_ite changes_skip (changes_ite ((changes_itemFault _ _ _ _ _ _).up rfl) ((changes_mmaStart _ _).up rfl)))))))

theorem changes_mxResume (a0) : Act.Changes [.regs, .mem, .tide, .tiles, .num, .sec, .tier, .coh] (mxResume a0) := by
  unfold mxResume
  exact (by unfold resumeItem; exact (changes_ask fun _ => (by
    try dsimp only
    split
    · exact changes_skip
    · exact (changes_cons ((changes_passBegin _ _).up rfl) (changes_cons ((changes_updEng _ _ _).up rfl) (changes_cons (changes_when ((changes_lastItem _ _ _ _).up rfl)) (changes_cons ((changes_signal _ _).up rfl) (changes_cons ((changes_addF _ _ _ _).up rfl) (changes_cons ((changes_completionReport _ _).up rfl) (changes_cons ((changes_traceItem _ _ _).up rfl) changes_nil))))))))))

theorem changes_nopItem (a0) : Act.Changes [.regs, .mem, .tide, .tiles, .num, .sec, .tier, .coh] (nopItem a0) := by
  unfold nopItem
  exact (changes_ask fun _ => (by
    split
    · exact changes_skip
    · exact (changes_ite (changes_cons ((changes_passBegin _ _).up rfl) (changes_cons ((changes_traceItem _ _ _).up rfl) (changes_cons ((changes_updEng _ _ _).up rfl) (changes_cons ((changes_signal _ _).up rfl) (changes_cons ((changes_addF _ _ _ _).up rfl) (changes_cons ((changes_completionReport _ _).up rfl) (changes_cons ((changes_traceItem _ _ _).up rfl) changes_nil))))))) changes_skip)))

theorem changes_deliverVerdict (a0 a1 a2 a3) : Act.Changes [.tiles] (deliverVerdict a0 a1 a2 a3) := by
  unfold deliverVerdict
  exact (changes_ask fun _ => (changes_each fun _ => (changes_updTile _ _)))

theorem changes_updNum (a0) : Act.Changes [.num] (updNum a0) := by
  unfold updNum
  exact (changes_prim rfl)

theorem changes_enterBin (a0 a1 a2) : Act.Changes [.regs, .num] (enterBin a0 a1 a2) := by
  unfold enterBin
  exact (changes_cons ((changes_updNum _).up rfl) (changes_cons ((changes_incF _ _ _ _).up rfl) changes_nil))

theorem changes_gradClose (a0 a1 a2) : Act.Changes [.regs, .mem, .log, .tier, .coh] (gradClose a0 a1 a2) := by
  unfold gradClose
  exact (changes_ask fun _ => (changes_cons ((changes_pkgWrite _ _).up rfl) (changes_cons (changes_when (changes_cons ((changes_evt _ _ _).up rfl) (changes_cons ((changes_logEv _ _ _ _).up rfl) changes_nil))) changes_nil)))

theorem changes_markStep (a0) : Act.Changes [.num] (markStep a0) := by
  unfold markStep
  exact (changes_updNum _)

theorem changes_repeatRecord (a0 a1 a2) : Act.Changes [.log] (repeatRecord a0 a1 a2) := by
  unfold repeatRecord
  exact (changes_ask fun _ => (changes_logEv _ _ _ _))

theorem changes_layerRepeat (a0 a1 a2) : Act.Changes [.regs, .log, .tiles, .num] (layerRepeat a0 a1 a2) := by
  unfold layerRepeat
  exact (changes_cons ((changes_incF _ _ _ _).up rfl) (changes_cons ((changes_evt _ _ _).up rfl) (changes_cons ((changes_repeatRecord _ _ _).up rfl) (changes_cons (changes_when ((changes_markStep _).up rfl)) (changes_cons ((changes_setPass _ _ _).up rfl) (changes_cons ((changes_deliverVerdict _ _ _ _).up rfl) changes_nil))))))

theorem changes_setLoss (a0 a1 a2 a3) : Act.Changes [.regs, .log] (setLoss a0 a1 a2 a3) := by
  unfold setLoss
  exact (changes_cons ((changes_setF _ _ _ _).up rfl) (changes_cons ((changes_setF _ _ _ _).up rfl) (changes_cons (changes_when ((changes_evt _ _ _).up rfl)) (changes_cons (changes_when ((changes_evt _ _ _).up rfl)) (changes_cons (changes_when ((changes_evt _ _ _).up rfl)) (changes_cons (changes_when ((changes_logEv _ _ _ _).up rfl)) changes_nil))))))

theorem changes_lossClose (a0) : Act.Changes [.regs, .mem, .log, .tier, .coh] (lossClose a0) := by
  unfold lossClose
  exact (changes_ask fun _ => (changes_cons (changes_when ((changes_pkgWrite _ _).up rfl)) (changes_cons (changes_ite ((changes_setLoss _ _ _ _).up rfl) (changes_ite ((changes_setLoss _ _ _ _).up rfl) ((changes_setF _ _ _ _).up rfl))) changes_nil)))

theorem changes_mergeReport (a0) : Act.Changes [.regs, .num] (mergeReport a0) := by
  unfold mergeReport
  exact (changes_ask fun _ => (by
    try dsimp only
    split
    · exact (changes_when ((changes_evt _ _ _).up rfl))
    · exact (changes_ite ((changes_setPass _ _ _).up rfl) (changes_when ((changes_evt _ _ _).up rfl)))))

theorem changes_repeatFetched (a0 a1) : Act.Changes [.free, .regs, .log, .tiles, .num] (repeatFetched a0 a1) := by
  unfold repeatFetched
  exact (changes_ask fun _ => (by
    split
    · exact changes_skip
    · exact (changes_ite changes_skip (changes_seq (changes_ite (changes_cons ((changes_setPass _ _ _).up rfl) (changes_cons (changes_each fun _ => ((changes_updTile _ _).up rfl)) changes_nil)) (changes_cons ((changes_setPass _ _ _).up rfl) (changes_cons ((changes_evt _ _ _).up rfl) (changes_cons ((changes_logEv _ _ _ _).up rfl) changes_nil)))) (changes_prim rfl)))))

theorem changes_reportArrives (a0) : Act.Changes [.regs, .num] (reportArrives a0) := by
  unfold reportArrives
  exact (changes_ask fun _ => (by
    split
    · exact changes_skip
    · exact (changes_cons ((changes_updNum _).up rfl) (changes_cons (changes_mergeReport _) changes_nil))))

theorem changes_slotClose (a0 a1) : Act.Changes [.regs, .mem, .tier, .coh] (slotClose a0 a1) := by
  unfold slotClose
  exact (changes_ask fun _ => (changes_cons (changes_when (changes_cons (changes_pkgWrite _ _) (changes_cons (changes_pkgWrite _ _) (changes_cons (changes_pkgWrite _ _) (changes_cons (changes_pkgWrite _ _) changes_nil))))) (changes_cons (changes_when (changes_pkgWrite _ _)) changes_nil)))

theorem changes_watchClose (a0 a1 a2) : Act.Changes [.regs, .mem, .log, .tier, .coh] (watchClose a0 a1 a2) := by
  unfold watchClose
  exact (changes_ask fun _ => (changes_cons (changes_each fun _ => ((changes_pkgWrite _ _).up rfl)) (changes_cons ((changes_pkgWrite _ _).up rfl) (changes_cons (changes_when (changes_cons ((changes_evt _ _ _).up rfl) (changes_cons (changes_ask fun _ => ((changes_logEv _ _ _ _).up rfl)) changes_nil))) changes_nil))))

theorem changes_stepCloseNum (a0) : Act.Changes [.regs, .mem, .log, .num, .tier, .coh] (stepCloseNum a0) := by
  unfold stepCloseNum
  exact (changes_cons ((changes_lossClose _).up rfl) (changes_cons (changes_ask fun _ => (changes_each fun _ => ((changes_slotClose _ _).up rfl))) (changes_cons (changes_ask fun _ => (changes_each fun _ => ((changes_gradClose _ _ _).up rfl))) (changes_cons (changes_ask fun _ => (changes_each fun _ => ((changes_watchClose _ _ _).up rfl))) (changes_cons (changes_ask fun _ => (changes_cons ((changes_zeroMem _ _).up rfl) (changes_cons ((changes_setF _ _ _ _).up rfl) (changes_cons ((changes_setF _ _ _ _).up rfl) changes_nil)))) (changes_cons ((changes_updNum _).up rfl) changes_nil))))))

theorem changes_verdict (a0 a1) : Act.Changes [.regs, .log, .tiles, .num] (verdict a0 a1) := by
  unfold verdict
  exact (changes_ask fun _ => (by
    split
    · exact changes_skip
    · exact (changes_ite changes_skip (changes_ite (changes_cons (changes_when (changes_cons ((changes_incF _ _ _ _).up rfl) (changes_cons ((changes_evt _ _ _).up rfl) (changes_cons ((changes_logEv _ _ _ _).up rfl) (changes_cons (changes_when ((changes_markStep _).up rfl)) changes_nil))))) (changes_cons ((changes_setPass _ _ _).up rfl) (changes_cons ((changes_deliverVerdict _ _ _ _).up rfl) changes_nil))) (changes_layerRepeat _ _ _)))))

theorem changes_verdictArrives (a0) : Act.Changes [.regs, .tiles, .num] (verdictArrives a0) := by
  unfold verdictArrives
  exact (changes_ask fun _ => (by
    split
    · exact changes_skip
    · exact (changes_cons ((changes_updTile _ _).up rfl) (changes_cons (changes_when ((changes_incF _ _ _ _).up rfl)) (changes_cons (changes_when (changes_each fun _ => ((changes_enterBin _ _ _).up rfl))) changes_nil)))))

theorem changes_watchAbandon (a0) : Act.Changes [.regs, .tiles] (watchAbandon a0) := by
  unfold watchAbandon
  exact (changes_ask fun _ => (changes_ite changes_skip (changes_cons ((changes_updTile _ _).up rfl) (changes_cons ((changes_incF _ _ _ _).up rfl) (changes_cons ((changes_evt _ _ _).up rfl) changes_nil)))))

theorem changes_watchEnd (a0) : Act.Changes [.regs, .tiles, .num] (watchEnd a0) := by
  unfold watchEnd
  exact (changes_ask fun _ => (by
    try dsimp only
    split
    · exact changes_skip
    · exact (changes_cons ((changes_updTile _ _).up rfl) (changes_cons (changes_when ((changes_enterBin _ _ _).up rfl)) changes_nil))))

theorem changes_watchStart (a0) : Act.Changes [.tiles] (watchStart a0) := by
  unfold watchStart
  exact (changes_ask fun _ => (changes_ite (changes_updTile _ _) changes_skip))

theorem changes_updBell (a0 a1) : Act.Changes [.bell] (updBell a0 a1) := by
  unfold updBell
  exact (changes_prim rfl)

theorem changes_bellDisable (a0) : Act.Changes [.regs, .bell] (bellDisable a0) := by
  unfold bellDisable
  exact (changes_cons ((changes_setF _ _ _ _).up rfl) (changes_cons ((changes_setF _ _ _ _).up rfl) (changes_cons ((changes_setF _ _ _ _).up rfl) (changes_cons ((changes_updBell _ _).up rfl) changes_nil))))

theorem changes_cqStat (a0) : Act.Changes [.regs] (cqStat a0) := by
  unfold cqStat
  exact (changes_ask fun _ => (changes_setF _ _ _ _))

theorem changes_bellEnable (a0) : Act.Changes [.regs, .bell] (bellEnable a0) := by
  unfold bellEnable
  exact (changes_ask fun _ => (changes_ite (changes_cons ((changes_setF _ _ _ _).up rfl) (changes_cons ((changes_setF _ _ _ _).up rfl) (changes_cons ((changes_setF _ _ _ _).up rfl) (changes_cons ((changes_setF _ _ _ _).up rfl) (changes_cons ((changes_setF _ _ _ _).up rfl) (changes_cons ((changes_updBell _ _).up rfl) (changes_cons ((changes_cqStat _).up rfl) changes_nil))))))) (changes_cons ((changes_setF _ _ _ _).up rfl) (changes_cons ((changes_setF _ _ _ _).up rfl) (changes_cons ((changes_setF _ _ _ _).up rfl) changes_nil)))))

theorem changes_farDone (a0 a1) : Act.Changes [.bell] (farDone a0 a1) := by
  unfold farDone
  exact (changes_updBell _ _)

theorem changes_bellLost (a0) : Act.Changes [.log, .bell] (bellLost a0) := by
  unfold bellLost
  exact (changes_ask fun _ => (changes_each fun _ => (changes_each fun _ => (changes_seq ((changes_farDone _ _).up rfl) ((changes_logEv _ _ _ _).up rfl)))))

theorem changes_bellReset : Act.Changes [.regs, .tier, .hural, .bell] bellReset := by
  unfold bellReset
  exact (changes_seq (changes_each fun _ => (changes_cons ((changes_setF _ _ _ _).up rfl) (changes_cons ((changes_resetReg _ _ _).up rfl) changes_nil))) (changes_seq (changes_prim rfl) ((changes_fetchDrop _).up rfl)))

theorem changes_bellRing (a0 a1) : Act.Changes [.regs] (bellRing a0 a1) := by
  unfold bellRing
  exact (changes_ask fun _ => (changes_ite changes_skip (changes_ite (changes_incF _ _ _ _) (changes_cons (changes_setF _ _ _ _) (changes_cons (changes_setF _ _ _ _) changes_nil)))))

theorem changes_cmdEnds (a0 a1 a2 a3 a4) : Act.Changes [.bell] (cmdEnds a0 a1 a2 a3 a4) := by
  unfold cmdEnds
  exact (changes_updBell _ _)

theorem changes_countStart (a0) : Act.Changes [.bell] (countStart a0) := by
  unfold countStart
  exact (changes_ask fun _ => (changes_seq (changes_when (changes_prim rfl)) (changes_updBell _ _)))

theorem changes_cmdState (a0 a1 a2) : Act.Changes [.bell] (cmdState a0 a1 a2) := by
  unfold cmdState
  exact (changes_updBell _ _)

theorem changes_copyBytes (a0 a1) : Act.Changes [.free, .out, .regs, .mem, .log, .tier, .coh, .hural, .bell] (copyBytes a0 a1) := by
  unfold copyBytes
  exact (changes_ask fun _ => (by
    try dsimp only
    split
    · exact ((changes_unitStall _ _).up rfl)
    · exact (by (try dsimp only); unfold withFree; exact (changes_seq (changes_ask fun _ => (changes_ask fun _ => (changes_cons ((changes_unitGoes _).up rfl) (changes_cons (changes_mapWrite _ _ _ _) (changes_cons ((changes_piecesDone _).up rfl) (changes_cons ((changes_fetchDrop _).up rfl) (changes_cons (by
        split
        · exact ((changes_cmdEnds _ _ _ _ _).up rfl)
        · exact (changes_cons ((changes_accessFault _ _).up rfl) (changes_cons ((changes_cmdEnds _ _ _ _ _).up rfl) changes_nil))) changes_nil))))))) (changes_prim rfl)))))

theorem changes_copyMove (a0 a1) : Act.Changes [.free, .out, .regs, .mem, .log, .tier, .coh, .hural, .bell] (copyMove a0 a1) := by
  unfold copyMove
  exact (changes_given (by unfold fetched; exact (changes_ask fun _ => (changes_ite ((changes_fetchSend _ _).up rfl) (changes_ite changes_skip (changes_copyBytes _ _))))))

theorem changes_writeUpTo (a0 a1 a2 a3) : Act.Changes [.free, .out, .regs, .mem, .log, .tier, .coh, .hural, .bell] (writeUpTo a0 a1 a2 a3) := by
  unfold writeUpTo
  exact (changes_mapWrite _ _ _ _)

theorem changes_copyFill (a0 a1) : Act.Changes [.free, .out, .regs, .mem, .log, .tier, .coh, .hural, .bell] (copyFill a0 a1) := by
  unfold copyFill
  exact (changes_ask fun _ => (by
    try dsimp only
    split
    · exact ((changes_unitStall _ _).up rfl)
    · exact (changes_cons ((changes_unitGoes _).up rfl) (changes_cons (changes_writeUpTo _ _ _ _) (changes_cons ((changes_accessFault _ _).up rfl) (changes_cons ((changes_cmdEnds _ _ _ _ _).up rfl) changes_nil))))
    · exact (changes_cons ((changes_unitGoes _).up rfl) (changes_cons (changes_mapWrite _ _ _ _) (changes_cons ((changes_cmdState _ _ _).up rfl) (changes_cons (changes_copyMove _ _) changes_nil))))))

theorem changes_copyStart (a0 a1) : Act.Changes [.free, .out, .regs, .mem, .log, .tier, .coh, .hural, .bell] (copyStart a0 a1) := by
  unfold copyStart
  exact (changes_seq ((changes_cmdState _ _ _).up rfl) (changes_ite (changes_copyFill _ _) (changes_copyMove _ _)))

theorem changes_cmdCopy (a0) : Act.Changes [.free, .out, .regs, .mem, .log, .tier, .coh, .hural, .bell] (cmdCopy a0) := by
  unfold cmdCopy
  exact (changes_ask fun _ => (by
    split
    · exact (changes_ite (changes_copyFill _ _) (changes_copyMove _ _))
    · exact (changes_when (by unfold cmdStart; exact (changes_ask fun _ => (by
        try dsimp only
        split
        · exact (changes_ite (changes_seq ((changes_countStart _).up rfl) (changes_ite ((changes_cmdEnds _ _ _ _ _).up rfl) (changes_copyStart _ _))) changes_skip)
        · exact changes_skip))))))

theorem changes_cmdNop (a0) : Act.Changes [.bell] (cmdNop a0) := by
  unfold cmdNop
  exact (by unfold cmdStart; exact (changes_ask fun _ => (by
    try dsimp only
    split
    · exact (changes_ite (changes_seq (changes_countStart _) (changes_ite (changes_cmdEnds _ _ _ _ _) (changes_cmdEnds _ _ _ _ _))) changes_skip)
    · exact changes_skip)))

theorem changes_planSlot (a0 a1 a2) : Act.Changes [.regs, .tide] (planSlot a0 a1 a2) := by
  unfold planSlot
  exact (changes_cons ((changes_setF _ _ _ _).up rfl) (changes_cons ((changes_setF _ _ _ _).up rfl) (changes_cons (changes_when ((changes_updPart _ _).up rfl)) changes_nil)))

theorem changes_planDeliver (a0 a1) : Act.Changes [.regs, .tide, .bell] (planDeliver a0 a1) := by
  unfold planDeliver
  exact (changes_ask fun _ => (changes_ite ((changes_cmdState _ _ _).up rfl) (changes_cons ((changes_planSlot _ _ _).up rfl) (changes_cons ((changes_cmdState _ _ _).up rfl) changes_nil))))

theorem changes_cmdPlan (a0) : Act.Changes [.regs, .tide, .bell] (cmdPlan a0) := by
  unfold cmdPlan
  exact (by unfold cmdStart; exact (changes_ask fun _ => (by
    try dsimp only
    split
    · exact (changes_ite (changes_seq ((changes_countStart _).up rfl) (changes_ite ((changes_cmdEnds _ _ _ _ _).up rfl) (changes_planDeliver _ _))) changes_skip)
    · exact changes_skip)))

theorem changes_cmdPlanDeliver (a0) : Act.Changes [.regs, .tide, .bell] (cmdPlanDeliver a0) := by
  unfold cmdPlanDeliver
  exact (changes_ask fun _ => (by
    split
    · exact (changes_planDeliver _ _)
    · exact changes_skip))

theorem changes_putRun (a0 a1) : Act.Changes [.free, .out, .regs, .mem, .log, .tier, .coh, .hural, .bell] (putRun a0 a1) := by
  unfold putRun
  exact (changes_ask fun _ => (changes_cons (changes_writeUpTo _ _ _ _) (changes_cons (by
    split
    · exact ((changes_cmdEnds _ _ _ _ _).up rfl)
    · exact (changes_cons ((changes_accessFault _ _).up rfl) (changes_cons ((changes_cmdEnds _ _ _ _ _).up rfl) changes_nil))) changes_nil)))

theorem changes_cmdPut (a0) : Act.Changes [.free, .out, .regs, .mem, .log, .tier, .coh, .hural, .bell] (cmdPut a0) := by
  unfold cmdPut
  exact (changes_given (by unfold cmdStart; exact (changes_ask fun _ => (by
    try dsimp only
    split
    · exact (changes_ite (changes_seq ((changes_countStart _).up rfl) (changes_ite ((changes_cmdEnds _ _ _ _ _).up rfl) (changes_putRun _ _))) changes_skip)
    · exact changes_skip))))

theorem changes_copiesEnd : Act.Changes [.free, .out, .regs, .mem, .log, .tier, .coh, .hural, .bell] copiesEnd := by
  unfold copiesEnd
  exact (changes_ask fun _ => (changes_each fun _ => (changes_each fun _ => (by unfold withFree; exact (changes_seq (changes_ask fun _ => (changes_ask fun _ => (changes_cons ((changes_unitGoes _).up rfl) (changes_cons (changes_mapWrite _ _ _ _) (changes_cons ((changes_cmdEnds _ _ _ _ _).up rfl) changes_nil))))) (changes_prim rfl))))))

theorem changes_errPosted (a0 a1) : Act.Changes [.regs] (errPosted a0 a1) := by
  unfold errPosted
  exact (changes_when (changes_cons (changes_setF _ _ _ _) (changes_cons (changes_setF _ _ _ _) (changes_cons (changes_setBitF _ _ _ _ _) changes_nil))))

theorem changes_irqWrite (a0 a1) : Act.Changes [.free, .out, .regs, .mem, .log, .tier, .coh, .hural, .bell] (irqWrite a0 a1) := by
  unfold irqWrite
  exact (changes_when (changes_ask fun _ => (changes_memAccess _ _ _ _)))

theorem changes_recordWrite (a0 a1) : Act.Changes [.out, .regs, .mem, .log, .tier, .coh] (recordWrite a0 a1) := by
  unfold recordWrite
  exact (changes_ask fun _ => (by
    split
    · exact ((changes_accessFault _ _).up rfl)
    · exact ((changes_pkgWrite _ _).up rfl)))

theorem changes_postDone (a0 a1) : Act.Changes [.free, .out, .regs, .mem, .log, .tier, .coh, .hural, .bell] (postDone a0 a1) := by
  unfold postDone
  exact (changes_ask fun _ => (changes_ite (changes_cons ((changes_updBell _ _).up rfl) (changes_cons (changes_irqWrite _ _) changes_nil)) (changes_ite ((changes_cqStat _).up rfl) (changes_ite changes_skip (changes_cons ((changes_recordWrite _ _).up rfl) (changes_cons ((changes_updBell _ _).up rfl) (changes_cons ((changes_errPosted _ _).up rfl) (changes_cons ((changes_cqStat _).up rfl) (changes_cons (changes_irqWrite _ _) changes_nil)))))))))

theorem changes_postRecord (a0) : Act.Changes [.free, .out, .regs, .mem, .log, .tier, .coh, .hural, .bell] (postRecord a0) := by
  unfold postRecord
  exact (changes_ask fun _ => (by
    split
    · exact (changes_postDone _ _)
    · exact changes_skip))

theorem changes_postHeld (a0 a1) : Act.Changes [.free, .out, .regs, .mem, .log, .tier, .coh, .hural, .bell] (postHeld a0 a1) := by
  induction a1 generalizing a0 with
  | zero =>
    unfold postHeld
    repeat' first
      | with_reducible exact changes_skip
      | with_reducible refine changes_cons ?_ ?_
      | with_reducible exact changes_nil
      | with_reducible refine changes_seq ?_ ?_
      | with_reducible refine changes_when ?_
      | with_reducible refine changes_given ?_
      | with_reducible refine changes_each fun _ => ?_
      | ((with_reducible refine changes_prim ?_); exact rfl)
      | ((with_reducible refine Act.Changes.up (changes_postRecord _) ?_); exact rfl)
      | with_reducible refine changes_ask fun _ => ?_
      | with_reducible refine changes_ite ?_ ?_
      | split
      | (dsimp only; split)
  | succ n ih =>
    unfold postHeld
    repeat' first
      | with_reducible exact changes_skip
      | exact ih _
      | with_reducible refine changes_cons ?_ ?_
      | with_reducible exact changes_nil
      | with_reducible refine changes_seq ?_ ?_
      | with_reducible refine changes_when ?_
      | with_reducible refine changes_given ?_
      | with_reducible refine changes_each fun _ => ?_
      | ((with_reducible refine changes_prim ?_); exact rfl)
      | ((with_reducible refine Act.Changes.up (changes_postRecord _) ?_); exact rfl)
      | with_reducible refine changes_ask fun _ => ?_
      | with_reducible refine changes_ite ?_ ?_
      | split
      | (dsimp only; split)

theorem changes_cqHeadWrite (a0 a1) : Act.Changes [.free, .out, .regs, .mem, .log, .tier, .coh, .hural, .bell] (cqHeadWrite a0 a1) := by
  unfold cqHeadWrite
  exact (changes_ask fun _ => (changes_cons ((changes_setF _ _ _ _).up rfl) (changes_cons ((changes_cqStat _).up rfl) (changes_cons (changes_when (changes_postHeld _ _)) changes_nil))))

theorem changes_deviceRead (a0 a1 a2) : Act.Changes [.free, .out, .regs, .mem, .log, .tier, .coh, .hural, .bell] (deviceRead a0 a1 a2) := by
  unfold deviceRead
  exact (changes_ask fun _ => (changes_ite (changes_memAccess _ _ _ _) (changes_cons ((changes_send _).up rfl) (changes_cons ((changes_incF _ _ _ _).up rfl) (changes_cons ((changes_logEv _ _ _ _).up rfl) changes_nil)))))

theorem changes_deviceWrite (a0 a1 a2) : Act.Changes [.free, .out, .regs, .mem, .log, .tier, .coh, .hural, .bell] (deviceWrite a0 a1 a2) := by
  unfold deviceWrite
  exact (changes_ask fun _ => (changes_ite ((changes_send _).up rfl) (changes_ite (changes_memAccess _ _ _ _) (changes_cons ((changes_incF _ _ _ _).up rfl) (changes_cons ((changes_logEv _ _ _ _).up rfl) changes_nil)))))

theorem changes_entryMiss (a0) : Act.Changes [.regs, .bell] (entryMiss a0) := by
  unfold entryMiss
  exact (changes_ask fun _ => (changes_when (changes_cons ((changes_incF _ _ _ _).up rfl) (changes_cons ((changes_updBell _ _).up rfl) changes_nil))))

theorem changes_entryCheck (a0) : Act.Changes [.out, .regs, .log, .bell] (entryCheck a0) := by
  unfold entryCheck
  exact (changes_ask fun _ => (changes_ite changes_skip (by
    try dsimp only
    split
    · exact (changes_cons ((changes_accessFault _ _).up rfl) (changes_cons ((changes_entryMiss _).up rfl) changes_nil))
    · exact (changes_ite (changes_cons ((changes_setF _ _ _ _).up rfl) (changes_cons ((changes_updBell _ _).up rfl) changes_nil)) ((changes_entryMiss _).up rfl)))))

theorem changes_plansEnd (a0 a1 a2) : Act.Changes [.bell] (plansEnd a0 a1 a2) := by
  unfold plansEnd
  exact (changes_ask fun _ => (changes_prim rfl))

theorem changes_planRejected (a0 a1) : Act.Changes [.bell] (planRejected a0 a1) := by
  unfold planRejected
  exact (changes_plansEnd _ _ _)

theorem changes_planSlotFree (a0) : Act.Changes [.regs, .tide] (planSlotFree a0) := by
  unfold planSlotFree
  exact (changes_ask fun _ => (changes_seq ((changes_setF _ _ _ _).up rfl) (by
    split
    · exact (changes_seq ((changes_updPart _ _).up rfl) (changes_planSlot _ _ _))
    · exact changes_skip)))

theorem changes_setCommitted : Act.Changes [.bell] setCommitted := by
  unfold setCommitted
  exact (changes_ask fun _ => (changes_plansEnd _ _ _))

theorem changes_planTaken (a0 a1) : Act.Changes [.bell] (planTaken a0 a1) := by
  unfold planTaken
  exact (changes_cons (changes_plansEnd _ _ _) (changes_cons (changes_prim rfl) (changes_cons changes_setCommitted changes_nil)))

theorem changes_qerrRead (a0 a1 a2) : Act.Changes [.out, .regs] (qerrRead a0 a1 a2) := by
  unfold qerrRead
  exact (changes_ask fun _ => (changes_cons ((changes_respond _ _ _).up rfl) (changes_cons (changes_prim rfl) changes_nil)))

theorem changes_rereadTimeout (a0) : Act.Changes [.regs, .bell] (rereadTimeout a0) := by
  unfold rereadTimeout
  exact (changes_ask fun _ => (by
    split
    · exact (changes_cons ((changes_updBell _ _).up rfl) (changes_cons ((changes_incF _ _ _ _).up rfl) (changes_cons ((changes_setF _ _ _ _).up rfl) changes_nil)))
    · exact changes_skip))

theorem changes_setDiscarded (a0) : Act.Changes [.bell] (setDiscarded a0) := by
  unfold setDiscarded
  exact (changes_ask fun _ => (changes_plansEnd _ _ _))

theorem changes_tidePlanSet (a0 a1 a2) : Act.Changes [.regs, .tide] (tidePlanSet a0 a1 a2) := by
  unfold tidePlanSet
  exact (changes_ask fun _ => (changes_ite ((changes_updPart _ _).up rfl) (changes_planSlot _ _ _)))

theorem changes_tidePlanWrite (a0 a1) : Act.Changes [.regs, .tide] (tidePlanWrite a0 a1) := by
  unfold tidePlanWrite
  exact (changes_tidePlanSet _ _ _)

theorem changes_visRead (a0 a1 a2 a3) : Act.Changes [.out, .bell] (visRead a0 a1 a2 a3) := by
  unfold visRead
  exact (changes_ask fun _ => (changes_cons (changes_each fun _ => ((changes_send _).up rfl)) (changes_cons ((changes_updBell _ _).up rfl) changes_nil)))

theorem changes_visReply (a0) : Act.Changes [.out, .regs, .bell] (visReply a0) := by
  unfold visReply
  exact (changes_ask fun _ => (by
    split
    · exact (changes_ite (changes_cons ((changes_setF _ _ _ _).up rfl) (changes_cons ((changes_updBell _ _).up rfl) (changes_cons ((changes_respond _ _ _).up rfl) changes_nil))) changes_skip)
    · exact changes_skip))

theorem changes_dmaComplete (a0) : Act.Changes [.regs, .mem, .tide, .tiles, .num, .sec, .tier, .coh] (dmaComplete a0) := by
  unfold dmaComplete
  exact (changes_ask fun _ => (by
    split
    · exact changes_skip
    · exact (changes_when (changes_cons ((changes_updEng _ _ _).up rfl) (changes_cons ((changes_signal _ _).up rfl) (changes_cons ((changes_completionReport _ _).up rfl) (changes_cons ((changes_traceItem _ _ _).up rfl) changes_nil)))))))

theorem changes_jobWrites (a0 a1 a2 a3) : Act.Changes [.free, .out, .regs, .mem, .log, .tiles, .tier, .coh, .hural, .bell] (jobWrites a0 a1 a2 a3) := by
  unfold jobWrites
  exact (by
    split
    · exact (changes_each fun _ => ((changes_mapWrite _ _ _ _).up rfl))
    · exact ((changes_updTile _ _).up rfl)
    · exact ((changes_updTile _ _).up rfl))

theorem changes_dmaStart (a0 a1 a2) : Act.Changes [.free, .out, .regs, .mem, .log, .tide, .tiles, .num, .sec, .tier, .coh, .hural, .bell] (dmaStart a0 a1 a2) := by
  unfold dmaStart
  exact (by unfold withFree; exact (changes_seq (changes_ask fun _ => (changes_ask fun _ => (by
    try dsimp only
    split
    · exact ((changes_unitStall _ _).up rfl)
    · exact (changes_ite ((changes_updTile _ _).up rfl) (by
        try dsimp only
        split
        · exact (changes_cons ((changes_traceItem _ _ _).up rfl) (changes_cons (changes_cons ((changes_unitGoes _).up rfl) (changes_cons ((changes_passBegin _ _).up rfl) (changes_cons ((changes_piecesDone _).up rfl) (changes_cons ((changes_fetchDrop _).up rfl) (changes_cons ((changes_jobWrites _ _ _ _).up rfl) (changes_cons ((changes_addF _ _ _ _).up rfl) changes_nil)))))) (changes_cons ((changes_logEv _ _ _ _).up rfl) (changes_cons ((changes_itemFault _ _ _ _ _ _).up rfl) (changes_cons ((changes_setF _ _ _ _).up rfl) changes_nil)))))
        · exact (changes_cons ((changes_traceItem _ _ _).up rfl) (changes_cons (changes_cons ((changes_unitGoes _).up rfl) (changes_cons ((changes_passBegin _ _).up rfl) (changes_cons ((changes_piecesDone _).up rfl) (changes_cons ((changes_fetchDrop _).up rfl) (changes_cons ((changes_jobWrites _ _ _ _).up rfl) (changes_cons ((changes_addF _ _ _ _).up rfl) changes_nil)))))) (changes_cons ((changes_updEng _ _ _).up rfl) changes_nil)))))))) (changes_prim rfl)))

theorem changes_dmaItem (a0 a1 a2) : Act.Changes [.free, .out, .regs, .mem, .log, .tide, .tiles, .num, .sec, .tier, .coh, .hural, .bell] (dmaItem a0 a1 a2) := by
  unfold dmaItem
  exact (changes_ask fun _ => (by
    split
    · exact changes_skip
    · exact (changes_ite changes_skip (changes_ite ((changes_itemFault _ _ _ _ _ _).up rfl) (changes_seq (by (try dsimp only); unfold fetched; exact (changes_ask fun _ => (changes_ite ((changes_fetchSend _ _).up rfl) (changes_ite changes_skip (changes_dmaStart _ _ _))))) ((changes_setF _ _ _ _).up rfl))))))

theorem changes_dmaResume (a0) : Act.Changes [.regs, .mem, .tide, .tiles, .num, .sec, .tier, .coh] (dmaResume a0) := by
  unfold dmaResume
  exact (by unfold resumeItem; exact (changes_ask fun _ => (by
    try dsimp only
    split
    · exact changes_skip
    · exact (changes_cons ((changes_passBegin _ _).up rfl) (changes_cons ((changes_updEng _ _ _).up rfl) (changes_cons ((changes_lastItem _ _ _ _).up rfl) (changes_cons ((changes_signal _ _).up rfl) (changes_cons changes_skip (changes_cons ((changes_completionReport _ _).up rfl) (changes_cons ((changes_traceItem _ _ _).up rfl) changes_nil))))))))))

theorem changes_updUpd (a0) : Act.Changes [.upd] (updUpd a0) := by
  unfold updUpd
  exact (changes_prim rfl)

theorem changes_flipGroup (a0) : Act.Changes [.regs, .mem, .tier, .coh, .upd] (flipGroup a0) := by
  unfold flipGroup
  exact (changes_cons (changes_ask fun _ => ((changes_setBitF _ _ _ _ _).up rfl)) (changes_cons (changes_ask fun _ => ((changes_pkgWrite _ _).up rfl)) (changes_cons ((changes_setBitF _ _ _ _ _).up rfl) (changes_cons ((changes_updUpd _).up rfl) changes_nil))))

theorem changes_commitPending : Act.Changes [.regs, .mem, .tier, .coh, .upd] commitPending := by
  unfold commitPending
  exact (changes_ask fun _ => (changes_cons ((changes_setF _ _ _ _).up rfl) (changes_cons (changes_each fun _ => (changes_ite changes_skip (changes_ite (changes_flipGroup _) ((changes_updUpd _).up rfl)))) changes_nil)))

theorem changes_computeEta (a0) : Act.Changes [.free, .regs] (computeEta a0) := by
  unfold computeEta
  exact (by unfold withFree; exact (changes_seq (changes_ask fun _ => (changes_ask fun _ => (changes_cons ((changes_setF _ _ _ _).up rfl) (changes_cons ((changes_setF _ _ _ _).up rfl) (changes_cons ((changes_setF _ _ _ _).up rfl) changes_nil))))) (changes_prim rfl)))

theorem changes_deferredCommit (a0) : Act.Changes [.regs, .mem, .tier, .coh, .upd, .bell] (deferredCommit a0) := by
  unfold deferredCommit
  exact (changes_ask fun _ => (by
    split
    · exact (changes_ite changes_skip (changes_seq ((changes_flipGroup _).up rfl) (changes_setCommitted.up rfl)))
    · exact changes_skip))

theorem changes_discardPending : Act.Changes [.regs, .log, .upd, .bell] discardPending := by
  unfold discardPending
  exact (changes_ask fun _ => (changes_when (changes_cons (changes_when ((changes_setDiscarded _).up rfl)) (changes_cons (changes_each fun _ => ((changes_setF _ _ _ _).up rfl)) (changes_cons ((changes_setF _ _ _ _).up rfl) (changes_cons ((changes_updUpd _).up rfl) (changes_cons ((changes_evt _ _ _).up rfl) (changes_cons ((changes_logEv _ _ _ _).up rfl) changes_nil))))))))

theorem changes_pendStart (a0) : Act.Changes [.regs] (pendStart a0) := by
  unfold pendStart
  exact (changes_given (changes_cons (changes_setF _ _ _ _) (changes_cons (changes_setF _ _ _ _) changes_nil)))

theorem changes_schRecalc : Act.Changes [.free, .regs, .log] schRecalc := by
  unfold schRecalc
  exact (changes_ask fun _ => (changes_ite ((changes_logEv _ _ _ _).up rfl) ((changes_computeEta _).up rfl)))

theorem changes_updFault (a0 a1) : Act.Changes [.regs, .mem, .log, .tide, .sec, .tier, .coh, .upd] (updFault a0 a1) := by
  unfold updFault
  exact (changes_cons ((changes_updUpd _).up rfl) (changes_cons (changes_prim rfl) (changes_cons ((changes_logEv _ _ _ _).up rfl) (changes_cons ((changes_traceItem _ _ _).up rfl) changes_nil))))

theorem changes_updAccessFault (a0 a1) : Act.Changes [.regs, .mem, .log, .tide, .sec, .tier, .coh, .upd] (updAccessFault a0 a1) := by
  unfold updAccessFault
  exact (changes_cons ((changes_unitGoes _).up rfl) (changes_cons ((changes_logEv _ _ _ _).up rfl) (changes_cons (changes_updFault _ _) (changes_cons ((changes_setF _ _ _ _).up rfl) changes_nil))))

theorem changes_updBegin (a0) : Act.Changes [.regs, .mem, .tide, .sec, .tier, .coh, .upd] (updBegin a0) := by
  unfold updBegin
  exact (changes_cons ((changes_traceItem _ _ _).up rfl) (changes_cons ((changes_setF _ _ _ _).up rfl) (changes_cons (changes_ask fun _ => ((changes_updUpd _).up rfl)) changes_nil)))

theorem changes_updSignal (a0) : Act.Changes [.upd] (updSignal a0) := by
  unfold updSignal
  exact (changes_when (changes_updUpd _))

theorem changes_updComplete : Act.Changes [.regs, .mem, .tide, .sec, .tier, .coh, .upd] updComplete := by
  unfold updComplete
  exact (changes_ask fun _ => (by
    split
    · exact changes_skip
    · exact (changes_when (changes_cons ((changes_updUpd _).up rfl) (changes_cons ((changes_updSignal _).up rfl) (changes_cons ((changes_traceItem _ _ _).up rfl) changes_nil))))))

theorem changes_updDiscard : Act.Changes [.regs, .log, .upd, .bell] updDiscard := by
  unfold updDiscard
  exact (changes_ask fun _ => (by
    split
    · exact (changes_ite ((changes_logEv _ _ _ _).up rfl) changes_discardPending)
    · exact changes_discardPending))

theorem changes_updWrote : Act.Changes [.tier, .upd] updWrote := by
  unfold updWrote
  exact (changes_seq ((changes_unitGoes _).up rfl) ((changes_updUpd _).up rfl))

theorem changes_updFrozen (a0) : Act.Changes [.regs, .mem, .log, .tide, .sec, .tier, .coh, .upd] (updFrozen a0) := by
  unfold updFrozen
  exact (changes_cons ((changes_updBegin _).up rfl) (changes_cons (changes_updWrote.up rfl) (changes_cons ((changes_incF _ _ _ _).up rfl) (changes_cons ((changes_evt _ _ _).up rfl) (changes_cons (changes_ask fun _ => ((changes_logEv _ _ _ _).up rfl)) changes_nil)))))

theorem changes_writeRanges (a0 a1 a2) : Act.Changes [.free, .out, .regs, .mem, .log, .tier, .coh, .hural, .bell] (writeRanges a0 a1 a2).1 := by
  induction a2 with
  | nil => exact changes_skip
  | cons x l ih =>
    unfold writeRanges
    dsimp only
    split
    · exact (changes_mapWrite _ _ _ _).up rfl
    · exact changes_seq ((changes_mapWrite _ _ _ _).up rfl) ih

theorem changes_updRun (a0) : Act.Changes [.free, .out, .regs, .mem, .log, .tide, .sec, .tier, .coh, .hural, .upd, .bell] (updRun a0) := by
  unfold updRun
  exact (by unfold withFree; exact (changes_seq (changes_ask fun _ => (changes_ask fun _ => (by
    try dsimp only
    split
    · exact ((changes_unitStall _ _).up rfl)
    · exact ((changes_updAccessFault _ _).up rfl)
    · exact ((changes_unitStall _ _).up rfl)
    · exact (by
        try dsimp only
        split
        · exact (changes_cons (changes_cons ((changes_setBitF _ _ _ _ _).up rfl) (changes_cons ((changes_updUpd _).up rfl) changes_nil)) (changes_cons ((changes_writeRanges _ _ _).up rfl) (changes_cons ((changes_updAccessFault _ _).up rfl) (changes_cons (changes_cons (changes_when ((changes_updUpd _).up rfl)) (changes_cons ((changes_orFlags _ _ _ _).up rfl) (changes_cons (changes_when (changes_cons ((changes_incF _ _ _ _).up rfl) (changes_cons ((changes_evt _ _ _).up rfl) (changes_cons ((changes_logEv _ _ _ _).up rfl) changes_nil)))) changes_nil))) changes_nil))))
        · exact (changes_cons (changes_cons ((changes_setBitF _ _ _ _ _).up rfl) (changes_cons ((changes_updUpd _).up rfl) changes_nil)) (changes_cons ((changes_writeRanges _ _ _).up rfl) (changes_cons (changes_updWrote.up rfl) (changes_cons ((changes_addF _ _ _ _).up rfl) (changes_cons (changes_cons (changes_when ((changes_updUpd _).up rfl)) (changes_cons ((changes_orFlags _ _ _ _).up rfl) (changes_cons (changes_when (changes_cons ((changes_incF _ _ _ _).up rfl) (changes_cons ((changes_evt _ _ _).up rfl) (changes_cons ((changes_logEv _ _ _ _).up rfl) changes_nil)))) changes_nil))) changes_nil))))))))) (changes_prim rfl)))

theorem changes_updGo (a0) : Act.Changes [.free, .out, .regs, .mem, .log, .tide, .sec, .tier, .coh, .hural, .upd, .bell] (updGo a0) := by
  unfold updGo
  exact (changes_ask fun _ => (by unfold updFetched; exact (by (try dsimp only); unfold fetched; exact (changes_ask fun _ => (changes_ite ((changes_fetchSend _ _).up rfl) (changes_ite changes_skip (changes_ask fun _ => (changes_seq (by
    try dsimp only
    split
    · exact ((changes_updAccessFault _ _).up rfl)
    · exact (changes_updRun _)) (changes_ask fun _ => (changes_when ((changes_fetchDrop _).up rfl)))))))))))

theorem changes_updItem : Act.Changes [.free, .out, .regs, .mem, .log, .tide, .sec, .tier, .coh, .hural, .upd, .bell] updItem := by
  unfold updItem
  exact (changes_ask fun _ => (by
    split
    · exact changes_skip
    · exact (changes_ite changes_skip (changes_ite (changes_updGo _) (changes_ite ((changes_updFault _ _).up rfl) (changes_ite ((changes_updFrozen _).up rfl) (changes_ite changes_skip (changes_cons ((changes_updBegin _).up rfl) (changes_cons ((changes_pendStart _).up rfl) (changes_cons (changes_updGo _) changes_nil))))))))))

theorem changes_updLiveWrite (a0 a1) : Act.Changes [.regs, .log] (updLiveWrite a0 a1) := by
  unfold updLiveWrite
  exact (changes_ask fun _ => (changes_ite ((changes_logEv _ _ _ _).up rfl) ((changes_setF _ _ _ _).up rfl)))

theorem changes_updNop : Act.Changes [.regs, .mem, .log, .tide, .sec, .tier, .coh, .upd] updNop := by
  unfold updNop
  exact (changes_ask fun _ => (by
    split
    · exact changes_skip
    · exact (changes_ite changes_skip (changes_ite (changes_updFault _ _) (changes_cons ((changes_traceItem _ _ _).up rfl) (changes_cons ((changes_setF _ _ _ _).up rfl) (changes_cons ((changes_updUpd _).up rfl) (changes_cons ((changes_updSignal _).up rfl) (changes_cons ((changes_traceItem _ _ _).up rfl) changes_nil)))))))))

theorem changes_updResume : Act.Changes [.regs, .mem, .tide, .sec, .tier, .coh, .upd] updResume := by
  unfold updResume
  exact (changes_ask fun _ => (by
    split
    · exact changes_skip
    · exact (changes_cons ((changes_updUpd _).up rfl) (changes_cons (changes_when ((changes_setF _ _ _ _).up rfl)) (changes_cons ((changes_updSignal _).up rfl) (changes_cons ((changes_traceItem _ _ _).up rfl) changes_nil))))))

theorem changes_wcopyRun (a0) : Act.Changes [.free, .out, .regs, .mem, .log, .tide, .sec, .tier, .coh, .hural, .upd, .bell] (wcopyRun a0) := by
  unfold wcopyRun
  exact (by unfold withFree; exact (changes_seq (changes_ask fun _ => (changes_ask fun _ => (by
    try dsimp only
    split
    · exact ((changes_unitStall _ _).up rfl)
    · exact ((changes_updAccessFault _ _).up rfl)
    · exact ((changes_unitStall _ _).up rfl)
    · exact (by
        try dsimp only
        split
        · exact (changes_cons ((changes_writeRanges _ _ _).up rfl) (changes_cons ((changes_updAccessFault _ _).up rfl) changes_nil))
        · exact (changes_cons ((changes_writeRanges _ _ _).up rfl) (changes_cons (changes_updWrote.up rfl) (changes_cons (changes_cons ((changes_orFlags _ _ _ _).up rfl) (changes_cons (changes_when ((changes_amaxReport _ _ _).up rfl)) changes_nil)) changes_nil))))))) (changes_prim rfl)))

theorem changes_wcopyGo (a0) : Act.Changes [.free, .out, .regs, .mem, .log, .tide, .sec, .tier, .coh, .hural, .upd, .bell] (wcopyGo a0) := by
  unfold wcopyGo
  exact (changes_ask fun _ => (by unfold updFetched; exact (by (try dsimp only); unfold fetched; exact (changes_ask fun _ => (changes_ite ((changes_fetchSend _ _).up rfl) (changes_ite changes_skip (changes_ask fun _ => (changes_seq (by
    try dsimp only
    split
    · exact ((changes_updAccessFault _ _).up rfl)
    · exact (changes_wcopyRun _)) (changes_ask fun _ => (changes_when ((changes_fetchDrop _).up rfl)))))))))))

theorem changes_wcopyItem : Act.Changes [.free, .out, .regs, .mem, .log, .tide, .sec, .tier, .coh, .hural, .upd, .bell] wcopyItem := by
  unfold wcopyItem
  exact (changes_ask fun _ => (by
    split
    · exact changes_skip
    · exact (changes_ite changes_skip (changes_ite (changes_wcopyGo _) (changes_ite ((changes_updFault _ _).up rfl) (changes_ite changes_skip (changes_seq ((changes_updBegin _).up rfl) (changes_wcopyGo _))))))))

theorem changes_controlFlit (a0 a1) : Act.Changes [.hural] (controlFlit a0 a1) := by
  unfold controlFlit
  exact (changes_ite (changes_updPort _ _) (changes_ite (changes_updPort _ _) changes_skip))

theorem changes_endSession (a0 a1 a2) : Act.Changes [.out, .regs, .hural] (endSession a0 a1 a2) := by
  unfold endSession
  exact (changes_ask fun _ => (changes_cons ((changes_setF _ _ _ _).up rfl) (changes_cons ((changes_setF _ _ _ _).up rfl) (changes_cons ((changes_updPort _ _).up rfl) (changes_cons ((changes_updHural _).up rfl) (changes_cons ((changes_rerouteWaiting _).up rfl) changes_nil))))))

theorem changes_sendClose (a0 a1) : Act.Changes [.out, .hural] (sendClose a0 a1) := by
  unfold sendClose
  exact (changes_given (changes_sendControl _ _ _))

theorem changes_hostileClose (a0) : Act.Changes [.out, .regs, .log, .hural] (hostileClose a0) := by
  unfold hostileClose
  exact (changes_cons ((changes_evt _ _ _).up rfl) (changes_cons ((changes_logEv _ _ _ _).up rfl) (changes_cons ((changes_sendClose _ _).up rfl) (changes_cons ((changes_updPort _ _).up rfl) (changes_cons ((changes_endSession _ _ _).up rfl) changes_nil)))))

theorem changes_hostileEvent (a0) : Act.Changes [.out, .regs, .log, .hural] (hostileEvent a0) := by
  unfold hostileEvent
  exact (changes_ask fun _ => (changes_cons ((changes_updPort _ _).up rfl) (changes_cons (changes_when (changes_hostileClose _)) changes_nil)))

theorem changes_oweCredits (a0 a1 a2) : Act.Changes [.hural] (oweCredits a0 a1 a2) := by
  unfold oweCredits
  exact (changes_updPort _ _)

theorem changes_messageWhole (a0 a1 a2) : Act.Changes [.out, .regs, .log, .hural] (messageWhole a0 a1 a2) := by
  unfold messageWhole
  exact (changes_ask fun _ => (changes_ite (changes_cons ((changes_incF _ _ _ _).up rfl) (changes_cons ((changes_oweCredits _ _ _).up rfl) (changes_cons (changes_hostileEvent _) changes_nil))) (changes_cons (changes_when ((changes_updPort _ _).up rfl)) (changes_cons (changes_ite ((changes_deliver _ _).up rfl) (changes_cons ((changes_oweCredits _ _ _).up rfl) (changes_cons ((changes_sendMsg _).up rfl) changes_nil))) changes_nil))))

theorem changes_msgMalformed (a0 a1 a2 a3) : Act.Changes [.out, .regs, .log, .hural] (msgMalformed a0 a1 a2 a3) := by
  unfold msgMalformed
  exact (changes_cons ((changes_incF _ _ _ _).up rfl) (changes_cons ((changes_oweCredits _ _ _).up rfl) (changes_cons (changes_ask fun _ => (changes_when ((changes_sendMsg _).up rfl))) (changes_cons (changes_hostileEvent _) changes_nil))))

theorem changes_setPart (a0 a1 a2) : Act.Changes [.hural] (setPart a0 a1 a2) := by
  unfold setPart
  exact (changes_updPort _ _)

theorem changes_messageFlit (a0 a1 a2) : Act.Changes [.out, .regs, .log, .hural] (messageFlit a0 a1 a2) := by
  unfold messageFlit
  exact (changes_ask fun _ => (changes_ite (changes_cons (by
    split
    · exact (changes_ite changes_skip (changes_msgMalformed _ _ _ _))
    · exact changes_skip) (changes_cons (changes_ite (changes_cons ((changes_setPart _ _ _).up rfl) (changes_cons (changes_msgMalformed _ _ _ _) changes_nil)) (changes_ite (changes_cons ((changes_setPart _ _ _).up rfl) (changes_cons (changes_messageWhole _ _ _) changes_nil)) ((changes_setPart _ _ _).up rfl))) changes_nil)) (by
    try dsimp only
    split
    · exact (changes_ite ((changes_oweCredits _ _ _).up rfl) (changes_ite (changes_cons ((changes_setPart _ _ _).up rfl) (changes_cons (changes_msgMalformed _ _ _ _) changes_nil)) (changes_ite (changes_cons ((changes_setPart _ _ _).up rfl) (changes_cons (changes_messageWhole _ _ _) changes_nil)) ((changes_setPart _ _ _).up rfl))))
    · exact (changes_cons ((changes_setPart _ _ _).up rfl) (changes_cons (changes_msgMalformed _ _ _ _) changes_nil)))))

theorem changes_sessionOpens (a0) : Act.Changes [.out, .regs, .hural] (sessionOpens a0) := by
  unfold sessionOpens
  exact (changes_cons ((changes_updPort _ _).up rfl) (changes_cons ((changes_setF _ _ _ _).up rfl) (changes_cons (changes_ask fun _ => (changes_when ((changes_setF _ _ _ _).up rfl))) (changes_cons ((changes_evt _ _ _).up rfl) (changes_cons ((changes_rerouteWaiting _).up rfl) (changes_cons ((changes_pump _).up rfl) changes_nil))))))

theorem changes_acceptFlit (a0 a1 a2) : Act.Changes [.out, .regs, .log, .hural] (acceptFlit a0 a1 a2) := by
  unfold acceptFlit
  exact (changes_ask fun _ => (changes_cons ((changes_updPort _ _).up rfl) (changes_cons (changes_when ((changes_sessionOpens _).up rfl)) (changes_cons (changes_when (changes_cons ((changes_setF _ _ _ _).up rfl) (changes_cons ((changes_setF _ _ _ _).up rfl) changes_nil))) (changes_cons (changes_when ((changes_setF _ _ _ _).up rfl)) (changes_cons (changes_when ((changes_rerouteWaiting _).up rfl)) (changes_cons (changes_ite ((changes_controlFlit _ _).up rfl) (changes_ite changes_skip (changes_messageFlit _ _ _))) (changes_cons ((changes_pump _).up rfl) changes_nil))))))))

theorem changes_resend (a0 a1) : Act.Changes [.out, .regs, .hural] (resend a0 a1) := by
  unfold resend
  exact (changes_ask fun _ => (changes_cons ((changes_incF _ _ _ _).up rfl) (changes_cons ((changes_updPort _ _).up rfl) (changes_cons ((changes_putFlits _ _).up rfl) changes_nil))))

theorem changes_ackTimeout (a0) : Act.Changes [.out, .regs, .hural] (ackTimeout a0) := by
  unfold ackTimeout
  exact (changes_ask fun _ => (by
    try dsimp only
    split
    · exact (changes_resend _ _)
    · exact changes_skip))

theorem changes_answer (a0 a1 a2 a3) : Act.Changes [.out, .hural] (answer a0 a1 a2 a3) := by
  unfold answer
  exact (changes_sendMsg _)

theorem changes_quarantine (a0) : Act.Changes [.out, .regs, .log, .hural] (quarantine a0) := by
  unfold quarantine
  exact (changes_ask fun _ => (changes_cons ((changes_evt _ _ _).up rfl) (changes_cons ((changes_logEv _ _ _ _).up rfl) (changes_cons ((changes_sendClose _ _).up rfl) (changes_cons ((changes_updPort _ _).up rfl) (changes_cons ((changes_endSession _ _ _).up rfl) changes_nil))))))

theorem changes_badEvent (a0) : Act.Changes [.out, .regs, .log, .hural] (badEvent a0) := by
  unfold badEvent
  exact (changes_ask fun _ => (changes_cons ((changes_updPort _ _).up rfl) (changes_cons (changes_when (changes_quarantine _)) changes_nil)))

theorem changes_beginHandshake (a0) : Act.Changes [.free, .out, .regs, .hural] (beginHandshake a0) := by
  unfold beginHandshake
  exact (by unfold withFree; exact (changes_seq (changes_ask fun _ => (changes_ask fun _ => (changes_cons ((changes_setF _ _ _ _).up rfl) (changes_cons ((changes_updPort _ _).up rfl) (changes_cons ((changes_send _).up rfl) changes_nil))))) (changes_prim rfl)))

theorem changes_bellDone (a0) : Act.Changes [.bell] (bellDone a0) := by
  unfold bellDone
  exact (by
    split
    · exact (changes_farDone _ _)
    · exact changes_skip)

theorem changes_partnerGone (a0) : Act.Changes [.out, .regs, .log, .hural] (partnerGone a0) := by
  unfold partnerGone
  exact (changes_ask fun _ => (changes_cons ((changes_evt _ _ _).up rfl) (changes_cons ((changes_logEv _ _ _ _).up rfl) (changes_cons (changes_each fun _ => ((changes_sendNote _ _ _).up rfl)) changes_nil))))

theorem changes_closeTake (a0) : Act.Changes [.out, .regs, .log, .hural] (closeTake a0) := by
  unfold closeTake
  exact (changes_ask fun _ => (by
    split
    · exact (changes_cons ((changes_endSession _ _ _).up rfl) (changes_cons (changes_when (changes_partnerGone _)) changes_nil))
    · exact changes_skip))

theorem changes_dmaPutFault (a0 a1) : Act.Changes [.regs, .mem, .log, .tide, .tiles, .sec, .tier, .coh] (dmaPutFault a0 a1) := by
  unfold dmaPutFault
  exact (changes_ask fun _ => (by
    split
    · exact (changes_cons ((changes_logEv _ _ _ _).up rfl) (changes_cons ((changes_updEng _ _ _).up rfl) (changes_cons (changes_itemFault _ _ _ _ _ _) (changes_cons ((changes_setF _ _ _ _).up rfl) changes_nil))))
    · exact ((changes_logEv _ _ _ _).up rfl)))

theorem changes_evictTake (a0) : Act.Changes [.regs, .mem, .tier, .coh] (evictTake a0) := by
  unfold evictTake
  exact (changes_ask fun _ => (changes_cons ((changes_updTier _).up rfl) (changes_cons ((changes_evt _ _ _).up rfl) (changes_cons (changes_faultRecord _ _ _ _) changes_nil))))

theorem changes_exchangeFails (a0) : Act.Changes [.out, .regs, .log, .hural] (exchangeFails a0) := by
  unfold exchangeFails
  exact (changes_ask fun _ => (changes_cons ((changes_incF _ _ _ _).up rfl) (changes_cons (changes_ite (changes_cons ((changes_setF _ _ _ _).up rfl) (changes_cons ((changes_updPort _ _).up rfl) changes_nil)) ((changes_updPort _ _).up rfl)) (changes_cons (changes_hostileEvent _) changes_nil))))

theorem changes_farPoison (a0 a1) : Act.Changes [.regs, .mem, .log, .tier, .coh] (farPoison a0 a1) := by
  unfold farPoison
  exact (changes_ask fun _ => (changes_when (changes_cons ((changes_updTier _).up rfl) (changes_cons ((changes_objectPoisoned _ _ _ _ _).up rfl) (changes_cons ((changes_evt _ _ _).up rfl) (changes_cons ((changes_logEv _ _ _ _).up rfl) changes_nil))))))

theorem changes_fetchAgain (a0 a1) : Act.Changes [.tier] (fetchAgain a0 a1) := by
  unfold fetchAgain
  exact (changes_updTier _)

theorem changes_firstFlit (a0 a1) : Act.Changes [.out, .hural] (firstFlit a0 a1) := by
  unfold firstFlit
  exact (changes_cons ((changes_updPort _ _).up rfl) (changes_cons (changes_sendControl _ _ _) changes_nil))

theorem changes_flitTake (a0 a1 a2) : Act.Changes [.out, .regs, .log, .hural] (flitTake a0 a1 a2) := by
  unfold flitTake
  exact (changes_ask fun _ => (changes_ite changes_skip (changes_ite (changes_cons ((changes_incF _ _ _ _).up rfl) (changes_cons ((changes_sendNak _).up rfl) (changes_cons (changes_badEvent _) changes_nil))) (changes_ite (changes_cons ((changes_incF _ _ _ _).up rfl) (changes_cons ((changes_sendNak _).up rfl) (changes_cons (changes_badEvent _) changes_nil))) (changes_ite changes_skip (changes_ite (changes_cons ((changes_incF _ _ _ _).up rfl) (changes_cons ((changes_sendNak _).up rfl) changes_nil)) (changes_ite (changes_cons ((changes_incF _ _ _ _).up rfl) (changes_cons (changes_hostileEvent _) changes_nil)) (by
    try dsimp only
    split
    · exact (changes_acceptFlit _ _ _)
    · exact (changes_ite (changes_exchangeFails _) (changes_cons ((changes_incF _ _ _ _).up rfl) (changes_cons (changes_hostileEvent _) changes_nil)))))))))))

theorem changes_flitReceive (a0 a1 a2 a3) : Act.Changes [.out, .regs, .log, .hural] (flitReceive a0 a1 a2 a3) := by
  unfold flitReceive
  exact (changes_cons ((changes_incF _ _ _ _).up rfl) (changes_cons (changes_flitTake _ _ _) changes_nil))

theorem changes_frameReceive (a0 a1) : Act.Changes [.out, .regs, .log, .hural] (frameReceive a0 a1) := by
  unfold frameReceive
  exact (changes_ask fun _ => (changes_ite (changes_when (changes_cons ((changes_setF _ _ _ _).up rfl) (changes_cons ((changes_updPort _ _).up rfl) changes_nil))) (changes_ite ((changes_incF _ _ _ _).up rfl) (changes_ite (changes_cons ((changes_incF _ _ _ _).up rfl) (changes_cons (changes_badEvent _) changes_nil)) (changes_each fun _ => (changes_flitTake _ _ _))))))

theorem changes_freeTake (a0) : Act.Changes [.out, .regs, .mem, .tier, .coh, .hural] (freeTake a0) := by
  unfold freeTake
  exact (changes_ask fun _ => (by
    try dsimp only
    split
    · exact (changes_when (changes_lentFreed _))
    · exact changes_skip))

theorem changes_grantTake (a0) : Act.Changes [.free, .out, .regs, .mem, .log, .tier, .coh, .hural, .bell] (grantTake a0) := by
  unfold grantTake
  exact (by unfold takeReqOf; exact (changes_ask fun _ => (by
    try dsimp only
    split
    · exact (changes_seq ((changes_updHural _).up rfl) (by
        try dsimp only
        split
        · exact (changes_ask fun _ => (changes_ite changes_skip (changes_ite ((changes_migFinish _).up rfl) (by
            try dsimp only
            split
            · exact (changes_cons ((changes_updTier _).up rfl) (changes_cons (changes_migRun _) changes_nil))
            · exact changes_skip))))
        · exact changes_skip))
    · exact changes_skip)))

theorem changes_helloTake (a0 a1 a2 a3 a4 a5 a6 a7 a8) : Act.Changes [.free, .out, .regs, .log, .hural] (helloTake a0 a1 a2 a3 a4 a5 a6 a7 a8) := by
  unfold helloTake
  exact (by unfold withFree; exact (changes_seq (changes_ask fun _ => (changes_ask fun _ => (changes_ite (changes_cons ((changes_setF _ _ _ _).up rfl) (changes_cons (changes_each fun _ => ((changes_setF _ _ _ _).up rfl)) (changes_cons ((changes_updPort _ _).up rfl) (changes_cons (changes_when ((changes_send _).up rfl)) changes_nil)))) ((changes_exchangeFails _).up rfl)))) (changes_prim rfl)))

theorem changes_rekeyed (a0 a1 a2) : Act.Changes [.regs, .hural] (rekeyed a0 a1 a2) := by
  unfold rekeyed
  exact (changes_cons ((changes_updPort _ _).up rfl) (changes_cons ((changes_evt _ _ _).up rfl) changes_nil))

theorem changes_handshakeTake (a0 a1) : Act.Changes [.free, .out, .regs, .log, .hural] (handshakeTake a0 a1) := by
  unfold handshakeTake
  exact (changes_ask fun _ => (by
    try dsimp only
    split
    · exact (by
        try dsimp only
        split
        · exact (changes_ite (changes_helloTake _ _ _ _ _ _ _ _ _) changes_skip)
        · exact (by (try dsimp only); unfold exchangeStep; exact (by (try dsimp only); unfold withFree; exact (changes_seq (changes_ask fun _ => (changes_ask fun _ => (by
            try dsimp only
            split
            · exact (changes_cons ((changes_updPort _ _).up rfl) (changes_cons ((changes_send _).up rfl) changes_nil))
            · exact (changes_ite (changes_cons ((changes_send _).up rfl) (changes_cons ((changes_firstFlit _ _).up rfl) changes_nil)) ((changes_exchangeFails _).up rfl))
            · exact (changes_ite ((changes_firstFlit _ _).up rfl) ((changes_exchangeFails _).up rfl))
            · exact changes_skip))) (changes_prim rfl)))))
    · exact (changes_ite (by (try dsimp only); unfold exchangeStep; exact (by (try dsimp only); unfold withFree; exact (changes_seq (changes_ask fun _ => (changes_ask fun _ => (by
        try dsimp only
        split
        · exact (changes_cons ((changes_updPort _ _).up rfl) (changes_cons ((changes_send _).up rfl) changes_nil))
        · exact (changes_ite (changes_cons ((changes_send _).up rfl) (changes_cons ((changes_rekeyed _ _ _).up rfl) changes_nil)) ((changes_exchangeFails _).up rfl))
        · exact (changes_ite ((changes_rekeyed _ _ _).up rfl) ((changes_exchangeFails _).up rfl))
        · exact changes_skip))) (changes_prim rfl)))) changes_skip)))

theorem changes_pagePoison (a0) : Act.Changes [.regs, .mem, .log, .tier, .coh] (pagePoison a0) := by
  unfold pagePoison
  exact (changes_ask fun _ => (by
    split
    · exact (changes_farPoison _ _)
    · exact changes_skip))

theorem changes_updPutFault (a0) : Act.Changes [.regs, .mem, .log, .tide, .sec, .tier, .coh, .upd] (updPutFault a0) := by
  unfold updPutFault
  exact (changes_ask fun _ => (by
    split
    · exact (changes_updAccessFault _ _)
    · exact ((changes_logEv _ _ _ _).up rfl)))

theorem changes_writeHeld (a0 a1) : Act.Changes [.regs, .mem, .log, .tier, .coh, .hural] (writeHeld a0 a1) := by
  unfold writeHeld
  exact (changes_cons ((changes_farPoison _ _).up rfl) (changes_cons ((changes_updHural _).up rfl) (changes_cons (changes_when ((changes_unitStall _ _).up rfl)) changes_nil)))

theorem changes_nackApply (a0 a1) : Act.Changes [.free, .out, .regs, .mem, .log, .tide, .tiles, .sec, .tier, .coh, .hural, .upd, .bell, .shd] (nackApply a0 a1) := by
  unfold nackApply
  repeat' first
    | exact changes_skip
    | exact changes_nil
    | exact changes_prim rfl
    | exact ((changes_farPoison _ _).up rfl)
    | exact ((changes_memAccess _ _ _ _).up rfl)
    | exact ((changes_accessFault _ _).up rfl)
    | exact ((changes_writeHeld _ _).up rfl)
    | exact ((changes_updPutFault _).up rfl)
    | exact ((changes_dmaPutFault _ _).up rfl)
    | exact ((changes_fetchAnswer _ _ _).up rfl)
    | exact ((changes_fetchAgain _ _).up rfl)
    | exact ((changes_pagePoison _).up rfl)
    | exact ((changes_farDone _ _).up rfl)
    | exact ((changes_migFinish _).up rfl)
    | exact ((changes_logEv _ _ _ _).up rfl)
    | refine changes_ask fun s => ?_
    | refine changes_given ?_
    | refine changes_when ?_
    | refine changes_cons ?_ ?_
    | refine changes_ite ?_ ?_
    | split
    | dsimp only

theorem changes_heldAgain (a0) : Act.Changes [.free, .out, .regs, .mem, .log, .tide, .tiles, .sec, .tier, .coh, .hural, .upd, .bell, .shd] (heldAgain a0) := by
  unfold heldAgain
  exact (changes_ask fun _ => (changes_cons (by
    split
    · exact ((changes_unitGoes _).up rfl)
    · exact changes_skip) (changes_cons (by
    split
    · exact ((changes_sendWrite _ _ _ _).up rfl)
    · exact (changes_nackApply _ _)
    · exact (changes_seq ((changes_writePiece _ _ _ _).up rfl) ((changes_bellDone _).up rfl))) changes_nil)))

theorem changes_tryOpen (a0) : Act.Changes [.free, .out, .regs, .hural] (tryOpen a0) := by
  unfold tryOpen
  exact (changes_ask fun _ => (changes_when (changes_beginHandshake _)))

theorem changes_holdExpiry : Act.Changes [.free, .out, .regs, .hural] holdExpiry := by
  unfold holdExpiry
  exact (changes_given (changes_seq ((changes_updHural _).up rfl) (changes_each fun _ => (changes_tryOpen _))))

theorem changes_hurClose (a0) : Act.Changes [.out, .regs, .hural] (hurClose a0) := by
  unfold hurClose
  exact (changes_cons ((changes_sendClose _ _).up rfl) (changes_cons (changes_given (changes_endSession _ _ _)) changes_nil))

theorem changes_hurOpen (a0) : Act.Changes [.free, .out, .regs, .hural] (hurOpen a0) := by
  unfold hurOpen
  exact (changes_seq ((changes_updPort _ _).up rfl) (changes_tryOpen _))

theorem changes_keepalive (a0) : Act.Changes [.out, .hural] (keepalive a0) := by
  unfold keepalive
  exact (changes_given (changes_sendControl _ _ _))

theorem changes_touchLent (a0 a1) : Act.Changes [.tier] (touchLent a0 a1) := by
  unfold touchLent
  exact (changes_ask fun _ => (changes_each fun _ => (by
    try dsimp only
    split
    · exact (changes_updTier _)
    · exact changes_skip)))

theorem changes_lenderRead (a0) : Act.Changes [.out, .tier, .hural] (lenderRead a0) := by
  unfold lenderRead
  exact (changes_ask fun _ => (changes_ite ((changes_answer _ _ _ _).up rfl) (changes_cons ((changes_touchLent _ _).up rfl) (changes_cons ((changes_answer _ _ _ _).up rfl) changes_nil))))

theorem changes_linkUp (a0 a1) : Act.Changes [.free, .out, .regs, .log, .hural] (linkUp a0 a1) := by
  unfold linkUp
  exact (changes_ask fun _ => (changes_ite changes_skip (changes_ite (changes_cons (changes_when ((changes_endSession _ _ _).up rfl)) (changes_cons ((changes_updPort _ _).up rfl) (changes_cons ((changes_tryOpen _).up rfl) changes_nil))) (changes_cons ((changes_setF _ _ _ _).up rfl) (changes_cons ((changes_updPort _ _).up rfl) (changes_cons ((changes_logEv _ _ _ _).up rfl) changes_nil))))))

theorem changes_probeBerth (a0) : Act.Changes [.out, .hural] (probeBerth a0) := by
  unfold probeBerth
  exact (changes_ask fun _ => (changes_ite changes_skip (changes_cons ((changes_updHural _).up rfl) (changes_cons (changes_each fun _ => (changes_enqueue _ _)) changes_nil))))

theorem changes_lostTake (a0) : Act.Changes [.out, .hural] (lostTake a0) := by
  unfold lostTake
  exact (changes_given (changes_probeBerth _))

theorem changes_nackTake (a0) : Act.Changes [.free, .out, .regs, .mem, .log, .tide, .tiles, .sec, .tier, .coh, .hural, .upd, .bell, .shd] (nackTake a0) := by
  unfold nackTake
  exact (by unfold takeReqOf; exact (changes_ask fun _ => (by
    try dsimp only
    split
    · exact (changes_seq ((changes_updHural _).up rfl) (changes_nackApply _ _))
    · exact changes_skip)))

theorem changes_nakTake (a0) : Act.Changes [.out, .regs, .hural] (nakTake a0) := by
  unfold nakTake
  exact (changes_ask fun _ => (by
    try dsimp only
    split
    · exact (changes_cons ((changes_updPort _ _).up rfl) (changes_cons (changes_resend _ _) (changes_cons ((changes_pump _).up rfl) changes_nil)))
    · exact changes_skip))

theorem changes_partnerAbsent (a0) : Act.Changes [.out, .regs, .log, .hural] (partnerAbsent a0) := by
  unfold partnerAbsent
  exact (changes_given (changes_cons ((changes_setF _ _ _ _).up rfl) (changes_cons ((changes_setF _ _ _ _).up rfl) (changes_cons ((changes_rerouteWaiting _).up rfl) (changes_cons (changes_partnerGone _) changes_nil)))))

theorem changes_partnerSlow (a0 a1) : Act.Changes [.out, .regs, .log, .hural] (partnerSlow a0 a1) := by
  unfold partnerSlow
  exact (changes_given (changes_cons ((changes_updPort _ _).up rfl) (changes_cons ((changes_setF _ _ _ _).up rfl) (changes_cons ((changes_incF _ _ _ _).up rfl) (changes_cons ((changes_evt _ _ _).up rfl) (changes_cons ((changes_logEv _ _ _ _).up rfl) (changes_cons ((changes_rerouteWaiting _).up rfl) changes_nil)))))))

theorem changes_partnerStuck (a0) : Act.Changes [.out, .regs, .log, .hural] (partnerStuck a0) := by
  unfold partnerStuck
  exact (changes_given (changes_quarantine _))

theorem changes_probeTimeout (a0) : Act.Changes [.tide, .hural] (probeTimeout a0) := by
  unfold probeTimeout
  exact (changes_given (changes_cons ((changes_updHural _).up rfl) (changes_cons (changes_prim rfl) changes_nil)))

theorem changes_quarantineEnd (a0) : Act.Changes [.regs] (quarantineEnd a0) := by
  unfold quarantineEnd
  exact (changes_given (changes_setF _ _ _ _))

theorem changes_quarantineRetrain (a0) : Act.Changes [.regs, .hural] (quarantineRetrain a0) := by
  unfold quarantineRetrain
  exact (changes_given (changes_seq ((changes_setF _ _ _ _).up rfl) ((changes_updPort _ _).up rfl)))

theorem changes_rdataTake (a0) : Act.Changes [.out, .tier, .hural] (rdataTake a0) := by
  unfold rdataTake
  exact (by unfold takeReqOf; exact (changes_ask fun _ => (by
    try dsimp only
    split
    · exact (changes_seq ((changes_updHural _).up rfl) (by
        try dsimp only
        split
        · exact ((changes_respond _ _ _).up rfl)
        · exact ((changes_fetchAnswer _ _ _).up rfl)
        · exact changes_skip))
    · exact changes_skip)))

theorem changes_readyAdd (a0 a1) : Act.Changes [.tide] (readyAdd a0 a1) := by
  unfold readyAdd
  exact (changes_prim rfl)

theorem changes_rekeyStart (a0) : Act.Changes [.free, .out, .hural] (rekeyStart a0) := by
  unfold rekeyStart
  exact (by unfold withFree; exact (changes_seq (changes_ask fun _ => (changes_given (changes_cons ((changes_updPort _ _).up rfl) (changes_cons ((changes_send _).up rfl) changes_nil)))) (changes_prim rfl)))

theorem changes_rekeyDue (a0) : Act.Changes [.free, .out, .regs, .hural] (rekeyDue a0) := by
  unfold rekeyDue
  exact (changes_ask fun _ => (changes_ite ((changes_endSession _ _ _).up rfl) ((changes_rekeyStart _).up rfl)))

theorem changes_resendHeld : Act.Changes [.free, .out, .regs, .mem, .log, .tide, .tiles, .sec, .tier, .coh, .hural, .upd, .bell, .shd] resendHeld := by
  unfold resendHeld
  exact (changes_ask fun _ => (changes_when (changes_seq ((changes_updHural _).up rfl) (changes_each fun _ => (changes_heldAgain _)))))

theorem changes_sessionRetry (a0) : Act.Changes [.free, .out, .regs, .hural] (sessionRetry a0) := by
  unfold sessionRetry
  exact (changes_ask fun _ => (changes_when (changes_seq ((changes_updPort _ _).up rfl) (changes_ite ((changes_rekeyStart _).up rfl) (changes_tryOpen _)))))

theorem changes_stampSend (a0) : Act.Changes [.out, .hural] (stampSend a0) := by
  unfold stampSend
  exact (changes_ask fun _ => (changes_sendNote _ _ _))

theorem changes_stampTake (a0) : Act.Changes [.out, .hural] (stampTake a0) := by
  unfold stampTake
  exact (changes_ask fun _ => (changes_seq ((changes_updHural _).up rfl) (changes_when (changes_stampSend _))))

theorem changes_wackTake (a0) : Act.Changes [.hural, .bell] (wackTake a0) := by
  unfold wackTake
  exact (by unfold takeReqOf; exact (changes_ask fun _ => (by
    try dsimp only
    split
    · exact (changes_seq ((changes_updHural _).up rfl) ((changes_bellDone _).up rfl))
    · exact changes_skip)))

theorem changes_batchCounter (a0) : Act.Changes [.regs] (batchCounter a0) := by
  unfold batchCounter
  exact (changes_ask fun _ => (changes_ite (changes_each fun _ => (changes_setF _ _ _ _)) changes_skip))

theorem changes_cusEnable : Act.Changes [.regs] cusEnable := by
  unfold cusEnable
  exact (changes_ask fun _ => (changes_ite (changes_setF _ _ _ _) (changes_evt _ _ _)))

theorem changes_updCus (a0) : Act.Changes [.cus] (updCus a0) := by
  unfold updCus
  exact (changes_prim rfl)

theorem changes_cusReset : Act.Changes [.cus] cusReset := by
  unfold cusReset
  exact (changes_updCus _)

theorem changes_cusRestore : Act.Changes [.regs, .log, .cus] cusRestore := by
  unfold cusRestore
  exact (changes_ask fun _ => (changes_ite ((changes_logEv _ _ _ _).up rfl) (changes_cons ((changes_setF _ _ _ _).up rfl) (changes_cons ((changes_setF _ _ _ _).up rfl) (changes_cons ((changes_setF _ _ _ _).up rfl) (changes_cons ((changes_updCus _).up rfl) changes_nil))))))

theorem changes_emitOne (a0) : Act.Changes [.regs, .mem, .tier, .coh, .cus] (emitOne a0) := by
  unfold emitOne
  exact (changes_ask fun _ => (changes_cons ((changes_pkgWrite _ _).up rfl) (changes_cons ((changes_updCus _).up rfl) (changes_cons (changes_when (changes_each fun _ => ((changes_incF _ _ _ _).up rfl))) changes_nil))))

theorem changes_emitLoop (a0) : Act.Changes [.regs, .mem, .tier, .coh, .cus] (emitLoop a0) := by
  induction a0 with
  | zero =>
    unfold emitLoop
    repeat' first
      | with_reducible exact changes_skip
      | with_reducible refine changes_cons ?_ ?_
      | with_reducible exact changes_nil
      | with_reducible refine changes_seq ?_ ?_
      | with_reducible refine changes_when ?_
      | with_reducible refine changes_given ?_
      | with_reducible refine changes_each fun _ => ?_
      | ((with_reducible refine changes_prim ?_); exact rfl)
      | ((with_reducible refine Act.Changes.up (changes_emitOne _) ?_); exact rfl)
      | ((with_reducible refine Act.Changes.up (changes_updCus _) ?_); exact rfl)
      | with_reducible refine changes_ask fun _ => ?_
      | with_reducible refine changes_ite ?_ ?_
      | split
      | (dsimp only; split)
  | succ n ih =>
    unfold emitLoop
    repeat' first
      | with_reducible exact changes_skip
      | exact ih
      | with_reducible refine changes_cons ?_ ?_
      | with_reducible exact changes_nil
      | with_reducible refine changes_seq ?_ ?_
      | with_reducible refine changes_when ?_
      | with_reducible refine changes_given ?_
      | with_reducible refine changes_each fun _ => ?_
      | ((with_reducible refine changes_prim ?_); exact rfl)
      | ((with_reducible refine Act.Changes.up (changes_emitOne _) ?_); exact rfl)
      | ((with_reducible refine Act.Changes.up (changes_updCus _) ?_); exact rfl)
      | with_reducible refine changes_ask fun _ => ?_
      | with_reducible refine changes_ite ?_ ?_
      | split
      | (dsimp only; split)

theorem changes_emitAll : Act.Changes [.regs, .mem, .tier, .coh, .cus] emitAll := by
  unfold emitAll
  exact (changes_ask fun _ => (changes_emitLoop _))

theorem changes_cusStepClose (a0) : Act.Changes [.regs, .mem, .tier, .coh, .cus] (cusStepClose a0) := by
  unfold cusStepClose
  exact (changes_ask fun _ => (changes_ite (changes_cons ((changes_pkgWrite _ _).up rfl) (changes_cons ((changes_setF _ _ _ _).up rfl) (changes_cons ((changes_updCus _).up rfl) (changes_cons ((changes_batchCounter _).up rfl) (changes_cons changes_emitAll changes_nil))))) changes_skip))

theorem changes_readSubs (a0) : Act.Changes [.regs, .cus] (readSubs a0) := by
  induction a0 with
  | zero =>
    unfold readSubs
    repeat' first
      | with_reducible exact changes_skip
      | with_reducible refine changes_cons ?_ ?_
      | with_reducible exact changes_nil
      | with_reducible refine changes_seq ?_ ?_
      | with_reducible refine changes_when ?_
      | with_reducible refine changes_given ?_
      | with_reducible refine changes_each fun _ => ?_
      | ((with_reducible refine changes_prim ?_); exact rfl)
      | ((with_reducible refine Act.Changes.up (changes_setF _ _ _ _) ?_); exact rfl)
      | ((with_reducible refine Act.Changes.up (changes_updCus _) ?_); exact rfl)
      | with_reducible refine changes_ask fun _ => ?_
      | with_reducible refine changes_ite ?_ ?_
      | split
      | (dsimp only; split)
  | succ n ih =>
    unfold readSubs
    repeat' first
      | with_reducible exact changes_skip
      | exact ih
      | with_reducible refine changes_cons ?_ ?_
      | with_reducible exact changes_nil
      | with_reducible refine changes_seq ?_ ?_
      | with_reducible refine changes_when ?_
      | with_reducible refine changes_given ?_
      | with_reducible refine changes_each fun _ => ?_
      | ((with_reducible refine changes_prim ?_); exact rfl)
      | ((with_reducible refine Act.Changes.up (changes_setF _ _ _ _) ?_); exact rfl)
      | ((with_reducible refine Act.Changes.up (changes_updCus _) ?_); exact rfl)
      | with_reducible refine changes_ask fun _ => ?_
      | with_reducible refine changes_ite ?_ ?_
      | split
      | (dsimp only; split)

theorem changes_customsReads : Act.Changes [.regs, .cus] customsReads := by
  unfold customsReads
  exact (changes_ask fun _ => (changes_when (changes_readSubs _)))

theorem changes_cusTail (a0) : Act.Changes [.regs, .cus] (cusTail a0) := by
  unfold cusTail
  exact (changes_seq ((changes_setF _ _ _ _).up rfl) changes_customsReads)

theorem changes_dropSample (a0 a1) : Act.Changes [.regs, .mem, .log, .tier, .coh, .cus] (dropSample a0 a1) := by
  unfold dropSample
  exact (changes_cons ((changes_incF _ _ _ _).up rfl) (changes_cons ((changes_evt _ _ _).up rfl) (changes_cons ((changes_logEv _ _ _ _).up rfl) (changes_cons ((changes_updCus _).up rfl) (changes_cons (changes_emitAll.up rfl) changes_nil)))))

theorem changes_takeIn (a0 a1) : Act.Changes [.regs, .mem, .log, .tier, .coh, .cus] (takeIn a0 a1) := by
  unfold takeIn
  exact (changes_ask fun _ => (changes_ite (changes_dropSample _ _) (changes_seq ((changes_updCus _).up rfl) (changes_emitAll.up rfl))))

theorem changes_customsCheck : Act.Changes [.regs, .mem, .log, .tier, .coh, .cus] customsCheck := by
  unfold customsCheck
  exact (changes_seq (changes_customsReads.up rfl) (changes_ask fun _ => (by
    split
    · exact changes_skip
    · exact (changes_ite changes_skip (changes_ite (changes_seq ((changes_updCus _).up rfl) (changes_dropSample _ _)) (changes_ite (changes_seq ((changes_updCus _).up rfl) (changes_dropSample _ _)) (changes_ite (changes_seq ((changes_updCus _).up rfl) (changes_takeIn _ _)) changes_skip)))))))

theorem changes_deadlineDrop : Act.Changes [.regs, .mem, .log, .tier, .coh, .cus] deadlineDrop := by
  unfold deadlineDrop
  exact (changes_ask fun _ => (changes_each fun _ => (changes_dropSample _ _)))

theorem changes_sampleDone (a0 a1) : Act.Changes [.regs, .mem, .tier, .coh, .cus] (sampleDone a0 a1) := by
  unfold sampleDone
  exact (changes_seq ((changes_updCus _).up rfl) changes_emitAll)

theorem changes_decodeComplete (a0 a1) : Act.Changes [.regs, .mem, .log, .tier, .coh, .cus] (decodeComplete a0 a1) := by
  unfold decodeComplete
  exact (changes_ask fun _ => (by
    split
    · exact changes_skip
    · exact (changes_ite changes_skip (changes_ite (changes_dropSample _ _) (changes_ite (changes_dropSample _ _) (by
        split
        · exact (changes_dropSample _ _)
        · exact (changes_ite ((changes_sampleDone _ _).up rfl) (changes_dropSample _ _))))))))

theorem changes_hostDone (a0) : Act.Changes [.regs, .mem, .log, .tier, .coh, .cus] (hostDone a0) := by
  unfold hostDone
  exact (changes_ask fun _ => (by
    try dsimp only
    split
    · exact ((changes_incF _ _ _ _).up rfl)
    · exact (changes_ite ((changes_sampleDone _ _).up rfl) (changes_dropSample _ _))))

theorem changes_runComplete (a0) : Act.Changes [.regs, .mem, .tide, .sec, .tier, .coh, .cus] (runComplete a0) := by
  unfold runComplete
  exact (changes_ask fun _ => (by
    split
    · exact (changes_cons ((changes_updCus _).up rfl) (changes_cons ((changes_traceItem _ _ _).up rfl) changes_nil))
    · exact changes_skip))

theorem changes_runStart (a0) : Act.Changes [.regs, .mem, .log, .tide, .sec, .tier, .coh, .cus] (runStart a0) := by
  unfold runStart
  exact (changes_ask fun _ => (by
    split
    · exact (changes_ite (changes_cons ((changes_traceItem _ _ _).up rfl) (changes_cons ((changes_updCus _).up rfl) changes_nil)) (changes_cons ((changes_traceItem _ _ _).up rfl) (changes_cons ((changes_updCus _).up rfl) (changes_cons ((changes_evt _ _ _).up rfl) (changes_cons ((changes_logEv _ _ _ _).up rfl) (changes_cons ((changes_traceItem _ _ _).up rfl) changes_nil))))))
    · exact changes_skip))

theorem changes_copyRides (a0 a1 a2) : Act.Changes [.out, .hural] (copyRides a0 a1 a2) := by
  unfold copyRides
  exact (changes_ask fun _ => (changes_each fun _ => (changes_each fun _ => (changes_sendBulk _ _ _ _))))

theorem changes_updShd (a0) : Act.Changes [.shd] (updShd a0) := by
  unfold updShd
  exact (changes_prim rfl)

theorem changes_commitRecord : Act.Changes [.out, .hural, .shd] commitRecord := by
  unfold commitRecord
  exact (changes_ask fun _ => (changes_when (changes_cons ((changes_updShd _).up rfl) (changes_cons (changes_when (changes_cons ((changes_copyRides _ _ _).up rfl) (changes_cons (changes_each fun _ => ((changes_sendBulk _ _ _ _).up rfl)) (changes_cons ((changes_updShd _).up rfl) changes_nil)))) changes_nil))))

theorem changes_setTileStreams (a0 a1) : Act.Changes [.tiles] (setTileStreams a0 a1) := by
  unfold setTileStreams
  exact (changes_updTile _ _)

theorem changes_counterRestore (a0) : Act.Changes [.regs, .log, .tiles, .upd] (counterRestore a0) := by
  unfold counterRestore
  exact (changes_ask fun _ => (changes_cons (changes_each fun _ => ((changes_setTileStreams _ _).up rfl)) (changes_cons ((changes_updUpd _).up rfl) (changes_cons (changes_each fun _ => (changes_cons ((changes_logEv _ _ _ _).up rfl) (changes_cons ((changes_incF _ _ _ _).up rfl) (changes_cons ((changes_evt _ _ _).up rfl) changes_nil)))) changes_nil))))

theorem changes_refuseHeld (a0) : Act.Changes [.out, .hural] (refuseHeld a0) := by
  unfold refuseHeld
  exact (changes_ask fun _ => (changes_when (changes_sendMsg _)))

theorem changes_farRequestsEnd (a0) : Act.Changes [.free, .out, .regs, .mem, .log, .tide, .tiles, .sec, .tier, .coh, .hural, .upd, .bell, .shd] (farRequestsEnd a0) := by
  unfold farRequestsEnd
  exact (changes_ask fun _ => (changes_cons ((changes_updHural _).up rfl) (changes_cons (changes_each fun _ => (by
    split
    · exact changes_skip
    · exact (changes_cons ((changes_logEv _ _ _ _).up rfl) (changes_cons (changes_nackApply _ _) changes_nil))
    · exact (changes_nackApply _ _))) (changes_cons ((changes_bellLost _).up rfl) (changes_cons (changes_each fun _ => ((changes_refuseHeld _).up rfl)) changes_nil)))))

theorem changes_lendingEnds (a0) : Act.Changes [.out, .regs, .mem, .log, .tier, .coh, .hural] (lendingEnds a0) := by
  unfold lendingEnds
  exact (changes_ask fun _ => (changes_cons ((changes_updHural _).up rfl) (changes_cons (changes_each fun _ => ((changes_lentFreed _).up rfl)) (changes_cons (changes_each fun _ => ((changes_pageLost _).up rfl)) changes_nil))))

theorem changes_reportsForgotten (a0) : Act.Changes [.tide] (reportsForgotten a0) := by
  unfold reportsForgotten
  exact (changes_ask fun _ => (changes_prim rfl))

theorem changes_spareChoice (a0) : Act.Changes [.out, .hural, .shd] (spareChoice a0) := by
  unfold spareChoice
  exact (changes_ask fun _ => (changes_cons ((changes_updShd _).up rfl) (changes_cons (changes_each fun _ => ((changes_sendNote _ _ _).up rfl)) changes_nil)))

theorem changes_darkApply (a0) : Act.Changes [.free, .out, .regs, .mem, .log, .tide, .tiles, .sec, .tier, .coh, .hural, .upd, .bell, .shd] (darkApply a0) := by
  unfold darkApply
  exact (changes_ask fun _ => (changes_cons (changes_prim rfl) (changes_cons ((changes_updShd _).up rfl) (changes_cons (changes_ask fun _ => ((changes_setF _ _ _ _).up rfl)) (changes_cons (changes_each fun _ => ((changes_lendingEnds _).up rfl)) (changes_cons (changes_each fun _ => (changes_farRequestsEnd _)) (changes_cons ((changes_reportsForgotten _).up rfl) (changes_cons (changes_when (changes_seq (changes_each fun _ => (changes_when ((changes_sendMsg _).up rfl))) ((changes_updHural _).up rfl))) (changes_cons (changes_when ((changes_spareChoice _).up rfl)) changes_nil)))))))))

theorem changes_giveUp : Act.Changes [.out, .regs, .log, .hural, .shd] giveUp := by
  unfold giveUp
  exact (changes_ask fun _ => (changes_when (changes_cons (changes_when (changes_each fun _ => (changes_when ((changes_sendNote _ _ _).up rfl)))) (changes_cons ((changes_setF _ _ _ _).up rfl) (changes_cons ((changes_setF _ _ _ _).up rfl) (changes_cons ((changes_updShd _).up rfl) (changes_cons ((changes_evt _ _ _).up rfl) (changes_cons ((changes_logEv _ _ _ _).up rfl) (changes_cons ((changes_updHural _).up rfl) changes_nil)))))))))

theorem changes_mirror (a0 a1) : Act.Changes [.out, .hural] (mirror a0 a1) := by
  unfold mirror
  exact (changes_ask fun _ => (changes_each fun _ => (changes_when (changes_each fun _ => (changes_sendBulk _ _ _ _)))))

theorem changes_partRestore (a0 a1) : Act.Changes [.regs] (partRestore a0 a1) := by
  unfold partRestore
  exact (changes_when (changes_cons (changes_setF _ _ _ _) (changes_cons (changes_setF _ _ _ _) (changes_cons (changes_setF _ _ _ _) (changes_cons (changes_setF _ _ _ _) (changes_cons (changes_setF _ _ _ _) (changes_cons (changes_prim rfl) (changes_cons (changes_prim rfl) changes_nil))))))))

theorem changes_realign (a0) : Act.Changes [.regs, .tiles, .upd] (realign a0) := by
  unfold realign
  exact (changes_ask fun _ => (changes_cons ((changes_setF _ _ _ _).up rfl) (changes_cons (changes_each fun _ => ((changes_setTileStreams _ _).up rfl)) (changes_cons ((changes_updUpd _).up rfl) changes_nil))))

theorem changes_restoreWrites (a0) : Act.Changes [.regs, .mem, .tier, .coh] (restoreWrites a0) := by
  unfold restoreWrites
  exact (changes_each fun _ => (changes_pkgWrite _ _))

theorem changes_recordPhase (a0) : Act.Changes [.regs, .mem, .log, .tiles, .tier, .coh, .upd, .shd] (recordPhase a0) := by
  unfold recordPhase
  exact (changes_ask fun _ => (by
    split
    · exact (changes_cons ((changes_restoreWrites _).up rfl) (changes_cons (changes_each fun _ => ((changes_partRestore _ _).up rfl)) (changes_cons (changes_each fun _ => (changes_prim rfl)) (changes_cons (changes_ask fun _ => ((changes_pkgWrite _ _).up rfl)) (changes_cons ((changes_counterRestore _).up rfl) (changes_cons ((changes_setF _ _ _ _).up rfl) (changes_cons ((changes_updShd _).up rfl) (changes_cons ((changes_setF _ _ _ _).up rfl) changes_nil))))))))
    · exact (changes_cons ((changes_evt _ _ _).up rfl) (changes_cons ((changes_logEv _ _ _ _).up rfl) changes_nil))))

theorem changes_rollItem (a0 a1) : Act.Changes [.free, .out, .regs, .mem, .log, .tide, .sec, .tier, .coh, .hural, .upd, .bell] (rollItem a0 a1) := by
  unfold rollItem
  exact (changes_ask fun _ => (changes_when (changes_cons ((changes_updUpd _).up rfl) (changes_cons (changes_updRun _) (changes_cons ((changes_updUpd _).up rfl) changes_nil)))))

theorem changes_rollStep (a0 a1 a2) : Act.Changes [.free, .out, .regs, .mem, .log, .tide, .sec, .tier, .coh, .hural, .upd, .bell, .shd] (rollStep a0 a1 a2) := by
  unfold rollStep
  exact (changes_cons ((changes_restoreWrites _).up rfl) (changes_cons ((changes_computeEta _).up rfl) (changes_cons ((changes_updUpd _).up rfl) (changes_cons (changes_each fun _ => ((changes_rollItem _ _).up rfl)) (changes_cons (changes_ask fun _ => (changes_each fun _ => ((changes_flipGroup _).up rfl))) (changes_cons ((changes_setF _ _ _ _).up rfl) (changes_cons ((changes_updShd _).up rfl) changes_nil)))))))

theorem changes_restoreDone (a0) : Act.Changes [.free, .out, .regs, .mem, .log, .tide, .tiles, .sec, .tier, .coh, .hural, .upd, .cus, .bell, .shd] (restoreDone a0) := by
  unfold restoreDone
  exact (changes_ask fun _ => (by
    split
    · exact ((changes_setF _ _ _ _).up rfl)
    · exact ((changes_recordPhase _).up rfl)
    · exact (changes_seq ((changes_restoreWrites _).up rfl) ((changes_setF _ _ _ _).up rfl))
    · exact (changes_seq ((changes_rollStep _ _ _).up rfl) (changes_when ((changes_setF _ _ _ _).up rfl)))
    · exact (changes_cons (changes_cusRestore.up rfl) (changes_cons ((changes_setF _ _ _ _).up rfl) (changes_cons ((changes_setF _ _ _ _).up rfl) changes_nil)))
    · exact (changes_cons ((changes_setF _ _ _ _).up rfl) (changes_cons ((changes_setF _ _ _ _).up rfl) (changes_cons ((changes_setF _ _ _ _).up rfl) (changes_cons ((changes_updShd _).up rfl) (changes_cons (changes_when ((changes_logEv _ _ _ _).up rfl)) changes_nil)))))
    · exact changes_skip))

theorem changes_secureDone : Act.Changes [.regs, .shd] secureDone := by
  unfold secureDone
  exact (changes_ask fun _ => (by
    split
    · exact (changes_ite changes_skip (changes_ite ((changes_updShd _).up rfl) (changes_cons ((changes_updShd _).up rfl) (changes_cons ((changes_setF _ _ _ _).up rfl) (changes_cons ((changes_setF _ _ _ _).up rfl) (changes_cons ((changes_evt _ _ _).up rfl) changes_nil))))))
    · exact changes_skip))

theorem changes_securePoint : Act.Changes [.free, .out, .regs, .hural, .shd] securePoint := by
  unfold securePoint
  exact (by unfold withFree; exact (changes_seq (changes_ask fun _ => (changes_ask fun _ => (changes_cons ((changes_setF _ _ _ _).up rfl) (changes_cons ((changes_setF _ _ _ _).up rfl) (changes_cons ((changes_setF _ _ _ _).up rfl) (changes_cons ((changes_setF _ _ _ _).up rfl) (changes_cons ((changes_updShd _).up rfl) (changes_cons ((changes_copyRides _ _ _).up rfl) changes_nil)))))))) (changes_prim rfl)))

theorem changes_shdEnable : Act.Changes [.regs] shdEnable := by
  unfold shdEnable
  exact (changes_ask fun _ => (changes_ite (changes_setF _ _ _ _) (changes_evt _ _ _)))

theorem changes_shdSecure : Act.Changes [.shd] shdSecure := by
  unfold shdSecure
  exact (changes_updShd _)

theorem changes_shdStepClose (a0) : Act.Changes [.free, .out, .regs, .hural, .shd] (shdStepClose a0) := by
  unfold shdStepClose
  exact (changes_ask fun _ => (changes_cons ((changes_updShd _).up rfl) (changes_cons (changes_when (changes_cons ((changes_updShd _).up rfl) (changes_cons (changes_ask fun _ => (changes_when ((changes_setF _ _ _ _).up rfl))) (changes_cons (changes_ask fun _ => (changes_when changes_securePoint)) changes_nil)))) changes_nil)))

theorem changes_takeoverTake (a0) : Act.Changes [.out, .regs, .log, .hural, .shd] (takeoverTake a0) := by
  unfold takeoverTake
  exact (changes_ask fun _ => (changes_ite (changes_cons ((changes_evt _ _ _).up rfl) (changes_cons ((changes_logEv _ _ _ _).up rfl) changes_nil)) (changes_cons ((changes_setF _ _ _ _).up rfl) (changes_cons ((changes_updShd _).up rfl) (changes_cons (changes_when (changes_cons ((changes_setF _ _ _ _).up rfl) (changes_cons ((changes_setF _ _ _ _).up rfl) (changes_cons ((changes_setF _ _ _ _).up rfl) (changes_cons ((changes_evt _ _ _).up rfl) (changes_cons ((changes_incF _ _ _ _).up rfl) (changes_cons ((changes_updShd _).up rfl) changes_nil))))))) (changes_cons ((changes_rerouteWaiting _).up rfl) changes_nil))))))

theorem changes_blurCopy (a0 a1 a2) : Act.Changes [.free, .out, .regs, .mem, .log, .tiles, .tier, .coh, .hural, .bell] (blurCopy a0 a1 a2) := by
  unfold blurCopy
  exact (by unfold withFree; exact (changes_seq (changes_ask fun _ => (changes_ask fun _ => (changes_each fun _ => (by
    try dsimp only
    split
    · exact (changes_each fun _ => ((changes_mapWrite _ _ _ _).up rfl))
    · exact ((changes_updTile _ _).up rfl)
    · exact ((changes_updTile _ _).up rfl))))) (changes_prim rfl)))

theorem changes_elemStart (a0 a1) : Act.Changes [.free, .out, .regs, .mem, .log, .tide, .tiles, .num, .sec, .tier, .coh, .hural, .bell] (elemStart a0 a1) := by
  unfold elemStart
  exact (by unfold withFree; exact (changes_seq (changes_ask fun _ => (changes_ask fun _ => (by (try dsimp only); unfold vecStart; exact (changes_cons (changes_ask fun _ => ((changes_passBegin _ _).up rfl)) (changes_cons ((changes_traceItem _ _ _).up rfl) (changes_cons ((changes_setF _ _ _ _).up rfl) (changes_cons ((changes_updEng _ _ _).up rfl) (changes_cons changes_skip (changes_cons ((changes_updTile _ _).up rfl) (changes_cons (changes_ask fun _ => (changes_when ((changes_blurCopy _ _ _).up rfl))) (changes_cons ((changes_orFlags _ _ _ _).up rfl) (changes_cons ((changes_addF _ _ _ _).up rfl) changes_nil)))))))))))) (changes_prim rfl)))

theorem changes_freeBank (a0 a1) : Act.Changes [.tiles] (freeBank a0 a1) := by
  unfold freeBank
  exact (changes_updTile _ _)

theorem changes_freeStart (a0 a1) : Act.Changes [.free, .out, .regs, .mem, .log, .tide, .tiles, .num, .sec, .tier, .coh, .hural, .bell] (freeStart a0 a1) := by
  unfold freeStart
  exact (changes_ask fun _ => (by unfold vecStart; exact (changes_cons (changes_ask fun _ => ((changes_passBegin _ _).up rfl)) (changes_cons ((changes_traceItem _ _ _).up rfl) (changes_cons ((changes_setF _ _ _ _).up rfl) (changes_cons ((changes_updEng _ _ _).up rfl) (changes_cons changes_skip (changes_cons ((changes_updTile _ _).up rfl) (changes_cons (changes_ask fun _ => (changes_when ((changes_blurCopy _ _ _).up rfl))) (changes_cons ((changes_orFlags _ _ _ _).up rfl) (changes_cons ((changes_addF _ _ _ _).up rfl) changes_nil)))))))))))

theorem changes_gradSeen (a0 a1 a2) : Act.Changes [.num] (gradSeen a0 a1 a2) := by
  unfold gradSeen
  exact (changes_prim rfl)

theorem changes_markRow (a0 a1 a2) : Act.Changes [.regs, .mem, .tier, .coh] (markRow a0 a1 a2) := by
  unfold markRow
  exact (changes_ask fun _ => (by
    split
    · exact (changes_pkgWrite _ _)
    · exact changes_skip))

theorem changes_outStart (a0 a1) : Act.Changes [.free, .out, .regs, .mem, .log, .tide, .tiles, .num, .sec, .tier, .coh, .hural, .bell] (outStart a0 a1) := by
  unfold outStart
  exact (by unfold withFree; exact (changes_seq (changes_ask fun _ => (changes_ask fun _ => (by (try dsimp only); unfold vecStart; exact (changes_cons (changes_ask fun _ => ((changes_passBegin _ _).up rfl)) (changes_cons ((changes_traceItem _ _ _).up rfl) (changes_cons ((changes_setF _ _ _ _).up rfl) (changes_cons ((changes_updEng _ _ _).up rfl) (changes_cons (changes_cons (changes_when ((changes_takeBlocks _ _ _ _).up rfl)) (changes_cons (changes_when ((changes_amaxReport _ _ _).up rfl)) (changes_cons (changes_when ((changes_gradSeen _ _ _).up rfl)) (changes_cons (changes_when (changes_each fun _ => ((changes_markRow _ _ _).up rfl))) changes_nil)))) (changes_cons ((changes_updTile _ _).up rfl) (changes_cons (changes_ask fun _ => (changes_when ((changes_blurCopy _ _ _).up rfl))) (changes_cons ((changes_orFlags _ _ _ _).up rfl) (changes_cons ((changes_addF _ _ _ _).up rfl) changes_nil)))))))))))) (changes_prim rfl)))

theorem changes_spillStart (a0 a1) : Act.Changes [.free, .out, .regs, .mem, .log, .tide, .tiles, .num, .sec, .tier, .coh, .hural, .bell] (spillStart a0 a1) := by
  unfold spillStart
  exact (changes_ask fun _ => (by unfold vecStart; exact (changes_cons (changes_ask fun _ => ((changes_passBegin _ _).up rfl)) (changes_cons ((changes_traceItem _ _ _).up rfl) (changes_cons ((changes_setF _ _ _ _).up rfl) (changes_cons ((changes_updEng _ _ _).up rfl) (changes_cons changes_skip (changes_cons ((changes_updTile _ _).up rfl) (changes_cons (changes_ask fun _ => (changes_when ((changes_blurCopy _ _ _).up rfl))) (changes_cons ((changes_orFlags _ _ _ _).up rfl) (changes_cons ((changes_addF _ _ _ _).up rfl) changes_nil)))))))))))

theorem changes_winStart (a0 a1) : Act.Changes [.free, .out, .regs, .mem, .log, .tide, .tiles, .num, .sec, .tier, .coh, .hural, .bell] (winStart a0 a1) := by
  unfold winStart
  exact (by unfold withFree; exact (changes_seq (changes_ask fun _ => (changes_ask fun _ => (by (try dsimp only); unfold vecStart; exact (changes_cons (changes_ask fun _ => ((changes_passBegin _ _).up rfl)) (changes_cons ((changes_traceItem _ _ _).up rfl) (changes_cons ((changes_setF _ _ _ _).up rfl) (changes_cons ((changes_updEng _ _ _).up rfl) (changes_cons changes_skip (changes_cons ((changes_updTile _ _).up rfl) (changes_cons (changes_ask fun _ => (changes_when ((changes_blurCopy _ _ _).up rfl))) (changes_cons ((changes_orFlags _ _ _ _).up rfl) (changes_cons ((changes_addF _ _ _ _).up rfl) changes_nil)))))))))))) (changes_prim rfl)))

theorem changes_vecBegin (a0 a1) : Act.Changes [.free, .out, .regs, .mem, .log, .tide, .tiles, .num, .sec, .tier, .coh, .hural, .bell] (vecBegin a0 a1) := by
  unfold vecBegin
  exact (by
    split
    · exact (changes_outStart _ _)
    · exact (changes_spillStart _ _)
    · exact (changes_freeStart _ _)
    · exact (changes_winStart _ _)
    · exact (changes_elemStart _ _))

theorem changes_vecComplete (a0) : Act.Changes [.regs, .mem, .tide, .tiles, .num, .sec, .tier, .coh] (vecComplete a0) := by
  unfold vecComplete
  exact (changes_ask fun _ => (by
    split
    · exact changes_skip
    · exact (changes_cons ((changes_updEng _ _ _).up rfl) (changes_cons (by
        split
        · exact ((changes_freeBank _ _).up rfl)
        · exact changes_skip) (changes_cons ((changes_addF _ _ _ _).up rfl) (changes_cons ((changes_signal _ _).up rfl) (changes_cons ((changes_completionReport _ _).up rfl) (changes_cons ((changes_traceItem _ _ _).up rfl) changes_nil))))))))

theorem changes_vecItem (a0 a1) : Act.Changes [.free, .out, .regs, .mem, .log, .tide, .tiles, .num, .sec, .tier, .coh, .hural, .bell] (vecItem a0 a1) := by
  unfold vecItem
  exact (changes_ask fun _ => (by
    split
    · exact changes_skip
    · exact (changes_ite changes_skip (changes_ite ((changes_itemFault _ _ _ _ _ _).up rfl) (changes_vecBegin _ _)))))

theorem changes_vxResume (a0) : Act.Changes [.regs, .mem, .tide, .tiles, .num, .sec, .tier, .coh] (vxResume a0) := by
  unfold vxResume
  exact (by unfold resumeItem; exact (changes_ask fun _ => (by
    try dsimp only
    split
    · exact changes_skip
    · exact (changes_cons ((changes_passBegin _ _).up rfl) (changes_cons ((changes_updEng _ _ _).up rfl) (changes_cons (changes_seq ((changes_lastItem _ _ _ _).up rfl) (by
        split
        · exact ((changes_freeBank _ _).up rfl)
        · exact changes_skip)) (changes_cons ((changes_signal _ _).up rfl) (changes_cons ((changes_addF _ _ _ _).up rfl) (changes_cons ((changes_completionReport _ _).up rfl) (changes_cons ((changes_traceItem _ _ _).up rfl) changes_nil))))))))))

theorem changes_readClears (a0 a1 a2) : Act.Changes [.regs] (readClears a0 a1 a2) := by
  unfold readClears
  exact (changes_when (changes_ask fun _ => (changes_prim rfl)))

theorem changes_updRst (a0) : Act.Changes [.rst] (updRst a0) := by
  unfold updRst
  exact (changes_prim rfl)

theorem changes_freeze (a0) : Act.Changes [.rst] (freeze a0) := by
  unfold freeze
  exact (changes_ask fun _ => (changes_when (changes_updRst _)))

theorem changes_freezeAll : Act.Changes [.rst] freezeAll := by
  unfold freezeAll
  exact (changes_each fun _ => (changes_freeze _))

theorem changes_jobPortsClose : Act.Changes [.out, .regs, .hural] jobPortsClose := by
  unfold jobPortsClose
  exact (changes_ask fun _ => (changes_each fun _ => (changes_when (changes_seq ((changes_sendClose _ _).up rfl) (changes_endSession _ _ _)))))

theorem changes_goOut : Act.Changes [.out, .regs, .log, .hural, .shd, .rst] goOut := by
  unfold goOut
  exact (changes_ask fun _ => (changes_when (changes_cons (changes_giveUp.up rfl) (changes_cons ((changes_updRst _).up rfl) (changes_cons ((changes_setF _ _ _ _).up rfl) (changes_cons (changes_jobPortsClose.up rfl) (changes_cons ((changes_logEv _ _ _ _).up rfl) changes_nil)))))))

theorem changes_judgeRecord : Act.Changes [.out, .regs, .log, .hural, .shd, .rst] judgeRecord := by
  unfold judgeRecord
  exact (changes_ask fun _ => (changes_when changes_goOut))

theorem changes_recordEvent (a0) : Act.Changes [.out, .regs, .log, .hural, .shd, .rst] (recordEvent a0) := by
  unfold recordEvent
  exact (changes_seq (changes_ask fun _ => ((changes_updRst _).up rfl)) changes_judgeRecord)

theorem changes_updSec (a0) : Act.Changes [.sec] (updSec a0) := by
  unfold updSec
  exact (changes_prim rfl)

theorem changes_updDebug (a0 a1) : Act.Changes [.sec] (updDebug a0 a1) := by
  unfold updDebug
  exact (changes_updSec _)

theorem changes_coreHalt (a0) : Act.Changes [.regs, .sec] (coreHalt a0) := by
  unfold coreHalt
  exact (changes_seq ((changes_setF _ _ _ _).up rfl) (changes_ask fun _ => (by
    split
    · exact (changes_when ((changes_updDebug _ _).up rfl))
    · exact changes_skip)))

theorem changes_haltsClear (a0) : Act.Changes [.sec] (haltsClear a0) := by
  unfold haltsClear
  exact (changes_each fun _ => (changes_updDebug _ _))

theorem changes_coreResume (a0) : Act.Changes [.regs, .sec] (coreResume a0) := by
  unfold coreResume
  exact (changes_seq ((changes_setF _ _ _ _).up rfl) (changes_ask fun _ => (changes_when ((changes_haltsClear _).up rfl))))

theorem changes_sessionEnd (a0 a1) : Act.Changes [.regs, .log, .sec] (sessionEnd a0 a1) := by
  unfold sessionEnd
  exact (changes_ask fun _ => (changes_when (changes_cons ((changes_setF _ _ _ _).up rfl) (changes_cons ((changes_setF _ _ _ _).up rfl) (changes_cons ((changes_updDebug _ _).up rfl) (changes_cons ((changes_evt _ _ _).up rfl) (changes_cons ((changes_logEv _ _ _ _).up rfl) changes_nil)))))))

theorem changes_sessionGrant (a0 a1 a2 a3) : Act.Changes [.regs, .log, .sec] (sessionGrant a0 a1 a2 a3) := by
  unfold sessionGrant
  exact (changes_cons (changes_sessionEnd _ _) (changes_cons ((changes_setF _ _ _ _).up rfl) (changes_cons ((changes_modF _ _ _ _).up rfl) (changes_cons ((changes_updDebug _ _).up rfl) (changes_cons ((changes_evt _ _ _).up rfl) (changes_cons ((changes_logEv _ _ _ _).up rfl) changes_nil))))))

theorem changes_tokenRefuse (a0) : Act.Changes [.regs, .log] (tokenRefuse a0) := by
  unfold tokenRefuse
  exact (changes_cons ((changes_evt _ _ _).up rfl) (changes_cons ((changes_setF _ _ _ _).up rfl) (changes_cons ((changes_logEv _ _ _ _).up rfl) changes_nil)))

theorem changes_sessionOpen (a0 a1 a2) : Act.Changes [.regs, .log, .sec] (sessionOpen a0 a1 a2) := by
  unfold sessionOpen
  exact (changes_ask fun _ => (changes_ite ((changes_tokenRefuse _).up rfl) (changes_ite (changes_sessionGrant _ _ _ _) (changes_sessionGrant _ _ _ _))))

theorem changes_dbgOpen (a0) : Act.Changes [.regs, .log, .sec] (dbgOpen a0) := by
  unfold dbgOpen
  exact (changes_seq ((changes_setF _ _ _ _).up rfl) (changes_ask fun _ => (changes_sessionOpen _ _ _)))

theorem changes_sessionExpire (a0) : Act.Changes [.regs, .log, .sec] (sessionExpire a0) := by
  unfold sessionExpire
  exact (changes_ask fun _ => (changes_when (changes_sessionEnd _ _)))

theorem changes_floodClose (a0) : Act.Changes [.log] (floodClose a0) := by
  unfold floodClose
  exact (changes_prim rfl)

theorem changes_fwReject (a0) : Act.Changes [.regs, .log] (fwReject a0) := by
  unfold fwReject
  exact (changes_cons ((changes_setF _ _ _ _).up rfl) (changes_cons ((changes_evt _ _ _).up rfl) (changes_cons ((changes_logEv _ _ _ _).up rfl) changes_nil)))

theorem changes_updHm (a0) : Act.Changes [.hm] (updHm a0) := by
  unfold updHm
  exact (changes_prim rfl)

theorem changes_fwDrop : Act.Changes [.regs, .log, .hm] fwDrop := by
  unfold fwDrop
  exact (changes_ask fun _ => (changes_when (changes_cons ((changes_setF _ _ _ _).up rfl) (changes_cons ((changes_fwReject _).up rfl) (changes_cons ((changes_updHm _).up rfl) changes_nil)))))

theorem changes_fwBoundary : Act.Changes [.regs, .log, .sec, .hm] fwBoundary := by
  unfold fwBoundary
  exact (changes_seq (changes_fwDrop.up rfl) (changes_ask fun _ => (changes_when (changes_ite (changes_cons ((changes_setF _ _ _ _).up rfl) (changes_cons ((changes_evt _ _ _).up rfl) (changes_cons ((changes_logEv _ _ _ _).up rfl) (changes_cons ((changes_updHm _).up rfl) (changes_cons ((changes_setF _ _ _ _).up rfl) (changes_cons ((changes_updSec _).up rfl) changes_nil)))))) (changes_seq ((changes_setF _ _ _ _).up rfl) (changes_each fun _ => ((changes_logEv _ _ _ _).up rfl)))))))

theorem changes_fwCheckDone : Act.Changes [.regs, .log, .hm] fwCheckDone := by
  unfold fwCheckDone
  exact (changes_ask fun _ => (by
    split
    · exact (changes_ite (changes_seq ((changes_setF _ _ _ _).up rfl) ((changes_updHm _).up rfl)) (changes_cons ((changes_setF _ _ _ _).up rfl) (changes_cons ((changes_fwReject _).up rfl) (changes_cons ((changes_updHm _).up rfl) changes_nil))))
    · exact changes_skip))

theorem changes_fwGo (a0) : Act.Changes [.regs, .log, .hm] (fwGo a0) := by
  unfold fwGo
  exact (changes_seq ((changes_setF _ _ _ _).up rfl) (changes_ask fun _ => (changes_ite ((changes_fwReject _).up rfl) (changes_seq ((changes_setF _ _ _ _).up rfl) ((changes_updHm _).up rfl)))))

theorem changes_fwKeep : Act.Changes [.sec, .hm] fwKeep := by
  unfold fwKeep
  exact (changes_ask fun _ => (by
    split
    · exact (changes_when (changes_cons (changes_when ((changes_updSec _).up rfl)) (changes_cons ((changes_updHm _).up rfl) changes_nil)))
    · exact changes_skip))

theorem changes_fwRevert : Act.Changes [.regs, .log, .hm] fwRevert := by
  unfold fwRevert
  exact (changes_ask fun _ => (by
    split
    · exact (changes_cons ((changes_setF _ _ _ _).up rfl) (changes_cons ((changes_setF _ _ _ _).up rfl) (changes_cons ((changes_evt _ _ _).up rfl) (changes_cons ((changes_logEv _ _ _ _).up rfl) (changes_cons ((changes_updHm _).up rfl) changes_nil)))))
    · exact changes_skip))

theorem changes_measDone (a0) : Act.Changes [.regs, .hm] (measDone a0) := by
  unfold measDone
  exact (changes_ask fun _ => (changes_when (changes_cons ((changes_setF _ _ _ _).up rfl) (changes_cons ((changes_setF _ _ _ _).up rfl) (changes_cons ((changes_updHm _).up rfl) changes_nil)))))

theorem changes_measStart (a0) : Act.Changes [.regs, .hm] (measStart a0) := by
  unfold measStart
  exact (changes_cons ((changes_setF _ _ _ _).up rfl) (changes_cons ((changes_setF _ _ _ _).up rfl) (changes_cons ((changes_updHm _).up rfl) changes_nil)))

theorem changes_updTime (a0) : Act.Changes [.calendar] (updTime a0) := by
  unfold updTime
  exact (changes_prim rfl)

theorem changes_ptpLock (a0 a1) : Act.Changes [.calendar] (ptpLock a0 a1) := by
  unfold ptpLock
  exact (changes_ask fun _ => (changes_updTime _))

theorem changes_ptpLost : Act.Changes [.calendar] ptpLost := by
  unfold ptpLost
  exact (changes_ask fun _ => (changes_when (changes_updTime _)))

theorem changes_ptpMessage (a0) : Act.Changes [.calendar, .hm] (ptpMessage a0) := by
  unfold ptpMessage
  exact (changes_seq ((changes_updHm _).up rfl) (changes_ask fun _ => (changes_when ((changes_updTime _).up rfl))))

theorem changes_setTai (a0) : Act.Changes [.regs, .log, .calendar] (setTai a0) := by
  unfold setTai
  exact (changes_ask fun _ => (changes_ite (changes_seq ((changes_evt _ _ _).up rfl) ((changes_logEv _ _ _ _).up rfl)) ((changes_updTime _).up rfl)))

theorem changes_tallySave : Act.Changes [.log] tallySave := by
  unfold tallySave
  exact (changes_prim rfl)

theorem changes_telCopy (a0 a1) : Act.Changes [.out, .regs, .mem, .log, .tier, .coh] (telCopy a0 a1) := by
  induction a1 generalizing a0 with
  | nil =>
    unfold telCopy
    repeat' first
      | with_reducible exact changes_skip
      | with_reducible refine changes_cons ?_ ?_
      | with_reducible exact changes_nil
      | with_reducible refine changes_seq ?_ ?_
      | with_reducible refine changes_when ?_
      | with_reducible refine changes_given ?_
      | with_reducible refine changes_each fun _ => ?_
      | ((with_reducible refine changes_prim ?_); exact rfl)
      | ((with_reducible refine Act.Changes.up (changes_pkgWrite _ _) ?_); exact rfl)
      | ((with_reducible refine Act.Changes.up (changes_accessFault _ _) ?_); exact rfl)
      | ((with_reducible refine Act.Changes.up (changes_readClears _ _ _) ?_); exact rfl)
      | with_reducible refine changes_ask fun _ => ?_
      | with_reducible refine changes_ite ?_ ?_
      | unfold telRead
      | split
      | (dsimp only; split)
  | cons x l ih =>
    unfold telCopy
    repeat' first
      | with_reducible exact changes_skip
      | exact ih _
      | with_reducible refine changes_cons ?_ ?_
      | with_reducible exact changes_nil
      | with_reducible refine changes_seq ?_ ?_
      | with_reducible refine changes_when ?_
      | with_reducible refine changes_given ?_
      | with_reducible refine changes_each fun _ => ?_
      | ((with_reducible refine changes_prim ?_); exact rfl)
      | ((with_reducible refine Act.Changes.up (changes_pkgWrite _ _) ?_); exact rfl)
      | ((with_reducible refine Act.Changes.up (changes_accessFault _ _) ?_); exact rfl)
      | ((with_reducible refine Act.Changes.up (changes_readClears _ _ _) ?_); exact rfl)
      | with_reducible refine changes_ask fun _ => ?_
      | with_reducible refine changes_ite ?_ ?_
      | unfold telRead
      | split
      | (dsimp only; split)

theorem changes_telDone (a0) : Act.Changes [.regs, .hm] (telDone a0) := by
  unfold telDone
  exact (changes_ask fun _ => (changes_when (changes_seq ((changes_incF _ _ _ _).up rfl) ((changes_updHm _).up rfl))))

theorem changes_telSkip : Act.Changes [.regs, .hm] telSkip := by
  unfold telSkip
  exact (changes_cons ((changes_incF _ _ _ _).up rfl) (changes_cons ((changes_evt _ _ _).up rfl) (changes_cons ((changes_updHm _).up rfl) changes_nil)))

theorem changes_telMark : Act.Changes [.regs, .hm] telMark := by
  unfold telMark
  exact (changes_ask fun _ => (changes_when (changes_seq (changes_when changes_telSkip) ((changes_updHm _).up rfl))))

theorem changes_telSample : Act.Changes [.out, .regs, .mem, .log, .tier, .coh, .hm] telSample := by
  unfold telSample
  exact (changes_ask fun _ => (changes_when (changes_ite ((changes_send _).up rfl) (changes_ite changes_skip (changes_cons ((changes_pkgWrite _ _).up rfl) (changes_cons ((changes_telCopy _ _).up rfl) (changes_cons ((changes_incF _ _ _ _).up rfl) (changes_cons ((changes_updHm _).up rfl) changes_nil))))))))

theorem changes_telTimeout : Act.Changes [.regs, .hm] telTimeout := by
  unfold telTimeout
  exact (changes_ask fun _ => (by
    split
    · exact (changes_when changes_telSkip)
    · exact changes_skip))

theorem changes_timeLost : Act.Changes [.calendar] timeLost := by
  unfold timeLost
  exact (changes_ask fun _ => (changes_when (changes_updTime _)))

theorem changes_updTide (a0) : Act.Changes [.tide] (updTide a0) := by
  unfold updTide
  exact (changes_prim rfl)

theorem changes_frameActs (a0) : Act.Changes [.tide] (frameActs a0) := by
  unfold frameActs
  exact (changes_updTide _)

theorem changes_frameTake (a0) : Act.Changes [.regs, .log, .tide] (frameTake a0) := by
  unfold frameTake
  exact (changes_ask fun _ => (changes_cons ((changes_setF _ _ _ _).up rfl) (changes_cons ((changes_frameActs _).up rfl) (changes_cons (changes_when (changes_cons (changes_when (changes_seq ((changes_evt _ _ _).up rfl) ((changes_logEv _ _ _ _).up rfl))) (changes_cons ((changes_updTide _).up rfl) (changes_cons ((changes_updTide _).up rfl) (changes_cons ((changes_setF _ _ _ _).up rfl) changes_nil))))) changes_nil))))

theorem changes_takePilot : Act.Changes [.regs, .tide] takePilot := by
  unfold takePilot
  exact (changes_ask fun _ => (changes_seq ((changes_updTide _).up rfl) ((changes_setF _ _ _ _).up rfl)))

theorem changes_framesJudge : Act.Changes [.regs, .log, .tide] framesJudge := by
  unfold framesJudge
  exact (changes_ask fun _ => (changes_ite changes_skip (changes_ite (changes_ite (changes_seq ((changes_updTide _).up rfl) (changes_given (changes_takePilot.up rfl))) (changes_when ((changes_updTide _).up rfl))) (by
    split
    · exact ((changes_updTide _).up rfl)
    · exact (changes_seq ((changes_updTide _).up rfl) (changes_given (changes_cons ((changes_setF _ _ _ _).up rfl) (changes_cons ((changes_evt _ _ _).up rfl) (changes_cons ((changes_logEv _ _ _ _).up rfl) (changes_cons (changes_ask fun _ => (by
        split
        · exact (changes_frameTake _)
        · exact changes_skip)) changes_nil))))))
    · exact (changes_seq ((changes_updTide _).up rfl) (changes_when (changes_seq ((changes_setF _ _ _ _).up rfl) ((changes_evt _ _ _).up rfl))))
    · exact changes_skip))))

theorem changes_frameMissing (a0) : Act.Changes [.regs, .log, .tide] (frameMissing a0) := by
  unfold frameMissing
  exact (changes_ask fun _ => (changes_ite changes_skip (changes_cons ((changes_evt _ _ _).up rfl) (changes_cons ((changes_updTide _).up rfl) (changes_cons changes_framesJudge changes_nil)))))

theorem changes_frameArrives (a0 a1) : Act.Changes [.regs, .log, .tide] (frameArrives a0 a1) := by
  unfold frameArrives
  exact (changes_ask fun _ => (changes_ite (changes_frameMissing _) (changes_ite changes_skip (changes_cons ((changes_updTide _).up rfl) (changes_cons (changes_when (changes_when (changes_seq (changes_when ((changes_setF _ _ _ _).up rfl)) (changes_frameTake _)))) (changes_cons changes_framesJudge changes_nil))))))

theorem changes_setsWait (a0) : Act.Changes [.log] (setsWait a0) := by
  unfold setsWait
  exact (changes_ask fun _ => (changes_when (changes_each fun _ => (changes_when (changes_logEv _ _ _ _)))))

theorem changes_frameCompose : Act.Changes [.log, .tide] frameCompose := by
  unfold frameCompose
  exact (changes_ask fun _ => (changes_cons ((changes_updTide _).up rfl) (changes_cons ((changes_setsWait _).up rfl) (changes_cons (changes_when ((changes_updTide _).up rfl)) changes_nil))))

theorem changes_frameSend : Act.Changes [.out, .tide] frameSend := by
  unfold frameSend
  exact (changes_ask fun _ => (by
    split
    · exact (changes_cons ((changes_send _).up rfl) (changes_cons (changes_when ((changes_frameActs _).up rfl)) (changes_cons ((changes_updTide _).up rfl) changes_nil)))
    · exact changes_skip))

theorem changes_freadyAdd (a0 a1 a2) : Act.Changes [.tide] (freadyAdd a0 a1 a2) := by
  unfold freadyAdd
  exact (changes_updTide _)

theorem changes_freadySend (a0 a1) : Act.Changes [.out, .tide] (freadySend a0 a1) := by
  unfold freadySend
  exact (changes_ask fun _ => (changes_when (changes_cons ((changes_updTide _).up rfl) (changes_cons ((changes_freadyAdd _ _ _).up rfl) (changes_cons (changes_when (changes_each fun _ => ((changes_send _).up rfl))) changes_nil)))))

theorem changes_freadyTake (a0 a1 a2) : Act.Changes [.log, .tide] (freadyTake a0 a1 a2) := by
  unfold freadyTake
  exact (changes_ask fun _ => (changes_when (changes_seq ((changes_freadyAdd _ _ _).up rfl) (changes_ask fun _ => (by
    split
    · exact (changes_when ((changes_logEv _ _ _ _).up rfl))
    · exact changes_skip)))))

theorem changes_gridCheck (a0) : Act.Changes [.regs, .log, .calendar] (gridCheck a0) := by
  unfold gridCheck
  exact (changes_ask fun _ => (changes_when (changes_cons ((changes_setF _ _ _ _).up rfl) (changes_cons ((changes_updTime _).up rfl) (changes_cons (changes_when (changes_seq ((changes_evt _ _ _).up rfl) ((changes_logEv _ _ _ _).up rfl))) changes_nil)))))

theorem changes_holdCount (a0) : Act.Changes [.regs, .tide] (holdCount a0) := by
  unfold holdCount
  exact (changes_ask fun _ => (changes_cons (changes_when ((changes_incF _ _ _ _).up rfl)) (changes_cons ((changes_updTide _).up rfl) changes_nil)))

theorem changes_holdsGoOn : Act.Changes [.regs, .tide] holdsGoOn := by
  unfold holdsGoOn
  exact (changes_ask fun _ => (changes_when (changes_each fun _ => (changes_holdCount _))))

theorem changes_readyReport (a0) : Act.Changes [.out, .regs, .tide, .hural] (readyReport a0) := by
  unfold readyReport
  exact (changes_ask fun _ => (by
    split
    · exact changes_skip
    · exact (changes_ite ((changes_holdCount _).up rfl) (changes_seq ((changes_updTide _).up rfl) (changes_each fun _ => ((changes_sendNote _ _ _).up rfl))))))

theorem changes_skewCheck (a0 a1) : Act.Changes [.regs, .log, .hural] (skewCheck a0 a1) := by
  unfold skewCheck
  exact (changes_ask fun _ => (changes_when (changes_seq ((changes_updHural _).up rfl) (changes_when (changes_cons ((changes_evt _ _ _).up rfl) (changes_cons ((changes_logEv _ _ _ _).up rfl) (changes_cons ((changes_setF _ _ _ _).up rfl) changes_nil)))))))

theorem changes_tideMark (a0 a1) : Act.Changes [.out, .regs, .log, .calendar, .tide, .en, .hm] (tideMark a0 a1) := by
  unfold tideMark
  exact (changes_cons ((changes_addF _ _ _ _).up rfl) (changes_cons (changes_ask fun _ => ((changes_updTide _).up rfl)) (changes_cons (changes_frameSend.up rfl) (changes_cons ((changes_gridCheck _).up rfl) (changes_cons ((changes_ledgerMark _).up rfl) (changes_cons (changes_telMark.up rfl) (changes_cons (changes_holdsGoOn.up rfl) changes_nil)))))))

theorem changes_answerSnoop (a0) : Act.Changes [.coh] (answerSnoop a0) := by
  unfold answerSnoop
  exact (changes_ask fun _ => (changes_ite (changes_updCoh _) (by
    try dsimp only
    split
    · exact (changes_updCoh _)
    · exact (by
        try dsimp only
        split
        · exact (changes_updCoh _)
        · exact (changes_cons (changes_setCopy _ _ _) (changes_cons (changes_endResv _ _) (changes_cons (changes_updCoh _) changes_nil)))
        · exact (changes_cons (changes_setCopy _ _ _) (changes_cons (changes_updCoh _) changes_nil))))))

theorem changes_cohMode (a0) : Act.Changes [.regs, .log] (cohMode a0) := by
  unfold cohMode
  exact (changes_ask fun _ => (changes_ite ((changes_setF _ _ _ _).up rfl) ((changes_logEv _ _ _ _).up rfl)))

theorem changes_collapseEnd : Act.Changes [.out, .regs, .mem, .log, .tier, .coh] collapseEnd := by
  unfold collapseEnd
  exact (changes_ask fun _ => (changes_cons (changes_each fun _ => (by
    split
    · exact ((changes_writeBack _ _).up rfl)
    · exact changes_skip)) (changes_cons (changes_each fun _ => (changes_when (changes_cons ((changes_poisonLine _ _).up rfl) (changes_cons ((changes_evt _ _ _).up rfl) changes_nil)))) (changes_cons (changes_each fun _ => (changes_cons ((changes_send _).up rfl) (changes_cons ((changes_logEv _ _ _ _).up rfl) changes_nil))) (changes_cons (changes_each fun _ => (changes_cons ((changes_send _).up rfl) (changes_cons ((changes_logEv _ _ _ _).up rfl) changes_nil))) (changes_cons ((changes_updTier _).up rfl) (changes_cons ((changes_updCoh _).up rfl) (changes_cons ((changes_setF _ _ _ _).up rfl) changes_nil))))))))

theorem changes_collapseStart (a0 a1 a2) : Act.Changes [.out, .regs, .log, .hural, .shd, .rst] (collapseStart a0 a1 a2) := by
  unfold collapseStart
  exact (changes_given (changes_cons ((changes_setF _ _ _ _).up rfl) (changes_cons ((changes_setF _ _ _ _).up rfl) (changes_cons ((changes_setF _ _ _ _).up rfl) (changes_cons ((changes_setF _ _ _ _).up rfl) (changes_cons ((changes_evt _ _ _).up rfl) (changes_cons ((changes_logEv _ _ _ _).up rfl) (changes_cons ((changes_updRst _).up rfl) (changes_cons (changes_freezeAll.up rfl) (changes_cons (changes_giveUp.up rfl) (changes_cons (changes_recordEvent _) changes_nil)))))))))))

theorem changes_dirWithout (a0 a1) : Act.Changes [.coh] (dirWithout a0 a1) := by
  unfold dirWithout
  exact (changes_ask fun _ => (by
    split
    · exact changes_skip
    · exact (changes_setDir _ _)))

theorem changes_depart (a0) : Act.Changes [.coh] (depart a0) := by
  unfold depart
  exact (changes_ask fun _ => (changes_ite (changes_cons (changes_each fun _ => (changes_dirWithout _ _)) (changes_cons (changes_updAgent _ _) changes_nil)) changes_skip))

theorem changes_departBegin (a0) : Act.Changes [.tier, .coh] (departBegin a0) := by
  unfold departBegin
  exact (changes_ask fun _ => (changes_ite changes_skip (changes_cons ((changes_updTier _).up rfl) (changes_cons ((changes_updAgent _ _).up rfl) (changes_cons ((changes_updCoh _).up rfl) (changes_cons (changes_each fun _ => ((changes_evictLine _ _).up rfl)) changes_nil))))))

theorem changes_departComplete (a0) : Act.Changes [.regs, .coh] (departComplete a0) := by
  unfold departComplete
  exact (changes_ask fun _ => (changes_ite (changes_cons ((changes_updAgent _ _).up rfl) (changes_cons ((changes_evt _ _ _).up rfl) changes_nil)) changes_skip))

theorem changes_dirRoom (a0) : Act.Changes [.regs, .coh] (dirRoom a0) := by
  unfold dirRoom
  exact (changes_ask fun _ => (changes_ite changes_skip (by
    split
    · exact (changes_ite (changes_cons ((changes_setDir _ _).up rfl) (changes_cons ((changes_addF _ _ _ _).up rfl) changes_nil)) ((changes_openTx _ _ _ _).up rfl))
    · exact changes_skip)))

theorem changes_grant (a0 a1 a2 a3) : Act.Changes [.out, .regs, .coh] (grant a0 a1 a2 a3) := by
  unfold grant
  exact (changes_ask fun _ => (changes_cons ((changes_setCopy _ _ _).up rfl) (changes_cons ((changes_updAgent _ _).up rfl) (changes_cons (changes_coreAct _ _ _) (changes_cons (changes_when ((changes_evictLine _ _).up rfl)) changes_nil)))))

theorem changes_finishRds (a0 a1 a2 a3 a4) : Act.Changes [.out, .regs, .mem, .tier, .coh] (finishRds a0 a1 a2 a3 a4) := by
  unfold finishRds
  exact (changes_ask fun _ => (changes_ite (changes_ite (changes_cons ((changes_setDir _ _).up rfl) (changes_cons ((changes_grant _ _ _ _).up rfl) changes_nil)) (changes_cons ((changes_setDir _ _).up rfl) (changes_cons ((changes_grant _ _ _ _).up rfl) changes_nil))) (changes_cons (changes_when ((changes_writeBack _ _).up rfl)) (changes_cons ((changes_setDir _ _).up rfl) (changes_cons ((changes_grant _ _ _ _).up rfl) changes_nil)))))

theorem changes_learn (a0 a1 a2 a3) : Act.Changes [.coh] (learn a0 a1 a2 a3) := by
  unfold learn
  exact (changes_ask fun _ => (by
    split
    · exact (changes_ite (changes_predMove _ _ _) (changes_when (changes_predMove _ _ _)))
    · exact changes_skip))

theorem changes_nearGo (a0) : Act.Changes [.out, .regs, .mem, .tier, .coh] (nearGo a0) := by
  unfold nearGo
  exact (changes_ask fun _ => (changes_cons ((changes_updCoh _).up rfl) (changes_cons (changes_each fun _ => (changes_nearHome _)) changes_nil)))

theorem changes_serveOwn (a0 a1 a2) : Act.Changes [.out, .regs, .coh] (serveOwn a0 a1 a2) := by
  unfold serveOwn
  exact (changes_ask fun _ => (changes_cons ((changes_setDir _ _).up rfl) (changes_cons (changes_grant _ _ _ _) changes_nil)))

theorem changes_serveRds (a0 a1) : Act.Changes [.out, .regs, .coh] (serveRds a0 a1) := by
  unfold serveRds
  exact (changes_ask fun _ => (by
    try dsimp only
    split
    · exact (changes_cons ((changes_setDir _ _).up rfl) (changes_cons (changes_grant _ _ _ _) changes_nil))
    · exact (changes_ite (changes_cons ((changes_setDir _ _).up rfl) (changes_cons (changes_grant _ _ _ _) changes_nil)) (changes_cons ((changes_setDir _ _).up rfl) (changes_cons (changes_grant _ _ _ _) changes_nil)))))

theorem changes_finishTx (a0 a1) : Act.Changes [.out, .regs, .mem, .tier, .coh] (finishTx a0 a1) := by
  unfold finishTx
  exact (changes_cons ((changes_updCoh _).up rfl) (changes_cons (changes_ask fun _ => (by
    try dsimp only
    split
    · exact (by
        try dsimp only
        split
        · exact (changes_finishRds _ _ _ _ _)
        · exact ((changes_serveRds _ _).up rfl))
    · exact (changes_cons ((changes_learn _ _ _ _).up rfl) (changes_cons ((changes_setDir _ _).up rfl) (changes_cons ((changes_serveOwn _ _ _).up rfl) changes_nil)))
    · exact ((changes_send _).up rfl)
    · exact (changes_cons ((changes_setDir _ _).up rfl) (changes_cons ((changes_storeMem _ _ _).up rfl) (changes_cons ((changes_frameUnpoison _ _).up rfl) changes_nil)))
    · exact (changes_cons (changes_when ((changes_writeBack _ _).up rfl)) (changes_cons ((changes_setDir _ _).up rfl) (changes_cons ((changes_storeMem _ _ _).up rfl) changes_nil)))
    · exact (changes_cons (changes_when ((changes_writeBack _ _).up rfl)) (changes_cons ((changes_setDir _ _).up rfl) (changes_cons (changes_nearAct _ _) changes_nil)))
    · exact (changes_cons (changes_when ((changes_writeBack _ _).up rfl)) (changes_cons ((changes_setDir _ _).up rfl) (changes_cons ((changes_addF _ _ _ _).up rfl) changes_nil))))) (changes_cons (changes_nearGo _) changes_nil)))

theorem changes_serveReq (a0 a1 a2) : Act.Changes [.out, .regs, .coh] (serveReq a0 a1 a2) := by
  unfold serveReq
  exact (changes_ask fun _ => (by
    try dsimp only
    split
    · exact (by
        try dsimp only
        split
        · exact (changes_serveRds _ _)
        · exact (changes_ite ((changes_openTx _ _ _ _).up rfl) (by
            try dsimp only
            split
            · exact (changes_ite ((changes_openTx _ _ _ _).up rfl) (changes_serveRds _ _))
            · exact (changes_serveRds _ _))))
    · exact (changes_ite (changes_cons ((changes_learn _ _ _ _).up rfl) (changes_cons (changes_serveOwn _ _ _) changes_nil)) ((changes_openTx _ _ _ _).up rfl))))

theorem changes_takeReq (a0 a1 a2) : Act.Changes [.coh] (takeReq a0 a1 a2) := by
  unfold takeReq
  exact (changes_updCoh _)

theorem changes_homeRequest (a0 a1 a2) : Act.Changes [.out, .regs, .log, .tier, .coh] (homeRequest a0 a1 a2) := by
  unfold homeRequest
  exact (changes_ask fun _ => (changes_ite changes_skip (changes_ite (changes_cons ((changes_takeReq _ _ _).up rfl) (changes_cons ((changes_updAgent _ _).up rfl) (changes_cons ((changes_send _).up rfl) (changes_cons ((changes_logEv _ _ _ _).up rfl) changes_nil)))) (changes_ite (changes_ite (changes_cons ((changes_takeReq _ _ _).up rfl) (changes_cons ((changes_accessWaits _ _ _ _ _).up rfl) changes_nil)) (changes_cons ((changes_takeReq _ _ _).up rfl) (changes_cons ((changes_updAgent _ _).up rfl) (changes_cons ((changes_send _).up rfl) (changes_cons ((changes_logEv _ _ _ _).up rfl) changes_nil))))) (changes_ite (changes_cons ((changes_takeReq _ _ _).up rfl) (changes_cons ((changes_accessWaits _ _ _ _ _).up rfl) changes_nil)) (changes_ite changes_skip (changes_ite ((changes_dirRoom _).up rfl) (changes_cons ((changes_takeReq _ _ _).up rfl) (changes_cons ((changes_dirRequest _).up rfl) (changes_cons ((changes_serveReq _ _ _).up rfl) changes_nil))))))))))

theorem changes_txProgress (a0 a1) : Act.Changes [.out, .regs, .mem, .tier, .coh] (txProgress a0 a1) := by
  unfold txProgress
  exact (changes_ask fun _ => (changes_ite (changes_finishTx _ _) ((changes_updCoh _).up rfl)))

theorem changes_homeTakes (a0 a1 a2) : Act.Changes [.out, .regs, .mem, .log, .tier, .coh, .hural, .shd, .rst] (homeTakes a0 a1 a2) := by
  unfold homeTakes
  exact (changes_ask fun _ => (by
    split
    · exact changes_skip
    · exact (changes_ite changes_skip (changes_ite (by
        split
        · exact (changes_when ((changes_txProgress _ _).up rfl))
        · exact changes_skip) (changes_ite ((changes_collapseStart _ _ _).up rfl) (changes_cons (by
        split
        · exact (changes_cons ((changes_writeBack _ _).up rfl) (changes_cons (changes_when (changes_cons ((changes_poisonLine _ _).up rfl) (changes_cons ((changes_evt _ _ _).up rfl) changes_nil))) changes_nil))
        · exact changes_skip) (changes_cons ((changes_updAgent _ _).up rfl) (changes_cons ((changes_dirWithout _ _).up rfl) (changes_cons (by
        split
        · exact ((changes_txProgress _ _).up rfl)
        · exact changes_skip) changes_nil)))))))))

theorem changes_mapStates (a0) : Act.Changes [.coh] (mapStates a0) := by
  unfold mapStates
  exact (changes_updCoh _)

theorem changes_predReset (a0) : Act.Changes [.coh] (predReset a0) := by
  unfold predReset
  exact (changes_each fun _ => (changes_updAgent _ _))

theorem changes_toOwned : Act.Changes [.regs, .coh] toOwned := by
  unfold toOwned
  exact (changes_cons ((changes_setF _ _ _ _).up rfl) (changes_cons ((changes_mapStates _).up rfl) (changes_cons ((changes_updCoh _).up rfl) (changes_cons (changes_given ((changes_setF _ _ _ _).up rfl)) changes_nil))))

theorem changes_toTest : Act.Changes [.regs, .mem, .tier, .coh] toTest := by
  unfold toTest
  exact (changes_ask fun _ => (changes_cons (changes_each fun _ => ((changes_writeBack _ _).up rfl)) (changes_cons ((changes_mapStates _).up rfl) (changes_cons (changes_each fun _ => ((changes_updCoh _).up rfl)) (changes_cons ((changes_setF _ _ _ _).up rfl) changes_nil)))))

theorem changes_protocolBoundary (a0) : Act.Changes [.regs, .mem, .tier, .coh] (protocolBoundary a0) := by
  unfold protocolBoundary
  exact (changes_ask fun _ => (changes_ite changes_skip (changes_ite changes_toTest (changes_ite (changes_toOwned.up rfl) changes_skip))))

theorem changes_rejoin (a0) : Act.Changes [.coh] (rejoin a0) := by
  unfold rejoin
  exact (changes_updAgent _ _)

theorem changes_snoopArrives (a0 a1 a2) : Act.Changes [.regs, .coh] (snoopArrives a0 a1 a2) := by
  unfold snoopArrives
  exact (changes_ask fun _ => (by
    split
    · exact changes_skip
    · exact (changes_ite changes_skip (by
        split
        · exact (changes_ite (changes_cons ((changes_updCoh _).up rfl) (changes_cons ((changes_addF _ _ _ _).up rfl) changes_nil)) ((changes_answerSnoop _).up rfl))
        · exact ((changes_answerSnoop _).up rfl)))))

theorem changes_snoopHoldEnds (a0 a1) : Act.Changes [.coh] (snoopHoldEnds a0 a1) := by
  unfold snoopHoldEnds
  exact (changes_ask fun _ => (by
    split
    · exact changes_skip
    · exact (changes_answerSnoop _)))

theorem changes_snoopReply (a0 a1) : Act.Changes [.out, .regs, .mem, .log, .tier, .coh, .hural, .shd, .rst] (snoopReply a0 a1) := by
  unfold snoopReply
  exact (changes_ask fun _ => (by
    split
    · exact changes_skip
    · exact (changes_cons ((changes_updCoh _).up rfl) (changes_cons (by
        split
        · exact ((changes_collapseStart _ _ _).up rfl)
        · exact (changes_ite ((changes_collapseStart _ _ _).up rfl) (changes_ite ((changes_txProgress _ _).up rfl) (by
            try dsimp only
            split
            · exact ((changes_txProgress _ _).up rfl)
            · exact ((changes_txProgress _ _).up rfl))))) changes_nil))))

theorem changes_uncachedFull (a0 a1) : Act.Changes [.out, .regs, .mem, .log, .tier, .coh] (uncachedFull a0 a1) := by
  unfold uncachedFull
  exact (by unfold uncached; exact (changes_ask fun _ => (changes_ite changes_skip (changes_ite (changes_cons ((changes_send _).up rfl) (changes_cons ((changes_logEv _ _ _ _).up rfl) changes_nil)) (changes_seq ((changes_dirRequest _).up rfl) (changes_ask fun _ => (changes_ite (changes_seq ((changes_storeMem _ _ _).up rfl) ((changes_frameUnpoison _ _).up rfl)) ((changes_openTx _ _ _ _).up rfl))))))))

theorem changes_uncachedPart (a0 a1) : Act.Changes [.out, .regs, .mem, .log, .tier, .coh] (uncachedPart a0 a1) := by
  unfold uncachedPart
  exact (by unfold uncached; exact (changes_ask fun _ => (changes_ite changes_skip (changes_ite (changes_cons ((changes_send _).up rfl) (changes_cons ((changes_logEv _ _ _ _).up rfl) changes_nil)) (changes_seq ((changes_dirRequest _).up rfl) (changes_ask fun _ => (changes_ite ((changes_storeMem _ _ _).up rfl) ((changes_openTx _ _ _ _).up rfl))))))))

theorem changes_uncachedRead (a0 a1) : Act.Changes [.out, .log, .coh] (uncachedRead a0 a1) := by
  unfold uncachedRead
  exact (by unfold uncached; exact (changes_ask fun _ => (changes_ite changes_skip (changes_ite (changes_cons ((changes_send _).up rfl) (changes_cons ((changes_logEv _ _ _ _).up rfl) changes_nil)) (changes_seq ((changes_dirRequest _).up rfl) (changes_ask fun _ => (by
    try dsimp only
    split
    · exact ((changes_openTx _ _ _ _).up rfl)
    · exact ((changes_send _).up rfl))))))))

theorem changes_wbAck (a0 a1) : Act.Changes [.coh] (wbAck a0 a1) := by
  unfold wbAck
  exact (changes_ask fun _ => (by
    split
    · exact (changes_when (changes_updAgent _ _))
    · exact changes_skip))

theorem changes_crashDump (a0) : Act.Changes [.regs, .mem, .tier, .coh, .rst] (crashDump a0) := by
  unfold crashDump
  exact (changes_ask fun _ => (changes_when (changes_cons ((changes_updRst _).up rfl) (changes_cons (changes_ask fun _ => (changes_cons (changes_each fun _ => ((changes_pkgWrite _ _).up rfl)) (changes_cons ((changes_pkgWrite _ _).up rfl) (changes_cons ((changes_setF _ _ _ _).up rfl) (changes_cons ((changes_setF _ _ _ _).up rfl) (changes_cons ((changes_setF _ _ _ _).up rfl) changes_nil)))))) changes_nil))))

theorem changes_dumpTimeout (a0) : Act.Changes [.regs, .mem, .tier, .coh, .rst] (dumpTimeout a0) := by
  unfold dumpTimeout
  exact (changes_ask fun _ => (by
    split
    · exact (changes_when (changes_cons ((changes_pkgWrite _ _).up rfl) (changes_cons ((changes_pkgWrite _ _).up rfl) (changes_cons ((changes_pkgWrite _ _).up rfl) (changes_cons ((changes_updRst _).up rfl) (changes_cons ((changes_setF _ _ _ _).up rfl) changes_nil))))))
    · exact changes_skip))

theorem changes_agentsReturn : Act.Changes [.coh] agentsReturn := by
  unfold agentsReturn
  exact (changes_ask fun _ => (changes_each fun _ => (changes_rejoin _)))

theorem changes_plansDrop : Act.Changes [.tide] plansDrop := by
  unfold plansDrop
  exact (changes_ask fun _ => (changes_prim rfl))

theorem changes_computeClear : Act.Changes [.free, .out, .regs, .mem, .log, .tide, .tiles, .num, .sec, .tier, .coh, .hural, .upd, .bell] computeClear := by
  unfold computeClear
  exact (changes_cons (changes_copiesEnd.up rfl) (changes_cons (changes_ask fun _ => (changes_each fun _ => ((changes_flipGroup _).up rfl))) (changes_cons (changes_discardPending.up rfl) (changes_cons (changes_ask fun _ => ((changes_updTier _).up rfl)) (changes_cons (changes_plansDrop.up rfl) (changes_cons (changes_prim rfl) (changes_cons (changes_prim rfl) (changes_cons ((changes_updNum _).up rfl) (changes_cons ((changes_fetchDrop _).up rfl) (changes_cons ((changes_putsDrop _).up rfl) (changes_cons ((changes_updTier _).up rfl) (changes_cons (changes_prim rfl) (changes_cons (changes_ask fun _ => (changes_each fun _ => ((changes_pageLost _).up rfl))) (changes_cons ((changes_wipe _ _).up rfl) (changes_cons ((changes_haltsClear _).up rfl) (changes_cons ((changes_predReset _).up rfl) changes_nil))))))))))))))))

theorem changes_freeDom (a0) : Act.Changes [.rst] (freeDom a0) := by
  unfold freeDom
  exact (changes_updRst _)

theorem changes_holdDom (a0) : Act.Changes [.rst] (holdDom a0) := by
  unfold holdDom
  exact (changes_updRst _)

theorem changes_hostClear : Act.Changes [.regs, .log, .sec, .tier, .coh, .hural, .cus, .bell, .rst] hostClear := by
  unfold hostClear
  exact (changes_cons (changes_bellReset.up rfl) (changes_cons (changes_cusReset.up rfl) (changes_cons (changes_prim rfl) (changes_cons ((changes_updTier _).up rfl) (changes_cons ((changes_sessionEnd _ _).up rfl) (changes_cons ((changes_haltsClear _).up rfl) (changes_cons ((changes_predReset _).up rfl) (changes_cons (changes_ask fun _ => ((changes_updRst _).up rfl)) changes_nil))))))))

theorem changes_noteReset (a0 a1) : Act.Changes [.regs] (noteReset a0 a1) := by
  unfold noteReset
  exact (changes_cons (changes_setF _ _ _ _) (changes_cons (changes_setF _ _ _ _) changes_nil))

theorem changes_setDie (a0 a1) : Act.Changes [.regs] (setDie a0 a1) := by
  unfold setDie
  exact (changes_ask fun _ => (changes_prim rfl))

theorem changes_assertHost (a0) : Act.Changes [.regs, .log, .sec, .tier, .coh, .hural, .cus, .bell, .rst] (assertHost a0) := by
  unfold assertHost
  exact (changes_cons ((changes_updRst _).up rfl) (changes_cons changes_hostClear (changes_cons ((changes_holdDom _).up rfl) (changes_cons ((changes_setDie _ _).up rfl) (changes_cons ((changes_noteReset _ _).up rfl) changes_nil)))))

theorem changes_hostGo : Act.Changes [.regs, .log, .sec, .tier, .coh, .hural, .cus, .bell, .rst] hostGo := by
  unfold hostGo
  exact (changes_ask fun _ => (by
    split
    · exact (changes_when (changes_assertHost _))
    · exact changes_skip))

theorem changes_hostReset (a0) : Act.Changes [.out, .regs, .log, .sec, .tier, .coh, .hural, .cus, .bell, .shd, .rst] (hostReset a0) := by
  unfold hostReset
  exact (changes_ask fun _ => (changes_when (changes_cons (changes_giveUp.up rfl) (changes_cons ((changes_updRst _).up rfl) (changes_cons ((changes_departBegin _).up rfl) (changes_cons (changes_hostGo.up rfl) changes_nil))))))

theorem changes_hostPath (a0) : Act.Changes [.out, .regs, .log, .sec, .tier, .coh, .hural, .cus, .bell, .shd, .rst] (hostPath a0) := by
  unfold hostPath
  exact (changes_ask fun _ => (changes_when (changes_hostReset _)))

theorem changes_assertCompute (a0 a1) : Act.Changes [.free, .out, .regs, .mem, .log, .tide, .tiles, .num, .sec, .tier, .coh, .hural, .upd, .cus, .bell, .link, .shd, .rst] (assertCompute a0 a1) := by
  unfold assertCompute
  exact (changes_cons (changes_computeClear.up rfl) (changes_cons ((changes_holdDom _).up rfl) (changes_cons ((changes_noteReset _ _).up rfl) (changes_cons (changes_when (changes_cons ((changes_setDie _ _).up rfl) (changes_cons (changes_each fun _ => ((changes_edgeTrain _).up rfl)) (changes_cons (changes_given ((changes_freeDom _).up rfl)) (changes_cons ((changes_hostPath _).up rfl) changes_nil))))) changes_nil))))

theorem changes_dieLost (a0) : Act.Changes [.out, .regs, .log, .sec, .tier, .coh, .hural, .cus, .bell, .link, .shd, .rst] (dieLost a0) := by
  unfold dieLost
  exact (changes_cons ((changes_setDie _ _).up rfl) (changes_cons (changes_each fun _ => ((changes_edgeStops _ _).up rfl)) (changes_cons (changes_each fun _ => ((changes_updAgent _ _).up rfl)) (changes_cons ((changes_collapseStart _ _ _).up rfl) (changes_cons (changes_given ((changes_hostPath _).up rfl)) changes_nil)))))

theorem changes_hostLost : Act.Changes [.out, .regs, .log, .coh, .hural, .shd, .rst] hostLost := by
  unfold hostLost
  exact (changes_cons ((changes_updAgent _ _).up rfl) (changes_cons ((changes_collapseStart _ _ _).up rfl) changes_nil))

theorem changes_flashCut : Act.Changes [.chart] flashCut := by
  unfold flashCut
  exact (changes_ask fun _ => (changes_when (changes_updChart _)))

theorem changes_packageClear (a0 a1) : Act.Changes [.regs, .mem, .log, .calendar, .chart, .tide, .tiles, .num, .sec, .tier, .coh, .hural, .upd, .cus, .bell, .link, .en, .shd, .hm, .rst, .pow] (packageClear a0 a1) := by
  unfold packageClear
  exact (changes_cons (changes_when ((changes_sessionEnd _ _).up rfl)) (changes_cons ((changes_sessionEnd _ _).up rfl) (changes_cons (changes_ask fun _ => (changes_cons (changes_prim rfl) (changes_cons (changes_each fun _ => (changes_seq ((changes_setF _ _ _ _).up rfl) ((changes_setF _ _ _ _).up rfl))) (changes_cons (changes_when (changes_cons ((changes_setF _ _ _ _).up rfl) (changes_cons ((changes_setF _ _ _ _).up rfl) (changes_cons (changes_each fun _ => ((changes_setF _ _ _ _).up rfl)) (changes_cons ((changes_setF _ _ _ _).up rfl) (changes_cons (changes_prim rfl) (changes_cons ((changes_noteReset _ _).up rfl) changes_nil))))))) changes_nil)))) (changes_cons (changes_ite (changes_prim rfl) (changes_prim rfl)) (changes_cons (changes_prim rfl) (changes_cons (changes_ask fun _ => (changes_prim rfl)) (changes_cons (changes_prim rfl) (changes_cons (changes_prim rfl) (changes_cons (changes_prim rfl) (changes_cons (changes_prim rfl) (changes_cons (changes_prim rfl) (changes_cons (changes_prim rfl) (changes_cons (changes_prim rfl) (changes_cons (changes_prim rfl) (changes_cons (changes_prim rfl) (changes_cons (changes_prim rfl) (changes_cons (changes_prim rfl) (changes_cons (changes_prim rfl) (changes_cons (changes_ask fun _ => (changes_prim rfl)) (changes_cons (changes_prim rfl) (changes_cons (changes_prim rfl) (changes_cons (changes_prim rfl) (changes_cons (changes_prim rfl) changes_nil)))))))))))))))))))))))

theorem changes_packageReset (a0) : Act.Changes [.regs, .mem, .flashLog, .log, .calendar, .chart, .tide, .tiles, .num, .sec, .tier, .coh, .hural, .upd, .cus, .bell, .link, .en, .shd, .hm, .rst, .pow] (packageReset a0) := by
  unfold packageReset
  exact (changes_ask fun _ => (changes_when (changes_cons (changes_closeFloods.up rfl) (changes_cons (changes_flushLog.up rfl) (changes_cons (changes_flashCut.up rfl) (changes_cons ((changes_packageClear _ _).up rfl) (changes_cons (changes_prim rfl) (changes_cons ((changes_noteReset _ _).up rfl) changes_nil))))))))

theorem changes_clockLost (a0) : Act.Changes [.free, .out, .regs, .mem, .flashLog, .log, .calendar, .chart, .tide, .tiles, .num, .sec, .tier, .coh, .hural, .upd, .cus, .bell, .link, .en, .shd, .hm, .rst, .pow] (clockLost a0) := by
  unfold clockLost
  exact (changes_cons ((changes_updRst _).up rfl) (changes_cons (changes_ite ((changes_evt _ _ _).up rfl) ((changes_setBitF _ _ _ _ _).up rfl)) (changes_cons ((changes_logEv _ _ _ _).up rfl) (changes_cons (changes_ite (changes_seq (changes_prim rfl) ((changes_packageReset _).up rfl)) (changes_ite ((changes_packageReset _).up rfl) (changes_ite ((changes_dieLost _).up rfl) (changes_ite (changes_hostLost.up rfl) (changes_ite (by unfold withFree; exact (changes_seq (changes_ask fun _ => (changes_cons ((changes_edgeStops _ _).up rfl) (changes_cons (by
    split
    · exact (changes_ite ((changes_dieLost _).up rfl) (changes_seq ((changes_setDie _ _).up rfl) (changes_when (changes_hostLost.up rfl))))
    · exact changes_skip) changes_nil))) (changes_prim rfl))) changes_skip))))) changes_nil))))

theorem changes_resetGo : Act.Changes [.free, .out, .regs, .mem, .log, .tide, .tiles, .num, .sec, .tier, .coh, .hural, .upd, .cus, .bell, .link, .shd, .rst] resetGo := by
  unfold resetGo
  exact (changes_ask fun _ => (changes_when (changes_seq ((changes_updRst _).up rfl) (changes_each fun _ => (changes_seq ((changes_recordEvent _).up rfl) (changes_assertCompute _ _))))))

theorem changes_computeReset (a0 a1) : Act.Changes [.free, .out, .regs, .mem, .log, .tide, .tiles, .num, .sec, .tier, .coh, .hural, .upd, .cus, .bell, .link, .shd, .rst] (computeReset a0 a1) := by
  unfold computeReset
  exact (changes_ask fun _ => (changes_ite changes_skip (changes_ite (changes_assertCompute _ _) (changes_ite ((changes_updRst _).up rfl) (changes_cons (changes_giveUp.up rfl) (changes_cons ((changes_crashDump _).up rfl) (changes_cons ((changes_updRst _).up rfl) (changes_cons (changes_each fun _ => ((changes_departBegin _).up rfl)) (changes_cons changes_resetGo changes_nil)))))))))

theorem changes_departTimeout (a0) : Act.Changes [.out, .regs, .log, .hural, .shd, .rst] (departTimeout a0) := by
  unfold departTimeout
  exact (changes_given (changes_collapseStart _ _ _))

theorem changes_flushResets (a0 a1) : Act.Changes [.free, .out, .regs, .mem, .log, .tide, .tiles, .num, .sec, .tier, .coh, .hural, .upd, .cus, .bell, .link, .shd, .rst] (flushResets a0 a1) := by
  unfold flushResets
  exact (changes_cons ((changes_updRst _).up rfl) (changes_cons ((changes_hostReset _).up rfl) (changes_cons (changes_given (changes_assertCompute _ _)) (changes_cons (changes_each fun _ => (changes_given (changes_assertCompute _ _))) (changes_cons ((changes_crashDump _).up rfl) changes_nil)))))

theorem changes_flushEnd : Act.Changes [.free, .out, .regs, .mem, .log, .tide, .tiles, .num, .sec, .tier, .coh, .hural, .upd, .cus, .bell, .link, .shd, .rst] flushEnd := by
  unfold flushEnd
  exact (changes_ask fun _ => (changes_when (changes_cons (changes_collapseEnd.up rfl) (changes_cons (changes_flushResets _ _) changes_nil))))

theorem changes_hostBeat : Act.Changes [.rst] hostBeat := by
  unfold hostBeat
  exact (changes_ask fun _ => (changes_updRst _))

theorem changes_hostReturns : Act.Changes [.regs, .mem, .tier, .coh] hostReturns := by
  unfold hostReturns
  exact (changes_cons (changes_given ((changes_rejoin _).up rfl)) (changes_cons (changes_given changes_toTest) changes_nil))

theorem changes_hostTrip : Act.Changes [.out, .regs, .log, .sec, .tier, .coh, .hural, .cus, .bell, .shd, .rst] hostTrip := by
  unfold hostTrip
  exact (changes_ask fun _ => (changes_when (changes_hostReset _)))

theorem changes_objEscalate (a0) : Act.Changes [.free, .out, .regs, .mem, .log, .tide, .tiles, .num, .sec, .tier, .coh, .hural, .upd, .cus, .bell, .link, .shd, .rst] (objEscalate a0) := by
  unfold objEscalate
  exact (changes_cons ((changes_setF _ _ _ _).up rfl) (changes_cons (changes_ask fun _ => (changes_when (changes_cons ((changes_setObjState _ _).up rfl) (changes_cons ((changes_setF _ _ _ _).up rfl) (changes_cons ((changes_setF _ _ _ _).up rfl) (changes_cons ((changes_evt _ _ _).up rfl) (changes_cons (changes_giveUp.up rfl) (changes_cons (changes_computeReset _ _) changes_nil)))))))) changes_nil))

theorem changes_oosClear : Act.Changes [.regs, .log, .rst] oosClear := by
  unfold oosClear
  exact (changes_ask fun _ => (changes_ite (changes_seq ((changes_updRst _).up rfl) (changes_when ((changes_setF _ _ _ _).up rfl))) ((changes_logEv _ _ _ _).up rfl)))

theorem changes_reformed : Act.Changes [.regs] reformed := by
  unfold reformed
  exact (changes_given (changes_setF _ _ _ _))

theorem changes_relockTimeout (a0) : Act.Changes [.out, .regs, .log, .hural, .shd, .rst] (relockTimeout a0) := by
  unfold relockTimeout
  exact (changes_ask fun _ => (changes_when (changes_cons ((changes_freeDom _).up rfl) (changes_cons ((changes_setDie _ _).up rfl) (changes_cons changes_goOut changes_nil)))))

theorem changes_resetRelease (a0) : Act.Changes [.regs, .mem, .tier, .coh, .link, .en, .rst, .pow] (resetRelease a0) := by
  unfold resetRelease
  exact (changes_ask fun _ => (changes_ite changes_skip (changes_ite (changes_when (changes_cons ((changes_freeDom _).up rfl) (changes_cons (changes_agentsReturn.up rfl) (changes_cons (changes_reformed.up rfl) changes_nil)))) (changes_ite (changes_cons ((changes_freeDom _).up rfl) (changes_cons ((changes_updRst _).up rfl) (changes_cons ((changes_setDie _ _).up rfl) (changes_cons ((changes_updEn _).up rfl) (changes_cons (changes_each fun _ => ((changes_edgeTrain _).up rfl)) (changes_cons (changes_agentsReturn.up rfl) (changes_cons (changes_reformed.up rfl) changes_nil))))))) (changes_ite (changes_when (changes_cons ((changes_freeDom _).up rfl) (changes_cons ((changes_setDie _ _).up rfl) (changes_cons ((changes_updRst _).up rfl) (changes_cons (changes_each fun _ => ((changes_edgeTrain _).up rfl)) (changes_cons (changes_hostReturns.up rfl) (changes_cons (changes_reformed.up rfl) changes_nil))))))) (changes_ite (changes_when (changes_cons ((changes_updRst _).up rfl) (changes_cons (changes_prim rfl) (changes_cons (changes_prim rfl) changes_nil)))) changes_skip))))))

theorem changes_rstCp (a0) : Act.Changes [.free, .out, .regs, .mem, .log, .tide, .tiles, .num, .sec, .tier, .coh, .hural, .upd, .cus, .bell, .link, .shd, .rst] (rstCp a0) := by
  unfold rstCp
  exact (changes_cons ((changes_setF _ _ _ _).up rfl) (changes_cons (changes_computeReset _ _) changes_nil))

theorem changes_rstDie (a0) : Act.Changes [.free, .out, .regs, .mem, .log, .tide, .tiles, .num, .sec, .tier, .coh, .hural, .upd, .cus, .bell, .link, .shd, .rst] (rstDie a0) := by
  unfold rstDie
  exact (changes_cons ((changes_setF _ _ _ _).up rfl) (changes_cons (changes_computeReset _ _) changes_nil))

theorem changes_snoopTimeout (a0 a1) : Act.Changes [.out, .regs, .log, .hural, .shd, .rst] (snoopTimeout a0 a1) := by
  unfold snoopTimeout
  exact (changes_given (changes_collapseStart _ _ _))

theorem changes_watchdogTrip (a0) : Act.Changes [.free, .out, .regs, .mem, .log, .tide, .tiles, .num, .sec, .tier, .coh, .hural, .upd, .cus, .bell, .link, .shd, .rst] (watchdogTrip a0) := by
  unfold watchdogTrip
  exact (changes_ask fun _ => (changes_when (changes_cons (changes_each fun _ => (changes_cons ((changes_freeze _).up rfl) (changes_cons ((changes_setBitF _ _ _ _ _).up rfl) (changes_cons ((changes_logEv _ _ _ _).up rfl) changes_nil)))) (changes_cons (changes_when (changes_computeReset _ _)) changes_nil))))

theorem changes_attestDone : Act.Changes [.regs, .mem, .sec, .tier, .coh] attestDone := by
  unfold attestDone
  exact (changes_ask fun _ => (by
    split
    · exact (changes_cons ((changes_pkgWrite _ _).up rfl) (changes_cons ((changes_setF _ _ _ _).up rfl) (changes_cons ((changes_updSec _).up rfl) changes_nil)))
    · exact changes_skip))

theorem changes_attestGo (a0) : Act.Changes [.regs, .sec] (attestGo a0) := by
  unfold attestGo
  exact (changes_ask fun _ => (changes_when (changes_seq ((changes_setF _ _ _ _).up rfl) (changes_ite (changes_seq ((changes_setF _ _ _ _).up rfl) ((changes_updSec _).up rfl)) (changes_seq ((changes_setF _ _ _ _).up rfl) ((changes_evt _ _ _).up rfl))))))

theorem changes_bootIdentity (a0) : Act.Changes [.regs, .log, .sec] (bootIdentity a0) := by
  unfold bootIdentity
  exact (changes_ask fun _ => (by
    split
    · exact (changes_ite ((changes_updSec _).up rfl) (changes_seq ((changes_evt _ _ _).up rfl) ((changes_logEv _ _ _ _).up rfl)))
    · exact (changes_seq ((changes_evt _ _ _).up rfl) ((changes_logEv _ _ _ _).up rfl))))

theorem changes_bootLife : Act.Changes [.mem, .life, .sec, .tier] bootLife := by
  unfold bootLife
  exact (changes_ask fun _ => (by
    split
    · exact (changes_cons (changes_prim rfl) (changes_cons ((changes_updSec _).up rfl) (changes_cons (changes_when (changes_cons ((changes_updSec _).up rfl) (changes_cons (changes_prim rfl) (changes_cons (changes_prim rfl) changes_nil)))) changes_nil)))
    · exact changes_skip))

theorem changes_chartFallback : Act.Changes [.regs, .chart] chartFallback := by
  unfold chartFallback
  exact (changes_cons ((changes_updChart _).up rfl) (changes_cons ((changes_setF _ _ _ _).up rfl) (changes_cons ((changes_setF _ _ _ _).up rfl) (changes_cons ((changes_setF _ _ _ _).up rfl) (changes_cons (changes_given ((changes_setF _ _ _ _).up rfl)) changes_nil)))))

theorem changes_pathMeasure (a0) : Act.Changes [.free, .regs] (pathMeasure a0) := by
  unfold pathMeasure
  exact (changes_when (by unfold withFree; exact (changes_seq (changes_ask fun _ => ((changes_setF _ _ _ _).up rfl)) (changes_prim rfl))))

theorem changes_chartValues : Act.Changes [.free, .regs] chartValues := by
  unfold chartValues
  exact (changes_ask fun _ => (changes_cons (changes_pathMeasure _) (changes_cons ((changes_setF _ _ _ _).up rfl) (changes_cons ((changes_setF _ _ _ _).up rfl) (changes_cons ((changes_setF _ _ _ _).up rfl) (changes_cons ((changes_setF _ _ _ _).up rfl) (changes_cons ((changes_setF _ _ _ _).up rfl) (changes_cons ((changes_setF _ _ _ _).up rfl) (changes_cons ((changes_setF _ _ _ _).up rfl) (changes_cons ((changes_setF _ _ _ _).up rfl) (changes_cons ((changes_setF _ _ _ _).up rfl) (changes_cons ((changes_setF _ _ _ _).up rfl) (changes_cons ((changes_setF _ _ _ _).up rfl) changes_nil)))))))))))))

theorem changes_chartLoad (a0 a1) : Act.Changes [.free, .regs, .floor, .log, .chart, .sec] (chartLoad a0 a1) := by
  unfold chartLoad
  exact (changes_cons ((changes_updChart _).up rfl) (changes_cons ((changes_setF _ _ _ _).up rfl) (changes_cons ((changes_setF _ _ _ _).up rfl) (changes_cons ((changes_setF _ _ _ _).up rfl) (changes_cons (changes_each fun _ => ((changes_setF _ _ _ _).up rfl)) (changes_cons ((changes_updSec _).up rfl) (changes_cons (changes_when (changes_prim rfl)) (changes_cons (changes_chartValues.up rfl) (changes_cons ((changes_logEv _ _ _ _).up rfl) changes_nil)))))))))

theorem changes_bootChart : Act.Changes [.free, .regs, .floor, .log, .chart, .sec] bootChart := by
  unfold bootChart
  exact (changes_ask fun _ => (changes_cons ((changes_setF _ _ _ _).up rfl) (changes_cons ((changes_setF _ _ _ _).up rfl) (changes_cons (changes_when (changes_seq ((changes_evt _ _ _).up rfl) ((changes_logEv _ _ _ _).up rfl))) (changes_cons (changes_when (changes_seq ((changes_evt _ _ _).up rfl) ((changes_logEv _ _ _ _).up rfl))) (changes_cons (by
    split
    · exact (changes_chartLoad _ _)
    · exact (changes_chartFallback.up rfl)) changes_nil))))))

theorem changes_bootRelease : Act.Changes [.regs, .rst, .pow] bootRelease := by
  unfold bootRelease
  exact (changes_ask fun _ => (changes_cons ((changes_freeDom _).up rfl) (changes_cons ((changes_setDie _ _).up rfl) (changes_cons (changes_when ((changes_freeDom _).up rfl)) (changes_cons (changes_prim rfl) changes_nil)))))

theorem changes_bootRest : Act.Changes [.free, .regs, .floor, .log, .chart, .sec, .rst, .pow] bootRest := by
  unfold bootRest
  exact (changes_ask fun _ => (changes_cons (changes_ite (changes_chartValues.up rfl) (changes_bootChart.up rfl)) (changes_cons (changes_prim rfl) (changes_cons (by unfold bootImages; exact (changes_ask fun _ => (changes_cons (changes_when (changes_seq ((changes_evt _ _ _).up rfl) ((changes_logEv _ _ _ _).up rfl))) (changes_cons (changes_when (changes_seq ((changes_evt _ _ _).up rfl) ((changes_logEv _ _ _ _).up rfl))) (changes_cons (by
    split
    · exact (changes_cons ((changes_setF _ _ _ _).up rfl) (changes_cons (changes_seq ((changes_updSec _).up rfl) (changes_bootRelease.up rfl)) (changes_cons (changes_when ((changes_updSec _).up rfl)) changes_nil)))
    · exact (changes_prim rfl)) changes_nil))))) changes_nil))))

theorem changes_boot (a0) : Act.Changes [.free, .regs, .mem, .floor, .life, .log, .chart, .sec, .tier, .rst, .pow] (boot a0) := by
  unfold boot
  exact (changes_ask fun _ => (changes_when (changes_cons (changes_prim rfl) (changes_cons (changes_bootLife.up rfl) (changes_cons ((changes_bootIdentity _).up rfl) (changes_cons (by unfold bootImages; exact (changes_ask fun _ => (changes_cons (changes_when (changes_seq ((changes_evt _ _ _).up rfl) ((changes_logEv _ _ _ _).up rfl))) (changes_cons (changes_when (changes_seq ((changes_evt _ _ _).up rfl) ((changes_logEv _ _ _ _).up rfl))) (changes_cons (by
    split
    · exact (changes_cons ((changes_setF _ _ _ _).up rfl) (changes_cons (changes_cons ((changes_updSec _).up rfl) (changes_cons ((changes_setF _ _ _ _).up rfl) (changes_cons (changes_bootRest.up rfl) changes_nil))) (changes_cons (changes_when ((changes_updSec _).up rfl)) changes_nil)))
    · exact (changes_seq (changes_prim rfl) (changes_seq ((changes_updRst _).up rfl) (changes_prim rfl)))) changes_nil))))) changes_nil))))))

theorem changes_lifeReset : Act.Changes [.regs, .mem, .flashLog, .log, .calendar, .chart, .tide, .tiles, .num, .sec, .tier, .coh, .hural, .upd, .cus, .bell, .link, .en, .shd, .hm, .rst, .pow] lifeReset := by
  unfold lifeReset
  exact (changes_ask fun _ => (changes_when (changes_packageReset _)))

theorem changes_recordDone (a0 a1) : Act.Changes [.regs, .sec] (recordDone a0 a1) := by
  unfold recordDone
  exact (changes_ite (changes_seq ((changes_updSec _).up rfl) ((changes_evt _ _ _).up rfl)) ((changes_updSec _).up rfl))

theorem changes_secEndorse (a0) : Act.Changes [.regs, .sec] (secEndorse a0) := by
  unfold secEndorse
  exact (by unfold secCmd; exact (changes_cons ((changes_setF _ _ _ _).up rfl) (changes_cons ((changes_setF _ _ _ _).up rfl) (changes_cons (changes_ask fun _ => (changes_ite (changes_seq ((changes_setF _ _ _ _).up rfl) ((changes_updSec _).up rfl)) (changes_cons ((changes_setF _ _ _ _).up rfl) (changes_cons ((changes_setF _ _ _ _).up rfl) (changes_cons ((changes_evt _ _ _).up rfl) changes_nil))))) changes_nil))))

theorem changes_secIdentity (a0) : Act.Changes [.free, .regs, .sec] (secIdentity a0) := by
  unfold secIdentity
  exact (by unfold secCmd; exact (changes_cons ((changes_setF _ _ _ _).up rfl) (changes_cons ((changes_setF _ _ _ _).up rfl) (changes_cons (changes_ask fun _ => (changes_ite (changes_seq ((changes_setF _ _ _ _).up rfl) (by (try dsimp only); unfold withFree; exact (changes_seq (changes_ask fun _ => ((changes_updSec _).up rfl)) (changes_prim rfl)))) (changes_cons ((changes_setF _ _ _ _).up rfl) (changes_cons ((changes_setF _ _ _ _).up rfl) (changes_cons ((changes_evt _ _ _).up rfl) changes_nil))))) changes_nil))))

theorem changes_secOwner (a0) : Act.Changes [.regs, .sec] (secOwner a0) := by
  unfold secOwner
  exact (by unfold secCmd; exact (changes_cons ((changes_setF _ _ _ _).up rfl) (changes_cons ((changes_setF _ _ _ _).up rfl) (changes_cons (changes_ask fun _ => (changes_ite (changes_seq ((changes_setF _ _ _ _).up rfl) ((changes_updSec _).up rfl)) (changes_cons ((changes_setF _ _ _ _).up rfl) (changes_cons ((changes_setF _ _ _ _).up rfl) (changes_cons ((changes_evt _ _ _).up rfl) changes_nil))))) changes_nil))))

theorem changes_secRecord (a0) : Act.Changes [.regs, .sec] (secRecord a0) := by
  unfold secRecord
  exact (by unfold secCmd; exact (changes_cons ((changes_setF _ _ _ _).up rfl) (changes_cons ((changes_setF _ _ _ _).up rfl) (changes_cons (changes_ask fun _ => (changes_ite (changes_seq ((changes_setF _ _ _ _).up rfl) (changes_recordDone _ _)) (changes_cons ((changes_setF _ _ _ _).up rfl) (changes_cons ((changes_setF _ _ _ _).up rfl) (changes_cons ((changes_evt _ _ _).up rfl) changes_nil))))) changes_nil))))

theorem changes_avsPoll (a0) : Act.Changes [.regs] (avsPoll a0) := by
  unfold avsPoll
  exact (by
    split
    · exact (changes_seq (changes_setF _ _ _ _) (changes_setF _ _ _ _))
    · exact changes_skip)

theorem changes_capExc (a0) : Act.Changes [.out, .regs, .en] (capExc a0) := by
  unfold capExc
  exact (by unfold i3c; exact (changes_ask fun _ => (changes_ite (changes_cons ((changes_setF _ _ _ _).up rfl) (changes_cons ((changes_setF _ _ _ _).up rfl) (changes_cons ((changes_updEn _).up rfl) changes_nil))) ((changes_send _).up rfl))))

theorem changes_capSust (a0) : Act.Changes [.out, .regs, .en] (capSust a0) := by
  unfold capSust
  exact (by unfold i3c; exact (changes_ask fun _ => (changes_ite (changes_cons ((changes_setF _ _ _ _).up rfl) (changes_cons ((changes_setF _ _ _ _).up rfl) (changes_cons ((changes_updEn _).up rfl) changes_nil))) ((changes_send _).up rfl))))

theorem changes_updPow (a0) : Act.Changes [.pow] (updPow a0) := by
  unfold updPow
  exact (changes_prim rfl)

theorem changes_convertersReady : Act.Changes [.regs, .mem, .tier, .coh, .link, .en, .rst, .pow] convertersReady := by
  unfold convertersReady
  exact (changes_ask fun _ => (changes_when (changes_seq ((changes_updPow _).up rfl) (changes_resetRelease _))))

theorem changes_tileRegsReset (a0) : Act.Changes [.regs] (tileRegsReset a0) := by
  unfold tileRegsReset
  exact (changes_each fun _ => (changes_each fun _ => (changes_each fun _ => (changes_resetReg _ _ _))))

theorem changes_darkDown (a0) : Act.Changes [.regs, .mem, .log, .tiles, .sec, .tier, .coh, .en] (darkDown a0) := by
  unfold darkDown
  exact (changes_cons (changes_ask fun _ => (changes_each fun _ => ((changes_pageLost _).up rfl))) (changes_cons ((changes_wipe _ _).up rfl) (changes_cons (changes_prim rfl) (changes_cons ((changes_tileRegsReset _).up rfl) (changes_cons ((changes_haltsClear _).up rfl) (changes_cons ((changes_predReset _).up rfl) (changes_cons ((changes_setDie _ _).up rfl) (changes_cons ((changes_updEn _).up rfl) (changes_cons (changes_ask fun _ => (changes_seq ((changes_setF _ _ _ _).up rfl) ((changes_setF _ _ _ _).up rfl))) changes_nil)))))))))

theorem changes_darkGo : Act.Changes [.regs, .mem, .log, .tiles, .sec, .tier, .coh, .en] darkGo := by
  unfold darkGo
  exact (changes_ask fun _ => (by
    split
    · exact (changes_when (changes_darkDown _))
    · exact changes_skip))

theorem changes_darkEnter (a0) : Act.Changes [.regs, .mem, .log, .tiles, .sec, .tier, .coh, .en] (darkEnter a0) := by
  unfold darkEnter
  exact (changes_cons ((changes_updEn _).up rfl) (changes_cons (changes_each fun _ => ((changes_departBegin _).up rfl)) (changes_cons changes_darkGo changes_nil)))

theorem changes_darkBoundary : Act.Changes [.regs, .mem, .log, .tiles, .sec, .tier, .coh, .en] darkBoundary := by
  unfold darkBoundary
  exact (changes_ask fun _ => (by
    split
    · exact (changes_cons ((changes_updEn _).up rfl) (changes_cons (by
        split
        · exact (changes_when ((changes_updEn _).up rfl))
        · exact (changes_when (changes_darkEnter _))) changes_nil))
    · exact changes_skip))

theorem changes_darkExit (a0) : Act.Changes [.regs, .coh, .en] (darkExit a0) := by
  unfold darkExit
  exact (changes_ask fun _ => (changes_when (changes_cons ((changes_updEn _).up rfl) (changes_cons (changes_when ((changes_setDie _ _).up rfl)) (changes_cons ((changes_setF _ _ _ _).up rfl) (changes_cons (changes_agentsReturn.up rfl) changes_nil))))))

theorem changes_darkWrite (a0) : Act.Changes [.regs, .log, .en] (darkWrite a0) := by
  unfold darkWrite
  exact (changes_ask fun _ => (changes_ite changes_skip (changes_ite (changes_seq ((changes_evt _ _ _).up rfl) ((changes_logEv _ _ _ _).up rfl)) (changes_seq ((changes_setF _ _ _ _).up rfl) ((changes_updEn _).up rfl)))))

theorem changes_departureEnds (a0) : Act.Changes [.free, .out, .regs, .mem, .log, .tide, .tiles, .num, .sec, .tier, .coh, .hural, .upd, .cus, .bell, .link, .en, .shd, .rst] (departureEnds a0) := by
  unfold departureEnds
  exact (changes_cons ((changes_departComplete _).up rfl) (changes_cons (changes_resetGo.up rfl) (changes_cons (changes_hostGo.up rfl) (changes_cons (changes_darkGo.up rfl) (changes_cons (changes_given ((changes_rejoin _).up rfl)) changes_nil)))))

theorem changes_hostImageEnd : Act.Changes [.regs, .log, .sec, .rst, .pow] hostImageEnd := by
  unfold hostImageEnd
  exact (changes_ask fun _ => (changes_seq ((changes_updPow _).up rfl) (changes_ite (changes_cons ((changes_updSec _).up rfl) (changes_cons ((changes_setF _ _ _ _).up rfl) (changes_cons ((changes_updPow _).up rfl) (changes_cons (changes_bootRelease.up rfl) changes_nil)))) (changes_seq ((changes_evt _ _ _).up rfl) ((changes_logEv _ _ _ _).up rfl)))))

theorem changes_hostImage (a0) : Act.Changes [.out, .regs, .log, .sec, .rst, .pow] (hostImage a0) := by
  unfold hostImage
  exact (changes_ask fun _ => (changes_ite ((changes_send _).up rfl) (changes_ite (changes_hostImageEnd.up rfl) ((changes_updPow _).up rfl))))

theorem changes_i3cGet (a0) : Act.Changes [.out] (i3cGet a0) := by
  unfold i3cGet
  exact (by unfold i3c; exact (changes_ask fun _ => (changes_ite (changes_ask fun _ => (changes_send _)) (changes_send _))))

theorem changes_powerLoss : Act.Changes [.regs, .mem, .log, .calendar, .chart, .tide, .tiles, .num, .sec, .tier, .coh, .hural, .upd, .cus, .bell, .link, .en, .shd, .hm, .rst, .pow] powerLoss := by
  unfold powerLoss
  exact (changes_cons (changes_flashCut.up rfl) (changes_cons (changes_packageClear _ _) (changes_cons ((changes_noteReset _ _).up rfl) (changes_cons (changes_prim rfl) (changes_cons (changes_ask fun _ => (changes_prim rfl)) (changes_cons (changes_ask fun _ => (changes_when ((changes_updTime _).up rfl))) (changes_cons ((changes_updPow _).up rfl) changes_nil)))))))

theorem changes_refclkBack : Act.Changes [.regs, .mem, .tier, .coh, .link, .en, .rst, .pow] refclkBack := by
  unfold refclkBack
  exact (changes_cons ((changes_updPow _).up rfl) (changes_cons ((changes_updRst _).up rfl) (changes_cons (changes_resetRelease _) changes_nil)))

theorem changes_resetLand : Act.Changes [.regs, .mem, .flashLog, .log, .calendar, .chart, .tide, .tiles, .num, .sec, .tier, .coh, .hural, .upd, .cus, .bell, .link, .en, .shd, .hm, .rst, .pow] resetLand := by
  unfold resetLand
  exact (changes_cons ((changes_updPow _).up rfl) (changes_cons (changes_packageReset _) (changes_cons (changes_given ((changes_noteReset _ _).up rfl)) changes_nil)))

theorem changes_resetNLow (a0) : Act.Changes [.free, .regs, .mem, .flashLog, .log, .calendar, .chart, .tide, .tiles, .num, .sec, .tier, .coh, .hural, .upd, .cus, .bell, .link, .en, .shd, .hm, .rst, .pow] (resetNLow a0) := by
  unfold resetNLow
  exact (changes_ite changes_skip (changes_ite (changes_resetLand.up rfl) (by unfold withFree; exact (changes_seq (changes_ask fun _ => (changes_ite (changes_resetLand.up rfl) changes_skip)) (changes_prim rfl)))))

theorem changes_sbEnter : Act.Changes [.out, .regs, .flashLog, .log, .calendar, .sec, .hural, .en, .shd, .rst, .pow] sbEnter := by
  unfold sbEnter
  exact (changes_cons (changes_giveUp.up rfl) (changes_cons (changes_each fun _ => (changes_given (changes_seq ((changes_sendClose _ _).up rfl) ((changes_endSession _ _ _).up rfl)))) (changes_cons ((changes_sessionEnd _ _).up rfl) (changes_cons (changes_given ((changes_sessionEnd _ _).up rfl)) (changes_cons (changes_closeFloods.up rfl) (changes_cons (changes_flushLog.up rfl) (changes_cons (changes_tallySave.up rfl) (changes_cons (changes_ptpLost.up rfl) (changes_cons ((changes_updEn _).up rfl) (changes_cons ((changes_updPow _).up rfl) (changes_cons ((changes_updRst _).up rfl) (changes_cons (changes_prim rfl) changes_nil))))))))))))

theorem changes_sbEntry : Act.Changes [.out, .regs, .flashLog, .log, .calendar, .sec, .hural, .en, .shd, .rst, .pow] sbEntry := by
  unfold sbEntry
  exact (changes_ask fun _ => (changes_when changes_sbEnter))

theorem changes_sbLeave : Act.Changes [.regs, .mem, .log, .calendar, .chart, .tide, .tiles, .num, .sec, .tier, .coh, .hural, .upd, .cus, .bell, .link, .en, .shd, .hm, .rst, .pow] sbLeave := by
  unfold sbLeave
  exact (changes_cons (changes_packageClear _ _) (changes_cons ((changes_updRst _).up rfl) (changes_cons (changes_prim rfl) (changes_cons ((changes_updPow _).up rfl) changes_nil))))

theorem changes_sbRequest : Act.Changes [.regs, .en] sbRequest := by
  unfold sbRequest
  exact (changes_ask fun _ => (changes_ite changes_skip (changes_ite ((changes_updEn _).up rfl) ((changes_evt _ _ _).up rfl))))

theorem changes_standbyBack : Act.Changes [.calendar, .pow] standbyBack := by
  unfold standbyBack
  exact (changes_ask fun _ => (changes_when (changes_seq ((changes_updPow _).up rfl) (changes_when ((changes_updTime _).up rfl)))))

theorem changes_standbyLost : Act.Changes [.log, .calendar, .pow] standbyLost := by
  unfold standbyLost
  exact (changes_ask fun _ => (changes_when (changes_seq ((changes_updPow _).up rfl) (changes_ite ((changes_logEv _ _ _ _).up rfl) ((changes_updTime _).up rfl)))))

theorem changes_statusIbi : Act.Changes [.out, .pow] statusIbi := by
  unfold statusIbi
  exact (changes_ask fun _ => (changes_when (changes_seq ((changes_send _).up rfl) ((changes_updPow _).up rfl))))

theorem changes_vinDischarged : Act.Changes [.regs, .mem, .log, .calendar, .chart, .tide, .tiles, .num, .sec, .tier, .coh, .hural, .upd, .cus, .bell, .link, .en, .shd, .hm, .rst, .pow] vinDischarged := by
  unfold vinDischarged
  exact (changes_ask fun _ => (changes_seq (changes_when changes_powerLoss) ((changes_updPow _).up rfl)))

theorem changes_vinOut : Act.Changes [.regs, .mem, .log, .calendar, .chart, .tide, .tiles, .num, .sec, .tier, .coh, .hural, .upd, .cus, .bell, .link, .en, .shd, .hm, .rst, .pow] vinOut := by
  unfold vinOut
  exact (changes_ask fun _ => (changes_when (changes_seq ((changes_updPow _).up rfl) changes_powerLoss)))

theorem changes_vinRise : Act.Changes [.calendar, .pow] vinRise := by
  unfold vinRise
  exact (changes_ask fun _ => (changes_when (changes_seq ((changes_updPow _).up rfl) (changes_when ((changes_updTime _).up rfl)))))

theorem changes_amendComplete (a0) : Act.Changes [.regs, .log, .chart, .sec] (amendComplete a0) := by
  unfold amendComplete
  exact (changes_ask fun _ => (changes_cons ((changes_setF _ _ _ _).up rfl) (changes_cons ((changes_setF _ _ _ _).up rfl) (changes_cons ((changes_setF _ _ _ _).up rfl) (changes_cons (changes_each fun _ => ((changes_setF _ _ _ _).up rfl)) (changes_cons ((changes_setF _ _ _ _).up rfl) (changes_cons ((changes_setF _ _ _ _).up rfl) (changes_cons ((changes_setF _ _ _ _).up rfl) (changes_cons ((changes_updChart _).up rfl) (changes_cons ((changes_updSec _).up rfl) (changes_cons ((changes_evt _ _ _).up rfl) (changes_cons ((changes_logEv _ _ _ _).up rfl) changes_nil))))))))))))

theorem changes_amendWaits (a0 a1 a2 a3) : Act.Changes [.regs, .log] (amendWaits a0 a1 a2 a3) := by
  unfold amendWaits
  exact (changes_cons ((changes_setF _ _ _ _).up rfl) (changes_cons ((changes_setF _ _ _ _).up rfl) (changes_cons (changes_when ((changes_evt _ _ _).up rfl)) (changes_cons (changes_each fun _ => ((changes_logEv _ _ _ _).up rfl)) changes_nil))))

theorem changes_flotillaTaken (a0) : Act.Changes [.free, .regs, .tide] (flotillaTaken a0) := by
  unfold flotillaTaken
  exact (changes_ask fun _ => (changes_cons ((changes_setF _ _ _ _).up rfl) (changes_cons ((changes_setF _ _ _ _).up rfl) (changes_cons ((changes_updTide _).up rfl) (changes_cons ((changes_pathMeasure _).up rfl) (changes_cons (changes_ite (changes_when (changes_seq ((changes_setF _ _ _ _).up rfl) ((changes_setF _ _ _ _).up rfl))) (changes_cons (changes_when ((changes_setF _ _ _ _).up rfl)) (changes_cons (changes_when ((changes_setF _ _ _ _).up rfl)) changes_nil))) changes_nil))))))

theorem changes_tideTaken (a0 a1) : Act.Changes [.regs] (tideTaken a0 a1) := by
  unfold tideTaken
  exact (changes_ask fun _ => (changes_cons (changes_when (changes_setF _ _ _ _)) (changes_cons (changes_setF _ _ _ _) (changes_cons (changes_setF _ _ _ _) (changes_cons (changes_when (changes_setF _ _ _ _)) changes_nil)))))

theorem changes_sectionTaken (a0 a1 a2) : Act.Changes [.free, .out, .regs, .mem, .log, .tide, .tiles, .num, .sec, .tier, .coh, .hural, .upd, .bell, .shd, .rst] (sectionTaken a0 a1 a2) := by
  unfold sectionTaken
  exact (by
    split
    · exact (changes_seq (changes_ask fun _ => ((changes_setF _ _ _ _).up rfl)) ((changes_quotaCheck _).up rfl))
    · exact (changes_each fun _ => (changes_given ((changes_rejoin _).up rfl)))
    · exact ((changes_flotillaTaken _).up rfl)
    · exact ((changes_tideTaken _ _).up rfl)
    · exact (changes_cons ((changes_setF _ _ _ _).up rfl) (changes_cons ((changes_setF _ _ _ _).up rfl) (changes_cons ((changes_setF _ _ _ _).up rfl) (changes_cons (changes_ask fun _ => (changes_seq (changes_judgeRecord.up rfl) (changes_given (changes_seq (changes_each fun _ => ((changes_departBegin _).up rfl)) (changes_computeClear.up rfl))))) changes_nil))))
    · exact (changes_prim rfl)
    · exact (changes_each fun _ => (changes_ask fun _ => (changes_when ((changes_sessionEnd _ _).up rfl))))
    · exact changes_skip)

theorem changes_sectionsTaken (a0 a1) : Act.Changes [.free, .out, .regs, .mem, .log, .chart, .tide, .tiles, .num, .sec, .tier, .coh, .hural, .upd, .bell, .shd, .rst] (sectionsTaken a0 a1) := by
  unfold sectionsTaken
  exact (changes_ask fun _ => (changes_cons (changes_when (changes_each fun _ => ((changes_departBegin _).up rfl))) (changes_cons ((changes_updChart _).up rfl) (changes_cons (changes_each fun _ => ((changes_sectionTaken _ _ _).up rfl)) changes_nil))))

theorem changes_amendTakes : Act.Changes [.free, .out, .regs, .mem, .log, .chart, .tide, .tiles, .num, .sec, .tier, .coh, .hural, .upd, .bell, .shd, .rst] amendTakes := by
  unfold amendTakes
  exact (changes_ask fun _ => (by
    split
    · exact (changes_ite changes_skip (changes_ite ((changes_amendReject _).up rfl) (changes_ite ((changes_amendWaits _ _ _ _).up rfl) (changes_cons (changes_sectionsTaken _ _) (changes_cons ((changes_updChart _).up rfl) (changes_cons (changes_ite ((changes_amendComplete _).up rfl) ((changes_amendWaits _ _ _ _).up rfl)) changes_nil))))))
    · exact changes_skip))

theorem changes_commitToken : Act.Changes [.regs, .mem, .tide, .tier, .coh, .upd] commitToken := by
  unfold commitToken
  exact (changes_ask fun _ => (by
    split
    · exact (changes_seq ((changes_updTide _).up rfl) (changes_when (changes_seq ((changes_updTide _).up rfl) (changes_ask fun _ => (changes_cons (changes_when (changes_commitPending.up rfl)) (changes_cons ((changes_updTide _).up rfl) changes_nil))))))
    · exact changes_skip))

theorem changes_darkDeclared : Act.Changes [.free, .out, .regs, .mem, .log, .tide, .tiles, .sec, .tier, .coh, .hural, .upd, .bell, .shd] darkDeclared := by
  unfold darkDeclared
  exact (changes_ask fun _ => (by
    split
    · exact (changes_seq ((changes_updTide _).up rfl) (changes_darkApply _))
    · exact changes_skip))

theorem changes_noProgress : Act.Changes [.regs, .tide] noProgress := by
  unfold noProgress
  exact (changes_seq (changes_each fun _ => (changes_ask fun _ => (changes_ite ((changes_incF _ _ _ _).up rfl) ((changes_setF _ _ _ _).up rfl)))) ((changes_updTide _).up rfl))

theorem changes_unitSlips (a0) : Act.Changes [.regs, .log] (unitSlips a0) := by
  unfold unitSlips
  exact (changes_ask fun _ => (changes_cons ((changes_incF _ _ _ _).up rfl) (changes_cons ((changes_incF _ _ _ _).up rfl) (changes_cons ((changes_setF _ _ _ _).up rfl) (changes_cons (changes_when ((changes_setBitF _ _ _ _ _).up rfl)) (changes_cons (changes_when (changes_seq ((changes_evt _ _ _).up rfl) ((changes_logEv _ _ _ _).up rfl))) changes_nil))))))

theorem changes_partSlips (a0) : Act.Changes [.regs, .log, .tide] (partSlips a0) := by
  unfold partSlips
  exact (changes_ask fun _ => (changes_cons (changes_each fun _ => (changes_ite ((changes_unitSlips _).up rfl) (changes_when ((changes_setF _ _ _ _).up rfl)))) (changes_cons ((changes_updPart _ _).up rfl) (changes_cons ((changes_setF _ _ _ _).up rfl) (changes_cons (changes_when ((changes_incF _ _ _ _).up rfl)) changes_nil)))))

theorem changes_samplePlans : Act.Changes [.tide] samplePlans := by
  unfold samplePlans
  exact (changes_each fun _ => (changes_ask fun _ => (changes_updPart _ _)))

theorem changes_stampDue : Act.Changes [.out, .hural] stampDue := by
  unfold stampDue
  exact (changes_ask fun _ => (changes_when (changes_stampSend _)))

theorem changes_stepClose (a0) : Act.Changes [.free, .out, .regs, .mem, .log, .num, .tier, .coh, .hural, .cus, .shd] (stepClose a0) := by
  unfold stepClose
  exact (changes_ask fun _ => (changes_when (changes_cons ((changes_stepCloseNum _).up rfl) (changes_cons ((changes_updTier _).up rfl) (changes_cons (changes_when (changes_ask fun _ => ((changes_computeEta _).up rfl))) (changes_cons ((changes_cusStepClose _).up rfl) (changes_cons ((changes_shdStepClose _).up rfl) changes_nil)))))))

theorem changes_graceEnd : Act.Changes [.free, .out, .regs, .mem, .log, .chart, .tide, .tiles, .num, .sec, .tier, .coh, .hural, .upd, .cus, .bell, .en, .shd, .hm, .rst] graceEnd := by
  unfold graceEnd
  exact (changes_given (changes_cons ((changes_updTide _).up rfl) (changes_cons (changes_each fun _ => ((changes_partSlips _).up rfl)) (changes_cons (changes_noProgress.up rfl) (changes_cons (changes_samplePlans.up rfl) (changes_cons (changes_commitToken.up rfl) (changes_cons (changes_setCommitted.up rfl) (changes_cons (changes_ask fun _ => (changes_each fun _ => ((changes_stepClose _).up rfl))) (changes_cons (changes_darkDeclared.up rfl) (changes_cons (changes_amendTakes.up rfl) (changes_cons (changes_fwKeep.up rfl) (changes_cons (changes_fwBoundary.up rfl) (changes_cons (changes_each fun _ => ((changes_allotMiss _).up rfl)) (changes_cons (changes_clockStates.up rfl) (changes_cons (changes_gaugeSchedule.up rfl) (changes_cons (changes_darkBoundary.up rfl) (changes_cons (changes_stampDue.up rfl) (changes_cons ((changes_protocolBoundary _).up rfl) changes_nil))))))))))))))))))

theorem changes_passesEnd (a0) : Act.Changes [.tide, .num] (passesEnd a0) := by
  unfold passesEnd
  exact (changes_ask fun _ => (changes_cons (by
    split
    · exact (changes_when ((changes_updTide _).up rfl))
    · exact changes_skip) (changes_cons ((changes_updNum _).up rfl) changes_nil)))

theorem changes_planRejects (a0 a1 a2) : Act.Changes [.regs, .log, .tide, .num, .bell] (planRejects a0 a1 a2) := by
  unfold planRejects
  exact (changes_ask fun _ => (changes_cons ((changes_passesEnd _).up rfl) (changes_cons ((changes_updPart _ _).up rfl) (changes_cons (changes_when ((changes_planSlotFree _).up rfl)) (changes_cons ((changes_evt _ _ _).up rfl) (changes_cons ((changes_logEv _ _ _ _).up rfl) (changes_cons (changes_when ((changes_planRejected _ _).up rfl)) changes_nil)))))))

theorem changes_setContributes (a0 a1) : Act.Changes [.tide] (setContributes a0 a1) := by
  unfold setContributes
  exact (changes_ask fun _ => (changes_when (changes_updTide _)))

theorem changes_syncClear (a0) : Act.Changes [.regs, .upd] (syncClear a0) := by
  unfold syncClear
  exact (changes_ask fun _ => (changes_seq (changes_each fun _ => (changes_each fun _ => ((changes_setF _ _ _ _).up rfl))) (changes_when ((changes_updUpd _).up rfl))))

theorem changes_unitTakes (a0 a1) : Act.Changes [.tiles, .tier, .upd, .cus] (unitTakes a0 a1) := by
  unfold unitTakes
  exact (changes_ask fun _ => (changes_ite ((changes_updTile _ _).up rfl) (changes_ite ((changes_updUpd _).up rfl) (changes_ite ((changes_updTier _).up rfl) (changes_ite ((changes_updCus _).up rfl) ((changes_updCus _).up rfl))))))

theorem changes_planTakes (a0 a1 a2) : Act.Changes [.regs, .tide, .tiles, .num, .tier, .upd, .cus, .bell] (planTakes a0 a1 a2) := by
  unfold planTakes
  exact (changes_ask fun _ => (changes_cons ((changes_passesEnd _).up rfl) (changes_cons (changes_when ((changes_setContributes _ _).up rfl)) (changes_cons ((changes_syncClear _).up rfl) (changes_cons (changes_each fun _ => ((changes_unitTakes _ _).up rfl)) (changes_cons ((changes_updPart _ _).up rfl) (changes_cons (changes_when ((changes_planSlotFree _).up rfl)) (changes_cons ((changes_batchCounter _).up rfl) (changes_cons (changes_when ((changes_planTaken _ _).up rfl)) (changes_cons (changes_when ((changes_updTier _).up rfl)) changes_nil))))))))))

theorem changes_partTakes (a0) : Act.Changes [.regs, .log, .tide, .tiles, .num, .tier, .upd, .cus, .bell] (partTakes a0) := by
  unfold partTakes
  exact (changes_ask fun _ => (changes_ite ((changes_updPart _ _).up rfl) (by
    try dsimp only
    split
    · exact ((changes_updPart _ _).up rfl)
    · exact (changes_ite ((changes_updPart _ _).up rfl) (changes_ite ((changes_planRejects _ _ _).up rfl) (changes_ite ((changes_updPart _ _).up rfl) ((changes_planTakes _ _ _).up rfl)))))))

theorem changes_planTake : Act.Changes [.free, .out, .regs, .log, .tide, .tiles, .num, .tier, .hural, .upd, .cus, .bell, .shd] planTake := by
  unfold planTake
  exact (changes_given (changes_cons ((changes_updTide _).up rfl) (changes_cons (changes_ask fun _ => (changes_when (changes_seq (changes_when ((changes_incF _ _ _ _).up rfl)) (changes_each fun _ => ((changes_partTakes _).up rfl))))) (changes_cons (changes_prim rfl) (changes_cons (changes_commitRecord.up rfl) changes_nil)))))

theorem changes_regReadBy (a0 a1 a2) : Act.Changes [.out, .regs, .bell] (regReadBy a0 a1 a2) := by
  unfold regReadBy
  exact (changes_ask fun _ => (by
    split
    · exact ((changes_visRead _ _ _ _).up rfl)
    · exact (changes_seq ((changes_respond _ _ _).up rfl) (changes_when (changes_prim rfl)))
    · exact ((changes_respond _ _ _).up rfl)))

theorem changes_storeFields (a0 a1 a2 a3 a4) : Act.Changes [.regs, .log] (storeFields a0 a1 a2 a3 a4) := by
  unfold storeFields
  exact (changes_ask fun _ => (changes_seq (changes_prim rfl) (changes_when (changes_seq ((changes_evt _ _ _).up rfl) ((changes_logEv _ _ _ _).up rfl)))))

theorem changes_bellCfgWrite (a0 a1 a2) : Act.Changes [.regs, .log, .bell] (bellCfgWrite a0 a1 a2) := by
  unfold bellCfgWrite
  exact (changes_ask fun _ => (changes_seq ((changes_storeFields _ _ _ _ _).up rfl) (changes_when (changes_ite ((changes_bellEnable _).up rfl) ((changes_bellDisable _).up rfl)))))

theorem changes_cusCfgWrite (a0 a1) : Act.Changes [.regs, .log] (cusCfgWrite a0 a1) := by
  unfold cusCfgWrite
  exact (changes_ask fun _ => (changes_seq (changes_when (changes_storeFields _ _ _ _ _)) (changes_when (changes_ite (changes_cusEnable.up rfl) ((changes_setF _ _ _ _).up rfl)))))

theorem changes_hostWrite (a0 a1 a2 a3 a4) : Act.Changes [.free, .out, .regs, .mem, .log, .tier, .coh, .hural, .cus, .bell] (hostWrite a0 a1 a2 a3 a4) := by
  unfold hostWrite
  exact (by
    split
    · exact (changes_when ((changes_bellRing _ _).up rfl))
    · exact (changes_when ((changes_cqHeadWrite _ _).up rfl))
    · exact ((changes_bellCfgWrite _ _ _).up rfl)
    · exact (changes_given ((changes_storeFields _ _ _ _ _).up rfl))
    · exact (changes_given ((changes_storeFields _ _ _ _ _).up rfl))
    · exact ((changes_cusCfgWrite _ _).up rfl)
    · exact (changes_when ((changes_cusTail _).up rfl))
    · exact ((changes_hostDone _).up rfl)
    · exact (changes_when (changes_cusRestore.up rfl))
    · exact ((changes_storeFields _ _ _ _ _).up rfl))

theorem changes_huralCfgWrite (a0 a1 a2) : Act.Changes [.free, .out, .regs, .log, .hural] (huralCfgWrite a0 a1 a2) := by
  unfold huralCfgWrite
  exact (changes_ask fun _ => (changes_seq ((changes_storeFields _ _ _ _ _).up rfl) (changes_when (changes_seq (changes_when ((changes_setF _ _ _ _).up rfl)) ((changes_tryOpen _).up rfl)))))

theorem changes_objCtl (a0) : Act.Changes [.free, .out, .regs, .mem, .log, .tide, .tiles, .num, .sec, .tier, .coh, .hural, .upd, .cus, .bell, .link, .shd, .rst] (objCtl a0) := by
  unfold objCtl
  exact (changes_ask fun _ => (by
    try dsimp only
    split
    · exact ((changes_objRebuild _).up rfl)
    · exact ((changes_objRelease _).up rfl)
    · exact (changes_objEscalate _)
    · exact changes_skip))

theorem changes_planRegWrite (a0 a1 a2) : Act.Changes [.regs, .log, .tide] (planRegWrite a0 a1 a2) := by
  unfold planRegWrite
  exact (changes_ask fun _ => (changes_ite ((changes_updPart _ _).up rfl) (changes_seq ((changes_storeFields _ _ _ _ _).up rfl) (changes_when ((changes_updPart _ _).up rfl)))))

theorem changes_rstCtlWrite (a0) : Act.Changes [.free, .out, .regs, .mem, .flashLog, .log, .calendar, .chart, .tide, .tiles, .num, .sec, .tier, .coh, .hural, .upd, .cus, .bell, .link, .en, .shd, .hm, .rst, .pow] (rstCtlWrite a0) := by
  unfold rstCtlWrite
  exact (changes_seq (changes_ask fun _ => (changes_cons (changes_when ((changes_packageReset _).up rfl)) (changes_cons (changes_when ((changes_rstDie _).up rfl)) (changes_cons (changes_when ((changes_rstCp _).up rfl)) (changes_cons (changes_when ((changes_hostReset _).up rfl)) changes_nil))))) (changes_when (changes_oosClear.up rfl)))

theorem changes_secCmdGo : Act.Changes [.free, .regs, .sec] secCmdGo := by
  unfold secCmdGo
  exact (changes_ask fun _ => (by
    try dsimp only
    split
    · exact ((changes_secRecord _).up rfl)
    · exact ((changes_secOwner _).up rfl)
    · exact ((changes_secEndorse _).up rfl)
    · exact (changes_secIdentity _)
    · exact (by (try dsimp only); unfold secCmd; exact (changes_cons ((changes_setF _ _ _ _).up rfl) (changes_cons ((changes_setF _ _ _ _).up rfl) (changes_cons (changes_ask fun _ => (changes_ite (changes_seq ((changes_setF _ _ _ _).up rfl) changes_skip) (changes_cons ((changes_setF _ _ _ _).up rfl) (changes_cons ((changes_setF _ _ _ _).up rfl) (changes_cons ((changes_evt _ _ _).up rfl) changes_nil))))) changes_nil))))))

theorem changes_shdCtlWrite (a0 a1) : Act.Changes [.regs, .tiles, .upd, .shd] (shdCtlWrite a0 a1) := by
  unfold shdCtlWrite
  exact (changes_when (changes_cons ((changes_setF _ _ _ _).up rfl) (changes_cons (changes_ite (changes_shdEnable.up rfl) ((changes_setF _ _ _ _).up rfl)) (changes_cons (changes_when (changes_shdSecure.up rfl)) (changes_cons (changes_when ((changes_realign _).up rfl)) changes_nil)))))

theorem changes_ioWrite (a0 a1 a2 a3 a4) : Act.Changes [.free, .out, .regs, .mem, .flashLog, .log, .calendar, .chart, .tide, .tiles, .num, .sec, .tier, .coh, .hural, .upd, .cus, .bell, .link, .en, .shd, .hm, .rst, .pow] (ioWrite a0 a1 a2 a3 a4) := by
  unfold ioWrite
  exact (by
    try dsimp only
    split
    · exact ((changes_planRegWrite _ _ _).up rfl)
    · exact (changes_cons ((changes_storeFields _ _ _ _ _).up rfl) (changes_cons (changes_when (changes_amendCancel.up rfl)) (changes_cons (changes_when (changes_ask fun _ => ((changes_amendGo _).up rfl))) changes_nil)))
    · exact (changes_seq ((changes_storeFields _ _ _ _ _).up rfl) (changes_when (changes_ask fun _ => ((changes_flashGo _).up rfl))))
    · exact (changes_seq (changes_when ((changes_darkWrite _).up rfl)) (changes_when (changes_sbRequest.up rfl)))
    · exact ((changes_shdCtlWrite _ _).up rfl)
    · exact (changes_when (changes_tierInval.up rfl))
    · exact (changes_when ((changes_migTail _).up rfl))
    · exact (changes_seq ((changes_storeFields _ _ _ _ _).up rfl) ((changes_objCtl _).up rfl))
    · exact (changes_when ((changes_cohMode _).up rfl))
    · exact (changes_when ((changes_d2dRetrain _).up rfl))
    · exact ((changes_huralCfgWrite _ _ _).up rfl)
    · exact (changes_cons (changes_when ((changes_hurClose _).up rfl)) (changes_cons (changes_when ((changes_hurOpen _).up rfl)) (changes_cons (changes_when ((changes_rekeyStart _).up rfl)) changes_nil)))
    · exact (changes_seq ((changes_storeFields _ _ _ _ _).up rfl) (changes_when (changes_ask fun _ => ((changes_fwGo _).up rfl))))
    · exact ((changes_setTai _).up rfl)
    · exact ((changes_telDone _).up rfl)
    · exact (changes_seq ((changes_storeFields _ _ _ _ _).up rfl) (changes_rstCtlWrite _))
    · exact (changes_seq ((changes_storeFields _ _ _ _ _).up rfl) (changes_when (changes_hostBeat.up rfl)))
    · exact (changes_seq ((changes_storeFields _ _ _ _ _).up rfl) (changes_when (changes_secCmdGo.up rfl)))
    · exact (changes_seq ((changes_storeFields _ _ _ _ _).up rfl) (changes_when (changes_ask fun _ => ((changes_attestGo _).up rfl))))
    · exact (changes_seq ((changes_storeFields _ _ _ _ _).up rfl) (changes_when (changes_ask fun _ => ((changes_dbgOpen _).up rfl))))
    · exact (changes_when ((changes_sessionEnd _ _).up rfl))
    · exact (changes_seq ((changes_storeFields _ _ _ _ _).up rfl) (changes_ask fun _ => (changes_seq (changes_when ((changes_coreHalt _).up rfl)) (changes_when ((changes_coreResume _).up rfl)))))
    · exact (changes_ite ((changes_measStart _).up rfl) ((changes_storeFields _ _ _ _ _).up rfl))
    · exact ((changes_storeFields _ _ _ _ _).up rfl))

theorem changes_tileWrite (a0 a1 a2 a3 a4) : Act.Changes [.free, .regs, .mem, .log, .tide, .tiles, .num, .sec, .tier, .coh, .upd, .bell] (tileWrite a0 a1 a2 a3 a4) := by
  unfold tileWrite
  exact (by
    split
    · exact (changes_when ((changes_mxResume _).up rfl))
    · exact (changes_when ((changes_vxResume _).up rfl))
    · exact (changes_when ((changes_dmaResume _).up rfl))
    · exact (changes_seq (changes_when (changes_updResume.up rfl)) (changes_when (changes_updDiscard.up rfl)))
    · exact (changes_ask fun _ => ((changes_updLiveWrite _ _).up rfl))
    · exact (changes_seq ((changes_storeFields _ _ _ _ _).up rfl) (changes_when (changes_schRecalc.up rfl)))
    · exact ((changes_storeFields _ _ _ _ _).up rfl))

theorem changes_regWrite (a0 a1 a2 a3 a4) : Act.Changes [.free, .out, .regs, .mem, .flashLog, .log, .calendar, .chart, .tide, .tiles, .num, .sec, .tier, .coh, .hural, .upd, .cus, .bell, .link, .en, .shd, .hm, .rst, .pow] (regWrite a0 a1 a2 a3 a4) := by
  unfold regWrite
  exact (by
    try dsimp only
    split
    · exact ((changes_tileWrite _ _ _ _ _).up rfl)
    · exact ((changes_tileWrite _ _ _ _ _).up rfl)
    · exact ((changes_tileWrite _ _ _ _ _).up rfl)
    · exact ((changes_hostWrite _ _ _ _ _).up rfl)
    · exact ((changes_hostWrite _ _ _ _ _).up rfl)
    · exact (changes_ioWrite _ _ _ _ _))

theorem changes_regWriteBy (a0 a1 a2 a3) : Act.Changes [.free, .out, .regs, .mem, .flashLog, .log, .calendar, .chart, .tide, .tiles, .num, .sec, .tier, .coh, .hural, .upd, .cus, .bell, .link, .en, .shd, .hm, .rst, .pow] (regWriteBy a0 a1 a2 a3) := by
  unfold regWriteBy
  exact (changes_seq (by
    split
    · exact (changes_regWrite _ _ _ _ _)
    · exact changes_skip) ((changes_respond _ _ _).up rfl))

theorem changes_regAccess (a0 a1 a2) : Act.Changes [.free, .out, .regs, .mem, .flashLog, .log, .calendar, .chart, .tide, .tiles, .num, .sec, .tier, .coh, .hural, .upd, .cus, .bell, .link, .en, .shd, .hm, .rst, .pow] (regAccess a0 a1 a2) := by
  unfold regAccess
  exact (changes_ask fun _ => (changes_ite ((changes_accessFault _ _).up rfl) (by
    try dsimp only
    split
    · exact (changes_ite (changes_ite ((changes_respond _ _ _).up rfl) ((changes_regReadBy _ _ _).up rfl)) (changes_seq ((changes_respond _ _ _).up rfl) ((changes_send _).up rfl)))
    · exact (changes_ite (changes_ite ((changes_respond _ _ _).up rfl) (changes_regWriteBy _ _ _ _)) ((changes_send _).up rfl)))))

theorem changes_coreDoes (a0 a1 a2) : Act.Changes [.free, .out, .regs, .mem, .flashLog, .log, .calendar, .chart, .tide, .tiles, .num, .sec, .tier, .coh, .hural, .upd, .cus, .bell, .link, .en, .shd, .hm, .rst, .pow] (coreDoes a0 a1 a2) := by
  unfold coreDoes
  exact (changes_given (changes_ite (changes_regAccess _ _ _) ((changes_coreAccess _ _ _ _).up rfl)))

theorem changes_agentLoad (a0 a1) : Act.Changes [.free, .out, .regs, .mem, .flashLog, .log, .calendar, .chart, .tide, .tiles, .num, .sec, .tier, .coh, .hural, .upd, .cus, .bell, .link, .en, .shd, .hm, .rst, .pow] (agentLoad a0 a1) := by
  unfold agentLoad
  exact (changes_coreDoes _ _ _)

theorem changes_agentStore (a0 a1 a2) : Act.Changes [.free, .out, .regs, .mem, .flashLog, .log, .calendar, .chart, .tide, .tiles, .num, .sec, .tier, .coh, .hural, .upd, .cus, .bell, .link, .en, .shd, .hm, .rst, .pow] (agentStore a0 a1 a2) := by
  unfold agentStore
  exact (changes_coreDoes _ _ _)

theorem changes_eccOf (a0 a1 a2 a3) : Act.Changes [.free, .regs, .mem, .log, .tier, .coh] (eccOf a0 a1 a2 a3) := by
  unfold eccOf
  exact (changes_ask fun _ => (by
    split
    · exact (by
        split
        · exact (changes_when (changes_eccCheck _ _ _))
        · exact changes_skip)
    · exact changes_skip))

theorem changes_innerAccess (a0 a1 a2 a3) : Act.Changes [.free, .out, .regs, .mem, .flashLog, .log, .calendar, .chart, .tide, .tiles, .num, .sec, .tier, .coh, .hural, .upd, .cus, .bell, .link, .en, .shd, .hm, .rst, .pow] (innerAccess a0 a1 a2 a3) := by
  unfold innerAccess
  exact (changes_ask fun _ => (changes_ite (changes_regAccess _ _ _) (changes_ite ((changes_accessFault _ _).up rfl) (changes_seq ((changes_eccOf _ _ _ _).up rfl) ((changes_memAccess _ _ _ _).up rfl)))))

theorem changes_physAccess (a0 a1 a2 a3) : Act.Changes [.free, .out, .regs, .mem, .flashLog, .log, .calendar, .chart, .tide, .tiles, .num, .sec, .tier, .coh, .hural, .upd, .cus, .bell, .link, .en, .shd, .hm, .rst, .pow] (physAccess a0 a1 a2 a3) := by
  unfold physAccess
  exact (by
    split
    · exact ((changes_deviceRead _ _ _).up rfl)
    · exact ((changes_deviceWrite _ _ _).up rfl)
    · exact ((changes_accessFault _ _).up rfl)
    · exact (changes_innerAccess _ _ _ _)
    · exact (changes_given (changes_innerAccess _ _ _ _))
    · exact (changes_innerAccess _ _ _ _)
    · exact (changes_innerAccess _ _ _ _)
    · exact (changes_innerAccess _ _ _ _)
    · exact (changes_innerAccess _ _ _ _))

theorem changes_registerWrite (a0 a1 a2 a3) : Act.Changes [.free, .out, .regs, .mem, .flashLog, .log, .calendar, .chart, .tide, .tiles, .num, .sec, .tier, .coh, .hural, .upd, .cus, .bell, .link, .en, .shd, .hm, .rst, .pow] (registerWrite a0 a1 a2 a3) := by
  unfold registerWrite
  exact (changes_given (changes_regAccess _ _ _))

theorem changes_tapAccess (a0 a1) : Act.Changes [.free, .out, .regs, .mem, .flashLog, .log, .calendar, .chart, .tide, .tiles, .num, .sec, .tier, .coh, .hural, .upd, .cus, .bell, .link, .en, .shd, .hm, .rst, .pow] (tapAccess a0 a1) := by
  unfold tapAccess
  exact (by
    split
    · exact (changes_physAccess _ _ _ _)
    · exact (changes_physAccess _ _ _ _))

theorem changes_causeTick (a0) : Act.Changes [.regs, .mem, .tier, .coh] (causeTick a0) := by
  unfold causeTick
  exact (changes_ask fun _ => (by
    split
    · exact (changes_when (changes_unitStall _ _))
    · exact changes_skip))

theorem changes_lateTick : Act.Changes [.regs, .mem, .tier, .coh] lateTick := by
  unfold lateTick
  exact (changes_ask fun _ => (changes_cons (changes_each fun _ => (changes_when ((changes_unitGoes _).up rfl))) (changes_cons (changes_each fun _ => (changes_given (changes_unitStall _ _))) changes_nil)))

theorem changes_stallTick (a0) : Act.Changes [.regs] (stallTick a0) := by
  unfold stallTick
  exact (changes_ask fun _ => (changes_when (changes_incF _ _ _ _)))

theorem changes_starveTick (a0) : Act.Changes [.regs] (starveTick a0) := by
  unfold starveTick
  exact (changes_ask fun _ => (changes_when (changes_incF _ _ _ _)))

theorem changes_tileTick (a0) : Act.Changes [.regs] (tileTick a0) := by
  unfold tileTick
  exact (changes_ask fun _ => (changes_ite changes_skip (changes_cons (changes_when (changes_incF _ _ _ _)) (changes_cons (changes_when (changes_incF _ _ _ _)) (changes_cons (changes_when (changes_incF _ _ _ _)) (changes_cons (changes_when (changes_incF _ _ _ _)) (changes_cons (changes_when (changes_incF _ _ _ _)) (changes_cons (changes_when (changes_incF _ _ _ _)) changes_nil))))))))

theorem changes_updTick : Act.Changes [.regs] updTick := by
  unfold updTick
  exact (changes_ask fun _ => (changes_when (changes_cons (changes_when (changes_incF _ _ _ _)) (changes_cons (changes_when (changes_incF _ _ _ _)) changes_nil))))

theorem changes_tick : Act.Changes [.clock, .free, .out, .regs, .mem, .log, .tide, .tiles, .sec, .tier, .coh, .hural, .upd, .bell, .shd] tick := by
  unfold tick
  exact (changes_ask fun _ => (changes_cons (changes_retryStalled.up rfl) (changes_cons (changes_resendHeld.up rfl) (changes_cons (changes_lateTick.up rfl) (changes_cons (changes_ask fun _ => (changes_each fun _ => ((changes_causeTick _).up rfl))) (changes_cons (changes_each fun _ => ((changes_tileTick _).up rfl)) (changes_cons (changes_updTick.up rfl) (changes_cons (changes_ask fun _ => (changes_each fun _ => ((changes_stallTick _).up rfl))) (changes_cons (changes_when (changes_each fun _ => ((changes_starveTick _).up rfl))) (changes_cons (changes_prim rfl) changes_nil))))))))))

end Sys2Proof.Machine
end

