-- ==== Sys2Proof/Laws/Invariant.lean ====
section
/-! SUPPORT. Each primitive update keeps memory and registers in canonical form and reserved bits at 0; no program touches the queue. -/

namespace Sys2Proof.Machine

/-! Memory. -/

theorem Prim.memoryWf (p : Prim) (s : State) (h : Safety.memoryWf s) : Safety.memoryWf (p.apply s) := by
  cases p <;> first
    | exact h
    | exact Cells.wf_put _ _ h
    | exact Cells.wf_filter _ h

/-- Every program keeps memory in canonical form. -/
theorem run_memoryWf (a : Act) (s : State) (h : Safety.memoryWf s) : Safety.memoryWf (run a s) := run_keeps Prim.memoryWf a s h

theorem reset_memoryWf : Safety.memoryWf State.reset := by decide

/-! Registers. -/

/-- A write of a register keeps the order of the keys. -/
theorem regPut_sorted {m : FMap W64} (r : RegName) (i j : Nat) (v : W64) (h : Cells.sorted m = true) : Cells.sorted (regPut m r i j v) = true := by
  unfold regPut
  split
  · rw [Cells.del_eq_filter]; exact Cells.sorted_filter _ h
  · exact Cells.sorted_ins h

/-- An entry that a filter leaves is one that was there. -/
theorem Cells.look_filter {V : Type} {m : FMap V} (p : Nat × V → Bool) {k : Nat} {v : V} (hs : Cells.sorted m = true)
    (h : Cells.look (m.filter p) k = some v) : Cells.look m k = some v := by
  induction m with
  | nil => simp [Cells.look] at h
  | cons e m ih =>
    obtain ⟨a, w⟩ := e
    have ht := Cells.sorted_tail hs
    simp only [List.filter_cons] at h
    split at h
    · simp only [Cells.look] at h ⊢
      split at h
      · simp_all
      · simp_all
    · have h1 := ih ht h
      simp only [Cells.look]
      by_cases hk : k = a
      · subst hk
        simp only [Cells.sorted] at hs
        rw [Cells.look_of_above hs (Nat.le_refl _)] at h1
        cases h1
      · rw [if_neg hk]; exact h1

theorem Prim.regsWf (p : Prim) (s : State) (h : Safety.regsWf s) : Safety.regsWf (p.apply s) := by
  cases p <;> (try exact h)
  case reg r i j v =>
    refine ⟨regPut_sorted r i j _ h.1, fun q m n => ?_⟩
    simp only [Prim.reg_regs, regPut]
    by_cases hk : regKey q m n = regKey r i j
    · obtain ⟨rfl, -⟩ := (regKey_eq_iff ..).mp hk
      split
      · rw [Cells.look_del, if_pos hk]; simp
      · rename_i hv
        rw [Cells.look_ins, if_pos hk, regReset_of_key hk]
        intro hc
        exact hv (.inr (Option.some.inj hc))
    · split
      · rw [Cells.look_del, if_neg hk]; exact h.2 q m n
      · rw [Cells.look_ins, if_neg hk]; exact h.2 q m n
  case regsReset c =>
    refine ⟨Cells.sorted_filter _ h.1, fun q m n hc => ?_⟩
    exact h.2 q m n (Cells.look_filter _ h.1 hc)

/-- A register's reset value has no reserved bit. -/
theorem regReset_masked (r : RegName) (i j : Nat) : regReset r i j &&& ~~~regMask r i j = 0 := by
  have key : ∀ r, r ≠ .EN_SHARE → r ≠ .HURAL_ALIAS → r ≠ .TIDE_SUSPECT → r ≠ .RST_TRIP → r ≠ .COH_MEMBH →
      regReset r i j &&& ~~~regMask r i j = BitVec.ofNat 64 (r.fields.foldl (fun a f => a ||| f.reset * 2 ^ f.lo) 0) &&&
        ~~~BitVec.ofNat 64 (r.fields.foldl (fun a f => a ||| f.mask) 0) := by
    intro r h1 h2 h3 h4 h5
    simp only [regReset, regMask]
    split <;> first | contradiction | rfl
  have hall : ∀ r : RegName, BitVec.ofNat 64 (r.fields.foldl (fun a f => a ||| f.reset * 2 ^ f.lo) 0) &&&
        ~~~BitVec.ofNat 64 (r.fields.foldl (fun a f => a ||| f.mask) 0) = 0 := by
    intro r; cases r <;> decide
  by_cases h1 : r = .EN_SHARE
  · subst h1
    have : regMask .EN_SHARE i j = BitVec.ofNat 64 (RegName.EN_SHARE.fields.foldl (fun a f => a ||| f.mask) 0) := rfl
    rw [this]; simp only [regReset]
    split
    · decide
    · split <;> decide
  by_cases h2 : r = .HURAL_ALIAS
  · subst h2
    have hm : regMask .HURAL_ALIAS i j = 255#64 := rfl
    rw [hm]; simp only [regReset]
    refine BitVec.eq_of_getLsbD_eq fun k hk => ?_
    by_cases h8 : k < 8
    · have hb : (255#64).getLsbD k = true := by interval_cases k <;> decide
      rw [BitVec.getLsbD_and, BitVec.getLsbD_not, hb]; simp
    · have hlt : j % 65536 % 256 < 2 ^ k := Nat.lt_of_lt_of_le (Nat.mod_lt _ (by decide)) (Nat.pow_le_pow_right (n := 2) (i := 8) (by decide) (by omega))
      rw [BitVec.getLsbD_and, BitVec.getLsbD_ofNat, Nat.testBit_lt_two_pow hlt]; simp
  by_cases h3 : r = .TIDE_SUSPECT
  · subst h3; show (0 : W64) &&& _ = 0; simp
  by_cases h4 : r = .RST_TRIP
  · subst h4; show (0 : W64) &&& _ = 0; simp
  by_cases h5 : r = .COH_MEMBH
  · subst h5; show (0 : W64) &&& _ = 0; simp
  rw [key r h1 h2 h3 h4 h5, hall]

theorem Prim.reservedZero (p : Prim) (s : State) (h : Safety.reservedZero s) : Safety.reservedZero (p.apply s) := by
  cases p <;> (try exact h)
  case reg r i j v =>
    intro q m n
    rw [getReg_apply_reg]
    split
    · rename_i hk
      obtain ⟨rfl, -⟩ := (regKey_eq_iff ..).mp hk
      rw [← regMask_of_key hk]
      split
      · exact regReset_masked _ _ _
      · rw [BitVec.and_assoc, BitVec.and_not_self]; simp
    · exact h q m n
  case regsReset c =>
    intro q m n
    rw [getReg_apply_regsReset]
    split
    · exact regReset_masked _ _ _
    · exact h q m n

theorem Prim.idrevWired (p : Prim) (s : State) (h : Safety.idrevWired s) : Safety.idrevWired (p.apply s) := by
  cases p <;> (try exact h)
  case reg r i j v =>
    intro m n
    rw [getReg_apply_reg]
    split
    · rename_i hk
      obtain ⟨rfl, -⟩ := (regKey_eq_iff ..).mp hk
      rfl
    · exact h m n
  case regsReset c =>
    intro m n
    rw [getReg_apply_regsReset]
    split
    · rfl
    · exact h m n

/-! The queue. -/

theorem Prim.pending_eq (p : Prim) (s : State) : (p.apply s).pending = s.pending := by cases p <;> rfl

/-- No program touches the queue. -/
@[simp] theorem run_pending (a : Act) (s : State) : (run a s).pending = s.pending :=
  run_keeps (I := fun t => t.pending = s.pending) (fun p t h => (Prim.pending_eq p t).trans h) a s rfl

end Sys2Proof.Machine
end

