-- ==== Sys2Proof/Laws/Memory.lean ====
section
/-! SUPPORT. Memory read back after it was written (R3, R16): a written byte holds its value, every other byte keeps its own. -/

namespace Sys2Proof.Machine

/-- What a home answers from does not depend on memory. -/
theorem mem_cohData (a : Nat) (b : Byte) (l : Nat) (s : State) : cohData (Prim.apply (.mem a b) s) l = cohData s l := (rfl)

theorem writeMem_cohData (a : Nat) (bs : List Byte) (l : Nat) (s : State) : cohData (run (writeMem a bs) s) l = cohData s l := by
  induction bs generalizing a s with
  | nil => rfl
  | cons b bs ih => simp only [writeMem, run_seq, run_prim, ih, mem_cohData]

/-- The bytes of memory after a write. -/
theorem writeMem_get (a : Nat) (bs : List Byte) (s : State) (k : Nat) :
    Cells.get 0 (run (writeMem a bs) s).mem k = if a ≤ k ∧ k < a + bs.length then bs.getD (k - a) 0 else Cells.get 0 s.mem k := by
  induction bs generalizing a s with
  | nil => rw [if_neg (by simp only [List.length_nil]; omega)]; rfl
  | cons b bs ih =>
    have hm : (Prim.apply (.mem a b) s).mem = Cells.put 0 s.mem a b := rfl
    simp only [writeMem, run_seq, run_prim, ih, hm, Cells.get_put, List.length_cons]
    by_cases h : k = a
    · subst h; rw [if_neg (by omega), if_pos rfl, if_pos (by omega)]; simp
    · by_cases h2 : a + 1 ≤ k ∧ k < a + 1 + bs.length
      · have e : k - a = (k - (a + 1)) + 1 := by omega
        rw [if_pos h2, if_pos (by omega), e]; simp
      · rw [if_neg h2, if_neg h, if_neg (by omega)]

/-- A byte outside the bytes written reads as before. -/
theorem writeMem_readByte_other (a : Nat) (bs : List Byte) (s : State) (k : Nat) (h : k < a ∨ a + bs.length ≤ k) :
    readByte (run (writeMem a bs) s) k = readByte s k := by
  simp only [readByte, writeMem_cohData, writeMem_get]
  rw [if_neg (by omega)]

/-- A byte that no cache owns reads as it was written. -/
theorem writeMem_readByte (a : Nat) (bs : List Byte) (s : State) (k : Nat) (hk : k < bs.length) (hc : cohData s ((a + k) / 64) = none) :
    readByte (run (writeMem a bs) s) (a + k) = bs.getD k 0 := by
  simp only [readByte, writeMem_cohData, hc, writeMem_get]
  rw [if_pos (by omega)]; congr 1; omega

/-- Bytes that no cache owns read as they were written. -/
theorem writeMem_readMem (a : Nat) (bs : List Byte) (s : State) (hc : ∀ k, k < bs.length → cohData s ((a + k) / 64) = none) :
    readMem (run (writeMem a bs) s) a bs.length = bs := by
  apply List.ext_getElem
  · simp [readMem]
  · intro i h1 h2
    simp only [readMem, List.getElem_map, List.getElem_range]
    rw [writeMem_readByte a bs s i h2 (hc i h2)]
    simp [List.getD_eq_getElem?_getD, h2]

end Sys2Proof.Machine
end

