-- ==== Sys2Proof/Laws/Tiles.lean ====
section
/-! SUPPORT. Tiles and their engines: read after write, and what the operations on them leave alone. -/

namespace Sys2Proof.Machine

theorem getTile_updTile (u v : Nat) (f : Tile → Tile) (s : State) :
    getTile (run (updTile u f) s) v = if v = u then f (getTile s u) else getTile s v := Cells.get_put ..
@[simp] theorem getTile_updTile_same (u : Nat) (f : Tile → Tile) (s : State) : getTile (run (updTile u f) s) u = f (getTile s u) := by
  rw [getTile_updTile, if_pos rfl]

@[simp] theorem Tile.eng_withEng (t : Tile) (k : Eng) (e : Engine) : (t.withEng k e).eng k = e := by cases k <;> rfl
@[simp] theorem Tile.mx_withEng (t : Tile) (k : Eng) (e : Engine) : (t.withEng k e).mx = if k = .mx then e else t.mx := by cases k <;> rfl
@[simp] theorem Tile.vx_withEng (t : Tile) (k : Eng) (e : Engine) : (t.withEng k e).vx = if k = .vx then e else t.vx := by cases k <;> rfl
@[simp] theorem Tile.dma_withEng (t : Tile) (k : Eng) (e : Engine) : (t.withEng k e).dma = if k = .dma then e else t.dma := by cases k <;> rfl
@[simp] theorem Tile.bank_withEng (t : Tile) (k : Eng) (e : Engine) (b : Nat) : (t.withEng k e).bank b = t.bank b := by cases k <;> rfl
@[simp] theorem Tile.bank_withBank (t : Tile) (b : Nat) (k : Bank) : (t.withBank b k).bank b = k := by
  unfold Tile.withBank Tile.bank; split <;> rfl
@[simp] theorem Tile.mx_withBank (t : Tile) (b : Nat) (k : Bank) : (t.withBank b k).mx = t.mx := by unfold Tile.withBank; split <;> rfl
@[simp] theorem Tile.vx_withBank (t : Tile) (b : Nat) (k : Bank) : (t.withBank b k).vx = t.vx := by unfold Tile.withBank; split <;> rfl
@[simp] theorem Tile.dma_withBank (t : Tile) (b : Nat) (k : Bank) : (t.withBank b k).dma = t.dma := by unfold Tile.withBank; split <;> rfl
@[simp] theorem Tile.bufs_withEng (t : Tile) (k : Eng) (e : Engine) : (t.withEng k e).bufs = t.bufs := by cases k <;> rfl
@[simp] theorem Tile.bufs_withBank (t : Tile) (b : Nat) (k : Bank) : (t.withBank b k).bufs = t.bufs := by unfold Tile.withBank; split <;> rfl
@[simp] theorem Tile.op_withEng (t : Tile) (k : Eng) (e : Engine) : (t.withEng k e).op = t.op := by cases k <;> rfl
@[simp] theorem Tile.op_withBank (t : Tile) (b : Nat) (k : Bank) : (t.withBank b k).op = t.op := by unfold Tile.withBank; split <;> rfl
@[simp] theorem Tile.streams_withEng (t : Tile) (k : Eng) (e : Engine) : (t.withEng k e).streams = t.streams := by cases k <;> rfl
@[simp] theorem Tile.streams_withBank (t : Tile) (b : Nat) (k : Bank) : (t.withBank b k).streams = t.streams := by unfold Tile.withBank; split <;> rfl
@[simp] theorem Tile.released_withEng (t : Tile) (k : Eng) (e : Engine) : (t.withEng k e).released = t.released := by cases k <;> rfl
@[simp] theorem Tile.released_withBank (t : Tile) (b : Nat) (k : Bank) : (t.withBank b k).released = t.released := by unfold Tile.withBank; split <;> rfl
@[simp] theorem Tile.samples_withEng (t : Tile) (k : Eng) (e : Engine) : (t.withEng k e).samples = t.samples := by cases k <;> rfl
@[simp] theorem Tile.samples_withBank (t : Tile) (b : Nat) (k : Bank) : (t.withBank b k).samples = t.samples := by unfold Tile.withBank; split <;> rfl
@[simp] theorem Tile.heldBins_withEng (t : Tile) (k : Eng) (e : Engine) : (t.withEng k e).heldBins = t.heldBins := by cases k <;> rfl
@[simp] theorem Tile.heldBins_withBank (t : Tile) (b : Nat) (k : Bank) : (t.withBank b k).heldBins = t.heldBins := by unfold Tile.withBank; split <;> rfl
@[simp] theorem Tile.verdicts_withEng (t : Tile) (k : Eng) (e : Engine) : (t.withEng k e).verdicts = t.verdicts := by cases k <;> rfl
@[simp] theorem Tile.verdicts_withBank (t : Tile) (b : Nat) (k : Bank) : (t.withBank b k).verdicts = t.verdicts := by unfold Tile.withBank; split <;> rfl
@[simp] theorem Tile.defer_withEng (t : Tile) (k : Eng) (e : Engine) : (t.withEng k e).defer = t.defer := by cases k <;> rfl
@[simp] theorem Tile.defer_withBank (t : Tile) (b : Nat) (k : Bank) : (t.withBank b k).defer = t.defer := by unfold Tile.withBank; split <;> rfl
@[simp] theorem Tile.eng_mx (t : Tile) : t.eng .mx = t.mx := rfl
@[simp] theorem Tile.eng_vx (t : Tile) : t.eng .vx = t.vx := rfl
@[simp] theorem Tile.eng_dma (t : Tile) : t.eng .dma = t.dma := rfl

theorem getTile_of_tiles {s t : State} (h : t.tiles = s.tiles) (u : Nat) : getTile t u = getTile s u := by simp only [getTile, h]

@[simp] theorem Prim.reg_getTile (r : RegName) (i j : Nat) (w : W64) (v : Nat) (s : State) : getTile (Prim.apply (.reg r i j w) s) v = getTile s v := (rfl)
@[simp] theorem Prim.regsReset_getTile (c : RegName → Bool) (v : Nat) (s : State) : getTile (Prim.apply (.regsReset c) s) v = getTile s v := (rfl)
@[simp] theorem Prim.mem_getTile (a : Nat) (b : Byte) (v : Nat) (s : State) : getTile (Prim.apply (.mem a b) s) v = getTile s v := (rfl)
@[simp] theorem Prim.clear_getTile (a n : Nat) (v : Nat) (s : State) : getTile (Prim.apply (.clear a n) s) v = getTile s v := (rfl)
@[simp] theorem Prim.floor_getTile (w : W64) (v : Nat) (s : State) : getTile (Prim.apply (.floor w) s) v = getTile s v := (rfl)
@[simp] theorem Prim.life_getTile (l : Life) (v : Nat) (s : State) : getTile (Prim.apply (.life l) s) v = getTile s v := (rfl)
@[simp] theorem Prim.flashLog_getTile (l : List LogRec) (v : Nat) (s : State) : getTile (Prim.apply (.flashLog l) s) v = getTile s v := (rfl)
@[simp] theorem Prim.send_getTile (o : Out) (v : Nat) (s : State) : getTile (Prim.apply (.send o) s) v = getTile s v := (rfl)
@[simp] theorem Prim.fresh_getTile (v : Nat) (s : State) : getTile (Prim.apply (.fresh) s) v = getTile s v := (rfl)
@[simp] theorem Prim.time_getTile (n : Nat) (v : Nat) (s : State) : getTile (Prim.apply (.time n) s) v = getTile s v := (rfl)
@[simp] theorem Prim.log_getTile (f : LogSt → LogSt) (v : Nat) (s : State) : getTile (Prim.apply (.log f) s) v = getTile s v := (rfl)
@[simp] theorem Prim.calendar_getTile (f : TimeSt → TimeSt) (v : Nat) (s : State) : getTile (Prim.apply (.calendar f) s) v = getTile s v := (rfl)
@[simp] theorem Prim.chart_getTile (f : ChartSt → ChartSt) (v : Nat) (s : State) : getTile (Prim.apply (.chart f) s) v = getTile s v := (rfl)
@[simp] theorem Prim.tide_getTile (f : TideSt → TideSt) (v : Nat) (s : State) : getTile (Prim.apply (.tide f) s) v = getTile s v := (rfl)
@[simp] theorem Prim.num_getTile (f : NumSt → NumSt) (v : Nat) (s : State) : getTile (Prim.apply (.num f) s) v = getTile s v := (rfl)
@[simp] theorem Prim.sec_getTile (f : SecSt → SecSt) (v : Nat) (s : State) : getTile (Prim.apply (.sec f) s) v = getTile s v := (rfl)
@[simp] theorem Prim.tier_getTile (f : TierSt → TierSt) (v : Nat) (s : State) : getTile (Prim.apply (.tier f) s) v = getTile s v := (rfl)
@[simp] theorem Prim.coh_getTile (f : CohSt → CohSt) (v : Nat) (s : State) : getTile (Prim.apply (.coh f) s) v = getTile s v := (rfl)
@[simp] theorem Prim.hural_getTile (f : HuralSt → HuralSt) (v : Nat) (s : State) : getTile (Prim.apply (.hural f) s) v = getTile s v := (rfl)
@[simp] theorem Prim.upd_getTile (f : UpdSt → UpdSt) (v : Nat) (s : State) : getTile (Prim.apply (.upd f) s) v = getTile s v := (rfl)
@[simp] theorem Prim.cus_getTile (f : CusSt → CusSt) (v : Nat) (s : State) : getTile (Prim.apply (.cus f) s) v = getTile s v := (rfl)
@[simp] theorem Prim.bell_getTile (f : FMap BellQ → FMap BellQ) (v : Nat) (s : State) : getTile (Prim.apply (.bell f) s) v = getTile s v := (rfl)
@[simp] theorem Prim.link_getTile (f : LinkSt → LinkSt) (v : Nat) (s : State) : getTile (Prim.apply (.link f) s) v = getTile s v := (rfl)
@[simp] theorem Prim.en_getTile (f : EnSt → EnSt) (v : Nat) (s : State) : getTile (Prim.apply (.en f) s) v = getTile s v := (rfl)
@[simp] theorem Prim.shd_getTile (f : ShdSt → ShdSt) (v : Nat) (s : State) : getTile (Prim.apply (.shd f) s) v = getTile s v := (rfl)
@[simp] theorem Prim.hm_getTile (f : HmSt → HmSt) (v : Nat) (s : State) : getTile (Prim.apply (.hm f) s) v = getTile s v := (rfl)
@[simp] theorem Prim.rst_getTile (f : RstSt → RstSt) (v : Nat) (s : State) : getTile (Prim.apply (.rst f) s) v = getTile s v := (rfl)
@[simp] theorem Prim.pow_getTile (f : PowSt → PowSt) (v : Nat) (s : State) : getTile (Prim.apply (.pow f) s) v = getTile s v := (rfl)
@[simp] theorem updTile_pending (u : Nat) (f : Tile → Tile) (s : State) : (run (updTile u f) s).pending = s.pending := (rfl)
@[simp] theorem updTile_now (u : Nat) (f : Tile → Tile) (s : State) : (run (updTile u f) s).now = s.now := (rfl)
@[simp] theorem updTile_free (u : Nat) (f : Tile → Tile) (s : State) : (run (updTile u f) s).free = s.free := (rfl)
@[simp] theorem updTile_out (u : Nat) (f : Tile → Tile) (s : State) : (run (updTile u f) s).out = s.out := (rfl)
@[simp] theorem updTile_regs (u : Nat) (f : Tile → Tile) (s : State) : (run (updTile u f) s).regs = s.regs := (rfl)
@[simp] theorem updTile_mem (u : Nat) (f : Tile → Tile) (s : State) : (run (updTile u f) s).mem = s.mem := (rfl)
@[simp] theorem updTile_floor (u : Nat) (f : Tile → Tile) (s : State) : (run (updTile u f) s).floor = s.floor := (rfl)
@[simp] theorem updTile_life (u : Nat) (f : Tile → Tile) (s : State) : (run (updTile u f) s).life = s.life := (rfl)
@[simp] theorem updTile_flashLog (u : Nat) (f : Tile → Tile) (s : State) : (run (updTile u f) s).flashLog = s.flashLog := (rfl)
@[simp] theorem updTile_log (u : Nat) (f : Tile → Tile) (s : State) : (run (updTile u f) s).log = s.log := (rfl)
@[simp] theorem updTile_time (u : Nat) (f : Tile → Tile) (s : State) : (run (updTile u f) s).time = s.time := (rfl)
@[simp] theorem updTile_chart (u : Nat) (f : Tile → Tile) (s : State) : (run (updTile u f) s).chart = s.chart := (rfl)
@[simp] theorem updTile_tide (u : Nat) (f : Tile → Tile) (s : State) : (run (updTile u f) s).tide = s.tide := (rfl)
@[simp] theorem updTile_num (u : Nat) (f : Tile → Tile) (s : State) : (run (updTile u f) s).num = s.num := (rfl)
@[simp] theorem updTile_sec (u : Nat) (f : Tile → Tile) (s : State) : (run (updTile u f) s).sec = s.sec := (rfl)
@[simp] theorem updTile_tier (u : Nat) (f : Tile → Tile) (s : State) : (run (updTile u f) s).tier = s.tier := (rfl)
@[simp] theorem updTile_coh (u : Nat) (f : Tile → Tile) (s : State) : (run (updTile u f) s).coh = s.coh := (rfl)
@[simp] theorem updTile_hural (u : Nat) (f : Tile → Tile) (s : State) : (run (updTile u f) s).hural = s.hural := (rfl)
@[simp] theorem updTile_upd (u : Nat) (f : Tile → Tile) (s : State) : (run (updTile u f) s).upd = s.upd := (rfl)
@[simp] theorem updTile_cus (u : Nat) (f : Tile → Tile) (s : State) : (run (updTile u f) s).cus = s.cus := (rfl)
@[simp] theorem updTile_bell (u : Nat) (f : Tile → Tile) (s : State) : (run (updTile u f) s).bell = s.bell := (rfl)
@[simp] theorem updTile_link (u : Nat) (f : Tile → Tile) (s : State) : (run (updTile u f) s).link = s.link := (rfl)
@[simp] theorem updTile_en (u : Nat) (f : Tile → Tile) (s : State) : (run (updTile u f) s).en = s.en := (rfl)
@[simp] theorem updTile_shd (u : Nat) (f : Tile → Tile) (s : State) : (run (updTile u f) s).shd = s.shd := (rfl)
@[simp] theorem updTile_hm (u : Nat) (f : Tile → Tile) (s : State) : (run (updTile u f) s).hm = s.hm := (rfl)
@[simp] theorem updTile_rst (u : Nat) (f : Tile → Tile) (s : State) : (run (updTile u f) s).rst = s.rst := (rfl)
@[simp] theorem updTile_pow (u : Nat) (f : Tile → Tile) (s : State) : (run (updTile u f) s).pow = s.pow := (rfl)
@[simp] theorem updTile_getReg (u : Nat) (f : Tile → Tile) (q : RegName) (m n : Nat) (s : State) : getReg (run (updTile u f) s) q m n = getReg s q m n := (rfl)
@[simp] theorem updTile_getF (u : Nat) (f : Tile → Tile) (x : Fld) (m n : Nat) (s : State) : getF (run (updTile u f) s) x m n = getF s x m n := (rfl)
@[simp] theorem updTile_getB (u : Nat) (f : Tile → Tile) (x : Fld) (m n : Nat) (s : State) : getB (run (updTile u f) s) x m n = getB s x m n := (rfl)
@[simp] theorem updTile_tally (u : Nat) (f : Tile → Tile) (lk : LogKind) (s : State) : Safety.tally (run (updTile u f) s) lk = Safety.tally s lk := by simp only [Safety.tally, updTile_log]
@[simp] theorem updTile_theChart (u : Nat) (f : Tile → Tile) (s : State) : theChart (run (updTile u f) s) = theChart s := by simp only [theChart, updTile_chart]

@[simp] theorem updEng_pending (u : Nat) (k : Eng) (f : Engine → Engine) (s : State) : (run (updEng u k f) s).pending = s.pending := (rfl)
@[simp] theorem updEng_now (u : Nat) (k : Eng) (f : Engine → Engine) (s : State) : (run (updEng u k f) s).now = s.now := (rfl)
@[simp] theorem updEng_free (u : Nat) (k : Eng) (f : Engine → Engine) (s : State) : (run (updEng u k f) s).free = s.free := (rfl)
@[simp] theorem updEng_out (u : Nat) (k : Eng) (f : Engine → Engine) (s : State) : (run (updEng u k f) s).out = s.out := (rfl)
@[simp] theorem updEng_regs (u : Nat) (k : Eng) (f : Engine → Engine) (s : State) : (run (updEng u k f) s).regs = s.regs := (rfl)
@[simp] theorem updEng_mem (u : Nat) (k : Eng) (f : Engine → Engine) (s : State) : (run (updEng u k f) s).mem = s.mem := (rfl)
@[simp] theorem updEng_floor (u : Nat) (k : Eng) (f : Engine → Engine) (s : State) : (run (updEng u k f) s).floor = s.floor := (rfl)
@[simp] theorem updEng_life (u : Nat) (k : Eng) (f : Engine → Engine) (s : State) : (run (updEng u k f) s).life = s.life := (rfl)
@[simp] theorem updEng_flashLog (u : Nat) (k : Eng) (f : Engine → Engine) (s : State) : (run (updEng u k f) s).flashLog = s.flashLog := (rfl)
@[simp] theorem updEng_log (u : Nat) (k : Eng) (f : Engine → Engine) (s : State) : (run (updEng u k f) s).log = s.log := (rfl)
@[simp] theorem updEng_time (u : Nat) (k : Eng) (f : Engine → Engine) (s : State) : (run (updEng u k f) s).time = s.time := (rfl)
@[simp] theorem updEng_chart (u : Nat) (k : Eng) (f : Engine → Engine) (s : State) : (run (updEng u k f) s).chart = s.chart := (rfl)
@[simp] theorem updEng_tide (u : Nat) (k : Eng) (f : Engine → Engine) (s : State) : (run (updEng u k f) s).tide = s.tide := (rfl)
@[simp] theorem updEng_num (u : Nat) (k : Eng) (f : Engine → Engine) (s : State) : (run (updEng u k f) s).num = s.num := (rfl)
@[simp] theorem updEng_sec (u : Nat) (k : Eng) (f : Engine → Engine) (s : State) : (run (updEng u k f) s).sec = s.sec := (rfl)
@[simp] theorem updEng_tier (u : Nat) (k : Eng) (f : Engine → Engine) (s : State) : (run (updEng u k f) s).tier = s.tier := (rfl)
@[simp] theorem updEng_coh (u : Nat) (k : Eng) (f : Engine → Engine) (s : State) : (run (updEng u k f) s).coh = s.coh := (rfl)
@[simp] theorem updEng_hural (u : Nat) (k : Eng) (f : Engine → Engine) (s : State) : (run (updEng u k f) s).hural = s.hural := (rfl)
@[simp] theorem updEng_upd (u : Nat) (k : Eng) (f : Engine → Engine) (s : State) : (run (updEng u k f) s).upd = s.upd := (rfl)
@[simp] theorem updEng_cus (u : Nat) (k : Eng) (f : Engine → Engine) (s : State) : (run (updEng u k f) s).cus = s.cus := (rfl)
@[simp] theorem updEng_bell (u : Nat) (k : Eng) (f : Engine → Engine) (s : State) : (run (updEng u k f) s).bell = s.bell := (rfl)
@[simp] theorem updEng_link (u : Nat) (k : Eng) (f : Engine → Engine) (s : State) : (run (updEng u k f) s).link = s.link := (rfl)
@[simp] theorem updEng_en (u : Nat) (k : Eng) (f : Engine → Engine) (s : State) : (run (updEng u k f) s).en = s.en := (rfl)
@[simp] theorem updEng_shd (u : Nat) (k : Eng) (f : Engine → Engine) (s : State) : (run (updEng u k f) s).shd = s.shd := (rfl)
@[simp] theorem updEng_hm (u : Nat) (k : Eng) (f : Engine → Engine) (s : State) : (run (updEng u k f) s).hm = s.hm := (rfl)
@[simp] theorem updEng_rst (u : Nat) (k : Eng) (f : Engine → Engine) (s : State) : (run (updEng u k f) s).rst = s.rst := (rfl)
@[simp] theorem updEng_pow (u : Nat) (k : Eng) (f : Engine → Engine) (s : State) : (run (updEng u k f) s).pow = s.pow := (rfl)
@[simp] theorem updEng_getReg (u : Nat) (k : Eng) (f : Engine → Engine) (q : RegName) (m n : Nat) (s : State) : getReg (run (updEng u k f) s) q m n = getReg s q m n := (rfl)
@[simp] theorem updEng_getF (u : Nat) (k : Eng) (f : Engine → Engine) (x : Fld) (m n : Nat) (s : State) : getF (run (updEng u k f) s) x m n = getF s x m n := (rfl)
@[simp] theorem updEng_getB (u : Nat) (k : Eng) (f : Engine → Engine) (x : Fld) (m n : Nat) (s : State) : getB (run (updEng u k f) s) x m n = getB s x m n := (rfl)
@[simp] theorem updEng_tally (u : Nat) (k : Eng) (f : Engine → Engine) (lk : LogKind) (s : State) : Safety.tally (run (updEng u k f) s) lk = Safety.tally s lk := by simp only [Safety.tally, updEng_log]
@[simp] theorem updEng_theChart (u : Nat) (k : Eng) (f : Engine → Engine) (s : State) : theChart (run (updEng u k f) s) = theChart s := by simp only [theChart, updEng_chart]

@[simp] theorem getTile_updEng_same (u : Nat) (k : Eng) (f : Engine → Engine) (s : State) :
    getTile (run (updEng u k f) s) u = (getTile s u).withEng k (f ((getTile s u).eng k)) := getTile_updTile_same ..

@[simp] theorem setPass_pending (p l : Nat) (y : Option PassSt) (s : State) : (run (setPass p l y) s).pending = s.pending := (rfl)
@[simp] theorem setPass_now (p l : Nat) (y : Option PassSt) (s : State) : (run (setPass p l y) s).now = s.now := (rfl)
@[simp] theorem setPass_free (p l : Nat) (y : Option PassSt) (s : State) : (run (setPass p l y) s).free = s.free := (rfl)
@[simp] theorem setPass_out (p l : Nat) (y : Option PassSt) (s : State) : (run (setPass p l y) s).out = s.out := (rfl)
@[simp] theorem setPass_regs (p l : Nat) (y : Option PassSt) (s : State) : (run (setPass p l y) s).regs = s.regs := (rfl)
@[simp] theorem setPass_mem (p l : Nat) (y : Option PassSt) (s : State) : (run (setPass p l y) s).mem = s.mem := (rfl)
@[simp] theorem setPass_floor (p l : Nat) (y : Option PassSt) (s : State) : (run (setPass p l y) s).floor = s.floor := (rfl)
@[simp] theorem setPass_life (p l : Nat) (y : Option PassSt) (s : State) : (run (setPass p l y) s).life = s.life := (rfl)
@[simp] theorem setPass_flashLog (p l : Nat) (y : Option PassSt) (s : State) : (run (setPass p l y) s).flashLog = s.flashLog := (rfl)
@[simp] theorem setPass_log (p l : Nat) (y : Option PassSt) (s : State) : (run (setPass p l y) s).log = s.log := (rfl)
@[simp] theorem setPass_time (p l : Nat) (y : Option PassSt) (s : State) : (run (setPass p l y) s).time = s.time := (rfl)
@[simp] theorem setPass_chart (p l : Nat) (y : Option PassSt) (s : State) : (run (setPass p l y) s).chart = s.chart := (rfl)
@[simp] theorem setPass_tide (p l : Nat) (y : Option PassSt) (s : State) : (run (setPass p l y) s).tide = s.tide := (rfl)
@[simp] theorem setPass_tiles (p l : Nat) (y : Option PassSt) (s : State) : (run (setPass p l y) s).tiles = s.tiles := (rfl)
@[simp] theorem setPass_sec (p l : Nat) (y : Option PassSt) (s : State) : (run (setPass p l y) s).sec = s.sec := (rfl)
@[simp] theorem setPass_tier (p l : Nat) (y : Option PassSt) (s : State) : (run (setPass p l y) s).tier = s.tier := (rfl)
@[simp] theorem setPass_coh (p l : Nat) (y : Option PassSt) (s : State) : (run (setPass p l y) s).coh = s.coh := (rfl)
@[simp] theorem setPass_hural (p l : Nat) (y : Option PassSt) (s : State) : (run (setPass p l y) s).hural = s.hural := (rfl)
@[simp] theorem setPass_upd (p l : Nat) (y : Option PassSt) (s : State) : (run (setPass p l y) s).upd = s.upd := (rfl)
@[simp] theorem setPass_cus (p l : Nat) (y : Option PassSt) (s : State) : (run (setPass p l y) s).cus = s.cus := (rfl)
@[simp] theorem setPass_bell (p l : Nat) (y : Option PassSt) (s : State) : (run (setPass p l y) s).bell = s.bell := (rfl)
@[simp] theorem setPass_link (p l : Nat) (y : Option PassSt) (s : State) : (run (setPass p l y) s).link = s.link := (rfl)
@[simp] theorem setPass_en (p l : Nat) (y : Option PassSt) (s : State) : (run (setPass p l y) s).en = s.en := (rfl)
@[simp] theorem setPass_shd (p l : Nat) (y : Option PassSt) (s : State) : (run (setPass p l y) s).shd = s.shd := (rfl)
@[simp] theorem setPass_hm (p l : Nat) (y : Option PassSt) (s : State) : (run (setPass p l y) s).hm = s.hm := (rfl)
@[simp] theorem setPass_rst (p l : Nat) (y : Option PassSt) (s : State) : (run (setPass p l y) s).rst = s.rst := (rfl)
@[simp] theorem setPass_pow (p l : Nat) (y : Option PassSt) (s : State) : (run (setPass p l y) s).pow = s.pow := (rfl)
@[simp] theorem setPass_getReg (p l : Nat) (y : Option PassSt) (q : RegName) (m n : Nat) (s : State) : getReg (run (setPass p l y) s) q m n = getReg s q m n := (rfl)
@[simp] theorem setPass_getF (p l : Nat) (y : Option PassSt) (x : Fld) (m n : Nat) (s : State) : getF (run (setPass p l y) s) x m n = getF s x m n := (rfl)
@[simp] theorem setPass_getB (p l : Nat) (y : Option PassSt) (x : Fld) (m n : Nat) (s : State) : getB (run (setPass p l y) s) x m n = getB s x m n := (rfl)
@[simp] theorem setPass_tally (p l : Nat) (y : Option PassSt) (lk : LogKind) (s : State) : Safety.tally (run (setPass p l y) s) lk = Safety.tally s lk := by simp only [Safety.tally, setPass_log]
@[simp] theorem setPass_theChart (p l : Nat) (y : Option PassSt) (s : State) : theChart (run (setPass p l y) s) = theChart s := by simp only [theChart, setPass_chart]
@[simp] theorem setPass_getTile (p l : Nat) (y : Option PassSt) (v : Nat) (s : State) : getTile (run (setPass p l y) s) v = getTile s v := by simp only [getTile, setPass_tiles]

@[simp] theorem progress_pending (u : Nat) (s : State) : (run (progress u) s).pending = s.pending := (rfl)
@[simp] theorem progress_now (u : Nat) (s : State) : (run (progress u) s).now = s.now := (rfl)
@[simp] theorem progress_free (u : Nat) (s : State) : (run (progress u) s).free = s.free := (rfl)
@[simp] theorem progress_out (u : Nat) (s : State) : (run (progress u) s).out = s.out := (rfl)
@[simp] theorem progress_regs (u : Nat) (s : State) : (run (progress u) s).regs = s.regs := (rfl)
@[simp] theorem progress_mem (u : Nat) (s : State) : (run (progress u) s).mem = s.mem := (rfl)
@[simp] theorem progress_floor (u : Nat) (s : State) : (run (progress u) s).floor = s.floor := (rfl)
@[simp] theorem progress_life (u : Nat) (s : State) : (run (progress u) s).life = s.life := (rfl)
@[simp] theorem progress_flashLog (u : Nat) (s : State) : (run (progress u) s).flashLog = s.flashLog := (rfl)
@[simp] theorem progress_log (u : Nat) (s : State) : (run (progress u) s).log = s.log := (rfl)
@[simp] theorem progress_time (u : Nat) (s : State) : (run (progress u) s).time = s.time := (rfl)
@[simp] theorem progress_chart (u : Nat) (s : State) : (run (progress u) s).chart = s.chart := (rfl)
@[simp] theorem progress_tiles (u : Nat) (s : State) : (run (progress u) s).tiles = s.tiles := (rfl)
@[simp] theorem progress_num (u : Nat) (s : State) : (run (progress u) s).num = s.num := (rfl)
@[simp] theorem progress_sec (u : Nat) (s : State) : (run (progress u) s).sec = s.sec := (rfl)
@[simp] theorem progress_tier (u : Nat) (s : State) : (run (progress u) s).tier = s.tier := (rfl)
@[simp] theorem progress_coh (u : Nat) (s : State) : (run (progress u) s).coh = s.coh := (rfl)
@[simp] theorem progress_hural (u : Nat) (s : State) : (run (progress u) s).hural = s.hural := (rfl)
@[simp] theorem progress_upd (u : Nat) (s : State) : (run (progress u) s).upd = s.upd := (rfl)
@[simp] theorem progress_cus (u : Nat) (s : State) : (run (progress u) s).cus = s.cus := (rfl)
@[simp] theorem progress_bell (u : Nat) (s : State) : (run (progress u) s).bell = s.bell := (rfl)
@[simp] theorem progress_link (u : Nat) (s : State) : (run (progress u) s).link = s.link := (rfl)
@[simp] theorem progress_en (u : Nat) (s : State) : (run (progress u) s).en = s.en := (rfl)
@[simp] theorem progress_shd (u : Nat) (s : State) : (run (progress u) s).shd = s.shd := (rfl)
@[simp] theorem progress_hm (u : Nat) (s : State) : (run (progress u) s).hm = s.hm := (rfl)
@[simp] theorem progress_rst (u : Nat) (s : State) : (run (progress u) s).rst = s.rst := (rfl)
@[simp] theorem progress_pow (u : Nat) (s : State) : (run (progress u) s).pow = s.pow := (rfl)
@[simp] theorem progress_getReg (u : Nat) (q : RegName) (m n : Nat) (s : State) : getReg (run (progress u) s) q m n = getReg s q m n := (rfl)
@[simp] theorem progress_getF (u : Nat) (x : Fld) (m n : Nat) (s : State) : getF (run (progress u) s) x m n = getF s x m n := (rfl)
@[simp] theorem progress_getB (u : Nat) (x : Fld) (m n : Nat) (s : State) : getB (run (progress u) s) x m n = getB s x m n := (rfl)
@[simp] theorem progress_tally (u : Nat) (lk : LogKind) (s : State) : Safety.tally (run (progress u) s) lk = Safety.tally s lk := by simp only [Safety.tally, progress_log]
@[simp] theorem progress_theChart (u : Nat) (s : State) : theChart (run (progress u) s) = theChart s := by simp only [theChart, progress_chart]
@[simp] theorem progress_getTile (u : Nat) (v : Nat) (s : State) : getTile (run (progress u) s) v = getTile s v := by simp only [getTile, progress_tiles]

@[simp] theorem traceItem_now (u e : Nat) (d : Desc) (s : State) : (run (traceItem u e d) s).now = s.now := by rw [traceItem, run_seq, run_when]; split <;> simp
@[simp] theorem traceItem_free (u e : Nat) (d : Desc) (s : State) : (run (traceItem u e d) s).free = s.free := by rw [traceItem, run_seq, run_when]; split <;> simp
@[simp] theorem traceItem_out (u e : Nat) (d : Desc) (s : State) : (run (traceItem u e d) s).out = s.out := by rw [traceItem, run_seq, run_when]; split <;> simp
@[simp] theorem traceItem_floor (u e : Nat) (d : Desc) (s : State) : (run (traceItem u e d) s).floor = s.floor := by rw [traceItem, run_seq, run_when]; split <;> simp
@[simp] theorem traceItem_life (u e : Nat) (d : Desc) (s : State) : (run (traceItem u e d) s).life = s.life := by rw [traceItem, run_seq, run_when]; split <;> simp
@[simp] theorem traceItem_flashLog (u e : Nat) (d : Desc) (s : State) : (run (traceItem u e d) s).flashLog = s.flashLog := by rw [traceItem, run_seq, run_when]; split <;> simp
@[simp] theorem traceItem_log (u e : Nat) (d : Desc) (s : State) : (run (traceItem u e d) s).log = s.log := by rw [traceItem, run_seq, run_when]; split <;> simp
@[simp] theorem traceItem_time (u e : Nat) (d : Desc) (s : State) : (run (traceItem u e d) s).time = s.time := by rw [traceItem, run_seq, run_when]; split <;> simp
@[simp] theorem traceItem_chart (u e : Nat) (d : Desc) (s : State) : (run (traceItem u e d) s).chart = s.chart := by rw [traceItem, run_seq, run_when]; split <;> simp
@[simp] theorem traceItem_tiles (u e : Nat) (d : Desc) (s : State) : (run (traceItem u e d) s).tiles = s.tiles := by rw [traceItem, run_seq, run_when]; split <;> simp
@[simp] theorem traceItem_num (u e : Nat) (d : Desc) (s : State) : (run (traceItem u e d) s).num = s.num := by rw [traceItem, run_seq, run_when]; split <;> simp
@[simp] theorem traceItem_hural (u e : Nat) (d : Desc) (s : State) : (run (traceItem u e d) s).hural = s.hural := by rw [traceItem, run_seq, run_when]; split <;> simp
@[simp] theorem traceItem_upd (u e : Nat) (d : Desc) (s : State) : (run (traceItem u e d) s).upd = s.upd := by rw [traceItem, run_seq, run_when]; split <;> simp
@[simp] theorem traceItem_cus (u e : Nat) (d : Desc) (s : State) : (run (traceItem u e d) s).cus = s.cus := by rw [traceItem, run_seq, run_when]; split <;> simp
@[simp] theorem traceItem_bell (u e : Nat) (d : Desc) (s : State) : (run (traceItem u e d) s).bell = s.bell := by rw [traceItem, run_seq, run_when]; split <;> simp
@[simp] theorem traceItem_link (u e : Nat) (d : Desc) (s : State) : (run (traceItem u e d) s).link = s.link := by rw [traceItem, run_seq, run_when]; split <;> simp
@[simp] theorem traceItem_en (u e : Nat) (d : Desc) (s : State) : (run (traceItem u e d) s).en = s.en := by rw [traceItem, run_seq, run_when]; split <;> simp
@[simp] theorem traceItem_shd (u e : Nat) (d : Desc) (s : State) : (run (traceItem u e d) s).shd = s.shd := by rw [traceItem, run_seq, run_when]; split <;> simp
@[simp] theorem traceItem_hm (u e : Nat) (d : Desc) (s : State) : (run (traceItem u e d) s).hm = s.hm := by rw [traceItem, run_seq, run_when]; split <;> simp
@[simp] theorem traceItem_rst (u e : Nat) (d : Desc) (s : State) : (run (traceItem u e d) s).rst = s.rst := by rw [traceItem, run_seq, run_when]; split <;> simp
@[simp] theorem traceItem_pow (u e : Nat) (d : Desc) (s : State) : (run (traceItem u e d) s).pow = s.pow := by rw [traceItem, run_seq, run_when]; split <;> simp
@[simp] theorem traceItem_getReg (u e : Nat) (d : Desc) (q : RegName) (m n : Nat) (s : State) (h : RegName.COH_HOLDSNP ≠ q) :
    getReg (run (traceItem u e d) s) q m n = getReg s q m n := by
  rw [traceItem, run_seq, run_when]; split <;> simp [progress, trace_getReg _ _ _ _ _ _ _ _ h]
@[simp] theorem traceItem_getF (u e : Nat) (d : Desc) (x : Fld) (m n : Nat) (s : State) (h : RegName.COH_HOLDSNP ≠ x.reg) :
    getF (run (traceItem u e d) s) x m n = getF s x m n := by simp only [getF, traceItem_getReg _ _ _ _ _ _ _ h]
@[simp] theorem traceItem_getB (u e : Nat) (d : Desc) (x : Fld) (m n : Nat) (s : State) (h : RegName.COH_HOLDSNP ≠ x.reg) :
    getB (run (traceItem u e d) s) x m n = getB s x m n := by simp only [getB, traceItem_getF _ _ _ _ _ _ _ h]
@[simp] theorem traceItem_tally (u e : Nat) (d : Desc) (lk : LogKind) (s : State) : Safety.tally (run (traceItem u e d) s) lk = Safety.tally s lk := by simp only [Safety.tally, traceItem_log]
@[simp] theorem traceItem_theChart (u e : Nat) (d : Desc) (s : State) : theChart (run (traceItem u e d) s) = theChart s := by simp only [theChart, traceItem_chart]
@[simp] theorem traceItem_getTile (u e : Nat) (d : Desc) (v : Nat) (s : State) : getTile (run (traceItem u e d) s) v = getTile s v := by simp only [getTile, traceItem_tiles]

@[simp] theorem signal_now (u : Nat) (d : Desc) (s : State) : (run (signal u d) s).now = s.now := by rw [signal, run_when]; split <;> simp
@[simp] theorem signal_free (u : Nat) (d : Desc) (s : State) : (run (signal u d) s).free = s.free := by rw [signal, run_when]; split <;> simp
@[simp] theorem signal_out (u : Nat) (d : Desc) (s : State) : (run (signal u d) s).out = s.out := by rw [signal, run_when]; split <;> simp
@[simp] theorem signal_mem (u : Nat) (d : Desc) (s : State) : (run (signal u d) s).mem = s.mem := by rw [signal, run_when]; split <;> simp
@[simp] theorem signal_floor (u : Nat) (d : Desc) (s : State) : (run (signal u d) s).floor = s.floor := by rw [signal, run_when]; split <;> simp
@[simp] theorem signal_life (u : Nat) (d : Desc) (s : State) : (run (signal u d) s).life = s.life := by rw [signal, run_when]; split <;> simp
@[simp] theorem signal_flashLog (u : Nat) (d : Desc) (s : State) : (run (signal u d) s).flashLog = s.flashLog := by rw [signal, run_when]; split <;> simp
@[simp] theorem signal_log (u : Nat) (d : Desc) (s : State) : (run (signal u d) s).log = s.log := by rw [signal, run_when]; split <;> simp
@[simp] theorem signal_time (u : Nat) (d : Desc) (s : State) : (run (signal u d) s).time = s.time := by rw [signal, run_when]; split <;> simp
@[simp] theorem signal_chart (u : Nat) (d : Desc) (s : State) : (run (signal u d) s).chart = s.chart := by rw [signal, run_when]; split <;> simp
@[simp] theorem signal_tide (u : Nat) (d : Desc) (s : State) : (run (signal u d) s).tide = s.tide := by rw [signal, run_when]; split <;> simp
@[simp] theorem signal_tiles (u : Nat) (d : Desc) (s : State) : (run (signal u d) s).tiles = s.tiles := by rw [signal, run_when]; split <;> simp
@[simp] theorem signal_num (u : Nat) (d : Desc) (s : State) : (run (signal u d) s).num = s.num := by rw [signal, run_when]; split <;> simp
@[simp] theorem signal_sec (u : Nat) (d : Desc) (s : State) : (run (signal u d) s).sec = s.sec := by rw [signal, run_when]; split <;> simp
@[simp] theorem signal_tier (u : Nat) (d : Desc) (s : State) : (run (signal u d) s).tier = s.tier := by rw [signal, run_when]; split <;> simp
@[simp] theorem signal_coh (u : Nat) (d : Desc) (s : State) : (run (signal u d) s).coh = s.coh := by rw [signal, run_when]; split <;> simp
@[simp] theorem signal_hural (u : Nat) (d : Desc) (s : State) : (run (signal u d) s).hural = s.hural := by rw [signal, run_when]; split <;> simp
@[simp] theorem signal_upd (u : Nat) (d : Desc) (s : State) : (run (signal u d) s).upd = s.upd := by rw [signal, run_when]; split <;> simp
@[simp] theorem signal_cus (u : Nat) (d : Desc) (s : State) : (run (signal u d) s).cus = s.cus := by rw [signal, run_when]; split <;> simp
@[simp] theorem signal_bell (u : Nat) (d : Desc) (s : State) : (run (signal u d) s).bell = s.bell := by rw [signal, run_when]; split <;> simp
@[simp] theorem signal_link (u : Nat) (d : Desc) (s : State) : (run (signal u d) s).link = s.link := by rw [signal, run_when]; split <;> simp
@[simp] theorem signal_en (u : Nat) (d : Desc) (s : State) : (run (signal u d) s).en = s.en := by rw [signal, run_when]; split <;> simp
@[simp] theorem signal_shd (u : Nat) (d : Desc) (s : State) : (run (signal u d) s).shd = s.shd := by rw [signal, run_when]; split <;> simp
@[simp] theorem signal_hm (u : Nat) (d : Desc) (s : State) : (run (signal u d) s).hm = s.hm := by rw [signal, run_when]; split <;> simp
@[simp] theorem signal_rst (u : Nat) (d : Desc) (s : State) : (run (signal u d) s).rst = s.rst := by rw [signal, run_when]; split <;> simp
@[simp] theorem signal_pow (u : Nat) (d : Desc) (s : State) : (run (signal u d) s).pow = s.pow := by rw [signal, run_when]; split <;> simp
@[simp] theorem signal_tally (u : Nat) (d : Desc) (lk : LogKind) (s : State) : Safety.tally (run (signal u d) s) lk = Safety.tally s lk := by simp only [Safety.tally, signal_log]
@[simp] theorem signal_theChart (u : Nat) (d : Desc) (s : State) : theChart (run (signal u d) s) = theChart s := by simp only [theChart, signal_chart]
@[simp] theorem signal_getTile (u : Nat) (d : Desc) (v : Nat) (s : State) : getTile (run (signal u d) s) v = getTile s v := by simp only [getTile, signal_tiles]

theorem getF_signal (u : Nat) (d : Desc) (s : State) :
    getF (run (signal u d) s) TILE_SYNC.VALUE u (dSigctr d) =
      if dSigv d then min (getF s TILE_SYNC.VALUE u (dSigctr d) + 1) 0xFFFF else getF s TILE_SYNC.VALUE u (dSigctr d) := by
  rw [signal, run_when]; split
  · exact getF_incF_fits (f := TILE_SYNC.VALUE) (by decide) ..
  · rfl
@[simp] theorem getF_signal_apart (u : Nat) (d : Desc) (g : Fld) (m n : Nat) (s : State) (h : TILE_SYNC.VALUE.apart g = true) :
    getF (run (signal u d) s) g m n = getF s g m n := by
  rw [signal, run_when]; split
  · exact getF_incF_apart h ..
  · rfl
@[simp] theorem passBegin_now (p : Nat) (d : Desc) (s : State) : (run (passBegin p d) s).now = s.now := by rw [passBegin, run_ask]; split <;> simp
@[simp] theorem passBegin_free (p : Nat) (d : Desc) (s : State) : (run (passBegin p d) s).free = s.free := by rw [passBegin, run_ask]; split <;> simp
@[simp] theorem passBegin_out (p : Nat) (d : Desc) (s : State) : (run (passBegin p d) s).out = s.out := by rw [passBegin, run_ask]; split <;> simp
@[simp] theorem passBegin_regs (p : Nat) (d : Desc) (s : State) : (run (passBegin p d) s).regs = s.regs := by rw [passBegin, run_ask]; split <;> simp
@[simp] theorem passBegin_mem (p : Nat) (d : Desc) (s : State) : (run (passBegin p d) s).mem = s.mem := by rw [passBegin, run_ask]; split <;> simp
@[simp] theorem passBegin_floor (p : Nat) (d : Desc) (s : State) : (run (passBegin p d) s).floor = s.floor := by rw [passBegin, run_ask]; split <;> simp
@[simp] theorem passBegin_life (p : Nat) (d : Desc) (s : State) : (run (passBegin p d) s).life = s.life := by rw [passBegin, run_ask]; split <;> simp
@[simp] theorem passBegin_flashLog (p : Nat) (d : Desc) (s : State) : (run (passBegin p d) s).flashLog = s.flashLog := by rw [passBegin, run_ask]; split <;> simp
@[simp] theorem passBegin_log (p : Nat) (d : Desc) (s : State) : (run (passBegin p d) s).log = s.log := by rw [passBegin, run_ask]; split <;> simp
@[simp] theorem passBegin_time (p : Nat) (d : Desc) (s : State) : (run (passBegin p d) s).time = s.time := by rw [passBegin, run_ask]; split <;> simp
@[simp] theorem passBegin_chart (p : Nat) (d : Desc) (s : State) : (run (passBegin p d) s).chart = s.chart := by rw [passBegin, run_ask]; split <;> simp
@[simp] theorem passBegin_tide (p : Nat) (d : Desc) (s : State) : (run (passBegin p d) s).tide = s.tide := by rw [passBegin, run_ask]; split <;> simp
@[simp] theorem passBegin_tiles (p : Nat) (d : Desc) (s : State) : (run (passBegin p d) s).tiles = s.tiles := by rw [passBegin, run_ask]; split <;> simp
@[simp] theorem passBegin_sec (p : Nat) (d : Desc) (s : State) : (run (passBegin p d) s).sec = s.sec := by rw [passBegin, run_ask]; split <;> simp
@[simp] theorem passBegin_tier (p : Nat) (d : Desc) (s : State) : (run (passBegin p d) s).tier = s.tier := by rw [passBegin, run_ask]; split <;> simp
@[simp] theorem passBegin_coh (p : Nat) (d : Desc) (s : State) : (run (passBegin p d) s).coh = s.coh := by rw [passBegin, run_ask]; split <;> simp
@[simp] theorem passBegin_hural (p : Nat) (d : Desc) (s : State) : (run (passBegin p d) s).hural = s.hural := by rw [passBegin, run_ask]; split <;> simp
@[simp] theorem passBegin_upd (p : Nat) (d : Desc) (s : State) : (run (passBegin p d) s).upd = s.upd := by rw [passBegin, run_ask]; split <;> simp
@[simp] theorem passBegin_cus (p : Nat) (d : Desc) (s : State) : (run (passBegin p d) s).cus = s.cus := by rw [passBegin, run_ask]; split <;> simp
@[simp] theorem passBegin_bell (p : Nat) (d : Desc) (s : State) : (run (passBegin p d) s).bell = s.bell := by rw [passBegin, run_ask]; split <;> simp
@[simp] theorem passBegin_link (p : Nat) (d : Desc) (s : State) : (run (passBegin p d) s).link = s.link := by rw [passBegin, run_ask]; split <;> simp
@[simp] theorem passBegin_en (p : Nat) (d : Desc) (s : State) : (run (passBegin p d) s).en = s.en := by rw [passBegin, run_ask]; split <;> simp
@[simp] theorem passBegin_shd (p : Nat) (d : Desc) (s : State) : (run (passBegin p d) s).shd = s.shd := by rw [passBegin, run_ask]; split <;> simp
@[simp] theorem passBegin_hm (p : Nat) (d : Desc) (s : State) : (run (passBegin p d) s).hm = s.hm := by rw [passBegin, run_ask]; split <;> simp
@[simp] theorem passBegin_rst (p : Nat) (d : Desc) (s : State) : (run (passBegin p d) s).rst = s.rst := by rw [passBegin, run_ask]; split <;> simp
@[simp] theorem passBegin_pow (p : Nat) (d : Desc) (s : State) : (run (passBegin p d) s).pow = s.pow := by rw [passBegin, run_ask]; split <;> simp
@[simp] theorem passBegin_getReg (p : Nat) (d : Desc) (q : RegName) (m n : Nat) (s : State) : getReg (run (passBegin p d) s) q m n = getReg s q m n := by simp only [getReg, passBegin_regs]
@[simp] theorem passBegin_getF (p : Nat) (d : Desc) (x : Fld) (m n : Nat) (s : State) : getF (run (passBegin p d) s) x m n = getF s x m n := by simp only [getF, passBegin_getReg]
@[simp] theorem passBegin_getB (p : Nat) (d : Desc) (x : Fld) (m n : Nat) (s : State) : getB (run (passBegin p d) s) x m n = getB s x m n := by simp only [getB, passBegin_getF]
@[simp] theorem passBegin_tally (p : Nat) (d : Desc) (lk : LogKind) (s : State) : Safety.tally (run (passBegin p d) s) lk = Safety.tally s lk := by simp only [Safety.tally, passBegin_log]
@[simp] theorem passBegin_theChart (p : Nat) (d : Desc) (s : State) : theChart (run (passBegin p d) s) = theChart s := by simp only [theChart, passBegin_chart]
@[simp] theorem passBegin_getTile (p : Nat) (d : Desc) (v : Nat) (s : State) : getTile (run (passBegin p d) s) v = getTile s v := by simp only [getTile, passBegin_tiles]

@[simp] theorem completionReport_now (u : Nat) (r : RunItem) (s : State) : (run (completionReport u r) s).now = s.now := by rw [completionReport]; split <;> simp
@[simp] theorem completionReport_free (u : Nat) (r : RunItem) (s : State) : (run (completionReport u r) s).free = s.free := by rw [completionReport]; split <;> simp
@[simp] theorem completionReport_out (u : Nat) (r : RunItem) (s : State) : (run (completionReport u r) s).out = s.out := by rw [completionReport]; split <;> simp
@[simp] theorem completionReport_regs (u : Nat) (r : RunItem) (s : State) : (run (completionReport u r) s).regs = s.regs := by rw [completionReport]; split <;> simp
@[simp] theorem completionReport_mem (u : Nat) (r : RunItem) (s : State) : (run (completionReport u r) s).mem = s.mem := by rw [completionReport]; split <;> simp
@[simp] theorem completionReport_floor (u : Nat) (r : RunItem) (s : State) : (run (completionReport u r) s).floor = s.floor := by rw [completionReport]; split <;> simp
@[simp] theorem completionReport_life (u : Nat) (r : RunItem) (s : State) : (run (completionReport u r) s).life = s.life := by rw [completionReport]; split <;> simp
@[simp] theorem completionReport_flashLog (u : Nat) (r : RunItem) (s : State) : (run (completionReport u r) s).flashLog = s.flashLog := by rw [completionReport]; split <;> simp
@[simp] theorem completionReport_log (u : Nat) (r : RunItem) (s : State) : (run (completionReport u r) s).log = s.log := by rw [completionReport]; split <;> simp
@[simp] theorem completionReport_time (u : Nat) (r : RunItem) (s : State) : (run (completionReport u r) s).time = s.time := by rw [completionReport]; split <;> simp
@[simp] theorem completionReport_chart (u : Nat) (r : RunItem) (s : State) : (run (completionReport u r) s).chart = s.chart := by rw [completionReport]; split <;> simp
@[simp] theorem completionReport_tide (u : Nat) (r : RunItem) (s : State) : (run (completionReport u r) s).tide = s.tide := by rw [completionReport]; split <;> simp
@[simp] theorem completionReport_tiles (u : Nat) (r : RunItem) (s : State) : (run (completionReport u r) s).tiles = s.tiles := by rw [completionReport]; split <;> simp
@[simp] theorem completionReport_sec (u : Nat) (r : RunItem) (s : State) : (run (completionReport u r) s).sec = s.sec := by rw [completionReport]; split <;> simp
@[simp] theorem completionReport_tier (u : Nat) (r : RunItem) (s : State) : (run (completionReport u r) s).tier = s.tier := by rw [completionReport]; split <;> simp
@[simp] theorem completionReport_coh (u : Nat) (r : RunItem) (s : State) : (run (completionReport u r) s).coh = s.coh := by rw [completionReport]; split <;> simp
@[simp] theorem completionReport_hural (u : Nat) (r : RunItem) (s : State) : (run (completionReport u r) s).hural = s.hural := by rw [completionReport]; split <;> simp
@[simp] theorem completionReport_upd (u : Nat) (r : RunItem) (s : State) : (run (completionReport u r) s).upd = s.upd := by rw [completionReport]; split <;> simp
@[simp] theorem completionReport_cus (u : Nat) (r : RunItem) (s : State) : (run (completionReport u r) s).cus = s.cus := by rw [completionReport]; split <;> simp
@[simp] theorem completionReport_bell (u : Nat) (r : RunItem) (s : State) : (run (completionReport u r) s).bell = s.bell := by rw [completionReport]; split <;> simp
@[simp] theorem completionReport_link (u : Nat) (r : RunItem) (s : State) : (run (completionReport u r) s).link = s.link := by rw [completionReport]; split <;> simp
@[simp] theorem completionReport_en (u : Nat) (r : RunItem) (s : State) : (run (completionReport u r) s).en = s.en := by rw [completionReport]; split <;> simp
@[simp] theorem completionReport_shd (u : Nat) (r : RunItem) (s : State) : (run (completionReport u r) s).shd = s.shd := by rw [completionReport]; split <;> simp
@[simp] theorem completionReport_hm (u : Nat) (r : RunItem) (s : State) : (run (completionReport u r) s).hm = s.hm := by rw [completionReport]; split <;> simp
@[simp] theorem completionReport_rst (u : Nat) (r : RunItem) (s : State) : (run (completionReport u r) s).rst = s.rst := by rw [completionReport]; split <;> simp
@[simp] theorem completionReport_pow (u : Nat) (r : RunItem) (s : State) : (run (completionReport u r) s).pow = s.pow := by rw [completionReport]; split <;> simp
@[simp] theorem completionReport_getReg (u : Nat) (r : RunItem) (q : RegName) (m n : Nat) (s : State) : getReg (run (completionReport u r) s) q m n = getReg s q m n := by simp only [getReg, completionReport_regs]
@[simp] theorem completionReport_getF (u : Nat) (r : RunItem) (x : Fld) (m n : Nat) (s : State) : getF (run (completionReport u r) s) x m n = getF s x m n := by simp only [getF, completionReport_getReg]
@[simp] theorem completionReport_getB (u : Nat) (r : RunItem) (x : Fld) (m n : Nat) (s : State) : getB (run (completionReport u r) s) x m n = getB s x m n := by simp only [getB, completionReport_getF]
@[simp] theorem completionReport_tally (u : Nat) (r : RunItem) (lk : LogKind) (s : State) : Safety.tally (run (completionReport u r) s) lk = Safety.tally s lk := by simp only [Safety.tally, completionReport_log]
@[simp] theorem completionReport_theChart (u : Nat) (r : RunItem) (s : State) : theChart (run (completionReport u r) s) = theChart s := by simp only [theChart, completionReport_chart]
@[simp] theorem completionReport_getTile (u : Nat) (r : RunItem) (v : Nat) (s : State) : getTile (run (completionReport u r) s) v = getTile s v := by simp only [getTile, completionReport_tiles]

@[simp] theorem getTile_setF (f : Fld) (x i j u : Nat) (s : State) : getTile (run (setF f x i j) s) u = getTile s u := (rfl)
@[simp] theorem getTile_modF (f : Fld) (k : Nat → Nat) (i j u : Nat) (s : State) : getTile (run (modF f k i j) s) u = getTile s u := (rfl)
@[simp] theorem getTile_incF (f : Fld) (x i j u : Nat) (s : State) : getTile (run (incF f x i j) s) u = getTile s u := (rfl)
@[simp] theorem getTile_addF (f : Fld) (x i j u : Nat) (s : State) : getTile (run (addF f x i j) s) u = getTile s u := (rfl)
@[simp] theorem getTile_logEv (k : LogKind) (d o : Nat) (dt : List Nat) (u : Nat) (s : State) : getTile (run (logEv k d o dt) s) u = getTile s u := by simp only [getTile, logEv_tiles]
@[simp] theorem getTile_evt (f : Fld) (i j u : Nat) (s : State) : getTile (run (evt f i j) s) u = getTile s u := (rfl)

end Sys2Proof.Machine
end

