-- ==== Sys2Proof/WellFormed.lean ====
section
/-! DEFINITION. Which operands a command can carry: lengths, sizes, counts and numbers that the spec's rules fix. The meanings are total; the operands refused here are those that no sender of the spec forms. -/

namespace Sys2Proof

/-- An access of `n` bytes at an address stays in its 64-byte line (R3, R261). -/
def inLine (a : Addr) (n : Nat) : Bool := decide (0 < n) && decide (a.toNat % 64 + n ≤ 64)

/-- An atomic is of 32 or 64 bits on its own alignment (R266). -/
def atomicSize (a : Addr) (n : Nat) : Bool := (n == 4 || n == 8) && a.toNat % n == 0

/-- A line's codeword has 72 symbols (R243). -/
def symbolCount (n : Nat) : Bool := decide (n ≤ 72)

/-- The tide gauges of a die: 64 on a compute die, 16 on the host die and 16 on the I/O die (R335). -/
def gaugeCount (d : Fin 6) : Nat := if d.val < 4 then 64 else 16

/-- The messages of a session set-up have the lengths of Table 16-4: the nonce, the ML-KEM-768 key and ciphertext, the ML-DSA-44 keys and signatures. -/
def HsMsg.wf : HsMsg → Bool
  | .hello _ _ _ _ nonce key e => nonce.length == 32 && key.length == 1312 && e.length == 2420
  | .encap key => key.length == 1184
  | .cipher ct sig => ct.length == 1088 && sig.length == 2420
  | .finish sig _ => sig.length == 2420

/-- The operands of a command lie in their ranges. -/
def Instr.wf : Instr → Bool
  | .physicalAccess _ _ (.read n) e => decide (0 < n) && symbolCount e
  | .physicalAccess _ _ (.write bs _ _ _) e => decide (0 < bs.length) && symbolCount e
  | .patrol _ e => symbolCount e
  | .agentStore _ a bs => inLine a bs.length
  | .uncachedRead a n => inLine a n
  | .uncachedPartialWrite a bs => inLine a bs.length
  | .amo _ a _ n _ => atomicSize a n
  | .lrSc _ a _ n _ => atomicSize a n
  | .collapse _ a _ => decide (a < 2 ^ 10)
  | .laneFrameReceive _ _ _ f _ => f.length == 16
  | .pcieDeviceWrite _ _ bs => decide (0 < bs.length)
  | .pcieDeviceRead _ _ n => decide (0 < n)
  | .tideMark used _ => used.length == 6
  | .gaugeSample d r => r.length == gaugeCount d
  | .gaugeForcedSample d r => r.length == gaugeCount d
  | .powerModelCalibrate _ i g => i.length == 3 && g.length == 3
  | .huralFlitReceive _ f _ _ => f.length == 256
  | .handshake _ m => m.wf
  | .resetRelease d => decide (1 ≤ d) && decide (d ≤ 7)
  | .i3cHostimg bs => decide (bs.length ≤ 4096)
  | .registerWrite .. | .bellQerrRead .. | .clockLost .. | .clkMeasStart .. | .clkMeasDone .. | .frameCompose | .tideFrameReceive ..
  | .frameMissing .. | .skewCheck .. | .budgetMessageSend .. | .budgetMessage .. | .allotmentSend .. | .allotment .. | .graceEnd | .planTake
  | .tidePlanWrite .. | .readyReportSend .. | .ready .. | .freadySend .. | .fready .. | .deferredCommit .. | .chartAmendGo .. | .amendCheckDone
  | .chartAmendCancel | .amendDrainTimeout | .chartFlashGo .. | .chartFlashCheckDone | .chartFlashWriteDone .. | .nop .. | .mma .. | .longSumFold ..
  | .mmaComplete .. | .mxCtlResume .. | .streamWrap .. | .completionReport .. | .verdict .. | .repeatPlanFetched .. | .verdictDelivery .. | .add ..
  | .sub .. | .mul .. | .fma .. | .max .. | .min .. | .abs .. | .neg .. | .selgt .. | .cvt .. | .exp2 .. | .log2 .. | .recip .. | .rsqrt .. | .sqrt ..
  | .tanh .. | .rsum .. | .rmax .. | .csum .. | .out .. | .spill .. | .free .. | .win .. | .vxItemComplete .. | .vxCtlResume .. | .copy ..
  | .lowerMatrixRows .. | .lowerWindowLine .. | .dmaItemComplete .. | .vxDmaCtlResume .. | .watchRecomputeStart .. | .watchRecomputeEnd ..
  | .watchAbandon .. | .upd | .wcopy | .updNop | .updItemComplete | .updCtlDiscard | .updCtlResume | .updLiveWrite .. | .schCtlRecalc
  | .heldAccessRelease .. | .holdTimeout .. | .stallTimeout .. | .tierCtlInval | .tierInvalDone | .tierMigptrTail .. | .migrationPlace
  | .migrationMove | .migrationMoveDone | .migrationUnmap | .quotaWaitRelease | .evictionDeadline .. | .tierObjctlRebuild .. | .tierObjctlRelease ..
  | .tierObjctlEscalate .. | .agentLoad .. | .agentEvict .. | .rds .. | .rdx .. | .upg .. | .wb .. | .evc .. | .snps .. | .snpx .. | .snpc ..
  | .snoopResponse .. | .wback .. | .snoopHoldExpiry .. | .uncachedFullWrite .. | .cohCtlMode .. | .depart .. | .departureComplete ..
  | .snoopTimeout .. | .departureTimeout .. | .collapseFlushEnd | .laneNakReceive .. | .dropNotice .. | .d2dCtlRetrain .. | .receiveMap ..
  | .mapTimeout .. | .confirmDone .. | .routeRestore .. | .rev2TagFree .. | .bellRing .. | .entryCheck .. | .rereadTimeout .. | .bellEnable ..
  | .bellDisable .. | .cmdNop .. | .cmdPut .. | .cmdCopy .. | .cmdPlan .. | .cmdPlanDeliver .. | .commandComplete .. | .bellCqheadWrite ..
  | .bellVisRead .. | .bellVisReply .. | .cusSubptrTail .. | .customsCheck | .run .. | .runComplete .. | .decodeComplete .. | .cusHostdone ..
  | .deadlineDrop | .cusCtlRestore | .cusCfgEn | .idleSlotsBegin .. | .limiterGate .. | .criticalTemperature .. | .criticalTemperatureClear ..
  | .enCtlDark .. | .enCtlSb | .sbEntry | .sbDrainTimeout | .avsPoll .. | .linkUp .. | .huralCtlOpen .. | .huralCtlClose .. | .huralCtlRekey ..
  | .sessionRetry .. | .rekeyDue .. | .ethFrameReceive .. | .nak .. | .flitAckTimeout .. | .keepalive .. | .close .. | .write .. | .wack .. | .read ..
  | .rdata .. | .nack .. | .tstamp .. | .lost .. | .probe .. | .probeack .. | .probeTimeout .. | .takeover .. | .grantreq .. | .grant ..
  | .huralFree .. | .evict .. | .bulk .. | .partnerAbsent .. | .partnerSlow .. | .partnerStuck .. | .quarantineRetrain .. | .portHoldExpiry
  | .securePointDone | .shdCtlEn | .shdCtlSecure | .shdCtlRealign .. | .restorePhaseDone .. | .rstCtlCp .. | .rstCtlDierst .. | .rstCtlHost
  | .rstCtlPkg | .rstCtlOosclr | .dumpReadTimeout .. | .watchdogTrip .. | .rstHostwdBeat | .hostWatchdogTrip | .relockTimeout .. | .telemetrySample
  | .telemetrySkip | .hmTeldone .. | .hmFwGo .. | .hmFwCheckDone | .hmFwDrop | .hmFwRevert | .floodClose .. | .logbookFlush | .tallySave
  | .hmSettai .. | .ptpLock .. | .ptpLockLost | .timeUnknown | .ptpMessage .. | .ppsPulse | .boot .. | .secCmdRecord .. | .secCmdEnrolOwner ..
  | .secCmdEndorsement .. | .secCmdEnrolIdentity .. | .lifecycleReset | .dbgOpenGo .. | .tapToken .. | .tapDbgacc .. | .dbgClose | .sessionExpire ..
  | .dbgHaltHalt .. | .dbgHaltResume .. | .secAttestGo .. | .attestDone | .vin48Rise | .convertersReady | .vin48OutOfRange | .v3p3sbLost
  | .resetNLow .. | .resetNRelease | .refclkLost | .thermtrip | .i3cStatus | .i3cStatusIbi | .i3cCapsust .. | .i3cCapexc .. | .i3cReqEnterSb
  | .i3cReqLeaveSb | .i3cReqReset | .i3cPin | .i3cTemp | .i3cIdent | .refclkReturn | .v3p3sbRestore | .vin48Discharged | .tapClose | .quarantineEnd ..
  | .ddExitComplete .. => true

end Sys2Proof
end

