-- ==== Sys2Proof/Tests/Slice0.lean ====
section
/-! SUPPORT. The model's own tests: the checks on operands, small steps, and for the hypotheses of each statement a state and operands that meet them. -/

namespace Sys2Proof.Tests

open Sys2Proof Sys2Proof.Machine

set_option maxRecDepth 20000
set_option Elab.async false
set_option exponentiation.threshold 4096

/-! States for the tests. -/

/-- A package in service before any command: nothing is held in reset. -/
def base : State := { pow := { boot := false } }

/-- That package after some updates. -/
def made (l : List Act) : State := run (Act.all l) base

/-- A descriptor with values at bit positions. -/
def item (fs : List (Nat × Nat)) : Desc := BitVec.ofNat 512 (fs.foldl (fun a f => a + f.2 * 2 ^ f.1) 0)

/-- The package with a tile 0. -/
def tile0 (t : Tile) : State := { base with tiles := [(0, t)] }

/-- Bytes with values at offsets: offset, length, value; all others 0. -/
def image (len : Nat) (fs : List (Nat × Nat × Nat)) : List Byte :=
  natLe (fs.foldl (fun a f => a + f.2.2 % 2 ^ (8 * f.2.1) * 2 ^ (8 * f.1)) 0) len

/-- A chart with one partition of tiles 0 to 3 and the shared units, tile 1 a feeder; berth 0 is the pilot. -/
def chart1 : Chart :=
  { sections := [(1, image 88 [(0, 1, 1), (9, 1, 0xF), (16, 64, 0xF)]), (2, [1, 2, 1, 1])] }

/-- The package with a chart in effect. -/
def charted (c : Chart) (s : State) : State := { s with chart := { s.chart with cur := some c } }

/-- The package with bytes in memory. -/
def stored (a : Nat) (bs : List Byte) (s : State) : State := run (writeMem a bs) s

/-- A management flit with its check bytes. -/
def flitOf (fs : List (Nat × Nat)) : Desc :=
  item (fs ++ [(8 * 0x3E, (crc16 ((descBytes (item fs)).take 62)).toNat)])

/-- A queue's state. -/
def queued (x : BellQ) (s : State) : State := { s with bell := [(0, x)] }

/-- A command entry with values at offsets. -/
def entry (fs : List (Nat × Nat × Nat)) : List Byte := image 256 fs

/-- Port 0's state. -/
def ported (x : PortSt) (s : State) : State := { s with hural := { ports := [(0, x)] } }

/-- A flit with its check bytes. -/
def sealed (bs : List Byte) : List Byte := bs ++ natLe (crc32 bs).toNat 4

/-- A message in the inbox of port 0, one flit long. -/
def mailed (m : HMsg) (s : State) : State := { s with hural := { s.hural with inbox := [(0, m, 1)] } }

/-- A request in progress whose answer has tag 7 and comes from berth 3. -/
def asked (j : ReqFor) (s : State) : State := { s with hural := { s.hural with reqs := [{ txn := 7, dst := 3, job := j }] } }

/-- A package that lends 1 GiB, its first frame to berth 3. -/
def lender : State :=
  { charted { sections := [(4, image 8 [(4, 4, 1)])] } base with tier := { lent := [(523776, { berth := 3 })] } }

/-- The invariant holds of it. -/
theorem base_inv : Safety.Inv base := by
  unfold Safety.Inv Safety.memoryWf Safety.regsWf Safety.reservedZero Safety.idrevWired
  exact ⟨by decide, ⟨by decide, fun r i j => by simp [base, Cells.look]⟩, fun r i j => regReset_masked r i j, fun _ _ => rfl⟩


/-! Commands with operands out of their ranges are refused by the check, one for each of its parts; commands in range pass. -/

theorem test_wf_passes : Instr.wf (.agentStore 0 0x1038 (List.replicate 8 1)) = true ∧ Instr.wf (.amo 0 0x1008 .add 8 1) = true ∧
    Instr.wf (.physicalAccess (.host 0) 0 (.read 8) 72) = true ∧ Instr.wf (.resetRelease 7) = true ∧ Instr.wf .frameCompose = true := by decide
theorem test_wf_access_read : Instr.wf (.physicalAccess (.host 0) 0 (.read 0) 0) = false := by decide
theorem test_wf_access_symbols : Instr.wf (.physicalAccess (.host 0) 0 (.read 8) 73) = false := by decide
theorem test_wf_access_write : Instr.wf (.physicalAccess (.host 0) 0 (.write [] false 0 0) 0) = false := by decide
theorem test_wf_patrol : Instr.wf (.patrol 0 73) = false := by decide
theorem test_wf_agentStore : Instr.wf (.agentStore 0 0x1039 (List.replicate 8 1)) = false := by decide
theorem test_wf_uncachedRead : Instr.wf (.uncachedRead 0x1001 64) = false := by decide
theorem test_wf_uncachedPartialWrite : Instr.wf (.uncachedPartialWrite 0x1000 []) = false := by decide
theorem test_wf_amo : Instr.wf (.amo 0 0x1004 .add 8 1) = false := by decide
theorem test_wf_lrSc : Instr.wf (.lrSc 0 0x1000 true 2 1) = false := by decide
theorem test_wf_collapse : Instr.wf (.collapse 1 1024 0) = false := by decide
theorem test_wf_laneFrameReceive : Instr.wf (.laneFrameReceive 0 false 0 [] 0) = false := by decide
theorem test_wf_pcieDeviceWrite : Instr.wf (.pcieDeviceWrite 0 0 []) = false := by decide
theorem test_wf_pcieDeviceRead : Instr.wf (.pcieDeviceRead 0 0 0) = false := by decide
theorem test_wf_tideMark : Instr.wf (.tideMark [1, 2, 3] 0) = false := by decide
theorem test_wf_gaugeSample : Instr.wf (.gaugeSample 4 (List.replicate 64 (0, 0))) = false := by decide
theorem test_wf_gaugeForcedSample : Instr.wf (.gaugeForcedSample 0 []) = false := by decide
theorem test_wf_powerModelCalibrate : Instr.wf (.powerModelCalibrate 0 [1, 2, 3] [1]) = false := by decide
theorem test_wf_huralFlitReceive : Instr.wf (.huralFlitReceive 0 [] 0 false) = false := by decide
theorem test_wf_hello : Instr.wf (.handshake 0 (.hello 1 0 0 0 [] [] [])) = false := by decide
theorem test_wf_encap : Instr.wf (.handshake 0 (.encap [])) = false := by decide
theorem test_wf_cipher : Instr.wf (.handshake 0 (.cipher [] [])) = false := by decide
theorem test_wf_finish : Instr.wf (.handshake 0 (.finish [] 0)) = false := by decide
theorem test_wf_resetRelease : Instr.wf (.resetRelease 0) = false := by decide
theorem test_wf_i3cHostimg : Instr.wf (.i3cHostimg (List.replicate 4097 0)) = false := by decide +kernel

/-! The step, and words of the table. -/

theorem test_decode_none : decodeTableWord 8 0 = none := rfl
theorem test_word_places_nothing : State.withFetchWord State.reset 8 0 = State.reset := rfl
theorem test_step_runs_front : step { base with pending := [.clkMeasDone 5] } = exec (.clkMeasDone 5) base := rfl
theorem test_reset_memory : State.reset.mem = [] := rfl
theorem test_reset_queue : State.reset.pending = [] := rfl
theorem test_reset_inv_memory : Safety.memoryWf State.reset := by unfold Safety.memoryWf; decide

/-! The spec's worked examples. -/

/-- MX_FLAGS of tile 5 of die 2 (*Scope and conventions*, and the end of *Tiles and the matrix engine*). -/
theorem test_register_address : regAt 0xF00001829008 = some (.MX_FLAGS, 261, 0) := by decide +kernel

/-- Address 0x6A_1234_5678 lies in device 5, the second of die 1 (*Memory tiers*). -/
theorem test_warehouse_device : homeOf (0x6A12345678 / 64) = 5 := by decide +kernel

/-- The column of tile 77 of die 3 begins at 0x0102_B380_0000 and ends at 0x0102_B4FF_FFFF (*The package*). -/
theorem test_quay_column : quayDie 0x0102B3800000 = 3 ∧ isQuay 0x0102B4FFFFFF = true := by decide +kernel

/-- Slot 40: the exponents of a history of 3.1, and of 3.9 (*Training numerics*). -/
theorem test_scale_exponents :
    (scaleExp (fpE4M3.decode fpE4M3.maxBits) (dec32 0x40466666) 0, scaleExp (fpE2M1.decode fpE2M1.maxBits) (dec32 0x40466666) 0,
      scaleExp (fpE5M2.decode fpE5M2.maxBits) (dec32 0x40466666) 0) = (7, 0, 14) ∧
    (scaleExp (fpE4M3.decode fpE4M3.maxBits) (dec32 0x4079999A) 0, scaleExp (fpE2M1.decode fpE2M1.maxBits) (dec32 0x4079999A) 0,
      scaleExp (fpE5M2.decode fpE5M2.maxBits) (dec32 0x4079999A) 0) = (6, 0, 13) := by decide +kernel

/-- 499.2 lies above the E4M3 threshold: 448, OF and NX (*Training numerics*). -/
theorem test_e4m3_saturates : fpE4M3.round none (dec32 0x43F9999A) = (0x7E, flOF ||| flNX) := by decide +kernel

/-- INT32 to FP16 gives +infinity, OF and NX from 65,520 on (*Formats and accumulation*). -/
theorem test_int32_to_fp16 : fpFP16.round none (FV.ofInt 65520) = (0x7C00, flOF ||| flNX) ∧ fpFP16.round none (FV.ofInt 65519) = (0x7BFF, flNX) := by decide +kernel

/-- The four compensated adds of Table 5-6. -/
theorem test_compensated_adds : compAdd 0x3F800000 0 0x33000000 = (0x3F800000, 0xB3000000, flNX) ∧
    compAdd 0x3F800000 0xB3000000 0x33000000 = (0x3F800000, 0xB3800000, flNX) ∧
    compAdd 0x3F800000 0xB3800000 0x33000000 = (0x3F800001, 0x33000000, flNX) ∧
    compAdd 0x3F800001 0x33000000 0x33000000 = (0x3F800001, 0, 0) := by decide +kernel

/-- The fold of element 37 under each of its two draws (*Formats and accumulation*). -/
theorem test_fold : fpFP32.round (some 0x5A3C) (bankValue 0x3F800001 0x33000000) = (0x3F800001, flNX) ∧
    fpFP32.round (some 0xD21F) (bankValue 0x3F800001 0x33000000) = (0x3F800000, flNX) := by decide +kernel

/-- The constants of the sign-rule examples: a weight decay and a step size. -/
def exampleCx (lam eta : FV) : UpdCx :=
  { gmul := .one, exp := 0, ba := .zero, bb := .zero, oma := .one, omb := .one, lam := lam, eps := .zero, clip := .one, eta := eta, fl := 0 }

/-- Step 11 of the weight that reads 1.0: 0x3F7F with remainder 62 (*Training numerics*). -/
theorem test_remainder : (fun x => (x.1, x.2.1)) (writeWeight (exampleCx .zero (.fin false 33 (-14))) false .one .one 0 0) = (0x3F7F, 62) := by decide +kernel

/-- The sign-rule example: v = 1 + 7 × 2^-15 is written as 0x3F80 with remainder 4 (*Update engine*). -/
theorem test_sign_rule : (fun x => (x.1, x.2.1)) (writeWeight (exampleCx (.fin false 1 (-3)) (.fin false 1 (-12))) false .one FV.one.neg 0x1F40 0) = (0x3F80, 4) := by decide +kernel

/-- Check values of the two CRCs for the bytes "123456789". -/
theorem test_crc : crc16 [0x31, 0x32, 0x33, 0x34, 0x35, 0x36, 0x37, 0x38, 0x39] = 0x29B1 ∧
    crc32 [0x31, 0x32, 0x33, 0x34, 0x35, 0x36, 0x37, 0x38, 0x39] = 0xCBF43926 := by decide +kernel

/-- SHA3-256 of no bytes (FIPS 202). -/
theorem test_sha3 : sha3_256 [] = [0xa7, 0xff, 0xc6, 0xf8, 0xbf, 0x1e, 0xd7, 0x66, 0x51, 0xc1, 0x47, 0x56, 0xa0, 0x61, 0xd6, 0x62,
    0xf5, 0x80, 0xff, 0x4d, 0xe4, 0x3b, 0x49, 0xfa, 0x82, 0xd8, 0x0a, 0x4b, 0x80, 0xf8, 0x43, 0x4a] := by decide +kernel

/-! For each statement and each of its clauses, a state and operands that meet the hypotheses. -/

theorem test_witness_EveryStepKeepsTheInvariant_1 : ∃ s, (Safety.Inv s) :=
  ⟨base, base_inv⟩

theorem test_witness_RegisterWriteActsByAccessCode_1 : ∃ s : State, ∃ addr : Addr, ∃ r : RegName, ∃ i : Nat, ∃ j : Nat, (Safety.Inv s) ∧ (inBlocks addr.toNat = true) ∧ (tileOff s addr.toNat = false) ∧ (regAt addr.toNat = some (r, i, j)) ∧ (r ∉ [.MX_CTL, .VX_CTL, .VX_DMA_CTL, .UPD_CTL, .UPD_LIVE, .SCH_CTL, .BELL_RING, .BELL_CQHEAD, .BELL_CFG, .BELL_RINGADDR, .BELL_CQADDR, .CUS_CFG, .CUS_SUBPTR]) ∧ (r ∉ [.CUS_HOSTDONE, .CUS_CTL, .TIDE_PLAN, .CHART_AMEND, .CHART_FLASH, .EN_CTL, .SHD_CTL, .TIER_CTL, .TIER_MIGPTR, .TIER_OBJCTL, .COH_CTL, .D2D_CTL, .HURAL_CFG]) ∧ (r ∉ [.HURAL_CTL, .HM_FW, .HM_SETTAI, .HM_TELDONE, .RST_CTL, .RST_HOSTWD, .SEC_CMD, .SEC_ATTEST, .DBG_OPEN, .DBG_CLOSE, .DBG_HALT, .CLK_MEAS]) :=
  ⟨base, BitVec.ofNat 48 (regAddr .RST_ESC 0 0), .RST_ESC, 0, 0, base_inv, by decide +kernel⟩

theorem test_witness_RegisterAccessFaults_1 : ∃ s : State, ∃ addr : Addr, ∃ size : Nat, (regHole s addr.toNat = false) ∧ (sizeOk addr.toNat size = false) :=
  ⟨base, BitVec.ofNat 48 (regAddr .RST_ESC 0 0), 2, by decide +kernel⟩

theorem test_witness_RegisterAccessFaults_2 : ∃ s : State, ∃ who : Agent, ∃ addr : Addr, (whoOn s who = true) ∧ ((who = .copyDma ∨ (∃ u, who = .engine u) ∨ (∃ n, who = .pcie n) ∨ regHole s addr.toNat = true)) :=
  ⟨base, .copyDma, BitVec.ofNat 48 (regAddr .RST_ESC 0 0), by decide +kernel⟩

theorem test_witness_RegisterAccessFaults_3 : ∃ s : State, ∃ addr : Addr, (inBlocks addr.toNat = false ∨ (inTiles addr.toNat = true ∧ s.chart.cur = none ∧ regAt (addr.toNat / 8 * 8) = none)) :=
  ⟨base, 0xF00001004000, by decide +kernel⟩

/-- The state of the witness below. -/
def at_RegisterAccessFaults_4 : State := charted chart1 base

theorem test_witness_RegisterAccessFaults_4 : ∃ s : State, ∃ addr : Addr, ∃ size : Nat, (tileOff s addr.toNat = true) ∧ (sizeOk addr.toNat size = true) :=
  ⟨at_RegisterAccessFaults_4, 0xF00001020000, 8, by decide +kernel⟩

/-- The state of the witness below. -/
def at_RegisterAccessFaults_5 : State := charted chart1 base

theorem test_witness_RegisterAccessFaults_5 : ∃ s : State, ∃ addr : Addr, ∃ n : Nat, (tileOff s addr.toNat = true) ∧ (sizeOk addr.toNat n = true) :=
  ⟨at_RegisterAccessFaults_5, 0xF00001020000, 8, by decide +kernel⟩

/-- The state of the witness below. -/
def at_ReadClearAndClockCommands_1 : State := { base with hm := { meas := some 1 } }

theorem test_witness_ReadClearAndClockCommands_1 : ∃ s : State, (s.hm.meas.isSome = true) :=
  ⟨at_ReadClearAndClockCommands_1, by decide +kernel⟩

theorem test_witness_ReadClearAndClockCommands_2 : ∃ dom : Fin 26, (dom.val ∈ [1, 16, 17, 18, 19, 21, 22, 23, 24, 25]) :=
  ⟨1, by decide +kernel⟩

/-- The state of the witness below. -/
def at_MarksAndFrames_1 : State := made [setF TIDE_SRC.ROLE 1]

theorem test_witness_MarksAndFrames_1 : ∃ s : State, (isPilot s = true) ∧ (getF s SHD_STAT.ROLE ≠ 3) :=
  ⟨at_MarksAndFrames_1, by decide +kernel⟩

/-- The state of the witness below. -/
def at_MarksAndFrames_2 : State := made [setF TIDE_SRC.MODE 1]

theorem test_witness_MarksAndFrames_2 : ∃ s : State, ∃ f : BitVec 128, (frameOk f = true) ∧ (getF s TIDE_SRC.ROLE = 0) ∧ (s.tide.spareRole = false) ∧ (getF s TIDE_SRC.MODE = 1) :=
  ⟨at_MarksAndFrames_2, tideFrame 5 100 none none 0 false, by decide +kernel⟩

/-- The state of the witness below. -/
def at_MarksAndFrames_3 : State := { base with tide := { spareNow := some true } }

theorem test_witness_MarksAndFrames_3 : ∃ s : State, (getF s TIDE_SRC.ROLE = 0) ∧ (s.tide.spareRole = false) ∧ (s.tide.spareNow = some true) ∧ (s.tide.failIn = 0) :=
  ⟨at_MarksAndFrames_3, by decide +kernel⟩

/-- The state of the witness below. -/
def at_MarksAndFrames_4 : State := { made [setF TIDE_SRC.MODE 1] with tide := { spareNow := some true, failIn := 1 } }

theorem test_witness_MarksAndFrames_4 : ∃ s : State, (getF s TIDE_SRC.ROLE = 0) ∧ (s.tide.spareRole = false) ∧ (s.tide.spareNow = some true) ∧ (s.tide.failIn = 1) ∧ (getF s TIDE_SRC.MODE = 1) :=
  ⟨at_MarksAndFrames_4, by decide +kernel⟩

/-- The state of the witness below. -/
def at_MarksAndFrames_5 : State := { base with tide := { inNow := some false } }

theorem test_witness_MarksAndFrames_5 : ∃ s : State, (getF s TIDE_SRC.ROLE = 0) ∧ (s.tide.spareRole = false) ∧ (s.tide.inNow = some false) ∧ (getF s TIDE_SRC.MODE ≠ 4) :=
  ⟨at_MarksAndFrames_5, by decide +kernel⟩

theorem test_witness_MarksAndFrames_6 : ∃ s : State, (isPilot s = false) :=
  ⟨base, by decide +kernel⟩

theorem test_witness_TideFramesReadBack_1 : ∃ token : Option SetNo, ∃ t, (token = some t) :=
  ⟨some 3, (((some 3 : Option SetNo))).get (by decide), by decide +kernel⟩

theorem test_witness_TideFramesReadBack_2 : ∃ dark : Option Nat, ∃ b, (dark = some b) :=
  ⟨some 3, (((some 3 : Option Nat))).get (by decide), by decide +kernel⟩

/-- The state of the witness below. -/
def at_SlipsAndPlans_1 : State := { base with tide := { grace := true } }

theorem test_witness_SlipsAndPlans_1 : ∃ s : State, (s.tide.grace = true) :=
  ⟨at_SlipsAndPlans_1, by decide +kernel⟩

theorem test_witness_SlipsAndPlans_2 : ∃ u : Nat, (u < 516) :=
  ⟨515, by decide +kernel⟩

/-- The state of the witness below. -/
def at_SlipsAndPlans_3 : State := made [setF TIDE_UNIT.CONSEC 2 515]

theorem test_witness_SlipsAndPlans_3 : ∃ s : State, ∃ u : Nat, (u < 516) ∧ (getF s TIDE_UNIT.CONSEC u = 2) :=
  ⟨at_SlipsAndPlans_3, 515, by decide +kernel⟩

/-- The state of the witness below. -/
def at_SlipsAndPlans_4 : State := { charted chart1 base with tide := { takeDue := true, parts := [(0, { sampled := some 64 })] } }

theorem test_witness_SlipsAndPlans_4 : ∃ s : State, ∃ p : Nat, ∃ a : Addr, (s.tide.takeDue = true) ∧ (p < 64) ∧ (((theChart s).parts.map (fun e => e.part)).count p = 1) ∧ (isHeld s 1 = false) ∧ (isHeld s 7 = false) ∧ ((partSt s p).slip = false) ∧ ((partSt s p).sampled = some a) :=
  ⟨at_SlipsAndPlans_4, 0, ((partSt (at_SlipsAndPlans_4) ((0 : Nat))).sampled).get (by decide), by decide +kernel⟩

theorem test_witness_SlipsAndPlans_5 : ∃ s : State, ∃ p : Fin 64, (planPending s p.val = false) :=
  ⟨base, 0, by decide +kernel⟩

/-- The state of the witness below. -/
def at_SlipsAndPlans_6 : State := queued { cmds := [{ entry := entry [(4, 1, 3)], index := 0, st := .planned }] } (made [setF TIDE_PLAN.VALID 1])

theorem test_witness_SlipsAndPlans_6 : ∃ s : State, ∃ p : Fin 64, (planPending s p.val = true) :=
  ⟨at_SlipsAndPlans_6, 0, by decide +kernel⟩

/-- The state of the witness below. -/
def at_ReadyReportsAndDeferredCommits_1 : State := { base with tide := { sets := [{ set := 1 }] } }

theorem test_witness_ReadyReportsAndDeferredCommits_1 : ∃ s : State, ∃ x : SetSt, (x ∈ s.tide.sets) ∧ (x.reported = false) ∧ (x.due = true) ∧ (setDone s x = true) ∧ (isCommitted s x.set = false) ∧ (mirrorsOpen s = false) ∧ (pilots s = [ownBerth s]) ∧ (getF s SHD_STAT.ROLE ≠ 3) :=
  ⟨at_ReadyReportsAndDeferredCommits_1, { set := 1 }, by decide +kernel⟩

/-- The state of the witness below. -/
def at_ReadyReportsAndDeferredCommits_2 : State := { base with hural := { inbox := [(3, { op := 0x10, src := 1, dst := 0, addr := 7 }, 0)] } }

theorem test_witness_ReadyReportsAndDeferredCommits_2 : ∃ s : State, ∃ n : Fin 19, ∃ e : Nat × HMsg × Nat, (s.hural.inbox.find? (fun e => decide (e.1 = n.val) && decide (e.2.1.op = 0x10)) = some e) :=
  ⟨at_ReadyReportsAndDeferredCommits_2, 3, ((at_ReadyReportsAndDeferredCommits_2).hural.inbox.find? (fun e => decide (e.1 = ((3 : Fin 19)).val) && decide (e.2.1.op = 0x10))).get (by decide), by decide +kernel⟩

/-- The state of the witness below. -/
def at_ReadyReportsAndDeferredCommits_3 : State := { made [setF TIDE_SRC.ROLE 1] with tide := { ready := [(0, 0)] } }

theorem test_witness_ReadyReportsAndDeferredCommits_3 : ∃ s : State, ∃ set : SetNo, (isPilot s = true) ∧ (readyThrough s set = true) ∧ (isCommitted s set = false) ∧ (s.tide.crossSets.any (fun e => decide (e.1 = set)) = false) :=
  ⟨at_ReadyReportsAndDeferredCommits_3, 0, by decide +kernel⟩

/-- The state of the witness below. -/
def at_ReadyReportsAndDeferredCommits_4 : State := made [setF TIDE_SRC.ROLE 1]

theorem test_witness_ReadyReportsAndDeferredCommits_4 : ∃ s : State, ∃ f : Nat, ∃ set : SetNo, (isPilot s = true) ∧ (isCommitted s set = false) ∧ (f ≠ ownFlotilla) :=
  ⟨at_ReadyReportsAndDeferredCommits_4, 2, 0, by decide +kernel⟩

/-- The state of the witness below. -/
def at_ReadyReportsAndDeferredCommits_5 : State := { base with upd := { delayed := [(0, [])] } }

theorem test_witness_ReadyReportsAndDeferredCommits_5 : ∃ s : State, ∃ g : Fin 256, ∃ l : List FlipReader, (Cells.look s.upd.delayed g.val = some l) :=
  ⟨at_ReadyReportsAndDeferredCommits_5, 0, (Cells.look (at_ReadyReportsAndDeferredCommits_5).upd.delayed ((0 : Fin 256)).val).get (by decide), by decide +kernel⟩

theorem test_witness_ChartAmendments_1 : ∃ s : State, (getF s CHART_STAT.STATE ≠ 2) ∧ (getF s CHART_STAT.AMEND ∉ [1, 2, 3]) :=
  ⟨base, by decide +kernel⟩

/-- The state of the witness below. -/
def at_ChartAmendments_2 : State := made [setF CHART_STAT.AMEND 1]

theorem test_witness_ChartAmendments_2 : ∃ s : State, (getF s CHART_STAT.STATE ≠ 2) ∧ (getF s CHART_STAT.AMEND ∈ [1, 2, 3]) :=
  ⟨at_ChartAmendments_2, by decide +kernel⟩

/-- The state of the witness below. -/
def at_ChartAmendments_4 : State := { base with chart := { checking := some 0 } }

theorem test_witness_ChartAmendments_4 : ∃ s : State, ∃ a : Addr, ∃ r : Nat, (s.chart.checking = some a) ∧ (chartCheck (chartCx s true) (readImage s a) = r) ∧ (r ≠ 0) :=
  ⟨at_ChartAmendments_4, ((at_ChartAmendments_4).chart.checking).get (by decide), chartCheck (chartCx (at_ChartAmendments_4) true) (readImage (at_ChartAmendments_4) ((((at_ChartAmendments_4).chart.checking).get (by decide) : Addr))), by decide +kernel⟩

/-- The state of the witness below. -/
def at_ChartAmendments_5 : State := made [setF CHART_STAT.AMEND 2, setF CHART_EFFECT.TIDE 9]

theorem test_witness_ChartAmendments_5 : ∃ s : State, (getF s CHART_STAT.AMEND = 2) ∧ (firstBoundary s ≤ getF s CHART_EFFECT.TIDE) :=
  ⟨at_ChartAmendments_5, by decide +kernel⟩

/-- The state of the witness below. -/
def at_ChartAmendments_6 : State := { made [setF TIDE_COUNT.COUNT 1024] with chart := { staged := some { sections := [(1, [])] } } }

theorem test_witness_ChartAmendments_6 : ∃ s : State, ∃ c : Chart, (s.chart.staged = some c) ∧ (c.sections.any (fun e => isClassD e.1) = true) ∧ (getF s CHART_EFFECT.TIDE + 1024 ≤ getF s TIDE_COUNT.COUNT) :=
  ⟨at_ChartAmendments_6, ((at_ChartAmendments_6).chart.staged).get (by decide), by decide +kernel⟩

theorem test_witness_ChartFlash_1 : ∃ s : State, (getF s CHART_STAT.FLASH ≠ 1) :=
  ⟨base, by decide +kernel⟩

/-- The state of the witness below. -/
def at_ChartFlash_2 : State := made [setF CHART_STAT.FLASH 1]

theorem test_witness_ChartFlash_2 : ∃ s : State, (getF s CHART_STAT.FLASH = 1) :=
  ⟨at_ChartFlash_2, by decide +kernel⟩

/-- The state of the witness below. -/
def at_ChartFlash_3 : State := { base with chart := { flashAddr := some 0 } }

theorem test_witness_ChartFlash_3 : ∃ s : State, ∃ a : Addr, ∃ r : Nat, (s.chart.flashAddr = some a) ∧ (chartCheck (chartCx s false) (readImage s a) = r) :=
  ⟨at_ChartFlash_3, ((at_ChartFlash_3).chart.flashAddr).get (by decide), chartCheck (chartCx (at_ChartFlash_3) false) (readImage (at_ChartFlash_3) ((((at_ChartFlash_3).chart.flashAddr).get (by decide) : Addr))), by decide +kernel⟩

/-- The state of the witness below. -/
def at_ChartFlash_4 : State := { base with chart := { flashImage := some [1], loadedB := some true } }

theorem test_witness_ChartFlash_4 : ∃ s : State, ∃ b : Bool, ∃ img : List Byte, (s.chart.flashImage = some img) ∧ (s.chart.loadedB = some b) :=
  ⟨at_ChartFlash_4, ((at_ChartFlash_4).chart.loadedB).get (by decide), ((at_ChartFlash_4).chart.flashImage).get (by decide), by decide +kernel⟩

/-- The state of the witness below. -/
def at_NopsResumesAndStreamWraps_1 : State := tile0 { mx := { queue := [item [(64, 9)]] } }

theorem test_witness_NopsResumesAndStreamWraps_1 : ∃ s : State, ∃ u : Fin 512, ∃ d : Desc, (headItem s u .mx = some d) ∧ (dOpcode d = 0) ∧ (waitMet s u d = true) :=
  ⟨at_NopsResumesAndStreamWraps_1, 0, (headItem (at_NopsResumesAndStreamWraps_1) ((0 : Fin 512)) .mx).get (by decide), by decide +kernel⟩

/-- The state of the witness below. -/
def at_NopsResumesAndStreamWraps_2 : State := tile0 { mx := { halted := some (item [(0, 0x10)]) } }

theorem test_witness_NopsResumesAndStreamWraps_2 : ∃ s : State, ∃ u : Fin 512, ∃ d : Desc, ((getTile s u).mx.halted = some d) :=
  ⟨at_NopsResumesAndStreamWraps_2, 0, ((getTile (at_NopsResumesAndStreamWraps_2) ((0 : Fin 512))).mx.halted).get (by decide), by decide +kernel⟩

/-- The state of the witness below. -/
def at_NopsResumesAndStreamWraps_3 : State := tile0 { streams := [(2, { block := 2 ^ 27 })] }

theorem test_witness_NopsResumesAndStreamWraps_3 : ∃ s : State, ∃ u : Fin 512, ∃ n : Fin 8, (2 ^ 27 ≤ (tileStream s u n).block) :=
  ⟨at_NopsResumesAndStreamWraps_3, 0, 2, by decide +kernel⟩

/-- The state of the witness below. -/
def at_MatrixEngine_1 : State := tile0 { mx := { queue := [item [(0, 0x10), (16, 0xA), (0xC0, 32), (0xE0, 64), (0x100, 64), (0x120, 32), (0x128, 32)]] } }

theorem test_witness_MatrixEngine_1 : ∃ s : State, ∃ u : Fin 512, ∃ d : Desc, (headItem s u .mx = some d) ∧ (dOpcode d = 0x10) ∧ (waitMet s u d = true) ∧ ((theChart s).role u ≠ 2) ∧ (bankReady (getTile s u) d = true) ∧ (mxFaultCode d ((getTile s u).bank (dBank d)) = 0) :=
  ⟨at_MatrixEngine_1, 0, (headItem (at_MatrixEngine_1) ((0 : Fin 512)) .mx).get (by decide), by decide +kernel⟩

/-- The state of the witness below. -/
def at_MatrixEngine_2 : State := charted chart1 { base with tiles := [(1, { mx := { queue := [item [(0, 0x10), (16, 0xA), (0xC0, 32), (0xE0, 64), (0x100, 64), (0x120, 32), (0x128, 32)]] } })] }

theorem test_witness_MatrixEngine_2 : ∃ s : State, ∃ u : Fin 512, ∃ d : Desc, (headItem s u .mx = some d) ∧ (dOpcode d = 0x10) ∧ (waitMet s u d = true) ∧ ((theChart s).role u = 2) :=
  ⟨at_MatrixEngine_2, 1, (headItem (at_MatrixEngine_2) ((1 : Fin 512)) .mx).get (by decide), by decide +kernel⟩

/-- The state of the witness below. -/
def at_MatrixEngine_3 : State := tile0 { mx := { queue := [item [(0, 0x10), (16, 0xA)]] } }

theorem test_witness_MatrixEngine_3 : ∃ s : State, ∃ u : Fin 512, ∃ d : Desc, ∃ c : Nat, (headItem s u .mx = some d) ∧ (dOpcode d = 0x10) ∧ (waitMet s u d = true) ∧ ((theChart s).role u ≠ 2) ∧ (bankReady (getTile s u) d = true) ∧ (mxFaultCode d ((getTile s u).bank (dBank d)) = c) ∧ (0 < c) :=
  ⟨at_MatrixEngine_3, 0, (headItem (at_MatrixEngine_3) ((0 : Fin 512)) .mx).get (by decide), mxFaultCode (((headItem (at_MatrixEngine_3) ((0 : Fin 512)) .mx).get (by decide) : Desc)) ((getTile (at_MatrixEngine_3) ((0 : Fin 512))).bank (dBank (((headItem (at_MatrixEngine_3) ((0 : Fin 512)) .mx).get (by decide) : Desc)))), by decide +kernel⟩

/-- The state of the witness below. -/
def at_MatrixEngine_4 : State := tile0 { mx := { run := [{ desc := item [(0, 0x10), (16, 0xA), (0xC0, 256), (0x148, 1)] }] }, bankA := { st := .filling } }

theorem test_witness_MatrixEngine_4 : ∃ s : State, ∃ u : Fin 512, ∃ b : Fin 2, ∃ r : RunItem, ∃ k : Nat, (tileRuns s u = true) ∧ ((runsOn (getTile s u) b).head? = some r) ∧ (foldDue ((getTile s u).bank b) r = some k) :=
  ⟨at_MatrixEngine_4, 0, 0, ((runsOn (getTile (at_MatrixEngine_4) ((0 : Fin 512))) ((0 : Fin 2))).head?).get (by decide), (foldDue ((getTile (at_MatrixEngine_4) ((0 : Fin 512))).bank ((0 : Fin 2))) ((((runsOn (getTile (at_MatrixEngine_4) ((0 : Fin 512))) ((0 : Fin 2))).head?).get (by decide) : RunItem))).get (by decide), by decide +kernel⟩

/-- The state of the witness below. -/
def at_MatrixEngine_5 : State := tile0 { mx := { run := [{ desc := item [(0, 0x10), (16, 0xA), (0xC0, 32), (0xE0, 64), (0x100, 64), (0x120, 32), (0x128, 32)] }] }, bankA := { st := .filling } }

theorem test_witness_MatrixEngine_5 : ∃ s : State, ∃ u : Fin 512, ∃ r : RunItem, ∃ rest : List RunItem, (tileRuns s u = true) ∧ ((getTile s u).mx.run = r :: rest) ∧ (foldDue ((getTile s u).bank (dBank r.desc)) r = none) :=
  ⟨at_MatrixEngine_5, 0, ((getTile (at_MatrixEngine_5) ((0 : Fin 512))).mx.run).head (by decide), ((getTile (at_MatrixEngine_5) ((0 : Fin 512))).mx.run).tail, by decide +kernel⟩

/-- The state of the witness below. -/
def at_PassesAndVerdicts_1 : State := { base with num := { reports := [{ unit := 0, part := 0, layer := 1, pass := some 4, flags := 0, nonfinite := false, rows := [] }], passes := [(layerKey 0 1, some { id := 4, rung := 0, fmt0 := 0, dir := false, gate := 0, items := 2, rep1 := 0, rep2 := 0 })] } }

theorem test_witness_PassesAndVerdicts_1 : ∃ s : State, ∃ u : Fin 512, ∃ r : Report, ∃ x : PassSt, (s.num.reports.find? (fun r => decide (r.unit = u.val)) = some r) ∧ (passOf s r.part r.layer = some x) ∧ (r.pass = some x.id) ∧ (x.ended = false) :=
  ⟨at_PassesAndVerdicts_1, 0, ((at_PassesAndVerdicts_1).num.reports.find? (fun r => decide (r.unit = ((0 : Fin 512)).val))).get (by decide), (passOf (at_PassesAndVerdicts_1) ((((at_PassesAndVerdicts_1).num.reports.find? (fun r => decide (r.unit = ((0 : Fin 512)).val))).get (by decide) : Report)).part ((((at_PassesAndVerdicts_1).num.reports.find? (fun r => decide (r.unit = ((0 : Fin 512)).val))).get (by decide) : Report)).layer).get (by decide), by decide +kernel⟩

/-- The state of the witness below. -/
def at_PassesAndVerdicts_2 : State := { base with num := { reports := [{ unit := 0, part := 0, layer := 1, pass := none, flags := 1, nonfinite := false, rows := [] }] } }

theorem test_witness_PassesAndVerdicts_2 : ∃ s : State, ∃ u : Fin 512, ∃ r : Report, (s.num.reports.find? (fun r => decide (r.unit = u.val)) = some r) ∧ (passOf s r.part r.layer = none) ∧ (r.flags ≠ 0) :=
  ⟨at_PassesAndVerdicts_2, 0, ((at_PassesAndVerdicts_2).num.reports.find? (fun r => decide (r.unit = ((0 : Fin 512)).val))).get (by decide), by decide +kernel⟩

/-- The state of the witness below. -/
def at_PassesAndVerdicts_3 : State := { base with num := { passes := [(layerKey 0 1, some { id := 4, rung := 0, fmt0 := 0, dir := false, gate := 0, items := 2, rep1 := 0, rep2 := 0, ended := true })] } }

theorem test_witness_PassesAndVerdicts_3 : ∃ s : State, ∃ p : Fin 64, ∃ l : BitVec 16, ∃ x : PassSt, (passOf s p l.toNat = some x) ∧ (x.ended = true) ∧ (x.decided = false) ∧ (x.repeating = false) ∧ (x.clean = true) :=
  ⟨at_PassesAndVerdicts_3, 0, 1, (passOf (at_PassesAndVerdicts_3) ((0 : Fin 64)) ((1 : BitVec 16)).toNat).get (by decide), by decide +kernel⟩

/-- The state of the witness below. -/
def at_PassesAndVerdicts_4 : State := { base with num := { passes := [(layerKey 0 1, some { id := 4, rung := 0, fmt0 := 1, dir := false, gate := 0, items := 2, rep1 := 5, rep2 := 0, ended := true, nonfinite := true })] } }

theorem test_witness_PassesAndVerdicts_4 : ∃ s : State, ∃ p : Fin 64, ∃ l : BitVec 16, ∃ x : PassSt, (passOf s p l.toNat = some x) ∧ (x.ended = true) ∧ (x.decided = false) ∧ (x.repeating = false) ∧ (x.clean = false) :=
  ⟨at_PassesAndVerdicts_4, 0, 1, (passOf (at_PassesAndVerdicts_4) ((0 : Fin 64)) ((1 : BitVec 16)).toNat).get (by decide), by decide +kernel⟩

/-- The state of the witness below. -/
def at_PassesAndVerdicts_5 : State := { base with num := { passes := [(layerKey 0 1, some { id := 4, rung := 0, fmt0 := 0, dir := false, gate := 0, items := 2, rep1 := 0, rep2 := 0, repeating := true })] } }

theorem test_witness_PassesAndVerdicts_5 : ∃ s : State, ∃ p : Fin 64, ∃ l : BitVec 16, ∃ x : PassSt, (passOf s p l.toNat = some x) ∧ (x.repeating = true) ∧ (x.fetched = false) :=
  ⟨at_PassesAndVerdicts_5, 0, 1, (passOf (at_PassesAndVerdicts_5) ((0 : Fin 64)) ((1 : BitVec 16)).toNat).get (by decide), by decide +kernel⟩

/-- The state of the witness below. -/
def at_PassesAndVerdicts_6 : State := tile0 { verdicts := [{ layer := 1, pass := 4, clean := true, gate := 0 }] }

theorem test_witness_PassesAndVerdicts_6 : ∃ s : State, ∃ u : Fin 512, ∃ v : Delivery, ∃ vs : List Delivery, ((getTile s u).verdicts = v :: vs) :=
  ⟨at_PassesAndVerdicts_6, 0, ((getTile (at_PassesAndVerdicts_6) ((0 : Fin 512))).verdicts).head (by decide), ((getTile (at_PassesAndVerdicts_6) ((0 : Fin 512))).verdicts).tail, by decide +kernel⟩

/-- The state of the witness below. -/
def at_NumericsWatch_1 : State := tile0 { samples := [{ desc := 0, aexp := 0, bexp := 0, part := 0, pass := none, running := false, s := [], e := [], int := false }] }

theorem test_witness_NumericsWatch_1 : ∃ s : State, ∃ u : Fin 512, ∃ x : Sample, ∃ xs : List Sample, (tileRuns s u = true) ∧ (vxIdle s u = true) ∧ ((getTile s u).samples = x :: xs) ∧ ((getTile s u).samples.any (fun y => y.running) = false) :=
  ⟨at_NumericsWatch_1, 0, ((getTile (at_NumericsWatch_1) ((0 : Fin 512))).samples).head (by decide), ((getTile (at_NumericsWatch_1) ((0 : Fin 512))).samples).tail, by decide +kernel⟩

/-- The state of the witness below. -/
def at_NumericsWatch_2 : State := tile0 { samples := [{ desc := 0, aexp := 0, bexp := 0, part := 0, pass := none, running := true, s := [], e := [], int := false }] }

theorem test_witness_NumericsWatch_2 : ∃ s : State, ∃ u : Fin 512, ∃ x : Sample, (tileRuns s u = true) ∧ ((getTile s u).samples.find? (fun y => y.running) = some x) :=
  ⟨at_NumericsWatch_2, 0, ((getTile (at_NumericsWatch_2) ((0 : Fin 512))).samples.find? (fun y => y.running)).get (by decide), by decide +kernel⟩

/-- The state of the witness below. -/
def at_NumericsWatch_3 : State := tile0 { samples := [{ desc := 0, aexp := 0, bexp := 0, part := 0, pass := none, running := false, s := [], e := [], int := false }] }

theorem test_witness_NumericsWatch_3 : ∃ s : State, ∃ u : Fin 512, (tileRuns s u = true) ∧ ((getTile s u).samples ≠ []) :=
  ⟨at_NumericsWatch_3, 0, by decide +kernel⟩

/-- The state of the witness below. -/
def at_ElementItems_1 : State := tile0 { vx := { queue := [item [(0, 0x40), (8, 9), (12, 9), (16, 9), (0x88, 2), (0x98, 4), (0xA8, 1), (0xB0, 1)]] } }

theorem test_witness_ElementItems_1 : ∃ c, ∃ s : State, ∃ u : Fin 512, ∃ d : Desc, (c ∈ ([(.add, 0x40), (.sub, 0x41), (.mul, 0x42), (.fma, 0x43), (.max, 0x44), (.min, 0x45), (.abs, 0x46), (.neg, 0x47), (.selgt, 0x48), (.cvt, 0x49), (.exp2, 0x50), (.log2, 0x51), (.recip, 0x52), (.rsqrt, 0x53), (.sqrt, 0x54), (.tanh, 0x55), (.rsum, 0x58), (.rmax, 0x59), (.csum, 0x5A)] : List ((Fin 512 → Instr) × Nat))) ∧ (headItem s u .vx = some d) ∧ (dOpcode d = c.2) ∧ (waitMet s u d = true) ∧ (vecBankReady (getTile s u) d = true) ∧ (vxFaultCode d (fun b => (getTile s u).bank b) = 0) :=
  ⟨(.add, 0x40), at_ElementItems_1, 0, (headItem (at_ElementItems_1) ((0 : Fin 512)) .vx).get (by decide), by decide +kernel⟩

theorem test_witness_ElementResults_1 : ∃ o, (0x50 ≤ o) ∧ (o ≤ 0x55) :=
  ⟨0x55, by decide +kernel⟩

theorem test_witness_ElementResults_2 : ∃ m, (m ≠ 0) :=
  ⟨1, by decide +kernel⟩

/-- The state of the witness below. -/
def at_VectorWriteOutAndCompletion_1 : State := tile0 { vx := { queue := [item [(0, 0x62), (0x80, 8)]] }, bankA := { st := .full } }

theorem test_witness_VectorWriteOutAndCompletion_1 : ∃ c, ∃ s : State, ∃ u : Fin 512, ∃ d : Desc, (c ∈ ([(.out, 0x60, fun s u d => writeElems (getTile s u).bufs (vDst d) (dDfmt d) (outWrites (Config.freeValue s.free) s u d)), (.spill, 0x61, fun s u d => putBytes (getTile s u).bufs [(0x1000 * vDst d, spillImage (spilled (getTile s u) d))]), (.free, 0x62, fun s u _ => (getTile s u).bufs), (.win, 0x70, fun s u d => writeElems (getTile s u).bufs (wDst d) (dDfmt d) (winWrites (Config.freeValue s.free) (getTile s u) d))] : List ((Fin 512 → Instr) × Nat × (State → Nat → Desc → FMap Byte)))) ∧ (headItem s u .vx = some d) ∧ (dOpcode d = c.2.1) ∧ (waitMet s u d = true) ∧ (vecBankReady (getTile s u) d = true) ∧ (vxFaultCode d (fun b => (getTile s u).bank b) = 0) :=
  ⟨(.free, 0x62, fun s u _ => (getTile s u).bufs), at_VectorWriteOutAndCompletion_1, 0, (headItem (at_VectorWriteOutAndCompletion_1) ((0 : Fin 512)) .vx).get (by decide), by simp, by decide +kernel, by decide +kernel, by decide +kernel, by decide +kernel, by decide +kernel⟩

theorem test_witness_VectorWriteOutAndCompletion_2 : ∃ n, (n < 1024) :=
  ⟨0, by decide +kernel⟩

/-- The state of the witness below. -/
def at_VectorWriteOutAndCompletion_3 : State := tile0 { vx := { queue := [item [(0, 0x10)]] } }

theorem test_witness_VectorWriteOutAndCompletion_3 : ∃ c, ∃ s : State, ∃ u : Fin 512, ∃ d : Desc, (c ∈ ([.add, .sub, .mul, .fma, .max, .min, .abs, .neg, .selgt, .cvt, .exp2, .log2, .recip, .rsqrt, .sqrt, .tanh, .rsum, .rmax, .csum, .out, .spill, .free, .win] : List (Fin 512 → Instr))) ∧ (headItem s u .vx = some d) ∧ (isVecOp (dOpcode d) = false) ∧ (waitMet s u d = true) :=
  ⟨.add, at_VectorWriteOutAndCompletion_3, 0, (headItem (at_VectorWriteOutAndCompletion_3) ((0 : Fin 512)) .vx).get (by decide), by decide +kernel⟩

/-- The state of the witness below. -/
def at_VectorWriteOutAndCompletion_4 : State := tile0 { vx := { run := [{ desc := item [(0, 0x40)] }] } }

theorem test_witness_VectorWriteOutAndCompletion_4 : ∃ s : State, ∃ u : Fin 512, ∃ r : RunItem, ∃ rest : List RunItem, (tileRuns s u = true) ∧ ((getTile s u).vx.run = r :: rest) :=
  ⟨at_VectorWriteOutAndCompletion_4, 0, ((getTile (at_VectorWriteOutAndCompletion_4) ((0 : Fin 512))).vx.run).head (by decide), ((getTile (at_VectorWriteOutAndCompletion_4) ((0 : Fin 512))).vx.run).tail, by decide +kernel⟩

/-- The state of the witness below. -/
def at_VectorWriteOutAndCompletion_5 : State := tile0 { vx := { halted := some (item [(0, 0x40)]) } }

theorem test_witness_VectorWriteOutAndCompletion_5 : ∃ s : State, ∃ u : Fin 512, ∃ d : Desc, ((getTile s u).vx.halted = some d) :=
  ⟨at_VectorWriteOutAndCompletion_5, 0, ((getTile (at_VectorWriteOutAndCompletion_5) ((0 : Fin 512))).vx.halted).get (by decide), by decide +kernel⟩

/-- The state of the witness below. -/
def at_TileDma_1 : State := tile0 { dma := { queue := [item [(0, 0x80), (0x100, 1), (0x120, 64), (0x10 * 8 + 60, 2), (0x18 * 8, 64), (0x18 * 8 + 60, 2)]] } }

theorem test_witness_TileDma_1 : ∃ c, ∃ s : State, ∃ u : Fin 512, ∃ d : Desc, ∃ j : DmaJob, (c ∈ ([(.copy, fun d => decide (dOpcode d = 0x80), fun d pick s u => copyJob pick s u d), (.lowerMatrixRows, fun d => decide (dOpcode d = 0x88) && decide (lMode d = 0), fun d pick s u => lowerRowsJob pick s u d), (.lowerWindowLine, fun d => decide (dOpcode d = 0x88) && decide (lMode d = 1), fun d pick s u => lowerLineJob pick s u d)] : List ((Fin 512 → Instr) × (Desc → Bool) × (Desc → (Nat → Nat) → State → Nat → DmaJob)))) ∧ (headItem s u .dma = some d) ∧ (c.2.1 d = true) ∧ ((getTile s u).dma.run = []) ∧ (waitMet s u d = true) ∧ (flipWaits s u d = false) ∧ (dmaFaultCode u d = 0) ∧ (fetchMissing s (.unit u) (dmaPieces d) = []) ∧ (fetchDue s (.unit u) = false) ∧ (c.2.2 d (fetchPick s (.unit u) (Config.freeValue s.free)) s u = j) ∧ (j.stall = none) ∧ (j.fault = none) ∧ (watchHolds (getTile s u) j = false) :=
  ⟨(.copy, fun d => decide (dOpcode d = 0x80), fun d pick s u => copyJob pick s u d), at_TileDma_1, 0, (headItem (at_TileDma_1) ((0 : Fin 512)) .dma).get (by decide), copyJob (fetchPick at_TileDma_1 (.unit 0) (Config.freeValue at_TileDma_1.free)) at_TileDma_1 0 (item [(0, 0x80), (0x100, 1), (0x120, 64), (0x10 * 8 + 60, 2), (0x18 * 8, 64), (0x18 * 8 + 60, 2)]), by simp, by decide +kernel, by decide +kernel, by decide +kernel, by decide +kernel, by decide +kernel, by decide +kernel, by decide +kernel, by decide +kernel, rfl, by decide +kernel, by decide +kernel, by decide +kernel⟩

/-- The state of the witness below. -/
def at_TileDma_2 : State := tile0 { dma := { queue := [item [(0, 0x80)]] } }

theorem test_witness_TileDma_2 : ∃ c, ∃ s : State, ∃ u : Fin 512, ∃ d : Desc, (c ∈ ([(.copy, fun d => decide (dOpcode d = 0x80)), (.lowerMatrixRows, fun d => decide (dOpcode d = 0x88) && decide (lMode d = 0)), (.lowerWindowLine, fun d => decide (dOpcode d = 0x88) && decide (lMode d = 1))] : List ((Fin 512 → Instr) × (Desc → Bool)))) ∧ (headItem s u .dma = some d) ∧ ((c.2 d = true ∨ (dOpcode d ≠ 0x80 ∧ dOpcode d ≠ 0x88))) ∧ ((getTile s u).dma.run = []) ∧ (waitMet s u d = true) ∧ (flipWaits s u d = false) ∧ (dmaFaultCode u d ≠ 0) :=
  ⟨(.copy, fun d => decide (dOpcode d = 0x80)), at_TileDma_2, 0, (headItem (at_TileDma_2) ((0 : Fin 512)) .dma).get (by decide), by simp, by decide +kernel, by decide +kernel, by decide +kernel, by decide +kernel, by decide +kernel, by decide +kernel⟩

/-- The state of the witness below. -/
def at_TileDma_3 : State := tile0 { dma := { run := [{ desc := item [(0, 0x80)] }] } }

theorem test_witness_TileDma_3 : ∃ s : State, ∃ u : Fin 512, ∃ r : RunItem, ∃ rest : List RunItem, (tileRuns s u = true) ∧ ((getTile s u).dma.run = r :: rest) ∧ (putsOpen s u = false) :=
  ⟨at_TileDma_3, 0, ((getTile (at_TileDma_3) ((0 : Fin 512))).dma.run).head (by decide), ((getTile (at_TileDma_3) ((0 : Fin 512))).dma.run).tail, by decide +kernel⟩

/-- The state of the witness below. -/
def at_TileDma_4 : State := tile0 { dma := { halted := some (item [(0, 0x80)]) } }

theorem test_witness_TileDma_4 : ∃ s : State, ∃ u : Fin 512, ∃ d : Desc, ((getTile s u).dma.halted = some d) :=
  ⟨at_TileDma_4, 0, ((getTile (at_TileDma_4) ((0 : Fin 512))).dma.halted).get (by decide), by decide +kernel⟩

/-- The state of the witness below. -/
def at_UpdateItems_1 : State := { stored 0x100000 (image 64 [(0, 2, 0x11), (0x20, 8, 0x200000), (0x28, 8, 0x300000)]) (made [setF UPD_GROUPTAB.ADDR 0x4000]) with upd := { queue := [{ desc := item [(0, 0xC0), (8, 9), (24, 1), (0x14 * 8, 2), (0x18 * 8, 4), (0x20 * 8, 0x400000), (16, 9)], setv := true, set := 1 }] } }

theorem test_witness_UpdateItems_1 : ∃ s : State, ∃ s1 : State, ∃ i : UpdItem, ∃ e : Group, (s.upd.run = none) ∧ (updHead s = some i) ∧ (dOpcode i.desc = 0xC0) ∧ (updFaultCode s i = 0) ∧ ((groupEnt s (uGroup i.desc)).frozen = false) ∧ (updWaitsPend s i = false) ∧ (s1 = run (pendStart i) (run (updBegin i) s)) ∧ (e = groupEnt s1 (uGroup i.desc)) ∧ (rangesStop s1 false (updReads s1 i.desc e) = (none, none)) ∧ (fetchClear s1 (.unit 512) (rangePieces (updReads s1 i.desc e)) = true) ∧ (rangesStop s1 true (Safety.updTargets s1 i.desc e) = (none, none)) :=
  ⟨at_UpdateItems_1, run (pendStart (({ desc := item [(0, 0xC0), (8, 9), (24, 1), (0x14 * 8, 2), (0x18 * 8, 4), (0x20 * 8, 0x400000), (16, 9)], setv := true, set := 1 } : UpdItem))) (run (updBegin (({ desc := item [(0, 0xC0), (8, 9), (24, 1), (0x14 * 8, 2), (0x18 * 8, 4), (0x20 * 8, 0x400000), (16, 9)], setv := true, set := 1 } : UpdItem))) (at_UpdateItems_1)), { desc := item [(0, 0xC0), (8, 9), (24, 1), (0x14 * 8, 2), (0x18 * 8, 4), (0x20 * 8, 0x400000), (16, 9)], setv := true, set := 1 }, groupEnt ((run (pendStart (({ desc := item [(0, 0xC0), (8, 9), (24, 1), (0x14 * 8, 2), (0x18 * 8, 4), (0x20 * 8, 0x400000), (16, 9)], setv := true, set := 1 } : UpdItem))) (run (updBegin (({ desc := item [(0, 0xC0), (8, 9), (24, 1), (0x14 * 8, 2), (0x18 * 8, 4), (0x20 * 8, 0x400000), (16, 9)], setv := true, set := 1 } : UpdItem))) (at_UpdateItems_1)) : State)) (uGroup (({ desc := item [(0, 0xC0), (8, 9), (24, 1), (0x14 * 8, 2), (0x18 * 8, 4), (0x20 * 8, 0x400000), (16, 9)], setv := true, set := 1 } : UpdItem)).desc), by decide +kernel⟩

/-- The state of the witness below. -/
def at_UpdateItems_2 : State := { stored 0x100000 (image 64 [(0, 2, 0x13), (0x20, 8, 0x200000), (0x28, 8, 0x300000)]) (made [setF UPD_GROUPTAB.ADDR 0x4000]) with upd := { queue := [{ desc := item [(0, 0xC0), (8, 9), (24, 1), (0x14 * 8, 2), (0x18 * 8, 4), (0x20 * 8, 0x400000), (16, 9)], setv := true, set := 1 }] } }

theorem test_witness_UpdateItems_2 : ∃ s : State, ∃ i : UpdItem, (s.upd.run = none) ∧ (updHead s = some i) ∧ (dOpcode i.desc = 0xC0) ∧ (updFaultCode s i = 0) ∧ ((groupEnt s (uGroup i.desc)).frozen = true) :=
  ⟨at_UpdateItems_2, (updHead (at_UpdateItems_2)).get (by decide), by decide +kernel⟩

/-- The state of the witness below. -/
def at_UpdateItems_3 : State := { stored 0x100000 (image 64 [(0, 2, 0x11), (0x20, 8, 0x200000), (0x28, 8, 0x300000)]) (made [setF UPD_GROUPTAB.ADDR 0x4000]) with upd := { queue := [{ desc := item [(0, 0xC1), (8, 9), (24, 1), (0x14 * 8, 2), (0x18 * 8, 4), (0x20 * 8, 0x400000), (16, 9)], setv := true, set := 1 }] } }

theorem test_witness_UpdateItems_3 : ∃ s : State, ∃ s1 : State, ∃ i : UpdItem, (s.upd.run = none) ∧ (updHead s = some i) ∧ (dOpcode i.desc = 0xC1) ∧ (updFaultCode s i = 0) ∧ (copyWaitsFlip s i = false) ∧ (s1 = run (updBegin i) s) ∧ (rangesStop s1 false (wcopyReads s1 i.desc) = (none, none)) ∧ (fetchClear s1 (.unit 512) (rangePieces (wcopyReads s1 i.desc)) = true) ∧ (rangesStop s1 true [(uGaddr i.desc, (fmtWidth (dDfmt i.desc) * uN i.desc + 7) / 8)] = (none, none)) :=
  ⟨at_UpdateItems_3, run (updBegin (({ desc := item [(0, 0xC1), (8, 9), (24, 1), (0x14 * 8, 2), (0x18 * 8, 4), (0x20 * 8, 0x400000), (16, 9)], setv := true, set := 1 } : UpdItem))) (at_UpdateItems_3), { desc := item [(0, 0xC1), (8, 9), (24, 1), (0x14 * 8, 2), (0x18 * 8, 4), (0x20 * 8, 0x400000), (16, 9)], setv := true, set := 1 }, by decide +kernel⟩

/-- The state of the witness below. -/
def at_UpdateItems_4 : State := { stored 0x100000 (image 64 [(0, 2, 0x11), (0x20, 8, 0x200000), (0x28, 8, 0x300000)]) (made [setF UPD_GROUPTAB.ADDR 0x4000]) with upd := { queue := [{ desc := item [(48, 1)], setv := true, set := 1 }] } }

theorem test_witness_UpdateItems_4 : ∃ s : State, ∃ i : UpdItem, (s.upd.run = none) ∧ (updHead s = some i) ∧ (updFaultCode s i ≠ 0) ∧ (dOpcode i.desc = 0) :=
  ⟨at_UpdateItems_4, (updHead (at_UpdateItems_4)).get (by decide), by decide +kernel⟩

/-- The state of the witness below. -/
def at_UpdateItems_5 : State := { stored 0x100000 (image 64 [(0, 2, 0x10), (0x20, 8, 0x200000), (0x28, 8, 0x300000)]) (made [setF UPD_GROUPTAB.ADDR 0x4000]) with upd := { queue := [{ desc := item [(0, 0xC0), (8, 9), (24, 1), (0x14 * 8, 2), (0x18 * 8, 4), (0x20 * 8, 0x400000), (16, 9)], setv := true, set := 1 }] } }

theorem test_witness_UpdateItems_5 : ∃ s : State, ∃ i : UpdItem, (s.upd.run = none) ∧ (updHead s = some i) ∧ (updFaultCode s i ≠ 0) ∧ (dOpcode i.desc ≠ 0) ∧ (dOpcode i.desc ≠ 0xC1) :=
  ⟨at_UpdateItems_5, (updHead (at_UpdateItems_5)).get (by decide), by decide +kernel⟩

/-- The state of the witness below. -/
def at_UpdateItems_6 : State := { stored 0x100000 (image 64 [(0, 2, 0x11), (0x20, 8, 0x200000), (0x28, 8, 0x300000)]) (made [setF UPD_GROUPTAB.ADDR 0x4000]) with upd := { queue := [{ desc := item [(0, 0xC1), (8, 9), (24, 1), (0x14 * 8, 2), (0x18 * 8, 4), (0x20 * 8, 0x400000), (16, 0xF)], setv := true, set := 1 }] } }

theorem test_witness_UpdateItems_6 : ∃ s : State, ∃ i : UpdItem, (s.upd.run = none) ∧ (updHead s = some i) ∧ (updFaultCode s i ≠ 0) ∧ (dOpcode i.desc = 0xC1) :=
  ⟨at_UpdateItems_6, (updHead (at_UpdateItems_6)).get (by decide), by decide +kernel⟩

/-- The state of the witness below. -/
def at_UpdateControl_1 : State := { base with upd := { queue := [{ desc := 0, setv := false, set := 0 }] } }

theorem test_witness_UpdateControl_1 : ∃ s : State, ∃ i : UpdItem, (s.upd.run = none) ∧ (updHead s = some i) ∧ (dOpcode i.desc = 0) ∧ (updFaultCode s i = 0) :=
  ⟨at_UpdateControl_1, (updHead (at_UpdateControl_1)).get (by decide), by decide +kernel⟩

/-- The state of the witness below. -/
def at_UpdateControl_2 : State := { base with upd := { run := some { desc := item [(0, 0xC1)], setv := false, set := 0 }, wrote := true } }

theorem test_witness_UpdateControl_2 : ∃ s : State, ∃ i : UpdItem, (s.upd.run = some i) ∧ (s.upd.wrote = true) ∧ (slicesRun s i.desc = true) ∧ (putsOpen s 512 = false) :=
  ⟨at_UpdateControl_2, ((at_UpdateControl_2).upd.run).get (by decide), by decide +kernel⟩

/-- The state of the witness below. -/
def at_UpdateControl_3 : State := { base with upd := { halted := some { desc := item [(0, 0xC1)], setv := false, set := 0 } } }

theorem test_witness_UpdateControl_3 : ∃ s : State, ∃ i : UpdItem, (s.upd.halted = some i) :=
  ⟨at_UpdateControl_3, ((at_UpdateControl_3).upd.halted).get (by decide), by decide +kernel⟩

/-- The state of the witness below. -/
def at_UpdateControl_4 : State := made [setF UPD_PSET.VALID 1]

theorem test_witness_UpdateControl_4 : ∃ s : State, ((∀ i, s.upd.run = some i → dOpcode i.desc ≠ 0xC0)) ∧ (getF s UPD_PSET.VALID = 1) :=
  ⟨at_UpdateControl_4, by decide +kernel⟩

/-- The state of the witness below. -/
def at_UpdateControl_5 : State := { base with upd := { run := some { desc := item [(0, 0xC0)], setv := true, set := 1 } } }

theorem test_witness_UpdateControl_5 : ∃ s : State, ∃ i : UpdItem, (s.upd.run = some i) ∧ (dOpcode i.desc = 0xC0) :=
  ⟨at_UpdateControl_5, ((at_UpdateControl_5).upd.run).get (by decide), by decide +kernel⟩

/-- The state of the witness below. -/
def at_UpdateControl_6 : State := charted chart1 (made [setF SCH_ORIGIN.ORIGIN 5])

theorem test_witness_UpdateControl_6 : ∃ s : State, ∃ p : Nat, (updPart? s = some p) ∧ (holdsPlan s (updP s) = false) ∧ (getF s NUM_STEP.STEP p < getF s SCH_ORIGIN.ORIGIN) :=
  ⟨at_UpdateControl_6, (updPart? (at_UpdateControl_6)).get (by decide), by decide +kernel⟩

/-- The state of the witness below. -/
def at_UpdateControl_7 : State := charted chart1 (made [setF NUM_STEP.STEP 5])

theorem test_witness_UpdateControl_7 : ∃ s : State, ∃ p : Nat, (updPart? s = some p) ∧ (holdsPlan s (updP s) = false) ∧ (getF s SCH_ORIGIN.ORIGIN + getF s SCH_WARM.W ≤ getF s NUM_STEP.STEP p) ∧ (getF s SCH_CTL.SHAPE = 0) :=
  ⟨at_UpdateControl_7, (updPart? (at_UpdateControl_7)).get (by decide), by decide +kernel⟩

/-- The state of the witness below. -/
def at_UpdateControl_8 : State := { charted chart1 base with tide := { parts := [(0, { plan := some { addr := 0x100, setv := false, set := 0, link := 0x200 } })] } }

theorem test_witness_UpdateControl_8 : ∃ s : State, (holdsPlan s (updP s) = true) :=
  ⟨at_UpdateControl_8, by decide +kernel⟩

theorem test_witness_MemoryAccesses_1 : ∃ s : State, ∃ who : Agent, ∃ a : Addr, ∃ n : Nat, ((∀ k, who ≠ .pcie k)) ∧ ((∀ b, who ≠ .partner b)) ∧ (who ≠ .debug) ∧ (whoOn s who = true) ∧ (0 < n) ∧ (a.toNat % 64 + n ≤ 64) ∧ (route s { a := a.toNat, n := n, wr := false, rebuild := decide (who = .copyDma) } = .mem a.toNat none) ∧ ((isMember s who && (homesStop s || heldAt s a.toNat)) = false) ∧ ((isWarehouse a.toNat || isQuay a.toNat) = true) :=
  ⟨base, .host 3, 0x7F, 1, by decide +kernel⟩

theorem test_witness_MemoryAccesses_2 : ∃ s : State, ∃ who : Agent, ∃ a : Addr, ∃ bs : List Byte, ∃ cc : Bool, ((∀ k, who ≠ .pcie k)) ∧ ((∀ b, who ≠ .partner b)) ∧ (who ≠ .debug) ∧ (whoOn s who = true) ∧ (0 < bs.length) ∧ (a.toNat % 64 + bs.length ≤ 64) ∧ ((isWarehouse a.toNat || isQuay a.toNat) = true) ∧ (route s { a := a.toNat, n := bs.length, wr := true, rebuild := decide (who = .copyDma) } = .mem a.toNat none) ∧ ((isMember s who && (homesStop s || heldAt s a.toNat)) = false) ∧ ((cc && exportRegion s a.toNat) = false) ∧ (Cells.look s.coh.dir (a.toNat / 64) = none) ∧ (isPoisoned s a.toNat = false) :=
  ⟨base, .control 4, 0x3C0, List.replicate 64 1, false, by decide +kernel⟩

theorem test_witness_MemoryAccesses_3 : ∃ s : State, ∃ who : Agent, ∃ a : Addr, ∃ op : AccessOp, ∃ x : Nat, ((∀ k, who ≠ .pcie k)) ∧ ((∀ b, who ≠ .partner b)) ∧ (who ≠ .debug) ∧ (whoOn s who = true) ∧ (isRegSpace a.toNat = false) ∧ (firstFault s (accessPieces who a.toNat op) = some x) :=
  ⟨base, .host 0, 0xD00000000000, .read 8, (firstFault (base) (accessPieces ((.host 0 : Agent)) ((0xD00000000000 : Addr)).toNat ((.read 8 : AccessOp)))).get (by decide), by decide +kernel⟩

/-- The state of the witness below. -/
def at_MemoryAccesses_4 : State := { stored 0x200000 (image 16 [(14, 2, 1)]) (stored 0x100040 (image 64 [(0, 2, 1), (4, 4, 4), (8, 8, 0x800000000000)]) (made [setF TIER_OBJTAB.COUNT 1, setF TIER_OBJTAB.ADDR 0x4000, setF TIER_PTBASE.ADDR 1, setF TIER_PTBASE.EN 1])) with tier := { info := [(0x8000, { poison := true })] } }

theorem test_witness_MemoryAccesses_4 : ∃ s : State, ∃ who : Agent, ∃ a : Addr, ∃ op : AccessOp, ∃ x : StallAt, ((∀ k, who ≠ .pcie k)) ∧ ((∀ b, who ≠ .partner b)) ∧ (who ≠ .debug) ∧ (whoOn s who = true) ∧ (isRegSpace a.toNat = false) ∧ (firstFault s (accessPieces who a.toNat op) = none) ∧ (firstStall s (accessPieces who a.toNat op) = some x) :=
  ⟨at_MemoryAccesses_4, .copyDma, 0x800000000000, .read 8, (firstStall (at_MemoryAccesses_4) (accessPieces ((.copyDma : Agent)) ((0x800000000000 : Addr)).toNat ((.read 8 : AccessOp)))).get (by decide), by decide +kernel⟩

/-- The state of the witness below. -/
def at_MemoryAccesses_5 : State := { base with tier := { info := [(1, { cls := 1, part := 0 })] }, num := { passes := [(layerKey 0 1, some { id := 4, rung := 0, fmt0 := 0, dir := false, gate := 0, items := 2, rep1 := 0, rep2 := 0 })] } }

theorem test_witness_MemoryAccesses_5 : ∃ s : State, ∃ who : Agent, ∃ a : Addr, ∃ op : AccessOp, (isMember s who = true) ∧ (whoOn s who = true) ∧ (isRegSpace a.toNat = false) ∧ (firstFault s (accessPieces who a.toNat op) = none) ∧ (firstStall s (accessPieces who a.toNat op) = none) ∧ (homesStop s = false) ∧ (anyHeld s (accessPieces who a.toNat op) = true) :=
  ⟨at_MemoryAccesses_5, .copyDma, 0x40, .read 4, by decide +kernel⟩

/-- The state of the witness below. -/
def at_MemoryAccesses_6 : State := { base with tier := { waits := [{ who := .host 1, addr := 64, job := .acc (.read 4), since := 0, began := 0, held := true, cause := 1 }] } }

theorem test_witness_MemoryAccesses_6 : ∃ s : State, ∃ k : Nat, ∃ w : WaitAcc, (s.tier.waits[k]? = some w) ∧ (w.held = true) ∧ (anyHeld s (waitPieces w) = false) :=
  ⟨at_MemoryAccesses_6, 0, ((at_MemoryAccesses_6).tier.waits[((0 : Nat))]?).get (by decide), by decide +kernel⟩

/-- The state of the witness below. -/
def at_MemoryAccesses_7 : State := { base with tier := { waits := [{ who := .host 1, addr := 64, job := .acc (.read 4), since := 0, began := 0, held := true, cause := 1 }] } }

theorem test_witness_MemoryAccesses_7 : ∃ s : State, ∃ k : Nat, ∃ w : WaitAcc, (s.tier.waits[k]? = some w) ∧ (w.held = true) :=
  ⟨at_MemoryAccesses_7, 0, ((at_MemoryAccesses_7).tier.waits[((0 : Nat))]?).get (by decide), by decide +kernel⟩

/-- The state of the witness below. -/
def at_MemoryAccesses_8 : State := { base with tier := { waits := [{ who := .host 1, addr := 64, job := .acc (.read 4), since := 0, began := 0, held := false, cause := 1 }] } }

theorem test_witness_MemoryAccesses_8 : ∃ s : State, ∃ k : Nat, ∃ w : WaitAcc, (s.tier.waits[k]? = some w) ∧ (w.held = false) :=
  ⟨at_MemoryAccesses_8, 0, ((at_MemoryAccesses_8).tier.waits[((0 : Nat))]?).get (by decide), by decide +kernel⟩

/-- The state of the witness below. -/
def at_ObjectsAndPatrol_1 : State := stored 0x100040 (image 64 [(0, 2, 1), (4, 4, 4), (8, 8, 0x800000000000), (0x18, 4, 0)]) (made [setF TIER_OBJTAB.COUNT 1, setF TIER_OBJTAB.ADDR 0x4000, setF TIER_PTBASE.ADDR 1, setF TIER_PTBASE.EN 1, setF TIER_MIGQ.ADDR 0x18000, setF TIER_MIGQ.SIZE 16, setF TIER_MIGPTR.TAIL 1])

theorem test_witness_ObjectsAndPatrol_1 : ∃ s : State, ∃ o : BitVec 16, (objValid s o.toNat = true) :=
  ⟨at_ObjectsAndPatrol_1, 1, by decide +kernel⟩

/-- The state of the witness below. -/
def at_ObjectsAndPatrol_2 : State := stored 0x100040 (image 64 [(0, 2, 1), (4, 4, 4), (8, 8, 0x800000000000), (0x18, 4, 0)]) (made [setF TIER_OBJTAB.COUNT 1, setF TIER_OBJTAB.ADDR 0x4000, setF TIER_PTBASE.ADDR 1, setF TIER_PTBASE.EN 1, setF TIER_MIGQ.ADDR 0x18000, setF TIER_MIGQ.SIZE 16, setF TIER_MIGPTR.TAIL 1])

theorem test_witness_ObjectsAndPatrol_2 : ∃ s : State, ∃ o : BitVec 16, (objValid s o.toNat = true) ∧ (objPoisLines s o.toNat = 0) :=
  ⟨at_ObjectsAndPatrol_2, 1, by decide +kernel⟩

/-- The state of the witness below. -/
def at_ObjectsAndPatrol_3 : State := stored 0x100040 (image 64 [(0, 2, 1), (4, 4, 4), (8, 8, 0x800000000000), (0x18, 4, 3)]) (made [setF TIER_OBJTAB.COUNT 1, setF TIER_OBJTAB.ADDR 0x4000, setF TIER_PTBASE.ADDR 1, setF TIER_PTBASE.EN 1, setF TIER_MIGQ.ADDR 0x18000, setF TIER_MIGQ.SIZE 16, setF TIER_MIGPTR.TAIL 1])

theorem test_witness_ObjectsAndPatrol_3 : ∃ s : State, ∃ o : BitVec 16, (objValid s o.toNat = true) ∧ (objPoisLines s o.toNat ≠ 0) :=
  ⟨at_ObjectsAndPatrol_3, 1, by decide +kernel⟩

theorem test_witness_ObjectsAndPatrol_4 : ∃ a : Addr, (isWarehouse a.toNat = true) :=
  ⟨0xFFFFFFFFFF, by decide +kernel⟩

theorem test_witness_ObjectsAndPatrol_5 : ∃ a : Addr, ∃ e, (isWarehouse a.toNat = true) ∧ (1 ≤ e) ∧ (e ≤ 2) :=
  ⟨0xFFFFFFFFFF, 2, by decide +kernel⟩

theorem test_witness_ObjectsAndPatrol_6 : ∃ a : Addr, ∃ e, (isWarehouse a.toNat = true) ∧ (3 ≤ e) ∧ (e ≤ 4) :=
  ⟨0xFFFFFFFFFF, 3, by decide +kernel⟩

/-- The state of the witness below. -/
def at_ObjectsAndPatrol_7 : State := { base with tier := { lent := [(7, { berth := 3, notice := some 5 })] } }

theorem test_witness_ObjectsAndPatrol_7 : ∃ s : State, ∃ f : Nat, ∃ x : LentFrame, ∃ n : Nat, (Cells.look s.tier.lent f = some x) ∧ (x.notice = some n) ∧ (Cells.look s.tier.notices f = none) ∧ (s.hural.grantWait = []) :=
  ⟨at_ObjectsAndPatrol_7, 7, (Cells.look (at_ObjectsAndPatrol_7).tier.lent ((7 : Nat))).get (by decide), 5, by decide +kernel⟩

theorem test_witness_PlacementAndMigration_1 : ∃ e : PageEnt, (e.tier < 4) ∧ (e.frame % 2 ^ 21 = 0) ∧ (e.frame < 2 ^ 48) :=
  ⟨{ tier := 3, mig := false, pois := false, frame := 2 ^ 46, touch := 0, obj := 1 }, by decide +kernel⟩

/-- The state of the witness below. -/
def at_PlacementAndMigration_2 : State := { charted { sections := chart1.sections ++ [(4, image 24 [(0, 2, 1), (10, 2, 8), (12, 4, 8)])] } (stored 0x300000 (image 32 [(0, 1, 1), (1, 1, 2), (8, 8, 0x800000000000), (0x10, 8, 0x600000)]) (stored 0x200000 (image 16 [(0, 8, 0), (14, 2, 1)]) (stored 0x100040 (image 64 [(0, 2, 1), (4, 4, 4), (8, 8, 0x800000000000), (0x18, 4, 0)]) (made [setF TIER_OBJTAB.COUNT 1, setF TIER_OBJTAB.ADDR 0x4000, setF TIER_PTBASE.ADDR 1, setF TIER_PTBASE.EN 1, setF TIER_MIGQ.ADDR 0x18000, setF TIER_MIGQ.SIZE 16, setF TIER_MIGPTR.TAIL 1])))) with tier := { mig := .idle } }

theorem test_witness_PlacementAndMigration_2 : ∃ s : State, ∃ a : Nat, (migHead s = some a) ∧ (readNat s a 1 = 1) ∧ (s.tier.mig = .idle) ∧ (migRefusal s 1 (readNat s (a + 1) 1) (readNat s (a + 8) 8) (readNat s (a + 0x10) 8) = 0) ∧ (quotaFits s (readNat s (a + 1) 1) (readNat s (a + 8) 8) = true) ∧ (readNat s (a + 1) 1 ≠ 3) ∧ (copiesTake s = true) :=
  ⟨at_PlacementAndMigration_2, (migHead (at_PlacementAndMigration_2)).get (by decide), by decide +kernel⟩

/-- The state of the witness below. -/
def at_PlacementAndMigration_3 : State := { charted { sections := chart1.sections ++ [(4, image 24 [(0, 2, 1), (10, 2, 8), (12, 4, 8)])] } (stored 0x300000 (image 32 [(0, 1, 2), (1, 1, 2), (8, 8, 0x800000000000), (0x10, 8, 0x600000)]) (stored 0x200000 (image 16 [(0, 8, 0x01000000001), (14, 2, 1)]) (stored 0x100040 (image 64 [(0, 2, 1), (4, 4, 4), (8, 8, 0x800000000000), (0x18, 4, 0)]) (made [setF TIER_OBJTAB.COUNT 1, setF TIER_OBJTAB.ADDR 0x4000, setF TIER_PTBASE.ADDR 1, setF TIER_PTBASE.EN 1, setF TIER_MIGQ.ADDR 0x18000, setF TIER_MIGQ.SIZE 16, setF TIER_MIGPTR.TAIL 1])))) with tier := { mig := .idle } }

theorem test_witness_PlacementAndMigration_3 : ∃ s : State, ∃ a : Nat, (migHead s = some a) ∧ (readNat s a 1 = 2) ∧ (s.tier.mig = .idle) ∧ (migRefusal s 2 (readNat s (a + 1) 1) (readNat s (a + 8) 8) (readNat s (a + 0x10) 8) = 0) ∧ (quotaFits s (readNat s (a + 1) 1) (readNat s (a + 8) 8) = true) ∧ (readNat s (a + 1) 1 ≠ 3) ∧ (copiesTake s = true) :=
  ⟨at_PlacementAndMigration_3, (migHead (at_PlacementAndMigration_3)).get (by decide), by decide +kernel⟩

/-- The state of the witness below. -/
def at_PlacementAndMigration_4 : State := { charted { sections := [(4, image 24 [(0, 2, 1), (10, 2, 8), (12, 4, 8)])] } (stored 0x300000 (image 32 [(0, 1, 2), (1, 1, 2), (8, 8, 0x800000000000), (0x10, 8, 0x600000)]) (stored 0x200000 (image 16 [(0, 8, 0), (14, 2, 1)]) (stored 0x100040 (image 64 [(0, 2, 1), (4, 4, 4), (8, 8, 0x800000000000), (0x18, 4, 0)]) (made [setF TIER_OBJTAB.COUNT 1, setF TIER_OBJTAB.ADDR 0x4000, setF TIER_PTBASE.ADDR 1, setF TIER_PTBASE.EN 1, setF TIER_MIGQ.ADDR 0x18000, setF TIER_MIGQ.SIZE 16, setF TIER_MIGPTR.TAIL 1])))) with tier := { mig := .idle } }

theorem test_witness_PlacementAndMigration_4 : ∃ s : State, ∃ a : Nat, ∃ op, (migHead s = some a) ∧ (s.tier.mig = .idle) ∧ ((op = 1 ∨ op = 2)) ∧ (readNat s a 1 = op) ∧ (migRefusal s op (readNat s (a + 1) 1) (readNat s (a + 8) 8) (readNat s (a + 0x10) 8) ≠ 0) :=
  ⟨at_PlacementAndMigration_4, (migHead (at_PlacementAndMigration_4)).get (by decide), 2, by decide +kernel⟩

/-- The state of the witness below. -/
def at_PlacementAndMigration_5 : State := { charted { sections := chart1.sections ++ [(4, image 24 [(0, 2, 1), (10, 2, 1), (12, 4, 1)])] } (stored 0x300000 (image 32 [(0, 1, 1), (1, 1, 2), (8, 8, 0x800000000000), (0x10, 8, 0x600000)]) (stored 0x200000 (image 16 [(0, 8, 0), (14, 2, 1)]) (stored 0x100040 (image 64 [(0, 2, 1), (4, 4, 4), (8, 8, 0x800000000000), (0x18, 4, 0)]) (made [setF TIER_OBJTAB.COUNT 1, setF TIER_OBJTAB.ADDR 0x4000, setF TIER_PTBASE.ADDR 1, setF TIER_PTBASE.EN 1, setF TIER_MIGQ.ADDR 0x18000, setF TIER_MIGQ.SIZE 16, setF TIER_MIGPTR.TAIL 1])))) with tier := { mig := .idle } }

theorem test_witness_PlacementAndMigration_5 : ∃ s : State, ∃ a : Nat, ∃ op, (migHead s = some a) ∧ (s.tier.mig = .idle) ∧ ((op = 1 ∨ op = 2)) ∧ (readNat s a 1 = op) ∧ (migRefusal s op (readNat s (a + 1) 1) (readNat s (a + 8) 8) (readNat s (a + 0x10) 8) = 0) ∧ (copiesTake s = true) ∧ (quotaFits s (readNat s (a + 1) 1) (readNat s (a + 8) 8) = false) :=
  ⟨at_PlacementAndMigration_5, (migHead (at_PlacementAndMigration_5)).get (by decide), 1, by decide +kernel⟩

/-- The state of the witness below. -/
def at_PlacementAndMigration_6 : State := { charted { sections := [(4, image 24 [(0, 2, 1), (10, 2, 8), (12, 4, 8)])] } (stored 0x300000 (image 32 [(0, 1, 1), (1, 1, 2), (8, 8, 0x800000000000), (0x10, 8, 0x600000)]) (stored 0x200000 (image 16 [(0, 8, 0), (14, 2, 1)]) (stored 0x100040 (image 64 [(0, 2, 1), (4, 4, 4), (8, 8, 0x800000000000), (0x18, 4, 0)]) (made [setF TIER_OBJTAB.COUNT 1, setF TIER_OBJTAB.ADDR 0x4000, setF TIER_PTBASE.ADDR 1, setF TIER_PTBASE.EN 1, setF TIER_MIGQ.ADDR 0x18000, setF TIER_MIGQ.SIZE 16, setF TIER_MIGPTR.TAIL 1])))) with tier := { mig := .moving 0x600000 0x800000 2 } }

theorem test_witness_PlacementAndMigration_6 : ∃ s : State, ∃ a : Nat, ∃ old : Addr, ∃ new : Addr, ∃ tier : Nat, (migHead s = some a) ∧ (s.tier.mig = .moving old new tier) ∧ (fetchDue s .page = false) ∧ ((tier = 3 → frameHeld s old.toNat = false)) :=
  ⟨at_PlacementAndMigration_6, (migHead (at_PlacementAndMigration_6)).get (by decide), 0x600000, 0x800000, 2, by decide +kernel⟩

/-- The state of the witness below. -/
def at_PlacementAndMigration_7 : State := { charted { sections := chart1.sections ++ [(4, image 24 [(0, 2, 1), (10, 2, 8), (12, 4, 8)])] } (stored 0x300000 (image 32 [(0, 1, 3), (1, 1, 0), (8, 8, 0x800000000000), (0x10, 8, 0x600000)]) (stored 0x200000 (image 16 [(0, 8, 1), (14, 2, 1)]) (stored 0x100040 (image 64 [(0, 2, 1), (4, 4, 4), (8, 8, 0x800000000000), (0x18, 4, 0)]) (made [setF TIER_OBJTAB.COUNT 1, setF TIER_OBJTAB.ADDR 0x4000, setF TIER_PTBASE.ADDR 1, setF TIER_PTBASE.EN 1, setF TIER_MIGQ.ADDR 0x18000, setF TIER_MIGQ.SIZE 16, setF TIER_MIGPTR.TAIL 1])))) with tier := { mig := .idle } }

theorem test_witness_PlacementAndMigration_7 : ∃ s : State, ∃ a : Nat, (migHead s = some a) ∧ (readNat s a 1 = 3) ∧ (s.tier.mig = .idle) ∧ (migRefusal s 3 0 (readNat s (a + 8) 8) 0 = 0) ∧ (copiesTake s = true) :=
  ⟨at_PlacementAndMigration_7, (migHead (at_PlacementAndMigration_7)).get (by decide), by decide +kernel⟩

/-- The state of the witness below. -/
def at_PlacementAndMigration_8 : State := { charted { sections := [(4, image 24 [(0, 2, 1), (10, 2, 8), (12, 4, 8)])] } (stored 0x300000 (image 32 [(0, 1, 1), (1, 1, 2), (8, 8, 0x800000000000), (0x10, 8, 0x600000)]) (stored 0x200000 (image 16 [(0, 8, 0), (14, 2, 1)]) (stored 0x100040 (image 64 [(0, 2, 1), (4, 4, 4), (8, 8, 0x800000000000), (0x18, 4, 0)]) (made [setF TIER_OBJTAB.COUNT 1, setF TIER_OBJTAB.ADDR 0x4000, setF TIER_PTBASE.ADDR 1, setF TIER_PTBASE.EN 1, setF TIER_MIGQ.ADDR 0x18000, setF TIER_MIGQ.SIZE 16, setF TIER_MIGPTR.TAIL 1])))) with tier := { mig := .waitQuota } }

theorem test_witness_PlacementAndMigration_8 : ∃ s : State, ∃ a : Nat, (migHead s = some a) ∧ (s.tier.mig = .waitQuota) :=
  ⟨at_PlacementAndMigration_8, (migHead (at_PlacementAndMigration_8)).get (by decide), by decide +kernel⟩

theorem test_witness_AgentsAndHomes_1 : ∃ a : Nat, (isObject a = false) :=
  ⟨0x1000, by decide +kernel⟩

/-- The state of the witness below. -/
def at_AgentsAndHomes_2 : State := charted { sections := [(2, [1]), (5, image 88 [(0, 64, 1), (0x50, 1, 1)])] } base

theorem test_witness_AgentsAndHomes_2 : ∃ s : State, ∃ m : State, ∃ a : Fin 514, ∃ l : Addr, ∃ x : Nat, ∃ o : Option Nat, (route s { a := l.toNat / 64 * 64, n := 1, wr := false, rebuild := false } = .mem x o) ∧ (agentCaches s a = true) ∧ (coreOn s a = true) ∧ (m = run (usePage (l.toNat / 64 * 64)) s) ∧ (agentActive m a = true) ∧ (Cells.look (cohAgent m a).wants (x / 64) = none) ∧ (Cells.look (cohAgent m a).pend (x / 64) = none) :=
  ⟨at_AgentsAndHomes_2, run (usePage (((0x7F : Addr)).toNat / 64 * 64)) (at_AgentsAndHomes_2), 0, 0x7F, 0x40, none, by decide +kernel⟩

/-- The state of the witness below. -/
def at_AgentsAndHomes_3 : State := charted { sections := [(2, [1]), (5, image 88 [(0, 64, 1), (0x50, 1, 1)])] } base

theorem test_witness_AgentsAndHomes_3 : ∃ s : State, ∃ m : State, ∃ a : Fin 514, ∃ ad : Addr, ∃ bs : List Byte, ∃ x : Nat, ∃ o : Option Nat, (route s { a := ad.toNat, n := (bs.take (64 - ad.toNat % 64)).length, wr := true, rebuild := false } = .mem x o) ∧ (agentCaches s a = true) ∧ (coreOn s a = true) ∧ (m = run (usePage ad.toNat) s) ∧ (agentActive m a = true) ∧ (Cells.look (cohAgent m a).wants (x / 64) = none) ∧ (Cells.look (cohAgent m a).pend (x / 64) = none) :=
  ⟨at_AgentsAndHomes_3, run (usePage ((0x7C : Addr)).toNat) (at_AgentsAndHomes_3), 0, 0x7C, [1, 2, 3, 4, 5], 0x7C, none, by decide +kernel⟩

/-- The state of the witness below. -/
def at_AgentsAndHomes_4 : State := { charted { sections := [(5, image 88 [(0, 64, 1), (0x50, 1, 1)])] } base with coh := { agents := [(0, { lines := [(1, { st := .s, data := 0 })] })] } }

theorem test_witness_AgentsAndHomes_4 : ∃ s : State, ∃ a : Fin 514, ∃ l : Addr, ∃ c : CLine, (Cells.look (cohAgent s a).wants (l.toNat / 64) = none) ∧ (copyOf s a (l.toNat / 64) = some c) :=
  ⟨at_AgentsAndHomes_4, 0, 0x40, (copyOf (at_AgentsAndHomes_4) ((0 : Fin 514)) (((0x40 : Addr)).toNat / 64)).get (by decide), by decide +kernel⟩

/-- The state of the witness below. -/
def at_AgentsAndHomes_5 : State := { charted { sections := [(5, image 88 [(0, 64, 1), (0x50, 1, 1)])] } base with coh := { reqs := [(0, 1, .rds)] } }

theorem test_witness_AgentsAndHomes_5 : ∃ s : State, ∃ a : Fin 514, ∃ l : Addr, ((a.val, l.toNat / 64, ReqKind.rds) ∈ s.coh.reqs) ∧ (Cells.look s.coh.txs (l.toNat / 64) = none) ∧ (homesStop s = false) ∧ ((isQuay (l.toNat / 64 * 64) && !quayUp s (l.toNat / 64 * 64)) = false) ∧ (heldAt s (l.toNat / 64 * 64) = false) ∧ (isPoisoned s (l.toNat / 64 * 64) = false) ∧ (Cells.look s.coh.dir (l.toNat / 64) = none) ∧ ((s.coh.dir.filter fun e => homeOf e.1 = homeOf (l.toNat / 64)).length < homeEntries (homeOf (l.toNat / 64))) ∧ (Cells.get .load (cohAgent s a).wants (l.toNat / 64) = .load) ∧ ((cohAgent s a).departing = false) :=
  ⟨at_AgentsAndHomes_5, 0, 0x40, by decide +kernel⟩

/-- The state of the witness below. -/
def at_AgentsAndHomes_6 : State := { charted { sections := [(5, image 88 [(0, 64, 1), (0x50, 1, 1)])] } base with coh := { reqs := [(0, 1, .rds)], dir := [(1, { owned := true, owner := 513 })] } }

theorem test_witness_AgentsAndHomes_6 : ∃ s : State, ∃ a : Fin 514, ∃ l : Addr, ∃ o : Nat, ∃ e : DirEnt, ((a.val, l.toNat / 64, ReqKind.rds) ∈ s.coh.reqs) ∧ (Cells.look s.coh.txs (l.toNat / 64) = none) ∧ (homesStop s = false) ∧ ((isQuay (l.toNat / 64 * 64) && !quayUp s (l.toNat / 64 * 64)) = false) ∧ (heldAt s (l.toNat / 64 * 64) = false) ∧ (isPoisoned s (l.toNat / 64 * 64) = false) ∧ (Cells.look s.coh.dir (l.toNat / 64) = some e) ∧ (e.owned = true) ∧ (e.owner = o) ∧ (o ≠ a) :=
  ⟨at_AgentsAndHomes_6, 0, 0x40, 513, (Cells.look (at_AgentsAndHomes_6).coh.dir (((0x40 : Addr)).toNat / 64)).get (by decide), by decide +kernel⟩

/-- The state of the witness below. -/
def at_AgentsAndHomes_7 : State := { charted { sections := [(5, image 88 [(0, 64, 1), (0x50, 1, 1)])] } base with coh := { reqs := [(0, 1, .rdx)], agents := [(0, { wants := [(1, .store 0x40 [1])] })] } }

theorem test_witness_AgentsAndHomes_7 : ∃ k : ReqKind, ∃ s : State, ∃ a : Fin 514, ∃ l : Addr, ∃ ad : Addr, ∃ bs : List Byte, (k ≠ .rds) ∧ ((a.val, l.toNat / 64, k) ∈ s.coh.reqs) ∧ (Cells.look s.coh.txs (l.toNat / 64) = none) ∧ (homesStop s = false) ∧ ((isQuay (l.toNat / 64 * 64) && !quayUp s (l.toNat / 64 * 64)) = false) ∧ (heldAt s (l.toNat / 64 * 64) = false) ∧ (isPoisoned s (l.toNat / 64 * 64) = false) ∧ (Cells.look s.coh.dir (l.toNat / 64) = none) ∧ ((s.coh.dir.filter fun e => homeOf e.1 = homeOf (l.toNat / 64)).length < homeEntries (homeOf (l.toNat / 64))) ∧ (Cells.look (cohAgent s a).wants (l.toNat / 64) = some (.store ad bs)) ∧ (copyOf s a (l.toNat / 64) = none) ∧ ((cohAgent s a).departing = false) :=
  ⟨.rdx, at_AgentsAndHomes_7, 0, 0x40, 0x40, [1], by decide +kernel⟩

/-- The state of the witness below. -/
def at_AgentsAndHomes_8 : State := { charted { sections := [(5, image 88 [(0, 64, 1), (0x50, 1, 1)])] } base with coh := { reqs := [(0, 1, .upg)], dir := [(1, { owned := false, sharers := [0, 512] })] } }

theorem test_witness_AgentsAndHomes_8 : ∃ k : ReqKind, ∃ s : State, ∃ a : Fin 514, ∃ l : Addr, ∃ e : DirEnt, (k ≠ .rds) ∧ ((a.val, l.toNat / 64, k) ∈ s.coh.reqs) ∧ (Cells.look s.coh.txs (l.toNat / 64) = none) ∧ (homesStop s = false) ∧ ((isQuay (l.toNat / 64 * 64) && !quayUp s (l.toNat / 64 * 64)) = false) ∧ (heldAt s (l.toNat / 64 * 64) = false) ∧ (isPoisoned s (l.toNat / 64 * 64) = false) ∧ (Cells.look s.coh.dir (l.toNat / 64) = some e) ∧ ((dirOwner s (l.toNat / 64) = some a.val → copyOf s a (l.toNat / 64) ≠ none)) ∧ (e.holders s (some a) ≠ []) :=
  ⟨.upg, at_AgentsAndHomes_8, 0, 0x40, (Cells.look (at_AgentsAndHomes_8).coh.dir (((0x40 : Addr)).toNat / 64)).get (by decide), by decide +kernel⟩

/-- The state of the witness below. -/
def at_SnoopsAndWriteBacks_1 : State := { charted { sections := [(5, image 88 [(0, 64, 1), (0x50, 1, 1)])] } base with coh := { snoops := [{ line := 1, agent := 0, kind := .snpX, sent := 0 }], agents := [(0, { lines := [(1, { st := .m, data := 5 })] })] } }

theorem test_witness_SnoopsAndWriteBacks_1 : ∃ s : State, ∃ a : Fin 514, ∃ l : Addr, ∃ x : Snoop, ∃ c : CLine, ∃ k : SnpKind, (s.coh.snoops.find? (fun x => decide (x.agent = a.val) && decide (x.line = l.toNat / 64) && decide (x.kind = k) && !x.waits) = some x) ∧ ((cohAgent s a).dead = false) ∧ (copyOf s a (l.toNat / 64) = some c) ∧ (Cells.look (cohAgent s a).pend (l.toNat / 64) = none) :=
  ⟨at_SnoopsAndWriteBacks_1, 0, 0x40, { line := 1, agent := 0, kind := .snpX, sent := 0 }, (copyOf (at_SnoopsAndWriteBacks_1) ((0 : Fin 514)) (((0x40 : Addr)).toNat / 64)).get (by decide), .snpX, by decide +kernel⟩

/-- The state of the witness below. -/
def at_SnoopsAndWriteBacks_2 : State := { charted { sections := [(5, image 88 [(0, 64, 1), (0x50, 1, 1)])] } base with coh := { snoops := [{ line := 1, agent := 0, kind := .snpX, sent := 0, waits := true }] } }

theorem test_witness_SnoopsAndWriteBacks_2 : ∃ s : State, ∃ a : Fin 514, ∃ l : Addr, ∃ x : Snoop, (s.coh.snoops.find? (fun x => decide (x.agent = a.val) && decide (x.line = l.toNat / 64) && x.waits) = some x) :=
  ⟨at_SnoopsAndWriteBacks_2, 0, 0x40, ((at_SnoopsAndWriteBacks_2).coh.snoops.find? (fun x => decide (x.agent = ((0 : Fin 514)).val) && decide (x.line = ((0x40 : Addr)).toNat / 64) && x.waits)).get (by decide), by decide +kernel⟩

/-- The state of the witness below. -/
def at_SnoopsAndWriteBacks_3 : State := { charted { sections := [(5, image 88 [(0, 64, 1), (0x50, 1, 1)])] } base with coh := { resps := [{ line := 1, agent := 0, found := .m, data := some 5 }], txs := [(1, { job := .read 0x40 8, waits := [0] })] } }

theorem test_witness_SnoopsAndWriteBacks_3 : ∃ s : State, ∃ a : Fin 514, ∃ l : Addr, ∃ r : SnpResp, ∃ y : HomeTx, (s.coh.resps.find? (fun r => decide (r.agent = a.val) && decide (r.line = l.toNat / 64)) = some r) ∧ (Cells.look s.coh.txs (l.toNat / 64) = some y) ∧ (a.val ∈ y.waits) ∧ (r.wbPend = false) :=
  ⟨at_SnoopsAndWriteBacks_3, 0, 0x40, ((at_SnoopsAndWriteBacks_3).coh.resps.find? (fun r => decide (r.agent = ((0 : Fin 514)).val) && decide (r.line = ((0x40 : Addr)).toNat / 64))).get (by decide), (Cells.look (at_SnoopsAndWriteBacks_3).coh.txs (((0x40 : Addr)).toNat / 64)).get (by decide), by decide +kernel⟩

/-- The state of the witness below. -/
def at_SnoopsAndWriteBacks_4 : State := { charted { sections := [(5, image 88 [(0, 64, 1), (0x50, 1, 1)])] } base with coh := { resps := [{ line := 1, agent := 0, found := .m, data := some 5 }] } }

theorem test_witness_SnoopsAndWriteBacks_4 : ∃ s : State, ∃ a : Fin 514, ∃ l : Addr, ∃ r : SnpResp, (s.coh.resps.find? (fun r => decide (r.agent = a.val) && decide (r.line = l.toNat / 64)) = some r) ∧ (Cells.look s.coh.txs (l.toNat / 64) = none) :=
  ⟨at_SnoopsAndWriteBacks_4, 0, 0x40, ((at_SnoopsAndWriteBacks_4).coh.resps.find? (fun r => decide (r.agent = ((0 : Fin 514)).val) && decide (r.line = ((0x40 : Addr)).toNat / 64))).get (by decide), by decide +kernel⟩

/-- The state of the witness below. -/
def at_SnoopsAndWriteBacks_5 : State := { charted { sections := [(5, image 88 [(0, 64, 1), (0x50, 1, 1)])] } base with coh := { agents := [(0, { pend := [(1, { data := some 5 })] })], dir := [(1, { owned := true, owner := 0 })] } }

theorem test_witness_SnoopsAndWriteBacks_5 : ∃ s : State, ∃ a : Fin 514, ∃ l : Addr, ∃ p : Pend, ∃ e : DirEnt, (Cells.look (cohAgent s a).pend (l.toNat / 64) = some p) ∧ (p.arrived = false) ∧ (p.poison = false) ∧ (Cells.look s.coh.dir (l.toNat / 64) = some e) ∧ (e.owned = true) ∧ (e.owner = a) ∧ (Cells.look s.coh.txs (l.toNat / 64) = none) :=
  ⟨at_SnoopsAndWriteBacks_5, 0, 0x40, (Cells.look (cohAgent (at_SnoopsAndWriteBacks_5) ((0 : Fin 514))).pend (((0x40 : Addr)).toNat / 64)).get (by decide), (Cells.look (at_SnoopsAndWriteBacks_5).coh.dir (((0x40 : Addr)).toNat / 64)).get (by decide), by decide +kernel⟩

/-- The state of the witness below. -/
def at_SnoopsAndWriteBacks_6 : State := { charted { sections := [(5, image 88 [(0, 64, 1), (0x50, 1, 1)])] } base with coh := { agents := [(0, { pend := [(1, { data := some 5 })] })] } }

theorem test_witness_SnoopsAndWriteBacks_6 : ∃ s : State, ∃ a : Fin 514, ∃ l : Addr, ∃ p : Pend, (Cells.look (cohAgent s a).pend (l.toNat / 64) = some p) ∧ (p.arrived = false) ∧ (Cells.look s.coh.dir (l.toNat / 64) = none) :=
  ⟨at_SnoopsAndWriteBacks_6, 0, 0x40, (Cells.look (cohAgent (at_SnoopsAndWriteBacks_6) ((0 : Fin 514))).pend (((0x40 : Addr)).toNat / 64)).get (by decide), by decide +kernel⟩

/-- The state of the witness below. -/
def at_SnoopsAndWriteBacks_7 : State := { charted { sections := [(5, image 88 [(0, 64, 1), (0x50, 1, 1)])] } base with coh := { agents := [(0, { pend := [(1, { data := none, arrived := true })] })] } }

theorem test_witness_SnoopsAndWriteBacks_7 : ∃ s : State, ∃ a : Fin 514, ∃ l : Addr, ∃ p : Pend, (Cells.look (cohAgent s a).pend (l.toNat / 64) = some p) ∧ (p.arrived = true) :=
  ⟨at_SnoopsAndWriteBacks_7, 0, 0x40, (Cells.look (cohAgent (at_SnoopsAndWriteBacks_7) ((0 : Fin 514))).pend (((0x40 : Addr)).toNat / 64)).get (by decide), by decide +kernel⟩

theorem test_witness_UncachedAndAtomics_1 : ∃ s : State, ∃ ad : Addr, (uncachedOk s (ad.toNat / 64) = true) ∧ (uncachedFails s (ad.toNat / 64) false = false) :=
  ⟨base, 0x40, by decide +kernel⟩

/-- The state of the witness below. -/
def at_UncachedAndAtomics_2 : State := { base with tier := { info := [(1, { poison := true })] } }

theorem test_witness_UncachedAndAtomics_2 : ∃ s : State, ∃ ad : Addr, (uncachedOk s (ad.toNat / 64) = true) ∧ (uncachedFails s (ad.toNat / 64) false = true) :=
  ⟨at_UncachedAndAtomics_2, 0x40, by decide +kernel⟩

/-- The state of the witness below. -/
def at_UncachedAndAtomics_3 : State := made [setF ID_DIEMAP.CD0 2]

theorem test_witness_UncachedAndAtomics_3 : ∃ s : State, ∃ l : Addr, (uncachedOk s (l.toNat / 64) = true) ∧ (uncachedFails s (l.toNat / 64) true = true) :=
  ⟨at_UncachedAndAtomics_3, 0x010000000000, by decide +kernel⟩

theorem test_witness_UncachedAndAtomics_4 : ∃ s : State, ∃ l : Addr, (uncachedOk s (l.toNat / 64) = true) ∧ (uncachedFails s (l.toNat / 64) true = false) :=
  ⟨base, 0x40, by decide +kernel⟩

theorem test_witness_UncachedAndAtomics_5 : ∃ s : State, ∃ ad : Addr, ∃ bs : List Byte, (uncachedOk s (ad.toNat / 64) = true) ∧ (uncachedFails s (ad.toNat / 64) false = false) ∧ (bs ≠ []) ∧ (ad.toNat % 64 + bs.length ≤ 64) :=
  ⟨base, 0x7E, [1, 2], by decide +kernel⟩

/-- The state of the witness below. -/
def at_UncachedAndAtomics_6 : State := { charted { sections := [(2, [1]), (5, image 88 [(0, 64, 1), (0x50, 1, 1)])] } base with coh := { agents := [(0, { pred := [(1, 2)] })] } }

theorem test_witness_UncachedAndAtomics_6 : ∃ s : State, ∃ m : State, ∃ core : Fin 608, ∃ ad : Addr, ∃ n : Nat, ∃ x : Nat, (atomicAddr s ad.toNat n = some x) ∧ (m = run (usePage ad.toNat) s) ∧ (2 ≤ Cells.get 1 (cohAgent m (coreAgent core)).pred (predKey core x)) ∧ (heldAt m x = false) ∧ (Cells.look m.coh.txs (x / 64) = none) ∧ (Cells.look m.coh.dir (x / 64) = none) ∧ (x % n = 0) ∧ (atomicCore s core = true) ∧ (agentActive m (coreAgent core) = true) :=
  ⟨at_UncachedAndAtomics_6, run (usePage ((0x44 : Addr)).toNat) (at_UncachedAndAtomics_6), 0, 0x44, 4, (atomicAddr (at_UncachedAndAtomics_6) ((0x44 : Addr)).toNat ((4 : Nat))).get (by decide), by decide +kernel⟩

/-- The state of the witness below. -/
def at_UncachedAndAtomics_7 : State := { charted { sections := [(2, [1]), (5, image 88 [(0, 64, 1), (0x50, 1, 1)])] } base with coh := { agents := [(0, { lines := [(1, { st := .e, data := 5 })] })] } }

theorem test_witness_UncachedAndAtomics_7 : ∃ s : State, ∃ m : State, ∃ core : Fin 608, ∃ ad : Addr, ∃ n : Nat, ∃ x : Nat, ∃ c : CLine, (atomicAddr s ad.toNat n = some x) ∧ (m = run (usePage ad.toNat) s) ∧ (Cells.get 1 (cohAgent m (coreAgent core)).pred (predKey core x) < 2) ∧ (copyOf m (coreAgent core) (x / 64) = some c) ∧ ((c.st = .m ∨ c.st = .e)) ∧ (atomicCore s core = true) ∧ (agentActive m (coreAgent core) = true) ∧ (Cells.look (cohAgent m (coreAgent core)).wants (x / 64) = none) ∧ (Cells.look (cohAgent m (coreAgent core)).pend (x / 64) = none) :=
  ⟨at_UncachedAndAtomics_7, run (usePage ((0x48 : Addr)).toNat) (at_UncachedAndAtomics_7), 0, 0x48, 8, (atomicAddr (at_UncachedAndAtomics_7) ((0x48 : Addr)).toNat ((8 : Nat))).get (by decide), (copyOf ((run (usePage ((0x48 : Addr)).toNat) (at_UncachedAndAtomics_7) : State)) (coreAgent ((0 : Fin 608))) ((((atomicAddr (at_UncachedAndAtomics_7) ((0x48 : Addr)).toNat ((8 : Nat))).get (by decide) : Nat)) / 64)).get (by decide), by decide +kernel⟩

/-- The state of the witness below. -/
def at_UncachedAndAtomics_8 : State := charted { sections := [(2, [1]), (5, image 88 [(0, 64, 1), (0x50, 1, 1)])] } base

theorem test_witness_UncachedAndAtomics_8 : ∃ s : State, ∃ core : Fin 608, ∃ ad : Addr, ∃ n : Nat, (atomicCore s core = true) ∧ (atomicAddr s ad.toNat n = none) ∧ (atomicStall s ad.toNat n = none) :=
  ⟨at_UncachedAndAtomics_8, 0, 0x42, 4, by decide +kernel⟩

/-- The state of the witness below. -/
def at_UncachedAndAtomics_9 : State := charted { sections := [(2, [1]), (5, image 88 [(0, 64, 1), (0x50, 1, 1)])] } base

theorem test_witness_UncachedAndAtomics_9 : ∃ s : State, ∃ core : Fin 608, ∃ ad : Addr, ∃ n : Nat, (atomicCore s core = true) ∧ (atomicAddr s ad.toNat n = none) ∧ (atomicStall s ad.toNat n = none) :=
  ⟨at_UncachedAndAtomics_9, 0, 0x42, 4, by decide +kernel⟩

/-- The state of the witness below. -/
def at_UncachedAndAtomics_10 : State := { charted { sections := [(2, [1]), (5, image 88 [(0, 64, 1), (0x50, 1, 1)])] } base with coh := { agents := [(0, { lines := [(1, { st := .e, data := 5 })] })] } }

theorem test_witness_UncachedAndAtomics_10 : ∃ s : State, ∃ m : State, ∃ core : Fin 608, ∃ ad : Addr, ∃ n : Nat, ∃ x : Nat, ∃ c : CLine, (atomicAddr s ad.toNat n = some x) ∧ (m = run (usePage ad.toNat) s) ∧ (copyOf m (coreAgent core) (x / 64) = some c) ∧ ((c.st = .m ∨ c.st = .e)) ∧ (atomicCore s core = true) ∧ (agentActive m (coreAgent core) = true) ∧ (Cells.look (cohAgent m (coreAgent core)).wants (x / 64) = none) ∧ (Cells.look (cohAgent m (coreAgent core)).pend (x / 64) = none) :=
  ⟨at_UncachedAndAtomics_10, run (usePage ((0x48 : Addr)).toNat) (at_UncachedAndAtomics_10), 0, 0x48, 8, (atomicAddr (at_UncachedAndAtomics_10) ((0x48 : Addr)).toNat ((8 : Nat))).get (by decide), (copyOf ((run (usePage ((0x48 : Addr)).toNat) (at_UncachedAndAtomics_10) : State)) (coreAgent ((0 : Fin 608))) ((((atomicAddr (at_UncachedAndAtomics_10) ((0x48 : Addr)).toNat ((8 : Nat))).get (by decide) : Nat)) / 64)).get (by decide), by decide +kernel⟩

/-- The state of the witness below. -/
def at_UncachedAndAtomics_11 : State := { charted { sections := [(2, [1]), (5, image 88 [(0, 64, 1), (0x50, 1, 1)])] } base with coh := { agents := [(0, { lines := [(1, { st := .e, data := 5 })], resv := [(0, 1)] })] } }

theorem test_witness_UncachedAndAtomics_11 : ∃ s : State, ∃ m : State, ∃ core : Fin 608, ∃ ad : Addr, ∃ n : Nat, ∃ x : Nat, ∃ c : CLine, (atomicAddr s ad.toNat n = some x) ∧ (m = run (usePage ad.toNat) s) ∧ (copyOf m (coreAgent core) (x / 64) = some c) ∧ ((c.st = .m ∨ c.st = .e)) ∧ (atomicCore s core = true) ∧ (agentActive m (coreAgent core) = true) ∧ (Cells.look (cohAgent m (coreAgent core)).wants (x / 64) = none) ∧ (Cells.look (cohAgent m (coreAgent core)).pend (x / 64) = none) ∧ (Cells.look (cohAgent m (coreAgent core)).resv core = some (x / 64)) :=
  ⟨at_UncachedAndAtomics_11, run (usePage ((0x48 : Addr)).toNat) (at_UncachedAndAtomics_11), 0, 0x48, 8, (atomicAddr (at_UncachedAndAtomics_11) ((0x48 : Addr)).toNat ((8 : Nat))).get (by decide), (copyOf ((run (usePage ((0x48 : Addr)).toNat) (at_UncachedAndAtomics_11) : State)) (coreAgent ((0 : Fin 608))) ((((atomicAddr (at_UncachedAndAtomics_11) ((0x48 : Addr)).toNat ((8 : Nat))).get (by decide) : Nat)) / 64)).get (by decide), by decide +kernel⟩

/-- The state of the witness below. -/
def at_UncachedAndAtomics_12 : State := { charted { sections := [(2, [1]), (5, image 88 [(0, 64, 1), (0x50, 1, 1)])] } base with coh := { agents := [(0, { lines := [(1, { st := .e, data := 5 })], resv := [(0, 2)] })] } }

theorem test_witness_UncachedAndAtomics_12 : ∃ s : State, ∃ m : State, ∃ core : Fin 608, ∃ ad : Addr, ∃ n : Nat, ∃ x : Nat, ∃ c : CLine, (atomicAddr s ad.toNat n = some x) ∧ (m = run (usePage ad.toNat) s) ∧ (copyOf m (coreAgent core) (x / 64) = some c) ∧ ((c.st = .m ∨ c.st = .e)) ∧ (atomicCore s core = true) ∧ (agentActive m (coreAgent core) = true) ∧ (Cells.look (cohAgent m (coreAgent core)).wants (x / 64) = none) ∧ (Cells.look (cohAgent m (coreAgent core)).pend (x / 64) = none) ∧ (Cells.look (cohAgent m (coreAgent core)).resv core ≠ some (x / 64)) :=
  ⟨at_UncachedAndAtomics_12, run (usePage ((0x48 : Addr)).toNat) (at_UncachedAndAtomics_12), 0, 0x48, 8, (atomicAddr (at_UncachedAndAtomics_12) ((0x48 : Addr)).toNat ((8 : Nat))).get (by decide), (copyOf ((run (usePage ((0x48 : Addr)).toNat) (at_UncachedAndAtomics_12) : State)) (coreAgent ((0 : Fin 608))) ((((atomicAddr (at_UncachedAndAtomics_12) ((0x48 : Addr)).toNat ((8 : Nat))).get (by decide) : Nat)) / 64)).get (by decide), by decide +kernel⟩

/-- The state of the witness below. -/
def at_DepartureAndCollapse_1 : State := { charted { sections := [(2, [1]), (5, image 88 [(0, 64, 1), (0x50, 1, 1)])] } base with coh := { agents := [(0, { departing := true })] } }

theorem test_witness_DepartureAndCollapse_1 : ∃ s : State, ∃ a : Fin 514, ((cohAgent s a).departing = true) ∧ ((cohAgent s a).departSent = false) ∧ ((cohAgent s a).pend = []) ∧ (agentServed s a = false) :=
  ⟨at_DepartureAndCollapse_1, 0, by decide +kernel⟩

/-- The state of the witness below. -/
def at_DepartureAndCollapse_2 : State := { charted { sections := [(2, [1]), (5, image 88 [(0, 64, 1), (0x50, 1, 1)])] } base with coh := { agents := [(0, { departing := true, departSent := true })] } }

theorem test_witness_DepartureAndCollapse_2 : ∃ s : State, ∃ a : Fin 514, ((cohAgent s a).departing = true) ∧ ((cohAgent s a).departSent = true) ∧ ((∀ y ∈ s.coh.snoops, y.agent ≠ a)) ∧ ((∀ y ∈ s.coh.resps, y.agent ≠ a)) :=
  ⟨at_DepartureAndCollapse_2, 0, by decide +kernel⟩

theorem test_witness_DepartureAndCollapse_3 : ∃ s : State, ∃ c : BitVec 8, ∃ a : Nat, (getF s COH_STAT2.STATE ≠ 2) ∧ (c.toNat < 16) ∧ (a < 1024) :=
  ⟨base, 15, 1023, by decide +kernel⟩

/-- The state of the witness below. -/
def at_DepartureAndCollapse_4 : State := made [setF COH_STAT2.STATE 2]

theorem test_witness_DepartureAndCollapse_4 : ∃ s : State, (getF s COH_STAT2.STATE = 2) :=
  ⟨at_DepartureAndCollapse_4, by decide +kernel⟩

/-- The state of the witness below. -/
def at_DepartureAndCollapse_5 : State := { charted { sections := [(5, image 88 [(0, 64, 1), (0x50, 1, 1)])] } base with coh := { snoops := [{ line := 1, agent := 0, kind := .snpC, sent := 0 }] } }

theorem test_witness_DepartureAndCollapse_5 : ∃ s : State, ∃ a : Fin 514, ∃ l : Addr, (s.coh.snoops.any (fun x => decide (x.agent = a.val) && decide (x.line = l.toNat / 64)) = true) :=
  ⟨at_DepartureAndCollapse_5, 0, 0x40, by decide +kernel⟩

theorem test_witness_DepartureAndCollapse_6 : ∃ s : State, (s.coh.snoops = []) ∧ (s.coh.resps = []) :=
  ⟨base, by decide +kernel⟩

/-- The state of the witness below. -/
def at_DepartureAndCollapse_7 : State := { made [setF COH_STAT2.STATE 2] with rst := { collapse := true } }

theorem test_witness_DepartureAndCollapse_7 : ∃ s : State, (s.rst.collapse = true) ∧ (getF s COH_STAT2.STATE = 2) :=
  ⟨at_DepartureAndCollapse_7, by decide +kernel⟩

/-- The state of the witness below. -/
def at_DieLinks_1 : State := { made [setF D2D_EDGE.STATE 0] with link := { edges := [(0, { lanesAB := [0, 1], lanesBA := [0, 1] })] } }

theorem test_witness_DieLinks_1 : ∃ s : State, ∃ e : Fin 8, ∃ dir : Bool, ∃ lane : Fin 4, ∃ f : List (Bool × Desc), ∃ crc : BitVec 16, (edgeUp s e = true) ∧ (lane.val ∈ (edgeSt s e).lanes dir) ∧ (frameGood f crc = true) :=
  ⟨at_DieLinks_1, 0, false, 1, List.replicate 16 (false, 0), frameCrc (List.replicate 16 (false, 0)), by decide +kernel⟩

/-- The state of the witness below. -/
def at_DieLinks_2 : State := { base with link := { edges := [(0, { lanesAB := [0], rx := [(0, [[]])] })] } }

theorem test_witness_DieLinks_2 : ∃ s : State, ∃ e : Nat, ∃ dir : Bool, (((edgeSt s e).merged dir).all (fun l => !(Cells.get [] (edgeSt s e).rx (laneKey dir l)).isEmpty) = true) :=
  ⟨at_DieLinks_2, 0, false, by decide +kernel⟩

/-- The state of the witness below. -/
def at_DieLinks_3 : State := { made [setF D2D_EDGE.STATE 0] with link := { edges := [(0, { lanesAB := [0, 1], lanesBA := [0, 1] })] } }

theorem test_witness_DieLinks_3 : ∃ s : State, ∃ e : Fin 8, ∃ dir : Bool, ∃ lane : Fin 4, ∃ f : List (Bool × Desc), ∃ crc : BitVec 16, (edgeUp s e = true) ∧ (lane.val ∈ (edgeSt s e).lanes dir) ∧ (frameGood f crc = false) :=
  ⟨at_DieLinks_3, 0, false, 1, List.replicate 16 (false, 0), frameCrc (List.replicate 16 (false, 0)) + 1, by decide +kernel⟩

/-- The state of the witness below. -/
def at_DieLinks_4 : State := { base with link := { edges := [(0, { naks := [(true, 3)] })] } }

theorem test_witness_DieLinks_4 : ∃ s : State, ∃ e : Fin 8, ∃ dir : Bool, ∃ lane : Fin 4, ((dir, lane.val) ∈ (edgeSt s e).naks) :=
  ⟨at_DieLinks_4, 0, true, 3, by decide +kernel⟩

/-- The state of the witness below. -/
def at_DieLinks_5 : State := { made [setF D2D_EDGE.STATE 0] with link := { edges := [(0, { lanesAB := [0, 3], lanesBA := [0, 3], notices := [(true, 3)] })] } }

theorem test_witness_DieLinks_5 : ∃ s : State, ∃ e : Fin 8, ∃ dir : Bool, ∃ lane : Fin 4, (edgeUp s e = true) ∧ ((dir, lane.val) ∈ (edgeSt s e).notices) :=
  ⟨at_DieLinks_5, 0, true, 3, by decide +kernel⟩

/-- The state of the witness below. -/
def at_DieLinks_6 : State := made [setF D2D_EDGE.STATE 1]

theorem test_witness_DieLinks_6 : ∃ s : State, ∃ e : Fin 8, (getF s D2D_EDGE.STATE e = 1) ∧ ((edgeSt s e).confirming = false) ∧ ((edgeSt s e).mapBA = none) :=
  ⟨at_DieLinks_6, 0, by decide +kernel⟩

/-- The state of the witness below. -/
def at_DieLinks_7 : State := { made [setF D2D_EDGE.STATE 1] with link := { edges := [(0, { mapAB := some 0x8 })] } }

theorem test_witness_DieLinks_7 : ∃ s : State, ∃ e : Fin 8, ∃ ab : BitVec 4, ∃ ba : BitVec 4, ∃ failed : List Nat, ∃ sp : List Nat, (getF s D2D_EDGE.STATE e = 1) ∧ ((edgeSt s e).confirming = false) ∧ ((edgeSt s e).mapAB = some ab) ∧ (ba = repairMap failed sp) ∧ (0 < min (goodLanes ab).length (goodLanes ba).length) :=
  ⟨at_DieLinks_7, 0, 8, repairMap (([1] : List Nat)) (([2] : List Nat)), [1], [2], by decide +kernel⟩

/-- The state of the witness below. -/
def at_DieLinks_8 : State := { made [setF D2D_EDGE.STATE 1] with link := { edges := [(0, { confirming := true })] } }

theorem test_witness_DieLinks_8 : ∃ s : State, ∃ e : Fin 8, (getF s D2D_EDGE.STATE e = 1) ∧ ((edgeSt s e).confirming = true) :=
  ⟨at_DieLinks_8, 0, by decide +kernel⟩

/-- The state of the witness below. -/
def at_DieLinks_9 : State := { made [setF D2D_EDGE.STATE 1] with link := { edges := [(0, { confirming := true })] } }

theorem test_witness_DieLinks_9 : ∃ s : State, ∃ e : Fin 8, (getF s D2D_EDGE.STATE e = 1) ∧ ((edgeSt s e).confirming = true) ∧ ((edgeSt s e).attempt < 2) :=
  ⟨at_DieLinks_9, 0, by decide +kernel⟩

/-- The state of the witness below. -/
def at_DieLinks_10 : State := made [setF D2D_EDGE.STATE 1]

theorem test_witness_DieLinks_10 : ∃ s : State, ∃ e : Fin 8, (getF s D2D_EDGE.STATE e = 1) ∧ ((edgeSt s e).confirming = false) :=
  ⟨at_DieLinks_10, 0, by decide +kernel⟩

/-- The state of the witness below. -/
def at_DieLinks_11 : State := made [setF IDREV.NOCREV 2]

theorem test_witness_DieLinks_11 : ∃ s : State, ∃ e : Fin 8, (6 ≤ e.val) ∧ (getF s IDREV.NOCREV = 2) :=
  ⟨at_DieLinks_11, 6, by decide +kernel⟩

/-- The state of the witness below. -/
def at_BellsAndRecords_1 : State := made [setF BELL_STAT.EN 1]

theorem test_witness_BellsAndRecords_1 : ∃ s : State, ∃ q : Fin 256, (getB s BELL_STAT.EN q = true) :=
  ⟨at_BellsAndRecords_1, 0, by decide +kernel⟩

/-- The state of the witness below. -/
def at_BellsAndRecords_2 : State := made [setF BELL_STAT.EN 1, setF BELL_STAT.TAIL 1]

theorem test_witness_BellsAndRecords_2 : ∃ s : State, ∃ q : Fin 256, (entryDue s q = true) ∧ (cdmaHeld s (piecesOf (headAddr s q) 256 false false) = false) ∧ (firstFault s (piecesOf (headAddr s q) 256 false false) = none) :=
  ⟨at_BellsAndRecords_2, 0, by decide +kernel⟩

/-- The state of the witness below. -/
def at_BellsAndRecords_3 : State := queued { reading := some 7 } base

theorem test_witness_BellsAndRecords_3 : ∃ s : State, ∃ q : Fin 256, ∃ x : Nat, ((bellQ s q).reading = some x) :=
  ⟨at_BellsAndRecords_3, 0, ((bellQ (at_BellsAndRecords_3) ((0 : Fin 256))).reading).get (by decide), by decide +kernel⟩

/-- The state of the witness below. -/
def at_BellsAndRecords_4 : State := made [setF BELL_RINGADDR.ADDR (2 ^ 32 - 16), setF BELL_CQADDR.ADDR (2 ^ 32 - 2)]

theorem test_witness_BellsAndRecords_4 : ∃ s : State, ∃ q : Fin 256, ((inWarehouse (getF s BELL_RINGADDR.ADDR q * 256) (256 * ringEntries s q) && inWarehouse (getF s BELL_CQADDR.ADDR q * 256) (32 * cqRecords s q)) = true) :=
  ⟨at_BellsAndRecords_4, 0, by decide +kernel⟩

/-- The state of the witness below. -/
def at_BellsAndRecords_5 : State := made [setF BELL_RINGADDR.ADDR (2 ^ 32 - 15), setF BELL_CQADDR.ADDR (2 ^ 32 - 2)]

theorem test_witness_BellsAndRecords_5 : ∃ s : State, ∃ q : Fin 256, ((inWarehouse (getF s BELL_RINGADDR.ADDR q * 256) (256 * ringEntries s q) && inWarehouse (getF s BELL_CQADDR.ADDR q * 256) (32 * cqRecords s q)) = false) :=
  ⟨at_BellsAndRecords_5, 0, by decide +kernel⟩

/-- The state of the witness below. -/
def at_BellsAndRecords_6 : State := queued { done := [{ entry := entry [(4, 1, 1), (5, 1, 2)], index := 0, status := 0 }] } base

theorem test_witness_BellsAndRecords_6 : ∃ s : State, ∃ q : Fin 256, ∃ d : BDone, (nextRecord (bellQ s q) = some d) ∧ ((eNocq d.entry && decide (d.status = 0)) = true) :=
  ⟨at_BellsAndRecords_6, 0, (nextRecord (bellQ (at_BellsAndRecords_6) ((0 : Fin 256)))).get (by decide), by decide +kernel⟩

/-- The state of the witness below. -/
def at_BellsAndRecords_7 : State := queued { done := [{ entry := entry [(4, 1, 1), (5, 1, 0)], index := 0, status := 0 }] } base

theorem test_witness_BellsAndRecords_7 : ∃ s : State, ∃ q : Fin 256, ∃ d : BDone, (nextRecord (bellQ s q) = some d) ∧ ((eNocq d.entry && decide (d.status = 0)) = false) ∧ (cqFull s q = false) ∧ (cdmaHeld s (piecesOf (getF s BELL_CQADDR.ADDR q * 256 + 32 * (bellQ s q).cqTail) 32 true false) = false) ∧ (firstFault s (piecesOf (getF s BELL_CQADDR.ADDR q * 256 + 32 * (bellQ s q).cqTail) 32 true false) = none) :=
  ⟨at_BellsAndRecords_7, 0, (nextRecord (bellQ (at_BellsAndRecords_7) ((0 : Fin 256)))).get (by decide), by decide +kernel⟩

/-- The state of the witness below. -/
def at_BellsAndRecords_8 : State := queued { done := [{ entry := entry [(4, 1, 1), (5, 1, 0)], index := 0, status := 0 }], cqTail := 15 } base

theorem test_witness_BellsAndRecords_8 : ∃ s : State, ∃ q : Fin 256, ∃ d : BDone, (nextRecord (bellQ s q) = some d) ∧ ((eNocq d.entry && decide (d.status = 0)) = false) ∧ (cqFull s q = true) :=
  ⟨at_BellsAndRecords_8, 0, (nextRecord (bellQ (at_BellsAndRecords_8) ((0 : Fin 256)))).get (by decide), by decide +kernel⟩

theorem test_witness_BellsAndRecords_9 : ∃ s : State, ∃ who : Agent, ∃ q : Fin 256, (whoOn s who = true) ∧ (reachesRegs s who (0xF00000100010 + 0x1000 * q.val) false = true) :=
  ⟨base, .host 0, 0, by decide +kernel⟩

/-- The state of the witness below. -/
def at_BellsAndRecords_10 : State := queued { vis := [{ who := .host 0, addr := 0xF00000100010, n := 8, seq := 3, waits := [] }] } base

theorem test_witness_BellsAndRecords_10 : ∃ s : State, ∃ q : Fin 256, ∃ v : VisRead, ∃ vs : List VisRead, ((bellQ s q).vis = v :: vs) ∧ (visDone (bellQ s q) v = true) :=
  ⟨at_BellsAndRecords_10, 0, ((bellQ (at_BellsAndRecords_10) ((0 : Fin 256))).vis).head (by decide), ((bellQ (at_BellsAndRecords_10) ((0 : Fin 256))).vis).tail, by decide +kernel⟩

/-- The state of the witness below. -/
def at_CommandsAndDevices_1 : State := queued { cmds := [{ entry := entry [(5, 1, 1)], index := 0 }] } (base)

theorem test_witness_CommandsAndDevices_1 : ∃ s : State, ∃ q : Fin 256, ∃ c : BCmd, (nextStart s q = some c) ∧ (malformed c.entry = false) ∧ (eOpcode c.entry = 0) :=
  ⟨at_CommandsAndDevices_1, 0, (nextStart (at_CommandsAndDevices_1) ((0 : Fin 256))).get (by decide), by decide +kernel⟩

/-- The state of the witness below. -/
def at_CommandsAndDevices_2 : State := queued { cmds := [{ entry := entry [(4, 1, 4)], index := 0 }] } (base)

theorem test_witness_CommandsAndDevices_2 : ∃ s : State, ∃ q : Fin 256, ∃ c : BCmd, (nextStart s q = some c) ∧ (malformed c.entry = true) ∧ ((eOpcode c.entry = 0 ∨ 3 < eOpcode c.entry)) :=
  ⟨at_CommandsAndDevices_2, 0, (nextStart (at_CommandsAndDevices_2) ((0 : Fin 256))).get (by decide), by decide +kernel⟩

/-- The state of the witness below. -/
def at_CommandsAndDevices_3 : State := queued { cmds := [{ entry := entry [(4, 1, 1)], index := 0 }] } (base)

theorem test_witness_CommandsAndDevices_3 : ∃ s : State, ∃ q : Fin 256, ∃ c : BCmd, (nextStart s q = some c) ∧ (malformed c.entry = true) ∧ (eOpcode c.entry = 1) :=
  ⟨at_CommandsAndDevices_3, 0, (nextStart (at_CommandsAndDevices_3) ((0 : Fin 256))).get (by decide), by decide +kernel⟩

/-- The state of the witness below. -/
def at_CommandsAndDevices_4 : State := queued { cmds := [{ entry := entry [(4, 1, 2)], index := 0 }] } (charted chart1 base)

theorem test_witness_CommandsAndDevices_4 : ∃ s : State, ∃ q : Fin 256, ∃ c : BCmd, (nextStart s q = some c) ∧ (malformed c.entry = true) ∧ (eOpcode c.entry = 2) ∧ (((bellQ s q).cmds.find? (copyReady s q)) = none) ∧ (copiesTake s = true) :=
  ⟨at_CommandsAndDevices_4, 0, (nextStart (at_CommandsAndDevices_4) ((0 : Fin 256))).get (by decide), by decide +kernel⟩

/-- The state of the witness below. -/
def at_CommandsAndDevices_5 : State := queued { cmds := [{ entry := entry [(4, 1, 3), (7, 1, 64)], index := 0 }] } (base)

theorem test_witness_CommandsAndDevices_5 : ∃ s : State, ∃ q : Fin 256, ∃ c : BCmd, (nextStart s q = some c) ∧ (malformed c.entry = true) ∧ (eOpcode c.entry = 3) :=
  ⟨at_CommandsAndDevices_5, 0, (nextStart (at_CommandsAndDevices_5) ((0 : Fin 256))).get (by decide), by decide +kernel⟩

/-- The state of the witness below. -/
def at_CommandsAndDevices_6 : State := queued { cmds := [{ entry := entry [(4, 1, 1), (6, 1, 192), (0x18, 8, 0xF40)], index := 0 }] } (base)

theorem test_witness_CommandsAndDevices_6 : ∃ s : State, ∃ q : Fin 256, ∃ c : BCmd, (nextStart s q = some c) ∧ (malformed c.entry = false) ∧ (eOpcode c.entry = 1) ∧ (cdmaHeld s (putPieces c) = false) ∧ ((isWarehouse (eDst c.entry) || isQuay (eDst c.entry) || isPcie (eDst c.entry)) = true) ∧ (firstFault s (putPieces c) = none) :=
  ⟨at_CommandsAndDevices_6, 0, (nextStart (at_CommandsAndDevices_6) ((0 : Fin 256))).get (by decide), by decide +kernel⟩

/-- The state of the witness below. -/
def at_CommandsAndDevices_7 : State := queued { cmds := [{ entry := entry [(4, 1, 1), (6, 1, 8), (0x18, 8, 0x010000000000)], index := 0 }] } (charted chart1 { base with tier := { info := [(0x400000000, { poison := true })] } })

theorem test_witness_CommandsAndDevices_7 : ∃ s : State, ∃ q : Fin 256, ∃ c : BCmd, ∃ x, (nextStart s q = some c) ∧ (malformed c.entry = false) ∧ (eOpcode c.entry = 1) ∧ (cdmaHeld s (putPieces c) = false) ∧ ((isWarehouse (eDst c.entry) || isQuay (eDst c.entry)) = true) ∧ (firstFault s (putPieces c) = some x) :=
  ⟨at_CommandsAndDevices_7, 0, (nextStart (at_CommandsAndDevices_7) ((0 : Fin 256))).get (by decide), (firstFault (at_CommandsAndDevices_7) (putPieces (((nextStart (at_CommandsAndDevices_7) ((0 : Fin 256))).get (by decide) : BCmd)))).get (by decide), by decide +kernel⟩

/-- The state of the witness below. -/
def at_CommandsAndDevices_8 : State := queued { cmds := [{ entry := entry [(4, 1, 2), (0x10, 8, 0x100), (0x18, 8, 0x200), (0x20, 8, 64)], index := 0 }] } (charted chart1 base)

theorem test_witness_CommandsAndDevices_8 : ∃ s : State, ∃ q : Fin 256, ∃ c : BCmd, (((bellQ s q).cmds.find? (copyReady s q)) = none) ∧ (nextStart s q = some c) ∧ (malformed c.entry = false) ∧ (eOpcode c.entry = 2) ∧ (ePrefill c.entry = false) ∧ (copiesTake s = true) ∧ (copyHeld s c.entry = false) ∧ (fetchMissing s (copyFor q c.entry) (piecesOf (eSrc c.entry) (eLen c.entry) false false) = []) ∧ (fetchDue s (copyFor q c.entry) = false) ∧ (copyStop s q c.entry = (eLen c.entry, none, none)) ∧ ((isWarehouse (eSrc c.entry) || isQuay (eSrc c.entry)) = true) ∧ ((isWarehouse (eDst c.entry) || isQuay (eDst c.entry)) = true) ∧ (eSrc c.entry % 64 + eLen c.entry ≤ 64) ∧ (eDst c.entry % 64 + eLen c.entry ≤ 64) ∧ (Cells.look s.coh.dir (eDst c.entry / 64) = none) ∧ (isPoisoned s (eDst c.entry) = false) :=
  ⟨at_CommandsAndDevices_8, 0, (nextStart (at_CommandsAndDevices_8) ((0 : Fin 256))).get (by decide), by decide +kernel⟩

/-- The state of the witness below. -/
def at_CommandsAndDevices_9 : State := queued { cmds := [{ entry := entry [(4, 1, 2), (0x10, 8, 0x800000000000), (0x18, 8, 0x200), (0x20, 8, 64)], index := 0 }] } (charted chart1 (stored 0x100040 (image 64 [(0, 2, 1), (4, 4, 4), (8, 8, 0x800000000000)]) (stored 0x200000 (image 16 [(14, 2, 1)]) (made [setF TIER_OBJTAB.COUNT 1, setF TIER_OBJTAB.ADDR 0x4000, setF TIER_PTBASE.ADDR 1, setF TIER_PTBASE.EN 1]))))

theorem test_witness_CommandsAndDevices_9 : ∃ s : State, ∃ q : Fin 256, ∃ c : BCmd, (((bellQ s q).cmds.find? (copyReady s q)) = none) ∧ (nextStart s q = some c) ∧ (malformed c.entry = false) ∧ (eOpcode c.entry = 2) ∧ (ePrefill c.entry = false) ∧ (copiesTake s = true) ∧ (copyHeld s c.entry = false) ∧ (fetchMissing s (copyFor q c.entry) (piecesOf (eSrc c.entry) (eLen c.entry) false false) = []) ∧ (fetchDue s (copyFor q c.entry) = false) ∧ ((copyStop s q c.entry).2.2 ≠ none) :=
  ⟨at_CommandsAndDevices_9, 0, (nextStart (at_CommandsAndDevices_9) ((0 : Fin 256))).get (by decide), by decide +kernel⟩

/-- The state of the witness below. -/
def at_CommandsAndDevices_10 : State := queued { cmds := [{ entry := entry [(4, 1, 3), (0x10, 8, 0x40)], index := 0 }] } (base)

theorem test_witness_CommandsAndDevices_10 : ∃ s : State, ∃ q : Fin 256, ∃ c : BCmd, (nextStart s q = some c) ∧ (malformed c.entry = false) ∧ (eOpcode c.entry = 3) :=
  ⟨at_CommandsAndDevices_10, 0, (nextStart (at_CommandsAndDevices_10) ((0 : Fin 256))).get (by decide), by decide +kernel⟩

/-- The state of the witness below. -/
def at_CommandsAndDevices_11 : State := queued { cmds := [{ entry := entry [(4, 1, 3)], index := 0, st := .planWait }] } (base)

theorem test_witness_CommandsAndDevices_11 : ∃ s : State, ∃ q : Fin 256, ∃ c : BCmd, (((bellQ s q).cmds.find? fun c => decide (c.st = .planWait) && !getB s TIDE_PLAN.VALID (ePart c.entry)) = some c) :=
  ⟨at_CommandsAndDevices_11, 0, (((bellQ (at_CommandsAndDevices_11) ((0 : Fin 256))).cmds.find? fun c => decide (c.st = .planWait) && !getB (at_CommandsAndDevices_11) TIDE_PLAN.VALID (ePart c.entry))).get (by decide), by decide +kernel⟩

/-- The state of the witness below. -/
def at_CommandsAndDevices_12 : State := made [setF BELL_MSIWIN.EN 1, setF BELL_MSIWIN.ADDR 0x12]

theorem test_witness_CommandsAndDevices_12 : ∃ s : State, ∃ a : Addr, ∃ bs : List Byte, (isMsi s a.toNat bs.length = true) :=
  ⟨at_CommandsAndDevices_12, 0x12FFFC, [1, 2, 3, 4], by decide +kernel⟩

/-- The state of the witness below. -/
def at_CommandsAndDevices_13 : State := made [setF BELL_MSIWIN.EN 1, setF BELL_MSIWIN.ADDR 0x12]

theorem test_witness_CommandsAndDevices_13 : ∃ s : State, ∃ n : Fin 4, ∃ a : Addr, ∃ bs : List Byte, (isMsi s a.toNat bs.length = false) ∧ (iommuAdmits s n a.toNat bs.length = false) :=
  ⟨at_CommandsAndDevices_13, 0, 0x12FFFD, [1, 2, 3, 4], by decide +kernel⟩

/-- The state of the witness below. -/
def at_CommandsAndDevices_14 : State := charted { sections := [(7, image 32 [(0, 1, 1), (8, 8, 0x1000), (16, 8, 0x1000), (24, 1, 1)])] } base

theorem test_witness_CommandsAndDevices_14 : ∃ s : State, ∃ n : Fin 4, ∃ a : Addr, ∃ bs : List Byte, (isMsi s a.toNat bs.length = false) ∧ (iommuAdmits s n a.toNat bs.length = true) ∧ (0 < bs.length) ∧ (a.toNat % 64 + bs.length ≤ 64) ∧ ((isWarehouse a.toNat || isQuay a.toNat) = true) ∧ (route s { a := a.toNat, n := bs.length, wr := true, rebuild := false } = .mem a.toNat none) ∧ (Cells.look s.coh.dir (a.toNat / 64) = none) ∧ (isPoisoned s a.toNat = false) :=
  ⟨at_CommandsAndDevices_14, 0, 0x1FFC, [1, 2, 3, 4], by decide +kernel⟩

/-- The state of the witness below. -/
def at_CommandsAndDevices_15 : State := charted { sections := [(7, image 32 [(0, 1, 1), (8, 8, 0x1000), (16, 8, 0x1000), (24, 1, 1)])] } base

theorem test_witness_CommandsAndDevices_15 : ∃ s : State, ∃ n : Fin 4, ∃ a : Addr, ∃ k : Nat, (iommuAdmits s n a.toNat k = false) :=
  ⟨at_CommandsAndDevices_15, 0, 0x1FFD, 4, by decide +kernel⟩

/-- The state of the witness below. -/
def at_CommandsAndDevices_16 : State := charted { sections := [(7, image 32 [(0, 1, 1), (8, 8, 0x1000), (16, 8, 0x1000), (24, 1, 1)])] } base

theorem test_witness_CommandsAndDevices_16 : ∃ s : State, ∃ n : Fin 4, ∃ a : Addr, ∃ k : Nat, (iommuAdmits s n a.toNat k = true) ∧ (0 < k) ∧ (a.toNat % 64 + k ≤ 64) ∧ ((isWarehouse a.toNat || isQuay a.toNat) = true) ∧ (route s { a := a.toNat, n := k, wr := false, rebuild := false } = .mem a.toNat none) :=
  ⟨at_CommandsAndDevices_16, 0, 0x1FFC, 4, by decide +kernel⟩

theorem test_witness_InputPipeline_1 : ∃ s : State, (cusWorks s 0 = false) :=
  ⟨base, by decide +kernel⟩

/-- The state of the witness below. -/
def at_InputPipeline_2 : State := { made [setF CUS_CFG.EN 1, setF CUS_CFG.WINDOW 1, setF CUS_SUBQ.SIZE 16, setF CUS_SUBQ.ADDR 0x8000] with cus := { cusRun := some 0 } }

theorem test_witness_InputPipeline_2 : ∃ s : State, ∃ v : BitVec 32, (cusWorks s 0 = true) ∧ (ringSize (getF s CUS_SUBQ.SIZE) ≠ 0) ∧ (v.toNat = (getF s CUS_SUBPTR.HEAD + 1) % ringSize (getF s CUS_SUBQ.SIZE)) ∧ (getF s CUS_SUBPTR.HEAD < ringSize (getF s CUS_SUBQ.SIZE)) ∧ (bitOf (readNat s (getF s CUS_SUBQ.ADDR * 32 + 32 * getF s CUS_SUBPTR.HEAD + 8) 1) 0 = false) :=
  ⟨at_InputPipeline_2, 1, by decide +kernel⟩

/-- The state of the witness below. -/
def at_InputPipeline_3 : State := { charted { sections := [(0xE, image 48 [(0, 1, 3), (1, 1, 2), (8, 4, 64), (0x28, 8, 64)])] } (stored 0x500000 (image 64 [(0, 4, 0x454C4142), (4, 1, 3), (5, 1, 4), (6, 1, 1), (8, 4, 4), (0x28, 8, 4)]) (made [setF CUS_CFG.EN 1, setF CUS_CFG.WINDOW 1])) with cus := { subs := [{ index := 0, epoch := 0, shuffle := 0, addr := 0x500000 }], cusRun := some 0 } }

theorem test_witness_InputPipeline_3 : ∃ s : State, ∃ m : State, ∃ x : SubEnt, ∃ l : List SubEnt, (m = run customsReads s) ∧ (m.cus.subs = x :: l) ∧ (cusWorks m 0 = true) ∧ (cusReadable m x.addr 64 = true) ∧ (balePasses m (descOf (readMem m x.addr 64)) = false) :=
  ⟨at_InputPipeline_3, run customsReads (at_InputPipeline_3), (((run customsReads (at_InputPipeline_3) : State)).cus.subs).head (by decide), (((run customsReads (at_InputPipeline_3) : State)).cus.subs).tail, by decide +kernel⟩

/-- The state of the witness below. -/
def at_InputPipeline_4 : State := { charted { sections := [(0xE, image 48 [(0, 1, 3), (1, 1, 2), (8, 4, 64), (0x28, 8, 64)])] } (stored 0x500000 (image 64 [(0, 4, 0x454C4142), (4, 1, 0), (5, 1, 4), (6, 1, 1), (8, 4, 4), (0x28, 8, 4)]) (made [setF CUS_CFG.EN 1, setF CUS_CFG.WINDOW 1])) with cus := { subs := [{ index := 0, epoch := 0, shuffle := 0, addr := 0x500000 }], cusRun := some 0, win := [{ sub := { index := 0, epoch := 0, shuffle := 0, addr := 0x500000 }, hdr := item [(0x28 * 8, 4)], bytes := 4, tide := 1, slot := 0, st := .done }] } }

theorem test_witness_InputPipeline_4 : ∃ s : State, ∃ m : State, ∃ x : SubEnt, ∃ l : List SubEnt, (m = run customsReads s) ∧ (m.cus.subs = x :: l) ∧ (cusWorks m 0 = true) ∧ (cusReadable m x.addr 64 = true) ∧ (balePasses m (descOf (readMem m x.addr 64)) = true) ∧ (getF m CUS_CFG.WINDOW ≤ m.cus.win.length) :=
  ⟨at_InputPipeline_4, run customsReads (at_InputPipeline_4), (((run customsReads (at_InputPipeline_4) : State)).cus.subs).head (by decide), (((run customsReads (at_InputPipeline_4) : State)).cus.subs).tail, by decide +kernel⟩

/-- The state of the witness below. -/
def at_InputPipeline_5 : State := { charted { sections := [(0xE, image 48 [(0, 1, 3), (1, 1, 2), (8, 4, 64), (0x28, 8, 64)])] } (stored 0x500000 (image 64 [(0, 4, 0x454C4142), (4, 1, 0), (5, 1, 4), (6, 1, 1), (8, 4, 4), (0x28, 8, 4)]) (made [setF CUS_CFG.EN 1, setF CUS_CFG.WINDOW 1])) with cus := { subs := [{ index := 0, epoch := 0, shuffle := 0, addr := 0x500000 }], cusRun := some 0 } }

theorem test_witness_InputPipeline_5 : ∃ s : State, ∃ m : State, ∃ x : SubEnt, ∃ l : List SubEnt, (m = run customsReads s) ∧ (m.cus.subs = x :: l) ∧ (cusWorks m 0 = true) ∧ (cusReadable m x.addr 64 = true) ∧ (balePasses m (descOf (readMem m x.addr 64)) = true) ∧ (m.cus.win.length < getF m CUS_CFG.WINDOW) ∧ ((baleType (descOf (readMem m x.addr 64)) = 0 → cusReadable m (x.addr + 64) (baleBytes (descOf (readMem m x.addr 64))) = true)) :=
  ⟨at_InputPipeline_5, run customsReads (at_InputPipeline_5), (((run customsReads (at_InputPipeline_5) : State)).cus.subs).head (by decide), (((run customsReads (at_InputPipeline_5) : State)).cus.subs).tail, by decide +kernel⟩

/-- The state of the witness below. -/
def at_InputPipeline_6 : State := { base with cus := { cusItems := [0] } }

theorem test_witness_InputPipeline_6 : ∃ s : State, ∃ u : Fin 2, ∃ d : Desc, ∃ l : List Desc, (s.cus.items u = d :: l) ∧ (s.cus.running u = none) :=
  ⟨at_InputPipeline_6, 0, ((at_InputPipeline_6).cus.items ((0 : Fin 2))).head (by decide), ((at_InputPipeline_6).cus.items ((0 : Fin 2))).tail, by decide +kernel⟩

/-- The state of the witness below. -/
def at_InputPipeline_7 : State := { base with cus := { cusRun := some 0 } }

theorem test_witness_InputPipeline_7 : ∃ s : State, ∃ u : Fin 2, ∃ d : Desc, (s.cus.running u = some d) :=
  ⟨at_InputPipeline_7, 0, ((at_InputPipeline_7).cus.running ((0 : Fin 2))).get (by decide), by decide +kernel⟩

/-- The state of the witness below. -/
def at_InputPipeline_8 : State := { made [setF CUS_CFG.EN 1, setF TIDE_COUNT.COUNT 1] with cus := { decRun := some 0, win := [{ sub := { index := 0, epoch := 0, shuffle := 0, addr := 0x500000 }, hdr := item [(0x28 * 8, 4)], bytes := 4, tide := 1, slot := 0, st := .decoding }] } }

theorem test_witness_InputPipeline_8 : ∃ s : State, ∃ k : Nat, ∃ w : WinEnt, ((((s.cus.win.filter fun w => w.st = .decoding).take 16).find? fun w => w.sub.index = k) = some w) ∧ (cusWorks s 1 = true) ∧ (pastDeadline s w = true) :=
  ⟨at_InputPipeline_8, 0, (((((at_InputPipeline_8).cus.win.filter fun w => w.st = .decoding).take 16).find? fun w => w.sub.index = ((0 : Nat)))).get (by decide), by decide +kernel⟩

/-- The state of the witness below. -/
def at_InputPipeline_9 : State := { made [setF CUS_CFG.EN 1, setF TIDE_COUNT.COUNT 0] with cus := { decRun := some 0, win := [{ sub := { index := 0, epoch := 0, shuffle := 0, addr := 0x500000 }, hdr := item [(0x28 * 8, 4)], bytes := 4, tide := 1, slot := 0, st := .decoding }] } }

theorem test_witness_InputPipeline_9 : ∃ s : State, ∃ k : Nat, ∃ r : Option (List Byte), ∃ w : WinEnt, ((((s.cus.win.filter fun w => w.st = .decoding).take 16).find? fun w => w.sub.index = k) = some w) ∧ (cusWorks s 1 = true) ∧ (pastDeadline s w = false) ∧ (cusReadable s (w.sub.addr + 64) (balePaylen w.hdr) = true) ∧ (r = none) :=
  ⟨at_InputPipeline_9, 0, none, (((((at_InputPipeline_9).cus.win.filter fun w => w.st = .decoding).take 16).find? fun w => w.sub.index = ((0 : Nat)))).get (by decide), by decide +kernel⟩

/-- The state of the witness below. -/
def at_InputPipeline_10 : State := { made [setF CUS_CFG.EN 1, setF TIDE_COUNT.COUNT 0] with cus := { decRun := some 0, win := [{ sub := { index := 0, epoch := 0, shuffle := 0, addr := 0x500000 }, hdr := item [(0x28 * 8, 4)], bytes := 4, tide := 1, slot := 0, st := .decoding }] } }

theorem test_witness_InputPipeline_10 : ∃ s : State, ∃ k : Nat, ∃ r : Option (List Byte), ∃ w : WinEnt, ∃ d, ((((s.cus.win.filter fun w => w.st = .decoding).take 16).find? fun w => w.sub.index = k) = some w) ∧ (cusWorks s 1 = true) ∧ (pastDeadline s w = false) ∧ (cusReadable s (w.sub.addr + 64) (balePaylen w.hdr) = true) ∧ (r = some d) ∧ ((jpegAgrees s w = false ∨ d.length ≠ w.bytes)) :=
  ⟨at_InputPipeline_10, 0, some [1, 2, 3, 4], (((((at_InputPipeline_10).cus.win.filter fun w => w.st = .decoding).take 16).find? fun w => w.sub.index = ((0 : Nat)))).get (by decide), [1, 2, 3, 4], by decide +kernel⟩

/-- The state of the witness below. -/
def at_InputPipeline_11 : State := { stored 0x500040 (image 19 [(0, 2, 0xD8FF), (2, 2, 0xC0FF), (4, 2, 0x0B00), (6, 1, 8), (7, 2, 0x0100), (9, 2, 0x0100), (11, 1, 1), (12, 2, 0x1101), (15, 2, 0xDAFF), (17, 2, 0x0200)]) (made [setF CUS_CFG.EN 1, setF TIDE_COUNT.COUNT 0]) with cus := { decRun := some 0, win := [{ sub := { index := 0, epoch := 0, shuffle := 0, addr := 0x500000 }, hdr := item [(64, 1), (96, 1), (128, 1), (0x28 * 8, 19)], bytes := 1, tide := 1, slot := 0, st := .decoding }] } }

theorem test_witness_InputPipeline_11 : ∃ s : State, ∃ k : Nat, ∃ r : Option (List Byte), ∃ w : WinEnt, ∃ d, ((((s.cus.win.filter fun w => w.st = .decoding).take 16).find? fun w => w.sub.index = k) = some w) ∧ (cusWorks s 1 = true) ∧ (pastDeadline s w = false) ∧ (cusReadable s (w.sub.addr + 64) (balePaylen w.hdr) = true) ∧ (r = some d) ∧ (jpegAgrees s w = true) ∧ (d.length = w.bytes) :=
  ⟨at_InputPipeline_11, 0, some [7], (((((at_InputPipeline_11).cus.win.filter fun w => w.st = .decoding).take 16).find? fun w => w.sub.index = ((0 : Nat)))).get (by decide), [7], by decide +kernel⟩

theorem test_witness_InputPipeline_12 : ∃ s : State, ∃ v : W64, ((s.cus.win.find? fun w => w.st = .host && decide (w.sub.index = v.toNat) && !pastDeadline s w) = none) :=
  ⟨base, 0, by decide +kernel⟩

/-- The state of the witness below. -/
def at_InputPipeline_13 : State := { base with cus := { win := [{ sub := { index := 0, epoch := 0, shuffle := 0, addr := 0x500000 }, hdr := item [(0x28 * 8, 4)], bytes := 4, tide := 1, slot := 0, st := .host }] } }

theorem test_witness_InputPipeline_13 : ∃ s : State, ∃ v : W64, ∃ w, ((s.cus.win.find? fun w => w.st = .host && decide (w.sub.index = v.toNat) && !pastDeadline s w) = some w) ∧ (cusReadable s (getF s CUS_HOSTSTAGE.ADDR * 64 + w.slot * slotBytes s + 64) w.bytes = true) :=
  ⟨at_InputPipeline_13, 0, (((at_InputPipeline_13).cus.win.find? fun w => w.st = .host && decide (w.sub.index = ((0 : W64)).toNat) && !pastDeadline (at_InputPipeline_13) w)).get (by decide), by decide +kernel⟩

/-- The state of the witness below. -/
def at_InputPipeline_14 : State := { charted chart1 base with tide := { parts := [(0, { plan := some { addr := 0x100, setv := false, set := 0, link := 0x200 } })] } }

theorem test_witness_InputPipeline_14 : ∃ s : State, ((match cusPart? s with | some p => holdsPlan s p | none => false) = true) :=
  ⟨at_InputPipeline_14, by decide +kernel⟩

/-- The state of the witness below. -/
def at_InputPipeline_15 : State := charted chart1 base

theorem test_witness_InputPipeline_15 : ∃ s : State, ((match cusPart? s with | some p => holdsPlan s p | none => false) = false) :=
  ⟨at_InputPipeline_15, by decide +kernel⟩

/-- The state of the witness below. -/
def at_InputPipeline_16 : State := charted { chart1 with sections := chart1.sections ++ [(0xE, image 48 [(0x28, 8, 64)])] } (made [setF CUS_BATCHBUF.SLOTBYTES 2])

theorem test_witness_InputPipeline_16 : ∃ s : State, ((partOfUnit s 515 = none ∨ partOfUnit s 515 = cusPart? s)) ∧ (chartF s 0xE 0x28 8 + 64 ≤ slotBytes s) :=
  ⟨at_InputPipeline_16, by decide +kernel⟩

/-- The state of the witness below. -/
def at_InputPipeline_17 : State := charted { chart1 with sections := chart1.sections ++ [(0xE, image 48 [(0x28, 8, 65)])] } (made [setF CUS_BATCHBUF.SLOTBYTES 2])

theorem test_witness_InputPipeline_17 : ∃ s : State, ((partOfUnit s 515 ≠ none ∧ partOfUnit s 515 ≠ cusPart? s) ∨ slotBytes s < chartF s 0xE 0x28 8 + 64) :=
  ⟨at_InputPipeline_17, by decide +kernel⟩

/-- The state of the witness below. -/
def at_EnergyMessages_1 : State := made [setF TIDE_COUNT.COUNT 5]

theorem test_witness_EnergyMessages_1 : ∃ s : State, ∃ f : Desc, ((flitOk f && decide (dByte f 0 = 1) && decide (dByte f 1 ≤ 5) && decide (dByte f 8 8 = endedTide s)) = true) :=
  ⟨at_EnergyMessages_1, flitOf [(0, 1), (8, 5), (64, 4)], by decide +kernel⟩

/-- The state of the witness below. -/
def at_EnergyMessages_2 : State := made [setF TIDE_COUNT.COUNT 5]

theorem test_witness_EnergyMessages_2 : ∃ s : State, ∃ f : Desc, ((flitOk f && decide (dByte f 0 = 1) && decide (dByte f 1 ≤ 5) && decide (dByte f 8 8 = endedTide s)) = false) :=
  ⟨at_EnergyMessages_2, flitOf [(0, 1), (8, 6), (64, 4)], by decide +kernel⟩

/-- The state of the witness below. -/
def at_EnergyMessages_3 : State := made [setF TIDE_COUNT.COUNT 5]

theorem test_witness_EnergyMessages_3 : ∃ s : State, ∃ f : Desc, ((flitOk f && decide (dByte f 0 = 2) && decide (dByte f 1 ≤ 5) && decide (dByte f 8 8 = getF s TIDE_COUNT.COUNT)) = true) :=
  ⟨at_EnergyMessages_3, flitOf [(0, 2), (8, 5), (64, 5)], by decide +kernel⟩

/-- The state of the witness below. -/
def at_EnergyMessages_4 : State := made [setF TIDE_COUNT.COUNT 5]

theorem test_witness_EnergyMessages_4 : ∃ s : State, ∃ f : Desc, ((flitOk f && decide (dByte f 0 = 2) && decide (dByte f 1 ≤ 5) && decide (dByte f 8 8 = getF s TIDE_COUNT.COUNT)) = false) :=
  ⟨at_EnergyMessages_4, flitOf [(0, 2), (8, 5), (64, 4)], by decide +kernel⟩

/-- The state of the witness below. -/
def at_EnergyMessages_5 : State := made [setF EN_STATE.SLOTS 1]

theorem test_witness_EnergyMessages_5 : ∃ s : State, ∃ d : Fin 4, (getF s EN_STATE.SLOTS d ≠ 0) ∧ (d.val ∉ s.en.slots) :=
  ⟨at_EnergyMessages_5, 0, by decide +kernel⟩

theorem test_witness_EnergyMessages_6 : ∃ s : State, ∃ d : Fin 4, (getF s EN_STATE.SLOTS d = 0 ∨ d.val ∈ s.en.slots) :=
  ⟨base, 0, by decide +kernel⟩

theorem test_witness_EnergyMessages_7 : ∃ s : State, ∃ d : Fin 4, (d.val ∉ s.en.limited) :=
  ⟨base, 0, by decide +kernel⟩

/-- The state of the witness below. -/
def at_EnergyMessages_8 : State := { base with en := { limited := [0] } }

theorem test_witness_EnergyMessages_8 : ∃ s : State, ∃ d : Fin 4, (d.val ∈ s.en.limited) :=
  ⟨at_EnergyMessages_8, 0, by decide +kernel⟩

/-- The state of the witness below. -/
def at_EnergyMessages_9 : State := { base with en := { critical := [0] } }

theorem test_witness_EnergyMessages_9 : ∃ s : State, ∃ d : Fin 5, (d.val ∈ s.en.critical) :=
  ⟨at_EnergyMessages_9, 0, by decide +kernel⟩

/-- The state of the witness below. -/
def at_EnergyMessages_10 : State := { base with en := { critical := [4] } }

theorem test_witness_EnergyMessages_10 : ∃ s : State, ∃ d : Fin 5, (d.val ∉ s.en.critical) :=
  ⟨at_EnergyMessages_10, 0, by decide +kernel⟩

theorem test_witness_EnergyMessages_11 : ∃ i : List Nat, ∃ g : List Nat, (i.length = 3) ∧ (g.length = 3) :=
  ⟨[1, 2, 3], [1, 2, 3], by decide +kernel⟩

theorem test_witness_EnergyMessages_12 : ∃ i : List Nat, ∃ g : List Nat, (i.length ≠ 3 ∨ g.length ≠ 3) :=
  ⟨[1, 2, 3], [1, 2], by decide +kernel⟩

/-- The state of the witness below. -/
def at_GaugesAndDarkness_1 : State := { base with en := { ageSched := [5] } }

theorem test_witness_GaugesAndDarkness_1 : ∃ s : State, ∃ d : Fin 6, ∃ r : List (Nat × BitVec 8), (d.val ∈ s.en.ageSched) ∧ (r.length = (gaugesOf d).2) :=
  ⟨at_GaugesAndDarkness_1, 5, List.replicate 16 (60, 0), by decide +kernel⟩

/-- The state of the witness below. -/
def at_GaugesAndDarkness_2 : State := { base with en := { ageSched := [5] } }

theorem test_witness_GaugesAndDarkness_2 : ∃ s : State, ∃ d : Fin 6, ∃ r : List (Nat × BitVec 8), (d.val ∉ s.en.ageSched ∨ r.length ≠ (gaugesOf d).2) :=
  ⟨at_GaugesAndDarkness_2, 5, List.replicate 15 (60, 0), by decide +kernel⟩

/-- The state of the witness below. -/
def at_GaugesAndDarkness_3 : State := { made [setF TIDE_COUNT.COUNT 1025] with en := { ageWait := [(5, 1)] } }

theorem test_witness_GaugesAndDarkness_3 : ∃ s : State, ∃ d : Fin 6, ∃ r : List (Nat × BitVec 8), ∃ n : Nat, (Cells.look s.en.ageWait d = some n) ∧ (n + 1024 ≤ getF s TIDE_COUNT.COUNT) ∧ (r.length = (gaugesOf d).2) :=
  ⟨at_GaugesAndDarkness_3, 5, List.replicate 16 (60, 0), 1, by decide +kernel⟩

/-- The state of the witness below. -/
def at_GaugesAndDarkness_4 : State := { made [setF TIDE_COUNT.COUNT 1024] with en := { ageWait := [(5, 1)] } }

theorem test_witness_GaugesAndDarkness_4 : ∃ s : State, ∃ d : Fin 6, ∃ n : Nat, (Cells.look s.en.ageWait d = some n) ∧ (getF s TIDE_COUNT.COUNT < n + 1024) :=
  ⟨at_GaugesAndDarkness_4, 5, 1, by decide +kernel⟩

theorem test_witness_GaugesAndDarkness_5 : ∃ k : BitVec 3, (5 ≤ k.toNat) :=
  ⟨5, by decide +kernel⟩

/-- The state of the witness below. -/
def at_GaugesAndDarkness_6 : State := { base with en := { dark := some 0 } }

theorem test_witness_GaugesAndDarkness_6 : ∃ s : State, ∃ k : BitVec 3, (1 ≤ k.toNat) ∧ (k.toNat ≤ 4) ∧ ((otherDark s (k.toNat - 1) || dieHasPlan s (k.toNat - 1)) = true) :=
  ⟨at_GaugesAndDarkness_6, 4, by decide +kernel⟩

/-- The state of the witness below. -/
def at_GaugesAndDarkness_7 : State := { base with en := { dark := some 3 } }

theorem test_witness_GaugesAndDarkness_7 : ∃ s : State, ∃ k : BitVec 3, (k.toNat ≤ 4) ∧ ((k.toNat = 0 ∨ (otherDark s (k.toNat - 1) || dieHasPlan s (k.toNat - 1)) = false)) :=
  ⟨at_GaugesAndDarkness_7, 4, by decide +kernel⟩

/-- The state of the witness below. -/
def at_GaugesAndDarkness_8 : State := { base with en := { sb := .standby } }

theorem test_witness_GaugesAndDarkness_8 : ∃ s : State, (s.en.sb ≠ .off) :=
  ⟨at_GaugesAndDarkness_8, by decide +kernel⟩

theorem test_witness_GaugesAndDarkness_9 : ∃ s : State, (s.en.sb = .off) ∧ (allDrained s = true) :=
  ⟨base, by decide +kernel⟩

/-- The state of the witness below. -/
def at_GaugesAndDarkness_10 : State := { charted chart1 base with tide := { parts := [(0, { plan := some { addr := 0x100, setv := false, set := 0, link := 0x200 } })] } }

theorem test_witness_GaugesAndDarkness_10 : ∃ s : State, (s.en.sb = .off) ∧ (allDrained s = false) :=
  ⟨at_GaugesAndDarkness_10, by decide +kernel⟩

/-- The state of the witness below. -/
def at_GaugesAndDarkness_11 : State := { base with en := { sb := .board } }

theorem test_witness_GaugesAndDarkness_11 : ∃ s : State, ((s.en.sb = .software ∨ (s.en.sb = .board ∧ allDrained s = true))) :=
  ⟨at_GaugesAndDarkness_11, by decide +kernel⟩

/-- The state of the witness below. -/
def at_GaugesAndDarkness_12 : State := { charted chart1 base with tide := { parts := [(0, { plan := some { addr := 0x100, setv := false, set := 0, link := 0x200 } })] }, en := { sb := .board } }

theorem test_witness_GaugesAndDarkness_12 : ∃ s : State, (s.en.sb = .off ∨ s.en.sb = .standby ∨ (s.en.sb = .board ∧ allDrained s = false)) :=
  ⟨at_GaugesAndDarkness_12, by decide +kernel⟩

/-- The state of the witness below. -/
def at_GaugesAndDarkness_13 : State := { base with en := { sb := .board } }

theorem test_witness_GaugesAndDarkness_13 : ∃ s : State, (s.en.sb = .board) :=
  ⟨at_GaugesAndDarkness_13, by decide +kernel⟩

theorem test_witness_GaugesAndDarkness_14 : ∃ s : State, (s.en.sb ≠ .board) :=
  ⟨base, by decide +kernel⟩

/-- The state of the witness below. -/
def at_GaugesAndDarkness_15 : State := { base with en := { waking := some 0 } }

theorem test_witness_GaugesAndDarkness_15 : ∃ s : State, ∃ d : Fin 4, (s.en.waking = some d.val) ∧ (s.en.darkDue = false) :=
  ⟨at_GaugesAndDarkness_15, 0, by decide +kernel⟩

/-- The state of the witness below. -/
def at_GaugesAndDarkness_16 : State := { base with en := { waking := some 3 } }

theorem test_witness_GaugesAndDarkness_16 : ∃ s : State, ∃ d : Fin 4, (s.en.waking ≠ some d.val ∨ s.en.darkDue = true) :=
  ⟨at_GaugesAndDarkness_16, 0, by decide +kernel⟩

/-- The state of the witness below. -/
def at_HuralSessions_1 : State := ported { barred := true } (base)

theorem test_witness_HuralSessions_1 : ∃ s : State, ∃ n : Fin 18, ((portSt s n).barred = true) :=
  ⟨at_HuralSessions_1, 0, by decide +kernel⟩

theorem test_witness_HuralSessions_2 : ∃ s : State, ∃ n : Fin 18, ((portSt s n).barred = false) :=
  ⟨base, 0, by decide +kernel⟩

/-- The state of the witness below. -/
def at_HuralSessions_3 : State := { charted chart1 (made [setF HURAL_CFG.EN 1]) with sec := { idKey := [1] } }

theorem test_witness_HuralSessions_3 : ∃ s : State, ∃ n : Fin 18, ((portSt s n).barred = false) ∧ (sessionUp s n = false) ∧ (mayOpen s = true) ∧ (getB s HURAL_CFG.EN n = true) :=
  ⟨at_HuralSessions_3, 0, by decide +kernel⟩

theorem test_witness_HuralSessions_4 : ∃ s : State, ∃ n : Fin 18, ((portSt s n).barred = false) ∧ (sessionUp s n = false) ∧ (mayOpen s = false) :=
  ⟨base, 0, by decide +kernel⟩

/-- The state of the witness below. -/
def at_HuralSessions_5 : State := made [setF HURAL_STAT.STATE 3]

theorem test_witness_HuralSessions_5 : ∃ s : State, ∃ n : Fin 18, (sessionUp s n = true) ∧ ((portSt s n).rekey = none) :=
  ⟨at_HuralSessions_5, 0, by decide +kernel⟩

/-- The state of the witness below. -/
def at_HuralSessions_6 : State := ported { txSeq := 2 ^ 63 - 1, rxSeq := 2 ^ 63 - 1 } (made [setF HURAL_STAT.STATE 3])

theorem test_witness_HuralSessions_6 : ∃ s : State, ∃ n : Fin 18, (sessionUp s n = true) ∧ ((portSt s n).rekey = none) ∧ ((portSt s n).txSeq < 2 ^ 63) ∧ ((portSt s n).rxSeq < 2 ^ 63) :=
  ⟨at_HuralSessions_6, 0, by decide +kernel⟩

/-- The state of the witness below. -/
def at_HuralSessions_7 : State := ported { retry := true } (made [setF HURAL_STAT.STATE 3])

theorem test_witness_HuralSessions_7 : ∃ s : State, ∃ n : Fin 18, (sessionUp s n = true) ∧ ((portSt s n).rekey = none) ∧ ((portSt s n).retry = true) :=
  ⟨at_HuralSessions_7, 0, by decide +kernel⟩

theorem test_witness_HuralSessions_8 : ∃ s : State, ∃ n : Fin 18, (sessionUp s n = false ∨ (portSt s n).rekey ≠ none) :=
  ⟨base, 0, by decide +kernel⟩

/-- The state of the witness below. -/
def at_HuralSessions_9 : State := ported { txSeq := 2 ^ 63 } (base)

theorem test_witness_HuralSessions_9 : ∃ s : State, ∃ n : Fin 18, (2 ^ 63 ≤ (portSt s n).txSeq ∨ 2 ^ 63 ≤ (portSt s n).rxSeq) :=
  ⟨at_HuralSessions_9, 0, by decide +kernel⟩

theorem test_witness_HuralSessions_10 : ∃ s : State, ∃ n : Fin 18, ((portSt s n).retry = false) :=
  ⟨base, 0, by decide +kernel⟩

/-- The state of the witness below. -/
def at_HuralSessions_11 : State := ported { set := some {} } (base)

theorem test_witness_HuralSessions_11 : ∃ s : State, ∃ n : Fin 18, ∃ x : Exchange, ∃ idrev : W64, ∃ key : List Byte, ∃ e : List Byte, ((portSt s n).set = some x) ∧ (x.step = 1) ∧ (idrev.toNat / 2 ^ 32 = (getReg s .IDREV 0 0).toNat / 2 ^ 32) ∧ (Config.mldsaVerify (ownerKey s) (endorsed key idrev) e = true ∨ Config.mldsaVerify (ownerKey s) (endorsed key idrev) e = false) :=
  ⟨at_HuralSessions_11, 0, {}, getReg base .IDREV 0 0, [], [], by decide +kernel, by decide +kernel, by decide +kernel, Bool.eq_false_or_eq_true _⟩

/-- The state of the witness below. -/
def at_HuralSessions_12 : State := ported { set := some {} } (base)

theorem test_witness_HuralSessions_12 : ∃ s : State, ∃ n : Fin 18, ∃ x : Exchange, ∃ idrev : W64, ∃ key : List Byte, ∃ e : List Byte, ((portSt s n).set = some x) ∧ (x.step = 1) ∧ (Config.mldsaVerify (ownerKey s) (endorsed key idrev) e = false ∨ Config.mldsaVerify (ownerKey s) (endorsed key idrev) e = true) ∧ ((recent s.now oneSecond (portSt s n).hostile).length ≤ max 1 (getF s HURAL_THRESH.HOSTILE)) :=
  ⟨at_HuralSessions_12, 0, {}, 0, [], [], by decide +kernel, by decide +kernel, (Bool.eq_false_or_eq_true _).symm, by decide +kernel⟩

/-- The state of the witness below. -/
def at_HuralSessions_13 : State := ported { set := some { step := 4 } } (base)

theorem test_witness_HuralSessions_13 : ∃ s : State, ∃ n : Fin 18, ∃ x : Exchange, ∃ sig : List Byte, ((portSt s n).set = some x) ∧ (x.step = 4) ∧ (Config.mldsaVerify (sha3_256 (portSt s n).peerKey) (sha3_256 x.transcript) sig = true ∨ Config.mldsaVerify (sha3_256 (portSt s n).peerKey) (sha3_256 x.transcript) sig = false) :=
  ⟨at_HuralSessions_13, 0, { step := 4 }, [], by decide +kernel, by decide +kernel, Bool.eq_false_or_eq_true _⟩

theorem test_witness_HuralSessions_14 : ∃ s : State, ∃ n : Fin 18, ((portSt s n).set = none) ∧ (sessionUp s n = false) :=
  ⟨base, 0, by decide +kernel⟩

/-- The state of the witness below. -/
def at_HuralSessions_15 : State := { base with hural := { hold := true } }

theorem test_witness_HuralSessions_15 : ∃ s : State, (s.hural.hold = true) :=
  ⟨at_HuralSessions_15, by decide +kernel⟩

theorem test_witness_HuralSessions_16 : ∃ s : State, (s.hural.hold = false) :=
  ⟨base, by decide +kernel⟩

/-- The state of the witness below. -/
def at_HuralSessions_17 : State := ported { ctl := [.nak 3, .close 5] } (base)

theorem test_witness_HuralSessions_17 : ∃ s : State, ∃ n : Fin 18, ∃ r : Nat, (((portSt s n).ctl.findSome? fun c => match c with | .close r => some r | .nak _ => none) = some r) :=
  ⟨at_HuralSessions_17, 0, (((portSt (at_HuralSessions_17) ((0 : Fin 18))).ctl.findSome? fun c => match c with | .close r => some r | .nak _ => none)).get (by decide), by decide +kernel⟩

/-- The state of the witness below. -/
def at_HuralSessions_18 : State := made [setF HURAL_STAT.STATE 3]

theorem test_witness_HuralSessions_18 : ∃ s : State, ∃ n : Fin 18, (portState s n = 3) :=
  ⟨at_HuralSessions_18, 0, by decide +kernel⟩

/-- The state of the witness below. -/
def at_HuralSessions_19 : State := made [setF HURAL_STAT.STATE 4]

theorem test_witness_HuralSessions_19 : ∃ s : State, ∃ n : Fin 18, (portState s n ≠ 3) :=
  ⟨at_HuralSessions_19, 0, by decide +kernel⟩

/-- The state of the witness below. -/
def at_HuralSessions_20 : State := made [setF HURAL_STAT.STATE 3]

theorem test_witness_HuralSessions_20 : ∃ s : State, ∃ n : Fin 18, ∃ vc : Fin 4, (portState s n = 3) ∧ ((portSt s n).creditOf vc = 0) ∧ ((portSt s n).slow = none) :=
  ⟨at_HuralSessions_20, 0, 0, by decide +kernel⟩

/-- The state of the witness below. -/
def at_HuralSessions_21 : State := ported { slow := some 3 } (made [setF HURAL_STAT.STATE 3])

theorem test_witness_HuralSessions_21 : ∃ s : State, ∃ n : Fin 18, ((portSt s n).slow ≠ none) ∧ (sessionUp s n = true) :=
  ⟨at_HuralSessions_21, 0, by decide +kernel⟩

/-- The state of the witness below. -/
def at_HuralSessions_22 : State := made [setF HURAL_STAT.STATE 5]

theorem test_witness_HuralSessions_22 : ∃ s : State, ∃ n : Fin 18, (portState s n = 5) :=
  ⟨at_HuralSessions_22, 0, by decide +kernel⟩

theorem test_witness_HuralSessions_23 : ∃ s : State, ∃ n : Fin 18, (portState s n ≠ 5) :=
  ⟨base, 0, by decide +kernel⟩

/-- The state of the witness below. -/
def at_HuralSessions_24 : State := made [setF HURAL_STAT.STATE 4, setF HURAL_STAT.PARTNER 3]

theorem test_witness_HuralSessions_24 : ∃ s : State, ∃ n : Fin 18, (sessionUp s n = true) ∧ (getF s HURAL_STAT.PARTNER n = 3) :=
  ⟨at_HuralSessions_24, 0, by decide +kernel⟩

theorem test_witness_HuralSessions_25 : ∃ s : State, ∃ n : Fin 18, (getF s HURAL_STAT.PARTNER n ≠ 3) :=
  ⟨base, 0, by decide +kernel⟩

theorem test_witness_HuralFlits_1 : ∃ s : State, ∃ n : Fin 18, (sessionUp s n = false) ∧ ((portSt s n).set = none) :=
  ⟨base, 0, by decide +kernel⟩

/-- The state of the witness below. -/
def at_HuralFlits_2 : State := made [setF HURAL_STAT.STATE 3]

theorem test_witness_HuralFlits_2 : ∃ s : State, ∃ n : Fin 18, (sessionUp s n = true) :=
  ⟨at_HuralFlits_2, 0, by decide +kernel⟩

/-- The state of the witness below. -/
def at_HuralFlits_3 : State := made [setF HURAL_STAT.STATE 3]

theorem test_witness_HuralFlits_3 : ∃ s : State, ∃ n : Fin 18, ∃ f : List Byte, (sessionUp s n = true) ∧ (f.length ≠ 256 ∨ fieldAt f 0xFC 4 ≠ (crc32 (f.take 0xFC)).toNat) :=
  ⟨at_HuralFlits_3, 0, List.replicate 255 0, by decide +kernel⟩

/-- The state of the witness below. -/
def at_HuralFlits_4 : State := made [setF HURAL_STAT.STATE 3]

theorem test_witness_HuralFlits_4 : ∃ s : State, ∃ n : Fin 18, ∃ f : List Byte, ∃ d, (sessionUp s n = true) ∧ (f.length = 256) ∧ (fieldAt f 0xFC 4 = (crc32 (f.take 0xFC)).toNat) ∧ (d = (bitsOf (fieldAt f 0 8) 48 16 + 2 ^ 16 - (portSt s n).rxSeq % 2 ^ 16) % 2 ^ 16) :=
  ⟨at_HuralFlits_4, 0, sealed (image 252 [(6, 2, 5)]), (bitsOf (fieldAt ((sealed (image 252 [(6, 2, 5)]) : List Byte)) 0 8) 48 16 + 2 ^ 16 - (portSt (at_HuralFlits_4) ((0 : Fin 18))).rxSeq % 2 ^ 16) % 2 ^ 16, by decide +kernel⟩

/-- The state of the witness below. -/
def at_HuralFlits_5 : State := made [setF HURAL_STAT.STATE 2]

theorem test_witness_HuralFlits_5 : ∃ s : State, ∃ n : Fin 18, (getB s HURAL_CFG.MODE n = false) ∧ (portState s n = 1 ∨ portState s n = 2) :=
  ⟨at_HuralFlits_5, 0, by decide +kernel⟩

/-- The state of the witness below. -/
def at_HuralFlits_6 : State := made [setF HURAL_CFG.MODE 1]

theorem test_witness_HuralFlits_6 : ∃ s : State, ∃ n : Fin 18, ∃ f : List Byte, (getB s HURAL_CFG.MODE n = true) ∧ (beNat (slice f 12 2) = 0x8808) :=
  ⟨at_HuralFlits_6, 0, image 64 [(12, 2, 0x0888)], by decide +kernel⟩

/-- The state of the witness below. -/
def at_HuralFlits_7 : State := made [setF HURAL_CFG.MODE 1]

theorem test_witness_HuralFlits_7 : ∃ s : State, ∃ n : Fin 18, ∃ f : List Byte, (getB s HURAL_CFG.MODE n = true) ∧ (beNat (slice f 12 2) ≠ 0x8808) ∧ (beNat (slice f 12 2) ≠ 0x8100) ∧ (fieldAt f (f.length - 4) 4 ≠ (crc32 (f.take (f.length - 4))).toNat) :=
  ⟨at_HuralFlits_7, 0, image 64 [], by decide +kernel⟩

/-- The state of the witness below. -/
def at_HuralFlits_8 : State := ported { ctl := [.close 5, .nak 3] } (base)

theorem test_witness_HuralFlits_8 : ∃ s : State, ∃ n : Fin 18, ∃ e : Nat, (((portSt s n).ctl.findSome? fun c => match c with | .nak e => some e | .close _ => none) = some e) :=
  ⟨at_HuralFlits_8, 0, (((portSt (at_HuralFlits_8) ((0 : Fin 18))).ctl.findSome? fun c => match c with | .nak e => some e | .close _ => none)).get (by decide), by decide +kernel⟩

/-- The state of the witness below. -/
def at_HuralFlits_9 : State := { ported { replay := [{ seq := 0, time := 0, bytes := [] }] } base with now := 16000 }

theorem test_witness_HuralFlits_9 : ∃ s : State, ∃ n : Fin 18, ∃ r, (((portSt s n).replay.find? fun r => decide ((portSt s n).acked ≤ r.seq) && decide (r.time + 16000 ≤ s.now)) = some r) :=
  ⟨at_HuralFlits_9, 0, (((portSt (at_HuralFlits_9) ((0 : Fin 18))).replay.find? fun r => decide ((portSt (at_HuralFlits_9) ((0 : Fin 18))).acked ≤ r.seq) && decide (r.time + 16000 ≤ (at_HuralFlits_9).now))).get (by decide), by decide +kernel⟩

/-- The state of the witness below. -/
def at_HuralFlits_10 : State := { ported { replay := [{ seq := 0, time := 0, bytes := [] }] } base with now := 15999 }

theorem test_witness_HuralFlits_10 : ∃ s : State, ∃ n : Fin 18, (((portSt s n).replay.find? fun r => decide ((portSt s n).acked ≤ r.seq) && decide (r.time + 16000 ≤ s.now)) = none) :=
  ⟨at_HuralFlits_10, 0, by decide +kernel⟩

/-- The state of the witness below. -/
def at_HuralFlits_11 : State := made [setF HURAL_STAT.STATE 3]

theorem test_witness_HuralFlits_11 : ∃ s : State, ∃ n : Fin 18, (sessionUp s n = true) ∧ ((portSt s n).queue = []) ∧ (getF s SHD_STAT.ROLE ≠ 3) :=
  ⟨at_HuralFlits_11, 0, by decide +kernel⟩

/-- The state of the witness below. -/
def at_HuralFlits_12 : State := ported { queue := [{ msg := { op := 1, src := 0, dst := 1 } }] } (made [setF HURAL_STAT.STATE 3])

theorem test_witness_HuralFlits_12 : ∃ s : State, ∃ n : Fin 18, (sessionUp s n = false ∨ (portSt s n).queue ≠ []) :=
  ⟨at_HuralFlits_12, 0, by decide +kernel⟩

/-- The state of the witness below. -/
def at_HuralMessages_1 : State := mailed { src := 3, dst := 0, txn := 7, op := 1, addr := 0, data := [1] } (base)

theorem test_witness_HuralMessages_1 : ∃ s : State, ∃ n : Fin 19, ∃ m : HMsg, ∃ k : Nat, ((s.hural.inbox.find? fun e => e.1 = n.val && e.2.1.op = 0x01) = some (n.val, m, k)) ∧ ((lenderPieces s m.src true m.addr m.data.length).2 ≠ 0) :=
  ⟨at_HuralMessages_1, 0, ((((at_HuralMessages_1).hural.inbox.find? fun e => e.1 = ((0 : Fin 19)).val && e.2.1.op = 0x01)).get (by decide)).2.1, ((((at_HuralMessages_1).hural.inbox.find? fun e => e.1 = ((0 : Fin 19)).val && e.2.1.op = 0x01)).get (by decide)).2.2, by decide +kernel⟩

/-- The state of the witness below. -/
def at_HuralMessages_2 : State := mailed { src := 3, dst := 0, txn := 7, op := 1, addr := 63, data := [1] } (lender)

theorem test_witness_HuralMessages_2 : ∃ s : State, ∃ n : Fin 19, ∃ m : HMsg, ∃ k : Nat, ((s.hural.inbox.find? fun e => e.1 = n.val && e.2.1.op = 0x01) = some (n.val, m, k)) ∧ ((lenderPieces s m.src true m.addr m.data.length).2 = 0) ∧ (0 < m.data.length) ∧ (m.addr % 64 + m.data.length ≤ 64) :=
  ⟨at_HuralMessages_2, 0, ((((at_HuralMessages_2).hural.inbox.find? fun e => e.1 = ((0 : Fin 19)).val && e.2.1.op = 0x01)).get (by decide)).2.1, ((((at_HuralMessages_2).hural.inbox.find? fun e => e.1 = ((0 : Fin 19)).val && e.2.1.op = 0x01)).get (by decide)).2.2, by decide +kernel⟩

/-- The state of the witness below. -/
def at_HuralMessages_3 : State := mailed { src := 3, dst := 0, txn := 7, op := 0x30, addr := 0, data := List.replicate 64 1 } (lender)

theorem test_witness_HuralMessages_3 : ∃ s : State, ∃ n : Fin 19, ∃ m : HMsg, ∃ k : Nat, ((s.hural.inbox.find? fun e => e.1 = n.val && e.2.1.op = 0x30) = some (n.val, m, k)) ∧ ((lenderPieces s m.src true m.addr m.data.length).2 = 0) ∧ (0 < m.data.length) ∧ (m.addr % 64 + m.data.length ≤ 64) :=
  ⟨at_HuralMessages_3, 0, ((((at_HuralMessages_3).hural.inbox.find? fun e => e.1 = ((0 : Fin 19)).val && e.2.1.op = 0x30)).get (by decide)).2.1, ((((at_HuralMessages_3).hural.inbox.find? fun e => e.1 = ((0 : Fin 19)).val && e.2.1.op = 0x30)).get (by decide)).2.2, by decide +kernel⟩

/-- The state of the witness below. -/
def at_HuralMessages_4 : State := mailed { src := 3, dst := 0, txn := 7, op := 3, addr := 2 ^ 21, len := 1 } (lender)

theorem test_witness_HuralMessages_4 : ∃ s : State, ∃ n : Fin 19, ∃ m : HMsg, ∃ k : Nat, ((s.hural.inbox.find? fun e => e.1 = n.val && (e.2.1.op = 0x03 && !lenderHeld s e.2.1)) = some (n.val, m, k)) ∧ ((lenderPieces s m.src false m.addr m.len).2 ≠ 0) :=
  ⟨at_HuralMessages_4, 0, ((((at_HuralMessages_4).hural.inbox.find? fun e => e.1 = ((0 : Fin 19)).val && (e.2.1.op = 0x03 && !lenderHeld (at_HuralMessages_4) e.2.1))).get (by decide)).2.1, ((((at_HuralMessages_4).hural.inbox.find? fun e => e.1 = ((0 : Fin 19)).val && (e.2.1.op = 0x03 && !lenderHeld (at_HuralMessages_4) e.2.1))).get (by decide)).2.2, by decide +kernel⟩

/-- The state of the witness below. -/
def at_HuralMessages_5 : State := mailed { src := 3, dst := 0, txn := 7, op := 3, addr := 2 ^ 21 - 8, len := 8 } (lender)

theorem test_witness_HuralMessages_5 : ∃ s : State, ∃ n : Fin 19, ∃ m : HMsg, ∃ k : Nat, ((s.hural.inbox.find? fun e => e.1 = n.val && (e.2.1.op = 0x03 && !lenderHeld s e.2.1)) = some (n.val, m, k)) ∧ ((lenderPieces s m.src false m.addr m.len).2 = 0) :=
  ⟨at_HuralMessages_5, 0, ((((at_HuralMessages_5).hural.inbox.find? fun e => e.1 = ((0 : Fin 19)).val && (e.2.1.op = 0x03 && !lenderHeld (at_HuralMessages_5) e.2.1))).get (by decide)).2.1, ((((at_HuralMessages_5).hural.inbox.find? fun e => e.1 = ((0 : Fin 19)).val && (e.2.1.op = 0x03 && !lenderHeld (at_HuralMessages_5) e.2.1))).get (by decide)).2.2, by decide +kernel⟩

/-- The state of the witness below. -/
def at_HuralMessages_6 : State := mailed { src := 3, dst := 0, txn := 7, op := 2 } (asked (.bell 0 1) (base))

theorem test_witness_HuralMessages_6 : ∃ s : State, ∃ n : Fin 19, ∃ m : HMsg, ∃ k : Nat, ∃ r : OutReq, ((s.hural.reqs.find? fun r => r.txn = m.txn && r.dst = m.src && !r.held) = some r) ∧ ((s.hural.inbox.find? fun e => e.1 = n.val && e.2.1.op = 0x02) = some (n.val, m, k)) :=
  ⟨at_HuralMessages_6, 0, ((((at_HuralMessages_6).hural.inbox.find? fun e => e.1 = ((0 : Fin 19)).val && e.2.1.op = 0x02)).get (by decide)).2.1, ((((at_HuralMessages_6).hural.inbox.find? fun e => e.1 = ((0 : Fin 19)).val && e.2.1.op = 0x02)).get (by decide)).2.2, (((at_HuralMessages_6).hural.reqs.find? fun r => r.txn = ((((((at_HuralMessages_6).hural.inbox.find? fun e => e.1 = ((0 : Fin 19)).val && e.2.1.op = 0x02)).get (by decide)).2.1 : HMsg)).txn && r.dst = ((((((at_HuralMessages_6).hural.inbox.find? fun e => e.1 = ((0 : Fin 19)).val && e.2.1.op = 0x02)).get (by decide)).2.1 : HMsg)).src && !r.held)).get (by decide), by decide +kernel⟩

/-- The state of the witness below. -/
def at_HuralMessages_7 : State := mailed { src := 3, dst := 0, txn := 7, op := 4, data := List.replicate 8 1 } (asked (.read (.host 0) 0x400000000000 8) (base))

theorem test_witness_HuralMessages_7 : ∃ s : State, ∃ n : Fin 19, ∃ m : HMsg, ∃ k : Nat, ∃ r : OutReq, ∃ who, ∃ a, ∃ len, ((s.hural.reqs.find? fun r => r.txn = m.txn && r.dst = m.src && !r.held) = some r) ∧ ((s.hural.inbox.find? fun e => e.1 = n.val && e.2.1.op = 0x04) = some (n.val, m, k)) ∧ (r.job = .read who a len) :=
  ⟨at_HuralMessages_7, 0, ((((at_HuralMessages_7).hural.inbox.find? fun e => e.1 = ((0 : Fin 19)).val && e.2.1.op = 0x04)).get (by decide)).2.1, ((((at_HuralMessages_7).hural.inbox.find? fun e => e.1 = ((0 : Fin 19)).val && e.2.1.op = 0x04)).get (by decide)).2.2, (((at_HuralMessages_7).hural.reqs.find? fun r => r.txn = ((((((at_HuralMessages_7).hural.inbox.find? fun e => e.1 = ((0 : Fin 19)).val && e.2.1.op = 0x04)).get (by decide)).2.1 : HMsg)).txn && r.dst = ((((((at_HuralMessages_7).hural.inbox.find? fun e => e.1 = ((0 : Fin 19)).val && e.2.1.op = 0x04)).get (by decide)).2.1 : HMsg)).src && !r.held)).get (by decide), .host 0, 0x400000000000, 8, by decide +kernel⟩

/-- The state of the witness below. -/
def at_HuralMessages_8 : State := mailed { src := 3, dst := 0, txn := 7, op := 5, addr := 1 } (asked (.bell 0 1) (base))

theorem test_witness_HuralMessages_8 : ∃ s : State, ∃ n : Fin 19, ∃ m : HMsg, ∃ k : Nat, ∃ r : OutReq, ((s.hural.reqs.find? fun r => r.txn = m.txn && r.dst = m.src && !r.held) = some r) ∧ ((s.hural.inbox.find? fun e => e.1 = n.val && e.2.1.op = 0x05) = some (n.val, m, k)) :=
  ⟨at_HuralMessages_8, 0, ((((at_HuralMessages_8).hural.inbox.find? fun e => e.1 = ((0 : Fin 19)).val && e.2.1.op = 0x05)).get (by decide)).2.1, ((((at_HuralMessages_8).hural.inbox.find? fun e => e.1 = ((0 : Fin 19)).val && e.2.1.op = 0x05)).get (by decide)).2.2, (((at_HuralMessages_8).hural.reqs.find? fun r => r.txn = ((((((at_HuralMessages_8).hural.inbox.find? fun e => e.1 = ((0 : Fin 19)).val && e.2.1.op = 0x05)).get (by decide)).2.1 : HMsg)).txn && r.dst = ((((((at_HuralMessages_8).hural.inbox.find? fun e => e.1 = ((0 : Fin 19)).val && e.2.1.op = 0x05)).get (by decide)).2.1 : HMsg)).src && !r.held)).get (by decide), by decide +kernel⟩

/-- The state of the witness below. -/
def at_HuralMessages_9 : State := mailed { src := 3, dst := 0, txn := 7, op := 5, addr := 3 } (asked (.read (.host 0) 0x400000000000 8) (base))

theorem test_witness_HuralMessages_9 : ∃ s : State, ∃ n : Fin 19, ∃ m : HMsg, ∃ k : Nat, ∃ r : OutReq, ∃ who, ∃ a, ∃ len, ((s.hural.reqs.find? fun r => r.txn = m.txn && r.dst = m.src && !r.held) = some r) ∧ ((s.hural.inbox.find? fun e => e.1 = n.val && e.2.1.op = 0x05) = some (n.val, m, k)) ∧ (r.job = .read who a len) ∧ ((isObject a.toNat = false ∨ bitsOf m.addr 0 8 ≠ 4 ∧ bitsOf m.addr 0 8 ≠ 5)) :=
  ⟨at_HuralMessages_9, 0, ((((at_HuralMessages_9).hural.inbox.find? fun e => e.1 = ((0 : Fin 19)).val && e.2.1.op = 0x05)).get (by decide)).2.1, ((((at_HuralMessages_9).hural.inbox.find? fun e => e.1 = ((0 : Fin 19)).val && e.2.1.op = 0x05)).get (by decide)).2.2, (((at_HuralMessages_9).hural.reqs.find? fun r => r.txn = ((((((at_HuralMessages_9).hural.inbox.find? fun e => e.1 = ((0 : Fin 19)).val && e.2.1.op = 0x05)).get (by decide)).2.1 : HMsg)).txn && r.dst = ((((((at_HuralMessages_9).hural.inbox.find? fun e => e.1 = ((0 : Fin 19)).val && e.2.1.op = 0x05)).get (by decide)).2.1 : HMsg)).src && !r.held)).get (by decide), .host 0, 0x400000000000, 8, by decide +kernel⟩

/-- The state of the witness below. -/
def at_HuralMessages_10 : State := mailed { src := 3, dst := 0, txn := 7, op := 0x21, addr := 2 ^ 64 - 1 } (asked (.grant 0) ({ made [setF TIER_MIGQ.SIZE 16, setF TIER_MIGPTR.TAIL 1] with tier := { mig := .waitFrame } }))

theorem test_witness_HuralMessages_10 : ∃ s : State, ∃ n : Fin 19, ∃ m : HMsg, ∃ k : Nat, ∃ r : OutReq, ∃ p, ((s.hural.reqs.find? fun r => r.txn = m.txn && r.dst = m.src && !r.held) = some r) ∧ ((s.hural.inbox.find? fun e => e.1 = n.val && e.2.1.op = 0x21) = some (n.val, m, k)) ∧ (r.job = .grant p) ∧ (s.tier.mig = .waitFrame) ∧ (m.addr = 2 ^ 64 - 1) :=
  ⟨at_HuralMessages_10, 0, ((((at_HuralMessages_10).hural.inbox.find? fun e => e.1 = ((0 : Fin 19)).val && e.2.1.op = 0x21)).get (by decide)).2.1, ((((at_HuralMessages_10).hural.inbox.find? fun e => e.1 = ((0 : Fin 19)).val && e.2.1.op = 0x21)).get (by decide)).2.2, (((at_HuralMessages_10).hural.reqs.find? fun r => r.txn = ((((((at_HuralMessages_10).hural.inbox.find? fun e => e.1 = ((0 : Fin 19)).val && e.2.1.op = 0x21)).get (by decide)).2.1 : HMsg)).txn && r.dst = ((((((at_HuralMessages_10).hural.inbox.find? fun e => e.1 = ((0 : Fin 19)).val && e.2.1.op = 0x21)).get (by decide)).2.1 : HMsg)).src && !r.held)).get (by decide), 0, by decide +kernel⟩

/-- The state of the witness below. -/
def at_HuralMessages_11 : State := mailed { src := 3, dst := 0, txn := 7, op := 0x21, addr := 0 } (asked (.grant 0) ({ made [setF TIER_MIGQ.SIZE 16, setF TIER_MIGPTR.TAIL 1] with tier := { mig := .waitFrame } }))

theorem test_witness_HuralMessages_11 : ∃ s : State, ∃ n : Fin 19, ∃ m : HMsg, ∃ k : Nat, ∃ r : OutReq, ∃ p, ∃ a, ((s.hural.reqs.find? fun r => r.txn = m.txn && r.dst = m.src && !r.held) = some r) ∧ ((s.hural.inbox.find? fun e => e.1 = n.val && e.2.1.op = 0x21) = some (n.val, m, k)) ∧ (r.job = .grant p) ∧ (s.tier.mig = .waitFrame) ∧ (m.addr ≠ 2 ^ 64 - 1) ∧ (migHead s = some a) :=
  ⟨at_HuralMessages_11, 0, ((((at_HuralMessages_11).hural.inbox.find? fun e => e.1 = ((0 : Fin 19)).val && e.2.1.op = 0x21)).get (by decide)).2.1, ((((at_HuralMessages_11).hural.inbox.find? fun e => e.1 = ((0 : Fin 19)).val && e.2.1.op = 0x21)).get (by decide)).2.2, (((at_HuralMessages_11).hural.reqs.find? fun r => r.txn = ((((((at_HuralMessages_11).hural.inbox.find? fun e => e.1 = ((0 : Fin 19)).val && e.2.1.op = 0x21)).get (by decide)).2.1 : HMsg)).txn && r.dst = ((((((at_HuralMessages_11).hural.inbox.find? fun e => e.1 = ((0 : Fin 19)).val && e.2.1.op = 0x21)).get (by decide)).2.1 : HMsg)).src && !r.held)).get (by decide), 0, (migHead (at_HuralMessages_11)).get (by decide), by decide +kernel⟩

/-- The state of the witness below. -/
def at_HuralMessages_12 : State := mailed { src := 3, dst := 0, txn := 7, op := 0x20 } (lender)

theorem test_witness_HuralMessages_12 : ∃ s : State, ∃ n : Fin 19, ∃ m : HMsg, ∃ k : Nat, ∃ i, ((s.hural.inbox.find? fun e => e.1 = n.val && e.2.1.op = 0x20) = some (n.val, m, k)) ∧ ((theChart s).lend ≠ 0) ∧ (freeFrameNo s = some i) ∧ (s.hural.grantWait = []) :=
  ⟨at_HuralMessages_12, 0, ((((at_HuralMessages_12).hural.inbox.find? fun e => e.1 = ((0 : Fin 19)).val && e.2.1.op = 0x20)).get (by decide)).2.1, ((((at_HuralMessages_12).hural.inbox.find? fun e => e.1 = ((0 : Fin 19)).val && e.2.1.op = 0x20)).get (by decide)).2.2, (freeFrameNo (at_HuralMessages_12)).get (by decide), by decide +kernel⟩

/-- The state of the witness below. -/
def at_HuralMessages_14 : State := mailed { src := 3, dst := 0, txn := 7, op := 0x22, addr := 2 ^ 21 - 1 } (lender)

theorem test_witness_HuralMessages_14 : ∃ s : State, ∃ n : Fin 19, ∃ m : HMsg, ∃ k : Nat, ∃ x, ((s.hural.inbox.find? fun e => e.1 = n.val && e.2.1.op = 0x22) = some (n.val, m, k)) ∧ (Cells.look s.tier.lent ((poolBase s + m.addr) / 2 ^ 21) = some x) ∧ (x.berth = m.src) ∧ (s.hural.grantWait = []) :=
  ⟨at_HuralMessages_14, 0, ((((at_HuralMessages_14).hural.inbox.find? fun e => e.1 = ((0 : Fin 19)).val && e.2.1.op = 0x22)).get (by decide)).2.1, ((((at_HuralMessages_14).hural.inbox.find? fun e => e.1 = ((0 : Fin 19)).val && e.2.1.op = 0x22)).get (by decide)).2.2, (Cells.look (at_HuralMessages_14).tier.lent ((poolBase (at_HuralMessages_14) + ((((((at_HuralMessages_14).hural.inbox.find? fun e => e.1 = ((0 : Fin 19)).val && e.2.1.op = 0x22)).get (by decide)).2.1 : HMsg)).addr) / 2 ^ 21)).get (by decide), by decide +kernel⟩

/-- The state of the witness below. -/
def at_HuralMessages_15 : State := mailed { src := 4, dst := 0, op := 0x22 } lender

theorem test_witness_HuralMessages_15 : ∃ s : State, ∃ n : Fin 19, ∃ m : HMsg, ∃ k : Nat, ∃ x, ((s.hural.inbox.find? fun e => e.1 = n.val && e.2.1.op = 0x22) = some (n.val, m, k)) ∧ (Cells.look s.tier.lent ((poolBase s + m.addr) / 2 ^ 21) = some x) ∧ (x.berth ≠ m.src) :=
  ⟨at_HuralMessages_15, 0, ((((at_HuralMessages_15).hural.inbox.find? fun e => e.1 = ((0 : Fin 19)).val && e.2.1.op = 0x22)).get (by decide)).2.1, ((((at_HuralMessages_15).hural.inbox.find? fun e => e.1 = ((0 : Fin 19)).val && e.2.1.op = 0x22)).get (by decide)).2.2, (Cells.look (at_HuralMessages_15).tier.lent ((poolBase (at_HuralMessages_15) + ((((((at_HuralMessages_15).hural.inbox.find? fun e => e.1 = ((0 : Fin 19)).val && e.2.1.op = 0x22)).get (by decide)).2.1 : HMsg)).addr) / 2 ^ 21)).get (by decide), by decide +kernel⟩

/-- The state of the witness below. -/
def at_HuralMessages_16 : State := mailed { src := 3, dst := 0, txn := 7, op := 0x23 } (base)

theorem test_witness_HuralMessages_16 : ∃ s : State, ∃ n : Fin 19, ∃ m : HMsg, ∃ k : Nat, ((s.hural.inbox.find? fun e => e.1 = n.val && e.2.1.op = 0x23) = some (n.val, m, k)) :=
  ⟨at_HuralMessages_16, 0, ((((at_HuralMessages_16).hural.inbox.find? fun e => e.1 = ((0 : Fin 19)).val && e.2.1.op = 0x23)).get (by decide)).2.1, ((((at_HuralMessages_16).hural.inbox.find? fun e => e.1 = ((0 : Fin 19)).val && e.2.1.op = 0x23)).get (by decide)).2.2, by decide +kernel⟩

/-- The state of the witness below. -/
def at_HuralMessages_17 : State := mailed { src := 3, dst := 0, txn := 7, op := 0x12 } (base)

theorem test_witness_HuralMessages_17 : ∃ s : State, ∃ n : Fin 19, ∃ m : HMsg, ∃ k : Nat, ((s.hural.inbox.find? fun e => e.1 = n.val && e.2.1.op = 0x12) = some (n.val, m, k)) :=
  ⟨at_HuralMessages_17, 0, ((((at_HuralMessages_17).hural.inbox.find? fun e => e.1 = ((0 : Fin 19)).val && e.2.1.op = 0x12)).get (by decide)).2.1, ((((at_HuralMessages_17).hural.inbox.find? fun e => e.1 = ((0 : Fin 19)).val && e.2.1.op = 0x12)).get (by decide)).2.2, by decide +kernel⟩

/-- The state of the witness below. -/
def at_HuralMessages_18 : State := mailed { src := 3, dst := 0, txn := 7, op := 0x13 } (base)

theorem test_witness_HuralMessages_18 : ∃ s : State, ∃ n : Fin 19, ∃ m : HMsg, ∃ k : Nat, ((s.hural.inbox.find? fun e => e.1 = n.val && e.2.1.op = 0x13) = some (n.val, m, k)) :=
  ⟨at_HuralMessages_18, 0, ((((at_HuralMessages_18).hural.inbox.find? fun e => e.1 = ((0 : Fin 19)).val && e.2.1.op = 0x13)).get (by decide)).2.1, ((((at_HuralMessages_18).hural.inbox.find? fun e => e.1 = ((0 : Fin 19)).val && e.2.1.op = 0x13)).get (by decide)).2.2, by decide +kernel⟩

/-- The state of the witness below. -/
def at_HuralMessages_19 : State := mailed { src := 3, dst := 0, txn := 7, op := 0x14 } (base)

theorem test_witness_HuralMessages_19 : ∃ s : State, ∃ n : Fin 19, ∃ m : HMsg, ∃ k : Nat, ((s.hural.inbox.find? fun e => e.1 = n.val && (e.2.1.op = 0x14 && !bitOf e.2.1.addr 0)) = some (n.val, m, k)) :=
  ⟨at_HuralMessages_19, 0, ((((at_HuralMessages_19).hural.inbox.find? fun e => e.1 = ((0 : Fin 19)).val && (e.2.1.op = 0x14 && !bitOf e.2.1.addr 0))).get (by decide)).2.1, ((((at_HuralMessages_19).hural.inbox.find? fun e => e.1 = ((0 : Fin 19)).val && (e.2.1.op = 0x14 && !bitOf e.2.1.addr 0))).get (by decide)).2.2, by decide +kernel⟩

/-- The state of the witness below. -/
def at_HuralMessages_20 : State := mailed { src := 3, dst := 0, txn := 7, op := 0x14, addr := 1 } (base)

theorem test_witness_HuralMessages_20 : ∃ s : State, ∃ n : Fin 19, ∃ m : HMsg, ∃ k : Nat, ((s.hural.inbox.find? fun e => e.1 = n.val && (e.2.1.op = 0x14 && bitOf e.2.1.addr 0)) = some (n.val, m, k)) :=
  ⟨at_HuralMessages_20, 0, ((((at_HuralMessages_20).hural.inbox.find? fun e => e.1 = ((0 : Fin 19)).val && (e.2.1.op = 0x14 && bitOf e.2.1.addr 0))).get (by decide)).2.1, ((((at_HuralMessages_20).hural.inbox.find? fun e => e.1 = ((0 : Fin 19)).val && (e.2.1.op = 0x14 && bitOf e.2.1.addr 0))).get (by decide)).2.2, by decide +kernel⟩

/-- The state of the witness below. -/
def at_HuralMessages_21 : State := mailed { src := 3, dst := 0, txn := 7, op := 0x15, addr := 0xFF00 } (base)

theorem test_witness_HuralMessages_21 : ∃ s : State, ∃ n : Fin 19, ∃ m : HMsg, ∃ k : Nat, ((s.hural.inbox.find? fun e => e.1 = n.val && e.2.1.op = 0x15) = some (n.val, m, k)) ∧ (bitsOf m.addr 8 8 = 0xFF) :=
  ⟨at_HuralMessages_21, 0, ((((at_HuralMessages_21).hural.inbox.find? fun e => e.1 = ((0 : Fin 19)).val && e.2.1.op = 0x15)).get (by decide)).2.1, ((((at_HuralMessages_21).hural.inbox.find? fun e => e.1 = ((0 : Fin 19)).val && e.2.1.op = 0x15)).get (by decide)).2.2, by decide +kernel⟩

/-- The state of the witness below. -/
def at_HuralMessages_22 : State := mailed { src := 3, dst := 0, txn := 7, op := 0x15, addr := 0x0100 } (base)

theorem test_witness_HuralMessages_22 : ∃ s : State, ∃ n : Fin 19, ∃ m : HMsg, ∃ k : Nat, ((s.hural.inbox.find? fun e => e.1 = n.val && e.2.1.op = 0x15) = some (n.val, m, k)) ∧ (bitsOf m.addr 8 8 ≠ 0xFF) :=
  ⟨at_HuralMessages_22, 0, ((((at_HuralMessages_22).hural.inbox.find? fun e => e.1 = ((0 : Fin 19)).val && e.2.1.op = 0x15)).get (by decide)).2.1, ((((at_HuralMessages_22).hural.inbox.find? fun e => e.1 = ((0 : Fin 19)).val && e.2.1.op = 0x15)).get (by decide)).2.2, by decide +kernel⟩

/-- The state of the witness below. -/
def at_HuralMessages_23 : State := { base with hural := { probes := [3] } }

theorem test_witness_HuralMessages_23 : ∃ s : State, ∃ b : Fin 256, (b.val ∈ s.hural.probes) :=
  ⟨at_HuralMessages_23, 3, by decide +kernel⟩

theorem test_witness_HuralMessages_24 : ∃ s : State, ∃ b : Fin 256, (b.val ∉ s.hural.probes) :=
  ⟨base, 0, by decide +kernel⟩

/-- The state of the witness below. -/
def at_SurvivalControl_1 : State := asked .snap ({ base with shd := { snap := some (5, 1) } })

theorem test_witness_SurvivalControl_1 : ∃ s : State, ∃ x : Nat, ∃ step : Nat, (s.shd.snap = some (x, step)) ∧ ((s.hural.reqs.any fun r => r.job = .snap) = true) :=
  ⟨at_SurvivalControl_1, 5, 1, by decide +kernel⟩

/-- The state of the witness below. -/
def at_SurvivalControl_2 : State := { base with shd := { snap := some (5, 1), snapFail := true } }

theorem test_witness_SurvivalControl_2 : ∃ s : State, ∃ x : Nat, ∃ step : Nat, (s.shd.snap = some (x, step)) ∧ ((s.hural.reqs.any fun r => r.job = .snap) = false) ∧ (s.shd.snapFail = true) :=
  ⟨at_SurvivalControl_2, 5, 1, by decide +kernel⟩

/-- The state of the witness below. -/
def at_SurvivalControl_3 : State := { base with shd := { snap := some (5, 1) } }

theorem test_witness_SurvivalControl_3 : ∃ s : State, ∃ x : Nat, ∃ step : Nat, (s.shd.snap = some (x, step)) ∧ ((s.hural.reqs.any fun r => r.job = .snap) = false) ∧ (s.shd.snapFail = false) :=
  ⟨at_SurvivalControl_3, 5, 1, by decide +kernel⟩

/-- The state of the witness below. -/
def at_SurvivalControl_4 : State := charted chart1 (made [setF NUM_STEP.PER 2])

theorem test_witness_SurvivalControl_4 : ∃ s : State, (((theChart s).parts.all fun e => getF s NUM_STEP.PER e.part = 1 || getF s NUM_STEP.PER e.part = 2) = true) :=
  ⟨at_SurvivalControl_4, by decide +kernel⟩

/-- The state of the witness below. -/
def at_SurvivalControl_5 : State := charted chart1 (made [setF NUM_STEP.PER 3])

theorem test_witness_SurvivalControl_5 : ∃ s : State, (((theChart s).parts.all fun e => getF s NUM_STEP.PER e.part = 1 || getF s NUM_STEP.PER e.part = 2) = false) :=
  ⟨at_SurvivalControl_5, by decide +kernel⟩

/-- The state of the witness below. -/
def at_SurvivalControl_6 : State := made [setF SHD_STAT.PHASE 1]

theorem test_witness_SurvivalControl_6 : ∃ s : State, (getF s SHD_STAT.PHASE = 1) :=
  ⟨at_SurvivalControl_6, by decide +kernel⟩

/-- The state of the witness below. -/
def at_SurvivalControl_8 : State := made [setF SHD_STAT.PHASE 2]

theorem test_witness_SurvivalControl_8 : ∃ s : State, ∃ l : List (List Byte × List (Addr × List Byte)), (getF s SHD_STAT.PHASE = 2) ∧ ((∀ e ∈ l, recordValid e.1 = true → recordCommitted s e.1 = false)) :=
  ⟨at_SurvivalControl_8, [([], [])], by decide +kernel⟩

/-- The state of the witness below. -/
def at_SurvivalControl_9 : State := made [setF SHD_STAT.PHASE 3]

theorem test_witness_SurvivalControl_9 : ∃ s : State, (getF s SHD_STAT.PHASE = 3) :=
  ⟨at_SurvivalControl_9, by decide +kernel⟩

/-- The state of the witness below. -/
def at_SurvivalControl_10 : State := made [setF SHD_STAT.PHASE 4]

theorem test_witness_SurvivalControl_10 : ∃ s : State, (getF s SHD_STAT.PHASE = 4) :=
  ⟨at_SurvivalControl_10, by decide +kernel⟩

/-- The state of the witness below. -/
def at_SurvivalControl_11 : State := made [setF SHD_STAT.PHASE 5]

theorem test_witness_SurvivalControl_11 : ∃ s : State, (getF s SHD_STAT.PHASE = 5) :=
  ⟨at_SurvivalControl_11, by decide +kernel⟩

/-- The state of the witness below. -/
def at_SurvivalControl_12 : State := made [setF SHD_STAT.PHASE 6]

theorem test_witness_SurvivalControl_12 : ∃ s : State, (getF s SHD_STAT.PHASE = 6) :=
  ⟨at_SurvivalControl_12, by decide +kernel⟩

theorem test_witness_ResetDomains_1 : ∃ s : State, (isHeld s 7 = false) ∧ (isHeld s 1 = false) ∧ (dieHeld s = false) ∧ (s.rst.due = []) ∧ ((departing s).all (fun a => decide (512 ≤ a)) = true) ∧ ((∀ a, a < 512 → agentCaches s a = false ∨ (cohAgent s a).departed = true ∨ (cohAgent s a).dead = true)) :=
  ⟨base, by decide +kernel⟩

/-- The state of the witness below. -/
def at_ResetDomains_2 : State := { charted { sections := [(2, [1]), (5, image 88 [(0, 64, 1), (0x50, 1, 1)])] } base with coh := { agents := [(0, { pend := [(1, { data := none })] })] } }

theorem test_witness_ResetDomains_2 : ∃ s : State, (isHeld s 7 = false) ∧ (isHeld s 1 = false) ∧ (dieHeld s = false) ∧ (s.rst.due = []) ∧ ((∃ a, a < 512 ∧ agentCaches s a = true ∧ (cohAgent s a).departed = false ∧ (cohAgent s a).dead = false ∧ (getB s RST_CFG.DUMP = false ∨ (cohAgent s a).pend ≠ []))) :=
  ⟨at_ResetDomains_2, by decide +kernel, by decide +kernel, by decide +kernel, by decide +kernel, ⟨0, by decide +kernel⟩⟩

/-- The state of the witness below. -/
def at_ResetDomains_3 : State := { base with rst := { held := [2] } }

theorem test_witness_ResetDomains_3 : ∃ s : State, (isHeld s 7 = true ∨ isHeld s 1 = true ∨ dieHeld s = true ∨ s.rst.due ≠ []) :=
  ⟨at_ResetDomains_3, by decide +kernel⟩

/-- The state of the witness below. -/
def at_ResetDomains_4 : State := { base with rst := { held := [1] } }

theorem test_witness_ResetDomains_4 : ∃ s : State, ∃ d : Fin 4, (isHeld s 7 = false) ∧ (isHeld s (d + 2) = false) ∧ ((isHeld s 1 && !s.rst.oos) = true) :=
  ⟨at_ResetDomains_4, 0, by decide +kernel⟩

theorem test_witness_ResetDomains_5 : ∃ s : State, ∃ d : Fin 4, (isHeld s 7 = false) ∧ (isHeld s (d + 2) = false) ∧ ((isHeld s 1 && !s.rst.oos) = false) ∧ (s.rst.due = []) ∧ ((departing s).all (fun a => decide (512 ≤ a)) = true) ∧ ((∀ a, a < 512 → agentCaches s a = false ∨ (cohAgent s a).departed = true ∨ (cohAgent s a).dead = true)) :=
  ⟨base, 0, by decide +kernel⟩

/-- The state of the witness below. -/
def at_ResetDomains_6 : State := { base with rst := { due := [(3, 1)] } }

theorem test_witness_ResetDomains_6 : ∃ s : State, ∃ d : Fin 4, (isHeld s 7 = false) ∧ (isHeld s (d + 2) = false) ∧ ((isHeld s 1 && !s.rst.oos) = false) ∧ (s.rst.due ≠ []) :=
  ⟨at_ResetDomains_6, 0, by decide +kernel⟩

/-- The state of the witness below. -/
def at_ResetDomains_7 : State := { base with rst := { due := [(3, 1)] } }

theorem test_witness_ResetDomains_7 : ∃ s : State, ∃ dom : Nat, ∃ cause : Nat, (s.rst.due = [(dom, cause)]) ∧ ((departing s).all (fun a => decide (512 ≤ a)) = true) :=
  ⟨at_ResetDomains_7, 3, 1, by decide +kernel⟩

/-- The state of the witness below. -/
def at_ResetDomains_8 : State := { base with rst := { due := [(3, 1)] }, coh := { agents := [(0, { departing := true })] } }

theorem test_witness_ResetDomains_8 : ∃ s : State, ∃ dom : Nat, ∃ cause : Nat, (s.rst.due = [(dom, cause)]) ∧ ((departing s).all (fun a => decide (512 ≤ a)) = false) :=
  ⟨at_ResetDomains_8, 3, 1, by decide +kernel⟩

theorem test_witness_ResetDomains_9 : ∃ s : State, (isHeld s 6 = false) ∧ (isHeld s 7 = false) ∧ (s.rst.hostDue = none) ∧ ((cohAgent s 512).departing = false) ∧ ((agentCaches s 512 = false ∨ (cohAgent s 512).departed = true ∨ (cohAgent s 512).dead = true)) :=
  ⟨base, by decide +kernel⟩

/-- The state of the witness below. -/
def at_ResetDomains_10 : State := charted chart1 base

theorem test_witness_ResetDomains_10 : ∃ s : State, (isHeld s 6 = false) ∧ (isHeld s 7 = false) ∧ (s.rst.hostDue = none) ∧ (agentCaches s 512 = true) ∧ ((cohAgent s 512).departed = false) ∧ ((cohAgent s 512).dead = false) :=
  ⟨at_ResetDomains_10, by decide +kernel⟩

/-- The state of the witness below. -/
def at_ResetDomains_11 : State := { base with rst := { held := [6] } }

theorem test_witness_ResetDomains_11 : ∃ s : State, (isHeld s 6 = true ∨ isHeld s 7 = true ∨ s.rst.hostDue ≠ none) :=
  ⟨at_ResetDomains_11, by decide +kernel⟩

theorem test_witness_ResetDomains_12 : ∃ s : State, (isHeld s 7 = false) :=
  ⟨base, by decide +kernel⟩

/-- The state of the witness below. -/
def at_ResetDomains_13 : State := { base with rst := { held := [7] } }

theorem test_witness_ResetDomains_13 : ∃ s : State, (isHeld s 7 = true) :=
  ⟨at_ResetDomains_13, by decide +kernel⟩

/-- The state of the witness below. -/
def at_ResetDomains_14 : State := made [setF DBG_SESS.LEVEL 2 1]

theorem test_witness_ResetDomains_14 : ∃ s : State, (d2Open s = true) :=
  ⟨at_ResetDomains_14, by decide +kernel⟩

/-- The state of the witness below. -/
def at_ResetDomains_15 : State := made [setF DBG_SESS.LEVEL 1 1]

theorem test_witness_ResetDomains_15 : ∃ s : State, (d2Open s = false) :=
  ⟨at_ResetDomains_15, by decide +kernel⟩

theorem test_witness_ResetDomains_16 : ∃ s : State, ∃ d : Nat, (isHeld s d = false) :=
  ⟨base, 5, by decide +kernel⟩

/-- The state of the witness below. -/
def at_ResetDomains_17 : State := { base with rst := { held := [5] } }

theorem test_witness_ResetDomains_17 : ∃ s : State, ∃ d : Nat, (isHeld s d = true) ∧ (2 ≤ d) ∧ (d ≤ 5) :=
  ⟨at_ResetDomains_17, 5, by decide +kernel⟩

/-- The state of the witness below. -/
def at_ResetDomains_18 : State := { charted chart1 base with rst := { held := [1] } }

theorem test_witness_ResetDomains_18 : ∃ s : State, ∃ d : Nat, (isHeld s d = true) ∧ (d = 1) ∧ ((!s.rst.oos && !dieHeld s && s.chart.cur.isSome && !s.pow.hmFail && !s.pow.hostFail && !s.pow.boot) = true) :=
  ⟨at_ResetDomains_18, 1, by decide +kernel⟩

/-- The state of the witness below. -/
def at_ResetDomains_19 : State := { base with rst := { held := [6] } }

theorem test_witness_ResetDomains_19 : ∃ s : State, ∃ d : Nat, (isHeld s d = true) ∧ (d = 6) ∧ ((!(dieDown s 0 && dieDown s 1) && !s.pow.hmFail && !s.pow.hostFail && !s.pow.boot) = true) :=
  ⟨at_ResetDomains_19, 6, by decide +kernel⟩

/-- The state of the witness below. -/
def at_ResetDomains_20 : State := { base with rst := { held := [7] } }

theorem test_witness_ResetDomains_20 : ∃ s : State, ∃ d : Nat, (isHeld s d = true) ∧ (d = 7) ∧ (s.pow.rails = true) ∧ (s.pow.resetN = false) ∧ (s.pow.refclk = true) :=
  ⟨at_ResetDomains_20, 7, by decide +kernel⟩

/-- The state of the witness below. -/
def at_ResetDomains_21 : State := { base with rst := { held := [7] }, pow := { boot := false, refclk := false } }

theorem test_witness_ResetDomains_21 : ∃ s : State, ∃ d : Nat, (isHeld s d = true) ∧ (d = 7) ∧ (s.pow.rails = false ∨ s.pow.resetN = true ∨ s.pow.refclk = false) :=
  ⟨at_ResetDomains_21, 7, by decide +kernel⟩

/-- The state of the witness below. -/
def at_ResetDomains_22 : State := charted chart1 (made [setF RST_DUMP.STATE 2])

theorem test_witness_ResetDomains_22 : ∃ s : State, ∃ a : Addr, ∃ o : Nat, (dumpWordAt s a.toNat = some o) ∧ (getF s RST_DUMP.STATE = 2) ∧ (s.chart.cur ≠ none) ∧ (a.toNat ∉ s.rst.unread) :=
  ⟨at_ResetDomains_22, BitVec.ofNat 48 (regAddr .IDREV 0 0), (dumpWordAt (at_ResetDomains_22) ((BitVec.ofNat 48 (regAddr .IDREV 0 0) : Addr)).toNat).get (by decide), by decide +kernel⟩

theorem test_witness_ResetDomains_23 : ∃ s : State, ∃ a : Addr, ∃ o : Nat, (dumpWordAt s a.toNat = some o) ∧ (getF s RST_DUMP.STATE ≠ 2 ∨ a.toNat ∈ s.rst.unread) :=
  ⟨base, BitVec.ofNat 48 (regAddr .IDREV 0 0), (dumpWordAt (base) ((BitVec.ofNat 48 (regAddr .IDREV 0 0) : Addr)).toNat).get (by decide), by decide +kernel⟩

/-- The state of the witness below. -/
def at_ResetDomains_24 : State := made [setF RST_ESC.WATCHDOG 3, setF RST_NOPROG.TIDES 3 515]

theorem test_witness_ResetDomains_24 : ∃ s : State, ∃ u : Fin 516, (trips s u = true) :=
  ⟨at_ResetDomains_24, 515, by decide +kernel⟩

/-- The state of the witness below. -/
def at_ResetDomains_25 : State := made [setF RST_ESC.WATCHDOG 3, setF RST_NOPROG.TIDES 2 515]

theorem test_witness_ResetDomains_25 : ∃ s : State, ∃ u : Fin 516, (trips s u = false) :=
  ⟨at_ResetDomains_25, 515, by decide +kernel⟩

/-- The state of the witness below. -/
def at_ResetDomains_26 : State := made [setF RST_HOSTWD.LIMIT 1]

theorem test_witness_ResetDomains_26 : ∃ s : State, (getF s RST_HOSTWD.LIMIT = 0 ∨ getF s TIDE_COUNT.COUNT < s.rst.beat + getF s RST_HOSTWD.LIMIT) :=
  ⟨at_ResetDomains_26, by decide +kernel⟩

/-- The state of the witness below. -/
def at_ResetDomains_27 : State := made [setF RST_HOSTWD.LIMIT 1, setF TIDE_COUNT.COUNT 1]

theorem test_witness_ResetDomains_27 : ∃ s : State, (getF s RST_HOSTWD.LIMIT ≠ 0) ∧ (s.rst.beat + getF s RST_HOSTWD.LIMIT ≤ getF s TIDE_COUNT.COUNT) ∧ (isHeld s 6 = false) ∧ (isHeld s 7 = false) ∧ (s.rst.hostDue = none) ∧ ((cohAgent s 512).departing = false) ∧ ((agentCaches s 512 = false ∨ (cohAgent s 512).departed = true ∨ (cohAgent s 512).dead = true)) :=
  ⟨at_ResetDomains_27, by decide +kernel⟩

/-- The state of the witness below. -/
def at_ResetDomains_28 : State := { base with rst := { held := [2], clkLost := [2] } }

theorem test_witness_ResetDomains_28 : ∃ s : State, ∃ d : Fin 4, (isHeld s (d + 2) = true) ∧ (d.val + 2 ∈ s.rst.clkLost) :=
  ⟨at_ResetDomains_28, 0, by decide +kernel⟩

/-- The state of the witness below. -/
def at_ResetDomains_29 : State := { base with rst := { held := [2], clkLost := [3] } }

theorem test_witness_ResetDomains_29 : ∃ s : State, ∃ d : Fin 4, (isHeld s (d + 2) = false ∨ d.val + 2 ∉ s.rst.clkLost) :=
  ⟨at_ResetDomains_29, 0, by decide +kernel⟩

/-- The state of the witness below. -/
def at_Harbourmaster_1 : State := { charted { sections := [(0xD, image 8 [(0, 1, 1)])] } (made [setF HM_TELRING.SLOTS 1]) with hm := { telDue := some 0 } }

theorem test_witness_Harbourmaster_1 : ∃ s : State, (s.hm.telDue = some (getF s TIDE_COUNT.COUNT)) ∧ (getF s HM_TELRING.SLOTS ≠ 0) ∧ (telHost s = true) :=
  ⟨at_Harbourmaster_1, by decide +kernel⟩

/-- The state of the witness below. -/
def at_Harbourmaster_2 : State := { charted { sections := [(0xD, image 8 [(0, 1, 0)])] } (made [setF HM_TELRING.SLOTS 1]) with hm := { telDue := some 0, fwAddr := some 0 }, chart := { cur := some { sections := [(0xD, image 8 [(0, 1, 0)])] }, checking := some 0 } }

theorem test_witness_Harbourmaster_2 : ∃ s : State, (s.hm.telDue = some (getF s TIDE_COUNT.COUNT)) ∧ (getF s HM_TELRING.SLOTS ≠ 0) ∧ (telHost s = false) ∧ (serviceFree s = false) :=
  ⟨at_Harbourmaster_2, by decide +kernel⟩

/-- The state of the witness below. -/
def at_Harbourmaster_3 : State := { charted { sections := [(0xD, image 8 [(0, 1, 0)])] } (made [setF HM_TELRING.SLOTS 1]) with hm := { telDue := some 0 } }

theorem test_witness_Harbourmaster_3 : ∃ s : State, (s.hm.telDue = some (getF s TIDE_COUNT.COUNT)) ∧ (getF s HM_TELRING.SLOTS ≠ 0) ∧ (telHost s = false) ∧ (serviceFree s = true) :=
  ⟨at_Harbourmaster_3, by decide +kernel⟩

/-- The state of the witness below. -/
def at_Harbourmaster_4 : State := { charted { sections := [(0xD, image 8 [(0, 1, 0)])] } (base) with hm := { telDue := some 0 } }

theorem test_witness_Harbourmaster_4 : ∃ s : State, (s.hm.telDue ≠ some (getF s TIDE_COUNT.COUNT) ∨ getF s HM_TELRING.SLOTS = 0) :=
  ⟨at_Harbourmaster_4, by decide +kernel⟩

/-- The state of the witness below. -/
def at_Harbourmaster_5 : State := { charted { sections := [(0xD, image 8 [(0, 1, 0)])] } (made [setF HM_TELRING.SLOTS 1]) with hm := { telDue := some 1 } }

theorem test_witness_Harbourmaster_5 : ∃ s : State, ∃ k, (s.hm.telDue = some k) ∧ (k ≠ getF s TIDE_COUNT.COUNT) :=
  ⟨at_Harbourmaster_5, 1, by decide +kernel⟩

theorem test_witness_Harbourmaster_6 : ∃ s : State, (s.hm.telDue = none) :=
  ⟨base, by decide +kernel⟩

/-- The state of the witness below. -/
def at_Harbourmaster_7 : State := { charted { sections := [(0xD, image 8 [(0, 1, 1)])] } (made [setF HM_TELRING.SLOTS 1]) with hm := { telDue := some 3 } }

theorem test_witness_Harbourmaster_7 : ∃ s : State, ∃ k : BitVec 48, (telHost s = true) ∧ (s.hm.telDue = some k.toNat) :=
  ⟨at_Harbourmaster_7, 3, by decide +kernel⟩

/-- The state of the witness below. -/
def at_Harbourmaster_8 : State := { charted { sections := [(0xD, image 8 [(0, 1, 1)])] } (made [setF HM_TELRING.SLOTS 1]) with hm := { telDue := some 3 } }

theorem test_witness_Harbourmaster_8 : ∃ s : State, ∃ k : BitVec 48, (telHost s = false ∨ s.hm.telDue ≠ some k.toNat) :=
  ⟨at_Harbourmaster_8, 4, by decide +kernel⟩

/-- The state of the witness below. -/
def at_Harbourmaster_9 : State := { base with hm := { fwAddr := some 0x1000 } }

theorem test_witness_Harbourmaster_9 : ∃ s : State, ∃ a : Addr, ∃ r : Nat, (s.hm.fwAddr = some a) ∧ (r = fwCheck (getReg s .IDREV 0 0).toNat Config.vendorKeyHash s.life s.sec.hmFloor 2 (readFw s a.toNat)) :=
  ⟨at_Harbourmaster_9, ((at_Harbourmaster_9).hm.fwAddr).get (by decide), fwCheck (getReg (at_Harbourmaster_9) .IDREV 0 0).toNat Config.vendorKeyHash (at_Harbourmaster_9).life (at_Harbourmaster_9).sec.hmFloor 2 (readFw (at_Harbourmaster_9) ((((at_Harbourmaster_9).hm.fwAddr).get (by decide) : Addr)).toNat), by decide +kernel⟩

/-- The state of the witness below. -/
def at_Harbourmaster_10 : State := made [setF HM_FWSTAT.STATE 2, setF TIDE_COUNT.COUNT 1024]

theorem test_witness_Harbourmaster_10 : ∃ s : State, (fwStaged s = true) ∧ (s.hm.fwFirst + 1024 ≤ getF s TIDE_COUNT.COUNT) :=
  ⟨at_Harbourmaster_10, by decide +kernel⟩

/-- The state of the witness below. -/
def at_Harbourmaster_11 : State := made [setF HM_FWSTAT.STATE 2, setF TIDE_COUNT.COUNT 1023]

theorem test_witness_Harbourmaster_11 : ∃ s : State, (fwStaged s = false ∨ getF s TIDE_COUNT.COUNT < s.hm.fwFirst + 1024) :=
  ⟨at_Harbourmaster_11, by decide +kernel⟩

/-- The state of the witness below. -/
def at_Harbourmaster_12 : State := { base with hm := { fwOld := some (1, 2) } }

theorem test_witness_Harbourmaster_12 : ∃ s : State, ∃ v, ∃ x, (s.hm.fwOld = some (v, x)) :=
  ⟨at_Harbourmaster_12, 1, 2, by decide +kernel⟩

theorem test_witness_Harbourmaster_13 : ∃ s : State, (s.hm.fwOld = none) :=
  ⟨base, by decide +kernel⟩

/-- The state of the witness below. -/
def at_Harbourmaster_14 : State := { base with time := { src := .ptp } }

theorem test_witness_Harbourmaster_14 : ∃ s : State, (s.time.src = .ptp) :=
  ⟨at_Harbourmaster_14, by decide +kernel⟩

theorem test_witness_Harbourmaster_15 : ∃ s : State, (s.time.src ≠ .ptp) :=
  ⟨base, by decide +kernel⟩

theorem test_witness_Harbourmaster_16 : ∃ s : State, (timeSrcNow s = .unknown) :=
  ⟨base, by decide +kernel⟩

/-- The state of the witness below. -/
def at_Harbourmaster_17 : State := { base with time := { src := .host } }

theorem test_witness_Harbourmaster_17 : ∃ s : State, (timeSrcNow s ≠ .unknown) :=
  ⟨at_Harbourmaster_17, by decide +kernel⟩

theorem test_witness_BootAndSecurity_1 : ∃ s : State, (s.pow.boot = false ∨ s.pow.refclk = false) :=
  ⟨base, by decide +kernel⟩

/-- The state of the witness below. -/
def at_BootAndSecurity_2 : State := { base with pow := {} }

theorem test_witness_BootAndSecurity_2 : ∃ s : State, (s.pow.boot = true) ∧ (s.pow.refclk = true) ∧ (s.sec.next = none) :=
  ⟨at_BootAndSecurity_2, by decide +kernel⟩

theorem test_witness_BootAndSecurity_3 : ∃ s : State, ∃ a : Addr, (recordCheck s (a.toNat / 64 * 64) ≠ 0) :=
  ⟨base, 0x1000, by decide +kernel⟩

/-- The state of the witness below. -/
def at_BootAndSecurity_5 : State := { base with life := .prov, sec := {  } }

theorem test_witness_BootAndSecurity_5 : ∃ s : State, (s.life = .prov) ∧ (s.sec.ownerHash = none) :=
  ⟨at_BootAndSecurity_5, by decide +kernel⟩

/-- The state of the witness below. -/
def at_BootAndSecurity_6 : State := { base with life := .prov, sec := { ownerHash := some [1] } }

theorem test_witness_BootAndSecurity_6 : ∃ s : State, (s.life ≠ .prov ∨ s.sec.ownerHash ≠ none) :=
  ⟨at_BootAndSecurity_6, by decide +kernel⟩

/-- The state of the witness below. -/
def at_BootAndSecurity_7 : State := { base with life := .prov, sec := { ownerHash := some [1], idKey := [1] } }

theorem test_witness_BootAndSecurity_7 : ∃ s : State, ∃ a : Addr, ∃ k, (s.sec.ownerHash = some k) ∧ (hasIdentity s = true) ∧ (Config.mldsaVerify k (endorsed s.sec.idKey (getReg s .IDREV 0 0)) (readMem s (a.toNat / 64 * 64) 2420) = true ∨ Config.mldsaVerify k (endorsed s.sec.idKey (getReg s .IDREV 0 0)) (readMem s (a.toNat / 64 * 64) 2420) = false) :=
  ⟨at_BootAndSecurity_7, 0x1000, ((at_BootAndSecurity_7).sec.ownerHash).get (by decide), by decide +kernel, by decide +kernel, Bool.eq_false_or_eq_true _⟩

/-- The state of the witness below. -/
def at_BootAndSecurity_8 : State := { base with life := .prov, sec := { ownerHash := some [1], idKey := [1] } }

theorem test_witness_BootAndSecurity_8 : ∃ s : State, ∃ a : Addr, ∃ k, (s.sec.ownerHash = some k) ∧ (hasIdentity s = true) ∧ (Config.mldsaVerify k (endorsed s.sec.idKey (getReg s .IDREV 0 0)) (readMem s (a.toNat / 64 * 64) 2420) = false ∨ Config.mldsaVerify k (endorsed s.sec.idKey (getReg s .IDREV 0 0)) (readMem s (a.toNat / 64 * 64) 2420) = true) :=
  ⟨at_BootAndSecurity_8, 0x1000, ((at_BootAndSecurity_8).sec.ownerHash).get (by decide), by decide +kernel, by decide +kernel, (Bool.eq_false_or_eq_true _).symm⟩

theorem test_witness_BootAndSecurity_9 : ∃ s : State, (s.life = .fab) ∧ (s.sec.idDigest = none) :=
  ⟨base, by decide +kernel⟩

/-- The state of the witness below. -/
def at_BootAndSecurity_10 : State := { base with life := .fab, sec := { idDigest := some [1] } }

theorem test_witness_BootAndSecurity_10 : ∃ s : State, (s.life ≠ .fab ∨ s.sec.idDigest ≠ none) :=
  ⟨at_BootAndSecurity_10, by decide +kernel⟩

theorem test_witness_BootAndSecurity_11 : ∃ s : State, (s.sec.next = none) :=
  ⟨base, by decide +kernel⟩

/-- The state of the witness below. -/
def at_BootAndSecurity_12 : State := { base with life := .prov, sec := { next := some .field } }

theorem test_witness_BootAndSecurity_12 : ∃ s : State, (s.sec.next ≠ none) ∧ (isHeld s 7 = false) :=
  ⟨at_BootAndSecurity_12, by decide +kernel⟩

/-- The state of the witness below. -/
def at_BootAndSecurity_13 : State := { base with life := .fab, sec := { report := some (0x40, [1]) } }

theorem test_witness_BootAndSecurity_13 : ∃ s : State, (s.sec.report ≠ none) :=
  ⟨at_BootAndSecurity_13, by decide +kernel⟩

/-- The state of the witness below. -/
def at_BootAndSecurity_14 : State := { base with life := .fab, sec := { idKey := [1] } }

theorem test_witness_BootAndSecurity_14 : ∃ s : State, (s.sec.report = none) ∧ (hasIdentity s = true) :=
  ⟨at_BootAndSecurity_14, by decide +kernel⟩

theorem test_witness_BootAndSecurity_15 : ∃ s : State, (s.sec.report = none) ∧ (hasIdentity s = false) :=
  ⟨base, by decide +kernel⟩

/-- The state of the witness below. -/
def at_BootAndSecurity_16 : State := { base with life := .fab, sec := { report := some (0x40, [1]) } }

theorem test_witness_BootAndSecurity_16 : ∃ s : State, ∃ a : Addr, ∃ nonce : List Byte, (s.sec.report = some (a, nonce)) :=
  ⟨at_BootAndSecurity_16, 0x40, [1], by decide +kernel⟩

theorem test_witness_DebugSessions_1 : ∃ s : State, ∃ a : Addr, ∃ want : Nat, ∃ level : Nat, ∃ tok : List Byte, (want = getF s DBG_OPEN.LEVEL) ∧ (tok = readMem s (a.toNat / 64 * 64) tokenBytes) ∧ (level = min want (min (levelAllowed s) (if needsToken s = true then fieldAt tok 4 1 else 2))) ∧ (want = 0 ∨ want = 3 ∨ level = 0 ∨ (needsToken s = true ∧ tokenOk s 1 tok = false)) :=
  ⟨base, 0, 0, 0, readMem base 0 tokenBytes, by decide +kernel⟩

/-- The state of the witness below. -/
def at_DebugSessions_2 : State := made [setF DBG_OPEN.LEVEL 2]

theorem test_witness_DebugSessions_2 : ∃ s : State, ∃ a : Addr, ∃ want : Nat, ∃ level : Nat, ∃ tok : List Byte, (want = getF s DBG_OPEN.LEVEL) ∧ (tok = readMem s (a.toNat / 64 * 64) tokenBytes) ∧ (level = min want (min (levelAllowed s) (if needsToken s = true then fieldAt tok 4 1 else 2))) ∧ (want ≠ 0) ∧ (want ≠ 3) ∧ (level ≠ 0) ∧ ((needsToken s = true → tokenOk s 1 tok = true)) :=
  ⟨at_DebugSessions_2, 0, 2, 2, readMem (at_DebugSessions_2) (((0 : Addr)).toNat / 64 * 64) tokenBytes, by decide +kernel⟩

/-- The state of the witness below. -/
def at_DebugSessions_3 : State := { base with life := .prov, sec := {  } }

theorem test_witness_DebugSessions_3 : ∃ s : State, ∃ level : Nat, ∃ tok : List Byte, (level = min 2 (min (levelAllowed s) (if needsToken s = true then fieldAt tok 4 1 else 2))) ∧ (level = 0 ∨ jtagOpen s = false ∨ (needsToken s = true ∧ tokenOk s 0 tok = false)) :=
  ⟨at_DebugSessions_3, 0, [], by decide +kernel⟩

theorem test_witness_DebugSessions_4 : ∃ s : State, ∃ level : Nat, ∃ tok : List Byte, (level = min 2 (min (levelAllowed s) (if needsToken s = true then fieldAt tok 4 1 else 2))) ∧ (level ≠ 0) ∧ (jtagOpen s = true) ∧ ((needsToken s = true → tokenOk s 0 tok = true)) :=
  ⟨base, 2, [], by decide +kernel⟩

/-- The state of the witness below. -/
def at_DebugSessions_5 : State := made [setF DBG_SESS.LEVEL 1 1]

theorem test_witness_DebugSessions_5 : ∃ s : State, (getF s DBG_SESS.LEVEL 1 ≠ 0) :=
  ⟨at_DebugSessions_5, by decide +kernel⟩

/-- The state of the witness below. -/
def at_DebugSessions_6 : State := made [setF DBG_SESS.LEVEL 1 0]

theorem test_witness_DebugSessions_6 : ∃ s : State, (getF s DBG_SESS.LEVEL 1 = 0) :=
  ⟨at_DebugSessions_6, by decide +kernel⟩

/-- The state of the witness below. -/
def at_DebugSessions_7 : State := made [setF DBG_SESS.LEVEL 1 0]

theorem test_witness_DebugSessions_7 : ∃ s : State, (getF s DBG_SESS.LEVEL 0 ≠ 0) :=
  ⟨at_DebugSessions_7, by decide +kernel⟩

/-- The state of the witness below. -/
def at_DebugSessions_8 : State := made [setF DBG_SESS.LEVEL 1 1]

theorem test_witness_DebugSessions_8 : ∃ s : State, (getF s DBG_SESS.LEVEL 0 = 0) :=
  ⟨at_DebugSessions_8, by decide +kernel⟩

/-- The state of the witness below. -/
def at_DebugSessions_9 : State := { made [setF DBG_SESS.LEVEL 1 1] with sec := { inband := { ends := some 5 } } }

theorem test_witness_DebugSessions_9 : ∃ s : State, ∃ p : Fin 2, ((debugSt s p).ends ≠ none) ∧ (getF s DBG_SESS.LEVEL p ≠ 0) :=
  ⟨at_DebugSessions_9, 1, by decide +kernel⟩

theorem test_witness_DebugSessions_10 : ∃ s : State, ∃ p : Fin 2, ((debugSt s p).ends = none) :=
  ⟨base, 1, by decide +kernel⟩

/-- The state of the witness below. -/
def at_DebugSessions_11 : State := made [setF DBG_SESS.LEVEL 2 1]

theorem test_witness_DebugSessions_11 : ∃ s : State, ∃ c : BitVec 10, (haltPath s ≠ none) ∧ (haltable s c.toNat = true) :=
  ⟨at_DebugSessions_11, 609, by decide +kernel⟩

/-- The state of the witness below. -/
def at_DebugSessions_12 : State := made [setF DBG_SESS.LEVEL 2 1]

theorem test_witness_DebugSessions_12 : ∃ s : State, (haltPath s ≠ none) :=
  ⟨at_DebugSessions_12, by decide +kernel⟩

/-- The state of the witness below. -/
def at_DebugSessions_13 : State := made [setF DBG_SESS.LEVEL 1 1]

theorem test_witness_DebugSessions_13 : ∃ s : State, (haltPath s = none) :=
  ⟨at_DebugSessions_13, by decide +kernel⟩

theorem test_witness_DebugSessions_14 : ∃ s : State, (getF s DBG_SESS.LEVEL 0 = 0) :=
  ⟨base, by decide +kernel⟩

/-- The state of the witness below. -/
def at_DebugSessions_15 : State := made [setF DBG_SESS.LEVEL 2 0]

theorem test_witness_DebugSessions_15 : ∃ s : State, ∃ a : Addr, (getF s DBG_SESS.LEVEL 0 = 2) ∧ (a.toNat % 64 ≤ 56) ∧ ((isWarehouse a.toNat || isQuay a.toNat) = true) ∧ (route s { a := a.toNat, n := 8, wr := false, rebuild := false } = .mem a.toNat none) :=
  ⟨at_DebugSessions_15, 0x78, by decide +kernel⟩

/-- The state of the witness below. -/
def at_DebugSessions_16 : State := made [setF DBG_SESS.LEVEL 2 0]

theorem test_witness_DebugSessions_16 : ∃ s : State, ∃ a : Addr, (getF s DBG_SESS.LEVEL 0 = 2) ∧ (a.toNat % 64 ≤ 56) ∧ ((isWarehouse a.toNat || isQuay a.toNat) = true) ∧ (route s { a := a.toNat, n := 8, wr := true, rebuild := false } = .mem a.toNat none) ∧ (Cells.look s.coh.dir (a.toNat / 64) = none) :=
  ⟨at_DebugSessions_16, 0x78, by decide +kernel⟩

/-- The state of the witness below. -/
def at_RailsAndLands_1 : State := { base with pow := { boot := false, vin := false } }

theorem test_witness_RailsAndLands_1 : ∃ s : State, (s.pow.vin = false) ∧ (s.pow.stopped = false) :=
  ⟨at_RailsAndLands_1, by decide +kernel⟩

/-- The state of the witness below. -/
def at_RailsAndLands_2 : State := { base with pow := { boot := false, vin := false, stopped := true } }

theorem test_witness_RailsAndLands_2 : ∃ s : State, (s.pow.vin = true ∨ s.pow.stopped = true) :=
  ⟨at_RailsAndLands_2, by decide +kernel⟩

/-- The state of the witness below. -/
def at_RailsAndLands_3 : State := { base with pow := { boot := false, rails := false } }

theorem test_witness_RailsAndLands_3 : ∃ s : State, (s.pow.vin = true) ∧ (s.pow.stopped = false) ∧ (s.pow.rails = false) :=
  ⟨at_RailsAndLands_3, by decide +kernel⟩

theorem test_witness_RailsAndLands_4 : ∃ s : State, (s.pow.vin = false ∨ s.pow.stopped = true ∨ s.pow.rails = true) :=
  ⟨base, by decide +kernel⟩

theorem test_witness_RailsAndLands_5 : ∃ s : State, (s.pow.vin = true) :=
  ⟨base, by decide +kernel⟩

/-- The state of the witness below. -/
def at_RailsAndLands_6 : State := { base with pow := { boot := false, vin := false } }

theorem test_witness_RailsAndLands_6 : ∃ s : State, (s.pow.vin = false) :=
  ⟨at_RailsAndLands_6, by decide +kernel⟩

theorem test_witness_RailsAndLands_7 : ∃ s : State, (s.pow.standby = true) ∧ (s.pow.vin = true) :=
  ⟨base, by decide +kernel⟩

/-- The state of the witness below. -/
def at_RailsAndLands_8 : State := { base with pow := { boot := false, vin := false } }

theorem test_witness_RailsAndLands_8 : ∃ s : State, (s.pow.standby = true) ∧ (s.pow.vin = false) :=
  ⟨at_RailsAndLands_8, by decide +kernel⟩

/-- The state of the witness below. -/
def at_RailsAndLands_9 : State := { base with pow := { boot := false, standby := false } }

theorem test_witness_RailsAndLands_9 : ∃ s : State, (s.pow.standby = false) :=
  ⟨at_RailsAndLands_9, by decide +kernel⟩

theorem test_witness_RailsAndLands_10 : ∃ s : State, (s.pow.standby = true) :=
  ⟨base, by decide +kernel⟩

theorem test_witness_RailsAndLands_11 : ∃ ns : Nat, (ns < 1000) :=
  ⟨999, by decide +kernel⟩

theorem test_witness_RailsAndLands_12 : ∃ s : State, ∃ ns : Nat, (10000 ≤ ns) ∧ (isHeld s 7 = false) :=
  ⟨base, 10000, by decide +kernel⟩

/-- The state of the witness below. -/
def at_RailsAndLands_13 : State := { base with rst := { held := [7] } }

theorem test_witness_RailsAndLands_13 : ∃ s : State, ∃ ns : Nat, (10000 ≤ ns) ∧ (isHeld s 7 = true) :=
  ⟨at_RailsAndLands_13, 10000, by decide +kernel⟩

theorem test_witness_RailsAndLands_14 : ∃ ns : Nat, (1000 ≤ ns) ∧ (ns < 10000) :=
  ⟨9999, by decide +kernel⟩

theorem test_witness_RailsAndLands_15 : ∃ s : State, (isHeld s 7 = false) :=
  ⟨base, by decide +kernel⟩

/-- The state of the witness below. -/
def at_RailsAndLands_16 : State := { base with rst := { held := [7] } }

theorem test_witness_RailsAndLands_16 : ∃ s : State, (isHeld s 7 = true) :=
  ⟨at_RailsAndLands_16, by decide +kernel⟩

theorem test_witness_BoardCommands_1 : ∃ s : State, (s.pow.rails = true) :=
  ⟨base, by decide +kernel⟩

/-- The state of the witness below. -/
def at_BoardCommands_2 : State := { base with pow := { boot := false, ready := true } }

theorem test_witness_BoardCommands_2 : ∃ s : State, (s.pow.rails = true) ∧ (statusNow s ≠ s.pow.status) :=
  ⟨at_BoardCommands_2, by decide +kernel⟩

/-- The state of the witness below. -/
def at_BoardCommands_3 : State := { base with chart := { cur := none } }

theorem test_witness_BoardCommands_3 : ∃ s : State, (s.pow.rails = true) ∧ (statusNow s = s.pow.status) :=
  ⟨at_BoardCommands_3, by decide +kernel⟩

theorem test_witness_BoardCommands_4 : ∃ s : State, (s.pow.rails = true) :=
  ⟨base, by decide +kernel⟩

/-- The state of the witness below. -/
def at_BoardCommands_5 : State := { base with en := { sb := .standby } }

theorem test_witness_BoardCommands_5 : ∃ s : State, (s.pow.rails = true) ∧ (s.en.sb = .standby) :=
  ⟨at_BoardCommands_5, by decide +kernel⟩

theorem test_witness_BoardCommands_6 : ∃ s : State, (s.pow.rails = true) ∧ (s.en.sb ≠ .standby) :=
  ⟨base, by decide +kernel⟩

theorem test_witness_BoardCommands_7 : ∃ s : State, (s.pow.rails = true) ∧ (isHeld s 7 = false) :=
  ⟨base, by decide +kernel⟩

/-- The state of the witness below. -/
def at_BoardCommands_8 : State := { base with rst := { held := [7] } }

theorem test_witness_BoardCommands_8 : ∃ s : State, (s.pow.rails = true) ∧ (isHeld s 7 = true) :=
  ⟨at_BoardCommands_8, by decide +kernel⟩

theorem test_witness_BoardCommands_9 : ∃ s : State, ∃ bs : List Byte, (s.pow.rails = false ∨ s.pow.hostFail = false ∨ 4096 < bs.length) :=
  ⟨base, [1], by decide +kernel⟩

/-- The state of the witness below. -/
def at_BoardCommands_10 : State := { base with pow := { boot := false, hostFail := true } }

theorem test_witness_BoardCommands_10 : ∃ s : State, ∃ bs : List Byte, (s.pow.rails = true) ∧ (s.pow.hostFail = true) ∧ (bs.length ≤ 4096) ∧ (bs ≠ []) :=
  ⟨at_BoardCommands_10, List.replicate 4096 1, by decide +kernel⟩

/-- The state of the witness below. -/
def at_BoardCommands_11 : State := { base with pow := { boot := false, hostFail := true } }

theorem test_witness_BoardCommands_11 : ∃ s : State, ∃ bs : List Byte, (s.pow.rails = true) ∧ (s.pow.hostFail = true) ∧ (bs = []) ∧ (fwPasses s 3 s.pow.hostImg = false) :=
  ⟨at_BoardCommands_11, [], by decide +kernel⟩

/-- The state of the witness below. -/
def at_BoardCommands_13 : State := { base with pow := { boot := false, rails := false } }

theorem test_witness_BoardCommands_13 : ∃ s : State, (s.pow.rails = false) :=
  ⟨at_BoardCommands_13, by decide +kernel⟩

/-- The state of the witness below. -/
def at_NocqRecords_1 : State := queued { done := [{ entry := entry [(4, 1, 1), (5, 1, 2)], index := 0, status := 0 }] } base

theorem test_witness_NocqRecords_1 : ∃ s : State, ∃ q : Fin 256, ∃ d : BDone, (nextRecord (bellQ s q) = some d) ∧ (eNocq d.entry = true) ∧ (d.status = 0) :=
  ⟨at_NocqRecords_1, 0, (nextRecord (bellQ (at_NocqRecords_1) ((0 : Fin 256)))).get (by decide), by decide +kernel⟩

/-- The state of the witness below. -/
def at_NocqRecords_2 : State := queued { done := [{ entry := entry [(4, 1, 1), (5, 1, 2)], index := 0, status := 1 }] } base

theorem test_witness_NocqRecords_2 : ∃ s : State, ∃ q : Fin 256, ∃ d : BDone, (nextRecord (bellQ s q) = some d) ∧ (eNocq d.entry = true) ∧ (d.status ≠ 0) ∧ (cqFull s q = false) ∧ (cdmaHeld s (piecesOf (getF s BELL_CQADDR.ADDR q * 256 + 32 * (bellQ s q).cqTail) 32 true false) = false) ∧ (firstFault s (piecesOf (getF s BELL_CQADDR.ADDR q * 256 + 32 * (bellQ s q).cqTail) 32 true false) = none) :=
  ⟨at_NocqRecords_2, 0, (nextRecord (bellQ (at_NocqRecords_2) ((0 : Fin 256)))).get (by decide), by decide +kernel⟩

/-- The state of the witness below. -/
def at_NocqRecords_3 : State := queued { done := [{ entry := entry [(4, 1, 1), (5, 1, 2)], index := 0, status := 1 }], cqTail := 15 } base

theorem test_witness_NocqRecords_3 : ∃ s : State, ∃ q : Fin 256, ∃ d : BDone, (nextRecord (bellQ s q) = some d) ∧ (eNocq d.entry = true) ∧ (d.status ≠ 0) ∧ (cqFull s q = true) :=
  ⟨at_NocqRecords_3, 0, (nextRecord (bellQ (at_NocqRecords_3) ((0 : Fin 256)))).get (by decide), by decide +kernel⟩

/-- The state of the witness below. -/
def at_HostWatchdog_1 : State := made [setF RST_HOSTWD.LIMIT 1, setF TIDE_COUNT.COUNT 1]

theorem test_witness_HostWatchdog_1 : ∃ s : State, (getF s RST_HOSTWD.LIMIT ≠ 0) ∧ (s.rst.beat + getF s RST_HOSTWD.LIMIT ≤ getF s TIDE_COUNT.COUNT) ∧ (isHeld s 6 = false) ∧ (isHeld s 7 = false) ∧ (s.rst.hostDue = none) :=
  ⟨at_HostWatchdog_1, by decide +kernel⟩

/-- The state of the witness below. -/
def at_HostWatchdog_2 : State := { base with rst := { hostDue := some 6 } }

theorem test_witness_HostWatchdog_2 : ∃ s : State, (s.rst.hostDue = some 6) ∧ ((cohAgent s 512).departing = false) :=
  ⟨at_HostWatchdog_2, by decide +kernel⟩

/-- The state of the witness below. -/
def at_HostWatchdog_3 : State := { base with rst := { hostDue := some 6 }, coh := { agents := [(512, { departing := true })] } }

theorem test_witness_HostWatchdog_3 : ∃ s : State, (s.rst.hostDue = some 6) ∧ ((cohAgent s 512).departing = true) :=
  ⟨at_HostWatchdog_3, by decide +kernel⟩

/-- The state of the witness below. -/
def at_HostWatchdog_4 : State := made [setF RST_HOSTWD.LIMIT 1]

theorem test_witness_HostWatchdog_4 : ∃ s : State, (getF s RST_HOSTWD.LIMIT = 0 ∨ getF s TIDE_COUNT.COUNT < s.rst.beat + getF s RST_HOSTWD.LIMIT) :=
  ⟨at_HostWatchdog_4, by decide +kernel⟩

/-- The state of the witness below. -/
def at_OutOfServiceCleared_1 : State := made [setF DBG_SESS.LEVEL 2 0]

theorem test_witness_OutOfServiceCleared_1 : ∃ s : State, (d2Open s = true) :=
  ⟨at_OutOfServiceCleared_1, by decide +kernel⟩

/-- The state of the witness below. -/
def at_OutOfServiceCleared_2 : State := made [setF DBG_SESS.LEVEL 1 0]

theorem test_witness_OutOfServiceCleared_2 : ∃ s : State, (d2Open s = false) :=
  ⟨at_OutOfServiceCleared_2, by decide +kernel⟩

theorem test_witness_RegisterWidthsAndAlignment_1 : ∃ r : RegName, ∃ i : Nat, ∃ j : Nat, (i < r.loc.ni) ∧ (j < r.loc.nj) :=
  ⟨.NUM_STEP, 63, 0, by decide +kernel⟩

theorem test_witness_RegisterWidthsAndAlignment_2 : ∃ s : State, ∃ who : Agent, ∃ addr : Addr, ∃ r : RegName, ∃ i : Nat, ∃ j : Nat, ∃ bs : List Byte, ((∀ n, who ≠ .pcie n)) ∧ ((∀ b, who ≠ .partner b)) ∧ (isRegSpace addr.toNat = true) ∧ (inBlocks addr.toNat = true) ∧ (tileOff s addr.toNat = false) ∧ (regAt (addr.toNat / 8 * 8) = some (r, i, j)) ∧ (whoOn s who = true) ∧ (reachesRegs s who addr.toNat true = true) ∧ (sizeOk addr.toNat bs.length = true) :=
  ⟨base, .host 5, BitVec.ofNat 48 (regAddr .RST_ESC 0 0), .RST_ESC, 0, 0, [1, 2, 3, 4], by decide +kernel⟩

theorem test_witness_RegisterWidthsAndAlignment_3 : ∃ s : State, ∃ who : Agent, ∃ addr : Addr, ∃ r : RegName, ∃ i : Nat, ∃ j : Nat, ∃ n : Nat, ((∀ n, who ≠ .pcie n)) ∧ ((∀ b, who ≠ .partner b)) ∧ (isRegSpace addr.toNat = true) ∧ (inBlocks addr.toNat = true) ∧ (tileOff s addr.toNat = false) ∧ (regAt (addr.toNat / 8 * 8) = some (r, i, j)) ∧ (whoOn s who = true) ∧ (reachesRegs s who addr.toNat false = true) ∧ (sizeOk addr.toNat n = true) ∧ (r ≠ .BELL_VIS) :=
  ⟨base, .host 5, BitVec.ofNat 48 (regAddr .RST_ESC 0 0), .RST_ESC, 0, 0, 8, by decide +kernel⟩

theorem test_witness_RegisterWidthsAndAlignment_4 : ∃ s : State, ∃ who : Agent, ∃ addr : Addr, ∃ r : RegName, ∃ i : Nat, ∃ j : Nat, ∃ n : Nat, ((∀ n, who ≠ .pcie n)) ∧ ((∀ b, who ≠ .partner b)) ∧ (isRegSpace addr.toNat = true) ∧ (inBlocks addr.toNat = true) ∧ (tileOff s addr.toNat = false) ∧ (regAt (addr.toNat / 8 * 8) = some (r, i, j)) ∧ (whoOn s who = true) ∧ (reachesRegs s who addr.toNat false = true) ∧ (sizeOk addr.toNat n = true) ∧ (r = .BELL_VIS) :=
  ⟨base, .host 5, BitVec.ofNat 48 (regAddr .BELL_VIS 0 0), .BELL_VIS, 0, 0, 8, by decide +kernel⟩

theorem test_witness_RegisterWidthsAndAlignment_5 : ∃ s : State, ∃ who : Agent, ∃ addr : Addr, ∃ r : RegName, ∃ i : Nat, ∃ j : Nat, ∃ bs : List Byte, ((∀ n, who ≠ .pcie n)) ∧ ((∀ b, who ≠ .partner b)) ∧ (isRegSpace addr.toNat = true) ∧ (inBlocks addr.toNat = true) ∧ (tileOff s addr.toNat = false) ∧ (regAt (addr.toNat / 8 * 8) = some (r, i, j)) ∧ (whoOn s who = true) ∧ (reachesRegs s who addr.toNat true = true) ∧ (sizeOk addr.toNat bs.length = false) :=
  ⟨base, .host 5, BitVec.ofNat 48 (regAddr .RST_ESC 0 0), .RST_ESC, 0, 0, [], by decide +kernel⟩

theorem test_witness_RegisterWidthsAndAlignment_6 : ∃ s : State, ∃ who : Agent, ∃ addr : Addr, ∃ r : RegName, ∃ i : Nat, ∃ j : Nat, ∃ n : Nat, ((∀ n, who ≠ .pcie n)) ∧ ((∀ b, who ≠ .partner b)) ∧ (isRegSpace addr.toNat = true) ∧ (inBlocks addr.toNat = true) ∧ (tileOff s addr.toNat = false) ∧ (regAt (addr.toNat / 8 * 8) = some (r, i, j)) ∧ (whoOn s who = true) ∧ (reachesRegs s who addr.toNat false = true) ∧ (sizeOk addr.toNat n = false) :=
  ⟨base, .host 5, BitVec.ofNat 48 (regAddr .RST_ESC 0 0), .RST_ESC, 0, 0, 3, by decide +kernel⟩

theorem test_witness_RegisterAddressesAgree_1 : ∃ r : RegName, ∃ i : Nat, ∃ j : Nat, (i < r.loc.ni) ∧ (j < r.loc.nj) :=
  ⟨.NUM_STEP, 63, 0, by decide +kernel⟩

theorem test_witness_EmptyQueueIsTime_1 : ∃ s : State, (s.pending = []) :=
  ⟨base, by decide +kernel⟩

/-- The state of the witness below. -/
def at_EmptyQueueIsTime_2 : State := { base with tier := { fetch := [{ who := .unit 0, addr := 0x400000000000, n := 1, ans := .due, since := 0 }] }, now := 40001 }

theorem test_witness_EmptyQueueIsTime_2 : ∃ s : State, ∃ u : Fin 516, ∃ f : Fetch, (s.pending = []) ∧ (s.tier.waits = []) ∧ (s.tier.stalls = []) ∧ (s.hural.reqs = []) ∧ (s.tier.fetch = [f]) ∧ (f.who = .unit u) ∧ (f.ans = .due) ∧ (f.since + 40000 < s.now) :=
  ⟨at_EmptyQueueIsTime_2, 0, { who := .unit 0, addr := 0x400000000000, n := 1, ans := .due, since := 0 }, by decide +kernel⟩

/-- The state of the witness below. -/
def at_FarReadsAndWrites_1 : State := charted ({ sections := chart1.sections ++ [(8, image 48 [(16, 32, 1)])] }) (tile0 { dma := { queue := [item [(0, 0x80), (0x80, 0x400000000000), (0xC0, 0), (0xFC, 2), (0x100, 1), (0x120, 1)]] } })

theorem test_witness_FarReadsAndWrites_1 : ∃ s : State, ∃ u : Fin 512, ∃ d : Desc, (headItem s u .dma = some d) ∧ (dOpcode d = 0x80) ∧ ((getTile s u).dma.run = []) ∧ (waitMet s u d = true) ∧ (flipWaits s u d = false) ∧ (dmaFaultCode u d = 0) ∧ (fetchMissing s (.unit u) (dmaPieces d) ≠ []) ∧ ((∀ p ∈ fetchMissing s (.unit u) (dmaPieces d), isNeighbour p.a = true)) :=
  ⟨at_FarReadsAndWrites_1, 0, (headItem (at_FarReadsAndWrites_1) ((0 : Fin 512)) .dma).get (by decide), by decide +kernel⟩

/-- The state of the witness below. -/
def at_FarReadsAndWrites_2 : State := { tile0 { dma := { queue := [item [(0, 0x80), (0x80, 0x400000000000), (0xC0, 0), (0xFC, 2), (0x100, 1), (0x120, 1)]] } } with tier := { fetch := [{ who := .unit 0, addr := 0x400000000000, n := 1, ans := .due, since := 0 }] } }

theorem test_witness_FarReadsAndWrites_2 : ∃ s : State, ∃ u : Fin 512, ∃ d : Desc, (headItem s u .dma = some d) ∧ (dOpcode d = 0x80) ∧ ((getTile s u).dma.run = []) ∧ (waitMet s u d = true) ∧ (flipWaits s u d = false) ∧ (dmaFaultCode u d = 0) ∧ (fetchMissing s (.unit u) (dmaPieces d) = []) ∧ (fetchDue s (.unit u) = true) :=
  ⟨at_FarReadsAndWrites_2, 0, (headItem (at_FarReadsAndWrites_2) ((0 : Fin 512)) .dma).get (by decide), by decide +kernel⟩

/-- The state of the witness below. -/
def at_FarReadsAndWrites_3 : State := mailed { op := 0x04, src := 3, dst := 0, txn := 7 } (asked (.engine (.unit 0) 0) base)

theorem test_witness_FarReadsAndWrites_3 : ∃ s : State, ∃ n : Fin 19, ∃ m : HMsg, ∃ k : Nat, ∃ r : OutReq, ∃ w : FetchFor, ∃ a : Addr, ((s.hural.reqs.find? fun r => r.txn = m.txn && r.dst = m.src && !r.held) = some r) ∧ (r.job = .engine w a) ∧ ((s.hural.inbox.find? fun e => e.1 = n.val && e.2.1.op = 0x04) = some (n.val, m, k)) :=
  ⟨at_FarReadsAndWrites_3, 0, ((((at_FarReadsAndWrites_3).hural.inbox.find? fun e => e.1 = ((0 : Fin 19)).val && e.2.1.op = 0x04)).get (by decide)).2.1, ((((at_FarReadsAndWrites_3).hural.inbox.find? fun e => e.1 = ((0 : Fin 19)).val && e.2.1.op = 0x04)).get (by decide)).2.2, (((at_FarReadsAndWrites_3).hural.reqs.find? fun r => r.txn = ((((((at_FarReadsAndWrites_3).hural.inbox.find? fun e => e.1 = ((0 : Fin 19)).val && e.2.1.op = 0x04)).get (by decide)).2.1 : HMsg)).txn && r.dst = ((((((at_FarReadsAndWrites_3).hural.inbox.find? fun e => e.1 = ((0 : Fin 19)).val && e.2.1.op = 0x04)).get (by decide)).2.1 : HMsg)).src && !r.held)).get (by decide), .unit 0, 0, by decide +kernel⟩

/-- The state of the witness below. -/
def at_FarReadsAndWrites_4 : State := mailed { op := 0x05, src := 3, dst := 0, txn := 7, addr := 5 } (asked (.engine (.unit 0) 0) base)

theorem test_witness_FarReadsAndWrites_4 : ∃ s : State, ∃ n : Fin 19, ∃ m : HMsg, ∃ k : Nat, ∃ r : OutReq, ∃ w : FetchFor, ∃ a : Addr, ((s.hural.reqs.find? fun r => r.txn = m.txn && r.dst = m.src && !r.held) = some r) ∧ (r.job = .engine w a) ∧ ((s.hural.inbox.find? fun e => e.1 = n.val && e.2.1.op = 0x05) = some (n.val, m, k)) ∧ ((∃ u, w = .unit u)) ∧ ((isObject a.toNat = false ∨ bitsOf m.addr 0 8 ≠ 4 ∧ bitsOf m.addr 0 8 ≠ 5)) :=
  ⟨at_FarReadsAndWrites_4, 0, ((((at_FarReadsAndWrites_4).hural.inbox.find? fun e => e.1 = ((0 : Fin 19)).val && e.2.1.op = 0x05)).get (by decide)).2.1, ((((at_FarReadsAndWrites_4).hural.inbox.find? fun e => e.1 = ((0 : Fin 19)).val && e.2.1.op = 0x05)).get (by decide)).2.2, (((at_FarReadsAndWrites_4).hural.reqs.find? fun r => r.txn = ((((((at_FarReadsAndWrites_4).hural.inbox.find? fun e => e.1 = ((0 : Fin 19)).val && e.2.1.op = 0x05)).get (by decide)).2.1 : HMsg)).txn && r.dst = ((((((at_FarReadsAndWrites_4).hural.inbox.find? fun e => e.1 = ((0 : Fin 19)).val && e.2.1.op = 0x05)).get (by decide)).2.1 : HMsg)).src && !r.held)).get (by decide), .unit 0, 0, by decide +kernel, by decide +kernel, by decide +kernel, ⟨0, rfl⟩, by decide +kernel⟩

/-- The state of the witness below. -/
def at_FarReadsAndWrites_5 : State := { base with tier := { fetch := [{ who := .page, addr := 64, n := 1, ans := .data [7], since := 0 }] } }

theorem test_witness_FarReadsAndWrites_5 : ∃ s : State, ∃ w : FetchFor, ∃ f : Fetch, ∃ bs : List Byte, ∃ k : Nat, (s.tier.fetch = [f]) ∧ (f.who = w) ∧ (f.ans = .data bs) ∧ (bs.length = f.n) ∧ (k < f.n) :=
  ⟨at_FarReadsAndWrites_5, .page, { who := .page, addr := 64, n := 1, ans := .data [7], since := 0 }, [7], 0, by decide +kernel⟩

/-- The state of the witness below. -/
def at_FarReadsAndWrites_6 : State := asked (.put 0 0) base

theorem test_witness_FarReadsAndWrites_6 : ∃ s : State, ∃ u : Fin 512, (putsOpen s u = true) :=
  ⟨at_FarReadsAndWrites_6, 0, by decide +kernel⟩

/-- The state of the witness below. -/
def at_FarReadsAndWrites_7 : State := asked (.put 512 0) base

theorem test_witness_FarReadsAndWrites_7 : ∃ s : State, (putsOpen s 512 = true) :=
  ⟨at_FarReadsAndWrites_7, by decide +kernel⟩

/-- The state of the witness below. -/
def at_FarReadsAndWrites_8 : State := { mailed { op := 0x05, src := 3, dst := 0, txn := 7, addr := 5 } (asked (.put 0 0) base) with tiles := [(0, { dma := { run := [{ desc := item [(0, 0x80)] }] } })] }

theorem test_witness_FarReadsAndWrites_8 : ∃ s : State, ∃ n : Fin 19, ∃ m : HMsg, ∃ k : Nat, ∃ r : OutReq, ∃ u : Fin 512, ∃ a : Addr, ∃ x : RunItem, ∃ rest : List RunItem, ((s.hural.inbox.find? fun e => e.1 = n.val && e.2.1.op = 0x05) = some (n.val, m, k)) ∧ ((s.hural.reqs.find? fun r => r.txn = m.txn && r.dst = m.src && !r.held) = some r) ∧ (r.job = .put u a) ∧ ((isObject a.toNat = false ∨ bitsOf m.addr 0 8 ≠ 4 ∧ bitsOf m.addr 0 8 ≠ 5)) ∧ ((getTile s u).dma.run = x :: rest) :=
  ⟨at_FarReadsAndWrites_8, 0, ((((at_FarReadsAndWrites_8).hural.inbox.find? fun e => e.1 = ((0 : Fin 19)).val && e.2.1.op = 0x05)).get (by decide)).2.1, ((((at_FarReadsAndWrites_8).hural.inbox.find? fun e => e.1 = ((0 : Fin 19)).val && e.2.1.op = 0x05)).get (by decide)).2.2, (((at_FarReadsAndWrites_8).hural.reqs.find? fun r => r.txn = ((((((at_FarReadsAndWrites_8).hural.inbox.find? fun e => e.1 = ((0 : Fin 19)).val && e.2.1.op = 0x05)).get (by decide)).2.1 : HMsg)).txn && r.dst = ((((((at_FarReadsAndWrites_8).hural.inbox.find? fun e => e.1 = ((0 : Fin 19)).val && e.2.1.op = 0x05)).get (by decide)).2.1 : HMsg)).src && !r.held)).get (by decide), 0, 0, ((getTile (at_FarReadsAndWrites_8) ((0 : Fin 512))).dma.run).head (by decide), ((getTile (at_FarReadsAndWrites_8) ((0 : Fin 512))).dma.run).tail, by decide +kernel⟩

theorem test_witness_FarReadsAndWrites_9 : ∃ s : State, ∃ p : Piece, (isNeighbour p.a = true) ∧ ((theChart s).occupied ((p.a - 0x400000000000) / 2 ^ 38) = false) :=
  ⟨base, { a := 0x400000000000, n := 1, wr := false, rebuild := false }, by decide +kernel⟩

theorem test_witness_EachEngineIsItsCommandsOwn_1 : ∃ c : Instr, (Safety.mayChangeMemory c = false) :=
  ⟨.planTake, by decide +kernel⟩

theorem test_witness_EachEngineIsItsCommandsOwn_2 : ∃ c : Instr, (Safety.mayChangeTiles c = false) :=
  ⟨.rdata 0, by decide +kernel⟩

theorem test_witness_EachEngineIsItsCommandsOwn_3 : ∃ c : Instr, (Safety.mayChangeUpdate c = false) :=
  ⟨.mma 0, by decide +kernel⟩

theorem test_witness_EachEngineIsItsCommandsOwn_4 : ∃ c : Instr, (Safety.mayChangeCustoms c = false) :=
  ⟨.mma 0, by decide +kernel⟩

theorem test_witness_EachUnitIsItsCommandsOwn_1 : ∃ c : Instr, (Safety.mayChangeChart c = false) :=
  ⟨.mma 0, by decide +kernel⟩

theorem test_witness_EachUnitIsItsCommandsOwn_2 : ∃ c : Instr, (Safety.mayChangeLinks c = false) :=
  ⟨.graceEnd, by decide +kernel⟩

theorem test_witness_EachUnitIsItsCommandsOwn_3 : ∃ c : Instr, (Safety.mayChangeHarbour c = false) :=
  ⟨.planTake, by decide +kernel⟩

theorem test_witness_EachUnitIsItsCommandsOwn_4 : ∃ c : Instr, (Safety.mayChangeEnergy c = false) :=
  ⟨.planTake, by decide +kernel⟩

theorem test_witness_EachUnitIsItsCommandsOwn_5 : ∃ c : Instr, (Safety.mayChangeBoard c = false) :=
  ⟨.graceEnd, by decide +kernel⟩

theorem test_witness_EachUnitIsItsCommandsOwn_6 : ∃ c : Instr, (Safety.mayChangeCalendar c = false) :=
  ⟨.graceEnd, by decide +kernel⟩

theorem test_witness_EachUnitIsItsCommandsOwn_7 : ∃ c : Instr, (Safety.mayChangeFlashLog c = false) :=
  ⟨.graceEnd, by decide +kernel⟩

/-! Witnesses that take a signature or a whole image: the verification of signatures is open, and taken to succeed. -/

/-! Records and images with a digest: that each passes its checks rests on the one thing nobody knows, that a signature verifies. -/

theorem slice_left (b x : List Byte) (off n : Nat) (h : off + n ≤ b.length) : slice (b ++ x) off n = slice b off n := by
  simp only [slice, List.drop_append, List.take_append, List.length_drop]
  rw [show n - (b.length - off) = 0 by omega]; simp

theorem slice_right (b x : List Byte) (off n : Nat) (h : b.length ≤ off) : slice (b ++ x) off n = slice x (off - b.length) n := by
  simp only [slice, List.drop_append]
  rw [List.drop_eq_nil_of_le h]; simp

theorem fieldAt_left (b x : List Byte) (off n : Nat) (h : off + n ≤ b.length) : fieldAt (b ++ x) off n = fieldAt b off n := by
  simp only [fieldAt, slice_left b x off n h]

theorem fieldAt_right (b x : List Byte) (off n : Nat) (h : b.length ≤ off) : fieldAt (b ++ x) off n = fieldAt x (off - b.length) n := by
  simp only [fieldAt, slice_right b x off n h]

theorem natLe_length (v n : Nat) : (natLe v n).length = n := by
  induction n generalizing v with
  | zero => rfl
  | succ n ih => simp [natLe, ih]

theorem kRound_length (a : List W64) (rc : W64) : (kRound a rc).length = 25 := by
  simp [kRound, kBuild, List.range_succ]

theorem rounds_length (l : List W64) (a : List W64) (h : a.length = 25) : (l.foldl kRound a).length = 25 := by
  induction l generalizing a with
  | nil => exact h
  | cons r l ih => exact ih _ (kRound_length ..)

theorem kBlocks_length (n : Nat) (a : List W64) (m : List Byte) (h : a.length = 25) : (kBlocks n a m).length = 25 := by
  induction n generalizing a m with
  | zero => exact h
  | succ n ih => exact ih _ _ (rounds_length _ _ (by simp))

theorem words_length (l : List W64) : (l.flatMap w64Bytes).length = 8 * l.length := by
  induction l with
  | nil => rfl
  | cons w l ih => simp only [List.flatMap_cons, List.length_append, ih, w64Bytes, natLe_length, List.length_cons]; omega

theorem sha3_length (m : List Byte) : (sha3_256 m).length = 32 := by
  simp only [sha3_256, kHash, List.length_take, words_length]
  rw [kBlocks_length _ _ _ (by simp)]; rfl

/-- Storing bytes changes memory alone. -/
theorem stored_eq (a : Nat) (bs : List Byte) (s : State) : ∃ m, stored a bs s = { s with mem := m } := by
  unfold stored
  induction bs generalizing a s with
  | nil => exact ⟨s.mem, rfl⟩
  | cons b bs ih =>
    obtain ⟨m, h⟩ := ih (a + 1) (run (.prim (.mem a b)) s)
    exact ⟨m, h⟩

theorem stored_read (a : Nat) (bs : List Byte) (s : State) (n : Nat) (hn : bs.length = n) (hc : ∀ l, cohData s l = none) : readMem (stored a bs s) a n = bs := by
  subst hn; exact writeMem_readMem a bs s fun _ _ => hc _

/-- The package in PROV with an enrolled owner key and an identity, whose hashes are zeros. -/
def owned : State := { base with life := .prov, sec := { ownerHash := some (List.replicate 32 0), idDigest := some (List.replicate 32 0), idKey := [1] } }

theorem cohData_base (s : State) (h : s.coh = {}) (l : Nat) : cohData s l = none := by
  simp [cohData, h, Cells.look]

/-- Header and entry of a command record of operation 2, and the record with its digest. -/
def recordBody : List Byte := image 0x580 [(0, 4, 0x444D4353), (4, 1, 2), (8, 8, 0x4645505321221103), (0x50, 8, 2 ^ 60)]
def recordWhole : List Byte := recordBody ++ (sha3_256 recordBody ++ List.replicate 2424 0)

theorem recordBody_length : recordBody.length = 0x580 := natLe_length ..

theorem recordWhole_length : recordWhole.length = 0xF18 := by
  simp only [recordWhole, List.length_append, sha3_length, recordBody_length, List.length_replicate]

theorem recordWhole_digest : sha3_256 (recordWhole.take 0x580) = slice recordWhole 0x580 32 := by
  rw [recordWhole, slice_right _ _ _ _ (by rw [recordBody_length]), recordBody_length, ← recordBody_length, List.take_left]
  simp only [slice, Nat.sub_self, List.drop_zero]
  rw [show 32 = (sha3_256 recordBody).length from (sha3_length _).symm, List.take_left]

theorem test_witness_BootAndSecurity_4 (hv : ∀ k m g, Config.mldsaVerify k m g = true) : ∃ (s : State) (a : Addr), recordCheck s (a.toNat / 64 * 64) = 0 := by
  refine ⟨stored 0x1000 recordWhole owned, 0x1000, ?_⟩
  have hr := stored_read 0x1000 recordWhole owned 0xF18 recordWhole_length (cohData_base _ rfl)
  obtain ⟨m, hm⟩ := stored_eq 0x1000 recordWhole owned
  rw [hm] at hr ⊢
  have h0 : ∀ off n, off + n ≤ 0x580 → fieldAt recordWhole off n = fieldAt recordBody off n := fun off n h =>
    fieldAt_left _ _ _ _ (by rw [recordBody_length]; exact h)
  have h1 : ∀ off n, off + n ≤ 0x580 → slice recordWhole off n = slice recordBody off n := fun off n h =>
    slice_left _ _ _ _ (by rw [recordBody_length]; exact h)
  show recordCheck _ 0x1000 = 0
  unfold recordCheck
  simp only [hr, hv, recordWhole_digest]
  rw [h0 0 4 (by decide), h0 4 1 (by decide), h0 8 8 (by decide), h0 0x50 8 (by decide), h1 0x10 32 (by decide), h1 0x30 32 (by decide)]
  rw [if_neg (by decide +kernel)]
  rw [if_neg (show ¬ _ by exact (by decide +kernel : ¬ ((decide (fieldAt recordBody 8 8 ≠ (getReg owned .IDREV 0 0).toNat) || decide (some (slice recordBody 16 32) ≠ owned.sec.idDigest) || !hasIdentity owned) = true)))]
  rw [if_neg (by simp)]
  rw [if_neg (show ¬ _ by exact (by decide +kernel : ¬ ((decide (slice recordBody 48 32 ≠ ownerKey owned) || !true) = true)))]
  rw [if_neg (show ¬ _ by exact (by decide +kernel : ¬ ((!((decide (fieldAt recordBody 4 1 = 1) && transitionOk owned (fieldAt recordBody 5 1)) || (decide (fieldAt recordBody 4 1 = 2) && (decide (owned.life = .prov) || decide (owned.life = .field)) && owned.sec.ownerHash.isSome))) = true)))]
  rw [if_neg (show ¬ _ by exact (by decide +kernel : ¬ (fieldAt recordBody 0x50 8 < taiNow owned - uncertNow owned)))]

/-- A body with its signature block (R55): the digest stands, the signature is zeros. -/
def signed (b : List Byte) : List Byte := b ++ (image 8 [(0, 2, 0xFFFF), (4, 4, 2456)] ++ (sha3_256 b ++ List.replicate 2424 0))

theorem signed_length (b : List Byte) : (signed b).length = b.length + 2464 := by
  simp only [signed, List.length_append, sha3_length, List.length_replicate, image, natLe_length]

theorem signed_at (b : List Byte) (h : 256 ≤ b.length) (hl : fieldAt b 0x18 4 = b.length + 2464) : imgSigAt (signed b) = b.length := by
  unfold imgSigAt imgLength signed
  rw [fieldAt_left _ _ _ _ (by omega), hl]; omega

theorem signed_take (b : List Byte) : (signed b).take b.length = b := List.take_left

theorem signed_digest (b : List Byte) : slice (signed b) (b.length + 8) 32 = sha3_256 b := by
  unfold signed
  have h8 : (image 8 [(0, 2, 0xFFFF), (4, 4, 2456)]).length = 8 := natLe_length ..
  rw [slice_right _ _ _ _ (by omega), slice_right _ _ _ _ (by rw [h8]; omega), h8, show b.length + 8 - b.length - 8 = 0 by omega]
  simp only [slice, List.drop_zero]
  conv_lhs => rw [show 32 = (sha3_256 b).length from (sha3_length _).symm]
  exact List.take_left

/-- The block's own fields. -/
theorem signed_block (b : List Byte) (off n : Nat) (h : off + n ≤ 8) :
    fieldAt (slice (signed b) b.length 2464) off n = fieldAt (image 8 [(0, 2, 0xFFFF), (4, 4, 2456)]) off n := by
  have h8 : (image 8 [(0, 2, 0xFFFF), (4, 4, 2456)]).length = 8 := natLe_length ..
  have he : slice (signed b) b.length 2464 = image 8 [(0, 2, 0xFFFF), (4, 4, 2456)] ++ (sha3_256 b ++ List.replicate 2424 0) := by
    unfold signed
    rw [slice_right _ _ _ _ (Nat.le_refl _), Nat.sub_self]
    exact List.take_of_length_le (by simp [h8, sha3_length])
  rw [he, fieldAt_left _ _ _ _ (by omega)]

theorem signed_tail (b : List Byte) : fieldAt (slice (signed b) b.length 2464) 2460 4 = 0 := by
  have h8 : (image 8 [(0, 2, 0xFFFF), (4, 4, 2456)]).length = 8 := natLe_length ..
  have he : slice (signed b) b.length 2464 = image 8 [(0, 2, 0xFFFF), (4, 4, 2456)] ++ (sha3_256 b ++ List.replicate 2424 0) := by
    unfold signed
    rw [slice_right _ _ _ _ (Nat.le_refl _), Nat.sub_self]
    exact List.take_of_length_le (by simp [h8, sha3_length])
  rw [he, fieldAt_right _ _ _ _ (by omega), fieldAt_right _ _ _ _ (by rw [sha3_length, h8]; decide), sha3_length, h8]
  decide +kernel

theorem signed_field (b : List Byte) (off n : Nat) (h : off + n ≤ b.length) : fieldAt (signed b) off n = fieldAt b off n := fieldAt_left _ _ _ _ h
theorem signed_slice (b : List Byte) (off n : Nat) (h : off + n ≤ b.length) : slice (signed b) off n = slice b off n := slice_left _ _ _ _ h

/-- Header and section of a host image. -/
def fwBody : List Byte :=
  image 272 [(0, 4, 0x4D495746), (4, 2, 1), (6, 2, 3), (8, 8, 1), (0x18, 4, 272 + 2464), (0x1C, 2, 1), (0x28, 1, 1), (0x50, 8, 0x4645505321221103),
    (0x58, 8, 2 ^ 64 - 2 ^ 32), (256, 2, 0x0201), (258, 1, 1), (260, 4, 8)]

theorem fwBody_length : fwBody.length = 272 := natLe_length ..

theorem bad03_signed (v : Nat) (b : List Byte) (h : 256 ≤ b.length) (h1 : fieldAt b 0x28 1 = 1) : bad03 v (signed b) = bad03 v b := by
  have hf : ∀ off n, off + n ≤ 256 → fieldAt (signed b) off n = fieldAt b off n := fun off n hn => signed_field _ _ _ (by omega)
  simp only [bad03, hf 0x28 1 (by decide), h1, show List.range 4 = [0, 1, 2, 3] from rfl, show List.range 1 = [0] from rfl, List.any_cons, List.any_nil,
    hf (0x50 + 16 * 0) 8 (by decide), hf (0x50 + 16 * 1) 8 (by decide), hf (0x50 + 16 * 2) 8 (by decide), hf (0x50 + 16 * 3) 8 (by decide),
    hf (0x58 + 16 * 0) 8 (by decide), hf (0x58 + 16 * 1) 8 (by decide), hf (0x58 + 16 * 2) 8 (by decide), hf (0x58 + 16 * 3) 8 (by decide)]

theorem bad05_signed (b : List Byte) (h : 256 ≤ b.length) (ha : imgSigAt (signed b) = b.length) (hk : slice b 0x30 32 = List.replicate 32 0)
    (hv : ∀ k m g, Config.mldsaVerify k m g = true) : bad05 (List.replicate 32 0) (signed b) = false := by
  simp only [bad05, signed_slice b 0x30 32 (by omega), hk, hv, ha]; rfl

/-- The sections of a signed body that has one. -/
theorem signed_sections (b : List Byte) (most : Nat) (h : 256 ≤ b.length) (ha : imgSigAt (signed b) = b.length) (h1 : fieldAt b 0x1C 2 = 1) :
    rawSections most (fieldAt (signed b) 0x1C 2) (slice (signed b) 256 (imgSigAt (signed b) - 256)) = rawSections most 1 (slice b 256 (b.length - 256)) := by
  rw [ha, signed_field _ _ _ (by omega), h1, signed_slice _ _ _ (by omega)]

theorem test_witness_BoardCommands_12 (hv : ∀ k m g, Config.mldsaVerify k m g = true) : ∃ (s : State) (bs : List Byte),
    s.pow.rails = true ∧ s.pow.hostFail = true ∧ bs = [] ∧ fwPasses s 3 s.pow.hostImg = true := by
  refine ⟨{ owned with pow := { boot := false, rails := true, hostFail := true, hostImg := signed fwBody } }, [], rfl, rfl, rfl, ?_⟩
  have hl := fwBody_length
  have ha : imgSigAt (signed fwBody) = 272 := by rw [signed_at _ (by rw [hl]; decide) (by rw [hl]; decide +kernel), hl]
  have hf : ∀ off n, off + n ≤ 272 → fieldAt (signed fwBody) off n = fieldAt fwBody off n := fun off n hn => signed_field _ _ _ (by omega)
  have hsec : fwSections (signed fwBody) = rawSections (2 ^ 24) 1 (slice fwBody 256 (272 - 256)) := by
    rw [fwSections, signed_sections fwBody _ (by rw [hl]; decide) (by rw [ha, hl]) (by decide +kernel), hl]
  have h2 : fwBad02 (signed fwBody) = false := by
    have hs := signed_block fwBody; have ht := signed_tail fwBody; rw [hl] at hs ht
    simp only [fwBad02, imgLength, hf 0x18 4 (by decide), signed_length, hl, hsec, ha, hs 0 2 (by decide), hs 2 2 (by decide), hs 4 4 (by decide), ht]
    decide +kernel
  have h3 : bad03 (getReg owned .IDREV 0 0).toNat (signed fwBody) = false := by
    rw [bad03_signed _ _ (by rw [hl]; decide) (by decide +kernel)]; decide +kernel
  have h5 := bad05_signed fwBody (by rw [hl]; decide) (by rw [ha, hl]) (by decide +kernel) hv
  have hd : imgDigest (signed fwBody) = sha3_256 fwBody := by rw [imgDigest, ha, ← hl]; exact signed_digest fwBody
  have ht : (signed fwBody).take 272 = fwBody := by rw [← hl]; exact signed_take fwBody
  show decide (fwCheck (getReg owned .IDREV 0 0).toNat (List.replicate 32 0) .prov 0 3 (signed fwBody) = 0) = true
  simp only [fwCheck, h2, h3, h5, hd, ha, ht, hsec, hf 0 4 (by decide), hf 4 2 (by decide), hf 6 2 (by decide), hf 8 8 (by decide), hf 0x10 8 (by decide), hf 0x20 8 (by decide),
    hf 0x1E 2 (by decide), hf 0x29 7 (by decide), hf 0xB0 80 (by decide), ne_eq, not_true_eq_false, if_false, Bool.false_eq_true]
  decide +kernel

/-- A chart of one compute tile that passes every check. -/
def chartWhole : Chart :=
  { serial := 1
    sections := [(1, image 88 [(0, 1, 1), (16, 1, 1)]), (2, image 512 [(0, 1, 1)]), (3, image 144 [(0, 144, 0x51743600ff7f2600f27ff600f1703600017f36007156340000000000f1523400215f3400ff5f0400f05ff400ff7f6200432f510000000000f67ff200032ff100f32f0100ff6f7200f4351200f76ff20000000000f03f1200ff301200f7163000ff5f4000ff123000f21f300000000000f45ff000f6371000ff4f5000f23f1000ff321000f54ff000000000)]), (4, image 24 [(0, 1, 1)]),
      (5, image 88 [(0x40, 1, 1)]), (6, image 32 [(8, 8, 2 ^ 30), (16, 8, 2 ^ 30), (24, 8, 2 ^ 28)]), (7, image 8 []),
      (8, image 48 [(0, 1, 3), (8, 8, 2 ^ 64 - 1), (16, 1, 1)])] ++
      [(9, image 16 [(0, 2, 10)]), (10, image 8 [(0, 1, 1), (1, 1, 1), (4, 4, 60)]), (11, image 8 [(2, 2, 1), (4, 2, 1)]), (12, image 8 []),
      (13, image 8 [(4, 4, 1)]), (14, image 48 [(0, 1, 1), (1, 1, 1)])] }

/-- Header and section of an amendment of it: TIDE as it is. -/
def amendBody : List Byte :=
  image 280 [(0, 4, 0x54524843), (4, 2, 1), (6, 2, 1), (8, 8, 2), (0x10, 8, 1), (0x18, 4, 280 + 2464), (0x1C, 2, 1), (0x28, 1, 1), (0x50, 8, 0x4645505321221103),
    (0x58, 8, 2 ^ 64 - 2 ^ 32), (256, 2, 9), (258, 1, 1), (260, 4, 16), (264, 2, 10)]

theorem amendBody_length : amendBody.length = 280 := natLe_length ..

/-- The package whose chart it is, with an amendment in check. -/
def amending : State := { owned with chart := { checking := some 0x1000, cur := some chartWhole } }

theorem test_witness_ChartAmendments_3 (hv : ∀ k m g, Config.mldsaVerify k m g = true) : ∃ (s : State) (a : Addr),
    s.chart.checking = some a ∧ chartCheck (chartCx s true) (readImage s a) = 0 ∧
    firstBoundary s ≤ amendBoundary s (imgChart (readImage s a)) ∧ amendBoundary s (imgChart (readImage s a)) < 2 ^ 48 := by
  refine ⟨stored 0x1000 (signed amendBody) amending, 0x1000, ?_⟩
  have hl := amendBody_length
  have hn : (signed amendBody).length = 2744 := by rw [signed_length, hl]
  have ha : imgSigAt (signed amendBody) = 280 := by rw [signed_at _ (by rw [hl]; decide) (by rw [hl]; decide +kernel), hl]
  have hf : ∀ off n, off + n ≤ 280 → fieldAt (signed amendBody) off n = fieldAt amendBody off n := fun off n hn => signed_field _ _ _ (by omega)
  have hr : readImage (stored 0x1000 (signed amendBody) amending) 0x1000 = signed amendBody := by
    have hm := stored_read 0x1000 (signed amendBody) amending 2744 hn (cohData_base _ rfl)
    have hw : readNat (stored 0x1000 (signed amendBody) amending) (0x1000 + 0x18) 4 = 2744 := by
      have he : readNat (stored 0x1000 (signed amendBody) amending) (0x1000 + 0x18) 4 =
          fieldAt (readMem (stored 0x1000 (signed amendBody) amending) 0x1000 2744) 0x18 4 := by
        simp only [readNat, fieldAt, slice, readMem]
        rfl
      rw [he, hm, hf _ _ (by decide)]; decide +kernel
    show readMem _ 0x1000 (max 256 (min (readNat _ (0x1000 + 0x18) 4) (2 ^ 20))) = _
    rw [hw]; exact hm
  have hsec : imgSections (signed amendBody) = rawSections 65536 1 (slice amendBody 256 (280 - 256)) := by
    rw [imgSections, signed_sections amendBody _ (by rw [hl]; decide) (by rw [ha, hl]) (by decide +kernel), hl]
  have h2 : bad02 (signed amendBody) = false := by
    have hs := signed_block amendBody; have ht := signed_tail amendBody; rw [hl] at hs ht
    simp only [bad02, imgLength, hf 0x18 4 (by decide), signed_length, hl, hsec, ha, hs 0 2 (by decide), hs 2 2 (by decide), hs 4 4 (by decide), ht]
    decide +kernel
  have h3 : bad03 (getReg owned .IDREV 0 0).toNat (signed amendBody) = false := by
    rw [bad03_signed _ _ (by rw [hl]; decide) (by decide +kernel)]; decide +kernel
  have h5 := bad05_signed amendBody (by rw [hl]; decide) (by rw [ha, hl]) (by decide +kernel) hv
  have hd : slice (signed amendBody) (280 + 8) 32 = sha3_256 amendBody := by rw [← hl]; exact signed_digest amendBody
  have ht : (signed amendBody).take 280 = amendBody := by rw [← hl]; exact signed_take amendBody
  obtain ⟨m, hm⟩ := stored_eq 0x1000 (signed amendBody) amending
  rw [hr, hm]
  have he : (imgChart (signed amendBody)).effective = 0 := by
    show BitVec.ofNat 64 (fieldAt (signed amendBody) 0x20 8) = 0
    rw [hf _ _ (by decide)]; decide +kernel
  have hb : amendBoundary { amending with mem := m } (imgChart (signed amendBody)) = firstBoundary amending := by
    unfold amendBoundary; rw [if_pos he]; rfl
  have hb' : firstBoundary { amending with mem := m } = firstBoundary amending := rfl
  refine ⟨rfl, ?_, by rw [hb, hb'], by rw [hb]; decide +kernel⟩
  have hc : imgChart (signed amendBody) =
      { serial := 2, base := 1, sealed := false, indiv := false, effective := 0, digest := sha3_256 amendBody, sections := [(9, image 16 [(0, 2, 10)])] } := by
    simp only [imgChart, hsec, ha, hd, hf 8 8 (by decide), hf 0x10 8 (by decide), hf 0x1E 2 (by decide), hf 0x20 8 (by decide)]
    congr 1
  show chartCheck { idrev := (getReg owned .IDREV 0 0).toNat, keyHash := List.replicate 32 0, life := .prov, floor := 0, amend := true, cur := some chartWhole } (signed amendBody) = 0
  simp only [chartCheck, resultChart, hc, h2, h3, h5, hd, ha, ht, hsec, bad07, periodBad, headerReservedOk, hf 0 4 (by decide), hf 4 2 (by decide), hf 6 2 (by decide), hf 8 8 (by decide),
    hf 0x10 8 (by decide), hf 0x20 8 (by decide), hf 0x1E 2 (by decide), hf 0x29 7 (by decide), hf 0xB0 80 (by decide), ne_eq, not_true_eq_false, if_false, Bool.false_eq_true]
  decide +kernel

/-- A body of a manifest record, and the record with its digest. -/
def manifestBody : List Byte := image 0x9140 [(0, 4, 0x44524D43), (8, 8, 5), (0x30, 8, 77)]

theorem manifestBody_length : manifestBody.length = 0x9140 := natLe_length ..

theorem manifestRecord_valid : recordValid (manifestBody ++ sha3_256 manifestBody) = true := by
  have h0 : fieldAt (manifestBody ++ sha3_256 manifestBody) 0 4 = 0x44524D43 := by
    rw [fieldAt_left _ _ _ _ (by rw [manifestBody_length]; decide)]; decide +kernel
  rw [recordValid, h0, slice_right _ _ _ _ (by rw [manifestBody_length]), manifestBody_length, ← manifestBody_length, List.take_left]
  simp only [slice, Nat.sub_self, List.drop_zero]
  conv_lhs => enter [2, 1]; rw [show 32 = (sha3_256 manifestBody).length from (sha3_length _).symm, List.take_length]
  simp

theorem test_witness_SurvivalControl_7 : ∃ (s : State) (l : List (List Byte × List (Addr × List Byte))) (r : List Byte) (o : List (Addr × List Byte)),
    getF s SHD_STAT.PHASE = 2 ∧ (r, o) ∈ l ∧ recordValid r = true ∧ recordCommitted s r = true ∧
    (∀ e ∈ l, recordValid e.1 = true → recordCommitted s e.1 = true → e ≠ (r, o) → fieldAt e.1 8 8 < fieldAt r 8 8) :=
  ⟨made [setF SHD_STAT.PHASE 2], [(manifestBody ++ sha3_256 manifestBody, [])], _, [], by decide +kernel, List.mem_singleton.2 rfl, manifestRecord_valid, rfl,
    fun _ he _ _ hn => absurd (List.mem_singleton.1 he) hn⟩

/-- A lender whose pool is covered by an exposure. -/
def lenderFull : State := run (Act.all [setF HURAL_EXPSRC.EN 1 0, setF HURAL_EXPWIN.PAGES 512 0]) lender

theorem test_witness_HuralMessages_13 : ∃ (s : State) (n : Fin 19) (m : HMsg) (k f : Nat) (x : LentFrame),
    (s.hural.inbox.find? fun e => e.1 = n.val && e.2.1.op = 0x20) = some (n.val, m, k) ∧ (theChart s).lend ≠ 0 ∧ freeFrameNo s = none ∧
    oldestLent s = some (f, x) :=
  ⟨mailed { src := 3, dst := 0, op := 0x20 } lenderFull, 0, { src := 3, dst := 0, op := 0x20 }, 1, 523776, { berth := 3 }, by decide +kernel⟩

/-- The first quay line of die 0. -/
abbrev quayLine : Nat := 2 ^ 34

theorem homeOf_quay (i : Nat) (h : i ≤ 32768) : homeOf (quayLine + i) = 16 := by
  have h1 : isWarehouse ((quayLine + i) * 64) = false := by simp only [isWarehouse, quayLine, decide_eq_false_iff_not]; omega
  have h2 : quayDie ((quayLine + i) * 64) = 0 := by simp only [quayDie, quayLine]; omega
  have h3 : ((quayLine + i) * 64 - 0x010000000000) % 0xC0000000 / 0x1800000 < 64 := by simp only [quayLine]; omega
  simp only [homeOf, h1, h2, h3, if_true, Bool.false_eq_true, if_false]

/-- `n` lines from a line on, owned by agent 0 or shared by no one. -/
def listedLines (o : Bool) (b : Nat) : Nat → FMap DirEnt
  | 0 => []
  | n + 1 => (b, { owned := o }) :: listedLines o (b + 1) n

theorem listedLines_mem (o : Bool) (b n : Nat) (e : Nat × DirEnt) (h : e ∈ listedLines o b n) : b ≤ e.1 ∧ e.1 < b + n ∧ e.2.last = 0 := by
  induction n generalizing b with
  | zero => cases h
  | succ n ih =>
    rcases List.mem_cons.mp h with rfl | h
    · exact ⟨Nat.le_refl _, by simp, rfl⟩
    · have := ih _ h; exact ⟨by omega, by omega, this.2.2⟩

theorem listedLines_look (o : Bool) (b n k : Nat) (h : b + n ≤ k) : Cells.look (listedLines o b n) k = none := by
  induction n generalizing b with
  | zero => rfl
  | succ n ih => simp only [listedLines, Cells.look]; rw [if_neg (by omega)]; exact ih _ (by omega)

theorem listedLines_length (o : Bool) (b n : Nat) : (listedLines o b n).length = n := by
  induction n generalizing b with
  | zero => rfl
  | succ n ih => simp [listedLines, ih]

theorem foldl_stays {α : Type} (f : α → α → α) (x : α) (l : List α) (h : ∀ e ∈ l, f x e = x) : l.foldl f x = x := by
  induction l with
  | nil => rfl
  | cons a l ih => rw [List.foldl_cons, h a (List.mem_cons_self ..)]; exact ih fun e he => h e (List.mem_cons_of_mem _ he)

/-- A home all of whose directory entries are taken. -/
def fullHome (o : Bool) : State := { base with coh := { dir := listedLines o quayLine 32768 } }

theorem fullHome_room (o : Bool) : Cells.look (fullHome o).coh.dir (quayLine + 32768) = none ∧
    homeEntries (homeOf (quayLine + 32768)) ≤ ((fullHome o).coh.dir.filter fun e => homeOf e.1 = homeOf (quayLine + 32768)).length ∧
    dirEvicting (fullHome o) (homeOf (quayLine + 32768)) = false ∧ dirVictim (fullHome o) (homeOf (quayLine + 32768)) = some quayLine := by
  have hm := listedLines_mem o quayLine 32768
  have hh : homeOf (quayLine + 32768) = 16 := homeOf_quay _ (Nat.le_refl _)
  have hk : ∀ e ∈ listedLines o quayLine 32768, homeOf e.1 = 16 := fun e he => by
    have := hm e he
    rw [show e.1 = quayLine + (e.1 - quayLine) by omega]; exact homeOf_quay _ (by omega)
  refine ⟨listedLines_look _ _ _ _ (Nat.le_refl _), ?_, rfl, ?_⟩
  · simp only [fullHome]
    rw [hh, List.filter_eq_self.mpr fun e he => by simp [hk e he], listedLines_length]; decide
  · rw [hh]
    have hf : (listedLines o quayLine 32768).filter (fun e => decide (homeOf e.1 = 16) && (Cells.look ([] : FMap HomeTx) e.1).isNone) = listedLines o quayLine 32768 :=
      List.filter_eq_self.mpr fun e he => by simp [hk e he, Cells.look]
    unfold dirVictim
    simp only [fullHome]
    erw [hf]
    rw [listedLines]
    simp only
    rw [foldl_stays _ _ _ fun e he => by
      have := (listedLines_mem o _ _ e he).2.2
      rw [this]; rfl]

theorem test_witness_AgentsAndHomes_9 : ∃ (s : State) (l v : Nat), Cells.look s.coh.dir l = none ∧
    homeEntries (homeOf l) ≤ (s.coh.dir.filter fun e => homeOf e.1 = homeOf l).length ∧ dirEvicting s (homeOf l) = false ∧
    dirVictim s (homeOf l) = some v ∧ lineHolders s v = [] :=
  ⟨fullHome false, quayLine + 32768, quayLine, (fullHome_room false).1, (fullHome_room false).2.1, (fullHome_room false).2.2.1, (fullHome_room false).2.2.2, rfl⟩

theorem test_witness_AgentsAndHomes_10 : ∃ (s : State) (l v : Nat), Cells.look s.coh.dir l = none ∧
    homeEntries (homeOf l) ≤ (s.coh.dir.filter fun e => homeOf e.1 = homeOf l).length ∧ dirEvicting s (homeOf l) = false ∧
    dirVictim s (homeOf l) = some v ∧ lineHolders s v ≠ [] :=
  ⟨fullHome true, quayLine + 32768, quayLine, (fullHome_room true).1, (fullHome_room true).2.1, (fullHome_room true).2.2.1, (fullHome_room true).2.2.2,
    List.cons_ne_nil 0 []⟩

end Sys2Proof.Tests
end

/-! PROOFS. The register map: where each register lies, and that no two of them share an address (R4, Table 1-11). -/

namespace Sys2Proof.Machine

/-- One candidate of `regAt`: the register with the indices that lead to the address, where it has such. -/
def regHit (a : Nat) (r : RegName) : Option (RegName × Nat × Nat) :=
  let l := r.loc
  let d := a - l.base
  let i := if l.si = 0 then 0 else d / l.si
  let j := if l.sj = 0 then 0 else (d - i * l.si) / l.sj
  if l.base ≤ a && i < l.ni && j < l.nj && l.base + i * l.si + j * l.sj = a then some (r, i, j) else none

theorem regAt_eq_findSome_regHit (a : Nat) : regAt a = RegName.all.findSome? (regHit a) := rfl

/-- A candidate is found at its own address only. -/
theorem regHit_eq_some {a : Nat} {r q : RegName} {i j : Nat} (h : regHit a r = some (q, i, j)) :
    q = r ∧ i < r.loc.ni ∧ j < r.loc.nj ∧ regAddr r i j = a := by
  simp only [regHit, Option.ite_none_right_eq_some, Bool.and_eq_true, decide_eq_true_eq, Option.some.injEq, Prod.mk.injEq] at h
  obtain ⟨⟨⟨⟨-, hi⟩, hj⟩, ha⟩, rfl, rfl, rfl⟩ := h
  exact ⟨rfl, hi, hj, ha⟩

/-- What `regAt` finds lies at the address. -/
theorem regAt_eq_some {a : Nat} {r : RegName} {i j : Nat} (h : regAt a = some (r, i, j)) : i < r.loc.ni ∧ j < r.loc.nj ∧ regAddr r i j = a := by
  rw [regAt_eq_findSome_regHit] at h
  obtain ⟨q, -, hq⟩ := List.exists_of_findSome?_eq_some h
  obtain ⟨rfl, hi, hj, ha⟩ := regHit_eq_some hq
  exact ⟨hi, hj, ha⟩

/-- The entries of one page do not reach into the next page, and an index without a stride counts one place. -/
def RegLoc.nested (l : RegLoc) : Bool :=
  decide (if l.si = 0 then l.ni ≤ 1 else (l.nj - 1) * l.sj < l.si) && decide (l.sj = 0 → l.nj ≤ 1)

theorem RegName.loc_nested (r : RegName) : r.loc.nested = true := by cases r <;> decide

/-- At a register's address its candidate is the register with its indices. -/
theorem regHit_regAddr {r : RegName} {i j : Nat} (hi : i < r.loc.ni) (hj : j < r.loc.nj) : regHit (regAddr r i j) r = some (r, i, j) := by
  have hn := r.loc_nested
  simp only [RegLoc.nested, Bool.and_eq_true, decide_eq_true_eq] at hn
  obtain ⟨hpage, hentry⟩ := hn
  have hfit : j * r.loc.sj ≤ (r.loc.nj - 1) * r.loc.sj := Nat.mul_le_mul_right _ (by omega)
  have hd : regAddr r i j - r.loc.base = i * r.loc.si + j * r.loc.sj := by simp only [regAddr]; omega
  have hI : (if r.loc.si = 0 then 0 else (i * r.loc.si + j * r.loc.sj) / r.loc.si) = i := by
    split at hpage
    · rename_i h0; rw [if_pos h0]; omega
    · rename_i h0
      rw [if_neg h0, Nat.add_comm, Nat.add_mul_div_right _ _ (by omega), Nat.div_eq_of_lt (by omega), Nat.zero_add]
  have hJ : (if r.loc.sj = 0 then 0 else (i * r.loc.si + j * r.loc.sj - i * r.loc.si) / r.loc.sj) = j := by
    split
    · rename_i h0; have := hentry h0; omega
    · rename_i h0; rw [Nat.add_sub_cancel_left, Nat.mul_div_cancel _ (by omega)]
  have hbase : r.loc.base ≤ regAddr r i j := by simp only [regAddr]; omega
  simp only [regHit, hd, hI, hJ, hbase, hi, hj, decide_true, Bool.true_and]
  exact if_pos (decide_eq_true rfl)

/-! No two registers share an address: the places of each, modulo some power of two, lie in ranges of their own. -/

/-- What an index with count `n` and stride `s` adds at most, modulo `m`. -/
def spread (m n s : Nat) : Nat := if s % m = 0 then 0 else (n - 1) * s

/-- The lowest and the highest place of a register's addresses modulo `m`. -/
def RegLoc.low (m : Nat) (l : RegLoc) : Nat := l.base % m
def RegLoc.high (m : Nat) (l : RegLoc) : Nat := l.base % m + spread m l.ni l.si + spread m l.nj l.sj

theorem exists_le_spread (m : Nat) {k n : Nat} (s : Nat) (hk : k < n) : ∃ x ≤ spread m n s, k * s ≡ x [MOD m] := by
  unfold spread
  split
  · rename_i h
    exact ⟨0, Nat.le_refl 0, (Nat.modEq_zero_iff_dvd.mpr (Dvd.dvd.mul_left (Nat.dvd_of_mod_eq_zero h) k))⟩
  · exact ⟨k * s, Nat.mul_le_mul_right s (by omega), rfl⟩

/-- Every address of a register lies between them, where they do not wrap around. -/
theorem regAddr_mod_mem {m : Nat} {r : RegName} {i j : Nat} (hi : i < r.loc.ni) (hj : j < r.loc.nj) (hm : r.loc.high m < m) :
    r.loc.low m ≤ regAddr r i j % m ∧ regAddr r i j % m ≤ r.loc.high m := by
  obtain ⟨x, hx, hxi⟩ := exists_le_spread m r.loc.si hi
  obtain ⟨y, hy, hyj⟩ := exists_le_spread m r.loc.sj hj
  have hmod : regAddr r i j ≡ r.loc.base % m + x + y [MOD m] := ((Nat.mod_modEq _ _).symm.add hxi).add hyj
  simp only [RegLoc.high, RegLoc.low] at hm ⊢
  have hval : regAddr r i j % m = r.loc.base % m + x + y := Eq.trans hmod (Nat.mod_eq_of_lt (by omega))
  omega

/-- Modulo `m` the places of two registers lie apart. -/
def RegLoc.apartMod (l k : RegLoc) (m : Nat) : Bool :=
  Nat.blt (l.high m) m && Nat.blt (k.high m) m && (Nat.blt (l.high m) (k.low m) || Nat.blt (k.high m) (l.low m))

/-- The strides of the register tables; 2^48, above every address, compares whole ranges. -/
def strideMods : List Nat := [2 ^ 48, 0x10, 0x40, 0x80, 0x1000, 0x8000, 0x10000]

/-- The two registers share no address. -/
def RegLoc.apart (l k : RegLoc) : Bool := strideMods.any (l.apartMod k)

theorem regAddr_ne_of_apart {r q : RegName} {i j m n : Nat} (h : r.loc.apart q.loc = true) (hi : i < r.loc.ni) (hj : j < r.loc.nj)
    (hm : m < q.loc.ni) (hn : n < q.loc.nj) : regAddr r i j ≠ regAddr q m n := by
  obtain ⟨M, -, hM⟩ := List.any_eq_true.mp h
  simp only [RegLoc.apartMod, Bool.and_eq_true, Bool.or_eq_true, Nat.blt_eq] at hM
  obtain ⟨⟨hr, hq⟩, hrq⟩ := hM
  have h1 := regAddr_mod_mem hi hj hr
  have h2 := regAddr_mod_mem hm hn hq
  intro he
  rw [he] at h1
  omega

theorem RegName.all_pairwise_apart : RegName.all.Pairwise fun r q => r.loc.apart q.loc = true := by decide +kernel

theorem RegLoc.apart_comm (l k : RegLoc) : l.apart k = k.apart l := by
  simp only [RegLoc.apart]
  congr 1
  funext m
  simp only [RegLoc.apartMod, Bool.and_comm (Nat.blt (l.high m) m), Bool.or_comm (Nat.blt (l.high m) _)]

/-- Any two registers lie apart (Table 1-11 and the tables of the blocks). -/
theorem RegName.loc_apart {r q : RegName} (h : r ≠ q) : r.loc.apart q.loc = true := by
  have hsymm : Std.Symm fun r q : RegName => r.loc.apart q.loc = true := ⟨fun r q hrq => (RegLoc.apart_comm q.loc r.loc).trans hrq⟩
  exact RegName.all_pairwise_apart.forall r.mem_all q.mem_all h

/-- An address belongs to one register at most. -/
theorem regAddr_ne {r q : RegName} {i j m n : Nat} (h : r ≠ q) (hi : i < r.loc.ni) (hj : j < r.loc.nj) (hm : m < q.loc.ni) (hn : n < q.loc.nj) :
    regAddr r i j ≠ regAddr q m n := regAddr_ne_of_apart (RegName.loc_apart h) hi hj hm hn

/-- The register map inverts the addresses. -/
theorem regAt_regAddr {r : RegName} {i j : Nat} (hi : i < r.loc.ni) (hj : j < r.loc.nj) : regAt (regAddr r i j) = some (r, i, j) := by
  rw [regAt_eq_findSome_regHit]
  have hown := regHit_regAddr hi hj
  have hfound : (RegName.all.findSome? (regHit (regAddr r i j))).isSome = true := List.findSome?_isSome_iff.mpr ⟨r, r.mem_all, by rw [hown]; rfl⟩
  obtain ⟨⟨q, m, n⟩, hx⟩ := Option.isSome_iff_exists.mp hfound
  obtain ⟨p, -, hp⟩ := List.exists_of_findSome?_eq_some hx
  obtain ⟨rfl, hm, hn, ha⟩ := regHit_eq_some hp
  by_cases hqr : q = r
  · subst hqr
    rw [hx, ← hp, hown]
  · exact absurd ha (regAddr_ne hqr hm hn hi hj)

/-- Settles O52: no two registers share an address, so the one found at a register's address is that register. -/
theorem registerAddressesAgree : Obligations.RegisterAddressesAgree := fun _ _ _ hi hj => regAt_regAddr hi hj

end Sys2Proof.Machine

/-! PROOFS. Accesses to register space: what each branch of `regAccess` does, and which accesses reach it (R4, R17, R19, R89). -/

namespace Sys2Proof.Machine

/-! What an access fault does. -/

@[simp] theorem accessFault_regs (who : Agent) (a : Addr) (s : State) : (run (accessFault who a) s).regs = s.regs :=
  only_regs (changes_accessFault who a).only (by decide) s

@[simp] theorem accessFault_mem (who : Agent) (a : Addr) (s : State) : (run (accessFault who a) s).mem = s.mem :=
  only_mem (changes_accessFault who a).only (by decide) s

@[simp] theorem accessFault_out (who : Agent) (a : Addr) (s : State) : (run (accessFault who a) s).out = .accessFault who a :: s.out := by
  simp only [accessFault, run_all_cons, run_all_nil, logEv_out, run_send]; rfl

theorem accessFault_logged (who : Agent) (a : Addr) (s : State) : Safety.Logged .accessFault s (run (accessFault who a) s) := by
  simp only [Safety.Logged, accessFault, run_all_cons, run_all_nil, run_send]
  rw [logEv_tally _ _ _ _ _ _ (by decide), if_pos rfl, Prim.send_tally]; rfl

/-! Places in register space. -/

theorem not_regHole_of_tileOff {s : State} {a : Nat} (h : tileOff s a = true) : regHole s a = false := by
  have htile : inTiles a = true := by simp only [tileOff, Bool.and_eq_true] at h; exact h.1.1
  have hblock : inBlocks a = true := List.any_eq_true.mpr ⟨_, by simp [regBlocks], htile⟩
  simp [regHole, h, hblock]

theorem isRegSpace_of_tileOff {s : State} {a : Nat} (h : tileOff s a = true) : isRegSpace a = true := by
  simp only [tileOff, inTiles, inRange, Bool.and_eq_true, decide_eq_true_eq] at h
  simp only [isRegSpace, Bool.and_eq_true, decide_eq_true_eq]
  omega

theorem not_regHole_of_regAt {s : State} {a : Nat} (hb : inBlocks a = true) (h : (regAt (a / 8 * 8)).isSome = true) : regHole s a = false := by
  have hn : (regAt (a / 8 * 8)).isNone = false := by rw [← Option.not_isSome, h]; rfl
  simp [regHole, hb, hn]

/-- No register answers outside the blocks, nor, with no chart in effect, at a tile's reserved offset. -/
theorem regHole_of_no_register {s : State} {a : Nat} (h : inBlocks a = false ∨ (inTiles a = true ∧ s.chart.cur = none ∧ regAt (a / 8 * 8) = none)) :
    regHole s a = true := by
  obtain h | ⟨ht, hc, hr⟩ := h
  · simp [regHole, h]
  · have hoff : tileOff s a = false := by simp [tileOff, hc]
    simp [regHole, ht, hoff, hr]

/-! Accesses, one branch at a time. -/

theorem length_natLe (v n : Nat) : (natLe v n).length = n := by
  induction n generalizing v with
  | zero => rfl
  | succ n ih => simp [natLe, ih]

/-- An agent that does not reach registers, or an address that nothing answers. -/
theorem regAccess_faults {s : State} {who : Agent} {addr : Addr} {op : AccessOp}
    (h : reachesRegs s who addr.toNat (accessWrites op) = false ∨ regHole s addr.toNat = true) :
    run (regAccess who addr op) s = run (accessFault who addr) s := by
  have hc : (!reachesRegs s who addr.toNat (accessWrites op) || regHole s addr.toNat) = true := by
    obtain h | h := h <;> simp [h]
  simp only [regAccess, run_ask]
  rw [if_pos hc]

section
variable {s : State} {who : Agent} {addr : Addr} (hh : regHole s addr.toNat = false)
include hh

theorem regAccess_write {bs : List Byte} (cc : Bool) (p : Fin 64) (q : Nat) (hr : reachesRegs s who addr.toNat true = true)
    (hs : sizeOk addr.toNat bs.length = true) (ht : tileOff s addr.toNat = false) :
    run (regAccess who addr (.write bs cc p q)) s = run (regWriteBy who addr.toNat bs.length (leNat bs)) s := by
  simp [regAccess, accessWrites, hr, hh, hs, ht]

theorem regAccess_write_tileOff {bs : List Byte} (cc : Bool) (p : Fin 64) (q : Nat) (hr : reachesRegs s who addr.toNat true = true)
    (hs : sizeOk addr.toNat bs.length = true) (ht : tileOff s addr.toNat = true) :
    run (regAccess who addr (.write bs cc p q)) s = { s with out := .resp who addr [] :: s.out } := by
  simp [regAccess, accessWrites, hr, hh, hs, ht]; rfl

theorem regAccess_write_badSize {bs : List Byte} (cc : Bool) (p : Fin 64) (q : Nat) (hr : reachesRegs s who addr.toNat true = true)
    (hs : sizeOk addr.toNat bs.length = false) :
    run (regAccess who addr (.write bs cc p q)) s = { s with out := .accessFault who addr :: s.out } := by
  simp [regAccess, accessWrites, hr, hh, hs]; rfl

theorem regAccess_read {n : Nat} (hr : reachesRegs s who addr.toNat false = true) (hs : sizeOk addr.toNat n = true)
    (ht : tileOff s addr.toNat = false) : run (regAccess who addr (.read n)) s = run (regReadBy who addr.toNat n) s := by
  simp [regAccess, accessWrites, hr, hh, hs, ht]

theorem regAccess_read_tileOff {n : Nat} (hr : reachesRegs s who addr.toNat false = true) (hs : sizeOk addr.toNat n = true)
    (ht : tileOff s addr.toNat = true) :
    run (regAccess who addr (.read n)) s = { s with out := .resp who addr (List.replicate n 0) :: s.out } := by
  simp [regAccess, accessWrites, hr, hh, hs, ht]; rfl

theorem regAccess_read_badSize {n : Nat} (hr : reachesRegs s who addr.toNat false = true) (hs : sizeOk addr.toNat n = false) :
    run (regAccess who addr (.read n)) s = { s with out := .accessFault who addr :: .resp who addr (List.replicate n 0) :: s.out } := by
  simp [regAccess, accessWrites, hr, hh, hs]; rfl

end

/-- The access that REGISTER_WRITE makes. -/
theorem exec_registerWrite {s : State} {who : Agent} (addr : Addr) (size : Nat) (v : W64) (hon : whoOn s who = true) :
    exec (.registerWrite who addr size v) s = .next (run (regAccess who addr (.write (natLe v.toNat size) false 0 0)) s) := by
  show Host.Outcome.next (run (registerWrite who addr size v) s) = _
  rw [registerWrite, run_given, if_pos hon]

/-- An agent with power that is neither a device nor a partner meets register space as `regAccess` says. -/
theorem exec_physicalAccess_regSpace {s : State} {who : Agent} {addr : Addr} (op : AccessOp) (e : Nat) (hp : ∀ n, who ≠ .pcie n)
    (hb : ∀ b, who ≠ .partner b) (hon : whoOn s who = true) (hspace : isRegSpace addr.toNat = true) :
    exec (.physicalAccess who addr op e) s = .next (run (regAccess who addr op) s) := by
  have hinner : ∀ w, run (innerAccess w addr op e) s = run (regAccess w addr op) s := fun w => by
    rw [innerAccess, run_ask, if_pos hspace]
  show Host.Outcome.next (run (physAccess who addr op e) s) = _
  congr 1
  cases who with
  | pcie n => exact absurd rfl (hp n)
  | partner b => exact absurd rfl (hb b)
  | control u => rw [physAccess, run_given, if_pos (by exact hon), hinner]
  | host _ | hm _ | debug | engine _ | copyDma => exact hinner _

/-- Settles O7: each clause is one branch of `regAccess`. -/
theorem registerAccessFaults : Obligations.RegisterAccessFaults := by
  refine ⟨fun s core addr v size hh hs => ?_, fun s who addr v size hon hbad => ?_, fun s addr h => regHole_of_no_register h,
    fun s core addr v size ht hs => ?_, fun s core addr n e ht hs => ?_⟩
  · refine ⟨_, exec_registerWrite (who := .host core) addr size v rfl, ?_⟩
    rw [regAccess_write_badSize hh _ _ _ rfl (by rwa [length_natLe])]
    exact ⟨rfl, rfl, rfl⟩
  · have hfault : reachesRegs s who addr.toNat true = false ∨ regHole s addr.toNat = true := by
      obtain rfl | ⟨u, rfl⟩ | ⟨n, rfl⟩ | h := hbad
      · exact .inl rfl
      · exact .inl rfl
      · exact .inl rfl
      · exact .inr h
    refine ⟨_, exec_registerWrite addr size v hon, ?_⟩
    rw [regAccess_faults hfault]
    exact ⟨accessFault_regs .., accessFault_mem .., accessFault_out .., accessFault_logged ..⟩
  · refine ⟨_, exec_registerWrite (who := .host core) addr size v rfl, ?_⟩
    exact regAccess_write_tileOff (not_regHole_of_tileOff ht) _ _ _ rfl (by rwa [length_natLe]) ht
  · refine ⟨_, exec_physicalAccess_regSpace (.read n) e (fun _ => Agent.noConfusion) (fun _ => Agent.noConfusion) rfl (isRegSpace_of_tileOff ht), ?_⟩
    exact regAccess_read_tileOff (not_regHole_of_tileOff ht) rfl hs ht

/-! Reads and writes of one register. -/

theorem regWriteBy_of_regAt {who : Agent} {addr : Addr} {r : RegName} {i j : Nat} (h : regAt (addr.toNat / 8 * 8) = some (r, i, j)) (n v : Nat) (s : State) :
    run (regWriteBy who addr.toNat n v) s =
      run (respond who addr []) (run (regWrite r i j (lanesOf addr.toNat n) (BitVec.ofNat 64 (v * 2 ^ (8 * (addr.toNat % 8))))) s) := by
  simp only [regWriteBy, h, run_seq, BitVec.ofNat_toNat, BitVec.setWidth_eq]

theorem regReadBy_of_regAt {who : Agent} {addr : Addr} {r : RegName} {i j : Nat} (h : regAt (addr.toNat / 8 * 8) = some (r, i, j)) (hr : r ≠ .BELL_VIS)
    (n : Nat) (s : State) :
    run (regReadBy who addr.toNat n) s =
      let rc := r.bits (fun f => f.acc = .rc) &&& lanesOf addr.toNat n
      run (Act.when (decide (rc ≠ 0)) (.prim (.reg r i j (getReg s r i j &&& ~~~rc))))
        (run (respond who addr (slice (w64Bytes (regRead s r i j)) (addr.toNat % 8) n)) s) := by
  simp only [regReadBy, run_ask]
  split <;> rename_i hfound <;> rw [h] at hfound <;> cases hfound
  · exact absurd rfl hr
  · simp only [run_seq, BitVec.ofNat_toNat, BitVec.setWidth_eq]

/-- The answer leaves; clearing RC bits changes registers only. -/
theorem regReadBy_out_mem {who : Agent} {addr : Addr} {r : RegName} {i j : Nat} (h : regAt (addr.toNat / 8 * 8) = some (r, i, j)) (hr : r ≠ .BELL_VIS)
    (n : Nat) (s : State) :
    (run (regReadBy who addr.toNat n) s).out = .resp who addr (slice (w64Bytes (regRead s r i j)) (addr.toNat % 8) n) :: s.out ∧
      (run (regReadBy who addr.toNat n) s).mem = s.mem := by
  rw [regReadBy_of_regAt h hr]
  simp only [run_when, run_prim, run_respond]
  split <;> exact ⟨rfl, rfl⟩

theorem bellQ_updBell_same (q : Nat) (f : BellQ → BellQ) (s : State) : bellQ (run (updBell q f) s) q = f (bellQ s q) := by
  simp only [updBell, run_prim, bellQ, Prim.bell_bell, Cells.get_put, if_true]

/-- What a held read of BELL_VIS leaves: its request behind the others of the queue (R300). -/
theorem visRead_spec (who : Agent) (q n : Nat) (addr : Addr) (s : State) :
    (run (visRead who q addr.toNat n) s).mem = s.mem ∧ (run (visRead who q addr.toNat n) s).regs = s.regs ∧
      (bellQ (run (visRead who q addr.toNat n) s) q).vis =
        (bellQ s q).vis ++ [{ who := who, addr := addr, n := n, seq := (bellQ s q).visSeq, waits := (bellQ s q).unseen.map fun w => w.id }] := by
  have hc := (changes_visRead who q addr.toNat n).only
  refine ⟨only_mem hc (by decide) s, only_regs hc (by decide) s, ?_⟩
  have hsend : ∀ l : List FarWrite, bellQ (run (Act.each (fun w => send (.pcieRead (BitVec.ofNat 48 w.addr) 0)) l) s) q = bellQ s q := fun l => by
    have hl : (Act.each (fun w : FarWrite => send (.pcieRead (BitVec.ofNat 48 w.addr) 0)) l).Changes [.out] := changes_each fun _ => changes_send _
    simp only [bellQ, only_bell hl.only (by decide) s]
  simp only [visRead, run_ask, run_all_cons, run_all_nil, bellQ_updBell_same, hsend, BitVec.ofNat_toNat, BitVec.setWidth_eq]

theorem RegName.loc_dvd (r : RegName) : 8 ∣ r.loc.base ∧ 8 ∣ r.loc.si ∧ 8 ∣ r.loc.sj := by cases r <;> decide

theorem regAddr_mod_eight (r : RegName) (i j : Nat) : regAddr r i j % 8 = 0 := by
  obtain ⟨hb, hi, hj⟩ := r.loc_dvd
  exact Nat.mod_eq_zero_of_dvd (((hb.add (hi.mul_left i))).add (hj.mul_left j))

/-- Settles O51: every address is a multiple of 8, and each size and alignment is a branch of `regAccess`. -/
theorem registerWidthsAndAlignment : Obligations.RegisterWidthsAndAlignment := by
  refine ⟨fun r i j _ _ => regAddr_mod_eight r i j, fun s who addr r i j hp hb hspace hblock ht hreg hon => ?_⟩
  have hh : regHole s addr.toNat = false := not_regHole_of_regAt hblock (by rw [hreg]; rfl)
  have hexec := fun op e => exec_physicalAccess_regSpace (s := s) (addr := addr) op e hp hb hon hspace
  refine ⟨fun bs cc p q e hr hs => ⟨_, hexec _ e, ?_⟩, fun n e hr hs hv => ⟨_, hexec _ e, ?_⟩, fun n e hr hs hv => ⟨_, hexec _ e, ?_⟩,
    fun bs cc p q e hr hs => ⟨_, hexec _ e, regAccess_write_badSize hh cc p q hr hs⟩, fun n e hr hs => ⟨_, hexec _ e, regAccess_read_badSize hh hr hs⟩⟩
  · rw [regAccess_write hh cc p q hr hs ht, regWriteBy_of_regAt hreg]
  · rw [regAccess_read hh hr hs ht]
    exact regReadBy_out_mem hreg hv n s
  · subst hv
    rw [regAccess_read hh hr hs ht, regReadBy, run_ask, hreg]
    exact visRead_spec who i n addr s

end Sys2Proof.Machine

/-! PROOFS. Writing a register by its access codes alone: what each bit becomes (R5, R6, R76, Table 0-3). -/

namespace Sys2Proof.Machine

/-! The bits of fields. -/

theorem Fld.testBit_mask (f : Fld) (k : Nat) : f.mask.testBit k = decide (f.lo ≤ k ∧ k < f.lo + f.width) := by
  rw [Fld.mask, Nat.mul_comm, Nat.testBit_two_pow_mul, Nat.testBit_two_pow_sub_one]
  by_cases h : f.lo ≤ k
  · simp only [h, decide_true, Bool.true_and, true_and, decide_eq_decide]; omega
  · simp [h]

theorem testBit_foldl_mask (l : List Fld) (a k : Nat) :
    (l.foldl (fun a f => a ||| f.mask) a).testBit k = (a.testBit k || l.any fun f => f.mask.testBit k) := by
  induction l generalizing a with
  | nil => simp
  | cons f l ih => rw [List.foldl_cons, ih, Nat.testBit_or, List.any_cons, Bool.or_assoc]

/-- The fields of a register are its own, lie inside 64 bits and share none of them. -/
def RegName.fieldsOk (r : RegName) : Bool :=
  r.fields.all fun f => decide (f.reg = r ∧ f.lo + f.width ≤ 64) && r.fields.all fun g => decide (g = f ∨ g.lo + g.width ≤ f.lo ∨ f.lo + f.width ≤ g.lo)

theorem RegName.fieldsOk_all (r : RegName) : r.fieldsOk = true := by cases r <;> decide

theorem RegName.fields_spec {r : RegName} {f : Fld} (hf : f ∈ r.fields) :
    f.reg = r ∧ f.lo + f.width ≤ 64 ∧ ∀ g ∈ r.fields, g = f ∨ g.lo + g.width ≤ f.lo ∨ f.lo + f.width ≤ g.lo := by
  have h := List.all_eq_true.mp r.fieldsOk_all f hf
  simp only [Bool.and_eq_true, decide_eq_true_eq, List.all_eq_true] at h
  obtain ⟨⟨hr, hw⟩, hd⟩ := h
  exact ⟨hr, hw, hd⟩

/-- Inside a field, the bits of a class of fields are those of the field's own class. -/
theorem RegName.getLsbD_bits {r : RegName} {f : Fld} (hf : f ∈ r.fields) (c : Fld → Bool) {k : Nat} (hlo : f.lo ≤ k) (hhi : k < f.lo + f.width) :
    (r.bits c).getLsbD k = c f := by
  obtain ⟨-, hw, hd⟩ := RegName.fields_spec hf
  have hk : k < 64 := by omega
  have hany : ((r.fields.filter c).any fun g => g.mask.testBit k) = c f := by
    rw [Bool.eq_iff_iff, List.any_eq_true]
    constructor
    · rintro ⟨g, hg, hb⟩
      rw [List.mem_filter] at hg
      rw [Fld.testBit_mask, decide_eq_true_eq] at hb
      have hgf : g = f := (hd g hg.1).resolve_right (by omega)
      exact hgf ▸ hg.2
    · intro hc
      exact ⟨f, List.mem_filter.mpr ⟨hf, hc⟩, by rw [Fld.testBit_mask, decide_eq_true_eq]; exact ⟨hlo, hhi⟩⟩
  rw [RegName.bits, BitVec.getLsbD_ofNat, testBit_foldl_mask, hany]
  simp [hk]

/-! Table 0-3, a bit at a time. -/

/-- What a written bit becomes by its access code: `locked` for RWL, the bit before, the bit written. -/
def Acc.bit (acc : Acc) (locked old new : Bool) : Bool :=
  match acc with
  | .rw => new
  | .rwl => if locked then old else new
  | .w1c => old && !new
  | .w1s => old || new
  | .ro | .wo | .rc => old

theorem written_getLsbD {r : RegName} {f : Fld} (hf : f ∈ r.fields) (s : State) (i j : Nat) (lanes v : W64) {k : Nat} (hlo : f.lo ≤ k) (hhi : k < f.lo + f.width) :
    (written s r i j lanes v).getLsbD k =
      if lanes.getLsbD k then f.acc.bit (locked s) ((getReg s r i j).getLsbD k) (v.getLsbD k) else (getReg s r i j).getLsbD k := by
  have hk : k < 64 := by have := (RegName.fields_spec hf).2.1; omega
  simp only [written, BitVec.getLsbD_and, BitVec.getLsbD_or, BitVec.getLsbD_not, RegName.getLsbD_bits hf _ hlo hhi, hk, decide_true, Bool.true_and]
  by_cases hl : lanes.getLsbD k = true
  · rw [if_pos hl, hl]
    cases f.acc with
    | rwl => cases locked s <;> simp [Acc.bit]
    | ro | rw | w1c | w1s | wo | rc => simp [Acc.bit]
  · rw [if_neg hl]
    simp [hl]

/-- A field that takes written values is writable in every place of its register. -/
theorem RegName.fits_of_settable (r : RegName) : ∀ f ∈ r.fields, f.acc ∈ [.rw, .rwl, .w1s] → f.fits = true := by
  cases r <;> decide

/-- No code sets a bit that a reserved place of the register would drop. -/
theorem bit_and_regMask {s : State} (h : Safety.reservedZero s) {r : RegName} {f : Fld} (hf : f ∈ r.fields) (i j : Nat) (b new : Bool) {k : Nat}
    (hlo : f.lo ≤ k) (hhi : k < f.lo + f.width) :
    (f.acc.bit b ((getReg s r i j).getLsbD k) new && (regMask r i j).getLsbD k) = f.acc.bit b ((getReg s r i j).getLsbD k) new := by
  by_cases hm : (regMask r i j).getLsbD k = true
  · rw [hm, Bool.and_true]
  · obtain ⟨hreg, hw, -⟩ := RegName.fields_spec hf
    have hk : k < 64 := by omega
    rw [Bool.not_eq_true] at hm
    have hold : (getReg s r i j).getLsbD k = false := by
      have hz : (getReg s r i j &&& ~~~regMask r i j).getLsbD k = (0 : W64).getLsbD k := by rw [h r i j]
      rw [BitVec.getLsbD_and, BitVec.getLsbD_not, hm] at hz
      simpa [hk] using hz
    have hset : f.acc ∉ [.rw, .rwl, .w1s] := fun ha => by
      have hfit := (Fld.fits_iff (RegName.fits_of_settable r f hf ha) i j).2.2 k hlo hhi
      rw [hreg] at hfit
      rw [BitVec.getLsbD, hfit] at hm
      exact Bool.noConfusion hm
    rw [hm, hold]
    cases hacc : f.acc <;> simp [hacc, Acc.bit] at hset ⊢

/-! The write of a register without an action of its own. -/

theorem only_storeFields (r : RegName) (i j : Nat) (lanes v : W64) : (storeFields r i j lanes v).Only [.regs, .log] := (changes_storeFields r i j lanes v).only

/-- IDREV has only RO fields. -/
theorem acc_of_mem_IDREV {f : Fld} (hf : f ∈ RegName.IDREV.fields) : f.acc = .ro := by
  revert f; decide

/-- The register after a write by access codes; the event of a locked write changes CHART_EVT, which has no RWL field. -/
theorem getReg_storeFields {r : RegName} (hr : r ≠ .IDREV) (i j : Nat) (lanes v : W64) (s : State) :
    getReg (run (storeFields r i j lanes v) s) r i j = written s r i j lanes v &&& regMask r i j := by
  simp only [storeFields, run_ask, run_seq, run_prim, run_when]
  split
  · rename_i hl
    by_cases hc : r = .CHART_EVT
    · subst hc
      simp only [Bool.and_eq_true, decide_eq_true_eq] at hl
      exact absurd (by rw [show RegName.CHART_EVT.bits (fun f => f.acc = .rwl) = 0 from rfl]; simp) hl.2
    · rw [logEv_getReg, evt, getReg_setF _ _ _ _ _ _ (Ne.symm hc), getReg_apply_reg_same _ _ _ _ hr]
  · rw [getReg_apply_reg_same _ _ _ _ hr]

/-- Each bit of a field becomes what its access code says. -/
theorem getLsbD_storeFields {s : State} (hs : Safety.Inv s) {r : RegName} {f : Fld} (hf : f ∈ r.fields) (i j : Nat) (v : W64) {k : Nat} (hlo : f.lo ≤ k)
    (hhi : k < f.lo + f.width) :
    (getReg (run (storeFields r i j (~~~0) v) s) r i j).getLsbD k = f.acc.bit (locked s) ((getReg s r i j).getLsbD k) (v.getLsbD k) := by
  obtain ⟨-, -, hz, hid⟩ := hs
  by_cases hr : r = .IDREV
  · subst hr
    have hsame : getReg (run (storeFields .IDREV i j (~~~0) v) s) .IDREV i j = getReg s .IDREV i j :=
      (run_keeps Prim.idrevWired _ s hid i j).trans (hid i j).symm
    rw [hsame, acc_of_mem_IDREV hf]; rfl
  · have hk : k < 64 := by have := (RegName.fields_spec hf).2.1; omega
    have hlane : (~~~0 : W64).getLsbD k = true := by rw [BitVec.getLsbD_not]; simp [hk]
    rw [getReg_storeFields hr, BitVec.getLsbD_and, written_getLsbD hf s i j _ v hlo hhi, if_pos hlane, bit_and_regMask hz hf i j _ _ hlo hhi]

/-- A field reads as a value whose bits are those that the access code gives. -/
theorem getF_storeFields {s : State} (hs : Safety.Inv s) {r : RegName} {f : Fld} (hf : f ∈ r.fields) (i j : Nat) (v x : W64)
    (hx : ∀ k, f.acc.bit (locked s) ((getReg s r i j).getLsbD k) (v.getLsbD k) = x.getLsbD k ∨ 64 ≤ k) :
    getF (run (storeFields r i j (~~~0) v) s) f i j = bitsOf x.toNat f.lo f.width := by
  obtain ⟨hreg, hw, -⟩ := RegName.fields_spec hf
  refine Nat.eq_of_testBit_eq fun k => ?_
  rw [getF, testBit_bitsOf, testBit_bitsOf, hreg]
  by_cases hk : k < f.width
  · congr 1
    rw [BitVec.testBit_toNat, BitVec.testBit_toNat, getLsbD_storeFields hs hf i j v (by omega) (by omega)]
    exact (hx (f.lo + k)).resolve_right (by omega)
  · simp [hk]

/-! The registers whose write acts beyond the access codes have statements of their own. -/

/-- They are the ones named in REGISTER_WRITE's statement. -/
def actingRegs : List RegName := List.flatten
  [[.MX_CTL, .VX_CTL, .VX_DMA_CTL, .UPD_CTL, .UPD_LIVE, .SCH_CTL, .BELL_RING, .BELL_CQHEAD, .BELL_CFG, .BELL_RINGADDR, .BELL_CQADDR, .CUS_CFG, .CUS_SUBPTR],
   [.CUS_HOSTDONE, .CUS_CTL, .TIDE_PLAN, .CHART_AMEND, .CHART_FLASH, .EN_CTL, .SHD_CTL, .TIER_CTL, .TIER_MIGPTR, .TIER_OBJCTL, .COH_CTL, .D2D_CTL, .HURAL_CFG],
   [.HURAL_CTL, .HM_FW, .HM_SETTAI, .HM_TELDONE, .RST_CTL, .RST_HOSTWD, .SEC_CMD, .SEC_ATTEST, .DBG_OPEN, .DBG_CLOSE, .DBG_HALT, .CLK_MEAS]]

theorem tileWrite_of_not_acting {r : RegName} (h : r ∉ actingRegs) (i j : Nat) (lanes v : W64) : tileWrite r i j lanes v = storeFields r i j lanes v := by
  unfold tileWrite
  split
  case h_7 => rfl
  all_goals exact absurd (by decide) h

theorem hostWrite_of_not_acting {r : RegName} (h : r ∉ actingRegs) (i j : Nat) (lanes v : W64) : hostWrite r i j lanes v = storeFields r i j lanes v := by
  unfold hostWrite
  split
  case h_10 => rfl
  all_goals exact absurd (by decide) h

theorem ioWrite_of_not_acting {r : RegName} (h : r ∉ actingRegs) (i j : Nat) (lanes v : W64) : ioWrite r i j lanes v = storeFields r i j lanes v := by
  unfold ioWrite
  dsimp only
  split
  case h_24 => rfl
  all_goals exact absurd (by decide) h

/-- Whatever its block, such a register takes the write by the access codes alone. -/
theorem regWrite_of_not_acting {r : RegName} (h : r ∉ actingRegs) (i j : Nat) (lanes v : W64) : regWrite r i j lanes v = storeFields r i j lanes (v &&& lanes) := by
  unfold regWrite
  dsimp only
  split
  · exact tileWrite_of_not_acting h i j lanes _
  · exact tileWrite_of_not_acting h i j lanes _
  · exact tileWrite_of_not_acting h i j lanes _
  · exact hostWrite_of_not_acting h i j lanes _
  · exact hostWrite_of_not_acting h i j lanes _
  · exact ioWrite_of_not_acting h i j lanes _

theorem leNat_natLe (v n : Nat) : leNat (natLe v n) = v % 256 ^ n := by
  induction n generalizing v with
  | zero => simp [natLe, leNat, Nat.mod_one]
  | succ n ih =>
    rw [natLe, leNat, ih, BitVec.toNat_ofNat, show 256 ^ (n + 1) = 256 * 256 ^ n from Nat.pow_succ', Nat.mod_mul]

/-- A host core's 64-bit write of such a register. -/
theorem exec_registerWrite_storeFields {s : State} {core : Fin 96} {addr : Addr} {r : RegName} {i j : Nat} (v : W64) (hb : inBlocks addr.toNat = true)
    (ht : tileOff s addr.toNat = false) (hreg : regAt addr.toNat = some (r, i, j)) (hr : r ∉ actingRegs) :
    exec (.registerWrite (.host core) addr 8 v) s = .next (run (respond (.host core) addr []) (run (storeFields r i j (~~~0) v) s)) := by
  have halign : addr.toNat % 8 = 0 := (regAt_eq_some hreg).2.2 ▸ regAddr_mod_eight r i j
  have hself : addr.toNat / 8 * 8 = addr.toNat := by omega
  have hreg' : regAt (addr.toNat / 8 * 8) = some (r, i, j) := hself.symm ▸ hreg
  have hsize : sizeOk addr.toNat (natLe v.toNat 8).length = true := by simp [sizeOk, length_natLe, halign]
  have hval : leNat (natLe v.toNat 8) = v.toNat := by rw [leNat_natLe]; exact Nat.mod_eq_of_lt v.isLt
  have hlanes : BitVec.ofNat 64 (v.toNat * 2 ^ (8 * 0)) &&& lanesOf addr.toNat 8 = v := by
    rw [show lanesOf addr.toNat 8 = BitVec.allOnes 64 from rfl, BitVec.and_allOnes]; simp
  rw [exec_registerWrite (who := .host core) addr 8 v rfl,
    regAccess_write (not_regHole_of_regAt hb (by rw [hreg']; rfl)) _ _ _ rfl hsize ht, regWriteBy_of_regAt hreg', length_natLe, hval, halign,
    regWrite_of_not_acting hr, hlanes]
  rfl

/-- Settles O6: the write is `storeFields`, each bit of which is `Acc.bit`. -/
theorem registerWriteActsByAccessCode : Obligations.RegisterWriteActsByAccessCode := by
  intro s core addr v r i j hs hb ht hreg h1 h2 h3
  have hr : r ∉ actingRegs := by
    simp only [actingRegs, List.flatten_cons, List.flatten_nil, List.append_nil, List.mem_append, not_or]
    exact ⟨h1, h2, h3⟩
  refine ⟨_, exec_registerWrite_storeFields v hb ht hreg hr, fun f hf => ?_, only_mem (only_storeFields r i j _ v) (by decide) s, ?_⟩
  · have hget := fun x hx => getF_storeFields hs hf i j v x hx
    have hold : getF s f i j = bitsOf (getReg s r i j).toNat f.lo f.width := by rw [getF, (RegName.fields_spec hf).1]
    rw [hold]
    refine ⟨fun ha => hget _ fun k => .inl ?_, fun ha => hget _ fun k => .inl ?_, fun ha => hget _ fun k => .inl ?_, fun ha => hget _ fun k => ?_,
      fun ha => hget _ fun k => .inl ?_⟩
    · obtain ha | ha := ha <;> rw [ha] <;> rfl
    · obtain ha | ⟨ha, hl⟩ := ha
      · rw [ha]; rfl
      · rw [ha, hl]; rfl
    · rw [ha.1, ha.2]; rfl
    · rw [ha, BitVec.getLsbD_and, BitVec.getLsbD_not]
      by_cases hk : k < 64
      · left; simp [Acc.bit, hk]
      · right; omega
    · rw [ha, BitVec.getLsbD_or]; rfl
  · show .resp (.host core) addr [] :: (run (storeFields r i j (~~~0) v) s).out = _
    rw [only_out (only_storeFields r i j _ v) (by decide) s]

end Sys2Proof.Machine

/-! PROOFS. Reset and the commands of BELL_QERR and the clocks (R5, R14, R15). -/

namespace Sys2Proof.Machine

/-! A field that is a bit per number. -/

theorem bitOf_getF_setBitF {f : Fld} (hf : f.fits = true) {k : Nat} (hk : k < f.width) (b : Bool) (i j n : Nat) (s : State) :
    bitOf (getF (run (setBitF f k b i j) s) f i j) n = if n = k then b else bitOf (getF s f i j) n := by
  simp only [setBitF, getF_modF_fits hf, bitOf, Nat.testBit_mod_two_pow, testBit_putBits]
  by_cases hn : n = k
  · subst hn
    cases b <;> simp [hk]
  · rw [if_neg (by omega), if_neg hn]
    by_cases hw : n < f.width
    · simp [hw]
    · rw [getF, testBit_bitsOf]; simp [hw]

/-! The commands. -/

/-- A read of BELL_QERR answers its value and leaves the events of its own cycle. -/
theorem qerrRead_spec (who : Agent) (k : Nat) (ev : W64) (s : State) :
    getReg (run (qerrRead who k ev) s) .BELL_QERR 0 k = ev ∧
      (run (qerrRead who k ev) s).out = .resp who (BitVec.ofNat 48 (0xF00000100F28 + 8 * k)) (w64Bytes (getReg s .BELL_QERR 0 k)) :: s.out ∧
      (run (qerrRead who k ev) s).mem = s.mem := by
  have hmask : regMask .BELL_QERR 0 k = BitVec.allOnes 64 := rfl
  refine ⟨?_, rfl, rfl⟩
  simp only [qerrRead, run_ask, run_all_cons, run_all_nil, run_prim]
  rw [getReg_apply_reg_same _ _ _ _ (by decide), hmask, BitVec.and_allOnes]

/-- START clears DONE, takes the selector and starts a window. -/
theorem measStart_spec (sel : BitVec 5) (s : State) :
    let t := run (measStart sel.toNat) s
    getF t CLK_MEAS.DONE = 0 ∧ getF t CLK_MEAS.SEL = sel.toNat ∧ getF t CLK_MEAS.COUNT = getF s CLK_MEAS.COUNT ∧
      t.hm.meas = some (measDomain sel.toNat) ∧ t.mem = s.mem := by
  refine ⟨?_, ?_, ?_, ?_, ?_⟩ <;> simp only [measStart, updHm, run_all_cons, run_all_nil, run_prim, Prim.hm_getF, Prim.hm_hm, Prim.hm_mem, setF_mem]
  · rw [getF_setF_fits (by decide)]; rfl
  · rw [getF_setF_apart (by decide), getF_setF_fits (by decide)]
    rw [show CLK_MEAS.SEL.width = 5 from rfl]
    exact BitVec.toNat_mod_cancel sel
  · rw [getF_setF_apart (by decide), getF_setF_apart (by decide)]

/-- The end of a window puts the count into COUNT, sets DONE and keeps SEL. -/
theorem measDone_spec (count : BitVec 32) (s : State) (h : s.hm.meas.isSome = true) :
    let t := run (measDone count.toNat) s
    getF t CLK_MEAS.COUNT = count.toNat ∧ getF t CLK_MEAS.DONE = 1 ∧ getF t CLK_MEAS.SEL = getF s CLK_MEAS.SEL ∧ t.hm.meas = none ∧ t.mem = s.mem := by
  have hrun : run (measDone count.toNat) s =
      run (Act.all [setF CLK_MEAS.COUNT count.toNat, setF CLK_MEAS.DONE 1, updHm fun h => { h with meas := none }]) s := by
    rw [measDone, run_ask, run_when, if_pos h]
  simp only [hrun]
  refine ⟨?_, ?_, ?_, ?_, ?_⟩ <;> simp only [updHm, run_all_cons, run_all_nil, run_prim, Prim.hm_getF, Prim.hm_hm, Prim.hm_mem, setF_mem]
  · rw [getF_setF_apart (by decide), getF_setF_fits (by decide)]
    rw [show CLK_MEAS.COUNT.width = 32 from rfl]
    exact BitVec.toNat_mod_cancel count
  · rw [getF_setF_fits (by decide)]; rfl
  · rw [getF_setF_apart (by decide), getF_setF_apart (by decide)]

/-- The clocks whose loss has no effect beyond the record: TREF, PCIe, Hural, TCK, MG, XS, PT, IN, WC, AO. -/
def recordedClocks : List Nat := [1, 16, 17, 18, 19, 21, 22, 23, 24, 25]

/-- The loss of such a clock is listed, sets its bit and is logged. -/
theorem run_clockLost_of_recorded {k : Nat} (h : k ∈ recordedClocks) (s : State) :
    run (clockLost k) s = run (logEv .clockLost 0xFF (data := [k])) (run (setBitF CLK_LOSS.LOSS (k - 1) true)
      (run (updRst fun r => { r with clkLost := if r.clkLost.contains k then r.clkLost else k :: r.clkLost }) s)) := by
  simp only [recordedClocks, List.mem_cons, List.not_mem_nil, or_false] at h
  have h0 : k ≠ 0 := by omega
  have h20 : k ≠ 20 := by omega
  have hdie : (decide (2 ≤ k) && decide (k ≤ 5)) = false := by simp; omega
  have hhost : (decide (k = 14) || decide (k = 15)) = false := by simp; omega
  have hedge : (decide (6 ≤ k) && decide (k ≤ 13)) = false := by simp; omega
  simp only [clockLost, h0, h20, hdie, hhost, hedge, if_false, Bool.false_eq_true, run_all_cons, run_all_nil, run_skip]

theorem clockLost_spec {k : Nat} (h : k ∈ recordedClocks) (s : State) :
    k ∈ (run (clockLost k) s).rst.clkLost ∧
      (∀ n, bitOf (getF (run (clockLost k) s) CLK_LOSS.LOSS) n = (bitOf (getF s CLK_LOSS.LOSS) n || decide (n = k - 1))) ∧
      getF (run (clockLost k) s) CLK_LOSS.REF = getF s CLK_LOSS.REF ∧ Safety.Logged .clockLost s (run (clockLost k) s) ∧
      (run (clockLost k) s).mem = s.mem := by
  have hwidth : k - 1 < CLK_LOSS.LOSS.width := by
    simp only [recordedClocks, List.mem_cons, List.not_mem_nil, or_false] at h
    show k - 1 < 25
    omega
  rw [run_clockLost_of_recorded h]
  refine ⟨?_, fun n => ?_, ?_, ?_, ?_⟩
  · rw [logEv_rst, setBitF, modF_rst, updRst, run_prim, Prim.rst_rst]
    dsimp only
    split
    · rename_i hc; exact List.contains_iff_mem.mp hc
    · exact List.mem_cons_self
  · rw [logEv_getF, bitOf_getF_setBitF (by decide) hwidth, updRst, run_prim, Prim.rst_getF]
    by_cases hn : n = k - 1 <;> simp [hn]
  · rw [logEv_getF, setBitF, getF_modF_apart (by decide), updRst, run_prim, Prim.rst_getF]
  · rw [Safety.Logged, logEv_tally _ _ _ _ _ _ (by decide), if_pos rfl, setBitF, modF_tally, updRst, run_prim, Prim.rst_tally]; rfl
  · rw [logEv_mem]; rfl

/-- Settles O8: one lemma a command. -/
theorem readClearAndClockCommands : Obligations.ReadClearAndClockCommands := by
  refine ⟨fun s core k ev => ⟨run (qerrRead (.host core) k.val ev) s, rfl, qerrRead_spec (.host core) k.val ev s⟩, fun s sel => ⟨_, rfl, ?_⟩,
    fun s count h => ⟨_, rfl, measDone_spec count s h⟩, fun s dom h => ⟨_, rfl, clockLost_spec h s⟩⟩
  have hdom : measDomain sel.toNat = if 1 ≤ sel.toNat ∧ sel.toNat ≤ 25 then sel.toNat else 1 := by simp [measDomain]
  exact hdom ▸ measStart_spec sel s

/-! Reset. -/

/-- The registers that the release of the package sets: the host die held in reset, the cause and domain of the reset (R21, R379). -/
def resetWrites : Act := Act.all [.prim (.reg .ID_DIEMAP 0 0 0x300), .prim (.reg .RST_STAT 0 0 0x0A07000000)]

/-- The registers after reset are what these writes leave where every register has its reset value. -/
theorem reset_regs : State.reset.regs = (run resetWrites {}).regs := by decide

/-- Settles O3: with every register at its reset value the invariant holds, and writes of registers keep it. -/
theorem resetMeetsTheInvariant : Obligations.ResetMeetsTheInvariant := by
  have hget : ∀ r i j, getReg State.reset r i j = getReg (run resetWrites {}) r i j := fun r i j => by simp only [getReg, reset_regs]
  have hempty : Safety.regsWf {} := ⟨rfl, fun _ _ _ => by simp [Cells.look]⟩
  refine ⟨reset_memoryWf, ?_, fun r i j => ?_, fun i j => ?_⟩
  · have hw := run_keeps Prim.regsWf resetWrites {} hempty
    rwa [Safety.regsWf, reset_regs]
  · rw [hget]
    exact run_keeps Prim.reservedZero resetWrites {} (fun r i j => regReset_masked r i j) r i j
  · rw [hget]
    exact run_keeps Prim.idrevWired resetWrites {} (fun _ _ => rfl) i j

end Sys2Proof.Machine

/-! PROOFS. What every command is: a program of the primitive updates, over parts of the state that the lists of Safety let it change (95_what_each_step_holds.md). -/

namespace Sys2Proof.Machine

/-! Programs that serve several commands, beside `Laws/Changes.lean`. -/

theorem Act.Changes.cons {l : List Part} {a : Act} (h : a.Changes l) (p : Part) : a.Changes (p :: l) :=
  (h.only.mono fun _ hq => List.mem_cons_of_mem p hq).changes

theorem Act.Changes.append {l : List Part} {a : Act} (h : a.Changes l) (k : List Part) : a.Changes (k ++ l) :=
  (h.only.mono fun _ hq => List.mem_append_right k hq).changes

theorem Act.Changes.of_head {k : List Part} {a : Act} (h : a.Changes k) (l : List Part) : a.Changes (k ++ l) :=
  (h.only.mono fun _ hq => List.mem_append_left l hq).changes

variable {l : List Part}

theorem changes_clocked {u : Nat} {a : Act} (h : a.Changes l) : (clocked u a).Changes l := changes_ask fun _ => changes_when h

theorem changes_withFree {g : (Nat → Nat) → Act} (h : ∀ f, (g f).Changes l) : (withFree g).Changes (.free :: l) :=
  changes_seq (changes_ask fun _ => (h _).cons _) ((changes_prim rfl : Act.Changes [.free] _).of_head l)

theorem changes_i3c {a : Act} (h : a.Changes l) : (i3c a).Changes (.out :: l) :=
  changes_ask fun _ => changes_ite (h.cons _) ((changes_send _).of_head l)

theorem changes_rowRead {who : Agent} {n : Nat} {a : Act} (h : a.Changes l) : (rowRead who n a).Changes ([.out, .log] ++ l) :=
  changes_ask fun _ => changes_ite changes_skip (changes_ite (h.append _) ((changes_accessFault _ _).of_head l))

theorem changes_takeMsg {n : Nat} {c : HMsg → Bool} {k : HMsg → Act} (h : ∀ m, (k m).Changes l) : (takeMsg n c k).Changes (.hural :: l) := by
  refine changes_ask fun s => ?_
  split
  · exact changes_cons ((changes_updHural _).of_head l) (changes_cons (changes_when ((changes_oweCredits _ _ _).of_head l)) (changes_cons ((h _).cons _) changes_nil))
  · exact changes_skip

/-- A WRITE or a BULK at the lender: a refusal, or the store and what follows it. -/
theorem changes_lenderWrite {m : HMsg} {after : Act} (h : after.Changes l) :
    (lenderWrite m after).Changes ([.out, .regs, .mem, .tier, .coh, .hural] ++ l) :=
  changes_ask fun _ => changes_ite (((changes_answer _ _ _ _).up rfl).of_head l)
    (changes_cons (((changes_touchLent _ _).up rfl).of_head l) (changes_cons (((changes_storeMem _ _ _).up rfl).of_head l)
      (changes_cons (((changes_answer _ _ _ _).up rfl).of_head l) (changes_cons (h.append _) changes_nil))))

/-- The parts of the state that a command may change: those that Safety lists commands for as it lists them; the lifecycle and the rollback floor at the boot only (R421, R74); time never, because commands take none (log 43). -/
def mayChange (c : Instr) : Part → Bool
  | .mem => Safety.mayChangeMemory c
  | .tiles => Safety.mayChangeTiles c
  | .num => Safety.mayChangeTiles c
  | .upd => Safety.mayChangeUpdate c
  | .cus => Safety.mayChangeCustoms c
  | .chart => Safety.mayChangeChart c
  | .link => Safety.mayChangeLinks c
  | .hm => Safety.mayChangeHarbour c
  | .en => Safety.mayChangeEnergy c
  | .pow => Safety.mayChangeBoard c
  | .calendar => Safety.mayChangeCalendar c
  | .flashLog => Safety.mayChangeFlashLog c
  | .life => match c with | .boot .. => true | _ => false
  | .floor => match c with | .boot .. => true | _ => false
  | .clock => false
  | _ => true

/-- A command runs one program in every state, which changes only parts that the command may change. -/
def RunsWithin (c : Instr) : Prop := ∃ a l, (∀ s, exec c s = .next (run a s)) ∧ a.Changes l ∧ l.all (mayChange c) = true

theorem runsWithin {c : Instr} {a : Act} (h : a.Changes l) (he : ∀ s, exec c s = .next (run a s) := by exact fun _ => rfl)
    (hl : l.all (mayChange c) = true := by rfl) : RunsWithin c := ⟨a, l, he, h, hl⟩

/-- Every command of the table, with the lemma about its program. -/
theorem exec_runsWithin : ∀ c, RunsWithin c
  | .registerWrite .. => runsWithin (changes_registerWrite _ _ _ _)
  | .bellQerrRead .. => runsWithin (changes_rowRead (changes_qerrRead _ _ _))
  | .physicalAccess .. => runsWithin (changes_physAccess _ _ _ _)
  | .clockLost .. => runsWithin (changes_clockLost _)
  | .clkMeasStart .. => runsWithin (changes_measStart _)
  | .clkMeasDone .. => runsWithin (changes_measDone _)
  | .tideMark .. => runsWithin (changes_tideMark _ _)
  | .frameCompose => runsWithin changes_frameCompose
  | .tideFrameReceive .. => runsWithin (changes_frameArrives _ _)
  | .frameMissing .. => runsWithin (changes_frameMissing _)
  | .skewCheck .. => runsWithin (changes_skewCheck _ _)
  | .budgetMessageSend .. => runsWithin (changes_budgetSend _ _ _)
  | .budgetMessage .. => runsWithin (changes_budgetTake _)
  | .allotmentSend .. => runsWithin (changes_allotSend _)
  | .allotment .. => runsWithin (changes_allotTake _)
  | .graceEnd => runsWithin changes_graceEnd
  | .planTake => runsWithin changes_planTake
  | .tidePlanWrite .. => runsWithin (changes_tidePlanWrite _ _)
  | .readyReportSend .. => runsWithin (changes_readyReport _)
  | .ready .. => runsWithin (changes_takeMsg (fun _ => changes_readyAdd _ _))
  | .freadySend .. => runsWithin (changes_freadySend _ _)
  | .fready .. => runsWithin (changes_freadyTake _ _ _)
  | .deferredCommit .. => runsWithin (changes_deferredCommit _)
  | .chartAmendGo .. => runsWithin (changes_amendGo _)
  | .amendCheckDone => runsWithin changes_amendCheckDone
  | .chartAmendCancel => runsWithin changes_amendCancel
  | .amendDrainTimeout => runsWithin changes_amendDrainTimeout
  | .chartFlashGo .. => runsWithin (changes_flashGo _)
  | .chartFlashCheckDone => runsWithin changes_flashCheckDone
  | .chartFlashWriteDone .. => runsWithin (changes_flashWriteDone _)
  | .nop .. => runsWithin (changes_nopItem _)
  | .mma .. => runsWithin (changes_mmaItem _)
  | .longSumFold .. => runsWithin (changes_clocked (changes_longSumFold _ _))
  | .mmaComplete .. => runsWithin (changes_clocked (changes_mmaComplete _))
  | .mxCtlResume .. => runsWithin (changes_mxResume _)
  | .streamWrap .. => runsWithin (changes_streamWrap _ _)
  | .completionReport .. => runsWithin (changes_reportArrives _)
  | .verdict .. => runsWithin (changes_verdict _ _)
  | .repeatPlanFetched .. => runsWithin (changes_repeatFetched _ _)
  | .verdictDelivery .. => runsWithin (changes_verdictArrives _)
  | .add .. | .sub .. | .mul .. | .fma .. | .max .. | .min .. | .abs .. | .neg .. | .selgt .. | .cvt .. | .exp2 .. | .log2 .. | .recip ..
  | .rsqrt .. | .sqrt .. | .tanh .. | .rsum .. | .rmax .. | .csum .. | .out .. | .spill .. | .free .. | .win .. => runsWithin (changes_vecItem _ _)
  | .vxItemComplete .. => runsWithin (changes_clocked (changes_vecComplete _))
  | .vxCtlResume .. => runsWithin (changes_vxResume _)
  | .copy .. | .lowerMatrixRows .. | .lowerWindowLine .. => runsWithin (changes_dmaItem _ _ _)
  | .dmaItemComplete .. => runsWithin (changes_clocked (changes_dmaComplete _))
  | .vxDmaCtlResume .. => runsWithin (changes_dmaResume _)
  | .watchRecomputeStart .. => runsWithin (changes_clocked (changes_watchStart _))
  | .watchRecomputeEnd .. => runsWithin (changes_clocked (changes_watchEnd _))
  | .watchAbandon .. => runsWithin (changes_clocked (changes_watchAbandon _))
  | .upd => runsWithin changes_updItem
  | .wcopy => runsWithin changes_wcopyItem
  | .updNop => runsWithin changes_updNop
  | .updItemComplete => runsWithin changes_updComplete
  | .updCtlDiscard => runsWithin changes_updDiscard
  | .updCtlResume => runsWithin changes_updResume
  | .updLiveWrite .. => runsWithin (changes_updLiveWrite _ _)
  | .schCtlRecalc => runsWithin changes_schRecalc
  | .heldAccessRelease .. => runsWithin (changes_heldRelease _)
  | .holdTimeout .. | .stallTimeout .. => runsWithin (changes_waitTimeout _ _)
  | .tierCtlInval => runsWithin changes_tierInval
  | .tierInvalDone => runsWithin changes_tierInvalDone
  | .tierMigptrTail .. => runsWithin (changes_migTail _)
  | .migrationPlace | .migrationMove => runsWithin (changes_migRun _)
  | .migrationMoveDone => runsWithin changes_moveDone
  | .migrationUnmap => runsWithin changes_unmapPage
  | .quotaWaitRelease => runsWithin changes_quotaRelease
  | .evictionDeadline .. => runsWithin (changes_evictionDeadline _)
  | .patrol .. => runsWithin (changes_patrol _ _)
  | .tierObjctlRebuild .. => runsWithin (changes_objRebuild _)
  | .tierObjctlRelease .. => runsWithin (changes_objRelease _)
  | .tierObjctlEscalate .. => runsWithin (changes_objEscalate _)
  | .agentLoad .. => runsWithin (changes_agentLoad _ _)
  | .agentStore .. => runsWithin (changes_agentStore _ _ _)
  | .agentEvict .. => runsWithin (changes_agentEvict _ _)
  | .rds .. | .rdx .. | .upg .. => runsWithin (changes_homeRequest _ _ _)
  | .wb .. | .evc .. => runsWithin (changes_homeTakes _ _ _)
  | .snps .. | .snpx .. | .snpc .. => runsWithin (changes_snoopArrives _ _ _)
  | .snoopResponse .. => runsWithin (changes_snoopReply _ _)
  | .wback .. => runsWithin (changes_wbAck _ _)
  | .snoopHoldExpiry .. => runsWithin (changes_snoopHoldEnds _ _)
  | .uncachedRead .. => runsWithin (changes_uncachedRead _ _)
  | .uncachedFullWrite .. => runsWithin (changes_uncachedFull _ _)
  | .uncachedPartialWrite .. => runsWithin (changes_uncachedPart _ _)
  | .amo .. => runsWithin (changes_given (changes_amo _ _ _ _ _ _))
  | .lrSc .. => runsWithin (changes_given (changes_lrSc _ _ _ _ _ _))
  | .cohCtlMode .. => runsWithin (changes_cohMode _)
  | .depart .. => runsWithin (changes_depart _)
  | .departureComplete .. => runsWithin (changes_departureEnds _)
  | .snoopTimeout .. => runsWithin (changes_snoopTimeout _ _)
  | .departureTimeout .. => runsWithin (changes_departTimeout _)
  | .collapse .. => runsWithin (changes_collapseStart _ _ _)
  | .collapseFlushEnd => runsWithin changes_flushEnd
  | .laneFrameReceive .. => runsWithin (changes_laneFrame _ _ _ _ _)
  | .laneNakReceive .. => runsWithin (changes_laneNak _ _ _ _)
  | .dropNotice .. => runsWithin (changes_dropNotice _ _ _ _)
  | .d2dCtlRetrain .. => runsWithin (changes_d2dRetrain _)
  | .receiveMap .. => runsWithin (changes_receiveMap _ _ _ _)
  | .mapTimeout .. => runsWithin (changes_mapTimeout _ _ _)
  | .confirmDone .. => runsWithin (changes_confirmDone _ _)
  | .routeRestore .. => runsWithin (changes_routeRestore _)
  | .rev2TagFree .. => runsWithin (changes_tagFree _)
  | .bellRing .. => runsWithin (changes_bellRing _ _)
  | .entryCheck .. => runsWithin (changes_entryCheck _)
  | .rereadTimeout .. => runsWithin (changes_rereadTimeout _)
  | .bellEnable .. => runsWithin (changes_bellEnable _)
  | .bellDisable .. => runsWithin (changes_bellDisable _)
  | .cmdNop .. => runsWithin (changes_cmdNop _)
  | .cmdPut .. => runsWithin (changes_cmdPut _)
  | .cmdCopy .. => runsWithin (changes_cmdCopy _)
  | .cmdPlan .. => runsWithin (changes_cmdPlan _)
  | .cmdPlanDeliver .. => runsWithin (changes_cmdPlanDeliver _)
  | .commandComplete .. => runsWithin (changes_postRecord _)
  | .bellCqheadWrite .. => runsWithin (changes_cqHeadWrite _ _)
  | .bellVisRead .. => runsWithin (changes_rowRead (changes_visRead _ _ _ _))
  | .bellVisReply .. => runsWithin (changes_visReply _)
  | .pcieDeviceWrite .. => runsWithin (changes_deviceWrite _ _ _)
  | .pcieDeviceRead .. => runsWithin (changes_deviceRead _ _ _)
  | .cusSubptrTail .. => runsWithin (changes_cusTail _)
  | .customsCheck => runsWithin changes_customsCheck
  | .run .. => runsWithin (changes_runStart _)
  | .runComplete .. => runsWithin (changes_runComplete _)
  | .decodeComplete .. => runsWithin (changes_decodeComplete _ _)
  | .cusHostdone .. => runsWithin (changes_hostDone _)
  | .deadlineDrop => runsWithin changes_deadlineDrop
  | .cusCtlRestore => runsWithin changes_cusRestore
  | .cusCfgEn => runsWithin changes_cusEnable
  | .idleSlotsBegin .. => runsWithin (changes_slotsBegin _)
  | .gaugeSample .. => runsWithin (changes_gaugeSample _ _)
  | .gaugeForcedSample .. => runsWithin (changes_gaugeForced _ _)
  | .limiterGate .. => runsWithin (changes_limiterGate _)
  | .criticalTemperature .. => runsWithin (changes_critTemp _)
  | .criticalTemperatureClear .. => runsWithin (changes_critClear _)
  | .powerModelCalibrate .. => runsWithin (changes_calibrate _ _ _)
  | .enCtlDark .. => runsWithin (changes_darkWrite _)
  | .enCtlSb => runsWithin changes_sbRequest
  | .sbEntry => runsWithin changes_sbEntry
  | .sbDrainTimeout => runsWithin (changes_ask fun _ => changes_when changes_sbEnter)
  | .avsPoll .. => runsWithin (changes_avsPoll _)
  | .linkUp .. => runsWithin (changes_linkUp _ _)
  | .huralCtlOpen .. => runsWithin (changes_hurOpen _)
  | .huralCtlClose .. => runsWithin (changes_hurClose _)
  | .huralCtlRekey .. => runsWithin (changes_rekeyStart _)
  | .handshake .. => runsWithin (changes_handshakeTake _ _)
  | .sessionRetry .. => runsWithin (changes_sessionRetry _)
  | .rekeyDue .. => runsWithin (changes_rekeyDue _)
  | .huralFlitReceive .. => runsWithin (changes_flitReceive _ _ _ _)
  | .ethFrameReceive .. => runsWithin (changes_frameReceive _ _)
  | .nak .. => runsWithin (changes_nakTake _)
  | .flitAckTimeout .. => runsWithin (changes_ackTimeout _)
  | .keepalive .. => runsWithin (changes_keepalive _)
  | .close .. => runsWithin (changes_closeTake _)
  | .write .. => runsWithin (changes_takeMsg (fun _ => changes_lenderWrite (changes_skip (l := []))))
  | .wack .. => runsWithin (changes_takeMsg changes_wackTake)
  | .read .. => runsWithin (changes_ask fun _ => changes_takeMsg changes_lenderRead)
  | .rdata .. => runsWithin (changes_takeMsg changes_rdataTake)
  | .nack .. => runsWithin (changes_takeMsg changes_nackTake)
  | .tstamp .. => runsWithin (changes_takeMsg changes_stampTake)
  | .lost .. => runsWithin (changes_takeMsg changes_lostTake)
  | .probe .. => runsWithin (changes_takeMsg (fun _ => changes_answer _ _ _ _))
  | .probeack .. => runsWithin (changes_takeMsg (fun _ => changes_updHural _))
  | .probeTimeout .. => runsWithin (changes_probeTimeout _)
  | .takeover .. => runsWithin (changes_takeMsg changes_takeoverTake)
  | .grantreq .. => runsWithin (changes_takeMsg (fun _ => changes_grantRequest _ _ _))
  | .grant .. => runsWithin (changes_takeMsg changes_grantTake)
  | .huralFree .. => runsWithin (changes_takeMsg changes_freeTake)
  | .evict .. => runsWithin (changes_takeMsg changes_evictTake)
  | .bulk .. => runsWithin (changes_takeMsg (fun _ => changes_lenderWrite (changes_mirror _ _)))
  | .partnerAbsent .. => runsWithin (changes_partnerAbsent _)
  | .partnerSlow .. => runsWithin (changes_partnerSlow _ _)
  | .partnerStuck .. => runsWithin (changes_partnerStuck _)
  | .quarantineRetrain .. => runsWithin (changes_quarantineRetrain _)
  | .portHoldExpiry => runsWithin changes_holdExpiry
  | .securePointDone => runsWithin changes_secureDone
  | .shdCtlEn => runsWithin changes_shdEnable
  | .shdCtlSecure => runsWithin changes_shdSecure
  | .shdCtlRealign .. => runsWithin (changes_realign _)
  | .restorePhaseDone .. => runsWithin (changes_restoreDone _)
  | .rstCtlCp .. => runsWithin (changes_rstCp _)
  | .rstCtlDierst .. => runsWithin (changes_rstDie _)
  | .rstCtlHost => runsWithin (changes_hostReset _)
  | .rstCtlPkg => runsWithin (changes_packageReset _)
  | .rstCtlOosclr => runsWithin changes_oosClear
  | .resetRelease .. => runsWithin (changes_resetRelease _)
  | .dumpReadTimeout .. => runsWithin (changes_dumpTimeout _)
  | .watchdogTrip .. => runsWithin (changes_watchdogTrip _)
  | .rstHostwdBeat => runsWithin changes_hostBeat
  | .hostWatchdogTrip => runsWithin changes_hostTrip
  | .relockTimeout .. => runsWithin (changes_relockTimeout _)
  | .telemetrySample => runsWithin changes_telSample
  | .telemetrySkip => runsWithin changes_telTimeout
  | .hmTeldone .. => runsWithin (changes_telDone _)
  | .hmFwGo .. => runsWithin (changes_fwGo _)
  | .hmFwCheckDone => runsWithin changes_fwCheckDone
  | .hmFwDrop => runsWithin changes_fwDrop
  | .hmFwRevert => runsWithin changes_fwRevert
  | .floodClose .. => runsWithin (changes_floodClose _)
  | .logbookFlush => runsWithin changes_flushLog
  | .tallySave => runsWithin changes_tallySave
  | .hmSettai .. => runsWithin (changes_setTai _)
  | .ptpLock .. => runsWithin (changes_ptpLock _ _)
  | .ptpLockLost => runsWithin changes_ptpLost
  | .timeUnknown => runsWithin changes_timeLost
  | .ptpMessage .. => runsWithin (changes_ptpMessage _)
  | .ppsPulse => runsWithin (changes_send _)
  | .boot .. => runsWithin (changes_boot _)
  | .secCmdRecord .. => runsWithin (changes_secRecord _)
  | .secCmdEnrolOwner .. => runsWithin (changes_secOwner _)
  | .secCmdEndorsement .. => runsWithin (changes_secEndorse _)
  | .secCmdEnrolIdentity .. => runsWithin (changes_secIdentity _)
  | .lifecycleReset => runsWithin changes_lifeReset
  | .dbgOpenGo .. => runsWithin (changes_dbgOpen _)
  | .tapToken .. => runsWithin (changes_sessionOpen _ _ _)
  | .tapDbgacc .. => runsWithin (changes_tapAccess _ _)
  | .dbgClose => runsWithin (changes_sessionEnd _ _)
  | .sessionExpire .. => runsWithin (changes_sessionExpire _)
  | .dbgHaltHalt .. => runsWithin (changes_coreHalt _)
  | .dbgHaltResume .. => runsWithin (changes_coreResume _)
  | .secAttestGo .. => runsWithin (changes_attestGo _)
  | .attestDone => runsWithin changes_attestDone
  | .vin48Rise => runsWithin changes_vinRise
  | .convertersReady => runsWithin changes_convertersReady
  | .vin48OutOfRange => runsWithin changes_vinOut
  | .v3p3sbLost => runsWithin changes_standbyLost
  | .resetNLow .. => runsWithin (changes_resetNLow _)
  | .resetNRelease => runsWithin (changes_seq ((changes_updPow _).up (by rfl)) (changes_resetRelease _))
  | .refclkLost => runsWithin (changes_clockLost _)
  | .thermtrip => runsWithin (changes_seq (changes_given changes_powerLoss) ((changes_updPow _).up (by rfl)))
  | .i3cStatus => runsWithin (changes_i3cGet _)
  | .i3cStatusIbi => runsWithin changes_statusIbi
  | .i3cCapsust .. => runsWithin (changes_capSust _)
  | .i3cCapexc .. => runsWithin (changes_capExc _)
  | .i3cReqEnterSb => runsWithin (changes_i3c (changes_updEn _))
  | .i3cReqLeaveSb => runsWithin (changes_i3c (changes_given changes_sbLeave))
  | .i3cReqReset => runsWithin (changes_i3c (changes_packageReset _))
  | .i3cPin => runsWithin (changes_i3cGet _)
  | .i3cTemp => runsWithin (changes_i3c (changes_withFree fun _ => changes_send _))
  | .i3cIdent => runsWithin (changes_i3cGet _)
  | .i3cHostimg .. => runsWithin (changes_hostImage _)
  | .refclkReturn => runsWithin changes_refclkBack
  | .v3p3sbRestore => runsWithin changes_standbyBack
  | .vin48Discharged => runsWithin changes_vinDischarged
  | .tapClose => runsWithin (changes_sessionEnd _ _)
  | .quarantineEnd .. => runsWithin (changes_quarantineEnd _)
  | .ddExitComplete .. => runsWithin (changes_darkExit _)

/-- Every command answers a next state, that of one program. -/
theorem exec_runs (c : Instr) : ∃ a, ∀ s, exec c s = .next (run a s) :=
  have ⟨a, _, he, _⟩ := exec_runsWithin c
  ⟨a, he⟩

/-- What every update keeps, every command keeps. -/
theorem exec_keeps {I : State → Prop} (hp : ∀ p s, I s → I (Prim.apply p s)) (c : Instr) (s : State) (h : I s) : ∃ t, exec c s = .next t ∧ I t :=
  have ⟨a, he⟩ := exec_runs c
  ⟨run a s, he s, run_keeps hp a s h⟩

/-- The program of a command leaves out every part that the command may not change. -/
theorem exec_only (c : Instr) : ∃ a l, (∀ s, exec c s = .next (run a s)) ∧ a.Only l ∧ ∀ p, mayChange c p = false → p ∉ l := by
  obtain ⟨a, l, he, ha, hl⟩ := exec_runsWithin c
  exact ⟨a, l, he, ha.only, fun p hp hmem => Bool.false_ne_true (hp.symm.trans (List.all_eq_true.mp hl p hmem))⟩

/-- Settles O2: a command is a program, and no program touches the queue. -/
theorem everyCommandCompletesAndKeepsTheQueue : Obligations.EveryCommandCompletesAndKeepsTheQueue := fun c s =>
  have ⟨a, he⟩ := exec_runs c
  ⟨run a s, he s, run_pending a s⟩

/-- Settles O56: a command that a list of Safety leaves out runs a program that leaves out the part. -/
theorem eachEngineIsItsCommandsOwn : Obligations.EachEngineIsItsCommandsOwn := by
  refine ⟨fun c s h => ?_, fun c s h => ?_, fun c s h => ?_, fun c s h => ?_⟩ <;> obtain ⟨a, l, he, ha, hl⟩ := exec_only c <;> refine ⟨run a s, he s, ?_⟩
  · exact only_mem ha (hl .mem h) s
  · exact ⟨only_tiles ha (hl .tiles h) s, only_num ha (hl .num h) s⟩
  · exact only_upd ha (hl .upd h) s
  · exact only_cus ha (hl .cus h) s

/-! The invariant of every step. -/

theorem Prim.inv (p : Prim) (s : State) : Safety.Inv s → Safety.Inv (p.apply s) := fun ⟨hmem, hregs, hzero, hidrev⟩ =>
  ⟨p.memoryWf s hmem, p.regsWf s hregs, p.reservedZero s hzero, p.idrevWired s hidrev⟩

/-- No field of IDREV is computed at the access, and none is write-only (R21). -/
theorem regRead_IDREV {s : State} (h : Safety.idrevWired s) : regRead s .IDREV 0 0 = 0x4645_5053_2122_1103 := by
  have hmask : RegName.IDREV.readMask = ~~~0 := by decide
  have hvalue : regValue s .IDREV 0 0 = getReg s .IDREV 0 0 := rfl
  rw [regRead, hvalue, h, hmask]; rfl

/-- Settles O4: a step is one program, of a command or of the tick, and every primitive update keeps the invariant. -/
theorem everyStepKeepsTheInvariant : Obligations.EveryStepKeepsTheInvariant := by
  intro s hs
  obtain ⟨hmem, hregs, hzero, hidrev⟩ := hs
  refine ⟨?_, regRead_IDREV hidrev⟩
  unfold step
  split
  next => exact ⟨_, rfl, run_keeps Prim.inv tick s ⟨hmem, hregs, hzero, hidrev⟩⟩
  next c rest _ => exact exec_keeps Prim.inv c { s with pending := rest } ⟨hmem, hregs, hzero, hidrev⟩

end Sys2Proof.Machine

/-! PROOFS. Accesses of agents to warehouse and quay: the branches of `memAccess`, what a served access within one line does, and how one that waits goes on or times out (R16, R18, R213, R242). -/

namespace Sys2Proof.Machine

/-! A range within one line. -/

theorem linePieces_of_within {a n : Nat} (hn : 0 < n) (h : a % 64 + n ≤ 64) : linePieces a n = [(a, n)] := by
  have hone : (a % 64 + n + 63) / 64 = 1 := by omega
  rw [linePieces, if_neg (by omega), hone]
  simp only [List.range_one, List.map_cons, List.map_nil, List.cons.injEq, Prod.mk.injEq, and_true]
  omega

theorem piecesOf_of_within {a n : Nat} (wr rebuild : Bool) (hn : 0 < n) (h : a % 64 + n ≤ 64) :
    piecesOf a n wr rebuild = [{ a := a, n := n, wr := wr, rebuild := rebuild }] := by
  rw [piecesOf, linePieces_of_within hn h]; rfl

theorem accessPieces_of_within (who : Agent) {a : Nat} {op : AccessOp} (hn : 0 < accessLen op) (h : a % 64 + accessLen op ≤ 64) :
    accessPieces who a op = [{ a := a, n := accessLen op, wr := accessWrites op, rebuild := decide (who = .copyDma) }] :=
  piecesOf_of_within _ _ hn h

/-! The direct windows of warehouse and quay. -/

section
variable {a : Nat} (hm : (isWarehouse a || isQuay a) = true)
include hm

theorem not_isObject_of_memory : isObject a = false := by
  simp only [isWarehouse, isQuay, Bool.or_eq_true, Bool.and_eq_true, decide_eq_true_eq] at hm
  simp only [isObject, Bool.and_eq_false_iff, decide_eq_false_iff_not]
  omega

theorem not_isRegSpace_of_memory : isRegSpace a = false := by
  simp only [isWarehouse, isQuay, Bool.or_eq_true, Bool.and_eq_true, decide_eq_true_eq] at hm
  simp only [isRegSpace, Bool.and_eq_false_iff, decide_eq_false_iff_not]
  omega

/-- Only object space distinguishes a rebuild write. -/
theorem route_rebuild (s : State) (n : Nat) (wr r q : Bool) :
    route s { a := a, n := n, wr := wr, rebuild := r } = route s { a := a, n := n, wr := wr, rebuild := q } := by
  simp only [route, hm, if_true]

theorem run_usePage_of_memory (s : State) : run (usePage a) s = s := by
  rw [usePage, run_when, not_isObject_of_memory hm]; rfl

end

/-! The branches of an access. -/

theorem inside_of_isMember {s : State} {who : Agent} (h : isMember s who = true) : (∀ k, who ≠ .pcie k) ∧ (∀ b, who ≠ .partner b) ∧ who ≠ .debug := by
  refine ⟨fun k hk => ?_, fun b hb => ?_, fun hd => ?_⟩ <;> subst who <;> exact Bool.false_ne_true h

theorem run_eccOf_zero (who : Agent) (addr : Addr) (op : AccessOp) (s : State) : run (eccOf who addr op 0) s = s := by
  have hnone : ∀ x u, eccCheck x 0 u = .skip := fun x u => by simp [eccCheck]
  rw [eccOf, run_ask]
  split
  · split
    · rw [run_when, hnone, run_skip, ite_self]
    · rfl
  · rfl

/-- An agent of the package with power, outside register space and with no symbol in error. -/
theorem exec_physicalAccess_memory {s : State} {who : Agent} {addr : Addr} (op : AccessOp) (hp : ∀ k, who ≠ .pcie k) (hb : ∀ b, who ≠ .partner b)
    (hd : who ≠ .debug) (hon : whoOn s who = true) (hr : isRegSpace addr.toNat = false) :
    exec (.physicalAccess who addr op 0) s = .next (run (memAccess who addr op true) s) := by
  have hinner : run (innerAccess who addr op 0) s = run (memAccess who addr op true) s := by
    simp [innerAccess, hr, hd, run_eccOf_zero]
  show Host.Outcome.next (run (physAccess who addr op 0) s) = _
  rw [← hinner]
  congr 1
  cases who with
  | pcie k => exact absurd rfl (hp k)
  | partner b => exact absurd rfl (hb b)
  | debug => exact absurd rfl hd
  | control u => rw [physAccess, run_given, if_pos (by exact hon)]
  | host _ | hm _ | engine _ | copyDma => rfl

section
variable {s : State} {who : Agent} {addr : Addr} {op : AccessOp} (fresh : Bool)

theorem memAccess_fault {x : Nat} (h : firstFault s (accessPieces who addr.toNat op) = some x) :
    run (memAccess who addr op fresh) s = run (accessFault who addr) s := by
  simp only [memAccess, run_ask, h]

theorem memAccess_stall {x : StallAt} (hf : firstFault s (accessPieces who addr.toNat op) = none)
    (h : firstStall s (accessPieces who addr.toNat op) = some x) :
    run (memAccess who addr op fresh) s = run (stallWaits who addr (.acc op) x fresh) s := by
  simp only [memAccess, run_ask, hf, h]

theorem memAccess_held (hf : firstFault s (accessPieces who addr.toNat op) = none) (hs : firstStall s (accessPieces who addr.toNat op) = none)
    (hm : isMember s who = true) (hg : homesStop s = false) (h : anyHeld s (accessPieces who addr.toNat op) = true) :
    run (memAccess who addr op fresh) s = run (accessWaits who addr (.acc op) true 0) s := by
  simp [memAccess, hf, hs, hm, hg, h]

/-- A piece in memory that no home holds back is served. -/
theorem memAccess_serve {p : Piece} {x : Nat} {o : Option Nat} (hl : accessPieces who addr.toNat op = [p]) (hr : route s p = .mem x o)
    (hg : (isMember s who && (homesStop s || heldAt s x)) = false) : run (memAccess who addr op fresh) s = run (accessServe who addr op) s := by
  have hf : firstFault s [p] = none := by simp [firstFault, hr, Route.stops]
  have hs : firstStall s [p] = none := by simp [firstStall, hr, Route.stops]
  have hh : anyHeld s [p] = heldAt s x := by simp [anyHeld, hr]
  rw [Bool.and_or_distrib_left, Bool.or_eq_false_iff] at hg
  obtain ⟨hstop, hheld⟩ := hg
  simp only [memAccess, run_ask, hl, hf, hs, hh, hstop, hheld, Bool.false_eq_true, if_false]

end

/-! Reads. -/

section
variable {s : State} {a n : Nat} (hn : 0 < n) (hw : a % 64 + n ≤ 64)
include hn hw

theorem mapRead_of_within (pick : Nat → Nat) (hr : route s { a := a, n := n, wr := false, rebuild := false } = .mem a none) :
    mapRead pick s a n = readMem s a n := by
  simp only [mapRead, piecesOf_of_within false false hn hw, List.flatMap_cons, List.flatMap_nil, List.append_nil, pieceBytes, hr]

theorem run_readDone_of_within (hm : (isWarehouse a || isQuay a) = true)
    (hr : route s { a := a, n := n, wr := false, rebuild := false } = .mem a none) : run (readDone a n) s = s := by
  simp only [readDone, piecesDone, piecesOf_of_within false false hn hw, run_ask, run_each_cons, run_each_nil, run_all_cons, run_all_nil,
    run_usePage_of_memory hm, hr, run_skip]

end

/-- A read within a line of warehouse or quay answers its bytes and uses up the step's open values. -/
theorem run_accessServe_read {s : State} (who : Agent) {addr : Addr} {n : Nat} (hn : 0 < n) (hw : addr.toNat % 64 + n ≤ 64)
    (hm : (isWarehouse addr.toNat || isQuay addr.toNat) = true)
    (hr : route s { a := addr.toNat, n := n, wr := false, rebuild := false } = .mem addr.toNat none) :
    run (accessServe who addr (.read n)) s = Prim.apply .fresh (run (respond who addr (readMem s addr.toNat n)) s) := by
  have hnear : anyFar s [{ a := addr.toNat, n := n, wr := false, rebuild := false }] = false := by simp [anyFar, isFar, hr]
  simp only [accessServe, run_ask, piecesOf_of_within false false hn hw, hnear, Bool.false_eq_true, if_false, run_withFree, run_all_cons,
    run_all_nil, mapRead_of_within hn hw _ hr]
  have hafter : route (run (respond who addr (readMem s addr.toNat n)) s) { a := addr.toNat, n := n, wr := false, rebuild := false } = .mem addr.toNat none := hr
  rw [run_readDone_of_within hn hw hm hafter]

/-! Writes. -/

theorem readByte_congr {s t : State} (hm : t.mem = s.mem) (hc : t.coh = s.coh) (a : Nat) : readByte t a = readByte s a := by
  have hd : cohData t (a / 64) = cohData s (a / 64) := by simp only [cohData, cohAgent, movingData, hc]
  simp only [readByte, hd, hm]

theorem readMem_congr {s t : State} (hm : t.mem = s.mem) (hc : t.coh = s.coh) (a n : Nat) : readMem t a n = readMem s a n := by
  simp only [readMem, readByte_congr hm hc]

theorem cohData_of_dir {s : State} {line : Nat} (h : Cells.look s.coh.dir line = none) : cohData s line = none := by
  simp only [cohData, h]

/-- A store within a line that no cache holds: its bytes, then metadata of the tiers. -/
theorem run_storeMem_of_within {s : State} {a : Nat} {bs : List Byte} (w : Writer) (hn : 0 < bs.length) (hw : a % 64 + bs.length ≤ 64)
    (hd : Cells.look s.coh.dir (a / 64) = none) : ∃ b : Act, b.Only [.tier] ∧ run (storeMem w a bs) s = run b (run (writeMem a bs) s) := by
  have hslice : slice bs (a - a) bs.length = bs := by simp [slice]
  have hdrop : run (dropCopies (a / 64) (decide (bs.length < 64))) s = s := by simp only [dropCopies, run_ask, hd, run_skip]
  refine ⟨.seq (stampLine w a (decide (bs.length = 64))) (clearBlocks w a bs.length), ⟨(changes_stampLine _ _ _).only, (changes_clearBlocks _ _ _).only⟩, ?_⟩
  simp only [storeMem, linePieces_of_within hn hw, run_all_cons, run_all_nil, run_each_cons, run_each_nil, hdrop, hslice, run_seq]

/-- The same of a write of an agent to the direct windows, where the line is not poisoned and the write is not discarded. -/
theorem run_mapWrite_of_within {s : State} {a : Nat} {bs : List Byte} (w : Writer) (rebuild : Bool) (hn : 0 < bs.length) (hw : a % 64 + bs.length ≤ 64)
    (hm : (isWarehouse a || isQuay a) = true) (hr : route s { a := a, n := bs.length, wr := true, rebuild := rebuild } = .mem a none)
    (hx : (w.cc && exportRegion s a) = false) (hd : Cells.look s.coh.dir (a / 64) = none) (hpois : isPoisoned s a = false) :
    ∃ b : Act, b.Only [.tier] ∧ run (mapWrite w rebuild a bs) s = run b (run (writeMem a bs) s) := by
  obtain ⟨b, hb, hstore⟩ := run_storeMem_of_within w hn hw hd
  have hslice : slice bs (a - a) bs.length = bs := by simp [slice]
  have hpiece : run (writePiece w rebuild a bs) s = run b (run (writeMem a bs) s) := by
    simp only [writePiece, run_ask, run_all_cons, run_all_nil, run_usePage_of_memory hm, hr, hx, Bool.false_eq_true, if_false, hstore, hpois,
      run_when]
  refine ⟨.seq b ?blocks, ⟨hb, ?only⟩, ?run⟩
  case run =>
    rw [mapWrite, linePieces_of_within hn hw]
    simp only [run_all_cons, run_all_nil, run_each_cons, run_each_nil, hslice, hpiece, run_seq]
    rfl
  case only =>
    refine (changes_ask fun _ => ?_).only
    split
    · exact changes_clearBlocks _ _ _
    · exact changes_skip

/-- A served write within a line: its bytes are stored and answered, and no other byte and no register changes. -/
theorem accessServe_write_spec {s : State} (who : Agent) {addr : Addr} {bs : List Byte} (cc : Bool) (p x : Fin 64) (hn : 0 < bs.length)
    (hw : addr.toNat % 64 + bs.length ≤ 64) (hm : (isWarehouse addr.toNat || isQuay addr.toNat) = true)
    (hr : route s { a := addr.toNat, n := bs.length, wr := true, rebuild := decide (who = .copyDma) } = .mem addr.toNat none)
    (hx : (cc && exportRegion s addr.toNat) = false) (hd : Cells.look s.coh.dir (addr.toNat / 64) = none) (hpois : isPoisoned s addr.toNat = false) :
    let t := run (accessServe who addr (.write bs cc p x)) s
    t.out = .resp who addr [] :: s.out ∧ readMem t addr.toNat bs.length = bs ∧
      (∀ b, b < addr.toNat ∨ addr.toNat + bs.length ≤ b → readByte t b = readByte s b) ∧ t.regs = s.regs := by
  obtain ⟨b, hb, hrun⟩ := run_mapWrite_of_within { cc := cc, part := p.val, layer := x, who := some who } _ hn hw hm hr hx hd hpois
  have hnone : ∀ k, k < bs.length → cohData s ((addr.toNat + k) / 64) = none := fun k hk => by
    rw [show (addr.toNat + k) / 64 = addr.toNat / 64 by omega]
    exact cohData_of_dir hd
  simp only [accessServe, run_all_cons, run_all_nil, hrun, run_respond]
  have hmem := only_mem hb (by decide) (run (writeMem addr.toNat bs) s)
  have hcoh := only_coh hb (by decide) (run (writeMem addr.toNat bs) s)
  refine ⟨?_, ?_, fun k hk => ?_, ?_⟩
  · rw [Prim.send_out, only_out hb (by decide), writeMem_out]
  · exact (readMem_congr (t := Prim.apply (.send _) _) hmem hcoh _ _).trans (writeMem_readMem _ _ _ hnone)
  · exact (readByte_congr (t := Prim.apply (.send _) _) hmem hcoh _).trans (writeMem_readByte_other _ _ _ _ hk)
  · rw [Prim.send_regs, only_regs hb (by decide), writeMem_regs]

/-! Waiting. -/

/-- What a fault record writes, and whatever else stores to memory, leaves the waiting accesses alone. -/
abbrev Act.KeepsWaits (a : Act) : Prop := a.Within fun p => ∀ s, (p.apply s).tier.waits = s.tier.waits

theorem Act.KeepsWaits.run_eq {a : Act} (h : a.KeepsWaits) (s : State) : (run a s).tier.waits = s.tier.waits := run_same (fun s => s.tier.waits) h s

theorem keepsWaits_of_only {l : List Part} {a : Act} (h : a.Only l) (hl : Part.tier ∉ l) : a.KeepsWaits :=
  Act.Within.mono (fun p hp s => by
    cases p
    case tier => exact absurd hp hl
    all_goals rfl) h

theorem keepsWaits_storeMem (w : Writer) (a : Nat) (bs : List Byte) : (storeMem w a bs).KeepsWaits := by
  refine ⟨(within_each _ _).mpr fun p _ => ?_, (within_when _ _).mpr fun _ _ => rfl, trivial⟩
  exact ⟨keepsWaits_of_only (only_dropCopies _ _) (by decide), keepsWaits_of_only (only_writeMem _ _) (by decide),
    fun _ => ⟨fun _ => rfl, (within_when _ _).mpr fun _ _ => rfl, trivial⟩, trivial⟩

theorem keepsWaits_faultRecord (type obj unit addr : Nat) : (faultRecord type obj unit addr).KeepsWaits := by
  intro s
  dsimp only
  split
  · exact ⟨keepsWaits_of_only (changes_addF _ _ _ _).only (by decide), keepsWaits_of_only (changes_evt _ _ _).only (by decide), trivial⟩
  · exact ⟨keepsWaits_storeMem _ _ _, keepsWaits_of_only (changes_setF _ _ _ _).only (by decide), trivial⟩

/-- An access that waits stands behind the others. -/
theorem accessWaits_spec (who : Agent) (addr : Addr) (job : WaitJob) (held : Bool) (cause : Nat) (s : State) :
    let t := run (accessWaits who addr job held cause) s
    ∃ w : WaitAcc, t.tier.waits = s.tier.waits ++ [w] ∧ w.who = who ∧ w.addr = addr ∧ w.job = job ∧ w.held = held ∧ w.cause = cause ∧
      t.out = s.out ∧ t.mem = s.mem ∧ t.regs = s.regs :=
  ⟨_, rfl, rfl, rfl, rfl, rfl, rfl, rfl, rfl, rfl⟩

/-- A stalled access waits behind the others; nothing else changes but what the record of an absent page does. -/
theorem stallWaits_spec (who : Agent) (addr : Addr) (job : WaitJob) (x : StallAt) (fresh : Bool) (s : State) :
    let t := run (stallWaits who addr job x fresh) s
    ∃ w : WaitAcc, t.tier.waits = s.tier.waits ++ [w] ∧ w.who = who ∧ w.addr = addr ∧ w.job = job ∧ w.held = false ∧ w.cause = x.cause ∧
      t.out = s.out ∧ (x.absent = false → t.mem = s.mem ∧ t.regs = s.regs) := by
  have hrec : (absentRecord (agentUnit s who) x.addr).KeepsWaits := fun _ => keepsWaits_faultRecord _ _ _ _
  have hwhen : (Act.when (fresh && x.absent) (absentRecord (agentUnit s who) x.addr)).KeepsWaits := (within_when _ _).mpr fun _ => hrec
  simp only [stallWaits, run_ask, run_all_cons, run_all_nil]
  obtain ⟨w, hwaits, hwho, haddr, hjob, hheld, hcause, hout, hmem, hregs⟩ :=
    accessWaits_spec who addr job false x.cause (run (Act.when (fresh && x.absent) (absentRecord (agentUnit s who) x.addr)) s)
  rw [hwhen.run_eq] at hwaits
  refine ⟨w, hwaits, hwho, haddr, hjob, hheld, hcause, hout.trans ?_, fun h => ?_⟩
  · exact only_out (changes_when (changes_absentRecord _ _)).only (by decide) s
  · rw [hmem, hregs, h, Bool.and_false]
    exact ⟨rfl, rfl⟩

/-- An access that times out leaves the list with a fault to its agent and a record (R213, R242). -/
theorem waitTimeout_spec {s : State} {k : Nat} {w : WaitAcc} {kind : LogKind} (held : Bool) (hw : s.tier.waits[k]? = some w) (hh : w.held = held)
    (hk : kind = if held then .holdTimeout else .stallTimeout) :
    let t := run (waitTimeout k held) s
    t.tier.waits = s.tier.waits.eraseIdx k ∧ t.out = .accessFault w.who w.addr :: s.out ∧ Safety.Logged kind s t ∧ t.mem = s.mem ∧ t.regs = s.regs := by
  have hfull : kind ≠ .logFull := by cases held <;> simp [hk]
  simp only [waitTimeout, run_ask, hw, hh, if_true, run_all_cons, run_all_nil, ← hk, dropWait, updTier, run_prim, run_send, Safety.Logged]
  rw [logEv_tier, logEv_out, logEv_tally _ _ _ _ _ _ hfull, if_pos rfl, logEv_mem, logEv_regs, Prim.send_tally, Prim.tier_tally]
  exact ⟨rfl, rfl, rfl, rfl, rfl⟩

/-- Settles O25: one branch of `memAccess` a clause, then what waits. -/
theorem memoryAccesses : Obligations.MemoryAccesses := by
  refine ⟨fun s who a n hp hb hd hon hn hw hr hg hm => ?_, fun s who a bs cc p x hp hb hd hon hn hw hm hr hg hx hdir hpois => ?_,
    fun s who a op x hp hb hd hon hreg hf => ?_, fun s who a op x hp hb hd hon hreg hf hs => ?_, fun s who a op hm hon hreg hf hs hg hh => ?_,
    fun s k w hw hheld hh => ?_, fun s k w hw => ⟨fun hheld => ?_, fun hheld => ?_⟩⟩
  · have hl := accessPieces_of_within who (op := .read n) hn hw
    refine ⟨_, exec_physicalAccess_memory _ hp hb hd hon (not_isRegSpace_of_memory hm), ?_⟩
    rw [memAccess_serve true hl hr hg, run_accessServe_read who hn hw hm ((route_rebuild hm s n false _ _).trans hr)]
    exact ⟨rfl, rfl, rfl, rfl⟩
  · have hl := accessPieces_of_within who (op := .write bs cc p x) hn hw
    refine ⟨_, exec_physicalAccess_memory _ hp hb hd hon (not_isRegSpace_of_memory hm), ?_⟩
    rw [memAccess_serve true hl hr hg]
    exact accessServe_write_spec who cc p x hn hw hm hr hx hdir hpois
  · refine ⟨_, exec_physicalAccess_memory op hp hb hd hon hreg, ?_⟩
    rw [memAccess_fault true hf]
    exact ⟨accessFault_out .., accessFault_logged .., accessFault_mem .., accessFault_regs ..⟩
  · obtain ⟨w, hwait⟩ := stallWaits_spec who a (.acc op) x true s
    refine ⟨_, w, exec_physicalAccess_memory op hp hb hd hon hreg, ?_⟩
    rw [memAccess_stall true hf hs]
    exact hwait
  · obtain ⟨hp, hb, hd⟩ := inside_of_isMember hm
    obtain ⟨w, hwaits, hwho, haddr, hjob, hheld, -, hrest⟩ := accessWaits_spec who a (.acc op) true 0 s
    refine ⟨_, w, exec_physicalAccess_memory op hp hb hd hon hreg, ?_⟩
    rw [memAccess_held true hf hs hm hg hh]
    exact ⟨hwaits, hwho, haddr, hjob, hheld, hrest⟩
  · refine ⟨_, rfl, ?_⟩
    have hrel : run (heldRelease k) s = run (Act.all [dropWait k, retryAccess w]) s := by simp [heldRelease, hw, hheld, hh]
    exact hrel
  · exact ⟨_, rfl, waitTimeout_spec true hw hheld rfl⟩
  · exact ⟨_, rfl, waitTimeout_spec false hw hheld rfl⟩

end Sys2Proof.Machine

/-! PROOFS. DMA items that read or write another berth: what they ask for, what an answer to them does, and how a refused write halts them (R18, R183, R343, R353). -/

namespace Sys2Proof.Machine

/-! The neighbour window. -/

/-- An access to the neighbour window leaves for a berth that the chart occupies, and faults at any other (R18). -/
theorem route_of_neighbour {p : Piece} (h : isNeighbour p.a = true) (s : State) :
    route s p = if (theChart s).occupied ((p.a - 0x400000000000) / 2 ^ 38) then .far ((p.a - 0x400000000000) / 2 ^ 38) (p.a % 2 ^ 38) else .fault := by
  have hmem : (isWarehouse p.a || isQuay p.a) = false := by
    simp only [isNeighbour, Bool.and_eq_true, decide_eq_true_eq] at h
    simp only [isWarehouse, isQuay, Bool.or_eq_false_iff, Bool.and_eq_false_iff, decide_eq_false_iff_not]
    omega
  simp only [route, hmem, h, Bool.false_eq_true, if_false, if_true]
  cases (theChart s).occupied ((p.a - 0x400000000000) / 2 ^ 38) <;> rfl

theorem not_isObject_of_neighbour {a : Nat} (h : isNeighbour a = true) : isObject a = false := by
  simp only [isNeighbour, Bool.and_eq_true, decide_eq_true_eq] at h
  simp only [isObject, Bool.and_eq_false_iff, decide_eq_false_iff_not]
  omega

theorem isFar_of_chart {s t : State} {p : Piece} (h : isNeighbour p.a = true) (hc : t.chart = s.chart) : isFar t p = isFar s p := by
  have hr : route t p = route s p := by
    have hchart : theChart t = theChart s := by simp only [theChart, hc]
    rw [route_of_neighbour h, route_of_neighbour h, hchart]
  simp only [isFar, hr]

/-! Asking for pieces. -/

/-- The request for a piece, as a fetch that is due. -/
def dueFetch (w : FetchFor) (now : Nat) (p : Piece) : Fetch := { who := w, addr := p.a, n := p.n, ans := .due, since := now }

/-- One piece of the neighbour window: a fetch that is due, and its READ. -/
theorem run_fetchSend_cons {s : State} (w : FetchFor) {p : Piece} (l : List Piece) (hn : isNeighbour p.a = true) (hf : isFar s p = true) :
    ∃ a : Act, a.Only [.out, .hural] ∧ run (fetchSend w (p :: l)) s =
      run (fetchSend w l) (run a { s with tier := { s.tier with fetch := s.tier.fetch ++ [dueFetch w s.now p] } }) := by
  simp only [isFar] at hf
  split at hf
  · rename_i b off hr
    refine ⟨sendRead b off p.n fun _ => .engine w (BitVec.ofNat 48 p.a), (changes_sendRead _ _ _ _).only, ?_⟩
    have huse : run (usePage p.a) s = s := by rw [usePage, run_when, not_isObject_of_neighbour hn]; rfl
    simp only [fetchSend, run_each_cons, run_ask, hr, run_all_cons, run_all_nil, huse]
    rfl
  · exact absurd hf Bool.false_ne_true

/-- Every piece is asked for, in order; nothing but the fetches, the requests and what leaves changes. -/
theorem fetchSend_spec (w : FetchFor) (l : List Piece) (s : State) (hn : ∀ p ∈ l, isNeighbour p.a = true) (hf : ∀ p ∈ l, isFar s p = true) :
    let t := run (fetchSend w l) s
    t.tiles = s.tiles ∧ t.mem = s.mem ∧ t.regs = s.regs ∧ t.tier.fetch = s.tier.fetch ++ l.map (dueFetch w s.now) := by
  induction l generalizing s with
  | nil => exact ⟨rfl, rfl, rfl, (List.append_nil _).symm⟩
  | cons p l ih =>
    obtain ⟨hnp, hnl⟩ := List.forall_mem_cons.mp hn
    obtain ⟨hfp, hfl⟩ := List.forall_mem_cons.mp hf
    obtain ⟨a, ha, hrun⟩ := run_fetchSend_cons w l hnp hfp
    obtain ⟨htiles, hmem, hregs, hfetch⟩ := ih _ hnl fun q hq =>
      (isFar_of_chart (hnl q hq) (only_chart ha (by decide) { s with tier := { s.tier with fetch := s.tier.fetch ++ [dueFetch w s.now p] } })).trans (hfl q hq)
    rw [only_tiles ha (by decide)] at htiles
    rw [only_mem ha (by decide)] at hmem
    rw [only_regs ha (by decide)] at hregs
    rw [only_tier ha (by decide), only_now ha (by decide), List.append_assoc] at hfetch
    rw [hrun]
    exact ⟨htiles, hmem, hregs, hfetch⟩

theorem isFar_of_mem_fetchMissing {s : State} {w : FetchFor} {l : List Piece} {p : Piece} (h : p ∈ fetchMissing s w l) : isFar s p = true := by
  rw [fetchMissing, List.mem_eraseDups, List.mem_filter, Bool.and_eq_true] at h
  exact h.2.1

/-! The head item. -/

/-- A DMA item of the right opcode that passes its checks names itself in ITEM, whether it starts or waits for another berth. -/
theorem run_dmaItem_of_passes {s : State} {u : Nat} {d : Desc} {mine : Desc → Bool} (job : Desc → (Nat → Nat) → State → DmaJob)
    (hd : headItem s u .dma = some d) (hm : mine d = true) (hrun : (getTile s u).dma.run = []) (hw : waitMet s u d = true)
    (hf : flipWaits s u d = false) (hc : dmaFaultCode u d = 0) :
    run (dmaItem u mine job) s =
      run (setF VX_DMA_STAT.ITEM (dItem d) u) (run (fetched (.unit u) (fun _ => dmaPieces d) (dmaStart u d (job d))) s) := by
  simp [dmaItem, hd, hm, hrun, hw, hf, hc]

theorem run_fetched_of_missing {s : State} {w : FetchFor} {l : State → List Piece} (k : Act) (h : fetchMissing s w (l s) ≠ []) :
    run (fetched w l k) s = run (fetchSend w (fetchMissing s w (l s))) s := by
  have hne : (fetchMissing s w (l s)).isEmpty = false := by rwa [← Bool.not_eq_true, List.isEmpty_iff]
  simp only [fetched, run_ask, hne, Bool.not_false, if_true]

theorem run_fetched_of_due {s : State} {w : FetchFor} {l : State → List Piece} (k : Act) (h : fetchMissing s w (l s) = []) (hd : fetchDue s w = true) :
    run (fetched w l k) s = s := by
  simp [fetched, h, hd]

theorem getReg_setF_index {f : Fld} (x i j m n : Nat) (q : RegName) (s : State) (h : i % 65536 ≠ m % 65536) :
    getReg (run (setF f x i j) s) q m n = getReg s q m n := by
  rw [setF, run_ask, run_prim, getReg_apply_reg, if_neg fun hk => h ((regKey_eq_iff ..).mp hk).2.1]

theorem getF_setF_item (u : Nat) (d : Desc) (s : State) : getF (run (setF VX_DMA_STAT.ITEM (dItem d) u) s) VX_DMA_STAT.ITEM u = dItem d := by
  rw [getF_setF_fits (f := VX_DMA_STAT.ITEM) (by decide)]
  exact Nat.mod_eq_of_lt (bitsOf_lt _ _ _)

/-! Answers. -/

/-- A message that answers a request: it leaves the inbox, the request leaves the list, and what it serves is done with it. -/
theorem run_takeMsg_of_answer {s : State} {n i k : Nat} {c : HMsg → Bool} {m : HMsg} {r : OutReq} {take : HMsg → Act} {act : HMsg → OutReq → Act}
    (htake : ∀ m, take m = takeReqOf m (act m))
    (hbox : (s.hural.inbox.find? fun e => e.1 = n && c e.2.1) = some (i, m, k))
    (hreq : (s.hural.reqs.find? fun r => r.txn = m.txn && r.dst = m.src && !r.held) = some r) :
    ∃ a : Act, a.Only [.hural] ∧ (run a s).hural.reqs = s.hural.reqs.erase r ∧
      run (takeMsg n c take) s = run (act m r) (run a s) := by
  refine ⟨Act.all [updHural fun h => { h with inbox := h.inbox.erase (i, m, k) }, Act.when (decide (n < 18)) (oweCredits n m.vc k),
    updHural fun h => { h with reqs := h.reqs.erase r }], ?only, ?reqs, ?run⟩
  case only =>
    exact (changes_cons (changes_updHural _) (changes_cons (changes_when (changes_oweCredits _ _ _)) (changes_cons (changes_updHural _) changes_nil))).only
  case reqs => cases decide (n < 18) <;> rfl
  case run =>
    simp only [takeMsg, run_ask, hbox, run_all_cons, run_all_nil, htake, takeReqOf]
    cases decide (n < 18) <;> simp only [Act.when, Bool.false_eq_true, if_false, if_true, run_skip] <;> split <;> rename_i hfound <;>
      have hsame := hfound.symm.trans hreq <;> cases hsame <;> rfl

/-- The answer to a fetch. -/
def answeredBy (w : FetchFor) (a : Nat) (ans : FetchAns) (f : Fetch) : Fetch := if f.who = w && f.addr = a && f.ans = .due then { f with ans := ans } else f

/-- A fetch is answered after its request has left the list. -/
theorem fetchAnswer_spec {s m : State} {b : Act} (hb : b.Only [.hural]) (w : FetchFor) (a : Nat) (ans : FetchAns) (hm : m = run b s) :
    let t := run (fetchAnswer w a ans) m
    t.hural = m.hural ∧ t.mem = s.mem ∧ t.regs = s.regs ∧ t.tier.fetch = s.tier.fetch.map (answeredBy w a ans) := by
  subst hm
  refine ⟨rfl, only_mem hb (by decide) s, only_regs hb (by decide) s, ?_⟩
  exact congrArg (fun x : TierSt => x.fetch.map (answeredBy w a ans)) (only_tier hb (by decide) s)

/-- Codes 4 and 5 of an object's line do not refuse its access (R234, R248). -/
theorem refuses {a c : Nat} (h : isObject a = false ∨ c ≠ 4 ∧ c ≠ 5) :
    (decide (c = 4) && isObject a) = false ∧ (decide (c = 5) && isObject a) = false := by
  obtain h | ⟨h4, h5⟩ := h
  · simp [h]
  · simp [h4, h5]

theorem nackApply_unit {r : OutReq} {u c : Nat} {a : Addr} (hj : r.job = .engine (.unit u) a) (h : isObject a.toNat = false ∨ c ≠ 4 ∧ c ≠ 5) :
    nackApply r c = fetchAnswer (.unit u) a.toNat .refused := by
  obtain ⟨h4, h5⟩ := refuses h
  simp only [nackApply, hj, h4, h5, Bool.or_self, Bool.false_eq_true, if_false]

theorem nackApply_put {r : OutReq} {u c : Nat} {a : Addr} (hj : r.job = .put u a) (hu : u ≠ 512) (h : isObject a.toNat = false ∨ c ≠ 4 ∧ c ≠ 5) :
    nackApply r c = dmaPutFault u a.toNat := by
  obtain ⟨h4, h5⟩ := refuses h
  simp only [nackApply, hj, h4, h5, hu, Bool.not_false, Act.when, Bool.false_eq_true, if_false, if_true]

/-- The one fetch that holds bytes gives them in place of open values. -/
theorem fetchPick_single {s : State} {f : Fetch} {bs : List Byte} {k : Nat} (pick : Nat → Nat) (hf : s.tier.fetch = [f]) (ha : f.ans = .data bs)
    (hk : k < f.n) : BitVec.ofNat 8 (fetchPick s f.who pick (f.addr + k)) = bs.getD k 0 := by
  have hin : inRange (f.addr + k) (f.addr, f.n) = true := by simp [inRange, hk]
  simp only [fetchPick, hf, List.find?_cons, decide_true, hin, Bool.and_self, ha, Nat.add_sub_cancel_left, BitVec.ofNat_toNat, BitVec.setWidth_eq]

/-! Completion. -/

/-- An item whose write is unacknowledged does not complete (R183). -/
theorem run_dmaComplete_of_putsOpen {s : State} {u : Nat} (h : putsOpen s u = true) : run (clocked u (dmaComplete u)) s = s := by
  have hdone : run (dmaComplete u) s = s := by
    rw [dmaComplete, run_ask]
    split
    · rfl
    · rw [run_when, h]; rfl
  rw [clocked, run_ask, run_when, hdone, ite_self]

theorem run_updComplete_of_putsOpen {s : State} (h : putsOpen s 512 = true) : run updComplete s = s := by
  rw [updComplete, run_ask]
  split
  · rfl
  · rw [run_when, h, Bool.not_true, Bool.and_false]; rfl

/-! The halt of the tile DMA. -/

theorem getF_apply_reg {f : Fld} (h : f.fits = true) (i j : Nat) (v : W64) (s : State) :
    getF (Prim.apply (.reg f.reg i j v) s) f i j = bitsOf v.toNat f.lo f.width := by
  rw [getF, getReg_apply_reg_same _ _ _ _ (Fld.fits_iff h i j).1, bitsOf_and_mask (Fld.fits_iff h i j)]

/-- CODE and ITEM of the word that a fault writes. -/
theorem faultWord_fields (d : Desc) {code : Nat} (hc : code < 256) :
    let v := BitVec.ofNat 64 (code + dOpcode d * 256 + dItem d * 2 ^ 32)
    bitsOf v.toNat 0 8 = code ∧ bitsOf v.toNat 32 32 = dItem d := by
  have ho : dOpcode d < 256 := bitsOf_lt _ _ _
  have hi : dItem d < 2 ^ 32 := bitsOf_lt _ _ _
  simp only [bitsOf, BitVec.toNat_ofNat]
  omega

/-- A refused write of the item in progress: the item leaves it, the engine halts on it, and both faults are logged (R183, R188). -/
theorem dmaPutFault_spec {s : State} {u a : Nat} {x : RunItem} {rest : List RunItem} (hrun : (getTile s u).dma.run = x :: rest) :
    let t := run (dmaPutFault u a) s
    (getTile t u).dma = { queue := (getTile s u).dma.queue, run := rest, halted := some x.desc } ∧ getF t VX_DMA_FAULT.CODE u = 0x25 ∧
      getF t VX_DMA_FAULT.ITEM u = dItem x.desc ∧ getF t VX_DMA_FADDR.ADDR u = a % 2 ^ 48 ∧
      Safety.Logged .dmaFault s t ∧ Safety.Logged .accessFault s t := by
  obtain ⟨hcode, hitem⟩ := faultWord_fields x.desc (code := 0x25) (by decide)
  simp only [dmaPutFault, run_ask, hrun, run_all_cons, run_all_nil, itemFault, run_prim]
  refine ⟨?_, ?_, ?_, ?_, ?_, ?_⟩
  · simp [hrun]
  · rw [getF_setF_apart (by decide), traceItem_getF _ _ _ _ _ _ _ (by decide), logEv_getF]
    exact (getF_apply_reg (f := VX_DMA_FAULT.CODE) (by decide) u 0 _ _).trans hcode
  · rw [getF_setF_apart (by decide), traceItem_getF _ _ _ _ _ _ _ (by decide), logEv_getF]
    exact (getF_apply_reg (f := VX_DMA_FAULT.ITEM) (by decide) u 0 _ _).trans hitem
  · rw [getF_setF_fits (f := VX_DMA_FADDR.ADDR) (by decide)]; rfl
  · simp [Safety.Logged, satAdd]
  · simp [Safety.Logged, satAdd]

/-- Settles O55: the two states of a COPY that reads another berth, then one answer a clause. -/
theorem farReadsAndWrites : Obligations.FarReadsAndWrites := by
  refine ⟨fun s u d hd ho hrun hw hf hc => ?_, fun s n m k r w a hreq hj => ⟨fun hbox => ?_, fun hbox hu h => ?_⟩, fun s w pick f bs k hf hw ha _ hk => ?_,
    fun s u h => ⟨_, rfl, ?_⟩, fun s h => ⟨_, rfl, ?_⟩, fun s n m k r u a x rest hbox hreq hj h hrun => ?_, fun s p hn ho => ?_⟩
  · have hitem := run_dmaItem_of_passes (mine := fun d => dOpcode d = 0x80) (fun d pick s => copyJob pick s u d) hd (by simp [ho]) hrun hw hf hc
    refine ⟨fun hmiss hnear => ⟨_, congrArg Host.Outcome.next hitem, ?_⟩, fun hmiss hdue => ⟨_, congrArg Host.Outcome.next hitem, ?_⟩⟩
    · rw [run_fetched_of_missing _ hmiss]
      obtain ⟨htiles, hmem, hregs, hfetch⟩ := fetchSend_spec (.unit u) _ s hnear fun p hp => isFar_of_mem_fetchMissing hp
      refine ⟨by rw [setF_tiles, htiles], by rw [setF_mem, hmem], getF_setF_item .., fun r i j hri => ?_, by rw [setF_tier, hfetch]; rfl⟩
      have hsame : getReg (run (fetchSend (.unit u) (fetchMissing s (.unit u) (dmaPieces d))) s) r i j = getReg s r i j := by simp only [getReg, hregs]
      rw [← hsame]
      obtain hr | hi := hri
      · exact getReg_setF _ _ _ _ _ _ hr.symm
      · exact getReg_setF_index _ _ _ _ _ _ _ (by omega)
    · rw [run_fetched_of_due _ hmiss hdue]
  · obtain ⟨b, hb, hreqs, hmsg⟩ := run_takeMsg_of_answer (c := fun m => m.op = 0x04) (take := rdataTake) (fun _ => rfl) hbox hreq
    refine ⟨_, congrArg Host.Outcome.next hmsg, ?_⟩
    simp only [hj]
    obtain ⟨hhural, hmem, hregs, hfetch⟩ := fetchAnswer_spec hb w a.toNat (.data m.data) rfl
    exact ⟨(congrArg _ hhural).trans hreqs, hmem, hregs, hfetch⟩
  · obtain ⟨v, rfl⟩ := hu
    obtain ⟨b, hb, hreqs, hmsg⟩ := run_takeMsg_of_answer (c := fun m => m.op = 0x05) (take := nackTake) (fun _ => rfl) hbox hreq
    refine ⟨_, congrArg Host.Outcome.next hmsg, ?_⟩
    rw [nackApply_unit hj h]
    obtain ⟨hhural, hmem, hregs, hfetch⟩ := fetchAnswer_spec hb (.unit v) a.toNat .refused rfl
    exact ⟨(congrArg _ hhural).trans hreqs, hmem, hregs, hfetch⟩
  · subst hw
    exact fetchPick_single pick hf ha hk
  · exact run_dmaComplete_of_putsOpen h
  · exact run_updComplete_of_putsOpen h
  · obtain ⟨b, hb, hreqs, hmsg⟩ := run_takeMsg_of_answer (c := fun m => m.op = 0x05) (take := nackTake) (fun _ => rfl) hbox hreq
    refine ⟨_, congrArg Host.Outcome.next hmsg, ?_⟩
    simp only [nackApply_put hj (by omega) h]
    have hafter : getTile (run b s) u = getTile s u := getTile_of_tiles (only_tiles hb (by decide) s) u
    have htally : ∀ kind, Safety.tally (run b s) kind = Safety.tally s kind := fun kind => by simp only [Safety.tally, only_log hb (by decide)]
    have hspec := dmaPutFault_spec (a := a.toNat) (s := run b s) (by rw [hafter]; exact hrun)
    rw [hafter, Nat.mod_eq_of_lt a.isLt] at hspec
    simpa only [Safety.Logged, htally] using hspec
  · rw [route_of_neighbour hn, ho]; rfl

end Sys2Proof.Machine

/-! PROOFS. Tide frames: what the package composes passes a receiver's check, and every field reads back (R44, R449, Table 2-5). -/

namespace Sys2Proof.Machine

/-- A field of `w` bits under its valid flag: TOKV with TOKEN, DARKV with DARK (Table 2-5). -/
def flagged (w : Nat) : Option Nat → Nat
  | some x => 2 ^ w + x % 2 ^ w
  | none => 0

theorem flagged_lt (w : Nat) (o : Option Nat) : flagged w o < 2 ^ (w + 1) := by
  have hw := Nat.two_pow_pos w
  cases o with
  | none => exact Nat.two_pow_pos _
  | some x =>
    have hx := Nat.mod_lt x hw
    simp only [flagged, Nat.pow_succ]
    omega

theorem flagged_div (w : Nat) (o : Option Nat) : flagged w o / 2 ^ w = b2n o.isSome := by
  cases o with
  | none => exact Nat.zero_div _
  | some x => simp [flagged, b2n, Nat.div_eq_of_lt (Nat.mod_lt x (Nat.two_pow_pos w))]

theorem flagged_mod (w x : Nat) : flagged w (some x) % 2 ^ w = x % 2 ^ w := by simp [flagged]

/-- A tide frame without its CHECK. -/
def frameBody (count period : Nat) (token : Option SetNo) (dark : Option Nat) (sender : Nat) (stby : Bool) : Nat :=
  0xA5 * 2 ^ 120 + count % 2 ^ 48 * 2 ^ 72 + period % 2 ^ 14 * 2 ^ 58 + flagged 16 (token.map BitVec.toNat) * 2 ^ 41 + flagged 8 dark * 2 ^ 32 +
    sender % 256 * 2 ^ 24 + b2n stby * 2 ^ 23

theorem b2n_le_one (b : Bool) : b2n b ≤ 1 := by cases b <;> decide

theorem bitOf_eq_of_bitsOf {v k : Nat} {b : Bool} (h : bitsOf v k 1 = b2n b) : bitOf v k = b := by
  have h1 := testBit_bitsOf v k 1 0
  rw [h] at h1
  cases b <;> simpa [bitOf, b2n] using h1.symm

/-- The CRC reads the bits of its field alone. -/
theorem crc16Field_congr {v w hi lo : Nat} (h : ∀ k, lo ≤ k → v.testBit k = w.testBit k) : crc16Field v hi lo = crc16Field w hi lo := by
  refine List.foldl_ext _ _ _ fun c k hk => ?_
  rw [List.mem_range] at hk
  rw [h (hi - k) (by omega)]

section
variable {v c : Nat} (hv : 2 ^ 16 ∣ v) (hc : c < 2 ^ 16)
include hv hc

theorem div_add_check {lo : Nat} (hlo : 16 ≤ lo) : (v + c) / 2 ^ lo = v / 2 ^ lo := by
  have h16 : (v + c) / 2 ^ 16 = v / 2 ^ 16 := by omega
  have hsplit : (2 : Nat) ^ lo = 2 ^ 16 * 2 ^ (lo - 16) := by rw [← Nat.pow_add]; congr 1; omega
  rw [hsplit, ← Nat.div_div_eq_div_mul, ← Nat.div_div_eq_div_mul, h16]

/-- Adding a CHECK leaves the fields above it alone. -/
theorem bitsOf_add_check {lo : Nat} (w : Nat) (hlo : 16 ≤ lo) : bitsOf (v + c) lo w = bitsOf v lo w := by
  rw [bitsOf, div_add_check hv hc hlo, bitsOf]

theorem bitsOf_check : bitsOf (v + c) 0 16 = c := by simp only [bitsOf]; omega

theorem crc16Field_add_check (hi : Nat) : crc16Field (v + c) hi 16 = crc16Field v hi 16 :=
  crc16Field_congr fun k hk => by rw [Nat.testBit_eq_decide_div_mod_eq, Nat.testBit_eq_decide_div_mod_eq, div_add_check hv hc hk]

end

section
variable (count period sender : Nat) (token : Option SetNo) (dark : Option Nat) (stby : Bool)

/-- The fields of Table 2-5, with those above the CHECK read from the body. -/
theorem frameBody_fields :
    let v := frameBody count period token dark sender stby
    bitsOf v 120 8 = 0xA5 ∧ bitsOf v 72 48 = count % 2 ^ 48 ∧ bitsOf v 58 14 = period % 2 ^ 14 ∧ bitsOf v 41 17 = flagged 16 (token.map BitVec.toNat) ∧
      bitsOf v 32 9 = flagged 8 dark ∧ bitsOf v 24 8 = sender % 256 ∧ bitsOf v 23 1 = b2n stby ∧ bitsOf v 16 7 = 0 ∧ v % 2 ^ 16 = 0 ∧ v < 0xA6 * 2 ^ 120 := by
  have ht := flagged_lt 16 (token.map BitVec.toNat)
  have hd := flagged_lt 8 dark
  have hb := b2n_le_one stby
  simp only [frameBody, bitsOf]
  omega

theorem tideFrame_toNat :
    let v := frameBody count period token dark sender stby
    (tideFrame count period token dark sender stby).toNat = v + (crc16Field v 127 16).toNat := by
  obtain ⟨-, -, -, -, -, -, -, -, -, hlt⟩ := frameBody_fields count period sender token dark stby
  have hbody : ∀ t d : Nat, t = flagged 16 (token.map BitVec.toNat) * 2 ^ 41 → d = flagged 8 dark * 2 ^ 32 →
      0xA5 * 2 ^ 120 + count % 2 ^ 48 * 2 ^ 72 + period % 2 ^ 14 * 2 ^ 58 + t + d + sender % 256 * 2 ^ 24 + b2n stby * 2 ^ 23 =
        frameBody count period token dark sender stby := by rintro _ _ rfl rfl; rfl
  have hc := (crc16Field (frameBody count period token dark sender stby) 127 16).isLt
  have heq : tideFrame count period token dark sender stby =
      BitVec.ofNat 128 (frameBody count period token dark sender stby + (crc16Field (frameBody count period token dark sender stby) 127 16).toNat) := by
    unfold tideFrame
    rw [hbody]
    · cases token with
      | none => rfl
      | some t => simp only [flagged, Option.map_some]; have := t.isLt; omega
    · cases dark with
      | none => rfl
      | some b => simp only [flagged]; omega
  rw [heq, BitVec.toNat_ofNat, Nat.mod_eq_of_lt]
  omega

end

/-- Settles O10: the CHECK is the CRC of the fields above it, which it leaves alone. -/
theorem tideFramesReadBack : Obligations.TideFramesReadBack := by
  intro count period sender token dark stby
  have hf := tideFrame_toNat count period sender token dark stby
  obtain ⟨hsync, hcount, hperiod, htoken, hdark, hsender, hstby, hzero, hlow, -⟩ := frameBody_fields count period sender token dark stby
  simp only [frameOk, hf]
  generalize frameBody count period token dark sender stby = v at *
  have hv : 2 ^ 16 ∣ v := Nat.dvd_of_mod_eq_zero hlow
  have hc := (crc16Field v 127 16).isLt
  have hread : ∀ lo w, 16 ≤ lo → bitsOf (v + (crc16Field v 127 16).toNat) lo w = bitsOf v lo w := fun lo w hlo => bitsOf_add_check hv hc w hlo
  have htokv := flagged_div 16 (token.map BitVec.toNat)
  have hdarkv := flagged_div 8 dark
  refine ⟨?_, ?_, ?_, ?_, bitOf_eq_of_bitsOf ?_, fun t ht => ?_, bitOf_eq_of_bitsOf ?_, fun b hb => ?_, ?_, bitOf_eq_of_bitsOf ?_, ?_⟩
  · rw [hread 120 8 (by decide), hsync, bitsOf_check hv hc, crc16Field_add_check hv hc]; simp
  · rw [hread _ _ (by decide), hsync]
  · rw [hread _ _ (by decide), hcount]
  · rw [hread _ _ (by decide), hperiod]
  · rw [hread _ _ (by decide), ← Option.isSome_map (f := BitVec.toNat), ← htokv, ← htoken]; simp only [bitsOf]; omega
  · have hlow16 := flagged_mod 16 t.toNat
    have hlt := t.isLt
    rw [ht, Option.map_some] at htoken
    rw [hread _ _ (by decide)]
    simp only [bitsOf] at htoken ⊢; omega
  · rw [hread _ _ (by decide), ← hdarkv, ← hdark]; simp only [bitsOf]; omega
  · have hlow8 := flagged_mod 8 b
    rw [hb] at hdark
    rw [hread _ _ (by decide)]
    simp only [bitsOf] at hdark ⊢; omega
  · rw [hread _ _ (by decide), hsender]
  · rw [hread _ _ (by decide), hstby]
  · rw [hread _ _ (by decide), hzero]

end Sys2Proof.Machine

/-! PROOFS. A COPY that reads object space stores LASTTOUCH of the page it reads, so memory does not stay (R234, R235). -/

namespace Sys2Proof.Machine

/-- A COPY of one byte from the first page of object space into buffer 0: opcode, the source address, the destination's space, ROWS and ROWBYTES. -/
def objectCopy : Desc := BitVec.ofNat 512 (0x80 + 0x800000000000 * 2 ^ 0x80 + 2 * 2 ^ (8 * 0x18 + 60) + 1 * 2 ^ 0x100 + 1 * 2 ^ 0x120)

/-- Tide 1 of a package whose page table lies at 0 and whose object table lies at 64: object 0 has one page at the start of object space, in
the first frame of warehouse and not yet touched in this tide. Tile 0 has the COPY at its head. -/
def objectCopyState : State :=
  run (Act.all [setF TIER_PTBASE.EN 1, setF TIER_OBJTAB.ADDR 1, setF TIDE_COUNT.COUNT 1])
    { pow := { boot := false }, mem := [(0, 2), (64, 1), (68, 1), (77, 0x80)], tiles := [(0, { dma := { queue := [objectCopy] } })] }

/-- The low byte of the page's LASTTOUCH, before the COPY and after it. -/
theorem objectCopy_touches : Cells.get 0 objectCopyState.mem 8 = 0 ∧
    Cells.get 0 (run (dmaItem 0 (fun d => dOpcode d = 0x80) fun d pick s => copyJob pick s 0 d) objectCopyState).mem 8 = 1 := by decide +kernel

/-- Refutes O22: the COPY writes into buffer 0 and no trace runs, yet LASTTOUCH of the page it reads changes memory. -/
theorem not_tileDma : ¬ Obligations.TileDma := by
  intro h
  obtain ⟨hstart, -⟩ := h
  obtain ⟨t, -, hexec, -, -, -, -, -, -, -, hmem, -⟩ := hstart
    (.copy, fun d => decide (dOpcode d = 0x80), fun d pick s u => copyJob pick s u d) (by simp) objectCopyState 0 objectCopy _
    (by decide +kernel) (by decide +kernel) (by decide +kernel) (by decide +kernel) (by decide +kernel) (by decide +kernel) (by decide +kernel)
    (by decide +kernel) rfl (by decide +kernel) (by decide +kernel) (by decide +kernel)
  have hsame : t.mem = objectCopyState.mem := hmem (.inr (by decide +kernel)) (by decide +kernel)
  obtain ⟨hbefore, hafter⟩ := objectCopy_touches
  cases hexec
  have hzero := congrArg (fun m => Cells.get 0 m 8) hsame
  exact absurd (hafter.symm.trans (hzero.trans hbefore)) (by decide)

end Sys2Proof.Machine

/-! PROOFS. Which registers a program may write: the shared operations over memory and the map write COH_HOLDSNP alone (R264), those of a stall what its records need (R242, R254). -/

namespace Sys2Proof.Machine

/-- An update writes no register but the listed ones. -/
def Prim.WritesIn (l : List RegName) : Prim → Prop
  | .reg r _ _ _ => r ∈ l
  | .regsReset _ => False
  | _ => True

/-- A program writes no register but the listed ones. -/
abbrev Act.Writes (l : List RegName) (a : Act) : Prop := a.Within (Prim.WritesIn l)

theorem Prim.WritesIn.mono {l k : List RegName} (hk : ∀ r ∈ l, r ∈ k) {p : Prim} (h : p.WritesIn l) : p.WritesIn k := by
  cases p
  case reg r i j v => exact hk r h
  all_goals exact h

theorem Act.Writes.mono {l k : List RegName} {a : Act} (h : a.Writes l) (hk : ∀ r ∈ l, r ∈ k) : a.Writes k :=
  Act.Within.mono (fun _ hp => hp.mono hk) h

theorem Act.Writes.keeps {l : List RegName} {a : Act} (h : a.Writes l) {q : RegName} (hq : q ∉ l) (m n : Nat) : a.KeepsReg q m n :=
  Act.Within.mono (fun p hp s => by
    cases p
    case reg r i j v => exact getReg_apply_reg_name _ _ _ _ _ _ fun hr => hq (hr ▸ hp)
    case regsReset c => exact hp.elim
    all_goals rfl) h

/-- A register that a program does not write reads as before. -/
theorem Act.Writes.getReg {l : List RegName} {a : Act} (h : a.Writes l) {q : RegName} (hq : q ∉ l) (m n : Nat) (s : State) :
    getReg (run a s) q m n = Machine.getReg s q m n := run_same (fun s => Machine.getReg s q m n) (h.keeps hq m n) s

theorem Act.Writes.getF {l : List RegName} {a : Act} (h : a.Writes l) {f : Fld} (hf : f.reg ∉ l) (m n : Nat) (s : State) :
    getF (run a s) f m n = Machine.getF s f m n := getF_of_getReg (h.getReg hf m n s)

theorem Act.Writes.getB {l : List RegName} {a : Act} (h : a.Writes l) {f : Fld} (hf : f.reg ∉ l) (m n : Nat) (s : State) :
    getB (run a s) f m n = Machine.getB s f m n := by simp only [Machine.getB, h.getF hf]

theorem writes_of_changes {k : List Part} {l : List RegName} {a : Act} (h : a.Changes k) (hk : Part.regs ∉ k) : a.Writes l :=
  Act.Within.mono (fun p hp => by
    cases p
    case reg r i j v => exact absurd hp hk
    case regsReset c => exact absurd hp hk
    all_goals trivial) h.only

theorem writes_withFree {l : List RegName} {g : (Nat → Nat) → Act} (h : ∀ f, (g f).Writes l) : (withFree g).Writes l := ⟨fun _ => h _, trivial⟩

section
variable {l : List RegName} {f : Fld} (h : f.reg ∈ l)
include h

theorem writes_setF (x i j : Nat) : (setF f x i j).Writes l := fun _ => h
theorem writes_incF (n i j : Nat) : (incF f n i j).Writes l := fun _ => h
theorem writes_addF (n i j : Nat) : (addF f n i j).Writes l := fun _ => h
theorem writes_evt (i j : Nat) : (evt f i j).Writes l := fun _ => h
theorem writes_setBitF (k : Nat) (b : Bool) (i j : Nat) : (setBitF f k b i j).Writes l := fun _ => h

end

/-! What reaches memory. -/

section
variable {l : List RegName} (h : RegName.COH_HOLDSNP ∈ l)
include h

theorem writes_dropCopies (line : Nat) (keep : Bool) : (dropCopies line keep).Writes l := by
  intro s
  dsimp only
  split
  · trivial
  · refine ⟨(within_when _ _).mpr fun _ => writes_addF h _ _ _, ?_, trivial, trivial⟩
    split
    · exact (within_when _ _).mpr fun _ => writes_of_changes (changes_writeMem _ _) (by decide)
    · trivial

theorem writes_storeMem (w : Writer) (a : Nat) (bs : List Byte) : (storeMem w a bs).Writes l :=
  ⟨(within_each _ _).mpr fun _ _ => ⟨writes_dropCopies h _ _, writes_of_changes (changes_writeMem _ _) (by decide),
    writes_of_changes (changes_stampLine _ _ _) (by decide), trivial⟩, writes_of_changes (changes_clearBlocks _ _ _) (by decide), trivial⟩

theorem writes_pkgWrite (a : Nat) (bs : List Byte) : (pkgWrite a bs).Writes l := writes_storeMem h _ _ _

theorem writes_trace (u e o i : Nat) : (trace u e o i).Writes l := by
  intro s
  dsimp only
  split
  · exact ⟨writes_pkgWrite h _ _, trivial, trivial⟩
  · trivial

theorem writes_traceItem (u e : Nat) (d : Desc) : (traceItem u e d).Writes l :=
  ⟨writes_trace h _ _ _ _, (within_when _ _).mpr fun _ => writes_of_changes (changes_progress _) (by decide)⟩

theorem writes_touchPage (n : Nat) : (touchPage n).Writes l := by
  refine fun s => ⟨?_, (within_when _ _).mpr fun _ => writes_pkgWrite h _ _, trivial⟩
  split
  · exact writes_withFree fun _ => trivial
  · trivial

theorem writes_usePage (a : Nat) : (usePage a).Writes l := (within_when _ _).mpr fun _ => writes_touchPage h _

theorem writes_setPage (n : Nat) (f : PageEnt → PageEnt) : (setPage n f).Writes l := fun _ => ⟨trivial, writes_pkgWrite h _ _, trivial⟩

theorem writes_unpoison (va obj : Nat) (was : Bool) : (unpoison va obj was).Writes l :=
  (within_when _ _).mpr fun _ => ⟨trivial, fun _ => writes_pkgWrite h _ _, fun _ => (within_when _ _).mpr fun _ => writes_setPage h _ _, trivial⟩

theorem writes_frameUnpoison (x : Nat) (was : Bool) : (frameUnpoison x was).Writes l := by
  intro s
  dsimp only
  split
  · exact writes_unpoison h _ _ _
  · trivial

theorem writes_writePiece (w : Writer) (rebuild : Bool) (a : Nat) (bs : List Byte) : (writePiece w rebuild a bs).Writes l := by
  have hdiscard : (specDiscard w a).Writes l := writes_of_changes (changes_specDiscard _ _) (by decide)
  refine fun s => ⟨writes_usePage h _, ?_, trivial⟩
  split
  case h_1 x obj _ =>
    split
    · exact hdiscard
    · cases obj with
      | none => exact ⟨writes_storeMem h _ _ _, (within_when _ _).mpr fun _ => writes_frameUnpoison h _ _, trivial⟩
      | some o => exact ⟨writes_storeMem h _ _ _, writes_unpoison h _ _ _, trivial⟩
  case h_2 b off _ =>
    split
    · exact hdiscard
    · exact ⟨(within_when _ _).mpr fun _ => ⟨trivial, writes_unpoison h _ _ _, trivial⟩, writes_of_changes (changes_farWrite _ _ _ _ _) (by decide), trivial⟩
  case h_3 x _ =>
    split
    · exact hdiscard
    · refine ⟨?_, trivial, trivial⟩
      split
      · exact writes_of_changes (changes_farNote _ _ _ _) (by decide)
      · trivial
  case h_4 => trivial

theorem writes_mapWrite (w : Writer) (rebuild : Bool) (a : Nat) (bs : List Byte) : (mapWrite w rebuild a bs).Writes l := by
  refine ⟨(within_each _ _).mpr fun _ _ => writes_writePiece h _ _ _ _, fun s => ?_, trivial⟩
  dsimp only
  split
  · exact writes_of_changes (changes_clearBlocks _ _ _) (by decide)
  · trivial

end

/-! Trace. -/

/-- Whether trace runs rests on DBG_TRACE, the session's level and the chart. -/
theorem traceOn_congr {s t : State} (ht : ∀ i j, getReg t .DBG_TRACE i j = getReg s .DBG_TRACE i j) (hs : ∀ i j, getReg t .DBG_SESS i j = getReg s .DBG_SESS i j)
    (hc : t.chart = s.chart) : traceOn t = traceOn s := by
  have hsize : getF t DBG_TRACE.SIZE = getF s DBG_TRACE.SIZE := getF_of_getReg (ht 0 0)
  have hen : getB t DBG_TRACE.EN = getB s DBG_TRACE.EN := by rw [getB, getF_of_getReg (f := DBG_TRACE.EN) (ht 0 0)]; rfl
  have hlevel : ∀ i, getF t DBG_SESS.LEVEL i = getF s DBG_SESS.LEVEL i := fun i => getF_of_getReg (hs i 0)
  have hchart : chartF t 0xC 2 1 = chartF s 0xC 2 1 := by simp only [chartF, theChart, hc]
  rw [traceOn, traceOn, hen, hsize, hlevel, hlevel, hchart]

theorem Act.Writes.traceOn {l : List RegName} {a : Act} (h : a.Writes l) (ht : RegName.DBG_TRACE ∉ l) (hs : RegName.DBG_SESS ∉ l) {s : State}
    (hc : (run a s).chart = s.chart) : traceOn (run a s) = Machine.traceOn s :=
  traceOn_congr (fun _ _ => h.getReg ht _ _ s) (fun _ _ => h.getReg hs _ _ s) hc

/-- Without a trace, a trace record stores nothing. -/
theorem traceItem_mem_of_off {s : State} (h : traceOn s = false) (u e : Nat) (d : Desc) : (run (traceItem u e d) s).mem = s.mem := by
  have hskip : run (trace u e (dOpcode d) (dItem d)) s = s := by simp only [trace, run_ask, h, Bool.false_eq_true, if_false, run_skip]
  rw [traceItem, run_seq, hskip]
  exact only_mem (changes_when (changes_progress u)).only (by decide) s

end Sys2Proof.Machine

/-! PROOFS. The update engine's items: what a start, a write of the shadow buffer, a copy of the weights, a frozen group and a fault change (R190 to R208, Table 8-7). -/

namespace Sys2Proof.Machine

/-! Ranges none of whose pieces stops. -/

theorem stop_of_find {s : State} {l : List Piece} {p : Piece} (h : l.find? (fun p => (route s p).stops) = some p) : (firstStall s l, firstFault s l) ≠ (none, none) := by
  simp only [firstStall, firstFault, h, ne_eq, Prod.mk.injEq, not_and]
  cases route s p <;> simp

theorem not_stops_of_rangesStop {s : State} {wr : Bool} {l : List (Nat × Nat)} (h : rangesStop s wr l = (none, none)) :
    ∀ r ∈ l, ∀ p ∈ piecesOf r.1 r.2 wr false, (route s p).stops = false := by
  have hnone : l.find? (fun r => (piecesOf r.1 r.2 wr false).any fun p => (route s p).stops) = none := by
    by_contra hne
    obtain ⟨r, hr⟩ := Option.ne_none_iff_exists'.mp hne
    simp only [rangesStop, hr] at h
    have hany := List.find?_some hr
    obtain ⟨p, hp, hstops⟩ := List.any_eq_true.mp hany
    obtain ⟨q, hq⟩ := Option.isSome_iff_exists.mp ((List.find?_isSome (p := fun p => (route s p).stops)).mpr ⟨p, hp, hstops⟩)
    exact stop_of_find hq h
  intro r hr p hp
  simpa using fun hstops => (List.find?_eq_none.mp hnone) r hr (List.any_eq_true.mpr ⟨p, hp, hstops⟩)

/-- The ranges of a list of writes. -/
def writeSizes (ws : List (Nat × List Byte)) : List (Nat × Nat) := ws.map fun r => (r.1, r.2.length)

theorem writeRanges_ok {s : State} (w : Writer) {ws : List (Nat × List Byte)} (h : rangesStop s true (writeSizes ws) = (none, none)) :
    (writeRanges s w ws).2 = none := by
  have hgo := not_stops_of_rangesStop h
  clear h
  induction ws with
  | nil => rfl
  | cons r ws ih =>
    obtain ⟨hr, hws⟩ := List.forall_mem_cons.mp hgo
    have hok : okPrefix s (.unit 512) r.1 r.2.length true = (r.2.length, none, none) := by
      have hnone : (piecesOf r.1 r.2.length true false).find? (fun p => (route s p).stops || (!p.wr && fetchRefused s (.unit 512) p)) = none := by
        refine List.find?_eq_none.mpr fun p hp => ?_
        have hwr : p.wr = true := by
          obtain ⟨_, -, rfl⟩ := List.mem_map.mp hp
          rfl
        simp [hr p hp, hwr]
      rw [okPrefix, okPieces, hnone]
    simp only [writeRanges, hok]
    exact ih hws

theorem writes_writeRanges (s : State) (w : Writer) (ws : List (Nat × List Byte)) : (writeRanges s w ws).1.Writes [.COH_HOLDSNP] := by
  induction ws with
  | nil => trivial
  | cons r ws ih =>
    rw [writeRanges]
    split
    · exact writes_mapWrite (List.mem_cons_self ..) _ _ _ _
    · exact ⟨writes_mapWrite (List.mem_cons_self ..) _ _ _ _, ih⟩

/-! The sizes of what UPD and WCOPY write. -/

theorem length_flatMap_natLe {α : Type} (f : α → Nat) (k : Nat) (l : List α) : (l.flatMap fun x => natLe (f x) k).length = l.length * k := by
  induction l with
  | nil => simp
  | cons x l ih => rw [List.flatMap_cons, List.length_append, length_natLe, ih, List.length_cons]; ring

theorem updWrites_sizes {s : State} {d : Desc} {e : Group} {outs : List UpdOut} {stats : List FV} (ho : outs.length = uN d)
    (hs : e.factored = true → stats.length = if uFullV d then uN d else uRows d + uCols d) :
    writeSizes (updWrites s d e outs stats) = Safety.updTargets s d e := by
  have hw : ∀ k (f : UpdOut → Nat), (outs.flatMap fun o => natLe (f o) k).length = uN d * k := fun k f => by rw [length_flatMap_natLe, ho]
  have hstat : ∀ l : List FV, (l.flatMap fun v => natLe (round32 v).1 4).length = 4 * l.length := fun l => by rw [length_flatMap_natLe, Nat.mul_comm]
  have hrem : (outs.map fun o => BitVec.ofNat 8 o.r).length = uN d := by rw [List.length_map, ho]
  simp only [writeSizes, updWrites, Safety.updTargets, List.map_append, List.map_cons, List.map_nil, hw]
  congr 1
  · congr 1
    · congr 1
      cases e.w32 <;> simp [ho]
    · cases e.moment <;> simp [hw]
  · cases hf : e.factored
    · rfl
    · have hlen := hs hf
      cases hv : uFullV d <;> simp only [hv, if_true, if_false, Bool.false_eq_true] at hlen ⊢
      · simp only [List.map_cons, List.map_nil, hstat, List.length_take, List.length_drop, hlen]
        simp
      · simp only [List.map_cons, List.map_nil, hstat, hlen]

theorem factoredPass_length (c : UpdCx) (d : Desc) (xs : List UpdElem) (stats : List FV) (hx : xs.length = uN d) :
    (factoredPass c d xs stats).1.length = if uFullV d then uN d else uRows d + uCols d := by
  unfold factoredPass
  cases uFullV d <;> simp [hx]

theorem length_updElems (pick : Nat → Nat) (s : State) (d : Desc) (e : Group) (c : UpdCx) : (updElems pick s d e c).length = uN d := by
  simp [updElems]

theorem fmtWidth_cases {f : Nat} (h : fmtOk f = true) : fmtWidth f = 4 ∨ fmtWidth f = 8 ∨ fmtWidth f = 16 ∨ fmtWidth f = 32 := by
  simp only [fmtOk, decide_eq_true_eq] at h
  interval_cases f <;> decide

/-- Packed values take their bits, rounded up to bytes. -/
theorem length_packElems {w : Nat} (h : w = 4 ∨ w = 8 ∨ w = 16 ∨ w = 32) (l : List Nat) : (packElems w l).length = (w * l.length + 7) / 8 := by
  induction l using packElems.induct w with
  | case1 => simp [packElems]
  | case2 x => simp [packElems, length_natLe]
  | case3 x y l hw ih =>
    simp only [packElems, if_pos hw, List.length_cons, ih]
    subst hw; omega
  | case4 x y l hw ih =>
    simp only [packElems, if_neg hw, List.length_append, length_natLe, ih, List.length_cons]
    obtain h | h | h | h := h
    · exact absurd h hw
    all_goals subst h; omega

/-! The item in progress. -/

/-- A program leaves the list and the item in progress alone. -/
abbrev Act.KeepsItem (a : Act) : Prop := a.Within fun p => ∀ s, (p.apply s).upd.run = s.upd.run ∧ (p.apply s).upd.queue = s.upd.queue

theorem Act.KeepsItem.run_eq {a : Act} (h : a.KeepsItem) (s : State) : (run a s).upd.run = s.upd.run ∧ (run a s).upd.queue = s.upd.queue := by
  have hboth := run_same (fun s => (s.upd.run, s.upd.queue)) (Act.Within.mono (fun _ hp s => Prod.ext (hp s).1 (hp s).2) h) s
  exact ⟨congrArg Prod.fst hboth, congrArg Prod.snd hboth⟩

theorem keepsItem_of_changes {l : List Part} {a : Act} (h : a.Changes l) (hl : Part.upd ∉ l) : a.KeepsItem :=
  Act.Within.mono (fun p hp s => by
    cases p
    case upd => exact absurd hp hl
    all_goals exact ⟨rfl, rfl⟩) h.only

/-- Reads that have all been answered let an item go on with them. -/
theorem run_updFetched_of_clear {s : State} (i : UpdItem) {l : List (Nat × Nat)} (k : Act) (h : fetchClear s (.unit 512) (rangePieces l) = true) :
    run (updFetched i l k) s = run (.given (fun s => (updHead s).isNone) (fetchDrop fun x => decide (x = .unit 512))) (run k s) := by
  simp only [fetchClear, Bool.and_eq_true, Bool.not_eq_true'] at h
  obtain ⟨⟨hmiss, hdue⟩, hrefused⟩ := h
  have hnone : (rangePieces l).find? (fun p => fetchRefused s (.unit 512) p) = none :=
    List.find?_eq_none.mpr fun p hp => by simpa using List.any_eq_false.mp hrefused p hp
  simp only [updFetched, fetched, run_ask, hmiss, hdue, Bool.not_true, Bool.false_eq_true, if_false, run_seq, hnone, run_when, run_given]

/-- The registers that an UPD or a WCOPY in progress writes once its bytes reach memory. -/
def resultRegs : List RegName := [.COH_HOLDSNP, .UPD_FLAGS, .UPD_COUNT, .UPD_EVT]

/-- What an item in progress does without a stall or a fault: its group is marked where it is an UPD, its bytes reach memory, and its elements are counted where it is an UPD. -/
structure Act.Finishes (a : Act) : Prop where
  item : a.KeepsItem
  regs : a.Writes resultRegs

theorem updWrote_finishes : updWrote.Finishes := ⟨⟨fun _ => ⟨rfl, rfl⟩, fun _ => ⟨rfl, rfl⟩⟩, trivial, trivial⟩

theorem writeRanges_finishes (s : State) (w : Writer) (ws : List (Nat × List Byte)) : (writeRanges s w ws).1.Finishes :=
  ⟨keepsItem_of_changes (changes_writeRanges _ _ _) (by decide), (writes_writeRanges _ _ _).mono (by decide)⟩

theorem orFlags_finishes (fl : Nat) : (orFlags .UPD_FLAGS 0 false fl).Finishes :=
  ⟨keepsItem_of_changes (changes_orFlags _ _ _ _) (by decide), fun _ => (by decide : RegName.UPD_FLAGS ∈ resultRegs)⟩

theorem fresh_finishes : (Act.prim .fresh).Finishes := ⟨fun _ => ⟨rfl, rfl⟩, trivial⟩

theorem Act.Finishes.seq {a b : Act} (ha : a.Finishes) (hb : b.Finishes) : (Act.seq a b).Finishes := ⟨⟨ha.item, hb.item⟩, ha.regs, hb.regs⟩

theorem Act.Finishes.when {a : Act} (c : Bool) (ha : a.Finishes) : (Act.when c a).Finishes :=
  ⟨(within_when _ _).mpr fun _ => ha.item, (within_when _ _).mpr fun _ => ha.regs⟩

theorem fetchDrop_finishes (c : State → Bool) (k : FetchFor → Bool) : (Act.given c (fetchDrop k)).Finishes :=
  ⟨(within_given _ _).mpr fun _ _ => ⟨fun _ => ⟨rfl, rfl⟩, fun _ => ⟨rfl, rfl⟩, trivial⟩, (within_given _ _).mpr fun _ _ => ⟨trivial, trivial, trivial⟩⟩


/-- The report of an item's gradients that are not finite (R200). -/
def nonfinite (n : Nat) (data : List Nat) : Act := Act.all [incF UPD_COUNT.NONFIN n, evt UPD_EVT.NONFIN, logEv .updNonfinite 0xFF 512 data]

theorem nonfinite_finishes (n : Nat) (data : List Nat) : (nonfinite n data).Finishes :=
  ⟨keepsItem_of_changes (l := [.regs, .log]) (changes_cons ((changes_incF _ _ _ _).up rfl) (changes_cons ((changes_evt _ _ _).up rfl)
      (changes_cons ((changes_logEv _ _ _ _).up rfl) changes_nil))) (by decide),
    writes_incF (by decide) _ _ _, writes_evt (by decide) _ _, writes_of_changes (changes_logEv _ _ _ _) (by decide), trivial⟩

/-- An UPD whose reads and writes do not stop marks its group, writes, and counts its elements. -/
theorem run_updRun_of_ranges {s : State} (i : UpdItem) {e : Group} (he : e = groupEnt s (uGroup i.desc))
    (hr : rangesStop s false (updReads s i.desc e) = (none, none)) (ht : rangesStop s true (Safety.updTargets s i.desc e) = (none, none)) :
    ∃ a b : Act, a.Finishes ∧ b.Finishes ∧ run (updRun i) s = run b (run (addF UPD_ELEMS.COUNT (uN i.desc)) (run a
      (run (setBitF UPD_PEND.PEND (uGroup i.desc % 64) true (uGroup i.desc / 64)) s))) := by
  subst he
  unfold updRun
  simp only [run_withFree, run_ask, hr]
  generalize hxs : updElems _ s i.desc _ _ = xs
  have hlen : xs.length = uN i.desc := by rw [← hxs, length_updElems]
  generalize hws : updWrites s i.desc _ _ _ = ws
  have hsizes : rangesStop s true (writeSizes ws) = (none, none) := by
    rw [← hws, updWrites_sizes (by simp [hlen]), ht]
    intro hf
    simp only [hf, if_true]
    exact factoredPass_length _ _ _ _ hlen
  have hmap : (ws.map fun r => (r.1, r.2.length)) = writeSizes ws := rfl
  simp only [hmap, hsizes, writeRanges_ok _ hsizes, run_all_cons, run_all_nil]
  refine ⟨.seq (updUpd _) (.seq (writeRanges _ _ _).1 updWrote),
    .seq (Act.when _ (updUpd _)) (.seq (orFlags .UPD_FLAGS 0 false _) (.seq (Act.when _ (nonfinite _ _)) (.prim .fresh))), ?a, ?b, rfl⟩
  case a => exact .seq ⟨fun _ => ⟨rfl, rfl⟩, trivial⟩ (.seq (writeRanges_finishes _ _ _) updWrote_finishes)
  case b => exact .seq (.when _ ⟨fun _ => ⟨rfl, rfl⟩, trivial⟩) (.seq (orFlags_finishes _) (.seq (.when _ (nonfinite_finishes _ _)) fresh_finishes))

theorem writes_amaxReport (p slot : Nat) (v : FV) : (amaxReport p slot v).Writes [.COH_HOLDSNP] := by
  intro s
  dsimp only
  split
  · exact writes_pkgWrite (List.mem_cons_self ..) _ _
  · trivial

/-- A WCOPY whose reads and writes do not stop writes its copy. -/
theorem run_wcopyRun_of_ranges {s : State} (i : UpdItem) (hfmt : fmtOk (dDfmt i.desc) = true)
    (hr : rangesStop s false (wcopyReads s i.desc) = (none, none))
    (ht : rangesStop s true [(uGaddr i.desc, (fmtWidth (dDfmt i.desc) * uN i.desc + 7) / 8)] = (none, none)) :
    ∃ a : Act, a.Finishes ∧ run (wcopyRun i) s = run a s := by
  unfold wcopyRun
  simp only [run_withFree, run_ask, hr]
  generalize hbytes : packElems (fmtWidth (dDfmt i.desc)) _ = bytes
  have hlen : bytes.length = (fmtWidth (dDfmt i.desc) * uN i.desc + 7) / 8 := by
    rw [← hbytes, length_packElems (fmtWidth_cases hfmt)]
    simp
  have hsizes : rangesStop s true [(uGaddr i.desc, bytes.length)] = (none, none) := by rw [hlen, ht]
  simp only [hsizes, writeRanges_ok (ws := [(uGaddr i.desc, bytes)]) _ hsizes, run_all_cons, run_all_nil]
  refine ⟨.seq (writeRanges _ _ _).1 (.seq updWrote (.seq (orFlags .UPD_FLAGS 0 false _) (.seq (Act.when _ (amaxReport _ _ _)) (.prim .fresh)))), ?a, rfl⟩
  exact .seq (writeRanges_finishes _ _ _) (.seq updWrote_finishes (.seq (orFlags_finishes _) (.seq (.when _
    ⟨keepsItem_of_changes (changes_amaxReport _ _ _) (by decide), (writes_amaxReport _ _ _).mono (by decide)⟩) fresh_finishes)))

/-! Starting. -/

/-- What `updBegin` does: the item leaves the list and is in progress, and ITEM names it. -/
theorem updBegin_spec (i : UpdItem) (s : State) :
    let t := run (updBegin i) s
    t.upd.run = some i ∧ t.upd.queue = s.upd.queue.drop 1 ∧ getF t UPD_STAT.ITEM = dItem i.desc := by
  have hitem : dItem i.desc < 2 ^ 32 := bitsOf_lt _ _ _
  simp only [updBegin, run_all_cons, run_all_nil, run_ask, updUpd, run_prim, Prim.upd_getF, Prim.upd_upd, setF_upd, traceItem_upd, true_and]
  rw [getF_setF_fits (f := UPD_STAT.ITEM) (by decide)]
  exact Nat.mod_eq_of_lt hitem

theorem writes_updBegin (i : UpdItem) : (updBegin i).Writes [.COH_HOLDSNP, .UPD_STAT] :=
  ⟨writes_traceItem (by decide) _ _ _, writes_setF (by decide) _ _ _, fun _ => trivial, trivial⟩

theorem writes_pendStart (i : UpdItem) : (pendStart i).Writes [.UPD_PSET] :=
  (within_given _ _).mpr fun _ _ => ⟨writes_setF (by decide) _ _ _, writes_setF (by decide) _ _ _, trivial⟩

/-- The pending set after `pendStart`: the one that was pending, or the item's (R201). -/
theorem pendStart_spec (i : UpdItem) (s : State) :
    let t := run (pendStart i) s
    getF t UPD_PSET.VALID = 1 ∧ getF t UPD_PSET.SET = if getF s UPD_PSET.VALID = 1 then getF s UPD_PSET.SET else i.set.toNat := by
  simp only [pendStart, run_given, getB, Bool.not_eq_true', decide_eq_false_iff_not]
  by_cases h : getF s UPD_PSET.VALID = 1
  · simp [h]
  · have hset : i.set.toNat < 2 ^ 16 := i.set.isLt
    simp only [h, not_false_eq_true, if_true, if_false, run_all_cons, run_all_nil]
    rw [getF_setF_fits (f := UPD_PSET.VALID) (by decide), getF_setF_apart (by decide), getF_setF_fits (f := UPD_PSET.SET) (by decide)]
    exact ⟨rfl, Nat.mod_eq_of_lt hset⟩

theorem groupLive_congr {s t : State} (h : ∀ k, getReg t .UPD_LIVE k 0 = getReg s .UPD_LIVE k 0) (g : Nat) : groupLive t g = groupLive s g := by
  rw [groupLive, groupLive, getF_of_getReg (f := UPD_LIVE.LIVE) (h _)]

/-! Faults. -/

theorem updFaultCode_lt (s : State) (i : UpdItem) : updFaultCode s i < 256 := by
  unfold updFaultCode
  dsimp only
  split_ifs <;> decide

/-- A NOP has one fault (R191, R208). -/
theorem updFaultCode_of_nop {s : State} {i : UpdItem} (ho : dOpcode i.desc = 0) (h : updFaultCode s i ≠ 0) : updFaultCode s i = 7 := by
  simp only [updFaultCode, ho, if_true] at h ⊢
  split_ifs at h ⊢ <;> simp_all

theorem faultWord_opcode (d : Desc) {code : Nat} (hc : code < 256) :
    bitsOf (BitVec.ofNat 64 (code + dOpcode d * 256 + dItem d * 2 ^ 32)).toNat 8 8 = dOpcode d := by
  have ho : dOpcode d < 256 := bitsOf_lt _ _ _
  have hi : dItem d < 2 ^ 32 := bitsOf_lt _ _ _
  simp only [bitsOf, BitVec.toNat_ofNat]
  omega

/-- A head item that faults: the engine halts on it, the registers name it, and it stores nothing but a trace record (R208). -/
theorem updFault_spec {s : State} (i : UpdItem) {code : Nat} (hrun : s.upd.run = none) (hc : code < 256) :
    let t := run (updFault i code) s
    t.upd.halted = some i ∧ t.upd.queue = s.upd.queue.drop 1 ∧ getF t UPD_FAULT.CODE = code ∧ getF t UPD_FAULT.OPCODE = dOpcode i.desc ∧
      getF t UPD_FAULT.ITEM = dItem i.desc ∧ Safety.Logged .updFault s t ∧ (traceOn s = false → t.mem = s.mem) := by
  obtain ⟨hcode, hitem⟩ := faultWord_fields i.desc hc
  have hword : ∀ f : Fld, f.reg = .UPD_FAULT → f.fits = true → getF (run (updFault i code) s) f =
      bitsOf (BitVec.ofNat 64 (code + dOpcode i.desc * 256 + dItem i.desc * 2 ^ 32)).toNat f.lo f.width := by
    intro f hreg hf
    simp only [updFault, run_all_cons, run_all_nil, run_prim]
    rw [traceItem_getF _ _ _ _ _ _ _ (by rw [hreg]; decide), logEv_getF, ← hreg]
    exact getF_apply_reg hf 0 0 _ _
  refine ⟨?_, ?_, (hword _ rfl (by decide)).trans hcode, (hword _ rfl (by decide)).trans (faultWord_opcode _ hc), (hword _ rfl (by decide)).trans hitem, ?_, fun hoff => ?_⟩
  · simp [updFault, updUpd]
  · simp [updFault, updUpd, hrun]
  · simp [updFault, updUpd, Safety.Logged, satAdd]
  · simp only [updFault, updUpd, run_all_cons, run_all_nil, run_prim]
    rw [traceItem_mem_of_off, logEv_mem, Prim.reg_mem, Prim.upd_mem]
    rw [← hoff]
    refine traceOn_congr (fun _ _ => ?_) (fun _ _ => ?_) ?_
    · rw [logEv_getReg, getReg_apply_reg_name _ _ _ _ _ _ (by decide), Prim.upd_getReg]
    · rw [logEv_getReg, getReg_apply_reg_name _ _ _ _ _ _ (by decide), Prim.upd_getReg]
    · rw [logEv_chart, Prim.reg_chart, Prim.upd_chart]

/-- An UPD on a frozen group is in progress at once, is counted and logged, and touches no buffer (R194). -/
theorem updFrozen_spec (i : UpdItem) (s : State) :
    let t := run (updFrozen i) s
    t.upd.run = some i ∧ t.upd.queue = s.upd.queue.drop 1 ∧ getF t UPD_COUNT.FROZEN = min (getF s UPD_COUNT.FROZEN + 1) (2 ^ 32 - 1) ∧
      getF t UPD_EVT.FROZEN = 1 ∧ Safety.Logged .updFrozen s t ∧ (∀ k, getF t UPD_PEND.PEND k = getF s UPD_PEND.PEND k) ∧ (traceOn s = false → t.mem = s.mem) := by
  obtain ⟨hrun, hqueue, -⟩ := updBegin_spec i s
  have hbegin : ∀ f : Fld, f.reg ∉ [RegName.COH_HOLDSNP, .UPD_STAT] → ∀ m, getF (run (updBegin i) s) f m = getF s f m := fun f hf m =>
    (writes_updBegin i).getF hf m 0 s
  have hlog : Safety.tally (run (updBegin i) s) .updFrozen = Safety.tally s .updFrozen := by
    rw [Safety.tally, only_log (changes_updBegin i).only (by decide), Safety.tally]
  simp only [updFrozen, updWrote, unitGoes, updTier, updUpd, run_all_cons, run_all_nil, run_seq, run_ask, run_prim]
  refine ⟨?_, ?_, ?_, ?_, ?_, fun k => ?_, fun hoff => ?_⟩
  · simp [hrun]
  · simp [hqueue]
  · rw [logEv_getF, getF_evt_apart (by decide), getF_incF_fits (f := UPD_COUNT.FROZEN) (by decide), Prim.upd_getF, Prim.tier_getF, hbegin _ (by decide)]
    rfl
  · rw [logEv_getF, getF_evt_fits (f := UPD_EVT.FROZEN) (by decide)]
    rfl
  · simp [Safety.Logged, satAdd, hlog]
  · rw [logEv_getF, getF_evt_apart (by decide), getF_incF_apart (by decide), Prim.upd_getF, Prim.tier_getF, hbegin _ (by decide)]
  · simp [updBegin, updUpd, traceItem_mem_of_off hoff]

/-! The branches of the commands. -/

section
variable {s : State} {i : UpdItem} (hrun : s.upd.run = none) (hhead : updHead s = some i)
include hrun hhead

theorem run_updItem_of_fault (ho : dOpcode i.desc ≠ 0) (ho' : dOpcode i.desc ≠ 0xC1) (h : updFaultCode s i ≠ 0) :
    run updItem s = run (updFault i (updFaultCode s i)) s := by
  simp [updItem, hhead, hrun, ho, ho', h]

theorem run_wcopyItem_of_fault (ho : dOpcode i.desc = 0xC1) (h : updFaultCode s i ≠ 0) : run wcopyItem s = run (updFault i (updFaultCode s i)) s := by
  simp [wcopyItem, hhead, hrun, ho, h]

omit hrun in
theorem run_updNop_of_fault (ho : dOpcode i.desc = 0) (h : updFaultCode s i ≠ 0) : run updNop s = run (updFault i (updFaultCode s i)) s := by
  simp [updNop, hhead, ho, h]

theorem run_updItem_of_frozen (ho : dOpcode i.desc = 0xC0) (h : updFaultCode s i = 0) (hf : (groupEnt s (uGroup i.desc)).frozen = true) :
    run updItem s = run (updFrozen i) s := by
  simp [updItem, hhead, hrun, ho, h, hf]

theorem run_updItem_of_starts (ho : dOpcode i.desc = 0xC0) (h : updFaultCode s i = 0) (hf : (groupEnt s (uGroup i.desc)).frozen = false)
    (hw : updWaitsPend s i = false) : run updItem s = run (updGo i) (run (pendStart i) (run (updBegin i) s)) := by
  simp [updItem, hhead, hrun, ho, h, hf, hw]

theorem run_wcopyItem_of_starts (ho : dOpcode i.desc = 0xC1) (h : updFaultCode s i = 0) (hw : copyWaitsFlip s i = false) :
    run wcopyItem s = run (wcopyGo i) (run (updBegin i) s) := by
  simp [wcopyItem, hhead, hrun, ho, h, hw]

end

/-- A WCOPY that passes its checks has a format. -/
theorem fmtOk_of_wcopy {s : State} {i : UpdItem} (ho : dOpcode i.desc = 0xC1) (h : updFaultCode s i = 0) : fmtOk (dDfmt i.desc) = true := by
  simp only [updFaultCode, ho] at h
  split_ifs at h <;> simp_all

/-- An UPD that starts on a group that is not frozen (R190, R201). -/
theorem upd_starts {s s1 : State} {i : UpdItem} {e : Group} (hs : s1 = run (pendStart i) (run (updBegin i) s)) (he : e = groupEnt s1 (uGroup i.desc))
    (hr : rangesStop s1 false (updReads s1 i.desc e) = (none, none)) (hc : fetchClear s1 (.unit 512) (rangePieces (updReads s1 i.desc e)) = true)
    (ht : rangesStop s1 true (Safety.updTargets s1 i.desc e) = (none, none)) :
    let t := run (updGo i) s1
    t.upd.run = some i ∧ t.upd.queue = s.upd.queue.drop 1 ∧ getF t UPD_STAT.ITEM = dItem i.desc ∧ getF t UPD_PSET.VALID = 1 ∧
      getF t UPD_PSET.SET = (if getF s UPD_PSET.VALID = 1 then getF s UPD_PSET.SET else i.set.toNat) ∧
      bitOf (getF t UPD_PEND.PEND (uGroup i.desc / 64)) (uGroup i.desc % 64) = true ∧
      getF t UPD_ELEMS.COUNT = (getF s UPD_ELEMS.COUNT + uN i.desc) % 2 ^ 64 ∧ (∀ g, groupLive t g = groupLive s g) := by
  obtain ⟨a, b, ha, hb, hgo⟩ := run_updRun_of_ranges i he hr ht
  have hend := fetchDrop_finishes (fun s => (updHead s).isNone) fun x => decide (x = .unit 512)
  have hrun : run (updGo i) s1 = run (.given (fun s => (updHead s).isNone) (fetchDrop fun x => decide (x = .unit 512))) (run b (run (addF UPD_ELEMS.COUNT (uN i.desc))
      (run a (run (setBitF UPD_PEND.PEND (uGroup i.desc % 64) true (uGroup i.desc / 64)) s1)))) := by
    rw [updGo, run_ask, ← he, run_updFetched_of_clear i _ hc, hgo]
  obtain ⟨hbrun, hbqueue, hitem⟩ := updBegin_spec i s
  obtain ⟨hvalid, hset⟩ := pendStart_spec i (run (updBegin i) s)
  have hbegin : ∀ q, q ∉ [RegName.COH_HOLDSNP, .UPD_STAT, .UPD_PSET] → ∀ m, getReg s1 q m 0 = getReg s q m 0 := fun q hq m => by
    rw [hs, (writes_pendStart i).getReg (by simp_all), (writes_updBegin i).getReg (by simp_all)]
  have hkept : ∀ q, q ∉ RegName.UPD_PEND :: .UPD_ELEMS :: resultRegs → ∀ m, getReg (run (updGo i) s1) q m 0 = getReg s1 q m 0 := fun q hq m => by
    simp only [List.mem_cons, not_or] at hq
    obtain ⟨hpend, helems, hres⟩ := hq
    rw [hrun, hend.regs.getReg hres, hb.regs.getReg hres, addF, getReg_modF _ _ _ _ _ _ (Ne.symm helems), ha.regs.getReg hres, setBitF,
      getReg_modF _ _ _ _ _ _ (Ne.symm hpend)]
  have hpset : ∀ f : Fld, f.reg = .UPD_PSET → getF (run (updGo i) s1) f = getF (run (pendStart i) (run (updBegin i) s)) f := fun f hf => by
    rw [← hs]; exact getF_of_getReg (hkept _ (by rw [hf]; decide) 0)
  have hpset0 : ∀ f : Fld, f.reg = .UPD_PSET → getF (run (updBegin i) s) f = getF s f := fun f hf => (writes_updBegin i).getF (by rw [hf]; decide) 0 0 s
  refine ⟨?_, ?_, ?_, ?_, ?_, ?_, ?_, fun g => ?_⟩
  · rw [hrun, (hend.item.run_eq _).1, (hb.item.run_eq _).1, addF_upd, (ha.item.run_eq _).1, setBitF, modF_upd, hs,
      only_upd (changes_pendStart i).only (by decide), hbrun]
  · rw [hrun, (hend.item.run_eq _).2, (hb.item.run_eq _).2, addF_upd, (ha.item.run_eq _).2, setBitF, modF_upd, hs,
      only_upd (changes_pendStart i).only (by decide), hbqueue]
  · rw [getF_of_getReg (f := UPD_STAT.ITEM) (hkept .UPD_STAT (by decide) 0), hs, (writes_pendStart i).getF (by decide), hitem]
  · rw [hpset _ rfl, hvalid]
  · rw [hpset _ rfl, hset, hpset0 _ rfl, hpset0 _ rfl]
  · rw [hrun, hend.regs.getF (by decide), hb.regs.getF (by decide), getF_addF_apart (by decide), ha.regs.getF (by decide),
      bitOf_getF_setBitF (f := UPD_PEND.PEND) (by decide) (k := uGroup i.desc % 64) (Nat.mod_lt _ (by decide)), if_pos rfl]
  · rw [hrun, hend.regs.getF (by decide), hb.regs.getF (by decide), getF_addF_fits (f := UPD_ELEMS.COUNT) (by decide), ha.regs.getF (by decide), setBitF,
      getF_modF_apart (by decide), getF_of_getReg (f := UPD_ELEMS.COUNT) (hbegin .UPD_ELEMS (by decide) 0)]
    rfl
  · exact groupLive_congr (fun k => (hkept _ (by decide) k).trans (hbegin _ (by decide) k)) g

/-- A WCOPY that starts (R197). -/
theorem wcopy_starts {s s1 : State} {i : UpdItem} (hs : s1 = run (updBegin i) s) (hfmt : fmtOk (dDfmt i.desc) = true)
    (hr : rangesStop s1 false (wcopyReads s1 i.desc) = (none, none)) (hc : fetchClear s1 (.unit 512) (rangePieces (wcopyReads s1 i.desc)) = true)
    (ht : rangesStop s1 true [(uGaddr i.desc, (fmtWidth (dDfmt i.desc) * uN i.desc + 7) / 8)] = (none, none)) :
    let t := run (wcopyGo i) s1
    t.upd.run = some i ∧ t.upd.queue = s.upd.queue.drop 1 ∧ getF t UPD_STAT.ITEM = dItem i.desc ∧ getF t UPD_PSET.VALID = getF s UPD_PSET.VALID ∧
      (∀ k, getF t UPD_PEND.PEND k = getF s UPD_PEND.PEND k) ∧ (∀ g, groupLive t g = groupLive s g) := by
  obtain ⟨a, ha, hgo⟩ := run_wcopyRun_of_ranges i hfmt hr ht
  have hend := fetchDrop_finishes (fun s => (updHead s).isNone) fun x => decide (x = .unit 512)
  have hrun : run (wcopyGo i) s1 = run (.given (fun s => (updHead s).isNone) (fetchDrop fun x => decide (x = .unit 512))) (run a s1) := by
    rw [wcopyGo, run_ask, run_updFetched_of_clear i _ hc, hgo]
  obtain ⟨hbrun, hbqueue, hitem⟩ := updBegin_spec i s
  have hkept : ∀ q, q ∉ resultRegs → ∀ m, getReg (run (wcopyGo i) s1) q m 0 = getReg s1 q m 0 := fun q hq m => by
    rw [hrun, hend.regs.getReg hq, ha.regs.getReg hq]
  have hsame : ∀ q, q ∉ RegName.UPD_STAT :: resultRegs → ∀ m, getReg (run (wcopyGo i) s1) q m 0 = getReg s q m 0 := fun q hq m => by
    rw [hkept q (by simp_all), hs, (writes_updBegin i).getReg (by simp_all [resultRegs])]
  refine ⟨?_, ?_, ?_, getF_of_getReg (hsame _ (by decide) 0), fun k => getF_of_getReg (hsame _ (by decide) k), groupLive_congr (hsame _ (by decide))⟩
  · rw [hrun, (hend.item.run_eq _).1, (ha.item.run_eq _).1, hs, hbrun]
  · rw [hrun, (hend.item.run_eq _).2, (ha.item.run_eq _).2, hs, hbqueue]
  · rw [getF_of_getReg (f := UPD_STAT.ITEM) (hkept .UPD_STAT (by decide) 0), hs, hitem]

/-- Settles O23: a start, a frozen group, a copy and a fault, each from the branch of its command. -/
theorem updateItems : Obligations.UpdateItems := by
  refine ⟨fun s s1 i e hrun hhead ho hcode hfrozen hwait hs he hr hc ht => ⟨_, rfl, ?_⟩, fun s i hrun hhead ho hcode hfrozen => ⟨_, rfl, ?_⟩,
    fun s s1 i hrun hhead ho hcode hwait hs hr hc ht => ⟨_, rfl, ?_⟩, fun s i hrun hhead hcode => ⟨fun ho => ⟨_, rfl, ?_⟩, fun ho ho' => ⟨_, rfl, ?_⟩, fun ho => ⟨_, rfl, ?_⟩⟩⟩
  · rw [run_updItem_of_starts hrun hhead ho hcode hfrozen hwait, ← hs]
    exact upd_starts hs he hr hc ht
  · rw [run_updItem_of_frozen hrun hhead ho hcode hfrozen]
    exact updFrozen_spec i s
  · rw [run_wcopyItem_of_starts hrun hhead ho hcode hwait, ← hs]
    exact wcopy_starts hs (fmtOk_of_wcopy ho hcode) hr hc ht
  · have hspec := updFault_spec i hrun (updFaultCode_lt s i)
    rw [run_updNop_of_fault hhead ho hcode]
    rwa [updFaultCode_of_nop ho hcode, ho] at *
  · rw [run_updItem_of_fault hrun hhead ho ho' hcode]
    exact updFault_spec i hrun (updFaultCode_lt s i)
  · rw [run_wcopyItem_of_fault hrun hhead ho hcode]
    have hspec := updFault_spec i hrun (updFaultCode_lt s i)
    rwa [ho] at hspec

end Sys2Proof.Machine

/-! PROOFS. Marks, tide frames and skew (R24, R44 to R50). -/

namespace Sys2Proof.Machine

/-! Fields and counts that a program leaves alone. -/

/-- Where each step of a list sets a field at its own index alone, to a value of the index, the field holds that value at the indices of the list. -/
theorem getF_each {f : Fld} {g : Nat → Nat} {body : Nat → Act} (hset : ∀ d s, getF (run (body d) s) f d = g d) {l : List Nat} {d : Nat}
    (hkeep : ∀ d' ∈ l, ∀ s, d' ≠ d → getF (run (body d') s) f d = getF s f d) (s : State) :
    getF (run (Act.each body l) s) f d = if d ∈ l then g d else getF s f d := by
  induction l generalizing s with
  | nil => rfl
  | cons x l ih =>
    rw [run_each_cons, ih fun d' h => hkeep d' (List.mem_cons_of_mem _ h)]
    by_cases hx : d = x
    · subst hx; simp [hset]
    · simp [hx, hkeep x List.mem_cons_self s (Ne.symm hx)]

@[simp] theorem updTide_tide (f : TideSt → TideSt) (s : State) : (run (updTide f) s).tide = f s.tide := (rfl)
@[simp] theorem updTide_getF (f : TideSt → TideSt) (x : Fld) (m n : Nat) (s : State) : getF (run (updTide f) s) x m n = getF s x m n := (rfl)
@[simp] theorem updTide_tally (f : TideSt → TideSt) (q : LogKind) (s : State) : Safety.tally (run (updTide f) s) q = Safety.tally s q := (rfl)
@[simp] theorem updEn_getF (f : EnSt → EnSt) (x : Fld) (m n : Nat) (s : State) : getF (run (updEn f) s) x m n = getF s x m n := (rfl)

/-! The mark. -/

/-- What the mark of a tide set on the boundary: its window, its closing and its moment. -/
def TideSt.window (t : TideSt) : Bool × Bool × Nat := (t.grace, t.closed, t.markAt)

abbrev Act.KeepsWindow (a : Act) : Prop := a.Within fun p => ∀ s, (p.apply s).tide.window = s.tide.window

theorem keepsWindow_of_changes {l : List Part} {a : Act} (h : a.Changes l) (hl : Part.tide ∉ l) : a.KeepsWindow :=
  Act.Within.mono (fun p hp s => congrArg TideSt.window (only_tide (a := .prim p) hp hl s)) h.only

theorem frameSend_keepsWindow : frameSend.KeepsWindow := by
  intro s
  dsimp only
  split
  · exact ⟨fun _ => rfl, (within_when _ _).mpr fun _ _ => rfl, fun _ => rfl, trivial⟩
  · trivial

theorem holdsGoOn_keepsWindow : holdsGoOn.KeepsWindow :=
  fun _ => (within_when _ _).mpr fun _ => (within_each _ _).mpr fun _ _ _ =>
    ⟨(within_when _ _).mpr fun _ => keepsWindow_of_changes (changes_incF _ _ _ _) (by decide), fun _ => rfl, trivial⟩

/-- What follows the opening of the window at a mark. -/
def markRest (used : List Nat) (off : BitVec 32) : Act := Act.all [frameSend, gridCheck off, ledgerMark used, telMark, holdsGoOn]

theorem markRest_keepsWindow (used : List Nat) (off : BitVec 32) : (markRest used off).KeepsWindow :=
  ⟨frameSend_keepsWindow, keepsWindow_of_changes (changes_gridCheck _) (by decide), keepsWindow_of_changes (changes_ledgerMark _) (by decide),
    keepsWindow_of_changes changes_telMark (by decide), holdsGoOn_keepsWindow, trivial⟩

theorem writes_gridCheck (off : BitVec 32) : (gridCheck off).Writes [.TIDE_SRC, .TIDE_EVT] :=
  fun _ => (within_when _ _).mpr fun _ => ⟨writes_setF (by decide) _ _ _, trivial,
    (within_when _ _).mpr fun _ => ⟨writes_evt (by decide) _ _, writes_of_changes (changes_logEv _ _ _ _) (by decide)⟩, trivial⟩

theorem writes_ledgerMark (used : List Nat) : (ledgerMark used).Writes [.EN_STATE, .EN_LEDGER, .EN_TOTAL] :=
  fun _ => ⟨(within_each _ _).mpr fun _ _ => writes_setF (by decide) _ _ _, trivial,
    (within_each _ _).mpr fun _ _ => ⟨writes_setF (by decide) _ _ _, writes_setF (by decide) _ _ _, trivial, trivial⟩, trivial⟩

theorem writes_telMark : telMark.Writes [.HM_TELEM, .HM_EVT] :=
  fun _ => (within_when _ _).mpr fun _ => ⟨(within_when _ _).mpr fun _ => ⟨writes_incF (by decide) _ _ _, writes_evt (by decide) _ _, trivial, trivial⟩, trivial⟩

theorem writes_holdsGoOn : holdsGoOn.Writes [.SHD_COUNT] :=
  fun _ => (within_when _ _).mpr fun _ => (within_each _ _).mpr fun _ _ _ => ⟨(within_when _ _).mpr fun _ => writes_incF (by decide) _ _ _, trivial, trivial⟩

theorem writes_frameSend : frameSend.Writes [] := writes_of_changes changes_frameSend (by decide)

/-- At the mark each die's energy of the ended tide stands in its ledger (R319). -/
theorem getF_ledgerMark (used : List Nat) {d : Nat} (hd : d < 6) (s : State) : getF (run (ledgerMark used) s) EN_LEDGER.USED d = used.getD d 0 % 2 ^ 32 := by
  rw [ledgerMark, run_ask, run_all_cons, run_all_cons, run_all_cons, run_all_nil]
  refine (getF_each (g := fun d => used.getD d 0 % 2 ^ 32) (fun d t => ?_) (fun d' hd' t hne => ?_) _).trans (if_pos (List.mem_range.mpr hd))
  · have hw : EN_LEDGER.USED.width = 32 := rfl
    simp only [run_all_cons, run_all_nil, updEn_getF]
    rw [getF_setF_apart (by decide), getF_setF_fits (by decide), hw]
  · have hd' := List.mem_range.mp hd'
    have hi : d' % 65536 ≠ d % 65536 := by omega
    simp only [run_all_cons, run_all_nil, updEn_getF]
    rw [getF_setF_apart (by decide), getF_setF_index (f := EN_LEDGER.USED) _ _ _ _ _ _ (Or.inl hi)]

theorem markRest_count (used : List Nat) (off : BitVec 32) (s : State) : getF (run (markRest used off) s) TIDE_COUNT.COUNT = getF s TIDE_COUNT.COUNT := by
  have h : (markRest used off).Writes [.TIDE_SRC, .TIDE_EVT, .EN_STATE, .EN_LEDGER, .EN_TOTAL, .HM_TELEM, .HM_EVT, .SHD_COUNT] :=
    ⟨writes_frameSend.mono (by decide), (writes_gridCheck off).mono (by decide), (writes_ledgerMark used).mono (by decide), writes_telMark.mono (by decide),
      writes_holdsGoOn.mono (by decide), trivial⟩
  exact h.getF (by decide) 0 0 s

theorem markRest_ledger (used : List Nat) (off : BitVec 32) {d : Nat} (hd : d < 6) (s : State) :
    getF (run (markRest used off) s) EN_LEDGER.USED d = used.getD d 0 % 2 ^ 32 := by
  simp only [markRest, run_all_cons, run_all_nil]
  rw [writes_holdsGoOn.getF (by decide), writes_telMark.getF (by decide), getF_ledgerMark used hd]

theorem run_tideMark (used : List Nat) (off : BitVec 32) (s : State) : run (tideMark used off) s = run (markRest used off) (run (updTide fun t =>
    { t with grace := true, closed := false, framed := false, markAt := s.now, inNow := none, spareNow := none, spareFrame := none, token := none, dark := none })
    (run (addF TIDE_COUNT.COUNT) s)) := by
  simp only [tideMark, markRest, run_all_cons, run_all_nil, run_ask, addF_now]

theorem tideMark_count (used : List Nat) (off : BitVec 32) (s : State) :
    getF (run (tideMark used off) s) TIDE_COUNT.COUNT = (getF s TIDE_COUNT.COUNT + 1) % 2 ^ 48 := by
  have hw : TIDE_COUNT.COUNT.width = 48 := rfl
  rw [run_tideMark, markRest_count, updTide_getF, getF_addF_fits (by decide), hw]

theorem tideMark_window (used : List Nat) (off : BitVec 32) (s : State) : (run (tideMark used off) s).tide.window = (true, false, s.now) := by
  rw [run_tideMark, run_same (fun s => s.tide.window) (markRest_keepsWindow used off)]
  rfl

theorem tideMark_ledger (used : List Nat) (off : BitVec 32) {d : Nat} (hd : d < 6) (s : State) :
    getF (run (tideMark used off) s) EN_LEDGER.USED d = used.getD d 0 % 2 ^ 32 := by
  rw [run_tideMark, markRest_ledger used off hd]

/-! The pilot's frame. -/

theorem run_frameCompose {s : State} (hp : isPilot s = true) (hr : getF s SHD_STAT.ROLE ≠ 3) (n : Nat) (hn : n = (getF s TIDE_COUNT.COUNT + 1) % 2 ^ 48) :
    run frameCompose s = run (updTide fun t => { t with
      composed := some (tideFrame n (periodOf s n) (tokenNow s n) t.darkQueue.head? (ownBerth s) false), darkQueue := t.darkQueue.drop 1 })
      (run (setsWait n) (run (updTide fun t => { t with closed := true }) s)) := by
  have hc : composes s = true := by simp [composes, hp]
  subst hn
  simp only [frameCompose, run_ask, run_all_cons, run_all_nil, run_when, hc, hp, hr, ne_eq, not_false_eq_true, decide_true, Bool.and_self, if_true, Bool.not_true]

theorem frameCompose_tide {s : State} (hp : isPilot s = true) (hr : getF s SHD_STAT.ROLE ≠ 3) (n : Nat) (hn : n = (getF s TIDE_COUNT.COUNT + 1) % 2 ^ 48) :
    (run frameCompose s).tide = { s.tide with
      closed := true, darkQueue := s.tide.darkQueue.drop 1
      composed := some (tideFrame n (periodOf s n) (tokenNow s n) s.tide.darkQueue.head? (ownBerth s) false) } := by
  rw [run_frameCompose hp hr n hn, updTide_tide, only_tide (changes_setsWait n).only (by decide), updTide_tide]

/-! Frames taken and missed. -/

/-- COUNT, TOKEN and DARK of a frame are taken; what the two inputs gave stays. -/
theorem frameTake_tide (f : BitVec 128) (s : State) : (run (frameTake f) s).tide.token = (if bitOf f.toNat 57 then some (BitVec.ofNat 16 (bitsOf f.toNat 41 16)) else none) ∧
    (run (frameTake f) s).tide.dark = (if bitOf f.toNat 40 then some (bitsOf f.toNat 32 8) else none) ∧ (run (frameTake f) s).tide.inNow = s.tide.inNow ∧
    (run (frameTake f) s).tide.spareRole = s.tide.spareRole := by
  simp only [frameTake, frameActs, run_ask, run_all_cons, run_all_nil, run_when]
  split_ifs <;> simp

theorem frameTake_getF {g : Fld} (hc : TIDE_COUNT.COUNT.apart g = true) (he : TIDE_EVT.PERIODMIS.apart g = true) (hp : TIDE_PERIOD.PERIOD.apart g = true)
    (f : BitVec 128) (i j : Nat) (s : State) : getF (run (frameTake f) s) g i j = getF s g i j := by
  simp only [frameTake, frameActs, run_ask, run_all_cons, run_all_nil, run_when]
  split_ifs <;> simp [hc, he, hp]

theorem frameTake_count (f : BitVec 128) (s : State) : getF (run (frameTake f) s) TIDE_COUNT.COUNT = bitsOf f.toNat 72 48 := by
  have hlt : bitsOf f.toNat 72 48 % 2 ^ TIDE_COUNT.COUNT.width = bitsOf f.toNat 72 48 := Nat.mod_eq_of_lt (Nat.mod_lt _ (by decide))
  simp only [frameTake, frameActs, run_ask, run_all_cons, run_all_nil, run_when]
  split_ifs <;> simp (decide := true) [hlt]

theorem frameTake_tally {k : LogKind} (hk : k ≠ .logFull) (hp : k ≠ .periodMismatch) (f : BitVec 128) (s : State) :
    Safety.tally (run (frameTake f) s) k = Safety.tally s k := by
  simp only [frameTake, frameActs, run_ask, run_all_cons, run_all_nil, run_when]
  split_ifs <;> simp [hk, hp]

/-- A missing frame of an input is noted. -/
def missed (spare : Bool) (s : State) : State :=
  run (updTide fun t => if spare then { t with spareNow := some false } else { t with inNow := some false }) (run (evt (if spare then TIDE_EVT.MISSSPARE else TIDE_EVT.MISSIN)) s)

theorem missed_getF {g : Fld} (hi : TIDE_EVT.MISSIN.apart g = true) (hs : TIDE_EVT.MISSSPARE.apart g = true) (spare : Bool) (i j : Nat) (s : State) :
    getF (missed spare s) g i j = getF s g i j := by
  cases spare
  · exact getF_evt_apart hi 0 0 i j s
  · exact getF_evt_apart hs 0 0 i j s

theorem missed_missIn (s : State) : getF (missed false s) TIDE_EVT.MISSIN = 1 := getF_evt_fits (by decide) 0 0 s

theorem missed_missSpare (s : State) : getF (missed true s) TIDE_EVT.MISSSPARE = 1 := getF_evt_fits (by decide) 0 0 s

theorem missed_tally (spare : Bool) (k : LogKind) (s : State) : Safety.tally (missed spare s) k = Safety.tally s k := by cases spare <;> rfl

/-- The frame of the other input is taken, where it gave one. -/
def spareTake : Act := .ask fun s => match s.tide.spareFrame with | some f => frameTake f | none => .skip

/-! A member that follows others' marks. -/

section
variable {s : State} (hrole : getF s TIDE_SRC.ROLE = 0) (hspare : s.tide.spareRole = false)
include hrole hspare

theorem isPilot_of_member : isPilot s = false := by simp [isPilot, hrole, hspare]

theorem follows_of_member : follows s = true := by simp [follows, isPilot_of_member hrole hspare]

/-- Its own input gave a frame: no failure in a row counts. -/
theorem framesJudge_of_frame (hin : s.tide.inNow = some true) : run framesJudge s = run (updTide fun t => { t with failIn := 0 }) s := by
  simp [framesJudge, follows_of_member hrole hspare, hrole, hin]

/-- Its own input fails while the other passes: one failure more. -/
theorem framesJudge_of_miss (hin : s.tide.inNow = some false) (hsp : s.tide.spareNow = some true) (h : s.tide.failIn = 0) :
    run framesJudge s = run (updTide fun t => { t with failIn := 1 }) s := by
  simp [framesJudge, follows_of_member hrole hspare, hrole, hin, hsp, h, updTide, Prim.apply]

/-- The second failure in a row switches. -/
theorem framesJudge_of_second (hin : s.tide.inNow = some false) (hsp : s.tide.spareNow = some true) (h : s.tide.failIn = 1) (hm : getF s TIDE_SRC.MODE = 1) :
    run framesJudge s = run spareTake (run (logEv .tideSwitch) (run (evt TIDE_EVT.SWITCH) (run (setF TIDE_SRC.MODE 2) (run (updTide fun t => { t with failIn := t.failIn + 1 }) s)))) := by
  simp [framesJudge, follows_of_member hrole hspare, hrole, hin, hsp, h, hm, spareTake] <;> rfl

/-- Both inputs fail: holdover. -/
theorem framesJudge_of_both (hin : s.tide.inNow = some false) (hsp : s.tide.spareNow = some false) (hm : getF s TIDE_SRC.MODE ≠ 4) :
    run framesJudge s = run (evt TIDE_EVT.HOLDOVER) (run (setF TIDE_SRC.MODE 4) (run (updTide fun t => { t with failIn := 0 }) s)) := by
  simp [framesJudge, follows_of_member hrole hspare, hrole, hin, hsp, hm]

/-- A missing frame is noted and judged. -/
theorem run_frameMissing (spare : Bool) : run (frameMissing spare) s = run framesJudge (missed spare s) := by
  simp [frameMissing, missed, hrole, isPilot_of_member hrole hspare]

/-- A good frame on the input that a member follows is taken. -/
theorem run_frameArrives {f : BitVec 128} (hok : frameOk f = true) (hm : getF s TIDE_SRC.MODE = 1) :
    run (frameArrives false f) s = run framesJudge (run (frameTake f) (run (updTide fun t => { t with inNow := some true }) s)) := by
  simp [frameArrives, hok, hrole, isPilot_of_member hrole hspare, follows_of_member hrole hspare, hm]

end

theorem spareTake_getF {g : Fld} (hc : TIDE_COUNT.COUNT.apart g = true) (he : TIDE_EVT.PERIODMIS.apart g = true) (hp : TIDE_PERIOD.PERIOD.apart g = true)
    (i j : Nat) (s : State) : getF (run spareTake s) g i j = getF s g i j := by
  rw [spareTake, run_ask]
  split
  · exact frameTake_getF hc he hp _ _ _ _
  · rfl

theorem spareTake_tally {k : LogKind} (hk : k ≠ .logFull) (hp : k ≠ .periodMismatch) (s : State) : Safety.tally (run spareTake s) k = Safety.tally s k := by
  rw [spareTake, run_ask]
  split
  · exact frameTake_tally hk hp _ _
  · rfl

/-! Skew. -/

theorem run_skewCheck {s : State} (hp : isPilot s = false) (skew : Nat) (delay : BitVec 11) : run (skewCheck skew delay) s =
    run (Act.when (decide (50 < skew)) (Act.all [evt TIDE_EVT.SKEW, logEv .skewed (data := [skew]), setF TIDE_COMP.DELAY delay.toNat]))
      (run (updHural fun h => { h with stamp := none }) s) := by
  simp [skewCheck, follows, hp]

/-- A skew above 50 ns is recorded and compensated. -/
theorem skewCheck_of_far {s : State} (hp : isPilot s = false) {skew : Nat} (h : 50 < skew) (delay : BitVec 11) :
    getF (run (skewCheck skew delay) s) TIDE_EVT.SKEW = 1 ∧ getF (run (skewCheck skew delay) s) TIDE_COMP.DELAY = delay.toNat ∧
      Safety.Logged .skewed s (run (skewCheck skew delay) s) := by
  have hd : delay.toNat % 2 ^ TIDE_COMP.DELAY.width = delay.toNat := Nat.mod_eq_of_lt delay.isLt
  have hw : TIDE_EVT.SKEW.width = 1 := rfl
  rw [run_skewCheck hp]
  simp only [run_when, h, decide_true, if_true, run_all_cons, run_all_nil]
  refine ⟨?_, ?_, ?_⟩
  · rw [getF_setF_apart (by decide), logEv_getF, getF_evt_fits (by decide), hw]
    rfl
  · rw [getF_setF_fits (by decide), hd]
  · simp [Safety.Logged, satAdd]
    rfl

theorem skewCheck_of_near {s : State} (hp : isPilot s = false) {skew : Nat} (h : skew ≤ 50) (delay : BitVec 11) :
    run (skewCheck skew delay) s = run (updHural fun h => { h with stamp := none }) s := by
  rw [run_skewCheck hp, decide_eq_false (Nat.not_lt.mpr h)]
  rfl

/-- Settles O9, command by command: what follows the opening of the window at a mark writes neither count nor window; a frame taken writes no other field of TIDE_SRC and TIDE_EVT. -/
theorem marksAndFrames : Obligations.MarksAndFrames := by
  refine ⟨fun s used off => ?mark, fun s hp hr => ?compose, fun s f hok hrole hspare hm => ?frame, fun s hrole hspare hsp hfail => ?miss,
    fun s hrole hspare hsp hfail hm => ?second, fun s hrole hspare hin hm => ?both, fun s skew delay hp => ?skew⟩
  case mark =>
    have hw := tideMark_window used off s
    simp only [TideSt.window, Prod.mk.injEq] at hw
    obtain ⟨hg, hc, hat⟩ := hw
    exact ⟨_, rfl, tideMark_count used off s, hg, hc, hat, fun d hd => tideMark_ledger used off hd s, only_mem (changes_tideMark used off).only (by decide) s⟩
  case compose =>
    have ht := frameCompose_tide hp hr _ rfl
    refine ⟨_, rfl, ?_, ?_, only_regs changes_frameCompose.only (by decide) s, only_mem changes_frameCompose.only (by decide) s, ?_⟩ <;> rw [ht]
  case frame =>
    have hmem : (run (frameArrives false f) s).mem = s.mem := only_mem (changes_frameArrives false f).only (by decide) s
    refine ⟨_, rfl, ?_⟩
    rw [run_frameArrives hrole hspare hok hm] at hmem ⊢
    obtain ⟨htok, hdark, hin, hsr⟩ := frameTake_tide f (run (updTide fun t => { t with inNow := some true }) s)
    have hrole' : getF (run (frameTake f) (run (updTide fun t => { t with inNow := some true }) s)) TIDE_SRC.ROLE = 0 :=
      (frameTake_getF (by decide) (by decide) (by decide) f 0 0 _).trans hrole
    rw [framesJudge_of_frame hrole' (hsr.trans hspare) hin] at hmem ⊢
    refine ⟨frameTake_count f _, hin, rfl, htok, hdark, hmem⟩
  case miss =>
    have hmem : (run (frameMissing false) s).mem = s.mem := only_mem (changes_frameMissing false).only (by decide) s
    have hj := framesJudge_of_miss (s := missed false s) ((missed_getF (by decide) (by decide) false 0 0 s).trans hrole) hspare rfl hsp hfail
    refine ⟨_, rfl, ?_⟩
    rw [run_frameMissing hrole hspare, hj] at hmem ⊢
    exact ⟨missed_missIn s, rfl, missed_getF (by decide) (by decide) false 0 0 s, missed_getF (by decide) (by decide) false 0 0 s, hmem⟩
  case second =>
    have hmem : (run (frameMissing false) s).mem = s.mem := only_mem (changes_frameMissing false).only (by decide) s
    have hj := framesJudge_of_second (s := missed false s) ((missed_getF (by decide) (by decide) false 0 0 s).trans hrole) hspare rfl hsp hfail
      ((missed_getF (by decide) (by decide) false 0 0 s).trans hm)
    refine ⟨_, rfl, ?_⟩
    rw [run_frameMissing hrole hspare, hj] at hmem ⊢
    refine ⟨?_, ?_, ?_, ?_, hmem⟩
    · rw [spareTake_getF (by decide) (by decide) (by decide), logEv_getF, getF_evt_apart (by decide), getF_setF_apart (by decide), updTide_getF, missed_missIn]
    · rw [spareTake_getF (by decide) (by decide) (by decide), logEv_getF, getF_evt_apart (by decide), getF_setF_fits (by decide)]
      rfl
    · rw [spareTake_getF (by decide) (by decide) (by decide), logEv_getF, getF_evt_fits (by decide)]
      rfl
    · rw [Safety.Logged, spareTake_tally (by decide) (by decide), logEv_tally _ _ _ _ _ _ (by decide), if_pos rfl]
      simp [satAdd, missed_tally]
  case both =>
    have hmem : (run (frameMissing true) s).mem = s.mem := only_mem (changes_frameMissing true).only (by decide) s
    have hj := framesJudge_of_both (s := missed true s) ((missed_getF (by decide) (by decide) true 0 0 s).trans hrole) hspare hin rfl
      (fun h => hm ((missed_getF (by decide) (by decide) true 0 0 s).symm.trans h))
    refine ⟨_, rfl, ?_⟩
    rw [run_frameMissing hrole hspare, hj] at hmem ⊢
    refine ⟨?_, ?_, ?_, rfl, rfl, hmem⟩
    · rw [getF_evt_apart (by decide), getF_setF_apart (by decide), updTide_getF, missed_missSpare]
    · rw [getF_evt_apart (by decide), getF_setF_fits (by decide)]
      rfl
    · rw [getF_evt_fits (by decide)]
      rfl
  case skew =>
    refine ⟨_, rfl, ?_, only_mem (changes_skewCheck skew delay).only (by decide) s, fun h => skewCheck_of_far hp h delay, fun h => ?_⟩
    · rw [run_skewCheck hp]
      exact congrArg HuralSt.stamp (only_hural (changes_when (l := [.regs, .log]) (changes_cons ((changes_evt _ _ _).up rfl) (changes_cons ((changes_logEv _ _ _ _).up rfl) (changes_cons ((changes_setF _ _ _ _).up rfl) changes_nil)))).only (by decide) _)
    · rw [skewCheck_of_near hp h]
      exact ⟨rfl, rfl⟩

end Sys2Proof.Machine

/-! PROOFS. A message leaves the inbox for its command (R340, R350). -/

namespace Sys2Proof.Machine

/-- A message leaves the inbox and its buffer is free again. -/
def msgTaken (n : Nat) (e : Nat × HMsg × Nat) : Act :=
  .seq (updHural fun h => { h with inbox := h.inbox.erase e }) (Act.when (decide (n < 18)) (oweCredits n e.2.1.vc e.2.2))

theorem run_takeMsg {s : State} {n : Nat} {c : HMsg → Bool} {k : HMsg → Act} {e : Nat × HMsg × Nat}
    (h : (s.hural.inbox.find? fun e => e.1 = n && c e.2.1) = some e) : run (takeMsg n c k) s = run (k e.2.1) (run (msgTaken n e) s) := by
  simp only [takeMsg, run_ask, h, run_all_cons, run_all_nil, msgTaken, run_seq]

/-- Taking a message moves the inbox and the credits of its port, nothing else. -/
theorem run_msgTaken (n : Nat) (e : Nat × HMsg × Nat) (s : State) :
    ∃ ports, run (msgTaken n e) s = { s with hural := { s.hural with inbox := s.hural.inbox.erase e, ports := ports } } := by
  by_cases hn : n < 18
  · exact ⟨_, by simp only [msgTaken, hn, decide_true, run_seq, run_when, if_true]; rfl⟩
  · exact ⟨s.hural.ports, by simp only [msgTaken, hn, decide_false, run_seq, run_when, Bool.false_eq_true, if_false]; rfl⟩

end Sys2Proof.Machine

/-! PROOFS. Ready reports, flotilla-ready reports and deferred flips (R39 to R42, R51, R202). -/

namespace Sys2Proof.Machine

/-! Ready reports. -/

/-- What a package sends to its own berth joins its own inbox, while it has not given the berth up. -/
theorem run_sendNote_own {s : State} {b : Nat} (hb : b = ownBerth s) (hr : getF s SHD_STAT.ROLE ≠ 3) (op addr : Nat) :
    let m : HMsg := { op := op, src := ownBerth s, dst := b, addr := addr }
    run (sendNote op b addr) s = run (updHural fun h => { h with inbox := h.inbox ++ [(18, m, flitsOf m.size)] }) s := by
  have hserves : servesBerth s b = true := by simp [servesBerth, hb]
  simp [sendNote, sendMsg, deliver, hserves, hr]

/-- A set is reported. -/
def reported (set : SetNo) : Act := updTide fun t => { t with sets := t.sets.map fun x => if x.set = set then { x with reported := true } else x }

theorem reported_sets (set : SetNo) (s : State) {y : SetSt} (hy : y ∈ (run (reported set) s).tide.sets) (hset : y.set = set) : y.reported = true := by
  simp only [reported, updTide_tide, List.mem_map] at hy
  obtain ⟨x, -, rfl⟩ := hy
  split
  · rfl
  · rename_i hne
    rw [if_neg hne] at hset
    exact absurd hset hne

/-- The report of a finished set goes to the pilots. -/
theorem run_readyReport {s : State} {x : SetSt} (hx : x ∈ s.tide.sets) (hrep : x.reported = false) (hdue : x.due = true) (hdone : setDone s x = true)
    (hc : isCommitted s x.set = false) (hm : mirrorsOpen s = false) :
    run (readyReport x.set) s = run (Act.each (fun b => sendNote 0x10 b x.set.toNat) (pilots s)) (run (reported x.set) s) := by
  simp only [readyReport, run_ask]
  split
  case h_1 hnone =>
    have := List.find?_eq_none.mp hnone x hx
    simp [hrep, hdue, hdone, hc] at this
  case h_2 => simp only [hm, Bool.false_eq_true, if_false, run_seq, reported]

/-! Flotilla-ready reports. -/

/-- A report that is added is the one kept of its flotilla and set. -/
theorem freadyOf_freadyAdd (set : SetNo) (f : Nat) (tide : BitVec 48) (s : State) : freadyOf (run (freadyAdd set f tide) s) set f = some tide := by
  have hrest : ∀ l : List FReadySt, (l.filter fun x => !(decide (x.set = set) && decide (x.flotilla = f))).find? (fun x => decide (x.set = set) && decide (x.flotilla = f)) = none := fun l =>
    List.find?_eq_none.mpr fun x hx hxk => by simpa [hxk] using (List.mem_filter.mp hx).2
  rw [freadyOf, freadyAdd, updTide_tide, List.find?_append, hrest, List.find?_singleton]
  simp

theorem freadyOf_congr {s t : State} (h : t.tide = s.tide) (set : SetNo) (f : Nat) : freadyOf t set f = freadyOf s set f := by rw [freadyOf, freadyOf, h]

/-- Each message of a list is sent. -/
theorem mem_out_each_send {α : Type} {g : α → Out} {l : List α} {x : α} (hx : x ∈ l) (s : State) : g x ∈ (run (Act.each (fun x => send (g x)) l) s).out := by
  have hkeep : ∀ (l : List α) (o : Out) (s : State), o ∈ s.out → o ∈ (run (Act.each (fun x => send (g x)) l) s).out := by
    intro l o
    induction l with
    | nil => exact fun s h => h
    | cons y l ih => exact fun s h => ih _ (List.mem_cons_of_mem _ h)
  induction l generalizing s with
  | nil => simp at hx
  | cons y l ih =>
    rcases List.mem_cons.mp hx with rfl | h
    · exact hkeep l _ _ List.mem_cons_self
    · exact ih h _

theorem run_freadySend {s : State} {set : SetNo} {others : List Nat} (hp : isPilot s = true) (hr : readyThrough s set = true) (hc : isCommitted s set = false)
    (hx : s.tide.crossSets.any (fun e => decide (e.1 = set)) = false) :
    run (freadySend set others) s = run (Act.each (fun f => send (.fready set f (BitVec.ofNat 48 (getF s TIDE_COUNT.COUNT)))) others)
      (run (freadyAdd set ownFlotilla (BitVec.ofNat 48 (getF s TIDE_COUNT.COUNT))) (run (updTide fun t => { t with crossSets := t.crossSets ++ [(set, others)] }) s)) := by
  have hcomp : composes s = true := by simp [composes, hp]
  simp only [freadySend, run_ask, hcomp, hr, hc, hx, hp, run_when, run_all_cons, run_all_nil, Bool.not_false, Bool.and_self, if_true]

/-- A flotilla-ready report is kept; it may make the token late, which is logged. -/
theorem freadyTake_spec {s : State} {f : Nat} {set : SetNo} {tide : BitVec 48} (hp : isPilot s = true) (hc : isCommitted s set = false) (hf : f ≠ ownFlotilla) :
    freadyOf (run (freadyTake f set tide) s) set f = some tide := by
  have hcomp : composes s = true := by simp [composes, hp]
  refine (freadyOf_congr ?_ set f).trans (freadyOf_freadyAdd set f tide s)
  simp only [freadyTake, run_ask, hcomp, hc, hf, run_when, ne_eq, not_false_eq_true, decide_true, Bool.not_false, Bool.and_self, if_true, run_seq]
  split
  · rw [run_when]
    split
    · exact logEv_tide _ _ _ _ _
    · rfl
  · rfl

/-! Deferred flips. -/

theorem groupLive_setBitF {g : Nat} (b : Bool) (s : State) : groupLive (run (setBitF UPD_LIVE.LIVE (g % 64) b (g / 64)) s) g = b := by
  have hk : g % 64 < UPD_LIVE.LIVE.width := Nat.mod_lt _ (by decide)
  rw [groupLive, bitOf_getF_setBitF (by decide) hk, if_pos rfl]

theorem writes_flipStore (a : Nat) (bs : List Byte) : (pkgWrite a bs).Writes [.COH_HOLDSNP] := writes_pkgWrite (by decide) a bs

@[simp] theorem updUpd_getReg (f : UpdSt → UpdSt) (r : RegName) (m n : Nat) (s : State) : getReg (run (updUpd f) s) r m n = getReg s r m n := (rfl)
@[simp] theorem updUpd_getF (f : UpdSt → UpdSt) (x : Fld) (m n : Nat) (s : State) : getF (run (updUpd f) s) x m n = getF s x m n := (rfl)
@[simp] theorem updUpd_upd (f : UpdSt → UpdSt) (s : State) : (run (updUpd f) s).upd = f s.upd := (rfl)

/-- What a flip does after LIVE: PEND clears and the delay ends. -/
theorem flipEnd_spec (g : Nat) (s : State) :
    let t := run (updUpd fun x => { x with delayed := Cells.del x.delayed g, extent := Cells.del x.extent g }) (run (setBitF UPD_PEND.PEND (g % 64) false (g / 64)) s)
    groupLive t g = groupLive s g ∧ bitOf (getF t UPD_PEND.PEND (g / 64)) (g % 64) = false ∧ Cells.look t.upd.delayed g = none := by
  have hk : g % 64 < UPD_PEND.PEND.width := Nat.mod_lt _ (by decide)
  refine ⟨groupLive_congr (fun k => ?_) g, ?_, ?_⟩
  · rw [updUpd_getReg, setBitF, getReg_modF _ _ _ _ _ _ (by decide)]
  · rw [updUpd_getF, bitOf_getF_setBitF (by decide) hk, if_pos rfl]
  · rw [updUpd_upd]
    exact (Cells.look_del _ _ _).trans (if_pos rfl)

/-- A flip toggles LIVE of its group, clears its PEND bit and ends its delay. -/
theorem flipGroup_spec (g : Nat) (s : State) :
    groupLive (run (flipGroup g) s) g = !groupLive s g ∧ bitOf (getF (run (flipGroup g) s) UPD_PEND.PEND (g / 64)) (g % 64) = false ∧
      Cells.look (run (flipGroup g) s).upd.delayed g = none := by
  simp only [flipGroup, run_all_cons, run_all_nil, run_ask]
  obtain ⟨hlive, hpend, hdelay⟩ := flipEnd_spec g (run (pkgWrite (groupAddr (run (setBitF UPD_LIVE.LIVE (g % 64) (!groupLive s g) (g / 64)) s) g + 0x1C)
    (natLe (b2n (groupLive (run (setBitF UPD_LIVE.LIVE (g % 64) (!groupLive s g) (g / 64)) s) g)) 1)) (run (setBitF UPD_LIVE.LIVE (g % 64) (!groupLive s g) (g / 64)) s))
  refine ⟨hlive.trans ?_, hpend, hdelay⟩
  rw [groupLive_congr fun k => (writes_flipStore _ _).getReg (by decide) k 0 _, groupLive_setBitF]

theorem run_deferredCommit {s : State} {g : Nat} {l : List FlipReader} (hl : Cells.look s.upd.delayed g = some l) :
    run (deferredCommit g) s = if l.any fun r => r.unfinished s then s else run setCommitted (run (flipGroup g) s) := by
  simp only [deferredCommit, run_ask, hl]
  split <;> rfl

theorem setCommitted_getF (f : Fld) (i j : Nat) (s : State) : getF (run setCommitted s) f i j = getF s f i j :=
  (writes_of_changes (l := []) changes_setCommitted (by decide)).getF (by simp) i j s

/-- Settles O12: a report of the package to itself as pilot joins its inbox; a report received or kept is found where it was put; a delayed flip waits for its readers. -/
theorem readyReportsAndDeferredCommits : Obligations.ReadyReportsAndDeferredCommits := by
  refine ⟨fun s x hx hrep hdue hdone hc hm hpil hr => ?send, fun s n e he => ?take, fun s set others hp hr hc hx => ?fsend, fun s f set tide hp hc hf => ?ftake,
    fun s g l hl => ?flip⟩
  case send =>
    have hnote := run_sendNote_own (s := run (reported x.set) s) (b := ownBerth s) rfl hr 0x10 x.set.toNat
    refine ⟨_, rfl, ?_, ?_, only_mem (changes_readyReport x.set).only (by decide) s⟩ <;>
      rw [run_readyReport hx hrep hdue hdone hc hm, hpil, run_each_cons, hnote]
    · exact fun y hy hset => reported_sets x.set s hy hset
    · exact ⟨_, _, List.mem_append_right _ List.mem_cons_self, rfl, rfl, rfl⟩
  case take =>
    obtain ⟨ports, ht⟩ := run_msgTaken n.val e s
    refine ⟨_, congrArg Host.Outcome.next (run_takeMsg he), ?_⟩
    rw [ht]
    refine ⟨?_, rfl, rfl⟩
    show _ ∈ if _ then _ else _
    split
    · rename_i h; exact List.contains_iff_mem.mp h
    · exact List.mem_append_right _ List.mem_cons_self
  case fsend =>
    refine ⟨_, rfl, ?_, ?_, only_mem (changes_freadySend set others).only (by decide) s⟩ <;> rw [run_freadySend hp hr hc hx]
    · exact fun f hf => mem_out_each_send (g := fun f => .fready set f _) hf _
    · rw [freadyOf_congr (only_tide (changes_each fun _ => changes_send _).only (by decide) _), freadyOf_freadyAdd]
  case ftake =>
    exact ⟨_, rfl, freadyTake_spec hp hc hf, only_regs (changes_freadyTake f set tide).only (by decide) s, only_mem (changes_freadyTake f set tide).only (by decide) s⟩
  case flip =>
    refine ⟨_, rfl, fun h => ?_, fun h => ?_⟩
    · rw [run_deferredCommit hl, if_pos h]
    · obtain ⟨hlive, hpend, hdelay⟩ := flipGroup_spec g.val s
      rw [run_deferredCommit hl, if_neg (by simp [h]), only_upd changes_setCommitted.only (by decide), setCommitted_getF, groupLive, setCommitted_getF]
      exact ⟨hlive, hpend, hdelay⟩

end Sys2Proof.Machine

/-! PROOFS. What the rest of a boundary spares: after grace end has latched the slips and counted the catch-up tides, no later program of the boundary writes TIDE_PLAN or TIDE_UNIT, opens the grace window again or moves the committed set (Table 2-3). -/

namespace Sys2Proof.Machine

/-- The registers of the slips and catch-up tides. -/
def planRegs : List RegName := [.TIDE_PLAN, .TIDE_UNIT]

/-- The latched slip of a partition. -/
def TideSt.slip (t : TideSt) (p : Nat) : Bool := (Cells.get {} t.parts p).slip

/-- What grace end has decided is the same; with `slips`, also the slips. -/
def TideSt.Agrees (slips : Bool) (t u : TideSt) : Prop :=
  t.grace = u.grace ∧ t.takeDue = u.takeDue ∧ t.committed = u.committed ∧ t.token = u.token ∧ (slips = true → t.slip = u.slip)

theorem TideSt.Agrees.refl {slips : Bool} (t : TideSt) : t.Agrees slips t := ⟨rfl, rfl, rfl, rfl, fun _ => rfl⟩

theorem TideSt.Agrees.trans {slips : Bool} {t u v : TideSt} (h : t.Agrees slips u) (k : u.Agrees slips v) : t.Agrees slips v := by
  obtain ⟨hg, hd, hc, ht, hs⟩ := h
  obtain ⟨kg, kd, kc, kt, ks⟩ := k
  exact ⟨hg.trans kg, hd.trans kd, hc.trans kc, ht.trans kt, fun hb => (hs hb).trans (ks hb)⟩

/-- An update that writes none of these registers and keeps what grace end decided. -/
def Prim.Spares (slips : Bool) : Prim → Prop
  | .reg r _ _ _ => planRegs.contains r = false
  | .regsReset c => planRegs.any c = false
  | .tide f => ∀ t, (f t).Agrees slips t
  | _ => True

/-- A program of such updates; folded, so that a proof follows the program's own form. -/
@[irreducible] def Act.Spares (slips : Bool) (a : Act) : Prop := a.Within (Prim.Spares slips)

theorem Act.Spares.within {slips : Bool} {a : Act} (h : a.Spares slips) : a.Within (Prim.Spares slips) := by unfold Act.Spares at h; exact h
theorem Act.Within.spares {slips : Bool} {a : Act} (h : a.Within (Prim.Spares slips)) : a.Spares slips := by unfold Act.Spares; exact h

theorem Act.Spares.agrees {slips : Bool} {a : Act} (h : a.Spares slips) (s : State) : (run a s).tide.Agrees slips s.tide :=
  run_rel (R := fun x y => y.tide.Agrees slips x.tide) (fun _ => .refl _) (fun h k => k.trans h) h.within (fun p hp s => by
    cases p
    case tide f => exact hp _
    all_goals exact .refl _) s

theorem Act.Spares.getReg {slips : Bool} {a : Act} (h : a.Spares slips) {q : RegName} (hq : planRegs.contains q = true) (m n : Nat) (s : State) :
    getReg (run a s) q m n = Machine.getReg s q m n :=
  run_same (fun s => Machine.getReg s q m n) (Act.Within.mono (fun p hp s => by
    cases p
    case reg r i j v => exact getReg_apply_reg_name _ _ _ _ _ _ fun hr => by simp_all [Prim.Spares]
    case regsReset c =>
      have hc : c q = false := by simpa using List.any_eq_false.mp hp q (List.contains_iff_mem.mp hq)
      simp [hc]
    all_goals rfl) h.within) s

theorem Act.Changes.spares {slips : Bool} {l : List Part} {a : Act} (h : a.Changes l) (hl : (l.contains .regs || l.contains .tide) = false) :
    a.Spares slips := by
  refine Act.Within.spares (Act.Within.mono (fun p hp => ?_) h.only)
  have hp := List.contains_iff_mem.mpr hp
  cases p
  case reg | regsReset | tide => simp_all [Prim.part]
  all_goals trivial

theorem Act.Within.and {P Q : Prim → Prop} {a : Act} (h : a.Within P) (k : a.Within Q) : a.Within fun p => P p ∧ Q p := by
  induction a with
  | skip => trivial
  | prim p => exact ⟨h, k⟩
  | seq a b iha ihb => exact ⟨iha h.1 k.1, ihb h.2 k.2⟩
  | ask f ih => exact fun s => ih s (h s) (k s)

section
variable {slips : Bool}

theorem spares_skip : Act.skip.Spares slips := Act.Within.spares trivial

theorem spares_prim {p : Prim} (h : p.Spares slips) : (Act.prim p).Spares slips := Act.Within.spares h

theorem spares_seq {x y : Act} (hx : x.Spares slips) (hy : y.Spares slips) : (Act.seq x y).Spares slips := Act.Within.spares ⟨hx.within, hy.within⟩

theorem spares_ask {f : State → Act} (hf : ∀ s, (f s).Spares slips) : (Act.ask f).Spares slips := Act.Within.spares fun s => (hf s).within

theorem spares_cons {x : Act} {l : List Act} (hx : x.Spares slips) (hl : (Act.all l).Spares slips) : (Act.all (x :: l)).Spares slips := spares_seq hx hl

theorem spares_last {x : Act} (hx : x.Spares slips) : (Act.all [x]).Spares slips := spares_cons hx spares_skip

theorem spares_withFree {g : (Nat → Nat) → Act} (h : ∀ f, (g f).Spares slips) : (withFree g).Spares slips :=
  spares_seq (spares_ask fun _ => h _) (spares_prim trivial)

theorem spares_ite {c : Prop} {d : Decidable c} {x y : Act} (hx : x.Spares slips) (hy : y.Spares slips) : (if c then x else y).Spares slips := by
  split <;> assumption

theorem spares_when {c : Bool} {x : Act} (hx : x.Spares slips) : (Act.when c x).Spares slips := Act.Within.spares ((within_when _ _).mpr fun _ => hx.within)

theorem spares_given {c : State → Bool} {x : Act} (hx : x.Spares slips) : (Act.given c x).Spares slips :=
  Act.Within.spares ((within_given _ _).mpr fun _ _ => hx.within)

theorem spares_each {α : Type} {f : α → Act} {l : List α} (hf : ∀ x ∈ l, (f x).Spares slips) : (Act.each f l).Spares slips :=
  Act.Within.spares ((within_each _ _).mpr fun x hx => (hf x hx).within)

theorem spares_setF {f : Fld} (x i j : Nat) (h : planRegs.contains f.reg = false) : (setF f x i j).Spares slips := spares_ask fun _ => spares_prim h
theorem spares_modF {f : Fld} (g : Nat → Nat) (i j : Nat) (h : planRegs.contains f.reg = false) : (modF f g i j).Spares slips := spares_ask fun _ => spares_prim h
theorem spares_incF {f : Fld} (n i j : Nat) (h : planRegs.contains f.reg = false) : (incF f n i j).Spares slips := spares_modF _ i j h
theorem spares_addF {f : Fld} (n i j : Nat) (h : planRegs.contains f.reg = false) : (addF f n i j).Spares slips := spares_modF _ i j h
theorem spares_evt {f : Fld} (i j : Nat) (h : planRegs.contains f.reg = false) : (evt f i j).Spares slips := spares_setF _ i j h
theorem spares_setBitF {f : Fld} (k : Nat) (v : Bool) (i j : Nat) (h : planRegs.contains f.reg = false) : (setBitF f k v i j).Spares slips := spares_modF _ i j h

/-- What writes other registers and no part of the tide's state. -/
theorem spares_of_writes {l : List RegName} {k : List Part} {a : Act} (h : a.Writes l) (hk : a.Changes k) (hl : l.any planRegs.contains = false)
    (ht : k.contains .tide = false) : a.Spares slips := by
  refine Act.Within.spares (Act.Within.mono (fun p hp => ?_) (Act.Within.and h hk.only))
  obtain ⟨hw, hpart⟩ := hp
  cases p
  case reg r i j v => exact Bool.eq_false_iff.mpr (List.any_eq_false.mp hl r hw)
  case regsReset c => exact hw.elim
  case tide f => exact absurd (List.contains_iff_mem.mpr hpart) (by rw [Prim.part, ht]; exact Bool.false_ne_true)
  all_goals trivial

theorem spares_pkgWrite (a : Nat) (bs : List Byte) : (pkgWrite a bs).Spares slips :=
  spares_of_writes (writes_pkgWrite (l := [.COH_HOLDSNP]) (by decide) _ _) (changes_pkgWrite _ _) rfl rfl

theorem spares_storeMem (w : Writer) (a : Nat) (bs : List Byte) : (storeMem w a bs).Spares slips :=
  spares_of_writes (writes_storeMem (l := [.COH_HOLDSNP]) (by decide) _ _ _) (changes_storeMem _ _ _) rfl rfl

theorem spares_trace (u e o i : Nat) : (trace u e o i).Spares slips :=
  spares_of_writes (writes_trace (l := [.COH_HOLDSNP]) (by decide) _ _ _ _) (changes_trace _ _ _ _) rfl rfl

theorem spares_progress (u : Nat) : (progress u).Spares slips := spares_prim fun _ => ⟨rfl, rfl, rfl, rfl, fun _ => rfl⟩

theorem spares_updTide {f : TideSt → TideSt} (h : ∀ t, (f t).Agrees slips t) : (updTide f).Spares slips := spares_prim h

theorem spares_reportsForgotten (l : List Nat) : (reportsForgotten l).Spares slips := spares_ask fun _ => spares_prim fun _ => ⟨rfl, rfl, rfl, rfl, fun _ => rfl⟩

/-- A compute reset drops the slips with the plans. -/
theorem spares_plansDrop : plansDrop.Spares false := spares_ask fun _ => spares_prim fun _ => ⟨rfl, rfl, rfl, rfl, fun h => Bool.noConfusion h⟩

/-! The programs. -/

theorem spares_zeroMem (a n : Nat) : (zeroMem a n).Spares slips := spares_pkgWrite _ _

theorem spares_amendEnd (reason : Nat) : (amendEnd reason).Spares slips :=
  spares_cons (spares_setF _ _ _ rfl) <| spares_cons (spares_setF _ _ _ rfl) <| spares_cons (spares_setF _ _ _ rfl) <| spares_cons (spares_setF _ _ _ rfl) <|
    spares_cons (spares_setF _ _ _ rfl) <| spares_last ((changes_updChart _).spares rfl)

theorem spares_amendReject (reason : Nat) : (amendReject reason).Spares slips :=
  spares_cons (spares_amendEnd _) <| spares_cons (spares_evt _ _ rfl) <| spares_last ((changes_logEv _ _ _ _).spares rfl)

theorem spares_traceItem (u event : Nat) (d : Desc) : (traceItem u event d).Spares slips := spares_seq (spares_trace _ _ _ _) (spares_when (spares_progress _))

theorem spares_itemFault (u : Nat) (k : Eng) (reg : RegName) (kind : LogKind) (d : Desc) (code : Nat) (h : planRegs.contains reg = false) :
    (itemFault u k reg kind d code).Spares slips :=
  spares_cons ((changes_updEng _ _ _).spares rfl) <| spares_cons (spares_prim h) <| spares_cons ((changes_logEv _ _ _ _).spares rfl) <|
    spares_last (spares_traceItem _ _ _)

theorem spares_faultRecord (type obj unit addr : Nat) : (faultRecord type obj unit addr).Spares slips :=
  spares_ask fun _ => spares_ite (spares_cons (spares_addF _ _ _ rfl) <| spares_last (spares_evt _ _ rfl)) (spares_cons (spares_pkgWrite _ _) <|
    spares_last (spares_setF _ _ _ rfl))

theorem spares_absentRecord (unit a : Nat) : (absentRecord unit a).Spares slips := spares_ask fun _ => spares_faultRecord _ _ _ _

theorem spares_setPage (n : Nat) (f : PageEnt → PageEnt) : (setPage n f).Spares slips :=
  spares_ask fun _ => spares_cons ((changes_updTier _).spares rfl) <| spares_last (spares_pkgWrite _ _)

theorem spares_unpoison (va obj : Nat) (was : Bool) : (unpoison va obj was).Spares slips :=
  spares_when (spares_cons ((changes_updTier _).spares rfl) <| spares_cons (spares_ask fun _ => spares_pkgWrite _ _) <|
    spares_last (spares_ask fun _ => spares_when (spares_setPage _ _)))

theorem spares_frameUnpoison (x : Nat) (was : Bool) : (frameUnpoison x was).Spares slips :=
  spares_ask fun _ => by
    split
    · exact spares_unpoison _ _ _
    · exact spares_skip

theorem spares_touchPage (n : Nat) : (touchPage n).Spares slips :=
  spares_ask fun _ => spares_cons (spares_ite (spares_withFree fun _ => spares_skip) ((changes_updTier _).spares rfl)) <| spares_last (spares_when (spares_pkgWrite _ _))

theorem spares_usePage (a : Nat) : (usePage a).Spares slips := spares_when (spares_touchPage _)

theorem spares_writePiece (w : Writer) (rebuild : Bool) (a : Nat) (bs : List Byte) : (writePiece w rebuild a bs).Spares slips := by
  refine spares_ask fun s => spares_cons (spares_usePage _) (spares_last ?_)
  have hdiscard : (specDiscard w a).Spares slips := ((changes_specDiscard _ _).spares rfl)
  split
  case h_1 x obj _ =>
    refine spares_ite hdiscard ?_
    cases obj with
    | none => exact spares_cons (spares_storeMem _ _ _) <| spares_last (spares_when (spares_frameUnpoison _ _))
    | some o => exact spares_cons (spares_storeMem _ _ _) <| spares_last (spares_unpoison _ _ _)
  case h_2 =>
    exact spares_ite hdiscard <| spares_cons (spares_when (spares_cons ((changes_updTier _).spares rfl) <| spares_last (spares_unpoison _ _ _))) <|
      spares_last ((changes_farWrite _ _ _ _ _).spares rfl)
  case h_3 =>
    refine spares_ite hdiscard (spares_cons ?_ <| spares_last ((changes_send _).spares rfl))
    split
    · exact ((changes_farNote _ _ _ _).spares rfl)
    · exact spares_skip
  case h_4 => exact spares_skip

theorem spares_mapWrite (w : Writer) (rebuild : Bool) (a : Nat) (bs : List Byte) : (mapWrite w rebuild a bs).Spares slips :=
  spares_cons (spares_each fun _ _ => spares_writePiece _ _ _ _) <| spares_last (spares_ask fun _ => by
    split
    · exact ((changes_clearBlocks _ _ _).spares rfl)
    · exact spares_skip)

theorem spares_piecesDone (l : List Piece) : (piecesDone l).Spares slips :=
  spares_ask fun _ => spares_each fun _ _ => spares_cons (spares_usePage _) <| spares_last (by
    split
    · exact ((changes_send _).spares rfl)
    · exact spares_skip)

theorem spares_readDone (a n : Nat) : (readDone a n).Spares slips := spares_piecesDone _

theorem spares_readFar (who : Agent) (p : Piece) : (readFar who p).Spares slips :=
  spares_ask fun _ => by
    split
    · exact spares_cons (spares_usePage _) <| spares_last ((changes_sendRead _ _ _ _).spares rfl)
    · exact spares_withFree fun _ => spares_cons ((changes_respond _ _ _).spares rfl) <| spares_last (spares_readDone _ _)

theorem spares_accessServe (who : Agent) (addr : Addr) (op : AccessOp) : (accessServe who addr op).Spares slips := by
  unfold accessServe
  split
  · exact spares_ask fun _ => spares_ite (spares_each fun _ _ => spares_readFar _ _) (spares_withFree fun _ => spares_ask fun _ => spares_cons ((changes_respond _ _ _).spares rfl) <|
      spares_last (spares_readDone _ _))
  · exact spares_cons (spares_mapWrite _ _ _ _) <| spares_last ((changes_respond _ _ _).spares rfl)

theorem spares_setObjState (o v : Nat) : (setObjState o v).Spares slips := spares_ask fun _ => spares_pkgWrite _ _

theorem spares_objectPoisoned (n va lines type unit : Nat) : (objectPoisoned n va lines type unit).Spares slips :=
  spares_ask fun _ => spares_cons (spares_setPage _ _) <| spares_cons (spares_pkgWrite _ _) <| spares_cons (spares_when (spares_pkgWrite _ _)) <|
    spares_cons (spares_setObjState _ _) <| spares_last (spares_faultRecord _ _ _ _)

theorem spares_stallWaits (who : Agent) (addr : Addr) (job : WaitJob) (st : StallAt) (fresh : Bool) : (stallWaits who addr job st fresh).Spares slips :=
  spares_ask fun _ => spares_cons (spares_when (spares_absentRecord _ _)) <| spares_last ((changes_accessWaits _ _ _ _ _).spares rfl)

theorem spares_memAccess (who : Agent) (addr : Addr) (op : AccessOp) (fresh : Bool) : (memAccess who addr op fresh).Spares slips :=
  spares_ask fun _ => by
    dsimp only
    split
    · exact ((changes_accessFault _ _).spares rfl)
    · exact spares_stallWaits _ _ _ _ _
    · exact spares_ite ((changes_accessWaits _ _ _ _ _).spares rfl) (spares_ite ((changes_accessWaits _ _ _ _ _).spares rfl) (spares_accessServe _ _ _))

theorem spares_pageLost (n : Nat) : (pageLost n).Spares slips :=
  spares_ask fun _ => spares_cons ((changes_updTier _).spares rfl) <| spares_cons (spares_objectPoisoned _ _ _ _ _) <| spares_cons (spares_evt _ _ rfl) <|
    spares_cons (spares_evt _ _ rfl) <| spares_last ((changes_logEv _ _ _ _).spares rfl)

theorem spares_unitStall (k : Nat) (st : StallAt) : (unitStall k st).Spares slips :=
  spares_ask fun _ => spares_cons (spares_when (spares_incF _ _ _ rfl)) <| spares_cons (spares_when (spares_absentRecord _ _)) <|
    spares_last ((changes_updTier _).spares rfl)

theorem spares_grantWaiting (n : Nat) : (grantWaiting n).Spares slips := by
  induction n with
  | zero => exact spares_skip
  | succ n ih =>
    refine spares_ask fun s => ?_
    split
    · exact spares_cons ((changes_updHural _).spares rfl) <| spares_cons ((changes_fillFrame _ _).spares rfl) <| spares_cons ((changes_updTier _).spares rfl) <|
        spares_cons (spares_modF _ _ _ rfl) <|
        spares_cons (spares_modF _ _ _ rfl) <| spares_cons ((changes_sendMsg _).spares rfl) <| spares_last ih
    · exact spares_skip

theorem spares_lentFreed (frame : Nat) : (lentFreed frame).Spares slips :=
  spares_ask fun _ => spares_when (spares_cons ((changes_updTier _).spares rfl) <| spares_cons (spares_modF _ _ _ rfl) <| spares_cons (spares_modF _ _ _ rfl) <|
    spares_last (spares_grantWaiting _))

theorem spares_migStatus (v : Nat) : (migStatus v).Spares slips := spares_ask fun _ => by
    split
    · exact spares_pkgWrite _ _
    · exact spares_skip

theorem spares_migFinish (v : Nat) : (migFinish v).Spares slips :=
  spares_cons (spares_migStatus _) <| spares_cons ((changes_updTier _).spares rfl) <| spares_last (spares_ask fun _ => spares_setF _ _ _ rfl)

theorem spares_quotaJudge (old : Nat → Nat) (a : Nat) : (quotaJudge old a).Spares slips :=
  spares_ask fun _ => spares_cons (spares_when (spares_setF _ _ _ rfl)) <| spares_cons (spares_when (spares_setF _ _ _ rfl)) <|
    spares_cons (spares_when (spares_setF _ _ _ rfl)) <| spares_cons (spares_when (spares_setF _ _ _ rfl)) <|
    spares_last (spares_when (spares_cons (spares_evt _ _ rfl) <| spares_last ((changes_logEv _ _ _ _).spares rfl)))

theorem spares_quotaCheck (old : Nat → Nat → Nat) : (quotaCheck old).Spares slips := spares_each fun _ _ => spares_quotaJudge _ _

theorem spares_ageForecast (d : Nat) : (ageForecast d).Spares slips :=
  spares_ask fun _ => spares_cons (spares_setF _ _ _ rfl) <| spares_last (spares_setF _ _ _ rfl)

theorem spares_allotMiss (d : Nat) : (allotMiss d).Spares slips :=
  spares_ask fun _ => by
    split
    · exact spares_skip
    · exact spares_cons (spares_addF _ _ _ rfl) <| spares_cons (spares_evt _ _ rfl) <| spares_cons (spares_setF _ _ _ rfl) <|
        spares_cons ((changes_updEn _).spares rfl) <| spares_cons (spares_ask fun _ => spares_when ((changes_updEn _).spares rfl)) <|
        spares_last (spares_when ((changes_hostClock _).spares rfl))

theorem spares_dieClock (d : Nat) : (dieClock d).Spares slips :=
  spares_ask fun _ => spares_cons (spares_setF _ _ _ rfl) <| spares_cons (spares_setF _ _ _ rfl) <| spares_last (spares_setF _ _ _ rfl)

theorem spares_hostState : hostState.Spares slips :=
  spares_ask fun _ => spares_cons (spares_setF _ _ _ rfl) <| spares_cons (spares_setF _ _ _ rfl) <| spares_last ((changes_updEn _).spares rfl)

theorem spares_offsetApplies (o : Nat × BitVec 8) : (offsetApplies o).Spares slips :=
  spares_ask fun _ => spares_cons (spares_when (spares_cons (spares_incF _ _ _ rfl) <| spares_last (spares_evt _ _ rfl))) <| spares_cons (spares_setF _ _ _ rfl) <|
    spares_last (spares_ageForecast _)

theorem spares_clockStates : clockStates.Spares slips :=
  spares_ask fun _ => spares_cons (spares_each fun _ _ => spares_offsetApplies _) <| spares_cons (spares_each fun _ _ => spares_dieClock _) <|
    spares_cons spares_hostState <| spares_last ((changes_updEn _).spares rfl)

theorem spares_gradClose (p l : Nat) (nonzero : Bool) : (gradClose p l nonzero).Spares slips :=
  spares_ask fun _ => spares_cons (spares_pkgWrite _ _) <| spares_last (spares_when (spares_cons (spares_evt _ _ rfl) <|
    spares_last ((changes_logEv _ _ _ _).spares rfl)))

theorem spares_setLoss (p old new : Nat) (bound : Bool) : (setLoss p old new bound).Spares slips :=
  spares_cons (spares_setF _ _ _ rfl) <| spares_cons (spares_setF _ _ _ rfl) <| spares_cons (spares_when (spares_evt _ _ rfl)) <|
    spares_cons (spares_when (spares_evt _ _ rfl)) <| spares_cons (spares_when (spares_evt _ _ rfl)) <|
    spares_last (spares_when ((changes_logEv _ _ _ _).spares rfl))

theorem spares_lossClose (p : Nat) : (lossClose p).Spares slips :=
  spares_ask fun _ => spares_cons (spares_when (spares_pkgWrite _ _)) <|
    spares_last (spares_ite (spares_setLoss _ _ _ _) (spares_ite (spares_setLoss _ _ _ _) (spares_setF _ _ _ rfl)))

theorem spares_slotClose (p i : Nat) : (slotClose p i).Spares slips :=
  spares_ask fun _ => spares_cons (spares_when (spares_cons (spares_pkgWrite _ _) <| spares_cons (spares_pkgWrite _ _) <| spares_cons (spares_pkgWrite _ _) <|
    spares_last (spares_pkgWrite _ _))) <| spares_last (spares_when (spares_pkgWrite _ _))

theorem spares_watchClose (p l : Nat) (bins : List Nat) : (watchClose p l bins).Spares slips :=
  spares_ask fun _ => spares_cons (spares_each fun _ _ => spares_pkgWrite _ _) <| spares_cons (spares_pkgWrite _ _) <|
    spares_last (spares_when (spares_cons (spares_evt _ _ rfl) <| spares_last (spares_ask fun _ => ((changes_logEv _ _ _ _).spares rfl))))

theorem spares_stepCloseNum (p : Nat) : (stepCloseNum p).Spares slips :=
  spares_cons (spares_lossClose _) <| spares_cons (spares_ask fun _ => spares_each fun _ _ => spares_slotClose _ _) <|
    spares_cons (spares_ask fun _ => spares_each fun _ _ => spares_gradClose _ _ _) <|
    spares_cons (spares_ask fun _ => spares_each fun _ _ => spares_watchClose _ _ _) <| spares_cons (spares_ask fun _ => spares_cons (spares_zeroMem _ _) <|
    spares_cons (spares_setF _ _ _ rfl) <| spares_last (spares_setF _ _ _ rfl)) <| spares_last ((changes_updNum _).spares rfl)

theorem spares_copiesEnd : copiesEnd.Spares slips :=
  spares_ask fun _ => spares_each fun _ _ => spares_each fun _ _ => spares_withFree fun _ => spares_ask fun _ => spares_cons ((changes_unitGoes _).spares rfl) <|
    spares_cons (spares_mapWrite _ _ _ _) <| spares_last ((changes_cmdEnds _ _ _ _ _).spares rfl)

theorem spares_flipGroup (g : Nat) : (flipGroup g).Spares slips :=
  spares_cons (spares_ask fun _ => spares_setBitF _ _ _ _ rfl) <| spares_cons (spares_ask fun _ => spares_pkgWrite _ _) <| spares_cons (spares_setBitF _ _ _ _ rfl) <|
    spares_last ((changes_updUpd _).spares rfl)

theorem spares_commitPending : commitPending.Spares slips :=
  spares_ask fun _ => spares_cons (spares_setF _ _ _ rfl) <|
    spares_last (spares_each fun _ _ => spares_ite spares_skip (spares_ite (spares_flipGroup _) ((changes_updUpd _).spares rfl)))

theorem spares_computeEta (step : Nat) : (computeEta step).Spares slips :=
  spares_withFree fun _ => spares_ask fun _ => spares_cons (spares_setF _ _ _ rfl) <| spares_cons (spares_setF _ _ _ rfl) <| spares_last (spares_setF _ _ _ rfl)

theorem spares_discardPending : discardPending.Spares slips :=
  spares_ask fun _ => spares_when (spares_cons (spares_when ((changes_setDiscarded _).spares rfl)) <| spares_cons (spares_each fun _ _ => spares_setF _ _ _ rfl) <|
    spares_cons (spares_setF _ _ _ rfl) <| spares_cons ((changes_updUpd _).spares rfl) <| spares_cons (spares_evt _ _ rfl) <|
    spares_last ((changes_logEv _ _ _ _).spares rfl))

theorem spares_updFault (i : UpdItem) (code : Nat) : (updFault i code).Spares slips :=
  spares_cons ((changes_updUpd _).spares rfl) <| spares_cons (spares_prim rfl) <| spares_cons ((changes_logEv _ _ _ _).spares rfl) <| spares_last (spares_traceItem _ _ _)

theorem spares_updAccessFault (i : UpdItem) (a : Nat) : (updAccessFault i a).Spares slips :=
  spares_cons ((changes_unitGoes _).spares rfl) <| spares_cons ((changes_logEv _ _ _ _).spares rfl) <| spares_cons (spares_updFault _ _) <|
    spares_last (spares_setF _ _ _ rfl)

theorem spares_endSession (n st partner : Nat) : (endSession n st partner).Spares slips :=
  spares_ask fun _ => spares_cons (spares_setF _ _ _ rfl) <| spares_cons (spares_setF _ _ _ rfl) <| spares_cons ((changes_updPort _ _).spares rfl) <|
    spares_cons ((changes_updHural _).spares rfl) <| spares_last ((changes_rerouteWaiting _).spares rfl)

theorem spares_dmaPutFault (u addr : Nat) : (dmaPutFault u addr).Spares slips :=
  spares_ask fun _ => by
    split
    · exact spares_cons ((changes_logEv _ _ _ _).spares rfl) <| spares_cons ((changes_updEng _ _ _).spares rfl) <| spares_cons (spares_itemFault _ _ _ _ _ _ rfl) <|
        spares_last (spares_setF _ _ _ rfl)
    · exact ((changes_logEv _ _ _ _).spares rfl)

theorem spares_farPoison (addr : Addr) (unit : Nat) : (farPoison addr unit).Spares slips :=
  spares_ask fun _ => spares_when (spares_cons ((changes_updTier _).spares rfl) <| spares_cons (spares_objectPoisoned _ _ _ _ _) <| spares_cons (spares_evt _ _ rfl) <|
    spares_last ((changes_logEv _ _ _ _).spares rfl))

theorem spares_pagePoison (addr : Addr) : (pagePoison addr).Spares slips := spares_ask fun _ => by
    split
    · exact spares_farPoison _ _
    · exact spares_skip

theorem spares_updPutFault (addr : Nat) : (updPutFault addr).Spares slips :=
  spares_ask fun _ => by
    split
    · exact spares_updAccessFault _ _
    · exact ((changes_logEv _ _ _ _).spares rfl)

theorem spares_writeHeld (r : OutReq) (addr : Addr) : (writeHeld r addr).Spares slips :=
  spares_cons (spares_farPoison _ _) <| spares_cons ((changes_updHural _).spares rfl) <| spares_last (spares_when (spares_unitStall _ _))

theorem spares_nackApply (r : OutReq) (code : Nat) : (nackApply r code).Spares slips := by
  have hlog (k : LogKind) : (logEv k).Spares slips := ((changes_logEv _ _ _ _).spares rfl)
  unfold nackApply
  split
  case h_1 => exact spares_ite (spares_cons (spares_when (spares_farPoison _ _)) <| spares_last (spares_memAccess _ _ _ _)) ((changes_accessFault _ _).spares rfl)
  case h_2 who addr _ =>
    refine spares_ite (spares_writeHeld _ _) (spares_when ?_)
    cases who with
    | some w => exact ((changes_accessFault _ _).spares rfl)
    | none => exact hlog _
  case h_3 => exact spares_ite (spares_writeHeld _ _) (spares_when (spares_ite (spares_updPutFault _) (spares_dmaPutFault _ _)))
  case h_4 =>
    split
    · exact hlog _
    · exact spares_cons ((changes_fetchAnswer _ _ _).spares rfl) <| spares_last (spares_ite (spares_pagePoison _) (hlog _))
    · exact spares_ite (spares_cons (spares_when (spares_farPoison _ _)) <| spares_last ((changes_fetchAgain _ _).spares rfl)) ((changes_fetchAnswer _ _ _).spares rfl)
  case h_5 => exact spares_ask fun s => spares_ite (spares_writeHeld _ _) <| spares_cons ((changes_farDone _ _).spares rfl) <| spares_last (spares_when (hlog _))
  case h_6 => exact spares_given (spares_migFinish _)
  case h_7 => exact spares_cons (spares_prim trivial) <| spares_last (hlog _)
  case h_8 => exact hlog _

theorem spares_batchCounter (p : Nat) : (batchCounter p).Spares slips := spares_ask fun _ => spares_ite (spares_each fun _ _ => spares_setF _ _ _ rfl) spares_skip

theorem spares_emitOne (w : WinEnt) : (emitOne w).Spares slips :=
  spares_ask fun _ => spares_cons (spares_pkgWrite _ _) <| spares_cons ((changes_updCus _).spares rfl) <|
    spares_last (spares_when (spares_each fun _ _ => spares_incF _ _ _ rfl))

theorem spares_emitLoop (n : Nat) : (emitLoop n).Spares slips := by
  induction n with
  | zero => exact ((changes_updCus _).spares rfl)
  | succ n ih =>
    refine spares_seq ((changes_updCus _).spares rfl) (spares_ask fun s => ?_)
    split
    · exact spares_seq (spares_emitOne _) ih
    · exact spares_skip

theorem spares_emitAll : emitAll.Spares slips := spares_ask fun _ => spares_emitLoop _

theorem spares_cusStepClose (p : Nat) : (cusStepClose p).Spares slips :=
  spares_ask fun _ => spares_ite (spares_cons (spares_pkgWrite _ _) <| spares_cons (spares_setF _ _ _ rfl) <| spares_cons ((changes_updCus _).spares rfl) <|
    spares_cons (spares_batchCounter _) <| spares_last spares_emitAll) spares_skip

theorem spares_farRequestsEnd (b : Nat) : (farRequestsEnd b).Spares slips :=
  spares_ask fun _ => spares_cons ((changes_updHural _).spares rfl) <| spares_cons (spares_each fun _ _ => by
    split
    · exact spares_skip
    · exact spares_cons ((changes_logEv _ _ _ _).spares rfl) <| spares_last (spares_nackApply _ _)
    · exact spares_nackApply _ _) <| spares_cons ((changes_bellLost _).spares rfl) <| spares_last (spares_each fun _ _ => ((changes_refuseHeld _).spares rfl))

theorem spares_lendingEnds (b : Nat) : (lendingEnds b).Spares slips :=
  spares_ask fun _ => spares_cons ((changes_updHural _).spares rfl) <| spares_cons (spares_each fun _ _ => spares_lentFreed _) <|
    spares_last (spares_each fun _ _ => spares_pageLost _)

theorem spares_darkApply (b : Nat) : (darkApply b).Spares slips :=
  spares_ask fun _ => spares_cons (spares_prim fun _ => ⟨rfl, rfl, rfl, rfl, fun _ => rfl⟩) <| spares_cons ((changes_updShd _).spares rfl) <|
    spares_cons (spares_ask fun _ => spares_setF _ _ _ rfl) <| spares_cons (spares_each fun _ _ => spares_lendingEnds _) <|
    spares_cons (spares_each fun _ _ => spares_farRequestsEnd _) <| spares_cons (spares_reportsForgotten _) <|
    spares_cons (spares_when (spares_seq (spares_each fun _ _ => spares_when ((changes_sendMsg _).spares rfl)) ((changes_updHural _).spares rfl))) <|
    spares_last (spares_when ((changes_spareChoice _).spares rfl))

theorem spares_giveUp : giveUp.Spares slips :=
  spares_ask fun _ => spares_when (spares_cons (spares_when (spares_each fun _ _ => spares_when ((changes_sendNote _ _ _).spares rfl))) <|
    spares_cons (spares_setF _ _ _ rfl) <| spares_cons (spares_setF _ _ _ rfl) <| spares_cons ((changes_updShd _).spares rfl) <| spares_cons (spares_evt _ _ rfl) <|
    spares_cons ((changes_logEv _ _ _ _).spares rfl) <| spares_last ((changes_updHural _).spares rfl))

theorem spares_securePoint : securePoint.Spares slips :=
  spares_withFree fun _ => spares_ask fun _ => spares_cons (spares_setF _ _ _ rfl) <| spares_cons (spares_setF _ _ _ rfl) <| spares_cons (spares_setF _ _ _ rfl) <|
    spares_cons (spares_setF _ _ _ rfl) <| spares_cons ((changes_updShd _).spares rfl) <| spares_last ((changes_copyRides _ _ _).spares rfl)

theorem spares_shdStepClose (p : Nat) : (shdStepClose p).Spares slips :=
  spares_ask fun _ => spares_cons ((changes_updShd _).spares rfl) <| spares_last (spares_when (spares_cons ((changes_updShd _).spares rfl) <|
    spares_cons (spares_ask fun _ => spares_when (spares_setF _ _ _ rfl)) <| spares_last (spares_ask fun _ => spares_when spares_securePoint)))

theorem spares_jobPortsClose : jobPortsClose.Spares slips :=
  spares_ask fun _ => spares_each fun _ _ => spares_when (spares_seq ((changes_sendClose _ _).spares rfl) (spares_endSession _ _ _))

theorem spares_goOut : goOut.Spares slips :=
  spares_ask fun _ => spares_when (spares_cons spares_giveUp <| spares_cons ((changes_updRst _).spares rfl) <| spares_cons (spares_setF _ _ _ rfl) <|
    spares_cons spares_jobPortsClose <| spares_last ((changes_logEv _ _ _ _).spares rfl))

theorem spares_judgeRecord : judgeRecord.Spares slips := spares_ask fun _ => spares_when spares_goOut

theorem spares_sessionEnd (p reason : Nat) : (sessionEnd p reason).Spares slips :=
  spares_ask fun _ => spares_when (spares_cons (spares_setF _ _ _ rfl) <| spares_cons (spares_setF _ _ _ rfl) <| spares_cons ((changes_updDebug _ _).spares rfl) <|
    spares_cons (spares_evt _ _ rfl) <| spares_last ((changes_logEv _ _ _ _).spares rfl))

theorem spares_fwReject (reason : Nat) : (fwReject reason).Spares slips :=
  spares_cons (spares_setF _ _ _ rfl) <| spares_cons (spares_evt _ _ rfl) <| spares_last ((changes_logEv _ _ _ _).spares rfl)

theorem spares_fwDrop : fwDrop.Spares slips :=
  spares_ask fun _ => spares_when (spares_cons (spares_setF _ _ _ rfl) <| spares_cons (spares_fwReject _) <| spares_last ((changes_updHm _).spares rfl))

theorem spares_fwBoundary : fwBoundary.Spares slips :=
  spares_seq spares_fwDrop (spares_ask fun _ => spares_when (spares_ite (spares_cons (spares_setF _ _ _ rfl) <| spares_cons (spares_evt _ _ rfl) <|
    spares_cons ((changes_logEv _ _ _ _).spares rfl) <| spares_cons ((changes_updHm _).spares rfl) <| spares_cons (spares_setF _ _ _ rfl) <|
    spares_last ((changes_updSec _).spares rfl)) (spares_seq (spares_setF _ _ _ rfl) (spares_each fun _ _ => ((changes_logEv _ _ _ _).spares rfl)))))

theorem spares_toOwned : toOwned.Spares slips :=
  spares_cons (spares_setF _ _ _ rfl) <| spares_cons ((changes_mapStates _).spares rfl) <| spares_cons ((changes_updCoh _).spares rfl) <|
    spares_last (spares_given (spares_setF _ _ _ rfl))

theorem spares_toTest : toTest.Spares slips :=
  spares_ask fun _ => spares_cons (spares_each fun _ _ => ((changes_writeBack _ _).spares rfl)) <| spares_cons ((changes_mapStates _).spares rfl) <|
    spares_cons (spares_each fun _ _ => ((changes_updCoh _).spares rfl)) <| spares_last (spares_setF _ _ _ rfl)

theorem spares_protocolBoundary (ready : State → Bool) : (protocolBoundary ready).Spares slips :=
  spares_ask fun _ => spares_ite spares_skip (spares_ite spares_toTest (spares_ite spares_toOwned spares_skip))

theorem spares_computeClear : computeClear.Spares false :=
  spares_cons spares_copiesEnd <| spares_cons (spares_ask fun _ => spares_each fun _ _ => spares_flipGroup _) <| spares_cons spares_discardPending <|
    spares_cons (spares_ask fun _ => ((changes_updTier _).spares rfl)) <| spares_cons spares_plansDrop <| spares_cons (spares_prim trivial) <|
    spares_cons (spares_prim trivial) <| spares_cons ((changes_updNum _).spares rfl) <| spares_cons ((changes_fetchDrop _).spares rfl) <|
    spares_cons ((changes_putsDrop _).spares rfl) <| spares_cons ((changes_updTier _).spares rfl) <| spares_cons (spares_prim rfl) <|
    spares_cons (spares_ask fun _ => spares_each fun _ _ => spares_pageLost _) <| spares_cons ((changes_wipe _ _).spares rfl) <|
    spares_cons ((changes_haltsClear _).spares rfl) <| spares_last ((changes_predReset _).spares rfl)

theorem spares_pathMeasure (c : Chart) : (pathMeasure c).Spares slips := spares_when (spares_withFree fun _ => spares_setF _ _ _ rfl)

theorem spares_tileRegsReset (d : Nat) : (tileRegsReset d).Spares slips :=
  spares_each fun r hr => spares_each fun _ _ => spares_each fun _ _ => spares_prim (by
    have hno : (RegName.all.filter fun r => r.loc.block = .TILE).all (fun r => !planRegs.contains r) = true := by decide
    exact Bool.not_eq_eq_eq_not.mp (List.all_eq_true.mp hno r hr))

theorem spares_darkDown (d : Nat) : (darkDown d).Spares slips :=
  spares_cons (spares_ask fun _ => spares_each fun _ _ => spares_pageLost _) <| spares_cons ((changes_wipe _ _).spares rfl) <| spares_cons (spares_prim trivial) <|
    spares_cons (spares_tileRegsReset _) <| spares_cons ((changes_haltsClear _).spares rfl) <| spares_cons ((changes_predReset _).spares rfl) <|
    spares_cons (spares_ask fun _ => spares_prim rfl) <| spares_cons ((changes_updEn _).spares rfl) <|
    spares_last (spares_ask fun _ => spares_seq (spares_setF _ _ _ rfl) (spares_setF _ _ _ rfl))

theorem spares_darkGo : darkGo.Spares slips := spares_ask fun _ => by
    split
    · exact spares_when (spares_darkDown _)
    · exact spares_skip

theorem spares_darkEnter (d : Nat) : (darkEnter d).Spares slips :=
  spares_cons ((changes_updEn _).spares rfl) <| spares_cons (spares_each fun _ _ => ((changes_departBegin _).spares rfl)) <| spares_last spares_darkGo

theorem spares_darkBoundary : darkBoundary.Spares slips :=
  spares_ask fun _ => by
    split
    · exact spares_cons ((changes_updEn _).spares rfl) <| spares_last (by
        split
        · exact spares_when ((changes_updEn _).spares rfl)
        · exact spares_when (spares_darkEnter _))
    · exact spares_skip

theorem spares_amendComplete (c : Chart) : (amendComplete c).Spares slips :=
  spares_ask fun _ => spares_cons (spares_setF _ _ _ rfl) <| spares_cons (spares_setF _ _ _ rfl) <| spares_cons (spares_setF _ _ _ rfl) <|
    spares_cons (spares_each fun _ _ => spares_setF _ _ _ rfl) <| spares_cons (spares_setF _ _ _ rfl) <| spares_cons (spares_setF _ _ _ rfl) <|
    spares_cons (spares_setF _ _ _ rfl) <| spares_cons ((changes_updChart _).spares rfl) <| spares_cons ((changes_updSec _).spares rfl) <|
    spares_cons (spares_evt _ _ rfl) <| spares_last ((changes_logEv _ _ _ _).spares rfl)

theorem spares_amendWaits (old new c : Chart) (waits : List Nat) : (amendWaits old new c waits).Spares slips :=
  spares_cons (spares_setF _ _ _ rfl) <| spares_cons (spares_setF _ _ _ rfl) <| spares_cons (spares_when (spares_evt _ _ rfl)) <|
    spares_last (spares_each fun _ _ => ((changes_logEv _ _ _ _).spares rfl))

theorem spares_flotillaTaken (c : Chart) : (flotillaTaken c).Spares slips :=
  spares_ask fun _ => spares_cons (spares_setF _ _ _ rfl) <| spares_cons (spares_setF _ _ _ rfl) <|
    spares_cons (spares_updTide (fun _ => ⟨rfl, rfl, rfl, rfl, fun _ => rfl⟩)) <| spares_cons (spares_pathMeasure _) <|
    spares_last (spares_ite (spares_when (spares_seq (spares_setF _ _ _ rfl) (spares_setF _ _ _ rfl))) (spares_cons (spares_when (spares_setF _ _ _ rfl)) <|
    spares_last (spares_when (spares_setF _ _ _ rfl))))

theorem spares_tideTaken (old new : Chart) : (tideTaken old new).Spares slips :=
  spares_ask fun _ => spares_cons (spares_when (spares_setF _ _ _ rfl)) <| spares_cons (spares_setF _ _ _ rfl) <| spares_cons (spares_setF _ _ _ rfl) <|
    spares_last (spares_when (spares_setF _ _ _ rfl))

theorem spares_sectionTaken (old new : Chart) (t : Nat) : (sectionTaken old new t).Spares false := by
  unfold sectionTaken
  split
  · exact spares_seq (spares_ask fun _ => spares_setF _ _ _ rfl) (spares_quotaCheck _)
  · exact spares_each fun _ _ => spares_given ((changes_rejoin _).spares rfl)
  · exact spares_flotillaTaken _
  · exact spares_tideTaken _ _
  · exact spares_cons (spares_setF _ _ _ rfl) <| spares_cons (spares_setF _ _ _ rfl) <| spares_cons (spares_setF _ _ _ rfl) <|
      spares_last (spares_ask fun _ => spares_seq spares_judgeRecord (spares_given (spares_seq (spares_each fun _ _ => ((changes_departBegin _).spares rfl)) spares_computeClear)))
  · exact spares_prim trivial
  · exact spares_each fun _ _ => spares_ask fun _ => spares_when (spares_sessionEnd _ _)
  · exact spares_skip

theorem spares_sectionsTaken (secs : List (Nat × List Byte)) (locks : Bool) : (sectionsTaken secs locks).Spares false :=
  spares_ask fun _ => spares_cons (spares_when (spares_each fun _ _ => ((changes_departBegin _).spares rfl))) <| spares_cons ((changes_updChart _).spares rfl) <|
    spares_last (spares_each fun _ _ => spares_sectionTaken _ _ _)

theorem spares_amendTakes : amendTakes.Spares false :=
  spares_ask fun _ => by
    split
    · exact spares_ite spares_skip (spares_ite (spares_amendReject _) (spares_ite (spares_amendWaits _ _ _ _) (spares_cons (spares_sectionsTaken _ _) <|
        spares_cons ((changes_updChart _).spares rfl) <| spares_last (spares_ite (spares_amendComplete _) (spares_amendWaits _ _ _ _)))))
    · exact spares_skip

theorem spares_darkDeclared : darkDeclared.Spares slips :=
  spares_ask fun _ => by
    split
    · exact spares_seq (spares_updTide (fun _ => ⟨rfl, rfl, rfl, rfl, fun _ => rfl⟩)) (spares_darkApply _)
    · exact spares_skip

theorem spares_stepClose (p : Nat) : (stepClose p).Spares slips :=
  spares_ask fun _ => spares_when (spares_cons (spares_stepCloseNum _) <| spares_cons ((changes_updTier _).spares rfl) <|
    spares_cons (spares_when (spares_ask fun _ => spares_computeEta _)) <| spares_cons (spares_cusStepClose _) <| spares_last (spares_shdStepClose _))

end

end Sys2Proof.Machine

/-! PROOFS. Grace end: slips, catch-up tides and the commit token (R35 to R38, R42). -/

namespace Sys2Proof.Machine

theorem getReg_modF_index {f : Fld} (g : Nat → Nat) (i j m n : Nat) (q : RegName) (s : State) (h : i % 65536 ≠ m % 65536) :
    getReg (run (modF f g i j) s) q m n = getReg s q m n := by
  simp only [modF, run_ask, run_prim]
  rw [getReg_apply_reg, if_neg fun hk => h ((regKey_eq_iff ..).mp hk).2.1]

/-! Programs for each element of a list. -/

theorem run_each_append {α : Type} (f : α → Act) (l k : List α) (s : State) : run (Act.each f (l ++ k)) s = run (Act.each f k) (run (Act.each f l) s) := by
  induction l generalizing s with
  | nil => rfl
  | cons x l ih => exact ih _

/-- What every element's program leaves alone while an invariant holds, the whole leaves alone. -/
theorem run_each_same_of {α β : Type} (I : State → Prop) (g : State → β) {f : α → Act} {l : List α} (hI : ∀ x ∈ l, ∀ s, I s → I (run (f x) s))
    (h : ∀ x ∈ l, ∀ s, I s → g (run (f x) s) = g s) {s : State} (hs : I s) : I (run (Act.each f l) s) ∧ g (run (Act.each f l) s) = g s := by
  induction l generalizing s with
  | nil => exact ⟨hs, rfl⟩
  | cons x l ih =>
    obtain ⟨hinv, hsame⟩ := ih (fun y hy => hI y (List.mem_cons_of_mem _ hy)) (fun y hy => h y (List.mem_cons_of_mem _ hy)) (hI x List.mem_cons_self s hs)
    exact ⟨hinv, hsame.trans (h x List.mem_cons_self s hs)⟩

theorem run_each_same {α β : Type} (g : State → β) {f : α → Act} {l : List α} (h : ∀ x ∈ l, ∀ s, g (run (f x) s) = g s) (s : State) :
    g (run (Act.each f l) s) = g s := (run_each_same_of (fun _ => True) g (fun _ _ _ _ => trivial) (fun x hx s _ => h x hx s) trivial).2

/-- An element that a list holds once, and what stands before and behind it. -/
theorem exists_split_of_count {α : Type} [BEq α] [LawfulBEq α] {l : List α} {x : α} (h : l.count x = 1) : ∃ a b, l = a ++ x :: b ∧ x ∉ a ∧ x ∉ b := by
  obtain ⟨a, b, rfl⟩ := List.append_of_mem (List.count_pos_iff.mp (h ▸ Nat.one_pos))
  rw [List.count_append, List.count_cons_self] at h
  exact ⟨a, b, rfl, List.count_eq_zero.mp (by omega), List.count_eq_zero.mp (by omega)⟩

/-! A unit at grace end. -/

/-- What grace end does for a unit of a partition. -/
def unitJudged (s : State) (u : Nat) : Act := if unitBusy s u then unitSlips u else Act.when (s.tide.progress.contains u) (setF TIDE_UNIT.CONSEC 0 u)

theorem writes_unitSlips (u : Nat) : (unitSlips u).Writes [.TIDE_SLIPS, .TIDE_UNIT, .TIDE_SUSPECT, .TIDE_EVT] :=
  fun _ => ⟨writes_incF (by decide) _ _ _, writes_incF (by decide) _ _ _, writes_setF (by decide) _ _ _, (within_when _ _).mpr fun _ => writes_setBitF (by decide) _ _ _ _,
    (within_when _ _).mpr fun _ => ⟨writes_evt (by decide) _ _, writes_of_changes (changes_logEv _ _ _ _) (by decide)⟩, trivial⟩

/-- A unit that slips: its counters, and the suspicion at the third slip in a row. -/
theorem run_unitSlips (u : Nat) (s : State) : run (unitSlips u) s =
    run (Act.when (decide (getF s TIDE_UNIT.CONSEC u = 2)) (.seq (evt TIDE_EVT.SUSPECT) (logEv .suspect (if u < 512 then u / 128 else 0xFF) u)))
      (run (Act.when (decide (2 ≤ getF s TIDE_UNIT.CONSEC u)) (setBitF TIDE_SUSPECT.UNIT (u % 64) true (u / 64)))
        (run (setF TIDE_UNIT.CONSEC (min 3 (getF s TIDE_UNIT.CONSEC u + 1)) u) (run (incF TIDE_UNIT.SLIPS 1 u) (run (incF TIDE_SLIPS.SLIPS) s)))) := by
  simp only [unitSlips, run_ask, run_all_cons, run_all_nil]

theorem unitSlips_consec (u : Nat) (s : State) : getF (run (unitSlips u) s) TIDE_UNIT.CONSEC u = min 3 (getF s TIDE_UNIT.CONSEC u + 1) := by
  have hmod : min 3 (getF s TIDE_UNIT.CONSEC u + 1) % 2 ^ TIDE_UNIT.CONSEC.width = min 3 (getF s TIDE_UNIT.CONSEC u + 1) :=
    Nat.mod_eq_of_lt (Nat.lt_of_le_of_lt (Nat.min_le_left _ _) (by decide))
  simp only [run_unitSlips, run_when]
  split_ifs <;> simp (decide := true) [hmod, setBitF]

theorem unitSlips_total (u : Nat) (s : State) : getF (run (unitSlips u) s) TIDE_SLIPS.SLIPS = min (getF s TIDE_SLIPS.SLIPS + 1) 0xFFFF_FFFF := by
  have hw : TIDE_SLIPS.SLIPS.width = 32 := rfl
  simp only [run_unitSlips, run_when]
  split_ifs <;> simp (decide := true) [setBitF, hw]

theorem unitSlips_suspect {u : Nat} {s : State} (h : getF s TIDE_UNIT.CONSEC u = 2) :
    getF (run (unitSlips u) s) TIDE_EVT.SUSPECT = 1 ∧ Safety.Logged .suspect s (run (unitSlips u) s) := by
  have hw : TIDE_EVT.SUSPECT.width = 1 := rfl
  rw [run_unitSlips, h]
  simp only [run_when, run_seq, decide_true, if_true, Nat.le_refl]
  refine ⟨?_, ?_⟩
  · simp (decide := true) [hw]
  · simp [Safety.Logged, satAdd, setBitF]

theorem unitJudged_consec (s t : State) (u : Nat) : getF (run (unitJudged s u) t) TIDE_UNIT.CONSEC u =
    if unitBusy s u then min 3 (getF t TIDE_UNIT.CONSEC u + 1) else if s.tide.progress.contains u then 0 else getF t TIDE_UNIT.CONSEC u := by
  unfold unitJudged
  split
  · exact unitSlips_consec u t
  · rw [run_when]
    split
    · exact getF_setF_fits (by decide) 0 u 0 t
    · rfl

theorem unitJudged_consec_other (s t : State) {u v : Nat} (h : u % 65536 ≠ v % 65536) :
    getF (run (unitJudged s u) t) TIDE_UNIT.CONSEC v = getF t TIDE_UNIT.CONSEC v := by
  unfold unitJudged
  split
  · simp only [run_unitSlips, run_when]
    split_ifs <;> simp (decide := true) [setBitF, getF_setF_index (f := TIDE_UNIT.CONSEC) _ _ _ _ _ _ (Or.inl h)]
  · rw [run_when]
    split
    · exact getF_setF_index _ _ _ _ _ _ (Or.inl h)
    · rfl

theorem writes_unitJudged (s : State) (u : Nat) : (unitJudged s u).Writes [.TIDE_SLIPS, .TIDE_UNIT, .TIDE_SUSPECT, .TIDE_EVT] := by
  unfold unitJudged
  split
  · exact writes_unitSlips u
  · exact (within_when _ _).mpr fun _ => writes_setF (by decide) _ _ _

theorem changes_unitJudged (s : State) (u : Nat) : Act.Changes [.regs, .log] (unitJudged s u) :=
  changes_ite (changes_unitSlips u) (changes_when ((changes_setF _ _ _ _).up rfl))

/-! A partition at grace end. -/

/-- What tells whether a unit has items left, and whether it progressed. -/
def slipView (s : State) : FMap Tile × UpdSt × TierSt × CusSt × ChartSt × List Nat := (s.tiles, s.upd, s.tier, s.cus, s.chart, s.tide.progress)

theorem unitBusy_of_view {s t : State} (h : slipView t = slipView s) (u : Nat) : unitBusy t u = unitBusy s u := by
  simp only [slipView, Prod.mk.injEq] at h
  obtain ⟨htiles, hupd, htier, hcus, -, -⟩ := h
  rw [unitBusy, unitBusy, getTile_of_tiles htiles, hupd, htier, hcus]

theorem partUnits_of_view {s t : State} (h : slipView t = slipView s) (p : Nat) : partUnits t p = partUnits s p := by
  simp only [slipView, Prod.mk.injEq] at h
  obtain ⟨-, -, -, -, hchart, -⟩ := h
  rw [partUnits, partUnits, theChart, theChart, hchart]

theorem partBusy_of_view {s t : State} (h : slipView t = slipView s) (p : Nat) : partBusy t p = partBusy s p := by
  simp only [partBusy, partUnits_of_view h, unitBusy_of_view h]

theorem progress_of_view {s t : State} (h : slipView t = slipView s) : t.tide.progress = s.tide.progress := by
  simp only [slipView, Prod.mk.injEq] at h
  exact h.2.2.2.2.2

theorem run_partSlips (p : Nat) (s : State) : run (partSlips p) s =
    run (Act.when (partBusy s p) (incF TIDE_PLAN.SHIFTS 1 p)) (run (setF TIDE_PLAN.CATCHUP (b2n (partBusy s p)) p)
      (run (updPart p fun x => { x with slip := partBusy s p }) (run (Act.each (unitJudged s) (partUnits s p)) s))) := by
  simp only [partSlips, run_ask, run_all_cons, run_all_nil]
  rfl

/-- A program that leaves a reading of the tide's state. -/
abbrev Act.KeepsTide {α : Type} (g : TideSt → α) (a : Act) : Prop := a.Within fun p => ∀ s, g (p.apply s).tide = g s.tide

theorem keepsTide_of_changes {α : Type} {g : TideSt → α} {l : List Part} {a : Act} (h : a.Changes l) (hl : Part.tide ∉ l) : a.KeepsTide g :=
  Act.Within.mono (fun p hp s => congrArg g (only_tide (a := .prim p) hp hl s)) h.only

theorem updPart_keepsTide {α : Type} {g : TideSt → α} (h : ∀ t parts, g { t with parts := parts } = g t) (p : Nat) (f : PartSt → PartSt) : (updPart p f).KeepsTide g :=
  fun _ => h _ _

theorem partSlips_keepsTide {α : Type} {g : TideSt → α} (h : ∀ t parts, g { t with parts := parts } = g t) (p : Nat) : (partSlips p).KeepsTide g :=
  fun s => ⟨(within_each _ _).mpr fun u _ => keepsTide_of_changes (changes_unitJudged s u) (by decide), updPart_keepsTide h _ _,
    keepsTide_of_changes (changes_setF _ _ _ _) (by decide), (within_when _ _).mpr fun _ => keepsTide_of_changes (changes_incF _ _ _ _) (by decide), trivial⟩

theorem partSlips_view (p : Nat) (s : State) : slipView (run (partSlips p) s) = slipView s := by
  have h := (changes_partSlips p).only
  have hprogress : (run (partSlips p) s).tide.progress = s.tide.progress := run_same (fun s => s.tide.progress) (partSlips_keepsTide (fun _ _ => rfl) p) s
  simp only [slipView, only_tiles h (by decide), only_upd h (by decide), only_tier h (by decide), only_cus h (by decide), only_chart h (by decide), hprogress]

theorem partSt_of_tide {s t : State} (h : t.tide = s.tide) (p : Nat) : partSt t p = partSt s p := by rw [partSt, partSt, h]

theorem updPart_partSt (p q : Nat) (f : PartSt → PartSt) (s : State) :
    (partSt (run (updPart p f) s) q) = if q = p then f (partSt s p) else partSt s q := Cells.get_put _ _ _ _ _

/-- A partition's slip is latched and its catch-up tide counted. -/
theorem partSlips_spec (p : Nat) (s : State) :
    getF (run (partSlips p) s) TIDE_PLAN.CATCHUP p = b2n (partBusy s p) ∧
    getF (run (partSlips p) s) TIDE_PLAN.SHIFTS p = (if partBusy s p then min (getF s TIDE_PLAN.SHIFTS p + 1) 0xFFFF else getF s TIDE_PLAN.SHIFTS p) ∧
    (partSt (run (partSlips p) s) p).slip = partBusy s p := by
  have hw : TIDE_PLAN.SHIFTS.width = 16 := rfl
  have hunits (m n : Nat) : getReg (run (Act.each (unitJudged s) (partUnits s p)) s) .TIDE_PLAN m n = getReg s .TIDE_PLAN m n :=
    Act.Writes.getReg (l := [.TIDE_SLIPS, .TIDE_UNIT, .TIDE_SUSPECT, .TIDE_EVT]) ((within_each _ _).mpr fun u _ => writes_unitJudged s u) (by decide) m n s
  have hshifts := getF_of_getReg (f := TIDE_PLAN.SHIFTS) (hunits p 0)
  have hb : b2n (partBusy s p) % 2 ^ TIDE_PLAN.CATCHUP.width = b2n (partBusy s p) := Nat.mod_eq_of_lt (Nat.lt_succ_of_le (b2n_le_one _))
  rw [run_partSlips]
  refine ⟨?_, ?_, ?_⟩
  · rw [run_when]
    split
    · rw [getF_incF_apart (by decide), getF_setF_fits (by decide), hb]
    · rw [getF_setF_fits (by decide), hb]
  · rw [run_when]
    split
    · rw [getF_incF_fits (by decide), getF_setF_apart (by decide), hw]
      exact congrArg (fun n => min (n + 1) 0xFFFF) hshifts
    · rw [getF_setF_apart (by decide)]
      exact hshifts
  · rw [run_when]
    split
    · rw [partSt_of_tide (incF_tide _ _ _ _ _), partSt_of_tide (setF_tide _ _ _ _ _), updPart_partSt, if_pos rfl]
    · rw [partSt_of_tide (setF_tide _ _ _ _ _), updPart_partSt, if_pos rfl]

/-- A partition's slip leaves another's. -/
theorem partSlips_other {p q : Nat} (h : q % 65536 ≠ p % 65536) (s : State) :
    getF (run (partSlips q) s) TIDE_PLAN.CATCHUP p = getF s TIDE_PLAN.CATCHUP p ∧ getF (run (partSlips q) s) TIDE_PLAN.SHIFTS p = getF s TIDE_PLAN.SHIFTS p ∧
    partSt (run (partSlips q) s) p = partSt s p := by
  have hne : p ≠ q := fun hpq => h (congrArg (· % 65536) hpq.symm)
  have hunits (m n : Nat) : getReg (run (Act.each (unitJudged s) (partUnits s q)) s) .TIDE_PLAN m n = getReg s .TIDE_PLAN m n :=
    Act.Writes.getReg (l := [.TIDE_SLIPS, .TIDE_UNIT, .TIDE_SUSPECT, .TIDE_EVT]) ((within_each _ _).mpr fun u _ => writes_unitJudged s u) (by decide) m n s
  have htide : (run (Act.each (unitJudged s) (partUnits s q)) s).tide = s.tide := only_tide (changes_each fun u => changes_unitJudged s u).only (by decide) s
  have hreg : getReg (run (partSlips q) s) .TIDE_PLAN p 0 = getReg s .TIDE_PLAN p 0 := by
    rw [run_partSlips, run_when]
    split
    · rw [incF, getReg_modF_index _ _ _ _ _ _ _ h, getReg_setF_index _ _ _ _ _ _ _ h]
      exact hunits p 0
    · rw [getReg_setF_index _ _ _ _ _ _ _ h]
      exact hunits p 0
  refine ⟨getF_of_getReg hreg, getF_of_getReg hreg, ?_⟩
  rw [run_partSlips, run_when]
  split
  · rw [partSt_of_tide (incF_tide _ _ _ _ _), partSt_of_tide (setF_tide _ _ _ _ _), updPart_partSt, if_neg hne, partSt_of_tide htide]
  · rw [partSt_of_tide (setF_tide _ _ _ _ _), updPart_partSt, if_neg hne, partSt_of_tide htide]

/-! CONSEC of a unit. -/

/-- CONSEC of a unit after grace end (R37). -/
def consecAfter (s : State) (u k : Nat) : Nat := if unitBusy s u then min 3 (k + 1) else if s.tide.progress.contains u then 0 else k

theorem consecAfter_of_view {s t : State} (h : slipView t = slipView s) (u k : Nat) : consecAfter t u k = consecAfter s u k := by
  rw [consecAfter, consecAfter, unitBusy_of_view h, progress_of_view h]

theorem partUnits_lt {s : State} {p u : Nat} (h : u ∈ partUnits s p) : u < 516 := by
  rw [partUnits, Chart.unitsOf] at h
  split at h
  · exact List.mem_range.mp (List.mem_filter.mp h).1
  · simp at h

theorem partSlips_consec (p u : Nat) (s : State) :
    getF (run (partSlips p) s) TIDE_UNIT.CONSEC u = getF (run (Act.each (unitJudged s) (partUnits s p)) s) TIDE_UNIT.CONSEC u := by
  rw [run_partSlips, run_when]
  split
  · rw [getF_incF_apart (by decide), getF_setF_apart (by decide)]
    rfl
  · rw [getF_setF_apart (by decide)]
    rfl

theorem partSlips_consec_other {p u : Nat} (hu : u < 516) {s : State} (h : u ∉ partUnits s p) :
    getF (run (partSlips p) s) TIDE_UNIT.CONSEC u = getF s TIDE_UNIT.CONSEC u := by
  rw [partSlips_consec, run_each_same (fun s => getF s TIDE_UNIT.CONSEC u) fun v hv t => unitJudged_consec_other s t ?_]
  have hv' := partUnits_lt hv
  have hne : v ≠ u := fun he => h (he ▸ hv)
  omega

theorem partSlips_consec_once {p u : Nat} {s : State} (h : (partUnits s p).count u = 1) :
    getF (run (partSlips p) s) TIDE_UNIT.CONSEC u = consecAfter s u (getF s TIDE_UNIT.CONSEC u) := by
  have hlt (v : Nat) (hv : v ∈ partUnits s p) : v < 516 := partUnits_lt hv
  have hu := hlt u (List.count_pos_iff.mp (h ▸ Nat.one_pos))
  obtain ⟨a, b, hab, ha, hb⟩ := exists_split_of_count h
  rw [partSlips_consec]
  rw [hab] at hlt ⊢
  have hother (l : List Nat) (hl : ∀ v ∈ l, v < 516) (hul : u ∉ l) (t : State) : getF (run (Act.each (unitJudged s) l) t) TIDE_UNIT.CONSEC u = getF t TIDE_UNIT.CONSEC u := by
    refine run_each_same (fun s => getF s TIDE_UNIT.CONSEC u) (fun v hv t => unitJudged_consec_other s t ?_) t
    have hv' := hl v hv
    have hne : v ≠ u := fun he => hul (he ▸ hv)
    omega
  rw [run_each_append, run_each_cons, hother b (fun v hv => hlt v (by simp [hv])) hb, unitJudged_consec, hother a (fun v hv => hlt v (by simp [hv])) ha]
  rfl

/-! Every partition. -/

/-- Grace end latches the slips of every partition. -/
def slipsLatched : Act := Act.each partSlips (List.range 64)

/-- A reading that the steps of other partitions leave is what a partition's own step made it. -/
theorem slipsLatched_reads {α : Type} (g : State → α) {p : Nat} (hp : p < 64) {s : State}
    (hg : ∀ q, q < 64 → q ≠ p → ∀ t, slipView t = slipView s → g (run (partSlips q) t) = g t) :
    ∃ t, slipView t = slipView s ∧ g t = g s ∧ g (run slipsLatched s) = g (run (partSlips p) t) := by
  obtain ⟨a, b, hab, ha, hb⟩ := exists_split_of_count (List.count_eq_one_of_mem List.nodup_range (List.mem_range.mpr hp))
  have hsame (l : List Nat) (hl : ∀ q ∈ l, q ∈ List.range 64) (hpl : p ∉ l) {t : State} (ht : slipView t = slipView s) :=
    run_each_same_of (fun t => slipView t = slipView s) g (f := partSlips) (l := l) (fun q _ t h => (partSlips_view q t).trans h)
      (fun q hq t h => hg q (List.mem_range.mp (hl q hq)) (fun he => hpl (he ▸ hq)) t h) ht
  obtain ⟨hview, hfirst⟩ := hsame a (fun q hq => hab ▸ List.mem_append_left _ hq) ha (t := s) rfl
  refine ⟨run (Act.each partSlips a) s, hview, hfirst, ?_⟩
  rw [slipsLatched, hab, run_each_append, run_each_cons]
  exact (hsame b (fun q hq => hab ▸ List.mem_append_right _ (List.mem_cons_of_mem _ hq)) hb ((partSlips_view p _).trans hview)).2

theorem slipsLatched_spec {p : Nat} (hp : p < 64) (s : State) :
    getF (run slipsLatched s) TIDE_PLAN.CATCHUP p = b2n (partBusy s p) ∧
    getF (run slipsLatched s) TIDE_PLAN.SHIFTS p = (if partBusy s p then min (getF s TIDE_PLAN.SHIFTS p + 1) 0xFFFF else getF s TIDE_PLAN.SHIFTS p) ∧
    (partSt (run slipsLatched s) p).slip = partBusy s p := by
  obtain ⟨t, hview, hsame, hrun⟩ := slipsLatched_reads (fun s => (getF s TIDE_PLAN.CATCHUP p, getF s TIDE_PLAN.SHIFTS p, partSt s p)) hp (s := s) fun q hq hne t _ => by
    obtain ⟨hc, hs, hst⟩ := partSlips_other (p := p) (q := q) (by omega) t
    simp only [hc, hs, hst]
  simp only [Prod.mk.injEq] at hsame hrun
  obtain ⟨hc, hs, hst⟩ := partSlips_spec p t
  rw [hrun.1, hrun.2.1, hrun.2.2, hc, hs, hst, hsame.2.1, partBusy_of_view hview]
  exact ⟨rfl, rfl, rfl⟩

theorem slipsLatched_consec {p u : Nat} (hp : p < 64) {s : State} (hone : (partUnits s p).count u = 1) (hother : ∀ q, q < 64 → q ≠ p → u ∉ partUnits s q) :
    getF (run slipsLatched s) TIDE_UNIT.CONSEC u = consecAfter s u (getF s TIDE_UNIT.CONSEC u) := by
  have hu : u < 516 := partUnits_lt (List.count_pos_iff.mp (hone ▸ Nat.one_pos))
  obtain ⟨t, hview, hsame, hrun⟩ := slipsLatched_reads (fun s => getF s TIDE_UNIT.CONSEC u) hp (s := s) fun q hq hne t ht =>
    partSlips_consec_other hu (by rw [partUnits_of_view ht]; exact hother q hq hne)
  rw [hrun, partSlips_consec_once (by rw [partUnits_of_view hview]; exact hone), hsame, consecAfter_of_view hview]

/-! The commit token. -/

/-- What follows a token that commits: the pending set's flips, and what is kept of the sets above it. -/
def tokenRest (s : State) : Act := .ask fun n =>
  let set := BitVec.ofNat 16 (getF s UPD_PSET.SET)
  Act.all [Act.when (getB s UPD_PSET.VALID && !isCommitted s set && isCommitted n set) commitPending,
    updTide fun x => { x with sets := x.sets.filter fun y => !isCommitted n y.set, ready := x.ready.filter fun y => !isCommitted n y.1,
                              fready := x.fready.filter fun y => !isCommitted n y.set, crossSets := x.crossSets.filter fun y => !isCommitted n y.1 }]

theorem spares_tokenRest (s : State) {slips : Bool} : (tokenRest s).Spares slips :=
  spares_ask fun _ => spares_cons (spares_when spares_commitPending) <| spares_last (spares_updTide fun _ => ⟨rfl, rfl, rfl, rfl, fun _ => rfl⟩)

theorem run_commitToken_of_none {s : State} (h : s.tide.token = none) : run commitToken s = s := by
  simp only [commitToken, run_ask, h, run_skip]

theorem run_commitToken_of_some {s : State} {c : SetNo} (h : s.tide.token = some c) : run commitToken s =
    run (Act.when (isNewer s c) (.seq (updTide fun x => { x with committed := some c }) (tokenRest s))) (run (updTide fun x => { x with token := none }) s) := by
  simp only [commitToken, run_ask, h, run_seq]
  rfl

/-- What a boundary's token does to the marks of grace end: nothing but the committed set. -/
theorem commitToken_spec (s : State) : (∀ q m n, planRegs.contains q = true → getReg (run commitToken s) q m n = getReg s q m n) ∧
    (run commitToken s).tide.grace = s.tide.grace ∧ (run commitToken s).tide.takeDue = s.tide.takeDue ∧ (run commitToken s).tide.slip = s.tide.slip ∧
    (∀ c, s.tide.token = some c → isNewer s c = true → (run commitToken s).tide.committed = some c) ∧
    (s.tide.token = none → (run commitToken s).tide.committed = s.tide.committed) := by
  cases h : s.tide.token with
  | none =>
    rw [run_commitToken_of_none h]
    simp
  | some c =>
    rw [run_commitToken_of_some h, run_when]
    split
    case isTrue hnew =>
      have ht := (spares_tokenRest s (slips := true)).agrees (run (updTide fun x => { x with committed := some c }) (run (updTide fun x => { x with token := none }) s))
      obtain ⟨hg, hd, hc, -, hs⟩ := ht
      refine ⟨fun q m n hq => ?_, hg, hd, hs rfl, fun c' hc' _ => ?_, fun h => by simp at h⟩
      · rw [run_seq, (spares_tokenRest s (slips := true)).getReg hq]
        rfl
      · rw [run_seq, hc, ← hc']
        rfl
    case isFalse hold =>
      exact ⟨fun _ _ _ _ => rfl, rfl, rfl, rfl, fun c' hc' hnew => absurd (Option.some.inj hc' ▸ hnew) hold, fun h => by simp at h⟩

/-! Grace end as a whole. -/

theorem spares_noProgress {slips : Bool} : noProgress.Spares slips :=
  spares_seq (spares_each fun _ _ => spares_ask fun _ => spares_ite (spares_incF _ _ _ rfl) (spares_setF _ _ _ rfl)) (spares_updTide fun _ => ⟨rfl, rfl, rfl, rfl, fun _ => rfl⟩)

theorem spares_updPart {slips : Bool} (p : Nat) {f : PartSt → PartSt} (h : ∀ x, (f x).slip = x.slip) : (updPart p f).Spares slips :=
  spares_prim fun t => ⟨rfl, rfl, rfl, rfl, fun _ => funext fun q => by
    simp only [TideSt.slip, Cells.get_put]
    split
    · rename_i hq
      rw [h, hq]
    · rfl⟩

theorem spares_samplePlans {slips : Bool} : samplePlans.Spares slips := spares_each fun _ _ => spares_ask fun _ => spares_updPart _ fun _ => rfl

/-- What stands between the token and the amendment. -/
def graceHead : Act := Act.all [setCommitted, .ask fun s => Act.each stepClose ((theChart s).parts.map fun e => e.part), darkDeclared]

/-- What follows the amendment. -/
def graceTail : Act := Act.all [fwKeep, fwBoundary, Act.each allotMiss (List.range 6), clockStates, gaugeSchedule, darkBoundary, stampDue,
  protocolBoundary fun s => computeUp s && !isHeld s 6]

theorem spares_graceHead {slips : Bool} : graceHead.Spares slips :=
  spares_cons (changes_setCommitted.spares rfl) <| spares_cons (spares_ask fun _ => spares_each fun _ _ => spares_stepClose _) <| spares_last spares_darkDeclared

theorem spares_graceTail {slips : Bool} : graceTail.Spares slips :=
  spares_cons (changes_fwKeep.spares rfl) <| spares_cons spares_fwBoundary <| spares_cons (spares_each fun _ _ => spares_allotMiss _) <| spares_cons spares_clockStates <|
    spares_cons (changes_gaugeSchedule.spares rfl) <| spares_cons spares_darkBoundary <| spares_cons (changes_stampDue.spares rfl) <|
      spares_last (spares_protocolBoundary _)

theorem graceHead_chart (s : State) : (run graceHead s).chart = s.chart :=
  only_chart (l := [.free, .out, .regs, .mem, .log, .tide, .tiles, .num, .sec, .tier, .coh, .hural, .upd, .bell, .cus, .shd])
    (changes_cons (changes_setCommitted.up rfl) (changes_cons (changes_ask fun _ => changes_each fun _ => (changes_stepClose _).up rfl)
      (changes_cons (changes_darkDeclared.up rfl) changes_nil))).only (by decide) s

/-- The window closes and plans fall due. -/
def graceClosed (s : State) : State := run (updTide fun t => { t with grace := false, takeDue := true }) s

/-- The state after the slips are latched, as the token finds it. -/
def graceLatched (s : State) : State := run samplePlans (run noProgress (run slipsLatched (graceClosed s)))

theorem run_graceEnd {s : State} (h : s.tide.grace = true) :
    run graceEnd s = run graceTail (run amendTakes (run graceHead (run commitToken (graceLatched s)))) := by
  simp only [graceEnd, run_given, h, if_true, run_all_cons, run_all_nil, graceTail, graceHead, graceLatched, graceClosed, slipsLatched]

/-- What grace end has latched stands at its end. -/
theorem graceEnd_spec {s : State} (h : s.tide.grace = true) :
    (∀ q m n, planRegs.contains q = true → getReg (run graceEnd s) q m n = getReg (run commitToken (graceLatched s)) q m n) ∧
    (run graceEnd s).tide.Agrees false (run commitToken (graceLatched s)).tide ∧
    (s.chart.staged = none → (run graceEnd s).tide.slip = (run commitToken (graceLatched s)).tide.slip) := by
  rw [run_graceEnd h]
  generalize hu : run commitToken (graceLatched s) = u
  refine ⟨fun q m n hq => ?_, ?_, fun hst => ?_⟩
  · rw [(spares_graceTail (slips := true)).getReg hq, spares_amendTakes.getReg hq, (spares_graceHead (slips := true)).getReg hq]
  · exact (spares_graceTail.agrees _).trans ((spares_amendTakes.agrees _).trans (spares_graceHead.agrees u))
  · have hchart : (run graceHead u).chart.staged = none := by
      have hsl : (run slipsLatched (graceClosed s)).chart = s.chart := only_chart (changes_each fun p => changes_partSlips p).only (by decide) _
      rw [graceHead_chart, ← hu, only_chart changes_commitToken.only (by decide), graceLatched, only_chart changes_samplePlans.only (by decide),
        only_chart changes_noProgress.only (by decide), hsl, hst]
    have hskip : run amendTakes (run graceHead u) = run graceHead u := by simp only [amendTakes, run_ask, hchart, run_skip]
    obtain ⟨-, -, -, -, htail⟩ := (spares_graceTail (slips := true)).agrees (run amendTakes (run graceHead u))
    obtain ⟨-, -, -, -, hhead⟩ := (spares_graceHead (slips := true)).agrees u
    rw [htail rfl, hskip, hhead rfl]

theorem slipsLatched_keepsTide {α : Type} {g : TideSt → α} (h : ∀ t parts, g { t with parts := parts } = g t) (s : State) :
    g (run slipsLatched s).tide = g s.tide :=
  run_each_same (fun s => g s.tide) (fun p _ s => run_same (fun s => g s.tide) (partSlips_keepsTide h p) s) s

/-- What the token finds: the window closed, plans due, the slips latched. -/
theorem graceLatched_spec (s : State) :
    (∀ q m n, planRegs.contains q = true → getReg (graceLatched s) q m n = getReg (run slipsLatched (graceClosed s)) q m n) ∧
    (graceLatched s).tide.grace = false ∧ (graceLatched s).tide.takeDue = true ∧ (graceLatched s).tide.committed = s.tide.committed ∧
    (graceLatched s).tide.token = s.tide.token ∧ (graceLatched s).tide.slip = (run slipsLatched (graceClosed s)).tide.slip := by
  have hlatched := slipsLatched_keepsTide (g := fun t => (t.grace, t.takeDue, t.committed, t.token)) (fun _ _ => rfl) (graceClosed s)
  simp only [Prod.mk.injEq] at hlatched
  obtain ⟨hgrace, hdue, hcomm, htoken⟩ := hlatched
  obtain ⟨sgrace, sdue, scomm, stoken, sslip⟩ := (spares_samplePlans (slips := true)).agrees (run noProgress (run slipsLatched (graceClosed s)))
  obtain ⟨ngrace, ndue, ncomm, ntoken, nslip⟩ := (spares_noProgress (slips := true)).agrees (run slipsLatched (graceClosed s))
  refine ⟨fun q m n hq => ?_, (sgrace.trans ngrace).trans hgrace, (sdue.trans ndue).trans hdue, (scomm.trans ncomm).trans hcomm,
    (stoken.trans ntoken).trans htoken, (sslip rfl).trans (nslip rfl)⟩
  rw [graceLatched, (spares_samplePlans (slips := true)).getReg hq, (spares_noProgress (slips := true)).getReg hq]

/-- Grace end: the window closes and plans fall due; the slips, the catch-up tides, CONSEC and the committed set stand as latched. -/
theorem graceEnd_latches {s : State} (h : s.tide.grace = true) :
    (run graceEnd s).tide.grace = false ∧ (run graceEnd s).tide.takeDue = true ∧
    (∀ q m n, planRegs.contains q = true → getReg (run graceEnd s) q m n = getReg (run slipsLatched (graceClosed s)) q m n) ∧
    (∀ c, s.tide.token = some c → isNewer s c = true → (run graceEnd s).tide.committed = some c) ∧
    (s.tide.token = none → (run graceEnd s).tide.committed = s.tide.committed) ∧
    (s.chart.staged = none → (run graceEnd s).tide.slip = (run slipsLatched (graceClosed s)).tide.slip) := by
  obtain ⟨ereg, ⟨egrace, edue, ecomm, -, -⟩, eslip⟩ := graceEnd_spec h
  obtain ⟨creg, cgrace, cdue, cslip, cnew, cnone⟩ := commitToken_spec (graceLatched s)
  obtain ⟨lreg, lgrace, ldue, lcomm, ltoken, lslip⟩ := graceLatched_spec s
  have hnewer (c : SetNo) : isNewer (graceLatched s) c = isNewer s c := by rw [isNewer, isNewer, lcomm]
  refine ⟨(egrace.trans cgrace).trans lgrace, (edue.trans cdue).trans ldue, fun q m n hq => ((ereg q m n hq).trans (creg q m n hq)).trans (lreg q m n hq),
    fun c hc hn => ?_, fun hc => ?_, fun hs => ((eslip hs).trans cslip).trans lslip⟩
  · exact ecomm.trans (cnew c (ltoken.trans hc) ((hnewer c).trans hn))
  · exact (ecomm.trans (cnone (ltoken.trans hc))).trans lcomm

end Sys2Proof.Machine

/-! PROOFS. The taking of plans: what a partition's take reads, what another partition's take leaves of it, and what each outcome does (R28, R29, R43). -/

namespace Sys2Proof.Machine

/-! What the reading of a plan rests on. -/

/-- The registers that the taking of plans writes. -/
def takeRegs : List RegName := [.TIDE_SLIPS, .TIDE_PLAN, .TIDE_EVT, .TILE_SYNC]

/-- Two states in which a plan reads, waits and passes its checks alike. -/
structure SamePlans (s t : State) : Prop where
  free : t.free = s.free
  mem : t.mem = s.mem
  coh : t.coh = s.coh
  chart : t.chart = s.chart
  committed : t.tide.committed = s.tide.committed
  xlat : t.tier.xlat = s.tier.xlat
  mig : t.tier.mig = s.tier.mig
  lost : t.tier.lost = s.tier.lost
  info : t.tier.info = s.tier.info
  regs : ∀ r m n, r ∉ takeRegs → getReg t r m n = getReg s r m n

theorem SamePlans.refl (s : State) : SamePlans s s := ⟨rfl, rfl, rfl, rfl, rfl, rfl, rfl, rfl, rfl, fun _ _ _ _ => rfl⟩

theorem SamePlans.trans {s t u : State} (h : SamePlans s t) (k : SamePlans t u) : SamePlans s u :=
  ⟨k.free.trans h.free, k.mem.trans h.mem, k.coh.trans h.coh, k.chart.trans h.chart, k.committed.trans h.committed, k.xlat.trans h.xlat, k.mig.trans h.mig,
    k.lost.trans h.lost, k.info.trans h.info, fun r m n hr => (k.regs r m n hr).trans (h.regs r m n hr)⟩

section
variable {s t : State} (h : SamePlans s t)
include h

theorem SamePlans.getF {f : Fld} (hf : f.reg ∉ takeRegs) (i j : Nat) : getF t f i j = Machine.getF s f i j := getF_of_getReg (h.regs _ _ _ hf)

theorem SamePlans.getB {f : Fld} (hf : f.reg ∉ takeRegs) (i j : Nat) : getB t f i j = Machine.getB s f i j := by rw [Machine.getB, Machine.getB, h.getF hf]

theorem SamePlans.theChart : theChart t = Machine.theChart s := by rw [Machine.theChart, Machine.theChart, h.chart]

theorem SamePlans.readMem (a n : Nat) : readMem t a n = Machine.readMem s a n := readMem_congr h.mem h.coh a n

theorem SamePlans.readNat (a n : Nat) : readNat t a n = Machine.readNat s a n := by rw [Machine.readNat, Machine.readNat, h.readMem]

theorem SamePlans.isPoisoned (a : Nat) : isPoisoned t a = Machine.isPoisoned s a := by rw [Machine.isPoisoned, Machine.isPoisoned, h.info]

theorem SamePlans.dieState (d : Nat) : dieState t d = Machine.dieState s d := by rw [Machine.dieState, Machine.dieState, h.regs _ _ _ (by decide)]

theorem SamePlans.quayUp (a : Nat) : quayUp t a = Machine.quayUp s a := by rw [Machine.quayUp, Machine.quayUp, h.dieState]

theorem SamePlans.pteAddr (n : Nat) : pteAddr t n = Machine.pteAddr s n := by rw [Machine.pteAddr, Machine.pteAddr, h.getF (by decide)]

theorem SamePlans.pageXlat (n : Nat) : pageXlat t n = Machine.pageXlat s n := by
  have hent : pageEnt t n = pageEnt s n := by simp only [pageEnt, h.pteAddr, h.readNat]
  rw [Machine.pageXlat, Machine.pageXlat, hent, h.xlat, h.free]

theorem SamePlans.objAddr (o : Nat) : objAddr t o = Machine.objAddr s o := by rw [Machine.objAddr, Machine.objAddr, h.getF (by decide)]

theorem SamePlans.objState (o : Nat) : objState t o = Machine.objState s o := by
  rw [Machine.objState, Machine.objState, objFlags, objFlags, h.objAddr, h.readNat]

theorem SamePlans.objValid (o : Nat) : objValid t o = Machine.objValid s o := by
  rw [Machine.objValid, Machine.objValid, h.getF (f := TIER_OBJTAB.COUNT) (by decide), h.getF (f := TIER_OBJTAB.ADDR) (by decide), h.objAddr, h.readNat]

theorem SamePlans.objCovers (o a : Nat) : objCovers t o a = Machine.objCovers s o a := by
  rw [Machine.objCovers, Machine.objCovers, h.objValid, objBase, objBase, objPages, objPages, h.objAddr, h.readNat, h.readNat]

theorem SamePlans.lineLost (a : Nat) : lineLost t a = Machine.lineLost s a := by rw [Machine.lineLost, Machine.lineLost, h.lost]

theorem SamePlans.pageWaitsQuota (a : Nat) : pageWaitsQuota t a = Machine.pageWaitsQuota s a := by
  simp only [Machine.pageWaitsQuota, h.mig, h.readNat, h.getF (f := TIER_MIGQ.ADDR) (by decide), h.getF (f := TIER_MIGPTR.HEAD) (by decide)]

theorem SamePlans.objectRoute (p : Piece) : objectRoute t p = Machine.objectRoute s p := by
  simp only [Machine.objectRoute, h.quayUp, h.pageXlat, h.objState, h.isPoisoned, h.pteAddr, h.objCovers, h.lineLost, h.pageWaitsQuota, h.theChart,
    h.getB (f := TIER_PTBASE.EN) (by decide)]

theorem SamePlans.route (p : Piece) : route t p = Machine.route s p := by
  simp only [Machine.route, h.quayUp, h.isPoisoned, h.theChart, h.objectRoute]

theorem SamePlans.planRead (a n : Nat) : planRead t a n = Machine.planRead s a n := by
  have hpiece (pick : Nat → Nat) (p : Piece) : pieceBytes pick t p = pieceBytes pick s p := by
    simp only [pieceBytes, h.route, h.readMem]
  simp only [Machine.planRead, mapRead, h.free, hpiece]

theorem SamePlans.planHdr (a : Nat) : planHdr t a = Machine.planHdr s a := by simp only [Machine.planHdr, planNat, h.planRead]

theorem SamePlans.planEntries (x : PlanHdr) : planEntries t x = Machine.planEntries s x := by simp only [Machine.planEntries, planEntry, planNat, h.planRead]

theorem SamePlans.isCommitted (c : SetNo) : isCommitted t c = Machine.isCommitted s c := by rw [Machine.isCommitted, Machine.isCommitted, h.committed]

theorem SamePlans.planWaits (a : Nat) : planWaits t a = Machine.planWaits s a := by simp only [Machine.planWaits, h.planHdr, h.isCommitted]

theorem SamePlans.planOk (p a : Nat) (rep : Bool) : planOk t p a rep = Machine.planOk s p a rep := by
  simp only [Machine.planOk, h.planHdr, h.planEntries, h.theChart, h.getF (f := TIDE_PERIOD.PERIOD) (by decide), h.regs .IDREV 0 0 (by decide)]

theorem SamePlans.planReachable (a : Nat) : planReachable t a = Machine.planReachable s a := by
  simp only [Machine.planReachable, h.planHdr, h.planEntries, h.dieState]

end

/-! What one partition's take leaves of another's. -/

/-- An update that a partition's take makes: it writes TIDE_PLAN of that partition alone, sets no event but PLANREJ, keeps what plans are read from, and moves that partition's tide state alone. -/
def Prim.TakesFor (q : Nat) : Prim → Prop
  | .reg r i j v => r ∈ takeRegs.tail ∧ (r = .TIDE_PLAN → i = q) ∧ (r = .TIDE_EVT → ∀ s, getF ((Prim.reg r i j v).apply s) TIDE_EVT.PLANREJ = 1)
  | .tide f => ∀ t, (f t).committed = t.committed ∧ (f t).takeDue = t.takeDue ∧ ∀ p, p ≠ q → Cells.get {} (f t).parts p = Cells.get {} t.parts p
  | .tier f => ∀ t, (f t).xlat = t.xlat ∧ (f t).mig = t.mig ∧ (f t).lost = t.lost ∧ (f t).info = t.info
  | .regsReset _ | .mem _ _ | .clear _ _ | .fresh | .coh _ | .chart _ => False
  | _ => True

abbrev Act.TakesFor (q : Nat) (a : Act) : Prop := a.Within (Prim.TakesFor q)

/-- What partition `q` does to the state as the others see it. -/
structure PlanFrame (q : Nat) (s t : State) : Prop where
  same : SamePlans s t
  due : t.tide.takeDue = s.tide.takeDue
  parts : ∀ p, p ≠ q → partSt t p = partSt s p
  slots : ∀ p n, p % 65536 ≠ q % 65536 → getReg t .TIDE_PLAN p n = getReg s .TIDE_PLAN p n
  waits : getReg t .TIDE_SLIPS 0 0 = getReg s .TIDE_SLIPS 0 0
  rejected : getF s TIDE_EVT.PLANREJ = 1 → getF t TIDE_EVT.PLANREJ = 1

theorem PlanFrame.refl (q : Nat) (s : State) : PlanFrame q s s := ⟨.refl s, rfl, fun _ _ => rfl, fun _ _ _ => rfl, rfl, id⟩

theorem PlanFrame.trans {q : Nat} {s t u : State} (h : PlanFrame q s t) (k : PlanFrame q t u) : PlanFrame q s u :=
  ⟨h.same.trans k.same, k.due.trans h.due, fun p hp => (k.parts p hp).trans (h.parts p hp), fun p n hp => (k.slots p n hp).trans (h.slots p n hp), k.waits.trans h.waits, k.rejected ∘ h.rejected⟩

theorem Prim.TakesFor.frame {q : Nat} {p : Prim} (h : p.TakesFor q) (s : State) : PlanFrame q s (p.apply s) := by
  cases p
  case reg r i j v =>
    obtain ⟨hr, hi, hset⟩ := h
    refine ⟨⟨rfl, rfl, rfl, rfl, rfl, rfl, rfl, rfl, rfl, fun q m n hq => getReg_apply_reg_name _ _ _ _ _ _ fun he => hq (he ▸ List.mem_of_mem_tail hr)⟩, rfl, fun _ _ => rfl, fun p n hp => ?_,
      getReg_apply_reg_name _ _ _ _ _ _ fun he => absurd (he ▸ hr) (by decide), fun hrej => ?_⟩
    · rw [getReg_apply_reg, if_neg fun hk => ?_]
      obtain ⟨hname, hidx, -⟩ := (regKey_eq_iff ..).mp hk
      exact hp (hi hname ▸ hidx).symm
    · by_cases hevt : r = .TIDE_EVT
      · exact hset hevt s
      · exact (getF_of_getReg (getReg_apply_reg_name _ _ _ _ _ _ hevt)).trans hrej
  case tide f => exact ⟨⟨rfl, rfl, rfl, rfl, (h _).1, rfl, rfl, rfl, rfl, fun _ _ _ _ => rfl⟩, (h _).2.1, (h _).2.2, fun _ _ _ => rfl, rfl, id⟩
  case tier f =>
    obtain ⟨hx, hm, hl, hi⟩ := h s.tier
    exact ⟨⟨rfl, rfl, rfl, rfl, rfl, hx, hm, hl, hi, fun _ _ _ _ => rfl⟩, rfl, fun _ _ => rfl, fun _ _ _ => rfl, rfl, id⟩
  case regsReset | mem | clear | fresh | coh | chart => exact h.elim
  all_goals exact ⟨⟨rfl, rfl, rfl, rfl, rfl, rfl, rfl, rfl, rfl, fun _ _ _ _ => rfl⟩, rfl, fun _ _ => rfl, fun _ _ _ => rfl, rfl, id⟩

theorem Act.TakesFor.frame {q : Nat} {a : Act} (h : a.TakesFor q) (s : State) : PlanFrame q s (run a s) :=
  run_rel (R := PlanFrame q) (.refl q) (fun h k => h.trans k) h (fun _ hp s => hp.frame s) s

section
variable {q : Nat}

theorem takesFor_setF {f : Fld} (hf : f.reg ∈ takeRegs.tail) (he : f.reg ≠ .TIDE_EVT) {i : Nat} (hi : f.reg = .TIDE_PLAN → i = q) (x j : Nat) :
    (setF f x i j).TakesFor q := fun _ => ⟨hf, hi, fun h => absurd h he⟩

theorem takesFor_planRejEvent : (evt TIDE_EVT.PLANREJ).TakesFor q := by
  refine fun s => ⟨by decide, (fun h => by cases h), fun _ t => ?_⟩
  rw [getF_of_getReg ((getReg_apply_reg_same 0 0 _ t (by decide)).trans (getReg_apply_reg_same 0 0 _ s (by decide)).symm)]
  exact getF_evt_fits (by decide) 0 0 s

theorem takesFor_updPart (f : PartSt → PartSt) : (updPart q f).TakesFor q := fun _ => ⟨rfl, rfl, fun _ hp => (Cells.get_put _ _ _ _ _).trans (if_neg hp)⟩

theorem takesFor_plansEnd (c : BCmd → Bool) (status : Nat) (count : Bool) : (plansEnd c status count).TakesFor q := fun _ => trivial

theorem takesFor_setCommitted : setCommitted.TakesFor q := fun _ => takesFor_plansEnd _ _ _

theorem takesFor_planTaken (addr : Nat) : (planTaken q addr).TakesFor q := ⟨takesFor_plansEnd _ _ _, trivial, takesFor_setCommitted, trivial⟩

theorem takesFor_planSlot (addr : Nat) (valid : Bool) : (planSlot q addr valid).TakesFor q :=
  ⟨takesFor_setF (by decide) (by decide) (fun _ => rfl) _ _, takesFor_setF (by decide) (by decide) (fun _ => rfl) _ _, (within_when _ _).mpr fun _ => takesFor_updPart _, trivial⟩

theorem takesFor_planSlotFree : (planSlotFree q).TakesFor q := by
  intro s
  refine ⟨takesFor_setF (by decide) (by decide) (fun _ => rfl) _ _, ?_⟩
  split
  · exact ⟨takesFor_updPart _, takesFor_planSlot _ _⟩
  · trivial

theorem takesFor_passesEnd : (passesEnd q).TakesFor q := by
  intro s
  refine ⟨?_, trivial, trivial⟩
  split
  · exact (within_when _ _).mpr fun _ _ => ⟨rfl, rfl, fun _ _ => rfl⟩
  · trivial

theorem takesFor_batchCounter (p : Nat) : (batchCounter p).TakesFor q := by
  intro s
  dsimp only
  split
  · exact (within_each _ _).mpr fun _ _ => takesFor_setF (by decide) (by decide) (fun h => by cases h) _ _
  · trivial

theorem takesFor_syncClear (p : Nat) : (syncClear p).TakesFor q :=
  fun _ => ⟨(within_each _ _).mpr fun _ _ => (within_each _ _).mpr fun _ _ => takesFor_setF (by decide) (by decide) (fun h => by cases h) _ _, (within_when _ _).mpr fun _ => trivial⟩

theorem takesFor_setContributes (p : Nat) (set : SetNo) : (setContributes p set).TakesFor q :=
  fun _ => (within_when _ _).mpr fun _ _ => ⟨rfl, rfl, fun _ _ => rfl⟩

theorem takesFor_unitTakes (h : PlanHdr) (l : UnitList) : (unitTakes h l).TakesFor q := by
  intro s
  dsimp only
  split_ifs
  · trivial
  · trivial
  · exact fun _ => ⟨rfl, rfl, rfl, rfl⟩
  · trivial
  · trivial

theorem takesFor_planTakes (a : Nat) (named : Bool) : (planTakes q a named).TakesFor q :=
  fun _ => ⟨takesFor_passesEnd, (within_when _ _).mpr fun _ => takesFor_setContributes _ _, takesFor_syncClear _, (within_each _ _).mpr fun _ _ => takesFor_unitTakes _ _,
    takesFor_updPart _, (within_when _ _).mpr fun _ => takesFor_planSlotFree, takesFor_batchCounter _, (within_when _ _).mpr fun _ => takesFor_planTaken _,
    (within_when _ _).mpr fun _ _ => ⟨rfl, rfl, rfl, rfl⟩, trivial⟩

theorem takesFor_planRejects (a : Nat) (named : Bool) : (planRejects q a named).TakesFor q :=
  fun _ => ⟨takesFor_passesEnd, takesFor_updPart _, (within_when _ _).mpr fun _ => takesFor_planSlotFree, takesFor_planRejEvent,
    fun _ => trivial, (within_when _ _).mpr fun _ => takesFor_plansEnd _ _ _, trivial⟩

theorem takesFor_partTakes : (partTakes q).TakesFor q := by
  intro s
  dsimp only
  split
  · exact takesFor_updPart _
  · split
    · exact takesFor_updPart _
    · split_ifs
      · exact takesFor_updPart _
      · exact takesFor_planRejects _ _
      · exact takesFor_updPart _
      · exact takesFor_planTakes _ _

end

/-! What a partition's own take does. -/

section
variable {p : Nat}

/-- A program that leaves a reading of the partition's tide state. -/
abbrev Act.KeepsPart {α : Type} (p : Nat) (g : PartSt → α) (a : Act) : Prop := a.Within fun q => ∀ s, g (partSt (q.apply s) p) = g (partSt s p)

theorem updPart_keepsPart {α : Type} {g : PartSt → α} {f : PartSt → PartSt} (h : ∀ x, g (f x) = g x) : (updPart p f).KeepsPart p g :=
  fun s => (congrArg g ((updPart_partSt p p f s).trans (if_pos rfl))).trans (h _)

theorem keepsPart_of_changes {α : Type} {g : PartSt → α} {l : List Part} {a : Act} (h : a.Changes l) (hl : Part.tide ∉ l) : a.KeepsPart p g :=
  Act.Within.mono (fun q hq s => congrArg g (partSt_of_tide (only_tide (a := .prim q) hq hl s) p)) h.only

/-- The plan a partition holds, and its LINK. -/
def PartSt.held (x : PartSt) : Option HeldPlan × W64 := (x.plan, x.link)

/-- A slot that becomes free leaves the plan that the partition holds and its LINK. -/
theorem planSlotFree_keepsPlan : (planSlotFree p).KeepsPart p PartSt.held := by
  intro s
  refine ⟨keepsPart_of_changes (g := PartSt.held) (changes_setF _ _ _ _) (by decide), ?_⟩
  split
  · exact ⟨updPart_keepsPart (g := PartSt.held) fun _ => rfl, keepsPart_of_changes (g := PartSt.held) (changes_setF _ _ _ _) (by decide), keepsPart_of_changes (g := PartSt.held) (changes_setF _ _ _ _) (by decide),
      (within_when _ _).mpr fun _ => updPart_keepsPart (g := PartSt.held) fun _ => rfl, trivial⟩
  · trivial

/-- With no write behind it, the slot is just free. -/
theorem run_planSlotFree_of_none {s : State} (h : (partSt s p).behind = none) : run (planSlotFree p) s = run (setF TIDE_PLAN.VALID 0 p) s := by
  simp only [planSlotFree, run_ask, h, run_seq, run_skip]

theorem passesEnd_parts (s : State) : (run (passesEnd p) s).tide.parts = s.tide.parts := by
  refine run_same (fun s => s.tide.parts) (a := passesEnd p) (fun s => ⟨?_, fun _ => rfl, trivial⟩) s
  split
  · exact (within_when _ _).mpr fun _ _ => rfl
  · trivial

theorem partSt_of_parts {s t : State} (h : t.tide.parts = s.tide.parts) (q : Nat) : partSt t q = partSt s q := by rw [partSt, partSt, h]

/-- What of a rejection comes before its slot is free. -/
def rejectHead (p : Nat) (again : Bool) : Act :=
  Act.all [passesEnd p, updPart p fun x => { x with plan := none, link := 0, sampled := none, rewritten := false, rejected := !again }]

theorem rejectHead_partSt (again : Bool) (s : State) : partSt (run (rejectHead p again) s) p =
    { partSt s p with plan := none, link := 0, sampled := none, rewritten := false, rejected := !again } := by
  simp only [rejectHead, run_all_cons, run_all_nil]
  rw [updPart_partSt, if_pos rfl, partSt_of_parts (passesEnd_parts s)]

/-- What of a rejection comes after. -/
def rejectTail (p a : Nat) : Act := Act.all [evt TIDE_EVT.PLANREJ, logEv .planRejected (data := [p]), planRejected p a]

theorem changes_rejectTail (p a : Nat) : (rejectTail p a).Changes [.regs, .log, .bell] :=
  changes_cons ((changes_evt _ _ _).up rfl) (changes_cons ((changes_logEv _ _ _ _).up rfl) (changes_cons ((changes_planRejected _ _).up rfl) changes_nil))

theorem run_planRejects (a : Nat) (s : State) : run (planRejects p a true) s =
    run (rejectTail p a) (run (Act.when (!(partSt s p).rewritten) (planSlotFree p)) (run (rejectHead p (partSt s p).rewritten) s)) := by
  simp only [planRejects, run_ask, run_all_cons, run_all_nil, rejectHead, rejectTail, Bool.true_and, run_when, if_true]

/-- A rejected plan leaves the partition without plan and LINK. -/
theorem planRejects_spec (a : Nat) (s : State) :
    let t := run (planRejects p a true) s
    (partSt t p).plan = none ∧ (partSt t p).link = 0 ∧ getF t TIDE_EVT.PLANREJ = 1 ∧
      ((partSt s p).rewritten = false → (partSt s p).behind = none → (partSt t p).rejected = true ∧ getF t TIDE_PLAN.VALID p = 0) := by
  intro t
  have htail (u : State) : partSt (run (rejectTail p a) u) p = partSt u p := partSt_of_tide (only_tide (changes_rejectTail p a).only (by decide) u) p
  have hrej (u : State) : getF (run (rejectTail p a) u) TIDE_EVT.PLANREJ = 1 := by
    have hw : getF (run (evt TIDE_EVT.PLANREJ) u) TIDE_EVT.PLANREJ = 1 := getF_evt_fits (by decide) 0 0 u
    simp only [rejectTail, run_all_cons, run_all_nil]
    rw [(writes_of_changes (l := []) (changes_planRejected p a) (by decide)).getF (by decide), logEv_getF, hw]
  have hvalid (u : State) : getF (run (rejectTail p a) u) TIDE_PLAN.VALID p = getF u TIDE_PLAN.VALID p := by
    simp only [rejectTail, run_all_cons, run_all_nil]
    rw [(writes_of_changes (l := []) (changes_planRejected p a) (by decide)).getF (by decide), logEv_getF, getF_evt_apart (by decide)]
  have hhead := rejectHead_partSt (p := p) (partSt s p).rewritten s
  have hplan := run_same (fun s => (partSt s p).held) (a := Act.when (!(partSt s p).rewritten) (planSlotFree p))
    ((within_when _ _).mpr fun _ => planSlotFree_keepsPlan) (run (rejectHead p (partSt s p).rewritten) s)
  simp only [PartSt.held, Prod.mk.injEq, hhead] at hplan
  simp only [t, run_planRejects, htail, hrej, hvalid]
  refine ⟨hplan.1, hplan.2, trivial, fun hrw hbehind => ?_⟩
  rw [hrw] at hhead ⊢
  rw [run_when, Bool.not_false, if_pos rfl, run_planSlotFree_of_none (by rw [hhead, hbehind]), partSt_of_tide (setF_tide _ _ _ _ _), hhead]
  exact ⟨rfl, getF_setF_fits (by decide) 0 p 0 _⟩

/-- What of a take comes before the partition holds its plan. -/
def takeHead (s : State) (p a : Nat) : Act :=
  Act.all [passesEnd p, Act.when (bitOf (planHdr s a).flags 0) (setContributes p (BitVec.ofNat 16 (planHdr s a).set)), syncClear p,
    Act.each (fun e => unitTakes (planHdr s a) e.1) (planEntries s (planHdr s a))]

/-- The plan that a partition holds once it has taken the one at an address. -/
def heldPlan (s : State) (a : Nat) : HeldPlan :=
  { addr := BitVec.ofNat 48 a, setv := bitOf (planHdr s a).flags 0, set := BitVec.ofNat 16 (planHdr s a).set, link := BitVec.ofNat 64 (planHdr s a).link }

/-- A partition that has taken the plan at an address. -/
def PartSt.takes (s : State) (a : Nat) : PartSt → PartSt := fun x =>
  { x with plan := some (heldPlan s a), link := BitVec.ofNat 64 (planHdr s a).link, sampled := none, rewritten := false, rejected := false }

/-- What of a take comes after its slot is free. -/
def takeTail (s : State) (p a : Nat) : Act :=
  Act.all [batchCounter p, planTaken p a, Act.when (getF s NUM_STEP.PER p = 0) (updTier fun t => { t with lapse := Cells.put 0 t.lapse p (Cells.get 0 t.lapse p - 1) })]

theorem changes_takeTail (s : State) (p a : Nat) : (takeTail s p a).Changes [.regs, .tier, .bell] :=
  changes_cons ((changes_batchCounter _).up rfl) (changes_cons ((changes_planTaken _ _).up rfl) (changes_cons (changes_when ((changes_updTier _).up rfl)) changes_nil))

theorem takeHead_parts (s t : State) (a : Nat) : (run (takeHead s p a) t).tide.parts = t.tide.parts := by
  have hset (set : SetNo) (t : State) : (run (setContributes p set) t).tide.parts = t.tide.parts := by
    simp only [setContributes, run_ask, run_when]
    split <;> rfl
  have hsync (t : State) : (run (syncClear p) t).tide = t.tide := only_tide (changes_syncClear p).only (by decide) t
  have hunits (t : State) : (run (Act.each (fun e => unitTakes (planHdr s a) e.1) (planEntries s (planHdr s a))) t).tide = t.tide :=
    only_tide (changes_each fun e => changes_unitTakes _ _).only (by decide) t
  simp only [takeHead, run_all_cons, run_all_nil, hunits, hsync, run_when]
  split
  · rw [hset, passesEnd_parts]
  · rw [passesEnd_parts]

theorem run_planTakes (a : Nat) (s : State) : run (planTakes p a true) s = run (takeTail s p a) (run (Act.when (!(partSt s p).rewritten) (planSlotFree p))
    (run (updPart p (PartSt.takes s a)) (run (takeHead s p a) s))) := by
  unfold PartSt.takes
  simp only [planTakes, run_ask, run_all_cons, run_all_nil, takeHead, takeTail, heldPlan, Bool.true_and, run_when, if_true]

/-- A plan that is taken is held, with its LINK. -/
theorem planTakes_spec (a : Nat) (s : State) :
    let t := run (planTakes p a true) s
    (partSt t p).plan = some (heldPlan s a) ∧ ((partSt s p).rewritten = false → (partSt s p).behind = none → getF t TIDE_PLAN.VALID p = 0) := by
  intro t
  have htail (u : State) : partSt (run (takeTail s p a) u) p = partSt u p := partSt_of_tide (only_tide (changes_takeTail s p a).only (by decide) u) p
  have hvalid (u : State) : getF (run (takeTail s p a) u) TIDE_PLAN.VALID p = getF u TIDE_PLAN.VALID p := by
    have hbatch : (batchCounter p).Writes [.TILE_SYNC] := by
      intro s
      dsimp only
      split
      · exact (within_each _ _).mpr fun _ _ => writes_setF (by decide) _ _ _
      · trivial
    have hw : (takeTail s p a).Writes [.TILE_SYNC] :=
      ⟨hbatch, writes_of_changes (changes_planTaken p a) (by decide), (within_when _ _).mpr fun _ => trivial, trivial⟩
    exact hw.getF (by decide) p 0 u
  have hheld := updPart_partSt p p (PartSt.takes s a) (run (takeHead s p a) s)
  rw [if_pos rfl, partSt_of_parts (takeHead_parts s s a)] at hheld
  generalize hu : run (updPart p (PartSt.takes s a)) (run (takeHead s p a) s) = u at hheld
  have hplan := run_same (fun s => (partSt s p).held) (a := Act.when (!(partSt s p).rewritten) (planSlotFree p))
    ((within_when _ _).mpr fun _ => planSlotFree_keepsPlan) u
  simp only [PartSt.held, Prod.mk.injEq, hheld, PartSt.takes] at hplan
  simp only [t, run_planTakes, htail, hvalid, hu]
  refine ⟨hplan.1, fun hrw hbehind => ?_⟩
  rw [hrw, run_when, Bool.not_false, if_pos rfl, run_planSlotFree_of_none (by rw [hheld, PartSt.takes, hbehind])]
  exact getF_setF_fits (by decide) 0 p 0 _

variable {s : State} (hslip : (partSt s p).slip = false) {a : Addr} (hsampled : (partSt s p).sampled = some a)
include hslip hsampled

theorem run_partTakes_of_waits (hw : planWaits s a.toNat = true) : run (partTakes p) s = run (updPart p fun x => { x with sampled := none, rewritten := false }) s := by
  simp only [partTakes, run_ask, hslip, nextPlan, hsampled, hw, Bool.false_eq_true, if_false, if_true]

theorem run_partTakes_of_bad (hw : planWaits s a.toNat = false) (hok : planOk s p a.toNat false = false) : run (partTakes p) s = run (planRejects p a.toNat true) s := by
  simp only [partTakes, run_ask, hslip, nextPlan, hsampled, hw, hok, Bool.false_eq_true, if_false, if_true, Bool.not_false]

theorem run_partTakes_of_good (hw : planWaits s a.toNat = false) (hok : planOk s p a.toNat false = true) (hr : planReachable s a.toNat = true) :
    run (partTakes p) s = run (planTakes p a.toNat true) s := by
  simp only [partTakes, run_ask, hslip, nextPlan, hsampled, hw, hok, hr, Bool.false_eq_true, if_false, Bool.not_true]

theorem tokenWaits_of_sampled : tokenWaits s p = planWaits s a.toNat := by simp [tokenWaits, nextPlan, hslip, hsampled]

end

/-! Every partition takes its plan. -/

/-- What the takes of other partitions leave for partition `p`. -/
structure OthersTook (p : Nat) (s t : State) : Prop where
  same : SamePlans s t
  part : partSt t p = partSt s p
  slot : getReg t .TIDE_PLAN p 0 = getReg s .TIDE_PLAN p 0
  waits : getReg t .TIDE_SLIPS 0 0 = getReg s .TIDE_SLIPS 0 0
  rejected : getF s TIDE_EVT.PLANREJ = 1 → getF t TIDE_EVT.PLANREJ = 1

theorem othersTook_of_takes {p : Nat} (hp : p < 64) {l : List Nat} (hl : ∀ q ∈ l, q < 256) (hpl : p ∉ l) (s : State) : OthersTook p s (run (Act.each partTakes l) s) := by
  induction l generalizing s with
  | nil => exact ⟨.refl s, rfl, rfl, rfl, id⟩
  | cons q l ih =>
    have hq : q < 256 := hl q List.mem_cons_self
    have hne : p ≠ q := fun h => hpl (h ▸ List.mem_cons_self)
    have hf := (takesFor_partTakes (q := q)).frame s
    have hrest := ih (fun x hx => hl x (List.mem_cons_of_mem _ hx)) (fun h => hpl (List.mem_cons_of_mem _ h)) (run (partTakes q) s)
    exact ⟨hf.same.trans hrest.same, hrest.part.trans (hf.parts p hne), hrest.slot.trans (hf.slots p 0 (by omega)), hrest.waits.trans hf.waits, hrest.rejected ∘ hf.rejected⟩

/-- The partitions of the chart in effect. -/
def partsOf (s : State) : List Nat := (theChart s).parts.map fun e => e.part

theorem leNat_lt (l : List Byte) : leNat l < 256 ^ l.length := by
  induction l with
  | nil => exact Nat.one_pos
  | cons b l ih =>
    have hb : b.toNat < 256 := b.isLt
    rw [leNat, List.length_cons, Nat.pow_succ']
    omega

theorem partsOf_lt {s : State} {q : Nat} (h : q ∈ partsOf s) : q < 256 := by
  simp only [partsOf, Chart.parts, List.map_map, List.mem_map] at h
  obtain ⟨i, -, rfl⟩ := h
  have hlen : (slice ((theChart s).sec 1) (8 + 80 * i) 1).length ≤ 1 := by simp [slice]
  simp only [Function.comp, Chart.fld, fieldAt]
  exact Nat.lt_of_lt_of_le (leNat_lt _) (Nat.pow_le_pow_right (by decide) hlen)

/-- Plans are due no longer, and a token-wait tide is counted. -/
def takeOpened (s : State) : State :=
  run (Act.when ((partsOf s).any fun p => tokenWaits s p) (incF TIDE_SLIPS.TOKDEF)) (run (updTide fun t => { t with takeDue := false }) s)

theorem run_planTake {s : State} (hdue : s.tide.takeDue = true) (h1 : isHeld s 1 = false) (h7 : isHeld s 7 = false) :
    run planTake s = run commitRecord (Prim.apply .fresh (run (Act.each partTakes (partsOf s)) (takeOpened s))) := by
  have hheld (d : Nat) : isHeld (run (updTide fun t => { t with takeDue := false }) s) d = isHeld s d := rfl
  simp only [planTake, run_given, hdue, if_true, run_all_cons, run_all_nil, run_ask, run_prim, run_when, hheld, h1, h7, Bool.not_false, Bool.and_self, run_seq, takeOpened]
  rfl

end Sys2Proof.Machine

/-! PROOFS. Slips and plans: grace end, the taking of plans, and writes of TIDE_PLAN (R28 to R43). -/

namespace Sys2Proof.Machine

/-! Grace end. -/

theorem graceClosed_view (s : State) : slipView (graceClosed s) = slipView s := rfl

theorem graceClosed_getF (f : Fld) (i j : Nat) (s : State) : getF (graceClosed s) f i j = getF s f i j := rfl

theorem graceEnd_getF {s : State} (h : s.tide.grace = true) {f : Fld} (hf : planRegs.contains f.reg = true) (i j : Nat) :
    getF (run graceEnd s) f i j = getF (run slipsLatched (graceClosed s)) f i j := by
  obtain ⟨-, -, hreg, -⟩ := graceEnd_latches h
  exact getF_of_getReg (hreg _ _ _ hf)

theorem graceEnd_catchup {s : State} (h : s.tide.grace = true) {p : Nat} (hp : p < 64) :
    getF (run graceEnd s) TIDE_PLAN.CATCHUP p = b2n (partBusy s p) ∧
    getF (run graceEnd s) TIDE_PLAN.SHIFTS p = (if partBusy s p then min (getF s TIDE_PLAN.SHIFTS p + 1) 0xFFFF else getF s TIDE_PLAN.SHIFTS p) := by
  obtain ⟨hc, hs, -⟩ := slipsLatched_spec hp (graceClosed s)
  rw [graceEnd_getF h (by decide), graceEnd_getF h (by decide), hc, hs, graceClosed_getF, partBusy_of_view (graceClosed_view s)]
  exact ⟨rfl, rfl⟩

theorem graceEnd_consec {s : State} (h : s.tide.grace = true) {p u : Nat} (hp : p < 64) (hone : (partUnits s p).count u = 1)
    (hother : ∀ q, q < 64 → q ≠ p → u ∉ partUnits s q) : getF (run graceEnd s) TIDE_UNIT.CONSEC u = consecAfter s u (getF s TIDE_UNIT.CONSEC u) := by
  have hunits (q : Nat) : partUnits (graceClosed s) q = partUnits s q := partUnits_of_view (graceClosed_view s) q
  rw [graceEnd_getF h (by decide), slipsLatched_consec hp (by rw [hunits]; exact hone) (fun q hq hne => by rw [hunits]; exact hother q hq hne),
    consecAfter_of_view (graceClosed_view s), graceClosed_getF]

theorem graceEnd_slip {s : State} (h : s.tide.grace = true) (hst : s.chart.staged = none) {p : Nat} (hp : p < 64) :
    (partSt (run graceEnd s) p).slip = partBusy s p := by
  obtain ⟨-, -, -, -, -, hslip⟩ := graceEnd_latches h
  obtain ⟨-, -, hlatch⟩ := slipsLatched_spec hp (graceClosed s)
  rw [partBusy_of_view (graceClosed_view s)] at hlatch
  exact (congrFun (hslip hst) p).trans hlatch

/-! The taking of plans. -/

theorem samePlans_takeOpened (s : State) : SamePlans s (takeOpened s) := by
  have hinc (t : State) : SamePlans t (run (incF TIDE_SLIPS.TOKDEF) t) := by
    refine ⟨incF_free .., incF_mem .., incF_coh .., incF_chart .., congrArg _ (incF_tide ..), congrArg _ (incF_tier ..), congrArg _ (incF_tier ..),
      congrArg _ (incF_tier ..), congrArg _ (incF_tier ..), fun r m n hr => ?_⟩
    simp only [incF, modF, run_ask, run_prim]
    exact getReg_apply_reg_name _ _ _ _ _ _ fun he => hr (he ▸ by decide)
  have hopen : SamePlans s (run (updTide fun t => { t with takeDue := false }) s) := ⟨rfl, rfl, rfl, rfl, rfl, rfl, rfl, rfl, rfl, fun _ _ _ _ => rfl⟩
  rw [takeOpened, run_when]
  split
  · exact hopen.trans (hinc _)
  · exact hopen

theorem takeOpened_partSt (s : State) (p : Nat) : partSt (takeOpened s) p = partSt s p := by
  rw [takeOpened, run_when]
  split
  · exact partSt_of_tide (incF_tide ..) p
  · rfl

theorem takeOpened_slot (s : State) (p : Nat) : getReg (takeOpened s) .TIDE_PLAN p 0 = getReg s .TIDE_PLAN p 0 := by
  rw [takeOpened, run_when]
  split
  · simp only [incF, modF, run_ask, run_prim]
    exact getReg_apply_reg_name _ _ _ _ _ _ (by decide)
  · rfl

/-- A partition that waits makes the tide a token-wait tide. -/
theorem takeOpened_tokdef {s : State} {p : Nat} (hp : p ∈ partsOf s) (hw : tokenWaits s p = true) :
    getF (takeOpened s) TIDE_SLIPS.TOKDEF = min (getF s TIDE_SLIPS.TOKDEF + 1) 0xFFFF_FFFF := by
  rw [takeOpened, run_when, if_pos (List.any_eq_true.mpr ⟨p, hp, hw⟩)]
  exact getF_incF_fits (by decide) 1 0 0 _

theorem planTake_takeDue {s : State} (hdue : s.tide.takeDue = true) (h1 : isHeld s 1 = false) (h7 : isHeld s 7 = false) :
    (run planTake s).tide.takeDue = false := by
  have hparts (l : List Nat) (t : State) : (run (Act.each partTakes l) t).tide.takeDue = t.tide.takeDue := by
    exact run_each_same (fun s => s.tide.takeDue) (fun q _ s => ((takesFor_partTakes (q := q)).frame s).due) t
  rw [run_planTake hdue h1 h7, only_tide changes_commitRecord.only (by decide)]
  refine (hparts _ _).trans ?_
  rw [takeOpened, run_when]
  split <;> rfl

/-- A partition's take, between those of the others. -/
theorem planTake_around {s : State} (hdue : s.tide.takeDue = true) (h1 : isHeld s 1 = false) (h7 : isHeld s 7 = false) {p : Nat} (hp : p < 64)
    (hone : (partsOf s).count p = 1) : ∃ u v, OthersTook p (takeOpened s) u ∧ OthersTook p (run (partTakes p) u) v ∧
      (run planTake s).tide = v.tide ∧ ∀ f i j, getF (run planTake s) f i j = getF v f i j := by
  have hlt (q : Nat) (hq : q ∈ partsOf s) : q < 256 := partsOf_lt hq
  obtain ⟨a, b, hab, ha, hb⟩ := exists_split_of_count hone
  refine ⟨run (Act.each partTakes a) (takeOpened s), _, othersTook_of_takes hp (fun q hq => hlt q (by simp [hab, hq])) ha _,
    othersTook_of_takes hp (fun q hq => hlt q (by simp [hab, hq])) hb _, ?_⟩
  rw [run_planTake hdue h1 h7, hab, run_each_append, run_each_cons]
  have hcommit := changes_commitRecord.only
  exact ⟨only_tide hcommit (by decide) _, fun f i j => getF_of_getReg (by rw [getReg, getReg, only_regs hcommit (by decide)]; rfl)⟩

section
variable {s : State} (hdue : s.tide.takeDue = true) (h1 : isHeld s 1 = false) (h7 : isHeld s 7 = false) {p : Nat} (hp : p < 64)
  (hone : (partsOf s).count p = 1) (hslip : (partSt s p).slip = false) {a : Addr} (hsampled : (partSt s p).sampled = some a)
include hdue h1 h7 hp hone hslip hsampled

/-- A plan whose set is not committed leaves the partition's plan and costs a token-wait tide. -/
theorem planTake_of_waits (hw : planWaits s a.toNat = true) :
    (partSt (run planTake s) p).plan = (partSt s p).plan ∧ getF (run planTake s) TIDE_SLIPS.TOKDEF = min (getF s TIDE_SLIPS.TOKDEF + 1) 0xFFFF_FFFF ∧
      getF (run planTake s) TIDE_PLAN.VALID p = getF s TIDE_PLAN.VALID p := by
  obtain ⟨u, v, hu, hv, htide, hreg⟩ := planTake_around hdue h1 h7 hp hone
  have hpart : partSt u p = partSt s p := hu.part.trans (takeOpened_partSt s p)
  have htake := run_partTakes_of_waits ((congrArg PartSt.slip hpart).trans hslip) ((congrArg PartSt.sampled hpart).trans hsampled) ((((samePlans_takeOpened s).trans hu.same).planWaits _).trans hw)
  have hmem : p ∈ partsOf s := List.count_pos_iff.mp (hone ▸ Nat.one_pos)
  rw [htake] at hv
  rw [partSt_of_tide htide, hv.part, updPart_partSt, if_pos rfl, hpart, hreg, hreg, ← takeOpened_tokdef hmem ((tokenWaits_of_sampled hslip hsampled).trans hw)]
  exact ⟨rfl, getF_of_getReg (hv.waits.trans hu.waits), getF_of_getReg ((hv.slot.trans hu.slot).trans (takeOpened_slot s p))⟩

/-- A plan that fails its checks is rejected. -/
theorem planTake_of_bad (hw : planWaits s a.toNat = false) (hok : planOk s p a.toNat false = false) :
    (partSt (run planTake s) p).plan = none ∧ (partSt (run planTake s) p).link = 0 ∧ getF (run planTake s) TIDE_EVT.PLANREJ = 1 ∧
      ((partSt s p).rewritten = false → (partSt s p).behind = none →
        (partSt (run planTake s) p).rejected = true ∧ getF (run planTake s) TIDE_PLAN.VALID p = 0) := by
  obtain ⟨u, v, hu, hv, htide, hreg⟩ := planTake_around hdue h1 h7 hp hone
  have hpart : partSt u p = partSt s p := hu.part.trans (takeOpened_partSt s p)
  have hsame := (samePlans_takeOpened s).trans hu.same
  rw [run_partTakes_of_bad ((congrArg PartSt.slip hpart).trans hslip) ((congrArg PartSt.sampled hpart).trans hsampled) ((hsame.planWaits _).trans hw) ((hsame.planOk ..).trans hok)] at hv
  obtain ⟨hplan, hlink, hrej, hslot⟩ := planRejects_spec (p := p) a.toNat u
  rw [partSt_of_tide htide, hv.part, hreg, hreg]
  refine ⟨hplan, hlink, hv.rejected hrej, fun hrw hbehind => ?_⟩
  obtain ⟨hrejected, hvalid⟩ := hslot ((congrArg PartSt.rewritten hpart).trans hrw) ((congrArg PartSt.behind hpart).trans hbehind)
  exact ⟨hrejected, (getF_of_getReg hv.slot).trans hvalid⟩

/-- A plan that passes its checks on dies in service is taken. -/
theorem planTake_of_good (hw : planWaits s a.toNat = false) (hok : planOk s p a.toNat false = true) (hreach : planReachable s a.toNat = true) :
    (∃ h, (partSt (run planTake s) p).plan = some h ∧ h.addr = a ∧ h.link = BitVec.ofNat 64 (planHdr s a.toNat).link) ∧
      ((partSt s p).rewritten = false → (partSt s p).behind = none → getF (run planTake s) TIDE_PLAN.VALID p = 0) := by
  obtain ⟨u, v, hu, hv, htide, hreg⟩ := planTake_around hdue h1 h7 hp hone
  have hpart : partSt u p = partSt s p := hu.part.trans (takeOpened_partSt s p)
  have hsame := (samePlans_takeOpened s).trans hu.same
  rw [run_partTakes_of_good ((congrArg PartSt.slip hpart).trans hslip) ((congrArg PartSt.sampled hpart).trans hsampled) ((hsame.planWaits _).trans hw) ((hsame.planOk ..).trans hok)
    ((hsame.planReachable _).trans hreach)] at hv
  obtain ⟨hplan, hslot⟩ := planTakes_spec (p := p) a.toNat u
  rw [partSt_of_tide htide, hv.part, hreg]
  refine ⟨⟨_, hplan, BitVec.ofNat_toNat .., ?_⟩, fun hrw hbehind => ?_⟩
  · rw [heldPlan, hsame.planHdr]
  · exact (getF_of_getReg hv.slot).trans (hslot ((congrArg PartSt.rewritten hpart).trans hrw) ((congrArg PartSt.behind hpart).trans hbehind))

end

/-! Writes of TIDE_PLAN. -/

/-- A write that nothing precedes names the address and sets VALID at once. -/
theorem tidePlanWrite_of_free {s : State} {p : Nat} (h : planPending s p = false) (addr : Addr) :
    getF (run (tidePlanWrite p addr.toNat) s) TIDE_PLAN.ADDR p = addr.toNat / 64 ∧ getF (run (tidePlanWrite p addr.toNat) s) TIDE_PLAN.VALID p = 1 ∧
      (partSt (run (tidePlanWrite p addr.toNat) s) p).rejected = false ∧
      getF (run (tidePlanWrite p addr.toNat) s) TIDE_PLAN.SHIFTS p = getF s TIDE_PLAN.SHIFTS p ∧ (run (tidePlanWrite p addr.toNat) s).mem = s.mem := by
  have haddr : addr.toNat / 64 % 2 ^ TIDE_PLAN.ADDR.width = addr.toNat / 64 := by
    have hw : TIDE_PLAN.ADDR.width = 42 := rfl
    have := addr.isLt
    rw [hw]
    omega
  have hpart (f : PartSt → PartSt) (t : State) (g : Fld) (i j : Nat) : getF (run (updPart p f) t) g i j = getF t g i j := rfl
  simp only [tidePlanWrite, tidePlanSet, run_ask, h, Bool.false_eq_true, if_false, planSlot, run_all_cons, run_all_nil, run_when, if_true, updPart_partSt, hpart]
  have hmem (f : PartSt → PartSt) (t : State) : (run (updPart p f) t).mem = t.mem := rfl
  simp (decide := true) [haddr, hmem]

/-- A write behind a PLAN command's waits. -/
theorem tidePlanWrite_of_pending {s : State} {p : Nat} (h : planPending s p = true) (addr : Addr) :
    (partSt (run (tidePlanWrite p addr.toNat) s) p).behind = some (addr, true) ∧ (run (tidePlanWrite p addr.toNat) s).regs = s.regs ∧
      (run (tidePlanWrite p addr.toNat) s).mem = s.mem := by
  simp only [tidePlanWrite, tidePlanSet, run_ask, h, if_true, updPart_partSt]
  exact ⟨by rw [BitVec.ofNat_toNat, BitVec.setWidth_eq], rfl, rfl⟩

/-- Settles O11: grace end latches what `slipsLatched` finds, and a partition's take stands between those of the others, which leave what it reads. -/
theorem slipsAndPlans : Obligations.SlipsAndPlans := by
  refine ⟨fun s h => ?_, fun s u _ => ⟨unitSlips_consec u s, unitSlips_total u s, unitSlips_suspect⟩,
    fun s p a hdue hp hone h1 h7 hslip hsampled => ⟨_, rfl, planTake_takeDue hdue h1 h7, planTake_of_waits hdue h1 h7 hp hone hslip hsampled,
      planTake_of_bad hdue h1 h7 hp hone hslip hsampled, planTake_of_good hdue h1 h7 hp hone hslip hsampled⟩,
    fun s p addr h => ⟨_, rfl, tidePlanWrite_of_free h addr⟩, fun s p addr h => ⟨_, rfl, tidePlanWrite_of_pending h addr⟩⟩
  obtain ⟨hgrace, hdue, -, hnew, hnone, -⟩ := graceEnd_latches h
  exact ⟨_, rfl, hgrace, hdue, fun p hp => graceEnd_catchup h hp, hnew, hnone, fun p u hp hone hother => graceEnd_consec h hp hone hother,
    fun hst p hp => graceEnd_slip h hst hp⟩

end Sys2Proof.Machine

/-! PROOFS. Messages at the lender: WRITE, BULK and READ of this package's window (R352, R353, R359). -/

namespace Sys2Proof.Machine

/-! The message leaves the inbox. -/

/-- The state without a message of the inbox, with what its port's credits have become. -/
def msgGone (e : Nat × HMsg × Nat) (ports : FMap PortSt) (s : State) : State :=
  { s with hural := { s.hural with inbox := s.hural.inbox.erase e, ports := ports } }

theorem takeMsg_spec {s : State} {n : Nat} {c : HMsg → Bool} {e : Nat × HMsg × Nat} (h : (s.hural.inbox.find? fun e => e.1 = n && c e.2.1) = some e) (k : HMsg → Act) :
    ∃ ports, run (takeMsg n c k) s = run (k e.2.1) (msgGone e ports s) := by
  obtain ⟨ports, hm⟩ := run_msgTaken n e s
  exact ⟨ports, by rw [run_takeMsg h, hm]; rfl⟩

/-! A store within a line. -/

theorem linePieces_of_line {a n : Nat} (hn : 0 < n) (h : a % 64 + n ≤ 64) : linePieces a n = [(a, n)] := by
  have hone : (a % 64 + n + 63) / 64 = 1 := by omega
  have hlo : max a (a / 64 * 64) = a := by omega
  have hlen : min (a + n) ((a / 64 + 1) * 64) - a = n := by omega
  simp only [linePieces, Nat.pos_iff_ne_zero.mp hn, if_false, hone, List.range_one, List.map_cons, List.map_nil, Nat.add_zero, hlo, hlen]

theorem cohData_of_look {s : State} {line : Nat} (h : Cells.look s.coh.dir line = none) : cohData s line = none := by rw [cohData, h]

/-- Bytes stored within a line that no cache holds are read there; all others stand. -/
theorem storeMem_of_line {s : State} {a : Nat} {bs : List Byte} (w : Writer) (hn : 0 < bs.length) (hfit : a % 64 + bs.length ≤ 64)
    (hdir : Cells.look s.coh.dir (a / 64) = none) :
    (run (storeMem w a bs) s).regs = s.regs ∧ readMem (run (storeMem w a bs) s) a bs.length = bs ∧
      ∀ b, b < a ∨ a + bs.length ≤ b → readByte (run (storeMem w a bs) s) b = readByte s b := by
  have hslice : slice bs (a - a) bs.length = bs := by simp [slice]
  have hrun : run (storeMem w a bs) s = run (clearBlocks w a bs.length) (run (stampLine w a (decide (bs.length = 64))) (run (writeMem a bs) s)) := by
    simp only [storeMem, linePieces_of_line hn hfit, run_all_cons, run_all_nil, run_each_cons, run_each_nil, hslice, dropCopies, run_ask, hdir, run_skip]
  have hclear := (changes_clearBlocks w a bs.length).only
  have hstamp := (changes_stampLine w a (decide (bs.length = 64))).only
  rw [hrun]
  have hmem : (run (clearBlocks w a bs.length) (run (stampLine w a (decide (bs.length = 64))) (run (writeMem a bs) s))).mem = (run (writeMem a bs) s).mem :=
    (only_mem hclear (by decide) _).trans (only_mem hstamp (by decide) _)
  have hcoh : (run (clearBlocks w a bs.length) (run (stampLine w a (decide (bs.length = 64))) (run (writeMem a bs) s))).coh = (run (writeMem a bs) s).coh :=
    (only_coh hclear (by decide) _).trans (only_coh hstamp (by decide) _)
  refine ⟨?_, ?_, fun b hb => ?_⟩
  · rw [only_regs hclear (by decide), only_regs hstamp (by decide), writeMem_regs]
  · refine (readMem_congr hmem hcoh a _).trans (writeMem_readMem a bs s fun k hk => cohData_of_look ?_)
    rw [show (a + k) / 64 = a / 64 by omega, hdir]
  · exact (readByte_congr hmem hcoh b).trans (writeMem_readByte_other a bs s b hb)

/-! What the lender does with a message. -/

theorem run_lenderWrite_of_refused {s : State} {m : HMsg} (after : Act) (h : (lenderPieces s m.src true m.addr m.data.length).2 ≠ 0) :
    run (lenderWrite m after) s = run (answer m 5 (lenderPieces s m.src true m.addr m.data.length).2 []) s := by
  simp only [lenderWrite, run_ask, h, ne_eq, not_false_eq_true, if_true]

/-- The bytes of a WRITE or BULK that is not refused are in place. -/
def lenderStored (m : HMsg) (s : State) : State := run (storeMem {} (poolBase s + m.addr) m.data) (run (touchLent m.addr m.data.length) s)

theorem run_lenderWrite_of_granted {s : State} {m : HMsg} (after : Act) (h : (lenderPieces s m.src true m.addr m.data.length).2 = 0) :
    run (lenderWrite m after) s = run (.seq (answer m 2 m.addr []) after) (lenderStored m s) := by
  simp only [lenderWrite, run_ask, h, ne_eq, not_true_eq_false, if_false, run_all_cons, run_all_nil, run_seq, lenderStored]

theorem poolBase_mod (s : State) : poolBase s % 64 = 0 := by
  have h30 : (theChart s).lend * 2 ^ 30 = (theChart s).lend * 2 ^ 24 * 64 := by omega
  rw [poolBase, h30, show 2 ^ 40 = 2 ^ 34 * 64 from rfl, ← Nat.sub_mul]
  exact Nat.mul_mod_left _ _

theorem lenderStored_hural (m : HMsg) (s : State) : (lenderStored m s).hural = s.hural := by
  rw [lenderStored, storeMem_hural, only_hural (changes_touchLent _ _).only (by decide)]

/-- A line of the window that no cache holds takes the bytes; every other byte stands. -/
theorem lenderStored_line {s : State} {m : HMsg} (hn : 0 < m.data.length) (hfit : m.addr % 64 + m.data.length ≤ 64)
    (hdir : Cells.look s.coh.dir ((poolBase s + m.addr) / 64) = none) :
    (lenderStored m s).regs = s.regs ∧ readMem (lenderStored m s) (poolBase s + m.addr) m.data.length = m.data ∧
      ∀ b, b < poolBase s + m.addr ∨ poolBase s + m.addr + m.data.length ≤ b → readByte (lenderStored m s) b = readByte s b := by
  have hbase := poolBase_mod s
  have htouch := (changes_touchLent m.addr m.data.length).only
  have hcoh := only_coh htouch (by decide) s
  obtain ⟨hregs, hread, hother⟩ := storeMem_of_line (s := run (touchLent m.addr m.data.length) s) (a := poolBase s + m.addr) {} hn (by omega) (by rw [hcoh, hdir])
  exact ⟨hregs.trans (only_regs htouch (by decide) s), hread,
    fun b hb => (hother b hb).trans (readByte_congr (only_mem htouch (by decide) s) hcoh b)⟩

theorem run_lenderRead_of_refused {s : State} {m : HMsg} (h : (lenderPieces s m.src false m.addr m.len).2 ≠ 0) :
    run (lenderRead m) s = run (answer m 5 (lenderPieces s m.src false m.addr m.len).2 []) s := by
  simp only [lenderRead, run_ask, h, ne_eq, not_false_eq_true, if_true]

theorem run_lenderRead_of_granted {s : State} {m : HMsg} (h : (lenderPieces s m.src false m.addr m.len).2 = 0) :
    run (lenderRead m) s =
      run (answer m 4 m.addr ((lenderPieces s m.src false m.addr m.len).1.flatMap fun p => readMem s p.2.2 p.2.1)) (run (touchLent m.addr m.len) s) := by
  simp only [lenderRead, run_ask, h, ne_eq, not_true_eq_false, if_false, run_all_cons, run_all_nil]

/-! The commands. -/

section
variable {s : State} {n : Fin 19} {m : HMsg} {k : Nat}

theorem write_refused (h : (s.hural.inbox.find? fun e => e.1 = n.val && e.2.1.op = 0x01) = some (n.val, m, k))
    (hc : (lenderPieces s m.src true m.addr m.data.length).2 ≠ 0) :
    ∃ t u, exec (.write n) s = .next t ∧ t = run (answer m 5 (lenderPieces s m.src true m.addr m.data.length).2 []) u ∧ u.mem = s.mem ∧ u.regs = s.regs ∧
      u.hural.inbox = s.hural.inbox.erase (n.val, m, k) := by
  obtain ⟨ports, hrun⟩ := takeMsg_spec (c := fun m => m.op = 0x01) h fun m => lenderWrite m .skip
  exact ⟨_, msgGone (n.val, m, k) ports s, rfl, hrun.trans (run_lenderWrite_of_refused .skip hc), rfl, rfl, rfl⟩

theorem write_granted (h : (s.hural.inbox.find? fun e => e.1 = n.val && e.2.1.op = 0x01) = some (n.val, m, k))
    (hc : (lenderPieces s m.src true m.addr m.data.length).2 = 0) (hn : 0 < m.data.length) (hfit : m.addr % 64 + m.data.length ≤ 64) :
    ∃ t u, exec (.write n) s = .next t ∧ t = run (answer m 2 m.addr []) u ∧ u.hural.inbox = s.hural.inbox.erase (n.val, m, k) ∧
      (Cells.look s.coh.dir ((poolBase s + m.addr) / 64) = none → u.regs = s.regs ∧ readMem u (poolBase s + m.addr) m.data.length = m.data ∧
        ∀ b, b < poolBase s + m.addr ∨ poolBase s + m.addr + m.data.length ≤ b → readByte u b = readByte s b) := by
  obtain ⟨ports, hrun⟩ := takeMsg_spec (c := fun m => m.op = 0x01) h fun m => lenderWrite m .skip
  exact ⟨_, lenderStored m (msgGone (n.val, m, k) ports s), rfl, hrun.trans (run_lenderWrite_of_granted .skip hc),
    congrArg HuralSt.inbox (lenderStored_hural m _), fun hdir => lenderStored_line hn hfit hdir⟩

theorem bulk_granted (h : (s.hural.inbox.find? fun e => e.1 = n.val && e.2.1.op = 0x30) = some (n.val, m, k))
    (hc : (lenderPieces s m.src true m.addr m.data.length).2 = 0) (hn : 0 < m.data.length) (hfit : m.addr % 64 + m.data.length ≤ 64) :
    ∃ t u, exec (.bulk n) s = .next t ∧ t = run (.seq (answer m 2 m.addr []) (mirror m.addr m.data)) u ∧ u.hural.inbox = s.hural.inbox.erase (n.val, m, k) ∧
      (Cells.look s.coh.dir ((poolBase s + m.addr) / 64) = none → u.regs = s.regs ∧ readMem u (poolBase s + m.addr) m.data.length = m.data ∧
        ∀ b, b < poolBase s + m.addr ∨ poolBase s + m.addr + m.data.length ≤ b → readByte u b = readByte s b) := by
  obtain ⟨ports, hrun⟩ := takeMsg_spec (c := fun m => m.op = 0x30) h fun m => lenderWrite m (mirror m.addr m.data)
  exact ⟨_, lenderStored m (msgGone (n.val, m, k) ports s), rfl, hrun.trans (run_lenderWrite_of_granted _ hc),
    congrArg HuralSt.inbox (lenderStored_hural m _), fun hdir => lenderStored_line hn hfit hdir⟩

variable (h : (s.hural.inbox.find? fun e => e.1 = n.val && (e.2.1.op = 0x03 && !lenderHeld s e.2.1)) = some (n.val, m, k))
include h

theorem execRead_spec : ∃ ports, run (.ask fun s => takeMsg n.val (fun m => m.op = 0x03 && !lenderHeld s m) lenderRead) s =
    run (lenderRead m) (msgGone (n.val, m, k) ports s) := by
  rw [run_ask]
  exact takeMsg_spec (c := fun m => m.op = 0x03 && !lenderHeld s m) h lenderRead

theorem read_refused (hc : (lenderPieces s m.src false m.addr m.len).2 ≠ 0) : ∃ t u, exec (.read n) s = .next t ∧
    t = run (answer m 5 (lenderPieces s m.src false m.addr m.len).2 []) u ∧ u.mem = s.mem ∧ u.regs = s.regs := by
  obtain ⟨ports, hrun⟩ := execRead_spec h
  exact ⟨_, msgGone (n.val, m, k) ports s, rfl, hrun.trans (run_lenderRead_of_refused hc), rfl, rfl⟩

theorem read_granted (hc : (lenderPieces s m.src false m.addr m.len).2 = 0) : ∃ t u, exec (.read n) s = .next t ∧ u.mem = s.mem ∧ u.regs = s.regs ∧
    u.hural.inbox = s.hural.inbox.erase (n.val, m, k) ∧
    t = run (answer m 4 m.addr ((lenderPieces s m.src false m.addr m.len).1.flatMap fun p => readMem s p.2.2 p.2.1)) u := by
  obtain ⟨ports, hrun⟩ := execRead_spec h
  have htouch := (changes_touchLent m.addr m.len).only
  exact ⟨_, run (touchLent m.addr m.len) (msgGone (n.val, m, k) ports s), rfl, only_mem htouch (by decide) _, only_regs htouch (by decide) _,
    congrArg HuralSt.inbox (only_hural htouch (by decide) _), hrun.trans (run_lenderRead_of_granted hc)⟩

end

end Sys2Proof.Machine

/-! PROOFS. Messages at the requester: WACK, RDATA, NACK and GRANT end the request of their tag (R241, R353). -/

namespace Sys2Proof.Machine

theorem nackApply_read {r : OutReq} {who : Agent} {a : Addr} {len c : Nat} (hjob : r.job = .read who a len) (hc : isObject a.toNat = false ∨ c ≠ 4 ∧ c ≠ 5) :
    nackApply r c = accessFault who a := by
  obtain ⟨h4, h5⟩ := refuses hc
  simp only [nackApply, hjob, h4, h5, Bool.or_self, Bool.false_eq_true, if_false]

/-- The state without a request of the list. -/
def reqGone (r : OutReq) (s : State) : State := { s with hural := { s.hural with reqs := s.hural.reqs.erase r } }

section
variable {s : State} {n : Fin 19} {m : HMsg} {k : Nat} {r : OutReq}
  (hreq : (s.hural.reqs.find? fun r => r.txn = m.txn && r.dst = m.src && !r.held) = some r)
include hreq

theorem run_takeReqOf (act : OutReq → Act) : run (takeReqOf m act) s = run (act r) (reqGone r s) := by
  simp only [takeReqOf, run_ask, hreq, run_seq]
  rfl

/-- The message leaves the inbox, its request the list, and what it serves goes on. -/
theorem answer_taken {c : HMsg → Bool} (h : (s.hural.inbox.find? fun e => e.1 = n.val && c e.2.1) = some (n.val, m, k)) (act : HMsg → OutReq → Act) :
    ∃ ports, run (takeMsg n.val c fun m => takeReqOf m (act m)) s = run (act m r) (reqGone r (msgGone (n.val, m, k) ports s)) := by
  obtain ⟨ports, hrun⟩ := takeMsg_spec h fun m => takeReqOf m (act m)
  exact ⟨ports, hrun.trans (run_takeReqOf (s := msgGone (n.val, m, k) ports s) hreq (act m))⟩

theorem wack_taken (h : (s.hural.inbox.find? fun e => e.1 = n.val && e.2.1.op = 0x02) = some (n.val, m, k)) :
    ∃ t, exec (.wack n) s = .next t ∧ t.hural.reqs = s.hural.reqs.erase r ∧ t.hural.inbox = s.hural.inbox.erase (n.val, m, k) ∧ t.mem = s.mem ∧ t.regs = s.regs := by
  obtain ⟨ports, hrun⟩ := answer_taken (c := fun m => m.op = 0x02) hreq h fun _ => bellDone
  have hdone := (changes_bellDone r).only
  have hhural := only_hural hdone (by decide) (reqGone r (msgGone (n.val, m, k) ports s))
  exact ⟨_, congrArg Host.Outcome.next hrun, congrArg HuralSt.reqs hhural, congrArg HuralSt.inbox hhural, only_mem hdone (by decide) _, only_regs hdone (by decide) _⟩

theorem rdata_taken (h : (s.hural.inbox.find? fun e => e.1 = n.val && e.2.1.op = 0x04) = some (n.val, m, k)) {who : Agent} {a : Addr} {len : Nat}
    (hjob : r.job = .read who a len) :
    ∃ t, exec (.rdata n) s = .next t ∧ t.hural.reqs = s.hural.reqs.erase r ∧ t.out = .resp who a (m.data.take len) :: s.out ∧ t.mem = s.mem ∧ t.regs = s.regs := by
  obtain ⟨ports, hrun⟩ := takeMsg_spec (c := fun m => m.op = 0x04) h rdataTake
  have hrespond : run (rdataTake m) (msgGone (n.val, m, k) ports s) = run (respond who a (m.data.take len)) (reqGone r (msgGone (n.val, m, k) ports s)) := by
    rw [rdataTake, run_takeReqOf (s := msgGone (n.val, m, k) ports s) hreq]
    simp only [hjob]
  exact ⟨_, congrArg Host.Outcome.next (hrun.trans hrespond), rfl, rfl, rfl, rfl⟩

theorem nack_taken (h : (s.hural.inbox.find? fun e => e.1 = n.val && e.2.1.op = 0x05) = some (n.val, m, k)) :
    ∃ t u, exec (.nack n) s = .next t ∧ t = run (nackApply r (bitsOf m.addr 0 8)) u ∧ u.hural.reqs = s.hural.reqs.erase r ∧ u.mem = s.mem ∧ u.regs = s.regs ∧
      u.out = s.out ∧ u.log = s.log := by
  obtain ⟨ports, hrun⟩ := answer_taken (c := fun m => m.op = 0x05) hreq h fun m r => nackApply r (bitsOf m.addr 0 8)
  exact ⟨_, _, rfl, hrun, rfl, rfl, rfl, rfl, rfl⟩

theorem nack_read (h : (s.hural.inbox.find? fun e => e.1 = n.val && e.2.1.op = 0x05) = some (n.val, m, k)) {who : Agent} {a : Addr} {len : Nat}
    (hjob : r.job = .read who a len) (hc : isObject a.toNat = false ∨ bitsOf m.addr 0 8 ≠ 4 ∧ bitsOf m.addr 0 8 ≠ 5) :
    ∃ t, exec (.nack n) s = .next t ∧ t.hural.reqs = s.hural.reqs.erase r ∧ t.out = .accessFault who a :: s.out ∧ Safety.Logged .accessFault s t := by
  obtain ⟨t, u, hexec, ht, hreqs, -, -, hout, hlog⟩ := nack_taken hreq h
  rw [nackApply_read hjob hc] at ht
  have htally : Safety.tally u .accessFault = Safety.tally s .accessFault := by rw [Safety.tally, Safety.tally, hlog]
  refine ⟨t, hexec, ?_, ?_, ?_⟩
  · rw [ht, only_hural (changes_accessFault who a).only (by decide), hreqs]
  · rw [ht, accessFault_out, hout]
  · rw [ht, Safety.Logged, ← htally]
    exact accessFault_logged who a u

variable (h : (s.hural.inbox.find? fun e => e.1 = n.val && e.2.1.op = 0x21) = some (n.val, m, k)) {p : Nat} (hjob : r.job = .grant p)
  (hmig : s.tier.mig = .waitFrame)
include h hjob hmig

theorem grant_refused (hm : m.addr = 2 ^ 64 - 1) :
    ∃ t u, exec (.grant n) s = .next t ∧ t = run (migFinish 3) u ∧ u.hural.reqs = s.hural.reqs.erase r ∧ u.mem = s.mem ∧ u.regs = s.regs := by
  obtain ⟨ports, hrun⟩ := takeMsg_spec (c := fun m => m.op = 0x21) h grantTake
  refine ⟨_, reqGone r (msgGone (n.val, m, k) ports s), rfl, hrun.trans ?_, rfl, rfl, rfl⟩
  have hmig' : (reqGone r (msgGone (n.val, m, k) ports s)).tier.mig = .waitFrame := hmig
  rw [grantTake, run_takeReqOf (s := msgGone (n.val, m, k) ports s) hreq]
  simp only [hjob, run_ask, hmig', ne_eq, not_true_eq_false, if_false, hm, if_true]

theorem grant_granted {a : Nat} (hm : m.addr ≠ 2 ^ 64 - 1) (hhead : migHead s = some a) :
    ∃ t u, exec (.grant n) s = .next t ∧ t = run (migRun (readNat s a 1)) u ∧
      u.tier.mig = .granted (BitVec.ofNat 48 (0x400000000000 + r.dst * 2 ^ 38 + m.addr % 2 ^ 38)) ∧ u.mem = s.mem ∧ u.regs = s.regs := by
  obtain ⟨ports, hrun⟩ := takeMsg_spec (c := fun m => m.op = 0x21) h grantTake
  refine ⟨_, run (updTier fun t => { t with mig := .granted (BitVec.ofNat 48 (0x400000000000 + r.dst * 2 ^ 38 + m.addr % 2 ^ 38)) })
    (reqGone r (msgGone (n.val, m, k) ports s)), rfl, hrun.trans ?_, rfl, rfl, rfl⟩
  have hmig' : (reqGone r (msgGone (n.val, m, k) ports s)).tier.mig = .waitFrame := hmig
  have hhead' : migHead (reqGone r (msgGone (n.val, m, k) ports s)) = some a := hhead
  rw [grantTake, run_takeReqOf (s := msgGone (n.val, m, k) ports s) hreq]
  simp only [hjob, run_ask, hmig', ne_eq, not_true_eq_false, if_false, hm, hhead', run_all_cons, run_all_nil]
  rfl

end

end Sys2Proof.Machine

/-! PROOFS. Frames of the lender's pool, the borrower's notices, liveness and takeover (R46, R241, R356, R368). -/

namespace Sys2Proof.Machine

/-! What sending leaves of the Hural state. -/

/-- A program that leaves a reading of the Hural state. -/
abbrev Act.KeepsHural {α : Type} (g : HuralSt → α) (a : Act) : Prop := a.Within fun p => ∀ s, g (p.apply s).hural = g s.hural

theorem keepsHural_of_changes {α : Type} {g : HuralSt → α} {l : List Part} {a : Act} (h : a.Changes l) (hl : Part.hural ∉ l) : a.KeepsHural g :=
  Act.Within.mono (fun p hp s => congrArg g (only_hural (a := .prim p) hp hl s)) h.only

/-- What requests wait for: probes that are open, requests for a frame, and the timestamp kept. -/
def HuralSt.waitsFor (h : HuralSt) : List Nat × List (Nat × Nat × Nat) × Option (Nat × Nat × Nat) := (h.probes, h.grantWait, h.stamp)

theorem pump_keepsWaits (n : Nat) : (pump n).KeepsHural HuralSt.waitsFor := by
  intro s
  dsimp only
  split
  · exact ⟨fun _ => rfl, keepsHural_of_changes (changes_putFlits _ _) (by decide), trivial⟩
  · trivial

theorem enqueue_keepsWaits (n : Nat) (m : HMsg) : (enqueue n m).KeepsHural HuralSt.waitsFor := ⟨fun _ => rfl, pump_keepsWaits n⟩

theorem sendMsg_keepsWaits (m : HMsg) : (sendMsg m).KeepsHural HuralSt.waitsFor := by
  intro s
  dsimp only
  split
  · intro s
    dsimp only
    split <;> exact fun _ => rfl
  · split
    · exact enqueue_keepsWaits _ m
    · exact fun _ => rfl

theorem sendNote_waitsFor (op dst addr : Nat) (s : State) : (run (sendNote op dst addr) s).hural.waitsFor = s.hural.waitsFor :=
  run_same (fun s => s.hural.waitsFor) (a := sendNote op dst addr) (fun _ => sendMsg_keepsWaits _) s

/-! What a store leaves of the tiers' state. -/

/-- Frames lent and notices taken. -/
def TierSt.lending (t : TierSt) : FMap LentFrame × FMap Nat := (t.lent, t.notices)

/-- A program that leaves frames lent and notices as they are. -/
abbrev Act.KeepsLending (a : Act) : Prop := a.Within fun p => ∀ s, (p.apply s).tier.lending = s.tier.lending

theorem keepsLending_of_changes {l : List Part} {a : Act} (h : a.Changes l) (hl : Part.tier ∉ l) : a.KeepsLending :=
  Act.Within.mono (fun p hp s => congrArg TierSt.lending (only_tier (a := .prim p) hp hl s)) h.only

theorem keepsLending_updTier {f : TierSt → TierSt} (hl : ∀ t, (f t).lent = t.lent) (hn : ∀ t, (f t).notices = t.notices) : Act.KeepsLending (.prim (.tier f)) :=
  fun s => Prod.ext (hl s.tier) (hn s.tier)

theorem keepsLending_when {c : Bool} {a : Act} (h : a.KeepsLending) : (Act.when c a).KeepsLending := (within_when _ _).mpr fun _ => h

theorem stampLine_keepsLending (w : Writer) (a : Nat) (full : Bool) : (stampLine w a full).KeepsLending :=
  fun _ => ⟨keepsLending_updTier (fun _ => rfl) fun _ => rfl, keepsLending_when (keepsLending_updTier (fun _ => rfl) fun _ => rfl), trivial⟩

theorem storeMem_keepsLending (w : Writer) (a : Nat) (bs : List Byte) : (storeMem w a bs).KeepsLending :=
  ⟨(within_each _ _).mpr fun _ _ => ⟨keepsLending_of_changes (changes_dropCopies _ _) (by decide), keepsLending_of_changes (changes_writeMem _ _) (by decide),
    stampLine_keepsLending _ _ _, trivial⟩, keepsLending_when (keepsLending_updTier (fun _ => rfl) fun _ => rfl), trivial⟩

theorem wipe_keepsLending (a n : Nat) : (wipe a n).KeepsLending :=
  ⟨fun _ => rfl, fun _ => rfl, keepsLending_updTier (fun _ => rfl) fun _ => rfl, keepsLending_updTier (fun _ => rfl) fun _ => rfl, trivial⟩

theorem wiped_keepsLending {f : TierSt → TierSt} (hl : ∀ t, (f t).lent = t.lent) (hn : ∀ t, (f t).notices = t.notices) (a n : Nat) (c : Bool) :
    (Act.all [wipe a n, Act.when c (.prim (.tier f))]).KeepsLending := ⟨wipe_keepsLending _ _, keepsLending_when (keepsLending_updTier hl hn), trivial⟩

theorem fillFrame_keepsLending (frame tag : Nat) : (fillFrame frame tag).KeepsLending := by
  unfold fillFrame
  refine wiped_keepsLending ?_ ?_ _ _ _ <;> exact fun _ => rfl

theorem faultRecord_keepsLending (type obj unit addr : Nat) : (faultRecord type obj unit addr).KeepsLending := by
  intro s
  dsimp only
  split
  · exact ⟨keepsLending_of_changes (changes_addF _ _ _ _) (by decide), keepsLending_of_changes (changes_evt _ _ _) (by decide), trivial⟩
  · exact ⟨storeMem_keepsLending _ _ _, keepsLending_of_changes (changes_setF _ _ _ _) (by decide), trivial⟩

/-! Frames of the pool. -/

/-- The frame that the oldest waiting request gets. -/
def grantedFrame (s : State) (b page : Nat) : LentFrame := { berth := b, page := page, touch := getF s TIDE_COUNT.COUNT }

/-- The frame is zero-filled and lent. -/
def frameLent (s : State) (r : List (Nat × Nat × Nat)) (b page i : Nat) : Act :=
  Act.all [updHural fun h => { h with grantWait := r }, fillFrame ((poolBase s / 2 ^ 21 + i) * 2 ^ 21) 2,
    updTier fun t => { t with lent := Cells.ins t.lent (poolBase s / 2 ^ 21 + i) (grantedFrame s b page) }]

/-- The pool's counters follow a frame that is lent. -/
def frameCounted : Act := .seq (modF TIER_POOL.FREE (fun v => v - 1)) (modF TIER_POOL.USED (fun v => v + 1))

theorem run_grantWaiting_one {s : State} {b txn page i : Nat} {r : List (Nat × Nat × Nat)} (hw : s.hural.grantWait = (b, txn, page) :: r)
    (hf : freeFrameNo s = some i) : run (grantWaiting 1) s =
      run (sendMsg { op := 0x21, src := ownBerth s, dst := b, txn := txn, addr := i * 2 ^ 21 }) (run frameCounted (run (frameLent s r b page i) s)) := by
  simp only [grantWaiting, run_ask, hw, hf, run_all_cons, run_all_nil, run_skip, frameLent, grantedFrame, frameCounted, run_seq]

/-- The oldest waiting request gets the lowest free frame. -/
theorem grantWaiting_lends {s : State} {b txn page i : Nat} {r : List (Nat × Nat × Nat)} (hw : s.hural.grantWait = (b, txn, page) :: r)
    (hf : freeFrameNo s = some i) :
    Cells.look (run (grantWaiting 1) s).tier.lent (poolBase s / 2 ^ 21 + i) = some (grantedFrame s b page) ∧
      getF (run (grantWaiting 1) s) TIER_POOL.FREE = getF s TIER_POOL.FREE - 1 ∧
      getF (run (grantWaiting 1) s) TIER_POOL.USED = (getF s TIER_POOL.USED + 1) % 2 ^ 32 := by
  have hlent : (run (frameLent s r b page i) s).tier.lent = Cells.ins s.tier.lent (poolBase s / 2 ^ 21 + i) (grantedFrame s b page) := by
    have hfill := run_same (fun s => s.tier.lending) (fillFrame_keepsLending ((poolBase s / 2 ^ 21 + i) * 2 ^ 21) 2) (run (updHural fun h => { h with grantWait := r }) s)
    simp only [TierSt.lending, Prod.mk.injEq] at hfill
    simp only [frameLent, run_all_cons, run_all_nil]
    exact congrArg (fun x => Cells.ins x _ _) hfill.1
  have hregs (f : Fld) (i' j : Nat) : getF (run (frameLent s r b page i) s) f i' j = getF s f i' j := by
    have hchanges : (frameLent s r b page i).Changes [.mem, .tier, .coh, .hural] :=
      changes_cons ((changes_updHural _).up rfl) (changes_cons ((changes_fillFrame _ _).up rfl) (changes_cons ((changes_updTier _).up rfl) changes_nil))
    exact getF_of_getReg (by rw [getReg, getReg, only_regs hchanges.only (by decide)])
  have hsend := (changes_sendMsg { op := 0x21, src := ownBerth s, dst := b, txn := txn, addr := i * 2 ^ 21 }).only
  have hcounted : (run frameCounted (run (frameLent s r b page i) s)).tier = (run (frameLent s r b page i) s).tier := by
    rw [frameCounted, run_seq, modF_tier, modF_tier]
  have hsent (f : Fld) (i' j : Nat) (t : State) : getF (run (sendMsg { op := 0x21, src := ownBerth s, dst := b, txn := txn, addr := i * 2 ^ 21 }) t) f i' j = getF t f i' j := by
    exact getF_of_getReg (by rw [getReg, getReg, only_regs hsend (by decide)])
  have hfree : getF s TIER_POOL.FREE < 2 ^ 32 := bitsOf_lt _ _ _
  rw [run_grantWaiting_one hw hf, only_tier hsend (by decide), hcounted, hlent, Cells.look_ins, if_pos rfl, hsent, hsent, frameCounted, run_seq,
    getF_modF_apart (by decide), getF_modF_fits (by decide), getF_modF_fits (by decide), getF_modF_apart (by decide), hregs, hregs]
  exact ⟨rfl, Nat.mod_eq_of_lt (Nat.lt_of_le_of_lt (Nat.sub_le _ _) hfree), rfl⟩

/-- With no request waiting, a frame that is free stays in the pool. -/
theorem run_grantWaiting_of_none {s : State} (h : s.hural.grantWait = []) (n : Nat) : run (grantWaiting n) s = s := by
  cases n with
  | zero => rfl
  | succ n => simp only [grantWaiting, run_ask, h, run_skip]

/-- A frame that nobody waits for returns to the pool. -/
theorem lentFreed_spec {s : State} {f : Nat} {x : LentFrame} (h : Cells.look s.tier.lent f = some x) (hw : s.hural.grantWait = []) :
    Cells.look (run (lentFreed f) s).tier.lent f = none ∧ getF (run (lentFreed f) s) TIER_POOL.FREE = (getF s TIER_POOL.FREE + 1) % 2 ^ 32 ∧
      getF (run (lentFreed f) s) TIER_POOL.USED = getF s TIER_POOL.USED - 1 ∧ (run (lentFreed f) s).mem = s.mem := by
  have hdel (t : State) (g : Fld) : getF (run (updTier fun t => { t with lent := Cells.del t.lent f }) t) g = getF t g := rfl
  have hused : getF s TIER_POOL.USED < 2 ^ 32 := bitsOf_lt _ _ _
  have hrun : run (lentFreed f) s = run (modF TIER_POOL.USED (fun v => v - 1)) (run (modF TIER_POOL.FREE (fun v => v + 1))
      (run (updTier fun t => { t with lent := Cells.del t.lent f }) s)) := by
    simp only [lentFreed, run_ask, h, Option.isSome_some, run_when, if_true, run_all_cons, run_all_nil]
    exact run_grantWaiting_of_none (by rw [modF_hural, modF_hural]; exact hw) 1
  rw [hrun, modF_tier, modF_tier, modF_mem, modF_mem, getF_modF_apart (by decide), getF_modF_fits (by decide), getF_modF_fits (by decide),
    getF_modF_apart (by decide), hdel, hdel]
  exact ⟨(Cells.look_del _ _ _).trans (if_pos rfl), rfl, Nat.mod_eq_of_lt (Nat.lt_of_le_of_lt (Nat.sub_le _ _) hused), rfl⟩

end Sys2Proof.Machine

/-! PROOFS. Each message at its command: frames, notices, timestamps, probes and takeovers (R46, R241, R356, R368). -/

namespace Sys2Proof.Machine

/-! The pool's requests. -/

/-- A request for a frame joins those that wait. -/
def frameAsked (b txn page : Nat) (s : State) : State := run (updHural fun h => { h with grantWait := h.grantWait ++ [(b, txn, page)] }) s

theorem run_grantRequest_of_free {s : State} {i : Nat} (hlend : (theChart s).lend ≠ 0) (hf : freeFrameNo s = some i) (b txn page : Nat) :
    run (grantRequest b txn page) s = run (grantWaiting 1) (frameAsked b txn page s) := by
  simp only [grantRequest, run_ask, hlend, if_false, hf, Option.isSome_some, if_true, run_all_cons, run_all_nil]
  rfl

/-- Without a free frame the oldest lent one is called back. -/
def frameCalled (s : State) (f : Nat) (x : LentFrame) : Act :=
  Act.all [updTier fun t => { t with lent := Cells.ins t.lent f { x with notice := some (getF s TIDE_COUNT.COUNT) } }, sendNote 0x23 x.berth (f * 2 ^ 21 - poolBase s)]

theorem run_grantRequest_of_full {s : State} {f : Nat} {x : LentFrame} (hlend : (theChart s).lend ≠ 0) (hf : freeFrameNo s = none) (hold : oldestLent s = some (f, x))
    (b txn page : Nat) : run (grantRequest b txn page) s = run (frameCalled s f x) (frameAsked b txn page s) := by
  simp only [grantRequest, run_ask, hlend, if_false, hf, Option.isSome_none, Bool.false_eq_true, hold, run_all_cons, run_all_nil]
  rfl

theorem frameCalled_spec (s t : State) (f : Nat) (x : LentFrame) :
    Cells.look (run (frameCalled s f x) t).tier.lent f = some { x with notice := some (getF s TIDE_COUNT.COUNT) } ∧
      (run (frameCalled s f x) t).hural.grantWait = t.hural.grantWait ∧ (run (frameCalled s f x) t).regs = t.regs ∧ (run (frameCalled s f x) t).mem = t.mem := by
  have hnote := (changes_sendNote 0x23 x.berth (f * 2 ^ 21 - poolBase s)).only
  simp only [frameCalled, run_all_cons, run_all_nil]
  have hwaits := sendNote_waitsFor 0x23 x.berth (f * 2 ^ 21 - poolBase s)
    (run (updTier fun t => { t with lent := Cells.ins t.lent f { x with notice := some (getF s TIDE_COUNT.COUNT) } }) t)
  simp only [HuralSt.waitsFor, Prod.mk.injEq] at hwaits
  obtain ⟨-, hgrant, -⟩ := hwaits
  rw [only_tier hnote (by decide), only_regs hnote (by decide), only_mem hnote (by decide), hgrant]
  exact ⟨(Cells.look_ins _ _ _ _).trans (if_pos rfl), rfl, rfl, rfl⟩

section
variable {s : State} {n : Fin 19} {m : HMsg} {k : Nat}

section
variable (h : (s.hural.inbox.find? fun e => e.1 = n.val && e.2.1.op = 0x20) = some (n.val, m, k)) (hlend : (theChart s).lend ≠ 0)
include h hlend

theorem grantreq_lends {i : Nat} (hf : freeFrameNo s = some i) (hw : s.hural.grantWait = []) : ∃ t, exec (.grantreq n) s = .next t ∧
    Cells.look t.tier.lent (poolBase s / 2 ^ 21 + i) = some { berth := m.src, page := m.addr % 2 ^ 48, touch := getF s TIDE_COUNT.COUNT } ∧
    getF t TIER_POOL.FREE = getF s TIER_POOL.FREE - 1 ∧ getF t TIER_POOL.USED = (getF s TIER_POOL.USED + 1) % 2 ^ 32 := by
  obtain ⟨ports, hrun⟩ := takeMsg_spec (c := fun m => m.op = 0x20) h fun m => grantRequest m.src m.txn (m.addr % 2 ^ 48)
  have hreq := run_grantRequest_of_free (s := msgGone (n.val, m, k) ports s) hlend hf m.src m.txn (m.addr % 2 ^ 48)
  have hwait : (frameAsked m.src m.txn (m.addr % 2 ^ 48) (msgGone (n.val, m, k) ports s)).hural.grantWait = (m.src, m.txn, m.addr % 2 ^ 48) :: [] :=
    congrArg (· ++ [(m.src, m.txn, m.addr % 2 ^ 48)]) hw
  obtain ⟨hlent, hfree, hused⟩ := grantWaiting_lends hwait (i := i) hf
  exact ⟨_, congrArg Host.Outcome.next (hrun.trans hreq), hlent, hfree, hused⟩

theorem grantreq_calls {f : Nat} {x : LentFrame} (hf : freeFrameNo s = none) (hold : oldestLent s = some (f, x)) : ∃ t, exec (.grantreq n) s = .next t ∧
    Cells.look t.tier.lent f = some { x with notice := some (getF s TIDE_COUNT.COUNT) } ∧ t.hural.grantWait = s.hural.grantWait ++ [(m.src, m.txn, m.addr % 2 ^ 48)] ∧
    t.regs = s.regs ∧ t.mem = s.mem := by
  obtain ⟨ports, hrun⟩ := takeMsg_spec (c := fun m => m.op = 0x20) h fun m => grantRequest m.src m.txn (m.addr % 2 ^ 48)
  have hreq := run_grantRequest_of_full (s := msgGone (n.val, m, k) ports s) hlend hf hold m.src m.txn (m.addr % 2 ^ 48)
  obtain ⟨hlent, hgrant, hregs, hmem⟩ := frameCalled_spec (msgGone (n.val, m, k) ports s) (frameAsked m.src m.txn (m.addr % 2 ^ 48) (msgGone (n.val, m, k) ports s)) f x
  exact ⟨_, congrArg Host.Outcome.next (hrun.trans hreq), hlent, hgrant, hregs, hmem⟩

end

section
variable (h : (s.hural.inbox.find? fun e => e.1 = n.val && e.2.1.op = 0x22) = some (n.val, m, k)) {x : LentFrame}
  (hlent : Cells.look s.tier.lent ((poolBase s + m.addr) / 2 ^ 21) = some x)
include h hlent

theorem run_huralFree : ∃ ports, run (takeMsg n.val (fun m => m.op = 0x22) freeTake) s =
    run (Act.when (x.berth = m.src) (lentFreed ((poolBase s + m.addr) / 2 ^ 21))) (msgGone (n.val, m, k) ports s) := by
  obtain ⟨ports, hrun⟩ := takeMsg_spec (c := fun m => m.op = 0x22) h freeTake
  have hlent' : Cells.look (msgGone (n.val, m, k) ports s).tier.lent ((poolBase (msgGone (n.val, m, k) ports s) + m.addr) / 2 ^ 21) = some x := hlent
  refine ⟨ports, hrun.trans ?_⟩
  simp only [freeTake, run_ask, hlent']
  rfl

theorem huralFree_of_holder (hb : x.berth = m.src) (hw : s.hural.grantWait = []) : ∃ t, exec (.huralFree n) s = .next t ∧
    Cells.look t.tier.lent ((poolBase s + m.addr) / 2 ^ 21) = none ∧ getF t TIER_POOL.FREE = (getF s TIER_POOL.FREE + 1) % 2 ^ 32 ∧
    getF t TIER_POOL.USED = getF s TIER_POOL.USED - 1 ∧ t.mem = s.mem := by
  obtain ⟨ports, hrun⟩ := run_huralFree h hlent
  rw [run_when, if_pos (decide_eq_true hb)] at hrun
  obtain ⟨hnone, hfree, hused, hmem⟩ := lentFreed_spec (s := msgGone (n.val, m, k) ports s) hlent hw
  exact ⟨_, congrArg Host.Outcome.next hrun, hnone, hfree, hused, hmem⟩

theorem huralFree_of_other (hb : x.berth ≠ m.src) : ∃ t, exec (.huralFree n) s = .next t ∧ t.tier = s.tier ∧ t.regs = s.regs ∧ t.mem = s.mem := by
  obtain ⟨ports, hrun⟩ := run_huralFree h hlent
  rw [run_when, if_neg (by simpa using hb)] at hrun
  exact ⟨_, congrArg Host.Outcome.next hrun, rfl, rfl, rfl⟩

end

/-! Notices at the borrower. -/

theorem faultRecord_evict (type obj unit addr : Nat) (s : State) : getF (run (faultRecord type obj unit addr) s) TIER_EVT.EVICT = getF s TIER_EVT.EVICT := by
  simp only [faultRecord, run_ask]
  split
  · simp (decide := true)
  · simp (decide := true) [pkgWrite]

/-- The deadline of a notice begins. -/
def noticeTaken (s : State) (m : HMsg) : State :=
  run (updTier fun t => { t with notices := Cells.ins t.notices ((0x400000000000 + m.src * 2 ^ 38 + m.addr / 2 ^ 21 * 2 ^ 21) / 2 ^ 21) (getF s TIDE_COUNT.COUNT) }) s

theorem run_evictTake (s : State) (m : HMsg) :
    ∃ obj addr, run (evictTake m) s = run (faultRecord 4 obj 0xFFFF addr) (run (evt TIER_EVT.EVICT) (noticeTaken s m)) := by
  simp only [evictTake, run_ask, run_all_cons, run_all_nil]
  exact ⟨_, _, rfl⟩

theorem evict_spec (h : (s.hural.inbox.find? fun e => e.1 = n.val && e.2.1.op = 0x23) = some (n.val, m, k)) : ∃ t, exec (.evict n) s = .next t ∧
    Cells.look t.tier.notices ((0x400000000000 + m.src * 2 ^ 38 + m.addr / 2 ^ 21 * 2 ^ 21) / 2 ^ 21) = some (getF s TIDE_COUNT.COUNT) ∧ getF t TIER_EVT.EVICT = 1 := by
  obtain ⟨ports, hrun⟩ := takeMsg_spec (c := fun m => m.op = 0x23) h evictTake
  obtain ⟨obj, addr, hevict⟩ := run_evictTake (msgGone (n.val, m, k) ports s) m
  have hkeep := run_same (fun s => s.tier.lending) (faultRecord_keepsLending 4 obj 0xFFFF addr) (run (evt TIER_EVT.EVICT) (noticeTaken (msgGone (n.val, m, k) ports s) m))
  simp only [TierSt.lending, Prod.mk.injEq] at hkeep
  obtain ⟨-, hnotices⟩ := hkeep
  refine ⟨_, congrArg Host.Outcome.next (hrun.trans hevict), ?_⟩
  rw [faultRecord_evict, hnotices, evt_tier]
  exact ⟨(Cells.look_ins _ _ _ _).trans (if_pos rfl), getF_evt_fits (by decide) 0 0 _⟩

/-! Timestamps, probes and takeovers. -/

theorem tstamp_spec (h : (s.hural.inbox.find? fun e => e.1 = n.val && e.2.1.op = 0x12) = some (n.val, m, k)) : ∃ t u, exec (.tstamp n) s = .next t ∧
    t = (if isPilot s && decide (getF s TIDE_SRC.ROLE ≠ 3) then run (stampSend m.src) u else u) ∧ u.hural.stamp = some (m.src, m.addr, s.now) ∧
    u.regs = s.regs ∧ u.mem = s.mem := by
  obtain ⟨ports, hrun⟩ := takeMsg_spec (c := fun m => m.op = 0x12) h stampTake
  refine ⟨_, run (updHural fun h => { h with stamp := some (m.src, m.addr, s.now) }) (msgGone (n.val, m, k) ports s), rfl, hrun.trans ?_, rfl, rfl, rfl⟩
  simp only [stampTake, run_ask, run_seq, run_when]
  rfl

theorem run_probeBerth_probes {b : Nat} (hd : b ∉ s.tide.darkBerths) (hq : b ∉ s.tide.darkQueue) : b ∈ (run (probeBerth b) s).hural.probes := by
  simp only [probeBerth, run_ask, List.contains_eq_mem, hd, hq, decide_false, Bool.false_and, Bool.or_false]
  split
  case isTrue hb => exact of_decide_eq_true hb
  case isFalse =>
    simp only [run_all_cons, run_all_nil]
    have hsends (l : List Nat) (f : Nat → HMsg) (t : State) : (run (Act.each (fun n => enqueue n (f n)) l) t).hural.probes = t.hural.probes :=
      congrArg Prod.fst (run_same (fun s => s.hural.waitsFor) ((within_each _ _).mpr fun n _ => enqueue_keepsWaits n (f n)) t)
    rw [hsends]
    exact List.mem_append_right _ (List.mem_singleton_self b)

theorem lost_spec (h : (s.hural.inbox.find? fun e => e.1 = n.val && e.2.1.op = 0x13) = some (n.val, m, k)) : ∃ t, exec (.lost n) s = .next t ∧ t.regs = s.regs ∧
    t.mem = s.mem ∧ (composes s = false → t.hural.probes = s.hural.probes) ∧
    (composes s = true → bitsOf m.addr 0 8 ∉ s.tide.darkBerths → bitsOf m.addr 0 8 ∉ s.tide.darkQueue → bitsOf m.addr 0 8 ∈ t.hural.probes) := by
  obtain ⟨ports, hrun⟩ := takeMsg_spec (c := fun m => m.op = 0x13) h lostTake
  have hcomp : composes (msgGone (n.val, m, k) ports s) = composes s := rfl
  have hprobe := (changes_probeBerth (bitsOf m.addr 0 8)).only
  refine ⟨_, congrArg Host.Outcome.next hrun, ?_⟩
  rw [lostTake, run_given, hcomp]
  cases composes s with
  | false => exact ⟨rfl, rfl, fun _ => rfl, (fun h => by cases h)⟩
  | true =>
    rw [if_pos rfl, only_regs hprobe (by decide), only_mem hprobe (by decide)]
    exact ⟨rfl, rfl, (fun h => by cases h), fun _ hd hq => run_probeBerth_probes (s := msgGone (n.val, m, k) ports s) hd hq⟩

theorem probe_spec (h : (s.hural.inbox.find? fun e => e.1 = n.val && (e.2.1.op = 0x14 && !bitOf e.2.1.addr 0)) = some (n.val, m, k)) :
    ∃ t u, exec (.probe n) s = .next t ∧ t = run (answer m 0x14 1 []) u ∧ u.hural.inbox = s.hural.inbox.erase (n.val, m, k) ∧ u.mem = s.mem ∧ u.regs = s.regs := by
  obtain ⟨ports, hrun⟩ := takeMsg_spec (c := fun m => m.op = 0x14 && !bitOf m.addr 0) h fun m => answer m 0x14 1 []
  exact ⟨_, _, rfl, hrun, rfl, rfl, rfl⟩

theorem probeack_spec (h : (s.hural.inbox.find? fun e => e.1 = n.val && (e.2.1.op = 0x14 && bitOf e.2.1.addr 0)) = some (n.val, m, k)) :
    ∃ t, exec (.probeack n) s = .next t ∧ t.hural.probes = s.hural.probes.erase m.src ∧ t.mem = s.mem ∧ t.regs = s.regs := by
  obtain ⟨ports, hrun⟩ := takeMsg_spec (c := fun m => m.op = 0x14 && bitOf m.addr 0) h fun m => updHural fun h => { h with probes := h.probes.erase m.src }
  exact ⟨_, congrArg Host.Outcome.next hrun, rfl, rfl, rfl⟩

theorem probeTimeout_spec (b : Fin 256) :
    (b.val ∈ s.hural.probes → ∃ t, exec (.probeTimeout b) s = .next t ∧ t.hural.probes = s.hural.probes.erase b.val ∧ t.tide.darkQueue = s.tide.darkQueue ++ [b.val] ∧
      t.regs = s.regs ∧ t.mem = s.mem) ∧
    (b.val ∉ s.hural.probes → ∃ t, exec (.probeTimeout b) s = .next t ∧ t = s) := by
  have hrun : run (probeTimeout b.val) s = if s.hural.probes.contains b.val then run (.prim (.tide fun t => { t with darkQueue := t.darkQueue ++ [b.val] }))
      (run (updHural fun h => { h with probes := h.probes.erase b.val }) s) else s := by
    simp only [probeTimeout, run_given, run_all_cons, run_all_nil]
  refine ⟨fun hb => ?_, fun hb => ?_⟩
  · rw [if_pos (List.contains_iff_mem.mpr hb)] at hrun
    exact ⟨_, congrArg Host.Outcome.next hrun, rfl, rfl, rfl, rfl⟩
  · rw [if_neg (fun hc => hb (List.contains_iff_mem.mp hc))] at hrun
    exact ⟨_, congrArg Host.Outcome.next hrun, rfl⟩

end

end Sys2Proof.Machine

/-! PROOFS. Takeovers, and the messages of the Hural ports as a whole (Table 16-3). -/

namespace Sys2Proof.Machine

/-- The berth's server is the spare from now on. -/
def serverSet (b spare : Nat) : Act :=
  .seq (setF HURAL_ALIAS.SERVER spare 0 b) (updShd fun x => { x with spares := if x.spares.contains spare then x.spares else spare :: x.spares })

/-- The spare itself starts its restore. -/
def restoreStarts (s : State) (b : Nat) : Act := Act.all [setF SHD_STAT.ROLE 2, setF SHD_STAT.PHASE 1, setF SHD_STAT.SERVING b,
  evt SHD_EVT.TAKEOVER, incF SHD_COUNT.TAKEOVERS, updShd fun x => { x with taking := some (b, (Cells.get none x.declared b).getD s.now), rolled := 0 }]

theorem run_takeoverTake_of_none {s : State} {m : HMsg} (h : bitsOf m.addr 8 8 = 0xFF) :
    run (takeoverTake m) s = run (logEv .noSpare) (run (evt SHD_EVT.NOSPARE) s) := by
  simp only [takeoverTake, run_ask, h, if_true, run_all_cons, run_all_nil]

theorem run_takeoverTake_of_spare {s : State} {m : HMsg} (h : bitsOf m.addr 8 8 ≠ 0xFF) :
    run (takeoverTake m) s = run (rerouteWaiting (List.range 18))
      (run (Act.when (bitsOf m.addr 8 8 = (theChart s).flBerth && getF s SHD_STAT.ROLE = 1) (restoreStarts s (bitsOf m.addr 0 8)))
        (run (serverSet (bitsOf m.addr 0 8) (bitsOf m.addr 8 8)) s)) := by
  simp only [takeoverTake, run_ask, h, if_false, run_all_cons, run_all_nil, serverSet, run_seq, restoreStarts]

theorem restoreStarts_spec (s t : State) {b : Nat} (hb : b < 256) :
    getF (run (restoreStarts s b) t) SHD_STAT.ROLE = 2 ∧ getF (run (restoreStarts s b) t) SHD_STAT.PHASE = 1 ∧
      getF (run (restoreStarts s b) t) SHD_STAT.SERVING = b ∧ getF (run (restoreStarts s b) t) SHD_EVT.TAKEOVER = 1 ∧
      getF (run (restoreStarts s b) t) SHD_COUNT.TAKEOVERS = min (getF t SHD_COUNT.TAKEOVERS + 1) (2 ^ 16 - 1) := by
  have hshd (f : ShdSt → ShdSt) (u : State) (g : Fld) : getF (run (updShd f) u) g = getF u g := rfl
  have hserving : b % 2 ^ SHD_STAT.SERVING.width = b := Nat.mod_eq_of_lt hb
  simp only [restoreStarts, run_all_cons, run_all_nil, hshd]
  simp (decide := true) [hserving]
  rfl

theorem takeoverSet_mem (s t : State) (c : Bool) (b spare : Nat) :
    (run (Act.when c (restoreStarts s b)) (run (serverSet b spare) t)).mem = t.mem := by
  have hset : (serverSet b spare).Changes [.regs, .shd] := changes_seq ((changes_setF _ _ _ _).up rfl) ((changes_updShd _).up rfl)
  have hstarts : (restoreStarts s b).Changes [.regs, .shd] :=
    changes_cons ((changes_setF _ _ _ _).up rfl) (changes_cons ((changes_setF _ _ _ _).up rfl) (changes_cons ((changes_setF _ _ _ _).up rfl)
      (changes_cons ((changes_evt _ _ _).up rfl) (changes_cons ((changes_incF _ _ _ _).up rfl) (changes_cons ((changes_updShd _).up rfl) changes_nil)))))
  rw [only_mem (changes_when hstarts).only (by decide), only_mem hset.only (by decide)]

theorem restoreStarts_server (s t : State) (b i : Nat) : getF (run (restoreStarts s b) t) HURAL_ALIAS.SERVER 0 i = getF t HURAL_ALIAS.SERVER 0 i := by
  have hshd (f : ShdSt → ShdSt) (u : State) (g : Fld) (i j : Nat) : getF (run (updShd f) u) g i j = getF u g i j := rfl
  simp only [restoreStarts, run_all_cons, run_all_nil, hshd]
  simp (decide := true)

section
variable {s : State} {n : Fin 19} {m : HMsg} {k : Nat} (h : (s.hural.inbox.find? fun e => e.1 = n.val && e.2.1.op = 0x15) = some (n.val, m, k))
include h

theorem takeover_none (hs : bitsOf m.addr 8 8 = 0xFF) :
    ∃ t, exec (.takeover n) s = .next t ∧ getF t SHD_EVT.NOSPARE = 1 ∧ Safety.Logged .noSpare s t ∧ t.mem = s.mem := by
  obtain ⟨ports, hrun⟩ := takeMsg_spec (c := fun m => m.op = 0x15) h takeoverTake
  refine ⟨_, congrArg Host.Outcome.next (hrun.trans (run_takeoverTake_of_none hs)), ?_, ?_, ?_⟩
  · rw [logEv_getF]
    exact getF_evt_fits (by decide) 0 0 _
  · rw [Safety.Logged, logEv_tally _ _ _ _ _ _ (by decide), if_pos rfl, evt_tally]
    rfl
  · rw [logEv_mem, evt_mem]
    rfl

theorem takeover_spare (hs : bitsOf m.addr 8 8 ≠ 0xFF) : ∃ t, exec (.takeover n) s = .next t ∧
    getF t HURAL_ALIAS.SERVER 0 (bitsOf m.addr 0 8) = bitsOf m.addr 8 8 ∧ t.mem = s.mem ∧
    (bitsOf m.addr 8 8 = (theChart s).flBerth → getF s SHD_STAT.ROLE = 1 → getF t SHD_STAT.ROLE = 2 ∧ getF t SHD_STAT.PHASE = 1 ∧
      getF t SHD_STAT.SERVING = bitsOf m.addr 0 8 ∧ getF t SHD_EVT.TAKEOVER = 1 ∧ getF t SHD_COUNT.TAKEOVERS = min (getF s SHD_COUNT.TAKEOVERS + 1) (2 ^ 16 - 1)) := by
  obtain ⟨ports, hrun⟩ := takeMsg_spec (c := fun m => m.op = 0x15) h takeoverTake
  have hspare : bitsOf m.addr 8 8 < 256 := bitsOf_lt _ _ _
  have hroute := (changes_rerouteWaiting (List.range 18)).only
  have hgetF (t : State) (f : Fld) (i j : Nat) : getF (run (rerouteWaiting (List.range 18)) t) f i j = getF t f i j :=
    getF_of_getReg (by rw [getReg, getReg, only_regs hroute (by decide)])
  have hset (t : State) : getF (run (serverSet (bitsOf m.addr 0 8) (bitsOf m.addr 8 8)) t) HURAL_ALIAS.SERVER 0 (bitsOf m.addr 0 8) = bitsOf m.addr 8 8 := by
    rw [serverSet, run_seq]
    exact (getF_setF_fits (f := HURAL_ALIAS.SERVER) (by decide) _ _ _ t).trans (Nat.mod_eq_of_lt hspare)
  have hcount (t : State) : getF (run (serverSet (bitsOf m.addr 0 8) (bitsOf m.addr 8 8)) t) SHD_COUNT.TAKEOVERS = getF t SHD_COUNT.TAKEOVERS := by
    rw [serverSet, run_seq]
    exact getF_setF_apart (by decide) _ _ _ _ _ t
  refine ⟨_, congrArg Host.Outcome.next (hrun.trans (run_takeoverTake_of_spare hs)), ?_, ?_, fun hown hrole => ?_⟩
  · rw [hgetF, run_when]
    split
    · rw [restoreStarts_server, hset]
    · exact hset _
  · rw [only_mem hroute (by decide), takeoverSet_mem]
    rfl
  · have hcond : (bitsOf m.addr 8 8 = (theChart (msgGone (n.val, m, k) ports s)).flBerth && getF (msgGone (n.val, m, k) ports s) SHD_STAT.ROLE = 1 : Bool) = true :=
      Bool.and_eq_true_iff.mpr ⟨decide_eq_true hown, decide_eq_true hrole⟩
    simp only [hgetF, run_when, hcond, if_true]
    obtain ⟨hr, hp, hv, he, hc⟩ := restoreStarts_spec (msgGone (n.val, m, k) ports s)
      (run (serverSet (bitsOf m.addr 0 8) (bitsOf m.addr 8 8)) (msgGone (n.val, m, k) ports s)) (bitsOf_lt m.addr 0 8)
    exact ⟨hr, hp, hv, he, hc.trans (by rw [hcount]; rfl)⟩

end

/-- Settles O40: each command takes its message from the inbox and does what its operation asks. -/
theorem huralMessages : Obligations.HuralMessages := by
  refine ⟨fun s n m k => ⟨fun h => ⟨write_refused h, write_granted h⟩, bulk_granted, fun h => ⟨read_refused h, read_granted h⟩⟩,
    fun s n m k r hreq => ⟨wack_taken hreq, fun who a len h hjob => rdata_taken hreq h hjob, fun h => ⟨?nack, fun who a len hjob hc => nack_read hreq h hjob hc⟩,
      fun p h hjob hmig => ⟨grant_refused hreq h hjob hmig, fun a hm hhead => grant_granted hreq h hjob hmig hm hhead⟩⟩,
    fun s n m k => ⟨fun h hlend => ⟨fun i hf hw => grantreq_lends h hlend hf hw, fun f x hf hold => grantreq_calls h hlend hf hold⟩,
      fun x h hlent => ⟨huralFree_of_holder h hlent, huralFree_of_other h hlent⟩, evict_spec, tstamp_spec, lost_spec, probe_spec, probeack_spec,
      fun h => ⟨takeover_none h, takeover_spare h⟩⟩, fun s b => probeTimeout_spec b⟩
  case nack =>
    obtain ⟨t, u, hexec, ht, hreqs, hmem, hregs, -, -⟩ := nack_taken hreq h
    exact ⟨t, u, hexec, ht, hreqs, hmem, hregs⟩

end Sys2Proof.Machine

/-! PROOFS. What no primitive update takes back, and so no step (R74, R402, R405, R421). -/

namespace Sys2Proof.Machine

/-! The order `Safety.Onward` of states. -/

theorem onward_refl (s : State) : Safety.Onward s s := ⟨Nat.le_refl _, Nat.le_refl _, ⟨[], (List.append_nil _).symm⟩, Nat.le_refl _⟩

theorem onward_trans {s t u : State} : Safety.Onward s t → Safety.Onward t u → Safety.Onward s u :=
  fun ⟨hfloor, hlife, ⟨m, hm⟩, hnow⟩ ⟨hfloor', hlife', ⟨n, hn⟩, hnow'⟩ =>
    ⟨hfloor.trans hfloor', hlife.trans hlife', ⟨m ++ n, by rw [hn, hm, List.append_assoc]⟩, hnow.trans hnow'⟩

/-- Every transition of Table 20-4 leads to a later lifecycle state, or stays. -/
theorem lifeRank_le_of_mayGo {l k : Life} (h : l.mayGo k = true) : Safety.lifeRank l ≤ Safety.lifeRank k := by
  revert h
  cases l <;> cases k <;> decide

/-- Three updates guard themselves: the floor rises, the lifecycle moves along Table 20-4, records are appended; time passes forwards; every other update touches none of them. -/
theorem Prim.onward (p : Prim) (s : State) : Safety.Onward s (p.apply s) := by
  cases p with
  | floor v =>
    refine ⟨?_, Nat.le_refl _, ⟨[], (List.append_nil _).symm⟩, Nat.le_refl _⟩
    rw [Prim.floor_floor]
    split
    · next h => exact Nat.le_of_lt h
    · exact Nat.le_refl _
  | life l =>
    refine ⟨Nat.le_refl _, ?_, ⟨[], (List.append_nil _).symm⟩, Nat.le_refl _⟩
    rw [Prim.life_life]
    split
    · next h => exact lifeRank_le_of_mayGo h
    · exact Nat.le_refl _
  | flashLog rs => exact ⟨Nat.le_refl _, Nat.le_refl _, ⟨rs, rfl⟩, Nat.le_refl _⟩
  | time n => exact ⟨Nat.le_refl _, Nat.le_refl _, ⟨[], (List.append_nil _).symm⟩, Nat.le_add_right _ _⟩
  | _ => exact onward_refl s

theorem run_onward (a : Act) (s : State) : Safety.Onward s (run a s) :=
  run_keeps (fun p t h => onward_trans h (p.onward t)) a s (onward_refl s)

/-- Settles O5: a step runs one program, of a command or of the tick, and no primitive update goes back. -/
theorem noStepGoesBack : Obligations.NoStepGoesBack := by
  intro s
  unfold step
  split
  next => exact ⟨_, rfl, run_onward tick s⟩
  next c rest _ =>
    obtain ⟨a, he⟩ := exec_runs c
    exact ⟨_, he _, run_onward a { s with pending := rest }⟩

end Sys2Proof.Machine

/-! PROOFS. Which commands leave the chart and each unit of the package alone (95_what_each_step_holds.md). -/

namespace Sys2Proof.Machine

/-- Settles O57: a command that a list of Safety leaves out runs a program that leaves out the part. -/
theorem eachUnitIsItsCommandsOwn : Obligations.EachUnitIsItsCommandsOwn := by
  refine ⟨fun c s h => ?chart, fun c s h => ?links, fun c s h => ?harbour, fun c s h => ?energy, fun c s h => ?board, fun c s h => ?calendar,
    fun c s h => ?flashLog⟩ <;> obtain ⟨a, l, he, ha, hl⟩ := exec_only c <;> refine ⟨run a s, he s, ?_⟩
  case chart => exact only_chart ha (hl .chart h) s
  case links => exact only_link ha (hl .link h) s
  case harbour => exact only_hm ha (hl .hm h) s
  case energy => exact only_en ha (hl .en h) s
  case board => exact only_pow ha (hl .pow h) s
  case calendar => exact only_time ha (hl .calendar h) s
  case flashLog => exact only_flashLog ha (hl .flashLog h) s

end Sys2Proof.Machine

/-! PROOFS. Chart amendments and the chart's flash slots (R78 to R84). -/

namespace Sys2Proof.Machine

/-- A program that ends in a record has logged its event, where what came before logged none of that kind. -/
theorem logged_logEv {k : LogKind} (hk : k ≠ .logFull) (d o : Nat) (dt : List Nat) {s t : State} (h : Safety.tally t k = Safety.tally s k) :
    Safety.Logged k s (run (logEv k d o dt) t) := by
  rw [Safety.Logged, logEv_tally _ _ _ _ _ _ hk, if_pos rfl, h]
  rfl

@[simp] theorem updChart_chart (f : ChartSt → ChartSt) (s : State) : (run (updChart f) s).chart = f s.chart := (rfl)
@[simp] theorem updChart_regs (f : ChartSt → ChartSt) (s : State) : (run (updChart f) s).regs = s.regs := (rfl)
@[simp] theorem updChart_mem (f : ChartSt → ChartSt) (s : State) : (run (updChart f) s).mem = s.mem := (rfl)
@[simp] theorem updChart_getF (f : ChartSt → ChartSt) (x : Fld) (m n : Nat) (s : State) : getF (run (updChart f) s) x m n = getF s x m n := (rfl)
@[simp] theorem updChart_tally (f : ChartSt → ChartSt) (k : LogKind) (s : State) : Safety.tally (run (updChart f) s) k = Safety.tally s k := (rfl)

theorem theChart_of_chart {s t : State} (h : t.chart.cur = s.chart.cur) : theChart t = theChart s := by rw [theChart, theChart, h]

/-! How an amendment ends. -/

/-- What every end of an amendment leaves: AMEND 5, its reason, nothing staged and the chart in effect as it was (R78, R79, R82). -/
structure AmendEnded (reason : Nat) (s t : State) : Prop where
  amend : getF t CHART_STAT.AMEND = 5
  reason : getF t CHART_STAT.REASON = reason % 2 ^ 8
  next : getF t TIDE_PERIOD.NEXT = 0
  staged : t.chart.staged = none
  chart : theChart t = theChart s
  mem : t.mem = s.mem
  tally : ∀ k, Safety.tally t k = Safety.tally s k

theorem amendEnd_ended (reason : Nat) (s : State) : AmendEnded reason s (run (amendEnd reason) s) := by
  have hw : CHART_STAT.REASON.width = 8 := rfl
  constructor <;> simp (decide := true) [amendEnd, theChart, hw]

theorem run_amendReject (reason : Nat) (s : State) : run (amendReject reason) s =
    run (logEv (if reason = 0x0E then .amendDrained else .amendRejected)) (run (evt CHART_EVT.AMENDREJ) (run (amendEnd reason) s)) := by
  rw [amendReject, run_all_cons, run_all_cons, run_all_cons, run_all_nil]

/-- A rejection ends the amendment and sets AMENDREJ (R78). -/
theorem amendReject_spec (reason : Nat) (s : State) :
    getF (run (amendReject reason) s) CHART_STAT.AMEND = 5 ∧ getF (run (amendReject reason) s) CHART_STAT.REASON = reason % 2 ^ 8 ∧
      getF (run (amendReject reason) s) CHART_EVT.AMENDREJ = 1 ∧ (run (amendReject reason) s).chart.staged = none ∧
      theChart (run (amendReject reason) s) = theChart s ∧ (run (amendReject reason) s).mem = s.mem := by
  obtain ⟨hamend, hreason, -, hstaged, hchart, hmem, -⟩ := amendEnd_ended reason s
  rw [run_amendReject]
  have hw : 1 % 2 ^ CHART_EVT.AMENDREJ.width = 1 := rfl
  refine ⟨?_, ?_, ?_, ?_, (theChart_of_chart ?_).trans hchart, ?_⟩ <;> simp (decide := true) [hamend, hreason, hstaged, hmem, hw]

theorem amendReject_drained_logged (s : State) : Safety.Logged .amendDrained s (run (amendReject 0x0E) s) := by
  rw [run_amendReject, if_pos rfl]
  exact logged_logEv (by decide) _ _ _ ((evt_tally _ _ _ _ _).trans ((amendEnd_ended 0x0E s).tally _))

/-! The commands of an amendment. -/

theorem run_amendGo (addr : Addr) {s : State} (hstate : getF s CHART_STAT.STATE ≠ 2) : run (amendGo addr) s =
    run (if getF s CHART_STAT.AMEND ∈ [1, 2, 3] then Act.all [setF CHART_STAT.REASON 0x0D, evt CHART_EVT.AMENDREJ, logEv .amendRejected]
      else Act.all [setF CHART_STAT.AMEND 1, updChart fun c => { c with checking := some addr }]) (run (setF CHART_AMEND.ADDR (addr.toNat / 64)) s) := by
  have hkeep : ∀ f : Fld, CHART_AMEND.ADDR.apart f = true → getF (run (setF CHART_AMEND.ADDR (addr.toNat / 64)) s) f = getF s f :=
    fun f hf => getF_setF_apart hf _ _ _ _ _ _
  simp only [amendGo, run_seq, run_ask, hkeep CHART_STAT.STATE (by decide), hkeep CHART_STAT.AMEND (by decide), hstate, if_false, Bool.or_eq_true,
    decide_eq_true_eq, List.mem_cons, List.not_mem_nil, or_false, or_assoc]

/-- ADDR of an amendment is a multiple of 64 below 2^48. -/
theorem addr_div_mod (addr : Addr) : addr.toNat / 64 % 2 ^ 42 = addr.toNat / 64 := by
  have := addr.isLt
  exact Nat.mod_eq_of_lt (by omega)

theorem amendGo_taken (addr : Addr) {s : State} (hstate : getF s CHART_STAT.STATE ≠ 2) (hamend : getF s CHART_STAT.AMEND ∉ [1, 2, 3]) :
    let t := run (amendGo addr) s
    getF t CHART_STAT.AMEND = 1 ∧ getF t CHART_AMEND.ADDR = addr.toNat / 64 ∧ t.chart = { s.chart with checking := some addr } ∧ t.mem = s.mem := by
  have hw : CHART_AMEND.ADDR.width = 42 := rfl
  rw [run_amendGo addr hstate, if_neg hamend]
  refine ⟨?_, ?_, ?_, ?_⟩ <;> simp (decide := true) [hw, -Nat.reducePow, addr_div_mod]

theorem amendGo_busy (addr : Addr) {s : State} (hstate : getF s CHART_STAT.STATE ≠ 2) (hamend : getF s CHART_STAT.AMEND ∈ [1, 2, 3]) :
    let t := run (amendGo addr) s
    getF t CHART_STAT.AMEND = getF s CHART_STAT.AMEND ∧ t.chart = s.chart ∧ getF t CHART_STAT.REASON = 0x0D ∧ getF t CHART_EVT.AMENDREJ = 1 ∧
      Safety.Logged .amendRejected s t ∧ t.mem = s.mem := by
  rw [run_amendGo addr hstate, if_pos hamend]
  simp only [run_all_cons, run_all_nil]
  refine ⟨?_, ?_, ?_, ?_, logged_logEv (by decide) _ _ _ ?_, ?_⟩ <;> simp (decide := true)

/-- A check that finds nothing wrong, in time for its boundary, stages the image's chart (R78). -/
theorem amendCheckDone_staged {s : State} {a : Addr} (ha : s.chart.checking = some a) (hcheck : chartCheck (chartCx s true) (readImage s a) = 0)
    (hreach : firstBoundary s ≤ amendBoundary s (imgChart (readImage s a))) (hlt : amendBoundary s (imgChart (readImage s a)) < 2 ^ 48) :
    let t := run amendCheckDone s
    getF t CHART_STAT.AMEND = 2 ∧ t.chart.staged = some (imgChart (readImage s a)) ∧ t.chart.checking = none ∧
      getF t CHART_EFFECT.TIDE = amendBoundary s (imgChart (readImage s a)) ∧ theChart t = theChart s ∧ t.mem = s.mem := by
  have hw : CHART_EFFECT.TIDE.width = 48 := rfl
  simp only [amendCheckDone, run_ask, ha, hcheck, ne_eq, not_true_eq_false, if_false, Nat.not_lt.mpr hreach]
  refine ⟨?_, ?_, ?_, ?_, theChart_of_chart ?_, ?_⟩ <;> simp (decide := true) [hw, -Nat.reducePow, Nat.mod_eq_of_lt hlt]

theorem amendCheckDone_rejected {s : State} {a : Addr} (ha : s.chart.checking = some a) (hr : chartCheck (chartCx s true) (readImage s a) ≠ 0) :
    run amendCheckDone s = run (amendReject (chartCheck (chartCx s true) (readImage s a))) s := by
  simp only [amendCheckDone, run_ask, ha, ne_eq, hr, not_false_eq_true, if_true]

theorem run_amendCancel {s : State} (hstaged : getF s CHART_STAT.AMEND = 2) (hopen : firstBoundary s ≤ getF s CHART_EFFECT.TIDE) :
    run amendCancel s = run (logEv .amendCancelled) (run (amendEnd 0x0F) s) := by
  simp only [amendCancel, run_ask, hstaged, hopen, decide_true, Bool.and_self, if_true, run_all_cons, run_all_nil]

theorem run_amendDrainTimeout {s : State} {c : Chart} (hc : s.chart.staged = some c) (hclass : c.sections.any (fun e => isClassD e.1) = true)
    (hlate : getF s CHART_EFFECT.TIDE + 1024 ≤ getF s TIDE_COUNT.COUNT) : run amendDrainTimeout s = run (amendReject 0x0E) s := by
  simp only [amendDrainTimeout, run_ask, hc, hclass, hlate, decide_true, Bool.and_self, if_true]

/-- Settles O13: a submission by what AMEND reads, a check by its reason, and the two ends of a staged amendment. -/
theorem chartAmendments : Obligations.ChartAmendments := by
  refine ⟨fun s addr hstate hamend => ⟨_, rfl, amendGo_taken addr hstate hamend⟩, fun s addr hstate hamend => ⟨_, rfl, amendGo_busy addr hstate hamend⟩,
    fun s a ha hcheck hreach hlt => ⟨_, rfl, amendCheckDone_staged ha hcheck hreach hlt⟩, fun s a r ha hr hne => ⟨_, rfl, ?rejected⟩,
    fun s hstaged hopen => ⟨_, rfl, ?cancelled⟩, fun s c hc hclass hlate => ⟨_, rfl, ?drained⟩⟩
  case rejected =>
    subst hr
    rw [amendCheckDone_rejected ha hne]
    exact amendReject_spec _ s
  case cancelled =>
    obtain ⟨hamend, hreason, hnext, hstaged', hchart, hmem, htally⟩ := amendEnd_ended 0x0F s
    rw [run_amendCancel hstaged hopen]
    exact ⟨by rw [logEv_getF, hamend], by rw [logEv_getF, hreason]; rfl, by rw [logEv_getF, hnext], by rw [logEv_chart, hstaged'],
      by rw [logEv_theChart, hchart], logged_logEv (by decide) _ _ _ (htally _), by rw [logEv_mem, hmem]⟩
  case drained =>
    obtain ⟨hamend, hreason, hrej, hstaged, hchart, hmem⟩ := amendReject_spec 0x0E s
    rw [run_amendDrainTimeout hc hclass hlate]
    exact ⟨hamend, hreason, hrej, hstaged, hchart, amendReject_drained_logged s, hmem⟩

/-! The flash slots. -/

theorem run_flashGo (addr : Addr) (s : State) : run (flashGo addr) s =
    run (if getF s CHART_STAT.FLASH = 1 then Act.all [setF CHART_STAT.FREASON 0x0D, logEv .chartFlashRefused]
      else Act.all [setF CHART_STAT.FLASH 1, updChart fun c => { c with flashAddr := some addr, flashImage := none }])
      (run (setF CHART_FLASH.ADDR (addr.toNat / 64)) s) := by
  have hkeep : getF (run (setF CHART_FLASH.ADDR (addr.toNat / 64)) s) CHART_STAT.FLASH = getF s CHART_STAT.FLASH := getF_setF_apart (by decide) ..
  simp only [flashGo, run_seq, run_ask, hkeep]

theorem flashGo_taken (addr : Addr) {s : State} (h : getF s CHART_STAT.FLASH ≠ 1) :
    let t := run (flashGo addr) s
    getF t CHART_STAT.FLASH = 1 ∧ t.chart.flashAddr = some addr ∧ t.chart.slotA = s.chart.slotA ∧ t.chart.slotB = s.chart.slotB ∧ theChart t = theChart s ∧
      t.mem = s.mem := by
  rw [run_flashGo, if_neg h]
  refine ⟨?_, ?_, ?_, ?_, theChart_of_chart ?_, ?_⟩ <;> simp (decide := true)

theorem flashGo_busy (addr : Addr) {s : State} (h : getF s CHART_STAT.FLASH = 1) :
    let t := run (flashGo addr) s
    getF t CHART_STAT.FLASH = 1 ∧ t.chart = s.chart ∧ getF t CHART_STAT.FREASON = 0x0D ∧ Safety.Logged .chartFlashRefused s t := by
  rw [run_flashGo, if_pos h]
  simp only [run_all_cons, run_all_nil]
  refine ⟨?_, ?_, ?_, logged_logEv (by decide) _ _ _ ?_⟩ <;> simp (decide := true) [h]

/-- A check that finds nothing wrong hands the image to the writer (R84). -/
theorem run_flashCheckDone_good {s : State} {a : Addr} (ha : s.chart.flashAddr = some a) (hr : chartCheck (chartCx s false) (readImage s a) = 0) :
    run flashCheckDone s =
      run (updChart fun c => { c with flashAddr := none, flashImage := some ((readImage s a).take (imgLength (readImage s a))) }) s := by
  simp only [flashCheckDone, run_ask, ha, hr, if_true]

/-- One that finds a reason writes no slot. -/
theorem run_flashCheckDone_bad {s : State} {a : Addr} (ha : s.chart.flashAddr = some a) (hr : chartCheck (chartCx s false) (readImage s a) ≠ 0) :
    run flashCheckDone s = run (updChart fun c => { c with flashAddr := none }) (run (evt CHART_EVT.FLASHFAIL)
      (run (setF CHART_STAT.FREASON (chartCheck (chartCx s false) (readImage s a))) (run (setF CHART_STAT.FLASH 3) s))) := by
  simp only [flashCheckDone, run_ask, ha, hr, if_false, run_all_cons, run_all_nil]

theorem flashCheckDone_spec {s : State} {a : Addr} (ha : s.chart.flashAddr = some a) :
    let t := run flashCheckDone s
    let r := chartCheck (chartCx s false) (readImage s a)
    t.chart.flashAddr = none ∧ t.chart.slotA = s.chart.slotA ∧ t.chart.slotB = s.chart.slotB ∧
      (r = 0 → t.chart.flashImage = some ((readImage s a).take (imgLength (readImage s a))) ∧ t.regs = s.regs) ∧
      (r ≠ 0 → getF t CHART_STAT.FLASH = 3 ∧ getF t CHART_STAT.FREASON = r % 2 ^ 8 ∧ getF t CHART_EVT.FLASHFAIL = 1 ∧ t.chart.flashImage = s.chart.flashImage) := by
  by_cases hr : chartCheck (chartCx s false) (readImage s a) = 0
  · rw [run_flashCheckDone_good ha hr]
    refine ⟨?_, ?_, ?_, fun _ => ⟨?_, ?_⟩, fun hne => absurd hr hne⟩ <;> simp
  · have hw : CHART_STAT.FREASON.width = 8 := rfl
    rw [run_flashCheckDone_bad ha hr]
    refine ⟨?_, ?_, ?_, fun h => absurd h hr, fun _ => ⟨?_, ?_, ?_, ?_⟩⟩ <;> simp (decide := true) [hw]

/-- The slot that a write with the loaded slot known goes to is the other one (R84). -/
theorem flashSlot_of_loaded {s : State} {b : Bool} (h : s.chart.loadedB = some b) : flashSlot s = !b := by simp only [flashSlot, h]

/-- The chart's flash after the writer has put an image, or what a failed programming leaves, into slot B (true) or A. -/
def ChartSt.written (c : ChartSt) (slotB : Bool) (img : List Byte) : ChartSt :=
  { c with flashImage := none, slotA := if slotB then c.slotA else img, slotB := if slotB then img else c.slotB, fallbackWrites := c.fallbackWrites + 1 }

theorem run_flashWriteDone {s : State} {img : List Byte} {b : Bool} (himg : s.chart.flashImage = some img) (hb : s.chart.loadedB = some b) (ok : Bool) :
    run (flashWriteDone ok) s = run (if ok then setF CHART_STAT.FLASH 2 else Act.all [setF CHART_STAT.FLASH 3, setF CHART_STAT.FREASON 0, evt CHART_EVT.FLASHFAIL])
      (run (updChart fun c => c.written (!b) (if ok then img else [])) s) := by
  cases ok <;>
    simp only [flashWriteDone, ChartSt.written, run_ask, himg, hb, flashSlot_of_loaded hb, run_all_cons, run_all_nil, run_when, Option.isNone_some, if_true,
      if_false, Bool.false_eq_true]

theorem flashWriteDone_spec {s : State} {img : List Byte} {b : Bool} (himg : s.chart.flashImage = some img) (hb : s.chart.loadedB = some b) (ok : Bool) :
    let t := run (flashWriteDone ok) s
    getF t CHART_STAT.FLASH = (if ok then 2 else 3) ∧ t.chart = s.chart.written (!b) (if ok then img else []) ∧ t.mem = s.mem := by
  rw [run_flashWriteDone himg hb]
  cases ok <;> refine ⟨?_, ?_, ?_⟩ <;> simp (decide := true)

/-- Settles O14: a submission by what FLASH reads, a check by its reason, and a write into the slot that was not loaded. -/
theorem chartFlash : Obligations.ChartFlash := by
  refine ⟨fun s addr h => ⟨_, rfl, flashGo_taken addr h⟩, fun s addr h => ⟨_, rfl, flashGo_busy addr h⟩, fun s a r ha hr => ?check,
    fun s ok b img himg hb => ⟨_, rfl, ?written⟩⟩
  case check =>
    subst hr
    exact ⟨_, rfl, flashCheckDone_spec ha⟩
  case written =>
    obtain ⟨hflash, hchart, hmem⟩ := flashWriteDone_spec himg hb ok
    rw [hchart]
    refine ⟨rfl, hflash, ?_, fun hok => ?_, hmem⟩
    · cases b <;> rfl
    · subst hok
      cases b <;> rfl

end Sys2Proof.Machine

/-! PROOFS. A long-sum fold of an MMA that has entered no group of its own bank image (R101, R103). -/

namespace Sys2Proof.Machine

/-- With INIT 0b10 and no group entered yet, the fold accumulates into the image at SPILL, whose bank is FILLING, whatever state the bank held (R103). -/
theorem bankFor_of_load {r : RunItem} (hinit : mInit r.desc = 2) (hgroup : r.group = 0) (pick : Nat → Nat) (t : Tile) :
    (bankFor pick t r).st = .filling := by
  simp only [bankFor, hinit, hgroup, decide_true, Bool.and_self, if_true, loadImage]

theorem accumulate_st (pick : Nat → Nat) (t : Tile) (r : RunItem) (b : Bank) (q k : Nat) : (accumulate pick t r b q k).1.st = b.st := rfl

/-- The fold of an integer bank puts the bank into the state that its groups entered with. -/
theorem longSumFold_bank_st {s : State} {u b k : Nat} {r : RunItem} (hclock : tileRuns s u = true) (hr : (runsOn (getTile s u) b).head? = some r)
    (hk : foldDue ((getTile s u).bank b) r = some k) (hint : mInt r.desc = true) :
    ((getTile (run (clocked u (longSumFold u b)) s) u).bank b).st = (bankFor (Config.freeValue s.free) (getTile s u) r).st := by
  simp only [clocked, longSumFold, run_ask, run_when, hclock, if_true, run_withFree, hr, hk, hint, Bool.not_true, Bool.false_eq_true, if_false,
    run_all_cons, run_all_nil, orFlags, run_prim, Prim.fresh_getTile, Prim.reg_getTile, getTile_updTile_same, Tile.bank_withEng, Tile.bank_withBank,
    accumulate_st]

/-- An integer MMA of 64 k values with INIT 0b10 and LONGL 4, none of whose groups has entered: its fold is due after 16 groups. -/
def foldingMma : RunItem :=
  { desc := 0x0402_0000_2020_0000_0040_0000_0040_0000_0040_0000_0000_0000_0000_0000_0000_0000_0000_0000_0000_000A_0010#512 }

/-- That MMA in progress on tile 0, whose bank 0 is FREE. -/
def foldingOnFree : State := { tiles := [(0, { mx := { run := [foldingMma] } })] }

/-- Refutes O16: on `foldingOnFree` the fold is due, and the bank, FREE before, is FILLING after it, since with INIT 0b10 the image at SPILL enters with the first group. -/
theorem not_matrixEngine : ¬ Obligations.MatrixEngine := by
  rintro ⟨-, -, -, hfold, -⟩
  have hclock : tileRuns foldingOnFree 0 = true := by decide
  have hr : (runsOn (getTile foldingOnFree 0) 0).head? = some foldingMma := by decide +kernel
  have hk : foldDue ((getTile foldingOnFree 0).bank 0) foldingMma = some 16 := by decide +kernel
  have hdesc : mInt foldingMma.desc = true ∧ mInit foldingMma.desc = 2 := by decide +kernel
  have hfree : ((getTile foldingOnFree 0).bank 0).st = .free := rfl
  obtain ⟨t, hexec, -, hst, -⟩ := hfold foldingOnFree 0 0 foldingMma 16 hclock hr hk
  obtain rfl : run (clocked 0 (longSumFold 0 0)) foldingOnFree = t := Host.Outcome.next.inj hexec
  have hfilling := (longSumFold_bank_st hclock hr hk hdesc.1).trans (bankFor_of_load hdesc.2 rfl _ _)
  exact BankState.noConfusion (hfilling.symm.trans (hst.trans hfree))

end Sys2Proof.Machine

/-! PROOFS. Bytes stored across lines read back, whatever the caches held (R3, R16, R262). -/

namespace Sys2Proof.Machine

theorem Cells.look_filter_key {V : Type} (m : FMap V) (p : Nat → Bool) (k : Nat) :
    Cells.look (m.filter fun e => p e.1) k = if p k then Cells.look m k else none := by
  induction m with
  | nil => simp [Cells.look]
  | cons e m ih =>
    obtain ⟨a, v⟩ := e
    by_cases hka : k = a
    · subst hka
      by_cases hp : p k <;> simp [hp, Cells.look, ih]
    · by_cases hp : p a <;> simp [hp, Cells.look, hka, ih]

/-! The lines of a range. -/

/-- A piece lies in the range and within one line. -/
theorem linePieces_mem {a n : Nat} {p : Nat × Nat} (h : p ∈ linePieces a n) : a ≤ p.1 ∧ p.1 + p.2 ≤ a + n ∧ p.1 % 64 + p.2 ≤ 64 := by
  by_cases hn : n = 0
  · simp [linePieces, hn] at h
  · simp only [linePieces, hn, if_false, List.mem_map, List.mem_range] at h
    obtain ⟨i, hi, rfl⟩ := h
    dsimp only
    omega

/-- Every byte of the range lies in a piece. -/
theorem linePieces_cover {a n x : Nat} (hlo : a ≤ x) (hhi : x < a + n) : ∃ p ∈ linePieces a n, p.1 ≤ x ∧ x < p.1 + p.2 := by
  have hn : n ≠ 0 := by omega
  simp only [linePieces, hn, if_false, List.mem_map, List.mem_range]
  refine ⟨_, ⟨x / 64 - a / 64, ?_, rfl⟩, ?_, ?_⟩
  · omega
  · dsimp only; omega
  · dsimp only; omega

/-! A byte that memory holds. -/

/-- Memory holds a value at an address, and no cache stands before it. -/
def Holds (x : Nat) (v : Byte) (s : State) : Prop := Cells.look s.coh.dir (x / 64) = none ∧ Cells.get 0 s.mem x = v

theorem Holds.readByte {x : Nat} {v : Byte} {s : State} (h : Holds x v s) : readByte s x = v := by
  rw [Machine.readByte, cohData_of_dir h.1]
  exact h.2

theorem Holds.congr {x : Nat} {v : Byte} {s t : State} (h : Holds x v s) (hm : t.mem = s.mem) (hc : t.coh = s.coh) : Holds x v t := by
  rwa [Holds, hm, hc]

/-- The bytes that the owner of a line gives up where the home keeps them. -/
def ownerBytes (s : State) (line : Nat) (keep : Bool) : List Byte := if keep then ((cohData s line).map descBytes).getD [] else []

theorem ownerBytes_length (s : State) (line : Nat) (keep : Bool) : (ownerBytes s line keep).length ≤ 64 := by
  unfold ownerBytes
  split
  · cases cohData s line with
    | none => exact Nat.zero_le _
    | some d => exact (length_natLe d.toNat 64).le
  · exact Nat.zero_le _

/-- A line that some cache holds: the hold is counted, its owner's bytes reach memory, its entry goes. -/
theorem run_dropCopies_of_held {s : State} {line : Nat} {e : DirEnt} (hd : Cells.look s.coh.dir line = some e) (keep : Bool) :
    run (dropCopies line keep) s = Prim.apply (.coh fun c => c.forget fun l => decide (l = line))
      (run (writeMem (line * 64) (ownerBytes s line keep)) (run (Act.when (decide (holdsNow s line ≠ 0)) (addF COH_HOLDSNP.COUNT (holdsNow s line))) s)) := by
  cases hdata : cohData s line <;> cases keep <;>
    simp only [dropCopies, ownerBytes, run_ask, hd, hdata, run_all_cons, run_all_nil, run_prim, run_skip] <;> rfl

/-- The end of a line's copies: nothing where no cache holds it, else its entry goes, and other lines of memory stand. -/
theorem dropCopies_cases (line : Nat) (keep : Bool) (s : State) :
    (Cells.look s.coh.dir line = none ∧ run (dropCopies line keep) s = s) ∨
      (Cells.look s.coh.dir line ≠ none ∧ (run (dropCopies line keep) s).coh = s.coh.forget (fun l => decide (l = line)) ∧
        ∀ x, x / 64 ≠ line → Cells.get 0 (run (dropCopies line keep) s).mem x = Cells.get 0 s.mem x) := by
  cases hd : Cells.look s.coh.dir line with
  | none => exact .inl ⟨rfl, by simp only [dropCopies, run_ask, hd, run_skip]⟩
  | some e =>
    have hcount := (changes_when (c := decide (holdsNow s line ≠ 0)) (changes_addF COH_HOLDSNP.COUNT (holdsNow s line) 0 0)).only
    have hlen := ownerBytes_length s line keep
    rw [run_dropCopies_of_held hd]
    refine .inr ⟨Option.some_ne_none e, ?_, fun x hx => ?_⟩
    · rw [Prim.coh_coh, writeMem_coh, only_coh hcount (by decide)]
    · rw [Prim.coh_mem, writeMem_get, if_neg (by omega), only_mem hcount (by decide)]

theorem dropCopies_dir (line : Nat) (keep : Bool) (s : State) : Cells.look (run (dropCopies line keep) s).coh.dir line = none := by
  obtain ⟨hnone, hrun⟩ | ⟨-, hcoh, -⟩ := dropCopies_cases line keep s
  · rw [hrun, hnone]
  · rw [hcoh, CohSt.forget, Cells.look_filter_key (p := fun l => !decide (l = line))]
    simp

theorem Holds.dropCopies {x : Nat} {v : Byte} {s : State} (h : Holds x v s) (line : Nat) (keep : Bool) : Holds x v (run (dropCopies line keep) s) := by
  obtain ⟨hdir, hmem⟩ := h
  obtain ⟨-, hrun⟩ | ⟨hsome, hcoh, hbytes⟩ := dropCopies_cases line keep s
  · rw [hrun]; exact ⟨hdir, hmem⟩
  · have hline : x / 64 ≠ line := fun he => hsome (he ▸ hdir)
    refine ⟨?_, ?_⟩
    · rw [hcoh, CohSt.forget, Cells.look_filter_key (p := fun l => !decide (l = line)), hdir, ite_self]
    · rw [hbytes x hline, hmem]

theorem Holds.writeMem {x : Nat} {v : Byte} {s : State} (h : Holds x v s) {a : Nat} {bs : List Byte} (hout : x < a ∨ a + bs.length ≤ x) :
    Holds x v (run (writeMem a bs) s) := by
  obtain ⟨hdir, hmem⟩ := h
  refine ⟨by rw [writeMem_coh, hdir], ?_⟩
  rw [writeMem_get, if_neg (by omega), hmem]

theorem holds_writeMem {x a : Nat} {bs : List Byte} {s : State} (hdir : Cells.look s.coh.dir (x / 64) = none) (hlo : a ≤ x) (hhi : x < a + bs.length) :
    Holds x (bs.getD (x - a) 0) (run (writeMem a bs) s) := by
  refine ⟨by rw [writeMem_coh, hdir], ?_⟩
  rw [writeMem_get, if_pos ⟨hlo, hhi⟩]

/-! A store, one line after another. -/

/-- What a store does for one piece of its range. -/
def storePiece (w : Writer) (a : Nat) (bs : List Byte) (p : Nat × Nat) : Act :=
  Act.all [dropCopies (p.1 / 64) (decide (p.2 < 64)), writeMem p.1 (slice bs (p.1 - a) p.2), stampLine w p.1 (decide (p.2 = 64))]

theorem storeMem_eq (w : Writer) (a : Nat) (bs : List Byte) :
    storeMem w a bs = Act.all [Act.each (storePiece w a bs) (linePieces a bs.length), clearBlocks w a bs.length] := rfl

theorem run_storePiece_congr (w : Writer) (a : Nat) (bs : List Byte) (p : Nat × Nat) (s : State) :
    let t := run (Machine.writeMem p.1 (slice bs (p.1 - a) p.2)) (run (dropCopies (p.1 / 64) (decide (p.2 < 64))) s)
    (run (storePiece w a bs p) s).mem = t.mem ∧ (run (storePiece w a bs p) s).coh = t.coh := by
  have hstamp := (changes_stampLine w p.1 (decide (p.2 = 64))).only
  rw [storePiece, run_all_cons, run_all_cons, run_all_cons, run_all_nil]
  exact ⟨only_mem hstamp (by decide) _, only_coh hstamp (by decide) _⟩

/-- A byte of the piece takes its value. -/
theorem storePiece_holds (w : Writer) {a x : Nat} {bs : List Byte} {p : Nat × Nat} (hp : p ∈ linePieces a bs.length) (hlo : p.1 ≤ x) (hhi : x < p.1 + p.2)
    (s : State) : Holds x (bs.getD (x - a) 0) (run (storePiece w a bs p) s) := by
  obtain ⟨ha, hend, hline⟩ := linePieces_mem hp
  obtain ⟨hm, hc⟩ := run_storePiece_congr w a bs p s
  have hlen : (slice bs (p.1 - a) p.2).length = p.2 := by
    simp only [slice, List.length_take, List.length_drop]; omega
  have hget : (slice bs (p.1 - a) p.2).getD (x - p.1) 0 = bs.getD (x - a) 0 := by
    simp only [slice, List.getD_eq_getElem?_getD, List.getElem?_take, List.getElem?_drop]
    rw [if_pos (by omega), show p.1 - a + (x - p.1) = x - a by omega]
  refine Holds.congr ?_ hm hc
  rw [← hget]
  refine holds_writeMem ?_ hlo (by omega)
  rw [show x / 64 = p.1 / 64 by omega, dropCopies_dir]

/-- Every other byte that memory holds stays. -/
theorem Holds.storePiece {x : Nat} {v : Byte} {s : State} (h : Holds x v s) (w : Writer) (a : Nat) (bs : List Byte) {p : Nat × Nat}
    (hout : x < p.1 ∨ p.1 + p.2 ≤ x) : Holds x v (run (storePiece w a bs p) s) := by
  obtain ⟨hm, hc⟩ := run_storePiece_congr w a bs p s
  have hlen : (slice bs (p.1 - a) p.2).length ≤ p.2 := by simp only [slice, List.length_take]; omega
  exact ((h.dropCopies _ _).writeMem (by omega)).congr hm hc

/-- After the pieces of a list, a byte of one of them holds its value, and so does one that held it before. -/
theorem each_storePiece_holds (w : Writer) {a x : Nat} {bs : List Byte} {l : List (Nat × Nat)} (hl : ∀ p ∈ l, p ∈ linePieces a bs.length) (s : State)
    (h : (∃ p ∈ l, p.1 ≤ x ∧ x < p.1 + p.2) ∨ Holds x (bs.getD (x - a) 0) s) :
    Holds x (bs.getD (x - a) 0) (run (Act.each (storePiece w a bs) l) s) := by
  induction l generalizing s with
  | nil => exact h.resolve_left (by simp)
  | cons p l ih =>
    rw [run_each_cons]
    refine ih (fun q hq => hl q (List.mem_cons_of_mem _ hq)) _ ?_
    by_cases hin : p.1 ≤ x ∧ x < p.1 + p.2
    · exact .inr (storePiece_holds w (hl p List.mem_cons_self) hin.1 hin.2 s)
    · obtain ⟨q, hq, hx⟩ | hs := h
      · obtain rfl | hq := List.mem_cons.mp hq
        · exact absurd hx hin
        · exact .inl ⟨q, hq, hx⟩
      · exact .inr (hs.storePiece w a bs (by omega))

theorem storeMem_readByte (w : Writer) {a x : Nat} {bs : List Byte} (hlo : a ≤ x) (hhi : x < a + bs.length) (s : State) :
    readByte (run (storeMem w a bs) s) x = bs.getD (x - a) 0 := by
  have hclear := (changes_clearBlocks w a bs.length).only
  have hpieces := each_storePiece_holds w (fun _ hp => hp) s (.inl (linePieces_cover hlo hhi))
  rw [storeMem_eq, run_all_cons, run_all_cons, run_all_nil]
  exact (hpieces.congr (only_mem hclear (by decide) _) (only_coh hclear (by decide) _)).readByte

/-- The first bytes stored read back. -/
theorem storeMem_readMem (w : Writer) (a : Nat) (bs rest : List Byte) (s : State) : readMem (run (storeMem w a (bs ++ rest)) s) a bs.length = bs := by
  refine List.ext_getElem (by simp [readMem]) fun i h h' => ?_
  simp only [readMem, List.getElem_map, List.getElem_range]
  rw [storeMem_readByte w (by omega) (by rw [List.length_append]; omega)]
  simp [List.getD_eq_getElem?_getD, List.getElem?_append_left h', h']

end Sys2Proof.Machine

/-! PROOFS. The security core: submissions, command records, keys and identities, attestation (R416 to R421, R428). -/

namespace Sys2Proof.Machine

@[simp] theorem updSec_sec (f : SecSt → SecSt) (s : State) : (run (updSec f) s).sec = f s.sec := (rfl)
@[simp] theorem updSec_life (f : SecSt → SecSt) (s : State) : (run (updSec f) s).life = s.life := (rfl)
@[simp] theorem updSec_mem (f : SecSt → SecSt) (s : State) : (run (updSec f) s).mem = s.mem := (rfl)
@[simp] theorem updSec_getF (f : SecSt → SecSt) (x : Fld) (m n : Nat) (s : State) : getF (run (updSec f) s) x m n = getF s x m n := (rfl)

/-! What the checks of the security core read. -/

/-- Two states alike in memory, caches, keys, lifecycle, time and IDREV. -/
structure SameSecurity (s t : State) : Prop where
  mem : t.mem = s.mem
  coh : t.coh = s.coh
  sec : t.sec = s.sec
  life : t.life = s.life
  now : t.now = s.now
  time : t.time = s.time
  idrev : getReg t .IDREV 0 0 = getReg s .IDREV 0 0

theorem sameSecurity_setF {f : Fld} (h : f.reg ≠ .IDREV) (x i j : Nat) (s : State) : SameSecurity s (run (setF f x i j) s) :=
  ⟨rfl, rfl, rfl, rfl, rfl, rfl, getReg_setF _ _ _ _ _ _ h⟩

theorem SameSecurity.trans {s t u : State} (h : SameSecurity s t) (k : SameSecurity t u) : SameSecurity s u :=
  ⟨k.mem.trans h.mem, k.coh.trans h.coh, k.sec.trans h.sec, k.life.trans h.life, k.now.trans h.now, k.time.trans h.time, k.idrev.trans h.idrev⟩

section
variable {s t : State} (h : SameSecurity s t)
include h

theorem SameSecurity.readMem (a n : Nat) : readMem t a n = Machine.readMem s a n := readMem_congr h.mem h.coh a n

theorem SameSecurity.hasIdentity : hasIdentity t = Machine.hasIdentity s := by simp only [Machine.hasIdentity, h.sec]

theorem SameSecurity.ownerKey : ownerKey t = Machine.ownerKey s := by simp only [Machine.ownerKey, h.sec, h.life]

theorem SameSecurity.transitionOk (n : Nat) : transitionOk t n = Machine.transitionOk s n := by simp only [Machine.transitionOk, h.sec, h.life]

theorem SameSecurity.recordCheck (a : Nat) : recordCheck t a = Machine.recordCheck s a := by
  have helapsed : timeElapsed t = timeElapsed s := by simp only [timeElapsed, h.now, h.time]
  have hraw : timeUncRaw t = timeUncRaw s := by simp only [timeUncRaw, helapsed, h.time]
  have hunc : uncertNow t = uncertNow s := by simp only [uncertNow, hraw]
  have htai : taiNow t = taiNow s := by simp only [taiNow, helapsed, h.time]
  simp only [Machine.recordCheck, h.readMem, h.hasIdentity, h.ownerKey, h.transitionOk, h.idrev, h.sec, h.life, hunc, htai]

end

/-! Submissions. -/

/-- The state in which a submission is checked: SEC_CMD holds what was written. -/
def submitted (kind : Nat) (addr : Addr) (s : State) : State := run (setF SEC_CMD.KIND kind) (run (setF SEC_CMD.ADDR (addr.toNat / 64)) s)

theorem sameSecurity_submitted (kind : Nat) (addr : Addr) (s : State) : SameSecurity s (submitted kind addr s) :=
  (sameSecurity_setF (by decide) _ _ _ s).trans (sameSecurity_setF (by decide) _ _ _ _)

section
variable {kind : Nat} {addr : Addr} {check : State → Nat → Nat} {done : State → Nat → Act} {s : State}

/-- A submission that its check refuses changes nothing of the security core but its status (R418). -/
theorem secCmd_refused {r : Nat} (h : check (submitted kind addr s) (addr.toNat / 64 * 64) = r) (hr : r ≠ 0) :
    let t := run (secCmd kind addr check done) s
    getF t SEC_CMDSTAT.STATE = 3 ∧ getF t SEC_CMDSTAT.REASON = r % 2 ^ 8 ∧ getF t SEC_EVT.CMDREJ = 1 ∧ t.sec = s.sec ∧ t.life = s.life ∧ t.mem = s.mem := by
  have hrun : run (secCmd kind addr check done) s =
      run (evt SEC_EVT.CMDREJ) (run (setF SEC_CMDSTAT.REASON r) (run (setF SEC_CMDSTAT.STATE 3) (submitted kind addr s))) := by
    simp only [submitted] at h ⊢
    simp only [secCmd, run_all_cons, run_all_nil, run_ask, h, hr, if_false]
  have hw : SEC_CMDSTAT.REASON.width = 8 := rfl
  obtain ⟨hmem, -, hsec, hlife, -⟩ := sameSecurity_submitted kind addr s
  rw [hrun]
  refine ⟨?_, ?_, ?_, ?_, ?_, ?_⟩ <;> simp (decide := true) [hw, hmem, hsec, hlife]

/-- One that passes has its effect on the state in which it was checked. -/
theorem run_secCmd_passes (h : check (submitted kind addr s) (addr.toNat / 64 * 64) = 0) :
    run (secCmd kind addr check done) s =
      run (done (submitted kind addr s) (addr.toNat / 64 * 64)) (run (setF SEC_CMDSTAT.STATE 2) (submitted kind addr s)) := by
  simp only [submitted] at h ⊢
  simp only [secCmd, run_all_cons, run_all_nil, run_ask, h, if_true, run_seq]

/-- One whose effect is on keys, owners and identities alone. -/
theorem secCmd_passes {f : SecSt → SecSt} (h : check (submitted kind addr s) (addr.toNat / 64 * 64) = 0)
    (hdone : done (submitted kind addr s) (addr.toNat / 64 * 64) = updSec f) :
    let t := run (secCmd kind addr check done) s
    getF t SEC_CMDSTAT.STATE = 2 ∧ t.sec = f s.sec ∧ t.life = s.life ∧ t.mem = s.mem := by
  obtain ⟨hmem, -, hsec, hlife, -⟩ := sameSecurity_submitted kind addr s
  rw [run_secCmd_passes h, hdone]
  refine ⟨?_, ?_, ?_, ?_⟩ <;> simp (decide := true) [hmem, hsec, hlife]

end

/-! Command records (R420). -/

/-- A part of what is read from memory is what is read from its address. -/
theorem slice_readMem (s : State) (a : Nat) {n off k : Nat} (h : off + k ≤ n) : slice (readMem s a n) off k = readMem s (a + off) k := by
  refine List.ext_getElem (by simp [slice, readMem]; omega) fun i hi hi' => ?_
  simp [slice, readMem, Nat.add_assoc]

theorem fieldAt_readMem (s : State) (a : Nat) {n off k : Nat} (h : off + k ≤ n) : fieldAt (readMem s a n) off k = readNat s (a + off) k := by
  rw [fieldAt, slice_readMem s a h, readNat]

theorem secRecord_refused {s : State} {addr : Addr} (h : recordCheck s (addr.toNat / 64 * 64) ≠ 0) :
    let t := run (secRecord addr) s
    getF t SEC_CMDSTAT.STATE = 3 ∧ getF t SEC_CMDSTAT.REASON = recordCheck s (addr.toNat / 64 * 64) % 2 ^ 8 ∧ getF t SEC_EVT.CMDREJ = 1 ∧
      t.sec = s.sec ∧ t.life = s.life ∧ t.mem = s.mem :=
  secCmd_refused ((sameSecurity_submitted 1 addr s).recordCheck _) h

theorem secRecord_transition {s : State} {addr : Addr} (h : recordCheck s (addr.toNat / 64 * 64) = 0) (hop : readNat s (addr.toNat / 64 * 64 + 4) 1 = 1) :
    let t := run (secRecord addr) s
    getF t SEC_CMDSTAT.STATE = 2 ∧ t.life = s.life ∧ t.mem = s.mem ∧ t.sec.next = lifeOf (readNat s (addr.toNat / 64 * 64 + 5) 1) ∧
      getF t SEC_EVT.LIFE = 1 ∧ t.sec.ownerHash = s.sec.ownerHash := by
  have hview := sameSecurity_submitted 1 addr s
  rw [secRecord, run_secCmd_passes ((hview.recordCheck _).trans h), recordDone]
  simp only [hview.readMem, fieldAt_readMem s (addr.toNat / 64 * 64) (show 4 + 1 ≤ 0xF18 by omega), hop, if_true, run_seq,
    fieldAt_readMem s (addr.toNat / 64 * 64) (show 5 + 1 ≤ 0xF18 by omega)]
  refine ⟨?_, ?_, ?_, ?_, ?_, ?_⟩ <;> simp (decide := true) [hview.sec, hview.life, hview.mem]

theorem secRecord_owner {s : State} {addr : Addr} (h : recordCheck s (addr.toNat / 64 * 64) = 0) (hop : readNat s (addr.toNat / 64 * 64 + 4) 1 ≠ 1) :
    let t := run (secRecord addr) s
    getF t SEC_CMDSTAT.STATE = 2 ∧ t.sec = { s.sec with ownerHash := some (sha3_256 (readMem s (addr.toNat / 64 * 64 + 0x60) 1312)), endorsement := [] } ∧
      t.life = s.life ∧ t.mem = s.mem := by
  have hview := sameSecurity_submitted 1 addr s
  refine secCmd_passes (done := recordDone) (f := fun x => { x with ownerHash := some (sha3_256 (readMem s (addr.toNat / 64 * 64 + 0x60) 1312)), endorsement := [] })
    ((hview.recordCheck _).trans h) ?_
  rw [recordDone, hview.readMem, fieldAt_readMem s (addr.toNat / 64 * 64) (show 4 + 1 ≤ 0xF18 by omega), if_neg hop,
    slice_readMem s _ (show 0x60 + 1312 ≤ 0xF18 by omega)]

/-! Keys, endorsements and identities (R416 to R419). -/

/-- KIND 2 in PROV while no owner key is enrolled. -/
theorem secOwner_passes {s : State} {addr : Addr} (hlife : s.life = .prov) (howner : s.sec.ownerHash = none) :
    let t := run (secOwner addr) s
    getF t SEC_CMDSTAT.STATE = 2 ∧ t.sec = { s.sec with ownerHash := some (sha3_256 (readMem s (addr.toNat / 64 * 64) 1312)) } ∧ t.life = s.life ∧ t.mem = s.mem := by
  have hview := sameSecurity_submitted 2 addr s
  refine secCmd_passes (f := fun x => { x with ownerHash := some (sha3_256 (readMem s (addr.toNat / 64 * 64) 1312)) }) ?_ ?_
  · simp [hview.life, hview.sec, hlife, howner]
  · rw [hview.readMem]

theorem secOwner_refused {s : State} {addr : Addr} (h : s.life ≠ .prov ∨ s.sec.ownerHash ≠ none) :
    let t := run (secOwner addr) s
    getF t SEC_CMDSTAT.STATE = 3 ∧ getF t SEC_CMDSTAT.REASON = 0x0B ∧ getF t SEC_EVT.CMDREJ = 1 ∧ t.sec = s.sec ∧ t.life = s.life ∧ t.mem = s.mem := by
  have hview := sameSecurity_submitted 2 addr s
  refine secCmd_refused (r := 0x0B) (if_neg ?_) (by decide)
  simpa [hview.life, hview.sec, imp_iff_not_or] using h

/-- What KIND 3 checks: the signature at the address under the enrolled owner key. -/
theorem secEndorse_check {s : State} {addr : Addr} {k : List Byte} (hk : s.sec.ownerHash = some k) (hid : hasIdentity s = true) :
    let t := submitted 3 addr s
    (match t.sec.ownerHash with
      | some k => if hasIdentity t && Config.mldsaVerify k (endorsed t.sec.idKey (getReg t .IDREV 0 0)) (readMem t (addr.toNat / 64 * 64) 2420) then 0 else 0x05
      | none => 0x05) =
      if Config.mldsaVerify k (endorsed s.sec.idKey (getReg s .IDREV 0 0)) (readMem s (addr.toNat / 64 * 64) 2420) then 0 else 0x05 := by
  have hview := sameSecurity_submitted 3 addr s
  simp only [hview.sec, hk, hview.hasIdentity, hid, hview.readMem, hview.idrev, Bool.true_and]

theorem secEndorse_passes {s : State} {addr : Addr} {k : List Byte} (hk : s.sec.ownerHash = some k) (hid : hasIdentity s = true)
    (h : Config.mldsaVerify k (endorsed s.sec.idKey (getReg s .IDREV 0 0)) (readMem s (addr.toNat / 64 * 64) 2420) = true) :
    let t := run (secEndorse addr) s
    getF t SEC_CMDSTAT.STATE = 2 ∧ t.sec = { s.sec with endorsement := readMem s (addr.toNat / 64 * 64) 2420 } ∧ t.life = s.life ∧ t.mem = s.mem := by
  refine secCmd_passes (f := fun x => { x with endorsement := readMem s (addr.toNat / 64 * 64) 2420 }) ((secEndorse_check hk hid).trans (if_pos h)) ?_
  rw [(sameSecurity_submitted 3 addr s).readMem]

theorem secEndorse_refused {s : State} {addr : Addr} {k : List Byte} (hk : s.sec.ownerHash = some k) (hid : hasIdentity s = true)
    (h : Config.mldsaVerify k (endorsed s.sec.idKey (getReg s .IDREV 0 0)) (readMem s (addr.toNat / 64 * 64) 2420) = false) :
    let t := run (secEndorse addr) s
    getF t SEC_CMDSTAT.STATE = 3 ∧ getF t SEC_CMDSTAT.REASON = 5 ∧ getF t SEC_EVT.CMDREJ = 1 ∧ t.sec = s.sec ∧ t.life = s.life ∧ t.mem = s.mem :=
  secCmd_refused (r := 5) ((secEndorse_check hk hid).trans (if_neg (by simp [h]))) (by decide)

/-- KIND 4 in FAB while no helper data exist. -/
theorem secIdentity_passes {s : State} {addr : Addr} (hlife : s.life = .fab) (hnone : s.sec.idDigest = none) :
    let t := run (secIdentity addr) s
    getF t SEC_CMDSTAT.STATE = 2 ∧ t.sec.idDigest ≠ none ∧ t.sec.ownerHash = s.sec.ownerHash ∧ t.mem = s.mem := by
  have hview := sameSecurity_submitted 4 addr s
  have hcheck : (if ((submitted 4 addr s).life = .fab && (submitted 4 addr s).sec.idDigest.isNone) = true then 0 else 0x0B) = 0 := by
    simp [hview.life, hview.sec, hlife, hnone]
  rw [secIdentity, run_secCmd_passes hcheck]
  refine ⟨?_, ?_, ?_, ?_⟩ <;> simp (decide := true) [hview.sec, hview.mem]

theorem secIdentity_refused {s : State} {addr : Addr} (h : s.life ≠ .fab ∨ s.sec.idDigest ≠ none) :
    let t := run (secIdentity addr) s
    getF t SEC_CMDSTAT.STATE = 3 ∧ getF t SEC_CMDSTAT.REASON = 0x0B ∧ getF t SEC_EVT.CMDREJ = 1 ∧ t.sec = s.sec ∧ t.life = s.life ∧ t.mem = s.mem := by
  have hview := sameSecurity_submitted 4 addr s
  refine secCmd_refused (r := 0x0B) (if_neg ?_) (by decide)
  simpa [hview.life, hview.sec, imp_iff_not_or] using h

/-! Attestation (R428). -/

theorem attestGo_busy {s : State} (addr : Addr) (h : s.sec.report ≠ none) : run (attestGo addr) s = s := by
  rw [attestGo, run_ask, run_when, if_neg (by simpa using h)]

/-- A report is taken in hand with the nonce of its request. -/
theorem attestGo_taken {s : State} (addr : Addr) (h : s.sec.report = none) (hid : hasIdentity s = true) :
    let t := run (attestGo addr) s
    getF t SEC_ATTEST.DONE = 0 ∧ t.mem = s.mem ∧
      t.sec.report = some (BitVec.ofNat 48 (addr.toNat / 64 * 64), readMem s (addr.toNat / 64 * 64 + 0x30) 32) := by
  simp only [attestGo, run_ask, run_when, h, Option.isNone_none, if_true, hid, run_seq]
  refine ⟨?_, ?_, ?_⟩ <;> simp (decide := true)

theorem attestGo_failed {s : State} (addr : Addr) (h : s.sec.report = none) (hid : hasIdentity s = false) :
    let t := run (attestGo addr) s
    getF t SEC_ATTEST.DONE = 0 ∧ getF t SEC_EVT.IDFAIL = 1 ∧ t.sec = s.sec ∧ t.mem = s.mem := by
  simp only [attestGo, run_ask, run_when, h, Option.isNone_none, if_true, hid, Bool.false_eq_true, if_false, run_seq]
  refine ⟨?_, ?_, ?_, ?_⟩ <;> simp (decide := true)

/-- The report stands at its address once DONE reads 1. -/
theorem attestDone_spec {s : State} {a : Addr} {nonce : List Byte} (h : s.sec.report = some (a, nonce)) :
    let t := run attestDone s
    getF t SEC_ATTEST.DONE = 1 ∧ t.sec.report = none ∧ t.sec.reports = s.sec.reports + 1 ∧
      readMem t a.toNat (reportHead s nonce).length = reportHead s nonce := by
  simp only [attestDone, run_ask, h, run_all_cons, run_all_nil, List.append_assoc]
  refine ⟨?_, ?_, ?_, ?_⟩
  · simp (decide := true)
  · simp
  · simp
  · exact (readMem_congr (t := run (updSec _) (run (setF SEC_ATTEST.DONE 1 0 0) _)) rfl rfl _ _).trans (storeMem_readMem {} a.toNat _ _ s)

end Sys2Proof.Machine

/-! PROOFS. The reset that a recorded lifecycle transition brings (R421, Table 18-1). -/

namespace Sys2Proof.Machine

/-- A program keeps the transition that waits. -/
abbrev Act.KeepsNext (a : Act) : Prop := a.Within fun p => ∀ s, (p.apply s).sec.next = s.sec.next

theorem keepsNext_of_changes {l : List Part} {a : Act} (h : a.Changes l) (hl : Part.sec ∉ l) : a.KeepsNext :=
  Act.Within.mono (fun p hp s => congrArg SecSt.next (only_sec (a := .prim p) hp hl s)) h.only

theorem keepsNext_updDebug (p : Nat) (f : DebugSt → DebugSt) : (updDebug p f).KeepsNext := by
  intro s
  rw [Prim.sec_sec]
  split <;> rfl

theorem keepsNext_sessionEnd (p reason : Nat) : (sessionEnd p reason).KeepsNext :=
  fun _ => (within_when _ _).mpr fun _ => ⟨keepsNext_of_changes (changes_setF _ _ _ _) (by decide), keepsNext_of_changes (changes_setF _ _ _ _) (by decide),
    keepsNext_updDebug _ _, keepsNext_of_changes (changes_evt _ _ _) (by decide), keepsNext_of_changes (changes_logEv _ _ _ _) (by decide), trivial⟩

/-- A whole-package reset clears the security core but for what its flash keeps, the transition that waits among it. -/
theorem keepsNext_packageClear (ware chart : Bool) : (packageClear ware chart).KeepsNext := by
  refine ⟨(within_when _ _).mpr fun _ => keepsNext_sessionEnd 0 5, keepsNext_sessionEnd 1 5, fun s => ?regs, ?mem, ?rest⟩
  case regs =>
    exact keepsNext_of_changes (l := [.regs]) (changes_cons (changes_prim rfl) (changes_cons (changes_each fun _ => changes_seq (changes_setF _ _ _ _) (changes_setF _ _ _ _))
      (changes_cons (changes_when (changes_cons (changes_setF _ _ _ _) (changes_cons (changes_setF _ _ _ _) (changes_cons (changes_each fun _ => changes_setF _ _ _ _)
        (changes_cons (changes_setF _ _ _ _) (changes_cons (changes_prim rfl) (changes_cons (changes_noteReset _ _) changes_nil))))))) changes_nil))) (by decide)
  case mem => cases ware <;> exact fun _ => rfl
  case rest =>
    exact ⟨fun _ => rfl, fun _ _ => rfl, fun _ => rfl, fun _ => rfl, fun _ => rfl, fun _ => rfl, fun _ => rfl, fun _ => rfl, fun _ => rfl, fun _ => rfl,
      fun _ => rfl, fun _ => rfl, fun _ => rfl, fun _ => rfl, fun _ _ => rfl, fun _ => rfl, fun _ => rfl, fun _ => rfl, fun _ => rfl, trivial⟩

theorem packageClear_held (ware chart : Bool) (s : State) : (run (packageClear ware chart) s).rst.held = [7] := by
  simp only [packageClear, run_all_cons, run_all_nil, run_prim, Prim.pow_rst, Prim.rst_rst]

/-- A whole-package reset that is not joined to another. -/
theorem run_packageReset {s : State} (h : isHeld s 7 = false) (cause : Nat) : run (packageReset cause) s = run (noteReset 7 cause)
    (run (.prim (.reg .ID_DIEMAP 0 0 0xFFF)) (run (packageClear true false) (run flashCut (run flushLog (run closeFloods s))))) := by
  simp only [packageReset, run_ask, run_when, h, Bool.not_false, if_true, run_all_cons, run_all_nil]

theorem packageReset_spec {s : State} (h : isHeld s 7 = false) (cause : Nat) :
    let t := run (packageReset cause) s
    t.rst.held = [7] ∧ getF t RST_STAT.DOMAIN = 7 ∧ t.sec.next = s.sec.next ∧ t.life = s.life := by
  have hnext : (Act.all [packageClear true false, .prim (.reg .ID_DIEMAP 0 0 0xFFF), noteReset 7 cause]).KeepsNext :=
    ⟨keepsNext_packageClear _ _, fun _ => rfl, keepsNext_of_changes (changes_noteReset _ _) (by decide), trivial⟩
  have hflush : (run flashCut (run flushLog (run closeFloods s))).sec = s.sec := by
    rw [only_sec changes_flashCut.only (by decide), only_sec changes_flushLog.only (by decide), only_sec changes_closeFloods.only (by decide)]
  refine ⟨?_, ?_, ?_, only_life (changes_packageReset cause).only (by decide) s⟩
  · rw [run_packageReset h, only_rst (changes_noteReset _ _).only (by decide), run_prim, Prim.reg_rst, packageClear_held]
  · rw [run_packageReset h, noteReset, run_all_cons, run_all_cons, run_all_nil, getF_setF_fits (by decide)]
    rfl
  · rw [run_packageReset h, ← hflush]
    exact run_same (fun s => s.sec.next) hnext _

theorem lifeReset_spec {s : State} (hnext : s.sec.next ≠ none) (h : isHeld s 7 = false) :
    let t := run lifeReset s
    t.rst.held = [7] ∧ getF t RST_STAT.DOMAIN = 7 ∧ t.sec.next = s.sec.next ∧ t.life = s.life := by
  have hrun : run lifeReset s = run (packageReset 1) s := by
    rw [lifeReset, run_ask, run_when, if_pos (Option.isSome_iff_ne_none.mpr hnext)]
  rw [hrun]
  exact packageReset_spec h 1

theorem lifeReset_of_none {s : State} (h : s.sec.next = none) : run lifeReset s = s := by
  rw [lifeReset, run_ask, run_when, h]
  rfl

end Sys2Proof.Machine

/-! PROOFS. What the programs of the boot leave alone (R72, R411 to R417, Table 20-2). -/

namespace Sys2Proof.Machine

/-! The programs by name. -/

/-- The floor of a kind of image rises to a serial (R415). -/
def floorRise (kind n : Nat) : Act :=
  updSec fun x => if kind = 2 then { x with hmFloor := max x.hmFloor n } else { x with hostFloor := max x.hostFloor n }

/-- The failed slots of a kind are recorded. -/
def slotsNoted (f : Fld) (okA okB : Bool) : Act :=
  Act.all [Act.when (!okA) (.seq (evt f) (logEv .imageFailed)), Act.when (!okB) (.seq (evt f) (logEv .imageFailed))]

/-- What follows where neither harbourmaster image boots (R414). -/
def hmFails : Act :=
  .seq (.prim (.pow fun p => { p with hmFail := true, xsRel := true })) (.seq (updRst fun r => { r with held := [1, 2, 3, 4, 5, 6] }) (.prim (.reg .ID_DIEMAP 0 0 0x3FF)))

/-- What follows where neither host image boots (R414). -/
def hostFails : Act := .prim (.pow fun p => { p with hostFail := true })

/-- A harbourmaster image boots. -/
def hmBoots (d : List Byte) : Act :=
  Act.all [updSec fun x => { x with hmBoot := d, hmRun := d, switches := 0 }, setF HM_FWSTAT.VERSION (Config.imageVersion d).toNat, bootRest]

/-- A host image boots. -/
def hostBoots (d : List Byte) : Act := .seq (updSec fun x => { x with hostFw := d }) bootRelease

/-- The harbourmaster's slots. -/
def hmImages : Act := bootImages 2 SEC_EVT.HMFAIL SEC_STAT.HMSLOT hmFails hmBoots

/-- The host's slots. -/
def hostImages : Act := bootImages 3 SEC_EVT.HOSTFAIL SEC_STAT.HOSTSLOT hostFails hostBoots

/-- The chart of a boot: the one kept, after SB, else that of a slot (R72). -/
def bootsChart (kept : Bool) : Act := if kept then chartValues else bootChart

theorem run_bootRest (s : State) : run bootRest s =
    run hostImages (run (.prim (.pow fun p => { p with fromSb := false })) (run (bootsChart (s.pow.fromSb && s.chart.cur.isSome)) s)) := by
  rw [bootRest, run_ask, run_all_cons, run_all_cons, run_all_cons, run_all_nil]
  rfl

/-- A boot that is due, with no transition waiting. -/
theorem run_boot {s : State} (puf : Option W64) (hboot : s.pow.boot = true) (href : s.pow.refclk = true) (hnext : s.sec.next = none) :
    run (boot puf) s = run hmImages (run (bootIdentity puf) (run (.prim (.pow fun p => { p with boot := false })) s)) := by
  have hlife : ∀ t : State, t.sec.next = none → run bootLife t = t := fun t ht => by rw [bootLife, run_ask, ht, run_skip]
  simp only [boot, run_ask, run_when, hboot, href, Bool.and_self, if_true, run_all_cons, run_all_nil]
  rw [hlife (run (.prim (.pow fun p => { p with boot := false })) s) hnext]
  rfl

theorem run_boot_of_not_due {s : State} (puf : Option W64) (h : s.pow.boot = false ∨ s.pow.refclk = false) : run (boot puf) s = s := by
  rw [boot, run_ask, run_when, if_neg]
  rcases h with h | h <;> simp [h]

/-! Slots. -/

/-- The image in slot A (false) or B of a kind. -/
def bootSlot (s : State) (kind : Nat) (b : Bool) : List Byte :=
  if kind = 2 then (if b then s.sec.hmB else s.sec.hmA) else (if b then s.sec.hostB else s.sec.hostA)

/-- The slot of a kind that boots. -/
def slotChosen (s : State) (kind : Nat) : Option Bool :=
  slotChoice (fwPasses s kind (bootSlot s kind false)) (fwPasses s kind (bootSlot s kind true)) (bootSlot s kind false) (bootSlot s kind true)

/-- The record of the slots of a kind. -/
def slotsRecord (s : State) (kind : Nat) (f : Fld) : Act :=
  slotsNoted f (fwPasses s kind (bootSlot s kind false)) (fwPasses s kind (bootSlot s kind true))

section
variable {kind : Nat} {f slot : Fld} {fail : Act} {boots : List Byte → Act} {s : State}

theorem run_bootImages_none (h : slotChosen s kind = none) :
    run (bootImages kind f slot fail boots) s = run fail (run (slotsRecord s kind f) s) := by
  simp only [slotChosen, bootSlot, Bool.false_eq_true, if_false, if_true] at h
  simp only [bootImages, slotsRecord, slotsNoted, bootSlot, run_ask, run_all_cons, run_all_nil, h, Bool.false_eq_true, if_false, if_true]

theorem run_bootImages_some {c : Bool} (h : slotChosen s kind = some c) :
    run (bootImages kind f slot fail boots) s =
      run (Act.when (decide (s.life = .field)) (floorRise kind (fieldAt (bootSlot s kind c) 8 8)))
        (run (boots (imgDigest (bootSlot s kind c))) (run (setF slot (b2n c)) (run (slotsRecord s kind f) s))) := by
  simp only [slotChosen, bootSlot, Bool.false_eq_true, if_false, if_true] at h
  simp only [bootImages, slotsRecord, slotsNoted, bootSlot, run_ask, run_all_cons, run_all_nil, h, Bool.false_eq_true, if_false, if_true]
  cases c <;> by_cases hk : kind = 2 <;> simp only [hk, floorRise, if_true, if_false, Bool.false_eq_true]

end

end Sys2Proof.Machine

/-! PROOFS. What the boot leaves alone on its way: the checks' inputs, what is booted, the reports made so far (R72, R411 to R417). -/

namespace Sys2Proof.Machine

/-- A view of the lifecycle, the security core, the power state and IDREV: what the boot's checks read and its ends report. -/
abbrev BootView (α : Type) := Life → SecSt → PowSt → W64 → α

def BootView.at {α : Type} (g : BootView α) (s : State) : α := g s.life s.sec s.pow (getReg s .IDREV 0 0)

/-- A program keeps a view. -/
abbrev Act.KeepsView {α : Type} (g : BootView α) (a : Act) : Prop := a.Within fun p => ∀ s, g.at (p.apply s) = g.at s

/-- The lifecycle, whether a boot is due, and the identity key. -/
def groundView : BootView (Life × Bool × List Byte) := fun l x p _ => (l, p.boot, x.idKey)

/-- What the checks of the firmware slots read, and the slots. -/
def slotsView : BootView (Life × Option (List Byte) × (Nat × Nat) × (List Byte × List Byte × List Byte × List Byte) × W64) :=
  fun l x _ r => (l, x.ownerHash, (x.hmFloor, x.hostFloor), (x.hmA, x.hmB, x.hostA, x.hostB), r)

/-- The harbourmaster image booted and the one that runs. -/
def startedView : BootView (List Byte × List Byte) := fun _ x _ _ => (x.hmBoot, x.hmRun)

/-- Whether the package is ready. -/
def readyView : BootView Bool := fun _ _ p _ => p.ready

section
variable {α : Type} {g : BootView α}

theorem Act.KeepsView.eq {a : Act} (h : a.KeepsView g) (s : State) : g.at (run a s) = g.at s := run_same g.at h s

/-- A program that changes neither lifecycle, security core, power state nor IDREV keeps every view. -/
theorem keepsView_of_changes {l : List Part} {k : List RegName} {a : Act} (h : a.Changes l) (hw : a.Writes k) (hl : Part.life ∉ l ∧ Part.sec ∉ l ∧ Part.pow ∉ l)
    (hk : RegName.IDREV ∉ k) : a.KeepsView g := by
  obtain ⟨hlife, hsec, hpow⟩ := hl
  refine Act.Within.mono (fun p hp s => ?_) (Act.Within.and h.only (hw.keeps hk 0 0))
  obtain ⟨hpart, hreg⟩ := hp
  rw [BootView.at, BootView.at, hreg s, ← run_prim, only_life (a := .prim p) hpart hlife s, only_sec (a := .prim p) hpart hsec s, only_pow (a := .prim p) hpart hpow s]

theorem keepsView_setF {f : Fld} (h : f.reg ≠ .IDREV) (x i j : Nat) : (setF f x i j).KeepsView g :=
  keepsView_of_changes (changes_setF _ _ _ _) (writes_setF (List.mem_singleton.mpr rfl) _ _ _) (by decide) (by simpa using h.symm)

theorem keepsView_logEv (k : LogKind) (d o : Nat) (dt : List Nat) : (logEv k d o dt).KeepsView g :=
  keepsView_of_changes (k := []) (changes_logEv _ _ _ _) (writes_of_changes (changes_logEv _ _ _ _) (by decide)) (by decide) (by decide)

theorem keepsView_updSec {f : SecSt → SecSt} (h : ∀ l x p r, g l (f x) p r = g l x p r) : (updSec f).KeepsView g := fun s => h s.life s.sec s.pow _

theorem keepsView_pow {f : PowSt → PowSt} (h : ∀ l x p r, g l x (f p) r = g l x p r) : Act.KeepsView g (.prim (.pow f)) := fun s => h s.life s.sec s.pow _

theorem keepsView_slotsNoted {f : Fld} (h : f.reg ≠ .IDREV) (okA okB : Bool) : (slotsNoted f okA okB).KeepsView g :=
  ⟨(within_when _ _).mpr fun _ => ⟨keepsView_setF h _ _ _, keepsView_logEv _ _ _ _⟩, (within_when _ _).mpr fun _ => ⟨keepsView_setF h _ _ _, keepsView_logEv _ _ _ _⟩, trivial⟩

end

/-! The chart of a boot. -/

/-- The registers a chart's start writes (R72). -/
def chartRegs : List RegName :=
  [.TIDE_COMP, .TIDE_PERIOD, .TIDE_SRC, .TIDE_EPOCH, .TIER_POOL, .RST_ESC, .SHD_STAT, .CHART_STAT, .CHART_SERIAL, .CHART_BASESERIAL, .CHART_DIGEST, .CHART_BOOTREASON, .CHART_EVT]

theorem writes_chartValues : chartValues.Writes chartRegs := by
  have hpath : ∀ c, (pathMeasure c).Writes chartRegs := fun c => (within_when _ _).mpr fun _ => writes_withFree fun _ => writes_setF (by decide) _ _ _
  exact fun s => ⟨hpath _, writes_setF (by decide) _ _ _, writes_setF (by decide) _ _ _, writes_setF (by decide) _ _ _, writes_setF (by decide) _ _ _,
    writes_setF (by decide) _ _ _, writes_setF (by decide) _ _ _, writes_setF (by decide) _ _ _, writes_setF (by decide) _ _ _, writes_setF (by decide) _ _ _,
    writes_setF (by decide) _ _ _, writes_setF (by decide) _ _ _, trivial⟩

theorem writes_chartFallback : chartFallback.Writes chartRegs :=
  ⟨trivial, writes_setF (by decide) _ _ _, writes_setF (by decide) _ _ _, writes_setF (by decide) _ _ _, (within_given _ _).mpr fun _ _ => writes_setF (by decide) _ _ _, trivial⟩

/-- A view that does not look at the digests of the chart in effect. -/
abbrev BootView.SparesChart {α : Type} (g : BootView α) : Prop :=
  ∀ l x p r d n, g l { x with chartBoot := d, chartRun := d, amends := n } p r = g l x p r

section
variable {α : Type} {g : BootView α} (h : g.SparesChart)

theorem keepsView_chartValues : chartValues.KeepsView g := keepsView_of_changes changes_chartValues writes_chartValues (by decide) (by decide)

include h

theorem keepsView_chartLoad (b : Bool) (img : List Byte) : (chartLoad b img).KeepsView g :=
  ⟨fun _ => rfl, keepsView_setF (by decide) _ _ _, keepsView_setF (by decide) _ _ _, keepsView_setF (by decide) _ _ _,
    (within_each _ _).mpr fun _ _ => keepsView_setF (by decide) _ _ _, keepsView_updSec fun l x p r => h l x p r _ _, (within_when _ _).mpr fun _ _ => rfl,
    keepsView_chartValues, keepsView_logEv _ _ _ _, trivial⟩

theorem keepsView_bootsChart (kept : Bool) : (bootsChart kept).KeepsView g := by
  unfold bootsChart
  split
  · exact keepsView_chartValues
  · refine fun s => ⟨keepsView_setF (by decide) _ _ _, keepsView_setF (by decide) _ _ _,
      (within_when _ _).mpr fun _ => ⟨keepsView_setF (by decide) _ _ _, keepsView_logEv _ _ _ _⟩,
      (within_when _ _).mpr fun _ => ⟨keepsView_setF (by decide) _ _ _, keepsView_logEv _ _ _ _⟩, ?_, trivial⟩
    split
    · exact keepsView_chartLoad h _ _
    · exact keepsView_of_changes changes_chartFallback writes_chartFallback (by decide) (by decide)

end

theorem writes_bootsChart (kept : Bool) : (bootsChart kept).Writes chartRegs := by
  have hevt : ∀ f : Fld, f.reg ∈ chartRegs → ∀ c k, (Act.when c (.seq (evt f) (logEv k))).Writes chartRegs := fun f hf c k =>
    (within_when _ _).mpr fun _ => ⟨writes_evt hf _ _, writes_of_changes (changes_logEv _ _ _ _) (by decide)⟩
  unfold bootsChart
  split
  · exact writes_chartValues
  · refine fun s => ⟨writes_setF (by decide) _ _ _, writes_setF (by decide) _ _ _, hevt _ (by decide) _ _, hevt _ (by decide) _ _, ?_, trivial⟩
    split
    · exact ⟨trivial, writes_setF (by decide) _ _ _, writes_setF (by decide) _ _ _, writes_setF (by decide) _ _ _,
        (within_each _ _).mpr fun _ _ => writes_setF (by decide) _ _ _, trivial, (within_when _ _).mpr fun _ => trivial, writes_chartValues,
        writes_of_changes (changes_logEv _ _ _ _) (by decide), trivial⟩
    · exact writes_chartFallback

/-- An empty slot's image is no chart. -/
theorem chartCheck_nil (cx : ChartCx) : chartCheck cx [] ≠ 0 := by
  have h : fieldAt ([] : List Byte) 0 4 ≠ 0x54524843 := by decide
  simp [chartCheck, h]

/-- With both chart slots empty the package is in fallback (R75). -/
theorem bootChart_empty {s : State} (hA : s.chart.slotA = []) (hB : s.chart.slotB = []) :
    getF (run (bootsChart false) s) CHART_STAT.STATE = 2 ∧ (run (bootsChart false) s).chart.cur = none := by
  have hchoice : ∀ cx, slotChoice (chartCheck cx [] = 0) (chartCheck cx [] = 0) [] [] = none := fun cx => by simp [slotChoice, chartCheck_nil]
  have hrun : ∃ t, run (bootsChart false) s = run chartFallback t := by
    rw [bootsChart, if_neg (by decide), bootChart, run_ask, hA, hB, run_all_cons, run_all_cons, run_all_cons, run_all_cons, run_all_cons, run_all_nil, hchoice]
    exact ⟨_, rfl⟩
  obtain ⟨t, ht⟩ := hrun
  rw [ht, chartFallback]
  simp only [run_all_cons, run_all_nil, run_given]
  constructor
  · split <;> simp (decide := true)
  · split <;> simp [updChart]

end Sys2Proof.Machine

/-! PROOFS. The boot of Table 20-2: the slots of a kind, the harbourmaster's start, the host's, and the two fallbacks (R75, R412 to R417). -/

namespace Sys2Proof.Machine

/-! The check of the slots reads what the boot leaves alone until an image has booted. -/

section
variable {s t : State} (h : slotsView.at t = slotsView.at s)
include h

theorem bootSlot_congr (kind : Nat) (b : Bool) : bootSlot t kind b = bootSlot s kind b := by
  simp only [BootView.at, slotsView, Prod.mk.injEq] at h
  obtain ⟨-, -, -, ⟨hmA, hmB, hostA, hostB⟩, -⟩ := h
  simp only [bootSlot, hmA, hmB, hostA, hostB]

theorem fwPasses_congr (kind : Nat) (img : List Byte) : fwPasses t kind img = fwPasses s kind img := by
  simp only [BootView.at, slotsView, Prod.mk.injEq] at h
  obtain ⟨hlife, howner, ⟨hhm, hhost⟩, -, hidrev⟩ := h
  have hkey : ownerKey t = ownerKey s := by rw [ownerKey, ownerKey, hlife, howner]
  rw [fwPasses, fwPasses, fwKey, fwKey, hkey, hlife, hhm, hhost, hidrev]

end

theorem slotChosen_eq_none {s : State} {kind : Nat} (hA : fwPasses s kind (bootSlot s kind false) = false) (hB : fwPasses s kind (bootSlot s kind true) = false) :
    slotChosen s kind = none := by simp [slotChosen, slotChoice, hA, hB]

theorem slotChosen_of_a {s : State} {kind : Nat} (hA : fwPasses s kind (bootSlot s kind false) = true) : ∃ c, slotChosen s kind = some c := by
  simp only [slotChosen, slotChoice, hA, Bool.true_and, if_true]
  split <;> exact ⟨_, rfl⟩

theorem slotChosen_of_a_alone {s : State} {kind : Nat} (hA : fwPasses s kind (bootSlot s kind false) = true)
    (hB : fwPasses s kind (bootSlot s kind true) = false) : slotChosen s kind = some false := by simp [slotChosen, slotChoice, hA, hB]

/-! The record of the slots. -/

theorem changes_slotsRecord (s : State) (kind : Nat) (f : Fld) : (slotsRecord s kind f).Changes [.regs, .log] :=
  changes_cons (changes_when (changes_seq ((changes_evt _ _ _).up rfl) ((changes_logEv _ _ _ _).up rfl)))
    (changes_cons (changes_when (changes_seq ((changes_evt _ _ _).up rfl) ((changes_logEv _ _ _ _).up rfl))) changes_nil)

theorem getF_slotsNoted_apart {f g : Fld} (h : f.apart g = true) (okA okB : Bool) (m n : Nat) (s : State) :
    getF (run (slotsNoted f okA okB) s) g m n = getF s g m n := by
  cases okA <;> cases okB <;> simp [slotsNoted, evt, h]

/-- A failed slot is noted. -/
theorem getF_slotsNoted {f : Fld} (hf : f.fits = true) (hw : f.width = 1) {okA okB : Bool} (h : (okA && okB) = false) (s : State) :
    getF (run (slotsNoted f okA okB) s) f = 1 := by
  cases okA <;> cases okB <;> simp_all [slotsNoted, evt]

/-! What the start from the slots of a kind leaves alone. -/

section
variable {kind : Nat} {f slot : Fld} {fail : Act} {boots : List Byte → Act}

/-- A field it neither reports in nor its continuations write. -/
theorem getF_bootImages {g : Fld} {m n : Nat} (hf : f.apart g = true) (hslot : slot.apart g = true) (hfail : ∀ t, getF (run fail t) g m n = getF t g m n)
    (hboots : ∀ d t, getF (run (boots d) t) g m n = getF t g m n) (s : State) : getF (run (bootImages kind f slot fail boots) s) g m n = getF s g m n := by
  cases hc : slotChosen s kind with
  | none => rw [run_bootImages_none hc, hfail, slotsRecord, getF_slotsNoted_apart hf]
  | some c =>
    rw [run_bootImages_some hc, run_when]
    have hrest := (hboots (imgDigest (bootSlot s kind c)) (run (setF slot (b2n c)) (run (slotsRecord s kind f) s))).trans
      ((getF_setF_apart hslot _ _ _ _ _ _).trans (getF_slotsNoted_apart hf _ _ m n s))
    split
    · rw [floorRise, updSec_getF, hrest]
    · exact hrest

/-- What the image that boots brings about stands at the end, unless it is about the floor. -/
theorem bootImages_of_boots {P : State → Prop} {s : State} {c : Bool} (hfloor : ∀ t k, P t → P (run (floorRise kind k) t)) (hc : slotChosen s kind = some c)
    (h : P (run (boots (imgDigest (bootSlot s kind c))) (run (setF slot (b2n c)) (run (slotsRecord s kind f) s)))) : P (run (bootImages kind f slot fail boots) s) := by
  rw [run_bootImages_some hc, run_when]
  split
  · exact hfloor _ _ h
  · exact h

theorem keepsView_bootImages {α : Type} {g : BootView α} (hf : f.reg ≠ .IDREV) (hslot : slot.reg ≠ .IDREV) (hfail : fail.KeepsView g) (hboots : ∀ d, (boots d).KeepsView g)
    (hfloor : ∀ k, (floorRise kind k).KeepsView g) : (bootImages kind f slot fail boots).KeepsView g := by
  refine fun s => ⟨(within_when _ _).mpr fun _ => ⟨keepsView_setF hf _ _ _, keepsView_logEv _ _ _ _⟩,
    (within_when _ _).mpr fun _ => ⟨keepsView_setF hf _ _ _, keepsView_logEv _ _ _ _⟩, ?_, trivial⟩
  split
  · exact ⟨keepsView_setF hslot _ _ _, hboots _, (within_when _ _).mpr fun _ => hfloor _, trivial⟩
  · exact hfail

end

theorem keepsView_floorRise {α : Type} {g : BootView α} (h : ∀ l x p r a b, g l { x with hmFloor := a, hostFloor := b } p r = g l x p r) (kind n : Nat) :
    (floorRise kind n).KeepsView g :=
  keepsView_updSec fun l x p r => by
    by_cases hk : kind = 2
    · rw [if_pos hk]; exact h l x p r _ x.hostFloor
    · rw [if_neg hk]; exact h l x p r x.hmFloor _

/-! The host domain's release. -/

theorem writes_bootRelease : bootRelease.Writes [.ID_DIEMAP] :=
  fun _ => ⟨trivial, fun _ => List.mem_singleton.mpr rfl, (within_when _ _).mpr fun _ => trivial, trivial, trivial⟩

theorem bootRelease_spec (s : State) : (run bootRelease s).pow = { s.pow with ready := true } ∧ isHeld (run bootRelease s) 6 = false := by
  simp only [bootRelease, run_ask, run_all_cons, run_all_nil, run_when]
  refine ⟨?_, ?_⟩
  · rw [run_prim]
    split <;> simp [freeDom, setDie, updRst]
  · split <;> simp [isHeld, freeDom, setDie, updRst]

theorem hostBoots_spec (d : List Byte) (s : State) : (run (hostBoots d) s).pow.ready = true ∧ isHeld (run (hostBoots d) s) 6 = false := by
  rw [hostBoots, run_seq]
  obtain ⟨hpow, hheld⟩ := bootRelease_spec (run (updSec fun x => { x with hostFw := d }) s)
  exact ⟨by rw [hpow], hheld⟩

theorem keepsView_hostBoots {α : Type} {g : BootView α} (hfw : ∀ l x p r d, g l { x with hostFw := d } p r = g l x p r)
    (hready : ∀ l x p r, g l x { p with ready := true } r = g l x p r) (d : List Byte) : (hostBoots d).KeepsView g := by
  have hdie : (setDie 4 0).KeepsView g :=
    keepsView_of_changes (k := [.ID_DIEMAP]) (changes_setDie _ _) (fun _ => List.mem_singleton.mpr rfl) (by decide) (by decide)
  exact ⟨keepsView_updSec fun l x p r => hfw l x p r d, fun _ => ⟨fun _ => rfl, hdie, (within_when _ _).mpr fun _ _ => rfl, keepsView_pow fun l x p r => hready l x p r, trivial⟩⟩

/-! The start from the host's slots. -/

/-- The package is ready where host slot A passes, whichever slot is chosen. -/
theorem hostImages_boots {s : State} (hA : fwPasses s 3 s.sec.hostA = true) : (run hostImages s).pow.ready = true ∧ isHeld (run hostImages s) 6 = false := by
  obtain ⟨c, hc⟩ := slotChosen_of_a (s := s) (kind := 3) hA
  exact bootImages_of_boots (P := fun t => t.pow.ready = true ∧ isHeld t 6 = false) (fun _ _ h => h) hc (hostBoots_spec _ _)

theorem hostFails_spec (s : State) :
    let t := run hostFails s
    t.pow.hostFail = true ∧ getF t SEC_EVT.HOSTFAIL = getF s SEC_EVT.HOSTFAIL ∧ t.pow.ready = s.pow.ready := ⟨rfl, rfl, rfl⟩

theorem hostImages_fails {s : State} (hA : fwPasses s 3 s.sec.hostA = false) (hB : fwPasses s 3 s.sec.hostB = false) :
    let t := run hostImages s
    t.pow.hostFail = true ∧ getF t SEC_EVT.HOSTFAIL = 1 ∧ t.pow.ready = s.pow.ready := by
  have hnoted : getF (run (slotsRecord s 3 SEC_EVT.HOSTFAIL) s) SEC_EVT.HOSTFAIL = 1 :=
    getF_slotsNoted (by decide) rfl (by rw [show fwPasses s 3 (bootSlot s 3 false) = false from hA]; rfl) s
  have hpow : (run (slotsRecord s 3 SEC_EVT.HOSTFAIL) s).pow = s.pow := only_pow (changes_slotsRecord _ _ _).only (by decide) s
  obtain ⟨hfail, hevt, hready⟩ := hostFails_spec (run (slotsRecord s 3 SEC_EVT.HOSTFAIL) s)
  rw [hostImages, run_bootImages_none (slotChosen_eq_none hA hB)]
  exact ⟨hfail, hevt.trans hnoted, by rw [hready, hpow]⟩

theorem getF_hostImages {g : Fld} (hfail : SEC_EVT.HOSTFAIL.apart g = true) (hslot : SEC_STAT.HOSTSLOT.apart g = true) (hmap : g.reg ≠ .ID_DIEMAP) (m n : Nat) (s : State) :
    getF (run hostImages s) g m n = getF s g m n :=
  getF_bootImages hfail hslot (fun _ => rfl)
    (fun d t => by rw [hostBoots, run_seq, writes_bootRelease.getF (by simpa using hmap), updSec_getF]) s

theorem changes_hostImages : hostImages.Changes [.regs, .log, .sec, .rst, .pow] := by
  unfold hostImages bootImages hostBoots
  exact changes_ask fun _ => changes_cons (changes_when (changes_seq ((changes_evt _ _ _).up rfl) ((changes_logEv _ _ _ _).up rfl)))
    (changes_cons (changes_when (changes_seq ((changes_evt _ _ _).up rfl) ((changes_logEv _ _ _ _).up rfl))) (changes_cons (by
      split
      · exact changes_cons ((changes_setF _ _ _ _).up rfl) (changes_cons (changes_seq ((changes_updSec _).up rfl) (changes_bootRelease.up rfl))
          (changes_cons (changes_when ((changes_updSec _).up rfl)) changes_nil))
      · exact changes_prim rfl) changes_nil))

/-- The host's start keeps a view that looks at no part of what it reports. -/
theorem keepsView_hostImages {α : Type} {g : BootView α} (hpow : ∀ l x p r a b, g l x { p with hostFail := a, ready := b } r = g l x p r)
    (hfw : ∀ l x p r d, g l { x with hostFw := d } p r = g l x p r) (hfloor : ∀ l x p r a b, g l { x with hmFloor := a, hostFloor := b } p r = g l x p r) :
    hostImages.KeepsView g :=
  keepsView_bootImages (by decide) (by decide) (keepsView_pow fun l x p r => hpow l x p r _ p.ready)
    (keepsView_hostBoots hfw fun l x p r => hpow l x p r p.hostFail _) (keepsView_floorRise hfloor 3)

/-! What follows the harbourmaster's start. -/

/-- The state in which the host's slots are checked. -/
def beforeHost (s : State) : State := run (.prim (.pow fun p => { p with fromSb := false })) (run (bootsChart (s.pow.fromSb && s.chart.cur.isSome)) s)

theorem run_bootRest_eq (s : State) : run bootRest s = run hostImages (beforeHost s) := run_bootRest s

theorem beforeHost_view {α : Type} {g : BootView α} (hchart : g.SparesChart) (hsb : ∀ l x p r, g l x { p with fromSb := false } r = g l x p r) (s : State) :
    g.at (beforeHost s) = g.at s :=
  (Act.KeepsView.eq (keepsView_pow hsb) _).trans (Act.KeepsView.eq (keepsView_bootsChart hchart _) s)

theorem keepsView_bootRest {α : Type} {g : BootView α} (hchart : g.SparesChart) (hpow : ∀ l x p r a b c, g l x { p with fromSb := c, hostFail := a, ready := b } r = g l x p r)
    (hfw : ∀ l x p r d, g l { x with hostFw := d } p r = g l x p r) (hfloor : ∀ l x p r a b, g l { x with hmFloor := a, hostFloor := b } p r = g l x p r) :
    bootRest.KeepsView g :=
  fun _ => ⟨keepsView_bootsChart hchart _, keepsView_pow fun l x p r => hpow l x p r p.hostFail p.ready _,
    keepsView_hostImages (fun l x p r a b => hpow l x p r a b p.fromSb) hfw hfloor, trivial⟩

theorem getF_bootRest {g : Fld} (hchart : g.reg ∉ chartRegs) (hfail : SEC_EVT.HOSTFAIL.apart g = true) (hslot : SEC_STAT.HOSTSLOT.apart g = true)
    (hmap : g.reg ≠ .ID_DIEMAP) (m n : Nat) (s : State) : getF (run bootRest s) g m n = getF s g m n := by
  rw [run_bootRest, getF_hostImages hfail hslot hmap]
  exact (writes_bootsChart _).getF hchart m n s

section
variable {s : State}

theorem bootRest_boots (hA : fwPasses s 3 s.sec.hostA = true) : (run bootRest s).pow.ready = true ∧ isHeld (run bootRest s) 6 = false := by
  have hview : slotsView.at (beforeHost s) = slotsView.at s := beforeHost_view (fun _ _ _ _ _ _ => rfl) (fun _ _ _ _ => rfl) s
  have hslot : (beforeHost s).sec.hostA = s.sec.hostA := bootSlot_congr hview 3 false
  rw [run_bootRest_eq]
  exact hostImages_boots (s := beforeHost s) (by rw [fwPasses_congr hview, hslot, hA])

theorem bootRest_hostFails (hA : fwPasses s 3 s.sec.hostA = false) (hB : fwPasses s 3 s.sec.hostB = false) :
    let t := run bootRest s
    t.pow.hostFail = true ∧ getF t SEC_EVT.HOSTFAIL = 1 ∧ t.pow.ready = s.pow.ready := by
  have hview : slotsView.at (beforeHost s) = slotsView.at s := beforeHost_view (fun _ _ _ _ _ _ => rfl) (fun _ _ _ _ => rfl) s
  have hready : readyView.at (beforeHost s) = readyView.at s := beforeHost_view (fun _ _ _ _ _ _ => rfl) (fun _ _ _ _ => rfl) s
  have hslotA : (beforeHost s).sec.hostA = s.sec.hostA := bootSlot_congr hview 3 false
  have hslotB : (beforeHost s).sec.hostB = s.sec.hostB := bootSlot_congr hview 3 true
  obtain ⟨hfail, hevt, hkept⟩ := hostImages_fails (s := beforeHost s) (by rw [fwPasses_congr hview, hslotA, hA]) (by rw [fwPasses_congr hview, hslotB, hB])
  rw [run_bootRest_eq]
  exact ⟨hfail, hevt, hkept.trans hready⟩

theorem bootRest_fallback (hsb : s.pow.fromSb = false) (hA : s.chart.slotA = []) (hB : s.chart.slotB = []) :
    getF (run bootRest s) CHART_STAT.STATE = 2 ∧ (run bootRest s).chart.cur = none := by
  have hbefore : getF (beforeHost s) CHART_STAT.STATE = 2 ∧ (beforeHost s).chart.cur = none := by
    rw [beforeHost, hsb, Bool.false_and, run_prim, Prim.pow_getF, Prim.pow_chart]
    exact bootChart_empty hA hB
  obtain ⟨hstate, hcur⟩ := hbefore
  have hchart : (run hostImages (beforeHost s)).chart = (beforeHost s).chart := only_chart changes_hostImages.only (by decide) _
  rw [run_bootRest_eq, getF_hostImages (by decide) (by decide) (by decide), hchart]
  exact ⟨hstate, hcur⟩

end

/-! The start from the harbourmaster's slots. -/

theorem keepsView_hmFails {α : Type} {g : BootView α} (h : ∀ l x p r a b, g l x { p with hmFail := a, xsRel := b } r = g l x p r) : hmFails.KeepsView g :=
  ⟨keepsView_pow fun l x p r => h l x p r _ _, fun _ => rfl,
    keepsView_of_changes (k := [.ID_DIEMAP]) (changes_prim (l := [.regs]) rfl) (List.mem_singleton.mpr rfl) (by decide) (by decide)⟩

theorem hmFails_spec (s : State) :
    let t := run hmFails s
    t.pow.hmFail = true ∧ t.pow.xsRel = true ∧ t.rst.held = [1, 2, 3, 4, 5, 6] ∧ getF t SEC_EVT.HMFAIL = getF s SEC_EVT.HMFAIL :=
  ⟨rfl, rfl, rfl, Act.Writes.getF (a := hmFails) (l := [.ID_DIEMAP]) ⟨trivial, trivial, List.mem_singleton.mpr rfl⟩ (by decide) 0 0 s⟩

/-- A boot keeps the lifecycle, and what was derived of the identity, to its end. -/
theorem keepsView_hmImages_ground : hmImages.KeepsView groundView :=
  keepsView_bootImages (by decide) (by decide) (keepsView_hmFails fun _ _ _ _ _ _ => rfl)
    (fun _ => ⟨keepsView_updSec fun _ _ _ _ => rfl, keepsView_setF (by decide) _ _ _,
      keepsView_bootRest (fun _ _ _ _ _ _ => rfl) (fun _ _ _ _ _ _ _ => rfl) (fun _ _ _ _ _ => rfl) (fun _ _ _ _ _ _ => rfl), trivial⟩)
    (keepsView_floorRise (fun _ _ _ _ _ _ => rfl) 2)

theorem hmImages_fails {s : State} (hA : fwPasses s 2 s.sec.hmA = false) (hB : fwPasses s 2 s.sec.hmB = false) :
    let t := run hmImages s
    t.pow.hmFail = true ∧ t.pow.xsRel = true ∧ t.rst.held = [1, 2, 3, 4, 5, 6] ∧ getF t SEC_EVT.HMFAIL = 1 := by
  have hnoted : getF (run (slotsRecord s 2 SEC_EVT.HMFAIL) s) SEC_EVT.HMFAIL = 1 :=
    getF_slotsNoted (by decide) rfl (by rw [show fwPasses s 2 (bootSlot s 2 false) = false from hA]; rfl) s
  obtain ⟨hfail, hxs, hheld, hevt⟩ := hmFails_spec (run (slotsRecord s 2 SEC_EVT.HMFAIL) s)
  rw [hmImages, run_bootImages_none (slotChosen_eq_none hA hB)]
  exact ⟨hfail, hxs, hheld, hevt.trans hnoted⟩

/-- The harbourmaster starts from slot A. -/
def hmStart (s : State) : Act :=
  Act.all [slotsRecord s 2 SEC_EVT.HMFAIL, setF SEC_STAT.HMSLOT 0, updSec fun x => { x with hmBoot := imgDigest s.sec.hmA, hmRun := imgDigest s.sec.hmA, switches := 0 },
    setF HM_FWSTAT.VERSION (Config.imageVersion (imgDigest s.sec.hmA)).toNat]

theorem run_hmImages_slotA {s : State} (hA : fwPasses s 2 s.sec.hmA = true) (hB : fwPasses s 2 s.sec.hmB = false) :
    run hmImages s = run (Act.when (decide (s.life = .field)) (floorRise 2 (fieldAt s.sec.hmA 8 8))) (run bootRest (run (hmStart s) s)) := by
  rw [hmImages, run_bootImages_some (slotChosen_of_a_alone hA hB), hmBoots, run_all_cons, run_all_cons, run_all_cons, run_all_nil, hmStart, run_all_cons, run_all_cons, run_all_cons,
    run_all_cons, run_all_nil]
  rfl

section
variable (s : State)

theorem changes_hmStart : (hmStart s).Changes [.regs, .log, .sec] :=
  changes_cons ((changes_slotsRecord _ _ _).up rfl) (changes_cons ((changes_setF _ _ _ _).up rfl) (changes_cons ((changes_updSec _).up rfl)
    (changes_cons ((changes_setF _ _ _ _).up rfl) changes_nil)))

theorem keepsView_hmStart {α : Type} {g : BootView α} (h : ∀ l x p r a b n, g l { x with hmBoot := a, hmRun := b, switches := n } p r = g l x p r) :
    (hmStart s).KeepsView g :=
  ⟨keepsView_slotsNoted (by decide) _ _, keepsView_setF (by decide) _ _ _, keepsView_updSec fun l x p r => h l x p r _ _ _, keepsView_setF (by decide) _ _ _, trivial⟩

theorem hmStart_spec (hB : fwPasses s 2 s.sec.hmB = false) :
    let t := run (hmStart s) s
    getF t SEC_STAT.HMSLOT = 0 ∧ getF t SEC_EVT.HMFAIL = 1 ∧ getF t HM_FWSTAT.VERSION = (Config.imageVersion (imgDigest s.sec.hmA)).toNat ∧
      t.sec.hmBoot = imgDigest s.sec.hmA ∧ t.sec.hmRun = imgDigest s.sec.hmA := by
  have hnoted : getF (run (slotsRecord s 2 SEC_EVT.HMFAIL) s) SEC_EVT.HMFAIL = 1 :=
    getF_slotsNoted (by decide) rfl (by rw [show fwPasses s 2 (bootSlot s 2 true) = false from hB, Bool.and_false]) s
  have hversion : (Config.imageVersion (imgDigest s.sec.hmA)).toNat % 2 ^ HM_FWSTAT.VERSION.width = (Config.imageVersion (imgDigest s.sec.hmA)).toNat :=
    (congrArg (_ % 2 ^ ·) (show HM_FWSTAT.VERSION.width = 32 from rfl)).trans (Nat.mod_eq_of_lt (BitVec.isLt _))
  simp only [hmStart, run_all_cons, run_all_nil]
  refine ⟨?_, ?_, ?_, ?_, ?_⟩
  · simp (decide := true)
  · simp (decide := true) [hnoted]
  · rw [getF_setF_fits (by decide), hversion]
  · simp
  · simp

end

/-- A harbourmaster that boots from slot A alone is reported so to the end of the boot. -/
theorem hmImages_slotA {s : State} (hA : fwPasses s 2 s.sec.hmA = true) (hB : fwPasses s 2 s.sec.hmB = false) :
    let t := run hmImages s
    getF t SEC_STAT.HMSLOT = 0 ∧ t.sec.hmBoot = imgDigest s.sec.hmA ∧ t.sec.hmRun = imgDigest s.sec.hmA ∧ getF t SEC_EVT.HMFAIL = 1 ∧
      getF t HM_FWSTAT.VERSION = (Config.imageVersion (imgDigest s.sec.hmA)).toNat := by
  obtain ⟨hslot, hevt, hversion, hboot, hrun⟩ := hmStart_spec s hB
  have hfloor : ∀ (c : Bool) k g t, getF (run (Act.when c (floorRise 2 k)) t) g = getF t g := fun c k g t => by cases c <;> rfl
  have hview : (Act.seq bootRest (Act.when (decide (s.life = .field)) (floorRise 2 (fieldAt s.sec.hmA 8 8)))).KeepsView startedView :=
    ⟨keepsView_bootRest (fun _ _ _ _ _ _ => rfl) (fun _ _ _ _ _ _ _ => rfl) (fun _ _ _ _ _ => rfl) (fun _ _ _ _ _ _ => rfl),
      (within_when _ _).mpr fun _ => keepsView_floorRise (fun _ _ _ _ _ _ => rfl) 2 _⟩
  have hstarted := hview.eq (run (hmStart s) s)
  rw [run_seq, ← run_hmImages_slotA hA hB] at hstarted
  simp only [BootView.at, startedView, Prod.mk.injEq] at hstarted
  refine ⟨?_, hstarted.1.trans hboot, hstarted.2.trans hrun, ?_, ?_⟩ <;> rw [run_hmImages_slotA hA hB, hfloor, getF_bootRest (by decide) (by decide) (by decide) (by decide)]
  · exact hslot
  · exact hevt
  · exact hversion

section
variable {s : State} (hA : fwPasses s 2 s.sec.hmA = true) (hB : fwPasses s 2 s.sec.hmB = false)
include hA hB

/-- What the rest of the boot says of power, chart and domains stands at its end. -/
theorem hmImages_of_rest {P : State → Prop} (hfloor : ∀ t k, P t → P (run (floorRise 2 k) t)) (h : P (run bootRest (run (hmStart s) s))) : P (run hmImages s) := by
  rw [run_hmImages_slotA hA hB, run_when]
  split
  · exact hfloor _ _ h
  · exact h

theorem hmImages_hostBoots (hhost : fwPasses s 3 s.sec.hostA = true) : (run hmImages s).pow.ready = true ∧ isHeld (run hmImages s) 6 = false := by
  have hview : slotsView.at (run (hmStart s) s) = slotsView.at s := (keepsView_hmStart s fun _ _ _ _ _ _ _ => rfl).eq s
  have hslot : (run (hmStart s) s).sec.hostA = s.sec.hostA := bootSlot_congr hview 3 false
  exact hmImages_of_rest hA hB (P := fun t => t.pow.ready = true ∧ isHeld t 6 = false) (fun _ _ h => h)
    (bootRest_boots (by rw [fwPasses_congr hview, hslot, hhost]))

theorem hmImages_hostFails (hhostA : fwPasses s 3 s.sec.hostA = false) (hhostB : fwPasses s 3 s.sec.hostB = false) :
    let t := run hmImages s
    t.pow.hostFail = true ∧ getF t SEC_EVT.HOSTFAIL = 1 ∧ t.pow.ready = s.pow.ready := by
  have hview : slotsView.at (run (hmStart s) s) = slotsView.at s := (keepsView_hmStart s fun _ _ _ _ _ _ _ => rfl).eq s
  have hslotA : (run (hmStart s) s).sec.hostA = s.sec.hostA := bootSlot_congr hview 3 false
  have hslotB : (run (hmStart s) s).sec.hostB = s.sec.hostB := bootSlot_congr hview 3 true
  have hpow : (run (hmStart s) s).pow = s.pow := only_pow (changes_hmStart s).only (by decide) s
  obtain ⟨hfail, hevt, hready⟩ := bootRest_hostFails (s := run (hmStart s) s) (by rw [fwPasses_congr hview, hslotA, hhostA]) (by rw [fwPasses_congr hview, hslotB, hhostB])
  exact hmImages_of_rest hA hB (P := fun t => t.pow.hostFail = true ∧ getF t SEC_EVT.HOSTFAIL = 1 ∧ t.pow.ready = s.pow.ready) (fun _ _ h => h)
    ⟨hfail, hevt, by rw [hready, hpow]⟩

theorem hmImages_fallback (hsb : s.pow.fromSb = false) (hslotA : s.chart.slotA = []) (hslotB : s.chart.slotB = []) :
    getF (run hmImages s) CHART_STAT.STATE = 2 ∧ (run hmImages s).chart.cur = none := by
  have hpow : (run (hmStart s) s).pow = s.pow := only_pow (changes_hmStart s).only (by decide) s
  have hchart : (run (hmStart s) s).chart = s.chart := only_chart (changes_hmStart s).only (by decide) s
  exact hmImages_of_rest hA hB (P := fun t => getF t CHART_STAT.STATE = 2 ∧ t.chart.cur = none) (fun _ _ h => h)
    (bootRest_fallback (by rw [hpow, hsb]) (by rw [hchart, hslotA]) (by rw [hchart, hslotB]))

end

/-! The boot, from its start. -/

/-- The state in which the harbourmaster's slots are checked. -/
def beforeHm (puf : Option W64) (s : State) : State := run (bootIdentity puf) (run (.prim (.pow fun p => { p with boot := false })) s)

section
variable (puf : Option W64) (s : State)

theorem keepsView_bootIdentity {α : Type} {g : BootView α} (h : ∀ l x p r a b, g l { x with seed := a, idKey := b } p r = g l x p r) : (bootIdentity puf).KeepsView g := by
  have hnone : (Act.seq (evt SEC_EVT.IDFAIL) (logEv .noIdentity)).KeepsView g := ⟨keepsView_setF (by decide) _ _ _, keepsView_logEv _ _ _ _⟩
  intro t
  cases puf with
  | none => exact hnone
  | some v =>
    dsimp only
    split
    · exact keepsView_updSec fun l x p r => h l x p r _ _
    · exact hnone

theorem beforeHm_slots : slotsView.at (beforeHm puf s) = slotsView.at s := (keepsView_bootIdentity puf fun _ _ _ _ _ _ => rfl).eq _

theorem beforeHm_pow : (beforeHm puf s).pow = { s.pow with boot := false } := only_pow (changes_bootIdentity puf).only (by decide) _

theorem beforeHm_chart : (beforeHm puf s).chart = s.chart := only_chart (changes_bootIdentity puf).only (by decide) _

theorem beforeHm_life : (beforeHm puf s).life = s.life := only_life (changes_bootIdentity puf).only (by decide) _

end

/-- The identity key is the derived one where its digest is the one stored (R416). -/
theorem beforeHm_idKey {s : State} (v : W64) (h : s.sec.idDigest = some (sha3_256 (Config.mldsaPublic v.toNat))) :
    (beforeHm (some v) s).sec.idKey = Config.mldsaPublic v.toNat := by
  have hdigest : (run (.prim (.pow fun p => { p with boot := false })) s).sec.idDigest = some (sha3_256 (Config.mldsaPublic v.toNat)) := h
  rw [beforeHm, bootIdentity, run_ask]
  dsimp only
  rw [if_pos hdigest, updSec_sec]

end Sys2Proof.Machine

/-! PROOFS. O44: the boot, the commands of the security core, lifecycle resets and attestation. -/

namespace Sys2Proof.Machine

section
variable {s : State} (puf : Option W64)

theorem exec_boot_idle (h : s.pow.boot = false ∨ s.pow.refclk = false) : ∃ t, exec (.boot puf) s = .next t ∧ t = s := ⟨_, rfl, run_boot_of_not_due puf h⟩

theorem exec_boot_due (hboot : s.pow.boot = true) (href : s.pow.refclk = true) (hnext : s.sec.next = none) :
    exec (.boot puf) s = .next (run hmImages (beforeHm puf s)) := congrArg Host.Outcome.next (run_boot puf hboot href hnext)

theorem boot_ground :
    let t := run hmImages (beforeHm puf s)
    t.pow.boot = false ∧ t.life = s.life ∧ (∀ v, puf = some v → s.sec.idDigest = some (sha3_256 (Config.mldsaPublic v.toNat)) → t.sec.idKey = Config.mldsaPublic v.toNat) := by
  have hground := keepsView_hmImages_ground.eq (beforeHm puf s)
  simp only [BootView.at, groundView, Prod.mk.injEq] at hground
  obtain ⟨hlife, hboot, hkey⟩ := hground
  refine ⟨hboot.trans (by rw [beforeHm_pow]), hlife.trans (beforeHm_life puf s), ?_⟩
  rintro v rfl hdigest
  exact hkey.trans (beforeHm_idKey v hdigest)

/-- The slots are checked as before the boot began. -/
theorem beforeHm_passes (kind : Nat) (img : List Byte) : fwPasses (beforeHm puf s) kind img = fwPasses s kind img := fwPasses_congr (beforeHm_slots puf s) kind img

theorem beforeHm_hmA : (beforeHm puf s).sec.hmA = s.sec.hmA := bootSlot_congr (beforeHm_slots puf s) 2 false
theorem beforeHm_hmB : (beforeHm puf s).sec.hmB = s.sec.hmB := bootSlot_congr (beforeHm_slots puf s) 2 true
theorem beforeHm_hostA : (beforeHm puf s).sec.hostA = s.sec.hostA := bootSlot_congr (beforeHm_slots puf s) 3 false
theorem beforeHm_hostB : (beforeHm puf s).sec.hostB = s.sec.hostB := bootSlot_congr (beforeHm_slots puf s) 3 true

theorem boot_hmFails (hA : fwPasses s 2 s.sec.hmA = false) (hB : fwPasses s 2 s.sec.hmB = false) :
    let t := run hmImages (beforeHm puf s)
    t.pow.hmFail = true ∧ t.pow.xsRel = true ∧ t.rst.held = [1, 2, 3, 4, 5, 6] ∧ getF t SEC_EVT.HMFAIL = 1 :=
  hmImages_fails (by rw [beforeHm_passes, beforeHm_hmA, hA]) (by rw [beforeHm_passes, beforeHm_hmB, hB])

theorem boot_hmStarts (hA : fwPasses s 2 s.sec.hmA = true) (hB : fwPasses s 2 s.sec.hmB = false) :
    let t := run hmImages (beforeHm puf s)
    getF t SEC_STAT.HMSLOT = 0 ∧ t.sec.hmBoot = imgDigest s.sec.hmA ∧ t.sec.hmRun = imgDigest s.sec.hmA ∧
      getF t SEC_EVT.HMFAIL = 1 ∧ getF t HM_FWSTAT.VERSION = (Config.imageVersion (imgDigest s.sec.hmA)).toNat ∧
      (fwPasses s 3 s.sec.hostA = true → t.pow.ready = true ∧ isHeld t 6 = false) ∧
      (fwPasses s 3 s.sec.hostA = false → fwPasses s 3 s.sec.hostB = false → t.pow.hostFail = true ∧ getF t SEC_EVT.HOSTFAIL = 1 ∧ t.pow.ready = s.pow.ready) ∧
      (s.pow.fromSb = false → s.chart.slotA = [] → s.chart.slotB = [] → getF t CHART_STAT.STATE = 2 ∧ t.chart.cur = none) := by
  have hpassA : fwPasses (beforeHm puf s) 2 (beforeHm puf s).sec.hmA = true := by rw [beforeHm_passes, beforeHm_hmA, hA]
  have hpassB : fwPasses (beforeHm puf s) 2 (beforeHm puf s).sec.hmB = false := by rw [beforeHm_passes, beforeHm_hmB, hB]
  have hstart := hmImages_slotA hpassA hpassB
  rw [beforeHm_hmA] at hstart
  obtain ⟨hslot, hboot, hrun, hevt, hversion⟩ := hstart
  refine ⟨hslot, hboot, hrun, hevt, hversion, fun hhost => ?_, fun hhostA hhostB => ?_, fun hsb hslotA hslotB => ?_⟩
  · exact hmImages_hostBoots hpassA hpassB (by rw [beforeHm_passes, beforeHm_hostA, hhost])
  · obtain ⟨hfail, hhostEvt, hready⟩ := hmImages_hostFails hpassA hpassB (by rw [beforeHm_passes, beforeHm_hostA, hhostA]) (by rw [beforeHm_passes, beforeHm_hostB, hhostB])
    exact ⟨hfail, hhostEvt, by rw [hready, beforeHm_pow]⟩
  · exact hmImages_fallback hpassA hpassB (by rw [beforeHm_pow, hsb]) (by rw [beforeHm_chart, hslotA]) (by rw [beforeHm_chart, hslotB])

end

/-- Settles O44: each clause is what its program does, from the state it is given. -/
theorem bootAndSecurity : Obligations.BootAndSecurity := by
  refine ⟨fun s puf => ⟨exec_boot_idle puf, fun hboot href hnext => ?boot⟩, fun s a => ⟨fun hr => ?recordRefused, fun hr => ?recordPasses⟩,
    fun s a => ⟨fun hlife howner => ?owner, fun h => ?ownerRefused, fun k hk hid => ⟨fun h => ?endorsed, fun h => ?notEndorsed⟩, fun hlife hnone => ?identity, fun h => ?identityRefused⟩,
    fun s => ⟨fun h => ⟨_, rfl, lifeReset_of_none h⟩, fun hnext h => ⟨_, rfl, lifeReset_spec hnext h⟩⟩,
    fun s a => ⟨fun h => ⟨_, rfl, attestGo_busy a h⟩, fun h hid => ⟨_, rfl, attestGo_taken a h hid⟩, fun h hid => ⟨_, rfl, attestGo_failed a h hid⟩⟩,
    fun s a nonce h => ⟨_, rfl, attestDone_spec h⟩⟩
  case boot =>
    obtain ⟨hdone, hlife, hkey⟩ := boot_ground (s := s) puf
    exact ⟨_, exec_boot_due puf hboot href hnext, hdone, hlife, hkey, boot_hmFails puf, boot_hmStarts puf⟩
  case recordRefused => exact ⟨_, rfl, secRecord_refused hr⟩
  case recordPasses =>
    by_cases hop : readNat s (a.toNat / 64 * 64 + 4) 1 = 1
    · obtain ⟨hstate, hlife, hmem, heffect⟩ := secRecord_transition hr hop
      exact ⟨_, rfl, hstate, hlife, hmem, fun _ => heffect, fun hne => absurd hop hne⟩
    · obtain ⟨hstate, hsec, hlife, hmem⟩ := secRecord_owner hr hop
      exact ⟨_, rfl, hstate, hlife, hmem, fun heq => absurd heq hop, fun _ => ⟨by rw [hsec], by rw [hsec], by rw [hsec]⟩⟩
  case owner =>
    obtain ⟨hstate, hsec, -, hmem⟩ := secOwner_passes (addr := a) hlife howner
    exact ⟨_, rfl, hstate, hmem, hsec⟩
  case ownerRefused =>
    obtain ⟨hstate, hreason, hevt, hsec, -, hmem⟩ := secOwner_refused (addr := a) h
    exact ⟨_, rfl, hstate, hreason, hevt, hsec, hmem⟩
  case endorsed =>
    obtain ⟨hstate, hsec, -, hmem⟩ := secEndorse_passes hk hid h
    exact ⟨_, rfl, hstate, hsec, hmem⟩
  case notEndorsed =>
    obtain ⟨hstate, hreason, -, hsec, -, hmem⟩ := secEndorse_refused hk hid h
    exact ⟨_, rfl, hstate, hreason, hsec, hmem⟩
  case identity => exact ⟨_, rfl, secIdentity_passes hlife hnone⟩
  case identityRefused =>
    obtain ⟨hstate, hreason, -, hsec, -, hmem⟩ := secIdentity_refused (addr := a) h
    exact ⟨_, rfl, hstate, hreason, hsec, hmem⟩

end Sys2Proof.Machine

/-! PROOFS. A step on an empty queue: a quarter of a nanosecond passes, waiting is counted, and what another berth owes too long stalls its unit (R105, R171, R183, R231, R242, R354). -/

namespace Sys2Proof.Machine

/-! What the passing of time consists of. -/

/-- Accesses whose stall or rebuild is over are made again. -/
def accessesAgain : Act := .seq retryStalled resendHeld

/-- The counts of a quarter of a nanosecond: waiting tiles, the waiting update engine, stalled units, starved ports. -/
def countWaiting (s : State) : Act :=
  Act.all [Act.each (fun e => tileTick e.1) s.tiles, updTick, .ask fun t => Act.each stallTick (stallsNow t),
    Act.when (decide (s.now % 4 = 3)) (Act.each starveTick s.hural.ports)]

/-- The causes of stalls that go on are looked at again. -/
def causesAgain : Act := .ask fun t => Act.each causeTick t.tier.stalls

theorem run_tick (s : State) : run tick s = Prim.apply (.time 1) (run (countWaiting s) (run causesAgain (run lateTick (run accessesAgain s)))) := rfl

/-- The registers that count waiting, but for TIER_STALL. -/
def waitRegs : List RegName := [.MX_WAITCYC, .VX_WAITCYC, .VX_DMA_WAITCYC, .UPD_WAITCYC, .HURAL_STARVE]

theorem changes_countWaiting (s : State) : (countWaiting s).Changes [.regs] :=
  changes_cons (changes_each fun _ => changes_tileTick _) (changes_cons changes_updTick (changes_cons (changes_ask fun _ => changes_each fun _ => changes_stallTick _)
    (changes_cons (changes_when (changes_each fun _ => changes_starveTick _)) changes_nil)))

theorem writes_tileTick (u : Nat) : (tileTick u).Writes waitRegs := by
  intro s
  dsimp only
  split
  · trivial
  · simp only [within_all_cons, within_when, within_all_nil, and_true]
    exact ⟨fun _ => writes_incF (by decide) _ _ _, fun _ => writes_incF (by decide) _ _ _, fun _ => writes_incF (by decide) _ _ _,
      fun _ => writes_incF (by decide) _ _ _, fun _ => writes_incF (by decide) _ _ _, fun _ => writes_incF (by decide) _ _ _⟩

theorem writes_updTick : updTick.Writes waitRegs := by
  intro s
  simp only [within_all_cons, within_when, within_all_nil, and_true]
  exact fun _ => ⟨fun _ => writes_incF (by decide) _ _ _, fun _ => writes_incF (by decide) _ _ _⟩

theorem writes_starveTick (e : Nat × PortSt) : (starveTick e).Writes waitRegs :=
  fun _ => (within_when _ _).mpr fun _ => writes_incF (by decide) _ _ _

theorem writes_stallTick (e : Nat × Nat) : (stallTick e).Writes (.TIER_STALL :: waitRegs) :=
  fun _ => (within_when _ _).mpr fun _ => writes_incF (by decide) _ _ _

theorem writes_countWaiting (s : State) : (countWaiting s).Writes (.TIER_STALL :: waitRegs) :=
  ⟨(within_each _ _).mpr fun _ _ => (writes_tileTick _).mono (by decide), writes_updTick.mono (by decide),
    fun _ => (within_each _ _).mpr fun _ _ => writes_stallTick _, (within_when _ _).mpr fun _ => (within_each _ _).mpr fun _ _ => (writes_starveTick _).mono (by decide), trivial⟩

/-- A program that changes registers alone. -/
theorem run_eq_of_changes_regs {a : Act} (h : a.Changes [.regs]) (s : State) : run a s = { s with regs := (run a s).regs } := by
  refine run_rel (R := fun x y => y = { x with regs := y.regs }) (fun _ => rfl) (fun {a b c} hab hbc => ?_) h.only (fun p hp s => ?_) s
  · rw [hbc, hab]
  · cases p
    case reg => rfl
    case regsReset => rfl
    all_goals exact nomatch List.mem_singleton.mp hp

/-- Time passes without a register's change. -/
theorem time_getReg (k : Nat) (q : RegName) (i j : Nat) (s : State) : getReg (Prim.apply (.time k) s) q i j = getReg s q i j := rfl
theorem time_getF (k : Nat) (f : Fld) (i j : Nat) (s : State) : getF (Prim.apply (.time k) s) f i j = getF s f i j := rfl

/-! Time is what a step on an empty queue changes. -/

theorem tick_now (s : State) : (run tick s).now = s.now + 1 := by
  have hagain : accessesAgain.Changes [.free, .out, .regs, .mem, .log, .tide, .tiles, .sec, .tier, .coh, .hural, .upd, .bell, .shd] :=
    changes_seq (changes_retryStalled.up rfl) (changes_resendHeld.up rfl)
  have hcauses : causesAgain.Changes [.regs, .mem, .tier, .coh] := changes_ask fun _ => changes_each fun _ => changes_causeTick _
  rw [run_tick, Prim.time_now, only_now (changes_countWaiting s).only (by decide), only_now hcauses.only (by decide),
    only_now changes_lateTick.only (by decide), only_now hagain.only (by decide)]

/-! Nothing waits. -/

section
variable {s : State}

theorem run_accessesAgain_of_none (hw : s.tier.waits = []) (hh : ∀ r ∈ s.hural.reqs, r.held = false) : run accessesAgain s = s := by
  have hstalled : run retryStalled s = s := by simp [retryStalled, hw]
  have hheld : (s.hural.reqs.any fun r => r.held && (firstStall s [heldPiece s r]).isNone) = false :=
    List.any_eq_false.mpr fun r hr => by simp [hh r hr]
  rw [accessesAgain, run_seq, hstalled, resendHeld, run_ask, run_when, hheld, if_neg Bool.false_ne_true]

theorem run_lateTick_of_none (hs : s.tier.stalls = []) (hl : lateAccesses s = []) : run lateTick s = s := by
  simp [lateTick, hs, hl]

theorem run_causesAgain_of_none (hs : s.tier.stalls = []) : run causesAgain s = s := by
  simp [causesAgain, hs]

theorem run_tick_of_quiet (hw : s.tier.waits = []) (hs : s.tier.stalls = []) (hl : lateAccesses s = []) (hh : ∀ r ∈ s.hural.reqs, r.held = false) :
    run tick s = Prim.apply (.time 1) (run (countWaiting s) s) := by
  rw [run_tick, run_accessesAgain_of_none hw hh, run_lateTick_of_none hs hl, run_causesAgain_of_none hs]

end

/-! One read is late. -/

/-- A read of a unit that another berth has owed for more than 10 µs is all that is late (R242, Table 10-2). -/
theorem lateAccesses_of_fetch {s : State} {u : Nat} {f : Fetch} (hq : s.hural.reqs = []) (hf : s.tier.fetch = [f]) (hwho : f.who = .unit u) (hdue : f.ans = .due)
    (hlate : f.since + 40000 < s.now) : lateAccesses s = [(u, { cause := 3, absent := false, addr := f.addr, wr := false })] := by
  simp [lateAccesses, hf, hq, hdue, hwho, isLate, hlate]

/-- A unit that did not stall begins an episode under cause 3, which needs no record. -/
theorem run_unitStall_late {s : State} (hs : s.tier.stalls = []) (u a : Nat) :
    run (unitStall u { cause := 3, absent := false, addr := a, wr := false }) s =
      run (updTier fun t => { t with stalls := Cells.ins t.stalls u { cause := 3, addr := a, wr := false, noted := false } }) (run (incF TIER_STALL.EPISODES 1 3) s) := by
  simp [unitStall, hs, Cells.look]

theorem run_lateTick_of_one {s : State} {u a : Nat} (hs : s.tier.stalls = []) (hl : lateAccesses s = [(u, { cause := 3, absent := false, addr := a, wr := false })]) :
    run lateTick s = run (unitStall u { cause := 3, absent := false, addr := a, wr := false }) s := by
  simp [lateTick, hs, hl, Cells.look]

/-- Lateness is looked at by `lateTick` alone: a stall under cause 3 keeps its cause. -/
theorem run_causeTick_of_late (k : Nat) {x : Stall} (h : x.cause = 3) (s : State) : run (causeTick (k, x)) s = s := by
  simp only [causeTick, run_ask, h]
  split <;> rfl

/-- The count of episodes is no count of time. -/
theorem countWaiting_episodes (s t : State) (c : Nat) : getF (run (countWaiting s) t) TIER_STALL.EPISODES c = getF t TIER_STALL.EPISODES c := by
  have hstalls : ∀ l t, getF (run (Act.each stallTick l) t) TIER_STALL.EPISODES c = getF t TIER_STALL.EPISODES c := fun l t =>
    run_each_same (fun t => getF t TIER_STALL.EPISODES c) (fun e _ t => by
      rw [stallTick, run_ask, run_when]
      split
      · exact getF_incF_apart (by decide) ..
      · rfl) t
  have htiles : (Act.each (fun e : Nat × Tile => tileTick e.1) s.tiles).Writes waitRegs := (within_each _ _).mpr fun _ _ => writes_tileTick _
  have hports : (Act.when (decide (s.now % 4 = 3)) (Act.each starveTick s.hural.ports)).Writes waitRegs :=
    (within_when _ _).mpr fun _ => (within_each _ _).mpr fun _ _ => writes_starveTick _
  rw [countWaiting, run_all_cons, run_all_cons, run_all_cons, run_all_cons, run_all_nil, hports.getF (by decide), run_ask, hstalls, writes_updTick.getF (by decide),
    htiles.getF (by decide)]

/-- The state in which a unit has stalled on a late read. -/
def lateStalled (s : State) (u a : Nat) : State := run (unitStall u { cause := 3, absent := false, addr := a, wr := false }) s

section
variable {s : State} {u a : Nat} (hs : s.tier.stalls = [])
include hs

theorem lateStalled_stalls : (lateStalled s u a).tier.stalls = [(u, { cause := 3, addr := a, wr := false, noted := false })] := by
  rw [lateStalled, run_unitStall_late hs, updTier, run_prim, Prim.tier_tier, incF_tier, hs]
  rfl

theorem lateStalled_episodes : getF (lateStalled s u a) TIER_STALL.EPISODES 3 = min (getF s TIER_STALL.EPISODES 3 + 1) (2 ^ 24 - 1) := by
  rw [lateStalled, run_unitStall_late hs, updTier, run_prim, Prim.tier_getF, getF_incF_fits (f := TIER_STALL.EPISODES) (by decide),
    show TIER_STALL.EPISODES.width = 24 from rfl]

theorem lateStalled_mem : (lateStalled s u a).mem = s.mem := by
  rw [lateStalled, run_unitStall_late hs, updTier, run_prim, Prim.tier_mem, incF_mem]

theorem run_tick_of_late (hw : s.tier.waits = []) (hq : s.hural.reqs = [])
    (hl : lateAccesses s = [(u, { cause := 3, absent := false, addr := a, wr := false })]) :
    run tick s = Prim.apply (.time 1) (run (countWaiting s) (lateStalled s u a)) := by
  have hcauses : run causesAgain (lateStalled s u a) = lateStalled s u a := by
    rw [causesAgain, run_ask, lateStalled_stalls hs, run_each_cons, run_causeTick_of_late u rfl, run_each_nil]
  rw [run_tick, run_accessesAgain_of_none hw (by simp [hq]), run_lateTick_of_one hs hl, ← lateStalled, hcauses]

/-- The unit stalls, and its episode is counted. -/
theorem tick_late (hw : s.tier.waits = []) (hq : s.hural.reqs = [])
    (hl : lateAccesses s = [(u, { cause := 3, absent := false, addr := a, wr := false })]) :
    let t := run tick s
    Cells.look t.tier.stalls u = some { cause := 3, addr := a, wr := false, noted := false } ∧
      min (getF s TIER_STALL.EPISODES 3 + 1) (2 ^ 24 - 1) = getF t TIER_STALL.EPISODES 3 ∧ t.mem = s.mem := by
  have hcount := (changes_countWaiting s).only
  dsimp only
  rw [run_tick_of_late hs hw hq hl]
  refine ⟨?_, ?_, ?_⟩
  · rw [Prim.time_tier, only_tier hcount (by decide), lateStalled_stalls hs]
    exact if_pos rfl
  · rw [time_getF, countWaiting_episodes, lateStalled_episodes hs]
  · rw [Prim.time_mem, only_mem hcount (by decide), lateStalled_mem hs]

end

theorem step_of_empty {s : State} (h : s.pending = []) : step s = .next (run tick s) := by rw [step, h]

/-- Settles O53: the tick, where nothing waits and where one read is late. -/
theorem emptyQueueIsTime : Obligations.EmptyQueueIsTime := by
  refine ⟨fun s hp => ⟨run tick s, step_of_empty hp, tick_now s, (run_pending tick s).trans hp, fun hw hs hl hh => ?_⟩,
    fun s u f hp hw hs hq hf hwho hdue hlate => ⟨run tick s, step_of_empty hp, tick_late hs hw hq (lateAccesses_of_fetch hq hf hwho hdue hlate)⟩⟩
  rw [run_tick_of_quiet hw hs hl hh]
  refine ⟨?_, fun r i j hr => ?_⟩
  · rw [run_eq_of_changes_regs (changes_countWaiting s) s]; rfl
  · have hlist : r ∉ RegName.TIER_STALL :: waitRegs := fun h => hr ((by decide : ∀ q ∈ RegName.TIER_STALL :: waitRegs, q ∈ _) r h)
    rw [time_getReg, (writes_countWaiting s).getReg hlist]

end Sys2Proof.Machine

/-! PROOFS. Programs that store nothing but trace records, and how an item of a tile leaves its engine: NOP, RESUME and the wrap of a stream (R90, R91, R96, R109, R130, R423). -/

namespace Sys2Proof.Machine

/-! Without a trace. -/

/-- Where trace does not run, the program stores nothing, and trace does not run after it (R423). -/
def Act.Quiet (a : Act) : Prop := ∀ s, traceOn s = false → (run a s).mem = s.mem ∧ traceOn (run a s) = false

theorem Act.Quiet.mem {a : Act} (h : a.Quiet) {s : State} (hoff : traceOn s = false) : (run a s).mem = s.mem := (h s hoff).1

theorem quiet_skip : Act.Quiet .skip := fun _ hoff => ⟨rfl, hoff⟩

theorem quiet_seq {a b : Act} (ha : a.Quiet) (hb : b.Quiet) : (Act.seq a b).Quiet := fun s hoff =>
  have ⟨hmem, hoff'⟩ := ha s hoff
  have ⟨hmem', hoff''⟩ := hb _ hoff'
  ⟨hmem'.trans hmem, hoff''⟩

theorem quiet_ask {f : State → Act} (h : ∀ s, (f s).Quiet) : (Act.ask f).Quiet := fun s hoff => h s s hoff

theorem quiet_nil : (Act.all []).Quiet := quiet_skip

theorem quiet_cons {a : Act} {l : List Act} (ha : a.Quiet) (hl : (Act.all l).Quiet) : (Act.all (a :: l)).Quiet := quiet_seq ha hl

theorem quiet_when (c : Bool) {a : Act} (h : a.Quiet) : (Act.when c a).Quiet := by cases c <;> [exact quiet_skip; exact h]

theorem quiet_of_writes {k : List Part} {l : List RegName} {a : Act} (hc : a.Changes k) (hm : Part.mem ∉ k) (hchart : Part.chart ∉ k) (hw : a.Writes l)
    (ht : RegName.DBG_TRACE ∉ l) (hs : RegName.DBG_SESS ∉ l) : a.Quiet := fun s hoff =>
  ⟨only_mem hc.only hm s, (hw.traceOn ht hs (only_chart hc.only hchart s)).trans hoff⟩

theorem quiet_of_changes {k : List Part} {a : Act} (h : a.Changes k) (hm : Part.mem ∉ k) (hchart : Part.chart ∉ k) (hr : Part.regs ∉ k) : a.Quiet :=
  quiet_of_writes (l := []) h hm hchart (writes_of_changes h hr) (by decide) (by decide)

theorem quiet_traceItem (u e : Nat) (d : Desc) : (traceItem u e d).Quiet := fun s hoff =>
  ⟨traceItem_mem_of_off hoff u e d, ((writes_traceItem (l := [.COH_HOLDSNP]) (by decide) u e d).traceOn (by decide) (by decide) (traceItem_chart u e d s)).trans hoff⟩

/-- A field outside the registers of the trace port. -/
theorem quiet_setF {f : Fld} (ht : f.reg ≠ .DBG_TRACE) (hs : f.reg ≠ .DBG_SESS) (x i j : Nat) : (setF f x i j).Quiet :=
  quiet_of_writes (changes_setF _ _ _ _) (by decide) (by decide) (writes_setF (List.mem_singleton.mpr rfl) x i j)
    (by simpa using Ne.symm ht) (by simpa using Ne.symm hs)

theorem quiet_addF {f : Fld} (ht : f.reg ≠ .DBG_TRACE) (hs : f.reg ≠ .DBG_SESS) (n i j : Nat) : (addF f n i j).Quiet :=
  quiet_of_writes (changes_addF _ _ _ _) (by decide) (by decide) (writes_addF (List.mem_singleton.mpr rfl) n i j)
    (by simpa using Ne.symm ht) (by simpa using Ne.symm hs)

theorem quiet_signal (u : Nat) (d : Desc) : (signal u d).Quiet :=
  quiet_of_writes (l := [.TILE_SYNC]) (changes_signal u d) (by decide) (by decide) ((within_when _ _).mpr fun _ => writes_incF (by decide) _ _ _) (by decide) (by decide)

theorem quiet_lastItem (u : Nat) (k : Eng) {f : Fld} (ht : f.reg ≠ .DBG_TRACE) (hs : f.reg ≠ .DBG_SESS) (d : Desc) : (lastItem u k f d).Quiet :=
  quiet_ask fun _ => quiet_when _ (quiet_setF ht hs _ _ _)

theorem quiet_passBegin (p : Nat) (d : Desc) : (passBegin p d).Quiet := quiet_of_changes (changes_passBegin p d) (by decide) (by decide) (by decide)
theorem quiet_completionReport (u : Nat) (r : RunItem) : (completionReport u r).Quiet :=
  quiet_of_changes (changes_completionReport u r) (by decide) (by decide) (by decide)
theorem quiet_updEng (u : Nat) (k : Eng) (f : Engine → Engine) : (updEng u k f).Quiet := quiet_of_changes (changes_updEng u k f) (by decide) (by decide) (by decide)

/-! NOP of the matrix sequencer. -/

/-- A NOP that completes (R96). -/
def nopCompletes (s : State) (u : Nat) (d : Desc) : Act :=
  Act.all [passBegin (tilePart s u) d, traceItem u 1 d, updEng u .mx fun e => { e with queue := e.queue.drop 1 }, signal u d,
    addF MX_ITEMS.COUNT 1 u, completionReport u (startRec s u d), traceItem u 2 d]

theorem run_nopItem {s : State} {u : Nat} {d : Desc} (hhead : headItem s u .mx = some d) (ho : dOpcode d = 0) (hwait : waitMet s u d = true) :
    run (nopItem u) s = run (nopCompletes s u d) s := by
  simp [nopItem, nopCompletes, hhead, ho, hwait]

theorem quiet_nopCompletes (s : State) (u : Nat) (d : Desc) : (nopCompletes s u d).Quiet :=
  quiet_cons (quiet_passBegin _ _) <| quiet_cons (quiet_traceItem _ _ _) <| quiet_cons (quiet_updEng _ _ _) <| quiet_cons (quiet_signal _ _) <|
    quiet_cons (quiet_addF (by decide) (by decide) _ _ _) <| quiet_cons (quiet_completionReport _ _) <| quiet_cons (quiet_traceItem _ _ _) quiet_nil

section
variable (s : State) (u : Nat) (d : Desc)

theorem nopCompletes_tile : getTile (run (nopCompletes s u d) s) u = (getTile s u).withEng .mx { (getTile s u).mx with queue := (getTile s u).mx.queue.drop 1 } := by
  simp [nopCompletes]

theorem nopCompletes_items : getF (run (nopCompletes s u d) s) MX_ITEMS.COUNT u = (getF s MX_ITEMS.COUNT u + 1) % 2 ^ 64 := by
  simp (decide := true) [nopCompletes, show MX_ITEMS.COUNT.width = 64 from rfl]

theorem nopCompletes_macs : getF (run (nopCompletes s u d) s) MX_MACS.COUNT u = getF s MX_MACS.COUNT u := by
  simp (decide := true) [nopCompletes]

theorem nopCompletes_sync : getF (run (nopCompletes s u d) s) TILE_SYNC.VALUE u (dSigctr d) =
    if dSigv d then min (getF s TILE_SYNC.VALUE u (dSigctr d) + 1) 0xFFFF else getF s TILE_SYNC.VALUE u (dSigctr d) := by
  simp (decide := true) [nopCompletes, getF_signal]

end

/-! RESUME of an engine. -/

/-- The item an engine halted on completes without effect (R109). -/
def haltedCompletes (s : State) (u : Nat) (k : Eng) (count extra : Act) (d : Desc) : Act :=
  Act.all [passBegin (tilePart s u) d, updEng u k fun e => { e with halted := none }, extra, signal u d,
    count, completionReport u { startRec s u d with flags := 0, nonfinite := false, rows := [] }, traceItem u 2 d]

theorem run_resumeItem {s : State} {u : Nat} {k : Eng} {d : Desc} (h : ((getTile s u).eng k).halted = some d) (count : Act) (extra : Desc → Act) :
    run (resumeItem u k count extra) s = run (haltedCompletes s u k count (extra d) d) s := by
  simp [resumeItem, haltedCompletes, h]

/-- The state in which a halted engine runs again and its item has begun its pass. -/
def unhalted (s : State) (u : Nat) (k : Eng) (d : Desc) : State := run (updEng u k fun e => { e with halted := none }) (run (passBegin (tilePart s u) d) s)

section
variable (s : State) (u : Nat) (k : Eng) (d : Desc) (f : Fld) (extra : Act)

theorem haltedCompletes_tile : getTile (run (haltedCompletes s u k (addF f 1 u) extra d) s) u = getTile (run extra (unhalted s u k d)) u := by
  simp [haltedCompletes, unhalted]

theorem unhalted_tile : getTile (unhalted s u k d) u = (getTile s u).withEng k { (getTile s u).eng k with halted := none } := by
  simp [unhalted]

variable {l : List RegName} {extra} (hx : extra.Writes l)
include hx

theorem haltedCompletes_items {f : Fld} (hl : f.reg ∉ l) (hfit : f.fits = true) (hsync : TILE_SYNC.VALUE.apart f = true) (htrace : RegName.COH_HOLDSNP ≠ f.reg) :
    getF (run (haltedCompletes s u k (addF f 1 u) extra d) s) f u = (getF s f u + 1) % 2 ^ f.width := by
  simp [haltedCompletes, htrace, hfit, hsync, hx.getF hl]

theorem haltedCompletes_sync {f : Fld} (hl : RegName.TILE_SYNC ∉ l) (hsync : f.apart TILE_SYNC.VALUE = true) :
    getF (run (haltedCompletes s u k (addF f 1 u) extra d) s) TILE_SYNC.VALUE u (dSigctr d) =
      if dSigv d then min (getF s TILE_SYNC.VALUE u (dSigctr d) + 1) 0xFFFF else getF s TILE_SYNC.VALUE u (dSigctr d) := by
  have hextra : ∀ t, getF (run extra t) TILE_SYNC.VALUE u (dSigctr d) = getF t TILE_SYNC.VALUE u (dSigctr d) := hx.getF hl u (dSigctr d)
  simp (decide := true) [haltedCompletes, getF_signal, hsync, hextra]

omit hx in
theorem quiet_haltedCompletes {count : Act} (hcount : count.Quiet) (h : extra.Quiet) : (haltedCompletes s u k count extra d).Quiet :=
  quiet_cons (quiet_passBegin _ _) <| quiet_cons (quiet_updEng _ _ _) <| quiet_cons h <| quiet_cons (quiet_signal _ _) <| quiet_cons hcount <|
    quiet_cons (quiet_completionReport _ _) <| quiet_cons (quiet_traceItem _ _ _) quiet_nil

end

/-- What RESUME of the matrix engine does beside the completion: ITEM names an MMA (R109). -/
def mxNamed (u : Nat) (d : Desc) : Act := Act.when (dOpcode d = 0x10) (lastItem u .mx MX_STAT.ITEM d)

theorem run_mxResume {s : State} {u : Nat} {d : Desc} (h : (getTile s u).mx.halted = some d) :
    run (mxResume u) s = run (haltedCompletes s u .mx (addF MX_ITEMS.COUNT 1 u) (mxNamed u d) d) s :=
  run_resumeItem (k := .mx) h _ _

theorem writes_lastItem (u : Nat) (k : Eng) (f : Fld) (d : Desc) : (lastItem u k f d).Writes [f.reg] :=
  fun _ => (within_when _ _).mpr fun _ => writes_setF (List.mem_singleton.mpr rfl) _ _ _

theorem writes_mxNamed (u : Nat) (d : Desc) : (mxNamed u d).Writes [.MX_STAT] := (within_when _ _).mpr fun _ => writes_lastItem _ _ MX_STAT.ITEM _

theorem quiet_mxNamed (u : Nat) (d : Desc) : (mxNamed u d).Quiet := quiet_when _ (quiet_lastItem _ _ (by decide) (by decide) _)

theorem mxNamed_tile (u : Nat) (d : Desc) (s : State) (v : Nat) : getTile (run (mxNamed u d) s) v = getTile s v :=
  getTile_of_tiles (only_tiles (changes_when (changes_lastItem u .mx MX_STAT.ITEM d)).only (by decide) s) v

/-! The wrap of a stream. -/

theorem streamWrap_spec {s : State} {u n : Nat} (h : 2 ^ 27 ≤ (tileStream s u n).block) :
    let t := run (streamWrap u n) s
    (tileStream t u n).block = (tileStream s u n).block - 2 ^ 27 ∧ Safety.Logged .streamWrap s t ∧ t.regs = s.regs ∧ t.mem = s.mem := by
  have hwrap : run (streamWrap u n) s = run (logEv .streamWrap (u / 128) u) (run (updTile u fun t => { t with
      streams := Cells.put {} t.streams n { Cells.get {} t.streams n with block := (Cells.get {} t.streams n).block - 2 ^ 27 } }) s) := by
    rw [streamWrap, run_ask, if_pos h]; rfl
  dsimp only
  rw [hwrap]
  refine ⟨?_, ?_, ?_, ?_⟩
  · simp [tileStream, Cells.get_put]
  · simp [Safety.Logged, satAdd]
  · rw [logEv_regs, updTile_regs]
  · rw [logEv_mem, updTile_mem]

/-- Settles O15: a NOP, an item that halted its engine, and a stream's wrap, each from what its program does. -/
theorem nopsResumesAndStreamWraps : Obligations.NopsResumesAndStreamWraps := by
  refine ⟨fun s u d hhead ho hwait => ⟨_, rfl, ?nop⟩, fun s u d hhalted => ⟨_, rfl, ?resume⟩, fun s u n h => ⟨_, rfl, streamWrap_spec h⟩⟩
  case nop =>
    rw [run_nopItem hhead ho hwait, nopCompletes_tile]
    exact ⟨rfl, fun _ => rfl, nopCompletes_items s u d, nopCompletes_sync s u d, nopCompletes_macs s u d, (quiet_nopCompletes s u d).mem⟩
  case resume =>
    rw [run_mxResume hhalted, haltedCompletes_tile, mxNamed_tile, unhalted_tile]
    exact ⟨rfl, fun _ => rfl, rfl, haltedCompletes_items s u .mx d (writes_mxNamed u d) (f := MX_ITEMS.COUNT) (by decide) (by decide) (by decide) (by decide),
      haltedCompletes_sync s u .mx d (writes_mxNamed u d) (by decide) (by decide),
      (quiet_haltedCompletes s u .mx d (quiet_addF (by decide) (by decide) _ _ _) (quiet_mxNamed u d)).mem⟩

end Sys2Proof.Machine

/-! PROOFS. The vector engine's items: how one faults and leaves, the image of SPILL, and the bank it frees (R91, R109, R171, R179, R188). -/

namespace Sys2Proof.Machine

/-! Stores of a fixed width, one behind the other. -/

theorem length_flatMap_const {α β : Type} {f : α → List β} {k : Nat} (h : ∀ x, (f x).length = k) (l : List α) : (l.flatMap f).length = k * l.length := by
  induction l with
  | nil => rfl
  | cons x l ih => rw [List.flatMap_cons, List.length_append, h, ih, List.length_cons]; ring

/-- A slice of one of two lists, one behind the other. -/
theorem slice_append_left {b : List Byte} (x : List Byte) {off n : Nat} (h : off + n ≤ b.length) : slice (b ++ x) off n = slice b off n := by
  rw [slice, slice, List.drop_append_of_le_length (by omega), List.take_append_of_le_length (by rw [List.length_drop]; omega)]

theorem slice_append_right {b : List Byte} (x : List Byte) {off : Nat} (n : Nat) (h : b.length ≤ off) : slice (b ++ x) off n = slice x (off - b.length) n := by
  rw [slice, slice, List.drop_append, List.drop_of_length_le h, List.nil_append]

/-- Field `n` of an array of `k`-byte fields. -/
theorem slice_flatMap_range {f : Nat → List Byte} {k : Nat} (h : ∀ x, (f x).length = k) {n m : Nat} (hn : n < m) :
    slice ((List.range m).flatMap f) (k * n) k = f n := by
  induction m with
  | zero => omega
  | succ m ih =>
    have hlen : ((List.range m).flatMap f).length = k * m := by rw [length_flatMap_const h, List.length_range]
    rw [List.range_succ, List.flatMap_append, List.flatMap_singleton]
    obtain hlt | rfl := Nat.lt_succ_iff_lt_or_eq.mp hn
    · have hfit : k * n + k ≤ k * m := by rw [← Nat.mul_succ]; exact Nat.mul_le_mul_left k hlt
      rw [slice_append_left _ (by rw [hlen]; exact hfit), ih hlt]
    · rw [slice_append_right _ _ (by rw [hlen]), hlen, Nat.sub_self, slice, List.drop_zero, List.take_of_length_le (h n).le]

/-- The image of SPILL: S of each element, then E, or zeros where the bank holds integers (R179). -/
theorem spillImage_spec (b : Bank) : (spillImage b).length = 8192 ∧ ∀ n, n < 1024 → slice (spillImage b) (4 * n) 4 = natLe (Cells.get 0 b.s n) 4 ∧
    slice (spillImage b) (4096 + 4 * n) 4 = natLe (if b.kind = some true then 0 else Cells.get 0 b.e n) 4 := by
  have hlen : ∀ get : Nat → Nat, ((List.range 1024).flatMap fun n => natLe (get n) 4).length = 4096 := fun get => by
    rw [length_flatMap_const (k := 4) (fun n => length_natLe _ _), List.length_range]
  refine ⟨by rw [spillImage, List.length_append, hlen, hlen], fun n hn => ⟨?_, ?_⟩⟩
  · rw [spillImage, slice_append_left _ (by rw [hlen]; omega)]
    exact slice_flatMap_range (fun _ => length_natLe _ _) hn
  · rw [spillImage, slice_append_right _ _ (by rw [hlen]; omega), hlen, Nat.add_sub_cancel_left]
    exact slice_flatMap_range (f := fun n => natLe (if b.kind = some true then 0 else Cells.get 0 b.e n) 4) (fun _ => length_natLe _ _) hn

/-! The bank that a completed item frees (R171). -/

/-- A tile after an item has freed the bank it names. -/
def Tile.freed (t : Tile) (d : Desc) : Tile :=
  match freesBank d with
  | some b => if (t.bank b).st = .full then t.withBank b { t.bank b with st := .free } else t
  | none => t

/-- An item frees its bank, where it frees one. -/
def bankFreed (u : Nat) (d : Desc) : Act :=
  match freesBank d with
  | some b => freeBank u b
  | none => .skip

theorem bankFreed_tile (u : Nat) (d : Desc) (s : State) : getTile (run (bankFreed u d) s) u = (getTile s u).freed d := by
  unfold bankFreed Tile.freed
  split
  · rw [freeBank, getTile_updTile_same]
  · rfl

theorem changes_bankFreed (u : Nat) (d : Desc) : (bankFreed u d).Changes [.tiles] := by
  unfold bankFreed
  split
  · exact changes_freeBank _ _
  · exact changes_skip

theorem quiet_bankFreed (u : Nat) (d : Desc) : (bankFreed u d).Quiet := quiet_of_changes (changes_bankFreed u d) (by decide) (by decide) (by decide)

section
variable (t : Tile) (d : Desc)

@[simp] theorem Tile.freed_vx : (t.freed d).vx = t.vx := by
  unfold Tile.freed
  split
  · split <;> simp
  · rfl

@[simp] theorem Tile.freed_bufs : (t.freed d).bufs = t.bufs := by
  unfold Tile.freed
  split
  · split <;> simp
  · rfl

variable {t d} {b : Nat}

theorem Tile.freed_bank_of_full (hb : freesBank d = some b) (h : (t.bank b).st = .full) : ((t.freed d).bank b).st = .free := by
  simp [Tile.freed, hb, h]

theorem Tile.freed_bank_of_not_full (hb : freesBank d = some b) (h : (t.bank b).st ≠ .full) : (t.freed d).bank b = t.bank b := by
  simp [Tile.freed, hb, h]

theorem Tile.freed_of_none (hb : freesBank d = none) : t.freed d = t := by
  simp [Tile.freed, hb]

end

/-! Completion. -/

/-- The oldest item in progress completes (R144, R171). -/
def vecCompletes (u : Nat) (r : RunItem) (rest : List RunItem) : Act :=
  Act.all [updEng u .vx fun e => { e with run := rest }, bankFreed u r.desc, addF VX_ITEMS.COUNT 1 u, signal u r.desc, completionReport u r, traceItem u 2 r.desc]

theorem run_vecComplete {s : State} {u : Nat} {r : RunItem} {rest : List RunItem} (hclock : tileRuns s u = true) (h : (getTile s u).vx.run = r :: rest) :
    run (clocked u (vecComplete u)) s = run (vecCompletes u r rest) s := by
  rw [clocked, run_ask, run_when, if_pos hclock, vecComplete, run_ask, h]
  rfl

theorem quiet_vecCompletes (u : Nat) (r : RunItem) (rest : List RunItem) : (vecCompletes u r rest).Quiet :=
  quiet_cons (quiet_updEng _ _ _) <| quiet_cons (quiet_bankFreed _ _) <| quiet_cons (quiet_addF (by decide) (by decide) _ _ _) <| quiet_cons (quiet_signal _ _) <|
    quiet_cons (quiet_completionReport _ _) <| quiet_cons (quiet_traceItem _ _ _) quiet_nil

section
variable (s : State) (u : Nat) (r : RunItem) (rest : List RunItem)

theorem vecCompletes_tile : getTile (run (vecCompletes u r rest) s) u = ((getTile s u).withEng .vx { (getTile s u).vx with run := rest }).freed r.desc := by
  simp [vecCompletes, bankFreed_tile]

theorem bankFreed_getF (d : Desc) (f : Fld) (i j : Nat) : getF (run (bankFreed u d) s) f i j = getF s f i j :=
  (writes_of_changes (l := []) (changes_bankFreed u d) (by decide)).getF List.not_mem_nil i j s

theorem vecCompletes_items : getF (run (vecCompletes u r rest) s) VX_ITEMS.COUNT u = (getF s VX_ITEMS.COUNT u + 1) % 2 ^ 64 := by
  simp (decide := true) [vecCompletes, bankFreed_getF, show VX_ITEMS.COUNT.width = 64 from rfl]

theorem vecCompletes_sync : getF (run (vecCompletes u r rest) s) TILE_SYNC.VALUE u (dSigctr r.desc) =
    if dSigv r.desc then min (getF s TILE_SYNC.VALUE u (dSigctr r.desc) + 1) 0xFFFF else getF s TILE_SYNC.VALUE u (dSigctr r.desc) := by
  simp (decide := true) [vecCompletes, getF_signal, bankFreed_getF]

end

/-! RESUME. -/

/-- What RESUME of the vector engine does beside the completion: ITEM names the item, and its bank is freed (R109, R171). -/
def vecNamed (u : Nat) (d : Desc) : Act := .seq (lastItem u .vx VX_STAT.ITEM d) (bankFreed u d)

theorem run_vxResume {s : State} {u : Nat} {d : Desc} (h : (getTile s u).vx.halted = some d) :
    run (vxResume u) s = run (haltedCompletes s u .vx (addF VX_ITEMS.COUNT 1 u) (vecNamed u d) d) s :=
  run_resumeItem (k := .vx) h _ _

theorem writes_vecNamed (u : Nat) (d : Desc) : (vecNamed u d).Writes [.VX_STAT] :=
  ⟨writes_lastItem u .vx VX_STAT.ITEM d, writes_of_changes (changes_bankFreed u d) (by decide)⟩

theorem quiet_vecNamed (u : Nat) (d : Desc) : (vecNamed u d).Quiet := quiet_seq (quiet_lastItem _ _ (by decide) (by decide) _) (quiet_bankFreed u d)

theorem vecNamed_tile (u : Nat) (d : Desc) (s : State) : getTile (run (vecNamed u d) s) u = (getTile s u).freed d := by
  rw [vecNamed, run_seq, bankFreed_tile, getTile_of_tiles (only_tiles (changes_lastItem u .vx VX_STAT.ITEM d).only (by decide) s)]

/-! A reserved opcode. -/

section
variable {s : State} {u : Nat} {d : Desc} (hhead : headItem s u .vx = some d)
include hhead

/-- A head item with a reserved opcode waits for no bank and faults (R188). -/
theorem run_vecItem_of_reserved (o : Nat) (hop : isVecOp (dOpcode d) = false) (hwait : waitMet s u d = true) :
    run (vecItem u o) s = run (itemFault u .vx .VX_FAULT .vxFault d 1) s := by
  have hready : vecBankReady (getTile s u) d = true := by simp [vecBankReady, vecBank, hop]
  have hcode : vxFaultCode d (fun b => (getTile s u).bank b) = 1 := by simp [vxFaultCode, hop]
  simp [vecItem, hhead, hop, hwait, hready, hcode]

/-- A head item that waits for nothing and does not fault starts. -/
theorem run_vecItem_of_starts {o : Nat} (ho : dOpcode d = o) (hwait : waitMet s u d = true) (hready : vecBankReady (getTile s u) d = true)
    (hcode : vxFaultCode d (fun b => (getTile s u).bank b) = 0) : run (vecItem u o) s = run (vecBegin u d) s := by
  simp [vecItem, hhead, ho, hwait, hready, hcode]

end

/-- A vector item that faults: the sequencer halts on it, and the registers name it; buffers and banks stay (R109, R188). -/
theorem vxFault_spec (s : State) (u : Nat) (d : Desc) {code : Nat} (hc : code < 256) :
    let t := run (itemFault u .vx .VX_FAULT .vxFault d code) s
    (getTile t u).vx = { (getTile s u).vx with queue := (getTile s u).vx.queue.drop 1, halted := some d } ∧
      getF t VX_FAULT.CODE u = code ∧ getF t VX_FAULT.OPCODE u = dOpcode d ∧ getF t VX_FAULT.ITEM u = dItem d ∧ Safety.Logged .vxFault s t ∧
      (getTile t u).bufs = (getTile s u).bufs ∧ (∀ b, (getTile t u).bank b = (getTile s u).bank b) := by
  obtain ⟨hcode, hitem⟩ := faultWord_fields d hc
  have hword : ∀ f : Fld, f.reg = .VX_FAULT → f.fits = true → getF (run (itemFault u .vx .VX_FAULT .vxFault d code) s) f u =
      bitsOf (BitVec.ofNat 64 (code + dOpcode d * 256 + dItem d * 2 ^ 32)).toNat f.lo f.width := by
    intro f hreg hf
    simp only [itemFault, run_all_cons, run_all_nil, run_prim]
    rw [traceItem_getF _ _ _ _ _ _ _ (by rw [hreg]; decide), logEv_getF, ← hreg]
    exact getF_apply_reg hf u 0 _ _
  refine ⟨?_, (hword _ rfl (by decide)).trans hcode, (hword _ rfl (by decide)).trans (faultWord_opcode d hc), (hword _ rfl (by decide)).trans hitem, ?_, ?_, fun b => ?_⟩
  · simp [itemFault]
  · simp [itemFault, Safety.Logged, satAdd]
  · simp [itemFault]
  · simp [itemFault]

end Sys2Proof.Machine

/-! PROOFS. How a vector item starts: what it writes, what a COPY in progress makes of it, what it leaves alone (R166, R171, R176 to R179, R187); and the vector engine's items as a whole. -/

namespace Sys2Proof.Machine

/-! What programs leave of a tile. -/

/-- A program leaves what `g` reads of a tile alone. -/
abbrev Act.KeepsTile {α : Type} (g : Tile → α) (u : Nat) (a : Act) : Prop := a.Within fun p => ∀ s, g (getTile (p.apply s) u) = g (getTile s u)

section
variable {α : Type} {g : Tile → α} {u : Nat}

theorem Act.KeepsTile.run_eq {a : Act} (h : a.KeepsTile g u) (s : State) : g (getTile (run a s) u) = g (getTile s u) :=
  run_same (fun s => g (getTile s u)) h s

theorem keepsTile_of_changes {l : List Part} {a : Act} (h : a.Changes l) (hl : Part.tiles ∉ l) : a.KeepsTile g u :=
  Act.Within.mono (fun p hp s => by
    cases p
    case tiles => exact absurd hp hl
    all_goals rfl) h.only

theorem keepsTile_updTile (v : Nat) {f : Tile → Tile} (h : ∀ t, g (f t) = g t) : (updTile v f).KeepsTile g u := fun s => by
  have hupd : getTile (run (updTile v f) s) u = if u = v then f (getTile s v) else getTile s u := getTile_updTile ..
  rw [updTile, run_prim] at hupd
  rw [hupd]
  split
  case isTrue huv => rw [h, huv]
  case isFalse => rfl

end

/-! A COPY in progress, as a write into the buffers meets it (R166). -/

/-- What a write into the buffers never changes of a tile: its vector sequencer, its tile DMA and its banks. -/
def Tile.unblurred (t : Tile) : Engine × Engine × Bank × Bank := (t.vx, t.dma, t.bankA, t.bankB)

theorem keepsTile_blurCopy (u : Nat) (new old : FMap Byte) : (blurCopy u new old).KeepsTile Tile.unblurred u := by
  refine ⟨fun _ s => (within_each _ _).mpr fun r _ => ?_, fun _ => rfl⟩
  dsimp only
  split
  · exact (within_each _ _).mpr fun _ _ => keepsTile_of_changes (changes_mapWrite _ _ _ _) (by decide)
  · exact keepsTile_updTile u fun _ => rfl
  · exact keepsTile_updTile u fun _ => rfl

theorem writes_blurCopy (u : Nat) (new old : FMap Byte) : (blurCopy u new old).Writes [.COH_HOLDSNP] := by
  refine ⟨fun _ s => (within_each _ _).mpr fun r _ => ?_, trivial⟩
  dsimp only
  split
  · exact (within_each _ _).mpr fun _ _ => writes_mapWrite (by decide) _ _ _ _
  · exact writes_of_changes (changes_updTile _ _) (by decide)
  · exact writes_of_changes (changes_updTile _ _) (by decide)

theorem copyChanged_of_other {d : Desc} (h : (dOpcode d = 0x80 && addrSpace d 0x10 = 2) = false) (new old : FMap Byte) : copyChanged new old d = [] := by
  rw [copyChanged, h]
  exact if_neg Bool.false_ne_true

/-- A tile and memory. -/
def tileAndMem (u : Nat) (s : State) : Tile × FMap Byte := (getTile s u, s.mem)

theorem tileAndMem_updTile {f : Tile → Tile} (h : ∀ t, f t = t) (u : Nat) (s : State) : tileAndMem u (run (updTile u f) s) = tileAndMem u s := by
  rw [tileAndMem, getTile_updTile_same, h, updTile_mem]
  rfl

/-- Where no COPY reads the buffers, a write into them changes nothing of the tile beyond, and nothing of memory. -/
theorem blurCopy_of_none {s : State} {u : Nat} (h : copyReadsBufs (getTile s u) = false) (new old : FMap Byte) :
    tileAndMem u (run (blurCopy u new old) s) = tileAndMem u s := by
  have hnone : ∀ r ∈ (getTile s u).dma.run, copyChanged new old r.desc = [] := fun r hr =>
    copyChanged_of_other (Bool.eq_false_iff.mpr (List.any_eq_false.mp h r hr)) new old
  refine run_each_same (tileAndMem u) (fun r hr t => ?_) s
  simp only [hnone r hr, List.filter_nil]
  split
  · rfl
  · exact tileAndMem_updTile (fun t => by simp [addOld]) u t
  · exact tileAndMem_updTile (fun t => rfl) u t

/-! The start of a vector item. -/

/-- The item begins its pass and leaves the list. -/
def vecEnters (u : Nat) (r : RunItem) : Act :=
  Act.all [.ask fun s => passBegin (tilePart s u) r.desc, traceItem u 1 r.desc, setF VX_STAT.ITEM (dItem r.desc) u, updEng u .vx fun e => { e with queue := e.queue.drop 1 }]

/-- The item is in progress, with what it wrote and what it overwrote. -/
def vecWrites (u : Nat) (r : RunItem) (bufs : FMap Byte) (dst len fl : Nat) : Act :=
  updTile u fun t => { t with bufs := bufs, vx := { t.vx with run := t.vx.run ++ [{ r with flags := fl, oldBuf := diffBytes t.bufs bufs (0x1000 * dst) len }] } }

/-- A COPY in progress may have read what the item overwrote. -/
def vecBlurs (u : Nat) : Act :=
  .ask fun s => Act.when (!(getTile s u).dma.run.isEmpty && !(lastOld s u).isEmpty) (blurCopy u (getTile s u).bufs (lastOld s u))

/-- The flags and the issue interval of the item count. -/
def vecCounts (u : Nat) (r : RunItem) (fl : Nat) : Act := .seq (orFlags .VX_FLAGS u (dCc r.desc) fl) (addF VX_BUSYCYC.COUNT (issueInterval r.desc) u)

theorem run_vecStart (u : Nat) (r : RunItem) (bufs : FMap Byte) (dst len fl : Nat) (extra : Act) (s : State) :
    run (vecStart u r bufs dst len fl extra) s =
      run (vecCounts u r fl) (run (vecBlurs u) (run (vecWrites u r bufs dst len fl) (run extra (run (vecEnters u r) s)))) := rfl

/-- What the reports of an OUT never change of a tile: its engines, its banks, the buffers and the operand store. -/
def Tile.work (t : Tile) : Engine × Engine × Engine × Bank × Bank × FMap Byte × FMap Byte := (t.mx, t.vx, t.dma, t.bankA, t.bankB, t.bufs, t.op)

section
variable (u : Nat) (r : RunItem) (bufs : FMap Byte) (dst len fl : Nat) {extra : Act} (s : State)

theorem vecEnters_tile : getTile (run (vecEnters u r) s) u = (getTile s u).withEng .vx { (getTile s u).vx with queue := (getTile s u).vx.queue.drop 1 } := by
  simp [vecEnters]

theorem vecEnters_item : getF (run (vecEnters u r) s) VX_STAT.ITEM u = dItem r.desc := by
  have hitem : dItem r.desc % 2 ^ VX_STAT.ITEM.width = dItem r.desc := Nat.mod_eq_of_lt (bitsOf_lt _ _ _)
  simp (decide := true) [vecEnters, hitem]

theorem vecEnters_busy : getF (run (vecEnters u r) s) VX_BUSYCYC.COUNT u = getF s VX_BUSYCYC.COUNT u := by
  simp (decide := true) [vecEnters]

theorem quiet_vecEnters : (vecEnters u r).Quiet :=
  quiet_cons (quiet_ask fun _ => quiet_passBegin _ _) <| quiet_cons (quiet_traceItem _ _ _) <| quiet_cons (quiet_setF (by decide) (by decide) _ _ _) <|
    quiet_cons (quiet_updEng _ _ _) quiet_nil

theorem vecCounts_tiles : (run (vecCounts u r fl) s).tiles = s.tiles :=
  only_tiles (l := [.regs]) (changes_seq (changes_orFlags _ _ _ _) (changes_addF _ _ _ _)).only (by decide) s

theorem vecCounts_mem : (run (vecCounts u r fl) s).mem = s.mem :=
  only_mem (l := [.regs]) (changes_seq (changes_orFlags _ _ _ _) (changes_addF _ _ _ _)).only (by decide) s

theorem writes_orFlags (q : RegName) (cc : Bool) : (orFlags q u cc fl).Writes [q] := fun _ => List.mem_singleton.mpr rfl

theorem vecCounts_item : getF (run (vecCounts u r fl) s) VX_STAT.ITEM u = getF s VX_STAT.ITEM u := by
  rw [vecCounts, run_seq, getF_addF_apart (by decide), (writes_orFlags u fl .VX_FLAGS _).getF (by decide)]

theorem vecCounts_busy : getF (run (vecCounts u r fl) s) VX_BUSYCYC.COUNT u = (getF s VX_BUSYCYC.COUNT u + issueInterval r.desc) % 2 ^ 64 := by
  rw [vecCounts, run_seq, getF_addF_fits (f := VX_BUSYCYC.COUNT) (by decide), (writes_orFlags u fl .VX_FLAGS _).getF (by decide)]
  rfl

theorem keepsTile_vecBlurs : (vecBlurs u).KeepsTile Tile.unblurred u := fun _ => (within_when _ _).mpr fun _ => keepsTile_blurCopy _ _ _

theorem writes_vecBlurs : (vecBlurs u).Writes [.COH_HOLDSNP] := fun _ => (within_when _ _).mpr fun _ => writes_blurCopy _ _ _

variable {s} in
theorem vecBlurs_of_none (h : copyReadsBufs (getTile s u) = false) : tileAndMem u (run (vecBlurs u) s) = tileAndMem u s := by
  rw [vecBlurs, run_ask, run_when]
  split
  · exact blurCopy_of_none h _ _
  · rfl

end

/-- A tile after a vector item has started, before a COPY in progress meets its write: the item `r` is in progress, with its result in the buffers. -/
def Tile.started (t : Tile) (r : RunItem) (bufs : FMap Byte) : Tile :=
  { t with bufs := bufs, vx := { t.vx with queue := t.vx.queue.drop 1, run := t.vx.run ++ [r] } }

section
variable {u : Nat} {r : RunItem} {bufs : FMap Byte} {dst len fl : Nat} {extra : Act} {s : State}

theorem vecWrites_tile (hx : extra.KeepsTile Tile.work u) : ∃ x : RunItem, x.desc = r.desc ∧
    (getTile (run (vecWrites u r bufs dst len fl) (run extra (run (vecEnters u r) s))) u).work = ((getTile s u).started x bufs).work := by
  have hkept := hx.run_eq (run (vecEnters u r) s)
  rw [vecEnters_tile] at hkept
  rw [vecWrites, getTile_updTile_same]
  generalize getTile (run extra (run (vecEnters u r) s)) u = m at hkept ⊢
  simp only [Tile.work, Prod.mk.injEq] at hkept
  obtain ⟨hmx, hvx, hdma, hA, hB, -, hop⟩ := hkept
  refine ⟨{ r with flags := fl, oldBuf := diffBytes m.bufs bufs (0x1000 * dst) len }, rfl, ?_⟩
  simp only [Tile.work, Tile.started, hmx, hvx, hdma, hA, hB, hop]
  rfl

/-- What a vector item's start does to its tile and its registers, with the buffers it writes (R91, R166, R171). -/
structure VecStarted (u : Nat) (d : Desc) (bufs : FMap Byte) (s t : State) : Prop where
  enters : ∃ r : RunItem, r.desc = d ∧ (getTile t u).vx.queue = (getTile s u).vx.queue.drop 1 ∧ (getTile t u).vx.run = (getTile s u).vx.run ++ [r]
  item : getF t VX_STAT.ITEM u = dItem d
  busy : getF t VX_BUSYCYC.COUNT u = (getF s VX_BUSYCYC.COUNT u + issueInterval d) % 2 ^ 64
  dma : (getTile t u).dma = (getTile s u).dma
  banks : ∀ b, (getTile t u).bank b = (getTile s u).bank b
  work : copyReadsBufs (getTile s u) = false → (getTile t u).bufs = bufs ∧ (getTile t u).mx = (getTile s u).mx ∧ (getTile t u).op = (getTile s u).op

/-- Open values that are used up change nothing of it. -/
theorem VecStarted.fresh {d : Desc} {t : State} (h : VecStarted u d bufs s t) : VecStarted u d bufs s (Prim.apply .fresh t) :=
  ⟨h.enters, h.item, h.busy, h.dma, h.banks, h.work⟩

theorem vecStart_started (hx : extra.KeepsTile Tile.work u) (hw : extra.Writes [.COH_HOLDSNP]) :
    VecStarted u r.desc bufs s (run (vecStart u r bufs dst len fl extra) s) := by
  obtain ⟨x, hdesc, hwork⟩ := vecWrites_tile (bufs := bufs) (dst := dst) (len := len) (fl := fl) (r := r) (s := s) hx
  have hregs : ∀ f : Fld, f.reg ≠ .COH_HOLDSNP → getF (run (vecBlurs u) (run (vecWrites u r bufs dst len fl) (run extra (run (vecEnters u r) s)))) f u =
      getF (run (vecEnters u r) s) f u := fun f hf => by
    have hl : f.reg ∉ [RegName.COH_HOLDSNP] := by simpa using hf
    rw [(writes_vecBlurs u).getF hl, vecWrites, updTile_getF, hw.getF hl]
  have hblurs := (keepsTile_vecBlurs u).run_eq (run (vecWrites u r bufs dst len fl) (run extra (run (vecEnters u r) s)))
  have hnone := vecBlurs_of_none (u := u) (s := run (vecWrites u r bufs dst len fl) (run extra (run (vecEnters u r) s)))
  generalize hm : run (vecWrites u r bufs dst len fl) (run extra (run (vecEnters u r) s)) = m at hwork hregs hblurs hnone
  simp only [Tile.work, Tile.started, Prod.mk.injEq] at hwork
  obtain ⟨hmx, hvx, hdma, hA, hB, hbufs, hop⟩ := hwork
  simp only [Tile.unblurred, Prod.mk.injEq] at hblurs
  obtain ⟨hvx', hdma', hA', hB'⟩ := hblurs
  rw [run_vecStart, hm]
  have htile : getTile (run (vecCounts u r fl) (run (vecBlurs u) m)) u = getTile (run (vecBlurs u) m) u := getTile_of_tiles (vecCounts_tiles u r fl _) u
  refine ⟨⟨x, hdesc, ?_, ?_⟩, ?_, ?_, ?_, fun b => ?_, fun hcopy => ?_⟩
  · rw [htile, hvx', hvx]
  · rw [htile, hvx', hvx]
  · rw [vecCounts_item, hregs _ (by decide), vecEnters_item]
  · rw [vecCounts_busy, hregs _ (by decide), vecEnters_busy]
  · rw [htile, hdma', hdma]
  · rw [htile, Tile.bank, Tile.bank, hA', hB', hA, hB]
  · have hsame := congrArg Prod.fst (hnone (by rw [copyReadsBufs, hdma]; exact hcopy))
    simp only [tileAndMem] at hsame
    rw [htile, hsame]
    exact ⟨hbufs, hmx, hop⟩

/-- Where no COPY reads the buffers and trace does not run, a start stores nothing but what the item itself reports. -/
theorem vecStart_mem (hx : extra.KeepsTile Tile.work u) (hq : extra.Quiet) (hcopy : copyReadsBufs (getTile s u) = false) (hoff : traceOn s = false) :
    (run (vecStart u r bufs dst len fl extra) s).mem = s.mem := by
  obtain ⟨x, -, hwork⟩ := vecWrites_tile (bufs := bufs) (dst := dst) (len := len) (fl := fl) (r := r) (s := s) hx
  simp only [Tile.work, Tile.started, Prod.mk.injEq] at hwork
  obtain ⟨-, -, hdma, -⟩ := hwork
  have hnone := congrArg Prod.snd (vecBlurs_of_none (u := u) (s := run (vecWrites u r bufs dst len fl) (run extra (run (vecEnters u r) s)))
    (by rw [copyReadsBufs, hdma]; exact hcopy))
  simp only [tileAndMem] at hnone
  rw [run_vecStart, vecCounts_mem, hnone, vecWrites, updTile_mem]
  exact (quiet_seq (quiet_vecEnters u r) hq).mem hoff

end

/-! OUT, SPILL, FREE and WIN. -/

section
variable (u : Nat) (d : Desc) (s : State)

theorem freeStart_started : VecStarted u d (getTile s u).bufs s (run (freeStart u d) s) :=
  vecStart_started (r := startRec s u d) trivial trivial

theorem spillStart_started : VecStarted u d (putBytes (getTile s u).bufs [(0x1000 * vDst d, spillImage (spilled (getTile s u) d))]) s (run (spillStart u d) s) :=
  vecStart_started (r := startRec s u d) trivial trivial

theorem winStart_started : VecStarted u d (writeElems (getTile s u).bufs (wDst d) (dDfmt d) (winWrites (Config.freeValue s.free) (getTile s u) d)) s (run (winStart u d) s) :=
  VecStarted.fresh (vecStart_started (r := startRec s u d) trivial trivial)

theorem writes_markRow (p step row : Nat) : (markRow p step row).Writes [.COH_HOLDSNP] := by
  intro s
  dsimp only
  split
  · exact writes_pkgWrite (by decide) _ _
  · trivial

theorem outStart_started : VecStarted u d (writeElems (getTile s u).bufs (vDst d) (dDfmt d) (outWrites (Config.freeValue s.free) s u d)) s (run (outStart u d) s) := by
  refine VecStarted.fresh (vecStart_started (r := { startRec s u d with nonfinite := _, rows := _ }) ⟨?_, ?_, ?_, ?_, trivial⟩ ⟨?_, ?_, ?_, ?_, trivial⟩)
  · exact (within_when _ _).mpr fun _ => keepsTile_updTile u fun _ => rfl
  · exact (within_when _ _).mpr fun _ => keepsTile_of_changes (changes_amaxReport _ _ _) (by decide)
  · exact (within_when _ _).mpr fun _ => keepsTile_of_changes (changes_gradSeen _ _ _) (by decide)
  · exact (within_when _ _).mpr fun _ => (within_each _ _).mpr fun _ _ => keepsTile_of_changes (changes_markRow _ _ _) (by decide)
  · exact (within_when _ _).mpr fun _ => writes_of_changes (changes_takeBlocks _ _ _ _) (by decide)
  · exact (within_when _ _).mpr fun _ => writes_amaxReport _ _ _
  · exact (within_when _ _).mpr fun _ => writes_of_changes (changes_gradSeen _ _ _) (by decide)
  · exact (within_when _ _).mpr fun _ => (within_each _ _).mpr fun _ _ => writes_markRow _ _ _

variable {u d s} (hcopy : copyReadsBufs (getTile s u) = false) (hoff : traceOn s = false)
include hcopy hoff

theorem freeStart_mem : (run (freeStart u d) s).mem = s.mem := vecStart_mem (extra := .skip) trivial quiet_skip hcopy hoff
theorem spillStart_mem : (run (spillStart u d) s).mem = s.mem := vecStart_mem (extra := .skip) trivial quiet_skip hcopy hoff
theorem winStart_mem : (run (winStart u d) s).mem = s.mem := by
  rw [winStart, run_withFree, run_ask, Prim.fresh_mem]
  exact vecStart_mem (extra := .skip) trivial quiet_skip hcopy hoff

end

/-- A command whose answer is an item's start, with what the start stores where `P`. -/
theorem answer_of_started {c : Instr} {s t : State} {u : Nat} {d : Desc} {bufs : FMap Byte} {P : Prop} (hexec : exec c s = .next t) (h : VecStarted u d bufs s t)
    (hmem : P → copyReadsBufs (getTile s u) = false → traceOn s = false → t.mem = s.mem) :
    ∃ t r, exec c s = .next t ∧ r.desc = d ∧ (getTile t u).vx.queue = (getTile s u).vx.queue.drop 1 ∧ (getTile t u).vx.run = (getTile s u).vx.run ++ [r] ∧
      getF t VX_STAT.ITEM u = dItem d ∧ getF t VX_BUSYCYC.COUNT u = (getF s VX_BUSYCYC.COUNT u + issueInterval d) % 2 ^ 64 ∧
      (getTile t u).dma = (getTile s u).dma ∧ (∀ b, (getTile t u).bank b = (getTile s u).bank b) ∧
      (copyReadsBufs (getTile s u) = false → (getTile t u).bufs = bufs ∧ (getTile t u).mx = (getTile s u).mx ∧ (getTile t u).op = (getTile s u).op ∧
        (P → traceOn s = false → t.mem = s.mem)) := by
  obtain ⟨⟨r, hdesc, hqueue, hrun⟩, hitem, hbusy, hdma, hbanks, hwork⟩ := h
  refine ⟨t, r, hexec, hdesc, hqueue, hrun, hitem, hbusy, hdma, hbanks, fun hcopy => ?_⟩
  obtain ⟨hbufs, hmx, hop⟩ := hwork hcopy
  exact ⟨hbufs, hmx, hop, fun hP hoff => hmem hP hcopy hoff⟩

/-- The commands of the vector sequencer: the head item with an opcode, or a reserved one. -/
theorem exec_vecItem {c : Fin 512 → Instr} (hc : c ∈ ([.add, .sub, .mul, .fma, .max, .min, .abs, .neg, .selgt, .cvt, .exp2, .log2, .recip, .rsqrt, .sqrt, .tanh,
    .rsum, .rmax, .csum, .out, .spill, .free, .win] : List (Fin 512 → Instr))) : ∃ o, ∀ (u : Fin 512) (s : State), exec (c u) s = .next (run (vecItem u o) s) := by
  simp only [List.mem_cons, List.not_mem_nil, or_false] at hc
  rcases hc with rfl | rfl | rfl | rfl | rfl | rfl | rfl | rfl | rfl | rfl | rfl | rfl | rfl | rfl | rfl | rfl | rfl | rfl | rfl | rfl | rfl | rfl | rfl <;>
    exact ⟨_, fun _ _ => rfl⟩

/-- Settles O21: an item's start is its program's, the image and the fault are the rule's, and completion and RESUME free the bank. -/
theorem vectorWriteOutAndCompletion : Obligations.VectorWriteOutAndCompletion := by
  refine ⟨fun c hc s u d hhead ho hwait hready hcode => ?starts, spillImage_spec, fun c hc s u d hhead hop hwait => ?reserved,
    fun s u r rest hclock hr => ⟨_, rfl, ?completes⟩, fun s u d hhalted => ⟨_, rfl, ?resumes⟩⟩
  case starts =>
    have hstart : ∀ {o}, dOpcode d = o → run (vecItem u o) s = run (vecBegin u d) s := fun ho => run_vecItem_of_starts hhead ho hwait hready hcode
    simp only [List.mem_cons, List.not_mem_nil, or_false] at hc
    obtain rfl | rfl | rfl | rfl := hc <;> dsimp only at ho ⊢
    · have hexec : exec (.out u) s = .next (run (outStart u d) s) := congrArg Host.Outcome.next ((hstart ho).trans (by simp only [vecBegin, ho]))
      exact answer_of_started hexec (outStart_started u d s) fun hne => absurd rfl hne
    · have hexec : exec (.spill u) s = .next (run (spillStart u d) s) := congrArg Host.Outcome.next ((hstart ho).trans (by simp only [vecBegin, ho]))
      exact answer_of_started hexec (spillStart_started u d s) fun _ => spillStart_mem
    · have hexec : exec (.free u) s = .next (run (freeStart u d) s) := congrArg Host.Outcome.next ((hstart ho).trans (by simp only [vecBegin, ho]))
      exact answer_of_started hexec (freeStart_started u d s) fun _ => freeStart_mem
    · have hexec : exec (.win u) s = .next (run (winStart u d) s) := congrArg Host.Outcome.next ((hstart ho).trans (by simp only [vecBegin, ho]))
      exact answer_of_started hexec (winStart_started u d s) fun _ => winStart_mem
  case reserved =>
    obtain ⟨o, hexec⟩ := exec_vecItem hc
    exact ⟨_, hexec u s, by rw [run_vecItem_of_reserved hhead o hop hwait]; exact vxFault_spec s u d (by decide)⟩
  case completes =>
    rw [run_vecComplete hclock hr, vecCompletes_tile]
    exact ⟨Tile.freed_vx _ _, vecCompletes_items s u r rest, fun b hb h => Tile.freed_bank_of_full hb h, fun b hb h => Tile.freed_bank_of_not_full hb h,
      fun hnone b => by rw [Tile.freed_of_none hnone]; rfl, vecCompletes_sync s u r rest, Tile.freed_bufs _ _, (quiet_vecCompletes u r rest).mem⟩
  case resumes =>
    rw [run_vxResume hhalted, haltedCompletes_tile, vecNamed_tile, unhalted_tile]
    exact ⟨Tile.freed_vx _ _, haltedCompletes_items s u .vx d (writes_vecNamed u d) (f := VX_ITEMS.COUNT) (by decide) (by decide) (by decide) (by decide),
      fun b hb h => Tile.freed_bank_of_full hb h, fun b hb h => Tile.freed_bank_of_not_full hb h,
      haltedCompletes_sync s u .vx d (writes_vecNamed u d) (by decide) (by decide), Tile.freed_bufs _ _,
      (quiet_haltedCompletes s u .vx d (quiet_addF (by decide) (by decide) _ _ _) (quiet_vecNamed u d)).mem⟩

end Sys2Proof.Machine

/-! PROOFS. The update engine's control: NOP, completion, RESUME and DISCARD, and writes of UPD_LIVE and SCH_CTL.RECALC (R96, R109, R192, R195, R201, R205, R206, R208). -/

namespace Sys2Proof.Machine

/-! An item that leaves the update engine. -/

theorem quiet_updUpd (f : UpdSt → UpdSt) : (updUpd f).Quiet := quiet_of_changes (k := [.upd]) (changes_prim rfl) (by decide) (by decide) (by decide)

theorem quiet_updSignal (d : Desc) : (updSignal d).Quiet := quiet_of_changes (changes_updSignal d) (by decide) (by decide) (by decide)

/-- The SIG of an update item touches the sync counters alone (R192). -/
theorem updSignal_upd (d : Desc) (s : State) : ∃ sync, (run (updSignal d) s).upd = { s.upd with sync := sync } ∧
    Cells.get 0 sync (dSigctr d) = if dSigv d then min (Cells.get 0 s.upd.sync (dSigctr d) + 1) 0xFFFF else Cells.get 0 s.upd.sync (dSigctr d) := by
  rw [updSignal, run_when]
  split
  · exact ⟨_, rfl, by rw [Cells.get_put, if_pos rfl]; rfl⟩
  · exact ⟨_, rfl, rfl⟩

/-- Without a trace, a completion is progress of its unit and nothing else. -/
theorem traceItem_regs_of_off {s : State} (h : traceOn s = false) (u e : Nat) (d : Desc) : (run (traceItem u e d) s).regs = s.regs := by
  have hskip : run (trace u e (dOpcode d) (dItem d)) s = s := by simp only [trace, run_ask, h, Bool.false_eq_true, if_false, run_skip]
  rw [traceItem, run_seq, hskip]
  exact only_regs (changes_when (changes_progress u)).only (by decide) s

/-- The end of an item: its SIG, and the trace of its completion. -/
def updEnds (i : UpdItem) : Act := .seq (updSignal i.desc) (traceItem 512 2 i.desc)

theorem updEnds_upd (i : UpdItem) (s : State) : ∃ sync, (run (updEnds i) s).upd = { s.upd with sync := sync } ∧ Cells.get 0 sync (dSigctr i.desc) =
    if dSigv i.desc then min (Cells.get 0 s.upd.sync (dSigctr i.desc) + 1) 0xFFFF else Cells.get 0 s.upd.sync (dSigctr i.desc) := by
  rw [updEnds, run_seq, traceItem_upd]
  exact updSignal_upd i.desc s

theorem updEnds_item (i : UpdItem) (s : State) : getF (run (updEnds i) s) UPD_STAT.ITEM = getF s UPD_STAT.ITEM := by
  rw [updEnds, run_seq, traceItem_getF _ _ _ _ _ _ _ (by decide), (writes_of_changes (l := []) (changes_updSignal i.desc) (by decide)).getF List.not_mem_nil]

theorem quiet_updEnds (i : UpdItem) : (updEnds i).Quiet := quiet_seq (quiet_updSignal _) (quiet_traceItem _ _ _)

theorem updEnds_regs_of_off {s : State} (h : traceOn s = false) (i : UpdItem) : (run (updEnds i) s).regs = s.regs := by
  rw [updEnds, run_seq, traceItem_regs_of_off (quiet_updSignal i.desc s h).2, only_regs (changes_updSignal i.desc).only (by decide)]

/-- A NOP leaves the list (R96, R191). -/
def updNopTaken (i : UpdItem) : Act := Act.all [traceItem 512 1 i.desc, setF UPD_STAT.ITEM (dItem i.desc), updUpd fun x => { x with queue := x.queue.drop 1 }]

/-- The item in progress leaves the engine (R192). -/
def updDone : Act := updUpd fun x => { x with run := none }

/-- A halt ends; its item is named where none is in progress (R109, R208). -/
def updUnhalted (idle : Bool) (i : UpdItem) : Act := .seq (updUpd fun x => { x with halted := none }) (Act.when idle (setF UPD_STAT.ITEM (dItem i.desc)))

theorem quiet_updNopTaken (i : UpdItem) : (updNopTaken i).Quiet :=
  quiet_cons (quiet_traceItem _ _ _) <| quiet_cons (quiet_setF (by decide) (by decide) _ _ _) <| quiet_cons (quiet_updUpd _) quiet_nil

theorem quiet_updUnhalted (idle : Bool) (i : UpdItem) : (updUnhalted idle i).Quiet :=
  quiet_seq (quiet_updUpd _) (quiet_when _ (quiet_setF (by decide) (by decide) _ _ _))

section
variable {s : State} {i : UpdItem}

theorem run_updNop (hhead : updHead s = some i) (ho : dOpcode i.desc = 0) (hcode : updFaultCode s i = 0) :
    run updNop s = run (.seq (updNopTaken i) (updEnds i)) s := by
  simp [updNop, updNopTaken, updEnds, hhead, ho, hcode]

theorem run_updComplete (hrun : s.upd.run = some i) (hwrote : s.upd.wrote = true) (hslices : slicesRun s i.desc = true) (hputs : putsOpen s 512 = false) :
    run updComplete s = run (.seq updDone (updEnds i)) s := by
  simp [updComplete, updDone, updEnds, hrun, hwrote, hslices, hputs]

theorem run_updResume (h : s.upd.halted = some i) : run updResume s = run (.seq (updUnhalted s.upd.run.isNone i) (updEnds i)) s := by
  simp only [updResume, run_ask, h]
  rfl

variable (s i)

theorem updNopTaken_upd : (run (updNopTaken i) s).upd = { s.upd with queue := s.upd.queue.drop 1 } := by
  simp [updNopTaken, updUpd]

theorem updNopTaken_item : getF (run (updNopTaken i) s) UPD_STAT.ITEM = dItem i.desc := by
  have hitem : dItem i.desc % 2 ^ UPD_STAT.ITEM.width = dItem i.desc := Nat.mod_eq_of_lt (bitsOf_lt _ _ _)
  simp (decide := true) [updNopTaken, updUpd, hitem]

variable (idle : Bool)

theorem updUnhalted_upd : (run (updUnhalted idle i) s).upd = { s.upd with halted := none } := by cases idle <;> rfl

theorem updUnhalted_getReg {q : RegName} (hq : q ≠ .UPD_STAT) (m n : Nat) : getReg (run (updUnhalted idle i) s) q m n = getReg s q m n := by
  have hnamed : (Act.when idle (setF UPD_STAT.ITEM (dItem i.desc))).Writes [.UPD_STAT] := (within_when _ _).mpr fun _ => writes_setF (by decide) _ _ _
  rw [updUnhalted, run_seq, hnamed.getReg (by simpa using hq), updUpd, run_prim, Prim.upd_getReg]

theorem updUnhalted_item : getF (run (updUnhalted true i) s) UPD_STAT.ITEM = dItem i.desc :=
  (getF_setF_fits (f := UPD_STAT.ITEM) (by decide) (dItem i.desc) 0 0 _).trans (Nat.mod_eq_of_lt (bitsOf_lt _ _ _))

end

/-! DISCARD. -/

theorem getF_each_setF_zero {f : Fld} (hf : f.fits = true) {k : Nat} (hk : k < 65536) {l : List Nat} (hl : ∀ i ∈ l, i < 65536) {s : State}
    (h : k ∈ l ∨ getF s f k = 0) : getF (run (Act.each (fun i => setF f 0 i) l) s) f k = 0 := by
  induction l generalizing s with
  | nil => exact h.resolve_left List.not_mem_nil
  | cons i l ih =>
    obtain ⟨hi, hl⟩ := List.forall_mem_cons.mp hl
    refine ih hl ?_
    by_cases hik : k = i
    · exact .inr (by rw [hik, getF_setF_fits hf, Nat.zero_mod])
    · refine h.imp (fun hmem => (List.mem_cons.mp hmem).resolve_left hik) fun hzero => ?_
      rw [getF_setF_index _ _ _ _ _ _ (.inl (by omega)), hzero]

/-- The pending set's bits and its VALID are cleared. -/
def pendCleared : Act := .seq (Act.each (fun k => setF UPD_PEND.PEND 0 k) (List.range 4)) (setF UPD_PSET.VALID 0)

theorem changes_pendCleared : pendCleared.Changes [.regs] := changes_seq (changes_each fun _ => changes_setF _ _ _ _) (changes_setF _ _ _ _)

theorem writes_pendCleared : pendCleared.Writes [.UPD_PEND, .UPD_PSET] := ⟨(within_each _ _).mpr fun _ _ => writes_setF (by decide) _ _ _, writes_setF (by decide) _ _ _⟩

/-- A pending set is discarded: commands that wait for it end, its bits are cleared, the event and the record (R205). -/
theorem run_discardPending {s : State} (h : getF s UPD_PSET.VALID = 1) : run discardPending s =
    run (logEv .updDiscard 0xFF 512 [getF s UPD_PSET.SET]) (run (evt UPD_EVT.DISCARDED)
      (run (updUpd fun x => { x with extent := x.extent.filter fun e => x.delayed.any fun y => y.1 = e.1 })
        (run pendCleared (run (setDiscarded (BitVec.ofNat 16 (getF s UPD_PSET.SET))) s)))) := by
  simp [discardPending, pendCleared, getB, h]

theorem run_updDiscard_of_idle {s : State} (h : ∀ i, s.upd.run = some i → dOpcode i.desc ≠ 0xC0) : run updDiscard s = run discardPending s := by
  rw [updDiscard, run_ask]
  split
  case h_1 i hi => rw [if_neg (h i hi)]
  case h_2 => rfl

theorem run_updDiscard_of_busy {s : State} {i : UpdItem} (hrun : s.upd.run = some i) (ho : dOpcode i.desc = 0xC0) :
    run updDiscard s = run (logEv .updDiscardIgnored 0xFF 512) s := by
  simp only [updDiscard, run_ask, hrun, ho, if_true]

theorem discardPending_spec {s : State} (h : getF s UPD_PSET.VALID = 1) :
    let t := run discardPending s
    getF t UPD_PSET.VALID = 0 ∧ (∀ k, k < 4 → getF t UPD_PEND.PEND k = 0) ∧ getF t UPD_EVT.DISCARDED = 1 ∧ Safety.Logged .updDiscard s t ∧
      (∀ g, groupLive t g = groupLive s g) := by
  have hset := changes_setDiscarded (BitVec.ofNat 16 (getF s UPD_PSET.SET))
  have hlog : ∀ t, Safety.tally (run pendCleared t) .updDiscard = Safety.tally t .updDiscard := fun t => by
    rw [Safety.tally, only_log changes_pendCleared.only (by decide), Safety.tally]
  dsimp only
  rw [run_discardPending h]
  simp only [updUpd, run_prim]
  refine ⟨?_, fun k hk => ?_, ?_, ?_, groupLive_congr fun k => ?_⟩
  · rw [logEv_getF, getF_evt_apart (by decide), Prim.upd_getF, pendCleared, run_seq, getF_setF_fits (by decide), Nat.zero_mod]
  · rw [logEv_getF, getF_evt_apart (by decide), Prim.upd_getF, pendCleared, run_seq, getF_setF_apart (by decide)]
    exact getF_each_setF_zero (by decide) (by omega) (by decide) (.inl (List.mem_range.mpr hk))
  · rw [logEv_getF, getF_evt_fits (by decide)]
    rfl
  · rw [Safety.Logged, logEv_tally _ _ _ _ _ _ (by decide), if_pos rfl, evt_tally, Prim.upd_tally, hlog, Safety.tally, only_log hset.only (by decide)]
    rfl
  · rw [logEv_getReg, evt, getReg_setF _ _ _ _ _ _ (by decide), Prim.upd_getReg, writes_pendCleared.getReg (by decide), (writes_of_changes (l := []) hset (by decide)).getReg List.not_mem_nil]

/-! UPD_LIVE and RECALC. -/

section
variable {s : State}

theorem updLiveWrite_spec (k : Nat) (v : W64) :
    let t := run (updLiveWrite k v) s
    t.mem = s.mem ∧ (holdsPlan s (updP s) = false → getF t UPD_LIVE.LIVE k = v.toNat ∧ t.log = s.log) ∧
      (holdsPlan s (updP s) = true → t.regs = s.regs ∧ Safety.Logged .updLiveIgnored s t) := by
  dsimp only
  rw [updLiveWrite, run_ask]
  cases holdsPlan s (updP s)
  · refine ⟨setF_mem .., fun _ => ⟨?_, setF_log ..⟩, nofun⟩
    simp only [Bool.false_eq_true, if_false]
    rw [getF_setF_fits (by decide), show UPD_LIVE.LIVE.width = 64 from rfl, Nat.mod_eq_of_lt v.isLt]
  · exact ⟨logEv_mem .., nofun, fun _ => ⟨logEv_regs .., by simp [Safety.Logged, satAdd]⟩⟩

theorem run_schRecalc_of_plan (h : holdsPlan s (updP s) = true) : run schRecalc s = run (logEv .schRecalcIgnored 0xFF 512) s := by
  rw [schRecalc, run_ask, if_pos h]

theorem run_schRecalc_of_none {p : Nat} (hp : updPart? s = some p) (h : holdsPlan s (updP s) = false) : run schRecalc s = run (computeEta (getF s NUM_STEP.STEP p)) s := by
  rw [schRecalc, run_ask, h, if_neg Bool.false_ne_true, hp]

theorem computeEta_mem (step : Nat) : (run (computeEta step) s).mem = s.mem := only_mem (changes_computeEta step).only (by decide) s

/-- The registers of the schedule engine after an exact step size (R206). -/
theorem computeEta_exact {step pos cyc : Nat} {v : FV} (h : etaValue s step = (v, true, pos, cyc)) :
    let t := run (computeEta step) s
    getF t SCH_ETA.ETA = (round32 v).1 % 2 ^ 32 ∧ getF t SCH_POS.POS = pos % 2 ^ SCH_POS.POS.width ∧ getF t SCH_POS.CYCLE = cyc % 2 ^ SCH_POS.CYCLE.width := by
  simp only [computeEta, run_withFree, run_ask, h, if_true, run_all_cons, run_all_nil, Prim.fresh_getF]
  refine ⟨?_, ?_, ?_⟩
  · rw [getF_setF_apart (by decide), getF_setF_apart (by decide), getF_setF_fits (f := SCH_ETA.ETA) (by decide), show SCH_ETA.ETA.width = 32 from rfl]
  · rw [getF_setF_apart (by decide), getF_setF_fits (by decide)]
  · rw [getF_setF_fits (by decide)]

/-- Before ORIGIN the step size is 0. -/
theorem etaValue_before {step : Nat} (h : step < getF s SCH_ORIGIN.ORIGIN) : etaValue s step = (FV.zero, true, 0, 0) := by
  rw [etaValue, if_pos h]

/-- Past warm-up, SHAPE 0 keeps ETAMAX. -/
theorem etaValue_constant {step : Nat} (h : getF s SCH_ORIGIN.ORIGIN + getF s SCH_WARM.W ≤ step) (hshape : getF s SCH_CTL.SHAPE = 0) :
    ∃ pos cyc, etaValue s step = (dec32 (getF s SCH_ETAMAX.ETAMAX), true, pos, cyc) := by
  have horigin : ¬ step < getF s SCH_ORIGIN.ORIGIN := by omega
  have hwarm : ¬ step - getF s SCH_ORIGIN.ORIGIN < getF s SCH_WARM.W := by omega
  exact ⟨_, _, by simp only [etaValue, if_neg horigin, if_neg hwarm, if_pos hshape]; rfl⟩

end

/-- Settles O24: each item's way out of the engine, a pending set's end, and the two registers that a plan holds off. -/
theorem updateControl : Obligations.UpdateControl := by
  refine ⟨fun s i hrun hhead ho hcode => ⟨_, rfl, ?nop⟩, fun s i hrun hwrote hslices hputs => ⟨_, rfl, ?completes⟩, fun s i hhalted => ⟨_, rfl, ?resumes⟩,
    fun s hidle hvalid => ⟨_, rfl, ?discard⟩, fun s i hrun ho => ⟨_, rfl, ?ignored⟩, fun s k v => ⟨_, rfl, updLiveWrite_spec k v⟩,
    fun s p hp hplan hstep => ⟨_, rfl, ?before⟩, fun s p hp hplan hstep hshape => ⟨_, rfl, ?constant⟩, fun s hplan => ⟨_, rfl, ?held⟩⟩
  case nop =>
    obtain ⟨sync, hupd, hsync⟩ := updEnds_upd i (run (updNopTaken i) s)
    rw [updNopTaken_upd] at hupd hsync
    rw [run_updNop hhead ho hcode, run_seq, hupd]
    exact ⟨rfl, hrun, (updEnds_item i _).trans (updNopTaken_item s i), hsync, (quiet_seq (quiet_updNopTaken i) (quiet_updEnds i)).mem⟩
  case completes =>
    obtain ⟨sync, hupd, hsync⟩ := updEnds_upd i (run updDone s)
    rw [run_updComplete hrun hwrote hslices hputs, run_seq, hupd]
    exact ⟨rfl, rfl, hsync, fun hoff => ⟨updEnds_regs_of_off (quiet_updUpd _ s hoff).2 i, (quiet_seq (quiet_updUpd _) (quiet_updEnds i)).mem hoff⟩⟩
  case resumes =>
    obtain ⟨sync, hupd, hsync⟩ := updEnds_upd i (run (updUnhalted s.upd.run.isNone i) s)
    rw [updUnhalted_upd] at hupd hsync
    rw [run_updResume hhalted, run_seq, hupd]
    refine ⟨rfl, rfl, hsync, fun hrun => ?_, fun hoff => ⟨fun r j k hr => ?_, (quiet_seq (quiet_updUnhalted _ i) (quiet_updEnds i)).mem hoff⟩⟩
    · rw [updEnds_item, hrun]
      exact updUnhalted_item s i
    · rw [getReg, updEnds_regs_of_off (quiet_updUnhalted _ i s hoff).2 i]
      exact updUnhalted_getReg s i _ hr j k
  case discard =>
    rw [run_updDiscard_of_idle hidle]
    exact discardPending_spec hvalid
  case ignored =>
    rw [run_updDiscard_of_busy hrun ho]
    exact ⟨by simp [Safety.Logged, satAdd], logEv_regs .., logEv_upd .., logEv_mem ..⟩
  case before =>
    obtain ⟨heta, hpos, hcycle⟩ := computeEta_exact (etaValue_before hstep)
    rw [run_schRecalc_of_none hp hplan]
    exact ⟨heta, hpos.trans (Nat.zero_mod _), hcycle.trans (Nat.zero_mod _), computeEta_mem _⟩
  case constant =>
    obtain ⟨pos, cyc, hvalue⟩ := etaValue_constant hstep hshape
    rw [run_schRecalc_of_none hp hplan]
    exact ⟨(computeEta_exact hvalue).1, computeEta_mem _⟩
  case held =>
    rw [run_schRecalc_of_plan hplan]
    exact ⟨logEv_regs .., by simp [Safety.Logged, satAdd], logEv_mem ..⟩

end Sys2Proof.Machine

/-! PROOFS. What the element operations compute: the sign, NaN, the order of the zeros, and the special values of the transcendental operations (R113, R174, R175, Tables 7-1 and 7-3). -/

namespace Sys2Proof.Machine

/-! The sign. -/

@[simp] theorem FV.neg_neg (v : FV) : v.neg.neg = v := by
  cases v with
  | nan => rfl
  | inf n => exact congrArg FV.inf (Bool.not_not n)
  | fin n m e => exact congrArg (FV.fin · m e) (Bool.not_not n)

@[simp] theorem FV.abs_sign (v : FV) : v.abs.sign = false := by
  cases v <;> rfl

/-! Comparison: numeric, so a NaN, a value itself and zeros of either sign are never greater (R174). -/

theorem FV.gt_fin (n n' : Bool) (m m' : Nat) (e e' : Int) :
    (FV.fin n m e).gt (.fin n' m' e') = decide (0 < FV.cmpInt (.fin n m e) (.fin n' m' e')) := rfl

@[simp] theorem FV.cmpInt_self (v : FV) : FV.cmpInt v v = 0 := Int.sub_self _

@[simp] theorem FV.intAt_zero (base : Int) (n : Bool) (e : Int) : FV.intAt base (.fin n 0 e) = 0 := by
  simp [FV.intAt]

@[simp] theorem FV.cmpInt_zeros (n n' : Bool) (e e' : Int) : FV.cmpInt (.fin n 0 e) (.fin n' 0 e') = 0 := by
  simp [FV.cmpInt]

@[simp] theorem FV.gt_nan_left (v : FV) : FV.nan.gt v = false := rfl

@[simp] theorem FV.gt_nan_right (v : FV) : v.gt .nan = false := by
  cases v <;> rfl

@[simp] theorem FV.gt_self (v : FV) : v.gt v = false := by
  cases v with
  | nan => rfl
  | inf n => cases n <;> rfl
  | fin n m e => simp [FV.gt_fin]

@[simp] theorem FV.gt_zeros (n n' : Bool) (e e' : Int) : (FV.fin n 0 e).gt (.fin n' 0 e') = false := by
  simp [FV.gt_fin]

/-! MAX and MIN: a NaN wins; between zeros, where the comparison does not decide, the sign of the first does (R174). -/

theorem FV.max_nan_left (v : FV) : FV.max .nan v = .nan := rfl

theorem FV.max_nan_right (v : FV) : FV.max v .nan = .nan := if_pos (Bool.or_true _)

theorem FV.min_nan_left (v : FV) : FV.min .nan v = .nan := rfl

theorem FV.min_nan_right (v : FV) : FV.min v .nan = .nan := if_pos (Bool.or_true _)

theorem FV.max_zeros (n n' : Bool) (e e' : Int) : FV.max (.fin n 0 e) (.fin n' 0 e') = if n then .fin n' 0 e' else .fin n 0 e := by
  cases n <;> simp [FV.max, FV.isNan, FV.sign]

theorem FV.min_zeros (n n' : Bool) (e e' : Int) : FV.min (.fin n 0 e) (.fin n' 0 e') = if n then .fin n 0 e else .fin n' 0 e' := by
  cases n <;> simp [FV.min, FV.isNan, FV.sign]

/-! SELGT. -/

theorem elemExact_selgt_of_not_gt {a b : FV} (h : a.gt b = false) (k : Int) (c : FV) : elemExact 0x48 k a b c = (FV.zero, 0) := by
  simp [elemExact, h]

/-! The transcendental operations (Table 7-3). -/

theorem transcSpecial_nan (o : Nat) : transcSpecial o .nan = some .nan := by
  simp [transcSpecial]

/-- Below zero LOG2, RSQRT and SQRT give NaN (R175). -/
theorem transcSpecial_negative {m : Nat} (hm : m ≠ 0) (e : Int) :
    transcSpecial 0x51 (.fin true m e) = some .nan ∧ transcSpecial 0x53 (.fin true m e) = some .nan ∧ transcSpecial 0x54 (.fin true m e) = some .nan := by
  simp [transcSpecial, hm]

/-- Settles O20: the sign, then NaN, then the two zeros, then the columns of Table 7-3. -/
theorem elementResults : Obligations.ElementResults := by
  refine ⟨fun k a b c => ⟨rfl, rfl, FV.abs_sign a, ?negTwice⟩, fun k a c => ?nan, fun k e f c => ?zeros, fun o _ _ => transcSpecial_nan o,
    fun n => ⟨rfl, rfl, rfl, rfl, rfl, rfl⟩, fun n e => ⟨rfl, rfl, rfl, rfl, ⟨.fin n 0 0, rfl, rfl, rfl⟩, ⟨.fin n 0 0, rfl, rfl, rfl⟩⟩,
    fun m e hm => transcSpecial_negative hm e⟩
  case negTwice =>
    exact congrArg (·, 0) (FV.neg_neg a)
  case nan =>
    exact ⟨congrArg (·, 0) (FV.max_nan_left a), congrArg (·, 0) (FV.max_nan_right a), congrArg (·, 0) (FV.min_nan_left a), congrArg (·, 0) (FV.min_nan_right a),
      elemExact_selgt_of_not_gt (FV.gt_nan_left a) k c, elemExact_selgt_of_not_gt (FV.gt_nan_right a) k c, elemExact_selgt_of_not_gt (FV.gt_self a) k c⟩
  case zeros =>
    exact ⟨congrArg FV.sign (FV.max_zeros true false e f), congrArg FV.sign (FV.max_zeros false true f e),
      congrArg FV.sign (FV.min_zeros true false e f), congrArg FV.sign (FV.min_zeros false true f e),
      elemExact_selgt_of_not_gt (FV.gt_zeros false true f e) k c⟩

end Sys2Proof.Machine

/-! PROOFS. Passes: their reports, verdicts and repeats, and what a verdict does on a tile (R144 to R153). -/

namespace Sys2Proof.Machine

/-! A layer's pass and a partition's tiles. -/

@[simp] theorem passOf_setPass (p l : Nat) (y : Option PassSt) (s : State) : passOf (run (setPass p l y) s) p l = y :=
  (Cells.get_put ..).trans (if_pos rfl)

theorem passOf_of_num {s t : State} (h : t.num = s.num) (p l : Nat) : passOf t p l = passOf s p l := by rw [passOf, passOf, h]

theorem tilesOf_of_chart {s t : State} (h : t.chart = s.chart) (p : Nat) : tilesOf t p = tilesOf s p := by rw [tilesOf, tilesOf, theChart, theChart, h]

/-- The units of a partition come from one mask, so no tile is listed twice. -/
theorem nodup_tilesOf (s : State) (p : Nat) : (tilesOf s p).Nodup := by
  refine List.Nodup.filter _ ?_
  rw [Chart.unitsOf]
  split
  · exact List.nodup_range.filter _
  · exact List.nodup_nil

theorem getTile_each_updTile_of_not_mem {f : Tile → Tile} {l : List Nat} {u : Nat} (hu : u ∉ l) (s : State) :
    getTile (run (Act.each (fun v => updTile v f) l) s) u = getTile s u :=
  run_each_same (fun s => getTile s u) (fun v hv s => by rw [getTile_updTile, if_neg (ne_of_mem_of_not_mem hv hu).symm]) s

/-- One update for each tile of a list without repeats reaches each of them once. -/
theorem getTile_each_updTile {f : Tile → Tile} {l : List Nat} (hl : l.Nodup) {u : Nat} (hu : u ∈ l) (s : State) :
    getTile (run (Act.each (fun v => updTile v f) l) s) u = f (getTile s u) := by
  induction l generalizing s with
  | nil => exact absurd hu List.not_mem_nil
  | cons v l ih =>
    obtain ⟨hv, hl⟩ := List.nodup_cons.mp hl
    rw [run_each_cons]
    rcases List.mem_cons.mp hu with rfl | hmem
    · rw [getTile_each_updTile_of_not_mem hv, getTile_updTile_same]
    · rw [ih hl hmem, getTile_updTile, if_neg (ne_of_mem_of_not_mem hmem hv)]

theorem logged_of_log {k : LogKind} {s t w : State} (h : w.log = t.log) (ht : Safety.Logged k s t) : Safety.Logged k s w := by
  rwa [Safety.Logged, Safety.tally, h]

/-- The saturating counters of the numerics units, each 32 bits wide (R146, R149, R159, R160). -/
def numCounters : List Fld := [NUM_COUNT.ROWS, NUM_COUNT.REPEATS, NUM_WATCH_CNT.SAMPLES, NUM_WATCH_CNT.ABANDONED]

theorem numCounters_fit : ∀ f ∈ numCounters, f.fits = true ∧ f.width = 32 := by decide

theorem getF_incF_numCounter {f : Fld} (hf : f ∈ numCounters) (n : Nat) (s : State) : getF (run (incF f n) s) f = min (getF s f + n) (2 ^ 32 - 1) := by
  obtain ⟨hfits, hwidth⟩ := numCounters_fit f hf
  rw [getF_incF_fits hfits, hwidth]

/-! Reports (R144, R151). -/

/-- The state in which the oldest report of a tile has left the tile. -/
def reportTaken (u : Nat) (s : State) : State := run (updNum fun n => { n with reports := dropFirst (fun x => decide (x.unit = u)) n.reports }) s

/-- A pass with one more report. -/
def PassSt.joined (x : PassSt) (r : Report) : PassSt :=
  { x with count := x.count + 1, flags := x.flags ||| r.flags, nonfinite := x.nonfinite || r.nonfinite, rows := dedup (x.rows ++ r.rows),
           ended := decide (x.count + 1 = x.items) }

theorem run_reportArrives {s : State} {u : Nat} {r : Report} (h : s.num.reports.find? (fun r => decide (r.unit = u)) = some r) :
    run (reportArrives u) s = run (mergeReport r) (reportTaken u s) := by
  simp only [reportArrives, run_ask, h, run_all_cons, run_all_nil, reportTaken]

theorem run_mergeReport_of_open {s : State} {r : Report} {x : PassSt} (hx : passOf s r.part r.layer = some x) (hid : r.pass = some x.id) (hopen : x.ended = false) :
    run (mergeReport r) s = run (setPass r.part r.layer (some (x.joined r))) s := by
  simp [mergeReport, hx, hid, hopen, PassSt.joined]

theorem run_mergeReport_of_none {s : State} {r : Report} (hx : passOf s r.part r.layer = none) (hflags : r.flags ≠ 0) :
    run (mergeReport r) s = run (evt NUM_EVT.LATEFLAG) s := by
  simp [mergeReport, hx, hflags]

/-! Verdicts (R145, R146, R149, R150, R153). -/

@[simp] theorem deliverVerdict_regs (p l : Nat) (x : PassSt) (clean : Bool) (s : State) : (run (deliverVerdict p l x clean) s).regs = s.regs :=
  only_regs (changes_deliverVerdict p l x clean).only (by decide) s
@[simp] theorem deliverVerdict_log (p l : Nat) (x : PassSt) (clean : Bool) (s : State) : (run (deliverVerdict p l x clean) s).log = s.log :=
  only_log (changes_deliverVerdict p l x clean).only (by decide) s
@[simp] theorem deliverVerdict_num (p l : Nat) (x : PassSt) (clean : Bool) (s : State) : (run (deliverVerdict p l x clean) s).num = s.num :=
  only_num (changes_deliverVerdict p l x clean).only (by decide) s

theorem getTile_deliverVerdict (p l : Nat) (x : PassSt) (clean : Bool) {s : State} {u : Nat} (hu : u ∈ tilesOf s p) :
    (getTile (run (deliverVerdict p l x clean) s) u).verdicts = (getTile s u).verdicts ++ [{ layer := l, pass := x.id, clean := clean, gate := x.gate }] := by
  rw [deliverVerdict, run_ask, getTile_each_updTile (nodup_tilesOf s p) hu]

/-- How both verdicts end: the pass takes its new state, and the verdict sets out to the tiles. -/
def verdictGiven (p l : Nat) (x y : PassSt) (clean : Bool) : Act := Act.seq (setPass p l (some y)) (deliverVerdict p l x clean)

/-- What a verdict that is given leaves, where what came before changed neither the chart nor a tile. -/
structure VerdictGiven (p l : Nat) (x y : PassSt) (clean : Bool) (s t w : State) : Prop where
  pass : passOf w p l = some y
  tiles : ∀ u ∈ tilesOf s p, (getTile w u).verdicts = (getTile s u).verdicts ++ [{ layer := l, pass := x.id, clean := clean, gate := x.gate }]
  regs : w.regs = t.regs
  log : w.log = t.log
  marked : w.num.marked = t.num.marked

theorem verdictGiven_spec (p l : Nat) (x y : PassSt) (clean : Bool) {a : Act} {k : List Part} (ha : a.Changes k) (hchart : Part.chart ∉ k)
    (htiles : Part.tiles ∉ k) (s : State) : VerdictGiven p l x y clean s (run a s) (run (verdictGiven p l x y clean) (run a s)) where
  pass := by rw [verdictGiven, run_seq, passOf_of_num (deliverVerdict_num ..), passOf_setPass]
  tiles u hu := by
    rw [verdictGiven, run_seq, getTile_deliverVerdict, setPass_getTile, getTile_of_tiles (only_tiles ha.only htiles s)]
    rwa [tilesOf_of_chart ((setPass_chart ..).trans (only_chart ha.only hchart s))]
  regs := by rw [verdictGiven, run_seq, deliverVerdict_regs, setPass_regs]
  log := by rw [verdictGiven, run_seq, deliverVerdict_log, setPass_log]
  marked := by rw [verdictGiven, run_seq, deliverVerdict_num]; rfl

theorem VerdictGiven.getF {p l : Nat} {x y : PassSt} {clean : Bool} {s t w : State} (h : VerdictGiven p l x y clean s t w) (f : Fld) (i j : Nat) :
    getF w f i j = Machine.getF t f i j := by rw [Machine.getF, Machine.getF, getReg, getReg, h.regs]

/-- The rows that a pass at the top rung dropped are counted and logged, and its step is marked (R149, R150, R153). -/
def rowsDropped (p : Nat) (x : PassSt) : Act :=
  Act.when (x.top && !x.rows.isEmpty) (Act.all [incF NUM_COUNT.ROWS x.rows.length, evt NUM_EVT.ROWDROP, logEv .rowDrop (data := [x.rows.length, x.rows.headD 0]),
    Act.when x.dir (markStep p)])

/-- The repeat of a pass that is not clean is counted and logged, and its step is marked (R146, R153). -/
def repeatAsked (p l : Nat) (x : PassSt) : Act := Act.all [incF NUM_COUNT.REPEATS, evt NUM_EVT.REPEAT, repeatRecord p l x, Act.when x.dir (markStep p)]

theorem changes_rowsDropped (p : Nat) (x : PassSt) : (rowsDropped p x).Changes [.regs, .log, .num] :=
  changes_when (changes_cons ((changes_incF _ _ _ _).up rfl) (changes_cons ((changes_evt _ _ _).up rfl) (changes_cons ((changes_logEv _ _ _ _).up rfl)
    (changes_cons (changes_when ((changes_markStep p).up rfl)) changes_nil))))

theorem changes_repeatAsked (p l : Nat) (x : PassSt) : (repeatAsked p l x).Changes [.regs, .log, .num] :=
  changes_cons ((changes_incF _ _ _ _).up rfl) (changes_cons ((changes_evt _ _ _).up rfl) (changes_cons ((changes_repeatRecord p l x).up rfl)
    (changes_cons (changes_when ((changes_markStep p).up rfl)) changes_nil)))

/-! The mark of a step leaves the registers and the logbook. -/

theorem getF_when_markStep (c : Bool) (p : Nat) (f : Fld) (i j : Nat) (s : State) : getF (run (Act.when c (markStep p)) s) f i j = getF s f i j := by
  cases c <;> rfl
theorem log_when_markStep (c : Bool) (p : Nat) (s : State) : (run (Act.when c (markStep p)) s).log = s.log := by
  cases c <;> rfl

theorem mem_marked_markStep (p : Nat) (s : State) : p ∈ (run (markStep p) s).num.marked := by
  rw [markStep, updNum, run_prim, Prim.num_num]
  dsimp only
  split
  next h => exact List.contains_iff_mem.mp h
  next => exact List.mem_append_right _ (List.mem_singleton.mpr rfl)

theorem rowsDropped_of_empty (p : Nat) {x : PassSt} (h : x.rows = []) (s : State) : run (rowsDropped p x) s = s := by
  simp [rowsDropped, h]

theorem run_rowsDropped (p : Nat) {x : PassSt} (htop : x.top = true) (hrows : x.rows ≠ []) (s : State) :
    run (rowsDropped p x) s = run (Act.when x.dir (markStep p)) (run (logEv .rowDrop (data := [x.rows.length, x.rows.headD 0]))
      (run (evt NUM_EVT.ROWDROP) (run (incF NUM_COUNT.ROWS x.rows.length) s))) := by
  have hcond : (x.top && !x.rows.isEmpty) = true := by simp [htop, hrows]
  rw [rowsDropped, run_when, if_pos hcond, run_all_cons, run_all_cons, run_all_cons, run_all_cons, run_all_nil]

section
variable (p : Nat) {x : PassSt} (htop : x.top = true) (hrows : x.rows ≠ []) (s : State)
include htop hrows

theorem rowsDropped_count : getF (run (rowsDropped p x) s) NUM_COUNT.ROWS = min (getF s NUM_COUNT.ROWS + x.rows.length) (2 ^ 32 - 1) := by
  rw [run_rowsDropped p htop hrows, getF_when_markStep, logEv_getF, getF_evt_apart (by decide), getF_incF_numCounter (by decide)]

theorem rowsDropped_evt : getF (run (rowsDropped p x) s) NUM_EVT.ROWDROP = 1 := by
  rw [run_rowsDropped p htop hrows, getF_when_markStep, logEv_getF]
  exact getF_evt_fits (by decide) ..

theorem rowsDropped_logged : Safety.Logged .rowDrop s (run (rowsDropped p x) s) := by
  rw [run_rowsDropped p htop hrows]
  exact logged_of_log (log_when_markStep ..) (logged_logEv (by decide) _ _ _ ((evt_tally ..).trans (incF_tally ..)))

end

theorem run_repeatAsked (p l : Nat) (x : PassSt) (s : State) : run (repeatAsked p l x) s =
    run (Act.when x.dir (markStep p)) (run (repeatRecord p l x) (run (evt NUM_EVT.REPEAT) (run (incF NUM_COUNT.REPEATS) s))) := by
  rw [repeatAsked, run_all_cons, run_all_cons, run_all_cons, run_all_cons, run_all_nil]

section
variable (p l : Nat) (x : PassSt) (s : State)

theorem repeatAsked_count : getF (run (repeatAsked p l x) s) NUM_COUNT.REPEATS = min (getF s NUM_COUNT.REPEATS + 1) (2 ^ 32 - 1) := by
  rw [run_repeatAsked, getF_when_markStep, repeatRecord, run_ask, logEv_getF, getF_evt_apart (by decide), getF_incF_numCounter (by decide)]

theorem repeatAsked_evt : getF (run (repeatAsked p l x) s) NUM_EVT.REPEAT = 1 := by
  rw [run_repeatAsked, getF_when_markStep, repeatRecord, run_ask, logEv_getF]
  exact getF_evt_fits (by decide) ..

theorem repeatAsked_logged : Safety.Logged .layerRepeat s (run (repeatAsked p l x) s) := by
  rw [run_repeatAsked, repeatRecord, run_ask]
  exact logged_of_log (log_when_markStep ..) (logged_logEv (by decide) _ _ _ ((evt_tally ..).trans (incF_tally ..)))

variable {x} in
theorem repeatAsked_marked (hdir : x.dir = true) : p ∈ (run (repeatAsked p l x) s).num.marked := by
  rw [run_repeatAsked, run_when, if_pos hdir]
  exact mem_marked_markStep p _

end

section
variable {s : State} {p l : Nat} {x : PassSt} (hx : passOf s p l = some x) (hend : x.ended = true) (hdec : x.decided = false) (hrep : x.repeating = false)
include hx hend hdec hrep

theorem run_verdict_of_clean (hclean : x.clean = true) :
    run (verdict p l) s = run (verdictGiven p l x { x with decided := true } true) (run (rowsDropped p x) s) := by
  have hdue : (!x.ended || x.decided || x.repeating) = false := by simp [hend, hdec, hrep]
  simp only [verdict, run_ask, hx, hdue, hclean, Bool.false_eq_true, if_false, if_true, verdictGiven, rowsDropped, run_seq, run_all_cons, run_all_nil]

theorem run_verdict_of_unclean (hclean : x.clean = false) :
    run (verdict p l) s = run (verdictGiven p l x { x with decided := true, repeating := true } false) (run (repeatAsked p l x) s) := by
  have hdue : (!x.ended || x.decided || x.repeating) = false := by simp [hend, hdec, hrep]
  simp only [verdict, run_ask, hx, hdue, hclean, Bool.false_eq_true, if_false, layerRepeat, verdictGiven, repeatAsked, run_seq, run_all_cons, run_all_nil]

end

/-! Repeat plans (R146, R147). -/

/-- The items of a repeat plan go ahead of what has not started. -/
def itemsAhead (s : State) (a : Nat) : Act := Act.each (fun e => updTile e.1.unit fun t => t.take (fetchDescs s e.1) true) (planEntries s (planHdr s a))

theorem changes_itemsAhead (s : State) (a : Nat) : (itemsAhead s a).Changes [.tiles] := changes_each fun _ => changes_updTile _ _

section
variable {s : State} {p l : Nat} {x : PassSt} (hx : passOf s p l = some x) (hrep : x.repeating = true) (hfetched : x.fetched = false)
include hx hrep hfetched

theorem run_repeatFetched_of_ok (hok : planOk s p x.nextRep true = true) :
    run (repeatFetched p l) s = Prim.apply .fresh (run (itemsAhead s x.nextRep) (run (setPass p l (some { x with fetched := true })) s)) := by
  have hdue : (!x.repeating || x.fetched) = false := by simp [hrep, hfetched]
  simp only [repeatFetched, run_ask, hx, hdue, hok, Bool.false_eq_true, if_false, if_true]
  rfl

theorem run_repeatFetched_of_bad (hbad : planOk s p x.nextRep true = false) :
    run (repeatFetched p l) s = Prim.apply .fresh (run (logEv .repeatFault) (run (evt NUM_EVT.REPFAULT)
      (run (setPass p l (some { x with decided := false, fetched := true })) s))) := by
  have hdue : (!x.repeating || x.fetched) = false := by simp [hrep, hfetched]
  simp only [repeatFetched, run_ask, hx, hdue, hbad, Bool.false_eq_true, if_false]
  rfl

theorem repeatFetched_ok (hok : planOk s p x.nextRep true = true) :
    let t := run (repeatFetched p l) s
    passOf t p l = some { x with fetched := true } ∧ t.regs = s.regs ∧ t.log = s.log := by
  have hitems := (changes_itemsAhead s x.nextRep).only
  dsimp only
  rw [run_repeatFetched_of_ok hx hrep hfetched hok]
  refine ⟨?_, ?_, ?_⟩
  · rw [passOf_of_num (Prim.fresh_num _), passOf_of_num (only_num hitems (by decide) _), passOf_setPass]
  · rw [Prim.fresh_regs, only_regs hitems (by decide), setPass_regs]
  · rw [Prim.fresh_log, only_log hitems (by decide), setPass_log]

theorem repeatFetched_bad (hbad : planOk s p x.nextRep true = false) :
    let t := run (repeatFetched p l) s
    passOf t p l = some { x with decided := false, fetched := true } ∧ getF t NUM_EVT.REPFAULT = 1 ∧ Safety.Logged .repeatFault s t ∧ t.tiles = s.tiles := by
  dsimp only
  rw [run_repeatFetched_of_bad hx hrep hfetched hbad]
  refine ⟨?_, ?_, logged_of_log (Prim.fresh_log _) (logged_logEv (by decide) _ _ _ ((evt_tally ..).trans (setPass_tally ..))), ?_⟩
  · rw [passOf_of_num (Prim.fresh_num _), passOf_of_num (logEv_num ..), passOf_of_num (evt_num ..), passOf_setPass]
  · rw [Prim.fresh_getF, logEv_getF, getF_evt_fits (by decide)]
    rfl
  · rw [Prim.fresh_tiles, logEv_tiles, evt_tiles, setPass_tiles]

end

/-! A verdict on a tile (R145, R148, R160). -/

/-- A tile that a verdict has reached. -/
def Tile.judged (v : Delivery) (vs : List Delivery) (t : Tile) : Tile :=
  { t with
    verdicts := vs
    heldBins := t.heldBins.filter fun h => h.1 ≠ v.pass
    samples := if v.clean then t.samples.map fun x => if x.pass = some v.pass then { x with pass := none } else x
      else t.samples.filter fun x => x.pass ≠ some v.pass }

/-- The held samples of a pass enter the bins of their layers. -/
def samplesEnter (s : State) (u : Nat) (v : Delivery) : Act :=
  Act.each (fun h => enterBin (tilePart s u) h.2.1 h.2.2) ((getTile s u).heldBins.filter fun h => h.1 = v.pass)

/-- What a clean verdict does beside: GATE counts and the held samples enter. -/
def passCommitted (s : State) (u : Nat) (v : Delivery) : Act := Act.seq (incF TILE_SYNC.VALUE 1 u v.gate) (samplesEnter s u v)

theorem writes_enterBin (p l bin : Nat) : (enterBin p l bin).Writes [.NUM_WATCH_CNT] := ⟨trivial, writes_incF (by decide) _ _ _, trivial⟩

theorem writes_samplesEnter (s : State) (u : Nat) (v : Delivery) : (samplesEnter s u v).Writes [.NUM_WATCH_CNT] := (within_each _ _).mpr fun _ _ => writes_enterBin _ _ _

theorem changes_passCommitted (s : State) (u : Nat) (v : Delivery) : (passCommitted s u v).Changes [.regs, .num] :=
  changes_seq ((changes_incF _ _ _ _).up rfl) (changes_each fun _ => changes_enterBin _ _ _)

theorem run_when_seq (c : Bool) (a b : Act) (s : State) : run (Act.when c (.seq a b)) s = run (Act.when c b) (run (Act.when c a) s) := by
  cases c <;> rfl

section
variable {s : State} {u : Nat} {v : Delivery} {vs : List Delivery} (h : (getTile s u).verdicts = v :: vs)
include h

theorem run_verdictArrives :
    run (verdictArrives u) s = run (Act.when v.clean (passCommitted s u v)) (run (updTile u (Tile.judged v vs)) s) := by
  simp only [verdictArrives, run_ask, h, run_all_cons, run_all_nil, passCommitted, run_when_seq]
  rfl

theorem getTile_verdictArrives :
    getTile (run (verdictArrives u) s) u = (getTile s u).judged v vs := by
  rw [run_verdictArrives h, getTile_of_tiles (only_tiles (changes_when (changes_passCommitted s u v)).only (by decide) _), getTile_updTile_same]

theorem verdictArrives_gate (hclean : v.clean = true) :
    getF (run (verdictArrives u) s) TILE_SYNC.VALUE u v.gate = min (getF s TILE_SYNC.VALUE u v.gate + 1) 0xFFFF := by
  rw [run_verdictArrives h, run_when, if_pos hclean, passCommitted, run_seq, (writes_samplesEnter s u v).getF (by decide), getF_incF_fits (by decide), updTile_getF]
  rfl

theorem verdictArrives_regs (hunclean : v.clean = false) :
    (run (verdictArrives u) s).regs = s.regs := by
  rw [run_verdictArrives h, run_when, hunclean, if_neg Bool.false_ne_true, updTile_regs]

end

/-- Settles O17: a report by whether its pass is open, a verdict by whether the pass is clean, a repeat plan by its check, and the verdict that reaches a tile. -/
theorem passesAndVerdicts : Obligations.PassesAndVerdicts := by
  refine ⟨fun s u r x hr hx hid hopen => ⟨_, rfl, ?joins⟩, fun s u r hr hx hflags => ⟨_, rfl, ?late⟩, fun s p l x hx hend hdec hrep hclean => ⟨_, rfl, ?clean⟩,
    fun s p l x hx hend hdec hrep hclean => ⟨_, rfl, ?unclean⟩, fun s p l x hx hrep hfetched => ⟨_, rfl, ?fetched⟩,
    fun s u v vs h => ⟨_, rfl, ?arrives⟩⟩
  case joins =>
    rw [run_reportArrives hr, run_mergeReport_of_open (s := reportTaken u s) hx hid hopen]
    exact ⟨rfl, ⟨_, passOf_setPass .., rfl, rfl, rfl, rfl, rfl, rfl⟩, rfl, rfl⟩
  case late =>
    rw [run_reportArrives hr, run_mergeReport_of_none (s := reportTaken u s) hx hflags]
    exact ⟨getF_evt_fits (by decide) .., rfl, rfl⟩
  case clean =>
    have hgiven := verdictGiven_spec p l.toNat x { x with decided := true } true (changes_rowsDropped p x) (by decide) (by decide) s
    have hmem := only_mem (changes_verdict p l.toNat).only (by decide) s
    rw [run_verdict_of_clean hx hend hdec hrep hclean] at hmem ⊢
    refine ⟨hgiven.pass, hgiven.tiles, fun htop hrows => ?_, fun hrows => ?_, hmem⟩
    · exact ⟨(hgiven.getF _ _ _).trans (rowsDropped_count p htop hrows s), (hgiven.getF _ _ _).trans (rowsDropped_evt p htop hrows s),
        logged_of_log hgiven.log (rowsDropped_logged p htop hrows s)⟩
    · rw [rowsDropped_of_empty p hrows] at hgiven ⊢
      exact ⟨hgiven.regs, hgiven.log⟩
  case unclean =>
    have hgiven := verdictGiven_spec p l.toNat x { x with decided := true, repeating := true } false (changes_repeatAsked p l.toNat x) (by decide) (by decide) s
    have hmem := only_mem (changes_verdict p l.toNat).only (by decide) s
    rw [run_verdict_of_unclean hx hend hdec hrep hclean] at hmem ⊢
    exact ⟨hgiven.pass, (hgiven.getF _ _ _).trans (repeatAsked_count p l.toNat x s), (hgiven.getF _ _ _).trans (repeatAsked_evt p l.toNat x s),
      logged_of_log hgiven.log (repeatAsked_logged p l.toNat x s), fun hdir => by rw [hgiven.marked]; exact repeatAsked_marked p l.toNat s hdir, hgiven.tiles, hmem⟩
  case fetched =>
    exact ⟨only_mem (changes_repeatFetched _ _).only (by decide) s, repeatFetched_ok hx hrep hfetched, repeatFetched_bad hx hrep hfetched⟩
  case arrives =>
    rw [getTile_verdictArrives h]
    exact ⟨rfl, rfl, verdictArrives_gate h, verdictArrives_regs h, only_mem (changes_verdictArrives _).only (by decide) s⟩

end Sys2Proof.Machine

/-! PROOFS. The numerics watch: a recomputation starts, ends or is abandoned (R158 to R160). -/

namespace Sys2Proof.Machine

theorem run_clocked {s : State} {u : Nat} (h : tileRuns s u = true) (a : Act) : run (clocked u a) s = run a s := by
  rw [clocked, run_ask, run_when, if_pos h]

/-- A tile whose oldest sample is being recomputed. -/
def Tile.recomputing (t : Tile) : Tile := { t with samples := match t.samples with | [] => [] | x :: xs => { x with running := true } :: xs }

theorem Tile.samples_recomputing {t : Tile} {x : Sample} {xs : List Sample} (h : t.samples = x :: xs) : t.recomputing.samples = { x with running := true } :: xs := by
  simp only [Tile.recomputing, h]

theorem run_watchStart {s : State} {u : Nat} (hidle : vxIdle s u = true) (hne : (getTile s u).samples ≠ [])
    (hnone : (getTile s u).samples.any (fun y => y.running) = false) : run (watchStart u) s = run (updTile u Tile.recomputing) s := by
  have hdue : (vxIdle s u && !(getTile s u).samples.isEmpty && !(getTile s u).samples.any (fun y => y.running)) = true := by simp [hidle, hne, hnone]
  rw [watchStart, run_ask]
  exact congrArg (run · s) (if_pos hdue)

/-- A tile whose recomputation has ended. -/
def Tile.recomputed (x : Sample) (bin : Nat) (t : Tile) : Tile :=
  { t with
    samples := t.samples.filter fun y => !y.running
    defer := false
    heldBins := match x.pass with
      | some id => t.heldBins ++ [(id, dLayer x.desc, bin)]
      | none => t.heldBins }

section
variable {s : State} {u : Nat} {x : Sample} (h : (getTile s u).samples.find? (fun y => y.running) = some x)
include h

theorem run_watchEnd : run (watchEnd u) s = run (Act.when x.pass.isNone (enterBin x.part (dLayer x.desc) (sampleBin (getTile s u) x)))
    (run (updTile u (Tile.recomputed x (sampleBin (getTile s u) x))) s) := by
  simp only [watchEnd, run_ask, h, run_all_cons, run_all_nil]
  rfl

theorem getTile_watchEnd : getTile (run (watchEnd u) s) u = (getTile s u).recomputed x (sampleBin (getTile s u) x) := by
  rw [run_watchEnd h, getTile_of_tiles (only_tiles (changes_when (changes_enterBin _ _ _)).only (by decide) _), getTile_updTile_same]

theorem watchEnd_committed (hpass : x.pass = none) :
    getF (run (watchEnd u) s) NUM_WATCH_CNT.SAMPLES = min (getF s NUM_WATCH_CNT.SAMPLES + 1) (2 ^ 32 - 1) ∧
      Cells.get [] (run (watchEnd u) s).num.bins (layerKey x.part (dLayer x.desc)) =
        Cells.get [] s.num.bins (layerKey x.part (dLayer x.desc)) ++ [sampleBin (getTile s u) x] := by
  rw [run_watchEnd h, hpass, run_when, if_pos Option.isNone_none]
  exact ⟨getF_incF_numCounter (by decide) _ _, (Cells.get_put ..).trans (if_pos rfl)⟩

theorem watchEnd_speculative {id : Nat} (hpass : x.pass = some id) :
    (run (watchEnd u) s).regs = s.regs ∧ (id, dLayer x.desc, sampleBin (getTile s u) x) ∈ (getTile (run (watchEnd u) s) u).heldBins := by
  constructor
  · rw [run_watchEnd h, hpass, run_when, if_neg (by simp), updTile_regs]
  · rw [getTile_watchEnd h, Tile.recomputed, hpass]
    exact List.mem_append_right _ (List.mem_singleton.mpr rfl)

end

section
variable {s : State} {u : Nat} (h : (getTile s u).samples ≠ [])
include h

theorem run_watchAbandon : run (watchAbandon u) s = run (evt NUM_EVT.WATCHSKIP) (run (incF NUM_WATCH_CNT.ABANDONED)
    (run (updTile u fun t => { t with samples := t.samples.drop 1, defer := false }) s)) := by
  rw [watchAbandon, run_ask, if_neg fun he => h (List.isEmpty_iff.mp he), run_all_cons, run_all_cons, run_all_cons, run_all_nil]

theorem getTile_watchAbandon : getTile (run (watchAbandon u) s) u = { getTile s u with samples := (getTile s u).samples.drop 1, defer := false } := by
  rw [run_watchAbandon h, getTile_of_tiles (evt_tiles ..), getTile_of_tiles (incF_tiles ..), getTile_updTile_same]

theorem watchAbandon_count : getF (run (watchAbandon u) s) NUM_WATCH_CNT.ABANDONED = min (getF s NUM_WATCH_CNT.ABANDONED + 1) (2 ^ 32 - 1) := by
  rw [run_watchAbandon h, getF_evt_apart (by decide), getF_incF_numCounter (by decide), updTile_getF]

theorem watchAbandon_evt : getF (run (watchAbandon u) s) NUM_EVT.WATCHSKIP = 1 := by
  rw [run_watchAbandon h]
  exact getF_evt_fits (by decide) ..

end

/-- Settles O18: the three commands on a tile whose clock runs. -/
theorem numericsWatch : Obligations.NumericsWatch := by
  refine ⟨fun s u x xs hclock hidle hx hnone => ⟨run (watchStart u) s, congrArg _ (run_clocked hclock _), ?starts⟩,
    fun s u x hclock hx => ⟨run (watchEnd u) s, congrArg _ (run_clocked hclock _), ?ends⟩,
    fun s u hclock hne => ⟨run (watchAbandon u) s, congrArg _ (run_clocked hclock _), ?abandoned⟩⟩
  case starts =>
    have hne : (getTile s u).samples ≠ [] := hx ▸ List.cons_ne_nil x xs
    rw [run_watchStart hidle hne hnone, getTile_updTile_same]
    exact ⟨Tile.samples_recomputing hx, updTile_regs .., updTile_mem ..⟩
  case ends =>
    have htile := getTile_watchEnd hx
    exact ⟨htile ▸ rfl, htile ▸ rfl, watchEnd_committed hx, fun _ => watchEnd_speculative hx, only_mem (changes_watchEnd _).only (by decide) s⟩
  case abandoned =>
    have htile := getTile_watchAbandon hne
    exact ⟨htile ▸ rfl, htile ▸ rfl, watchAbandon_count hne, watchAbandon_evt hne, only_mem (changes_watchAbandon _).only (by decide) s⟩

end Sys2Proof.Machine

/-! PROOFS. The element and reduction items of the vector engine: how one starts, and the flags it leaves with its record and in VX_FLAGS (R102, R115, R165, R166, R172). -/

namespace Sys2Proof.Machine

/-! The flags of an item that starts. -/

section
variable (u : Nat) (r : RunItem) (bufs : FMap Byte) (dst len fl : Nat) {extra : Act} (s : State)

/-- The item that starts stands last among those in progress, with its flags. -/
theorem vecStart_lastFlags : (getTile (run (vecStart u r bufs dst len fl extra) s) u).vx.run.getLast?.map RunItem.flags = some fl := by
  rw [run_vecStart, getTile_of_tiles (vecCounts_tiles ..)]
  have hvx := congrArg Prod.fst ((keepsTile_vecBlurs u).run_eq (run (vecWrites u r bufs dst len fl) (run extra (run (vecEnters u r) s))))
  simp only [Tile.unblurred] at hvx
  rw [hvx, vecWrites, getTile_updTile_same, List.getLast?_append_of_ne_nil _ (List.cons_ne_nil _ _)]
  rfl

/-- VX_FLAGS has eight flags and no other bit. -/
theorem regMask_vxFlags (i j : Nat) : regMask .VX_FLAGS i j = 0xFF#64 := rfl

/-- VX_FLAGS takes an item's flags: the low four bits where CC = 0, the next four where CC = 1 (R102, R115). -/
theorem orFlags_vxFlags (cc : Bool) : getReg (run (orFlags .VX_FLAGS u cc fl) s) .VX_FLAGS u 0 =
    (getReg s .VX_FLAGS u 0 ||| BitVec.ofNat 64 (fl * if cc then 16 else 1)) &&& 0xFF#64 := by
  rw [orFlags, run_ask, run_prim, getReg_apply_reg_same _ _ _ _ (by decide), regMask_vxFlags]
  cases cc
  · rw [if_neg Bool.false_ne_true, if_neg Bool.false_ne_true, Nat.mul_one]
  · rfl

theorem vecEnters_vxFlags : getReg (run (vecEnters u r) s) .VX_FLAGS u 0 = getReg s .VX_FLAGS u 0 := by
  simp (decide := true) [vecEnters]

/-- Of a start, the item's flags alone reach VX_FLAGS. -/
theorem vecStart_vxFlags (hw : extra.Writes [.COH_HOLDSNP]) : getReg (run (vecStart u r bufs dst len fl extra) s) .VX_FLAGS u 0 =
    (getReg s .VX_FLAGS u 0 ||| BitVec.ofNat 64 (fl * if dCc r.desc then 16 else 1)) &&& 0xFF#64 := by
  rw [run_vecStart, vecCounts, run_seq, addF, getReg_modF _ _ _ _ _ _ (by decide), orFlags_vxFlags, (writes_vecBlurs u).getReg (by decide), vecWrites,
    updTile_getReg, hw.getReg (by decide), vecEnters_vxFlags]

end

/-! ADD to CSUM. -/

/-- What an item of opcodes 0x40 to 0x5A writes where it starts now. -/
abbrev elemWritten (s : State) (u : Nat) (d : Desc) : List (Nat × Nat × Nat) := elemWrites (Config.freeValue s.free) (getTile s u) (startRec s u d)

/-- The flags of the item: those of every element it writes (R172). -/
def elemFlags (s : State) (u : Nat) (d : Desc) : Nat := orAll ((elemWritten s u d).map fun w => w.2.2)

section
variable (u : Nat) (d : Desc) (s : State)

/-- A start of opcodes 0x40 to 0x5A is the start of a vector item with the elements it writes and their flags, and uses up open values. -/
theorem run_elemStart : run (elemStart u d) s = Prim.apply .fresh (run (vecStart u (startRec s u d)
    (writeElems (getTile s u).bufs (vDst d) (dDfmt d) (elemWritten s u d)) (vDst d) 4096 (elemFlags s u d) .skip) s) := rfl

theorem elemStart_started : VecStarted u d (writeElems (getTile s u).bufs (vDst d) (dDfmt d) (elemWritten s u d)) s (run (elemStart u d) s) := by
  rw [run_elemStart]
  exact (vecStart_started (r := startRec s u d) (extra := .skip) trivial trivial).fresh

theorem elemStart_lastFlags : (getTile (run (elemStart u d) s) u).vx.run.getLast?.map RunItem.flags = some (elemFlags s u d) := by
  rw [run_elemStart, Prim.fresh_getTile]
  exact vecStart_lastFlags ..

theorem elemStart_vxFlags : getReg (run (elemStart u d) s) .VX_FLAGS u 0 =
    (getReg s .VX_FLAGS u 0 ||| BitVec.ofNat 64 (elemFlags s u d * if dCc d then 16 else 1)) &&& 0xFF#64 := by
  rw [run_elemStart, Prim.fresh_getReg]
  exact vecStart_vxFlags u (startRec s u d) _ _ _ _ s trivial

variable {u d s} in
theorem elemStart_mem (hcopy : copyReadsBufs (getTile s u) = false) (hoff : traceOn s = false) : (run (elemStart u d) s).mem = s.mem := by
  rw [run_elemStart, Prim.fresh_mem]
  exact vecStart_mem (extra := .skip) trivial quiet_skip hcopy hoff

end

/-- The commands of Table 7-1 from ADD to CSUM, with their opcodes. -/
def elementCommands : List ((Fin 512 → Instr) × Nat) :=
  [(.add, 0x40), (.sub, 0x41), (.mul, 0x42), (.fma, 0x43), (.max, 0x44), (.min, 0x45), (.abs, 0x46), (.neg, 0x47), (.selgt, 0x48), (.cvt, 0x49),
    (.exp2, 0x50), (.log2, 0x51), (.recip, 0x52), (.rsqrt, 0x53), (.sqrt, 0x54), (.tanh, 0x55), (.rsum, 0x58), (.rmax, 0x59), (.csum, 0x5A)]

/-- Each of the commands looks at the head of the vector sequencer for its own opcode. -/
theorem exec_elementCommand {c : (Fin 512 → Instr) × Nat} (hc : c ∈ elementCommands) (u : Fin 512) (s : State) : exec (c.1 u) s = .next (run (vecItem u c.2) s) := by
  simp only [elementCommands, List.mem_cons, List.not_mem_nil, or_false] at hc
  rcases hc with rfl | rfl | rfl | rfl | rfl | rfl | rfl | rfl | rfl | rfl | rfl | rfl | rfl | rfl | rfl | rfl | rfl | rfl | rfl <;> rfl

theorem elementCommand_opcode_lt : ∀ c ∈ elementCommands, c.2 < 0x60 := by decide

/-- An opcode below that of OUT starts an element item. -/
theorem vecBegin_of_lt {u : Nat} {d : Desc} (h : dOpcode d < 0x60) : vecBegin u d = elemStart u d := by
  unfold vecBegin
  split
  iterate 4 · omega
  · rfl

/-- Settles O19: the command runs the start of an element item, whose record, found last among those in progress, holds the flags that joined VX_FLAGS. -/
theorem elementItems : Obligations.ElementItems := by
  intro c hc s u d hhead ho hwait hready hcode
  have hlt : dOpcode d < 0x60 := ho ▸ elementCommand_opcode_lt c hc
  have hexec : exec (c.1 u) s = .next (run (elemStart u d) s) := by
    rw [exec_elementCommand hc, run_vecItem_of_starts hhead ho hwait hready hcode, vecBegin_of_lt hlt]
  obtain ⟨⟨r, hdesc, hqueue, hrun⟩, hitem, hbusy, hdma, hbanks, hwork⟩ := elemStart_started u d s
  have hflags : r.flags = elemFlags s u d := by
    simpa [hrun] using elemStart_lastFlags u d s
  refine ⟨_, r, hexec, hdesc, hqueue, hrun, fun hcopy => (hwork hcopy).left, hitem, hbusy, ?_, hdma, hbanks, fun hcopy => ?_⟩
  · rw [hflags]
    exact elemStart_vxFlags u d s
  · obtain ⟨-, hmx, hop⟩ := hwork hcopy
    exact ⟨hmx, hop, elemStart_mem hcopy⟩

end Sys2Proof.Machine

/-! PROOFS. Objects and page table entries in memory: what they are read from, and what a store to one reads as (R232, R233, Table 10-4). -/

namespace Sys2Proof.Machine

/-! Bytes stored and numbers read. -/

theorem readNat_congr {s t : State} (hm : t.mem = s.mem) (hc : t.coh = s.coh) (a n : Nat) : readNat t a n = readNat s a n := by
  rw [readNat, readNat, readMem_congr hm hc]

theorem readNat_lt (s : State) (a n : Nat) : readNat s a n < 256 ^ n := by
  have hlen : (readMem s a n).length = n := by simp [readMem]
  rw [readNat, ← congrArg (256 ^ ·) hlen]
  exact leNat_lt _

/-- A number that the package stores reads back. -/
theorem readNat_pkgWrite (a v n : Nat) (s : State) : readNat (run (pkgWrite a (natLe v n)) s) a n = v % 256 ^ n := by
  have hread := storeMem_readMem {} a (natLe v n) [] s
  rw [List.append_nil, length_natLe] at hread
  rw [readNat, pkgWrite, hread, leNat_natLe]

/-- A reading of the tiers that no metadata of a line enters. -/
abbrev Act.KeepsTier {α : Type} (g : TierSt → α) (a : Act) : Prop := a.Within fun p => ∀ s, g (p.apply s).tier = g s.tier

theorem keepsTier_of_changes {α : Type} {g : TierSt → α} {l : List Part} {a : Act} (h : a.Changes l) (hl : Part.tier ∉ l) : a.KeepsTier g :=
  Act.Within.mono (fun p hp s => congrArg g (only_tier (a := .prim p) hp hl s)) h.only

theorem Act.KeepsTier.run_eq {α : Type} {g : TierSt → α} {a : Act} (h : a.KeepsTier g) (s : State) : g (run a s).tier = g s.tier :=
  run_same (fun s => g s.tier) h s

/-- A store of the package touches nothing of the tiers but metadata and marks. -/
theorem keepsTier_pkgWrite {α : Type} {g : TierSt → α} (h : ∀ t i q, g { t with info := i, qmarks := q } = g t) (a : Nat) (bs : List Byte) :
    (pkgWrite a bs).KeepsTier g := by
  refine ⟨(within_each _ _).mpr fun p _ => ?_, (within_when _ _).mpr fun _ s => h s.tier s.tier.info _, trivial⟩
  exact ⟨keepsTier_of_changes (changes_dropCopies _ _) (by decide), keepsTier_of_changes (changes_writeMem _ _) (by decide),
    fun _ => ⟨fun s => h s.tier _ s.tier.qmarks, (within_when _ _).mpr fun _ s => h s.tier s.tier.info _, trivial⟩, trivial⟩

/-! What objects and pages are read from. -/

/-- Two states whose object table and page table read alike. -/
structure SameObjects (s t : State) : Prop where
  mem : t.mem = s.mem
  coh : t.coh = s.coh
  ptbase : getReg t .TIER_PTBASE 0 0 = getReg s .TIER_PTBASE 0 0
  objtab : getReg t .TIER_OBJTAB 0 0 = getReg s .TIER_OBJTAB 0 0

/-- A program that reaches neither memory nor the caches, nor the two tables' registers. -/
theorem Act.Changes.sameObjects {k : List Part} {l : List RegName} {a : Act} (hc : a.Changes k) (hw : a.Writes l) (hk : Part.mem ∉ k ∧ Part.coh ∉ k)
    (hl : RegName.TIER_PTBASE ∉ l ∧ RegName.TIER_OBJTAB ∉ l) (s : State) : SameObjects s (run a s) :=
  ⟨only_mem hc.only hk.1 s, only_coh hc.only hk.2 s, hw.getReg hl.1 0 0 s, hw.getReg hl.2 0 0 s⟩

/-- The same of a program that changes no register. -/
theorem Act.Changes.sameObjects_of_regs {k : List Part} {a : Act} (hc : a.Changes k) (hk : Part.mem ∉ k ∧ Part.coh ∉ k ∧ Part.regs ∉ k) (s : State) :
    SameObjects s (run a s) :=
  hc.sameObjects (writes_of_changes (l := []) hc hk.2.2) ⟨hk.1, hk.2.1⟩ (by decide) s

theorem sameObjects_setF {f : Fld} (h : f.reg ≠ .TIER_PTBASE ∧ f.reg ≠ .TIER_OBJTAB) (x i j : Nat) (s : State) : SameObjects s (run (setF f x i j) s) :=
  (changes_setF f x i j).sameObjects (writes_setF (List.mem_singleton.mpr rfl) x i j) (by decide) (by simpa [eq_comm] using h) s

theorem SameObjects.trans {s t u : State} (h : SameObjects s t) (k : SameObjects t u) : SameObjects s u :=
  ⟨k.mem.trans h.mem, k.coh.trans h.coh, k.ptbase.trans h.ptbase, k.objtab.trans h.objtab⟩

section
variable {s t : State} (h : SameObjects s t)
include h

theorem SameObjects.readNat (a n : Nat) : readNat t a n = Machine.readNat s a n := readNat_congr h.mem h.coh a n

theorem SameObjects.objAddr (o : Nat) : objAddr t o = Machine.objAddr s o := by
  rw [Machine.objAddr, Machine.objAddr, getF_of_getReg (f := TIER_OBJTAB.ADDR) h.objtab]

theorem SameObjects.objState (o : Nat) : objState t o = Machine.objState s o := by
  simp only [Machine.objState, objFlags, h.objAddr, h.readNat]

theorem SameObjects.objPoisLines (o : Nat) : objPoisLines t o = Machine.objPoisLines s o := by
  simp only [Machine.objPoisLines, h.objAddr, h.readNat]

theorem SameObjects.objValid (o : Nat) : objValid t o = Machine.objValid s o := by
  simp only [Machine.objValid, h.objAddr, h.readNat, getF_of_getReg (f := TIER_OBJTAB.ADDR) h.objtab, getF_of_getReg (f := TIER_OBJTAB.COUNT) h.objtab]

theorem SameObjects.pageEnt (n : Nat) : pageEnt t n = Machine.pageEnt s n := by
  simp only [Machine.pageEnt, pteAddr, h.readNat, getF_of_getReg (f := TIER_PTBASE.ADDR) h.ptbase]

theorem SameObjects.pageTable : pageTable t = Machine.pageTable s := by
  rw [Machine.pageTable, Machine.pageTable, getB, getB, getF_of_getReg (f := TIER_PTBASE.ADDR) h.ptbase, getF_of_getReg (f := TIER_PTBASE.EN) h.ptbase]

theorem SameObjects.pageOfFrame (a : Nat) : pageOfFrame t a = Machine.pageOfFrame s a := by
  simp only [Machine.pageOfFrame, h.objValid, objPages, objBase, h.objAddr, h.readNat, h.pageEnt, getB, getF_of_getReg (f := TIER_PTBASE.EN) h.ptbase,
    getF_of_getReg (f := TIER_OBJTAB.COUNT) h.objtab]

end

/-! STATE of an object. -/

theorem objState_setObjState {v : Nat} (hv : v < 4) (o : Nat) (s : State) : objState (run (setObjState o v) s) o = v := by
  have hflags : putBits (objFlags s o) 4 2 v < 256 ^ 2 := putBits_lt (n := 16) v (readNat_lt s _ 2) (by decide)
  have hrun : run (setObjState o v) s = run (pkgWrite (objAddr s o) (natLe (putBits (objFlags s o) 4 2 v) 2)) s := rfl
  have haddr : objAddr (run (setObjState o v) s) o = objAddr s o := by rw [objAddr, objAddr, hrun, pkgWrite_getF _ _ _ _ _ _ (by decide)]
  rw [objState, objFlags, haddr, hrun, readNat_pkgWrite, Nat.mod_eq_of_lt hflags, bitsOf_putBits]
  exact Nat.mod_eq_of_lt hv

theorem setObjState_getF (o v : Nat) {f : Fld} (h : RegName.COH_HOLDSNP ≠ f.reg) (i j : Nat) (s : State) :
    getF (run (setObjState o v) s) f i j = getF s f i j :=
  pkgWrite_getF _ _ _ _ _ _ h

theorem setObjState_waits (o v : Nat) (s : State) : (run (setObjState o v) s).tier.waits = s.tier.waits :=
  (keepsTier_pkgWrite (g := TierSt.waits) (fun _ _ _ => rfl) _ _).run_eq s

/-! Page table entries. -/

/-- TIER and FRAME of an entry fit their fields (Table 10-4). -/
def PageEnt.Fits (e : PageEnt) : Prop := e.tier < 4 ∧ e.frame % 2 ^ 21 = 0 ∧ e.frame < 2 ^ 48

theorem pageEnt_fits (s : State) (n : Nat) : (pageEnt s n).Fits := by
  have hframe := bitsOf_lt (readNat s (pteAddr s n) 8) 21 27
  refine ⟨bitsOf_lt _ 0 2, Nat.mul_mod_left _ _, ?_⟩
  simp only [pageEnt]
  omega

/-- The lower word of an entry. -/
def PageEnt.lower (e : PageEnt) : Nat := e.tier + b2n e.mig * 4 + b2n e.pois * 8 + e.frame / 2 ^ 21 % 2 ^ 27 * 2 ^ 21

theorem PageEnt.lower_fields {e : PageEnt} (h : e.Fits) : e.lower < 256 ^ 8 ∧ bitsOf e.lower 0 2 = e.tier ∧ bitsOf e.lower 21 27 * 2 ^ 21 = e.frame ∧
    bitOf e.lower 2 = e.mig ∧ bitOf e.lower 3 = e.pois := by
  obtain ⟨tier, mig, pois, frame, touch, obj⟩ := e
  obtain ⟨htier, halign, hframe⟩ := h
  dsimp only at htier halign hframe
  simp only [PageEnt.lower, bitsOf, bitOf, Nat.testBit_eq_decide_div_mod_eq]
  cases mig <;> cases pois <;> simp only [b2n, if_true, if_false, Bool.false_eq_true, decide_eq_true_eq, decide_eq_false_iff_not] <;> omega

theorem run_setPage (n : Nat) (f : PageEnt → PageEnt) (s : State) : run (setPage n f) s =
    run (pkgWrite (pteAddr s n) (natLe (f (pageEnt s n)).lower 8)) (run (updTier fun t => { t with xlat := Cells.del t.xlat n }) s) := by
  simp only [setPage, run_ask, run_all_cons, run_all_nil, PageEnt.lower]

/-- What the package stores in an entry reads back, and LASTTOUCH and OBJ are not its to change. -/
theorem pageEnt_setPage {n : Nat} {f : PageEnt → PageEnt} {s : State} (h : (f (pageEnt s n)).Fits) :
    let e := pageEnt (run (setPage n f) s) n
    e.tier = (f (pageEnt s n)).tier ∧ e.frame = (f (pageEnt s n)).frame ∧ e.mig = (f (pageEnt s n)).mig ∧ e.pois = (f (pageEnt s n)).pois := by
  obtain ⟨hlt, htier, hframe, hmig, hpois⟩ := PageEnt.lower_fields h
  have haddr : pteAddr (run (setPage n f) s) n = pteAddr s n := by
    rw [pteAddr, pteAddr, (writes_setPage (l := [.COH_HOLDSNP]) (by decide) n f).getF (by decide)]
  have hword : readNat (run (setPage n f) s) (pteAddr s n) 8 = (f (pageEnt s n)).lower := by
    rw [run_setPage, readNat_pkgWrite, Nat.mod_eq_of_lt hlt]
  simp only [pageEnt, haddr, hword]
  exact ⟨htier, hframe, hmig, hpois⟩

/-- No old translation of the page is left (R235). -/
theorem setPage_xlat (n : Nat) (f : PageEnt → PageEnt) (s : State) : Cells.look (run (setPage n f) s).tier.xlat n = none := by
  have hkeep (a : Nat) (bs : List Byte) (t : State) : (run (pkgWrite a bs) t).tier.xlat = t.tier.xlat :=
    (keepsTier_pkgWrite (g := TierSt.xlat) (fun _ _ _ => rfl) a bs).run_eq t
  rw [run_setPage, hkeep]
  exact (Cells.look_del _ _ _).trans (if_pos rfl)

/-- A page translates as its entry reads, or as it was cached (R234, log 19). -/
theorem pageXlat_cases (s : State) (n : Nat) : pageXlat s n = pageEnt s n ∨ ∃ x, Cells.look s.tier.xlat n = some x ∧ (pageXlat s n).words = x := by
  cases hx : Cells.look s.tier.xlat n with
  | none => exact .inl (by simp only [pageXlat, hx])
  | some x =>
    simp only [pageXlat, hx]
    split
    · exact .inr ⟨x, rfl, rfl⟩
    · exact .inl rfl

end Sys2Proof.Machine

/-! PROOFS. Objects under rebuild, translations, patrol, and the end of a notice (R235, R241, R243 to R251). -/

namespace Sys2Proof.Machine

/-! Poisoned lines. -/

/-- The registers of a line's poisoning: the fault ring's and the tiers' events. -/
def poisonRegs : List RegName := [.COH_HOLDSNP, .TIER_FQDROP, .TIER_FQPTR, .TIER_EVT]

theorem writes_faultRecord (type obj unit addr : Nat) : (faultRecord type obj unit addr).Writes poisonRegs := by
  intro s
  dsimp only
  split
  · exact ⟨writes_addF (by decide) _ _ _, writes_evt (by decide) _ _, trivial⟩
  · exact ⟨writes_pkgWrite (by decide) _ _, writes_setF (by decide) _ _ _, trivial⟩

theorem writes_objectPoisoned (n va lines type unit : Nat) : (objectPoisoned n va lines type unit).Writes poisonRegs := by
  simp only [objectPoisoned, within_ask, within_all_cons, within_all_nil, within_when, and_true]
  exact fun _ => ⟨writes_setPage (by decide) _ _, writes_pkgWrite (by decide) _ _, fun _ => writes_pkgWrite (by decide) _ _,
    fun _ => writes_pkgWrite (by decide) _ _, writes_faultRecord _ _ _ _⟩

/-- The record of a poisoned line with its event and log entry. -/
theorem writes_poisonNoted (unit : Nat) {a : Act} (h : a.Writes poisonRegs) :
    (Act.all [a, evt TIER_EVT.POISON, logEv .linePoisoned 0xFF unit]).Writes poisonRegs :=
  ⟨h, writes_evt (by decide) _ _, writes_of_changes (changes_logEv _ _ _ _) (by decide), trivial⟩

theorem writes_poisonLine (a unit : Nat) : (poisonLine a unit).Writes poisonRegs := by
  simp only [poisonLine, within_ask]
  intro s
  split
  · exact within_skip
  · refine (within_all_cons _ _).mpr ⟨(within_prim _).mpr trivial, (within_all_cons _ _).mpr ⟨?_, within_all_nil⟩⟩
    split
    · exact writes_poisonNoted unit (writes_faultRecord _ _ _ _)
    · split
      · exact writes_poisonNoted unit (writes_objectPoisoned _ _ _ _ _)
      · exact within_skip

/-- A line of neither the page table nor an object page is marked, and that is all (R247). -/
theorem poisonLine_of_plain {s : State} {a : Nat} (htable : inRange a (pageTable s) = false) (hpage : pageOfFrame s a = none) (unit : Nat) :
    isPoisoned (run (poisonLine a unit) s) a = true ∧ (run (poisonLine a unit) s).mem = s.mem := by
  by_cases hp : isPoisoned s a = true
  · simp only [poisonLine, run_ask, hp, if_true, run_skip, and_self]
  · have hrun : run (poisonLine a unit) s = run (updTier fun t => { t with info := Cells.put {} t.info (a / 64) { Cells.get {} t.info (a / 64) with poison := true } }) s := by
      simp only [poisonLine, run_ask, if_neg hp, htable, hpage, Bool.false_eq_true, if_false, run_all_cons, run_all_nil, run_skip]
    rw [hrun, updTier, run_prim, isPoisoned, Prim.tier_tier, Cells.get_put, if_pos rfl]
    exact ⟨rfl, Prim.tier_mem ..⟩

/-! Patrol of a line of warehouse. -/

section
variable {s : State} {a e : Nat} (hw : isWarehouse a = true)
include hw

theorem not_isQuay_of_warehouse : isQuay a = false := by
  simp only [isWarehouse, decide_eq_true_eq] at hw
  simp only [isQuay, Bool.and_eq_false_iff, decide_eq_false_iff_not]
  omega

theorem run_patrol_of_warehouse : run (patrol a e) s = run (eccCheck a e 0xFFFF) s := by
  rw [patrol, run_when, hw, Bool.true_or, if_pos rfl]

theorem run_patrol_of_none : run (patrol a 0) s = s := by
  rw [run_patrol_of_warehouse hw]; rfl

theorem run_patrol_of_corrected (hlo : 1 ≤ e) (hhi : e ≤ 2) : run (patrol a e) s = run (incF TIER_ECCW.CE) s := by
  have h0 : e ≠ 0 := by omega
  rw [run_patrol_of_warehouse hw]
  simp only [eccCheck, not_isQuay_of_warehouse hw, h0, hhi, if_false, if_true, Bool.false_eq_true]

theorem run_patrol_of_uncorrectable (hlo : 3 ≤ e) (hhi : e ≤ 4) : run (patrol a e) s = run (poisonLine a 0xFFFF) (run (incF TIER_ECCW.UE) s) := by
  have h0 : e ≠ 0 := by omega
  have h2 : ¬e ≤ 2 := by omega
  rw [run_patrol_of_warehouse hw]
  simp only [eccCheck, not_isQuay_of_warehouse hw, h0, h2, hhi, if_false, if_true, Bool.false_eq_true, Bool.not_false, Bool.true_and, decide_true,
    run_all_cons, run_all_nil]

/-- A correction counts in CE and leaves the rest alone. -/
theorem patrol_corrected_spec (hlo : 1 ≤ e) (hhi : e ≤ 2) :
    let t := run (patrol a e) s
    getF t TIER_ECCW.CE = min (getF s TIER_ECCW.CE + 1) (2 ^ 32 - 1) ∧ getF t TIER_ECCW.UE = getF s TIER_ECCW.UE ∧ t.mem = s.mem ∧ t.tier = s.tier := by
  rw [run_patrol_of_corrected hw hlo hhi]
  exact ⟨getF_incF_fits (by decide) _ _ _ _, getF_incF_apart (by decide) _ _ _ _ _ _, incF_mem .., incF_tier ..⟩

/-- An uncorrectable line counts in UE; a plain one is poisoned and keeps its bytes. -/
theorem patrol_uncorrectable_spec (hlo : 3 ≤ e) (hhi : e ≤ 4) :
    let t := run (patrol a e) s
    getF t TIER_ECCW.UE = min (getF s TIER_ECCW.UE + 1) (2 ^ 32 - 1) ∧ getF t TIER_ECCW.CE = getF s TIER_ECCW.CE ∧
      (inRange a (pageTable s) = false → pageOfFrame s a = none → isPoisoned t a = true ∧ t.mem = s.mem) := by
  have hpoison := writes_poisonLine a 0xFFFF
  have hsame : SameObjects s (run (incF TIER_ECCW.UE) s) :=
    (changes_incF _ _ _ _).sameObjects (writes_incF (l := [.TIER_ECCW]) (by decide) _ _ _) (by decide) (by decide) s
  rw [run_patrol_of_uncorrectable hw hlo hhi]
  refine ⟨?_, ?_, fun htable hpage => ?_⟩
  · rw [hpoison.getF (by decide)]
    exact getF_incF_fits (by decide) _ _ _ _
  · rw [hpoison.getF (by decide)]
    exact getF_incF_apart (by decide) _ _ _ _ _ _
  · rw [← hsame.pageTable] at htable
    rw [← hsame.pageOfFrame] at hpage
    obtain ⟨hpois, hmem⟩ := poisonLine_of_plain htable hpage 0xFFFF
    exact ⟨hpois, hmem.trans hsame.mem⟩

end

/-! The operations of TIER_OBJCTL. -/

/-- OBJ names the object. -/
def objNamed (o : Nat) (s : State) : State := run (setF TIER_OBJCTL.OBJ o) s

theorem run_objNamed (o : Nat) (s : State) : run (setF TIER_OBJCTL.OBJ o) s = objNamed o s := rfl

theorem sameObjects_objNamed (o : Nat) (s : State) : SameObjects s (objNamed o s) := sameObjects_setF (by decide) _ _ _ s

@[simp] theorem objNamed_mem (o : Nat) (s : State) : (objNamed o s).mem = s.mem := setF_mem ..
@[simp] theorem objNamed_tier (o : Nat) (s : State) : (objNamed o s).tier = s.tier := setF_tier ..
@[simp] theorem objNamed_tally (o : Nat) (s : State) (k : LogKind) : Safety.tally (objNamed o s) k = Safety.tally s k := setF_tally ..

theorem objNamed_obj (o : BitVec 16) (s : State) : getF (objNamed o.toNat s) TIER_OBJCTL.OBJ = o.toNat :=
  (getF_setF_fits (by decide) _ _ _ _).trans (Nat.mod_eq_of_lt o.isLt)

/-- An operation that is carried out: STATE, DONE and REFUSED. -/
def objDone (o v : Nat) : Act := Act.all [setObjState o v, setF TIER_OBJCTL.DONE 1, setF TIER_OBJCTL.REFUSED 0]

theorem objDone_spec {v : Nat} (hv : v < 4) (o : BitVec 16) (s : State) :
    let t := run (objDone o.toNat v) (objNamed o.toNat s)
    objState t o.toNat = v ∧ getF t TIER_OBJCTL.OBJ = o.toNat ∧ getF t TIER_OBJCTL.DONE = 1 ∧ getF t TIER_OBJCTL.REFUSED = 0 ∧ t.tier.waits = s.tier.waits := by
  simp only [objDone, run_all_cons, run_all_nil]
  have hsame := (sameObjects_setF (f := TIER_OBJCTL.DONE) (by decide) 1 0 0 (run (setObjState o.toNat v) (objNamed o.toNat s))).trans
    (sameObjects_setF (f := TIER_OBJCTL.REFUSED) (by decide) 0 0 0 _)
  refine ⟨?_, ?_, ?_, ?_, ?_⟩
  · rw [hsame.objState, objState_setObjState hv]
  · rw [getF_setF_apart (by decide), getF_setF_apart (by decide), setObjState_getF _ _ (by decide), objNamed_obj]
  · rw [getF_setF_apart (by decide), getF_setF_fits (by decide)]; rfl
  · rw [getF_setF_fits (by decide)]; rfl
  · rw [setF_tier, setF_tier, setObjState_waits, objNamed_tier]

section
variable {s : State} {o : Nat} (hv : objValid s o = true)
include hv

theorem run_objRebuild : run (objRebuild o) s = run (objDone o 2) (objNamed o s) := by
  have hnamed : objValid (objNamed o s) o = true := ((sameObjects_objNamed o s).objValid o).trans hv
  simp only [objRebuild, run_all_cons, run_all_nil, run_ask, run_objNamed, hnamed, run_when, if_true, objDone]

theorem run_objRelease_of_clean (hp : objPoisLines s o = 0) : run (objRelease o) s = run retryStalled (run (objDone o 0) (objNamed o s)) := by
  have hnamed : objValid (objNamed o s) o = true := ((sameObjects_objNamed o s).objValid o).trans hv
  have hlines : objPoisLines (objNamed o s) o = 0 := ((sameObjects_objNamed o s).objPoisLines o).trans hp
  simp only [objRelease, run_all_cons, run_all_nil, run_ask, run_objNamed, hnamed, hlines, Bool.not_true, Bool.false_eq_true, if_false, if_true, objDone]

theorem run_objRelease_of_poisoned (hp : objPoisLines s o ≠ 0) :
    run (objRelease o) s = run (logEv .rebuildRefused) (run (setF TIER_OBJCTL.DONE 0) (run (setF TIER_OBJCTL.REFUSED 1) (objNamed o s))) := by
  have hnamed : objValid (objNamed o s) o = true := ((sameObjects_objNamed o s).objValid o).trans hv
  have hlines : objPoisLines (objNamed o s) o ≠ 0 := ((sameObjects_objNamed o s).objPoisLines o).symm ▸ hp
  simp only [objRelease, run_all_cons, run_all_nil, run_ask, run_objNamed, hnamed, hlines, Bool.not_true, Bool.false_eq_true, if_false]

theorem run_objEscalate : run (objEscalate o) s = run (.seq giveUp (computeReset 1 5)) (run (evt TIER_EVT.ESCALATE) (run (objDone o 3) (objNamed o s))) := by
  have hnamed : objValid (objNamed o s) o = true := ((sameObjects_objNamed o s).objValid o).trans hv
  simp only [objEscalate, run_all_cons, run_all_nil, run_ask, run_objNamed, hnamed, run_when, if_true, objDone, run_seq]

end

/-- A release that poisoned lines stand against is refused and logged, and stores nothing. -/
theorem objRelease_refused_spec {s : State} {o : BitVec 16} (hv : objValid s o.toNat = true) (hp : objPoisLines s o.toNat ≠ 0) :
    let t := run (objRelease o.toNat) s
    getF t TIER_OBJCTL.OBJ = o.toNat ∧ getF t TIER_OBJCTL.DONE = 0 ∧ getF t TIER_OBJCTL.REFUSED = 1 ∧ Safety.Logged .rebuildRefused s t ∧ t.mem = s.mem := by
  rw [run_objRelease_of_poisoned hv hp]
  refine ⟨?_, ?_, ?_, ?_, ?_⟩
  · rw [logEv_getF, getF_setF_apart (by decide), getF_setF_apart (by decide), objNamed_obj]
  · rw [logEv_getF, getF_setF_fits (by decide)]; rfl
  · rw [logEv_getF, getF_setF_apart (by decide), getF_setF_fits (by decide)]; rfl
  · exact logged_logEv (by decide) _ _ _ (by rw [setF_tally, setF_tally, objNamed_tally])
  · rw [logEv_mem, setF_mem, setF_mem, objNamed_mem]

/-- An escalation sets STATE 3 and its event before the package gives its berth up. -/
theorem objEscalate_spec {s : State} {o : BitVec 16} (hv : objValid s o.toNat = true) :
    ∃ m, run (objEscalate o.toNat) s = run (.seq giveUp (computeReset 1 5)) m ∧ objState m o.toNat = 3 ∧ getF m TIER_OBJCTL.OBJ = o.toNat ∧
      getF m TIER_OBJCTL.DONE = 1 ∧ getF m TIER_EVT.ESCALATE = 1 := by
  obtain ⟨hstate, hobj, hdone, -, -⟩ := objDone_spec (v := 3) (by decide) o s
  have hsame : SameObjects (run (objDone o.toNat 3) (objNamed o.toNat s)) (run (evt TIER_EVT.ESCALATE) (run (objDone o.toNat 3) (objNamed o.toNat s))) :=
    sameObjects_setF (by decide) _ _ _ _
  refine ⟨_, run_objEscalate hv, (hsame.objState _).trans hstate, ?_, ?_, ?_⟩
  · rw [getF_evt_apart (by decide), hobj]
  · rw [getF_evt_apart (by decide), hdone]
  · rw [getF_evt_fits (by decide)]; rfl

/-! The end of a notice. -/

theorem run_evictionDeadline_of_lent {s : State} {f n : Nat} {x : LentFrame} (hx : Cells.look s.tier.lent f = some x) (hn : x.notice = some n)
    (hnone : Cells.look s.tier.notices f = none) :
    run (evictionDeadline f) s = if n + 1024 ≤ getF s TIDE_COUNT.COUNT then run (lentFreed f) s else s := by
  simp only [evictionDeadline, run_ask, hx, hn, hnone, run_all_cons, run_all_nil, run_skip, run_when, decide_eq_true_eq]

/-- Settles O26: translations, the operations of TIER_OBJCTL, patrol, then the lender's frame. -/
theorem objectsAndPatrol : Obligations.ObjectsAndPatrol := by
  refine ⟨fun s => ⟨⟨_, rfl, ?inval⟩, _, rfl, ?done⟩, pageXlat_cases, fun s n f => setPage_xlat n f s, fun s o hv => ?rebuild,
    fun s o hv hp => ?release, fun s o hv hp => ⟨_, rfl, objRelease_refused_spec hv hp⟩, fun s o hv => ?escalate,
    fun s a hw => ⟨⟨_, rfl, run_patrol_of_none hw⟩, fun e hlo hhi => ⟨_, rfl, patrol_corrected_spec hw hlo hhi⟩,
      fun e hlo hhi => ⟨_, rfl, patrol_uncorrectable_spec hw hlo hhi⟩⟩, fun s f x n hx hn hnone hwait => ⟨_, rfl, ?deadline⟩⟩
  case inval => exact ⟨getF_setF_fits (by decide) _ _ _ _, rfl⟩
  case done =>
    refine ⟨getF_setF_fits (by decide) _ _ _ _, rfl, fun n => ?_⟩
    have hsame : SameObjects s (run tierInvalDone s) :=
      ((changes_updTier _).sameObjects_of_regs (by decide) s).trans (sameObjects_setF (f := TIER_CTL.INVALBUSY) (by decide) 0 0 0 _)
    rw [← hsame.pageEnt]
    exact (pageXlat_cases _ n).resolve_right fun ⟨x, hx, _⟩ => nomatch hx
  case rebuild =>
    obtain ⟨hstate, hobj, hdone, hrefused, -⟩ := objDone_spec (v := 2) (by decide) o s
    rw [← run_objRebuild hv] at hstate hobj hdone hrefused
    exact ⟨_, rfl, hstate, hobj, hdone, hrefused⟩
  case release => exact ⟨_, _, rfl, run_objRelease_of_clean hv hp, objDone_spec (by decide) o s⟩
  case escalate =>
    obtain ⟨m, hrun, hm⟩ := objEscalate_spec hv
    exact ⟨_, m, rfl, hrun, hm⟩
  case deadline =>
    rw [run_evictionDeadline_of_lent hx hn hnone]
    split
    · next hdue =>
      obtain ⟨hlent, hfree, hused, hmem⟩ := lentFreed_spec hx hwait
      exact ⟨hmem, fun _ => ⟨hlent, hfree, hused⟩, fun hlt => absurd hdue (by omega)⟩
    · next hdue => exact ⟨rfl, fun hle => absurd hle hdue, fun _ => rfl⟩

end Sys2Proof.Machine

/-! PROOFS. Placement, migration and unmapping of pages (R236 to R240, Table 10-4). -/

namespace Sys2Proof.Machine

/-! The ring of requests. -/

/-- The registers of the ring and its pointers. -/
def ringRegs : List RegName := [.TIER_MIGQ, .TIER_MIGPTR]

/-- A program that writes neither TIER_MIGQ nor TIER_MIGPTR leaves the head request. -/
theorem Act.Writes.migHead {a : Act} {l : List RegName} (h : a.Writes l) (hl : ∀ r ∈ ringRegs, r ∉ l) (s : State) : migHead (run a s) = migHead s := by
  have hq : RegName.TIER_MIGQ ∉ l := hl _ (by decide)
  have hp : RegName.TIER_MIGPTR ∉ l := hl _ (by decide)
  simp only [Machine.migHead, h.getF (f := TIER_MIGQ.SIZE) hq, h.getF (f := TIER_MIGQ.ADDR) hq, h.getF (f := TIER_MIGPTR.HEAD) hp,
    h.getF (f := TIER_MIGPTR.TAIL) hp]

theorem ringSize_le (v : Nat) : ringSize v ≤ 32768 := by
  unfold ringSize
  split
  · next hv =>
    simp only [List.contains_iff_mem, List.mem_cons, List.not_mem_nil, or_false] at hv
    omega
  · exact Nat.zero_le _

theorem ringSize_pos_of_migHead {s : State} {a : Nat} (h : migHead s = some a) : 0 < ringSize (getF s TIER_MIGQ.SIZE) := by
  refine Nat.pos_of_ne_zero fun hzero => ?_
  simp [migHead, hzero] at h

/-- No request is in hand. -/
def migIdle : Act := updTier fun t => { t with mig := .idle }

theorem migIdle_mig (s : State) : (run migIdle s).tier.mig = .idle := by
  rw [migIdle, updTier, run_prim, Prim.tier_tier]

theorem sameObjects_migIdle (s : State) : SameObjects s (run migIdle s) := (changes_updTier _).sameObjects_of_regs (by decide) s

theorem migIdle_getF (f : Fld) (s : State) : getF (run migIdle s) f = getF s f := by
  rw [migIdle, updTier, run_prim, Prim.tier_getF]

section
variable {s : State} {a : Nat} (h : migHead s = some a) (v : Nat)
include h

theorem run_migStatus : run (migStatus v) s = run (pkgWrite (a + 2) (natLe v 1)) s := by
  simp only [migStatus, run_ask, h]

theorem migStatus_status : readNat (run (migStatus v) s) (a + 2) 1 = v % 256 := by
  rw [run_migStatus h, readNat_pkgWrite, Nat.pow_one]

theorem migStatus_getF {f : Fld} (hf : RegName.COH_HOLDSNP ≠ f.reg) : getF (run (migStatus v) s) f = getF s f := by
  rw [run_migStatus h, pkgWrite_getF _ _ _ _ _ _ hf]

/-- The end of the head request: its STATUS is stored, no request is in hand, and HEAD moves on. -/
theorem run_migFinish : run (migFinish v) s =
    run (setF TIER_MIGPTR.HEAD ((getF s TIER_MIGPTR.HEAD + 1) % ringSize (getF s TIER_MIGQ.SIZE))) (run migIdle (run (migStatus v) s)) := by
  simp only [migFinish, run_all_cons, run_all_nil, run_ask]
  rw [updTier, run_prim, Prim.tier_getF, Prim.tier_getF, migStatus_getF h _ (by decide), migStatus_getF h _ (by decide),
    Nat.max_eq_right (ringSize_pos_of_migHead h), migIdle, updTier, run_prim]

theorem migFinish_spec :
    let t := run (migFinish v) s
    readNat t (a + 2) 1 = v % 256 ∧ t.tier.mig = .idle ∧
      getF t TIER_MIGPTR.HEAD = (getF s TIER_MIGPTR.HEAD + 1) % ringSize (getF s TIER_MIGQ.SIZE) := by
  have hpos := ringSize_pos_of_migHead h
  have hle := ringSize_le (getF s TIER_MIGQ.SIZE)
  have hlt : (getF s TIER_MIGPTR.HEAD + 1) % ringSize (getF s TIER_MIGQ.SIZE) < 2 ^ 16 := by
    have := Nat.mod_lt (getF s TIER_MIGPTR.HEAD + 1) hpos
    omega
  rw [run_migFinish h]
  refine ⟨?_, ?_, (getF_setF_fits (by decide) _ _ _ _).trans (Nat.mod_eq_of_lt hlt)⟩
  · rw [(sameObjects_setF (f := TIER_MIGPTR.HEAD) (by decide) _ _ _ _).readNat, (sameObjects_migIdle _).readNat, migStatus_status h]
  · rw [setF_tier, migIdle_mig]

end

theorem writes_migFinish (v : Nat) : (migFinish v).Writes [.COH_HOLDSNP, .TIER_MIGPTR] := by
  have hstatus : (migStatus v).Writes [.COH_HOLDSNP, .TIER_MIGPTR] := by
    simp only [migStatus, within_ask]
    intro s
    split
    · exact writes_pkgWrite (by decide) _ _
    · exact within_skip
  exact ⟨hstatus, trivial, fun _ => writes_setF (by decide) _ _ _, trivial⟩

/-! Accounts. -/

/-- The use of an account in a tier, and its over bit. -/
def useFld (tier : Nat) : Fld := if tier = 1 then TIER_ACCT.QUAY else TIER_ACCT.WARE
def overFld (tier : Nat) : Fld := if tier = 1 then TIER_ACCT.QOVER else TIER_ACCT.WOVER

/-- The use once a page of 2 MiB has entered or left. -/
def useAfter (enters : Bool) (v : Nat) : Nat := if enters then v + 2 else v - 2

/-- The over bit clears where the use fits the quota. -/
def overClears (acct tier : Nat) : Act := .ask fun s => Act.when (decide (useOf s acct tier ≤ quotaOf s acct tier)) (setF (overFld tier) 0 acct)

theorem accountPage_eq (acct tier : Nat) (enters : Bool) : accountPage acct tier enters =
    Act.when (tier = 1 || tier = 2) (Act.all [modF (useFld tier) (useAfter enters) acct, overClears acct tier]) := rfl

theorem useFld_overFld_spec (tier : Nat) : (useFld tier).reg = .TIER_ACCT ∧ (overFld tier).reg = .TIER_ACCT ∧ (useFld tier).fits = true ∧
    (overFld tier).apart (useFld tier) = true := by
  unfold useFld overFld
  split <;> decide

theorem writes_overClears (acct tier : Nat) : (overClears acct tier).Writes [.TIER_ACCT] :=
  fun _ => (within_when _ _).mpr fun _ => writes_setF (List.mem_singleton.mpr (useFld_overFld_spec tier).2.1) _ _ _

theorem writes_accountPage (acct tier : Nat) (enters : Bool) : (accountPage acct tier enters).Writes [.TIER_ACCT] := by
  rw [accountPage_eq]
  exact (within_when _ _).mpr fun _ => ⟨fun _ => List.mem_singleton.mpr (useFld_overFld_spec tier).1, writes_overClears _ _, trivial⟩

theorem sameObjects_accountPage (acct tier : Nat) (enters : Bool) (s : State) : SameObjects s (run (accountPage acct tier enters) s) :=
  (changes_accountPage _ _ _).sameObjects (writes_accountPage _ _ _) (by decide) (by decide) s

theorem getF_accountPage {tier : Nat} (h : tier = 1 ∨ tier = 2) (acct : Nat) (enters : Bool) (s : State) :
    getF (run (accountPage acct tier enters) s) (useFld tier) acct = useAfter enters (getF s (useFld tier) acct) % 2 ^ (useFld tier).width := by
  obtain ⟨-, -, hfits, hapart⟩ := useFld_overFld_spec tier
  have hclears (t : State) : getF (run (overClears acct tier) t) (useFld tier) acct = getF t (useFld tier) acct := by
    rw [overClears, run_ask, run_when]
    split
    · exact getF_setF_apart hapart _ _ _ _ _ _
    · rfl
  rw [accountPage_eq, run_when, if_pos (by simpa using h), run_all_cons, run_all_cons, run_all_nil, hclears, getF_modF_fits hfits]

theorem accountPage_quay (acct : Nat) (enters : Bool) (s : State) :
    getF (run (accountPage acct 1 enters) s) TIER_ACCT.QUAY acct = useAfter enters (getF s TIER_ACCT.QUAY acct) % 2 ^ 16 :=
  getF_accountPage (.inl rfl) acct enters s

theorem accountPage_ware (acct : Nat) (enters : Bool) (s : State) :
    getF (run (accountPage acct 2 enters) s) TIER_ACCT.WARE acct = useAfter enters (getF s TIER_ACCT.WARE acct) % 2 ^ 32 :=
  getF_accountPage (.inr rfl) acct enters s

/-! What is refused. -/

theorem frameUsable_of_migRefusal {s : State} {op tier page frame : Nat} (h : migRefusal s op tier page frame = 0) (hop : op = 1 ∨ op = 2) (h3 : tier ≠ 3) :
    frameUsable s tier frame = true := by
  have hop3 : op ≠ 3 := by omega
  by_contra hbad
  have hunusable : frameUsable s tier frame = false := Bool.eq_false_iff.mpr hbad
  refine absurd h ?_
  unfold migRefusal
  dsimp only
  split
  · decide
  split
  · decide
  split
  · decide
  split
  · decide
  rw [if_pos (by simp [h3, hunusable])]
  decide

theorem fits_of_frameUsable {s : State} {tier frame : Nat} (h : frameUsable s tier frame = true) : tier < 4 ∧ frame % 2 ^ 21 = 0 ∧ frame < 2 ^ 48 := by
  simp only [frameUsable, Bool.and_eq_true, decide_eq_true_eq] at h
  obtain ⟨⟨halign, hmatch⟩, -⟩ := h
  unfold frameMatches at hmatch
  split at hmatch <;> simp only [isQuay, isWarehouse, isNeighbour, Bool.and_eq_true, decide_eq_true_eq, Bool.false_eq_true] at hmatch <;> omega

/-- What a refusal answers fits STATUS. -/
theorem migRefusal_lt (s : State) (op tier page frame : Nat) : migRefusal s op tier page frame < 256 := by
  unfold migRefusal
  dsimp only
  repeat' split
  all_goals decide

/-! The head request's branches. -/

section
variable {s : State} {a op : Nat} (hhead : migHead s = some a) (hop : readNat s a 1 = op) (hidle : s.tier.mig = .idle)
include hhead hop hidle

theorem run_migRun_of_refused (hr : migRefusal s op (readNat s (a + 1) 1) (readNat s (a + 8) 8) (readNat s (a + 0x10) 8) ≠ 0) :
    run (migRun op) s = run (migFinish (migRefusal s op (readNat s (a + 1) 1) (readNat s (a + 8) 8) (readNat s (a + 0x10) 8))) s := by
  rw [migRun, run_ask, hhead]
  dsimp only
  rw [if_neg (not_not_intro hop), hidle]
  dsimp only
  rw [if_pos hr]

variable (hr : migRefusal s op (readNat s (a + 1) 1) (readNat s (a + 8) 8) (readNat s (a + 0x10) 8) = 0) (htake : copiesTake s = true)
include hr htake

theorem run_migRun_of_quota (hq : quotaFits s (readNat s (a + 1) 1) (readNat s (a + 8) 8) = false) :
    run (migRun op) s = run (updTier fun t => { t with mig := .waitQuota }) (run (migStatus 4) s) := by
  rw [migRun, run_ask, hhead]
  dsimp only
  rw [if_neg (not_not_intro hop), hidle]
  dsimp only
  rw [if_neg (not_not_intro hr), htake, hq, if_neg (by decide), if_pos (by decide), run_all_cons, run_all_cons, run_all_nil]

theorem run_migRun_of_granted (hq : quotaFits s (readNat s (a + 1) 1) (readNat s (a + 8) 8) = true) (h3 : readNat s (a + 1) 1 ≠ 3) :
    run (migRun op) s = run (if op = 1 then placePage (readNat s (a + 8) 8) (readNat s (a + 1) 1) (readNat s (a + 0x10) 8)
      else moveBegin (readNat s (a + 8) 8) (readNat s (a + 1) 1) (readNat s (a + 0x10) 8)) s := by
  rw [migRun, run_ask, hhead]
  dsimp only
  rw [if_neg (not_not_intro hop), hidle]
  dsimp only
  rw [if_neg (not_not_intro hr), htake, hq, if_neg (by decide), if_neg (by decide), if_neg h3]

end

/-! A place. -/

/-- A frame is ready for a page, zero-filled where it is one of this package; no line of the page counts as lost. -/
def frameReady (page tier frame : Nat) : Act :=
  Act.all [Act.when (decide (tier ≠ 3)) (fillFrame frame 1), updTier fun t => { t with lost := Cells.del t.lost (pageNo page) }]

theorem writes_frameReady (page tier frame : Nat) : (frameReady page tier frame).Writes [.COH_HOLDSNP] :=
  writes_of_changes (k := [.mem, .tier, .coh])
    (changes_cons (changes_when (changes_fillFrame _ _)) (changes_cons ((changes_updTier _).up rfl) changes_nil)) (by decide)

/-- An entry names its page's new frame. -/
def entryFilled (page tier frame : Nat) : Act := setPage (pageNo page) fun e => { e with tier := tier, frame := frame, mig := false }

theorem writes_entryFilled (page tier frame : Nat) : (entryFilled page tier frame).Writes [.COH_HOLDSNP] := writes_setPage (by decide) _ _

theorem entryFilled_entry {page tier frame : Nat} (hf : tier < 4 ∧ frame % 2 ^ 21 = 0 ∧ frame < 2 ^ 48) (s : State) :
    let e := pageEnt (run (entryFilled page tier frame) s) (pageNo page)
    e.tier = tier ∧ e.frame = frame ∧ e.mig = false := by
  obtain ⟨htier, hframe, hmig, -⟩ := pageEnt_setPage (n := pageNo page) (f := fun e => { e with tier := tier, frame := frame, mig := false }) (s := s) hf
  exact ⟨htier, hframe, hmig⟩

/-- A page is mapped at its frame and its account follows. -/
def pageMapped (page tier frame acct : Nat) : Act := Act.all [frameReady page tier frame, entryFilled page tier frame, accountPage acct tier true]

theorem run_pageMapped (page tier frame acct : Nat) (s : State) : run (pageMapped page tier frame acct) s =
    run (accountPage acct tier true) (run (entryFilled page tier frame) (run (frameReady page tier frame) s)) := by
  rw [pageMapped, run_all_cons, run_all_cons, run_all_cons, run_all_nil]

theorem run_placePage (page tier frame : Nat) (s : State) : run (placePage page tier frame) s =
    run retryStalled (run (migFinish 1) (run (pageMapped page tier frame (objAcct s (pageEnt s (pageNo page)).obj)) s)) := by
  simp only [placePage, pageMapped, frameReady, entryFilled, run_ask, run_all_cons, run_all_nil]

section
variable (page tier frame acct : Nat) (s : State)

theorem writes_pageMapped : (pageMapped page tier frame acct).Writes [.COH_HOLDSNP, .TIER_ACCT] := by
  simp only [pageMapped, within_all_cons, within_all_nil, and_true]
  exact ⟨(writes_frameReady _ _ _).mono (by decide), (writes_entryFilled _ _ _).mono (by decide), (writes_accountPage _ _ _).mono (by decide)⟩

variable {page tier frame acct}

theorem pageMapped_entry (hf : tier < 4 ∧ frame % 2 ^ 21 = 0 ∧ frame < 2 ^ 48) :
    let e := pageEnt (run (pageMapped page tier frame acct) s) (pageNo page)
    e.tier = tier ∧ e.frame = frame ∧ e.mig = false := by
  rw [run_pageMapped, (sameObjects_accountPage ..).pageEnt]
  exact entryFilled_entry hf _

/-- Before the account follows, no register but COH_HOLDSNP has changed. -/
theorem entryFilled_getF {f : Fld} (hf : f.reg ∉ [RegName.COH_HOLDSNP]) (i : Nat) :
    getF (run (entryFilled page tier frame) (run (frameReady page tier frame) s)) f i = getF s f i := by
  rw [(writes_entryFilled _ _ _).getF hf, (writes_frameReady _ _ _).getF hf]

theorem pageMapped_quay (h : tier = 1) :
    getF (run (pageMapped page tier frame acct) s) TIER_ACCT.QUAY acct = (getF s TIER_ACCT.QUAY acct + 2) % 2 ^ 16 := by
  subst h
  rw [run_pageMapped, accountPage_quay, entryFilled_getF s (by decide), useAfter, if_pos rfl]

theorem pageMapped_ware (h : tier = 2) :
    getF (run (pageMapped page tier frame acct) s) TIER_ACCT.WARE acct = (getF s TIER_ACCT.WARE acct + 2) % 2 ^ 32 := by
  subst h
  rw [run_pageMapped, accountPage_ware, entryFilled_getF s (by decide), useAfter, if_pos rfl]

end

/-! A move. -/

/-- What asking for the bytes of a page leaves alone. -/
def State.pageView (s : State) : FMap Byte × CohSt × FMap W64 × MigSt := (s.mem, s.coh, s.regs, s.tier.mig)

theorem pageView_of_changes {a : Act} (h : a.Changes [.out, .hural]) : a.Within fun p => ∀ s, (p.apply s).pageView = s.pageView :=
  Act.Within.mono (fun p hp s => by
    cases p
    case send | hural => rfl
    all_goals exact absurd hp (by simp [Prim.part])) h.only

/-- The bytes of a page of the neighbour window are asked for without a use of object space. -/
theorem fetchSend_pageView (w : FetchFor) {l : List Piece} (hn : ∀ p ∈ l, isNeighbour p.a = true) (s : State) :
    (run (fetchSend w l) s).pageView = s.pageView := by
  refine run_same State.pageView ((within_each _ _).mpr fun p hp => ?_) s
  refine (within_ask _).mpr fun s => ?_
  split
  · simp only [within_all_cons, within_all_nil, and_true, usePage, not_isObject_of_neighbour (hn p hp), within_when, Bool.false_eq_true, false_implies, true_and]
    exact ⟨fun _ => rfl, pageView_of_changes (changes_sendRead _ _ _ _)⟩
  · exact within_skip

/-- Every piece of an aligned frame of the neighbour window lies in that window. -/
theorem isNeighbour_of_piece {old : Nat} (halign : old % 2 ^ 21 = 0) (hold : isNeighbour old = true) : ∀ p ∈ piecesOf old (2 ^ 21) false false, isNeighbour p.a = true := by
  intro p hp
  obtain ⟨q, hq, rfl⟩ := List.mem_map.mp hp
  rw [linePieces, if_neg (by decide)] at hq
  obtain ⟨i, hi, rfl⟩ := List.mem_map.mp hq
  rw [List.mem_range] at hi
  simp only [isNeighbour, Bool.and_eq_true, decide_eq_true_eq] at hold ⊢
  omega

/-- The page is marked as moving, and the frames are noted. -/
def moveMarked (page tier frame : Nat) (was : Nat) : Act :=
  Act.all [setPage (pageNo page) fun e => { e with mig := true }, updTier fun t => { t with mig := .moving (BitVec.ofNat 48 was) (BitVec.ofNat 48 frame) tier }]

theorem run_moveMarked (page tier frame was : Nat) (s : State) : run (moveMarked page tier frame was) s =
    Prim.apply (.tier fun t => { t with mig := .moving (BitVec.ofNat 48 was) (BitVec.ofNat 48 frame) tier })
      (run (setPage (pageNo page) fun e => { e with mig := true }) s) := by
  rw [moveMarked, run_all_cons, run_all_cons, run_all_nil, updTier, run_prim]

theorem run_moveBegin (page tier frame : Nat) (s : State) : run (moveBegin page tier frame) s =
    run (Act.when (isNeighbour (pageEnt s (pageNo page)).frame) (fetchSend .page (piecesOf (pageEnt s (pageNo page)).frame (2 ^ 21) false false)))
      (run (moveMarked page tier frame (pageEnt s (pageNo page)).frame) s) := by
  simp only [moveBegin, moveMarked, run_ask, run_all_cons, run_all_nil]

theorem moveBegin_pageView (page tier frame : Nat) (s : State) :
    (run (moveBegin page tier frame) s).pageView = (run (moveMarked page tier frame (pageEnt s (pageNo page)).frame) s).pageView := by
  obtain ⟨-, halign, -⟩ := pageEnt_fits s (pageNo page)
  rw [run_moveBegin, run_when]
  split
  · next hold => exact fetchSend_pageView _ (isNeighbour_of_piece halign hold) _
  · rfl

/-- A move begins: MIG is set, the frames are noted, and HEAD stays. -/
theorem moveBegin_spec (page tier frame : Nat) (s : State) :
    let t := run (moveBegin page tier frame) s
    getF t TIER_MIGPTR.HEAD = getF s TIER_MIGPTR.HEAD ∧ (pageEnt t (pageNo page)).mig = true ∧
      t.tier.mig = .moving (BitVec.ofNat 48 (pageEnt s (pageNo page)).frame) (BitVec.ofNat 48 frame) tier := by
  have hview := moveBegin_pageView page tier frame s
  simp only [run_moveMarked, State.pageView, Prod.mk.injEq, Prim.tier_mem, Prim.tier_coh, Prim.tier_regs, Prim.tier_tier] at hview
  obtain ⟨hmem, hcoh, hregs, hmig⟩ := hview
  have hreg (q : RegName) : getReg (run (moveBegin page tier frame) s) q 0 0 = getReg (run (setPage (pageNo page) fun e => { e with mig := true }) s) q 0 0 := by
    rw [getReg, getReg, hregs]
  have hobjects : SameObjects (run (setPage (pageNo page) fun e => { e with mig := true }) s) (run (moveBegin page tier frame) s) :=
    ⟨hmem, hcoh, hreg _, hreg _⟩
  obtain ⟨-, -, hset, -⟩ := pageEnt_setPage (f := fun e => { e with mig := true }) (pageEnt_fits s (pageNo page))
  refine ⟨?_, ?_, hmig⟩
  · rw [getF_of_getReg (f := TIER_MIGPTR.HEAD) (hreg _)]
    exact (writes_setPage (l := [.COH_HOLDSNP]) (by decide) _ _).getF (by decide) _ _ s
  · rw [hobjects.pageEnt, hset]

theorem writes_settleFrame (frame : Nat) : (settleFrame frame).Writes [.COH_HOLDSNP] :=
  (within_ask _).mpr fun _ => (within_each _ _).mpr fun _ _ => writes_dropCopies (by decide) _ _

theorem writes_copyPage (old new : Nat) : (copyPage old new).Writes [.COH_HOLDSNP] := by
  have hinfo : (moveInfo old new).Writes [.COH_HOLDSNP] := writes_of_changes (changes_moveInfo _ _) (by decide)
  have hfill : (fillFrame new 1).Writes [.COH_HOLDSNP] := writes_of_changes (changes_fillFrame _ _) (by decide)
  unfold copyPage
  split
  · refine writes_withFree fun pick => (within_ask _).mpr fun s => ?_
    simp only [within_all_cons, within_all_nil, and_true]
    exact ⟨writes_of_changes (changes_sendWrite _ _ _ _) (by decide), hinfo⟩
  · split
    · refine writes_withFree fun pick => (within_ask _).mpr fun s => ?_
      simp only [within_all_cons, within_all_nil, and_true]
      exact ⟨hfill, writes_storeMem (by decide) _ _ _, hinfo⟩
    · simp only [copyFrame, within_all_cons, within_all_nil, and_true, within_ask]
      exact ⟨writes_settleFrame _, hfill, fun _ => ⟨(within_each _ _).mpr fun _ _ => (within_prim _).mpr trivial, hinfo⟩⟩

/-- A page's bytes and metadata stand in the new frame, its entry names it, and the accounts of both tiers follow. -/
def pageMoved (page acct tier was old new : Nat) : Act :=
  Act.all [copyPage old new, fetchDrop fun w => decide (w = .page), entryFilled page tier new, accountPage acct tier true, accountPage acct was false]

theorem writes_pageMoved (page acct tier was old new : Nat) : (pageMoved page acct tier was old new).Writes [.COH_HOLDSNP, .TIER_ACCT] := by
  simp only [pageMoved, within_all_cons, within_all_nil, and_true]
  exact ⟨(writes_copyPage _ _).mono (by decide), writes_of_changes (changes_fetchDrop _) (by decide), (writes_entryFilled _ _ _).mono (by decide),
    (writes_accountPage _ _ _).mono (by decide), (writes_accountPage _ _ _).mono (by decide)⟩

theorem pageMoved_entry {page acct tier was old new : Nat} (hf : tier < 4 ∧ new % 2 ^ 21 = 0 ∧ new < 2 ^ 48) (s : State) :
    let e := pageEnt (run (pageMoved page acct tier was old new) s) (pageNo page)
    e.tier = tier ∧ e.frame = new ∧ e.mig = false := by
  rw [pageMoved, run_all_cons, run_all_cons, run_all_cons, run_all_cons, run_all_cons, run_all_nil, (sameObjects_accountPage ..).pageEnt,
    (sameObjects_accountPage ..).pageEnt]
  exact entryFilled_entry hf _

theorem run_moveDone {s : State} {a : Nat} {old new : Addr} {tier : Nat} (hhead : migHead s = some a) (hmig : s.tier.mig = .moving old new tier)
    (hdue : fetchDue s .page = false) (hheld : tier = 3 → frameHeld s old.toNat = false) :
    run moveDone s = run (.seq retryStalled (freeFrame (pageEnt s (pageNo (readNat s (a + 8) 8))).tier old.toNat)) (run (migFinish 1)
      (run (pageMoved (readNat s (a + 8) 8) (objAcct s (pageEnt s (pageNo (readNat s (a + 8) 8))).obj) tier
        (pageEnt s (pageNo (readNat s (a + 8) 8))).tier old.toNat new.toNat) s)) := by
  have hgo : (!fetchDue s .page && !(decide (tier = 3) && frameHeld s old.toNat)) = true := by
    by_cases h3 : tier = 3 <;> simp [hdue, h3, hheld]
  rw [moveDone, run_ask, hmig, hhead]
  dsimp only
  rw [hgo, run_when, if_pos rfl]
  simp only [pageMoved, entryFilled, run_all_cons, run_all_nil, run_seq]

/-! An unmap. -/

/-- The account and the frame of a page that is gone. -/
def frameGone (acct : Nat) (e : PageEnt) : Act := Act.all [accountPage acct e.tier false, freeFrame e.tier e.frame]

theorem changes_frameGone (acct : Nat) (e : PageEnt) : (frameGone acct e).Changes [.regs, .out, .tier, .hural] :=
  changes_cons ((changes_accountPage _ _ _).up rfl) (changes_cons ((changes_freeFrame _ _).up rfl) changes_nil)

theorem writes_frameGone (acct : Nat) (e : PageEnt) : (frameGone acct e).Writes [.TIER_ACCT] := by
  simp only [frameGone, within_all_cons, within_all_nil, and_true]
  exact ⟨writes_accountPage _ _ _, writes_of_changes (changes_freeFrame _ _) (by decide)⟩

/-- An entry becomes absent. -/
def entryAbsent (page : Nat) : Act := setPage (pageNo page) fun x => { x with tier := 0, mig := false }

theorem writes_entryAbsent (page : Nat) : (entryAbsent page).Writes [.COH_HOLDSNP] := writes_setPage (by decide) _ _

theorem entryAbsent_tier (page : Nat) (s : State) : (pageEnt (run (entryAbsent page) s) (pageNo page)).tier = 0 := by
  obtain ⟨-, halign, hframe⟩ := pageEnt_fits s (pageNo page)
  obtain ⟨htier, -⟩ := pageEnt_setPage (n := pageNo page) (f := fun x => { x with tier := 0, mig := false }) (s := s) ⟨Nat.zero_lt_succ 3, halign, hframe⟩
  exact htier

/-- A page becomes absent; its account follows and its frame is freed. -/
def pageUnmapped (page acct : Nat) (e : PageEnt) : Act := Act.all [entryAbsent page, Act.when (decide (e.tier ≠ 0)) (frameGone acct e)]

theorem run_pageUnmapped (page acct : Nat) (e : PageEnt) (s : State) : run (pageUnmapped page acct e) s =
    run (Act.when (decide (e.tier ≠ 0)) (frameGone acct e)) (run (entryAbsent page) s) := by
  rw [pageUnmapped, run_all_cons, run_all_cons, run_all_nil]

theorem writes_pageUnmapped (page acct : Nat) (e : PageEnt) : (pageUnmapped page acct e).Writes [.COH_HOLDSNP, .TIER_ACCT] := by
  simp only [pageUnmapped, within_all_cons, within_all_nil, within_when, and_true]
  exact ⟨(writes_entryAbsent _).mono (by decide), fun _ => (writes_frameGone _ _).mono (by decide)⟩

theorem pageUnmapped_tier (page acct : Nat) (e : PageEnt) (s : State) : (pageEnt (run (pageUnmapped page acct e) s) (pageNo page)).tier = 0 := by
  have hsame := (changes_when (c := decide (e.tier ≠ 0)) (changes_frameGone acct e)).sameObjects ((within_when _ _).mpr fun _ => writes_frameGone acct e)
    (by decide) (by decide) (run (entryAbsent page) s)
  rw [run_pageUnmapped, hsame.pageEnt, entryAbsent_tier]

/-- The account of a warehouse page is 2 MiB lower. -/
theorem pageUnmapped_ware (page acct : Nat) {e : PageEnt} (h : e.tier = 2) (s : State) :
    getF (run (pageUnmapped page acct e) s) TIER_ACCT.WARE acct = getF s TIER_ACCT.WARE acct - 2 := by
  have hfree : (freeFrame 2 e.frame).Writes [] := writes_of_changes (changes_freeFrame _ _) (by decide)
  have hlt : getF s TIER_ACCT.WARE acct < 2 ^ 32 := bitsOf_lt _ _ _
  rw [run_pageUnmapped, run_when, if_pos (by simp [h]), frameGone, h, run_all_cons, run_all_cons, run_all_nil, hfree.getF (by decide), accountPage_ware,
    (writes_entryAbsent page).getF (by decide), useAfter, if_neg Bool.false_ne_true]
  exact Nat.mod_eq_of_lt ((Nat.sub_le _ _).trans_lt hlt)

theorem run_unmapPage {s : State} {a : Nat} (hhead : migHead s = some a) (hop : readNat s a 1 = 3) (hidle : s.tier.mig = .idle)
    (hr : migRefusal s 3 0 (readNat s (a + 8) 8) 0 = 0) (htake : copiesTake s = true) :
    run unmapPage s = run (migFinish 1) (run (pageUnmapped (readNat s (a + 8) 8) (objAcct s (pageEnt s (pageNo (readNat s (a + 8) 8))).obj)
      (pageEnt s (pageNo (readNat s (a + 8) 8)))) s) := by
  rw [unmapPage, run_ask, hhead]
  dsimp only
  rw [hop, hidle, if_neg (by decide), if_neg (not_not_intro hr), htake, if_neg (by decide)]
  simp only [pageUnmapped, entryAbsent, frameGone, run_all_cons, run_all_nil]

/-! A request that waited for quota. -/

theorem run_quotaRelease {s : State} {a : Nat} (hhead : migHead s = some a) (hwait : s.tier.mig = .waitQuota) :
    run quotaRelease s = if quotaFits s (readNat s (a + 1) 1) (readNat s (a + 8) 8) = true then
      run (migRun (readNat s a 1)) (run migIdle (run (migStatus 0) s)) else s := by
  rw [quotaRelease, run_ask, hwait, hhead]
  dsimp only
  split
  · rw [run_all_cons, run_all_cons, run_all_cons, run_all_nil, migIdle]
  · rw [run_skip]

/-- With its STATUS 0 and no request in hand, the head request is as it was. -/
theorem quotaReleased_spec {s : State} {a : Nat} (hhead : migHead s = some a) :
    let m := run migIdle (run (migStatus 0) s)
    m.tier.mig = .idle ∧ readNat m (a + 2) 1 = 0 ∧ getF m TIER_MIGPTR.HEAD = getF s TIER_MIGPTR.HEAD := by
  refine ⟨migIdle_mig _, ?_, ?_⟩
  · rw [(sameObjects_migIdle _).readNat, migStatus_status hhead]
  · rw [migIdle_getF, migStatus_getF hhead _ (by decide)]

/-! The commands. -/

theorem exec_placeOrMove {op : Nat} (hop : op = 1 ∨ op = 2) (s : State) :
    exec (if op = 1 then .migrationPlace else .migrationMove) s = .next (run (migRun op) s) := by
  obtain rfl | rfl := hop <;> rfl

section
variable {s : State} {a : Nat} (hhead : migHead s = some a)
include hhead

/-- The head request ends with STATUS 1 after work that leaves the ring alone. -/
theorem headEnds_spec {w : Act} (hw : w.Writes [.COH_HOLDSNP, .TIER_ACCT]) :
    let t := run (migFinish 1) (run w s)
    readNat t (a + 2) 1 = 1 ∧ t.tier.mig = .idle ∧ getF t TIER_MIGPTR.HEAD = (getF s TIER_MIGPTR.HEAD + 1) % ringSize (getF s TIER_MIGQ.SIZE) := by
  have hspec := migFinish_spec ((hw.migHead (by decide) s).trans hhead) 1
  rwa [hw.getF (f := TIER_MIGPTR.HEAD) (by decide), hw.getF (f := TIER_MIGQ.SIZE) (by decide)] at hspec

/-- A request that is refused ends with the refusal as its STATUS. -/
theorem migRun_refused_spec {op : Nat} (hop : readNat s a 1 = op) (hidle : s.tier.mig = .idle)
    (hr : migRefusal s op (readNat s (a + 1) 1) (readNat s (a + 8) 8) (readNat s (a + 0x10) 8) ≠ 0) :
    let t := run (migRun op) s
    readNat t (a + 2) 1 = migRefusal s op (readNat s (a + 1) 1) (readNat s (a + 8) 8) (readNat s (a + 0x10) 8) ∧
      getF t TIER_MIGPTR.HEAD = (getF s TIER_MIGPTR.HEAD + 1) % ringSize (getF s TIER_MIGQ.SIZE) ∧ t.tier.mig = .idle := by
  obtain ⟨hstatus, hmig, hnext⟩ := migFinish_spec hhead (migRefusal s op (readNat s (a + 1) 1) (readNat s (a + 8) 8) (readNat s (a + 0x10) 8))
  rw [Nat.mod_eq_of_lt (migRefusal_lt ..)] at hstatus
  rw [run_migRun_of_refused hhead hop hidle hr]
  exact ⟨hstatus, hnext, hmig⟩

/-- A request beyond its quota waits at the head with STATUS 4. -/
theorem migRun_quota_spec {op : Nat} (hop : readNat s a 1 = op) (hidle : s.tier.mig = .idle)
    (hr : migRefusal s op (readNat s (a + 1) 1) (readNat s (a + 8) 8) (readNat s (a + 0x10) 8) = 0) (htake : copiesTake s = true)
    (hq : quotaFits s (readNat s (a + 1) 1) (readNat s (a + 8) 8) = false) :
    let t := run (migRun op) s
    readNat t (a + 2) 1 = 4 ∧ t.tier.mig = .waitQuota ∧ getF t TIER_MIGPTR.HEAD = getF s TIER_MIGPTR.HEAD := by
  rw [run_migRun_of_quota hhead hop hidle hr htake hq]
  refine ⟨?_, ?_, ?_⟩
  · rw [((changes_updTier _).sameObjects_of_regs (by decide) _).readNat, migStatus_status hhead]
  · rw [updTier, run_prim, Prim.tier_tier]
  · rw [updTier, run_prim, Prim.tier_getF, migStatus_getF hhead _ (by decide)]

end

/-- Settles O27: what an entry reads as, then one lemma a branch of the head request. -/
theorem placementAndMigration : Obligations.PlacementAndMigration := by
  refine ⟨fun s n e htier halign hframe => ?entry, fun s v => ⟨_, rfl, ?tail⟩, fun s a hhead hop hidle hr hq h3 htake => ?place,
    fun s a hhead hop hidle hr hq h3 htake => ?move, fun s a hhead hidle => ⟨fun op hop hread hr => ?refused, fun op hop hread hr htake hq => ?waits⟩,
    fun s a old new tier hhead hmig hdue hheld => ?moved, fun s a hhead hop hidle hr htake => ?unmap, fun s a hhead hwait => ⟨_, rfl, ?release⟩⟩
  case entry => exact pageEnt_setPage (f := fun _ => e) ⟨htier, halign, hframe⟩
  case tail =>
    exact ⟨(getF_setF_fits (by decide) _ _ _ _).trans (Nat.mod_eq_of_lt v.isLt), getF_setF_apart (by decide) _ _ _ _ _ _, setF_mem ..⟩
  case place =>
    have hfits := fits_of_frameUsable (frameUsable_of_migRefusal hr (.inl rfl) h3)
    have hrun := run_migRun_of_granted hhead hop hidle hr htake hq h3
    rw [if_pos rfl, run_placePage] at hrun
    obtain ⟨hstatus, hmig, hnext⟩ := headEnds_spec hhead (writes_pageMapped (readNat s (a + 8) 8) (readNat s (a + 1) 1) (readNat s (a + 0x10) 8)
      (objAcct s (pageEnt s (pageNo (readNat s (a + 8) 8))).obj))
    obtain ⟨htier, hframe, hclear⟩ := pageMapped_entry (acct := objAcct s (pageEnt s (pageNo (readNat s (a + 8) 8))).obj) s hfits
    exact ⟨_, _, rfl, hrun, htier, hframe, hclear, hmig, hstatus, hnext, fun h => pageMapped_quay s h, fun h => pageMapped_ware s h⟩
  case move =>
    have hrun := run_migRun_of_granted hhead hop hidle hr htake hq h3
    rw [if_neg (by decide)] at hrun
    have hspec := moveBegin_spec (readNat s (a + 8) 8) (readNat s (a + 1) 1) (readNat s (a + 0x10) 8) s
    rw [← hrun] at hspec
    exact ⟨_, rfl, hspec⟩
  case refused => exact ⟨_, exec_placeOrMove hop s, migRun_refused_spec hhead hread hidle hr⟩
  case waits => exact ⟨_, exec_placeOrMove hop s, migRun_quota_spec hhead hread hidle hr htake hq⟩
  case moved =>
    obtain ⟨-, hidle, hnext⟩ := headEnds_spec hhead (writes_pageMoved (readNat s (a + 8) 8) (objAcct s (pageEnt s (pageNo (readNat s (a + 8) 8))).obj) tier
      (pageEnt s (pageNo (readNat s (a + 8) 8))).tier old.toNat new.toNat)
    exact ⟨_, _, rfl, run_moveDone hhead hmig hdue hheld, fun htier halign => pageMoved_entry ⟨htier, halign, new.isLt⟩ s, hidle, hnext⟩
  case unmap =>
    have hrun := run_unmapPage hhead hop hidle hr htake
    obtain ⟨hstatus, hmig, hnext⟩ := headEnds_spec hhead (writes_pageUnmapped (readNat s (a + 8) 8)
      (objAcct s (pageEnt s (pageNo (readNat s (a + 8) 8))).obj) (pageEnt s (pageNo (readNat s (a + 8) 8))))
    rw [← hrun] at hstatus hmig hnext
    refine ⟨_, _, rfl, hrun, pageUnmapped_tier _ _ _ s, hnext, hmig, hstatus, fun htier _ => ?_⟩
    have huse (t : State) (acct : Nat) : useOf t acct 2 = getF t TIER_ACCT.WARE acct := rfl
    rw [hrun, huse, huse, (writes_migFinish 1).getF (by decide), pageUnmapped_ware _ _ htier]
  case release =>
    have hrun := run_quotaRelease hhead hwait
    refine ⟨fun hq => ?_, fun hq => ⟨_, hrun.trans (if_pos hq), quotaReleased_spec hhead⟩⟩
    rw [hq, if_neg Bool.false_ne_true] at hrun
    exact hrun

end Sys2Proof.Machine

/-! PROOFS. The coherent domain: what one update of an agent, of the directory or of the wires changes (R255 to R264). -/

namespace Sys2Proof.Machine

/-! Agents. -/

theorem cohAgent_congr {s t : State} (h : t.coh = s.coh) (a : Nat) : cohAgent t a = cohAgent s a := by rw [cohAgent, cohAgent, h]

theorem cohAgent_updAgent (a b : Nat) (f : CohAgent → CohAgent) (s : State) :
    cohAgent (run (updAgent a f) s) b = if b = a then f (cohAgent s a) else cohAgent s b := Cells.get_put ..

@[simp] theorem cohAgent_updAgent_same (a : Nat) (f : CohAgent → CohAgent) (s : State) : cohAgent (run (updAgent a f) s) a = f (cohAgent s a) := by
  rw [cohAgent_updAgent, if_pos rfl]

/-- A program leaves a part of every agent as it was. -/
abbrev Act.KeepsAgents {α : Type} (g : CohAgent → α) (act : Act) : Prop := act.Within fun p => ∀ s b, g (cohAgent (p.apply s) b) = g (cohAgent s b)

theorem keepsAgents_updAgent {α : Type} {g : CohAgent → α} {f : CohAgent → CohAgent} (h : ∀ x, g (f x) = g x) (a : Nat) : (updAgent a f).KeepsAgents g :=
  fun s b => by
    have hb := cohAgent_updAgent a b f s
    rw [updAgent, run_prim] at hb
    rw [hb]
    split
    · next he => rw [he, h]
    · rfl

theorem Act.KeepsAgents.eq {α : Type} {g : CohAgent → α} {act : Act} (h : act.KeepsAgents g) (s : State) (b : Nat) :
    g (cohAgent (run act s) b) = g (cohAgent s b) := run_same (fun s => g (cohAgent s b)) (h.mono fun _ hp s => hp s b) s

/-- A program that leaves every agent's lines leaves every copy. -/
theorem Act.KeepsAgents.copyOf {act : Act} (h : act.KeepsAgents CohAgent.lines) (s : State) (a line : Nat) : copyOf (run act s) a line = Machine.copyOf s a line := by
  rw [Machine.copyOf, h.eq]; rfl

/-- What the homes hold and what is on the wires: the domain without its agents. -/
def State.homes (s : State) : CohSt := { s.coh with agents := [] }

/-- A program changes nothing of the domain but its agents. -/
abbrev Act.KeepsHomes (act : Act) : Prop := act.Within fun p => ∀ s, (p.apply s).homes = s.homes

theorem keepsHomes_updAgent (a : Nat) (f : CohAgent → CohAgent) : (updAgent a f).KeepsHomes := fun _ => rfl

theorem Act.KeepsHomes.eq {act : Act} (h : act.KeepsHomes) (s : State) : (run act s).homes = s.homes := run_same State.homes h s

/-- Where the homes are the same, so are the directory, the requests, the snoops, the replies and the transactions. -/
theorem wires_of_homes {s t : State} (h : t.homes = s.homes) :
    t.coh.dir = s.coh.dir ∧ t.coh.reqs = s.coh.reqs ∧ t.coh.snoops = s.coh.snoops ∧ t.coh.resps = s.coh.resps ∧ t.coh.txs = s.coh.txs := by
  simp only [State.homes, CohSt.mk.injEq] at h
  obtain ⟨-, hdir, hreqs, hsnoops, hresps, htxs, -⟩ := h
  exact ⟨hdir, hreqs, hsnoops, hresps, htxs⟩

theorem keepsHomes_setCopy (a line : Nat) (c : Option CLine) : (setCopy a line c).KeepsHomes := keepsHomes_updAgent _ _
theorem keepsHomes_endResv (a line : Nat) : (endResv a line).KeepsHomes := keepsHomes_updAgent _ _

/-- A line takes the value that it is given, or leaves the cache. -/
@[simp] theorem copyOf_setCopy_same (a line : Nat) (c : Option CLine) (s : State) : copyOf (run (setCopy a line c) s) a line = c := by
  rw [copyOf, setCopy, cohAgent_updAgent_same]
  cases c with
  | none => exact (Cells.look_del _ _ _).trans (if_pos rfl)
  | some c => exact (Cells.look_ins _ _ _ _).trans (if_pos rfl)

theorem keepsAgents_endResv {α : Type} {g : CohAgent → α} (h : ∀ x r, g { x with resv := r } = g x) (a line : Nat) : (endResv a line).KeepsAgents g :=
  keepsAgents_updAgent (fun x => h x _) a

theorem keepsAgents_setCopy {α : Type} {g : CohAgent → α} (h : ∀ x l, g { x with lines := l } = g x) (a line : Nat) (c : Option CLine) :
    (setCopy a line c).KeepsAgents g := keepsAgents_updAgent (fun x => h x _) a

/-! The directory. -/

theorem Cells.look_eq_none {V : Type} {m : FMap V} {k : Nat} (h : ∀ e ∈ m, e.1 ≠ k) : Cells.look m k = none := by
  induction m with
  | nil => rfl
  | cons e m ih =>
    rw [List.forall_mem_cons] at h
    rw [Cells.look, if_neg (Ne.symm h.1), ih h.2]

/-- What a map of sparse storage says of a key after one key's value was mapped. -/
theorem Cells.look_map_key {V : Type} (g : V → V) (m : FMap V) (line k : Nat) :
    Cells.look (m.map fun e => if e.1 = line then (e.1, g e.2) else e) k = if k = line then (Cells.look m k).map g else Cells.look m k := by
  induction m with
  | nil => simp [Cells.look]
  | cons e m ih =>
    obtain ⟨i, v⟩ := e
    by_cases hk : k = i
    · subst hk
      by_cases hl : k = line <;> simp [hl, Cells.look]
    · by_cases hl : i = line
      · subst hl
        simp [Cells.look, ih, hk]
      · simp [hl, Cells.look, ih, hk]

theorem dir_setDir (line k : Nat) (e : Option DirEnt) (s : State) :
    Cells.look (run (setDir line e) s).coh.dir k = if k = line then e else Cells.look s.coh.dir k := by
  cases e with
  | none => exact Cells.look_del _ _ _
  | some e => exact Cells.look_ins _ _ _ _

@[simp] theorem dir_setDir_same (line : Nat) (e : Option DirEnt) (s : State) : Cells.look (run (setDir line e) s).coh.dir line = e := by
  rw [dir_setDir, if_pos rfl]

/-- Only the directory changes with an entry. -/
theorem setDir_frame (line : Nat) (e : Option DirEnt) (s : State) :
    (run (setDir line e) s).coh.reqs = s.coh.reqs ∧ ∀ b, cohAgent (run (setDir line e) s) b = cohAgent s b := ⟨rfl, fun _ => rfl⟩

/-- The entry of the line that a request names becomes the most recent one. -/
theorem dir_dirRequest (line : Nat) (s : State) : Cells.look (run (dirRequest line) s).coh.dir line =
    (Cells.look s.coh.dir line).map fun e => { e with last := s.coh.order + 1 } :=
  (Cells.look_map_key (fun e : DirEnt => { e with last := s.coh.order + 1 }) s.coh.dir line line).trans (if_pos rfl)

/-- Snoops set out to the agents named, and the line's transaction waits for them; memory and registers stay. -/
theorem openTx_spec (line : Nat) (job : TxFor) (k : SnpKind) (dests : List Nat) (s : State) :
    Cells.look (run (openTx line job k dests) s).coh.txs line = some { job := job, waits := dests } ∧
    (run (openTx line job k dests) s).coh.snoops = s.coh.snoops ++ dests.map (fun a => { line := line, agent := a, kind := k, sent := s.now }) ∧
    (run (openTx line job k dests) s).mem = s.mem ∧ (run (openTx line job k dests) s).regs = s.regs :=
  ⟨(Cells.look_ins _ _ _ _).trans (if_pos rfl), rfl, rfl, rfl⟩

end Sys2Proof.Machine

/-! PROOFS. Cache hits and misses of an agent's core, and lines that leave its cache (R256, R261, Tables 11-2 and 11-3). -/

namespace Sys2Proof.Machine

/-! What a core does with a line that its cache holds. -/

theorem run_coreAct_load {s : State} {a line : Nat} {c : CLine} (hc : copyOf s a line = some c) :
    run (coreAct a line .load) s = run (send (.coreData a (BitVec.ofNat 48 (line * 64)) (descBytes c.data))) s := by
  rw [coreAct, run_ask, hc]

/-- A line becomes M with its bytes; the reservations on it end. -/
def ownedWrite (a line : Nat) (c : CLine) (d : Desc) : Act := Act.all [setCopy a line (some { c with st := .m, data := d }), endResv a line]

theorem run_coreAct_store {s : State} {a line : Nat} {c : CLine} (hc : copyOf s a line = some c) (ad : Addr) (bs : List Byte) :
    run (coreAct a line (.store ad bs)) s = run (ownedWrite a line c (lineWith c.data ad.toNat bs)) s := by
  rw [coreAct, run_ask, hc]; rfl

theorem copyOf_ownedWrite (a line : Nat) (c : CLine) (d : Desc) (s : State) :
    copyOf (run (ownedWrite a line c d) s) a line = some { c with st := .m, data := d } := by
  rw [ownedWrite, run_all_cons, run_all_cons, run_all_nil, (keepsAgents_endResv (fun _ _ => rfl) a line).copyOf, copyOf_setCopy_same]

theorem keepsHomes_ownedWrite (a line : Nat) (c : CLine) (d : Desc) : (ownedWrite a line c d).KeepsHomes :=
  ⟨keepsHomes_setCopy _ _ _, keepsHomes_endResv _ _, trivial⟩

theorem changes_ownedWrite (a line : Nat) (c : CLine) (d : Desc) : (ownedWrite a line c d).Changes [.coh] :=
  changes_cons (changes_setCopy _ _ _) (changes_cons (changes_endResv _ _) changes_nil)

/-! A line leaves a cache. -/

theorem keepsAgents_evictLine {α : Type} {g : CohAgent → α} (hlines : ∀ x l, g { x with lines := l } = g x) (hresv : ∀ x r, g { x with resv := r } = g x)
    (hpend : ∀ x p, g { x with pend := p } = g x) (a line : Nat) : (evictLine a line).KeepsAgents g := by
  intro s
  dsimp only
  split
  · trivial
  · next c _ =>
    refine ⟨keepsAgents_setCopy hlines _ _ _, keepsAgents_endResv hresv _ _, ?_, trivial⟩
    generalize c.st = st
    cases st with
    | m | o | e | f => exact keepsAgents_updAgent (fun x => hpend x _) a
    | i | s => trivial

theorem keepsHomes_evictLine (a line : Nat) : (evictLine a line).KeepsHomes := by
  intro s
  dsimp only
  split
  · trivial
  · next c _ =>
    refine ⟨keepsHomes_setCopy _ _ _, keepsHomes_endResv _ _, ?_, trivial⟩
    generalize c.st = st
    cases st with
    | m | o | e | f => exact keepsHomes_updAgent _ _
    | i | s => trivial

/-- The write-back, EvC or EvF that a line's end in a cache leaves unacknowledged (Tables 11-2 and 11-3). -/
def CLine.evicted (c : CLine) : Option Pend :=
  match c.st with
  | .m | .o => some { data := some c.data, poison := c.bad }
  | .e | .f => some { data := none }
  | _ => none

/-- An evicted line's write-back or notice is pending. -/
def pendEvicted (a line : Nat) (c : CLine) : Act :=
  match c.evicted with
  | some p => updAgent a fun x => { x with pend := Cells.ins x.pend line p }
  | none => .skip

theorem run_evictLine {s : State} {a line : Nat} {c : CLine} (hc : copyOf s a line = some c) :
    run (evictLine a line) s = run (pendEvicted a line c) (run (endResv a line) (run (setCopy a line none) s)) := by
  obtain ⟨st, data, hold, bad⟩ := c
  rw [evictLine, run_ask, hc]
  cases st <;> rfl

theorem keepsAgents_pendEvicted {α : Type} {g : CohAgent → α} (h : ∀ x p, g { x with pend := p } = g x) (a line : Nat) (c : CLine) :
    (pendEvicted a line c).KeepsAgents g := by
  unfold pendEvicted
  split
  · exact keepsAgents_updAgent (fun x => h x _) a
  · trivial

/-- The evicted line is in its cache no more. -/
theorem copyOf_evictLine (a line : Nat) (s : State) : copyOf (run (evictLine a line) s) a line = none := by
  cases hc : copyOf s a line with
  | none => rw [evictLine, run_ask, hc]; exact hc
  | some c =>
    rw [run_evictLine hc, (keepsAgents_pendEvicted (fun _ _ => rfl) a line c).copyOf, (keepsAgents_endResv (fun _ _ => rfl) a line).copyOf,
      copyOf_setCopy_same]

/-- A line in M or O waits to be written back with its data. -/
theorem pend_evictLine {s : State} {a line : Nat} {c : CLine} (hc : copyOf s a line = some c) (hst : c.st = .m ∨ c.st = .o) :
    Cells.look (cohAgent (run (evictLine a line) s) a).pend line = some { data := some c.data, poison := c.bad } := by
  have he : c.evicted = some { data := some c.data, poison := c.bad } := by
    rcases hst with h | h <;> simp only [CLine.evicted, h]
  rw [run_evictLine hc, pendEvicted, he, cohAgent_updAgent_same]
  exact (Cells.look_ins _ _ _ _).trans (if_pos rfl)

/-! Requests. -/

theorem reqs_request (a line : Nat) (k : ReqKind) (op : CoreOp) (s : State) :
    (run (request a line k op) s).coh.reqs = s.coh.reqs ++ [(a, line, k)] := rfl

theorem keepsAgents_request {α : Type} {g : CohAgent → α} (h : ∀ x w, g { x with wants := w } = g x) (a line : Nat) (k : ReqKind) (op : CoreOp) :
    (request a line k op).KeepsAgents g := ⟨keepsAgents_updAgent (fun x => h x _) a, fun _ _ => rfl, trivial⟩

theorem wants_request (a line : Nat) (k : ReqKind) (op : CoreOp) (s : State) :
    Cells.look (cohAgent (run (request a line k op) s) a).wants line = some op := by
  have h : cohAgent (run (request a line k op) s) a = cohAgent (run (updAgent a fun x => { x with wants := Cells.ins x.wants line op }) s) a := rfl
  rw [h, cohAgent_updAgent_same]
  exact (Cells.look_ins _ _ _ _).trans (if_pos rfl)

/-- A request has gone out for a line that the agent does not hold; where the cache was full it gave up a line that no request waits for. -/
structure CacheMissed (a line : Nat) (op : CoreOp) (s t : State) : Prop where
  reqs : t.coh.reqs = s.coh.reqs ++ [(a, line, if op.owns then .rdx else .rds)]
  wants : Cells.look (cohAgent t a).wants line = some op
  room : cacheFull s a line = true → ∃ v ∈ victims s a, copyOf t a v = none

theorem requestNew_missed {s : State} {a line : Nat} (op : CoreOp) (h : cacheFull s a line = false ∨ victims s a ≠ []) :
    CacheMissed a line op s (run (requestNew a line op) s) := by
  cases hfull : cacheFull s a line with
  | false =>
    have hrun : run (requestNew a line op) s = run (request a line (if op.owns then .rdx else .rds) op) s := by
      rw [requestNew, run_ask, hfull]; rfl
    rw [hrun]
    exact ⟨reqs_request .., wants_request .., fun h => absurd (hfull.symm.trans h) Bool.false_ne_true⟩
  | true =>
    obtain ⟨v, hv, hrun⟩ : ∃ v ∈ victims s a, run (requestNew a line op) s =
        Prim.apply .fresh (run (request a line (if op.owns then .rdx else .rds) op) (run (evictLine a v) s)) := by
      cases hvs : victims s a with
      | nil => exact (h.elim (fun h => Bool.false_ne_true (h.symm.trans hfull)) fun h => h hvs).elim
      | cons v vs =>
        refine ⟨(v :: vs).getD (Config.freeValue s.free 0 % (v :: vs).length) v, ?_, by rw [requestNew, run_ask, hfull, hvs]; rfl⟩
        rw [List.getD_eq_getElem _ _ (Nat.mod_lt _ (by simp))]
        exact List.getElem_mem _
    obtain ⟨-, hreqs, -⟩ := wires_of_homes ((keepsHomes_evictLine a v).eq s)
    rw [hrun]
    refine ⟨?_, wants_request .., fun _ => ⟨v, hv, ?_⟩⟩
    · rw [Prim.fresh_coh, reqs_request, hreqs]
    · exact ((keepsAgents_request (fun _ _ => rfl) a line _ op).copyOf _ a v).trans (copyOf_evictLine a v s)

/-! A core's operation on a line (`coreRequest`), where its agent issues requests and has nothing outstanding for the line. -/

section
variable {s : State} {a line : Nat} {op : CoreOp} (hactive : agentActive s a = true) (hwants : Cells.look (cohAgent s a).wants line = none)
  (hpend : Cells.look (cohAgent s a).pend line = none)
include hactive hwants hpend

theorem coreRequest_miss (hc : copyOf s a line = none) : run (coreRequest a line op) s = run (requestNew a line op) s := by
  simp only [coreRequest, run_ask, hactive, hwants, hpend, hc, Bool.not_true, Option.isSome_none, Bool.or_self, Bool.false_eq_true, if_false]

theorem coreRequest_hit {c : CLine} (hc : copyOf s a line = some c) (h : op.owns = false ∨ c.st = .m ∨ c.st = .e) :
    run (coreRequest a line op) s = run (coreAct a line op) s := by
  have hok : (!op.owns || decide (c.st = .m) || decide (c.st = .e)) = true := by
    rcases h with h | h | h <;> simp [h]
  simp only [coreRequest, run_ask, hactive, hwants, hpend, hc, Bool.not_true, Option.isSome_none, Bool.or_self, Bool.false_eq_true, if_false, hok, if_true]

theorem coreRequest_upgrade {c : CLine} (hc : copyOf s a line = some c) (hop : op.owns = true) (hm : c.st ≠ .m) (he : c.st ≠ .e) :
    run (coreRequest a line op) s = run (request a line .upg op) s := by
  have hno : (!op.owns || decide (c.st = .m) || decide (c.st = .e)) = false := by simp [hop, hm, he]
  simp only [coreRequest, run_ask, hactive, hwants, hpend, hc, Bool.not_true, Option.isSome_none, Bool.or_self, Bool.false_eq_true, if_false, hno]

end

/-- An access that reaches warehouse or quay is not one of a register (Table 1-10). -/
theorem not_isRegSpace_of_route {s : State} {p : Piece} {x : Nat} {o : Option Nat} (h : route s p = .mem x o) : isRegSpace p.a = false := by
  by_contra hreg
  have hreg' := Bool.eq_true_of_not_eq_false hreg
  simp only [isRegSpace, Bool.and_eq_true, decide_eq_true_eq] at hreg'
  have hno : isWarehouse p.a = false ∧ isQuay p.a = false ∧ isNeighbour p.a = false ∧ isObject p.a = false ∧ isPcie p.a = false := by
    simp only [isWarehouse, isQuay, isNeighbour, isObject, isPcie, Bool.and_eq_false_iff, decide_eq_false_iff_not]
    omega
  obtain ⟨hw, hq, hn, ho, hp⟩ := hno
  simp [route, hw, hq, hn, ho, hp, Bool.eq_true_of_not_eq_false hreg] at h

/-- A core's access of a caching member with power that reaches warehouse or quay first uses its page, then operates on its line (R256). -/
theorem run_coreDoes_of_mem {s : State} {a x : Nat} {addr : Addr} {op : CoreOp} {o : Option Nat}
    (hroute : route s { a := addr.toNat, n := op.size, wr := op.owns, rebuild := false } = .mem x o) (hcaches : agentCaches s a = true)
    (hon : coreOn s a = true) : run (coreDoes a addr op) s = run (coreRequest a (x / 64) op) (run (usePage addr.toNat) s) := by
  have hreg := not_isRegSpace_of_route hroute
  dsimp only at hreg
  simp only [coreDoes, run_given, hon, hreg, Bool.false_eq_true, if_true, if_false, coreAccess, run_ask, hroute, hcaches, run_seq]

theorem run_agentLoad_of_mem {s : State} {a x : Nat} {l : Addr} {o : Option Nat}
    (hroute : route s { a := l.toNat / 64 * 64, n := 1, wr := false, rebuild := false } = .mem x o) (hcaches : agentCaches s a = true)
    (hon : coreOn s a = true) : run (agentLoad a l) s = run (coreRequest a (x / 64) .load) (run (usePage (l.toNat / 64 * 64)) s) := by
  have hreg : isRegSpace l.toNat = false := by
    have h := not_isRegSpace_of_route hroute
    simp only [isRegSpace, Bool.and_eq_false_iff, decide_eq_false_iff_not] at h ⊢
    omega
  have hline : (BitVec.ofNat 48 (l.toNat / 64 * 64)).toNat = l.toNat / 64 * 64 := by
    rw [BitVec.toNat_ofNat]; omega
  rw [agentLoad, hreg, if_neg Bool.false_ne_true, run_coreDoes_of_mem (op := .load) (by rw [hline]; exact hroute) hcaches hon, hline]

section
variable {m : State} {a line : Nat} (hactive : agentActive m a = true) (hwants : Cells.look (cohAgent m a).wants line = none)
  (hpend : Cells.look (cohAgent m a).pend line = none)
include hactive hwants hpend

/-- A load: a hit returns the line and changes no copy, a miss sends RdS. -/
theorem coreRequest_load : ∃ t, run (coreRequest a line .load) m = t ∧ t.mem = m.mem ∧ t.regs = m.regs ∧
    (∀ c, copyOf m a line = some c → t.out = .coreData a (BitVec.ofNat 48 (line * 64)) (descBytes c.data) :: m.out ∧ t.coh = m.coh) ∧
    (copyOf m a line = none → (cacheFull m a line = false ∨ victims m a ≠ []) →
      t.coh.reqs = m.coh.reqs ++ [(a, line, .rds)] ∧ Cells.look (cohAgent t a).wants line = some .load ∧ t.out = m.out ∧
      (cacheFull m a line = true → ∃ v ∈ victims m a, copyOf t a v = none)) := by
  refine ⟨_, rfl, ?_⟩
  cases hc : copyOf m a line with
  | none =>
    have ho := (changes_requestNew a line .load).only
    rw [coreRequest_miss hactive hwants hpend hc]
    refine ⟨only_mem ho (by decide) m, only_regs ho (by decide) m, fun _ h => (by cases h), fun _ hroom => ?_⟩
    obtain ⟨hreqs, hwant, hvictim⟩ := requestNew_missed .load hroom
    exact ⟨hreqs, hwant, only_out ho (by decide) m, hvictim⟩
  | some c =>
    rw [coreRequest_hit hactive hwants hpend hc (.inl rfl), run_coreAct_load hc, run_send]
    refine ⟨Prim.send_mem _ _, Prim.send_regs _ _, fun _ h => ?_, fun h => by cases h⟩
    cases h
    exact ⟨Prim.send_out _ _, Prim.send_coh _ _⟩

/-- A store: in M or E it makes the line M with its bytes, in another state it sends Upg, a miss sends RdX. -/
theorem coreRequest_store (ad : Addr) (bs : List Byte) : ∃ t, run (coreRequest a line (.store ad bs)) m = t ∧ t.mem = m.mem ∧ t.regs = m.regs ∧ t.out = m.out ∧
    (∀ c, copyOf m a line = some c → (c.st = .m ∨ c.st = .e) →
      copyOf t a line = some { c with st := .m, data := lineWith c.data ad.toNat bs } ∧ t.coh.reqs = m.coh.reqs) ∧
    (∀ c, copyOf m a line = some c → c.st ≠ .m → c.st ≠ .e → copyOf t a line = some c ∧ t.coh.reqs = m.coh.reqs ++ [(a, line, .upg)]) ∧
    (copyOf m a line = none → (cacheFull m a line = false ∨ victims m a ≠ []) → t.coh.reqs = m.coh.reqs ++ [(a, line, .rdx)] ∧
      Cells.look (cohAgent t a).wants line = some (.store ad bs) ∧ (cacheFull m a line = true → ∃ v ∈ victims m a, copyOf t a v = none)) := by
  refine ⟨_, rfl, ?_⟩
  cases hc : copyOf m a line with
  | none =>
    have ho := (changes_requestNew a line (.store ad bs)).only
    rw [coreRequest_miss hactive hwants hpend hc]
    refine ⟨only_mem ho (by decide) m, only_regs ho (by decide) m, only_out ho (by decide) m, fun _ h => (by cases h), fun _ h => (by cases h), fun _ hroom => ?_⟩
    obtain ⟨hreqs, hwant, hvictim⟩ := requestNew_missed (.store ad bs) hroom
    exact ⟨hreqs, hwant, hvictim⟩
  | some c =>
    by_cases hst : c.st = .m ∨ c.st = .e
    · have ho := (changes_ownedWrite a line c (lineWith c.data ad.toNat bs)).only
      obtain ⟨-, hreqs, -⟩ := wires_of_homes ((keepsHomes_ownedWrite a line c (lineWith c.data ad.toNat bs)).eq m)
      rw [coreRequest_hit hactive hwants hpend hc (.inr hst), run_coreAct_store hc]
      refine ⟨only_mem ho (by decide) m, only_regs ho (by decide) m, only_out ho (by decide) m, fun _ h _ => ?_, fun _ h hm he => ?_, fun h => by cases h⟩
      · cases h
        exact ⟨copyOf_ownedWrite .., hreqs⟩
      · cases h
        exact (hst.elim hm he).elim
    · have ho := (changes_request a line .upg (.store ad bs)).only
      rw [coreRequest_upgrade hactive hwants hpend hc rfl (fun h => hst (.inl h)) fun h => hst (.inr h)]
      refine ⟨only_mem ho (by decide) m, only_regs ho (by decide) m, only_out ho (by decide) m, fun _ h hmem => ?_, fun _ h _ _ => ?_, fun h => by cases h⟩
      · cases h
        exact absurd hmem hst
      · cases h
        exact ⟨((keepsAgents_request (fun _ _ => rfl) a line _ _).copyOf _ a line).trans hc, reqs_request ..⟩

end

end Sys2Proof.Machine

/-! PROOFS. Homes that serve RdS, RdX and Upg, and directories that make room (R258 to R260, R264). -/

namespace Sys2Proof.Machine

/-- A request that its home takes: it leaves the wires and is its line's most recent one (R259). -/
def reqTaken (s : State) (a line : Nat) (k : ReqKind) : State := run (dirRequest line) (run (takeReq a line k) s)

section
variable {s : State} {a line : Nat} {k : ReqKind}

/-- Nothing else of the package changes with it. -/
theorem reqTaken_frame (s : State) (a line : Nat) (k : ReqKind) : (reqTaken s a line k).coh.snoops = s.coh.snoops ∧
    (reqTaken s a line k).coh.reqs = s.coh.reqs.erase (a, line, k) ∧ (reqTaken s a line k).now = s.now ∧ (reqTaken s a line k).mem = s.mem ∧
    (reqTaken s a line k).regs = s.regs ∧ ∀ b, cohAgent (reqTaken s a line k) b = cohAgent s b := ⟨rfl, rfl, rfl, rfl, rfl, fun _ => rfl⟩

theorem dir_reqTaken : Cells.look (reqTaken s a line k).coh.dir line = (Cells.look s.coh.dir line).map fun e => { e with last := s.coh.order + 1 } :=
  dir_dirRequest line (run (takeReq a line k) s)

/-- A home that grants serves a request of a line that nothing holds back: no transaction is open, its quay answers, it is neither poisoned nor held,
its owner is not the requester without a copy, and its directory has room. -/
theorem run_homeRequest (hreq : (a, line, k) ∈ s.coh.reqs) (htx : Cells.look s.coh.txs line = none) (hstop : homesStop s = false)
    (hup : (isQuay (line * 64) && !quayUp s (line * 64)) = false) (hheld : heldAt s (line * 64) = false) (hclean : isPoisoned s (line * 64) = false)
    (hown : dirOwner s line = some a → copyOf s a line ≠ none) (hroom : dirHasRoom s line = true) :
    run (homeRequest a line k) s = run (serveReq a line k) (reqTaken s a line k) := by
  have hreq' : s.coh.reqs.contains (a, line, k) = true := List.contains_iff_mem.mpr hreq
  have hown' : (decide (dirOwner s line = some a) && (copyOf s a line).isNone) = false := by
    rw [Bool.and_eq_false_iff, decide_eq_false_iff_not, Option.isNone_eq_false_iff, Option.isSome_iff_ne_none]
    exact or_iff_not_imp_left.mpr fun h => hown (not_not.mp h)
  simp only [homeRequest, run_ask, hreq', htx, hstop, hup, hheld, hclean, hown', hroom, Bool.not_true, Option.isSome_none, Bool.or_self, Bool.false_eq_true, if_false]
  rfl

theorem dirHasRoom_of_look {e : DirEnt} (h : Cells.look s.coh.dir line = some e) : dirHasRoom s line = true := by
  rw [dirHasRoom, h]; rfl

theorem dirHasRoom_of_free (h : (s.coh.dir.filter fun e => homeOf e.1 = homeOf line).length < homeEntries (homeOf line)) : dirHasRoom s line = true := by
  rw [dirHasRoom, decide_eq_true h, Bool.or_true]

theorem dirOwner_of_none (h : Cells.look s.coh.dir line = none) : dirOwner s line = none := by rw [dirOwner, h]

end

/-! Grants. -/

/-- A granted line is in its cache, and its request is outstanding no more. -/
def lineReceived (a line : Nat) (c : CLine) : Act :=
  Act.all [setCopy a line (some c), updAgent a fun x => { x with wants := Cells.del x.wants line }]

theorem copyOf_lineReceived (a line : Nat) (c : CLine) (s : State) : copyOf (run (lineReceived a line c) s) a line = some c := by
  have hkeep : (updAgent a fun x => { x with wants := Cells.del x.wants line }).KeepsAgents CohAgent.lines :=
    keepsAgents_updAgent (fun _ => by rfl) a
  rw [lineReceived, run_all_cons, run_all_cons, run_all_nil, hkeep.copyOf, copyOf_setCopy_same]

theorem keepsHomes_lineReceived (a line : Nat) (c : CLine) : (lineReceived a line c).KeepsHomes := ⟨keepsHomes_setCopy _ _ _, keepsHomes_updAgent _ _, trivial⟩

theorem changes_lineReceived (a line : Nat) (c : CLine) : (lineReceived a line c).Changes [.coh] :=
  changes_cons (changes_setCopy _ _ _) (changes_cons (changes_updAgent _ _) changes_nil)

/-- A grant of M or E to an agent that stays holds the line for 64 ns and does what the core wanted (R264). -/
theorem run_grant {s : State} {a line : Nat} {st : CState} (hst : st = .m ∨ st = .e) (hstay : (cohAgent s a).departing = false) (d : Desc) :
    run (grant a line st d) s =
      run (coreAct a line (Cells.get .load (cohAgent s a).wants line)) (run (lineReceived a line { st := st, data := d, hold := s.now + 256 }) s) := by
  have hhold : ((decide (st = .m) || decide (st = .e)) && !(cohAgent s a).departing) = true := by
    rcases hst with h | h <;> simp [h, hstay]
  simp only [grant, run_ask, run_all_cons, run_all_nil, run_when, hstay, Bool.false_eq_true, if_false]
  rw [hstay] at hhold
  simp only [hhold, if_true]
  rfl

/-- E granted to a core that loads: the line as granted is in its cache. -/
theorem grant_load {s : State} {a line : Nat} (hop : Cells.get .load (cohAgent s a).wants line = .load) (hstay : (cohAgent s a).departing = false) (d : Desc) :
    ∃ t, run (grant a line .e d) s = t ∧ copyOf t a line = some { st := .e, data := d, hold := s.now + 256 } ∧ t.homes = s.homes ∧ t.mem = s.mem ∧ t.regs = s.regs := by
  have ho := (changes_lineReceived a line { st := .e, data := d, hold := s.now + 256 }).only
  have hc := copyOf_lineReceived a line { st := .e, data := d, hold := s.now + 256 } s
  rw [run_grant (.inr rfl) hstay, hop, run_coreAct_load hc]
  exact ⟨_, rfl, hc, (keepsHomes_lineReceived ..).eq s, only_mem ho (by decide) s, only_regs ho (by decide) s⟩

/-- M granted to a core that stores: the line in its cache has the store's bytes. -/
theorem grant_store {s : State} {a line : Nat} {ad : Addr} {bs : List Byte} (hop : Cells.look (cohAgent s a).wants line = some (.store ad bs))
    (hstay : (cohAgent s a).departing = false) (d : Desc) : ∃ t, run (grant a line .m d) s = t ∧
      copyOf t a line = some { st := .m, data := lineWith d ad.toNat bs, hold := s.now + 256 } ∧ t.homes = s.homes ∧ t.mem = s.mem ∧ t.regs = s.regs := by
  have hop' : Cells.get .load (cohAgent s a).wants line = .store ad bs := by rw [Cells.get_eq_look, hop]; rfl
  have hin := (changes_lineReceived a line { st := .m, data := d, hold := s.now + 256 }).only
  have hc := copyOf_lineReceived a line { st := .m, data := d, hold := s.now + 256 } s
  have hw := (changes_ownedWrite a line { st := .m, data := d, hold := s.now + 256 } (lineWith d ad.toNat bs)).only
  rw [run_grant (.inl rfl) hstay, hop', run_coreAct_store hc]
  exact ⟨_, rfl, copyOf_ownedWrite .., ((keepsHomes_ownedWrite ..).eq _).trans ((keepsHomes_lineReceived ..).eq s),
    (only_mem hw (by decide) _).trans (only_mem hin (by decide) s), (only_regs hw (by decide) _).trans (only_regs hin (by decide) s)⟩

/-- A home's part of a grant of E or M: the request is taken and the agent is the line's owner. -/
def ownerRecorded (s : State) (a line : Nat) (k : ReqKind) : State :=
  run (setDir line (some { owned := true, owner := a, last := s.coh.order + 1 })) (reqTaken s a line k)

theorem ownerRecorded_spec (s : State) (a line : Nat) (k : ReqKind) :
    Cells.look (ownerRecorded s a line k).coh.dir line = some { owned := true, owner := a, last := s.coh.order + 1 } ∧
    (ownerRecorded s a line k).coh.reqs = s.coh.reqs.erase (a, line, k) ∧ (ownerRecorded s a line k).now = s.now ∧ (ownerRecorded s a line k).mem = s.mem ∧
    (ownerRecorded s a line k).regs = s.regs ∧ cohAgent (ownerRecorded s a line k) a = cohAgent s a := by
  have ho := (changes_setDir line (some { owned := true, owner := a, last := s.coh.order + 1 })).only
  obtain ⟨hreqs, hagents⟩ := setDir_frame line (some { owned := true, owner := a, last := s.coh.order + 1 }) (reqTaken s a line k)
  obtain ⟨-, hreqs', hnow, hmem, hregs, hagents'⟩ := reqTaken_frame s a line k
  exact ⟨dir_setDir_same .., hreqs.trans hreqs', (only_now ho (by decide) _).trans hnow, (only_mem ho (by decide) _).trans hmem,
    (only_regs ho (by decide) _).trans hregs, (hagents a).trans (hagents' a)⟩

/-! Requests served. -/

section
variable {s : State} {a line : Nat} {k : ReqKind}

/-- A line nobody holds is granted with E from memory. -/
theorem run_serveReq_rds_free (h : Cells.look s.coh.dir line = none) :
    run (serveReq a line .rds) (reqTaken s a line .rds) = run (grant a line .e (memLine s line)) (ownerRecorded s a line .rds) := by
  have hnone : Cells.look (reqTaken s a line .rds).coh.dir line = none := by rw [dir_reqTaken, h]; rfl
  rw [serveReq, run_ask, hnone]
  simp only [serveRds, run_ask, hnone, lastOf, run_all_cons, run_all_nil]
  rfl

theorem run_serveReq_rds_owned {e : DirEnt} (h : Cells.look s.coh.dir line = some e) (hown : e.owned = true) :
    run (serveReq a line .rds) (reqTaken s a line .rds) = run (openTx line (.req a .rds) .snpS [e.owner]) (reqTaken s a line .rds) := by
  have hsome : Cells.look (reqTaken s a line .rds).coh.dir line = some { e with last := s.coh.order + 1 } := by rw [dir_reqTaken, h]; rfl
  rw [serveReq, run_ask, hsome]
  simp only [hown, if_true]

/-- A line nobody holds, of which the requester has no copy, is granted with M from memory to a core that stores. -/
theorem run_serveReq_own_free {ad : Addr} {bs : List Byte} (hk : k ≠ .rds) (h : Cells.look s.coh.dir line = none) (hc : copyOf s a line = none)
    (hop : Cells.look (cohAgent s a).wants line = some (.store ad bs)) :
    run (serveReq a line k) (reqTaken s a line k) = run (grant a line .m (memLine s line)) (ownerRecorded s a line k) := by
  have hnone : Cells.look (reqTaken s a line k).coh.dir line = none := by rw [dir_reqTaken, h]; rfl
  have hagent : cohAgent (reqTaken s a line k) a = cohAgent s a := rfl
  have hc' : copyOf (reqTaken s a line k) a line = none := by rw [copyOf, hagent]; exact hc
  cases k with
  | rds => exact absurd rfl hk
  | rdx | upg =>
    rw [serveReq, run_ask, hnone]
    simp only [List.isEmpty_nil, if_true, hc', learn, hagent, hop, serveOwn, run_all_cons, run_all_nil, run_ask, run_skip, lastOf, hnone]
    rfl

theorem run_serveReq_own_shared {e : DirEnt} (hk : k ≠ .rds) (h : Cells.look s.coh.dir line = some e) (hothers : e.holders s (some a) ≠ []) :
    run (serveReq a line k) (reqTaken s a line k) = run (openTx line (.req a k) .snpX (e.holders s (some a))) (reqTaken s a line k) := by
  have hsome : Cells.look (reqTaken s a line k).coh.dir line = some { e with last := s.coh.order + 1 } := by rw [dir_reqTaken, h]; rfl
  have hsame : DirEnt.holders (reqTaken s a line k) { e with last := s.coh.order + 1 } (some a) = e.holders s (some a) := rfl
  have hne : (e.holders s (some a)).isEmpty = false := List.isEmpty_eq_false_iff.mpr hothers
  cases k with
  | rds => exact absurd rfl hk
  | rdx | upg =>
    rw [serveReq, run_ask, hsome]
    simp only [hsame, hne, Bool.false_eq_true, if_false]

/-- A transaction opened for a request that its home took. -/
theorem requestOpened_spec (s : State) (a line : Nat) (k : ReqKind) (x : SnpKind) (dests : List Nat) :
    ∃ t, run (openTx line (.req a k) x dests) (reqTaken s a line k) = t ∧ Cells.look t.coh.txs line = some { job := .req a k, waits := dests } ∧
    t.coh.snoops = s.coh.snoops ++ dests.map (fun b => { line := line, agent := b, kind := x, sent := s.now }) ∧ t.mem = s.mem ∧ t.regs = s.regs := by
  obtain ⟨htxs, hsnoops, hmem, hregs⟩ := openTx_spec line (.req a k) x dests (reqTaken s a line k)
  obtain ⟨hsnoops', -, hnow, hmem', hregs', -⟩ := reqTaken_frame s a line k
  rw [hsnoops', hnow] at hsnoops
  exact ⟨_, rfl, htxs, hsnoops, hmem.trans hmem', hregs.trans hregs'⟩

/-- E granted by its home to a core that loads. -/
theorem rdsGranted_spec (hop : Cells.get .load (cohAgent s a).wants line = .load) (hstay : (cohAgent s a).departing = false) (d : Desc) :
    ∃ t, run (grant a line .e d) (ownerRecorded s a line .rds) = t ∧
    Cells.look t.coh.dir line = some { owned := true, owner := a, last := s.coh.order + 1 } ∧
    copyOf t a line = some { st := .e, data := d, hold := s.now + 256 } ∧ t.coh.reqs = s.coh.reqs.erase (a, line, .rds) ∧ t.mem = s.mem ∧ t.regs = s.regs := by
  obtain ⟨hdir, hreqs, hnow, hmem, hregs, hagent⟩ := ownerRecorded_spec s a line .rds
  obtain ⟨t, ht, hcopy, hhomes, hmem', hregs'⟩ := grant_load (hagent.symm ▸ hop) (hagent.symm ▸ hstay) d
  obtain ⟨hdir', hreqs', -⟩ := wires_of_homes hhomes
  rw [hnow] at hcopy
  exact ⟨t, ht, hdir' ▸ hdir, hcopy, hreqs'.trans hreqs, hmem'.trans hmem, hregs'.trans hregs⟩

/-- M granted by its home to a core that stores. -/
theorem ownGranted_spec {ad : Addr} {bs : List Byte} (hop : Cells.look (cohAgent s a).wants line = some (.store ad bs))
    (hstay : (cohAgent s a).departing = false) (d : Desc) : ∃ t, run (grant a line .m d) (ownerRecorded s a line k) = t ∧
    Cells.look t.coh.dir line = some { owned := true, owner := a, last := s.coh.order + 1 } ∧
    copyOf t a line = some { st := .m, data := lineWith d ad.toNat bs, hold := s.now + 256 } ∧ t.mem = s.mem ∧ t.regs = s.regs := by
  obtain ⟨hdir, -, hnow, hmem, hregs, hagent⟩ := ownerRecorded_spec s a line k
  obtain ⟨t, ht, hcopy, hhomes, hmem', hregs'⟩ := grant_store (hagent.symm ▸ hop) (hagent.symm ▸ hstay) d
  obtain ⟨hdir', -⟩ := wires_of_homes hhomes
  rw [hnow] at hcopy
  exact ⟨t, ht, hdir' ▸ hdir, hcopy, hmem'.trans hmem, hregs'.trans hregs⟩

end

/-- The command of a request for ownership at its home. -/
theorem exec_ownRequest {k : ReqKind} (hk : k ≠ .rds) (a : Fin 514) (l : Addr) (s : State) :
    exec (if k = .rdx then .rdx a l else .upg a l) s = .next (run (homeRequest a.val (l.toNat / 64) k) s) := by
  cases k with
  | rds => exact absurd rfl hk
  | rdx => rfl
  | upg => rfl

/-! A directory makes room (R259). -/

section
variable {s : State} {line v : Nat} (hidle : dirEvicting s (homeOf line) = false) (hv : dirVictim s (homeOf line) = some v)
include hidle hv

theorem run_dirRoom_unheld (h : lineHolders s v = []) : run (dirRoom line) s = run (addF COH_DIREVICT.COUNT) (run (setDir v none) s) := by
  simp only [dirRoom, run_ask, hidle, hv, h, Bool.false_eq_true, if_false, List.isEmpty_nil, if_true, run_all_cons, run_all_nil]

theorem run_dirRoom_held (h : lineHolders s v ≠ []) : run (dirRoom line) s = run (openTx v .evict .snpX (lineHolders s v)) s := by
  simp only [dirRoom, run_ask, hidle, hv, List.isEmpty_eq_false_iff.mpr h, Bool.false_eq_true, if_false]

end

/-- Settles O28: loads and stores by `coreRequest_load` and `coreRequest_store`, requests at homes by `run_homeRequest` and the branch of `serveReq`
that answers them. -/
theorem agentsAndHomes : Obligations.AgentsAndHomes := by
  refine ⟨fun s a h => ?page, fun s m a l x o hroute hcaches hon hm hactive hwants hpend => ?load,
    fun s m a ad bs x o hroute hcaches hon hm hactive hwants hpend => ?store, fun s a l c hwants hc => ?evict,
    fun s a l hreq htx hstop hup hheld hclean hdir hroom hop hstay => ?rds, fun s a l o e hreq htx hstop hup hheld hclean hdir hown howner hother => ?rdsOwned,
    fun k s a l ad bs hk hreq htx hstop hup hheld hclean hdir hroom hop hc hstay => ?own,
    fun k s a l e hk hreq htx hstop hup hheld hclean hdir hown hothers => ?ownShared, fun s l v hdir hfull hidle hv => ⟨fun h => ?unheld, fun h => ?held⟩⟩
  case page => rw [usePage, run_when, h]; rfl
  case load =>
    obtain ⟨t, hrun, hspec⟩ := coreRequest_load hactive hwants hpend
    refine ⟨t, ?_, hspec⟩
    show Host.Outcome.next (run (agentLoad a.val l) s) = _
    rw [run_agentLoad_of_mem hroute hcaches hon, ← hm, hrun]
  case store =>
    obtain ⟨t, hrun, hspec⟩ := coreRequest_store hactive hwants hpend ad (bs.take (64 - ad.toNat % 64))
    refine ⟨t, ?_, hspec⟩
    show Host.Outcome.next (run (agentStore a.val ad bs) s) = _
    rw [agentStore, run_coreDoes_of_mem (op := .store ad (bs.take (64 - ad.toNat % 64))) hroute hcaches hon, ← hm, hrun]
  case evict =>
    have ho := (changes_evictLine a (l.toNat / 64)).only
    refine ⟨run (evictLine a (l.toNat / 64)) s, ?_, copyOf_evictLine .., only_mem ho (by decide) s, only_regs ho (by decide) s, pend_evictLine hc⟩
    show Host.Outcome.next (run (agentEvict a.val (l.toNat / 64)) s) = _
    rw [agentEvict, run_ask, hwants]; rfl
  case rds =>
    have hrun := run_homeRequest hreq htx hstop hup hheld hclean (fun h => by rw [dirOwner_of_none hdir] at h; cases h) (dirHasRoom_of_free hroom)
    obtain ⟨t, ht, hspec⟩ := rdsGranted_spec hop hstay (memLine s (l.toNat / 64))
    exact ⟨t, congrArg Host.Outcome.next ((hrun.trans (run_serveReq_rds_free hdir)).trans ht), hspec⟩
  case rdsOwned =>
    have hrun := run_homeRequest hreq htx hstop hup hheld hclean
      (fun h => by simp only [dirOwner, hdir, hown, if_true, howner, Option.some.injEq] at h; exact absurd h hother) (dirHasRoom_of_look hdir)
    obtain ⟨t, ht, htxs, hsnoops, hframe⟩ := requestOpened_spec s a (l.toNat / 64) .rds .snpS [o]
    rw [run_serveReq_rds_owned hdir hown, howner] at hrun
    exact ⟨t, congrArg Host.Outcome.next (hrun.trans ht), hsnoops, htxs, hframe⟩
  case own =>
    have hrun := run_homeRequest hreq htx hstop hup hheld hclean (fun h => by rw [dirOwner_of_none hdir] at h; cases h) (dirHasRoom_of_free hroom)
    obtain ⟨t, ht, hspec⟩ := ownGranted_spec hop hstay (memLine s (l.toNat / 64))
    exact ⟨t, (exec_ownRequest hk a l s).trans (congrArg Host.Outcome.next ((hrun.trans (run_serveReq_own_free hk hdir hc hop)).trans ht)), hspec⟩
  case ownShared =>
    have hrun := run_homeRequest hreq htx hstop hup hheld hclean hown (dirHasRoom_of_look hdir)
    obtain ⟨t, ht, hspec⟩ := requestOpened_spec s a (l.toNat / 64) k .snpX (e.holders s (some a))
    exact ⟨t, (exec_ownRequest hk a l s).trans (congrArg Host.Outcome.next ((hrun.trans (run_serveReq_own_shared hk hdir hothers)).trans ht)), hspec⟩
  case unheld =>
    have hfreed : Cells.look (run (setDir v none) s).coh.dir v = none := dir_setDir_same ..
    rw [run_dirRoom_unheld hidle hv h]
    exact ⟨getF_addF_fits (by decide) _ _ _ _, hfreed⟩
  case held =>
    rw [run_dirRoom_held hidle hv h]
    obtain ⟨htxs, hsnoops, -, hregs⟩ := openTx_spec v .evict .snpX (lineHolders s v) s
    exact ⟨htxs, hsnoops, hregs⟩

end Sys2Proof.Machine

/-! PROOFS. A snoop reply that ends a full write of an object's poisoned line. The home counts the line off in the object's descriptor; that store ends
the copies of the descriptor's own line and empties their replies on the way (R248, R257, R262). -/

namespace Sys2Proof.Machine

/-- The reply of agent 0, which the full write of line 2 waits for. -/
def lastReply : SnpResp := { line := 2, agent := 0, found := .s, data := none }

/-- The reply of agent 1, which the eviction of line 1 waits for. -/
def recallReply : SnpResp := { line := 1, agent := 1, found := .s, data := none }

/-- The page table lies at 0 and the object table at 64: object 0 has one page, in the first frame of warehouse, whose line 2 is poisoned and takes a
full write. Line 1, the object's descriptor, is recalled from the agent that shares it. Both replies are on the way. -/
def healingWrite : State :=
  run (Act.all [setF TIER_PTBASE.EN 1, setF TIER_OBJTAB.ADDR 1])
    { pow := { boot := false }, mem := [(0, 2), (64, 1), (68, 1), (77, 0x80), (88, 1)], tier := { info := [(2, { poison := true })] },
      coh := { dir := [(1, { owned := false, sharers := [1] }), (2, { owned := false, sharers := [0] })], resps := [lastReply, recallReply],
               txs := [(1, { job := .evict, waits := [1] }), (2, { job := .fullWrite 0, waits := [0] })] } }

/-- The write ends with the reply of agent 0, and its store to the descriptor leaves the other reply without a copy to name (`CohSt.forget`). -/
theorem healingWrite_resps : (run (snoopReply 0 2) healingWrite).coh.resps = [{ recallReply with found := .i }] := by decide +kernel

/-- Refutes O29: its clause of a reply that an open transaction waits for says that every other reply stays as it was; on `healingWrite` the reply of
agent 0 ends the write, and the reply of agent 1 does not stay so. -/
theorem not_snoopsAndWriteBacks : ¬ Obligations.SnoopsAndWriteBacks := by
  rintro ⟨-, -, hreply, -⟩
  obtain ⟨t, hexec, hresps, -⟩ := hreply healingWrite 0 0x80 lastReply { job := .fullWrite 0, waits := [0] } (by decide +kernel) (by decide +kernel)
    (by decide) rfl
  obtain rfl : run (snoopReply 0 2) healingWrite = t := Host.Outcome.next.inj hexec
  have hkept : healingWrite.coh.resps.erase lastReply = [recallReply] := by decide
  exact absurd (healingWrite_resps.symm.trans (hresps.trans hkept)) (by decide)

end Sys2Proof.Machine

/-! PROOFS. A full write of a poisoned line that holds the descriptor of its own object: the home counts the line off in the bytes just written (R248, R262). -/

namespace Sys2Proof.Machine

/-- The page table lies at 0 and the object table at 64, in the first frame of warehouse, which is the page of object 0; line 1 is poisoned. -/
def poisonedTable : State :=
  run (Act.all [setF TIER_PTBASE.EN 1, setF TIER_OBJTAB.ADDR 1]) { pow := { boot := false }, mem := [(0, 2)], tier := { info := [(1, { poison := true })] } }

/-- The descriptor of a valid object of one page at the start of object space, with POISLINES 1. -/
def poisonedObject : Desc := BitVec.ofNat 512 (1 + 1 * 2 ^ 0x20 + 0x800000000000 * 2 ^ 0x40 + 1 * 2 ^ 0xC0)

/-- POISLINES of the descriptor reads 0 after the descriptor's write. -/
theorem poisonedTable_poisLines : (readMem (run (uncachedFull 1 poisonedObject) poisonedTable) 64 64)[24]? = some 0 := by decide +kernel

/-- Refutes O30: its clause of a full write says that the line reads as the bytes written, poisoned or not; on `poisonedTable` the write of line 1 is
served, and POISLINES in that line reads one less. -/
theorem not_uncachedAndAtomics : ¬ Obligations.UncachedAndAtomics := by
  rintro ⟨-, -, -, hfull, -⟩
  obtain ⟨t, hexec, hfree, -⟩ := hfull poisonedTable 0x40 poisonedObject (by decide +kernel) (by decide +kernel)
  obtain rfl : run (uncachedFull 1 poisonedObject) poisonedTable = t := Host.Outcome.next.inj hexec
  obtain ⟨hread, -⟩ := hfree rfl
  have hone : (descBytes poisonedObject)[24]? = some 1 := by decide +kernel
  have hzero : (descBytes poisonedObject)[24]? = some 0 := hread ▸ poisonedTable_poisLines
  exact absurd (hone.symm.trans hzero) (by decide)

end Sys2Proof.Machine

/-! PROOFS. Departures of agents: the directory without an agent, and what waits for a departure (R268, R269). -/

namespace Sys2Proof.Machine

/-- An entry names an agent neither as owner nor as sharer. -/
def DirEnt.Lacks (e : DirEnt) (a : Nat) : Prop := (e.owned = true → e.owner ≠ a) ∧ a ∉ e.sharers

/-- The directory does not name an agent at a line. -/
def Unlisted (s : State) (a line : Nat) : Prop := ∀ e, Cells.look s.coh.dir line = some e → e.Lacks a

/-- What is left of an entry once an agent's copy has gone. -/
def DirEnt.without (e : DirEnt) (a : Nat) : DirEnt :=
  { e with owned := e.owned && e.owner ≠ a, sharers := e.sharers.filter fun b => b ≠ a, fwd := if e.fwd = some a then none else e.fwd }

theorem DirEnt.lacks_without (e : DirEnt) (a : Nat) : (e.without a).Lacks a := by
  refine ⟨fun h => ?_, fun h => ?_⟩
  · exact of_decide_eq_true (Bool.and_eq_true_iff.mp h).2
  · simpa using (List.mem_filter.mp h).2

section
variable {s : State} {a line : Nat}

theorem run_dirWithout_none (h : Cells.look s.coh.dir line = none) : run (dirWithout line a) s = s := by
  rw [dirWithout, run_ask, h]; rfl

theorem run_dirWithout_some {e : DirEnt} (h : Cells.look s.coh.dir line = some e) : run (dirWithout line a) s =
    run (setDir line (if !(e.without a).owned && (e.without a).sharers.isEmpty then none else some (e.without a))) s := by
  rw [dirWithout, run_ask, h]; rfl

/-- After an agent's copy of a line has gone, the directory does not name the agent there. -/
theorem unlisted_dirWithout (s : State) (a line : Nat) : Unlisted (run (dirWithout line a) s) a line := by
  intro f hf
  cases h : Cells.look s.coh.dir line with
  | none => rw [run_dirWithout_none h, h] at hf; cases hf
  | some e =>
    rw [run_dirWithout_some h, dir_setDir_same] at hf
    split at hf
    · cases hf
    · exact Option.some.inj hf ▸ e.lacks_without a

/-- It changes no other line's entry. -/
theorem dir_dirWithout_other {k : Nat} (hk : k ≠ line) : Cells.look (run (dirWithout line a) s).coh.dir k = Cells.look s.coh.dir k := by
  cases h : Cells.look s.coh.dir line with
  | none => rw [run_dirWithout_none h]
  | some e => rw [run_dirWithout_some h, dir_setDir, if_neg hk]

theorem Unlisted.dirWithout {k : Nat} (h : Unlisted s a k) (line : Nat) : Unlisted (run (dirWithout line a) s) a k := by
  by_cases hk : k = line
  · exact hk ▸ unlisted_dirWithout s a k
  · intro e he
    exact h e (dir_dirWithout_other hk ▸ he)

end

/-- Once an agent's copies of all the listed lines have gone, the directory names it at none of them, nor where it did not before. -/
theorem unlisted_each {a : Nat} (m : FMap DirEnt) {s : State} (h : ∀ k, Unlisted s a k ∨ ∃ e ∈ m, e.1 = k) (k : Nat) :
    Unlisted (run (Act.each (fun e => dirWithout e.1 a) m) s) a k := by
  induction m generalizing s with
  | nil => exact (h k).resolve_right fun ⟨_, he, _⟩ => List.not_mem_nil he
  | cons e m ih =>
    refine ih fun i => ?_
    rcases h i with hi | ⟨f, hf, rfl⟩
    · exact .inl (hi.dirWithout e.1)
    · rcases List.mem_cons.mp hf with rfl | hf
      · exact .inl (unlisted_dirWithout s a f.1)
      · exact .inr ⟨f, hf, rfl⟩

/-- An agent taken out of every entry is named nowhere. -/
theorem unlisted_of_all (s : State) (a k : Nat) : Unlisted (run (Act.each (fun e => dirWithout e.1 a) s.coh.dir) s) a k := by
  refine unlisted_each s.coh.dir (fun i => ?_) k
  by_cases hi : ∃ e ∈ s.coh.dir, e.1 = i
  · exact .inr hi
  · refine .inl fun e he => ?_
    rw [Cells.look_eq_none fun f hf hfi => hi ⟨f, hf, hfi⟩] at he
    cases he

section
variable {s : State} {a : Nat}

/-- The agent's last write-back is acknowledged and its last request answered: its Depart takes it out of every entry. -/
theorem run_depart (hdep : (cohAgent s a).departing = true) (hsent : (cohAgent s a).departSent = false) (hpend : (cohAgent s a).pend = [])
    (hserved : agentServed s a = false) :
    run (depart a) s = run (updAgent a fun x => { x with departSent := true }) (run (Act.each (fun e => dirWithout e.1 a) s.coh.dir) s) := by
  have hok : ((cohAgent s a).departing && !(cohAgent s a).departSent && (cohAgent s a).pend.isEmpty && !agentServed s a) = true := by
    rw [hdep, hsent, hpend, hserved]; rfl
  simp only [depart, run_ask, hok, if_true, run_all_cons, run_all_nil]

/-- The agent has departed with an empty cache (R268). -/
def agentDeparted (a : Nat) : Act :=
  Act.all [updAgent a fun x => { x with departing := false, departSent := false, departed := true, lines := [], pred := x.pred }, evt COH_EVT.DEPARTED]

theorem run_departComplete (hdep : (cohAgent s a).departing = true) (hsent : (cohAgent s a).departSent = true) (hsnoops : ∀ y ∈ s.coh.snoops, y.agent ≠ a)
    (hresps : ∀ y ∈ s.coh.resps, y.agent ≠ a) : run (departComplete a) s = run (agentDeparted a) s := by
  have hok : ((cohAgent s a).departing && (cohAgent s a).departSent && !s.coh.snoops.any (fun y => decide (y.agent = a)) &&
      !s.coh.resps.any (fun y => decide (y.agent = a))) = true := by
    simpa [hdep, hsent] using ⟨hsnoops, hresps⟩
  simp only [departComplete, run_ask, hok, if_true]
  rfl

theorem changes_agentDeparted (a : Nat) : (agentDeparted a).Changes [.regs, .coh] :=
  changes_cons ((changes_updAgent _ _).up rfl) (changes_cons ((changes_evt _ _ _).up rfl) changes_nil)

theorem cohAgent_agentDeparted (a : Nat) (s : State) : cohAgent (run (agentDeparted a) s) a =
    { cohAgent s a with departing := false, departSent := false, departed := true, lines := [] } :=
  (cohAgent_congr (evt_coh ..) a).trans (cohAgent_updAgent_same ..)

theorem agentDeparted_evt (a : Nat) (s : State) : getF (run (agentDeparted a) s) COH_EVT.DEPARTED = 1 := by
  rw [agentDeparted, run_all_cons, run_all_cons, run_all_nil, getF_evt_fits (by decide)]
  rfl

/-! What waits for a departure does nothing where nothing waits. -/

theorem run_resetGo_idle (h : s.rst.due = []) : run resetGo s = s := by
  have hdue : run (updRst fun r => { r with due := [] }) s = s := by
    show ({ s with rst := { s.rst with due := [] } } : State) = s
    rw [← h]
  rw [resetGo, run_ask, run_when, run_seq, hdue, h, run_each_nil, ite_self]

theorem run_hostGo_idle (h : s.rst.hostDue = none) : run hostGo s = s := by rw [hostGo, run_ask, h]; rfl

theorem run_darkGo_idle (h : s.en.darkDue = false) : run darkGo s = s := by
  rw [darkGo, run_ask]
  split
  · rw [run_when, h]; rfl
  · rfl

/-- What goes on once an agent has departed: resets, an entry into DD, or its return (R268, R269, R381). -/
def afterDeparture (a : Nat) : Act := Act.all [resetGo, hostGo, darkGo, .given (fun s => mayRejoin s a && agentMember s a) (rejoin a)]

theorem run_departureEnds (h : run (departComplete a) s = run (agentDeparted a) s) : run (departureEnds a) s = run (afterDeparture a) (run (agentDeparted a) s) := by
  rw [departureEnds, run_all_cons, h, afterDeparture]

theorem run_afterDeparture_idle (hdue : s.rst.due = []) (hhost : s.rst.hostDue = none) (hdark : s.en.darkDue = false) (hmember : agentMember s a = false) :
    run (afterDeparture a) s = s := by
  rw [afterDeparture, run_all_cons, run_resetGo_idle hdue, run_all_cons, run_hostGo_idle hhost, run_all_cons, run_darkGo_idle hdark, run_all_cons,
    run_all_nil, run_given, hmember, Bool.and_false, if_neg Bool.false_ne_true]

theorem agentMember_congr {t : State} (h : t.chart = s.chart) (a : Nat) : agentMember t a = agentMember s a := by
  simp only [agentMember, theChart, h]

end

end Sys2Proof.Machine

/-! PROOFS. The collapse of the coherent domain and its flush (R270, R271, Tables 11-7 and 11-8). -/

namespace Sys2Proof.Machine

/-- The registers of a collapse: the domain's state, cause, agent and line, and the event (R271). -/
def collapseRegs (cause agent line : Nat) : Act :=
  Act.all [setF COH_STAT2.STATE 2, setF COH_COLLAPSE.CAUSE cause, setF COH_COLLAPSE.AGENT agent, setF COH_COLLAPSE.ADDR (line * 64), evt COH_EVT.COLLAPSE]

/-- A collapse is recorded and logged, and its flush is due. -/
def collapseNoted (cause agent line : Nat) : Act :=
  Act.all [collapseRegs cause agent line, logEv .collapsed, updRst fun r => { r with collapse := true }]

theorem run_collapseStart {s : State} (h : getF s COH_STAT2.STATE ≠ 2) (cause agent line : Nat) :
    run (collapseStart cause agent line) s = run (Act.all [freezeAll, giveUp, recordEvent 3]) (run (collapseNoted cause agent line) s) := by
  rw [collapseStart, run_given, if_pos (decide_eq_true h)]
  simp only [collapseNoted, collapseRegs, run_all_cons, run_all_nil]

theorem run_collapseStart_again {s : State} (h : getF s COH_STAT2.STATE = 2) (cause agent line : Nat) : run (collapseStart cause agent line) s = s := by
  rw [collapseStart, run_given, if_neg (by simp [h])]

theorem changes_collapseRegs (cause agent line : Nat) : (collapseRegs cause agent line).Changes [.regs] :=
  changes_cons (changes_setF _ _ _ _) (changes_cons (changes_setF _ _ _ _) (changes_cons (changes_setF _ _ _ _) (changes_cons (changes_setF _ _ _ _)
    (changes_cons (changes_evt _ _ _) changes_nil))))

theorem changes_collapseNoted (cause agent line : Nat) : (collapseNoted cause agent line).Changes [.regs, .log, .rst] :=
  changes_cons ((changes_collapseRegs _ _ _).up rfl) (changes_cons ((changes_logEv _ _ _ _).up rfl) (changes_cons ((changes_updRst _).up rfl) changes_nil))

section
variable (cause agent line : Nat) (s : State)

theorem collapseNoted_rst : (run (collapseNoted cause agent line) s).rst.collapse = true := by
  simp only [collapseNoted, run_all_cons, run_all_nil, updRst, run_prim, Prim.rst_rst]

theorem collapseNoted_getF (f : Fld) : getF (run (collapseNoted cause agent line) s) f = getF (run (collapseRegs cause agent line) s) f := by
  simp only [collapseNoted, run_all_cons, run_all_nil, updRst, run_prim, Prim.rst_getF, logEv_getF]

theorem collapseNoted_logged : Safety.Logged .collapsed s (run (collapseNoted cause agent line) s) := by
  have hlog := only_log (changes_collapseRegs cause agent line).only (by decide) s
  simp only [collapseNoted, run_all_cons, run_all_nil, updRst, run_prim]
  exact logged_of_log (Prim.rst_log _ _)
    (logged_logEv (by decide) _ _ _ (by rw [Safety.tally, Safety.tally, hlog]))

/-- The state and the record of a collapse. -/
theorem collapseRegs_spec : getF (run (collapseRegs cause agent line) s) COH_STAT2.STATE = 2 ∧
    getF (run (collapseRegs cause agent line) s) COH_COLLAPSE.CAUSE = cause % 2 ^ 4 ∧
    getF (run (collapseRegs cause agent line) s) COH_COLLAPSE.AGENT = agent % 2 ^ 10 ∧
    getF (run (collapseRegs cause agent line) s) COH_COLLAPSE.ADDR = line * 64 % 2 ^ 48 ∧ getF (run (collapseRegs cause agent line) s) COH_EVT.COLLAPSE = 1 := by
  simp only [collapseRegs, run_all_cons, run_all_nil]
  refine ⟨?_, ?_, ?_, ?_, getF_evt_fits (by decide) _ _ _⟩
  · rw [getF_evt_apart (by decide), getF_setF_apart (by decide), getF_setF_apart (by decide), getF_setF_apart (by decide)]
    exact getF_setF_fits (by decide) _ _ _ _
  · rw [getF_evt_apart (by decide), getF_setF_apart (by decide), getF_setF_apart (by decide)]
    exact getF_setF_fits (by decide) _ _ _ _
  · rw [getF_evt_apart (by decide), getF_setF_apart (by decide)]
    exact getF_setF_fits (by decide) _ _ _ _
  · rw [getF_evt_apart (by decide)]
    exact getF_setF_fits (by decide) _ _ _ _

end

/-- The end of a flush leaves nothing at the homes and on the wires, and MODE 0. -/
theorem collapseEnd_spec (s : State) : (run collapseEnd s).homes = { order := (run collapseEnd s).coh.order } ∧ getF (run collapseEnd s) COH_STAT.MODE = 0 := by
  simp only [collapseEnd, run_ask, run_all_cons, run_all_nil]
  exact ⟨rfl, getF_setF_fits (by decide) _ _ _ _⟩

/-- Settles O31: the directory without the agent (`unlisted_of_all`), the end of a departure and of a flush, and what a collapse records. -/
theorem departureAndCollapse : Obligations.DepartureAndCollapse := by
  refine ⟨fun s a hdep hsent hpend hserved => ?depart, fun s a hdep hsent hsnoops hresps => ?complete, fun s c a l hstate hc ha => ?collapse,
    fun s c a l hstate => ⟨_, rfl, run_collapseStart_again hstate ..⟩, fun s a l => ⟨fun h => ⟨_, rfl, ?late⟩, fun hsnoops hresps => ⟨_, rfl, ?answered⟩⟩,
    fun s a => ⟨_, rfl, fun h => ?overdue, fun h => ?staying⟩, fun s hdue hstate => ?flush⟩
  case depart =>
    have ho := (changes_depart a).only
    refine ⟨_, rfl, ?_, fun l e he => ?_, only_mem ho (by decide) s, only_regs ho (by decide) s⟩
    · rw [run_depart hdep hsent hpend hserved, cohAgent_updAgent_same]
    · rw [run_depart hdep hsent hpend hserved] at he
      exact unlisted_of_all s a l e he
  case complete =>
    have ho := (changes_agentDeparted a).only
    have hrst := only_rst ho (by decide) s
    have hen := only_en ho (by decide) s
    have hchart := only_chart ho (by decide) s
    have hagent := cohAgent_agentDeparted a s
    refine ⟨_, run (agentDeparted a) s, rfl, run_departureEnds (run_departComplete hdep hsent hsnoops hresps), by rw [hagent], by rw [hagent], by rw [hagent],
      agentDeparted_evt a s, only_mem ho (by decide) s, fun hdue hhost hdark hmember => ?_⟩
    rw [← hrst] at hdue hhost
    rw [← hen] at hdark
    rw [← agentMember_congr hchart] at hmember
    exact (run_departureEnds (run_departComplete hdep hsent hsnoops hresps)).trans (run_afterDeparture_idle hdue hhost hdark hmember)
  case collapse =>
    have ho := (changes_collapseNoted c.toNat a (l.toNat / 64)).only
    have hl := l.isLt
    obtain ⟨hst, hcause, hagent, haddr, hevt⟩ := collapseRegs_spec c.toNat a (l.toNat / 64) s
    simp only [← collapseNoted_getF] at hst hcause hagent haddr hevt
    exact ⟨_, run (collapseNoted c.toNat a (l.toNat / 64)) s, rfl, run_collapseStart hstate .., hst, hcause.trans (Nat.mod_eq_of_lt hc),
      hagent.trans (Nat.mod_eq_of_lt ha), haddr.trans (Nat.mod_eq_of_lt (by omega)), hevt, collapseNoted_logged .., collapseNoted_rst ..,
      only_mem ho (by decide) s, only_coh ho (by decide) s⟩
  case late => rw [snoopTimeout, run_given, h, Bool.true_or, if_pos rfl]
  case answered => rw [snoopTimeout, run_given, hsnoops, hresps]; rfl
  case overdue => rw [departTimeout, run_given, if_pos h]
  case staying => rw [departTimeout, run_given, h]; rfl
  case flush =>
    obtain ⟨hhomes, hmode⟩ := collapseEnd_spec s
    obtain ⟨hdir, hreqs, hsnoops, hresps, htxs⟩ := wires_of_homes (s := { s with coh := { order := (run collapseEnd s).coh.order } }) hhomes
    refine ⟨_, run collapseEnd s, rfl, ?_, hdir, hreqs, hsnoops, hresps, htxs, ?_, hmode⟩
    · rw [flushEnd, run_ask, run_when, hdue, decide_eq_true hstate]; rfl
    · exact congrArg CohSt.amos hhomes

end Sys2Proof.Machine

/-! PROOFS. Die links: lane frames, drops, training, routes and tags (R274 to R284). -/

namespace Sys2Proof.Machine

/-! An edge after an update. -/

@[simp] theorem edgeSt_updEdge (e : Nat) (f : EdgeSt → EdgeSt) (s : State) : edgeSt (run (updEdge e f) s) e = f (edgeSt s e) :=
  (Cells.get_put ..).trans (if_pos rfl)

theorem edgeSt_of_edges {s t : State} (h : t.link.edges = s.link.edges) (e : Nat) : edgeSt t e = edgeSt s e := by rw [edgeSt, edgeSt, h]

/-- A program that does not change the links leaves every edge as it is. -/
theorem Act.Changes.edgeSt {l : List Part} {a : Act} (h : a.Changes l) (hl : Part.link ∉ l) (e : Nat) (s : State) :
    Machine.edgeSt (run a s) e = Machine.edgeSt s e := edgeSt_of_edges (congrArg LinkSt.edges (only_link h.only hl s)) e

/-- A program that does not change the logbook leaves every tally as it is. -/
theorem Act.Changes.tally {l : List Part} {a : Act} (h : a.Changes l) (hl : Part.log ∉ l) (k : LogKind) (s : State) :
    Safety.tally (run a s) k = Safety.tally s k := by rw [Safety.tally, Safety.tally, only_log h.only hl]

/-- A program that does not change the registers leaves every field as it is. -/
theorem Act.Changes.getF {l : List Part} {a : Act} (h : a.Changes l) (hl : Part.regs ∉ l) (f : Fld) (i j : Nat) (s : State) :
    Machine.getF (run a s) f i j = Machine.getF s f i j := getF_of_getReg (by rw [getReg, getReg, only_regs h.only hl])

@[simp] theorem setF_edgeSt (f : Fld) (x i j e : Nat) (s : State) : edgeSt (run (setF f x i j) s) e = edgeSt s e := (rfl)
@[simp] theorem modF_edgeSt (f : Fld) (g : Nat → Nat) (i j e : Nat) (s : State) : edgeSt (run (modF f g i j) s) e = edgeSt s e := (rfl)
@[simp] theorem incF_edgeSt (f : Fld) (n i j e : Nat) (s : State) : edgeSt (run (incF f n i j) s) e = edgeSt s e := (rfl)
@[simp] theorem setBitF_edgeSt (f : Fld) (k : Nat) (b : Bool) (i j e : Nat) (s : State) : edgeSt (run (setBitF f k b i j) s) e = edgeSt s e := (rfl)
@[simp] theorem send_edgeSt (o : Out) (e : Nat) (s : State) : edgeSt (Prim.apply (.send o) s) e = edgeSt s e := (rfl)
@[simp] theorem logEv_edgeSt (k : LogKind) (d o : Nat) (dt : List Nat) (e : Nat) (s : State) : edgeSt (run (logEv k d o dt) s) e = edgeSt s e :=
  (changes_logEv k d o dt).edgeSt (by decide) e s
@[simp] theorem reroute_edgeSt (e : Nat) (s : State) : edgeSt (run reroute s) e = edgeSt s e := (rfl)

@[simp] theorem updEdge_getF (e : Nat) (g : EdgeSt → EdgeSt) (f : Fld) (i j : Nat) (s : State) : getF (run (updEdge e g) s) f i j = getF s f i j := (rfl)
@[simp] theorem updEdge_tally (e : Nat) (g : EdgeSt → EdgeSt) (k : LogKind) (s : State) : Safety.tally (run (updEdge e g) s) k = Safety.tally s k := (rfl)
@[simp] theorem reroute_getF (f : Fld) (i j : Nat) (s : State) : getF (run reroute s) f i j = getF s f i j := (rfl)
@[simp] theorem reroute_tally (k : LogKind) (s : State) : Safety.tally (run reroute s) k = Safety.tally s k := (rfl)

@[simp] theorem EdgeSt.lanes_withLanes (x : EdgeSt) (dir : Bool) (l : List Nat) : (x.withLanes dir l).lanes dir = l := by cases dir <;> rfl
@[simp] theorem EdgeSt.lanes_withLanes_not (x : EdgeSt) (dir : Bool) (l : List Nat) : (x.withLanes (!dir) l).lanes dir = x.lanes dir := by cases dir <;> rfl
@[simp] theorem EdgeSt.not_lanes_withLanes (x : EdgeSt) (dir : Bool) (l : List Nat) : (x.withLanes dir l).lanes (!dir) = x.lanes (!dir) := by cases dir <;> rfl

/-! Fields of an edge that a later write of another field leaves alone. -/

/-- A bit of a field that is a bit per number leaves the fields apart from it alone. -/
@[simp] theorem getF_setBitF_apart {f g : Fld} (h : f.apart g = true) (k : Nat) (b : Bool) (i j m n : Nat) (s : State) :
    getF (run (setBitF f k b i j) s) g m n = getF s g m n := getF_modF_apart h _ i j m n s

/-! Edges that go down (R282, R283). -/

theorem accessFault_tally {k : LogKind} (hfull : k ≠ .logFull) (hacc : k ≠ .accessFault) (who : Agent) (a : Addr) (s : State) :
    Safety.tally (run (accessFault who a) s) k = Safety.tally s k := by
  simp only [accessFault, run_all_cons, run_all_nil, run_send]
  rw [logEv_tally _ _ _ _ _ _ hfull, if_neg hacc, Prim.send_tally]

/-- The requests that end across an edge log access faults and nothing else. -/
theorem edgeFaults_tally {k : LogKind} (hfull : k ≠ .logFull) (hacc : k ≠ .accessFault) (e : Nat) (s : State) :
    Safety.tally (run (edgeFaults e) s) k = Safety.tally s k := by
  simp only [edgeFaults, run_ask, run_all_cons, run_all_nil]
  rw [run_each_same (fun s => Safety.tally s k) fun w _ t => ?wait, run_each_same (fun s => Safety.tally s k) fun r _ t => ?request]
  · rfl
  case request =>
    simp only [run_all_cons, run_all_nil]
    rw [logEv_tally _ _ _ _ _ _ hfull, if_neg hacc]
    rfl
  case wait =>
    simp only [run_all_cons, run_all_nil]
    rw [accessFault_tally hfull hacc]
    split <;> rfl

/-- The registers, the lanes and the event of an edge that stops. -/
def edgeLeaves (e state : Nat) : Act := Act.all [setF D2D_EDGE.STATE state e, setF D2D_EDGE.WIDTH 0 e, updEdge e fun _ => {}, setBitF D2D_EVT.DOWN e true]

theorem changes_edgeLeaves (e state : Nat) : (edgeLeaves e state).Changes [.regs, .link] :=
  changes_cons ((changes_setF _ _ _ _).up rfl) (changes_cons ((changes_setF _ _ _ _).up rfl) (changes_cons ((changes_updEdge _ _).up rfl)
    (changes_cons ((changes_setBitF _ _ _ _ _).up rfl) changes_nil)))

theorem run_edgeStops {s : State} {e state : Nat} (h : getF s D2D_EDGE.STATE e ≠ state) : run (edgeStops e state) s =
    run reroute (run (edgeFaults e) (run (logEv .edgeDown (data := [e])) (run (edgeLeaves e state) s))) := by
  rw [edgeStops, run_given, if_pos (decide_eq_true h)]
  rfl

theorem writes_edgeStops (e state : Nat) : (edgeStops e state).Writes [.D2D_EDGE, .D2D_EVT] := by
  refine (within_given _ _).mpr fun _ _ => ⟨writes_setF (by decide) _ _ _, writes_setF (by decide) _ _ _, trivial, writes_setBitF (by decide) _ _ _ _,
    writes_of_changes (changes_logEv _ _ _ _) (by decide), writes_of_changes (changes_edgeFaults e) (by decide), writes_of_changes changes_reroute (by decide), trivial⟩

/-- An edge that stops has its new state and no width, and the harbourmaster records it. -/
theorem edgeStops_spec {s : State} {e state : Nat} (h : getF s D2D_EDGE.STATE e ≠ state) (hstate : state < 4) :
    getF (run (edgeStops e state) s) D2D_EDGE.STATE e = state ∧ getF (run (edgeStops e state) s) D2D_EDGE.WIDTH e = 0 ∧
      Safety.Logged .edgeDown s (run (edgeStops e state) s) := by
  rw [run_edgeStops h]
  simp only [reroute_getF, (changes_edgeFaults e).getF (by decide), logEv_getF, Safety.Logged, reroute_tally,
    edgeFaults_tally (show LogKind.edgeDown ≠ .logFull by decide) (by decide)]
  refine ⟨?_, ?_, logged_logEv (by decide) _ _ _ ((changes_edgeLeaves e state).tally (by decide) ..)⟩
  · simp only [edgeLeaves, run_all_cons, run_all_nil]
    rw [getF_setBitF_apart (by decide), updEdge_getF, getF_setF_apart (by decide), getF_setF_fits (by decide)]
    exact Nat.mod_eq_of_lt hstate
  · simp only [edgeLeaves, run_all_cons, run_all_nil]
    rw [getF_setBitF_apart (by decide), updEdge_getF, getF_setF_fits (by decide)]
    rfl

/-! Edges that train and run (R279, R280). -/

/-- An edge that runs has the width of its lanes. -/
theorem edgeRuns_spec (e : Nat) (ab ba : List Nat) (forced : Bool) (s : State) : getF (run (edgeRuns e ab ba forced) s) D2D_EDGE.STATE e = 0 ∧
    getF (run (edgeRuns e ab ba forced) s) D2D_EDGE.WIDTH e = ab.length % 8 ∧
    edgeSt (run (edgeRuns e ab ba forced) s) e = { lanesAB := ab, lanesBA := ba, forced := forced } := by
  simp only [edgeRuns, run_all_cons, run_all_nil, run_prim, updEdge_getF, Prim.rst_getF]
  refine ⟨?_, getF_setF_fits (by decide) _ _ _ _, edgeSt_updEdge ..⟩
  rw [getF_setF_apart (by decide)]
  exact getF_setF_fits (by decide) _ _ _ _

/-- A failed attempt that is not the third is counted, and the edge trains on. -/
theorem attemptFails_again {s : State} {e : Nat} (h : (edgeSt s e).attempt < 2) (ab ba : BitVec 4) :
    getF (run (attemptFails e ab ba) s) D2D_EDGE.FAILS e = (edgeSt s e).attempt + 1 ∧
      getF (run (attemptFails e ab ba) s) D2D_EDGE.STATE e = getF s D2D_EDGE.STATE e ∧
      (edgeSt (run (attemptFails e ab ba) s) e).attempt = (edgeSt s e).attempt + 1 := by
  have hthird : (edgeSt s e).attempt + 1 ≠ 3 := by omega
  simp only [attemptFails, run_ask, run_all_cons, run_all_nil, if_neg hthird, updEdge_getF, edgeSt_updEdge]
  refine ⟨?_, getF_setF_apart (by decide) _ _ _ _ _ _, trivial⟩
  rw [getF_setF_fits (by decide)]
  exact Nat.mod_eq_of_lt (show _ < 4 by omega)

/-- The third failed attempt runs the edge on one lane of each direction, which is logged. -/
theorem attemptFails_third {s : State} {e : Nat} (he : e < 8) (h : (edgeSt s e).attempt = 2) {ab ba : BitVec 4} (hab : goodLanes ab ≠ []) (hba : goodLanes ba ≠ []) :
    getF (run (attemptFails e ab ba) s) D2D_EDGE.STATE e = 0 ∧ getF (run (attemptFails e ab ba) s) D2D_EDGE.WIDTH e = 1 ∧
      (edgeSt (run (attemptFails e ab ba) s) e).lanesAB = (goodLanes ab).take 1 ∧ (edgeSt (run (attemptFails e ab ba) s) e).lanesBA = (goodLanes ba).take 1 ∧
      bitOf (getF (run (attemptFails e ab ba) s) D2D_EVT.FORCEDQ) e = true ∧ Safety.Logged .edgeForced s (run (attemptFails e ab ba) s) := by
  have hempty : ((goodLanes ab).isEmpty || (goodLanes ba).isEmpty) = false := by simp [hab, hba]
  have hone : ((goodLanes ab).take 1).length = 1 := by
    rw [List.length_take]
    have := List.length_pos_iff.mpr hab
    omega
  simp only [attemptFails, run_ask, run_all_cons, run_all_nil, h, if_true, hempty, Bool.false_eq_true, if_false]
  obtain ⟨hst, hwidth, hedge⟩ := edgeRuns_spec e ((goodLanes ab).take 1) ((goodLanes ba).take 1) true (run (setF D2D_EDGE.FAILS (2 + 1) e) s)
  refine ⟨?_, ?_, ?_, ?_, ?_, logged_logEv (by decide) _ _ _ ?_⟩
  · rw [logEv_getF, getF_setBitF_apart (by decide), hst]
  · rw [logEv_getF, getF_setBitF_apart (by decide), hwidth, hone]
  · rw [logEv_edgeSt, setBitF_edgeSt, hedge]
  · rw [logEv_edgeSt, setBitF_edgeSt, hedge]
  · rw [logEv_getF, bitOf_getF_setBitF (by decide) he, if_pos rfl]
  · rw [(changes_setBitF ..).tally (by decide), (changes_edgeRuns ..).tally (by decide), setF_tally]

/-- An edge that retrains is out of service, with nothing of its former training left. -/
theorem edgeTrain_spec (e : Nat) (s : State) : getF (run (edgeTrain e) s) D2D_EDGE.STATE e = 1 ∧ getF (run (edgeTrain e) s) D2D_EDGE.WIDTH e = 0 ∧
    getF (run (edgeTrain e) s) D2D_EDGE.FAILS e = 0 ∧ getF (run (edgeTrain e) s) D2D_EDGE.MAPAB e = 0 ∧ getF (run (edgeTrain e) s) D2D_EDGE.MAPBA e = 0 ∧
    edgeSt (run (edgeTrain e) s) e = {} := by
  simp only [edgeTrain, run_all_cons, run_all_nil, reroute_getF, updEdge_getF, reroute_edgeSt, edgeSt_updEdge, and_true]
  refine ⟨?_, ?_, ?_, ?_, getF_setF_fits (by decide) _ _ _ _⟩
  · rw [getF_setF_apart (by decide), getF_setF_apart (by decide), getF_setF_apart (by decide), getF_setF_apart (by decide)]
    exact getF_setF_fits (by decide) _ _ _ _
  · rw [getF_setF_apart (by decide), getF_setF_apart (by decide), getF_setF_apart (by decide)]
    exact getF_setF_fits (by decide) _ _ _ _
  · rw [getF_setF_apart (by decide), getF_setF_apart (by decide)]
    exact getF_setF_fits (by decide) _ _ _ _
  · rw [getF_setF_apart (by decide)]
    exact getF_setF_fits (by decide) _ _ _ _

/-- The spare wires of 32 groups fill no more than their field. -/
theorem sparesUsed_lt (failed spares : List Nat) : sparesUsed failed spares < 2 ^ 8 := by
  have hle : ∀ (l : List Nat) (a : Nat), (l.map fun g => min (2 - groupFails spares g) (groupFails failed g)).foldl (fun a b => a + b) a ≤ a + 2 * l.length := by
    intro l
    induction l with
    | nil => simp
    | cons g l ih =>
      intro a
      refine (ih _).trans ?_
      dsimp only
      rw [List.length_cons]
      omega
  have := hle (List.range 32) 0
  rw [List.length_range] at this
  exact Nat.lt_of_le_of_lt this (by decide)

/-- An edge with a direction's receive map. -/
def EdgeSt.withMap (x : EdgeSt) (dir : Bool) (m : BitVec 4) : EdgeSt := if dir then { x with mapBA := some m } else { x with mapAB := some m }

/-- A receive map and the spares in use are entered. -/
def mapEntered (e : Nat) (dir : Bool) (failed spares : List Nat) : Act :=
  Act.all [setF (if dir then D2D_EDGE.MAPBA else D2D_EDGE.MAPAB) (repairMap failed spares).toNat e,
    setF (if dir then D2D_REPAIR.SPARESBA else D2D_REPAIR.SPARESAB) (sparesUsed failed spares) e, updEdge e fun x => x.withMap dir (repairMap failed spares)]

theorem mapEntered_edgeSt (e : Nat) (dir : Bool) (failed spares : List Nat) (s : State) :
    edgeSt (run (mapEntered e dir failed spares) s) e = (edgeSt s e).withMap dir (repairMap failed spares) := by
  simp only [mapEntered, run_all_cons, run_all_nil, edgeSt_updEdge, setF_edgeSt]

theorem mapEntered_spec (e : Nat) (dir : Bool) (failed spares : List Nat) (s : State) :
    getF (run (mapEntered e dir failed spares) s) (if dir then D2D_EDGE.MAPBA else D2D_EDGE.MAPAB) e = (repairMap failed spares).toNat ∧
      getF (run (mapEntered e dir failed spares) s) (if dir then D2D_REPAIR.SPARESBA else D2D_REPAIR.SPARESAB) e = sparesUsed failed spares ∧
      getF (run (mapEntered e dir failed spares) s) D2D_EDGE.STATE e = getF s D2D_EDGE.STATE e := by
  have hmap := (repairMap failed spares).isLt
  have hspares := sparesUsed_lt failed spares
  simp only [mapEntered, run_all_cons, run_all_nil, updEdge_getF]
  cases dir <;> simp only [Bool.false_eq_true, if_true, if_false]
  all_goals
    refine ⟨?_, ?_, ?_⟩
    · rw [getF_setF_apart (by decide), getF_setF_fits (by decide)]
      exact Nat.mod_eq_of_lt hmap
    · rw [getF_setF_fits (by decide)]
      exact Nat.mod_eq_of_lt hspares
    · rw [getF_setF_apart (by decide), getF_setF_apart (by decide)]

/-- Once both maps are there the confirm starts on as many lanes as both directions have. -/
def mapsMeet (e : Nat) : Act :=
  .ask fun t =>
    match (edgeSt t e).mapAB, (edgeSt t e).mapBA with
    | some ab, some ba =>
      let w := min (goodLanes ab).length (goodLanes ba).length
      if w = 0 then edgeStops e 2
      else updEdge e fun x => { x with confirming := true, lanesAB := (goodLanes ab).take w, lanesBA := (goodLanes ba).take w }
    | _, _ => .skip

theorem run_receiveMap {s : State} {e : Nat} (hstate : getF s D2D_EDGE.STATE e = 1) (hconf : (edgeSt s e).confirming = false) (dir : Bool)
    (failed spares : List Nat) : run (receiveMap e dir failed spares) s = run (mapsMeet e) (run (mapEntered e dir failed spares) s) := by
  have hgo : (decide (getF s D2D_EDGE.STATE e ≠ 1) || (edgeSt s e).confirming) = false := by simp [hstate, hconf]
  rw [receiveMap, run_ask, hgo]
  cases dir <;> rfl

theorem run_mapsMeet_early {t : State} {e : Nat} (h : (edgeSt t e).mapBA = none) : run (mapsMeet e) t = t := by
  simp only [mapsMeet, run_ask, h]
  split
  · contradiction
  · rfl

theorem run_mapsMeet {t : State} {e : Nat} {ab ba : BitVec 4} (hab : (edgeSt t e).mapAB = some ab) (hba : (edgeSt t e).mapBA = some ba)
    (h : 0 < min (goodLanes ab).length (goodLanes ba).length) : run (mapsMeet e) t = run (updEdge e fun x =>
      { x with confirming := true, lanesAB := (goodLanes ab).take (min (goodLanes ab).length (goodLanes ba).length),
               lanesBA := (goodLanes ba).take (min (goodLanes ab).length (goodLanes ba).length) }) t := by
  simp only [mapsMeet, run_ask, hab, hba]
  rw [if_neg (Nat.ne_of_gt h)]

theorem run_confirmDone {s : State} {e : Nat} (hstate : getF s D2D_EDGE.STATE e = 1) (hconf : (edgeSt s e).confirming = true) (ok : Bool) :
    run (confirmDone e ok) s = run (if ok then edgeRuns e (edgeSt s e).lanesAB (edgeSt s e).lanesBA false
      else attemptFails e ((edgeSt s e).mapAB.getD 0) ((edgeSt s e).mapBA.getD 0)) s := by
  have hgo : (decide (getF s D2D_EDGE.STATE e = 1) && (edgeSt s e).confirming) = true := by simp [hstate, hconf]
  rw [confirmDone, run_ask]
  exact congrArg (run · s) (if_pos hgo)

theorem run_mapTimeout {s : State} {e : Nat} (hstate : getF s D2D_EDGE.STATE e = 1) (hconf : (edgeSt s e).confirming = false) (ab ba : BitVec 4) :
    run (mapTimeout e ab ba) s = run (attemptFails e ab ba) s := by
  rw [mapTimeout, run_ask, run_when, hstate, hconf]
  rfl

/-! Lane frames (R276 to R278). -/

/-- The first frames of lanes that all have one are as many as the lanes. -/
theorem length_filterMap_head {α β : Type} {g : α → List β} {l : List α} (h : l.all (fun x => !(g x).isEmpty) = true) :
    (l.filterMap fun x => (g x).head?).length = l.length := by
  induction l with
  | nil => rfl
  | cons x l ih =>
    rw [List.all_cons, Bool.and_eq_true] at h
    obtain ⟨hx, hl⟩ := h
    obtain ⟨y, ys, hy⟩ := List.exists_cons_of_ne_nil (l := g x) (by simpa using hx)
    rw [List.filterMap_cons_some (b := y) (by rw [hy]; rfl), List.length_cons, ih hl, List.length_cons]

/-- Where every merged lane has a frame, the flits of the first frames leave. -/
theorem edgeMerge_out {s : State} {e : Nat} {dir : Bool} (h : ((edgeSt s e).merged dir).all (fun l => !(Cells.get [] (edgeSt s e).rx (laneKey dir l)).isEmpty) = true) :
    (run (edgeMerge e dir) s).out =
      .edgeFlits e dir (mergeFlits (((edgeSt s e).merged dir).filterMap fun l => (Cells.get [] (edgeSt s e).rx (laneKey dir l)).head?)) :: s.out := by
  simp only [edgeMerge, run_ask]
  rw [if_pos (length_filterMap_head h).symm]
  rfl

/-- A good frame joins those of its lane that wait to be merged, and is acknowledged. -/
def frameKept (e : Nat) (dir : Bool) (lane : Nat) (f : List (Bool × Desc)) : Act :=
  .seq (updEdge e fun y => { y with rx := Cells.ins y.rx (laneKey dir lane) (Cells.get [] y.rx (laneKey dir lane) ++ [f]) }) (send (.laneAck e dir lane))

theorem frameKept_rx (e : Nat) (dir : Bool) (lane : Nat) (f : List (Bool × Desc)) (s : State) :
    Cells.get [] (edgeSt (run (frameKept e dir lane f) s) e).rx (laneKey dir lane) = Cells.get [] (edgeSt s e).rx (laneKey dir lane) ++ [f] := by
  simp only [frameKept, run_seq, run_send, send_edgeSt, edgeSt_updEdge, Cells.get_eq_look, Cells.look_ins, if_true, Option.getD_some]

/-- The times of a lane's failed frames of the last 1 ms, with one that fails now. -/
def failTimes (s : State) (e : Nat) (dir : Bool) (lane : Nat) : List Nat :=
  s.now :: (Cells.get [] (edgeSt s e).fails (laneKey dir lane)).filter fun t => s.now < t + 4000000

/-- An edge after a failed frame: the lane's transmitter is to resend, and a bad lane is to drop. -/
def EdgeSt.frameFails (y : EdgeSt) (dir : Bool) (lane : Nat) (failed : Bool) (times : List Nat) : EdgeSt :=
  { y with naks := if failed then y.naks else y.naks ++ [(dir, lane)],
           fails := Cells.put [] y.fails (laneKey dir lane) (if decide (8 ≤ times.length) then [] else times),
           notices := if decide (8 ≤ times.length) && !y.notices.contains (dir, lane) then y.notices ++ [(dir, lane)] else y.notices }

theorem EdgeSt.mem_naks_frameFails (y : EdgeSt) (dir : Bool) (lane : Nat) (times : List Nat) :
    (dir, lane) ∈ (y.frameFails dir lane (y.naks.contains (dir, lane)) times).naks := by
  simp only [EdgeSt.frameFails]
  split
  case isTrue h => exact List.contains_iff_mem.mp h
  case isFalse => exact List.mem_append_right _ List.mem_cons_self

theorem EdgeSt.mem_notices_frameFails (y : EdgeSt) (dir : Bool) (lane : Nat) (failed : Bool) {times : List Nat} (h : 8 ≤ times.length) :
    (dir, lane) ∈ (y.frameFails dir lane failed times).notices := by
  simp only [EdgeSt.frameFails, h, decide_true, Bool.true_and]
  split
  case isTrue => exact List.mem_append_right _ List.mem_cons_self
  case isFalse hin => exact List.contains_iff_mem.mp (by simpa using hin)

section
variable {s : State} {e : Nat} {dir : Bool} {lane : Nat} {f : List (Bool × Desc)} {crc : BitVec 16}

section
variable (hup : edgeUp s e = true) (hin : lane ∈ (edgeSt s e).lanes dir)
include hup hin

theorem run_laneFrame_discarded (hgood : frameGood f crc = true) (hnak : (dir, lane) ∈ (edgeSt s e).naks) : run (laneFrame e dir lane f crc) s = s := by
  simp [laneFrame, hup, hin, hgood, hnak]

theorem run_laneFrame_kept (hgood : frameGood f crc = true) (hnak : (dir, lane) ∉ (edgeSt s e).naks) :
    run (laneFrame e dir lane f crc) s = run (edgeMerge e dir) (run (frameKept e dir lane f) s) := by
  simp [laneFrame, frameKept, hup, hin, hgood, hnak]

theorem run_laneFrame_failed (hbad : frameGood f crc = false) : run (laneFrame e dir lane f crc) s =
    run (if decide (8 ≤ (failTimes s e dir lane).length) && decide (((edgeSt s e).lanes dir).length ≤ 1) then edgeStops e 2
      else updEdge e fun y => y.frameFails dir lane ((edgeSt s e).naks.contains (dir, lane)) (failTimes s e dir lane)) (run (incF D2D_ERR.CRCFAIL 1 e) s) := by
  have hgo : (!edgeUp s e || !((edgeSt s e).lanes dir).contains lane) = false := by simp [hup, hin]
  simp only [laneFrame, run_ask, hgo, hbad, Bool.false_eq_true, if_false, run_all_cons, run_all_nil]
  rfl

/-- A failed frame on a direction with another lane is to be resent, and the eighth sends a drop notice. -/
theorem laneFrame_failed_spare (hbad : frameGood f crc = false) (hlanes : 1 < ((edgeSt s e).lanes dir).length) :
    (dir, lane) ∈ (edgeSt (run (laneFrame e dir lane f crc) s) e).naks ∧
      getF (run (laneFrame e dir lane f crc) s) D2D_EDGE.STATE e = getF s D2D_EDGE.STATE e ∧
      (8 ≤ (failTimes s e dir lane).length → (dir, lane) ∈ (edgeSt (run (laneFrame e dir lane f crc) s) e).notices) := by
  have hstays : (decide (8 ≤ (failTimes s e dir lane).length) && decide (((edgeSt s e).lanes dir).length ≤ 1)) = false := by
    rw [decide_eq_false (Nat.not_le.mpr hlanes), Bool.and_false]
  rw [run_laneFrame_failed hup hin hbad, hstays]
  simp only [Bool.false_eq_true, if_false, edgeSt_updEdge, incF_edgeSt, updEdge_getF]
  exact ⟨EdgeSt.mem_naks_frameFails .., getF_incF_apart (by decide) .., fun h => EdgeSt.mem_notices_frameFails _ _ _ _ h⟩

/-- The eighth failed frame on the only lane takes the edge down. -/
theorem laneFrame_failed_last (hbad : frameGood f crc = false) (hlanes : ((edgeSt s e).lanes dir).length ≤ 1) (h : 8 ≤ (failTimes s e dir lane).length) :
    getF (run (laneFrame e dir lane f crc) s) D2D_EDGE.STATE e = 2 := by
  have hstate : getF s D2D_EDGE.STATE e = 0 := of_decide_eq_true hup
  rw [run_laneFrame_failed hup hin hbad, decide_eq_true h, decide_eq_true hlanes, Bool.and_self, if_pos rfl]
  exact (edgeStops_spec (by rw [getF_incF_apart (by decide), hstate]; decide) (by decide)).1

theorem laneFrame_failed_counts (hbad : frameGood f crc = false) :
    getF (run (laneFrame e dir lane f crc) s) D2D_ERR.CRCFAIL e = min (getF s D2D_ERR.CRCFAIL e + 1) (2 ^ D2D_ERR.CRCFAIL.width - 1) := by
  rw [run_laneFrame_failed hup hin hbad, ← getF_incF_fits (by decide)]
  split
  · exact (writes_edgeStops e 2).getF (by decide) ..
  · exact updEdge_getF ..

end

/-- A negative acknowledgement that is on its way is taken, and the resent frames count. -/
theorem run_laneNak (h : (dir, lane) ∈ (edgeSt s e).naks) (n : Nat) : run (laneNak e dir lane n) s =
    run (incF D2D_ERR.RESENT (min 64 n) e) (run (updEdge e fun x => { x with naks := x.naks.erase (dir, lane) }) s) := by
  rw [laneNak, run_ask, if_pos (List.contains_iff_mem.mpr h)]
  rfl

/-! Drop notices (R278). -/

/-- An edge without a bad lane of one direction and the highest of the other. -/
def EdgeSt.narrowed (y : EdgeSt) (dir : Bool) (lane : Nat) (gone : List Nat) : EdgeSt :=
  { (y.withLanes dir (lanesLeft (y.lanes dir) (some lane))).withLanes (!dir) (lanesLeft (y.lanes (!dir)) none) with
    notices := y.notices.erase (dir, lane), naks := [], fails := y.fails.filter fun f => !gone.contains f.1 }

theorem EdgeSt.lanes_narrowed (y : EdgeSt) (dir : Bool) (lane : Nat) (gone : List Nat) : (y.narrowed dir lane gone).lanes dir = (y.lanes dir).filter fun x => decide (x ≠ lane) := by
  cases dir <;> rfl

theorem EdgeSt.not_lanes_narrowed (y : EdgeSt) (dir : Bool) (lane : Nat) (gone : List Nat) : (y.narrowed dir lane gone).lanes (!dir) = (y.lanes (!dir)).dropLast := by
  cases dir <;> rfl

/-- The lanes whose failures a narrowed edge forgets. -/
def lanesGone (x : EdgeSt) (dir : Bool) (lane : Nat) : List Nat := laneKey dir lane :: ((x.lanes (!dir)).getLast?.map fun l => laneKey (!dir) l).toList

/-- The lanes, the width and the event of an edge that narrows. -/
def edgeNarrows (e : Nat) (dir : Bool) (lane resent : Nat) (gone : List Nat) : Act :=
  Act.all [updEdge e fun y => y.narrowed dir lane gone, incF D2D_ERR.RESENT (min 256 resent) e, modF D2D_EDGE.WIDTH (fun w => w - 1) e, setBitF D2D_EVT.NARROWED e true]

section
variable (hup : edgeUp s e = true) (hnotice : (dir, lane) ∈ (edgeSt s e).notices) (n : Nat)
include hup hnotice

theorem run_dropNotice_unused (hout : lane ∉ (edgeSt s e).lanes dir) :
    run (dropNotice e dir lane n) s = run (updEdge e fun y => { y with notices := y.notices.erase (dir, lane) }) s := by
  simp [dropNotice, hup, hnotice, hout]

theorem run_dropNotice_last (hin : lane ∈ (edgeSt s e).lanes dir) (hlanes : ((edgeSt s e).lanes dir).length ≤ 1) :
    run (dropNotice e dir lane n) s = run (edgeStops e 2) s := by
  simp [dropNotice, hup, hnotice, hin, hlanes]

theorem run_dropNotice_spare (hin : lane ∈ (edgeSt s e).lanes dir) (hlanes : 1 < ((edgeSt s e).lanes dir).length) :
    run (dropNotice e dir lane n) s = run (logEv .edgeNarrowed (data := [e])) (run (edgeNarrows e dir lane n (lanesGone (edgeSt s e) dir lane)) s) := by
  have hgo : (edgeUp s e && (edgeSt s e).notices.contains (dir, lane)) = true := by simp [hup, hnotice]
  have hused : (!((edgeSt s e).lanes dir).contains lane) = false := by simp [hin]
  rw [dropNotice, run_ask]
  simp only [hgo, hused, if_true, Bool.false_eq_true, if_false, if_neg (Nat.not_le.mpr hlanes), edgeNarrows, EdgeSt.narrowed, lanesGone, run_all_cons, run_all_nil]

end

end

theorem changes_edgeNarrows (e : Nat) (dir : Bool) (lane n : Nat) (gone : List Nat) : (edgeNarrows e dir lane n gone).Changes [.regs, .link] :=
  changes_cons ((changes_updEdge _ _).up rfl) (changes_cons ((changes_incF _ _ _ _).up rfl) (changes_cons ((changes_modF _ _ _ _).up rfl)
    (changes_cons ((changes_setBitF _ _ _ _ _).up rfl) changes_nil)))

/-- An edge that narrows loses a lane of each direction and one of its width, which is noted. -/
theorem edgeNarrows_spec {e : Nat} (he : e < 8) (dir : Bool) (lane n : Nat) (gone : List Nat) (s : State) :
    let t := run (edgeNarrows e dir lane n gone) s
    edgeSt t e = (edgeSt s e).narrowed dir lane gone ∧ getF t D2D_EDGE.WIDTH e = getF s D2D_EDGE.WIDTH e - 1 ∧ bitOf (getF t D2D_EVT.NARROWED) e = true := by
  have hwidth : getF s D2D_EDGE.WIDTH e < 2 ^ D2D_EDGE.WIDTH.width := bitsOf_lt ..
  have hless : ∀ w < 2 ^ D2D_EDGE.WIDTH.width, (w - 1) % 2 ^ D2D_EDGE.WIDTH.width = w - 1 := fun w hw => Nat.mod_eq_of_lt (by omega)
  simp only [edgeNarrows, run_all_cons, run_all_nil]
  refine ⟨?_, ?_, ?_⟩
  · rw [setBitF_edgeSt, modF_edgeSt, incF_edgeSt, edgeSt_updEdge]
  · rw [getF_setBitF_apart (by decide), getF_modF_fits (by decide), getF_incF_apart (by decide), updEdge_getF]
    exact hless _ hwidth
  · rw [bitOf_getF_setBitF (by decide) he, if_pos rfl]

/-- Settles O32, command by command: a frame by its check, a drop notice by the lanes of its direction, then training, routes and tags. -/
theorem dieLinks : Obligations.DieLinks := by
  refine ⟨fun s e dir lane f crc hup hin hgood => ?good, fun s e dir h => edgeMerge_out h, fun s e dir lane f crc hup hin hbad => ?bad,
    fun s e dir lane n hnak => ?nak, fun s e dir lane n hup hnotice => ?drop, fun s e => ?retrain, fun s e failed sp hstate hconf hba => ?first,
    fun s e ab ba failed sp hstate hconf hab hba hlanes => ?second, fun s e hstate hconf => ⟨?confirmed, fun hatt => ?refused⟩,
    fun s e fa fb hstate hconf => ?timeout, fun s e => ?routes, fun s e he hrev => ?tag⟩
  case good =>
    have hregs : (run (laneFrame e.val dir lane.val f crc) s).regs = s.regs := by
      by_cases hnak : (dir, lane.val) ∈ (edgeSt s e).naks
      · rw [run_laneFrame_discarded hup hin hgood hnak]
      · rw [run_laneFrame_kept hup hin hgood hnak, only_regs (changes_edgeMerge ..).only (by decide)]
        rfl
    exact ⟨_, rfl, only_mem (changes_laneFrame ..).only (by decide) s, hregs, run_laneFrame_discarded hup hin hgood,
      fun hnak => ⟨run (frameKept e dir lane f) s, run_laneFrame_kept hup hin hgood hnak, rfl, frameKept_rx ..⟩⟩
  case bad =>
    refine ⟨_, rfl, only_mem (changes_laneFrame ..).only (by decide) s, laneFrame_failed_counts hup hin hbad, fun hlanes => ?_, fun hlanes h => ?_⟩
    · obtain ⟨hnak, hst, hnotice⟩ := laneFrame_failed_spare hup hin hbad hlanes
      exact ⟨hnak, hst, fun h => hnotice (Nat.succ_le_succ h)⟩
    · exact laneFrame_failed_last hup hin hbad hlanes (Nat.succ_le_succ h)
  case nak =>
    have hn : min 64 n.val = n.val := Nat.min_eq_right (by omega)
    refine ⟨_, rfl, ?_, ?_, only_mem (changes_laneNak ..).only (by decide) s⟩ <;> rw [run_laneNak hnak, hn]
    · rw [getF_incF_fits (by decide), updEdge_getF]
    · rw [incF_edgeSt, edgeSt_updEdge]
  case drop =>
    refine ⟨_, rfl, only_mem (changes_dropNotice ..).only (by decide) s, fun hin hlanes => ?_, fun hin hlanes => ?_, fun hout => ?_⟩
    · obtain ⟨hedge, hwidth, hevt⟩ := edgeNarrows_spec e.isLt dir lane n (lanesGone (edgeSt s e) dir lane) s
      rw [run_dropNotice_spare hup hnotice n hin hlanes, logEv_edgeSt, logEv_getF, logEv_getF, hedge]
      exact ⟨EdgeSt.lanes_narrowed .., EdgeSt.not_lanes_narrowed .., hwidth, hevt, logged_logEv (by decide) _ _ _ ((changes_edgeNarrows ..).tally (by decide) ..)⟩
    · have hstate : getF s D2D_EDGE.STATE e = 0 := of_decide_eq_true hup
      rw [run_dropNotice_last hup hnotice n hin hlanes]
      exact edgeStops_spec (by rw [hstate]; decide) (by decide)
    · rw [run_dropNotice_unused hup hnotice n hout, edgeSt_updEdge]
      exact ⟨fun b => by cases b <;> rfl, rfl⟩
  case retrain =>
    refine ⟨_, rfl, only_mem (changes_d2dRetrain ..).only (by decide) s, fun h => ?_, fun h => ?_⟩ <;> rw [d2dRetrain, run_ask, run_when]
    · rw [if_pos (decide_eq_true h)]
      exact edgeTrain_spec e s
    · rw [if_neg (by simp [h])]
  case first =>
    obtain ⟨hmap, hspares, hst⟩ := mapEntered_spec e false failed sp s
    have hedge := mapEntered_edgeSt e false failed sp s
    have hmem := only_mem (changes_receiveMap e.val false failed sp).only (by decide) s
    refine ⟨_, rfl, ?_⟩
    rw [run_receiveMap hstate hconf] at hmem ⊢
    rw [run_mapsMeet_early (by rw [hedge]; exact hba)] at hmem ⊢
    rw [hedge]
    exact ⟨hmap, hspares, rfl, hconf, hst.trans hstate, hmem⟩
  case second =>
    obtain ⟨hmap, hspares, -⟩ := mapEntered_spec e true failed sp s
    have hedge := mapEntered_edgeSt e true failed sp s
    have hmem := only_mem (changes_receiveMap e.val true failed sp).only (by decide) s
    refine ⟨_, rfl, ?_⟩
    rw [run_receiveMap hstate hconf] at hmem ⊢
    rw [run_mapsMeet (by rw [hedge]; exact hab) (by rw [hedge, hba]; rfl) hlanes] at hmem ⊢
    rw [edgeSt_updEdge, updEdge_getF, updEdge_getF, hba]
    exact ⟨hmap, hspares, rfl, rfl, rfl, hmem⟩
  case confirmed =>
    obtain ⟨hst, hwidth, hedge⟩ := edgeRuns_spec e (edgeSt s e).lanesAB (edgeSt s e).lanesBA false s
    refine ⟨_, rfl, ?_, ?_, ?_, ?_, only_mem (changes_confirmDone ..).only (by decide) s⟩ <;> rw [run_confirmDone hstate hconf, if_pos rfl]
    · exact hst
    · exact hwidth
    · rw [hedge]
    · rw [hedge]
  case refused =>
    obtain ⟨hfails, hst, hattempt⟩ := attemptFails_again hatt ((edgeSt s e).mapAB.getD 0) ((edgeSt s e).mapBA.getD 0)
    refine ⟨_, rfl, ?_, ?_, ?_, only_mem (changes_confirmDone ..).only (by decide) s⟩ <;> rw [run_confirmDone hstate hconf, if_neg (by decide)]
    · exact hfails
    · exact hst.trans hstate
    · exact hattempt
  case timeout =>
    refine ⟨_, rfl, only_mem (changes_mapTimeout ..).only (by decide) s, fun hatt => ?_, fun hatt ha hb => ?_⟩ <;> rw [run_mapTimeout hstate hconf]
    · obtain ⟨hfails, hst, hattempt⟩ := attemptFails_again hatt (repairMap fa []) (repairMap fb [])
      exact ⟨hfails, hst.trans hstate, hattempt⟩
    · exact attemptFails_third e.isLt hatt ha hb
  case routes =>
    refine ⟨_, rfl, rfl, rfl, fun p hp => ?_⟩
    obtain ⟨hmem, hkeep⟩ := List.mem_filter.mp hp
    exact ⟨hmem, by simpa using hkeep⟩
  case tag =>
    have hgo : (decide (6 ≤ e.val) && decide (getF s IDREV.NOCREV = 2)) = true := by simp [he, hrev]
    refine ⟨_, rfl, ?_, only_mem (changes_tagFree _).only (by decide) s⟩
    rw [tagFree, run_ask, run_when, hgo, if_pos rfl]
    exact getF_incF_fits (by decide) ..

end Sys2Proof.Machine

/-! PROOFS. Budget messages and allotments, idle slots, the limiter, critical temperature and calibration (R285, R320 to R331, Table 12-3). -/

namespace Sys2Proof.Machine

/-! Bytes of a record. -/

theorem leNat_drop (l : List Byte) (k : Nat) : leNat (l.drop k) = leNat l / 256 ^ k := by
  induction k generalizing l with
  | zero => simp
  | succ k ih =>
    cases l with
    | nil => simp [leNat]
    | cons b l =>
      have hb : b.toNat < 256 := b.isLt
      rw [List.drop_succ_cons, ih, leNat, Nat.pow_succ', ← Nat.div_div_eq_div_mul]
      congr 1
      omega

theorem leNat_take (l : List Byte) (k : Nat) : leNat (l.take k) = leNat l % 256 ^ k := by
  induction k generalizing l with
  | zero => simp [leNat, Nat.mod_one]
  | succ k ih =>
    cases l with
    | nil => simp [leNat]
    | cons b l =>
      have hb : b.toNat < 256 := b.isLt
      have hlow : (b.toNat + 256 * leNat l) % 256 = b.toNat := by omega
      have hhigh : (b.toNat + 256 * leNat l) / 256 = leNat l := by omega
      rw [List.take_succ_cons, leNat, leNat, ih, Nat.pow_succ', Nat.mod_mul, hlow, hhigh]

/-- A byte list is read back from the number it holds. -/
theorem natLe_leNat (l : List Byte) : natLe (leNat l) l.length = l := by
  induction l with
  | nil => rfl
  | cons b l ih =>
    have hb : b.toNat < 256 := b.isLt
    have hlow : BitVec.ofNat 8 (b.toNat + 256 * leNat l) = b := BitVec.eq_of_toNat_eq (by rw [BitVec.toNat_ofNat]; omega)
    have hhigh : (b.toNat + 256 * leNat l) / 256 = leNat l := by omega
    rw [leNat, List.length_cons, natLe, hlow, hhigh, ih]

/-- A word wide enough for a list's bytes holds their number. -/
theorem toNat_ofNat_leNat {l : List Byte} {w : Nat} (hw : w = 8 * l.length) : (BitVec.ofNat w (leNat l)).toNat = leNat l := by
  subst hw
  rw [BitVec.toNat_ofNat, Nat.pow_mul]
  exact Nat.mod_eq_of_lt (leNat_lt l)

section
variable {l : List Byte} (hl : l.length = 64)
include hl

theorem toNat_descOf : (descOf l).toNat = leNat l := toNat_ofNat_leNat (by rw [hl])

theorem descBytes_descOf : descBytes (descOf l) = l := by
  rw [descBytes, toNat_descOf hl, ← hl, natLe_leNat]

theorem dByte_descOf (off n : Nat) : dByte (descOf l) off n = fieldAt l off n := by
  rw [dByte, dBits, toNat_descOf hl, bitsOf, fieldAt, slice, leNat_take, leNat_drop, Nat.pow_mul, Nat.pow_mul]

end

/-! Flits of the management channel (Table 12-3). -/

/-- A flit's bytes before its CHECK. -/
def flitBody (type die pstate idle tide used planned offer temp margin : Nat) : List Byte :=
  natLe type 1 ++ natLe die 1 ++ natLe pstate 1 ++ natLe 0 1 ++ natLe idle 2 ++ natLe 0 2 ++ natLe tide 8 ++ natLe used 4 ++
    natLe planned 4 ++ natLe offer 4 ++ natLe temp 2 ++ natLe margin 2 ++ natLe 0 30

/-- Bytes with their CRC behind them. -/
def withCheck (b : List Byte) : List Byte := b ++ natLe (crc16 b).toNat 2

section
variable {b : List Byte} (hb : b.length = 62)
include hb

theorem length_withCheck : (withCheck b).length = 64 := by rw [withCheck, List.length_append, hb, length_natLe]

/-- Such bytes pass the check of a flit. -/
theorem flitOk_withCheck : flitOk (descOf (withCheck b)) = true := by
  have hc : (crc16 b).toNat < 256 ^ 2 := (crc16 b).isLt
  have hcheck : fieldAt (withCheck b) 0x3E 2 = (crc16 b).toNat := by
    rw [fieldAt, withCheck, slice_append_right _ _ (by omega), hb, Nat.sub_self, slice, List.drop_zero, List.take_of_length_le (length_natLe _ _).le,
      leNat_natLe, Nat.mod_eq_of_lt hc]
  have hbody : (withCheck b).take 62 = b := by rw [withCheck, ← hb, List.take_left]
  rw [flitOk, dByte_descOf (length_withCheck hb), descBytes_descOf (length_withCheck hb), hcheck, hbody]
  exact decide_eq_true rfl

theorem dByte_withCheck {off n : Nat} (h : off + n ≤ 62) : dByte (descOf (withCheck b)) off n = fieldAt b off n := by
  rw [dByte_descOf (length_withCheck hb), fieldAt, withCheck, slice_append_left _ (by omega), fieldAt]

end

/-- Where the fields of a flit stand. -/
theorem slice_flitBody (type die pstate idle tide used planned offer temp margin : Nat) :
    let b := flitBody type die pstate idle tide used planned offer temp margin
    slice b 0 1 = natLe type 1 ∧ slice b 1 1 = natLe die 1 ∧ slice b 8 8 = natLe tide 8 ∧ slice b 0x10 4 = natLe used 4 ∧
      slice b 0x14 4 = natLe planned 4 := by
  simp [flitBody, slice, List.drop_append, List.drop_of_length_le, length_natLe]

/-- A budget message or allotment passes its check and holds its fields. -/
theorem budgetFlit_fields (type die pstate idle tide used planned offer temp margin : Nat) :
    let f := budgetFlit type die pstate idle tide used planned offer temp margin
    flitOk f = true ∧ dByte f 0 = type % 256 ∧ dByte f 1 = die % 256 ∧ dByte f 8 8 = tide % 256 ^ 8 ∧ dByte f 0x10 4 = used % 256 ^ 4 ∧
      dByte f 0x14 4 = planned % 256 ^ 4 := by
  have hb : (flitBody type die pstate idle tide used planned offer temp margin).length = 62 := by simp only [flitBody, List.length_append, length_natLe]
  have hfield {off n v : Nat} (h : off + n ≤ 62) (hs : slice (flitBody type die pstate idle tide used planned offer temp margin) off n = natLe v n) :
      dByte (budgetFlit type die pstate idle tide used planned offer temp margin) off n = v % 256 ^ n := by
    rw [← leNat_natLe, ← hs]
    exact dByte_withCheck hb h
  obtain ⟨htype, hdie, htide, hused, hplanned⟩ := slice_flitBody type die pstate idle tide used planned offer temp margin
  exact ⟨flitOk_withCheck hb, hfield (by decide) htype, hfield (by decide) hdie, hfield (by decide) htide, hfield (by decide) hused,
    hfield (by decide) hplanned⟩

/-- The tide that a flit names. -/
theorem budgetFlit_tide {tide : Nat} (h : tide < 2 ^ 48) (type die pstate idle used planned offer temp margin : Nat) :
    dByte (budgetFlit type die pstate idle tide used planned offer temp margin) 8 8 = tide := by
  obtain ⟨-, -, -, htide, -⟩ := budgetFlit_fields type die pstate idle tide used planned offer temp margin
  exact htide.trans (Nat.mod_eq_of_lt (Nat.lt_of_lt_of_le h (by decide)))

/-- An allotment is a checked flit of type 2 that names its tide. -/
theorem allotFlit_spec {tide : Nat} (h : tide < 2 ^ 48) (die pstate idle used planned offer temp margin : Nat) :
    flitOk (budgetFlit 2 die pstate idle tide used planned offer temp margin) = true ∧ dByte (budgetFlit 2 die pstate idle tide used planned offer temp margin) 0 = 2 ∧
      dByte (budgetFlit 2 die pstate idle tide used planned offer temp margin) 8 8 = tide := by
  obtain ⟨hok, htype, -⟩ := budgetFlit_fields 2 die pstate idle tide used planned offer temp margin
  exact ⟨hok, htype, budgetFlit_tide h ..⟩

/-! Allotments that go out (R321 to R324). -/

/-- A fold whose every step adds one to a length adds the list's. -/
theorem length_foldl {α β : Type} {F : β → α → β} (len : β → Nat) (h : ∀ b x, len (F b x) = len b + 1) (l : List α) (b : β) :
    len (l.foldl F b) = len b + l.length := by
  induction l generalizing b with
  | nil => rfl
  | cons x l ih => rw [List.foldl_cons, ih, h, List.length_cons]; omega

theorem length_insNeed (x : Nat × Int) (l : List (Nat × Int)) : (insNeed x l).length = l.length + 1 := by
  induction l with
  | nil => rfl
  | cons y l ih =>
    rw [insNeed]
    split
    · rfl
    · rw [List.length_cons, ih, List.length_cons]

/-- Each of the six dies has its grant. -/
theorem length_grants (s : State) (total : Nat) (msg : Nat → BudMsg) : (grants s total msg).length = 6 := by
  rw [grants, length_foldl (fun r : Int × List (Nat × Int × Int) => r.2.length) fun _ _ => List.length_append, length_foldl List.length fun _ _ => length_insNeed ..]
  rfl

/-- Messages of a list leave one after another. -/
theorem out_each_send {α : Type} (g : α → Out) (l : List α) (s : State) : (run (Act.each (fun x => send (g x)) l) s).out = (l.map g).reverse ++ s.out := by
  induction l generalizing s with
  | nil => rfl
  | cons x l ih => rw [run_each_cons, ih, List.map_cons, List.reverse_cons, List.append_assoc]; rfl

/-- What the harbourmaster notes before the allotments go out: low caps, hot and tripping dies, and the credit. -/
def allotNoted (low hot trip : Bool) (f : EnSt → EnSt) (credit excursion : Nat) (m : State) : State :=
  run (setF EN_CREDIT.CREDIT credit) (run (setF EN_CREDIT.RUN excursion) (run (updEn f) (run (Act.when trip (evt EN_EVT.TRIP))
    (run (Act.when hot (evt EN_EVT.THROT)) (run (Act.when low (Act.all [evt EN_EVT.CAPLOW, logEv .capLow])) m)))))

theorem getF_when_evt_apart {f g : Fld} (h : f.apart g = true) (c : Bool) (i j m n : Nat) (s : State) :
    getF (run (Act.when c (evt f i j)) s) g m n = getF s g m n := by
  rw [run_when]
  split
  · exact getF_evt_apart h ..
  · rfl

theorem allotNoted_spec (low hot trip : Bool) (f : EnSt → EnSt) (credit excursion : Nat) (m : State) :
    (allotNoted low hot trip f credit excursion m).out = m.out ∧ (allotNoted low hot trip f credit excursion m).en = f m.en ∧
      (low = true → getF (allotNoted low hot trip f credit excursion m) EN_EVT.CAPLOW = 1 ∧ Safety.Logged .capLow m (allotNoted low hot trip f credit excursion m)) := by
  have hevt (c : Bool) (g : Fld) : (Act.when c (evt g)).Changes [.regs] := changes_when (changes_evt _ _ _)
  have hlow : (Act.when low (Act.all [evt EN_EVT.CAPLOW, logEv .capLow])).Changes [.regs, .log] :=
    changes_when (changes_cons ((changes_evt _ _ _).up rfl) (changes_cons ((changes_logEv _ _ _ _).up rfl) changes_nil))
  refine ⟨?_, ?_, fun h => ?_⟩
  · rw [allotNoted, setF_out, setF_out, only_out (changes_updEn f).only (by decide), only_out (hevt _ _).only (by decide), only_out (hevt _ _).only (by decide),
      only_out hlow.only (by decide)]
  · rw [allotNoted, setF_en, setF_en, updEn, run_prim, Prim.en_en, only_en (hevt _ _).only (by decide), only_en (hevt _ _).only (by decide),
      only_en hlow.only (by decide)]
  · rw [allotNoted, Safety.Logged, setF_tally, setF_tally, (changes_updEn f).tally (by decide), (hevt _ _).tally (by decide), (hevt _ _).tally (by decide),
      getF_setF_apart (by decide), getF_setF_apart (by decide), updEn_getF, getF_when_evt_apart (by decide), getF_when_evt_apart (by decide), h, run_when, if_pos rfl]
    simp only [run_all_cons, run_all_nil]
    exact ⟨by rw [logEv_getF, getF_evt_fits (by decide)]; rfl, logged_logEv (by decide) _ _ _ (evt_tally ..)⟩

/-- The allotments of a tide: six flits that name it go out, from a state in which the messages are used up and low caps are noted. -/
theorem allotSend_spec (eta : Nat) (s : State) : ∃ (u : State) (g : Nat × Int × Int → Desc) (gs : List (Nat × Int × Int)),
    run (allotSend eta) s = Prim.apply .fresh (run (Act.each (fun x => send (.mgmtFlit (g x))) gs) u) ∧ gs.length = 6 ∧
    (∀ x, flitOk (g x) = true ∧ dByte (g x) 0 = 2 ∧ dByte (g x) 8 8 = getF s TIDE_COUNT.COUNT) ∧ u.out = s.out ∧ u.en.msgs = [] ∧ u.en.eta = eta ∧
    (∀ m : State, m = run (updEn fun e => { e with eta := eta }) s → capS m * periodNow m < sumNat ((List.range 6).map fun d => dieFloor m d) →
      getF u EN_EVT.CAPLOW = 1 ∧ Safety.Logged .capLow s u) := by
  simp only [allotSend, run_seq, run_withFree, run_ask, run_all_cons, run_all_nil]
  refine ⟨_, _, _, rfl, ?_, fun x => ?_, (allotNoted_spec ..).1, ?_, ?_, fun m hm hlow => ?_⟩
  · split
    · simp
    · exact length_grants ..
  · exact allotFlit_spec (bitsOf_lt ..) ..
  · exact congrArg EnSt.msgs (allotNoted_spec ..).2.1
  · exact congrArg EnSt.eta (allotNoted_spec ..).2.1
  · subst hm
    exact (allotNoted_spec ..).2.2 (decide_eq_true hlow)

/-! Messages that a die or the harbourmaster takes (R326, R327, R331). -/

theorem run_budgetTake (f : Desc) (s : State) : run (budgetTake f) s =
    if flitOk f && decide (dByte f 0 = 1) && decide (dByte f 1 ≤ 5) && decide (dByte f 8 8 = endedTide s) then
      run (updEn fun e => { e with msgs := Cells.ins e.msgs (dByte f 1) { planned := dByte f 0x14 4, temp := signedOf (dByte f 0x1C 2) 16 } }) s
    else s := by
  rw [budgetTake, run_ask]
  split <;> rfl

/-- A die enters its allotment, with the ceiling state that it names. -/
def allotTaken (d a c : Nat) : Act :=
  .seq (updEn fun e => { e with allots := Cells.ins e.allots d (a, c), last := Cells.ins e.last d a, misses := Cells.put 0 e.misses d 0 }) (setF EN_LEDGER.ALLOT a d)

/-- Energy state after a die's choice of a state and idle slots. -/
def withChoice (d : Nat) (v : Nat × Nat) (e : EnSt) : EnSt := { e with chosen := Cells.ins e.chosen d v }

/-- A compute die chooses its state and idle slots from an allotment. -/
def stateChosen (d a c : Nat) : Act :=
  .ask fun t => Act.when (decide (d < 4)) (updEn (withChoice d (chooseState t d a (max c (ceilState t d)))))

theorem run_allotTake (f : Desc) (s : State) : run (allotTake f) s =
    if flitOk f && decide (dByte f 0 = 2) && decide (dByte f 1 ≤ 5) && decide (dByte f 8 8 = getF s TIDE_COUNT.COUNT) then
      run (Act.when (decide (dByte f 1 = 4)) (hostClock (dByte f 0x14 4))) (run (stateChosen (dByte f 1) (dByte f 0x14 4) (dByte f 2 % 4))
        (run (allotTaken (dByte f 1) (dByte f 0x14 4) (dByte f 2 % 4)) s))
    else s := by
  rw [allotTake, run_ask]
  dsimp only
  split <;> rfl

theorem allotTaken_spec (d a c : Nat) (s : State) :
    getF (run (allotTaken d a c) s) EN_LEDGER.ALLOT d = a % 2 ^ 32 ∧ getF (run (allotTaken d a c) s) AGE_DIE.CEIL d = getF s AGE_DIE.CEIL d ∧
      Cells.look (run (allotTaken d a c) s).en.allots d = some (a, c) ∧ Cells.get 0 (run (allotTaken d a c) s).en.misses d = 0 := by
  simp only [allotTaken, run_seq, setF_en, updEn, run_prim, Prim.en_en]
  refine ⟨getF_setF_fits (by decide) .., getF_setF_apart (by decide) .., ?_, ?_⟩
  · rw [Cells.look_ins, if_pos rfl]
  · rw [Cells.get_put, if_pos rfl]

/-- Plans read the same whatever the energy state holds. -/
theorem samePlans_updEn (f : EnSt → EnSt) (s : State) : SamePlans s (run (updEn f) s) :=
  ⟨rfl, rfl, rfl, rfl, rfl, rfl, rfl, rfl, rfl, fun _ _ _ _ => rfl⟩

/-- The choice of a state rests on the plans and on the power model, not on the rest of the energy state. -/
theorem chooseState_updEn {f : EnSt → EnSt} (hidle : ∀ e, (f e).idle = e.idle) (hgated : ∀ e, (f e).floorW = e.floorW) (d a ceil : Nat) (s : State) :
    chooseState (run (updEn f) s) d a ceil = chooseState s d a ceil := by
  have hhdr := (samePlans_updEn f s).planHdr
  have hwork : workShare (run (updEn f) s) d = workShare s d := by
    simp only [workShare, hhdr]
    rfl
  have hbound : dueBound (run (updEn f) s) d = dueBound s d := by
    simp only [dueBound, hhdr]
    rfl
  have hperiod : periodNow (run (updEn f) s) = periodNow s := updEn_getF ..
  have hclocked (st : Nat) : idleW (run (updEn f) s) d st = idleW s d st := by rw [idleW, updEn, run_prim, Prim.en_en, hidle, idleW]
  have hfloor (st : Nat) : gatedW (run (updEn f) s) d st = gatedW s d st := by rw [gatedW, updEn, run_prim, Prim.en_en, hgated, gatedW]
  have hslots (st : Nat) : slotsAvail (run (updEn f) s) d st = slotsAvail s d st := by rw [slotsAvail, hperiod, hbound, slotsAvail]
  have hcast (st n : Nat) : forecast (run (updEn f) s) d st n = forecast s d st n := by simp only [forecast, hwork, hclocked, hfloor, hperiod]
  simp only [chooseState, hcast, hslots]

/-- Below 16 misses the ceiling state is the die's own. -/
theorem ceilState_of_no_misses {s : State} {d : Nat} (h : Cells.get 0 s.en.misses d = 0) : ceilState s d = getF s AGE_DIE.CEIL d := by
  rw [ceilState, h, if_neg (by decide)]

/-- What a compute die chose is what its state asks for after the choice too. -/
theorem stateChosen_chosen {d : Nat} (hd : d < 4) (a c : Nat) {s : State} (h : Cells.get 0 s.en.misses d = 0) :
    Cells.look (run (stateChosen d a c) s).en.chosen d = some (chooseState (run (stateChosen d a c) s) d a (max c (getF s AGE_DIE.CEIL d))) := by
  rw [stateChosen, run_ask, run_when, if_pos (decide_eq_true hd), ceilState_of_no_misses h]
  rw [chooseState_updEn (f := withChoice d _) (fun _ => rfl) (fun _ => rfl), updEn, run_prim, Prim.en_en, withChoice, Cells.look_ins, if_pos rfl]

/-- The choice keeps the allotments and the misses. -/
theorem stateChosen_keeps (d a c : Nat) (s : State) :
    (run (stateChosen d a c) s).en.allots = s.en.allots ∧ (run (stateChosen d a c) s).en.misses = s.en.misses := by
  rw [stateChosen, run_ask, run_when]
  split <;> exact ⟨rfl, rfl⟩

/-- The host die's clock keeps the allotments and the misses. -/
theorem hostClock_keeps (a : Nat) (s : State) :
    (run (hostClock a) s).en.allots = s.en.allots ∧ (run (hostClock a) s).en.misses = s.en.misses := by
  rw [hostClock, run_ask]
  dsimp only
  split
  · exact ⟨rfl, rfl⟩
  · split <;> exact ⟨rfl, rfl⟩

/-- What follows a die's entry of its allotment keeps the allotments and the misses. -/
theorem allotEnds_keeps (d a c : Nat) (s : State) :
    (run (Act.when (decide (d = 4)) (hostClock a)) (run (stateChosen d a c) s)).en.allots = s.en.allots ∧
      (run (Act.when (decide (d = 4)) (hostClock a)) (run (stateChosen d a c) s)).en.misses = s.en.misses := by
  obtain ⟨hallots, hmisses⟩ := stateChosen_keeps d a c s
  rw [run_when]
  split
  · obtain ⟨hallots', hmisses'⟩ := hostClock_keeps a (run (stateChosen d a c) s)
    exact ⟨hallots'.trans hallots, hmisses'.trans hmisses⟩
  · exact ⟨hallots, hmisses⟩

/-! Gating and calibration (R320, R325, R328, R329). -/

theorem run_slotsBegin {s : State} {d : Nat} (hslots : getF s EN_STATE.SLOTS d ≠ 0) (hd : d ∉ s.en.slots) : run (slotsBegin d) s =
    run (incF EN_COUNT.SLOTS (getF s EN_STATE.SLOTS d)) (run (setF EN_STATE.PSTATE (getF s EN_STATE.PSTATE d % 4 + 4) d)
      (run (updEn fun e => { e with slots := d :: e.slots }) s)) := by
  have hgo : (decide (getF s EN_STATE.SLOTS d = 0) || s.en.slots.contains d) = false := by simp [hslots, hd]
  simp only [slotsBegin, run_ask, hgo, Bool.false_eq_true, if_false, run_all_cons, run_all_nil]

theorem run_limiterGate {s : State} {d : Nat} (hd : d ∉ s.en.limited) : run (limiterGate d) s =
    run (logEv .limiter d) (run (evt EN_EVT.LIMIT) (run (incF EN_COUNT.LIMIT) (run (updEn fun e => { e with limited := d :: e.limited }) s))) := by
  have hgo : s.en.limited.contains d = false := by simp [hd]
  simp only [limiterGate, run_ask, hgo, Bool.false_eq_true, if_false, run_all_cons, run_all_nil]

theorem run_critClear {s : State} {d : Nat} (hd : d ∈ s.en.critical) : run (critClear d) s =
    run (logEv .criticalTemp d) (run (evt EN_EVT.CRIT) (run (updEn fun e => { e with critical := e.critical.filter fun x => x ≠ d }) s)) := by
  simp only [critClear, run_ask, List.contains_iff_mem.mpr hd, if_true, run_all_cons, run_all_nil]

theorem mem_critTemp (d : Nat) (s : State) : d ∈ (run (critTemp d) s).en.critical := by
  rw [critTemp, updEn, run_prim, Prim.en_en]
  dsimp only
  split
  · rename_i h
    exact List.contains_iff_mem.mp h
  · exact List.mem_cons_self

/-- A calibrated die has the measured powers of each state. -/
theorem calibrate_spec {i g : List Nat} (hi : i.length = 3) (hg : g.length = 3) (d st : Nat) (s : State) :
    idleW (run (calibrate d i g) s) d st = i.getD st 0 ∧ gatedW (run (calibrate d i g) s) d st = g.getD st 0 := by
  have hgo : (decide (i.length = 3) && decide (g.length = 3)) = true := by simp [hi, hg]
  rw [calibrate, run_when, hgo, if_pos rfl, updEn, run_prim, idleW, gatedW, Prim.en_en, Cells.look_ins, Cells.look_ins, if_pos rfl, if_pos rfl]
  exact ⟨rfl, rfl⟩

theorem run_calibrate_wrong {i g : List Nat} (h : i.length ≠ 3 ∨ g.length ≠ 3) (d : Nat) (s : State) : run (calibrate d i g) s = s := by
  have hgo : (decide (i.length = 3) && decide (g.length = 3)) = false := by simpa [Classical.or_iff_not_imp_left] using h
  rw [calibrate, run_when, hgo]
  rfl

/-- Settles O36, command by command: flits that go out hold their fields and their check, a flit taken acts by its check, and each gate by whether it is closed already. -/
theorem energyMessages : Obligations.EnergyMessages := by
  refine ⟨fun s d temp margin => ?send, fun s f => ⟨fun h => ?message, fun h => ?otherMessage⟩, fun s eta => ?allotments, fun s f => ⟨fun h => ?allotment, fun h => ?otherFlit⟩,
    fun s d => ⟨fun hslots hd => ?slots, fun h => ?noSlots⟩, fun s d => ⟨fun hd => ?limit, fun hd => ?limited⟩,
    fun s d => ⟨⟨_, rfl, mem_critTemp d s, rfl, rfl⟩, fun hd => ?cool, fun hd => ?cold⟩,
    fun s d i g => ⟨fun hi hg => ?calibrated, fun h => ⟨_, rfl, run_calibrate_wrong h d s⟩⟩⟩
  case send =>
    have hchanges := (changes_budgetSend d.val temp.toNat margin.toNat).only
    obtain ⟨hok, htype, hdie, htide, hused, hplanned⟩ := budgetFlit_fields 1 d (endedState s d) (getF s EN_STATE.SLOTS d) (endedTide s) (getF s EN_LEDGER.USED d)
      (plannedOf s d) (baseShare s d - plannedOf s d) temp.toNat margin.toNat
    refine ⟨_, _, rfl, ?_, only_regs hchanges (by decide) s, only_mem hchanges (by decide) s, hok, htype, ?_, budgetFlit_tide (Nat.mod_lt _ (by decide)) .., ?_, hplanned⟩
    · simp only [budgetSend, run_ask, run_all_cons, run_all_nil, run_send, Prim.send_out, run_when]
      split <;> rfl
    · exact hdie.trans (Nat.mod_eq_of_lt (by omega))
    · exact hused.trans (Nat.mod_eq_of_lt (bitsOf_lt ..))
  case message =>
    refine ⟨_, rfl, ?_, ?_, ?_⟩ <;> rw [run_budgetTake, if_pos h]
    · rfl
    · rfl
    · exact (Cells.look_ins ..).trans (if_pos rfl)
  case otherMessage => exact ⟨_, rfl, by rw [run_budgetTake, h, if_neg Bool.false_ne_true]⟩
  case allotments =>
    obtain ⟨u, g, gs, hrun, hlen, hflit, hout, hmsgs, heta, hlow⟩ := allotSend_spec eta.val s
    have hsend : (Act.each (fun x => send (.mgmtFlit (g x))) gs).Changes [.out] := changes_each fun _ => changes_send _
    refine ⟨_, (gs.map fun x => .mgmtFlit (g x)).reverse, rfl, only_mem (changes_allotSend eta.val).only (by decide) s, ?_, ?_, ?_, ?_, fun o ho => ?_, fun m hm h => ?_⟩
    · rw [hrun, Prim.fresh_out, out_each_send, hout]
    · rw [List.length_reverse, List.length_map, hlen]
    · rw [hrun, Prim.fresh_en, only_en hsend.only (by decide), hmsgs]
    · rw [hrun, Prim.fresh_en, only_en hsend.only (by decide), heta]
    · obtain ⟨x, -, rfl⟩ := List.mem_map.mp (List.mem_reverse.mp ho)
      exact ⟨g x, rfl, hflit x⟩
    · obtain ⟨hcap, hlog⟩ := hlow m hm h
      rw [hrun, Prim.fresh_getF, hsend.getF (by decide), Safety.Logged, Prim.fresh_tally, hsend.tally (by decide)]
      exact ⟨hcap, hlog⟩
  case allotment =>
    have hallot : dByte f 0x14 4 % 2 ^ 32 = dByte f 0x14 4 := Nat.mod_eq_of_lt (bitsOf_lt ..)
    obtain ⟨hledger, hceil, hallots, hmisses⟩ := allotTaken_spec (dByte f 1) (dByte f 0x14 4) (dByte f 2 % 4) s
    have hout := only_out (changes_allotTake f).only (by decide) s
    have hmem := only_mem (changes_allotTake f).only (by decide) s
    refine ⟨_, rfl, hmem, hout, ?_⟩
    rw [run_allotTake, if_pos h]
    generalize run (allotTaken (dByte f 1) (dByte f 0x14 4) (dByte f 2 % 4)) s = u at *
    have hchosen : (stateChosen (dByte f 1) (dByte f 0x14 4) (dByte f 2 % 4)).Changes [.en] := changes_ask fun _ => changes_when (changes_updEn _)
    obtain ⟨hkeeps, hkeepm⟩ := allotEnds_keeps (dByte f 1) (dByte f 0x14 4) (dByte f 2 % 4) u
    refine ⟨?_, ?_, ?_, fun hd => ?_⟩
    · rw [(changes_when (changes_hostClock _)).getF (by decide), hchosen.getF (by decide), hledger, hallot]
    · rw [hkeeps, hallots]
    · rw [hkeepm, hmisses]
    · rw [run_when, decide_eq_false (by omega), if_neg Bool.false_ne_true, ← hceil]
      exact stateChosen_chosen hd _ _ hmisses
  case otherFlit => exact ⟨_, rfl, by rw [run_allotTake, h, if_neg Bool.false_ne_true]⟩
  case slots =>
    have hmod : ∀ n, (n % 4 + 4) % 2 ^ EN_STATE.PSTATE.width = n % 4 + 4 := fun n => Nat.mod_eq_of_lt (show _ < 16 by omega)
    refine ⟨_, rfl, ?_, ?_, ?_, only_mem (changes_slotsBegin d.val).only (by decide) s⟩ <;> rw [run_slotsBegin hslots hd]
    · rw [getF_incF_apart (by decide), getF_setF_fits (by decide), hmod]
    · rw [getF_incF_fits (by decide), getF_setF_apart (by decide), updEn_getF]
      rfl
    · rw [incF_en, setF_en]
      rfl
  case noSlots =>
    have hgo : (decide (getF s EN_STATE.SLOTS d = 0) || s.en.slots.contains d.val) = true := by simpa using h
    refine ⟨_, rfl, ?_⟩
    rw [slotsBegin, run_ask, if_pos hgo, run_skip]
  case limit =>
    refine ⟨_, rfl, ?_, ?_, ?_, ?_, only_mem (changes_limiterGate d.val).only (by decide) s⟩ <;> rw [run_limiterGate hd]
    · rw [logEv_en, evt_en, incF_en]
      exact List.mem_cons_self
    · rw [logEv_getF, getF_evt_fits (by decide)]
      rfl
    · rw [logEv_getF, getF_evt_apart (by decide), getF_incF_fits (by decide), updEn_getF]
      rfl
    · exact logged_logEv (by decide) _ _ _ ((evt_tally ..).trans ((incF_tally ..).trans ((changes_updEn _).tally (by decide) ..)))
  case limited =>
    refine ⟨_, rfl, ?_⟩
    rw [limiterGate, run_ask, if_pos (List.contains_iff_mem.mpr hd), run_skip]
  case cool =>
    refine ⟨_, rfl, ?_, ?_, ?_, only_mem (changes_critClear d.val).only (by decide) s⟩ <;> rw [run_critClear hd]
    · rw [logEv_en, evt_en]
      exact fun hin => absurd (List.mem_filter.mp hin).2 (by simp)
    · rw [logEv_getF, getF_evt_fits (by decide)]
      rfl
    · exact logged_logEv (by decide) _ _ _ ((evt_tally ..).trans ((changes_updEn _).tally (by decide) ..))
  case cold =>
    refine ⟨_, rfl, ?_⟩
    rw [critClear, run_ask, if_neg (fun hin => hd (List.contains_iff_mem.mp hin)), run_skip]
  case calibrated =>
    have hchanges := (changes_calibrate d.val i g).only
    exact ⟨_, rfl, only_regs hchanges (by decide) s, only_mem hchanges (by decide) s, fun st => calibrate_spec hi hg d st s⟩

end Sys2Proof.Machine

/-! PROOFS. A step runs the front command; the lifecycle moves at the boot alone (R421, Table 20-4). -/

namespace Sys2Proof.Machine

/-- Settles O1: the queue's front command is taken off, and `exec` runs it. -/
theorem stepRunsTheFrontCommand : Obligations.StepRunsTheFrontCommand := fun _ _ _ => rfl

theorem Life.mayGo_self (l : Life) : l.mayGo l = true := by cases l <;> rfl

theorem Prim.life_mayGo (l : Life) (s : State) : s.life.mayGo (Prim.apply (.life l) s).life = true := by
  rw [Prim.life_life]
  split
  case isTrue h => exact h
  case isFalse => exact s.life.mayGo_self

/-- The recorded transition takes effect where Table 20-4 has it. -/
theorem bootLife_mayGo (s : State) : s.life.mayGo (run bootLife s).life = true := by
  rw [bootLife, run_ask]
  cases s.sec.next with
  | none => exact s.life.mayGo_self
  | some l =>
    simp only [run_all_cons, run_all_nil, run_when]
    split <;> exact Prim.life_mayGo l s

/-- After the transition the boot leaves the lifecycle as it is. -/
theorem boot_mayGo (puf : Option W64) (s : State) : s.life.mayGo (run (boot puf) s).life = true := by
  rw [boot, run_ask, run_when]
  split
  · have himages := keepsView_hmImages_ground.eq (run (bootIdentity puf) (run bootLife (run (.prim (.pow fun p => { p with boot := false })) s)))
    have hlife : (run hmImages (run (bootIdentity puf) (run bootLife (run (.prim (.pow fun p => { p with boot := false })) s)))).life =
        (run (bootIdentity puf) (run bootLife (run (.prim (.pow fun p => { p with boot := false })) s))).life := congrArg Prod.fst himages
    rw [only_life (changes_bootIdentity puf).only (by decide)] at hlife
    exact (congrArg s.life.mayGo hlife).trans (bootLife_mayGo (run (.prim (.pow fun p => { p with boot := false })) s))
  · exact s.life.mayGo_self

/-- Only the boot's program reaches the lifecycle. -/
theorem boot_of_mayChange_life {c : Instr} (h : mayChange c .life = true) : ∃ puf, c = .boot puf := by
  cases c with
  | boot puf => exact ⟨puf, rfl⟩
  | _ => exact absurd h Bool.false_ne_true

/-- Settles O54: no program of a command holds an update of time, only the boot's one of the lifecycle, and that one asks Table 20-4. -/
theorem onlyTheBootChangesTheLifecycle : Obligations.OnlyTheBootChangesTheLifecycle := by
  intro c s
  obtain ⟨a, l, he, ha, hl⟩ := exec_only c
  refine ⟨run a s, he s, only_now ha (hl .clock rfl) s, ?_⟩
  cases hc : mayChange c .life with
  | false => exact .inl (only_life ha (hl .life hc) s)
  | true =>
    obtain ⟨puf, rfl⟩ := boot_of_mayChange_life hc
    have hrun : run a s = run (boot puf) s := (Host.Outcome.next.inj (he s)).symm
    exact .inr ⟨⟨puf, rfl⟩, hrun ▸ boot_mayGo puf s⟩

end Sys2Proof.Machine

/-! PROOFS. What the resets leave of the registers that requests and reports of resets stand in (R379 to R391). -/

namespace Sys2Proof.Machine

/-- The registers in which resets are requested and shown. -/
def resetRegs : List RegName := [.RST_STAT, .RST_CTL, .RST_TRIP, .ID_DIEMAP]

/-- An update leaves them alone. -/
def Prim.SparesResetRegs : Prim → Prop
  | .reg r _ _ _ => resetRegs.contains r = false
  | .regsReset c => resetRegs.any c = false
  | _ => True

abbrev Act.SparesResetRegs (a : Act) : Prop := a.Within Prim.SparesResetRegs

theorem Act.SparesResetRegs.getReg {a : Act} (h : a.SparesResetRegs) {q : RegName} (hq : resetRegs.contains q = true) (m n : Nat) (s : State) :
    getReg (run a s) q m n = Machine.getReg s q m n :=
  run_same (fun s => Machine.getReg s q m n) (Act.Within.mono (fun p hp s => by
    cases p
    case reg r i j v =>
      refine getReg_apply_reg_name _ _ _ _ _ _ fun hr => ?_
      rw [← hr, show resetRegs.contains r = false from hp] at hq
      exact Bool.false_ne_true hq
    case regsReset c =>
      have hc : c q = false := by simpa using List.any_eq_false.mp hp q (List.contains_iff_mem.mp hq)
      rw [getReg_apply_regsReset, hc]
      rfl
    all_goals rfl) h) s

theorem Act.SparesResetRegs.getF {a : Act} (h : a.SparesResetRegs) {f : Fld} (hf : resetRegs.contains f.reg = true) (m n : Nat) (s : State) :
    getF (run a s) f m n = Machine.getF s f m n := getF_of_getReg (h.getReg hf m n s)

theorem Act.SparesResetRegs.dieState {a : Act} (h : a.SparesResetRegs) (d : Nat) (s : State) : dieState (run a s) d = Machine.dieState s d := by
  rw [Machine.dieState, Machine.dieState, h.getReg (by decide)]

theorem Act.Writes.sparesResetRegs {l : List RegName} {a : Act} (h : a.Writes l) (hl : l.any resetRegs.contains = false) : a.SparesResetRegs :=
  Act.Within.mono (fun p hp => by
    cases p
    case reg r i j v => exact Bool.eq_false_iff.mpr (List.any_eq_false.mp hl r hp)
    case regsReset c => exact hp.elim
    all_goals trivial) h

theorem Act.Changes.sparesResetRegs {k : List Part} {a : Act} (h : a.Changes k) (hk : Part.regs ∉ k) : a.SparesResetRegs :=
  (writes_of_changes (l := []) h hk).sparesResetRegs rfl

theorem sparesResetRegs_when {c : Bool} {a : Act} (h : a.SparesResetRegs) : (Act.when c a).SparesResetRegs := (within_when _ _).mpr fun _ => h
theorem sparesResetRegs_each {α : Type} {f : α → Act} {l : List α} (h : ∀ x, (f x).SparesResetRegs) : (Act.each f l).SparesResetRegs :=
  (within_each _ _).mpr fun x _ => h x

theorem sparesResetRegs_setF {f : Fld} (x i j : Nat) (h : resetRegs.contains f.reg = false) : (setF f x i j).SparesResetRegs := fun _ => h
theorem sparesResetRegs_evt {f : Fld} (i j : Nat) (h : resetRegs.contains f.reg = false) : (evt f i j).SparesResetRegs := fun _ => h
theorem sparesResetRegs_setBitF {f : Fld} (k : Nat) (b : Bool) (i j : Nat) (h : resetRegs.contains f.reg = false) : (setBitF f k b i j).SparesResetRegs := fun _ => h

theorem sparesResetRegs_pkgWrite (a : Nat) (bs : List Byte) : (pkgWrite a bs).SparesResetRegs :=
  (writes_pkgWrite (l := [.COH_HOLDSNP]) (by decide) a bs).sparesResetRegs rfl

theorem sparesResetRegs_mapWrite (w : Writer) (rebuild : Bool) (a : Nat) (bs : List Byte) : (mapWrite w rebuild a bs).SparesResetRegs :=
  (writes_mapWrite (l := [.COH_HOLDSNP]) (by decide) w rebuild a bs).sparesResetRegs rfl

theorem sparesResetRegs_giveUp : giveUp.SparesResetRegs := fun _ => sparesResetRegs_when
  ⟨Act.Changes.sparesResetRegs (changes_when (changes_each fun _ => changes_when (changes_sendNote _ _ _))) (by decide), sparesResetRegs_setF _ _ _ rfl,
    sparesResetRegs_setF _ _ _ rfl, trivial, sparesResetRegs_evt _ _ rfl, (changes_logEv _ _ _ _).sparesResetRegs (by decide), trivial, trivial⟩

theorem sparesResetRegs_endSession (n st partner : Nat) : (endSession n st partner).SparesResetRegs := fun _ =>
  ⟨sparesResetRegs_setF _ _ _ rfl, sparesResetRegs_setF _ _ _ rfl, trivial, trivial, (changes_rerouteWaiting _).sparesResetRegs (by decide), trivial⟩

theorem sparesResetRegs_jobPortsClose : jobPortsClose.SparesResetRegs := fun _ => sparesResetRegs_each fun _ => sparesResetRegs_when
  ⟨(changes_given (changes_sendControl _ _ _)).sparesResetRegs (by decide), sparesResetRegs_endSession _ _ _⟩

theorem sparesResetRegs_goOut : goOut.SparesResetRegs := fun _ => sparesResetRegs_when
  ⟨sparesResetRegs_giveUp, trivial, sparesResetRegs_setF _ _ _ rfl, sparesResetRegs_jobPortsClose, (changes_logEv _ _ _ _).sparesResetRegs (by decide), trivial⟩

theorem sparesResetRegs_recordEvent (cause : Nat) : (recordEvent cause).SparesResetRegs :=
  ⟨fun _ => trivial, fun _ => sparesResetRegs_when sparesResetRegs_goOut⟩

theorem sparesResetRegs_crashDump (cause : Nat) : (crashDump cause).SparesResetRegs := fun _ => sparesResetRegs_when
  ⟨trivial, fun _ => ⟨sparesResetRegs_each fun _ => sparesResetRegs_pkgWrite _ _, sparesResetRegs_pkgWrite _ _, sparesResetRegs_setF _ _ _ rfl,
    sparesResetRegs_setF _ _ _ rfl, sparesResetRegs_setF _ _ _ rfl, trivial⟩, trivial⟩

theorem sparesResetRegs_copiesEnd : copiesEnd.SparesResetRegs := fun _ => sparesResetRegs_each fun _ => sparesResetRegs_each fun _ =>
  ⟨fun _ _ => ⟨trivial, sparesResetRegs_mapWrite _ _ _ _, trivial, trivial⟩, trivial⟩

theorem sparesResetRegs_flipGroup (g : Nat) : (flipGroup g).SparesResetRegs :=
  ⟨fun _ => sparesResetRegs_setBitF _ _ _ _ rfl, fun _ => sparesResetRegs_pkgWrite _ _, sparesResetRegs_setBitF _ _ _ _ rfl, trivial, trivial⟩

theorem sparesResetRegs_discardPending : discardPending.SparesResetRegs := fun _ => sparesResetRegs_when
  ⟨sparesResetRegs_when ((changes_setDiscarded _).sparesResetRegs (by decide)), sparesResetRegs_each fun _ => sparesResetRegs_setF _ _ _ rfl,
    sparesResetRegs_setF _ _ _ rfl, trivial, sparesResetRegs_evt _ _ rfl, (changes_logEv _ _ _ _).sparesResetRegs (by decide), trivial⟩

theorem sparesResetRegs_pageLost (n : Nat) : (pageLost n).SparesResetRegs := fun _ =>
  ⟨trivial, (writes_objectPoisoned _ _ _ _ _).sparesResetRegs rfl, sparesResetRegs_evt _ _ rfl, sparesResetRegs_evt _ _ rfl,
    (changes_logEv _ _ _ _).sparesResetRegs (by decide), trivial⟩

theorem sparesResetRegs_sessionEnd (p reason : Nat) : (sessionEnd p reason).SparesResetRegs := fun _ => sparesResetRegs_when
  ⟨sparesResetRegs_setF _ _ _ rfl, sparesResetRegs_setF _ _ _ rfl, (changes_updDebug _ _).sparesResetRegs (by decide), sparesResetRegs_evt _ _ rfl,
    (changes_logEv _ _ _ _).sparesResetRegs (by decide), trivial⟩

theorem sparesResetRegs_computeClear : computeClear.SparesResetRegs := by
  unfold computeClear
  generalize tileAgents none = agents
  have hquay : (wipe 0x010000000000 0x300000000).SparesResetRegs := (changes_wipe _ _).sparesResetRegs (by decide)
  exact ⟨sparesResetRegs_copiesEnd, fun _ => sparesResetRegs_each fun _ => sparesResetRegs_flipGroup _, sparesResetRegs_discardPending,
    fun _ => trivial, fun _ => trivial, trivial, trivial, trivial, (changes_fetchDrop _).sparesResetRegs (by decide),
    (changes_putsDrop _).sparesResetRegs (by decide), trivial, rfl, fun _ => sparesResetRegs_each fun _ => sparesResetRegs_pageLost _,
    hquay, (changes_haltsClear _).sparesResetRegs (by decide), (changes_predReset _).sparesResetRegs (by decide), trivial⟩

theorem sparesResetRegs_hostClear : hostClear.SparesResetRegs :=
  ⟨⟨sparesResetRegs_each fun _ => ⟨sparesResetRegs_setF _ _ _ rfl, rfl, trivial⟩, trivial, (changes_fetchDrop _).sparesResetRegs (by decide)⟩, trivial, rfl, trivial,
    sparesResetRegs_sessionEnd _ _, (changes_haltsClear _).sparesResetRegs (by decide), (changes_predReset _).sparesResetRegs (by decide), fun _ => trivial, trivial⟩

theorem sparesResetRegs_edgeTrain (e : Nat) : (edgeTrain e).SparesResetRegs :=
  ⟨sparesResetRegs_setF _ _ _ rfl, sparesResetRegs_setF _ _ _ rfl, sparesResetRegs_setF _ _ _ rfl, sparesResetRegs_setF _ _ _ rfl, sparesResetRegs_setF _ _ _ rfl,
    trivial, fun _ => trivial, trivial⟩

end Sys2Proof.Machine

/-! PROOFS. Departures that resets ask for, and the assertion of a reset of the host domain, of the compute part and of a die (R268, R380 to R383, Table 18-1). -/

namespace Sys2Proof.Machine

/-! Dies in ID_DIEMAP. -/

/-- A die's field of ID_DIEMAP. -/
def dieFld (d : Nat) : Fld := ⟨.ID_DIEMAP, 2 * d, 2, .ro, 0⟩

theorem dieState_eq (s : State) (d : Nat) : dieState s d = getF s (dieFld d) := rfl
theorem setDie_eq (d v : Nat) : setDie d v = setF (dieFld d) v := rfl
theorem dieFld_fits {d : Nat} (h : d < 6) : (dieFld d).fits = true := (show ∀ d, d < 6 → (dieFld d).fits = true by decide) d h
theorem dieFld_apart {d e : Nat} (hd : d < 6) (he : e < 6) (h : d ≠ e) : (dieFld d).apart (dieFld e) = true :=
  (show ∀ d, d < 6 → ∀ e, e < 6 → d ≠ e → (dieFld d).apart (dieFld e) = true by decide) d hd e he h

theorem dieState_setDie {d : Nat} (h : d < 6) (v : Nat) (s : State) : dieState (run (setDie d v) s) d = v % 4 :=
  getF_setF_fits (dieFld_fits h) v 0 0 s
theorem dieState_setDie_other {d e : Nat} (hd : d < 6) (he : e < 6) (h : d ≠ e) (v : Nat) (s : State) : dieState (run (setDie d v) s) e = dieState s e :=
  getF_setF_apart (dieFld_apart hd he h) v 0 0 0 0 s

theorem dieState_of_diemap {s t : State} (h : getReg t .ID_DIEMAP 0 0 = getReg s .ID_DIEMAP 0 0) (d : Nat) : dieState t d = dieState s d := by
  rw [dieState, dieState, h]

/-! Domains that are held. -/

theorem isHeld_of_rst {s t : State} (h : t.rst.held = s.rst.held) (d : Nat) : isHeld t d = isHeld s d := by rw [isHeld, isHeld, h]

theorem isHeld_holdDom (d k : Nat) (s : State) : isHeld (run (holdDom d) s) k = (decide (k = d) || isHeld s k) := by
  simp only [isHeld, holdDom, updRst, run_prim, Prim.rst_rst]
  rw [Bool.eq_iff_iff]
  split
  case isTrue h =>
    simp only [Bool.or_eq_true, decide_eq_true_eq]
    exact ⟨.inr, fun hk => hk.elim (fun e => e ▸ h) id⟩
  case isFalse => simp

theorem isHeld_freeDom (d k : Nat) (s : State) : isHeld (run (freeDom d) s) k = (isHeld s k && decide (k ≠ d)) := by
  simp only [isHeld, freeDom, updRst, run_prim, Prim.rst_rst]
  rw [Bool.eq_iff_iff]
  simp

theorem noteReset_spec {dom cause : Nat} (hd : dom < 8) (hc : cause < 256) (s : State) :
    getF (run (noteReset dom cause) s) RST_STAT.DOMAIN = dom ∧ getF (run (noteReset dom cause) s) RST_STAT.CAUSE = cause := by
  rw [noteReset, run_all_cons, run_all_cons, run_all_nil, getF_setF_fits (by decide), getF_setF_apart (by decide), getF_setF_fits (by decide)]
  exact ⟨Nat.mod_eq_of_lt hd, Nat.mod_eq_of_lt hc⟩

theorem writes_noteReset (dom cause : Nat) : (noteReset dom cause).Writes [.RST_STAT] := ⟨writes_setF (by decide) _ _ _, writes_setF (by decide) _ _ _, trivial⟩

/-! What a program makes of the coherent domain. -/

/-- An update keeps what is claimed of the coherent domain. -/
def Prim.CohKeeps (I : CohSt → Prop) : Prim → Prop
  | .coh f => ∀ c, I c → I (f c)
  | _ => True

abbrev Act.CohKeeps (I : CohSt → Prop) (a : Act) : Prop := a.Within (Prim.CohKeeps I)

theorem Act.CohKeeps.run {I : CohSt → Prop} {a : Act} (h : a.CohKeeps I) {s : State} (hs : I s.coh) : I (run a s).coh :=
  run_rel (R := fun s t => I s.coh → I t.coh) (fun _ h => h) (fun h k hs => k (h hs)) h (fun p hp s hs => by
    cases p
    case coh f => exact hp _ hs
    all_goals exact hs) s hs

theorem cohKeeps_of_changes {I : CohSt → Prop} {k : List Part} {a : Act} (h : a.Changes k) (hk : Part.coh ∉ k) : a.CohKeeps I :=
  Act.Within.mono (fun p hp => by
    cases p
    case coh f => exact absurd hp hk
    all_goals trivial) h.only

section
variable {I : CohSt → Prop} (h : ∀ c p, I c → I (c.forget p))
include h

theorem cohKeeps_pkgWrite (a : Nat) (bs : List Byte) : (pkgWrite a bs).CohKeeps I := by
  refine ⟨(within_each _ _).mpr fun p _ => ⟨fun s => ?_, cohKeeps_of_changes (changes_writeMem _ _) (by decide), cohKeeps_of_changes (changes_stampLine _ _ _) (by decide), trivial⟩,
    cohKeeps_of_changes (changes_clearBlocks _ _ _) (by decide), trivial⟩
  dsimp only
  split
  · trivial
  · refine ⟨cohKeeps_of_changes (changes_when (changes_addF _ _ _ _)) (by decide), ?_, fun c hc => h c _ hc, trivial⟩
    split
    · exact cohKeeps_of_changes (changes_when (changes_writeMem _ _)) (by decide)
    · trivial

theorem cohKeeps_crashDump (cause : Nat) : (crashDump cause).CohKeeps I := fun _ => (within_when _ _).mpr fun _ =>
  ⟨trivial, fun _ => ⟨(within_each _ _).mpr fun _ _ => cohKeeps_pkgWrite h _ _, cohKeeps_pkgWrite h _ _,
    cohKeeps_of_changes (changes_setF _ _ _ _) (by decide), cohKeeps_of_changes (changes_setF _ _ _ _) (by decide),
    cohKeeps_of_changes (changes_setF _ _ _ _) (by decide), trivial⟩, trivial⟩

end

/-! What forgetting lines leaves of the agents. -/

/-- Agents with a departure in progress. -/
def CohSt.departing (c : CohSt) : List Nat := (c.agents.filter fun e => e.2.departing).map fun e => e.1

theorem departing_forget (c : CohSt) (p : Nat → Bool) : (c.forget p).departing = c.departing := by
  simp only [CohSt.departing, CohSt.forget]
  induction c.agents with
  | nil => rfl
  | cons e l ih =>
    obtain ⟨a, x⟩ := e
    cases hx : x.departing with
    | true =>
      have hne : x.forget p ≠ {} := fun he => by
        have hd : (x.forget p).departing = x.departing := rfl
        rw [he, hx] at hd
        exact Bool.false_ne_true hd
      have hd : (x.forget p).departing = true := hx
      rw [List.map_cons, List.filter_cons_of_pos (by simpa using hne), List.filter_cons_of_pos (by exact hd), List.map_cons, List.filter_cons_of_pos (by exact hx), List.map_cons, ih]
    | false =>
      have hd : ¬ (x.forget p).departing = true := by rw [show (x.forget p).departing = x.departing from rfl, hx]; exact Bool.false_ne_true
      have hkeep : ∀ m : List (Nat × CohAgent), (List.filter (fun e => e.2.departing) (List.filter (fun e => decide (e.2 ≠ {})) ((a, x.forget p) :: m))) =
          List.filter (fun e => e.2.departing) (List.filter (fun e => decide (e.2 ≠ {})) m) := fun m => by
        rw [List.filter_cons]
        split
        · exact List.filter_cons_of_neg hd
        · rfl
      rw [List.map_cons, hkeep, ih, List.filter_cons_of_neg (by simp [hx])]

/-- An agent that is not blank without the lines keeps its place. -/
theorem agent_forget {c : CohSt} {a : Nat} {p : Nat → Bool} (h : (Cells.get {} c.agents a).forget p ≠ {}) :
    Cells.get {} (c.forget p).agents a = (Cells.get {} c.agents a).forget p := by
  simp only [CohSt.forget]
  revert h
  induction c.agents with
  | nil => exact fun h => absurd rfl h
  | cons e l ih =>
    obtain ⟨k, x⟩ := e
    simp only [Cells.get, List.map_cons]
    by_cases hk : a = k
    · rw [if_pos hk]
      intro h
      rw [List.filter_cons_of_pos (by simpa using h), Cells.get, if_pos hk]
    · rw [if_neg hk]
      intro h
      rw [← ih h, List.filter_cons]
      split
      · rw [Cells.get, if_neg hk]
      · rfl

theorem agent_forget_gone {c : CohSt} {a : Nat} (p : Nat → Bool) (h : (Cells.get {} c.agents a).departed = true ∨ (Cells.get {} c.agents a).dead = true) :
    (Cells.get {} (c.forget p).agents a).departed = true ∨ (Cells.get {} (c.forget p).agents a).dead = true := by
  have hne : (Cells.get {} c.agents a).forget p ≠ {} := fun he => by
    have hd : (Cells.get {} c.agents a).departed = false := congrArg CohAgent.departed he
    have hd' : (Cells.get {} c.agents a).dead = false := congrArg CohAgent.dead he
    simp [hd, hd'] at h
  rw [agent_forget hne]
  exact h

/-- An agent with a write-back on its way that is neither departed nor dead. -/
def CohSt.Busy (a : Nat) (c : CohSt) : Prop :=
  (Cells.get {} c.agents a).departed = false ∧ (Cells.get {} c.agents a).dead = false ∧ (Cells.get {} c.agents a).pend ≠ []

theorem busy_forget {c : CohSt} {a : Nat} (p : Nat → Bool) (h : c.Busy a) : (c.forget p).Busy a := by
  obtain ⟨hdep, hdead, hpend⟩ := h
  have hpend' : ((Cells.get {} c.agents a).forget p).pend ≠ [] := fun he => hpend (List.map_eq_nil_iff.mp he)
  have hne : (Cells.get {} c.agents a).forget p ≠ {} := fun he => hpend' (congrArg CohAgent.pend he)
  rw [CohSt.Busy, agent_forget hne]
  exact ⟨hdep, hdead, hpend'⟩

/-! Departures that begin (R268). -/

theorem mem_departing {s : State} {a : Nat} (h : (cohAgent s a).departing = true) : a ∈ departing s := by
  simp only [departing, cohAgent] at h ⊢
  revert h
  induction s.coh.agents with
  | nil => exact fun h => absurd h Bool.false_ne_true
  | cons e l ih =>
    obtain ⟨k, x⟩ := e
    simp only [Cells.get]
    split
    case isTrue hk =>
      intro hx
      rw [List.filter_cons_of_pos (by exact hx), List.map_cons]
      exact List.mem_cons.mpr (.inl hk)
    case isFalse hk =>
      intro hx
      rw [List.filter_cons]
      split
      · exact List.mem_cons_of_mem _ (ih hx)
      · exact ih hx

end Sys2Proof.Machine

/-! PROOFS. The assertion of a reset of the host domain: what holds it, what RST_STAT shows and what is empty (R380, R383, Table 18-1). -/

namespace Sys2Proof.Machine

/-- A program leaves a part of what stands of the resets. -/
abbrev Act.KeepsRst {α : Type} (g : RstSt → α) (a : Act) : Prop := a.Within fun p => ∀ s, g (p.apply s).rst = g s.rst

theorem Act.KeepsRst.eq {α : Type} {g : RstSt → α} {a : Act} (h : a.KeepsRst g) (s : State) : g (run a s).rst = g s.rst :=
  run_same (fun s => g s.rst) h s

theorem keepsRst_of_changes {α : Type} {g : RstSt → α} {k : List Part} {a : Act} (h : a.Changes k) (hk : Part.rst ∉ k) : a.KeepsRst g :=
  Act.Within.mono (fun p hp s => by
    cases p
    case rst f => exact absurd hp hk
    all_goals rfl) h.only

theorem Act.SparesResetRegs.keeps {a : Act} (h : a.SparesResetRegs) {q : RegName} (hq : resetRegs.contains q = true) (m n : Nat) : a.KeepsReg q m n :=
  Act.Within.mono (fun p hp s => by
    have hrun : Act.SparesResetRegs (.prim p) := hp
    exact hrun.getReg hq m n s) h

theorem isHeld_of_changes {k : List Part} {a : Act} (h : a.Changes k) (hk : Part.rst ∉ k) (s : State) (d : Nat) : isHeld (run a s) d = isHeld s d :=
  isHeld_of_rst (congrArg RstSt.held (only_rst h.only hk s)) d

theorem dieState_of_changes {k : List Part} {a : Act} (h : a.Changes k) (hk : Part.regs ∉ k) (s : State) (d : Nat) : dieState (run a s) d = dieState s d :=
  dieState_of_diemap (by rw [getReg, getReg, only_regs h.only hk]) d

theorem writes_sessionEnd (p reason : Nat) : (sessionEnd p reason).Writes [.DBG_SESS, .DBG_EVT] := fun _ => (within_when _ _).mpr fun _ =>
  ⟨writes_setF (by decide) _ _ _, writes_setF (by decide) _ _ _, writes_of_changes (changes_updDebug _ _) (by decide), writes_evt (by decide) _ _,
    writes_of_changes (changes_logEv _ _ _ _) (by decide), trivial⟩

/-! The host domain clears. -/

theorem keepsRst_hostClear {α : Type} {g : RstSt → α} (h : ∀ r b, g { r with beat := b } = g r) : hostClear.KeepsRst g :=
  ⟨keepsRst_of_changes changes_bellReset (by decide), keepsRst_of_changes changes_cusReset (by decide), fun _ => rfl, fun _ => rfl,
    keepsRst_of_changes (changes_sessionEnd _ _) (by decide), keepsRst_of_changes (changes_haltsClear _) (by decide),
    keepsRst_of_changes (changes_predReset _) (by decide), fun _ _ => h _ _, trivial⟩

/-- What the host domain's clearing does after its registers are reset. -/
def hostClearRest : Act :=
  Act.all [updTier fun t => { t with waits := t.waits.filter fun w => match w.who with | .host _ => false | .copyDma => false | _ => true },
    sessionEnd 1 5, haltsClear fun c => decide (512 ≤ c) && decide (c < 608), predReset [512],
    .ask fun s => updRst fun r => { r with beat := getF s TIDE_COUNT.COUNT }]

theorem run_hostClear (s : State) : run hostClear s =
    run hostClearRest (run (.prim (.regsReset fun r => r.loc.block = .BELL || r.loc.block = .CUS)) (run cusReset (run bellReset s))) := by
  simp only [hostClear, hostClearRest, run_all_cons, run_all_nil] <;> rfl

theorem changes_hostClearRest : Act.Changes [.regs, .log, .sec, .tier, .coh, .rst] hostClearRest :=
  changes_cons ((changes_updTier _).up rfl) (changes_cons ((changes_sessionEnd _ _).up rfl) (changes_cons ((changes_haltsClear _).up rfl)
    (changes_cons ((changes_predReset _).up rfl) (changes_cons (changes_ask fun _ => (changes_updRst _).up rfl) changes_nil))))

theorem writes_hostClearRest : hostClearRest.Writes [.DBG_SESS, .DBG_EVT] :=
  ⟨trivial, writes_sessionEnd _ _, writes_of_changes (changes_haltsClear _) (by decide), writes_of_changes (changes_predReset _) (by decide), fun _ => trivial, trivial⟩

theorem hostClear_bell (s : State) : (run hostClear s).bell = [] := by
  rw [run_hostClear, only_bell changes_hostClearRest.only (by decide), run_prim, Prim.regsReset_bell, only_bell changes_cusReset.only (by decide), bellReset, run_seq,
    run_seq, only_bell (changes_fetchDrop _).only (by decide)]
  rfl

theorem hostClear_queues (q : Nat) (s : State) : getF (run hostClear s) BELL_CFG.EN q = 0 := by
  rw [run_hostClear, writes_hostClearRest.getF (by decide), run_prim, getF, getReg_apply_regsReset, if_pos (by decide),
    show regReset BELL_CFG.EN.reg q 0 = regReset .BELL_CFG 0 0 from rfl]
  decide

/-! Its assertion. -/

section
variable (cause : Nat) (s : State)

/-- What follows the clearing. -/
def hostHeld (cause : Nat) : Act := Act.all [holdDom 6, setDie 4 3, noteReset 6 cause]

theorem run_assertHost : run (assertHost cause) s = run (hostHeld cause) (run hostClear (run (updRst fun r => { r with hostDue := none }) s)) := by
  simp only [assertHost, hostHeld, run_all_cons, run_all_nil]

theorem changes_hostHeld : Act.Changes [.regs, .rst] (hostHeld cause) :=
  changes_cons ((changes_holdDom _).up rfl) (changes_cons ((changes_setDie _ _).up rfl) (changes_cons ((changes_noteReset _ _).up rfl) changes_nil))

theorem writes_hostHeld : (hostHeld cause).Writes [.RST_STAT, .ID_DIEMAP] :=
  ⟨trivial, writes_setF (f := dieFld 4) (by decide) _ _ _, (writes_noteReset _ _).mono (by decide), trivial⟩

theorem isHeld_assertHost (k : Nat) : isHeld (run (assertHost cause) s) k = (decide (k = 6) || isHeld s k) := by
  have hclear : (run hostClear (run (updRst fun r => { r with hostDue := none }) s)).rst.held = s.rst.held := (keepsRst_hostClear (g := RstSt.held) fun _ _ => rfl).eq _
  rw [run_assertHost, hostHeld, run_all_cons, run_all_cons, run_all_cons, run_all_nil, isHeld_of_changes (changes_noteReset _ _) (by decide),
    isHeld_of_changes (changes_setDie _ _) (by decide), isHeld_holdDom, isHeld_of_rst hclear]

theorem assertHost_shown (hc : cause < 256) : getF (run (assertHost cause) s) RST_STAT.DOMAIN = 6 ∧ getF (run (assertHost cause) s) RST_STAT.CAUSE = cause := by
  rw [assertHost, run_all_cons, run_all_cons, run_all_cons, run_all_cons, run_all_cons, run_all_nil]
  exact noteReset_spec (by decide) hc _

theorem dieState_assertHost {d : Nat} (hd : d < 4) : dieState (run (assertHost cause) s) d = dieState s d := by
  rw [run_assertHost, hostHeld, run_all_cons, run_all_cons, run_all_cons, run_all_nil, dieState_of_diemap ((writes_noteReset _ _).getReg (by decide) _ _ _),
    dieState_setDie_other (by decide) (by omega) (by omega), dieState_of_changes (changes_holdDom _) (by decide), sparesResetRegs_hostClear.dieState]
  rfl

theorem assertHost_bell : (run (assertHost cause) s).bell = [] := by
  rw [run_assertHost, only_bell (changes_hostHeld _).only (by decide), hostClear_bell]

theorem assertHost_queues (q : Nat) : getF (run (assertHost cause) s) BELL_CFG.EN q = 0 := by
  rw [run_assertHost, (writes_hostHeld _).getF (by decide), hostClear_queues]

theorem keepsRst_assertHost_due : (assertHost cause).KeepsRst RstSt.due :=
  ⟨fun _ => rfl, keepsRst_hostClear fun _ _ => rfl, fun _ => rfl, keepsRst_of_changes (changes_setDie _ _) (by decide),
    keepsRst_of_changes (changes_noteReset _ _) (by decide), trivial⟩

end

/-! The departure of an agent begins (R268). -/

theorem agentCaches_congr {s t : State} (h : t.chart = s.chart) (a : Nat) : agentCaches t a = agentCaches s a := by
  rw [agentCaches, agentCaches, agentMember_congr h]

/-- An agent without a cache, or one that has departed or is dead: no departure of it begins. -/
def Gone (s : State) (a : Nat) : Prop := agentCaches s a = false ∨ (cohAgent s a).departed = true ∨ (cohAgent s a).dead = true

/-- An agent with a cache that has not departed and is not dead. -/
def Stays (s : State) (a : Nat) : Prop := agentCaches s a = true ∧ (cohAgent s a).departed = false ∧ (cohAgent s a).dead = false

theorem run_departBegin_gone {s : State} {a : Nat} (h : Gone s a) : run (departBegin a) s = s := by
  rw [departBegin, run_ask]
  dsimp only
  rw [if_pos]
  · rfl
  · rcases h with h | h | h <;> rw [h] <;> simp

theorem keepsAgents_evictAll {α : Type} {g : CohAgent → α} (hlines : ∀ x l, g { x with lines := l } = g x) (hresv : ∀ x r, g { x with resv := r } = g x)
    (hpend : ∀ x p, g { x with pend := p } = g x) (a : Nat) (l : FMap CLine) : (Act.each (fun e => evictLine a e.1) l).KeepsAgents g :=
  (within_each _ _).mpr fun _ _ => keepsAgents_evictLine hlines hresv hpend _ _

theorem cohAgent_updReqs (f : CohSt → List (Nat × Nat × ReqKind)) (s : State) (a : Nat) :
    cohAgent (run (updCoh fun c => { c with reqs := f c }) s) a = cohAgent s a := rfl

/-- A departure that begins leaves who has departed and who is dead. -/
theorem keepsAgents_departBegin (a : Nat) : (departBegin a).KeepsAgents fun x => (x.departed, x.dead) := by
  intro s
  dsimp only
  split
  · trivial
  · exact ⟨fun _ _ => rfl, keepsAgents_updAgent (g := fun x => (x.departed, x.dead)) (by intro _; rfl) a, fun _ _ => rfl,
      keepsAgents_evictAll (g := fun x => (x.departed, x.dead)) (fun _ _ => rfl) (fun _ _ => rfl) (fun _ _ => rfl) _ _, trivial⟩

/-- No agent of which a departure is in progress leaves it when another departure begins. -/
theorem departBegin_stillDeparting {a : Nat} (b : Nat) {s : State} (h : (cohAgent s a).departing = true) : (cohAgent (run (departBegin b) s) a).departing = true := by
  rw [departBegin, run_ask]
  dsimp only
  split
  · exact h
  · rw [run_all_cons, run_all_cons, run_all_cons, run_all_cons, run_all_nil,
      (keepsAgents_evictAll (g := CohAgent.departing) (fun _ _ => rfl) (fun _ _ => rfl) (fun _ _ => rfl) _ _).eq]
    rw [cohAgent_updReqs, cohAgent_updAgent]
    split
    · rfl
    · exact h

theorem departBegin_departing {a : Nat} {s : State} (h : Stays s a) : (cohAgent (run (departBegin a) s) a).departing = true := by
  obtain ⟨hcaches, hdep, hdead⟩ := h
  cases hgoes : (cohAgent s a).departing with
  | true => exact departBegin_stillDeparting a hgoes
  | false =>
    rw [departBegin, run_ask]
    dsimp only
    rw [if_neg (by rw [hcaches, hdep, hdead, hgoes]; exact Bool.false_ne_true), run_all_cons, run_all_cons, run_all_cons, run_all_cons, run_all_nil,
      (keepsAgents_evictAll (g := CohAgent.departing) (fun _ _ => rfl) (fun _ _ => rfl) (fun _ _ => rfl) _ _).eq]
    rw [cohAgent_updReqs, cohAgent_updAgent_same]

theorem stays_of_departBegin {a : Nat} (b : Nat) {s : State} (h : Stays s a) : Stays (run (departBegin b) s) a := by
  have hflags := (keepsAgents_departBegin b).eq s a
  rw [Stays, agentCaches_congr (only_chart (changes_departBegin b).only (by decide) s)]
  exact ⟨h.1, (congrArg Prod.fst hflags).trans h.2.1, (congrArg Prod.snd hflags).trans h.2.2⟩

/-- Among agents of which each begins to depart, one that stays departs from then on. -/
theorem departAll_departing {a : Nat} {l : List Nat} (ha : a ∈ l) {s : State} (h : Stays s a) : (cohAgent (run (Act.each departBegin l) s) a).departing = true := by
  induction l generalizing s with
  | nil => exact absurd ha (List.not_mem_nil)
  | cons b l ih =>
    rw [run_each_cons]
    by_cases hal : a ∈ l
    · exact ih hal (stays_of_departBegin b h)
    · obtain rfl := (List.mem_cons.mp ha).resolve_right hal
      have hbegun := departBegin_departing h
      clear ih ha h
      generalize run (departBegin a) s = t at hbegun
      clear hal
      induction l generalizing t with
      | nil => exact hbegun
      | cons b l ih => exact ih _ (departBegin_stillDeparting b hbegun)

theorem departAll_gone {l : List Nat} {s : State} (h : ∀ a ∈ l, Gone s a) : run (Act.each departBegin l) s = s := by
  induction l with
  | nil => rfl
  | cons a l ih => rw [run_each_cons, run_departBegin_gone (h a List.mem_cons_self), ih fun b hb => h b (List.mem_cons_of_mem _ hb)]

end Sys2Proof.Machine

/-! PROOFS. A reset of the host domain: what asks for it, the departure it waits for, and the host watchdog (R380, R381, R388); out of service ends (R391). -/

namespace Sys2Proof.Machine

section
variable {s : State}

/-- A reset that is due, before anything departs: LOST has gone out where the package served its berth. -/
def hostAsked (cause : Nat) : Act := .seq giveUp (updRst fun r => { r with hostDue := some cause })

theorem hostAsked_rst (cause : Nat) : (run (hostAsked cause) s).rst = { s.rst with hostDue := some cause } := by
  have hrst : (run giveUp s).rst = s.rst := only_rst changes_giveUp.only (by decide) s
  rw [hostAsked, run_seq, updRst, run_prim, Prim.rst_rst, hrst]

theorem cohAgent_hostAsked (cause a : Nat) : cohAgent (run (hostAsked cause) s) a = cohAgent s a :=
  cohAgent_congr (only_coh changes_giveUp.only (by decide) s) a

theorem agentCaches_hostAsked (cause a : Nat) : agentCaches (run (hostAsked cause) s) a = agentCaches s a :=
  agentCaches_congr (only_chart changes_giveUp.only (by decide) s) a

theorem hostAsked_bell (cause : Nat) : (run (hostAsked cause) s).bell = s.bell := only_bell changes_giveUp.only (by decide) s

theorem run_hostReset (h6 : isHeld s 6 = false) (h7 : isHeld s 7 = false) (hdue : s.rst.hostDue = none) (cause : Nat) :
    run (hostReset cause) s = run hostGo (run (departBegin 512) (run (hostAsked cause) s)) := by
  rw [hostReset, run_ask, run_when, h6, h7, hdue, if_pos (by decide), run_all_cons, run_all_cons, run_all_cons, run_all_cons, run_all_nil, hostAsked, run_seq]

/-- One in progress, or a larger one, is joined. -/
theorem run_hostReset_joined (h : isHeld s 6 = true ∨ isHeld s 7 = true ∨ s.rst.hostDue ≠ none) (cause : Nat) : run (hostReset cause) s = s := by
  have hno : (!isHeld s 6 && !isHeld s 7 && s.rst.hostDue.isNone) = false := by
    rcases h with h | h | h
    · rw [h]; rfl
    · rw [h, Bool.not_true, Bool.and_false, Bool.false_and]
    · rw [Option.isNone_eq_false_iff.mpr (Option.isSome_iff_ne_none.mpr h), Bool.and_false]
  rw [hostReset, run_ask, run_when, hno, if_neg Bool.false_ne_true]

theorem run_hostGo_asserts {c : Nat} (hdue : s.rst.hostDue = some c) (h : (cohAgent s 512).departing = false) : run hostGo s = run (assertHost c) s := by
  rw [hostGo, run_ask, hdue]
  dsimp only
  rw [run_when, h, if_pos (by decide)]

theorem run_hostGo_waits (h : (cohAgent s 512).departing = true) : run hostGo s = s := by
  rw [hostGo, run_ask]
  split
  · rw [run_when, h, if_neg (by decide)]
  · rfl

/-- A host agent that does not depart: the domain is held at once. -/
theorem run_hostReset_gone (h6 : isHeld s 6 = false) (h7 : isHeld s 7 = false) (hdue : s.rst.hostDue = none) (hnot : (cohAgent s 512).departing = false)
    (hgone : Gone s 512) (cause : Nat) : run (hostReset cause) s = run (assertHost cause) (run (hostAsked cause) s) := by
  have hgone' : Gone (run (hostAsked cause) s) 512 := by rwa [Gone, agentCaches_hostAsked, cohAgent_hostAsked]
  have hnot' : (cohAgent (run (hostAsked cause) s) 512).departing = false := by rwa [cohAgent_hostAsked]
  rw [run_hostReset h6 h7 hdue, run_departBegin_gone hgone', run_hostGo_asserts (congrArg RstSt.hostDue (hostAsked_rst cause)) hnot']

/-- A host agent that stays begins to depart, and the reset waits. -/
theorem run_hostReset_stays (h6 : isHeld s 6 = false) (h7 : isHeld s 7 = false) (hdue : s.rst.hostDue = none) (hstays : Stays s 512) (cause : Nat) :
    run (hostReset cause) s = run (departBegin 512) (run (hostAsked cause) s) ∧ (cohAgent (run (departBegin 512) (run (hostAsked cause) s)) 512).departing = true := by
  have hstays' : Stays (run (hostAsked cause) s) 512 := by rwa [Stays, agentCaches_hostAsked, cohAgent_hostAsked]
  have hgoes := departBegin_departing hstays'
  exact ⟨by rw [run_hostReset h6 h7 hdue, run_hostGo_waits hgoes], hgoes⟩

theorem hostReset_held (h6 : isHeld s 6 = false) (h7 : isHeld s 7 = false) (hdue : s.rst.hostDue = none) (hnot : (cohAgent s 512).departing = false)
    (hgone : Gone s 512) {cause : Nat} (hc : cause < 256) : isHeld (run (hostReset cause) s) 6 = true ∧
      getF (run (hostReset cause) s) RST_STAT.DOMAIN = 6 ∧ getF (run (hostReset cause) s) RST_STAT.CAUSE = cause := by
  rw [run_hostReset_gone h6 h7 hdue hnot hgone, isHeld_assertHost]
  exact ⟨rfl, assertHost_shown cause _ hc⟩

theorem hostReset_due (h6 : isHeld s 6 = false) (h7 : isHeld s 7 = false) (hdue : s.rst.hostDue = none) (hstays : Stays s 512) (cause : Nat) :
    let t := run (hostReset cause) s
    t.rst.hostDue = some cause ∧ (cohAgent t 512).departing = true ∧ t.rst.held = s.rst.held ∧ t.bell = s.bell := by
  obtain ⟨hrun, hgoes⟩ := run_hostReset_stays h6 h7 hdue hstays cause
  have hrst := (only_rst (changes_departBegin 512).only (by decide) (run (hostAsked cause) s)).trans (hostAsked_rst cause)
  dsimp only
  rw [hrun, hrst, only_bell (changes_departBegin 512).only (by decide)]
  exact ⟨rfl, hgoes, rfl, hostAsked_bell cause⟩

/-! The host watchdog. -/

theorem run_hostTrip (hlimit : getF s RST_HOSTWD.LIMIT ≠ 0) (hbeat : s.rst.beat + getF s RST_HOSTWD.LIMIT ≤ getF s TIDE_COUNT.COUNT) :
    run hostTrip s = run (hostReset 6) s := by
  rw [hostTrip, run_ask, run_when, if_pos (by rw [decide_eq_true hlimit, decide_eq_true hbeat]; rfl)]

theorem run_hostTrip_in_time (h : getF s RST_HOSTWD.LIMIT = 0 ∨ getF s TIDE_COUNT.COUNT < s.rst.beat + getF s RST_HOSTWD.LIMIT) : run hostTrip s = s := by
  rw [hostTrip, run_ask, run_when, if_neg]
  simp only [Bool.and_eq_true, decide_eq_true_eq, not_and_or, not_not, not_le]
  exact h

end

/-- Settles O49: the trip is the host domain's reset with cause 6, which the host agent's departure delays. -/
theorem hostWatchdog : Obligations.HostWatchdog := by
  unfold Obligations.HostWatchdog
  refine ⟨fun s => ⟨_, rfl, rfl⟩, fun s hlimit hbeat h6 h7 hdue => ⟨_, rfl, ?_⟩, fun s hdue => ⟨fun hnot => ?_, run_hostGo_waits⟩, fun s h => ⟨_, rfl, run_hostTrip_in_time h⟩⟩
  · rw [run_hostTrip hlimit hbeat]
    refine ⟨fun hnot hgone => hostReset_held h6 h7 hdue hnot hgone (by decide), fun hcaches hdep hdead => ?_⟩
    obtain ⟨hhost, hgoes, -, -⟩ := hostReset_due h6 h7 hdue ⟨hcaches, hdep, hdead⟩ 6
    exact ⟨hhost, hgoes⟩
  · rw [run_hostGo_asserts hdue hnot, isHeld_assertHost]
    exact ⟨rfl, assertHost_shown 6 s (by decide)⟩

/-! Out of service ends. -/

theorem run_oosClear_within {s : State} (h : d2Open s = true) : run oosClear s =
    run (Act.when (decide (getF s SHD_STAT.ROLE = 4)) (setF SHD_STAT.ROLE 3)) { s with rst := { s.rst with oos := false, events := [] } } := by
  rw [oosClear, run_ask, h]
  rfl

theorem run_oosClear_ignored {s : State} (h : d2Open s = false) : run oosClear s = run (logEv .oosclrIgnored) s := by
  rw [oosClear, run_ask, h]
  rfl

/-- Settles O50: within a D2 session the record and the flag fall and the role may follow (log 32); elsewhere the write is logged alone. -/
theorem outOfServiceCleared : Obligations.OutOfServiceCleared := by
  unfold Obligations.OutOfServiceCleared
  refine ⟨fun s h => ⟨_, rfl, ?_, fun r i j hr => ?_⟩, fun s h => ⟨_, rfl, ?_, ?_⟩⟩
  · rw [run_oosClear_within h, run_when]
    split <;> rfl
  · rw [run_oosClear_within h]
    have hwrites : (Act.when (decide (getF s SHD_STAT.ROLE = 4)) (setF SHD_STAT.ROLE 3)).Writes [.SHD_STAT] := (within_when _ _).mpr fun _ => writes_setF (by decide) _ _ _
    exact hwrites.getReg (by simpa using hr) i j _
  · rw [run_oosClear_ignored h]
    rfl
  · rw [run_oosClear_ignored h]
    exact logged_logEv (by decide) _ _ _ rfl

end Sys2Proof.Machine

/-! PROOFS. The compute part clears; a reset of it or of a die is asserted (R380 to R383, Table 18-1). -/

namespace Sys2Proof.Machine

/-! What a program makes hold, wherever it starts. -/

def Act.Makes (P : State → Prop) (a : Act) : Prop := ∀ s, P (run a s)

theorem makes_later {P : State → Prop} {a : Act} {l : List Act} (h : (Act.all l).Makes P) : (Act.all (a :: l)).Makes P := fun s => by
  rw [run_all_cons]
  exact h _

theorem makes_here {P : State → Prop} {a : Act} {l : List Act} (h : a.Makes P) (hl : ∀ s, P s → P (run (Act.all l) s)) : (Act.all (a :: l)).Makes P := fun s => by
  rw [run_all_cons]
  exact hl _ (h s)

/-! What the compute part's clearing leaves empty. -/

/-- Once the tiles have ended nothing of the clearing starts one. -/
theorem computeClear_tiles : computeClear.Makes fun s => s.tiles = [] := by
  unfold computeClear
  generalize tileAgents none = agents
  refine makes_later (makes_later (makes_later (makes_later (makes_later (makes_here (fun _ => rfl) fun s h => ?_)))))
  refine (only_tiles (l := [.regs, .log, .num, .tier, .hural, .upd, .free, .out, .bell, .mem, .coh, .sec]) (Act.Changes.only ?_) (by decide) s).trans h
  exact changes_cons (changes_prim rfl) (changes_cons ((changes_updNum _).up rfl) (changes_cons ((changes_fetchDrop _).up rfl) (changes_cons ((changes_putsDrop _).up rfl)
    (changes_cons ((changes_updTier _).up rfl) (changes_cons (changes_prim rfl) (changes_cons (changes_ask fun _ => changes_each fun _ => (changes_pageLost _).up rfl)
    (changes_cons ((changes_wipe _ _).up rfl) (changes_cons ((changes_haltsClear _).up rfl) (changes_cons ((changes_predReset _).up rfl) changes_nil)))))))))

/-- Every line of quay is without a cached copy and zero. -/
def QuayZero (s : State) : Prop := ∀ a, isQuay a = true → Cells.look s.coh.dir (a / 64) = none ∧ Cells.get 0 s.mem a = 0

theorem quayZero_of {s t : State} (h : QuayZero s) (hdir : t.coh.dir = s.coh.dir) (hmem : t.mem = s.mem) : QuayZero t := fun a ha => by
  rw [hdir, hmem]
  exact h a ha

theorem QuayZero.readByte {s : State} (h : QuayZero s) {a : Nat} (ha : isQuay a = true) : readByte s a = 0 := by
  obtain ⟨hdir, hmem⟩ := h a ha
  rw [Machine.readByte, cohData_of_dir hdir]
  exact hmem

/-- A line of the range that is wiped is without a copy and zero. -/
theorem wipe_spec {a n x : Nat} (ha : a % 64 = 0) (hn : n % 64 = 0) (hlo : a ≤ x) (hhi : x < a + n) (s : State) :
    Cells.look (run (wipe a n) s).coh.dir (x / 64) = none ∧ Cells.get 0 (run (wipe a n) s).mem x = 0 := by
  have hin : lineOutside a n (x / 64) = false := by
    simp only [lineOutside, Bool.or_eq_false_iff, decide_eq_false_iff_not]
    omega
  have hout : (decide (x < a) || decide (a + n ≤ x)) = false := by simp only [Bool.or_eq_false_iff, decide_eq_false_iff_not]; omega
  rw [wipe, run_all_cons, run_all_cons, run_all_cons, run_all_cons, run_all_nil]
  constructor
  · change Cells.look (s.coh.dir.filter fun e => !(!lineOutside a n e.1)) (x / 64) = none
    rw [Cells.look_filter_key _ fun l => !(!lineOutside a n l), hin]
    rfl
  · change Cells.get 0 (s.mem.filter fun e => decide (e.1 < a) || decide (a + n ≤ e.1)) x = 0
    rw [Cells.get_eq_look, Cells.look_filter_key _ fun l => decide (l < a) || decide (a + n ≤ l), hout]
    rfl

theorem wipe_quayZero : (wipe 0x010000000000 0x300000000).Makes QuayZero := fun s a ha => by
  simp only [isQuay, Bool.and_eq_true, decide_eq_true_eq] at ha
  exact wipe_spec (by decide) (by decide) ha.1 (by omega) s

theorem predReset_dir (l : List Nat) (s : State) : (run (predReset l) s).coh.dir = s.coh.dir := by
  have hhomes : (predReset l).KeepsHomes := (within_each _ _).mpr fun _ _ _ => rfl
  have hdir : (run (predReset l) s).homes.dir = s.homes.dir := congrArg CohSt.dir (hhomes.eq s)
  exact hdir

theorem computeClear_quay : computeClear.Makes QuayZero := by
  unfold computeClear
  generalize tileAgents none = agents
  iterate 13 refine makes_later ?_
  refine makes_here wipe_quayZero fun s h => ?_
  rw [run_all_cons, run_all_cons, run_all_nil]
  refine quayZero_of h ?_ ?_
  · rw [predReset_dir, only_coh (changes_haltsClear _).only (by decide)]
  · rw [only_mem (changes_predReset _).only (by decide), only_mem (changes_haltsClear _).only (by decide)]

/-! The assertion. -/

section
variable (dom cause : Nat) (s : State)

/-- What a reset of a die does beyond the compute part's. -/
def dieAsserted (dom cause : Nat) : Act :=
  Act.all [setDie (dom - 2) 3, Act.each edgeTrain (edgesOf (dom - 2)), .given (fun s => !s.rst.oos && s.chart.cur.isSome) (freeDom 1), hostPath cause]

theorem run_assertCompute : run (assertCompute dom cause) s =
    run (Act.when (decide (2 ≤ dom)) (dieAsserted dom cause)) (run (noteReset dom cause) (run (holdDom dom) (run computeClear s))) := by
  simp only [assertCompute, dieAsserted, run_all_cons, run_all_nil]

/-- What a host-domain reset makes of a state: nothing, a departure that has begun, or one after which the domain is held. -/
theorem hostReset_cases : run (hostReset cause) s = s ∨ run (hostReset cause) s = run (departBegin 512) (run (hostAsked cause) s) ∨
    run (hostReset cause) s = run (assertHost cause) (run (departBegin 512) (run (hostAsked cause) s)) := by
  by_cases h : isHeld s 6 = true ∨ isHeld s 7 = true ∨ s.rst.hostDue ≠ none
  · exact .inl (run_hostReset_joined h cause)
  · simp only [not_or, Bool.not_eq_true, not_not] at h
    obtain ⟨h6, h7, hdue⟩ := h
    rw [run_hostReset h6 h7 hdue]
    cases hgoes : (cohAgent (run (departBegin 512) (run (hostAsked cause) s)) 512).departing with
    | true => exact .inr (.inl (run_hostGo_waits hgoes))
    | false =>
      have hrst := (only_rst (changes_departBegin 512).only (by decide) (run (hostAsked cause) s)).trans (hostAsked_rst cause)
      exact .inr (.inr (run_hostGo_asserts (congrArg RstSt.hostDue hrst) hgoes))

theorem isHeld_departed (d : Nat) : isHeld (run (departBegin 512) (run (hostAsked cause) s)) d = isHeld s d := by
  rw [isHeld_of_changes (changes_departBegin 512) (by decide), isHeld, hostAsked_rst]
  rfl

theorem isHeld_hostReset {d : Nat} (h : isHeld s d = true) : isHeld (run (hostReset cause) s) d = true := by
  rcases hostReset_cases cause s with hr | hr | hr <;> rw [hr]
  · exact h
  · rw [isHeld_departed, h]
  · rw [isHeld_assertHost, isHeld_departed, h, Bool.or_true]

theorem dieState_hostReset {d : Nat} (hd : d < 4) : dieState (run (hostReset cause) s) d = dieState s d := by
  have hdep : dieState (run (departBegin 512) (run (hostAsked cause) s)) d = dieState s d := by
    rw [dieState_of_changes (changes_departBegin 512) (by decide), hostAsked, run_seq, dieState_of_changes (changes_updRst _) (by decide), sparesResetRegs_giveUp.dieState]
  rcases hostReset_cases cause s with hr | hr | hr <;> rw [hr]
  · exact hdep
  · rw [dieState_assertHost cause _ hd, hdep]

theorem isHeld_hostPath {d : Nat} (h : isHeld s d = true) : isHeld (run (hostPath cause) s) d = true := by
  rw [hostPath, run_ask, run_when]
  split
  · exact isHeld_hostReset cause s h
  · exact h

theorem dieState_hostPath {d : Nat} (hd : d < 4) : dieState (run (hostPath cause) s) d = dieState s d := by
  rw [hostPath, run_ask, run_when]
  split
  · exact dieState_hostReset cause s hd
  · rfl

/-- A reset asked for is recorded in no register but where LOST and the assertion stand. -/
theorem hostPath_keeps {q : RegName} (hq : resetRegs.contains q = true) (hstat : q ≠ .RST_STAT) (hmap : q ≠ .ID_DIEMAP) (m n : Nat) : (hostPath cause).KeepsReg q m n :=
  fun _ => (within_when _ _).mpr fun _ _ => (within_when _ _).mpr fun _ => ⟨sparesResetRegs_giveUp.keeps hq m n, fun _ => rfl,
    ((changes_departBegin 512).sparesResetRegs (by decide)).keeps hq m n, fun s => by
      dsimp only
      split
      · exact (within_when _ _).mpr fun _ => ⟨fun _ => rfl, sparesResetRegs_hostClear.keeps hq m n, fun _ => rfl,
          Act.Writes.keeps (l := [.ID_DIEMAP]) (writes_setF (f := dieFld 4) (by decide) _ _ _) (by simpa using hmap) m n,
          (writes_noteReset _ _).keeps (by simpa using hstat) m n, trivial⟩
      · trivial, trivial⟩

theorem assertCompute_keeps {q : RegName} (hq : resetRegs.contains q = true) (hstat : q ≠ .RST_STAT) (hmap : q ≠ .ID_DIEMAP) (m n : Nat) :
    (assertCompute dom cause).KeepsReg q m n :=
  ⟨sparesResetRegs_computeClear.keeps hq m n, fun _ => rfl, (writes_noteReset _ _).keeps (by simpa using hstat) m n, (within_when _ _).mpr fun _ =>
    ⟨Act.Writes.keeps (l := [.ID_DIEMAP]) (writes_setF (f := dieFld (dom - 2)) (by simp [dieFld]) _ _ _) (by simpa using hmap) m n,
      (within_each _ _).mpr fun _ _ => (sparesResetRegs_edgeTrain _).keeps hq m n, fun _ => (within_when _ _).mpr fun _ _ => rfl,
      hostPath_keeps cause hq hstat hmap m n, trivial⟩, trivial⟩

theorem keepsRst_hostPath_due : (hostPath cause).KeepsRst RstSt.due :=
  fun _ => (within_when _ _).mpr fun _ _ => (within_when _ _).mpr fun _ => ⟨keepsRst_of_changes changes_giveUp (by decide), fun _ => rfl,
    keepsRst_of_changes (changes_departBegin 512) (by decide), fun _ => by
      dsimp only
      split
      · exact (within_when _ _).mpr fun _ => keepsRst_assertHost_due _
      · trivial, trivial⟩

theorem keepsRst_assertCompute_due : (assertCompute dom cause).KeepsRst RstSt.due :=
  ⟨keepsRst_of_changes changes_computeClear (by decide), fun _ => rfl, keepsRst_of_changes (changes_noteReset _ _) (by decide), (within_when _ _).mpr fun _ =>
    ⟨keepsRst_of_changes (changes_setDie _ _) (by decide), (within_each _ _).mpr fun _ _ => keepsRst_of_changes (changes_edgeTrain _) (by decide),
      fun _ => (within_when _ _).mpr fun _ _ => rfl, keepsRst_hostPath_due cause, trivial⟩, trivial⟩

theorem isHeld_dieAsserted {d : Nat} (hd : d ≠ 1) (h : isHeld s d = true) : isHeld (run (dieAsserted dom cause) s) d = true := by
  rw [dieAsserted, run_all_cons, run_all_cons, run_all_cons, run_all_cons, run_all_nil]
  refine isHeld_hostPath cause _ ?_
  have hedges : isHeld (run (Act.each edgeTrain (edgesOf (dom - 2))) (run (setDie (dom - 2) 3) s)) d = true := by
    rw [isHeld_of_changes (changes_each fun _ => changes_edgeTrain _) (by decide), isHeld_of_changes (changes_setDie _ _) (by decide), h]
  rw [run_given]
  split
  · rw [isHeld_freeDom, hedges, decide_eq_true hd]
    rfl
  · exact hedges

theorem isHeld_assertCompute : isHeld (run (assertCompute dom cause) s) dom = true := by
  have hheld : isHeld (run (noteReset dom cause) (run (holdDom dom) (run computeClear s))) dom = true := by
    rw [isHeld_of_changes (changes_noteReset _ _) (by decide), isHeld_holdDom, decide_eq_true rfl, Bool.true_or]
  rw [run_assertCompute, run_when]
  split
  case isTrue h => exact isHeld_dieAsserted dom cause _ (by have := of_decide_eq_true h; omega) hheld
  case isFalse => exact hheld

theorem changes_dieAsserted : Act.Changes [.out, .regs, .log, .sec, .tier, .coh, .hural, .cus, .bell, .link, .shd, .rst] (dieAsserted dom cause) :=
  changes_cons ((changes_setDie _ _).up rfl) (changes_cons (changes_each fun _ => (changes_edgeTrain _).up rfl)
    (changes_cons (changes_given ((changes_freeDom _).up rfl)) (changes_cons ((changes_hostPath _).up rfl) changes_nil)))

theorem assertCompute_tiles : (run (assertCompute dom cause) s).tiles = [] := by
  rw [run_assertCompute, only_tiles (changes_when (changes_dieAsserted dom cause)).only (by decide), only_tiles (changes_noteReset _ _).only (by decide),
    only_tiles (changes_holdDom _).only (by decide)]
  exact computeClear_tiles s

theorem dieState_assertCompute {d : Nat} (hd : d < 4) : dieState (run (assertCompute (d + 2) cause) s) d = 3 := by
  rw [run_assertCompute, run_when, if_pos (by simp), dieAsserted, run_all_cons, run_all_cons, run_all_cons, run_all_cons, run_all_nil, dieState_hostPath cause _ hd,
    dieState_of_changes (changes_given (changes_freeDom _)) (by decide), (sparesResetRegs_each sparesResetRegs_edgeTrain).dieState, Nat.add_sub_cancel,
    dieState_setDie (by omega)]

theorem run_assertCompute_part : run (assertCompute 1 cause) s = run (noteReset 1 cause) (run (holdDom 1) (run computeClear s)) := by
  rw [run_assertCompute, run_when, if_neg (by decide)]

theorem quayZero_held {m : State} (h : QuayZero m) : QuayZero (run (noteReset 1 cause) (run (holdDom 1) m)) := by
  have hcoh := only_coh (changes_noteReset 1 cause).only (by decide) (run (holdDom 1) m)
  exact quayZero_of h (congrArg CohSt.dir hcoh) (only_mem (changes_noteReset 1 cause).only (by decide) (run (holdDom 1) m))

/-- The compute part held: RST_STAT names it, and the quay is zero. -/
theorem assertCompute_part (hc : cause < 256) : getF (run (assertCompute 1 cause) s) RST_STAT.DOMAIN = 1 ∧
    getF (run (assertCompute 1 cause) s) RST_STAT.CAUSE = cause ∧ QuayZero (run (assertCompute 1 cause) s) := by
  have hquay : QuayZero (run computeClear s) := computeClear_quay s
  rw [run_assertCompute_part]
  generalize run computeClear s = m at hquay
  obtain ⟨hdom, hcause⟩ := noteReset_spec (dom := 1) (by decide) hc (run (holdDom 1) m)
  exact ⟨hdom, hcause, quayZero_held cause hquay⟩

end

end Sys2Proof.Machine

/-! PROOFS. A reset of the compute part or of a die: what asks for it, the departures it waits for and its assertion (R380 to R383, R389, R390). -/

namespace Sys2Proof.Machine

theorem writes_giveUp : giveUp.Writes [.SHD_STAT, .SHD_EVT] := fun _ => (within_when _ _).mpr fun _ =>
  ⟨writes_of_changes (changes_when (changes_each fun _ => changes_when (changes_sendNote _ _ _))) (by decide), writes_setF (by decide) _ _ _,
    writes_setF (by decide) _ _ _, trivial, writes_evt (by decide) _ _, writes_of_changes (changes_logEv _ _ _ _) (by decide), trivial, trivial⟩

/-! The record of resets (R389). -/

theorem keepsRst_goOut {α : Type} {g : RstSt → α} (h : ∀ r o l, g { r with oos := o, held := l } = g r) : goOut.KeepsRst g := fun _ => (within_when _ _).mpr fun _ =>
  ⟨keepsRst_of_changes changes_giveUp (by decide), fun _ => h _ _ _, keepsRst_of_changes (changes_setF _ _ _ _) (by decide),
    keepsRst_of_changes changes_jobPortsClose (by decide), keepsRst_of_changes (changes_logEv _ _ _ _) (by decide), trivial⟩

theorem keepsRst_recordEvent_due (cause : Nat) : (recordEvent cause).KeepsRst RstSt.due :=
  ⟨fun _ _ => rfl, fun _ => (within_when _ _).mpr fun _ => keepsRst_goOut fun _ _ _ => rfl⟩

theorem keepsRst_crashDump {α : Type} {g : RstSt → α} (h : ∀ r n c t d u, g { r with dumpSeq := n, dumpCause := c, dumpTai := t, dumpTide := d, unread := u } = g r)
    (cause : Nat) : (crashDump cause).KeepsRst g := fun _ => (within_when _ _).mpr fun _ =>
  ⟨fun _ => h _ _ _ _ _ _, fun _ => ⟨(within_each _ _).mpr fun _ _ => keepsRst_of_changes (changes_pkgWrite _ _) (by decide), keepsRst_of_changes (changes_pkgWrite _ _) (by decide),
    keepsRst_of_changes (changes_setF _ _ _ _) (by decide), keepsRst_of_changes (changes_setF _ _ _ _) (by decide),
    keepsRst_of_changes (changes_setF _ _ _ _) (by decide), trivial⟩, trivial⟩

section
variable {s : State}

/-! A due reset is asserted. -/

theorem run_resetGo_asserts {dom cause : Nat} (hdue : s.rst.due = [(dom, cause)]) (h : ((departing s).all fun a => decide (512 ≤ a)) = true) :
    run resetGo s = run (assertCompute dom cause) (run (recordEvent cause) (run (updRst fun r => { r with due := [] }) s)) := by
  rw [resetGo, run_ask, run_when, h, if_pos rfl, run_seq, hdue, run_each_cons, run_each_nil, run_seq]

theorem run_resetGo_waits (h : ((departing s).all fun a => decide (512 ≤ a)) = false) : run resetGo s = s := by
  rw [resetGo, run_ask, run_when, h, if_neg Bool.false_ne_true]

theorem resetGo_asserted {dom cause : Nat} (hdue : s.rst.due = [(dom, cause)]) (h : ((departing s).all fun a => decide (512 ≤ a)) = true) :
    (run resetGo s).rst.due = [] ∧ isHeld (run resetGo s) dom = true ∧ (run resetGo s).tiles = [] := by
  rw [run_resetGo_asserts hdue h, (keepsRst_assertCompute_due dom cause).eq, (keepsRst_recordEvent_due cause).eq]
  exact ⟨rfl, isHeld_assertCompute dom cause _, assertCompute_tiles dom cause _⟩

/-! A reset that is asked for. -/

/-- LOST, the dump and the reset that is due, before anything departs. -/
def computeAsked (dom cause : Nat) : Act := Act.all [giveUp, crashDump cause, updRst fun r => { r with due := [(dom, cause)] }]

variable (dom cause : Nat)

theorem changes_computeAsked : Act.Changes [.out, .regs, .log, .hural, .shd, .mem, .tier, .coh, .rst] (computeAsked dom cause) :=
  changes_cons (changes_giveUp.up rfl) (changes_cons ((changes_crashDump _).up rfl) (changes_cons ((changes_updRst _).up rfl) changes_nil))

theorem run_computeAsked : run (computeAsked dom cause) s = run (updRst fun r => { r with due := [(dom, cause)] }) (run (crashDump cause) (run giveUp s)) := by
  rw [computeAsked, run_all_cons, run_all_cons, run_all_cons, run_all_nil]

theorem computeAsked_due : (run (computeAsked dom cause) s).rst.due = [(dom, cause)] := by
  rw [run_computeAsked]
  rfl

theorem computeAsked_held : (run (computeAsked dom cause) s).rst.held = s.rst.held := by
  have hrst : (computeAsked dom cause).KeepsRst RstSt.held :=
    ⟨keepsRst_of_changes changes_giveUp (by decide), keepsRst_crashDump (fun _ _ _ _ _ _ => rfl) cause, fun _ => rfl, trivial⟩
  exact hrst.eq s

theorem cohKeeps_computeAsked {I : CohSt → Prop} (h : ∀ c p, I c → I (c.forget p)) : (computeAsked dom cause).CohKeeps I :=
  ⟨cohKeeps_of_changes changes_giveUp (by decide), cohKeeps_crashDump h cause, trivial, trivial⟩

theorem departing_computeAsked : departing (run (computeAsked dom cause) s) = departing s :=
  (cohKeeps_computeAsked (I := fun c => c.departing = s.coh.departing) dom cause fun c p h => (departing_forget c p).trans h).run (s := s) rfl

theorem agentCaches_computeAsked (a : Nat) : agentCaches (run (computeAsked dom cause) s) a = agentCaches s a :=
  agentCaches_congr (only_chart (changes_computeAsked dom cause).only (by decide) s) a

theorem gone_computeAsked {a : Nat} (h : Gone s a) : Gone (run (computeAsked dom cause) s) a := by
  rw [Gone, agentCaches_computeAsked]
  exact h.imp_right fun hgone => (cohKeeps_computeAsked (I := fun c => (Cells.get {} c.agents a).departed = true ∨ (Cells.get {} c.agents a).dead = true) dom cause
    fun _ p h => agent_forget_gone p h).run (s := s) hgone

/-- Without a dump the agents are as they were. -/
theorem cohAgent_computeAsked (hdump : getB s RST_CFG.DUMP = false) (a : Nat) : cohAgent (run (computeAsked dom cause) s) a = cohAgent s a := by
  have hwrites : getB (run giveUp s) RST_CFG.DUMP = false := by
    rw [writes_giveUp.getB (by decide), hdump]
  have hno : run (crashDump cause) (run giveUp s) = run giveUp s := by
    rw [crashDump, run_ask, run_when, hwrites, Bool.false_and, if_neg Bool.false_ne_true]
  rw [run_computeAsked, hno]
  exact cohAgent_congr (only_coh changes_giveUp.only (by decide) s) a

theorem stays_computeAsked {a : Nat} (h : Stays s a) (hdump : getB s RST_CFG.DUMP = false ∨ (cohAgent s a).pend ≠ []) : Stays (run (computeAsked dom cause) s) a := by
  obtain ⟨hcaches, hdep, hdead⟩ := h
  rw [Stays, agentCaches_computeAsked]
  refine ⟨hcaches, ?_⟩
  rcases hdump with hdump | hpend
  · rw [cohAgent_computeAsked dom cause hdump]
    exact ⟨hdep, hdead⟩
  · obtain ⟨hdep', hdead', -⟩ := (cohKeeps_computeAsked (I := CohSt.Busy a) dom cause fun _ p h => busy_forget p h).run (s := s) ⟨hdep, hdead, hpend⟩
    exact ⟨hdep', hdead'⟩

variable {dom cause}

/-- A request that no reset in progress or due takes up. -/
theorem run_computeReset (h7 : isHeld s 7 = false) (hdom : isHeld s dom = false) (hdie : dom = 1 → dieHeld s = false) (h1 : (isHeld s 1 && !s.rst.oos) = false)
    (hdue : s.rst.due = []) : run (computeReset dom cause) s = run resetGo (run (Act.each departBegin (tileAgents none)) (run (computeAsked dom cause) s)) := by
  have hskip : (isHeld s 7 || isHeld s dom || (decide (dom = 1) && dieHeld s)) = false := by
    rw [h7, hdom, Bool.false_or, Bool.false_or, Bool.and_eq_false_iff]
    by_cases hd : dom = 1
    · exact .inr (hdie hd)
    · exact .inl (decide_eq_false hd)
  rw [computeReset, run_ask, hskip, h1, hdue]
  generalize tileAgents none = agents
  simp only [Bool.false_eq_true, if_false, List.isEmpty_nil, Bool.not_true, run_all_cons, run_all_nil, computeAsked]

theorem run_computeReset_joined (h : isHeld s 7 = true ∨ isHeld s dom = true ∨ dom = 1 ∧ dieHeld s = true) : run (computeReset dom cause) s = s := by
  have hskip : (isHeld s 7 || isHeld s dom || (decide (dom = 1) && dieHeld s)) = true := by
    rcases h with h | h | ⟨rfl, h⟩ <;> simp [h]
  rw [computeReset, run_ask, hskip, if_pos rfl]
  rfl

theorem run_computeReset_widens (h7 : isHeld s 7 = false) (hdom : isHeld s dom = false) (hne : dom ≠ 1) (h1 : (isHeld s 1 && !s.rst.oos) = true) :
    run (computeReset dom cause) s = run (assertCompute dom cause) s := by
  rw [computeReset, run_ask, h7, hdom, h1, decide_eq_false hne, Bool.false_and, Bool.or_self, Bool.or_self, if_neg Bool.false_ne_true, if_pos rfl]

theorem run_computeReset_due (h7 : isHeld s 7 = false) (hdom : isHeld s dom = false) (hdie : dom = 1 → dieHeld s = false) (h1 : (isHeld s 1 && !s.rst.oos) = false)
    (hdue : s.rst.due ≠ []) : run (computeReset dom cause) s = run (updRst fun r => { r with due := dueJoin r.due dom cause }) s := by
  have hskip : (isHeld s 7 || isHeld s dom || (decide (dom = 1) && dieHeld s)) = false := by
    rw [h7, hdom, Bool.false_or, Bool.false_or, Bool.and_eq_false_iff]
    by_cases hd : dom = 1
    · exact .inr (hdie hd)
    · exact .inl (decide_eq_false hd)
  rw [computeReset, run_ask, hskip, h1, if_neg Bool.false_ne_true, if_neg Bool.false_ne_true, if_pos (by simpa using hdue)]

/-- Without an agent that must depart the request is asserted at once. -/
theorem run_computeReset_now (h7 : isHeld s 7 = false) (hdom : isHeld s dom = false) (hdie : dom = 1 → dieHeld s = false) (h1 : (isHeld s 1 && !s.rst.oos) = false)
    (hdue : s.rst.due = []) (hdep : ((departing s).all fun a => decide (512 ≤ a)) = true) (hgone : ∀ a, a < 512 → Gone s a) :
    run (computeReset dom cause) s = run (assertCompute dom cause) (run (recordEvent cause) (run (updRst fun r => { r with due := [] }) (run (computeAsked dom cause) s))) := by
  have hagents : ∀ a ∈ tileAgents none, Gone (run (computeAsked dom cause) s) a := fun a ha => gone_computeAsked dom cause (hgone a (List.mem_range.mp ha))
  rw [run_computeReset h7 hdom hdie h1 hdue, departAll_gone hagents, run_resetGo_asserts (computeAsked_due dom cause) (by rwa [departing_computeAsked])]

/-- An agent that must depart delays the assertion. -/
theorem run_computeReset_later (h7 : isHeld s 7 = false) (hdom : isHeld s dom = false) (hdie : dom = 1 → dieHeld s = false) (h1 : (isHeld s 1 && !s.rst.oos) = false)
    (hdue : s.rst.due = []) {a : Nat} (ha : a < 512) (hstays : Stays s a) (hdump : getB s RST_CFG.DUMP = false ∨ (cohAgent s a).pend ≠ []) :
    run (computeReset dom cause) s = run (Act.each departBegin (tileAgents none)) (run (computeAsked dom cause) s) := by
  have hmem : a ∈ tileAgents none := List.mem_range.mpr ha
  rw [run_computeReset h7 hdom hdie h1 hdue]
  generalize tileAgents none = agents at hmem
  have hgoes := mem_departing (departAll_departing hmem (stays_computeAsked dom cause hstays hdump))
  refine run_resetGo_waits (List.all_eq_false.mpr ⟨a, hgoes, ?_⟩)
  simpa using ha

/-- Beyond RST_STAT and ID_DIEMAP a request leaves the registers of resets. -/
theorem computeReset_keeps {q : RegName} (hq : resetRegs.contains q = true) (hstat : q ≠ .RST_STAT) (hmap : q ≠ .ID_DIEMAP) (m n : Nat) :
    (computeReset dom cause).KeepsReg q m n := by
  intro s
  dsimp only
  split
  · trivial
  split
  · exact assertCompute_keeps dom cause hq hstat hmap m n
  split
  · exact fun _ => rfl
  generalize tileAgents none = agents
  exact ⟨sparesResetRegs_giveUp.keeps hq m n, (sparesResetRegs_crashDump cause).keeps hq m n, fun _ => rfl,
    (within_each _ _).mpr fun _ _ => ((changes_departBegin _).sparesResetRegs (by decide)).keeps hq m n,
    fun _ => (within_when _ _).mpr fun _ => ⟨fun _ => rfl, (within_each _ _).mpr fun _ _ => ⟨(sparesResetRegs_recordEvent _).keeps hq m n, assertCompute_keeps _ _ hq hstat hmap m n⟩⟩, trivial⟩

end

end Sys2Proof.Machine

/-! PROOFS. A whole-package reset: what it keeps and what it shows (Table 18-1). -/

namespace Sys2Proof.Machine

/-- What a whole-package reset keeps: the warehouse's bytes, the record of resets, out of service, and the owner's key digest. -/
def packageKept (s : State) : (Nat → Byte) × List (Nat × Nat) × Bool × Option (List Byte) :=
  (fun a => if a < 2 ^ 40 then Cells.get 0 s.mem a else 0, s.rst.events, s.rst.oos, s.sec.ownerHash)

abbrev Act.KeepsPackage (a : Act) : Prop := a.Within fun p => ∀ s, packageKept (p.apply s) = packageKept s

theorem keepsPackage_of_changes {k : List Part} {a : Act} (h : a.Changes k) (hmem : Part.mem ∉ k) (hrst : Part.rst ∉ k) (hsec : Part.sec ∉ k) : a.KeepsPackage :=
  Act.Within.mono (fun p hp s => by
    have hp : Act.Only k (.prim p) := hp
    change packageKept (run (.prim p) s) = packageKept s
    rw [packageKept, only_mem hp hmem, only_rst hp hrst, only_sec hp hsec]
    rfl) h.only

theorem keepsPackage_sessionEnd (p reason : Nat) : (sessionEnd p reason).KeepsPackage :=
  fun _ => (within_when _ _).mpr fun _ => ⟨keepsPackage_of_changes (changes_setF _ _ _ _) (by decide) (by decide) (by decide),
    keepsPackage_of_changes (changes_setF _ _ _ _) (by decide) (by decide) (by decide),
    fun s => by
      rw [packageKept, Prim.sec_sec]
      split <;> rfl,
    keepsPackage_of_changes (changes_evt _ _ _) (by decide) (by decide) (by decide), keepsPackage_of_changes (changes_logEv _ _ _ _) (by decide) (by decide) (by decide), trivial⟩

theorem keepsPackage_packageClear (chart : Bool) : (packageClear true chart).KeepsPackage := by
  refine ⟨(within_when _ _).mpr fun _ => keepsPackage_sessionEnd 0 5, keepsPackage_sessionEnd 1 5, fun s => ?regs, ?mem, ?rest⟩
  case regs =>
    exact keepsPackage_of_changes (k := [.regs]) (changes_cons (changes_prim rfl) (changes_cons (changes_each fun _ => changes_seq (changes_setF _ _ _ _) (changes_setF _ _ _ _))
      (changes_cons (changes_when (changes_cons (changes_setF _ _ _ _) (changes_cons (changes_setF _ _ _ _) (changes_cons (changes_each fun _ => changes_setF _ _ _ _)
        (changes_cons (changes_setF _ _ _ _) (changes_cons (changes_prim rfl) (changes_cons (changes_noteReset _ _) changes_nil))))))) changes_nil)))
      (by decide) (by decide) (by decide)
  case mem =>
    intro s
    refine Prod.ext (funext fun a => ?_) rfl
    dsimp only [packageKept]
    split
    case isTrue ha =>
      change Cells.get 0 (s.mem.filter fun e => decide (e.1 < 2 ^ 40) || decide (2 ^ 40 + 2 ^ 48 ≤ e.1)) a = _
      rw [Cells.get_eq_look, Cells.look_filter_key _ fun l => decide (l < 2 ^ 40) || decide (2 ^ 40 + 2 ^ 48 ≤ l), decide_eq_true ha, Bool.true_or, if_pos rfl, Cells.get_eq_look]
    case isFalse => rfl
  case rest =>
    exact ⟨fun _ => rfl, fun _ _ => rfl, fun _ => rfl, fun _ => rfl, fun _ => rfl, fun _ => rfl, fun _ => rfl, fun _ => rfl, fun _ => rfl, fun _ => rfl,
      fun _ => rfl, fun _ => rfl, fun _ => rfl, fun _ => rfl, fun _ _ => rfl, fun _ => rfl, fun _ => rfl, fun _ => rfl, fun _ => rfl, trivial⟩

theorem keepsPackage_packageReset (cause : Nat) : (packageReset cause).KeepsPackage := fun _ => (within_when _ _).mpr fun _ =>
  ⟨keepsPackage_of_changes changes_closeFloods (by decide) (by decide) (by decide), keepsPackage_of_changes changes_flushLog (by decide) (by decide) (by decide),
    keepsPackage_of_changes changes_flashCut (by decide) (by decide) (by decide), keepsPackage_packageClear false, fun _ => rfl,
    keepsPackage_of_changes (changes_noteReset _ _) (by decide) (by decide) (by decide), trivial⟩

theorem packageReset_kept (cause : Nat) (s : State) : packageKept (run (packageReset cause) s) = packageKept s := run_same packageKept (keepsPackage_packageReset cause) s

theorem mem_of_packageKept {s t : State} (h : packageKept t = packageKept s) {a : Nat} (ha : a < 2 ^ 40) : Cells.get 0 t.mem a = Cells.get 0 s.mem a := by
  have hmem := congrFun (congrArg Prod.fst h) a
  simpa only [packageKept, if_pos ha] using hmem

/-- Every die reads as held, and RST_STAT names the package. -/
theorem packageReset_shown {s : State} (h : isHeld s 7 = false) {cause : Nat} (hc : cause < 256) :
    getReg (run (packageReset cause) s) .ID_DIEMAP 0 0 = 0xFFF ∧ getF (run (packageReset cause) s) RST_STAT.CAUSE = cause := by
  rw [run_packageReset h]
  refine ⟨?_, (noteReset_spec (by decide) hc _).2⟩
  rw [(writes_noteReset _ _).getReg (by decide), run_prim, getReg_apply_reg_same _ _ _ _ (by decide)]
  decide

theorem run_packageReset_joined {s : State} (h : isHeld s 7 = true) (cause : Nat) : run (packageReset cause) s = s := by
  rw [packageReset, run_ask, run_when, h, if_neg (by decide)]

end Sys2Proof.Machine

/-! PROOFS. Releases of reset, watchdog trips, dump reads that do not return and clocks that do not lock (R379, R384, R386, R393). -/

namespace Sys2Proof.Machine

/-! RST_TRIP holds a bit per unit; its last word has four of them. -/

theorem tripMask_bit {u : Nat} (hu : u < 516) : (regMask .RST_TRIP (u / 64) 0).toNat.testBit (u % 64) = true := by
  by_cases hlast : u / 64 = 8
  · rw [hlast, show (regMask .RST_TRIP 8 0).toNat = 2 ^ 4 - 1 from by decide, Nat.testBit_two_pow_sub_one, decide_eq_true_eq]
    omega
  · have hfull : ∀ i, i < 8 → (regMask .RST_TRIP i 0).toNat = 2 ^ 64 - 1 := by decide
    rw [hfull _ (by omega), Nat.testBit_two_pow_sub_one, decide_eq_true_eq]
    omega

/-- The bit of a unit after the bit of another, or of the same, is set. -/
theorem hasTripped_setBitF {u v : Nat} (hu : u < 516) (hv : v < 516) (s : State) :
    hasTripped (run (setBitF RST_TRIP.UNIT (v % 64) true (v / 64)) s) u = (decide (u = v) || hasTripped s u) := by
  simp only [hasTripped, bitOf, getF, setBitF, modF, run_ask, run_prim, testBit_bitsOf]
  rw [getReg_apply_reg]
  split
  case isTrue hk =>
    obtain ⟨-, hidx, -⟩ := (regKey_eq_iff _ _ _ _ _ _).mp hk
    have hword : v / 64 = u / 64 := by omega
    have hmask := tripMask_bit hu
    simp only [show RST_TRIP.UNIT.reg = .RST_TRIP from rfl, show RST_TRIP.UNIT.lo = 0 from rfl, show RST_TRIP.UNIT.width = 64 from rfl, Nat.zero_add, withF]
    rw [if_neg (by decide), BitVec.toNat_and, Nat.testBit_and, hword, hmask, BitVec.toNat_ofNat, Nat.testBit_mod_two_pow, testBit_putBits]
    have hlt : u % 64 < 64 := Nat.mod_lt _ (by decide)
    simp only [hlt, decide_true, Bool.true_and, Bool.and_true, Nat.zero_le, Nat.zero_add, if_true, true_and, Nat.sub_zero]
    rw [testBit_putBits, testBit_bitsOf, decide_eq_true hlt, Bool.true_and, Nat.zero_add]
    by_cases huv : u = v
    · subst huv
      rw [if_pos ⟨Nat.le_refl _, Nat.lt_succ_self _⟩, Nat.sub_self, decide_eq_true rfl, Bool.true_or]
      rfl
    · rw [if_neg (by omega), decide_eq_false huv, Bool.false_or]
  case isFalse hk =>
    have huv : u ≠ v := fun h => hk (by rw [h])
    rw [decide_eq_false huv, Bool.false_or]

/-! A watchdog trips (R386). -/

/-- A unit that trips freezes its snapshot, takes its bit and is logged. -/
def unitTrips (v : Nat) : Act := Act.all [freeze v, setBitF RST_TRIP.UNIT (v % 64) true (v / 64), logEv .watchdogTrip (if v < 512 then v / 128 else 0xFF) v]

/-- The units that trip with one at a boundary. -/
def tripsWith (s : State) (u : Nat) : List Nat := u :: (List.range 516).filter fun v => decide (v ≠ u) && trips s v

theorem run_watchdogTrip {s : State} {u : Nat} (h : trips s u = true) : run (watchdogTrip u) s =
    run (Act.when (!getB s RST_CFG.NORESET) (computeReset 1 2)) (run (Act.each unitTrips (tripsWith s u)) s) := by
  rw [watchdogTrip, run_ask, run_when, h, if_pos rfl, run_all_cons, run_all_cons, run_all_nil]
  rfl

theorem changes_unitTrips (v : Nat) : Act.Changes [.rst, .regs, .log] (unitTrips v) :=
  changes_cons ((changes_freeze _).up rfl) (changes_cons ((changes_setBitF _ _ _ _ _).up rfl) (changes_cons ((changes_logEv _ _ _ _).up rfl) changes_nil))

theorem keepsRst_unitTrips {α : Type} {g : RstSt → α} (h : ∀ r f, g { r with frozen := f } = g r) (v : Nat) : (unitTrips v).KeepsRst g :=
  ⟨fun _ => (within_when _ _).mpr fun _ _ => h _ _, keepsRst_of_changes (changes_setBitF _ _ _ _ _) (by decide), keepsRst_of_changes (changes_logEv _ _ _ _) (by decide), trivial⟩

theorem hasTripped_unitTrips {u v : Nat} (hu : u < 516) (hv : v < 516) (s : State) : hasTripped (run (unitTrips v) s) u = (decide (u = v) || hasTripped s u) := by
  have hlog : ∀ t k, getReg (run (logEv .watchdogTrip (if v < 512 then v / 128 else 0xFF) v) t) .RST_TRIP k 0 = getReg t .RST_TRIP k 0 := fun t k => by
    rw [getReg, getReg, only_regs (changes_logEv _ _ _ _).only (by decide)]
  have hfreeze : ∀ k, getReg (run (freeze v) s) .RST_TRIP k 0 = getReg s .RST_TRIP k 0 := fun k => by
    rw [getReg, getReg, only_regs (changes_freeze _).only (by decide)]
  have htripped : ∀ {t t' : State}, getReg t' .RST_TRIP (u / 64) 0 = getReg t .RST_TRIP (u / 64) 0 → hasTripped t' u = hasTripped t u := fun h => by
    rw [hasTripped, hasTripped, getF_of_getReg h]
  rw [unitTrips, run_all_cons, run_all_cons, run_all_cons, run_all_nil, htripped (hlog _ _), hasTripped_setBitF hu hv, htripped (hfreeze _)]

theorem hasTripped_each {u : Nat} (hu : u < 516) {l : List Nat} (hl : ∀ v ∈ l, v < 516) (h : u ∈ l) (s : State) : hasTripped (run (Act.each unitTrips l) s) u = true := by
  have hkeep : ∀ {l : List Nat}, (∀ v ∈ l, v < 516) → ∀ {t : State}, hasTripped t u = true → hasTripped (run (Act.each unitTrips l) t) u = true := by
    intro l
    induction l with
    | nil => exact fun _ _ ht => ht
    | cons v l ih =>
      intro hl t ht
      refine ih (fun w hw => hl w (List.mem_cons_of_mem _ hw)) ?_
      rw [hasTripped_unitTrips hu (hl v List.mem_cons_self), ht, Bool.or_true]
  induction l generalizing s with
  | nil => exact absurd h List.not_mem_nil
  | cons v l ih =>
    have hrest := fun w hw => hl w (List.mem_cons_of_mem v hw)
    rcases List.mem_cons.mp h with rfl | hmem
    · refine hkeep hrest ?_
      rw [hasTripped_unitTrips hu hu, decide_eq_true rfl, Bool.true_or]
    · exact ih hrest hmem _

theorem tripsWith_lt {s : State} {u : Nat} (hu : u < 516) : ∀ v ∈ tripsWith s u, v < 516 := fun v hv => by
  rcases List.mem_cons.mp hv with rfl | hmem
  · exact hu
  · exact List.mem_range.mp (List.mem_filter.mp hmem).1

/-! Releases (R379). -/

/-- A die that trains anew with what returns to the domain. -/
theorem writes_edgesTrain (l : List Nat) : (Act.each edgeTrain l).Writes [.D2D_EDGE] := (within_each _ _).mpr fun _ _ =>
  ⟨writes_setF (by decide) _ _ _, writes_setF (by decide) _ _ _, writes_setF (by decide) _ _ _, writes_setF (by decide) _ _ _, writes_setF (by decide) _ _ _,
    trivial, fun _ => trivial, trivial⟩

theorem writes_reformed : reformed.Writes [.COH_STAT2] := fun _ => (within_when _ _).mpr fun _ => writes_setF (by decide) _ _ _

theorem writes_toTest : toTest.Writes [.COH_STAT] := fun _ =>
  ⟨writes_of_changes (changes_each fun _ => changes_writeBack _ _) (by decide), trivial, writes_of_changes (changes_each fun _ => changes_updCoh _) (by decide),
    writes_setF (by decide) _ _ _, trivial⟩

theorem toTest_mode (s : State) : getF (run toTest s) COH_STAT.MODE = 0 := by
  rw [toTest, run_ask, run_all_cons, run_all_cons, run_all_cons, run_all_cons, run_all_nil, getF_setF_fits (by decide)]
  rfl

section
variable {s : State} {d : Nat}

/-- What follows the release of a die. -/
def dieReleased (d : Nat) : Act :=
  Act.all [updRst fun r => { r with clkLost := r.clkLost.filter fun k => k ≠ d }, setDie (d - 2) 0,
    updEn fun e => if e.dark = some (d - 2) then { e with dark := none, darkDue := false, waking := none } else e, Act.each edgeTrain (edgesOf (d - 2)), agentsReturn, reformed]

/-- What follows the release of the host domain. -/
def hostReleased : Act :=
  Act.all [setDie 4 0, updRst fun r => { r with clkLost := r.clkLost.filter fun k => k ≠ 14 && k ≠ 15 }, Act.each edgeTrain (edgesOf 4), hostReturns, reformed]

theorem run_resetRelease_free (h : isHeld s d = false) : run (resetRelease d) s = s := by
  rw [resetRelease, run_ask, h]
  rfl

theorem run_resetRelease_die (h : isHeld s d = true) (hlo : 2 ≤ d) (hhi : d ≤ 5) : run (resetRelease d) s = run (dieReleased d) (run (freeDom d) s) := by
  rw [resetRelease, run_ask, h, if_neg (by decide), if_neg (by omega), decide_eq_true hlo, decide_eq_true hhi, Bool.and_self, if_pos rfl, run_all_cons]
  rfl

theorem run_resetRelease_compute (h : isHeld s 1 = true)
    (hup : (!s.rst.oos && !dieHeld s && s.chart.cur.isSome && !s.pow.hmFail && !s.pow.hostFail && !s.pow.boot) = true) :
    run (resetRelease 1) s = run (Act.all [agentsReturn, reformed]) (run (freeDom 1) s) := by
  rw [resetRelease, run_ask, h, if_neg (by decide), if_pos rfl, run_when, hup, if_pos rfl, run_all_cons]

theorem run_resetRelease_host (h : isHeld s 6 = true) (hup : (!(dieDown s 0 && dieDown s 1) && !s.pow.hmFail && !s.pow.hostFail && !s.pow.boot) = true) :
    run (resetRelease 6) s = run hostReleased (run (freeDom 6) s) := by
  rw [resetRelease, run_ask, h, if_neg (by decide), if_neg (by decide), if_neg (by decide), if_pos rfl, run_when, hup, if_pos rfl, run_all_cons]
  rfl

theorem run_resetRelease_package (h : isHeld s 7 = true) (hup : (s.pow.rails && !s.pow.resetN && s.pow.refclk) = true) :
    run (resetRelease 7) s = run (Act.all [updRst fun r => { r with held := [1, 6], clkLost := [] }, .prim (.reg .ID_DIEMAP 0 0 0x300), .prim (.pow fun p => { p with boot := true })]) s := by
  rw [resetRelease, run_ask, h, if_neg (by decide), if_neg (by decide), if_neg (by decide), if_neg (by decide), if_pos rfl, run_when, hup, if_pos rfl]

theorem run_resetRelease_package_stays (h : isHeld s 7 = true) (hdown : (s.pow.rails && !s.pow.resetN && s.pow.refclk) = false) : run (resetRelease 7) s = s := by
  rw [resetRelease, run_ask, h, if_neg (by decide), if_neg (by decide), if_neg (by decide), if_neg (by decide), if_pos rfl, run_when, hdown, if_neg Bool.false_ne_true]

theorem isHeld_freeDom_same : isHeld (run (freeDom d) s) d = false := by
  rw [isHeld_freeDom, decide_eq_false (fun h => h rfl), Bool.and_false]

theorem dieReleased_spec (hlo : 2 ≤ d) (hhi : d ≤ 5) : isHeld (run (dieReleased d) (run (freeDom d) s)) d = false ∧
    dieState (run (dieReleased d) (run (freeDom d) s)) (d - 2) = 0 ∧ (run (dieReleased d) (run (freeDom d) s)).mem = s.mem := by
  have hchanges : Act.Changes [.rst, .regs, .en, .link, .coh] (dieReleased d) :=
    changes_cons ((changes_updRst _).up rfl) (changes_cons ((changes_setDie _ _).up rfl) (changes_cons ((changes_updEn _).up rfl)
      (changes_cons (changes_each fun _ => (changes_edgeTrain _).up rfl) (changes_cons (changes_agentsReturn.up rfl) (changes_cons (changes_reformed.up rfl) changes_nil)))))
  refine ⟨?_, ?_, by rw [only_mem hchanges.only (by decide), only_mem (changes_freeDom _).only (by decide)]⟩
  · rw [dieReleased]
    simp only [run_all_cons, run_all_nil]
    rw [isHeld_of_changes changes_reformed (by decide), isHeld_of_changes changes_agentsReturn (by decide), isHeld_of_changes (changes_each fun _ => changes_edgeTrain _) (by decide),
      isHeld_of_changes (changes_updEn _) (by decide), isHeld_of_changes (changes_setDie _ _) (by decide)]
    exact isHeld_freeDom_same
  · rw [dieReleased]
    simp only [run_all_cons, run_all_nil]
    rw [dieState_of_diemap (writes_reformed.getReg (by decide) _ _ _), dieState_of_changes changes_agentsReturn (by decide),
      dieState_of_diemap ((writes_edgesTrain _).getReg (by decide) _ _ _), dieState_of_changes (changes_updEn _) (by decide), dieState_setDie (by omega)]

theorem hostReturns_cases (s : State) : (homesStop s = false ∧ ownedProtocol s = true ∧ run hostReturns s = run toTest (run (.given (fun s => mayRejoin s 512) (rejoin 512)) s)) ∨
    ((homesStop s = true ∨ ownedProtocol s = false) ∧ run hostReturns s = run (.given (fun s => mayRejoin s 512) (rejoin 512)) s) := by
  have hregs := fun f => (changes_given (c := fun s => mayRejoin s 512) (changes_rejoin 512)).getF (by decide) f 0 0 s
  have hstop : homesStop (run (.given (fun s => mayRejoin s 512) (rejoin 512)) s) = homesStop s := by rw [homesStop, homesStop, hregs]
  have howned : ownedProtocol (run (.given (fun s => mayRejoin s 512) (rejoin 512)) s) = ownedProtocol s := by rw [ownedProtocol, ownedProtocol, getB, getB, hregs]
  rw [hostReturns, run_all_cons, run_all_cons, run_all_nil, run_given _ toTest, hstop, howned]
  cases hs : homesStop s with
  | true => exact .inr ⟨.inl rfl, rfl⟩
  | false =>
    cases ho : ownedProtocol s with
    | true => exact .inl ⟨rfl, rfl, rfl⟩
    | false => exact .inr ⟨.inr rfl, rfl⟩

theorem mode_of_not_owned (h : ownedProtocol s = false) : getF s COH_STAT.MODE = 0 := by
  have hlt : getF s COH_STAT.MODE < 2 ^ 1 := bitsOf_lt _ _ _
  have hne : getF s COH_STAT.MODE ≠ 1 := of_decide_eq_false h
  omega

theorem hostReturns_mode (h : homesStop s = false) : getF (run hostReturns s) COH_STAT.MODE = 0 := by
  rcases hostReturns_cases s with ⟨-, -, hrun⟩ | ⟨hno, hrun⟩ <;> rw [hrun]
  · exact toTest_mode _
  · have howned := hno.resolve_left (by rw [h]; exact Bool.false_ne_true)
    rw [getF, getReg, only_regs (changes_given (changes_rejoin 512)).only (by decide)]
    exact mode_of_not_owned howned

theorem hostReturns_mem (h : ownedProtocol s = false) : (run hostReturns s).mem = s.mem := by
  rcases hostReturns_cases s with ⟨-, ho, -⟩ | ⟨-, hrun⟩
  · rw [h] at ho
    exact absurd ho Bool.false_ne_true
  · rw [hrun, only_mem (changes_given (changes_rejoin 512)).only (by decide)]

theorem writes_hostReturns : hostReturns.Writes [.COH_STAT] :=
  ⟨writes_of_changes (changes_given (changes_rejoin 512)) (by decide), fun _ => (within_when _ _).mpr fun _ => writes_toTest, trivial⟩

/-- The host domain before its agent returns. -/
def hostTrains : Act := Act.all [freeDom 6, setDie 4 0, updRst fun r => { r with clkLost := r.clkLost.filter fun k => k ≠ 14 && k ≠ 15 }, Act.each edgeTrain (edgesOf 4)]

theorem writes_hostTrains : hostTrains.Writes [.ID_DIEMAP, .D2D_EDGE] :=
  ⟨trivial, writes_setF (f := dieFld 4) (by decide) _ _ _, trivial, (writes_edgesTrain _).mono (by decide), trivial⟩

theorem changes_hostTrains : Act.Changes [.rst, .regs, .link] hostTrains :=
  changes_cons ((changes_freeDom _).up rfl) (changes_cons ((changes_setDie _ _).up rfl) (changes_cons ((changes_updRst _).up rfl)
    (changes_cons (changes_each fun _ => (changes_edgeTrain _).up rfl) changes_nil)))

theorem run_hostReleased : run hostReleased (run (freeDom 6) s) = run reformed (run hostReturns (run hostTrains s)) := by
  simp only [hostReleased, hostTrains, run_all_cons, run_all_nil]

theorem hostReleased_spec : isHeld (run reformed (run hostReturns (run hostTrains s))) 6 = false ∧ dieState (run reformed (run hostReturns (run hostTrains s))) 4 = 0 ∧
    (homesStop s = false → getF (run reformed (run hostReturns (run hostTrains s))) COH_STAT.MODE = 0) ∧
    (ownedProtocol s = false → (run reformed (run hostReturns (run hostTrains s))).mem = s.mem) := by
  refine ⟨?_, ?_, fun h => ?_, fun h => ?_⟩
  · have hedges : isHeld (run hostTrains s) 6 = false := by
      rw [hostTrains, run_all_cons, run_all_cons, run_all_cons, run_all_cons, run_all_nil, isHeld_of_changes (changes_each fun _ => changes_edgeTrain _) (by decide)]
      refine (isHeld_of_rst rfl 6).trans ((isHeld_of_changes (changes_setDie 4 0) (by decide) _ 6).trans isHeld_freeDom_same)
    rw [isHeld_of_changes changes_reformed (by decide), isHeld_of_changes (changes_hostReturns) (by decide), hedges]
  · rw [dieState_of_diemap (writes_reformed.getReg (by decide) _ _ _), dieState_of_diemap (writes_hostReturns.getReg (by decide) _ _ _), hostTrains,
      run_all_cons, run_all_cons, run_all_cons, run_all_cons, run_all_nil, dieState_of_diemap ((writes_edgesTrain _).getReg (by decide) _ _ _),
      dieState_of_changes (changes_updRst _) (by decide), dieState_setDie (by decide)]
  · rw [writes_reformed.getF (by decide), hostReturns_mode]
    rw [homesStop, writes_hostTrains.getF (by decide)]
    exact h
  · rw [only_mem changes_reformed.only (by decide), hostReturns_mem, only_mem changes_hostTrains.only (by decide)]
    rw [ownedProtocol, writes_hostTrains.getB (by decide)]
    exact h

/-! Clocks that do not lock (R384). -/

theorem goOut_oos (s : State) : (run goOut s).rst.oos = true ∧ (isHeld s d = false → d ≠ 1 → isHeld (run goOut s) d = false) := by
  rw [goOut, run_ask, run_when]
  split
  case isTrue =>
    rw [run_all_cons, run_all_cons, run_all_cons, run_all_cons, run_all_cons, run_all_nil, only_rst (changes_logEv _ _ _ _).only (by decide), isHeld_of_changes (changes_logEv _ _ _ _) (by decide),
      only_rst changes_jobPortsClose.only (by decide), isHeld_of_changes changes_jobPortsClose (by decide), only_rst (changes_setF _ _ _ _).only (by decide), isHeld_of_changes (changes_setF _ _ _ _) (by decide)]
    refine ⟨rfl, fun h hd => ?_⟩
    have hheld : isHeld (run giveUp s) d = false := by rw [isHeld_of_changes changes_giveUp (by decide), h]
    generalize run giveUp s = t at hheld
    simp only [isHeld, updRst, run_prim, Prim.rst_rst] at hheld ⊢
    split
    · exact hheld
    · rw [List.contains_cons, hheld, Bool.or_false]
      simpa using hd
  case isFalse h => exact ⟨by simpa using h, fun h _ => h⟩

theorem run_relockTimeout (hheld : isHeld s (d + 2) = true) (hlost : d + 2 ∈ s.rst.clkLost) :
    run (relockTimeout d) s = run goOut (run (setDie d 2) (run (freeDom (d + 2)) s)) := by
  rw [relockTimeout, run_ask, run_when, hheld, List.contains_iff_mem.mpr hlost, Bool.and_self, if_pos rfl, run_all_cons, run_all_cons, run_all_cons, run_all_nil]

theorem run_relockTimeout_not (h : isHeld s (d + 2) = false ∨ d + 2 ∉ s.rst.clkLost) : run (relockTimeout d) s = s := by
  rw [relockTimeout, run_ask, run_when, if_neg]
  rcases h with h | h <;> simp [h]

/-! A read of the dump that does not return (R393). -/

theorem run_dumpTimeout_not {addr o : Nat} (hword : dumpWordAt s addr = some o) (h : getF s RST_DUMP.STATE ≠ 2 ∨ addr ∈ s.rst.unread) : run (dumpTimeout addr) s = s := by
  rw [dumpTimeout, run_ask, hword]
  dsimp only
  rw [run_when, if_neg]
  rcases h with h | h <;> simp [h]

theorem dumpTimeout_spec {addr o : Nat} (hword : dumpWordAt s addr = some o) (hstate : getF s RST_DUMP.STATE = 2) (hchart : s.chart.cur ≠ none) (hnew : addr ∉ s.rst.unread) :
    (run (dumpTimeout addr) s).rst.unread = s.rst.unread ++ [addr] ∧ getF (run (dumpTimeout addr) s) RST_DUMP.UNREAD = min 0xFFFF (s.rst.unread.length + 1) := by
  rw [dumpTimeout, run_ask, hword]
  dsimp only
  rw [run_when, if_pos (by simp [hstate, hnew, Option.isSome_iff_ne_none, hchart])]
  rw [run_all_cons, run_all_cons, run_all_cons, run_all_cons, run_all_cons, run_all_nil]
  refine ⟨?_, ?_⟩
  · rw [only_rst (changes_setF _ _ _ _).only (by decide)]
    rfl
  · rw [getF_setF_fits (by decide), List.length_append]
    exact Nat.mod_eq_of_lt (by simp only [show RST_DUMP.UNREAD.width = 16 from rfl]; omega)

end

end Sys2Proof.Machine

/-! PROOFS. The commands of reset domains (R379 to R391, Table 18-1). -/

namespace Sys2Proof.Machine

section
variable {s : State} (d : Fin 4)

/-- The register write that names the die of a request. -/
def dieNamed (d : Fin 4) (s : State) : State := run (setF RST_CTL.DIE d) s

theorem dieNamed_ctl : getF (dieNamed d s) RST_CTL.DIE = d := (getF_setF_fits (by decide) _ _ _ _).trans (Nat.mod_eq_of_lt d.isLt)

theorem run_rstCp : run (rstCp d) s = run (computeReset 1 1) (dieNamed d s) := by rw [rstCp, run_all_cons, run_all_cons, run_all_nil, dieNamed]
theorem run_rstDie : run (rstDie d) s = run (computeReset (d + 2) 1) (dieNamed d s) := by rw [rstDie, run_all_cons, run_all_cons, run_all_nil, dieNamed]

theorem computeReset_ctl {dom cause : Nat} : getF (run (computeReset dom cause) (dieNamed d s)) RST_CTL.DIE = d := by
  rw [← dieNamed_ctl d (s := s)]
  exact getF_of_getReg (run_same (fun s => getReg s .RST_CTL 0 0) (computeReset_keeps rfl (by decide) (by decide) 0 0) _)

/-! RST_CTL.CP. -/

theorem cpReset_now (h7 : isHeld s 7 = false) (h1 : isHeld s 1 = false) (hdie : dieHeld s = false) (hdue : s.rst.due = [])
    (hdep : ((departing s).all fun a => decide (512 ≤ a)) = true) (hgone : ∀ a, a < 512 → Gone s a) {cause : Nat} (hc : cause < 256) :
    isHeld (run (computeReset 1 cause) s) 1 = true ∧ getF (run (computeReset 1 cause) s) RST_STAT.DOMAIN = 1 ∧
      getF (run (computeReset 1 cause) s) RST_STAT.CAUSE = cause ∧ (run (computeReset 1 cause) s).tiles = [] ∧ QuayZero (run (computeReset 1 cause) s) := by
  rw [run_computeReset_now h7 h1 (fun _ => hdie) (by rw [h1]; rfl) hdue hdep hgone]
  obtain ⟨hdom, hcause, hquay⟩ := assertCompute_part cause (run (recordEvent cause) (run (updRst fun r => { r with due := [] }) (run (computeAsked 1 cause) s))) hc
  exact ⟨isHeld_assertCompute 1 cause _, hdom, hcause, assertCompute_tiles 1 cause _, hquay⟩

theorem cpReset_later (h7 : isHeld s 7 = false) (h1 : isHeld s 1 = false) (hdie : dieHeld s = false) (hdue : s.rst.due = []) {a : Nat} (ha : a < 512) (hstays : Stays s a)
    (hdump : getB s RST_CFG.DUMP = false ∨ (cohAgent s a).pend ≠ []) (cause : Nat) :
    (run (computeReset 1 cause) s).rst.due = [(1, cause)] ∧ (run (computeReset 1 cause) s).rst.held = s.rst.held ∧ (run (computeReset 1 cause) s).tiles = s.tiles := by
  rw [run_computeReset_later h7 h1 (fun _ => hdie) (by rw [h1]; rfl) hdue ha hstays hdump]
  generalize tileAgents none = agents
  have hdepart : Act.Changes [.tier, .coh] (Act.each departBegin agents) := changes_each fun _ => changes_departBegin _
  rw [only_rst hdepart.only (by decide), only_tiles hdepart.only (by decide), computeAsked_due, computeAsked_held, only_tiles (changes_computeAsked 1 cause).only (by decide)]
  exact ⟨rfl, rfl, rfl⟩

theorem cpReset_joins (h : isHeld s 7 = true ∨ isHeld s 1 = true ∨ dieHeld s = true ∨ s.rst.due ≠ []) (cause : Nat) :
    (run (computeReset 1 cause) s).rst = s.rst ∧ (run (computeReset 1 cause) s).tiles = s.tiles ∧ (run (computeReset 1 cause) s).mem = s.mem := by
  by_cases hjoin : isHeld s 7 = true ∨ isHeld s 1 = true ∨ 1 = 1 ∧ dieHeld s = true
  · rw [run_computeReset_joined hjoin]
    exact ⟨rfl, rfl, rfl⟩
  · simp only [true_and, not_or, Bool.not_eq_true] at hjoin
    obtain ⟨h7, h1, hdie⟩ := hjoin
    have hdue : s.rst.due ≠ [] := by
      rw [h7, h1, hdie] at h
      simpa using h
    rw [run_computeReset_due h7 h1 (fun _ => hdie) (by rw [h1]; rfl) hdue]
    exact ⟨rfl, rfl, rfl⟩

theorem rstCtlCp_spec : 
    (isHeld s 7 = false → isHeld s 1 = false → dieHeld s = false → s.rst.due = [] →
      (departing s).all (fun a => decide (512 ≤ a)) = true → (∀ a, a < 512 → Gone s a) →
      getF (run (rstCp d) s) RST_CTL.DIE = d ∧ isHeld (run (rstCp d) s) 1 = true ∧ getF (run (rstCp d) s) RST_STAT.DOMAIN = 1 ∧
        getF (run (rstCp d) s) RST_STAT.CAUSE = 1 ∧ (run (rstCp d) s).tiles = [] ∧ ∀ a, isQuay a = true → readByte (run (rstCp d) s) a = 0) ∧
    (isHeld s 7 = false → isHeld s 1 = false → dieHeld s = false → s.rst.due = [] →
      (∃ a, a < 512 ∧ agentCaches s a = true ∧ (cohAgent s a).departed = false ∧ (cohAgent s a).dead = false ∧ (getB s RST_CFG.DUMP = false ∨ (cohAgent s a).pend ≠ [])) →
      getF (run (rstCp d) s) RST_CTL.DIE = d ∧ (run (rstCp d) s).rst.due = [(1, 1)] ∧ (run (rstCp d) s).rst.held = s.rst.held ∧ (run (rstCp d) s).tiles = s.tiles) ∧
    (isHeld s 7 = true ∨ isHeld s 1 = true ∨ dieHeld s = true ∨ s.rst.due ≠ [] →
      getF (run (rstCp d) s) RST_CTL.DIE = d ∧ (run (rstCp d) s).rst = s.rst ∧ (run (rstCp d) s).tiles = s.tiles ∧ (run (rstCp d) s).mem = s.mem) := by
  rw [run_rstCp]
  refine ⟨fun h7 h1 hdie hdue hdep hgone => ?_, fun h7 h1 hdie hdue => ?_, fun h => ⟨computeReset_ctl d, cpReset_joins (s := dieNamed d s) h 1⟩⟩
  · obtain ⟨hheld, hdom, hcause, htiles, hquay⟩ := cpReset_now (s := dieNamed d s) h7 h1 hdie hdue hdep hgone (cause := 1) (by decide)
    exact ⟨computeReset_ctl d, hheld, hdom, hcause, htiles, fun a ha => hquay.readByte ha⟩
  · rintro ⟨a, ha, hcaches, hdep, hdead, hdump⟩
    have hdump' : getB (dieNamed d s) RST_CFG.DUMP = false ∨ (cohAgent (dieNamed d s) a).pend ≠ [] :=
      hdump.imp_left fun h => (decide_eq_decide.mpr (by rw [dieNamed, getF_setF_apart (by decide)])).trans h
    exact ⟨computeReset_ctl d, cpReset_later (s := dieNamed d s) h7 h1 hdie hdue ha ⟨hcaches, hdep, hdead⟩ hdump' 1⟩

/-! RST_CTL.DIERST. -/

theorem rstCtlDierst_spec (h7 : isHeld s 7 = false) (hd : isHeld s (d + 2) = false) :
    ((isHeld s 1 && !s.rst.oos) = true →
      getF (run (rstDie d) s) RST_CTL.DIE = d ∧ isHeld (run (rstDie d) s) (d + 2) = true ∧ dieState (run (rstDie d) s) d = 3 ∧ (run (rstDie d) s).tiles = []) ∧
    ((isHeld s 1 && !s.rst.oos) = false → s.rst.due = [] → (departing s).all (fun a => decide (512 ≤ a)) = true → (∀ a, a < 512 → Gone s a) →
      getF (run (rstDie d) s) RST_CTL.DIE = d ∧ isHeld (run (rstDie d) s) (d + 2) = true ∧ dieState (run (rstDie d) s) d = 3 ∧ (run (rstDie d) s).tiles = []) ∧
    ((isHeld s 1 && !s.rst.oos) = false → s.rst.due ≠ [] →
      getF (run (rstDie d) s) RST_CTL.DIE = d ∧ (run (rstDie d) s).rst = { s.rst with due := dueJoin s.rst.due (d + 2) 1 } ∧
        (run (rstDie d) s).tiles = s.tiles ∧ (run (rstDie d) s).mem = s.mem) := by
  have hne : d.val + 2 ≠ 1 := by omega
  have hdie : d.val + 2 = 1 → dieHeld (dieNamed d s) = false := fun h => absurd h hne
  have hctl := computeReset_ctl (s := s) d (dom := d + 2) (cause := 1)
  have hasserted : ∀ t, isHeld (run (assertCompute (d + 2) 1) t) (d + 2) = true ∧ dieState (run (assertCompute (d + 2) 1) t) d = 3 ∧ (run (assertCompute (d + 2) 1) t).tiles = [] :=
    fun t => ⟨isHeld_assertCompute _ _ t, dieState_assertCompute 1 t d.isLt, assertCompute_tiles _ _ t⟩
  rw [run_rstDie]
  refine ⟨fun h1 => ⟨hctl, ?_⟩, fun h1 hdue hdep hgone => ⟨hctl, ?_⟩, fun h1 hdue => ⟨hctl, ?_⟩⟩
  · rw [run_computeReset_widens (s := dieNamed d s) h7 hd hne h1]
    exact hasserted _
  · rw [run_computeReset_now (s := dieNamed d s) h7 hd hdie h1 hdue hdep hgone]
    exact hasserted _
  · rw [run_computeReset_due (s := dieNamed d s) h7 hd hdie h1 hdue]
    exact ⟨rfl, rfl, rfl⟩

/-! RST_CTL.HOST and RST_CTL.PKG. -/

theorem rstCtlHost_held (h6 : isHeld s 6 = false) (h7 : isHeld s 7 = false) (hdue : s.rst.hostDue = none) (hnot : (cohAgent s 512).departing = false) (hgone : Gone s 512) :
    isHeld (run (hostReset 1) s) 6 = true ∧ getF (run (hostReset 1) s) RST_STAT.DOMAIN = 6 ∧ getF (run (hostReset 1) s) RST_STAT.CAUSE = 1 ∧
      (run (hostReset 1) s).bell = [] ∧ ∀ q : Fin 256, getF (run (hostReset 1) s) BELL_CFG.EN q = 0 := by
  obtain ⟨hheld, hdom, hcause⟩ := hostReset_held h6 h7 hdue hnot hgone (cause := 1) (by decide)
  refine ⟨hheld, hdom, hcause, ?_⟩
  rw [run_hostReset_gone h6 h7 hdue hnot hgone]
  exact ⟨assertHost_bell 1 _, fun q => assertHost_queues 1 _ q⟩

theorem rstCtlPkg_spec (h7 : isHeld s 7 = false) {cause : Nat} (hc : cause < 256) : let t := run (packageReset cause) s
    t.rst.held = [7] ∧ getF t RST_STAT.DOMAIN = 7 ∧ getF t RST_STAT.CAUSE = cause ∧ getReg t .ID_DIEMAP 0 0 = 0xFFF ∧
      (∀ a, a < 2 ^ 40 → Cells.get 0 t.mem a = Cells.get 0 s.mem a) ∧ t.rst.events = s.rst.events ∧ t.rst.oos = s.rst.oos ∧
      t.life = s.life ∧ t.floor = s.floor ∧ t.sec.ownerHash = s.sec.ownerHash := by
  obtain ⟨hheld, hdom, -, hlife⟩ := packageReset_spec h7 cause
  obtain ⟨hmap, hcause⟩ := packageReset_shown h7 hc
  have hkept := packageReset_kept cause s
  exact ⟨hheld, hdom, hcause, hmap, fun a ha => mem_of_packageKept hkept ha, congrArg (fun k => k.2.1) hkept, congrArg (fun k => k.2.2.1) hkept, hlife,
    only_floor (changes_packageReset cause).only (by decide) s, congrArg (fun k => k.2.2.2) hkept⟩

theorem oosClear_spec (h : d2Open s = true) : (run oosClear s).rst = { s.rst with oos := false, events := [] } ∧
    (∀ r i j, r ≠ .SHD_STAT → getReg (run oosClear s) r i j = getReg s r i j) ∧ (run oosClear s).mem = s.mem := by
  have hwrites : (Act.when (decide (getF s SHD_STAT.ROLE = 4)) (setF SHD_STAT.ROLE 3)).Writes [.SHD_STAT] := (within_when _ _).mpr fun _ => writes_setF (by decide) _ _ _
  have hchanges : Act.Changes [.regs] (Act.when (decide (getF s SHD_STAT.ROLE = 4)) (setF SHD_STAT.ROLE 3)) := changes_when (changes_setF _ _ _ _)
  rw [run_oosClear_within h, only_rst hchanges.only (by decide), only_mem hchanges.only (by decide)]
  exact ⟨rfl, fun r i j hr => hwrites.getReg (by simpa using hr) i j _, rfl⟩

theorem oosClear_logged (h : d2Open s = false) : Safety.Logged .oosclrIgnored s (run oosClear s) ∧ (run oosClear s).rst = s.rst ∧ (run oosClear s).mem = s.mem := by
  rw [run_oosClear_ignored h]
  exact ⟨logged_logEv (by decide) _ _ _ rfl, only_rst (changes_logEv _ _ _ _).only (by decide) s, only_mem (changes_logEv _ _ _ _).only (by decide) s⟩

/-! Watchdogs. -/

theorem watchdogTrip_spec (u : Fin 516) (h : trips s u = true) : bitOf (getF (run (watchdogTrip u) s) RST_TRIP.UNIT (u / 64)) (u % 64) = true ∧
    (getB s RST_CFG.NORESET = true → (run (watchdogTrip u) s).rst.held = s.rst.held ∧ (run (watchdogTrip u) s).mem = s.mem) ∧
    (getB s RST_CFG.NORESET = false → isHeld s 7 = false → isHeld s 1 = false → dieHeld s = false → s.rst.due = [] →
      (departing s).all (fun a => decide (512 ≤ a)) = true → (∀ a, a < 512 → Gone s a) →
      isHeld (run (watchdogTrip u) s) 1 = true ∧ getF (run (watchdogTrip u) s) RST_STAT.DOMAIN = 1 ∧ getF (run (watchdogTrip u) s) RST_STAT.CAUSE = 2) := by
  have hmem : u.val ∈ tripsWith s u := List.mem_cons_self
  have hbit := hasTripped_each u.isLt (tripsWith_lt u.isLt) hmem s
  have hchanges : Act.Changes [.rst, .regs, .log] (Act.each unitTrips (tripsWith s u)) := changes_each fun _ => changes_unitTrips _
  have hkept : (Act.each unitTrips (tripsWith s u)).KeepsRst fun r => (r.held, r.due) := (within_each _ _).mpr fun _ _ => keepsRst_unitTrips (g := fun r => (r.held, r.due)) (by intro _ _; rfl) _
  have hrst := hkept.eq s
  have hmem' := only_mem hchanges.only (by decide) s
  have hcoh := only_coh hchanges.only (by decide) s
  have hchart := only_chart hchanges.only (by decide) s
  rw [run_watchdogTrip h]
  generalize run (Act.each unitTrips (tripsWith s u)) s = t at hbit hrst hmem' hcoh hchart
  have hheld : t.rst.held = s.rst.held := congrArg Prod.fst hrst
  refine ⟨?_, fun hno => ?_, fun hno h7 h1 hdie hdue hdep hgone => ?_⟩
  · rw [run_when]
    split
    · rw [hasTripped] at hbit
      rw [getF_of_getReg (run_same (fun s => getReg s .RST_TRIP (u / 64) 0) (computeReset_keeps rfl (by decide) (by decide) _ 0) t)]
      exact hbit
    · exact hbit
  · rw [hno, run_when, if_neg (by decide)]
    exact ⟨hheld, hmem'⟩
  · rw [hno, run_when, if_pos (by decide)]
    have hgone' : ∀ a, a < 512 → Gone t a := fun a ha => by
      rw [Gone, agentCaches_congr hchart, cohAgent_congr hcoh]
      exact hgone a ha
    have hdie' : dieHeld t = false := by simpa only [dieHeld, isHeld, hheld] using hdie
    have hdep' : ((departing t).all fun a => decide (512 ≤ a)) = true := by rwa [departing, hcoh]
    obtain ⟨hpart, hdom, hcause, -, -⟩ := cpReset_now (s := t) (by rw [isHeld, hheld]; exact h7) (by rw [isHeld, hheld]; exact h1) hdie' ((congrArg Prod.snd hrst).trans hdue)
      hdep' hgone' (cause := 2) (by decide)
    exact ⟨hpart, hdom, hcause⟩

theorem run_watchdogTrip_not {u : Nat} (h : trips s u = false) : run (watchdogTrip u) s = s := by
  rw [watchdogTrip, run_ask, run_when, h, if_neg Bool.false_ne_true]

/-! Releases and clocks. -/

theorem mem_of_changes {k : List Part} {a : Act} (h : a.Changes k) (hk : Part.mem ∉ k) (s : State) : (run a s).mem = s.mem := only_mem h.only hk s

theorem computeReleased_spec (h : isHeld s 1 = true) (hup : (!s.rst.oos && !dieHeld s && s.chart.cur.isSome && !s.pow.hmFail && !s.pow.hostFail && !s.pow.boot) = true) :
    isHeld (run (resetRelease 1) s) 1 = false ∧ (run (resetRelease 1) s).mem = s.mem := by
  rw [run_resetRelease_compute h hup, run_all_cons, run_all_cons, run_all_nil, isHeld_of_changes changes_reformed (by decide), isHeld_of_changes changes_agentsReturn (by decide),
    isHeld_freeDom_same]
  rw [mem_of_changes changes_reformed (by decide), mem_of_changes changes_agentsReturn (by decide), mem_of_changes (changes_freeDom 1) (by decide)]
  exact ⟨rfl, rfl⟩

theorem packageReleased_spec (h : isHeld s 7 = true) (hrails : s.pow.rails = true) (hland : s.pow.resetN = false) (hclk : s.pow.refclk = true) :
    (run (resetRelease 7) s).rst.held = [1, 6] ∧ (run (resetRelease 7) s).pow.boot = true ∧ getReg (run (resetRelease 7) s) .ID_DIEMAP 0 0 = 0x300 ∧
      (run (resetRelease 7) s).mem = s.mem := by
  rw [run_resetRelease_package h (by rw [hrails, hland, hclk]; rfl), run_all_cons, run_all_cons, run_all_cons, run_all_nil]
  refine ⟨rfl, rfl, ?_, rfl⟩
  change getReg (Prim.apply (.reg .ID_DIEMAP 0 0 0x300) _) .ID_DIEMAP 0 0 = _
  rw [getReg_apply_reg_same _ _ _ _ (by decide)]
  decide

theorem relockTimeout_spec (hheld : isHeld s (d + 2) = true) (hlost : d.val + 2 ∈ s.rst.clkLost) : isHeld (run (relockTimeout d) s) (d + 2) = false ∧
    dieState (run (relockTimeout d) s) d = 2 ∧ (run (relockTimeout d) s).rst.oos = true ∧ (run (relockTimeout d) s).mem = s.mem := by
  rw [run_relockTimeout hheld hlost]
  have hfree : isHeld (run (setDie d 2) (run (freeDom (d + 2)) s)) (d + 2) = false := by rw [isHeld_of_changes (changes_setDie _ _) (by decide), isHeld_freeDom_same]
  obtain ⟨hoos, hheld'⟩ := goOut_oos (d := d + 2) (run (setDie d 2) (run (freeDom (d + 2)) s))
  refine ⟨hheld' hfree (by omega), ?_, hoos, ?_⟩
  · rw [sparesResetRegs_goOut.dieState, dieState_setDie (by omega)]
  · rw [only_mem changes_goOut.only (by decide), only_mem (changes_setDie _ _).only (by decide), only_mem (changes_freeDom _).only (by decide)]

end

/-- Settles O42, command by command: requests join, widen, wait for departures or are asserted, and a release frees its domain. -/
theorem resetDomains : Obligations.ResetDomains := by
  unfold Obligations.ResetDomains
  refine ⟨fun s d => ?cp, fun s d h7 hd => ?dierst, fun s dom cause hdue => ⟨resetGo_asserted hdue, run_resetGo_waits⟩, fun s => ?host, fun s d => ?release,
    fun s a o hword => ?dump, fun s u => ?watchdog, fun s => ?hostwd, fun s d => ?relock⟩
  case cp =>
    obtain ⟨hnow, hlater, hjoined⟩ := rstCtlCp_spec (s := s) d
    exact ⟨fun h7 h1 hdie hdue hdep hgone => ⟨_, rfl, hnow h7 h1 hdie hdue hdep hgone⟩, fun h7 h1 hdie hdue ha => ⟨_, rfl, hlater h7 h1 hdie hdue ha⟩, fun h => ⟨_, rfl, hjoined h⟩⟩
  case dierst =>
    obtain ⟨hwidens, hnow, hjoined⟩ := rstCtlDierst_spec (s := s) d h7 hd
    exact ⟨fun h => ⟨_, rfl, hwidens h⟩, fun h hdue hdep hgone => ⟨_, rfl, hnow h hdue hdep hgone⟩, fun h hdue => ⟨_, rfl, hjoined h hdue⟩⟩
  case host =>
    refine ⟨fun h6 h7 hdue hnot hgone => ⟨_, rfl, rstCtlHost_held h6 h7 hdue hnot hgone⟩,
      fun h6 h7 hdue hcaches hdep hdead => ⟨_, rfl, hostReset_due h6 h7 hdue ⟨hcaches, hdep, hdead⟩ 1⟩, fun h => ⟨_, rfl, run_hostReset_joined h 1⟩,
      fun h7 => ⟨_, rfl, rstCtlPkg_spec h7 (by decide)⟩, fun h7 => ⟨_, rfl, run_packageReset_joined h7 1⟩, fun h => ⟨_, rfl, oosClear_spec h⟩, fun h => ⟨_, rfl, oosClear_logged h⟩⟩
  case release =>
    refine ⟨fun h => ⟨_, rfl, run_resetRelease_free h⟩, fun h hlo hhi => ⟨_, rfl, ?_⟩, fun h hd hup => ?_, fun h hd hup => ?_, fun h hd hrails hland hclk => ?_, fun h hd hdown => ?_⟩
    · rw [run_resetRelease_die h hlo hhi]
      exact dieReleased_spec hlo hhi
    · subst hd
      exact ⟨_, rfl, computeReleased_spec h hup⟩
    · subst hd
      refine ⟨_, rfl, ?_⟩
      rw [run_resetRelease_host h hup, run_hostReleased]
      exact hostReleased_spec
    · subst hd
      exact ⟨_, rfl, packageReleased_spec h hrails hland hclk⟩
    · subst hd
      refine ⟨_, rfl, run_resetRelease_package_stays h ?_⟩
      rcases hdown with h | h | h <;> simp [h]
  case dump => exact ⟨fun hstate hchart hnew => ⟨_, rfl, dumpTimeout_spec hword hstate hchart hnew⟩, fun h => ⟨_, rfl, run_dumpTimeout_not hword h⟩⟩
  case watchdog => exact ⟨fun h => ⟨_, rfl, watchdogTrip_spec u h⟩, fun h => ⟨_, rfl, run_watchdogTrip_not h⟩⟩
  case hostwd =>
    refine ⟨⟨_, rfl, rfl⟩, fun h => ⟨_, rfl, run_hostTrip_in_time h⟩, fun hlimit hbeat h6 h7 hdue hnot hgone => ⟨_, rfl, ?_⟩⟩
    rw [run_hostTrip hlimit hbeat]
    exact hostReset_held h6 h7 hdue hnot hgone (by decide)
  case relock => exact ⟨fun hheld hlost => ⟨_, rfl, relockTimeout_spec d hheld hlost⟩, fun h => ⟨_, rfl, run_relockTimeout_not h⟩⟩

end Sys2Proof.Machine

/-! PROOFS. Bells, entries, completion records and held reads of a queue (R288 to R300). -/

namespace Sys2Proof.Machine

section
variable {s : State} {q : Nat}

theorem bellQ_of_changes {k : List Part} {a : Act} (h : a.Changes k) (hk : Part.bell ∉ k) (s : State) (q : Nat) : bellQ (run a s) q = bellQ s q := by
  rw [bellQ, bellQ, only_bell h.only hk]

/-- A program that leaves the coherent domain and memory leaves what a read returns. -/
theorem readMem_of_changes {k : List Part} {a : Act} (h : a.Changes k) (hm : Part.mem ∉ k) (hc : Part.coh ∉ k) (s : State) (x n : Nat) :
    readMem (run a s) x n = readMem s x n := readMem_congr (only_mem h.only hm s) (only_coh h.only hc s) x n

/-! The bell (R290). -/

theorem run_bellRing_beyond (hen : getB s BELL_STAT.EN q = true) {tail : Nat} (h : ringEntries s q ≤ tail) : run (bellRing q tail) s = run (incF BELL_CNT.BADTAIL 1 q) s := by
  rw [bellRing, run_ask, hen, if_neg (by decide), if_pos h]

theorem run_bellRing_within (hen : getB s BELL_STAT.EN q = true) {tail : Nat} (h : tail < ringEntries s q) :
    run (bellRing q tail) s = run (setF BELL_STAT.WAITSEQ 0 q) (run (setF BELL_STAT.TAIL tail q) s) := by
  rw [bellRing, run_ask, hen, if_neg (by decide), if_neg (by omega), run_all_cons, run_all_cons, run_all_nil]

theorem bellRing_head (tail : Nat) : getF (run (bellRing q tail) s) BELL_STAT.HEAD q = getF s BELL_STAT.HEAD q := by
  rw [bellRing, run_ask]
  split
  · rfl
  · split
    · rw [getF_incF_apart (by decide)]
    · rw [run_all_cons, run_all_cons, run_all_nil, getF_setF_apart (by decide), getF_setF_apart (by decide)]

theorem bellRing_spec (hen : getB s BELL_STAT.EN q = true) (tail : BitVec 16) : let t := run (bellRing q tail.toNat) s
    (tail.toNat < ringEntries s q → getF t BELL_STAT.TAIL q = tail.toNat ∧ getF t BELL_STAT.WAITSEQ q = 0) ∧
    (ringEntries s q ≤ tail.toNat → getF t BELL_CNT.BADTAIL q = min (getF s BELL_CNT.BADTAIL q + 1) (2 ^ 16 - 1) ∧ getF t BELL_STAT.TAIL q = getF s BELL_STAT.TAIL q) := by
  refine ⟨fun h => ?_, fun h => ?_⟩
  · rw [run_bellRing_within hen h, getF_setF_fits (by decide), getF_setF_apart (by decide), getF_setF_fits (by decide)]
    exact ⟨Nat.mod_eq_of_lt tail.isLt, rfl⟩
  · rw [run_bellRing_beyond hen h, getF_incF_fits (by decide), getF_incF_apart (by decide)]
    exact ⟨rfl, rfl⟩

/-! Entries (R288, R291). -/

theorem ringEntries_le (s : State) (q : Nat) : ringEntries s q ≤ 2 ^ 15 := by
  have hlt : getF s BELL_CFG.SIZE q < 2 ^ 4 := bitsOf_lt _ _ _
  exact Nat.pow_le_pow_right (by decide) (by omega)

/-- An entry that matches joins the queue's commands. -/
def BellQ.accepts (n head : Nat) (e : List Byte) (x : BellQ) : BellQ :=
  { x with nextSeq := (n + 1) % 2 ^ 32, reading := none, cmds := x.cmds ++ [{ entry := e, index := head }] }

theorem run_entryCheck_match (hdue : entryDue s q = true) (hheld : cdmaHeld s (piecesOf (headAddr s q) 256 false false) = false)
    (hfault : firstFault s (piecesOf (headAddr s q) 256 false false) = none) (hseq : eSeq (headEntry s q) = (bellQ s q).nextSeq)
    (hend : fieldAt (headEntry s q) 0xFC 4 = (bellQ s q).nextSeq) :
    run (entryCheck q) s = run (updBell q (BellQ.accepts (bellQ s q).nextSeq (getF s BELL_STAT.HEAD q) (headEntry s q)))
      (run (setF BELL_STAT.HEAD ((getF s BELL_STAT.HEAD q + 1) % ringEntries s q) q) s) := by
  rw [entryCheck, run_ask]
  dsimp only
  rw [hdue, hheld, hfault, if_neg (by decide), hseq, hend, decide_eq_true rfl, Bool.and_self, if_pos rfl, run_all_cons, run_all_cons, run_all_nil]
  rfl

theorem run_entryCheck_miss (hdue : entryDue s q = true) (hheld : cdmaHeld s (piecesOf (headAddr s q) 256 false false) = false)
    (hfault : firstFault s (piecesOf (headAddr s q) 256 false false) = none)
    (hno : eSeq (headEntry s q) ≠ (bellQ s q).nextSeq ∨ fieldAt (headEntry s q) 0xFC 4 ≠ (bellQ s q).nextSeq) : run (entryCheck q) s = run (entryMiss q) s := by
  rw [entryCheck, run_ask]
  dsimp only
  rw [hdue, hheld, hfault, if_neg (by decide)]
  dsimp only
  rw [if_neg]
  rcases hno with h | h <;> simp [h]

theorem entryMiss_spec : let t := run (entryMiss q) s
    t.mem = s.mem ∧ getF t BELL_STAT.HEAD q = getF s BELL_STAT.HEAD q ∧ (bellQ t q).cmds = (bellQ s q).cmds ∧ (bellQ t q).reading.isSome = true ∧
      ((bellQ s q).reading = none → getF t BELL_CNT.REREAD q = min (getF s BELL_CNT.REREAD q + 1) (2 ^ 24 - 1)) := by
  dsimp only
  rw [entryMiss, run_ask, run_when]
  split
  case isTrue =>
    have hup : Act.Changes [.bell] (updBell q fun x => { x with reading := some s.now }) := changes_updBell _ _
    rw [run_all_cons, run_all_cons, run_all_nil, bellQ_updBell_same, hup.getF (by decide), hup.getF (by decide), getF_incF_apart (by decide), getF_incF_fits (by decide)]
    exact ⟨rfl, rfl, rfl, rfl, fun _ => rfl⟩
  case isFalse h =>
    have hsome : (bellQ s q).reading.isSome = true := by simpa [Option.isSome_iff_ne_none] using h
    refine ⟨rfl, rfl, rfl, hsome, fun hnone => ?_⟩
    rw [hnone] at hsome
    exact absurd hsome Bool.false_ne_true

theorem entryCheck_match (hdue : entryDue s q = true) (hheld : cdmaHeld s (piecesOf (headAddr s q) 256 false false) = false)
    (hfault : firstFault s (piecesOf (headAddr s q) 256 false false) = none) (hseq : eSeq (headEntry s q) = (bellQ s q).nextSeq)
    (hend : fieldAt (headEntry s q) 0xFC 4 = (bellQ s q).nextSeq) : let t := run (entryCheck q) s
    getF t BELL_STAT.HEAD q = (getF s BELL_STAT.HEAD q + 1) % ringEntries s q ∧ (bellQ t q).nextSeq = ((bellQ s q).nextSeq + 1) % 2 ^ 32 ∧
      (bellQ t q).cmds = (bellQ s q).cmds ++ [{ entry := headEntry s q, index := getF s BELL_STAT.HEAD q }] := by
  have hring := ringEntries_le s q
  have hpos : 0 < ringEntries s q := Nat.two_pow_pos _
  have hlt := Nat.mod_lt (getF s BELL_STAT.HEAD q + 1) hpos
  dsimp only
  rw [run_entryCheck_match hdue hheld hfault hseq hend, (changes_updBell _ _).getF (by decide), getF_setF_fits (by decide), bellQ_updBell_same]
  refine ⟨Nat.mod_eq_of_lt ?_, rfl, rfl⟩
  rw [show BELL_STAT.HEAD.width = 16 from rfl]
  omega

theorem entryCheck_mem (hheld : cdmaHeld s (piecesOf (headAddr s q) 256 false false) = false) (hfault : firstFault s (piecesOf (headAddr s q) 256 false false) = none)
    (hdue : entryDue s q = true) : (run (entryCheck q) s).mem = s.mem := by
  by_cases h : eSeq (headEntry s q) = (bellQ s q).nextSeq ∧ fieldAt (headEntry s q) 0xFC 4 = (bellQ s q).nextSeq
  · rw [run_entryCheck_match hdue hheld hfault h.1 h.2]
    rfl
  · rw [run_entryCheck_miss hdue hheld hfault (not_and_or.mp h)]
    exact entryMiss_spec.1

theorem rereadTimeout_spec {x : Nat} (h : (bellQ s q).reading = some x) : let t := run (rereadTimeout q) s
    getF t BELL_CNT.RUNPAST q = min (getF s BELL_CNT.RUNPAST q + 1) (2 ^ 24 - 1) ∧ getF t BELL_STAT.WAITSEQ q = 1 ∧ (bellQ t q).reading = none ∧ t.mem = s.mem := by
  dsimp only
  rw [rereadTimeout, run_ask, h]
  dsimp only
  rw [run_all_cons, run_all_cons, run_all_cons, run_all_nil, getF_setF_apart (by decide), getF_incF_fits (by decide), getF_setF_fits (by decide),
    bellQ_of_changes (changes_setF _ _ _ _) (by decide), bellQ_of_changes (changes_incF _ _ _ _) (by decide), bellQ_updBell_same, setF_mem, incF_mem]
  exact ⟨rfl, rfl, rfl, rfl⟩

/-! A queue starts and stops (R286, R304). -/

theorem run_bellEnable_within (h : (inWarehouse (getF s BELL_RINGADDR.ADDR q * 256) (256 * ringEntries s q) && inWarehouse (getF s BELL_CQADDR.ADDR q * 256) (32 * cqRecords s q)) = true) :
    run (bellEnable q) s = run (cqStat q) (run (updBell q fun x => { x with nextSeq := 1, reading := none, cqTail := 0, phase := true })
      (run (setF BELL_STAT.WAITSEQ 0 q) (run (setF BELL_STAT.TAIL 0 q) (run (setF BELL_STAT.HEAD 0 q) (run (setF BELL_STAT.EN 1 q) (run (setF BELL_CFG.EN 1 q) s)))))) := by
  rw [bellEnable, run_ask, if_pos h]
  simp only [run_all_cons, run_all_nil]

theorem bellEnable_within (h : (inWarehouse (getF s BELL_RINGADDR.ADDR q * 256) (256 * ringEntries s q) && inWarehouse (getF s BELL_CQADDR.ADDR q * 256) (32 * cqRecords s q)) = true) :
    let t := run (bellEnable q) s
    getF t BELL_CFG.EN q = 1 ∧ getF t BELL_STAT.EN q = 1 ∧ getF t BELL_STAT.HEAD q = 0 ∧ getF t BELL_STAT.TAIL q = 0 ∧ getF t BELL_STAT.WAITSEQ q = 0 ∧
      (bellQ t q).nextSeq = 1 ∧ (bellQ t q).cqTail = 0 ∧ (bellQ t q).phase = true ∧ t.mem = s.mem := by
  dsimp only
  have hregs : ∀ (u : State) (f : Fld), BELL_STAT.CQFULL.apart f = true →
      getF (run (cqStat q) (run (updBell q fun x => { x with nextSeq := 1, reading := none, cqTail := 0, phase := true }) u)) f q = getF u f q := fun u f hf => by
    rw [cqStat, run_ask, getF_setF_apart hf, (changes_updBell _ _).getF (by decide)]
  rw [run_bellEnable_within h, bellQ_of_changes (changes_cqStat q) (by decide), bellQ_updBell_same, mem_of_changes (changes_cqStat q) (by decide),
    mem_of_changes (changes_updBell _ _) (by decide), hregs _ _ (by decide), hregs _ _ (by decide), hregs _ _ (by decide), hregs _ _ (by decide), hregs _ _ (by decide)]
  simp only [setF_mem, and_true]
  refine ⟨?_, ?_, ?_, ?_, getF_setF_fits (by decide) _ _ _ _⟩
  · rw [getF_setF_apart (by decide), getF_setF_apart (by decide), getF_setF_apart (by decide), getF_setF_apart (by decide)]
    exact getF_setF_fits (by decide) _ _ _ _
  · rw [getF_setF_apart (by decide), getF_setF_apart (by decide), getF_setF_apart (by decide)]
    exact getF_setF_fits (by decide) _ _ _ _
  · rw [getF_setF_apart (by decide), getF_setF_apart (by decide)]
    exact getF_setF_fits (by decide) _ _ _ _
  · rw [getF_setF_apart (by decide)]
    exact getF_setF_fits (by decide) _ _ _ _

theorem bellEnable_refused (h : (inWarehouse (getF s BELL_RINGADDR.ADDR q * 256) (256 * ringEntries s q) && inWarehouse (getF s BELL_CQADDR.ADDR q * 256) (32 * cqRecords s q)) = false) :
    let t := run (bellEnable q) s
    getF t BELL_ERR.CODE q = 7 ∧ getF t BELL_CFG.EN q = 0 ∧ getF t BELL_STAT.EN q = 0 ∧ t.mem = s.mem ∧ t.bell = s.bell := by
  dsimp only
  rw [bellEnable, run_ask, h, if_neg Bool.false_ne_true, run_all_cons, run_all_cons, run_all_cons, run_all_nil]
  simp only [setF_mem, setF_bell, and_true]
  refine ⟨?_, ?_, getF_setF_fits (by decide) _ _ _ _⟩
  · rw [getF_setF_apart (by decide), getF_setF_apart (by decide)]
    exact getF_setF_fits (by decide) _ _ _ _
  · rw [getF_setF_apart (by decide)]
    exact getF_setF_fits (by decide) _ _ _ _

theorem bellDisable_spec : let t := run (bellDisable q) s
    getF t BELL_CFG.EN q = 0 ∧ getF t BELL_STAT.EN q = 0 ∧ t.mem = s.mem ∧
      (∀ c : BCmd, c.st = .accepted → (bellQ s q).cmds = [c] → (bellQ t q).cmds = [] ∧
        (bellQ t q).done = (bellQ s q).done ++ [{ entry := c.entry, index := c.index, status := 5, result := 0, detail := 0 }]) := by
  dsimp only
  rw [bellDisable, run_all_cons, run_all_cons, run_all_cons, run_all_cons, run_all_nil, bellQ_updBell_same]
  simp only [bellQ_of_changes (changes_setF _ _ _ _) (show Part.bell ∉ [Part.regs] by decide)]
  refine ⟨?_, ?_, ?_, fun c hst hcmds => ?_⟩
  · rw [(changes_updBell _ _).getF (by decide), getF_setF_apart (by decide), getF_setF_apart (by decide), getF_setF_fits (by decide)]
    rfl
  · rw [(changes_updBell _ _).getF (by decide), getF_setF_apart (by decide), getF_setF_fits (by decide)]
    rfl
  · rw [mem_of_changes (changes_updBell _ _) (by decide), setF_mem, setF_mem, setF_mem]
  · rw [hcmds, List.filter_cons_of_pos (by rw [hst]; rfl)]
    simp [BellQ.finish]

/-! Completion records (R294 to R299). -/

theorem recordBytes_length (x : BellQ) (d : BDone) : (recordBytes x d).length = 32 := by simp only [recordBytes, List.length_append, length_natLe]

theorem run_postRecord {d : BDone} (h : nextRecord (bellQ s q) = some d) : run (postRecord q) s = run (postDone q d) s := by
  rw [postRecord, run_ask, h]

/-- A completed command leaves its queue. -/
def doneErased (q : Nat) (d : BDone) : Act := updBell q fun y => { y with done := y.done.erase d }

theorem doneErased_spec (d : BDone) : bellQ (run (doneErased q d) s) q = { bellQ s q with done := (bellQ s q).done.erase d } ∧
    (run (doneErased q d) s).mem = s.mem ∧ (run (doneErased q d) s).regs = s.regs :=
  ⟨bellQ_updBell_same _ _ _, mem_of_changes (changes_updBell _ _) (by decide) s, only_regs (changes_updBell _ _).only (by decide) s⟩

/-- A command that posts none ends with its interrupt write alone. -/
theorem run_postDone_none {d : BDone} (h : (eNocq d.entry && decide (d.status = 0)) = true) :
    run (postDone q d) s = run (irqWrite q d) (run (doneErased q d) s) := by
  rw [postDone, run_ask]
  dsimp only
  rw [if_pos h, run_all_cons, run_all_cons, run_all_nil, doneErased]

theorem run_postDone_full {d : BDone} (h : (eNocq d.entry && decide (d.status = 0)) = false) (hfull : cqFull s q = true) :
    run (postDone q d) s = run (setF BELL_STAT.CQFULL 1 q) s := by
  rw [postDone, run_ask]
  dsimp only
  rw [h, if_neg Bool.false_ne_true, hfull, if_pos rfl, cqStat, run_ask, hfull]
  rfl

/-- Where a queue's next record stands. -/
def recordAt (s : State) (q : Nat) : Nat := getF s BELL_CQADDR.ADDR q * 256 + 32 * (bellQ s q).cqTail

/-- What a posted record makes of the queue. -/
def BellQ.posted (x : BellQ) (d : BDone) (n : Nat) (y : BellQ) : BellQ :=
  { y with done := y.done.erase d, cqTail := (x.cqTail + 1) % n, phase := if x.cqTail + 1 = n then !x.phase else x.phase,
           visSeq := eSeq d.entry, far := y.far.map fun w => if w.seq = eSeq d.entry then { w with posted := true } else w }

/-- The record stands in the ring, the queue has moved on and an error is posted; the interrupt write is still to come. -/
def recordPosted (s : State) (q : Nat) (d : BDone) : State :=
  run (cqStat q) (run (errPosted q d) (run (updBell q ((bellQ s q).posted d (cqRecords s q))) (run (pkgWrite (recordAt s q) (recordBytes (bellQ s q) d)) s)))

theorem run_postDone_posts {d : BDone} (h : (eNocq d.entry && decide (d.status = 0)) = false) (hroom : cqFull s q = false)
    (hheld : cdmaHeld s (piecesOf (recordAt s q) 32 true false) = false) (hfault : firstFault s (piecesOf (recordAt s q) 32 true false) = none) :
    run (postDone q d) s = run (irqWrite q d) (recordPosted s q d) := by
  have hwrite : run (recordWrite (recordAt s q) (recordBytes (bellQ s q) d)) s = run (pkgWrite (recordAt s q) (recordBytes (bellQ s q) d)) s := by
    rw [recordWrite, run_ask, recordBytes_length, hfault]
  rw [recordAt] at hheld
  rw [postDone, run_ask]
  dsimp only
  rw [h, if_neg Bool.false_ne_true, hroom, if_neg Bool.false_ne_true, hheld, if_neg Bool.false_ne_true, run_all_cons, run_all_cons, run_all_cons, run_all_cons, run_all_cons, run_all_nil,
    recordPosted, ← hwrite]
  rfl

/-- What a queue's registers and bytes take from a posted record. -/
theorem recordPosted_spec (d : BDone) : (bellQ (recordPosted s q d) q).done = (bellQ s q).done.erase d ∧
    readMem (recordPosted s q d) (recordAt s q) 32 = recordBytes (bellQ s q) d ∧ (bellQ (recordPosted s q d) q).cqTail = ((bellQ s q).cqTail + 1) % cqRecords s q ∧
    (bellQ (recordPosted s q d) q).visSeq = eSeq d.entry := by
  have hq : bellQ (recordPosted s q d) q = (bellQ s q).posted d (cqRecords s q) (bellQ s q) := by
    rw [recordPosted, bellQ_of_changes (changes_cqStat q) (by decide), bellQ_of_changes (changes_errPosted q d) (by decide), bellQ_updBell_same,
      bellQ_of_changes (changes_pkgWrite _ _) (by decide)]
  refine ⟨congrArg BellQ.done hq, ?_, congrArg BellQ.cqTail hq, congrArg BellQ.visSeq hq⟩
  rw [recordPosted, readMem_of_changes (changes_cqStat q) (by decide) (by decide), readMem_of_changes (changes_errPosted q d) (by decide) (by decide),
    readMem_of_changes (changes_updBell _ _) (by decide) (by decide)]
  have hread := storeMem_readMem {} (recordAt s q) (recordBytes (bellQ s q) d) [] s
  rw [List.append_nil, recordBytes_length] at hread
  exact hread

theorem recordPosted_of_posted {f : Fld} (hstat : BELL_STAT.CQFULL.apart f = true) (d : BDone) (i j : Nat) :
    getF (recordPosted s q d) f i j = getF (run (errPosted q d) (run (updBell q ((bellQ s q).posted d (cqRecords s q))) (run (pkgWrite (recordAt s q) (recordBytes (bellQ s q) d)) s))) f i j := by
  rw [recordPosted, cqStat, run_ask, getF_setF_apart hstat]

theorem recordPosted_error {d : BDone} (h : d.status ≠ 0) : getF (recordPosted s q d) BELL_ERR.SEQ q = eSeq d.entry % 2 ^ 32 ∧
    getF (recordPosted s q d) BELL_ERR.CODE q = d.status % 2 ^ 8 ∧ bitOf (getF (recordPosted s q d) BELL_QERR.QUEUE 0 (q / 64)) (q % 64) = true := by
  rw [recordPosted_of_posted (by decide), recordPosted_of_posted (by decide), recordPosted_of_posted (by decide), errPosted, run_when,
    if_pos (by simpa using h), run_all_cons, run_all_cons, run_all_cons, run_all_nil]
  refine ⟨?_, ?_, ?_⟩
  · rw [getF_setBitF_apart (by decide), getF_setF_apart (by decide), getF_setF_fits (by decide)]
    rfl
  · rw [getF_setBitF_apart (by decide), getF_setF_fits (by decide)]
    rfl
  · rw [bitOf_getF_setBitF (by decide) (show q % 64 < BELL_QERR.QUEUE.width from Nat.mod_lt _ (by decide)), if_pos rfl]

theorem recordPosted_clean {d : BDone} (h : d.status = 0) {f : Fld} (hf : f.reg ∉ [RegName.COH_HOLDSNP]) (hstat : BELL_STAT.CQFULL.apart f = true) (i j : Nat) :
    getF (recordPosted s q d) f i j = getF s f i j := by
  rw [recordPosted_of_posted hstat, errPosted, h, run_when, if_neg (by decide), (changes_updBell _ _).getF (by decide),
    (writes_pkgWrite (l := [.COH_HOLDSNP]) (by decide) _ _).getF hf]

/-! BELL_CQHEAD (R296) and BELL_VIS (R300). -/

/-- The state once BELL_CQHEAD is written and CQFULL follows. -/
def cqHeadSet (s : State) (q head : Nat) : State := run (cqStat q) (run (setF BELL_CQHEAD.HEAD head q) s)

theorem run_cqHeadWrite (head : Nat) : run (cqHeadWrite q head) s = run (Act.when (cqFull s q) (postHeld q (bellQ s q).done.length)) (cqHeadSet s q head) := by
  rw [cqHeadWrite, run_ask]
  dsimp only
  rw [run_all_cons, run_all_cons, run_all_cons, run_all_nil]
  rfl

theorem cqFull_setFull (v : Nat) : cqFull (run (setF BELL_STAT.CQFULL v q) s) q = cqFull s q := by
  rw [cqFull, cqRecords, getF_setF_apart (by decide), getF_setF_apart (by decide), bellQ_of_changes (changes_setF _ _ _ _) (by decide)]
  rfl

theorem cqHeadSet_spec (head : BitVec 16) : getF (cqHeadSet s q head.toNat) BELL_CQHEAD.HEAD q = head.toNat ∧
    getF (cqHeadSet s q head.toNat) BELL_STAT.CQFULL q = b2n (cqFull (cqHeadSet s q head.toNat) q) := by
  rw [cqHeadSet, cqStat, run_ask, getF_setF_apart (by decide), getF_setF_fits (by decide), getF_setF_fits (by decide), cqFull_setFull]
  refine ⟨Nat.mod_eq_of_lt head.isLt, ?_⟩
  generalize cqFull (run (setF BELL_CQHEAD.HEAD head.toNat q) s) q = full
  cases full <;> rfl

theorem run_rowRead {who : Agent} {a : Nat} (hon : whoOn s who = true) (hreach : reachesRegs s who a false = true) (k : Act) : run (rowRead who a k) s = run k s := by
  rw [rowRead, run_ask, hon, if_neg (by decide), hreach, if_pos rfl]

theorem visRead_out (who : Agent) (a n : Nat) : (run (visRead who q a n) s).out =
    (run (Act.each (fun (w : FarWrite) => send (.pcieRead (BitVec.ofNat 48 w.addr) 0)) ((bellQ s q).unseen.filter fun w => w.berth.isNone)) s).out := by
  rw [visRead, run_ask]
  dsimp only
  rw [run_all_cons, run_all_cons, run_all_nil]
  rfl

theorem visReply_spec {v : VisRead} {vs : List VisRead} (hvis : (bellQ s q).vis = v :: vs) (hdone : visDone (bellQ s q) v = true) : let t := run (visReply q) s
    getF t BELL_VIS.SEQ q = v.seq % 2 ^ 32 ∧ (bellQ t q).vis = vs ∧ t.mem = s.mem ∧
      t.out = .resp v.who v.addr (slice (natLe v.seq 8) (v.addr.toNat % 8) v.n) :: s.out := by
  dsimp only
  rw [visReply, run_ask, hvis]
  dsimp only
  rw [hdone, if_pos rfl, run_all_cons, run_all_cons, run_all_cons, run_all_nil, (changes_respond _ _ _).getF (by decide), (changes_updBell _ _).getF (by decide),
    getF_setF_fits (by decide), bellQ_of_changes (changes_respond _ _ _) (by decide), bellQ_updBell_same]
  exact ⟨rfl, rfl, rfl, rfl⟩

end

/-- Settles O48: the record's posting alone moves the ring; with NOCQ and status 0 only the list of completed commands moves. -/
theorem nocqRecords : Obligations.NocqRecords := by
  unfold Obligations.NocqRecords
  intro s q d hnext hnocq
  have hno : d.status ≠ 0 → (eNocq d.entry && decide (d.status = 0)) = false := fun h => by rw [decide_eq_false h, Bool.and_false]
  refine ⟨fun hst => ?_, fun hst hroom hheld hfault => ?_, fun hst hfull => ⟨_, rfl, ?_⟩⟩
  · obtain ⟨hq, hmem, hregs⟩ := doneErased_spec (s := s) (q := q) d
    exact ⟨_, run (doneErased q d) s, rfl, by rw [run_postRecord hnext, run_postDone_none (by rw [hnocq, hst]; rfl)], by rw [hq],
      by rw [hq], by rw [hq], hmem, hregs⟩
  · obtain ⟨hdone, hread, htail, -⟩ := recordPosted_spec (s := s) (q := q) d
    exact ⟨_, recordPosted s q d, rfl, by rw [run_postRecord hnext, run_postDone_posts (hno hst) hroom hheld hfault], hdone, hread, htail⟩
  · rw [run_postRecord hnext, run_postDone_full (hno hst) hfull]
    exact ⟨setF_bell .., setF_mem ..⟩

/-- Settles O33, clause by clause of a queue's commands. -/
theorem bellsAndRecords : Obligations.BellsAndRecords := by
  unfold Obligations.BellsAndRecords
  refine ⟨fun s q tail hen => ?ring, fun s q hdue hheld hfault => ?entry, fun s q x h => ⟨_, rfl, rereadTimeout_spec h⟩,
    fun s q => ⟨fun h => ⟨_, rfl, bellEnable_within h⟩, fun h => ⟨_, rfl, bellEnable_refused h⟩⟩, fun s q => ⟨_, rfl, bellDisable_spec⟩, fun s q d hnext => ?complete,
    fun s q head => ?cqhead, fun s who q hon hreach => ?vis, fun s q v vs hvis hdone => ⟨_, rfl, visReply_spec hvis hdone⟩⟩
  case ring =>
    exact ⟨_, rfl, only_mem (changes_bellRing _ _).only (by decide) s, only_bell (changes_bellRing _ _).only (by decide) s, bellRing_head _, bellRing_spec hen tail⟩
  case entry =>
    refine ⟨_, rfl, entryCheck_mem hheld hfault hdue, entryCheck_match hdue hheld hfault, fun hno => ?_⟩
    rw [run_entryCheck_miss hdue hheld hfault hno]
    exact entryMiss_spec.2
  case complete =>
    refine ⟨fun h => ?_, fun h hroom hheld hfault => ?_, fun h hfull => ⟨_, rfl, ?_⟩⟩
    · obtain ⟨hq, hmem, hregs⟩ := doneErased_spec (s := s) (q := q) d
      exact ⟨_, run (doneErased q d) s, rfl, by rw [run_postRecord hnext, run_postDone_none h], congrArg BellQ.done hq, hregs, hmem⟩
    · obtain ⟨hdone, hread, htail, hvis⟩ := recordPosted_spec (s := s) (q := q) d
      exact ⟨_, recordPosted s q d, rfl, by rw [run_postRecord hnext, run_postDone_posts h hroom hheld hfault], hdone, hread, htail, hvis,
        fun hst => recordPosted_error hst,
        fun hst => ⟨recordPosted_clean hst (by decide) (by decide) _ _, recordPosted_clean hst (by decide) (by decide) _ _⟩⟩
    · rw [run_postRecord hnext, run_postDone_full h hfull]
      exact ⟨getF_setF_fits (by decide) 1 _ _ _, setF_bell .., setF_mem ..⟩
  case cqhead =>
    obtain ⟨hhead, hfull⟩ := cqHeadSet_spec (s := s) (q := q) head
    have hmem : (cqHeadSet s q head.toNat).mem = s.mem := (mem_of_changes (changes_cqStat q) (by decide) _).trans (setF_mem ..)
    have hbell : (cqHeadSet s q head.toNat).bell = s.bell := (only_bell (changes_cqStat q).only (by decide) _).trans (setF_bell ..)
    exact ⟨_, cqHeadSet s q head.toNat, rfl, run_cqHeadWrite _, hhead, hfull, hmem, hbell⟩
  case vis =>
    obtain ⟨hmem, hregs, hvis⟩ := visRead_spec who q 8 (BitVec.ofNat 48 (0xF00000100010 + 0x1000 * q.val)) s
    have haddr : (BitVec.ofNat 48 (0xF00000100010 + 0x1000 * q.val)).toNat = 0xF00000100010 + 0x1000 * q.val := by
      rw [BitVec.toNat_ofNat]
      omega
    rw [haddr] at hmem hregs hvis
    refine ⟨_, rfl, ?_⟩
    rw [run_rowRead hon hreach]
    refine ⟨hmem, hregs, hvis, fun w hw hb => ?_, fun hb => ?_⟩
    · rw [visRead_out]
      exact mem_out_each_send (g := fun w : FarWrite => .pcieRead (BitVec.ofNat 48 w.addr) 0) (List.mem_filter.mpr ⟨hw, by rw [hb]; rfl⟩) s
    · rw [visRead_out, List.filter_eq_nil_iff.mpr fun w hw => by simpa using hb w hw]
      rfl

end Sys2Proof.Machine

/-! PROOFS. Rails and lands: what a loss of power and the package's reset leave of the supply's state (R431 to R437, R446, R448). -/

namespace Sys2Proof.Machine

/-! What the package's clearing does to the parts that it does not empty. -/

/-- The parts that the package's clearing fills anew without more. -/
def clearedParts : List Part := [.regs, .mem, .log, .calendar, .tide, .tiles, .num, .sec, .upd, .cus, .tier, .coh, .bell, .link, .hural, .en, .shd, .hm]

def chartCleared (chart : Bool) (c : ChartSt) : ChartSt :=
  if chart then { c with checking := none, staged := none, waitingParts := [], appliedFirst := false, flashAddr := none, flashImage := none }
  else { slotA := c.slotA, slotB := c.slotB }

def rstCleared (r : RstSt) : RstSt := { held := [7], events := r.events, oos := r.oos, clkLost := r.clkLost }

def powCleared (chart : Bool) (p : PowSt) : PowSt :=
  { p with boot := false, fromSb := false, ready := false, xsRel := false, hmFail := false, hostFail := false, status := if chart then p.status else 0, hostImg := [] }

/-- A property of updates that the cleared parts' have, and those of chart, resets and power. -/
theorem packageClear_within {P : Prim → Prop} (hcleared : ∀ p : Prim, p.part ∈ clearedParts → P p) (ware chart : Bool) (hchart : P (.chart (chartCleared chart)))
    (hrst : P (.rst rstCleared)) (hpow : P (.pow (powCleared chart))) : (packageClear ware chart).Within P := by
  have hof : ∀ {a : Act}, Act.Changes clearedParts a → a.Within P := fun h => Act.Within.mono hcleared h.only
  have hprim : ∀ p : Prim, clearedParts.contains p.part = true → (Act.prim p).Within P := fun p hp => hcleared p (List.contains_iff_mem.mp hp)
  refine ⟨hof (changes_when ((changes_sessionEnd _ _).up rfl)), hof ((changes_sessionEnd _ _).up rfl), fun s => hof ?regs, hof (changes_ite (changes_prim rfl) (changes_prim rfl)),
    hprim _ rfl, fun s => hprim _ rfl, hchart, hprim _ rfl, hprim _ rfl, hprim _ rfl, hprim _ rfl, hprim _ rfl,
    hprim _ rfl, hprim _ rfl, hprim _ rfl, hprim _ rfl, hprim _ rfl, hprim _ rfl, fun s => hprim _ rfl,
    hprim _ rfl, hprim _ rfl, hrst, hpow, trivial⟩
  exact changes_cons (changes_prim rfl) (changes_cons (changes_each fun _ => changes_seq ((changes_setF _ _ _ _).up rfl) ((changes_setF _ _ _ _).up rfl))
    (changes_cons (changes_when (changes_cons ((changes_setF _ _ _ _).up rfl) (changes_cons ((changes_setF _ _ _ _).up rfl) (changes_cons (changes_each fun _ => (changes_setF _ _ _ _).up rfl)
      (changes_cons ((changes_setF _ _ _ _).up rfl) (changes_cons (changes_prim rfl) (changes_cons ((changes_noteReset _ _).up rfl) changes_nil))))))) changes_nil))

/-- A program leaves a part of what stands of the supply. -/
abbrev Act.KeepsPow {α : Type} (g : PowSt → α) (a : Act) : Prop := a.Within fun p => ∀ s, g (p.apply s).pow = g s.pow

theorem Act.KeepsPow.eq {α : Type} {g : PowSt → α} {a : Act} (h : a.KeepsPow g) (s : State) : g (run a s).pow = g s.pow := run_same (fun s => g s.pow) h s

theorem keepsPow_of_changes {α : Type} {g : PowSt → α} {k : List Part} {a : Act} (h : a.Changes k) (hk : Part.pow ∉ k) : a.KeepsPow g :=
  Act.Within.mono (fun p hp s => by
    have hp : Act.Only k (.prim p) := hp
    exact congrArg g (only_pow hp hk s)) h.only

/-- The supply's lands: what the package's clearing keeps of it. -/
def PowSt.lands (p : PowSt) : Bool × Bool × Bool × Bool × Bool × Bool × Bool := (p.vin, p.rails, p.standby, p.refclk, p.resetN, p.stopped, p.trip)

theorem keepsPow_packageClear (ware chart : Bool) : (packageClear ware chart).KeepsPow PowSt.lands := by
  refine packageClear_within (fun p hp s => ?_) ware chart (fun _ => rfl) (fun _ => rfl) fun _ => rfl
  exact congrArg PowSt.lands (only_pow (l := clearedParts) (a := .prim p) hp (by decide) s)

theorem keepsRst_packageClear_clkLost (ware chart : Bool) : (packageClear ware chart).KeepsRst RstSt.clkLost := by
  refine packageClear_within (fun p hp s => ?_) ware chart (fun _ => rfl) (fun _ => rfl) fun _ => rfl
  exact congrArg RstSt.clkLost (only_rst (l := clearedParts) (a := .prim p) hp (by decide) s)

/-- On exit from standby the chart in effect stays. -/
theorem packageClear_chart (ware : Bool) (s : State) : (run (packageClear ware true) s).chart.cur = s.chart.cur := by
  refine run_same (fun s => s.chart.cur) (packageClear_within (fun p hp s => ?_) ware true (fun _ => rfl) (fun _ => rfl) fun _ => rfl) s
  exact congrArg ChartSt.cur (only_chart (l := clearedParts) (a := .prim p) hp (by decide) s)

theorem keepsPow_packageReset (cause : Nat) : (packageReset cause).KeepsPow PowSt.lands := fun _ => (within_when _ _).mpr fun _ =>
  ⟨keepsPow_of_changes changes_closeFloods (by decide), keepsPow_of_changes changes_flushLog (by decide), keepsPow_of_changes changes_flashCut (by decide),
    keepsPow_packageClear _ _, fun _ => rfl, keepsPow_of_changes (changes_noteReset _ _) (by decide), trivial⟩

theorem keepsRst_packageReset_clkLost (cause : Nat) : (packageReset cause).KeepsRst RstSt.clkLost := fun _ => (within_when _ _).mpr fun _ =>
  ⟨keepsRst_of_changes changes_closeFloods (by decide), keepsRst_of_changes changes_flushLog (by decide), keepsRst_of_changes changes_flashCut (by decide),
    keepsRst_packageClear_clkLost _ _, fun _ => rfl, keepsRst_of_changes (changes_noteReset _ _) (by decide), trivial⟩

/-! A loss of the input (R432, R448). -/

/-- Every byte of warehouse and quay is zero. -/
def MemoryZero (s : State) : Prop := ∀ a, a < 2 ^ 48 → Cells.get 0 s.mem a = 0

theorem clear_zero : (Act.prim (.clear 0 (2 ^ 49))).Makes MemoryZero := fun s a ha => by
  change Cells.get 0 (s.mem.filter fun e => decide (e.1 < 0) || decide (0 + 2 ^ 49 ≤ e.1)) a = 0
  have hout : (decide (a < 0) || decide (0 + 2 ^ 49 ≤ a)) = false := by simp only [Bool.or_eq_false_iff, decide_eq_false_iff_not]; omega
  rw [Cells.get_eq_look, Cells.look_filter_key _ fun l => decide (l < 0) || decide (0 + 2 ^ 49 ≤ l), hout]
  rfl

/-- Everything but memory. -/
def notMemory : List Part := [.regs, .log, .calendar, .chart, .tide, .tiles, .num, .sec, .upd, .cus, .tier, .coh, .bell, .link, .hural, .en, .shd, .hm, .rst, .pow]

theorem memoryZero_of_changes {a : Act} (h : a.Changes notMemory) {s : State} (hs : MemoryZero s) : MemoryZero (run a s) := fun x hx => by
  rw [mem_of_changes h (by decide)]
  exact hs x hx

theorem packageClear_memoryZero (chart : Bool) : (packageClear false chart).Makes MemoryZero := by
  refine makes_later (makes_later (makes_later (makes_here clear_zero fun s h => memoryZero_of_changes ?_ h)))
  exact changes_cons (changes_prim rfl) (changes_cons (changes_ask fun _ => changes_prim rfl) (changes_cons (changes_prim rfl) (changes_cons (changes_prim rfl)
    (changes_cons (changes_prim rfl) (changes_cons (changes_prim rfl) (changes_cons (changes_prim rfl) (changes_cons (changes_prim rfl) (changes_cons (changes_prim rfl)
    (changes_cons (changes_prim rfl) (changes_cons (changes_prim rfl) (changes_cons (changes_prim rfl) (changes_cons (changes_prim rfl) (changes_cons (changes_prim rfl)
    (changes_cons (changes_ask fun _ => changes_prim rfl) (changes_cons (changes_prim rfl) (changes_cons (changes_prim rfl) (changes_cons (changes_prim rfl)
    (changes_cons (changes_prim rfl) changes_nil))))))))))))))))))

/-- What follows the clearing at a loss of power: RST_STAT, ID_DIEMAP, the logbook's count, calendar time and the stopped rails. -/
def lossShown : Act :=
  Act.all [noteReset 7 0x0A, .prim (.reg .ID_DIEMAP 0 0 0xFFF),
    .ask fun s => .prim (.log fun l => { l with count := (s.flashLog.map fun r => r.index + 1).foldl max 0, full := s.flashLog.any (fun r => r.kind = .logFull), tallies := l.savedTallies }),
    .ask fun s => Act.when (!s.pow.standby) (updTime fun _ => { at_ := s.now }),
    updPow fun p => { p with rails := false, stopped := true }]

theorem changes_lossShown : Act.Changes [.regs, .log, .calendar, .pow] lossShown :=
  changes_cons ((changes_noteReset _ _).up rfl) (changes_cons (changes_prim rfl) (changes_cons (changes_ask fun _ => changes_prim rfl)
    (changes_cons (changes_ask fun _ => changes_when ((changes_updTime _).up rfl)) (changes_cons ((changes_updPow _).up rfl) changes_nil))))

theorem writes_lossShown : Act.Writes [.ID_DIEMAP] (Act.all [.prim (.reg .ID_DIEMAP 0 0 0xFFF),
    .ask fun s => .prim (.log fun l => { l with count := (s.flashLog.map fun r => r.index + 1).foldl max 0, full := s.flashLog.any (fun r => r.kind = .logFull), tallies := l.savedTallies }),
    .ask fun s => Act.when (!s.pow.standby) (updTime fun _ => { at_ := s.now }),
    updPow fun p => { p with rails := false, stopped := true }]) :=
  ⟨List.mem_singleton.mpr rfl, fun _ => trivial, fun _ => (within_when _ _).mpr fun _ => trivial, trivial, trivial⟩

section
variable {s : State}

theorem run_powerLoss (s : State) : run powerLoss s = run lossShown (run (packageClear false false) (run flashCut s)) := by
  rw [powerLoss, run_all_cons, run_all_cons, lossShown]

theorem powerLoss_zero : MemoryZero (run powerLoss s) := by
  rw [run_powerLoss]
  exact memoryZero_of_changes (changes_lossShown.up rfl) (packageClear_memoryZero false _)

theorem lossShown_pow : (run lossShown s).pow = { s.pow with rails := false, stopped := true } := by
  simp only [lossShown, run_all_cons, run_all_nil, run_ask, run_when]
  rw [updPow, run_prim, Prim.pow_pow]
  split
  · rw [only_pow (changes_updTime _).only (by decide), run_prim, Prim.log_pow, run_prim, Prim.reg_pow, only_pow (changes_noteReset _ _).only (by decide)]
  · rw [run_prim, Prim.log_pow, run_prim, Prim.reg_pow, only_pow (changes_noteReset _ _).only (by decide)]

theorem powerLoss_pow : (run powerLoss s).pow.rails = false ∧ (run powerLoss s).pow.stopped = true ∧ (run powerLoss s).pow.vin = s.pow.vin := by
  rw [run_powerLoss, lossShown_pow]
  refine ⟨rfl, rfl, ?_⟩
  have hlands := (keepsPow_packageClear false false).eq (run flashCut s)
  rw [only_pow changes_flashCut.only (by decide)] at hlands
  exact congrArg Prod.fst hlands

theorem powerLoss_shown : getF (run powerLoss s) RST_STAT.DOMAIN = 7 ∧ getF (run powerLoss s) RST_STAT.CAUSE = 0x0A ∧ (run powerLoss s).rst.held = [7] := by
  rw [run_powerLoss]
  refine ⟨?_, ?_, ?_⟩
  · rw [lossShown, run_all_cons, writes_lossShown.getF (by decide), (noteReset_spec (by decide) (by decide) _).1]
  · rw [lossShown, run_all_cons, writes_lossShown.getF (by decide), (noteReset_spec (by decide) (by decide) _).2]
  · rw [only_rst changes_lossShown.only (by decide), packageClear_held]

/-! The package is released once its rails, its land and its reference are there. -/

theorem resetRelease_package_mem : (run (resetRelease 7) s).mem = s.mem := by
  cases h : isHeld s 7 with
  | false => rw [run_resetRelease_free h]
  | true =>
    cases hup : s.pow.rails && !s.pow.resetN && s.pow.refclk with
    | false => rw [run_resetRelease_package_stays h hup]
    | true =>
      simp only [Bool.and_eq_true, Bool.not_eq_true'] at hup
      obtain ⟨⟨hrails, hland⟩, hclk⟩ := hup
      exact (packageReleased_spec h hrails hland hclk).2.2.2

/-- The release touches nothing of the supply but the boot that is to come. -/
theorem resetRelease_package_pow : (run (resetRelease 7) s).pow.lands = s.pow.lands ∧ (0 ∉ s.rst.clkLost → 0 ∉ (run (resetRelease 7) s).rst.clkLost) := by
  cases h : isHeld s 7 with
  | false =>
    rw [run_resetRelease_free h]
    exact ⟨rfl, id⟩
  | true =>
    cases hup : s.pow.rails && !s.pow.resetN && s.pow.refclk with
    | false =>
      rw [run_resetRelease_package_stays h hup]
      exact ⟨rfl, id⟩
    | true =>
      rw [run_resetRelease_package h hup, run_all_cons, run_all_cons, run_all_cons, run_all_nil]
      exact ⟨rfl, fun _ => List.not_mem_nil⟩

end

end Sys2Proof.Machine

/-! PROOFS. The commands of rails and lands, and of the board over I3C (R321, R334, R431 to R448). -/

namespace Sys2Proof.Machine

section
variable {s : State}

/-! The input and its converters. -/

theorem run_vinRise (hvin : s.pow.vin = false) (hgo : s.pow.stopped = false) :
    run vinRise s = run (Act.when (!s.pow.standby) (updTime fun _ => { at_ := s.now })) (run (updPow fun p => { p with vin := true }) s) := by
  rw [vinRise, run_ask, hvin, hgo]
  rfl

theorem vinRise_spec (hvin : s.pow.vin = false) (hgo : s.pow.stopped = false) :
    (run vinRise s).pow = { s.pow with vin := true } ∧ (run vinRise s).regs = s.regs ∧ (run vinRise s).mem = s.mem := by
  have htime : Act.Changes [.calendar] (Act.when (!s.pow.standby) (updTime fun _ => { at_ := s.now })) := changes_when (changes_updTime _)
  rw [run_vinRise hvin hgo, only_pow htime.only (by decide), only_regs htime.only (by decide), only_mem htime.only (by decide)]
  exact ⟨rfl, rfl, rfl⟩

theorem run_vinRise_not (h : s.pow.vin = true ∨ s.pow.stopped = true) : run vinRise s = s := by
  rw [vinRise, run_ask, run_when, if_neg]
  rcases h with h | h <;> simp [h]

theorem run_convertersReady (hvin : s.pow.vin = true) (hgo : s.pow.stopped = false) (hrails : s.pow.rails = false) :
    run convertersReady s = run (resetRelease 7) (run (updPow fun p => { p with rails := true }) s) := by
  rw [convertersReady, run_ask, hvin, hgo, hrails]
  rfl

theorem run_convertersReady_not (h : s.pow.vin = false ∨ s.pow.stopped = true ∨ s.pow.rails = true) : run convertersReady s = s := by
  rw [convertersReady, run_ask, run_when, if_neg]
  rcases h with h | h | h <;> simp [h]

theorem convertersReady_spec (hvin : s.pow.vin = true) (hgo : s.pow.stopped = false) (hrails : s.pow.rails = false) :
    (run convertersReady s).pow.rails = true ∧ (run convertersReady s).mem = s.mem ∧
      (isHeld s 7 = true → s.pow.resetN = false → s.pow.refclk = true → (run convertersReady s).rst.held = [1, 6] ∧ (run convertersReady s).pow.boot = true) := by
  rw [run_convertersReady hvin hgo hrails]
  have hlands := (resetRelease_package_pow (s := run (updPow fun p => { p with rails := true }) s)).1
  refine ⟨congrArg (fun l => l.2.1) hlands, resetRelease_package_mem, fun hheld hland hclk => ?_⟩
  obtain ⟨hrst, hboot, -, -⟩ := packageReleased_spec (s := run (updPow fun p => { p with rails := true }) s) hheld rfl hland hclk
  exact ⟨hrst, hboot⟩

theorem run_vinOut (hvin : s.pow.vin = true) : run vinOut s = run powerLoss (run (updPow fun p => { p with vin := false }) s) := by
  rw [vinOut, run_ask, hvin]
  rfl

theorem run_vinOut_not (hvin : s.pow.vin = false) : run vinOut s = s := by
  rw [vinOut, run_ask, hvin]
  rfl

theorem vinOut_spec (hvin : s.pow.vin = true) : let t := run vinOut s
    t.pow.vin = false ∧ t.pow.rails = false ∧ t.pow.stopped = true ∧ getF t RST_STAT.DOMAIN = 7 ∧ getF t RST_STAT.CAUSE = 0x0A ∧ t.rst.held = [7] ∧
      MemoryZero t ∧ t.life = s.life ∧ t.floor = s.floor ∧ t.flashLog = s.flashLog := by
  obtain ⟨hrails, hstopped, hin⟩ := powerLoss_pow (s := run (updPow fun p => { p with vin := false }) s)
  obtain ⟨hdom, hcause, hheld⟩ := powerLoss_shown (s := run (updPow fun p => { p with vin := false }) s)
  dsimp only
  rw [run_vinOut hvin]
  refine ⟨hin, hrails, hstopped, hdom, hcause, hheld, powerLoss_zero, ?_, ?_, ?_⟩
  · exact only_life changes_powerLoss.only (by decide) _
  · exact only_floor changes_powerLoss.only (by decide) _
  · exact only_flashLog changes_powerLoss.only (by decide) _

/-- What a loss of power makes of a state with running rails, and its absence of one without. -/
theorem lossWhen_spec (s : State) : (s.pow.rails = true → (run (Act.when s.pow.rails powerLoss) s).pow.rails = false ∧ MemoryZero (run (Act.when s.pow.rails powerLoss) s)) ∧
    (s.pow.rails = false → run (Act.when s.pow.rails powerLoss) s = s) := by
  refine ⟨fun h => ?_, fun h => ?_⟩
  · rw [run_when, if_pos h]
    exact ⟨powerLoss_pow.1, powerLoss_zero⟩
  · rw [run_when, h, if_neg Bool.false_ne_true]

theorem run_vinDischarged (s : State) : run vinDischarged s = run (updPow fun p => { p with vin := false, stopped := false, trip := false }) (run (Act.when s.pow.rails powerLoss) s) := rfl

theorem vinDischarged_spec (s : State) : let t := run vinDischarged s
    t.pow.vin = false ∧ t.pow.stopped = false ∧ t.pow.trip = false ∧ (s.pow.rails = true → t.pow.rails = false ∧ MemoryZero t) ∧
      (s.pow.rails = false → t.mem = s.mem ∧ t.regs = s.regs) := by
  obtain ⟨hlost, hkept⟩ := lossWhen_spec s
  dsimp only
  rw [run_vinDischarged]
  refine ⟨rfl, rfl, rfl, fun h => hlost h, fun h => ?_⟩
  rw [hkept h]
  exact ⟨rfl, rfl⟩

/-- A thermal trip. -/
def thermTrip : Act := .seq (.given (fun s => s.pow.rails) powerLoss) (updPow fun p => { p with trip := true, stopped := true })

theorem run_thermTrip (s : State) : run thermTrip s = run (updPow fun p => { p with trip := true, stopped := true }) (run (Act.when s.pow.rails powerLoss) s) := by
  rw [thermTrip, run_seq, run_given, run_when]

theorem thermTrip_spec (s : State) : (run thermTrip s).pow.trip = true ∧ (run thermTrip s).pow.stopped = true ∧
    (s.pow.rails = true → (run thermTrip s).pow.rails = false ∧ MemoryZero (run thermTrip s)) ∧
      (s.pow.rails = false → (run thermTrip s).mem = s.mem ∧ (run thermTrip s).regs = s.regs) := by
  obtain ⟨hlost, hkept⟩ := lossWhen_spec s
  rw [run_thermTrip]
  refine ⟨rfl, rfl, fun h => hlost h, fun h => ?_⟩
  rw [hkept h]
  exact ⟨rfl, rfl⟩

/-! The standby rail (R435). -/

theorem run_standbyLost (h : s.pow.standby = true) :
    run standbyLost s = run (if s.pow.vin then logEv .standbyLost else updTime fun _ => { at_ := s.now }) (run (updPow fun p => { p with standby := false }) s) := by
  rw [standbyLost, run_ask, h]
  rfl

theorem standbyLost_with (h : s.pow.standby = true) (hvin : s.pow.vin = true) : let t := run standbyLost s
    t.pow = { s.pow with standby := false } ∧ t.time = s.time ∧ t.regs = s.regs ∧ Safety.Logged .standbyLost s t ∧ t.mem = s.mem := by
  have hlog := changes_logEv .standbyLost 0xFF 0xFFFF []
  dsimp only
  rw [run_standbyLost h, if_pos hvin, only_pow hlog.only (by decide), only_time hlog.only (by decide), only_regs hlog.only (by decide), only_mem hlog.only (by decide)]
  exact ⟨rfl, rfl, rfl, logged_logEv (by decide) _ _ _ rfl, rfl⟩

theorem standbyLost_without (h : s.pow.standby = true) (hvin : s.pow.vin = false) : let t := run standbyLost s
    t.pow.standby = false ∧ t.time = { at_ := s.now } ∧ t.regs = s.regs ∧ t.mem = s.mem := by
  dsimp only
  rw [run_standbyLost h, if_neg (by rw [hvin]; exact Bool.false_ne_true)]
  exact ⟨rfl, rfl, rfl, rfl⟩

theorem run_standbyBack (h : s.pow.standby = false) :
    run standbyBack s = run (Act.when (!s.pow.vin) (updTime fun _ => { at_ := s.now })) (run (updPow fun p => { p with standby := true }) s) := by
  rw [standbyBack, run_ask, h]
  rfl

theorem standbyBack_spec (h : s.pow.standby = false) : let t := run standbyBack s
    t.pow.standby = true ∧ t.regs = s.regs ∧ t.mem = s.mem ∧ (s.pow.vin = true → t.time = s.time) := by
  have htime : Act.Changes [.calendar] (Act.when (!s.pow.vin) (updTime fun _ => { at_ := s.now })) := changes_when (changes_updTime _)
  dsimp only
  rw [run_standbyBack h, only_pow htime.only (by decide), only_regs htime.only (by decide), only_mem htime.only (by decide)]
  refine ⟨rfl, rfl, rfl, fun hvin => ?_⟩
  rw [hvin]
  rfl

/-! The reset land (R436). -/

theorem run_resetLand (s : State) : run resetLand s =
    run (.given (fun s => isHeld s 7 && s.pow.rails) (noteReset 7 7)) (run (packageReset 7) (run (updPow fun p => { p with resetN := true }) s)) := by
  rw [resetLand, run_all_cons, run_all_cons, run_all_cons, run_all_nil]

theorem changes_landNoted : Act.Changes [.regs] (.given (fun s => isHeld s 7 && s.pow.rails) (noteReset 7 7)) := changes_given (changes_noteReset _ _)

theorem resetLand_low (s : State) : (run resetLand s).pow.resetN = true := by
  have hlands := (keepsPow_packageReset 7).eq (run (updPow fun p => { p with resetN := true }) s)
  rw [run_resetLand, only_pow changes_landNoted.only (by decide)]
  exact congrArg (fun l => l.2.2.2.2.1) hlands

/-- Naming the reset again shows the same. -/
theorem landNoted_shown (hdom : getF s RST_STAT.DOMAIN = 7) (hcause : getF s RST_STAT.CAUSE = 7) :
    getF (run (.given (fun s => isHeld s 7 && s.pow.rails) (noteReset 7 7)) s) RST_STAT.DOMAIN = 7 ∧
      getF (run (.given (fun s => isHeld s 7 && s.pow.rails) (noteReset 7 7)) s) RST_STAT.CAUSE = 7 := by
  rw [run_given]
  split
  · exact noteReset_spec (by decide) (by decide) s
  · exact ⟨hdom, hcause⟩

theorem resetLand_resets (h : isHeld s 7 = false) : let t := run resetLand s
    t.pow.resetN = true ∧ t.rst.held = [7] ∧ getF t RST_STAT.DOMAIN = 7 ∧ getF t RST_STAT.CAUSE = 7 ∧ ∀ a, a < 2 ^ 40 → Cells.get 0 t.mem a = Cells.get 0 s.mem a := by
  obtain ⟨hheld, hdom, hcause, -, hmem, -⟩ := rstCtlPkg_spec (s := run (updPow fun p => { p with resetN := true }) s) h (cause := 7) (by decide)
  have hshown := landNoted_shown hdom hcause
  refine ⟨resetLand_low s, ?_, ?_, ?_, fun a ha => ?_⟩
  · rw [run_resetLand, only_rst changes_landNoted.only (by decide), hheld]
  · rw [run_resetLand]
    exact hshown.1
  · rw [run_resetLand]
    exact hshown.2
  · rw [run_resetLand, only_mem changes_landNoted.only (by decide)]
    exact hmem a ha

theorem resetLand_joins (h : isHeld s 7 = true) : let t := run resetLand s
    t.pow.resetN = true ∧ t.rst = s.rst ∧ t.mem = s.mem ∧ (s.pow.rails = true → getF t RST_STAT.CAUSE = 7) := by
  have hjoin := run_packageReset_joined (s := run (updPow fun p => { p with resetN := true }) s) h 7
  dsimp only
  refine ⟨resetLand_low s, ?_, ?_, fun hrails => ?_⟩
  · rw [run_resetLand, hjoin, only_rst changes_landNoted.only (by decide)]
    rfl
  · rw [run_resetLand, hjoin, only_mem changes_landNoted.only (by decide)]
    rfl
  · rw [run_resetLand, hjoin, run_given, if_pos]
    · exact (noteReset_spec (by decide) (by decide) _).2
    · change (isHeld s 7 && s.pow.rails) = true
      rw [h, hrails]
      rfl

theorem run_resetNLow_short {ns : Nat} (h : ns < 1000) : run (resetNLow ns) s = s := by
  rw [resetNLow, if_pos h]
  rfl

theorem run_resetNLow_long {ns : Nat} (h : 10000 ≤ ns) : run (resetNLow ns) s = run resetLand s := by
  rw [resetNLow, if_neg (by omega), if_pos h]

theorem resetNLow_between {ns : Nat} (hlo : 1000 ≤ ns) (hhi : ns < 10000) : let t := run (resetNLow ns) s
    t.pow.resetN = true ∨ t.pow = s.pow ∧ t.rst = s.rst ∧ t.regs = s.regs ∧ t.mem = s.mem := by
  dsimp only
  rw [resetNLow, if_neg (by omega), if_neg (by omega), run_withFree]
  split
  · exact .inl (resetLand_low s)
  · exact .inr ⟨rfl, rfl, rfl, rfl⟩

/-- A land or a reference that returns, then the release of the package. -/
theorem released_spec {f : PowSt → PowSt} {m : State} (hlands : m.pow = f s.pow) (hheld : m.rst.held = s.rst.held) (hup : isHeld s 7 = true → (f s.pow).rails = true ∧ (f s.pow).resetN = false ∧ (f s.pow).refclk = true) :
    isHeld s 7 = true → (run (resetRelease 7) m).rst.held = [1, 6] ∧ (run (resetRelease 7) m).pow.boot = true := fun h => by
  obtain ⟨hrails, hland, hclk⟩ := hup h
  obtain ⟨hrst, hboot, -, -⟩ := packageReleased_spec (s := m) (by rw [isHeld, hheld]; exact h) (by rw [hlands, hrails]) (by rw [hlands, hland]) (by rw [hlands, hclk])
  exact ⟨hrst, hboot⟩

/-! The reference (R437). -/

/-- What the monitor notes of the reference's loss. -/
def refNoted : Act :=
  Act.all [updRst fun r => { r with clkLost := if r.clkLost.contains 0 then r.clkLost else 0 :: r.clkLost }, evt CLK_LOSS.REF, logEv .clockLost 0xFF (data := [0]),
    updPow fun p => { p with refclk := false }]

theorem run_clockLost_ref (s : State) : run (clockLost 0) s = run (packageReset 9) (run refNoted s) := by
  simp only [clockLost, refNoted, run_all_cons, run_all_nil, run_seq, if_true, updPow]
  rfl

theorem refNoted_spec (s : State) : (run refNoted s).pow = { s.pow with refclk := false } ∧ 0 ∈ (run refNoted s).rst.clkLost ∧ (run refNoted s).rst.held = s.rst.held ∧
    getF (run refNoted s) CLK_LOSS.REF = 1 ∧ Safety.Logged .clockLost s (run refNoted s) ∧ (run refNoted s).mem = s.mem := by
  have hlog := changes_logEv .clockLost 0xFF 0xFFFF [0]
  rw [refNoted, run_all_cons, run_all_cons, run_all_cons, run_all_cons, run_all_nil]
  refine ⟨?_, ?_, ?_, ?_, ?_, ?_⟩
  · rw [updPow, run_prim, Prim.pow_pow, only_pow hlog.only (by decide), only_pow (changes_evt _ _ _).only (by decide), only_pow (changes_updRst _).only (by decide)]
  · rw [only_rst (changes_updPow _).only (by decide), only_rst hlog.only (by decide), only_rst (changes_evt _ _ _).only (by decide)]
    change 0 ∈ if s.rst.clkLost.contains 0 then s.rst.clkLost else 0 :: s.rst.clkLost
    split
    case isTrue h => exact List.contains_iff_mem.mp h
    case isFalse => exact List.mem_cons_self
  · rw [only_rst (changes_updPow _).only (by decide), only_rst hlog.only (by decide), only_rst (changes_evt _ _ _).only (by decide)]
    rfl
  · rw [(changes_updPow _).getF (by decide), hlog.getF (by decide), getF_evt_fits (by decide)]
    rfl
  · have hlogged := logged_logEv (k := .clockLost) (by decide) 0xFF 0xFFFF [0] (s := s) (t := run (evt CLK_LOSS.REF)
      (run (updRst fun r => { r with clkLost := if r.clkLost.contains 0 then r.clkLost else 0 :: r.clkLost }) s)) (evt_tally ..)
    rw [Safety.Logged, (changes_updPow _).tally (by decide)]
    exact hlogged
  · rw [only_mem (changes_updPow _).only (by decide), only_mem hlog.only (by decide), only_mem (changes_evt _ _ _).only (by decide), only_mem (changes_updRst _).only (by decide)]

theorem refclkLost_resets (h : isHeld s 7 = false) : let t := run (clockLost 0) s
    t.pow.refclk = false ∧ 0 ∈ t.rst.clkLost ∧ t.rst.held = [7] ∧ getF t RST_STAT.DOMAIN = 7 ∧ getF t RST_STAT.CAUSE = 9 := by
  obtain ⟨hpow, hlost, hheld, -, -, -⟩ := refNoted_spec s
  obtain ⟨hrst, hdom, hcause, -⟩ := rstCtlPkg_spec (s := run refNoted s) ((isHeld_of_rst hheld 7).trans h) (cause := 9) (by decide)
  have hlands := (keepsPow_packageReset 9).eq (run refNoted s)
  have hclk := (keepsRst_packageReset_clkLost 9).eq (run refNoted s)
  dsimp only
  rw [run_clockLost_ref]
  refine ⟨?_, hclk ▸ hlost, hrst, hdom, hcause⟩
  rw [hpow] at hlands
  exact congrArg (fun l => l.2.2.2.1) hlands

theorem refclkLost_joins (h : isHeld s 7 = true) : let t := run (clockLost 0) s
    t.pow.refclk = false ∧ 0 ∈ t.rst.clkLost ∧ getF t CLK_LOSS.REF = 1 ∧ Safety.Logged .clockLost s t ∧ t.mem = s.mem := by
  obtain ⟨hpow, hlost, hheld, hreg, hlog, hmem⟩ := refNoted_spec s
  dsimp only
  rw [run_clockLost_ref, run_packageReset_joined ((isHeld_of_rst hheld 7).trans h)]
  exact ⟨congrArg PowSt.refclk hpow, hlost, hreg, hlog, hmem⟩

/-- The reference is back, before the release. -/
def refBack : Act := .seq (updPow fun p => { p with refclk := true }) (updRst fun r => { r with clkLost := r.clkLost.filter fun k => k ≠ 0 })

theorem run_refclkBack (s : State) : run refclkBack s = run (resetRelease 7) (run refBack s) := by
  rw [refclkBack, run_all_cons, run_all_cons, run_all_cons, run_all_nil, refBack, run_seq]

theorem refclkBack_spec (s : State) : let t := run refclkBack s
    t.pow.refclk = true ∧ 0 ∉ t.rst.clkLost ∧ t.mem = s.mem ∧ (isHeld s 7 = true → s.pow.rails = true → s.pow.resetN = false → t.rst.held = [1, 6] ∧ t.pow.boot = true) := by
  obtain ⟨hlands, hclk⟩ := resetRelease_package_pow (s := run refBack s)
  have hnot : 0 ∉ (run refBack s).rst.clkLost := fun h => by
    have hne := (List.mem_filter.mp (show 0 ∈ s.rst.clkLost.filter fun k => k ≠ 0 from h)).2
    exact absurd hne (by decide)
  dsimp only
  rw [run_refclkBack]
  exact ⟨congrArg (fun l => l.2.2.2.1) hlands, hclk hnot, resetRelease_package_mem,
    fun h hrails hland => released_spec (f := fun p => { p with refclk := true }) (m := run refBack s) rfl rfl (fun _ => ⟨hrails, hland, rfl⟩) h⟩

/-- RESET_N goes high. -/
def landHigh : Act := updPow fun p => { p with resetN := false }

theorem landHigh_spec (s : State) : let t := run (resetRelease 7) (run landHigh s)
    t.pow.resetN = false ∧ t.mem = s.mem ∧ (isHeld s 7 = true → s.pow.rails = true → s.pow.refclk = true → t.rst.held = [1, 6] ∧ t.pow.boot = true) := by
  obtain ⟨hlands, -⟩ := resetRelease_package_pow (s := run landHigh s)
  exact ⟨congrArg (fun l => l.2.2.2.2.1) hlands, resetRelease_package_mem,
    fun h hrails hclk => released_spec (f := fun p => { p with resetN := false }) (m := run landHigh s) rfl rfl (fun _ => ⟨hrails, rfl, hclk⟩) h⟩

end

/-- Settles O46, land by land. -/
theorem railsAndLands : Obligations.RailsAndLands := by
  unfold Obligations.RailsAndLands
  refine ⟨fun s => ⟨fun hvin hgo => ⟨_, rfl, vinRise_spec hvin hgo⟩, fun h => ⟨_, rfl, run_vinRise_not h⟩, fun hvin hgo hrails => ⟨_, rfl, convertersReady_spec hvin hgo hrails⟩,
      fun h => ⟨_, rfl, run_convertersReady_not h⟩, fun hvin => ⟨_, rfl, vinOut_spec hvin⟩, fun hvin => ⟨_, rfl, run_vinOut_not hvin⟩⟩,
    fun s => ⟨_, rfl, vinDischarged_spec s⟩,
    fun s => ⟨fun h hvin => ⟨_, rfl, standbyLost_with h hvin⟩, fun h hvin => ⟨_, rfl, standbyLost_without h hvin⟩, fun h => ⟨⟨_, rfl, ?_⟩, _, rfl, standbyBack_spec h⟩, fun h => ⟨_, rfl, ?_⟩⟩,
    fun s ns => ⟨fun h => ⟨_, rfl, run_resetNLow_short h⟩, fun h hheld => ⟨_, rfl, ?_⟩, fun h hheld => ⟨_, rfl, ?_⟩, fun hlo hhi => ⟨_, rfl, resetNLow_between hlo hhi⟩, _, rfl, landHigh_spec s⟩,
    fun s => ⟨fun h => ⟨_, rfl, refclkLost_resets h⟩, fun h => ⟨_, rfl, refclkLost_joins h⟩, ⟨_, rfl, refclkBack_spec s⟩, _, rfl, thermTrip_spec s⟩⟩
  · rw [standbyLost, run_ask, run_when, h, if_neg Bool.false_ne_true]
  · rw [standbyBack, run_ask, run_when, h, if_neg (by decide)]
  · rw [run_resetNLow_long h]
    exact resetLand_resets hheld
  · rw [run_resetNLow_long h]
    exact resetLand_joins hheld

end Sys2Proof.Machine

/-! PROOFS. The board's commands over I3C (R321, R334, R414, R440). -/

namespace Sys2Proof.Machine

section
variable {s : State}

/-- The package answers while its converters run. -/
theorem run_i3c_on (h : s.pow.rails = true) (a : Act) : run (i3c a) s = run a s := by rw [i3c, run_ask, if_pos h]

/-- It does not acknowledge while they are off (log 40). -/
theorem run_i3c_off (h : s.pow.rails = false) (a : Act) : run (i3c a) s = { s with out := .i3cNack :: s.out } := by
  rw [i3c, run_ask, h, if_neg Bool.false_ne_true]
  rfl

theorem run_i3cGet (h : s.pow.rails = true) (f : State → List Byte) : run (i3cGet f) s = { s with out := .i3cData (f s) :: s.out } := by
  rw [i3cGet, run_i3c_on h]
  rfl

theorem i3cTemp_spec (h : s.pow.rails = true) : ∃ v, let t := run (i3c (withFree fun pick => send (.i3cData (natLe (pick 0) 2)))) s
    t.out = .i3cData (natLe v 2) :: s.out ∧ t.regs = s.regs ∧ t.mem = s.mem := by
  refine ⟨Config.freeValue s.free 0, ?_⟩
  dsimp only
  rw [run_i3c_on h, run_withFree]
  exact ⟨rfl, rfl, rfl⟩

theorem run_statusIbi (h : s.pow.rails = true) (hnew : statusNow s ≠ s.pow.status) :
    run statusIbi s = run (updPow fun p => { p with status := statusNow s }) (run (send (.i3cInterrupt (BitVec.ofNat 8 (statusNow s)))) s) := by
  rw [statusIbi, run_ask, run_when, h, decide_eq_true hnew, Bool.and_self, if_pos rfl, run_seq]

theorem run_statusIbi_same (h : statusNow s = s.pow.status) : run statusIbi s = s := by
  rw [statusIbi, run_ask, run_when, decide_eq_false (not_not_intro h), Bool.and_false, if_neg Bool.false_ne_true]

theorem run_statusIbi_off (h : s.pow.rails = false) : run statusIbi s = s := by
  rw [statusIbi, run_ask, run_when, h, Bool.false_and, if_neg Bool.false_ne_true]

theorem capSust_spec (h : s.pow.rails = true) (w : BitVec 16) : let t := run (capSust w.toNat) s
    getF t EN_BOARD.I3CSUST = w.toNat ∧ getF t EN_BOARD.I3CV = 1 ∧ t.en.sustSeen = true ∧ t.mem = s.mem := by
  dsimp only
  rw [capSust, run_i3c_on h, run_all_cons, run_all_cons, run_all_cons, run_all_nil, (changes_updEn _).getF (by decide), (changes_updEn _).getF (by decide),
    getF_setF_apart (by decide), getF_setF_fits (by decide), getF_setF_fits (by decide), mem_of_changes (changes_updEn _) (by decide), setF_mem, setF_mem]
  exact ⟨Nat.mod_eq_of_lt w.isLt, rfl, rfl, rfl⟩

theorem capExc_spec (h : s.pow.rails = true) (w : BitVec 16) : let t := run (capExc w.toNat) s
    getF t EN_BOARD.I3CEXC = w.toNat ∧ getF t EN_BOARD.I3CV = 1 ∧ t.en.excSeen = true ∧ t.mem = s.mem := by
  dsimp only
  rw [capExc, run_i3c_on h, run_all_cons, run_all_cons, run_all_cons, run_all_nil, (changes_updEn _).getF (by decide), (changes_updEn _).getF (by decide),
    getF_setF_apart (by decide), getF_setF_fits (by decide), getF_setF_fits (by decide), mem_of_changes (changes_updEn _) (by decide), setF_mem, setF_mem]
  exact ⟨Nat.mod_eq_of_lt w.isLt, rfl, rfl, rfl⟩

/-! Standby ends (R334). -/

theorem packageClear_sb : (packageClear true true).Makes fun s => s.en.sb = .off := by
  iterate 17 refine makes_later ?_
  refine makes_here (fun _ => rfl) fun s h => ?_
  refine (congrArg EnSt.sb (only_en (l := [.shd, .hm, .sec, .rst, .pow]) (Act.Changes.only ?_) (by decide) s)).trans h
  exact changes_cons (changes_ask fun _ => changes_prim rfl) (changes_cons (changes_prim rfl) (changes_cons (changes_prim rfl) (changes_cons (changes_prim rfl)
    (changes_cons (changes_prim rfl) changes_nil))))

/-- What follows the clearing on exit from standby. -/
def sbLeft : Act := Act.all [updRst fun r => { r with held := [1, 6] }, .prim (.reg .ID_DIEMAP 0 0 0x300), updPow fun p => { p with boot := true, fromSb := true }]

theorem changes_sbLeft : Act.Changes [.rst, .regs, .pow] sbLeft :=
  changes_cons ((changes_updRst _).up rfl) (changes_cons (changes_prim rfl) (changes_cons ((changes_updPow _).up rfl) changes_nil))

theorem sbLeft_spec (m : State) : (run sbLeft m).rst.held = [1, 6] ∧ (run sbLeft m).pow.boot = true ∧ (run sbLeft m).pow.fromSb = true := by
  rw [sbLeft, run_all_cons, run_all_cons, run_all_cons, run_all_nil, only_rst (changes_updPow _).only (by decide), run_prim, Prim.reg_rst, updRst, run_prim, Prim.rst_rst,
    updPow, run_prim, Prim.pow_pow]
  exact ⟨rfl, rfl, rfl⟩

theorem run_sbLeave (s : State) : run sbLeave s = run sbLeft (run (packageClear true true) s) := by rw [sbLeave, run_all_cons, sbLeft]

theorem sbLeave_spec (s : State) : let t := run sbLeave s
    t.en.sb = .off ∧ t.rst.held = [1, 6] ∧ t.pow.boot = true ∧ t.pow.fromSb = true ∧ t.chart.cur = s.chart.cur ∧
      ∀ a, a < 2 ^ 40 → Cells.get 0 t.mem a = Cells.get 0 s.mem a := by
  have hkept : packageKept (run (packageClear true true) s) = packageKept s := run_same packageKept (keepsPackage_packageClear true) s
  have hsb : (run (packageClear true true) s).en.sb = .off := packageClear_sb s
  have hchart := packageClear_chart true s
  dsimp only
  rw [run_sbLeave]
  generalize run (packageClear true true) s = m at hkept hsb hchart
  obtain ⟨hheld, hboot, hfrom⟩ := sbLeft_spec m
  rw [only_en changes_sbLeft.only (by decide), only_chart changes_sbLeft.only (by decide), only_mem changes_sbLeft.only (by decide)]
  exact ⟨hsb, hheld, hboot, hfrom, hchart, fun a ha => mem_of_packageKept hkept ha⟩

/-! The host image (R414). -/

theorem run_hostImage_nack {bs : List Byte} (h : s.pow.rails = false ∨ s.pow.hostFail = false ∨ 4096 < bs.length) : run (hostImage bs) s = { s with out := .i3cNack :: s.out } := by
  rw [hostImage, run_ask, if_pos]
  · rfl
  · rcases h with h | h | h <;> simp [h]

theorem run_hostImage_taken {bs : List Byte} (hrails : s.pow.rails = true) (hfail : s.pow.hostFail = true) (hlen : bs.length ≤ 4096) :
    run (hostImage bs) s = run (if bs.isEmpty then hostImageEnd else updPow fun p => { p with hostImg := p.hostImg ++ bs }) s := by
  rw [hostImage, run_ask, if_neg]
  simp [hrails, hfail, hlen]

/-- The image is taken off its buffer before it is judged. -/
def imageTaken (s : State) : State := { s with pow := { s.pow with hostImg := [] } }

theorem hostImageEnd_refused (hfail : s.pow.hostFail = true) (h : fwPasses s 3 s.pow.hostImg = false) : let t := run hostImageEnd s
    getF t SEC_EVT.HOSTFAIL = 1 ∧ t.pow.hostImg = [] ∧ t.pow.hostFail = true ∧ Safety.Logged .imageFailed s t ∧ t.sec = s.sec ∧ t.mem = s.mem := by
  have hrun : run hostImageEnd s = run (logEv .imageFailed) (run (evt SEC_EVT.HOSTFAIL) (imageTaken s)) := by
    rw [hostImageEnd, run_ask]
    dsimp only
    rw [run_seq, h, if_neg Bool.false_ne_true, run_seq]
    rfl
  have hlog := changes_logEv .imageFailed 0xFF 0xFFFF []
  dsimp only
  rw [hrun, hlog.getF (by decide), getF_evt_fits (by decide), only_pow hlog.only (by decide), only_sec hlog.only (by decide), only_mem hlog.only (by decide)]
  exact ⟨rfl, rfl, hfail, logged_logEv (by decide) _ _ _ (evt_tally ..), rfl, rfl⟩

/-- Both slots take the image, and the host's firmware is named. -/
def imageStored (life : Life) (img : List Byte) : Act :=
  Act.all [updSec fun x => { x with hostA := img.take (imgLength img), hostB := img.take (imgLength img), hostFw := imgDigest img,
                                    hostFloor := if life = .field then max x.hostFloor (fieldAt img 8 8) else x.hostFloor },
    setF SEC_STAT.HOSTSLOT 0, updPow fun p => { p with hostFail := false }]

theorem run_hostImageEnd_taken (h : fwPasses s 3 s.pow.hostImg = true) : run hostImageEnd s = run bootRelease (run (imageStored s.life s.pow.hostImg) (imageTaken s)) := by
  rw [hostImageEnd, run_ask]
  dsimp only
  rw [run_seq, h, if_pos rfl]
  simp only [imageStored, run_all_cons, run_all_nil]
  rfl

theorem imageStored_spec (life : Life) (img : List Byte) (t : State) : (run (imageStored life img) t).pow = { t.pow with hostFail := false } ∧
    (run (imageStored life img) t).sec.hostA = img.take (imgLength img) ∧ (run (imageStored life img) t).sec.hostB = img.take (imgLength img) ∧
    (run (imageStored life img) t).mem = t.mem := by
  rw [imageStored, run_all_cons, run_all_cons, run_all_cons, run_all_nil]
  exact ⟨rfl, rfl, rfl, rfl⟩

theorem hostImageEnd_taken (h : fwPasses s 3 s.pow.hostImg = true) : let t := run hostImageEnd s
    t.pow.hostFail = false ∧ t.pow.ready = true ∧ t.pow.hostImg = [] ∧ t.sec.hostA = s.pow.hostImg.take (imgLength s.pow.hostImg) ∧ t.sec.hostB = t.sec.hostA ∧
      isHeld t 6 = false ∧ t.mem = s.mem := by
  obtain ⟨hpow, hheld⟩ := bootRelease_spec (run (imageStored s.life s.pow.hostImg) (imageTaken s))
  obtain ⟨hstored, hA, hB, hmem⟩ := imageStored_spec s.life s.pow.hostImg (imageTaken s)
  dsimp only
  rw [run_hostImageEnd_taken h, hpow, hstored, only_sec changes_bootRelease.only (by decide), only_mem changes_bootRelease.only (by decide)]
  exact ⟨rfl, rfl, rfl, hA, hB.trans hA.symm, hheld, hmem⟩

end

/-- Settles O47: each command is its program behind the answer that the running converters give. -/
theorem boardCommands : Obligations.BoardCommands := by
  unfold Obligations.BoardCommands
  refine ⟨fun s hrails => ?on, fun s bs => ?image, fun s w hrails => ?off⟩
  case on =>
    obtain ⟨v, htemp⟩ := i3cTemp_spec hrails
    refine ⟨⟨_, rfl, run_i3cGet hrails _⟩, ⟨_, rfl, run_i3cGet hrails _⟩, ⟨_, v, rfl, htemp⟩, ⟨_, rfl, run_i3cGet hrails _⟩, fun hnew => ⟨_, rfl, ?_⟩,
      fun h => ⟨_, rfl, run_statusIbi_same h⟩, fun w => ⟨⟨_, rfl, capSust_spec hrails w⟩, _, rfl, capExc_spec hrails w⟩, ⟨_, rfl, ?_⟩, fun hsb => ⟨_, rfl, ?_⟩, fun hsb => ⟨_, rfl, ?_⟩,
      fun h7 => ⟨_, rfl, ?_⟩, fun h7 => ⟨_, rfl, ?_⟩⟩
    · rw [run_statusIbi hrails hnew]
      exact ⟨rfl, rfl, rfl, rfl⟩
    · rw [run_i3c_on hrails]
      exact ⟨rfl, rfl, rfl⟩
    · rw [run_i3c_on hrails, run_given, if_pos (decide_eq_true hsb)]
      exact sbLeave_spec s
    · rw [run_i3c_on hrails, run_given, if_neg (by simpa using hsb)]
    · rw [run_i3c_on hrails]
      obtain ⟨hheld, hdom, hcause, -⟩ := rstCtlPkg_spec h7 (cause := 8) (by decide)
      exact ⟨hheld, hdom, hcause⟩
    · rw [run_i3c_on hrails, run_packageReset_joined h7]
  case image =>
    refine ⟨fun h => ⟨_, rfl, run_hostImage_nack h⟩, fun hrails hfail hlen hne => ⟨_, rfl, ?_⟩, fun hrails hfail hnil => ?_⟩
    · rw [run_hostImage_taken hrails hfail hlen, if_neg (by simpa using hne)]
      rfl
    · subst hnil
      have hrun := run_hostImage_taken (bs := []) hrails hfail (by decide)
      refine ⟨fun h => ⟨_, rfl, ?_⟩, fun h => ⟨_, rfl, ?_⟩⟩
      · rw [hrun]
        exact hostImageEnd_refused hfail h
      · rw [hrun]
        exact hostImageEnd_taken h
  case off =>
    have hnack : ∀ a : Act, Host.Outcome.next (run (i3c a) s) = (Host.Outcome.next { s with out := .i3cNack :: s.out } : Host.Outcome State Fault Refusal) := fun a => by
      rw [run_i3c_off hrails]
    exact ⟨hnack _, hnack _, hnack _, hnack _, hnack _, hnack _, hnack _, hnack _, hnack _, congrArg Host.Outcome.next (run_statusIbi_off hrails)⟩

end Sys2Proof.Machine

/-! PROOFS. Debug sessions: openings, refusals and ends, halts of cores, and the debug port's accesses (R422 to R426, Tables 20-4 to 20-7). -/

namespace Sys2Proof.Machine

section
variable {s : State}

/-! Refusals and ends. -/

theorem tokenRefuse_spec (p : Nat) (s : State) : let t := run (tokenRefuse p) s
    getF t DBG_EVT.REFUSED = 1 ∧ getF t DBG_SESS.REASON p = 6 ∧ getF t DBG_SESS.LEVEL p = getF s DBG_SESS.LEVEL p ∧ t.sec = s.sec ∧ Safety.Logged .tokenRefused s t ∧ t.mem = s.mem := by
  have hlog := changes_logEv .tokenRefused 0xFF 0xFFFF []
  simp only [tokenRefuse, run_all_cons, run_all_nil]
  refine ⟨?_, ?_, ?_, ?_, logged_logEv (by decide) _ _ _ ((setF_tally ..).trans (evt_tally ..)), ?_⟩
  · rw [hlog.getF (by decide), getF_setF_apart (by decide), getF_evt_fits (by decide)]; rfl
  · rw [hlog.getF (by decide), getF_setF_fits (by decide)]; rfl
  · rw [hlog.getF (by decide), getF_setF_apart (by decide), getF_evt_apart (by decide)]
  · rw [only_sec hlog.only (by decide), setF_sec, evt_sec]
  · rw [only_mem hlog.only (by decide), setF_mem, evt_mem]

theorem debugSt_updDebug (p : Nat) (f : DebugSt → DebugSt) (s : State) : debugSt (run (updDebug p f) s) p = f (debugSt s p) := by
  rw [updDebug, updSec, run_prim, debugSt, Prim.sec_sec, debugSt]
  split <;> rfl

theorem run_sessionEnd {p : Nat} (h : getF s DBG_SESS.LEVEL p ≠ 0) (reason : Nat) : run (sessionEnd p reason) s =
    run (logEv .sessionEnded (data := [reason])) (run (evt DBG_EVT.ENDED) (run (updDebug p fun _ => {}) (run (setF DBG_SESS.REASON reason p) (run (setF DBG_SESS.LEVEL 0 p) s)))) := by
  rw [sessionEnd, run_ask, run_when, if_pos (show decide (sessLevel s p ≠ 0) = true from decide_eq_true h)]
  simp only [run_all_cons, run_all_nil]

theorem run_sessionEnd_none {p : Nat} (h : getF s DBG_SESS.LEVEL p = 0) (reason : Nat) : run (sessionEnd p reason) s = s := by
  rw [sessionEnd, run_ask, run_when, if_neg (by simp [sessLevel, h])]

theorem sessionEnd_spec {p : Nat} (h : getF s DBG_SESS.LEVEL p ≠ 0) {reason : Nat} (hr : reason < 256) : let t := run (sessionEnd p reason) s
    getF t DBG_SESS.LEVEL p = 0 ∧ getF t DBG_SESS.REASON p = reason ∧ getF t DBG_EVT.ENDED = 1 ∧ debugSt t p = {} ∧ Safety.Logged .sessionEnded s t ∧ t.mem = s.mem := by
  have hlog := changes_logEv .sessionEnded 0xFF 0xFFFF [reason]
  have hup : Act.Changes [.sec] (updDebug p fun _ => {}) := changes_updDebug _ _
  dsimp only
  rw [run_sessionEnd h, hlog.getF (by decide), hlog.getF (by decide), hlog.getF (by decide), only_mem hlog.only (by decide), evt_mem, only_mem hup.only (by decide), setF_mem, setF_mem,
    getF_evt_apart (by decide), getF_evt_apart (by decide), getF_evt_fits (by decide), hup.getF (by decide), hup.getF (by decide), getF_setF_fits (by decide),
    getF_setF_apart (by decide), getF_setF_fits (by decide)]
  refine ⟨rfl, Nat.mod_eq_of_lt hr, rfl, ?_, logged_logEv (by decide) _ _ _ ?_, rfl⟩
  · have hsec : ∀ t, debugSt (run (logEv .sessionEnded (data := [reason])) (run (evt DBG_EVT.ENDED) t)) p = debugSt t p := fun t => by
      rw [debugSt, debugSt, only_sec hlog.only (by decide), evt_sec]
    rw [hsec, debugSt_updDebug]
  · rw [evt_tally, hup.tally (by decide), setF_tally, setF_tally]

/-- What is left where no session was open is left as it was. -/
theorem sessionEnd_keeps (p reason : Nat) (s : State) : getF (run (sessionEnd p reason) s) DBG_SESS.MAX p = getF s DBG_SESS.MAX p ∧
    Safety.tally (run (sessionEnd p reason) s) .sessionOpened = Safety.tally s .sessionOpened := by
  by_cases h : getF s DBG_SESS.LEVEL p = 0
  · rw [run_sessionEnd_none h]
    exact ⟨rfl, rfl⟩
  · have hlog := changes_logEv .sessionEnded 0xFF 0xFFFF [reason]
    have hup : Act.Changes [.sec] (updDebug p fun _ => {}) := changes_updDebug _ _
    rw [run_sessionEnd h, hlog.getF (by decide), getF_evt_apart (by decide), hup.getF (by decide), getF_setF_apart (by decide), getF_setF_apart (by decide), logEv_tally _ _ _ _ _ _ (by decide), if_neg (by decide), evt_tally,
      hup.tally (by decide), setF_tally, setF_tally]
    exact ⟨rfl, rfl⟩

/-! Openings (R422 to R425). -/

theorem run_sessionGrant (p level : Nat) (ends serial : Option Nat) (s : State) : run (sessionGrant p level ends serial) s =
    run (logEv .sessionOpened (data := serial.toList)) (run (evt DBG_EVT.OPENED) (run (updDebug p fun _ => { ends := ends })
      (run (modF DBG_SESS.MAX (fun m => max m level) p) (run (setF DBG_SESS.LEVEL level p) (run (sessionEnd p 1) s))))) := by
  simp only [sessionGrant, run_all_cons, run_all_nil]

theorem sessionGrant_spec (p : Nat) {level : Nat} (hl : level < 4) (ends serial : Option Nat) (s : State) : let t := run (sessionGrant p level ends serial) s
    getF t DBG_SESS.LEVEL p = level ∧ getF t DBG_SESS.MAX p = max (getF s DBG_SESS.MAX p) level ∧ getF t DBG_EVT.OPENED = 1 ∧ (debugSt t p).ends = ends ∧
      Safety.Logged .sessionOpened s t ∧ t.mem = s.mem := by
  have hlog := changes_logEv .sessionOpened 0xFF 0xFFFF serial.toList
  have hup : Act.Changes [.sec] (updDebug p fun _ => { ends := ends }) := changes_updDebug _ _
  obtain ⟨hmax, htally⟩ := sessionEnd_keeps p 1 s
  have hlt : getF s DBG_SESS.MAX p < 2 ^ 2 := bitsOf_lt _ _ _
  dsimp only
  rw [run_sessionGrant, hlog.getF (by decide), hlog.getF (by decide), hlog.getF (by decide), getF_evt_apart (by decide), getF_evt_apart (by decide), getF_evt_fits (by decide),
    hup.getF (by decide), hup.getF (by decide), getF_modF_apart (by decide), getF_modF_fits (by decide), getF_setF_fits (by decide), getF_setF_apart (by decide), hmax]
  refine ⟨Nat.mod_eq_of_lt hl, Nat.mod_eq_of_lt ?_, rfl, ?_, logged_logEv (by decide) _ _ _ ?_, ?_⟩
  · rw [show DBG_SESS.MAX.width = 2 from rfl]
    omega
  · have hsec : ∀ t, debugSt (run (logEv .sessionOpened (data := serial.toList)) (run (evt DBG_EVT.OPENED) t)) p = debugSt t p := fun t => by
      rw [debugSt, debugSt, only_sec hlog.only (by decide), evt_sec]
    rw [hsec, debugSt_updDebug]
  · rw [evt_tally, hup.tally (by decide), modF_tally, setF_tally, htally]
  · rw [mem_of_changes hlog (by decide), evt_mem, mem_of_changes hup (by decide), mem_of_changes (changes_modF _ _ _ _) (by decide), setF_mem,
      mem_of_changes (changes_sessionEnd _ _) (by decide)]

/-- The level an opening gives. -/
def levelGiven (s : State) (want : Nat) (t : List Byte) : Nat := min want (min (levelAllowed s) (if needsToken s then fieldAt t 4 1 else 2))

/-- An opening is refused. -/
def opensNot (s : State) (p want : Nat) (t : List Byte) : Bool :=
  decide (want = 0) || decide (want = 3) || decide (levelGiven s want t = 0) || (decide (p = 0) && !jtagOpen s) || (needsToken s && !tokenOk s p t)

theorem run_sessionOpen_refused {p want : Nat} {t : List Byte} (h : opensNot s p want t = true) : run (sessionOpen p want t) s = run (tokenRefuse p) s := by
  rw [sessionOpen, run_ask]
  dsimp only
  rw [if_pos]
  exact h

theorem run_sessionOpen_granted {p want : Nat} {t : List Byte} (h : opensNot s p want t = false) : ∃ serial, run (sessionOpen p want t) s =
    run (sessionGrant p (levelGiven s want t) (if needsToken s then some (sessionEnds s t) else none) serial) s := by
  rw [sessionOpen, run_ask]
  dsimp only
  rw [if_neg (by rw [Bool.not_eq_true]; exact h)]
  cases hneeds : needsToken s with
  | true => exact ⟨some (fieldAt t 0x60 8), by rw [levelGiven, hneeds]; rfl⟩
  | false => exact ⟨none, by rw [levelGiven, hneeds]; rfl⟩

theorem sessionOpen_spec {p want : Nat} {t : List Byte} (h : opensNot s p want t = false) (hwant : want < 4) : let m := run (sessionOpen p want t) s
    getF m DBG_SESS.LEVEL p = levelGiven s want t ∧ getF m DBG_SESS.MAX p = max (getF s DBG_SESS.MAX p) (levelGiven s want t) ∧ getF m DBG_EVT.OPENED = 1 ∧
      (debugSt m p).ends = (if needsToken s then some (sessionEnds s t) else none) ∧ Safety.Logged .sessionOpened s m ∧ m.mem = s.mem := by
  obtain ⟨serial, hrun⟩ := run_sessionOpen_granted h
  dsimp only
  rw [hrun]
  exact sessionGrant_spec p (Nat.lt_of_le_of_lt (Nat.min_le_left _ _) hwant) _ serial s

theorem opensNot_inband {want : Nat} {t : List Byte} : opensNot s 1 want t = true ↔ want = 0 ∨ want = 3 ∨ levelGiven s want t = 0 ∨ (needsToken s = true ∧ tokenOk s 1 t = false) := by
  simp [opensNot, or_assoc]

theorem opensNot_tap {t : List Byte} : opensNot s 0 2 t = true ↔ levelGiven s 2 t = 0 ∨ jtagOpen s = false ∨ (needsToken s = true ∧ tokenOk s 0 t = false) := by
  simp [opensNot, or_assoc]

/-- The register that names the token's address. -/
def tokenNamed (a : Addr) (s : State) : State := run (setF DBG_OPEN.ADDR (a.toNat / 64)) s

theorem run_dbgOpen (a : Addr) : run (dbgOpen a) s = run (sessionOpen 1 (getF s DBG_OPEN.LEVEL) (readMem s (a.toNat / 64 * 64) tokenBytes)) (tokenNamed a s) := by
  have hread : readMem (tokenNamed a s) (a.toNat / 64 * 64) tokenBytes = readMem s (a.toNat / 64 * 64) tokenBytes := readMem_of_changes (changes_setF _ _ _ _) (by decide) (by decide) _ _ _
  rw [dbgOpen, run_seq, run_ask, ← hread, tokenNamed, getF_setF_apart (by decide)]

/-- Naming the address leaves what the opening asks. -/
theorem opensNot_named (a : Addr) (want : Nat) (t : List Byte) : opensNot (tokenNamed a s) 1 want t = opensNot s 1 want t := by
  have hidrev : getReg (tokenNamed a s) .IDREV 0 0 = getReg s .IDREV 0 0 := Act.Writes.getReg (l := [.DBG_OPEN]) (writes_setF (by decide) _ _ _) (by decide) 0 0 s
  have htoken : tokenOk (tokenNamed a s) 1 t = tokenOk s 1 t := by
    rw [tokenOk, hidrev]
    rfl
  rw [opensNot, htoken]
  rfl

/-! Halts of cores (R423). -/

theorem coreHalted_eq (s : State) (c : Nat) : coreHalted s c = ((debugSt s 0).halted.contains c || (debugSt s 1).halted.contains c) := rfl

theorem debugSt_updDebug_other {p q : Nat} (hp : p < 2) (hq : q < 2) (h : q ≠ p) (f : DebugSt → DebugSt) (s : State) : debugSt (run (updDebug p f) s) q = debugSt s q := by
  obtain ⟨rfl, rfl⟩ | ⟨rfl, rfl⟩ : p = 0 ∧ q = 1 ∨ p = 1 ∧ q = 0 := by omega
  · rfl
  · rfl

/-- The register that names the core. -/
def coreNamed (c : Nat) (s : State) : State := run (setF DBG_HALT.CORE c) s

theorem coreNamed_core {c : Nat} (hc : c < 2 ^ 10) : getF (coreNamed c s) DBG_HALT.CORE = c := (getF_setF_fits (by decide) _ _ _ _).trans (Nat.mod_eq_of_lt hc)

theorem haltPath_named (c : Nat) : haltPath (coreNamed c s) = haltPath s := by
  rw [haltPath, haltPath, sessLevel, sessLevel, sessLevel, sessLevel, coreNamed, getF_setF_apart (by decide), getF_setF_apart (by decide)]

theorem haltPath_lt {p : Nat} (h : haltPath s = some p) : p < 2 := by
  rw [haltPath] at h
  split at h
  · cases h
    decide
  · split at h
    · cases h
      decide
    · cases h

theorem run_coreHalt {c p : Nat} (h : haltPath s = some p) : run (coreHalt c) s =
    run (Act.when (haltable (coreNamed c s) c && !coreHalted (coreNamed c s) c) (updDebug p fun d => { d with halted := c :: d.halted })) (coreNamed c s) := by
  have hpath := (haltPath_named (s := s) c).trans h
  rw [coreNamed] at hpath
  rw [coreHalt, run_seq, run_ask, hpath]
  rfl

theorem run_coreHalt_none {c : Nat} (h : haltPath s = none) : run (coreHalt c) s = coreNamed c s := by
  have hpath := (haltPath_named (s := s) c).trans h
  rw [coreNamed] at hpath
  rw [coreHalt, run_seq, run_ask, hpath]
  rfl

theorem run_coreResume (c : Nat) : run (coreResume c) s = run (Act.when (haltPath s).isSome (haltsClear fun k => decide (k = c))) (coreNamed c s) := by
  have hpath := haltPath_named (s := s) c
  rw [coreNamed] at hpath
  rw [coreResume, run_seq, run_ask, hpath]
  rfl

theorem coreHalt_spec {c : Nat} (hc : c < 2 ^ 10) (h : haltPath s ≠ none) (hable : haltable s c = true) : let t := run (coreHalt c) s
    getF t DBG_HALT.CORE = c ∧ coreHalted t c = true ∧ t.mem = s.mem := by
  obtain ⟨p, hp⟩ := Option.ne_none_iff_exists'.mp h
  have hup : Act.Changes [.sec] (Act.when (haltable (coreNamed c s) c && !coreHalted (coreNamed c s) c) (updDebug p fun d => { d with halted := c :: d.halted })) :=
    changes_when (changes_updDebug _ _)
  dsimp only
  rw [run_coreHalt hp, hup.getF (by decide), coreNamed_core hc, mem_of_changes hup (by decide), coreNamed, setF_mem]
  refine ⟨rfl, ?_, rfl⟩
  rw [run_when]
  split
  case isTrue =>
    rw [coreHalted_eq]
    have hown := debugSt_updDebug p (fun d => { d with halted := c :: d.halted }) (run (setF DBG_HALT.CORE c) s)
    obtain rfl | rfl : p = 0 ∨ p = 1 := by have := haltPath_lt hp; omega
    · rw [hown, List.contains_cons, beq_self_eq_true, Bool.true_or, Bool.true_or]
    · rw [hown, List.contains_cons, beq_self_eq_true, Bool.true_or, Bool.or_true]
  case isFalse hno =>
    have hable' : haltable (run (setF DBG_HALT.CORE c) s) c = true := hable
    simpa [hable', coreNamed] using hno

theorem debugSt_haltsClear (f : Nat → Bool) {p : Nat} (hp : p < 2) (s : State) : (debugSt (run (haltsClear f) s) p).halted = (debugSt s p).halted.filter fun k => !f k := by
  rw [haltsClear, run_each_cons, run_each_cons, run_each_nil]
  obtain rfl | rfl : p = 0 ∨ p = 1 := by omega
  · rw [debugSt_updDebug_other (by decide) (by decide) (by decide), debugSt_updDebug]
  · rw [debugSt_updDebug, debugSt_updDebug_other (by decide) (by decide) (by decide)]

theorem coreResume_spec {c : Nat} (hc : c < 2 ^ 10) (h : haltPath s ≠ none) : let t := run (coreResume c) s
    getF t DBG_HALT.CORE = c ∧ coreHalted t c = false ∧ t.mem = s.mem := by
  dsimp only
  rw [run_coreResume, Option.isSome_iff_ne_none.mpr h, run_when, if_pos rfl, (changes_haltsClear _).getF (by decide), coreNamed_core hc,
    mem_of_changes (changes_haltsClear _) (by decide), coreNamed, setF_mem, coreHalted_eq, debugSt_haltsClear _ (by decide), debugSt_haltsClear _ (by decide)]
  refine ⟨rfl, ?_, rfl⟩
  simp

theorem halts_without {c : Nat} (hc : c < 2 ^ 10) (h : haltPath s = none) : run (coreResume c) s = run (coreHalt c) s ∧
    getF (run (coreHalt c) s) DBG_HALT.CORE = c ∧ (run (coreHalt c) s).sec = s.sec ∧ (run (coreHalt c) s).mem = s.mem := by
  rw [run_coreResume, run_coreHalt_none h, h, run_when, if_neg (by decide)]
  exact ⟨rfl, coreNamed_core hc, setF_sec .., setF_mem ..⟩

/-! The debug port (Table 20-5). -/

theorem debugReaches_closed (h : getF s DBG_SESS.LEVEL 0 = 0) (a : Nat) (wr : Bool) : debugReaches s a wr = false := by
  simp only [debugReaches, sessLevel, h]
  split <;> rfl

theorem run_tapAccess (a : Addr) (w : Option W64) : run (tapAccess a w) s = run (innerAccess .debug a (match w with | none => .read 8 | some v => .write (w64Bytes v) false 0 0) 0) s := by
  cases w <;> rfl

theorem innerAccess_closed (h : getF s DBG_SESS.LEVEL 0 = 0) (a : Addr) (op : AccessOp) : run (innerAccess .debug a op 0) s = run (accessFault .debug a) s := by
  rw [innerAccess, run_ask]
  split
  · rw [regAccess, run_ask]
    dsimp only
    rw [show reachesRegs s .debug a.toNat (accessWrites op) = false from debugReaches_closed h _ _, Bool.not_false, Bool.true_or, if_pos rfl]
  · rw [debugReaches_closed h, decide_eq_true rfl, Bool.not_false, Bool.and_self, if_pos rfl]

theorem innerAccess_memory (h : getF s DBG_SESS.LEVEL 0 = 2) {a : Addr} (hm : (isWarehouse a.toNat || isQuay a.toNat) = true) (op : AccessOp) :
    run (innerAccess .debug a op 0) s = run (memAccess .debug a op true) s := by
  have hspace := not_isRegSpace_of_memory hm
  have hreach : debugReaches s a.toNat (accessWrites op) = true := by
    rw [debugReaches, hspace, if_neg Bool.false_ne_true, sessLevel, h]
    rfl
  rw [innerAccess, run_ask, hspace, if_neg Bool.false_ne_true, hreach, Bool.not_true, Bool.and_false, if_neg Bool.false_ne_true, run_seq, run_eccOf_zero]

/-- A write of a part of a line that reaches memory meets no poison. -/
theorem not_poisoned_of_route {p : Piece} {x : Nat} (hm : (isWarehouse p.a || isQuay p.a) = true) (hpart : p.n ≠ 64) (hr : route s p = .mem x none) : isPoisoned s p.a = false := by
  rw [route, if_pos hm] at hr
  split at hr
  · cases hr
  · split at hr
    · cases hr
    · rename_i hno
      simpa [hpart] using hno

end

/-- Settles O45: openings, ends, halts and the debug port, each by its program's cases. -/
theorem debugSessions : Obligations.DebugSessions := by
  unfold Obligations.DebugSessions
  refine ⟨fun s a want level tok hwant htok hlevel => ?opening, fun s level tok hlevel => ?tap, fun s => ?ending, fun s c => ?halts, fun s a => ?port⟩
  case opening =>
    have hrun := run_dbgOpen (s := s) a
    have hlt : getF s DBG_OPEN.LEVEL < 2 ^ 2 := bitsOf_lt _ _ _
    rw [← hwant] at hlt
    rw [← hwant, ← htok] at hrun
    clear htok hwant
    have hgiven : level = levelGiven s want tok := hlevel
    subst hgiven
    refine ⟨fun h => ⟨_, rfl, ?_⟩, fun h0 h3 hl htoken => ⟨_, rfl, ?_⟩⟩
    · rw [hrun, run_sessionOpen_refused (by rw [opensNot_named, opensNot_inband]; exact h)]
      obtain ⟨hrefused, hreason, hkeep, hsec, hlog, hmem⟩ := tokenRefuse_spec 1 (tokenNamed a s)
      exact ⟨hrefused, hreason, hkeep.trans (getF_setF_apart (by decide) _ _ _ _ _ _), hsec, hlog, hmem⟩
    · have hopens : opensNot (tokenNamed a s) 1 want tok = false := by
        rw [opensNot_named, ← Bool.not_eq_true, opensNot_inband]
        rintro (h | h | h | ⟨hneeds, hbad⟩)
        · exact h0 h
        · exact h3 h
        · exact hl h
        · rw [htoken hneeds] at hbad
          exact Bool.false_ne_true hbad.symm
      rw [hrun]
      obtain ⟨hlev, hmax, hopened, hends, hlog, hmem⟩ := sessionOpen_spec hopens hlt
      exact ⟨hlev, hmax.trans (congrArg (max · _) (getF_setF_apart (by decide) _ _ _ _ _ _)), hopened, hends, hlog, hmem⟩
  case tap =>
    have hgiven : level = levelGiven s 2 tok := hlevel
    subst hgiven
    refine ⟨fun h => ⟨_, rfl, ?_⟩, fun hl hjtag htoken => ⟨_, rfl, ?_⟩⟩
    · rw [run_sessionOpen_refused (opensNot_tap.mpr h)]
      exact tokenRefuse_spec 0 s
    · have hopens : opensNot s 0 2 tok = false := by
        rw [← Bool.not_eq_true, opensNot_tap]
        rintro (h | h | ⟨hneeds, hbad⟩)
        · exact hl h
        · rw [hjtag] at h
          exact Bool.false_ne_true h.symm
        · rw [htoken hneeds] at hbad
          exact Bool.false_ne_true hbad.symm
      obtain ⟨hlev, -, hopened, -, hlog, hmem⟩ := sessionOpen_spec hopens (by decide)
      exact ⟨hlev, hopened, hlog, hmem⟩
  case ending =>
    refine ⟨fun h => ⟨_, rfl, sessionEnd_spec h (by decide)⟩, fun h => ⟨_, rfl, run_sessionEnd_none h 1⟩, fun h => ⟨_, rfl, sessionEnd_spec h (by decide)⟩,
      fun h => ⟨_, rfl, run_sessionEnd_none h 1⟩, fun p hends h => ⟨_, rfl, ?_⟩, fun p hends => ⟨_, rfl, ?_⟩⟩
    · obtain ⟨hlev, hreason, hended, -, hlog, hmem⟩ := sessionEnd_spec h (reason := 2) (by decide)
      rw [sessionExpire, run_ask, run_when, Option.isSome_iff_ne_none.mpr hends, if_pos rfl]
      exact ⟨hlev, hreason, hended, hlog, hmem⟩
    · rw [sessionExpire, run_ask, run_when, hends, if_neg (by decide)]
  case halts =>
    refine ⟨fun h hable => ⟨_, rfl, coreHalt_spec c.isLt h hable⟩, fun h => ⟨_, rfl, coreResume_spec c.isLt h⟩, fun h => ?_⟩
    obtain ⟨hsame, hspec⟩ := halts_without c.isLt h
    refine ⟨⟨_, rfl, hspec⟩, _, rfl, ?_⟩
    rw [hsame]
    exact hspec
  case port =>
    refine ⟨fun w h => ⟨_, rfl, ?_⟩, fun h hline hm => ⟨fun hr => ⟨_, rfl, ?_⟩, fun v hr hdir => ⟨_, rfl, ?_⟩⟩⟩
    · rw [run_tapAccess, innerAccess_closed h]
      exact ⟨accessFault_out .., accessFault_logged .., accessFault_regs .., accessFault_mem ..⟩
    · have hpieces : accessPieces .debug a.toNat (.read 8) = [{ a := a.toNat, n := 8, wr := false, rebuild := false }] :=
        piecesOf_of_within (n := 8) _ _ (by decide) (by omega)
      rw [run_tapAccess, innerAccess_memory h hm, memAccess_serve true hpieces hr rfl,
        run_accessServe_read .debug (by decide) (by omega) hm hr]
      exact ⟨rfl, rfl, rfl⟩
    · have hlen : (w64Bytes v).length = 8 := length_natLe _ _
      have hpois := not_poisoned_of_route (p := { a := a.toNat, n := 8, wr := true, rebuild := false }) hm (show 8 ≠ 64 by decide) hr
      have hpieces : accessPieces .debug a.toNat (.write (w64Bytes v) false 0 0) = [{ a := a.toNat, n := 8, wr := true, rebuild := false }] := by
        rw [accessPieces, accessLen, hlen]
        exact piecesOf_of_within _ _ (by decide) (by omega)
      have hserve := accessServe_write_spec (s := s) (addr := a) (bs := w64Bytes v) .debug false 0 0 (by rw [hlen]; decide) (by rw [hlen]; omega) hm (by rw [hlen]; exact hr) rfl hdir hpois
      rw [hlen] at hserve
      obtain ⟨-, hread, hother, hregs⟩ := hserve
      rw [run_tapAccess, innerAccess_memory h hm, memAccess_serve true hpieces hr rfl]
      exact ⟨hread, hregs, hother⟩

end Sys2Proof.Machine

/-! PROOFS. Secure points, SHD_CTL, stream realignment and the phases of a restore (R362 to R376). -/

namespace Sys2Proof.Machine

/-- A program that leaves the registers leaves every field. -/
theorem getF_of_changes {k : List Part} {a : Act} (h : a.Changes k) (hk : Part.regs ∉ k) (f : Fld) (i j : Nat) (s : State) : getF (run a s) f i j = getF s f i j :=
  (writes_of_changes (l := []) h hk).getF List.not_mem_nil i j s

/-! The end of a secure point (R362). -/

theorem run_secureDone_waits {s : State} {x step : Nat} (h : s.shd.snap = some (x, step)) (hopen : (s.hural.reqs.any fun r => r.job = .snap) = true) :
    run secureDone s = s := by
  rw [secureDone, run_ask, h]
  exact congrFun (congrArg run (if_pos hopen)) s

theorem run_secureDone_refused {s : State} {x step : Nat} (h : s.shd.snap = some (x, step)) (hclosed : (s.hural.reqs.any fun r => r.job = .snap) = false)
    (hfail : s.shd.snapFail = true) : run secureDone s = { s with shd := { s.shd with snap := none, snapFail := false } } := by
  rw [secureDone, run_ask, h]
  exact congrFun (congrArg run ((if_neg (Bool.eq_false_iff.mp hclosed)).trans (if_pos hfail))) s

/-- What a secure point whose copies are all acknowledged enters: its step and its cost. -/
def secured (step cost : Nat) : Act :=
  Act.all [updShd fun x => { x with snap := none, gen := !x.gen }, setF SHD_LASTSEC.STEP step, setF SHD_COST.C cost, evt SHD_EVT.SECURED]

theorem run_secureDone_secured {s : State} {x step : Nat} (h : s.shd.snap = some (x, step)) (hclosed : (s.hural.reqs.any fun r => r.job = .snap) = false)
    (hfail : s.shd.snapFail = false) : run secureDone s = run (secured step (min (2 ^ 32 - 1) ((s.now - x) / 4000))) s := by
  rw [secureDone, run_ask, h, secured]
  dsimp only
  generalize min (2 ^ 32 - 1) ((s.now - x) / 4000) = cost
  rw [if_neg (Bool.eq_false_iff.mp hclosed), if_neg (Bool.eq_false_iff.mp hfail)]

theorem secured_spec (step cost : Nat) (s : State) :
    (run (secured step cost) s).shd = { s.shd with snap := none, gen := !s.shd.gen } ∧ getF (run (secured step cost) s) SHD_LASTSEC.STEP = step % 2 ^ 40 ∧
      getF (run (secured step cost) s) SHD_EVT.SECURED = 1 ∧ getF (run (secured step cost) s) SHD_COST.C = cost % 2 ^ 32 ∧
      (run (secured step cost) s).mem = s.mem := by
  simp only [secured, run_all_cons, run_all_nil]
  refine ⟨?_, ?_, getF_evt_fits (by decide) _ _ _, ?_, ?_⟩
  · rw [evt_shd, setF_shd, setF_shd]; rfl
  · rw [getF_evt_apart (by decide), getF_setF_apart (by decide), getF_setF_fits (by decide)]; rfl
  · rw [getF_evt_apart (by decide), getF_setF_fits (by decide)]; rfl
  · rw [evt_mem, setF_mem, setF_mem]; rfl

/-! SHD_CTL (R370, R372). -/

theorem run_shdEnable_admitted {s : State} (h : ((theChart s).parts.all fun e => getF s NUM_STEP.PER e.part = 1 || getF s NUM_STEP.PER e.part = 2) = true) :
    run shdEnable s = run (setF SHD_CTL.EN 1) s := congrFun (congrArg run (if_pos h)) s

theorem run_shdEnable_refused {s : State} (h : ((theChart s).parts.all fun e => getF s NUM_STEP.PER e.part = 1 || getF s NUM_STEP.PER e.part = 2) = false) :
    run shdEnable s = run (evt SHD_EVT.CFGERR) s := congrFun (congrArg run (if_neg (Bool.eq_false_iff.mp h))) s

theorem realign_spec (p : Fin 64) (s : State) :
    getF (run (realign p) s) SHD_CTL.PART = p ∧ (run (realign p) s).mem = s.mem ∧ (run (realign p) s).upd.stream = streamAt (getF s NUM_STEP.STEP p) ∧
      ∀ u ∈ tilesOf s p, (getTile (run (realign p) s) u).streams = (List.range 8).map fun n => (n, streamAt (getF s NUM_STEP.STEP p)) := by
  simp only [realign, run_ask, run_all_cons, run_all_nil]
  generalize getF s NUM_STEP.STEP p = step
  have heach : (Act.each (fun u => setTileStreams u step) (tilesOf s p)).Changes [.tiles] := changes_each fun _ => changes_setTileStreams _ _
  refine ⟨?_, ?_, rfl, fun u hu => ?_⟩
  · rw [getF_of_changes (changes_updUpd _) (by decide), getF_of_changes heach (by decide), getF_setF_fits (by decide)]
    exact Nat.mod_eq_of_lt p.isLt
  · rw [mem_of_changes (changes_updUpd _) (by decide), mem_of_changes heach (by decide), setF_mem]
  · have htile := getTile_each_updTile (f := fun t => { t with streams := (List.range 8).map fun n => (n, streamAt step) }) (nodup_tilesOf s p) hu (run (setF SHD_CTL.PART p) s)
    rw [getTile_of_tiles (only_tiles (changes_updUpd _).only (by decide) _)]
    simp only [setTileStreams]
    rw [htile]

/-! The choice of the record (R364). -/

/-- A fold that keeps the first of the greatest finds the only greatest. -/
theorem foldl_eq_greatest {α : Type} {key : α → Nat} {f : Option α → α → Option α} (hnone : ∀ e, f none e = some e)
    (hsome : ∀ x e, f (some x) e = if key x < key e then some e else some x) {y : α} (l : List α) (hl : ∀ e ∈ l, e ≠ y → key e < key y)
    (m : Option α) (hm : ∀ x, m = some x → x ≠ y → key x < key y) (hy : m = some y ∨ y ∈ l) : l.foldl f m = some y := by
  induction l generalizing m with
  | nil => exact hy.resolve_right List.not_mem_nil
  | cons e l ih =>
    have he := hl e (List.mem_cons_self ..)
    refine ih (fun z hz => hl z (List.mem_cons_of_mem _ hz)) (f m e) ?_ ?_
    · intro z hz
      cases m with
      | none => rw [hnone] at hz; exact Option.some.inj hz ▸ he
      | some x =>
        rw [hsome] at hz
        split at hz
        · exact Option.some.inj hz ▸ he
        · exact Option.some.inj hz ▸ hm x rfl
    · by_cases hey : e = y
      · subst hey
        cases m with
        | none => exact .inl (hnone e)
        | some x =>
          rw [hsome]
          by_cases hx : x = e
          · exact .inl (by rw [hx, if_neg (Nat.lt_irrefl _)])
          · exact .inl (if_pos (hm x rfl hx))
      · rcases hy with rfl | hy
        · exact .inl (by rw [hsome, if_neg (Nat.not_lt.mpr (Nat.le_of_lt (he hey)))])
        · exact .inr ((List.mem_cons.mp hy).resolve_left (Ne.symm hey))

theorem recordChoice_of_highest {s : State} {l : List (List Byte × List (Addr × List Byte))} {r : List Byte} {o : List (Addr × List Byte)} (hmem : (r, o) ∈ l)
    (hvalid : recordValid r = true) (hcommitted : recordCommitted s r = true)
    (hmax : ∀ e ∈ l, recordValid e.1 = true → recordCommitted s e.1 = true → e ≠ (r, o) → fieldAt e.1 8 8 < fieldAt r 8 8) :
    recordChoice s l = some (r, o) := by
  refine foldl_eq_greatest (key := fun e => fieldAt e.1 8 8) (fun _ => rfl) (fun _ _ => rfl) _ (fun e he hne => ?_) none (fun _ h => nomatch h)
    (.inr (List.mem_filter.mpr ⟨hmem, Bool.and_eq_true_iff.mpr ⟨hvalid, hcommitted⟩⟩))
  obtain ⟨hel, hok⟩ := List.mem_filter.mp he
  obtain ⟨hv, hc⟩ := Bool.and_eq_true_iff.mp hok
  exact hmax e hel hv hc hne

theorem recordChoice_eq_none {s : State} {l : List (List Byte × List (Addr × List Byte))} (h : ∀ e ∈ l, recordValid e.1 = true → recordCommitted s e.1 = false) :
    recordChoice s l = none := by
  have hnil : (l.filter fun e => recordValid e.1 && recordCommitted s e.1) = [] := List.filter_eq_nil_iff.mpr fun e he hok => by
    obtain ⟨hv, hc⟩ := Bool.and_eq_true_iff.mp hok
    exact Bool.false_ne_true ((h e he hv).symm.trans hc)
  rw [recordChoice, hnil, List.foldl_nil]

/-- The end of a record phase with a record: its secure point, its number, and the next phase. -/
def recordTaken (step seq : Nat) : Act :=
  Act.all [setF SHD_LASTSEC.STEP step, updShd fun x => { x with records := seq }, setF SHD_STAT.PHASE 3]

theorem recordTaken_spec (step seq : Nat) (s : State) :
    getF (run (recordTaken step seq) s) SHD_STAT.PHASE = 3 ∧ (run (recordTaken step seq) s).shd.records = seq ∧
      getF (run (recordTaken step seq) s) SHD_LASTSEC.STEP = step % 2 ^ 40 := by
  simp only [recordTaken, run_all_cons, run_all_nil]
  refine ⟨getF_setF_fits (by decide) _ _ _ _, rfl, ?_⟩
  rw [getF_setF_apart (by decide), (writes_of_changes (l := []) (changes_updShd _) (by decide)).getF (by decide), getF_setF_fits (by decide)]
  rfl

/-- The record phase ends with what the record gives. -/
theorem run_recordPhase_chosen {s : State} {l : List (List Byte × List (Addr × List Byte))} {r : List Byte} {o : List (Addr × List Byte)}
    (h : recordChoice s l = some (r, o)) : ∃ t, run (recordPhase l) s = run (recordTaken (fieldAt r 0x30 8) (fieldAt r 8 8)) t := by
  rw [recordPhase, run_ask, h]
  simp only [run_all_cons, run_all_nil, recordTaken]
  generalize fieldAt r 0x30 8 = step
  generalize fieldAt r 8 8 = seq
  generalize run (counterRestore r) _ = t
  exact ⟨t, rfl⟩

/-- Without a record the berth stays dark (R378). -/
theorem run_recordPhase_none {s : State} {l : List (List Byte × List (Addr × List Byte))} (h : recordChoice s l = none) :
    run (recordPhase l) s = run (logEv .unrecoverable) (run (evt SHD_EVT.UNRECOV) s) := by
  rw [recordPhase, run_ask, h]
  simp only [run_all_cons, run_all_nil]

/-! The roll-forward (R375). -/

/-- The registers a step of the roll-forward writes. -/
def rollRegs : List RegName :=
  poisonRegs ++ [.TIER_STALL, .UPD_FAULT, .UPD_FADDR, .UPD_PEND, .UPD_FLAGS, .UPD_COUNT, .UPD_EVT, .UPD_ELEMS, .UPD_LIVE, .UPD_PSET, .SCH_ETA, .SCH_POS]

theorem writes_absentRecord (unit a : Nat) : (absentRecord unit a).Writes poisonRegs := fun _ => writes_faultRecord _ _ _ _

theorem writes_unitStall (k : Nat) (st : StallAt) : (unitStall k st).Writes rollRegs := fun _ =>
  ⟨(within_when _ _).mpr fun _ => writes_incF (by decide) _ _ _,
    (within_when _ _).mpr fun _ => (writes_absentRecord _ _).mono fun _ h => List.mem_append_left _ h, trivial, trivial⟩

theorem writes_updAccessFault (i : UpdItem) (a : Nat) : (updAccessFault i a).Writes rollRegs :=
  ⟨trivial, writes_of_changes (changes_logEv _ _ _ _) (by decide),
    ⟨trivial, List.contains_iff_mem.mp rfl, writes_of_changes (changes_logEv _ _ _ _) (by decide), writes_traceItem (by decide) _ _ _, trivial⟩,
    writes_setF (by decide) _ _ _, trivial⟩

theorem writes_updRun (i : UpdItem) : (updRun i).Writes rollRegs := by
  unfold updRun
  refine writes_withFree fun pick => ?_
  refine (within_ask _).mpr fun s => ?_
  dsimp only
  have hflags (fl : Nat) : (orFlags .UPD_FLAGS 0 false fl).Writes rollRegs := (writes_orFlags _ _ .UPD_FLAGS false).mono fun _ h => by
    rw [List.mem_singleton.mp h]; decide
  have hranges (s : State) (w : Writer) (ws : List (Nat × List Byte)) : (writeRanges s w ws).1.Writes rollRegs :=
    (writes_writeRanges s w ws).mono fun _ h => by rw [List.mem_singleton.mp h]; decide
  split
  · exact writes_unitStall _ _
  · exact writes_updAccessFault _ _
  · exact writes_unitStall _ _
  · split
    · exact ⟨⟨writes_setBitF (by decide) _ _ _ _, trivial, trivial⟩, hranges _ _ _, writes_updAccessFault _ _,
        ⟨(within_when _ _).mpr fun _ => trivial, hflags _, (within_when _ _).mpr fun _ =>
          ⟨writes_incF (by decide) _ _ _, writes_evt (by decide) _ _, writes_of_changes (changes_logEv _ _ _ _) (by decide), trivial⟩, trivial⟩, trivial⟩
    · exact ⟨⟨writes_setBitF (by decide) _ _ _ _, trivial, trivial⟩, hranges _ _ _, ⟨trivial, trivial⟩, writes_addF (by decide) _ _ _,
        ⟨(within_when _ _).mpr fun _ => trivial, hflags _, (within_when _ _).mpr fun _ =>
          ⟨writes_incF (by decide) _ _ _, writes_evt (by decide) _ _, writes_of_changes (changes_logEv _ _ _ _) (by decide), trivial⟩, trivial⟩, trivial⟩

theorem writes_rollItem (step : Nat) (d : Desc) : (rollItem step d).Writes rollRegs := fun _ =>
  (within_when _ _).mpr fun _ => ⟨trivial, writes_updRun _, trivial, trivial⟩

theorem writes_flipGroup (g : Nat) : (flipGroup g).Writes rollRegs :=
  ⟨fun _ => writes_setBitF (by decide) _ _ _ _, fun _ => writes_pkgWrite (by decide) _ _, writes_setBitF (by decide) _ _ _ _, trivial, trivial⟩

theorem writes_computeEta (step : Nat) : (computeEta step).Writes rollRegs := writes_withFree fun _ _ =>
  ⟨writes_setF (by decide) _ _ _, writes_setF (by decide) _ _ _, writes_setF (by decide) _ _ _, trivial⟩

/-- A step of the roll-forward but for its count. -/
def rollWork (step : Nat) (w : List (Addr × List Byte)) (items : List Desc) : Act :=
  Act.all [restoreWrites w, computeEta step, updUpd fun x => { x with stream := streamAt step }, Act.each (rollItem step) items,
    .ask fun s => Act.each flipGroup (pendGroups s), setF UPD_PSET.VALID 0]

theorem run_rollStep (step : Nat) (w : List (Addr × List Byte)) (items : List Desc) (s : State) :
    run (rollStep step w items) s = run (updShd fun x => { x with rolled := x.rolled + 1 }) (run (rollWork step w items) s) := by
  simp only [rollStep, rollWork, run_all_cons, run_all_nil]

theorem writes_rollWork (step : Nat) (w : List (Addr × List Byte)) (items : List Desc) : (rollWork step w items).Writes rollRegs :=
  ⟨(within_each _ _).mpr fun _ _ => writes_pkgWrite (by decide) _ _, writes_computeEta _, trivial,
    (within_each _ _).mpr fun _ _ => writes_rollItem _ _, fun _ => (within_each _ _).mpr fun _ _ => writes_flipGroup _,
    writes_setF (by decide) _ _ _, trivial⟩

theorem changes_rollWork (step : Nat) (w : List (Addr × List Byte)) (items : List Desc) :
    (rollWork step w items).Changes [.free, .out, .regs, .mem, .log, .tide, .sec, .tier, .coh, .hural, .upd, .bell] :=
  changes_cons ((changes_restoreWrites _).up rfl) (changes_cons ((changes_computeEta _).up rfl) (changes_cons ((changes_updUpd _).up rfl)
    (changes_cons (changes_each fun _ => changes_rollItem _ _) (changes_cons (changes_ask fun _ => changes_each fun _ => (changes_flipGroup _).up rfl)
      (changes_cons ((changes_setF _ _ _ _).up rfl) changes_nil)))))

/-- A step of the roll-forward leaves the phase and is counted. -/
theorem rollStep_spec (step : Nat) (w : List (Addr × List Byte)) (items : List Desc) (s : State) :
    getF (run (rollStep step w items) s) SHD_STAT.PHASE = getF s SHD_STAT.PHASE ∧ (run (rollStep step w items) s).shd.rolled = s.shd.rolled + 1 := by
  rw [run_rollStep]
  refine ⟨((writes_of_changes (l := []) (changes_updShd _) (by decide)).getF (by decide) _ _ _).trans ((writes_rollWork step w items).getF (by decide) _ _ s), ?_⟩
  exact congrArg (fun x : ShdSt => x.rolled + 1) (only_shd (changes_rollWork step w items).only (by decide) s)

/-! The phases of a restore (Table 17-5). -/

theorem run_restore_address {s : State} (h : getF s SHD_STAT.PHASE = 1) : run (restoreDone .address) s = run (setF SHD_STAT.PHASE 2) s := by
  simp only [restoreDone, run_ask, h]

theorem run_restore_record {s : State} (h : getF s SHD_STAT.PHASE = 2) (l : List (List Byte × List (Addr × List Byte))) :
    run (restoreDone (.record l)) s = run (recordPhase l) s := by
  simp only [restoreDone, run_ask, h]

theorem run_restore_snapshot {s : State} (h : getF s SHD_STAT.PHASE = 3) (w : List (Addr × List Byte)) :
    run (restoreDone (.snapshot w)) s = run (setF SHD_STAT.PHASE 4) (run (restoreWrites w) s) := by
  simp only [restoreDone, run_ask, h, run_seq]

theorem run_restore_roll {s : State} (h : getF s SHD_STAT.PHASE = 4) (step : Nat) (w : List (Addr × List Byte)) (l : List Desc) (last : Bool) :
    run (restoreDone (.roll step w l last)) s = run (Act.when last (setF SHD_STAT.PHASE 5)) (run (rollStep step w l) s) := by
  simp only [restoreDone, run_ask, h, run_seq]

theorem run_restore_pipeline {s : State} (h : getF s SHD_STAT.PHASE = 5) :
    run (restoreDone .pipeline) s = run (setF SHD_STAT.PHASE 6) (run (setF SHD_STAT.ROLE 0) (run cusRestore s)) := by
  simp only [restoreDone, run_ask, h, run_all_cons, run_all_nil]

/-- What the answering phase enters: the time and the steps that the takeover took. -/
def answered (ms steps : Nat) (late : Bool) : Act :=
  Act.all [setF SHD_STAT.PHASE 0, setF SHD_TAKE.MS ms, setF SHD_TAKE.STEPS steps, updShd fun x => { x with taking := none },
    Act.when late (logEv .takeoverLate)]

theorem run_restore_answering {s : State} (h : getF s SHD_STAT.PHASE = 6) :
    ∃ ms late, run (restoreDone .answering) s = run (answered ms (min (2 ^ 32 - 1) s.shd.rolled) late) s := by
  simp only [restoreDone, run_ask, h, answered]
  generalize min (2 ^ 32 - 1) s.shd.rolled = steps
  exact ⟨_, _, rfl⟩

theorem answered_spec (ms steps : Nat) (late : Bool) (s : State) :
    getF (run (answered ms steps late) s) SHD_STAT.PHASE = 0 ∧ (run (answered ms steps late) s).shd.taking = none ∧
      getF (run (answered ms steps late) s) SHD_TAKE.STEPS = steps % 2 ^ 32 ∧ (run (answered ms steps late) s).mem = s.mem := by
  simp only [answered, run_all_cons, run_all_nil]
  have hlog : (Act.when late (logEv .takeoverLate)).Changes [.log] := changes_when (changes_logEv _ _ _ _)
  have htail (f : Fld) (t : State) :
      getF (run (Act.when late (logEv .takeoverLate)) (run (updShd fun x => { x with taking := none }) t)) f = getF t f :=
    ((writes_of_changes (l := []) hlog (by decide)).getF List.not_mem_nil _ _ _).trans
      ((writes_of_changes (l := []) (changes_updShd _) (by decide)).getF List.not_mem_nil _ _ _)
  refine ⟨?_, ?_, ?_, ?_⟩
  · rw [htail, getF_setF_apart (by decide), getF_setF_apart (by decide), getF_setF_fits (by decide)]; rfl
  · rw [only_shd hlog.only (by decide)]; rfl
  · rw [htail, getF_setF_fits (by decide)]; rfl
  · rw [mem_of_changes hlog (by decide), mem_of_changes (changes_updShd _) (by decide), setF_mem, setF_mem, setF_mem]

/-- Settles O41: each command and phase by what it runs; the record chosen is the only greatest of the fold. -/
theorem survivalControl : Obligations.SurvivalControl := by
  unfold Obligations.SurvivalControl
  refine ⟨fun s x step h => ⟨fun hopen => ⟨_, rfl, run_secureDone_waits h hopen⟩, fun hclosed hfail => ?_, fun hclosed hfail => ?_⟩,
    fun s => ⟨fun hper => ?_, fun hper => ?_, _, rfl, rfl⟩, fun s p => ⟨_, rfl, realign_spec p s⟩, fun s h => ?_, fun s l r o h hmem hvalid hcommitted hmax => ?_,
    fun s l h hnone => ?_, fun s w h => ?_, fun s step w l h => ⟨?_, ?_⟩, fun s h => ?_, fun s h => ?_⟩
  · refine ⟨_, rfl, ?_⟩
    rw [run_secureDone_refused h hclosed hfail]
    exact ⟨rfl, rfl, rfl, rfl⟩
  · refine ⟨_, rfl, ?_⟩
    rw [run_secureDone_secured h hclosed hfail]
    obtain ⟨hshd, hstep, hevt, hcost, hmem⟩ := secured_spec step (min (2 ^ 32 - 1) ((s.now - x) / 4000)) s
    refine ⟨hshd ▸ rfl, hshd ▸ rfl, hstep, hevt, hcost.trans ?_, hmem⟩
    exact Nat.mod_eq_of_lt (Nat.lt_of_le_of_lt (Nat.min_le_left _ _) (by decide))
  · refine ⟨_, rfl, ?_⟩
    rw [run_shdEnable_admitted hper]
    exact ⟨getF_setF_fits (by decide) _ _ _ _, rfl⟩
  · refine ⟨_, rfl, ?_⟩
    rw [run_shdEnable_refused hper]
    exact ⟨getF_evt_fits (by decide) _ _ _, getF_evt_apart (by decide) _ _ _ _ _, rfl⟩
  · refine ⟨_, rfl, ?_⟩
    rw [run_restore_address h]
    exact ⟨getF_setF_fits (by decide) _ _ _ _, rfl⟩
  · refine ⟨_, rfl, ?_⟩
    obtain ⟨t, ht⟩ := run_recordPhase_chosen (recordChoice_of_highest hmem hvalid hcommitted hmax)
    rw [run_restore_record h, ht]
    exact recordTaken_spec _ _ _
  · refine ⟨_, rfl, ?_⟩
    rw [run_restore_record h, run_recordPhase_none (recordChoice_eq_none hnone)]
    refine ⟨?_, ?_, logged_logEv (by decide) _ _ _ (evt_tally ..), ?_⟩
    · rw [getF_of_changes (changes_logEv _ _ _ _) (by decide), getF_evt_apart (by decide), h]
    · rw [getF_of_changes (changes_logEv _ _ _ _) (by decide), getF_evt_fits (by decide)]; rfl
    · rw [mem_of_changes (changes_logEv _ _ _ _) (by decide), evt_mem]
  · refine ⟨_, _, rfl, rfl, ?_⟩
    rw [run_restore_snapshot h]
    exact ⟨getF_setF_fits (by decide) _ _ _ _, setF_mem .., setF_coh ..⟩
  · refine ⟨_, rfl, ?_⟩
    obtain ⟨hphase, hrolled⟩ := rollStep_spec step w l s
    rw [run_restore_roll h, run_when, if_neg Bool.false_ne_true]
    exact ⟨hphase.trans h, hrolled⟩
  · refine ⟨_, rfl, ?_⟩
    rw [run_restore_roll h, run_when, if_pos rfl, setF_shd]
    exact ⟨getF_setF_fits (by decide) _ _ _ _, (rollStep_spec step w l s).2⟩
  · refine ⟨_, rfl, ?_⟩
    rw [run_restore_pipeline h]
    refine ⟨?_, getF_setF_fits (by decide) _ _ _ _, ?_⟩
    · rw [getF_setF_apart (by decide), getF_setF_fits (by decide)]; rfl
    · rw [setF_mem, setF_mem, mem_of_changes changes_cusRestore (by decide)]
  · refine ⟨_, rfl, ?_⟩
    obtain ⟨ms, late, hrun⟩ := run_restore_answering h
    rw [hrun]
    obtain ⟨hphase, htaking, hsteps, hmem⟩ := answered_spec ms (min (2 ^ 32 - 1) s.shd.rolled) late s
    exact ⟨hphase, htaking, hsteps.trans (Nat.mod_eq_of_lt (Nat.lt_of_le_of_lt (Nat.min_le_left _ _) (by decide))), hmem⟩

end Sys2Proof.Machine

/-! PROOFS. The harbourmaster: telemetry, its firmware, the logbook's housekeeping and calendar time (R397 to R408, R439). -/

namespace Sys2Proof.Machine

section
variable {s : State}

theorem tally_of_changes {k : List Part} {a : Act} (h : a.Changes k) (hk : Part.log ∉ k) (s : State) (q : LogKind) :
    Safety.tally (run a s) q = Safety.tally s q := by rw [Safety.tally, Safety.tally, only_log h.only hk]

theorem Logged.congr {k : LogKind} {s t s' t' : State} (h : Safety.Logged k s t) (hs : Safety.tally s' k = Safety.tally s k) (ht : Safety.tally t' k = Safety.tally t k) :
    Safety.Logged k s' t' := by rw [Safety.Logged, hs, ht]; exact h

/-! Telemetry (R397, R398). -/

/-- A sample is due at this tide, and its ring has slots. -/
def telReady (s : State) : Bool := decide (s.hm.telDue = some (getF s TIDE_COUNT.COUNT)) && decide (getF s HM_TELRING.SLOTS ≠ 0)

/-- The header of a sample. -/
def telHeader (s : State) : List Byte :=
  natLe (getF s TIDE_COUNT.COUNT) 8 ++ natLe (taiNow s) 8 ++ natLe (8 * getF s HM_TELSET.COUNT) 4 ++ natLe s.hm.telSkipped 4 ++ natLe 0 8

/-- The slot that the next sample takes. -/
def telSlotAt (s : State) : Nat := getF s HM_TELRING.ADDR * 64 + s.hm.telSlot % getF s HM_TELRING.SLOTS * (32 + 8 * getF s HM_TELSET.COUNT)

/-- The registers of a sample, by address. -/
def telList (s : State) : List Nat := (List.range (getF s HM_TELSET.COUNT)).map fun i => readNat s (getF s HM_TELSET.ADDR * 8 + 8 * i) 8

theorem run_telSample_idle (h : telReady s = false) : run telSample s = s :=
  (run_when _ _ s).trans (if_neg (Bool.eq_false_iff.mp h))

theorem run_telSample_ready (h : telReady s = true) :
    run telSample s = run (if telHost s then send (.hostInterrupt (telCore s)) else if !serviceFree s then .skip else
      Act.all [pkgWrite (telSlotAt s) (telHeader s), telCopy (telSlotAt s + 32) (telList s), incF HM_TELEM.SAMPLES,
        updHm fun h => { h with telDue := none, telSkipped := 0, telSlot := h.telSlot + 1 }]) s :=
  (run_when _ _ s).trans (if_pos h)

theorem keeps_readClears_telem (r : RegName) (i j : Nat) : (readClears r i j).KeepsReg .HM_TELEM 0 0 := by
  by_cases h : r = .HM_TELEM
  · subst h
    exact (within_when _ _).mpr fun hc => absurd hc (by decide)
  · exact (within_when _ _).mpr fun _ _ _ => getReg_apply_reg_name _ _ _ _ _ _ h

theorem keeps_telCopy_telem (at_ : Nat) (l : List Nat) : (telCopy at_ l).KeepsReg .HM_TELEM 0 0 := by
  induction l generalizing at_ with
  | nil => trivial
  | cons a l ih =>
    refine ⟨(within_ask _).mpr fun s => ?_, ih _⟩
    split
    · exact ⟨keeps_readClears_telem _ _ _, keeps_pkgWrite _ _ (by decide) _ _⟩
    · exact ⟨(within_when _ _).mpr fun _ => (writes_of_changes (l := []) (changes_accessFault _ _) (by decide)).keeps (by decide) _ _,
        keeps_pkgWrite _ _ (by decide) _ _⟩

/-- A sample that is taken writes its header and the registers of its list, and counts. -/
def telTake (s : State) : Act :=
  Act.all [pkgWrite (telSlotAt s) (telHeader s), telCopy (telSlotAt s + 32) (telList s), incF HM_TELEM.SAMPLES,
    updHm fun h => { h with telDue := none, telSkipped := 0, telSlot := h.telSlot + 1 }]

theorem run_telSample_host (h : telReady s = true) (hhost : telHost s = true) : run telSample s = { s with out := .hostInterrupt (telCore s) :: s.out } := by
  rw [run_telSample_ready h, if_pos hhost]; rfl

theorem run_telSample_busy (h : telReady s = true) (hhost : telHost s = false) (hfree : serviceFree s = false) : run telSample s = s := by
  rw [run_telSample_ready h, if_neg (Bool.eq_false_iff.mp hhost), hfree]; rfl

theorem run_telSample_take (h : telReady s = true) (hhost : telHost s = false) (hfree : serviceFree s = true) : run telSample s = run (telTake s) s := by
  rw [run_telSample_ready h, if_neg (Bool.eq_false_iff.mp hhost), hfree]; rfl

theorem telTake_spec :
    getF (run (telTake s) s) HM_TELEM.SAMPLES = min (getF s HM_TELEM.SAMPLES + 1) (2 ^ 32 - 1) ∧
      (run (telTake s) s).hm = { s.hm with telDue := none, telSkipped := 0, telSlot := s.hm.telSlot + 1 } := by
  simp only [telTake, run_all_cons, run_all_nil]
  refine ⟨?_, ?_⟩
  · have hkeep : getF (run (telCopy (telSlotAt s + 32) (telList s)) (run (pkgWrite (telSlotAt s) (telHeader s)) s)) HM_TELEM.SAMPLES = getF s HM_TELEM.SAMPLES :=
      (getF_of_getReg (run_same (fun s => getReg s .HM_TELEM 0 0) (keeps_telCopy_telem _ _) _)).trans (pkgWrite_getF _ _ _ _ _ _ (by decide))
    rw [getF_of_changes (changes_updHm _) (by decide), getF_incF_fits (by decide), hkeep]
    rfl
  · have hkeep : (run (incF HM_TELEM.SAMPLES) (run (telCopy (telSlotAt s + 32) (telList s)) (run (pkgWrite (telSlotAt s) (telHeader s)) s))).hm = s.hm :=
      (only_hm (changes_incF _ _ _ _).only (by decide) _).trans ((only_hm (changes_telCopy _ _).only (by decide) _).trans (pkgWrite_hm _ _ _))
    exact congrArg (fun h : HmSt => { h with telDue := none, telSkipped := 0, telSlot := h.telSlot + 1 }) hkeep

/-- A sample without registers stands in its slot, headed by the tide. -/
theorem readMem_telTake (hcount : getF s HM_TELSET.COUNT = 0) :
    readMem (run (telTake s) s) (getF s HM_TELRING.ADDR * 64 + s.hm.telSlot % getF s HM_TELRING.SLOTS * 32) 8 = natLe (getF s TIDE_COUNT.COUNT) 8 := by
  have hslot : getF s HM_TELRING.ADDR * 64 + s.hm.telSlot % getF s HM_TELRING.SLOTS * 32 = telSlotAt s := by rw [telSlotAt, hcount]
  have hlist : telList s = [] := by rw [telList, hcount]; rfl
  have hhead : telHeader s = natLe (getF s TIDE_COUNT.COUNT) 8 ++ (natLe (taiNow s) 8 ++ natLe (8 * getF s HM_TELSET.COUNT) 4 ++ natLe s.hm.telSkipped 4 ++ natLe 0 8) := by
    simp only [telHeader, List.append_assoc]
  have hread := storeMem_readMem {} (telSlotAt s) (natLe (getF s TIDE_COUNT.COUNT) 8)
    (natLe (taiNow s) 8 ++ natLe (8 * getF s HM_TELSET.COUNT) 4 ++ natLe s.hm.telSkipped 4 ++ natLe 0 8) s
  rw [length_natLe] at hread
  rw [hslot, telTake, hlist, hhead]
  simp only [run_all_cons, run_all_nil]
  rw [readMem_of_changes (changes_updHm _) (by decide) (by decide), readMem_of_changes (changes_incF _ _ _ _) (by decide) (by decide)]
  exact hread

theorem telSkip_spec :
    (run telSkip s).hm = { s.hm with telDue := none, telSkipped := s.hm.telSkipped + 1 } ∧
      getF (run telSkip s) HM_TELEM.SKIPPED = min (getF s HM_TELEM.SKIPPED + 1) (2 ^ 32 - 1) ∧ getF (run telSkip s) HM_EVT.SHED = 1 ∧ (run telSkip s).mem = s.mem := by
  simp only [telSkip, run_all_cons, run_all_nil]
  have htail (f : Fld) (t : State) : getF (run (updHm fun h => { h with telDue := none, telSkipped := h.telSkipped + 1 }) t) f = getF t f :=
    getF_of_changes (changes_updHm _) (by decide) f 0 0 t
  refine ⟨?_, ?_, ?_, ?_⟩
  · exact congrArg (fun h : HmSt => { h with telDue := none, telSkipped := h.telSkipped + 1 }) ((evt_hm ..).trans (incF_hm ..))
  · rw [htail, getF_evt_apart (by decide), getF_incF_fits (by decide)]; rfl
  · rw [htail, getF_evt_fits (by decide)]; rfl
  · rw [mem_of_changes (changes_updHm _) (by decide), evt_mem, incF_mem]

theorem run_telTimeout_due {k : Nat} (h : s.hm.telDue = some k) (hk : k ≠ getF s TIDE_COUNT.COUNT) : run telTimeout s = run telSkip s := by
  rw [telTimeout, run_ask, h]
  exact (run_when _ _ s).trans (if_pos (decide_eq_true hk))

theorem run_telTimeout_none (h : s.hm.telDue = none) : run telTimeout s = s := by
  rw [telTimeout, run_ask, h]; rfl

theorem run_telDone_due {k : Nat} (hhost : telHost s = true) (h : s.hm.telDue = some k) :
    run (telDone k) s = run (updHm fun h => { h with telDue := none, telSkipped := 0 }) (run (incF HM_TELEM.SAMPLES) s) := by
  rw [telDone, run_ask, hhost, h, decide_eq_true rfl]; rfl

theorem run_telDone_other {k : Nat} (h : telHost s = false ∨ s.hm.telDue ≠ some k) : run (telDone k) s = s := by
  refine (run_when _ _ s).trans (if_neg fun hc => ?_)
  obtain ⟨hhost, hdue⟩ := Bool.and_eq_true_iff.mp hc
  exact h.elim (fun h => Bool.false_ne_true (h.symm.trans hhost)) fun h => h (of_decide_eq_true hdue)

/-! Firmware (R399 to R401). -/

theorem fwReject_spec (reason : Nat) (s : State) :
    getF (run (fwReject reason) s) HM_FWSTAT.REASON = reason % 2 ^ 8 ∧ getF (run (fwReject reason) s) HM_EVT.FWREJ = 1 ∧
      getF (run (fwReject reason) s) HM_FWSTAT.STATE = getF s HM_FWSTAT.STATE ∧ getF (run (fwReject reason) s) HM_FW.ADDR = getF s HM_FW.ADDR ∧
      (run (fwReject reason) s).hm = s.hm ∧ (run (fwReject reason) s).mem = s.mem ∧ Safety.Logged .fwRejected s (run (fwReject reason) s) := by
  simp only [fwReject, run_all_cons, run_all_nil]
  have htail (f : Fld) (t : State) : getF (run (logEv .fwRejected) t) f = getF t f :=
    getF_of_changes (changes_logEv _ _ _ _) (by decide) f 0 0 t
  refine ⟨?_, ?_, ?_, ?_, ?_, ?_, ?_⟩
  · rw [htail, getF_evt_apart (by decide), getF_setF_fits (by decide)]; rfl
  · rw [htail, getF_evt_fits (by decide)]; rfl
  · rw [htail, getF_evt_apart (by decide), getF_setF_apart (by decide)]
  · rw [htail, getF_evt_apart (by decide), getF_setF_apart (by decide)]
  · rw [only_hm (changes_logEv _ _ _ _).only (by decide), evt_hm, setF_hm]
  · rw [mem_of_changes (changes_logEv _ _ _ _) (by decide), evt_mem, setF_mem]
  · exact logged_logEv (by decide) _ _ _ ((evt_tally ..).trans (setF_tally ..))

/-- STATE reads 1, 2 or 3: an image is in hand. -/
def fwInHand (s : State) : Bool := getF s HM_FWSTAT.STATE = 1 || getF s HM_FWSTAT.STATE = 2 || getF s HM_FWSTAT.STATE = 3

theorem fwInHand_iff : fwInHand s = true ↔ getF s HM_FWSTAT.STATE = 1 ∨ getF s HM_FWSTAT.STATE = 2 ∨ getF s HM_FWSTAT.STATE = 3 := by
  simp [fwInHand, or_assoc]

theorem fwInHand_setF (x : Nat) : fwInHand (run (setF HM_FW.ADDR x) s) = fwInHand s := by
  simp only [fwInHand, getF_setF_apart (f := HM_FW.ADDR) (g := HM_FWSTAT.STATE) (by decide)]

theorem run_fwGo_inHand (h : fwInHand s = true) (a : Addr) : run (fwGo a) s = run (fwReject 0x0D) (run (setF HM_FW.ADDR (a.toNat / 64)) s) := by
  rw [← fwInHand_setF (a.toNat / 64)] at h
  rw [fwGo, run_seq, run_ask]
  exact congrFun (congrArg run (if_pos h)) _

theorem run_fwGo_free (h : fwInHand s = false) (a : Addr) : ∃ flash, run (fwGo a) s =
    run (updHm fun h => { h with fwAddr := some (BitVec.ofNat 48 (a.toNat / 64 * 64)), fwFlash := flash })
      (run (setF HM_FWSTAT.STATE 1) (run (setF HM_FW.ADDR (a.toNat / 64)) s)) := by
  rw [← fwInHand_setF (a.toNat / 64)] at h
  rw [fwGo, run_seq, run_ask]
  exact ⟨_, congrFun (congrArg run (if_neg (Bool.eq_false_iff.mp h))) _⟩

theorem run_fwCheckDone_good {a : Addr} (h : s.hm.fwAddr = some a)
    (hr : fwCheck (getReg s .IDREV 0 0).toNat Config.vendorKeyHash s.life s.sec.hmFloor 2 (readFw s a.toNat) = 0) :
    run fwCheckDone s = run (updHm fun h => { h with
      fwAddr := none, fwImage := (readFw s a.toNat).take (imgLength (readFw s a.toNat)), fwFirst := firstBoundary s }) (run (setF HM_FWSTAT.STATE 2) s) := by
  rw [fwCheckDone, run_ask, h]
  exact congrFun (congrArg run (if_pos hr)) s

theorem run_fwCheckDone_bad {a : Addr} (h : s.hm.fwAddr = some a) {r : Nat} (hr : r ≠ 0)
    (hcheck : r = fwCheck (getReg s .IDREV 0 0).toNat Config.vendorKeyHash s.life s.sec.hmFloor 2 (readFw s a.toNat)) :
    run fwCheckDone s = run (updHm fun h => { h with fwAddr := none }) (run (fwReject r) (run (setF HM_FWSTAT.STATE 5) s)) := by
  rw [fwCheckDone, run_ask, h]
  dsimp only
  rw [← hcheck, if_neg hr, run_all_cons, run_all_cons, run_all_cons, run_all_nil]

theorem run_fwDrop_late (hstaged : fwStaged s = true) (hlate : s.hm.fwFirst + 1024 ≤ getF s TIDE_COUNT.COUNT) :
    run fwDrop s = run (updHm fun h => { h with fwImage := [] }) (run (fwReject 0x0E) (run (setF HM_FWSTAT.STATE 5) s)) := by
  rw [fwDrop, run_ask, run_when, hstaged, decide_eq_true hlate, Bool.and_self, if_pos rfl, run_all_cons, run_all_cons, run_all_cons, run_all_nil]

theorem run_fwDrop_not (h : fwStaged s = false ∨ getF s TIDE_COUNT.COUNT < s.hm.fwFirst + 1024) : run fwDrop s = s := by
  refine (run_when _ _ s).trans (if_neg fun hc => ?_)
  obtain ⟨hstaged, hlate⟩ := Bool.and_eq_true_iff.mp hc
  exact h.elim (fun h => Bool.false_ne_true (h.symm.trans hstaged)) fun h => Nat.not_lt.mpr (of_decide_eq_true hlate) h

theorem run_fwRevert_some {v x : Nat} (h : s.hm.fwOld = some (v, x)) : run fwRevert s = run (Act.all [setF HM_FWSTAT.STATE 6, setF HM_FWSTAT.VERSION v,
    evt HM_EVT.REVERT, logEv .fwReverted, updHm fun h => { h with fwOld := none, fwRun := [] }]) s := by
  rw [fwRevert, run_ask, h]

theorem run_fwRevert_none (h : s.hm.fwOld = none) : run fwRevert s = s := by
  rw [fwRevert, run_ask, h]; rfl

end

theorem telReady_iff {s : State} : telReady s = true ↔ s.hm.telDue = some (getF s TIDE_COUNT.COUNT) ∧ getF s HM_TELRING.SLOTS ≠ 0 := by
  simp [telReady]

theorem fwRejected_spec (reason : Nat) {f : HmSt → HmSt} (s : State) :
    getF (run (updHm f) (run (fwReject reason) (run (setF HM_FWSTAT.STATE 5) s))) HM_FWSTAT.STATE = 5 ∧
      getF (run (updHm f) (run (fwReject reason) (run (setF HM_FWSTAT.STATE 5) s))) HM_FWSTAT.REASON = reason % 2 ^ 8 ∧
      getF (run (updHm f) (run (fwReject reason) (run (setF HM_FWSTAT.STATE 5) s))) HM_EVT.FWREJ = 1 ∧
      (run (updHm f) (run (fwReject reason) (run (setF HM_FWSTAT.STATE 5) s))).hm = f s.hm ∧
      (run (updHm f) (run (fwReject reason) (run (setF HM_FWSTAT.STATE 5) s))).mem = s.mem ∧
      Safety.Logged .fwRejected s (run (updHm f) (run (fwReject reason) (run (setF HM_FWSTAT.STATE 5) s))) := by
  obtain ⟨hreason, hevt, hstate, _, hhm, hmem, hlog⟩ := fwReject_spec reason (run (setF HM_FWSTAT.STATE 5) s)
  refine ⟨?_, ?_, ?_, congrArg f (hhm.trans (setF_hm ..)), ?_, Logged.congr hlog (setF_tally ..).symm (tally_of_changes (changes_updHm _) (by decide) _ _)⟩
  · rw [getF_of_changes (changes_updHm _) (by decide), hstate, getF_setF_fits (by decide)]; rfl
  · rw [getF_of_changes (changes_updHm _) (by decide), hreason]
  · rw [getF_of_changes (changes_updHm _) (by decide), hevt]
  · rw [mem_of_changes (changes_updHm _) (by decide), hmem, setF_mem]

/-! The housekeeping of the logbook and calendar time (R402, R406 to R408, R439). -/

theorem run_setTai_locked {s : State} (h : timeSrcNow s = .ptp) (v : W64) : run (setTai v) s = run (logEv .timeRejected) (run (evt HM_EVT.TIMEREJ) s) := by
  rw [setTai, run_ask, if_pos h, run_seq]

theorem run_setTai_free {s : State} (h : timeSrcNow s ≠ .ptp) (v : W64) :
    run (setTai v) s = { s with time := { src := .host, tai := v.toNat, at_ := s.now, unc := getF s HM_SETUNC.UNCERT, resets := 0, grid := s.time.grid } } := by
  rw [setTai, run_ask, if_neg h]; rfl

theorem run_ptpMessage_locked {s : State} (h : s.time.src = .ptp) (x : Int) : run (ptpMessage x) s =
    { s with hm := { s.hm with ptpOffset := x }, time := { s.time with tai := taiNow s, at_ := s.now, unc := min x.natAbs (2 ^ 32 - 1) } } := by
  rw [ptpMessage, run_seq, run_ask]
  exact (run_when _ _ _).trans (if_pos (decide_eq_true h))

theorem run_ptpMessage_free {s : State} (h : s.time.src ≠ .ptp) (x : Int) : run (ptpMessage x) s = { s with hm := { s.hm with ptpOffset := x } } := by
  rw [ptpMessage, run_seq, run_ask]
  exact (run_when _ _ _).trans (if_neg fun hc => h (of_decide_eq_true hc))

theorem telemetry_spec (s : State) :
    (s.hm.telDue = some (getF s TIDE_COUNT.COUNT) → getF s HM_TELRING.SLOTS ≠ 0 →
      (telHost s = true → ∃ t, exec .telemetrySample s = .next t ∧ t = { s with out := .hostInterrupt (telCore s) :: s.out }) ∧
      (telHost s = false → serviceFree s = false → ∃ t, exec .telemetrySample s = .next t ∧ t = s) ∧
      (telHost s = false → serviceFree s = true → ∃ t, exec .telemetrySample s = .next t ∧ getF t HM_TELEM.SAMPLES = min (getF s HM_TELEM.SAMPLES + 1) (2 ^ 32 - 1) ∧ t.hm.telDue = none ∧
        t.hm.telSlot = s.hm.telSlot + 1 ∧ t.hm.telSkipped = 0 ∧
        (getF s HM_TELSET.COUNT = 0 → readMem t (getF s HM_TELRING.ADDR * 64 + s.hm.telSlot % getF s HM_TELRING.SLOTS * 32) 8 = natLe (getF s TIDE_COUNT.COUNT) 8))) ∧
    (s.hm.telDue ≠ some (getF s TIDE_COUNT.COUNT) ∨ getF s HM_TELRING.SLOTS = 0 → ∃ t, exec .telemetrySample s = .next t ∧ t = s) := by
  refine ⟨fun hdue hslots => ?_, fun h => ⟨_, rfl, run_telSample_idle (Bool.eq_false_iff.mpr fun hready => ?_)⟩⟩
  · have hready := telReady_iff.mpr ⟨hdue, hslots⟩
    refine ⟨fun hhost => ⟨_, rfl, run_telSample_host hready hhost⟩, fun hhost hfree => ⟨_, rfl, run_telSample_busy hready hhost hfree⟩, fun hhost hfree => ⟨_, rfl, ?_⟩⟩
    obtain ⟨hsamples, hhm⟩ := telTake_spec (s := s)
    rw [run_telSample_take hready hhost hfree]
    exact ⟨hsamples, hhm ▸ rfl, hhm ▸ rfl, hhm ▸ rfl, readMem_telTake⟩
  · obtain ⟨hdue, hslots⟩ := telReady_iff.mp hready
    exact h.elim (fun h => h hdue) fun h => hslots h

theorem telemetryEnd_spec (s : State) :
    (∀ k, s.hm.telDue = some k → k ≠ getF s TIDE_COUNT.COUNT → ∃ t, exec .telemetrySkip s = .next t ∧ t.hm.telDue = none ∧ t.hm.telSkipped = s.hm.telSkipped + 1 ∧
      getF t HM_TELEM.SKIPPED = min (getF s HM_TELEM.SKIPPED + 1) (2 ^ 32 - 1) ∧ getF t HM_EVT.SHED = 1 ∧ t.mem = s.mem) ∧
    (s.hm.telDue = none → ∃ t, exec .telemetrySkip s = .next t ∧ t = s) ∧
    (∀ k : BitVec 48, telHost s = true → s.hm.telDue = some k.toNat → ∃ t, exec (.hmTeldone k) s = .next t ∧ t.hm.telDue = none ∧
      getF t HM_TELEM.SAMPLES = min (getF s HM_TELEM.SAMPLES + 1) (2 ^ 32 - 1) ∧ t.mem = s.mem) ∧
    (∀ k : BitVec 48, telHost s = false ∨ s.hm.telDue ≠ some k.toNat → ∃ t, exec (.hmTeldone k) s = .next t ∧ t = s) := by
  refine ⟨fun k h hk => ⟨_, rfl, ?_⟩, fun h => ⟨_, rfl, run_telTimeout_none h⟩, fun k hhost h => ⟨_, rfl, ?_⟩, fun k h => ⟨_, rfl, run_telDone_other h⟩⟩
  · obtain ⟨hhm, hskipped, hshed, hmem⟩ := telSkip_spec (s := s)
    rw [run_telTimeout_due h hk]
    exact ⟨hhm ▸ rfl, hhm ▸ rfl, hskipped, hshed, hmem⟩
  · rw [run_telDone_due hhost h]
    refine ⟨rfl, ?_, ?_⟩
    · rw [getF_of_changes (changes_updHm _) (by decide), getF_incF_fits (by decide)]; rfl
    · rw [mem_of_changes (changes_updHm _) (by decide), incF_mem]

theorem firmwareGo_spec (s : State) (a : Addr) : ∃ t, exec (.hmFwGo a) s = .next t ∧ t.mem = s.mem ∧ getF t HM_FW.ADDR = a.toNat / 64 ∧
    ((getF s HM_FWSTAT.STATE = 1 ∨ getF s HM_FWSTAT.STATE = 2 ∨ getF s HM_FWSTAT.STATE = 3) →
      getF t HM_FWSTAT.STATE = getF s HM_FWSTAT.STATE ∧ getF t HM_FWSTAT.REASON = 0x0D ∧ getF t HM_EVT.FWREJ = 1 ∧ t.hm = s.hm ∧ Safety.Logged .fwRejected s t) ∧
    (getF s HM_FWSTAT.STATE ≠ 1 → getF s HM_FWSTAT.STATE ≠ 2 → getF s HM_FWSTAT.STATE ≠ 3 →
      getF t HM_FWSTAT.STATE = 1 ∧ t.hm.fwAddr = some (BitVec.ofNat 48 (a.toNat / 64 * 64))) := by
  have haddr : (a.toNat / 64) % 2 ^ 42 = a.toNat / 64 := Nat.mod_eq_of_lt (by have := a.isLt; omega)
  refine ⟨_, rfl, ?_⟩
  by_cases h : fwInHand s = true
  · obtain ⟨hreason, hevt, hstate, hfield, hhm, hmem, hlog⟩ := fwReject_spec 0x0D (run (setF HM_FW.ADDR (a.toNat / 64)) s)
    rw [run_fwGo_inHand h]
    refine ⟨hmem.trans (setF_mem ..), hfield.trans ((getF_setF_fits (by decide) _ _ _ _).trans haddr),
      fun _ => ⟨hstate.trans (getF_setF_apart (by decide) _ _ _ _ _ _), hreason, hevt, hhm.trans (setF_hm ..), hlog⟩, fun h1 h2 h3 => ?_⟩
    exact absurd (fwInHand_iff.mp h) (not_or.mpr ⟨h1, not_or.mpr ⟨h2, h3⟩⟩)
  · obtain ⟨flash, hrun⟩ := run_fwGo_free (Bool.eq_false_iff.mpr h) a
    rw [hrun]
    refine ⟨?_, ?_, fun hstate => absurd (fwInHand_iff.mpr hstate) h, fun _ _ _ => ⟨?_, rfl⟩⟩
    · rw [mem_of_changes (changes_updHm _) (by decide), setF_mem, setF_mem]
    · rw [getF_of_changes (changes_updHm _) (by decide), getF_setF_apart (by decide), getF_setF_fits (by decide)]; exact haddr
    · rw [getF_of_changes (changes_updHm _) (by decide), getF_setF_fits (by decide)]; rfl

theorem firmwareCheck_spec (s : State) (a : Addr) (r : Nat) (h : s.hm.fwAddr = some a)
    (hr : r = fwCheck (getReg s .IDREV 0 0).toNat Config.vendorKeyHash s.life s.sec.hmFloor 2 (readFw s a.toNat)) :
    ∃ t, exec .hmFwCheckDone s = .next t ∧ t.hm.fwAddr = none ∧ t.mem = s.mem ∧
      (r = 0 → getF t HM_FWSTAT.STATE = 2 ∧ t.hm.fwImage = (readFw s a.toNat).take (imgLength (readFw s a.toNat)) ∧ t.hm.fwFirst = firstBoundary s) ∧
      (r ≠ 0 → getF t HM_FWSTAT.STATE = 5 ∧ getF t HM_FWSTAT.REASON = r % 2 ^ 8 ∧ getF t HM_EVT.FWREJ = 1 ∧ Safety.Logged .fwRejected s t) := by
  refine ⟨_, rfl, ?_⟩
  by_cases h0 : r = 0
  · rw [run_fwCheckDone_good h (hr.symm.trans h0)]
    generalize (readFw s a.toNat).take (imgLength (readFw s a.toNat)) = image
    refine ⟨rfl, ?_, fun _ => ⟨?_, rfl, rfl⟩, fun hne => absurd h0 hne⟩
    · rw [mem_of_changes (changes_updHm _) (by decide), setF_mem]
    · rw [getF_of_changes (changes_updHm _) (by decide), getF_setF_fits (by decide)]; rfl
  · obtain ⟨hstate, hreason, hevt, hhm, hmem, hlog⟩ := fwRejected_spec r (f := fun h => { h with fwAddr := none }) s
    rw [run_fwCheckDone_bad h h0 hr]
    exact ⟨hhm ▸ rfl, hmem, fun h => absurd h h0, fun _ => ⟨hstate, hreason, hevt, hlog⟩⟩

theorem firmwareEnd_spec (s : State) :
    (fwStaged s = true → s.hm.fwFirst + 1024 ≤ getF s TIDE_COUNT.COUNT → ∃ t, exec .hmFwDrop s = .next t ∧ getF t HM_FWSTAT.STATE = 5 ∧ getF t HM_FWSTAT.REASON = 0x0E ∧
      getF t HM_EVT.FWREJ = 1 ∧ t.hm.fwImage = [] ∧ Safety.Logged .fwRejected s t ∧ t.mem = s.mem) ∧
    (fwStaged s = false ∨ getF s TIDE_COUNT.COUNT < s.hm.fwFirst + 1024 → ∃ t, exec .hmFwDrop s = .next t ∧ t = s) ∧
    (∀ v x, s.hm.fwOld = some (v, x) → ∃ t, exec .hmFwRevert s = .next t ∧ getF t HM_FWSTAT.STATE = 6 ∧ getF t HM_FWSTAT.VERSION = v % 2 ^ 32 ∧ getF t HM_EVT.REVERT = 1 ∧
      t.hm.fwOld = none ∧ Safety.Logged .fwReverted s t ∧ t.mem = s.mem) ∧
    (s.hm.fwOld = none → ∃ t, exec .hmFwRevert s = .next t ∧ t = s) := by
  refine ⟨fun hstaged hlate => ⟨_, rfl, ?_⟩, fun h => ⟨_, rfl, run_fwDrop_not h⟩, fun v x h => ⟨_, rfl, ?_⟩, fun h => ⟨_, rfl, run_fwRevert_none h⟩⟩
  · obtain ⟨hstate, hreason, hevt, hhm, hmem, hlog⟩ := fwRejected_spec 0x0E (f := fun h => { h with fwImage := [] }) s
    rw [run_fwDrop_late hstaged hlate]
    exact ⟨hstate, hreason, hevt, hhm ▸ rfl, hlog, hmem⟩
  · rw [run_fwRevert_some h]
    simp only [run_all_cons, run_all_nil]
    refine ⟨?_, ?_, ?_, rfl, Logged.congr (logged_logEv (by decide) _ _ _ ((evt_tally ..).trans ((setF_tally ..).trans (setF_tally ..)))) rfl
      (tally_of_changes (changes_updHm _) (by decide) _ _), ?_⟩
    · rw [getF_of_changes (changes_updHm _) (by decide), getF_of_changes (changes_logEv _ _ _ _) (by decide), getF_evt_apart (by decide), getF_setF_apart (by decide),
        getF_setF_fits (by decide)]; rfl
    · rw [getF_of_changes (changes_updHm _) (by decide), getF_of_changes (changes_logEv _ _ _ _) (by decide), getF_evt_apart (by decide), getF_setF_fits (by decide)]; rfl
    · rw [getF_of_changes (changes_updHm _) (by decide), getF_of_changes (changes_logEv _ _ _ _) (by decide), getF_evt_fits (by decide)]; rfl
    · rw [mem_of_changes (changes_updHm _) (by decide), mem_of_changes (changes_logEv _ _ _ _) (by decide), evt_mem, setF_mem, setF_mem]

theorem hostTime_spec (s : State) (v : W64) : ∃ t, exec (.hmSettai v) s = .next t ∧ t.mem = s.mem ∧
    (timeSrcNow s = .ptp → getF t HM_EVT.TIMEREJ = 1 ∧ t.time = s.time ∧ Safety.Logged .timeRejected s t) ∧
    (timeSrcNow s ≠ .ptp → t.time.src = .host ∧ t.time.tai = v.toNat ∧ t.time.at_ = s.now ∧ t.time.unc = getF s HM_SETUNC.UNCERT ∧ t.regs = s.regs) := by
  refine ⟨_, rfl, ?_⟩
  by_cases h : timeSrcNow s = .ptp
  · rw [run_setTai_locked h]
    refine ⟨?_, fun _ => ⟨?_, ?_, logged_logEv (by decide) _ _ _ (evt_tally ..)⟩, fun hne => absurd h hne⟩
    · rw [mem_of_changes (changes_logEv _ _ _ _) (by decide), evt_mem]
    · rw [getF_of_changes (changes_logEv _ _ _ _) (by decide), getF_evt_fits (by decide)]; rfl
    · rw [only_time (changes_logEv _ _ _ _).only (by decide), evt_time]
  · rw [run_setTai_free h]
    exact ⟨rfl, fun hp => absurd hp h, fun _ => ⟨rfl, rfl, rfl, rfl, rfl⟩⟩

theorem ptp_spec (s : State) :
    (s.time.src = .ptp → ∃ t, exec .ptpLockLost s = .next t ∧ t.time.src = .holdover ∧ t.time.tai = taiNow s ∧ t.time.unc = uncertNow s ∧ t.regs = s.regs ∧ t.mem = s.mem) ∧
    (s.time.src ≠ .ptp → ∃ t, exec .ptpLockLost s = .next t ∧ t = s) ∧
    (timeSrcNow s = .unknown → ∃ t, exec .timeUnknown s = .next t ∧ t.time.src = .unknown ∧ t.time.tai = taiNow s ∧ t.regs = s.regs ∧ t.mem = s.mem) ∧
    (timeSrcNow s ≠ .unknown → ∃ t, exec .timeUnknown s = .next t ∧ t = s) ∧
    (∀ x : Int, ∃ t, exec (.ptpMessage x) s = .next t ∧ t.hm.ptpOffset = x ∧ t.regs = s.regs ∧ t.mem = s.mem ∧
      (s.time.src = .ptp → t.time.unc = min x.natAbs (2 ^ 32 - 1)) ∧ (s.time.src ≠ .ptp → t.time = s.time)) ∧
    ∃ t, exec .ppsPulse s = .next t ∧ t = { s with out := .pps :: s.out } := by
  refine ⟨fun h => ⟨_, rfl, ?_⟩, fun h => ⟨_, rfl, ?_⟩, fun h => ⟨_, rfl, ?_⟩, fun h => ⟨_, rfl, ?_⟩, fun x => ⟨_, rfl, ?_⟩, _, rfl, rfl⟩
  · rw [show run ptpLost s = _ from (run_when _ _ s).trans (if_pos (decide_eq_true h))]
    exact ⟨rfl, rfl, rfl, rfl, rfl⟩
  · exact (run_when _ _ s).trans (if_neg fun hc => h (of_decide_eq_true hc))
  · rw [show run timeLost s = _ from (run_when _ _ s).trans (if_pos (decide_eq_true h))]
    exact ⟨rfl, rfl, rfl, rfl⟩
  · exact (run_when _ _ s).trans (if_neg fun hc => h (of_decide_eq_true hc))
  · by_cases h : s.time.src = .ptp
    · rw [run_ptpMessage_locked h]
      exact ⟨rfl, rfl, rfl, fun _ => rfl, fun hne => absurd h hne⟩
    · rw [run_ptpMessage_free h]
      exact ⟨rfl, rfl, rfl, fun hp => absurd hp h, fun _ => rfl⟩

/-- Settles O43, from what telemetry, the firmware, the logbook and the calendar do one by one. -/
theorem harbourmaster : Obligations.Harbourmaster := by
  unfold Obligations.Harbourmaster
  refine ⟨fun s => ?_, firmwareGo_spec, firmwareCheck_spec, firmwareEnd_spec, fun s k => ⟨_, rfl, rfl, rfl, rfl, rfl, rfl⟩, fun s => ⟨⟨_, rfl, rfl, rfl, rfl⟩, _, rfl, rfl⟩,
    hostTime_spec, fun s tai unc => ⟨_, rfl, rfl, rfl, rfl, rfl, rfl, rfl⟩, ptp_spec⟩
  obtain ⟨hready, hidle⟩ := telemetry_spec s
  exact ⟨hready, hidle, telemetryEnd_spec s⟩

end Sys2Proof.Machine

/-! PROOFS. Tide gauges, the supply's answer, dark dies and standby (R333 to R337, R441). -/

namespace Sys2Proof.Machine

section
variable {s : State} {d : Nat}

/-! A sample of a die's gauges (R335 to R337). -/

/-- The worst slack of a sample. -/
def worstOf (r : List (Nat × BitVec 8)) : Nat := (r.map fun x => x.1).foldl min (r.headD (0, 0)).1

/-- One gauge takes its reading. -/
def gaugeEnter (base tide : Nat) (x : (Nat × BitVec 8) × Nat) : Act :=
  Act.all [setF AGE_GAUGE.TIDE tide (base + x.2), setF AGE_GAUGE.TEMP x.1.2.toNat (base + x.2), setF AGE_GAUGE.SLACK (min 255 x.1.1) (base + x.2)]

/-- A gauge's register holds a reading. -/
def GaugeReads (t : State) (k tide : Nat) (x : Nat × BitVec 8) : Prop :=
  getF t AGE_GAUGE.TIDE k = tide ∧ getF t AGE_GAUGE.TEMP k = x.2.toNat ∧ getF t AGE_GAUGE.SLACK k = min 255 x.1

theorem gaugeEnter_reads (base k : Nat) {tide : Nat} (h : tide < 2 ^ 48) (x : Nat × BitVec 8) (s : State) :
    GaugeReads (run (gaugeEnter base tide (x, k)) s) (base + k) tide x := by
  simp only [GaugeReads, gaugeEnter, run_all_cons, run_all_nil]
  refine ⟨?_, ?_, ?_⟩
  · rw [getF_setF_apart (by decide), getF_setF_apart (by decide), getF_setF_fits (by decide)]
    exact Nat.mod_eq_of_lt h
  · rw [getF_setF_apart (by decide), getF_setF_fits (by decide)]
    exact Nat.mod_eq_of_lt x.2.isLt
  · rw [getF_setF_fits (by decide)]
    exact Nat.mod_eq_of_lt (Nat.lt_of_le_of_lt (Nat.min_le_left _ _) (by decide))

theorem getF_gaugeEnter_other (base tide : Nat) (x : (Nat × BitVec 8) × Nat) {k : Nat} (h : (base + x.2) % 65536 ≠ k % 65536) (f : Fld) (s : State) :
    getF (run (gaugeEnter base tide x) s) f k = getF s f k := by
  simp only [gaugeEnter, run_all_cons, run_all_nil]
  rw [getF_setF_index _ _ _ _ _ _ (.inl h), getF_setF_index _ _ _ _ _ _ (.inl h), getF_setF_index _ _ _ _ _ _ (.inl h)]

/-- The readings that follow a gauge's do not reach it. -/
theorem getF_gauges_before (base tide : Nat) (r : List (Nat × BitVec 8)) {n : Nat} (hn : base + n + r.length ≤ 65536) {k : Nat} (hk : k < n) (f : Fld) (s : State) :
    getF (run (Act.each (gaugeEnter base tide) (r.zipIdx n)) s) f (base + k) = getF s f (base + k) := by
  induction r generalizing n s with
  | nil => rfl
  | cons x r ih =>
    rw [List.length_cons] at hn
    rw [List.zipIdx_cons, run_each_cons, ih (by omega) (by omega), getF_gaugeEnter_other]
    rw [Nat.mod_eq_of_lt (by omega), Nat.mod_eq_of_lt (by omega)]
    omega

theorem gauges_read (base : Nat) {tide : Nat} (htide : tide < 2 ^ 48) (r : List (Nat × BitVec 8)) {n : Nat} (hn : base + n + r.length ≤ 65536) {k : Nat}
    {x : Nat × BitVec 8} (hx : r[k]? = some x) (s : State) : GaugeReads (run (Act.each (gaugeEnter base tide) (r.zipIdx n)) s) (base + (n + k)) tide x := by
  induction r generalizing n k s with
  | nil => exact nomatch hx
  | cons y r ih =>
    rw [List.length_cons] at hn
    rw [List.zipIdx_cons, run_each_cons]
    cases k with
    | zero =>
      have hyx : y = x := Option.some.inj hx
      subst hyx
      rw [Nat.add_zero]
      obtain ⟨h1, h2, h3⟩ := gaugeEnter_reads base n htide y s
      have hkeep (f : Fld) := getF_gauges_before base tide r (n := n + 1) (k := n) (by omega) (by omega) f (run (gaugeEnter base tide (y, n)) s)
      exact ⟨(hkeep _).trans h1, (hkeep _).trans h2, (hkeep _).trans h3⟩
    | succ k =>
      have h := ih (n := n + 1) (by omega) hx (run (gaugeEnter base tide (y, n)) s)
      rwa [show n + 1 + k = n + (k + 1) by omega] at h

theorem gauges_bound (d : Nat) : (gaugesOf d).1 + 0 + (gaugesOf d).2 ≤ 65536 := by
  unfold gaugesOf
  split
  · omega
  · split <;> decide

/-- A die that has run out of offset loses a state, or has none to lose (R338). -/
def stateLoss (d ceil : Nat) (lose more : Bool) : Act :=
  Act.when lose (if more then Act.all [setF AGE_DIE.CEIL (ceil + 1) d, evt AGE_EVT.DEMOTE, logEv .demoted d]
    else Act.all [evt AGE_EVT.DEMOTE, evt AGE_EVT.EXHAUST, logEv .demoted d])

theorem run_replan (d worst temp : Nat) (s : State) : ∃ ceil lose more data off, run (replan d worst temp) s =
    run (stateLoss d ceil lose more) (run (logEv .voltageReplan d (data := data)) (run (updEn fun e => { e with offNext := Cells.ins e.offNext d off }) s)) := by
  simp only [replan, run_ask, run_all_cons, run_all_nil, stateLoss]
  exact ⟨_, _, _, _, _, rfl⟩

theorem run_stateLoss_none (d ceil : Nat) (more : Bool) (s : State) : run (stateLoss d ceil false more) s = s := run_when _ _ s

theorem run_stateLoss_lower (d ceil : Nat) (s : State) : run (stateLoss d ceil true true) s =
    run (logEv .demoted d) (run (evt AGE_EVT.DEMOTE) (run (setF AGE_DIE.CEIL (ceil + 1) d) s)) := by
  simp only [stateLoss, run_when, if_true, run_all_cons, run_all_nil]

theorem run_stateLoss_last (d ceil : Nat) (s : State) : run (stateLoss d ceil true false) s =
    run (logEv .demoted d) (run (evt AGE_EVT.EXHAUST) (run (evt AGE_EVT.DEMOTE) s)) := by
  simp only [stateLoss, run_when, if_true, Bool.false_eq_true, if_false, run_all_cons, run_all_nil]

theorem getF_stateLoss {g : Fld} (hceil : AGE_DIE.CEIL.apart g = true) (hdemote : AGE_EVT.DEMOTE.apart g = true) (hexhaust : AGE_EVT.EXHAUST.apart g = true)
    (d ceil : Nat) (lose more : Bool) (i j : Nat) (s : State) : getF (run (stateLoss d ceil lose more) s) g i j = getF s g i j := by
  have hlog (t : State) : getF (run (logEv .demoted d) t) g i j = getF t g i j := getF_of_changes (changes_logEv _ _ _ _) (by decide) _ _ _ _
  cases lose
  · rw [run_stateLoss_none]
  · cases more
    · rw [run_stateLoss_last, hlog, getF_evt_apart hexhaust, getF_evt_apart hdemote]
    · rw [run_stateLoss_lower, hlog, getF_evt_apart hdemote, getF_setF_apart hceil]

theorem changes_stateLoss (d ceil : Nat) (lose more : Bool) : (stateLoss d ceil lose more).Changes [.regs, .log] :=
  changes_when (changes_ite (changes_cons ((changes_setF _ _ _ _).up rfl) (changes_cons ((changes_evt _ _ _).up rfl) (changes_cons ((changes_logEv _ _ _ _).up rfl) changes_nil)))
    (changes_cons ((changes_evt _ _ _).up rfl) (changes_cons ((changes_evt _ _ _).up rfl) (changes_cons ((changes_logEv _ _ _ _).up rfl) changes_nil))))

theorem stateLoss_tally (d ceil : Nat) (lose more : Bool) (s : State) :
    Safety.tally (run (stateLoss d ceil lose more) s) .voltageReplan = Safety.tally s .voltageReplan := by
  have hlog (t : State) : Safety.tally (run (logEv .demoted d) t) .voltageReplan = Safety.tally t .voltageReplan := by
    rw [logEv_tally _ _ _ _ _ _ (by decide), if_neg (by decide)]
  cases lose
  · rw [run_stateLoss_none]
  · cases more
    · rw [run_stateLoss_last, hlog, evt_tally, evt_tally]
    · rw [run_stateLoss_lower, hlog, evt_tally, setF_tally]

/-- What planning the offset anew leaves of the registers. -/
theorem getF_replan {g : Fld} (hceil : AGE_DIE.CEIL.apart g = true) (hdemote : AGE_EVT.DEMOTE.apart g = true) (hexhaust : AGE_EVT.EXHAUST.apart g = true)
    (d worst temp i j : Nat) (s : State) : getF (run (replan d worst temp) s) g i j = getF s g i j := by
  obtain ⟨ceil, lose, more, data, off, hrun⟩ := run_replan d worst temp s
  rw [hrun, getF_stateLoss hceil hdemote hexhaust, getF_of_changes (changes_logEv _ _ _ _) (by decide), getF_of_changes (changes_updEn _) (by decide)]

theorem logged_replan (d worst temp : Nat) (s : State) : Safety.Logged .voltageReplan s (run (replan d worst temp) s) := by
  obtain ⟨ceil, lose, more, data, off, hrun⟩ := run_replan d worst temp s
  rw [hrun]
  exact Logged.congr (logged_logEv (by decide) d _ data (tally_of_changes (changes_updEn _) (by decide) s _)) rfl (stateLoss_tally d ceil lose more _)

/-- Planning the offset anew leaves which samples wait and which are scheduled. -/
theorem replan_en {α : Type} {g : EnSt → α} (hg : ∀ e o, g { e with offNext := o } = g e) (d worst temp : Nat) (s : State) :
    g (run (replan d worst temp) s).en = g s.en := by
  obtain ⟨ceil, lose, more, data, off, hrun⟩ := run_replan d worst temp s
  rw [hrun, only_en (changes_stateLoss d ceil lose more).only (by decide), logEv_en]
  exact hg _ _

/-- A sample enters the gauges and the worst slack, and waits no longer. -/
def sampleEnter (d tide : Nat) (r : List (Nat × BitVec 8)) (first : EnSt → FMap (BitVec 8 × Nat × Nat)) : Act :=
  Act.all [Act.each (gaugeEnter (gaugesOf d).1 tide) r.zipIdx, setF AGE_DIE.WORST (min 255 (worstOf r)) d,
    updEn fun e => { e with ageWait := Cells.del e.ageWait d, ageSched := e.ageSched.filter fun x => x ≠ d, ageFirst := first e }]

theorem run_gaugeTake {r : List (Nat × BitVec 8)} (h : r.length = (gaugesOf d).2) : ∃ first temp, run (gaugeTake d r) s =
    run (ageForecast d) (run (replan d (worstOf r) temp) (run (sampleEnter d (getF s TIDE_COUNT.COUNT) r first) s)) := by
  rw [gaugeTake, run_ask]
  dsimp only
  rw [if_neg (fun hne => hne h)]
  simp only [sampleEnter, worstOf, run_all_cons, run_all_nil]
  exact ⟨_, _, rfl⟩

theorem run_gaugeTake_other {r : List (Nat × BitVec 8)} (h : r.length ≠ (gaugesOf d).2) : run (gaugeTake d r) s = s := by
  rw [gaugeTake, run_ask]
  dsimp only
  rw [if_pos h, run_skip]

theorem changes_sampleEnter (d tide : Nat) (r : List (Nat × BitVec 8)) (first : EnSt → FMap (BitVec 8 × Nat × Nat)) :
    (sampleEnter d tide r first).Changes [.regs, .en] :=
  changes_cons (changes_each fun _ => changes_cons ((changes_setF _ _ _ _).up rfl) (changes_cons ((changes_setF _ _ _ _).up rfl) (changes_cons ((changes_setF _ _ _ _).up rfl)
    changes_nil))) (changes_cons ((changes_setF _ _ _ _).up rfl) (changes_cons ((changes_updEn _).up rfl) changes_nil))

/-- What a sample leaves behind. -/
theorem gaugeTake_spec {r : List (Nat × BitVec 8)} (h : r.length = (gaugesOf d).2) :
    (run (gaugeTake d r) s).mem = s.mem ∧ d ∉ (run (gaugeTake d r) s).en.ageSched ∧ Cells.look (run (gaugeTake d r) s).en.ageWait d = none ∧
      Safety.Logged .voltageReplan s (run (gaugeTake d r) s) ∧ getF (run (gaugeTake d r) s) AGE_DIE.WORST d = min 255 (worstOf r) ∧
      getF (run (gaugeTake d r) s) AGE_EVT.FORCED = getF s AGE_EVT.FORCED ∧
      ∀ k x, r[k]? = some x → GaugeReads (run (gaugeTake d r) s) ((gaugesOf d).1 + k) (getF s TIDE_COUNT.COUNT) x := by
  obtain ⟨first, temp, hrun⟩ := run_gaugeTake (s := s) h
  rw [hrun]
  have hfcast (f : Fld) (i : Nat) (hf : f.reg ∉ [RegName.AGE_FCAST]) (t : State) : getF (run (ageForecast d) t) f i = getF t f i :=
    Act.Writes.getF (l := [.AGE_FCAST]) (a := ageForecast d) (fun _ => ⟨writes_setF (by decide) _ _ _, writes_setF (by decide) _ _ _, trivial⟩) hf _ _ _
  have hen : (run (ageForecast d) (run (replan d (worstOf r) temp) (run (sampleEnter d (getF s TIDE_COUNT.COUNT) r first) s))).en =
      (run (replan d (worstOf r) temp) (run (sampleEnter d (getF s TIDE_COUNT.COUNT) r first) s)).en := only_en (changes_ageForecast d).only (by decide) _
  have htide : getF s TIDE_COUNT.COUNT < 2 ^ 48 := bitsOf_lt _ _ _
  refine ⟨?_, ?_, ?_, ?_, ?_, ?_, fun k x hx => ?_⟩
  · rw [mem_of_changes (changes_ageForecast d) (by decide), mem_of_changes (changes_replan _ _ _) (by decide), mem_of_changes (changes_sampleEnter _ _ _ _) (by decide)]
  · rw [hen, replan_en (g := fun e => e.ageSched) (fun _ _ => rfl)]
    exact fun hmem => of_decide_eq_true (List.mem_filter.mp hmem).2 rfl
  · rw [hen, replan_en (g := fun e => e.ageWait) (fun _ _ => rfl)]
    exact (Cells.look_del _ _ _).trans (if_pos rfl)
  · exact Logged.congr (logged_replan d (worstOf r) temp _) (tally_of_changes (changes_sampleEnter _ _ _ _) (by decide) _ _).symm
      (tally_of_changes (changes_ageForecast d) (by decide) _ _)
  · rw [hfcast _ _ (by decide), getF_replan (by decide) (by decide) (by decide), sampleEnter, run_all_cons, run_all_cons, run_all_cons, run_all_nil,
      getF_of_changes (changes_updEn _) (by decide), getF_setF_fits (by decide)]
    exact Nat.mod_eq_of_lt (Nat.lt_of_le_of_lt (Nat.min_le_left _ _) (by decide))
  · rw [hfcast _ _ (by decide), getF_replan (by decide) (by decide) (by decide)]
    exact Act.Writes.getF (l := [.AGE_GAUGE, .AGE_DIE]) (a := sampleEnter d (getF s TIDE_COUNT.COUNT) r first) ⟨(within_each _ _).mpr fun _ _ => ⟨writes_setF (by decide) _ _ _, writes_setF (by decide) _ _ _,
      writes_setF (by decide) _ _ _, trivial⟩, writes_setF (by decide) _ _ _, trivial, trivial⟩ (by decide) _ _ _
  · have hread := gauges_read (gaugesOf d).1 htide r (n := 0) (h ▸ gauges_bound d) hx s
    rw [Nat.zero_add] at hread
    obtain ⟨h1, h2, h3⟩ := hread
    have hkeep (f : Fld) (hf : f.reg = .AGE_GAUGE) (hceil : AGE_DIE.CEIL.apart f = true) (hdemote : AGE_EVT.DEMOTE.apart f = true) (hexhaust : AGE_EVT.EXHAUST.apart f = true)
        (hworst : AGE_DIE.WORST.apart f = true) :
        getF (run (ageForecast d) (run (replan d (worstOf r) temp) (run (sampleEnter d (getF s TIDE_COUNT.COUNT) r first) s))) f ((gaugesOf d).1 + k) =
          getF (run (Act.each (gaugeEnter (gaugesOf d).1 (getF s TIDE_COUNT.COUNT)) r.zipIdx) s) f ((gaugesOf d).1 + k) := by
      rw [hfcast _ _ (by rw [hf]; decide), getF_replan hceil hdemote hexhaust, sampleEnter, run_all_cons, run_all_cons, run_all_cons, run_all_nil,
        getF_of_changes (changes_updEn _) (by decide), getF_setF_apart hworst]
    exact ⟨(hkeep _ rfl (by decide) (by decide) (by decide) (by decide)).trans h1, (hkeep _ rfl (by decide) (by decide) (by decide) (by decide)).trans h2,
      (hkeep _ rfl (by decide) (by decide) (by decide) (by decide)).trans h3⟩

theorem run_gaugeSample (r : List (Nat × BitVec 8)) : run (gaugeSample d r) s = if d ∈ s.en.ageSched then run (gaugeTake d r) s else s := by
  rw [gaugeSample, run_ask, run_when]
  simp only [List.contains_iff_mem]

theorem run_gaugeForced {n : Nat} (h : Cells.look s.en.ageWait d = some n) (r : List (Nat × BitVec 8)) :
    run (gaugeForced d r) s = if n + 1024 ≤ getF s TIDE_COUNT.COUNT then run (gaugeTake d r) (run (evt AGE_EVT.FORCED) s) else s := by
  rw [gaugeForced, run_ask, h]
  exact (run_when _ _ s).trans (by simp only [decide_eq_true_eq, run_seq])

/-! Dark dies and standby (R333, R334). -/

theorem run_darkWrite_ignored {k : Nat} (h : 5 ≤ k) : run (darkWrite k) s = s := by
  rw [darkWrite, run_ask, if_pos h, run_skip]

theorem run_darkWrite_refused {k : Nat} (hk : k < 5) (h1 : 1 ≤ k) (h : (otherDark s (k - 1) || dieHasPlan s (k - 1)) = true) :
    run (darkWrite k) s = run (logEv .darkRefused (k - 1)) (run (evt EN_EVT.DDREF) s) := by
  rw [darkWrite, run_ask, if_neg (by omega), h, decide_eq_true h1, Bool.and_self, if_pos rfl, run_seq]

theorem run_darkWrite_taken {k : Nat} (hk : k < 5) (h : k = 0 ∨ (otherDark s (k - 1) || dieHasPlan s (k - 1)) = false) :
    run (darkWrite k) s = run (updEn fun e => { e with darkNext := some k }) (run (setF EN_CTL.DARK k) s) := by
  rw [darkWrite, run_ask, if_neg (by omega), if_neg fun hc => ?_, run_seq]
  obtain ⟨h1, hdark⟩ := Bool.and_eq_true_iff.mp hc
  exact h.elim (fun h0 => absurd (of_decide_eq_true h1) (by omega)) fun hf => Bool.false_ne_true (hf.symm.trans hdark)

theorem run_sbRequest_pending (h : s.en.sb ≠ .off) : run sbRequest s = s := by
  rw [sbRequest, run_ask, if_pos h, run_skip]

theorem run_sbRequest_taken (h : s.en.sb = .off) (hd : allDrained s = true) : run sbRequest s = { s with en := { s.en with sb := .software } } := by
  rw [sbRequest, run_ask, if_neg (fun hne => hne h), if_pos hd]; rfl

theorem run_sbRequest_refused (h : s.en.sb = .off) (hd : allDrained s = false) : run sbRequest s = run (evt EN_EVT.SBREF) s := by
  rw [sbRequest, run_ask, if_neg (fun hne => hne h), if_neg (Bool.eq_false_iff.mp hd)]

theorem en_of_changes {k : List Part} {a : Act} (h : a.Changes k) (hk : Part.en ∉ k) (s : State) : (run a s).en = s.en := only_en h.only hk s

/-- The last of the entry into standby: everything but the harbourmaster and the always-on domain powers down. -/
def sbDown : Act :=
  Act.all [updEn fun e => { e with sb := .standby, darkNext := none }, updPow fun p => { p with ready := false },
    updRst fun r => { r with held := [1, 2, 3, 4, 5, 6], due := [], hostDue := none }, .prim (.reg .ID_DIEMAP 0 0 0x3FF)]

theorem run_sbEnter (s : State) : ∃ t, run sbEnter s = run sbDown t := by
  simp only [sbEnter, sbDown, run_all_cons, run_all_nil]
  exact ⟨_, rfl⟩

/-- The package stands by: ready for nothing, every domain held, no die read by ID_DIEMAP. -/
def StandsBy (t : State) : Prop :=
  t.en.sb = .standby ∧ t.pow.ready = false ∧ t.rst.held = [1, 2, 3, 4, 5, 6] ∧ getReg t .ID_DIEMAP 0 0 = 0x3FF

theorem sbEnter_standsBy (s : State) : StandsBy (run sbEnter s) := by
  obtain ⟨t, ht⟩ := run_sbEnter s
  rw [ht]
  simp only [sbDown, run_all_cons, run_all_nil, run_prim]
  exact ⟨rfl, rfl, rfl, (getReg_apply_reg ..).trans (if_pos rfl)⟩

theorem run_sbEntry_drained (h : s.en.sb = .software ∨ (s.en.sb = .board ∧ allDrained s = true)) : run sbEntry s = run sbEnter s := by
  refine (run_when _ _ s).trans (if_pos ?_)
  simpa using h

theorem run_sbEntry_not (h : s.en.sb = .off ∨ s.en.sb = .standby ∨ (s.en.sb = .board ∧ allDrained s = false)) : run sbEntry s = s := by
  refine (run_when _ _ s).trans (if_neg ?_)
  rcases h with h | h | ⟨h, hd⟩
  · simp [h]
  · simp [h]
  · simp [h, hd]

theorem run_darkExit_waking (h : s.en.waking = some d) (hdue : s.en.darkDue = false) : run (darkExit d) s =
    run agentsReturn (run (setF EN_STATE.PSTATE (getF s EN_STATE.PSTATE d % 8) d) (run (Act.when (decide (dieState s d = 1)) (setDie d 0))
      (run (updEn fun e => { e with dark := none, waking := none }) s))) := by
  rw [darkExit, run_ask, h, hdue, decide_eq_true rfl, Bool.not_false, Bool.and_self, run_when, if_pos rfl, run_all_cons, run_all_cons, run_all_cons, run_all_cons, run_all_nil]

theorem run_darkExit_other (h : s.en.waking ≠ some d ∨ s.en.darkDue = true) : run (darkExit d) s = s := by
  refine (run_when _ _ s).trans (if_neg fun hc => ?_)
  obtain ⟨hw, hdue⟩ := Bool.and_eq_true_iff.mp hc
  exact h.elim (fun hne => hne (of_decide_eq_true hw)) fun ht => by rw [ht] at hdue; exact Bool.false_ne_true hdue

theorem darkExit_spec (hd : d < 4) (h : s.en.waking = some d) (hdue : s.en.darkDue = false) :
    (run (darkExit d) s).en.dark = none ∧ (run (darkExit d) s).en.waking = none ∧ (run (darkExit d) s).mem = s.mem ∧
      (dieState s d = 1 → dieState (run (darkExit d) s) d = 0) ∧ getF (run (darkExit d) s) EN_STATE.PSTATE d = getF s EN_STATE.PSTATE d % 8 := by
  have hset : (Act.when (decide (dieState s d = 1)) (setDie d 0)).Changes [.regs] := changes_when (changes_setDie _ _)
  have hen : (run (darkExit d) s).en = { s.en with dark := none, waking := none } := by
    rw [run_darkExit_waking h hdue, en_of_changes changes_agentsReturn (by decide), setF_en, en_of_changes hset (by decide)]; rfl
  refine ⟨congrArg EnSt.dark hen, congrArg EnSt.waking hen, ?_, fun h1 => ?_, ?_⟩
  · rw [run_darkExit_waking h hdue, mem_of_changes changes_agentsReturn (by decide), setF_mem, mem_of_changes hset (by decide), mem_of_changes (changes_updEn _) (by decide)]
  · rw [run_darkExit_waking h hdue, h1, decide_eq_true rfl, run_when, if_pos rfl, dieState_of_changes changes_agentsReturn (by decide),
      Act.SparesResetRegs.dieState (sparesResetRegs_setF _ _ _ rfl), dieState_setDie (by omega)]
  · rw [run_darkExit_waking h hdue, getF_of_changes changes_agentsReturn (by decide), getF_setF_fits (by decide)]
    exact Nat.mod_eq_of_lt (Nat.lt_trans (Nat.mod_lt _ (by decide)) (by decide))

end

/-- Settles O37, sample by sample and state by state. -/
theorem gaugesAndDarkness : Obligations.GaugesAndDarkness := by
  unfold Obligations.GaugesAndDarkness
  refine ⟨fun s d r => ⟨fun hsched hlen => ⟨_, rfl, ?_⟩, fun h => ⟨_, rfl, ?_⟩⟩, fun s d r n hn => ⟨fun hlate hlen => ⟨_, rfl, ?_⟩, fun h => ⟨_, rfl, ?_⟩⟩,
    fun s => ⟨fun w => ⟨_, rfl, ?_⟩, _, rfl, rfl⟩, fun s k => ⟨fun h => ⟨_, rfl, run_darkWrite_ignored h⟩, fun h1 h4 h => ⟨_, rfl, ?_⟩, fun h4 h => ⟨_, rfl, ?_⟩⟩,
    fun s => ⟨fun h => ⟨_, rfl, run_sbRequest_pending h⟩, fun h hd => ⟨_, rfl, ?_⟩, fun h hd => ⟨_, rfl, ?_⟩⟩,
    fun s => ⟨fun h => ⟨_, rfl, run_sbEntry_drained h ▸ sbEnter_standsBy s⟩, fun h => ⟨_, rfl, run_sbEntry_not h⟩, fun h => ⟨_, rfl, ?_⟩, fun h => ⟨_, rfl, ?_⟩⟩,
    fun s d => ⟨fun h hdue => ⟨_, rfl, darkExit_spec d.isLt h hdue⟩, fun h => ⟨_, rfl, run_darkExit_other h⟩⟩⟩
  · obtain ⟨hmem, hsch, hwait, hlog, hworst, -, hreads⟩ := gaugeTake_spec (s := s) hlen
    rw [run_gaugeSample, if_pos hsched]
    exact ⟨hmem, hsch, hwait, hlog, hworst, hreads⟩
  · rw [run_gaugeSample]
    split
    next hsched => exact run_gaugeTake_other (h.resolve_left fun hn => hn hsched)
    next => rfl
  · obtain ⟨hmem, -, hwait, -, hworst, hforced, -⟩ := gaugeTake_spec (s := run (evt AGE_EVT.FORCED) s) hlen
    rw [run_gaugeForced hn, if_pos hlate]
    exact ⟨hmem.trans (evt_mem ..), hforced.trans (getF_evt_fits (by decide) _ _ _), hwait, hworst⟩
  · rw [run_gaugeForced hn, if_neg (Nat.not_le.mpr h)]
  · rw [avsPoll, run_seq]
    refine ⟨?_, getF_setF_fits (by decide) _ _ _ _, ?_⟩
    · rw [getF_setF_apart (by decide), getF_setF_fits (by decide)]
      exact Nat.mod_eq_of_lt w.isLt
    · rw [setF_mem, setF_mem]
  · rw [run_darkWrite_refused (by omega) h1 h]
    refine ⟨?_, ?_, ?_, logged_logEv (by decide) _ _ _ (evt_tally ..)⟩
    · rw [getF_of_changes (changes_logEv _ _ _ _) (by decide), getF_evt_fits (by decide)]; rfl
    · rw [getF_of_changes (changes_logEv _ _ _ _) (by decide), getF_evt_apart (by decide)]
    · rw [logEv_en, evt_en]
  · rw [run_darkWrite_taken (by omega) h]
    refine ⟨?_, rfl, ?_⟩
    · rw [getF_of_changes (changes_updEn _) (by decide), getF_setF_fits (by decide)]
      exact Nat.mod_eq_of_lt k.isLt
    · rw [mem_of_changes (changes_updEn _) (by decide), setF_mem]
  · rw [run_sbRequest_taken h hd]
    exact ⟨rfl, rfl, rfl⟩
  · rw [run_sbRequest_refused h hd]
    exact ⟨getF_evt_fits (by decide) _ _ _, evt_en .., evt_mem ..⟩
  · rw [run_ask, run_when, if_pos (decide_eq_true h)]
    exact sbEnter_standsBy s
  · rw [run_ask, run_when, if_neg fun hc => h (of_decide_eq_true hc)]

end Sys2Proof.Machine

/-! PROOFS. Hural sessions: link, set-up, rekey, closing, and the classes of a partner (R341, R346, R347, R354, R356). -/

namespace Sys2Proof.Machine

section
variable {s : State} {n : Nat}

/-! A port and its registers. -/

theorem portSt_updPort (n : Nat) (f : PortSt → PortSt) (s : State) : portSt (run (updPort n f) s) n = f (portSt s n) :=
  (Cells.get_put ..).trans (if_pos rfl)

theorem portSt_of_changes {k : List Part} {a : Act} (h : a.Changes k) (hk : Part.hural ∉ k) (s : State) (n : Nat) : portSt (run a s) n = portSt s n := by
  rw [portSt, portSt, only_hural h.only hk]

theorem portSt_fresh (s : State) (n : Nat) : portSt (Prim.apply .fresh s) n = portSt s n := rfl

theorem portState_of_changes {k : List Part} {a : Act} (h : a.Changes k) (hk : Part.regs ∉ k) (s : State) (n : Nat) : portState (run a s) n = portState s n :=
  getF_of_changes h hk _ _ _ _

theorem sessionUp_of_changes {k : List Part} {a : Act} (h : a.Changes k) (hk : Part.regs ∉ k) (s : State) (n : Nat) : sessionUp (run a s) n = sessionUp s n := by
  rw [sessionUp, sessionUp, portState_of_changes h hk]

theorem regs_of_changes {k : List Part} {a : Act} (h : a.Changes k) (hk : Part.regs ∉ k) (s : State) : (run a s).regs = s.regs := only_regs h.only hk s

theorem sessionUp_eq_false_of_state {x : Nat} (h : portState s n = x) (hx : x ≠ 3 ∧ x ≠ 4) : sessionUp s n = false := by
  rw [sessionUp, h]
  simp [hx]

/-! The set-up (R346). -/

/-- The HELLO of this package. -/
def helloMsg (s : State) (nonce : List Byte) : HsMsg :=
  .hello 1 (getReg s .IDREV 0 0) (BitVec.ofNat 8 (ownBerth s)) (BitVec.ofNat 8 (theChart s).flRole) nonce s.sec.idKey s.sec.endorsement

/-- The exchange of a set-up that has sent its HELLO. -/
def helloSent (s : State) (nonce : List Byte) : Exchange :=
  { hello := helloBytes 1 (getReg s .IDREV 0 0) (BitVec.ofNat 8 (ownBerth s)) (BitVec.ofNat 8 (theChart s).flRole) nonce s.sec.idKey s.sec.endorsement }

theorem beginHandshake_spec (s : State) (n : Nat) : ∃ nonce,
    getF (run (beginHandshake n) s) HURAL_STAT.STATE n = 2 ∧ (run (beginHandshake n) s).out = .handshake n (helloMsg s nonce) :: s.out ∧
      (run (beginHandshake n) s).mem = s.mem ∧ portSt (run (beginHandshake n) s) n = { portSt s n with
        retry := false, want := false, rekey := none, txKeys := [], rxKeys := [], set := some (helloSent s nonce) } := by
  simp only [beginHandshake, run_withFree, run_ask, run_all_cons, run_all_nil]
  generalize natLe (Config.freeValue s.free 0) 32 = nonce
  refine ⟨nonce, getF_setF_fits (f := HURAL_STAT.STATE) (by decide) 2 n 0 s, rfl, rfl, ?_⟩
  rw [portSt_fresh, portSt_of_changes (changes_send _) (by decide), portSt_updPort, portSt_of_changes (changes_setF _ _ _ _) (by decide)]
  rfl

/-- What a set-up waits for. -/
def openable (s : State) (n : Nat) : Bool :=
  (portSt s n).link && !(portSt s n).barred && mayOpen s && (getB s HURAL_CFG.EN n || (portSt s n).want) && !sessionUp s n

theorem run_tryOpen (n : Nat) (s : State) : run (tryOpen n) s = if openable s n then run (beginHandshake n) s else s := run_when _ _ s

theorem mayOpen_updPort (f : PortSt → PortSt) : mayOpen (run (updPort n f) s) = mayOpen s := rfl

/-! The link, OPEN and CLOSE (R341, R354). -/

theorem run_linkUp_barred (h : (portSt s n).barred = true) (offers : Bool) : run (linkUp n offers) s = s := by
  rw [linkUp, run_ask, if_pos h, run_skip]

theorem run_linkUp_lacks (h : (portSt s n).barred = false) : run (linkUp n false) s =
    run (logEv .portTraining 0xFF n) (run (updPort n fun p => { p with link := false, set := none }) (run (setF HURAL_STAT.STATE 1 n) s)) := by
  rw [linkUp, run_ask, if_neg (Bool.eq_false_iff.mp h), if_neg Bool.false_ne_true, run_all_cons, run_all_cons, run_all_cons, run_all_nil]

theorem run_linkUp_offers (h : (portSt s n).barred = false) (hup : sessionUp s n = false) :
    run (linkUp n true) s = run (tryOpen n) (run (updPort n fun p => { p with link := true }) s) := by
  rw [linkUp, run_ask, if_neg (Bool.eq_false_iff.mp h), if_pos rfl, run_all_cons, run_all_cons, run_all_cons, run_all_nil, hup, run_when, if_neg Bool.false_ne_true]

theorem openable_linkUp (hbar : (portSt s n).barred = false) (hup : sessionUp s n = false) :
    openable (run (updPort n fun p => { p with link := true }) s) n = (mayOpen s && (getB s HURAL_CFG.EN n || (portSt s n).want)) := by
  rw [openable, portSt_updPort, mayOpen_updPort, sessionUp_of_changes (changes_updPort _ _) (by decide), hbar, hup]
  simp only [Bool.true_and, Bool.not_false, Bool.and_true]
  rfl

theorem openable_hurOpen : openable (run (updPort n fun p => { p with want := true, barred := false }) s) n =
    ((portSt s n).link && mayOpen s && !sessionUp s n) := by
  rw [openable, portSt_updPort, mayOpen_updPort, sessionUp_of_changes (changes_updPort _ _) (by decide)]
  simp only [Bool.not_false, Bool.and_true, Bool.or_true]

/-! The end of a session. -/

theorem endSession_spec (s : State) (n st partner : Nat) :
    getF (run (endSession n st partner) s) HURAL_STAT.STATE n = st % 8 ∧ getF (run (endSession n st partner) s) HURAL_STAT.PARTNER n = partner % 8 ∧
      (run (endSession n st partner) s).mem = s.mem ∧ ∀ f : Fld, HURAL_STAT.STATE.apart f = true → HURAL_STAT.PARTNER.apart f = true →
        getF (run (endSession n st partner) s) f n = getF s f n := by
  simp only [endSession, run_ask, run_all_cons, run_all_nil]
  refine ⟨?_, ?_, ?_, fun f hs hp => ?_⟩
  · rw [getF_of_changes (changes_rerouteWaiting _) (by decide), getF_of_changes (changes_updHural _) (by decide), getF_of_changes (changes_updPort _ _) (by decide),
      getF_setF_apart (by decide), getF_setF_fits (by decide)]; rfl
  · rw [getF_of_changes (changes_rerouteWaiting _) (by decide), getF_of_changes (changes_updHural _) (by decide), getF_of_changes (changes_updPort _ _) (by decide),
      getF_setF_fits (by decide)]; rfl
  · rw [mem_of_changes (changes_rerouteWaiting _) (by decide), mem_of_changes (changes_updHural _) (by decide), mem_of_changes (changes_updPort _ _) (by decide),
      setF_mem, setF_mem]
  · rw [getF_of_changes (changes_rerouteWaiting _) (by decide), getF_of_changes (changes_updHural _) (by decide), getF_of_changes (changes_updPort _ _) (by decide),
      getF_setF_apart hp, getF_setF_apart hs]

theorem run_hurClose_open (h : portState s n ≠ 6) : run (hurClose n) s = run (endSession n 0 0) (run (sendClose n 0) s) := by
  rw [hurClose, run_all_cons, run_all_cons, run_all_nil, run_given, portState_of_changes (changes_sendClose _ _) (by decide), if_pos (decide_eq_true h)]

theorem run_hurClose_hostile (h : portState s n = 6) : run (hurClose n) s = s := by
  have hsend : run (sendClose n 0) s = s := by
    rw [sendClose, run_given, sessionUp_eq_false_of_state h (by decide), if_neg Bool.false_ne_true]
  rw [hurClose, run_all_cons, run_all_cons, run_all_nil, hsend, run_given, if_neg fun hc => (of_decide_eq_true hc : portState s n ≠ 6) h]

/-! Rekeys (R347). -/

theorem rekeyStart_spec (hup : sessionUp s n = true) (hnone : (portSt s n).rekey = none) : ∃ ek seed,
    (run (rekeyStart n) s).out = .handshake n (.encap ek) :: s.out ∧ (run (rekeyStart n) s).regs = s.regs ∧ (run (rekeyStart n) s).mem = s.mem ∧
      portSt (run (rekeyStart n) s) n = { portSt s n with retry := false, rekey := some { starts := true, step := 3, transcript := ek, seed := seed } } := by
  simp only [rekeyStart, run_withFree, run_given, hup, hnone, Option.isNone_none, Bool.and_self, if_true, run_all_cons, run_all_nil]
  generalize Config.freeValue s.free 0 = seed
  generalize Config.kemPublic seed = ek
  refine ⟨ek, seed, rfl, rfl, rfl, ?_⟩
  rw [portSt_fresh, portSt_of_changes (changes_send _) (by decide), portSt_updPort]

theorem rekeyStart_idle (h : sessionUp s n = false ∨ (portSt s n).rekey ≠ none) :
    (run (rekeyStart n) s).regs = s.regs ∧ (run (rekeyStart n) s).hural = s.hural ∧ (run (rekeyStart n) s).out = s.out := by
  have hc : ¬ (sessionUp s n && (portSt s n).rekey.isNone) = true := fun hc => by
    obtain ⟨hup, hnone⟩ := Bool.and_eq_true_iff.mp hc
    exact h.elim (fun hf => Bool.false_ne_true (hf.symm.trans hup)) fun hne => hne (Option.isNone_iff_eq_none.mp hnone)
  simp only [rekeyStart, run_withFree, run_given, if_neg hc]
  exact ⟨rfl, rfl, rfl⟩

theorem run_rekeyDue_young (htx : (portSt s n).txSeq < 2 ^ 63) (hrx : (portSt s n).rxSeq < 2 ^ 63) : run (rekeyDue n) s = run (rekeyStart n) s := by
  rw [rekeyDue, run_ask, if_neg fun hc => ?_]
  rcases Bool.or_eq_true_iff.mp hc with h | h
  · exact Nat.not_le.mpr htx (of_decide_eq_true h)
  · exact Nat.not_le.mpr hrx (of_decide_eq_true h)

theorem run_rekeyDue_old (h : 2 ^ 63 ≤ (portSt s n).txSeq ∨ 2 ^ 63 ≤ (portSt s n).rxSeq) : run (rekeyDue n) s = run (endSession n 0 0) s := by
  rw [rekeyDue, run_ask, if_pos (Bool.or_eq_true_iff.mpr (h.imp decide_eq_true decide_eq_true))]

theorem run_sessionRetry_rekey (h : (portSt s n).retry = true) (hup : sessionUp s n = true) :
    run (sessionRetry n) s = run (rekeyStart n) (run (updPort n fun p => { p with retry := false }) s) := by
  rw [sessionRetry, run_ask, h, run_when, if_pos rfl, run_seq, if_pos hup]

theorem run_sessionRetry_not (h : (portSt s n).retry = false) : run (sessionRetry n) s = s := by
  rw [sessionRetry, run_ask, h, run_when, if_neg Bool.false_ne_true]

/-! The steps of an exchange (Table 16-4). -/

/-- The exchange after a HELLO that passed, and the digest and key it names. -/
theorem helloTake_passes {x : Exchange} {idrev : W64} {berth role : Byte} {nonce key e : List Byte}
    (hid : idrev.toNat / 2 ^ 32 = (getReg s .IDREV 0 0).toNat / 2 ^ 32) (hsig : Config.mldsaVerify (ownerKey s) (endorsed key idrev) e = true) :
    ∃ y : Exchange, (y.step = 2 ∨ y.step = 3) ∧ getF (run (helloTake n x 1 idrev berth role nonce key e) s) HURAL_STAT.PEER n = berth.toNat ∧
      (portSt (run (helloTake n x 1 idrev berth role nonce key e) s) n).peerKey = key ∧
      (portSt (run (helloTake n x 1 idrev berth role nonce key e) s) n).set = some y ∧ (run (helloTake n x 1 idrev berth role nonce key e) s).mem = s.mem := by
  simp only [helloTake, run_withFree, run_ask, hid, hsig, decide_true, Bool.and_self, if_true, run_all_cons, run_all_nil]
  generalize decide (beNat (sha3_256 s.sec.idKey) < beNat (sha3_256 key)) = starts
  generalize Config.freeValue s.free 0 = seed
  have hid4 (k : Nat → Nat) (t : State) : getF (run (Act.each (fun i => setF HURAL_PEERID.BYTES (k i) n i) (List.range 4)) t) HURAL_STAT.PEER n = getF t HURAL_STAT.PEER n :=
    Act.Writes.getF (l := [.HURAL_PEERID]) ((within_each _ _).mpr fun _ _ => writes_setF (by decide) _ _ _) (by decide) _ _ _
  have hsend (t : State) : getF (run (Act.when starts (send (.handshake n (.encap (Config.kemPublic seed))))) t) HURAL_STAT.PEER n = getF t HURAL_STAT.PEER n :=
    getF_of_changes (changes_when (changes_send _)) (by decide) _ _ _ _
  refine ⟨?y, ?step, ?peer, ?key, ?set, ?mem⟩
  case set => rw [portSt_fresh, portSt_of_changes (changes_when (changes_send _)) (by decide), portSt_updPort]
  case step =>
    cases starts
    · exact .inl rfl
    · exact .inr rfl
  case peer =>
    refine Eq.trans (getF_of_changes (k := [.free]) (changes_prim (p := .fresh) rfl) (by decide) _ _ _ _) ?_
    rw [hsend, getF_of_changes (changes_updPort _ _) (by decide), hid4, getF_setF_fits (by decide)]
    exact Nat.mod_eq_of_lt berth.isLt
  case key => rw [portSt_fresh, portSt_of_changes (changes_when (changes_send _)) (by decide), portSt_updPort]
  case mem =>
    refine Eq.trans (mem_of_changes (k := [.free]) (changes_prim (p := .fresh) rfl) (by decide) _) ?_
    rw [mem_of_changes (changes_when (changes_send _)) (by decide), mem_of_changes (changes_updPort _ _) (by decide),
      mem_of_changes (changes_each fun _ => changes_setF _ _ _ _) (by decide), setF_mem]

theorem run_helloTake_fails {x : Exchange} {idrev : W64} {berth role : Byte} {nonce key e : List Byte}
    (hsig : Config.mldsaVerify (ownerKey s) (endorsed key idrev) e = false) :
    run (helloTake n x 1 idrev berth role nonce key e) s = Prim.apply .fresh (run (exchangeFails n) s) := by
  simp only [helloTake, run_withFree, run_ask, hsig, Bool.and_false, Bool.false_eq_true, if_false]

/-- A failed step of a set-up, while hostile events are few. -/
theorem exchangeFails_set {x : Exchange} (hset : (portSt s n).set = some x)
    (hfew : (recent s.now oneSecond (portSt s n).hostile).length ≤ max 1 (getF s HURAL_THRESH.HOSTILE)) :
    getF (run (exchangeFails n) s) HURAL_STAT.STATE n = 0 ∧ (portSt (run (exchangeFails n) s) n).set = none ∧ (portSt (run (exchangeFails n) s) n).retry = true ∧
      getF (run (exchangeFails n) s) HURAL_HOSTILE.AUTH n = min (getF s HURAL_HOSTILE.AUTH n + 1) (2 ^ 16 - 1) ∧ (run (exchangeFails n) s).mem = s.mem := by
  have hstate : run (exchangeFails n) s = run (hostileEvent n) (run (updPort n fun p => { p with set := none, txKeys := [], rxKeys := [], retry := true })
      (run (setF HURAL_STAT.STATE 0 n) (run (incF HURAL_HOSTILE.AUTH 1 n) s))) := by
    simp only [exchangeFails, run_ask, hset, Option.isSome_some, if_true, run_all_cons, run_all_nil]
  have hevent (t : State) (ht : (recent t.now oneSecond (portSt t n).hostile).length ≤ max 1 (getF t HURAL_THRESH.HOSTILE)) :
      run (hostileEvent n) t = run (updPort n fun p => { p with hostile := recent t.now oneSecond (portSt t n).hostile }) t := by
    simp only [hostileEvent, run_ask, run_all_cons, run_all_nil, run_when]
    rw [if_neg fun hc => Nat.not_lt.mpr ht (of_decide_eq_true (Bool.and_eq_true_iff.mp hc).1)]
  have hport : portSt (run (updPort n fun p => { p with set := none, txKeys := [], rxKeys := [], retry := true })
      (run (setF HURAL_STAT.STATE 0 n) (run (incF HURAL_HOSTILE.AUTH 1 n) s))) n = { portSt s n with set := none, txKeys := [], rxKeys := [], retry := true } := by
    rw [portSt_updPort, portSt_of_changes (changes_setF _ _ _ _) (by decide), portSt_of_changes (changes_incF _ _ _ _) (by decide)]
  have hthresh : getF (run (updPort n fun p => { p with set := none, txKeys := [], rxKeys := [], retry := true })
      (run (setF HURAL_STAT.STATE 0 n) (run (incF HURAL_HOSTILE.AUTH 1 n) s))) HURAL_THRESH.HOSTILE = getF s HURAL_THRESH.HOSTILE := by
    rw [getF_of_changes (changes_updPort _ _) (by decide), getF_setF_apart (by decide), getF_incF_apart (by decide)]
  rw [hstate, hevent _ (by rw [hport, hthresh]; exact hfew)]
  refine ⟨?_, ?_, ?_, ?_, ?_⟩
  · rw [getF_of_changes (changes_updPort _ _) (by decide), getF_of_changes (changes_updPort _ _) (by decide), getF_setF_fits (by decide)]; rfl
  · rw [portSt_updPort, hport]
  · rw [portSt_updPort, hport]
  · rw [getF_of_changes (changes_updPort _ _) (by decide), getF_of_changes (changes_updPort _ _) (by decide), getF_setF_apart (by decide), getF_incF_fits (by decide)]; rfl
  · rw [mem_of_changes (changes_updPort _ _) (by decide), mem_of_changes (changes_updPort _ _) (by decide), setF_mem, incF_mem]

theorem run_handshake_hello {x : Exchange} (hset : (portSt s n).set = some x) (hstep : x.step = 1) (rev : Nat) (idrev : W64) (berth role : Byte)
    (nonce key e : List Byte) : run (handshakeTake n (.hello rev idrev berth role nonce key e)) s = run (helloTake n x rev idrev berth role nonce key e) s := by
  simp only [handshakeTake, run_ask, hset, hstep, if_true]

theorem run_handshake_idle (hset : (portSt s n).set = none) (hup : sessionUp s n = false) (m : HsMsg) : run (handshakeTake n m) s = s := by
  simp only [handshakeTake, run_ask, hset, hup, Bool.false_eq_true, if_false, run_skip]

theorem run_handshake_finish {x : Exchange} {sig : List Byte} (hset : (portSt s n).set = some x) (hstep : x.step = 4)
    (hsig : Config.mldsaVerify (sha3_256 (portSt s n).peerKey) (sha3_256 x.transcript) sig = true) (sw : Nat) :
    run (handshakeTake n (.finish sig sw)) s = Prim.apply .fresh (run (firstFlit n x) s) := by
  simp only [handshakeTake, run_ask, hset, exchangeStep, run_withFree, hstep, hsig, if_true]

theorem run_sendControl (h : (portSt s n).txKeys ≠ []) (kind : Nat) (body : List Byte) : run (sendControl n kind body) s =
    run (putFlits n [((portSt s n).emit s.now kind 0 body).2]) (run (updPort n fun _ => ((portSt s n).emit s.now kind 0 body).1) s) := by
  rw [sendControl, run_ask, if_pos (Bool.or_eq_true_iff.mpr (.inr (decide_eq_true h))), run_all_cons, run_all_cons, run_all_nil]

/-- The numbering starts at 0, and the first encrypted flit is numbered. -/
theorem firstFlit_spec (n : Nat) (x : Exchange) (s : State) : (portSt (run (firstFlit n x) s) n).set = some { x with step := 5 } ∧
    (portSt (run (firstFlit n x) s) n).rxSeq = 0 ∧ (portSt (run (firstFlit n x) s) n).txSeq = 1 ∧ (run (firstFlit n x) s).regs = s.regs ∧
      (run (firstFlit n x) s).mem = s.mem := by
  have hregs := regs_of_changes (changes_firstFlit n x) (by decide) s
  have hmem := mem_of_changes (changes_firstFlit n x) (by decide) s
  simp only [firstFlit, run_all_cons, run_all_nil] at hregs hmem ⊢
  generalize hport : run (updPort n _) s = t at hregs hmem ⊢
  have hp : portSt t n = _ := hport ▸ portSt_updPort n _ s
  have hkeys : (portSt t n).txKeys ≠ [] := by rw [hp]; exact List.cons_ne_nil _ _
  rw [run_sendControl hkeys, portSt_of_changes (changes_putFlits _ _) (by decide), portSt_updPort] at *
  refine ⟨?_, ?_, ?_, hregs, hmem⟩
  · rw [hp]; rfl
  · rw [hp]; rfl
  · rw [hp]; rfl

/-! The classes of a partner (R354, R356, Table 16-7). -/

theorem partnerGone_spec (s : State) (n : Nat) :
    getF (run (partnerGone n) s) HURAL_EVT.ABSENT n = 1 ∧ Safety.Logged .partnerAbsent s (run (partnerGone n) s) ∧ (run (partnerGone n) s).mem = s.mem ∧
      getF (run (partnerGone n) s) HURAL_STAT.STATE n = getF s HURAL_STAT.STATE n ∧ getF (run (partnerGone n) s) HURAL_STAT.PARTNER n = getF s HURAL_STAT.PARTNER n := by
  simp only [partnerGone, run_ask, run_all_cons, run_all_nil]
  have hnotes (l : List Nat) (x : Nat) : (Act.each (fun b => sendNote 0x13 b x) l).Changes [.out, .hural] := changes_each fun _ => changes_sendNote _ _ _
  refine ⟨?_, ?_, ?_, ?_, ?_⟩
  · rw [getF_of_changes (hnotes _ _) (by decide), getF_of_changes (changes_logEv _ _ _ _) (by decide), getF_evt_fits (by decide)]; rfl
  · exact Logged.congr (logged_logEv (by decide) _ _ _ (evt_tally ..)) rfl (tally_of_changes (hnotes _ _) (by decide) _ _)
  · rw [mem_of_changes (hnotes _ _) (by decide), mem_of_changes (changes_logEv _ _ _ _) (by decide), evt_mem]
  · rw [getF_of_changes (hnotes _ _) (by decide), getF_of_changes (changes_logEv _ _ _ _) (by decide), getF_evt_apart (by decide)]
  · rw [getF_of_changes (hnotes _ _) (by decide), getF_of_changes (changes_logEv _ _ _ _) (by decide), getF_evt_apart (by decide)]

/-- The reason of the oldest CLOSE that arrived. -/
def closeReason (s : State) (n : Nat) : Option Nat := (portSt s n).ctl.findSome? fun c => match c with | .close r => some r | .nak _ => none

theorem run_closeTake {r : Nat} (h : closeReason s n = some r) :
    run (closeTake n) s = run (Act.when (r = 1) (partnerGone n)) (run (endSession n 0 (if r = 1 then 1 else 0)) s) := by
  have hmodel : run (closeTake n) s = run (match closeReason s n with
    | some r => Act.all [endSession n 0 (if r = 1 then 1 else 0), Act.when (r = 1) (partnerGone n)]
    | none => .skip) s := rfl
  rw [hmodel, h]
  dsimp only
  rw [run_all_cons, run_all_cons, run_all_nil]

theorem closeTake_spec {r : Nat} (h : closeReason s n = some r) :
    getF (run (closeTake n) s) HURAL_STAT.STATE n = 0 ∧ (run (closeTake n) s).mem = s.mem ∧ (r ≠ 1 → getF (run (closeTake n) s) HURAL_STAT.PARTNER n = 0) ∧
      (r = 1 → getF (run (closeTake n) s) HURAL_STAT.PARTNER n = 1 ∧ getF (run (closeTake n) s) HURAL_EVT.ABSENT n = 1 ∧
        Safety.Logged .partnerAbsent s (run (closeTake n) s)) := by
  rw [run_closeTake h]
  by_cases h1 : r = 1
  · obtain ⟨hstate, hpartner, hmem, -⟩ := endSession_spec s n 0 1
    obtain ⟨habsent, hlog, hmem', hstate', hpartner'⟩ := partnerGone_spec (run (endSession n 0 1) s) n
    rw [if_pos h1, run_when, if_pos (decide_eq_true h1)]
    exact ⟨hstate'.trans hstate, hmem'.trans hmem, fun hne => absurd h1 hne, fun _ => ⟨hpartner'.trans hpartner, habsent,
      Logged.congr hlog (tally_of_changes (changes_endSession _ _ _) (by decide) _ _).symm rfl⟩⟩
  · obtain ⟨hstate, hpartner, hmem, -⟩ := endSession_spec s n 0 0
    rw [if_neg h1, run_when, if_neg fun hc => h1 (of_decide_eq_true hc)]
    exact ⟨hstate, hmem, fun _ => hpartner, fun h => absurd h h1⟩

theorem run_partnerAbsent (h : portState s n = 3) : run (partnerAbsent n) s =
    run (partnerGone n) (run (rerouteWaiting [n]) (run (setF HURAL_STAT.PARTNER 1 n) (run (setF HURAL_STAT.STATE 4 n) s))) := by
  rw [partnerAbsent, run_given, if_pos (decide_eq_true h), run_all_cons, run_all_cons, run_all_cons, run_all_cons, run_all_nil]

theorem run_partnerAbsent_not (h : portState s n ≠ 3) : run (partnerAbsent n) s = s := by
  rw [partnerAbsent, run_given, if_neg fun hc => h (of_decide_eq_true hc)]

theorem run_partnerSlow {vc : Nat} (h : portState s n = 3) (hcredit : (portSt s n).creditOf vc = 0) (hslow : (portSt s n).slow = none) : run (partnerSlow n vc) s =
    run (rerouteWaiting [n]) (run (logEv .partnerSlow 0xFF n) (run (evt HURAL_EVT.SLOW n) (run (incF HURAL_STARVE.EPISODES 1 n)
      (run (setF HURAL_STAT.PARTNER 2 n) (run (updPort n fun p => { p with slow := some vc }) s))))) := by
  rw [partnerSlow, run_given, if_pos ?_, run_all_cons, run_all_cons, run_all_cons, run_all_cons, run_all_cons, run_all_cons, run_all_nil]
  rw [decide_eq_true h, decide_eq_true hcredit, hslow]
  rfl

/-- The quarantines within the last hour, with this one. -/
def quarantineCount (s : State) (n : Nat) : Nat := (recent s.now oneHour (portSt s n).quarantines).length

theorem run_quarantine (n : Nat) (s : State) : ∃ f, run (quarantine n) s = run (endSession n (if 3 ≤ quarantineCount s n then 0 else 5) 3)
    (run (updPort n f) (run (sendClose n 3) (run (logEv .partnerFaulty 0xFF n) (run (evt HURAL_EVT.FAULTY n) s)))) := by
  simp only [quarantine, run_ask, run_all_cons, run_all_nil]
  exact ⟨_, rfl⟩

theorem quarantine_spec (n : Nat) (s : State) : getF (run (quarantine n) s) HURAL_STAT.PARTNER n = 3 ∧ getF (run (quarantine n) s) HURAL_EVT.FAULTY n = 1 ∧
    Safety.Logged .partnerFaulty s (run (quarantine n) s) ∧ (run (quarantine n) s).mem = s.mem ∧
      getF (run (quarantine n) s) HURAL_STAT.STATE n = if 3 ≤ quarantineCount s n then 0 else 5 := by
  obtain ⟨f, hrun⟩ := run_quarantine n s
  have hst : (if 3 ≤ quarantineCount s n then 0 else 5) % 8 = if 3 ≤ quarantineCount s n then 0 else 5 := by split <;> rfl
  generalize (if 3 ≤ quarantineCount s n then 0 else 5) = st at hrun hst
  obtain ⟨hstate, hpartner, hmem, hkeep⟩ := endSession_spec (run (updPort n f) (run (sendClose n 3) (run (logEv .partnerFaulty 0xFF n) (run (evt HURAL_EVT.FAULTY n) s)))) n st 3
  rw [hrun]
  refine ⟨hpartner, ?_, ?_, ?_, hstate.trans hst⟩
  · rw [hkeep _ (by decide) (by decide), getF_of_changes (changes_updPort _ _) (by decide), getF_of_changes (changes_sendClose _ _) (by decide),
      getF_of_changes (changes_logEv _ _ _ _) (by decide), getF_evt_fits (by decide)]; rfl
  · refine Logged.congr (logged_logEv (t := run (evt HURAL_EVT.FAULTY n) s) (by decide) 0xFF n [] (evt_tally ..)) rfl ?_
    rw [tally_of_changes (changes_endSession _ _ _) (by decide), tally_of_changes (changes_updPort _ _) (by decide), tally_of_changes (changes_sendClose _ _) (by decide)]
  · rw [hmem, mem_of_changes (changes_updPort _ _) (by decide), mem_of_changes (changes_sendClose _ _) (by decide), mem_of_changes (changes_logEv _ _ _ _) (by decide), evt_mem]

theorem run_partnerStuck (hslow : (portSt s n).slow ≠ none) (hup : sessionUp s n = true) : run (partnerStuck n) s = run (quarantine n) s := by
  rw [partnerStuck, run_given, hup, Option.isSome_iff_ne_none.mpr hslow, Bool.and_self, if_pos rfl]

end

/-! The statement, part by part. -/

theorem linkUp_spec (s : State) (n : Fin 18) :
    (∀ o, (portSt s n).barred = true → ∃ t, exec (.linkUp n o) s = .next t ∧ t = s) ∧
    ((portSt s n).barred = false →
      (∃ t, exec (.linkUp n false) s = .next t ∧ getF t HURAL_STAT.STATE n = 1 ∧ (portSt t n).link = false ∧ Safety.Logged .portTraining s t ∧ t.mem = s.mem) ∧
      (sessionUp s n = false → mayOpen s = true → getB s HURAL_CFG.EN n = true →
        ∃ t nonce, exec (.linkUp n true) s = .next t ∧ getF t HURAL_STAT.STATE n = 2 ∧ (portSt t n).link = true ∧ (portSt t n).set.isSome = true ∧ t.mem = s.mem ∧
          t.out = .handshake n (.hello 1 (getReg s .IDREV 0 0) (BitVec.ofNat 8 (ownBerth s)) (BitVec.ofNat 8 (theChart s).flRole) nonce s.sec.idKey s.sec.endorsement) :: s.out) ∧
      (sessionUp s n = false → mayOpen s = false → ∃ t, exec (.linkUp n true) s = .next t ∧ (portSt t n).link = true ∧ t.regs = s.regs ∧ t.out = s.out ∧ t.mem = s.mem)) := by
  refine ⟨fun o h => ⟨_, rfl, run_linkUp_barred h o⟩, fun hbar => ⟨⟨_, rfl, ?_⟩, fun hup hmay hen => ?_, fun hup hmay => ⟨_, rfl, ?_⟩⟩⟩
  · rw [run_linkUp_lacks hbar]
    refine ⟨?_, ?_, ?_, ?_⟩
    · rw [getF_of_changes (changes_logEv _ _ _ _) (by decide), getF_of_changes (changes_updPort _ _) (by decide), getF_setF_fits (by decide)]; rfl
    · rw [portSt_of_changes (changes_logEv _ _ _ _) (by decide), portSt_updPort]
    · exact logged_logEv (by decide) _ _ _ ((tally_of_changes (changes_updPort _ _) (by decide) _ _).trans (setF_tally ..))
    · rw [mem_of_changes (changes_logEv _ _ _ _) (by decide), mem_of_changes (changes_updPort _ _) (by decide), setF_mem]
  · obtain ⟨nonce, hstate, hout, hmem, hport⟩ := beginHandshake_spec (run (updPort n fun p => { p with link := true }) s) n
    have hrun : run (linkUp n true) s = run (beginHandshake n) (run (updPort n fun p => { p with link := true }) s) := by
      rw [run_linkUp_offers hbar hup, run_tryOpen, openable_linkUp hbar hup, hmay, hen, Bool.true_or, Bool.and_self, if_pos rfl]
    refine ⟨_, nonce, rfl, ?_⟩
    rw [hrun]
    refine ⟨hstate, ?_, ?_, hmem.trans (mem_of_changes (changes_updPort _ _) (by decide) _), hout⟩
    · rw [hport, portSt_updPort]
    · rw [hport]; rfl
  · rw [run_linkUp_offers hbar hup, run_tryOpen, openable_linkUp hbar hup, hmay, Bool.false_and, if_neg Bool.false_ne_true]
    exact ⟨congrArg PortSt.link (portSt_updPort _ _ _), rfl, rfl, rfl⟩

theorem hurOpen_spec (s : State) (n : Fin 18) : ∃ t, exec (.huralCtlOpen n) s = .next t ∧ (portSt t n).barred = false ∧ t.mem = s.mem ∧
    (sessionUp s n = false → (portSt s n).link = true → mayOpen s = true → getF t HURAL_STAT.STATE n = 2 ∧ (portSt t n).set.isSome = true) ∧
    (sessionUp s n = true ∨ (portSt s n).link = false ∨ mayOpen s = false → t.regs = s.regs ∧ (portSt t n).want = true) := by
  refine ⟨_, rfl, ?_⟩
  rw [hurOpen, run_seq, run_tryOpen, openable_hurOpen]
  by_cases h : ((portSt s n).link && mayOpen s && !sessionUp s n) = true
  · obtain ⟨nonce, hstate, -, hmem, hport⟩ := beginHandshake_spec (run (updPort n fun p => { p with want := true, barred := false }) s) n
    rw [if_pos h, hport, portSt_updPort]
    refine ⟨rfl, hmem.trans (mem_of_changes (changes_updPort _ _) (by decide) _), fun _ _ _ => ⟨hstate, rfl⟩, fun hor => ?_⟩
    obtain ⟨hlm, hup⟩ := Bool.and_eq_true_iff.mp h
    obtain ⟨hlink, hmay⟩ := Bool.and_eq_true_iff.mp hlm
    rcases hor with h | h | h
    · rw [h] at hup; exact absurd hup (by decide)
    · rw [h] at hlink; exact absurd hlink (by decide)
    · rw [h] at hmay; exact absurd hmay (by decide)
  · rw [if_neg h, portSt_updPort]
    refine ⟨rfl, rfl, fun hup hlink hmay => absurd ?_ h, fun _ => ⟨rfl, rfl⟩⟩
    rw [hup, hlink, hmay]; rfl

theorem hurClose_spec (s : State) (n : Fin 18) : ∃ t, exec (.huralCtlClose n) s = .next t ∧ t.mem = s.mem ∧
    (portState s n ≠ 6 → getF t HURAL_STAT.STATE n = 0 ∧ getF t HURAL_STAT.PARTNER n = 0) ∧ (portState s n = 6 → t = s) := by
  refine ⟨_, rfl, ?_⟩
  by_cases h : portState s n = 6
  · rw [run_hurClose_hostile h]
    exact ⟨rfl, fun hne => absurd h hne, fun _ => rfl⟩
  · obtain ⟨hstate, hpartner, hmem, -⟩ := endSession_spec (run (sendClose n 0) s) n 0 0
    rw [run_hurClose_open h]
    exact ⟨hmem.trans (mem_of_changes (changes_sendClose _ _) (by decide) _), fun _ => ⟨hstate, hpartner⟩, fun he => absurd he h⟩

theorem rekey_spec (s : State) (n : Fin 18) (hup : sessionUp s n = true) (hnone : (portSt s n).rekey = none) :
    (∃ t ek, exec (.huralCtlRekey n) s = .next t ∧ t.out = .handshake n (.encap ek) :: s.out ∧ (portSt t n).rekey.isSome = true ∧ t.regs = s.regs ∧ t.mem = s.mem) ∧
    ((portSt s n).txSeq < 2 ^ 63 → (portSt s n).rxSeq < 2 ^ 63 →
      ∃ t ek, exec (.rekeyDue n) s = .next t ∧ t.out = .handshake n (.encap ek) :: s.out ∧ (portSt t n).rekey.isSome = true ∧ t.regs = s.regs ∧ t.mem = s.mem) ∧
    ((portSt s n).retry = true →
      ∃ t ek, exec (.sessionRetry n) s = .next t ∧ t.out = .handshake n (.encap ek) :: s.out ∧ (portSt t n).retry = false ∧ (portSt t n).rekey.isSome = true ∧
        t.regs = s.regs ∧ t.mem = s.mem) := by
  obtain ⟨ek, seed, hout, hregs, hmem, hport⟩ := rekeyStart_spec hup hnone
  refine ⟨⟨_, ek, rfl, hout, hport ▸ rfl, hregs, hmem⟩, fun htx hrx => ⟨_, ek, rfl, ?_⟩, fun hretry => ?_⟩
  · rw [run_rekeyDue_young htx hrx]
    exact ⟨hout, hport ▸ rfl, hregs, hmem⟩
  · have hup' : sessionUp (run (updPort n fun p => { p with retry := false }) s) n = true := (sessionUp_of_changes (changes_updPort _ _) (by decide) _ _).trans hup
    have hnone' : (portSt (run (updPort n fun p => { p with retry := false }) s) n).rekey = none := (congrArg PortSt.rekey (portSt_updPort _ _ _)).trans hnone
    obtain ⟨ek', seed', hout', hregs', hmem', hport'⟩ := rekeyStart_spec hup' hnone'
    refine ⟨_, ek', rfl, ?_⟩
    rw [run_sessionRetry_rekey hretry hup]
    exact ⟨hout', hport' ▸ rfl, hport' ▸ rfl, hregs', hmem'⟩

theorem rekeyNot_spec (s : State) (n : Fin 18) :
    (sessionUp s n = false ∨ (portSt s n).rekey ≠ none → ∃ t, exec (.huralCtlRekey n) s = .next t ∧ t.regs = s.regs ∧ t.hural = s.hural ∧ t.out = s.out) ∧
    (2 ^ 63 ≤ (portSt s n).txSeq ∨ 2 ^ 63 ≤ (portSt s n).rxSeq → ∃ t, exec (.rekeyDue n) s = .next t ∧ getF t HURAL_STAT.STATE n = 0 ∧ t.mem = s.mem) ∧
    ((portSt s n).retry = false → ∃ t, exec (.sessionRetry n) s = .next t ∧ t = s) := by
  refine ⟨fun h => ⟨_, rfl, rekeyStart_idle h⟩, fun h => ⟨_, rfl, ?_⟩, fun h => ⟨_, rfl, run_sessionRetry_not h⟩⟩
  obtain ⟨hstate, -, hmem, -⟩ := endSession_spec s n 0 0
  rw [run_rekeyDue_old h]
  exact ⟨hstate, hmem⟩

theorem hello_spec (s : State) (n : Fin 18) (x : Exchange) (idrev : W64) (berth role : Byte) (nonce key e : List Byte) (hset : (portSt s n).set = some x)
    (hstep : x.step = 1) :
    (idrev.toNat / 2 ^ 32 = (getReg s .IDREV 0 0).toNat / 2 ^ 32 → Config.mldsaVerify (ownerKey s) (endorsed key idrev) e = true →
      ∃ t y, exec (.handshake n (.hello 1 idrev berth role nonce key e)) s = .next t ∧ getF t HURAL_STAT.PEER n = berth.toNat ∧ (portSt t n).peerKey = key ∧
        (portSt t n).set = some y ∧ (y.step = 2 ∨ y.step = 3) ∧ t.mem = s.mem) ∧
    (Config.mldsaVerify (ownerKey s) (endorsed key idrev) e = false → (recent s.now oneSecond (portSt s n).hostile).length ≤ max 1 (getF s HURAL_THRESH.HOSTILE) →
      ∃ t, exec (.handshake n (.hello 1 idrev berth role nonce key e)) s = .next t ∧ getF t HURAL_STAT.STATE n = 0 ∧ (portSt t n).set = none ∧
        (portSt t n).retry = true ∧ getF t HURAL_HOSTILE.AUTH n = min (getF s HURAL_HOSTILE.AUTH n + 1) (2 ^ 16 - 1) ∧ t.mem = s.mem) := by
  refine ⟨fun hid hsig => ?_, fun hsig hfew => ⟨_, rfl, ?_⟩⟩
  · obtain ⟨y, hy, hpeer, hkey, hy', hmem⟩ := helloTake_passes (n := n) (x := x) (berth := berth) (role := role) (nonce := nonce) hid hsig
    refine ⟨_, y, rfl, ?_⟩
    rw [run_handshake_hello hset hstep]
    exact ⟨hpeer, hkey, hy', hy, hmem⟩
  · obtain ⟨hstate, hnone, hretry, hauth, hmem⟩ := exchangeFails_set hset hfew
    rw [run_handshake_hello hset hstep, run_helloTake_fails hsig]
    generalize run (exchangeFails n) s = t at hstate hnone hretry hauth hmem ⊢
    exact ⟨hstate, hnone, hretry, hauth, hmem⟩

theorem partner_spec (s : State) (n : Fin 18) :
    (portState s n = 3 → ∃ t, exec (.partnerAbsent n) s = .next t ∧ getF t HURAL_STAT.STATE n = 4 ∧ getF t HURAL_STAT.PARTNER n = 1 ∧ getF t HURAL_EVT.ABSENT n = 1 ∧
      Safety.Logged .partnerAbsent s t ∧ t.mem = s.mem) ∧
    (portState s n ≠ 3 → ∃ t, exec (.partnerAbsent n) s = .next t ∧ t = s) := by
  refine ⟨fun h => ⟨_, rfl, ?_⟩, fun h => ⟨_, rfl, run_partnerAbsent_not h⟩⟩
  obtain ⟨habsent, hlog, hmem, hstate, hpartner⟩ :=
    partnerGone_spec (run (rerouteWaiting [n.val]) (run (setF HURAL_STAT.PARTNER 1 n) (run (setF HURAL_STAT.STATE 4 n) s))) n
  rw [run_partnerAbsent h]
  refine ⟨hstate.trans ?_, hpartner.trans ?_, habsent, Logged.congr hlog ?_ rfl, hmem.trans ?_⟩
  · rw [getF_of_changes (changes_rerouteWaiting _) (by decide), getF_setF_apart (by decide), getF_setF_fits (by decide)]; rfl
  · rw [getF_of_changes (changes_rerouteWaiting _) (by decide), getF_setF_fits (by decide)]; rfl
  · rw [tally_of_changes (changes_rerouteWaiting _) (by decide), setF_tally, setF_tally]
  · rw [mem_of_changes (changes_rerouteWaiting _) (by decide), setF_mem, setF_mem]

theorem slow_spec (s : State) (n : Fin 18) (vc : Fin 4) (h : portState s n = 3) (hcredit : (portSt s n).creditOf vc = 0) (hslow : (portSt s n).slow = none) :
    ∃ t, exec (.partnerSlow n vc) s = .next t ∧ getF t HURAL_STAT.PARTNER n = 2 ∧ getF t HURAL_EVT.SLOW n = 1 ∧
      getF t HURAL_STARVE.EPISODES n = min (getF s HURAL_STARVE.EPISODES n + 1) (2 ^ 24 - 1) ∧ Safety.Logged .partnerSlow s t ∧ t.mem = s.mem := by
  refine ⟨_, rfl, ?_⟩
  rw [run_partnerSlow h hcredit hslow]
  refine ⟨?_, ?_, ?_, ?_, ?_⟩
  · rw [getF_of_changes (changes_rerouteWaiting _) (by decide), getF_of_changes (changes_logEv _ _ _ _) (by decide), getF_evt_apart (by decide),
      getF_incF_apart (by decide), getF_setF_fits (by decide)]; rfl
  · rw [getF_of_changes (changes_rerouteWaiting _) (by decide), getF_of_changes (changes_logEv _ _ _ _) (by decide), getF_evt_fits (by decide)]; rfl
  · rw [getF_of_changes (changes_rerouteWaiting _) (by decide), getF_of_changes (changes_logEv _ _ _ _) (by decide), getF_evt_apart (by decide),
      getF_incF_fits (by decide), getF_setF_apart (by decide), getF_of_changes (changes_updPort _ _) (by decide)]; rfl
  · refine Logged.congr (logged_logEv (by decide) 0xFF n [] ?_) rfl (tally_of_changes (changes_rerouteWaiting _) (by decide) _ _)
    rw [evt_tally, tally_of_changes (changes_incF _ _ _ _) (by decide), setF_tally, tally_of_changes (changes_updPort _ _) (by decide)]
  · rw [mem_of_changes (changes_rerouteWaiting _) (by decide), mem_of_changes (changes_logEv _ _ _ _) (by decide), evt_mem, incF_mem, setF_mem,
      mem_of_changes (changes_updPort _ _) (by decide)]

theorem quarantine_end_spec (s : State) (n : Fin 18) :
    (portState s n = 5 → ∃ t, exec (.quarantineRetrain n) s = .next t ∧ getF t HURAL_STAT.STATE n = 1 ∧ (portSt t n).link = false ∧ t.mem = s.mem) ∧
    (portState s n ≠ 5 → ∃ t, exec (.quarantineRetrain n) s = .next t ∧ t = s) ∧
    (sessionUp s n = true → getF s HURAL_STAT.PARTNER n = 3 → ∃ t, exec (.quarantineEnd n) s = .next t ∧ getF t HURAL_STAT.PARTNER n = 0 ∧
      getF t HURAL_STAT.STATE n = getF s HURAL_STAT.STATE n ∧ t.hural = s.hural ∧ t.mem = s.mem) ∧
    (getF s HURAL_STAT.PARTNER n ≠ 3 → ∃ t, exec (.quarantineEnd n) s = .next t ∧ t = s) := by
  refine ⟨fun h => ⟨_, rfl, ?_⟩, fun h => ⟨_, rfl, ?_⟩, fun hup h => ⟨_, rfl, ?_⟩, fun h => ⟨_, rfl, ?_⟩⟩
  · rw [quarantineRetrain, run_given, if_pos (decide_eq_true h), run_seq]
    refine ⟨?_, ?_, ?_⟩
    · rw [getF_of_changes (changes_updPort _ _) (by decide), getF_setF_fits (by decide)]; rfl
    · rw [portSt_updPort]
    · rw [mem_of_changes (changes_updPort _ _) (by decide), setF_mem]
  · rw [quarantineRetrain, run_given, if_neg fun hc => h (of_decide_eq_true hc)]
  · rw [quarantineEnd, run_given, hup, decide_eq_true h, Bool.and_self, if_pos rfl]
    exact ⟨getF_setF_fits (by decide) _ _ _ _, getF_setF_apart (by decide) _ _ _ _ _ _, setF_hural .., setF_mem ..⟩
  · rw [quarantineEnd, run_given, if_neg fun hc => h (of_decide_eq_true (Bool.and_eq_true_iff.mp hc).2)]

/-- Settles O38, port by port and command by command. -/
theorem huralSessions : Obligations.HuralSessions := by
  unfold Obligations.HuralSessions
  refine ⟨linkUp_spec, hurOpen_spec, hurClose_spec, rekey_spec, rekeyNot_spec, hello_spec, fun s n x sig sw hset hstep hsig => ⟨_, rfl, ?_⟩,
    fun s n m hset hup => ⟨_, rfl, run_handshake_idle hset hup m⟩, fun s => ⟨fun h => ⟨_, run (updHural fun h => { h with hold := false }) s, rfl, ?_, rfl, rfl⟩,
      fun h => ⟨_, rfl, ?_⟩⟩, fun s n r h => ⟨_, rfl, closeTake_spec h⟩, partner_spec, slow_spec, fun s n hslow hup => ⟨_, rfl, ?_⟩, quarantine_end_spec⟩
  · obtain ⟨hx, hrx, htx, hregs, hmem⟩ := firstFlit_spec n.val x s
    rw [run_handshake_finish hset hstep hsig]
    exact ⟨hx, hrx, htx, hregs, hmem⟩
  · rw [holdExpiry, run_given, if_pos h, run_seq]
  · rw [holdExpiry, run_given, if_neg (Bool.eq_false_iff.mp h)]
  · rw [run_partnerStuck hslow hup]
    exact quarantine_spec n s

end Sys2Proof.Machine

/-! PROOFS. Hural flits: the checks of a flit, Ethernet frames, resends and keepalives (R343 to R349, R354, R367). -/

namespace Sys2Proof.Machine

section
variable {s : State} {n : Nat}

/-! What the events of a port write. -/

theorem writes_endSession (n st partner : Nat) : (endSession n st partner).Writes [.HURAL_STAT] := fun _ =>
  ⟨writes_setF (by decide) _ _ _, writes_setF (by decide) _ _ _, trivial, trivial, writes_of_changes (changes_rerouteWaiting _) (by decide), trivial⟩

/-- The registers of a port's class and events. -/
def portRegs : List RegName := [.HURAL_STAT, .HURAL_EVT]

theorem writes_quarantine (n : Nat) : (quarantine n).Writes portRegs := fun _ =>
  ⟨writes_evt (by decide) _ _, writes_of_changes (changes_logEv _ _ _ _) (by decide), writes_of_changes (changes_sendClose _ _) (by decide), trivial,
    (writes_endSession _ _ _).mono fun _ h => List.mem_cons.mpr (.inl (List.mem_singleton.mp h)), trivial⟩

theorem writes_badEvent (n : Nat) : (badEvent n).Writes portRegs := fun _ => ⟨trivial, (within_when _ _).mpr fun _ => writes_quarantine n, trivial⟩

theorem writes_hostileClose (n : Nat) : (hostileClose n).Writes portRegs :=
  ⟨writes_evt (by decide) _ _, writes_of_changes (changes_logEv _ _ _ _) (by decide), writes_of_changes (changes_sendClose _ _) (by decide), trivial,
    (writes_endSession _ _ _).mono fun _ h => List.mem_cons.mpr (.inl (List.mem_singleton.mp h)), trivial⟩

theorem writes_hostileEvent (n : Nat) : (hostileEvent n).Writes portRegs := fun _ => ⟨trivial, (within_when _ _).mpr fun _ => writes_hostileClose n, trivial⟩

/-- A failed check counts one authentication failure, of a set-up or of a rekey. -/
theorem exchangeFails_auth (n : Nat) (s : State) :
    getF (run (exchangeFails n) s) HURAL_HOSTILE.AUTH n = min (getF s HURAL_HOSTILE.AUTH n + 1) (2 ^ 16 - 1) := by
  have hend : (if (portSt s n).set.isSome then Act.all [setF HURAL_STAT.STATE 0 n, updPort n fun p => { p with set := none, txKeys := [], rxKeys := [], retry := true }]
      else updPort n fun p => { p with rekey := none, retry := true }).Writes portRegs := by
    split
    · exact ⟨writes_setF (by decide) _ _ _, trivial, trivial⟩
    · trivial
  simp only [exchangeFails, run_ask, run_all_cons, run_all_nil]
  rw [(writes_hostileEvent n).getF (by decide), hend.getF (by decide), getF_incF_fits (by decide)]
  rfl

/-! The checks of a flit (R345). -/

theorem run_flitReceive (f : List Byte) (c : Nat) (u : Bool) (s : State) :
    run (flitReceive n f c u) s = run (flitTake n f u) (run (incF HURAL_LINK.FECCE c n) s) := by
  rw [flitReceive, run_all_cons, run_all_cons, run_all_nil]

theorem run_flitTake_deaf (hup : sessionUp s n = false) (hset : (portSt s n).set = none) (f : List Byte) (u : Bool) : run (flitTake n f u) s = s := by
  simp only [flitTake, run_ask, hup, hset, Bool.or_self, Bool.not_false, if_true, run_skip]

theorem run_flitTake_uncorrectable (hup : sessionUp s n = true) (f : List Byte) :
    run (flitTake n f true) s = run (badEvent n) (run (sendNak n) (run (incF HURAL_LINK.FECUE 1 n) s)) := by
  simp only [flitTake, run_ask, hup, Bool.true_or, Bool.not_true, Bool.false_eq_true, if_false, if_true, run_all_cons, run_all_nil]

/-- A flit has its length and its CRC. -/
def flitSound (f : List Byte) : Bool := !(decide (f.length ≠ 256) || decide (fieldAt f 0xFC 4 ≠ (crc32 (f.take 0xFC)).toNat))

/-- How far a flit's number lies ahead of the expected one. -/
def flitAhead (p : PortSt) (f : List Byte) : Nat := (bitsOf (fieldAt f 0 8) 48 16 + 2 ^ 16 - p.rxSeq % 2 ^ 16) % 2 ^ 16

/-- The body of the flit with the expected number, where it authenticates. -/
def flitOpened (p : PortSt) (f : List Byte) : Option (List Byte) :=
  gcmOpen (keyAt p.rxKeys p.rxSeq).key ((keyAt p.rxKeys p.rxSeq).nonce p.rxSeq) (f.take 8) (slice f 8 228) (slice f 0xEC 16)

theorem run_flitTake_crc (hup : sessionUp s n = true) {f : List Byte} (h : flitSound f = false) :
    run (flitTake n f false) s = run (badEvent n) (run (sendNak n) (run (incF HURAL_ERR.CRC 1 n) s)) := by
  rw [flitSound, Bool.not_eq_false'] at h
  simp only [flitTake, run_ask, hup, Bool.true_or, Bool.not_true, Bool.false_eq_true, if_false]
  rw [if_pos h, run_all_cons, run_all_cons, run_all_cons, run_all_nil]

theorem run_flitTake_sound (hup : sessionUp s n = true) {f : List Byte} (h : flitSound f = true) :
    run (flitTake n f false) s = run (if 2 ^ 16 - 1024 ≤ flitAhead (portSt s n) f then .skip
      else if 1 ≤ flitAhead (portSt s n) f && flitAhead (portSt s n) f ≤ 1024 then Act.all [incF HURAL_ERR.GAP 1 n, sendNak n]
      else if flitAhead (portSt s n) f ≠ 0 then Act.all [incF HURAL_HOSTILE.REPLAY 1 n, hostileEvent n]
      else (flitOpened (portSt s n) f).elim (if (portSt s n).set.isSome then exchangeFails n else Act.all [incF HURAL_HOSTILE.AUTH 1 n, hostileEvent n])
        (acceptFlit n (fieldAt f 0 8))) s := by
  rw [flitSound, Bool.not_eq_true'] at h
  simp only [flitTake, run_ask, hup, Bool.true_or, Bool.not_true, Bool.false_eq_true, if_false]
  rw [if_neg (Bool.eq_false_iff.mp h)]
  unfold flitAhead flitOpened
  generalize (bitsOf (fieldAt f 0 8) 48 16 + 2 ^ 16 - (portSt s n).rxSeq % 2 ^ 16) % 2 ^ 16 = d
  generalize gcmOpen _ _ _ _ _ = opened
  cases opened with
  | none => rfl
  | some body => rfl

section
variable {f : List Byte} (hup : sessionUp s n = true) (h : flitSound f = true)
include hup h

theorem run_flitTake_behind (hd : 2 ^ 16 - 1024 ≤ flitAhead (portSt s n) f) : run (flitTake n f false) s = s := by
  rw [run_flitTake_sound hup h, if_pos hd, run_skip]

theorem run_flitTake_gap (h1 : 1 ≤ flitAhead (portSt s n) f) (hd : flitAhead (portSt s n) f ≤ 1024) :
    run (flitTake n f false) s = run (sendNak n) (run (incF HURAL_ERR.GAP 1 n) s) := by
  rw [run_flitTake_sound hup h, if_neg (by omega), if_pos (Bool.and_eq_true_iff.mpr ⟨decide_eq_true h1, decide_eq_true hd⟩), run_all_cons, run_all_cons, run_all_nil]

theorem run_flitTake_replay (h1 : 1024 < flitAhead (portSt s n) f) (hd : flitAhead (portSt s n) f < 2 ^ 16 - 1024) :
    run (flitTake n f false) s = run (hostileEvent n) (run (incF HURAL_HOSTILE.REPLAY 1 n) s) := by
  rw [run_flitTake_sound hup h, if_neg (by omega), if_neg fun hc => Nat.not_le.mpr h1 (of_decide_eq_true (Bool.and_eq_true_iff.mp hc).2), if_pos (by omega),
    run_all_cons, run_all_cons, run_all_nil]

theorem run_flitTake_expected (hd : flitAhead (portSt s n) f = 0) :
    run (flitTake n f false) s = run ((flitOpened (portSt s n) f).elim
      (if (portSt s n).set.isSome then exchangeFails n else Act.all [incF HURAL_HOSTILE.AUTH 1 n, hostileEvent n]) (acceptFlit n (fieldAt f 0 8))) s := by
  rw [run_flitTake_sound hup h, hd]
  rfl

theorem flitTake_forged (hd : flitAhead (portSt s n) f = 0) (hbody : flitOpened (portSt s n) f = none) :
    getF (run (flitTake n f false) s) HURAL_HOSTILE.AUTH n = min (getF s HURAL_HOSTILE.AUTH n + 1) (2 ^ 16 - 1) := by
  rw [run_flitTake_expected hup h hd, hbody, Option.elim_none]
  split
  · exact exchangeFails_auth n s
  · rw [run_all_cons, run_all_cons, run_all_nil, (writes_hostileEvent n).getF (by decide), getF_incF_fits (by decide)]
    rfl

end

/-! An idle flit (R343, R345). -/

/-- A port with nothing in its queue sends nothing. -/
theorem pump_idle (hstate : portState s n = 3) (hq : (portSt s n).queue = []) :
    portSt (run (pump n) s) n = portSt s n ∧ (run (pump n) s).out = s.out := by
  have hsend : PortSt.sendAll s.now [] (portSt s n) (sendOrder (ownBerth s) (portSt s n).queue) = (portSt s n, [], []) := by
    rw [hq]; rfl
  have hnone (t : State) : run (putFlits n []) t = t := by
    rw [putFlits, run_ask]
    split <;> rfl
  rw [pump, run_ask, if_pos hstate]
  dsimp only
  rw [hsend, run_all_cons, run_all_cons, run_all_nil, hnone, portSt_updPort]
  refine ⟨?_, rfl⟩
  rw [← hq]

/-- The port after an idle flit. -/
def PortSt.idleTaken (p : PortSt) (hdr : Nat) : PortSt :=
  { p with rxSeq := p.rxSeq + 1, acked := p.ack (bitsOf hdr 32 16),
           credits := Cells.put 0 p.credits (bitsOf hdr 4 2) (min (vcBuffer (bitsOf hdr 4 2)) (p.creditOf (bitsOf hdr 4 2) + bitsOf hdr 16 16)) }

theorem PortSt.with_slow_none {p : PortSt} (h : p.slow = none) : { p with slow := none } = p := by
  cases p; cases h; rfl

theorem acceptFlit_idle (hset : (portSt s n).set = none) (hstate : portState s n = 3) (hslow : (portSt s n).slow = none) (hq : (portSt s n).queue = [])
    {hdr : Nat} (hkind : bitsOf hdr 0 2 = 0) (body : List Byte) :
    portSt (run (acceptFlit n hdr body) s) n = (portSt s n).idleTaken hdr ∧ (run (acceptFlit n hdr body) s).out = s.out := by
  have hrun : ∃ t, run (acceptFlit n hdr body) s = run (pump n) t ∧ portSt t n = (portSt s n).idleTaken hdr ∧ portState t n = 3 ∧ t.out = s.out := by
    refine ⟨run (updPort n fun p => { p.idleTaken hdr with slow := if (portSt s n).slow = some (bitsOf hdr 4 2) && decide (bitsOf hdr 16 16 ≠ 0) then none else p.slow }) s,
      ?_, ?_, (portState_of_changes (changes_updPort _ _) (by decide) _ _).trans hstate, rfl⟩
    · simp only [acceptFlit, run_ask, run_all_cons, run_all_nil, hset, hslow, hstate, hkind, Option.isSome_none]
      rfl
    · rw [portSt_updPort, hslow]
      simp only [reduceCtorEq, decide_false, Bool.false_and, Bool.false_eq_true, ite_self]
      exact PortSt.with_slow_none hslow
  obtain ⟨t, hrun, hport, ht, hout⟩ := hrun
  obtain ⟨hp, ho⟩ := pump_idle (s := t) (n := n) ht (by rw [hport]; exact hq)
  rw [hrun]
  exact ⟨hp.trans hport, ho.trans hout⟩

/-! What a flit without uncorrectable symbols writes: HURAL_LINK counts symbols only. -/

/-- The registers a flit's checks and its messages write. -/
def flitRegs : List RegName := [.HURAL_STAT, .HURAL_EVT, .HURAL_HOSTILE, .HURAL_ERR]

theorem Act.Writes.flit {a : Act} (h : a.Writes portRegs) : a.Writes flitRegs := h.mono (by decide)

theorem writes_exchangeFails (n : Nat) : (exchangeFails n).Writes flitRegs := fun s => by
  refine ⟨writes_incF (by decide) _ _ _, ?_, (writes_hostileEvent n).flit, trivial⟩
  split
  · exact ⟨writes_setF (by decide) _ _ _, trivial, trivial⟩
  · trivial

theorem writes_msgMalformed (n : Nat) (m : HMsg) (vc flits : Nat) : (msgMalformed n m vc flits).Writes flitRegs :=
  ⟨writes_incF (by decide) _ _ _, trivial, fun _ => (within_when _ _).mpr fun _ => writes_of_changes (changes_sendMsg _) (by decide), (writes_hostileEvent n).flit, trivial⟩

theorem writes_messageWhole (n : Nat) (m : HMsg) (vc : Nat) : (messageWhole n m vc).Writes flitRegs := by
  refine (within_ask _).mpr fun s => ?_
  dsimp only
  generalize (decide (vc = 0) && _) = early
  split
  · exact ⟨writes_incF (by decide) _ _ _, trivial, (writes_hostileEvent n).flit, trivial⟩
  · refine ⟨(within_when _ _).mpr fun _ => trivial, ?_, trivial⟩
    split
    · exact writes_of_changes (changes_deliver _ _) (by decide)
    · exact ⟨trivial, writes_of_changes (changes_sendMsg _) (by decide), trivial⟩

theorem writes_messageFlit (n hdr : Nat) (body : List Byte) : (messageFlit n hdr body).Writes flitRegs := by
  refine (within_ask _).mpr fun s => ?_
  dsimp only
  split
  · refine ⟨?_, ?_, trivial⟩
    · split
      · split
        · trivial
        · exact writes_msgMalformed _ _ _ _
      · trivial
    · split
      · exact ⟨trivial, writes_msgMalformed _ _ _ _, trivial⟩
      · split
        · exact ⟨trivial, writes_messageWhole _ _ _, trivial⟩
        · trivial
  · split
    · split
      · trivial
      · split
        · exact ⟨trivial, writes_msgMalformed _ _ _ _, trivial⟩
        · split
          · exact ⟨trivial, writes_messageWhole _ _ _, trivial⟩
          · trivial
    · exact ⟨trivial, writes_msgMalformed _ _ _ _, trivial⟩

theorem writes_sessionOpens (n : Nat) : (sessionOpens n).Writes flitRegs :=
  ⟨trivial, writes_setF (by decide) _ _ _, fun _ => (within_when _ _).mpr fun _ => writes_setF (by decide) _ _ _, writes_evt (by decide) _ _,
    writes_of_changes (changes_rerouteWaiting _) (by decide), writes_of_changes (changes_pump _) (by decide), trivial⟩

theorem writes_acceptFlit (n hdr : Nat) (body : List Byte) : (acceptFlit n hdr body).Writes flitRegs := by
  refine (within_ask _).mpr fun s => ?_
  refine ⟨trivial, (within_when _ _).mpr fun _ => writes_sessionOpens n,
    (within_when _ _).mpr fun _ => ⟨writes_setF (by decide) _ _ _, writes_setF (by decide) _ _ _, trivial⟩,
    (within_when _ _).mpr fun _ => writes_setF (by decide) _ _ _, (within_when _ _).mpr fun _ => writes_of_changes (changes_rerouteWaiting _) (by decide), ?_,
    writes_of_changes (changes_pump _) (by decide), trivial⟩
  split
  · exact writes_of_changes (changes_controlFlit _ _) (by decide)
  · split
    · trivial
    · exact writes_messageFlit _ _ _

theorem writes_flitTake (n : Nat) (f : List Byte) : (flitTake n f false).Writes flitRegs := by
  have hnak : (sendNak n).Writes flitRegs := writes_of_changes (changes_sendNak n) (by decide)
  refine (within_ask _).mpr fun s => ?_
  simp only [Bool.false_eq_true, if_false]
  generalize (!(sessionUp s n || _)) = deaf
  split
  · trivial
  · split
    · exact ⟨writes_incF (by decide) _ _ _, hnak, (writes_badEvent n).flit, trivial⟩
    · split
      · trivial
      · split
        · exact ⟨writes_incF (by decide) _ _ _, hnak, trivial⟩
        · split
          · exact ⟨writes_incF (by decide) _ _ _, (writes_hostileEvent n).flit, trivial⟩
          · split
            · exact writes_acceptFlit _ _ _
            · split
              · exact writes_exchangeFails n
              · exact ⟨writes_incF (by decide) _ _ _, (writes_hostileEvent n).flit, trivial⟩

/-- The symbols a flit had corrected stay counted. -/
theorem flitReceive_corrected (f : List Byte) (c : Nat) (s : State) :
    getF (run (flitReceive n f c false) s) HURAL_LINK.FECCE n = min (getF s HURAL_LINK.FECCE n + c) (2 ^ 32 - 1) := by
  rw [run_flitReceive, (writes_flitTake n f).getF (by decide), getF_incF_fits (by decide)]
  rfl

/-! Frames, NAK, resends and keepalives (R345, R348, R349). -/

theorem run_frameReceive_hural (hmode : getB s HURAL_CFG.MODE n = false) (h : portState s n = 1 ∨ portState s n = 2) (f : List Byte) :
    run (frameReceive n f) s = run (updPort n fun p => { p with set := none, txKeys := [], rxKeys := [] }) (run (setF HURAL_STAT.STATE 1 n) s) := by
  have hc : (decide (portState s n = 1) || decide (portState s n = 2)) = true := Bool.or_eq_true_iff.mpr (h.imp decide_eq_true decide_eq_true)
  simp only [frameReceive, run_ask, hmode, Bool.not_false, if_true, run_when, hc, run_all_cons, run_all_nil]

theorem run_frameReceive_pause (hmode : getB s HURAL_CFG.MODE n = true) {f : List Byte} (h : beNat (slice f 12 2) = 0x8808) :
    run (frameReceive n f) s = run (incF HURAL_ERR.PAUSEDROP 1 n) s := by
  simp only [frameReceive, run_ask, hmode, Bool.not_true, Bool.false_eq_true, if_false, h, decide_true, Bool.true_or, if_true]

theorem run_frameReceive_fcs (hmode : getB s HURAL_CFG.MODE n = true) {f : List Byte} (h8 : beNat (slice f 12 2) ≠ 0x8808) (h1 : beNat (slice f 12 2) ≠ 0x8100)
    (hfcs : fieldAt f (f.length - 4) 4 ≠ (crc32 (f.take (f.length - 4))).toNat) :
    run (frameReceive n f) s = run (badEvent n) (run (incF HURAL_ERR.CRC 1 n) s) := by
  simp only [frameReceive, run_ask, hmode, Bool.not_true, Bool.false_eq_true, if_false]
  rw [if_neg ?_, if_pos ?_, run_all_cons, run_all_cons, run_all_nil]
  · simp only [decide_eq_true hfcs, Bool.or_true, Bool.true_or]
  · rw [decide_eq_false h8, decide_eq_false h1]
    exact Bool.false_ne_true

theorem resend_spec (n seq : Nat) (s : State) :
    getF (run (resend n seq) s) HURAL_ERR.RETRY n =
        min (getF s HURAL_ERR.RETRY n + ((portSt s n).replay.filter fun r => decide (seq ≤ r.seq)).length) (2 ^ 16 - 1) ∧
      (run (resend n seq) s).mem = s.mem ∧ (portSt (run (resend n seq) s) n).txSeq = (portSt s n).txSeq := by
  simp only [resend, run_ask, run_all_cons, run_all_nil]
  refine ⟨?_, ?_, ?_⟩
  · rw [getF_of_changes (changes_putFlits _ _) (by decide), getF_of_changes (changes_updPort _ _) (by decide), getF_incF_fits (by decide)]; rfl
  · rw [mem_of_changes (changes_putFlits _ _) (by decide), mem_of_changes (changes_updPort _ _) (by decide), incF_mem]
  · rw [portSt_of_changes (changes_putFlits _ _) (by decide), portSt_updPort, portSt_of_changes (changes_incF _ _ _ _) (by decide)]

/-- The number of the oldest NAK that arrived. -/
def nakNumber (s : State) (n : Nat) : Option Nat := (portSt s n).ctl.findSome? fun c => match c with | .nak e => some e | .close _ => none

theorem run_nakTake {e : Nat} (h : nakNumber s n = some e) : ∃ f : PortSt → PortSt, (∀ p, (f p).replay = p.replay) ∧
    run (nakTake n) s = run (pump n) (run (resend n e) (run (updPort n f) s)) := by
  have hmodel : run (nakTake n) s = run (match nakNumber s n with
    | some e => Act.all [updPort n fun p => { p with ctl := p.ctl.erase (.nak e), acked := if p.acked ≤ e && e ≤ p.txSeq then e else p.acked }, resend n e, pump n]
    | none => .skip) s := rfl
  rw [hmodel, h]
  refine ⟨fun p => { p with ctl := p.ctl.erase (.nak e), acked := if p.acked ≤ e && e ≤ p.txSeq then e else p.acked }, fun _ => rfl, ?_⟩
  dsimp only
  rw [run_all_cons, run_all_cons, run_all_cons, run_all_nil]

theorem run_ackTimeout_late {r : RepFlit} (h : ((portSt s n).replay.find? fun r => decide ((portSt s n).acked ≤ r.seq) && decide (r.time + 16000 ≤ s.now)) = some r) :
    run (ackTimeout n) s = run (resend n r.seq) s := by
  simp only [ackTimeout, run_ask, h]

theorem run_ackTimeout_none (h : ((portSt s n).replay.find? fun r => decide ((portSt s n).acked ≤ r.seq) && decide (r.time + 16000 ≤ s.now)) = none) :
    run (ackTimeout n) s = s := by
  simp only [ackTimeout, run_ask, h, run_skip]

theorem putFlits_one_bare (hmode : getB s HURAL_CFG.MODE n = false) (f : List Byte) : run (putFlits n [f]) s = { s with out := .flit n f :: s.out } := by
  rw [putFlits, run_ask, if_neg (Bool.eq_false_iff.mp hmode)]; rfl

theorem putFlits_one_framed (hmode : getB s HURAL_CFG.MODE n = true) (f : List Byte) :
    run (putFlits n [f]) s = { s with out := .ethFrame n (ethFrame s n [f]) :: s.out } := by
  have hgroup : groupsOf (maxFlits s n) [f].length [f] = [[f]] := by
    rw [List.length_singleton, groupsOf, if_neg (by simp), List.take_of_length_le (Nat.le_max_left 1 _)]
    rfl
  rw [putFlits, run_ask, if_pos hmode, hgroup]; rfl

theorem run_keepalive (hup : sessionUp s n = true) (hq : (portSt s n).queue = []) (hrole : getF s SHD_STAT.ROLE ≠ 3) :
    run (keepalive n) s = run (putFlits n [((portSt s n).emit s.now 3 0 [0x01]).2]) (run (updPort n fun _ => ((portSt s n).emit s.now 3 0 [0x01]).1) s) := by
  rw [keepalive, run_given, if_pos ?_, sendControl, run_ask, if_pos (Bool.or_eq_true_iff.mpr (.inl hup)), run_all_cons, run_all_cons, run_all_nil]
  rw [hup, hq, decide_eq_true hrole]
  rfl

theorem run_keepalive_busy (h : sessionUp s n = false ∨ (portSt s n).queue ≠ []) : run (keepalive n) s = s := by
  rw [keepalive, run_given, if_neg fun hc => ?_]
  obtain ⟨hupq, -⟩ := Bool.and_eq_true_iff.mp hc
  obtain ⟨hup, hq⟩ := Bool.and_eq_true_iff.mp hupq
  exact h.elim (fun hf => Bool.false_ne_true (hf.symm.trans hup)) fun hne => hne (List.isEmpty_iff.mp hq)

end

/-! The statement, part by part. -/

theorem flit_spec (s : State) (n : Fin 18) (f : List Byte) (c : Nat) (hup : sessionUp s n = true) :
    (∃ t, exec (.huralFlitReceive n f c true) s = .next t ∧ getF t HURAL_LINK.FECUE n = min (getF s HURAL_LINK.FECUE n + 1) (2 ^ 32 - 1) ∧
      getF t HURAL_LINK.FECCE n = min (getF s HURAL_LINK.FECCE n + c) (2 ^ 32 - 1) ∧ t.mem = s.mem) ∧
    (f.length ≠ 256 ∨ fieldAt f 0xFC 4 ≠ (crc32 (f.take 0xFC)).toNat →
      ∃ t, exec (.huralFlitReceive n f c false) s = .next t ∧ getF t HURAL_ERR.CRC n = min (getF s HURAL_ERR.CRC n + 1) (2 ^ 16 - 1) ∧
        getF t HURAL_LINK.FECCE n = min (getF s HURAL_LINK.FECCE n + c) (2 ^ 32 - 1) ∧ t.mem = s.mem) := by
  have hup' : sessionUp (run (incF HURAL_LINK.FECCE c n) s) n = true := by
    rw [sessionUp, portState, getF_incF_apart (by decide)]; exact hup
  have hnak (g : Fld) (t : State) : getF (run (sendNak n) t) g n = getF t g n := getF_of_changes (changes_sendNak _) (by decide) _ _ _ _
  refine ⟨⟨_, rfl, ?_⟩, fun h => ⟨_, rfl, ?_⟩⟩
  · rw [run_flitReceive, run_flitTake_uncorrectable hup']
    refine ⟨?_, ?_, ?_⟩
    · rw [(writes_badEvent _).getF (by decide), hnak, getF_incF_fits (by decide), getF_incF_apart (by decide)]; rfl
    · rw [(writes_badEvent _).getF (by decide), hnak, getF_incF_apart (by decide), getF_incF_fits (by decide)]; rfl
    · rw [mem_of_changes (changes_badEvent _) (by decide), mem_of_changes (changes_sendNak _) (by decide), incF_mem, incF_mem]
  · have hcrc : flitSound f = false := by
      rw [flitSound, Bool.not_eq_false', Bool.or_eq_true_iff]
      exact h.imp decide_eq_true decide_eq_true
    refine ⟨?_, flitReceive_corrected f c s, ?_⟩
    · rw [run_flitReceive, run_flitTake_crc hup' hcrc, (writes_badEvent _).getF (by decide), hnak, getF_incF_fits (by decide), getF_incF_apart (by decide)]; rfl
    · rw [run_flitReceive, mem_of_changes (changes_flitTake _ _ _) (by decide), incF_mem]

theorem soundFlit_spec (s : State) (n : Fin 18) (f : List Byte) (c : Nat) (hup : sessionUp s n = true) (hlen : f.length = 256)
    (hcrc : fieldAt f 0xFC 4 = (crc32 (f.take 0xFC)).toNat) (d : Nat) (hd : d = flitAhead (portSt s n) f) :
    ∃ t, exec (.huralFlitReceive n f c false) s = .next t ∧ getF t HURAL_LINK.FECCE n = min (getF s HURAL_LINK.FECCE n + c) (2 ^ 32 - 1) ∧
      (2 ^ 16 - 1024 ≤ d → t.hural = s.hural ∧ t.out = s.out) ∧
      (1 ≤ d → d ≤ 1024 → getF t HURAL_ERR.GAP n = min (getF s HURAL_ERR.GAP n + 1) (2 ^ 16 - 1)) ∧
      (1024 < d → d < 2 ^ 16 - 1024 → getF t HURAL_HOSTILE.REPLAY n = min (getF s HURAL_HOSTILE.REPLAY n + 1) (2 ^ 16 - 1)) ∧
      (d = 0 → flitOpened (portSt s n) f = none → getF t HURAL_HOSTILE.AUTH n = min (getF s HURAL_HOSTILE.AUTH n + 1) (2 ^ 16 - 1)) ∧
      (∀ body, d = 0 → flitOpened (portSt s n) f = some body → (portSt s n).set = none → portState s n = 3 → (portSt s n).slow = none → (portSt s n).queue = [] →
        bitsOf (fieldAt f 0 8) 0 2 = 0 →
        (portSt t n).rxSeq = (portSt s n).rxSeq + 1 ∧ (portSt t n).acked = (portSt s n).ack (bitsOf (fieldAt f 0 8) 32 16) ∧ t.out = s.out ∧
        (portSt t n).creditOf (bitsOf (fieldAt f 0 8) 4 2) =
          min (vcBuffer (bitsOf (fieldAt f 0 8) 4 2)) ((portSt s n).creditOf (bitsOf (fieldAt f 0 8) 4 2) + bitsOf (fieldAt f 0 8) 16 16)) := by
  have hsound : flitSound f = true := by
    rw [flitSound, hlen, hcrc]; simp
  have hport : portSt (run (incF HURAL_LINK.FECCE c n) s) n = portSt s n := portSt_of_changes (changes_incF _ _ _ _) (by decide) _ _
  have hstate : portState (run (incF HURAL_LINK.FECCE c n) s) n = portState s n := getF_incF_apart (by decide) _ _ _ _ _ _
  have hup' : sessionUp (run (incF HURAL_LINK.FECCE c n) s) n = true := by
    rw [sessionUp, hstate]; exact hup
  rw [← hport] at hd
  refine ⟨_, rfl, flitReceive_corrected f c s, fun h => ?_, fun h1 h2 => ?_, fun h1 h2 => ?_, fun h0 hnone => ?_, fun body h0 hbody hset h3 hslow hq hkind => ?_⟩
  · rw [run_flitReceive, run_flitTake_behind hup' hsound (hd ▸ h)]
    exact ⟨incF_hural .., incF_out ..⟩
  · rw [run_flitReceive, run_flitTake_gap hup' hsound (hd ▸ h1) (hd ▸ h2), getF_of_changes (changes_sendNak _) (by decide), getF_incF_fits (by decide),
      getF_incF_apart (by decide)]; rfl
  · rw [run_flitReceive, run_flitTake_replay hup' hsound (hd ▸ h1) (hd ▸ h2), (writes_hostileEvent _).getF (by decide), getF_incF_fits (by decide),
      getF_incF_apart (by decide)]; rfl
  · rw [run_flitReceive, flitTake_forged hup' hsound (hd.symm.trans h0) (by rw [hport]; exact hnone), getF_incF_apart (by decide)]
  · obtain ⟨htaken, hout⟩ := acceptFlit_idle (n := n.val) (by rw [hport]; exact hset) (hstate.trans h3) (by rw [hport]; exact hslow) (by rw [hport]; exact hq) hkind body
    rw [run_flitReceive, run_flitTake_expected hup' hsound (hd.symm.trans h0), hport, hbody, Option.elim_some, htaken, hport]
    exact ⟨rfl, rfl, hout.trans (incF_out ..), (Cells.get_put ..).trans (if_pos rfl)⟩

theorem frame_spec (s : State) (n : Fin 18) (f : List Byte) :
    (getB s HURAL_CFG.MODE n = false → portState s n = 1 ∨ portState s n = 2 →
      ∃ t, exec (.ethFrameReceive n f) s = .next t ∧ getF t HURAL_STAT.STATE n = 1 ∧ (portSt t n).set = none ∧ t.mem = s.mem) ∧
    (getB s HURAL_CFG.MODE n = true → beNat (slice f 12 2) = 0x8808 →
      ∃ t, exec (.ethFrameReceive n f) s = .next t ∧ getF t HURAL_ERR.PAUSEDROP n = min (getF s HURAL_ERR.PAUSEDROP n + 1) (2 ^ 16 - 1) ∧ t.hural = s.hural ∧ t.mem = s.mem) ∧
    (getB s HURAL_CFG.MODE n = true → beNat (slice f 12 2) ≠ 0x8808 → beNat (slice f 12 2) ≠ 0x8100 →
      fieldAt f (f.length - 4) 4 ≠ (crc32 (f.take (f.length - 4))).toNat →
      ∃ t, exec (.ethFrameReceive n f) s = .next t ∧ getF t HURAL_ERR.CRC n = min (getF s HURAL_ERR.CRC n + 1) (2 ^ 16 - 1) ∧ t.mem = s.mem) := by
  refine ⟨fun hmode h => ⟨_, rfl, ?_⟩, fun hmode h => ⟨_, rfl, ?_⟩, fun hmode h8 h1 hfcs => ⟨_, rfl, ?_⟩⟩
  · rw [run_frameReceive_hural hmode h]
    refine ⟨?_, ?_, ?_⟩
    · rw [getF_of_changes (changes_updPort _ _) (by decide), getF_setF_fits (by decide)]; rfl
    · rw [portSt_updPort]
    · rw [mem_of_changes (changes_updPort _ _) (by decide), setF_mem]
  · rw [run_frameReceive_pause hmode h]
    exact ⟨getF_incF_fits (by decide) _ _ _ _, incF_hural .., incF_mem ..⟩
  · rw [run_frameReceive_fcs hmode h8 h1 hfcs]
    refine ⟨?_, ?_⟩
    · rw [(writes_badEvent _).getF (by decide), getF_incF_fits (by decide)]; rfl
    · rw [mem_of_changes (changes_badEvent _) (by decide), incF_mem]

theorem resends_spec (s : State) (n : Fin 18) (e : Nat) (h : nakNumber s n = some e) :
    ∃ t, exec (.nak n) s = .next t ∧ t.mem = s.mem ∧
      getF t HURAL_ERR.RETRY n = min (getF s HURAL_ERR.RETRY n + ((portSt s n).replay.filter fun r => decide (e ≤ r.seq)).length) (2 ^ 16 - 1) := by
  obtain ⟨f, hf, hrun⟩ := run_nakTake h
  obtain ⟨hretry, hmem, -⟩ := resend_spec n e (run (updPort n f) s)
  rw [portSt_updPort, hf] at hretry
  refine ⟨_, rfl, ?_⟩
  rw [hrun]
  refine ⟨?_, ?_⟩
  · rw [mem_of_changes (changes_pump _) (by decide), hmem, mem_of_changes (changes_updPort _ _) (by decide)]
  · rw [getF_of_changes (changes_pump _) (by decide), hretry, getF_of_changes (changes_updPort _ _) (by decide)]

theorem keepalive_spec (s : State) (n : Fin 18) :
    (sessionUp s n = true → (portSt s n).queue = [] → getF s SHD_STAT.ROLE ≠ 3 →
      ∃ t f, exec (.keepalive n) s = .next t ∧ (portSt t n).txSeq = (portSt s n).txSeq + 1 ∧ t.regs = s.regs ∧ t.mem = s.mem ∧
        (getB s HURAL_CFG.MODE n = false → t.out = .flit n f :: s.out) ∧ (getB s HURAL_CFG.MODE n = true → t.out = .ethFrame n (ethFrame s n [f]) :: s.out)) ∧
    (sessionUp s n = false ∨ (portSt s n).queue ≠ [] → ∃ t, exec (.keepalive n) s = .next t ∧ t = s) := by
  refine ⟨fun hup hq hrole => ⟨_, ((portSt s n).emit s.now 3 0 [0x01]).2, rfl, ?_⟩, fun h => ⟨_, rfl, run_keepalive_busy h⟩⟩
  rw [run_keepalive hup hq hrole]
  refine ⟨?_, ?_, ?_, fun hmode => ?_, fun hmode => ?_⟩
  · rw [portSt_of_changes (changes_putFlits _ _) (by decide), portSt_updPort]; rfl
  · rw [regs_of_changes (changes_putFlits _ _) (by decide), regs_of_changes (changes_updPort _ _) (by decide)]
  · rw [mem_of_changes (changes_putFlits _ _) (by decide), mem_of_changes (changes_updPort _ _) (by decide)]
  · rw [putFlits_one_bare (s := run (updPort _ _) s) hmode]; rfl
  · rw [putFlits_one_framed (s := run (updPort _ _) s) hmode]; rfl

/-- Settles O39, check by check. -/
theorem huralFlits : Obligations.HuralFlits := by
  unfold Obligations.HuralFlits
  refine ⟨fun s n f c hup hset u => ⟨_, rfl, ?_⟩, fun s n f c hup => ?_, frame_spec, resends_spec, fun s n => ⟨fun r h => ⟨_, rfl, ?_⟩, fun h => ⟨_, rfl, run_ackTimeout_none h⟩⟩,
    keepalive_spec⟩
  · have hup' : sessionUp (run (incF HURAL_LINK.FECCE c n) s) n = false := by
      rw [sessionUp, portState, getF_incF_apart (by decide)]; exact hup
    rw [run_flitReceive, run_flitTake_deaf hup' (by rw [portSt_of_changes (changes_incF _ _ _ _) (by decide)]; exact hset)]
    exact ⟨getF_incF_fits (by decide) _ _ _ _, incF_hural .., incF_mem .., incF_out ..⟩
  · obtain ⟨huncorrectable, hcrc⟩ := flit_spec s n f c hup
    exact ⟨huncorrectable, hcrc, fun hlen hgood d hd => soundFlit_spec s n f c hup hlen hgood d hd⟩
  · obtain ⟨hretry, hmem, htx⟩ := resend_spec n r.seq s
    rw [run_ackTimeout_late h]
    exact ⟨hmem, htx, hretry⟩

end Sys2Proof.Machine

/-! PROOFS. The input pipeline: its ring, customs, work items, decoding, drops, restore and enable (R306 to R317). -/

namespace Sys2Proof.Machine

section
variable {s : State}

theorem cus_of_changes {k : List Part} {a : Act} (h : a.Changes k) (hk : Part.cus ∉ k) (s : State) : (run a s).cus = s.cus := only_cus h.only hk s

/-- A program leaves what a function reads of the pipeline. -/
abbrev Act.KeepsCus {α : Type} (g : CusSt → α) (a : Act) : Prop := a.Within fun p => ∀ s, g (p.apply s).cus = g s.cus

theorem keepsCus_of_changes {α : Type} {g : CusSt → α} {k : List Part} {a : Act} (h : a.Changes k) (hk : Part.cus ∉ k) : a.KeepsCus g :=
  Act.Within.mono (fun p hp s => by
    cases p
    case cus f => exact absurd hp hk
    all_goals rfl) h.only

theorem Act.KeepsCus.run {α : Type} {g : CusSt → α} {a : Act} (h : a.KeepsCus g) (s : State) : g (Machine.run a s).cus = g s.cus :=
  run_same (fun s => g s.cus) h s

/-! Emission (R311, R312). -/

/-- The registers emission writes. -/
def emitRegs : List RegName := [.COH_HOLDSNP, .TILE_SYNC]

theorem writes_emitOne (w : WinEnt) : (emitOne w).Writes emitRegs := fun _ =>
  ⟨writes_pkgWrite (by decide) _ _, trivial, (within_when _ _).mpr fun _ => (within_each _ _).mpr fun _ _ => writes_incF (by decide) _ _ _, trivial⟩

theorem writes_emitLoop (n : Nat) : (emitLoop n).Writes emitRegs := by
  induction n with
  | zero => trivial
  | succ n ih =>
    refine ⟨trivial, (within_ask _).mpr fun s => ?_⟩
    split
    · exact ⟨writes_emitOne _, ih⟩
    · trivial

theorem writes_emitAll : emitAll.Writes emitRegs := fun _ => writes_emitLoop _

theorem keepsSubs_emitOne (w : WinEnt) : (emitOne w).KeepsCus CusSt.subs := fun _ =>
  ⟨keepsCus_of_changes (changes_pkgWrite _ _) (by decide), fun _ => rfl, keepsCus_of_changes (changes_when (changes_each fun _ => changes_incF _ _ _ _)) (by decide), trivial⟩

theorem keepsSubs_emitAll : emitAll.KeepsCus CusSt.subs := by
  refine (within_ask _).mpr fun s => ?_
  induction s.cus.win.length + 1 with
  | zero => exact fun _ => rfl
  | succ n ih =>
    refine ⟨fun _ => rfl, (within_ask _).mpr fun s => ?_⟩
    split
    · exact ⟨keepsSubs_emitOne _, ih⟩
    · trivial

/-! Drops (R314). -/

theorem run_dropSample (x : SubEnt) (why : DropReason) (s : State) : ∃ f, run (dropSample x why) s =
    run emitAll (run (updCus f) (run (logEv .sampleDrop 0xFF 514 [x.index, x.epoch, why.ctorIdx]) (run (evt CUS_EVT.DROP) (run (incF why.count) s)))) ∧
      ∀ c, (f c).subs = c.subs := by
  simp only [dropSample, run_all_cons, run_all_nil]
  exact ⟨_, rfl, fun _ => rfl⟩

/-- What a drop leaves of the registers beside its own count. -/
theorem getF_dropSample {f : Fld} (hf : f.reg ∉ emitRegs) (hevt : CUS_EVT.DROP.apart f = true) (x : SubEnt) (why : DropReason) (s : State) :
    getF (run (dropSample x why) s) f = getF (run (incF why.count) s) f := by
  obtain ⟨g, hrun, -⟩ := run_dropSample x why s
  rw [hrun, writes_emitAll.getF hf, getF_of_changes (changes_updCus _) (by decide)]
  rw [getF_of_changes (changes_logEv _ _ _ _) (by decide), getF_evt_apart hevt]

theorem DropReason.count_reg (why : DropReason) : why.count.reg ∉ emitRegs := by cases why <;> decide

theorem DropReason.apart_count (why : DropReason) : CUS_EVT.DROP.apart why.count = true := by cases why <;> rfl

theorem DropReason.fits_count (why : DropReason) : why.count.fits = true := by cases why <;> rfl

theorem dropSample_count (x : SubEnt) (why : DropReason) (s : State) :
    getF (run (dropSample x why) s) why.count = min (getF s why.count + 1) (2 ^ why.count.width - 1) := by
  rw [getF_dropSample why.count_reg why.apart_count, getF_incF_fits why.fits_count]

theorem dropSample_event (x : SubEnt) (why : DropReason) (s : State) : getF (run (dropSample x why) s) CUS_EVT.DROP = 1 := by
  obtain ⟨g, hrun, -⟩ := run_dropSample x why s
  rw [hrun, writes_emitAll.getF (by decide), getF_of_changes (changes_updCus _) (by decide), getF_of_changes (changes_logEv _ _ _ _) (by decide), getF_evt_fits (by decide)]
  rfl

theorem dropSample_logged (x : SubEnt) (why : DropReason) (s : State) : Safety.Logged .sampleDrop s (run (dropSample x why) s) := by
  obtain ⟨g, hrun, -⟩ := run_dropSample x why s
  have hlog : Safety.Logged .sampleDrop s (run (logEv .sampleDrop 0xFF 514 [x.index, x.epoch, why.ctorIdx]) (run (evt CUS_EVT.DROP) (run (incF why.count) s))) :=
    logged_logEv (by decide) _ _ _ ((evt_tally ..).trans (incF_tally ..))
  rw [hrun]
  refine Logged.congr hlog rfl ?_
  rw [tally_of_changes changes_emitAll (by decide), tally_of_changes (changes_updCus _) (by decide)]

theorem dropSample_subs (x : SubEnt) (why : DropReason) (s : State) : (run (dropSample x why) s).cus.subs = s.cus.subs := by
  obtain ⟨g, hrun, hsubs⟩ := run_dropSample x why s
  rw [hrun, keepsSubs_emitAll.run]
  exact (hsubs _).trans (congrArg CusSt.subs (cus_of_changes (changes_logEv _ _ _ _) (by decide) _))

/-- A run of drops under one reason counts each of them. -/
theorem dropEach_count {α : Type} (f : α → SubEnt) (why : DropReason) (l : List α) (s : State) :
    getF (run (Act.each (fun w => dropSample (f w) why) l) s) why.count = min (getF s why.count + l.length) (2 ^ why.count.width - 1) := by
  induction l generalizing s with
  | nil => exact (Nat.min_eq_left (Nat.le_sub_one_of_lt (bitsOf_lt _ _ _))).symm
  | cons x l ih => rw [run_each_cons, ih, dropSample_count, List.length_cons]; omega

/-! The ring of submissions (R306). -/

theorem ringSize_ge {v : Nat} (h : ringSize v ≠ 0) : 16 ≤ ringSize v := by
  rw [ringSize] at h ⊢
  split at h
  · next hmem =>
    rw [if_pos hmem]
    simp only [List.contains_eq_mem, List.mem_cons, List.not_mem_nil, or_false, decide_eq_true_eq] at hmem
    omega
  · exact absurd rfl h

theorem run_readSubs_drained (n : Nat) (h : getF s CUS_SUBPTR.HEAD = getF s CUS_SUBPTR.TAIL) : run (readSubs n) s = s := by
  cases n with
  | zero => rfl
  | succ n =>
    rw [readSubs, run_ask]
    dsimp only
    rw [decide_eq_true h, Bool.or_true, if_pos rfl, run_skip]

/-- The submission customs makes of the ring entry at the head, where it starts no epoch. -/
def headSub (s : State) : SubEnt :=
  { index := s.cus.nextIndex, epoch := s.cus.epoch, shuffle := s.cus.shuffle, addr := readNat s (getF s CUS_SUBQ.ADDR * 32 + 32 * getF s CUS_SUBPTR.HEAD) 8 }

/-- The pipeline takes a submission in. -/
def CusSt.submit (x : SubEnt) (c : CusSt) : CusSt := { c with epoch := x.epoch, nextIndex := x.index + 1, shuffle := x.shuffle, subs := c.subs ++ [x] }

theorem run_readSubs_entry (n : Nat) (hsize : ringSize (getF s CUS_SUBQ.SIZE) ≠ 0) (hne : getF s CUS_SUBPTR.HEAD ≠ getF s CUS_SUBPTR.TAIL)
    (hlt : getF s CUS_SUBPTR.HEAD < ringSize (getF s CUS_SUBQ.SIZE))
    (hold : bitOf (readNat s (getF s CUS_SUBQ.ADDR * 32 + 32 * getF s CUS_SUBPTR.HEAD + 8) 1) 0 = false) :
    run (readSubs (n + 1)) s = run (readSubs n) (run (updCus (CusSt.submit (headSub s)))
      (run (setF CUS_SUBPTR.HEAD ((getF s CUS_SUBPTR.HEAD + 1) % ringSize (getF s CUS_SUBQ.SIZE))) s)) := by
  rw [readSubs, run_ask]
  dsimp only
  rw [decide_eq_false hsize, decide_eq_false hne, Bool.or_self, if_neg (by decide), Nat.mod_eq_of_lt hlt, hold, run_all_cons, run_all_cons, run_all_cons, run_all_nil]
  rfl

theorem run_customsReads_idle (h : cusWorks s 0 = false) : run customsReads s = s := by rw [customsReads, run_ask, h, Act.when, if_neg (by decide), run_skip]

/-- Customs at a ring whose only entry is the one at its head. -/
theorem run_customsReads_last (hw : cusWorks s 0 = true) (hsize : ringSize (getF s CUS_SUBQ.SIZE) ≠ 0)
    (htail : getF s CUS_SUBPTR.TAIL = (getF s CUS_SUBPTR.HEAD + 1) % ringSize (getF s CUS_SUBQ.SIZE)) (hlt : getF s CUS_SUBPTR.HEAD < ringSize (getF s CUS_SUBQ.SIZE))
    (hold : bitOf (readNat s (getF s CUS_SUBQ.ADDR * 32 + 32 * getF s CUS_SUBPTR.HEAD + 8) 1) 0 = false) :
    run customsReads s = run (updCus (CusSt.submit (headSub s))) (run (setF CUS_SUBPTR.HEAD (getF s CUS_SUBPTR.TAIL)) s) := by
  have hge := ringSize_ge hsize
  obtain ⟨n, hn⟩ : ∃ n, ringSize (getF s CUS_SUBQ.SIZE) = n + 1 := ⟨_, (Nat.succ_pred hsize).symm⟩
  have hmove : getF s CUS_SUBPTR.HEAD ≠ getF s CUS_SUBPTR.TAIL := by
    rw [htail]
    rcases Nat.lt_or_ge (getF s CUS_SUBPTR.HEAD + 1) (ringSize (getF s CUS_SUBQ.SIZE)) with h | h
    · rw [Nat.mod_eq_of_lt h]; omega
    · rw [show getF s CUS_SUBPTR.HEAD + 1 = ringSize (getF s CUS_SUBQ.SIZE) by omega, Nat.mod_self]; omega
  rw [customsReads, run_ask, hw, Act.when, if_pos rfl]
  conv_lhs => rw [hn]
  rw [run_readSubs_entry n hsize hmove hlt hold, ← htail]
  apply run_readSubs_drained
  rw [getF_of_changes (changes_updCus _) (by decide), getF_of_changes (changes_updCus _) (by decide), getF_setF_fits (by decide), getF_setF_apart (by decide)]
  exact Nat.mod_eq_of_lt (bitsOf_lt _ _ _)

theorem cusWorks_setTail (v : Nat) (s : State) : cusWorks (run (setF CUS_SUBPTR.TAIL v) s) 0 = cusWorks s 0 := by
  rw [cusWorks, cusWorks, getB, getB, getF_setF_apart (by decide), setF_cus]

theorem headSub_setTail (v : Nat) (s : State) : headSub (run (setF CUS_SUBPTR.TAIL v) s) = headSub s := by
  rw [headSub, headSub, setF_cus, getF_setF_apart (by decide), getF_setF_apart (by decide), readNat_congr (setF_mem ..) (setF_coh ..)]

theorem cusTail_idle (v : BitVec 32) (hw : cusWorks s 0 = false) : let t := run (cusTail v.toNat) s
    getF t CUS_SUBPTR.TAIL = v.toNat ∧ getF t CUS_SUBPTR.HEAD = getF s CUS_SUBPTR.HEAD ∧ t.cus = s.cus ∧ t.mem = s.mem := by
  dsimp only
  rw [cusTail, run_seq, run_customsReads_idle ((cusWorks_setTail ..).trans hw), getF_setF_fits (by decide), getF_setF_apart (by decide), setF_cus, setF_mem]
  exact ⟨Nat.mod_eq_of_lt v.isLt, rfl, rfl, rfl⟩

theorem cusTail_entry (v : BitVec 32) (hw : cusWorks s 0 = true) (hsize : ringSize (getF s CUS_SUBQ.SIZE) ≠ 0)
    (hv : v.toNat = (getF s CUS_SUBPTR.HEAD + 1) % ringSize (getF s CUS_SUBQ.SIZE)) (hlt : getF s CUS_SUBPTR.HEAD < ringSize (getF s CUS_SUBQ.SIZE))
    (hold : bitOf (readNat s (getF s CUS_SUBQ.ADDR * 32 + 32 * getF s CUS_SUBPTR.HEAD + 8) 1) 0 = false) : let t := run (cusTail v.toNat) s
    getF t CUS_SUBPTR.TAIL = v.toNat ∧ getF t CUS_SUBPTR.HEAD = v.toNat ∧ t.mem = s.mem ∧ t.cus = CusSt.submit (headSub s) s.cus := by
  have htail : getF (run (setF CUS_SUBPTR.TAIL v.toNat) s) CUS_SUBPTR.TAIL = v.toNat := (getF_setF_fits (by decide) ..).trans (Nat.mod_eq_of_lt v.isLt)
  have hhead : getF (run (setF CUS_SUBPTR.TAIL v.toNat) s) CUS_SUBPTR.HEAD = getF s CUS_SUBPTR.HEAD := getF_setF_apart (by decide) ..
  have hsz : getF (run (setF CUS_SUBPTR.TAIL v.toNat) s) CUS_SUBQ.SIZE = getF s CUS_SUBQ.SIZE := getF_setF_apart (by decide) ..
  have haddr : getF (run (setF CUS_SUBPTR.TAIL v.toNat) s) CUS_SUBQ.ADDR = getF s CUS_SUBQ.ADDR := getF_setF_apart (by decide) ..
  dsimp only
  rw [cusTail, run_seq, run_customsReads_last ((cusWorks_setTail ..).trans hw) (by rw [hsz]; exact hsize) (by rw [htail, hhead, hsz]; exact hv)
    (by rw [hhead, hsz]; exact hlt) (by rw [haddr, hhead, readNat_congr (setF_mem ..) (setF_coh ..)]; exact hold), headSub_setTail, htail]
  refine ⟨?_, ?_, ?_, ?_⟩
  · rw [getF_of_changes (changes_updCus _) (by decide), getF_setF_apart (by decide), htail]
  · rw [getF_of_changes (changes_updCus _) (by decide), getF_setF_fits (by decide)]; exact Nat.mod_eq_of_lt v.isLt
  · rw [mem_of_changes (changes_updCus _) (by decide), setF_mem, setF_mem]
  · exact congrArg (CusSt.submit (headSub s)) ((setF_cus ..).trans (setF_cus ..))

/-! Customs (R307, R309 to R311). -/

/-- The window entry a bale that passed takes. -/
def entryOf (x : SubEnt) (h : Desc) (s : State) : WinEnt :=
  { sub := x, hdr := h, bytes := baleBytes h, tide := getF s TIDE_COUNT.COUNT, slot := freeEntry s,
    st := if baleType h = 0 then .done else if baleType h = 1 then .decoding else .host,
    data := if baleType h = 0 then readMem s (x.addr + 64) (baleBytes h) else [] }

theorem entryOf_state (x : SubEnt) (h : Desc) (s : State) :
    (baleType h = 0 → (entryOf x h s).st = .done ∧ (entryOf x h s).data = readMem s (x.addr + 64) (baleBytes h)) ∧
    (baleType h = 1 → (entryOf x h s).st = .decoding) ∧ (baleType h = 2 → (entryOf x h s).st = .host) :=
  ⟨fun h0 => ⟨if_pos h0, if_pos h0⟩, fun h1 => (if_neg (by omega)).trans (if_pos h1), fun h2 => (if_neg (by omega)).trans (if_neg (by omega))⟩

theorem cusReadable_updCus (f : CusSt → CusSt) (s : State) (a n : Nat) : cusReadable (run (updCus f) s) a n = cusReadable s a n := (rfl)

/-- The oldest submission leaves the pipeline's list. -/
def CusSt.takeSub (c : CusSt) : CusSt := { c with subs := c.subs.drop 1 }

/-- A sample enters the window. -/
def CusSt.enter (w : WinEnt) (c : CusSt) : CusSt := { c with win := c.win ++ [w] }

theorem run_takeIn {x : SubEnt} {h : Desc} (hr : baleType h = 0 → cusReadable s (x.addr + 64) (baleBytes h) = true) :
    run (takeIn x h) s = run emitAll (run (updCus (CusSt.enter (entryOf x h s))) s) := by
  rw [takeIn, run_ask]
  have hcond : ¬ (decide (baleType h = 0) && !cusReadable s (x.addr + 64) (baleBytes h)) = true := by
    by_cases h0 : baleType h = 0
    · simp [hr h0]
    · simp [h0]
  rw [if_neg hcond, run_seq]
  rfl

theorem customsCheck_read {m : State} (hm : m = run customsReads s) {x : SubEnt} {l : List SubEnt} (hsubs : m.cus.subs = x :: l) (hw : cusWorks m 0 = true)
    (hread : cusReadable m x.addr 64 = true) :
    run customsCheck s =
      if balePasses m (descOf (readMem m x.addr 64)) = false then run (dropSample x .customs) (run (updCus CusSt.takeSub) m)
      else if m.cus.win.length < getF m CUS_CFG.WINDOW then run (takeIn x (descOf (readMem m x.addr 64))) (run (updCus CusSt.takeSub) m)
      else m := by
  rw [customsCheck, run_seq, ← hm, run_ask, hsubs]
  dsimp only
  rw [hw, hread, if_neg (by decide), if_neg (by decide)]
  cases balePasses m (descOf (readMem m x.addr 64)) with
  | false => rw [if_pos (by decide), if_pos rfl, run_seq]; rfl
  | true =>
    rw [if_neg (by decide), if_neg (by decide : ¬ true = false)]
    by_cases hroom : m.cus.win.length < getF m CUS_CFG.WINDOW
    · rw [if_pos hroom, if_pos hroom, run_seq]; rfl
    · rw [if_neg hroom, if_neg hroom, run_skip]

theorem customsCheck_spec {m : State} (hm : m = run customsReads s) {x : SubEnt} {l : List SubEnt} (hsubs : m.cus.subs = x :: l) (hw : cusWorks m 0 = true)
    (hread : cusReadable m x.addr 64 = true) :
    (balePasses m (descOf (readMem m x.addr 64)) = false → let t := run customsCheck s
      t.cus.subs = l ∧ getF t CUS_DROP.REJECT = min (getF m CUS_DROP.REJECT + 1) (2 ^ 16 - 1) ∧ getF t CUS_EVT.DROP = 1 ∧ Safety.Logged .sampleDrop m t) ∧
    (balePasses m (descOf (readMem m x.addr 64)) = true → getF m CUS_CFG.WINDOW ≤ m.cus.win.length → run customsCheck s = m) ∧
    (balePasses m (descOf (readMem m x.addr 64)) = true → m.cus.win.length < getF m CUS_CFG.WINDOW →
      (baleType (descOf (readMem m x.addr 64)) = 0 → cusReadable m (x.addr + 64) (baleBytes (descOf (readMem m x.addr 64))) = true) →
      ∃ u w, run customsCheck s = run emitAll u ∧ u.cus.subs = l ∧ u.cus.win = m.cus.win ++ [w] ∧ w = entryOf x (descOf (readMem m x.addr 64)) m ∧
        u.regs = m.regs ∧ u.mem = m.mem) := by
  have hl : (run (updCus CusSt.takeSub) m).cus.subs = l := congrArg (List.drop 1) hsubs
  refine ⟨fun hbad => ?_, fun hok hfull => ?_, fun hok hroom hpay => ?_⟩
  · dsimp only
    rw [customsCheck_read hm hsubs hw hread, if_pos hbad]
    have hcount := dropSample_count x .customs (run (updCus CusSt.takeSub) m)
    rw [getF_of_changes (changes_updCus _) (by decide)] at hcount
    exact ⟨(dropSample_subs ..).trans hl, hcount, dropSample_event .., Logged.congr (dropSample_logged x .customs _) (tally_of_changes (changes_updCus _) (by decide) _ _).symm rfl⟩
  · rw [customsCheck_read hm hsubs hw hread, hok, if_neg (by decide), if_neg (Nat.not_lt.mpr hfull)]
  · rw [customsCheck_read hm hsubs hw hread, hok, if_neg (by decide), if_pos hroom, run_takeIn (by rw [cusReadable_updCus]; exact hpay)]
    exact ⟨_, _, rfl, hl, rfl, rfl, rfl, rfl⟩

/-! RUN items (R308). -/

theorem items_with (c : CusSt) (u : Fin 2) (l : List Desc) (r : Option Desc) : (c.with u l r).items u = l := by
  obtain rfl | rfl : u = 0 ∨ u = 1 := by omega
  · rfl
  · rfl

theorem running_with (c : CusSt) (u : Fin 2) (l : List Desc) (r : Option Desc) : (c.with u l r).running u = r := by
  obtain rfl | rfl : u = 0 ∨ u = 1 := by omega
  · rfl
  · rfl

theorem runStart_spec {u : Fin 2} {d : Desc} {l : List Desc} (hi : s.cus.items u = d :: l) (hr : s.cus.running u = none) : let t := run (runStart u) s
    t.cus.items u = l ∧ (dOpcode d = 0xD0 → t.cus.running u = some d) ∧
      (dOpcode d ≠ 0xD0 → t.cus.running u = none ∧ getF t CUS_EVT.BADITEM = 1 ∧ Safety.Logged .badItem s t) := by
  dsimp only
  rw [runStart, run_ask, hi, hr]
  dsimp only
  have hrest : ((run (traceItem (514 + u) 1 d) s).cus.items u).drop 1 = l := by rw [traceItem_cus, hi]; rfl
  split
  · next hop =>
    rw [run_all_cons, run_all_cons, run_all_nil]
    exact ⟨(items_with ..).trans hrest, fun _ => running_with .., fun h => absurd hop h⟩
  · next hop =>
    simp only [run_all_cons, run_all_nil]
    generalize hr1 : run (traceItem (514 + u) 1 d) s = r at hrest
    have htally : Safety.tally r .badItem = Safety.tally s .badItem := by rw [← hr1, traceItem_tally]
    have hlog : Safety.Logged .badItem s (run (logEv .badItem 0xFF (514 + u)) (run (evt CUS_EVT.BADITEM) (run (updCus fun c => c.with u ((c.items u).drop 1) none) r))) :=
      logged_logEv (by decide) _ _ _ ((evt_tally ..).trans ((tally_of_changes (changes_updCus _) (by decide) _ _).trans htally))
    rw [traceItem_cus, cus_of_changes (changes_logEv _ _ _ _) (by decide), traceItem_getF _ _ _ _ _ _ _ (by decide), getF_of_changes (changes_logEv _ _ _ _) (by decide), getF_evt_fits (by decide)]
    exact ⟨(items_with ..).trans hrest, fun h => absurd h hop, fun _ => ⟨running_with .., rfl, Logged.congr hlog rfl (traceItem_tally ..)⟩⟩

theorem runComplete_spec {u : Fin 2} {d : Desc} (hr : s.cus.running u = some d) : let t := run (runComplete u) s
    t.cus.running u = none ∧ t.cus.items u = s.cus.items u := by
  dsimp only
  rw [runComplete, run_ask, hr]
  dsimp only
  rw [run_all_cons, run_all_cons, run_all_nil, traceItem_cus]
  exact ⟨running_with .., items_with ..⟩

/-! Decoding, host completions and deadlines (R309, R310, R313). -/

/-- The entries of a window with a sample's state and data changed. -/
def CusSt.finish (w : WinEnt) (data : List Byte) (c : CusSt) : CusSt :=
  { c with win := c.win.map fun x => if x.sub = w.sub then { x with st := .done, data := data } else x }

theorem finish_win (w : WinEnt) (data : List Byte) (s : State) : (run (updCus (CusSt.finish w data)) s).cus.win =
    s.cus.win.map fun x => if x.sub = w.sub then { x with st := .done, data := data } else x := (rfl)

theorem run_sampleDone (w : WinEnt) (data : List Byte) (s : State) : run (sampleDone w data) s = run emitAll (run (updCus (CusSt.finish w data)) s) := by
  rw [sampleDone, run_seq]; rfl

/-- The sample of an index that one of the sixteen decoders has in hand. -/
def inDecoder (s : State) (k : Nat) : Option WinEnt := ((s.cus.win.filter fun w => w.st = .decoding).take 16).find? fun w => w.sub.index = k

theorem run_decodeComplete {k : Nat} {w : WinEnt} (hw : inDecoder s k = some w) (hworks : cusWorks s 1 = true) (r : Option (List Byte)) :
    run (decodeComplete k r) s =
      if pastDeadline s w = true then run (dropSample w.sub .deadline) s
      else if cusReadable s (w.sub.addr + 64) (balePaylen w.hdr) = false then run (dropSample w.sub .fault) s
      else match r with
        | none => run (dropSample w.sub .corrupt) s
        | some d => if jpegAgrees s w = true ∧ d.length = w.bytes then run (sampleDone w (decoderOut s w d)) s else run (dropSample w.sub .corrupt) s := by
  rw [decodeComplete, run_ask, show ((s.cus.win.filter fun w => w.st = .decoding).take 16).find? (fun w => w.sub.index = k) = some w from hw]
  dsimp only
  rw [hworks, if_neg (by decide)]
  split
  · rfl
  · cases cusReadable s (w.sub.addr + 64) (balePaylen w.hdr) with
    | false => rw [if_pos (by decide), if_pos rfl]
    | true =>
      rw [if_neg (by decide), if_neg (by decide)]
      cases r with
      | none => rfl
      | some d =>
        simp only [Bool.and_eq_true, decide_eq_true_eq]
        split
        · rfl
        · rfl

theorem decodeComplete_spec {k : Nat} {w : WinEnt} (hw : inDecoder s k = some w) (hworks : cusWorks s 1 = true) (r : Option (List Byte)) :
    let t := run (decodeComplete k r) s
    (pastDeadline s w = true → getF t CUS_DROP.DEADLINE = min (getF s CUS_DROP.DEADLINE + 1) (2 ^ 16 - 1) ∧ Safety.Logged .sampleDrop s t) ∧
    (pastDeadline s w = false → cusReadable s (w.sub.addr + 64) (balePaylen w.hdr) = true →
      (r = none → getF t CUS_DROP.CORRUPT = min (getF s CUS_DROP.CORRUPT + 1) (2 ^ 16 - 1) ∧ Safety.Logged .sampleDrop s t) ∧
      (∀ d, r = some d → (jpegAgrees s w = false ∨ d.length ≠ w.bytes) →
        getF t CUS_DROP.CORRUPT = min (getF s CUS_DROP.CORRUPT + 1) (2 ^ 16 - 1) ∧ Safety.Logged .sampleDrop s t) ∧
      (∀ d, r = some d → jpegAgrees s w = true → d.length = w.bytes → t = run emitAll (run (updCus (CusSt.finish w (decoderOut s w d))) s))) := by
  dsimp only
  rw [run_decodeComplete hw hworks]
  refine ⟨fun hlate => ?_, fun htime hread => ?_⟩
  · rw [if_pos hlate]
    exact ⟨dropSample_count w.sub .deadline s, dropSample_logged ..⟩
  · rw [htime, hread, if_neg (by decide), if_neg (by decide)]
    refine ⟨?_, ?_, ?_⟩
    · rintro rfl
      exact ⟨dropSample_count w.sub .corrupt s, dropSample_logged ..⟩
    · rintro d rfl hbad
      dsimp only
      rw [if_neg (by rintro ⟨ha, hb⟩; rcases hbad with h | h; exacts [absurd (ha.symm.trans h) (by decide), h hb])]
      exact ⟨dropSample_count w.sub .corrupt s, dropSample_logged ..⟩
    · rintro d rfl hag hlen
      dsimp only
      rw [if_pos ⟨hag, hlen⟩, run_sampleDone]

/-- The waiting sample a host completion names. -/
def awaitsHost (s : State) (k : Nat) : Option WinEnt := s.cus.win.find? fun w => w.st = .host && decide (w.sub.index = k) && !pastDeadline s w

theorem run_hostDone_late {k : Nat} (h : awaitsHost s k = none) : run (hostDone k) s = run (incF CUS_DROP.LATEHOST) s := by
  rw [hostDone, run_ask, show s.cus.win.find? (fun w => w.st = .host && decide (w.sub.index = k) && !pastDeadline s w) = none from h]

theorem run_hostDone_some {k : Nat} {w : WinEnt} (h : awaitsHost s k = some w)
    (hread : cusReadable s (getF s CUS_HOSTSTAGE.ADDR * 64 + w.slot * slotBytes s + 64) w.bytes = true) :
    run (hostDone k) s = run emitAll (run (updCus (CusSt.finish w (readMem s (getF s CUS_HOSTSTAGE.ADDR * 64 + w.slot * slotBytes s + 64) w.bytes))) s) := by
  rw [hostDone, run_ask, show s.cus.win.find? (fun w => w.st = .host && decide (w.sub.index = k) && !pastDeadline s w) = some w from h]
  dsimp only
  rw [if_pos hread, run_sampleDone]

theorem deadlineDrop_count (s : State) : getF (run deadlineDrop s) CUS_DROP.DEADLINE =
    min (getF s CUS_DROP.DEADLINE + (s.cus.win.filter fun w => decide (w.st ≠ .done) && pastDeadline s w).length) (2 ^ 16 - 1) := by
  rw [deadlineDrop, run_ask]
  exact dropEach_count WinEnt.sub .deadline _ s

/-! Restore and enable (R308, R311, R317). -/

/-- The pipeline's partition holds a plan. -/
def cusHolds (s : State) : Bool := match cusPart? s with | some p => holdsPlan s p | none => false

theorem run_cusRestore_held (h : cusHolds s = true) : run cusRestore s = run (logEv .restoreIgnored 0xFF 514) s := by
  rw [cusRestore, run_ask]
  exact congrArg (fun a => run a s) (if_pos h)

/-- The batch record the manifest holds. -/
def manifestRecord (s : State) : Batch :=
  { epoch := readNat s (manifestAddr s) 8, shuffle := BitVec.ofNat 64 (readNat s (manifestAddr s + 8) 8), next := readNat s (manifestAddr s + 16) 8,
    drops := readNat s (manifestAddr s + 24) 8, digest := readMem s (manifestAddr s + 32) 32 }

/-- The pipeline takes its position from a record. -/
def CusSt.restored (r : Batch) (c : CusSt) : CusSt :=
  { c with subs := [], win := [], held := [], fill := 0, batches := [], record := r, epoch := r.epoch, shuffle := r.shuffle, nextIndex := r.next }

theorem run_cusRestore_free (h : cusHolds s = false) : run cusRestore s =
    run (updCus (CusSt.restored (manifestRecord s))) (run (setF CUS_SUBPTR.TAIL 0) (run (setF CUS_SUBPTR.HEAD 0) (run (setF CUS_STAT.CUR 0) s))) := by
  have hmodel : run cusRestore s =
      run (Act.all [setF CUS_STAT.CUR 0, setF CUS_SUBPTR.HEAD 0, setF CUS_SUBPTR.TAIL 0, updCus (CusSt.restored (manifestRecord s))]) s := by
    rw [cusRestore, run_ask]
    exact congrArg (fun a => run a s) (if_neg fun hc => absurd (hc.symm.trans h) (by decide))
  rw [hmodel, run_all_cons, run_all_cons, run_all_cons, run_all_cons, run_all_nil]

theorem cusRestore_free (h : cusHolds s = false) : let t := run cusRestore s
    getF t CUS_STAT.CUR = 0 ∧ getF t CUS_SUBPTR.HEAD = 0 ∧ getF t CUS_SUBPTR.TAIL = 0 ∧ t.cus = CusSt.restored (manifestRecord s) s.cus ∧ t.mem = s.mem := by
  dsimp only
  rw [run_cusRestore_free h, getF_of_changes (changes_updCus _) (by decide), getF_of_changes (changes_updCus _) (by decide), getF_of_changes (changes_updCus _) (by decide)]
  refine ⟨?_, ?_, ?_, ?_, ?_⟩
  · rw [getF_setF_apart (by decide), getF_setF_apart (by decide), getF_setF_fits (by decide)]; rfl
  · rw [getF_setF_apart (by decide), getF_setF_fits (by decide)]; rfl
  · rw [getF_setF_fits (by decide)]; rfl
  · exact congrArg (CusSt.restored (manifestRecord s)) ((setF_cus ..).trans ((setF_cus ..).trans (setF_cus ..)))
  · rw [mem_of_changes (changes_updCus _) (by decide), setF_mem, setF_mem, setF_mem]

theorem run_cusEnable (s : State) : run cusEnable s =
    if (partOfUnit s 515 = none ∨ partOfUnit s 515 = cusPart? s) ∧ chartF s 0xE 0x28 8 + 64 ≤ slotBytes s then run (setF CUS_CFG.EN 1) s else run (evt CUS_EVT.CFGERR) s := by
  rw [cusEnable, run_ask]
  simp only [Bool.and_eq_true, Bool.or_eq_true, Option.isNone_iff_eq_none, decide_eq_true_eq]
  split
  · rfl
  · rfl

end

/-- Settles O35: every command of the pipeline rests on the lemma of its program; a drop's emission touches neither the drop counts nor the log. -/
theorem inputPipeline : Obligations.InputPipeline := by
  unfold Obligations.InputPipeline
  refine ⟨fun s v => ?_, fun s m x l hm hsubs hw hread => ?_, fun s u d l hi hr => ?_, fun s u d hr => ?_, fun s k r w hw hworks => ?_, fun s v => ⟨fun h => ?_, fun w h hread => ?_⟩,
    fun s => ⟨_, rfl, deadlineDrop_count s⟩, fun s => ⟨fun h => ?_, fun h => ?_⟩, fun s => ⟨fun hp hs => ?_, fun h => ?_⟩⟩
  · refine ⟨fun hw => ⟨_, rfl, cusTail_idle v hw⟩, fun hw hsize hv hlt hold => ?_⟩
    obtain ⟨htail, hhead, hmem, hcus⟩ := cusTail_entry v hw hsize hv hlt hold
    refine ⟨_, rfl, htail, hhead, hmem, ?_⟩
    rw [hcus]
    exact ⟨rfl, rfl, rfl⟩
  · obtain ⟨hbad, hfull, hroom⟩ := customsCheck_spec hm hsubs hw hread
    refine ⟨fun h => ⟨_, rfl, hbad h⟩, fun h hn => ⟨_, rfl, hfull h hn⟩, fun h hn hpay => ?_⟩
    obtain ⟨u, w, hrun, hl, hwin, hwdef, hregs, hmem⟩ := hroom h hn hpay
    subst hwdef
    obtain ⟨hraw, hjpeg, hhost⟩ := entryOf_state x (descOf (readMem m x.addr 64)) m
    exact ⟨_, u, _, rfl, hrun, hl, hwin, rfl, rfl, rfl, rfl, hraw, hjpeg, hhost, hregs, hmem⟩
  · exact ⟨_, rfl, runStart_spec hi hr⟩
  · exact ⟨_, rfl, runComplete_spec hr⟩
  · obtain ⟨hlate, htime⟩ := decodeComplete_spec hw hworks r
    refine ⟨fun h => ⟨_, rfl, hlate h⟩, fun h hread => ?_⟩
    obtain ⟨hnone, hbad, hgood⟩ := htime h hread
    exact ⟨fun hr => ⟨_, rfl, hnone hr⟩, fun d hr hb => ⟨_, rfl, hbad d hr hb⟩, fun d hr ha hlen => ⟨_, _, rfl, hgood d hr ha hlen, regs_of_changes (changes_updCus _) (by decide) s, mem_of_changes (changes_updCus _) (by decide) s, finish_win ..⟩⟩
  · refine ⟨_, rfl, ?_⟩
    rw [run_hostDone_late h]
    exact ⟨getF_incF_fits (by decide) .., cus_of_changes (changes_incF _ _ _ _) (by decide) s, incF_mem ..⟩
  · exact ⟨_, _, rfl, run_hostDone_some h hread, regs_of_changes (changes_updCus _) (by decide) s, mem_of_changes (changes_updCus _) (by decide) s, finish_win ..⟩
  · refine ⟨_, rfl, ?_⟩
    rw [run_cusRestore_held h]
    exact ⟨regs_of_changes (changes_logEv _ _ _ _) (by decide) s, cus_of_changes (changes_logEv _ _ _ _) (by decide) s, mem_of_changes (changes_logEv _ _ _ _) (by decide) s,
      logged_logEv (by decide) _ _ _ rfl⟩
  · obtain ⟨hcur, hhead, htail, hcus, hmem⟩ := cusRestore_free h
    refine ⟨_, rfl, hcur, hhead, htail, ?_⟩
    rw [hcus]
    exact ⟨rfl, rfl, rfl, rfl, rfl, rfl, hmem⟩
  · refine ⟨_, rfl, ?_⟩
    rw [run_cusEnable, if_pos ⟨hp, hs⟩]
    exact ⟨(getF_setF_fits (by decide) ..).trans rfl, setF_cus .., setF_mem ..⟩
  · have hno : ¬ ((partOfUnit s 515 = none ∨ partOfUnit s 515 = cusPart? s) ∧ chartF s 0xE 0x28 8 + 64 ≤ slotBytes s) := by
      rintro ⟨hp, hs⟩
      rcases h with ⟨h1, h2⟩ | h
      · exact hp.elim h1 h2
      · omega
    refine ⟨_, rfl, ?_⟩
    rw [run_cusEnable, if_neg hno]
    exact ⟨(getF_evt_fits (by decide) ..).trans rfl, getF_evt_apart (by decide) .., evt_cus .., evt_mem ..⟩

end Sys2Proof.Machine

/-! PROOFS. Commands of a queue: how one starts, NOP and malformed entries, PUT (R292, R294, R301). -/

namespace Sys2Proof.Machine

section
variable {s : State} {q : Nat} {c : BCmd}

/-- A state with other queues. -/
def withBell (s : State) (b : FMap BellQ) : State := { s with bell := b }

/-- A program that changes the queues alone. -/
theorem run_of_bell {a : Act} (h : a.Changes [.bell]) (s : State) : run a s = withBell s (run a s).bell := by
  have hrest : withBell (run a s) [] = withBell s [] := run_same (fun s => withBell s []) (Act.Within.mono (fun p hp s => by
    cases p
    case bell f => rfl
    all_goals cases List.mem_singleton.mp hp) h.only) s
  have hself : run a s = withBell (withBell (run a s) []) (run a s).bell := rfl
  rw [hrest] at hself
  exact hself

/-! The arbitration (R292). -/

theorem mem_cmds_of_nextStart (h : nextStart s q = some c) : c ∈ (bellQ s q).cmds := by
  rw [nextStart] at h
  split at h
  · rw [nextReady] at h
    split at h
    · next c' hfind =>
      split at h
      · exact absurd h (by simp)
      · exact Option.some.inj h ▸ List.mem_of_find?_eq_some hfind
    · exact absurd h (by simp)
  · exact absurd h (by simp)

/-- A new round clears what the queues have started; a queue with commands stays. -/
theorem get_newRound {m : FMap BellQ} (h : (Cells.get ({} : BellQ) m q).cmds ≠ []) :
    Cells.get ({} : BellQ) ((m.map fun e => (e.1, { e.2 with served := 0 })).filter fun e => e.2 ≠ {}) q = { Cells.get ({} : BellQ) m q with served := 0 } := by
  induction m with
  | nil => exact absurd rfl h
  | cons e m ih =>
    obtain ⟨k, x⟩ := e
    rw [List.map_cons, List.filter_cons]
    by_cases hk : q = k
    · have hget : Cells.get ({} : BellQ) ((k, x) :: m) q = x := if_pos hk
      rw [hget] at h ⊢
      have hne : ({ x with served := 0 } : BellQ) ≠ {} := fun he => h (congrArg BellQ.cmds he)
      rw [if_pos (decide_eq_true hne)]
      exact if_pos hk
    · have hget : Cells.get ({} : BellQ) ((k, x) :: m) q = Cells.get {} m q := if_neg hk
      rw [hget] at h ⊢
      split
      · exact (if_neg hk).trans (ih h)
      · exact ih h

theorem countStart_spec (h : nextStart s q = some c) :
    ∃ b n, run (countStart q) s = withBell s b ∧ bellQ (withBell s b) q = { bellQ s q with served := n } := by
  have hcmds : (bellQ s q).cmds ≠ [] := List.ne_nil_of_mem (mem_cmds_of_nextStart h)
  have hrun := run_of_bell (changes_countStart q) s
  have hq : ∃ n, bellQ (run (countStart q) s) q = { bellQ s q with served := n } := by
    rw [countStart, run_ask, run_seq, bellQ_updBell_same, run_when]
    split
    · exact ⟨_, congrArg (fun x : BellQ => { x with served := x.served + 1 }) (get_newRound hcmds)⟩
    · exact ⟨_, rfl⟩
  obtain ⟨n, hn⟩ := hq
  exact ⟨_, n, hrun, hrun ▸ hn⟩

theorem run_cmdStart {op : Nat} (f : BCmd → Act) (h : nextStart s q = some c) (hop : eOpcode c.entry = op ∨ op = 0 ∧ 3 < eOpcode c.entry) :
    run (cmdStart q op f) s = run (if malformed c.entry then cmdEnds q c 0x02 0 0 else f c) (run (countStart q) s) := by
  have hcond : (decide (eOpcode c.entry = op) || (decide (op = 0) && decide (3 < eOpcode c.entry))) = true := by simpa using hop
  rw [cmdStart, run_ask, h]
  dsimp only
  rw [if_pos hcond, run_seq]

theorem run_cmdStart_good {op : Nat} (f : BCmd → Act) (h : nextStart s q = some c) (hop : eOpcode c.entry = op) (hm : malformed c.entry = false) :
    ∃ b n, run (cmdStart q op f) s = run (f c) (withBell s b) ∧ bellQ (withBell s b) q = { bellQ s q with served := n } := by
  obtain ⟨b, n, hrun, hq⟩ := countStart_spec h
  exact ⟨b, n, by rw [run_cmdStart f h (.inl hop), hm, if_neg (by decide), hrun], hq⟩

theorem cmdEnds_spec (c : BCmd) (status result detail : Nat) (s : State) : let t := run (cmdEnds q c status result detail) s
    bellQ t q = (bellQ s q).finish c status result detail ∧ t.regs = s.regs ∧ t.mem = s.mem ∧ t.out = s.out :=
  ⟨bellQ_updBell_same .., regs_of_changes (changes_cmdEnds _ _ _ _ _) (by decide) s, mem_of_changes (changes_cmdEnds _ _ _ _ _) (by decide) s,
    only_out (changes_cmdEnds _ _ _ _ _).only (by decide) s⟩

/-- A command that starts and ends at once. -/
theorem started_cmdEnds (h : nextStart s q = some c) (status result detail : Nat) :
    ∃ t n, run (cmdEnds q c status result detail) (run (countStart q) s) = t ∧ bellQ t q = ({ bellQ s q with served := n } : BellQ).finish c status result detail ∧
      t.regs = s.regs ∧ t.mem = s.mem ∧ t.out = s.out := by
  obtain ⟨b, n, hrun, hq⟩ := countStart_spec h
  obtain ⟨hend, hregs, hmem, hout⟩ := cmdEnds_spec (q := q) c status result detail (withBell s b)
  rw [hrun]
  exact ⟨_, n, rfl, hend.trans (by rw [hq]), hregs, hmem, hout⟩

theorem cmdStart_malformed {op : Nat} (f : BCmd → Act) (h : nextStart s q = some c) (hop : eOpcode c.entry = op ∨ op = 0 ∧ 3 < eOpcode c.entry)
    (hm : malformed c.entry = true) : ∃ t n, run (cmdStart q op f) s = t ∧ bellQ t q = ({ bellQ s q with served := n } : BellQ).finish c 2 0 0 ∧
      t.regs = s.regs ∧ t.mem = s.mem := by
  obtain ⟨t, n, hrun, hq, hregs, hmem, -⟩ := started_cmdEnds h 2 0 0
  exact ⟨t, n, by rw [run_cmdStart f h hop, hm, if_pos rfl, hrun], hq, hregs, hmem⟩

theorem cmdNop_good (h : nextStart s q = some c) (hm : malformed c.entry = false) (hop : eOpcode c.entry = 0) :
    ∃ t n, run (cmdNop q) s = t ∧ bellQ t q = ({ bellQ s q with served := n } : BellQ).finish c 0 0 0 ∧ t.regs = s.regs ∧ t.mem = s.mem ∧ t.out = s.out := by
  obtain ⟨t, n, hrun, hrest⟩ := started_cmdEnds h 0 0 0
  exact ⟨t, n, by rw [cmdNop, run_cmdStart _ h (.inl hop), hm, if_neg (by decide), hrun], hrest⟩

/-! What a write to the map leaves of the queues and the log. -/

/-- A program leaves what a function reads of a queue. -/
abbrev Act.KeepsBell {α : Type} (g : BellQ → α) (q : Nat) (a : Act) : Prop := a.Within fun p => ∀ s, g (bellQ (p.apply s) q) = g (bellQ s q)

theorem Act.KeepsBell.run {α : Type} {g : BellQ → α} {q : Nat} {a : Act} (h : a.KeepsBell g q) (s : State) : g (bellQ (Machine.run a s) q) = g (bellQ s q) :=
  run_same (fun s => g (bellQ s q)) h s

section
variable {α : Type} {g : BellQ → α}

theorem keepsBell_of_changes {k : List Part} {a : Act} (h : a.Changes k) (hk : Part.bell ∉ k) : a.KeepsBell g q :=
  Act.Within.mono (fun p hp s => by
    cases p
    case bell f => exact absurd hp hk
    all_goals rfl) h.only

variable (hg : ∀ (x : BellQ) (f : List FarWrite) (n : Nat), g { x with far := f, farNo := n } = g x)
include hg

theorem keepsBell_farNote (p seq addr : Nat) (berth : Option Nat) : (farNote p seq addr berth).KeepsBell g q := fun s => by
  rw [Prim.apply, bellQ, bellQ]
  dsimp only
  rw [Cells.get_put]
  split
  · next hq => rw [hq]; exact hg ..
  · rfl

theorem keepsBell_farWrite (w : Writer) (b off a : Nat) (bs : List Byte) : (farWrite w b off a bs).KeepsBell g q := by
  rw [farWrite]
  split
  · exact (within_ask _).mpr fun _ => ⟨keepsBell_farNote hg _ _ _ _, keepsBell_of_changes (changes_sendWrite _ _ _ _) (by decide)⟩
  · exact keepsBell_of_changes (changes_sendWrite _ _ _ _) (by decide)

theorem keepsBell_writePiece (w : Writer) (rebuild : Bool) (a : Nat) (bs : List Byte) : (writePiece w rebuild a bs).KeepsBell g q := by
  have hdiscard : (specDiscard w a).KeepsBell g q := keepsBell_of_changes (changes_specDiscard _ _) (by decide)
  refine (within_ask _).mpr fun s => ⟨keepsBell_of_changes (changes_usePage _) (by decide), ?_, trivial⟩
  split
  case h_1 x obj _ =>
    split
    · exact hdiscard
    · cases obj with
      | none => exact ⟨keepsBell_of_changes (changes_storeMem _ _ _) (by decide), keepsBell_of_changes (changes_when (changes_frameUnpoison _ _)) (by decide), trivial⟩
      | some o => exact ⟨keepsBell_of_changes (changes_storeMem _ _ _) (by decide), keepsBell_of_changes (changes_unpoison _ _ _) (by decide), trivial⟩
  case h_2 b off _ =>
    split
    · exact hdiscard
    · exact ⟨(within_when _ _).mpr fun _ => ⟨fun _ => rfl, keepsBell_of_changes (changes_unpoison _ _ _) (by decide), trivial⟩, keepsBell_farWrite hg _ _ _ _ _, trivial⟩
  case h_3 x _ =>
    split
    · exact hdiscard
    · refine ⟨?_, fun _ => rfl, trivial⟩
      split
      · exact keepsBell_farNote hg _ _ _ _
      · trivial
  case h_4 => trivial

theorem keepsBell_mapWrite (w : Writer) (rebuild : Bool) (a : Nat) (bs : List Byte) : (mapWrite w rebuild a bs).KeepsBell g q := by
  refine ⟨(within_each _ _).mpr fun _ _ => keepsBell_writePiece hg _ _ _ _, (within_ask _).mpr fun s => ?_, trivial⟩
  split
  · exact keepsBell_of_changes (changes_clearBlocks _ _ _) (by decide)
  · trivial

end

/-- A write that is not speculative logs nothing (R211). -/
theorem changes_writePiece_plain {w : Writer} (hcc : w.cc = false) (rebuild : Bool) (a : Nat) (bs : List Byte) :
    (writePiece w rebuild a bs).Changes [.free, .out, .regs, .mem, .tier, .coh, .hural, .bell] := by
  refine changes_ask fun s => changes_cons ((changes_usePage _).up rfl) (changes_cons ?_ changes_nil)
  rw [hcc]
  split
  · rw [Bool.false_and, if_neg (by decide)]
    split
    · exact changes_cons ((changes_storeMem _ _ _).up rfl) (changes_cons (changes_when ((changes_frameUnpoison _ _).up rfl)) changes_nil)
    · exact changes_cons ((changes_storeMem _ _ _).up rfl) (changes_cons ((changes_unpoison _ _ _).up rfl) changes_nil)
  · rw [if_neg (by decide)]
    exact changes_cons (changes_when (changes_cons ((changes_updTier _).up rfl) (changes_cons ((changes_unpoison _ _ _).up rfl) changes_nil)))
      (changes_cons ((changes_farWrite _ _ _ _ _).up rfl) changes_nil)
  · rw [if_neg (by decide)]
    refine changes_cons ?_ (changes_cons ((changes_send _).up rfl) changes_nil)
    split
    · exact (changes_farNote _ _ _ _).up rfl
    · exact changes_skip
  · exact changes_skip

theorem changes_mapWrite_plain {w : Writer} (hcc : w.cc = false) (rebuild : Bool) (a : Nat) (bs : List Byte) :
    (mapWrite w rebuild a bs).Changes [.free, .out, .regs, .mem, .tier, .coh, .hural, .bell] := by
  refine changes_cons (changes_each fun _ => changes_writePiece_plain hcc _ _ _) (changes_cons (changes_ask fun _ => ?_) changes_nil)
  split
  · exact (changes_clearBlocks _ _ _).up rfl
  · exact changes_skip

/-! A write within one line of warehouse or quay. -/

/-- A direct window routes to memory or faults. -/
theorem route_of_memory {p : Piece} (hm : (isWarehouse p.a || isQuay p.a) = true) (s : State) : route s p = .fault ∨ route s p = .mem p.a none := by
  rw [route, if_pos hm]
  split
  · exact .inl rfl
  · split
    · exact .inl rfl
    · exact .inr rfl

theorem route_mem_of_clear {p : Piece} (hm : (isWarehouse p.a || isQuay p.a) = true) (h : (route s p).stops = false) : route s p = .mem p.a none :=
  (route_of_memory hm s).resolve_left fun hf => absurd (hf ▸ h) (by decide)

theorem route_mem_of_firstFault {p : Piece} (hm : (isWarehouse p.a || isQuay p.a) = true) (h : firstFault s [p] = none) : route s p = .mem p.a none :=
  (route_of_memory hm s).resolve_left fun hf => by simp [firstFault, hf, Route.stops] at h

theorem mapWrite_line {a : Nat} {bs : List Byte} (w : Writer) (rebuild : Bool) (hw : a % 64 + bs.length ≤ 64) (hm : (isWarehouse a || isQuay a) = true)
    (hr : 0 < bs.length → route s { a := a, n := bs.length, wr := true, rebuild := rebuild } = .mem a none) (hcc : w.cc = false)
    (hd : Cells.look s.coh.dir (a / 64) = none) (hpois : isPoisoned s a = false) : let t := run (mapWrite w rebuild a bs) s
    readMem t a bs.length = bs ∧ (∀ b, b < a ∨ a + bs.length ≤ b → readByte t b = readByte s b) ∧ t.regs = s.regs := by
  dsimp only
  rcases Nat.eq_zero_or_pos bs.length with h0 | hn
  · obtain rfl := List.length_eq_zero_iff.mp h0
    have hblocks : (mapWrite w rebuild a []).Changes [.tier] := by
      refine changes_cons changes_skip (changes_cons (changes_ask fun _ => ?_) changes_nil)
      split
      · exact changes_clearBlocks _ _ _
      · exact changes_skip
    exact ⟨rfl, fun b _ => readByte_congr (mem_of_changes hblocks (by decide) s) (only_coh hblocks.only (by decide) s) b, regs_of_changes hblocks (by decide) s⟩
  · obtain ⟨b, hb, hrun⟩ := run_mapWrite_of_within w rebuild hn hw hm (hr hn) (by rw [hcc]; rfl) hd hpois
    have hnone : ∀ k, k < bs.length → cohData s ((a + k) / 64) = none := fun k hk => by
      rw [show (a + k) / 64 = a / 64 by omega]
      exact cohData_of_dir hd
    have hmem := only_mem hb (by decide) (run (writeMem a bs) s)
    have hcoh := only_coh hb (by decide) (run (writeMem a bs) s)
    rw [hrun]
    refine ⟨?_, fun k hk => ?_, ?_⟩
    · exact (readMem_congr hmem hcoh _ _).trans (writeMem_readMem _ _ _ hnone)
    · exact (readByte_congr hmem hcoh _).trans (writeMem_readByte_other _ _ _ _ hk)
    · rw [only_regs hb (by decide), writeMem_regs]

/-! PUT (R301). -/

theorem firstFault_withBell (b : FMap BellQ) (s : State) (l : List Piece) : firstFault (withBell s b) l = firstFault s l := (rfl)

theorem bellQ_mapWrite (w : Writer) (rebuild : Bool) (a : Nat) (bs : List Byte) (s : State) :
    (bellQ (run (mapWrite w rebuild a bs) s) q).cmds = (bellQ s q).cmds ∧ (bellQ (run (mapWrite w rebuild a bs) s) q).done = (bellQ s q).done :=
  ⟨(keepsBell_mapWrite (g := BellQ.cmds) (fun _ _ _ => rfl) w rebuild a bs).run s, (keepsBell_mapWrite (g := BellQ.done) (fun _ _ _ => rfl) w rebuild a bs).run s⟩

theorem run_cmdPut (h : nextStart s q = some c) (hheld : cdmaHeld s (putPieces c) = false) : run (cmdPut q) s = run (cmdStart q 1 (putRun q)) s := by
  have hput : putHeld s q = false := by rw [putHeld, h]; dsimp only; rw [hheld, Bool.and_false]
  rw [cmdPut, run_given, hput, Bool.not_false, if_pos rfl]

theorem run_cmdPut_malformed (h : nextStart s q = some c) (hm : malformed c.entry = true) : run (cmdPut q) s = run (cmdStart q 1 (putRun q)) s := by
  have hput : putHeld s q = false := by rw [putHeld, h]; dsimp only; rw [hm, Bool.not_true, Bool.and_false, Bool.false_and]
  rw [cmdPut, run_given, hput, Bool.not_false, if_pos rfl]

theorem run_putRun_clear (hf : firstFault s (putPieces c) = none) : run (putRun q c) s =
    run (cmdEnds q c 0 (ePayload c.entry).length 0) (run (mapWrite (cmdWriter q c.entry) true (eDst c.entry) (ePayload c.entry)) s) := by
  rw [putRun, run_ask]
  dsimp only
  rw [hf, run_all_cons, run_all_cons, run_all_nil, writeUpTo]

theorem run_putRun_fault {x : Nat} (hf : firstFault s (putPieces c) = some x) : run (putRun q c) s =
    run (cmdEnds q c 0x03 (x - eDst c.entry) x) (run (accessFault .copyDma (BitVec.ofNat 48 x))
      (run (mapWrite (cmdWriter q c.entry) true (eDst c.entry) ((ePayload c.entry).take (x - eDst c.entry))) s)) := by
  rw [putRun, run_ask]
  dsimp only
  rw [hf, run_all_cons, run_all_cons, run_all_nil, writeUpTo]
  dsimp only
  rw [run_all_cons, run_all_cons, run_all_nil]

theorem cmdPut_clear (h : nextStart s q = some c) (hm : malformed c.entry = false) (hop : eOpcode c.entry = 1) (hheld : cdmaHeld s (putPieces c) = false)
    (hf : firstFault s (putPieces c) = none) : let t := run (cmdPut q) s
    (bellQ t q).cmds = (bellQ s q).cmds.erase c ∧ (∀ r i j, r ≠ .COH_HOLDSNP → getReg t r i j = getReg s r i j) ∧
      (bellQ t q).done = (bellQ s q).done ++ [{ entry := c.entry, index := c.index, status := 0, result := (ePayload c.entry).length, detail := 0 }] ∧
      ((isWarehouse (eDst c.entry) || isQuay (eDst c.entry)) = true → eDst c.entry % 64 + (ePayload c.entry).length ≤ 64 →
        Cells.look s.coh.dir (eDst c.entry / 64) = none → isPoisoned s (eDst c.entry) = false →
        readMem t (eDst c.entry) (ePayload c.entry).length = ePayload c.entry ∧
        ∀ b, b < eDst c.entry ∨ eDst c.entry + (ePayload c.entry).length ≤ b → readByte t b = readByte s b) := by
  obtain ⟨b, n, hrun, hq⟩ := run_cmdStart_good (putRun q) h hop hm
  obtain ⟨hcmds, hdone⟩ := bellQ_mapWrite (q := q) (cmdWriter q c.entry) true (eDst c.entry) (ePayload c.entry) (withBell s b)
  have hregs : ∀ r i j, r ≠ .COH_HOLDSNP → getReg (run (mapWrite (cmdWriter q c.entry) true (eDst c.entry) (ePayload c.entry)) (withBell s b)) r i j = getReg s r i j :=
    fun r i j hr => (writes_mapWrite (l := [.COH_HOLDSNP]) (by decide) _ _ _ _).getReg (by simpa using hr) i j (withBell s b)
  have hline := mapWrite_line (s := withBell s b) (a := eDst c.entry) (bs := ePayload c.entry) (cmdWriter q c.entry) true
  rw [run_cmdPut h hheld, hrun, run_putRun_clear ((firstFault_withBell ..).trans hf)]
  rw [hq] at hcmds hdone
  generalize run (mapWrite (cmdWriter q c.entry) true (eDst c.entry) (ePayload c.entry)) (withBell s b) = u at *
  obtain ⟨hend, huregs, humem, -⟩ := cmdEnds_spec (q := q) c 0 (ePayload c.entry).length 0 u
  have hucoh := only_coh (changes_cmdEnds q c 0 (ePayload c.entry).length 0).only (by decide) u
  generalize run (cmdEnds q c 0 (ePayload c.entry).length 0) u = t at *
  refine ⟨?_, fun r i j hr => ?_, ?_, fun hmem hw hd hpois => ?_⟩
  · rw [hend]; exact congrArg (fun l => l.erase c) hcmds
  · rw [getReg, huregs]; exact hregs r i j hr
  · rw [hend]; exact congrArg (fun l => l ++ _) hdone
  · obtain ⟨hread, hother, -⟩ := hline hw hmem (fun hn => by
      rw [putPieces, piecesOf_of_within true false hn hw] at hf
      exact (route_rebuild hmem _ _ _ _ _).trans (route_mem_of_firstFault (p := { a := eDst c.entry, n := _, wr := true, rebuild := false }) hmem hf)) rfl hd hpois
    exact ⟨(readMem_congr humem hucoh _ _).trans hread, fun b hb => (readByte_congr humem hucoh b).trans ((hother b hb).trans (readByte_congr rfl rfl b))⟩

theorem cmdPut_fault {x : Nat} (h : nextStart s q = some c) (hm : malformed c.entry = false) (hop : eOpcode c.entry = 1)
    (hheld : cdmaHeld s (putPieces c) = false) (hf : firstFault s (putPieces c) = some x) : let t := run (cmdPut q) s
    (bellQ t q).cmds = (bellQ s q).cmds.erase c ∧ (∀ r i j, r ≠ .COH_HOLDSNP → getReg t r i j = getReg s r i j) ∧ Safety.Logged .accessFault s t ∧
      (bellQ t q).done = (bellQ s q).done ++ [{ entry := c.entry, index := c.index, status := 3, result := x - eDst c.entry, detail := x }] := by
  obtain ⟨b, n, hrun, hq⟩ := run_cmdStart_good (putRun q) h hop hm
  rw [run_cmdPut h hheld, hrun, run_putRun_fault ((firstFault_withBell ..).trans hf)]
  obtain ⟨hcmds, hdone⟩ := bellQ_mapWrite (q := q) (cmdWriter q c.entry) true (eDst c.entry) ((ePayload c.entry).take (x - eDst c.entry)) (withBell s b)
  have hregs : ∀ r i j, r ≠ .COH_HOLDSNP → getReg (run (mapWrite (cmdWriter q c.entry) true (eDst c.entry) ((ePayload c.entry).take (x - eDst c.entry))) (withBell s b)) r i j =
    getReg s r i j := fun r i j hr => (writes_mapWrite (l := [.COH_HOLDSNP]) (by decide) _ _ _ _).getReg (by simpa using hr) i j (withBell s b)
  have htally : Safety.tally (run (mapWrite (cmdWriter q c.entry) true (eDst c.entry) ((ePayload c.entry).take (x - eDst c.entry))) (withBell s b)) .accessFault =
    Safety.tally s .accessFault := tally_of_changes (changes_mapWrite_plain (w := cmdWriter q c.entry) rfl _ _ _) (by decide) _ _
  rw [hq] at hcmds hdone
  generalize run (mapWrite (cmdWriter q c.entry) true (eDst c.entry) ((ePayload c.entry).take (x - eDst c.entry))) (withBell s b) = u at *
  have hfq := bellQ_of_changes (changes_accessFault .copyDma (BitVec.ofNat 48 x)) (by decide) u q
  have hfregs := regs_of_changes (changes_accessFault .copyDma (BitVec.ofNat 48 x)) (by decide) u
  have hlog : Safety.Logged .accessFault s (run (accessFault .copyDma (BitVec.ofNat 48 x)) u) := by
    rw [accessFault, run_all_cons, run_all_cons, run_all_nil]
    exact logged_logEv (by decide) _ _ _ ((tally_of_changes (changes_send _) (by decide) _ _).trans htally)
  generalize run (accessFault .copyDma (BitVec.ofNat 48 x)) u = v at *
  obtain ⟨hend, hvregs, -, -⟩ := cmdEnds_spec (q := q) c 3 (x - eDst c.entry) x v
  refine ⟨?_, fun r i j hr => ?_, Logged.congr hlog rfl (tally_of_changes (changes_cmdEnds _ _ _ _ _) (by decide) _ _), ?_⟩
  · rw [hend, hfq]; exact congrArg (fun l => l.erase c) hcmds
  · rw [getReg, hvregs, hfregs]; exact hregs r i j hr
  · rw [hend, hfq]; exact congrArg (fun l => l ++ _) hdone

end

end Sys2Proof.Machine

/-! PROOFS. COPY and PLAN commands, and requests of devices through the IOMMU (R293, R294, R302, R303). -/

namespace Sys2Proof.Machine

section
variable {s : State} {q : Nat} {c : BCmd}

/-! COPY (R293). -/

/-- A command of a queue with its state changed. -/
def BCmd.at (c : BCmd) (st : CmdSt) : BCmd := { c with st := st }

/-- The commands of a queue once one of them stands in another state. -/
def cmdsWith (l : List BCmd) (c : BCmd) (st : CmdSt) : List BCmd := l.map fun y => if y = c then c.at st else y

theorem cmdState_spec (c : BCmd) (st : CmdSt) (s : State) : ∃ b, run (cmdState q c st) s = withBell s b ∧
    (bellQ (withBell s b) q).cmds = cmdsWith (bellQ s q).cmds c st ∧ (bellQ (withBell s b) q).done = (bellQ s q).done := by
  have hrun := run_of_bell (changes_cmdState q c st) s
  have hq : bellQ (run (cmdState q c st) s) q = { bellQ s q with cmds := cmdsWith (bellQ s q).cmds c st } := bellQ_updBell_same ..
  rw [hrun] at hq
  exact ⟨_, hrun, by rw [hq], by rw [hq]⟩

theorem mem_cmdsWith {l : List BCmd} (h : c ∈ l) (st : CmdSt) : c.at st ∈ cmdsWith l c st := List.mem_map.mpr ⟨c, h, if_pos rfl⟩

theorem length_cmdsWith (l : List BCmd) (c : BCmd) (st : CmdSt) : (cmdsWith l c st).length = l.length := List.length_map ..

/-- The copy engines begin with the next COPY. -/
theorem run_cmdCopy (hnone : (bellQ s q).cmds.find? (copyReady s q) = none) (htake : copiesTake s = true) :
    run (cmdCopy q) s = run (cmdStart q 2 (copyStart q)) s := by
  rw [cmdCopy, run_ask, hnone]
  dsimp only
  rw [htake, Act.when, if_pos rfl]

theorem copyFree_started (hpre : ePrefill c.entry = false) (hheld : copyHeld s c.entry = false) (hdue : fetchDue s (copyFor q c.entry) = false) :
    copyFree s q (c.at .copying) = true := by
  rw [copyFree, show (c.at .copying).entry = c.entry from rfl, show (c.at .copying).st = .copying from rfl, hheld, hdue, fillHome, hpre, decide_eq_true rfl]
  rfl

theorem run_copyStart (hpre : ePrefill c.entry = false) : run (copyStart q c) s = run (copyMove q (c.at .copying)) (run (cmdState q c .copying) s) := by
  rw [copyStart, run_seq, hpre]
  rfl

theorem run_copyMove (hpre : ePrefill c.entry = false) (hheld : copyHeld s c.entry = false)
    (hmiss : fetchMissing s (copyFor q c.entry) (piecesOf (eSrc c.entry) (eLen c.entry) false false) = []) (hdue : fetchDue s (copyFor q c.entry) = false) :
    run (copyMove q (c.at .copying)) s = run (copyBytes q (c.at .copying)) s := by
  rw [copyMove, run_given, copyFree_started hpre hheld hdue, if_pos rfl, fetched, run_ask, show (c.at .copying).entry = c.entry from rfl, hmiss, hdue]
  rfl

theorem copyHeld_withBell (b : FMap BellQ) (s : State) (e : List Byte) : copyHeld (withBell s b) e = copyHeld s e := (rfl)

theorem fetchMissing_withBell (b : FMap BellQ) (s : State) (w : FetchFor) (l : List Piece) : fetchMissing (withBell s b) w l = fetchMissing s w l := (rfl)

theorem route_withBell (b : FMap BellQ) (s : State) (p : Piece) : route (withBell s b) p = route s p := (rfl)

theorem okPieces_withBell (b : FMap BellQ) (s : State) (w : FetchFor) (l : List Piece) (a n : Nat) : okPieces (withBell s b) w l a n = okPieces s w l a n := by
  have href : ∀ p, fetchRefused (withBell s b) w p = fetchRefused s w p := fun _ => rfl
  simp only [okPieces, route_withBell, href]

theorem copyStop_withBell (b : FMap BellQ) (s : State) (q : Nat) (e : List Byte) : copyStop (withBell s b) q e = copyStop s q e := by
  rw [copyStop, copyStop, okPrefix, okPrefix, okPieces_withBell, okPieces_withBell]

/-- A COPY that starts with nothing to wait for moves its bytes. -/
theorem cmdCopy_starts (hnone : (bellQ s q).cmds.find? (copyReady s q) = none) (h : nextStart s q = some c) (hm : malformed c.entry = false) (hop : eOpcode c.entry = 2)
    (hpre : ePrefill c.entry = false) (htake : copiesTake s = true) (hheld : copyHeld s c.entry = false)
    (hmiss : fetchMissing s (copyFor q c.entry) (piecesOf (eSrc c.entry) (eLen c.entry) false false) = []) (hdue : fetchDue s (copyFor q c.entry) = false) :
    ∃ b, run (cmdCopy q) s = run (copyBytes q (c.at .copying)) (withBell s b) ∧ (bellQ (withBell s b) q).cmds = cmdsWith (bellQ s q).cmds c .copying ∧
      (bellQ (withBell s b) q).done = (bellQ s q).done := by
  obtain ⟨b, n, hrun, hq⟩ := run_cmdStart_good (copyStart q) h hop hm
  obtain ⟨d, hstate, hcmds, hdone⟩ := cmdState_spec (q := q) c .copying (withBell s b)
  refine ⟨d, ?_, hcmds.trans (by rw [hq]), hdone.trans (by rw [hq])⟩
  rw [run_cmdCopy hnone htake, hrun, run_copyStart hpre, hstate]
  exact run_copyMove hpre ((copyHeld_withBell ..).trans hheld) ((fetchMissing_withBell ..).trans hmiss) hdue

/-- The first piece of a range stops it, or nothing does. -/
theorem okPieces_single (w : FetchFor) (p : Piece) (n : Nat) :
    okPieces s w [p] p.a n = (n, none, none) ∧ (route s p).stops = false ∨ (okPieces s w [p] p.a n).1 = 0 ∧ (okPieces s w [p] p.a n).2 ≠ (none, none) := by
  rw [okPieces, List.find?_singleton]
  split
  · next hfind =>
    split at hfind
    · exact absurd hfind (by simp)
    · next hclear =>
      rw [Bool.not_eq_true, Bool.or_eq_false_iff] at hclear
      exact .inl ⟨rfl, hclear.1⟩
  · next p' hfind =>
    split at hfind
    · obtain rfl := Option.some.inj hfind
      split
      · exact .inr ⟨Nat.sub_self _, by simp⟩
      · exact .inr ⟨Nat.sub_self _, by simp⟩
    · exact absurd hfind (by simp)

/-- A COPY within two lines that meets no stop reads and writes memory. -/
theorem routes_of_copyStop {e : List Byte} (hlen : 0 < eLen e) (hstop : copyStop s q e = (eLen e, none, none)) (hsrc : (isWarehouse (eSrc e) || isQuay (eSrc e)) = true)
    (hdst : (isWarehouse (eDst e) || isQuay (eDst e)) = true) (hws : eSrc e % 64 + eLen e ≤ 64) (hwd : eDst e % 64 + eLen e ≤ 64) :
    route s { a := eSrc e, n := eLen e, wr := false, rebuild := false } = .mem (eSrc e) none ∧
      route s { a := eDst e, n := eLen e, wr := true, rebuild := true } = .mem (eDst e) none := by
  rw [copyStop, okPrefix, piecesOf_of_within false false hlen hws, piecesOf_of_within true true hlen hwd] at hstop
  have hs := okPieces_single (s := s) (copyFor q e) { a := eSrc e, n := eLen e, wr := false, rebuild := false } (eLen e)
  have hd := okPieces_single (s := s) (copyFor q e) { a := eDst e, n := eLen e, wr := true, rebuild := true } (eLen e)
  dsimp only at hstop hs hd
  rcases hs with ⟨hsval, hsclear⟩ | ⟨hszero, hsbad⟩
  · rcases hd with ⟨-, hdclear⟩ | ⟨hdzero, hdbad⟩
    · exact ⟨route_mem_of_clear hsrc hsclear, route_mem_of_clear hdst hdclear⟩
    · rw [hsval, hdzero, if_neg (by omega)] at hstop
      rw [hstop] at hdbad
      exact absurd rfl hdbad
  · rw [hszero, if_pos (Nat.zero_le _)] at hstop
    rw [hstop] at hsbad
    exact absurd rfl hsbad

theorem run_piecesDone_memory {p : Piece} (hm : (isWarehouse p.a || isQuay p.a) = true) (s : State) : run (piecesDone [p]) s = s := by
  rw [piecesDone, run_ask, run_each_cons, run_each_nil, run_all_cons, run_all_cons, run_all_nil, run_usePage_of_memory hm]
  rcases route_of_memory hm s with h | h
  · rw [h]; rfl
  · rw [h]; rfl

/-- A COPY that meets no stop moves its bytes and ends. -/
theorem run_copyBytes_moves {m : Nat} (h : copyStop s q c.entry = (m, none, none)) : run (copyBytes q c) s =
    Prim.apply .fresh (run (cmdEnds q c 0 m 0) (run (fetchDrop fun w => decide (w = copyFor q c.entry))
      (run (piecesDone ((piecesOf (eSrc c.entry) m false false).filter fun p => !isFar s p))
        (run (mapWrite (cmdWriter q c.entry) true (eDst c.entry) (mapRead (fetchPick s (copyFor q c.entry) (Config.freeValue s.free)) s (eSrc c.entry) m))
          (run (unitGoes (copyKey q (eSeq c.entry))) s))))) := by
  rw [copyBytes, run_ask]
  dsimp only
  rw [h]
  dsimp only
  rw [run_withFree, run_ask, run_all_cons, run_all_cons, run_all_cons, run_all_cons, run_all_cons, run_all_nil]

theorem run_copyBytes_stalls {m : Nat} {f : Option Nat} {st : StallAt} (h : copyStop s q c.entry = (m, f, some st)) :
    run (copyBytes q c) s = run (unitStall (copyKey q (eSeq c.entry)) st) s := by
  rw [copyBytes, run_ask]
  dsimp only
  rw [h]

theorem route_unitGoes {p : Piece} (hm : (isWarehouse p.a || isQuay p.a) = true) (k : Nat) (s : State) : route (run (unitGoes k) s) p = route s p := by
  have hq : quayUp (run (unitGoes k) s) p.a = quayUp s p.a := congrArg (fun n => decide (n = 0)) (dieState_of_changes (changes_unitGoes k) (by decide) s _)
  have hp : isPoisoned (run (unitGoes k) s) p.a = isPoisoned s p.a := rfl
  rw [route, route, if_pos hm, if_pos hm, hq, hp]

/-- The bytes of a COPY within a line each of its source and its destination (R293). -/
theorem copyBytes_spec (hlen : 0 < eLen c.entry) (hstop : copyStop s q c.entry = (eLen c.entry, none, none))
    (hsrc : (isWarehouse (eSrc c.entry) || isQuay (eSrc c.entry)) = true) (hdst : (isWarehouse (eDst c.entry) || isQuay (eDst c.entry)) = true)
    (hws : eSrc c.entry % 64 + eLen c.entry ≤ 64) (hwd : eDst c.entry % 64 + eLen c.entry ≤ 64) (hd : Cells.look s.coh.dir (eDst c.entry / 64) = none)
    (hpois : isPoisoned s (eDst c.entry) = false) : let t := run (copyBytes q c) s
    readMem t (eDst c.entry) (eLen c.entry) = readMem s (eSrc c.entry) (eLen c.entry) ∧
      (∀ b, b < eDst c.entry ∨ eDst c.entry + eLen c.entry ≤ b → readByte t b = readByte s b) ∧ (bellQ t q).cmds = (bellQ s q).cmds.erase c ∧
      (bellQ t q).done = (bellQ s q).done ++ [{ entry := c.entry, index := c.index, status := 0, result := eLen c.entry, detail := 0 }] ∧ t.regs = s.regs := by
  obtain ⟨hrs, hrd⟩ := routes_of_copyStop hlen hstop hsrc hdst hws hwd
  have hnear : isFar s { a := eSrc c.entry, n := eLen c.entry, wr := false, rebuild := false } = false := by rw [isFar, hrs]
  have hbytes : (readMem s (eSrc c.entry) (eLen c.entry)).length = eLen c.entry := by rw [readMem, List.length_map, List.length_range]
  dsimp only
  rw [run_copyBytes_moves hstop, mapRead_of_within hlen hws _ hrs, piecesOf_of_within false false hlen hws, List.filter_cons, hnear, Bool.not_false, if_pos rfl,
    List.filter_nil, run_piecesDone_memory (p := { a := eSrc c.entry, n := eLen c.entry, wr := false, rebuild := false }) hsrc]
  have hug := changes_unitGoes (copyKey q (eSeq c.entry))
  obtain ⟨hread, hother, hregs⟩ := mapWrite_line (s := run (unitGoes (copyKey q (eSeq c.entry))) s) (a := eDst c.entry) (bs := readMem s (eSrc c.entry) (eLen c.entry))
    (cmdWriter q c.entry) true (by rw [hbytes]; exact hwd) hdst
    (fun _ => by rw [hbytes]; exact (route_unitGoes (p := { a := eDst c.entry, n := eLen c.entry, wr := true, rebuild := true }) hdst _ s).trans hrd) rfl
    ((congrArg (fun x : CohSt => Cells.look x.dir (eDst c.entry / 64)) (only_coh hug.only (by decide) s)).trans hd) hpois
  obtain ⟨hcmds, hdone⟩ := bellQ_mapWrite (q := q) (cmdWriter q c.entry) true (eDst c.entry) (readMem s (eSrc c.entry) (eLen c.entry)) (run (unitGoes (copyKey q (eSeq c.entry))) s)
  rw [hbytes] at hread hother
  rw [bellQ_of_changes hug (by decide)] at hcmds hdone
  rw [regs_of_changes hug (by decide)] at hregs
  have hgoes : ∀ b, readByte (run (unitGoes (copyKey q (eSeq c.entry))) s) b = readByte s b := readByte_congr (mem_of_changes hug (by decide) s) (only_coh hug.only (by decide) s)
  generalize run (mapWrite (cmdWriter q c.entry) true (eDst c.entry) (readMem s (eSrc c.entry) (eLen c.entry))) (run (unitGoes (copyKey q (eSeq c.entry))) s) = u at *
  have hdrop := changes_fetchDrop fun w => decide (w = copyFor q c.entry)
  have hvmem := mem_of_changes hdrop (by decide) u
  have hvcoh := only_coh hdrop.only (by decide) u
  have hvregs := regs_of_changes hdrop (by decide) u
  have hvbell := bellQ_of_changes hdrop (by decide) u q
  generalize run (fetchDrop fun w => decide (w = copyFor q c.entry)) u = v at *
  obtain ⟨hend, htregs, htmem, -⟩ := cmdEnds_spec (q := q) c 0 (eLen c.entry) 0 v
  have htcoh := only_coh (changes_cmdEnds q c 0 (eLen c.entry) 0).only (by decide) v
  generalize run (cmdEnds q c 0 (eLen c.entry) 0) v = t at *
  refine ⟨?_, fun b hb => ?_, ?_, ?_, ?_⟩
  · exact (readMem_congr (t := Prim.apply .fresh t) (htmem.trans hvmem) (htcoh.trans hvcoh) _ _).trans hread
  · exact (readByte_congr (t := Prim.apply .fresh t) (htmem.trans hvmem) (htcoh.trans hvcoh) b).trans ((hother b hb).trans (hgoes b))
  · exact (congrArg BellQ.cmds hend).trans (congrArg (fun l => l.erase c) ((congrArg BellQ.cmds hvbell).trans hcmds))
  · exact (congrArg BellQ.done hend).trans (congrArg (fun l => l ++ _) ((congrArg BellQ.done hvbell).trans hdone))
  · exact htregs.trans (hvregs.trans hregs)

theorem eLen_pos (hm : malformed c.entry = false) (hop : eOpcode c.entry = 2) : 0 < eLen c.entry := by
  refine Nat.pos_of_ne_zero fun h0 => ?_
  simp [malformed, hop, h0] at hm

section
variable (hnone : (bellQ s q).cmds.find? (copyReady s q) = none) (h : nextStart s q = some c) (hm : malformed c.entry = false) (hop : eOpcode c.entry = 2)
  (hpre : ePrefill c.entry = false) (htake : copiesTake s = true) (hheld : copyHeld s c.entry = false)
  (hmiss : fetchMissing s (copyFor q c.entry) (piecesOf (eSrc c.entry) (eLen c.entry) false false) = []) (hdue : fetchDue s (copyFor q c.entry) = false)
include hnone h hm hop hpre htake hheld hmiss hdue

theorem cmdCopy_moves (hstop : copyStop s q c.entry = (eLen c.entry, none, none))
    (hsrc : (isWarehouse (eSrc c.entry) || isQuay (eSrc c.entry)) = true) (hdst : (isWarehouse (eDst c.entry) || isQuay (eDst c.entry)) = true)
    (hws : eSrc c.entry % 64 + eLen c.entry ≤ 64) (hwd : eDst c.entry % 64 + eLen c.entry ≤ 64) (hd : Cells.look s.coh.dir (eDst c.entry / 64) = none)
    (hpois : isPoisoned s (eDst c.entry) = false) : let t := run (cmdCopy q) s
    readMem t (eDst c.entry) (eLen c.entry) = readMem s (eSrc c.entry) (eLen c.entry) ∧
      (∀ b, b < eDst c.entry ∨ eDst c.entry + eLen c.entry ≤ b → readByte t b = readByte s b) ∧ (bellQ t q).cmds.length + 1 = (bellQ s q).cmds.length ∧
      (bellQ t q).done = (bellQ s q).done ++ [{ entry := c.entry, index := c.index, status := 0, result := eLen c.entry, detail := 0 }] ∧ t.regs = s.regs := by
  obtain ⟨b, hrun, hcmds, hdone⟩ := cmdCopy_starts hnone h hm hop hpre htake hheld hmiss hdue
  obtain ⟨hread, hother, htcmds, htdone, hregs⟩ := copyBytes_spec (s := withBell s b) (q := q) (c := c.at .copying) (eLen_pos hm hop) ((copyStop_withBell ..).trans hstop)
    hsrc hdst hws hwd hd hpois
  dsimp only
  rw [hrun]
  refine ⟨hread.trans (readMem_congr rfl rfl _ _), fun k hk => (hother k hk).trans (readByte_congr rfl rfl k), ?_, htdone.trans (by rw [hdone]; rfl), hregs⟩
  have hmem := mem_cmdsWith (mem_cmds_of_nextStart h) .copying
  rw [htcmds, hcmds, List.length_erase_of_mem hmem, ← length_cmdsWith (bellQ s q).cmds c .copying]
  exact Nat.sub_add_cancel (List.length_pos_of_mem hmem)

theorem cmdCopy_stalls (hstop : (copyStop s q c.entry).2.2 ≠ none) : let t := run (cmdCopy q) s
    (bellQ t q).done = (bellQ s q).done ∧ (bellQ t q).cmds = cmdsWith (bellQ s q).cmds c .copying := by
  obtain ⟨b, hrun, hcmds, hdone⟩ := cmdCopy_starts hnone h hm hop hpre htake hheld hmiss hdue
  obtain ⟨st, hst⟩ := Option.ne_none_iff_exists'.mp hstop
  have hall : copyStop (withBell s b) q (c.at .copying).entry = ((copyStop s q c.entry).1, (copyStop s q c.entry).2.1, some st) := by rw [← hst]; exact copyStop_withBell ..
  dsimp only
  rw [hrun, run_copyBytes_stalls hall, bellQ_of_changes (changes_unitStall _ _) (by decide)]
  exact ⟨hdone, hcmds⟩

end

/-! PLAN (R294). -/

theorem planSlot_spec (p addr : Nat) (s : State) : let t := run (planSlot p addr true) s
    getF t TIDE_PLAN.VALID p = 1 ∧ getF t TIDE_PLAN.ADDR p = addr / 64 % 2 ^ TIDE_PLAN.ADDR.width := by
  dsimp only
  rw [planSlot, run_all_cons, run_all_cons, run_all_cons, run_all_nil, Act.when, if_pos rfl, getF_of_changes (changes_updPart _ _) (by decide),
    getF_of_changes (changes_updPart _ _) (by decide), getF_setF_fits (by decide), getF_setF_apart (by decide), getF_setF_fits (by decide)]
  exact ⟨rfl, rfl⟩

theorem planDeliver_free (hv : getB s TIDE_PLAN.VALID (ePart c.entry) = false) : let t := run (planDeliver q c) s
    t.mem = s.mem ∧ (bellQ t q).done = (bellQ s q).done ∧ getF t TIDE_PLAN.VALID (ePart c.entry) = 1 ∧
      getF t TIDE_PLAN.ADDR (ePart c.entry) = eSrc c.entry / 64 % 2 ^ TIDE_PLAN.ADDR.width ∧ (bellQ t q).cmds = cmdsWith (bellQ s q).cmds c .planned := by
  dsimp only
  rw [planDeliver, run_ask, hv, if_neg (by decide), run_all_cons, run_all_cons, run_all_nil]
  obtain ⟨hvalid, haddr⟩ := planSlot_spec (ePart c.entry) (eSrc c.entry) s
  have hbell := bellQ_of_changes (changes_planSlot (ePart c.entry) (eSrc c.entry) true) (by decide) s q
  have hmem := mem_of_changes (changes_planSlot (ePart c.entry) (eSrc c.entry) true) (by decide) s
  generalize run (planSlot (ePart c.entry) (eSrc c.entry) true) s = u at *
  obtain ⟨b, hrun, hcmds, hdone⟩ := cmdState_spec (q := q) c .planned u
  rw [hrun, hcmds, hdone, hbell]
  exact ⟨hmem, rfl, hvalid, haddr, rfl⟩

theorem planDeliver_taken (hv : getB s TIDE_PLAN.VALID (ePart c.entry) = true) : let t := run (planDeliver q c) s
    t.mem = s.mem ∧ (bellQ t q).done = (bellQ s q).done ∧ t.regs = s.regs ∧ (bellQ t q).cmds = cmdsWith (bellQ s q).cmds c .planWait := by
  obtain ⟨b, hrun, hcmds, hdone⟩ := cmdState_spec (q := q) c .planWait s
  dsimp only
  rw [planDeliver, run_ask, hv, if_pos rfl, hrun]
  exact ⟨rfl, hdone, rfl, hcmds⟩

theorem cmdPlan_spec (h : nextStart s q = some c) (hm : malformed c.entry = false) (hop : eOpcode c.entry = 3) : let t := run (cmdPlan q) s
    t.mem = s.mem ∧ (bellQ t q).done = (bellQ s q).done ∧
      (getB s TIDE_PLAN.VALID (ePart c.entry) = false → getF t TIDE_PLAN.VALID (ePart c.entry) = 1 ∧
        getF t TIDE_PLAN.ADDR (ePart c.entry) = eSrc c.entry / 64 % 2 ^ TIDE_PLAN.ADDR.width ∧ (bellQ t q).cmds = cmdsWith (bellQ s q).cmds c .planned) ∧
      (getB s TIDE_PLAN.VALID (ePart c.entry) = true → t.regs = s.regs ∧ (bellQ t q).cmds = cmdsWith (bellQ s q).cmds c .planWait) := by
  obtain ⟨b, n, hrun, hq⟩ := run_cmdStart_good (planDeliver q) h hop hm
  have hvalid : getB (withBell s b) TIDE_PLAN.VALID (ePart c.entry) = getB s TIDE_PLAN.VALID (ePart c.entry) := rfl
  have hcmds : (bellQ (withBell s b) q).cmds = (bellQ s q).cmds := by rw [hq]
  have hdone : (bellQ (withBell s b) q).done = (bellQ s q).done := by rw [hq]
  dsimp only
  rw [cmdPlan, hrun]
  cases hv : getB s TIDE_PLAN.VALID (ePart c.entry) with
  | false =>
    obtain ⟨hmem, htdone, hval, haddr, htcmds⟩ := planDeliver_free (q := q) (hvalid.trans hv)
    rw [hcmds] at htcmds
    exact ⟨hmem, htdone.trans hdone, fun _ => ⟨hval, haddr, htcmds⟩, fun hc => absurd hc (by decide)⟩
  | true =>
    obtain ⟨hmem, htdone, hregs, htcmds⟩ := planDeliver_taken (q := q) (hvalid.trans hv)
    rw [hcmds] at htcmds
    exact ⟨hmem, htdone.trans hdone, fun hc => absurd hc (by decide), fun _ => ⟨hregs, htcmds⟩⟩

theorem run_cmdPlanDeliver (h : ((bellQ s q).cmds.find? fun c => decide (c.st = .planWait) && !getB s TIDE_PLAN.VALID (ePart c.entry)) = some c) :
    run (cmdPlanDeliver q) s = run (planDeliver q c) s ∧ getB s TIDE_PLAN.VALID (ePart c.entry) = false := by
  refine ⟨by rw [cmdPlanDeliver, run_ask, h], ?_⟩
  have hc := List.find?_some h
  rw [Bool.and_eq_true, Bool.not_eq_true'] at hc
  exact hc.2

end

/-! Requests of devices (R302, R303). -/

section
variable {s : State} {n : Fin 4} {a : Addr}

theorem deviceWrite_refused {bs : List Byte} (hmsi : isMsi s a.toNat bs.length = false) (h : iommuAdmits s n a.toNat bs.length = false) :
    let t := run (deviceWrite n a bs) s
    getF t BELL_IOMMU.WBLOCK 0 n = min (getF s BELL_IOMMU.WBLOCK 0 n + 1) (2 ^ 32 - 1) ∧ Safety.Logged .iommuRefused s t ∧ t.mem = s.mem ∧ t.out = s.out := by
  dsimp only
  rw [deviceWrite, run_ask, hmsi, h, if_neg (by decide), if_neg (by decide), run_all_cons, run_all_cons, run_all_nil]
  refine ⟨?_, logged_logEv (by decide) _ _ _ (incF_tally ..), ?_, ?_⟩
  · rw [getF_of_changes (changes_logEv _ _ _ _) (by decide), getF_incF_fits (by decide)]; rfl
  · rw [mem_of_changes (changes_logEv _ _ _ _) (by decide), incF_mem]
  · rw [only_out (changes_logEv _ _ _ _).only (by decide), incF_out]

theorem deviceRead_refused {k : Nat} (h : iommuAdmits s n a.toNat k = false) : let t := run (deviceRead n a k) s
    t.out = .unsupported n.val a :: s.out ∧ getF t BELL_IOMMU.RBLOCK 0 n = min (getF s BELL_IOMMU.RBLOCK 0 n + 1) (2 ^ 32 - 1) ∧ Safety.Logged .iommuRefused s t ∧
      t.mem = s.mem := by
  dsimp only
  rw [deviceRead, run_ask, h, if_neg (by decide), run_all_cons, run_all_cons, run_all_cons, run_all_nil]
  have hsend : (run (send (.unsupported n.val a)) s).out = .unsupported n.val a :: s.out := rfl
  have hmem := mem_of_changes (changes_send (.unsupported n.val a)) (by decide) s
  have htally := tally_of_changes (changes_send (.unsupported n.val a)) (by decide) s .iommuRefused
  have hcount := getF_of_changes (changes_send (.unsupported n.val a)) (by decide) BELL_IOMMU.RBLOCK 0 n.val s
  generalize run (send (.unsupported n.val a)) s = u at *
  refine ⟨?_, ?_, logged_logEv (by decide) _ _ _ ((incF_tally ..).trans htally), ?_⟩
  · rw [only_out (changes_logEv _ _ _ _).only (by decide), incF_out, hsend]
  · rw [getF_of_changes (changes_logEv _ _ _ _) (by decide), getF_incF_fits (by decide), hcount]; rfl
  · rw [mem_of_changes (changes_logEv _ _ _ _) (by decide), incF_mem, hmem]

theorem deviceWrite_served {bs : List Byte} (hmsi : isMsi s a.toNat bs.length = false) (h : iommuAdmits s n a.toNat bs.length = true) (hn : 0 < bs.length)
    (hw : a.toNat % 64 + bs.length ≤ 64) (hm : (isWarehouse a.toNat || isQuay a.toNat) = true)
    (hr : route s { a := a.toNat, n := bs.length, wr := true, rebuild := false } = .mem a.toNat none) (hd : Cells.look s.coh.dir (a.toNat / 64) = none)
    (hpois : isPoisoned s a.toNat = false) : let t := run (deviceWrite n a bs) s
    readMem t a.toNat bs.length = bs ∧ t.regs = s.regs ∧ ∀ b, b < a.toNat ∨ a.toNat + bs.length ≤ b → readByte t b = readByte s b := by
  obtain ⟨-, hread, hother, hregs⟩ := accessServe_write_spec (.pcie n) false 0 0 hn hw hm hr rfl hd hpois
  dsimp only
  rw [deviceWrite, run_ask, hmsi, h, if_neg (by decide), if_pos rfl, memAccess_serve true (accessPieces_of_within (.pcie n) (op := .write bs false 0 0) hn hw) hr rfl]
  exact ⟨hread, hregs, hother⟩

theorem deviceRead_served {k : Nat} (h : iommuAdmits s n a.toNat k = true) (hk : 0 < k) (hw : a.toNat % 64 + k ≤ 64) (hm : (isWarehouse a.toNat || isQuay a.toNat) = true)
    (hr : route s { a := a.toNat, n := k, wr := false, rebuild := false } = .mem a.toNat none) : let t := run (deviceRead n a k) s
    t.out = .resp (.pcie n) a (readMem s a.toNat k) :: s.out ∧ t.mem = s.mem ∧ t.regs = s.regs := by
  dsimp only
  rw [deviceRead, run_ask, h, if_pos rfl, memAccess_serve true (accessPieces_of_within (.pcie n) (op := .read k) hk hw) hr rfl, run_accessServe_read (.pcie n) hk hw hm hr]
  exact ⟨rfl, rfl, rfl⟩

end

/-- Settles O34: a start changes the queues alone, and a write within a line of warehouse or quay stores its bytes there and nothing elsewhere. -/
theorem commandsAndDevices : Obligations.CommandsAndDevices := by
  unfold Obligations.CommandsAndDevices
  refine ⟨fun s q c h hm hop => ?_, fun s q c h hm => ⟨fun hop => ?_, fun hop => ?_, fun hop hnone htake => ?_, fun hop => ?_⟩,
    fun s q c h hm hop hheld => ⟨fun _ hf => ⟨_, rfl, cmdPut_clear h hm hop hheld hf⟩, fun x _ hf => ⟨_, rfl, cmdPut_fault h hm hop hheld hf⟩⟩,
    fun s q c hnone h hm hop hpre htake hheld hmiss hdue => ⟨fun hstop hsrc hdst hws hwd hd hpois => ?_, fun hstop => ?_⟩,
    fun s q c h hm hop => ⟨_, rfl, cmdPlan_spec h hm hop⟩, fun s q c h => ?_, fun s n a bs => ⟨fun hmsi => ?_, fun hmsi h => ⟨_, rfl, deviceWrite_refused hmsi h⟩, ?_⟩,
    fun s n a k => ⟨fun h => ⟨_, rfl, deviceRead_refused h⟩, fun h hk hw hm hr => ⟨_, rfl, deviceRead_served h hk hw hm hr⟩⟩⟩
  · obtain ⟨t, k, hrun, hrest⟩ := cmdNop_good h hm hop
    exact ⟨t, k, congrArg Host.Outcome.next hrun, hrest⟩
  · obtain ⟨t, k, hrun, hrest⟩ := cmdStart_malformed (op := 0) (fun c => cmdEnds q c 0 0 0) h (hop.imp id fun h3 => ⟨rfl, h3⟩) hm
    exact ⟨t, k, congrArg Host.Outcome.next hrun, hrest⟩
  · obtain ⟨t, k, hrun, hrest⟩ := cmdStart_malformed (putRun q) h (.inl hop) hm
    exact ⟨t, k, congrArg Host.Outcome.next ((run_cmdPut_malformed h hm).trans hrun), hrest⟩
  · obtain ⟨t, k, hrun, hrest⟩ := cmdStart_malformed (copyStart q) h (.inl hop) hm
    exact ⟨t, k, congrArg Host.Outcome.next ((run_cmdCopy hnone htake).trans hrun), hrest⟩
  · obtain ⟨t, k, hrun, hrest⟩ := cmdStart_malformed (planDeliver q) h (.inl hop) hm
    exact ⟨t, k, congrArg Host.Outcome.next hrun, hrest⟩
  · exact ⟨_, rfl, cmdCopy_moves hnone h hm hop hpre htake hheld hmiss hdue hstop hsrc hdst hws hwd hd hpois⟩
  · exact ⟨_, rfl, cmdCopy_stalls hnone h hm hop hpre htake hheld hmiss hdue hstop⟩
  · obtain ⟨hrun, hv⟩ := run_cmdPlanDeliver h
    obtain ⟨hmem, -, hvalid, haddr, hcmds⟩ := planDeliver_free (q := q) hv
    exact ⟨_, congrArg Host.Outcome.next hrun, hmem, hvalid, haddr, hcmds⟩
  · exact ⟨_, rfl, by rw [deviceWrite, run_ask, hmsi, if_pos rfl]; rfl⟩
  · exact fun hmsi h hn hw hm hr hd hpois => ⟨_, rfl, deviceWrite_served hmsi h hn hw hm hr hd hpois⟩

end Sys2Proof.Machine
